-- ==== Sys2Proof/Word.lean ====
section
/-!
DEFINITION. Word.lean: the word types of the device and nothing else.
-/
namespace Sys2Proof

/-- A BAR0 register or a 32-bit message word (R5). -/
abbrev Word := BitVec 32

/-- A byte of a frame, a message or a buffer. -/
abbrev Byte := BitVec 8

/-- A value of the raw counter, in units of 2^-16 ns (R71). -/
abbrev Raw := BitVec 96

end Sys2Proof
end

