-- ==== Sys2Proof/Types.lean ====
section
/-!
DEFINITION. Types.lean: the plain data that commands carry and State holds: modes, long operations, frames, image
headers, messages. Names are the manual's.
-/
namespace Sys2Proof

/-- The six operating modes, in the encoding order of DEV_MODE.MODE (Table 03.1). -/
inductive Mode where
  | load | commission | active | standby | maintenance | safe
deriving DecidableEq, Repr

/-- The long operations (Table 02.12); a check-value scan names its unit. -/
inductive LongOp where
  | imageLoad | imageSwap | memoryBist | rehash | trieRebuild | fixCheck | audit | sweep | bulkSync | zeroisation
  | scan (u : Nat)
deriving DecidableEq, Repr

/-- A converted time stamp as a descriptor carries it (R81). -/
structure Stamp where
  view : Nat := 0
  ns32 : Word := 0
  subns : Byte := 0
deriving DecidableEq, Repr

/-- A frame inside the device with its bridge metadata (Table 01.3 step 3). `onu` is 0x3FF where none (Table 02.14). -/
structure Frame where
  bytes : List Byte := []
  port : Nat := 0
  ch : Nat := 0
  onu : Nat := 0x3FF
  alloc : Nat := 0
  xgem : Nat := 0xFFFF
  stamp : Stamp := {}
  /-- The FCS or the ICV failed on receipt (R246, R298, R307). -/
  bad : Bool := false
  /-- A network or management port's receive buffer holds it (R303). -/
  buffered : Bool := false
  /-- It came by an inject ring (R14). -/
  host : Bool := false
  /-- The parser graph has recognised a PTP message in it (R88). -/
  ptp : Bool := false
  /-- The transmit stamp that an inject descriptor asks for: queue and identifier (R45). -/
  ts : Option (Nat × Nat) := none
deriving DecidableEq, Repr

/-- The 32-byte image header (Table 02.2). -/
structure ImgHeader where
  magic : Nat
  format : Nat
  sectionCount : Nat
  imageLen : Nat
  imageId : Word
  svn : Nat
  keySlot : Nat
  stepping : Nat
deriving DecidableEq, Repr

/-- An entry of the section directory (Table 02.2). -/
structure DirEntry where
  type : Nat
  offset : Nat
  length : Nat
  flags : Nat
deriving DecidableEq, Repr

/-- A firmware copy in flash as the Binnacle reads it: the LENGTH of its directory entry, header, directory, the 97-byte point of PUBKEY,
SIGNATURE, and the SHA-384 digest of the bytes that the signature covers (R26, R46, R372). -/
structure FwCopy where
  len : Nat
  hdr : ImgHeader
  dir : List DirEntry
  pubkey : List Byte
  sig : List Byte
  digest : BitVec 384
deriving DecidableEq, Repr

/-- An inject descriptor (Table 02.15). -/
structure InjDesc where
  tsReq : Bool
  srcPort : Nat
  dstPort : Nat
  cls : Nat
  tsId : Nat
  tsQueue : Nat
deriving DecidableEq, Repr

/-- A posted host buffer: bus address and length in bytes. -/
structure HostBuf where
  addr : BitVec 64
  len : Nat
deriving DecidableEq, Repr

/-! ### Section contents (Table 02.3). The manual fixes what each section decides and gives no byte layout for it, so a
section is carried as what it says. -/

/-- Headers that Compass can record and the primitives of Table 09.2 edit. -/
inductive HdrKind where
  | eth | vlan | mpls | pppoe | ipv4 | ipv6 | tcp | udp | vxlan | gre | srh | ptp | other (n : Nat)
deriving DecidableEq, Repr

/-- A recorded header instance: kind, offset and length in bytes. -/
structure Hdr where
  kind : HdrKind
  off : Nat
  len : Nat
deriving DecidableEq, Repr

/-- The length of a header: fixed, or value × scale + add of a bit range of the header (R182). -/
inductive HdrLen where
  | fixed (n : Nat)
  | computed (off width scale add : Nat)
deriving DecidableEq, Repr

/-- The value a transition compares: the image's own, or a parser value with its width (R185). -/
inductive TransKey where
  | const (v : Nat)
  | parseVal (k bits : Nat)
deriving DecidableEq, Repr

/-- A parser graph node (R182, R183). `ver`, `sum` and `short` enable its checks: version, header checksum, a length field smaller
than the header. `sel` is the bit range of the header that selects the successor. -/
structure ParseNode where
  kind : HdrKind
  len : HdrLen := .fixed 0
  ver : Bool := false
  sum : Bool := false
  short : Bool := false
  accept : Bool := false
  reject : Bool := false
  sel : Nat × Nat := (0, 0)
  trans : List (TransKey × Nat) := []
  next : Nat := 0
deriving DecidableEq, Repr

/-- PARSE: the graph, and the root node of each ingress device port. -/
structure ParseGraph where
  nodes : List ParseNode := []
  roots : List (Nat × Nat) := []
deriving DecidableEq, Repr

/-- A field that keys, predicates and primitives name: bits of the n-th recorded header of a kind, metadata, or a verdict field as
the stages so far have set it (R185, R186). `destKind` is 0 none, 1 next hop, 2 ECMP, 3 multicast, 4 explicit; `mirror k` is the
k-th accepted session plus 1. -/
inductive FieldRef where
  | hdr (kind : HdrKind) (inst off width : Nat)
  | port | channel | onu | alloc | xgem | stampView | stampNs | stampSub
  | outcome | passNo | cls | colour | eq
  | dropFlag | destKind | destIndex | destDev | destPort | puntSet | puntReason | mirror (k : Nat)
  | chart (hi lo : Nat)
  | hit (stage : Nat)
  | result (stage hi lo : Nat)
deriving DecidableEq, Repr

/-- A parameter of a primitive: the program's own, or bits of parameter words 11 to 15 of the hit entry (Table 09.8). -/
inductive Arg where
  | const (n : Nat)
  | param (word hi lo : Nat)
  | field (f : FieldRef)
deriving DecidableEq, Repr

/-- Action primitives (Table 09.2). -/
inductive Prim where
  | setField (f : FieldRef) (v mask : Arg)
  | copyField (src dst : FieldRef)
  | fwdNh (i : Arg)
  | fwdEcmp (i : Arg)
  | fwdMc (i : Arg)
  | fwdPort (dev port cls eq : Arg)
  | setClass (c : Arg)
  | drop
  | punt (reason : Arg) (copy : Bool)
  | mirror (session : Arg)
  | police (i : Arg)
  | count (i : Arg) (packets bytes : Bool)
  | learn (table : Nat) (key : List FieldRef) (result : Arg)
  | tsReq (id queue : Arg)
  | ctiDeliver (copy : Bool)
  | vlanPush (tpid tci : Arg)
  | vlanPop
  | mplsPush (labels : List Arg)
  | mplsPop (n : Nat)
  | pppoePush (session : Arg)
  | pppoePop
  | vxlanEncap (template : Nat) (vni : Arg)
  | greEncap (template : Nat) (key : Arg)
  | tunnelDecap
  | srv6Encap (template : Nat) (sids : List Arg)
  | recirc
deriving DecidableEq, Repr

/-- A table bound to a stage (R187): its number and KIND (0 TCAM, 1 TCAM 320-bit, 2 direct, 3 exact-match, 4 Sextant). -/
structure TableBind where
  table : Nat
  kind : Nat
deriving DecidableEq, Repr

/-- STAGE: one stage (R186). The predicate holds when every field equals its value. `miss` is the miss program, or the fixed
program of a stage without a table; `hit` is the program that a hit in a Sextant table runs, whose entries name none. -/
structure StageD where
  pred : List (FieldRef × Nat) := []
  key : List FieldRef := []
  bind : Option TableBind := none
  miss : Nat := 0
  hit : Nat := 0
deriving DecidableEq, Repr

/-- ACTION: a program of at most 16 primitives. -/
structure ActionProg where
  prims : List Prim := []
deriving DecidableEq, Repr

/-- A chart table's size (Table 09.8, CMP_TBL_INFO), or a Sextant table's sub-kind and size (SXT_TBL_INFO). -/
structure TableShape where
  table : Nat
  kind : Nat
  sub : Nat := 0
  size : Nat := 0
deriving DecidableEq, Repr

/-- CARVE: the profile, the tables, the SRAM regions of CHK_SRAM_REGION, and the bits of each Compact length filter
(R203, R209). -/
structure Carve where
  full : Bool := true
  tables : List TableShape := []
  regions : List (Nat × Nat) := []
  filterBits : Nat := 0
deriving DecidableEq, Repr

/-- SCHED: nodes in use by level, and the parent range of ranges of nodes: level, first and last index, first and last
parent (R252). -/
structure SchedShape where
  counts : List Nat := []
  ranges : List (Nat × Nat × Nat × Nat × Nat) := []
deriving DecidableEq, Repr

/-- PORT: personalities by port, the logical pipeline of each device port, the Rhumb groups as (group, first lane, lane
count) (R4, R14, R280). -/
structure PortSection where
  pon : List (Nat × Nat) := []
  net : List (Nat × Nat) := []
  pipes : List (Nat × Nat) := []
  groups : List (Nat × Nat × Nat) := []
deriving DecidableEq, Repr

/-- ENTRY: a default chart entry: table, index and its sixteen words. -/
structure DefEntry where
  table : Nat := 0
  index : Nat := 0
  words : List Word := []
deriving DecidableEq, Repr

/-- The content of a section of the structure image (Table 02.3). A type the table does not list is skipped (R27). -/
inductive Section where
  | parse (g : ParseGraph)
  | stage (l : List StageD)
  | action (l : List ActionProg) (templates : List (List Byte))
  | carve (c : Carve)
  | sched (c : SchedShape)
  | port (c : PortSection)
  | entry (l : List DefEntry)
  | note
  | unknown (type : Nat)
deriving DecidableEq, Repr

/-- The whole content of an image after its sections are applied; an absent section is empty (R27). -/
structure ImageBody where
  parse : ParseGraph := {}
  stages : List StageD := []
  actions : List ActionProg := []
  templates : List (List Byte) := []
  carve : Carve := {}
  sched : SchedShape := {}
  port : PortSection := {}
  entries : List DefEntry := []
deriving DecidableEq, Repr

/-- An image as the device reads it for a swap: header, directory, the sections in directory order, the public key and
the signature, and the SHA-384 digest of the signed bytes. -/
structure ImageFile where
  hdr : ImgHeader
  dir : List DirEntry
  sections : List Section
  pubkey : List Byte
  sig : List Byte
  digest : BitVec 384
deriving DecidableEq, Repr

/-! ### Frames in store, credit messages, fabric cells -/

/-- A frame with its VOQ identity, descriptor fields and cell chain (Tables 11.2 and 13.3). -/
structure Stored where
  frame : Frame := {}
  /-- FRAME_LEN. -/
  len : Nat := 0
  cells : List Nat := []
  dev : Nat := 0
  port : Nat := 0
  cls : Nat := 0
  colour : Nat := 0
  eq : Nat := 0
  ct : Bool := false
  copy : Bool := false
  /-- Transmit stamp request: queue and identifier (R84). -/
  ts : Option (Nat × Nat) := none
  /-- The Bearing hash (R202). -/
  hash : Word := 0
  /-- The device of ingress. -/
  src : Nat := 0
  /-- The 24-byte punt header stands before the frame (R260). -/
  puntHdr : Bool := false
  /-- The chart metadata of its verdict (Table 02.14). -/
  chart : Nat := 0
  /-- The punt reason of a copy toward device port 72. -/
  puntReason : Nat := 0
  /-- The reassembly context that its bytes still come from (R292); none once it is whole. -/
  part : Option Nat := none
deriving DecidableEq, Repr

/-- Credit messages (Table 11.3). `src` is the device that holds the VOQ; PORT_STATE names the port. -/
inductive CreditMsg where
  | statusOn (dev port cls src backlog : Nat) (received : Word)
  | statusOff (dev port cls src ret : Nat) (received : Word)
  | credit (dev port cls src bytes : Nat)
  | portState (dev port st : Nat)
deriving DecidableEq, Repr

/-- A Rhumb cell: the fields of its header (Table 13.1) and its valid payload bytes. -/
structure Cell where
  label : Nat
  dest : Nat := 0
  port : Nat := 0
  cls : Nat := 0
  src : Nat := 0
  grp : Nat := 0
  first : Bool := false
  last : Bool := false
  spray : Bool := false
  seq : Nat := 0
  payload : List Byte := []
  /-- The view whose transmit stamp a TIME message takes as it leaves (R337). -/
  stamp : Option Nat := none
deriving DecidableEq, Repr

/-- A lane marker (Table 13.4). -/
structure Marker where
  src : Nat
  grp : Nat
  logical : Nat
  active : Word
  rxOk : Word
  count : Nat
deriving DecidableEq, Repr

/-- The bodies of a Meridian message (Tables 16.1 and 16.4). Times are view times in units of 2^-16 ns. An ANNOUNCE also says
the sender's group, whether it is in SAFE, and whether it is a protected standby, which R332 asks the manager to know. A FAN
without pairs is the resynchronising record of R333. -/
inductive MerBody where
  | announce (tier prio role group : Nat) (safe standby : Bool)
  | fan (slot : Nat) (wpReport : Bool) (pairs : List (Nat × Word))
  | ack (status : Nat)
  | collect (offsets : List Nat)
  | reply (values : List Word)
  | event (leaf view : Nat) (ns32 : Word) (subns : Byte) (seq : Word) (words : List Word)
  | wpReport (slot state : Nat) (lateness : Word)
  | sync (view : Nat) (t1 : Raw)
  | delayReq (view : Nat) (t3 : Raw)
  | delayResp (view : Nat) (t4 t3 : Raw)
deriving DecidableEq, Repr

/-- A Meridian message (Table 16.1), with its CHECK. -/
structure MerMsg where
  bcast : Bool
  strap : Nat
  dest : Nat
  src : Nat
  nonce : Nat
  seq : Word
  body : MerBody
  check : Word
deriving DecidableEq, Repr

/-! ### PON: messages, grants, upstream frames -/

/-- What an upstream PLOAM message is (R125). -/
inductive UpKind where
  /-- Serial_Number_ONU: vendor and serial part. -/
  | serialNumber (vendor serial : Word)
  | registration
  /-- Acknowledge of the downstream message with this sequence number. -/
  | acknowledge (seq : Nat)
  /-- A fragment of a Key_Report: the key index, and whether it is the last. -/
  | keyReport (index : Nat) (last : Bool)
  | other
deriving DecidableEq, Repr

/-- An upstream PLOAM message: the ONU-ID it carries, the 40 bytes before the MIC as ten words, the MIC (R125, Table
06.2). -/
structure UpPloam where
  kind : UpKind
  onu : Nat
  data : List Word
  mic : BitVec 64
deriving DecidableEq, Repr

/-- Downstream PLOAM messages (chapters 06 and 08). -/
inductive PloamKind where
  | assignOnuId | rangingTime | deactivateOnuId | disableSerialNumber | enableSerialNumber | keyControl (index : Nat) | host
deriving DecidableEq, Repr

/-- A downstream PLOAM message: `eqd` is the EqD in the channel's unit (R133), `data` the host's 40 bytes. `seq` and `mic` are
written when a cut-off first takes it (R126). `notBefore` is the first frame that may carry it (R162). -/
structure PloamMsg where
  kind : PloamKind
  onu : Nat
  vendor : Word := 0
  serial : Word := 0
  eqd : Nat := 0
  data : List Word := []
  notBefore : Nat := 0
  /-- The cut-off that takes it makes the context OPERATIONAL (R135). -/
  toOp : Bool := false
  seq : Nat := 0
  mic : BitVec 64 := 0
  written : Bool := false
deriving DecidableEq, Repr

/-- An allocation structure of a map (R160) and the Alloc context that owns it (R151). `dead` says that an uncorrectable
XGEM header has ended its payload (Table 08.3 step 1), `heard` that its PLOAMu has arrived; `next` is the byte of the burst at
which its next XGEM frame begins, none before the first. -/
structure Grant where
  ctx : Option Nat := none
  alloc : Nat := 0
  onu : Nat := 0
  start : Nat := 0
  size : Nat := 0
  bytes : Nat := 0
  dbru : Bool := false
  ploamu : Bool := false
  prof : Nat := 0
  joined : Bool := false
  dead : Bool := false
  heard : Bool := false
  next : Option Nat := none
deriving DecidableEq, Repr

/-- What a granted burst is for. -/
inductive BurstKind where
  | data | ranging | discovery
deriving DecidableEq, Repr

/-- How a granted burst ended (R113); `void` is one that a port reset cut off (R121). -/
inductive BurstSt where
  | waiting | confirmed | missed | foreign | void
deriving DecidableEq, Repr

/-- A granted burst: its interval [lo, hi) and StartTime in units of its upstream frame (R146), and its allocations; for a discovery
window or ranging grant `span` is its interval in ns of the PON time line (R161, R162). `tried` is the latest position tried, in
bits from the expected delimiter start (R112, R114), `found` says that a discovery window has found a burst, `bad` lists its
codewords that could not be corrected (R115), `pulse` is its low period of PON_BRST_N, computed when its map was taken (R116). -/
structure Burst where
  kind : BurstKind := .data
  onu : Nat := 0
  prof : Nat := 0
  lo : Nat := 0
  start : Nat := 0
  hi : Nat := 0
  grants : List Grant := []
  st : BurstSt := .waiting
  stamp : Stamp := {}
  span : Nat × Nat := (0, 0)
  tried : Option Int := none
  found : Bool := false
  bad : List Nat := []
  pulse : Option (Int × Int) := none
deriving DecidableEq, Repr

/-- The data of a CTI report that R166 uses: client identifier, and the entries' start time in PON view ns, duration in ns
and volume in bytes. -/
structure CtiReport where
  client : Nat
  entries : List (Nat × Nat × Nat)
deriving DecidableEq, Repr

/-- The FEC of a downstream line (Table 05.1): LDPC of G.9804.3, or RS(248,216). -/
inductive DsFec where
  | ldpc | rs248
deriving DecidableEq, Repr

/-- A downstream line (Table 05.1): bits in 125 µs, FEC, scrambling. -/
structure DsLine where
  bits : Nat
  fec : DsFec
  scrambled : Bool
deriving DecidableEq, Repr

/-- An XGEM frame of an allocation as it arrived: whether its header could be corrected, port-ID, key index, LF, and its payload as the
line carried it (R178). -/
structure UpXgem where
  hec : Bool
  pid : Nat
  key : Nat
  lf : Bool
  bytes : List Byte
deriving DecidableEq, Repr

/-- A record of the state copy (Table 15.2): the table it belongs to, the key within it, its content as words; no words means
absent. The manual gives the content of a record and not its layout. -/
structure CopyRec where
  table : Nat
  key : Nat
  words : List Word
deriving DecidableEq, Repr

end Sys2Proof
end

