-- ==== Sys2Proof/Syntax.lean ====
section
/-!
DEFINITION. Syntax.lean: the commands of the block, one constructor for each row of spec/opcode_table.json, with the
operands the command carries: register values as software writes them, messages as they arrive, and the facts of the
outside world that the row's rule names. `at'` is the raw-counter value at which a timed command happens; `cap` is the
raw value captured for a stamp (R71).
-/
namespace Sys2Proof

/-- The commands (spec/opcode_table.json). -/
inductive Instr where
  /-- MISALIGNED_ACCESS (R5): A BAR0 or BAR2 access that is not a naturally aligned 32-bit access completes: a read returns zero bytes with no side effect, and a write is ignored. -/
  | misalignedAccess (bar2 : Bool) (write : Bool) (addr : Nat) (size : Nat) (val : BitVec 64)
  /-- RESERVED_ADDRESS_ACCESS (R8): An access to a reserved BAR0 address: a read returns 0 and a write is ignored. -/
  | reservedAddressAccess (write : Bool) (addr : BitVec 28) (val : Word)
  /-- MULTIWORD_LOW_WRITE (R6): A write to a lower word of a multi-register value stores the value in that word's holding register. -/
  | multiwordLowWrite (addr : BitVec 28) (val : Word)
  /-- MULTIWORD_COMMIT (R6): A write to the highest word commits it together with the held lower words. -/
  | multiwordCommit (addr : BitVec 28) (val : Word)
  /-- MULTIWORD_CAPTURE_READ (R6): A read of the lowest word captures the whole value, and reads of the higher words then return the captured value. -/
  | multiwordCaptureRead (addr : BitVec 28)
  /-- RC_READ (R9): A read of an RC field returns the field's value and clears it. -/
  | rcRead (addr : BitVec 28)
  /-- REGISTER_WRITE (R9): A write to a register that has no row of its own, applied by field type. -/
  | registerWrite (addr : BitVec 28) (val : Word)
  /-- FRAME_INGRESS (R17): A frame offered to a pipeline enters its ingress buffer, or is dropped and counted in CMP_ING_OVERRUN when the buffer is full. -/
  | frameIngress (f : Frame) (full : Bool)
  /-- PIPELINE_PASS (R186): A frame takes a pipeline slot: it is parsed, runs the 32 stages, and has its edits applied; a last pass resolves the verdict and the frame is enqueued. -/
  | pipelinePass (p : Fin 9) (bad : List Nat)
  /-- CELL_POP (R233): A cell writer requests a free cell from the next free list. -/
  | cellPop (ws : BitVec 14)
  /-- CELL_PUSH (R231): A reader returns a cell to free list p mod 16 once the cell's data has been read. -/
  | cellPush (p : Fin 335544320)
  /-- CACHE_REFILL (R232): A list cache below CACHE_LOW takes the carrier at the head of its HBM part. -/
  | cacheRefill (k : Fin 16) (uncorr : Bool)
  /-- CACHE_SPILL (R232): A list cache above CACHE_HIGH spills 65 pointers as a new carrier. -/
  | cacheSpill (k : Fin 16)
  /-- CREDIT_RECEIVED (R243): A CREDIT adds to a VOQ's balance, releases head frames while the balance suffices, and sends STATUS_OFF when the VOQ is empty. -/
  | creditReceived (dev : Fin 1024) (port : Fin 128) (cls : Fin 8) (bytes : Nat) (errs : List (Nat × Nat)) (qBad : Bool)
  /-- STATUS_ON_REFRESH (R244): A waiting VOQ repeats STATUS_ON every REFRESH_US. -/
  | statusOnRefresh (v : Fin 262144)
  /-- STATUS_RECEIVED (R258): A STATUS_ON or STATUS_OFF reaches the scheduler, which updates the request set and writes off lost credit. -/
  | statusReceived (port : Fin 128) (cls : Fin 8) (src : Fin 1024) (on : Bool) (ret : Nat) (received : Word)
  /-- PORT_STATE_RECEIVED (R247): A PORT_STATE message sets the destination state to UP, HELD or DOWN, and DOWN flushes the VOQs toward it. -/
  | portStateReceived (dev : Fin 1024) (port : Fin 128) (st : Fin 3)
  /-- HOLD_DOWN_EXPIRY (R247): The hold timer of a port ends: its queues are flushed and PORT_STATE DOWN is sent. -/
  | holdDownExpiry (i : Fin 75) (at' : Raw)
  /-- REPLICATION_TAKE (R249): The replication engine takes the next frame from its queue and makes a copy for each eligible target. -/
  | replicationTake
  /-- PON_SELECTION (R256): The L1 node of a PON channel selects a frame down the hierarchy when the XGEM engine has room, and charges the buckets. -/
  | ponSelection (ch : Fin 96) (space : Nat) (errs : List (Nat × Nat)) (qBad : Bool) (ctxBad : Fin 3)
  /-- CREDIT_ISSUE (R257): The scheduler of a network, PON, host or MGMT port issues a CREDIT of CREDIT_BYTES to a requesting VOQ. -/
  | creditIssue (port : Fin 75)
  /-- WHEEL_SLOT (R262): A timing-wheel slot begins: its nodes become eligible or move from coarse to fine slots, and parked nodes are placed again. -/
  | wheelSlot (coarse : Bool) (at' : Raw)
  /-- STAGING_TRANSMIT (R270): A network port starts a frame from staging when its class is open, unpaused and clear of the guard, or drops an oversize head frame. -/
  | stagingTransmit (i : Fin 26) (cap : Raw) (latency : Nat) (bad : Fin 3)
  /-- GATE_ENTRY_BOUNDARY (R268): The oper gate list moves to its next entry or cycle. -/
  | gateEntryBoundary (m : Fin 24) (at' : Raw)
  /-- GATE_LIST_GO (R269): A GO of ALM_GATE_CTRL computes T0 and sets PENDING for a gate list switch. -/
  | gateListGo (m : Fin 24) (val : Word)
  /-- GATE_LIST_START (R269): View time reaches T0: the admin list becomes oper and PENDING clears. -/
  | gateListStart (m : Fin 24) (at' : Raw)
  /-- GATE_ENTRY_WRITE (R269): A WRITE of ALM_GATE_ENT_SEL stores an admin gate entry, or is ignored while PENDING. -/
  | gateEntryWrite (val : Word)
  /-- GATE_ENTRY_READ (R267): A READ of ALM_GATE_ENT_SEL loads a gate entry. -/
  | gateEntryRead (val : Word)
  /-- NODE_WRITE (R253): A WRITE of ALM_NODE_SEL applies a node's settings, and a changed profile resets its buckets. -/
  | nodeWrite (val : Word)
  /-- NODE_READ (R253): A READ of ALM_NODE_SEL loads a node's settings, tokens and average. -/
  | nodeRead (val : Word)
  /-- PROFILE_WRITE (R263): A WRITE of ALM_PROF_SEL stores a profile; in the active bank it resets bound buckets, and in the inactive bank it sets CHANGED. -/
  | profileWrite (val : Word)
  /-- PROFILE_READ (R264): A READ of ALM_PROF_SEL loads a profile and its CHANGED flag. -/
  | profileRead (val : Word)
  /-- POLICER_WRITE (R263): A WRITE of ALM_POL_SEL applies a policer's configuration and resets it under a new profile. -/
  | policerWrite (val : Word)
  /-- POLICER_READ (R265): A READ of ALM_POL_SEL loads a policer's configuration and tokens. -/
  | policerRead (val : Word)
  /-- ALM_COMMIT_GO (R264): A GO of ALM_COMMIT switches the Almanac profile bank and resets the buckets of changed profiles. -/
  | almCommitGo (val : Word)
  /-- CHART_COMMIT_GO (R197): A GO of CMP_COMMIT switches the chart bank and advances the epoch. -/
  | chartCommitGo (val : Word)
  /-- DBA_COMMIT_GO (R148): A GO of DBA_COMMIT requests a Reckoner profile bank switch. -/
  | dbaCommitGo (val : Word)
  /-- IMAGE_LOAD_START (R28): START of DEV_IMG_OP_CTRL begins an image load, or ends it at once in FAIL. -/
  | imageLoadStart (val : Word) (flash : Option Nat)
  /-- IMAGE_LOAD_ABORT (R28): ABORT of DEV_IMG_OP_CTRL ends a running load. -/
  | imageLoadAbort (val : Word)
  /-- IMAGE_HEADER_READ (R28): The 32-byte image header has been read, and condition 1 is checked. -/
  | imageHeaderRead (hdr : ImgHeader)
  /-- IMAGE_DIRECTORY_READ (R28): The section directory has been read, and condition 2 is checked. -/
  | imageDirectoryRead (dir : List DirEntry)
  /-- IMAGE_FIRST_PASS_END (R28): The first pass ends: key hash, signature and SVN are checked, and the second pass starts with the structure marked invalid. -/
  | imageFirstPassEnd (pubkey : List Byte) (sig : List Byte) (digest : BitVec 384)
  /-- IMAGE_SECTION_APPLY (R28): The bytes of a section arrive in the second pass, and the section is applied and recorded in OP_PARTIAL. -/
  | imageSectionApply (sec : Section)
  /-- IMAGE_SECOND_PASS_END (R28): The second pass ends: the digest is compared, and the load ends DONE or FAIL. -/
  | imageSecondPassEnd (digest : BitVec 384)
  /-- IMAGE_READ_FAILURE (R30): A flash or host-memory read of the image fails, and the load or swap ends in FAIL. -/
  | imageReadFailure (bytes : Nat)
  /-- IMAGE_SWAP_START (R32): START of DEV_SWAP_OP_CTRL begins an in-service swap with authentication. -/
  | imageSwapStart (val : Word) (flash : Option Nat)
  /-- IMAGE_SWAP_ABORT (R34): ABORT of DEV_SWAP_OP_CTRL ends the swap at the next boundary. -/
  | imageSwapAbort (val : Word)
  /-- IMAGE_SWAP_CONTINUE (R32): CONTINUE resumes a swap paused at step 3. -/
  | imageSwapContinue (val : Word)
  /-- SWAP_AUTHENTICATION_END (R31): Swap authentication ends: the image is checked for compatibility, and the swap fails or proceeds. -/
  | swapAuthenticationEnd (img : ImageFile)
  /-- SPARE_LOAD_COMPLETE (R32): The spare pipeline has been loaded: the swap pauses or reaches the move point. -/
  | spareLoadComplete
  /-- PIPELINE_MOVE_COMPLETE (R32): The old pipeline's in-flight count reaches 0: it becomes the spare, and after k = 7 the swap ends DONE. -/
  | pipelineMoveComplete
  /-- MEMORY_BIST_START (R57): START of DEV_BIST_OP_CTRL begins a memory BIST of the selected target. -/
  | memoryBistStart (val : Word)
  /-- MEMORY_BIST_ABORT (R57): ABORT ends a running memory BIST. -/
  | memoryBistAbort (val : Word)
  /-- MEMORY_BIST_END (R57): A memory BIST ends DONE or FAIL, and the tested instances are reinitialised as the target requires. -/
  | memoryBistEnd (tested : Nat) (failing : List (Nat × Nat)) (corrected : List (Fin 10 × Nat × Nat × BitVec 64))
  /-- PUNT_TAIL_WRITE (R44): The host advances DEV_RING_PUNT_TAIL to post punt buffers. -/
  | puntTailWrite (n : Fin 64) (val : Word)
  /-- PUNT_FRAME_DELIVERY (R44): HELM writes a punted frame into posted buffers and writes back its descriptors, or drops the frame. -/
  | puntFrameDelivery (bufs : List HostBuf)
  /-- INJECT_TAIL_WRITE (R45): The host advances DEV_RING_INJ_TAIL, and the passed descriptors become the device's. -/
  | injectTailWrite (n : Fin 64) (val : Word)
  /-- INJECT_MODE_PIPELINE (R45): An inject descriptor with MODE 0 is read, and its frame enters the pipeline that serves SRC_PORT. -/
  | injectModePipeline (n : Fin 64) (desc : InjDesc) (data : List Byte) (count : Nat) (cap : Raw) (full : Bool)
  /-- INJECT_MODE_DIRECT (R45): An inject descriptor with MODE 1 is read, and its frame is queued to DST_PORT in its class. -/
  | injectModeDirect (n : Fin 64) (desc : InjDesc) (data : List Byte) (count : Nat) (cap : Raw)
  /-- MODE_REQUEST (R51): A REQ_GO with REQ other than 5 requests a mode transition, which is accepted or refused. -/
  | modeRequest (val : Word)
  /-- SAFE_REQUEST (R66): A REQ_GO with REQ = 5 triggers SAFE. -/
  | safeRequest (val : Word)
  /-- MODE_TRANSITION_COMPLETE (R53): An accepted transition completes, and MODE takes its new value. -/
  | modeTransitionComplete (at' : Raw)
  /-- SAFE_GRACE_END (R67): At the first frame boundary after entry plus DEV_SAFE_GRACE, PON_TXDIS is asserted on all ports. -/
  | safeGraceEnd (at' : Raw)
  /-- FATAL_ERROR (R66): A fatal error source forces SAFE and records FATAL_SRC. -/
  | fatalError (src : Fin 4)
  /-- POWER_FAIL_N_FALL (R66): POWER_FAIL_N falls, and the device enters SAFE within 2 µs. -/
  | powerFailNFall (board : Bool)
  /-- STARTUP_SELFTEST_END (R55): The SHA-384 and ECDSA known-answer tests of step 4 complete, and the device is in LOAD. -/
  | startupSelftestEnd (shaOk : Bool) (ecdsaOk : Bool) (boot : Option Nat)
  /-- COMMISSIONING_PHASE_END (R56): A commissioning phase completes and reports itself, or fails and enters SAFE with CAUSE 8. -/
  | commissioningPhaseEnd (ok : Bool) (failedTest : Option (Fin 8))
  /-- DEV_RESET_COLD (R59): A DEV_RESET write with COLD and a valid KEY starts a cold reset. -/
  | devResetCold (val : Word)
  /-- DEV_RESET_WARM (R59): A DEV_RESET write with WARM and a valid KEY starts a warm reset. -/
  | devResetWarm (val : Word)
  /-- RESET_N_LOW (R398): RESET_N low for 1 µs or more causes a cold reset. -/
  | resetNLow (ns : Nat)
  /-- PERST_N_LOW (R61): PERST_N low resets HELM; punts are dropped and events are held. -/
  | perstNLow
  /-- PERST_N_DEASSERT (R55): PERST_N is deasserted, and HELM begins to accept configuration requests. -/
  | perstNDeassert
  /-- BLK_RESET_RINGS (R63): DEV_BLK_RESET.RINGS resets the DMA ring engines. -/
  | blkResetRings (val : Word)
  /-- BLK_RESET_EVT (R63): DEV_BLK_RESET.EVT resets the event buffer and the event ring pointers. -/
  | blkResetEvt (val : Word)
  /-- BLK_RESET_CHK (R63): DEV_BLK_RESET.CHK resets the check-value units and scan engines. -/
  | blkResetChk (val : Word)
  /-- BLK_RESET_MER (R63): DEV_BLK_RESET.MER resets the Meridian role state and restarts election. -/
  | blkResetMer (val : Word)
  /-- BLK_RESET_LHT (R63): DEV_BLK_RESET.LHT resets the Lighthouse heartbeat and sync state. -/
  | blkResetLht (val : Word)
  /-- BLOCK_RESET_COMPLETE (R63): A block reset completes, and its bit returns to 0. -/
  | blockResetComplete (blk : Fin 6)
  /-- VIEW_RATE_COMMIT (R73): A write of TIME_VIEW_RATE_HI folds the old rate into OFFSET and sets RATE_EPOCH and RATE. -/
  | viewRateCommit (v : Fin 16) (hi : Word)
  /-- VIEW_OFFSET_COMMIT (R74): A write of TIME_VIEW_OFFSET_W2 replaces OFFSET. -/
  | viewOffsetCommit (v : Fin 16) (w2 : Word)
  /-- VIEW_STEP_COMMIT (R74): A write of TIME_VIEW_STEP_HI adds a signed step to OFFSET. -/
  | viewStepCommit (v : Fin 16) (hi : Word)
  /-- STAMP_CONVERSION (R80): A captured raw stamp is converted into its view with the parameters in force at capture. -/
  | stampConversion (port : Fin 75) (rx : Bool) (cap : Raw) (latency : Nat) (domain : Option Byte)
  /-- TIME_SNAP_GO (R82): A GO of TIME_SNAP_CTRL captures the raw counter and a view together and increments TIME_SNAP_COUNT. -/
  | timeSnapGo (val : Word)
  /-- TRANSMIT_STAMP_RETURN (R86): A transmit stamp enters its queue, or is discarded when the queue is full. -/
  | transmitStampReturn (q : Fin 8) (tsId : BitVec 16) (port : Fin 75) (stamp : Stamp)
  /-- TXTS_READ (R87): A read of TIME_TXTS_W0 removes and captures the oldest transmit stamp. -/
  | txtsRead (q : Fin 8)
  /-- SYNCE_SOURCE_LOSS (R91): The SyncE source loses signal or lock, and the output is squelched. -/
  | synceSourceLoss (a : Fin 2)
  /-- SYNCE_RESUME (R91): The source has held lock for 100 ms, and the output resumes. -/
  | synceResume (a : Fin 2) (at' : Raw)
  /-- PPS_IN_EDGE (R92): A selected TIME_IN edge is captured in the configured view. -/
  | ppsInEdge (falling : Bool) (cap : Raw)
  /-- TOD_IN_BYTE (R92): A received ToD byte enters the buffer, or is discarded when the buffer is full. -/
  | todInByte (b : Byte)
  /-- TOD_IN_READ (R92): A read of TIME_TOD_IN_DATA removes the oldest byte. -/
  | todInRead
  /-- PPS_OUT_PULSE (R92): A TIME_OUT pulse starts ADVANCE_NS before a whole second of the view. -/
  | ppsOutPulse (at' : Raw)
  /-- TOD_OUT_DATA_WRITE (R92): A write of TIME_TOD_OUT_DATA appends a byte to the output buffer. -/
  | todOutDataWrite (val : Word)
  /-- TOD_OUT_SEND (R92): SEND arms transmission of the buffered ToD bytes after the next pulse. -/
  | todOutSend (val : Word)
  /-- TOD_OUT_TRANSMIT (R92): DELAY_US after the pulse, the ToD bytes are sent once and the buffer empties. -/
  | todOutTransmit (at' : Raw)
  /-- PON_FRAME_BOUNDARY (R93): At a frame instant of the shared timer, every transmitting channel emits PSync and a downstream frame, and the timer steers its phase. -/
  | ponFrameBoundary (at' : Raw)
  /-- PON_REALIGN (R95): REALIGN adjusts the next frame so that the phase error becomes 0, or does nothing when no port transmits. -/
  | ponRealign (val : Word)
  /-- ACTION_TICK (R96): At every 128 ns raw tick, armed waypoint slots are evaluated against their views. -/
  | actionTick
  /-- WAYPOINT_ARM (R97): ARM copies a slot's registers into its armed state and sets STATE to ARMED. -/
  | waypointArm (slot : Fin 512) (val : Word)
  /-- WAYPOINT_DISARM (R97): DISARM returns an ARMED slot to IDLE. -/
  | waypointDisarm (slot : Fin 512) (val : Word)
  /-- GPIO_PULSE_END (R102): A GPIO pulse width expires, and the pin returns to its idle level. -/
  | gpioPulseEnd (k : Fin 8) (at' : Raw)
  /-- GPIO_CFG_WRITE (R102): A write of TIME_GPIO_CFG that changes ENABLE or POLARITY applies next clock and ends any pulse. -/
  | gpioCfgWrite (k : Fin 8) (val : Word)
  /-- MAP_CUTOFF (R107): At PSync − 10 µs the PON line takes the map and PLOAM messages for the frame, or sends an empty map when the map is late. -/
  | mapCutoff (at' : Raw)
  /-- BRST_PULSE (R116): PON_BRST_N is driven low for its computed interval before an expected burst. -/
  | brstPulse (j : Fin 96) (f i : Nat)
  /-- BURST_CANDIDATE (R113): A delimiter candidate in a grant window is confirmed or rejected on its header check and ONU-ID. -/
  | burstCandidate (j : Fin 96) (f i : Nat) (rx : BitVec 64) (hec : Bool) (onu : Fin 1024) (cap : Raw) (latency : Nat)
  /-- BURST_WINDOW_END (R113): A grant window ends with no confirmation, and the burst is counted as missed. -/
  | burstWindowEnd (j : Fin 96) (f i : Nat)
  /-- DISCOVERY_CANDIDATE (R114): A candidate in a discovery window is confirmed when its header passes, and the search resumes after it. -/
  | discoveryCandidate (j : Fin 96) (f i : Nat) (rx : BitVec 64) (hec : Bool) (onu : Fin 1024) (cap : Raw) (latency : Nat) (msg : Option UpPloam)
  /-- UPSTREAM_FEC_CODEWORD (R115): An upstream codeword is decoded: corrected, or passed on marked errored. -/
  | upstreamFecCodeword (j : Fin 96) (f i cw : Nat) (corrected uncorrectable : Bool)
  /-- RSSI_ARM (R118): ARM of PON_RSSI_CTRL clears DONE and applies the trigger fields. -/
  | rssiArm (n : Fin 48) (val : Word)
  /-- RSSI_TRIGGER (R118): PON_RSSI_TRIG is driven high on the selected burst or interval. -/
  | rssiTrigger (n : Fin 48) (f i : Nat)
  /-- RSSI_PULSE_END (R118): An RSSI pulse ends, and DONE is set as the mode states. -/
  | rssiPulseEnd (n : Fin 48)
  /-- SETTLING_END (R119): The settling frames after PON_TXDIS falls end, and grants begin. -/
  | settlingEnd (n : Fin 48)
  /-- LOSS_OF_SIGNAL (R120): LOS_FRAMES consecutive granted frames pass with no confirmed burst, and the port goes down with cause 4. -/
  | lossOfSignal (n : Fin 48)
  /-- PON_PORT_RESET (R121): PORT_RESET of PON_LINE_CFG resets the port's line logic and takes the port down with cause 5. -/
  | ponPortReset (n : Fin 48) (val : Word)
  /-- PON_PORT_RESET_COMPLETE (R121): A PON port reset completes, and PON_TXDIS falls at the next frame boundary. -/
  | ponPortResetComplete (n : Fin 48)
  /-- UPSTREAM_PLOAM (R125): An upstream PLOAM message is consumed, sent to the key engine, or queued to the host. -/
  | upstreamPloam (j : Fin 96) (f i : Nat) (msg : UpPloam)
  /-- PLOAM_TX_SEND (R126): SEND of ACT_PLOAM_TX_CMD queues a host PLOAM message, or drops it when the queue is full. -/
  | ploamTxSend (val : Word)
  /-- PLOAM_RX_READ (R127): A read of ACT_PLOAM_RX_HDR removes and captures the oldest receive record. -/
  | ploamRxRead
  /-- ENERGY_OBSERVATION (R138): Energy in a quiet interval is counted and may set ROGUE_ANON. -/
  | energyObservation (j : Fin 96) (f lo hi : Nat)
  /-- ROGUE_ANON_CLEAR (R138): 64 consecutive frames without an observation clear ROGUE_ANON. -/
  | rogueAnonClear (j : Fin 96) (f : Nat)
  /-- ONU_LOSS (R140): ONU_LOSS_FRAMES granted frames pass without a burst, and the context enters LOST. -/
  | onuLoss (n : Fin 48) (onu : Fin 1024)
  /-- ONU_DEACTIVATION (R140): After DEACT_MS in LOST, Deactivate_ONU-ID is sent and the context becomes FREE. -/
  | onuDeactivation (n : Fin 48) (onu : Fin 1024) (at' : Raw)
  /-- ASSIGN_ID (R144): Host command ASSIGN_ID queues Assign_ONU-ID, and the context enters ASSIGNED. -/
  | assignId
  /-- SET_EQD (R144): Host command SET_EQD sets the EqD and sends Ranging_Time. -/
  | setEqd
  /-- DEACTIVATE (R144): Host command DEACTIVATE sends Deactivate_ONU-ID and frees the context. -/
  | deactivate
  /-- DISABLE (R144): Host command DISABLE sends Disable_Serial_Number, and the context enters DISABLED. -/
  | disable
  /-- ENABLE (R144): Host command ENABLE sends the enable message and frees the context. -/
  | enable
  /-- RANGE (R144): Host command RANGE places the context at the end of the ranging order. -/
  | rangeCmd
  /-- SNTAB_WRITE (R132): WRITE of ACT_SNTAB_CMD stores the SN table entry at IDX. -/
  | sntabWrite (val : Word)
  /-- SNTAB_READ (R132): READ of ACT_SNTAB_CMD loads the SN table entry at IDX. -/
  | sntabRead (val : Word)
  /-- MAP_COMPUTATION_START (R148): At PSync − 135 µs each channel refills accumulators and sizes, reserves and places the grants of the map. -/
  | mapComputationStart (at' : Raw) (bad : List Nat)
  /-- MAP_COMPUTATION_COMPLETE (R148): A map computation completes and the map is ready for the cut-off. -/
  | mapComputationComplete (j : Fin 96)
  /-- DBRU_REPORT (R151): A decoded DBRu report becomes a fix and updates the rate estimate, or is discarded. -/
  | dbruReport (j : Fin 96) (f i k : Nat) (good : Bool) (bytes : Nat)
  /-- ALLOC_WRITE (R150): WRITE of DBA_ALLOC_SEL applies an Alloc context and reseeds it where its identity changes. -/
  | allocWrite (val : Word)
  /-- ALLOC_READ (R150): READ of DBA_ALLOC_SEL loads the context's values as of the last computation start. -/
  | allocRead (val : Word)
  /-- BOOKING_GO (R163): GO of DBA_BOOK_CMD submits a booking to the booking sequencer for acceptance and placement. -/
  | bookingGo (val : Word)
  /-- CTI_REPORT (R166): A CTI report delivered by CTI_DELIVER is mapped to a context and turned into bookings, or dropped. -/
  | ctiReport (rep : Option CtiReport)
  /-- BIND_WRITE (R168): WRITE of XGM_BIND_SEL applies an XGEM port binding. -/
  | bindWrite (val : Word)
  /-- BIND_READ (R168): READ of XGM_BIND_SEL loads a binding. -/
  | bindRead (val : Word)
  /-- DSQ_WRITE (R168): WRITE of XGM_DSQ_SEL sets an egress queue's port-ID. -/
  | dsqWrite (val : Word)
  /-- DSQ_READ (R168): READ of XGM_DSQ_SEL loads an egress queue's port-ID. -/
  | dsqRead (val : Word)
  /-- KEY_WRITE (R176): WRITE of XGM_KEY_SEL stores a key into its target, which becomes VALID. -/
  | keyWrite (val : Word)
  /-- KEY_READ (R173): READ of XGM_KEY_SEL loads the key status into XGM_KEY_INFO. -/
  | keyRead (val : Word)
  /-- KEY_CLEAR (R174): CLEAR of XGM_KEY_SEL invalidates its target. -/
  | keyClear (val : Word)
  /-- KEY_EXCHANGE (R175): OP 1 of XGM_KEY_CMD starts a key exchange, or is refused. -/
  | keyExchange (val : Word)
  /-- KEY_EXCHANGE_TIMEOUT (R175): No complete Key_Report arrives within 800 frames, and the exchange fails. -/
  | keyExchangeTimeout (n : Fin 48) (onu : Fin 1024) (at' : Raw)
  /-- KEY_INDEX_SWITCH (R177): OP 2 of XGM_KEY_CMD sets DS_INDEX from the next cut-off, or is refused. -/
  | keyIndexSwitch (val : Word)
  /-- KEY_RESULT_READ (R175): A read of XGM_KEY_RESULT removes the oldest exchange result. -/
  | keyResultRead
  /-- LAST_SPOOF_READ (R178): A read of XGM_LAST_SPOOF captures the spoofed port-ID and clears VALID. -/
  | lastSpoofRead
  /-- UPSTREAM_XGEM_FRAME (R178): An XGEM frame of a confirmed burst passes header, identity, key and error checks and is reassembled. -/
  | upstreamXgemFrame (j : Fin 96) (f i k : Nat) (x : UpXgem) (full : Bool) (ctxBad : Fin 3)
  /-- REASSEMBLY_TIMEOUT (R179): An open reassembly receives no fragment by the end of upstream frame u + REASM_FRAMES and is aborted. -/
  | reassemblyTimeout (n : Fin 48) (pid : Fin 8192) (at' : Raw)
  /-- CHART_ENTRY_WRITE (R189): WRITE of CMP_TBL_SEL writes the staged entry whole to the selected pipelines. -/
  | chartEntryWrite (val : Word)
  /-- CHART_ENTRY_READ (R189): READ of CMP_TBL_SEL loads an entry into CMP_TBL_DATA. -/
  | chartEntryRead (val : Word)
  /-- CHART_TABLE_SELECT (R187): A write of the TABLE field of CMP_TBL_SEL loads CMP_TBL_INFO. -/
  | chartTableSelect (val : Word)
  /-- EM_INSERT (R214): The sequencer inserts or replaces an exact-match entry, relocating entries when needed. -/
  | emInsert
  /-- EM_DELETE (R228): The sequencer deletes an exact-match entry. -/
  | emDelete
  /-- EM_READ (R228): The sequencer loads an exact-match entry into SXT_CMD_DATA. -/
  | emRead
  /-- LPM_ADD (R207): The sequencer adds or replaces an LPM prefix by building new nodes and flipping one pointer. -/
  | lpmAdd (noSpace : Bool)
  /-- LPM_DEL (R207): The sequencer deletes an LPM prefix. -/
  | lpmDel (noSpace : Bool)
  /-- LPM_READ (R228): The sequencer loads an LPM prefix's result. -/
  | lpmRead
  /-- WRITE (R222): The sequencer writes a direct table entry whole at INDEX. -/
  | writeCmd
  /-- READ (R228): The sequencer loads a direct table entry at INDEX. -/
  | readCmd
  /-- DUMP (R229): A bulk DMA DUMP writes every VALID entry of a table to the host. -/
  | dump (t : Fin 256) (data : List Word) (ok : Bool)
  /-- SXT_DMA_TAIL_WRITE (R229): The host advances SXT_DMA_TAIL, posting descriptors for the sequencer. -/
  | sxtDmaTailWrite (val : Word)
  /-- BULK_DMA_DESCRIPTOR (R229): The device takes a bulk DMA descriptor, runs it as one sequencer operation and writes it back. -/
  | bulkDmaDescriptor (op t : Fin 256) (index : Nat) (data : List Word) (noSpace ok : Bool)
  /-- LEARN_TAKEN (R218): The sequencer takes a learn from the FIFO and creates, moves or freezes an entry, or requests the host. -/
  | learnTaken
  /-- MOVES_CLEAR (R219): At each whole second of the raw counter, MOVES clears in every entry. -/
  | movesClear (at' : Raw)
  /-- AGEING_VISIT (R220): The ageing sweep visits a dynamic entry, clears HIT or advances AGE, and deletes it at AGE 3. -/
  | ageingVisit (slot : Fin 4980736) (at' : Raw)
  /-- NOTE_READ (R221): A read of SXT_NOTE_HDR removes and captures the oldest notification. -/
  | noteRead
  /-- REHASH_START (R216): START of SXT_REHASH_OP_CTRL sets DUAL_SEED and starts walking the buckets. -/
  | rehashStart (val : Word)
  /-- REHASH_ABORT (R216): ABORT ends a rehash, with DUAL_SEED left at 1. -/
  | rehashAbort (val : Word)
  /-- REHASH_MOVE (R216): A rehash moves an entry to its place under the new seed, copying before it invalidates. -/
  | rehashMove (slot : Nat)
  /-- REHASH_END (R216): A rehash completes: SEED takes SEED_NEXT and DUAL_SEED clears, or the rehash fails. -/
  | rehashEnd
  /-- TRIE_REBUILD_START (R208): START of SXT_TRIE_OP_CTRL begins building new tries. -/
  | trieRebuildStart (val : Word)
  /-- TRIE_REBUILD_ABORT (R208): ABORT ends a trie rebuild with every root at its last flip. -/
  | trieRebuildAbort (val : Word)
  /-- TRIE_ROOT_FLIP (R208): A root's new trie is complete and its root pointer flips; after the last root, the rebuild ends. -/
  | trieRootFlip (records : List (List Word))
  /-- FIX_CHECK_START (R225): START of SXT_FIX_OP_CTRL begins comparing a table with the host shadow. -/
  | fixCheckStart (val : Word)
  /-- FIX_CHECK_ABORT (R225): ABORT ends a Fix check pass. -/
  | fixCheckAbort (val : Word)
  /-- FIX_BLOCK_COMPARE (R226): A shadow block arrives and is compared; mismatches are listed and repaired where enabled. -/
  | fixBlockCompare (words : List Word)
  /-- FIX_CHECK_END (R226): A Fix check pass completes and writes its counts to OP_PARTIAL. -/
  | fixCheckEnd
  /-- AUDIT_START (R236): START of POOL_AUDIT_OP_CTRL samples the pool totals and begins walking the lists. -/
  | auditStart (val : Word)
  /-- AUDIT_ABORT (R236): ABORT ends a Sounding audit. -/
  | auditAbort (val : Word)
  /-- AUDIT_CARRIER_WALK (R236): The audit reads the next carrier of the list it is walking and counts its cells. -/
  | auditCarrierWalk (flips : BitVec 128) (uncorr : Bool)
  /-- AUDIT_END (R237): An audit ends and sets its baseline or reports MISMATCH. -/
  | auditEnd
  /-- SWEEP_START (R238): START of POOL_SWEEP_OP_CTRL clears the bitmap and begins marking. -/
  | sweepStart (val : Word)
  /-- SWEEP_ABORT (R238): ABORT ends a sweep, and reclaims already made stand. -/
  | sweepAbort (val : Word)
  /-- SWEEP_MARKING_END (R238): The marking phase ends, and reclaim of unmarked slots begins. -/
  | sweepMarkingEnd
  /-- SWEEP_END (R238): A sweep's reclaim phase completes. -/
  | sweepEnd
  /-- VOQ_MAP_WRITE (R239): WRITE of VOQ_MAP_SEL applies a destination map entry. -/
  | voqMapWrite (val : Word)
  /-- VOQ_MAP_READ (R239): READ of VOQ_MAP_SEL loads a map entry and its state. -/
  | voqMapRead (val : Word)
  /-- VOQ_STATE_READ (R239): READ of VOQ_Q_SEL loads a VOQ's cells, balance and identity in one clock. -/
  | voqStateRead (val : Word)
  /-- LANE_MARKER (R277): A Rhumb lane receives a marker that keeps marker lock, updates polarity, peer and the ACTIVE set. -/
  | laneMarker (l : Fin 64) (bytes : List Byte) (mirrored : Bool) (skip : Nat) (cws : List (Nat × Bool)) (at' : Raw)
  /-- MARKER_LOCK_LOSS (R277): Two expected marker positions hold no valid marker, and marker lock is lost. -/
  | markerLockLoss (l : Fin 64)
  /-- FEC_LOCK_LOSS (R276): 8 consecutive uncorrectable codewords lose FEC lock and return the lane to HUNT. -/
  | fecLockLoss (l : Fin 64)
  /-- CELL_DELINEATION (R278): A candidate cell header is checked, and the lane moves between HUNT, PRESYNC and SYNC. -/
  | cellDelineation (l : Fin 64) (bytes : List Byte) (skip : Nat) (cws : List (Nat × Bool))
  /-- CELL_TRANSMIT (R287): A group's transmit slot sends the highest-priority ready cell, or an IDLE cell. -/
  | cellTransmit (g : Fin 16) (at' : Raw)
  /-- MARKER_INSERT (R277): After 8,192 cells every lane of a group sends a lane marker. -/
  | markerInsert (g : Fin 16)
  /-- REACH_WRITE (R286): A write of RHB_REACH changes the usable set and starts a drain. -/
  | reachWrite (d : Fin 1024) (val : Word)
  /-- DRAIN_END (R286): 2 × RESEQ_US after a usable-set change, data toward the device resumes on the new set. -/
  | drainEnd (d : Fin 1024) (at' : Raw)
  /-- RESEQ_TIMEOUT (R288): A resequencing context's oldest cell has waited RESEQ_US, and the context skips its gap or returns to no history. -/
  | reseqTimeout (src : Fin 1024) (at' : Raw)
  /-- FABRIC_REASM_TIMEOUT (R292): A partial fabric frame with no further cell for REASM_US is discarded. -/
  | fabricReasmTimeout (ctx : Fin 17408) (at' : Raw)
  /-- CREDIT_CELL_SEND (R290): A CREDIT cell is sent when 15 messages wait or 200 ns after the oldest. -/
  | creditCellSend (d : Fin 1024) (at' : Raw)
  /-- DEV_ID_WRITE (R294): A write of RHB_CTRL.DEV_ID applies in LOAD or COMMISSION, and otherwise sets DEV_ID_IGNORED. -/
  | devIdWrite (val : Word)
  /-- NET_FRAME_RECEIVE (R298): A network or MGMT port receives a frame, applies MACsec and the MAC checks, and stamps it. -/
  | netFrameReceive (i : Fin 26) (bytes : List Byte) (cap : Raw) (latency corr uncorr : Nat)
  /-- PFC_RECEIVE (R302): A received PAUSE or PFC frame sets or clears the pause timers of its priorities. -/
  | pfcReceive (i : Fin 26) (enable : Fin 256) (quanta : List Nat)
  /-- PAUSE_TIMER_EXPIRY (R302): A priority's pause timer ends, and its class may start again. -/
  | pauseTimerExpiry (i : Fin 26) (c : Fin 8) (at' : Raw)
  /-- PFC_SEND (R303): A priority's receive occupancy crosses XOFF or XON, and a PFC frame is sent. -/
  | pfcSend (i : Fin 26)
  /-- PFC_REPEAT (R303): A PFC frame is repeated every PAUSE_QUANTA / 2 while any priority stays in XOFF. -/
  | pfcRepeat (i : Fin 26) (at' : Raw)
  /-- NET_PORT_FAILURE (R299): A port condition fails, and the port goes down within 1 µs. -/
  | netPortFailure (i : Fin 26) (what : Fin 3)
  /-- NET_PORT_UP_TIMER (R299): UP_MS of uninterrupted good state passes, and the port comes up. -/
  | netPortUpTimer (i : Fin 26) (at' : Raw)
  /-- NET_PORT_RESET (R300): PORT_RESET of NET_PORT_CFG resets MAC, PCS, FEC and link training, and the port goes down. -/
  | netPortReset (i : Fin 26) (val : Word)
  /-- NET_PORT_RESET_COMPLETE (R300): A network port reset completes. -/
  | netPortResetComplete (i : Fin 26) (locked : Bool)
  /-- SA_WRITE (R305): WRITE of NET_SEC_SA_SEL stores an SA's key, salt, SSCI and PN whole. -/
  | saWrite (i : Fin 26) (val : Word)
  /-- SA_READ (R305): READ of NET_SEC_SA_SEL loads an SA's PN and status. -/
  | saRead (i : Fin 26) (val : Word)
  /-- SA_CLEAR (R305): CLEAR of NET_SEC_SA_SEL invalidates an SA. -/
  | saClear (i : Fin 26) (val : Word)
  /-- RXSC_WRITE (R307): WRITE of NET_SEC_RXSC_CTRL sets a receive SC's SCI and VALID. -/
  | rxscWrite (i : Fin 26) (val : Word)
  /-- HEARTBEAT_PERIOD (R310): At each 1 ms heartbeat period, path goodness is judged, the standby decides, and a heartbeat and an increment are sent. -/
  | heartbeatPeriod (at' : Raw) (journal : Nat)
  /-- HEARTBEAT_RECEIVE (R311): A heartbeat is validated and updates path state, dual-active, SYNC_REQ and sync completion. -/
  | heartbeatReceive (rhb : Bool) (src : Fin 1024) (bytes : List Byte)
  /-- BULK_SYNC_START (R315): START of LHT_SYNC_OP_CTRL begins a bulk sync, or fails when no path is good. -/
  | bulkSyncStart (peer : Bool) (val : Word)
  /-- BULK_SYNC_ABORT (R315): ABORT ends the bulk sync on both devices. -/
  | bulkSyncAbort (peer : Bool) (val : Word)
  /-- SYNC_STREAM_COMPLETE (R315): The snapshot stream is complete, and the standby applies the journal and builds tables. -/
  | syncStreamComplete (kib row journal : Nat) (recs : List CopyRec) (kcv : Option Word)
  /-- SNAPSHOT_COMMIT (R315): The standby flips to the new tables, increments SNAP_GEN and sets SNAP_VALID. -/
  | snapshotCommit (recs : List CopyRec) (seq : Nat)
  /-- INCREMENT_APPLY (R316): The standby applies a whole journal increment once its last record has arrived. -/
  | incrementApply (seq : Nat) (recs : List CopyRec)
  /-- MAP_COPY_RECEIVE (R319): A map copy from the active arrives and guides the standby's burst searches, or is discarded as late. -/
  | mapCopyReceive (j : Fin 96) (f : Nat) (bursts : List Burst)
  /-- WITNESS_WINDOW_END (R322): A witness judgement window ends with a verdict that may take over or set ISOLATED. -/
  | witnessWindowEnd (at' : Raw)
  /-- HEALTH_EVALUATION (R327): At each whole second the standby sets LHT_HEALTH_LOCAL. -/
  | healthEvaluation (at' : Raw)
  /-- ANNOUNCE_SEND (R329): Every ANNOUNCE_MS the device sends its ANNOUNCE. -/
  | announceSend (at' : Raw)
  /-- ANNOUNCE_RECEIVE (R329): A received ANNOUNCE marks its sender heard and re-ranks the roles. -/
  | announceReceive (msg : MerMsg) (viaMgmt : Bool)
  /-- HEARD_TIMEOUT (R329): A device goes unheard for MER_LOSS × ANNOUNCE_MS, and the roles are re-ranked. -/
  | heardTimeout (d : Fin 1024) (at' : Raw)
  /-- FAN_GO (R332): GO of MER_FAN_CMD queues a fan-out record, or is refused. -/
  | fanGo (val : Word)
  /-- FAN_RECEIVE (R333): A target applies and acknowledges a FAN record with the expected SEQ, or refuses it. -/
  | fanReceive (msg : MerMsg)
  /-- ACK_RECEIVE (R333): The manager receives an ACK and sends the target's next record. -/
  | ackReceive (msg : MerMsg)
  /-- FAN_RETRY (R333): RETRY_US passes without an acknowledgement; the record is resent, or the target becomes UNREACHED. -/
  | fanRetry (d : Fin 1024) (at' : Raw)
  /-- TARGET_RESUME (R333): MER_TGT_RESUME resynchronises an UNREACHED target with a SEQ 0 record. -/
  | targetResume (val : Word)
  /-- WP_REPORT_RECEIVE (R336): A WP_REPORT is stored in MER_WP_RESULT. -/
  | wpReportReceive (msg : MerMsg)
  /-- TIME_EXCHANGE (R337): Every TIME_PERIOD_MS the manager sends SYNC to each heard worker. -/
  | timeExchange (at' : Raw)
  /-- SYNC_RECEIVE (R337): A worker stamps SYNC and sends DELAY_REQ. -/
  | syncReceive (msg : MerMsg) (cap : Raw) (txCap : Raw)
  /-- DELAY_REQ_RECEIVE (R337): The manager stamps DELAY_REQ and returns DELAY_RESP. -/
  | delayReqReceive (msg : MerMsg) (cap : Raw)
  /-- DELAY_RESP_RECEIVE (R337): The worker computes offset and delay into MER_TIME_RES. -/
  | delayRespReceive (msg : MerMsg)
  /-- COLLECT_GO (R339): GO of MER_COLL_CMD starts a collect, or is refused while busy. -/
  | collectGo (val : Word)
  /-- COLLECT_RECEIVE (R339): A target reads the offsets and returns a REPLY. -/
  | collectReceive (msg : MerMsg)
  /-- REPLY_RECEIVE (R339): The manager writes a reply as a 64-byte record. -/
  | replyReceive (msg : MerMsg)
  /-- EVENT_MESSAGE_RECEIVE (R340): The manager places a forwarded event in its event ring. -/
  | eventMessageReceive (msg : MerMsg)
  /-- PATROL_SCRUB_READ (R345): The patrol scrub reads a word or TCAM entry and writes back corrections. -/
  | patrolScrubRead (kind : Fin 10) (uncorr : Bool) (nbits : Nat) (inst : Nat) (addr : BitVec 64)
  /-- ERR_LOG_READ (R347): A read of CHK_ERR_HDR removes the oldest error record. -/
  | errLogRead
  /-- ERROR_INJECT_ARM (R348): ARM of CHK_INJ arms an error for the next write of its KIND. -/
  | errorInjectArm (val : Word)
  /-- UNIT_RESTART (R350): CHK_UNIT_RESTART loads INIT XOR FOLD and clears BYTES. -/
  | unitRestart (u : Fin 8) (val : Word)
  /-- UNIT_FEED (R350): CHK_UNIT_FEED feeds 4 bytes into the running value. -/
  | unitFeed (u : Fin 8) (val : Word)
  /-- UNIT_FEED1 (R350): CHK_UNIT_FEED1 feeds one byte. -/
  | unitFeed1 (u : Fin 8) (val : Word)
  /-- UNIT_RUNNING_WRITE (R351): A write of CHK_UNIT_RUNNING sets the running value, or is ignored while a scan is busy. -/
  | unitRunningWrite (u : Fin 8) (hi : Word)
  /-- CHECK_SCAN_START (R352): START of CHK_SCAN_OP_CTRL begins feeding a range into a unit. -/
  | checkScanStart (u : Fin 8) (val : Word)
  /-- CHECK_SCAN_ABORT (R352): ABORT ends a check-value scan. -/
  | checkScanAbort (u : Fin 8) (val : Word)
  /-- CHECK_SCAN_END (R353): A scan reaches the end of its range, compares where selected, and ends DONE or FAIL. -/
  | checkScanEnd (u : Fin 8) (data : List Byte)
  /-- EVENT_RECORD_DRAIN (R358): An event record drains from the buffer into the event ring when there is room. -/
  | eventRecordDrain
  /-- EVENT_STATUS_CLEAR (R356): A W1C write of EVT_STATUS clears event leaves. -/
  | eventStatusClear (g : Fin 40) (val : Word)
  /-- EVENT_RING_CONS_WRITE (R359): A write of EVT_RING_CONS reports consumed records and frees ring space. -/
  | eventRingConsWrite (val : Word)
  /-- EVENT_COALESCE_TIMER (R360): COAL_US passes since the first unannounced record, and the ring requests its vector. -/
  | eventCoalesceTimer (at' : Raw)
  /-- MSIX_SEND (R361): A vector with PENDING = 1 and SENT = 0 sends its message when unmasked. -/
  | msixSend (v : Fin 64) (masked : Bool)
  /-- VECTOR_ACK (R361): EVT_VEC_ACK clears SENT for a vector. -/
  | vectorAck (val : Word)
  /-- COUNTER_PAIR_READ (R363): READ of OBS_CNT_SEL loads a counter pair. -/
  | counterPairRead (val : Word)
  /-- COUNTER_PAIR_READ_CLEAR (R363): READ with CLEAR loads and zeroes a counter pair in one clock. -/
  | counterPairReadClear (val : Word)
  /-- LOGBOOK_TAIL_WRITE (R364): The host advances OBS_LOG_RING_TAIL to post export buffers. -/
  | logbookTailWrite (val : Word)
  /-- LOGBOOK_EXPORT (R364): At each PERIOD_MS an export starts, or is skipped for lack of a buffer or for overrun. -/
  | logbookExport (at' : Raw)
  /-- LOGBOOK_EXPORT_COMPLETE (R364): An export finishes and its descriptor is written back. -/
  | logbookExportComplete (at' : Raw) (buf : HostBuf)
  /-- THRESHOLD_CONFIG_WRITE (R365): A write of OBS_THR_CFG or OBS_THR_LEVEL zeroes the count. -/
  | thresholdConfigWrite (k : Fin 16) (level : Bool) (val : Word)
  /-- SLOT_CLEAR (R366): OBS_SLOT_CLEAR zeroes a pipeline's slot counters. -/
  | slotClear (val : Word)
  /-- SAMPLE_CAPTURE (R367): A triggered sampler captures and punts a frame, or drops the sample after 24 slots. -/
  | sampleCapture (k : Fin 8) (free : Bool)
  /-- GET_NONCE (R373): SEC_AUTH_CMD GET_NONCE draws a fresh nonce. -/
  | getNonce (val : Word)
  /-- VERIFY (R373): SEC_AUTH_CMD VERIFY checks the key hash and signature for a role, passes or fails, and may lock out. -/
  | verify (val : Word)
  /-- LOGOUT (R373): SEC_AUTH_CMD LOGOUT drops the role. -/
  | logout (val : Word)
  /-- VERIFY_LOCKOUT_END (R373): 60 s after lockout, LOCKED clears and FAILS resets. -/
  | verifyLockoutEnd (at' : Raw)
  /-- OTP_KEY_HASH_PROGRAM (R371): SEC_OTP_PROG OP 1 writes a blank key-hash slot. -/
  | otpKeyHashProgram (val : Word)
  /-- OTP_REVOKE (R371): SEC_OTP_PROG OP 2 revokes an image slot. -/
  | otpRevoke (val : Word)
  /-- OTP_IMG_SVN_MIN (R371): SEC_OTP_PROG OP 3 raises IMG_SVN_MIN. -/
  | otpImgSvnMin (val : Word)
  /-- OTP_FW_SVN_MIN (R371): SEC_OTP_PROG OP 4 raises FW_SVN_MIN. -/
  | otpFwSvnMin (val : Word)
  /-- OTP_PROGRAMMING_END (R371): OTP programming completes or is refused. -/
  | otpProgrammingEnd
  /-- PAIR_KEY_WRITE (R375): WRITE of SEC_PAIR_CTRL stores the pairing key and sets its KCV. -/
  | pairKeyWrite (val : Word)
  /-- PAIR_KEY_CLEAR (R375): CLEAR of SEC_PAIR_CTRL invalidates the pairing key. -/
  | pairKeyClear (val : Word)
  /-- SELFTEST_FAILURE (R377): A self-test or continuous entropy test fails and sets ERROR. -/
  | selftestFailure (test : Fin 9)
  /-- ZEROISATION_START (R378): START of SEC_ZERO_OP_CTRL by the CO begins zeroisation and enters SAFE. -/
  | zeroisationStart (val : Word)
  /-- ZEROISATION_ABORT (R378): ABORT of SEC_ZERO_OP_CTRL is ignored. -/
  | zeroisationAbort (val : Word)
  /-- ZEROIZE_N_ASSERT (R378): ZEROIZE_N held low for 1 µs starts or widens a full zeroisation. -/
  | zeroizeNAssert (ns : Nat) (held : Bool)
  /-- ZEROISATION_STEP1_END (R378): All CSPs, roles and nonces have been overwritten, and memory clearing begins. -/
  | zeroisationStep1End
  /-- ZEROISATION_END (R379): Memory clearing completes, and zeroisation ends DONE with ZEROIZED set. -/
  | zeroisationEnd
  /-- VIN_RISE (R387): VIN_12 rises above 10.8 V, and the Binnacle starts. -/
  | vinRise (mv : Nat) (copyA : Option FwCopy) (copyB : Option FwCopy)
  /-- VIN_DROOP (R387): VIN_12 below 11.0 V for 200 ns drives POWER_FAIL_N low. -/
  | vinDroop (mv : Nat) (ns : Nat)
  /-- VIN_RECOVER (R387): VIN_12 above 11.4 V for 10 ms releases POWER_FAIL_N. -/
  | vinRecover (mv : Nat) (ms : Nat) (board : Bool)
  /-- VIN_LOSS (R384): VIN_12 below 10.0 V for 100 µs removes the logic rails. -/
  | vinLoss (mv : Nat) (us : Nat)
  /-- VIN_BELOW_STOP (R387): VIN_12 below 9.0 V stops the Binnacle. -/
  | vinBelowStop (mv : Nat)
  /-- REFCLK_CHECK (R388): Every 10 ms in start-up the Binnacle checks the three references and, when they pass, enables rail 0. -/
  | refclkCheck (pon : Int) (eth : Int) (pcie : Int)
  /-- RAIL_POWER_GOOD (R383): PWR_PG of a rail has been high for its hold time, and the next rail is enabled or PWR_OK is driven. -/
  | railPowerGood (k : Fin 7) (us : Nat)
  /-- STARTUP_RAIL_FAULT (R383): A rail's PWR_PG has not risen within 10 ms, and the rails are removed for a retry. -/
  | startupRailFault (k : Fin 7) (ms : Nat)
  /-- RAIL_FAULT (R385): PWR_PG low for 5 µs in operation drives POWER_FAIL_N and schedules rail removal and restart. -/
  | railFault (k : Fin 7) (us : Nat) (binMs : Nat)
  /-- POWER_RESTART (R385): The restart delay after a rail fault or start-up fault ends, and step 2 begins again. -/
  | powerRestart (ms : Nat)
  /-- BINNACLE_WATCHDOG (R385): 10 ms pass without the Binnacle's alive signal, and the logic domain takes FATAL_SRC 3. -/
  | binnacleWatchdog (ms : Nat)
  /-- REFCLK_LOSS (R388): A reference is lost in operation; its lanes lose lock and the event is raised. -/
  | refclkLoss (which : Fin 3)
  /-- AVC_UPDATE (R386): Every 1 ms the Binnacle moves the VCORE target by at most 5 mV. -/
  | avcUpdate (want : Nat) (lost : Bool)
  /-- TEMPERATURE_SAMPLE (R389): Every 100 µs the sensors report, and warning or critical temperature is acted on. -/
  | temperatureSample (t : List (Option Int))
  /-- THERMAL_SHUTDOWN (R389): A die at 125 °C removes the rails by Binnacle hardware. -/
  | thermalShutdown (sensor : Fin 3) (t : Int)
  /-- CAGE_ENABLE (R392): A write of ENABLE = 1 starts a cage channel from OFF. -/
  | cageEnable (ch : Fin 72) (val : Word)
  /-- CAGE_DISABLE (R392): A write of ENABLE = 0 sends a channel to OFF unless it is LATCHED or REVERSED. -/
  | cageDisable (ch : Fin 72) (val : Word)
  /-- CAGE_CLEAR (R392): CLEAR returns a LATCHED or REVERSED channel to OFF. -/
  | cageClear (ch : Fin 72) (val : Word)
  /-- CAGE_TRIP (R391): A channel's current trips it off, to RETRY_WAIT, LATCHED or REVERSED. -/
  | cageTrip (ch : Fin 72) (uv : Int)
  /-- CAGE_OVERLOAD (R391): I ≥ ILIM held for OVL_MS in ON trips the channel. -/
  | cageOverload (ch : Fin 72) (uv : Int) (ms : Nat)
  /-- CAGE_START_COMPLETE (R391): 2 ms in STARTING without a trip brings the channel ON. -/
  | cageStartComplete (ch : Fin 72) (us : Nat)
  /-- CAGE_RETRY_END (R391): 100 ms after a trip, a RETRY_WAIT channel starts again. -/
  | cageRetryEnd (ch : Fin 72) (ms : Nat)
  /-- CAGE_RETRIES_CLEAR (R391): 10 s in ON without a trip clears RETRIES. -/
  | cageRetriesClear (ch : Fin 72) (ms : Nat)
  /-- CAGE_REVERSED (R391): Reverse current for 1 ms sends the channel to REVERSED. -/
  | cageReversed (ch : Fin 72) (uv : Int) (us : Nat)
  /-- CAGE_OPEN (R391): Current below OPEN_MA for 100 ms in ON sets OPEN. -/
  | cageOpen (ch : Fin 72) (uv : Int) (ms : Nat)
  /-- WINDOW_STEER_WRITE (R407): A write of DEV_WIN_SEL or DEV_WIN_BASE clears the window's staging image. -/
  | windowSteerWrite (w : Fin 2) (base : Bool) (val : Word)
  /-- WINDOW_STAGE_WRITE (R407): A BAR2 write to a non-last word of an entry stores into the staging image. -/
  | windowStageWrite (w : Fin 2) (off : BitVec 26) (val : Word)
  /-- WINDOW_READ_CAPTURE (R407): A BAR2 read of word 0 captures a whole entry for the following word reads. -/
  | windowReadCapture (w : Fin 2) (off : BitVec 26)
  /-- CHART_WINDOW_COMMIT (R408): A write to word 15 in window 0 commits the staging image as a chart entry write. -/
  | chartWindowCommit (off : BitVec 26) (val : Word)
  /-- SEXTANT_WINDOW_COMMIT (R409): A write to word 7 in window 1 queues a WRITE command, or is discarded when 256 are waiting. -/
  | sextantWindowCommit (off : BitVec 26) (val : Word)
  /-- COUNTER_WINDOW_READ (R410): A window 2 read of a counter's low word returns it and captures its high word. -/
  | counterWindowRead (off : BitVec 26)
  /-- NET_PORT_GOOD_STATE (R299): A down network or MGMT port regains block lock and alignment on every lane with no fault received; this starts its UP_MS timer, or brings it up at once when UP_MS is 0. -/
  | netPortGoodState (i : Fin 26) (polInv : Fin 16) (trained : Bool)
  /-- FEC_LOCK_GAIN (R276): A Rhumb lane gains FEC lock, so that marker hunting and cell delineation can begin. -/
  | fecLockGain (l : Fin 64)
  /-- LH_PEER_LINK_LOSS (R309): The LH_PEER 100GbE link goes down, LH_LINK clears, and heartbeats, the stream and increments stop using that path. -/
  | lhPeerLinkLoss
  /-- LH_PEER_LINK_RETURN (R316): The LH_PEER link comes up, LH_LINK sets, and heartbeats, the stream and held increments resume on it. -/
  | lhPeerLinkReturn
  /-- CAGE_OPEN_CLEAR (R391): The current of a channel flagged OPEN rises to OPEN_MA or more, and OPEN clears. -/
  | cageOpenClear (ch : Fin 72) (uv : Int)
  /-- BINNACLE_SIGNAL_RETURN (R30): The Binnacle signals again after its firmware had stopped, so flash reads with SRC = 1 become possible again. -/
  | binnacleSignalReturn
  /-- OPERATION_READ_FAILURE (R352): A read made by a running long operation (check-value scan, Fix check, trie rebuild from host, or use of the reserved region) fails on host memory or meets an uncorrectable error, and the operation ends in FAIL with REASON 5 or 4. -/
  | operationReadFailure (op : LongOp) (host : Bool) (addr : BitVec 64)
  /-- TRIE_BUILD_NO_SPACE (R208): A trie rebuild's new trie for a root does not fit in free memory, and the rebuild ends in FAIL with REASON 8, leaving the failing root unchanged. -/
  | trieBuildNoSpace
  /-- SNAPSHOT_SLOT_FULL (R315): The streamed snapshot exceeds its 2,560 MiB slot, and the bulk sync ends in FAIL with REASON 9. -/
  | snapshotSlotFull
deriving DecidableEq, Repr

end Sys2Proof
end

