-- ==== Sys2Proof/WellFormed.lean ====
section
/-!
DEFINITION. WellFormed.lean: the ranges that the manual gives the operands of a command and that their types do not: field
widths, list lengths, sizes. Every meaning is defined outside them too.
-/
namespace Sys2Proof

/-- A frame within the device: at most 10,240 bytes (R17). -/
def wfFrame (f : Frame) : Bool := decide (f.bytes.length ≤ 10240) && decide (f.port < 75)

/-- The length of the boot image in flash, where the flash directory marks one (R30). -/
def wfFlash (o : Option Nat) : Bool :=
  match o with
  | some n => decide (n < 2 ^ 32)
  | none => true

/-- The fields of an image header fit their bytes (Table 02.2). -/
def wfHdr (h : ImgHeader) : Bool :=
  decide (h.magic < 2 ^ 32) && decide (h.format < 2 ^ 16) && decide (h.sectionCount < 2 ^ 16) && decide (h.imageLen < 2 ^ 32) &&
    decide (h.svn < 2 ^ 32) && decide (h.keySlot < 2 ^ 16) && decide (h.stepping < 2 ^ 16)

/-- The fields of a directory entry fit their bytes (Table 02.2). -/
def wfDir (e : DirEntry) : Bool :=
  decide (e.type < 2 ^ 32) && decide (e.offset < 2 ^ 32) && decide (e.length < 2 ^ 32) && decide (e.flags < 2 ^ 32)

/-- The fields of a firmware copy fit their bytes (R372). -/
def wfFw (c : FwCopy) : Bool := wfHdr c.hdr && c.dir.all wfDir && c.pubkey.length == 97 && c.sig.length == 96

/-- The fields of an inject descriptor fit their bits (Table 02.15). -/
def wfInj (d : InjDesc) : Bool :=
  decide (d.srcPort < 128) && decide (d.dstPort < 128) && decide (d.cls < 8) && decide (d.tsId < 2 ^ 16) && decide (d.tsQueue < 8)

/-- An upstream PLOAM message: ten words before the MIC, a 10-bit ONU-ID (Table 06.2). -/
def wfUp (m : UpPloam) : Bool := decide (m.onu < 1024) && m.data.length == 10

/-- A long operation of the device: a scan names one of the eight check-value units (R349). -/
def wfOp (o : LongOp) : Bool :=
  match o with
  | .scan u => decide (u < 8)
  | _ => true

/-- The body of a Meridian message within its layout (Tables 16.1 and 16.4). -/
def wfMerBody (b : MerBody) : Bool :=
  match b with
  | .announce tier prio role group _ _ => decide (tier < 2) && decide (prio < 256) && decide (role < 4) && decide (group < 16)
  | .fan slot _ pairs => decide (slot < 512) && decide (pairs.length ≤ 8) && pairs.all (fun p => decide (p.1 < 2 ^ 28) && p.1 % 4 == 0)
  | .ack status => decide (status < 2)
  | .collect offsets => decide (offsets.length ≤ 8) && offsets.all (fun a => decide (a < 2 ^ 28) && a % 4 == 0)
  | .reply values => decide (values.length ≤ 8)
  | .event leaf view _ _ _ words => decide (leaf < 1280) && decide (view < 16) && words.length == 4
  | .wpReport slot st _ => decide (slot < 512) && decide (st < 4)
  | .sync view _ => decide (view < 16)
  | .delayReq view _ => decide (view < 16)
  | .delayResp view _ _ => decide (view < 16)

/-- A Meridian message within its layout (Table 16.1). -/
def wfMer (m : MerMsg) : Bool :=
  decide (m.strap < 4) && decide (m.dest < 1024) && decide (m.src < 1024) && decide (m.nonce < 65536) && wfMerBody m.body

/-- The operands of a command are within the ranges the manual gives them. -/
def Instr.wf (i : Instr) : Bool :=
  match i with
  | .misalignedAccess bar2 _ addr size _ => decide (addr < if bar2 then 2 ^ 26 else 2 ^ 28) && !(size == 4 && addr % 4 == 0) && decide (0 < size)
  | .reservedAddressAccess _ _ _ => true
  | .multiwordLowWrite _ _ => true
  | .multiwordCommit _ _ => true
  | .multiwordCaptureRead _ => true
  | .rcRead _ => true
  | .registerWrite _ _ => true
  | .frameIngress f _ => wfFrame f
  | .pipelinePass _ bad => bad.all (fun i => decide (i < 256)) && decide (bad.Nodup)
  | .cellPop _ => true
  | .cellPush _ => true
  | .cacheRefill _ _ => true
  | .cacheSpill _ => true
  | .creditReceived _ _ _ bytes errs _ => decide (bytes < 2 ^ 24) && errs.all (fun e => decide (e.2 ≤ 288))
  | .statusOnRefresh _ => true
  | .statusReceived _ _ _ _ ret _ => decide (ret < 2 ^ 24)
  | .portStateReceived _ _ _ => true
  | .holdDownExpiry _ _ => true
  | .replicationTake => true
  | .ponSelection _ space errs _ _ => decide (space ≤ 2 ^ 18) && errs.all (fun e => decide (e.2 ≤ 288))
  | .creditIssue _ => true
  | .wheelSlot _ _ => true
  | .stagingTransmit _ _ _ _ => true
  | .gateEntryBoundary _ _ => true
  | .gateListGo _ _ => true
  | .gateListStart _ _ => true
  | .gateEntryWrite _ => true
  | .gateEntryRead _ => true
  | .nodeWrite _ => true
  | .nodeRead _ => true
  | .profileWrite _ => true
  | .profileRead _ => true
  | .policerWrite _ => true
  | .policerRead _ => true
  | .almCommitGo _ => true
  | .chartCommitGo _ => true
  | .dbaCommitGo _ => true
  | .imageLoadStart _ flash => wfFlash flash
  | .imageLoadAbort _ => true
  | .imageHeaderRead hdr => wfHdr hdr
  | .imageDirectoryRead dir => dir.all wfDir && decide (dir.length ≤ 64)
  | .imageFirstPassEnd pubkey sig _ => pubkey.length == 97 && sig.length == 96
  | .imageSectionApply _ => true
  | .imageSecondPassEnd _ => true
  | .imageReadFailure _ => true
  | .imageSwapStart _ flash => wfFlash flash
  | .imageSwapAbort _ => true
  | .imageSwapContinue _ => true
  | .swapAuthenticationEnd img => wfHdr img.hdr && img.dir.all wfDir && img.sections.length == img.dir.length
  | .spareLoadComplete => true
  | .pipelineMoveComplete => true
  | .memoryBistStart _ => true
  | .memoryBistAbort _ => true
  | .memoryBistEnd _ failing corrected => failing.all (fun e => decide (e.2 < 2 ^ 16)) && corrected.all (fun e => decide (e.2.1 < 64) && decide (e.2.2.1 < 4096))
  | .puntTailWrite _ _ => true
  | .puntFrameDelivery bufs => bufs.all fun b => decide (b.len < 2 ^ 16)
  | .injectTailWrite _ _ => true
  | .injectModePipeline _ desc data _ _ _ => wfInj desc && decide (data.length ≤ 10240)
  | .injectModeDirect _ desc data _ _ => wfInj desc && decide (data.length ≤ 10240)
  | .modeRequest _ => true
  | .safeRequest _ => true
  | .modeTransitionComplete _ => true
  | .safeGraceEnd _ => true
  | .fatalError _ => true
  | .powerFailNFall _ => true
  | .startupSelftestEnd _ _ boot => wfFlash boot
  | .commissioningPhaseEnd _ _ => true
  | .devResetCold _ => true
  | .devResetWarm _ => true
  | .resetNLow _ => true
  | .perstNLow => true
  | .perstNDeassert => true
  | .blkResetRings _ => true
  | .blkResetEvt _ => true
  | .blkResetChk _ => true
  | .blkResetMer _ => true
  | .blkResetLht _ => true
  | .blockResetComplete _ => true
  | .viewRateCommit _ _ => true
  | .viewOffsetCommit _ _ => true
  | .viewStepCommit _ _ => true
  | .stampConversion _ _ _ _ _ => true
  | .timeSnapGo _ => true
  | .transmitStampReturn _ _ _ stamp => decide (stamp.view < 16)
  | .txtsRead _ => true
  | .synceSourceLoss _ => true
  | .synceResume _ _ => true
  | .ppsInEdge _ _ => true
  | .todInByte _ => true
  | .todInRead => true
  | .ppsOutPulse _ => true
  | .todOutDataWrite _ => true
  | .todOutSend _ => true
  | .todOutTransmit _ => true
  | .ponFrameBoundary _ => true
  | .ponRealign _ => true
  | .actionTick => true
  | .waypointArm _ _ => true
  | .waypointDisarm _ _ => true
  | .gpioPulseEnd _ _ => true
  | .gpioCfgWrite _ _ => true
  | .mapCutoff _ => true
  | .brstPulse _ _ _ => true
  | .burstCandidate _ _ _ _ _ _ _ _ => true
  | .burstWindowEnd _ _ _ => true
  | .discoveryCandidate _ _ _ _ _ _ _ _ msg => match msg with | some m => wfUp m | none => true
  | .upstreamFecCodeword _ _ _ _ _ _ => true
  | .rssiArm _ _ => true
  | .rssiTrigger _ _ _ => true
  | .rssiPulseEnd _ => true
  | .settlingEnd _ => true
  | .lossOfSignal _ => true
  | .ponPortReset _ _ => true
  | .ponPortResetComplete _ => true
  | .upstreamPloam _ _ _ msg => wfUp msg
  | .ploamTxSend _ => true
  | .ploamRxRead => true
  | .energyObservation _ _ lo hi => decide (lo < hi)
  | .rogueAnonClear _ _ => true
  | .onuLoss _ _ => true
  | .onuDeactivation _ _ _ => true
  | .assignId => true
  | .setEqd => true
  | .deactivate => true
  | .disable => true
  | .enable => true
  | .rangeCmd => true
  | .sntabWrite _ => true
  | .sntabRead _ => true
  | .mapComputationStart _ _ => true
  | .mapComputationComplete _ => true
  | .dbruReport _ _ _ _ _ bytes => decide (bytes < 2 ^ 24)
  | .allocWrite _ => true
  | .allocRead _ => true
  | .bookingGo _ => true
  | .ctiReport rep => match rep with | some r => r.entries.all (fun e => decide (e.2.1 < 2 ^ 32)) | none => true
  | .bindWrite _ => true
  | .bindRead _ => true
  | .dsqWrite _ => true
  | .dsqRead _ => true
  | .keyWrite _ => true
  | .keyRead _ => true
  | .keyClear _ => true
  | .keyExchange _ => true
  | .keyExchangeTimeout _ _ _ => true
  | .keyIndexSwitch _ => true
  | .keyResultRead => true
  | .lastSpoofRead => true
  | .upstreamXgemFrame _ _ _ _ x _ _ => decide (x.pid < 65536) && decide (x.key < 4)
  | .reassemblyTimeout _ _ _ => true
  | .chartEntryWrite _ => true
  | .chartEntryRead _ => true
  | .chartTableSelect _ => true
  | .emInsert => true
  | .emDelete => true
  | .emRead => true
  | .lpmAdd _ => true
  | .lpmDel _ => true
  | .lpmRead => true
  | .writeCmd => true
  | .readCmd => true
  | .dump _ _ _ => true
  | .sxtDmaTailWrite _ => true
  | .bulkDmaDescriptor _ _ index _ _ _ => decide (index < 2 ^ 32)
  | .learnTaken => true
  | .movesClear _ => true
  | .ageingVisit _ _ => true
  | .noteRead => true
  | .rehashStart _ => true
  | .rehashAbort _ => true
  | .rehashMove _ => true
  | .rehashEnd => true
  | .trieRebuildStart _ => true
  | .trieRebuildAbort _ => true
  | .trieRootFlip records => records.all fun r => r.length == 8
  | .fixCheckStart _ => true
  | .fixCheckAbort _ => true
  | .fixBlockCompare words => decide (words.length ≤ 1024)
  | .fixCheckEnd => true
  | .auditStart _ => true
  | .auditAbort _ => true
  | .auditCarrierWalk _ _ => true
  | .auditEnd => true
  | .sweepStart _ => true
  | .sweepAbort _ => true
  | .sweepMarkingEnd => true
  | .sweepEnd => true
  | .voqMapWrite _ => true
  | .voqMapRead _ => true
  | .voqStateRead _ => true
  | .laneMarker _ bytes _ _ cws _ => bytes.length == 32 && decide (cws.length ≤ 1024)
  | .markerLockLoss _ => true
  | .fecLockLoss _ => true
  | .cellDelineation _ bytes _ cws => bytes.length == 256 && decide (cws.length ≤ 1024)
  | .cellTransmit _ _ => true
  | .markerInsert _ => true
  | .reachWrite _ _ => true
  | .drainEnd _ _ => true
  | .reseqTimeout _ _ => true
  | .fabricReasmTimeout _ _ => true
  | .creditCellSend _ _ => true
  | .devIdWrite _ => true
  | .netFrameReceive _ bytes _ _ _ _ => decide (bytes.length ≤ 65536)
  | .pfcReceive _ _ quanta => quanta.length == 8 && quanta.all (fun q => decide (q < 65536))
  | .pauseTimerExpiry _ _ _ => true
  | .pfcSend _ => true
  | .pfcRepeat _ _ => true
  | .netPortFailure _ _ => true
  | .netPortUpTimer _ _ => true
  | .netPortReset _ _ => true
  | .netPortResetComplete _ _ => true
  | .saWrite _ _ => true
  | .saRead _ _ => true
  | .saClear _ _ => true
  | .rxscWrite _ _ => true
  | .heartbeatPeriod _ _ => true
  | .heartbeatReceive _ _ bytes => bytes.length == 64
  | .bulkSyncStart _ _ => true
  | .bulkSyncAbort _ _ => true
  | .syncStreamComplete _ _ _ _ _ => true
  | .snapshotCommit _ _ => true
  | .incrementApply _ _ => true
  | .mapCopyReceive _ f _ => decide (f < 2 ^ 51)
  | .witnessWindowEnd _ => true
  | .healthEvaluation _ => true
  | .announceSend _ => true
  | .announceReceive msg _ => wfMer msg
  | .heardTimeout _ _ => true
  | .fanGo _ => true
  | .fanReceive msg => wfMer msg
  | .ackReceive msg => wfMer msg
  | .fanRetry _ _ => true
  | .targetResume _ => true
  | .wpReportReceive msg => wfMer msg
  | .timeExchange _ => true
  | .syncReceive msg _ _ => wfMer msg
  | .delayReqReceive msg _ => wfMer msg
  | .delayRespReceive msg => wfMer msg
  | .collectGo _ => true
  | .collectReceive msg => wfMer msg
  | .replyReceive msg => wfMer msg
  | .eventMessageReceive msg => wfMer msg
  | .patrolScrubRead _ _ nbits inst _ => decide (nbits < 64) && decide (inst < 4096)
  | .errLogRead => true
  | .errorInjectArm _ => true
  | .unitRestart _ _ => true
  | .unitFeed _ _ => true
  | .unitFeed1 _ _ => true
  | .unitRunningWrite _ _ => true
  | .checkScanStart _ _ => true
  | .checkScanAbort _ _ => true
  | .checkScanEnd _ _ => true
  | .eventRecordDrain => true
  | .eventStatusClear _ _ => true
  | .eventRingConsWrite _ => true
  | .eventCoalesceTimer _ => true
  | .msixSend _ _ => true
  | .vectorAck _ => true
  | .counterPairRead _ => true
  | .counterPairReadClear _ => true
  | .logbookTailWrite _ => true
  | .logbookExport _ => true
  | .logbookExportComplete _ buf => decide (buf.len < 2 ^ 32)
  | .thresholdConfigWrite _ _ _ => true
  | .slotClear _ => true
  | .sampleCapture _ _ => true
  | .getNonce _ => true
  | .verify _ => true
  | .logout _ => true
  | .verifyLockoutEnd _ => true
  | .otpKeyHashProgram _ => true
  | .otpRevoke _ => true
  | .otpImgSvnMin _ => true
  | .otpFwSvnMin _ => true
  | .otpProgrammingEnd => true
  | .pairKeyWrite _ => true
  | .pairKeyClear _ => true
  | .selftestFailure _ => true
  | .zeroisationStart _ => true
  | .zeroisationAbort _ => true
  | .zeroizeNAssert _ _ => true
  | .zeroisationStep1End => true
  | .zeroisationEnd => true
  | .vinRise _ copyA copyB => copyA.all wfFw && copyB.all wfFw
  | .vinDroop _ _ => true
  | .vinRecover _ _ _ => true
  | .vinLoss _ _ => true
  | .vinBelowStop _ => true
  | .refclkCheck _ _ _ => true
  | .railPowerGood _ _ => true
  | .startupRailFault _ _ => true
  | .railFault _ _ _ => true
  | .powerRestart _ => true
  | .binnacleWatchdog _ => true
  | .refclkLoss _ => true
  | .avcUpdate _ _ => true
  | .temperatureSample t => t.length == 7 && t.all (fun | some v => decide (-32768 ≤ v) && decide (v < 32768) | none => true)
  | .thermalShutdown _ _ => true
  | .cageEnable _ _ => true
  | .cageDisable _ _ => true
  | .cageClear _ _ => true
  | .cageTrip _ _ => true
  | .cageOverload _ _ _ => true
  | .cageStartComplete _ _ => true
  | .cageRetryEnd _ _ => true
  | .cageRetriesClear _ _ => true
  | .cageReversed _ _ _ => true
  | .cageOpen _ _ _ => true
  | .windowSteerWrite _ _ _ => true
  | .windowStageWrite _ _ _ => true
  | .windowReadCapture _ _ => true
  | .chartWindowCommit _ _ => true
  | .sextantWindowCommit _ _ => true
  | .counterWindowRead _ => true
  | .netPortGoodState _ _ _ => true
  | .fecLockGain _ => true
  | .lhPeerLinkLoss => true
  | .lhPeerLinkReturn => true
  | .cageOpenClear _ _ => true
  | .binnacleSignalReturn => true
  | .operationReadFailure op _ _ => wfOp op
  | .trieBuildNoSpace => true
  | .snapshotSlotFull => true

end Sys2Proof
end

