-- ==== Sys2Proof/Decode.lean ====
section
/-!
DEFINITION. Decode.lean: no row of spec/opcode_table.json has bits: the block takes commands, not words. So no word spells a
command.
-/
namespace Sys2Proof

/-- The command that a word spells by the table's bits: none, since no row gives bits. -/
def decodeTableWord (_nbits _w : Nat) : Option Instr := none

end Sys2Proof
end

