-- ==== Sys2Proof/Config.lean ====
section
/-!
DEFINITION. Config.lean: what the manual leaves to an implementation or names without defining. Every constant is
opaque: nothing in Lean can evaluate it, so a claim holds whatever it is.
-/
namespace Sys2Proof

/-- SHA-384 of a byte string (FIPS 180-4, named in Table 19.2 and not defined by the manual). -/
opaque Config.sha384 : List Byte → BitVec 384

/-- ECDSA P-384 signature verification: public key, digest, signature (FIPS 186-5, Table 19.2). -/
opaque Config.ecdsaVerify : List Byte → BitVec 384 → List Byte → Bool

/-- The SHA-384 digest of a nonce and a role byte (R373). -/
opaque Config.roleDigest : BitVec 384 → Nat → BitVec 384

/-- The first 32 bits of the AES-256 encryption of a zero block under a key (R375). -/
opaque Config.kcv : BitVec 256 → BitVec 32

/-- The L2 rewrite that next-hop REWRITE index gives a frame, at the n-th use (Table 10.11 names the chart entry and not its
layout). -/
opaque Config.l2Rewrite : Nat → Nat → List Byte → List Byte

/-- The bucket of a prefix in a way of a Compact length table: LPM seed, table, (VRF, address), way (R209 gives the layout of the tables
and neither their sizes nor the bytes that are hashed). -/
opaque Config.lpmBucket : BitVec 32 → Nat → Nat → Nat → Nat

/-- The i-th of the three hash functions of a length filter: table, (VRF, address), i (R209 states no function). -/
opaque Config.bloom : Nat → Nat → Nat → Nat

/-- Buckets of the Compact length tables that a walk has passed when it reaches a slot, and all of them (R209, R216). -/
opaque Config.lpmWalked : Nat → Nat
opaque Config.lpmBuckets : Nat

/-- The n-th value that the DRBG, the entropy source or another source the manual leaves open delivers. -/
opaque Config.freeNonce : Nat → BitVec 384

/-- The n-th free word. -/
opaque Config.freeWord : Nat → BitVec 32

/-- The n-th free number: a draw whose range the reader applies. -/
opaque Config.freeNat : Nat → Nat

/-- Bytes 12 to 235 of a Meridian message other than a time message: Table 16.1 names what they hold and not where (log 129). -/
opaque Config.merBody : MerBody → Nat → BitVec 8

/-- The payloads of the SNAPSHOT cells that carry copied state, by kind, number and records, and a map copy, by channel, frame and
bursts: the manual gives no layout (log 131). -/
opaque Config.copyCells : Nat × Nat × List CopyRec → List (List (BitVec 8))
opaque Config.mapCells : Nat × Nat × List Burst → List (List (BitVec 8))

/-- The instance (stack and pseudo-channel) of an HBM slot (Table 17.4): the manual does not place slots. -/
opaque Config.hbmInstance : Nat → Nat

/-- The k-th SESSION drawn from the DRBG (R311). -/
opaque Config.session : Nat → BitVec 16

/-- Keys wrapped under the pairing key, and unwrapped with it (R317). -/
opaque Config.pairWrap : BitVec 256 → List (BitVec 32) → List (BitVec 32)

/-- Keys unwrapped with the pairing key; none where the unwrap fails (R317). -/
opaque Config.pairUnwrap : BitVec 256 → List (BitVec 32) → Option (List (BitVec 32))

/-- GCM-AES-XPN-256 as IEEE 802.1AE applies it (R304): key, salt, SSCI, PN, SCI, the confidentiality offset or none for integrity only,
AN and frame give the protected frame with its SecTAG and ICV. -/
opaque Config.macsecSeal : BitVec 256 × BitVec 96 × BitVec 32 → BitVec 64 × BitVec 64 → Option Nat → Nat → List (BitVec 8) → List (BitVec 8)

/-- A protected frame opened (R304, R307): key, salt, SSCI, PN, SCI, confidentiality offset; the frame without SecTAG and ICV, and whether
the ICV holds. -/
opaque Config.macsecOpen : BitVec 256 × BitVec 96 × BitVec 32 → BitVec 64 × BitVec 64 → Nat → List (BitVec 8) → List (BitVec 8) × Bool

/-- The current in mA that a sense voltage in µV reads as with PWR_CAGE_RSNS = 0, which no resistor has (R390). -/
opaque Config.senseOpen : Int → Int

/-! ### PON quantities that the manual leaves to the ITU-T standards -/

/-- StartTime units in an upstream frame of channel 0 (G.9804.2, R109). -/
opaque Config.hspUnits : Nat

/-- Burst header and trailer of channel 0 in bytes (G.9804.2, Table 07.1). -/
opaque Config.hspOverhead : Nat

/-- DBRu bytes of channel 0 (G.9804.2, Table 07.1). -/
opaque Config.hspDbru : Nat

/-- PLOAMu bytes of channel 0 (G.9804.2, Table 07.1). -/
opaque Config.hspPloamu : Nat

/-- The GrantSize unit of channel 0 in bytes (G.9804.2, R160). -/
opaque Config.hspGrantUnit : Nat

/-- Units of channel 0's Ranging_Time in 125 µs (G.9804.2, R133). -/
opaque Config.hspEqdUnits : Nat

/-- Burst header bytes of channel 0, before the data of its first allocation (G.9804.2, Table 07.1). -/
opaque Config.hspHeader : Nat

/-- The frame header of a downstream frame: channel, allocation structures, PLOAM messages (G.9804.2 and G.9807.1, R106). -/
opaque Config.dsHeader : Nat × Nat × Nat → List Byte

/-- Bytes of a downstream frame that are left for XGEM frames after header, map, PLOAM messages and FEC parity: channel, allocation
structures, PLOAM messages (R106, R108). -/
opaque Config.dsSpace : Nat × Nat × Nat → Nat

/-- Byte `i` of the AES-128-CTR key stream of an XGEM frame (R173): key, whether it is upstream, superframe count, StartTime of its burst
(0 downstream), and the position of the XGEM frame, which the channel's standard makes the initial counter block of. -/
opaque Config.xgemStream : BitVec 128 × Bool × Nat × Nat × Nat → Nat → BitVec 8

/-- The broadcast Alloc-ID of discovery on a channel (R160). -/
opaque Config.broadcastAlloc : Nat → Nat

/-- The MIC of a downstream PLOAM message under an IK, or the standard's default key: kind code, ONU-ID, sequence number and
content (R126, R173). -/
opaque Config.ploamMic : Option (BitVec 128) → Nat → Nat → Nat → List (BitVec 32) → BitVec 64

/-- The MIC of an upstream PLOAM message (R125, R173). -/
opaque Config.ploamMicUp : Option (BitVec 128) → List (BitVec 32) → BitVec 64

/-- The key that Key_Report fragments carry, unwrapped with the KEK; none where the unwrap fails (R175). -/
opaque Config.keyUnwrap : BitVec 128 → List (BitVec 32) → Option (BitVec 128)

/-- Payload padding and any framing of an XGEM frame beyond its 8-byte header, for a payload length: the length on the line
(R170). -/
opaque Config.xgemPadded : Nat → Nat → Nat

end Sys2Proof
end

