-- ==== Sys2Proof/Machine/Bits.lean ====
section
/-!
DEFINITION. Machine/Bits.lean: bit ranges of a register word ([msb:lsb], bit 0 least significant), saturating counts,
byte orders and two's-complement readings.
-/
namespace Sys2Proof.Machine

/-- The bit range [hi:lo] of a word, as a number. -/
def fld (w : Word) (hi lo : Nat) : Nat := w.toNat / 2 ^ lo % 2 ^ (hi + 1 - lo)

/-- Bit `i` of a word. -/
def bit (w : Word) (i : Nat) : Bool := w.getLsbD i

/-- The word whose bits [hi:lo] are 1. -/
def mask (hi lo : Nat) : Word := BitVec.ofNat 32 ((2 ^ (hi + 1 - lo) - 1) * 2 ^ lo)

/-- The word with bits [hi:lo] replaced by `v` (taken modulo the field's size). -/
def setFld (w : Word) (hi lo v : Nat) : Word :=
  (w &&& ~~~(mask hi lo)) ||| (BitVec.ofNat 32 (v * 2 ^ lo) &&& mask hi lo)

/-- The word with bit `i` set to `b`. -/
def setBit (w : Word) (i : Nat) (b : Bool) : Word := setFld w i i (if b then 1 else 0)

/-- A truth value as a field value. -/
def ofBool (b : Bool) : Nat := if b then 1 else 0

/-- A 32-bit count that saturates at 0xFFFF_FFFF. -/
def satAdd (w : Word) (n : Nat) : Word := BitVec.ofNat 32 (min (w.toNat + n) 0xFFFFFFFF)

/-- The two's-complement reading of the low `n` bits of a number. -/
def signed (n v : Nat) : Int :=
  let m := v % 2 ^ n
  if m < 2 ^ (n - 1) then (m : Int) else (m : Int) - (2 ^ n : Nat)

/-- An integer as an `n`-bit two's-complement number. -/
def unsign (n : Nat) (v : Int) : Nat := (v % ((2 ^ n : Nat) : Int)).toNat

/-- A number as `n` bytes, lowest first. -/
def leBytes : Nat → Nat → List Byte
  | 0, _ => []
  | n + 1, v => BitVec.ofNat 8 v :: leBytes n (v / 256)

/-- A number as `n` bytes, highest first. -/
def beBytes (n v : Nat) : List Byte := (leBytes n v).reverse

/-- The number that bytes spell, lowest first. -/
def ofLe : List Byte → Nat
  | [] => 0
  | b :: bs => b.toNat + 256 * ofLe bs

/-- The number that bytes spell, highest first. -/
def ofBe (bs : List Byte) : Nat := ofLe bs.reverse

/-- Replace bytes at an offset. -/
def putAt (bs : List Byte) (o : Nat) (b : List Byte) : List Byte :=
  if o + b.length ≤ bs.length then bs.take o ++ b ++ bs.drop (o + b.length) else bs

/-- A number kept between two bounds. -/
def clampInt (lo hi v : Int) : Int := if v < lo then lo else if hi < v then hi else v

/-- A number rounded up to a multiple of `n` (n > 0). -/
def ceilDiv (a n : Nat) : Nat := (a + n - 1) / n

/-- The list with position `i` replaced. -/
def setAt {α : Type} : List α → Nat → α → List α
  | [], _, _ => []
  | _ :: xs, 0, v => v :: xs
  | x :: xs, i + 1, v => x :: setAt xs i v

/-- Put an element before the first one that `le` does not put before it. -/
def insertBy {α : Type} (le : α → α → Bool) (x : α) : List α → List α
  | [] => [x]
  | y :: ys => if le x y then x :: y :: ys else y :: insertBy le x ys

/-- A list in the order of `le`, equal elements in their order. -/
def sortBy {α : Type} (le : α → α → Bool) (l : List α) : List α := l.foldr (insertBy le) []

/-- The words of a list as one number, first word lowest. -/
def ofWords : List Word → Nat
  | [] => 0
  | w :: ws => w.toNat + 2 ^ 32 * ofWords ws

/-- A number as `n` words, lowest first. -/
def toWords : Nat → Nat → List Word
  | 0, _ => []
  | n + 1, v => BitVec.ofNat 32 v :: toWords n (v / 2 ^ 32)

/-- Fields packed into a number, highest first: each a width and a value. -/
def pack (fs : List (Nat × Nat)) : Nat := fs.foldl (fun a e => a * 2 ^ e.1 + e.2 % 2 ^ e.1) 0

/-! ### Bytes of a frame -/

/-- 16 bits at a byte offset of a frame, 0 beyond its end. -/
def at16 (bs : List Byte) (o : Nat) : Nat := ofBe ((bs.drop o).take 2)

/-- `w` bits from bit `o` of bytes, bit 0 the highest of the first byte; bits beyond the end read 0. -/
def bitsAt (bs : List Byte) (o w : Nat) : Nat :=
  let b0 := o / 8
  let b1 := ceilDiv (o + w) 8
  let l := (bs.drop b0).take (b1 - b0)
  ofBe (l ++ List.replicate (b1 - b0 - l.length) 0) / 2 ^ (8 * b1 - (o + w)) % 2 ^ w

/-- One's-complement sum of 16-bit words, folded. -/
def fold16 (n : Nat) : Nat := let m := n % 65536 + n / 65536; m % 65536 + m / 65536

/-- The sum of 16-bit words of bytes, one's complement. -/
def sum16 : List Byte → Nat
  | [] => 0
  | [a] => a.toNat * 256
  | a :: b :: bs => fold16 (a.toNat * 256 + b.toNat + sum16 bs)

end Sys2Proof.Machine
end

