-- ==== Sys2Proof/Machine/RegMap.lean ====
section
/-!
DEFINITION. Machine/RegMap.lean: the register map of BAR0 (Tables 21.1 and 21.2 and the register tables of every
chapter): for each register its offset, its arrays, its reset value, its fields with their types (Table 00.5) and its
place in a multi-word value (R6). An address no row covers is reserved (R8, R403, R404).
-/
namespace Sys2Proof.Machine

/-- A field of a register: its bits and its type (Table 00.5). -/
inductive FieldD where
  | rw (hi lo : Nat)
  | ro (hi lo : Nat)
  | wo (hi lo : Nat)
  | w1c (hi lo : Nat)
  | w1s (hi lo : Nat)
  | rc (hi lo : Nat)
deriving DecidableEq, Repr

/-- The place of a register in a value that spans several consecutive registers (R6). -/
inductive Words where
  | single
  | part (k n : Nat)     -- word k of n
  | along (n : Nat)      -- the second index is the word, n words
deriving DecidableEq, Repr

/-- A row of the register map. `dims` lists (stride, count) for up to two indices. -/
structure RegD where
  name : String
  base : Nat
  dims : List (Nat × Nat) := []
  reset : Nat → Nat := fun _ => 0
  fields : List FieldD := []
  words : Words := .single

/-- A reset value that every index shares. -/
def k (v : Nat) : Nat → Nat := fun _ => v

/-- OP_CTRL of a long operation (Table 02.9). -/
def opCtrlFields : List FieldD := [.wo 31 31, .wo 30 30, .rw 29 29, .w1c 28 28, .rw 15 0]

/-- OPSTAT of a long operation (Table 02.10). -/
def opStatFields : List FieldD := [.ro 31 31, .ro 30 30, .ro 29 29, .ro 28 28, .ro 27 24, .ro 23 0]

/-- A commit register (Table 02.7). -/
def commitFields : List FieldD := [.wo 31 31, .ro 30 30, .ro 16 16, .ro 15 8, .ro 1 1, .rw 0 0]

/-- The DEV_ window (chapters 02, 03 and 21). -/
def regsDev : List RegD := [
  { name := "DEV_ID", base := 0x0000000, reset := k 0x7460B000, fields := [.ro 31 16, .ro 15 8] },
  { name := "DEV_MODE", base := 0x0000010, fields := [.wo 31 31, .w1c 30 30, .ro 29 29, .rw 26 24, .ro 2 0] },
  { name := "DEV_MODE_CAUSE", base := 0x0000014, fields := [.ro 15 8, .ro 3 0] },
  { name := "DEV_SAFE_GRACE", base := 0x0000018, reset := k 0x07D0, fields := [.rw 15 0] },
  { name := "DEV_COMM_STATUS", base := 0x000001C, fields := [.ro 31 31, .ro 30 30, .ro 28 28, .ro 7 4, .ro 3 3, .ro 2 2, .ro 1 1, .ro 0 0] },
  { name := "DEV_RESET", base := 0x0000020, fields := [.wo 31 31, .wo 30 30, .wo 15 0] },
  { name := "DEV_RESET_CAUSE", base := 0x0000024, fields := [.w1c 5 5, .w1c 4 4, .w1c 3 3, .w1c 2 2, .w1c 1 1, .w1c 0 0] },
  { name := "DEV_BLK_RESET", base := 0x0000028, fields := [.w1s 5 5, .w1s 4 4, .w1s 3 3, .w1s 2 2, .w1s 1 1] },
  { name := "DEV_IMG_ADDR_LO", base := 0x0000100, fields := [.rw 31 0], words := .part 0 2 },
  { name := "DEV_IMG_ADDR_HI", base := 0x0000104, fields := [.rw 31 0], words := .part 1 2 },
  { name := "DEV_IMG_LEN", base := 0x0000108, fields := [.rw 26 0] },
  { name := "DEV_IMG_OP_CTRL", base := 0x0000110, fields := opCtrlFields },
  { name := "DEV_IMG_OPSTAT", base := 0x0000114, fields := opStatFields },
  { name := "DEV_IMG_OP_PARTIAL", base := 0x0000118, fields := [.ro 31 31, .ro 5 0] },
  { name := "DEV_IMG_ID_ACTIVE", base := 0x0000120, fields := [.ro 31 0] },
  { name := "DEV_SWAP_OP_CTRL", base := 0x0000140, fields := [.wo 31 31, .wo 30 30, .rw 29 29, .w1c 28 28, .rw 15 3, .wo 2 2, .rw 1 0] },
  { name := "DEV_SWAP_OPSTAT", base := 0x0000144, fields := opStatFields },
  { name := "DEV_SWAP_OP_PARTIAL", base := 0x0000148, fields := [.ro 31 31, .ro 3 0] },
  { name := "DEV_BIST_OP_CTRL", base := 0x0000150, fields := [.wo 31 31, .wo 30 30, .rw 29 29, .w1c 28 28, .rw 1 0] },
  { name := "DEV_BIST_OPSTAT", base := 0x0000154, fields := opStatFields },
  { name := "DEV_BIST_OP_PARTIAL", base := 0x0000158, dims := [(0x4, 2)], fields := [.ro 31 0] },
  { name := "DEV_PIPE_MAP", base := 0x0000180, dims := [(0x4, 8)], reset := fun k => k, fields := [.ro 3 0] },
  { name := "DEV_PIPE_SPARE", base := 0x00001A0, reset := k 8, fields := [.ro 3 0] },
  { name := "DEV_WIN_SEL", base := 0x0000200, dims := [(0x10, 2)], reset := fun w => if w = 0 then 0x80000000 else 0, fields := [.rw 31 31, .rw 27 24, .rw 16 16, .rw 7 0] },
  { name := "DEV_WIN_BASE", base := 0x0000204, dims := [(0x10, 2)], fields := [.rw 20 0] },
  { name := "DEV_WIN_DROP", base := 0x0000208, dims := [(0x10, 2)], fields := [.rc 31 0] },
  { name := "DEV_RING_PUNT_BASE_LO", base := 0x0010000, dims := [(0x40, 64)], fields := [.rw 31 0], words := .part 0 2 },
  { name := "DEV_RING_PUNT_BASE_HI", base := 0x0010004, dims := [(0x40, 64)], fields := [.rw 31 0], words := .part 1 2 },
  { name := "DEV_RING_PUNT_SIZE", base := 0x0010008, dims := [(0x40, 64)], fields := [.rw 31 0] },
  { name := "DEV_RING_PUNT_HEAD", base := 0x001000C, dims := [(0x40, 64)], fields := [.ro 31 0] },
  { name := "DEV_RING_PUNT_TAIL", base := 0x0010010, dims := [(0x40, 64)], fields := [.rw 31 0] },
  { name := "DEV_RING_PUNT_DROP", base := 0x0010014, dims := [(0x40, 64)], fields := [.rc 31 0] },
  { name := "DEV_RING_INJ_BASE_LO", base := 0x0010020, dims := [(0x40, 64)], fields := [.rw 31 0], words := .part 0 2 },
  { name := "DEV_RING_INJ_BASE_HI", base := 0x0010024, dims := [(0x40, 64)], fields := [.rw 31 0], words := .part 1 2 },
  { name := "DEV_RING_INJ_SIZE", base := 0x0010028, dims := [(0x40, 64)], fields := [.rw 31 0] },
  { name := "DEV_RING_INJ_HEAD", base := 0x001002C, dims := [(0x40, 64)], fields := [.ro 31 0] },
  { name := "DEV_RING_INJ_TAIL", base := 0x0010030, dims := [(0x40, 64)], fields := [.rw 31 0] }]

/-- The PWR_ window (chapter 20). -/
def regsPwr : List RegD := [
  { name := "PWR_CTRL", base := 0x0100000, reset := k 0x00000100, fields := [.rw 31 31, .rw 8 8] },
  { name := "PWR_AVC_CFG", base := 0x0100004, reset := k 0x80000320, fields := [.rw 31 31, .rw 15 0] },
  { name := "PWR_STATUS", base := 0x0100008, fields := [.ro 31 31, .ro 30 24, .ro 22 20, .ro 15 0] },
  { name := "PWR_VIN", base := 0x010000C, fields := [.ro 31 31, .ro 30 30, .ro 15 0] },
  { name := "PWR_FAULT", base := 0x0100010, fields := [.ro 31 31, .ro 26 24, .ro 3 0] },
  { name := "PWR_RAIL_V", base := 0x0100040, dims := [(0x8, 7)], fields := [.ro 31 0] },
  { name := "PWR_RAIL_I", base := 0x0100044, dims := [(0x8, 7)], fields := [.ro 31 0] },
  { name := "PWR_TEMP", base := 0x0100100, dims := [(0x4, 7)], fields := [.ro 31 31, .ro 15 0] },
  { name := "PWR_TEMP_CFG", base := 0x0100120, reset := k 0x646E6900, fields := [.rw 31 24, .rw 23 16, .rw 15 8] },
  { name := "PWR_CAGE_CFG", base := 0x0100200, reset := k 0x0FA01414, fields := [.rw 31 16, .rw 15 8, .rw 7 0] },
  { name := "PWR_CAGE_RSNS", base := 0x0100204, reset := k 0x00001388, fields := [.rw 15 0] },
  { name := "PWR_CAGE_CTRL", base := 0x0101000, dims := [(0x10, 72)], reset := k 0x00000FA0, fields := [.rw 31 31, .wo 30 30, .rw 15 0] },
  { name := "PWR_CAGE_STATUS", base := 0x0101004, dims := [(0x10, 72)], fields := [.ro 31 29, .ro 28 28, .ro 25 24, .ro 23 16] },
  { name := "PWR_CAGE_CURRENT", base := 0x0101008, dims := [(0x10, 72)], fields := [.ro 15 0] }]

/-- The TIME_ window, part 1 (chapter 04). -/
def regsTime1 : List RegD := [
  { name := "TIME_CTRL", base := 0x0200000, fields := [.rw 31 31, .rw 3 0] },
  { name := "TIME_RAW_W0", base := 0x0200010, fields := [.ro 31 0], words := .part 0 3 },
  { name := "TIME_RAW_W1", base := 0x0200014, fields := [.ro 31 0], words := .part 1 3 },
  { name := "TIME_RAW_W2", base := 0x0200018, fields := [.ro 31 0], words := .part 2 3 },
  { name := "TIME_SNAP_CTRL", base := 0x0200040, fields := [.wo 31 31, .rw 3 0] },
  { name := "TIME_SNAP_SEC_LO", base := 0x0200044, fields := [.ro 31 0], words := .part 0 2 },
  { name := "TIME_SNAP_SEC_HI", base := 0x0200048, fields := [.ro 15 0], words := .part 1 2 },
  { name := "TIME_SNAP_NS", base := 0x020004C, fields := [.ro 31 0] },
  { name := "TIME_SNAP_FRAC", base := 0x0200050, fields := [.ro 15 0] },
  { name := "TIME_SNAP_NS32", base := 0x0200054, fields := [.ro 31 0] },
  { name := "TIME_SNAP_RAW_W0", base := 0x0200058, fields := [.ro 31 0], words := .part 0 3 },
  { name := "TIME_SNAP_RAW_W1", base := 0x020005C, fields := [.ro 31 0], words := .part 1 3 },
  { name := "TIME_SNAP_RAW_W2", base := 0x0200060, fields := [.ro 31 0], words := .part 2 3 },
  { name := "TIME_SNAP_COUNT", base := 0x0200064, fields := [.ro 31 0] },
  { name := "TIME_VIEW_OFFSET_W0", base := 0x0201000, dims := [(0x40, 16)], fields := [.rw 31 0], words := .part 0 3 },
  { name := "TIME_VIEW_OFFSET_W1", base := 0x0201004, dims := [(0x40, 16)], fields := [.rw 31 0], words := .part 1 3 },
  { name := "TIME_VIEW_OFFSET_W2", base := 0x0201008, dims := [(0x40, 16)], fields := [.rw 31 0], words := .part 2 3 },
  { name := "TIME_VIEW_RATE_LO", base := 0x020100C, dims := [(0x40, 16)], fields := [.rw 31 0], words := .part 0 2 },
  { name := "TIME_VIEW_RATE_HI", base := 0x0201010, dims := [(0x40, 16)], fields := [.rw 7 0], words := .part 1 2 },
  { name := "TIME_VIEW_STEP_LO", base := 0x0201014, dims := [(0x40, 16)], fields := [.wo 31 0], words := .part 0 2 },
  { name := "TIME_VIEW_STEP_HI", base := 0x0201018, dims := [(0x40, 16)], fields := [.wo 31 0], words := .part 1 2 },
  { name := "TIME_VIEW_EPOCH_W0", base := 0x0201020, dims := [(0x40, 16)], fields := [.ro 31 0], words := .part 0 3 },
  { name := "TIME_VIEW_EPOCH_W1", base := 0x0201024, dims := [(0x40, 16)], fields := [.ro 31 0], words := .part 1 3 },
  { name := "TIME_VIEW_EPOCH_W2", base := 0x0201028, dims := [(0x40, 16)], fields := [.ro 31 0], words := .part 2 3 },
  { name := "TIME_VIEW_GEN", base := 0x0201030, dims := [(0x40, 16)], fields := [.ro 15 0] },
  { name := "TIME_PORT_CFG", base := 0x0202000, dims := [(0x4, 75)], fields := [.rw 9 9, .rw 8 8, .rw 4 4, .rw 3 0] },
  { name := "TIME_PORT_CAL", base := 0x0202200, dims := [(0x4, 75)], fields := [.rw 31 16, .rw 15 0] },
  { name := "TIME_PTP_DOMAIN_MAP", base := 0x0203000, dims := [(0x4, 256)], fields := [.rw 8 8, .rw 3 0] },
  { name := "TIME_TXTS_W0", base := 0x0204000, dims := [(0x20, 8)], fields := [.ro 31 16, .ro 15 8, .ro 7 4, .ro 0 0] },
  { name := "TIME_TXTS_W1", base := 0x0204004, dims := [(0x20, 8)], fields := [.ro 31 0] },
  { name := "TIME_TXTS_W2", base := 0x0204008, dims := [(0x20, 8)], fields := [.ro 7 0] },
  { name := "TIME_TXTS_LEVEL", base := 0x020400C, dims := [(0x20, 8)], fields := [.ro 8 0] },
  { name := "TIME_TXTS_DROP", base := 0x0204010, dims := [(0x20, 8)], fields := [.rc 31 0] },
  { name := "TIME_PON_CFG", base := 0x0205000, reset := k 0x00006400, fields := [.wo 31 31, .rw 17 8, .rw 3 0] },
  { name := "TIME_PON_PHASE_ERR", base := 0x0205004, fields := [.ro 31 0] },
  { name := "TIME_PON_SF_LO", base := 0x0205008, fields := [.ro 31 0], words := .part 0 2 },
  { name := "TIME_PON_SF_HI", base := 0x020500C, fields := [.ro 18 0], words := .part 1 2 },
  { name := "TIME_SYNCE_CFG", base := 0x0206000, dims := [(0x4, 2)], reset := k 0x00001300, fields := [.rw 16 16, .rw 12 12, .rw 9 8, .rw 4 0] },
  { name := "TIME_SYNCE_STATUS", base := 0x0206008, fields := [.ro 1 0] },
  { name := "TIME_PPS_IN_CFG", base := 0x0206100, reset := k 0x00030000, fields := [.rw 17 16, .rw 7 4, .rw 1 1, .rw 0 0] }]

/-- The TIME_ window, part 2 (chapter 04). -/
def regsTime2 : List RegD := [
  { name := "TIME_PPS_IN_SEC_LO", base := 0x0206104, fields := [.ro 31 0], words := .part 0 3 },
  { name := "TIME_PPS_IN_SEC_HI", base := 0x0206108, fields := [.ro 15 0], words := .part 1 3 },
  { name := "TIME_PPS_IN_NS", base := 0x020610C, fields := [.ro 31 0], words := .part 2 3 },
  { name := "TIME_PPS_IN_COUNT", base := 0x0206110, fields := [.ro 31 0] },
  { name := "TIME_TOD_IN_DATA", base := 0x0206114, fields := [.rc 8 8, .rc 7 0] },
  { name := "TIME_TOD_IN_DROP", base := 0x0206118, fields := [.rc 31 0] },
  { name := "TIME_PPS_OUT_CFG", base := 0x0206120, reset := k 0x00000A00, fields := [.rw 31 16, .rw 15 8, .rw 7 4, .rw 0 0] },
  { name := "TIME_TOD_OUT_DATA", base := 0x0206124, fields := [.wo 7 0] },
  { name := "TIME_TOD_OUT_CTRL", base := 0x0206128, reset := k 0x00030000, fields := [.wo 31 31, .rw 17 16, .rw 15 0] },
  { name := "TIME_GPIO_CFG", base := 0x0206200, dims := [(0x4, 8)], fields := [.ro 2 2, .rw 1 1, .rw 0 0] },
  { name := "TIME_WP_NS", base := 0x0208000, dims := [(0x20, 512)], fields := [.rw 31 0] },
  { name := "TIME_WP_SEC_LO", base := 0x0208004, dims := [(0x20, 512)], fields := [.rw 31 0], words := .part 0 2 },
  { name := "TIME_WP_SEC_HI", base := 0x0208008, dims := [(0x20, 512)], fields := [.rw 15 0], words := .part 1 2 },
  { name := "TIME_WP_ACTION", base := 0x020800C, dims := [(0x20, 512)], fields := [.rw 31 28, .rw 27 0] },
  { name := "TIME_WP_CTRL", base := 0x0208010, dims := [(0x20, 512)], fields := [.wo 31 31, .wo 30 30, .rw 9 9, .rw 8 8, .rw 3 0] },
  { name := "TIME_WP_STATUS", base := 0x0208014, dims := [(0x20, 512)], fields := [.ro 31 30, .ro 29 29] },
  { name := "TIME_WP_LATENESS", base := 0x0208018, dims := [(0x20, 512)], fields := [.ro 31 0] }]

/-- The TIME_ window (chapter 04). -/
def regsTime : List RegD := regsTime1 ++ regsTime2

/-- The PON_ window (chapter 05). -/
def regsPon : List RegD := [
  { name := "PON_LINE_CFG", base := 0x0300000, dims := [(0x10000, 48)], reset := k 0x00000600, fields := [.rw 31 31, .rw 11 10, .rw 9 8, .w1s 1 1, .rw 0 0] },
  { name := "PON_PERSONALITY", base := 0x0300004, dims := [(0x10000, 48)], fields := [.ro 2 0] },
  { name := "PON_LINE_STATUS", base := 0x0300008, dims := [(0x10000, 48)], reset := k 0x01000000, fields := [.ro 31 31, .ro 30 30, .ro 29 29, .ro 28 28, .ro 27 24] },
  { name := "PON_LINE_TIMING", base := 0x030000C, dims := [(0x10000, 48)], reset := k 0x03E80050, fields := [.rw 31 16, .rw 7 0] },
  { name := "PON_TEQ", base := 0x0300010, dims := [(0x10000, 48)], reset := k 0x0006B6C0, fields := [.rw 19 0] },
  { name := "PON_DELIM_CFG", base := 0x0300014, dims := [(0x10000, 48)], reset := k 0x00400004, fields := [.rw 25 16, .rw 4 0] },
  { name := "PON_SIDEBAND_CFG", base := 0x0300018, dims := [(0x10000, 48)], reset := k 0x00100400, fields := [.rw 31 24, .rw 23 16, .rw 15 8, .rw 1 1, .rw 0 0] },
  { name := "PON_CH_CFG", base := 0x0300020, dims := [(0x10000, 48), (0x4, 2)], reset := k 0x00000020, fields := [.rw 7 0] },
  { name := "PON_RSSI_CTRL", base := 0x0300028, dims := [(0x10000, 48)], reset := k 0x00002040, fields := [.wo 31 31, .ro 30 30, .rw 29 28, .rw 25 16, .rw 15 8, .rw 7 0] },
  { name := "PON_BURST_PROFILE_W0", base := 0x0300100, dims := [(0x10000, 48), (0x20, 4)], fields := [.rw 17 16, .rw 8 8, .rw 4 4] },
  { name := "PON_BURST_PROFILE_W1", base := 0x0300104, dims := [(0x10000, 48), (0x20, 4)], fields := [.rw 31 24, .rw 15 0] },
  { name := "PON_BURST_PROFILE_W2", base := 0x0300108, dims := [(0x10000, 48), (0x20, 4)], fields := [.rw 31 0] },
  { name := "PON_BURST_PROFILE_W3", base := 0x030010C, dims := [(0x10000, 48), (0x20, 4)], fields := [.rw 31 0] },
  { name := "PON_DS_FRAMES", base := 0x0300200, dims := [(0x10000, 48), (0x40, 2)], fields := [.rc 31 0] },
  { name := "PON_MAP_LATE", base := 0x0300204, dims := [(0x10000, 48), (0x40, 2)], fields := [.rc 31 0] },
  { name := "PON_BURST_OK", base := 0x0300208, dims := [(0x10000, 48), (0x40, 2)], fields := [.rc 31 0] },
  { name := "PON_BURST_MISS", base := 0x030020C, dims := [(0x10000, 48), (0x40, 2)], fields := [.rc 31 0] },
  { name := "PON_DELIM_FALSE", base := 0x0300210, dims := [(0x10000, 48), (0x40, 2)], fields := [.rc 31 0] },
  { name := "PON_BURST_ONU_MISMATCH", base := 0x0300214, dims := [(0x10000, 48), (0x40, 2)], fields := [.rc 31 0] },
  { name := "PON_FEC_CW_CORR", base := 0x0300218, dims := [(0x10000, 48), (0x40, 2)], fields := [.rc 31 0] },
  { name := "PON_FEC_CW_UNCORR", base := 0x030021C, dims := [(0x10000, 48), (0x40, 2)], fields := [.rc 31 0] },
  { name := "PON_DISC_BURSTS", base := 0x0300220, dims := [(0x10000, 48), (0x40, 2)], fields := [.rc 31 0] }]

/-- The ACT_ window (chapter 06). -/
def regsAct : List RegD := [
  { name := "ACT_CTRL", base := 0x0600000, reset := k 0x00000100, fields := [.rw 31 31, .rw 9 8, .rw 4 4, .rw 0 0] },
  { name := "ACT_EXP_CFG", base := 0x0600004, reset := k 0x000007D0, fields := [.rw 31 31, .rw 30 30, .rw 29 29, .rw 28 28, .rw 27 27, .rw 26 26, .rw 15 0] },
  { name := "ACT_DISC_TIMING", base := 0x0600008, reset := k 0xCFA08830, fields := [.rw 31 30, .rw 29 20, .rw 19 10, .rw 9 0] },
  { name := "ACT_SUPV_CFG", base := 0x060000C, reset := k 0x20084210, fields := [.rw 31 24, .rw 23 16, .rw 15 12, .rw 11 6, .rw 5 0] },
  { name := "ACT_SUPV_CFG2", base := 0x0600010, reset := k 0x03E81010, fields := [.rw 31 16, .rw 15 8, .rw 7 0] },
  { name := "ACT_DISC_PORT", base := 0x0600100, dims := [(0x4, 48)], reset := fun n => n * 2000 / 48, fields := [.rw 15 0] },
  { name := "ACT_PORT_STATUS", base := 0x0600400, dims := [(0x10, 48)], fields := [.ro 25 25, .ro 24 24, .ro 9 0] },
  { name := "ACT_PORT_ENERGY", base := 0x0600404, dims := [(0x10, 48)], fields := [.rc 31 0] },
  { name := "ACT_PORT_DRIFT", base := 0x0600408, dims := [(0x10, 48)], fields := [.rc 31 0] },
  { name := "ACT_PORT_DIS_SN", base := 0x060040C, dims := [(0x10, 48)], fields := [.rc 31 0] },
  { name := "ACT_PLOAM_RX_HDR", base := 0x0601000, fields := [.ro 31 31, .ro 30 29, .ro 28 23, .ro 22 22, .ro 21 12, .ro 11 8] },
  { name := "ACT_PLOAM_RX_DATA", base := 0x0601004, dims := [(0x4, 10)], fields := [.ro 31 0] },
  { name := "ACT_PLOAM_RX_LEVEL", base := 0x060102C, fields := [.ro 12 0] },
  { name := "ACT_PLOAM_RX_DROP", base := 0x0601030, fields := [.rc 31 0] },
  { name := "ACT_PLOAM_MIC_ERR", base := 0x0601034, fields := [.rc 31 0] },
  { name := "ACT_PLOAM_TX_DATA", base := 0x0601040, dims := [(0x4, 10)], fields := [.rw 31 0] },
  { name := "ACT_PLOAM_TX_CMD", base := 0x0601070, fields := [.wo 31 31, .wo 28 23, .wo 22 22, .wo 21 12] },
  { name := "ACT_PLOAM_TX_DROP", base := 0x0601074, fields := [.rc 31 0] },
  { name := "ACT_CMD", base := 0x0602000, fields := [.wo 31 31, .rw 27 24, .rw 21 16, .rw 12 12, .rw 9 0] },
  { name := "ACT_CMD_DATA", base := 0x0602004, fields := [.rw 23 0] },
  { name := "ACT_CMD_SN_V", base := 0x0602008, fields := [.rw 31 0] },
  { name := "ACT_CMD_SN_S", base := 0x060200C, fields := [.rw 31 0] },
  { name := "ACT_CMD_STATUS", base := 0x0602010, fields := [.ro 31 31, .ro 30 30, .ro 29 29, .ro 3 0] },
  { name := "ACT_SNTAB_IDX", base := 0x0603000, fields := [.rw 14 0] },
  { name := "ACT_SNTAB_VENDOR", base := 0x0603004, fields := [.rw 31 0] },
  { name := "ACT_SNTAB_SERIAL", base := 0x0603008, fields := [.rw 31 0] },
  { name := "ACT_SNTAB_BIND", base := 0x060300C, fields := [.rw 31 31, .rw 30 30, .rw 21 16, .rw 15 15, .rw 9 0] },
  { name := "ACT_SNTAB_CMD", base := 0x0603010, fields := [.wo 31 31, .wo 30 30] },
  { name := "ACT_ONU_W0", base := 0x0640000, dims := [(0x4000, 48), (0x10, 1024)], fields := [.ro 31 31, .ro 30 30, .ro 23 16, .ro 12 12, .ro 3 0] },
  { name := "ACT_ONU_W1", base := 0x0640004, dims := [(0x4000, 48), (0x10, 1024)], fields := [.ro 31 0] },
  { name := "ACT_ONU_W2", base := 0x0640008, dims := [(0x4000, 48), (0x10, 1024)], fields := [.ro 31 0] },
  { name := "ACT_ONU_W3", base := 0x064000C, dims := [(0x4000, 48), (0x10, 1024)], fields := [.ro 23 0] }]

/-- The DBA_ window (chapter 07). -/
def regsDba : List RegD := [
  { name := "DBA_CTRL", base := 0x0700000, reset := k 0x00000110, fields := [.rw 31 31, .rw 9 8, .rw 4 4] },
  { name := "DBA_EXP_CFG", base := 0x0700004, reset := k 0x74020800, fields := [.rw 31 29, .rw 28 28, .rw 27 20, .rw 19 14, .rw 13 8] },
  { name := "DBA_COMMIT", base := 0x0700008, fields := commitFields },
  { name := "DBA_EXP_CFG2", base := 0x070000C, reset := k 0x00400040, fields := [.rw 31 16, .rw 15 0] },
  { name := "DBA_BOOK_CFG", base := 0x0700010, reset := k 0x27100032, fields := [.rw 31 16, .rw 7 0] },
  { name := "DBA_BOOK_TARGET", base := 0x0700020, fields := [.rw 21 16, .rw 11 0] },
  { name := "DBA_BOOK_VOL", base := 0x0700024, fields := [.rw 23 0] },
  { name := "DBA_BOOK_NS", base := 0x0700028, fields := [.rw 29 0] },
  { name := "DBA_BOOK_SEC_LO", base := 0x070002C, fields := [.rw 31 0], words := .part 0 2 },
  { name := "DBA_BOOK_SEC_HI", base := 0x0700030, fields := [.rw 15 0], words := .part 1 2 },
  { name := "DBA_BOOK_CMD", base := 0x0700034, fields := [.wo 31 31, .rw 11 8, .rw 3 0] },
  { name := "DBA_BOOK_STATUS", base := 0x0700038, fields := [.ro 31 31, .ro 30 30, .ro 29 29, .ro 27 24, .ro 23 0] },
  { name := "DBA_BOOK_FIRST_FRAME", base := 0x070003C, fields := [.ro 31 0] },
  { name := "DBA_ALLOC_SEL", base := 0x0700040, fields := [.wo 31 31, .wo 30 30, .rw 21 16, .rw 11 0] },
  { name := "DBA_ALLOC_CFG0", base := 0x0700044, fields := [.rw 31 31, .rw 29 16, .rw 9 0] },
  { name := "DBA_ALLOC_CFG1", base := 0x0700048, fields := [.rw 9 0] },
  { name := "DBA_ALLOC_FIX", base := 0x070004C, fields := [.ro 23 0] },
  { name := "DBA_ALLOC_FIX_FRAME", base := 0x0700050, fields := [.ro 31 0] },
  { name := "DBA_ALLOC_RATE", base := 0x0700054, fields := [.ro 31 0] },
  { name := "DBA_ALLOC_EST", base := 0x0700058, fields := [.ro 23 0] },
  { name := "DBA_BOOK_REFUSED", base := 0x0700060, fields := [.rc 31 0] },
  { name := "DBA_BOOK_LATE", base := 0x0700064, fields := [.rc 31 0] },
  { name := "DBA_CTI_ACCEPT", base := 0x0700068, fields := [.rc 31 0] },
  { name := "DBA_CTI_BAD", base := 0x070006C, fields := [.rc 31 0] },
  { name := "DBA_BOOK_LEVEL", base := 0x0700070, fields := [.ro 13 0] },
  { name := "DBA_PORT_CFG", base := 0x0700100, dims := [(0x4, 48)], reset := k 0x00800080, fields := [.rw 24 16, .rw 8 0] },
  { name := "DBA_MAPS", base := 0x0700400, dims := [(0x40, 96)], fields := [.rc 31 0] },
  { name := "DBA_STRUCTS", base := 0x0700404, dims := [(0x40, 96)], fields := [.rc 31 0] },
  { name := "DBA_STRUCT_SHORT", base := 0x0700408, dims := [(0x40, 96)], fields := [.rc 31 0] },
  { name := "DBA_CAP_SHORT", base := 0x070040C, dims := [(0x40, 96)], fields := [.rc 31 0] },
  { name := "DBA_REPORTS", base := 0x0700410, dims := [(0x40, 96)], fields := [.rc 31 0] },
  { name := "DBA_REPORT_BAD", base := 0x0700414, dims := [(0x40, 96)], fields := [.rc 31 0] },
  { name := "DBA_BOOK_LOST", base := 0x0700418, dims := [(0x40, 96)], fields := [.rc 31 0] },
  { name := "DBA_PROF_W0", base := 0x0710000, dims := [(0x10000, 2), (0x20, 1024)], fields := [.rw 25 0] },
  { name := "DBA_PROF_W1", base := 0x0710004, dims := [(0x10000, 2), (0x20, 1024)], fields := [.rw 25 0] },
  { name := "DBA_PROF_W2", base := 0x0710008, dims := [(0x10000, 2), (0x20, 1024)], fields := [.rw 25 0] },
  { name := "DBA_PROF_W3", base := 0x071000C, dims := [(0x10000, 2), (0x20, 1024)], fields := [.rw 31 30, .rw 26 24, .rw 23 16, .rw 15 12, .rw 9 8, .rw 4 4, .rw 0 0] },
  { name := "DBA_PROF_W4", base := 0x0710010, dims := [(0x10000, 2), (0x20, 1024)], fields := [.rw 3 0] },
  { name := "DBA_CTI_MAP_W0", base := 0x0730000, dims := [(0x8, 4096)], fields := [.rw 31 0] },
  { name := "DBA_CTI_MAP_W1", base := 0x0730004, dims := [(0x8, 4096)], fields := [.rw 31 31, .rw 29 24, .rw 19 16, .rw 11 0] }]

/-- The XGM_ window (chapter 08). -/
def regsXgm : List RegD := [
  { name := "XGM_CTRL", base := 0x0800000, reset := k 0x00000100, fields := [.rw 31 31, .rw 9 8] },
  { name := "XGM_EXP_CFG", base := 0x0800004, reset := k 0x10000040, fields := [.rw 31 24, .rw 23 23, .rw 15 0] },
  { name := "XGM_SDU_CFG", base := 0x0800008, reset := k 0x00002580, fields := [.rw 13 0] },
  { name := "XGM_BIND_SEL", base := 0x0800010, fields := [.wo 31 31, .wo 30 30, .rw 21 16, .rw 12 0] },
  { name := "XGM_BIND_CFG0", base := 0x0800014, fields := [.rw 31 31, .rw 30 30, .rw 29 29, .rw 28 28, .rw 9 0] },
  { name := "XGM_BIND_CFG1", base := 0x0800018, fields := [.rw 11 0] },
  { name := "XGM_DSQ_SEL", base := 0x0800020, fields := [.wo 31 31, .wo 30 30, .rw 18 0] },
  { name := "XGM_DSQ_CFG", base := 0x0800024, fields := [.rw 31 31, .rw 12 0] },
  { name := "XGM_KEY_SEL", base := 0x0800030, fields := [.wo 31 31, .wo 30 30, .wo 29 29, .rw 27 26, .rw 25 24, .rw 21 16, .rw 12 12, .rw 9 0] },
  { name := "XGM_KEY_DATA", base := 0x0800034, dims := [(0x4, 4)], fields := [.wo 31 0] },
  { name := "XGM_KEY_INFO", base := 0x0800044, fields := [.ro 31 31, .ro 30 30, .ro 29 29, .ro 25 24, .ro 2 2, .ro 1 1] },
  { name := "XGM_KEY_CMD", base := 0x0800050, fields := [.wo 31 31, .rw 27 24, .rw 21 16, .rw 11 10, .rw 9 0] },
  { name := "XGM_KEY_CMD_STATUS", base := 0x0800054, fields := [.ro 30 30, .ro 29 29, .ro 3 0] },
  { name := "XGM_KEY_RESULT", base := 0x0800058, fields := [.ro 31 31, .ro 30 30, .ro 29 28, .ro 27 22, .ro 15 12, .ro 9 0] },
  { name := "XGM_KEY_LEVEL", base := 0x080005C, fields := [.ro 10 0] },
  { name := "XGM_REASM_LEVEL", base := 0x0800060, fields := [.ro 15 0] },
  { name := "XGM_LAST_SPOOF", base := 0x0800064, fields := [.ro 31 31, .ro 27 22, .ro 21 21, .ro 9 0] },
  { name := "XGM_LAST_SPOOF_ID", base := 0x0800068, fields := [.ro 15 0] },
  { name := "XGM_REASM_FULL", base := 0x080006C, fields := [.rc 31 0] },
  { name := "XGM_DS_FRAMES", base := 0x0800400, dims := [(0x40, 96)], fields := [.rc 31 0] },
  { name := "XGM_DS_FRAGS", base := 0x0800404, dims := [(0x40, 96)], fields := [.rc 31 0] },
  { name := "XGM_DS_NOBIND", base := 0x0800408, dims := [(0x40, 96)], fields := [.rc 31 0] },
  { name := "XGM_DS_NOKEY", base := 0x080040C, dims := [(0x40, 96)], fields := [.rc 31 0] },
  { name := "XGM_US_FRAMES", base := 0x0800410, dims := [(0x40, 96)], fields := [.rc 31 0] },
  { name := "XGM_US_HEC_ERR", base := 0x0800414, dims := [(0x40, 96)], fields := [.rc 31 0] },
  { name := "XGM_US_SPOOF", base := 0x0800418, dims := [(0x40, 96)], fields := [.rc 31 0] },
  { name := "XGM_US_KEY_ERR", base := 0x080041C, dims := [(0x40, 96)], fields := [.rc 31 0] },
  { name := "XGM_US_ERRORED", base := 0x0800420, dims := [(0x40, 96)], fields := [.rc 31 0] },
  { name := "XGM_US_FCS_ERR", base := 0x0800424, dims := [(0x40, 96)], fields := [.rc 31 0] },
  { name := "XGM_US_REASM_DROP", base := 0x0800428, dims := [(0x40, 96)], fields := [.rc 31 0] },
  { name := "XGM_KEYSW_SKIP", base := 0x080042C, dims := [(0x40, 96)], fields := [.rc 31 0] }]

/-- The CMP_ window (chapter 09). -/
def regsCmp : List RegD := [
  { name := "CMP_CTRL", base := 0x0900000, fields := [.rw 31 31, .rw 1 0] },
  { name := "CMP_COMMIT", base := 0x0900008, fields := commitFields },
  { name := "CMP_EPOCH_STATUS", base := 0x090000C, fields := [.ro 31 31, .ro 23 16, .ro 15 0] },
  { name := "CMP_BEARING_SEED", base := 0x0900010, fields := [.rw 31 0] },
  { name := "CMP_BEARING_EXP", base := 0x0900014, reset := k 0x0000001F, fields := [.rw 31 31, .rw 30 30, .rw 7 0] },
  { name := "CMP_TBL_SEL", base := 0x0900040, fields := [.wo 31 31, .wo 30 30, .rw 29 29, .rw 28 21, .rw 20 0] },
  { name := "CMP_TBL_PIPE", base := 0x0900044, reset := k 0x00000010, fields := [.rw 4 4, .rw 3 0] },
  { name := "CMP_TBL_INFO", base := 0x0900048, fields := [.ro 31 31, .ro 30 28, .ro 20 0] },
  { name := "CMP_TBL_DATA", base := 0x0900080, dims := [(0x4, 16)], fields := [.rw 31 0] },
  { name := "CMP_PARSE_VAL", base := 0x0900100, dims := [(0x4, 64)], fields := [.rw 31 0] },
  { name := "CMP_MIRROR_W0", base := 0x0900200, dims := [(0x10, 16)], fields := [.rw 31 31, .rw 29 20, .rw 18 12, .rw 10 8] },
  { name := "CMP_MIRROR_W1", base := 0x0900204, dims := [(0x10, 16)], fields := [.rw 13 0] },
  { name := "CMP_MIRROR_W2", base := 0x0900208, dims := [(0x10, 16)], fields := [.rw 18 0] },
  { name := "CMP_PORT_DEF_W0", base := 0x0901000, dims := [(0x10, 75)], fields := [.rw 31 30, .rw 29 28, .rw 27 26, .rw 24 24, .rw 19 16, .rw 5 0] },
  { name := "CMP_PORT_DEF_W1", base := 0x0901004, dims := [(0x10, 75)], fields := [.rw 31 22, .rw 21 15, .rw 14 12] },
  { name := "CMP_PORT_DEF_W2", base := 0x0901008, dims := [(0x10, 75)], fields := [.rw 18 0] },
  { name := "CMP_DEF_NOMATCH", base := 0x0902000, dims := [(0x10, 75)], fields := [.rc 31 0] },
  { name := "CMP_DEF_PARSEFAIL", base := 0x0902004, dims := [(0x10, 75)], fields := [.rc 31 0] },
  { name := "CMP_DEF_RESERVED", base := 0x0902008, dims := [(0x10, 75)], fields := [.rc 31 0] },
  { name := "CMP_ING_OVERRUN", base := 0x0903000, dims := [(0x40, 9)], fields := [.rc 31 0] },
  { name := "CMP_PASSES", base := 0x0903004, dims := [(0x40, 9)], fields := [.rc 31 0] },
  { name := "CMP_RECIRC", base := 0x0903008, dims := [(0x40, 9)], fields := [.rc 31 0] },
  { name := "CMP_RECIRC_LIMIT", base := 0x090300C, dims := [(0x40, 9)], fields := [.rc 31 0] },
  { name := "CMP_EDIT_ERR", base := 0x0903010, dims := [(0x40, 9)], fields := [.rc 31 0] },
  { name := "CMP_PARSE_FAIL", base := 0x0903014, dims := [(0x40, 9)], fields := [.rc 31 0] }]

/-- The SXT_ window, part 1 (chapter 10). -/
def regsSxt1 : List RegD := [
  { name := "SXT_CTRL", base := 0x0A00000, fields := [.rw 31 31, .rw 9 8] },
  { name := "SXT_EXP_CFG", base := 0x0A00004, reset := k 0x012C4000, fields := [.rw 31 16, .rw 14 8, .rw 7 0] },
  { name := "SXT_MOVE_LIMIT", base := 0x0A00008, reset := k 4, fields := [.rw 3 0] },
  { name := "SXT_INFO", base := 0x0A0000C, fields := [.ro 31 31, .ro 22 0] },
  { name := "SXT_EM_STATUS", base := 0x0A00010, fields := [.ro 31 31, .ro 30 30, .ro 22 0] },
  { name := "SXT_EM_SEED", base := 0x0A00014, fields := [.ro 31 0] },
  { name := "SXT_EM_SEED_NEXT", base := 0x0A00018, fields := [.rw 31 0] },
  { name := "SXT_LPM_STATUS", base := 0x0A0001C, fields := [.ro 31 31, .ro 30 30] },
  { name := "SXT_LPM_SEED", base := 0x0A00020, fields := [.ro 31 0] },
  { name := "SXT_LPM_SEED_NEXT", base := 0x0A00024, fields := [.rw 31 0] },
  { name := "SXT_DYN_COUNT", base := 0x0A00028, fields := [.ro 20 0] },
  { name := "SXT_CMD", base := 0x0A00040, fields := [.wo 31 31, .rw 27 24, .rw 7 0] },
  { name := "SXT_CMD_INDEX", base := 0x0A00044, fields := [.rw 19 0] },
  { name := "SXT_CMD_DATA", base := 0x0A00050, dims := [(0x4, 8)], fields := [.rw 31 0] },
  { name := "SXT_CMD_STATUS", base := 0x0A00070, fields := [.ro 31 31, .ro 30 30, .ro 27 24, .ro 6 0] },
  { name := "SXT_LEARN_LEVEL", base := 0x0A00080, fields := [.ro 13 0] },
  { name := "SXT_NOTE_HDR", base := 0x0A00084, fields := [.ro 31 31, .ro 27 24, .ro 15 8, .ro 6 0] },
  { name := "SXT_NOTE_DATA", base := 0x0A00088, dims := [(0x4, 4)], fields := [.ro 31 0] },
  { name := "SXT_NOTE_LEVEL", base := 0x0A00098, fields := [.ro 14 0] },
  { name := "SXT_REHASH_OP_CTRL", base := 0x0A00100, fields := opCtrlFields },
  { name := "SXT_REHASH_OPSTAT", base := 0x0A00104, fields := opStatFields },
  { name := "SXT_REHASH_OP_PARTIAL", base := 0x0A00108, fields := [.ro 31 0] },
  { name := "SXT_TRIE_OP_CTRL", base := 0x0A00120, fields := opCtrlFields },
  { name := "SXT_TRIE_OPSTAT", base := 0x0A00124, fields := opStatFields },
  { name := "SXT_TRIE_OP_PARTIAL", base := 0x0A00128, fields := [.ro 31 0] },
  { name := "SXT_TRIE_ADDR_LO", base := 0x0A0012C, fields := [.rw 31 0], words := .part 0 2 },
  { name := "SXT_TRIE_ADDR_HI", base := 0x0A00130, fields := [.rw 31 0], words := .part 1 2 },
  { name := "SXT_TRIE_COUNT", base := 0x0A00134, fields := [.rw 20 0] },
  { name := "SXT_FIX_OP_CTRL", base := 0x0A00140, fields := opCtrlFields },
  { name := "SXT_FIX_OPSTAT", base := 0x0A00144, fields := opStatFields },
  { name := "SXT_FIX_OP_PARTIAL", base := 0x0A00148, dims := [(0x4, 4)], fields := [.ro 31 0] },
  { name := "SXT_FIX_ADDR_LO", base := 0x0A00160, fields := [.rw 31 0], words := .part 0 2 },
  { name := "SXT_FIX_ADDR_HI", base := 0x0A00164, fields := [.rw 31 0], words := .part 1 2 },
  { name := "SXT_FIX_BLOCKS", base := 0x0A00168, fields := [.rw 31 0] },
  { name := "SXT_FIX_START", base := 0x0A0016C, fields := [.rw 19 0] },
  { name := "SXT_FIX_LIST_LO", base := 0x0A00170, fields := [.rw 31 0], words := .part 0 2 },
  { name := "SXT_FIX_LIST_HI", base := 0x0A00174, fields := [.rw 31 0], words := .part 1 2 },
  { name := "SXT_FIX_LIST_MAX", base := 0x0A00178, fields := [.rw 31 0] },
  { name := "SXT_DMA_BASE_LO", base := 0x0A00200, fields := [.rw 31 0], words := .part 0 2 },
  { name := "SXT_DMA_BASE_HI", base := 0x0A00204, fields := [.rw 31 0], words := .part 1 2 }]

/-- The SXT_ window, part 2 (chapter 10). -/
def regsSxt2 : List RegD := [
  { name := "SXT_DMA_SIZE", base := 0x0A00208, fields := [.rw 31 0] },
  { name := "SXT_DMA_HEAD", base := 0x0A0020C, fields := [.ro 31 0] },
  { name := "SXT_DMA_TAIL", base := 0x0A00210, fields := [.rw 31 0] },
  { name := "SXT_DMA_STATUS", base := 0x0A00214, fields := [.ro 31 31] },
  { name := "SXT_INSERT_FAILS", base := 0x0A00300, fields := [.rc 31 0] },
  { name := "SXT_RELOCS", base := 0x0A00304, fields := [.rc 31 0] },
  { name := "SXT_LEARN_DROP", base := 0x0A00308, fields := [.rc 31 0] },
  { name := "SXT_LEARN_DUP", base := 0x0A0030C, fields := [.rc 31 0] },
  { name := "SXT_LEARN_FROZEN", base := 0x0A00310, fields := [.rc 31 0] },
  { name := "SXT_LEARN_LIMIT", base := 0x0A00314, fields := [.rc 31 0] },
  { name := "SXT_AGED", base := 0x0A00318, fields := [.rc 31 0] },
  { name := "SXT_NOTE_DROP", base := 0x0A0031C, fields := [.rc 31 0] },
  { name := "SXT_LPM_TRUNC", base := 0x0A00320, fields := [.rc 31 0] },
  { name := "SXT_NH_DROP", base := 0x0A00324, fields := [.rc 31 0] },
  { name := "SXT_TBL_INFO", base := 0x0A01000, dims := [(0x4, 256)], fields := [.ro 31 31, .ro 30 28, .ro 23 0] },
  { name := "SXT_TBL_CFG", base := 0x0A01400, dims := [(0x4, 256)], fields := [.rw 31 31, .rw 30 30, .rw 29 29, .rw 28 28, .rw 27 27] }]

/-- The SXT_ window (chapter 10). -/
def regsSxt : List RegD := regsSxt1 ++ regsSxt2

/-- The POOL_ window (chapter 11). -/
def regsPool : List RegD := [
  { name := "POOL_CTRL", base := 0x0B00000, reset := k 0x0C000400, fields := [.rw 31 31, .rw 28 16, .rw 12 0] },
  { name := "POOL_FREE_TOTAL", base := 0x0B00004, fields := [.ro 28 0] },
  { name := "POOL_QUEUED", base := 0x0B00008, fields := [.ro 28 0] },
  { name := "POOL_INFLIGHT", base := 0x0B0000C, fields := [.ro 28 0] },
  { name := "POOL_EXHAUST_DROP", base := 0x0B00010, fields := [.rc 31 0] },
  { name := "POOL_MC_QUEUE_LEVEL", base := 0x0B00014, fields := [.ro 16 0] },
  { name := "POOL_MC_QUEUE_DROP", base := 0x0B00018, fields := [.rc 31 0] },
  { name := "POOL_FREE_CNT", base := 0x0B00100, dims := [(0x4, 16)], fields := [.ro 24 0] },
  { name := "POOL_AUDIT_OP_CTRL", base := 0x0B00200, fields := opCtrlFields },
  { name := "POOL_AUDIT_OPSTAT", base := 0x0B00204, fields := opStatFields },
  { name := "POOL_AUDIT_OP_PARTIAL", base := 0x0B00208, dims := [(0x4, 4)], fields := [.ro 31 0] },
  { name := "POOL_AUDIT_RESULT", base := 0x0B00218, fields := [.ro 31 31, .ro 30 30, .ro 29 29] },
  { name := "POOL_SWEEP_OP_CTRL", base := 0x0B00220, fields := opCtrlFields },
  { name := "POOL_SWEEP_OPSTAT", base := 0x0B00224, fields := opStatFields },
  { name := "POOL_SWEEP_OP_PARTIAL", base := 0x0B00228, dims := [(0x4, 2)], fields := [.ro 31 0] }]

/-- The VOQ_ window (chapter 11). -/
def regsVoq : List RegD := [
  { name := "VOQ_CTRL", base := 0x0B80000, fields := [.rw 31 31, .rw 0 0] },
  { name := "VOQ_HOLD_CFG", base := 0x0B80004, reset := k 0x0000C350, fields := [.rw 19 0] },
  { name := "VOQ_EXP_CFG", base := 0x0B80008, reset := k 0x00640200, fields := [.rw 31 16, .rw 15 0] },
  { name := "VOQ_MAP_SEL", base := 0x0B80100, fields := [.wo 31 31, .wo 30 30, .rw 16 7, .rw 6 0] },
  { name := "VOQ_MAP_CFG", base := 0x0B80104, fields := [.rw 31 31, .rw 29 28, .rw 27 24, .rw 20 16, .rw 14 0] },
  { name := "VOQ_MAP_STATE", base := 0x0B80108, fields := [.ro 1 0] },
  { name := "VOQ_Q_SEL", base := 0x0B80140, fields := [.wo 31 31, .rw 17 0] },
  { name := "VOQ_Q_CELLS", base := 0x0B80144, fields := [.ro 28 0] },
  { name := "VOQ_Q_BALANCE", base := 0x0B80148, fields := [.ro 31 0] },
  { name := "VOQ_Q_ID", base := 0x0B8014C, fields := [.ro 31 31, .ro 29 20, .ro 18 12, .ro 10 8] },
  { name := "VOQ_NOMAP_DROP", base := 0x0B80300, fields := [.rc 31 0] },
  { name := "VOQ_ADMIT_DROP", base := 0x0B80304, fields := [.rc 31 0] },
  { name := "VOQ_DOWN_DROP", base := 0x0B80308, fields := [.rc 31 0] },
  { name := "VOQ_FLUSH_DROP", base := 0x0B8030C, fields := [.rc 31 0] },
  { name := "VOQ_CT_STARTS", base := 0x0B80310, fields := [.rc 31 0] },
  { name := "VOQ_CT_LEN_MISMATCH", base := 0x0B80314, fields := [.rc 31 0] },
  { name := "VOQ_CT_STOMP", base := 0x0B80318, fields := [.rc 31 0] },
  { name := "VOQ_CT_UNDERRUN", base := 0x0B8031C, fields := [.rc 31 0] },
  { name := "VOQ_EQ_BAD", base := 0x0B80320, fields := [.rc 31 0] },
  { name := "VOQ_MC_NOCOPY", base := 0x0B80400, dims := [(0x4, 128)], fields := [.rc 31 0] },
  { name := "VOQ_THR_W0", base := 0x0B80800, dims := [(0x10, 32)], fields := [.rw 28 0] },
  { name := "VOQ_THR_W1", base := 0x0B80804, dims := [(0x10, 32)], fields := [.rw 28 0] },
  { name := "VOQ_THR_W2", base := 0x0B80808, dims := [(0x10, 32)], fields := [.rw 28 0] },
  { name := "VOQ_PORT_CFG", base := 0x0B81000, dims := [(0x4, 75)], reset := k 0x0000C350, fields := [.rw 31 24, .rw 19 0] }]

/-- The ALM_ window (chapter 12). -/
def regsAlm : List RegD := [
  { name := "ALM_CTRL", base := 0x0C00000, reset := k 1, fields := [.rw 31 31, .rw 1 0] },
  { name := "ALM_EXP_CFG", base := 0x0C00004, reset := k 0x00C81000, fields := [.rw 31 16, .rw 15 0] },
  { name := "ALM_COMMIT", base := 0x0C00008, fields := commitFields },
  { name := "ALM_PROF_SEL", base := 0x0C00010, fields := [.wo 31 31, .wo 30 30, .rw 29 29, .ro 28 28, .rw 25 24, .rw 13 0] },
  { name := "ALM_PROF_DATA", base := 0x0C00020, dims := [(0x4, 10)], fields := [.rw 31 0] },
  { name := "ALM_NODE_SEL", base := 0x0C00060, fields := [.wo 31 31, .wo 30 30, .rw 22 20, .rw 18 0] },
  { name := "ALM_NODE_CFG0", base := 0x0C00064, fields := [.rw 31 31, .rw 30 28, .rw 27 20, .rw 18 0] },
  { name := "ALM_NODE_CFG1", base := 0x0C00068, fields := [.rw 29 16, .rw 7 0] },
  { name := "ALM_NODE_TOKENS", base := 0x0C0006C, fields := [.ro 31 0] },
  { name := "ALM_NODE_RANGE_LO", base := 0x0C00070, fields := [.ro 18 0] },
  { name := "ALM_NODE_RANGE_HI", base := 0x0C00074, fields := [.ro 18 0] },
  { name := "ALM_NODE_AVG", base := 0x0C00078, fields := [.ro 31 0] },
  { name := "ALM_POL_SEL", base := 0x0C00080, fields := [.wo 31 31, .wo 30 30, .rw 17 0] },
  { name := "ALM_POL_CFG", base := 0x0C00084, fields := [.rw 31 31, .rw 12 0] },
  { name := "ALM_POL_TOK_C", base := 0x0C00088, fields := [.ro 31 0] },
  { name := "ALM_POL_TOK_E", base := 0x0C0008C, fields := [.ro 31 0] },
  { name := "ALM_GATE_ENT_SEL", base := 0x0C00100, fields := [.wo 31 31, .wo 30 30, .rw 29 29, .rw 20 16, .rw 9 0] },
  { name := "ALM_GATE_ENT_GATES", base := 0x0C00104, fields := [.rw 7 0] },
  { name := "ALM_GATE_ENT_INTERVAL", base := 0x0C00108, fields := [.rw 29 0] },
  { name := "ALM_TAIL_DROP", base := 0x0C00200, fields := [.rc 31 0] },
  { name := "ALM_WRED_DROP", base := 0x0C00204, fields := [.rc 31 0] },
  { name := "ALM_POL_RED_DROP", base := 0x0C00208, fields := [.rc 31 0] },
  { name := "ALM_CREDIT_LOST", base := 0x0C0020C, fields := [.rc 31 0] },
  { name := "ALM_WHEEL_PARK", base := 0x0C00210, fields := [.rc 31 0] },
  { name := "ALM_NET_CLASS", base := 0x0C00800, dims := [(0x4, 192)], fields := [.rw 31 31, .rw 18 0] },
  { name := "ALM_PON_CREDIT", base := 0x0C00C00, dims := [(0x4, 48)], reset := k 0x00002000, fields := [.rw 23 0] },
  { name := "ALM_GATE_CFG", base := 0x0C01000, dims := [(0x40, 24)], reset := k 0x05F20000, fields := [.rw 31 31, .rw 30 30, .rw 29 16, .rw 7 4] },
  { name := "ALM_GATE_ADMIN_BASE_NS", base := 0x0C01004, dims := [(0x40, 24)], fields := [.rw 29 0] },
  { name := "ALM_GATE_ADMIN_BASE_SEC_LO", base := 0x0C01008, dims := [(0x40, 24)], fields := [.rw 31 0], words := .part 0 2 },
  { name := "ALM_GATE_ADMIN_BASE_SEC_HI", base := 0x0C0100C, dims := [(0x40, 24)], fields := [.rw 15 0], words := .part 1 2 },
  { name := "ALM_GATE_ADMIN_CYCLE_NS", base := 0x0C01010, dims := [(0x40, 24)], fields := [.rw 29 0] },
  { name := "ALM_GATE_ADMIN_LEN", base := 0x0C01014, dims := [(0x40, 24)], fields := [.rw 10 0] },
  { name := "ALM_GATE_CTRL", base := 0x0C0101C, dims := [(0x40, 24)], fields := [.wo 31 31] },
  { name := "ALM_GATE_STATUS", base := 0x0C01020, dims := [(0x40, 24)], fields := [.ro 31 31, .ro 30 30, .w1c 29 29, .w1c 28 28, .ro 18 8, .ro 7 0] },
  { name := "ALM_GATE_LATE_START", base := 0x0C01024, dims := [(0x40, 24)], fields := [.ro 31 8, .w1c 0 0] },
  { name := "ALM_GATE_T0_NS", base := 0x0C01028, dims := [(0x40, 24)], fields := [.ro 31 0], words := .part 0 3 },
  { name := "ALM_GATE_T0_SEC_LO", base := 0x0C0102C, dims := [(0x40, 24)], fields := [.ro 31 0], words := .part 1 3 },
  { name := "ALM_GATE_T0_SEC_HI", base := 0x0C01030, dims := [(0x40, 24)], fields := [.ro 31 0], words := .part 2 3 },
  { name := "ALM_GATE_OPER_CYCLE_NS", base := 0x0C01034, dims := [(0x40, 24)], fields := [.ro 31 0] },
  { name := "ALM_GATE_OVERSIZE_DROP", base := 0x0C0103C, dims := [(0x40, 24)], fields := [.rc 31 0] }]

/-- The RHB_ window (chapter 13). -/
def regsRhb : List RegD := [
  { name := "RHB_CTRL", base := 0x0D00000, fields := [.rw 31 31, .w1c 30 30, .rw 16 16, .rw 9 0] },
  { name := "RHB_EXP_CFG", base := 0x0D00004, reset := k 0x7714640A, fields := [.rw 31 28, .rw 27 24, .rw 23 16, .rw 15 8, .rw 7 0] },
  { name := "RHB_STATUS", base := 0x0D00008, fields := [.ro 31 31, .ro 15 0] },
  { name := "RHB_GRP_CFG", base := 0x0D00100, dims := [(0x20, 16)], reset := k 0x00010000, fields := [.rw 31 31, .rw 30 30, .rw 21 16] },
  { name := "RHB_GRP_LANES", base := 0x0D00104, dims := [(0x20, 16)], fields := [.ro 21 16, .ro 5 0] },
  { name := "RHB_GRP_STATUS", base := 0x0D00108, dims := [(0x20, 16)], fields := [.ro 31 30, .ro 25 16, .ro 15 12, .ro 5 0] },
  { name := "RHB_GRP_RX_OK", base := 0x0D0010C, dims := [(0x20, 16)], fields := [.ro 31 0] },
  { name := "RHB_GRP_ACTIVE", base := 0x0D00110, dims := [(0x20, 16)], fields := [.ro 31 0] },
  { name := "RHB_GRP_SKEW", base := 0x0D00114, dims := [(0x20, 16)], fields := [.ro 9 0] },
  { name := "RHB_GRP_LANE_EN", base := 0x0D00118, dims := [(0x20, 16)], reset := k 0xFFFFFFFF, fields := [.rw 31 0] },
  { name := "RHB_LANE_STATUS", base := 0x0D00400, dims := [(0x10, 64)], fields := [.ro 31 30, .ro 29 29, .ro 28 28, .ro 27 27, .ro 26 26, .ro 25 25, .ro 20 16, .ro 3 0] },
  { name := "RHB_LANE_FEC_CORR", base := 0x0D00404, dims := [(0x10, 64)], fields := [.rc 31 0] },
  { name := "RHB_LANE_FEC_UNCORR", base := 0x0D00408, dims := [(0x10, 64)], fields := [.rc 31 0] },
  { name := "RHB_LANE_HCS_ERR", base := 0x0D0040C, dims := [(0x10, 64)], fields := [.rc 31 0] },
  { name := "RHB_LABEL_BAD", base := 0x0D00800, fields := [.rc 31 0] },
  { name := "RHB_MISROUTE", base := 0x0D00804, fields := [.rc 31 0] },
  { name := "RHB_MODE_DROP", base := 0x0D00808, fields := [.rc 31 0] },
  { name := "RHB_NOREACH_DROP", base := 0x0D0080C, fields := [.rc 31 0] },
  { name := "RHB_SEQ_GAP", base := 0x0D00810, fields := [.rc 31 0] },
  { name := "RHB_REASM_DROP", base := 0x0D00814, fields := [.rc 31 0] },
  { name := "RHB_RESEQ_LOSS", base := 0x0D00818, fields := [.rc 31 0] },
  { name := "RHB_RESEQ_DISCARD", base := 0x0D0081C, fields := [.rc 31 0] },
  { name := "RHB_UNCHARGED", base := 0x0D00820, fields := [.rc 31 0] },
  { name := "RHB_REACH", base := 0x0D01000, dims := [(0x4, 1024)], fields := [.rw 15 0] }]

/-- The NET_ window (chapter 14). -/
def regsNet : List RegD := [
  { name := "NET_CTRL", base := 0x0E00000, fields := [.rw 31 31] },
  { name := "NET_PORT_CFG", base := 0x0E01000, dims := [(0x1000, 26)], reset := k 0x400A05F2, fields := [.rw 31 31, .rw 30 30, .w1s 29 29, .rw 27 24, .rw 23 16, .rw 13 0] },
  { name := "NET_PERSONALITY", base := 0x0E01004, dims := [(0x1000, 26)], fields := [.ro 2 0] },
  { name := "NET_PORT_STATUS", base := 0x0E01008, dims := [(0x1000, 26)], reset := k 0x01000000, fields := [.ro 31 31, .ro 30 30, .ro 29 29, .ro 28 28, .ro 27 27, .ro 26 24, .ro 19 16] },
  { name := "NET_FC_CFG", base := 0x0E01010, dims := [(0x1000, 26)], reset := k 0x0000FFFF, fields := [.rw 31 30, .rw 26 24, .rw 23 16, .rw 15 0] },
  { name := "NET_FC_LOSSY", base := 0x0E01018, dims := [(0x1000, 26)], fields := [.rw 15 0] },
  { name := "NET_PFC_THR", base := 0x0E01020, dims := [(0x1000, 26), (0x4, 8)], fields := [.rw 31 16, .rw 15 0] },
  { name := "NET_SEC_CFG", base := 0x0E01100, dims := [(0x1000, 26)], fields := [.rw 31 31, .rw 30 30, .rw 29 28, .rw 27 27, .rw 25 24, .rw 21 20, .rw 19 19] },
  { name := "NET_SEC_REPLAY_WIN", base := 0x0E01104, dims := [(0x1000, 26)], fields := [.rw 31 0] },
  { name := "NET_SEC_TX_SCI_LO", base := 0x0E01108, dims := [(0x1000, 26)], fields := [.rw 31 0], words := .part 0 2 },
  { name := "NET_SEC_TX_SCI_HI", base := 0x0E0110C, dims := [(0x1000, 26)], fields := [.rw 31 0], words := .part 1 2 },
  { name := "NET_SEC_SA_SEL", base := 0x0E01110, dims := [(0x1000, 26)], fields := [.wo 31 31, .wo 30 30, .wo 29 29, .rw 28 28, .rw 21 16, .rw 1 0] },
  { name := "NET_SEC_SA_KEY", base := 0x0E01120, dims := [(0x1000, 26), (0x4, 8)], fields := [.wo 31 0] },
  { name := "NET_SEC_SA_SALT", base := 0x0E01140, dims := [(0x1000, 26), (0x4, 3)], fields := [.wo 31 0] },
  { name := "NET_SEC_SA_SSCI", base := 0x0E0114C, dims := [(0x1000, 26)], fields := [.wo 31 0] },
  { name := "NET_SEC_SA_PN_LO", base := 0x0E01150, dims := [(0x1000, 26)], fields := [.rw 31 0], words := .part 0 2 },
  { name := "NET_SEC_SA_PN_HI", base := 0x0E01154, dims := [(0x1000, 26)], fields := [.rw 31 0], words := .part 1 2 },
  { name := "NET_SEC_SA_INFO", base := 0x0E01158, dims := [(0x1000, 26)], fields := [.ro 31 31, .ro 30 30] },
  { name := "NET_SEC_PN_THRESH", base := 0x0E0115C, dims := [(0x1000, 26)], reset := k 0xFFFF0000, fields := [.rw 31 0] },
  { name := "NET_SEC_RXSC_SCI_LO", base := 0x0E01160, dims := [(0x1000, 26)], fields := [.rw 31 0], words := .part 0 2 },
  { name := "NET_SEC_RXSC_SCI_HI", base := 0x0E01164, dims := [(0x1000, 26)], fields := [.rw 31 0], words := .part 1 2 },
  { name := "NET_SEC_RXSC_CTRL", base := 0x0E01168, dims := [(0x1000, 26)], fields := [.wo 31 31, .rw 30 30, .rw 5 0] },
  { name := "NET_RX_FRAMES", base := 0x0E01200, dims := [(0x1000, 26)], fields := [.rc 31 0] },
  { name := "NET_TX_FRAMES", base := 0x0E01204, dims := [(0x1000, 26)], fields := [.rc 31 0] },
  { name := "NET_RX_RUNT", base := 0x0E01208, dims := [(0x1000, 26)], fields := [.rc 31 0] },
  { name := "NET_RX_OVERSIZE", base := 0x0E0120C, dims := [(0x1000, 26)], fields := [.rc 31 0] },
  { name := "NET_RX_FCS_ERR", base := 0x0E01210, dims := [(0x1000, 26)], fields := [.rc 31 0] },
  { name := "NET_FEC_CORR", base := 0x0E01214, dims := [(0x1000, 26)], fields := [.rc 31 0] },
  { name := "NET_FEC_UNCORR", base := 0x0E01218, dims := [(0x1000, 26)], fields := [.rc 31 0] },
  { name := "NET_FC_RX", base := 0x0E0121C, dims := [(0x1000, 26)], fields := [.rc 31 0] },
  { name := "NET_FC_TX", base := 0x0E01220, dims := [(0x1000, 26)], fields := [.rc 31 0] },
  { name := "NET_LINK_DOWNS", base := 0x0E01224, dims := [(0x1000, 26)], fields := [.rc 31 0] },
  { name := "NET_SEC_RX_UNTAGGED", base := 0x0E01228, dims := [(0x1000, 26)], fields := [.rc 31 0] },
  { name := "NET_SEC_RX_NOSA", base := 0x0E0122C, dims := [(0x1000, 26)], fields := [.rc 31 0] },
  { name := "NET_SEC_RX_LATE", base := 0x0E01230, dims := [(0x1000, 26)], fields := [.rc 31 0] },
  { name := "NET_SEC_RX_BADICV", base := 0x0E01234, dims := [(0x1000, 26)], fields := [.rc 31 0] },
  { name := "NET_SEC_TX_PN_EXH", base := 0x0E01238, dims := [(0x1000, 26)], fields := [.rc 31 0] }]

/-- The LHT_ window (chapter 15). -/
def regsLht : List RegD := [
  { name := "LHT_CTRL", base := 0x0F00000, reset := k 0x00000306, fields := [.rw 31 31, .rw 11 8, .rw 2 2, .rw 1 1, .rw 0 0] },
  { name := "LHT_EXP_CFG", base := 0x0F00004, reset := k 0x10100232, fields := [.rw 31 24, .rw 23 16, .rw 15 8, .rw 7 0] },
  { name := "LHT_PAIR_ID", base := 0x0F00008, fields := [.rw 31 0] },
  { name := "LHT_PEER_DEV", base := 0x0F0000C, fields := [.rw 9 0] },
  { name := "LHT_STATUS", base := 0x0F00010, fields := [.ro 31 31, .ro 30 30, .ro 29 29, .ro 28 28, .ro 27 27, .ro 26 26, .ro 25 25, .ro 24 24, .ro 23 23, .ro 19 16, .ro 11 4, .ro 0 0] },
  { name := "LHT_HEALTH_LOCAL", base := 0x0F00014, fields := [.ro 31 31, .ro 30 30, .ro 29 29, .ro 28 28, .ro 27 27, .ro 26 26, .ro 21 16, .ro 15 0] },
  { name := "LHT_HEALTH_PEER", base := 0x0F00018, fields := [.ro 31 0] },
  { name := "LHT_SNAP_GEN", base := 0x0F0001C, fields := [.ro 31 0] },
  { name := "LHT_INC_SEQ", base := 0x0F00020, fields := [.ro 31 0] },
  { name := "LHT_MAC_SA_LO", base := 0x0F00024, fields := [.rw 31 0], words := .part 0 2 },
  { name := "LHT_MAC_SA_HI", base := 0x0F00028, fields := [.rw 15 0], words := .part 1 2 },
  { name := "LHT_MAC_DA_LO", base := 0x0F0002C, fields := [.rw 31 0], words := .part 0 2 },
  { name := "LHT_MAC_DA_HI", base := 0x0F00030, fields := [.rw 15 0], words := .part 1 2 },
  { name := "LHT_SYNC_OP_CTRL", base := 0x0F00040, fields := opCtrlFields },
  { name := "LHT_SYNC_OPSTAT", base := 0x0F00044, fields := opStatFields },
  { name := "LHT_HB_RX_LH", base := 0x0F00200, fields := [.rc 31 0] },
  { name := "LHT_HB_RX_RHB", base := 0x0F00204, fields := [.rc 31 0] },
  { name := "LHT_HB_BAD", base := 0x0F00208, fields := [.rc 31 0] },
  { name := "LHT_INC_GAP", base := 0x0F0020C, fields := [.rc 31 0] },
  { name := "LHT_MAP_LATE", base := 0x0F00210, fields := [.rc 31 0] },
  { name := "LHT_TAKEOVERS", base := 0x0F00214, fields := [.rc 31 0] },
  { name := "LHT_SYNC_OP_PARTIAL", base := 0x0F00048, dims := [(0x4, 2)], fields := [.ro 31 0] },
  { name := "LHT_PRE_PORT_W0", base := 0x0F00100, dims := [(0x8, 48)], fields := [.ro 23 0] },
  { name := "LHT_PRE_PORT_W1", base := 0x0F00104, dims := [(0x8, 48)], fields := [.ro 31 31, .ro 25 16, .ro 9 0] }]

/-- The MER_ window (chapter 16). -/
def regsMer : List RegD := [
  { name := "MER_CTRL", base := 0x1000000, fields := [.rw 31 31, .rw 16 16, .rw 7 0] },
  { name := "MER_EXP_CFG", base := 0x1000004, reset := k 0x30A300C8, fields := [.rw 31 28, .rw 27 20, .rw 19 16, .rw 15 0] },
  { name := "MER_STATUS", base := 0x1000008, fields := [.ro 31 30, .ro 27 26, .ro 25 16, .ro 15 15, .ro 9 0] },
  { name := "MER_GROUP", base := 0x100000C, fields := [.rw 3 0] },
  { name := "MER_MGMT_DA_LO", base := 0x1000010, fields := [.rw 31 0], words := .part 0 2 },
  { name := "MER_MGMT_DA_HI", base := 0x1000014, fields := [.rw 15 0], words := .part 1 2 },
  { name := "MER_MGMT_SA_LO", base := 0x1000018, fields := [.rw 31 0], words := .part 0 2 },
  { name := "MER_MGMT_SA_HI", base := 0x100001C, fields := [.rw 15 0], words := .part 1 2 },
  { name := "MER_FAN_CMD", base := 0x1000140, fields := [.wo 31 31, .rw 30 30, .rw 29 29, .rw 28 27, .rw 26 24, .rw 23 16, .rw 15 8] },
  { name := "MER_FAN_DEST", base := 0x1000144, fields := [.rw 24 16, .rw 9 0] },
  { name := "MER_FAN_STATUS", base := 0x1000148, fields := [.ro 31 31, .ro 30 30, .ro 27 24, .ro 8 0] },
  { name := "MER_FAN_DONE", base := 0x100014C, fields := [.ro 31 0] },
  { name := "MER_TGT_RESUME", base := 0x1000150, fields := [.wo 31 31, .wo 9 0] },
  { name := "MER_TIME_CFG", base := 0x1000200, fields := [.rw 31 31, .rw 23 16, .rw 15 0] },
  { name := "MER_EVT_FWD_LO", base := 0x1000300, fields := [.rw 31 0] },
  { name := "MER_EVT_FWD_HI", base := 0x1000304, fields := [.rw 7 0] },
  { name := "MER_COLL_ADDR_LO", base := 0x1000420, fields := [.rw 31 0], words := .part 0 2 },
  { name := "MER_COLL_ADDR_HI", base := 0x1000424, fields := [.rw 31 0], words := .part 1 2 },
  { name := "MER_COLL_CMD", base := 0x1000428, fields := [.wo 31 31, .rw 28 27, .rw 26 24, .rw 23 8] },
  { name := "MER_COLL_STATUS", base := 0x100042C, fields := [.ro 31 31, .ro 30 30, .ro 15 0] },
  { name := "MER_MSG_BAD", base := 0x1000500, fields := [.rc 31 0] },
  { name := "MER_RETX", base := 0x1000504, fields := [.rc 31 0] },
  { name := "MER_UNREACHED", base := 0x1000508, fields := [.rc 31 0] },
  { name := "MER_FAN_REFUSED", base := 0x100050C, fields := [.rc 31 0] },
  { name := "MER_EVT_LOST", base := 0x1000510, fields := [.rc 31 0] },
  { name := "MER_FAN_WR_OFF", base := 0x1000100, dims := [(0x8, 8)], fields := [.rw 27 2] },
  { name := "MER_FAN_WR_VAL", base := 0x1000104, dims := [(0x8, 8)], fields := [.rw 31 0] },
  { name := "MER_TIME_RES", base := 0x1000240, dims := [(0x10, 16), (0x4, 4)], fields := [.ro 31 0], words := .along 4 },
  { name := "MER_COLL_OFF", base := 0x1000400, dims := [(0x4, 8)], fields := [.rw 27 2] },
  { name := "MER_TGT", base := 0x1001000, dims := [(0x4, 1024)], fields := [.ro 31 30, .ro 29 29, .ro 28 28, .ro 15 0] },
  { name := "MER_WP_RESULT_W0", base := 0x1002000, dims := [(0x8, 1024)], fields := [.ro 31 31, .ro 29 28, .ro 8 0] },
  { name := "MER_WP_RESULT_W1", base := 0x1002004, dims := [(0x8, 1024)], fields := [.ro 31 0] }]

/-- The CHK_ window, part 1 (chapter 17). -/
def regsChk1 : List RegD := [
  { name := "CHK_CTRL", base := 0x1100000, reset := k 0x400003E8, fields := [.rw 31 31, .rw 30 30, .rw 15 0] },
  { name := "CHK_ERR_HDR", base := 0x1100010, fields := [.ro 31 31, .ro 30 30, .ro 27 24, .ro 21 16, .ro 11 0] },
  { name := "CHK_ERR_ADDR_LO", base := 0x1100014, fields := [.ro 31 0], words := .part 0 2 },
  { name := "CHK_ERR_ADDR_HI", base := 0x1100018, fields := [.ro 31 0], words := .part 1 2 },
  { name := "CHK_ERR_TS", base := 0x110001C, fields := [.ro 31 0] },
  { name := "CHK_ERR_LEVEL", base := 0x1100020, fields := [.ro 10 0] },
  { name := "CHK_ERR_DROP", base := 0x1100024, fields := [.rc 31 0] },
  { name := "CHK_HBM_FRAME_DROP", base := 0x1100028, fields := [.rc 31 0] },
  { name := "CHK_Q_LOST", base := 0x110002C, fields := [.rc 31 0] },
  { name := "CHK_INJ", base := 0x1100040, fields := [.wo 31 31, .ro 30 30, .rw 27 24, .rw 4 0] },
  { name := "CHK_MEM_CORR", base := 0x1100080, dims := [(0x8, 10)], fields := [.rc 31 0] },
  { name := "CHK_MEM_UNCORR", base := 0x1100084, dims := [(0x8, 10)], fields := [.rc 31 0] },
  { name := "CHK_SRAM_REGION_W0", base := 0x1100200, dims := [(0x8, 6)], fields := [.ro 31 0] },
  { name := "CHK_SRAM_REGION_W1", base := 0x1100204, dims := [(0x8, 6)], fields := [.ro 31 0] },
  { name := "CHK_UNIT_CFG", base := 0x1101000, dims := [(0x100, 8)], reset := k 0x20000003, fields := [.rw 30 24, .rw 17 16, .rw 13 12, .rw 8 8, .rw 1 1, .rw 0 0] },
  { name := "CHK_UNIT_POLY_LO", base := 0x1101008, dims := [(0x100, 8)], reset := k 0x04C11DB7, fields := [.rw 31 0], words := .part 0 2 },
  { name := "CHK_UNIT_POLY_HI", base := 0x110100C, dims := [(0x100, 8)], fields := [.rw 31 0], words := .part 1 2 },
  { name := "CHK_UNIT_INIT_LO", base := 0x1101010, dims := [(0x100, 8)], reset := k 0xFFFFFFFF, fields := [.rw 31 0], words := .part 0 2 },
  { name := "CHK_UNIT_INIT_HI", base := 0x1101014, dims := [(0x100, 8)], fields := [.rw 31 0], words := .part 1 2 },
  { name := "CHK_UNIT_XOROUT_LO", base := 0x1101018, dims := [(0x100, 8)], reset := k 0xFFFFFFFF, fields := [.rw 31 0], words := .part 0 2 },
  { name := "CHK_UNIT_XOROUT_HI", base := 0x110101C, dims := [(0x100, 8)], fields := [.rw 31 0], words := .part 1 2 },
  { name := "CHK_UNIT_RUNNING_LO", base := 0x1101020, dims := [(0x100, 8)], fields := [.rw 31 0], words := .part 0 2 },
  { name := "CHK_UNIT_RUNNING_HI", base := 0x1101024, dims := [(0x100, 8)], fields := [.rw 31 0], words := .part 1 2 },
  { name := "CHK_UNIT_SEQ", base := 0x1101028, dims := [(0x100, 8)], fields := [.rw 31 0] },
  { name := "CHK_UNIT_FEED", base := 0x110102C, dims := [(0x100, 8)], fields := [.wo 31 0] },
  { name := "CHK_UNIT_FEED1", base := 0x1101030, dims := [(0x100, 8)], fields := [.wo 7 0] },
  { name := "CHK_UNIT_RESTART", base := 0x1101034, dims := [(0x100, 8)], fields := [.wo 31 31] },
  { name := "CHK_UNIT_RESULT_LO", base := 0x1101038, dims := [(0x100, 8)], fields := [.ro 31 0], words := .part 0 2 },
  { name := "CHK_UNIT_RESULT_HI", base := 0x110103C, dims := [(0x100, 8)], fields := [.ro 31 0], words := .part 1 2 },
  { name := "CHK_UNIT_EXPECT_LO", base := 0x1101040, dims := [(0x100, 8)], fields := [.rw 31 0], words := .part 0 2 },
  { name := "CHK_UNIT_EXPECT_HI", base := 0x1101044, dims := [(0x100, 8)], fields := [.rw 31 0], words := .part 1 2 },
  { name := "CHK_UNIT_BYTES_LO", base := 0x1101048, dims := [(0x100, 8)], fields := [.ro 31 0], words := .part 0 2 },
  { name := "CHK_UNIT_BYTES_HI", base := 0x110104C, dims := [(0x100, 8)], fields := [.ro 31 0], words := .part 1 2 },
  { name := "CHK_UNIT_STATUS", base := 0x1101050, dims := [(0x100, 8)], fields := [.w1c 2 2, .ro 1 1, .ro 0 0] },
  { name := "CHK_SCAN_OP_CTRL", base := 0x1101060, dims := [(0x100, 8)], fields := opCtrlFields },
  { name := "CHK_SCAN_OPSTAT", base := 0x1101064, dims := [(0x100, 8)], fields := opStatFields },
  { name := "CHK_SCAN_OP_PARTIAL", base := 0x1101068, dims := [(0x100, 8), (0x4, 2)], fields := [.ro 31 0] },
  { name := "CHK_SCAN_ADDR_LO", base := 0x1101070, dims := [(0x100, 8)], fields := [.rw 31 0], words := .part 0 2 },
  { name := "CHK_SCAN_ADDR_HI", base := 0x1101074, dims := [(0x100, 8)], fields := [.rw 31 0], words := .part 1 2 },
  { name := "CHK_SCAN_LEN_LO", base := 0x1101078, dims := [(0x100, 8)], fields := [.rw 31 0], words := .part 0 2 }]

/-- The CHK_ window, part 2 (chapter 17). -/
def regsChk2 : List RegD := [
  { name := "CHK_SCAN_LEN_HI", base := 0x110107C, dims := [(0x100, 8)], fields := [.rw 31 0], words := .part 1 2 }]

/-- The CHK_ window (chapter 17). -/
def regsChk : List RegD := regsChk1 ++ regsChk2

/-- The EVT_ window (chapter 18). -/
def regsEvt : List RegD := [
  { name := "EVT_CTRL", base := 0x1200000, fields := [.rw 31 31, .rw 3 0] },
  { name := "EVT_SUMMARY_LO", base := 0x1200040, fields := [.ro 31 0] },
  { name := "EVT_SUMMARY_HI", base := 0x1200044, fields := [.ro 7 0] },
  { name := "EVT_VEC_ACK", base := 0x1200048, fields := [.wo 31 31, .wo 5 0] },
  { name := "EVT_VEC_PEND_LO", base := 0x120004C, fields := [.ro 31 0] },
  { name := "EVT_VEC_PEND_HI", base := 0x1200050, fields := [.ro 31 0] },
  { name := "EVT_RING_BASE_LO", base := 0x1200060, fields := [.rw 31 0], words := .part 0 2 },
  { name := "EVT_RING_BASE_HI", base := 0x1200064, fields := [.rw 31 0], words := .part 1 2 },
  { name := "EVT_RING_SIZE", base := 0x1200068, fields := [.rw 31 0] },
  { name := "EVT_RING_HEAD", base := 0x120006C, fields := [.ro 31 0] },
  { name := "EVT_RING_CONS", base := 0x1200070, fields := [.rw 31 0] },
  { name := "EVT_RING_CFG", base := 0x1200074, fields := [.rw 31 31, .rw 29 24, .rw 23 16, .rw 15 0] },
  { name := "EVT_BUF_LEVEL", base := 0x1200078, fields := [.ro 12 0] },
  { name := "EVT_BUF_DROP", base := 0x120007C, fields := [.rc 31 0] },
  { name := "EVT_STATUS", base := 0x1200100, dims := [(0x4, 40)], fields := [.w1c 31 0] },
  { name := "EVT_ENABLE", base := 0x1200200, dims := [(0x4, 40)], fields := [.rw 31 0] },
  { name := "EVT_ROUTE", base := 0x1200300, dims := [(0x4, 40)], fields := [.rw 31 31, .rw 30 30, .rw 5 0] },
  { name := "OBS_LOG_CTRL", base := 0x1201000, reset := k 0x00000064, fields := [.rw 31 31, .rw 30 30, .rw 29 24, .rw 15 0] },
  { name := "OBS_LOG_RING_BASE_LO", base := 0x1201004, fields := [.rw 31 0], words := .part 0 2 },
  { name := "OBS_LOG_RING_BASE_HI", base := 0x1201008, fields := [.rw 31 0], words := .part 1 2 },
  { name := "OBS_LOG_RING_SIZE", base := 0x120100C, fields := [.rw 31 0] },
  { name := "OBS_LOG_RING_HEAD", base := 0x1201010, fields := [.ro 31 0] },
  { name := "OBS_LOG_RING_TAIL", base := 0x1201014, fields := [.rw 31 0] },
  { name := "OBS_LOG_OVERRUN", base := 0x1201018, fields := [.rc 31 0] },
  { name := "OBS_LOG_NOBUF", base := 0x120101C, fields := [.rc 31 0] },
  { name := "OBS_LOG_SEQ", base := 0x1201020, fields := [.ro 31 0] },
  { name := "OBS_CNT_SEL", base := 0x1201100, fields := [.wo 31 31, .rw 30 30, .rw 20 0] },
  { name := "OBS_CNT_DATA", base := 0x1201104, dims := [(0x4, 4)], fields := [.ro 31 0] },
  { name := "OBS_THR_CFG", base := 0x1201200, dims := [(0x10, 16)], fields := [.rw 31 31, .rw 27 24, .rw 18 0] },
  { name := "OBS_THR_LEVEL", base := 0x1201204, dims := [(0x10, 16)], fields := [.rw 28 0] },
  { name := "OBS_THR_COUNT_LO", base := 0x1201208, dims := [(0x10, 16)], fields := [.ro 31 0], words := .part 0 2 },
  { name := "OBS_THR_COUNT_HI", base := 0x120120C, dims := [(0x10, 16)], fields := [.ro 31 0], words := .part 1 2 },
  { name := "OBS_SLOT_CLEAR", base := 0x12013F0, fields := [.wo 8 0] },
  { name := "OBS_SLOT", base := 0x1201400, dims := [(0x40, 9), (0x4, 11)], fields := [.ro 31 0], words := .along 11 },
  { name := "OBS_SAMPLE_CFG", base := 0x1201800, dims := [(0x10, 8)], fields := [.rw 31 31, .rw 30 30, .rw 29 29, .rw 21 16, .rw 6 0] },
  { name := "OBS_SAMPLE_N", base := 0x1201804, dims := [(0x10, 8)], fields := [.rw 23 0] },
  { name := "OBS_SAMPLE_COUNT", base := 0x1201808, dims := [(0x10, 8)], fields := [.ro 31 0] },
  { name := "OBS_SAMPLE_DROP", base := 0x120180C, dims := [(0x10, 8)], fields := [.rc 31 0] }]

/-- The SEC_ window (chapter 19). -/
def regsSec : List RegD := [
  { name := "SEC_CTRL", base := 0x1300000, reset := k 0x00000014, fields := [.rw 31 31, .rw 4 0] },
  { name := "SEC_STATUS", base := 0x1300004, fields := [.ro 31 31, .ro 30 30, .ro 29 29, .ro 28 28, .w1c 27 27, .ro 26 26, .ro 1 0] },
  { name := "SEC_DENIED", base := 0x1300008, fields := [.rc 31 0] },
  { name := "SEC_ERR_DROP", base := 0x130000C, fields := [.rc 31 0] },
  { name := "SEC_AUTH_CMD", base := 0x1300010, fields := [.wo 31 31, .wo 27 24, .wo 1 0] },
  { name := "SEC_AUTH_STATUS", base := 0x1300014, fields := [.ro 31 31, .ro 30 30, .ro 29 29, .ro 28 28, .ro 3 0] },
  { name := "SEC_PAIR_CTRL", base := 0x1300220, fields := [.wo 31 31, .wo 30 30, .ro 0 0] },
  { name := "SEC_PAIR_KCV", base := 0x1300224, fields := [.ro 31 0] },
  { name := "SEC_OTP_CFG", base := 0x1300300, reset := k 0, fields := [.ro 31 24, .ro 23 16, .ro 13 8, .ro 3 0] },
  { name := "SEC_OTP_PROG", base := 0x1300304, fields := [.wo 31 31, .rw 27 24, .rw 18 16, .rw 7 0] },
  { name := "SEC_OTP_PROG_STATUS", base := 0x1300308, fields := [.ro 31 31, .ro 30 30, .ro 29 29, .ro 3 0] },
  { name := "SEC_ZERO_OP_CTRL", base := 0x1300500, fields := opCtrlFields },
  { name := "SEC_ZERO_OPSTAT", base := 0x1300504, fields := opStatFields },
  { name := "SEC_ZERO_OP_PARTIAL", base := 0x1300508, fields := [.ro 1 1, .ro 0 0] },
  { name := "SEC_SELFTEST", base := 0x1300600, fields := [.ro 16 16, .ro 7 7, .ro 6 6, .ro 5 5, .ro 4 4, .ro 3 3, .ro 2 2, .ro 1 1, .ro 0 0] },
  { name := "SEC_AUTH_NONCE", base := 0x1300040, dims := [(0x4, 12)], fields := [.ro 31 0] },
  { name := "SEC_AUTH_DATA", base := 0x1300100, dims := [(0x4, 49)], fields := [.wo 31 0] },
  { name := "SEC_PAIR_KEY", base := 0x1300200, dims := [(0x4, 8)], fields := [.wo 31 0] },
  { name := "SEC_OTP_KEYHASH", base := 0x1300400, dims := [(0x40, 6), (0x4, 12)], reset := k 0, fields := [.ro 31 0] }]

/-- The rows of the block window that holds an address (Table 21.1). -/
def blockRegs (a : Nat) : List RegD :=
  if a < 0x0100000 then regsDev
  else if a < 0x0200000 then regsPwr
  else if a < 0x0300000 then regsTime
  else if a < 0x0600000 then regsPon
  else if a < 0x0700000 then regsAct
  else if a < 0x0800000 then regsDba
  else if a < 0x0900000 then regsXgm
  else if a < 0x0A00000 then regsCmp
  else if a < 0x0B00000 then regsSxt
  else if a < 0x0B80000 then regsPool
  else if a < 0x0C00000 then regsVoq
  else if a < 0x0D00000 then regsAlm
  else if a < 0x0E00000 then regsRhb
  else if a < 0x0F00000 then regsNet
  else if a < 0x1000000 then regsLht
  else if a < 0x1100000 then regsMer
  else if a < 0x1200000 then regsChk
  else if a < 0x1300000 then regsEvt
  else if a < 0x1400000 then regsSec
  else []

/-- The indices at which a row covers address `a`: (first index, second index), 0 for an index it does not have. -/
def RegD.covers (d : RegD) (a : Nat) : Option (Nat × Nat) :=
  match d.dims with
  | [] => if a = d.base then some (0, 0) else none
  | [(s, n)] =>
    if d.base ≤ a ∧ (a - d.base) % s = 0 ∧ (a - d.base) / s < n then some ((a - d.base) / s, 0) else none
  | (s, n) :: (s', n') :: _ =>
    if d.base ≤ a ∧ (a - d.base) / s < n ∧ (a - d.base) % s % s' = 0 ∧ (a - d.base) % s / s' < n' then
      some ((a - d.base) / s, (a - d.base) % s / s')
    else none

/-- The first row of a list that covers an address, with its indices. -/
def findReg : List RegD → Nat → Option (RegD × Nat × Nat)
  | [], _ => none
  | d :: ds, a =>
    match d.covers a with
    | some ij => some (d, ij)
    | none => findReg ds a

/-- The register at a BAR0 offset; none where the address is reserved (R8). -/
def regAt (a : Nat) : Option (RegD × Nat × Nat) := findReg (blockRegs a) a

/-- The value of a register at reset; 0 at a reserved address. -/
def resetOf (a : Nat) : Word :=
  match regAt a with
  | some (d, i, _) => BitVec.ofNat 32 (d.reset i)
  | none => 0

/-- The bits of the fields of a list that a test selects. -/
def fieldMask (p : FieldD → Option (Nat × Nat)) : List FieldD → Word
  | [] => 0
  | f :: fs =>
    match p f with
    | some (hi, lo) => mask hi lo ||| fieldMask p fs
    | none => fieldMask p fs

/-- The RW bits of a register. -/
def RegD.rwMask (d : RegD) : Word := fieldMask (fun | .rw hi lo => some (hi, lo) | _ => none) d.fields

/-- The W1C bits of a register. -/
def RegD.w1cMask (d : RegD) : Word := fieldMask (fun | .w1c hi lo => some (hi, lo) | _ => none) d.fields

/-- The W1S bits of a register. -/
def RegD.w1sMask (d : RegD) : Word := fieldMask (fun | .w1s hi lo => some (hi, lo) | _ => none) d.fields

/-- The RC bits of a register. -/
def RegD.rcMask (d : RegD) : Word := fieldMask (fun | .rc hi lo => some (hi, lo) | _ => none) d.fields

/-- The WO bits of a register. -/
def RegD.woMask (d : RegD) : Word := fieldMask (fun | .wo hi lo => some (hi, lo) | _ => none) d.fields

/-- A register's value after software writes `v` over `old`, by field type (R9, Table 00.5): RW takes the written bits,
W1C clears where 1 is written, W1S sets where 1 is written, RO, RC, WO and reserved bits stay (R7). -/
def RegD.written (d : RegD) (old v : Word) : Word :=
  (((old &&& ~~~d.rwMask) ||| (v &&& d.rwMask)) &&& ~~~(v &&& d.w1cMask)) ||| (v &&& d.w1sMask)

end Sys2Proof.Machine
end

