-- ==== Sys2Proof/Machine/RegNames.lean ====
section
/-!
DEFINITION. Machine/RegNames.lean: the BAR0 offset of every register of the manual, by the manual's name, with its
indices (R403, R404; each line cites the table that lays it out).
-/
namespace Sys2Proof.Machine

/-- DEV_ID (00 Table 00.1 R1). -/
abbrev Reg.devId : Nat := 0x0000000
/-- DEV_MODE (03 Table 03.1 R48). -/
abbrev Reg.devMode : Nat := 0x0000010
/-- DEV_MODE_CAUSE (03 Table 03.2). -/
abbrev Reg.devModeCause : Nat := 0x0000014
/-- DEV_SAFE_GRACE (03 Table 03.13 R67). -/
abbrev Reg.devSafeGrace : Nat := 0x0000018
/-- DEV_COMM_STATUS (03 Table 03.7 R56). -/
abbrev Reg.devCommStatus : Nat := 0x000001C
/-- DEV_RESET (03 Table 03.9 R59). -/
abbrev Reg.devReset : Nat := 0x0000020
/-- DEV_RESET_CAUSE (03 Table 03.10 R62). -/
abbrev Reg.devResetCause : Nat := 0x0000024
/-- DEV_BLK_RESET (03 Table 03.11 R63). -/
abbrev Reg.devBlkReset : Nat := 0x0000028
/-- DEV_IMG_ADDR_LO (02 Table 02.4). -/
abbrev Reg.devImgAddrLo : Nat := 0x0000100
/-- DEV_IMG_ADDR_HI (02 Table 02.4). -/
abbrev Reg.devImgAddrHi : Nat := 0x0000104
/-- DEV_IMG_LEN (02 Table 02.5). -/
abbrev Reg.devImgLen : Nat := 0x0000108
/-- DEV_IMG_OP_CTRL (02 Table 02.9 R40). -/
abbrev Reg.devImgOpCtrl : Nat := 0x0000110
/-- DEV_IMG_OPSTAT (02 Table 02.10 R40). -/
abbrev Reg.devImgOpstat : Nat := 0x0000114
/-- DEV_IMG_OP_PARTIAL (02 R30). -/
abbrev Reg.devImgOpPartial : Nat := 0x0000118
/-- DEV_IMG_ID_ACTIVE (02 R30). -/
abbrev Reg.devImgIdActive : Nat := 0x0000120
/-- DEV_SWAP_OP_CTRL (02 R34). -/
abbrev Reg.devSwapOpCtrl : Nat := 0x0000140
/-- DEV_SWAP_OPSTAT (02 R34). -/
abbrev Reg.devSwapOpstat : Nat := 0x0000144
/-- DEV_SWAP_OP_PARTIAL (02 R34). -/
abbrev Reg.devSwapOpPartial : Nat := 0x0000148
/-- DEV_BIST_OP_CTRL (03 R57). -/
abbrev Reg.devBistOpCtrl : Nat := 0x0000150
/-- DEV_BIST_OPSTAT (03 R57). -/
abbrev Reg.devBistOpstat : Nat := 0x0000154
/-- DEV_BIST_OP_PARTIAL (03 R57). -/
abbrev Reg.devBistOpPartial (i : Nat) : Nat := 0x0000158 + 0x4 * i
/-- DEV_PIPE_MAP (02 R31). -/
abbrev Reg.devPipeMap (i : Nat) : Nat := 0x0000180 + 0x4 * i
/-- DEV_PIPE_SPARE (02 R31). -/
abbrev Reg.devPipeSpare : Nat := 0x00001A0
/-- DEV_WIN_SEL (21 Table 21.4 R406). -/
abbrev Reg.devWinSel (i : Nat) : Nat := 0x0000200 + 0x10 * i
/-- DEV_WIN_BASE (21 Table 21.4 R406). -/
abbrev Reg.devWinBase (i : Nat) : Nat := 0x0000204 + 0x10 * i
/-- DEV_WIN_DROP (21 Table 21.4 R409). -/
abbrev Reg.devWinDrop (i : Nat) : Nat := 0x0000208 + 0x10 * i
/-- DEV_RING_PUNT_BASE_LO (02 Table 02.13). -/
abbrev Reg.devRingPuntBaseLo (i : Nat) : Nat := 0x0010000 + 0x40 * i
/-- DEV_RING_PUNT_BASE_HI (02 Table 02.13). -/
abbrev Reg.devRingPuntBaseHi (i : Nat) : Nat := 0x0010004 + 0x40 * i
/-- DEV_RING_PUNT_SIZE (02 Table 02.13). -/
abbrev Reg.devRingPuntSize (i : Nat) : Nat := 0x0010008 + 0x40 * i
/-- DEV_RING_PUNT_HEAD (02 Table 02.13). -/
abbrev Reg.devRingPuntHead (i : Nat) : Nat := 0x001000C + 0x40 * i
/-- DEV_RING_PUNT_TAIL (02 Table 02.13). -/
abbrev Reg.devRingPuntTail (i : Nat) : Nat := 0x0010010 + 0x40 * i
/-- DEV_RING_PUNT_DROP (02 Table 02.13). -/
abbrev Reg.devRingPuntDrop (i : Nat) : Nat := 0x0010014 + 0x40 * i
/-- DEV_RING_INJ_BASE_LO (02 Table 02.13). -/
abbrev Reg.devRingInjBaseLo (i : Nat) : Nat := 0x0010020 + 0x40 * i
/-- DEV_RING_INJ_BASE_HI (02 Table 02.13). -/
abbrev Reg.devRingInjBaseHi (i : Nat) : Nat := 0x0010024 + 0x40 * i
/-- DEV_RING_INJ_SIZE (02 Table 02.13). -/
abbrev Reg.devRingInjSize (i : Nat) : Nat := 0x0010028 + 0x40 * i
/-- DEV_RING_INJ_HEAD (02 Table 02.13). -/
abbrev Reg.devRingInjHead (i : Nat) : Nat := 0x001002C + 0x40 * i
/-- DEV_RING_INJ_TAIL (02 Table 02.13). -/
abbrev Reg.devRingInjTail (i : Nat) : Nat := 0x0010030 + 0x40 * i
/-- PWR_CTRL (20 Table 20.11). -/
abbrev Reg.pwrCtrl : Nat := 0x0100000
/-- PWR_AVC_CFG (20 Table 20.12). -/
abbrev Reg.pwrAvcCfg : Nat := 0x0100004
/-- PWR_STATUS (20 Table 20.12). -/
abbrev Reg.pwrStatus : Nat := 0x0100008
/-- PWR_VIN (20 Table 20.12). -/
abbrev Reg.pwrVin : Nat := 0x010000C
/-- PWR_FAULT (20 Table 20.12). -/
abbrev Reg.pwrFault : Nat := 0x0100010
/-- PWR_RAIL_V (20 Table 20.12). -/
abbrev Reg.pwrRailV (i : Nat) : Nat := 0x0100040 + 0x8 * i
/-- PWR_RAIL_I (20 Table 20.12). -/
abbrev Reg.pwrRailI (i : Nat) : Nat := 0x0100044 + 0x8 * i
/-- PWR_TEMP (20 Table 20.12). -/
abbrev Reg.pwrTemp (i : Nat) : Nat := 0x0100100 + 0x4 * i
/-- PWR_TEMP_CFG (20 Table 20.12). -/
abbrev Reg.pwrTempCfg : Nat := 0x0100120
/-- PWR_CAGE_CFG (20 Table 20.12). -/
abbrev Reg.pwrCageCfg : Nat := 0x0100200
/-- PWR_CAGE_RSNS (20 Table 20.12). -/
abbrev Reg.pwrCageRsns : Nat := 0x0100204
/-- PWR_CAGE_CTRL (20 Table 20.13). -/
abbrev Reg.pwrCageCtrl (i : Nat) : Nat := 0x0101000 + 0x10 * i
/-- PWR_CAGE_STATUS (20 Table 20.13). -/
abbrev Reg.pwrCageStatus (i : Nat) : Nat := 0x0101004 + 0x10 * i
/-- PWR_CAGE_CURRENT (20 Table 20.13). -/
abbrev Reg.pwrCageCurrent (i : Nat) : Nat := 0x0101008 + 0x10 * i
/-- TIME_CTRL (04 Table 04.2). -/
abbrev Reg.timeCtrl : Nat := 0x0200000
/-- TIME_RAW_W0 (04 R71). -/
abbrev Reg.timeRawW0 : Nat := 0x0200010
/-- TIME_RAW_W1 (04 R71). -/
abbrev Reg.timeRawW1 : Nat := 0x0200014
/-- TIME_RAW_W2 (04 R71). -/
abbrev Reg.timeRawW2 : Nat := 0x0200018
/-- TIME_SNAP_CTRL (04 R82). -/
abbrev Reg.timeSnapCtrl : Nat := 0x0200040
/-- TIME_SNAP_SEC_LO (04 Table 04.4). -/
abbrev Reg.timeSnapSecLo : Nat := 0x0200044
/-- TIME_SNAP_SEC_HI (04 Table 04.4). -/
abbrev Reg.timeSnapSecHi : Nat := 0x0200048
/-- TIME_SNAP_NS (04 Table 04.4). -/
abbrev Reg.timeSnapNs : Nat := 0x020004C
/-- TIME_SNAP_FRAC (04 Table 04.4). -/
abbrev Reg.timeSnapFrac : Nat := 0x0200050
/-- TIME_SNAP_NS32 (04 Table 04.4). -/
abbrev Reg.timeSnapNs32 : Nat := 0x0200054
/-- TIME_SNAP_RAW_W0 (04 Table 04.4). -/
abbrev Reg.timeSnapRawW0 : Nat := 0x0200058
/-- TIME_SNAP_RAW_W1 (04 Table 04.4). -/
abbrev Reg.timeSnapRawW1 : Nat := 0x020005C
/-- TIME_SNAP_RAW_W2 (04 Table 04.4). -/
abbrev Reg.timeSnapRawW2 : Nat := 0x0200060
/-- TIME_SNAP_COUNT (04 Table 04.4). -/
abbrev Reg.timeSnapCount : Nat := 0x0200064
/-- TIME_VIEW_OFFSET_W0 (04 Table 04.1). -/
abbrev Reg.timeViewOffsetW0 (i : Nat) : Nat := 0x0201000 + 0x40 * i
/-- TIME_VIEW_OFFSET_W1 (04 Table 04.1). -/
abbrev Reg.timeViewOffsetW1 (i : Nat) : Nat := 0x0201004 + 0x40 * i
/-- TIME_VIEW_OFFSET_W2 (04 Table 04.1 R74). -/
abbrev Reg.timeViewOffsetW2 (i : Nat) : Nat := 0x0201008 + 0x40 * i
/-- TIME_VIEW_RATE_LO (04 Table 04.1). -/
abbrev Reg.timeViewRateLo (i : Nat) : Nat := 0x020100C + 0x40 * i
/-- TIME_VIEW_RATE_HI (04 Table 04.1 R73). -/
abbrev Reg.timeViewRateHi (i : Nat) : Nat := 0x0201010 + 0x40 * i
/-- TIME_VIEW_STEP_LO (04 Table 04.1). -/
abbrev Reg.timeViewStepLo (i : Nat) : Nat := 0x0201014 + 0x40 * i
/-- TIME_VIEW_STEP_HI (04 Table 04.1 R74). -/
abbrev Reg.timeViewStepHi (i : Nat) : Nat := 0x0201018 + 0x40 * i
/-- TIME_VIEW_EPOCH_W0 (04 Table 04.1). -/
abbrev Reg.timeViewEpochW0 (i : Nat) : Nat := 0x0201020 + 0x40 * i
/-- TIME_VIEW_EPOCH_W1 (04 Table 04.1). -/
abbrev Reg.timeViewEpochW1 (i : Nat) : Nat := 0x0201024 + 0x40 * i
/-- TIME_VIEW_EPOCH_W2 (04 Table 04.1). -/
abbrev Reg.timeViewEpochW2 (i : Nat) : Nat := 0x0201028 + 0x40 * i
/-- TIME_VIEW_GEN (04 Table 04.1). -/
abbrev Reg.timeViewGen (i : Nat) : Nat := 0x0201030 + 0x40 * i
/-- TIME_PORT_CFG (04 Table 04.3). -/
abbrev Reg.timePortCfg (i : Nat) : Nat := 0x0202000 + 0x4 * i
/-- TIME_PORT_CAL (04 R79). -/
abbrev Reg.timePortCal (i : Nat) : Nat := 0x0202200 + 0x4 * i
/-- TIME_PTP_DOMAIN_MAP (04 R77). -/
abbrev Reg.timePtpDomainMap (i : Nat) : Nat := 0x0203000 + 0x4 * i
/-- TIME_TXTS_W0 (04 Table 04.5 R87). -/
abbrev Reg.timeTxtsW0 (i : Nat) : Nat := 0x0204000 + 0x20 * i
/-- TIME_TXTS_W1 (04 Table 04.5). -/
abbrev Reg.timeTxtsW1 (i : Nat) : Nat := 0x0204004 + 0x20 * i
/-- TIME_TXTS_W2 (04 Table 04.5). -/
abbrev Reg.timeTxtsW2 (i : Nat) : Nat := 0x0204008 + 0x20 * i
/-- TIME_TXTS_LEVEL (04 Table 04.5). -/
abbrev Reg.timeTxtsLevel (i : Nat) : Nat := 0x020400C + 0x20 * i
/-- TIME_TXTS_DROP (04 Table 04.5). -/
abbrev Reg.timeTxtsDrop (i : Nat) : Nat := 0x0204010 + 0x20 * i
/-- TIME_PON_CFG (04 Table 04.9). -/
abbrev Reg.timePonCfg : Nat := 0x0205000
/-- TIME_PON_PHASE_ERR (04 R93). -/
abbrev Reg.timePonPhaseErr : Nat := 0x0205004
/-- TIME_PON_SF_LO (04 R94). -/
abbrev Reg.timePonSfLo : Nat := 0x0205008
/-- TIME_PON_SF_HI (04 R94). -/
abbrev Reg.timePonSfHi : Nat := 0x020500C
/-- TIME_SYNCE_CFG (04 Table 04.7). -/
abbrev Reg.timeSynceCfg (i : Nat) : Nat := 0x0206000 + 0x4 * i
/-- TIME_SYNCE_STATUS (04 R91). -/
abbrev Reg.timeSynceStatus : Nat := 0x0206008
/-- TIME_PPS_IN_CFG (04 Table 04.8). -/
abbrev Reg.timePpsInCfg : Nat := 0x0206100
/-- TIME_PPS_IN_SEC_LO (04 Table 04.8). -/
abbrev Reg.timePpsInSecLo : Nat := 0x0206104
/-- TIME_PPS_IN_SEC_HI (04 Table 04.8). -/
abbrev Reg.timePpsInSecHi : Nat := 0x0206108
/-- TIME_PPS_IN_NS (04 Table 04.8). -/
abbrev Reg.timePpsInNs : Nat := 0x020610C
/-- TIME_PPS_IN_COUNT (04 Table 04.8). -/
abbrev Reg.timePpsInCount : Nat := 0x0206110
/-- TIME_TOD_IN_DATA (04 Table 04.8). -/
abbrev Reg.timeTodInData : Nat := 0x0206114
/-- TIME_TOD_IN_DROP (04 Table 04.8). -/
abbrev Reg.timeTodInDrop : Nat := 0x0206118
/-- TIME_PPS_OUT_CFG (04 Table 04.8). -/
abbrev Reg.timePpsOutCfg : Nat := 0x0206120
/-- TIME_TOD_OUT_DATA (04 Table 04.8). -/
abbrev Reg.timeTodOutData : Nat := 0x0206124
/-- TIME_TOD_OUT_CTRL (04 Table 04.8). -/
abbrev Reg.timeTodOutCtrl : Nat := 0x0206128
/-- TIME_GPIO_CFG (04 Table 04.12 R102). -/
abbrev Reg.timeGpioCfg (i : Nat) : Nat := 0x0206200 + 0x4 * i
/-- TIME_WP_NS (04 Table 04.11). -/
abbrev Reg.timeWpNs (i : Nat) : Nat := 0x0208000 + 0x20 * i
/-- TIME_WP_SEC_LO (04 Table 04.11). -/
abbrev Reg.timeWpSecLo (i : Nat) : Nat := 0x0208004 + 0x20 * i
/-- TIME_WP_SEC_HI (04 Table 04.11). -/
abbrev Reg.timeWpSecHi (i : Nat) : Nat := 0x0208008 + 0x20 * i
/-- TIME_WP_ACTION (04 Table 04.11). -/
abbrev Reg.timeWpAction (i : Nat) : Nat := 0x020800C + 0x20 * i
/-- TIME_WP_CTRL (04 Table 04.11 R97). -/
abbrev Reg.timeWpCtrl (i : Nat) : Nat := 0x0208010 + 0x20 * i
/-- TIME_WP_STATUS (04 Table 04.11 R98). -/
abbrev Reg.timeWpStatus (i : Nat) : Nat := 0x0208014 + 0x20 * i
/-- TIME_WP_LATENESS (04 Table 04.11 R98). -/
abbrev Reg.timeWpLateness (i : Nat) : Nat := 0x0208018 + 0x20 * i
/-- PON_LINE_CFG (05 Table 05.7). -/
abbrev Reg.ponLineCfg (i : Nat) : Nat := 0x0300000 + 0x10000 * i
/-- PON_PERSONALITY (05 Table 05.8 R104). -/
abbrev Reg.ponPersonality (i : Nat) : Nat := 0x0300004 + 0x10000 * i
/-- PON_LINE_STATUS (05 Table 05.9 R120). -/
abbrev Reg.ponLineStatus (i : Nat) : Nat := 0x0300008 + 0x10000 * i
/-- PON_LINE_TIMING (05 Table 05.10). -/
abbrev Reg.ponLineTiming (i : Nat) : Nat := 0x030000C + 0x10000 * i
/-- PON_TEQ (05 Table 05.11). -/
abbrev Reg.ponTeq (i : Nat) : Nat := 0x0300010 + 0x10000 * i
/-- PON_DELIM_CFG (05 Table 05.12). -/
abbrev Reg.ponDelimCfg (i : Nat) : Nat := 0x0300014 + 0x10000 * i
/-- PON_SIDEBAND_CFG (05 Table 05.13). -/
abbrev Reg.ponSidebandCfg (i : Nat) : Nat := 0x0300018 + 0x10000 * i
/-- PON_CH_CFG (05 Table 05.14). -/
abbrev Reg.ponChCfg (i j : Nat) : Nat := 0x0300020 + 0x10000 * i + 0x4 * j
/-- PON_RSSI_CTRL (05 Table 05.15 R118). -/
abbrev Reg.ponRssiCtrl (i : Nat) : Nat := 0x0300028 + 0x10000 * i
/-- PON_BURST_PROFILE_W0 (05 Table 05.16 R111). -/
abbrev Reg.ponBurstProfileW0 (i j : Nat) : Nat := 0x0300100 + 0x10000 * i + 0x20 * j
/-- PON_BURST_PROFILE_W1 (05 Table 05.16). -/
abbrev Reg.ponBurstProfileW1 (i j : Nat) : Nat := 0x0300104 + 0x10000 * i + 0x20 * j
/-- PON_BURST_PROFILE_W2 (05 Table 05.16). -/
abbrev Reg.ponBurstProfileW2 (i j : Nat) : Nat := 0x0300108 + 0x10000 * i + 0x20 * j
/-- PON_BURST_PROFILE_W3 (05 Table 05.16). -/
abbrev Reg.ponBurstProfileW3 (i j : Nat) : Nat := 0x030010C + 0x10000 * i + 0x20 * j
/-- PON_DS_FRAMES (05 Table 05.17). -/
abbrev Reg.ponDsFrames (i j : Nat) : Nat := 0x0300200 + 0x10000 * i + 0x40 * j
/-- PON_MAP_LATE (05 Table 05.17 R107). -/
abbrev Reg.ponMapLate (i j : Nat) : Nat := 0x0300204 + 0x10000 * i + 0x40 * j
/-- PON_BURST_OK (05 Table 05.17). -/
abbrev Reg.ponBurstOk (i j : Nat) : Nat := 0x0300208 + 0x10000 * i + 0x40 * j
/-- PON_BURST_MISS (05 Table 05.17). -/
abbrev Reg.ponBurstMiss (i j : Nat) : Nat := 0x030020C + 0x10000 * i + 0x40 * j
/-- PON_DELIM_FALSE (05 Table 05.17). -/
abbrev Reg.ponDelimFalse (i j : Nat) : Nat := 0x0300210 + 0x10000 * i + 0x40 * j
/-- PON_BURST_ONU_MISMATCH (05 Table 05.17). -/
abbrev Reg.ponBurstOnuMismatch (i j : Nat) : Nat := 0x0300214 + 0x10000 * i + 0x40 * j
/-- PON_FEC_CW_CORR (05 Table 05.17). -/
abbrev Reg.ponFecCwCorr (i j : Nat) : Nat := 0x0300218 + 0x10000 * i + 0x40 * j
/-- PON_FEC_CW_UNCORR (05 Table 05.17). -/
abbrev Reg.ponFecCwUncorr (i j : Nat) : Nat := 0x030021C + 0x10000 * i + 0x40 * j
/-- PON_DISC_BURSTS (05 Table 05.17). -/
abbrev Reg.ponDiscBursts (i j : Nat) : Nat := 0x0300220 + 0x10000 * i + 0x40 * j
/-- ACT_CTRL (06 Table 06.6). -/
abbrev Reg.actCtrl : Nat := 0x0600000
/-- ACT_EXP_CFG (06 Table 06.7). -/
abbrev Reg.actExpCfg : Nat := 0x0600004
/-- ACT_DISC_TIMING (06 Table 06.8). -/
abbrev Reg.actDiscTiming : Nat := 0x0600008
/-- ACT_SUPV_CFG (06 Table 06.9). -/
abbrev Reg.actSupvCfg : Nat := 0x060000C
/-- ACT_SUPV_CFG2 (06 Table 06.10). -/
abbrev Reg.actSupvCfg2 : Nat := 0x0600010
/-- ACT_DISC_PORT (06 Table 06.11). -/
abbrev Reg.actDiscPort (i : Nat) : Nat := 0x0600100 + 0x4 * i
/-- ACT_PORT_STATUS (06 Table 06.12). -/
abbrev Reg.actPortStatus (i : Nat) : Nat := 0x0600400 + 0x10 * i
/-- ACT_PORT_ENERGY (06 Table 06.12). -/
abbrev Reg.actPortEnergy (i : Nat) : Nat := 0x0600404 + 0x10 * i
/-- ACT_PORT_DRIFT (06 Table 06.12). -/
abbrev Reg.actPortDrift (i : Nat) : Nat := 0x0600408 + 0x10 * i
/-- ACT_PORT_DIS_SN (06 Table 06.12). -/
abbrev Reg.actPortDisSn (i : Nat) : Nat := 0x060040C + 0x10 * i
/-- ACT_PLOAM_RX_HDR (06 Table 06.13 R127). -/
abbrev Reg.actPloamRxHdr : Nat := 0x0601000
/-- ACT_PLOAM_RX_DATA (06 Table 06.13). -/
abbrev Reg.actPloamRxData (i : Nat) : Nat := 0x0601004 + 0x4 * i
/-- ACT_PLOAM_RX_LEVEL (06 Table 06.13). -/
abbrev Reg.actPloamRxLevel : Nat := 0x060102C
/-- ACT_PLOAM_RX_DROP (06 Table 06.13). -/
abbrev Reg.actPloamRxDrop : Nat := 0x0601030
/-- ACT_PLOAM_MIC_ERR (06 Table 06.13). -/
abbrev Reg.actPloamMicErr : Nat := 0x0601034
/-- ACT_PLOAM_TX_DATA (06 Table 06.13). -/
abbrev Reg.actPloamTxData (i : Nat) : Nat := 0x0601040 + 0x4 * i
/-- ACT_PLOAM_TX_CMD (06 Table 06.13 R126). -/
abbrev Reg.actPloamTxCmd : Nat := 0x0601070
/-- ACT_PLOAM_TX_DROP (06 Table 06.13). -/
abbrev Reg.actPloamTxDrop : Nat := 0x0601074
/-- ACT_CMD (06 Table 06.14 R144). -/
abbrev Reg.actCmd : Nat := 0x0602000
/-- ACT_CMD_DATA (06 Table 06.14). -/
abbrev Reg.actCmdData : Nat := 0x0602004
/-- ACT_CMD_SN_V (06 Table 06.14). -/
abbrev Reg.actCmdSnV : Nat := 0x0602008
/-- ACT_CMD_SN_S (06 Table 06.14). -/
abbrev Reg.actCmdSnS : Nat := 0x060200C
/-- ACT_CMD_STATUS (06 Table 06.14). -/
abbrev Reg.actCmdStatus : Nat := 0x0602010
/-- ACT_SNTAB_IDX (06 Table 06.15). -/
abbrev Reg.actSntabIdx : Nat := 0x0603000
/-- ACT_SNTAB_VENDOR (06 Table 06.15). -/
abbrev Reg.actSntabVendor : Nat := 0x0603004
/-- ACT_SNTAB_SERIAL (06 Table 06.15). -/
abbrev Reg.actSntabSerial : Nat := 0x0603008
/-- ACT_SNTAB_BIND (06 Table 06.15). -/
abbrev Reg.actSntabBind : Nat := 0x060300C
/-- ACT_SNTAB_CMD (06 Table 06.15 R132). -/
abbrev Reg.actSntabCmd : Nat := 0x0603010
/-- ACT_ONU_W0 (06 Table 06.16). -/
abbrev Reg.actOnuW0 (i j : Nat) : Nat := 0x0640000 + 0x4000 * i + 0x10 * j
/-- ACT_ONU_W1 (06 Table 06.16). -/
abbrev Reg.actOnuW1 (i j : Nat) : Nat := 0x0640004 + 0x4000 * i + 0x10 * j
/-- ACT_ONU_W2 (06 Table 06.16). -/
abbrev Reg.actOnuW2 (i j : Nat) : Nat := 0x0640008 + 0x4000 * i + 0x10 * j
/-- ACT_ONU_W3 (06 Table 06.16). -/
abbrev Reg.actOnuW3 (i j : Nat) : Nat := 0x064000C + 0x4000 * i + 0x10 * j
/-- DBA_CTRL (07 Table 07.6). -/
abbrev Reg.dbaCtrl : Nat := 0x0700000
/-- DBA_EXP_CFG (07 Table 07.7). -/
abbrev Reg.dbaExpCfg : Nat := 0x0700004
/-- DBA_COMMIT (02 Table 02.7 R37). -/
abbrev Reg.dbaCommit : Nat := 0x0700008
/-- DBA_EXP_CFG2 (07 Table 07.8). -/
abbrev Reg.dbaExpCfg2 : Nat := 0x070000C
/-- DBA_BOOK_CFG (07 Table 07.9). -/
abbrev Reg.dbaBookCfg : Nat := 0x0700010
/-- DBA_BOOK_TARGET (07 Table 07.10). -/
abbrev Reg.dbaBookTarget : Nat := 0x0700020
/-- DBA_BOOK_VOL (07 Table 07.10). -/
abbrev Reg.dbaBookVol : Nat := 0x0700024
/-- DBA_BOOK_NS (07 Table 07.10). -/
abbrev Reg.dbaBookNs : Nat := 0x0700028
/-- DBA_BOOK_SEC_LO (07 Table 07.10). -/
abbrev Reg.dbaBookSecLo : Nat := 0x070002C
/-- DBA_BOOK_SEC_HI (07 Table 07.10). -/
abbrev Reg.dbaBookSecHi : Nat := 0x0700030
/-- DBA_BOOK_CMD (07 Table 07.10 R163). -/
abbrev Reg.dbaBookCmd : Nat := 0x0700034
/-- DBA_BOOK_STATUS (07 Table 07.10). -/
abbrev Reg.dbaBookStatus : Nat := 0x0700038
/-- DBA_BOOK_FIRST_FRAME (07 Table 07.10). -/
abbrev Reg.dbaBookFirstFrame : Nat := 0x070003C
/-- DBA_ALLOC_SEL (07 Table 07.10 R150). -/
abbrev Reg.dbaAllocSel : Nat := 0x0700040
/-- DBA_ALLOC_CFG0 (07 Table 07.10). -/
abbrev Reg.dbaAllocCfg0 : Nat := 0x0700044
/-- DBA_ALLOC_CFG1 (07 Table 07.10). -/
abbrev Reg.dbaAllocCfg1 : Nat := 0x0700048
/-- DBA_ALLOC_FIX (07 Table 07.10). -/
abbrev Reg.dbaAllocFix : Nat := 0x070004C
/-- DBA_ALLOC_FIX_FRAME (07 Table 07.10). -/
abbrev Reg.dbaAllocFixFrame : Nat := 0x0700050
/-- DBA_ALLOC_RATE (07 Table 07.10). -/
abbrev Reg.dbaAllocRate : Nat := 0x0700054
/-- DBA_ALLOC_EST (07 Table 07.10). -/
abbrev Reg.dbaAllocEst : Nat := 0x0700058
/-- DBA_BOOK_REFUSED (07 Table 07.11). -/
abbrev Reg.dbaBookRefused : Nat := 0x0700060
/-- DBA_BOOK_LATE (07 Table 07.11). -/
abbrev Reg.dbaBookLate : Nat := 0x0700064
/-- DBA_CTI_ACCEPT (07 Table 07.11). -/
abbrev Reg.dbaCtiAccept : Nat := 0x0700068
/-- DBA_CTI_BAD (07 Table 07.11). -/
abbrev Reg.dbaCtiBad : Nat := 0x070006C
/-- DBA_BOOK_LEVEL (07 Table 07.11). -/
abbrev Reg.dbaBookLevel : Nat := 0x0700070
/-- DBA_PORT_CFG (07 Table 07.12 R159). -/
abbrev Reg.dbaPortCfg (i : Nat) : Nat := 0x0700100 + 0x4 * i
/-- DBA_MAPS (07 Table 07.13). -/
abbrev Reg.dbaMaps (i : Nat) : Nat := 0x0700400 + 0x40 * i
/-- DBA_STRUCTS (07 Table 07.13). -/
abbrev Reg.dbaStructs (i : Nat) : Nat := 0x0700404 + 0x40 * i
/-- DBA_STRUCT_SHORT (07 Table 07.13). -/
abbrev Reg.dbaStructShort (i : Nat) : Nat := 0x0700408 + 0x40 * i
/-- DBA_CAP_SHORT (07 Table 07.13). -/
abbrev Reg.dbaCapShort (i : Nat) : Nat := 0x070040C + 0x40 * i
/-- DBA_REPORTS (07 Table 07.13). -/
abbrev Reg.dbaReports (i : Nat) : Nat := 0x0700410 + 0x40 * i
/-- DBA_REPORT_BAD (07 Table 07.13). -/
abbrev Reg.dbaReportBad (i : Nat) : Nat := 0x0700414 + 0x40 * i
/-- DBA_BOOK_LOST (07 Table 07.13). -/
abbrev Reg.dbaBookLost (i : Nat) : Nat := 0x0700418 + 0x40 * i
/-- DBA_PROF_W0 (07 Table 07.14). -/
abbrev Reg.dbaProfW0 (i j : Nat) : Nat := 0x0710000 + 0x10000 * i + 0x20 * j
/-- DBA_PROF_W1 (07 Table 07.14). -/
abbrev Reg.dbaProfW1 (i j : Nat) : Nat := 0x0710004 + 0x10000 * i + 0x20 * j
/-- DBA_PROF_W2 (07 Table 07.14). -/
abbrev Reg.dbaProfW2 (i j : Nat) : Nat := 0x0710008 + 0x10000 * i + 0x20 * j
/-- DBA_PROF_W3 (07 Table 07.14). -/
abbrev Reg.dbaProfW3 (i j : Nat) : Nat := 0x071000C + 0x10000 * i + 0x20 * j
/-- DBA_PROF_W4 (07 Table 07.14). -/
abbrev Reg.dbaProfW4 (i j : Nat) : Nat := 0x0710010 + 0x10000 * i + 0x20 * j
/-- DBA_CTI_MAP_W0 (07 Table 07.15). -/
abbrev Reg.dbaCtiMapW0 (i : Nat) : Nat := 0x0730000 + 0x8 * i
/-- DBA_CTI_MAP_W1 (07 Table 07.15). -/
abbrev Reg.dbaCtiMapW1 (i : Nat) : Nat := 0x0730004 + 0x8 * i
/-- XGM_CTRL (08 Table 08.5). -/
abbrev Reg.xgmCtrl : Nat := 0x0800000
/-- XGM_EXP_CFG (08 Table 08.6). -/
abbrev Reg.xgmExpCfg : Nat := 0x0800004
/-- XGM_SDU_CFG (08 Table 08.7). -/
abbrev Reg.xgmSduCfg : Nat := 0x0800008
/-- XGM_BIND_SEL (08 Table 08.8 R168). -/
abbrev Reg.xgmBindSel : Nat := 0x0800010
/-- XGM_BIND_CFG0 (08 Table 08.8). -/
abbrev Reg.xgmBindCfg0 : Nat := 0x0800014
/-- XGM_BIND_CFG1 (08 Table 08.8). -/
abbrev Reg.xgmBindCfg1 : Nat := 0x0800018
/-- XGM_DSQ_SEL (08 Table 08.8 R168). -/
abbrev Reg.xgmDsqSel : Nat := 0x0800020
/-- XGM_DSQ_CFG (08 Table 08.8). -/
abbrev Reg.xgmDsqCfg : Nat := 0x0800024
/-- XGM_KEY_SEL (08 Table 08.8 R173). -/
abbrev Reg.xgmKeySel : Nat := 0x0800030
/-- XGM_KEY_DATA (08 Table 08.8). -/
abbrev Reg.xgmKeyData (i : Nat) : Nat := 0x0800034 + 0x4 * i
/-- XGM_KEY_INFO (08 Table 08.8). -/
abbrev Reg.xgmKeyInfo : Nat := 0x0800044
/-- XGM_KEY_CMD (08 Table 08.8 R175). -/
abbrev Reg.xgmKeyCmd : Nat := 0x0800050
/-- XGM_KEY_CMD_STATUS (08 Table 08.8). -/
abbrev Reg.xgmKeyCmdStatus : Nat := 0x0800054
/-- XGM_KEY_RESULT (08 Table 08.8 R175). -/
abbrev Reg.xgmKeyResult : Nat := 0x0800058
/-- XGM_KEY_LEVEL (08 Table 08.8). -/
abbrev Reg.xgmKeyLevel : Nat := 0x080005C
/-- XGM_REASM_LEVEL (08 Table 08.9). -/
abbrev Reg.xgmReasmLevel : Nat := 0x0800060
/-- XGM_LAST_SPOOF (08 Table 08.9 R178). -/
abbrev Reg.xgmLastSpoof : Nat := 0x0800064
/-- XGM_LAST_SPOOF_ID (08 Table 08.9). -/
abbrev Reg.xgmLastSpoofId : Nat := 0x0800068
/-- XGM_REASM_FULL (08 Table 08.9). -/
abbrev Reg.xgmReasmFull : Nat := 0x080006C
/-- XGM_DS_FRAMES (08 Table 08.10). -/
abbrev Reg.xgmDsFrames (i : Nat) : Nat := 0x0800400 + 0x40 * i
/-- XGM_DS_FRAGS (08 Table 08.10). -/
abbrev Reg.xgmDsFrags (i : Nat) : Nat := 0x0800404 + 0x40 * i
/-- XGM_DS_NOBIND (08 Table 08.10). -/
abbrev Reg.xgmDsNobind (i : Nat) : Nat := 0x0800408 + 0x40 * i
/-- XGM_DS_NOKEY (08 Table 08.10). -/
abbrev Reg.xgmDsNokey (i : Nat) : Nat := 0x080040C + 0x40 * i
/-- XGM_US_FRAMES (08 Table 08.10). -/
abbrev Reg.xgmUsFrames (i : Nat) : Nat := 0x0800410 + 0x40 * i
/-- XGM_US_HEC_ERR (08 Table 08.10). -/
abbrev Reg.xgmUsHecErr (i : Nat) : Nat := 0x0800414 + 0x40 * i
/-- XGM_US_SPOOF (08 Table 08.10). -/
abbrev Reg.xgmUsSpoof (i : Nat) : Nat := 0x0800418 + 0x40 * i
/-- XGM_US_KEY_ERR (08 Table 08.10). -/
abbrev Reg.xgmUsKeyErr (i : Nat) : Nat := 0x080041C + 0x40 * i
/-- XGM_US_ERRORED (08 Table 08.10). -/
abbrev Reg.xgmUsErrored (i : Nat) : Nat := 0x0800420 + 0x40 * i
/-- XGM_US_FCS_ERR (08 Table 08.10). -/
abbrev Reg.xgmUsFcsErr (i : Nat) : Nat := 0x0800424 + 0x40 * i
/-- XGM_US_REASM_DROP (08 Table 08.10). -/
abbrev Reg.xgmUsReasmDrop (i : Nat) : Nat := 0x0800428 + 0x40 * i
/-- XGM_KEYSW_SKIP (08 Table 08.10). -/
abbrev Reg.xgmKeyswSkip (i : Nat) : Nat := 0x080042C + 0x40 * i
/-- CMP_CTRL (09 Table 09.5). -/
abbrev Reg.cmpCtrl : Nat := 0x0900000
/-- CMP_COMMIT (02 Table 02.7 R197). -/
abbrev Reg.cmpCommit : Nat := 0x0900008
/-- CMP_EPOCH_STATUS (09 Table 09.6 R198). -/
abbrev Reg.cmpEpochStatus : Nat := 0x090000C
/-- CMP_BEARING_SEED (09 R202). -/
abbrev Reg.cmpBearingSeed : Nat := 0x0900010
/-- CMP_BEARING_EXP (09 Table 09.7). -/
abbrev Reg.cmpBearingExp : Nat := 0x0900014
/-- CMP_TBL_SEL (09 Table 09.8 R189). -/
abbrev Reg.cmpTblSel : Nat := 0x0900040
/-- CMP_TBL_PIPE (09 Table 09.8 R190). -/
abbrev Reg.cmpTblPipe : Nat := 0x0900044
/-- CMP_TBL_INFO (09 Table 09.8). -/
abbrev Reg.cmpTblInfo : Nat := 0x0900048
/-- CMP_TBL_DATA (09 Table 09.8). -/
abbrev Reg.cmpTblData (i : Nat) : Nat := 0x0900080 + 0x4 * i
/-- CMP_PARSE_VAL (09 R185). -/
abbrev Reg.cmpParseVal (i : Nat) : Nat := 0x0900100 + 0x4 * i
/-- CMP_MIRROR_W0 (09 Table 09.9). -/
abbrev Reg.cmpMirrorW0 (i : Nat) : Nat := 0x0900200 + 0x10 * i
/-- CMP_MIRROR_W1 (09 Table 09.9). -/
abbrev Reg.cmpMirrorW1 (i : Nat) : Nat := 0x0900204 + 0x10 * i
/-- CMP_MIRROR_W2 (09 Table 09.9). -/
abbrev Reg.cmpMirrorW2 (i : Nat) : Nat := 0x0900208 + 0x10 * i
/-- CMP_PORT_DEF_W0 (09 Table 09.10 R195). -/
abbrev Reg.cmpPortDefW0 (i : Nat) : Nat := 0x0901000 + 0x10 * i
/-- CMP_PORT_DEF_W1 (09 Table 09.10). -/
abbrev Reg.cmpPortDefW1 (i : Nat) : Nat := 0x0901004 + 0x10 * i
/-- CMP_PORT_DEF_W2 (09 Table 09.10). -/
abbrev Reg.cmpPortDefW2 (i : Nat) : Nat := 0x0901008 + 0x10 * i
/-- CMP_DEF_NOMATCH (09 Table 09.11). -/
abbrev Reg.cmpDefNomatch (i : Nat) : Nat := 0x0902000 + 0x10 * i
/-- CMP_DEF_PARSEFAIL (09 Table 09.11). -/
abbrev Reg.cmpDefParsefail (i : Nat) : Nat := 0x0902004 + 0x10 * i
/-- CMP_DEF_RESERVED (09 Table 09.11). -/
abbrev Reg.cmpDefReserved (i : Nat) : Nat := 0x0902008 + 0x10 * i
/-- CMP_ING_OVERRUN (09 Table 09.12 R17). -/
abbrev Reg.cmpIngOverrun (i : Nat) : Nat := 0x0903000 + 0x40 * i
/-- CMP_PASSES (09 Table 09.12). -/
abbrev Reg.cmpPasses (i : Nat) : Nat := 0x0903004 + 0x40 * i
/-- CMP_RECIRC (09 Table 09.12). -/
abbrev Reg.cmpRecirc (i : Nat) : Nat := 0x0903008 + 0x40 * i
/-- CMP_RECIRC_LIMIT (09 Table 09.12). -/
abbrev Reg.cmpRecircLimit (i : Nat) : Nat := 0x090300C + 0x40 * i
/-- CMP_EDIT_ERR (09 Table 09.12). -/
abbrev Reg.cmpEditErr (i : Nat) : Nat := 0x0903010 + 0x40 * i
/-- CMP_PARSE_FAIL (09 Table 09.12). -/
abbrev Reg.cmpParseFail (i : Nat) : Nat := 0x0903014 + 0x40 * i
/-- SXT_CTRL (10 Table 10.8). -/
abbrev Reg.sxtCtrl : Nat := 0x0A00000
/-- SXT_EXP_CFG (10 Table 10.9). -/
abbrev Reg.sxtExpCfg : Nat := 0x0A00004
/-- SXT_MOVE_LIMIT (10 Status and seeds). -/
abbrev Reg.sxtMoveLimit : Nat := 0x0A00008
/-- SXT_INFO (10 R203). -/
abbrev Reg.sxtInfo : Nat := 0x0A0000C
/-- SXT_EM_STATUS (10 R214). -/
abbrev Reg.sxtEmStatus : Nat := 0x0A00010
/-- SXT_EM_SEED (10 R216). -/
abbrev Reg.sxtEmSeed : Nat := 0x0A00014
/-- SXT_EM_SEED_NEXT (10 R216). -/
abbrev Reg.sxtEmSeedNext : Nat := 0x0A00018
/-- SXT_LPM_STATUS (10 R209). -/
abbrev Reg.sxtLpmStatus : Nat := 0x0A0001C
/-- SXT_LPM_SEED (10 R209). -/
abbrev Reg.sxtLpmSeed : Nat := 0x0A00020
/-- SXT_LPM_SEED_NEXT (10 R209). -/
abbrev Reg.sxtLpmSeedNext : Nat := 0x0A00024
/-- SXT_DYN_COUNT (10 Status and seeds). -/
abbrev Reg.sxtDynCount : Nat := 0x0A00028
/-- SXT_CMD (10 R228). -/
abbrev Reg.sxtCmd : Nat := 0x0A00040
/-- SXT_CMD_INDEX (10 R228). -/
abbrev Reg.sxtCmdIndex : Nat := 0x0A00044
/-- SXT_CMD_DATA (10 Table 10.10). -/
abbrev Reg.sxtCmdData (i : Nat) : Nat := 0x0A00050 + 0x4 * i
/-- SXT_CMD_STATUS (10 R228). -/
abbrev Reg.sxtCmdStatus : Nat := 0x0A00070
/-- SXT_LEARN_LEVEL (10 R217). -/
abbrev Reg.sxtLearnLevel : Nat := 0x0A00080
/-- SXT_NOTE_HDR (10 R221). -/
abbrev Reg.sxtNoteHdr : Nat := 0x0A00084
/-- SXT_NOTE_DATA (10 R221). -/
abbrev Reg.sxtNoteData (i : Nat) : Nat := 0x0A00088 + 0x4 * i
/-- SXT_NOTE_LEVEL (10 R221). -/
abbrev Reg.sxtNoteLevel : Nat := 0x0A00098
/-- SXT_REHASH_OP_CTRL (10 R216). -/
abbrev Reg.sxtRehashOpCtrl : Nat := 0x0A00100
/-- SXT_REHASH_OPSTAT (10 R216). -/
abbrev Reg.sxtRehashOpstat : Nat := 0x0A00104
/-- SXT_REHASH_OP_PARTIAL (10 R216). -/
abbrev Reg.sxtRehashOpPartial : Nat := 0x0A00108
/-- SXT_TRIE_OP_CTRL (10 R208). -/
abbrev Reg.sxtTrieOpCtrl : Nat := 0x0A00120
/-- SXT_TRIE_OPSTAT (10 R208). -/
abbrev Reg.sxtTrieOpstat : Nat := 0x0A00124
/-- SXT_TRIE_OP_PARTIAL (10 R208). -/
abbrev Reg.sxtTrieOpPartial : Nat := 0x0A00128
/-- SXT_TRIE_ADDR_LO (10 R208). -/
abbrev Reg.sxtTrieAddrLo : Nat := 0x0A0012C
/-- SXT_TRIE_ADDR_HI (10 R208). -/
abbrev Reg.sxtTrieAddrHi : Nat := 0x0A00130
/-- SXT_TRIE_COUNT (10 R208). -/
abbrev Reg.sxtTrieCount : Nat := 0x0A00134
/-- SXT_FIX_OP_CTRL (10 R225). -/
abbrev Reg.sxtFixOpCtrl : Nat := 0x0A00140
/-- SXT_FIX_OPSTAT (10 R225). -/
abbrev Reg.sxtFixOpstat : Nat := 0x0A00144
/-- SXT_FIX_OP_PARTIAL (10 R226). -/
abbrev Reg.sxtFixOpPartial (i : Nat) : Nat := 0x0A00148 + 0x4 * i
/-- SXT_FIX_ADDR_LO (10 R225). -/
abbrev Reg.sxtFixAddrLo : Nat := 0x0A00160
/-- SXT_FIX_ADDR_HI (10 R225). -/
abbrev Reg.sxtFixAddrHi : Nat := 0x0A00164
/-- SXT_FIX_BLOCKS (10 R225). -/
abbrev Reg.sxtFixBlocks : Nat := 0x0A00168
/-- SXT_FIX_START (10 R225). -/
abbrev Reg.sxtFixStart : Nat := 0x0A0016C
/-- SXT_FIX_LIST_LO (10 R226). -/
abbrev Reg.sxtFixListLo : Nat := 0x0A00170
/-- SXT_FIX_LIST_HI (10 R226). -/
abbrev Reg.sxtFixListHi : Nat := 0x0A00174
/-- SXT_FIX_LIST_MAX (10 R226). -/
abbrev Reg.sxtFixListMax : Nat := 0x0A00178
/-- SXT_DMA_BASE_LO (10 R229). -/
abbrev Reg.sxtDmaBaseLo : Nat := 0x0A00200
/-- SXT_DMA_BASE_HI (10 R229). -/
abbrev Reg.sxtDmaBaseHi : Nat := 0x0A00204
/-- SXT_DMA_SIZE (10 R229). -/
abbrev Reg.sxtDmaSize : Nat := 0x0A00208
/-- SXT_DMA_HEAD (10 R229). -/
abbrev Reg.sxtDmaHead : Nat := 0x0A0020C
/-- SXT_DMA_TAIL (10 R229). -/
abbrev Reg.sxtDmaTail : Nat := 0x0A00210
/-- SXT_DMA_STATUS (10 R229). -/
abbrev Reg.sxtDmaStatus : Nat := 0x0A00214
/-- SXT_INSERT_FAILS (10 R214). -/
abbrev Reg.sxtInsertFails : Nat := 0x0A00300
/-- SXT_RELOCS (10 Counters). -/
abbrev Reg.sxtRelocs : Nat := 0x0A00304
/-- SXT_LEARN_DROP (10 R217). -/
abbrev Reg.sxtLearnDrop : Nat := 0x0A00308
/-- SXT_LEARN_DUP (10 R218). -/
abbrev Reg.sxtLearnDup : Nat := 0x0A0030C
/-- SXT_LEARN_FROZEN (10 R218). -/
abbrev Reg.sxtLearnFrozen : Nat := 0x0A00310
/-- SXT_LEARN_LIMIT (10 R218). -/
abbrev Reg.sxtLearnLimit : Nat := 0x0A00314
/-- SXT_AGED (10 R220). -/
abbrev Reg.sxtAged : Nat := 0x0A00318
/-- SXT_NOTE_DROP (10 R221). -/
abbrev Reg.sxtNoteDrop : Nat := 0x0A0031C
/-- SXT_LPM_TRUNC (10 R210). -/
abbrev Reg.sxtLpmTrunc : Nat := 0x0A00320
/-- SXT_NH_DROP (10 R222). -/
abbrev Reg.sxtNhDrop : Nat := 0x0A00324
/-- SXT_TBL_INFO (10 R203). -/
abbrev Reg.sxtTblInfo (i : Nat) : Nat := 0x0A01000 + 0x4 * i
/-- SXT_TBL_CFG (10 Table 10.12). -/
abbrev Reg.sxtTblCfg (i : Nat) : Nat := 0x0A01400 + 0x4 * i
/-- POOL_CTRL (11 Table 11.5). -/
abbrev Reg.poolCtrl : Nat := 0x0B00000
/-- POOL_FREE_TOTAL (11 Table 11.6). -/
abbrev Reg.poolFreeTotal : Nat := 0x0B00004
/-- POOL_QUEUED (11 Table 11.6). -/
abbrev Reg.poolQueued : Nat := 0x0B00008
/-- POOL_INFLIGHT (11 Table 11.6). -/
abbrev Reg.poolInflight : Nat := 0x0B0000C
/-- POOL_EXHAUST_DROP (11 Table 11.6). -/
abbrev Reg.poolExhaustDrop : Nat := 0x0B00010
/-- POOL_MC_QUEUE_LEVEL (11 Table 11.6). -/
abbrev Reg.poolMcQueueLevel : Nat := 0x0B00014
/-- POOL_MC_QUEUE_DROP (11 Table 11.6). -/
abbrev Reg.poolMcQueueDrop : Nat := 0x0B00018
/-- POOL_FREE_CNT (11 Table 11.6). -/
abbrev Reg.poolFreeCnt (i : Nat) : Nat := 0x0B00100 + 0x4 * i
/-- POOL_AUDIT_OP_CTRL (11 Table 11.7). -/
abbrev Reg.poolAuditOpCtrl : Nat := 0x0B00200
/-- POOL_AUDIT_OPSTAT (11 Table 11.7). -/
abbrev Reg.poolAuditOpstat : Nat := 0x0B00204
/-- POOL_AUDIT_OP_PARTIAL (11 R236). -/
abbrev Reg.poolAuditOpPartial (i : Nat) : Nat := 0x0B00208 + 0x4 * i
/-- POOL_AUDIT_RESULT (11 R237). -/
abbrev Reg.poolAuditResult : Nat := 0x0B00218
/-- POOL_SWEEP_OP_CTRL (11 Table 11.7). -/
abbrev Reg.poolSweepOpCtrl : Nat := 0x0B00220
/-- POOL_SWEEP_OPSTAT (11 Table 11.7). -/
abbrev Reg.poolSweepOpstat : Nat := 0x0B00224
/-- POOL_SWEEP_OP_PARTIAL (11 R238). -/
abbrev Reg.poolSweepOpPartial (i : Nat) : Nat := 0x0B00228 + 0x4 * i
/-- VOQ_CTRL (11 Table 11.8). -/
abbrev Reg.voqCtrl : Nat := 0x0B80000
/-- VOQ_HOLD_CFG (11 R247). -/
abbrev Reg.voqHoldCfg : Nat := 0x0B80004
/-- VOQ_EXP_CFG (11 R244). -/
abbrev Reg.voqExpCfg : Nat := 0x0B80008
/-- VOQ_MAP_SEL (11 Table 11.9 R239). -/
abbrev Reg.voqMapSel : Nat := 0x0B80100
/-- VOQ_MAP_CFG (11 Table 11.9). -/
abbrev Reg.voqMapCfg : Nat := 0x0B80104
/-- VOQ_MAP_STATE (11 Table 11.9 R241). -/
abbrev Reg.voqMapState : Nat := 0x0B80108
/-- VOQ_Q_SEL (11 Table 11.10). -/
abbrev Reg.voqQSel : Nat := 0x0B80140
/-- VOQ_Q_CELLS (11 Table 11.10). -/
abbrev Reg.voqQCells : Nat := 0x0B80144
/-- VOQ_Q_BALANCE (11 Table 11.10). -/
abbrev Reg.voqQBalance : Nat := 0x0B80148
/-- VOQ_Q_ID (11 Table 11.10). -/
abbrev Reg.voqQId : Nat := 0x0B8014C
/-- VOQ_NOMAP_DROP (11 Table 11.12). -/
abbrev Reg.voqNomapDrop : Nat := 0x0B80300
/-- VOQ_ADMIT_DROP (11 Table 11.12). -/
abbrev Reg.voqAdmitDrop : Nat := 0x0B80304
/-- VOQ_DOWN_DROP (11 Table 11.12). -/
abbrev Reg.voqDownDrop : Nat := 0x0B80308
/-- VOQ_FLUSH_DROP (11 Table 11.12). -/
abbrev Reg.voqFlushDrop : Nat := 0x0B8030C
/-- VOQ_CT_STARTS (11 Table 11.12). -/
abbrev Reg.voqCtStarts : Nat := 0x0B80310
/-- VOQ_CT_LEN_MISMATCH (11 Table 11.12). -/
abbrev Reg.voqCtLenMismatch : Nat := 0x0B80314
/-- VOQ_CT_STOMP (11 Table 11.12). -/
abbrev Reg.voqCtStomp : Nat := 0x0B80318
/-- VOQ_CT_UNDERRUN (11 Table 11.12). -/
abbrev Reg.voqCtUnderrun : Nat := 0x0B8031C
/-- VOQ_EQ_BAD (11 Table 11.12). -/
abbrev Reg.voqEqBad : Nat := 0x0B80320
/-- VOQ_MC_NOCOPY (11 Table 11.12). -/
abbrev Reg.voqMcNocopy (i : Nat) : Nat := 0x0B80400 + 0x4 * i
/-- VOQ_THR_W0 (11 Table 11.9 R240). -/
abbrev Reg.voqThrW0 (i : Nat) : Nat := 0x0B80800 + 0x10 * i
/-- VOQ_THR_W1 (11 Table 11.9). -/
abbrev Reg.voqThrW1 (i : Nat) : Nat := 0x0B80804 + 0x10 * i
/-- VOQ_THR_W2 (11 Table 11.9). -/
abbrev Reg.voqThrW2 (i : Nat) : Nat := 0x0B80808 + 0x10 * i
/-- VOQ_PORT_CFG (11 Table 11.11). -/
abbrev Reg.voqPortCfg (i : Nat) : Nat := 0x0B81000 + 0x4 * i
/-- ALM_CTRL (12 Table 12.3). -/
abbrev Reg.almCtrl : Nat := 0x0C00000
/-- ALM_EXP_CFG (12 Table 12.4). -/
abbrev Reg.almExpCfg : Nat := 0x0C00004
/-- ALM_COMMIT (02 Table 02.7 R264). -/
abbrev Reg.almCommit : Nat := 0x0C00008
/-- ALM_PROF_SEL (12 Table 12.5). -/
abbrev Reg.almProfSel : Nat := 0x0C00010
/-- ALM_PROF_DATA (12 Table 12.5). -/
abbrev Reg.almProfData (i : Nat) : Nat := 0x0C00020 + 0x4 * i
/-- ALM_NODE_SEL (12 Table 12.7 R253). -/
abbrev Reg.almNodeSel : Nat := 0x0C00060
/-- ALM_NODE_CFG0 (12 Table 12.7). -/
abbrev Reg.almNodeCfg0 : Nat := 0x0C00064
/-- ALM_NODE_CFG1 (12 Table 12.7). -/
abbrev Reg.almNodeCfg1 : Nat := 0x0C00068
/-- ALM_NODE_TOKENS (12 Table 12.7). -/
abbrev Reg.almNodeTokens : Nat := 0x0C0006C
/-- ALM_NODE_RANGE_LO (12 Table 12.7 R252). -/
abbrev Reg.almNodeRangeLo : Nat := 0x0C00070
/-- ALM_NODE_RANGE_HI (12 Table 12.7 R252). -/
abbrev Reg.almNodeRangeHi : Nat := 0x0C00074
/-- ALM_NODE_AVG (12 Table 12.7). -/
abbrev Reg.almNodeAvg : Nat := 0x0C00078
/-- ALM_POL_SEL (12 Table 12.8). -/
abbrev Reg.almPolSel : Nat := 0x0C00080
/-- ALM_POL_CFG (12 Table 12.8 R265). -/
abbrev Reg.almPolCfg : Nat := 0x0C00084
/-- ALM_POL_TOK_C (12 Table 12.8). -/
abbrev Reg.almPolTokC : Nat := 0x0C00088
/-- ALM_POL_TOK_E (12 Table 12.8). -/
abbrev Reg.almPolTokE : Nat := 0x0C0008C
/-- ALM_GATE_ENT_SEL (12 Table 12.9). -/
abbrev Reg.almGateEntSel : Nat := 0x0C00100
/-- ALM_GATE_ENT_GATES (12 Table 12.9). -/
abbrev Reg.almGateEntGates : Nat := 0x0C00104
/-- ALM_GATE_ENT_INTERVAL (12 Table 12.9). -/
abbrev Reg.almGateEntInterval : Nat := 0x0C00108
/-- ALM_TAIL_DROP (12 Table 12.10). -/
abbrev Reg.almTailDrop : Nat := 0x0C00200
/-- ALM_WRED_DROP (12 Table 12.10). -/
abbrev Reg.almWredDrop : Nat := 0x0C00204
/-- ALM_POL_RED_DROP (12 Table 12.10). -/
abbrev Reg.almPolRedDrop : Nat := 0x0C00208
/-- ALM_CREDIT_LOST (12 Table 12.10). -/
abbrev Reg.almCreditLost : Nat := 0x0C0020C
/-- ALM_WHEEL_PARK (12 Table 12.10). -/
abbrev Reg.almWheelPark : Nat := 0x0C00210
/-- ALM_NET_CLASS (12 R254). -/
abbrev Reg.almNetClass (i : Nat) : Nat := 0x0C00800 + 0x4 * i
/-- ALM_PON_CREDIT (12 R259). -/
abbrev Reg.almPonCredit (i : Nat) : Nat := 0x0C00C00 + 0x4 * i
/-- ALM_GATE_CFG (12 Table 12.11). -/
abbrev Reg.almGateCfg (i : Nat) : Nat := 0x0C01000 + 0x40 * i
/-- ALM_GATE_ADMIN_BASE_NS (12 Table 12.11). -/
abbrev Reg.almGateAdminBaseNs (i : Nat) : Nat := 0x0C01004 + 0x40 * i
/-- ALM_GATE_ADMIN_BASE_SEC_LO (12 Table 12.11). -/
abbrev Reg.almGateAdminBaseSecLo (i : Nat) : Nat := 0x0C01008 + 0x40 * i
/-- ALM_GATE_ADMIN_BASE_SEC_HI (12 Table 12.11). -/
abbrev Reg.almGateAdminBaseSecHi (i : Nat) : Nat := 0x0C0100C + 0x40 * i
/-- ALM_GATE_ADMIN_CYCLE_NS (12 Table 12.11). -/
abbrev Reg.almGateAdminCycleNs (i : Nat) : Nat := 0x0C01010 + 0x40 * i
/-- ALM_GATE_ADMIN_LEN (12 Table 12.11). -/
abbrev Reg.almGateAdminLen (i : Nat) : Nat := 0x0C01014 + 0x40 * i
/-- ALM_GATE_CTRL (12 Table 12.11 R269). -/
abbrev Reg.almGateCtrl (i : Nat) : Nat := 0x0C0101C + 0x40 * i
/-- ALM_GATE_STATUS (12 Table 12.11). -/
abbrev Reg.almGateStatus (i : Nat) : Nat := 0x0C01020 + 0x40 * i
/-- ALM_GATE_LATE_START (12 Table 12.11). -/
abbrev Reg.almGateLateStart (i : Nat) : Nat := 0x0C01024 + 0x40 * i
/-- ALM_GATE_T0_NS (12 Table 12.11). -/
abbrev Reg.almGateT0Ns (i : Nat) : Nat := 0x0C01028 + 0x40 * i
/-- ALM_GATE_T0_SEC_LO (12 Table 12.11). -/
abbrev Reg.almGateT0SecLo (i : Nat) : Nat := 0x0C0102C + 0x40 * i
/-- ALM_GATE_T0_SEC_HI (12 Table 12.11). -/
abbrev Reg.almGateT0SecHi (i : Nat) : Nat := 0x0C01030 + 0x40 * i
/-- ALM_GATE_OPER_CYCLE_NS (12 Table 12.11). -/
abbrev Reg.almGateOperCycleNs (i : Nat) : Nat := 0x0C01034 + 0x40 * i
/-- ALM_GATE_OVERSIZE_DROP (12 Table 12.11 R271). -/
abbrev Reg.almGateOversizeDrop (i : Nat) : Nat := 0x0C0103C + 0x40 * i
/-- RHB_CTRL (13 Table 13.10 R294). -/
abbrev Reg.rhbCtrl : Nat := 0x0D00000
/-- RHB_EXP_CFG (13 Table 13.11). -/
abbrev Reg.rhbExpCfg : Nat := 0x0D00004
/-- RHB_STATUS (13 Registers). -/
abbrev Reg.rhbStatus : Nat := 0x0D00008
/-- RHB_GRP_CFG (13 Table 13.12). -/
abbrev Reg.rhbGrpCfg (i : Nat) : Nat := 0x0D00100 + 0x20 * i
/-- RHB_GRP_LANES (13 Table 13.12). -/
abbrev Reg.rhbGrpLanes (i : Nat) : Nat := 0x0D00104 + 0x20 * i
/-- RHB_GRP_STATUS (13 Table 13.12). -/
abbrev Reg.rhbGrpStatus (i : Nat) : Nat := 0x0D00108 + 0x20 * i
/-- RHB_GRP_RX_OK (13 Table 13.12). -/
abbrev Reg.rhbGrpRxOk (i : Nat) : Nat := 0x0D0010C + 0x20 * i
/-- RHB_GRP_ACTIVE (13 Table 13.12). -/
abbrev Reg.rhbGrpActive (i : Nat) : Nat := 0x0D00110 + 0x20 * i
/-- RHB_GRP_SKEW (13 Table 13.12). -/
abbrev Reg.rhbGrpSkew (i : Nat) : Nat := 0x0D00114 + 0x20 * i
/-- RHB_GRP_LANE_EN (13 Table 13.12). -/
abbrev Reg.rhbGrpLaneEn (i : Nat) : Nat := 0x0D00118 + 0x20 * i
/-- RHB_LANE_STATUS (13 Table 13.13). -/
abbrev Reg.rhbLaneStatus (i : Nat) : Nat := 0x0D00400 + 0x10 * i
/-- RHB_LANE_FEC_CORR (13 Table 13.13). -/
abbrev Reg.rhbLaneFecCorr (i : Nat) : Nat := 0x0D00404 + 0x10 * i
/-- RHB_LANE_FEC_UNCORR (13 Table 13.13). -/
abbrev Reg.rhbLaneFecUncorr (i : Nat) : Nat := 0x0D00408 + 0x10 * i
/-- RHB_LANE_HCS_ERR (13 Table 13.13). -/
abbrev Reg.rhbLaneHcsErr (i : Nat) : Nat := 0x0D0040C + 0x10 * i
/-- RHB_LABEL_BAD (13 Table 13.14). -/
abbrev Reg.rhbLabelBad : Nat := 0x0D00800
/-- RHB_MISROUTE (13 Table 13.14). -/
abbrev Reg.rhbMisroute : Nat := 0x0D00804
/-- RHB_MODE_DROP (13 Table 13.14). -/
abbrev Reg.rhbModeDrop : Nat := 0x0D00808
/-- RHB_NOREACH_DROP (13 Table 13.14). -/
abbrev Reg.rhbNoreachDrop : Nat := 0x0D0080C
/-- RHB_SEQ_GAP (13 Table 13.14). -/
abbrev Reg.rhbSeqGap : Nat := 0x0D00810
/-- RHB_REASM_DROP (13 Table 13.14). -/
abbrev Reg.rhbReasmDrop : Nat := 0x0D00814
/-- RHB_RESEQ_LOSS (13 Table 13.14). -/
abbrev Reg.rhbReseqLoss : Nat := 0x0D00818
/-- RHB_RESEQ_DISCARD (13 Table 13.14). -/
abbrev Reg.rhbReseqDiscard : Nat := 0x0D0081C
/-- RHB_UNCHARGED (13 Table 13.14). -/
abbrev Reg.rhbUncharged : Nat := 0x0D00820
/-- RHB_REACH (13 R285 R286). -/
abbrev Reg.rhbReach (i : Nat) : Nat := 0x0D01000 + 0x4 * i
/-- NET_CTRL (14 Registers). -/
abbrev Reg.netCtrl : Nat := 0x0E00000
/-- NET_PORT_CFG (14 Table 14.2). -/
abbrev Reg.netPortCfg (i : Nat) : Nat := 0x0E01000 + 0x1000 * i
/-- NET_PERSONALITY (14 R295). -/
abbrev Reg.netPersonality (i : Nat) : Nat := 0x0E01004 + 0x1000 * i
/-- NET_PORT_STATUS (14 Table 14.3). -/
abbrev Reg.netPortStatus (i : Nat) : Nat := 0x0E01008 + 0x1000 * i
/-- NET_FC_CFG (14 Table 14.4). -/
abbrev Reg.netFcCfg (i : Nat) : Nat := 0x0E01010 + 0x1000 * i
/-- NET_FC_LOSSY (14 Table 14.5). -/
abbrev Reg.netFcLossy (i : Nat) : Nat := 0x0E01018 + 0x1000 * i
/-- NET_PFC_THR (14 Table 14.5). -/
abbrev Reg.netPfcThr (i j : Nat) : Nat := 0x0E01020 + 0x1000 * i + 0x4 * j
/-- NET_SEC_CFG (14 Table 14.5). -/
abbrev Reg.netSecCfg (i : Nat) : Nat := 0x0E01100 + 0x1000 * i
/-- NET_SEC_REPLAY_WIN (14 Table 14.5). -/
abbrev Reg.netSecReplayWin (i : Nat) : Nat := 0x0E01104 + 0x1000 * i
/-- NET_SEC_TX_SCI_LO (14 Table 14.5). -/
abbrev Reg.netSecTxSciLo (i : Nat) : Nat := 0x0E01108 + 0x1000 * i
/-- NET_SEC_TX_SCI_HI (14 Table 14.5). -/
abbrev Reg.netSecTxSciHi (i : Nat) : Nat := 0x0E0110C + 0x1000 * i
/-- NET_SEC_SA_SEL (14 Table 14.5 R305). -/
abbrev Reg.netSecSaSel (i : Nat) : Nat := 0x0E01110 + 0x1000 * i
/-- NET_SEC_SA_KEY (14 Table 14.5). -/
abbrev Reg.netSecSaKey (i j : Nat) : Nat := 0x0E01120 + 0x1000 * i + 0x4 * j
/-- NET_SEC_SA_SALT (14 Table 14.5). -/
abbrev Reg.netSecSaSalt (i j : Nat) : Nat := 0x0E01140 + 0x1000 * i + 0x4 * j
/-- NET_SEC_SA_SSCI (14 Table 14.5). -/
abbrev Reg.netSecSaSsci (i : Nat) : Nat := 0x0E0114C + 0x1000 * i
/-- NET_SEC_SA_PN_LO (14 Table 14.5). -/
abbrev Reg.netSecSaPnLo (i : Nat) : Nat := 0x0E01150 + 0x1000 * i
/-- NET_SEC_SA_PN_HI (14 Table 14.5). -/
abbrev Reg.netSecSaPnHi (i : Nat) : Nat := 0x0E01154 + 0x1000 * i
/-- NET_SEC_SA_INFO (14 Table 14.5). -/
abbrev Reg.netSecSaInfo (i : Nat) : Nat := 0x0E01158 + 0x1000 * i
/-- NET_SEC_PN_THRESH (14 Table 14.5 R306). -/
abbrev Reg.netSecPnThresh (i : Nat) : Nat := 0x0E0115C + 0x1000 * i
/-- NET_SEC_RXSC_SCI_LO (14 Table 14.5). -/
abbrev Reg.netSecRxscSciLo (i : Nat) : Nat := 0x0E01160 + 0x1000 * i
/-- NET_SEC_RXSC_SCI_HI (14 Table 14.5). -/
abbrev Reg.netSecRxscSciHi (i : Nat) : Nat := 0x0E01164 + 0x1000 * i
/-- NET_SEC_RXSC_CTRL (14 Table 14.5 R307). -/
abbrev Reg.netSecRxscCtrl (i : Nat) : Nat := 0x0E01168 + 0x1000 * i
/-- NET_RX_FRAMES (14 Table 14.6). -/
abbrev Reg.netRxFrames (i : Nat) : Nat := 0x0E01200 + 0x1000 * i
/-- NET_TX_FRAMES (14 Table 14.6). -/
abbrev Reg.netTxFrames (i : Nat) : Nat := 0x0E01204 + 0x1000 * i
/-- NET_RX_RUNT (14 Table 14.6). -/
abbrev Reg.netRxRunt (i : Nat) : Nat := 0x0E01208 + 0x1000 * i
/-- NET_RX_OVERSIZE (14 Table 14.6). -/
abbrev Reg.netRxOversize (i : Nat) : Nat := 0x0E0120C + 0x1000 * i
/-- NET_RX_FCS_ERR (14 Table 14.6). -/
abbrev Reg.netRxFcsErr (i : Nat) : Nat := 0x0E01210 + 0x1000 * i
/-- NET_FEC_CORR (14 Table 14.6). -/
abbrev Reg.netFecCorr (i : Nat) : Nat := 0x0E01214 + 0x1000 * i
/-- NET_FEC_UNCORR (14 Table 14.6). -/
abbrev Reg.netFecUncorr (i : Nat) : Nat := 0x0E01218 + 0x1000 * i
/-- NET_FC_RX (14 Table 14.6). -/
abbrev Reg.netFcRx (i : Nat) : Nat := 0x0E0121C + 0x1000 * i
/-- NET_FC_TX (14 Table 14.6). -/
abbrev Reg.netFcTx (i : Nat) : Nat := 0x0E01220 + 0x1000 * i
/-- NET_LINK_DOWNS (14 Table 14.6). -/
abbrev Reg.netLinkDowns (i : Nat) : Nat := 0x0E01224 + 0x1000 * i
/-- NET_SEC_RX_UNTAGGED (14 Table 14.6). -/
abbrev Reg.netSecRxUntagged (i : Nat) : Nat := 0x0E01228 + 0x1000 * i
/-- NET_SEC_RX_NOSA (14 Table 14.6). -/
abbrev Reg.netSecRxNosa (i : Nat) : Nat := 0x0E0122C + 0x1000 * i
/-- NET_SEC_RX_LATE (14 Table 14.6). -/
abbrev Reg.netSecRxLate (i : Nat) : Nat := 0x0E01230 + 0x1000 * i
/-- NET_SEC_RX_BADICV (14 Table 14.6). -/
abbrev Reg.netSecRxBadicv (i : Nat) : Nat := 0x0E01234 + 0x1000 * i
/-- NET_SEC_TX_PN_EXH (14 Table 14.6). -/
abbrev Reg.netSecTxPnExh (i : Nat) : Nat := 0x0E01238 + 0x1000 * i
/-- LHT_CTRL (15 Table 15.6). -/
abbrev Reg.lhtCtrl : Nat := 0x0F00000
/-- LHT_EXP_CFG (15 Table 15.7). -/
abbrev Reg.lhtExpCfg : Nat := 0x0F00004
/-- LHT_PAIR_ID (15 Table 15.8). -/
abbrev Reg.lhtPairId : Nat := 0x0F00008
/-- LHT_PEER_DEV (15 Table 15.8). -/
abbrev Reg.lhtPeerDev : Nat := 0x0F0000C
/-- LHT_STATUS (15 Table 15.8). -/
abbrev Reg.lhtStatus : Nat := 0x0F00010
/-- LHT_HEALTH_LOCAL (15 Table 15.8 R327). -/
abbrev Reg.lhtHealthLocal : Nat := 0x0F00014
/-- LHT_HEALTH_PEER (15 Table 15.8 R327). -/
abbrev Reg.lhtHealthPeer : Nat := 0x0F00018
/-- LHT_SNAP_GEN (15 Table 15.8). -/
abbrev Reg.lhtSnapGen : Nat := 0x0F0001C
/-- LHT_INC_SEQ (15 Table 15.8). -/
abbrev Reg.lhtIncSeq : Nat := 0x0F00020
/-- LHT_MAC_SA_LO (15 Table 15.8). -/
abbrev Reg.lhtMacSaLo : Nat := 0x0F00024
/-- LHT_MAC_SA_HI (15 Table 15.8). -/
abbrev Reg.lhtMacSaHi : Nat := 0x0F00028
/-- LHT_MAC_DA_LO (15 Table 15.8). -/
abbrev Reg.lhtMacDaLo : Nat := 0x0F0002C
/-- LHT_MAC_DA_HI (15 Table 15.8). -/
abbrev Reg.lhtMacDaHi : Nat := 0x0F00030
/-- LHT_SYNC_OP_CTRL (15 Table 15.9). -/
abbrev Reg.lhtSyncOpCtrl : Nat := 0x0F00040
/-- LHT_SYNC_OPSTAT (15 Table 15.9). -/
abbrev Reg.lhtSyncOpstat : Nat := 0x0F00044
/-- LHT_SYNC_OP_PARTIAL (15 R315). -/
abbrev Reg.lhtSyncOpPartial (i : Nat) : Nat := 0x0F00048 + 0x4 * i
/-- LHT_PRE_PORT_W0 (15 Table 15.10). -/
abbrev Reg.lhtPrePortW0 (i : Nat) : Nat := 0x0F00100 + 0x8 * i
/-- LHT_PRE_PORT_W1 (15 Table 15.10). -/
abbrev Reg.lhtPrePortW1 (i : Nat) : Nat := 0x0F00104 + 0x8 * i
/-- LHT_HB_RX_LH (15 Table 15.11). -/
abbrev Reg.lhtHbRxLh : Nat := 0x0F00200
/-- LHT_HB_RX_RHB (15 Table 15.11). -/
abbrev Reg.lhtHbRxRhb : Nat := 0x0F00204
/-- LHT_HB_BAD (15 Table 15.11). -/
abbrev Reg.lhtHbBad : Nat := 0x0F00208
/-- LHT_INC_GAP (15 Table 15.11). -/
abbrev Reg.lhtIncGap : Nat := 0x0F0020C
/-- LHT_MAP_LATE (15 Table 15.11). -/
abbrev Reg.lhtMapLate : Nat := 0x0F00210
/-- LHT_TAKEOVERS (15 Table 15.11). -/
abbrev Reg.lhtTakeovers : Nat := 0x0F00214
/-- MER_CTRL (16 Table 16.2). -/
abbrev Reg.merCtrl : Nat := 0x1000000
/-- MER_EXP_CFG (16 Table 16.3). -/
abbrev Reg.merExpCfg : Nat := 0x1000004
/-- MER_STATUS (16 Table 16.5). -/
abbrev Reg.merStatus : Nat := 0x1000008
/-- MER_GROUP (16 Table 16.5). -/
abbrev Reg.merGroup : Nat := 0x100000C
/-- MER_MGMT_DA_LO (16 Table 16.5). -/
abbrev Reg.merMgmtDaLo : Nat := 0x1000010
/-- MER_MGMT_DA_HI (16 Table 16.5). -/
abbrev Reg.merMgmtDaHi : Nat := 0x1000014
/-- MER_MGMT_SA_LO (16 Table 16.5). -/
abbrev Reg.merMgmtSaLo : Nat := 0x1000018
/-- MER_MGMT_SA_HI (16 Table 16.5). -/
abbrev Reg.merMgmtSaHi : Nat := 0x100001C
/-- MER_FAN_WR_OFF (16 Table 16.5). -/
abbrev Reg.merFanWrOff (i : Nat) : Nat := 0x1000100 + 0x8 * i
/-- MER_FAN_WR_VAL (16 Table 16.5). -/
abbrev Reg.merFanWrVal (i : Nat) : Nat := 0x1000104 + 0x8 * i
/-- MER_FAN_CMD (16 Table 16.5 R332). -/
abbrev Reg.merFanCmd : Nat := 0x1000140
/-- MER_FAN_DEST (16 Table 16.5). -/
abbrev Reg.merFanDest : Nat := 0x1000144
/-- MER_FAN_STATUS (16 Table 16.5). -/
abbrev Reg.merFanStatus : Nat := 0x1000148
/-- MER_FAN_DONE (16 Table 16.5). -/
abbrev Reg.merFanDone : Nat := 0x100014C
/-- MER_TGT_RESUME (16 Table 16.5 R333). -/
abbrev Reg.merTgtResume : Nat := 0x1000150
/-- MER_TIME_CFG (16 Table 16.5 R337). -/
abbrev Reg.merTimeCfg : Nat := 0x1000200
/-- MER_TIME_RES (16 Table 16.5 R337). -/
abbrev Reg.merTimeRes (i j : Nat) : Nat := 0x1000240 + 0x10 * i + 0x4 * j
/-- MER_EVT_FWD_LO (16 Table 16.5 R340). -/
abbrev Reg.merEvtFwdLo : Nat := 0x1000300
/-- MER_EVT_FWD_HI (16 Table 16.5 R340). -/
abbrev Reg.merEvtFwdHi : Nat := 0x1000304
/-- MER_COLL_OFF (16 Table 16.5 R339). -/
abbrev Reg.merCollOff (i : Nat) : Nat := 0x1000400 + 0x4 * i
/-- MER_COLL_ADDR_LO (16 Table 16.5). -/
abbrev Reg.merCollAddrLo : Nat := 0x1000420
/-- MER_COLL_ADDR_HI (16 Table 16.5). -/
abbrev Reg.merCollAddrHi : Nat := 0x1000424
/-- MER_COLL_CMD (16 Table 16.5 R339). -/
abbrev Reg.merCollCmd : Nat := 0x1000428
/-- MER_COLL_STATUS (16 Table 16.5). -/
abbrev Reg.merCollStatus : Nat := 0x100042C
/-- MER_MSG_BAD (16 Table 16.5). -/
abbrev Reg.merMsgBad : Nat := 0x1000500
/-- MER_RETX (16 Table 16.5). -/
abbrev Reg.merRetx : Nat := 0x1000504
/-- MER_UNREACHED (16 Table 16.5). -/
abbrev Reg.merUnreached : Nat := 0x1000508
/-- MER_FAN_REFUSED (16 Table 16.5). -/
abbrev Reg.merFanRefused : Nat := 0x100050C
/-- MER_EVT_LOST (16 Table 16.5). -/
abbrev Reg.merEvtLost : Nat := 0x1000510
/-- MER_TGT (16 Table 16.5). -/
abbrev Reg.merTgt (i : Nat) : Nat := 0x1001000 + 0x4 * i
/-- MER_WP_RESULT_W0 (16 Table 16.5 R336). -/
abbrev Reg.merWpResultW0 (i : Nat) : Nat := 0x1002000 + 0x8 * i
/-- MER_WP_RESULT_W1 (16 Table 16.5 R336). -/
abbrev Reg.merWpResultW1 (i : Nat) : Nat := 0x1002004 + 0x8 * i
/-- CHK_CTRL (17 Table 17.3). -/
abbrev Reg.chkCtrl : Nat := 0x1100000
/-- CHK_ERR_HDR (17 Table 17.4 R347). -/
abbrev Reg.chkErrHdr : Nat := 0x1100010
/-- CHK_ERR_ADDR_LO (17 Table 17.4). -/
abbrev Reg.chkErrAddrLo : Nat := 0x1100014
/-- CHK_ERR_ADDR_HI (17 Table 17.4). -/
abbrev Reg.chkErrAddrHi : Nat := 0x1100018
/-- CHK_ERR_TS (17 Table 17.4). -/
abbrev Reg.chkErrTs : Nat := 0x110001C
/-- CHK_ERR_LEVEL (17 Table 17.4). -/
abbrev Reg.chkErrLevel : Nat := 0x1100020
/-- CHK_ERR_DROP (17 Table 17.4). -/
abbrev Reg.chkErrDrop : Nat := 0x1100024
/-- CHK_HBM_FRAME_DROP (17 Table 17.4). -/
abbrev Reg.chkHbmFrameDrop : Nat := 0x1100028
/-- CHK_Q_LOST (17 Table 17.4). -/
abbrev Reg.chkQLost : Nat := 0x110002C
/-- CHK_INJ (17 Table 17.4 R348). -/
abbrev Reg.chkInj : Nat := 0x1100040
/-- CHK_MEM_CORR (17 Table 17.4). -/
abbrev Reg.chkMemCorr (i : Nat) : Nat := 0x1100080 + 0x8 * i
/-- CHK_MEM_UNCORR (17 Table 17.4). -/
abbrev Reg.chkMemUncorr (i : Nat) : Nat := 0x1100084 + 0x8 * i
/-- CHK_SRAM_REGION_W0 (17 Table 17.4). -/
abbrev Reg.chkSramRegionW0 (i : Nat) : Nat := 0x1100200 + 0x8 * i
/-- CHK_SRAM_REGION_W1 (17 Table 17.4). -/
abbrev Reg.chkSramRegionW1 (i : Nat) : Nat := 0x1100204 + 0x8 * i
/-- CHK_UNIT_CFG (17 Table 17.5 R349). -/
abbrev Reg.chkUnitCfg (i : Nat) : Nat := 0x1101000 + 0x100 * i
/-- CHK_UNIT_POLY_LO (17 Table 17.5). -/
abbrev Reg.chkUnitPolyLo (i : Nat) : Nat := 0x1101008 + 0x100 * i
/-- CHK_UNIT_POLY_HI (17 Table 17.5). -/
abbrev Reg.chkUnitPolyHi (i : Nat) : Nat := 0x110100C + 0x100 * i
/-- CHK_UNIT_INIT_LO (17 Table 17.5). -/
abbrev Reg.chkUnitInitLo (i : Nat) : Nat := 0x1101010 + 0x100 * i
/-- CHK_UNIT_INIT_HI (17 Table 17.5). -/
abbrev Reg.chkUnitInitHi (i : Nat) : Nat := 0x1101014 + 0x100 * i
/-- CHK_UNIT_XOROUT_LO (17 Table 17.5). -/
abbrev Reg.chkUnitXoroutLo (i : Nat) : Nat := 0x1101018 + 0x100 * i
/-- CHK_UNIT_XOROUT_HI (17 Table 17.5). -/
abbrev Reg.chkUnitXoroutHi (i : Nat) : Nat := 0x110101C + 0x100 * i
/-- CHK_UNIT_RUNNING_LO (17 Table 17.5 R351). -/
abbrev Reg.chkUnitRunningLo (i : Nat) : Nat := 0x1101020 + 0x100 * i
/-- CHK_UNIT_RUNNING_HI (17 Table 17.5 R351). -/
abbrev Reg.chkUnitRunningHi (i : Nat) : Nat := 0x1101024 + 0x100 * i
/-- CHK_UNIT_SEQ (17 Table 17.5). -/
abbrev Reg.chkUnitSeq (i : Nat) : Nat := 0x1101028 + 0x100 * i
/-- CHK_UNIT_FEED (17 Table 17.5 R350). -/
abbrev Reg.chkUnitFeed (i : Nat) : Nat := 0x110102C + 0x100 * i
/-- CHK_UNIT_FEED1 (17 Table 17.5 R350). -/
abbrev Reg.chkUnitFeed1 (i : Nat) : Nat := 0x1101030 + 0x100 * i
/-- CHK_UNIT_RESTART (17 Table 17.5 R350). -/
abbrev Reg.chkUnitRestart (i : Nat) : Nat := 0x1101034 + 0x100 * i
/-- CHK_UNIT_RESULT_LO (17 Table 17.5 R349). -/
abbrev Reg.chkUnitResultLo (i : Nat) : Nat := 0x1101038 + 0x100 * i
/-- CHK_UNIT_RESULT_HI (17 Table 17.5). -/
abbrev Reg.chkUnitResultHi (i : Nat) : Nat := 0x110103C + 0x100 * i
/-- CHK_UNIT_EXPECT_LO (17 Table 17.5 R353). -/
abbrev Reg.chkUnitExpectLo (i : Nat) : Nat := 0x1101040 + 0x100 * i
/-- CHK_UNIT_EXPECT_HI (17 Table 17.5 R353). -/
abbrev Reg.chkUnitExpectHi (i : Nat) : Nat := 0x1101044 + 0x100 * i
/-- CHK_UNIT_BYTES_LO (17 Table 17.5). -/
abbrev Reg.chkUnitBytesLo (i : Nat) : Nat := 0x1101048 + 0x100 * i
/-- CHK_UNIT_BYTES_HI (17 Table 17.5). -/
abbrev Reg.chkUnitBytesHi (i : Nat) : Nat := 0x110104C + 0x100 * i
/-- CHK_UNIT_STATUS (17 Table 17.5). -/
abbrev Reg.chkUnitStatus (i : Nat) : Nat := 0x1101050 + 0x100 * i
/-- CHK_SCAN_OP_CTRL (17 Table 17.5 R352). -/
abbrev Reg.chkScanOpCtrl (i : Nat) : Nat := 0x1101060 + 0x100 * i
/-- CHK_SCAN_OPSTAT (17 Table 17.5 R352). -/
abbrev Reg.chkScanOpstat (i : Nat) : Nat := 0x1101064 + 0x100 * i
/-- CHK_SCAN_OP_PARTIAL (17 Table 17.5 R352). -/
abbrev Reg.chkScanOpPartial (i j : Nat) : Nat := 0x1101068 + 0x100 * i + 0x4 * j
/-- CHK_SCAN_ADDR_LO (17 Table 17.5). -/
abbrev Reg.chkScanAddrLo (i : Nat) : Nat := 0x1101070 + 0x100 * i
/-- CHK_SCAN_ADDR_HI (17 Table 17.5). -/
abbrev Reg.chkScanAddrHi (i : Nat) : Nat := 0x1101074 + 0x100 * i
/-- CHK_SCAN_LEN_LO (17 Table 17.5). -/
abbrev Reg.chkScanLenLo (i : Nat) : Nat := 0x1101078 + 0x100 * i
/-- CHK_SCAN_LEN_HI (17 Table 17.5). -/
abbrev Reg.chkScanLenHi (i : Nat) : Nat := 0x110107C + 0x100 * i
/-- EVT_CTRL (18 Table 18.6). -/
abbrev Reg.evtCtrl : Nat := 0x1200000
/-- EVT_SUMMARY_LO (18 Table 18.7 R357). -/
abbrev Reg.evtSummaryLo : Nat := 0x1200040
/-- EVT_SUMMARY_HI (18 Table 18.7 R357). -/
abbrev Reg.evtSummaryHi : Nat := 0x1200044
/-- EVT_VEC_ACK (18 Table 18.7 R361). -/
abbrev Reg.evtVecAck : Nat := 0x1200048
/-- EVT_VEC_PEND_LO (18 Table 18.7 R361). -/
abbrev Reg.evtVecPendLo : Nat := 0x120004C
/-- EVT_VEC_PEND_HI (18 Table 18.7 R361). -/
abbrev Reg.evtVecPendHi : Nat := 0x1200050
/-- EVT_RING_BASE_LO (18 Table 18.7 R359). -/
abbrev Reg.evtRingBaseLo : Nat := 0x1200060
/-- EVT_RING_BASE_HI (18 Table 18.7 R359). -/
abbrev Reg.evtRingBaseHi : Nat := 0x1200064
/-- EVT_RING_SIZE (18 Table 18.7 R359). -/
abbrev Reg.evtRingSize : Nat := 0x1200068
/-- EVT_RING_HEAD (18 Table 18.7 R359). -/
abbrev Reg.evtRingHead : Nat := 0x120006C
/-- EVT_RING_CONS (18 Table 18.7 R359). -/
abbrev Reg.evtRingCons : Nat := 0x1200070
/-- EVT_RING_CFG (18 Table 18.7 R360). -/
abbrev Reg.evtRingCfg : Nat := 0x1200074
/-- EVT_BUF_LEVEL (18 Table 18.7). -/
abbrev Reg.evtBufLevel : Nat := 0x1200078
/-- EVT_BUF_DROP (18 Table 18.7 R358). -/
abbrev Reg.evtBufDrop : Nat := 0x120007C
/-- EVT_STATUS (18 Table 18.7 R356). -/
abbrev Reg.evtStatus (i : Nat) : Nat := 0x1200100 + 0x4 * i
/-- EVT_ENABLE (18 Table 18.7 R357). -/
abbrev Reg.evtEnable (i : Nat) : Nat := 0x1200200 + 0x4 * i
/-- EVT_ROUTE (18 Table 18.7 R358 R361). -/
abbrev Reg.evtRoute (i : Nat) : Nat := 0x1200300 + 0x4 * i
/-- OBS_LOG_CTRL (18 Table 18.8 R364). -/
abbrev Reg.obsLogCtrl : Nat := 0x1201000
/-- OBS_LOG_RING_BASE_LO (18 Table 18.8). -/
abbrev Reg.obsLogRingBaseLo : Nat := 0x1201004
/-- OBS_LOG_RING_BASE_HI (18 Table 18.8). -/
abbrev Reg.obsLogRingBaseHi : Nat := 0x1201008
/-- OBS_LOG_RING_SIZE (18 Table 18.8). -/
abbrev Reg.obsLogRingSize : Nat := 0x120100C
/-- OBS_LOG_RING_HEAD (18 Table 18.8). -/
abbrev Reg.obsLogRingHead : Nat := 0x1201010
/-- OBS_LOG_RING_TAIL (18 Table 18.8). -/
abbrev Reg.obsLogRingTail : Nat := 0x1201014
/-- OBS_LOG_OVERRUN (18 Table 18.8). -/
abbrev Reg.obsLogOverrun : Nat := 0x1201018
/-- OBS_LOG_NOBUF (18 Table 18.8). -/
abbrev Reg.obsLogNobuf : Nat := 0x120101C
/-- OBS_LOG_SEQ (18 Table 18.8). -/
abbrev Reg.obsLogSeq : Nat := 0x1201020
/-- OBS_CNT_SEL (18 Table 18.8 R363). -/
abbrev Reg.obsCntSel : Nat := 0x1201100
/-- OBS_CNT_DATA (18 Table 18.8 R363). -/
abbrev Reg.obsCntData (i : Nat) : Nat := 0x1201104 + 0x4 * i
/-- OBS_THR_CFG (18 Table 18.8 R365). -/
abbrev Reg.obsThrCfg (i : Nat) : Nat := 0x1201200 + 0x10 * i
/-- OBS_THR_LEVEL (18 Table 18.8 R365). -/
abbrev Reg.obsThrLevel (i : Nat) : Nat := 0x1201204 + 0x10 * i
/-- OBS_THR_COUNT_LO (18 Table 18.8 R365). -/
abbrev Reg.obsThrCountLo (i : Nat) : Nat := 0x1201208 + 0x10 * i
/-- OBS_THR_COUNT_HI (18 Table 18.8 R365). -/
abbrev Reg.obsThrCountHi (i : Nat) : Nat := 0x120120C + 0x10 * i
/-- OBS_SLOT_CLEAR (18 Table 18.8 R366). -/
abbrev Reg.obsSlotClear : Nat := 0x12013F0
/-- OBS_SLOT (18 Table 18.8 R366). -/
abbrev Reg.obsSlot (i j : Nat) : Nat := 0x1201400 + 0x40 * i + 0x4 * j
/-- OBS_SAMPLE_CFG (18 Table 18.8 R367). -/
abbrev Reg.obsSampleCfg (i : Nat) : Nat := 0x1201800 + 0x10 * i
/-- OBS_SAMPLE_N (18 Table 18.8 R367). -/
abbrev Reg.obsSampleN (i : Nat) : Nat := 0x1201804 + 0x10 * i
/-- OBS_SAMPLE_COUNT (18 Table 18.8 R367). -/
abbrev Reg.obsSampleCount (i : Nat) : Nat := 0x1201808 + 0x10 * i
/-- OBS_SAMPLE_DROP (18 Table 18.8 R367). -/
abbrev Reg.obsSampleDrop (i : Nat) : Nat := 0x120180C + 0x10 * i
/-- SEC_CTRL (19 Table 19.7). -/
abbrev Reg.secCtrl : Nat := 0x1300000
/-- SEC_STATUS (19 Table 19.8). -/
abbrev Reg.secStatus : Nat := 0x1300004
/-- SEC_DENIED (19 Table 19.9 R374). -/
abbrev Reg.secDenied : Nat := 0x1300008
/-- SEC_ERR_DROP (19 Table 19.9 R377). -/
abbrev Reg.secErrDrop : Nat := 0x130000C
/-- SEC_AUTH_CMD (19 Table 19.9 R373). -/
abbrev Reg.secAuthCmd : Nat := 0x1300010
/-- SEC_AUTH_STATUS (19 Table 19.9 R373). -/
abbrev Reg.secAuthStatus : Nat := 0x1300014
/-- SEC_AUTH_NONCE (19 Table 19.9 R373). -/
abbrev Reg.secAuthNonce (i : Nat) : Nat := 0x1300040 + 0x4 * i
/-- SEC_AUTH_DATA (19 Table 19.9 R373). -/
abbrev Reg.secAuthData (i : Nat) : Nat := 0x1300100 + 0x4 * i
/-- SEC_PAIR_KEY (19 Table 19.9 R375). -/
abbrev Reg.secPairKey (i : Nat) : Nat := 0x1300200 + 0x4 * i
/-- SEC_PAIR_CTRL (19 Table 19.9 R375). -/
abbrev Reg.secPairCtrl : Nat := 0x1300220
/-- SEC_PAIR_KCV (19 Table 19.9 R375). -/
abbrev Reg.secPairKcv : Nat := 0x1300224
/-- SEC_OTP_CFG (19 Table 19.9 R371). -/
abbrev Reg.secOtpCfg : Nat := 0x1300300
/-- SEC_OTP_PROG (19 Table 19.9 R371). -/
abbrev Reg.secOtpProg : Nat := 0x1300304
/-- SEC_OTP_PROG_STATUS (19 Table 19.9 R371). -/
abbrev Reg.secOtpProgStatus : Nat := 0x1300308
/-- SEC_OTP_KEYHASH (19 Table 19.9 R371). -/
abbrev Reg.secOtpKeyhash (i j : Nat) : Nat := 0x1300400 + 0x40 * i + 0x4 * j
/-- SEC_ZERO_OP_CTRL (19 Table 19.9 R378). -/
abbrev Reg.secZeroOpCtrl : Nat := 0x1300500
/-- SEC_ZERO_OPSTAT (19 Table 19.9 R378). -/
abbrev Reg.secZeroOpstat : Nat := 0x1300504
/-- SEC_ZERO_OP_PARTIAL (19 Table 19.9 R378). -/
abbrev Reg.secZeroOpPartial : Nat := 0x1300508
/-- SEC_SELFTEST (19 Table 19.9 R376). -/
abbrev Reg.secSelftest : Nat := 0x1300600

end Sys2Proof.Machine
end

