-- ==== Sys2Proof/Machine/SMap.lean ====
section
/-!
DEFINITION. Machine/SMap.lean: sparse tables. A table is a list of (key, value) pairs; an unlisted key reads as a
default `d key` that the reader names. Canonical form: keys strictly rising, no listed value equal to its default.
Every operation is structural recursion on the list.
-/
namespace Sys2Proof.Machine

/-- A sparse table from keys to values. -/
abbrev SMap (α : Type) := List (Nat × α)

/-- The value at key `k`: the first entry listed for it, else the default. -/
def SMap.get {α : Type} (d : Nat → α) : SMap α → Nat → α
  | [], k => d k
  | (k', v) :: m, k => if k' = k then v else SMap.get d m k

/-- The table without any entry for `k`. -/
def SMap.erase {α : Type} : SMap α → Nat → SMap α
  | [], _ => []
  | (k', v) :: m, k => if k' = k then SMap.erase m k else (k', v) :: SMap.erase m k

/-- The table with an entry for `k` put before the first larger key. -/
def SMap.insert {α : Type} : SMap α → Nat → α → SMap α
  | [], k, v => [(k, v)]
  | (k', v') :: m, k, v => if k < k' then (k, v) :: (k', v') :: m else (k', v') :: SMap.insert m k v

/-- The table after `k` takes `v`; a value equal to the default removes the entry, which keeps the form canonical. -/
def SMap.set {α : Type} [DecidableEq α] (d : Nat → α) (m : SMap α) (k : Nat) (v : α) : SMap α :=
  if v = d k then m.erase k else (m.erase k).insert k v

/-- The table after the value at `k` is changed by `f`. -/
def SMap.upd {α : Type} [DecidableEq α] (d : Nat → α) (m : SMap α) (k : Nat) (f : α → α) : SMap α :=
  m.set d k (f (m.get d k))

/-- Every key listed in the table is at least `lo`, the keys rise, and no value is its default. -/
def SMap.wfFrom {α : Type} [DecidableEq α] (d : Nat → α) : Nat → SMap α → Bool
  | _, [] => true
  | lo, (k, v) :: m => decide (lo ≤ k) && decide (v ≠ d k) && SMap.wfFrom d (k + 1) m

/-- The canonical form of a table. -/
def SMap.wf {α : Type} [DecidableEq α] (d : Nat → α) (m : SMap α) : Bool := SMap.wfFrom d 0 m

/-- The entries whose value satisfies `p`, in key order. -/
def SMap.listed {α : Type} (p : Nat → α → Bool) (m : SMap α) : List (Nat × α) :=
  m.filter fun e => p e.1 e.2

/-- Keep only the entries whose key satisfies `p`; the others return to their default. -/
def SMap.keep {α : Type} (p : Nat → Bool) (m : SMap α) : SMap α :=
  m.filter fun e => p e.1

/-- Every listed value changed by `f`; a value that becomes its default leaves the list. -/
def SMap.mapVals {α : Type} [DecidableEq α] (d : Nat → α) (f : α → α) (m : SMap α) : SMap α :=
  (m.map fun e => (e.1, f e.2)).filter fun e => decide (e.2 ≠ d e.1)

end Sys2Proof.Machine
end

