-- ==== Sys2Proof/Machine/State.lean ====
section
/-!
DEFINITION. Machine/State.lean: the state of the block as plain data. Each structure's defaults are its values after
cold reset (Tables 03.8 and 03.12). Registers are one sparse table keyed by BAR0 offset; what is no register has a field
of its own.
-/
namespace Sys2Proof.Machine

/-- Reasons a step can stop with a fault. No command of this block raises one: every failure the manual describes is
state (a FAIL, a refusal cause, an event, a drop count, SAFE). -/
inductive Fault where
  /-- Never raised; a closed type needs a name. Safe. -/
  | none
deriving DecidableEq, Repr

/-- Reasons a step can be refused. -/
inductive Refusal where
  /-- The command has no meaning yet, by its mnemonic. Raised by exec's refused arms only. Safe. -/
  | notModelled (mnemonic : String)
deriving DecidableEq, Repr

/-- What leaves the device, in order: the outbox. -/
inductive Output where
  /-- A posted write to host memory (R44, R359, R364). -/
  | hostWrite (addr : BitVec 64) (bytes : List Byte)
  /-- An MSI-X message of a vector (R361). -/
  | msix (vector : Nat)
  /-- A converted stamp (R80). -/
  | stamp (port : Nat) (st : Stamp)
  /-- A pulse on TIME_OUT, of a width in µs (R92). -/
  | ppsPulse (widthUs : Nat)
  /-- ToD bytes sent (R92). -/
  | todBytes (bytes : List Byte)
  /-- A Meridian message in a frame on a management port, before its FCS (R341). -/
  | meridian (port : Nat) (bytes : List Byte)
  /-- A Logbook export: its buffer, its 64-byte header, and the counters of the selected regions in ascending order; one
  not listed is 0 (R364). -/
  | logbook (addr : BitVec 64) (header : List Byte) (counters : List (Nat × BitVec 64))
  /-- A cell on a lane of a link group: its 16 header bytes and scrambled payload (R272, R273, R282). -/
  | cell (lane : Nat) (bytes : List Byte)
  /-- A lane marker (Table 13.4). -/
  | marker (lane : Nat) (bytes : List Byte)
  /-- A frame on a network or management port; `inverted` says its FCS is inverted, `sec` names the AN, PN and SCI that
  protect it (R246, R306). -/
  | ethernet (port : Nat) (bytes : List Byte) (inverted : Bool) (sec : Option (Nat × BitVec 64 × BitVec 64))
  /-- A PFC or PAUSE frame: enabled priorities and quanta (R303). -/
  | pfc (port : Nat) (enable : Nat) (quanta : List Nat)
  /-- The frame that a network or management port was sending is lost with the port (R248). -/
  | txLost (port : Nat)
  /-- What the transmitter of a port that is down sends: remote fault, or idle (R299). -/
  | netIdle (port : Nat) (remoteFault : Bool)
  /-- A downstream PON frame of channel j = 2n + c on its line: PSync with its superframe count, the frame header, the map's bursts in
  ascending StartTime, the PLOAM messages; the XGEM frames placed in it and idle fill follow (R103, R106, R108). -/
  | ponFrame (j sf : Nat) (line : DsLine) (header : List Byte) (map : List Burst) (ploam : List PloamMsg)
  /-- An XGEM frame placed in the frame in transmission: channel, byte position, port-ID, key index, LF, payload as the line carries it
  (R170, R171, R173). -/
  | xgem (j pos pid index : Nat) (lf : Bool) (bytes : List Byte)
  /-- Bytes of the frame in transmission that idle XGEM frames fill, from a position (R108). -/
  | xgemIdle (j pos bytes : Nat)
  /-- A low period of PON_BRST_N of a port, in ns of the PON time line (R116). -/
  | brst (n : Nat) (lo hi : Int)
  /-- A pulse of PON_RSSI_TRIG of a port: start in ns of the PON time line, and width (R118). -/
  | rssi (n : Nat) (start : Int) (width : Nat)
  /-- A frame on LH_PEER, before its FCS (R309). -/
  | lhPeer (bytes : List Byte)
  /-- State copy toward the peer on LH_PEER (R315, R316): 0 the stream, 1 the journal that follows it, 2 the increment numbered `seq`. -/
  | stateCopy (kind seq : Nat) (recs : List CopyRec)
  /-- A map copy toward the standby on LH_PEER (R319). -/
  | mapCopy (j f : Nat) (map : List Burst)
  /-- A PMBus VOUT_COMMAND to the VCORE regulator, in mV (R386). -/
  | vcore (mv : Nat)
  /-- PWR_EN[k] rises, or falls so many µs after PWR_EN[6] (R383, R384). -/
  | pwrEn (k : Nat) (on : Bool) (us : Nat)
  /-- PWR_OK (R383, R384). -/
  | pwrOk (high : Bool)
  /-- CAGE_GATE[ch] (Table 20.6). -/
  | cageGate (ch : Nat) (on : Bool)
  /-- SYNCE_OUT_A (0) or SYNCE_OUT_B (1) is held low, or runs again (R91). -/
  | synce (a : Nat) (runs : Bool)
deriving DecidableEq, Repr

/-- A load or the authentication of an image in progress (R28). `bytes` counts image bytes read over both passes. -/
structure LoadRun where
  flash : Bool
  len : Nat
  second : Bool := false
  hdr : Option ImgHeader := none
  dir : List DirEntry := []
  digest : BitVec 384 := 0
  bytes : Nat := 0
  body : ImageBody := {}
  applied : List Nat := []
deriving DecidableEq, Repr

/-- Where an image swap stands (Table 02.6). -/
inductive SwapPhase where
  | auth | loadSpare | paused | moving
deriving DecidableEq, Repr

/-- An image swap in progress. `len` is the source length, `k` the logical pipeline it works on. -/
structure SwapRun where
  flash : Bool
  len : Nat
  phase : SwapPhase := .auth
  k : Nat := 0
  img : Option ImageFile := none
  abort : Bool := false
deriving DecidableEq, Repr

/-- The structure a physical pipeline holds: parser graph, stage layout, action programs with their outer-header templates, and
the IMAGE_ID they came from (R31, R32). -/
structure PipeStruct where
  parse : ParseGraph := {}
  stages : List StageD := []
  actions : List ActionProg := []
  imageId : Word := 0
  templates : List (List Byte) := []
deriving DecidableEq, Repr

/-- A frame queued to the host, as the punt rings deliver it (Table 02.14). -/
structure Punt where
  ring : Nat
  frame : Frame
  reason : Nat
  extra : List Byte
deriving DecidableEq, Repr

/-- What HELM's PCIe configuration header reads (R43): vendor, device, revision, class code, subsystem vendor and subsystem. No
command changes it. -/
structure Pcie where
  vendor : Nat := 0x1F7A
  device : Nat := 0x7460
  revision : Nat := 0xB0
  classCode : Nat := 0x028000
  subVendor : Nat := 0x1F7A
  subsystem : Nat := 0x7460
deriving DecidableEq, Repr

/-- Modes, structure, image operations and HELM (chapters 02 and 03). -/
structure Dev where
  pcie : Pcie := {}
  mode : Mode := .load
  /-- An accepted transition: its target and its cause (IN_TRANSITION, R48). -/
  trans : Option (Mode × Nat) := none
  /-- The raw value at which it was accepted, and that of the latest takeover: triggers of one clock coincide (R52). -/
  transAt : Raw := 0
  tookAt : Option Raw := none
  structValid : Bool := false
  /-- An image load has completed with DONE since cold reset (Table 03.4). -/
  loadDone : Bool := false
  load : Option LoadRun := none
  swap : Option SwapRun := none
  /-- A logical pipeline whose move is being completed after its swap ended (R34). -/
  moving : Option Nat := none
  /-- The LENGTH of the flash directory's TYPE 3 entry as the Binnacle last read it; none without one (R30, R46). -/
  flashLen : Option Nat := none
  /-- The TARGET of a running memory BIST (R57). -/
  bist : Option Nat := none
  body : ImageBody := {}
  /-- The structures of the nine physical pipelines, by index. -/
  pipes : SMap PipeStruct := []
  /-- PERST_N is low (R61). -/
  perstLow : Bool := false
  /-- RESET_N, POWER_FAIL_N and ZEROIZE_N as the logic last saw them. -/
  powerFailLow : Bool := false
  zeroizeLow : Bool := false
  /-- The raw value at SAFE entry while the grace runs (R67). -/
  safeAt : Option Raw := none
  /-- The commissioning phase that runs, 0 for none, and whether in the short form (R56, R60). -/
  commPhase : Nat := 0
  commShort : Bool := false
  /-- The HBM stacks are trained (R56). -/
  hbmTrained : Bool := false
  /-- DEV_COMM_STATUS.DONE has been 1 since the last cold reset (R390). -/
  commOnce : Bool := false
  /-- The Binnacle signals that it is alive (R30, R385). -/
  binAlive : Bool := true
  /-- Frames queued to device port 72, oldest first. -/
  punts : List Punt := []
deriving DecidableEq, Repr

/-- The parameters of a view before its latest commit, and the raw value of that commit (R80). -/
structure ViewPrev where
  offset : BitVec 96 := 0
  rate : BitVec 40 := 0
  epoch : BitVec 96 := 0
  at' : Raw := 0
deriving DecidableEq, Repr

/-- An entry of a transmit time-stamp queue (Table 04.5). -/
structure TxStamp where
  tsId : BitVec 16
  port : Nat
  stamp : Stamp
deriving DecidableEq, Repr

/-- The armed state of a waypoint slot (R97): time in ns since the view's zero. -/
structure Armed where
  ns : Nat
  view : Nat
  action : Nat
  arg : Nat
  notify : Bool
  skip : Bool
deriving DecidableEq, Repr

/-- The Chronometer (chapter 04). -/
structure Chrono where
  prev : SMap ViewPrev := []
  /-- The raw value of the latest waypoint request for each switch: 1 charts, 3 Almanac, 4 Reckoner, 256 + m the gate list of
  network port m, 512 + scope key indices (R38, R177, R269). -/
  wpReq : SMap (Option Raw) := []
  /-- Transmit time-stamp queues, oldest first (R86). -/
  txts : SMap (List TxStamp) := []
  armed : SMap (Option Armed) := []
  /-- ToD bytes received, oldest first (R92). -/
  todIn : List Byte := []
  /-- ToD bytes to send, whether SEND has armed them, and after the pulse that follows the raw value at which they are sent (R92). -/
  todOut : List Byte := []
  todArmed : Bool := false
  todDue : Option Raw := none
  /-- The raw value at which a squelched SYNCE_OUT lost its source (R91). -/
  synceAt : SMap Raw := []
  /-- The raw value at which each pin's pulse ends; none without a pulse (R102). -/
  gpio : SMap (Option Raw) := []
  /-- The phase error of the frame timer, in units of 2^-16 / 8,000 ns (R93). -/
  ponErr : Int := 0
  /-- The superframe count of the frame in transmission, and the raw value of its PSync (R94). -/
  ponSf : Nat := 0
  psyncAt : Raw := 0
  /-- Upstream frames below this count are within REALIGN_HOLD of a REALIGN frame (R142). -/
  realignHold : Nat := 0
  /-- REALIGN waits for the next frame boundary (R95). -/
  realign : Bool := false
deriving DecidableEq, Repr

/-- An event record in the on-die buffer (Table 18.2, without PHASE). -/
structure EvRec where
  leaf : Nat
  fwd : Bool
  view : Nat
  ns32 : Word
  subns : Byte
  src : Nat
  seq : Word
  words : List Word
deriving DecidableEq, Repr

/-- A running Logbook export (R364). -/
structure LogRun where
  start : Raw
  regions : Nat
  clear : Bool
deriving DecidableEq, Repr

/-- Slot accounting of a physical pipeline (R366). `ahead` counts used slots whose clock has not yet passed. -/
structure Slots where
  clocks : Nat := 0
  retired : Nat := 0
  wasted : Nat := 0
  front : Nat := 0
  back : Nat := 0
  pend : Nat := 0
  ahead : Nat := 0
deriving DecidableEq, Repr

/-- A packet sampler (R367): frames still to pass before the next trigger, the sample sequence, and of a trigger whose capture waits
the pipeline and the pipeline's slot number. -/
structure Sampler where
  left : Nat := 0
  seq : Word := 0
  trig : Option (Nat × Nat) := none
deriving DecidableEq, Repr

/-- Events, counters and performance data (chapter 18). -/
structure Obs where
  buf : List EvRec := []
  seq : Word := 0
  /-- PHASE of the next record written (R359). -/
  phase : Bool := true
  /-- Records written since the ring's last message, and the raw value of the first of them (R360). -/
  since : Nat := 0
  firstAt : Option Raw := none
  ringReq : Bool := false
  /-- SENT bits of the vectors (R361). -/
  sent : BitVec 64 := 0
  /-- Counter memory: 64-bit counters keyed 2p + word (R362). -/
  cnt : SMap (BitVec 64) := []
  log : Option LogRun := none
  slots : SMap Slots := []
  samplers : SMap Sampler := []
  /-- The frame of the latest used slot of each pipeline, its pass number, and the slot's number (R367). -/
  inSlot : SMap (Option (Frame × Nat × Nat)) := []
deriving DecidableEq, Repr

/-- A record of the memory error log (Table 17.4). -/
structure ErrRec where
  hdr : Word
  lo : Word
  hi : Word
  ts : Word
deriving DecidableEq, Repr

/-- The check-value units and the error log (chapter 17). -/
structure Chk where
  log : List ErrRec := []
  /-- Units whose scan runs: SRC and COMPARE. -/
  scan : SMap (Option (Nat × Bool)) := []
  /-- Erroneous symbols that an HBM slot of the cell region holds (R342, R348). -/
  damage : SMap Nat := []
deriving DecidableEq, Repr

/-- The OTP fuses (Table 19.3). A key-hash slot is none while blank. -/
structure Otp where
  keyHash : List (Option (BitVec 384)) := List.replicate 6 none
  revoked : BitVec 4 := 0
  imgSvnMin : Nat := 0
  fwSvnMin : Nat := 0
deriving DecidableEq, Repr

/-- A zeroisation in progress (R378). -/
structure ZeroRun where
  full : Bool
  step1 : Bool := false
deriving DecidableEq, Repr

/-- The certified security boundary (chapter 19). -/
structure Sec where
  otp : Otp := {}
  /-- 0 none, 1 CO, 2 User (Table 19.8). -/
  role : Nat := 0
  nonce : Option (BitVec 384) := none
  fails : Nat := 0
  /-- The raw value at which a lockout began (R373). -/
  locked : Option Raw := none
  /-- SEC_AUTH_DATA and SEC_PAIR_KEY as written (WO). -/
  authData : SMap Word := []
  pairData : SMap Word := []
  pairKey : Option (BitVec 256) := none
  error : Bool := false
  nonApproved : Bool := false
  zeroized : Bool := false
  approvedTests : Bool := false
  zero : Option ZeroRun := none
  /-- Generate requests since the DRBG was last reseeded (Table 19.2). -/
  drbg : Nat := 0
  /-- An OTP request being programmed: OP, SLOT, VALUE and the key hash to write. -/
  otpBusy : Option (Nat × Nat × Nat × BitVec 384) := none
deriving DecidableEq, Repr

/-- A cage channel (Table 20.6). -/
inductive CageState where
  | off | starting | on | retryWait | latched | reversed
deriving DecidableEq, Repr

structure Cage where
  st : CageState := .off
  isOpen : Bool := false
  retries : Nat := 0
  trips : Nat := 0
deriving DecidableEq, Repr

/-- What the Binnacle is doing (Tables 20.3 and 20.4). -/
inductive BinPhase where
  /-- Stopped: VIN_12 below its start, firmware refused, or halted after repeated faults or a thermal shutdown. -/
  | stopped
  | halted
  /-- Checking the reference clocks (Table 20.3 step 1). -/
  | refclk
  /-- Raising rail k (steps 2 and 3). -/
  | raising (k : Nat)
  /-- PWR_OK is high. -/
  | up
  /-- Rails removed, waiting to restart. -/
  | waiting
deriving DecidableEq, Repr

/-- The Binnacle domain (chapter 20). -/
structure Pwr where
  phase : BinPhase := .up
  /-- Enabled rails, and start-up faults since the last start. -/
  railsOn : Nat := 7
  startFaults : Nat := 0
  /-- The Binnacle's own times, in ms, of the rail faults within the last 60 s (R385). -/
  faultTimes : List Nat := []
  /-- A rail fault has scheduled the removal of the rails (R385). -/
  removeDue : Bool := false
  /-- The Binnacle drives POWER_FAIL_N low. -/
  driven : Bool := false
  /-- A restart after a fault is a Binnacle cold reset (R385). -/
  afterFault : Bool := false
  /-- Temperature warnings raised and not re-armed, by sensor. -/
  warned : SMap Bool := []
  cages : SMap Cage := []
  vcore : Nat := 800
deriving DecidableEq, Repr

/-- A Meridian device as this one hears it (R329): what its latest ANNOUNCE says, when that came, and whether through a
management port. -/
structure Heard where
  tier : Nat := 0
  prio : Nat := 0
  role : Nat := 0
  strap : Nat := 0
  group : Nat := 0
  safe : Bool := false
  standby : Bool := false
  at' : Raw := 0
  mgmt : Bool := false
deriving DecidableEq, Repr

/-- What a target of the manager has outstanding (R333): the next SEQ, the message in flight with its resends and the
raw value at which it last left, the messages waiting, oldest first. -/
structure Target where
  seq : Nat := 0
  unreached : Bool := false
  refused : Bool := false
  flight : Option (MerMsg × Nat × Raw) := none
  queue : List MerBody := []
deriving DecidableEq, Repr

/-- Meridian (chapter 16). MER_STRAP is pulled up (chapter 20). -/
structure Mer where
  strap : Nat := 3
  role : Nat := 0
  mgr : Option Nat := none
  standby : Option Nat := none
  /-- The NONCE of the current manager as messages carry it. -/
  nonce : Nat := 0
  /-- The pair (manager, NONCE) last seen, the next SEQ expected, the last message answered, with the status or the values
  answered (R330, R333, R339). -/
  seenMgr : Option (Nat × Nat) := none
  expect : Nat := 0
  last : Option MerMsg := none
  lastStatus : Nat := 0
  lastReply : List Word := []
  heard : SMap (Option Heard) := []
  targets : SMap Target := []
  /-- Fan-out records accepted and not complete, oldest first: the targets that have not answered. -/
  open' : List (List Nat) := []
  /-- The running collect: the targets that have not replied. -/
  collect : Option (List Nat) := none
  /-- Waypoint slots whose end is to be reported to the manager (R336). -/
  wpSlots : List Nat := []
  /-- Time results by view: offset, delay, exchanges (R337). -/
  timeRes : SMap (BitVec 64 × Word × Word) := []
  /-- t1 and t2 of the last SYNC by view, awaiting DELAY_RESP. -/
  sync : SMap (Option (Raw × Raw)) := []
  /-- The raw values of the last ANNOUNCE sent and of the last exchanges begun (R329, R337). -/
  announced : Option Raw := none
  exchanged : Option Raw := none
deriving DecidableEq, Repr

/-- BAR2 windows 0 and 1: staging images, captured entries, queued commits (R407, R409). -/
structure Win where
  stage : SMap Word := []
  captured : SMap Word := []
  cntHigh : Word := 0
deriving DecidableEq, Repr

/-! ### Cell pool and VOQs (chapter 11) -/

/-- Consecutive cells of one free list: cell j of list k is slot 16 j + k (R230). -/
structure Run where
  start : Nat
  count : Nat
deriving DecidableEq, Repr

/-- A free list (R232): the on-die cache, and the HBM part as a chain of carriers, oldest first. `fresh` stands for the
carriers that commissioning threaded and no refill has taken: blocks of 65 cells of one run. `turn` is the writer that the
rotating priority stands at (R233). -/
structure FreeList where
  cache : List Run := []
  fresh : Run := ⟨0, 0⟩
  carriers : List (List Run) := []
  turn : Nat := 0
deriving DecidableEq, Repr

/-- A cell writer (R233): 0 to 8 pipelines, 9 to 12 fabric receive writers, 13 the replication engine. `lost` says that
the frame it writes has been abandoned (R234). -/
structure Writer where
  /-- The list that its previous cell came from; 15 before any, so that the first comes from list 0 (DESIGN CHOICE, log 62). -/
  last : Nat := 15
  chain : List Nat := []
  lost : Bool := false
deriving DecidableEq, Repr

/-- A running audit (R236): the list walked, its HBM count at the start of its walk, cells walked that still stand before
the walk, cells counted, cells refilled ahead of the walk, the bitmap of failed lists, all cells counted. -/
structure AuditRun where
  list : Nat := 0
  start : Nat := 0
  walked : Nat := 0
  counted : Nat := 0
  ahead : Nat := 0
  todo : Nat := 0
  failed : Nat := 0
  total : Nat := 0
deriving DecidableEq, Repr

/-- A running sweep (R238): the slots that no owner has held since its start, by list; whether it reclaims; cells marked, or
slots passed by the reclaim, so far; slots reclaimed. -/
structure SweepRun where
  found : List (Nat × Run) := []
  reclaim : Bool := false
  pos : Nat := 0
  pushed : Nat := 0
deriving DecidableEq, Repr

/-- A target of a copy: destination, truncation (0 none), and the REWRITE of a multicast target (R196, R224). -/
structure McTarget where
  dev : Nat
  port : Nat
  cls : Nat
  eq : Nat
  trunc : Nat := 0
  rewrite : Option Nat := none
deriving DecidableEq, Repr

/-- A frame on the replication queue with its targets (R249). -/
structure McFrame where
  stored : Stored
  targets : List McTarget
deriving DecidableEq, Repr

/-- The cell pool (R230 to R238, R249). -/
structure Pool where
  lists : SMap FreeList := []
  writers : SMap Writer := []
  /-- Cells held by readers, to be returned (R231). -/
  reading : List Nat := []
  /-- Cells that no owner holds (R346), by list. -/
  orphans : List (Nat × Run) := []
  audit : Option AuditRun := none
  /-- The last audit's D and failing-list bitmap (R237). -/
  baseline : Option (Int × Nat) := none
  /-- Writers whose request lost a clock to another writer's and stands again in the next (R233). -/
  asking : List Nat := []
  sweep : Option SweepRun := none
  mcq : List McFrame := []
deriving DecidableEq, Repr

/-- A virtual output queue (R239, R243): its frames oldest first, its identity, balance, RECEIVED and request. -/
structure Voq where
  frames : List Stored := []
  dev : Nat := 0
  port : Nat := 0
  cls : Nat := 0
  balance : Nat := 0
  received : Word := 0
  on : Bool := false
deriving DecidableEq, Repr

/-- The hold-down of a device port (R247): whether it is down, and when its hold ends. -/
structure Hold where
  down : Bool := false
  ends : Option Raw := none
deriving DecidableEq, Repr

/-- Virtual output queues, the destination map and the state of destinations (R239 to R247). -/
structure Voqs where
  q : SMap Voq := []
  map : SMap Word := []
  dest : SMap Nat := []
  hold : SMap Hold := []
deriving DecidableEq, Repr

/-! ### Almanac (chapter 12) -/

/-- A token bucket: tokens in 1/8,000,000 byte and the ns of its last refill (R261). -/
structure Bucket where
  tok : Int := 0
  last : Nat := 0
deriving DecidableEq, Repr

/-- A node of the hierarchy (R253, R255, R261, R262, R266). `wheel` is the coarse flag and the start of the slot in ns. -/
structure Node where
  cfg0 : Word := 0
  cfg1 : Word := 0
  max : Bucket := {}
  min : Bucket := {}
  deficit : Int := 0
  /-- The child whose turn it is, for each PRIO (R255). -/
  turn : List (Nat × Nat) := []
  wheel : Option (Bool × Nat) := none
  avg : Nat := 0
  frames : List Stored := []
deriving DecidableEq, Repr

/-- A full bucket whatever its burst, up to the largest (Table 12.6): the next refill cuts it to the burst (R261). -/
def fullBucket : Bucket := { tok := 2147483640000000 }

/-- A policer (R265). -/
structure Policer where
  cfg : Word := 0
  c : Bucket := {}
  e : Bucket := {}
deriving DecidableEq, Repr

/-- A credit request toward a port of this device (R257 to R260). -/
structure CreditReq where
  port : Nat
  cls : Nat
  src : Nat
  on : Bool := false
  issued : Word := 0
  lastAt : Raw := 0
  out : Nat := 0
deriving DecidableEq, Repr

/-- The gate lists of a network port (R267 to R269): which store holds the oper list, and the oper list's parameters. -/
structure Gates where
  swapped : Bool := false
  valid : Bool := false
  t0 : Nat := 0
  cycle : Nat := 0
  len : Nat := 0
  /-- Of a pending switch. -/
  nextT0 : Nat := 0
  nextCycle : Nat := 0
  nextLen : Nat := 0
  entry : Nat := 0
deriving DecidableEq, Repr

/-- The Almanac. `staging` holds frames toward device ports 48 to 74, in arrival order. -/
structure Alm where
  nodes : SMap Node := []
  prof : SMap (List Word) := []
  changed : SMap Bool := []
  pol : SMap Policer := []
  /-- A node and a policer that hold their reset settings, and are therefore bound to profile 0: what an unlisted one reads as. -/
  blank : Node := {}
  blankPol : Policer := {}
  reqs : List CreditReq := []
  staging : SMap (List Stored) := []
  gates : SMap Gates := []
  entries : SMap (Nat × Nat) := []
  /-- Round-robin pointers over source devices, by port and class (R257, R259, R260). -/
  rr : SMap Nat := []
deriving DecidableEq, Repr

/-! ### Rhumb (chapter 13) -/

/-- What a lane has delivered and its group has not yet taken (R282): a cell, none where it was discarded, or a marker with its count
and the set it announces. -/
inductive RxItem where
  | cell (c : Option Cell)
  | marker (count : Nat) (active : Word)
deriving DecidableEq, Repr

/-- A lane beside its registers: good or bad headers in a row, missed markers in a row, skew in ns, cells since its last IDLE,
the states of the scrambler and of the descrambler (R273). Of the received stream (R276, R277): bits of the current codeword
still to come and whether it is uncorrectable, uncorrectable codewords in a row, bytes since the last marker position; what waits
for the group's order, behind which marker, and what the SerDes returns to the lane in loopback (R282, R284). -/
structure Lane where
  run : Nat := 0
  missed : Nat := 0
  skew : Nat := 0
  idle : Nat := 0
  scr : Nat := 0
  descr : Nat := 0
  left : Nat := 0
  bad : Bool := false
  badRun : Nat := 0
  since : Nat := 0
  fifo : List RxItem := []
  era : Option Nat := none
  loop : List (List Byte) := []
deriving DecidableEq, Repr

/-- A link group: its peer and what the peer last reported; of the received stream (R281, R282) the marker it stands behind, the set it
is striped over, the next position, and the first arrival of the latest marker; cells sent since the last marker, markers sent, and
the waiting cells by class of R287. -/
structure Group where
  peer : Option (Nat × Nat) := none
  peerRxOk : Word := 0
  rxCount : Option Nat := none
  rxActive : Word := 0
  rxPos : Nat := 0
  firstAt : Option (Nat × Raw) := none
  cells : Nat := 0
  markers : Nat := 0
  hb : List Cell := []
  time : List Cell := []
  credit : List Cell := []
  control : List Cell := []
  snap : List Cell := []
  data : List Cell := []
  share : Nat := 0
deriving DecidableEq, Repr

/-- Traffic toward a device (R285 to R290): SEQ by group, the spray SEQ and next position, the drain, waiting credit
messages with the raw value at which each came. -/
structure Toward where
  seqs : List (Nat × Nat) := []
  spraySeq : Nat := 0
  sprayNext : Nat := 0
  /-- The raw value at which a drain ends. -/
  drain : Option Raw := none
  credits : List (CreditMsg × Raw) := []
deriving DecidableEq, Repr

/-- A resequencing context (R288): the expected SEQ, held cells with their arrival, the last arrival. -/
structure Reseq where
  expect : Option Nat := none
  held : List (Cell × Raw) := []
  lastAt : Raw := 0
deriving DecidableEq, Repr

/-- A reassembly context (R292): the expected SEQ, the first cell and bytes of the partial frame, its last arrival; the cells a
fabric receive writer has filled for it (R251), and whether it was abandoned for want of one (R234). -/
structure Reasm where
  expect : Option Nat := none
  first : Option Cell := none
  bytes : List Byte := []
  lastAt : Raw := 0
  cells : List Nat := []
  lost : Bool := false
deriving DecidableEq, Repr

structure Rhb where
  lanes : SMap Lane := []
  groups : SMap Group := []
  toward : SMap Toward := []
  reseq : SMap Reseq := []
  reasm : SMap Reasm := []
deriving DecidableEq, Repr

/-! ### Network ports (chapter 14) -/

/-- A MACsec SA (R305). The key and salt are kept as stored. -/
structure Sa where
  valid : Bool := false
  key : BitVec 256 := 0
  salt : BitVec 96 := 0
  ssci : Word := 0
  pn : BitVec 64 := 0
  near : Bool := false
  /-- The PN 2^64 − 1 has been used (R306). -/
  exhausted : Bool := false
deriving DecidableEq, Repr

/-- A frame that a port started by cut-through before staging held it whole (R246): the frame so far, the raw value of its start, and the
capture and latency of its stamp. -/
structure TxRun where
  f : Stored
  at' : Raw := 0
  cap : Raw := 0
  latency : Nat := 0
deriving DecidableEq, Repr

/-- A network or management port beside its registers. -/
structure NetPort where
  /-- The raw value at which the settling ends (R299). -/
  upAt : Option Raw := none
  /-- Staged key, salt and SSCI words (WO). -/
  keyW : SMap Word := []
  /-- Pause timers by priority: the raw value at which each ends (R302). -/
  pause : SMap (Option Raw) := []
  /-- Receive occupancy in bytes by priority, and priorities in XOFF (R303). -/
  occ : SMap Nat := []
  xoff : BitVec 8 := 0
  sas : SMap Sa := []
  /-- Receive SCs: VALID and SCI. -/
  rxsc : SMap (Bool × BitVec 64) := []
  /-- The FEC in use, by the codes of NET_PORT_CFG.FEC; 0 before the first link-up (R296). -/
  fec : Nat := 0
  /-- The raw value at which the frame in transmission ends, and that frame while it is not whole (R246, R248). -/
  wire : Raw := 0
  tx : Option TxRun := none
  /-- The raw value at which the last PFC frame was sent (R303). -/
  pfcAt : Raw := 0
deriving DecidableEq, Repr

structure Net where
  ports : SMap NetPort := []
deriving DecidableEq, Repr

/-! ### Sextant (chapter 10) -/

/-- An exact-match entry (Table 10.10). `fresh` says it stands under SEED_NEXT during a rehash. -/
structure EmEntry where
  table : Nat
  key : Nat
  result : BitVec 64
  static : Bool := false
  hit : Bool := false
  frozen : Bool := false
  age : Nat := 0
  moves : Nat := 0
  frozenAt : Raw := 0
  fresh : Bool := false
deriving DecidableEq, Repr

/-- A learn (R217). -/
structure Learn where
  table : Nat
  key : Nat
  result : BitVec 64
  port : Nat
deriving DecidableEq, Repr

/-- A notification record (R221). -/
structure Note where
  hdr : Word
  data : List Word
deriving DecidableEq, Repr

/-- A register command that waits in the sequencer besides SXT_CMD: a WRITE of window 1 (R409), or a repair of a Fix check with its
block, record, mismatch kind and place in the mismatch list (R227). -/
structure RegCmd where
  op : Nat
  table : Nat
  index : Nat
  data : List Word
  repair : Option (Nat × Nat × Nat × Nat) := none
deriving DecidableEq, Repr

/-- A DUMP under way (R229): table, the next group to read, records left to the limit, records written, host address. -/
structure DumpRun where
  table : Nat
  next : Nat := 0
  left : Nat
  count : Nat := 0
  addr : Nat
deriving DecidableEq, Repr

/-- A running Fix check (R225, R226): blocks compared, mismatches, the first mismatching block, records compared. -/
structure FixRun where
  block : Nat := 0
  mism : Nat := 0
  first : Nat := 0
  records : Nat := 0
deriving DecidableEq, Repr

/-- The Sextant. `em` is keyed by slot, `direct` by table and index. `lpm`, keyed by prefix, is the content of the Full profile's tries and
the default slots of the Compact profile, whose length tables are `lpmh`, by slot, and `filters`, the 4-bit counts behind the bits
of the length filters (R206, R209, R211). -/
structure Sxt where
  em : SMap (Option EmEntry) := []
  lpm : SMap (Option (BitVec 22)) := []
  lpmh : SMap (Option EmEntry) := []
  filters : SMap Nat := []
  direct : SMap (BitVec 64) := []
  learns : List Learn := []
  notes : List Note := []
  /-- Register commands besides SXT_CMD, oldest first. -/
  winq : List RegCmd := []
  /-- Commands of `winq` that arrived before the register command that waits. -/
  winAhead : Nat := 0
  rehash : Bool := false
  /-- Roots of a running trie rebuild that have not flipped: (VRF, family) (R208). -/
  trie : Option (List (Nat × Nat)) := none
  fix : Option FixRun := none
  dump : Option DumpRun := none
  /-- The source that the sequencer served last, while others wait; none when it idles (R204). Sources: 0 register command, 1 bulk DMA,
  2 learn FIFO, 3 ageing sweep, 4 rehash. -/
  turn : Option Nat := none
  /-- The raw value at which each source became ready. -/
  since : SMap Raw := []
  /-- The raw value at which the ageing sweep last visited each slot (R220). -/
  swept : SMap Raw := []
deriving DecidableEq, Repr

/-! ### Compass (chapter 09) -/

/-- A mark on a frame between passes: the verdict, the chart metadata and the passes taken (R190 to R194). -/
structure Verdict where
  /-- 0 not set, 1 next hop, 2 ECMP, 3 multicast, 4 explicit, 5 an LPM result of RKIND 3. -/
  kind : Nat := 0
  index : Nat := 0
  dev : Nat := 0
  port : Nat := 0
  cls : Nat := 0
  eq : Nat := 0
  drop : Bool := false
  punt : Option (Nat × Bool) := none
  mirrors : List Nat := []
  chart : BitVec 64 := 0
  colour : Nat := 0
  ts : Option (Nat × Nat) := none
  cti : Option Bool := none
deriving DecidableEq, Repr

/-- A frame in a pipeline: its ingress port, its verdict so far, the bank of its epoch, passes taken, and what its Compact
lookups resume from: stage and the length below which candidates remain (R197, R210); `copied` says that a pass before sent learn
copies of it. -/
structure Flight where
  frame : Frame
  ingress : Nat := 0
  verdict : Verdict := {}
  bank : Nat := 0
  pass : Nat := 0
  resume : List (Nat × Nat) := []
  copied : Bool := false
deriving DecidableEq, Repr

structure Cmp where
  /-- Chart entries: sixteen words keyed by pipeline, bank, table and index. -/
  chart : SMap (List Word) := []
  /-- The ingress buffers and the recirculating frames of the physical pipelines, oldest first. -/
  ingress : SMap (List Frame) := []
  recirc : SMap (List Flight) := []
  /-- Frames handed to the Reckoner's CTI receiver, oldest first (R166). -/
  cti : List Frame := []
deriving DecidableEq, Repr

/-! ### PON line (chapter 05) -/

/-- The fields of PON_RSSI_CTRL as ARM applied them, and the instant of the PON time line from which a burst or interval may trigger, in
2^-16 ns (R118). -/
structure RssiArm where
  mode : Nat
  onu : Nat
  delay : Nat
  width : Nat
  from' : Int
deriving DecidableEq, Repr

/-- A PON port beside its registers. -/
structure PonPort where
  /-- The first downstream frame after settling (R119). -/
  settleUntil : Nat := 0
  /-- Cause 5 holds: a relink or a port reset (Table 05.5). -/
  relink : Bool := false
  /-- The transmitters stop at the next frame boundary, once (R33, R104). -/
  stopTx : Bool := false
  /-- Loss of signal, and the frames in a row that count toward it (R120). -/
  los : Bool := false
  losRun : Nat := 0
  /-- TEQ_NS as the latest cut-off took it: the value in force for maps taken from then on (R109, R133). -/
  teq : Nat := 440000
  /-- The latest low period of PON_BRST_N, in ns of the PON time line (R116). -/
  brst : Option (Int × Int) := none
  /-- The armed RSSI trigger; whether the pulse that is high belongs to that arming (R118). -/
  rssi : Option RssiArm := none
  rssiPulse : Option Bool := none
deriving DecidableEq, Repr

/-- The map of a downstream frame of a channel: computed, complete, sent with the frame whose PSync left at `psync`, and its
upstream frame counted for the loss rules. -/
structure PonMap where
  f : Nat
  bursts : List Burst := []
  done : Bool := false
  /-- The cut-off has passed: taken, or late. -/
  taken : Bool := false
  sent : Bool := false
  psync : Raw := 0
  /-- TEQ_NS at its cut-off (R109). -/
  teq : Nat := 0
  /-- A ranging or discovery burst of the map has been confirmed (R120). -/
  seen : Bool := false
  counted : Bool := false
deriving DecidableEq, Repr

/-- The PON line: ports by number, and the latest maps of each channel, newest first. -/
structure PonLine where
  ports : SMap PonPort := []
  maps : SMap (List PonMap) := []
deriving DecidableEq, Repr

/-! ### ONU activation (chapter 06) -/

/-- ONU context states (Table 06.1). -/
inductive OnuSt where
  | free | assigned | ranging | operational | lost | disabled
deriving DecidableEq, Repr

/-- An ONU context (Table 06.16) with what the rules of the chapter keep for it. -/
structure Onu where
  st : OnuSt := .free
  ch : Nat := 0
  vendor : Word := 0
  serial : Word := 0
  eqd : Nat := 0
  named : Bool := false
  stuck : Bool := false
  offences : Nat := 0
  /-- The apparent RTD m in 1/16 ns, the profile of its discovery window, ranging misses, the map its ranging grant is
  reserved in (R134, R162). -/
  m : Int := 0
  prof : Nat := 0
  misses : Nat := 0
  rangeAt : Option Nat := none
  /-- The frame at whose cut-off it became OPERATIONAL, and whether its activation began from FREE (R135, R150). -/
  opFrame : Nat := 0
  fresh : Bool := false
  /-- The drift run, newest first, and the frame from which bursts count; none while a Ranging_Time waits (R136). -/
  run : List Int := []
  runFrom : Option Nat := some 0
  /-- Its next ranging searches ACQ_US around `m`, after a takeover (R325). -/
  acq : Bool := false
  /-- Granted frames in a row without a burst, and the raw value at which it entered LOST (R140). -/
  quiet : Nat := 0
  lostAt : Raw := 0
  /-- The map of its last PLOAMu, and whether the engine asks for one (R156). -/
  ploamu : Nat := 0
  ask : Bool := false
  /-- The sequence numbers of engine messages not yet acknowledged (R125). -/
  acks : List Nat := []
deriving DecidableEq, Repr

/-- A record of the host receive queue (R127). -/
structure RxRec where
  hdr : Word
  data : List Word
deriving DecidableEq, Repr

/-- A channel's PLOAM queues (R126): the engine's messages, the host's, and those taken at the latest cut-off and not yet
sent; the upstream frames with an energy observation, newest first, and ROGUE_ANON (R138). -/
structure ActCh where
  engine : List PloamMsg := []
  host : List PloamMsg := []
  taken : List PloamMsg := []
  energy : List Nat := []
  anon : Bool := false
deriving DecidableEq, Repr

/-- An entry of the SN table (R132): vendor, serial, ACT_SNTAB_BIND. -/
structure SnEntry where
  vendor : Word := 0
  serial : Word := 0
  bind : Word := 0
deriving DecidableEq, Repr

/-- The PLOAM engine. `onus` is keyed 1024 n + id, `chs` by j. `seen` holds the latest discovery of a serial number on a port:
port, serial number, apparent RTD, profile. `seqs` holds the next sequence number of each ONU-ID, keyed 1024 n + id; `cmd` the
held host command: ACT_CMD, ACT_CMD_DATA and the serial number (R144). -/
structure Act where
  onus : SMap Onu := []
  chs : SMap ActCh := []
  rx : List RxRec := []
  sn : SMap SnEntry := []
  seen : List (Nat × Word × Word × Int × Nat) := []
  seqs : SMap Nat := []
  cmd : Option (Word × Word × Word × Word) := none
deriving DecidableEq, Repr

/-! ### Reckoner (chapter 07) -/

/-- What a context was granted, delivered and had booked in one map. -/
structure MapHist where
  f : Nat
  granted : Nat := 0
  delivered : Nat := 0
  booked : Nat := 0
deriving DecidableEq, Repr

/-- What READ of DBA_ALLOC_SEL loads: a context as of the last computation start (Table 07.10). -/
structure AllocShown where
  cfg0 : Word := 0
  cfg1 : Word := 0
  fix : Nat := 0
  fixFrame : Nat := 0
  rate : Nat := 0
  est : Nat := 0
deriving DecidableEq, Repr

/-- An Alloc context (R149 to R153). -/
structure AllocCtx where
  cfg0 : Word := 0
  cfg1 : Word := 0
  reseed : Bool := false
  fixBytes : Nat := 0
  fixFrame : Nat := 0
  rate : Nat := 0
  accF : Int := 0
  accA : Int := 0
  accM : Int := 0
  deficit : Nat := 0
  est : Nat := 0
  lastAlloc : Nat := 0
  hist : List MapHist := []
  shown : AllocShown := {}
deriving DecidableEq, Repr

/-- A placed piece of a booking: its frame, interval, StartTime, payload, profile and DBRu. -/
structure Piece where
  f : Nat
  lo : Nat
  start : Nat
  hi : Nat
  bytes : Nat
  prof : Nat
  dbru : Bool
deriving DecidableEq, Repr

/-- A booking in the calendar: channel, Alloc context key, first frame, volume placed, and its pieces not yet issued (R163,
R164). -/
structure Booking where
  j : Nat
  ctx : Nat
  first : Nat
  vol : Nat
  pieces : List Piece
deriving DecidableEq, Repr

/-- A reserved interval of a channel's time line in ns of the PON time line: for the discovery window or ranging grant of map
`f` (R161, R162). `onu` is none for discovery. -/
structure Resv where
  lo : Nat
  hi : Nat
  f : Nat
  onu : Option Nat
deriving DecidableEq, Repr

/-- A host booking as its GO captured it (Table 07.10): port, Alloc context, target time in PON view ns, volume, SPREAD, TRAIN, and the raw
value of the GO. -/
structure BookReq where
  n : Nat
  a : Nat
  t : Nat
  vol : Nat
  spread : Nat
  train : Nat
  at' : Raw
deriving DecidableEq, Repr

/-- The Reckoner. `ctxs` is keyed 4096 n + i; `started` is the last frame whose computation has started; `turn` counts
computations, which rotate the pointers (R155). -/
structure Rck where
  ctxs : SMap AllocCtx := []
  books : List Booking := []
  resv : SMap (List Resv) := []
  started : Nat := 0
  turn : Nat := 0
  lastRange : SMap Nat := []
  /-- A booking that the host has submitted and the sequencer has not taken, with the instant of its GO (R163). -/
  booking : Option BookReq := none
deriving DecidableEq, Repr

/-! ### XGEM and keys (chapter 08) -/

/-- A key set: KEK, IK, slots 1 and 2, DS_INDEX; the index and key that the next frame and the frame in transmission use
(R170, R173); the latest switch: its instant, whether a waypoint made it, and DS_INDEX before that clock (R177). A broadcast set has
no KEK and no IK. -/
structure KeySet where
  kek : Option (BitVec 128) := none
  ik : Option (BitVec 128) := none
  s1 : Option (BitVec 128) := none
  s2 : Option (BitVec 128) := none
  ds : Nat := 1
  next : Nat × Option (BitVec 128) := (1, none)
  cur : Nat × Option (BitVec 128) := (1, none)
  swAt : Option Raw := none
  swWp : Bool := false
  swOld : Nat := 1
deriving DecidableEq, Repr

/-- An XGEM port binding (R168): its two configuration words. -/
structure Bind where
  cfg0 : Word := 0
  cfg1 : Word := 0
deriving DecidableEq, Repr

/-- A running key exchange (R175): port, ONU-ID, index, the frame at which it started, fragments so far. -/
structure Exchange where
  n : Nat
  onu : Nat
  index : Nat
  at' : Raw
  frags : List Word := []
deriving DecidableEq, Repr

/-- The reassembly context of a port-ID (R179, R180): idle, open, or discarding up to the next LF. -/
structure XReasm where
  isOpen : Bool := false
  discard : Bool := false
  bytes : List Byte := []
  units : Nat := 0
  /-- The upstream frame of its last fragment, the ONU, channel, ALLOC_ID and stamp of its first. -/
  u : Nat := 0
  onu : Nat := 0
  ch : Nat := 0
  alloc : Nat := 0
  stamp : Stamp := {}
deriving DecidableEq, Repr

/-- The remainder of a fragmented downstream frame: port-ID and payload still to send. -/
structure Remainder where
  pid : Nat
  bytes : List Byte
deriving DecidableEq, Repr

/-- The XGEM engine. Unicast key sets and bindings are keyed 1024 n + id and 8192 n + pid; broadcast sets by j; reassemblies by
8192 n + pid; `wait` is a frame released and not yet placed. -/
structure Xgm where
  keys : SMap KeySet := []
  bkeys : SMap KeySet := []
  binds : SMap Bind := []
  dsq : SMap Word := []
  exch : List Exchange := []
  results : List Word := []
  keyData : SMap Word := []
  /-- The port-ID of the spoofed frame that XGM_LAST_SPOOF describes (Table 08.9). -/
  spoofId : Nat := 0
  reasm : SMap XReasm := []
  rest : SMap (Option Remainder) := []
  wait : SMap (Option (Nat × Stored)) := []
  /-- The XGEM area of the frame in transmission of a channel: bytes used, and its size (R108, R171). -/
  area : SMap (Nat × Nat) := []
deriving DecidableEq, Repr

/-! ### Lighthouse (chapter 15) -/

/-- A heartbeat path: a valid heartbeat arrived in this period, periods in a row without one, SESSION and HB_SEQ of the last valid
heartbeat, HB_SEQ of the last one sent (R311, R312). -/
structure LhPath where
  got : Bool := false
  run : Nat := 0
  ref : Option (Nat × Nat) := none
  sent : Nat := 0
deriving DecidableEq, Repr

/-- A SESSION: the k-th value drawn from the DRBG for it, or the raw counter's bits (R311). -/
inductive Sess where
  | draw (k : Nat)
  | value (v : Nat)
deriving DecidableEq, Repr

/-- A running bulk sync (R315): the standby has asked and the stream has not begun; the peer's SNAP_GEN at the start; the slot holds
a part of the stream. -/
structure SyncRun where
  asked : Bool := false
  gen : Nat := 0
  staging : Bool := false
  /-- On the active, the copied state at the start instant S; on the standby, the increments that have come while it stages. -/
  base : List CopyRec := []
  since : List (Nat × List CopyRec) := []
deriving DecidableEq, Repr

/-- Lighthouse. `paths`: 0 LH_PEER, 1 Rhumb. -/
structure Lht where
  session : Sess := .draw 0
  sessions : Nat := 1
  paths : SMap LhPath := []
  /-- The start of the first period of the current miss run (R322). -/
  missAt : Raw := 0
  /-- MODE of the peer's last valid heartbeat; a change of it to STANDBY in this period; its SESSION and SNAP_GEN. -/
  peerMode : Option Nat := none
  yielded : Bool := false
  peerSession : Option Nat := none
  peerGen : Nat := 0
  incSeq : Nat := 0
  /-- The other device's KCV as the stream carries it; none: its pairing key is not VALID (R375). -/
  peerKcv : Option Word := none
  /-- Increments are closed (R316). -/
  flowing : Bool := false
  sync : Option SyncRun := none
  /-- The snapshot slots, and which holds the committed generation (R315). -/
  slots : SMap (List CopyRec) := []
  slot : Nat := 0
  /-- The copied state as the peer has it or will have it, and increments that no path has taken (R316). -/
  shadow : List CopyRec := []
  held : List (Nat × List CopyRec) := []
  /-- Map copies by channel, newest first (R319). -/
  guides : SMap (List PonMap) := []
  /-- Offsets of each ONU in 1/16 ns, newest first, keyed 1024 n + id (R320). -/
  pre : SMap (List Int) := []
  /-- Frames with a consistent burst, newest first; the first frame of the judgement window (R322). -/
  wit : List Nat := []
  witAt : Option Nat := none
  /-- Ports with grants to OPERATIONAL ONUs, and with map-guided bursts, since the last evaluation (R327). -/
  granted : SMap Bool := []
  heardPorts : SMap Bool := []
  memErr : Bool := false
  /-- The committed state came with keys (R317). -/
  keysIn : Bool := false
  /-- The heartbeat period in which the device is, and the second of the last evaluation, of its raw counter (R310, R327). -/
  period : Nat := 0
  second : Nat := 0
  /-- Where the search without a map copy stands, by channel: frame, and latest header position tried (R319). -/
  search : SMap (Nat × Int) := []
deriving DecidableEq, Repr

/-- The state of the block. -/
structure State where
  /-- Commands waiting, first in, first out. -/
  pending : List Instr := []
  raw : Raw := 0
  regs : SMap Word := []
  /-- Write holding registers and captured words of multi-word values (R6). -/
  hold : SMap Word := []
  cap : SMap Word := []
  /-- The data of the last read: the model's own. -/
  rdata : Word := 0
  out : List Output := []
  /-- Free values drawn so far: the model's own. -/
  drawn : Nat := 0
  dev : Dev := {}
  chrono : Chrono := {}
  obs : Obs := {}
  chk : Chk := {}
  sec : Sec := {}
  pwr : Pwr := {}
  mer : Mer := {}
  win : Win := {}
  pool : Pool := {}
  voq : Voqs := {}
  alm : Alm := {}
  rhb : Rhb := {}
  net : Net := {}
  sxt : Sxt := {}
  cmp : Cmp := {}
  pon : PonLine := {}
  act : Act := {}
  rck : Rck := {}
  xgm : Xgm := {}
  lht : Lht := {}
deriving DecidableEq, Repr

/-- The machine right after cold reset, in LOAD (Table 03.4, Table 03.12). -/
def State.reset : State := {}

end Sys2Proof.Machine
end

