-- ==== Sys2Proof/Machine/Ops.lean ====
section
/-!
DEFINITION. Machine/Ops.lean: the named operations every family is written with: reading and writing a register and
its fields, saturating counters, the outbox, free values, the raw counter, view arithmetic, long-operation status.
-/
namespace Sys2Proof.Machine

/-! ### Registers -/

/-- The stored value of the register at a BAR0 offset. -/
def State.rd (s : State) (a : Nat) : Word := s.regs.get resetOf a

/-- Store a value in the register at a BAR0 offset. -/
def State.wr (s : State) (a : Nat) (v : Word) : State := { s with regs := s.regs.set resetOf a v }

/-- Bits [hi:lo] of a register. -/
def State.fld (s : State) (a hi lo : Nat) : Nat := Machine.fld (s.rd a) hi lo

/-- Bit `i` of a register. -/
def State.bit (s : State) (a i : Nat) : Bool := Machine.bit (s.rd a) i

/-- Store a number in bits [hi:lo] of a register. -/
def State.setFld (s : State) (a hi lo v : Nat) : State := s.wr a (Machine.setFld (s.rd a) hi lo v)

/-- Store a truth value in bit `i` of a register. -/
def State.setBit (s : State) (a i : Nat) (b : Bool) : State := s.wr a (Machine.setBit (s.rd a) i b)

/-- Store a number, modulo 2^32. -/
def State.wrNat (s : State) (a v : Nat) : State := s.wr a (BitVec.ofNat 32 v)

/-- Add to a 32-bit counter that saturates (the counters of chapters 04 to 19). -/
def State.bumpBy (s : State) (a n : Nat) : State := s.wr a (satAdd (s.rd a) n)

/-- Count one. -/
def State.bump (s : State) (a : Nat) : State := s.bumpBy a 1

/-- Add one to a counter that wraps modulo 2^32. -/
def State.wrap (s : State) (a : Nat) : State := s.wr a (s.rd a + 1)

/-- Store consecutive words from an address, 4 bytes apart. -/
def State.wrWords (s : State) : Nat → List Word → State
  | _, [] => s
  | a, w :: ws => (s.wr a w).wrWords (a + 4) ws

/-- The number that `n` consecutive words hold, lowest first. -/
def State.rdWords (s : State) (a : Nat) : Nat → Nat
  | 0 => 0
  | n + 1 => (s.rd a).toNat + 2 ^ 32 * s.rdWords (a + 4) n

/-- What software writes into the register at `a`, by field type (R9); a reserved address ignores it (R8). -/
def State.wrTyped (s : State) (a : Nat) (v : Word) : State :=
  match regAt a with
  | some (d, _) => s.wr a (d.written (s.rd a) v)
  | none => s

/-- The RW bits that the write holding registers and software see of the word at `a`. -/
def State.holdOf (s : State) (a : Nat) : Word := s.hold.get resetOf a

/-- Put a word into a write holding register (R6). -/
def State.setHold (s : State) (a : Nat) (v : Word) : State := { s with hold := s.hold.set resetOf a v }

/-- The captured value of the word at `a` (R6). -/
def State.capOf (s : State) (a : Nat) : Word := s.cap.get resetOf a

/-- Capture a word (R6). -/
def State.setCap (s : State) (a : Nat) (v : Word) : State := { s with cap := s.cap.set resetOf a v }

/-! ### Outbox, read data, free values -/

/-- Send something out of the device. -/
def State.emit (s : State) (o : Output) : State := { s with out := s.out ++ [o] }

/-- A posted write to host memory; while PERST_N is low HELM masters nothing (R61). -/
def State.toHost (s : State) (addr : BitVec 64) (bytes : List Byte) : State :=
  if s.dev.perstLow then s else s.emit (.hostWrite addr bytes)

/-- The data that a read returns. -/
def State.ret (s : State) (v : Word) : State := { s with rdata := v }

/-- The index of the next free value, and the state in which it has been drawn. -/
def State.draw (s : State) : Nat × State := (s.drawn, { s with drawn := s.drawn + 1 })

/-- Apply an operation to each number of a list in turn. -/
def State.each (s : State) : List Nat → (Nat → State → State) → State
  | [], _ => s
  | i :: is, f => (f i s).each is f

/-! ### Modes -/

/-- The encoding of MODE (Table 03.1). -/
def modeCode : Mode → Nat
  | .load => 0
  | .commission => 1
  | .active => 2
  | .standby => 3
  | .maintenance => 4
  | .safe => 5

/-- The mode a REQ value names; 6 and 7 name none (R48). -/
def modeOf : Nat → Option Mode
  | 0 => some .load
  | 1 => some .commission
  | 2 => some .active
  | 3 => some .standby
  | 4 => some .maintenance
  | 5 => some .safe
  | _ => none

/-- The device serves traffic: ACTIVE or MAINTENANCE (Table 03.3). -/
def State.serving (s : State) : Bool := s.dev.mode == .active || s.dev.mode == .maintenance

/-- A frame passes pipelines and queues: any in ACTIVE and MAINTENANCE, PTP frames in STANDBY (Table 03.3). -/
def State.passes (s : State) (f : Frame) : Bool := s.serving || (s.dev.mode == .standby && f.ptp)

/-- The device's own ID: RHB_CTRL.DEV_ID (R294). -/
def State.devId (s : State) : Nat := s.fld Reg.rhbCtrl 9 0

/-! ### View time (R72, R75) -/

/-- Units of 2^-16 ns in one ns. -/
def nsUnit : Nat := 65536

/-- OFFSET of a view (Table 04.1). -/
def State.viewOffset (s : State) (v : Nat) : BitVec 96 := BitVec.ofNat 96 (s.rdWords (Reg.timeViewOffsetW0 v) 3)

/-- RATE of a view, 40 bits (Table 04.1). -/
def State.viewRate (s : State) (v : Nat) : BitVec 40 :=
  BitVec.ofNat 40 ((s.rd (Reg.timeViewRateLo v)).toNat + 2 ^ 32 * s.fld (Reg.timeViewRateHi v) 7 0)

/-- RATE_EPOCH of a view (Table 04.1). -/
def State.viewEpoch (s : State) (v : Nat) : BitVec 96 := BitVec.ofNat 96 (s.rdWords (Reg.timeViewEpochW0 v) 3)

/-- (RATE × (RAW − RATE_EPOCH)) >> 48: the product is exact and the shift rounds toward minus infinity (R72). -/
def rateTerm (rate : BitVec 40) (raw epoch : Raw) : Int :=
  (rate.toInt * ((raw.toNat : Int) - (epoch.toNat : Int))) / (2 ^ 48 : Int)

/-- The time of a view with given parameters at a raw value, modulo 2^96 (R72). -/
def viewTimeOf (offset : BitVec 96) (rate : BitVec 40) (epoch raw : Raw) : BitVec 96 :=
  offset + raw + BitVec.ofInt 96 (rateTerm rate raw epoch)

/-- The time of view `v` at a raw value, under the current parameters (R72). -/
def State.viewTime (s : State) (v : Nat) (raw : Raw) : BitVec 96 :=
  viewTimeOf (s.viewOffset v) (s.viewRate v) (s.viewEpoch v) raw

/-- The time of view `v` at a captured raw value under the parameters in force at the capture: the current set, or the
set before it for a capture before the latest commit (R80). -/
def State.viewTimeAt (s : State) (v : Nat) (cap : Raw) : BitVec 96 :=
  let p := s.chrono.prev.get (fun _ => {}) v
  if cap.toNat < p.at'.toNat then viewTimeOf p.offset p.rate p.epoch cap else s.viewTime v cap

/-- Whole ns of a view time (R75). -/
def nsTotal (t : BitVec 96) : Nat := t.toNat / 65536

/-- The 16-bit fraction of a view time (R75). -/
def fracOf (t : BitVec 96) : Nat := t.toNat % 65536

/-- 48-bit seconds of a view time (R75). -/
def secOf (t : BitVec 96) : Nat := nsTotal t / 1000000000 % 2 ^ 48

/-- ns within the second (R75). -/
def nsOf (t : BitVec 96) : Nat := nsTotal t % 1000000000

/-- The low 32 bits of the ns (R75). -/
def ns32Of (t : BitVec 96) : Word := BitVec.ofNat 32 (nsTotal t)

/-- The sub-ns byte, in units of 1/256 ns (R75). -/
def subnsOf (t : BitVec 96) : Byte := BitVec.ofNat 8 (fracOf t / 256)

/-- The time that R96 compares: seconds × 10^9 + ns, as R75 presents them. -/
def cmpNs (t : BitVec 96) : Nat := secOf t * 1000000000 + nsOf t

/-- The stamp of a view time (R81). -/
def stampOf (v : Nat) (t : BitVec 96) : Stamp := { view := v, ns32 := ns32Of t, subns := subnsOf t }

/-- A captured raw value keeps a resolution of 2^-8 ns (R71). -/
def captureRes (raw : Raw) : Raw := BitVec.ofNat 96 (raw.toNat / 256 * 256)

/-- The 12 bytes of a time in the full format (R75): seconds, ns, fraction, lowest byte first. -/
def fullFormat (t : BitVec 96) : List Byte := leBytes 6 (secOf t) ++ leBytes 4 (nsOf t) ++ leBytes 2 (fracOf t)

/-! ### The raw counter and what each clock does (R71, R365, R366) -/

/-- Clocks of the 1.50 GHz pipelines in the `n` ns after raw ns `t`. -/
def pipeClocks (t n : Nat) : Nat := (t + n) * 3 / 2 - t * 3 / 2

/-! ### Long operations (R40, R41, R54, R368) -/

/-- The address of a long operation's OP_CTRL (Table 02.12). OPSTAT follows it. -/
def opCtrl : LongOp → Nat
  | .imageLoad => Reg.devImgOpCtrl
  | .imageSwap => Reg.devSwapOpCtrl
  | .memoryBist => Reg.devBistOpCtrl
  | .rehash => Reg.sxtRehashOpCtrl
  | .trieRebuild => Reg.sxtTrieOpCtrl
  | .fixCheck => Reg.sxtFixOpCtrl
  | .audit => Reg.poolAuditOpCtrl
  | .sweep => Reg.poolSweepOpCtrl
  | .bulkSync => Reg.lhtSyncOpCtrl
  | .zeroisation => Reg.secZeroOpCtrl
  | .scan u => Reg.chkScanOpCtrl u

/-- The address of its OPSTAT. -/
def opStat (o : LongOp) : Nat := opCtrl o + 4

/-- Its OP_PARTIAL registers. -/
def opPartials : LongOp → List Nat
  | .imageLoad => [Reg.devImgOpPartial]
  | .imageSwap => [Reg.devSwapOpPartial]
  | .memoryBist => [Reg.devBistOpPartial 0, Reg.devBistOpPartial 1]
  | .rehash => [Reg.sxtRehashOpPartial]
  | .trieRebuild => [Reg.sxtTrieOpPartial]
  | .fixCheck => [Reg.sxtFixOpPartial 0, Reg.sxtFixOpPartial 1, Reg.sxtFixOpPartial 2, Reg.sxtFixOpPartial 3]
  | .audit => [Reg.poolAuditOpPartial 0, Reg.poolAuditOpPartial 1, Reg.poolAuditOpPartial 2, Reg.poolAuditOpPartial 3]
  | .sweep => [Reg.poolSweepOpPartial 0, Reg.poolSweepOpPartial 1]
  | .bulkSync => [Reg.lhtSyncOpPartial 0, Reg.lhtSyncOpPartial 1]
  | .zeroisation => [Reg.secZeroOpPartial]
  | .scan u => [Reg.chkScanOpPartial u 0, Reg.chkScanOpPartial u 1]

/-- Its completion leaf in group 20 (Table 18.1). -/
def opLeaf : LongOp → Nat
  | .imageLoad => 640
  | .imageSwap => 641
  | .memoryBist => 642
  | .rehash => 643
  | .trieRebuild => 644
  | .fixCheck => 645
  | .audit => 646
  | .sweep => 647
  | .bulkSync => 648
  | .zeroisation => 649
  | .scan u => 656 + u % 8

/-- DATA word 0 of its completion event: the unit of a scan, else 0 (Table 18.2). -/
def opUnit : LongOp → Nat
  | .scan u => u
  | _ => 0

/-- The modes in which an operation is allowed (Table 03.5). A scan in LOAD reads host memory only: `src` is its SRC; a
BIST is allowed by its target (Table 03.15). -/
def opAllowed (o : LongOp) (m : Mode) (src target : Nat) : Bool :=
  match o with
  | .imageLoad => m == .load
  | .imageSwap => m == .active || m == .maintenance
  | .memoryBist => m == .commission || (m == .maintenance && (target == 1 || target == 3))
  | .rehash | .trieRebuild | .fixCheck => m == .commission || m == .active || m == .standby || m == .maintenance
  | .audit => m == .active || m == .standby || m == .maintenance
  | .sweep => m == .maintenance
  | .bulkSync => m == .active || m == .maintenance || m == .standby
  | .scan _ => m == .commission || m == .active || m == .standby || m == .maintenance || (m == .load && src == 0)
  | .zeroisation => true

/-- Every long operation of the device. -/
def allLongOps : List LongOp :=
  [.imageLoad, .imageSwap, .memoryBist, .rehash, .trieRebuild, .fixCheck, .audit, .sweep, .bulkSync, .zeroisation,
    .scan 0, .scan 1, .scan 2, .scan 3, .scan 4, .scan 5, .scan 6, .scan 7]

/-- BUSY of a long operation. -/
def State.busy (s : State) (o : LongOp) : Bool := s.bit (opStat o) 31

/-- ARG of a long operation. -/
def State.opArg (s : State) (o : LongOp) : Nat := s.fld (opCtrl o) 15 0

/-- Set PROGRESS (24 bits). -/
def State.setProgress (s : State) (o : LongOp) (n : Nat) : State := s.setFld (opStat o) 23 0 n

/-- PROGRESS. -/
def State.progress (s : State) (o : LongOp) : Nat := s.fld (opStat o) 23 0

/-- How a long operation ends (R41): DONE, ABORTED or FAIL, with a REASON (Table 02.11). -/
inductive OpEnd where
  | done
  | aborted (reason : Nat)
  | failed (reason : Nat)
deriving DecidableEq, Repr

/-- OPSTAT when BUSY falls: exactly one of DONE, ABORTED and FAIL, the REASON, PROGRESS kept (R41). -/
def opStatEnd (old : Word) : OpEnd → Word
  | .done => Machine.setFld old 31 24 0x40
  | .aborted r => Machine.setFld old 31 24 (0x20 + r % 16)
  | .failed r => Machine.setFld old 31 24 (0x10 + r % 16)

/-- START: BUSY set, DONE, ABORTED, FAIL, REASON and PROGRESS cleared, every OP_PARTIAL cleared (R41). -/
def State.opBegin (s : State) (o : LongOp) : State :=
  (s.wr (opStat o) 0x80000000).each (opPartials o) fun a s => s.wr a 0

/-! ### Commit registers (Table 02.7, R38) -/

/-- ACTIVE_BANK. -/
def State.activeBank (s : State) (a : Nat) : Nat := s.fld a 16 16

/-- The switch itself: ACTIVE_BANK takes the target, SWITCH_COUNT counts, PENDING clears. -/
def State.bankSwitch (s : State) (a target : Nat) : State :=
  ((s.setFld a 16 16 target).setFld a 15 8 (s.fld a 15 8 + 1)).setFld a 30 30 0

/-- A request to switch to `target` by a GO or a waypoint (R38): nothing when it is active and nothing is pending; a
pending switch is cancelled by a request for the active bank and retargeted by any other. PENDING_TARGET keeps the last
pending target. -/
def State.bankRequest (s : State) (a target : Nat) : State :=
  if s.activeBank a = target then
    if s.bit a 30 then s.setFld a 30 30 0 else s
  else (s.setFld a 30 30 1).setFld a 1 1 target

/-! ### Waypoint and GO in one clock (R38, R177, R269) -/

/-- A waypoint has requested switch `k` at the present raw value: a GO in the same clock yields to it. -/
def State.wpSame (s : State) (k : Nat) : Bool := s.chrono.wpReq.get (fun _ => none) k == some s.raw

/-- Note that a waypoint requests switch `k` now. -/
def State.wpNote (s : State) (k : Nat) : State :=
  { s with chrono.wpReq := s.chrono.wpReq.set (fun _ => none) k (some s.raw) }

end Sys2Proof.Machine
end

