-- ==== Sys2Proof/Machine/Cells.lean ====
section
/-!
DEFINITION. Machine/Cells.lean: free lists and their totals (R230, R232, Table 11.6), which commissioning, resets and the
threshold counters need besides chapter 11.
-/
namespace Sys2Proof.Machine

/-- Cells in a list of runs. -/
def runsLen : List Run → Nat
  | [] => 0
  | r :: rs => r.count + runsLen rs

/-- Cells of each list. -/
def listCells : Nat := 20971520

/-- Free list `k`. -/
def State.freeList (s : State) (k : Nat) : FreeList := s.pool.lists.get (fun _ => {}) k

/-- Replace free list `k`. -/
def State.setFree (s : State) (k : Nat) (x : FreeList) : State :=
  { s with pool.lists := s.pool.lists.set (fun _ => {}) k x }

/-- Cells in the HBM part. -/
def FreeList.hbm (x : FreeList) : Nat := x.fresh.count + (x.carriers.map runsLen).sum

/-- Cells on the list. -/
def FreeList.free (x : FreeList) : Nat := runsLen x.cache + x.hbm

/-- Cells a list's cache holds after commissioning: the manual states that every cell is free and not where. -/
def cacheStart : Nat := 1024

/-- Every cell is threaded into its list (R232). -/
def State.threadLists (s : State) : State :=
  { s.each (List.range 16) (fun k s =>
      s.setFree k { cache := [⟨0, cacheStart⟩], fresh := ⟨cacheStart, listCells - cacheStart⟩ }) with
    pool.writers := [], pool.reading := [], pool.orphans := [], pool.mcq := [], pool.asking := [], pool.audit := none,
    pool.sweep := none }

/-- POOL_FREE_CNT of list `k`. -/
def State.freeCnt (s : State) (k : Nat) : Nat := (s.freeList k).free

/-- POOL_FREE_TOTAL. -/
def State.freeTotal (s : State) : Nat := ((List.range 16).map s.freeCnt).sum

/-- All slots of the cell region (R230). -/
def allCells : Nat := 335544320

end Sys2Proof.Machine
end

