-- ==== Sys2Proof/Machine/Crc.lean ====
section
/-!
DEFINITION. Machine/Crc.lean: the CRC of the check-value units (R349, Table 17.2), which frames, cells and messages use too.
-/
namespace Sys2Proof.Machine

/-- The parameters of a check (R349). -/
structure CrcParams where
  width : Nat
  poly : Nat
  init : Nat
  refin : Bool
  refout : Bool
  xorout : Nat
deriving DecidableEq, Repr

/-- The preset checks (Table 17.2). -/
def crcPreset : Nat → CrcParams
  | 0 => ⟨32, 0x04C11DB7, 0xFFFFFFFF, true, true, 0xFFFFFFFF⟩
  | 1 => ⟨32, 0x1EDC6F41, 0xFFFFFFFF, true, true, 0xFFFFFFFF⟩
  | 2 => ⟨16, 0x1021, 0xFFFF, false, false, 0⟩
  | _ => ⟨64, 0x42F0E1EBA9EA3693, 0, false, false, 0⟩

/-- The low `n` bits of a number in reverse order. -/
def reflectBits : Nat → Nat → Nat
  | 0, _ => 0
  | n + 1, v => v % 2 * 2 ^ n + reflectBits n (v / 2)

/-- One bit step of a CRC of `w` bits in normal form. -/
def crcBit (w poly r : Nat) : Nat :=
  if r / 2 ^ (w - 1) % 2 = 1 then (r * 2 % 2 ^ w) ^^^ poly else r * 2 % 2 ^ w

/-- `n` bit steps. -/
def crcBits (w poly : Nat) : Nat → Nat → Nat
  | 0, r => r
  | n + 1, r => crcBits w poly n (crcBit w poly r)

/-- A byte enters the running value (R349, R350). -/
def crcByte (p : CrcParams) (r : Nat) (b : Byte) : Nat :=
  let v := if p.refin then reflectBits 8 b.toNat else b.toNat
  crcBits p.width p.poly 8 (r ^^^ (v * 2 ^ (p.width - 8)))

/-- Bytes enter the running value in ascending order. -/
def crcFeed (p : CrcParams) (r : Nat) : List Byte → Nat
  | [] => r
  | b :: bs => crcFeed p (crcByte p r b) bs

/-- The result of a running value (R349). -/
def crcResult (p : CrcParams) (r : Nat) : Nat :=
  (if p.refout then reflectBits p.width r else r) ^^^ p.xorout

/-- A CRC over a byte string with its own INIT. -/
def crcOf (p : CrcParams) (bs : List Byte) : Nat := crcResult p (crcFeed p p.init bs)

/-- The FCS of a frame is right: CRC-32 over all but its last four bytes, sent lowest byte first. -/
def fcsOk (bs : List Byte) : Bool :=
  decide (4 ≤ bs.length) && ofLe (bs.drop (bs.length - 4)) == crcOf (crcPreset 0) (bs.take (bs.length - 4))

/-- A frame with its FCS computed again (R192), inverted where its end says so (R246). -/
def withFcs (bs : List Byte) (inverted : Bool) : List Byte :=
  let b := bs.take (bs.length - 4)
  let c := crcOf (crcPreset 0) b
  b ++ leBytes 4 (if inverted then 0xFFFFFFFF - c else c)

/-- CRC-32C with an initial value (R202, R212). -/
def crc32c (init : Nat) (bs : List Byte) : Nat := crcOf { crcPreset 1 with init := init } bs

end Sys2Proof.Machine
end

