-- ==== Sys2Proof/Machine/Flags.lean ====
section
/-!
DEFINITION. Machine/Flags.lean: cells other than data on their way to a group (R287), Meridian messages as bytes (Table 16.1), the
event tree (R355 to R361), time passing (R71, R365, R366), and how a long operation
begins, is refused and ends (R41), since its end can raise an event.
-/
namespace Sys2Proof.Machine

/-! ### Events -/

/-- The leaf of bit `b` of group `g` (R355). -/
def leafOf (g b : Nat) : Nat := 32 * g + b

/-- A leaf's status bit is set (R356). -/
def State.setStatus (s : State) (leaf : Nat) : State := s.setBit (Reg.evtStatus (leaf / 32)) (leaf % 32) true

/-- A leaf is enabled (R357). -/
def State.leafEnabled (s : State) (leaf : Nat) : Bool := s.bit (Reg.evtEnable (leaf / 32)) (leaf % 32)

/-- The view of event and Logbook time stamps (Table 18.6). -/
def State.evtView (s : State) : Nat := s.fld Reg.evtCtrl 3 0

/-- Capacity of the event buffer (R358). -/
def evtBufMax : Nat := 4096

/-- The leaf of a full event buffer; it never produces a record (R358). -/
def leafBufOverflow : Nat := 672

/-- Put a record into the event buffer, or discard and count it when the buffer is full (R358). SEQ counts both. -/
def State.putRecord (s : State) (leaf : Nat) (fwd : Bool) (view : Nat) (ns32 : Word) (subns : Byte) (src : Nat)
    (words : List Word) : State :=
  let r : EvRec := ⟨leaf, fwd, view, ns32, subns, src, s.obs.seq, words⟩
  let s1 := { s with obs.seq := s.obs.seq + 1 }
  if s1.obs.buf.length < evtBufMax then { s1 with obs.buf := s1.obs.buf ++ [r] }
  else (s1.bump Reg.evtBufDrop).setStatus leafBufOverflow

/-- The groups that Rhumb group masks and the device's up groups leave usable toward device `d` (R285). -/
def State.usableSet (s : State) (d : Nat) : Word := s.rd (Reg.rhbReach d) &&& s.rd Reg.rhbStatus &&& 0xFFFF

/-- Link group `g` beside its registers. -/
def State.group (s : State) (g : Nat) : Group := s.rhb.groups.get (fun _ => {}) g

/-- Replace a group. -/
def State.setGroup (s : State) (g : Nat) (x : Group) : State :=
  { s with rhb.groups := s.rhb.groups.set (fun _ => {}) g x }

/-! ### Cells (Table 13.2, R287) -/

/-- IDLE. -/
def lblIdle : Nat := 0
/-- DATA_UC. -/
def lblUc : Nat := 1
/-- DATA_MC. -/
def lblMc : Nat := 2
/-- CREDIT. -/
def lblCredit : Nat := 3
/-- CONTROL. -/
def lblControl : Nat := 4
/-- TIME. -/
def lblTime : Nat := 5
/-- HEARTBEAT. -/
def lblHeartbeat : Nat := 6
/-- SNAPSHOT. -/
def lblSnapshot : Nat := 7

/-- The groups of a set, ascending. -/
def groupsOf (w : Word) : List Nat := (List.range 16).filter fun i => Machine.bit w i

/-- Put a cell into its group's waiting cells, by label (R287). -/
def State.queueCell (s : State) (g : Nat) (c : Cell) : State :=
  let x := s.group g
  let c := { c with grp := g, src := s.devId }
  s.setGroup g
    (if c.label = lblHeartbeat then { x with hb := x.hb ++ [c] }
    else if c.label = lblTime then { x with time := x.time ++ [c] }
    else if c.label = lblCredit then { x with credit := x.credit ++ [c] }
    else if c.label = lblControl then { x with control := x.control ++ [c] }
    else if c.label = lblSnapshot then { x with snap := x.snap ++ [c] }
    else { x with data := x.data ++ [c] })

/-- A cell other than data goes on the lowest-numbered group of the usable set (R287); an empty set sends nothing. -/
def State.sendOther (s : State) (d : Nat) (c : Cell) : State :=
  match groupsOf (s.usableSet d) with
  | g :: _ => s.queueCell g { c with dest := d }
  | [] => s

/-! ### Meridian messages (Tables 16.1 and 16.4, R331, R341) -/

/-- TYPE of a message (Table 16.1). -/
def merType : MerBody → Nat
  | .announce .. => 1
  | .fan .. => 2
  | .ack _ => 3
  | .collect _ => 4
  | .reply _ => 5
  | .event .. => 6
  | .wpReport .. => 7
  | .sync .. => 8
  | .delayReq .. => 9
  | .delayResp .. => 10

/-- A time in the format of R75 as 12 bytes: seconds, ns, fraction (Table 16.4). -/
def timeBytes (t : BitVec 96) : List Byte := leBytes 6 (secOf t) ++ leBytes 4 (nsOf t) ++ leBytes 2 (fracOf t)

/-- Bytes 12 to 235 of a time message (Table 16.4). -/
def timeBody (view : Nat) (first second : List Byte) : List Byte :=
  leBytes 1 (view % 16) ++ List.replicate 3 0 ++ first ++ second ++ List.replicate (220 - first.length - second.length) 0

/-- Bytes 12 to 235 by TYPE. -/
def merBody : MerBody → List Byte
  | .sync v t1 => timeBody v (timeBytes t1) []
  | .delayReq v t3 => timeBody v (timeBytes t3) []
  | .delayResp v t4 t3 => timeBody v (timeBytes t4) (timeBytes t3)
  | b => (List.range 224).map (Config.merBody b)

/-- A message's 236 bytes before CHECK (Table 16.1); numbers lowest byte first: DESIGN CHOICE, log 129. -/
def merRaw (m : MerMsg) : List Byte :=
  let strap := if merType m.body = 1 then m.strap % 4 else 0
  leBytes 1 (merType m.body) ++ leBytes 1 (ofBool m.bcast * 128 + strap) ++ leBytes 2 (m.dest % 1024) ++ leBytes 2 (m.src % 1024) ++
    leBytes 2 m.nonce ++ leBytes 4 m.seq.toNat ++ merBody m.body

/-- CHECK over the bytes before it (Table 16.1). -/
def merCheck (bs : List Byte) : Word := BitVec.ofNat 32 (crc32c 0xFFFFFFFF bs)

/-- A message with its CHECK. -/
def sealMer (m : MerMsg) : MerMsg := { m with check := merCheck (merRaw m) }

/-- The 240 bytes of a message. -/
def merBytes (m : MerMsg) : List Byte := merRaw m ++ leBytes 4 m.check.toNat

/-- The view whose transmit stamp a message takes as it leaves (R337). -/
def merStamp : MerBody → Option Nat
  | .sync v _ => some (v % 16)
  | .delayReq v _ => some (v % 16)
  | _ => none

/-- The cell of a message (R337, R341). -/
def merCell (m : MerMsg) : Cell :=
  { label := if 8 ≤ merType m.body then lblTime else lblControl, payload := merBytes m, stamp := merStamp m.body }

/-- A MAC register pair. -/
def State.mac (s : State) (lo hi : Nat) : List Byte := beBytes 6 ((s.rd lo).toNat + s.fld hi 15 0 * 2 ^ 32)

/-- The management-port frame of a message, before its FCS (R341). -/
def State.merFrame (s : State) (m : MerMsg) : List Byte :=
  s.mac Reg.merMgmtDaLo Reg.merMgmtDaHi ++ s.mac Reg.merMgmtSaLo Reg.merMgmtSaHi ++ beBytes 2 0x88B6 ++ merBytes m

/-- The way toward device `d` (R341): a cell while `d` has a usable set, else MGMT_A, or MGMT_B while MGMT_A is down; none
while all are down. -/
def State.merPath (s : State) (d : Nat) : Option (Option Nat) :=
  if s.usableSet d != 0 then some none
  else if s.bit (Reg.netPortStatus 24) 31 then some (some 73)
  else if s.bit (Reg.netPortStatus 25) 31 then some (some 74)
  else none

/-- A Meridian message toward device `d` (R341). A device in SAFE sends nothing (R338). -/
def State.sendMer (s : State) (d : Nat) (m : MerMsg) : State :=
  if s.dev.mode = .safe then s
  else
    match s.merPath d with
    | some none => s.sendOther d (merCell m)
    | some (some p) => s.emit (.meridian p (s.merFrame m))
    | none => s

/-- A message of this device toward device `d`, with the manager's NONCE (Table 16.1). -/
def State.merMsg (s : State) (d : Nat) (seq : Word) (body : MerBody) : MerMsg :=
  sealMer { bcast := false, strap := s.mer.strap, dest := d, src := s.devId, nonce := s.mer.nonce, seq := seq, body := body, check := 0 }

/-- Neither NONE nor MANAGER: what chapter 16 calls a worker, the standby manager among them. DEDUCED. -/
def State.merWorker (s : State) : Bool := s.mer.role == 1 || s.mer.role == 2

/-- A worker forwards an event of a selected group to the manager; with no manager heard the event is counted (R340). -/
def State.forward (s : State) (leaf : Nat) (t : BitVec 96) (words : List Word) : State :=
  if s.merWorker ∧
      (if leaf / 32 < 32 then s.bit Reg.merEvtFwdLo (leaf / 32) else s.bit Reg.merEvtFwdHi (leaf / 32 - 32)) then
    match s.mer.mgr with
    | some d => s.sendMer d (s.merMsg d 0 (.event leaf s.evtView (ns32Of t) (subnsOf t) s.obs.seq words))
    | none => s.bump Reg.merEvtLost
  else s

/-- An occurrence of a leaf's condition with its instance and data words (R356, R358, Tables 18.2 and 18.3): status is
set, an enabled leaf of a group with RING_EN is recorded, a selected group is forwarded. -/
def State.raise (s : State) (leaf inst : Nat) (w1 w2 w3 : Word) : State :=
  let t := s.viewTime s.evtView s.raw
  let words := [BitVec.ofNat 32 inst, w1, w2, w3]
  let s1 := s.setStatus leaf
  let s2 :=
    if s.leafEnabled leaf ∧ s.bit (Reg.evtRoute (leaf / 32)) 31 ∧ leaf ≠ leafBufOverflow then
      s1.putRecord leaf false s.evtView (ns32Of t) (subnsOf t) s.devId words
    else s1
  s2.forward leaf t words

/-- An occurrence without data words 1 to 3. -/
def State.event (s : State) (leaf inst : Nat) : State := s.raise leaf inst 0 0 0

/-- Group `g` has an enabled leaf with status 1 (R357). -/
def State.groupActive (s : State) (g : Nat) : Bool :=
  s.rd (Reg.evtStatus g) &&& s.rd (Reg.evtEnable g) != 0

/-- EVT_SUMMARY bits of groups `lo` to `lo + n − 1` (R357). -/
def State.summary (s : State) (lo : Nat) : Nat → Nat
  | 0 => 0
  | n + 1 => s.summary lo n + (if s.groupActive (lo + n) then 2 ^ n else 0)

/-- PENDING of a vector: a routed group is active, or the ring requests it (R361). -/
def State.vecPending (s : State) (v : Nat) : Bool :=
  (List.range 40).any (fun g =>
    s.groupActive g && s.bit (Reg.evtRoute g) 30 && s.fld (Reg.evtRoute g) 5 0 == v) ||
  (s.obs.ringReq && s.fld Reg.evtRingCfg 29 24 == v)

/-- EVT_VEC_PEND of `n` vectors from `lo`. -/
def State.vecPendWord (s : State) (lo : Nat) : Nat → Nat
  | 0 => 0
  | n + 1 => s.vecPendWord lo n + (if s.vecPending (lo + n) then 2 ^ n else 0)

/-! ### Counter memory (R362) -/

/-- The 64-bit counter at word `i` of counter memory. -/
def State.cntGet (s : State) (i : Nat) : BitVec 64 := s.obs.cnt.get (fun _ => 0) i

/-- Add to a counter, modulo 2^64. -/
def State.cntAdd (s : State) (i n : Nat) : State :=
  { s with obs.cnt := s.obs.cnt.set (fun _ => 0) i (s.cntGet i + BitVec.ofNat 64 n) }

/-- Set a counter. -/
def State.cntSet (s : State) (i : Nat) (v : BitVec 64) : State :=
  { s with obs.cnt := s.obs.cnt.set (fun _ => 0) i v }

/-- Count one frame and its bytes in pair `p`. -/
def State.cntPair (s : State) (p bytes : Nat) : State := (s.cntAdd (2 * p) 1).cntAdd (2 * p + 1) bytes

/-! ### Long operations -/

/-- BUSY falls: OPSTAT takes its end, and with EVENT_EN the completion leaf is raised in the same clock (R41, R368). -/
def State.opEnd (s : State) (o : LongOp) (e : OpEnd) : State :=
  let w := opStatEnd (s.rd (opStat o)) e
  let s1 := s.wr (opStat o) w
  if s.bit (opCtrl o) 29 then s1.raise (opLeaf o) (opUnit o) w 0 0 else s1

/-- A START that ends at once in FAIL: processed as any START, then BUSY falls with its REASON (R41). -/
def State.opRefuse (s : State) (o : LongOp) (reason : Nat) : State := (s.opBegin o).opEnd o (.failed reason)

/-- A write of OP_CTRL (R41): START while BUSY is ignored and only sets START_IGNORED; otherwise the RW fields take the
written values, ABORT is processed first, then START. -/
def State.opCtrlWrite (s : State) (o : LongOp) (v : Word) (start abort : State → State) : State :=
  if Machine.bit v 31 && !Machine.bit v 30 && s.busy o then s.setBit (opCtrl o) 28 true
  else
    let s1 := s.wrTyped (opCtrl o) v
    let s2 := if Machine.bit v 30 && s1.busy o then abort s1 else s1
    if Machine.bit v 31 then (if s2.busy o then s2.setBit (opCtrl o) 28 true else start s2) else s2

end Sys2Proof.Machine
end

