-- ==== Sys2Proof/Machine/Clock.lean ====
section
/-!
DEFINITION. Machine/Clock.lean: time passing. One tick of the 1 GHz clock adds 65,536 to the raw counter (R71); the 1.50
GHz clocks that fall in it are counted by the threshold counters (R365) and by pipeline slot accounting (R366).
-/
namespace Sys2Proof.Machine

/-- Store units in use (Table 08.9). -/
def State.reasmUnits (s : State) : Nat := (s.xgm.reasm.map fun e => e.2.units).sum

/-- Cells of frames. -/
def chainCells (l : List Stored) : Nat := (l.map fun f => f.cells.length).sum

/-- The occupancy that a threshold counter samples (Table 18.5); out of range reads 0. -/
def State.occupancy (s : State) (source index : Nat) : Nat :=
  match source with
  | 0 => if index < 262144 then chainCells (s.voq.q.get (fun _ => {}) index).frames else 0
  | 1 => if index < 524288 then chainCells (s.alm.nodes.get (fun _ => s.alm.blank) (5 * 524288 + index)).frames else 0
  | 2 => allCells - s.freeTotal
  | 3 => s.pool.mcq.length
  | 4 => if index < 9 then ((s.cmp.ingress.get (fun _ => []) index).map fun f => f.bytes.length).sum else 0
  | 5 => if index < 24 then ((s.alm.staging.get (fun _ => []) (48 + index)).map fun f => f.len).sum else 0
  | 6 => s.reasmUnits
  | 7 => s.sxt.learns.length
  | 8 => s.obs.buf.length
  | 9 => s.act.rx.length
  | _ => 0

/-- Threshold counter `k` counts the clocks in which its occupancy exceeds its level (R365). -/
def State.thrCount (s : State) (k clocks : Nat) : State :=
  let c := s.rd (Reg.obsThrCfg k)
  if Machine.bit c 31 ∧ s.occupancy (Machine.fld c 27 24) (Machine.fld c 18 0) > s.fld (Reg.obsThrLevel k) 28 0 then
    s.wrWords (Reg.obsThrCountLo k) (toWords 2 (s.rdWords (Reg.obsThrCountLo k) 2 + clocks))
  else s

/-- A frame waits before physical pipeline `p`: in its ingress buffer, or to recirculate. The spare counts as if none did
(R366). -/
def State.frameWaits (s : State) (p : Nat) : Bool :=
  p != s.fld Reg.devPipeSpare 3 0 &&
    (!(s.cmp.ingress.get (fun _ => []) p).isEmpty || !(s.cmp.recirc.get (fun _ => []) p).isEmpty)

/-- Empty slots of a pipeline: clocks not taken by passes already counted, in the bucket of R366. -/
def Slots.idle (x : Slots) (clocks : Nat) (waits : Bool) : Slots :=
  let n := clocks - min clocks x.ahead
  { x with
    clocks := x.clocks + n,
    ahead := x.ahead - min clocks x.ahead,
    front := if waits then x.front else x.front + n,
    back := if waits then x.back + n else x.back }

/-- Slot accounting of pipeline `p` over clocks (R366). -/
def State.slotIdle (s : State) (p clocks : Nat) : State :=
  { s with obs.slots := s.obs.slots.upd (fun _ => {}) p fun x => x.idle clocks (s.frameWaits p) }

/-- `n` ticks of the time clock pass (R71, R365, R366). -/
def State.elapse (s : State) (n : Nat) : State :=
  let c := pipeClocks (s.raw.toNat / nsUnit) n
  let s1 := s.each (List.range 16) fun k s => s.thrCount k c
  let s2 := s1.each (List.range 9) fun p s => s.slotIdle p c
  { s2 with raw := s.raw + BitVec.ofNat 96 (n * nsUnit) }

/-- Time passes up to a raw value; a value already passed leaves time as it is. The fraction within a tick that a
captured instant names stays with the capture. -/
def State.advance (s : State) (t : Raw) : State :=
  s.elapse (t.toNat / nsUnit - s.raw.toNat / nsUnit)

/-- Units of the raw counter in one µs. -/
def usRaw : Nat := 1000 * nsUnit

/-- The raw value `us` µs from now. -/
def State.after (s : State) (us : Nat) : Raw := s.raw + BitVec.ofNat 96 (us * usRaw)

/-- A raw deadline has been reached. -/
def State.reached (s : State) (t : Raw) : Bool := t.toNat ≤ s.raw.toNat

end Sys2Proof.Machine
end

