-- ==== Sys2Proof/Machine/Beat.lean ====
section
/-!
DEFINITION. Machine/Beat.lean: Lighthouse heartbeats (R309 to R311), which every change of mode sends.
-/
namespace Sys2Proof.Machine

/-! ### Lighthouse: pair, session, heartbeats (R309 to R311, Table 15.1) -/

/-- LHT_CTRL.ENABLE. -/
def State.lhtOn (s : State) : Bool := s.bit Reg.lhtCtrl 0

/-- The standby of a pair (R309). -/
def State.lhStandby (s : State) : Bool := s.lhtOn && s.dev.mode == .standby

/-- The active device of a pair (R309). -/
def State.lhActive (s : State) : Bool := s.lhtOn && s.serving

/-- LHT_PEER_DEV. -/
def State.peerDev (s : State) : Nat := s.fld Reg.lhtPeerDev 9 0

/-- A heartbeat path: 0 LH_PEER, 1 Rhumb. -/
def State.lhPath (s : State) (p : Nat) : LhPath := s.lht.paths.get (fun _ => {}) p

/-- Replace a path. -/
def State.setLhPath (s : State) (p : Nat) (x : LhPath) : State :=
  { s with lht.paths := s.lht.paths.set (fun _ => {}) p x }

/-- A path is up: the LH_PEER link, or a usable set toward the peer (R310). -/
def State.pathUp (s : State) (p : Nat) : Bool := if p = 0 then s.bit Reg.lhtStatus 31 else s.usableSet s.peerDev != 0

/-- Snapshot data toward the peer: on LH_PEER while it is up, otherwise in SNAPSHOT cells (R315). -/
def State.sendCopy (s : State) (o : Output) (cells : List (List Byte)) : State :=
  if s.pathUp 0 then s.emit o
  else s.each (List.range cells.length) fun i s =>
    s.sendOther s.peerDev { label := lblSnapshot, payload := (cells.getD i []).take 240 }

/-- SESSION. -/
def Sess.val : Sess → Nat
  | .draw k => (Config.session k).toNat
  | .value v => v

/-- A new SESSION, from the DRBG or, while it delivers nothing, from the raw counter; HB_SEQ restarts (R311). -/
def State.newSession (s : State) : State :=
  let v : Sess := if s.sec.error then .value (s.raw.toNat % 65536) else .draw s.lht.sessions
  let s1 := { s with lht.session := v, lht.sessions := s.lht.sessions + 1 }
  (s1.setLhPath 0 { s1.lhPath 0 with sent := 0 }).setLhPath 1 { s1.lhPath 1 with sent := 0 }

/-- The standby asks for a bulk sync (R315, R318). -/
def State.syncReq (s : State) : Bool :=
  s.dev.mode == .standby &&
    ((s.bit Reg.lhtStatus 26 && s.bit Reg.lhtCtrl 2) || (s.lht.sync.map fun r => r.asked).getD false)

/-- The 64 bytes of a heartbeat on a path with its HB_SEQ (Table 15.1). -/
def State.hbBytes (s : State) (p seq : Nat) : List Byte :=
  let standby := s.dev.mode == .standby
  let b := leBytes 4 (s.rd Reg.lhtPairId).toNat ++ leBytes 1 (modeCode s.dev.mode + ofBool s.syncReq * 128) ++ leBytes 1 p ++
    leBytes 2 s.lht.session.val ++ leBytes 8 seq ++ leBytes 8 s.lht.incSeq ++
    leBytes 4 (if standby then (s.rd Reg.lhtSnapGen).toNat else 0) ++ leBytes 4 (s.rd Reg.lhtHealthLocal).toNat ++
    leBytes 8 (if standby then 0 else s.chrono.ponSf) ++ List.replicate 20 0
  b ++ leBytes 4 (crc32c 0xFFFFFFFF b)

/-- A MAC register pair, or the locally administered address of a device while it reads zero (R309). -/
def State.lhMac (s : State) (lo hi dev : Nat) : List Byte :=
  let v := (s.rd lo).toNat + s.fld hi 15 0 * 2 ^ 32
  beBytes 6 (if v = 0 then 0x020000000000 + dev else v)

/-- A frame on LH_PEER (R309). -/
def State.lhFrame (s : State) (body : List Byte) : List Byte :=
  s.lhMac Reg.lhtMacDaLo Reg.lhtMacDaHi s.peerDev ++ s.lhMac Reg.lhtMacSaLo Reg.lhtMacSaHi s.devId ++ beBytes 2 0x88B5 ++ body

/-- One heartbeat on a path that is up (R310). -/
def State.hbSend (s : State) (p : Nat) : State :=
  if !s.pathUp p then s
  else
    let x := s.lhPath p
    let b := s.hbBytes p (x.sent + 1)
    let s1 := s.setLhPath p { x with sent := x.sent + 1 }
    if p = 0 then s1.emit (.lhPeer (s1.lhFrame b)) else s1.sendOther s1.peerDev { label := lblHeartbeat, payload := b }

/-- A heartbeat on each path, in the modes that have a role (R309, R310). -/
def State.hbBoth (s : State) : State := if s.lhActive || s.lhStandby then (s.hbSend 0).hbSend 1 else s

/-- The standby becomes STALE (R318). -/
def State.goStale (s : State) : State :=
  if s.bit Reg.lhtStatus 26 then s else (s.setBit Reg.lhtStatus 26 true).event (leafOf 17 7) 0

end Sys2Proof.Machine
end

