-- ==== Sys2Proof/Machine/MerBase.lean ====
section
/-!
DEFINITION. Machine/MerBase.lean: the DRBG's requests, and Meridian roles (R328 to R330), which every change of mode ranks anew.
-/
namespace Sys2Proof.Machine

/-! ### The DRBG (Table 19.2) -/

/-- The reseed interval of the DRBG: 2^20 requests at basic level, 2^RESEED_LOG2 at expert level, values outside 10 to 20
acting as 20 (Table 19.7). -/
def State.reseedInterval (s : State) : Nat :=
  let k := s.fld Reg.secCtrl 4 0
  if s.bit Reg.secCtrl 31 && 10 ≤ k && k ≤ 20 then 2 ^ k else 2 ^ 20

/-- A generate request of the DRBG: a fresh free value; the count starts again at a reseed (Table 19.2). -/
def State.generate (s : State) : Nat × State :=
  let (i, s1) := s.draw
  let n := s.sec.drbg + 1
  (i, { s1 with sec.drbg := if n < s.reseedInterval then n else 0 })

/-! ### Configuration (Tables 16.2 and 16.3) -/

/-- MER_EXPERT_EN. -/
def State.merExpert (s : State) : Bool := s.bit Reg.merCtrl 31

/-- MER_LOSS. -/
def State.merLoss (s : State) : Nat := if s.merExpert then max 1 (s.fld Reg.merExpCfg 31 28) else 3

/-- ANNOUNCE_MS. -/
def State.announceMs (s : State) : Nat := if s.merExpert then max 1 (s.fld Reg.merExpCfg 27 20) else 10

/-- RETRIES. -/
def State.merRetries (s : State) : Nat := if s.merExpert then s.fld Reg.merExpCfg 19 16 else 3

/-- RETRY_US. -/
def State.retryUs (s : State) : Nat := if s.merExpert then max 1 (s.fld Reg.merExpCfg 15 0) else 200

/-- TIME_PERIOD_MS (Table 16.5). -/
def State.timePeriodMs (s : State) : Nat := if s.merExpert then max 1 (s.fld Reg.merTimeCfg 23 16) else 1

/-- MER_CTRL.ENABLE. -/
def State.merOn (s : State) : Bool := s.bit Reg.merCtrl 16

/-! ### Ranks and roles (R328, R329) -/

/-- The first element of a rank under a strap. -/
def tierOf (strap : Nat) : Nat := if strap = 1 then 1 else 0

/-- A strap and a PRIO make a candidate. -/
def isCandidate (strap prio : Nat) : Bool := strap == 1 || (strap != 2 && prio != 0)

/-- A rank (tier, PRIO, −DEV_ID) as one number of the same order. -/
def rankKey (tier prio dev : Nat) : Nat := tier * 2 ^ 18 + prio % 256 * 2 ^ 10 + (1023 - dev % 1024)

/-- PRIO. -/
def State.ownPrio (s : State) : Nat := s.fld Reg.merCtrl 7 0

/-- The ranks of the candidates: this device, outside SAFE (R338), and the devices it hears. -/
def State.merCandidates (s : State) : List (Nat × Nat) :=
  (if isCandidate s.mer.strap s.ownPrio && s.dev.mode != .safe then
    [(rankKey (tierOf s.mer.strap) s.ownPrio s.devId, s.devId)] else []) ++
  s.mer.heard.filterMap fun e =>
    match e.2 with
    | some h => if isCandidate h.strap h.prio && !h.safe then some (rankKey h.tier h.prio e.1, e.1) else none
    | none => none

/-- The highest of a list of ranks. -/
def topRank (l : List (Nat × Nat)) : Option Nat :=
  (l.foldl (fun (a : Option (Nat × Nat)) x =>
    match a with
    | some y => if y.1 < x.1 then some x else some y
    | none => some x) none).map Prod.snd

/-- This device's role, the manager and the standby manager (R328, R329). -/
def State.roles (s : State) : Nat × Option Nat × Option Nat :=
  if !s.merOn || s.dev.mode == .load || s.dev.mode == .commission then (0, none, none)
  else
    let c := s.merCandidates
    let m := topRank c
    let st := topRank (c.filter fun x => some x.2 != m)
    (if m = some s.devId then 3 else if st = some s.devId then 2 else 1, m, st)

/-- Taking the role MANAGER (R330): a fresh NONCE, every SEQ 0. While the DRBG delivers nothing, the NONCE stays (R377). -/
def State.takeManager (s : State) : State :=
  let s1 := { s with mer.targets := [], mer.open' := [], mer.collect := none }
  if s.sec.error then s1
  else
    let (i, s2) := s1.generate
    { s2 with mer.nonce := (Config.freeNonce i).toNat % 65536 }

/-- Losing the role MANAGER (R330): queued fan-out and collect records are discarded, and DISCARDED is set. -/
def State.loseManager (s : State) : State :=
  let s1 := { s with mer.targets := [], mer.open' := [], mer.collect := none }
  ((s1.setBit Reg.merFanStatus 30 true).setFld Reg.merFanStatus 8 0 0).setBit Reg.merCollStatus 31 false

/-- The roles follow from what is heard, the mode and the configuration; a change of role raises its event (R329, R330). -/
def State.reRank (s : State) : State :=
  let r := s.roles
  let s1 := { s with mer.role := r.1, mer.mgr := r.2.1, mer.standby := r.2.2 }
  if r.1 = s.mer.role then s1
  else
    let s2 := if r.1 = 3 then s1.takeManager else if s.mer.role = 3 then s1.loseManager else s1
    s2.event (leafOf 18 0) 0

end Sys2Proof.Machine
end

