-- ==== Sys2Proof/Machine/ModeOps.lean ====
section
/-!
DEFINITION. Machine/ModeOps.lean: what a change of mode, a SAFE trigger, a cold reset and a warm reset do to the whole
device (chapter 03), as shared operations: many commands of other chapters cause them.
-/
namespace Sys2Proof.Machine

/-! ### Physical pipelines and the structure (R27, R31, R32) -/

/-- The structure of physical pipeline `p`. -/
def State.pipe (s : State) (p : Nat) : PipeStruct := s.dev.pipes.get (fun _ => {}) p

/-- Load physical pipeline `p`. -/
def State.setPipe (s : State) (p : Nat) (x : PipeStruct) : State :=
  { s with dev.pipes := s.dev.pipes.set (fun _ => {}) p x }

/-- The key of a chart entry: physical pipeline, bank, table, index. -/
def chartKey (p bank t i : Nat) : Nat := ((p * 2 + bank) * 256 + t) * 2 ^ 21 + i

/-- The physical pipeline of a chart key. -/
def chartPipe (k : Nat) : Nat := k / 2 ^ 21 / 512

/-- What the committed image puts into a pipeline. -/
def pipeOf (b : ImageBody) (id : Word) : PipeStruct := ⟨b.parse, b.stages, b.actions, id, b.templates⟩

/-- An entry that nothing has written. -/
def chartBlank : List Word := List.replicate 16 0

/-- Write chart entries by key. -/
def State.putChart (s : State) : List (Nat × List Word) → State
  | [] => s
  | e :: l => ({ s with cmp.chart := s.cmp.chart.set (fun _ => chartBlank) e.1 e.2 } : State).putChart l

/-- Default chart entries of a physical pipeline, for the tables `p` selects, in both banks. -/
def defaultEntries (l : List DefEntry) (pipe : Nat) (p : Nat → Bool) : List (Nat × List Word) :=
  (l.filter fun e => p e.table).flatMap fun e =>
    [(chartKey pipe 0 e.table e.index, (e.words ++ chartBlank).take 16), (chartKey pipe 1 e.table e.index, (e.words ++ chartBlank).take 16)]

/-- Tables bound to stages whose layout two images share, stage by stage. -/
def keptTables : List StageD → List StageD → List Nat
  | a :: as, b :: bs =>
    (match a.bind with | some t => if a = b then [t.table] else [] | none => []) ++ keptTables as bs
  | _, _ => []

/-- The charts of physical pipeline `dst` for an image (Table 02.6 step 2): the entries of stages whose layout pipeline `src`
shares are copied from it, both banks; the others start with their ENTRY defaults. -/
def State.chartsFrom (s : State) (b : ImageBody) (src dst : Nat) : State :=
  let kept := keptTables (s.pipe src).stages b.stages
  let table (key : Nat) : Nat := key / 2 ^ 21 % 256
  let from' := (s.cmp.chart.filter fun e => chartPipe e.1 == src && kept.contains (table e.1)).map fun e =>
    (chartKey dst 0 0 0 + e.1 % chartKey 1 0 0 0, e.2)
  let s1 := { s with cmp.chart := s.cmp.chart.keep fun key => chartPipe key != dst }
  (s1.putChart (defaultEntries b.entries dst fun t => !kept.contains t)).putChart from'

/-- Every pipeline starts from the committed image. -/
def State.startPipes (s : State) : State :=
  s.each (List.range 9) fun p s => s.setPipe p (pipeOf s.dev.body (s.rd Reg.devImgIdActive))

/-- A pipeline that holds another structure restarts from the committed image. -/
def State.restartPipe (s : State) (p : Nat) : State :=
  let x := pipeOf s.dev.body (s.rd Reg.devImgIdActive)
  if s.pipe p = x then s else (s.chartsFrom s.dev.body p p).setPipe p x

/-- Every pipeline restarts from the committed image (R34). -/
def State.restartPipes (s : State) : State := s.each (List.range 9) fun p s => s.restartPipe p

/-- The structure memories are marked invalid (R28, R57, R378). -/
def State.invalidate (s : State) : State := { s with dev.structValid := false }

/-! ### Long operations that stop -/

/-- The reserved HBM region is cleared: snapshot slots and map copies (R56, R57, R378). -/
def State.wipeReserved (s : State) : State := { s with lht.slots := [], lht.guides := [] }

/-- Phase 2 of a full commissioning (R56): every cell is free, the reserved region is zeroed, and queue, VOQ, PON-context and
counter SRAM are cleared. -/
def State.memInit (s : State) : State :=
  { s.threadLists.wipeReserved with voq := {}, alm.nodes := [], alm.blank := { max := fullBucket, min := fullBucket }, obs.cnt := [], act := {}, rck := {}, xgm := { s.xgm with binds := [], dsq := [] } }

/-- The key store is cleared. -/
def State.clearKeyStore (s : State) : State :=
  { s with xgm.keys := [], xgm.bkeys := [], xgm.exch := [], xgm.keyData := [] }

/-- Ingress, staging and reassembly buffers are emptied. -/
def State.clearBuffers (s : State) : State :=
  { s with cmp.ingress := [], cmp.recirc := [], alm.staging := [], rhb.reasm := [], rhb.reseq := [], xgm.reasm := [] }

/-- Table SRAM and TCAM lose their content: Sextant tables and charts (R57, R378). -/
def State.wipeTables (s : State) : State := { s with cmp.chart := [], sxt.em := [], sxt.lpm := [], sxt.lpmh := [], sxt.filters := [], sxt.direct := [] }

/-- What a memory BIST leaves of the instances it touched (Table 03.15, "Afterwards"). The manual says that TARGET 2 destroys the
tables and not what they then hold: they read as empty (DESIGN CHOICE, log entry 95). -/
def State.bistAfter (s : State) (target : Nat) : State :=
  if target = 0 then s.memInit.clearBuffers.clearKeyStore
  else if target = 2 then ((s.wipeTables.each (List.range 9) fun p s => s.setPipe p {}).invalidate).setBit Reg.devCommStatus 30 false
  else
    let p := s.fld Reg.devPipeSpare 3 0
    let s1 := s.setPipe p {}
    { s1 with cmp.chart := s1.cmp.chart.keep fun k => chartPipe k != p }

/-- Repairs that wait in the sequencer go with their Fix check: DESIGN CHOICE, log 107. -/
def State.dropRepairs (s : State) : State :=
  { s with
    sxt.winAhead := ((s.sxt.winq.take s.sxt.winAhead).filter fun c => c.repair.isNone).length,
    sxt.winq := s.sxt.winq.filter fun c => c.repair.isNone }

/-- The engine of a long operation stops where it stands (R28, R34, R57, R64). -/
def State.opIdle (s : State) : LongOp → State
  | .imageLoad => { s with dev.load := none }
  | .imageSwap =>
    { s with
      dev.swap := none,
      dev.moving := match s.dev.swap with
        | some r => if r.phase = .moving then some r.k else s.dev.moving
        | none => s.dev.moving }
  | .memoryBist =>
    match s.dev.bist with
    | some t => ({ s with dev.bist := none } : State).bistAfter t
    | none => s
  | .zeroisation => { s with sec.zero := none }
  | .bulkSync => { s with lht.sync := none }
  | .scan u => { s with chk.scan := s.chk.scan.set (fun _ => none) u none }
  | .rehash => { s with sxt.rehash := false }
  | .trieRebuild => { s with sxt.trie := none }
  | .fixCheck => ({ s with sxt.fix := none } : State).dropRepairs
  | .audit => { s with pool.audit := none }
  | .sweep =>
    { s with
      pool.sweep := none
      pool.orphans := s.pool.orphans ++ (s.pool.sweep.map fun r => r.found).getD [] }

/-- A running operation ends ABORTED with a REASON (R41). -/
def State.opAbort (s : State) (o : LongOp) (reason : Nat) : State := (s.opIdle o).opEnd o (.aborted reason)

/-- Abort each running operation of a list that a test selects. -/
def State.abortWhere (s : State) (p : LongOp → Bool) (reason : Nat) : List LongOp → State
  | [] => s
  | o :: os => (if s.busy o && p o then s.opAbort o reason else s).abortWhere p reason os

/-- SRC of a scan, or the TARGET of a BIST: the low bits of ARG that Tables 03.5 and 03.15 ask for. -/
def State.opSub (s : State) (o : LongOp) : Nat := s.opArg o % 4

/-- An operation that runs in mode `old` may go on in mode `m` (Table 03.5): allowed in it, and a bulk sync in the same part,
source in ACTIVE and MAINTENANCE, receiver in STANDBY. -/
def State.goesOn (s : State) (old m : Mode) (o : LongOp) : Bool :=
  opAllowed o m (s.opSub o) (s.opSub o) && (o != .bulkSync || (old == .standby) == (m == .standby))

/-- R54: running operations not allowed in a mode just entered end ABORTED with REASON 3. -/
def State.abortDisallowed (s : State) (old m : Mode) : State := s.abortWhere (fun o => !s.goesOn old m o) 3 allLongOps

/-! ### Entering a mode -/

/-- The mode-change leaf (group 19, bit 0). -/
def leafModeChange : Nat := 608

/-- MODE takes its new value with its cause (R48, R53): disallowed operations end, the mode-change event is raised; a standby begins STALE (R318), and the pair hears of the change (R310); Meridian roles follow (R328). -/
def State.setMode (s : State) (m : Mode) (cause fatal : Nat) : State :=
  let c : Word := BitVec.ofNat 32 (fatal * 256 + cause)
  let s1 := { s with dev.mode := m, dev.trans := none }
  let s2 := (s1.wr Reg.devModeCause c).abortDisallowed s.dev.mode m
  let s3 := s2.reRank.raise leafModeChange 0 (BitVec.ofNat 32 (modeCode m)) c 0
  (if m = .standby then s3.goStale else s3).hbBoth

/-- Commissioning stops and DONE clears on leaving COMMISSION for SAFE (Table 03.7). -/
def State.commLeave (s : State) : State :=
  if s.dev.mode = .commission then
    ({ s with dev.commPhase := 0 }.setBit Reg.devCommStatus 31 false).setBit Reg.devCommStatus 30 false
  else s

/-- A refused or discarded request: REQ_REFUSED is set and the event raised; the mode stays (R51, R52). -/
def State.refuseMode (s : State) : State := (s.setBit Reg.devMode 30 true).event (leafOf 19 1) 0

/-- A REQ_GO was accepted in this clock and is not complete: a trigger of higher precedence discards it (R52). -/
def State.reqNow (s : State) : Bool :=
  match s.dev.trans with
  | some (_, cause) => cause == 2 && s.dev.transAt == s.raw
  | none => false

/-- What a trigger that coincides with a REQ_GO leaves of it: REQ_REFUSED (R52). -/
def State.reqLost (s : State) (lost : Bool) : State := if lost then s.refuseMode else s

/-- A SAFE trigger (R51, R52, R66, R67): from any mode but SAFE the device enters SAFE at once, aborting a transition; the
grace runs from this instant. -/
def State.safeEntry (s : State) (cause fatal : Nat) : State :=
  if s.dev.mode = .safe then s
  else (({ s.commLeave with dev.safeAt := some s.raw } : State).setMode .safe cause fatal).reqLost s.reqNow

/-! ### Resets -/

/-- Registers of the PWR_ window live in the Binnacle domain and stay through a cold reset (R59, R399). -/
def pwrKept (a : Nat) : Bool := 0x100000 ≤ a && a < 0x200000

/-- A cold reset (R59, R62): everything in the logic domain returns to its reset state; DEV_RESET_CAUSE, the Binnacle's
own state, the fuses and what is outside the device stay; cage channels turn off (R390). `cause` is the bits set in
DEV_RESET_CAUSE. -/
def State.coldReset (s : State) (cause : Word) : State :=
  let s0 : State :=
    { State.reset with
      pending := s.pending, out := s.out, drawn := s.drawn, rdata := s.rdata,
      regs := s.regs.keep pwrKept, hold := s.hold.keep pwrKept,
      dev := {
        perstLow := s.dev.perstLow, powerFailLow := s.dev.powerFailLow,
        zeroizeLow := s.dev.zeroizeLow, binAlive := s.dev.binAlive, flashLen := s.dev.flashLen },
      sec := { State.reset.sec with otp := s.sec.otp },
      pwr := { s.pwr with cages := s.pwr.cages.keep (fun _ => false) },
      mer := { State.reset.mer with strap := s.mer.strap },
      lht := { State.reset.lht with session := .draw s.lht.sessions, sessions := s.lht.sessions + 1 } }
  s0.wr Reg.devResetCause (s.rd Reg.devResetCause ||| cause)

/-- The ring pointers that resets clear: HEAD and TAIL of the punt and inject rings, of the Logbook ring and of the bulk
table-DMA ring, HEAD and CONS of the event ring (Table 03.8). -/
def ringPointers : List Nat :=
  ((List.range 64).flatMap fun n =>
    [Reg.devRingPuntHead n, Reg.devRingPuntTail n, Reg.devRingInjHead n, Reg.devRingInjTail n]) ++
  [Reg.obsLogRingHead, Reg.obsLogRingTail, Reg.sxtDmaHead, Reg.sxtDmaTail, Reg.evtRingHead, Reg.evtRingCons]

/-- Clear the pointers of every DMA ring; the next event record has PHASE 1 (R356). -/
def State.clearRings (s : State) : State :=
  { s.each ringPointers (fun a s => s.wr a 0) with
    obs.phase := true, obs.since := 0, obs.firstAt := none, obs.ringReq := false }

/-- Clear EVT_STATUS, the event buffer and the event ring pointers (R356). -/
def State.clearEvents (s : State) : State :=
  { (s.each (List.range 40) fun g s => s.wr (Reg.evtStatus g) 0) with obs.buf := [] }

end Sys2Proof.Machine
end

