-- ==== Sys2Proof/Machine/Integrity.lean ====
section
/-!
DEFINITION. Machine/Integrity.lean: memory errors and their reports, the patrol scrub, the check-value units and their
scans (chapter 17).
-/
namespace Sys2Proof.Machine

/-! ### Memory errors (R345 to R348) -/

/-- Capacity of the error log (R347). -/
def errLogMax : Nat := 1024

/-- CHK_ERR_HDR of a record: VALID, UNCORR, KIND, symbols or bits corrected, memory macro (Table 17.4). -/
def errHdr (kind : Nat) (uncorr : Bool) (n macroNo : Nat) : Word :=
  BitVec.ofNat 32 (2 ^ 31 + ofBool uncorr * 2 ^ 30 + kind % 16 * 2 ^ 24 + n % 64 * 2 ^ 16 + macroNo % 4096)

/-- Count a corrected or uncorrectable error by KIND, log it and raise its event (R347). -/
def State.reportError (s : State) (kind : Nat) (uncorr : Bool) (n macroNo : Nat) (addr : BitVec 64) : State :=
  let h := errHdr kind uncorr n macroNo
  let lo : Word := BitVec.ofNat 32 addr.toNat
  let hi : Word := BitVec.ofNat 32 (addr.toNat / 2 ^ 32)
  let r : ErrRec := ⟨h, lo, hi, ns32Of (s.viewTime 0 s.raw)⟩
  let s1 := s.bump (if uncorr then Reg.chkMemUncorr kind else Reg.chkMemCorr kind)
  let s2 :=
    if s1.chk.log.length < errLogMax then { s1 with chk.log := s1.chk.log ++ [r] }
    else (s1.bump Reg.chkErrDrop).event (leafOf 16 2) 0
  s2.raise (leafOf 16 (if uncorr then 1 else 0)) 0 h lo hi

/-- What an uncorrectable error does to the stored state besides the access that met it (Table 17.1): a counter restarts
from 0 (KIND 5); damage to the structure memories is a fatal error (KIND 7). -/
def State.errorEffect (s : State) (kind : Nat) (addr : BitVec 64) : State :=
  if kind = 5 then s.cntSet addr.toNat 0
  else if kind = 7 then s.safeEntry 6 2
  else s

/-- A corrected or uncorrectable error is counted, logged and acted on as its KIND requires (R346, R347). -/
def State.memoryError (s : State) (kind : Nat) (uncorr : Bool) (n macroNo : Nat) (addr : BitVec 64) : State :=
  let s1 := s.reportError kind uncorr n macroNo addr
  if uncorr then ({ s1 with lht.memErr := true } : State).errorEffect kind addr else s1

/-- An armed error injection takes the next write of its KIND and disarms (R348). In SRAM its 1 to 16 bits lie in as many words, and a
scrub read reports what it finds. -/
def State.memWrite (s : State) (kind : Nat) : State :=
  if s.bit Reg.chkInj 30 && s.fld Reg.chkInj 27 24 == kind then s.setBit Reg.chkInj 30 false else s

/-- Symbols that the decoder corrects in a slot (R342). -/
def correctable : Nat := 8

/-- Slots are written (KIND 0 or 1): what was wrong in them is gone, and an armed injection inverts COUNT symbols of the first (R348). -/
def State.hbmWritten (s : State) (kind : Nat) (cs : List Nat) : State :=
  let s1 := { s with chk.damage := s.chk.damage.keep fun p => !cs.contains p }
  match cs with
  | [] => s
  | p :: _ =>
    if s.bit Reg.chkInj 30 && s.fld Reg.chkInj 27 24 == kind then
      ({ s1 with chk.damage := s1.chk.damage.set (fun _ => 0) p (max 1 (s.fld Reg.chkInj 4 0)) } : State).setBit Reg.chkInj 30 false
    else s1

/-- Slots have taken damage: slot, erroneous symbols. -/
def State.hbmDamaged (s : State) (errs : List (Nat × Nat)) : State :=
  { s with chk.damage := errs.foldl (fun m e => m.set (fun _ => 0) e.1 e.2) s.chk.damage }

/-- Erroneous symbols of a slot. -/
def State.damageOf (s : State) (p : Nat) : Nat := s.chk.damage.get (fun _ => 0) p

/-- A slot is read through the decoder (R342, R347): up to 8 erroneous symbols are corrected, more are reported uncorrectable. That more
than 8 may be miscorrected instead is left out (log 132). -/
def State.hbmRead (s : State) (kind p : Nat) : Bool × State :=
  let n := s.damageOf p
  let at' : BitVec 64 := BitVec.ofNat 64 p
  if n = 0 then (true, s)
  else if n ≤ correctable then (true, s.memoryError kind false n (Config.hbmInstance p) at')
  else (false, s.memoryError kind true 0 (Config.hbmInstance p) at')

/-- The cells of a chain are read in order: the index of the first uncorrectable one (R342, R346). -/
def State.readSlots (s : State) : List Nat → Nat → Option Nat × State
  | [], _ => (none, s)
  | p :: ps, i =>
    let q := s.hbmRead 0 p
    if q.1 then q.2.readSlots ps (i + 1) else (some i, q.2)

/-- PATROL_SCRUB_READ (R345): with SCRUB_EN the scrub reads a word or a TCAM entry. `nbits` counts corrected bits (0 and
not `uncorr`: a clean read). A write-back that loses to a functional write leaves the functional value, so the report is
the whole effect either way. -/
def execPatrolScrubRead (kind : Fin 10) (uncorr : Bool) (nbits macroNo : Nat) (addr : BitVec 64)
    (s : State) : Host.Outcome State Fault Refusal :=
  .next (if s.bit Reg.chkCtrl 30 && (uncorr || nbits != 0) then
    s.memoryError kind.val uncorr nbits macroNo addr else s)

/-- A read of CHK_ERR_HDR removes the oldest record and captures it (R347, in the manner of R127); an empty log reads
VALID = 0. -/
def State.errLogRead (s : State) : State :=
  match s.chk.log with
  | [] => s.ret 0
  | r :: rs =>
    ((({ s with chk.log := rs } : State).wr Reg.chkErrAddrLo r.lo).wr Reg.chkErrAddrHi r.hi).wr Reg.chkErrTs r.ts
      |>.ret r.hdr

/-- ERR_LOG_READ (R347). -/
def execErrLogRead (s : State) : Host.Outcome State Fault Refusal := .next s.errLogRead

/-- A write of CHK_INJ: KIND and COUNT are stored, ARM sets ARMED (R348). -/
def State.injWrite (s : State) (v : Word) : State :=
  let s1 := s.wrTyped Reg.chkInj v
  if Machine.bit v 31 then s1.setBit Reg.chkInj 30 true else s1

/-- ERROR_INJECT_ARM (R348). -/
def execErrorInjectArm (val : Word) (s : State) : Host.Outcome State Fault Refusal := .next (s.injWrite val)

/-! ### Check-value units (R349 to R351) -/

/-- A 64-bit value in a LO/HI register pair. -/
def State.rd64 (s : State) (lo : Nat) : Nat := s.rdWords lo 2

/-- Store a 64-bit value in a LO/HI register pair. -/
def State.wr64 (s : State) (lo v : Nat) : State := s.wrWords lo (toWords 2 v)

/-- The parameters of unit `u`: the preset at basic level, the expert registers at expert level, WIDTH kept in 8 to 64
and higher bits ignored (R349). -/
def State.unitParams (s : State) (u : Nat) : CrcParams :=
  let c := s.rd (Reg.chkUnitCfg u)
  if s.bit Reg.chkCtrl 31 then
    let w := max 8 (min 64 (Machine.fld c 30 24))
    ⟨w, s.rd64 (Reg.chkUnitPolyLo u) % 2 ^ w, s.rd64 (Reg.chkUnitInitLo u) % 2 ^ w, Machine.bit c 1, Machine.bit c 0,
      s.rd64 (Reg.chkUnitXoroutLo u) % 2 ^ w⟩
  else crcPreset (Machine.fld c 17 16)

/-- FOLD of unit `u` (R350). FOLD_SEL 3 is not assigned and folds nothing. -/
def State.unitFold (s : State) (u : Nat) : Nat :=
  let w := (s.unitParams u).width
  match s.fld (Reg.chkUnitCfg u) 13 12 with
  | 1 => s.rd64 (Reg.chkScanAddrLo u) % 2 ^ w
  | 2 => (s.rd (Reg.chkUnitSeq u)).toNat % 2 ^ w
  | _ => 0

/-- The unit's scan is busy. -/
def State.scanBusy (s : State) (u : Nat) : Bool := s.busy (.scan u)

/-- A write that a running scan ignores sets WRITE_IGNORED (R351). -/
def State.unlessScan (s : State) (u : Nat) (f : State → State) : State :=
  if s.scanBusy u then s.setBit (Reg.chkUnitStatus u) 2 true else f s

/-- R is loaded with INIT XOR FOLD and BYTES clears (R350, Table 17.5). -/
def State.unitLoad (s : State) (u : Nat) : State :=
  (s.wr64 (Reg.chkUnitRunningLo u) ((s.unitParams u).init ^^^ s.unitFold u)).wr64 (Reg.chkUnitBytesLo u) 0

/-- Bytes enter R and BYTES counts them (R350). -/
def State.unitFeed (s : State) (u : Nat) (bs : List Byte) : State :=
  (s.wr64 (Reg.chkUnitRunningLo u) (crcFeed (s.unitParams u) (s.rd64 (Reg.chkUnitRunningLo u)) bs)).wr64
    (Reg.chkUnitBytesLo u) (s.rd64 (Reg.chkUnitBytesLo u) + bs.length)

/-- The result of unit `u` from its current R (R349). -/
def State.unitResult (s : State) (u : Nat) : Nat := crcResult (s.unitParams u) (s.rd64 (Reg.chkUnitRunningLo u))

/-- A write of CHK_UNIT_RESTART (R350, R351). -/
def State.unitRestartWrite (s : State) (u : Nat) (v : Word) : State :=
  if Machine.bit v 31 then s.unlessScan u (fun s => s.unitLoad u) else s

/-- A write of CHK_UNIT_FEED: bits [7:0] first (R350, R351). -/
def State.unitFeedWrite (s : State) (u : Nat) (v : Word) : State :=
  s.unlessScan u fun s => s.unitFeed u (leBytes 4 v.toNat)

/-- A write of CHK_UNIT_FEED1 (R350, R351). -/
def State.unitFeed1Write (s : State) (u : Nat) (v : Word) : State :=
  s.unlessScan u fun s => s.unitFeed u (leBytes 1 v.toNat)

/-- The commit of CHK_UNIT_RUNNING on its HI word, with the held LO word: R without INIT or FOLD (R6, R351). -/
def State.unitRunningWrite (s : State) (u : Nat) (hi : Word) : State :=
  s.unlessScan u fun s =>
    s.wr64 (Reg.chkUnitRunningLo u)
      (((s.holdOf (Reg.chkUnitRunningLo u)).toNat + 2 ^ 32 * hi.toNat) % 2 ^ (s.unitParams u).width)

/-- UNIT_RESTART (R350). -/
def execUnitRestart (u : Fin 8) (val : Word) (s : State) : Host.Outcome State Fault Refusal :=
  .next (s.unitRestartWrite u.val val)

/-- UNIT_FEED (R350). -/
def execUnitFeed (u : Fin 8) (val : Word) (s : State) : Host.Outcome State Fault Refusal :=
  .next (s.unitFeedWrite u.val val)

/-- UNIT_FEED1 (R350). -/
def execUnitFeed1 (u : Fin 8) (val : Word) (s : State) : Host.Outcome State Fault Refusal :=
  .next (s.unitFeed1Write u.val val)

/-- UNIT_RUNNING_WRITE (R351). -/
def execUnitRunningWrite (u : Fin 8) (hi : Word) (s : State) : Host.Outcome State Fault Refusal :=
  .next (s.unitRunningWrite u.val hi)

/-! ### Scans (R352, R353) -/

/-- A running operation ends in FAIL. -/
def State.opFail (s : State) (o : LongOp) (reason : Nat) : State := (s.opIdle o).opEnd o (.failed reason)

/-- A running operation ends DONE. -/
def State.opDone (s : State) (o : LongOp) : State := (s.opIdle o).opEnd o .done

/-- Bytes that the source of a scan holds (R352): host memory, HBM, on-die SRAM, TCAM. -/
def scanSize : Nat → Nat
  | 0 => 2 ^ 64
  | 1 => 96 * 2 ^ 30
  | 2 => 288 * 2 ^ 20
  | _ => 131072 * 40

/-- START of a scan of unit `u` (R352, R54). -/
def State.scanStart (s : State) (u : Nat) : State :=
  let o := LongOp.scan u
  let arg := s.opArg o
  let src := arg % 4
  let len := s.rd64 (Reg.chkScanLenLo u)
  if !opAllowed o s.dev.mode src 0 then s.opRefuse o 3
  else
    let s1 := (s.opBegin o).setFld (Reg.chkUnitStatus u) 1 0 0
    let s2 := if arg / 4 % 2 = 1 then s1.unitLoad u else s1
    if len = 0 then s2.opEnd o .done
    else if s2.rd64 (Reg.chkScanAddrLo u) + len > scanSize src then s2.opEnd o (.failed 9)
    else { s2 with chk.scan := s2.chk.scan.set (fun _ => none) u (some (src, arg / 8 % 2 == 1)) }

/-- A write of CHK_SCAN_OP_CTRL. -/
def State.scanCtrlWrite (s : State) (u : Nat) (v : Word) : State :=
  s.opCtrlWrite (.scan u) v (fun s => s.scanStart u) fun s => s.opAbort (.scan u) 1

/-- CHECK_SCAN_START (R352). -/
def execCheckScanStart (u : Fin 8) (val : Word) (s : State) : Host.Outcome State Fault Refusal :=
  .next (s.scanCtrlWrite u.val val)

/-- CHECK_SCAN_ABORT (R41). -/
def execCheckScanAbort (u : Fin 8) (val : Word) (s : State) : Host.Outcome State Fault Refusal :=
  .next (s.scanCtrlWrite u.val val)

/-- The end of a scan's range with the bytes read (R352, R353): they are fed, and with COMPARE the result is compared
with CHK_UNIT_EXPECT or, with APPEND, with the last bytes of the range, which are not fed. -/
def State.scanEnd (s : State) (u : Nat) (data : List Byte) : State :=
  let o := LongOp.scan u
  match s.chk.scan.get (fun _ => none) u with
  | none => s
  | some (_, cmp) =>
    let p := s.unitParams u
    let tail := if cmp && s.bit (Reg.chkUnitCfg u) 8 then ceilDiv p.width 8 else 0
    let fed := data.take (data.length - tail)
    let expect :=
      if tail = 0 then s.rd64 (Reg.chkUnitExpectLo u) % 2 ^ p.width else ofLe (data.drop (data.length - tail)) % 2 ^ p.width
    let s1 := (s.unitFeed u fed).setProgress o (fed.length / 1024)
    let s2 := s1.wrWords (Reg.chkScanOpPartial u 0)
      (toWords 2 (if fed.length = 0 then 0 else s1.rd64 (Reg.chkScanAddrLo u) + fed.length - 1))
    if !cmp then s2.opDone o
    else if s2.unitResult u = expect then (s2.setFld (Reg.chkUnitStatus u) 1 0 1).opDone o
    else (s2.setFld (Reg.chkUnitStatus u) 1 0 2).opFail o 8

/-- CHECK_SCAN_END (R353). -/
def execCheckScanEnd (u : Fin 8) (data : List Byte) (s : State) : Host.Outcome State Fault Refusal :=
  .next (s.scanEnd u.val data)

/-- The KIND under which an uncorrectable read of a long operation is reported (Table 17.1): a scan names its source,
every other operation reads the reserved region. -/
def State.readKind (s : State) (o : LongOp) (addr : BitVec 64) : Nat :=
  match o with
  | .scan u =>
    match s.chk.scan.get (fun _ => none) u with
    | some (1, _) => if addr.toNat < 90 * 2 ^ 30 then 0 else 2
    | some (2, _) => 3
    | some (3, _) => 9
    | _ => 2
  | _ => 2

/-- OPERATION_READ_FAILURE (R352, R41, R346): a running operation's read fails on host memory (REASON 5) or meets an
uncorrectable error (REASON 4, reported). A scan leaves the address in OP_PARTIAL. -/
def State.opReadFailure (s : State) (o : LongOp) (host : Bool) (addr : BitVec 64) : State :=
  if s.busy o then
    let s1 := if host then s else s.memoryError (s.readKind o addr) true 0 0 addr
    let s2 :=
      match o with
      | .scan u => s1.wrWords (Reg.chkScanOpPartial u 0) (toWords 2 addr.toNat)
      | _ => s1
    s2.opFail o (if host then 5 else 4)
  else s

/-- OPERATION_READ_FAILURE (R352). -/
def execOperationReadFailure (op : LongOp) (host : Bool) (addr : BitVec 64) (s : State) :
    Host.Outcome State Fault Refusal :=
  .next (s.opReadFailure op host addr)

end Sys2Proof.Machine
end

