-- ==== Sys2Proof/Machine/Fabric.lean ====
section
/-!
DEFINITION. Machine/Fabric.lean: the transmit side of Rhumb (chapter 13): cells and markers as bytes, the choice of a
group, drains, credit batches, and the transmit slot of a group. The receive side is in Machine/Rhumb.lean.
-/
namespace Sys2Proof.Machine

/-! ### Parts of the state -/

/-- Lane `l` beside its registers. -/
def State.lane (s : State) (l : Nat) : Lane := s.rhb.lanes.get (fun _ => {}) l

/-- Replace a lane. -/
def State.setLane (s : State) (l : Nat) (x : Lane) : State :=
  { s with rhb.lanes := s.rhb.lanes.set (fun _ => {}) l x }

/-- Traffic toward device `d`. -/
def State.toward (s : State) (d : Nat) : Toward := s.rhb.toward.get (fun _ => {}) d

/-- Replace the traffic toward a device. -/
def State.setToward (s : State) (d : Nat) (x : Toward) : State :=
  { s with rhb.toward := s.rhb.toward.set (fun _ => {}) d x }

/-- RHB_EXPERT_EN. -/
def State.rhbExpert (s : State) : Bool := s.bit Reg.rhbCtrl 31

/-- RESEQ_US (R286, R288; 0 acts as 1). -/
def State.reseqUs (s : State) : Nat := if s.rhbExpert then max 1 (s.fld Reg.rhbExpCfg 23 16) else 20

/-- REASM_US (R292; 0 acts as 1). -/
def State.reasmUs (s : State) : Nat := if s.rhbExpert then max 1 (s.fld Reg.rhbExpCfg 15 8) else 100

/-- SNAP_SHARE in percent (R287; above 100 acts as 100). -/
def State.snapShare (s : State) : Nat := if s.rhbExpert then min 100 (s.fld Reg.rhbExpCfg 7 0) else 10

/-- SYNC_N (R278; 0 acts as 1). -/
def State.syncN (s : State) : Nat := if s.rhbExpert then max 1 (s.fld Reg.rhbExpCfg 31 28) else 7

/-- LOSS_M (R278; 0 acts as 1). -/
def State.lossM (s : State) : Nat := if s.rhbExpert then max 1 (s.fld Reg.rhbExpCfg 27 24) else 7

/-! ### Modes (Table 13.9) -/

/-- Labels a mode transmits besides markers and IDLE (Table 13.9). -/
def txLabel (m : Mode) (l : Nat) : Bool :=
  match m with
  | .active | .maintenance => true
  | .standby => l == 4 || l == 5 || l == 6 || l == 7
  | _ => false

/-- Labels a mode accepts on receipt (Table 13.9). -/
def rxLabel (m : Mode) (l : Nat) : Bool :=
  match m with
  | .active | .maintenance => true
  | .standby => l == 4 || l == 5 || l == 6 || l == 7
  | .safe => l == 4 || l == 5
  | _ => false

/-! ### Cells and markers as bytes (Tables 13.1 and 13.4, R273) -/

/-- The 14 header bytes that HCS covers: bits [127:16], bit 127 first. -/
def cellHead (c : Cell) : List Byte :=
  let fill := if c.label = lblIdle then 0 else c.payload.length
  beBytes 14 (pack [(8, c.label), (10, c.dest), (7, c.port), (3, c.cls), (10, c.src), (4, c.grp), (1, ofBool c.first),
    (1, ofBool c.last), (1, ofBool c.spray), (8, fill), (16, c.seq), (43, 0)])

/-- HCS over header bytes (R273): CRC-16, polynomial 0x1021, initial value 0xFFFF. -/
def hcs (bs : List Byte) : Nat := crcOf (crcPreset 2) bs

/-- The 16 header bytes. -/
def cellHeader (c : Cell) : List Byte := cellHead c ++ beBytes 2 (hcs (cellHead c))

/-- Bytes padded with zeros to a length. -/
def padTo (n : Nat) (bs : List Byte) : List Byte := bs ++ List.replicate (n - bs.length) 0

/-- `n` bits of a byte through the self-synchronous scrambler x^43 + 1, most significant first: the output bits and the
new state (R273). -/
def scrambleBits : Nat → Nat → Nat → Nat × Nat
  | 0, _, st => (0, st)
  | n + 1, b, st =>
    let o := (b / 2 ^ n % 2 + st / 2 ^ 42 % 2) % 2
    let r := scrambleBits n b ((st * 2 + o) % 2 ^ 43)
    (o * 2 ^ n + r.1, r.2)

/-- Payload bytes through the scrambler. -/
def scramble : List Byte → Nat → List Byte × Nat
  | [], st => ([], st)
  | b :: bs, st =>
    let r := scrambleBits 8 b.toNat st
    let q := scramble bs r.2
    (BitVec.ofNat 8 r.1 :: q.1, q.2)

/-- `n` received bits of a byte through the descrambler: each is added to the bit received 43 bits before (R273). -/
def descrambleBits : Nat → Nat → Nat → Nat × Nat
  | 0, _, st => (0, st)
  | n + 1, b, st =>
    let i := b / 2 ^ n % 2
    let r := descrambleBits n b ((st * 2 + i) % 2 ^ 43)
    ((i + st / 2 ^ 42 % 2) % 2 * 2 ^ n + r.1, r.2)

/-- Received payload bytes through the descrambler. -/
def descramble : List Byte → Nat → List Byte × Nat
  | [], st => ([], st)
  | b :: bs, st =>
    let r := descrambleBits 8 b.toNat st
    let q := descramble bs r.2
    (BitVec.ofNat 8 r.1 :: q.1, q.2)

/-- A lane marker's 32 bytes (Table 13.4). -/
def markerBytes (m : Marker) : List Byte :=
  let b := beBytes 8 0xC5A30F69963CF05A ++ beBytes 2 (pack [(10, m.src), (4, m.grp), (2, 0)]) ++ beBytes 1 (m.logical % 32) ++
    beBytes 1 0 ++ beBytes 4 m.active.toNat ++ beBytes 4 m.rxOk.toNat ++ beBytes 2 m.count ++ beBytes 8 0
  b ++ beBytes 2 (hcs b)

/-- A byte string read as a marker; none when the pattern or CHECK fails (R277). -/
def parseMarker (bs : List Byte) : Option Marker :=
  if bs.length = 32 ∧ bs.take 8 = beBytes 8 0xC5A30F69963CF05A ∧ ofBe (bs.drop 30) = hcs (bs.take 30) then
    let w := ofBe ((bs.drop 8).take 2)
    some ⟨w / 64, w / 4 % 16, ofBe ((bs.drop 10).take 1) % 32, BitVec.ofNat 32 (ofBe ((bs.drop 12).take 4)),
      BitVec.ofNat 32 (ofBe ((bs.drop 16).take 4)), ofBe ((bs.drop 20).take 2)⟩
  else none

/-! ### Groups (R280 to R284) -/

/-- Lane count of a group (RHB_GRP_LANES). -/
def State.grpCount (s : State) (g : Nat) : Nat := s.fld (Reg.rhbGrpLanes g) 21 16

/-- First physical lane of a group. -/
def State.grpFirst (s : State) (g : Nat) : Nat := s.fld (Reg.rhbGrpLanes g) 5 0

/-- MIN_LANES: 0 acts as 1, more than the group has acts as its lane count (Table 13.12). -/
def State.minLanes (s : State) (g : Nat) : Nat := min (s.grpCount g) (max 1 (s.fld (Reg.rhbGrpCfg g) 21 16))

/-- The logical lanes of a set, ascending. -/
def lanesOf (w : Word) : List Nat := (List.range 32).filter fun i => Machine.bit w i

/-- The group a physical lane belongs to. -/
def State.laneGroup (s : State) (l : Nat) : Option Nat :=
  (List.range 16).find? fun g => s.grpFirst g ≤ l && l < s.grpFirst g + s.grpCount g

/-- RX_OK of a group: the logical numbers of its lanes in SYNC, not MISWIRED and not SKEW_EXCESS (R282). -/
def State.rxOkOf (s : State) (g : Nat) : Word :=
  (List.range (s.grpCount g)).foldl (fun w i =>
    let r := s.rd (Reg.rhbLaneStatus (s.grpFirst g + i))
    if Machine.fld r 31 30 = 2 ∧ !Machine.bit r 26 ∧ !Machine.bit r 25 then Machine.setBit w (Machine.fld r 20 16) true else w) 0

/-- The largest skew among a group's lanes in use (R281). -/
def State.skewOf (s : State) (g : Nat) : Nat :=
  (List.range (s.grpCount g)).foldl (fun n i =>
    let l := s.grpFirst g + i
    let r := s.rd (Reg.rhbLaneStatus l)
    if Machine.fld r 31 30 = 2 ∧ !Machine.bit r 26 ∧ !Machine.bit r 25 then max n (s.lane l).skew else n) 0

/-- A lane of the group holds marker lock. -/
def State.anyMarker (s : State) (g : Nat) : Bool :=
  (List.range (s.grpCount g)).any fun i => s.bit (Reg.rhbLaneStatus (s.grpFirst g + i)) 28

/-- STATE of a group (R283). -/
def State.grpState (s : State) (g : Nat) : Nat :=
  if !s.bit (Reg.rhbGrpCfg g) 31 || s.grpCount g == 0 then 0
  else if s.minLanes g ≤ (lanesOf (s.rxOkOf g)).length ∧ s.minLanes g ≤ (lanesOf (s.rd (Reg.rhbGrpActive g))).length then 2
  else if s.anyMarker g then 1 else 0

/-- Clear MISWIRED of every lane of a group: it lasts until the group goes DOWN (R280). -/
def State.clearMiswired (s : State) (g : Nat) : State :=
  s.each (List.range (s.grpCount g)) fun i s => s.setBit (Reg.rhbLaneStatus (s.grpFirst g + i)) 26 false

/-! ### The usable set and drains (R285, R286, R288) -/

/-- Spraying applies: MODE is MAINTENANCE and SPRAY is 1 (R288). -/
def State.sprayOn (s : State) : Bool := s.dev.mode == .maintenance && s.bit Reg.rhbCtrl 16

/-- A change of the usable set or of spraying starts, or restarts, a drain toward `d` (R286, R288). `was` is the usable
set and `spray` the spraying before the change. -/
def State.drainIf (s : State) (d : Nat) (was : Word) (spray : Bool) : State :=
  if s.usableSet d = was ∧ s.sprayOn = spray then s
  else s.setToward d { s.toward d with drain := some (s.after (2 * s.reseqUs)) }

/-- Devices that a reach register names, or that have had traffic. -/
def State.reachable (s : State) : List Nat := (List.range 1024).filter fun d => s.rd (Reg.rhbReach d) &&& 0xFFFF != 0

/-- A drain runs toward `d`. -/
def State.draining (s : State) (d : Nat) : Bool := (s.toward d).drain.isSome

/-- A group that leaves UP loses the cells in flight on it, those that wait to be sent among them (R283; DEDUCED, log 113). -/
def Group.lostCells (x : Group) : Group :=
  { x with hb := [], time := [], credit := [], control := [], snap := [], data := [] }

/-- A group that goes DOWN forgets its peer and the stream it received (R280, R282). -/
def Group.downRx (x : Group) : Group := { x with peer := none, rxCount := none, rxActive := 0, rxPos := 0, firstAt := none }

/-- Recompute a group's RX_OK, skew, STATE and UP bit after `f`; a group that goes DOWN forgets its peer and its MISWIRED
lanes; every device whose usable set changes drains (R280 to R283, R286). -/
def State.grpRefresh (s : State) (g : Nat) : State :=
  let old := s.reachable.map fun d => (d, s.usableSet d)
  let spray := s.sprayOn
  let st := s.grpState g
  let a := s.rd (Reg.rhbGrpActive g)
  let x := s.group g
  let peer := x.peer.getD (0, 0)
  let s1 := ((s.wr (Reg.rhbGrpRxOk g) (s.rxOkOf g)).wrNat (Reg.rhbGrpSkew g) (min 1023 (s.skewOf g))).wrNat (Reg.rhbGrpStatus g)
    (st * 2 ^ 30 + peer.1 % 1024 * 2 ^ 16 + peer.2 % 16 * 2 ^ 12 + (lanesOf a).length)
  let s2 := s1.setBit Reg.rhbStatus g (st == 2)
  let y := if st ≠ 2 ∧ s.bit Reg.rhbStatus g then x.lostCells else x
  let s3 := if st = 0 then (s2.setGroup g y.downRx).clearMiswired g else s2.setGroup g y
  let s4 := if s.fld (Reg.rhbGrpStatus g) 31 30 = st then s3 else s3.event (leafOf 10 g) g
  s4.each (List.range old.length) fun i s =>
    match old[i]? with
    | some (d, w) => s.drainIf d w spray
    | none => s

/-! ### Sending (R285 to R290) -/

/-- Cut bytes into pieces of `n`. -/
def chunks (n : Nat) : Nat → List Byte → List (List Byte)
  | 0, _ => []
  | _, [] => []
  | fuel + 1, bs => bs.take n :: chunks n fuel (bs.drop n)

/-- The 8-byte descriptor (Table 13.3). -/
def descriptor (f : Stored) : List Byte :=
  let q := f.ts.getD (0, 0)
  beBytes 8 (pack [(19, f.eq), (14, f.len), (2, f.colour), (1, ofBool f.ct), (1, ofBool f.copy), (1, ofBool f.ts.isSome),
    (3, q.1), (16, q.2), (7, 0)])

/-- The data cells of a frame (R275), before group and SEQ. -/
def frameCells (f : Stored) : List Cell :=
  let bs := descriptor f ++ f.frame.bytes
  let ps := chunks 240 (bs.length + 1) bs
  (List.range ps.length).map fun i =>
    { label := if f.copy then lblMc else lblUc, dest := f.dev, port := f.port, cls := f.cls, src := 0,
      first := i == 0, last := i + 1 == ps.length, payload := (ps[i]?).getD [] }

/-- SEQ of the next data cell toward a device on a group. -/
def Toward.seqOf (x : Toward) (g : Nat) : Nat := ((x.seqs.find? fun e => e.1 == g).map Prod.snd).getD 0

/-- Count a data cell toward a device on a group, modulo 2^16 (R285). -/
def Toward.bumpSeq (x : Toward) (g : Nat) : Toward :=
  { x with seqs := (g, (x.seqOf g + 1) % 65536) :: x.seqs.filter fun e => e.1 != g }

/-- Data cells toward `d` on one group, consecutively (R285). -/
def State.sendOn (s : State) (d g : Nat) : List Cell → State
  | [] => s
  | c :: cs =>
    let x := s.toward d
    ((s.queueCell g { c with seq := x.seqOf g }).setToward d (x.bumpSeq g)).sendOn d g cs

/-- Data cells toward `d` sprayed over a set in round robin (R288). -/
def State.sendSprayed (s : State) (d : Nat) (gs : List Nat) : List Cell → State
  | [] => s
  | c :: cs =>
    let x := s.toward d
    let g := (gs[x.sprayNext % gs.length]?).getD 0
    let x' := { x with spraySeq := (x.spraySeq + 1) % 65536, sprayNext := (x.sprayNext + 1) % gs.length }
    ((s.queueCell g { c with seq := x.spraySeq, spray := true }).setToward d x').sendSprayed d gs cs

/-- A frame released toward a remote device (R275, R285, R288): its group by its hash, or sprayed; an empty usable set
drops it. -/
def State.sendFrame (s : State) (f : Stored) : State :=
  match groupsOf (s.usableSet f.dev) with
  | [] => s.bump Reg.rhbNoreachDrop
  | g :: gs =>
    if s.sprayOn then s.sendSprayed f.dev (g :: gs) (frameCells f)
    else
      let all := g :: gs
      s.sendOn f.dev ((all[f.hash.toNat * all.length / 2 ^ 32]?).getD g) (frameCells f)

/-- A credit message waits in the batch toward `d` (R290). -/
def State.sendCredit (s : State) (d : Nat) (m : CreditMsg) : State :=
  let x := s.toward d
  s.setToward d { x with credits := x.credits ++ [(m, s.raw)] }

/-- A 16-byte credit slot (Table 13.7); its byte fields are laid out as in Table 13.1, highest bit first. -/
def creditSlot (m : CreditMsg) : List Byte :=
  let mk (ty dev port cls src v : Nat) (r : Word) : List Byte :=
    beBytes 1 ty ++ beBytes 3 (pack [(10, dev), (7, port), (3, cls), (4, 0)]) ++ beBytes 2 (src % 1024 * 64) ++
      beBytes 2 0 ++ beBytes 4 v ++ beBytes 4 r.toNat
  match m with
  | .statusOn dev port cls src backlog r => mk 1 dev port cls src (min backlog (2 ^ 24 - 1)) r
  | .statusOff dev port cls src ret r => mk 2 dev port cls src ret r
  | .credit dev port cls src bytes => mk 3 dev port cls src bytes 0
  | .portState dev port st => mk 4 dev port 0 0 st 0

/-- CREDIT_CELL_SEND (R290): with 15 messages waiting, or 200 ns after the oldest, a cell takes up to 15 of them. -/
def State.creditCell (s : State) (d : Nat) : State :=
  let x := s.toward d
  match x.credits with
  | [] => s
  | m :: ms =>
    if ms.length < 14 && !s.reached (m.2 + BitVec.ofNat 96 (200 * nsUnit)) then s
    else
      let now := (x.credits.take 15).map Prod.fst
      let s1 := s.setToward d { x with credits := x.credits.drop 15 }
      s1.sendOther d { label := lblCredit, payload := padTo 240 (now.flatMap creditSlot) }

/-- CREDIT_CELL_SEND (R290). -/
def execCreditCellSend (d : Fin 1024) (at' : Raw) (s : State) : Host.Outcome State Fault Refusal :=
  .next ((s.advance at').creditCell d.val)

/-! ### The transmit slot of a group (R279, R282, R287) -/

/-- The next cell of a group and the group without it: HEARTBEAT, TIME, CREDIT, CONTROL, then SNAPSHOT and data by
SNAP_SHARE; IDLE when nothing waits that the mode sends (R287, Table 13.9). -/
def nextCell (m : Mode) (share : Nat) (x : Group) : Cell × Group :=
  let idle : Cell := { label := lblIdle }
  if !txLabel m lblTime then (idle, x)
  else
    match x.hb, x.time, x.control with
    | c :: cs, _, _ => (c, { x with hb := cs })
    | [], c :: cs, _ => (c, { x with time := cs })
    | [], [], ctl =>
      match (if txLabel m lblCredit then x.credit else []), ctl with
      | c :: cs, _ => (c, { x with credit := cs })
      | [], c :: cs => (c, { x with control := cs })
      | [], [] =>
        match x.snap, (if txLabel m lblUc then x.data else []) with
        | c :: cs, [] => (c, { x with snap := cs })
        | [], c :: cs => (c, { x with data := cs })
        | c :: cs, e :: es =>
          if 100 ≤ x.share + share then (c, { x with snap := cs, share := x.share + share - 100 })
          else (e, { x with data := es, share := x.share + share })
        | [], [] => (idle, x)

/-- A group's own cells return to it inside the SerDes (R284). -/
def State.loopback (s : State) (g : Nat) : Bool := s.dev.mode == .maintenance && s.bit (Reg.rhbGrpCfg g) 30

/-- Bytes of a cell or a marker leave on a lane, or return to its receiver in loopback (R284). -/
def State.laneOut (s : State) (l : Nat) (o : Output) (bs : List Byte) : State :=
  if (s.laneGroup l).any s.loopback then s.setLane l { s.lane l with loop := (s.lane l).loop ++ [bs] } else s.emit o

/-- A TIME message takes its transmit stamp as it leaves, and CHECK anew (R337, Table 16.4). -/
def State.stampCell (s : State) (cap : Raw) (c : Cell) : Cell :=
  match c.stamp with
  | some v =>
    let bs := putAt (c.payload.take 236) 16 (timeBytes (s.viewTimeAt v (captureRes cap)))
    { c with payload := bs ++ leBytes 4 (merCheck bs).toNat, stamp := none }
  | none => c

/-- Send a cell on a lane: its payload is scrambled by the lane's running scrambler (R273). -/
def State.emitCell (s : State) (l : Nat) (c : Cell) : State :=
  let x := s.lane l
  let p := scramble (padTo 240 (if c.label = lblIdle then [] else c.payload)) x.scr
  let c' := if c.label = lblIdle then { label := lblIdle } else c
  let bs := cellHeader c' ++ p.1
  (s.setLane l { x with scr := p.2, idle := if c.label = lblIdle then 0 else x.idle + 1 }).laneOut l (.cell l bs) bs

/-- Cells that each lane sends between two markers (R277). -/
def markerCells : Nat := 8192

/-- Lanes that a group stripes over; with an empty ACTIVE set every lane sends IDLE at once. -/
def State.stripes (s : State) (g : Nat) : Nat := max 1 (lanesOf (s.rd (Reg.rhbGrpActive g))).length

/-- The group's next cell count is a marker instant (R277). -/
def State.markerDue (s : State) (g : Nat) : Bool := decide (markerCells * s.stripes g ≤ (s.group g).cells)

/-- IDLE on the lanes of a group that lie outside its ACTIVE set: nothing else is ready for them (R279). -/
def State.idleRest (s : State) (g : Nat) : State :=
  let a := s.rd (Reg.rhbGrpActive g)
  s.each ((List.range (s.grpCount g)).filter fun i => !Machine.bit a i) fun i s => s.emitCell (s.grpFirst g + i) { label := lblIdle }

/-- CELL_TRANSMIT (R279, R282, R287): cell k of the group goes on the (k mod A)-th lane of its ACTIVE set, and with the first of each
round the other lanes send IDLE; a lane that has sent 8,191 cells since its last IDLE sends one. A group that is not UP, or sends
nothing in the mode, sends IDLE; in LOAD its lanes are off. At a marker instant the marker goes first (R277). `cap` is the capture of the
cell's first bit at the medium boundary, which a TIME message carries (R337). -/
def State.cellTransmit (s : State) (g : Nat) (cap : Raw) : State :=
  if s.dev.mode = .load ∨ !s.bit (Reg.rhbGrpCfg g) 31 ∨ s.markerDue g then s
  else
    let x := s.group g
    match lanesOf (s.rd (Reg.rhbGrpActive g)) with
    | [] => (s.setGroup g { x with cells := x.cells + 1 }).idleRest g
    | i :: is =>
      let all := i :: is
      let k := x.cells % all.length
      let l := s.grpFirst g + (all[k]?).getD i
      let s1 :=
        if 8191 ≤ (s.lane l).idle ∨ !s.bit Reg.rhbStatus g then
          (s.setGroup g { x with cells := x.cells + 1 }).emitCell l { label := lblIdle }
        else
          let r := nextCell s.dev.mode s.snapShare x
          (s.setGroup g { r.2 with cells := x.cells + 1 }).emitCell l (s.stampCell cap r.1)
      if k = 0 then s1.idleRest g else s1

/-- The ACTIVE set a group announces: the lanes enabled that the peer's most recent marker reports in RX_OK (R282). -/
def State.wantActive (s : State) (g : Nat) : Word :=
  s.rd (Reg.rhbGrpLaneEn g) &&& (s.group g).peerRxOk &&& mask (s.grpCount g - 1) 0

/-- MARKER_INSERT (R277, R282): at a marker instant every lane of the group sends a marker that announces the set, which applies from
the first cell after it. -/
def State.markerInsert (s : State) (g : Nat) : State :=
  if s.dev.mode = .load ∨ !s.bit (Reg.rhbGrpCfg g) 31 ∨ s.grpCount g = 0 ∨ !s.markerDue g then s
  else
    let x := s.group g
    let act := s.wantActive g
    let s1 := (s.setGroup g { x with markers := (x.markers + 1) % 65536, cells := 0 }).wr (Reg.rhbGrpActive g) act
    let s2 := s1.each (List.range (s.grpCount g)) fun i s =>
      let bs := markerBytes ⟨s.devId, g, i, act, s.rxOkOf g, x.markers % 65536⟩
      s.laneOut (s.grpFirst g + i) (.marker (s.grpFirst g + i) bs) bs
    s2.grpRefresh g

end Sys2Proof.Machine
end

