-- ==== Sys2Proof/Machine/Pool.lean ====
section
/-!
DEFINITION. Machine/Pool.lean: cells, free lists, writers and readers, Sounding audit and sweep (R230 to R238).
-/
namespace Sys2Proof.Machine

/-! ### Runs of cells -/

/-- The first `n` cells of a list of runs, and the rest. -/
def runsSplit : Nat → List Run → List Run × List Run
  | _, [] => ([], [])
  | n, r :: rs =>
    if n = 0 then ([], r :: rs)
    else if r.count ≤ n then
      let q := runsSplit (n - r.count) rs
      (r :: q.1, q.2)
    else ([⟨r.start, n⟩], ⟨r.start + n, r.count - n⟩ :: rs)

/-- The runs turned so that cell `i` comes first. -/
def runsTurn (i : Nat) (rs : List Run) : List Run :=
  let q := runsSplit i rs
  q.2 ++ q.1

/-- The first cell. -/
def runsHead : List Run → Nat
  | [] => 0
  | r :: rs => if r.count = 0 then runsHead rs else r.start

/-! ### Free lists (R232) -/

/-- CACHE_HIGH and CACHE_LOW in force (Table 11.5). -/
def State.cacheHigh (s : State) : Nat :=
  let h := s.fld Reg.poolCtrl 28 16
  if s.bit Reg.poolCtrl 31 ∧ 1024 ≤ h ∧ h ≤ 4031 then h else 3072

/-- CACHE_LOW in force. -/
def State.cacheLow (s : State) : Nat :=
  let l := s.fld Reg.poolCtrl 12 0
  if s.bit Reg.poolCtrl 31 ∧ 65 ≤ l ∧ l + 65 ≤ s.cacheHigh then l else 1024

/-- The carrier at the head of the HBM part, in cells, and the list without it (R232). -/
def FreeList.takeCarrier (x : FreeList) : List Run × FreeList :=
  if x.fresh.count ≠ 0 then
    let n := min 65 x.fresh.count
    ([⟨x.fresh.start, n⟩], { x with fresh := ⟨x.fresh.start + n, x.fresh.count - n⟩ })
  else
    match x.carriers with
    | c :: cs => (c, { x with carriers := cs })
    | [] => ([], x)

/-- The audit's account of a carrier of `n` cells that a refill takes from list `k` (R236): the refill path counts the cells of
one not yet walked. -/
def AuditRun.refilled (a : AuditRun) (k n : Nat) : AuditRun :=
  if a.list ≠ k then a
  else if n ≤ a.walked then { a with walked := a.walked - n }
  else { a with ahead := a.ahead + min n a.todo, todo := a.todo - min n a.todo, total := a.total + min n a.todo }

/-- The audit's account of a list `k` whose HBM part ends at an uncorrectable carrier: the walk meets no more of it. -/
def AuditRun.cutShort (a : AuditRun) (k : Nat) : AuditRun := if a.list ≠ k then a else { a with walked := 0, todo := 0 }

/-- The cache takes the head carrier of the HBM part, which the decoder corrects (R342); an uncorrectable one ends the HBM part there
and orphans it and every cell behind it (R232, R346). -/
def State.refill (s : State) (k : Nat) (uncorr : Bool) : State :=
  let x := s.freeList k
  let q := x.takeCarrier
  let p := 16 * runsHead q.1 + k
  let d := if uncorr then s.hbmDamaged [(p, correctable + 1)] else s
  let r := d.hbmRead 1 p
  if x.hbm = 0 then s
  else if r.1 then
    let s1 := r.2.setFree k { q.2 with cache := x.cache ++ q.1 }
    { s1 with pool.audit := s1.pool.audit.map fun a => a.refilled k (runsLen q.1) }
  else
    let lost := x.fresh :: x.carriers.flatten
    { r.2.setFree k { cache := x.cache, turn := x.turn } with
      pool.orphans := s.pool.orphans ++ lost.map fun r => (k, r),
      pool.audit := s.pool.audit.map fun a => a.cutShort k }

/-- CACHE_REFILL (R232). -/
def execCacheRefill (k : Fin 16) (uncorr : Bool) (s : State) : Host.Outcome State Fault Refusal :=
  .next (if runsLen (s.freeList k.val).cache < s.cacheLow then s.refill k.val uncorr else s)

/-- A cache above CACHE_HIGH spills 65 pointers as a new carrier at the tail (R232). Which of them is a free value. -/
def State.spill (s : State) (k : Nat) : State :=
  let x := s.freeList k
  let n := runsLen x.cache
  if n ≤ s.cacheHigh then s
  else
    let (i, s1) := s.draw
    let q := runsSplit 65 (runsTurn (Config.freeNat i % n) x.cache)
    (s1.setFree k { x with cache := q.2, carriers := x.carriers ++ [q.1] }).hbmWritten 1 [16 * runsHead q.1 + k]

/-- CACHE_SPILL (R232). -/
def execCacheSpill (k : Fin 16) (s : State) : Host.Outcome State Fault Refusal := .next (s.spill k.val)

/-! ### Cells (R231, R233, R234) -/

/-- Pointers a list's cache holds (R232). -/
def cacheMax : Nat := 4096

/-- Return a cell to list p mod 16 (R231); a full cache spills first (R232). -/
def State.pushCell (s : State) (p : Nat) : State :=
  let k := p % 16
  let s1 := if cacheMax ≤ runsLen (s.freeList k).cache then s.spill k else s
  let x := s1.freeList k
  s1.setFree k { x with cache := x.cache ++ [⟨p / 16, 1⟩] }

/-- Return every cell of a chain (R231). -/
def State.freeChain (s : State) : List Nat → State
  | [] => s
  | p :: ps => (s.pushCell p).freeChain ps

/-- Take a free cell of list `k`: which pointer of the cache comes out is a free value. An empty cache refills first. -/
def State.popList (s : State) (k : Nat) : Nat × State :=
  let s1 := if runsLen (s.freeList k).cache = 0 then s.refill k false else s
  let x := s1.freeList k
  let (i, s2) := s1.draw
  let rs := runsTurn (Config.freeNat i % max 1 (runsLen x.cache)) x.cache
  (16 * runsHead rs + k, s2.setFree k { x with cache := (runsSplit 1 rs).2 })

/-- The first of `n` lists from `k` on that holds a cell (R233). -/
def State.listFrom (s : State) (k : Nat) : Nat → Option Nat
  | 0 => none
  | n + 1 => if (s.freeList (k % 16)).free ≠ 0 then some (k % 16) else s.listFrom (k + 1) n

/-- Writer `w`. -/
def State.writer (s : State) (w : Nat) : Writer := s.pool.writers.get (fun _ => {}) w

/-- Replace writer `w`. -/
def State.setWriter (s : State) (w : Nat) (x : Writer) : State :=
  { s with pool.writers := s.pool.writers.set (fun _ => {}) w x }

/-- The list a writer's request goes to: the one after that its previous cell came from, empty ones skipped (R233). -/
def State.wants (s : State) (w : Nat) : Option Nat := s.listFrom ((s.writer w).last + 1) 16

/-- A writer whose request finds the pool empty abandons its frame: the cells it has chained go back in the same clock (R234). -/
def State.abandon (s : State) (w : Nat) : State :=
  let x := s.writer w
  (((s.freeChain x.chain).setWriter w { x with chain := [], lost := true }).bump Reg.poolExhaustDrop).event (leafOf 15 0) 0

/-- Cell writers (R233). -/
def writers : Nat := 14

/-- A list's winner among the writers that ask it in one clock: the first at or after the rotating pointer (R233). -/
def winner (turn : Nat) (ws : List Nat) : Option Nat :=
  ((List.range writers).map fun i => (turn + i) % writers).find? fun w => ws.contains w

/-- List `k` serves one of the writers that ask it; the pointer advances past the winner (R233). A request of a writer whose last
frame was abandoned is its next frame's first (R234). -/
def State.serveList (s : State) (ws : List Nat) (k : Nat) : State :=
  match winner (s.freeList k).turn ws with
  | some w =>
    let q := s.popList k
    let x := q.2.writer w
    (q.2.setFree k { q.2.freeList k with turn := (w + 1) % writers }).setWriter w
      { last := k, chain := x.chain ++ [q.1], lost := false }
  | none => s

/-- One clock in which the writers `ws` request a cell, besides those whose request still stands (R233, R234): each list serves
one of those that ask it; a writer that is not served abandons its frame when every list is empty then, and asks again in the next
clock otherwise. -/
def State.popClock (s : State) (ws : List Nat) : State :=
  let all := ws ++ s.pool.asking.filter fun w => !ws.contains w
  let ask (k : Nat) : List Nat := all.filter fun w => s.wants w == some k
  let won := (List.range 16).filterMap fun k => winner (s.freeList k).turn (ask k)
  let left := all.filter fun w => !won.contains w
  let s1 := s.each (List.range 16) fun k s' => s'.serveList (ask k) k
  if s1.freeTotal = 0 then { s1 with pool.asking := [] }.each left fun w s' => s'.abandon w
  else { s1 with pool.asking := left }

/-- CELL_POP (R233, R234): the writers, one bit each, that request a cell in one clock. -/
def execCellPop (ws : BitVec 14) (s : State) : Host.Outcome State Fault Refusal :=
  .next (s.popClock ((List.range writers).filter fun w => ws.getLsbD w))

/-- CELL_PUSH (R231): a reader has read the cell's data. -/
def execCellPush (p : Fin 335544320) (s : State) : Host.Outcome State Fault Refusal :=
  .next (if s.pool.reading.contains p.val then
    { s.pushCell p.val with pool.reading := s.pool.reading.erase p.val } else s)

/-- Request a cell in each clock until the writer's chain has `n`, or it abandons its frame. -/
def State.popUpTo (s : State) (w n : Nat) : Nat → State
  | 0 => s
  | fuel + 1 =>
    if (s.writer w).lost ∨ n ≤ (s.writer w).chain.length then s else (s.popClock [w]).popUpTo w n fuel

/-- A writer fills its chain up to `n` cells; it loses at most one clock to each other writer's standing request. -/
def State.fill (s : State) (w n : Nat) : State :=
  (s.setWriter w { s.writer w with lost := false }).popUpTo w n (n + writers)

/-- Cells of a frame of `n` bytes (R231). -/
def cellsOf (n : Nat) : Nat := ceilDiv n 256

/-- Write a frame of `n` bytes with writer `w` (R231, R234): its chain, or none when the pool was exhausted. Cells beyond
the frame's own go back. -/
def State.writeChain (s : State) (w n : Nat) : Option (List Nat) × State :=
  let k := cellsOf n
  let s1 := s.fill w k
  let x := s1.writer w
  let s2 := s1.setWriter w { x with chain := [], lost := false }
  if x.lost then (none, s2)
  else (some (x.chain.take k), (s2.freeChain (x.chain.drop k)).hbmWritten 0 (x.chain.take k))

/-- A chain passes to a reader, which returns each cell once it is read (R231). -/
def State.readChain (s : State) (cs : List Nat) : State := { s with pool.reading := s.pool.reading ++ cs }

/-- Cells become orphans: no owner holds them until a sweep (R238). -/
def State.orphan (s : State) (cs : List Nat) : State :=
  { s with pool.orphans := s.pool.orphans ++ cs.map fun p => (p % 16, ⟨p / 16, 1⟩) }

/-- A frame's chain is read and the frame goes on as `k` says. At an uncorrectable cell the frame is dropped and counted; the cells up to
it return, later ones are orphaned (Table 17.1 KIND 0). -/
def State.readFrame (s : State) (f : Stored) (k : State → State) : State :=
  let q := s.readSlots f.cells 0
  match q.1 with
  | none => (k q.2).readChain f.cells
  | some i => ((q.2.freeChain (f.cells.take (i + 1))).orphan (f.cells.drop (i + 1))).bump Reg.chkHbmFrameDrop

/-- The state of a queue is uncorrectable (Table 17.1 KIND 4): its frames are lost and counted, their cells orphaned. -/
def State.queueLost (s : State) (l : List Stored) : State :=
  ((s.memoryError 4 true 0 0 0).orphan (l.flatMap fun f => f.cells)).bumpBy Reg.chkQLost l.length

/-! ### Slot layout (R230, Tables 11.1 and 11.2) -/

/-- The metadata of a carrier of list `k` that stands for `cells`, the carrier itself first: NEXT names the next carrier, LAST the
list's last. That the first of its cells is the carrier is the model's: DESIGN CHOICE, log 111. -/
def carrierMeta (k n next : Nat) (last : Bool) : BitVec 128 :=
  BitVec.ofNat 128 (next + ofBool last * 2 ^ 29 + 2 ^ 31 + (n - 1) * 2 ^ 32 + k * 2 ^ 41)

/-- The metadata of cell `i` of a frame's chain; its first cell also holds the frame's fields and the first cell of the next frame
of its queue. -/
def chainMeta (f : Stored) (i nextFrame : Nat) : BitVec 128 :=
  let n := f.cells.length
  let last := decide (n ≤ i + 1)
  let fill := if last then f.len - 256 * (n - 1) else 256
  let head := if i = 0 then 2 ^ 30 + f.len * 2 ^ 64 + f.cls * 2 ^ 78 + f.colour * 2 ^ 81 + ofBool f.ct * 2 ^ 83 +
    ofBool f.copy * 2 ^ 84 + nextFrame * 2 ^ 99 else 0
  BitVec.ofNat 128 ((f.cells[i + 1]?).getD 0 + ofBool last * 2 ^ 29 + fill * 2 ^ 32 + head)

/-- The 256 data bytes of cell `i` of a frame's chain: frame bytes, the last cell's rest zero (the manual states none). -/
def chainData (f : Stored) (i : Nat) : List Byte :=
  let b := (f.frame.bytes.drop (256 * i)).take 256
  b ++ List.replicate (256 - b.length) 0

/-- The slots that a queue's frames occupy, each with its data and metadata (R230). -/
def queueSlots : List Stored → List (Nat × List Byte × BitVec 128)
  | [] => []
  | f :: fs =>
    let next := ((fs.head?.bind fun g => g.cells.head?).getD 0)
    (List.range f.cells.length).map (fun i => ((f.cells[i]?).getD 0, chainData f i, chainMeta f i next)) ++ queueSlots fs

/-- Data and metadata of a slot that a VOQ, a subscriber queue or the replication queue holds (R230). -/
def State.poolSlot (s : State) (p : Nat) : Option (List Byte × BitVec 128) :=
  ((s.voq.q.flatMap fun e => queueSlots e.2.frames) ++ (s.alm.nodes.flatMap fun e => queueSlots e.2.frames) ++
    (s.pool.mcq.flatMap fun m => queueSlots [m.stored])).find? (fun e => e.1 == p) |>.map Prod.snd

/-! ### Totals (Table 11.6) -/

/-- POOL_QUEUED: cells in VOQs and egress subscriber queues. -/
def State.queuedTotal (s : State) : Nat :=
  ((s.voq.q.flatMap fun e => e.2.frames).map fun f => f.cells.length).sum +
  ((s.alm.nodes.flatMap fun e => e.2.frames).map fun f => f.cells.length).sum

/-- POOL_INFLIGHT: cells held by writers, readers and the replication engine. -/
def State.inflightTotal (s : State) : Nat :=
  (s.pool.writers.map fun e => e.2.chain.length).sum + s.pool.reading.length +
  (s.pool.mcq.map fun e => e.stored.cells.length).sum + (s.rhb.reasm.map fun e => e.2.cells.length).sum

/-! ### Sounding audit (R236, R237) -/

/-- Store the OP_PARTIAL registers and PROGRESS of a running audit (R236). -/
def State.auditShow (s : State) (a : AuditRun) : State :=
  let o := Reg.poolAuditOpPartial
  (((s.wrNat (o 0) a.total).wrNat (o 1) (a.list % 16)).wrNat (o 3) a.failed).setProgress .audit (a.total / 64)

/-- The walk of list `k` begins at the head of its HBM part as it stands. -/
def State.auditList (s : State) (a : AuditRun) (k : Nat) : AuditRun :=
  let n := (s.freeList k).hbm
  { a with list := k, start := n, walked := 0, counted := 0, ahead := 0, todo := n }

/-- START of an audit: D is sampled in the START clock (R236). -/
def State.auditStart (s : State) : State :=
  if !opAllowed .audit s.dev.mode 0 0 then s.opRefuse .audit 3
  else
    let d : Int := (allCells : Int) - (s.freeTotal + s.queuedTotal + s.inflightTotal : Nat)
    let s1 := ((s.opBegin .audit).wr Reg.poolAuditResult 0).wrNat (Reg.poolAuditOpPartial 2) (unsign 32 d)
    { s1 with pool.audit := some (s1.auditList {} 0) }

/-- A write of POOL_AUDIT_OP_CTRL. -/
def State.auditCtrlWrite (s : State) (v : Word) : State :=
  s.opCtrlWrite .audit v State.auditStart fun s => { s with pool.audit := none }.opAbort .audit 1

/-- AUDIT_START (R236). -/
def execAuditStart (val : Word) (s : State) : Host.Outcome State Fault Refusal := .next (s.auditCtrlWrite val)

/-- AUDIT_ABORT (R236). -/
def execAuditAbort (val : Word) (s : State) : Host.Outcome State Fault Refusal := .next (s.auditCtrlWrite val)

/-- The carriers of an HBM part after `off` of its cells: the first of them, and whether another follows. -/
def FreeList.carrierAt (x : FreeList) (off : Nat) : List Run × Option Nat :=
  let rec go : Nat → List (List Run) → List Run × Option Nat
    | _, [] => ([], none)
    | o, c :: cs => if o < runsLen c then (c, cs.head?.map runsHead) else go (o - runsLen c) cs
  if off < x.fresh.count then
    let n := min 65 (x.fresh.count - off)
    ([⟨x.fresh.start + off, n⟩],
      if off + n < x.fresh.count then some (x.fresh.start + off + n) else x.carriers.head?.map runsHead)
  else go (off - x.fresh.count) x.carriers

/-- The metadata that the walk of list `k` reads from its next carrier, with no error (R230, R236). -/
def State.carrierWord (s : State) (k off : Nat) : BitVec 128 :=
  let q := (s.freeList k).carrierAt off
  carrierMeta k (runsLen q.1) ((q.2.map fun i => 16 * i + k).getD 0) q.2.isNone

/-- AUDIT_CARRIER_WALK (R236): the walk reads the next carrier of its list, or, at the end, judges the list and moves on. A
carrier with FREE = 0 or another LIST, or an uncorrectable one, fails the list. `flips` are the metadata bits that an error no code
caught has changed; each carrier counts itself and FILL pointers. -/
def State.auditWalk (s : State) (flips : BitVec 128) (uncorr : Bool) : State :=
  match s.pool.audit with
  | none => s
  | some a =>
    if 16 ≤ a.list then s
    else
      let c := min a.todo (runsLen ((s.freeList a.list).carrierAt a.walked).1)
      let w := (s.carrierWord a.list a.walked ^^^ flips).toNat
      let p := 16 * runsHead ((s.freeList a.list).carrierAt a.walked).1 + a.list
      let r := (if uncorr then s.hbmDamaged [(p, correctable + 1)] else s).hbmRead 1 p
      let a' :=
        if c = 0 then
          s.auditList { a with failed := if a.counted + a.ahead = a.start then a.failed else a.failed ||| 2 ^ a.list } (a.list + 1)
        else if !r.1 || w / 2 ^ 31 % 2 == 0 || w / 2 ^ 41 % 16 != a.list then
          s.auditList { a with failed := a.failed ||| 2 ^ a.list } (a.list + 1)
        else
          let n := w / 2 ^ 32 % 512 + 1
          { a with walked := a.walked + c, counted := a.counted + n, todo := a.todo - c, total := a.total + n }
      let s1 := if c ≠ 0 then r.2 else s
      ({ s1 with pool.audit := some a' } : State).auditShow a'

/-- AUDIT_CARRIER_WALK (R236). -/
def execAuditCarrierWalk (flips : BitVec 128) (uncorr : Bool) (s : State) : Host.Outcome State Fault Refusal :=
  .next (s.auditWalk flips uncorr)

/-- AUDIT_END (R237): with every list walked, the first audit sets the baseline and every later one reports a change. -/
def State.auditEnd (s : State) : State :=
  match s.pool.audit with
  | none => s
  | some a =>
    if a.list < 16 then s
    else
      let d := signed 32 (s.rd (Reg.poolAuditOpPartial 2)).toNat
      let r : Word :=
        match s.pool.baseline with
        | none => 0xA0000000
        | some b => if b = (d, a.failed) then 0x80000000 else 0xC0000000
      let s1 := ({ s with pool.audit := none, pool.baseline := some (d, a.failed) } : State).wr Reg.poolAuditResult r
      (if Machine.bit r 30 then s1.event (leafOf 15 1) 0 else s1).opDone .audit

/-- AUDIT_END (R237). -/
def execAuditEnd (s : State) : Host.Outcome State Fault Refusal := .next s.auditEnd

/-! ### Sounding sweep (R238) -/

/-- Slots in a list of runs. -/
def orphanCount (l : List (Nat × Run)) : Nat := (l.map fun e => e.2.count).sum

/-- START of a sweep: marking begins; the slots no owner holds are those orphaned now. -/
def State.sweepStart (s : State) : State :=
  if !opAllowed .sweep s.dev.mode 0 0 then s.opRefuse .sweep 3
  else { s.opBegin .sweep with pool.sweep := some { found := s.pool.orphans }, pool.orphans := [] }

/-- A write of POOL_SWEEP_OP_CTRL: an abort keeps the reclaims already made. -/
def State.sweepCtrlWrite (s : State) (v : Word) : State :=
  s.opCtrlWrite .sweep v State.sweepStart fun s => s.opAbort .sweep 1

/-- SWEEP_START (R238). -/
def execSweepStart (val : Word) (s : State) : Host.Outcome State Fault Refusal := .next (s.sweepCtrlWrite val)

/-- SWEEP_ABORT (R238). -/
def execSweepAbort (val : Word) (s : State) : Host.Outcome State Fault Refusal := .next (s.sweepCtrlWrite val)

/-- The part of a run of list `k` that lies below slot `p`, and the rest. -/
def runBelow (p k : Nat) (r : Run) : Run × Run :=
  let n := min r.count (ceilDiv (p - k) 16 - r.start)
  (⟨r.start, n⟩, ⟨r.start + n, r.count - n⟩)

/-- Push the cells of a run of list `k` (R238). -/
def State.pushRun (s : State) (k start : Nat) : Nat → State
  | 0 => s
  | n + 1 => (s.pushCell (16 * start + k)).pushRun k (start + 1) n

/-- Push the cells of runs, each with its list. -/
def State.pushRuns (s : State) : List (Nat × Run) → State
  | [] => s
  | e :: es => (s.pushRun e.1 e.2.start e.2.count).pushRuns es

/-- Store a running sweep's PROGRESS and OP_PARTIAL registers (R238): 64-cell units over both phases, cells marked, cells
reclaimed. -/
def State.sweepShow (s : State) (r : SweepRun) : State :=
  let marked := if r.reclaim then allCells - (orphanCount r.found + r.pushed) else r.pos
  ((s.wrNat (Reg.poolSweepOpPartial 0) marked).wrNat (Reg.poolSweepOpPartial 1) r.pushed).setProgress .sweep
    (if r.reclaim then (allCells + r.pos) / 64 else r.pos / 64)

/-- The reclaim passes every slot below `p`: those unmarked are pushed to their lists (R238). -/
def State.reclaimTo (s : State) (r : SweepRun) (p : Nat) : State :=
  let cut := r.found.map fun e => (e.1, runBelow p e.1 e.2)
  let r' : SweepRun :=
    { found := (cut.map fun e => (e.1, e.2.2)).filter fun e => e.2.count != 0, reclaim := true, pos := p,
      pushed := r.pushed + (cut.map fun e => e.2.1.count).sum }
  let s1 := s.pushRuns (cut.map fun e => (e.1, e.2.1))
  ({ s1 with pool.sweep := some r' } : State).sweepShow r'

/-- A sweep goes on by a free number of slots: the manual gives it no rate. -/
def State.sweepOn (s : State) : State :=
  match s.pool.sweep with
  | none => s
  | some r =>
    let (i, s1) := s.draw
    let top := if r.reclaim then allCells else allCells - orphanCount r.found
    let p := r.pos + Config.freeNat i % (top - r.pos + 1)
    if r.reclaim then s1.reclaimTo r p
    else ({ s1 with pool.sweep := some { r with pos := p } } : State).sweepShow { r with pos := p }

/-- SWEEP_MARKING_END (R238): every cell that an owner held at any instant of the phase is marked. -/
def State.sweepMarked (s : State) : State :=
  match s.pool.sweep with
  | some r =>
    if r.reclaim then s
    else
      let r' : SweepRun := { found := r.found, reclaim := true }
      ({ s with pool.sweep := some r' } : State).sweepShow r'
  | none => s

/-- SWEEP_MARKING_END (R238). -/
def execSweepMarkingEnd (s : State) : Host.Outcome State Fault Refusal := .next s.sweepMarked

/-- SWEEP_END (R238): every unmarked slot has been pushed to its list. -/
def State.sweepEnd (s : State) : State :=
  match s.pool.sweep with
  | some r =>
    if r.reclaim then { s.reclaimTo r allCells with pool.sweep := none }.opDone .sweep else s
  | none => s

/-- SWEEP_END (R238). -/
def execSweepEnd (s : State) : Host.Outcome State Fault Refusal := .next s.sweepEnd

end Sys2Proof.Machine
end

