-- ==== Sys2Proof/Machine/Sched.lean ====
section
/-!
DEFINITION. Machine/Sched.lean: what the Almanac keeps for a destination port of this device: credit requests (R257 to
R260), transmit staging (R23), nodes and profiles (R252, R263), subscriber queues and their admission (R251, R266).
-/
namespace Sys2Proof.Machine

/-! ### Credit requests -/

/-- ALM_EXPERT_EN. -/
def State.almExpert (s : State) : Bool := s.bit Reg.almCtrl 31

/-- CREDIT_BYTES (Tables 12.3 and 12.4). -/
def State.creditBytes (s : State) : Nat :=
  if s.almExpert then max 256 (s.fld Reg.almExpCfg 15 0) else 2048 * 2 ^ s.fld Reg.almCtrl 1 0

/-- CREDIT_LOSS_US. -/
def State.creditLossUs (s : State) : Nat := if s.almExpert then max 1 (s.fld Reg.almExpCfg 31 16) else 200

/-- A request is that of a VOQ identity: port, class and source device. -/
def CreditReq.is (r : CreditReq) (port cls src : Nat) : Bool := r.port == port && r.cls == cls && r.src == src

/-- The scheduler's record of a VOQ. -/
def State.req (s : State) (port cls src : Nat) : CreditReq :=
  (s.alm.reqs.find? fun r => r.is port cls src).getD { port := port, cls := cls, src := src }

/-- Change the scheduler's record of a VOQ. -/
def State.setReq (s : State) (r : CreditReq) : State :=
  if s.alm.reqs.any fun x => x.is r.port r.cls r.src then
    { s with alm.reqs := s.alm.reqs.map fun x => if x.is r.port r.cls r.src then r else x }
  else { s with alm.reqs := s.alm.reqs ++ [r] }

/-- Frame bytes of a VOQ arrive at their port, or are dropped on the way: outstanding credit is reduced (R257, R259,
R293). -/
def State.charged (s : State) (port cls src bytes : Nat) : State :=
  let r := s.req port cls src
  s.setReq { r with out := r.out - bytes }

/-- Outstanding credit toward a port. -/
def State.outstanding (s : State) (port : Nat) : Nat :=
  ((s.alm.reqs.filter fun r => r.port == port).map fun r => r.out).sum

/-- Outstanding credit toward a port and class. -/
def State.outstandingCls (s : State) (port cls : Nat) : Nat :=
  ((s.alm.reqs.filter fun r => r.port == port && r.cls == cls).map fun r => r.out).sum

/-! ### Staging (R23, R260) -/

/-- Frames staged toward a device port. -/
def State.staging (s : State) (port : Nat) : List Stored := s.alm.staging.get (fun _ => []) port

/-- Replace a staging buffer. -/
def State.setStaging (s : State) (port : Nat) (l : List Stored) : State :=
  { s with alm.staging := s.alm.staging.set (fun _ => []) port l }

/-- Bytes staged. -/
def stagedBytes (l : List Stored) : Nat := (l.map fun f => f.frame.bytes.length).sum

/-- Lanes of a network personality (Table 14.1). -/
def netLanes : Nat → Nat
  | 0 => 0
  | 5 => 2
  | 6 => 4
  | _ => 1

/-- The personality of network port `m` (NET_PERSONALITY); management ports have 1. -/
def State.netPers (s : State) (m : Nat) : Nat := if 24 ≤ m then 1 else s.fld (Reg.netPersonality m) 2 0

/-- The odd network port of a 400GbE pair (R4, R252). -/
def State.pairOdd (s : State) (m : Nat) : Bool := m % 2 == 1 && s.netPers (m - 1) == 6

/-- Staging size of a device port in bytes: 256 KiB a lane, 256 KiB for a management port, 512 KiB for the host. -/
def State.stagingSize (s : State) (port : Nat) : Nat :=
  if port = 72 then 512 * 1024
  else if port = 73 ∨ port = 74 then 256 * 1024
  else 256 * 1024 * netLanes (s.netPers (port - 48))

/-- The length of a staged frame on the line: FRAME_LEN while its cells still arrive (R292). -/
def txLen (f : Stored) : Nat := if f.part.isSome then f.len else f.frame.bytes.length

/-- A frame with its FCS computed again, as every frame leaves the forwarding die (R170, R192), inverted where a cut-through start ended badly (R246).
A 24-byte punt header stands before the frame (R260). -/
def sealFrame (f : Stored) : Stored :=
  let n := if f.puntHdr then 24 else 0
  let b := f.frame.bytes.drop n
  if b.length < 4 then f
  else { f with frame := { f.frame with bytes := f.frame.bytes.take n ++ withFcs b f.frame.bad } }

/-- A frame enters staging. -/
def State.stage (s : State) (f : Stored) : State :=
  s.setStaging f.port (s.staging f.port ++ [{ f with cells := [] }])

/-! ### Nodes and profiles (R252, R253, R263) -/

/-- The key of a node. -/
def nodeKey (level idx : Nat) : Nat := level * 524288 + idx

/-- A node. -/
def State.node (s : State) (level idx : Nat) : Node := s.alm.nodes.get (fun _ => s.alm.blank) (nodeKey level idx)

/-- Replace a node. -/
def State.setNode (s : State) (level idx : Nat) (x : Node) : State :=
  { s with alm.nodes := s.alm.nodes.set (fun _ => s.alm.blank) (nodeKey level idx) x }

/-- PARENT of a node. -/
def Node.parent (x : Node) : Nat := Machine.fld x.cfg0 18 0

/-- The range of parents that the image permits a node (R252); nodes the image gives no range have none. -/
def State.parentRange (s : State) (level idx : Nat) : Option (Nat × Nat) :=
  (s.dev.body.sched.ranges.find? fun e => e.1 == level && e.2.1 ≤ idx && idx ≤ e.2.2.1).map fun e => (e.2.2.2.1, e.2.2.2.2)

/-- A parent that lies in the image's range. -/
def State.parentOk (s : State) (level idx : Nat) : Bool :=
  match s.parentRange level idx with
  | some (lo, hi) => decide (lo ≤ (s.node level idx).parent) && decide ((s.node level idx).parent ≤ hi)
  | none => false

/-- The L1 node above a node of a level. -/
def State.rootOf (s : State) : Nat → Nat → Nat
  | 0, idx => idx
  | 1, idx => idx
  | l + 2, idx => s.rootOf (l + 1) (s.node (l + 2) idx).parent

/-- The nodes of level `l + 1` whose parent is node `idx` of level `l`. -/
def State.children (s : State) (l idx : Nat) : List Nat :=
  (s.alm.nodes.filter fun e =>
    decide (e.1 / 524288 = l + 1) && e.2.parent == idx && Machine.bit e.2.cfg0 31 &&
      s.parentOk (l + 1) (e.1 % 524288)).map fun e => e.1 % 524288

/-- A node has a frame or request below it that can be reached (R255); `leaf` tests L5. -/
def State.hasWork (s : State) (leaf : Nat → Bool) : Nat → Nat → Nat → Bool
  | 0, _, idx => leaf idx
  | n + 1, l, idx => (s.children l idx).any fun c => (s.node (l + 1) c).wheel.isNone && s.hasWork leaf n (l + 1) c

/-- The classes of network port `m` that an L5 node serves (R254). -/
def State.classesOf (s : State) (m q : Nat) : List Nat :=
  (List.range 8).filter fun c =>
    s.bit (Reg.almNetClass (8 * m + c)) 31 && s.fld (Reg.almNetClass (8 * m + c)) 18 0 == q

/-- Requests toward a port and class. -/
def State.requests (s : State) (port cls : Nat) : List CreditReq :=
  s.alm.reqs.filter fun r => r.on && r.port == port && r.cls == cls

/-- An L5 node below L1 node `root` holds a frame, or serves a class with a request (R254, R255). -/
def State.leafWork (s : State) (root q : Nat) : Bool :=
  if root < 96 then !(s.node 5 q).frames.isEmpty
  else (s.classesOf (root - 96) q).any fun c => !(s.requests (root - 48) c).isEmpty

/-- A node of L2 to L5 is a candidate of its parent (R253, R255). -/
def State.isCandidate (s : State) (level idx : Nat) : Bool :=
  let x := s.node level idx
  Machine.bit x.cfg0 31 && s.parentOk level idx && x.wheel.isNone &&
    s.hasWork (s.leafWork (s.rootOf level idx)) (5 - level) level idx

/-- A child that has stopped being a candidate has its deficit set to 0 (R255). -/
def State.settle (s : State) : State :=
  s.each ((s.alm.nodes.filter fun e => e.2.deficit != 0).map Prod.fst) fun k s =>
    let l := k / 524288
    let i := k % 524288
    if s.isCandidate l i then s else s.setNode l i { s.node l i with deficit := 0 }

/-- A STATUS_ON or STATUS_OFF reaches the scheduler (R257, R258): credit lost is written off when the last CREDIT left more
than CREDIT_LOSS_US before; STATUS_OFF leaves the request set and gives back RETURN. -/
def State.schedStatus (s : State) (port cls src : Nat) (on : Bool) (ret : Nat) (received : Word) : State :=
  let r := s.req port cls src
  let lost := (r.issued - received).toNat
  let old := decide (r.lastAt.toNat + s.creditLossUs * usRaw < s.raw.toNat)
  let s1 := if lost ≠ 0 ∧ old then s.bumpBy Reg.almCreditLost lost else s
  let r1 := if lost ≠ 0 ∧ old then { r with out := r.out - lost, issued := received } else r
  (s1.setReq { r1 with on := on, out := if on then r1.out else r1.out - ret }).settle

/-- An egress queue number names a subscriber queue: its parents end at a PON channel (R254). -/
def State.isSubscriber (s : State) (q : Nat) : Bool := decide (q < 524288) && decide (s.rootOf 5 q < 96)

/-- Profiles: bank, kind (0 shaper, 1 policer, 2 WRED), index. -/
def profKey (bank kind idx : Nat) : Nat := (bank * 4 + kind) * 16384 + idx

/-- The reset image of a profile: zeros, but FILL_ON_CHANGE of a shaper is 1 (Table 12.6, R35). -/
def profReset (key : Nat) : List Word :=
  if key / 16384 % 4 = 0 then [0, 0, 0, 0, 0x80000000, 0, 0, 0, 0, 0] else List.replicate 10 0

/-- A profile's words. -/
def State.profile (s : State) (bank kind idx : Nat) : List Word := s.alm.prof.get profReset (profKey bank kind idx)

/-- Word `i` of a profile. -/
def profWord (p : List Word) (i : Nat) : Word := (p[i]?).getD 0

/-- The active bank of the Almanac's profiles. -/
def State.almBank (s : State) : Nat := s.activeBank Reg.almCommit

/-- The shaper profile of a node in the active bank. -/
def State.shaper (s : State) (x : Node) : List Word := s.profile s.almBank 0 (Machine.fld x.cfg1 29 16)

/-! ### Subscriber queues (R251, R266) -/

/-- Cells of a queue. -/
def queueCells (l : List Stored) : Nat := (l.map fun f => f.cells.length).sum

/-- The verdict of WRED and tail admission (R266). -/
inductive Admit where
  | pass
  | tail
  | wred
deriving DecidableEq, Repr

/-- R266 for a queue with average `avg` (after this arrival), occupancy, the frame's cells, its colour and a 16-bit
random value. -/
def admitFrame (p : List Word) (avg qcells fcells k rnd : Nat) : Admit :=
  let tail := Machine.fld (profWord p (6 + k)) 28 0
  let minTh := Machine.fld (profWord p (2 * k)) 23 0
  let maxP := Machine.fld (profWord p (2 * k)) 31 24
  let maxTh := Machine.fld (profWord p (2 * k + 1)) 23 0
  let a := avg / 256
  if tail ≠ 0 ∧ tail < qcells + fcells then .tail
  else if Machine.bit (profWord p 9) 31 then
    if maxTh ≤ a then .wred
    else if minTh < a ∧ rnd * (maxTh - minTh) * 256 < maxP * (a - minTh) * 65536 then .wred
    else .pass
  else .pass

/-- The average after an arrival: avg += ((qcells << 8) − avg) >> W (R266). -/
def wredAvg (avg qcells w : Nat) : Nat := ((avg : Int) + ((qcells * 256 : Nat) - (avg : Int)) / (2 ^ w : Int)).toNat

/-- A frame is dropped with its chain returned. -/
def State.discard (s : State) (f : Stored) : State := s.freeChain f.cells

/-- A frame enters the subscriber queue its EQ names, is refused there, or names none of this device (R251, R266). -/
def State.subEnqueue (s : State) (f : Stored) : State :=
  if !s.isSubscriber f.eq then (s.discard f).bump Reg.voqEqBad
  else
    let x := s.node 5 f.eq
    let p := s.profile s.almBank 2 (Machine.fld x.cfg1 7 0)
    let qc := queueCells x.frames
    let avg := wredAvg x.avg qc (Machine.fld (profWord p 9) 3 0)
    let (i, s1) := s.draw
    let s2 := s1.setNode 5 f.eq { x with avg := avg }
    match admitFrame p avg qc f.cells.length f.colour (Config.freeNat i % 65536) with
    | .pass => (s2.setNode 5 f.eq { x with avg := avg, frames := x.frames ++ [f] }).memWrite 4
    | .tail => ((s2.discard f).bump Reg.almTailDrop).cntPair (1048576 + f.eq) f.frame.bytes.length
    | .wred => ((s2.discard f).bump Reg.almWredDrop).cntPair (1048576 + f.eq) f.frame.bytes.length

/-- A frame of a local VOQ arrives at its destination port: its chain passes to a subscriber queue, or is read on the way to staging
(R19, R251). -/
def State.arrive (s : State) (f : Stored) : State :=
  let s1 := s.charged f.port f.cls f.src f.len
  if f.port < 48 then s1.subEnqueue f
  else s1.readFrame f fun s => s.stage f

end Sys2Proof.Machine
end

