-- ==== Sys2Proof/Machine/Voq.lean ====
section
/-!
DEFINITION. Machine/Voq.lean: virtual output queues, the destination map, credit exchange, cut-through start, hold-down,
replication (R239 to R251).
-/
namespace Sys2Proof.Machine

/-! ### The destination map (R239, R241) -/

/-- The key of a destination. -/
def destKey (dev port : Nat) : Nat := dev * 128 + port

/-- A map entry, in the layout of VOQ_MAP_CFG. -/
def State.mapEntry (s : State) (dev port : Nat) : Word := s.voq.map.get (fun _ => 0) (destKey dev port)

/-- The VOQ of a class: BASE × 8 + (class >> NCLS) (R239). -/
def voqIndex (e : Word) (cls : Nat) : Nat := (Machine.fld e 14 0 * 8 + cls / 2 ^ Machine.fld e 29 28) % 262144

/-- The state of a destination: 0 UP, 1 HELD, 2 DOWN. -/
def State.destState (s : State) (dev port : Nat) : Nat := s.voq.dest.get (fun _ => 0) (destKey dev port)

/-- Set a destination's state. -/
def State.setDest (s : State) (dev port st : Nat) : State :=
  { s with voq.dest := s.voq.dest.set (fun _ => 0) (destKey dev port) st }

/-- VOQ `v`. -/
def State.voqAt (s : State) (v : Nat) : Voq := s.voq.q.get (fun _ => {}) v

/-- Replace VOQ `v`. -/
def State.setVoq (s : State) (v : Nat) (x : Voq) : State := { s with voq.q := s.voq.q.set (fun _ => {}) v x }

/-- A write of VOQ_MAP_SEL (Table 11.9): WRITE applies VOQ_MAP_CFG, READ loads it and the state. -/
def State.mapSelWrite (s : State) (v : Word) : State :=
  let s1 := s.wrTyped Reg.voqMapSel v
  let dev := Machine.fld v 16 7
  let port := Machine.fld v 6 0
  let s2 := if Machine.bit v 31 then
      { s1 with voq.map := s1.voq.map.set (fun _ => 0) (destKey dev port) (s1.rd Reg.voqMapCfg) } else s1
  if Machine.bit v 30 then
    (s2.wr Reg.voqMapCfg (s2.mapEntry dev port)).wrNat Reg.voqMapState (s2.destState dev port)
  else s2

/-- VOQ_MAP_WRITE (R239). -/
def execVoqMapWrite (val : Word) (s : State) : Host.Outcome State Fault Refusal := .next (s.mapSelWrite val)

/-- VOQ_MAP_READ (R239). -/
def execVoqMapRead (val : Word) (s : State) : Host.Outcome State Fault Refusal := .next (s.mapSelWrite val)

/-- A write of VOQ_Q_SEL: READ loads the three result registers in one clock (Table 11.10). -/
def State.qSelWrite (s : State) (v : Word) : State :=
  let s1 := s.wrTyped Reg.voqQSel v
  if Machine.bit v 31 then
    let x := s1.voqAt (Machine.fld v 17 0)
    ((s1.wrNat Reg.voqQCells (queueCells x.frames)).wrNat Reg.voqQBalance x.balance).wrNat Reg.voqQId
      (pack [(1, ofBool x.on), (1, 0), (10, x.dev), (1, 0), (7, x.port), (1, 0), (3, x.cls), (8, 0)])
  else s1

/-- VOQ_STATE_READ (R239). -/
def execVoqStateRead (val : Word) (s : State) : Host.Outcome State Fault Refusal := .next (s.qSelWrite val)

/-! ### Status and credit (R242 to R244) -/

/-- Bytes waiting in a VOQ. -/
def backlog (l : List Stored) : Nat := (l.map fun f => f.len).sum

/-- A VOQ sends STATUS_ON: over the local credit loop for a port of this device, else toward the device (R18, R242). -/
def State.statusOn (s : State) (x : Voq) : State :=
  if x.dev = s.devId then s.schedStatus x.port x.cls s.devId true 0 x.received
  else s.sendCredit x.dev (.statusOn x.dev x.port x.cls s.devId (backlog x.frames) x.received)

/-- A VOQ sends STATUS_OFF with RETURN. -/
def State.statusOff (s : State) (x : Voq) : State :=
  if x.dev = s.devId then s.schedStatus x.port x.cls s.devId false x.balance x.received
  else s.sendCredit x.dev (.statusOff x.dev x.port x.cls s.devId x.balance x.received)

/-- An empty VOQ sends STATUS_OFF with RETURN equal to its balance, which becomes 0 (R243). The message names `id`: the VOQ's own
identity, or that of a CREDIT which finds it empty. -/
def State.voqOffAs (s : State) (v : Nat) (id : Voq) : State :=
  let x := s.voqAt v
  (s.statusOff { x with dev := id.dev, port := id.port, cls := id.cls }).setVoq v { x with balance := 0, on := false }

/-- A VOQ that has become empty (R243). -/
def State.voqOff (s : State) (v : Nat) : State := s.voqOffAs v (s.voqAt v)

/-- A frame leaves its VOQ (R18, R19, R243). -/
def State.release (s : State) (v : Nat) (f : Stored) : State :=
  let s1 := s.cntPair v f.len
  let g := sealFrame f
  if f.dev = s.devId then s1.arrive { g with src := s.devId }
  else s1.readFrame f fun s => s.sendFrame g

/-- Head frames leave while the balance suffices and no drain holds them (R243, R286). -/
def State.voqRelease (s : State) (v : Nat) : Nat → State
  | 0 => s
  | n + 1 =>
    let x := s.voqAt v
    match x.frames with
    | [] => s
    | f :: fs =>
      if f.len ≤ x.balance ∧ s.passes f.frame ∧ (f.dev = s.devId ∨ !s.draining f.dev) then
        ((s.setVoq v { x with frames := fs, balance := x.balance - f.len }).release v f).voqRelease v n
      else s

/-- Release what may leave; a VOQ that becomes empty sends STATUS_OFF. -/
def State.voqServe (s : State) (v : Nat) : State :=
  let n := (s.voqAt v).frames.length
  let s1 := s.voqRelease v n
  if n ≠ 0 ∧ (s1.voqAt v).frames = [] then s1.voqOff v else s1

/-- The VOQ of an identity, when its entry is VALID. -/
def State.voqOf (s : State) (dev port cls : Nat) : Option Nat :=
  let e := s.mapEntry dev port
  if Machine.bit e 31 then some (voqIndex e cls) else none

/-- The VOQ that a message's identity names: the one that recorded it, else the map's. -/
def State.voqNamed (s : State) (dev port cls : Nat) : Option Nat :=
  match s.voq.q.find? fun e => e.2.dev == dev && e.2.port == port && e.2.cls == cls && !e.2.frames.isEmpty with
  | some e => some e.1
  | none => s.voqOf dev port cls

/-- CREDIT_RECEIVED (R243): the balance and RECEIVED grow, head frames leave, an empty VOQ answers STATUS_OFF. -/
def State.creditIn (s : State) (dev port cls bytes : Nat) : State :=
  match s.voqNamed dev port cls with
  | none => s
  | some v =>
    let x := s.voqAt v
    let y := { x with balance := x.balance + bytes, received := x.received + BitVec.ofNat 32 bytes }
    if x.frames = [] then
      (s.setVoq v y).voqOffAs v { y with dev := dev, port := port, cls := cls }
    else (s.setVoq v y).voqServe v

/-- The state of a VOQ is uncorrectable: it reads as empty (Table 17.1 KIND 4). -/
def State.voqLost (s : State) (v : Nat) : State := (s.queueLost (s.voqAt v).frames).setVoq v { s.voqAt v with frames := [] }

/-- CREDIT_RECEIVED (R243, R346): `errs` are the slots that hold erroneous symbols when the head frames are read, and `qBad` says that
the VOQ's state is uncorrectable. -/
def execCreditReceived (dev : Fin 1024) (port : Fin 128) (cls : Fin 8) (bytes : Nat) (errs : List (Nat × Nat)) (qBad : Bool)
    (s : State) : Host.Outcome State Fault Refusal :=
  let s1 := s.hbmDamaged errs
  let s2 := match s1.voqNamed dev.val port.val cls.val with
    | some v => if qBad then s1.voqLost v else s1
    | none => s1
  .next (s2.creditIn dev.val port.val cls.val bytes)

/-- STATUS_ON_REFRESH (R244): a VOQ that waits for credit repeats STATUS_ON. -/
def State.statusRefresh (s : State) (v : Nat) : State :=
  let x := s.voqAt v
  match x.frames with
  | f :: _ => if x.balance < f.len then s.statusOn x else s
  | [] => s

/-- STATUS_ON_REFRESH (R244). -/
def execStatusOnRefresh (v : Fin 262144) (s : State) : Host.Outcome State Fault Refusal := .next (s.statusRefresh v.val)

/-- STATUS_RECEIVED (R258). -/
def execStatusReceived (port : Fin 128) (cls : Fin 8) (src : Fin 1024) (on : Bool) (ret : Nat) (received : Word)
    (s : State) : Host.Outcome State Fault Refusal :=
  .next (s.schedStatus port.val cls.val src.val on ret received)

/-! ### Enqueue (R239, R240, R241, R245, R246) -/

/-- VOQ_THR of a profile and colour; 0 means no limit (R240). -/
def State.voqThr (s : State) (t colour : Nat) : Nat :=
  Machine.fld (s.rd (if colour = 0 then Reg.voqThrW0 t else if colour = 1 then Reg.voqThrW1 t else Reg.voqThrW2 t)) 28 0

/-- A frame is admitted by its entry's threshold (R240). -/
def State.voqAdmits (s : State) (e : Word) (v : Nat) (f : Stored) : Bool :=
  let t := s.voqThr (Machine.fld e 20 16) f.colour
  t == 0 || decide (queueCells (s.voqAt v).frames + f.cells.length ≤ t)

/-- A frame that a cut-through start covers to its end (R246): ended short, cut at FRAME_LEN, or its FCS failed. -/
def State.ctEnd (s : State) (f : Stored) : Stored × State :=
  let n := f.frame.bytes.length
  if f.len < n then
    ({ f with frame := { f.frame with bytes := f.frame.bytes.take f.len, bad := true } }, s.bump Reg.voqCtLenMismatch)
  else if n < f.len then
    let s1 := s.bump Reg.voqCtLenMismatch
    (f, if f.frame.bad then s1.bump Reg.voqCtStomp else s1)
  else if f.frame.bad then (f, s.bump Reg.voqCtStomp)
  else (f, s)

/-- A frame enters its VOQ, or is dropped: no VALID entry, a DOWN destination, a threshold (R239 to R241). `cut` carries the
ingress rate code when the frame may start by cut-through under conditions 1 to 3 of R245, and `len` the FRAME_LEN that its
length field gives. -/
def State.voqEnqueue (s : State) (f : Stored) (cut : Option (Nat × Nat)) : State :=
  let e := s.mapEntry f.dev f.port
  if !Machine.bit e 31 then (s.discard f).bump Reg.voqNomapDrop
  else if s.destState f.dev f.port = 2 then (s.discard f).bump Reg.voqDownDrop
  else
    let v := voqIndex e f.cls
    if !s.voqAdmits e v f then
      ((s.discard f).bump Reg.voqAdmitDrop).cntPair (262144 + v) f.len
    else
      let x := s.voqAt v
      let rate := Machine.fld e 27 24
      let ct :=
        match cut with
        | some (r, len) => rate != 0 && decide (rate ≤ r) && x.frames.isEmpty && decide (len ≤ x.balance)
        | none => false
      if !ct && f.frame.bad then s.discard f
      else
        let (g, s1) :=
          if ct then
            let f1 := { f with ct := true, len := (cut.map Prod.snd).getD f.len }
            (s.bump Reg.voqCtStarts).ctEnd f1
          else (f, s)
        let empty := x.frames.isEmpty
        let y := { x with frames := x.frames ++ [g], dev := if empty then f.dev else x.dev,
                          port := if empty then f.port else x.port, cls := if empty then f.cls else x.cls, on := true }
        let s2 := (s1.setVoq v y).memWrite 4
        (if empty then s2.statusOn y else s2).voqServe v

/-! ### Hold-down (R247, R248) -/

/-- A port's hold-down. -/
def State.hold' (s : State) (i : Nat) : Hold := s.voq.hold.get (fun _ => {}) i

/-- Replace a port's hold-down. -/
def State.setHoldOf (s : State) (i : Nat) (h : Hold) : State := { s with voq.hold := s.voq.hold.set (fun _ => {}) i h }

/-- HOLD_US of a port, at most 1,000,000 (R247). -/
def State.holdUs (s : State) (i : Nat) : Nat :=
  min 1000000 (if s.bit Reg.voqCtrl 31 then s.fld (Reg.voqPortCfg i) 19 0 else s.fld Reg.voqHoldCfg 19 0)

/-- PORT_STATE goes to every other device that a group reaches (R290). -/
def State.portState (s : State) (i st : Nat) : State :=
  (s.setDest s.devId i st).each (s.reachable.filter fun d => d != s.devId) fun d s => s.sendCredit d (.portState s.devId i st)

/-- Drop a list of frames, returning their chains. -/
def State.discardAll (s : State) : List Stored → State
  | [] => s
  | f :: fs => (s.discard f).discardAll fs

/-- Flush the VOQs toward a destination to the pool, counting the frames (R247). -/
def State.flushVoqs (s : State) (dev port : Nat) : State :=
  s.each ((s.voq.q.filter fun e => e.2.dev == dev && e.2.port == port && !e.2.frames.isEmpty).map Prod.fst) fun v s =>
    let x := s.voqAt v
    (((s.discardAll x.frames).bumpBy Reg.voqFlushDrop x.frames.length).setVoq v { x with frames := [] }).voqOff v

/-- Flush a port's staging buffer. -/
def State.flushStaging (s : State) (i : Nat) : State :=
  let l := s.staging i
  ((s.discardAll l).bumpBy Reg.voqFlushDrop l.length).setStaging i []

/-- The subscriber queues of PON port `i` that hold frames: those below its two channels. -/
def State.subQueuesOf (s : State) (i : Nat) : List Nat :=
  (s.alm.nodes.filter fun e =>
    decide (nodeKey 5 0 ≤ e.1) && !e.2.frames.isEmpty && s.rootOf 5 (e.1 - nodeKey 5 0) / 2 == i).map fun e =>
      e.1 - nodeKey 5 0

/-- Flush the frame that waits for space on a PON channel (R171, R247). -/
def State.flushWait (s : State) (j : Nat) : State :=
  match s.xgm.wait.get (fun _ => none) j with
  | some _ => { s.bump Reg.voqFlushDrop with xgm.wait := s.xgm.wait.set (fun _ => none) j none }
  | none => s

/-- Flush a PON port's subscriber queues, and frames that wait for space on its channels. -/
def State.flushSubs (s : State) (i : Nat) : State :=
  (s.each (s.subQueuesOf i) fun q s =>
    let x := s.node 5 q
    ((s.discardAll x.frames).bumpBy Reg.voqFlushDrop x.frames.length).setNode 5 q { x with frames := [] }).settle.each
      [2 * i, 2 * i + 1] fun j s => s.flushWait j

/-- The hold of a port of this device ends: its queues are flushed and DOWN is sent (R247); its outstanding credit clears
(R293). -/
def State.flushPort (s : State) (i : Nat) : State :=
  let s1 := if i < 48 then s.flushSubs i else s.flushStaging i
  let s2 := (s1.flushVoqs s.devId i).portState i 2
  ({ s2 with alm.reqs := s2.alm.reqs.map fun r => if r.port = i then { r with out := 0 } else r } : State).event
    (leafOf 15 3) i

/-- A port of this device goes down (R247): HELD at once, a new full hold begins; with HOLD_US = 0 the flush is at once, but in SAFE,
where nothing is flushed. Port 72 has no hold-down (R248). -/
def State.portDown (s : State) (i : Nat) : State :=
  if i = 72 ∨ (s.hold' i).down then s
  else
    let us := s.holdUs i
    let now := us = 0 ∧ s.dev.mode ≠ .safe
    let s1 := (s.setHoldOf i ⟨true, if now then none else some (s.after us)⟩).portState i 1
    if now then s1.flushPort i else s1

/-- A port comes up: its state returns to UP everywhere (R247). -/
def State.portUp (s : State) (i : Nat) : State :=
  if (s.hold' i).down then (s.setHoldOf i {}).portState i 0 else s

/-- HOLD_DOWN_EXPIRY (R247): in SAFE the timers stop and nothing is flushed. -/
def State.holdExpiry (s : State) (i : Nat) : State :=
  match (s.hold' i).ends with
  | some e =>
    if s.dev.mode ≠ .safe ∧ s.reached e then (s.setHoldOf i ⟨true, none⟩).flushPort i else s
  | none => s

/-- HOLD_DOWN_EXPIRY (R247). -/
def execHoldDownExpiry (i : Fin 75) (at' : Raw) (s : State) : Host.Outcome State Fault Refusal :=
  .next ((s.advance at').holdExpiry i.val)

/-- PORT_STATE_RECEIVED (R241, R247). -/
def State.portStateIn (s : State) (dev port st : Nat) : State :=
  let s1 := s.setDest dev port st
  if st = 2 then s1.flushVoqs dev port else s1

/-- PORT_STATE_RECEIVED (R247). -/
def execPortStateReceived (dev : Fin 1024) (port : Fin 128) (st : Fin 3) (s : State) : Host.Outcome State Fault Refusal :=
  .next (s.portStateIn dev.val port.val st.val)

/-! ### Replication (R249) -/

/-- Frames the replication queue holds. -/
def mcMax : Nat := 65536

/-- A frame enters the replication queue, or is dropped whole with it full (R249). -/
def State.replicate (s : State) (m : McFrame) : State :=
  if s.pool.mcq.length < mcMax then { s with pool.mcq := s.pool.mcq ++ [m] }
  else ((s.discard m.stored).bump Reg.poolMcQueueDrop).event (leafOf 15 2) 0

/-- The 24-byte punt header (R260): the ring, the fields of bytes 11 to 31 of the punt descriptor (Table 02.14), two zeros. -/
def puntHeader (ring reason chart : Nat) (f : Frame) : List Byte :=
  leBytes 1 ring ++ leBytes 1 f.port ++ leBytes 2 reason ++ leBytes 2 f.onu ++ leBytes 4 f.stamp.ns32.toNat ++ [f.stamp.subns] ++
  leBytes 1 f.stamp.view ++ leBytes 2 f.xgem ++ leBytes 8 chart ++ [0, 0]

/-- A frame toward device port 72 carries the header before its first byte, and FRAME_LEN counts it (R260). -/
def withPunt (f : Stored) (reason : Nat) : Stored :=
  if f.port = 72 ∧ !f.puntHdr then
    let bs := puntHeader (f.eq % 64) reason f.chart f.frame ++ f.frame.bytes
    { f with frame := { f.frame with bytes := bs }, len := bs.length, puntHdr := true }
  else f

/-- The copy of a frame for a target (R196, R249). A multicast target's REWRITE acts on its copy. -/
def copyFor (f : Stored) (t : McTarget) (draw : Nat) : Stored :=
  let b0 := match t.rewrite with
    | some r => Config.l2Rewrite draw r f.frame.bytes
    | none => f.frame.bytes
  let bs := if t.trunc = 0 then b0 else b0.take t.trunc
  withPunt
    { f with frame := { f.frame with bytes := bs }, len := bs.length, cells := [], dev := t.dev, port := t.port,
             cls := t.cls, eq := t.eq, copy := true } f.puntReason

/-- A target that may receive a copy: its port is no reserved one (R12), its destination is UP and its VOQ admits it (R249). -/
def State.copyOk (s : State) (f : Stored) : Bool :=
  let e := s.mapEntry f.dev f.port
  decide (f.port < 75) && Machine.bit e 31 && s.destState f.dev f.port == 0 &&
    s.voqAdmits e (voqIndex e f.cls) { f with cells := List.replicate (cellsOf f.len) 0 }

/-- A target receives no copy: it counts under its port (R249), and under the map too when it has no VALID entry (R239). -/
def State.noCopy (s : State) (dev port : Nat) : State :=
  let s1 := if Machine.bit (s.mapEntry dev port) 31 then s else s.bump Reg.voqNomapDrop
  s1.bump (Reg.voqMcNocopy (port % 128))

/-- The chain that the last target takes by transfer holds its copy: a longer copy takes cells besides, a shorter one leaves some
(R249). None when the pool has no cell for it. -/
def State.fitChain (s : State) (cells : List Nat) (n : Nat) : Option (List Nat) × State :=
  let k := cellsOf n
  if k ≤ cells.length then (some (cells.take k), s.freeChain (cells.drop k))
  else
    let q := s.writeChain 13 (256 * (k - cells.length))
    match q.1 with
    | some cs => (some (cells ++ cs), q.2)
    | none => (none, q.2.freeChain cells)

/-- Make copies for targets in index order (R249). The last target that receives a copy takes the original chain by transfer; with
none the original goes back to the pool. -/
def State.copies (s : State) (f : Stored) : List McTarget → State
  | [] => s.discard f
  | t :: ts =>
    let d := s.draw
    let c := copyFor f t d.1
    if !s.copyOk c then (s.noCopy c.dev c.port).copies f ts
    else if ts.all fun u => !s.copyOk (copyFor f u d.1) then
      let q := d.2.fitChain f.cells c.len
      let s1 := match q.1 with
        | some cs => q.2.voqEnqueue { c with cells := cs } none
        | none => q.2.noCopy c.dev c.port
      s1.each (List.range ts.length) fun i s =>
        match ts[i]? with
        | some u => s.noCopy u.dev u.port
        | none => s
    else
      let q := d.2.writeChain 13 c.len
      match q.1 with
      | some cs => (q.2.voqEnqueue { c with cells := cs } none).copies f ts
      | none => (q.2.noCopy c.dev c.port).copies f ts

/-- REPLICATION_TAKE (R249). -/
def State.replicationTake (s : State) : State :=
  match s.pool.mcq with
  | m :: ms => if s.passes m.stored.frame then ({ s with pool.mcq := ms } : State).copies m.stored m.targets else s
  | [] => s

/-- REPLICATION_TAKE (R249). -/
def execReplicationTake (s : State) : Host.Outcome State Fault Refusal := .next s.replicationTake

end Sys2Proof.Machine
end

