-- ==== Sys2Proof/Machine/Almanac.lean ====
section
/-!
DEFINITION. Machine/Almanac.lean: selection, credit issue, shapers and the timing wheel, profiles, policers (R252 to
R265). Gate lists and transmission from staging are in Machine/Gates.lean.
-/
namespace Sys2Proof.Machine

/-! ### Token buckets (R261) -/

/-- Token units in a byte: 1 kb/s for 1 ns is one unit. -/
def tokUnit : Nat := 8000000

/-- Raw time in whole ns. -/
def State.nowNs (s : State) : Nat := s.raw.toNat / nsUnit

/-- A configured rate in kb/s: 0 never limits; others lie within 8 kb/s and 800 Gb/s (R261). -/
def rateOf (w : Word) : Nat :=
  let r := Machine.fld w 29 0
  if r = 0 then 0 else max 8 (min 800000000 r)

/-- A burst in token units. -/
def burstOf (w : Word) : Nat := Machine.fld w 27 0 * tokUnit

/-- Refill to now. -/
def Bucket.refill (b : Bucket) (rate burst now : Nat) : Bucket :=
  { tok := min (burst : Int) (b.tok + (rate * (now - b.last) : Nat)), last := now }

/-- ADJ of a profile, signed bytes. -/
def profAdj (p : List Word) : Int := signed 8 (Machine.fld (profWord p 4) 7 0)

/-- Charge a bucket (R261). -/
def Bucket.charge (b : Bucket) (rate burst now : Nat) (bytes : Int) : Bucket :=
  let c := b.refill rate burst now
  { c with tok := c.tok - bytes * tokUnit }

/-- The wait of a bucket below 0, in ns (R261). -/
def Bucket.wait (b : Bucket) (rate : Nat) : Nat := ceilDiv (-b.tok).toNat (max 1 rate)

/-- Where the wheel puts a node that is next eligible at `t` (R262): the coarse flag, the start of its slot, and whether it
is parked. -/
def wheelPlace (now t : Nat) : (Bool × Nat) × Bool :=
  if t - now ≤ 65536 then ((false, ceilDiv t 16 * 16), false)
  else if t - now < 268435456 then ((true, t / 65536 * 65536), false)
  else ((true, (now / 65536 + 4095) * 65536), true)

/-- A node with a negative maximum bucket goes on the wheel (R262). -/
def State.wheelPut (s : State) (level idx : Nat) : State :=
  let x := s.node level idx
  let rate := rateOf (profWord (s.shaper x) 0)
  if rate ≠ 0 ∧ x.max.tok < 0 then
    let q := wheelPlace s.nowNs (s.nowNs + x.max.wait rate)
    let s1 := s.setNode level idx { x with wheel := some q.1 }
    if q.2 then s1.bump Reg.almWheelPark else s1
  else s.setNode level idx { x with wheel := none }

/-- Every node on the selected path charges both of its buckets, those of rate 0 too (R255, R261). -/
def State.chargeNode (s : State) (level idx bytes : Nat) : State :=
  let x := s.node level idx
  let p := s.shaper x
  let n : Int := (bytes : Int) + profAdj p
  let mx := x.max.charge (rateOf (profWord p 0)) (burstOf (profWord p 1)) s.nowNs n
  let mn := x.min.charge (rateOf (profWord p 2)) (burstOf (profWord p 3)) s.nowNs n
  let y := { x with max := mx, min := mn, deficit := if level = 1 then x.deficit else x.deficit - bytes }
  (s.setNode level idx y).wheelPut level idx

/-- A bucket as a reset leaves it: full, or zero (R263). -/
def State.freshBucket (s : State) (fill : Bool) (burst : Word) : Bucket :=
  { tok := if fill then (burstOf burst : Int) else 0, last := s.nowNs }

/-- A node with its buckets reset (R263): full at basic level, by FILL_ON_CHANGE of the profile in the active bank at expert level; the
node leaves the wheel. -/
def State.nodeFresh (s : State) (x : Node) : Node :=
  let p := s.shaper x
  let fill := !s.almExpert || Machine.bit (profWord p 4) 31
  { x with max := s.freshBucket fill (profWord p 1), min := s.freshBucket fill (profWord p 3), wheel := none }

/-- The buckets of a node are reset (R263). -/
def State.resetNode (s : State) (level idx : Nat) : State := s.setNode level idx (s.nodeFresh (s.node level idx))

/-- The buckets of every node that holds its reset settings are reset (R263): all are bound to profile 0. -/
def State.resetBlank (s : State) : State :=
  let b := s.nodeFresh s.alm.blank
  { s with alm.blank := b, alm.nodes := s.alm.nodes.filter fun e => e.2 != b }

/-- The buckets of every node are reset. -/
def State.resetNodes (s : State) : State :=
  s.resetBlank.each (s.alm.nodes.map Prod.fst) fun k s => s.resetNode (k / 524288) (k % 524288)

/-- WHEEL_SLOT (R262): the slots that begin: fine nodes become eligible, coarse and parked nodes are placed again. -/
def State.wheelSlot (s : State) (coarse : Bool) : State :=
  let due := (s.alm.nodes.filter fun e =>
    match e.2.wheel with
    | some (c, t) => c == coarse && decide (t ≤ s.nowNs)
    | none => false).map Prod.fst
  s.each due fun k s =>
    let level := k / 524288
    let idx := k % 524288
    let x := s.node level idx
    let p := s.shaper x
    let y := { x with wheel := none, max := x.max.refill (rateOf (profWord p 0)) (burstOf (profWord p 1)) s.nowNs }
    (s.setNode level idx y).wheelPut level idx

/-- WHEEL_SLOT (R262). -/
def execWheelSlot (coarse : Bool) (at' : Raw) (s : State) : Host.Outcome State Fault Refusal :=
  .next ((s.advance at').wheelSlot coarse)

/-! ### Selection (R253, R255) -/

/-- The candidates among the children of a node of level `5 − n − 1`. -/
def State.candidates (s : State) (leaf : Nat → Bool) (n l idx : Nat) : List Nat :=
  (s.children l idx).filter fun c => (s.node (l + 1) c).wheel.isNone && s.hasWork leaf n (l + 1) c

/-- A child with a minimum rate whose minimum bucket is at least 0 (R255). -/
def State.minOk (s : State) (level idx : Nat) : Bool :=
  let x := s.node level idx
  let p := s.shaper x
  let r := rateOf (profWord p 2)
  r != 0 && decide (0 ≤ (x.min.refill r (burstOf (profWord p 3)) s.nowNs).tok)

/-- PRIO of a node. -/
def Node.prio (x : Node) : Nat := Machine.fld x.cfg0 30 28

/-- WEIGHT of a node; 0 acts as 1. -/
def Node.weight (x : Node) : Nat := Nat.max 1 (Machine.fld x.cfg0 27 20)

/-- The children of the highest PRIO. -/
def State.topPrio (s : State) (level : Nat) (cs : List Nat) : List Nat :=
  let p := (cs.map fun c => (s.node level c).prio).foldl max 0
  cs.filter fun c => (s.node level c).prio == p

/-- Deficit round robin: each child in turn gains WEIGHT × 256 until one has a deficit above 0 (R255). -/
def State.drr (s : State) (level : Nat) : Nat → List Nat → Option Nat × State
  | 0, cs => (cs.head?, s)
  | _, [] => (none, s)
  | n + 1, c :: cs =>
    let x := s.node level c
    let d := x.deficit + (x.weight * 256 : Nat)
    let s1 := s.setNode level c { x with deficit := d }
    if 0 < d then (some c, s1) else s1.drr level n (cs ++ [c])

/-- The child of `parent` whose turn it is at a PRIO. -/
def Node.turnOf (x : Node) (prio : Nat) : Option Nat := (x.turn.find? fun e => e.1 == prio).map Prod.snd

/-- pick() of R255 among candidates of one phase. -/
def State.pick (s : State) (l idx : Nat) (cs : List Nat) : Option Nat × State :=
  let top := s.topPrio (l + 1) cs
  match top with
  | [] => (none, s)
  | c0 :: _ =>
    let prio := (s.node (l + 1) c0).prio
    let holder := (s.node l idx).turnOf prio
    let keep := match holder with
      | some h => top.contains h && decide (0 < (s.node (l + 1) h).deficit)
      | none => false
    if keep then (holder, s)
    else
      let after := match holder with
        | some h => (top.filter fun c => decide (h < c)) ++ top.filter fun c => decide (c ≤ h)
        | none => top
      let q := s.drr (l + 1) (300 * after.length) after
      match q.1 with
      | some c =>
        let x := q.2.node l idx
        (some c, q.2.setNode l idx { x with turn := (prio, c) :: x.turn.filter fun e => e.1 != prio })
      | none => q

/-- select() of R255 below a node of level `l`: the L5 node chosen and the path, highest first. -/
def State.select (s : State) (leaf : Nat → Bool) : Nat → Nat → Nat → Option (List Nat) × State
  | 0, _, _ => (some [], s)
  | n + 1, l, idx =>
    let cs := s.candidates leaf n l idx
    let mins := cs.filter fun c => s.minOk (l + 1) c
    let q := if mins = [] then s.pick l idx cs else s.pick l idx mins
    match q.1 with
    | none => (none, q.2)
    | some c =>
      let r := q.2.select leaf n (l + 1) c
      (r.1.map fun p => c :: p, r.2)

/-- Charge the path from an L1 node. -/
def State.chargePath (s : State) (l1 bytes : Nat) (path : List Nat) : State :=
  (s.chargeNode 1 l1 bytes).each (List.range path.length) fun i s =>
    match path[i]? with
    | some c => s.chargeNode (i + 2) c bytes
    | none => s

/-- An L1 node may be selected: VALID and not on the wheel (R253, R255). -/
def State.rootOk (s : State) (l1 : Nat) : Bool :=
  Machine.bit (s.node 1 l1).cfg0 31 && (s.node 1 l1).wheel.isNone

/-- The L1 node of PON channel `ch` selects a frame (R256): the frame leaves its queue and the path is charged. `k` takes the frame on
once its chain has been read; a queue whose state is uncorrectable loses its frames (R346). -/
def State.ponSelect (s : State) (ch : Nat) (qBad : Bool) (k : Nat → Stored → State → State) : State :=
  if !s.serving || !s.rootOk ch then s
  else
    let q := s.settle.select (fun i => !(s.node 5 i).frames.isEmpty) 4 1 ch
    match q.1 with
    | none => q.2
    | some path =>
      let eq := path.getLastD 0
      let x := q.2.node 5 eq
      match x.frames with
      | [] => q.2
      | f :: fs =>
        if qBad then ((q.2.queueLost (f :: fs)).setNode 5 eq { x with frames := [] }).settle
        else
          let s1 := ((q.2.setNode 5 eq { x with frames := fs }).chargePath ch f.len path).settle
          (s1.cntPair (524288 + eq) f.len).readFrame f (k eq f)

/-! ### Credit issue (R257, R259, R260) -/

/-- The first condition of R257: staging, outstanding credit and a further credit fit the staging buffer. -/
def State.stagingRoom (s : State) (port : Nat) : Bool :=
  decide (stagedBytes (s.staging port) + s.outstanding port + s.creditBytes ≤ s.stagingSize port)

/-- The second condition of R257 for a class. -/
def State.classRoom (s : State) (port cls : Nat) : Bool :=
  decide (2 * (stagedBytes ((s.staging port).filter fun f => f.cls == cls) + s.outstandingCls port cls) < s.stagingSize port)

/-- The request served next in round robin by source device. -/
def State.nextSrc (s : State) (key : Nat) (rs : List CreditReq) : Option CreditReq :=
  let p := s.alm.rr.get (fun _ => 1023) key
  let least (l : List CreditReq) : Option CreditReq :=
    l.foldl (fun b r => match b with
      | some x => if r.src < x.src then some r else b
      | none => some r) none
  match least (rs.filter fun r => decide (p < r.src)) with
  | some r => some r
  | none => least rs

/-- A CREDIT of CREDIT_BYTES goes to a requesting VOQ (R242, R257). -/
def State.issue (s : State) (key : Nat) (r : CreditReq) : State :=
  let n := s.creditBytes
  let s1 := { s.setReq { r with issued := r.issued + BitVec.ofNat 32 n, lastAt := s.raw, out := r.out + n } with
              alm.rr := s.alm.rr.set (fun _ => 1023) key r.src }
  if r.src = s.devId then s1.creditIn s.devId r.port r.cls n
  else s1.sendCredit r.src (.credit s.devId r.port r.cls r.src n)

/-- Classes of an L5 node with a request that the second condition of R257 lets through. -/
def State.openClasses (s : State) (m q : Nat) : List Nat :=
  (s.classesOf m q).filter fun c => !(s.requests (48 + m) c).isEmpty && s.classRoom (48 + m) c

/-- Class 7 first, the first class with a request that `ok` allows (R259, R260). -/
def State.topRequest (s : State) (port : Nat) (ok : Nat → Bool) : Option CreditReq :=
  ([7, 6, 5, 4, 3, 2, 1, 0].findSome? fun c =>
    if ok c then s.nextSrc (port * 8 + c) (s.requests port c) else none)

/-- Bytes held in the subscriber queues of PON port `n` (R259). -/
def State.subBytes (s : State) (n : Nat) : Nat :=
  ((s.subQueuesOf n).map fun q => backlog (s.node 5 q).frames).sum

/-- A mode in which credit toward a port is issued: none in SAFE (R256); in STANDBY only PTP frames pass, and those of network and
management ports (Table 03.3). -/
def State.creditMode (s : State) (port : Nat) : Bool :=
  s.serving || (s.dev.mode == .standby && decide (48 ≤ port) && port != 72)

/-- CREDIT_ISSUE (R257, R259, R260): none toward a port that is down (R247), and none from the odd port of a 400GbE pair (R252). -/
def State.creditIssue (s : State) (port : Nat) : State :=
  if !s.creditMode port || (s.hold' port).down then s
  else if port < 48 then
    if s.subBytes port + s.outstanding port < s.fld (Reg.almPonCredit port) 23 0 * 1024 then
      match s.topRequest port (fun _ => true) with
      | some r => s.issue (port * 8 + r.cls) r
      | none => s
    else s
  else if port < 72 then
    let m := port - 48
    if !s.pairOdd m ∧ s.rootOk (96 + m) ∧ s.stagingRoom port then
      let q := s.settle.select (fun i => !(s.openClasses m i).isEmpty) 4 1 (96 + m)
      match q.1 with
      | none => q.2
      | some path =>
        let l5 := path.getLastD 0
        let rs := (q.2.openClasses m l5).flatMap fun c => q.2.requests port c
        match q.2.nextSrc (1024 + l5) rs with
        | some r => ((q.2.chargePath (96 + m) q.2.creditBytes path).issue (1024 + l5) r).settle
        | none => q.2
    else s
  else if s.stagingRoom port then
    match s.topRequest port (fun c => s.classRoom port c) with
    | some r => s.issue (port * 8 + r.cls) r
    | none => s
  else s

/-- CREDIT_ISSUE (R257). -/
def execCreditIssue (port : Fin 75) (s : State) : Host.Outcome State Fault Refusal := .next (s.creditIssue port.val)

/-! ### Node, profile and policer access (R252, R253, R263, R264) -/

/-- Nodes of a level (Table 12.1). -/
def levelNodes : Nat → Nat
  | 1 => 120
  | 2 => 4096
  | 3 => 65536
  | 4 => 131072
  | 5 => 524288
  | _ => 0

/-- A write of ALM_NODE_SEL (Table 12.7): WRITE applies the settings and a changed profile resets the node's buckets; READ
loads every register. -/
def State.nodeSelWrite (s : State) (v : Word) : State :=
  let s1 := s.wrTyped Reg.almNodeSel v
  let level := Machine.fld v 22 20
  let idx := Machine.fld v 18 0
  if levelNodes level ≤ idx then s1
  else
    let s2 :=
      if Machine.bit v 31 then
        let x := s1.node level idx
        let c1 := s1.rd Reg.almNodeCfg1
        let s3 := s1.setNode level idx { x with cfg0 := s1.rd Reg.almNodeCfg0, cfg1 := c1 }
        (if Machine.fld c1 29 16 = Machine.fld x.cfg1 29 16 then s3 else s3.resetNode level idx).settle
      else s1
    if Machine.bit v 30 then
      let x := s2.node level idx
      let p := s2.shaper x
      let b := x.max.refill (rateOf (profWord p 0)) (burstOf (profWord p 1)) s2.nowNs
      let rg := (s2.parentRange level idx).getD (0, 0)
      (((((s2.wr Reg.almNodeCfg0 x.cfg0).wr Reg.almNodeCfg1 x.cfg1).wrNat Reg.almNodeTokens
        (unsign 32 (b.tok / (tokUnit : Int)))).wrNat Reg.almNodeRangeLo rg.1).wrNat Reg.almNodeRangeHi rg.2).wrNat
        Reg.almNodeAvg x.avg
    else s2

/-- NODE_WRITE (R253). -/
def execNodeWrite (val : Word) (s : State) : Host.Outcome State Fault Refusal := .next (s.nodeSelWrite val)

/-- NODE_READ (R253). -/
def execNodeRead (val : Word) (s : State) : Host.Outcome State Fault Refusal := .next (s.nodeSelWrite val)

/-- Profiles of a kind per bank (Table 12.6). -/
def profCount : Nat → Nat
  | 0 => 16384
  | 1 => 8192
  | 2 => 256
  | _ => 0

/-- Policer `i`. -/
def State.policer (s : State) (i : Nat) : Policer := s.alm.pol.get (fun _ => s.alm.blankPol) i

/-- Replace policer `i`. -/
def State.setPolicer (s : State) (i : Nat) (x : Policer) : State :=
  { s with alm.pol := s.alm.pol.set (fun _ => s.alm.blankPol) i x }

/-- The policer profile of a policer in the active bank. -/
def State.polProfile (s : State) (x : Policer) : List Word := s.profile s.almBank 1 (Machine.fld x.cfg 12 0)

/-- A policer with its buckets reset (R263): zero at basic level, by FILL_ON_CHANGE at expert level. -/
def State.polFresh (s : State) (x : Policer) : Policer :=
  let p := s.polProfile x
  let fill := s.almExpert && Machine.bit (profWord p 4) 31
  { x with c := s.freshBucket fill (profWord p 1), e := s.freshBucket fill (profWord p 3) }

/-- The buckets of a policer are reset (R263). -/
def State.resetPolicer (s : State) (i : Nat) : State := s.setPolicer i (s.polFresh (s.policer i))

/-- The buckets of every policer that holds its reset settings are reset (R263). -/
def State.resetBlankPol (s : State) : State :=
  let b := s.polFresh s.alm.blankPol
  { s with alm.blankPol := b, alm.pol := s.alm.pol.filter fun e => e.2 != b }

/-- The buckets of every policer are reset. -/
def State.resetPolicers (s : State) : State :=
  s.resetBlankPol.each (s.alm.pol.map Prod.fst) fun i s => s.resetPolicer i

/-- Every bucket bound to a profile is reset (R263), profile 0's unlisted nodes and policers among them. -/
def State.resetBound (s : State) (kind idx : Nat) : State :=
  if kind = 0 then
    (if idx = 0 then s.resetBlank else s).each
      ((s.alm.nodes.filter fun e => Machine.fld e.2.cfg1 29 16 == idx).map Prod.fst) fun k s =>
        s.resetNode (k / 524288) (k % 524288)
  else if kind = 1 then
    (if idx = 0 then s.resetBlankPol else s).each
      ((s.alm.pol.filter fun e => Machine.fld e.2.cfg 12 0 == idx).map Prod.fst) fun i s => s.resetPolicer i
  else s

/-- The CHANGED flag of a profile in a bank (R264). -/
def State.isChanged (s : State) (key : Nat) : Bool := s.alm.changed.get (fun _ => false) key

/-- The ten words of ALM_PROF_DATA. -/
def State.profData (s : State) : List Word := (List.range 10).map fun i => s.rd (Reg.almProfData i)

/-- A write of ALM_PROF_SEL (Tables 12.5 and 12.6): WRITE stores the image whole; in the active bank it resets bound
buckets, in the inactive bank it sets CHANGED; READ loads it. -/
def State.profSelWrite (s : State) (v : Word) : State :=
  let s1 := s.wrTyped Reg.almProfSel v
  let bank := Machine.fld v 29 29
  let kind := Machine.fld v 25 24
  let idx := Machine.fld v 13 0
  if profCount kind ≤ idx then s1
  else
    let key := profKey bank kind idx
    let s2 :=
      if Machine.bit v 31 then
        let s3 := { s1 with alm.prof := s1.alm.prof.set profReset key s1.profData }
        if bank = s3.almBank then s3.resetBound kind idx
        else if kind ≤ 1 then { s3 with alm.changed := s3.alm.changed.set (fun _ => false) key true }
        else s3
      else s1
    if Machine.bit v 30 then
      (s2.wrWords (Reg.almProfData 0) (s2.profile bank kind idx)).setBit Reg.almProfSel 28 (s2.isChanged key)
    else s2

/-- PROFILE_WRITE (R263, R264). -/
def execProfileWrite (val : Word) (s : State) : Host.Outcome State Fault Refusal := .next (s.profSelWrite val)

/-- PROFILE_READ (R264). -/
def execProfileRead (val : Word) (s : State) : Host.Outcome State Fault Refusal := .next (s.profSelWrite val)

/-- A write of ALM_POL_SEL (Table 12.8): WRITE applies the configuration, and a changed profile resets the policer; READ
loads it with its tokens. -/
def State.polSelWrite (s : State) (v : Word) : State :=
  let s1 := s.wrTyped Reg.almPolSel v
  let i := Machine.fld v 17 0
  let s2 :=
    if Machine.bit v 31 then
      let x := s1.policer i
      let c := s1.rd Reg.almPolCfg
      let s3 := s1.setPolicer i { x with cfg := c }
      if Machine.fld c 12 0 = Machine.fld x.cfg 12 0 then s3 else s3.resetPolicer i
    else s1
  if Machine.bit v 30 then
    let x := s2.policer i
    let p := s2.polProfile x
    let tc := x.c.refill (rateOf (profWord p 0)) (burstOf (profWord p 1)) s2.nowNs
    let te := x.e.refill (rateOf (profWord p 2)) (burstOf (profWord p 3)) s2.nowNs
    ((s2.wr Reg.almPolCfg x.cfg).wrNat Reg.almPolTokC (tc.tok.toNat / tokUnit)).wrNat Reg.almPolTokE (te.tok.toNat / tokUnit)
  else s2

/-- POLICER_WRITE (R263). -/
def execPolicerWrite (val : Word) (s : State) : Host.Outcome State Fault Refusal := .next (s.polSelWrite val)

/-- POLICER_READ (R265). -/
def execPolicerRead (val : Word) (s : State) : Host.Outcome State Fault Refusal := .next (s.polSelWrite val)

/-- Policer `i` colours a frame of `len` bytes (R265): the colour, whether RED_DROP drops it, the state. A policer that is
not enabled does nothing. -/
def State.police (s : State) (i len colour : Nat) : Option (Nat × Bool) × State :=
  let x := s.policer i
  if !Machine.bit x.cfg 31 then (none, s)
  else
    let p := s.polProfile x
    let w4 := profWord p 4
    let b : Int := ((len : Int) + profAdj p) * tokUnit
    let tc := x.c.refill (rateOf (profWord p 0)) (burstOf (profWord p 1)) s.nowNs
    let te := x.e.refill (rateOf (profWord p 2)) (burstOf (profWord p 3)) s.nowNs
    let inp := if Machine.bit w4 29 then colour else 0
    let sub (k : Bucket) : Bucket := { k with tok := k.tok - b }
    let r : Nat × Bucket × Bucket :=
      if !Machine.bit w4 30 then
        if inp = 2 ∨ te.tok < b then (2, tc, te)
        else if inp = 1 ∨ tc.tok < b then (1, tc, sub te)
        else (0, sub tc, sub te)
      else if inp = 0 ∧ b ≤ tc.tok then (0, sub tc, te)
      else if inp ≠ 2 ∧ b ≤ te.tok then (1, tc, sub te)
      else (2, tc, te)
    let red := r.1 == 2 && Machine.bit w4 28
    let s1 := (s.setPolicer i { x with c := r.2.1, e := r.2.2 }).cntAdd (3145728 + 3 * i + r.1) len
    (some (r.1, red), if red then s1.bump Reg.almPolRedDrop else s1)

/-- The switch point of ALM_COMMIT (R264): every bucket bound to a profile CHANGED in the newly active bank is reset, and
those flags clear. -/
def State.almSwitch (s : State) : State :=
  if s.bit Reg.almCommit 30 then
    let s1 := s.bankSwitch Reg.almCommit (s.fld Reg.almCommit 1 1)
    let ks := (s1.alm.changed.filter fun e => e.2 && e.1 / 65536 == s1.almBank).map Prod.fst
    let s2 := s1.each ks fun k s => s.resetBound (k / 16384 % 4) (k % 16384)
    { s2 with alm.changed := s2.alm.changed.filter fun e => e.1 / 65536 != s1.almBank }
  else s

/-- A request to switch the Almanac bank, by GO or waypoint action 3; the switch point is the same clock (R39). -/
def State.almRequest (s : State) (target : Nat) : State := (s.bankRequest Reg.almCommit target).almSwitch

/-- A write of ALM_COMMIT. -/
def State.almCommitWrite (s : State) (v : Word) : State :=
  let s1 := s.wrTyped Reg.almCommit v
  if Machine.bit v 31 && !s.wpSame 3 then s1.almRequest (Machine.fld v 0 0) else s1

/-- ALM_COMMIT_GO (R264). -/
def execAlmCommitGo (val : Word) (s : State) : Host.Outcome State Fault Refusal := .next (s.almCommitWrite val)

end Sys2Proof.Machine
end

