-- ==== Sys2Proof/Machine/Observe.lean ====
section
/-!
DEFINITION. Machine/Observe.lean: the event ring, MSI-X, counter memory, the Logbook, threshold counters, slot
accounting and samplers (chapter 18).
-/
namespace Sys2Proof.Machine

/-! ### The event ring (R358 to R360) -/

/-- Log2 of the records of the event ring; other values than 6 to 16 disable it (Table 18.7). -/
def State.evtRingBits (s : State) : Option Nat :=
  let n := (s.rd Reg.evtRingSize).toNat
  if 6 ≤ n ∧ n ≤ 16 then some n else none

/-- The 32 bytes of a record (Table 18.2). -/
def recordBytes (r : EvRec) (phase : Bool) : List Byte :=
  leBytes 2 r.leaf ++ leBytes 1 (ofBool phase * 128 + ofBool r.fwd * 64) ++ leBytes 1 (r.view % 16) ++
  leBytes 4 r.ns32.toNat ++ [r.subns] ++ leBytes 2 (r.src % 1024) ++ leBytes 1 0 ++ leBytes 4 r.seq.toNat ++
  r.words.flatMap fun w => leBytes 4 w.toNat

/-- COAL_COUNT in force: 1 at basic level, 0 acts as 1 (R360, Table 18.7). -/
def State.coalCount (s : State) : Nat :=
  if s.bit Reg.evtCtrl 31 then max 1 (s.fld Reg.evtRingCfg 23 16) else 1

/-- COAL_US in force: 0 at basic level (R360). -/
def State.coalUs (s : State) : Nat := if s.bit Reg.evtCtrl 31 then s.fld Reg.evtRingCfg 15 0 else 0

/-- The ring requests its vector when COAL_COUNT records wait or COAL_US has passed since the first (R360). -/
def State.coalesce (s : State) : State :=
  if s.bit Reg.evtRingCfg 31 then
    match s.obs.firstAt with
    | none => s
    | some f =>
      if s.coalCount ≤ s.obs.since ∨ f.toNat + s.coalUs * 1000 * nsUnit ≤ s.raw.toNat then
        { s with obs.ringReq := true }
      else s
  else s

/-- The ring is full when HEAD + 1 = CONS modulo its size (R359). -/
def State.evtRingFull (s : State) (n : Nat) : Bool :=
  ((s.rd Reg.evtRingHead).toNat + 1) % 2 ^ n == (s.rd Reg.evtRingCons).toNat % 2 ^ n

/-- EVENT_RECORD_DRAIN (R358, R359, R61): the oldest record goes to the ring at HEAD in one posted write when PERST_N is
high, the ring is enabled and there is room; PHASE toggles at each wrap. -/
def State.drain (s : State) : State :=
  match s.obs.buf, s.evtRingBits with
  | r :: rs, some n =>
    if s.dev.perstLow || s.evtRingFull n then s
    else
      let head := (s.rd Reg.evtRingHead).toNat
      let base := s.rdWords Reg.evtRingBaseLo 2
      let next := (head + 1) % 2 ^ n
      let s1 := s.emit (.hostWrite (BitVec.ofNat 64 (base + 32 * head)) (recordBytes r s.obs.phase))
      let s2 := s1.wrNat Reg.evtRingHead next
      State.coalesce { s2 with
        obs.buf := rs,
        obs.phase := if next = 0 then !s.obs.phase else s.obs.phase,
        obs.since := s.obs.since + 1,
        obs.firstAt := match s.obs.firstAt with | some f => some f | none => some s.raw }
  | _, _ => s

/-- EVENT_RECORD_DRAIN (R358). -/
def execEventRecordDrain (s : State) : Host.Outcome State Fault Refusal := .next s.drain

/-- EVENT_STATUS_CLEAR: a W1C write of EVT_STATUS (R356, R9). -/
def execEventStatusClear (g : Fin 40) (val : Word) (s : State) : Host.Outcome State Fault Refusal :=
  .next (s.wrTyped (Reg.evtStatus g.val) val)

/-- EVENT_RING_CONS_WRITE: software reports consumed records (R359). -/
def execEventRingConsWrite (val : Word) (s : State) : Host.Outcome State Fault Refusal :=
  .next (s.wrTyped Reg.evtRingCons val)

/-- EVENT_COALESCE_TIMER (R360): time passes, and the ring requests its vector when COAL_US has passed. -/
def execEventCoalesceTimer (at' : Raw) (s : State) : Host.Outcome State Fault Refusal :=
  .next (s.advance at').coalesce

/-! ### MSI-X (R361) -/

/-- MSIX_SEND: PENDING = 1 and SENT = 0 sends the vector's message, unless its table mask holds it back or the HELM link
is down; a message of the ring's vector starts a new coalescing count. -/
def State.msixSend (s : State) (v : Nat) (masked : Bool) : State :=
  if s.vecPending v && !s.obs.sent.getLsbD v && !masked && !s.dev.perstLow then
    let s1 := { s.emit (.msix v) with obs.sent := s.obs.sent ||| BitVec.ofNat 64 (2 ^ v) }
    if s.obs.ringReq && s.fld Reg.evtRingCfg 29 24 == v then
      { s1 with obs.ringReq := false, obs.since := 0, obs.firstAt := none }
    else s1
  else s

/-- MSIX_SEND (R361). -/
def execMsixSend (v : Fin 64) (masked : Bool) (s : State) : Host.Outcome State Fault Refusal :=
  .next (s.msixSend v.val masked)

/-- A write of EVT_VEC_ACK with GO clears SENT of its vector (R361). -/
def State.vecAck (s : State) (v : Word) : State :=
  if Machine.bit v 31 then
    { s with obs.sent := s.obs.sent &&& ~~~(BitVec.ofNat 64 (2 ^ (Machine.fld v 5 0))) }
  else s

/-- VECTOR_ACK (R361). -/
def execVectorAck (val : Word) (s : State) : Host.Outcome State Fault Refusal := .next (s.vecAck val)

/-! ### Counter memory (R362, R363) -/

/-- A write of OBS_CNT_SEL: READ loads the pair into OBS_CNT_DATA, and with CLEAR zeroes it in the same clock. -/
def State.cntSelWrite (s : State) (v : Word) : State :=
  let s1 := s.wrTyped Reg.obsCntSel v
  if Machine.bit v 31 then
    let p := Machine.fld v 20 0
    let w0 := s1.cntGet (2 * p)
    let w1 := s1.cntGet (2 * p + 1)
    let s2 := s1.wrWords (Reg.obsCntData 0) (toWords 2 w0.toNat ++ toWords 2 w1.toNat)
    if Machine.bit v 30 then (s2.cntSet (2 * p) 0).cntSet (2 * p + 1) 0 else s2
  else s1

/-- COUNTER_PAIR_READ (R363). -/
def execCounterPairRead (val : Word) (s : State) : Host.Outcome State Fault Refusal := .next (s.cntSelWrite val)

/-- COUNTER_PAIR_READ_CLEAR (R363). -/
def execCounterPairReadClear (val : Word) (s : State) : Host.Outcome State Fault Refusal := .next (s.cntSelWrite val)

/-! ### Logbook (R364) -/

/-- The first and the past-the-last counter word of region `r` (Table 18.4). -/
def regionWords : Nat → Nat × Nat
  | 0 => (0, 524288)
  | 1 => (524288, 1048576)
  | 2 => (1048576, 2097152)
  | 3 => (2097152, 3145728)
  | 4 => (3145728, 3932160)
  | 5 => (3932160, 4194304)
  | _ => (0, 0)

/-- A counter word lies in a selected region. -/
def inRegions (regions i : Nat) : Bool :=
  (List.range 6).any fun r =>
    regions / 2 ^ r % 2 == 1 && (regionWords r).1 ≤ i && i < (regionWords r).2

/-- Bytes of the selected regions. -/
def regionBytes (regions : Nat) : Nat :=
  ((List.range 6).map fun r =>
    if regions / 2 ^ r % 2 = 1 then 8 * ((regionWords r).2 - (regionWords r).1) else 0).sum

/-- A ring of log2 size in 6 to 16 has a posted descriptor: TAIL has passed HEAD (R44). -/
def State.posted (s : State) (size head tail : Nat) : Nat :=
  let n := (s.rd size).toNat
  if 6 ≤ n ∧ n ≤ 16 then ((s.rd tail).toNat + 2 ^ n - (s.rd head).toNat % 2 ^ n) % 2 ^ n else 0

/-- PERIOD_MS; values below 1 act as 1 (R364). -/
def State.logPeriod (s : State) : Nat := max 1 (s.fld Reg.obsLogCtrl 15 0)

/-- The modes in which the Logbook runs (R364). -/
def logMode : Mode → Bool
  | .active | .standby | .maintenance | .safe => true
  | _ => false

/-- LOGBOOK_EXPORT (R364): at a raw-counter multiple of PERIOD_MS an export starts, or is skipped for overrun or for
lack of a buffer, which HELM cannot read while PERST_N is low (R61). -/
def State.logExport (s : State) : State :=
  if s.bit Reg.obsLogCtrl 31 && logMode s.dev.mode && s.raw.toNat % (s.logPeriod * 1000000 * nsUnit) == 0 then
    if s.obs.log.isSome then (s.bump Reg.obsLogOverrun).event 674 0
    else if s.dev.perstLow || s.posted Reg.obsLogRingSize Reg.obsLogRingHead Reg.obsLogRingTail == 0 then (s.bump Reg.obsLogNobuf).event 675 0
    else { s with obs.log := some ⟨s.raw, s.fld Reg.obsLogCtrl 29 24, s.bit Reg.obsLogCtrl 30⟩ }
  else s

/-- LOGBOOK_EXPORT (R364). -/
def execLogbookExport (at' : Raw) (s : State) : Host.Outcome State Fault Refusal := .next (s.advance at').logExport

/-- The 64-byte header of an export (R364). -/
def State.logHeader (s : State) (l : LogRun) (seq : Word) : List Byte :=
  leBytes 4 seq.toNat ++ leBytes 4 l.regions ++ fullFormat (s.viewTime s.evtView l.start) ++
  fullFormat (s.viewTime s.evtView s.raw) ++
  leBytes 4 (64 + regionBytes l.regions) ++ leBytes 28 0

/-- LOGBOOK_EXPORT_COMPLETE (R364): header and counters go to the buffer `buf` that the descriptor at HEAD posts, selected counters
clear where CLEAR was set, the descriptor is written back with OWN = 0 after the data, leaf 673 is set. DESIGN CHOICE: the
counters are read as they stand when the export completes (log 128). -/
def State.logComplete (s : State) (buf : HostBuf) : State :=
  match s.obs.log with
  | none => s
  | some l =>
    let desc := s.rdWords Reg.obsLogRingBaseLo 2 + 32 * (s.rd Reg.obsLogRingHead).toNat
    let seq := s.rd Reg.obsLogSeq + 1
    let sel := s.obs.cnt.listed fun i _ => inRegions l.regions i
    let s1 := (s.emit (.logbook buf.addr (s.logHeader l seq) sel)).emit
      (.hostWrite (BitVec.ofNat 64 desc) (leBytes 8 buf.addr.toNat ++ leBytes 24 0))
    let s2 := if l.clear then { s1 with obs.cnt := s1.obs.cnt.keep fun i => !inRegions l.regions i } else s1
    let n := (s2.rd Reg.obsLogRingSize).toNat
    let s3 := (s2.wr Reg.obsLogSeq seq).wrNat Reg.obsLogRingHead (((s2.rd Reg.obsLogRingHead).toNat + 1) % 2 ^ n)
    ({ s3 with obs.log := none } : State).event 673 0

/-- LOGBOOK_EXPORT_COMPLETE (R364). -/
def execLogbookExportComplete (at' : Raw) (buf : HostBuf) (s : State) : Host.Outcome State Fault Refusal :=
  .next ((s.advance at').logComplete buf)

/-- LOGBOOK_TAIL_WRITE (R364). -/
def execLogbookTailWrite (val : Word) (s : State) : Host.Outcome State Fault Refusal :=
  .next (s.wrTyped Reg.obsLogRingTail val)

/-! ### Threshold counters, slots, samplers (R365 to R367) -/

/-- A write of OBS_THR_CFG or OBS_THR_LEVEL zeroes the count (R365). -/
def State.thrWrite (s : State) (k : Nat) (level : Bool) (v : Word) : State :=
  (s.wrTyped (if level then Reg.obsThrLevel k else Reg.obsThrCfg k) v).wrWords (Reg.obsThrCountLo k) [0, 0]

/-- THRESHOLD_CONFIG_WRITE (R365). -/
def execThresholdConfigWrite (k : Fin 16) (level : Bool) (val : Word) (s : State) : Host.Outcome State Fault Refusal :=
  .next (s.thrWrite k.val level val)

/-- OBS_SLOT_CLEAR zeroes a pipeline's counters; slots still in flight stay in PENDING (R366). -/
def Slots.clear (x : Slots) : Slots :=
  { clocks := x.pend, retired := 0, wasted := 0, front := 0, back := 0, pend := x.pend, ahead := x.ahead }

/-- A write of OBS_SLOT_CLEAR: bit p clears pipeline p. -/
def State.slotClear (s : State) (v : Word) : State :=
  s.each (List.range 9) fun p s =>
    if Machine.bit v p then { s with obs.slots := s.obs.slots.upd (fun _ => {}) p Slots.clear } else s

/-- SLOT_CLEAR (R366). -/
def execSlotClear (val : Word) (s : State) : Host.Outcome State Fault Refusal := .next (s.slotClear val)

/-- A used slot of pipeline `p` ends: RETIRED, or WASTED for a recirculation or a drop on the last pass (R366). -/
def State.slotUsed (s : State) (p : Nat) (wasted : Bool) : State :=
  { s with obs.slots := s.obs.slots.upd (fun _ => {}) p fun x =>
      { x with
        clocks := x.clocks + 1, ahead := x.ahead + 1,
        retired := if wasted then x.retired else x.retired + 1,
        wasted := if wasted then x.wasted + 1 else x.wasted } }

/-- The eleven words of OBS_SLOT_[p]: CLOCKS, RETIRED, WASTED, FRONT_STARVED, BACK_STARVED, PENDING (Table 18.8). -/
def slotWords (x : Slots) : List Word :=
  toWords 2 x.clocks ++ toWords 2 x.retired ++ toWords 2 x.wasted ++ toWords 2 x.front ++ toWords 2 x.back ++
  toWords 1 (x.pend % 65536)

/-- The interval to the next trigger of sampler `k`: N, or with RANDOM a draw from 1 to 2N − 1 (R367). -/
def State.sampleGap (s : State) (k : Nat) : Nat × State :=
  let n := max 1 (s.fld (Reg.obsSampleN k) 23 0)
  if s.bit (Reg.obsSampleCfg k) 30 then
    let (i, s1) := s.draw
    (1 + Config.freeNat i % (2 * n - 1), s1)
  else (n, s)

/-- The sampler's filter: EN, and its ingress port or ANY_PORT; samplers run in ACTIVE and MAINTENANCE (R367). -/
def State.sampleMatch (s : State) (k port : Nat) : Bool :=
  s.serving && s.bit (Reg.obsSampleCfg k) 31 &&
    (s.bit (Reg.obsSampleCfg k) 29 || s.fld (Reg.obsSampleCfg k) 6 0 == port)

/-- Slots of pipeline `p` that have passed. -/
def State.slotNo (s : State) (p : Nat) : Nat := (s.obs.slots.get (fun _ => {}) p).clocks

/-- A pass takes the present slot of a pipeline (R367). -/
def State.slotHolds (s : State) (p : Nat) (f : Frame) (pass : Nat) : State :=
  { s with obs.inSlot := s.obs.inSlot.set (fun _ => none) p (some (f, pass, s.slotNo p)) }

/-- SAMPLER_TRIGGER (R367): sampler `k` counts a matching frame whose first pass starts on pipeline `p`, and triggers on
every N-th. -/
def State.sampleCount (s : State) (p port k : Nat) : State :=
  if s.sampleMatch k port then
    let (gap, s0) := s.sampleGap k
    let x := s.obs.samplers.get (fun _ => {}) k
    let left := if x.left = 0 then gap else x.left
    let s' := if x.left = 0 then s0 else s
    let x' := if left ≤ 1 then { x with left := 0, trig := some (p, s.slotNo p) } else { x with left := left - 1 }
    { s' with obs.samplers := s'.obs.samplers.set (fun _ => {}) k x' }
  else s

/-- Slots after the trigger in which a sampler may capture (R367). -/
def skidMax : Nat := 24

/-- A triggered sampler ends without a capture: dropped, counted, announced (R367). -/
def State.sampleDrop (s : State) (k : Nat) : State :=
  let x := s.obs.samplers.get (fun _ => {}) k
  let s1 := { s with obs.samplers := s.obs.samplers.set (fun _ => {}) k { x with trig := none } }
  (s1.bump (Reg.obsSampleDrop k)).event (680 + k) k

/-- The sample of a frame: its first 128 bytes and metadata are punted on RING with the skid, sampler, pipeline, pass and sequence. -/
def State.sampleTake (s : State) (k p skid pass : Nat) (f : Frame) : State :=
  let x := s.obs.samplers.get (fun _ => {}) k
  let extra := leBytes 1 skid ++ leBytes 1 k ++ leBytes 1 p ++ leBytes 1 pass ++ leBytes 4 x.seq.toNat
  let q := Punt.mk (s.fld (Reg.obsSampleCfg k) 21 16) { f with bytes := f.bytes.take 128 } (0x30 + k) extra
  ({ s with
    dev.punts := s.dev.punts ++ [q],
    obs.samplers := s.obs.samplers.set (fun _ => {}) k { x with trig := none, seq := x.seq + 1 } } : State).wrap (Reg.obsSampleCount k)

/-- SAMPLE_CAPTURE (R367): the capture path of a triggered sampler is free in the present slot of its pipeline, whose frame it takes,
or stays busy; the sample is dropped when no slot up to skid 24 had it free. -/
def State.sampleCapture (s : State) (k : Nat) (free : Bool) : State :=
  match (s.obs.samplers.get (fun _ => {}) k).trig with
  | none => s
  | some (p, at') =>
    match free, s.obs.inSlot.get (fun _ => none) p with
    | true, some (f, pass, slot) => if slot - at' ≤ skidMax then s.sampleTake k p (slot - at') pass f else s.sampleDrop k
    | _, _ => if skidMax < s.slotNo p - at' then s.sampleDrop k else s

/-- SAMPLE_CAPTURE (R367). -/
def execSampleCapture (k : Fin 8) (free : Bool) (s : State) : Host.Outcome State Fault Refusal :=
  .next (s.sampleCapture k.val free)

end Sys2Proof.Machine
end

