-- ==== Sys2Proof/Machine/Chrono.lean ====
section
/-!
DEFINITION. Machine/Chrono.lean: views, stamps, snapshots, transmit time-stamp queues, SyncE, 1PPS and ToD, GPIO pins and
waypoint arming (chapter 04). The action tick itself is in Machine/Waypoint.lean, after the blocks it acts on.
-/
namespace Sys2Proof.Machine

/-! ### Views (R73, R74, R80) -/

/-- Keep the view's parameters before a commit, with the raw value of the commit (R80). -/
def State.keepView (s : State) (v : Nat) : State :=
  { s with chrono.prev :=
      s.chrono.prev.set (fun _ => {}) v ⟨s.viewOffset v, s.viewRate v, s.viewEpoch v, s.raw⟩ }

/-- TIME_VIEW_GEN counts commits modulo 65,536 (Table 04.1). -/
def State.bumpGen (s : State) (v : Nat) : State := s.setFld (Reg.timeViewGen v) 15 0 (s.fld (Reg.timeViewGen v) 15 0 + 1)

/-- OFFSET takes a value modulo 2^96. -/
def State.setOffset (s : State) (v : Nat) (x : BitVec 96) : State := s.wrWords (Reg.timeViewOffsetW0 v) (toWords 3 x.toNat)

/-- RATE commit (R73): the old rate term is folded into OFFSET, RATE_EPOCH takes the raw value, RATE the new value. -/
def State.rateCommit (s : State) (v : Nat) (hi : Word) : State :=
  let fold := rateTerm (s.viewRate v) s.raw (s.viewEpoch v)
  let lo := s.holdOf (Reg.timeViewRateLo v)
  let s1 := (s.keepView v).setOffset v (s.viewOffset v + BitVec.ofInt 96 fold)
  let s2 := s1.wrWords (Reg.timeViewEpochW0 v) (toWords 3 s.raw.toNat)
  ((s2.wr (Reg.timeViewRateLo v) lo).setFld (Reg.timeViewRateHi v) 7 0 (Machine.fld hi 7 0)).bumpGen v

/-- VIEW_RATE_COMMIT (R73). -/
def execViewRateCommit (v : Fin 16) (hi : Word) (s : State) : Host.Outcome State Fault Refusal :=
  .next (s.rateCommit v.val hi)

/-- OFFSET commit (R74): OFFSET takes the written top word and the held lower words. -/
def State.offsetCommit (s : State) (v : Nat) (w2 : Word) : State :=
  ((s.keepView v).wrWords (Reg.timeViewOffsetW0 v)
    [s.holdOf (Reg.timeViewOffsetW0 v), s.holdOf (Reg.timeViewOffsetW1 v), w2]).bumpGen v

/-- VIEW_OFFSET_COMMIT (R74). -/
def execViewOffsetCommit (v : Fin 16) (w2 : Word) (s : State) : Host.Outcome State Fault Refusal :=
  .next (s.offsetCommit v.val w2)

/-- STEP commit (R74): the signed 64-bit step is added to OFFSET. -/
def State.stepCommit (s : State) (v : Nat) (hi : Word) : State :=
  let n := (s.holdOf (Reg.timeViewStepLo v)).toNat + 2 ^ 32 * hi.toNat
  ((s.keepView v).setOffset v (s.viewOffset v + BitVec.ofInt 96 (signed 64 n))).bumpGen v

/-- VIEW_STEP_COMMIT (R74). -/
def execViewStepCommit (v : Fin 16) (hi : Word) (s : State) : Host.Outcome State Fault Refusal :=
  .next (s.stepCommit v.val hi)

/-! ### Stamps (R77 to R81) -/

/-- DEFAULT_VIEW (Table 04.2). -/
def State.defaultView (s : State) : Nat := s.fld Reg.timeCtrl 3 0

/-- The view of a stamp of device port `i` (R77): DEFAULT_VIEW at basic level and for port 72; at expert level the domain
map for a PTP event message where the port and the entry allow it, else the port's VIEW. -/
def State.stampView (s : State) (i : Nat) (domain : Option Byte) : Nat :=
  if !s.bit Reg.timeCtrl 31 || i == 72 then s.defaultView
  else
    match domain with
    | some d =>
      if s.bit (Reg.timePortCfg i) 8 && s.bit (Reg.timePtpDomainMap d.toNat) 8 then s.fld (Reg.timePtpDomainMap d.toNat) 3 0
      else s.fld (Reg.timePortCfg i) 3 0
    | none => s.fld (Reg.timePortCfg i) 3 0

/-- The calibration adjustment of a port in 2^-16 ns, at expert level: RX_ADJ or TX_ADJ in units of 1/16 ns (R79). -/
def State.portAdj (s : State) (i : Nat) (rx : Bool) : Int :=
  if s.bit Reg.timeCtrl 31 && i != 72 then
    signed 16 (if rx then s.fld (Reg.timePortCal i) 31 16 else s.fld (Reg.timePortCal i) 15 0) * 4096
  else 0

/-- The raw value that a capture marks at the medium boundary (R79): receive minus, transmit plus the built-in latency
(in 2^-16 ns) and the adjustment; port 72 has neither (Table 04.3). -/
def State.boundaryRaw (s : State) (i : Nat) (rx : Bool) (cap : Raw) (latency : Nat) : Raw :=
  let c := captureRes cap
  let d : Int := if i = 72 then 0 else (latency : Int) + s.portAdj i rx
  if rx then c - BitVec.ofInt 96 d else c + BitVec.ofInt 96 d

/-- The time of view `v` at a boundary instant, under the parameters in force when it was captured (R80). -/
def State.captured (s : State) (v : Nat) (cap at' : Raw) : BitVec 96 :=
  let p := s.chrono.prev.get (fun _ => {}) v
  if cap.toNat < p.at'.toNat then viewTimeOf p.offset p.rate p.epoch at' else s.viewTime v at'

/-- The stamp of device port `i` for a captured raw value (R77 to R81): its view under the parameters in force at the
capture; a LEGACY port presents sub-ns 0 (R78). -/
def State.portStamp (s : State) (i : Nat) (rx : Bool) (cap : Raw) (latency : Nat) (domain : Option Byte) : Stamp :=
  let v := s.stampView i domain
  let st := stampOf v (s.captured v cap (s.boundaryRaw i rx cap latency))
  if i ≠ 72 ∧ s.bit (Reg.timePortCfg i) 4 then { st with subns := 0 } else st

/-- STAMP_CONVERSION (R80): the converted stamp leaves for its user. -/
def execStampConversion (port : Fin 75) (rx : Bool) (cap : Raw) (latency : Nat) (domain : Option Byte) (s : State) :
    Host.Outcome State Fault Refusal :=
  .next (s.emit (.stamp port.val (s.portStamp port.val rx cap latency domain)))

/-- TIME_SNAP_GO (R82): raw counter and view are captured in one clock, and the count increments. -/
def State.snapWrite (s : State) (v : Word) : State :=
  let s1 := s.wrTyped Reg.timeSnapCtrl v
  if Machine.bit v 31 then
    let t := s1.viewTime (Machine.fld v 3 0) s1.raw
    let s2 := ((s1.wrNat Reg.timeSnapSecLo (secOf t)).wrNat Reg.timeSnapSecHi (secOf t / 2 ^ 32)).wrNat Reg.timeSnapNs (nsOf t)
    let s3 := (s2.wrNat Reg.timeSnapFrac (fracOf t)).wr Reg.timeSnapNs32 (ns32Of t)
    (s3.wrWords Reg.timeSnapRawW0 (toWords 3 s1.raw.toNat)).wrap Reg.timeSnapCount
  else s1

/-- TIME_SNAP_GO (R82). -/
def execTimeSnapGo (val : Word) (s : State) : Host.Outcome State Fault Refusal := .next (s.snapWrite val)

/-! ### Transmit time-stamp queues (R84 to R87) -/

/-- Entries a queue holds (R86). -/
def txtsMax : Nat := 256

/-- Queue `q`. -/
def State.txts (s : State) (q : Nat) : List TxStamp := s.chrono.txts.get (fun _ => []) q

/-- A transmit stamp enters its queue, or is discarded, counted and announced when the queue is full (R86). -/
def State.txStamp (s : State) (q : Nat) (e : TxStamp) : State :=
  if (s.txts q).length < txtsMax then
    { s with chrono.txts := s.chrono.txts.set (fun _ => []) q (s.txts q ++ [e]) }
  else (s.bump (Reg.timeTxtsDrop q)).event (leafOf 11 q) q

/-- TRANSMIT_STAMP_RETURN (R86). -/
def execTransmitStampReturn (q : Fin 8) (tsId : BitVec 16) (port : Fin 75) (stamp : Stamp) (s : State) :
    Host.Outcome State Fault Refusal :=
  .next (s.txStamp q.val ⟨tsId, port.val, stamp⟩)

/-- TIME_TXTS_W0 of an entry (Table 04.5). -/
def txtsW0 (e : TxStamp) : Word :=
  BitVec.ofNat 32 (e.tsId.toNat * 2 ^ 16 + e.port % 256 * 2 ^ 8 + e.stamp.view % 16 * 2 ^ 4 + 1)

/-- A read of TIME_TXTS_W0 removes the oldest entry and captures it; an empty queue reads VALID = 0 and removes nothing
(R87). -/
def State.txtsRead (s : State) (q : Nat) : State :=
  match s.txts q with
  | [] => s.ret 0
  | e :: es =>
    let s1 := { s with chrono.txts := s.chrono.txts.set (fun _ => []) q es }
    ((s1.wr (Reg.timeTxtsW1 q) e.stamp.ns32).wrNat (Reg.timeTxtsW2 q) e.stamp.subns.toNat).ret (txtsW0 e)

/-- TXTS_READ (R87). -/
def execTxtsRead (q : Fin 8) (s : State) : Host.Outcome State Fault Refusal := .next (s.txtsRead q.val)

/-! ### SyncE, 1PPS, ToD (R91, R92) -/

/-- SYNCE_OUT `a` is driven with its clock: ENABLE, a frequency, and not held low (R91, Table 04.7). -/
def State.synceRuns (s : State) (a : Nat) : Bool :=
  s.bit (Reg.timeSynceCfg a) 16 && s.fld (Reg.timeSynceCfg a) 9 8 != 3 && !s.bit Reg.timeSynceStatus a

/-- SYNCE_SOURCE_LOSS (R91): with SQUELCH_EN the output is held low, its status bit set and its event raised. -/
def State.synceLoss (s : State) (a : Nat) : State :=
  if s.bit (Reg.timeSynceCfg a) 12 then
    (({ s with chrono.synceAt := s.chrono.synceAt.set (fun _ => 0) a s.raw } : State).setBit Reg.timeSynceStatus a true |>.emit
      (.synce a false)).event (leafOf 11 (8 + a)) a
  else s

/-- SYNCE_SOURCE_LOSS (R91). -/
def execSynceSourceLoss (a : Fin 2) (s : State) : Host.Outcome State Fault Refusal := .next (s.synceLoss a.val)

/-- SYNCE_RESUME (R91): the source has held lock for 100 ms since it was lost, and the output runs again. That its status bit clears then
is DEDUCED, log 118. -/
def State.synceResume (s : State) (a : Nat) : State :=
  if s.bit Reg.timeSynceStatus a && s.reached (s.chrono.synceAt.get (fun _ => 0) a + BitVec.ofNat 96 (100000000 * nsUnit)) then
    (s.setBit Reg.timeSynceStatus a false).emit (.synce a (s.bit (Reg.timeSynceCfg a) 16 && s.fld (Reg.timeSynceCfg a) 9 8 != 3))
  else s

/-- SYNCE_RESUME (R91). -/
def execSynceResume (a : Fin 2) (at' : Raw) (s : State) : Host.Outcome State Fault Refusal :=
  .next ((s.advance at').synceResume a.val)

/-- PPS_IN_EDGE (R92): a selected edge is captured in the configured view. TIME_PPS_IN_COUNT wraps modulo 2^32, where the manual states
neither wrap nor saturation: DESIGN CHOICE, log 120. -/
def State.ppsIn (s : State) (falling : Bool) (cap : Raw) : State :=
  if s.bit Reg.timePpsInCfg 0 && s.bit Reg.timePpsInCfg 1 == falling then
    let v := s.fld Reg.timePpsInCfg 7 4
    let t := s.viewTimeAt v (captureRes cap)
    (((s.wrNat Reg.timePpsInSecLo (secOf t)).wrNat Reg.timePpsInSecHi (secOf t / 2 ^ 32)).wrNat Reg.timePpsInNs (nsOf t)).wrap
      Reg.timePpsInCount
  else s

/-- PPS_IN_EDGE (R92). -/
def execPpsInEdge (falling : Bool) (cap : Raw) (s : State) : Host.Outcome State Fault Refusal :=
  .next (s.ppsIn falling cap)

/-- Bytes each ToD buffer holds (R92). -/
def todMax : Nat := 256

/-- TOD_IN_BYTE (R92): the byte enters the buffer, or is discarded, counted and announced (group 11, bit 11). -/
def State.todByte (s : State) (b : Byte) : State :=
  if s.chrono.todIn.length < todMax then { s with chrono.todIn := s.chrono.todIn ++ [b] }
  else (s.bump Reg.timeTodInDrop).event (leafOf 11 11) 0

/-- TOD_IN_BYTE (R92). -/
def execTodInByte (b : Byte) (s : State) : Host.Outcome State Fault Refusal := .next (s.todByte b)

/-- TOD_IN_READ: a read of TIME_TOD_IN_DATA removes the oldest byte (R92). -/
def State.todRead (s : State) : State :=
  match s.chrono.todIn with
  | [] => s.ret 0
  | b :: bs => ({ s with chrono.todIn := bs } : State).ret (BitVec.ofNat 32 (256 + b.toNat))

/-- TOD_IN_READ (R92). -/
def execTodInRead (s : State) : Host.Outcome State Fault Refusal := .next s.todRead

/-- Whole seconds of the TIME_OUT view, ADVANCE_NS ahead, at a raw value (R92). -/
def State.ppsSecond (s : State) (raw : Raw) : Nat :=
  (nsTotal (s.viewTime (s.fld Reg.timePpsOutCfg 7 4) raw) + s.fld Reg.timePpsOutCfg 31 16) / 1000000000

/-- PPS_OUT_PULSE (R92): a pulse starts at the tick at which the view, ADVANCE_NS ahead, enters a new second; WIDTH 0 gives
1 µs. Armed ToD bytes become due DELAY_US after it. -/
def State.ppsOut (s : State) : State :=
  if s.bit Reg.timePpsOutCfg 0 && s.ppsSecond s.raw != s.ppsSecond (s.raw - BitVec.ofNat 96 nsUnit) then
    let s1 := s.emit (.ppsPulse (max 1 (s.fld Reg.timePpsOutCfg 15 8)))
    if s.chrono.todArmed then
      { s1 with chrono.todArmed := false, chrono.todDue := some (s.raw + BitVec.ofNat 96 (s.fld Reg.timeTodOutCtrl 15 0 * 1000 * nsUnit)) }
    else s1
  else s

/-- PPS_OUT_PULSE (R92). -/
def execPpsOutPulse (at' : Raw) (s : State) : Host.Outcome State Fault Refusal := .next (s.advance at').ppsOut

/-- TOD_OUT_DATA_WRITE: the byte is appended; beyond 256 it is ignored (Table 04.8). -/
def State.todAppend (s : State) (v : Word) : State :=
  if s.chrono.todOut.length < todMax then
    { s with chrono.todOut := s.chrono.todOut ++ [BitVec.ofNat 8 v.toNat] } else s

/-- TOD_OUT_DATA_WRITE (R92). -/
def execTodOutDataWrite (val : Word) (s : State) : Host.Outcome State Fault Refusal := .next (s.todAppend val)

/-- A write of TIME_TOD_OUT_CTRL: SEND arms the buffered bytes for the next pulse (R92). -/
def State.todCtrl (s : State) (v : Word) : State :=
  let s1 := s.wrTyped Reg.timeTodOutCtrl v
  if Machine.bit v 31 then { s1 with chrono.todArmed := true } else s1

/-- TOD_OUT_SEND (R92). -/
def execTodOutSend (val : Word) (s : State) : Host.Outcome State Fault Refusal := .next (s.todCtrl val)

/-- TOD_OUT_TRANSMIT: DELAY_US after the pulse the bytes are sent once and the buffer empties (R92). Bytes appended since SEND are sent
too: DESIGN CHOICE, log 119. -/
def State.todTransmit (s : State) : State :=
  match s.chrono.todDue with
  | some t =>
    if s.reached t then { s.emit (.todBytes s.chrono.todOut) with chrono.todOut := [], chrono.todDue := none } else s
  | none => s

/-- TOD_OUT_TRANSMIT (R92). -/
def execTodOutTransmit (at' : Raw) (s : State) : Host.Outcome State Fault Refusal := .next (s.advance at').todTransmit

/-! ### REALIGN (R95) -/

/-- A write of TIME_PON_CFG: REALIGN is held for the next frame boundary while a port transmits, and does nothing otherwise
(R95). `tx`: a PON port transmits. -/
def State.ponCfgWrite (s : State) (v : Word) (tx : Bool) : State :=
  let s1 := s.wrTyped Reg.timePonCfg v
  if Machine.bit v 31 && tx then { s1 with chrono.realign := true } else s1

/-! ### GPIO (R102) -/

/-- The pulse of pin `k`: its end, while it runs. -/
def State.pulse (s : State) (k : Nat) : Option Raw := s.chrono.gpio.get (fun _ => none) k

/-- Start, restart or end a pin's pulse. -/
def State.setPulse (s : State) (k : Nat) (p : Option Raw) : State :=
  { s with chrono.gpio := s.chrono.gpio.set (fun _ => none) k p }

/-- LEVEL of a pin: idle, or active during a pulse; 0 while high-impedance (R102, Table 04.12). -/
def State.pinLevel (s : State) (k : Nat) : Bool :=
  s.bit (Reg.timeGpioCfg k) 0 && (s.bit (Reg.timeGpioCfg k) 1 != (s.pulse k).isSome)

/-- GPIO_PULSE (R102): action 6 on an enabled pin; a width of 0 drives no pulse and ends one that runs. Width in units of
16 ns, from the tick. -/
def State.gpioPulse (s : State) (k width : Nat) : State :=
  if s.bit (Reg.timeGpioCfg k) 0 then
    if width = 0 then s.setPulse k none
    else s.setPulse k (some (s.raw + BitVec.ofNat 96 (width * 16 * nsUnit)))
  else s

/-- GPIO_PULSE_END (R102): the pin returns to its idle level once the width has passed. -/
def State.pulseEnd (s : State) (k : Nat) : State :=
  match s.pulse k with
  | some e => if e.toNat ≤ s.raw.toNat then s.setPulse k none else s
  | none => s

/-- GPIO_PULSE_END (R102). -/
def execGpioPulseEnd (k : Fin 8) (at' : Raw) (s : State) : Host.Outcome State Fault Refusal :=
  .next ((s.advance at').pulseEnd k.val)

/-- A write of TIME_GPIO_CFG: a change of ENABLE or POLARITY ends a pulse in progress (R102). -/
def State.gpioWrite (s : State) (k : Nat) (v : Word) : State :=
  let s1 := s.wrTyped (Reg.timeGpioCfg k) v
  if s1.fld (Reg.timeGpioCfg k) 1 0 = s.fld (Reg.timeGpioCfg k) 1 0 then s1 else s1.setPulse k none

/-- GPIO_CFG_WRITE (R102). -/
def execGpioCfgWrite (k : Fin 8) (val : Word) (s : State) : Host.Outcome State Fault Refusal := .next (s.gpioWrite k.val val)

/-! ### Arming waypoints (R97) -/

/-- STATE of a slot (Table 04.11). -/
def State.wpState (s : State) (slot : Nat) : Nat := s.fld (Reg.timeWpStatus slot) 31 30

/-- The armed state that a slot's registers give (R97). -/
def State.wpLoad (s : State) (slot : Nat) : Armed :=
  { ns := ((s.rd (Reg.timeWpSecLo slot)).toNat + 2 ^ 32 * s.fld (Reg.timeWpSecHi slot) 15 0) * 1000000000 +
      (s.rd (Reg.timeWpNs slot)).toNat,
    view := s.fld (Reg.timeWpCtrl slot) 3 0,
    action := s.fld (Reg.timeWpAction slot) 31 28,
    arg := s.fld (Reg.timeWpAction slot) 27 0,
    notify := s.bit (Reg.timeWpCtrl slot) 9,
    skip := s.bit (Reg.timeWpCtrl slot) 8 }

/-- A slot's STATE, LATE and LATENESS. -/
def State.wpShow (s : State) (slot st : Nat) (late : Bool) (lateness : Nat) : State :=
  (s.wrNat (Reg.timeWpStatus slot) (st * 2 ^ 30 + ofBool late * 2 ^ 29)).wrNat (Reg.timeWpLateness slot) lateness

/-- The armed state of a slot. -/
def State.setArmed (s : State) (slot : Nat) (a : Option Armed) : State :=
  { s with chrono.armed := s.chrono.armed.set (fun _ => none) slot a }

/-- A WP_REPORT as the manager keeps it (R336). -/
def State.wpStore (s : State) (d slot st : Nat) (lateness : Word) : State :=
  s.wrWords (Reg.merWpResultW0 d) [BitVec.ofNat 32 (2 ^ 31 + st % 4 * 2 ^ 28 + slot % 512), lateness]

/-- A slot leaves ARMED: with a report asked for, it goes to the manager, or into its own table (R336). -/
def State.wpLeft (s : State) (slot : Nat) : State :=
  if !s.mer.wpSlots.contains slot then s
  else
    let s1 := { s with mer.wpSlots := s.mer.wpSlots.erase slot }
    let late := s.rd (Reg.timeWpLateness slot)
    if s.mer.role = 3 then s1.wpStore s.devId slot (s.wpState slot) late
    else
      match s.mer.mgr with
      | some d => if s.mer.role = 0 then s1 else s1.sendMer d (s.merMsg d 0 (.wpReport slot (s.wpState slot) late))
      | none => s1

/-- A write of TIME_WP_CTRL (R97): ARM copies the slot's registers and clears LATE and LATENESS, also over an armed slot;
DISARM alone returns an ARMED slot to IDLE, and with NOTIFY raises the waypoint event, since the slot leaves ARMED. -/
def State.wpCtrlWrite (s : State) (slot : Nat) (v : Word) : State :=
  let s1 := s.wrTyped (Reg.timeWpCtrl slot) v
  if Machine.bit v 31 then (s1.setArmed slot (some (s1.wpLoad slot))).wpShow slot 1 false 0
  else if Machine.bit v 30 then
    match s.chrono.armed.get (fun _ => none) slot with
    | some a =>
      let s2 := ((s1.setArmed slot none).setFld (Reg.timeWpStatus slot) 31 30 0).wpLeft slot
      if a.notify then s2.raise (leafOf 11 10) slot (s2.rd (Reg.timeWpStatus slot)) 0 0 else s2
    | none => s1
  else s1

/-- WAYPOINT_ARM (R97). -/
def execWaypointArm (slot : Fin 512) (val : Word) (s : State) : Host.Outcome State Fault Refusal :=
  .next (s.wpCtrlWrite slot.val val)

/-- WAYPOINT_DISARM (R97). -/
def execWaypointDisarm (slot : Fin 512) (val : Word) (s : State) : Host.Outcome State Fault Refusal :=
  .next (s.wpCtrlWrite slot.val val)

end Sys2Proof.Machine
end

