-- ==== Sys2Proof/Machine/Gates.lean ====
section
/-!
DEFINITION. Machine/Gates.lean: the gate lists of network ports (R267 to R271).
-/
namespace Sys2Proof.Machine

/-! ### The two lists -/

/-- The gate lists of network port `m`. -/
def State.gates (s : State) (m : Nat) : Gates := s.alm.gates.get (fun _ => {}) m

/-- Replace the gate lists of a port. -/
def State.setGates (s : State) (m : Nat) (x : Gates) : State :=
  { s with alm.gates := s.alm.gates.set (fun _ => {}) m x }

/-- The key of entry `e` of the admin or the oper list of port `m`: the two stores swap roles (R269). -/
def State.gateKey (s : State) (m : Nat) (oper : Bool) (e : Nat) : Nat :=
  (m * 2 + (if oper != (s.gates m).swapped then 1 else 0)) * 1024 + e

/-- An entry: gate states and INTERVAL_NS. -/
def State.gateEntry (s : State) (m : Nat) (oper : Bool) (e : Nat) : Nat × Nat :=
  s.alm.entries.get (fun _ => (0, 0)) (s.gateKey m oper e)

/-- The first `n` entries of a list. -/
def State.gateList (s : State) (m : Nat) (oper : Bool) (n : Nat) : List (Nat × Nat) :=
  (List.range (min n 1024)).map fun e => s.gateEntry m oper e

/-- PENDING of ALM_GATE_STATUS. -/
def State.gatePending (s : State) (m : Nat) : Bool := s.bit (Reg.almGateStatus m) 31

/-- The time that gates follow: view time of ALM_GATE_CFG.VIEW in ns (R267). -/
def State.gateTime (s : State) (m : Nat) : Nat := cmpNs (s.viewTime (s.fld (Reg.almGateCfg m) 7 4) s.raw)

/-- A list as it runs within a cycle (R268): entries of interval 0 skipped, the last stretched to the end of the cycle, the
list cut at it. -/
def fitCycle : Nat → List (Nat × Nat) → List (Nat × Nat)
  | _, [] => []
  | c, [(g, _)] => if c = 0 then [] else [(g, c)]
  | c, (g, d) :: es => if c = 0 then [] else if d = 0 then fitCycle c es else (g, min c d) :: fitCycle (c - min c d) es

/-- The sum of the intervals of a list. -/
def listSum (l : List (Nat × Nat)) : Nat := (l.map Prod.snd).sum

/-- CYCLE_NS in force: 0 acts as the sum of the intervals (R268). -/
def cycleOf (cycle : Nat) (l : List (Nat × Nat)) : Nat := if cycle = 0 then listSum l else cycle

/-- One cycle of a list: gate states with their durations. Trailing entries of interval 0 are skipped as any other; an empty
cycle leaves every gate open. -/
def cycleSegs (cycle : Nat) (l : List (Nat × Nat)) : List (Nat × Nat) :=
  let es := l.filter fun e => e.2 != 0
  let c := cycleOf cycle es
  if c = 0 then [] else if es = [] then [(0xFF, c)] else fitCycle c es

/-- The segments from `pos` on. -/
def segsFrom : Nat → List (Nat × Nat) → List (Nat × Nat)
  | _, [] => []
  | pos, (g, d) :: es => if pos < d then (g, d - pos) :: es else segsFrom (pos - d) es

/-- The oper list of port `m` runs: GATE_EN, a list started, and a cycle that is not empty (R267, R268). -/
def State.gateRuns (s : State) (m : Nat) : Bool :=
  let x := s.gates m
  s.bit (Reg.almGateCfg m) 31 && x.valid && cycleSegs x.cycle (s.gateList m true x.len) != []

/-- One cycle of the oper list. -/
def State.operSegs (s : State) (m : Nat) : List (Nat × Nat) :=
  cycleSegs (s.gates m).cycle (s.gateList m true (s.gates m).len)

/-- The place within its cycle at view time `t`. -/
def State.gatePos (s : State) (m t : Nat) : Nat :=
  let x := s.gates m
  let c := listSum (s.operSegs m)
  if c = 0 then 0 else (((t : Int) - (x.t0 : Int)) % (c : Int)).toNat

/-- The segments of the oper list from view time `t`: the rest of the cycle, then one whole cycle. -/
def State.operFrom (s : State) (m t : Nat) : List (Nat × Nat) :=
  segsFrom (s.gatePos m t) (s.operSegs m) ++ s.operSegs m

/-- A gate of a class. -/
def gateOpen (g c : Nat) : Bool := g / 2 ^ c % 2 == 1

/-- The gate states at the present (R267, R268). -/
def State.gateNow (s : State) (m : Nat) : Nat :=
  if s.gateRuns m then ((s.operFrom m (s.gateTime m)).head?.getD (0xFF, 0)).1 else 0xFF

/-- The time to the first closing of a class within segments; none when it stays open through them. -/
def closingIn (c acc : Nat) : List (Nat × Nat) → Option Nat
  | [] => none
  | (g, d) :: es => if gateOpen g c then closingIn c (acc + d) es else some acc

/-- The time to the next closing of an open class, the list that starts at a pending T0 included (R270). -/
def State.nextClosing (s : State) (m c : Nat) : Option Nat :=
  let x := s.gates m
  let t := s.gateTime m
  let now := if s.gateRuns m then closingIn c 0 (s.operFrom m t) else none
  if s.gatePending m && s.bit (Reg.almGateCfg m) 31 then
    let left := x.nextT0 - t
    match now with
    | some d => if d < left then some d else
        (closingIn c left (cycleSegs x.nextCycle (s.gateList m false x.nextLen) ++ cycleSegs x.nextCycle (s.gateList m false x.nextLen)))
    | none => closingIn c left (cycleSegs x.nextCycle (s.gateList m false x.nextLen) ++ cycleSegs x.nextCycle (s.gateList m false x.nextLen))
  else now

/-- The longest run of open segments of a class (R271). -/
def longestOpen (c best cur : Nat) : List (Nat × Nat) → Nat
  | [] => max best cur
  | (g, d) :: es => if gateOpen g c then longestOpen c best (cur + d) es else longestOpen c (max best cur) 0 es

/-- The longest open interval of a class in the oper list, merged across entry and cycle boundaries; none when its gate never
closes (R271). -/
def State.longestOf (s : State) (m c : Nat) : Option Nat :=
  if s.gateRuns m ∧ (s.operSegs m).any (fun e => !gateOpen e.1 c) then
    some (longestOpen c 0 0 (s.operSegs m ++ s.operSegs m))
  else none

/-- Gb/s of a personality (Table 14.1). -/
def gbps : Nat → Nat
  | 1 => 10
  | 2 => 25
  | 3 => 50
  | 4 => 100
  | 5 => 200
  | 6 => 400
  | _ => 0

/-- A frame of `len` bytes of class `c` may start: its gate is open, and the closing is beyond the guard band, or, at expert
level with LEN_AWARE, beyond its end (R270). -/
def State.gateLets (s : State) (m c len : Nat) : Bool :=
  gateOpen (s.gateNow m) c &&
    match s.nextClosing m c with
    | none => true
    | some d =>
      let rate := gbps (s.netPers m)
      if s.almExpert && s.bit (Reg.almGateCfg m) 30 then decide ((len + 8) * 8 ≤ d * rate)
      else decide ((s.fld (Reg.almGateCfg m) 29 16 + 8) * 8 < d * rate)

/-- A frame at the head of its class is too long for every open interval (R271). -/
def State.oversize (s : State) (m c len : Nat) : Bool :=
  match s.longestOf m c with
  | some d => decide (d * gbps (s.netPers m) < (len + 8) * 8)
  | none => false

/-- The first frame of a class. -/
def headOf (c : Nat) (l : List Stored) : Option Stored := l.find? fun f => f.cls == c

/-- Drop the head of a class while it is too long (R271). -/
def State.dropOversize (s : State) (m c : Nat) : Nat → State
  | 0 => s
  | n + 1 =>
    match headOf c (s.staging (48 + m)) with
    | some f =>
      if s.oversize m c (txLen f) then
        ((s.setStaging (48 + m) ((s.staging (48 + m)).erase f)).bump (Reg.almGateOversizeDrop m)).dropOversize m c n
      else s
    | none => s

/-- The head test for every class of a port. -/
def State.testHeads (s : State) (m : Nat) : State :=
  s.each (List.range 8) fun c s => s.dropOversize m c (s.staging (48 + m)).length

/-! ### Switching lists (R269) -/

/-- T0 registers. -/
def State.showT0 (s : State) (m t0 : Nat) : State :=
  ((s.wrNat (Reg.almGateT0Ns m) (t0 % 1000000000)).wrNat (Reg.almGateT0SecLo m) (t0 / 1000000000)).wrNat
    (Reg.almGateT0SecHi m) (t0 / 1000000000 / 2 ^ 32 % 65536)

/-- The smallest N that places BASE + N × CYCLE strictly after `r` (R269). With no cycle N is 0. -/
def startIndex (base cycle r : Nat) : Nat :=
  if r < base ∨ cycle = 0 then 0 else (r - base) / cycle + 1

/-- A request for a gate list switch, by GO or a waypoint (R269); the registers of the odd port of a 400GbE pair are ignored. -/
def State.gateRequest (s : State) (m : Nat) : State :=
  if s.pairOdd m then s
  else if s.gatePending m then s.setBit (Reg.almGateStatus m) 29 true
  else
    let base := ((s.rd (Reg.almGateAdminBaseSecLo m)).toNat + 2 ^ 32 * s.fld (Reg.almGateAdminBaseSecHi m) 15 0) * 1000000000 +
      s.fld (Reg.almGateAdminBaseNs m) 29 0
    let len := min 1024 (s.fld (Reg.almGateAdminLen m) 10 0)
    let cycle := cycleOf (s.fld (Reg.almGateAdminCycleNs m) 29 0) (s.gateList m false len)
    let n := startIndex base cycle (s.gateTime m)
    let t0 := base + n * cycle
    let late := s.rd (Reg.almGateLateStart m)
    let s1 := s.setGates m { s.gates m with nextT0 := t0, nextCycle := cycle, nextLen := len }
    let s2 := s1.wr (Reg.almGateLateStart m)
      (Machine.setBit (Machine.setFld late 31 8 (min n (2 ^ 24 - 1))) 0 (Machine.bit late 0 || n != 0))
    (s2.showT0 m t0).setBit (Reg.almGateStatus m) 31 true

/-- A write of ALM_GATE_CTRL: a GO in the clock of a waypoint action 2 for the port is one request with it (R269). -/
def State.gateCtrlWrite (s : State) (m : Nat) (v : Word) : State :=
  if Machine.bit v 31 && !s.wpSame (256 + m) then s.gateRequest m else s

/-- GATE_LIST_GO (R269). -/
def execGateListGo (m : Fin 24) (val : Word) (s : State) : Host.Outcome State Fault Refusal := .next (s.gateCtrlWrite m.val val)

/-- The current entry of the oper list: its index among the entries, and its gate states, in ALM_GATE_STATUS. -/
def State.gateShow (s : State) (m : Nat) : State :=
  let x := s.gates m
  let pos := s.gatePos m (s.gateTime m)
  let rec entry (pos i : Nat) : List (Nat × Nat) → Nat
    | [] => i - 1
    | (_, d) :: es => if pos < d then i else entry (pos - d) (i + 1) es
  let e := entry pos 0 (s.gateList m true x.len)
  (s.setFld (Reg.almGateStatus m) 18 8 e).setFld (Reg.almGateStatus m) 7 0 (s.gateNow m)

/-- GATE_LIST_START (R269): view time reaches T0: the stores swap roles, the first cycle starts, PENDING clears, and every
head frame is tested again (R271). -/
def State.gateStart (s : State) (m : Nat) : State :=
  let x := s.gates m
  if s.gatePending m && decide (x.nextT0 ≤ s.gateTime m) then
    let s1 := s.setGates m { x with swapped := !x.swapped, valid := true, t0 := x.nextT0, cycle := x.nextCycle, len := x.nextLen }
    let s2 := (s1.setBit (Reg.almGateStatus m) 31 false).setBit (Reg.almGateStatus m) 30 true
    ((s2.wrNat (Reg.almGateOperCycleNs m) x.nextCycle).gateShow m).testHeads m
  else s

/-- GATE_LIST_START (R269). -/
def execGateListStart (m : Fin 24) (at' : Raw) (s : State) : Host.Outcome State Fault Refusal :=
  .next ((s.advance at').gateStart m.val)

/-- GATE_ENTRY_BOUNDARY (R268): the oper list moves to the entry that view time selects. -/
def execGateEntryBoundary (m : Fin 24) (at' : Raw) (s : State) : Host.Outcome State Fault Refusal :=
  .next (let s1 := s.advance at'; if s1.gateRuns m.val then s1.gateShow m.val else s1)

/-- A write to an admin register or an admin entry: ignored while PENDING, and WRITE_IGNORED is set (R269). -/
def State.gateAdmin (s : State) (m : Nat) (f : State → State) : State :=
  if s.gatePending m then s.setBit (Reg.almGateStatus m) 28 true else f s

/-- A write of ALM_GATE_ENT_SEL (Table 12.9). -/
def State.gateEntSelWrite (s : State) (v : Word) : State :=
  let s1 := s.wrTyped Reg.almGateEntSel v
  let m := Machine.fld v 20 16
  let e := Machine.fld v 9 0
  let oper := Machine.bit v 29
  let s2 :=
    if Machine.bit v 31 ∧ !oper ∧ m < 24 ∧ !s1.pairOdd m then
      s1.gateAdmin m fun s =>
        let x := (s.fld Reg.almGateEntGates 7 0, s.fld Reg.almGateEntInterval 29 0)
        { s with alm.entries := s.alm.entries.set (fun _ => (0, 0)) (s.gateKey m false e) x }
    else s1
  if Machine.bit v 30 then
    let q := s2.gateEntry m oper e
    (s2.wrNat Reg.almGateEntGates q.1).wrNat Reg.almGateEntInterval q.2
  else s2

/-- GATE_ENTRY_WRITE (R269). -/
def execGateEntryWrite (val : Word) (s : State) : Host.Outcome State Fault Refusal := .next (s.gateEntSelWrite val)

/-- GATE_ENTRY_READ (R267). -/
def execGateEntryRead (val : Word) (s : State) : Host.Outcome State Fault Refusal := .next (s.gateEntSelWrite val)

end Sys2Proof.Machine
end

