-- ==== Sys2Proof/Machine/Graph.lean ====
section
/-!
DEFINITION. Machine/Graph.lean: the pipeline that serves a port, the Compass parser (R182 to R185) and the PTP messages it recognises
(R88).
-/
namespace Sys2Proof.Machine

/-- The physical pipeline that serves a device port (R14, R32); one that the image does not assign is served by logical pipeline 0
(DESIGN CHOICE, log entry 54). While a logical pipeline moves, also when its swap has ended (R34), its ports go to the spare. -/
def State.pipeFor (s : State) (port : Nat) : Nat :=
  let k := ((s.dev.body.port.pipes.find? fun e => e.1 == port).map Prod.snd).getD 0 % 8
  let moves : Bool := match s.dev.swap with
    | some r => decide (r.phase = .moving ∧ r.k = k)
    | none => s.dev.moving == some k
  if moves then s.fld Reg.devPipeSpare 3 0 else s.fld (Reg.devPipeMap k) 3 0

/-! ### Parsing (R182, R183) -/

/-- Bytes that Compass examines: none beyond byte 256, counted from 0 (R182). -/
def examined : Nat := 257

/-- The end of what must be read of a header at an offset before its length is known: its length field. -/
def lenFieldEnd (l : HdrLen) (off : Nat) : Nat :=
  match l with
  | .fixed _ => off
  | .computed o w _ _ => off + ceilDiv (o + w) 8

/-- The length of a header at an offset (R182). -/
def hdrLen (l : HdrLen) (bs : List Byte) (off : Nat) : Nat :=
  match l with
  | .fixed n => n
  | .computed o w scale add => bitsAt bs (8 * off + o) w * scale + add

/-- A header that ends at `e` has outcome 1 when the frame ends before it, 2 when it extends beyond byte 256 (Table 09.1). With both,
TRUNCATED is the outcome: DEDUCED, log 34. -/
def reachCode (bs : List Byte) (e : Nat) : Nat := if bs.length < e then 1 else if examined < e then 2 else 0

/-- The version check of a header (Table 09.1). -/
def verCheck (k : HdrKind) (bs : List Byte) : Bool :=
  match k with
  | .ipv4 => bitsAt bs 0 4 == 4
  | .ipv6 => bitsAt bs 0 4 == 6
  | _ => true

/-- The header checksum of IPv4 (Table 09.1). -/
def sumCheck (k : HdrKind) (bs : List Byte) : Bool :=
  match k with
  | .ipv4 => sum16 (bs.take (4 * bitsAt bs 4 4)) == 65535
  | _ => true

/-- The length field of a header is not smaller than the header it describes (Table 09.1; which fields these are: DEDUCED, log
34). -/
def shortCheck (x : ParseNode) (bs : List Byte) (len : Nat) : Bool :=
  match x.kind with
  | .ipv4 => decide (5 ≤ bitsAt bs 4 4) && decide (4 * bitsAt bs 4 4 ≤ at16 bs 2)
  | .tcp => decide (5 ≤ bitsAt bs 96 4)
  | .udp => decide (8 ≤ at16 bs 4)
  | _ => decide (lenFieldEnd x.len 0 ≤ len)

/-- The checks that a node has enabled (Table 09.1, HEADER_CHECK). -/
def hdrCheck (x : ParseNode) (bs : List Byte) (len : Nat) : Bool :=
  (!x.ver || verCheck x.kind bs) && (!x.sum || sumCheck x.kind bs) && (!x.short || shortCheck x bs len)

/-- A transition's key equals the value it compares (R185). -/
def State.transHit (s : State) (key : Nat) : TransKey → Bool
  | .const v => key == v
  | .parseVal k n => key == (s.rd (Reg.cmpParseVal (k % 64))).toNat % 2 ^ n

/-- Walk the graph from a node: the outcome and the recorded headers (R182, R183, Table 09.1). -/
def State.parseFrom (s : State) (g : ParseGraph) (bs : List Byte) : Nat → Nat → Nat → List Hdr → Nat × List Hdr
  | 0, _, _, hs => (3, hs)
  | n + 1, node, off, hs =>
    match g.nodes[node]? with
    | none => (5, hs)
    | some x =>
      if x.reject then (5, hs)
      else if 32 ≤ hs.length then (3, hs)
      else
        let l := hdrLen x.len bs off
        if reachCode bs (lenFieldEnd x.len off) ≠ 0 then (reachCode bs (lenFieldEnd x.len off), hs)
        else if reachCode bs (off + l) ≠ 0 then (reachCode bs (off + l), hs)
        else if !hdrCheck x (bs.drop off) l then (4, hs)
        else
          let hs' := hs ++ [Hdr.mk x.kind off l]
          if x.accept then (0, hs')
          else
            let key := bitsAt bs (8 * off + x.sel.1) (min 32 x.sel.2)
            let nx := (((x.trans.take 16).find? fun t => s.transHit key t.1).map Prod.snd).getD x.next
            s.parseFrom g bs n nx (off + l) hs'

/-- Parse a frame that entered by a device port; a port without a root node is rejected (R182). -/
def State.parse (s : State) (p port : Nat) (bs : List Byte) : Nat × List Hdr :=
  let g := (s.pipe p).parse
  match g.roots.find? fun r => r.1 == port with
  | some r => s.parseFrom { g with nodes := g.nodes.take 256 } bs 33 r.2 0 []
  | none => (5, [])

/-! ### PTP messages (R88) -/

/-- A recognised PTP message: where it starts in the frame, and the IP version and UDP offset of what carries it, 0 for Ethernet. -/
structure Ptp where
  off : Nat
  ip : Nat := 0
  udp : Nat := 0
deriving DecidableEq, Repr

/-- The PTP message that the parser graph of a port records in a frame (R88). -/
def State.ptpOf (s : State) (port : Nat) (bs : List Byte) : Option Ptp :=
  let hs := (s.parse (s.pipeFor port) port bs).2
  (hs.find? fun h => h.kind == .ptp).map fun h =>
    let before := (hs.filter fun g => decide (g.off < h.off)).reverse
    { off := h.off,
      ip := ((before.find? fun g => g.kind == .ipv4 || g.kind == .ipv6).map fun g => if g.kind == .ipv4 then 4 else 6).getD 0,
      udp := ((before.find? fun g => g.kind == .udp).map fun g => g.off).getD 0 }

/-- The domainNumber of a PTP event message: messageType 0 to 3 (R77, R88). -/
def ptpDomain (m : Option Ptp) (bs : List Byte) : Option Byte :=
  m.bind fun x => if bitsAt bs (8 * x.off + 4) 4 < 4 then some (BitVec.ofNat 8 (bitsAt bs (8 * x.off + 32) 8)) else none

end Sys2Proof.Machine
end

