-- ==== Sys2Proof/Machine/Security.lean ====
section
/-!
DEFINITION. Machine/Security.lean: roles and authentication, OTP, the pairing key, self-tests and the error state,
zeroisation (chapter 19).
-/
namespace Sys2Proof.Machine

/-! ### Signed images and firmware (R25, R26, R372) -/

/-- A section lies on a 16-byte boundary, wholly between directory and trailer (R25). -/
def entryOk (h : ImgHeader) (e : DirEntry) : Bool :=
  e.offset % 16 == 0 && 32 + 16 * h.sectionCount ≤ e.offset && e.offset + e.length + 208 ≤ h.imageLen

/-- Condition 2: the source length, 64 MiB, R25. -/
def lengthOk (h : ImgHeader) (len : Nat) (dir : List DirEntry) : Bool :=
  h.imageLen == len && h.imageLen ≤ 64 * 2 ^ 20 && h.imageLen % 16 == 0 && 32 + 16 * h.sectionCount + 208 ≤ h.imageLen &&
    dir.all (entryOk h)

/-- KEY_SLOT is one of slots 0 to 3, not revoked and not blank, its hash is that of the point, and the signature verifies (R26, R372). -/
def Otp.signed (o : Otp) (h : ImgHeader) (pubkey sig : List Byte) (digest : BitVec 384) : Bool :=
  h.keySlot ≤ 3 && !o.revoked.getLsbD h.keySlot && o.keyHash.getD h.keySlot none == some (Config.sha384 pubkey) &&
    Config.ecdsaVerify pubkey digest sig

/-- A firmware copy authenticates: the layout of Table 02.2 with its own MAGIC and one section, R26, and FW_SVN_MIN in place of the
image minimum (R372). -/
def Otp.boots (o : Otp) (c : FwCopy) : Bool :=
  c.hdr.magic == 0x4B544657 && c.hdr.sectionCount == 1 && c.dir.length == 1 && lengthOk c.hdr c.len c.dir &&
    o.signed c.hdr c.pubkey c.sig c.digest && o.fwSvnMin ≤ c.hdr.svn

/-! ### Roles, denials, the DRBG (R370, R373, R374, R376) -/

/-- A request without its role is ignored, sets DENIED, is counted, and raises its event (R374, R380). -/
def State.denied (s : State) : State :=
  ((s.bump Reg.secDenied).setBit Reg.secStatus 27 true).event (leafOf 26 5) 0

/-- The Crypto Officer is authenticated. -/
def State.isCO (s : State) : Bool := s.sec.role == 1

/-- The User services are allowed: User, or the CO, who may use every User service (R373). -/
def State.isUser (s : State) : Bool := s.sec.role == 1 || s.sec.role == 2

/-- The first use of a non-approved service since the last reset clears APPROVED, sets NONAPPROVED_USED and raises its
event (R376, R380). -/
def State.useNonApproved (s : State) : State :=
  if s.sec.nonApproved then s else ({ s with sec.nonApproved := true } : State).event (leafOf 26 4) 0

/-- APPROVED (R376). -/
def State.approved (s : State) : Bool :=
  s.sec.approvedTests && !s.sec.error && !s.sec.nonApproved

/-- SEC_STATUS as it reads: DENIED is stored, the rest follows the module's state (Table 19.8). -/
def State.secStatus (s : State) : Word :=
  BitVec.ofNat 32
    (ofBool s.approved * 2 ^ 31 + ofBool s.sec.error * 2 ^ 30 + ofBool s.sec.nonApproved * 2 ^ 29 +
      ofBool s.sec.zeroized * 2 ^ 28 + ofBool (s.bit Reg.secStatus 27) * 2 ^ 27 +
      ofBool s.dev.zeroizeLow * 2 ^ 26 + s.sec.role % 4)

/-- SEC_AUTH_STATUS as it reads: PASS and FAIL are stored, LOCKED and FAILS follow the state (Table 19.9). -/
def State.authStatus (s : State) : Word :=
  BitVec.ofNat 32
    (s.fld Reg.secAuthStatus 31 29 * 2 ^ 29 + ofBool s.sec.locked.isSome * 2 ^ 28 + s.sec.fails % 16)

/-! ### Authentication (R373) -/

/-- Store a nonce in SEC_AUTH_NONCE, byte 0 in bits [7:0] of word 0. -/
def State.setNonce (s : State) (n : Option (BitVec 384)) : State :=
  ({ s with sec.nonce := n } : State).wrWords (Reg.secAuthNonce 0) (toWords 12 (n.getD 0).toNat)

/-- GET_NONCE draws a fresh nonce; it is refused in the error state (R373, R377). -/
def State.getNonce (s : State) : State :=
  if s.sec.error then s
  else
    let (i, s1) := s.generate
    s1.setNonce (some (Config.freeNonce i))

/-- Bytes of SEC_AUTH_DATA from word `k`, byte 4k + i in bits [8i + 7:8i] (R373). -/
def State.authBytes (s : State) (k n : Nat) : List Byte :=
  ((List.range ((n + 3) / 4)).flatMap fun i => leBytes 4 (s.sec.authData.get (fun _ => 0) (k + i)).toNat).take n

/-- The check of VERIFY for a role (R373): the key hash is that of the role's slot and the signature verifies over the
valid nonce. -/
def State.verifyOk (s : State) (role : Nat) : Bool :=
  match s.sec.nonce with
  | none => false
  | some n =>
    let key := s.authBytes 0 97
    s.sec.otp.keyHash.getD (role + 3) none == some (Config.sha384 key) &&
      Config.ecdsaVerify key (Config.roleDigest n role) (s.authBytes 25 96)

/-- PASS or FAIL of a VERIFY. -/
def State.authEnd (s : State) (pass : Bool) : State := s.setFld Reg.secAuthStatus 31 29 (if pass then 2 else 1)

/-- A VERIFY that fails its check counts, and begins the lockout at the eighth consecutive failure (R373). -/
def State.verifyFailed (s : State) : State :=
  let n := s.sec.fails + 1
  let s1 := ({ s.authEnd false with sec.fails := n } : State).event (leafOf 26 2) 0
  if n = 8 then ({ s1 with sec.locked := some s1.raw } : State).event (leafOf 26 3) 0 else s1

/-- VERIFY (R373): the nonce is used up in every case; a role of 0 or 3, the lockout and the error state end in FAIL
without a check. -/
def State.verify (s : State) (role : Nat) : State :=
  let ok := s.verifyOk role
  let s1 := s.setNonce none
  if role = 0 ∨ role = 3 ∨ s.sec.locked.isSome ∨ s.sec.error then s1.authEnd false
  else if ok then { s1.authEnd true with sec.fails := 0, sec.role := role }
  else s1.verifyFailed

/-- A write of SEC_AUTH_CMD: GO with OP 1 to 3; any other is ignored (R373). -/
def State.authCmd (s : State) (v : Word) : State :=
  if Machine.bit v 31 then
    match Machine.fld v 27 24 with
    | 1 => s.getNonce
    | 2 => s.verify (Machine.fld v 1 0)
    | 3 => { s with sec.role := 0 }
    | _ => s
  else s

/-- GET_NONCE (R373). -/
def execGetNonce (val : Word) (s : State) : Host.Outcome State Fault Refusal := .next (s.authCmd val)

/-- VERIFY (R373). -/
def execVerify (val : Word) (s : State) : Host.Outcome State Fault Refusal := .next (s.authCmd val)

/-- LOGOUT (R373). -/
def execLogout (val : Word) (s : State) : Host.Outcome State Fault Refusal := .next (s.authCmd val)

/-- VERIFY_LOCKOUT_END: 60 s after the lockout began, LOCKED clears and FAILS resets (R373). -/
def State.lockoutEnd (s : State) : State :=
  match s.sec.locked with
  | some t =>
    if t.toNat + 60000000000 * nsUnit ≤ s.raw.toNat then { s with sec.locked := none, sec.fails := 0 } else s
  | none => s

/-- VERIFY_LOCKOUT_END (R373). -/
def execVerifyLockoutEnd (at' : Raw) (s : State) : Host.Outcome State Fault Refusal := .next (s.advance at').lockoutEnd

/-! ### OTP (R371) -/

/-- SEC_OTP_CFG as it reads (Table 19.9). -/
def otpCfg (o : Otp) : Word :=
  BitVec.ofNat 32
    (o.fwSvnMin % 256 * 2 ^ 24 + o.imgSvnMin % 256 * 2 ^ 16 +
      ((List.range 6).map fun i => if (o.keyHash.getD i none).isNone then 2 ^ (8 + i) else 0).sum + o.revoked.toNat)

/-- What programming does: the new fuses, or the cause of a refusal: 2 not allowed, 3 last slot (R371). -/
def otpProgram (o : Otp) (op slot value : Nat) (hash : BitVec 384) : Otp ⊕ Nat :=
  match op with
  | 1 =>
    if slot < 6 ∧ (o.keyHash.getD slot none).isNone then .inl { o with keyHash := setAt o.keyHash slot (some hash) }
    else .inr 2
  | 2 =>
    if 4 ≤ slot ∨ o.revoked.getLsbD slot then .inr 2
    else if o.revoked ||| BitVec.ofNat 4 (2 ^ slot) = 15 then .inr 3
    else .inl { o with revoked := o.revoked ||| BitVec.ofNat 4 (2 ^ slot) }
  | 3 => if o.imgSvnMin < value then .inl { o with imgSvnMin := value } else .inr 2
  | 4 => if o.fwSvnMin < value then .inl { o with fwSvnMin := value } else .inr 2
  | _ => .inr 2

/-- A write of SEC_OTP_PROG: GO by the CO starts programming; without the role it is denied and refused with cause 1. A GO
while BUSY is ignored. -/
def State.otpWrite (s : State) (v : Word) : State :=
  let s1 := s.wrTyped Reg.secOtpProg v
  if Machine.bit v 31 && !s.bit Reg.secOtpProgStatus 31 then
    if s.isCO then
      ({ s1 with sec.otpBusy := some (Machine.fld v 27 24, Machine.fld v 18 16, Machine.fld v 7 0,
          BitVec.ofNat 384 (ofLe (s.authBytes 0 48))) } : State).wr Reg.secOtpProgStatus 0x80000000
    else s1.denied.wr Reg.secOtpProgStatus 0x20000001
  else s1

/-- OTP_KEY_HASH_PROGRAM (R371). -/
def execOtpKeyHashProgram (val : Word) (s : State) : Host.Outcome State Fault Refusal := .next (s.otpWrite val)

/-- OTP_REVOKE (R371). -/
def execOtpRevoke (val : Word) (s : State) : Host.Outcome State Fault Refusal := .next (s.otpWrite val)

/-- OTP_IMG_SVN_MIN (R371). -/
def execOtpImgSvnMin (val : Word) (s : State) : Host.Outcome State Fault Refusal := .next (s.otpWrite val)

/-- OTP_FW_SVN_MIN (R371). -/
def execOtpFwSvnMin (val : Word) (s : State) : Host.Outcome State Fault Refusal := .next (s.otpWrite val)

/-- OTP programming ends: the fuse changes and DONE is set, or the request is refused with its cause; its event is raised
either way (R371, R380). -/
def State.otpEnd (s : State) : State :=
  match s.sec.otpBusy with
  | none => s
  | some (op, slot, value, hash) =>
    let s1 := { s with sec.otpBusy := none }
    match otpProgram s.sec.otp op slot value hash with
    | .inl o => (({ s1 with sec.otp := o } : State).wr Reg.secOtpProgStatus 0x40000000).event (leafOf 26 6) 0
    | .inr c => (s1.wrNat Reg.secOtpProgStatus (0x20000000 + c)).event (leafOf 26 6) 0

/-- OTP_PROGRAMMING_END (R371). -/
def execOtpProgrammingEnd (s : State) : Host.Outcome State Fault Refusal := .next s.otpEnd

/-! ### The pairing key (R374, R375) -/

/-- A pairing key is stored or invalidated; VALID and KCV follow (R375, Table 19.9). -/
def State.setPair (s : State) (k : Option (BitVec 256)) : State :=
  (({ s with sec.pairKey := k } : State).setBit Reg.secPairCtrl 0 k.isSome).wr Reg.secPairKcv
    (match k with | some x => Config.kcv x | none => 0)

/-- The key that SEC_PAIR_KEY[0..7] spell, word 0 least significant. -/
def State.pairStaged (s : State) : BitVec 256 :=
  BitVec.ofNat 256 (ofWords ((List.range 8).map fun i => s.sec.pairData.get (fun _ => 0) i))

/-- A write of SEC_PAIR_CTRL (R374, R375, R377): WRITE, then CLEAR; both need the User role; key entry is refused in the
error state. -/
def State.pairWrite (s : State) (v : Word) : State :=
  if Machine.bit v 31 || Machine.bit v 30 then
    if !s.isUser then s.denied
    else
      let s1 := if Machine.bit v 31 && !s.sec.error then s.setPair (some s.pairStaged) else s
      if Machine.bit v 30 then s1.setPair none else s1
  else s

/-- PAIR_KEY_WRITE (R375). -/
def execPairKeyWrite (val : Word) (s : State) : Host.Outcome State Fault Refusal := .next (s.pairWrite val)

/-- PAIR_KEY_CLEAR (R375). -/
def execPairKeyClear (val : Word) (s : State) : Host.Outcome State Fault Refusal := .next (s.pairWrite val)

/-! ### Self-tests and the error state (R376, R377, R58) -/

/-- Commissioning fails in a phase: FAIL and FAIL_PHASE are set and the device enters SAFE with CAUSE 8 (R58). -/
def State.commFail (s : State) (phase : Nat) : State :=
  let s1 := { s with dev.commPhase := 0 }
  ((((s1.setBit Reg.devCommStatus 31 false).setBit Reg.devCommStatus 28 true).setFld Reg.devCommStatus 7 4 phase).event
    (leafOf 19 2) 0).safeEntry 8 0

/-- A self-test fails (R376, R377): ERROR is set in the same clock; test 8 is the continuous entropy test. During
commissioning phase 3, R58 applies as well. -/
def State.selftestFail (s : State) (test : Nat) : State :=
  let s1 := s.setBit Reg.secSelftest (if test = 8 then 16 else test) (test == 8)
  let s2 := ({ s1 with sec.error := true, sec.approvedTests := false } : State).event (leafOf 26 0) 0
  if s.dev.mode = .commission ∧ s.dev.commPhase ≠ 0 then s2.commFail s.dev.commPhase else s2

/-- SELFTEST_FAILURE (R377). -/
def execSelftestFailure (test : Fin 9) (s : State) : Host.Outcome State Fault Refusal := .next (s.selftestFail test.val)

/-! ### Zeroisation (R378, R379) -/

/-- Zeroisation begins: every running long operation ends ABORTED with REASON 6, the device enters SAFE with CAUSE 7, and
OP_PARTIAL shows FULL in effect. -/
def State.zeroBegin (s : State) (full : Bool) : State :=
  let s1 := s.abortWhere (fun o => o != .zeroisation) 6 allLongOps
  let s2 := { s1.opBegin .zeroisation with sec.zero := some ⟨full, false⟩ }
  (s2.setBit Reg.secZeroOpPartial 1 full).safeEntry 7 0

/-- A write of SEC_ZERO_OP_CTRL (R374, R378): START needs the CO; ABORT is ignored. -/
def State.zeroCtrlWrite (s : State) (v : Word) : State :=
  if Machine.bit v 31 && !s.isCO then s.denied
  else s.opCtrlWrite .zeroisation v (fun s => s.zeroBegin (s.opArg .zeroisation % 2 == 1)) fun s => s

/-- ZEROISATION_START (R378). -/
def execZeroisationStart (val : Word) (s : State) : Host.Outcome State Fault Refusal := .next (s.zeroCtrlWrite val)

/-- ZEROISATION_ABORT (R378): ignored. -/
def execZeroisationAbort (val : Word) (s : State) : Host.Outcome State Fault Refusal := .next (s.zeroCtrlWrite val)

/-- The pin starts a full zeroisation, or widens a running one to FULL; PROGRESS continues (R378). -/
def State.zeroPin (s : State) : State :=
  let s1 := s.event (leafOf 26 7) 0
  match s1.sec.zero with
  | some z => ({ s1 with sec.zero := some { z with full := true } } : State).setBit Reg.secZeroOpPartial 1 true
  | none => s1.zeroBegin true

/-- ZEROIZE_N low for `ns`: 1 µs or more is accepted, less than 500 ns is ignored; between the two the manual leaves it
open, and a free value decides (R378). -/
def State.zeroizeN (s : State) (ns : Nat) (held : Bool) : State :=
  let s1 := { s with dev.zeroizeLow := held }
  if 1000 ≤ ns then s1.zeroPin
  else if ns < 500 then s1
  else
    let (i, s2) := s1.draw
    if Config.freeNat i % 2 = 0 then s2 else s2.zeroPin

/-- ZEROIZE_N_ASSERT (R378). -/
def execZeroizeNAssert (ns : Nat) (held : Bool) (s : State) : Host.Outcome State Fault Refusal :=
  .next (s.zeroizeN ns held)

/-- A MACsec SA without its key and salt. -/
def Sa.wiped (x : Sa) : Sa := { x with valid := false, key := 0, salt := 0 }

/-- SAKs and salts of every port are zero, with what was staged for them. -/
def State.wipeSas (s : State) : State :=
  let l : SMap NetPort := s.net.ports.map fun (e : Nat × NetPort) =>
    (e.1, { e.2 with keyW := [], sas := e.2.sas.map fun (a : Nat × Sa) => (a.1, a.2.wiped) })
  { s with net.ports := l }

/-- Every CSP of Table 19.5 but the wrapped copies, every role and every nonce are zero (R378 step 1). -/
def State.wipeCsps (s : State) : State :=
  let s1 := ((s.setNonce none).setPair none).wipeSas.clearKeyStore
  { s1 with sec.role := 0, sec.pairData := [], sec.drbg := 0 }

/-- ZEROISATION_STEP1_END (R378). -/
def State.zeroStep1 (s : State) : State :=
  match s.sec.zero with
  | some z =>
    if z.step1 then s
    else ({ s.wipeCsps with sec.zero := some { z with step1 := true } } : State).setBit Reg.secZeroOpPartial 0 true
  | none => s

/-- ZEROISATION_STEP1_END (R378). -/
def execZeroisationStep1End (s : State) : Host.Outcome State Fault Refusal := .next s.zeroStep1

/-- What FULL clears besides: the cell region, table SRAM and TCAM, counters; the structure memories become invalid (R378). -/
def State.wipeMemories (s : State) : State :=
  (({ s with obs.cnt := [], cmp.chart := [], sxt := {}, pool := {}, voq := {}, alm.nodes := [], act := {}, rck := {},
             xgm := {} } : State).clearBuffers).invalidate

/-- ZEROISATION_END (R378, R379): memory is clear, PROGRESS gives the MiB, the operation ends DONE with ZEROIZED set and
its event raised. Step 2 is this one step: where a warm reset ends it before, none of it has run (DESIGN CHOICE, log entry 99: R64
says "as far as it had run" and not in what order it runs). -/
def State.zeroEnd (s : State) : State :=
  match s.sec.zero with
  | some z =>
    if z.step1 then
      let s1 := if z.full then s.wipeReserved.wipeMemories else s.wipeReserved
      let s2 := { s1.setProgress .zeroisation (if z.full then 98592 else 6144) with sec.zeroized := true }
      (s2.opEnd .zeroisation .done |> fun s => ({ s with sec.zero := none } : State)).event (leafOf 26 1) 0
    else s
  | none => s

/-- ZEROISATION_END (R379). -/
def execZeroisationEnd (s : State) : Host.Outcome State Fault Refusal := .next s.zeroEnd

end Sys2Proof.Machine
end

