-- ==== Sys2Proof/Machine/Net.lean ====
section
/-!
DEFINITION. Machine/Net.lean: network and management ports (chapter 14), the ingress buffers they feed (R17), MACsec, flow
control, and transmission from staging (R270, R246, R89).
-/
namespace Sys2Proof.Machine

/-! ### Port blocks -/

/-- Port block `i`: 0 to 23 network ports, 24 MGMT_A, 25 MGMT_B. -/
def State.netPort (s : State) (i : Nat) : NetPort := s.net.ports.get (fun _ => {}) i

/-- Replace a port block. -/
def State.setNet (s : State) (i : Nat) (x : NetPort) : State :=
  { s with net.ports := s.net.ports.set (fun _ => {}) i x }

/-- The device port of a port block (Table 01.2). -/
def devPort (i : Nat) : Nat := if i < 24 then 48 + i else 49 + i

/-- PORT_UP. -/
def State.netUp (s : State) (i : Nat) : Bool := s.bit (Reg.netPortStatus i) 31

/-- The lowest DOWN_CAUSE that holds, 0 for none (R299, R300, Table 14.3). -/
def State.netCause (s : State) (i : Nat) : Nat :=
  let st := s.rd (Reg.netPortStatus i)
  let c := s.rd (Reg.netPortCfg i)
  if !Machine.bit c 31 || s.netPers i == 0 then 1
  else if i < 24 && (s.pwr.cages.get (fun _ => {}) (48 + i)).st != .on then 2
  else if !Machine.bit st 30 || Machine.bit c 29 then 3
  else if Machine.bit st 29 then 4
  else if Machine.bit st 28 then 5
  else 0

/-- UP_MS (R299). -/
def State.upMs (s : State) (i : Nat) : Nat := if s.bit Reg.netCtrl 31 then s.fld (Reg.netPortCfg i) 23 16 else 10

/-- The FEC that a personality permits, default first, by the codes of NET_PORT_CFG.FEC: 1 none, 2 BASE-R, 3 RS(528,514), 4
RS(544,514) (Table 14.1). -/
def fecPermitted : Nat → List Nat
  | 0 => []
  | 1 => [1, 2]
  | 2 => [3, 2, 1]
  | _ => [4]

/-- The FEC that a link-up takes into use (R296): the default at basic level; at expert level NET_PORT_CFG.FEC, where a value that the
personality does not permit acts as the default. -/
def State.fecFor (s : State) (i : Nat) : Nat :=
  let l := fecPermitted (s.netPers i)
  let v := s.fld (Reg.netPortCfg i) 27 24
  if s.bit Reg.netCtrl 31 && l.contains v then v else l.headD 0

/-- Link training runs: LT_EN, 1 at basic level (R296). -/
def State.ltEn (s : State) (i : Nat) : Bool := !s.bit Reg.netCtrl 31 || s.bit (Reg.netPortCfg i) 30

/-- The port comes up (R299), with the FEC its settings now name (R296). -/
def State.netComeUp (s : State) (i : Nat) : State :=
  let s1 := ((s.setBit (Reg.netPortStatus i) 31 true).setFld (Reg.netPortStatus i) 26 24 0).setNet i
    { s.netPort i with upAt := none, fec := s.fecFor i }
  (s1.event (leafOf 8 i) i).portUp (devPort i)

/-- What a port that is down sends: remote fault while a local fault is present, idle otherwise (R299). -/
def State.netIdle (s : State) (i : Nat) : State := s.emit (.netIdle (devPort i) (s.bit (Reg.netPortStatus i) 29))

/-- The frame in transmission when a port goes down is lost (R248); NET_TX_FRAMES counted its start where staging held it whole
(DEDUCED, log 110). -/
def State.txCut (s : State) (i : Nat) : State :=
  let x := s.netPort i
  if x.tx.isNone && s.reached x.wire then s
  else (s.setNet i { x with tx := none, wire := s.raw }).emit (.txLost (devPort i))

/-- Follow the port's conditions (R299): any failure takes it down, and good state starts its settling timer, or brings it up
at once with UP_MS = 0. -/
def State.netFollow (s : State) (i : Nat) : State :=
  let c := s.netCause i
  if c ≠ 0 then
    let s1 := (s.setFld (Reg.netPortStatus i) 26 24 c).setNet i { s.netPort i with upAt := none }
    if s.netUp i then
      ((((s1.setBit (Reg.netPortStatus i) 31 false).bump (Reg.netLinkDowns i)).event (leafOf 8 i) i).txCut i |>.netIdle i).portDown (devPort i)
    else s1
  else if s.netUp i then s
  else if s.upMs i = 0 then s.netComeUp i
  else if (s.netPort i).upAt.isSome then s
  else (s.setFld (Reg.netPortStatus i) 26 24 6).setNet i { s.netPort i with upAt := some (s.after (1000 * s.upMs i)) }

/-- NET_PORT_FAILURE (R299): PCS lock is lost, or a local or remote fault is received. -/
def State.netFail (s : State) (i : Nat) (what : Nat) : State :=
  (if what = 0 then s.setBit (Reg.netPortStatus i) 30 false
   else if what = 1 then s.setBit (Reg.netPortStatus i) 29 true
   else s.setBit (Reg.netPortStatus i) 28 true).netFollow i

/-- NET_PORT_FAILURE (R299). -/
def execNetPortFailure (i : Fin 26) (what : Fin 3) (s : State) : Host.Outcome State Fault Refusal :=
  .next (s.netFail i.val what.val)

/-- NET_PORT_GOOD_STATE (R299, R297): block lock and alignment on every lane, no fault; in LOAD links are down. LT_DONE follows the
training that LT_EN lets run (R296). -/
def State.netGood (s : State) (i : Nat) (polInv : Nat) (trained : Bool) : State :=
  if s.dev.mode = .load then s
  else
    let r := Reg.netPortStatus i
    (((((s.setBit r 30 true).setBit r 29 false).setBit r 28 false).setBit r 27 (trained && s.ltEn i)).setFld r 19 16 polInv).netFollow i

/-- NET_PORT_GOOD_STATE (R299). -/
def execNetPortGoodState (i : Fin 26) (polInv : Fin 16) (trained : Bool) (s : State) : Host.Outcome State Fault Refusal :=
  .next (s.netGood i.val polInv.val trained)

/-- NET_PORT_UP_TIMER (R299): UP_MS of uninterrupted good state has passed. -/
def State.netTimer (s : State) (i : Nat) : State :=
  match (s.netPort i).upAt with
  | some t => if s.reached t ∧ s.netCause i = 0 then s.netComeUp i else s
  | none => s

/-- NET_PORT_UP_TIMER (R299). -/
def execNetPortUpTimer (i : Fin 26) (at' : Raw) (s : State) : Host.Outcome State Fault Refusal :=
  .next ((s.advance at').netTimer i.val)

/-- Registers of a port with personality NONE, and the NET_SEC_ registers of management ports, ignore writes. -/
def State.netMapped (s : State) (i : Nat) (secReg : Bool) : Bool := if 24 ≤ i then !secReg else s.netPers i != 0

/-- A write of NET_PORT_CFG (R299, R300): PORT_RESET written 1 while no reset runs starts one: the MAC, PCS, FEC and link-training state is
reset, pause timers clear, the port is down with cause 3. -/
def State.netCfgWrite (s : State) (i : Nat) (v : Word) : State :=
  if !s.netMapped i false then s
  else
    let was := s.bit (Reg.netPortCfg i) 29
    let s1 := s.wrTyped (Reg.netPortCfg i) v
    let s2 :=
      if Machine.bit v 29 && !was then
        (((s1.setNet i { s1.netPort i with pause := [], upAt := none, fec := 0 }).setBit (Reg.netPortStatus i) 30 false).setBit
          (Reg.netPortStatus i) 27 false).setFld (Reg.netPortStatus i) 19 16 0
      else s1
    s2.netFollow i

/-- NET_PORT_RESET (R300). -/
def execNetPortReset (i : Fin 26) (val : Word) (s : State) : Host.Outcome State Fault Refusal := .next (s.netCfgWrite i.val val)

/-- NET_PORT_RESET_COMPLETE (R300): a running reset ends: PORT_RESET returns to 0; the PCS has locked again or has not. -/
def State.netResetEnd (s : State) (i : Nat) (locked : Bool) : State :=
  if s.bit (Reg.netPortCfg i) 29 then
    ((s.setBit (Reg.netPortCfg i) 29 false).setBit (Reg.netPortStatus i) 30 locked).netFollow i
  else s

/-- NET_PORT_RESET_COMPLETE (R300). -/
def execNetPortResetComplete (i : Fin 26) (locked : Bool) (s : State) : Host.Outcome State Fault Refusal :=
  .next (s.netResetEnd i.val locked)

/-! ### Ingress buffers (R13, R14, R17) -/

/-- Frames in the ingress buffer of a physical pipeline. -/
def State.ingress (s : State) (p : Nat) : List Frame := s.cmp.ingress.get (fun _ => []) p

/-- Replace an ingress buffer. -/
def State.setIngress (s : State) (p : Nat) (l : List Frame) : State :=
  { s with cmp.ingress := s.cmp.ingress.set (fun _ => []) p l }

/-- What Compass attaches to a frame from its ingress port (R185): a network, MGMT or inject frame has no ONU and no XGEM port. -/
def State.attach (s : State) (f : Frame) : Frame :=
  let g := { f with ptp := (s.ptpOf f.port f.bytes).isSome }
  if 48 ≤ f.port ∨ f.host then { g with onu := 0x3FF, xgem := 0xFFFF } else g

/-- A frame is offered to the pipeline that serves its port: it enters the ingress buffer, or is dropped and counted when the
buffer is full (R17). Frames pass as Table 03.3 says. -/
def State.frameIn (s : State) (f : Frame) (full : Bool) : State :=
  let g := s.attach f
  if !s.passes g then s
  else
    let p := s.pipeFor f.port
    if full then s.bump (Reg.cmpIngOverrun p) else (s.setIngress p (s.ingress p ++ [g])).memWrite 8

/-- FRAME_INGRESS (R17). -/
def execFrameIngress (f : Frame) (full : Bool) (s : State) : Host.Outcome State Fault Refusal := .next (s.frameIn f full)

/-! ### Frame helpers -/

/-- The offset of the EtherType after any VLAN tags, and the outer tag's PCP. -/
def etherAt (bs : List Byte) : Nat × Option Nat :=
  let tagged (o : Nat) : Bool := at16 bs o == 0x8100 || at16 bs o == 0x88A8
  let pcp := if tagged 12 then some (at16 bs 14 / 2 ^ 13) else none
  let o := if tagged 12 then (if tagged 16 then (if tagged 20 then 24 else 20) else 16) else 12
  (o, pcp)

/-- The priority of a frame for flow control: PCP of the outer tag, or UNTAGGED_PRIO. -/
def State.framePrio (s : State) (i : Nat) (bs : List Byte) : Nat :=
  (etherAt bs).2.getD (s.fld (Reg.netFcCfg i) 26 24)

/-- Receive buffer of a port in 256-byte units: 96 KiB a lane. -/
def State.rxUnits (s : State) (i : Nat) : Nat := 384 * netLanes (s.netPers i)

/-- Units that bytes occupy. -/
def unitsOf (n : Nat) : Nat := ceilDiv n 256

/-- Units occupied by priority `c` of a port. -/
def State.occOf (s : State) (i c : Nat) : Nat := (s.netPort i).occ.get (fun _ => 0) c

/-- Units occupied on a port. -/
def State.occAll (s : State) (i : Nat) : Nat := ((List.range 8).map fun c => s.occOf i c).sum

/-- Change the occupancy of a priority. -/
def State.setOcc (s : State) (i c n : Nat) : State :=
  s.setNet i { s.netPort i with occ := (s.netPort i).occ.set (fun _ => 0) c n }

/-- FC_MODE: 3 acts as 0. -/
def State.fcMode (s : State) (i : Nat) : Nat := s.fld (Reg.netFcCfg i) 31 30 % 3

/-- The priorities that flow control covers: all with PAUSE, PFC_EN with PFC (R301, R303). -/
def State.fcPrios (s : State) (i : Nat) : List Nat :=
  match s.fcMode i with
  | 1 => List.range 8
  | 2 => (List.range 8).filter fun c => s.bit (Reg.netFcCfg i) (16 + c)
  | _ => []

/-- NET_PFC_THR of a priority; PAUSE uses set 0 (R301). -/
def State.fcThr (s : State) (i c : Nat) : Word := s.rd (Reg.netPfcThr i (if s.fcMode i = 1 then 0 else c))

/-! ### MACsec (R304 to R307) -/

/-- The key of an SA: direction, receive SC, AN. -/
def saKey (rx : Bool) (sc an : Nat) : Nat := if rx then 4 + sc * 4 + an else an

/-- An SA of a port. -/
def State.sa (s : State) (i k : Nat) : Sa := (s.netPort i).sas.get (fun _ => {}) k

/-- Replace an SA. -/
def State.setSa (s : State) (i k : Nat) (x : Sa) : State :=
  s.setNet i { s.netPort i with sas := (s.netPort i).sas.set (fun _ => {}) k x }

/-- The number of the staged key words from `a` (WO registers keep what was written). -/
def NetPort.keyWords (x : NetPort) (a : Nat) : Nat → Nat
  | 0 => 0
  | n + 1 => (x.keyW.get (fun _ => 0) a).toNat + 2 ^ 32 * x.keyWords (a + 4) n

/-- A write of a key, salt or SSCI word stages it. -/
def State.saWordWrite (s : State) (i a : Nat) (v : Word) : State :=
  if s.netMapped i true then
    s.setNet i { s.netPort i with keyW := (s.netPort i).keyW.set (fun _ => 0) a v }
  else s

/-- The SA that the staged words spell. -/
def State.saStaged (s : State) (i : Nat) : Sa :=
  let x := s.netPort i
  { valid := true, key := BitVec.ofNat 256 (x.keyWords (Reg.netSecSaKey i 0) 8),
    salt := BitVec.ofNat 96 (x.keyWords (Reg.netSecSaSalt i 0) 3), ssci := x.keyW.get (fun _ => 0) (Reg.netSecSaSsci i),
    pn := BitVec.ofNat 64 (s.rd64 (Reg.netSecSaPnLo i)) }

/-- A write of NET_SEC_SA_SEL (R305, Table 14.5): CLEAR invalidates, WRITE stores key, salt, SSCI and PN as one whole; both need
the User role (R374), and WRITE is refused in the error state (R377). READ loads PN and status. -/
def State.saSelWrite (s : State) (i : Nat) (v : Word) : State :=
  if !s.netMapped i true then s
  else
    let s1 := s.wrTyped (Reg.netSecSaSel i) v
    let k := saKey (Machine.bit v 28) (Machine.fld v 21 16) (Machine.fld v 1 0)
    let s2 :=
      if Machine.bit v 31 || Machine.bit v 29 then
        if !s1.isUser then s1.denied
        else
          let c := if Machine.bit v 29 then s1.setSa i k {} else s1
          if Machine.bit v 31 && !s1.sec.error then c.setSa i k (s1.saStaged i) else c
      else s1
    if Machine.bit v 30 then
      let a := s2.sa i k
      (s2.wr64 (Reg.netSecSaPnLo i) a.pn.toNat).wrNat (Reg.netSecSaInfo i) (ofBool a.valid * 2 ^ 31 + ofBool a.near * 2 ^ 30)
    else s2

/-- SA_WRITE (R305). -/
def execSaWrite (i : Fin 26) (val : Word) (s : State) : Host.Outcome State Fault Refusal := .next (s.saSelWrite i.val val)

/-- SA_READ (R305). -/
def execSaRead (i : Fin 26) (val : Word) (s : State) : Host.Outcome State Fault Refusal := .next (s.saSelWrite i.val val)

/-- SA_CLEAR (R305). -/
def execSaClear (i : Fin 26) (val : Word) (s : State) : Host.Outcome State Fault Refusal := .next (s.saSelWrite i.val val)

/-- A write of NET_SEC_RXSC_CTRL: WRITE sets the SCI and VALID of a receive SC (R307). -/
def State.rxscWrite (s : State) (i : Nat) (v : Word) : State :=
  if !s.netMapped i true then s
  else
    let s1 := s.wrTyped (Reg.netSecRxscCtrl i) v
    if Machine.bit v 31 then
      let x := s1.netPort i
      let e := (Machine.bit v 30, BitVec.ofNat 64 (s1.rd64 (Reg.netSecRxscSciLo i)))
      s1.setNet i { x with rxsc := x.rxsc.set (fun _ => (false, 0)) (Machine.fld v 5 0) e }
    else s1

/-- RXSC_WRITE (R307). -/
def execRxscWrite (i : Fin 26) (val : Word) (s : State) : Host.Outcome State Fault Refusal := .next (s.rxscWrite i.val val)

/-- The full PN that the 32 bits of a SecTAG name: the one nearest above the lowest acceptable PN (extended packet
numbering). -/
def fullPn (lowest : BitVec 64) (pn32 : Nat) : BitVec 64 :=
  let lo := lowest.toNat % 2 ^ 32
  let hi := lowest.toNat / 2 ^ 32
  BitVec.ofNat 64 ((if pn32 < lo ∧ 2 ^ 31 ≤ lo - pn32 then hi + 1 else hi) * 2 ^ 32 + pn32)

/-- The confidentiality offset in bytes (Table 14.5); code 3, which the table does not name, acts as 0 (DESIGN CHOICE, log 114). -/
def confOffset (cfg : Word) : Nat :=
  match Machine.fld cfg 25 24 with
  | 1 => 30
  | 2 => 50
  | _ => 0

/-- What the SecY makes of a received frame (R307): the frame as it passes, or none, and whether its ICV failed. A frame whose ICV fails
passes, marked, only where the port lets frames start by cut-through (`cut`). VALIDATE 3, which Table 14.5 does not name, acts as
check (DESIGN CHOICE, log 114). -/
def State.secRx (s : State) (i : Nat) (bs : List Byte) (cut : Bool) : Option (List Byte) × Bool × State :=
  let cfg := s.rd (Reg.netSecCfg i)
  let et := at16 bs 12
  if 24 ≤ i ∨ !Machine.bit cfg 30 ∨ et = 0x888E ∨ et = 0x8808 then (some bs, false, s)
  else
    let mode := Machine.fld cfg 29 28
    let pass (s : State) : Option (List Byte) × Bool × State := (if mode = 2 then none else some bs, false, s)
    if mode = 0 then (some bs, false, s)
    else if et ≠ 0x88E5 then pass (s.bump (Reg.netSecRxUntagged i))
    else
      let sci : BitVec 64 := BitVec.ofNat 64 (ofBe ((bs.drop 20).take 8))
      let an := ofBe ((bs.drop 14).take 1) % 4
      match ((s.netPort i).rxsc.find? fun e => e.2.1 && e.2.2 == sci).map Prod.fst with
      | none => pass (s.bump (Reg.netSecRxNosa i))
      | some c =>
        let k := saKey true c an
        let a := s.sa i k
        if !a.valid || s.sec.error then pass (s.bump (Reg.netSecRxNosa i))
        else
          let pn := fullPn a.pn (ofBe ((bs.drop 16).take 4))
          let o := Config.macsecOpen (a.key, a.salt, a.ssci) (pn, sci) (confOffset cfg) bs
          if Machine.bit cfg 27 && decide (pn.toNat < a.pn.toNat) then (none, false, s.bump (Reg.netSecRxLate i))
          else if !o.2 then (if cut then some o.1 else none, true, s.bump (Reg.netSecRxBadicv i))
          else if mode = 2 then
            let low := max a.pn.toNat (pn.toNat + 1 - (s.rd (Reg.netSecReplayWin i)).toNat)
            (some o.1, false, s.setSa i k { a with pn := BitVec.ofNat 64 low })
          else (some o.1, false, s)

/-! ### Reception (R298, R301, R303, R308) -/

/-- Pause timers of the priorities of a received PAUSE or PFC frame (R302). -/
def State.pauseIn (s : State) (i : Nat) (enable : Nat) (quanta : List Nat) : State :=
  if !s.netUp i then s
  else
    let s1 := s.bump (Reg.netFcRx i)
    if s1.fcMode i = 0 then s1
    else
      s1.each ((List.range 8).filter fun c => enable / 2 ^ c % 2 == 1) fun c s =>
        let q := (quanta[c]?).getD 0
        let x := s.netPort i
        let t := s.raw + BitVec.ofNat 96 (q * 512 * nsUnit / max 1 (gbps (s.netPers i)))
        s.setNet i { x with pause := x.pause.set (fun _ => none) c (if q = 0 then none else some t) }

/-- PFC_RECEIVE (R302); a PAUSE frame acts on all eight priorities (R301). -/
def execPfcReceive (i : Fin 26) (enable : Fin 256) (quanta : List Nat) (s : State) : Host.Outcome State Fault Refusal :=
  .next (s.pauseIn i.val enable.val quanta)

/-- PAUSE_TIMER_EXPIRY (R302). -/
def State.pauseEnd (s : State) (i c : Nat) : State :=
  let x := s.netPort i
  match x.pause.get (fun _ => none) c with
  | some t => if s.reached t then s.setNet i { x with pause := x.pause.set (fun _ => none) c none } else s
  | none => s

/-- PAUSE_TIMER_EXPIRY (R302). -/
def execPauseTimerExpiry (i : Fin 26) (c : Fin 8) (at' : Raw) (s : State) : Host.Outcome State Fault Refusal :=
  .next ((s.advance at').pauseEnd i.val c.val)

/-- MAX_FRAME of a port, at most 10,240. -/
def State.maxFrame (s : State) (i : Nat) : Nat := min 10240 (s.fld (Reg.netPortCfg i) 13 0)

/-- A frame accepted by the MAC meets flow control and the receive buffer, and is offered to its pipeline (R17, R303). -/
def State.netOffer (s : State) (i : Nat) (f : Frame) : State :=
  let c := s.framePrio i f.bytes
  let n := unitsOf f.bytes.length
  let cap := s.fld (Reg.netFcLossy i) 15 0
  if !(s.fcPrios i).contains c && cap != 0 && decide (cap < s.occAll i) then s
  else if s.rxUnits i < s.occAll i + n then s.frameIn f true
  else (s.setOcc i c (s.occOf i c + n)).frameIn { f with buffered := true } false

/-- A received MAC control frame is consumed and acts where it is a PAUSE or PFC frame (R301, R302): opcode, then the quanta of all eight
priorities, or the enable bits and eight quanta. The layout is that of IEEE 802.3 Annex 31, which R301 names (PRESUMED, log 115). -/
def State.macControl (s : State) (i : Nat) (bs : List Byte) : State :=
  match at16 bs 14 with
  | 1 => s.pauseIn i 255 (List.replicate 8 (at16 bs 16))
  | 257 => s.pauseIn i (at16 bs 16 % 256) ((List.range 8).map fun c => at16 bs (18 + 2 * c))
  | _ => s

/-- A frame is a PAUSE or PFC frame. -/
def isPause (bs : List Byte) : Bool := at16 bs 12 == 0x8808 && (at16 bs 14 == 1 || at16 bs 14 == 257)

/-- The port lets frames start by cut-through: CT_EN or CT_CLASS (R245). -/
def State.ctPort (s : State) (i : Nat) : Bool :=
  if s.bit Reg.voqCtrl 31 then s.fld (Reg.voqPortCfg (devPort i)) 31 24 != 0 else s.bit Reg.voqCtrl 0

/-- Codewords that the port's FEC has corrected, and could not correct (Table 14.6); none without FEC (R296). -/
def State.fecCount (s : State) (i corr uncorr : Nat) : State :=
  if (s.netPort i).fec ≤ 1 then s else (s.bumpBy (Reg.netFecCorr i) corr).bumpBy (Reg.netFecUncorr i) uncorr

/-- A frame that the MAC has read goes to the SecY, and on with its stamp (R298, R307, R308). A frame that meets several cases of R298
counts in the first of them: DEDUCED, log 116. -/
def State.netAccept (s : State) (i : Nat) (bs : List Byte) (cap : Raw) (latency : Nat) : State :=
  let ok := fcsOk bs
  let s0 := if ok then s else s.bump (Reg.netRxFcsErr i)
  if !ok && !s.ctPort i then s0
  else if ok && isPause bs then s0.macControl i bs
  else
    let q := if ok then s0.secRx i bs (s.ctPort i) else (some bs, false, s0)
    match q.1 with
    | none => q.2.2
    | some b =>
      let m := s0.ptpOf (devPort i) b
      let st := s0.portStamp (devPort i) true cap latency (ptpDomain m b)
      if !q.2.2.serving && m.isNone then q.2.2
      else if q.2.2.maxFrame i < b.length then q.2.2.bump (Reg.netRxOversize i)
      else
        let f : Frame := { bytes := b, port := devPort i, stamp := st, bad := !ok || q.2.1 }
        (if f.bad then q.2.2 else q.2.2.bump (Reg.netRxFrames i)).netOffer i f

/-- NET_FRAME_RECEIVE (R298, R307, R308): received data frames are dropped in modes other than ACTIVE and MAINTENANCE, PTP frames
in those and STANDBY pass (Table 03.3). `corr` and `uncorr` are the codewords of the port's FEC since the last frame. -/
def State.netReceive (s : State) (i : Nat) (bs : List Byte) (cap : Raw) (latency corr uncorr : Nat) : State :=
  if !s.netUp i then s
  else
    let s1 := s.fecCount i corr uncorr
    if !(s.serving || s.dev.mode == .standby) then s1
    else if bs.length < 64 then s1.bump (Reg.netRxRunt i)
    else s1.netAccept i bs cap latency

/-- NET_FRAME_RECEIVE (R298). -/
def execNetFrameReceive (i : Fin 26) (bytes : List Byte) (cap : Raw) (latency corr uncorr : Nat)
    (s : State) : Host.Outcome State Fault Refusal :=
  .next (s.netReceive i.val bytes cap latency corr uncorr)

/-! ### Flow control sent (R303) -/

/-- The priorities in XOFF once their occupancy is judged: at XOFF or above they enter, at XON or below they leave. -/
def State.xoffNow (s : State) (i : Nat) : BitVec 8 :=
  (s.fcPrios i).foldl (fun w c =>
    let t := s.fcThr i c
    let n := s.occOf i c
    let was := (s.netPort i).xoff.getLsbD c
    let on := if was then decide (Machine.fld t 15 0 < n) else decide (Machine.fld t 31 16 ≤ n)
    if on then w ||| BitVec.ofNat 8 (2 ^ c) else w) 0

/-- A PFC frame with the state of every enabled priority (R303). -/
def State.sendPfc (s : State) (i : Nat) : State :=
  let en := ((s.fcPrios i).map fun c => 2 ^ c).sum
  let q := (List.range 8).map fun c => if (s.netPort i).xoff.getLsbD c then s.fld (Reg.netFcCfg i) 15 0 else 0
  (s.emit (.pfc (devPort i) en q)).bump (Reg.netFcTx i)

/-- Flow control leaves in the modes whose ports send (Table 03.3): in SAFE they send idle only. -/
def State.fcSends (s : State) (i : Nat) : Bool := s.netUp i && s.dev.mode != .safe

/-- An occupancy that has crossed XOFF or XON is told at once (R303). -/
def State.pfcDue (s : State) (i : Nat) : State :=
  if s.fcSends i && s.xoffNow i != (s.netPort i).xoff then
    (s.setNet i { s.netPort i with xoff := s.xoffNow i, pfcAt := s.raw }).sendPfc i
  else s

/-- PFC_SEND (R303). -/
def execPfcSend (i : Fin 26) (s : State) : Host.Outcome State Fault Refusal := .next (s.pfcDue i.val)

/-- The raw value at which the PFC frame is repeated: PAUSE_QUANTA / 2 after the last (R303). -/
def State.pfcNext (s : State) (i : Nat) : Raw :=
  (s.netPort i).pfcAt +
    BitVec.ofNat 96 (s.fld (Reg.netFcCfg i) 15 0 * 512 * nsUnit / (2 * max 1 (gbps (s.netPers i))))

/-- PFC_REPEAT (R303): while any priority stays in XOFF. -/
def State.pfcRepeat (s : State) (i : Nat) : State :=
  if s.fcSends i && (s.netPort i).xoff != 0 && s.reached (s.pfcNext i) then
    (s.setNet i { s.netPort i with pfcAt := s.raw }).sendPfc i
  else s

/-- PFC_REPEAT (R303). -/
def execPfcRepeat (i : Fin 26) (at' : Raw) (s : State) : Host.Outcome State Fault Refusal :=
  .next ((s.advance at').pfcRepeat i.val)

/-! ### One-step insertion (R89) -/

/-- A checksum updated for a 16-bit word that changes (R193). -/
def csumAdj (c old new : Nat) : Nat := 65535 - fold16 (fold16 (65535 - c % 65536 + (65535 - old % 65536)) + new % 65536)

/-- An event message with twoStepFlag = 0 completed with the egress time (R89). -/
def oneStep (m : Option Ptp) (bs : List Byte) (t : BitVec 96) : List Byte :=
  match m with
  | none => bs
  | some ⟨p, ip, u⟩ =>
    let ty := ofBe ((bs.drop p).take 1) % 16
    let two := ofBe ((bs.drop (p + 6)).take 1) / 2 % 2 == 1
    let trail := decide (p + at16 bs (p + 2) + 2 ≤ u + at16 bs (u + 4))
    if 4 ≤ ty ∨ two ∨ (ip = 6 ∧ !trail) then bs
    else
      let corr := ofBe ((bs.drop (p + 8)).take 8)
      let b1 :=
        if ty = 0 then
          putAt (putAt bs (p + 34) (beBytes 6 (secOf t) ++ beBytes 4 (nsOf t))) (p + 8) (beBytes 8 ((corr + fracOf t) % 2 ^ 64))
        else putAt bs (p + 8) (beBytes 8 ((corr + t.toNat) % 2 ^ 64))
      if ip = 4 then putAt b1 (u + 6) [0, 0]
      else if ip = 6 then
        let e := u + at16 bs (u + 4) - 2
        let msg (b : List Byte) : Nat := sum16 ((b.drop p).take (e - p))
        let odd := (e - p) % 2
        let old := if odd = 0 then at16 bs e else at16 bs e % 256 * 256 + at16 bs e / 256
        let new := fold16 (old + fold16 (msg bs + (65535 - msg b1)))
        putAt b1 e (beBytes 2 (if odd = 0 then new else new % 256 * 256 + new / 256))
      else b1

/-! ### Transmission from staging (R246, R267, R270, R302, R306) -/

/-- The SA that protects a transmitted frame, its PN counted; none drops the frame (R306). -/
def State.secTx (s : State) (i : Nat) (bs : List Byte) : Option (Option (Nat × BitVec 64 × BitVec 64)) × State :=
  let cfg := s.rd (Reg.netSecCfg i)
  let et := at16 bs 12
  if 24 ≤ i ∨ !Machine.bit cfg 31 ∨ et = 0x888E ∨ et = 0x8808 then (some none, s)
  else if s.sec.error then (none, s.bump Reg.secErrDrop)
  else
    let an := Machine.fld cfg 21 20
    let a := s.sa i an
    if !a.valid then (none, s)
    else if a.exhausted then (none, s.bump (Reg.netSecTxPnExh i))
    else
      let near := decide ((s.rd (Reg.netSecPnThresh i)).toNat ≤ a.pn.toNat / 2 ^ 32)
      let b := { a with pn := a.pn + 1, exhausted := a.pn.toNat + 1 == 2 ^ 64, near := a.near || near }
      let s1 := s.setSa i an b
      (some (some (an, a.pn, BitVec.ofNat 64 (s.rd64 (Reg.netSecTxSciLo i)))), if near && !a.near then s1.event (leafOf 9 i) i else s1)

/-- The frame as it goes on the line under an SA (R304): protected by the port's cipher suite, or as it is. -/
def State.secured (s : State) (i : Nat) (bs : List Byte) : Option (Nat × BitVec 64 × BitVec 64) → List Byte
  | some (an, pn, sci) =>
    let cfg := s.rd (Reg.netSecCfg i)
    let a := s.sa i an
    Config.macsecSeal (a.key, a.salt, a.ssci) (pn, sci) (if Machine.bit cfg 19 then some (confOffset cfg) else none) an bs
  | none => bs

/-- A frame leaves through the MAC. An event message of the host is completed on a ONE_STEP port (R88, R89); one in transit goes as it is.
`bad` ends it with an inverted FCS (R246). -/
def State.transmit (s : State) (i : Nat) (f : Stored) (cap : Raw) (latency : Nat) (bad : Bool) : State :=
  let m := s.ptpOf f.frame.port f.frame.bytes
  let domain := ptpDomain m f.frame.bytes
  let t := s.captured (s.stampView (devPort i) domain) cap (s.boundaryRaw (devPort i) false cap latency)
  let one := i < 24 && s.bit (Reg.timePortCfg (devPort i)) 9 && f.frame.host
  let bs := if one then oneStep m f.frame.bytes t else f.frame.bytes
  let q := s.secTx i bs
  match q.1 with
  | none => q.2
  | some sec =>
    let inv := f.frame.bad || bad
    let s1 := (q.2.emit (.ethernet (devPort i) (withFcs (s.secured i bs sec) inv) inv sec)).bump (Reg.netTxFrames i)
    match f.ts with
    | some (qn, id) => s1.txStamp qn ⟨BitVec.ofNat 16 id, devPort i, s1.portStamp (devPort i) false cap latency domain⟩
    | none => s1

/-- CT_THRESH in bytes (R246): 512 at basic level, at least 256 at expert level. -/
def State.ctThresh (s : State) : Nat := if s.bit Reg.voqCtrl 31 then max 256 (s.fld Reg.voqExpCfg 15 0) else 512

/-- The raw time that a frame of `n` bytes takes on the line of a port, with the 8 bytes before it (R270). -/
def State.lineTime (s : State) (i n : Nat) : Raw :=
  BitVec.ofNat 96 (ceilDiv ((n + 8) * 8 * nsUnit) (max 1 (gbps (s.netPers i))))

/-- Frame bytes that a running cut-through transmission has sent by now. -/
def State.txSent (s : State) (i : Nat) (r : TxRun) : Nat :=
  (s.raw - r.at').toNat * gbps (s.netPers i) / (8 * nsUnit) - 8

/-- The frame that a port started before it was whole ends here (R246, R292). -/
def State.txEnd (s : State) (i : Nat) (f : Stored) (r : TxRun) (bad : Bool) : State :=
  (s.setNet i { s.netPort i with tx := none }).transmit i f r.cap r.latency bad

/-- Staging that runs dry before the frame's end ends it with an inverted FCS (R246). -/
def State.txDry (s : State) (i : Nat) : State :=
  match (s.netPort i).tx with
  | some r =>
    if r.f.frame.bytes.length < s.txSent i r then (s.bump Reg.voqCtUnderrun).txEnd i r.f r true else s
  | none => s

/-- The pause timer of a priority runs (R302). -/
def State.paused (s : State) (i c : Nat) : Bool := ((s.netPort i).pause.get (fun _ => none) c).any fun t => !s.reached t

/-- A class may start on a port: it is not paused, on a network port its gate lets its head through, and its head is whole or has started
by cut-through with CT_THRESH bytes staged (R246, R267, R270, R302). -/
def State.classStarts (s : State) (i c : Nat) : Bool :=
  match headOf c (s.staging (devPort i)) with
  | some f =>
    s.passes f.frame && !s.paused i c && (decide (24 ≤ i) || s.gateLets i c (txLen f)) &&
      (f.part.isNone || (f.ct && decide (s.ctThresh ≤ f.frame.bytes.length)))
  | none => false

/-- The head of a class starts (R246, R248): it holds the line for its length. An uncorrectable error in staging drops it (`bad` 1), or
ends it with an inverted FCS (2) (Table 17.1 KIND 8). -/
def State.txStart (s : State) (i : Nat) (f : Stored) (cap : Raw) (latency : Nat) (bad : Fin 3) : State :=
  let s0 := s.setStaging (devPort i) ((s.staging (devPort i)).erase f)
  let s1 := if bad.val = 0 then s0 else s0.memoryError 8 true 0 0 0
  if bad.val = 1 then s1 else
  let s2 := s1.setNet i { s1.netPort i with wire := s1.raw + s1.lineTime i (txLen f) }
  if f.part.isSome then s2.setNet i { s2.netPort i with tx := some ⟨f, s2.raw, cap, latency⟩ }
  else s2.transmit i f cap latency (bad.val == 2)

/-- STAGING_TRANSMIT (R267, R270, R271, R303): a due PFC frame goes first, oversize heads are dropped, and with the line free the highest
class that may start sends its head. -/
def State.stagingTransmit (s : State) (i : Nat) (cap : Raw) (latency : Nat) (bad : Fin 3) : State :=
  if !s.netUp i then s
  else
    let s0 := (s.pfcDue i).txDry i
    let s1 := if i < 24 then s0.testHeads i else s0
    if (s1.netPort i).tx.isSome || !s1.reached (s1.netPort i).wire then s1
    else
      match [7, 6, 5, 4, 3, 2, 1, 0].find? fun c => s1.classStarts i c with
      | some c =>
        match headOf c (s1.staging (devPort i)) with
        | some f => s1.txStart i f cap latency bad
        | none => s1
      | none => s1

/-- STAGING_TRANSMIT (R270). -/
def execStagingTransmit (i : Fin 26) (cap : Raw) (latency : Nat) (bad : Fin 3) (s : State) : Host.Outcome State Fault Refusal :=
  .next ((s.advance cap).stagingTransmit i.val cap latency bad)

/-! ### Frames that the port sends while they arrive (R246, R292) -/

/-- Change the frame of reassembly context `k` in the staging buffer, or in transmission, of network port `i`. -/
def State.partUpd (s : State) (i k : Nat) (g : Stored → Stored) : State :=
  let s1 := s.setStaging (devPort i) ((s.staging (devPort i)).map fun f => if f.part = some k then g f else f)
  match (s1.netPort i).tx with
  | some r => if r.f.part = some k then s1.setNet i { s1.netPort i with tx := some { r with f := g r.f } } else s1
  | none => s1

/-- The frame of context `k` is whole: it waits in staging, or its transmission ends. -/
def State.partEnd (s : State) (i k : Nat) (f : Stored) : State :=
  let s1 := s.setStaging (devPort i) ((s.staging (devPort i)).map fun x => if x.part = some k then f else x)
  match (s1.netPort i).tx with
  | some r => if r.f.part = some k then s1.txEnd i f r false else s1
  | none => s1

/-- The frame of context `k` is discarded: it leaves staging, and one already started ends with an inverted FCS (R292). -/
def State.partDrop (s : State) (i k : Nat) : State :=
  let s1 := s.setStaging (devPort i) ((s.staging (devPort i)).filter fun x => x.part != some k)
  match (s1.netPort i).tx with
  | some r => if r.f.part = some k then s1.txEnd i r.f r true else s1
  | none => s1

end Sys2Proof.Machine
end

