-- ==== Sys2Proof/Machine/Sextant.lean ====
section
/-!
DEFINITION. Machine/Sextant.lean: forwarding tables, the update sequencer, learning and ageing, rehash, trie rebuild, Fix
check, bulk DMA (chapter 10).
-/
namespace Sys2Proof.Machine

/-! ### Tables (R203) -/

/-- Entries that a table of a sub-kind can have (Table 10.1). -/
def subCap (sub : Nat) : Nat :=
  match sub with
  | 3 => 1048576
  | 4 | 6 => 65536
  | 5 => 524288
  | 7 => 262144
  | _ => 2 ^ 24 - 1

/-- The shape of Sextant table `t`, when it is VALID. A size above the capacity of Table 10.1 acts as that capacity: DESIGN CHOICE,
log 103. -/
def State.sxtTable (s : State) (t : Nat) : Option TableShape :=
  (s.dev.body.carve.tables.find? fun x => x.table == t && x.kind == 4).map fun x => { x with size := min x.size (subCap x.sub) }

/-- The sub-kind of a VALID table. -/
def State.sxtSub (s : State) (t : Nat) : Option Nat := (s.sxtTable t).map fun x => x.sub

/-- Buckets per way (Table 10.1). -/
def State.perWay (s : State) : Nat := if s.dev.body.carve.full then 65536 else 155648

/-- SXT_EXPERT_EN. -/
def State.sxtExpert (s : State) : Bool := s.bit Reg.sxtCtrl 31

/-- MAX_RELOC (Table 10.9): 0 acts as 1, above 64 as 64. -/
def State.maxReloc (s : State) : Nat := if s.sxtExpert then max 1 (min 64 (s.fld Reg.sxtExpCfg 14 8)) else 64

/-- The age time in s (R220). -/
def State.ageTime (s : State) : Nat :=
  if s.sxtExpert then s.fld Reg.sxtExpCfg 31 16
  else match s.fld Reg.sxtCtrl 9 8 with
    | 0 => 300
    | 1 => 60
    | 2 => 1200
    | _ => 0

/-- Dynamic entries the device holds (Table 10.1). -/
def dynMax : Nat := 1048576

/-! ### Exact-match: slots, lookup, insert (R212 to R215) -/

/-- The bucket of a key in a way under a seed (R212). -/
def bucketOf (seed : Word) (perWay t key w : Nat) : Nat :=
  crc32c (seed.toNat ^^^ (w * 0x9E3779B9 % 2 ^ 32)) (leBytes 1 t ++ leBytes 20 key) * perWay / 2 ^ 32

/-- The 32 candidate slots of an exact-match key under a seed: ways ascending, slots ascending. -/
def candSlots (seed : Word) (perWay t key : Nat) : List Nat :=
  (List.range 4).flatMap fun w => (List.range 8).map fun i => (w * perWay + bucketOf seed perWay t key w) * 8 + i

/-- The 32 candidate slots of a prefix in the Compact length table `t`. A slot is numbered by bucket, table, way and place. -/
def lpmCandSlots (seed : Word) (t key : Nat) : List Nat :=
  (List.range 4).flatMap fun w => (List.range 8).map fun i => ((Config.lpmBucket seed t key w * 1024 + t % 1024) * 4 + w) * 8 + i

/-- The status register of a hash memory: exact-match, or (`lp`) the Compact length tables. -/
def hashStatus (lp : Bool) : Nat := if lp then Reg.sxtLpmStatus else Reg.sxtEmStatus

/-- Its seed register; SEED_NEXT follows it. -/
def hashSeed (lp : Bool) : Nat := if lp then Reg.sxtLpmSeed else Reg.sxtEmSeed

/-- SEED_NEXT. -/
def hashSeedNext (lp : Bool) : Nat := if lp then Reg.sxtLpmSeedNext else Reg.sxtEmSeedNext

/-- DUAL_SEED of a hash memory. -/
def State.dual (s : State) (lp : Bool) : Bool := s.bit (hashStatus lp) 30

/-- The candidate slots of a key under the current seed, or under SEED_NEXT. -/
def State.cands (s : State) (lp next : Bool) (t key : Nat) : List Nat :=
  let seed := s.rd (if next then hashSeedNext lp else hashSeed lp)
  if lp then lpmCandSlots seed t key else candSlots seed s.perWay t key

/-- The slots of a hash memory. -/
def State.slotMap (s : State) (lp : Bool) : SMap (Option EmEntry) := if lp then s.sxt.lpmh else s.sxt.em

/-- The entry in a slot. -/
def State.slotAt (s : State) (lp : Bool) (i : Nat) : Option EmEntry := (s.slotMap lp).get (fun _ => none) i

/-- Fill or free a slot. -/
def State.setSlot (s : State) (lp : Bool) (i : Nat) (e : Option EmEntry) : State :=
  (if lp then { s with sxt.lpmh := s.sxt.lpmh.set (fun _ => none) i e }
   else { s with sxt.em := s.sxt.em.set (fun _ => none) i e } : State).memWrite 3

/-- The entry in an exact-match slot. -/
def State.emAt (s : State) (i : Nat) : Option EmEntry := s.slotAt false i

/-- Fill or free an exact-match slot. -/
def State.setEm (s : State) (i : Nat) (e : Option EmEntry) : State := s.setSlot false i e

/-- The first of some slots that holds a key of a table. -/
def State.findIn (s : State) (lp : Bool) (t key : Nat) (l : List Nat) : Option (Nat × EmEntry) :=
  l.findSome? fun i => match s.slotAt lp i with
    | some e => if e.table == t && e.key == key then some (i, e) else none
    | none => none

/-- The slot and entry of a key (R213): its candidate buckets under the current seed, ways ascending, and while DUAL_SEED is 1 those
under SEED_NEXT. -/
def State.hashFind (s : State) (lp : Bool) (t key : Nat) : Option (Nat × EmEntry) :=
  s.findIn lp t key (s.cands lp false t key ++ if s.dual lp then s.cands lp true t key else [])

/-- An exact-match lookup (R213). -/
def State.emFind (s : State) (t key : Nat) : Option (Nat × EmEntry) := s.hashFind false t key

/-- One level of the breadth-first search (R214): each path of occupied slots, newest first, is extended to the slots of the
resident entry's other buckets; a free one ends the search. While DUAL_SEED is 1 only entries already placed under the new seed
move (R216). -/
def State.relocLevel (s : State) (lp : Bool) :
    List (List Nat) → List Nat → List (List Nat) → Option (List Nat) × List (List Nat) × List Nat
  | [], seen, acc => (none, acc, seen)
  | p :: ps, seen, acc =>
    match p.head?.bind (s.slotAt lp) with
    | some e =>
      if s.dual lp && !e.fresh then s.relocLevel lp ps seen acc
      else
        let cur := p.head?.getD 0 / 8
        let alts := (s.cands lp (s.dual lp) e.table e.key).filter fun i => i / 8 != cur
        match alts.find? fun i => (s.slotAt lp i).isNone with
        | some i => (some (i :: p), acc, seen)
        | none =>
          let new := alts.filter fun i => !seen.contains i
          s.relocLevel lp ps (new ++ seen) (acc ++ new.map fun i => i :: p)
    | none => s.relocLevel lp ps seen acc

/-- A path of at most `n` moves to a free slot, newest slot first (R214). -/
def State.relocPath (s : State) (lp : Bool) : Nat → List (List Nat) → List Nat → Option (List Nat)
  | 0, _, _ => none
  | n + 1, front, seen =>
    match s.relocLevel lp front seen [] with
    | (some p, _, _) => some p
    | (none, front', seen') => if front' = [] then none else s.relocPath lp n front' seen'

/-- Execute the moves of a path from its free end back; the last slot of the list is left for the new entry (R214, R215). -/
def State.moveAlong (s : State) (lp : Bool) : List Nat → State
  | [] => s
  | [_] => s
  | a :: b :: ps => ((s.setSlot lp a (s.slotAt lp b)).setSlot lp b none).moveAlong lp (b :: ps)

/-- Place an entry whose key is absent: a free candidate slot, or a relocation path (R214); while DUAL_SEED is 1, under SEED_NEXT (R216;
after a rehash that did not complete: DEDUCED, log 104). Answers the moves made. -/
def State.hashPlace (s : State) (lp : Bool) (e : EmEntry) : Option Nat × State :=
  let e := { e with fresh := s.dual lp }
  let cs := s.cands lp (s.dual lp) e.table e.key
  match cs.find? fun i => (s.slotAt lp i).isNone with
  | some i => (some 0, s.setSlot lp i (some e))
  | none =>
    match s.relocPath lp s.maxReloc (cs.map fun i => [i]) cs with
    | some p =>
      let n := p.length - 1
      (some n, ((s.moveAlong lp p).setSlot lp (p.getLastD 0) (some e)).bumpBy Reg.sxtRelocs n)
    | none => (none, s)

/-- Place an exact-match entry. -/
def State.emPlace (s : State) (e : EmEntry) : Option Nat × State := s.hashPlace false e

/-- An insert that finds no place (R214). -/
def State.insertFailed (s : State) (lp : Bool) : State :=
  ((s.setBit (hashStatus lp) 31 true).bump Reg.sxtInsertFails).event (leafOf 14 0) 0

/-- Dynamic entries. -/
def State.dynCount (s : State) : Nat :=
  (s.sxt.em.filter fun x => match x.2 with
    | some e => !e.static
    | none => false).length

/-- EM_INSERT (R214): RESULT, relocations, state. A dynamic entry beyond the capacity of Table 10.1 ends with RESULT 2 and asks for no
rehash: DESIGN CHOICE, log 103. -/
def State.emInsert (s : State) (t key : Nat) (result : BitVec 64) (static : Bool) : Nat × Nat × State :=
  let old := s.emFind t key
  if !static && (match old with
      | some (_, e) => e.static
      | none => true) && decide (dynMax ≤ s.dynCount) then (2, 0, s.bump Reg.sxtInsertFails)
  else
    match old with
    | some (i, e) =>
      (0, 0, s.setEm i (some { e with result := result, static := static, frozen := false, age := 0, moves := 0 }))
    | none =>
      match s.emPlace { table := t, key := key, result := result, static := static } with
      | (some n, s1) => (0, n, s1)
      | (none, s1) => (2, 0, s1.insertFailed false)

/-- EM_DELETE (R228). -/
def State.emDelete (s : State) (t key : Nat) : Nat × State :=
  match s.emFind t key with
  | some (i, _) => (0, s.setEm i none)
  | none => (1, s)

/-- Slots in use. -/
def State.emUsed (s : State) : Nat := (s.sxt.em.filter fun x => x.2.isSome).length

/-- The eight words of an exact-match entry (Table 10.10). -/
def emWords (e : EmEntry) : List Word :=
  toWords 2 e.result.toNat ++ toWords 5 e.key ++
  [BitVec.ofNat 32 (pack [(1, 1), (1, ofBool e.static), (1, ofBool e.hit), (1, ofBool e.frozen), (1, 0), (3, e.age), (4, e.moves),
    (12, 0), (8, e.table)])]

/-- Word `i` of an entry image. -/
def imgWord (d : List Word) (i : Nat) : Word := (d[i]?).getD 0

/-- Words `i` to `i + n − 1` of an entry image as a number. -/
def imgNum (d : List Word) (i n : Nat) : Nat := ofWords ((d.drop i).take n)

/-! ### LPM (R206, R207, R209 to R211) -/

/-- The bits of an address of a family. -/
def famBits (fam : Nat) : Nat := if fam = 1 then 128 else 32

/-- The key of a prefix: VRF, family, length, masked address. -/
def lpmKey (vrf fam len addr : Nat) : Nat :=
  let l := min len (famBits fam)
  ((vrf % 4096 * 2 + fam) * 256 + l) * 2 ^ 128 + addr % 2 ^ famBits fam / 2 ^ (famBits fam - l) * 2 ^ (famBits fam - l)

/-- VRF and family of a prefix key. -/
def lpmRoot (k : Nat) : Nat × Nat := (k / 2 ^ 137, k / 2 ^ 136 % 2)

/-- The length of a prefix key. -/
def lpmLen (k : Nat) : Nat := k / 2 ^ 128 % 256

/-- The Compact length table of a prefix, above the numbers of the image's tables. -/
def lpmTab (k : Nat) : Nat := 256 + (lpmRoot k).2 * 256 + lpmLen k

/-- (VRF, masked address) of a prefix: the key of its Compact length table (R209). -/
def lpmHash (k : Nat) : Nat := (lpmRoot k).1 * 2 ^ 128 + k % 2 ^ 128

/-- The prefix of an entry of a Compact length table. -/
def lpmOf (e : EmEntry) : Nat :=
  (((e.key / 2 ^ 128) * 2 + (e.table - 256) / 256) * 256 + e.table % 256) * 2 ^ 128 + e.key % 2 ^ 128

/-- A prefix lies in a Compact length table: the /0 routes lie in default slots (R209). -/
def State.lpmHashed (s : State) (k : Nat) : Bool := !s.dev.body.carve.full && lpmLen k != 0

/-- The result of an exact prefix. -/
def State.lpmAt (s : State) (k : Nat) : Option (BitVec 22) :=
  if s.lpmHashed k then (s.hashFind true (lpmTab k) (lpmHash k)).map fun x => BitVec.ofNat 22 x.2.result.toNat
  else s.sxt.lpm.get (fun _ => none) k

/-- Set or remove a prefix of a trie or a default slot. -/
def State.setLpm (s : State) (k : Nat) (r : Option (BitVec 22)) : State :=
  ({ s with sxt.lpm := s.sxt.lpm.set (fun _ => none) k r } : State).memWrite 3

/-- The three bits of a prefix in the filter of its length: counts keyed by bit and table (R209). -/
def State.filterKeys (s : State) (t key : Nat) : List Nat :=
  (List.range 3).map fun i => (Config.bloom t key i % max 1 s.dev.body.carve.filterBits) * 1024 + t

/-- The count behind a filter bit; the bit is set while it is not 0 (R211). -/
def State.filterCount (s : State) (b : Nat) : Nat := s.sxt.filters.get (fun _ => 0) b

/-- All three bits of a prefix are set in the filter of its length (R210). -/
def State.filterHas (s : State) (t key : Nat) : Bool := (s.filterKeys t key).all fun b => s.filterCount b != 0

/-- Set the filter bits of a prefix: each count grows up to 15 (R211). -/
def State.filterAdd (s : State) (t key : Nat) : State :=
  s.each (s.filterKeys t key) fun b s =>
    { s with sxt.filters := s.sxt.filters.set (fun _ => 0) b (min 15 (s.filterCount b + 1)) }

/-- Lower the filter bits of a prefix: a count that has reached 15 stays (R211). -/
def State.filterSub (s : State) (t key : Nat) : State :=
  s.each (s.filterKeys t key) fun b s =>
    if s.filterCount b = 15 then s else { s with sxt.filters := s.sxt.filters.set (fun _ => 0) b (s.filterCount b - 1) }

/-- Recompute the filters from the entries of the length tables (R211, R216). -/
def State.refilter (s : State) : State :=
  s.sxt.lpmh.foldl (fun s x => match x.2 with
    | some e => s.filterAdd e.table e.key
    | none => s) { s with sxt.filters := [] }

/-- Every prefix with its result. -/
def State.lpmAll (s : State) : List (Nat × BitVec 22) :=
  (s.sxt.lpm.filterMap fun e => e.2.map fun r => (e.1, r)) ++
    s.sxt.lpmh.filterMap fun x => x.2.map fun e => (lpmOf e, BitVec.ofNat 22 e.result.toNat)

/-- The populated roots (R206). -/
def State.lpmRoots (s : State) : List (Nat × Nat) := (s.lpmAll.map fun e => lpmRoot e.1).eraseDups

/-- Prefixes that a family may hold with `n` populated roots (Table 10.1, R206). -/
def State.lpmCapacity (s : State) (fam n : Nat) : Nat :=
  if s.dev.body.carve.full then
    if fam = 1 then 1048576 - (n - 64) * 8192 else 4194304 - (n - 64) * 16384
  else if fam = 1 then 131072 else 524288

/-- Prefixes of a family. -/
def State.lpmCount (s : State) (fam : Nat) : Nat := (s.lpmAll.filter fun e => (lpmRoot e.1).2 == fam).length

/-- The prefixes of a family are within its capacity, the reduction by its populated roots counted (R206). -/
def State.lpmFits (s : State) (fam : Nat) : Bool :=
  decide (s.lpmCount fam ≤ s.lpmCapacity fam ((s.lpmRoots.filter fun r => r.2 == fam).length))

/-- Add a prefix to a trie or default slot, or to its Compact length table: the entry first, then its filter bits (R211). Answers
whether it has a place, and the moves made. -/
def State.lpmPut (s : State) (k : Nat) (r : BitVec 22) : Option Nat × State :=
  if s.lpmHashed k then
    match s.hashFind true (lpmTab k) (lpmHash k) with
    | some (i, e) => (some 0, s.setSlot true i (some { e with result := r.setWidth 64 }))
    | none =>
      match s.hashPlace true { table := lpmTab k, key := lpmHash k, result := r.setWidth 64 } with
      | (some n, s1) => (some n, s1.filterAdd (lpmTab k) (lpmHash k))
      | (none, s1) => (none, s1)
  else (some 0, s.setLpm k (some r))

/-- Remove a prefix: a Compact entry is invalidated first, then its filter lowered (R211). -/
def State.lpmDrop (s : State) (k : Nat) : State :=
  if s.lpmHashed k then
    match s.hashFind true (lpmTab k) (lpmHash k) with
    | some (i, _) => (s.setSlot true i none).filterSub (lpmTab k) (lpmHash k)
    | none => s
  else s.setLpm k none

/-- LPM_ADD (R206, R207, R211): RESULT, relocations, state. `noSpace` says that free trie memory cannot hold the changed nodes; a new
prefix must also be within the capacity that the populated roots leave. -/
def State.lpmAdd (s : State) (k : Nat) (r : BitVec 22) (noSpace : Bool) : Nat × Nat × State :=
  let q := s.lpmPut k r
  if s.dev.body.carve.full && (noSpace || !((s.lpmAt k).isSome || q.2.lpmFits (lpmRoot k).2)) then (3, 0, s)
  else if !((s.lpmAt k).isSome || q.2.lpmFits (lpmRoot k).2) then (2, 0, s.insertFailed true)
  else
    match q.1 with
    | some n => (0, n, q.2)
    | none => (2, 0, s.insertFailed true)

/-- LPM_DEL (R207): its changed nodes too need free trie memory. -/
def State.lpmDel (s : State) (k : Nat) (noSpace : Bool) : Nat × State :=
  if (s.lpmAt k).isNone then (1, s)
  else if s.dev.body.carve.full && noSpace then (3, s)
  else (0, s.lpmDrop k)

/-- The results of the matching prefixes, longest first (R206). -/
def State.lpmMatches (s : State) (vrf fam addr : Nat) : List (BitVec 22) :=
  (List.range (famBits fam + 1)).reverse.filterMap fun l => s.lpmAt (lpmKey vrf fam l addr)

/-- The candidate lengths of a Compact lookup below a length, longest first: those whose filter bits are all set (R210). -/
def State.lpmCandidates (s : State) (vrf fam addr below : Nat) : List Nat :=
  (List.range below).reverse.filter fun l =>
    l != 0 && s.filterHas (lpmTab (lpmKey vrf fam l addr)) (lpmHash (lpmKey vrf fam l addr))

/-- The six words of a prefix (Table 10.10), padded to eight. -/
def lpmWords (k : Nat) (r : BitVec 22) : List Word :=
  let root := lpmRoot k
  toWords 4 (k % 2 ^ 128) ++
  [BitVec.ofNat 32 (root.2 * 2 ^ 31 + k / 2 ^ 128 % 256 * 2 ^ 16 + root.1), BitVec.ofNat 32 r.toNat, 0, 0]

/-- The prefix that command data names. -/
def dataPrefix (d : List Word) : Nat :=
  let w := imgWord d 4
  lpmKey (Machine.fld w 11 0) (Machine.fld w 31 31) (Machine.fld w 23 16) (imgNum d 0 4)

/-! ### Direct tables (R222) -/

/-- An entry of a direct table. -/
def State.directAt (s : State) (t i : Nat) : BitVec 64 := s.sxt.direct.get (fun _ => 0) (t * 2 ^ 20 + i)

/-- Write a direct entry whole. -/
def State.setDirect (s : State) (t i : Nat) (v : BitVec 64) : State :=
  ({ s with sxt.direct := s.sxt.direct.set (fun _ => 0) (t * 2 ^ 20 + i) v } : State).memWrite 3

/-- The VALID table of a sub-kind: the first the image carves. -/
def State.tableOf (s : State) (sub : Nat) : Nat :=
  ((s.dev.body.carve.tables.find? fun x => x.kind == 4 && x.sub == sub).map fun x => x.table).getD 0

/-- An entry of the direct table of a sub-kind; an index beyond the table reads as not VALID (R223). -/
def State.subEntry (s : State) (sub i : Nat) : BitVec 64 :=
  match s.dev.body.carve.tables.find? fun x => x.kind == 4 && x.sub == sub with
  | some x => if i < min x.size (subCap sub) then s.directAt x.table i else 0
  | none => 0

/-- Words of an entry of a sub-kind: two for next hops and multicast targets (Table 10.11). -/
def subWords (sub : Nat) : Nat := if sub = 3 ∨ sub = 7 then 2 else 1

/-! ### Bulk DMA ring (R229) -/

/-- A posted write of words to host memory. -/
def State.hostWords (s : State) (addr : Nat) (ws : List Word) : State :=
  s.toHost (BitVec.ofNat 64 addr) (ws.flatMap fun w => leBytes 4 w.toNat)

/-- Log2 of the ring's descriptors; none while it is disabled. -/
def dmaLog (v : Word) : Option Nat := if 6 ≤ v.toNat ∧ v.toNat ≤ 16 then some v.toNat else none

/-- Descriptors from HEAD to TAIL. -/
def State.dmaPosted (s : State) : Nat :=
  match dmaLog (s.rd Reg.sxtDmaSize) with
  | some n => ((s.rd Reg.sxtDmaTail).toNat + 2 ^ n - (s.rd Reg.sxtDmaHead).toNat % 2 ^ n) % 2 ^ n
  | none => 0

/-- The ring runs: a posted descriptor, no DMA_ERR, PCIe up. -/
def State.dmaReady (s : State) : Bool :=
  decide (s.dmaPosted ≠ 0) && !s.bit Reg.sxtDmaStatus 31 && !s.dev.perstLow

/-! ### The update sequencer (R204, R228) -/

/-- The root under rebuild, whose LPM commands wait until it has flipped (R208). -/
def State.rootWaits (s : State) (k : Nat) : Bool :=
  match s.sxt.trie with
  | some (r :: _) => r == lpmRoot k
  | _ => false

/-- SXT_CMD_DATA. -/
def State.cmdData (s : State) : List Word := (List.range 8).map fun i => s.rd (Reg.sxtCmdData i)

/-- The next register command, in the order of that source, and whether it is SXT_CMD. -/
def State.regHead (s : State) : Option (Bool × RegCmd) :=
  if s.bit Reg.sxtCmdStatus 31 && s.sxt.winAhead == 0 then
    some (true, { op := s.fld Reg.sxtCmd 27 24, table := s.fld Reg.sxtCmd 7 0, index := s.fld Reg.sxtCmdIndex 19 0, data := s.cmdData })
  else s.sxt.winq.head?.map fun c => (false, c)

/-- A command for a root under rebuild waits. -/
def State.cmdWaits (s : State) (op : Nat) (d : List Word) : Bool := (op == 4 || op == 5 || op == 6) && s.rootWaits (dataPrefix d)

/-- The least slot whose entry a running rehash has not placed under the new seed: the walk goes up the slots (DESIGN CHOICE, log
104). -/
def State.rehashNext (s : State) : Option Nat :=
  if s.sxt.rehash then
    ((s.slotMap (s.opArg .rehash % 2 == 1)).find? fun x => match x.2 with
      | some e => !e.fresh
      | none => false).map Prod.fst
  else none

/-- A source of the sequencer has an operation that can run. An ageing visit comes when its time does. -/
def State.seqReady (s : State) (k : Nat) : Bool :=
  match k with
  | 0 => match s.regHead with
    | some c => !s.cmdWaits c.2.op c.2.data
    | none => false
  | 1 => s.dmaReady && s.sxt.dump.isNone
  | 2 => !s.sxt.learns.isEmpty
  | 4 => s.rehashNext.isSome
  | _ => false

/-- The raw value at which a source became ready. -/
def State.readyAt (s : State) (k : Nat) : Raw := if k = 3 then s.raw else s.sxt.since.get (fun _ => 0) k

/-- Note which sources have become ready since a state before. -/
def State.noteReady (s old : State) : State :=
  s.each [0, 1, 2, 4] fun k s =>
    if s.seqReady k && !old.seqReady k then { s with sxt.since := s.sxt.since.set (fun _ => 0) k s.raw } else s

/-- The sequencer takes source `src` next (R204): in rotation after the source served last, or, when it has been idle, the source that
became ready first, those of one clock in the order of R204. -/
def State.seqTakes (s : State) (src : Nat) : Bool :=
  match s.sxt.turn with
  | some j => ((List.range 5).map fun i => (j + 1 + i) % 5).find? (fun k => k == src || s.seqReady k) == some src
  | none => [0, 1, 2, 3, 4].all fun k => k == src || !s.seqReady k ||
      decide ((s.readyAt src).toNat * 8 + src ≤ (s.readyAt k).toNat * 8 + k)

/-- An operation of source `src` has completed. -/
def State.seqDone (s : State) (src : Nat) : State :=
  { s with sxt.turn := if [0, 1, 2, 4].any s.seqReady then some src else none }

/-- One operation: OP, TABLE, INDEX, DATA. Answers RESULT, relocations, DATA as a read leaves it, the state (Table 10.6). -/
def State.sxtOp (s : State) (op t index : Nat) (d : List Word) (noSpace : Bool) : Nat × Nat × List Word × State :=
  let sub := (s.sxtTable t).map fun x => x.sub
  let size := ((s.sxtTable t).map fun x => x.size).getD 0
  let isLpm := sub == some 1 || sub == some 2
  let famOk := sub == some (1 + Machine.fld (imgWord d 4) 31 31)
  let isDirect := match sub with
    | some n => decide (3 ≤ n)
    | none => false
  let key := imgNum d 2 5
  if op = 1 ∨ op = 2 ∨ op = 3 then
    if sub != some 0 then (5, 0, d, s)
    else if op = 1 then
      let q := s.emInsert t key (BitVec.ofNat 64 (imgNum d 0 2)) (Machine.bit (imgWord d 7) 30)
      (q.1, q.2.1, d, q.2.2)
    else if op = 2 then
      let q := s.emDelete t key
      (q.1, 0, d, q.2)
    else
      match s.emFind t key with
      | some (_, e) => (0, 0, emWords e, s)
      | none => (1, 0, d, s)
  else if op = 4 ∨ op = 5 ∨ op = 6 then
    if !isLpm || !famOk then (5, 0, d, s)
    else
      let k := dataPrefix d
      if op = 4 then
        let q := s.lpmAdd k (BitVec.ofNat 22 (imgWord d 5).toNat) noSpace
        (q.1, q.2.1, d, q.2.2)
      else if op = 5 then
        let q := s.lpmDel k noSpace
        (q.1, 0, d, q.2)
      else
        match s.lpmAt k with
        | some r => (0, 0, lpmWords k r, s)
        | none => (1, 0, d, s)
  else if op = 7 ∨ op = 8 then
    if !isDirect then (5, 0, d, s)
    else if size ≤ index then (6, 0, d, s)
    else if op = 7 then (0, 0, d, s.setDirect t index (BitVec.ofNat 64 (imgNum d 0 (subWords (sub.getD 0)))))
    else (0, 0, toWords 8 (s.directAt t index).toNat, s)
  else (5, 0, d, s)

/-- A write of SXT_CMD (R228): a GO while PENDING is refused with RESULT 4. A GO whose OP is no register command of Table 10.6 suits no
table and is done at once with RESULT 5: DEDUCED, log 105. -/
def State.sxtCmdWrite (s : State) (v : Word) : State :=
  if Machine.bit v 31 ∧ s.bit Reg.sxtCmdStatus 31 then s.setFld Reg.sxtCmdStatus 27 24 4
  else
    let s1 := s.wrTyped Reg.sxtCmd v
    let op := Machine.fld v 27 24
    if !Machine.bit v 31 then s1
    else if op = 0 ∨ 8 < op then s1.wrNat Reg.sxtCmdStatus (2 ^ 30 + 5 * 2 ^ 24)
    else (({ s1 with sxt.winAhead := s1.sxt.winq.length } : State).wr Reg.sxtCmdStatus 0x80000000).noteReady s

/-- A record of the mismatch list, where the list has room (R226). -/
def State.fixRecord (s : State) (at' block rec kind : Nat) : State :=
  if at' < (s.rd Reg.sxtFixListMax).toNat then
    s.toHost (BitVec.ofNat 64 (s.rdWords Reg.sxtFixListLo 2 + 16 * at')) (leBytes 4 block ++ leBytes 2 rec ++ leBytes 1 kind ++ leBytes 9 0)
  else s

/-- A repair has completed: its mismatch is recorded, as repaired when it succeeded (R226, R227). -/
def State.repairDone (s : State) (r : Nat × Nat × Nat × Nat) (result : Nat) : State :=
  let ok := result == 0
  let s1 := s.fixRecord r.2.2.2 r.1 r.2.1 (if ok then r.2.2.1 + 2 else r.2.2.1)
  if ok then s1.wrNat (Reg.sxtFixOpPartial 3) ((s1.rd (Reg.sxtFixOpPartial 3)).toNat + 1) else s1

/-- The sequencer takes the next register command when it is of an operation: SXT_CMD completes with DONE, RESULT and the moves made. -/
def State.takeCommand (s : State) (op : Nat) (noSpace : Bool) : State :=
  match s.regHead with
  | none => s
  | some (own, c) =>
    if c.op ≠ op ∨ s.cmdWaits op c.data ∨ !s.seqTakes 0 then s
    else
      let q := s.sxtOp op c.table c.index c.data noSpace
      let s1 := q.2.2.2
      let s2 :=
        if own then (s1.wrWords (Reg.sxtCmdData 0) q.2.2.1).wrNat Reg.sxtCmdStatus (2 ^ 30 + q.1 * 2 ^ 24 + q.2.1 % 128)
        else
          let s3 : State := { s1 with sxt.winq := s1.sxt.winq.drop 1, sxt.winAhead := s1.sxt.winAhead - 1 }
          match c.repair with
          | some r => s3.repairDone r q.1
          | none => s3
      s2.seqDone 0

/-- EM_INSERT (R214). -/
def execEmInsert (s : State) : Host.Outcome State Fault Refusal := .next (s.takeCommand 1 false)

/-- EM_DELETE (R228). -/
def execEmDelete (s : State) : Host.Outcome State Fault Refusal := .next (s.takeCommand 2 false)

/-- EM_READ (R228). -/
def execEmRead (s : State) : Host.Outcome State Fault Refusal := .next (s.takeCommand 3 false)

/-- LPM_ADD (R207). -/
def execLpmAdd (noSpace : Bool) (s : State) : Host.Outcome State Fault Refusal := .next (s.takeCommand 4 noSpace)

/-- LPM_DEL (R207). -/
def execLpmDel (noSpace : Bool) (s : State) : Host.Outcome State Fault Refusal := .next (s.takeCommand 5 noSpace)

/-- LPM_READ (R228). -/
def execLpmRead (s : State) : Host.Outcome State Fault Refusal := .next (s.takeCommand 6 false)

/-- WRITE (R222, R409). -/
def execWriteCmd (s : State) : Host.Outcome State Fault Refusal := .next (s.takeCommand 7 false)

/-- READ (R228). -/
def execReadCmd (s : State) : Host.Outcome State Fault Refusal := .next (s.takeCommand 8 false)

/-! ### Bulk DMA (R229) -/

/-- The VALID entries of a table as 32-byte records, each with the number of its bucket, or, of an LPM table, its prefix (R229). -/
def State.tableRows (s : State) (t : Nat) : List (Nat × List Word) :=
  match s.sxtSub t with
  | some 0 => s.sxt.em.filterMap fun x => match x.2 with
    | some e => if e.table = t then some (x.1 / 8, emWords e) else none
    | none => none
  | some 1 => s.lpmAll.filterMap fun x => if (lpmRoot x.1).2 = 0 then some (x.1, lpmWords x.1 x.2) else none
  | some 2 => s.lpmAll.filterMap fun x => if (lpmRoot x.1).2 = 1 then some (x.1, lpmWords x.1 x.2) else none
  | _ => []

/-- The least bucket from a number on, with its records. -/
def nextRows (rows : List (Nat × List Word)) (from' : Nat) : Option (Nat × List (List Word)) :=
  match ((rows.map Prod.fst).filter fun g => from' ≤ g).min? with
  | some g => some (g, (rows.filter fun r => r.1 == g).map Prod.snd)
  | none => none

/-- The descriptor at HEAD is written back with OWN = 0 in one posted write, and HEAD moves on. A failed DMA write stops the ring. -/
def State.dmaBack (s : State) (op t index result n : Nat) (d : List Word) (ok : Bool) : State :=
  match dmaLog (s.rd Reg.sxtDmaSize) with
  | none => s
  | some k =>
    if !ok then s.setBit Reg.sxtDmaStatus 31 true
    else
      let h := (s.rd Reg.sxtDmaHead).toNat
      let w0 : Word := BitVec.ofNat 32 (op % 256 + t % 256 * 2 ^ 8 + result * 2 ^ 16)
      let ws := [w0, BitVec.ofNat 32 index, BitVec.ofNat 32 n, 0] ++ (d ++ List.replicate 8 0).take 8 ++ [0, 0, 0, 0]
      (s.hostWords (s.rdWords Reg.sxtDmaBaseLo 2 + 64 * h) ws).wrNat Reg.sxtDmaHead ((h + 1) % 2 ^ k)

/-- BULK_DMA_DESCRIPTOR (R229): the descriptor at HEAD is one operation. -/
def State.bulkTake (s : State) (op t index : Nat) (d : List Word) (noSpace ok : Bool) : State :=
  if !s.seqReady 1 ∨ s.cmdWaits op d ∨ !s.seqTakes 1 then s
  else
    let q := s.sxtOp op t index d noSpace
    (q.2.2.2.dmaBack op t index q.1 q.2.1 q.2.2.1 ok).seqDone 1

/-- BULK_DMA_DESCRIPTOR (R229). -/
def execBulkDmaDescriptor (op t : Fin 256) (index : Nat) (data : List Word) (noSpace ok : Bool) (s : State) :
    Host.Outcome State Fault Refusal :=
  .next (s.bulkTake op.val t.val index data noSpace ok)

/-- A DUMP reads its next bucket as it stands and writes its records, and ends when no bucket is left or its limit is reached
(R229). -/
def State.dumpStep (s : State) (x : DumpRun) (d : List Word) (ok : Bool) : State :=
  let s0 : State := { s with sxt.dump := none }
  let done := (s0.dmaBack 9 x.table 0 0 x.count d ok)
  if x.left = 0 then done
  else
    match nextRows (s.tableRows x.table) x.next with
    | none => done
    | some (g, recs) =>
      if !ok then s0.setBit Reg.sxtDmaStatus 31 true
      else
        let r := recs.take x.left
        let y := { x with next := g + 1, left := x.left - r.length, count := x.count + r.length, addr := x.addr + 32 * r.length }
        { s.hostWords x.addr r.flatten with sxt.dump := some y }

/-- DUMP (R229): the descriptor at HEAD starts the run, and each further DUMP command reads one more bucket, so that other operations
interleave; for a table that is not VALID or neither exact-match nor LPM it is written back with RESULT 5. -/
def State.dumpTake (s : State) (t : Nat) (d : List Word) (ok : Bool) : State :=
  match s.sxt.dump with
  | some x => if s.dmaReady then s.dumpStep x d ok else s
  | none =>
    if !s.seqReady 1 ∨ !s.seqTakes 1 then s
    else
      let isTable := match s.sxtSub t with
        | some k => decide (k ≤ 2)
        | none => false
      if !isTable then (s.dmaBack 9 t 0 5 0 d ok).seqDone 1
      else s.dumpStep { table := t, left := (imgWord d 2).toNat, addr := imgNum d 0 2 } d ok

/-- DUMP (R229). -/
def execDump (t : Fin 256) (data : List Word) (ok : Bool) (s : State) : Host.Outcome State Fault Refusal :=
  .next (s.dumpTake t.val data ok)

/-- A write of SXT_DMA_TAIL posts descriptors. -/
def State.dmaTailWrite (s : State) (v : Word) : State := (s.wrTyped Reg.sxtDmaTail v).noteReady s

/-- SXT_DMA_TAIL_WRITE (R229). -/
def execSxtDmaTailWrite (val : Word) (s : State) : Host.Outcome State Fault Refusal := .next (s.dmaTailWrite val)

/-- A write of SXT_DMA_SIZE that enables the ring re-enables a stopped one (R229). -/
def State.dmaSizeWrite (s : State) (v : Word) : State :=
  let s1 := s.wrTyped Reg.sxtDmaSize v
  (if (dmaLog (s1.rd Reg.sxtDmaSize)).isSome then s1.setBit Reg.sxtDmaStatus 31 false else s1).noteReady s

/-! ### Notifications (R221) -/

/-- Records the notification queue holds. -/
def noteMax : Nat := 16384

/-- A notification of a table with NOTIFY = 1 (R221, Table 10.4). -/
def State.note (s : State) (cause t port : Nat) (result : BitVec 64) (key : Nat) : State :=
  if !s.bit (Reg.sxtTblCfg t) 28 then s
  else if s.sxt.notes.length < noteMax then
    let n : Note := ⟨BitVec.ofNat 32 (2 ^ 31 + cause * 2 ^ 24 + t % 256 * 2 ^ 8 + port % 128),
      toWords 2 result.toNat ++ toWords 2 key⟩
    let s1 := { s with sxt.notes := s.sxt.notes ++ [n] }
    if s.sxt.notes.isEmpty then s1.event (leafOf 14 2) 0 else s1
  else (s.bump Reg.sxtNoteDrop).event (leafOf 14 4) 0

/-- A read of SXT_NOTE_HDR removes the oldest record and captures it (R221). -/
def State.noteRead (s : State) : State :=
  match s.sxt.notes with
  | [] => s.ret 0
  | n :: ns => (({ s with sxt.notes := ns } : State).wrWords (Reg.sxtNoteData 0) n.data).ret n.hdr

/-- NOTE_READ (R221). -/
def execNoteRead (s : State) : Host.Outcome State Fault Refusal := .next s.noteRead

/-! ### Learning (R217 to R219) -/

/-- Learns the FIFO holds. -/
def learnMax : Nat := 8192

/-- A LEARN primitive submits a learn (R217): none when the table is no VALID exact-match table (Table 10.12) or has LEARN_EN = 0; true
when accepted, false when discarded. -/
def State.submitLearn (s : State) (l : Learn) : Option Bool × State :=
  if s.sxtSub l.table ≠ some 0 ∨ !s.bit (Reg.sxtTblCfg l.table) 31 then (none, s)
  else if s.sxt.learns.length < learnMax then
    (some true, ({ s with sxt.learns := s.sxt.learns ++ [l] } : State).noteReady s)
  else (some false, (s.bump Reg.sxtLearnDrop).event (leafOf 14 3) 0)

/-- SXT_MOVE_LIMIT: 0 acts as 1. -/
def State.moveLimit (s : State) : Nat := max 1 (s.fld Reg.sxtMoveLimit 3 0)

/-- Table 10.2, by the table as it stands. -/
def State.learn (s : State) (l : Learn) : State :=
  let host := s.bit (Reg.sxtTblCfg l.table) 30
  let req := s.note 7 l.table l.port l.result l.key
  match s.emFind l.table l.key with
  | none =>
    if host then req
    else if dynMax ≤ s.dynCount then s.bump Reg.sxtLearnLimit
    else
      match s.emPlace { table := l.table, key := l.key, result := l.result } with
      | (some _, s1) => s1.note 1 l.table l.port l.result l.key
      | (none, s1) => (s1.insertFailed false).note 5 l.table l.port l.result l.key
  | some (i, e) =>
    let same := decide (e.result = l.result)
    let hit := if host then s else s.setEm i (some { e with hit := true })
    if e.static then (if same then hit else s.note 6 l.table l.port l.result l.key)
    else if e.frozen then (if same then hit else s.bump Reg.sxtLearnFrozen)
    else if same then hit.bump Reg.sxtLearnDup
    else if host then req
    else if e.moves < s.moveLimit then
      (s.setEm i (some { e with result := l.result, moves := e.moves + 1, hit := true })).note 2 l.table l.port l.result l.key
    else
      ((s.setEm i (some { e with frozen := true, frozenAt := s.raw })).note 3 l.table l.port e.result l.key).event (leafOf 14 1)
        l.table

/-- LEARN_TAKEN (R218): the sequencer takes the oldest learn. -/
def State.learnTaken (s : State) : State :=
  match s.sxt.learns with
  | [] => s
  | l :: ls => if s.seqTakes 2 then (({ s with sxt.learns := ls } : State).learn l).seqDone 2 else s

/-- LEARN_TAKEN (R218). -/
def execLearnTaken (s : State) : Host.Outcome State Fault Refusal := .next s.learnTaken

/-- MOVES_CLEAR (R219): at each whole second of the raw counter. -/
def State.movesClear (s : State) : State :=
  if s.raw.toNat % (1000000000 * nsUnit) = 0 then
    { s with sxt.em := s.sxt.em.map fun x => (x.1, x.2.map fun e => { e with moves := 0 }) }
  else s

/-- MOVES_CLEAR (R219). -/
def execMovesClear (at' : Raw) (s : State) : Host.Outcome State Fault Refusal := .next (s.advance at').movesClear

/-- A quarter of the age time, in raw units. -/
def State.sweepStep (s : State) : Nat := s.ageTime * 1000000000 * nsUnit / 4

/-- What the sweep does to an entry it visits (R219, R220). A frozen entry whose FREEZE_S have passed is freed first. -/
def State.ageEntry (s : State) (i : Nat) (e0 : EmEntry) : State :=
  let freeze := if s.sxtExpert then s.fld Reg.sxtExpCfg 7 0 else 0
  let thaw := e0.frozen && freeze != 0 && decide (e0.frozenAt.toNat + freeze * 1000000000 * nsUnit ≤ s.raw.toNat)
  let e := if thaw then { e0 with frozen := false } else e0
  if e.hit then s.setEm i (some { e with hit := false, age := 0 })
  else if 3 ≤ e.age + 1 then ((s.setEm i none).bump Reg.sxtAged).note 4 e.table 0 e.result e.key
  else s.setEm i (some { e with age := e.age + 1 })

/-- AGEING_VISIT (R220): the sweep visits a dynamic entry of a table with AGE_EN, a quarter of the age time after its last visit of that
slot. -/
def State.ageVisit (s : State) (i : Nat) : State :=
  match s.emAt i with
  | none => s
  | some e =>
    if e.static || !s.bit (Reg.sxtTblCfg e.table) 29 || s.ageTime == 0 || !s.seqTakes 3 then s
    else if s.raw.toNat < (s.sxt.swept.get (fun _ => 0) i).toNat + s.sweepStep then s
    else (({ s with sxt.swept := s.sxt.swept.set (fun _ => 0) i s.raw } : State).ageEntry i e).seqDone 3

/-- AGEING_VISIT (R220). -/
def execAgeingVisit (slot : Fin 4980736) (at' : Raw) (s : State) : Host.Outcome State Fault Refusal :=
  .next ((s.advance at').ageVisit slot.val)

/-! ### Rehash (R216) -/

/-- Mark every entry of a hash memory as placed under the current seed. -/
def State.hashSettle (s : State) (lp : Bool) : State :=
  let old (m : SMap (Option EmEntry)) : SMap (Option EmEntry) := m.map fun x => (x.1, x.2.map fun e => { e with fresh := false })
  if lp then { s with sxt.lpmh := old s.sxt.lpmh } else { s with sxt.em := old s.sxt.em }

/-- TARGET of a rehash: exact-match, or (true) the Compact length tables. -/
def State.rehashLpm (s : State) : Bool := s.opArg .rehash % 2 == 1

/-- START of a rehash: REHASH_REQUESTED clears and DUAL_SEED is set. -/
def State.rehashStart (s : State) : State :=
  if !opAllowed .rehash s.dev.mode 0 0 then s.opRefuse .rehash 3
  else
    let r := hashStatus s.rehashLpm
    let s1 := ((s.opBegin .rehash).setBit r 31 false).setBit r 30 true
    ({ s1.hashSettle s.rehashLpm with sxt.rehash := true } : State).noteReady s

/-- A write of SXT_REHASH_OP_CTRL; ABORT leaves DUAL_SEED at 1. -/
def State.rehashCtrlWrite (s : State) (v : Word) : State :=
  s.opCtrlWrite .rehash v State.rehashStart fun s => { s with sxt.rehash := false }.opAbort .rehash 1

/-- REHASH_START (R216). -/
def execRehashStart (val : Word) (s : State) : Host.Outcome State Fault Refusal := .next (s.rehashCtrlWrite val)

/-- REHASH_ABORT (R216). -/
def execRehashAbort (val : Word) (s : State) : Host.Outcome State Fault Refusal := .next (s.rehashCtrlWrite val)

/-- Buckets walked when the walk reaches a slot (R216). -/
def rehashWalked (lp : Bool) (i : Nat) : Nat := if lp then Config.lpmWalked i else i / 8

/-- REHASH_MOVE (R216): the entry in the slot that the walk has reached moves to its place under the new seed, copied before it is
invalidated; one that has no place ends the rehash in FAIL with REASON 8. -/
def State.rehashMove (s : State) (i : Nat) : State :=
  if s.rehashNext ≠ some i ∨ !s.seqTakes 4 then s
  else
    let lp := s.rehashLpm
    match s.slotAt lp i with
    | none => s
    | some e =>
      match s.hashPlace lp e with
      | (some _, s1) =>
        (((s1.setSlot lp i none).wrNat Reg.sxtRehashOpPartial ((s1.rd Reg.sxtRehashOpPartial).toNat + 1)).setProgress .rehash
          (rehashWalked lp i)).seqDone 4
      | (none, s1) => (({ s1 with sxt.rehash := false } : State).opFail .rehash 8).seqDone 4

/-- REHASH_MOVE (R216). -/
def execRehashMove (slot : Nat) (s : State) : Host.Outcome State Fault Refusal := .next (s.rehashMove slot)

/-- REHASH_END (R216): with every entry under the new seed, SEED takes SEED_NEXT and DUAL_SEED clears; for the length tables the filters
are recomputed. -/
def State.rehashEnd (s : State) : State :=
  if !s.sxt.rehash || s.rehashNext.isSome then s
  else
    let lp := s.rehashLpm
    let s1 := (s.wr (hashSeed lp) (s.rd (hashSeedNext lp))).setBit (hashStatus lp) 30 false
    let s2 : State := { s1.hashSettle lp with sxt.rehash := false }
    let s3 := if lp then s2.refilter else s2
    (s3.setProgress .rehash (if lp then Config.lpmBuckets else 4 * s3.perWay)).opDone .rehash

/-- REHASH_END (R216). -/
def execRehashEnd (s : State) : Host.Outcome State Fault Refusal := .next s.rehashEnd

/-! ### Trie rebuild (R208) -/

/-- START of a trie rebuild: the roots to flip, in turn. The Compact profile has no trie, and the operation is done with nothing to do:
DESIGN CHOICE, log 106. -/
def State.trieStart (s : State) : State :=
  if !opAllowed .trieRebuild s.dev.mode 0 0 then s.opRefuse .trieRebuild 3
  else
    let a := s.opArg .trieRebuild
    let one := (a % 4096, a / 2 ^ 14 % 2)
    let roots := if !s.dev.body.carve.full then [] else if a / 2 ^ 15 % 2 = 1 ∧ a / 2 ^ 13 % 2 = 0 then s.lpmRoots else [one]
    let s1 := s.opBegin .trieRebuild
    if roots = [] then s1.opEnd .trieRebuild .done else { s1 with sxt.trie := some roots }

/-- A write of SXT_TRIE_OP_CTRL. -/
def State.trieCtrlWrite (s : State) (v : Word) : State :=
  s.opCtrlWrite .trieRebuild v State.trieStart fun s => { s with sxt.trie := none }.opAbort .trieRebuild 1

/-- TRIE_REBUILD_START (R208). -/
def execTrieRebuildStart (val : Word) (s : State) : Host.Outcome State Fault Refusal := .next (s.trieCtrlWrite val)

/-- TRIE_REBUILD_ABORT (R208). -/
def execTrieRebuildAbort (val : Word) (s : State) : Host.Outcome State Fault Refusal := .next (s.trieCtrlWrite val)

/-- Add the records of a host list to a root (R208, SRC = 1). -/
def State.loadRecords (s : State) (root : Nat × Nat) : List (List Word) → State
  | [] => s
  | d :: ds =>
    let w := imgWord d 4
    (s.setLpm (lpmKey root.1 root.2 (Machine.fld w 23 16) (imgNum d 0 4)) (some (BitVec.ofNat 22 (imgWord d 5).toNat))).loadRecords
      root ds

/-- The content of a root once its new trie is in place: with SRC = 1 the host list, else its own prefixes (R208). -/
def State.trieContent (s : State) (root : Nat × Nat) (records : List (List Word)) : State :=
  if s.opArg .trieRebuild / 2 ^ 13 % 2 = 1 then
    ({ s with sxt.lpm := s.sxt.lpm.filter fun e => lpmRoot e.1 != root } : State).loadRecords root
      (records.take (s.fld Reg.sxtTrieCount 20 0))
  else s

/-- The rebuild ends because a new trie does not fit: the failing root and those after it are unchanged (R208). -/
def State.trieFail (s : State) : State :=
  if s.sxt.trie.isSome then ({ s with sxt.trie := none } : State).opFail .trieRebuild 8 else s

/-- TRIE_ROOT_FLIP (R208): the new trie of the next root becomes visible; after the last root the rebuild ends DONE. A list beyond the
capacity does not fit. PROGRESS counts prefixes placed (Table 02.12). -/
def State.trieFlip (s : State) (records : List (List Word)) : State :=
  match s.sxt.trie with
  | some (root :: rest) =>
    let s1 := s.trieContent root records
    if !s1.lpmFits root.2 then s.trieFail
    else
      let placed := (s1.sxt.lpm.filter fun e => lpmRoot e.1 == root).length
      let s2 := (s1.wrNat Reg.sxtTrieOpPartial ((s1.rd Reg.sxtTrieOpPartial).toNat + 1)).setProgress .trieRebuild
        (s1.progress .trieRebuild + placed)
      let s3 : State := if rest = [] then ({ s2 with sxt.trie := none } : State).opDone .trieRebuild else { s2 with sxt.trie := some rest }
      s3.noteReady s
  | _ => s

/-- TRIE_ROOT_FLIP (R208). -/
def execTrieRootFlip (records : List (List Word)) (s : State) : Host.Outcome State Fault Refusal := .next (s.trieFlip records)

/-- TRIE_BUILD_NO_SPACE (R208). -/
def execTrieBuildNoSpace (s : State) : Host.Outcome State Fault Refusal := .next s.trieFail

/-! ### Fix check (R225 to R227) -/

/-- START of a Fix check pass. -/
def State.fixStart (s : State) : State :=
  if !opAllowed .fixCheck s.dev.mode 0 0 then s.opRefuse .fixCheck 3
  else { s.opBegin .fixCheck with sxt.fix := some {} }

/-- A write of SXT_FIX_OP_CTRL. -/
def State.fixCtrlWrite (s : State) (v : Word) : State :=
  s.opCtrlWrite .fixCheck v State.fixStart fun s => s.opAbort .fixCheck 1

/-- FIX_CHECK_START (R225). -/
def execFixCheckStart (val : Word) (s : State) : Host.Outcome State Fault Refusal := .next (s.fixCtrlWrite val)

/-- FIX_CHECK_ABORT (R225). -/
def execFixCheckAbort (val : Word) (s : State) : Host.Outcome State Fault Refusal := .next (s.fixCtrlWrite val)

/-- What the comparison of one shadow record finds (R226): 0 equal, 1 differs, 2 missing (Table 10.5). -/
def State.fixKind (s : State) (t index : Nat) (d : List Word) : Nat :=
  match s.sxtSub t with
  | some 0 =>
    let valid := Machine.bit (imgWord d 7) 31
    match s.emFind t (imgNum d 2 5) with
    | some (_, e) =>
      if valid && e.result == BitVec.ofNat 64 (imgNum d 0 2) && e.static == Machine.bit (imgWord d 7) 30 then 0 else 1
    | none => if valid then 2 else 0
  | some n =>
    if n ≤ 2 then
      match s.lpmAt (dataPrefix d) with
      | some r => if r = BitVec.ofNat 22 (imgWord d 5).toNat then 0 else 1
      | none => 2
    else if s.directAt t index = BitVec.ofNat 64 (imgNum d 0 (subWords n)) then 0 else 1
  | none => 0

/-- A mismatch is listed (R226); where repair is enabled a register command for it enters the sequencer behind those that wait, and the
record follows when that command has completed (R227). -/
def State.fixOne (s : State) (t index rec : Nat) (d : List Word) : State :=
  match s.sxt.fix with
  | none => s
  | some x =>
    let k := s.fixKind t index d
    let y := { x with records := x.records + 1 }
    if k = 0 then { s with sxt.fix := some y }
    else
      let s1 : State := { s with sxt.fix := some { y with mism := x.mism + 1, first := if x.mism = 0 then x.block else x.first } }
      if s.sxtExpert && s.opArg .fixCheck / 256 % 2 == 1 then
        let op := match s.sxtSub t with
          | some 0 => 1
          | some 1 => 4
          | some 2 => 4
          | _ => 7
        ({ s1 with sxt.winq := s1.sxt.winq ++ [⟨op, t, index, d, some (x.block, rec, k, x.mism)⟩] } : State).noteReady s
      else s1.fixRecord x.mism x.block rec k

/-- Compare the records of a block, `n` words each. -/
def State.fixRecords (s : State) (t base n : Nat) : Nat → Nat → List Word → State
  | 0, _, _ => s
  | fuel + 1, i, ws =>
    if ws.length < n then s
    else (s.fixOne t (base + i) i (ws.take n)).fixRecords t base n fuel (i + 1) (ws.drop n)

/-- Words of a shadow record. -/
def fixWords (sub : Option Nat) : Nat :=
  match sub with
  | some n => if n ≤ 2 then 8 else subWords n
  | none => 8

/-- FIX_BLOCK_COMPARE (R226): a 4 KiB shadow block, 1,024 words. -/
def State.fixBlock (s : State) (ws : List Word) : State :=
  match s.sxt.fix with
  | none => s
  | some x =>
    if (s.rd Reg.sxtFixBlocks).toNat ≤ x.block ∨ s.dev.perstLow then s
    else
      let t := s.opArg .fixCheck % 256
      let n := fixWords (s.sxtSub t)
      let per := 1024 / n
      let s1 := s.fixRecords t (s.fld Reg.sxtFixStart 19 0 + x.block * per) n per 0 (ws.take 1024)
      match s1.sxt.fix with
      | none => s1
      | some y =>
        let s2 := { s1 with sxt.fix := some { y with block := y.block + 1 } }
        ((s2.wrNat (Reg.sxtFixOpPartial 0) y.mism).wrNat (Reg.sxtFixOpPartial 1) y.first).setProgress .fixCheck (y.block + 1)

/-- FIX_BLOCK_COMPARE (R226). -/
def execFixBlockCompare (words : List Word) (s : State) : Host.Outcome State Fault Refusal := .next (s.fixBlock words)

/-- FIX_CHECK_END (R226): every block is compared and no repair waits; for exact-match and LPM, OP_PARTIAL[2] is the table's count minus the shadow's, signed. -/
def State.fixEnd (s : State) : State :=
  match s.sxt.fix with
  | none => s
  | some x =>
    if x.block < (s.rd Reg.sxtFixBlocks).toNat ∨ s.sxt.winq.any (fun c => c.repair.isSome) then s
    else
      let t := s.opArg .fixCheck % 256
      let tab := match s.sxtSub t with
        | some n => decide (n ≤ 2)
        | none => false
      let s1 :=
        if tab then s.wrNat (Reg.sxtFixOpPartial 2) (unsign 32 (((s.tableRows t).length : Int) - (x.records : Int))) else s
      ({ s1 with sxt.fix := none } : State).opDone .fixCheck

/-- FIX_CHECK_END (R226). -/
def execFixCheckEnd (s : State) : Host.Outcome State Fault Refusal := .next s.fixEnd

end Sys2Proof.Machine
end

