-- ==== Sys2Proof/Machine/Parse.lean ====
section
/-!
DEFINITION. Machine/Parse.lean: the frame edits of a pass (R192, R193) and the Bearing hash
(R200 to R202).
-/
namespace Sys2Proof.Machine

/-! ### Bits of a frame -/

/-- Bytes with `w` bits from bit `o` replaced where the mask is 1. -/
def setBitsAt (bs : List Byte) (o w v m : Nat) : List Byte :=
  let n := 8 * bs.length
  if o + w ≤ n then
    let sh := n - (o + w)
    let old := bitsAt bs o w
    let new := Nat.lor (Nat.land old (2 ^ w - 1 - m % 2 ^ w)) (Nat.land v (m % 2 ^ w))
    beBytes bs.length (ofBe bs - old * 2 ^ sh + new * 2 ^ sh)
  else bs

/-! ### Segments: the recorded headers of a frame as separate bytes -/

/-- A header of a frame under edit: its number in the parse (none for a pushed one), kind and bytes. -/
structure Seg where
  num : Option Nat
  kind : HdrKind
  bytes : List Byte
deriving DecidableEq, Repr

/-- Cut a frame into its recorded headers and the rest. A frame without recorded headers has its first 14 bytes as Ethernet. -/
def segsOf (bs : List Byte) : Nat → List Hdr → List Seg × List Byte
  | 0, [] => ([⟨none, .eth, bs.take 14⟩], bs.drop 14)
  | _, [] => ([], bs)
  | n, h :: hs =>
    let r := segsOf (bs.drop h.len) (n + 1) hs
    (⟨some n, h.kind, bs.take h.len⟩ :: r.1, r.2)

/-- The bytes of segments. -/
def segBytes (l : List Seg) : List Byte := l.flatMap fun x => x.bytes

/-- The last 16 bits of bytes: the EtherType or protocol of a header that ends with it. -/
def tail16 (bs : List Byte) : Nat := at16 bs (bs.length - 2)

/-- Replace the last 16 bits of the last segment, unless that is an MPLS label. -/
def setTail (l : List Seg) (v : Nat) : List Seg :=
  match l.reverse with
  | x :: xs =>
    if x.kind = .mpls then l
    else (xs.reverse) ++ [{ x with bytes := putAt x.bytes (x.bytes.length - 2) (beBytes 2 v) }]
  | [] => l

/-- Split at the first segment that satisfies `p`. -/
def cutSegs (p : Seg → Bool) : List Seg → Option (List Seg × Seg × List Seg)
  | [] => none
  | x :: xs => if p x then some ([], x, xs) else (cutSegs p xs).map fun r => (x :: r.1, r.2)

/-- A layer-2 header. -/
def isL2 (x : Seg) : Bool := x.kind == .eth || x.kind == .vlan

/-- An IP header. -/
def isIp (x : Seg) : Bool := x.kind == .ipv4 || x.kind == .ipv6

/-- The EtherType of the segment that follows, or the one given. -/
def etherFor (post : List Seg) (rest : List Byte) (old : Nat) : Nat :=
  match post with
  | x :: _ => if x.kind = .ipv4 then 0x0800 else if x.kind = .ipv6 then 0x86DD else old
  | [] => if bitsAt rest 0 4 = 4 then 0x0800 else if bitsAt rest 0 4 = 6 then 0x86DD else old

/-! ### Step 1: pops (R192) -/

/-- VLAN_POP: the outermost tag; the header before it takes its EtherType. -/
def popVlan (l : List Seg) : List Seg :=
  match cutSegs (fun x => x.kind == .vlan) l with
  | some (pre, x, post) => setTail pre (tail16 x.bytes) ++ post
  | none => l

/-- MPLS_POP of one label: below the bottom of the stack stands the packet's own EtherType. -/
def popMpls (rest : List Byte) (l : List Seg) : List Seg :=
  match cutSegs (fun x => x.kind == .mpls) l with
  | some (pre, x, post) =>
    if bitsAt x.bytes 23 1 = 1 then
      setTail pre (etherFor post rest (match pre.getLast? with
        | some y => tail16 y.bytes
        | none => 0)) ++ post
    else pre ++ post
  | none => l

/-- Repeat an edit. -/
def times {α : Type} (f : α → α) : Nat → α → α
  | 0, x => x
  | n + 1, x => times f n (f x)

/-- EtherType and PPP protocol of a payload (RFC 2516). -/
def pppOf (et : Nat) : Nat := if et = 0x0800 then 0x0021 else if et = 0x86DD then 0x0057 else if et = 0x8847 then 0x0281 else et

/-- The EtherType of a PPP protocol. -/
def etherOfPpp (pr : Nat) : Nat :=
  if pr = 0x0021 then 0x0800 else if pr = 0x0057 then 0x86DD else if pr = 0x0281 then 0x8847 else pr

/-- PPPOE_POP. -/
def popPppoe (l : List Seg) : List Seg :=
  match cutSegs (fun x => x.kind == .pppoe) l with
  | some (pre, x, post) => setTail pre (etherOfPpp (tail16 x.bytes)) ++ post
  | none => l

/-- TUNNEL_DECAP: the outermost tunnel and its outer headers go. A tunnel that carries Ethernet uncovers that frame; one that
carries IP leaves it under the outer layer 2. -/
def decap (rest : List Byte) (all : List Seg) : List Seg → List Seg
  | [] => all
  | x :: post =>
    let l2 := all.takeWhile isL2
    let ip := setTail l2 (etherFor post rest 0x0800) ++ post
    let eth := match post with
      | y :: _ => y.kind == .eth
      | [] => false
    let ipIn := match post with
      | y :: _ => isIp y
      | [] => false
    if x.kind = .vxlan then post
    else if x.kind = .gre ∨ x.kind = .srh then (if eth = true then post else ip)
    else if isIp x && ipIn then ip
    else decap rest all post

/-! ### Step 2: rewrites and checksums (R192, R193) -/

/-- A checksum updated for every 16-bit word that changes. -/
def wordsAdj (c : Nat) : List Byte → List Byte → Nat
  | a :: b :: as, a' :: b' :: bs =>
    let o := a.toNat * 256 + b.toNat
    let n := a'.toNat * 256 + b'.toNat
    wordsAdj (if o = n then c else csumAdj c o n) as bs
  | _, _ => c

/-- Update the checksum of a TCP or UDP header; an IPv4 UDP checksum of 0 stays 0. -/
def l4Adj (v4 : Bool) (x : Seg) (old new : List Byte) : Seg :=
  if x.kind = .tcp then { x with bytes := putAt x.bytes 16 (beBytes 2 (wordsAdj (at16 x.bytes 16) old new)) }
  else if x.kind = .udp then
    if v4 && at16 x.bytes 6 == 0 then x
    else
      let c := wordsAdj (at16 x.bytes 6) old new
      { x with bytes := putAt x.bytes 6 (beBytes 2 (if c = 0 then 65535 else c)) }
  else x

/-- Update the first TCP or UDP header before the next IP header. -/
def l4Next (v4 : Bool) (old new : List Byte) : List Seg → List Seg
  | [] => []
  | x :: xs =>
    if isIp x then x :: xs
    else if x.kind = .tcp ∨ x.kind = .udp then l4Adj v4 x old new :: xs
    else x :: l4Next v4 old new xs

/-- SET_FIELD on the header with a parse number: a header that step 1 removed keeps nothing. `v4` says that the last IP header
passed is IPv4. -/
def setSeg (num o w v m : Nat) : Bool → List Seg → List Seg
  | _, [] => []
  | v4, x :: xs =>
    if x.num = some num then
      let b := setBitsAt x.bytes o w v m
      if x.kind = .ipv4 then
        let c := wordsAdj (wordsAdj (at16 b 10) (x.bytes.take 10) (b.take 10)) (x.bytes.drop 12) (b.drop 12)
        { x with bytes := putAt b 10 (beBytes 2 c) } :: l4Next true ((x.bytes.drop 12).take 8) ((b.drop 12).take 8) xs
      else if x.kind = .ipv6 then
        { x with bytes := b } :: l4Next false ((x.bytes.drop 8).take 32) ((b.drop 8).take 32) xs
      else l4Adj v4 { x with bytes := b } (x.bytes.take 4) (b.take 4) :: xs
    else x :: setSeg num o w v m (if isIp x then x.kind == .ipv4 else v4) xs

/-! ### Step 3: pushes and encapsulations (R192) -/

/-- Split after the leading layer-2 headers. -/
def afterL2 (l : List Seg) : List Seg × List Seg := (l.takeWhile isL2, l.dropWhile isL2)

/-- EtherType of a frame: the tail of its last leading layer-2 header. -/
def etherOf (l : List Seg) : Nat :=
  match (afterL2 l).1.getLast? with
  | some x => tail16 x.bytes
  | none => 0

/-- VLAN_PUSH: the new tag is the outermost. -/
def pushVlan (tpid tci : Nat) (l : List Seg) : List Seg :=
  match l with
  | x :: xs => setTail [x] tpid ++ ⟨none, .vlan, beBytes 2 tci ++ beBytes 2 (tail16 x.bytes)⟩ :: xs
  | [] => l

/-- Tags at the head of a frame. -/
def tagCount (l : List Seg) : Nat := ((afterL2 l).1.filter fun x => x.kind == .vlan).length

/-- One MPLS label entry with its bottom bit. -/
def labelEntry (v : Nat) (bottom : Bool) : List Byte := beBytes 4 (v / 512 * 512 + ofBool bottom * 256 + v % 256)

/-- MPLS_PUSH: labels from the top of the new stack down. -/
def pushMpls (labels : List Nat) (l : List Seg) : List Seg :=
  let (pre, post) := afterL2 l
  let deep := match post with
    | y :: _ => y.kind == .mpls
    | [] => false
  if labels = [] then l
  else
    let segs := (List.range labels.length).map fun i =>
      (⟨none, .mpls, labelEntry (labels.getD i 0) (i + 1 == labels.length && !deep)⟩ : Seg)
    setTail pre 0x8847 ++ segs ++ post

/-- Bytes of a frame from a point on, without its FCS. -/
def lenFrom (l : List Seg) (rest : List Byte) : Nat := (segBytes l).length + rest.length - 4

/-- PPPOE_PUSH: the session header of RFC 2516 with the PPP protocol field. -/
def pushPppoe (session : Nat) (rest : List Byte) (l : List Seg) : List Seg :=
  let (pre, post) := afterL2 l
  let pr := pppOf (etherOf l)
  let h := beBytes 1 0x11 ++ beBytes 1 0 ++ beBytes 2 session ++ beBytes 2 (lenFrom post rest + 2) ++ beBytes 2 pr
  setTail pre 0x8864 ++ ⟨none, .pppoe, h⟩ :: post

/-- The VLAN tags that follow the MAC addresses and the first EtherType of an outer header, four bytes each. -/
def tagSegs : Nat → List Byte → List Seg
  | 0, _ => []
  | n + 1, bs => ⟨none, .vlan, bs.take 4⟩ :: tagSegs n (bs.drop 4)

/-- The outer headers of a template: Ethernet, its tags, IP, and what follows in the template. -/
def templateSegs (tb : List Byte) : List Seg × List Byte × List Byte :=
  let o := (etherAt tb).1 + 2
  let r := tb.drop o
  let hl := if bitsAt r 0 4 = 4 then 4 * bitsAt r 4 4 else 40
  (⟨none, .eth, tb.take 14⟩ :: tagSegs ((o - 14) / 4) ((tb.take o).drop 14), r.take hl, r.drop hl)

/-- An outer IP header with its length for a payload of `n` bytes, and its IPv4 checksum. -/
def outerIp (ip : List Byte) (n : Nat) : Seg :=
  if bitsAt ip 0 4 = 4 then
    let b := putAt (putAt ip 2 (beBytes 2 (ip.length + n))) 10 [0, 0]
    ⟨none, .ipv4, putAt b 10 (beBytes 2 (65535 - sum16 b))⟩
  else ⟨none, .ipv6, putAt ip 4 (beBytes 2 n)⟩

/-- VXLAN_ENCAP (RFC 7348): the outer UDP checksum is 0 (R193). -/
def encapVxlan (tb : List Byte) (vni : Nat) (rest : List Byte) (l : List Seg) : List Seg :=
  let (e, ip, u) := templateSegs tb
  let n := lenFrom l rest + 16
  let udp := putAt (putAt (u.take 8) 4 (beBytes 2 n)) 6 [0, 0]
  e ++ outerIp ip n :: ⟨none, .udp, udp⟩ :: ⟨none, .vxlan, [8, 0, 0, 0] ++ beBytes 3 vni ++ [0]⟩ :: l

/-- GRE_ENCAP (RFC 2784 with the key of RFC 2890). -/
def encapGre (tb : List Byte) (key : Nat) (rest : List Byte) (l : List Seg) : List Seg :=
  let (e, ip, _) := templateSegs tb
  e ++ outerIp ip (lenFrom l rest + 8) :: ⟨none, .gre, [0x20, 0, 0x65, 0x58] ++ beBytes 4 key⟩ :: l

/-- SRV6_ENCAP (H.Encaps of RFC 8986): the template is the outer IPv6 header; a single SID needs no SRH. A frame without an IP
header is left as it is. -/
def encapSrv6 (tb : List Byte) (sids : List Nat) (rest : List Byte) (l : List Seg) : List Seg :=
  match cutSegs isIp l, sids.take 6 with
  | some (pre, x, post), s0 :: ss =>
    let inner := if x.kind = .ipv4 then 4 else 41
    let k := ss.length + 1
    let srh : List Byte :=
      if ss = [] then []
      else beBytes 1 inner ++ beBytes 1 (2 * k) ++ [4] ++ beBytes 1 (k - 1) ++ beBytes 1 (k - 1) ++ [0, 0, 0] ++
        ((s0 :: ss).reverse.flatMap fun v => beBytes 16 v)
    let n := lenFrom (x :: post) rest + srh.length
    let h := putAt (putAt (putAt (tb.take 40) 4 (beBytes 2 n)) 6 (beBytes 1 (if ss = [] then inner else 43))) 24 (beBytes 16 s0)
    setTail pre 0x86DD ++ ⟨none, .ipv6, h⟩ :: (if ss = [] then x :: post else ⟨none, .srh, srh⟩ :: x :: post)
  | _, _ => l

/-! ### The edits of a pass -/

/-- An edit a primitive asked for, with its values. -/
inductive Edit where
  | popVlan
  | popMpls (n : Nat)
  | popPppoe
  | decap
  | set (num off width v mask : Nat)
  | pushVlan (tpid tci : Nat)
  | pushMpls (labels : List Nat)
  | pushPppoe (session : Nat)
  | vxlan (tb : List Byte) (vni : Nat)
  | gre (tb : List Byte) (key : Nat)
  | srv6 (tb : List Byte) (sids : List Nat)
deriving DecidableEq, Repr

/-- The step of R192 an edit belongs to. -/
def Edit.step : Edit → Nat
  | .popVlan | .popMpls _ | .popPppoe | .decap => 1
  | .set .. => 2
  | _ => 3

/-- One edit; true marks a push that leaves 4 VLAN tags. -/
def applyEdit (rest : List Byte) (a : List Seg × Bool) (e : Edit) : List Seg × Bool :=
  match e with
  | .popVlan => (popVlan a.1, a.2)
  | .popMpls n => (times (popMpls rest) n a.1, a.2)
  | .popPppoe => (popPppoe a.1, a.2)
  | .decap => (decap rest a.1 a.1, a.2)
  | .set num o w v m => (setSeg num o w v m false a.1, a.2)
  | .pushVlan t c => (pushVlan t c a.1, a.2 || decide (4 ≤ tagCount (pushVlan t c a.1)))
  | .pushMpls ls => (pushMpls ls a.1, a.2)
  | .pushPppoe n => (pushPppoe n rest a.1, a.2)
  | .vxlan tb n => (encapVxlan tb n rest a.1, a.2)
  | .gre tb k => (encapGre tb k rest a.1, a.2)
  | .srv6 tb ss => (encapSrv6 tb ss rest a.1, a.2)

/-- The MPLS pops and pushes of a pass, cut to the `pops` and `pushes` labels that are left of its 4 and 8 (Table 09.2); what lies
beyond is not done: DESIGN CHOICE, log 102. -/
def mplsCut (pops pushes : Nat) : List Edit → List Edit
  | [] => []
  | .popMpls n :: es => .popMpls (min n pops) :: mplsCut (pops - n) pushes es
  | .pushMpls ls :: es => .pushMpls (ls.take pushes) :: mplsCut pops (pushes - ls.length) es
  | e :: es => e :: mplsCut pops pushes es

/-- The edits of a pass in the order of R192: the headers, the rest, and whether the frame is dropped. -/
def editFrame (bs : List Byte) (hs : List Hdr) (es : List Edit) : List Seg × List Byte × Bool :=
  let q := segsOf bs 0 hs
  let ordered := (es.filter fun e => e.step == 1) ++ (es.filter fun e => e.step == 2) ++ es.filter fun e => e.step == 3
  let r := (mplsCut 4 8 ordered).foldl (applyEdit q.2) (q.1, false)
  let n := (segBytes r.1).length + q.2.length
  (r.1, q.2, r.2 || decide (bs.length + 192 < n) || (decide (10240 < n) && !es.isEmpty))

/-! ### Bearing (R200 to R202) -/

/-- The field set in force, with INNER and SYM_DIS (Table 09.5, Table 09.7). -/
def State.bearingSet (s : State) : Nat × Bool × Bool :=
  if s.bit Reg.cmpCtrl 31 then (s.fld Reg.cmpBearingExp 7 0, s.bit Reg.cmpBearingExp 30, s.bit Reg.cmpBearingExp 31)
  else match s.fld Reg.cmpCtrl 1 0 with
    | 0 => (0x1F, false, false)
    | 1 => (0x07, false, false)
    | 2 => (0x60, false, false)
    | _ => (0x1F, true, false)

/-- The IP header of the tuple with what follows it: the first, or the innermost. -/
def ipOf (inner : Bool) (l : List Seg) : Option (Seg × List Seg) :=
  let f := cutSegs isIp l
  match f with
  | none => none
  | some (_, x, post) =>
    if inner then
      match (l.reverse.takeWhile fun y => !isIp y).reverse, (l.reverse.dropWhile fun y => !isIp y).head? with
      | ys, some y => some (y, ys)
      | _, none => some (x, post)
    else some (x, post)

/-- The chain of IPv6 extension headers that starts with Next Header `nh` holds a Fragment header (R200). -/
def v6Frag : Nat → Nat → List Byte → Bool
  | 0, _, _ => false
  | n + 1, nh, bs =>
    if nh = 44 then true
    else if nh = 0 ∨ nh = 43 ∨ nh = 60 ∨ nh = 135 then
      !bs.isEmpty && v6Frag n (bitsAt bs 0 8) (bs.drop (8 * bitsAt bs 8 8 + 8))
    else if nh = 51 then !bs.isEmpty && v6Frag n (bitsAt bs 0 8) (bs.drop (4 * bitsAt bs 8 8 + 8))
    else false

/-- The IP items of a tuple: source, destination, protocol, ports (R200); `rest` follows the recorded headers. -/
def ipItems (x : Seg) (post : List Seg) (rest : List Byte) : List Byte × List Byte × List Byte × Option (List Byte × List Byte) :=
  let map4 (o : Nat) : List Byte := List.replicate 10 0 ++ [0xFF, 0xFF] ++ (x.bytes.drop o).take 4
  let v4 := x.kind == .ipv4
  let frag := if v4 then bitsAt x.bytes 50 14 != 0 else v6Frag 32 (bitsAt x.bytes 48 8) (x.bytes.drop 40 ++ segBytes post ++ rest)
  let l4 := (post.takeWhile fun y => !isIp y).find? fun y => y.kind == .tcp || y.kind == .udp
  let ports :=
    if frag then some ([0, 0], [0, 0])
    else l4.map fun y => (y.bytes.take 2, (y.bytes.drop 2).take 2)
  if v4 then (map4 12, map4 16, (x.bytes.drop 9).take 1, ports)
  else ((x.bytes.drop 8).take 16, (x.bytes.drop 24).take 16, (x.bytes.drop 6).take 1, ports)

/-- Keep bytes when a field is selected. -/
def sel (f i : Nat) (bs : List Byte) : List Byte := if f / 2 ^ i % 2 = 1 then bs else []

/-- Two pairs (address, port) in canonical order (R201): the lower address, the higher, the lower port, the higher. -/
def canonical (off : Bool) (a b p q : List Byte) : List Byte × List Byte × List Byte × List Byte :=
  if !off && decide (ofBe b * 65536 + ofBe q < ofBe a * 65536 + ofBe p) then (b, a, q, p) else (a, b, p, q)

/-- MAC addresses and EtherType, ordered (R200 PROFILE 2, R201). -/
def macTuple (f : Nat) (off : Bool) (l : List Seg) : List Byte :=
  let e := (segBytes l).take 12
  let c := canonical off ((e.drop 6).take 6) (e.take 6) [] []
  sel f 5 (c.1 ++ c.2.1) ++ sel f 6 (beBytes 2 (etherOf l))

/-- The top three MPLS labels. -/
def labelTuple (l : List Seg) : List Byte :=
  ((l.filter fun x => x.kind == .mpls).take 3).flatMap fun x => beBytes 3 (bitsAt x.bytes 0 20)

/-- The tuple bytes of a frame (R200, R201). Without an IP header an MPLS stack gives its labels; else a profile falls back to profile
2 and an expert field set hashes the fields the frame has. -/
def State.tupleOf (s : State) (l : List Seg) (rest : List Byte) : List Byte :=
  let (f, inner, off) := s.bearingSet
  match ipOf inner l with
  | some (x, post) =>
    let it := ipItems x post rest
    let pq := it.2.2.2.getD ([], [])
    let c := canonical off (sel f 0 it.1) (sel f 1 it.2.1) (sel f 3 pq.1) (sel f 4 pq.2)
    c.1 ++ c.2.1 ++ sel f 2 it.2.2.1 ++ c.2.2.1 ++ c.2.2.2 ++ macTuple f off l ++ sel f 7 (labelTuple l)
  | none =>
    if f % 32 = 0 then macTuple f off l ++ sel f 7 (labelTuple l)
    else if l.any fun x => x.kind == .mpls then macTuple f off l ++ labelTuple l
    else macTuple (if s.bit Reg.cmpCtrl 31 then f else 0x60) off l

/-- The Bearing hash (R202). -/
def State.bearing (s : State) (l : List Seg) (rest : List Byte) : Word :=
  BitVec.ofNat 32 (crc32c (s.rd Reg.cmpBearingSeed).toNat (s.tupleOf l rest))

/-- FRAME_LEN as the first IP length field gives it (R245): none without one. -/
def ipFrameLen (l : List Seg) : Option Nat :=
  match cutSegs isIp l with
  | some (pre, x, _) =>
    let n := if x.kind = .ipv4 then at16 x.bytes 2 else at16 x.bytes 4 + 40
    some (max 64 ((segBytes pre).length + n + 4))
  | none => none

end Sys2Proof.Machine
end

