-- ==== Sys2Proof/Machine/Compass.lean ====
section
/-!
DEFINITION. Machine/Compass.lean: chart tables and their access, stages, action primitives, verdicts, default actions, the
pipeline pass, chart banks (chapter 09), and how a verdict resolves through Sextant (R222 to R224).
-/
namespace Sys2Proof.Machine

/-! ### Chart tables (R187 to R190) -/

/-- A chart entry's sixteen words. -/
def State.chartAt (s : State) (p bank t i : Nat) : List Word := s.cmp.chart.get (fun _ => chartBlank) (chartKey p bank t i)

/-- Write a chart entry whole (R189). A TCAM entry also goes to its copy (R344). -/
def State.setChart (s : State) (p bank t i : Nat) (ws : List Word) : State :=
  (({ s with cmp.chart := s.cmp.chart.set (fun _ => chartBlank) (chartKey p bank t i) ws } : State).memWrite 3).memWrite 9

/-- The shape of a chart or Sextant table of the image. -/
def State.tableShape (s : State) (t : Nat) : Option TableShape := s.dev.body.carve.tables.find? fun x => x.table == t

/-- CMP_TBL_INFO of a table. -/
def State.tblInfo (s : State) (t : Nat) : Word :=
  match s.tableShape t with
  | some x => BitVec.ofNat 32 (2 ^ 31 + x.kind % 8 * 2 ^ 28 + x.size % 2 ^ 21)
  | none => 0

/-- A chart entry exists: its table is VALID and of KIND 0 to 3, and INDEX lies within it; a 320-bit entry has two halves. -/
def State.chartHas (s : State) (t i : Nat) : Bool :=
  match s.tableShape t with
  | some x => decide (x.kind ≤ 3) && decide (i < (if x.kind = 1 then 2 * x.size else x.size))
  | none => false

/-- CMP_TBL_DATA. -/
def State.tblData (s : State) : List Word := (List.range 16).map fun i => s.rd (Reg.cmpTblData i)

/-- Write an entry image into every pipeline, or into one (R190). -/
def State.chartWrite (s : State) (all : Bool) (pipe bank t i : Nat) (ws : List Word) : State :=
  if !s.chartHas t i then s
  else s.each ((if all then List.range 9 else [pipe]).filter fun p => p < 9) fun p s => s.setChart p bank t i ws

/-- A write of CMP_TBL_SEL: TABLE loads CMP_TBL_INFO, WRITE writes the staged entry, READ loads an entry (Table 09.8). -/
def State.tblSelWrite (s : State) (v : Word) : State :=
  let s1 := s.wrTyped Reg.cmpTblSel v
  let t := Machine.fld v 28 21
  let bank := Machine.fld v 29 29
  let i := Machine.fld v 20 0
  let s2 := s1.wr Reg.cmpTblInfo (s1.tblInfo t)
  let s3 := if Machine.bit v 31 then s2.chartWrite (s2.bit Reg.cmpTblPipe 4) (s2.fld Reg.cmpTblPipe 3 0) bank t i s2.tblData else s2
  if Machine.bit v 30 then
    let p := if s3.bit Reg.cmpTblPipe 4 then 0 else s3.fld Reg.cmpTblPipe 3 0
    s3.wrWords (Reg.cmpTblData 0) (s3.chartAt p bank t i)
  else s3

/-- CHART_ENTRY_WRITE (R189). -/
def execChartEntryWrite (val : Word) (s : State) : Host.Outcome State Fault Refusal := .next (s.tblSelWrite val)

/-- CHART_ENTRY_READ (R189). -/
def execChartEntryRead (val : Word) (s : State) : Host.Outcome State Fault Refusal := .next (s.tblSelWrite val)

/-- CHART_TABLE_SELECT (R187). -/
def execChartTableSelect (val : Word) (s : State) : Host.Outcome State Fault Refusal := .next (s.tblSelWrite val)

/-! ### Chart banks and epochs (R197 to R199) -/

/-- A request to switch the chart bank, by GO or waypoint action 1; the switch falls in the same clock (R38, R197). -/
def State.cmpRequest (s : State) (target : Nat) : State :=
  let s1 := s.bankRequest Reg.cmpCommit target
  if s1.bit Reg.cmpCommit 30 then s1.bankSwitch Reg.cmpCommit (s1.fld Reg.cmpCommit 1 1) else s1

/-- A write of CMP_COMMIT. -/
def State.cmpCommitWrite (s : State) (v : Word) : State :=
  let s1 := s.wrTyped Reg.cmpCommit v
  if Machine.bit v 31 && !s.wpSame 1 then s1.cmpRequest (Machine.fld v 0 0) else s1

/-- CHART_COMMIT_GO (R197). -/
def execChartCommitGo (val : Word) (s : State) : Host.Outcome State Fault Refusal := .next (s.cmpCommitWrite val)

/-- Frames in flight that hold the inactive bank: those between passes (R198). -/
def State.drainCount (s : State) : Nat :=
  (s.cmp.recirc.map fun e => (e.2.filter fun f => f.bank != s.activeBank Reg.cmpCommit).length).sum

/-- CMP_EPOCH_STATUS (Table 09.6). -/
def State.epochStatus (s : State) : Word :=
  BitVec.ofNat 32
    (pack [(1, ofBool (s.drainCount != 0)), (7, 0), (8, s.fld Reg.cmpCommit 15 8), (16, s.drainCount)])

/-! ### A pass under way (R186, R191) -/

/-- What one pass works with: the frame, its headers, the outputs of the stages so far, the parameters of the entry that
selected the running program, and what the primitives have asked for. -/
structure Pass where
  fl : Flight
  hdrs : List Hdr := []
  outcome : Nat := 0
  /-- Stage, hit, result. -/
  outs : List (Nat × Bool × Nat) := []
  params : List Word := []
  edits : List Edit := []
  /-- Mirror sessions requested in this pass, and reasons of learn copies. -/
  mirrors : List Nat := []
  learnt : List Nat := []
  recirc : Bool := false
deriving DecidableEq, Repr

/-- The position of the n-th recorded header of a kind. -/
def hdrNum (hs : List Hdr) (k : HdrKind) (inst : Nat) : Option Nat :=
  (((List.range hs.length).filter fun i => (hs[i]?.map fun h => h.kind == k).getD false)[inst]?)

/-- Width of a field in bits. -/
def fieldWidth : FieldRef → Nat
  | .hdr _ _ _ w => w
  | .port => 7
  | .channel => 1
  | .onu => 10
  | .alloc => 14
  | .xgem => 16
  | .stampView => 4
  | .stampNs => 32
  | .stampSub => 8
  | .outcome => 3
  | .passNo => 2
  | .cls => 3
  | .colour => 2
  | .eq => 19
  | .dropFlag | .puntSet => 1
  | .destKind => 3
  | .destIndex => 20
  | .destDev => 10
  | .destPort => 7
  | .puntReason => 16
  | .mirror _ => 5
  | .chart hi lo => hi + 1 - lo
  | .hit _ => 1
  | .result _ hi lo => hi + 1 - lo

/-- Bits [hi:lo] of a number. -/
def bitsOf (n hi lo : Nat) : Nat := n / 2 ^ lo % 2 ^ (hi + 1 - lo)

/-- The value of a field; an absent header reads 0. -/
def fieldVal (c : Pass) : FieldRef → Nat
  | .hdr k i o w =>
    match (hdrNum c.hdrs k i).bind fun n => c.hdrs[n]? with
    | some h => bitsAt c.fl.frame.bytes (8 * h.off + o) w
    | none => 0
  | .port => c.fl.frame.port % 128
  | .channel => c.fl.frame.ch % 2
  | .onu => c.fl.frame.onu % 1024
  | .alloc => c.fl.frame.alloc % 16384
  | .xgem => c.fl.frame.xgem % 65536
  | .stampView => c.fl.frame.stamp.view % 16
  | .stampNs => c.fl.frame.stamp.ns32.toNat
  | .stampSub => c.fl.frame.stamp.subns.toNat
  | .outcome => c.outcome
  | .passNo => c.fl.pass % 4
  | .cls => c.fl.verdict.cls
  | .colour => c.fl.verdict.colour
  | .eq => c.fl.verdict.eq
  | .dropFlag => ofBool c.fl.verdict.drop
  | .destKind => c.fl.verdict.kind
  | .destIndex => c.fl.verdict.index % 2 ^ 20
  | .destDev => c.fl.verdict.dev
  | .destPort => c.fl.verdict.port
  | .puntSet => ofBool c.fl.verdict.punt.isSome
  | .puntReason => ((c.fl.verdict.punt.map Prod.fst).getD 0)
  | .mirror k => ((c.fl.verdict.mirrors[k]?).map fun m => m + 1).getD 0
  | .chart hi lo => bitsOf c.fl.verdict.chart.toNat hi lo
  | .hit st => ofBool ((c.outs.find? fun e => e.1 == st).map (fun e => e.2.1) |>.getD false)
  | .result st hi lo => bitsOf (((c.outs.find? fun e => e.1 == st).map fun e => e.2.2).getD 0) hi lo

/-- The value of a parameter. -/
def argVal (c : Pass) : Arg → Nat
  | .const n => n
  | .param w hi lo => bitsOf ((c.params.getD (w - 11) 0).toNat) hi lo
  | .field f => fieldVal c f

/-- A new value under a bit mask. -/
def masked (old v m w : Nat) : Nat :=
  Nat.lor (Nat.land old (2 ^ w - 1 - m % 2 ^ w)) (Nat.land v (m % 2 ^ w))

/-- SET_FIELD: metadata change at once; a header field is rewritten at the end of the pass (R186, R192). Fields that describe
the pass itself, and verdict fields that have primitives of their own, keep their values. -/
def setField (c : Pass) (f : FieldRef) (v m : Nat) : Pass :=
  let x := masked (fieldVal c f) v m (fieldWidth f)
  let fr := c.fl.frame
  let put (g : Frame) : Pass := { c with fl := { c.fl with frame := g } }
  let putV (g : Verdict) : Pass := { c with fl := { c.fl with verdict := g } }
  match f with
  | .hdr k i o w =>
    match hdrNum c.hdrs k i with
    | some n => { c with edits := c.edits ++ [Edit.set n o w v m] }
    | none => c
  | .port => put { fr with port := x }
  | .channel => put { fr with ch := x }
  | .onu => put { fr with onu := x }
  | .alloc => put { fr with alloc := x }
  | .xgem => put { fr with xgem := x }
  | .stampView => put { fr with stamp := { fr.stamp with view := x } }
  | .stampNs => put { fr with stamp := { fr.stamp with ns32 := BitVec.ofNat 32 x } }
  | .stampSub => put { fr with stamp := { fr.stamp with subns := BitVec.ofNat 8 x } }
  | .cls => putV { c.fl.verdict with cls := x }
  | .colour => putV { c.fl.verdict with colour := x }
  | .eq => putV { c.fl.verdict with eq := x }
  | .chart hi lo =>
    let old := c.fl.verdict.chart.toNat
    putV { c.fl.verdict with chart := BitVec.ofNat 64 (old - bitsOf old hi lo * 2 ^ lo + x * 2 ^ lo) }
  | .outcome | .passNo | .hit _ | .result .. | .dropFlag | .destKind | .destIndex | .destDev | .destPort | .puntSet | .puntReason
  | .mirror _ => c

/-- A destination replaces the one before it. -/
def Pass.dest (c : Pass) (kind index : Nat) : Pass :=
  { c with fl := { c.fl with verdict := { c.fl.verdict with kind := kind, index := index } } }

/-- Change the verdict. -/
def Pass.verdict (c : Pass) (f : Verdict → Verdict) : Pass := { c with fl := { c.fl with verdict := f c.fl.verdict } }

/-- Ask for an edit. -/
def Pass.edit (c : Pass) (e : Edit) : Pass := { c with edits := c.edits ++ [e] }

/-- An outer header template that pipeline `p` holds (R32). -/
def State.template (s : State) (p i : Nat) : List Byte := (s.pipe p).templates.getD i []

/-- A key: the values of its fields, the first one highest. -/
def keyOf (c : Pass) (fs : List FieldRef) : Nat := fs.foldl (fun a f => a * 2 ^ fieldWidth f + fieldVal c f) 0

/-- COUNT (Table 09.2, R362): an index above 131,071 counts nothing. -/
def State.countPrim (s : State) (i bytes : Nat) (pk by' : Bool) : State :=
  if 131071 < i then s
  else
    let s1 := if pk then s.cntAdd (2 * (1966080 + i)) 1 else s
    if by' then s1.cntAdd (2 * (1966080 + i) + 1) bytes else s1

/-- LEARN (R217): the submission, and the reason of the copy that LEARN_PUNT punts. -/
def State.learnPrim (s : State) (c : Pass) (t : Nat) (key : Nat) (result : Nat) : Pass × State :=
  let q := s.submitLearn ⟨t, key % 2 ^ 160, BitVec.ofNat 64 result, c.fl.ingress⟩
  match q.1 with
  | some ok =>
    (if s.bit (Reg.sxtTblCfg t) 27 then { c with learnt := c.learnt ++ [if ok then 0x20 else 0x21] } else c, q.2)
  | none => (c, q.2)

/-- POLICE (R265): the colour becomes metadata, a red frame may get the drop flag. -/
def State.policePrim (s : State) (c : Pass) (i : Nat) : Pass × State :=
  let q := s.police i c.fl.frame.bytes.length c.fl.verdict.colour
  match q.1 with
  | some (col, red) => (c.verdict fun v => { v with colour := col, drop := v.drop || red }, q.2)
  | none => (c, q.2)

/-- One primitive (Table 09.2, R191). -/
def State.prim (s : State) (p : Nat) (c : Pass) (x : Prim) : Pass × State :=
  match x with
  | .setField f v m => (setField c f (argVal c v) (argVal c m), s)
  | .copyField src dst => (setField c dst (fieldVal c src) (2 ^ 128 - 1), s)
  | .fwdNh i => (c.dest 1 (argVal c i), s)
  | .fwdEcmp i => (c.dest 2 (argVal c i), s)
  | .fwdMc i => (c.dest 3 (argVal c i), s)
  | .fwdPort d p k e =>
    (c.verdict fun v => { v with kind := 4, dev := argVal c d % 1024, port := argVal c p % 128, cls := argVal c k % 8,
                                 eq := argVal c e % 524288 }, s)
  | .setClass k => (c.verdict fun v => { v with cls := argVal c k % 8 }, s)
  | .drop => (c.verdict fun v => { v with drop := true }, s)
  | .punt r copy =>
    (c.verdict fun v => { v with punt := v.punt.orElse fun _ => some (argVal c r % 65536, copy) }, s)
  | .mirror m =>
    if c.fl.verdict.mirrors.length < 2 then
      let k := argVal c m % 16
      ({ c.verdict fun v => { v with mirrors := v.mirrors ++ [k] } with mirrors := c.mirrors ++ [k] }, s)
    else (c, s)
  | .police i => s.policePrim c (argVal c i)
  | .count i pk by' => (c, s.countPrim (argVal c i) c.fl.frame.bytes.length pk by')
  | .learn t key r => s.learnPrim c t (keyOf c key) (argVal c r)
  | .tsReq i q => (c.verdict fun v => { v with ts := some (argVal c q % 8, argVal c i % 65536) }, s)
  | .ctiDeliver copy => (c.verdict fun v => { v with cti := some copy }, s)
  | .vlanPush t k => (c.edit (.pushVlan (argVal c t) (argVal c k)), s)
  | .vlanPop => (c.edit .popVlan, s)
  | .mplsPush ls => (c.edit (.pushMpls (ls.map (argVal c))), s)
  | .mplsPop n => (c.edit (.popMpls n), s)
  | .pppoePush n => (c.edit (.pushPppoe (argVal c n)), s)
  | .pppoePop => (c.edit .popPppoe, s)
  | .vxlanEncap t n => (c.edit (.vxlan (s.template p t) (argVal c n)), s)
  | .greEncap t k => (c.edit (.gre (s.template p t) (argVal c k)), s)
  | .tunnelDecap => (c.edit .decap, s)
  | .srv6Encap t l => (c.edit (.srv6 (s.template p t) (l.map (argVal c))), s)
  | .recirc => ({ c with recirc := true }, s)

/-- Primitives in order. -/
def State.prims (s : State) (p : Nat) (c : Pass) : List Prim → Pass × State
  | [] => (c, s)
  | x :: xs =>
    let q := s.prim p c x
    q.2.prims p q.1 xs

/-- Run an action program, of at most 16 primitives (R186). -/
def State.program (s : State) (p : Nat) (c : Pass) (i : Nat) : Pass × State :=
  match (s.pipe p).actions[i]? with
  | some a => s.prims p c (a.prims.take 16)
  | none => (c, s)

/-! ### Lookups (R187, R188, R205, R210, R213) -/

/-- What a lookup finds: the hit's result, its program (none for a Sextant entry), its parameters. -/
structure Found where
  result : Nat
  prog : Option Nat := none
  params : List Word := []
deriving DecidableEq, Repr

/-- What a chart entry gives. -/
def foundOf (ws : List Word) : Found :=
  { result := ofWords (ws.drop 11), prog := some (Machine.fld (ws.getD 10 0) 15 0), params := ws.drop 11 }

/-- VALID of an entry image. -/
def entryValid (ws : List Word) : Bool := Machine.bit (ws.getD 10 0) 31

/-- The entries of a table in a pipeline and bank, lowest index first. -/
def State.chartEntries (s : State) (p bank t : Nat) : List (Nat × List Word) :=
  (s.cmp.chart.filter fun e => decide (chartKey p bank t 0 ≤ e.1) && decide (e.1 < chartKey p bank (t + 1) 0)).map fun e =>
    (e.1 % 2 ^ 21, e.2)

/-- A key matches a key and mask of 160 bits (R188). -/
def tcamHit (ws : List Word) (key : Nat) : Bool :=
  entryValid ws && Nat.land (Nat.xor (ofWords (ws.take 5)) (key % 2 ^ 160)) (ofWords ((ws.drop 5).take 5)) == 0

/-- A lookup in a chart table. The even half of a 320-bit entry holds the low 160 bits (R188). -/
def State.chartLookup (s : State) (p bank t kind key : Nat) : Option Found :=
  let es := s.chartEntries p bank t
  match kind with
  | 0 => (es.find? fun e => tcamHit e.2 key).map fun e => foundOf e.2
  | 1 =>
    (es.find? fun e => e.1 % 2 == 0 && tcamHit e.2 key && tcamHit (s.chartAt p bank t (e.1 + 1)) (key / 2 ^ 160)).map fun e =>
      foundOf e.2
  | 2 =>
    let ws := s.chartAt p bank t key
    if s.chartHas t key && entryValid ws then some (foundOf ws) else none
  | _ => (es.find? fun e => entryValid e.2 && ofWords (e.2.take 5) == key % 2 ^ 160).map fun e => foundOf e.2

/-- An LPM lookup: the result, the pass with what a Compact lookup leaves to resume, the state (R206, R210). `bad` says that the read of
the entry it would use meets an uncorrectable error: that entry does not match (R205). -/
def State.lpmLookup (s : State) (c : Pass) (stage fam key : Nat) (bad : Bool) : Option (BitVec 22) × Pass × State :=
  let bits := famBits fam
  let addr := key % 2 ^ bits
  let vrf := key / 2 ^ bits % 4096
  let skip := ofBool bad
  if s.dev.body.carve.full then (((s.lpmMatches vrf fam addr).drop skip).head?, c, s)
  else
    let below := ((c.fl.resume.find? fun e => e.1 == stage).map Prod.snd).getD (bits + 1)
    let keep := c.fl.resume.filter fun e => e.1 != stage
    let c1 := { c with fl := { c.fl with resume := keep } }
    let ls := s.lpmCandidates vrf fam addr below
    let hits := ((ls.take 6).filterMap fun l => s.lpmAt (lpmKey vrf fam l addr)).drop skip
    let slot := s.lpmAt (lpmKey vrf fam 0 addr)
    match hits.head? with
    | some r => (some r, c1, s)
    | none =>
      if ls.length ≤ 6 then (if bad && (ls.take 6).all fun l => (s.lpmAt (lpmKey vrf fam l addr)).isNone then none else slot, c1, s)
      else if 4 ≤ c.fl.pass then (slot, { c1 with recirc := true }, s.bump Reg.sxtLpmTrunc)
      else (none, { c1 with recirc := true, fl := { c1.fl with resume := keep ++ [(stage, ls.getD 5 0)] } }, s)

/-- An LPM result sets the destination by its RKIND (Table 10.10, R224). -/
def lpmVerdict (c : Pass) (r : BitVec 22) : Pass :=
  let k := r.toNat / 2 ^ 20
  let i := r.toNat % 2 ^ 20
  if k = 0 then c.dest 1 i else if k = 1 then c.dest 2 i else if k = 2 then c.dest 3 i else c.dest 5 0

/-- A lookup in a Sextant table by its sub-kind; `bad` as for an LPM lookup. -/
def State.sxtLookup (s : State) (c : Pass) (stage t key : Nat) (bad : Bool) : Option Found × Pass × State :=
  match s.sxtSub t with
  | some 0 =>
    match s.emFind t (key % 2 ^ 160) with
    | some (i, e) => if bad then (none, c, s) else (some { result := e.result.toNat }, c, s.setEm i (some { e with hit := true }))
    | none => (none, c, s)
  | some 1 | some 2 =>
    let q := s.lpmLookup c stage ((s.sxtSub t).getD 1 - 1) key bad
    match q.1 with
    | some r => (some { result := r.toNat }, lpmVerdict q.2.1 r, q.2.2)
    | none => (none, q.2.1, q.2.2)
  | some sub =>
    let v := (s.directAt t key).toNat
    let valid := if subWords sub = 2 then v / 2 ^ 63 % 2 == 1 else v / 2 ^ 31 % 2 == 1
    let size := ((s.sxtTable t).map fun x => x.size).getD 0
    (if decide (key < size) && valid && !bad then some { result := v } else none, c, s)
  | none => (none, c, s)

/-- A chart lookup whose matching entry's read meets an uncorrectable error: that entry does not match, and the next of its table may
(R205, R346). The program index and parameters of a TCAM entry lie in chart action SRAM. -/
def State.chartLookupBad (s : State) (p bank t kind key : Nat) : Option Found :=
  let es := s.chartEntries p bank t
  match kind with
  | 0 => ((es.filter fun e => tcamHit e.2 key)[1]?).map fun e => foundOf e.2
  | 1 =>
    ((es.filter fun e => e.1 % 2 == 0 && tcamHit e.2 key && tcamHit (s.chartAt p bank t (e.1 + 1)) (key / 2 ^ 160))[1]?).map fun e =>
      foundOf e.2
  | 2 => none
  | _ => ((es.filter fun e => entryValid e.2 && ofWords (e.2.take 5) == key % 2 ^ 160)[1]?).map fun e => foundOf e.2

/-- One stage (R186): nothing when its predicate is false, else its lookup and one program. With `bad` the read of the entry that the
lookup would use meets an uncorrectable error, which is reported: that entry does not match (R205, R346). -/
def State.stageRun (s : State) (p : Nat) (c : Pass) (i : Nat) (bad : Bool) (x : StageD) : Pass × State :=
  if !(x.pred.all fun e => fieldVal c e.1 == e.2) then (c, s)
  else
    match x.bind with
    | none => s.program p { c with params := [] } x.miss
    | some b =>
      let key := keyOf c x.key
      let q : Option Found × Pass × State :=
        let s0 := if bad then s.memoryError 3 true 0 0 0 else s
        if b.kind = 4 then s0.sxtLookup c i b.table key bad
        else (if bad then s0.chartLookupBad p c.fl.bank b.table b.kind key else s0.chartLookup p c.fl.bank b.table b.kind key, c, s0)
      let waits := q.2.1.fl.resume.any fun e => e.1 == i
      match q.1 with
      | some f =>
        q.2.2.program p { q.2.1 with params := f.params, outs := q.2.1.outs ++ [(i, true, f.result)] } (f.prog.getD x.hit)
      | none =>
        let c1 := { q.2.1 with params := [], outs := q.2.1.outs ++ [(i, false, 0)] }
        if waits then (c1, q.2.2) else q.2.2.program p c1 x.miss

/-- The stages in ascending order, at most 32. -/
def State.stagesRun (s : State) (p : Nat) (bad : List Nat) : Nat → Pass → List StageD → Pass × State
  | _, c, [] => (c, s)
  | i, c, x :: xs =>
    let q := s.stageRun p c i (bad.contains i) x
    q.2.stagesRun p bad (i + 1) q.1 xs

/-! ### Where frames go (R12, R195, R196, R222 to R224, R245, R260) -/

/-- The rate code of an ingress port as VOQ_MAP_CFG.RATE counts it; 0 for ports without cut-through. -/
def State.ingressRate (s : State) (port : Nat) : Nat :=
  if port = 73 ∨ port = 74 then 1 else if 48 ≤ port ∧ port < 72 then s.netPers (port - 48) else 0

/-- CT_EN for a class of an ingress port (R245). -/
def State.ctEnabled (s : State) (port cls : Nat) : Bool :=
  if s.bit Reg.voqCtrl 31 then s.bit (Reg.voqPortCfg port) (24 + cls) else s.bit Reg.voqCtrl 0

/-- The stored form of a frame toward a destination. A stamp request goes with every copy of the frame, and each copy that is sent
returns a stamp: DESIGN CHOICE, log 109. -/
def storedFor (f : Frame) (v : Verdict) (hash : Word) (dev port cls eq : Nat) : Stored :=
  { frame := f, len := f.bytes.length, dev := dev, port := port, cls := cls, eq := eq, colour := v.colour, ts := v.ts,
    hash := hash, chart := v.chart.toNat }

/-- Write a frame into the pool and enqueue it. A frame whose FCS failed goes on by cut-through alone (R246). -/
def State.toQueue (s : State) (p : Nat) (f : Stored) (cut : Option (Nat × Nat)) : State :=
  if f.frame.bad && cut.isNone then s
  else
    let q := s.writeChain p f.len
    match q.1 with
    | some cs => q.2.voqEnqueue { f with cells := cs } cut
    | none => q.2

/-- Write a frame once and place it on the replication queue for targets (R249, R196). -/
def State.toCopies (s : State) (p : Nat) (f : Stored) (ts : List McTarget) : State :=
  if f.frame.bad || ts.isEmpty then s
  else
    let q := s.writeChain p f.len
    match q.1 with
    | some cs => q.2.replicate ⟨{ f with cells := cs }, ts⟩
    | none => q.2

/-- PUNT_RING of a port. -/
def State.puntRing (s : State) (port : Nat) : Nat := s.fld (Reg.cmpPortDefW0 port) 5 0

/-- Queue a frame to device port 72 with a reason (R196, R260). -/
def State.puntFrame (s : State) (p port : Nat) (f : Frame) (v : Verdict) (hash : Word) (reason : Nat) : State :=
  s.toQueue p (withPunt (storedFor f v hash s.devId 72 v.cls (s.puntRing port)) reason) none

/-- The target of a mirror session, when it is VALID (R196). -/
def State.mirrorTarget (s : State) (m : Nat) : Option McTarget :=
  let w := s.rd (Reg.cmpMirrorW0 m)
  if Machine.bit w 31 then
    some { dev := Machine.fld w 29 20, port := Machine.fld w 18 12, cls := Machine.fld w 10 8,
           eq := s.fld (Reg.cmpMirrorW2 m) 18 0, trunc := s.fld (Reg.cmpMirrorW1 m) 13 0 }
  else none

/-- Send copies to mirror sessions; one whose destination R12 reserves is dropped against the ingress port, like any other frame
(R196). -/
def State.mirrorOut (s : State) (p ingress : Nat) (f : Frame) (v : Verdict) (hash : Word) : List Nat → State
  | [] => s
  | m :: ms =>
    match s.mirrorTarget m with
    | some t =>
      (if 75 ≤ t.port then s.bump (Reg.cmpDefReserved ingress)
       else s.toCopies p (storedFor f v hash t.dev t.port t.cls t.eq) [t]).mirrorOut p ingress f v hash ms
    | none => s.mirrorOut p ingress f v hash ms

/-- Copies of a frame that learns punt (R217). -/
def State.learnOut (s : State) (p port : Nat) (f : Frame) (v : Verdict) (hash : Word) : List Nat → State
  | [] => s
  | r :: rs =>
    (s.toCopies p { storedFor f v hash s.devId 72 v.cls (s.puntRing port) with puntReason := r }
      [{ dev := s.devId, port := 72, cls := v.cls, eq := s.puntRing port }]).learnOut p port f v hash rs

/-- What a frame's forwarding works with: pipeline, ingress port, frame, its segments, verdict and hash, whether it is free of mirror
requests and punt copies (condition 3 of R245), and the table reads that meet an uncorrectable error: 32 next hop, 33 ECMP group, 34
ECMP member, 35 multicast group, 36 + i target i. -/
structure Way where
  p : Nat
  ingress : Nat
  f : Frame
  segs : List Seg
  v : Verdict
  hash : Word
  plain : Bool
  bad : List Nat

/-- A destination that R12 reserves drops the frame. Answers whether the frame was dropped in the pipeline. The FRAME_LEN that an IP
length field gives follows the frame as it stands, `grown` bytes longer than its segments (R245). -/
def State.forwardTo (s : State) (w : Way) (grown : Int) (dev port cls eq : Nat) : Bool × State :=
  if 75 ≤ port then (true, s.bump (Reg.cmpDefReserved w.ingress))
  else
    let st := withPunt (storedFor w.f w.v w.hash dev port cls eq) 0
    let cut :=
      if w.plain && s.ctEnabled w.ingress cls && s.ingressRate w.ingress != 0 then
        (ipFrameLen w.segs).map fun n => (s.ingressRate w.ingress, ((n : Int) + grown).toNat + (st.len - w.f.bytes.length))
      else none
    (false, s.toQueue w.p st cut)

/-- A default action (R195, Table 09.3) replaces the verdict: class, chart metadata and the punt request go; `reason` is the punt
reason. Answers whether the frame was dropped. -/
def State.defaultAction (s : State) (w : Way) (act reason : Nat) : Bool × State :=
  let w0 := s.rd (Reg.cmpPortDefW0 w.ingress)
  let w1 := s.rd (Reg.cmpPortDefW1 w.ingress)
  let v := { w.v with kind := 0, index := 0, dev := 0, port := 0, cls := 0, eq := 0, punt := none, chart := 0 }
  match act with
  | 1 => (false, s.puntFrame w.p w.ingress w.f v w.hash reason)
  | 2 =>
    s.forwardTo { w with v := v } 0 (Machine.fld w1 31 22) (Machine.fld w1 21 15) (Machine.fld w1 14 12)
      (s.fld (Reg.cmpPortDefW2 w.ingress) 18 0)
  | 3 => (true, s.mirrorOut w.p w.ingress w.f v w.hash [Machine.fld w0 19 16])
  | _ => (true, s)

/-- The default action codes of a port: no match, parse failure (R195). -/
def State.defActs (s : State) (port : Nat) : Nat × Nat :=
  let w := s.rd (Reg.cmpPortDefW0 port)
  if s.bit Reg.cmpCtrl 31 then (Machine.fld w 29 28, Machine.fld w 31 30) else (Machine.fld w 27 26, Machine.fld w 27 26)

/-- The no-match default action, counted (R194, R195). -/
def State.noMatch (s : State) (w : Way) : Bool × State :=
  (s.bump (Reg.cmpDefNomatch w.ingress)).defaultAction w (s.defActs w.ingress).1 0x0001

/-- A drop under R222 or R224. -/
def State.nhDrop (s : State) : Bool × State := (true, s.bump Reg.sxtNhDrop)

/-- An entry of a direct table as a resolving frame reads it: one whose read meets an uncorrectable error is not VALID (R205, R346). -/
def State.readEntry (s : State) (bad : Bool) (sub i : Nat) : Nat × State :=
  if bad then (0, s.memoryError 3 true 0 0 0) else ((s.subEntry sub i).toNat, s)

/-- A next hop forwards, drops or punts (R222, Table 10.11). -/
def State.viaNextHop (s : State) (w : Way) (i : Nat) : Bool × State :=
  let q := s.readEntry (w.bad.contains 32) 3 i
  let e := q.1
  let kind := bitsOf e 62 61
  if e / 2 ^ 63 % 2 = 0 ∨ kind = 1 then q.2.nhDrop
  else if kind = 2 then (false, q.2.puntFrame w.p w.ingress w.f w.v w.hash 0x0002)
  else
    let d := q.2.draw
    let bs := Config.l2Rewrite d.1 (bitsOf e 19 0) w.f.bytes
    d.2.forwardTo { w with f := { w.f with bytes := bs } } ((bs.length : Int) - w.f.bytes.length) (bitsOf e 60 51) (bitsOf e 50 44)
      w.v.cls (bitsOf e 40 22)

/-- An ECMP group chooses a member by the hash (R202, R223). -/
def State.viaEcmp (s : State) (w : Way) (i : Nat) : Bool × State :=
  let q := s.readEntry (w.bad.contains 33) 4 i
  let n := min 512 (bitsOf q.1 28 19)
  if q.1 / 2 ^ 31 % 2 = 0 ∨ n = 0 then q.2.nhDrop
  else
    let m := q.2.readEntry (w.bad.contains 34) 5 (bitsOf q.1 18 0 + w.hash.toNat * n / 2 ^ 32)
    if m.1 / 2 ^ 31 % 2 = 0 then m.2.nhDrop else m.2.viaNextHop w (bitsOf m.1 19 0)

/-- The targets of a multicast group, in index order (R224). A target that is not VALID receives nothing and counts as a drop of R222;
a reserved port counts against the ingress port (R12), and its target receives no copy. DEDUCED, log 59. -/
def State.mcTargets (s : State) (w : Way) (base : Nat) : List Nat → List McTarget × State
  | [] => ([], s)
  | i :: is =>
    let q := s.readEntry (w.bad.contains (36 + i)) 7 (base + i)
    let e := q.1
    if e / 2 ^ 63 % 2 = 0 then (q.2.bump Reg.sxtNhDrop).mcTargets w base is
    else
      let t : McTarget := { dev := bitsOf e 60 51, port := bitsOf e 50 44, cls := w.v.cls, eq := bitsOf e 40 22,
                            rewrite := some (bitsOf e 19 0) }
      let r := (if 75 ≤ t.port then q.2.bump (Reg.cmpDefReserved w.ingress) else q.2).mcTargets w base is
      (t :: r.1, r.2)

/-- A multicast group (R224, R249). -/
def State.viaMc (s : State) (w : Way) (i : Nat) : Bool × State :=
  let q := s.readEntry (w.bad.contains 35) 6 i
  if q.1 / 2 ^ 31 % 2 = 0 ∨ bitsOf q.1 30 18 = 0 then q.2.nhDrop
  else
    let r := q.2.mcTargets w (bitsOf q.1 17 0) (List.range (bitsOf q.1 30 18))
    (false, r.2.toCopies w.p (storedFor w.f w.v w.hash 0 0 w.v.cls 0) r.1)

/-- The verdict of a last pass sends the frame on (R194, R222). Answers whether it was dropped in the pipeline. -/
def State.resolve (s : State) (w : Way) : Bool × State :=
  match w.v.kind with
  | 0 => s.noMatch w
  | 1 => s.viaNextHop w w.v.index
  | 2 => s.viaEcmp w w.v.index
  | 3 => s.viaMc w w.v.index
  | 4 => s.forwardTo w 0 w.v.dev w.v.port w.v.cls w.v.eq
  | _ => s.nhDrop

/-- The end of a frame's last pass: a drop flag ends it; a CTI delivery hands it to the receiver (Table 09.2); a frame without a
destination takes the no-match action, which replaces a punt request; a punt or a delivery without a copy takes the frame; otherwise
it is forwarded under its verdict besides (R194). -/
def State.lastPass (s : State) (w : Way) : Bool × State :=
  let v := w.v
  if v.drop then (true, s)
  else
    let s1 := match v.cti with
      | some _ => { s with cmp.cti := s.cmp.cti ++ [w.f] }
      | none => s
    if v.kind = 0 ∧ v.punt.all Prod.snd ∧ v.cti.all id then s1.noMatch w
    else
      let s2 := match v.punt with
        | some (r, _) => s1.puntFrame w.p w.ingress w.f v w.hash r
        | none => s1
      if v.punt.all Prod.snd ∧ v.cti.all id then s2.resolve w else (false, s2)

/-! ### The pass (R182 to R194, R366) -/

/-- The port block of a device port, when it is a network or management port. -/
def blockOf (port : Nat) : Option Nat :=
  if 48 ≤ port ∧ port < 72 then some (port - 48) else if port = 73 then some 24 else if port = 74 then some 25 else none

/-- A frame that was taken into its port's receive buffer leaves it (R303). -/
def State.leaveBuffer (s : State) (f : Frame) : State :=
  match blockOf f.port, f.buffered with
  | some i, true =>
    let c := s.framePrio i f.bytes
    s.setOcc i c (s.occOf i c - unitsOf f.bytes.length)
  | _, _ => s

/-- A first pass starts (R13, R197, R367): the frame takes the current epoch's bank, and the samplers count it. -/
def State.firstPass (s : State) (p : Nat) (f : Frame) : Flight × State :=
  ({ frame := f, ingress := f.port, bank := s.activeBank Reg.cmpCommit, pass := 1,
     verdict := { ts := f.ts } },
   (s.leaveBuffer f).each (List.range 8) fun k s => s.sampleCount p f.port k)

/-- The frames that recirculate on a pipeline. -/
def State.recirc (s : State) (p : Nat) : List Flight := s.cmp.recirc.get (fun _ => []) p

/-- Replace them. -/
def State.setRecirc (s : State) (p : Nat) (l : List Flight) : State :=
  { s with cmp.recirc := s.cmp.recirc.set (fun _ => []) p l }

/-- The end of a pass: edits, mirror and learn copies, then another pass or the frame's end (R192, R194, R196). -/
def State.endPass (s : State) (p : Nat) (c : Pass) (bad : List Nat) : State :=
  let r := editFrame c.fl.frame.bytes c.hdrs c.edits
  if r.2.2 then (s.bump (Reg.cmpEditErr p)).slotUsed p true
  else
    let f := { c.fl.frame with bytes := segBytes r.1 ++ r.2.1 }
    let hash := s.bearing r.1 r.2.1
    let v := c.fl.verdict
    let s1 := (s.mirrorOut p c.fl.ingress f v hash c.mirrors).learnOut p c.fl.ingress f v hash c.learnt
    if c.recirc && decide (c.fl.pass < 4) then
      (s1.setRecirc p (s1.recirc p ++ [{ c.fl with frame := f, pass := c.fl.pass + 1, copied := c.fl.copied || !c.learnt.isEmpty }])).slotUsed
        p true
    else
      let s2 := if c.recirc then s1.bump (Reg.cmpRecircLimit p) else s1
      let plain := v.mirrors.isEmpty && v.punt.isNone && v.cti.isNone && c.learnt.isEmpty && !c.fl.copied
      let q := s2.lastPass ⟨p, c.fl.ingress, f, r.1, v, hash, plain, bad⟩
      q.2.slotUsed p q.1

/-- One pass of a frame on a pipeline: parse, stages, end (R182 to R194). -/
def State.runPass (s : State) (p : Nat) (fl : Flight) (bad : List Nat) : State :=
  let s0 := (s.slotHolds p fl.frame fl.pass).bump (Reg.cmpPasses p)
  let s1 := if 1 < fl.pass then s0.bump (Reg.cmpRecirc p) else s0
  let q := s1.parse p fl.ingress fl.frame.bytes
  let c : Pass := { fl := fl, hdrs := q.2, outcome := q.1 }
  let s2 := if q.1 = 0 then s1 else s1.bump (Reg.cmpParseFail p)
  let toChart := s.bit Reg.cmpCtrl 31 && s.bit (Reg.cmpPortDefW0 fl.ingress) 24
  if q.1 ≠ 0 ∧ !toChart then
    let g := segsOf fl.frame.bytes 0 q.2
    let v := fl.verdict
    let plain := v.mirrors.isEmpty && v.punt.isNone && v.cti.isNone && !fl.copied
    let r := (s2.bump (Reg.cmpDefParsefail fl.ingress)).defaultAction ⟨p, fl.ingress, fl.frame, g.1, v, s2.bearing g.1 g.2, plain, bad⟩
      (s.defActs fl.ingress).2 (0x0010 + q.1)
    r.2.slotUsed p r.1
  else
    let r := s2.stagesRun p bad 0 c (((s.pipe p).stages).take 32)
    r.2.endPass p r.1 bad

/-- A frame of the same ingress port is still between passes on another pipeline, which it entered before its logical pipeline moved
(R34). Its successors wait, so that frames of one flow keep their order (R21): DESIGN CHOICE, log 108. -/
def State.flowWaits (s : State) (p : Nat) (f : Frame) : Bool :=
  s.cmp.recirc.any fun e => e.1 != p && e.2.any fun fl => fl.ingress == f.port

/-- The ingress buffer among the reads of a pass: an uncorrectable error there drops the frame (Table 17.1 KIND 8). -/
def bufBad : Nat := 255

/-- PIPELINE_PASS (R13, R186, R194): a recirculating frame goes before any waiting at ingress; `bad` names the stages, and from 32 on the
reads of `Way`, whose table read meets an uncorrectable error. Pipelines pass frames in ACTIVE and MAINTENANCE, and in STANDBY those
that Table 03.3 lets in: PTP frames. -/
def State.pipelinePass (s : State) (p : Nat) (bad : List Nat) : State :=
  let lost := bad.contains bufBad
  match s.recirc p, s.ingress p with
  | fl :: fs, _ =>
    if !s.passes fl.frame then s
    else if lost then (s.setRecirc p fs).memoryError 8 true 0 0 0
    else (s.setRecirc p fs).runPass p fl bad
  | [], f :: fs =>
    if s.passes f && !s.flowWaits p f then
      let q := (s.setIngress p fs).firstPass p f
      if lost then q.2.memoryError 8 true 0 0 0 else q.2.runPass p q.1 bad
    else s
  | [], [] => s

/-- PIPELINE_PASS (R186). -/
def execPipelinePass (p : Fin 9) (bad : List Nat) (s : State) : Host.Outcome State Fault Refusal :=
  .next (s.pipelinePass p.val bad)

end Sys2Proof.Machine
end

