-- ==== Sys2Proof/Machine/PonBase.lean ====
section
/-!
DEFINITION. Machine/PonBase.lean: what chapters 05 to 08 share: personalities and burst profiles (R104, R110, R111), the
units of upstream time (R109, R146), maps, contexts, port state (R119, R120). Times of the PON time line are ns in which
PSync of frame f leaves at f × 125,000.
-/
namespace Sys2Proof.Machine

/-! ### Personalities and channels (Table 05.2) -/

/-- The personality code of PON port `n`. -/
def State.ponPers (s : State) (n : Nat) : Nat := s.fld (Reg.ponPersonality n) 2 0

/-- The channels of a personality. -/
def persChannels : Nat → List Nat
  | 1 => [1]
  | 2 => [0]
  | 3 => [0]
  | 4 => [0, 1]
  | _ => []

/-- The channels of a port. -/
def State.channels (s : State) (n : Nat) : List Nat := persChannels (s.ponPers n)

/-- Every channel j = 2n + c that the personalities give the device, ascending. -/
def State.allChannels (s : State) : List Nat := (List.range 48).flatMap fun n => (s.channels n).map fun c => 2 * n + c

/-- The channel a sideband pin serves (R117): the only one, or the selected one of a COMBO port. -/
def State.sideCh (s : State) (n : Nat) (sel : Bool) : Nat :=
  match s.channels n with
  | [c] => c
  | _ => ofBool sel

/-! ### Burst profiles (Tables 05.3 and 05.4) -/

/-- A burst profile: RATE code, FEC_EN, lengths of preamble and delimiter in bytes, and the delimiter's bits. -/
structure BurstProf where
  rate : Nat
  fec : Bool
  pre : Nat
  delim : Nat
  bits' : Nat
deriving DecidableEq, Repr

/-- Bits in 125 µs at a RATE code (Table 05.16). -/
def rateBits : Nat → Nat
  | 0 => 1555200
  | 1 => 3110400
  | 3 => 1244160
  | _ => 6220800

/-- A US_RATE field as a RATE code: 3 acts as 2 (Table 05.7). -/
def usRate (v : Nat) : Nat := if v = 3 then 2 else v

/-- Short or long preamble and delimiter of a rate in bytes (Table 05.4). -/
def basicLens (rate : Nat) (long : Bool) : Nat × Nat :=
  match rate with
  | 0 => (if long then 320 else 128, 8)
  | 1 => (if long then 640 else 256, 8)
  | 3 => (if long then 256 else 96, if long then 8 else 4)
  | _ => (if long then 1280 else 512, 8)

/-- RATE and FEC_EN of basic profile `k` for a personality, given US_RATE_A and US_RATE_B (Table 05.3). -/
def basicRate (pers k a b : Nat) : Nat × Bool :=
  match pers with
  | 1 => (3, decide (k < 2))
  | 2 => (a, decide (k < 2))
  | 3 => (if k < 2 then a else b, true)
  | _ => (if k < 2 then 3 else a, true)

/-- Basic profile `k` of a port. -/
def State.basicProf (s : State) (n k : Nat) : BurstProf :=
  let q := basicRate (s.ponPers n) k (usRate (s.fld (Reg.ponLineCfg n) 9 8)) (usRate (s.fld (Reg.ponLineCfg n) 11 10))
  let l := basicLens q.1 (k % 2 == 1)
  ⟨q.1, q.2, l.1, l.2, if l.2 = 8 then 0xB5983F8A4C2DE167 else 0xB5983F8A⟩

/-- Burst profile `k` of a port at the level in force (R111). -/
def State.prof (s : State) (n k : Nat) : BurstProf :=
  if s.bit (Reg.ponLineCfg n) 31 then
    let w := s.rd (Reg.ponBurstProfileW0 n k)
    let lo := (s.rd (Reg.ponBurstProfileW2 n k)).toNat
    ⟨Machine.fld w 17 16, Machine.bit w 8, s.fld (Reg.ponBurstProfileW1 n k) 15 0, if Machine.bit w 4 then 8 else 4,
      if Machine.bit w 4 then (s.rd (Reg.ponBurstProfileW3 n k)).toNat * 2 ^ 32 + lo else lo⟩
  else s.basicProf n k

/-- The image sets a personality: the expert profile registers take the basic values, or 0 for NONE (R35, R111). -/
def State.setPers (s : State) (n code : Nat) : State :=
  let c := if code < 5 then code else 0
  let s1 := s.wrNat (Reg.ponPersonality n) c
  s1.each [0, 1, 2, 3] fun k s =>
    if c = 0 then s.wrWords (Reg.ponBurstProfileW0 n k) [0, 0, 0, 0]
    else
      let p := s.basicProf n k
      let long := p.delim == 8
      s.wrWords (Reg.ponBurstProfileW0 n k)
        [BitVec.ofNat 32 (p.rate * 2 ^ 16 + ofBool p.fec * 2 ^ 8 + ofBool long * 2 ^ 4),
         BitVec.ofNat 32 (0xAA * 2 ^ 24 + p.pre),
         if long then 0x4C2DE167 else 0xB5983F8A, if long then 0xB5983F8A else 0]

/-! ### Downstream lines (Table 05.1) -/

/-- The downstream line of a channel (Table 05.1): 49.7664 Gb/s under LDPC, or 9.95328 Gb/s under RS(248,216). -/
def dsLine (c : Nat) : DsLine := if c = 1 then ⟨1244160, .rs248, true⟩ else ⟨6220800, .ldpc, true⟩

/-! ### Upstream time (R109, R146) -/

/-- StartTime units in an upstream frame of a channel (R109). -/
def frameUnits (c : Nat) : Nat := if c = 1 then 38880 else Config.hspUnits

/-- Bits of a profile. -/
def BurstProf.bits (p : BurstProf) : Nat := rateBits p.rate

/-- Preamble and delimiter in bits. -/
def BurstProf.lead (p : BurstProf) : Nat := 8 * (p.pre + p.delim)

/-- GUARD_NS of a channel. -/
def State.guardNs (s : State) (n c : Nat) : Nat := s.fld (Reg.ponChCfg n c) 7 0

/-- TEQ_NS of a port, as its register holds it. -/
def State.teq (s : State) (n : Nat) : Nat := s.fld (Reg.ponTeq n) 19 0

/-- Bytes of a burst before the data of its first allocation: the burst header (Table 07.1). -/
def headBytes (c : Nat) : Nat := if c = 1 then 8 else Config.hspHeader

/-- Data bytes of a codeword (Table 07.1): 216, or 14,592 bits. -/
def cwBytes (c : Nat) : Nat := if c = 1 then 216 else 1824

/-- The part of a burst before StartTime, in whole units (R146). -/
def preUnits (c guard : Nat) (p : BurstProf) : Nat :=
  ceilDiv ((guard * p.bits + p.lead * 125000) * frameUnits c) (125000 * p.bits)

/-- Burst header and trailer, DBRu, PLOAMu and GrantSize unit of a channel in bytes (Table 07.1, R160). -/
def burstBytes (c : Nat) : Nat := if c = 1 then 12 else Config.hspOverhead
def dbruBytes (c : Nat) : Nat := if c = 1 then 4 else Config.hspDbru
def ploamuBytes (c : Nat) : Nat := if c = 1 then 48 else Config.hspPloamu
def grantUnit (c : Nat) : Nat := if c = 1 then 4 else Nat.max 1 Config.hspGrantUnit

/-- Coded bits of `n` data bytes (Table 07.1). -/
def codedBits (c : Nat) (fec : Bool) (n : Nat) : Nat :=
  if !fec then 8 * n
  else if c = 1 then 8 * (n + 32 * ceilDiv n 216)
  else 8 * n + 2688 * ceilDiv (8 * n) 14592

/-- The part of a burst from StartTime to its last coded bit for its allocations' data, in whole units (R146). -/
def postUnits (c : Nat) (p : BurstProf) (data : Nat) : Nat :=
  ceilDiv (codedBits c p.fec (data + burstBytes c) * frameUnits c) p.bits

/-- Units as ns, rounded up. -/
def unitsNs (c u : Nat) : Nat := ceilDiv (u * 125000) (frameUnits c)

/-- The upstream frame origin of map `f` (R109). -/
def State.origin (s : State) (n f : Nat) : Nat := f * 125000 + s.teq n

/-! ### Records -/

/-- PON port `n`. -/
def State.ponPort (s : State) (n : Nat) : PonPort := s.pon.ports.get (fun _ => {}) n

/-- Replace a PON port's record. -/
def State.setPonPort (s : State) (n : Nat) (x : PonPort) : State :=
  { s with pon.ports := s.pon.ports.set (fun _ => {}) n x }

/-- The latest maps of channel `j`, newest first. -/
def State.maps (s : State) (j : Nat) : List PonMap := s.pon.maps.get (fun _ => []) j

/-- Replace a channel's maps. -/
def State.setMaps (s : State) (j : Nat) (l : List PonMap) : State :=
  { s with pon.maps := s.pon.maps.set (fun _ => []) j l }

/-- Maps of a channel that are kept: with the largest TEQ_NS the burst of a map is decoded within ten frames. -/
def mapsKept : Nat := 32

/-- The map of frame `f` on channel `j`. -/
def State.mapOf (s : State) (j f : Nat) : Option PonMap := (s.maps j).find? fun m => m.f == f

/-- Put a map among maps that are kept newest first, in place of one of its frame. -/
def putMap (m : PonMap) : List PonMap → List PonMap
  | [] => [m]
  | x :: xs => if m.f = x.f then m :: xs else if m.f < x.f then x :: putMap m xs else m :: x :: xs

/-- Change the map of frame `f`. -/
def State.updMap (s : State) (j f : Nat) (g : PonMap → PonMap) : State :=
  s.setMaps j ((s.maps j).map fun m => if m.f = f then g m else m)

/-- TEQ_NS for map `f` of channel `j` (R109): as its cut-off took it, or the register's while no cut-off has. -/
def State.teqOf (s : State) (j f : Nat) : Nat :=
  match (s.mapOf j f).filter fun m => m.taken with
  | some m => m.teq
  | none => s.teq (j / 2)

/-- The origin of upstream frame `f` of a channel in ns of the PON time line (R109). -/
def State.originOf (s : State) (j f : Nat) : Nat := f * 125000 + s.teqOf j f

/-- Burst `i` of a sent map. -/
def State.burstOf (s : State) (j f i : Nat) : Option Burst :=
  match s.mapOf j f with
  | some m => if m.sent then m.bursts[i]? else none
  | none => none

/-- Change burst `i` of map `f`. -/
def State.updBurst (s : State) (j f i : Nat) (g : Burst → Burst) : State :=
  s.updMap j f fun m =>
    match m.bursts[i]? with
    | some b => { m with bursts := setAt m.bursts i (g b) }
    | none => m

/-- ONU context `id` of port `n`; contexts 1022 and 1023 always read as FREE (R123). -/
def State.onu (s : State) (n id : Nat) : Onu := s.act.onus.get (fun _ => {}) (n * 1024 + id)

/-- Replace an ONU context. -/
def State.setOnu (s : State) (n id : Nat) (x : Onu) : State :=
  { s with act.onus := s.act.onus.set (fun _ => {}) (n * 1024 + id) x }

/-- OPERATIONAL or LOST: an active ONU (R120, R147). -/
def Onu.active (x : Onu) : Bool := x.st == .operational || x.st == .lost

/-- The ONU-IDs of a port whose contexts are outside FREE, ascending. -/
def State.nonFree (s : State) (n : Nat) : List Nat :=
  (s.act.onus.filter fun e => decide (e.1 / 1024 = n) && e.2.st != .free).map fun e => e.1 % 1024

/-- A channel's PLOAM queues. -/
def State.actCh (s : State) (j : Nat) : ActCh := s.act.chs.get (fun _ => {}) j

/-- Replace a channel's PLOAM queues. -/
def State.setActCh (s : State) (j : Nat) (x : ActCh) : State :=
  { s with act.chs := s.act.chs.set (fun _ => {}) j x }

/-- The engine queues a message of its own on a channel (R126). -/
def State.ploamSend (s : State) (j : Nat) (m : PloamMsg) : State :=
  let x := s.actCh j
  s.setActCh j { x with engine := x.engine ++ [m] }

/-! ### Port state (R119, R120) -/

/-- PON_TXDIS is low. -/
def State.txOn (s : State) (n : Nat) : Bool := s.bit (Reg.ponLineStatus n) 30

/-- The mode lets the port transmit: ACTIVE, MAINTENANCE, or the grace of SAFE for a port that already transmits (R67,
R119). -/
def State.txMode (s : State) (n : Nat) : Bool :=
  s.serving || (s.dev.mode == .safe && s.dev.safeAt.isSome && s.txOn n)

/-- The cage channel of the port is on and healthy (Table 05.5 cause 3). -/
def State.ponCage (s : State) (n : Nat) : Bool := (s.pwr.cages.get (fun _ => {}) n).st == .on

/-- The lowest cause of Table 05.5 that holds, 0 for none. -/
def State.ponCause (s : State) (n : Nat) : Nat :=
  if !s.bit (Reg.ponLineCfg n) 0 || s.ponPers n == 0 then 1
  else if !s.txMode n then 2
  else if !s.ponCage n then 3
  else if (s.ponPort n).los then 4
  else if (s.ponPort n).relink then 5
  else 0

/-- A transition to STANDBY has been accepted: the frame in progress is the last (R53). -/
def State.leaving (s : State) : Bool := s.dev.trans.map Prod.fst == some .standby

/-- PON_TXDIS is to be low from the next frame boundary (R53, R119, R121). -/
def State.txWanted (s : State) (n : Nat) : Bool :=
  s.bit (Reg.ponLineCfg n) 0 && s.ponPers n != 0 && s.txMode n && s.ponCage n && !s.bit (Reg.ponLineCfg n) 1 &&
    !(s.ponPort n).stopTx && !s.leaving

/-- The port is SETTLING in downstream frame `f` (R119). -/
def State.settling (s : State) (n f : Nat) : Bool := decide (f < (s.ponPort n).settleUntil)

/-- The XGEM area of the frame in transmission of a channel: bytes used, and its size. -/
def State.area (s : State) (j : Nat) : Nat × Nat := s.xgm.area.get (fun _ => (0, 0)) j

/-- Replace a channel's XGEM area. -/
def State.setArea (s : State) (j : Nat) (a : Nat × Nat) : State :=
  { s with xgm.area := s.xgm.area.set (fun _ => (0, 0)) j a }

/-- Idle XGEM frames fill `k` bytes of the frame in transmission (R108). -/
def State.idleFill (s : State) (j k : Nat) : State :=
  if k = 0 then s else (s.setArea j ((s.area j).1 + k, (s.area j).2)).emit (.xgemIdle j (s.area j).1 k)

/-- The frame in transmission of a channel ends: idle frames fill what is left (R108). -/
def State.frameFill (s : State) (j : Nat) : State :=
  (s.idleFill j ((s.area j).2 - (s.area j).1)).setArea j (0, 0)

/-- A channel's remainder is discarded without a count (R171). -/
def State.restDrop (s : State) (j : Nat) : State := { s with xgm.rest := s.xgm.rest.set (fun _ => none) j none }

/-- The status register follows the causes; a port that goes down or comes up raises its event and begins or ends its
hold-down, and one that goes down loses its remainders (R120, R247, R248). -/
def State.ponFollow (s : State) (n : Nat) : State :=
  let c := s.ponCause n
  let was := s.bit (Reg.ponLineStatus n) 31
  let s1 := ((s.setFld (Reg.ponLineStatus n) 27 24 c).setBit (Reg.ponLineStatus n) 31 (c == 0)).setBit
    (Reg.ponLineStatus n) 29 (s.ponPort n).los
  if was == (c == 0) then s1
  else if was then (((s1.event (leafOf (6 + n / 32) (n % 32)) n).restDrop (2 * n)).restDrop (2 * n + 1)).portDown n
  else (s1.event (leafOf (6 + n / 32) (n % 32)) n).portUp n

/-- Every PON port follows its causes. -/
def State.ponFollowAll (s : State) : State := s.each (List.range 48) fun n s => s.ponFollow n

/-- A PON port transmits downstream (R93). -/
def State.anyTx (s : State) : Bool := (List.range 48).any fun n => s.txOn n

end Sys2Proof.Machine
end

