-- ==== Sys2Proof/Machine/Keys.lean ====
section
/-!
DEFINITION. Machine/Keys.lean: the key store, key exchanges and key index switches, bindings, and the abort of
reassemblies (R167, R168, R173 to R177, R179).
-/
namespace Sys2Proof.Machine

/-! ### The key store (R173) -/

/-- The key set of ONU `id` on port `n`. -/
def State.keySet (s : State) (n id : Nat) : KeySet := s.xgm.keys.get (fun _ => {}) (n * 1024 + id)

/-- Replace an ONU's key set. -/
def State.setKeySet (s : State) (n id : Nat) (x : KeySet) : State :=
  { s with xgm.keys := s.xgm.keys.set (fun _ => {}) (n * 1024 + id) x }

/-- The broadcast key set of channel `j`. -/
def State.bkeySet (s : State) (j : Nat) : KeySet := s.xgm.bkeys.get (fun _ => {}) j

/-- Replace a broadcast key set. -/
def State.setBkeySet (s : State) (j : Nat) (x : KeySet) : State :=
  { s with xgm.bkeys := s.xgm.bkeys.set (fun _ => {}) j x }

/-- A slot of a key set: 1 or 2; any other index names none. -/
def KeySet.slot (x : KeySet) (i : Nat) : Option (BitVec 128) := if i = 1 then x.s1 else if i = 2 then x.s2 else none

/-- Replace a slot. -/
def KeySet.setSlot (x : KeySet) (i : Nat) (k : Option (BitVec 128)) : KeySet :=
  if i = 1 then { x with s1 := k } else if i = 2 then { x with s2 := k } else x

/-- A key as the error state leaves it: every key acts as not VALID while ERROR = 1 (R377). -/
def State.live (s : State) (k : Option (BitVec 128)) : Option (BitVec 128) := if s.sec.error then none else k

/-- A switch of DS_INDEX at an instant (R177): the last one stands, but a GO does not displace a waypoint of its clock. -/
def KeySet.switch (x : KeySet) (index : Nat) (wp : Bool) (now : Raw) : KeySet :=
  if x.swAt = some now then (if x.swWp && !wp then x else { x with ds := index, swWp := wp })
  else { x with ds := index, swAt := some now, swWp := wp, swOld := x.ds }

/-- DS_INDEX for a cut-off: that of an earlier clock (R177). -/
def KeySet.cutIndex (x : KeySet) (now : Raw) : Nat := if x.swAt = some now then x.swOld else x.ds

/-- The key choice of the frame whose cut-off this is (R170, R177). -/
def KeySet.cut (x : KeySet) (now : Raw) : KeySet :=
  { x with next := (x.cutIndex now, x.slot (x.cutIndex now)) }

/-- The frame begins: its key choice is in use. -/
def KeySet.begin (x : KeySet) : KeySet := { x with cur := x.next }

/-- Every key set takes its choice at a cut-off (R170). -/
def State.cutKeys (s : State) : State :=
  { s with xgm.keys := s.xgm.keys.mapVals (fun _ => {}) fun x => x.cut s.raw,
           xgm.bkeys := s.xgm.bkeys.mapVals (fun _ => {}) fun x => x.cut s.raw }

/-- Every key set begins its choice at a frame boundary. -/
def State.beginKeys (s : State) : State :=
  { s with xgm.keys := s.xgm.keys.mapVals (fun _ => {}) KeySet.begin,
           xgm.bkeys := s.xgm.bkeys.mapVals (fun _ => {}) KeySet.begin }

/-! ### Bindings and queues (R167, R168) -/

/-- The binding of port-ID `pid` on port `n`. -/
def State.binding (s : State) (n pid : Nat) : Bind := s.xgm.binds.get (fun _ => {}) (n * 8192 + pid)

/-- A write of XGM_BIND_SEL (Table 08.8): WRITE applies the configuration words to the binding, READ loads them; a PORT above
47 names no binding. -/
def State.bindSelWrite (s : State) (v : Word) : State :=
  let s1 := s.wrTyped Reg.xgmBindSel v
  let n := Machine.fld v 21 16
  let k := n * 8192 + Machine.fld v 12 0
  if 48 ≤ n then s1
  else
    let s2 :=
      if Machine.bit v 31 then
        { s1 with xgm.binds := s1.xgm.binds.set (fun _ => {}) k { cfg0 := s1.rd Reg.xgmBindCfg0, cfg1 := s1.rd Reg.xgmBindCfg1 } }
      else s1
    if Machine.bit v 30 then
      let b := s2.xgm.binds.get (fun _ => {}) k
      (s2.wr Reg.xgmBindCfg0 b.cfg0).wr Reg.xgmBindCfg1 b.cfg1
    else s2

/-- BIND_WRITE (R168). -/
def execBindWrite (val : Word) (s : State) : Host.Outcome State Fault Refusal := .next (s.bindSelWrite val)

/-- BIND_READ (R168). -/
def execBindRead (val : Word) (s : State) : Host.Outcome State Fault Refusal := .next (s.bindSelWrite val)

/-- A write of XGM_DSQ_SEL (Table 08.8). -/
def State.dsqSelWrite (s : State) (v : Word) : State :=
  let s1 := s.wrTyped Reg.xgmDsqSel v
  let q := Machine.fld v 18 0
  let s2 :=
    if Machine.bit v 31 then { s1 with xgm.dsq := s1.xgm.dsq.set (fun _ => 0) q (s1.rd Reg.xgmDsqCfg) } else s1
  if Machine.bit v 30 then s2.wr Reg.xgmDsqCfg (s2.xgm.dsq.get (fun _ => 0) q) else s2

/-- DSQ_WRITE (R168). -/
def execDsqWrite (val : Word) (s : State) : Host.Outcome State Fault Refusal := .next (s.dsqSelWrite val)

/-- DSQ_READ (R168). -/
def execDsqRead (val : Word) (s : State) : Host.Outcome State Fault Refusal := .next (s.dsqSelWrite val)

/-! ### Encryption (R173) -/

/-- AES-128 in CTR mode (R173): bytes under a key, for an upstream or downstream frame `sf`, the StartTime of the burst (0 downstream)
and the position of the XGEM frame. It decrypts as it encrypts. -/
def xgemCipher (k : BitVec 128) (up : Bool) (sf start pos : Nat) (bs : List Byte) : List Byte :=
  bs.mapIdx fun i b => b ^^^ Config.xgemStream (k, up, sf, start, pos) i

/-! ### Key entry (R173, R174, R176, R374) -/

/-- The key that XGM_KEY_DATA[0..3] spell, word 0 least significant. -/
def State.keyStaged (s : State) : BitVec 128 :=
  BitVec.ofNat 128 (ofWords ((List.range 4).map fun i => s.xgm.keyData.get (fun _ => 0) i))

/-- A write of XGM_KEY_DATA[i]: write-only (R173). -/
def State.keyDataWrite (s : State) (i : Nat) (v : Word) : State :=
  { s with xgm.keyData := s.xgm.keyData.set (fun _ => 0) i v }

/-- Put a key into a target of XGM_KEY_SEL, or invalidate it (Table 08.8): 0 unicast slot, 1 broadcast slot, 2 KEK, 3 IK. -/
def State.putKey (s : State) (target slot n c id : Nat) (k : Option (BitVec 128)) : State :=
  match target with
  | 0 => s.setKeySet n id ((s.keySet n id).setSlot slot k)
  | 1 => s.setBkeySet (2 * n + c) ((s.bkeySet (2 * n + c)).setSlot slot k)
  | 2 => s.setKeySet n id { s.keySet n id with kek := k }
  | _ => s.setKeySet n id { s.keySet n id with ik := k }

/-- XGM_KEY_INFO of a target (Table 08.8). -/
def State.keyInfo (s : State) (target n c id : Nat) : Word :=
  let x := if target = 1 then s.bkeySet (2 * n + c) else s.keySet n id
  let busy := s.xgm.exch.any fun e => e.n == n && e.onu == id
  let v (k : Option (BitVec 128)) : Nat := ofBool (s.live k).isSome
  BitVec.ofNat 32
    ((if target = 1 then 0 else v x.kek * 2 ^ 31 + v x.ik * 2 ^ 30 + ofBool busy * 2 ^ 29) + x.ds % 4 * 2 ^ 24 +
      v x.s2 * 4 + v x.s1 * 2)

/-- A write of XGM_KEY_SEL (Table 08.8): WRITE and CLEAR need the User role (R374), WRITE is refused in the error state
(R377); READ loads XGM_KEY_INFO. -/
def State.keySelWrite (s : State) (v : Word) : State :=
  let s1 := s.wrTyped Reg.xgmKeySel v
  let t := Machine.fld v 27 26
  let slot := Machine.fld v 25 24
  let n := Machine.fld v 21 16
  let c := Machine.fld v 12 12
  let id := Machine.fld v 9 0
  if 48 ≤ n then s1
  else
    let s2 :=
      if Machine.bit v 31 || Machine.bit v 29 then
        if !s1.isUser then s1.denied
        else if Machine.bit v 31 then (if s1.sec.error then s1 else s1.putKey t slot n c id (some s1.keyStaged))
        else s1.putKey t slot n c id none
      else s1
    if Machine.bit v 30 then s2.wr Reg.xgmKeyInfo (s2.keyInfo t n c id) else s2

/-- KEY_WRITE (R176). -/
def execKeyWrite (val : Word) (s : State) : Host.Outcome State Fault Refusal := .next (s.keySelWrite val)

/-- KEY_READ (R173). -/
def execKeyRead (val : Word) (s : State) : Host.Outcome State Fault Refusal := .next (s.keySelWrite val)

/-- KEY_CLEAR (R174). -/
def execKeyClear (val : Word) (s : State) : Host.Outcome State Fault Refusal := .next (s.keySelWrite val)

/-! ### Key exchanges (R175) -/

/-- Exchanges running plus results held. -/
def State.keyLevel (s : State) : Nat := s.xgm.exch.length + s.xgm.results.length

/-- An exchange ends: its result is posted and announced (R175, Table 08.8). -/
def State.exchEnd (s : State) (e : Exchange) (ok : Bool) (cause : Nat) : State :=
  let r : Word := BitVec.ofNat 32
    (2 ^ 31 + ofBool ok * 2 ^ 30 + e.index * 2 ^ 28 + e.n * 2 ^ 22 + cause * 2 ^ 12 + e.onu)
  ({ s with xgm.exch := s.xgm.exch.filter fun x => !(x.n == e.n && x.onu == e.onu),
            xgm.results := s.xgm.results ++ [r] } : State).event (leafOf 12 4) 0

/-- The running exchange of an ONU. -/
def State.exchOf (s : State) (n id : Nat) : Option Exchange := s.xgm.exch.find? fun e => e.n == n && e.onu == id

/-- The context of an exchange leaves OPERATIONAL or LOST (R175, CAUSE 7). -/
def State.exchLeave (s : State) (n id : Nat) : State :=
  match s.exchOf n id with
  | some e => s.exchEnd e false 7
  | none => s

/-- The refusal cause of OP 1, 0 for none (R175), tested in the order of its table. -/
def State.exchCause (s : State) (n id index : Nat) : Nat :=
  if 1024 ≤ s.keyLevel then 1
  else if index = (s.keySet n id).ds then 2
  else if (s.live (s.keySet n id).kek).isNone then 3
  else if 48 ≤ n ∨ (s.onu n id).st ≠ .operational then 4
  else if index = 0 ∨ index = 3 then 5
  else 0

/-- XGM_KEY_CMD_STATUS after a command (Table 08.8). -/
def State.keyCmdEnd (s : State) (cause : Nat) : State :=
  s.wrNat Reg.xgmKeyCmdStatus (if cause = 0 then 2 ^ 30 else 2 ^ 29 + cause)

/-- OP 1 (R175): Key_Control goes to the ONU; a running exchange of the ONU is replaced. -/
def State.exchange (s : State) (n id index : Nat) : State :=
  if !s.isUser then s.denied
  else
    let c := s.exchCause n id index
    if c ≠ 0 then s.keyCmdEnd c
    else
      let x := s.onu n id
      let s1 := ({ s with xgm.exch := (s.xgm.exch.filter fun e => !(e.n == n && e.onu == id)) ++
                            [{ n := n, onu := id, index := index, at' := s.raw }] } : State).useNonApproved
      ((s1.setOnu n id { x with ask := true }).ploamSend (2 * n + x.ch) { kind := .keyControl index, onu := id }).keyCmdEnd 0

/-- KEY_EXCHANGE_TIMEOUT (R175): 800 frames, 100 ms, without a complete Key_Report. -/
def State.exchTimeout (s : State) (n id : Nat) : State :=
  match s.exchOf n id with
  | some e => if s.reached (e.at' + BitVec.ofNat 96 (100000000 * nsUnit)) then s.exchEnd e false 5 else s
  | none => s

/-- KEY_EXCHANGE_TIMEOUT (R175). -/
def execKeyExchangeTimeout (n : Fin 48) (onu : Fin 1024) (at' : Raw) (s : State) : Host.Outcome State Fault Refusal :=
  .next ((s.advance at').exchTimeout n.val onu.val)

/-- A Key_Report fragment reaches the key engine (R125, R175): with the last one the key is unwrapped with the KEK and
written to its slot, or the exchange fails with CAUSE 6. -/
def State.keyReport (s : State) (n id index : Nat) (last : Bool) (frag : List Word) : State :=
  match s.exchOf n id with
  | none => s
  | some e =>
    if e.index ≠ index then s
    else
      let e1 := { e with frags := e.frags ++ frag }
      if !last then
        { s with xgm.exch := s.xgm.exch.map fun x => if x.n == n && x.onu == id then e1 else x }
      else
        let x := s.keySet n id
        match (s.live x.kek).bind fun k => Config.keyUnwrap k e1.frags with
        | some k => (s.setKeySet n id (x.setSlot index (some k))).exchEnd e true 0
        | none => s.exchEnd e false 6

/-- KEY_RESULT_READ (R175): a read of XGM_KEY_RESULT removes the oldest result. -/
def State.keyResultRead (s : State) : State :=
  match s.xgm.results with
  | [] => s.ret 0
  | r :: rs => ({ s with xgm.results := rs } : State).ret r

/-- KEY_RESULT_READ (R175). -/
def execKeyResultRead (s : State) : Host.Outcome State Fault Refusal := .next s.keyResultRead

/-! ### Key index switches (R177) -/

/-- Switch one ONU to an index, or count the skip. -/
def State.switchOnu (s : State) (n index : Nat) (wp : Bool) (id : Nat) : State :=
  let x := s.keySet n id
  if (s.live (x.slot index)).isSome then s.setKeySet n id (x.switch index wp s.raw)
  else s.bump (Reg.xgmKeyswSkip (2 * n + (s.onu n id).ch))

/-- Switch one broadcast set to an index, or count the skip. -/
def State.switchSet (s : State) (index : Nat) (wp : Bool) (j : Nat) : State :=
  let x := s.bkeySet j
  if (s.live (x.slot index)).isSome then s.setBkeySet j (x.switch index wp s.raw) else s.bump (Reg.xgmKeyswSkip j)

/-- Every non-FREE ONU and both broadcast sets of a port switch (R177). -/
def State.switchPort (s : State) (n index : Nat) (wp : Bool) : State :=
  (s.each (s.nonFree n) fun id s => s.switchOnu n index wp id).each [2 * n, 2 * n + 1] fun j s => s.switchSet index wp j

/-- Waypoint action 5 (R101, R177): port 63 names all 48 ports; index 0 or 3 switches nothing. -/
def State.keySwitch (s : State) (port index : Nat) : State :=
  if index = 0 ∨ index = 3 then s
  else if port = 63 then s.each (List.range 48) fun n s => s.switchPort n index true
  else if port < 48 then s.switchPort port index true
  else s

/-- OP 2 (R177). -/
def State.indexSwitch (s : State) (n id index : Nat) : State :=
  if index = 0 ∨ index = 3 then s.keyCmdEnd 5
  else if 48 ≤ n then s.keyCmdEnd 6
  else if id = 1023 then (s.switchPort n index false).keyCmdEnd 0
  else if (s.live ((s.keySet n id).slot index)).isNone then s.keyCmdEnd 6
  else (s.setKeySet n id ((s.keySet n id).switch index false s.raw)).keyCmdEnd 0

/-- A write of XGM_KEY_CMD (Table 08.8): an OP other than 1 and 2 does nothing. -/
def State.keyCmdWrite (s : State) (v : Word) : State :=
  let s1 := s.wrTyped Reg.xgmKeyCmd v
  let n := Machine.fld v 21 16
  let id := Machine.fld v 9 0
  let index := Machine.fld v 11 10
  if !Machine.bit v 31 then s1
  else if Machine.fld v 27 24 = 1 then s1.exchange n id index
  else if Machine.fld v 27 24 = 2 then s1.indexSwitch n id index
  else s1

/-- KEY_EXCHANGE (R175). -/
def execKeyExchange (val : Word) (s : State) : Host.Outcome State Fault Refusal := .next (s.keyCmdWrite val)

/-- KEY_INDEX_SWITCH (R177). -/
def execKeyIndexSwitch (val : Word) (s : State) : Host.Outcome State Fault Refusal := .next (s.keyCmdWrite val)

/-! ### The spoof capture (Table 08.9) -/

/-- A read of XGM_LAST_SPOOF captures XGM_LAST_SPOOF_ID and clears VALID. -/
def State.spoofRead (s : State) : State :=
  ((s.ret (s.rd Reg.xgmLastSpoof)).wrNat Reg.xgmLastSpoofId s.xgm.spoofId).setBit Reg.xgmLastSpoof 31 false

/-- LAST_SPOOF_READ (R178). -/
def execLastSpoofRead (s : State) : Host.Outcome State Fault Refusal := .next s.spoofRead

/-! ### Reassembly contexts (R179) -/

/-- The reassembly context of a port-ID. -/
def State.xreasm (s : State) (n pid : Nat) : XReasm := s.xgm.reasm.get (fun _ => {}) (n * 8192 + pid)

/-- Replace a reassembly context. -/
def State.setXreasm (s : State) (n pid : Nat) (x : XReasm) : State :=
  { s with xgm.reasm := s.xgm.reasm.set (fun _ => {}) (n * 8192 + pid) x }

/-- An open reassembly is aborted (R179): its units return at once, and its later fragments are discarded up to the next
LF = 1. -/
def State.reasmAbort (s : State) (n pid : Nat) : State := s.setXreasm n pid { discard := true }

/-- Port-IDs of a port with an open reassembly that a test selects. -/
def State.openReasms (s : State) (n : Nat) (p : Nat → XReasm → Bool) : List Nat :=
  (s.xgm.reasm.filter fun e => decide (e.1 / 8192 = n) && e.2.isOpen && p (e.1 % 8192) e.2).map fun e => e.1 % 8192

/-- An ONU context becomes FREE (R174): its keys are cleared, DS_INDEX returns to 1, its open reassemblies are aborted. -/
def State.keysFree (s : State) (n id : Nat) : State :=
  (s.setKeySet n id {}).each (s.openReasms n fun _ r => r.onu == id) fun pid s =>
    (s.reasmAbort n pid).bump (Reg.xgmUsReasmDrop (2 * n + (s.xreasm n pid).ch))

end Sys2Proof.Machine
end

