-- ==== Sys2Proof/Machine/Timeline.lean ====
section
/-!
DEFINITION. Machine/Timeline.lean: the time line of a channel: discovery frames (R128, R129), reservations for discovery
windows and ranging grants (R161, R162), and free positions in an upstream frame (R145, R157).
-/
namespace Sys2Proof.Machine

/-! ### Discovery frames (R128, R129) -/

/-- PERIOD in frames; 0 opens no window. -/
def State.discPeriod (s : State) : Nat :=
  if s.bit Reg.actCtrl 31 then s.fld Reg.actExpCfg 15 0
  else
    match s.fld Reg.actCtrl 9 8 with
    | 0 => 1000
    | 1 => 2000
    | 2 => 8000
    | _ => 0

/-- OFFSET of a port. -/
def State.discOffset (s : State) (n : Nat) : Nat :=
  if s.bit Reg.actCtrl 31 then s.fld (Reg.actDiscPort n) 15 0 else n * s.discPeriod / 48

/-- Frame `f` is a discovery frame of port `n` by R128's first condition. -/
def State.discFrame (s : State) (n f : Nat) : Bool :=
  s.discPeriod != 0 && ((f : Int) - s.discOffset n) % (s.discPeriod : Int) == 0

/-- The profile of a discovery window (R129). -/
def State.discProf (s : State) (n c f : Nat) : Nat :=
  match s.ponPers n with
  | 4 => if c = 0 then 3 else 1
  | 3 => if ((f : Int) - s.discOffset n) / (Nat.max 1 s.discPeriod : Int) % 2 = 0 then 1 else 3
  | _ => 1

/-- RTD_MIN_US, QUIET_US and RAND_US. -/
def State.rtdMinUs (s : State) : Nat := s.fld Reg.actDiscTiming 19 10
def State.quietUs (s : State) : Nat := s.fld Reg.actDiscTiming 29 20
def State.randUs (s : State) : Nat := s.fld Reg.actDiscTiming 9 0

/-! ### Intervals and reservations (R145, R161, R162) -/

/-- Two half-open intervals meet. -/
def meets (a b c d : Nat) : Bool := decide (a < d) && decide (c < b)

/-- The reservations of channel `j`. -/
def State.resvs (s : State) (j : Nat) : List Resv := s.rck.resv.get (fun _ => []) j

/-- Replace a channel's reservations. -/
def State.setResvs (s : State) (j : Nat) (l : List Resv) : State :=
  { s with rck.resv := s.rck.resv.set (fun _ => []) j l }

/-- Placed pieces of bookings on channel `j`. -/
def State.pieces (s : State) (j : Nat) : List Piece := (s.rck.books.filter fun b => b.j == j).flatMap fun b => b.pieces

/-- A piece's interval in ns of the PON time line, rounded outward. -/
def State.pieceNs (s : State) (j : Nat) (p : Piece) : Nat × Nat :=
  let u := s.origin (j / 2) p.f
  (u + p.lo * 125000 / frameUnits (j % 2), u + unitsNs (j % 2) p.hi)

/-- No reservation and no placed piece of channel `j` meets an interval in ns. -/
def State.clearNs (s : State) (j lo hi : Nat) : Bool :=
  !((s.resvs j).any fun r => meets r.lo r.hi lo hi) &&
  !((s.pieces j).any fun p => meets (s.pieceNs j p).1 (s.pieceNs j p).2 lo hi)

/-- lead and body of a profile in ns (R161, R162): guard, preamble and delimiter; one PLOAMu burst. -/
def State.leadNs (s : State) (n c k : Nat) : Nat := unitsNs c (preUnits c (s.guardNs n c) (s.prof n k))
def State.bodyNs (s : State) (n c k : Nat) : Nat := unitsNs c (postUnits c (s.prof n k) (ploamuBytes c))

/-- Add a reservation; those that ended 32 frames ago are forgotten. -/
def State.reserve (s : State) (j : Nat) (r : Resv) : State :=
  s.setResvs j (((s.resvs j).filter fun x => decide ((s.rck.started - 32) * 125000 ≤ x.hi)) ++ [r])

/-- A discovery frame enters the horizon (R161): its interval is reserved unless something placed holds part of it. -/
def State.reserveDisc (s : State) (j f : Nat) : State :=
  let n := j / 2
  let c := j % 2
  let k := s.discProf n c f
  let lo := f * 125000 + s.rtdMinUs * 1000 - s.leadNs n c k
  let hi := f * 125000 + (s.rtdMinUs + s.quietUs) * 1000 + s.bodyNs n c k
  if s.discFrame n f && s.clearNs j lo hi then s.reserve j ⟨lo, hi, f, none⟩ else s

/-- The search of R162 from frame `g`: `lo` and `hi` relative to PSync(g), and the earliest ns that no started map can reach. -/
def State.rangeSearch (s : State) (j : Nat) (lo hi : Int) (from' : Nat) : Nat → Nat → Option Nat
  | 0, _ => none
  | fuel + 1, g =>
    let a := (g : Int) * 125000 + lo
    let b := (g : Int) * 125000 + hi
    if (from' : Int) ≤ a && s.clearNs j a.toNat b.toNat then some g else s.rangeSearch j lo hi from' fuel (g + 1)

/-- Frames that the search of R162 tries: every reservation and piece lies within 64 frames of the started map. -/
def rangeTries : Nat := 512

/-- ACQ_US (Table 15.7). -/
def State.acqUs (s : State) : Nat := if s.bit Reg.lhtCtrl 31 then Nat.max 1 (s.fld Reg.lhtExpCfg 7 0) else 50

/-- ns before and after the apparent RTD in which a ranging header may start (R134, R325). -/
def State.rangeSpan (s : State) (x : Onu) : Nat × Nat :=
  if x.acq then (s.acqUs * 1000, s.acqUs * 1000) else (s.randUs * 1000 + 1000, 1000)

/-- A context enters its channel's ranging order: its ranging grant is reserved (R134, R162). -/
def State.rangeReserve (s : State) (n id : Nat) : State :=
  let x := s.onu n id
  let c := x.ch
  let j := 2 * n + c
  let h := s.rck.started
  let lo : Int := x.m / 16 - ((s.rangeSpan x).1 + s.leadNs n c x.prof : Nat)
  let hi : Int := (x.m + 15) / 16 + ((s.rangeSpan x).2 + s.bodyNs n c x.prof : Nat)
  let first := Nat.max (h + 3) (s.rck.lastRange.get (fun _ => 0) j + 1)
  match s.rangeSearch j lo hi (h * 125000 + s.teq n + 125000) rangeTries first with
  | some g =>
    let s1 := s.reserve j ⟨((g : Int) * 125000 + lo).toNat, ((g : Int) * 125000 + hi).toNat, g, some id⟩
    ({ s1 with rck.lastRange := s1.rck.lastRange.set (fun _ => 0) j g } : State).setOnu n id { x with rangeAt := some g }
  | none => s.setOnu n id { x with rangeAt := none }

/-- Release the ranging reservation of an ONU (R162). -/
def State.rangeRelease (s : State) (n id : Nat) : State :=
  let x := s.onu n id
  let j := 2 * n + x.ch
  (s.setResvs j ((s.resvs j).filter fun r => r.onu != some id)).setOnu n id { x with rangeAt := none }

/-! ### Free positions in an upstream frame (R145, R157) -/

/-- An interval in ns as units of upstream frame `f` of channel `j`, rounded outward; none outside the frame. -/
def State.inFrame (s : State) (j f lo hi : Nat) : Option (Nat × Nat) :=
  let o := s.origin (j / 2) f
  let L := frameUnits (j % 2)
  if meets o (o + 125000) lo hi then some ((lo - o) * L / 125000, min L (ceilDiv ((hi - o) * L) 125000)) else none

/-- Units of upstream frame `f` that reservations take. -/
def State.resvUnits (s : State) (j f : Nat) : List (Nat × Nat) :=
  (s.resvs j).filterMap fun r => s.inFrame j f r.lo r.hi

/-- The start of the earliest free position of `len` units at or after `at'` in a frame of `L` units with busy intervals. -/
def earliest (L : Nat) (busy : List (Nat × Nat)) (at' len : Nat) : Option Nat :=
  let ok (p : Nat) : Bool := decide (p + len ≤ L) && !(busy.any fun b => meets b.1 b.2 p (p + len))
  ((at' :: (busy.map Prod.snd).filter fun e => decide (at' ≤ e)).filter ok).foldl
    (fun a p => match a with
      | some q => some (min p q)
      | none => some p) none

/-- Busy intervals in ascending order. -/
def sortBusy (l : List (Nat × Nat)) : List (Nat × Nat) := sortBy (fun a b => decide (a.1 ≤ b.1)) l

/-- The free intervals of a frame between busy intervals in ascending order, from `p`. -/
def gaps (L : Nat) : Nat → List (Nat × Nat) → List (Nat × Nat)
  | p, [] => if p < L then [(p, L)] else []
  | p, b :: bs => (if p < b.1 then [(p, b.1)] else []) ++ gaps L (Nat.max p b.2) bs

/-- The free intervals of a frame. -/
def freeGaps (L : Nat) (busy : List (Nat × Nat)) : List (Nat × Nat) := gaps L 0 (sortBusy busy)

/-- The largest free interval, the earliest of equal ones (R157). -/
def largestGap (L : Nat) (busy : List (Nat × Nat)) : Option (Nat × Nat) :=
  (freeGaps L busy).foldl
    (fun a g => match a with
      | some x => if x.2 - x.1 < g.2 - g.1 then some g else some x
      | none => some g) none

end Sys2Proof.Machine
end

