-- ==== Sys2Proof/Machine/Activation.lean ====
section
/-!
DEFINITION. Machine/Activation.lean: ONU contexts, the PLOAM engine and its queues, admission, ranging, drift, rogue ONUs,
loss, host commands (chapter 06).
-/
namespace Sys2Proof.Machine

/-! ### Level of control (R143) -/

/-- ACT_EXPERT_EN. -/
def State.actExpert (s : State) : Bool := s.bit Reg.actCtrl 31

/-- An expert field of ACT_EXP_CFG, 0 at basic level. -/
def State.actExp (s : State) (b : Nat) : Bool := s.actExpert && s.bit Reg.actExpCfg b

/-- AUTH_PROV and ROGUE_ACTION at the level in force. -/
def State.authProv (s : State) : Bool := if s.actExpert then s.bit Reg.actExpCfg 27 else s.bit Reg.actCtrl 4
def State.rogueAction (s : State) : Bool := if s.actExpert then s.bit Reg.actExpCfg 26 else s.bit Reg.actCtrl 0

/-- The engine changes context states: not in SAFE (R142). -/
def State.engineOn (s : State) : Bool := s.dev.mode != .safe

/-! ### Receive queue and reports (R127, Tables 06.2 and 06.3) -/

/-- Records the host receive queue holds (R127). -/
def rxMax : Nat := 4096

/-- A record enters the host receive queue, or is discarded, counted and announced. -/
def State.rxPush (s : State) (type n c id cause : Nat) (data : List Word) : State :=
  if s.act.rx.length < rxMax then
    let h : Word := BitVec.ofNat 32 (2 ^ 31 + type * 2 ^ 29 + n * 2 ^ 23 + c * 2 ^ 22 + id * 2 ^ 12 + cause * 2 ^ 8)
    { s with act.rx := s.act.rx ++ [⟨h, data⟩] }
  else (s.bump Reg.actPloamRxDrop).event (leafOf 12 0) 0

/-- The ONU-ID of a record or event about an ONU that has none (as in Table 02.14). -/
def noOnu : Nat := 0x3FF

/-- An activation report (TYPE 1): serial number and apparent RTD. -/
def State.report (s : State) (n c id cause : Nat) (vendor serial : Word) (m : Int) : State :=
  s.rxPush 1 n c id cause [vendor, serial, BitVec.ofInt 32 m]

/-- A report about a context. -/
def State.reportOnu (s : State) (n id cause : Nat) : State :=
  let x := s.onu n id
  s.report n x.ch id cause x.vendor x.serial x.m

/-- Word 1 of the misconnection, named-rogue and ONU-loss events (Table 18.3). -/
def onuWord (n c id : Nat) : Word := BitVec.ofNat 32 (n * 2 ^ 16 + c * 2 ^ 12 + id)

/-- PLOAM_RX_READ (R127): a read of ACT_PLOAM_RX_HDR removes the oldest record and captures it. -/
def State.rxRead (s : State) : State :=
  match s.act.rx with
  | [] => s.ret 0
  | r :: rs =>
    (({ s with act.rx := rs } : State).wrWords (Reg.actPloamRxData 0)
      ((List.range 10).map fun i => r.data.getD i 0)).ret r.hdr

/-- PLOAM_RX_READ (R127). -/
def execPloamRxRead (s : State) : Host.Outcome State Fault Refusal := .next s.rxRead

/-! ### Leaving states (R141, R174, R175) -/

/-- A context leaves service: a key exchange fails, a ranging reservation is released. -/
def State.onuLeave (s : State) (n id : Nat) : State := (s.exchLeave n id).rangeRelease n id

/-- A context becomes FREE (R141, R174): its ranging data, keys, exchange and held Assign_ONU-ID go. -/
def State.onuFree (s : State) (n id : Nat) : State :=
  let j := 2 * n + (s.onu n id).ch
  let s1 := ((s.onuLeave n id).keysFree n id).setOnu n id {}
  let x := s1.actCh j
  s1.setActCh j { x with engine := x.engine.filter fun m => !(m.kind == .assignOnuId && m.onu == id) }

/-- A message about a context's serial number goes out. -/
def State.sendSn (s : State) (n id : Nat) (k : PloamKind) : State :=
  let x := s.onu n id
  s.ploamSend (2 * n + x.ch) { kind := k, onu := id, vendor := x.vendor, serial := x.serial }

/-! ### Ranging_Time (R133, R135) -/

/-- The largest EqD (R133). -/
def eqdMax : Nat := 0xFFFFFF

/-- EqD in 1/16 ns in the unit of Ranging_Time, halves rounded up: one bit at 9.95328 Gb/s on channel 1 (R133). -/
def eqdUnits (c eqd : Nat) : Nat :=
  (2 * eqd * (if c = 1 then 1244160 else Config.hspEqdUnits) + 2000000) / 4000000

/-- Ranging_Time goes out with an EqD that the context keeps; the engine asks for an upstream PLOAM (R135, R136). -/
def State.rangingTime (s : State) (n id eqd : Nat) (toOp : Bool) : State :=
  let x := s.onu n id
  (s.setOnu n id { x with eqd := eqd, ask := true, run := [], runFrom := none }).ploamSend (2 * n + x.ch)
    { kind := .rangingTime, onu := id, eqd := eqdUnits x.ch eqd, toOp := toOp }

/-! ### Assignment and admission (R130, R131, R134) -/

/-- A context takes a serial number (R131): ASSIGNED, its ranging grant reserved; of a newly admitted one Assign_ONU-ID is held for the
frame two before the grant (R134, R162), of one that the host assigns it goes out at the next cut-off (R144). -/
def State.assign (s : State) (n c id : Nat) (vendor serial : Word) (m : Int) (prof : Nat) (held : Bool) : State :=
  let s1 := (s.setOnu n id { st := .assigned, ch := c, vendor := vendor, serial := serial, m := m, prof := prof,
                             fresh := true }).rangeReserve n id
  s1.ploamSend (2 * n + c) { kind := .assignOnuId, onu := id, vendor := vendor, serial := serial,
                             notBefore := if held then ((s1.onu n id).rangeAt.getD 0) - 2 else 0 }

/-- The SN table's valid entry of lowest index for a serial number (R132). -/
def State.snEntry (s : State) (vendor serial : Word) : Option SnEntry :=
  (s.act.sn.find? fun e => Machine.bit e.2.bind 31 && e.2.vendor == vendor && e.2.serial == serial).map Prod.snd

/-- The keys of contexts outside FREE that hold a serial number. -/
def State.onusWith (s : State) (vendor serial : Word) : List (Nat × Onu) :=
  s.act.onus.filter fun e => e.2.st != .free && e.2.vendor == vendor && e.2.serial == serial

/-- ONU-IDs that may be assigned: 0 to 1021 (R123). -/
def idCount : Nat := 1022

/-- Contexts of a port that may be outside FREE at a time (R123). -/
def onuMax : Nat := 512

/-- The lowest FREE ID of a port. -/
def State.lowestFree (s : State) (n : Nat) : Option Nat := (List.range idCount).find? fun id => (s.onu n id).st == .free

/-- Orders 7 and 8 of Table 06.4: the ID of R131 is assigned, unless the port is full. `freed` is the ID of order 6. -/
def State.admitId (s : State) (n c : Nat) (vendor serial : Word) (m : Int) (prof : Nat) (freed : Option Nat) : State :=
  if onuMax ≤ (s.nonFree n).length then s.report n c noOnu 4 vendor serial m
  else
    let pref := (s.snEntry vendor serial).bind fun e =>
      let p := Machine.fld e.bind 9 0
      if Machine.bit e.bind 15 && decide (p < idCount) && (s.onu n p).st == .free then some p else none
    match (pref.or freed).or (s.lowestFree n) with
    | some id => (s.assign n c id vendor serial m prof true).report n c id 0 vendor serial m
    | none => s.report n c noOnu 4 vendor serial m

/-- Admission of a serial number found on channel `c` of port `n` (R130): the first matching row of Table 06.4. -/
def State.admitOnu (s : State) (n c : Nat) (vendor serial : Word) (m : Int) (prof : Nat) : State :=
  let refuse (cause : Nat) : State := s.report n c noOnu cause vendor serial m
  let wrong (cause : Nat) : State := (refuse cause).raise (leafOf 12 1) 0 (onuWord n c noOnu) 0 0
  let held := s.onusWith vendor serial
  let entry := s.snEntry vendor serial
  if s.actExp 30 then refuse 7
  else if held.any fun e => decide (e.1 / 1024 ≠ n) then wrong 1
  else if (match entry with
      | some e => Machine.bit e.bind 30 && decide (Machine.fld e.bind 21 16 ≠ n)
      | none => false) then wrong 2
  else if s.authProv && entry.isNone then refuse 3
  else
    if held.any fun e => e.2.st == .disabled then s.bump (Reg.actPortDisSn n)
    else
      (s.each (held.map fun e => e.1 % 1024) fun id s => (s.sendSn n id .deactivateOnuId).onuFree n id).admitId n c vendor serial m
        prof (held.head?.map fun e => e.1 % 1024)

/-- A serial number is discovered (R130, R142): its apparent RTD is kept, and it is admitted. -/
def State.discovered (s : State) (n c : Nat) (vendor serial : Word) (m : Int) (prof : Nat) : State :=
  let s1 := { s with act.seen :=
    (n, vendor, serial, m, prof) :: s.act.seen.filter fun e => !(e.1 == n && e.2.1 == vendor && e.2.2.1 == serial) }
  if s1.engineOn then s1.admitOnu n c vendor serial m prof else s1

/-! ### Ranging (R133, R134) -/

/-- A ranging grant ended without its burst (R134): the context returns to the end of the order, or after RANGE_RETRIES misses
becomes FREE with CAUSE 5. -/
def State.rangeMiss (s : State) (n id : Nat) : State :=
  let x := s.onu n id
  if x.st ≠ .ranging ∨ !s.engineOn then s
  else
    let s1 := (s.rangeRelease n id).setOnu n id { x with misses := x.misses + 1, rangeAt := none }
    if Nat.max 1 (s.fld Reg.actDiscTiming 31 30) ≤ x.misses + 1 then (s1.reportOnu n id 5).onuFree n id
    else s1.rangeReserve n id

/-- `a / 16` rounded to nearest, halves up. -/
def round16 (a : Int) : Int := (a + 8) / 16

/-- PON_TEQ.TEQ_NS moves by a number of ns (R324, R325). -/
def State.moveTeq (s : State) (n : Nat) (d : Int) : State := s.setFld (Reg.ponTeq n) 19 0 (unsign 20 ((s.teq n : Int) + d))

/-- The first ranging burst of a port without a converged offset gives its offset; the ONUs not yet ranged leave the ranging order
and are granted as before (R325). -/
def State.acquired (s : State) (n id : Nat) (rtd : Int) : State :=
  let x := s.onu n id
  if !x.acq then s
  else
    let s1 := (s.moveTeq n (round16 (rtd - x.m))).setOnu n id { x with acq := false }
    s1.each ((s1.nonFree n).filter fun k => (s1.onu n k).acq) fun k s =>
      let s2 := s.rangeRelease n k
      let y := s2.onu n k
      s2.setOnu n k { y with acq := false, st := if y.st = .ranging then .operational else y.st }

/-- A ranging burst is confirmed with a round-trip delay in 1/16 ns (R133, R135, R143). -/
def State.ranged (s : State) (n id : Nat) (rtd : Int) : State :=
  let s1 := (s.rangeRelease n id).acquired n id rtd
  let teq := if (s.onu n id).acq then s1.teq n else (s1.ponPort n).teq
  let eqd : Int := (teq * 16 : Nat) - rtd
  if !s.engineOn then s1
  else if s.actExp 29 then s1.rxPush 2 n (s1.onu n id).ch id 0 [BitVec.ofInt 32 rtd]
  else if eqd < 0 ∨ (eqdMax : Int) < eqd then (s1.reportOnu n id 6).onuFree n id
  else s1.rangingTime n id eqd.toNat true

/-- The Alloc contexts of a port that name an ONU are reseeded (R150). -/
def State.reseedOnu (s : State) (n id : Nat) : State :=
  { s with rck.ctxs := s.rck.ctxs.map fun e =>
      if e.1 / 4096 = n ∧ Machine.fld e.2.cfg0 9 0 = id then (e.1, { e.2 with reseed := true }) else e }

/-- The cut-off of frame `f` takes a Ranging_Time (R135, R136): drift runs restart two frames later; one that ends ranging makes
the context OPERATIONAL with CAUSE 10. -/
def State.rangingTaken (s : State) (n id f : Nat) (toOp : Bool) : State :=
  let x := s.onu n id
  let x1 := { x with runFrom := some (f + 2) }
  if toOp && s.engineOn && (x.st == .ranging || x.active) then
    let x2 :=
      if x.st = .operational then x1
      else { x1 with st := .operational, opFrame := f, ploamu := f, quiet := 0, misses := 0, fresh := false }
    let s1 := (s.setOnu n id x2).reportOnu n id 10
    if x.st = .ranging ∧ x.fresh then s1.reseedOnu n id else s1
  else if x.st = .free then s
  else s.setOnu n id x1

/-! ### Downstream queues (R126) -/

/-- A message's content for its MIC. -/
def ploamContent (m : PloamMsg) : List Word :=
  match m.kind with
  | .rangingTime => [BitVec.ofNat 32 m.eqd]
  | .keyControl i => [BitVec.ofNat 32 i]
  | .host => m.data
  | _ => [m.vendor, m.serial]

/-- A kind's number. -/
def ploamCode : PloamKind → Nat
  | .assignOnuId => 0
  | .rangingTime => 1
  | .deactivateOnuId => 2
  | .disableSerialNumber => 3
  | .enableSerialNumber => 4
  | .keyControl _ => 5
  | .host => 6

/-- The integrity key of an ONU, none for the standard's default key, whose use is a non-approved service (R173, R370). -/
def State.micKey (s : State) (n id : Nat) : Option (BitVec 128) × State :=
  match s.live (s.keySet n id).ik with
  | some k => (some k, s)
  | none => (none, s.useNonApproved)

/-- The engine writes sequence number and MIC on a message that has none yet (R126); its own messages wait for their
Acknowledge (R125). -/
def State.ploamWrite (s : State) (n : Nat) (m : PloamMsg) : PloamMsg × State :=
  if m.written then (m, s)
  else
    let k := n * 1024 + m.onu
    let seq := s.act.seqs.get (fun _ => 0) k
    let q := s.micKey n m.onu
    let s1 := { q.2 with act.seqs := q.2.act.seqs.set (fun _ => 0) k ((seq + 1) % 256) }
    let m1 := { m with seq := seq, mic := Config.ploamMic q.1 (ploamCode m.kind) m.onu seq (ploamContent m), written := true }
    let x := s1.onu n m.onu
    (m1, if m.kind == .host || x.st == .free then s1 else s1.setOnu n m.onu { x with acks := x.acks ++ [seq] })

/-- Messages taken for frame `f` are written, and those that end ranging take effect (R126, R135). -/
def State.ploamTakeAll (s : State) (n f : Nat) : List PloamMsg → List PloamMsg × State
  | [] => ([], s)
  | m :: ms =>
    let q := s.ploamWrite n m
    let s1 := if m.kind = .rangingTime ∧ !m.written then q.2.rangingTaken n m.onu f m.toOp else q.2
    let r := s1.ploamTakeAll n f ms
    (q.1 :: r.1, r.2)

/-- Messages of a frame (R126). -/
def ploamPerFrame : Nat := 8

/-- The first `k` messages that may go into frame `f`, and the others in their order. -/
def ploamPick (f : Nat) : Nat → List PloamMsg → List PloamMsg × List PloamMsg
  | _, [] => ([], [])
  | k, m :: ms =>
    if 0 < k ∧ m.notBefore ≤ f then
      let r := ploamPick f (k - 1) ms
      (m :: r.1, r.2)
    else
      let r := ploamPick f k ms
      (r.1, m :: r.2)

/-- The cut-off of frame `f` fills it with at most 8 messages: the engine's in sequencer order, then the host's (R126). -/
def State.ploamCut (s : State) (j f : Nat) : State :=
  let x := s.actCh j
  let eng := ploamPick f ploamPerFrame x.engine
  let host := x.host.take (ploamPerFrame - eng.1.length)
  let q := s.ploamTakeAll (j / 2) f (eng.1 ++ host)
  let y := q.2.actCh j
  q.2.setActCh j { y with
    engine := (ploamPick f eng.1.length y.engine).2, host := y.host.drop host.length, taken := q.1 }

/-- The frame that took messages is not sent: they return to the heads of their queues (R126). -/
def State.ploamReturn (s : State) (j : Nat) : State :=
  let x := s.actCh j
  s.setActCh j { x with
    taken := [],
    engine := x.taken.filter (fun m => m.kind != .host) ++ x.engine,
    host := x.taken.filter (fun m => m.kind == .host) ++ x.host }

/-- Host messages a channel's queue holds (R126). -/
def hostPloamMax : Nat := 16

/-- A write of ACT_PLOAM_TX_CMD: SEND queues the message, or it is discarded and counted (R126). A port above 47 has no
queue. -/
def State.ploamTx (s : State) (v : Word) : State :=
  let n := Machine.fld v 28 23
  let j := 2 * n + Machine.fld v 22 22
  if !Machine.bit v 31 ∨ 48 ≤ n then s
  else
    let x := s.actCh j
    if x.host.length < hostPloamMax then
      s.setActCh j { x with host := x.host ++
        [{ kind := .host, onu := Machine.fld v 21 12, data := (List.range 10).map fun i => s.rd (Reg.actPloamTxData i) }] }
    else s.bump Reg.actPloamTxDrop

/-- PLOAM_TX_SEND (R126). -/
def execPloamTxSend (val : Word) (s : State) : Host.Outcome State Fault Refusal := .next (s.ploamTx val)

/-! ### Upstream messages (R125) -/

/-- A message that the engine consumes is copied to the host with COPY_ALL, a Registration always (R125). -/
def State.ploamCopy (s : State) (n c id : Nat) (always : Bool) (data : List Word) : State :=
  if always || s.actExp 31 then s.rxPush 0 n c id 0 data else s

/-- An upstream message of ONU `id` (R125). `disc` says that it came in a discovery window, with the apparent RTD and the
window's profile. -/
def State.upPloam (s : State) (n c id : Nat) (m : UpPloam) (disc : Option (Int × Nat)) : State :=
  let q := s.micKey n id
  if m.mic ≠ Config.ploamMicUp q.1 m.data then q.2.bump Reg.actPloamMicErr
  else
    let x := q.2.onu n id
    let s1 := if x.st = .free then q.2 else q.2.setOnu n id { x with ask := false }
    match m.kind with
    | .serialNumber v w =>
      let s2 := s1.ploamCopy n c id false m.data
      match disc with
      | some (rtd, prof) => s2.discovered n c v w rtd prof
      | none => s2
    | .registration => s1.ploamCopy n c id true m.data
    | .acknowledge seq =>
      let y := s1.onu n id
      if y.acks.contains seq then
        (s1.setOnu n id { y with acks := y.acks.filter fun k => k != seq }).ploamCopy n c id false m.data
      else s1.rxPush 0 n c id 0 m.data
    | .keyReport i last => s1.keyReport n id i last m.data
    | .other => s1.rxPush 0 n c id 0 m.data

/-- The first of a burst's allocations with PLOAMu whose message has not arrived takes it. -/
def hearPloam : List Grant → Option (List Grant)
  | [] => none
  | g :: gs => if g.ploamu && !g.heard then some ({ g with heard := true } :: gs) else (hearPloam gs).map fun r => g :: r

/-- A message of confirmed burst `i` of map `f` on channel `j`: one for each allocation with PLOAMu (R125, R156). -/
def State.burstPloam (s : State) (j f i : Nat) (msg : UpPloam) : State :=
  match s.burstOf j f i with
  | some b =>
    if b.st = .confirmed ∧ b.kind ≠ .discovery then
      match hearPloam b.grants with
      | some gs => (s.updBurst j f i fun b => { b with grants := gs }).upPloam (j / 2) (j % 2) b.onu msg none
      | none => s
    else s
  | none => s

/-- UPSTREAM_PLOAM (R125). -/
def execUpstreamPloam (j : Fin 96) (f i : Nat) (msg : UpPloam) (s : State) : Host.Outcome State Fault Refusal :=
  .next (s.burstPloam j.val f i msg)

/-! ### Drift (R136) -/

/-- `num / den` rounded to nearest, halves away from zero. -/
def roundDiv (num : Int) (den : Nat) : Int :=
  if num < 0 then -(((2 * num.natAbs + den) / (2 * den) : Nat) : Int) else ((2 * num.natAbs + den) / (2 * den) : Nat)

/-- Two offsets have the same sign. -/
def sameSign (a b : Int) : Bool := decide (0 < a) == decide (0 < b)

/-- A confirmed burst of an OPERATIONAL context with its arrival offset in bits at a profile's rate (R136). -/
def State.drift (s : State) (n id f : Nat) (p : BurstProf) (off : Int) : State :=
  let x := s.onu n id
  let counts := match x.runFrom with
    | some g => decide (g ≤ f) && decide (s.chrono.realignHold ≤ f)
    | none => false
  if x.st ≠ .operational ∨ !counts then s
  else if off.natAbs ≤ s.fld Reg.actSupvCfg 23 16 then s.setOnu n id { x with run := [] }
  else
    let run := match x.run with
      | r :: rs => if sameSign r off then off :: r :: rs else [off]
      | [] => [off]
    if run.length < Nat.max 1 (s.fld Reg.actSupvCfg 15 12) then s.setOnu n id { x with run := run }
    else
      let mean := run.sum.tdiv run.length
      let corr := roundDiv (mean * 2000000) p.bits
      let eqd : Int := x.eqd - corr
      let s1 := s.setOnu n id { x with run := [] }
      if s.actExp 28 then s1.reportOnu n id 11
      else if eqd < 0 ∨ (eqdMax : Int) < eqd then (s1.setOnu n id { x with run := [], stuck := true }).reportOnu n id 11
      else (s1.bump (Reg.actPortDrift n)).rangingTime n id eqd.toNat false

/-! ### Rogue ONUs (R138, R139) -/

/-- An offence of an OPERATIONAL or LOST context (R139). -/
def State.offence (s : State) (n id : Nat) : State :=
  let x := s.onu n id
  if !x.active then s
  else
    let k := Nat.min 255 (x.offences + 1)
    let lim := Nat.max 1 (s.fld Reg.actSupvCfg2 7 0)
    let s1 := s.setOnu n id { x with offences := k }
    if x.offences < lim ∧ lim ≤ k then
      let s2 := (s1.setOnu n id { x with offences := k, named := true }).raise (leafOf 12 2) 0 (onuWord n x.ch id) 0 0
      if s.rogueAction && s.engineOn then
        let s3 := (s2.sendSn n id .disableSerialNumber).onuLeave n id
        (s3.setOnu n id { s3.onu n id with st := .disabled }).reportOnu n id 9
      else s2
    else s1

/-- OFFENCES clear in every frame whose superframe count is a multiple of 8,000 (R139). -/
def State.clearOffences (s : State) : State :=
  { s with act.onus := s.act.onus.mapVals (fun _ => {}) fun x => { x with offences := 0 } }

/-- Intervals in ns of the PON time line, each rounded down, that the sent maps of channel `j` hold: granted bursts with their guard,
open discovery windows and ranging spans; with the ONU of a granted burst. -/
def State.heldNs (s : State) (j : Nat) : List (Nat × Nat × Option Nat) :=
  let L := frameUnits (j % 2)
  (s.maps j).flatMap fun m =>
    if m.sent then m.bursts.map fun b =>
      if b.kind = .data then
        let o := s.originOf j m.f
        (o + b.lo * 125000 / L, o + b.hi * 125000 / L, some b.onu)
      else (b.span.1, b.span.2, none)
    else []

/-- Busy intervals of upstream frame `f` in ns from its origin (R118, R138). -/
def State.busyNs (s : State) (j f : Nat) : List (Nat × Nat) :=
  let o := s.originOf j f
  (s.heldNs j).filterMap fun h =>
    if meets o (o + 125000) h.1 h.2.1 then some (h.1 - o, Nat.min 125000 (h.2.1 + 1 - o)) else none

/-- ns that two intervals share. -/
def shared (a b c d : Nat) : Nat := Nat.min b d - Nat.max a c

/-- The shortest quiet interval in ns (R138). -/
def quietMin : Nat := 64

/-- The ONU whose granted burst a guard time from `lo` follows (R139): the last burst to end before it, with no quiet interval between
(log 123). -/
def burstBefore (held : List (Nat × Nat × Option Nat)) (lo : Nat) : Option Nat :=
  ((held.filter fun h => decide (h.2.1 ≤ lo)).foldl
    (fun a h => match a with
      | some x => if x.2.1 < h.2.1 then some h else some x
      | none => some h) none).bind fun h => if lo < h.2.1 + quietMin then h.2.2 else none

/-- The ONUs whose overrun an energy of `lo` to `hi` ns from the origin of upstream frame `f` shows: it lies for ENERGY_NS in the guard
time after their burst (R139). -/
def State.overruns (s : State) (j f lo hi need : Nat) : List Nat :=
  let g := s.guardNs (j / 2) (j % 2)
  let o := s.originOf j f
  let held := s.heldNs j
  held.filterMap fun h =>
    if need ≤ shared (o + lo) (o + hi) h.1 (h.1 + g) then burstBefore held h.1 else none

/-- ENERGY_OBSERVATION (R138, R139): energy from `lo` to `hi` ns after the origin of upstream frame `f`. -/
def State.energy (s : State) (j f lo hi : Nat) : State :=
  let need := Nat.max 1 (s.fld Reg.actSupvCfg2 15 8)
  let quiet := (freeGaps 125000 (s.busyNs j f)).any fun g => decide (quietMin ≤ g.2 - g.1) && decide (need ≤ shared lo hi g.1 g.2)
  let s1 := s.each (s.overruns j f lo hi need) fun id s => s.offence (j / 2) id
  if quiet then
    let s2 := s1.bump (Reg.actPortEnergy (j / 2))
    let x := s2.actCh j
    let seen := (f :: x.energy.filter fun k => k != f).filter fun k => decide (f < k + 64)
    let on := decide (Nat.max 1 (s2.fld Reg.actSupvCfg 11 6) ≤ seen.length)
    let s3 := s2.setActCh j { x with energy := seen, anon := x.anon || on }
    if on && !x.anon then s3.event (leafOf (3 + j / 32) (j % 32)) j else s3
  else s1

/-- ENERGY_OBSERVATION (R138). -/
def execEnergyObservation (j : Fin 96) (f lo hi : Nat) (s : State) : Host.Outcome State Fault Refusal :=
  .next (s.energy j.val f lo hi)

/-- ROGUE_ANON_CLEAR (R138): upstream frame `f` has ended, the last of 64 without an observation. -/
def State.anonClear (s : State) (j f : Nat) : State :=
  let x := s.actCh j
  if x.energy.all fun k => decide (k + 64 ≤ f) then s.setActCh j { x with anon := false } else s

/-- ROGUE_ANON_CLEAR (R138). -/
def execRogueAnonClear (j : Fin 96) (f : Nat) (s : State) : Host.Outcome State Fault Refusal := .next (s.anonClear j.val f)

/-! ### Loss and deactivation (R140) -/

/-- ONU_LOSS (R140): ONU_LOSS_FRAMES granted frames in a row without a burst. -/
def State.onuLoss (s : State) (n id : Nat) : State :=
  let x := s.onu n id
  if x.st = .operational ∧ Nat.max 1 (s.fld Reg.actSupvCfg 31 24) ≤ x.quiet ∧ s.engineOn then
    (s.setOnu n id { x with st := .lost, lostAt := s.raw }).raise (leafOf 12 3) 0 (onuWord n x.ch id) 0 0
  else s

/-- ONU_LOSS (R140). -/
def execOnuLoss (n : Fin 48) (onu : Fin 1024) (s : State) : Host.Outcome State Fault Refusal :=
  .next (s.onuLoss n.val onu.val)

/-- Deactivate_ONU-ID goes out, the context becomes FREE with CAUSE 8 (R140, R144). -/
def State.deactivate (s : State) (n id : Nat) : State :=
  ((s.sendSn n id .deactivateOnuId).reportOnu n id 8).onuFree n id

/-- ONU_DEACTIVATION (R140): DEACT_MS in LOST. -/
def State.lostTimer (s : State) (n id : Nat) : State :=
  let x := s.onu n id
  if x.st = .lost ∧ s.engineOn ∧ s.reached (x.lostAt + BitVec.ofNat 96 (s.fld Reg.actSupvCfg2 31 16 * 1000000 * nsUnit)) then
    s.deactivate n id
  else s

/-- ONU_DEACTIVATION (R140). -/
def execOnuDeactivation (n : Fin 48) (onu : Fin 1024) (at' : Raw) (s : State) : Host.Outcome State Fault Refusal :=
  .next ((s.advance at').lostTimer n.val onu.val)

/-! ### Host commands (R144) -/

/-- A write of ACT_CMD: GO holds the command, or is refused with cause 1 while one is pending, and with cause 2 when it names no
operation, port or assignable ONU-ID. -/
def State.actCmdWrite (s : State) (v : Word) : State :=
  let s1 := s.wrTyped Reg.actCmd v
  let op := Machine.fld v 27 24
  if !Machine.bit v 31 then s1
  else if s1.act.cmd.isSome then s1.wrNat Reg.actCmdStatus (2 ^ 31 + 2 ^ 29 + 1)
  else if op = 0 ∨ 6 < op ∨ 48 ≤ Machine.fld v 21 16 ∨ idCount ≤ Machine.fld v 9 0 then
    s1.wrNat Reg.actCmdStatus (2 ^ 29 + 2)
  else
    { s1.wr Reg.actCmdStatus 0x80000000 with
      act.cmd := some (v, s1.rd Reg.actCmdData, s1.rd Reg.actCmdSnV, s1.rd Reg.actCmdSnS) }

/-- The context states a command accepts (Table 06.5). -/
def cmdAccepts (op : Nat) (st : OnuSt) : Bool :=
  match op with
  | 1 => st == .free
  | 2 => st == .ranging || st == .operational || st == .lost
  | 3 | 4 => st != .free
  | 5 => st == .disabled
  | _ => st == .assigned || st == .operational || st == .lost

/-- The apparent RTD and profile for a context that the host assigns: those of the latest discovery of the serial number on the
port; without one, an unstated value within the discovery span, and the profile of the channel's windows. -/
def State.seenOf (s : State) (n c : Nat) (vendor serial : Word) : (Int × Nat) × State :=
  match s.act.seen.find? fun e => e.1 == n && e.2.1 == vendor && e.2.2.1 == serial with
  | some e => ((e.2.2.2.1, e.2.2.2.2), s)
  | none =>
    let q := s.draw
    ((((s.rtdMinUs * 16000 + Config.freeNat q.1 % (s.quietUs * 16000 + 1) : Nat) : Int),
      if s.ponPers n = 4 ∧ c = 0 then 3 else 1), q.2)

/-- The effect of an accepted command (Table 06.5). -/
def State.cmdEffect (s : State) (op n c id : Nat) (data vendor serial : Word) : State :=
  match op with
  | 1 =>
    let q := s.seenOf n c vendor serial
    q.2.assign n c id vendor serial q.1.1 q.1.2 false
  | 2 =>
    let s1 := s.rangeRelease n id
    (s1.setOnu n id { s1.onu n id with stuck := false }).rangingTime n id (Machine.fld data 23 0) true
  | 3 => s.deactivate n id
  | 4 =>
    let s1 := (s.sendSn n id .disableSerialNumber).onuLeave n id
    s1.setOnu n id { s1.onu n id with st := .disabled }
  | 5 => (s.sendSn n id .enableSerialNumber).onuFree n id
  | _ =>
    let s1 := s.rangeRelease n id
    (s1.setOnu n id { s1.onu n id with misses := 0 }).rangeReserve n id

/-- The sequencer takes the held command when it is the given one (R124, R144). In SAFE no context changes state (R142): the command is
refused with cause 2 (log 124). -/
def State.takeCmd (s : State) (op : Nat) : State :=
  match s.act.cmd with
  | none => s
  | some (v, data, vendor, serial) =>
    if Machine.fld v 27 24 ≠ op then s
    else
      let n := Machine.fld v 21 16
      let id := Machine.fld v 9 0
      let s1 := { s with act.cmd := none }
      if !s1.engineOn || !cmdAccepts op (s1.onu n id).st then s1.wrNat Reg.actCmdStatus (2 ^ 29 + 2)
      else if op = 1 ∧ onuMax ≤ (s1.nonFree n).length then s1.wrNat Reg.actCmdStatus (2 ^ 29 + 3)
      else (s1.cmdEffect op n (Machine.fld v 12 12) id data vendor serial).wr Reg.actCmdStatus 0x40000000

/-- ASSIGN_ID (R144). -/
def execAssignId (s : State) : Host.Outcome State Fault Refusal := .next (s.takeCmd 1)

/-- SET_EQD (R144). -/
def execSetEqd (s : State) : Host.Outcome State Fault Refusal := .next (s.takeCmd 2)

/-- DEACTIVATE (R144). -/
def execDeactivate (s : State) : Host.Outcome State Fault Refusal := .next (s.takeCmd 3)

/-- DISABLE (R144). -/
def execDisable (s : State) : Host.Outcome State Fault Refusal := .next (s.takeCmd 4)

/-- ENABLE (R144). -/
def execEnable (s : State) : Host.Outcome State Fault Refusal := .next (s.takeCmd 5)

/-- RANGE (R144). -/
def execRangeCmd (s : State) : Host.Outcome State Fault Refusal := .next (s.takeCmd 6)

/-! ### The SN table (R132) -/

/-- A write of ACT_SNTAB_CMD (Table 06.15): WRITE, then READ. -/
def State.snCmd (s : State) (v : Word) : State :=
  let i := s.fld Reg.actSntabIdx 14 0
  let s1 :=
    if Machine.bit v 31 then
      { s with act.sn := s.act.sn.set (fun _ => {}) i
                 { vendor := s.rd Reg.actSntabVendor, serial := s.rd Reg.actSntabSerial, bind := s.rd Reg.actSntabBind } }
    else s
  if Machine.bit v 30 then
    let e := s1.act.sn.get (fun _ => {}) i
    ((s1.wr Reg.actSntabVendor e.vendor).wr Reg.actSntabSerial e.serial).wr Reg.actSntabBind e.bind
  else s1

/-- SNTAB_WRITE (R132). -/
def execSntabWrite (val : Word) (s : State) : Host.Outcome State Fault Refusal := .next (s.snCmd val)

/-- SNTAB_READ (R132). -/
def execSntabRead (val : Word) (s : State) : Host.Outcome State Fault Refusal := .next (s.snCmd val)

/-! ### Contexts as software reads them (Tables 06.12 and 06.16) -/

/-- The code of a state (Table 06.1). -/
def onuCode : OnuSt → Nat
  | .free => 0
  | .assigned => 1
  | .ranging => 2
  | .operational => 3
  | .lost => 4
  | .disabled => 5

/-- Word `w` of ACT_ONU. -/
def State.onuWordAt (s : State) (n id w : Nat) : Word :=
  let x := s.onu n id
  match w with
  | 0 => BitVec.ofNat 32 (ofBool x.named * 2 ^ 31 + ofBool x.stuck * 2 ^ 30 + x.offences * 2 ^ 16 + x.ch * 2 ^ 12 + onuCode x.st)
  | 1 => x.vendor
  | 2 => x.serial
  | _ => BitVec.ofNat 32 x.eqd

/-- ACT_PORT_STATUS of a port. -/
def State.actPortStatus (s : State) (n : Nat) : Word :=
  BitVec.ofNat 32 (ofBool (s.actCh (2 * n + 1)).anon * 2 ^ 25 + ofBool (s.actCh (2 * n)).anon * 2 ^ 24 + (s.nonFree n).length)

/-- Every context of a port becomes FREE without records, and its PLOAM queues empty (R142: a personality change). -/
def State.personalityFree (s : State) (n : Nat) : State :=
  (s.each (s.nonFree n) fun id s => s.onuFree n id).each [2 * n, 2 * n + 1] fun j s =>
    let x := s.actCh j
    s.setActCh j { x with engine := [], host := [], taken := [] }

end Sys2Proof.Machine
end

