-- ==== Sys2Proof/Machine/Reckoner.lean ====
section
/-!
DEFINITION. Machine/Reckoner.lean: Alloc contexts, fixes, the sizing and placing of grants, the booking calendar (chapter 07).
-/
namespace Sys2Proof.Machine

/-! ### Parameters (Tables 07.6 to 07.8) -/

/-- DBA_EXPERT_EN. -/
def State.dbaExpert (s : State) : Bool := s.bit Reg.dbaCtrl 31

def State.alphaShift (s : State) : Nat := if s.dbaExpert then s.fld Reg.dbaExpCfg 31 29 else 3
def State.estimateOn (s : State) : Bool := if s.dbaExpert then s.bit Reg.dbaExpCfg 28 else s.bit Reg.dbaCtrl 4
def State.staleFrames (s : State) : Nat := if s.dbaExpert then Nat.max 1 (s.fld Reg.dbaExpCfg 27 20) else 64
def State.pollFrames (s : State) : Nat :=
  if s.dbaExpert then s.fld Reg.dbaExpCfg 19 14 else 4 * 2 ^ s.fld Reg.dbaCtrl 9 8
def State.ploamFrames (s : State) : Nat := if s.dbaExpert then Nat.max 1 (s.fld Reg.dbaExpCfg 13 8) else 8
def State.minGrant (s : State) : Nat := if s.dbaExpert then Nat.max 1 (s.fld Reg.dbaExpCfg2 31 16) else 64
def State.quantum (s : State) : Nat := if s.dbaExpert then Nat.max 1 (s.fld Reg.dbaExpCfg2 15 0) else 64

/-! ### Bandwidth profiles and Alloc contexts (R149, R150) -/

/-- A bandwidth profile (Table 07.14); rates in kb/s. -/
structure BwProf where
  fixed : Nat
  assured : Nat
  maxRate : Nat
  elig : Nat
  prio : Nat
  weight : Nat
  train : Nat
  bprof : Nat
  est : Bool
  dbru : Bool
  cap : Nat
deriving DecidableEq, Repr

/-- Profile `p` of the active bank. -/
def State.bwProf (s : State) (p : Nat) : BwProf :=
  let b := s.activeBank Reg.dbaCommit
  let w := s.rd (Reg.dbaProfW3 b p)
  let cap := s.fld (Reg.dbaProfW4 b p) 3 0
  { fixed := s.fld (Reg.dbaProfW0 b p) 25 0, assured := s.fld (Reg.dbaProfW1 b p) 25 0,
    maxRate := s.fld (Reg.dbaProfW2 b p) 25 0, elig := Nat.min 2 (Machine.fld w 31 30), prio := Machine.fld w 26 24,
    weight := Nat.max 1 (Machine.fld w 23 16), train := Nat.min 8 (Nat.max 1 (Machine.fld w 15 12)),
    bprof := Machine.fld w 9 8, est := Machine.bit w 4, dbru := Machine.bit w 0, cap := if cap = 0 then 2 else cap }

/-- Alloc context `i` of port `n`. -/
def State.alloc (s : State) (n i : Nat) : AllocCtx := s.rck.ctxs.get (fun _ => {}) (n * 4096 + i)

/-- Replace an Alloc context. -/
def State.setAlloc (s : State) (n i : Nat) (x : AllocCtx) : State :=
  { s with rck.ctxs := s.rck.ctxs.set (fun _ => {}) (n * 4096 + i) x }

def AllocCtx.valid (x : AllocCtx) : Bool := Machine.bit x.cfg0 31
def AllocCtx.allocId (x : AllocCtx) : Nat := Machine.fld x.cfg0 29 16
def AllocCtx.onuId (x : AllocCtx) : Nat := Machine.fld x.cfg0 9 0
def AllocCtx.bw (x : AllocCtx) : Nat := Machine.fld x.cfg1 9 0

/-- A write of a context's configuration (R150): it reseeds when VALID rises or ALLOC_ID or ONU_ID changes. -/
def AllocCtx.write (x : AllocCtx) (c0 c1 : Word) : AllocCtx :=
  let y := { x with cfg0 := c0, cfg1 := c1 }
  if (!x.valid && y.valid) || y.allocId != x.allocId || y.onuId != x.onuId then { y with reseed := true } else y

/-- A write of DBA_ALLOC_SEL (Table 07.10). -/
def State.allocSelWrite (s : State) (v : Word) : State :=
  let s1 := s.wrTyped Reg.dbaAllocSel v
  let n := Machine.fld v 21 16
  let i := Machine.fld v 11 0
  if 48 ≤ n then s1
  else
    let s2 :=
      if Machine.bit v 31 then
        s1.setAlloc n i ((s1.alloc n i).write (s1.rd Reg.dbaAllocCfg0) (s1.rd Reg.dbaAllocCfg1))
      else s1
    if Machine.bit v 30 then
      let x := (s2.alloc n i).shown
      (((((s2.wr Reg.dbaAllocCfg0 x.cfg0).wr Reg.dbaAllocCfg1 x.cfg1).wrNat Reg.dbaAllocFix (Nat.min x.fix 0xFFFFFF)).wrNat
        Reg.dbaAllocFixFrame x.fixFrame).wrNat Reg.dbaAllocRate x.rate).wrNat Reg.dbaAllocEst (Nat.min x.est 0xFFFFFF)
    else s2

/-- ALLOC_WRITE (R150). -/
def execAllocWrite (val : Word) (s : State) : Host.Outcome State Fault Refusal := .next (s.allocSelWrite val)

/-- ALLOC_READ (R150). -/
def execAllocRead (val : Word) (s : State) : Host.Outcome State Fault Refusal := .next (s.allocSelWrite val)

/-! ### Fixes (R151, R152) -/

/-- Sum over a context's history in frames `a` to `b`. -/
def AllocCtx.sum (x : AllocCtx) (a b : Nat) (g : MapHist → Nat) : Nat :=
  ((x.hist.filter fun h => decide (a ≤ h.f) && decide (h.f ≤ b)).map g).sum

/-- Change what a context's history holds for a frame. -/
def AllocCtx.note (x : AllocCtx) (f : Nat) (g : MapHist → MapHist) : AllocCtx :=
  if x.hist.any fun h => h.f == f then { x with hist := x.hist.map fun h => if h.f = f then g h else h }
  else { x with hist := g { f := f } :: x.hist }

/-- A new fix (R152). -/
def AllocCtx.fix (x : AllocCtx) (fn bn alpha : Nat) : AllocCtx :=
  let fo := x.fixFrame
  let arr : Int := (bn : Int) - x.fixBytes + x.sum (fo + 1) fn MapHist.delivered - x.sum (fo + 1) fn MapHist.booked
  let sample : Int := (arr.toNat * 256 / (fn - fo) : Nat)
  let rate : Int := x.rate + (sample - x.rate) / (2 ^ alpha : Int)
  { x with rate := rate.toNat, fixBytes := bn, fixFrame := fn, hist := x.hist.filter fun h => decide (fn < h.f) }

/-- DBRU_REPORT (R151): the report of allocation `k` of burst `i` of map `f`. A report that fails its check, or whose fix frame
is not later than the context's, is discarded and counted. -/
def State.dbruReport (s : State) (j f i k : Nat) (good : Bool) (bytes : Nat) : State :=
  match (s.burstOf j f i).bind fun b => if b.st = .confirmed then b.grants[k]? else none with
  | some g =>
    match g.ctx with
    | some a =>
      let x := s.alloc (j / 2) a
      if !g.dbru then s
      else if !good || x.reseed || f ≤ x.fixFrame then s.bump (Reg.dbaReportBad j)
      else (s.setAlloc (j / 2) a (x.fix f bytes s.alphaShift)).bump (Reg.dbaReports j)
    | none => s
  | none => s

/-- DBRU_REPORT (R151). -/
def execDbruReport (j : Fin 96) (f i k : Nat) (good : Bool) (bytes : Nat) (s : State) : Host.Outcome State Fault Refusal :=
  .next (s.dbruReport j.val f i k good bytes)

/-! ### Start of a computation (R149, R150, R153) -/

/-- A booking's pieces are discarded and counted (R150). -/
def State.dropBookings (s : State) (key : Nat) : State :=
  (s.rck.books.filter fun b => b.ctx == key).foldl (fun s b => s.bumpBy (Reg.dbaBookLost b.j) b.pieces.length)
    { s with rck.books := s.rck.books.filter fun b => b.ctx != key }

/-- Reseeding (R150). -/
def AllocCtx.seed (x : AllocCtx) (f assured : Nat) : AllocCtx :=
  { x with reseed := false, fixBytes := 0, fixFrame := f - 1, rate := assured * 4, accF := 0, accA := 0, accM := 0,
           deficit := 0, hist := [], lastAlloc := f - 1 }

/-- One refill: the accumulator gains its rate and is clamped to rate × CRED_CAP (R149). -/
def accRefill (acc : Int) (kbps cap : Nat) : Int := min (acc + (kbps * 4 : Nat)) ((kbps * 4 * cap : Nat) : Int)

/-- The estimated backlog at the start of map `f` (R153); `now` is what booked pieces of map `f` grant. -/
def AllocCtx.backlog (x : AllocCtx) (f stale now : Nat) (rate : Bool) : Nat :=
  let k := Nat.min stale (f - x.fixFrame)
  let est : Int := (x.fixBytes : Int) + (if rate then x.rate * k / 256 else 0 : Nat) +
    x.sum (x.fixFrame + 1) f MapHist.booked - x.sum (x.fixFrame + 1) (f - 1) MapHist.granted - now
  est.toNat

/-- The grants of an ONU go to map `f` (R147): OPERATIONAL or LOST, from the second map after it became OPERATIONAL. -/
def State.grantable (s : State) (n id f : Nat) : Bool :=
  let x := s.onu n id
  x.active && decide (x.opFrame + 2 ≤ f)

/-- The Reckoner grants on a port in map `f` (R147). -/
def State.grants (s : State) (n f : Nat) : Bool := s.serving && !s.settling n f

/-- A booked piece of map `f` is issued (R165). -/
def State.pieceOk (s : State) (n f a : Nat) : Bool :=
  let x := s.alloc n a
  s.grants n f && x.valid && s.grantable n x.onuId f

/-- Payload that booked pieces of map `f` grant to a context. -/
def State.bookedNow (s : State) (n f a : Nat) : Nat :=
  if s.pieceOk n f a then
    ((s.rck.books.filter fun b => b.ctx == n * 4096 + a).flatMap fun b =>
      (b.pieces.filter fun p => p.f == f).map fun p => p.bytes).sum
  else 0

/-- Context `i` at the start of map `f`: reseed, refill, booked volume, estimate, and what READ shows. -/
def State.ctxStart (s : State) (n i f : Nat) : State :=
  let x := s.alloc n i
  let p := s.bwProf x.bw
  let s1 := if x.reseed then s.dropBookings (n * 4096 + i) else s
  let x1 := if x.reseed then x.seed f p.assured else x
  let vol := ((s1.rck.books.filter fun b => b.ctx == n * 4096 + i && b.first == f).map fun b => b.vol).sum
  let x2 := if vol = 0 then x1 else x1.note f fun h => { h with booked := h.booked + vol }
  let x3 := { x2 with
    accF := accRefill x2.accF p.fixed p.cap, accA := accRefill x2.accA p.assured p.cap, accM := accRefill x2.accM p.maxRate p.cap,
    est := x2.backlog f s1.staleFrames (s1.bookedNow n f i) (s1.estimateOn && p.est) }
  s1.setAlloc n i { x3 with shown := ⟨x3.cfg0, x3.cfg1, x3.fixBytes, x3.fixFrame, x3.rate, x3.est⟩ }

/-- The indices of a port's listed Alloc contexts, ascending. -/
def State.ctxsOf (s : State) (n : Nat) : List Nat :=
  (s.rck.ctxs.filter fun e => decide (e.1 / 4096 = n)).map fun e => e.1 % 4096

/-! ### Sizing (R154 to R156, R159) -/

/-- An Alloc context while map `f` is sized. -/
structure Work where
  i : Nat
  x : AllocCtx
  p : BwProf
  onu : Nat
  given : Nat := 0
  sized : Nat := 0
  gf : Nat := 0
  ga : Nat := 0
  started : Bool := false
  withheld : Bool := false
deriving DecidableEq, Repr

/-- An ONU's burst while map `f` is sized: profile index, data bytes, units charged; `only` while it holds nothing but a
PLOAM-only allocation; whether PLOAMu is set. -/
structure OnuWork where
  onu : Nat
  k : Nat
  data : Nat := 0
  units : Nat := 0
  only : Bool := false
  ploamu : Bool := false
deriving DecidableEq, Repr

/-- The sizing of a channel: free room in units, contexts in index order, ONUs and contexts in the order of their first grant,
the channel's own structures, grants withheld. -/
structure Sizing where
  n : Nat
  c : Nat
  f : Nat
  room : Int
  works : List Work := []
  onus : List OnuWork := []
  order : List Nat := []
  own : Nat := 0
  short : Nat := 0
  fixed : List Burst := []
deriving DecidableEq, Repr

/-- Take a structure: the channel's own first, then a shared one (R159). -/
def Sizing.struct (z : Sizing) (shared : Nat) : Option (Sizing × Nat) :=
  if 0 < z.own then some ({ z with own := z.own - 1 }, shared)
  else if 0 < shared then some (z, shared - 1)
  else none

/-- The entry of an ONU. -/
def Sizing.onuOf (z : Sizing) (id : Nat) : Option OnuWork := z.onus.find? fun o => o.onu == id

/-- The ONU's burst after `add` more data bytes of an allocation under profile `k` (R146, R155): a burst that holds only PLOAMu
takes the profile of the grant that joins it. -/
def State.grown (s : State) (z : Sizing) (id k add : Nat) (only : Bool) : OnuWork :=
  let o := (z.onuOf id).getD { onu := id, k := k, only := true }
  let kk := if o.only then k else o.k
  let p := s.prof z.n kk
  let d := o.data + add
  { o with k := kk, data := d, only := o.only && only,
           units := preUnits z.c (s.guardNs z.n z.c) p + postUnits z.c p d }

/-- The units an ONU's burst is charged so far. -/
def Sizing.unitsOf (z : Sizing) (id : Nat) : Nat := ((z.onuOf id).map fun o => o.units).getD 0

/-- Put an ONU's entry back and charge its growth. -/
def Sizing.charge (z : Sizing) (o : OnuWork) : Sizing :=
  let room := z.room + z.unitsOf o.onu - o.units
  if (z.onuOf o.onu).isSome then { z with room := room, onus := z.onus.map fun y => if y.onu = o.onu then o else y }
  else { z with room := room, onus := z.onus ++ [o] }

/-- DBRu bytes of a context's next grant: its first allocation carries them. -/
def Work.dbruOf (w : Work) (c : Nat) : Nat := if w.p.dbru && !w.started then dbruBytes c else 0

/-- `g` payload bytes fit in room (R155). -/
def State.fits (s : State) (z : Sizing) (w : Work) (g : Nat) : Bool :=
  decide (((s.grown z w.onu w.p.bprof (g + w.dbruOf z.c) false).units : Int) ≤ z.room + z.unitsOf w.onu)

/-- The largest number below 2^`n` added to `g` that a downward-closed test admits. -/
def largest (ok : Nat → Bool) : Nat → Nat → Nat
  | 0, g => g
  | n + 1, g => if ok (g + 2 ^ n) then largest ok n (g + 2 ^ n) else largest ok n g

/-- min(want, room_for) (R155). -/
def State.roomFor (s : State) (z : Sizing) (w : Work) (want : Nat) : Nat :=
  if want = 0 ∨ s.fits z w want then want else Nat.min want (largest (s.fits z w) 20 0)

/-- The phases of R154. -/
inductive Phase where
  | fixed | assured | na | be
deriving DecidableEq, Repr

/-- need() of R154. -/
def need (minGrant : Nat) (w : Work) (ph : Phase) : Nat :=
  let d := w.x.est - w.given
  let lift (n : Int) : Nat := if 0 < n ∧ n < minGrant then minGrant else n.toNat
  match ph with
  | .fixed => (w.x.accF / 256).toNat
  | .assured => lift (min (d : Int) (w.x.accA / 256))
  | _ => lift (min (d : Int) (w.x.accM / 256 - w.given))

/-- Replace a context of a sizing. -/
def Sizing.setWork (z : Sizing) (w : Work) : Sizing := { z with works := z.works.map fun y => if y.i = w.i then w else y }

/-- An allocation of a context begins: it takes a structure, unless its ONU's PLOAM-only allocation already has one. None: the
grant is withheld and counted once (R159). -/
def Sizing.begin (z : Sizing) (shared : Nat) (w : Work) : Option (Sizing × Nat × Work) :=
  if w.started then some (z, shared, w)
  else
    let w1 := { w with started := true }
    let open' (z : Sizing) : Sizing := { z with order := z.order ++ [w.i] }
    if ((z.onuOf w.onu).map fun o => o.only).getD false then some (open' z, shared, w1)
    else (z.struct shared).map fun q => (open' q.1, q.2, w1)

/-- Give `g` bytes to a context in a phase (R154, R155). -/
def State.give (s : State) (z : Sizing) (shared : Nat) (w : Work) (g : Nat) (ph : Phase) : Sizing × Nat × Bool :=
  match z.begin shared w with
  | none =>
    if w.withheld then (z, shared, false)
    else ({ z with short := z.short + 1 }.setWork { w with withheld := true }, shared, false)
  | some (z1, sh, w1) =>
    let o := s.grown z1 w.onu w.p.bprof (g + w.dbruOf z.c) false
    let w2 := { w1 with
      given := w1.given + g, sized := w1.sized + g,
      gf := if ph = .fixed then w1.gf + g else w1.gf, ga := if ph = .assured then w1.ga + g else w1.ga }
    ((z1.charge o).setWork w2, sh, true)

/-- The contexts of a phase and priority, from the rotating pointer (R154, R155). -/
def Sizing.turnOf (z : Sizing) (ptr : Nat) (ph : Phase) (pri : Nat) : List Nat :=
  let l := (z.works.filter fun w => w.p.prio == pri && (match ph with
    | .na => w.p.elig == 1
    | .be => w.p.elig == 2
    | _ => true)).map fun w => w.i
  (l.filter fun i => decide (ptr ≤ i)) ++ l.filter fun i => decide (i < ptr)

/-- serve_in_turn of R154. -/
def State.serveInTurn (s : State) (ph : Phase) : List Nat → Sizing × Nat → Sizing × Nat
  | [], q => q
  | i :: is, (z, sh) =>
    match z.works.find? fun w => w.i == i with
    | some w =>
      let g := s.roomFor z w (need s.minGrant w ph)
      if g = 0 then s.serveInTurn ph is (z, sh)
      else
        let r := s.give z sh w g ph
        s.serveInTurn ph is (r.1, r.2.1)
    | none => s.serveInTurn ph is (z, sh)

/-- One round of R155's deficit round robin; the flag is its progress. -/
def State.drrRound (s : State) (ph : Phase) : List Nat → Sizing × Nat × Bool → Sizing × Nat × Bool
  | [], q => q
  | i :: is, (z, sh, pr) =>
    match z.works.find? fun w => w.i == i with
    | some w =>
      let n := need s.minGrant w ph
      if n = 0 then s.drrRound ph is (z.setWork { w with x := { w.x with deficit := 0 } }, sh, pr)
      else
        let d := w.x.deficit + w.p.weight * s.quantum
        let w1 := { w with x := { w.x with deficit := d } }
        let g := s.roomFor z w1 (Nat.min n d)
        if g = 0 then s.drrRound ph is (z.setWork w1, sh, pr)
        else
          let r := s.give (z.setWork w1) sh w1 g ph
          let z2 := if r.2.2 then
              { r.1 with works := r.1.works.map fun y =>
                  if y.i = i then { y with x := { y.x with deficit := d - g } } else y }
            else r.1
          s.drrRound ph is (z2, r.2.1, pr || r.2.2)
    | none => s.drrRound ph is (z, sh, pr)

/-- serve_drr of R155: rounds while there is progress and room. -/
def State.serveDrr (s : State) (ph : Phase) (l : List Nat) : Nat → Sizing × Nat → Sizing × Nat
  | 0, q => q
  | fuel + 1, (z, sh) =>
    let r := s.drrRound ph l (z, sh, false)
    if r.2.2 && decide (0 < r.1.room) then s.serveDrr ph l fuel (r.1, r.2.1) else (r.1, r.2.1)

/-- Rounds that a frame can hold: each gives at least one byte. -/
def drrRounds : Nat := 1048576

/-- One phase of a channel, priorities 7 to 0 (R154). -/
def State.phase (s : State) (ptr : Nat) (ph : Phase) (q : Sizing × Nat) : Sizing × Nat :=
  [7, 6, 5, 4, 3, 2, 1, 0].foldl
    (fun q pri =>
      let l := q.1.turnOf ptr ph pri
      if l = [] then q
      else
        match ph with
        | .fixed | .assured => s.serveInTurn ph l q
        | _ => s.serveDrr ph l drrRounds q) q

/-! ### Phase 0 (R156, R160, R161, R165) -/

/-- PLOAMu is due for an ONU in map `f` (R156). -/
def State.ploamDue (s : State) (n id f : Nat) : Bool :=
  let x := s.onu n id
  x.ask || decide (x.ploamu + s.ploamFrames ≤ f)

/-- An ONU holds a grant that phase 0 has placed. -/
def Sizing.holds (z : Sizing) (id : Nat) : Bool := z.fixed.any fun b => b.onu == id

/-- Booked pieces of map `f` (R165): issued at their places, or lost; a piece that finds no structure is withheld. The first one of an
ONU carries PLOAMu when it is due (R156; its interval stays as it was placed, log 125). -/
def State.placeBooked (s : State) (j f : Nat) : List (Booking × Piece) → Sizing × Nat × Nat → Sizing × Nat × Nat
  | [], q => q
  | (b, p) :: ps, (z, sh, lost) =>
    let n := j / 2
    let a := b.ctx % 4096
    let x := s.alloc n a
    if !s.pieceOk n f a then s.placeBooked j f ps (z, sh, lost + 1)
    else
      match z.struct sh with
      | none => s.placeBooked j f ps ({ z with short := z.short + 1 }, sh, lost)
      | some (z1, sh1) =>
        let g : Grant := { ctx := some a, alloc := x.allocId, onu := x.onuId, start := p.start,
                           size := ceilDiv p.bytes (grantUnit (j % 2)), bytes := p.bytes, dbru := p.dbru, prof := p.prof,
                           ploamu := s.ploamDue n x.onuId f && !z.holds x.onuId }
        let bu : Burst := { onu := x.onuId, prof := p.prof, lo := p.lo, start := p.start, hi := p.hi, grants := [g] }
        let z2 := { z1 with
          fixed := z1.fixed ++ [bu],
          works := z1.works.map fun w => if w.i = a then { w with given := w.given + p.bytes } else w }
        s.placeBooked j f ps (z2, sh1, lost)

/-- The discovery structure of map `f`, when its interval is reserved and R128 holds. -/
def State.discBurst (s : State) (j f : Nat) : Option Burst :=
  let n := j / 2
  let c := j % 2
  let cause := s.ponCause n
  match (s.resvs j).find? fun r => r.onu.isNone && r.f == f with
  | some r =>
    if s.discFrame n f && (cause == 0 || cause == 4) then
      let k := s.discProf n c f
      some { kind := .discovery, onu := 1023, prof := k, span := (r.lo, r.hi),
             grants := [{ alloc := Config.broadcastAlloc c, onu := 1023, ploamu := true, prof := k }] }
    else none
  | none => none

/-- The ranging grants reserved in map `f` (R134, R162). -/
def State.rangeBursts (s : State) (j f : Nat) : List Burst :=
  (s.resvs j).filterMap fun r =>
    match r.onu with
    | some id =>
      let x := s.onu (j / 2) id
      if r.f = f ∧ x.rangeAt = some f then
        some { kind := .ranging, onu := id, prof := x.prof, span := (r.lo, r.hi),
               grants := [{ alloc := id, onu := id, ploamu := true, prof := x.prof }] }
      else none
    | none => none

/-- Windows and ranging grants take their structures (R159). -/
def Sizing.addFixed : List Burst → Sizing × Nat → Sizing × Nat
  | [], q => q
  | b :: bs, (z, sh) =>
    match z.struct sh with
    | some (z1, sh1) => Sizing.addFixed bs ({ z1 with fixed := z1.fixed ++ [b] }, sh1)
    | none => Sizing.addFixed bs ({ z with short := z.short + 1 }, sh)

/-- The profile of a PLOAM-only allocation (R156). -/
def State.ploamProf (s : State) (n id : Nat) : Nat :=
  match (s.ctxsOf n).find? fun i => (s.alloc n i).valid && (s.alloc n i).allocId == id with
  | some i => (s.bwProf (s.alloc n i).bw).bprof
  | none => (s.onu n id).prof

/-- PLOAMu allocations of phase 0 (R156). -/
def State.addPloam (s : State) : List Nat → Sizing × Nat → Sizing × Nat
  | [], q => q
  | id :: ids, (z, sh) =>
    match z.struct sh with
    | some (z1, sh1) =>
      s.addPloam ids
        (z1.charge { s.grown z1 id (s.ploamProf z.n id) (ploamuBytes z.c) true with ploamu := true }, sh1)
    | none => s.addPloam ids ({ z with short := z.short + 1 }, sh)

/-- Polls of phase 0 (R156): zero-payload allocations with DBRu. -/
def State.addPolls (s : State) : List Nat → Sizing × Nat → Sizing × Nat
  | [], q => q
  | i :: is, (z, sh) =>
    match z.works.find? fun w => w.i == i with
    | some w =>
      let r := s.give z sh w 0 .be
      s.addPolls is (r.1, r.2.1)
    | none => s.addPolls is (z, sh)

/-- The busy units of upstream frame `f` of a channel: reservations and booked pieces. -/
def State.busyUnits (s : State) (j f : Nat) : List (Nat × Nat) :=
  s.resvUnits j f ++ ((s.pieces j).filter fun p => p.f == f).map fun p => (p.lo, p.hi)

/-- A channel's sizing at the start of map `f`. -/
def State.sizing0 (s : State) (n c f own : Nat) : Sizing :=
  let j := 2 * n + c
  let room : Nat := ((freeGaps (frameUnits c) (s.busyUnits j f)).map fun g => g.2 - g.1).sum
  let works := (s.ctxsOf n).filterMap fun i =>
    let x := s.alloc n i
    if x.valid && s.grantable n x.onuId f && (s.onu n x.onuId).ch == c then
      some { i := i, x := x, p := s.bwProf x.bw, onu := x.onuId : Work } else none
  { n := n, c := c, f := f, room := room, works := works, own := own }

/-- The pieces of map `f` on channel `j` in ascending StartTime, with their bookings. -/
def State.piecesNow (s : State) (j f : Nat) : List (Booking × Piece) :=
  sortBy (fun a b => decide (a.2.start ≤ b.2.start))
    ((s.rck.books.filter fun b => b.j == j).flatMap fun b => (b.pieces.filter fun p => p.f == f).map fun p => (b, p))

/-- Phase 0 of a channel; the third result counts lost pieces. -/
def State.phase0 (s : State) (z : Sizing) (sh : Nat) : Sizing × Nat × Nat :=
  let j := 2 * z.n + z.c
  let q := s.placeBooked j z.f (s.piecesNow j z.f) (z, sh, 0)
  if !s.grants z.n z.f then q
  else
    let q1 := Sizing.addFixed ((s.discBurst j z.f).toList ++ s.rangeBursts j z.f) (q.1, q.2.1)
    let ids := (s.nonFree z.n).filter fun id =>
      s.grantable z.n id z.f && (s.onu z.n id).ch == z.c && s.ploamDue z.n id z.f && !q.1.holds id
    let q2 := s.addPloam ids q1
    let polls := if s.pollFrames = 0 then [] else (q2.1.works.filter fun w =>
      w.p.dbru && decide (w.x.lastAlloc + s.pollFrames < z.f)).map fun w => w.i
    let q3 := s.addPolls polls q2
    (q3.1, q3.2, q.2.2)

/-! ### Placing (R157, R158, R160) -/

/-- An allocation to be placed. -/
structure Alloc where
  ctx : Option Nat
  id : Nat
  bytes : Nat
  dbru : Bool
  ploamu : Bool
deriving DecidableEq, Repr

/-- The data bytes of joined allocations (Table 07.1). -/
def dataBytes (c : Nat) (l : List Alloc) : Nat :=
  (l.map fun a => a.bytes + (if a.dbru then dbruBytes c else 0) + (if a.ploamu then ploamuBytes c else 0)).sum

/-- Shrink allocations, the last first, until they fit (R157): what is left, and how many were shrunk or removed. The list is
in reverse sizing order. -/
def shrink (unit : Nat) (ok : List Alloc → Bool) : List Alloc → List Alloc × Nat
  | [] => ([], 0)
  | a :: as =>
    if ok (a :: as) then (a :: as, 0)
    else
      let g := largest (fun u => decide (u * unit ≤ a.bytes) && ok ({ a with bytes := u * unit } :: as)) 20 0 * unit
      if 0 < g then ({ a with bytes := g } :: as, 1)
      else
        let r := shrink unit ok as
        (r.1, r.2 + 1)

/-- The state of placement: busy intervals, bursts placed, allocations shrunk or removed. -/
structure Placing where
  busy : List (Nat × Nat)
  bursts : List Burst := []
  cap : Nat := 0
deriving DecidableEq, Repr

/-- Place one burst at the earliest free position from `target`, or shrink it into the largest free interval (R157). -/
def State.placeBurst (s : State) (z : Sizing) (k onu target : Nat) (allocs : List Alloc) (pl : Placing) : Placing :=
  let p := s.prof z.n k
  let pre := preUnits z.c (s.guardNs z.n z.c) p
  let len (l : List Alloc) : Nat := pre + postUnits z.c p (dataBytes z.c l)
  let L := frameUnits z.c
  let put (pos : Nat) (l : List Alloc) (cap : Nat) : Placing :=
    match l with
    | [] => { pl with cap := pl.cap + cap }
    | a0 :: rest =>
      let mk (joined : Bool) (a : Alloc) : Grant :=
        { ctx := a.ctx, alloc := a.id, onu := onu, start := pos + pre, size := ceilDiv a.bytes (grantUnit z.c),
          bytes := a.bytes, dbru := a.dbru, ploamu := a.ploamu, prof := k, joined := joined }
      { busy := (pos, pos + len l) :: pl.busy,
        bursts := pl.bursts ++ [{ onu := onu, prof := k, lo := pos, start := pos + pre, hi := pos + len l,
                                  grants := mk false a0 :: rest.map (mk true) }],
        cap := pl.cap + cap }
  match earliest L pl.busy target (len allocs) with
  | some pos => put pos allocs 0
  | none =>
    match largestGap L pl.busy with
    | none => { pl with cap := pl.cap + allocs.length }
    | some g =>
      let r := shrink (grantUnit z.c) (fun l => decide (len l ≤ g.2 - g.1)) allocs.reverse
      put g.1 r.1.reverse r.2

/-- Sizes of `p` pieces of `g` bytes, the remainder to the earliest (R158). -/
def pieceSizes (g p : Nat) : List Nat := (List.range p).map fun i => g / p + (if i < g % p then 1 else 0)

/-- PLOAMu lies on the ONU's first allocation of the map (R156). -/
def Sizing.ploamOn (z : Sizing) (w : Work) : Bool :=
  ((z.onuOf w.onu).map fun o => o.ploamu).getD false &&
    (z.order.find? fun i => z.works.any fun y => y.i == i && y.onu == w.onu) == some w.i

/-- The pieces of a train (R158, R159): with too few structures it takes as many as remain, counted once. -/
def State.placeTrain (s : State) (z : Sizing) (sh : Nat) (w : Work) (pl : Placing) : Sizing × Nat × Placing :=
  let p := Nat.min w.p.train (Nat.max 1 (w.sized / s.minGrant))
  let more := Nat.min (p - 1) (z.own + sh)
  let fromOwn := Nat.min more z.own
  let q := more + 1
  let z1 := { z with own := z.own - fromOwn, short := z.short + (if q < p then 1 else 0) }
  let L := frameUnits z.c
  let pl1 := (List.range q).foldl
    (fun pl i => s.placeBurst z w.p.bprof w.onu (i * L / q)
      [{ ctx := some w.i, id := w.x.allocId, bytes := (pieceSizes w.sized q).getD i 0, dbru := w.p.dbru && i + 1 == q,
         ploamu := z.ploamOn w && i == 0 }] pl) pl
  (z1, sh - (more - fromOwn), pl1)

/-- Contexts that were given something, in sizing order. -/
def Sizing.ordered (z : Sizing) : List Work := z.order.filterMap fun i => z.works.find? fun w => w.i == i

/-- An ONU's allocations but its trains', in sizing order; an ONU without any other grant has its PLOAM-only allocation on its
default Alloc-ID (R156). -/
def Sizing.allocsOf (z : Sizing) (o : OnuWork) : List Alloc :=
  if o.only then [{ ctx := none, id := o.onu, bytes := 0, dbru := false, ploamu := true }]
  else (z.ordered.filter fun w => w.onu == o.onu && decide (w.p.train ≤ 1)).map fun w =>
    { ctx := some w.i, id := w.x.allocId, bytes := w.sized, dbru := w.p.dbru, ploamu := z.ploamOn w }

/-- Steps 2 to 4 of R157. -/
def State.placeAll (s : State) (z : Sizing) (sh : Nat) : Sizing × Nat × Placing :=
  let q := (z.ordered.filter fun w => decide (1 < w.p.train)).foldl
    (fun q w => s.placeTrain q.1 q.2.1 w q.2.2) (z, sh, { busy := s.busyUnits (2 * z.n + z.c) z.f : Placing })
  let pl := z.onus.foldl
    (fun pl o =>
      match z.allocsOf o with
      | [] => pl
      | l => s.placeBurst z o.k o.onu 0 l pl) q.2.2
  (q.1, q.2.1, pl)

/-! ### The map (R148, R154, R160) -/

/-- A context after sizing (R154, R155): accumulators lose their grants, a deficit stays only while need remains. -/
def Work.settle (w : Work) (minGrant : Nat) : AllocCtx :=
  let floor : Int := -((w.p.maxRate * 4 * w.p.cap : Nat) : Int)
  let ph : Phase := if w.p.elig = 1 then .na else .be
  { w.x with
    accF := w.x.accF - (w.gf * 256 : Nat), accA := w.x.accA - (w.ga * 256 : Nat),
    accM := max (w.x.accM - (w.given * 256 : Nat)) floor,
    deficit := if w.p.elig = 0 ∨ need minGrant w ph = 0 then 0 else w.x.deficit }

/-- What a placed allocation leaves with its context and ONU: bytes granted, the map of the last allocation and PLOAMu. -/
def State.noteGrant (s : State) (n f : Nat) (g : Grant) : State :=
  let s1 := match g.ctx with
    | some a =>
      let x := s.alloc n a
      s.setAlloc n a { (x.note f fun h => { h with granted := h.granted + g.bytes }) with lastAlloc := f }
    | none => s
  let y := s1.onu n g.onu
  if g.ploamu && y.active then s1.setOnu n g.onu { y with ploamu := f } else s1

/-- Structures of a map. -/
def structCount (bs : List Burst) : Nat := (bs.map fun b => b.grants.length).sum

/-- The map of a channel is recorded with its counts (Table 07.13). -/
def State.mapMade (s : State) (j f : Nat) (z : Sizing) (pl : Placing) (lost : Nat) : State :=
  let bs := sortBy (fun a b : Burst => decide (a.start ≤ b.start)) (z.fixed ++ pl.bursts)
  let s1 := z.works.foldl (fun s w => s.setAlloc (j / 2) w.i (w.settle s.minGrant)) s
  let s2 := (bs.flatMap fun b => b.grants).foldl (fun s g => s.noteGrant (j / 2) f g) s1
  let s3 := s2.setMaps j ((putMap { f := f, bursts := bs } (s2.maps j)).take mapsKept)
  ((((s3.bump (Reg.dbaMaps j)).bumpBy (Reg.dbaStructs j) (structCount bs)).bumpBy (Reg.dbaStructShort j) z.short).bumpBy
    (Reg.dbaCapShort j) pl.cap).bumpBy (Reg.dbaBookLost j) lost

/-- The structures of a port's channels and the shared ones (R159). -/
def State.structSplit (s : State) (n : Nat) : Nat × Nat × Nat :=
  if s.ponPers n = 4 then
    let m0 := Nat.min 512 (s.fld (Reg.dbaPortCfg n) 8 0)
    let m1 := Nat.min (512 - m0) (s.fld (Reg.dbaPortCfg n) 24 16)
    (m0, m1, 512 - m0 - m1)
  else (512, 512, 0)

/-- One phase over a port's channels, channel 0 before channel 1 (R159). -/
def overChannels (g : Sizing → Nat → Sizing × Nat) : List Sizing → Nat → List Sizing × Nat
  | [], sh => ([], sh)
  | z :: zs, sh =>
    let q := g z sh
    let r := overChannels g zs q.2
    (q.1 :: r.1, r.2)

/-- Phase 0 over a port's channels, with the lost pieces of each. -/
def State.phase0All (s : State) : List Sizing → Nat → List (Sizing × Nat) × Nat
  | [], sh => ([], sh)
  | z :: zs, sh =>
    let q := s.phase0 z sh
    let r := s.phase0All zs q.2.1
    ((q.1, q.2.2) :: r.1, r.2)

/-- Placing over a port's channels. -/
def State.placeChannels (s : State) : List Sizing → Nat → List (Sizing × Placing)
  | [], _ => []
  | z :: zs, sh =>
    let q := s.placeAll z sh
    (q.1, q.2.2) :: s.placeChannels zs q.2.1

/-- Pieces of frames up to `f` leave the calendar on a port's channels; a booking without pieces leaves it. Those on a channel that the
personality does not have are lost (R165). -/
def State.dropPieces (s : State) (n f : Nat) : State :=
  let cut (b : Booking) : Booking :=
    if b.j / 2 = n then { b with pieces := b.pieces.filter (fun p => decide (f < p.f)) } else b
  let s1 := s.each ([2 * n, 2 * n + 1].filter fun j => !(s.channels n).contains (j % 2)) fun j s =>
    s.bumpBy (Reg.dbaBookLost j) (s.piecesNow j f).length
  { s1 with rck.books := (s1.rck.books.map cut).filter fun b => !b.pieces.isEmpty }

/-- Computation of map `f` on the channels of port `n` (R148, R154). -/
def State.computePort (s : State) (f n : Nat) : State :=
  let s1 := s.each (s.ctxsOf n) fun i s => s.ctxStart n i f
  let sp := s1.structSplit n
  let z0 := (s1.channels n).map fun c => s1.sizing0 n c f (if c = 0 then sp.1 else sp.2.1)
  let q0 := s1.phase0All z0 sp.2.2
  let lost := q0.1.map Prod.snd
  let ptr := s1.rck.turn % 4096
  let q :=
    if s1.grants n f then
      [Phase.fixed, .assured, .na, .be].foldl
        (fun q ph => overChannels (fun z sh => s1.phase ptr ph (z, sh)) q.1 q.2) (q0.1.map Prod.fst, q0.2)
    else (q0.1.map Prod.fst, q0.2)
  let placed := s1.placeChannels q.1 q.2
  let s2 := ((placed.zip lost).foldl (fun s e => s.mapMade (2 * n + e.1.1.c) f e.1.1 e.1.2 e.2) s1)
  s2.dropPieces n f

/-- MAP_COMPUTATION_START (R148): the pending bank switch is made; map f, two frames after the frame in transmission, is
computed on every channel; the discovery frame f + 64 enters the horizon. -/
def State.mapStart (s : State) : State :=
  let f := (s.chrono.ponSf + 2) % 2 ^ 51
  let s1 := if s.bit Reg.dbaCommit 30 then s.bankSwitch Reg.dbaCommit (s.fld Reg.dbaCommit 1 1) else s
  let s2 := { s1 with rck.started := f }
  let s3 := s2.each s2.allChannels fun j s => s.reserveDisc j (f + 64)
  let s4 := s3.each (List.range 48) fun n s => s.computePort f n
  { s4 with rck.turn := s4.rck.turn + 1 }

/-- The oldest map of a channel whose computation runs is complete (R148); after its cut-off that changes nothing (R107). -/
def State.mapComplete (s : State) (j : Nat) : State :=
  match ((s.maps j).filter fun m => !m.done).getLast? with
  | some m => s.updMap j m.f fun m => { m with done := true }
  | none => s

/-- MAP_COMPUTATION_COMPLETE (R148). -/
def execMapComputationComplete (j : Fin 96) (s : State) : Host.Outcome State Fault Refusal := .next (s.mapComplete j.val)

/-- A write of DBA_COMMIT (R38, R148). -/
def State.dbaCommitWrite (s : State) (v : Word) : State :=
  let s1 := s.wrTyped Reg.dbaCommit v
  if Machine.bit v 31 && !s.wpSame 4 then s1.bankRequest Reg.dbaCommit (Machine.fld v 0 0) else s1

/-- DBA_COMMIT_GO (R148). -/
def execDbaCommitGo (val : Word) (s : State) : Host.Outcome State Fault Refusal := .next (s.dbaCommitWrite val)

/-! ### Bookings (R163 to R166) -/

/-- A booking being placed: the pieces placed, their bytes, the pieces that count for or against the booking, and all of them (R164). -/
structure BookRun where
  pieces : List Piece := []
  placed : Nat := 0
  asked : Nat := 0
  total : Nat := 0
deriving DecidableEq, Repr

/-- Structures of map `f` that a port's placed pieces, discovery windows and ranging grants take (R159, R164). -/
def State.structsTaken (s : State) (n f : Nat) : Nat :=
  [2 * n, 2 * n + 1].foldl
    (fun k j => k + ((s.pieces j).filter fun q => q.f == f).length + ((s.resvs j).filter fun r => r.f == f).length) 0

/-- Place one piece of `bytes` at or after `target` in frame `f` (R164): without a free position, or beyond BOOK_SHARE, it counts against
the booking; without a structure it does not. -/
def State.bookPiece (s : State) (j f target bytes k : Nat) (dbru : Bool) (r : BookRun) : BookRun :=
  let n := j / 2
  let c := j % 2
  let p := s.prof n k
  let pre := preUnits c (s.guardNs n c) p
  let len := pre + postUnits c p (bytes + (if dbru then dbruBytes c else 0))
  let L := frameUnits c
  let mine := (r.pieces.filter fun q => q.f == f).map fun q => (q.lo, q.hi)
  let booked := (((s.pieces j).filter fun q => q.f == f).map fun q => q.hi - q.lo).sum + (mine.map fun q => q.2 - q.1).sum
  let r0 := { r with total := r.total + 1 }
  let r1 := { r0 with asked := r.asked + 1 }
  match earliest L (s.busyUnits j f ++ mine) target len with
  | some pos =>
    if Nat.min 100 (s.fld Reg.dbaBookCfg 7 0) * L < (booked + len) * 100 then r1
    else if 512 ≤ s.structsTaken n f + mine.length then r0
    else { r1 with pieces := r.pieces ++ [⟨f, pos, pos + pre, pos + len, bytes, k, dbru⟩], placed := r.placed + bytes }
  | none => r1

/-- The pieces of a booking's share in frame `f` (R164): TRAIN pieces at their targets; a piece without bytes is none. -/
def State.bookFrame (s : State) (j f share train k : Nat) (dbru : Bool) (r : BookRun) : BookRun :=
  let p := Nat.min train (Nat.max 1 (share / s.minGrant))
  (List.range p).foldl
    (fun r i =>
      let b := (pieceSizes share p).getD i 0
      if b = 0 then r else s.bookPiece j f (i * frameUnits (j % 2) / p) b k (dbru && i + 1 == p) r) r

/-- The outcome of a booking: RESULT, LATE, ACCEPTED and f_b. -/
structure BookEnd where
  result : Nat
  late : Bool := false
  accepted : Nat := 0
  first : Nat := 0
deriving DecidableEq, Repr

/-- The channel of an ONU's grants: that of its context, which a port with one channel has no choice in (R147). -/
def State.grantCh (s : State) (n id : Nat) : Nat :=
  match s.channels n with
  | [c] => c
  | _ => (s.onu n id).ch

/-- A booking (R163, R164): orders 2 to 6 of Table 07.4, then placement. `train` 0 takes the profile's. -/
def State.book (s : State) (n a t vol spread train : Nat) : BookEnd × State :=
  let x := s.alloc n a
  if 48 ≤ n ∨ !x.valid then (⟨6, false, 0, 0⟩, s.bump Reg.dbaBookRefused)
  else
    let fb := ceilDiv (t + s.fld Reg.dbaBookCfg 31 16 - s.teq n) 125000
    if s.rck.started + 64 < fb + spread - 1 then (⟨2, false, 0, fb⟩, s.bump Reg.dbaBookRefused)
    else if 8192 ≤ s.rck.books.length then (⟨3, false, 0, fb⟩, s.bump Reg.dbaBookRefused)
    else
      let late := decide (fb ≤ s.rck.started)
      let f0 := if late then s.rck.started + 1 else fb
      let s1 := if late then s.bump Reg.dbaBookLate else s
      let p := s.bwProf x.bw
      let j := 2 * n + s.grantCh n x.onuId
      let tr := if train = 0 then p.train else Nat.min 8 train
      let r := (List.range spread).foldl
        (fun r i => s.bookFrame j (f0 + i) ((pieceSizes vol spread).getD i 0) tr p.bprof p.dbru r) ({} : BookRun)
      let res := if r.pieces = [] ∧ 0 < r.total then 4 else if r.pieces.length = r.asked then 0 else 1
      let s2 := if r.pieces = [] then s1
        else { s1 with rck.books := s1.rck.books ++ [{ j := j, ctx := n * 4096 + a, first := f0, vol := r.placed, pieces := r.pieces }] }
      (⟨res, late, r.placed, f0⟩, if res = 4 then s2.bump Reg.dbaBookRefused else s2)

/-- The sequencer takes the booking that the host has submitted: its outcome is shown and announced (R163, R164). -/
def State.bookTake (s : State) : State :=
  match s.rck.booking with
  | none => s
  | some r =>
    let q := ({ s with rck.booking := none } : State).book r.n r.a r.t r.vol r.spread r.train
    let e := q.1
    ((q.2.wrNat Reg.dbaBookStatus (2 ^ 30 + ofBool e.late * 2 ^ 29 + e.result * 2 ^ 24 + Nat.min e.accepted 0xFFFFFF)).wrNat
      Reg.dbaBookFirstFrame e.first).event (leafOf 12 6) 0

/-- A submitted booking is taken in a clock after its GO (R163, log 70). -/
def State.bookSettle (s : State) : State :=
  match s.rck.booking with
  | some r => if r.at' = s.raw then s else s.bookTake
  | none => s

/-- A write of DBA_BOOK_CMD (Table 07.10): GO submits a booking, which waits for the sequencer with PENDING; a GO while one waits is
refused with RESULT 5 (Table 07.4). -/
def State.bookCmdWrite (s : State) (v : Word) : State :=
  let s1 := s.bookSettle.wrTyped Reg.dbaBookCmd v
  if !Machine.bit v 31 then s1
  else if s1.rck.booking.isSome then
    (s1.setFld Reg.dbaBookStatus 27 24 5).bump Reg.dbaBookRefused
  else
    let t := ((s1.rd Reg.dbaBookSecLo).toNat + 2 ^ 32 * s1.fld Reg.dbaBookSecHi 15 0) * 1000000000 + s1.fld Reg.dbaBookNs 29 0
    { s1.wrNat Reg.dbaBookStatus (2 ^ 31) with
      rck.booking := some ⟨s1.fld Reg.dbaBookTarget 21 16, s1.fld Reg.dbaBookTarget 11 0, t, s1.fld Reg.dbaBookVol 23 0,
        Nat.min 8 (Nat.max 1 (Machine.fld v 3 0)), Machine.fld v 11 8, s1.raw⟩ }

/-- A tick of the time clock with no command waiting: the booking sequencer takes what waits for it (R71, R163). -/
def State.idleTick (s : State) : State := (s.elapse 1).bookSettle

/-- A map is computed without the Alloc contexts that an uncorrectable error keeps from being read, with their ONU's or their own: they
receive no grant in it, and stay as they are (Table 17.1 KIND 6). -/
def State.mapWithout (s : State) (bad : List Nat) : State :=
  let old := s.rck.ctxs
  let s1 := s.each bad fun i s =>
    { s.memoryError 6 true 0 0 (BitVec.ofNat 64 i) with rck.ctxs := s.rck.ctxs.set (fun _ => {}) i {} }
  s1.mapStart.each bad fun i s => { s with rck.ctxs := s.rck.ctxs.set (fun _ => {}) i (old.get (fun _ => {}) i) }

/-- MAP_COMPUTATION_START (R148, R346): a booking submitted in an earlier clock has been accepted. `bad` are the contexts, 4096 n + i,
whose read is uncorrectable. -/
def execMapComputationStart (at' : Raw) (bad : List Nat) (s : State) : Host.Outcome State Fault Refusal :=
  .next ((s.advance at').bookSettle.mapWithout bad)

/-- BOOKING_GO (R163). -/
def execBookingGo (val : Word) (s : State) : Host.Outcome State Fault Refusal := .next (s.bookCmdWrite val)

/-- The valid entry of lowest index of DBA_CTI_MAP for a client (R166). -/
def State.ctiEntry (s : State) (client : Nat) : Option Word :=
  ((List.range 4096).find? fun i => s.bit (Reg.dbaCtiMapW1 i) 31 && (s.rd (Reg.dbaCtiMapW0 i)).toNat == client % 2 ^ 32).map
    fun i => s.rd (Reg.dbaCtiMapW1 i)

/-- Entries of a CTI report that make bookings (R166). -/
def ctiMax : Nat := 16

/-- The oldest frame handed to the CTI receiver is taken (R166): its report makes bookings, or is dropped whole. -/
def State.ctiReport (s : State) (rep : Option CtiReport) : State :=
  match s.cmp.cti with
  | [] => s
  | _ :: fs =>
    let s1 := { s with cmp.cti := fs }
    match rep.bind fun r => (s1.ctiEntry r.client).map fun w => (r, w) with
    | none => (s1.bump Reg.dbaCtiBad).event (leafOf 12 7) 0
    | some (r, w) =>
      (r.entries.take ctiMax).foldl
        (fun s e =>
          ((s.book (Machine.fld w 29 24) (Machine.fld w 11 0) e.1 e.2.2 (Nat.min 8 (Nat.max 1 (ceilDiv e.2.1 125000)))
            (Machine.fld w 19 16)).2.bump Reg.dbaCtiAccept).event (leafOf 12 6) 0) s1

/-- CTI_REPORT (R166): the bookings of a report come before a host booking submitted in the same clock (R163). -/
def execCtiReport (rep : Option CtiReport) (s : State) : Host.Outcome State Fault Refusal := .next (s.bookSettle.ctiReport rep)

end Sys2Proof.Machine
end

