-- ==== Sys2Proof/Machine/Xgem.lean ====
section
/-!
DEFINITION. Machine/Xgem.lean: the XGEM engine: downstream checks, framing and fragments (R169 to R172), upstream checks and
reassembly (R178 to R180).
-/
namespace Sys2Proof.Machine

/-! ### Levels of control (Tables 08.5 to 08.7) -/

/-- XGM_EXPERT_EN. -/
def State.xgmExpert (s : State) : Bool := s.bit Reg.xgmCtrl 31

/-- DS_FRAG_MIN. -/
def State.fragMin (s : State) : Nat := if s.xgmExpert then Nat.max 4 (s.fld Reg.xgmExpCfg 15 0) else 64

/-- ALLOC_STRICT. -/
def State.allocStrict (s : State) : Bool := s.xgmExpert && s.bit Reg.xgmExpCfg 23

/-- REASM_FRAMES. -/
def State.reasmFrames (s : State) : Nat :=
  if s.xgmExpert then Nat.max 1 (s.fld Reg.xgmExpCfg 31 24)
  else
    match s.fld Reg.xgmCtrl 9 8 with
    | 0 => 4
    | 1 => 16
    | 2 => 64
    | _ => 255

/-- MAX_SDU. -/
def State.maxSdu (s : State) : Nat := Nat.max 64 (s.fld Reg.xgmSduCfg 13 0)

/-! ### Downstream (R169 to R172) -/

/-- What the checks of Table 08.1 give a frame of egress queue `eq` on channel `j`: dropped at orders 1 to 3, dropped at order
4, or sent on a port-ID under an index and key. -/
inductive DsCheck where
  | noBind
  | noKey
  | send (pid index : Nat) (key : Option (BitVec 128))
deriving DecidableEq, Repr

/-- What a read of a context, binding or key meets (Table 17.1 KIND 6). -/
inductive CtxErr where
  | none | binding | key
deriving DecidableEq, Repr

/-- The checks of Table 08.1 in order; the key choice is that of the frame in transmission (R170, R172, R177). A binding or key that an
uncorrectable error has met is not VALID for this access (R346). -/
def State.dsCheck (s : State) (j eq : Nat) (e : CtxErr) : DsCheck :=
  let n := j / 2
  let q := s.xgm.dsq.get (fun _ => 0) eq
  let pid := Machine.fld q 12 0
  let b := s.binding n pid
  let id := Machine.fld b.cfg0 9 0
  let mc := Machine.bit b.cfg0 30
  let st := (s.onu n id).st
  if e == .binding || !Machine.bit q 31 || !Machine.bit b.cfg0 31 || (!mc && (st == .free || st == .disabled)) then .noBind
  else if !Machine.bit b.cfg0 29 then .send pid 0 none
  else
    let x := if mc then s.bkeySet j else s.keySet n id
    if e == .key || (s.live x.cur.2).isNone then .noKey else .send pid x.cur.1 x.cur.2

/-- The transmit stamp of a frame whose XGEM frame begins in the downstream frame in transmission (R79, R84, R85): PSync of
that frame at the medium boundary. -/
def State.dsStamp (s : State) (j : Nat) (f : Stored) : State :=
  match f.ts with
  | some (q, id) => s.txStamp q ⟨BitVec.ofNat 16 id, j / 2, s.portStamp (j / 2) false s.chrono.psyncAt 0 none⟩
  | none => s

/-- An XGEM frame leaves at the position that the frame in transmission has reached, encrypted when it has a key, and takes its bytes of
the XGEM area (R170, R173). -/
def State.dsXgem (s : State) (j pid i : Nat) (k : Option (BitVec 128)) (lf : Bool) (bs : List Byte) (len : Nat) : State :=
  let pos := (s.area j).1
  let out := match k with
    | some key => xgemCipher key false s.chrono.ponSf 0 pos bs
    | none => bs
  (s.emit (.xgem j pos pid i lf out)).setArea j (pos + len, (s.area j).2)

/-- Place a released frame in the space left of the downstream frame: whole, as a first fragment, or after it (R169, R171). -/
def State.dsPlace (s : State) (j eq : Nat) (f : Stored) (e : CtxErr) : State :=
  match s.dsCheck j eq e with
  | .noBind => s.bump (Reg.xgmDsNobind j)
  | .noKey => s.bump (Reg.xgmDsNokey j)
  | .send pid i k =>
    let bs := f.frame.bytes
    let space := (s.area j).2 - (s.area j).1
    let len := 8 + Config.xgemPadded (j % 2) bs.length
    if len ≤ space then ((s.dsStamp j f).dsXgem j pid i k true bs len).bump (Reg.xgmDsFrames j)
    else if 8 + s.fragMin ≤ space then
      let m := space - 8
      let s1 := ((s.dsStamp j f).dsXgem j pid i k false (bs.take m) space).bump (Reg.xgmDsFrags j)
      { s1 with xgm.rest := s1.xgm.rest.set (fun _ => none) j (some ⟨pid, bs.drop m⟩) }
    else
      let s1 := s.idleFill j space
      { s1 with xgm.wait := s1.xgm.wait.set (fun _ => none) j (some (eq, f)) }

/-- PON_SELECTION (R108, R169, R171, R247): on a transmitting channel of a port that is up, idle frames have filled the frame in
transmission until `space` bytes are left; with room left, the frame that waits, or else the next frame the Almanac releases, is
placed. -/
def State.ponRelease (s : State) (j space : Nat) (qBad : Bool) (e : CtxErr) : State :=
  if !s.txOn (j / 2) || !s.serving || !s.bit (Reg.ponLineStatus (j / 2)) 31 || (s.area j).2 ≤ (s.area j).1 then s
  else
    let s1 := s.idleFill j ((s.area j).2 - (s.area j).1 - space)
    if (s1.area j).2 ≤ (s1.area j).1 then s1
    else
      match s1.xgm.wait.get (fun _ => none) j with
      | some (eq, f) => ({ s1 with xgm.wait := s1.xgm.wait.set (fun _ => none) j none } : State).dsPlace j eq f e
      | none => s1.ponSelect j qBad fun eq f s => s.dsPlace j eq f e

/-- The error that a read of contexts met (Table 17.1 KIND 6), reported. -/
def State.ctxErr (s : State) (n : Fin 3) : CtxErr × State :=
  match n.val with
  | 0 => (.none, s)
  | 1 => (.binding, s.memoryError 6 true 0 0 0)
  | _ => (.key, s.memoryError 6 true 0 0 0)

/-- PON_SELECTION (R169, R346): `errs` are the slots that hold erroneous symbols when the chain is read, `qBad` says that the queue's
state is uncorrectable, `ctxBad` that the binding (1) or the key (2) is. -/
def execPonSelection (ch : Fin 96) (space : Nat) (errs : List (Nat × Nat)) (qBad : Bool) (ctxBad : Fin 3) (s : State) :
    Host.Outcome State Fault Refusal :=
  let q := (s.hbmDamaged errs).ctxErr ctxBad
  .next (q.2.ponRelease ch.val space qBad q.1)

/-- The key that a remainder goes out under: that of its binding now (R171). -/
def State.restKey (s : State) (j pid : Nat) : Nat × Option (BitVec 128) :=
  let b := s.binding (j / 2) pid
  if !Machine.bit b.cfg0 29 then (0, none)
  else if Machine.bit b.cfg0 30 then (s.bkeySet j).cur
  else (s.keySet (j / 2) (Machine.fld b.cfg0 9 0)).cur

/-- A channel's remainder is the first XGEM frame of the downstream frame that begins (R171). -/
def State.restSend (s : State) (j : Nat) : State :=
  match s.xgm.rest.get (fun _ => none) j with
  | some r =>
    let k := s.restKey j r.pid
    let s1 := (s.dsXgem j r.pid k.1 k.2 true r.bytes (8 + Config.xgemPadded (j % 2) r.bytes.length)).bump (Reg.xgmDsFrames j)
    { s1 with xgm.rest := s1.xgm.rest.set (fun _ => none) j none }
  | none => s

/-! ### Upstream (R178 to R180) -/

/-- Store units of the device (R179). -/
def reasmUnitsMax : Nat := 49152

/-- Where an upstream XGEM frame stands: channel, frame, burst and its granted ONU, stamp, allocation; the StartTime of the burst and the
byte of the burst at which it begins; whether it holds bytes marked errored. -/
structure UpAt where
  j : Nat
  f : Nat
  i : Nat
  k : Nat
  onu : Nat
  stamp : Stamp
  grant : Grant
  start : Nat
  pos : Nat
  errored : Bool
deriving DecidableEq, Repr

def UpAt.n (u : UpAt) : Nat := u.j / 2
def UpAt.c (u : UpAt) : Nat := u.j % 2

/-- Payload bytes of a non-idle XGEM frame count as delivered by the allocation's context (R152); a context whose fix has passed
the map keeps no count. -/
def State.usDelivered (s : State) (u : UpAt) (bytes : Nat) : State :=
  match u.grant.ctx with
  | some a =>
    let x := s.alloc u.n a
    if u.f ≤ x.fixFrame then s
    else s.setAlloc u.n a (x.note u.f fun h => { h with delivered := h.delivered + bytes })
  | none => s

/-- Step 1 of Table 08.3 for a header that cannot be corrected: the rest of the allocation is discarded, and open reassemblies
bound to its Alloc context are aborted. -/
def State.usHecErr (s : State) (u : UpAt) : State :=
  let s1 := s.updBurst u.j u.f u.i fun b =>
    match b.grants[u.k]? with
    | some g => { b with grants := setAt b.grants u.k { g with dead := true } }
    | none => b
  let hit (pid : Nat) : Bool :=
    match u.grant.ctx with
    | some a => decide (Machine.fld (s.binding u.n pid).cfg1 11 0 = a)
    | none => false
  (s1.each (s1.openReasms u.n fun pid _ => hit pid) fun pid s => s.reasmAbort u.n pid).bump (Reg.xgmUsHecErr u.j)

/-- The frame is spoofed (Table 08.3 step 3). -/
def State.spoofed (s : State) (u : UpAt) (pid : Nat) : Bool :=
  let b := s.binding u.n pid
  decide (8192 ≤ pid) || !Machine.bit b.cfg0 31 || Machine.bit b.cfg0 30 || decide (Machine.fld b.cfg0 9 0 ≠ u.onu) ||
    (s.allocStrict && u.grant.ctx != some (Machine.fld b.cfg1 11 0))

/-- A spoofed frame is counted; the first one since the last read of XGM_LAST_SPOOF is captured and announced (R178, Table
08.9). -/
def State.usSpoof (s : State) (u : UpAt) (pid : Nat) : State :=
  let s1 := s.bump (Reg.xgmUsSpoof u.j)
  if s1.bit Reg.xgmLastSpoof 31 then s1
  else
    ({ s1.wrNat Reg.xgmLastSpoof (2 ^ 31 + u.n * 2 ^ 22 + u.c * 2 ^ 21 + u.onu) with xgm.spoofId := pid } : State).event
      (leafOf 12 5) 0

/-- The key check fails (Table 08.3 step 4). -/
def State.usKeyBad (s : State) (u : UpAt) (x : UpXgem) : Bool :=
  let b := s.binding u.n x.pid
  if x.key = 0 then Machine.bit b.cfg0 28
  else if x.key = 1 ∨ x.key = 2 then (s.live ((s.keySet u.n u.onu).slot x.key)).isNone
  else true

/-- A complete frame (Table 08.3 step 7, R180). -/
def State.usComplete (s : State) (j pid onu alloc : Nat) (st : Stamp) (bs : List Byte) (full : Bool) : State :=
  if fcsOk bs then
    (s.frameIn { bytes := bs, port := j / 2, ch := j % 2, onu := onu, alloc := alloc, xgem := pid, stamp := st } full).bump
      (Reg.xgmUsFrames j)
  else s.bump (Reg.xgmUsFcsErr j)

/-- A context returns to idle at LF = 1, or discards up to it (R179). -/
def State.usDiscard (s : State) (n pid : Nat) (lf : Bool) : State := s.setXreasm n pid (if lf then {} else { discard := true })

/-- A fragment or whole frame reaches the reassembly context of its port-ID (Table 08.3 steps 6 and 7, R179, R180). -/
def State.usReasm (s : State) (u : UpAt) (x : UpXgem) (full : Bool) : State :=
  let r := s.xreasm u.n x.pid
  if r.discard then (if x.lf then s.setXreasm u.n x.pid {} else s)
  else if x.lf && !r.isOpen then s.usComplete u.j x.pid u.onu u.grant.alloc u.stamp x.bytes full
  else
    let bs := r.bytes ++ x.bytes
    let units := ceilDiv bs.length 256
    if s.maxSdu < bs.length then (s.usDiscard u.n x.pid x.lf).bump (Reg.xgmUsReasmDrop u.j)
    else if reasmUnitsMax < s.reasmUnits - r.units + units then
      ((s.usDiscard u.n x.pid x.lf).bump (Reg.xgmUsReasmDrop u.j)).bump Reg.xgmReasmFull
    else
      let y : XReasm :=
        if r.isOpen then { r with bytes := bs, units := units, u := u.f }
        else { isOpen := true, bytes := bs, units := units, u := u.f, onu := u.onu, ch := u.c, alloc := u.grant.alloc,
               stamp := u.stamp }
      if x.lf then (s.setXreasm u.n x.pid {}).usComplete (2 * u.n + y.ch) x.pid y.onu y.alloc y.stamp bs full
      else s.setXreasm u.n x.pid y

/-- The payload of a frame decrypted under the slot that its index names (Table 08.3 step 4); index 0 is not encrypted. -/
def State.usPlain (s : State) (u : UpAt) (x : UpXgem) : List Byte :=
  match (s.keySet u.n u.onu).slot x.key with
  | some k => xgemCipher k true u.f u.start u.pos x.bytes
  | none => x.bytes

/-- An errored frame is dropped; a fragment's reassembly is aborted (Table 08.3 step 5). -/
def State.usErrored (s : State) (u : UpAt) (x : UpXgem) : State :=
  let r := s.xreasm u.n x.pid
  let s1 := s.bump (Reg.xgmUsErrored u.j)
  if x.lf && !r.isOpen && !r.discard then s1 else s1.usDiscard u.n x.pid x.lf

/-- The steps of Table 08.3 (R178). -/
def State.upXgem (s : State) (u : UpAt) (x : UpXgem) (full : Bool) (e : CtxErr) : State :=
  if u.grant.dead then s
  else if !x.hec then s.usHecErr u
  else if x.pid = 65535 then s
  else
    let s1 := s.usDelivered u x.bytes.length
    if e == .binding || s1.spoofed u x.pid then s1.usSpoof u x.pid
    else if (e == .key && x.key != 0) || s1.usKeyBad u x then s1.bump (Reg.xgmUsKeyErr u.j)
    else if u.errored then s1.usErrored u x
    else s1.usReasm u { x with bytes := s1.usPlain u x } full

/-- The byte of a burst at which the payload of allocation `k` begins: after the burst header and the earlier allocations, its own
PLOAMu and DBRu (Table 07.1). -/
def payloadAt (c : Nat) (gs : List Grant) (k : Nat) : Nat :=
  let own (g : Grant) : Nat := (if g.ploamu then ploamuBytes c else 0) + (if g.dbru then dbruBytes c else 0)
  headBytes c + ((gs.take k).map fun g => own g + g.size * grantUnit c).sum + ((gs[k]?).map own).getD 0

/-- A codeword that could not be corrected covers one of the bytes `a` to `a + len − 1` of a burst (R115). -/
def inBadCw (c : Nat) (bad : List Nat) (a len : Nat) : Bool :=
  bad.any fun w => meets (w * cwBytes c) ((w + 1) * cwBytes c) a (a + len)

/-- UPSTREAM_XGEM_FRAME (R178): the next XGEM frame of allocation `k` of confirmed burst `i` of map `f` on channel `j`. -/
def State.upXgemAt (s : State) (j f i k : Nat) (x : UpXgem) (full : Bool) (e : CtxErr) : State :=
  match s.burstOf j f i with
  | some b =>
    if b.st = .confirmed then
      match b.grants[k]? with
      | some g =>
        let c := j % 2
        let pos := g.next.getD (payloadAt c b.grants k)
        let len := 8 + Config.xgemPadded c x.bytes.length
        let s1 := s.updBurst j f i fun b => { b with grants := setAt b.grants k { g with next := some (pos + len) } }
        s1.upXgem ⟨j, f, i, k, b.onu, b.stamp, g, b.start, pos, inBadCw c b.bad pos len⟩ x full e
      | none => s
    else s
  | none => s

/-- UPSTREAM_XGEM_FRAME (R178, R346): `ctxBad` says that the binding (1) or the key (2) read for it is uncorrectable. -/
def execUpstreamXgemFrame (j : Fin 96) (f i k : Nat) (x : UpXgem) (full : Bool) (ctxBad : Fin 3) (s : State) :
    Host.Outcome State Fault Refusal :=
  let q := s.ctxErr ctxBad
  .next (q.2.upXgemAt j.val f i k x full q.1)

/-- REASSEMBLY_TIMEOUT (R179): upstream frame u + REASM_FRAMES of an open reassembly has ended without a fragment. -/
def State.xReasmTimeout (s : State) (n pid : Nat) : State :=
  let r := s.xreasm n pid
  let e : Int := ((r.u + s.reasmFrames + 1 : Nat) : Int) - s.chrono.ponSf
  let due : Int := (s.chrono.psyncAt.toNat : Int) + (e * 125000 + s.teq n) * nsUnit
  if r.isOpen && decide (due ≤ (s.raw.toNat : Int)) then (s.reasmAbort n pid).bump (Reg.xgmUsReasmDrop (2 * n + r.ch)) else s

/-- REASSEMBLY_TIMEOUT (R179). -/
def execReassemblyTimeout (n : Fin 48) (pid : Fin 8192) (at' : Raw) (s : State) : Host.Outcome State Fault Refusal :=
  .next ((s.advance at').xReasmTimeout n.val pid.val)

/-! ### XGEM resets (R142, R174) -/

/-- A warm reset or zeroisation clears the key store, reassemblies and exchanges (R174, Table 03.8). -/
def State.wipeKeys (s : State) : State :=
  { s with xgm.keys := [], xgm.bkeys := [], xgm.keyData := [] }

end Sys2Proof.Machine
end

