-- ==== Sys2Proof/Machine/PonLine.lean ====
section
/-!
DEFINITION. Machine/PonLine.lean: the frame timer and downstream frames (R93 to R95, R106, R107, R119), burst reception
(R112 to R115), the sideband pins (R116 to R118), loss of signal and port reset (R120, R121).
-/
namespace Sys2Proof.Machine

/-! ### The frame timer (R93 to R95) -/

/-- A downstream frame in units of 2^-16 ns. -/
def frameRaw : Nat := 125000 * nsUnit

/-- The PON view's time at a raw value, in 2^-16 ns. -/
def State.ponView (s : State) (t : Raw) : Nat := (s.viewTime (s.fld Reg.timePonCfg 3 0) t).toNat

/-- The 125 µs multiple nearest to a time. -/
def nearestFrame (v : Nat) : Nat := (v + frameRaw / 2) / frameRaw

/-- The largest steering of a frame, in 2^-16 / 8,000 ns: SLEW / 8,000 ns (R93). -/
def State.slewUnits (s : State) : Int := (Nat.min 1000 (s.fld Reg.timePonCfg 17 8) * nsUnit : Nat)

/-- The frame timer at a boundary that falls unsteered at `t`: the superframe count, PSync and the phase error (R93 to R95). -/
def State.frameTimer (s : State) (t : Raw) (tx : Bool) : State :=
  let v := s.ponView t
  if !tx then { s with chrono.ponErr := 0, chrono.ponSf := v / frameRaw % 2 ^ 51, chrono.psyncAt := t, chrono.realign := false }
  else
    let g := nearestFrame v
    let frac := s.chrono.ponErr % 8000
    let err : Int := ((v : Int) - (g * frameRaw : Nat)) * 8000 + frac
    let steer : Int := if s.chrono.realign then -err else clampInt (-s.slewUnits) s.slewUnits (-err)
    let sf := g % 2 ^ 51
    { s with
      chrono.ponErr := err + steer, chrono.ponSf := sf,
      chrono.psyncAt := t + BitVec.ofInt 96 ((frac + steer) / 8000),
      chrono.realignHold := if s.chrono.realign then sf + s.fld Reg.actSupvCfg 5 0 else s.chrono.realignHold,
      chrono.realign := false }

/-! ### Transmitters (R119, R121) -/

/-- Settling frames: ceil(TX_SETTLE_US / 125) (R119). -/
def State.settleFrames (s : State) (n : Nat) : Nat := ceilDiv (s.fld (Reg.ponLineTiming n) 31 16) 125

/-- Ranging grants of a map that was taken and does not leave are reserved again; that is no miss (R134, R162). -/
def State.unsentMap (s : State) (j : Nat) : State :=
  let ids := ((s.maps j).flatMap fun m =>
    if m.taken && !m.sent then m.bursts.filter fun b => b.kind == .ranging else []).map fun b => b.onu
  let s1 := s.setMaps j ((s.maps j).map fun m => if m.taken && !m.sent then { m with bursts := [], sent := true } else m)
  if s1.engineOn then s1.each ids fun id s => (s.rangeRelease (j / 2) id).rangeReserve (j / 2) id else s1

/-- PON_TXDIS is high from a frame boundary: what a channel holds for the frame goes back or goes: its remainder, the messages taken for
it, its map (R119, R126, R171). -/
def State.chStop (s : State) (j : Nat) : State := (((s.frameFill j).restDrop j).ploamReturn j).unsentMap j

/-- PON_TXDIS is high from a frame boundary (R119). -/
def State.txStop (s : State) (n : Nat) : State :=
  (((s.chStop (2 * n)).chStop (2 * n + 1)).setBit (Reg.ponLineStatus n) 30 false).setBit (Reg.ponLineStatus n) 28 false

/-- PON_TXDIS falls at the boundary of frame `f`: settling begins (R119). -/
def State.txFall (s : State) (n f : Nat) : State :=
  let k := s.settleFrames n
  let x := s.ponPort n
  let s1 := s.setPonPort n { x with settleUntil := f + k, relink := x.relink && decide (0 < k) }
  (s1.setBit (Reg.ponLineStatus n) 30 true).setBit (Reg.ponLineStatus n) 28 (0 < k)

/-- The transmitters of a port at the boundary of frame `f` (R119). -/
def State.txBoundary (s : State) (n f : Nat) : State :=
  let s1 :=
    match s.txOn n, s.txWanted n with
    | _, false => s.txStop n
    | false, true => s.txFall n f
    | true, true => s
  s1.setPonPort n { s1.ponPort n with stopTx := false }

/-- SETTLING_END (R119): the first frame after settling has begun. -/
def State.settlingEnd (s : State) (n : Nat) : State :=
  if s.bit (Reg.ponLineStatus n) 28 && decide ((s.ponPort n).settleUntil ≤ s.chrono.ponSf) then
    ((s.setBit (Reg.ponLineStatus n) 28 false).setPonPort n { s.ponPort n with relink := false }).ponFollow n
  else s

/-- SETTLING_END (R119). -/
def execSettlingEnd (n : Fin 48) (s : State) : Host.Outcome State Fault Refusal := .next (s.settlingEnd n.val)

/-! ### The frame boundary (R106, R107) -/

/-- Ranging grants of frame `f` that leave with the map begin the ranging of their contexts (R134). -/
def State.rangingBegin (s : State) (n : Nat) (bs : List Burst) : State :=
  s.each ((bs.filter fun b => b.kind == .ranging).map fun b => b.onu) fun id s =>
    let x := s.onu n id
    if (x.st = .assigned ∨ x.active) ∧ s.engineOn then (s.exchLeave n id).setOnu n id { x with st := .ranging } else s

/-- The map that leaves with frame `f` of a channel: the one taken at its cut-off, or an empty one in SAFE (R67, R107). -/
def State.sentMap (s : State) (j f : Nat) : List Burst :=
  match s.mapOf j f with
  | some m => if m.taken && !m.sent && s.serving then m.bursts else []
  | none => []

/-- The downstream frame of a channel begins: the one before has been filled; its header, map and messages leave, then its remainder
(R106 to R108, R171). -/
def State.frameSend (s : State) (j f : Nat) : State :=
  let bs := s.sentMap j f
  let s1 := (s.frameFill j).updMap j f fun m =>
    if m.taken && !m.sent then { m with sent := true, psync := s.chrono.psyncAt, bursts := bs } else m
  let x := s1.actCh j
  let k := (j % 2, (bs.map fun b => b.grants.length).sum, x.taken.length)
  let s2 := ((s1.setActCh j { x with taken := [] }).emit
    (.ponFrame j f (dsLine (j % 2)) (Config.dsHeader k) bs x.taken)).setArea j (0, Config.dsSpace k)
  let s3 := (s2.bump (Reg.ponDsFrames (j / 2) (j % 2))).rangingBegin (j / 2) bs
  if s3.serving then s3.restSend j else s3.restDrop j

/-- The grace of SAFE has run out (R67). -/
def State.graceOver (s : State) : Bool :=
  match s.dev.safeAt with
  | some a => s.dev.mode == .safe && s.reached (a + BitVec.ofNat 96 (s.fld Reg.devSafeGrace 15 0 * 1000 * nsUnit))
  | none => false

/-- Map copies of frame `f` take the instant of its PSync (R319). -/
def State.guideSync (s : State) (f : Nat) : State :=
  { s with lht.guides := s.lht.guides.mapVals (fun _ => []) fun l =>
      l.map fun m => if m.f = f ∧ !m.sent then { m with sent := true, psync := s.chrono.psyncAt } else m }

/-- PON_FRAME_BOUNDARY: the frame timer, the transmitters, the frames (R67, R93, R106, R119, R139). -/
def State.frameBoundary (s : State) (t : Raw) : State :=
  let s1 := s.frameTimer t s.anyTx
  let s2 := if s1.graceOver then { s1 with dev.safeAt := none } else s1
  let f := s2.chrono.ponSf
  let s3 := (s2.beginKeys).each (List.range 48) fun n s => s.txBoundary n f
  let s4 := s3.each (s3.allChannels.filter fun j => s3.txOn (j / 2)) fun j s => s.frameSend j f
  let s5 := (s4.guideSync f).ponFollowAll
  if f % 8000 = 0 then s5.clearOffences else s5

/-- PON_FRAME_BOUNDARY (R93, R106): `at'` is the instant of the boundary before steering. -/
def execPonFrameBoundary (at' : Raw) (s : State) : Host.Outcome State Fault Refusal := .next ((s.advance at').frameBoundary at')

/-- The end of the grace of SAFE, at the first frame boundary at or after it (R67): PON_TXDIS rises on all ports. -/
def State.safeGraceEnd (s : State) : State :=
  if s.graceOver then
    (({ s with dev.safeAt := none } : State).each ((List.range 48).filter fun n => s.txOn n) fun n s => s.txStop n).ponFollowAll
  else s

/-! ### Expected instants and low periods (R109, R116) -/

/-- The expected header start of a burst, in ns after PSync of its frame, as numerator and denominator: U(f) + StartTime for a
data grant (R109), the start of the span of a discovery window or ranging grant. -/
def State.headerExp (s : State) (j f : Nat) (b : Burst) : Int × Nat :=
  let n := j / 2
  let L := frameUnits (j % 2)
  match b.kind with
  | .data => ((s.teqOf j f * L + b.start * 125000 : Nat), L)
  | .ranging => ((s.onu n b.onu).m - ((s.rangeSpan (s.onu n b.onu)).1 * 16 : Nat), 16)
  | .discovery => ((s.rtdMinUs * 1000 : Nat), 1)

/-- Burst `i` of a map that the PON line has taken, unless a port reset cut it off. -/
def State.takenBurst (s : State) (j f i : Nat) : Option Burst :=
  match s.mapOf j f with
  | some m => if m.taken then (m.bursts[i]?).filter fun b => b.st != .void else none
  | none => none

/-- A computed instant on the 1 ns grid: the nearest step, a half step to the earlier (R116). -/
def grid (num : Int) (den : Nat) : Int := -((den - 2 * num) / (2 * den : Nat) : Int)

/-- The low period of PON_BRST_N for a burst, in ns of the PON time line, cut at the instant its map was taken (R116). -/
def State.brstPeriod (s : State) (j f : Nat) (b : Burst) : Option (Int × Int) :=
  let n := j / 2
  let p := s.prof n b.prof
  let e := s.headerExp j f b
  let w := s.fld (Reg.ponSidebandCfg n) 23 16
  let shift : Int := signed 8 (s.fld (Reg.ponSidebandCfg n) 31 24) - s.fld (Reg.ponSidebandCfg n) 15 8
  let den := e.2 * p.bits
  let endN : Int := e.1 * p.bits - (p.lead * 125000 * e.2 : Nat) + shift * den
  let base : Int := (f * 125000 : Nat)
  let lo := base + grid (endN - w * den) den
  let hi := base + grid endN den
  if w = 0 ∨ hi ≤ base - 10000 then none else some (max lo (base - 10000), hi)

/-! ### The cut-off (R107, R126, R134, R170) -/

/-- The ONUs whose ranging grant of frame `f` is reserved on a channel. -/
def State.rangingOf (s : State) (j f : Nat) : List Nat :=
  (s.resvs j).filterMap fun r => if r.f = f then r.onu else none

/-- Ranging grants reserved in frame `f` that do not leave with its map are reserved again; that is no miss. -/
def State.rangingAgain (s : State) (j f : Nat) (sent : List Burst) : State :=
  if !s.engineOn then s
  else
    s.each ((s.rangingOf j f).filter fun id => !(sent.any fun b => b.kind == .ranging && b.onu == id)) fun id s =>
      (s.rangeRelease (j / 2) id).rangeReserve (j / 2) id

/-- Frame `f` carries an empty map by rule: SAFE, settling, or a mode that serves no traffic (R67, R119). -/
def State.emptyMap (s : State) (n f : Nat) : Bool :=
  !s.serving || s.settling n f || (!s.txOn n && decide (0 < s.settleFrames n))

/-- The active device sends the standby a copy of a map, over LH_PEER while it is up, else over Rhumb (R319). -/
def State.sendMapCopy (s : State) (j f : Nat) (bs : List Burst) : State :=
  if s.lhActive && (s.pathUp 0 || s.pathUp 1) then s.sendCopy (.mapCopy j f bs) (Config.mapCells (j, f, bs)) else s

/-- The PON line takes a map for frame `f`, with TEQ_NS as it stands and its pulses computed (R107, R109, R116). -/
def State.takeMap (s : State) (j f : Nat) (bs : List Burst) : State :=
  let n := j / 2
  let side := s.sideCh n (s.bit (Reg.ponSidebandCfg n) 0) == j % 2
  let pulsed := bs.map fun b => { b with pulse := if side then s.brstPeriod j f b else none }
  s.setMaps j ((putMap { f := f, bursts := pulsed, done := ((s.mapOf j f).map fun m => m.done).getD true, taken := true, teq := s.teq n }
    (s.maps j)).take mapsKept)

/-- The cut-off of frame `f` on a channel (R107, R126): nothing is taken for a frame that will not be sent. -/
def State.channelCut (s : State) (j f : Nat) : State :=
  let n := j / 2
  if !(s.txOn n || s.txWanted n) || (s.ponPort n).stopTx then s.rangingAgain j f []
  else
    let s1 := s.ploamCut j f
    if s1.emptyMap n f then (s1.rangingAgain j f []).takeMap j f []
    else
      match (s1.mapOf j f).filter fun m => m.done with
      | some m => ((s1.takeMap j f m.bursts).rangingAgain j f m.bursts).sendMapCopy j f m.bursts
      | none =>
        (((s1.bump (Reg.ponMapLate n (j % 2))).event (leafOf (j / 32) (j % 32)) j).rangingAgain j f []).takeMap j f []

/-- MAP_CUTOFF (R107, R126, R170): 10 µs before PSync of the next frame. -/
def State.mapCutoff (s : State) : State :=
  let f := (s.chrono.ponSf + 1) % 2 ^ 51
  let s1 := (s.cutKeys).each (List.range 48) fun n s => s.setPonPort n { s.ponPort n with teq := s.teq n }
  s1.each s1.allChannels fun j s => s.channelCut j f

/-- MAP_CUTOFF (R107). -/
def execMapCutoff (at' : Raw) (s : State) : Host.Outcome State Fault Refusal := .next (s.advance at').mapCutoff

/-- PON_REALIGN (R95): a write of TIME_PON_CFG. -/
def execPonRealign (val : Word) (s : State) : Host.Outcome State Fault Refusal := .next (s.ponCfgWrite val s.anyTx)

/-! ### Loss accounting (R120, R140) -/

/-- Bursts of upstream frame `f` on a channel that have not been counted yet. -/
def State.dueBursts (s : State) (j f : Nat) : List Burst :=
  match s.mapOf j f with
  | some m => if m.sent && !m.counted then m.bursts else []
  | none => []

/-- An ONU's granted frame `f` ends: with a confirmed burst or one more without (R140, R142). -/
def State.onuFrame (s : State) (n f : Nat) (bs : List Burst) (id : Nat) : State :=
  let x := s.onu n id
  if f < s.chrono.realignHold ∨ !s.engineOn then s
  else if bs.any fun b => b.onu == id && b.st == .confirmed then s.setOnu n id { x with quiet := 0 }
  else s.setOnu n id { x with quiet := Nat.min 255 (x.quiet + 1) }

/-- Once every burst of upstream frame `f` of a port has ended, the frame counts for R120 and R140; bursts that a port reset cut off
count toward neither (R121). A frame counts toward LOS when it held a grant to an active ONU, and breaks the run when any burst of
it was confirmed. -/
def State.frameResolve (s : State) (n f : Nat) : State :=
  let bs := s.dueBursts (2 * n) f ++ s.dueBursts (2 * n + 1) f
  if bs.any fun b => b.st == .waiting then s
  else
    let live := bs.filter fun b => b.kind == .data && b.st != .void
    let seen := [2 * n, 2 * n + 1].any fun j => ((s.mapOf j f).map fun m => m.seen).getD false
    let s1 := (s.updMap (2 * n) f fun m => { m with counted := true }).updMap (2 * n + 1) f fun m => { m with counted := true }
    let x := s1.ponPort n
    let s2 :=
      if live.any fun b => (s1.onu n b.onu).active then
        s1.setPonPort n { x with losRun := if seen || live.any fun b => b.st == .confirmed then 0 else x.losRun + 1 }
      else s1
    s2.each ((live.map fun b => b.onu).eraseDups) fun id s => s.onuFrame n f live id

/-- LOSS_OF_SIGNAL (R120): LOS_FRAMES granted frames in a row without a confirmed burst, on a port with an active ONU. -/
def State.lossOfSignal (s : State) (n : Nat) : State :=
  let x := s.ponPort n
  if Nat.max 1 (s.fld (Reg.ponLineTiming n) 7 0) ≤ x.losRun ∧ (s.nonFree n).any fun id => (s.onu n id).active then
    (s.setPonPort n { x with los := true }).ponFollow n
  else s

/-- LOSS_OF_SIGNAL (R120). -/
def execLossOfSignal (n : Fin 48) (s : State) : Host.Outcome State Fault Refusal := .next (s.lossOfSignal n.val)

/-- A burst confirmed on either channel ends loss of signal (R120, cause 4); the count for the next one begins again (log 126). -/
def State.signalSeen (s : State) (n : Nat) : State :=
  let x := s.ponPort n
  if x.los then (s.setPonPort n { x with los := false, losRun := 0 }).ponFollow n else s

/-! ### Bursts (R109, R112 to R115) -/

/-- WIN and TOL (R112). -/
def State.winBits (s : State) (n : Nat) : Nat := if s.bit (Reg.ponLineCfg n) 31 then s.fld (Reg.ponDelimCfg n) 25 16 else 64
def State.tolBits (s : State) (n : Nat) : Nat := if s.bit (Reg.ponLineCfg n) 31 then s.fld (Reg.ponDelimCfg n) 4 0 else 4

/-- A burst's header start relative to PSync of its frame, for a delimiter captured at `cap`, in 2^-16 ns: the position stamped
under R79 plus the delimiter. -/
def State.headerAt (s : State) (j f : Nat) (p : BurstProf) (cap : Raw) (latency : Nat) : Int :=
  let ps : Raw := ((s.mapOf j f).map fun m => m.psync).getD 0
  ((s.boundaryRaw (j / 2) true cap latency).toNat : Int) - ps.toNat + (8 * p.delim * frameRaw / p.bits : Nat)

/-- The candidate lies in its window: the search window of a data grant, the spans of R129 and R134 otherwise. -/
def State.inWindow (s : State) (n : Nat) (b : Burst) (off hdr : Int) : Bool :=
  match b.kind with
  | .data => decide (off.natAbs ≤ s.winBits n)
  | .ranging =>
    let m := (s.onu n b.onu).m * 4096
    let w := s.rangeSpan (s.onu n b.onu)
    decide (m - (w.1 * nsUnit : Nat) ≤ hdr) && decide (hdr ≤ m + (w.2 * nsUnit : Nat))
  | .discovery =>
    decide (((s.rtdMinUs * 1000 * nsUnit : Nat) : Int) ≤ hdr) &&
      decide (hdr ≤ (((s.rtdMinUs + s.quietUs) * 1000 * nsUnit : Nat) : Int))

/-- What a receiver sees at a position: the received bits, whether the header that follows passes its HEC with zero errors, its
ONU-ID, and the capture with its latency. -/
structure Cand where
  rx : BitVec 64
  hec : Bool
  onu : Nat
  cap : Raw
  latency : Nat
deriving DecidableEq, Repr

/-- The Hamming distance of the received bits from a profile's delimiter (R112). -/
def Cand.dist (k : Cand) (p : BurstProf) : Nat :=
  ((List.range (8 * p.delim)).filter fun i => k.rx.toNat.testBit i != p.bits'.testBit i).length

/-- The distance of a header start in 2^-16 ns from an expected one, in bits of a profile (R113). -/
def offBits (p : BurstProf) (hdr : Int) (e : Int × Nat) : Int :=
  roundDiv ((hdr * e.2 - e.1 * 65536) * p.bits) (65536 * 125000 * e.2)

/-- The coded bits of a burst that answers a discovery window, from its header on (R161). -/
def discBits (c : Nat) (p : BurstProf) : Nat := codedBits c p.fec (ploamuBytes c + burstBytes c)

/-- Positions are tried in ascending order: one at or before the latest tried is not (R112). -/
def laterThan (b : Burst) (off : Int) : Bool := b.tried.all fun t => decide (t < off)

/-- A granted burst is confirmed (R113, R115, R135, R136, R140). -/
def State.confirm (s : State) (j f i : Nat) (b : Burst) (p : BurstProf) (hdr off : Int) (k : Cand) : State :=
  let n := j / 2
  let st := s.portStamp n true k.cap k.latency none
  let s1 := ((s.updBurst j f i fun b => { b with st := .confirmed, stamp := st, tried := some off }).bump
    (Reg.ponBurstOk n (j % 2))).signalSeen n
  if b.kind = .ranging then
    ((s1.updMap j f fun m => { m with seen := true }).ranged n b.onu (hdr / 4096)).frameResolve n f
  else
    let x := s1.onu n b.onu
    let s2 :=
      if x.st = .lost ∧ s1.engineOn ∧ s1.chrono.realignHold ≤ f then s1.setOnu n b.onu { x with st := .operational, quiet := 0 }
      else s1
    (s2.drift n b.onu f p off).frameResolve n f

/-- A header that passes names another ONU (R113, R139). -/
def State.foreign (s : State) (j f i : Nat) (b : Burst) (id : Nat) : State :=
  let n := j / 2
  let s1 := ((s.updBurst j f i fun b => { b with st := .foreign }).bump (Reg.ponBurstOnuMismatch n (j % 2))).offence n id
  (if b.kind = .ranging then s1.rangeMiss n b.onu else s1).frameResolve n f

/-- BURST_CANDIDATE (R112, R113): a position in the window is tried. -/
def State.candidate (s : State) (j f i : Nat) (k : Cand) : State :=
  let n := j / 2
  match s.burstOf j f i with
  | none => s
  | some b =>
    let p := s.prof n b.prof
    let hdr := s.headerAt j f p k.cap k.latency
    let off := offBits p hdr (s.headerExp j f b)
    if b.st ≠ .waiting ∨ b.kind = .discovery ∨ !s.inWindow n b off hdr ∨ !laterThan b off then s
    else
      let s1 := s.updBurst j f i fun b => { b with tried := some off }
      if s.tolBits n < k.dist p then s1
      else if !k.hec then s1.bump (Reg.ponDelimFalse n (j % 2))
      else if k.onu = b.onu then s1.confirm j f i b p hdr off k
      else s1.foreign j f i b k.onu

/-- DISCOVERY_CANDIDATE (R114, R129, R130): every header that passes is confirmed; the search goes on at the first bit after that
burst's end. `msg` is the burst's message. -/
def State.discCandidate (s : State) (j f i : Nat) (k : Cand) (msg : Option UpPloam) : State :=
  let n := j / 2
  match s.burstOf j f i with
  | none => s
  | some b =>
    let p := s.prof n b.prof
    let hdr := s.headerAt j f p k.cap k.latency
    let off := offBits p hdr (s.headerExp j f b)
    if b.st ≠ .waiting ∨ b.kind ≠ .discovery ∨ !s.inWindow n b off hdr ∨ !laterThan b off then s
    else
      let s1 := s.updBurst j f i fun b => { b with tried := some off }
      if s.tolBits n < k.dist p then s1
      else if !k.hec then s1.bump (Reg.ponDelimFalse n (j % 2))
      else
        let s2 := s1.updBurst j f i fun b =>
          { b with found := true, tried := some (off + (8 * p.delim + discBits (j % 2) p : Nat) - 1) }
        let s3 := ((s2.updMap j f fun m => { m with seen := true }).bump (Reg.ponDiscBursts n (j % 2))).signalSeen n
        match msg with
        | some m => s3.upPloam n (j % 2) k.onu m (some (hdr / 4096, b.prof))
        | none => s3

/-- DISCOVERY_CANDIDATE (R114). -/
def execDiscoveryCandidate (j : Fin 96) (f i : Nat) (rx : BitVec 64) (hec : Bool) (onu : Fin 1024) (cap : Raw) (latency : Nat)
    (msg : Option UpPloam) (s : State) : Host.Outcome State Fault Refusal :=
  .next (s.discCandidate j.val f i ⟨rx, hec, onu.val, cap, latency⟩ msg)

/-- BURST_WINDOW_END (R113, R134): a window ends with no confirmation and no foreign header; discovery windows are not counted. -/
def State.windowEnd (s : State) (j f i : Nat) : State :=
  match s.burstOf j f i with
  | none => s
  | some b =>
    if b.st ≠ .waiting then s
    else
      let s1 := s.updBurst j f i fun b => { b with st := .missed }
      let s2 := match b.kind with
        | .discovery => s1
        | .ranging => (s1.bump (Reg.ponBurstMiss (j / 2) (j % 2))).rangeMiss (j / 2) b.onu
        | .data => s1.bump (Reg.ponBurstMiss (j / 2) (j % 2))
      s2.frameResolve (j / 2) f

/-- BURST_WINDOW_END (R113). -/
def execBurstWindowEnd (j : Fin 96) (f i : Nat) (s : State) : Host.Outcome State Fault Refusal := .next (s.windowEnd j.val f i)

/-- UPSTREAM_FEC_CODEWORD (R115): codeword `cw` of a confirmed burst whose profile has FEC, or of one found in a discovery window; the
bytes of one that cannot be corrected are marked errored. -/
def State.codeword (s : State) (j f i cw : Nat) (corrected uncorrectable : Bool) : State :=
  match s.burstOf j f i with
  | none => s
  | some b =>
    let n := j / 2
    if !(b.st == .confirmed || b.found) || !(s.prof n b.prof).fec then s
    else if uncorrectable then
      (s.updBurst j f i fun b => { b with bad := if b.found then b.bad else cw :: b.bad }).bump (Reg.ponFecCwUncorr n (j % 2))
    else if corrected then s.bump (Reg.ponFecCwCorr n (j % 2))
    else s

/-- UPSTREAM_FEC_CODEWORD (R115). -/
def execUpstreamFecCodeword (j : Fin 96) (f i cw : Nat) (corrected uncorrectable : Bool) (s : State) :
    Host.Outcome State Fault Refusal :=
  .next (s.codeword j.val f i cw corrected uncorrectable)

/-! ### PON_BRST_N (R116, R117) -/

/-- A low period that overlaps or touches the one before merges with it (R116). -/
def mergeLow (old : Option (Int × Int)) (x : Int × Int) : Int × Int :=
  match old with
  | some o => if x.1 ≤ o.2 ∧ o.1 ≤ x.2 then (min o.1 x.1, max o.2 x.2) else x
  | none => x

/-- BRST_PULSE (R116, R117): the pulse that the cut-off of map `f` computed for burst `i`. -/
def State.brstPulse (s : State) (j f i : Nat) : State :=
  let n := j / 2
  match (s.takenBurst j f i).bind fun b => b.pulse with
  | none => s
  | some x =>
    let y := mergeLow (s.ponPort n).brst x
    let s1 := s.updMap j f fun m =>
      match m.bursts[i]? with
      | some b => { m with bursts := setAt m.bursts i { b with pulse := none } }
      | none => m
    (s1.setPonPort n { s1.ponPort n with brst := some y }).emit (.brst n y.1 y.2)

/-- BRST_PULSE (R116). -/
def execBrstPulse (j : Fin 96) (f i : Nat) (s : State) : Host.Outcome State Fault Refusal := .next (s.brstPulse j.val f i)

/-! ### PON_RSSI_TRIG (R118) -/

/-- Now on the PON time line, in 2^-16 ns. -/
def State.lineNow (s : State) : Int :=
  (s.chrono.ponSf * frameRaw : Nat) + ((s.raw.toNat : Int) - s.chrono.psyncAt.toNat)

/-- A write of PON_RSSI_CTRL: ARM clears DONE and applies the fields (R118). -/
def State.rssiWrite (s : State) (n : Nat) (v : Word) : State :=
  let a := Reg.ponRssiCtrl n
  let s1 := s.wrTyped a v
  if Machine.bit v 31 then
    let x := s1.ponPort n
    (s1.setBit a 30 false).setPonPort n { x with
      rssi := some ⟨s1.fld a 29 28, s1.fld a 25 16, s1.fld a 15 8, Nat.max 1 (s1.fld a 7 0), s1.lineNow⟩,
      rssiPulse := x.rssiPulse.map fun _ => false }
  else s1

/-- RSSI_ARM (R118). -/
def execRssiArm (n : Fin 48) (val : Word) (s : State) : Host.Outcome State Fault Refusal := .next (s.rssiWrite n.val val)

/-- The pulse begins at an instant of the PON time line; in mode 2 the next burst after `from'` triggers again. -/
def State.rssiFire (s : State) (n : Nat) (r : RssiArm) (start from' : Int) : State :=
  let x := s.ponPort n
  (s.setPonPort n { x with rssiPulse := some true, rssi := if r.mode = 2 then some { r with from' := from' } else none }).emit
    (.rssi n start r.width)

/-- The expected header start of a burst on the PON time line, in 2^-16 ns. -/
def State.headerLine (s : State) (j f : Nat) (b : Burst) : Int :=
  let e := s.headerExp j f b
  (f * frameRaw : Nat) + e.1 * 65536 / e.2

/-- A burst of the armed ONU that has not triggered: granted, not in a discovery window, its header due at or after `from'`. -/
def State.rssiBurst (s : State) (j f : Nat) (r : RssiArm) (b : Burst) : Bool :=
  b.onu == r.onu && b.kind != .discovery && b.st != .void && decide (r.from' ≤ s.headerLine j f b)

/-- The next granted burst of the armed ONU has its header at this instant: none of the maps taken holds an earlier one. -/
def State.rssiNext (s : State) (j : Nat) (r : RssiArm) (t : Int) : Bool :=
  !((s.maps j).any fun m => m.taken && m.bursts.any fun b => s.rssiBurst j m.f r b && decide (s.headerLine j m.f b < t))

/-- The first interval of upstream frame `f` that begins at or after the arming, holds no grant and no window, and is long enough for
mode 3, in ns from the origin. -/
def State.rssiGap (s : State) (j f : Nat) (r : RssiArm) : Option (Nat × Nat) :=
  (freeGaps 125000 (s.busyNs j f)).find? fun g =>
    decide (s.guardNs (j / 2) (j % 2) + r.delay + r.width ≤ g.2 - g.1) &&
      decide (r.from' ≤ ((s.originOf j f + g.1) * nsUnit : Nat))

/-- Frames before the triggering one in which an interval of mode 3 is looked for: an arming waits for no more (log 127). -/
def rssiBack : Nat := 8

/-- RSSI_TRIGGER (R118): on granted burst `i` of map `f`, the next of the armed ONU, in modes 1 and 2; in mode 3 in the next interval
that is free and long enough, which lies in upstream frame `f`. -/
def State.rssiTrigger (s : State) (n f i : Nat) : State :=
  let c := s.sideCh n (s.bit (Reg.ponSidebandCfg n) 1)
  let j := 2 * n + c
  match (s.ponPort n).rssi with
  | none => s
  | some r =>
    if r.mode = 0 then s
    else if r.mode = 3 then
      match s.rssiGap j f r with
      | some g =>
        if (List.range (Nat.min rssiBack f)).any fun k => (s.rssiGap j (f - 1 - k) r).isSome then s
        else s.rssiFire n r ((s.originOf j f + g.1 + r.delay : Nat) : Int) 0
      | none => s
    else
      match s.takenBurst j f i with
      | some b =>
        let t := s.headerLine j f b
        if s.rssiBurst j f r b && s.rssiNext j r t then
          let e := s.headerExp j f b
          s.rssiFire n r (((f * 125000 + r.delay : Nat) : Int) + grid e.1 e.2) (t + 1)
        else s
      | none => s

/-- RSSI_TRIGGER (R118). -/
def execRssiTrigger (n : Fin 48) (f i : Nat) (s : State) : Host.Outcome State Fault Refusal := .next (s.rssiTrigger n.val f i)

/-- RSSI_PULSE_END (R118): DONE is set when the pulse of the arming in force ends. -/
def State.rssiEnd (s : State) (n : Nat) : State :=
  let x := s.ponPort n
  match x.rssiPulse with
  | none => s
  | some own =>
    let s1 := s.setPonPort n { x with rssiPulse := none }
    if own then s1.setBit (Reg.ponRssiCtrl n) 30 true else s1

/-- RSSI_PULSE_END (R118). -/
def execRssiPulseEnd (n : Fin 48) (s : State) : Host.Outcome State Fault Refusal := .next (s.rssiEnd n.val)

/-! ### Port reset, relink and configuration (R119, R121, R33) -/

/-- Bursts of sent maps that have not ended are not received and count toward nothing (R121). -/
def State.voidBursts (s : State) (j : Nat) : State :=
  let ids := ((s.maps j).flatMap fun m =>
    if m.taken then m.bursts.filter fun b => b.kind == .ranging && b.st == .waiting else []).map fun b => b.onu
  let s1 := s.setMaps j ((s.maps j).map fun m =>
    if m.taken then { m with counted := true, bursts := m.bursts.map fun b => if b.st = .waiting then { b with st := .void } else b }
    else m)
  if s1.engineOn then s1.each ids fun id s => (s.rangeRelease (j / 2) id).rangeReserve (j / 2) id else s1

/-- The line logic of a port starts again: PON_TXDIS rises at the next boundary, cause 5 holds (R33, R121). -/
def State.relinkStart (s : State) (n : Nat) : State :=
  let s1 := s.setPonPort n { s.ponPort n with relink := true, stopTx := true, brst := none, rssi := none, rssiPulse := none }
  ((s1.voidBursts (2 * n)).voidBursts (2 * n + 1)).ponFollow n

/-- A write of PON_LINE_CFG (Table 05.7, R119, R121): PORT_RESET while a reset runs is ignored. -/
def State.lineCfgWrite (s : State) (n : Nat) (v : Word) : State :=
  let was := s.bit (Reg.ponLineCfg n) 1
  let s1 := (s.wrTyped (Reg.ponLineCfg n) v).setBit (Reg.ponLineCfg n) 1 (was || Machine.bit v 1)
  if Machine.bit v 1 && !was then s1.relinkStart n else s1.ponFollow n

/-- PON_PORT_RESET (R121). -/
def execPonPortReset (n : Fin 48) (val : Word) (s : State) : Host.Outcome State Fault Refusal :=
  .next (s.lineCfgWrite n.val val)

/-- PON_PORT_RESET_COMPLETE (R121). -/
def execPonPortResetComplete (n : Fin 48) (s : State) : Host.Outcome State Fault Refusal :=
  .next ((s.setBit (Reg.ponLineCfg n.val) 1 false).ponFollow n.val)

/-- An image swap changes a port's personality (R33, R104, R142): every context is freed without records; the port relinks, or goes
down with cause 1. DESIGN CHOICE: loss of signal ends with the personality that it was declared in (log 122). -/
def State.persChange (s : State) (n code : Nat) : State :=
  let s1 := ((s.personalityFree n).relinkStart n).setPers n code
  (s1.setPonPort n { s1.ponPort n with los := false, losRun := 0 }).ponFollow n

end Sys2Proof.Machine
end

