-- ==== Sys2Proof/Machine/Image.lean ====
section
/-!
DEFINITION. Machine/Image.lean: the structure image: load, in-service swap, memory BIST (R24 to R34, R57).
-/
namespace Sys2Proof.Machine

/-! ### Container and conditions (R25 to R28) -/

/-- Condition 1: MAGIC, FORMAT, TARGET_STEPPING and SECTION_COUNT. -/
def headerOk (h : ImgHeader) : Bool :=
  h.magic == 0x4B545349 && h.format == 1 && h.stepping == 0x00B0 && 1 ≤ h.sectionCount && h.sectionCount ≤ 64

/-- Condition 3: the key hash of an unrevoked slot and the signature (R26, R372); in the error state it fails (R377). -/
def State.sigOk (s : State) (h : ImgHeader) (pubkey sig : List Byte) (digest : BitVec 384) : Bool :=
  !s.sec.error && s.sec.otp.signed h (pubkey.take 97) sig digest

/-- The REASON of a failed condition: in the error state every load and swap ends with REASON 9 (R377). -/
def State.imgReason (s : State) (r : Nat) : Nat := if s.sec.error then 9 else r

/-- The TYPE of a section's content (Table 02.3). -/
def sectionType : Section → Nat
  | .parse _ => 1
  | .stage _ => 2
  | .action _ _ => 3
  | .carve _ => 4
  | .sched _ => 5
  | .port _ => 6
  | .entry _ => 7
  | .note => 8
  | .unknown t => t

/-- A TYPE that the loader applies (R27). -/
def applies (t : Nat) : Bool := 1 ≤ t && t ≤ 7

/-- A section is applied to what the image decides; ENTRY sections add up, others replace. -/
def applySection (b : ImageBody) : Section → ImageBody
  | .parse g => { b with parse := g }
  | .stage l => { b with stages := l }
  | .action l t => { b with actions := l, templates := t }
  | .carve c => { b with carve := c }
  | .sched c => { b with sched := c }
  | .port c => { b with port := c }
  | .entry l => { b with entries := b.entries ++ l }
  | .note => b
  | .unknown _ => b

/-- Directory entries with their indices, in ascending OFFSET. -/
def inOffset (dir : List DirEntry) : List (Nat × DirEntry) :=
  sortBy (fun a b => a.2.offset ≤ b.2.offset) ((List.range dir.length).zip dir)

/-! ### What a completed image sets (R4, R27, R280, R295) -/

/-- A personality that the PORT section gives a port; NONE where it names none. -/
def persOf (l : List (Nat × Nat)) (n : Nat) : Nat := ((l.find? fun e => e.1 == n).map Prod.snd).getD 0

/-- The personality of network port `m`: a 400GbE neighbour below makes it NONE (R295). R4 says that a pair keeps the even number
and not what 400GbE on an odd port means: the odd port then keeps the code as the image gives it (DESIGN CHOICE, log entry 96). -/
def netPersOf (c : PortSection) (m : Nat) : Nat :=
  if m % 2 = 1 ∧ persOf c.net (m - 1) = 6 then 0 else persOf c.net m % 8

/-- RHB_GRP_LANES of group `g` (R280). -/
def grpLanesOf (c : PortSection) (g : Nat) : Word :=
  match c.groups.find? fun e => e.1 == g with
  | some (_, first, count) => BitVec.ofNat 32 (count % 64 * 2 ^ 16 + first % 64)
  | none => 0

/-- Link groups as the PORT section forms them. -/
def State.setGroups (s : State) (c : PortSection) : State :=
  s.each (List.range 16) fun g s => (s.wr (Reg.rhbGrpLanes g) (grpLanesOf c g)).grpRefresh g

/-- SXT_TBL_INFO of a Sextant table. -/
def sxtInfoOf (x : TableShape) : Word :=
  BitVec.ofNat 32 (2 ^ 31 + x.sub % 8 * 2 ^ 28 + (if x.sub = 0 then 0 else x.size % 2 ^ 24))

/-- What reports the CARVE section: SXT_INFO, SXT_TBL_INFO, CHK_SRAM_REGION. -/
def State.setCarve (s : State) (c : Carve) : State :=
  let s1 := s.wrNat Reg.sxtInfo (ofBool (!c.full) * 2 ^ 31 + (if c.full then 2097152 else 4980736))
  let s2 := s1.each (List.range 256) fun t s => s.wr (Reg.sxtTblInfo t)
    (match c.tables.find? fun x => x.table == t && x.kind == 4 with | some x => sxtInfoOf x | none => 0)
  s2.each (List.range 6) fun r s =>
    let e := c.regions.getD r (0, 0)
    s.wrWords (Reg.chkSramRegionW0 r) [BitVec.ofNat 32 e.1, BitVec.ofNat 32 e.2]

/-- A load ends DONE: the whole image takes effect and DEV_IMG_ID_ACTIVE names it (R27, R28). -/
def State.commitImage (s : State) (b : ImageBody) (id : Word) : State :=
  let s0 : State := { s with dev.body := b, dev.structValid := true, dev.loadDone := true, cmp.chart := [] }
  let s1 := (s0.wr Reg.devImgIdActive id).startPipes
  let s2 := s1.each (List.range 9) fun p s => s.putChart (defaultEntries b.entries p fun _ => true)
  let s3 := (s2.setCarve b.carve).setGroups b.port
  let s4 := s3.each (List.range 48) fun n s => (s.setPers n (persOf b.port.pon n)).ponFollow n
  s4.each (List.range 24) fun m s => (s.wrNat (Reg.netPersonality m) (netPersOf b.port m)).netFollow m

/-! ### Image load (R28 to R30) -/

/-- BUSY of the other image operation (R42). -/
def State.imgBusy (s : State) : Bool := s.busy .imageLoad || s.busy .imageSwap

/-- The source length of an operation: DEV_IMG_LEN, or the flash entry's LENGTH (R28, R30). -/
def State.srcLen (s : State) (o : LongOp) : Nat :=
  if s.opArg o % 2 = 1 then s.dev.flashLen.getD 0 else s.fld Reg.devImgLen 26 0

/-- SRC = 1 with no TYPE 3 entry, or with a Binnacle that cannot serve flash reads (R30). -/
def State.noSource (s : State) (o : LongOp) : Bool :=
  s.opArg o % 2 == 1 && (s.dev.flashLen.isNone || !s.dev.binAlive)

/-- The Binnacle reads the flash directory: the LENGTH of its TYPE 3 entry (R30, R46). -/
def State.flashRead (s : State) (flash : Option Nat) : State := { s with dev.flashLen := flash }

/-- START of a load: refused by mode or a running swap (REASON 3), without a source (14), or shorter than a header (8). -/
def State.loadStart (s : State) : State :=
  let o := LongOp.imageLoad
  if !opAllowed o s.dev.mode 0 0 ∨ s.busy .imageSwap then s.opRefuse o 3
  else if s.noSource o then s.opRefuse o 14
  else
    let n := s.srcLen o
    if n < 32 then s.opRefuse o (s.imgReason 8)
    else { s.opBegin o with dev.load := some { flash := s.opArg o % 2 == 1, len := n } }

/-- A write of DEV_IMG_OP_CTRL by the device itself or through it. -/
def State.imgCtrl (s : State) (v : Word) : State :=
  s.opCtrlWrite .imageLoad v State.loadStart fun s => s.opAbort .imageLoad 1

/-- A host write of DEV_IMG_OP_CTRL: while PERST_N is low HELM is not available, and a load cannot begin (R55). -/
def State.imgCtrlWrite (s : State) (v : Word) : State := if s.dev.perstLow then s else s.imgCtrl v

/-- IMAGE_LOAD_START (R28). `flash` is what the Binnacle finds in the flash directory as it serves the START. -/
def execImageLoadStart (val : Word) (flash : Option Nat) (s : State) : Host.Outcome State Fault Refusal :=
  .next ((s.flashRead flash).imgCtrlWrite val)

/-- IMAGE_LOAD_ABORT (R28). -/
def execImageLoadAbort (val : Word) (s : State) : Host.Outcome State Fault Refusal := .next (s.imgCtrlWrite val)

/-- The running load, with PROGRESS in KiB read (Table 02.12). -/
def State.setLoad (s : State) (r : LoadRun) : State :=
  ({ s with dev.load := some r } : State).setProgress .imageLoad (r.bytes / 1024)

/-- IMAGE_HEADER_READ (R28): condition 1. -/
def State.loadHeader (s : State) (h : ImgHeader) : State :=
  match s.dev.load with
  | some r =>
    if r.hdr.isSome then s
    else
      let s1 := s.setLoad { r with hdr := some h, bytes := 32 }
      if headerOk h then s1 else s1.opFail .imageLoad (s.imgReason 13)
  | none => s

/-- IMAGE_HEADER_READ (R28). -/
def execImageHeaderRead (hdr : ImgHeader) (s : State) : Host.Outcome State Fault Refusal := .next (s.loadHeader hdr)

/-- IMAGE_DIRECTORY_READ (R28): condition 2. -/
def State.loadDirectory (s : State) (dir : List DirEntry) : State :=
  match s.dev.load with
  | some r =>
    match r.hdr with
    | some h =>
      if !r.dir.isEmpty ∨ dir.length ≠ h.sectionCount then s
      else
        let s1 := s.setLoad { r with dir := dir, bytes := 32 + 16 * h.sectionCount }
        if lengthOk h r.len dir then s1 else s1.opFail .imageLoad (s.imgReason 8)
    | none => s
  | none => s

/-- IMAGE_DIRECTORY_READ (R28). -/
def execImageDirectoryRead (dir : List DirEntry) (s : State) : Host.Outcome State Fault Refusal :=
  .next (s.loadDirectory dir)

/-- IMAGE_FIRST_PASS_END (R28): conditions 3 and 4; the second pass begins with the structure memories marked invalid. -/
def State.loadFirstEnd (s : State) (pubkey sig : List Byte) (digest : BitVec 384) : State :=
  match s.dev.load with
  | some r =>
    match r.hdr with
    | some h =>
      if r.dir.isEmpty ∨ r.second then s
      else
        let s1 := s.setLoad { r with second := true, digest := digest, bytes := r.len }
        if !s.sigOk h pubkey sig digest then s1.opFail .imageLoad 9
        else if h.svn < s.sec.otp.imgSvnMin then s1.opFail .imageLoad 10
        else s1.invalidate
    | none => s
  | none => s

/-- IMAGE_FIRST_PASS_END (R28). -/
def execImageFirstPassEnd (pubkey : List Byte) (sig : List Byte) (digest : BitVec 384) (s : State) :
    Host.Outcome State Fault Refusal :=
  .next (s.loadFirstEnd pubkey sig digest)

/-- The next section that the second pass applies: ascending OFFSET, skipped types left out (R27). -/
def LoadRun.nextSection (r : LoadRun) : Option (Nat × DirEntry) :=
  (inOffset r.dir).find? fun e => applies e.2.type && !r.applied.contains e.1

/-- IMAGE_SECTION_APPLY (R28): the section is applied and recorded in OP_PARTIAL. -/
def State.loadSection (s : State) (sec : Section) : State :=
  match s.dev.load with
  | some r =>
    match r.nextSection with
    | some (i, e) =>
      if !r.second ∨ sectionType sec ≠ e.type then s
      else
        (s.setLoad { r with body := applySection r.body sec, applied := r.applied ++ [i],
                            bytes := r.len + e.offset + e.length }).wrNat Reg.devImgOpPartial (2 ^ 31 + i)
    | none => s
  | none => s

/-- IMAGE_SECTION_APPLY (R28). -/
def execImageSectionApply (sec : Section) (s : State) : Host.Outcome State Fault Refusal := .next (s.loadSection sec)

/-- IMAGE_SECOND_PASS_END (R28): condition 5; DONE makes the structure valid. -/
def State.loadSecondEnd (s : State) (digest : BitVec 384) : State :=
  match s.dev.load with
  | some r =>
    match r.hdr with
    | some h =>
      if !r.second ∨ r.nextSection.isSome then s
      else
        let s1 := s.setLoad { r with bytes := 2 * r.len }
        if s.sec.error then s1.opFail .imageLoad 9
        else if digest ≠ r.digest then s1.opFail .imageLoad 11
        else (s1.commitImage r.body h.imageId).opDone .imageLoad
    | none => s
  | none => s

/-- IMAGE_SECOND_PASS_END (R28). -/
def execImageSecondPassEnd (digest : BitVec 384) (s : State) : Host.Outcome State Fault Refusal :=
  .next (s.loadSecondEnd digest)

/-! ### In-service swap (R31 to R34, Table 02.6) -/

/-- START of a swap. -/
def State.swapStart (s : State) : State :=
  let o := LongOp.imageSwap
  if !opAllowed o s.dev.mode 0 0 ∨ s.busy .imageLoad then s.opRefuse o 3
  else if s.noSource o then s.opRefuse o 14
  else
    let n := s.srcLen o
    if n < 32 then s.opRefuse o (s.imgReason 8)
    else { s.opBegin o with dev.swap := some { flash := s.opArg o % 2 == 1, len := n } }

/-- The running swap. -/
def State.setSwap (s : State) (r : SwapRun) : State := { s with dev.swap := some r }

/-- The spare of a swap. -/
def State.spare (s : State) : Nat := s.fld Reg.devPipeSpare 3 0

/-- Step 2 begins on logical pipeline `k`: the spare takes the image's structure, the chart entries of unchanged stages from the
pipeline that serves `k`, and ENTRY defaults elsewhere. A later write to an entry stands (R190). -/
def State.spareCharts (s : State) (b : ImageBody) (k : Nat) : State :=
  (s.chartsFrom b (s.fld (Reg.devPipeMap k) 3 0) s.spare).setPipe s.spare (pipeOf b 0)

/-- What an image file's sections say, applied in ascending OFFSET. -/
def bodyOf (f : ImageFile) : ImageBody :=
  (inOffset f.dir).foldl (fun b e => if applies e.2.type then (match f.sections[e.1]? with | some x => applySection b x | none => b) else b) {}

/-- Step 6: the image is committed (R33). -/
def State.swapDone (s : State) (f : ImageFile) : State :=
  let b := (bodyOf f)
  let s1 := ({ s with dev.body := b } : State).wr Reg.devImgIdActive f.hdr.imageId
  ((if b.port.groups = s.dev.body.port.groups then s1 else s1.setGroups b.port)).opDone .imageSwap

/-- The next pipeline, from `k` on, whose physical pipeline does not hold the new image; after the last the swap is DONE. -/
def State.swapNext (s : State) (r : SwapRun) (f : ImageFile) (k : Nat) : State :=
  match (List.range 8).find? fun i => k ≤ i && (s.pipe (s.fld (Reg.devPipeMap i) 3 0)).imageId != f.hdr.imageId with
  | some i =>
    ((s.spareCharts (bodyOf f) i).setSwap { r with phase := .loadSpare, k := i, img := some f }).setFld Reg.devSwapOpPartial 3 0 s.spare
  | none => s.swapDone f

/-- Network port `m` takes a new personality: it stops, its queued frames follow the port-down rule, it relinks (R33). -/
def State.netPersChange (s : State) (m code : Nat) : State :=
  ((s.setBit (Reg.netPortStatus m) 30 false).netFollow m).wrNat (Reg.netPersonality m) code |>.netFollow m

/-- The move point (Table 02.6 step 4, R33): frames that wait go to the spare, and ports of pipeline `k` whose personality
changes take it. -/
def State.movePoint (s : State) (r : SwapRun) (f : ImageFile) : State :=
  let v := s.fld (Reg.devPipeMap r.k) 3 0
  let b := (bodyOf f)
  let mine (port : Nat) : Bool := ((b.port.pipes.find? fun e => e.1 == port).map Prod.snd).getD 0 % 8 == r.k
  let s1 := s.setFld Reg.devSwapOpPartial 31 31 0
  let s2 := ((s1.setIngress s.spare (s1.ingress s.spare ++ s1.ingress v)).setIngress v []).setSwap { r with phase := .moving }
  let s3 := s2.each ((List.range 48).filter fun n => mine n && s.ponPers n != persOf b.port.pon n) fun n s => s.persChange n (persOf b.port.pon n)
  s3.each ((List.range 24).filter fun m => mine (48 + m) && s.netPers m != netPersOf b.port m) fun m s => s.netPersChange m (netPersOf b.port m)

/-- CONTINUE: a swap stopped at step 3 goes on to the move point. -/
def State.swapContinue (s : State) : State :=
  match s.dev.swap with
  | some r => match r.img with
    | some f => if r.phase = .paused then s.movePoint r f else s
    | none => s
  | none => s

/-- A spare that is loading is discarded. -/
def State.discardSpare (s : State) : State := s.setPipe s.spare {}

/-- ABORT (R34): at step 3 it acts at once; otherwise at the end of the step that runs. -/
def State.swapAbort (s : State) : State :=
  match s.dev.swap with
  | some r =>
    if r.phase = .paused then (s.discardSpare.setFld Reg.devSwapOpPartial 31 31 0).opAbort .imageSwap 1
    else s.setSwap { r with abort := true }
  | none => s

/-- A write of DEV_SWAP_OP_CTRL: ABORT, then START; CONTINUE resumes a stopped swap, unless the same write is a START, which while
BUSY changes nothing but START_IGNORED (R41). -/
def State.swapCtrlWrite (s : State) (v : Word) : State :=
  let s1 := s.opCtrlWrite .imageSwap v State.swapStart State.swapAbort
  if Machine.bit v 2 && !Machine.bit v 31 && s.busy .imageSwap then s1.swapContinue else s1

/-- IMAGE_SWAP_START (R32). `flash` is what the Binnacle finds in the flash directory as it serves the START. -/
def execImageSwapStart (val : Word) (flash : Option Nat) (s : State) : Host.Outcome State Fault Refusal :=
  .next ((s.flashRead flash).swapCtrlWrite val)

/-- IMAGE_SWAP_ABORT (R34). -/
def execImageSwapAbort (val : Word) (s : State) : Host.Outcome State Fault Refusal := .next (s.swapCtrlWrite val)

/-- IMAGE_SWAP_CONTINUE (R32). -/
def execImageSwapContinue (val : Word) (s : State) : Host.Outcome State Fault Refusal := .next (s.swapCtrlWrite val)

/-- The REASON that authentication or R31 gives an image, none when it is accepted. -/
def State.swapReason (s : State) (len : Nat) (f : ImageFile) : Option Nat :=
  let b := (bodyOf f)
  if !headerOk f.hdr then some (s.imgReason 13)
  else if f.dir.length ≠ f.hdr.sectionCount ∨ !lengthOk f.hdr len f.dir then some (s.imgReason 8)
  else if !s.sigOk f.hdr f.pubkey f.sig f.digest then some 9
  else if f.hdr.svn < s.sec.otp.imgSvnMin then some 10
  else if b.carve ≠ s.dev.body.carve ∨ b.sched ≠ s.dev.body.sched ∨ b.port.pipes ≠ s.dev.body.port.pipes then some 12
  else none

/-- SWAP_AUTHENTICATION_END (R31, R32 step 1). -/
def State.swapAuthEnd (s : State) (f : ImageFile) : State :=
  match s.dev.swap with
  | some r =>
    if r.phase ≠ .auth ∨ s.dev.moving.isSome then s
    else
      match s.swapReason r.len f with
      | some q => s.opFail .imageSwap q
      | none => if r.abort then s.opAbort .imageSwap 1 else s.swapNext r f 0
  | none => s

/-- SWAP_AUTHENTICATION_END (R31). -/
def execSwapAuthenticationEnd (img : ImageFile) (s : State) : Host.Outcome State Fault Refusal := .next (s.swapAuthEnd img)

/-- SPARE_LOAD_COMPLETE (R32 steps 2 to 4): with PAUSE the swap waits, else the move point is reached. PAUSE is ARG bit 1 as it stands
when the step is reached (DESIGN CHOICE, log entry 97: the manual does not say that START latches it). -/
def State.spareLoaded (s : State) : State :=
  match s.dev.swap with
  | some r =>
    match r.img with
    | some f =>
      if r.phase ≠ .loadSpare then s
      else if r.abort then s.discardSpare.opAbort .imageSwap 1
      else
        let s1 := s.setPipe s.spare (pipeOf (bodyOf f) f.hdr.imageId)
        if s1.opArg .imageSwap / 2 % 2 = 1 then (s1.setSwap { r with phase := .paused }).setFld Reg.devSwapOpPartial 31 31 1
        else s1.movePoint r f
    | none => s
  | none => s

/-- SPARE_LOAD_COMPLETE (R32). -/
def execSpareLoadComplete (s : State) : Host.Outcome State Fault Refusal := .next s.spareLoaded

/-- The physical pipeline that serves logical `k`, and whether no frame is in flight in it. -/
def State.drained (s : State) (k : Nat) : Bool := (s.cmp.recirc.get (fun _ => []) (s.fld (Reg.devPipeMap k) 3 0)).isEmpty

/-- Step 5 for logical `k`: the spare serves it, and the pipeline that served it becomes the spare (R16). -/
def State.moveDone (s : State) (k : Nat) : State :=
  ((s.wrNat (Reg.devPipeMap k) s.spare).wrNat Reg.devPipeSpare (s.fld (Reg.devPipeMap k) 3 0)).setProgress .imageSwap
    (s.progress .imageSwap + 1)

/-- PIPELINE_MOVE_COMPLETE (R32 step 5): with no frame left in the old pipeline it becomes the spare. A move whose swap has ended by
a change of mode is completed as ABORT completes it (R34). -/
def State.moved (s : State) : State :=
  match s.dev.moving, s.dev.swap with
  | some k, _ => if s.drained k then { s.moveDone k with dev.moving := none } else s
  | none, some r =>
    match r.img with
    | some f =>
      if r.phase ≠ .moving ∨ !s.drained r.k then s
      else if r.abort then { (s.moveDone r.k).opAbort .imageSwap 1 with dev.moving := none }
      else (s.moveDone r.k).swapNext r f (r.k + 1)
    | none => s
  | none, none => s

/-- PIPELINE_MOVE_COMPLETE (R32). -/
def execPipelineMoveComplete (s : State) : Host.Outcome State Fault Refusal := .next s.moved

/-- IMAGE_READ_FAILURE (R30): REASON 14 from flash, 5 from host memory. A load gives PROGRESS in KiB read; a swap discards the
spare that is loading. -/
def State.imgReadFailure (s : State) (bytes : Nat) : State :=
  match s.dev.load, s.dev.swap with
  | some r, _ => (s.setProgress .imageLoad (bytes / 1024)).opFail .imageLoad (if r.flash then 14 else 5)
  | none, some r =>
    if r.phase = .auth then s.opFail .imageSwap (if r.flash then 14 else 5)
    else if r.phase = .loadSpare then s.discardSpare.opFail .imageSwap (if r.flash then 14 else 5)
    else s
  | none, none => s

/-- IMAGE_READ_FAILURE (R30). -/
def execImageReadFailure (bytes : Nat) (s : State) : Host.Outcome State Fault Refusal := .next (s.imgReadFailure bytes)

/-! ### Memory BIST (R57, Table 03.15) -/

/-- START of a BIST: TARGET must be allowed in the mode. -/
def State.bistStart (s : State) : State :=
  let t := s.opArg .memoryBist % 4
  if !opAllowed .memoryBist s.dev.mode 0 t then s.opRefuse .memoryBist 3
  else { s.opBegin .memoryBist with dev.bist := some t }

/-- A write of DEV_BIST_OP_CTRL. -/
def State.bistCtrlWrite (s : State) (v : Word) : State :=
  s.opCtrlWrite .memoryBist v State.bistStart fun s => s.opAbort .memoryBist 1

/-- MEMORY_BIST_START (R57). -/
def execMemoryBistStart (val : Word) (s : State) : Host.Outcome State Fault Refusal := .next (s.bistCtrlWrite val)

/-- MEMORY_BIST_ABORT (R57). -/
def execMemoryBistAbort (val : Word) (s : State) : Host.Outcome State Fault Refusal := .next (s.bistCtrlWrite val)

/-- Corrections made during the test, as (KIND, bits, instance, address), are counted and logged like any other (R57, R346). -/
def State.bistCorrected (s : State) : List (Fin 10 × Nat × Nat × BitVec 64) → State
  | [] => s
  | (kd, n, m, a) :: cs => (s.memoryError kd.val false n m a).bistCorrected cs

/-- The end of a memory BIST (R57): instances tested and the failing ones, in order of failure, as (KIND, instance). -/
def State.bistEnd (s : State) (tested : Nat) (failing : List (Nat × Nat)) : State :=
  if s.dev.bist.isNone then s
  else
    let s1 := s.setProgress .memoryBist tested
    match failing with
    | [] => s1.opDone .memoryBist
    | (kd, i) :: _ =>
      ((s1.wrNat (Reg.devBistOpPartial 0) (kd % 16 * 2 ^ 24 + i % 4096)).wrNat (Reg.devBistOpPartial 1)
        (Nat.min 65535 failing.length)).opFail .memoryBist 8

/-- MEMORY_BIST_END (R57): what the test corrected, then its end. -/
def execMemoryBistEnd (tested : Nat) (failing : List (Nat × Nat)) (corrected : List (Fin 10 × Nat × Nat × BitVec 64)) (s : State) :
    Host.Outcome State Fault Refusal :=
  .next (if s.dev.bist.isNone then s else (s.bistCorrected corrected).bistEnd tested failing)

end Sys2Proof.Machine
end

