-- ==== Sys2Proof/Machine/Copy.lean ====
section
/-!
DEFINITION. Machine/Copy.lean: the state that Lighthouse copies (Table 15.2, R314, R317), as records, and how the standby takes
them.
-/
namespace Sys2Proof.Machine

/-! ### What is copied (Table 15.2) -/

/-- Bank selects that are copied: ACTIVE_BANK of the commit registers of charts, Almanac and Reckoner. -/
def bankRegs : List Nat := [Reg.cmpCommit, Reg.almCommit, Reg.dbaCommit]

/-- The bits of a register that are copied: ACTIVE_BANK of a bank select; the RW bits of the configuration registers of PON_, ACT_,
DBA_ and XGM_ and of the VOQ thresholds. -/
def copiedMask (a : Nat) : Word :=
  if bankRegs.contains a then Machine.mask 16 16
  else if (0x300000 ≤ a ∧ a < 0x900000) ∨ (0xB80000 ≤ a ∧ a < 0xC00000) then
    match regAt a with
    | some (d, _) => d.rwMask
    | none => 0
  else 0

/-- A key as words, present or not. -/
def keyWords (k : Option (BitVec 128)) : List Word :=
  match k with
  | some v => 1 :: toWords 4 v.toNat
  | none => [0, 0, 0, 0, 0]

/-- A key set as words. -/
def KeySet.words (x : KeySet) : List Word :=
  keyWords x.kek ++ keyWords x.ik ++ keyWords x.s1 ++ keyWords x.s2 ++ [BitVec.ofNat 32 x.ds]

/-- The key that five words of a list spell, from word `i`. -/
def wordsKey (l : List Word) (i : Nat) : Option (BitVec 128) :=
  if l.getD i 0 = 0 then none else some (BitVec.ofNat 128 (ofWords ((l.drop (i + 1)).take 4)))

/-- A key set from words: the next frames use its index once a cut-off has passed (R170). -/
def keySetOf (l : List Word) : KeySet :=
  { kek := wordsKey l 0, ik := wordsKey l 5, s1 := wordsKey l 10, s2 := wordsKey l 15, ds := (l.getD 20 1).toNat }

/-- An exact-match entry as words (Table 10.10). -/
def EmEntry.words (e : EmEntry) : List Word :=
  [BitVec.ofNat 32 e.table, BitVec.ofNat 32 (ofBool e.static + 2 * ofBool e.hit + 4 * ofBool e.frozen), BitVec.ofNat 32 e.age] ++
    toWords 2 e.result.toNat ++ toWords 10 e.key

/-- An exact-match entry from words. -/
def emOf (l : List Word) : Option EmEntry :=
  if l.isEmpty then none
  else
    let w := l.getD 1 0
    some { table := (l.getD 0 0).toNat, static := Machine.bit w 0, hit := Machine.bit w 1, frozen := Machine.bit w 2,
           age := (l.getD 2 0).toNat, result := BitVec.ofNat 64 (ofWords ((l.drop 3).take 2)), key := ofWords (l.drop 5) }

/-- An ONU context is copied in OPERATIONAL, LOST or DISABLED; any other arrives as FREE. -/
def Onu.words (x : Onu) : List Word :=
  if x.active || x.st == .disabled then
    [BitVec.ofNat 32 (onuCode x.st), BitVec.ofNat 32 x.ch, x.vendor, x.serial, BitVec.ofNat 32 x.eqd]
  else []

/-- An ONU context from words. -/
def onuOf (l : List Word) : Onu :=
  if l.isEmpty then {}
  else
    { st := if l.getD 0 0 = 3 then .operational else if l.getD 0 0 = 4 then .lost else .disabled,
      ch := (l.getD 1 0).toNat, vendor := l.getD 2 0, serial := l.getD 3 0, eqd := (l.getD 4 0).toNat }

/-- The gate lists' parameters of a port as words. -/
def Gates.words (g : Gates) : List Word :=
  [BitVec.ofNat 32 (ofBool g.swapped + 2 * ofBool g.valid), BitVec.ofNat 32 g.len] ++ toWords 3 g.t0 ++ toWords 2 g.cycle

/-- The tables of the copy by number, each entry as its words. -/
def State.copyTables (s : State) : List (Nat × List (Nat × List Word)) :=
  [ (0, (s.regs.filter fun e => copiedMask e.1 != 0).map fun e => (e.1, [e.2 &&& copiedMask e.1])),
    (1, s.cmp.chart),
    (2, s.sxt.em.filterMap fun e => e.2.map fun x => (x.table * 2 ^ 160 + x.key, x.words)),
    (3, s.lpmAll.map fun e => (e.1, [BitVec.ofNat 32 e.2.toNat])),
    (4, s.sxt.direct.map fun e => (e.1, toWords 2 e.2.toNat)),
    (5, s.alm.nodes.map fun e => (e.1, [e.2.cfg0, e.2.cfg1])),
    (6, s.alm.prof),
    (7, s.alm.entries.map fun e => (e.1, [BitVec.ofNat 32 e.2.1, BitVec.ofNat 32 e.2.2])),
    (8, s.alm.gates.map fun e => (e.1, e.2.words)),
    (9, s.alm.pol.map fun e => (e.1, [e.2.cfg])),
    (10, s.voq.map.map fun e => (e.1, [e.2])),
    (11, s.act.onus.map fun e => (e.1, e.2.words)),
    (12, s.act.sn.map fun e => (e.1, [e.2.vendor, e.2.serial, e.2.bind])),
    (13, s.rck.ctxs.map fun e => (e.1, [e.2.cfg0, e.2.cfg1])),
    (14, s.xgm.binds.map fun e => (e.1, [e.2.cfg0, e.2.cfg1])),
    (15, s.xgm.dsq.map fun e => (e.1, [e.2])) ]

/-- Both devices hold a VALID pairing key and their KCV values are equal (R375). -/
def State.keysMatch (s : State) : Bool :=
  match s.sec.pairKey with
  | some p => !s.sec.error && s.lht.peerKcv == some (Config.kcv p)
  | none => false

/-- The key store, wrapped under the pairing key (R317). -/
def State.copyKeys (s : State) : List CopyRec :=
  match s.sec.pairKey with
  | some p =>
    if !s.keysMatch then []
    else
      (s.xgm.keys.map fun e => (⟨16, e.1, Config.pairWrap p e.2.words⟩ : CopyRec)) ++
        s.xgm.bkeys.map fun e => (⟨17, e.1, Config.pairWrap p e.2.words⟩ : CopyRec)
  | none => []

/-- All copied state as records (R315). -/
def State.copied (s : State) : List CopyRec :=
  (s.copyTables.flatMap fun t => t.2.map fun e => (⟨t.1, e.1, e.2⟩ : CopyRec)) ++ s.copyKeys

/-- The changes from one copied state to another: the journal records between them. -/
def copyDiff (old new : List CopyRec) : List CopyRec :=
  (new.filter fun r => !old.contains r) ++
    (old.filter fun r => !(new.any fun q => q.table == r.table && q.key == r.key)).map fun r => { r with words := [] }

/-- The journal records from one copied state to another: keys that no longer travel are not deleted. -/
def State.journalFrom (s : State) (old new : List CopyRec) : List CopyRec :=
  (copyDiff old new).filter fun r => s.keysMatch || decide (r.table < 16) || !r.words.isEmpty

/-! ### Taking it (R315, R316) -/

/-- An exact-match entry of the active takes its place under this device's own seed, or goes (R315). -/
def State.emTake (s : State) (t key : Nat) (e : Option EmEntry) : State :=
  match e, s.emFind t key with
  | some x, some (i, y) => s.setEm i (some { x with fresh := y.fresh })
  | some x, none => (s.emPlace x).2
  | none, some (i, _) => s.setEm i none
  | none, none => s

/-- One record takes effect on the standby. -/
def State.applyRec (s : State) (r : CopyRec) : State :=
  let w0 := r.words.getD 0 0
  let w1 := r.words.getD 1 0
  match r.table with
  | 0 =>
    let m := copiedMask r.key
    let v := if r.words.isEmpty then resetOf r.key else w0
    s.wr r.key ((s.rd r.key &&& ~~~m) ||| (v &&& m))
  | 1 => { s with cmp.chart := s.cmp.chart.set (fun _ => chartBlank) r.key (if r.words.isEmpty then chartBlank else r.words) }
  | 2 => s.emTake (r.key / 2 ^ 160) (r.key % 2 ^ 160) (emOf r.words)
  | 3 => if r.words.isEmpty then s.lpmDrop r.key else (s.lpmPut r.key (BitVec.ofNat 22 w0.toNat)).2
  | 4 => { s with sxt.direct := s.sxt.direct.set (fun _ => 0) r.key (BitVec.ofNat 64 (ofWords r.words)) }
  | 5 => { s with alm.nodes := s.alm.nodes.upd (fun _ => s.alm.blank) r.key fun x => { x with cfg0 := w0, cfg1 := w1 } }
  | 6 => { s with alm.prof := s.alm.prof.set profReset r.key (if r.words.isEmpty then profReset r.key else r.words) }
  | 7 => { s with alm.entries := s.alm.entries.set (fun _ => (0, 0)) r.key (w0.toNat, w1.toNat) }
  | 8 =>
    let g := s.alm.gates.get (fun _ => {}) r.key
    let h : Gates := { g with swapped := Machine.bit w0 0, valid := Machine.bit w0 1, len := w1.toNat,
                              t0 := ofWords ((r.words.drop 2).take 3), cycle := ofWords (r.words.drop 5) }
    { s with alm.gates := s.alm.gates.set (fun _ => {}) r.key h }
  | 9 => { s with alm.pol := s.alm.pol.upd (fun _ => s.alm.blankPol) r.key fun x => { x with cfg := w0 } }
  | 10 => { s with voq.map := s.voq.map.set (fun _ => 0) r.key w0 }
  | 11 => { s with act.onus := s.act.onus.set (fun _ => {}) r.key (onuOf r.words) }
  | 12 =>
    let e : SnEntry := { vendor := w0, serial := w1, bind := r.words.getD 2 0 }
    { s with act.sn := s.act.sn.set (fun _ => {}) r.key e }
  | 13 => { s with rck.ctxs := s.rck.ctxs.upd (fun _ => {}) r.key fun x => { x with cfg0 := w0, cfg1 := w1, reseed := true } }
  | 14 => { s with xgm.binds := s.xgm.binds.set (fun _ => {}) r.key { cfg0 := w0, cfg1 := w1 } }
  | 15 => { s with xgm.dsq := s.xgm.dsq.set (fun _ => 0) r.key w0 }
  | 16 | 17 =>
    let x : Option KeySet :=
      if r.words.isEmpty then some {}
      else if !s.keysMatch then none
      else (s.sec.pairKey.bind fun p => Config.pairUnwrap p r.words).map keySetOf
    match x with
    | some ks =>
      if r.table = 16 then { s with xgm.keys := s.xgm.keys.set (fun _ => {}) r.key ks }
      else { s with xgm.bkeys := s.xgm.bkeys.set (fun _ => {}) r.key ks }
    | none => s
  | _ => s

/-- Records take effect in order. -/
def State.applyRecs (s : State) (l : List CopyRec) : State := (l.foldl State.applyRec s).ponFollowAll

/-- What a copy did to ONU contexts: one that leaves OPERATIONAL or LOST ends its key exchange, one that becomes FREE loses its keys and
open reassemblies (R174, R175). -/
def State.onusFollow (s : State) (old : SMap Onu) : State :=
  s.each (old.map Prod.fst) fun k s =>
    let o := old.get (fun _ => {}) k
    let x := s.act.onus.get (fun _ => {}) k
    let s1 := if o.active && !x.active then s.exchLeave (k / 1024) (k % 1024) else s
    if o.st != .free && x.st == .free then s1.keysFree (k / 1024) (k % 1024) else s1

/-- The copied tables are emptied before a new generation: what it does not list is absent. -/
def State.clearCopied (s : State) : State :=
  let s1 := s.each ((s.regs.filter fun e => copiedMask e.1 != 0).map Prod.fst) fun a s => s.applyRec ⟨0, a, []⟩
  { s1 with
    cmp.chart := [], sxt.em := [], sxt.lpm := [], sxt.lpmh := [], sxt.filters := [], sxt.direct := [],
    alm.nodes := s1.alm.nodes.mapVals (fun _ => s1.alm.blank) fun x => { x with cfg0 := 0, cfg1 := 0 },
    alm.prof := [], alm.entries := [], alm.gates := [],
    alm.pol := s1.alm.pol.mapVals (fun _ => s1.alm.blankPol) fun x => { x with cfg := 0 },
    voq.map := [], act.onus := [], act.sn := [], rck.ctxs := [], xgm.binds := [], xgm.dsq := [] }

end Sys2Proof.Machine
end

