-- ==== Sys2Proof/Machine/Lighthouse.lean ====
section
/-!
DEFINITION. Machine/Lighthouse.lean: heartbeats, the state copy, passive pre-ranging, the witness and the takeover (chapter 15).
-/
namespace Sys2Proof.Machine

/-! ### Fields (Tables 15.6 and 15.7) -/

/-- LHT_MISS. -/
def State.lhtMiss (s : State) : Nat := Nat.max 1 (s.fld Reg.lhtCtrl 11 8)

/-- LHT_EXPERT_EN. -/
def State.lhtExpert (s : State) : Bool := s.bit Reg.lhtCtrl 31

/-- WITNESS_FRAMES, PRE_COUNT, PRE_TOL_NS. -/
def State.witnessFrames (s : State) : Nat := if s.lhtExpert then Nat.max 1 (s.fld Reg.lhtExpCfg 31 24) else 16
def State.preCount (s : State) : Nat := if s.lhtExpert then Nat.max 1 (s.fld Reg.lhtExpCfg 23 16) else 16
def State.preTol (s : State) : Nat := if s.lhtExpert then s.fld Reg.lhtExpCfg 15 8 else 2

/-- MISS_COUNT. -/
def State.missCount (s : State) : Nat := s.fld Reg.lhtStatus 11 4

/-- Bits of LHT_STATUS. -/
def lhBit (name : String) : Nat :=
  match name with
  | "PATH_LH" => 30
  | "PATH_RHB" => 29
  | "ISOLATED" => 28
  | "WITNESS_ALIVE" => 27
  | "STALE" => 26
  | "PARTIAL_STALE" => 25
  | "DUAL_ACTIVE" => 24
  | "SNAP_VALID" => 23
  | _ => 0

/-- A bit of LHT_STATUS. -/
def State.lhStatus (s : State) (name : String) : Bool := s.bit Reg.lhtStatus (lhBit name)

/-- Set a bit of LHT_STATUS. -/
def State.setLh (s : State) (name : String) (b : Bool) : State := s.setBit Reg.lhtStatus (lhBit name) b

/-- The bulk sync or an increment may use a path that is up: LH_PEER before Rhumb (R315). -/
def State.anyPath (s : State) : Bool := s.pathUp 0 || s.pathUp 1

/-- State copy leaves toward the peer (R315, R316). -/
def State.copyOut (s : State) (kind seq : Nat) (recs : List CopyRec) : State :=
  s.sendCopy (.stateCopy kind seq recs) (Config.copyCells (kind, seq, recs))

/-! ### Takeover (R324, R325) -/

/-- The estimate of an ONU (R320): the mean of its last PRE_COUNT offsets, when all lie within PRE_TOL_NS of it. -/
def State.preEstimate (s : State) (l : List Int) : Option Int :=
  let c := s.preCount
  let xs := l.take c
  let sum := xs.sum
  if xs.length < c then none
  else if xs.all fun x => decide ((x * c - sum).natAbs ≤ s.preTol * 16 * c) then some ((2 * sum + c) / (2 * c : Nat)) else none

/-- The converged ONUs of a port with their estimates. -/
def State.converged (s : State) (n : Nat) : List (Nat × Int) :=
  s.lht.pre.filterMap fun e => if e.1 / 1024 = n then (s.preEstimate e.2).map fun x => (e.1 % 1024, x) else none

/-- The reference of a port: the lower median (R320). -/
def medianOf (l : List Int) : Int := (sortBy (fun a b => decide (a ≤ b)) l).getD ((l.length - 1) / 2) 0

/-- The converged ONUs of a port that are not DIVERGENT. -/
def State.agreeing (s : State) (n : Nat) : List (Nat × Int) :=
  let l := s.converged n
  let m := medianOf (l.map Prod.snd)
  l.filter fun e => decide ((e.2 - m).natAbs ≤ s.preTol * 16)

/-- The offset O of a port, in 1/16 ns, and whether the port has converged (R320). -/
def State.portOffset (s : State) (n : Nat) : Int × Bool :=
  let a := s.agreeing n
  let c := a.length
  (if c = 0 then 0 else (2 * (a.map Prod.snd).sum + c) / (2 * c : Nat), decide ((s.converged n).length < 2 * c))

/-- The active ONUs of a port. -/
def State.activeOnus (s : State) (n : Nat) : List Nat := (s.nonFree n).filter fun id => (s.onu n id).active

/-- The profile that ranges an ONU whose discovery this device has not seen. -/
def State.rangeProf (s : State) (n c : Nat) : Nat := if s.ponPers n = 4 ∧ c = 0 then 3 else 1

/-- An ONU enters the ranging order at a takeover; its apparent RTD follows from TEQ_NS as copied, its EqD and twice the port's
offset. -/
def State.reRange (s : State) (n teq : Nat) (o : Int) (acq : Bool) (id : Nat) : State :=
  let x := s.onu n id
  let m : Int := ((teq * 16 : Nat) : Int) - x.eqd + 2 * o
  (s.setOnu n id { x with misses := 0, m := m, prof := s.rangeProf n x.ch, acq := acq }).rangeReserve n id

/-- Steps 2 and 3 of Table 15.4 on a port. -/
def State.takePort (s : State) (n : Nat) : State :=
  let teq := s.teq n
  let q := s.portOffset n
  let ids := s.activeOnus n
  if q.2 then
    let ok := (s.agreeing n).map Prod.fst
    (s.moveTeq n (round16 (2 * q.1))).each (ids.filter fun id => !ok.contains id) fun id s => s.reRange n teq q.1 false id
  else s.each ids fun id s => s.reRange n teq 0 true id

/-- Every Alloc context is reseeded; shaper and policer buckets start as Table 03.12 states. -/
def State.takeBuckets (s : State) : State :=
  let l : SMap AllocCtx := s.rck.ctxs.map fun (e : Nat × AllocCtx) => (e.1, { e.2 with reseed := true })
  let s1 := { s with rck.ctxs := l }
  s1.resetNodes.resetPolicers

/-- With no committed snapshot every port is unconverged and every ONU FREE (R326). -/
def State.takeBlank (s : State) : State :=
  if s.lhStatus "SNAP_VALID" then s
  else ({ s with lht.pre := [] } : State).each ((s.act.onus.filter fun e => e.2.st != .free).map Prod.fst) fun k s =>
    s.onuFree (k / 1024) (k % 1024)

/-- A takeover (Table 15.4): 1 WITNESS, 2 YIELD, 3 HOST. -/
def State.takeover (s : State) (cause : Nat) : State :=
  let part := (s.lht.sync.map fun r => r.staging).getD false
  let s1 := if s.busy .bulkSync then s.opAbort .bulkSync 3 else s
  let s2 := { s1 with dev.tookAt := some s1.raw, lht.sync := none, lht.witAt := none, lht.peerMode := none,
                      rck.started := Nat.max s1.rck.started s1.chrono.ponSf }
  let s3 := ((if part then s2.setLh "PARTIAL_STALE" true else s2).setFld Reg.lhtStatus 19 16 cause).bump Reg.lhtTakeovers
  let s4 := ((s3.setMode .active 3 0).event (leafOf 17 6) 0).takeBlank
  let s5 := s4.each ((List.range 48).filter fun n => s4.ponPers n != 0) fun n s => s.takePort n
  (s5.takeBuckets.ponFollowAll).reqLost (cause != 3 && s.reqNow)

/-! ### The witness (R321, R322) -/

/-- The longest TEQ_NS among ports with a personality. -/
def State.teqMax (s : State) : Nat :=
  (((List.range 48).filter fun n => s.ponPers n != 0).map fun n => s.teq n).foldl Nat.max 0

/-- A window of WITNESS_FRAMES from frame `a` holds a consistent burst. -/
def State.witnessed (s : State) (a : Nat) : Bool :=
  s.lht.wit.any fun f => decide (a ≤ f) && decide (f < a + s.witnessFrames)

/-- The first frame of the baseline: its upstream frames ended before the first period of the miss run (R322). -/
def State.baseline (s : State) : Int :=
  let d : Int := (s.lht.missAt.toNat : Int) - s.chrono.psyncAt.toNat - ((s.teqMax + 125000) * nsUnit : Nat)
  (s.chrono.ponSf : Int) + d / (frameRaw : Int) + 1 - s.witnessFrames

/-- The witness starts (row 5 of Table 15.3): the baseline is judged, and the window opens at the first frame whose PSync lies at or
after now. -/
def State.witnessStart (s : State) : State :=
  let b := s.baseline
  let e := s.lht.wit.any fun f => decide (b ≤ (f : Int)) && decide ((f : Int) < b + s.witnessFrames)
  let f := s.chrono.ponSf + ceilDiv (s.raw.toNat - s.chrono.psyncAt.toNat) frameRaw
  { s.setBit Reg.lhtStatus 0 e with lht.witAt := some f }

/-- WITNESS_WINDOW_END (R321 rows 6 to 8, R322). -/
def State.witnessEnd (s : State) : State :=
  match s.lht.witAt with
  | none => s
  | some a =>
    let ends : Int := (s.chrono.psyncAt.toNat : Int) + ((a + s.witnessFrames : Nat) - (s.chrono.ponSf : Int)) * frameRaw +
      (s.teqMax * nsUnit : Nat)
    if !s.lhStandby || !s.bit Reg.lhtCtrl 1 || decide ((s.raw.toNat : Int) < ends) then s
    else
      let seen := s.witnessed a
      let s1 := { s with lht.witAt := none }
      if (!seen && !s.bit Reg.lhtStatus 0) || !s.bit Reg.lhtHealthLocal 31 then
        ((s1.setLh "WITNESS_ALIVE" false).setLh "ISOLATED" true).event (leafOf 17 4) 0
      else if seen then
        { (s1.setLh "WITNESS_ALIVE" true).setBit Reg.lhtStatus 0 true with lht.witAt := some (a + s.witnessFrames) }
      else s1.takeover 1

/-- WITNESS_WINDOW_END (R322). -/
def execWitnessWindowEnd (at' : Raw) (s : State) : Host.Outcome State Fault Refusal := .next (s.advance at').witnessEnd

/-! ### Heartbeat periods (R310, R312, R313, R316, R321) -/

/-- A path at the end of a period (R312). -/
def State.pathEnd (s : State) (p : Nat) : State :=
  let x := s.lhPath p
  let name := if p = 0 then "PATH_LH" else "PATH_RHB"
  if x.got then (s.setLhPath p { x with got := false, run := 0 }).setLh name true
  else
    let s1 := s.setLhPath p { x with run := x.run + 1 }
    if x.run + 1 = s.lhtMiss then (s1.setLh name false).event (leafOf 17 p) 0 else s1

/-- A heartbeat period in raw units (R310). -/
def hbRaw : Nat := 1000000 * nsUnit

/-- MISS_COUNT at the end of a period (R312). -/
def State.missEnd (s : State) (good : Bool) : State :=
  if good then s.setFld Reg.lhtStatus 11 4 0
  else
    let s1 := s.setFld Reg.lhtStatus 11 4 (Nat.min 255 (s.missCount + 1))
    if s.missCount = 0 then { s1 with lht.missAt := BitVec.ofNat 96 ((s.raw.toNat / hbRaw - 1) * hbRaw) } else s1

/-- The active device at the end of a period (R313, R327); `was` is MISS_COUNT before it. -/
def State.activeEnd (s : State) (was : Nat) : State :=
  let s1 := if was < s.lhtMiss ∧ s.lhtMiss ≤ s.missCount then s.event (leafOf 17 2) 0 else s
  if s.lhtMiss ≤ s.missCount then s1.wr Reg.lhtHealthPeer 0 else s1

/-- The standby's decision at the end of a period: rows 1 to 5 of Table 15.3. -/
def State.standbyEnd (s : State) (good : Bool) (was : Nat) : State :=
  if !s.bit Reg.lhtCtrl 1 then s
  else if s.lht.yielded then s.takeover 2
  else if good then { (s.setLh "ISOLATED" false).setLh "WITNESS_ALIVE" false with lht.witAt := none }
  else if was < s.lhtMiss ∧ s.lhtMiss ≤ s.missCount then s.witnessStart
  else s

/-- Held increments leave in order on the path that is up (R316). -/
def State.sendHeld (s : State) : State :=
  if s.anyPath then ({ s.lht.held.foldl (fun s e => s.copyOut 2 e.1 e.2) s with lht.held := [] } : State) else s

/-- The active device closes an increment (R316). -/
def State.closeInc (s : State) : State :=
  if s.lhActive && s.lht.flowing then
    let now := s.copied
    let q := s.lht.incSeq + 1
    ({ s.wrNat Reg.lhtIncSeq q with
       lht.incSeq := q, lht.held := s.lht.held ++ [(q, s.journalFrom s.lht.shadow now)], lht.shadow := now } : State).sendHeld
  else s

/-- Journal bytes (R315). -/
def journalMax : Nat := 64 * 2 ^ 20

/-- The journal has overflowed: a running sync fails; on the active this period's increment and those held are lost, so that the sequence
shows a gap; a standby becomes STALE (R315, R318). -/
def State.journalFull (s : State) : State :=
  let s1 := if s.busy .bulkSync then { (s.opIdle .bulkSync).opEnd .bulkSync (.failed 10) with lht.sync := none } else s
  if s1.lhStandby then s1.goStale
  else if s1.lht.flowing then
    let q := s1.lht.incSeq + 1
    { s1.wrNat Reg.lhtIncSeq q with lht.incSeq := q, lht.held := [], lht.shadow := s1.copied }
  else s1

/-- HEARTBEAT_PERIOD (R310): a period of the raw counter has ended and the next begins; `journal` is the bytes that wait in the journal.
Nothing happens before the next period begins. -/
def State.hbPeriod (s : State) (journal : Nat) : State :=
  let now := s.raw.toNat / hbRaw
  if now ≤ s.lht.period then s
  else if !s.lhActive && !s.lhStandby then { s with lht.period := now }
  else
    let s := { s with lht.period := now }
    let was := s.missCount
    let good := (s.lhPath 0).got || (s.lhPath 1).got
    let s1 := ((s.pathEnd 0).pathEnd 1).missEnd good
    let s2 := if s1.lhActive then s1.activeEnd was else s1.standbyEnd good was
    let s3 := { s2 with lht.yielded := false }
    let s4 := if s3.busy .bulkSync then s3.wrNat (Reg.lhtSyncOpPartial 1) journal else s3
    let s5 := if journalMax < journal then s4.journalFull else s4.closeInc
    s5.hbBoth

/-- HEARTBEAT_PERIOD (R310). -/
def execHeartbeatPeriod (at' : Raw) (journal : Nat) (s : State) : Host.Outcome State Fault Refusal :=
  .next ((s.advance at').hbPeriod journal)

/-! ### Bulk sync (R315) -/

/-- The active device begins the stream (steps 1 and 2). -/
def State.streamBegin (s : State) : State :=
  let now := s.copied
  ({ s with lht.sync := some { gen := s.lht.peerGen, base := now }, lht.shadow := if s.lht.flowing then s.lht.shadow else now } : State
    ).copyOut 0 0 now

/-- START on this device. -/
def State.syncStart (s : State) : State :=
  if !opAllowed .bulkSync s.dev.mode 0 0 then s.opRefuse .bulkSync 3
  else if !s.lhStatus "PATH_LH" && !s.lhStatus "PATH_RHB" then s.opRefuse .bulkSync 8
  else
    let s1 := s.opBegin .bulkSync
    if s1.serving then s1.streamBegin else { s1 with lht.sync := some { asked := true } }

/-- The peer has started the sync: this device enters BUSY, its stream or its staging begins. -/
def State.syncPeer (s : State) : State :=
  if !opAllowed .bulkSync s.dev.mode 0 0 || !s.lhtOn then s
  else
    let s1 := if s.busy .bulkSync then s else s.opBegin .bulkSync
    if s1.serving then (if s.busy .bulkSync then s else s1.streamBegin)
    else { s1 with lht.sync := some { staging := true } }

/-- A write of LHT_SYNC_OP_CTRL (R41). -/
def State.syncCtrlWrite (s : State) (v : Word) : State :=
  s.opCtrlWrite .bulkSync v State.syncStart fun s => s.opAbort .bulkSync 1

/-- BULK_SYNC_START (R315): START here, or on the peer. -/
def execBulkSyncStart (peer : Bool) (val : Word) (s : State) : Host.Outcome State Fault Refusal :=
  .next (if peer then s.syncPeer else s.syncCtrlWrite val)

/-- BULK_SYNC_ABORT (R315): ABORT here, or on the peer. -/
def execBulkSyncAbort (peer : Bool) (val : Word) (s : State) : Host.Outcome State Fault Refusal :=
  .next (if peer then (if s.busy .bulkSync then s.opAbort .bulkSync 1 else s) else s.syncCtrlWrite val)

/-- SYNC_STREAM_COMPLETE (R315 steps 2 and 3): KiB streamed or staged, the row of Table 15.2 and the journal bytes as the engine counts
them; the active sends the journal, the standby holds the stream in the slot without the committed generation. `kcv` is the other device's
KCV as the stream carries it, none while its pairing key is not VALID (R375): keys travel with the journal once it is known. -/
def State.streamEnd (s : State) (kib row journal : Nat) (recs : List CopyRec) (kcv : Option Word) : State :=
  if !s.busy .bulkSync then s
  else
    let s0 := (s.setProgress .bulkSync kib).wrNat (Reg.lhtSyncOpPartial 0) row
    let s1 := { s0.wrNat (Reg.lhtSyncOpPartial 1) journal with lht.peerKcv := kcv }
    if s1.serving then
      let now := s1.copied
      let base := (s1.lht.sync.map fun r => r.base).getD now
      ({ s1 with lht.shadow := if s1.lht.flowing then s1.lht.shadow else now } : State).copyOut 1 s1.lht.incSeq (s1.journalFrom base now)
    else ({ s1 with lht.slots := s1.lht.slots.set (fun _ => []) (1 - s1.lht.slot) recs } : State).memWrite 2

/-- SYNC_STREAM_COMPLETE (R315). -/
def execSyncStreamComplete (kib row journal : Nat) (recs : List CopyRec) (kcv : Option Word) (s : State) :
    Host.Outcome State Fault Refusal :=
  .next (s.streamEnd kib row journal recs kcv)

/-- The increments that follow `seq` without a gap: their records, and the last one's number (R316). -/
def incsFrom (l : List (Nat × List CopyRec)) : Nat → Nat → List CopyRec × Nat
  | 0, seq => ([], seq)
  | n + 1, seq =>
    match l.find? fun e => e.1 == seq + 1 with
    | some e => let r := incsFrom l n (seq + 1); (e.2 ++ r.1, r.2)
    | none => ([], seq)

/-- SNAPSHOT_COMMIT (R315 steps 3 to 5): the journal is applied to the slot, and the increments that have come after it; the standby flips
to it. `seq` is the increment that the journal ends with. -/
def State.snapCommit (s : State) (recs : List CopyRec) (seq : Nat) : State :=
  match s.lht.sync with
  | some r =>
    if !r.staging || !s.lhStandby then s
    else
      let slot := 1 - s.lht.slot
      let more := incsFrom r.since r.since.length seq
      let all := s.lht.slots.get (fun _ => []) slot ++ recs ++ more.1
      let s1 := (s.clearCopied.applyRecs all).onusFollow s.act.onus
      let s2 := { s1 with lht.slots := s1.lht.slots.set (fun _ => []) slot all, lht.slot := slot, lht.sync := none,
                          lht.incSeq := more.2, lht.keysIn := s.keysMatch }
      let s3 := ((s2.wr Reg.lhtSnapGen (s2.rd Reg.lhtSnapGen + 1)).wrNat Reg.lhtIncSeq more.2).setLh "SNAP_VALID" true
      ((s3.setLh "STALE" false).setLh "PARTIAL_STALE" false).opEnd .bulkSync .done
  | none => s

/-- SNAPSHOT_COMMIT (R315). -/
def execSnapshotCommit (recs : List CopyRec) (seq : Nat) (s : State) : Host.Outcome State Fault Refusal :=
  .next (s.snapCommit recs seq)

/-- SNAPSHOT_SLOT_FULL (R315). -/
def execSnapshotSlotFull (s : State) : Host.Outcome State Fault Refusal :=
  .next (if s.busy .bulkSync then { (s.opIdle .bulkSync).opEnd .bulkSync (.failed 9) with lht.sync := none } else s)

/-- While a slot is staged, what comes after the journal waits for the commit (R315, R316). -/
def State.incKeep (s : State) (seq : Nat) (recs : List CopyRec) : State :=
  { s with lht.sync := s.lht.sync.map fun r => if r.staging then { r with since := r.since ++ [(seq, recs)] } else r }

/-- INCREMENT_APPLY (R316, R318): the next increment is applied whole; a later one shows what is missing. -/
def State.incTake (s : State) (seq : Nat) (recs : List CopyRec) : State :=
  if !s.lhStandby || !s.lhStatus "SNAP_VALID" || s.lhStatus "STALE" || decide (seq ≤ s.lht.incSeq) then s
  else if seq = s.lht.incSeq + 1 then
    { ((s.applyRecs recs).onusFollow s.act.onus).wrNat Reg.lhtIncSeq seq with lht.incSeq := seq }
  else (s.bumpBy Reg.lhtIncGap (seq - s.lht.incSeq - 1)).goStale

/-- INCREMENT_APPLY (R316). -/
def execIncrementApply (seq : Nat) (recs : List CopyRec) (s : State) : Host.Outcome State Fault Refusal :=
  .next ((s.incKeep seq recs).incTake seq recs)

/-! ### Heartbeats received (R311, R313, R315) -/

/-- A heartbeat as its bytes give it (Table 15.1). -/
structure Hb where
  pair : Nat
  mode : Nat
  syncReq : Bool
  session : Nat
  seq : Nat
  gen : Nat
  health : Word
deriving DecidableEq, Repr

/-- Bytes `o` to `o + n − 1` as a number. -/
def leAt (bs : List Byte) (o n : Nat) : Nat := ofLe ((bs.drop o).take n)

/-- The heartbeat that 64 bytes spell; none when CHECK fails. -/
def hbOf (bs : List Byte) : Option Hb :=
  if 64 ≤ bs.length ∧ leAt bs 60 4 = crc32c 0xFFFFFFFF (bs.take 60) then
    some ⟨leAt bs 0 4, leAt bs 4 1 % 8, decide (128 ≤ leAt bs 4 1), leAt bs 6 2, leAt bs 8 8, leAt bs 24 4,
      BitVec.ofNat 32 (leAt bs 28 4)⟩
  else none

/-- A heartbeat on a path is valid (R311). -/
def State.hbValid (s : State) (rhb : Bool) (src : Nat) (h : Hb) : Bool :=
  let fresh := match (s.lhPath (ofBool rhb)).ref with
    | some r => r.1 != h.session || decide (r.2 < h.seq)
    | none => true
  h.pair == (s.rd Reg.lhtPairId).toNat && fresh && (!rhb || src == s.peerDev)

/-- What a valid heartbeat changes on the active device (R313, R315, R327). -/
def State.hbActive (s : State) (h : Hb) : State :=
  let dual := h.mode == 2 || h.mode == 4
  let s1 := s.setLh "DUAL_ACTIVE" dual
  let s2 := (if dual then s1.event (leafOf 17 3) 0 else s1).wr Reg.lhtHealthPeer h.health
  match s2.lht.sync with
  | some r =>
    if s2.busy .bulkSync && h.gen != r.gen then
      { (s2.opIdle .bulkSync).opEnd .bulkSync .done with lht.flowing := true, lht.sync := none }
    else s2
  | none => if h.syncReq && !s2.busy .bulkSync then s2.syncStart else s2

/-- What a valid heartbeat changes on the standby (R318, R321 row 2). -/
def State.hbStandby (s : State) (h : Hb) : State :=
  let s1 := s.setLh "DUAL_ACTIVE" false
  let y := h.mode == 3 && (s.lht.peerMode == some 2 || s.lht.peerMode == some 4)
  let s2 := { s1 with lht.yielded := s1.lht.yielded || y }
  if s.lht.peerSession.isSome && s.lht.peerSession != some h.session then s2.goStale else s2

/-- HEARTBEAT_RECEIVE (R311). -/
def State.hbReceive (s : State) (rhb : Bool) (src : Nat) (bs : List Byte) : State :=
  if !s.lhActive && !s.lhStandby then s
  else
    match hbOf bs with
    | none => s.bump Reg.lhtHbBad
    | some h =>
      if !s.hbValid rhb src h then s.bump Reg.lhtHbBad
      else
        let p := ofBool rhb
        let s1 := (s.setLhPath p { s.lhPath p with got := true, ref := some (h.session, h.seq) }).bump
          (if rhb then Reg.lhtHbRxRhb else Reg.lhtHbRxLh)
        let s2 := if s1.lhActive then s1.hbActive h else s1.hbStandby h
        { s2 with lht.peerMode := some h.mode, lht.peerSession := some h.session, lht.peerGen := h.gen }

/-- HEARTBEAT_RECEIVE (R311). -/
def execHeartbeatReceive (rhb : Bool) (src : Fin 1024) (bytes : List Byte) (s : State) :
    Host.Outcome State Fault Refusal :=
  .next (s.hbReceive rhb src.val bytes)

/-- LH_PEER_LINK_LOSS (R309). -/
def execLhPeerLinkLoss (s : State) : Host.Outcome State Fault Refusal := .next (s.setBit Reg.lhtStatus 31 false)

/-- LH_PEER_LINK_RETURN (R309, R316). -/
def execLhPeerLinkReturn (s : State) : Host.Outcome State Fault Refusal :=
  .next (let s1 := s.setBit Reg.lhtStatus 31 true; if s1.lhActive then s1.sendHeld else s1)

/-! ### Passive pre-ranging (R319, R320) -/

/-- Map copies of a channel, newest first. -/
def State.guides (s : State) (j : Nat) : List PonMap := s.lht.guides.get (fun _ => []) j

/-- MAP_COPY_RECEIVE (R319): a copy that comes at or after PSync of its frame is late. -/
def State.mapCopy (s : State) (j f : Nat) (bs : List Burst) : State :=
  if !s.lhStandby then s
  else if f ≤ s.chrono.ponSf then s.bump Reg.lhtMapLate
  else
    let n := j / 2
    let m : PonMap :=
      { f := f, bursts := bs.map (fun b => { b with st := .waiting, tried := none }), done := true, taken := true, teq := s.teq n }
    let s1 := { s with lht.guides := s.lht.guides.set (fun _ => []) j ((m :: s.guides j).take mapsKept) }
    if bs.any fun b => b.kind == .data && (s1.onu n b.onu).st == .operational then
      { s1 with lht.granted := s1.lht.granted.set (fun _ => false) n true }
    else s1

/-- MAP_COPY_RECEIVE (R319). -/
def execMapCopyReceive (j : Fin 96) (f : Nat) (bursts : List Burst) (s : State) : Host.Outcome State Fault Refusal :=
  .next (s.mapCopy j.val f bursts)

/-- LHT_PRE_PORT[n] follows the estimates (R320, Table 15.10). -/
def State.preFollow (s : State) (n : Nat) : State :=
  let q := s.portOffset n
  let a := s.agreeing n
  let other := ((s.activeOnus n).filter fun id => !(a.any fun e => e.1 == id)).length
  (s.wrNat (Reg.lhtPrePortW0 n) (unsign 24 q.1)).wrNat (Reg.lhtPrePortW1 n)
    (ofBool q.2 * 2 ^ 31 + Nat.min 1023 a.length * 2 ^ 16 + Nat.min 1023 other)

/-- An offset of an ONU (R320). -/
def State.preNote (s : State) (n id : Nat) (o : Int) : State :=
  let k := n * 1024 + id
  ({ s with lht.pre := s.lht.pre.set (fun _ => []) k ((o :: s.lht.pre.get (fun _ => []) k).take 255) } : State).preFollow n

/-- A consistent burst counts for the witness (R322). -/
def State.witness (s : State) (n id f : Nat) : State :=
  if (s.onu n id).active then
    { s with lht.wit := f :: s.lht.wit.filter fun g => g != f && decide (f < g + 2048) }
  else s

/-- The offset of a candidate from the predicted header start, in 1/16 ns (R320). -/
def State.preOffset (s : State) (j : Nat) (m : PonMap) (b : Burst) (k : Cand) : Int :=
  let p := s.prof (j / 2) b.prof
  let hdr : Int := ((s.boundaryRaw (j / 2) true k.cap k.latency).toNat : Int) - m.psync.toNat +
    (8 * p.delim * frameRaw / p.bits : Nat)
  let want : Nat := m.teq * nsUnit + b.start * frameRaw / frameUnits (j % 2)
  (hdr - want) / 4096

/-- The search of a map-guided burst covers an offset: ACQ_US around the port's estimate until the port converges, then WIN
(R319). -/
def State.preWindow (s : State) (n : Nat) (b : Burst) (o : Int) : Bool :=
  let centre := signed 24 (s.fld (Reg.lhtPrePortW0 n) 23 0)
  let half := if s.bit (Reg.lhtPrePortW1 n) 31 then s.winBits n * 2000000 / (s.prof n b.prof).bits else s.acqUs * 16000
  decide ((o - centre).natAbs ≤ half)

/-- A candidate of a frame without a map copy: any profile of the channel's line rate, over the whole frame, in ascending order; after a
header that passes the search goes on past its burst (R114, R319). -/
def State.freeCandidate (s : State) (j f : Nat) (k : Cand) : State :=
  let n := j / 2
  let at' : Int := (s.boundaryRaw n true k.cap k.latency).toNat
  let x := s.lht.search.get (fun _ => (0, -1)) j
  if x.1 = f ∧ at' ≤ x.2 then s
  else
    let tried (t : Int) (s : State) : State := { s with lht.search := s.lht.search.set (fun _ => (0, -1)) j (f, t) }
    match (List.range 4).find? fun q =>
        ((s.prof n q).rate == 3) == (j % 2 == 1) && decide (k.dist (s.prof n q) ≤ s.tolBits n) with
    | none => tried at' s
    | some q =>
      if !k.hec then tried at' (s.bump (Reg.ponDelimFalse n (j % 2)))
      else
        let p := s.prof n q
        let len : Nat := (8 * p.delim + discBits (j % 2) p) * frameRaw / p.bits
        tried (at' + len) (s.witness n k.onu f)

/-- A candidate on the standby (R319, R320): guided by a map copy, or found without one, for the witness only. -/
def State.preCandidate (s : State) (j f i : Nat) (k : Cand) : State :=
  let n := j / 2
  match (s.guides j).find? fun m => m.f == f && m.sent with
  | none => s.freeCandidate j f k
  | some m =>
    match m.bursts[i]? with
    | none => s
    | some b =>
      let o := s.preOffset j m b k
      if b.kind ≠ .data ∨ b.st ≠ .waiting ∨ !s.preWindow n b o ∨ !laterThan b o then s
      else
        let put (b' : Burst) : State :=
          let mark (x : PonMap) : PonMap := if x.f = f then { x with bursts := setAt x.bursts i b' } else x
          { s with lht.guides := s.lht.guides.set (fun _ => []) j ((s.guides j).map mark) }
        let s1 := put { b with tried := some o }
        if s.tolBits n < k.dist (s.prof n b.prof) then s1
        else if !k.hec ∨ k.onu ≠ b.onu then s1.bump (Reg.ponDelimFalse n (j % 2))
        else
          let s2 := put { b with tried := some o, st := .confirmed }
          let s3 := { s2 with lht.heardPorts := s2.lht.heardPorts.set (fun _ => false) n true }
          ((s3.bump (Reg.ponBurstOk n (j % 2))).preNote n b.onu o).witness n b.onu f

/-- BURST_CANDIDATE (R112, R113; on a standby R319). -/
def execBurstCandidate (j : Fin 96) (f i : Nat) (rx : BitVec 64) (hec : Bool) (onu : Fin 1024) (cap : Raw) (latency : Nat)
    (s : State) : Host.Outcome State Fault Refusal :=
  .next (if s.dev.mode = .standby then s.preCandidate j.val f i ⟨rx, hec, onu.val, cap, latency⟩
    else s.candidate j.val f i ⟨rx, hec, onu.val, cap, latency⟩)

/-! ### Health (R327) -/

/-- HEALTH_EVALUATION (R327): once in a second of the raw counter. -/
def State.healthEval (s : State) : State :=
  let now := s.raw.toNat / (1000 * hbRaw)
  if now ≤ s.lht.second then s
  else if !s.lhStandby then { s with lht.second := now }
  else
    let s := { s with lht.second := now }
    let snap := s.lhStatus "SNAP_VALID" && !s.lhStatus "STALE"
    let keys := s.lht.keysIn && s.keysMatch
    let mem := !s.lht.memErr
    let rails := s.pwr.phase == .up && !s.pwr.removeDue
    let rx := s.lht.granted.all fun e => !e.2 || s.lht.heardPorts.get (fun _ => false) e.1
    let ok := snap && rx && mem && rails
    let ports := ((List.range 48).filter fun n => s.bit (Reg.lhtPrePortW1 n) 31).length
    let others := ((List.range 48).map fun n => s.fld (Reg.lhtPrePortW1 n) 9 0).sum
    let w := ofBool ok * 2 ^ 31 + ofBool snap * 2 ^ 30 + ofBool keys * 2 ^ 29 + ofBool mem * 2 ^ 28 + ofBool rails * 2 ^ 27 +
      ofBool rx * 2 ^ 26 + ports * 2 ^ 16 + Nat.min 65535 others
    let s1 := { s.wrNat Reg.lhtHealthLocal w with lht.granted := [], lht.heardPorts := [], lht.memErr := false }
    if s.bit Reg.lhtHealthLocal 31 = ok then s1 else s1.event (leafOf 17 5) 0

/-- HEALTH_EVALUATION (R327). -/
def execHealthEvaluation (at' : Raw) (s : State) : Host.Outcome State Fault Refusal := .next (s.advance at').healthEval

/-! ### Resets (R63, R311, R318) -/

/-- Heartbeat and sync state start again; committed snapshots stay (Tables 03.8 and 03.11). -/
def State.lhtClear (s : State) : State :=
  let keep := s.rd Reg.lhtStatus &&& 0x868F0000
  let s1 := { s.wr Reg.lhtStatus keep with
    lht.paths := [], lht.peerMode := none, lht.yielded := false, lht.peerSession := none, lht.peerGen := 0,
    lht.incSeq := 0, lht.flowing := false, lht.sync := none, lht.shadow := [], lht.held := [], lht.witAt := none,
    lht.wit := [], lht.search := [] }
  let s2 := (s1.wr Reg.lhtIncSeq 0).newSession
  if s2.dev.mode == .standby then s2.goStale else s2

end Sys2Proof.Machine
end

