-- ==== Sys2Proof/Machine/Rhumb.lean ====
section
/-!
DEFINITION. Machine/Rhumb.lean: the receive side of Rhumb (chapter 13): lanes, delineation, receive checks, resequencing,
reassembly, credit cells, reach and drains.
-/
namespace Sys2Proof.Machine

/-! ### Lanes (R276 to R281) -/

/-- After a change of lane `l`, its group is refreshed. -/
def State.laneChanged (s : State) (l : Nat) : State :=
  match s.laneGroup l with
  | some g => s.grpRefresh g
  | none => s

/-- CELL_STATE of a lane. -/
def State.setCellState (s : State) (l st run : Nat) : State :=
  (s.setFld (Reg.rhbLaneStatus l) 31 30 st).setLane l { s.lane l with run := run }

/-- Data bits of a codeword of RS(544,514) over 10-bit symbols (R276). -/
def cwBits : Nat := 5140

/-- What `n` bits of a lane's stream bring: the lane after them, symbols corrected, uncorrectable codewords, and whether any of the
bits lies in one (R276). `cws` names the codewords that begin among the bits, in order: symbols corrected, and whether uncorrectable. -/
def Lane.pass : Nat → Lane → Nat → List (Nat × Bool) → Lane × Nat × Nat × Bool
  | 0, x, _, _ => (x, 0, 0, false)
  | fuel + 1, x, n, cws =>
    if n = 0 then (x, 0, 0, false)
    else if x.left = 0 then
      let w := cws.headD (0, false)
      let y := { x with left := cwBits, bad := w.2, badRun := if w.2 then x.badRun + 1 else 0 }
      let r := Lane.pass fuel y n cws.tail
      (r.1, r.2.1 + (if w.2 then 0 else w.1), r.2.2.1 + ofBool w.2, r.2.2.2)
    else
      let k := min n x.left
      let r := Lane.pass fuel { x with left := x.left - k } (n - k) cws
      (r.1, r.2.1, r.2.2.1, x.bad || r.2.2.2)

/-- FEC_LOCK_GAIN (R276, R278): a codeword begins; lanes are off in LOAD. -/
def State.fecGain (s : State) (l : Nat) : State :=
  if s.dev.mode = .load then s
  else
    let s1 := s.setLane l { s.lane l with left := 0, bad := false, badRun := 0, since := 0, descr := 0 }
    (((s1.setBit (Reg.rhbLaneStatus l) 29 true).setFld (Reg.rhbLaneStatus l) 3 0 ((s1.laneGroup l).getD 0)).setCellState l 0 0
      ).laneChanged l

/-- FEC_LOCK_GAIN (R276). -/
def execFecLockGain (l : Fin 64) (s : State) : Host.Outcome State Fault Refusal := .next (s.fecGain l.val)

/-- Marker lock is lost: HUNT at once (R277, R278). -/
def State.markerLoss (s : State) (l : Nat) : State :=
  let s1 := s.setLane l { s.lane l with missed := 0, fifo := [], era := none }
  ((s1.setBit (Reg.rhbLaneStatus l) 28 false).setCellState l 0 0).laneChanged l

/-- MARKER_LOCK_LOSS (R277): the expected positions that were not reported as missed held no valid marker either. -/
def execMarkerLockLoss (l : Fin 64) (s : State) : Host.Outcome State Fault Refusal := .next (s.markerLoss l.val)

/-- FEC lock is lost: marker lock and the polarity correction go with it (R276, R277). -/
def State.fecDrop (s : State) (l : Nat) : State :=
  let s1 := s.setLane l { s.lane l with badRun := 0, bad := false, left := 0 }
  ((s1.setBit (Reg.rhbLaneStatus l) 29 false).setBit (Reg.rhbLaneStatus l) 27 false).markerLoss l

/-- Consecutive uncorrectable codewords that lose FEC lock (R276). -/
def fecLossRun : Nat := 8

/-- FEC_LOCK_LOSS (R276): the rest of 8 consecutive codewords, of which no cell and no marker told, is uncorrectable and counted. -/
def State.fecLoss (s : State) (l : Nat) : State :=
  (if s.bit (Reg.rhbLaneStatus l) 29 then s.bumpBy (Reg.rhbLaneFecUncorr l) (fecLossRun - (s.lane l).badRun) else s).fecDrop l

/-- FEC_LOCK_LOSS (R276). -/
def execFecLockLoss (l : Fin 64) (s : State) : Host.Outcome State Fault Refusal := .next (s.fecLoss l.val)

/-- `n` bytes pass the decoder of lane `l` (R276): symbols and codewords are counted, and the eighth uncorrectable codeword in a row
loses FEC lock. The flag says that a byte lies in an uncorrectable codeword. -/
def State.streamIn (s : State) (l n : Nat) (cws : List (Nat × Bool)) : Bool × State :=
  let r := Lane.pass (2 * (8 * n / cwBits + 2)) (s.lane l) (8 * n) cws
  let s1 := (((s.setLane l { r.1 with since := r.1.since + n }).bumpBy (Reg.rhbLaneFecCorr l) r.2.1).bumpBy
    (Reg.rhbLaneFecUncorr l) r.2.2.1)
  (r.2.2.2, if fecLossRun ≤ r.1.badRun then s1.fecDrop l else s1)

/-- An earlier-locked lane of the group holds a logical number (R280). -/
def State.logicalHeld (s : State) (g l n : Nat) : Bool :=
  (List.range (s.grpCount g)).any fun i =>
    let k := s.grpFirst g + i
    k != l && s.bit (Reg.rhbLaneStatus k) 28 && !s.bit (Reg.rhbLaneStatus k) 26 && s.fld (Reg.rhbLaneStatus k) 20 16 == n

/-! ### Reassembly (R292, R293) -/

/-- Reassembly context: (source, group), or 16,384 + source for sprayed cells. -/
def State.reasmCtx (s : State) (k : Nat) : Reasm := s.rhb.reasm.get (fun _ => {}) k

/-- Replace a reassembly context. -/
def State.setReasm (s : State) (k : Nat) (x : Reasm) : State :=
  { s with rhb.reasm := s.rhb.reasm.set (fun _ => {}) k x }

/-- The fabric receive writer of a context. The manual names four and not which of them writes a frame: DESIGN CHOICE, log 117. -/
def rxWriter (k : Nat) : Nat := 9 + k % 4

/-- The block of a network port that a device port names (R292: staged as its cells arrive). -/
def netBlock (port : Nat) : Option Nat := if 48 ≤ port ∧ port < 72 then some (port - 48) else none

/-- The frame that a context has received so far, by its first cell and its bytes from the descriptor on (Table 13.3). A frame started by
cut-through whose bytes end in a wrong FCS keeps its mark (R246). -/
def reasmFrame (k : Nat) (c : Cell) (bs : List Byte) (whole : Bool) : Stored :=
  let d := ofBe (bs.take 8)
  let body := bs.drop 8
  let ct := d / 2 ^ 28 % 2 == 1
  { frame := { bytes := body, bad := whole && ct && !fcsOk body }, len := d / 2 ^ 31 % 2 ^ 14, dev := c.dest, port := c.port, cls := c.cls,
    colour := d / 2 ^ 29 % 4, eq := d / 2 ^ 45, ct := ct, copy := d / 2 ^ 27 % 2 == 1,
    ts := if d / 2 ^ 26 % 2 = 1 then some (d / 2 ^ 23 % 8, d / 2 ^ 7 % 2 ^ 16) else none, src := c.src,
    puntHdr := c.port == 72, part := if whole then none else some k }

/-- Discard a partial frame: counted, its cells returned, and what staging holds of it dropped (R251, R292). One that a writer has
abandoned was counted there (R234). Its bytes were charged to its VOQ as they came (R293). -/
def State.reasmDrop (s : State) (k : Nat) : State :=
  let x := s.reasmCtx k
  match x.first with
  | some c =>
    let s1 := (s.setReasm k { x with first := none, bytes := [], cells := [], lost := false }).freeChain x.cells
    if x.lost then s1
    else
      (match netBlock c.port with
        | some i => s1.partDrop i k
        | none => s1).bump Reg.rhbReasmDrop
  | none => s

/-- The bytes that a context holds take cells of the pool, toward a PON port (R251, R234), or enter staging, toward a network port
(R292). -/
def State.reasmTake (s : State) (k : Nat) (c : Cell) : State :=
  let x := s.reasmCtx k
  let head := x.first.getD c
  if x.lost then s
  else if head.port < 48 then
    let need := cellsOf (x.bytes.length - 8) - x.cells.length
    if need = 0 then s
    else
      let q := s.writeChain (rxWriter k) (256 * need)
      match q.1 with
      | some cs => q.2.setReasm k { x with cells := x.cells ++ cs }
      | none => (q.2.freeChain x.cells).setReasm k { x with cells := [], lost := true }
  else
    match netBlock head.port with
    | some i =>
      if c.first then s.stage (reasmFrame k head x.bytes false)
      else (s.txDry i).partUpd i k fun _ => reasmFrame k head x.bytes false
    | none => s

/-- A complete frame is delivered by DEST_PORT; one whose byte count differs from FRAME_LEN, or whose port is reserved, is discarded
(R292). -/
def State.reasmEnd (s : State) (k : Nat) : State :=
  let x := s.reasmCtx k
  match x.first with
  | some c =>
    let f := reasmFrame k c x.bytes true
    let s1 := s.setReasm k { x with first := none, bytes := [], cells := [], lost := false }
    if x.lost then s1
    else if f.frame.bytes.length ≠ f.len ∨ 75 ≤ c.port then s.reasmDrop k
    else if c.port < 48 then s1.subEnqueue { f with cells := x.cells }
    else
      match netBlock c.port with
      | some i => s1.partEnd i k f
      | none => s1.stage f
  | none => s

/-- A data cell enters its reassembly context (R292); its frame bytes are charged to its VOQ as they arrive (R257, R293). -/
def State.reasmIn (s : State) (k : Nat) (c : Cell) : State :=
  let x := s.reasmCtx k
  let s0 := s.charged c.port c.cls c.src (c.payload.length - if c.first then 8 else 0)
  let gap := match x.expect with
    | some e => e != c.seq
    | none => false
  let s1 := if gap then (s0.reasmDrop k).bump Reg.rhbSeqGap else s0
  let s2 := if c.first then s1.reasmDrop k else s1
  let y := { s2.reasmCtx k with expect := some ((c.seq + 1) % 65536), lastAt := s.raw }
  if !c.first && y.first.isNone then s2.setReasm k y
  else
    let s3 := (s2.setReasm k { y with first := some (y.first.getD c), bytes := y.bytes ++ c.payload }).reasmTake k c
    if c.last then s3.reasmEnd k else s3

/-- FABRIC_REASM_TIMEOUT (R292): REASM_US without a further cell. -/
def State.reasmTimeout (s : State) (k : Nat) : State :=
  let x := s.reasmCtx k
  if x.first.isSome ∧ s.reached (x.lastAt + BitVec.ofNat 96 (s.reasmUs * usRaw)) then s.reasmDrop k else s

/-- FABRIC_REASM_TIMEOUT (R292). -/
def execFabricReasmTimeout (ctx : Fin 17408) (at' : Raw) (s : State) : Host.Outcome State Fault Refusal :=
  .next ((s.advance at').reasmTimeout ctx.val)

/-! ### Resequencing (R288) -/

/-- The resequencing context of a source. -/
def State.reseqCtx (s : State) (src : Nat) : Reseq := s.rhb.reseq.get (fun _ => {}) src

/-- Replace a resequencing context. -/
def State.setReseq (s : State) (src : Nat) (x : Reseq) : State :=
  { s with rhb.reseq := s.rhb.reseq.set (fun _ => {}) src x }

/-- Cells of the shared store in use. -/
def State.reseqUsed (s : State) : Nat := (s.rhb.reseq.map fun e => e.2.held.length).sum

/-- Distance of a SEQ past another, modulo 2^16. -/
def seqDist (a b : Nat) : Nat := (b + 65536 - a % 65536) % 65536

/-- Release held cells that follow the expected value without a gap. -/
def State.reseqRun (s : State) (src : Nat) : Nat → State
  | 0 => s
  | n + 1 =>
    let x := s.reseqCtx src
    match x.expect with
    | none => s
    | some e =>
      match x.held.find? fun h => h.1.seq == e with
      | some h =>
        ((s.setReseq src { x with expect := some ((e + 1) % 65536), held := x.held.erase h }).reasmIn (16384 + src) h.1).reseqRun
          src n
      | none => s

/-- The held SEQ nearest past `from'`. -/
def lowestHeld (from' : Nat) (l : List (Cell × Raw)) : Option Nat :=
  l.foldl (fun b h => match b with
    | some q => if seqDist from' h.1.seq < seqDist from' q then some h.1.seq else b
    | none => some h.1.seq) none

/-- The context skips to its lowest held SEQ, counting the positions skipped (R288). -/
def State.reseqSkip (s : State) (src : Nat) : State :=
  let x := s.reseqCtx src
  match x.expect with
  | some e =>
    match lowestHeld e x.held with
    | some q =>
      ((s.bumpBy Reg.rhbReseqLoss (seqDist e q)).setReseq src { x with expect := some q }).reseqRun src x.held.length
    | none => s
  | none =>
    match x.held.head? with
    | some h =>
      match lowestHeld ((h.1.seq + 32768) % 65536) x.held with
      | some q => (s.setReseq src { x with expect := some q }).reseqRun src x.held.length
      | none => s
    | none => s

/-- A sprayed cell arrives (R288). -/
def State.reseqIn (s : State) (c : Cell) : State :=
  let x := { s.reseqCtx c.src with lastAt := s.raw }
  let hold (s : State) : State :=
    let s1 := s.setReseq c.src { x with held := x.held ++ [(c, s.raw)] }
    if 32768 ≤ s1.reseqUsed then s1.reseqSkip c.src else s1
  match x.expect with
  | none => hold s
  | some e =>
    let d := seqDist e c.seq
    if d = 0 then
      ((s.setReseq c.src { x with expect := some ((e + 1) % 65536) }).reasmIn (16384 + c.src) c).reseqRun c.src x.held.length
    else if d < 4096 then hold s
    else (s.setReseq c.src x).bump Reg.rhbReseqDiscard

/-- RESEQ_TIMEOUT (R288): the oldest held cell has waited RESEQ_US, or none is held and none has come for RESEQ_US. -/
def State.reseqTimeout (s : State) (src : Nat) : State :=
  let x := s.reseqCtx src
  let us := BitVec.ofNat 96 (s.reseqUs * usRaw)
  match x.held with
  | h :: _ => if s.reached (h.2 + us) then s.reseqSkip src else s
  | [] => if s.reached (x.lastAt + us) then s.setReseq src { x with expect := none } else s

/-- RESEQ_TIMEOUT (R288). -/
def execReseqTimeout (src : Fin 1024) (at' : Raw) (s : State) : Host.Outcome State Fault Refusal :=
  .next ((s.advance at').reseqTimeout src.val)

/-! ### Credit cells (R290) -/

/-- A credit slot read back (Table 13.7). -/
def slotMsg (b : List Byte) : Option CreditMsg :=
  let id := ofBe ((b.drop 1).take 3)
  let src := ofBe ((b.drop 4).take 2) / 64
  let v := ofBe ((b.drop 8).take 4)
  let r : Word := BitVec.ofNat 32 (ofBe ((b.drop 12).take 4))
  let dev := id / 2 ^ 14
  let port := id / 2 ^ 7 % 128
  let cls := id / 16 % 8
  match ofBe (b.take 1) with
  | 1 => some (.statusOn dev port cls src (v % 2 ^ 24) r)
  | 2 => some (.statusOff dev port cls src v r)
  | 3 => some (.credit dev port cls src v)
  | 4 => some (.portState dev port (v % 4))
  | _ => none

/-- The device a message is for: the destination of a status, the source of the VOQ that a CREDIT serves; PORT_STATE is for
every device (R290). -/
def msgDest (own : Nat) : CreditMsg → Nat
  | .statusOn dev _ _ _ _ _ => dev
  | .statusOff dev _ _ _ _ _ => dev
  | .credit _ _ _ src _ => src
  | .portState _ _ _ => own

/-- A message takes effect (R243, R247, R258). -/
def State.creditMsg (s : State) (m : CreditMsg) : State :=
  if msgDest s.devId m ≠ s.devId then s.bump Reg.rhbMisroute
  else
    match m with
    | .statusOn _ port cls src _ r => s.schedStatus port cls src true 0 r
    | .statusOff _ port cls src ret r => s.schedStatus port cls src false ret r
    | .credit dev port cls _ bytes => s.creditIn dev port cls bytes
    | .portState dev port st => s.portStateIn dev port st

/-- The slots of a CREDIT cell, up to the first with TYPE 0 or slot 15. -/
def State.creditSlots (s : State) (bs : List Byte) : Nat → State
  | 0 => s
  | n + 1 =>
    if ofBe (bs.take 1) = 0 then s
    else
      (match slotMsg (bs.take 16) with
        | some m => s.creditMsg m
        | none => s).creditSlots (bs.drop 16) n

/-! ### Receive checks (R291) -/

/-- A 256-byte cell read by its header (Table 13.1). -/
def parseCell (bs : List Byte) : Cell :=
  let h := ofBe (bs.take 14)
  { label := h / 2 ^ 104, dest := h / 2 ^ 94 % 1024, port := h / 2 ^ 87 % 128, cls := h / 2 ^ 84 % 8,
    src := h / 2 ^ 74 % 1024, grp := h / 2 ^ 70 % 16, first := h / 2 ^ 69 % 2 == 1, last := h / 2 ^ 68 % 2 == 1,
    spray := h / 2 ^ 67 % 2 == 1, seq := h / 2 ^ 43 % 65536,
    payload := (bs.drop 16).take (h / 2 ^ 59 % 256) }

/-- A cell whose header passed goes through orders 2 to 8 of Table 13.8. Other labels pass to their owning blocks, whose own
commands carry what they hold. -/
def State.cellIn (s : State) (g : Nat) (c : Cell) : State :=
  if 8 ≤ c.label then s.bump Reg.rhbLabelBad
  else if c.label = lblIdle then s
  else if c.dest ≠ s.devId ∨ (c.src = s.devId ∧ !s.loopback g) then s.bump Reg.rhbMisroute
  else if !rxLabel s.dev.mode c.label then s.bump Reg.rhbModeDrop
  else if c.label = lblUc ∨ c.label = lblMc then
    if c.spray then s.reseqIn c else s.reasmIn (c.src * 16 + c.grp) c
  else if c.label = lblCredit then s.creditSlots c.payload 15
  else s

/-! ### The order of a group (R282) -/

/-- The lane of a group that a stripe position falls on: the one of that logical number in use. -/
def State.stripeLane (s : State) (g n : Nat) : Option Nat :=
  ((List.range (s.grpCount g)).map fun i => s.grpFirst g + i).find? fun l =>
    let r := s.rd (Reg.rhbLaneStatus l)
    Machine.fld r 20 16 == n && Machine.fld r 31 30 == 2 && !Machine.bit r 26 && !Machine.bit r 25

/-- Take from the lanes of a group what follows in stripe order, until the next position's lane holds nothing (R282). A position on a
lane that is not in SYNC yields no cell; a marker starts the set that it announces. -/
def State.grpTake (s : State) (g : Nat) : Nat → State
  | 0 => s
  | n + 1 =>
    let x := s.group g
    let set := lanesOf x.rxActive
    match set[x.rxPos % set.length]? with
    | none => s
    | some p =>
      match s.stripeLane g p with
      | none => (s.setGroup g { x with rxPos := x.rxPos + 1 }).grpTake g n
      | some l =>
        let y := s.lane l
        match y.fifo with
        | [] => s
        | .marker m a :: is =>
          let s1 := s.setLane l { y with fifo := is, era := some m }
          (if x.rxCount = some m then s1 else s1.setGroup g { x with rxCount := some m, rxActive := a, rxPos := 0 }).grpTake g n
        | .cell c :: is =>
          let s1 := s.setLane l { y with fifo := is }
          if y.era = x.rxCount then
            let s2 := s1.setGroup g { x with rxPos := x.rxPos + 1 }
            (match c with
              | some c => s2.cellIn g c
              | none => s2).grpTake g n
          else s1.grpTake g n

/-- What the lanes of a group hold. -/
def State.grpHeld (s : State) (g : Nat) : Nat :=
  ((List.range (s.grpCount g)).map fun i => (s.lane (s.grpFirst g + i)).fifo.length).sum

/-- A lane delivers, and the group takes what can follow. The first marker of a group that has no set starts it. -/
def State.lanePut (s : State) (l : Nat) (i : RxItem) : State :=
  match s.laneGroup l with
  | none => s
  | some g =>
    let x := s.group g
    let s1 := s.setLane l { s.lane l with fifo := (s.lane l).fifo ++ [i] }
    let s2 := match i, x.rxCount with
      | .marker m a, none => s1.setGroup g { x with rxCount := some m, rxActive := a, rxPos := 0 }
      | _, _ => s1
    s2.grpTake g ((s2.grpHeld g + 1) * (s2.grpCount g + 1))

/-! ### Lanes: markers and cells (R276 to R281, R291) -/

/-- Bytes from one marker to the next (R277). -/
def markerGap : Nat := markerCells * 256

/-- An expected position holds no valid marker: the second in a row loses marker lock (R277). -/
def State.markerMiss (s : State) (l : Nat) : State :=
  if 2 ≤ (s.lane l).missed + 1 then s.markerLoss l else s.setLane l { s.lane l with missed := (s.lane l).missed + 1 }

/-- A valid marker (R277, R280 to R282): it keeps or gains marker lock; the group's first sets its peer; another peer or a held logical
number is MISWIRED; more than 512 ns after the group's earliest lane is SKEW_EXCESS. -/
def State.markerGood (s : State) (l g : Nat) (m : Marker) (mirrored : Bool) : State :=
  let r := Reg.rhbLaneStatus l
  let had := s.bit r 28
  let x := s.group g
  let first : Nat × Raw := match x.firstAt with
    | some a => if a.1 = m.count then a else (m.count, s.raw)
    | none => (m.count, s.raw)
  let skew := (s.raw - first.2).toNat / nsUnit
  let x1 := match x.peer with
    | none => { x with peer := some (m.src, m.grp), firstAt := some first }
    | some _ => { x with firstAt := some first }
  let wrong := x1.peer != some (m.src, m.grp) || ((!had || s.fld r 20 16 != m.logical) && s.logicalHeld g l m.logical)
  let x2 := if wrong then x1 else { x1 with peerRxOk := m.rxOk }
  let s1 := (s.setGroup g x2).setLane l { s.lane l with skew := skew, missed := 0 }
  let s2 := ((s1.setBit r 28 true).setBit r 27 (if had then s1.bit r 27 else s1.bit r 27 || mirrored)).setBit r 26
    (s1.bit r 26 || wrong)
  let s3 := ((s2.setBit r 25 (decide (512 < skew))).setFld r 20 16 (if wrong then s2.fld r 20 16 else m.logical)).grpRefresh g
  if wrong then s3 else s3.lanePut l (.marker m.count m.active)

/-- LANE_MARKER (R277): 32 bytes at a marker position, `skip` bytes after the last cell or marker while the lane has no marker lock. -/
def State.laneMarker (s : State) (l : Nat) (bs : List Byte) (mirrored : Bool) (skip : Nat) (cws : List (Nat × Bool)) : State :=
  let r := Reg.rhbLaneStatus l
  let had := s.bit r 28
  match s.laneGroup l with
  | some g =>
    if !s.bit r 29 || (had && (s.lane l).since != markerGap) then s
    else
      let q := s.streamIn l (if had then 32 else skip + 32) cws
      let s1 := q.2.setLane l { q.2.lane l with since := 0 }
      if !s1.bit r 29 then s1
      else
        match parseMarker bs with
        | some m => s1.markerGood l g m mirrored
        | none => if had then s1.markerMiss l else s1
  | none => s

/-- LANE_MARKER (R277). -/
def execLaneMarker (l : Fin 64) (bytes : List Byte) (mirrored : Bool) (skip : Nat) (cws : List (Nat × Bool)) (at' : Raw) (s : State) :
    Host.Outcome State Fault Refusal :=
  .next ((s.advance at').laneMarker l.val bytes mirrored skip cws)

/-- Payload bytes pass the descrambler of a lane, which runs on over successive cells (R273). -/
def State.descrambled (s : State) (l : Nat) (bs : List Byte) : List Byte × State :=
  let q := descramble (bs.drop 16) (s.lane l).descr
  (bs.take 16 ++ q.1, s.setLane l { s.lane l with descr := q.2 })

/-- A 256-byte candidate on a lane with FEC and marker lock goes through Table 13.5 and order 1 of Table 13.8. `hit` says that a byte
lies in an uncorrectable codeword. -/
def State.candidateCell (s : State) (l : Nat) (bs : List Byte) (hit : Bool) : State :=
  let good := ofBe ((bs.drop 14).take 2) == hcs (bs.take 14)
  match s.fld (Reg.rhbLaneStatus l) 31 30 with
  | 0 => if good then ((s.descrambled l bs).2.setCellState l 1 0).laneChanged l else s
  | 1 =>
    let s1 := (s.descrambled l bs).2
    let x := s1.lane l
    if !good then (s1.setCellState l 0 0).laneChanged l
    else if s1.syncN ≤ x.run + 1 then (s1.setCellState l 2 0).laneChanged l
    else s1.setCellState l 1 (x.run + 1)
  | _ =>
    let q := s.descrambled l bs
    let x := q.2.lane l
    if !good then
      let s1 := (q.2.bump (Reg.rhbLaneHcsErr l)).bump Reg.rhbUncharged
      if s1.lossM ≤ x.run + 1 then (s1.setCellState l 0 0).laneChanged l
      else (s1.setCellState l 2 (x.run + 1)).lanePut l (.cell none)
    else
      let s1 := q.2.setCellState l 2 0
      if hit then (s1.bump Reg.rhbUncharged).lanePut l (.cell none) else s1.lanePut l (.cell (some (parseCell q.1)))

/-- CELL_DELINEATION (R278, R276, R291): bytes that stand at a marker position are no cell (R277). In HUNT, `skip` bytes were passed over
before the candidate, and a candidate that fails passes one. -/
def State.delineate (s : State) (l : Nat) (bs : List Byte) (skip : Nat) (cws : List (Nat × Bool)) : State :=
  let r := Reg.rhbLaneStatus l
  if !s.bit r 29 || !s.bit r 28 || markerGap ≤ (s.lane l).since then s
  else
    let good := ofBe ((bs.drop 14).take 2) == hcs (bs.take 14)
    let n := if s.fld r 31 30 ≠ 0 then 256 else if good then skip + 256 else skip + 1
    let q := s.streamIn l n cws
    if q.2.bit r 29 then q.2.candidateCell l bs q.1 else q.2

/-- CELL_DELINEATION (R278). -/
def execCellDelineation (l : Fin 64) (bytes : List Byte) (skip : Nat) (cws : List (Nat × Bool)) (s : State) :
    Host.Outcome State Fault Refusal :=
  .next (s.delineate l.val bytes skip cws)

/-! ### Loopback (R284) -/

/-- What the SerDes returns to a lane reaches its receiver: a marker or a cell, with no codeword in error. -/
def State.loopIn (s : State) (l : Nat) : List (List Byte) → State
  | [] => s
  | b :: bs => (if b.length = 32 then s.laneMarker l b false 0 [] else s.delineate l b 0 []).loopIn l bs

/-- The lanes of a group receive what its transmitter has put into the loop. -/
def State.loopFeed (s : State) (g : Nat) : State :=
  s.each (List.range (s.grpCount g)) fun i s =>
    let l := s.grpFirst g + i
    let x := s.lane l
    (s.setLane l { x with loop := [] }).loopIn l x.loop

/-- CELL_TRANSMIT (R287). -/
def execCellTransmit (g : Fin 16) (at' : Raw) (s : State) : Host.Outcome State Fault Refusal :=
  .next (((s.advance at').cellTransmit g.val at').loopFeed g.val)

/-- MARKER_INSERT (R277). -/
def execMarkerInsert (g : Fin 16) (s : State) : Host.Outcome State Fault Refusal :=
  .next ((s.markerInsert g.val).loopFeed g.val)

/-! ### Reach, drains, DEV_ID, group settings -/

/-- A write of RHB_REACH takes effect at once, and a change starts the drain (R285, R286). -/
def State.reachWrite (s : State) (d : Nat) (v : Word) : State :=
  (s.wrTyped (Reg.rhbReach d) v).drainIf d (s.usableSet d) s.sprayOn

/-- REACH_WRITE (R286). -/
def execReachWrite (d : Fin 1024) (val : Word) (s : State) : Host.Outcome State Fault Refusal := .next (s.reachWrite d.val val)

/-- The VOQs toward a device that hold frames. -/
def State.voqsToward (s : State) (d : Nat) : List Nat :=
  (s.voq.q.filter fun e => e.2.dev == d && !e.2.frames.isEmpty).map Prod.fst

/-- DRAIN_END (R286): data toward the device resumes on the new set. -/
def State.drainEnd (s : State) (d : Nat) : State :=
  match (s.toward d).drain with
  | some e =>
    if s.reached e then
      (s.setToward d { s.toward d with drain := none }).each (s.voqsToward d) fun v s => s.voqServe v
    else s
  | none => s

/-- DRAIN_END (R286). -/
def execDrainEnd (d : Fin 1024) (at' : Raw) (s : State) : Host.Outcome State Fault Refusal :=
  .next ((s.advance at').drainEnd d.val)

/-- Start the drains that a change made by `f` calls for, toward every reachable device (R286, R288). -/
def State.withDrains (s : State) (f : State → State) : State :=
  let old := s.reachable.map fun d => (d, s.usableSet d)
  let spray := s.sprayOn
  (f s).each (List.range old.length) fun i s =>
    match old[i]? with
    | some (d, w) => s.drainIf d w spray
    | none => s

/-- A write of RHB_CTRL: DEV_ID takes effect in LOAD and COMMISSION only, and otherwise sets DEV_ID_IGNORED (R294); a change
of SPRAY drains (R288). -/
def State.rhbCtrlWrite (s : State) (v : Word) : State :=
  s.withDrains fun s =>
    let id := s.devId
    let s1 := s.wrTyped Reg.rhbCtrl v
    if s.dev.mode = .load ∨ s.dev.mode = .commission then s1
    else (s1.setFld Reg.rhbCtrl 9 0 id).setBit Reg.rhbCtrl 30 true

/-- DEV_ID_WRITE (R294). -/
def execDevIdWrite (val : Word) (s : State) : Host.Outcome State Fault Refusal := .next (s.rhbCtrlWrite val)

/-- A write of RHB_GRP_CFG (R283, R284). -/
def State.grpCfgWrite (s : State) (g : Nat) (v : Word) : State := (s.wrTyped (Reg.rhbGrpCfg g) v).grpRefresh g

end Sys2Proof.Machine
end

