-- ==== Sys2Proof/Machine/PortOps.lean ====
section
/-!
DEFINITION. Machine/PortOps.lean: what a cage channel or a reference clock does to the ports behind it (R388, R393).
-/
namespace Sys2Proof.Machine

/-- A cage channel left or entered ON: its PON or network port follows its causes (R393, R119, R299). -/
def State.cageChanged (s : State) (ch : Nat) : State := if ch < 48 then s.ponFollow ch else s.netFollow (ch - 48)

/-- Every PON receiver loses its signal: loss of signal takes each port that has a personality down (R120, cause 4). -/
def State.ponLanesLost (s : State) : State :=
  s.each (List.range 48) fun n s =>
    if s.ponPers n = 0 then s else (s.setPonPort n { s.ponPort n with los := true }).ponFollow n

/-- Every Ethernet lane loses lock: network and management ports, LH_PEER, Rhumb lanes. -/
def State.ethLanesLost (s : State) : State :=
  let s1 := (s.each (List.range 26) fun i s => s.netFail i 0).setBit Reg.lhtStatus 31 false
  s1.each (List.range 64) fun l s => if s.bit (Reg.rhbLaneStatus l) 29 then s.fecLoss l else s

/-- A reference clock is lost (R388): the lanes it clocks lose lock and their ports go down; 0 REFCLK_PON the PON ports, 1
REFCLK_ETH the Ethernet and Rhumb lanes, 2 REFCLK_PCIE the HELM link, which this model holds in PERST_N alone. DEDUCED. -/
def State.refLost (s : State) (which : Nat) : State :=
  if which = 0 then s.ponLanesLost else if which = 1 then s.ethLanesLost else s

end Sys2Proof.Machine
end

