-- ==== Sys2Proof/Machine/Power.lean ====
section
/-!
DEFINITION. Machine/Power.lean: the Binnacle: sequencing, VIN_12 and POWER_FAIL_N, adaptive voltage, temperature, and the
cage channels (chapter 20).
-/
namespace Sys2Proof.Machine

/-! ### Supplies (R383 to R388) -/

/-- PWR_OK is high: the logic domain runs. -/
def State.logicUp (s : State) : Bool := s.pwr.phase == .up

/-- Leaf of bit `b` of group 22 (R393). -/
def powerLeaf (b : Nat) : Nat := leafOf 22 b

/-- POWER_FAIL_N as PWR_VIN reports it: [31] pin low, [30] driven by the Binnacle (Table 20.12). -/
def State.showPowerFail (s : State) : State :=
  (s.setBit Reg.pwrVin 31 s.dev.powerFailLow).setBit Reg.pwrVin 30 s.pwr.driven

/-- PWR_VIN takes a measured voltage. -/
def State.showVin (s : State) (mv : Nat) : State := s.setFld Reg.pwrVin 15 0 mv

/-- POWER_FAIL_N falls: the running logic enters SAFE with CAUSE 4 (R66); a fall caused by board logic raises the external
power-fail event (R387). -/
def State.powerFailFall (s : State) (board : Bool) : State :=
  let s1 := ({ s with dev.powerFailLow := true } : State).showPowerFail
  if s1.logicUp then (if board then s1.event (powerLeaf 1) 0 else s1).safeEntry 4 0 else s1

/-- POWER_FAIL_N_FALL (R66). -/
def execPowerFailNFall (board : Bool) (s : State) : Host.Outcome State Fault Refusal := .next (s.powerFailFall board)

/-- The Binnacle drives POWER_FAIL_N low. -/
def State.drivePowerFail (s : State) : State := ({ s with pwr.driven := true } : State).powerFailFall false

/-- The gate of a channel is on. -/
def cageGate (c : Cage) : Bool := c.st == .starting || c.st == .on

/-- What falls when the rails go, in order: every cage gate, PWR_OK, then PWR_EN[6] to PWR_EN[0], 100 µs apart (R384). -/
def State.railsFall (s : State) : List Output :=
  ((s.pwr.cages.filter fun e => cageGate e.2).map fun e => .cageGate e.1 false) ++
    (if s.logicUp then [.pwrOk false] else []) ++
    (((List.range 7).reverse.filter fun k => decide (k < s.pwr.railsOn)).map fun k => .pwrEn k false (100 * (6 - k)))

/-- RAIL_REMOVAL (R384): cage gates off, PWR_OK low, rails off; the logic domain loses all state and DEV_RESET_CAUSE is
cleared (R62, R70). -/
def State.railRemoval (s : State) (next : BinPhase) : State :=
  let s0 := s.railsFall.foldl State.emit s
  let s1 := (s0.coldReset 0).wr Reg.devResetCause 0
  let s2 := { s1 with pwr.phase := next, pwr.railsOn := 0, pwr.removeDue := false }
  (s2.setFld Reg.pwrStatus 31 24 0)

/-- The logic domain leaves cold reset; with ZEROIZE_N low, zeroisation runs again at once (R379). `cause` is the bits
that DEV_RESET_CAUSE gains. -/
def State.coldBoot (s : State) (cause : Word) : State :=
  let s1 := s.coldReset cause
  if s1.dev.zeroizeLow then s1.zeroBegin true else s1

/-- VIN_RISE (R387, R46): above 10.8 V a stopped Binnacle starts from the first firmware copy that authenticates, A before B; with none
it powers nothing beyond its own domain. `copies` are the copies that the flash holds, A first; which of them boots shows nowhere. -/
def State.vinRise (s : State) (mv : Nat) (copies : List FwCopy) : State :=
  let s1 := s.showVin mv
  if s.pwr.phase = .stopped ∧ 10800 < mv ∧ copies.any s.sec.otp.boots then
    { s1 with pwr.phase := .refclk, pwr.startFaults := 0, pwr.afterFault := false, dev.binAlive := true }
  else s1

/-- VIN_RISE (R387). -/
def execVinRise (mv : Nat) (copyA : Option FwCopy) (copyB : Option FwCopy) (s : State) : Host.Outcome State Fault Refusal :=
  .next (s.vinRise mv (copyA.toList ++ copyB.toList))

/-- VIN_DROOP (R387): below 11.0 V for 200 ns POWER_FAIL_N is driven low and the droop event raised. -/
def State.vinDroop (s : State) (mv ns : Nat) : State :=
  let s1 := s.showVin mv
  if mv < 11000 ∧ 200 ≤ ns ∧ s.pwr.phase ≠ .stopped then
    (if s.logicUp then s1.event (powerLeaf 0) 0 else s1).drivePowerFail
  else s1

/-- VIN_DROOP (R387). -/
def execVinDroop (mv : Nat) (ns : Nat) (s : State) : Host.Outcome State Fault Refusal := .next (s.vinDroop mv ns)

/-- VIN_RECOVER (R387): above 11.4 V for 10 ms the Binnacle releases POWER_FAIL_N; the mode stays. The pin is open-drain and stays low
while board logic still pulls it (`board`). -/
def State.vinRecover (s : State) (mv ms : Nat) (board : Bool) : State :=
  let s1 := s.showVin mv
  if 11400 < mv ∧ 10 ≤ ms then
    ({ s1 with pwr.driven := false, dev.powerFailLow := board } : State).showPowerFail
  else s1

/-- VIN_RECOVER (R387). -/
def execVinRecover (mv : Nat) (ms : Nat) (board : Bool) (s : State) : Host.Outcome State Fault Refusal :=
  .next (s.vinRecover mv ms board)

/-- VIN_LOSS (R384): below 10.0 V for 100 µs the rails are removed. A Binnacle that stays off until VIN_12 falls below 9.0 V stays so
(R383). -/
def State.vinLoss (s : State) (mv us : Nat) : State :=
  let s1 := s.showVin mv
  if mv < 10000 ∧ 100 ≤ us ∧ s.pwr.phase ≠ .halted then s1.railRemoval .stopped else s1

/-- VIN_LOSS (R384). -/
def execVinLoss (mv : Nat) (us : Nat) (s : State) : Host.Outcome State Fault Refusal := .next (s.vinLoss mv us)

/-- The Binnacle domain loses its power: its registers return to their reset values and its counts end (R70). -/
def State.binLoss (s : State) : State :=
  { s with
    regs := s.regs.keep fun a => !pwrKept a, hold := s.hold.keep fun a => !pwrKept a,
    pwr := { phase := .stopped, railsOn := 0 } }

/-- VIN_BELOW_STOP (R387): below 9.0 V the Binnacle stops; nothing of its state is kept (R70). -/
def State.vinStop (s : State) (mv : Nat) : State :=
  if mv < 9000 then (if s.pwr.railsOn = 0 then s else s.railRemoval .stopped).binLoss else s.showVin mv

/-- VIN_BELOW_STOP (R387). -/
def execVinBelowStop (mv : Nat) (s : State) : Host.Outcome State Fault Refusal := .next (s.vinStop mv)

/-- A reference passes within ±500 ppm of nominal (R388). -/
def refPasses (ppm : Int) : Bool := decide (ppm.natAbs ≤ 500)

/-- REFCLK_CHECK (R388): the references, as measured against BIN_CLK in ppm from nominal, are reported, and when all three pass
rail 0 is enabled; VCORE is commanded to 0.80 V before rail 1 (Table 20.3). -/
def State.refclkCheck (s : State) (ponPpm ethPpm pciePpm : Int) : State :=
  let pon := refPasses ponPpm
  let eth := refPasses ethPpm
  let pcie := refPasses pciePpm
  if s.pwr.phase = .refclk then
    let s1 := s.setFld Reg.pwrStatus 22 20 (ofBool pon + 2 * ofBool eth + 4 * ofBool pcie)
    if pon && eth && pcie then
      ((({ s1 with pwr.phase := .raising 0, pwr.railsOn := 1, pwr.vcore := 800 } : State).setFld Reg.pwrStatus 15 0 800).emit
        (.pwrEn 0 true 0)).emit (.vcore 800)
    else s1
  else s

/-- REFCLK_CHECK (R388). -/
def execRefclkCheck (pon : Int) (eth : Int) (pcie : Int) (s : State) : Host.Outcome State Fault Refusal :=
  .next (s.refclkCheck pon eth pcie)

/-- The µs for which PWR_PG[k] must be high before the next step of Table 20.3. -/
def pgUs (k : Nat) : Nat := if k < 6 then 1000 else 2000

/-- RAIL_POWER_GOOD (R383): rail `k` has been good for `us` µs, its time or more; the next rail is enabled, or after rail 6 PWR_OK goes
high and the logic domain leaves cold reset (R62: POWER_UP, and BINNACLE after a rail fault). -/
def State.railGood (s : State) (k us : Nat) : State :=
  if s.pwr.phase = .raising k ∧ pgUs k ≤ us then
    let s1 := s.setBit Reg.pwrStatus (24 + k) true
    if k < 6 then ({ s1 with pwr.phase := .raising (k + 1), pwr.railsOn := k + 2 } : State).emit (.pwrEn (k + 1) true 0)
    else
      let s2 := (s1.setBit Reg.pwrStatus 31 true).emit (.pwrOk true)
      ({ s2 with pwr.phase := .up, pwr.railsOn := 7, pwr.startFaults := 0 } : State).coldBoot
        (if s.pwr.afterFault then 0x11 else 0x01)
  else s

/-- RAIL_POWER_GOOD (R383). -/
def execRailPowerGood (k : Fin 7) (us : Nat) (s : State) : Host.Outcome State Fault Refusal := .next (s.railGood k.val us)

/-- STARTUP_RAIL_FAULT (R383): rail `k` is not good 10 ms after its enable; the rails are removed for a retry; after three the
Binnacle stays off. -/
def State.startRailFault (s : State) (k ms : Nat) : State :=
  if s.pwr.phase = .raising k ∧ 10 ≤ ms then
    let n := s.pwr.startFaults + 1
    let s1 := s.railRemoval (if 3 ≤ n then .halted else .waiting)
    { s1 with pwr.startFaults := n }
  else s

/-- STARTUP_RAIL_FAULT (R383). -/
def execStartupRailFault (k : Fin 7) (ms : Nat) (s : State) : Host.Outcome State Fault Refusal := .next (s.startRailFault k.val ms)

/-- RAIL_FAULT (R385), a rail not good for 5 µs or more: POWER_FAIL_N is driven low, the fault is recorded with the count within 60 s, its event raised, and
removal and restart are scheduled. -/
def State.railFault (s : State) (k us binMs : Nat) : State :=
  if s.logicUp ∧ 5 ≤ us then
    let times := (s.pwr.faultTimes.filter fun t => binMs < t + 60000) ++ [binMs]
    let s1 := s.wrNat Reg.pwrFault (2 ^ 31 + k % 8 * 2 ^ 24 + min 15 times.length)
    let s2 := (s1.setBit Reg.pwrStatus (24 + k) false).setBit Reg.pwrStatus 31 false
    ({ s2.event (powerLeaf 2) k with pwr.faultTimes := times, pwr.removeDue := true } : State).drivePowerFail
  else s

/-- RAIL_FAULT (R385). -/
def execRailFault (k : Fin 7) (us : Nat) (binMs : Nat) (s : State) : Host.Outcome State Fault Refusal :=
  .next (s.railFault k.val us binMs)

/-- The rails that a fault has scheduled for removal go, 1 ms after it; after three rail faults within 60 s the Binnacle stays off. -/
def State.faultRemoval (s : State) : State :=
  let s1 := s.railRemoval (if 3 ≤ s.pwr.faultTimes.length then .halted else .waiting)
  ({ s1 with pwr.afterFault := true, pwr.driven := false, dev.powerFailLow := false } : State).showPowerFail

/-- The ms after the removal at which step 2 begins again: 100 after a rail fault, 1,000 after a start-up rail fault. -/
def State.restartMs (s : State) : Nat := if s.pwr.startFaults = 0 then 100 else 1000

/-- POWER_RESTART (R385, R383), `ms` after the fault or the removal: rails scheduled for removal go first; when the wait that follows
has passed, step 2 begins again. -/
def State.powerRestart (s : State) (ms : Nat) : State :=
  if s.pwr.removeDue then
    if 1 ≤ ms then
      if s.pwr.faultTimes.length < 3 ∧ 101 ≤ ms then { s.faultRemoval with pwr.phase := .refclk } else s.faultRemoval
    else s
  else if s.pwr.phase = .waiting ∧ s.restartMs ≤ ms then { s with pwr.phase := .refclk }
  else s

/-- POWER_RESTART (R385). -/
def execPowerRestart (ms : Nat) (s : State) : Host.Outcome State Fault Refusal := .next (s.powerRestart ms)

/-- BINNACLE_WATCHDOG (R385): 10 ms without the alive signal is a fatal error with FATAL_SRC 3; the rails stay. -/
def execBinnacleWatchdog (ms : Nat) (s : State) : Host.Outcome State Fault Refusal :=
  .next (if 10 ≤ ms then ({ s with dev.binAlive := false } : State).safeEntry 6 3 else s)

/-- BINNACLE_SIGNAL_RETURN (R30): flash reads become possible again. -/
def execBinnacleSignalReturn (s : State) : Host.Outcome State Fault Refusal := .next { s with dev.binAlive := true }

/-- REFCLK_LOSS (R388): the event is raised and the lanes clocked by the reference lose lock. -/
def execRefclkLoss (which : Fin 3) (s : State) : Host.Outcome State Fault Refusal :=
  .next ((s.setBit Reg.pwrStatus (20 + which.val) false).event (powerLeaf 6) 0 |>.refLost which.val)

/-! ### Adaptive voltage and temperature (R386, R389) -/

/-- AVC is on: its enable at the level in force, in ACTIVE, STANDBY or MAINTENANCE. -/
def State.avcOn (s : State) : Bool :=
  (if s.bit Reg.pwrCtrl 31 then s.bit Reg.pwrAvcCfg 31 else s.bit Reg.pwrCtrl 8) &&
  (s.dev.mode == .active || s.dev.mode == .standby || s.dev.mode == .maintenance)

/-- The target while AVC is off (R386). -/
def State.avcFixed (s : State) : Nat :=
  if s.bit Reg.pwrCtrl 31 then max 700 (min 800 (s.fld Reg.pwrAvcCfg 15 0)) else 800

/-- The target `want` (the lowest at which every monitor keeps its margin) in 5 mV steps from 700 to 800, approached by at
most 5 mV. -/
def avcStep (cur want : Nat) : Nat :=
  let w := max 700 (min 800 (ceilDiv want 5 * 5))
  if cur + 5 ≤ w then cur + 5 else if w + 5 ≤ cur then cur - 5 else w

/-- AVC_UPDATE (R386). `lost`: a monitor loses its margin at the present target. -/
def State.avcUpdate (s : State) (want : Nat) (lost : Bool) : State :=
  let t := if s.avcOn then avcStep s.pwr.vcore want else s.avcFixed
  let s1 := if s.avcOn && lost && s.pwr.vcore == 800 then s.event (powerLeaf 3) 0 else s
  let t' := if s.avcOn && lost && s.pwr.vcore == 800 then 800 else t
  let s2 := ({ s1 with pwr.vcore := t' } : State).setFld Reg.pwrStatus 15 0 t'
  if t' = s.pwr.vcore then s2 else s2.emit (.vcore t')

/-- AVC_UPDATE (R386). -/
def execAvcUpdate (want : Nat) (lost : Bool) (s : State) : Host.Outcome State Fault Refusal :=
  .next (s.avcUpdate want lost)

/-- One sensor's report (R389): the reading is shown; a die at WARN_C raises the warning once until it has fallen to 5 °C
below. Readings are in 1/16 °C. -/
def State.tempShow (s : State) (sensor : Nat) (t : Option Int) : State :=
  match t with
  | none => s.wr (Reg.pwrTemp sensor) 0
  | some v =>
    let s1 := s.wrNat (Reg.pwrTemp sensor) (2 ^ 31 + unsign 16 v)
    let warn : Int := (s.fld Reg.pwrTempCfg 31 24 : Int) * 16
    let was := s.pwr.warned.get (fun _ => false) sensor
    if sensor < 3 then
      if warn ≤ v then
        if was then s1
        else ({ s1 with pwr.warned := s1.pwr.warned.set (fun _ => false) sensor true } : State).event (powerLeaf 4) 0
      else if v ≤ warn - 80 then { s1 with pwr.warned := s1.pwr.warned.set (fun _ => false) sensor false }
      else s1
    else s1

/-- A reading is critical: a die at CRIT_C or an HBM stack at HBM_CRIT_C (R389). -/
def State.tempCritical (s : State) (sensor : Nat) (t : Option Int) : Bool :=
  match t with
  | none => false
  | some v => decide (((if sensor < 3 then s.fld Reg.pwrTempCfg 23 16 else s.fld Reg.pwrTempCfg 15 8 : Nat) : Int) * 16 ≤ v)

/-- TEMPERATURE_SAMPLE (R389, R66). -/
def State.temperature (s : State) (t : List (Option Int)) : State :=
  let s1 := s.each (List.range 7) fun i s => s.tempShow i (t.getD i none)
  if s.logicUp && (List.range 7).any fun i => s.tempCritical i (t.getD i none) then (s1.event (powerLeaf 5) 0).safeEntry 5 0 else s1

/-- TEMPERATURE_SAMPLE (R389). -/
def execTemperatureSample (t : List (Option Int)) (s : State) : Host.Outcome State Fault Refusal :=
  .next (s.temperature t)

/-- THERMAL_SHUTDOWN (R389): a die sensor at 125 °C or more, in 1/16 °C: Binnacle hardware removes the rails; it restarts only after
VIN_12 has been below 9.0 V. -/
def execThermalShutdown (sensor : Fin 3) (t : Int) (s : State) : Host.Outcome State Fault Refusal :=
  .next (if 2000 ≤ t ∧ s.pwr.phase ≠ .stopped then (s.tempShow sensor.val (some t)).railRemoval .halted else s)

/-! ### Cage channels (R390 to R393) -/

/-- Channel `ch`. -/
def State.cage (s : State) (ch : Nat) : Cage := s.pwr.cages.get (fun _ => {}) ch

/-- The channel's event leaf (R393). -/
def cageLeaf (ch : Nat) : Nat := leafOf (23 + ch / 32) (ch % 32)

/-- A channel takes a new value: a change of STATE, or OPEN being set, raises its event; entry to OFF clears RETRIES; a
change into or out of ON reaches its port. -/
def State.setCage (s : State) (ch : Nat) (c : Cage) : State :=
  let old := s.cage ch
  let c' := if c.st = .off then { c with retries := 0 } else c
  let s1 := { s with pwr.cages := s.pwr.cages.set (fun _ => {}) ch c' }
  let s2 := if c'.st ≠ old.st ∨ (c'.isOpen ∧ ¬ old.isOpen) then s1.event (cageLeaf ch) ch else s1
  let s3 := if cageGate c' != cageGate old then s2.emit (.cageGate ch (cageGate c')) else s2
  if (c'.st == .on) != (old.st == .on) then s3.cageChanged ch else s3

/-- ILIM of a channel: basic or expert (R391). -/
def State.cageLimit (s : State) (ch : Nat) : Nat :=
  if s.bit Reg.pwrCtrl 31 then s.fld (Reg.pwrCageCtrl ch) 15 0 else s.fld Reg.pwrCageCfg 31 16

/-- OPEN_MA (Table 20.12). PWR_CAGE_CFG is a basic register and OPEN_MA and OVL_MS have no expert counterpart: they act at both levels
(DESIGN CHOICE, log entry 100). -/
def State.cageOpenMa (s : State) : Nat := s.fld Reg.pwrCageCfg 7 0

/-- OVL_MS; 0 acts as 1 (Table 20.12). It acts at both levels, as OPEN_MA does (DESIGN CHOICE, log entry 100). -/
def State.cageOvlMs (s : State) : Nat := max 1 (s.fld Reg.pwrCageCfg 15 8)

/-- The channel follows its ENABLE: from OFF to STARTING once gates are allowed (R390), and to OFF from every state but
LATCHED and REVERSED (R392). -/
def State.cageFollow (s : State) (ch : Nat) : State :=
  let c := s.cage ch
  if s.bit (Reg.pwrCageCtrl ch) 31 then
    if c.st = .off ∧ s.dev.commOnce then s.setCage ch { c with st := .starting } else s
  else
    match c.st with
    | .latched | .reversed => s
    | _ => s.setCage ch { c with st := .off }

/-- CLEAR takes a LATCHED or REVERSED channel to OFF and clears its trips; in any other state it does nothing (R392). -/
def State.cageClear (s : State) (ch : Nat) : State :=
  let c := s.cage ch
  match c.st with
  | .latched | .reversed => s.setCage ch { c with st := .off, trips := 0 }
  | _ => s

/-- A write of PWR_CAGE_CTRL: CLEAR first, then ENABLE (R392). -/
def State.cageWrite (s : State) (ch : Nat) (v : Word) : State :=
  let s1 := s.wrTyped (Reg.pwrCageCtrl ch) v
  (if Machine.bit v 30 then s1.cageClear ch else s1).cageFollow ch

/-- CAGE_ENABLE (R392). -/
def execCageEnable (ch : Fin 72) (val : Word) (s : State) : Host.Outcome State Fault Refusal := .next (s.cageWrite ch.val val)

/-- CAGE_DISABLE (R392). -/
def execCageDisable (ch : Fin 72) (val : Word) (s : State) : Host.Outcome State Fault Refusal := .next (s.cageWrite ch.val val)

/-- CAGE_CLEAR (R392). -/
def execCageClear (ch : Fin 72) (val : Word) (s : State) : Host.Outcome State Fault Refusal := .next (s.cageWrite ch.val val)

/-- The current in mA that a voltage of `uv` µV across the sense resistor means, within the ±60 mV that the input measures (R390).
The manual gives no rounding to the 1 mA resolution: toward zero here (DESIGN CHOICE, log entry 101). -/
def State.senseMa (s : State) (uv : Int) : Int :=
  let r := s.fld Reg.pwrCageRsns 15 0
  if r = 0 then Config.senseOpen uv else Int.tdiv (clampInt (-60000) 60000 uv * 1000) r

/-- A channel's measured current is shown, and `f` says what follows of it. -/
def State.cageMeasured (s : State) (ch : Nat) (uv : Int) (f : Int → State → State) : State :=
  let ma := s.senseMa uv
  f ma (s.wrNat (Reg.pwrCageCurrent ch) (unsign 16 ma))

/-- A trip (R391): trips count to 255; a negative current goes to REVERSED, a trip that finds RETRIES at 3 to LATCHED, any
other to RETRY_WAIT with RETRIES incremented. -/
def State.cageTrip (s : State) (ch : Nat) (ma : Int) : State :=
  let c := s.cage ch
  let c1 := { c with trips := min 255 (c.trips + 1) }
  if ma < 0 then s.setCage ch { c1 with st := .reversed }
  else if 3 ≤ c.retries then s.setCage ch { c1 with st := .latched }
  else s.setCage ch { c1 with st := .retryWait, retries := c.retries + 1 }

/-- CAGE_TRIP: |I| at 2 × ILIM or more trips (R391). -/
def execCageTrip (ch : Fin 72) (uv : Int) (s : State) : Host.Outcome State Fault Refusal :=
  .next (s.cageMeasured ch.val uv fun ma s =>
    if cageGate (s.cage ch.val) && decide (2 * s.cageLimit ch.val ≤ ma.natAbs) then s.cageTrip ch.val ma else s)

/-- CAGE_OVERLOAD: in ON, I at ILIM or more held for OVL_MS trips (R391). -/
def execCageOverload (ch : Fin 72) (uv : Int) (ms : Nat) (s : State) : Host.Outcome State Fault Refusal :=
  .next (s.cageMeasured ch.val uv fun ma s =>
    if (s.cage ch.val).st == .on && decide ((s.cageLimit ch.val : Int) ≤ ma) && decide (s.cageOvlMs ≤ ms) then s.cageTrip ch.val ma
    else s)

/-- CAGE_START_COMPLETE: 2 ms in STARTING without a trip (R391). -/
def execCageStartComplete (ch : Fin 72) (us : Nat) (s : State) : Host.Outcome State Fault Refusal :=
  .next (if (s.cage ch.val).st = .starting ∧ 2000 ≤ us then s.setCage ch.val { s.cage ch.val with st := .on } else s)

/-- CAGE_RETRY_END: 100 ms after the trip (R391). -/
def execCageRetryEnd (ch : Fin 72) (ms : Nat) (s : State) : Host.Outcome State Fault Refusal :=
  .next (if (s.cage ch.val).st = .retryWait ∧ 100 ≤ ms then s.setCage ch.val { s.cage ch.val with st := .starting } else s)

/-- CAGE_RETRIES_CLEAR: 10 s in ON without a trip (R391). -/
def execCageRetriesClear (ch : Fin 72) (ms : Nat) (s : State) : Host.Outcome State Fault Refusal :=
  .next (if (s.cage ch.val).st = .on ∧ 10000 ≤ ms then s.setCage ch.val { s.cage ch.val with retries := 0 } else s)

/-- CAGE_REVERSED: I at −OPEN_MA or below for 1 ms (R391). -/
def execCageReversed (ch : Fin 72) (uv : Int) (us : Nat) (s : State) : Host.Outcome State Fault Refusal :=
  .next (s.cageMeasured ch.val uv fun ma s =>
    if cageGate (s.cage ch.val) && decide (ma ≤ -(s.cageOpenMa : Int)) && decide (1000 ≤ us) then
      s.setCage ch.val { s.cage ch.val with st := .reversed } else s)

/-- CAGE_OPEN: in ON, 0 ≤ I < OPEN_MA for 100 ms sets OPEN (R391). -/
def execCageOpen (ch : Fin 72) (uv : Int) (ms : Nat) (s : State) : Host.Outcome State Fault Refusal :=
  .next (s.cageMeasured ch.val uv fun ma s =>
    if (s.cage ch.val).st == .on && decide (0 ≤ ma) && decide (ma < (s.cageOpenMa : Int)) && decide (100 ≤ ms) then
      s.setCage ch.val { s.cage ch.val with isOpen := true } else s)

/-- CAGE_OPEN_CLEAR: I at OPEN_MA or more clears OPEN (R391). -/
def execCageOpenClear (ch : Fin 72) (uv : Int) (s : State) : Host.Outcome State Fault Refusal :=
  .next (s.cageMeasured ch.val uv fun ma s =>
    if decide ((s.cageOpenMa : Int) ≤ ma) then s.setCage ch.val { s.cage ch.val with isOpen := false } else s)

/-- The encoding of STATE (Table 20.6). -/
def cageCode : CageState → Nat
  | .off => 0
  | .starting => 1
  | .on => 2
  | .retryWait => 3
  | .latched => 4
  | .reversed => 5

/-- PWR_CAGE_STATUS as it reads (Table 20.13). -/
def cageStatus (c : Cage) : Word :=
  BitVec.ofNat 32 (cageCode c.st * 2 ^ 29 + ofBool c.isOpen * 2 ^ 28 + c.retries % 4 * 2 ^ 24 + c.trips % 256 * 2 ^ 16)

end Sys2Proof.Machine
end

