-- ==== Sys2Proof/Machine/Modes.lean ====
section
/-!
DEFINITION. Machine/Modes.lean: mode requests, transitions, commissioning, fatal errors and the grace of SAFE (R48 to R58, R66 to
R68).
-/
namespace Sys2Proof.Machine

/-! ### Requests (R50, R51, Table 03.4) -/

/-- A request row of Table 03.4 whose condition holds. -/
def State.legal (s : State) (to' : Mode) : Bool :=
  match s.dev.mode, to' with
  | .load, .commission => s.dev.loadDone && s.dev.structValid
  | .commission, .active | .commission, .standby | .commission, .maintenance => s.bit Reg.devCommStatus 30
  | .active, .standby | .standby, .active | .active, .maintenance => true
  | .maintenance, .active | .maintenance, .standby => !s.busy .sweep
  | _, _ => false

/-- REQ_GO with REQ (R51): 5 is a SAFE trigger, the current mode does nothing, any other is accepted or refused; one in the clock of
a Lighthouse takeover is discarded (R52). -/
def State.modeRequest (s : State) (req : Nat) : State :=
  if req = 5 then s.safeEntry 2 0
  else
    match modeOf req with
    | some m =>
      if m = s.dev.mode then s
      else if s.dev.tookAt == some s.raw then s.refuseMode
      else if s.dev.trans.isNone && s.legal m then { s with dev.trans := some (m, 2), dev.transAt := s.raw }
      else s.refuseMode
    | none => s.refuseMode

/-- A write of DEV_MODE (Table 03.1). -/
def State.modeWrite (s : State) (v : Word) : State :=
  let s1 := s.wrTyped Reg.devMode v
  if Machine.bit v 31 then s1.modeRequest (Machine.fld v 26 24) else s1

/-- DEV_MODE as it reads. -/
def State.modeWord (s : State) : Word :=
  Machine.setFld (Machine.setBit (s.rd Reg.devMode) 29 s.dev.trans.isSome) 2 0 (modeCode s.dev.mode)

/-- MODE_REQUEST (R51). -/
def execModeRequest (val : Word) (s : State) : Host.Outcome State Fault Refusal := .next (s.modeWrite val)

/-- SAFE_REQUEST (R66). -/
def execSafeRequest (val : Word) (s : State) : Host.Outcome State Fault Refusal := .next (s.modeWrite val)

/-! ### Transitions that complete (R53) -/

/-- Commissioning begins (R56, R60). -/
def State.commBegin (s : State) (short : Bool) : State :=
  ({ s with dev.commPhase := 1, dev.commShort := short } : State).wr Reg.devCommStatus 0x80000000

/-- PON_TXDIS rises on every transmitting port. -/
def State.stopAll (s : State) : State := s.each ((List.range 48).filter fun n => s.txOn n) fun n s => s.txStop n

/-- What an accepted transition does as it completes: a protected standby that becomes active takes over with cause HOST
(R324); on the way to STANDBY the transmitters stop with the frame in progress. -/
def State.transTo (s : State) (m : Mode) (cause : Nat) : State :=
  if m = .active ∧ s.lhStandby then s.takeover 3
  else if m = .standby then s.stopAll.setMode m cause 0
  else if m = .commission then (s.setMode m cause 0).commBegin false
  else s.setMode m cause 0

/-- An accepted transition completes (R53): MODE changes, a change of spraying drains, the PON ports follow. -/
def State.transEnd (s : State) : State :=
  match s.dev.trans with
  | some (m, cause) => (s.withDrains fun s => s.transTo m cause).ponFollowAll
  | none => s

/-- MODE_TRANSITION_COMPLETE (R53). -/
def execModeTransitionComplete (at' : Raw) (s : State) : Host.Outcome State Fault Refusal := .next (s.advance at').transEnd

/-! ### SAFE (R66, R67) -/

/-- SAFE_GRACE_END (R67). -/
def execSafeGraceEnd (at' : Raw) (s : State) : Host.Outcome State Fault Refusal := .next (s.advance at').safeGraceEnd

/-- FATAL_ERROR (R66): FATAL_SRC is 1 to 4. -/
def execFatalError (src : Fin 4) (s : State) : Host.Outcome State Fault Refusal := .next (s.safeEntry 6 (src.val + 1))

/-! ### Start-up and commissioning (R55, R56, R58, R60) -/

/-- The tests of step 4 end (R55, Table 19.6). A boot image marked in flash, of a given length, starts a load after a cold
reset: it acts as a write of DEV_IMG_OP_CTRL with START and ARG = 1, EVENT_EN kept (Table 03.6 step 6). -/
def State.startupEnd (s : State) (shaOk ecdsaOk : Bool) (boot : Option Nat) : State :=
  if !s.logicUp then s
  else
    let first := !s.bit Reg.secSelftest 0 && !s.bit Reg.secSelftest 1
    let s0 := s.flashRead boot
    let s1 := if shaOk then s0.setBit Reg.secSelftest 0 true else s0.selftestFail 0
    let s2 := if ecdsaOk then s1.setBit Reg.secSelftest 1 true else s1.selftestFail 1
    if first && boot.isSome && s2.dev.mode == .load && s2.fld Reg.devModeCause 3 0 == 0 then
      s2.imgCtrl (0x80000001 ||| (s2.rd Reg.devImgOpCtrl &&& 0x20000000))
    else s2

/-- STARTUP_SELFTEST_END (R55). -/
def execStartupSelftestEnd (shaOk : Bool) (ecdsaOk : Bool) (boot : Option Nat) (s : State) :
    Host.Outcome State Fault Refusal :=
  .next (s.startupEnd shaOk ecdsaOk boot)

/-- Phase 1 ends: lanes are calibrated and HBM is trained; only a full commissioning trains it, and can fail (R58, R60). -/
def State.commPhase1 (s : State) (ok : Bool) : State :=
  if ok || s.dev.commShort then
    (({ s with dev.hbmTrained := true, dev.commPhase := 2 } : State).setBit Reg.devCommStatus 0 true).setBit
      Reg.devCommStatus 1 true
  else s.commFail 1

/-- Phase 2 ends: memories are initialised; the short form rebuilds the free lists and what the reset cleared (R56, R60). -/
def State.commPhase2 (s : State) (ok : Bool) : State :=
  if ok then
    let s1 := if s.dev.commShort then s.threadLists else s.memInit
    ({ s1 with dev.commPhase := 3 } : State).setBit Reg.devCommStatus 2 true
  else s.commFail 2

/-- Phase 3 ends: the remaining self-tests pass, and commissioning is DONE; cage channels may turn on (R376, R390). -/
def State.commDone (s : State) : State :=
  let t := s.setFld Reg.secSelftest 7 2 63
  let s1 := { t with dev.commPhase := 0, dev.commOnce := true, sec.approvedTests := t.fld Reg.secSelftest 7 0 == 255 }
  let s2 := s1.wr Reg.devCommStatus ((s1.rd Reg.devCommStatus &&& 0x7FFFFFFF) ||| 0x40000008)
  s2.each (List.range 72) fun ch s => s.cageFollow ch

/-- A commissioning phase ends: `ok` for phases 1 and 2, the failed self-test for phase 3 (R56, R58). -/
def State.commEnd (s : State) (ok : Bool) (failed : Option Nat) : State :=
  match s.dev.commPhase, failed with
  | 1, _ => s.commPhase1 ok
  | 2, _ => s.commPhase2 ok
  | 3, some t => s.selftestFail t
  | 3, none => s.commDone
  | _, _ => s

/-- COMMISSIONING_PHASE_END (R56). -/
def execCommissioningPhaseEnd (ok : Bool) (failedTest : Option (Fin 8)) (s : State) : Host.Outcome State Fault Refusal :=
  .next (s.commEnd ok (failedTest.map fun t => t.val))

end Sys2Proof.Machine
end

