-- ==== Sys2Proof/Machine/Reset.lean ====
section
/-!
DEFINITION. Machine/Reset.lean: cold, warm, HELM and block resets (R59 to R65, R398).
-/
namespace Sys2Proof.Machine

/-! ### What a warm reset clears (Table 03.8) -/

/-- Packets, cells, VOQ and queue state: every buffer and queue is empty, nothing is outstanding. The destination map and the
configuration of queues, gates and ports stay. -/
def State.warmPackets (s : State) : State :=
  let s1 := { s with
    pool := {}, voq := { map := s.voq.map },
    alm.reqs := [], alm.staging := [], alm.rr := [],
    cmp.ingress := [], cmp.recirc := [], cmp.cti := [],
    dev.punts := [],
    xgm.reasm := [], xgm.rest := [], xgm.wait := [] }
  let l : SMap Node := s1.alm.nodes.map fun (e : Nat × Node) => (e.1, { cfg0 := e.2.cfg0, cfg1 := e.2.cfg1 })
  ({ s1 with alm.nodes := l } : State).resetNodes.resetPolicers

/-- PON activation, ranging and line state, Reckoner estimates and calendar, and the key store (R121, R142, R149, R174). -/
def State.warmPon (s : State) : State :=
  let ctxs : SMap AllocCtx := s.rck.ctxs.map fun (e : Nat × AllocCtx) => (e.1, { cfg0 := e.2.cfg0, cfg1 := e.2.cfg1, reseed := true })
  let s1 := { s.clearKeyStore with
    pon := {}, act := { sn := s.act.sn }, xgm.results := [],
    rck := { ctxs := ctxs, started := s.rck.started, turn := s.rck.turn } }
  let s2 := s1.setBit Reg.actCmdStatus 31 false
  s2.each (List.range 48) fun n s =>
    ((s.wr (Reg.ponLineStatus n) 0x01000000).setBit (Reg.ponLineCfg n) 1 false).setBit (Reg.ponRssiCtrl n) 30 false

/-- Lanes relink: fabric lanes are out of lock, and nothing waits on a group (R60). -/
def State.warmFabric (s : State) : State :=
  let s1 := s.each (List.range 64) fun l s => s.wr (Reg.rhbLaneStatus l) 0
  let s2 := { s1.each (List.range 16) (fun g s => s.wr (Reg.rhbGrpActive g) 0) with rhb := {} }
  { s2.each (List.range 16) (fun g s => s.grpRefresh g) with rhb := {} }

/-- Network ports relink: each is down until its link is good again; SAs and receive SCs are configuration. -/
def State.warmNet (s : State) : State :=
  s.each (List.range 26) fun i s =>
    let x := s.netPort i
    let s1 := s.setNet i { keyW := x.keyW, sas := x.sas, rxsc := x.rxsc }
    ((s1.setBit (Reg.netPortCfg i) 29 false).wr (Reg.netPortStatus i) 0x01000000).netFollow i

/-- Armed waypoints return to IDLE with LATE and LATENESS 0, time-stamp queues and pulses end, REALIGN no longer waits (R86, R95,
R100, R102). Table 03.8 does not name the ToD buffers and an armed SEND: they are kept (DESIGN CHOICE, log entry 98). -/
def State.warmTime (s : State) : State :=
  let s1 := s.each (List.range 512) fun w s => (s.wr (Reg.timeWpStatus w) 0).wr (Reg.timeWpLateness w) 0
  { s1 with chrono.armed := [], chrono.txts := [], chrono.gpio := [], chrono.realign := false, chrono.wpReq := [] }

/-- Pending bank switches are dropped (R38). -/
def State.warmBanks (s : State) : State :=
  s.each [Reg.cmpCommit, Reg.almCommit, Reg.dbaCommit] fun a s => s.setBit a 30 false

/-- The nonce, the role, the error state and what reports the use of services; FAILS and a lockout stay (R373, R376, R377,
R379). -/
def State.warmSec (s : State) : State :=
  let s1 := { s.setNonce none with
    sec.role := 0, sec.error := false, sec.nonApproved := false, sec.zeroized := false, sec.approvedTests := false }
  s1.wr Reg.secSelftest 0

/-- The uncommitted snapshot, pre-ranging and the heartbeat state go; the committed snapshot stays (R311, R318, Table 03.12). -/
def State.warmLht (s : State) : State :=
  let s1 := { s.lhtClear with
    lht.pre := [], lht.guides := [], lht.granted := [], lht.heardPorts := [],
    lht.slots := s.lht.slots.keep fun i => i == s.lht.slot }
  s1

/-- OPSTAT of an operation that a reset aborts: ABORTED with REASON 2 (R41, R64). -/
def State.opMark (s : State) (o : LongOp) : State :=
  (s.opIdle o).wr (opStat o) (opStatEnd (s.rd (opStat o)) (.aborted 2))

/-- The completion event of an operation that has ended, with EVENT_EN (R41, R356). -/
def State.opTell (s : State) (o : LongOp) : State :=
  if s.bit (opCtrl o) 29 then s.raise (opLeaf o) (opUnit o) (s.rd (opStat o)) 0 0 else s

/-- Apply an operation to each running long operation of a list. -/
def State.eachOp (s : State) : List LongOp → (LongOp → State → State) → State
  | [], _ => s
  | o :: os, f => (f o s).eachOp os f

/-- The mode after a warm reset: COMMISSION in the short form, or LOAD with the structure memories invalid (R60, Table 03.4). -/
def State.warmMode (s : State) : State :=
  if s.dev.structValid then (s.setMode .commission 1 0).commBegin true
  else (({ s with dev.commPhase := 0 } : State).wr Reg.devCommStatus 0).setMode .load 1 0

/-- Everything Table 03.8 lists as cleared. -/
def State.warmClear (s : State) : State :=
  let s1 := s.warmPackets.warmPon.warmFabric.warmNet.warmTime.warmBanks.warmSec.warmLht
  let s2 := { s1 with
    voq.hold := [], voq.dest := [], pool.baseline := none, obs.log := none, mer.wpSlots := [],
    dev.trans := none, dev.safeAt := none, dev.tookAt := none, dev.moving := none,
    obs.samplers := s1.obs.samplers.mapVals (fun _ => {}) fun x => { x with trig := none }, obs.inSlot := [] }
  s2.clearRings.clearEvents

/-- After a warm reset during a swap every pipeline restarts from the committed image, and so does every port whose personality a
move took from the new image (R34, R64). -/
def State.swapUndo (s : State) : State :=
  let b := s.dev.body.port
  let s1 := s.restartPipes
  let s2 := s1.each (List.range 48) fun n s => s.setPers n (persOf b.pon n)
  s2.each (List.range 24) fun m s => s.wrNat (Reg.netPersonality m) (netPersOf b m)

/-- A warm reset (R59, R60, R64): running operations end ABORTED with REASON 2, what Table 03.8 lists is cleared, and the device
comes up. Step 1 of a zeroisation completes first (R378). -/
def State.warmReset (s : State) : State :=
  let s0 := if s.sec.zero.isSome then s.zeroStep1 else s
  let ops := allLongOps.filter fun o => s0.busy o
  let s1 := s0.eachOp ops fun o s => s.opMark o
  let s2 := (if ops.contains .imageSwap then s1.swapUndo else s1).warmClear
  let s3 := ((s2.setBit Reg.devResetCause 3 true).warmMode).reqLost s.reqNow
  (s3.eachOp ops fun o s => s.opTell o).ponFollowAll

/-- A write of DEV_RESET (Table 03.9): the KEY, then COLD before WARM; WARM is ignored while ZEROIZE_N stays low (R379). -/
def State.resetWrite (s : State) (v : Word) : State :=
  if Machine.fld v 15 0 != 0xA5C3 then s
  else if Machine.bit v 31 then s.coldBoot 4
  else if Machine.bit v 30 && !s.dev.zeroizeLow then s.warmReset
  else s

/-- DEV_RESET_COLD (R59). -/
def execDevResetCold (val : Word) (s : State) : Host.Outcome State Fault Refusal := .next (s.resetWrite val)

/-- DEV_RESET_WARM (R59). -/
def execDevResetWarm (val : Word) (s : State) : Host.Outcome State Fault Refusal := .next (s.resetWrite val)

/-- RESET_N low for 1 µs or more causes a cold reset (R398). -/
def execResetNLow (ns : Nat) (s : State) : Host.Outcome State Fault Refusal :=
  .next (if 1000 ≤ ns then s.coldBoot 2 else s)

/-! ### HELM reset (R59, R61, R373) -/

/-- The registers of every ring but its drop counters. -/
def ringRegs : List Nat :=
  ((List.range 64).flatMap fun n =>
    [Reg.devRingPuntBaseLo n, Reg.devRingPuntBaseHi n, Reg.devRingPuntSize n, Reg.devRingInjBaseLo n, Reg.devRingInjBaseHi n,
     Reg.devRingInjSize n]) ++
  [Reg.obsLogRingBaseLo, Reg.obsLogRingBaseHi, Reg.obsLogRingSize, Reg.sxtDmaBaseLo, Reg.sxtDmaBaseHi, Reg.sxtDmaSize,
   Reg.sxtDmaStatus, Reg.evtRingBaseLo, Reg.evtRingBaseHi, Reg.evtRingSize, Reg.evtRingCfg]

/-- PERST_N falls: the ring registers return to their reset values, a running Logbook export, the role and the nonce end; traffic goes on. -/
def State.perstFall (s : State) : State :=
  let s1 := (s.each ringRegs fun a s => (s.wr a (resetOf a)).setHold a (resetOf a)).clearRings.setNonce none
  ({ s1 with dev.perstLow := true, sec.role := 0, obs.log := none } : State).setBit Reg.devResetCause 5 true

/-- PERST_N_LOW (R61). -/
def execPerstNLow (s : State) : Host.Outcome State Fault Refusal := .next s.perstFall

/-- PERST_N_DEASSERT (R55): HELM is available again. -/
def execPerstNDeassert (s : State) : Host.Outcome State Fault Refusal := .next { s with dev.perstLow := false }

/-! ### Block resets (R63, Table 03.11) -/

/-- RINGS: HEAD and TAIL of all rings to 0. -/
def State.resetRings (s : State) : State := { s.clearRings with obs.log := none }

/-- EVT: the event buffer and the event ring pointers. -/
def State.resetEvt (s : State) : State :=
  { s.each [Reg.evtRingHead, Reg.evtRingCons] (fun a s => s.wr a 0) with
    obs.buf := [], obs.phase := true, obs.since := 0, obs.firstAt := none, obs.ringReq := false }

/-- CHK: all eight units and scan engines. -/
def State.resetChk (s : State) : State :=
  let s1 := s.abortWhere (fun o => match o with | .scan _ => true | _ => false) 2 allLongOps
  s1.each (List.range 8) fun u s =>
    ((s.wrWords (Reg.chkUnitRunningLo u) [0, 0]).wrWords (Reg.chkUnitBytesLo u) [0, 0]).wr (Reg.chkUnitStatus u) 0

/-- MER: the role state; election restarts with no device heard. -/
def State.resetMer (s : State) : State :=
  let s1 := if s.mer.role = 3 then s.loseManager else s
  ({ s1 with mer := { strap := s.mer.strap, role := s.mer.role, nonce := s.mer.nonce, timeRes := s.mer.timeRes } } : State).reRank

/-- LHT: the heartbeat and sync state. -/
def State.resetLht (s : State) : State := (s.abortWhere (fun o => o == .bulkSync) 2 allLongOps).lhtClear

/-- The reset of the block of a DEV_BLK_RESET bit. -/
def State.blkReset (s : State) (b : Nat) : State :=
  match b with
  | 5 => s.resetRings
  | 4 => s.resetEvt
  | 3 => s.resetChk
  | 2 => s.resetMer
  | 1 => s.resetLht
  | _ => s

/-- A write of DEV_BLK_RESET: each bit written 1 that reads 0 starts its reset, in ascending order. -/
def State.blkResetWrite (s : State) (v : Word) : State :=
  s.each [1, 2, 3, 4, 5] fun b s =>
    if Machine.bit v b && !s.bit Reg.devBlkReset b then (s.setBit Reg.devBlkReset b true).blkReset b else s

/-- BLK_RESET_RINGS (R63). -/
def execBlkResetRings (val : Word) (s : State) : Host.Outcome State Fault Refusal := .next (s.blkResetWrite val)

/-- BLK_RESET_EVT (R63). -/
def execBlkResetEvt (val : Word) (s : State) : Host.Outcome State Fault Refusal := .next (s.blkResetWrite val)

/-- BLK_RESET_CHK (R63). -/
def execBlkResetChk (val : Word) (s : State) : Host.Outcome State Fault Refusal := .next (s.blkResetWrite val)

/-- BLK_RESET_MER (R63). -/
def execBlkResetMer (val : Word) (s : State) : Host.Outcome State Fault Refusal := .next (s.blkResetWrite val)

/-- BLK_RESET_LHT (R63). -/
def execBlkResetLht (val : Word) (s : State) : Host.Outcome State Fault Refusal := .next (s.blkResetWrite val)

/-- BLOCK_RESET_COMPLETE (R63): the bit returns to 0. -/
def execBlockResetComplete (blk : Fin 6) (s : State) : Host.Outcome State Fault Refusal :=
  .next (s.setBit Reg.devBlkReset blk.val false)

end Sys2Proof.Machine
end

