-- ==== Sys2Proof/Machine/Rings.lean ====
section
/-!
DEFINITION. Machine/Rings.lean: the punt and inject rings of HELM (R44, R45, R61, Tables 02.13 to 02.15).
-/
namespace Sys2Proof.Machine

/-! ### Punt rings (R44) -/

/-- Descriptors of punt ring `n` that the host has posted. -/
def State.puntPosted (s : State) (n : Nat) : Nat :=
  s.posted (Reg.devRingPuntSize n) (Reg.devRingPuntHead n) (Reg.devRingPuntTail n)

/-- PUNT_TAIL_WRITE (R44). -/
def execPuntTailWrite (n : Fin 64) (val : Word) (s : State) : Host.Outcome State Fault Refusal :=
  .next (s.wrTyped (Reg.devRingPuntTail n.val) val)

/-- A frame for the host: its ring, bytes 11 to 31 of its descriptors, its data. -/
structure HostFrame where
  ring : Nat
  tail : List Byte
  data : List Byte
deriving DecidableEq, Repr

/-- The frame that a staged frame toward device port 72 stands for: the punt header gives ring and descriptor fields (R260). -/
def hostFrame (f : Stored) : HostFrame :=
  let h := f.frame.bytes.take 24
  ⟨(h.headD 0).toNat % 64, (h.drop 1).take 21, f.frame.bytes.drop 24⟩

/-- The frame of a sample, whose last eight descriptor bytes are its own (R367). -/
def sampleFrame (p : Punt) : HostFrame :=
  ⟨p.ring, ((puntHeader p.ring p.reason 0 p.frame).drop 1).take 13 ++ (p.extra ++ List.replicate 8 0).take 8, p.frame.bytes⟩

/-- The next frame for the host: staging class 7 first, in arrival order within a class (R260), then samples. -/
def State.nextPunt (s : State) : Option (HostFrame × State) :=
  match [7, 6, 5, 4, 3, 2, 1, 0].findSome? fun c => headOf c (s.staging 72) with
  | some f => some (hostFrame f, s.setStaging 72 ((s.staging 72).erase f))
  | none =>
    match s.dev.punts with
    | p :: ps => some (sampleFrame p, { s with dev.punts := ps })
    | [] => none

/-- Data cut into the posted buffers in order: each buffer with its piece, and the bytes left over. -/
def intoBufs : List Byte → List HostBuf → List (HostBuf × List Byte) × List Byte
  | d, [] => ([], d)
  | d, b :: bs =>
    if d.length ≤ b.len then ([(b, d)], [])
    else
      let q := intoBufs (d.drop b.len) bs
      ((b, d.take b.len) :: q.1, q.2)

/-- A punt descriptor as the device writes it, with OWN = 0 (Table 02.14). -/
def puntDesc (b : HostBuf) (n : Nat) (sop eop trunc : Bool) (tail : List Byte) : List Byte :=
  leBytes 8 b.addr.toNat ++ leBytes 2 n ++ leBytes 1 (ofBool sop * 64 + ofBool eop * 32 + ofBool trunc * 16) ++ tail

/-- Each buffer's data, then its whole descriptor in one posted write; HEAD follows (R44). -/
def State.puntWrite (s : State) (n size : Nat) (tail : List Byte) (first trunc : Bool) : List (HostBuf × List Byte) → State
  | [] => s
  | (b, d) :: l =>
    let head := (s.rd (Reg.devRingPuntHead n)).toNat
    let base := s.rdWords (Reg.devRingPuntBaseLo n) 2
    let last := l.isEmpty
    let s1 := (s.emit (.hostWrite b.addr d)).emit
      (.hostWrite (BitVec.ofNat 64 (base + 32 * head)) (puntDesc b d.length first last (last && trunc) tail))
    (s1.wrNat (Reg.devRingPuntHead n) ((head + 1) % 2 ^ size)).puntWrite n size tail false trunc l

/-- PUNT_FRAME_DELIVERY (R44, R61): the next frame goes into posted buffers, or is dropped whole when none is posted or PERST_N is
low; a frame that runs out of them is cut, marked TRUNC and counted. In SAFE queued frames are held (Table 03.3). `bufs`:
the posted descriptors from HEAD on, as the host wrote them. -/
def State.puntDeliver (s : State) (bufs : List HostBuf) : State :=
  if s.dev.mode = .safe then s
  else
    match s.nextPunt with
    | none => s
    | some (f, s1) =>
      let n := f.ring
      let avail := bufs.take (s.puntPosted n)
      if s.dev.perstLow || avail.isEmpty then s1.bump (Reg.devRingPuntDrop n)
      else
        let q := intoBufs f.data avail
        let trunc := !q.2.isEmpty
        let s2 := s1.puntWrite n (s.rd (Reg.devRingPuntSize n)).toNat f.tail true trunc q.1
        if trunc then s2.bump (Reg.devRingPuntDrop n) else s2

/-- PUNT_FRAME_DELIVERY (R44). -/
def execPuntFrameDelivery (bufs : List HostBuf) (s : State) : Host.Outcome State Fault Refusal := .next (s.puntDeliver bufs)

/-! ### Inject rings (R45) -/

/-- Descriptors of inject ring `n` that the device owns. -/
def State.injPosted (s : State) (n : Nat) : Nat := s.posted (Reg.devRingInjSize n) (Reg.devRingInjHead n) (Reg.devRingInjTail n)

/-- INJECT_TAIL_WRITE (R45). -/
def execInjectTailWrite (n : Fin 64) (val : Word) (s : State) : Host.Outcome State Fault Refusal :=
  .next (s.wrTyped (Reg.devRingInjTail n.val) val)

/-- After its buffer has been read each descriptor's flag byte is written with OWN = 0, and HEAD follows. -/
def State.injRead (s : State) (n : Nat) (d : InjDesc) (mode : Nat) (first : Bool) : Nat → State
  | 0 => s
  | k + 1 =>
    let head := (s.rd (Reg.devRingInjHead n)).toNat
    let base := s.rdWords (Reg.devRingInjBaseLo n) 2
    let flags := ofBool first * 64 + ofBool (k == 0) * 32 + ofBool d.tsReq * 16 + mode
    let s1 := s.emit (.hostWrite (BitVec.ofNat 64 (base + 32 * head + 10)) (leBytes 1 flags))
    (s1.wrNat (Reg.devRingInjHead n) ((head + 1) % 2 ^ (s.rd (Reg.devRingInjSize n)).toNat)).injRead n d mode false k

/-- The frame of an inject descriptor: no ONU, no XGEM port, a stamp of device port 72 at the read of its last byte (R14, R77), its
transmit stamp request (R45). -/
def State.injFrame (s : State) (d : InjDesc) (data : List Byte) (cap : Raw) : Frame :=
  { bytes := data, port := d.srcPort, host := true, stamp := s.portStamp 72 true cap 0 none,
    ts := if d.tsReq then some (d.tsQueue % 8, d.tsId % 65536) else none }

/-- A frame of `count` descriptors can be read: PERST_N is high, the ring holds them, and ingress takes frames of the host (R61, Table
03.3; in STANDBY its PTP frames pass). -/
def State.injReady (s : State) (n count : Nat) : Bool :=
  !s.dev.perstLow && (s.serving || s.dev.mode == .standby) && count != 0 && decide (count ≤ s.injPosted n)

/-- INJECT_MODE_PIPELINE (R45, R14): a reserved SRC_PORT has no pipeline, and its frame is discarded. -/
def execInjectModePipeline (n : Fin 64) (desc : InjDesc) (data : List Byte) (count : Nat) (cap : Raw) (full : Bool)
    (s : State) : Host.Outcome State Fault Refusal :=
  .next (if !s.injReady n.val count then s
    else
      let s1 := s.injRead n.val desc 0 true count
      if 75 ≤ desc.srcPort then s1 else s1.frameIn (s1.injFrame desc data cap) full)

/-- INJECT_MODE_DIRECT (R45): the frame is queued toward DST_PORT of this device in its class. -/
def execInjectModeDirect (n : Fin 64) (desc : InjDesc) (data : List Byte) (count : Nat) (cap : Raw) (s : State) :
    Host.Outcome State Fault Refusal :=
  .next (if !s.injReady n.val count then s
    else
      let s1 := s.injRead n.val desc 1 true count
      let f := s1.attach (s1.injFrame desc data cap)
      if 75 ≤ desc.srcPort ∨ !s1.passes f then s1
      else
        (s1.forwardTo ⟨s1.pipeFor desc.srcPort, desc.srcPort, f, [], { ts := f.ts }, 0, false, []⟩ 0 s1.devId desc.dstPort
          (desc.cls % 8) 0).2)

end Sys2Proof.Machine
end

