-- ==== Sys2Proof/Machine/Waypoint.lean ====
section
/-!
DEFINITION. Machine/Waypoint.lean: action ticks and what waypoints do (R96, R98 to R101).
-/
namespace Sys2Proof.Machine

/-- Ticks of the time clock between action ticks (R96). -/
def tickNs : Nat := 128

/-- The next action tick: the first multiple of 128 ns after the raw value. -/
def State.nextTick (s : State) : Raw := BitVec.ofNat 96 ((s.raw.toNat / (tickNs * nsUnit) + 1) * (tickNs * nsUnit))

/-- The action of a waypoint, with the tick standing in for the register write (Table 04.10). Codes 8 to 15 do nothing. -/
def State.wpAction (s : State) (slot action arg : Nat) : State :=
  match action with
  | 1 => (s.cmpRequest (arg % 2)).wpNote 1
  | 2 => if arg % 32 < 24 then (s.gateRequest (arg % 32)).wpNote (256 + arg % 32) else s
  | 3 => (s.almRequest (arg % 2)).wpNote 3
  | 4 => (s.bankRequest Reg.dbaCommit (arg % 2)).wpNote 4
  | 5 => s.keySwitch (arg % 64) (arg / 256 % 4)
  | 6 => s.gpioPulse (arg % 8) (arg / 256 % 65536)
  | 7 => s.raise (leafOf 11 10) slot (s.rd (Reg.timeWpStatus slot) ||| BitVec.ofNat 32 (arg % 256)) (s.rd (Reg.timeWpLateness slot)) 0
  | _ => s

/-- In SAFE only GPIO pulses and events are performed (R100). -/
def safeAction (a : Nat) : Bool := a == 6 || a == 7

/-- A due slot executes (R98, R100): STATE, LATE and LATENESS, the action unless it is skipped, then NOTIFY's event and the
manager's report. -/
def State.wpExecute (s : State) (slot : Nat) (a : Armed) (now : Nat) : State :=
  let lateness := min (now - a.ns) 0xFFFFFFFF
  let late := decide (256 ≤ lateness)
  let skip := (late && a.skip) || (s.dev.mode == .safe && !safeAction a.action)
  let s1 := (s.setArmed slot none).wpShow slot (if skip then 3 else 2) late lateness
  let s2 := if skip then s1 else s1.wpAction slot a.action a.arg
  let code := if a.action = 7 then a.arg % 256 else 0
  let s3 := if a.notify then
      s2.raise (leafOf 11 10) slot (s2.rd (Reg.timeWpStatus slot) ||| BitVec.ofNat 32 code) (s2.rd (Reg.timeWpLateness slot)) 0
    else s2
  s3.wpLeft slot

/-- One slot at a tick: ARMED and due, it executes (R96). -/
def State.wpTest (s : State) (slot : Nat) : State :=
  match s.chrono.armed.get (fun _ => none) slot with
  | some a =>
    let now := cmpNs (s.viewTime a.view s.raw)
    if a.ns ≤ now then s.wpExecute slot a now else s
  | none => s

/-- An action tick: armed slots in ascending order; none is evaluated in LOAD (R96, R100). -/
def State.actionTick (s : State) : State :=
  if s.dev.mode = .load then s else s.each (s.chrono.armed.map Prod.fst) fun slot s => s.wpTest slot

/-- ACTION_TICK (R96); a running sweep goes on by a free number of slots (R238, log 112). -/
def execActionTick (s : State) : Host.Outcome State Fault Refusal := .next (s.advance s.nextTick).sweepOn.actionTick

end Sys2Proof.Machine
end

