-- ==== Sys2Proof/Machine/Windows.lean ====
section
/-!
DEFINITION. Machine/Windows.lean: the windows of BAR2 (R405 to R411). An offset counts from the start of its window.
-/
namespace Sys2Proof.Machine

/-! ### Steering and staging (R406, R407) -/

/-- Words of an entry of window 0 or 1. -/
def winWords (w : Nat) : Nat := if w = 0 then 16 else 8

/-- Word `i` of a window's staging image. -/
def State.stageAt (s : State) (w i : Nat) : Word := s.win.stage.get (fun _ => 0) (w * 16 + i)

/-- The whole staging image. -/
def State.staged (s : State) (w : Nat) : List Word := (List.range (winWords w)).map fun i => s.stageAt w i

/-- A write of DEV_WIN_SEL or DEV_WIN_BASE clears the window's staging image (R407); window 1 has TABLE alone. -/
def State.winSteer (s : State) (w : Nat) (base : Bool) (v : Word) : State :=
  let s1 :=
    if base then s.wrTyped (Reg.devWinBase w) v
    else s.wrTyped (Reg.devWinSel w) (if w = 0 then v else v &&& 0xFF)
  { s1 with win.stage := s1.win.stage.keep fun k => k / 16 != w }

/-- WINDOW_STEER_WRITE (R407). -/
def execWindowSteerWrite (w : Fin 2) (base : Bool) (val : Word) (s : State) : Host.Outcome State Fault Refusal :=
  .next (s.winSteer w.val base val)

/-- A write into window `w` stores into position i of its staging image (R407). -/
def State.winStage (s : State) (w i : Nat) (v : Word) : State :=
  { s with win.stage := s.win.stage.set (fun _ => 0) (w * 16 + i) v }

/-- The entry index of a window offset. -/
def State.winEntry (s : State) (w off : Nat) : Nat := s.fld (Reg.devWinBase w) 20 0 + off % 2 ^ 24 / (4 * winWords w)

/-- TABLE of a window. -/
def State.winTable (s : State) (w : Nat) : Nat := s.fld (Reg.devWinSel w) 7 0

/-- The direct table that window 1 maps, when the entry lies in it: sub-kinds 0 to 2 are not mapped (R406, R409). -/
def State.directHas (s : State) (t i : Nat) : Bool :=
  match s.sxtTable t with
  | some x => decide (3 ≤ x.sub) && decide (i < x.size)
  | none => false

/-- A window 0 commit is a CMP_TBL_SEL WRITE of the staged image (R408). -/
def State.chartCommit (s : State) (i : Nat) : State :=
  let r := Reg.devWinSel 0
  s.chartWrite (s.bit r 31) (s.fld r 27 24) (s.fld r 16 16) (s.winTable 0) i (s.staged 0)

/-- Window 1 commits that wait for the sequencer (R409). -/
def winqMax : Nat := 256

/-- A window 1 commit becomes a WRITE command, or is discarded and counted (R409). -/
def State.directCommit (s : State) (i : Nat) : State :=
  if !s.directHas (s.winTable 1) i then s
  else if winqMax ≤ (s.sxt.winq.filter fun c => c.repair.isNone).length then s.bump (Reg.devWinDrop 1)
  else ({ s with sxt.winq := s.sxt.winq ++ [⟨7, s.winTable 1, i, s.staged 1, none⟩] } : State).noteReady s

/-- A write into window 0 or 1 (R405, R407, R411): the last word of an entry commits the image. -/
def State.winWrite (s : State) (w off : Nat) (v : Word) : State :=
  if !s.dev.structValid || off % 4 != 0 then s
  else
    let i := off / 4 % winWords w
    let s1 := s.winStage w i v
    if i + 1 = winWords w then (if w = 0 then s1.chartCommit (s1.winEntry 0 off) else s1.directCommit (s1.winEntry 1 off)) else s1

/-- WINDOW_STAGE_WRITE (R407). -/
def execWindowStageWrite (w : Fin 2) (off : BitVec 26) (val : Word) (s : State) : Host.Outcome State Fault Refusal :=
  .next (s.winWrite w.val off.toNat val)

/-- CHART_WINDOW_COMMIT (R408). -/
def execChartWindowCommit (off : BitVec 26) (val : Word) (s : State) : Host.Outcome State Fault Refusal :=
  .next (s.winWrite 0 off.toNat val)

/-- SEXTANT_WINDOW_COMMIT (R409). -/
def execSextantWindowCommit (off : BitVec 26) (val : Word) (s : State) : Host.Outcome State Fault Refusal :=
  .next (s.winWrite 1 off.toNat val)

/-! ### Reads (R406, R407, R410, R411) -/

/-- An entry as a window shows it; none beyond the selected table. With ALL, window 0 reads pipeline 0. -/
def State.winShow (s : State) (w e : Nat) : Option (List Word) :=
  if w = 0 then
    let r := Reg.devWinSel 0
    if s.chartHas (s.winTable 0) e then
      some (s.chartAt (if s.bit r 31 then 0 else s.fld r 27 24) (s.fld r 16 16) (s.winTable 0) e)
    else none
  else if s.directHas (s.winTable 1) e then some (toWords 8 (s.directAt (s.winTable 1) e).toNat) else none

/-- Capture an entry. -/
def State.winCapture (s : State) (w : Nat) (ws : List Word) : State :=
  s.each (List.range (winWords w)) fun i s =>
    { s with win.captured := s.win.captured.set (fun _ => 0) (w * 16 + i) (ws.getD i 0) }

/-- A read of window 0 or 1: word 0 captures the entry; other words come from the captured one (R407). -/
def State.winRead (s : State) (w off : Nat) : State :=
  if !s.dev.structValid || off % 4 != 0 then s.ret 0
  else
    let i := off / 4 % winWords w
    match s.winShow w (s.winEntry w off) with
    | none => (if i = 0 then s.winCapture w [] else s).ret 0
    | some ws =>
      let s1 := if i = 0 then s.winCapture w ws else s
      s1.ret (s1.win.captured.get (fun _ => 0) (w * 16 + i))

/-- WINDOW_READ_CAPTURE (R407). -/
def execWindowReadCapture (w : Fin 2) (off : BitVec 26) (s : State) : Host.Outcome State Fault Refusal :=
  .next (s.winRead w.val off.toNat)

/-- A read of window 2 (R410): the low half of a counter captures its high half; in LOAD it reads 0 (R411). -/
def State.cntWindow (s : State) (off : Nat) : State :=
  if s.dev.mode = .load ∨ off % 4 ≠ 0 then s.ret 0
  else if off % 8 = 0 then
    let c := (s.cntGet (off % 2 ^ 25 / 8)).toNat
    ({ s with win.cntHigh := BitVec.ofNat 32 (c / 2 ^ 32) } : State).ret (BitVec.ofNat 32 c)
  else s.ret s.win.cntHigh

/-- COUNTER_WINDOW_READ (R410). -/
def execCounterWindowRead (off : BitVec 26) (s : State) : Host.Outcome State Fault Refusal := .next (s.cntWindow off.toNat)

end Sys2Proof.Machine
end

