-- ==== Sys2Proof/Machine/HostWrite.lean ====
section
/-!
DEFINITION. Machine/HostWrite.lean: reads and writes of BAR0 registers by address (R5 to R9, R403): what a write does beyond
storing, what a read returns and does, multi-word values. The three Meridian GO triggers, which themselves write registers, and
the commands that access registers are in Machine/Meridian.lean and Machine/Access.lean.
-/
namespace Sys2Proof.Machine

/-- The value listed for a register's base, if any. -/
def atBase {α : Type} (b : Nat) : List (Nat × α) → Option α
  | [] => none
  | (x, f) :: l => if x = b then some f else atBase b l

/-- An effect of a write: the two indices, the value written, the state. -/
abbrev WriteFx := Nat → Nat → Word → State → State

/-- An effect of an access that reads: the two indices, the state. -/
abbrev ReadFx := Nat → Nat → State → State

/-! ### Writes (R9) -/

/-- Writes that do more than Table 00.5 says, of the device, power, time, PON, activation, Reckoner and XGEM blocks. -/
def writeFx1 : List (Nat × WriteFx) := [
  (Reg.devMode, fun _ _ v s => s.modeWrite v),
  (Reg.devReset, fun _ _ v s => s.resetWrite v),
  (Reg.devBlkReset, fun _ _ v s => s.blkResetWrite v),
  (Reg.devWinSel 0, fun i _ v s => s.winSteer i false v),
  (Reg.devWinBase 0, fun i _ v s => s.winSteer i true v),
  (Reg.devImgOpCtrl, fun _ _ v s => s.imgCtrlWrite v),
  (Reg.devSwapOpCtrl, fun _ _ v s => s.swapCtrlWrite v),
  (Reg.devBistOpCtrl, fun _ _ v s => s.bistCtrlWrite v),
  (Reg.pwrCageCtrl 0, fun i _ v s => s.cageWrite i v),
  (Reg.timeSnapCtrl, fun _ _ v s => s.snapWrite v),
  (Reg.timePonCfg, fun _ _ v s => s.ponCfgWrite v s.anyTx),
  (Reg.timeTodOutData, fun _ _ v s => s.todAppend v),
  (Reg.timeTodOutCtrl, fun _ _ v s => s.todCtrl v),
  (Reg.timeGpioCfg 0, fun i _ v s => s.gpioWrite i v),
  (Reg.timeWpCtrl 0, fun i _ v s => s.wpCtrlWrite i v),
  (Reg.ponLineCfg 0, fun i _ v s => s.lineCfgWrite i v),
  (Reg.ponRssiCtrl 0, fun i _ v s => s.rssiWrite i v),
  (Reg.actPloamTxCmd, fun _ _ v s => s.ploamTx v),
  (Reg.actCmd, fun _ _ v s => s.actCmdWrite v),
  (Reg.actSntabCmd, fun _ _ v s => s.snCmd v),
  (Reg.dbaAllocSel, fun _ _ v s => s.allocSelWrite v),
  (Reg.dbaCommit, fun _ _ v s => s.dbaCommitWrite v),
  (Reg.dbaBookCmd, fun _ _ v s => s.bookCmdWrite v),
  (Reg.xgmBindSel, fun _ _ v s => s.bindSelWrite v),
  (Reg.xgmDsqSel, fun _ _ v s => s.dsqSelWrite v),
  (Reg.xgmKeyData 0, fun i _ v s => s.keyDataWrite i v),
  (Reg.xgmKeySel, fun _ _ v s => s.keySelWrite v),
  (Reg.xgmKeyCmd, fun _ _ v s => s.keyCmdWrite v)]

/-- The same of Compass, the Sextant, the pool, the VOQs, the Almanac, Rhumb and the network ports. -/
def writeFx2 : List (Nat × WriteFx) := [
  (Reg.cmpTblSel, fun _ _ v s => s.tblSelWrite v),
  (Reg.cmpCommit, fun _ _ v s => s.cmpCommitWrite v),
  (Reg.sxtCmd, fun _ _ v s => s.sxtCmdWrite v),
  (Reg.sxtDmaSize, fun _ _ v s => s.dmaSizeWrite v),
  (Reg.sxtRehashOpCtrl, fun _ _ v s => s.rehashCtrlWrite v),
  (Reg.sxtTrieOpCtrl, fun _ _ v s => s.trieCtrlWrite v),
  (Reg.sxtFixOpCtrl, fun _ _ v s => s.fixCtrlWrite v),
  (Reg.poolAuditOpCtrl, fun _ _ v s => s.auditCtrlWrite v),
  (Reg.poolSweepOpCtrl, fun _ _ v s => s.sweepCtrlWrite v),
  (Reg.voqMapSel, fun _ _ v s => s.mapSelWrite v),
  (Reg.voqQSel, fun _ _ v s => s.qSelWrite v),
  (Reg.almNodeSel, fun _ _ v s => s.nodeSelWrite v),
  (Reg.almProfSel, fun _ _ v s => s.profSelWrite v),
  (Reg.almPolSel, fun _ _ v s => s.polSelWrite v),
  (Reg.almCommit, fun _ _ v s => s.almCommitWrite v),
  (Reg.almNetClass 0, fun i _ v s => (s.wrTyped (Reg.almNetClass i) v).settle),
  (Reg.almGateEntSel, fun _ _ v s => s.gateEntSelWrite v),
  (Reg.almGateCtrl 0, fun i _ v s => s.gateCtrlWrite i v),
  (Reg.almGateAdminBaseNs 0, fun i _ v s => s.gateAdmin i fun s => s.wrTyped (Reg.almGateAdminBaseNs i) v),
  (Reg.almGateAdminCycleNs 0, fun i _ v s => s.gateAdmin i fun s => s.wrTyped (Reg.almGateAdminCycleNs i) v),
  (Reg.almGateAdminLen 0, fun i _ v s => s.gateAdmin i fun s => s.wrTyped (Reg.almGateAdminLen i) v),
  (Reg.rhbReach 0, fun i _ v s => s.reachWrite i v),
  (Reg.rhbCtrl, fun _ _ v s => s.rhbCtrlWrite v),
  (Reg.rhbGrpCfg 0, fun i _ v s => s.grpCfgWrite i v),
  (Reg.netPortCfg 0, fun i _ v s => s.netCfgWrite i v),
  (Reg.netSecSaSel 0, fun i _ v s => s.saSelWrite i v),
  (Reg.netSecSaKey 0 0, fun i j v s => s.saWordWrite i j v),
  (Reg.netSecSaSalt 0 0, fun i j v s => s.saWordWrite i (8 + j) v),
  (Reg.netSecSaSsci 0, fun i _ v s => s.saWordWrite i 11 v),
  (Reg.netSecRxscCtrl 0, fun i _ v s => s.rxscWrite i v)]

/-- The same of Lighthouse, Meridian, the check-value units, events, counters and the security block. -/
def writeFx3 : List (Nat × WriteFx) := [
  (Reg.lhtSyncOpCtrl, fun _ _ v s => s.syncCtrlWrite v),
  (Reg.merCtrl, fun _ _ v s => (s.wrTyped Reg.merCtrl v).reRank),
  (Reg.chkInj, fun _ _ v s => s.injWrite v),
  (Reg.chkUnitCfg 0, fun i _ v s => s.unlessScan i fun s => s.wrTyped (Reg.chkUnitCfg i) v),
  (Reg.chkUnitSeq 0, fun i _ v s => s.unlessScan i fun s => s.wrTyped (Reg.chkUnitSeq i) v),
  (Reg.chkUnitRestart 0, fun i _ v s => s.unitRestartWrite i v),
  (Reg.chkUnitFeed 0, fun i _ v s => s.unitFeedWrite i v),
  (Reg.chkUnitFeed1 0, fun i _ v s => s.unitFeed1Write i v),
  (Reg.chkScanOpCtrl 0, fun i _ v s => s.scanCtrlWrite i v),
  (Reg.evtVecAck, fun _ _ v s => s.vecAck v),
  (Reg.obsCntSel, fun _ _ v s => s.cntSelWrite v),
  (Reg.obsThrCfg 0, fun i _ v s => s.thrWrite i false v),
  (Reg.obsThrLevel 0, fun i _ v s => s.thrWrite i true v),
  (Reg.obsSlotClear, fun _ _ v s => s.slotClear v),
  (Reg.secAuthCmd, fun _ _ v s => s.authCmd v),
  (Reg.secAuthData 0, fun i _ v s => { s with sec.authData := s.sec.authData.set (fun _ => 0) i v }),
  (Reg.secPairKey 0, fun i _ v s => { s with sec.pairData := s.sec.pairData.set (fun _ => 0) i v }),
  (Reg.secPairCtrl, fun _ _ v s => s.pairWrite v),
  (Reg.secOtpProg, fun _ _ v s => s.otpWrite v),
  (Reg.secZeroOpCtrl, fun _ _ v s => s.zeroCtrlWrite v)]

/-- What a write of the register at `b` does beyond storing. -/
def writeFx (b : Nat) : Option WriteFx :=
  match atBase b writeFx1 with
  | some f => some f
  | none =>
    match atBase b writeFx2 with
    | some f => some f
    | none => atBase b writeFx3

/-- Registers of a network port with personality NONE, and the NET_SEC_ registers of the management ports, read 0 and ignore
writes; NET_PERSONALITY itself says that the port is NONE (chapter 14). -/
def State.regMapped (s : State) (d : RegD) (i : Nat) : Bool :=
  if 0x0E01000 ≤ d.base ∧ d.base < 0x0F00000 ∧ d.base ≠ Reg.netPersonality 0 then
    s.netMapped i (decide (0x100 ≤ d.base % 0x1000) && decide (d.base % 0x1000 < 0x200))
  else true

/-- The registers of a check-value unit that its running scan keeps from being written (R351). -/
def unitReg (b : Nat) : Bool := decide (Reg.chkUnitPolyLo 0 ≤ b) && decide (b ≤ Reg.chkUnitExpectHi 0)

/-- The words of BASE in a gate list's admin parameters, which a pending switch keeps from being written (R269). -/
def adminBase (b : Nat) : Bool := b == Reg.almGateAdminBaseSecLo 0 || b == Reg.almGateAdminBaseSecHi 0

/-- A write of a word of a multi-word value that the unit's scan (R351) or a pending gate list switch (R269) may refuse. -/
def State.unlessUnit (s : State) (b i : Nat) (f : State → State) : State :=
  if unitReg b then s.unlessScan i f else if adminBase b then s.gateAdmin i f else f s

/-- Store the held values of the `k` words below address `a`, the lowest first (R6). -/
def State.commitLow (s : State) (a : Nat) : Nat → State
  | 0 => s
  | k + 1 => (s.wrTyped (a - 4 * (k + 1)) (s.holdOf (a - 4 * (k + 1)))).commitLow a k

/-- The highest word of a multi-word value is written: the value takes effect whole (R6). -/
def State.commitHigh (s : State) (b i n a : Nat) (v : Word) : State :=
  if b = Reg.timeViewRateHi 0 then s.rateCommit i v
  else if b = Reg.timeViewOffsetW2 0 then s.offsetCommit i v
  else if b = Reg.timeViewStepHi 0 then s.stepCommit i v
  else if b = Reg.chkUnitRunningHi 0 then s.unitRunningWrite i v
  else s.unlessUnit b i fun s => (s.commitLow a (n - 1)).wrTyped a v

/-- Registers through which keys enter (R374). -/
def keyEntry (b : Nat) : Bool :=
  b == Reg.xgmKeySel || b == Reg.xgmKeyData 0 || b == Reg.netSecSaSel 0 || b == Reg.netSecSaKey 0 0 ||
    b == Reg.netSecSaSalt 0 0 || b == Reg.netSecSaSsci 0

/-- A 32-bit write of the register at BAR0 offset `a`, from the host or, with `fan`, by Meridian fan-out (R6, R8, R9, R374). -/
def State.regWrite (s : State) (a : Nat) (v : Word) (fan : Bool) : State :=
  match regAt a with
  | none => s
  | some (d, i, j) =>
    if fan && keyEntry d.base then s.denied
    else if !s.regMapped d i then s
    else
      match d.words with
      | .part k n =>
        if k + 1 < n then s.unlessUnit d.base i fun s => s.setHold a v else s.commitHigh d.base i n a v
      | _ =>
        match writeFx d.base with
        | some f => f i j v s
        | none => s.wrTyped a v

/-! ### Reads (R6, R9) -/

/-- The superframe count of the frame in transmission: while no port transmits, that of the PON view (R93, R94). -/
def State.sfNow (s : State) : Nat :=
  if s.anyTx then s.chrono.ponSf else (s.viewTime (s.fld Reg.timePonCfg 3 0) s.raw).toNat / (125000 * nsUnit) % 2 ^ 51

/-- TIME_PON_PHASE_ERR in whole ns, 0 while no port transmits (R93). The part below 1 ns is rounded toward minus infinity: DESIGN
CHOICE, log 121. -/
def State.phaseNs (s : State) : Int := if s.anyTx then s.chrono.ponErr / (65536 * 8000) else 0

/-- The states of MER_TGT (Table 16.5): what this device hears of `d` and has outstanding for it. -/
def State.tgtWord (s : State) (d : Nat) : Word :=
  let t := s.mer.targets.get (fun _ => {}) d
  let (st, mgmt) :=
    match s.mer.heard.get (fun _ => none) d with
    | some h => (if t.unreached then 2 else if h.safe then 3 else 1, h.mgmt)
    | none => (if t.unreached then 2 else 0, false)
  BitVec.ofNat 32 (st * 2 ^ 30 + ofBool mgmt * 2 ^ 29 + ofBool t.refused * 2 ^ 28 + t.seq % 65536)

/-- MER_STATUS (Table 16.5). -/
def State.merStatus (s : State) : Word :=
  BitVec.ofNat 32
    (s.mer.role % 4 * 2 ^ 30 + s.mer.strap % 4 * 2 ^ 26 + (s.mer.mgr.getD 0) % 1024 * 2 ^ 16 +
      ofBool s.mer.standby.isSome * 2 ^ 15 + (s.mer.standby.getD 0) % 1024)

/-- Words of MER_TIME_RES (Table 16.5): offset, delay, exchanges. -/
def State.timeResWord (s : State) (v w : Nat) : Word :=
  let x := s.mer.timeRes.get (fun _ => (0, 0, 0)) v
  match w with
  | 0 => BitVec.ofNat 32 x.1.toNat
  | 1 => BitVec.ofNat 32 (x.1.toNat / 2 ^ 32)
  | 2 => x.2.1
  | _ => x.2.2

/-- What read-only registers that follow the state return, in the blocks from DEV_ to POOL_. -/
def valueFx1 : List (Nat × (Nat → Nat → State → Word)) := [
  (Reg.devMode, fun _ _ s => s.modeWord),
  (Reg.pwrCageStatus 0, fun i _ s => cageStatus (s.cage i)),
  (Reg.timeRawW0, fun _ _ s => BitVec.ofNat 32 s.raw.toNat),
  (Reg.timeRawW1, fun _ _ s => BitVec.ofNat 32 (s.raw.toNat / 2 ^ 32)),
  (Reg.timeRawW2, fun _ _ s => BitVec.ofNat 32 (s.raw.toNat / 2 ^ 64)),
  (Reg.timeTxtsLevel 0, fun i _ s => BitVec.ofNat 32 (s.txts i).length),
  (Reg.timePonPhaseErr, fun _ _ s => BitVec.ofInt 32 s.phaseNs),
  (Reg.timePonSfLo, fun _ _ s => BitVec.ofNat 32 s.sfNow),
  (Reg.timePonSfHi, fun _ _ s => BitVec.ofNat 32 (s.sfNow / 2 ^ 32)),
  (Reg.timeGpioCfg 0, fun i _ s => Machine.setBit (s.rd (Reg.timeGpioCfg i)) 2 (s.pinLevel i)),
  (Reg.actPortStatus 0, fun i _ s => s.actPortStatus i),
  (Reg.actPloamRxLevel, fun _ _ s => BitVec.ofNat 32 s.act.rx.length),
  (Reg.actOnuW0 0 0, fun i j s => s.onuWordAt i j 0),
  (Reg.actOnuW1 0 0, fun i j s => s.onuWordAt i j 1),
  (Reg.actOnuW2 0 0, fun i j s => s.onuWordAt i j 2),
  (Reg.actOnuW3 0 0, fun i j s => s.onuWordAt i j 3),
  (Reg.dbaBookLevel, fun _ _ s => BitVec.ofNat 32 s.rck.books.length),
  (Reg.xgmKeyLevel, fun _ _ s => BitVec.ofNat 32 s.keyLevel),
  (Reg.xgmReasmLevel, fun _ _ s => BitVec.ofNat 32 s.reasmUnits),
  (Reg.cmpEpochStatus, fun _ _ s => s.epochStatus),
  (Reg.sxtEmStatus, fun _ _ s => Machine.setFld (s.rd Reg.sxtEmStatus) 22 0 s.emUsed),
  (Reg.sxtDynCount, fun _ _ s => BitVec.ofNat 32 s.dynCount),
  (Reg.sxtLearnLevel, fun _ _ s => BitVec.ofNat 32 s.sxt.learns.length),
  (Reg.sxtNoteLevel, fun _ _ s => BitVec.ofNat 32 s.sxt.notes.length),
  (Reg.poolFreeTotal, fun _ _ s => BitVec.ofNat 32 s.freeTotal),
  (Reg.poolQueued, fun _ _ s => BitVec.ofNat 32 s.queuedTotal),
  (Reg.poolInflight, fun _ _ s => BitVec.ofNat 32 s.inflightTotal),
  (Reg.poolMcQueueLevel, fun _ _ s => BitVec.ofNat 32 s.pool.mcq.length),
  (Reg.poolFreeCnt 0, fun i _ s => BitVec.ofNat 32 (s.freeCnt i))]

/-- The same in the blocks from ALM_ to SEC_. -/
def valueFx2 : List (Nat × (Nat → Nat → State → Word)) := [
  (Reg.almGateStatus 0, fun i _ s => (if s.gateRuns i then s.gateShow i else s).rd (Reg.almGateStatus i)),
  (Reg.rhbStatus, fun _ _ s =>
    Machine.setBit (s.rd Reg.rhbStatus) 31 (s.rhb.toward.any fun e => e.2.drain.isSome)),
  (Reg.merStatus, fun _ _ s => s.merStatus),
  (Reg.merTgt 0, fun i _ s => s.tgtWord i),
  (Reg.merTimeRes 0 0, fun i j s => s.timeResWord i j),
  (Reg.chkErrLevel, fun _ _ s => BitVec.ofNat 32 s.chk.log.length),
  (Reg.chkUnitResultLo 0, fun i _ s => BitVec.ofNat 32 (s.unitResult i)),
  (Reg.chkUnitResultHi 0, fun i _ s => BitVec.ofNat 32 (s.unitResult i / 2 ^ 32)),
  (Reg.evtSummaryLo, fun _ _ s => BitVec.ofNat 32 (s.summary 0 32)),
  (Reg.evtSummaryHi, fun _ _ s => BitVec.ofNat 32 (s.summary 32 8)),
  (Reg.evtVecPendLo, fun _ _ s => BitVec.ofNat 32 (s.vecPendWord 0 32)),
  (Reg.evtVecPendHi, fun _ _ s => BitVec.ofNat 32 (s.vecPendWord 32 32)),
  (Reg.evtBufLevel, fun _ _ s => BitVec.ofNat 32 s.obs.buf.length),
  (Reg.obsSlot 0 0, fun i j s => (slotWords (s.obs.slots.get (fun _ => {}) i)).getD j 0),
  (Reg.secStatus, fun _ _ s => s.secStatus),
  (Reg.secAuthStatus, fun _ _ s => s.authStatus),
  (Reg.secOtpCfg, fun _ _ s => otpCfg s.sec.otp),
  (Reg.secOtpKeyhash 0 0, fun i j s =>
    BitVec.ofNat 32 (((s.sec.otp.keyHash.getD i none).getD 0).toNat / 2 ^ (32 * j)))]

/-- The current value of a register word: what the state makes of it, else what is stored; WO bits read 0 (R9). -/
def State.valueAt (s : State) (d : RegD) (i j a : Nat) : Word :=
  let f := match atBase d.base valueFx1 with
    | some f => some f
    | none => atBase d.base valueFx2
  (match f with
    | some f => f i j s
    | none => s.rd a) &&& ~~~d.woMask

/-- A rail's telemetry is what its regulator answers: a free value; 0 for a rail that is off (Table 20.12). -/
def State.railRead (s : State) (k : Nat) : State :=
  if k < s.pwr.railsOn then
    let (i, s1) := s.draw
    s1.ret (Config.freeWord i)
  else s.ret 0

/-- Reads that remove a queue record or act otherwise beyond Table 00.5. -/
def readFx : List (Nat × ReadFx) := [
  (Reg.pwrRailV 0, fun i _ s => s.railRead i),
  (Reg.pwrRailI 0, fun i _ s => s.railRead i),
  (Reg.timeTxtsW0 0, fun i _ s => s.txtsRead i),
  (Reg.timeTodInData, fun _ _ s => s.todRead),
  (Reg.actPloamRxHdr, fun _ _ s => s.rxRead),
  (Reg.dbaBookStatus, fun _ _ s => s.bookSettle.ret (s.bookSettle.rd Reg.dbaBookStatus)),
  (Reg.dbaBookFirstFrame, fun _ _ s => s.bookSettle.ret (s.bookSettle.rd Reg.dbaBookFirstFrame)),
  (Reg.xgmKeyResult, fun _ _ s => s.keyResultRead),
  (Reg.xgmLastSpoof, fun _ _ s => s.spoofRead),
  (Reg.sxtNoteHdr, fun _ _ s => s.noteRead),
  (Reg.chkErrHdr, fun _ _ s => s.errLogRead)]

/-- Capture the current values of `n` words from address `a` (R6). -/
def State.capture (s : State) (a : Nat) : Nat → State
  | 0 => s
  | n + 1 =>
    let v := match regAt a with
      | some (d, i, j) => s.valueAt d i j a
      | none => 0
    (s.setCap a v).capture (a + 4) n

/-- Reading the lowest word of a value captures all of it and returns it (R6); CHK_UNIT_RUNNING captures CHK_UNIT_BYTES with it
(R351). -/
def State.readLow (s : State) (b i a n : Nat) : State :=
  let s1 := s.capture a n
  let s2 := if b = Reg.chkUnitRunningLo 0 then s1.capture (Reg.chkUnitBytesLo i) 2 else s1
  s2.ret (s2.capOf a)

/-- A read of a plain register: its current value; RC fields clear (R9). -/
def State.readPlain (s : State) (d : RegD) (i j a : Nat) : State :=
  let s1 := s.ret (s.valueAt d i j a)
  s1.wr a (s1.rd a &&& ~~~d.rcMask)

/-- A 32-bit read of the register at BAR0 offset `a` (R6, R8, R9). -/
def State.regRead (s : State) (a : Nat) : State :=
  match regAt a with
  | none => s.ret 0
  | some (d, i, j) =>
    if !s.regMapped d i then s.ret 0
    else
      match d.words with
      | .part 0 n => if d.base = Reg.chkUnitBytesLo 0 then s.ret (s.capOf a) else s.readLow d.base i a n
      | .part _ _ => s.ret (s.capOf a)
      | .along n => if j = 0 then s.readLow d.base i a n else s.ret (s.capOf a)
      | .single =>
        match atBase d.base readFx with
        | some f => f i j s
        | none => s.readPlain d i j a

end Sys2Proof.Machine
end

