-- ==== Sys2Proof/Machine/Meridian.lean ====
section
/-!
DEFINITION. Machine/Meridian.lean: Meridian's messages: announces, fan-out, waypoint reports, time alignment, collection and
forwarded events (R328 to R341).
-/
namespace Sys2Proof.Machine

/-! ### Messages (R330, R331) -/

/-- CHECK holds (R331). -/
def merGood (m : MerMsg) : Bool := m.check == merCheck (merRaw m)

/-- A message is for this device and sound: its CHECK holds, and it is addressed to the device or broadcast (R331). -/
def State.merFor (s : State) (m : MerMsg) : Bool := merGood m && (m.bcast || m.dest == s.devId)

/-- A period has passed since `last` (R329, R337). -/
def State.periodPassed (s : State) (last : Option Raw) (us : Nat) : Bool :=
  match last with
  | some t => s.reached (t + BitVec.ofNat 96 (us * usRaw))
  | none => true

/-- A received message: discarded by a device of role NONE (R328), counted when it is not for the device (R331), else met by
`f`. -/
def State.merIn (s : State) (m : MerMsg) (f : State → State) : State :=
  if s.mer.role = 0 then s else if !s.merFor m then s.bump Reg.merMsgBad else f s

/-- A worker that sees the pair (manager, NONCE) change expects SEQ 0 again, and carries the NONCE itself (R330). -/
def State.seePair (s : State) (m : MerMsg) : State :=
  let s1 := if s.mer.role = 3 then s else { s with mer.nonce := m.nonce }
  if s.mer.seenMgr = some (m.src, m.nonce) then s1
  else { s1 with mer.seenMgr := some (m.src, m.nonce), mer.expect := 0, mer.last := none }

/-- What this device hears of `d`. -/
def State.heardOf (s : State) (d : Nat) : Option Heard := s.mer.heard.get (fun _ => none) d

/-- The devices heard. -/
def State.heardDevs (s : State) : List Nat := (s.mer.heard.filter fun e => e.2.isSome).map Prod.fst

/-! ### Announces (R329, R338, R341) -/

/-- This device is a protected standby: STANDBY with LHT_CTRL.ENABLE (R332). -/
def State.protectedStandby (s : State) : Bool := s.dev.mode == .standby && s.bit Reg.lhtCtrl 0

/-- The body of this device's ANNOUNCE. -/
def State.announceBody (s : State) : MerBody :=
  .announce (tierOf s.mer.strap) s.ownPrio s.mer.role (s.fld Reg.merGroup 3 0) (s.dev.mode == .safe) s.protectedStandby

/-- An ANNOUNCE, ANNOUNCE_MS after the last, to every device in reach, and a broadcast copy on every management port that is up. -/
def State.announceSend (s : State) : State :=
  if s.mer.role = 0 ∨ s.dev.mode = .safe ∨ !s.periodPassed s.mer.announced (1000 * s.announceMs) then s
  else
    let s0 := { s with mer.announced := some s.raw }
    let s1 := s0.each (s.reachable.filter fun d => d != s.devId) fun d s => s.sendMer d (s.merMsg d 0 s.announceBody)
    s1.each ([24, 25].filter fun i => s1.bit (Reg.netPortStatus i) 31) fun i s =>
      s.emit (.meridian (49 + i) (s.merFrame (sealMer { s.merMsg 0 0 s.announceBody with bcast := true })))

/-- ANNOUNCE_SEND (R329). -/
def execAnnounceSend (at' : Raw) (s : State) : Host.Outcome State Fault Refusal := .next (s.advance at').announceSend

/-- An ANNOUNCE makes its sender heard, and the candidates are ranked anew (R329). -/
def State.announceIn (s : State) (m : MerMsg) (viaMgmt : Bool) : State :=
  s.merIn m fun s =>
    match m.body with
    | .announce tier prio role group safe standby =>
      if m.src = s.devId then s
      else
        let h : Heard := ⟨tier, prio, role, m.strap, group, safe, standby, s.raw, viaMgmt⟩
        let s1 := ({ s with mer.heard := s.mer.heard.set (fun _ => none) m.src (some h) } : State).reRank
        if role = 3 && s1.mer.mgr == some m.src then s1.seePair m else s1
    | _ => s

/-- ANNOUNCE_RECEIVE (R329). -/
def execAnnounceReceive (msg : MerMsg) (viaMgmt : Bool) (s : State) : Host.Outcome State Fault Refusal :=
  .next (s.announceIn msg viaMgmt)

/-- A device is no longer heard after MER_LOSS × ANNOUNCE_MS without an ANNOUNCE (R329). -/
def State.heardEnd (s : State) (d : Nat) : State :=
  match s.heardOf d with
  | some h =>
    if h.at'.toNat + s.merLoss * s.announceMs * 1000000 * nsUnit ≤ s.raw.toNat then
      ({ s with mer.heard := s.mer.heard.set (fun _ => none) d none } : State).reRank
    else s
  | none => s

/-- HEARD_TIMEOUT (R329). -/
def execHeardTimeout (d : Fin 1024) (at' : Raw) (s : State) : Host.Outcome State Fault Refusal :=
  .next ((s.advance at').heardEnd d.val)

/-! ### A record on its target (R333, R334) -/

/-- An offset that a target refuses (R334). -/
def fanRefuses (a : Nat) : Bool :=
  decide (a < 0x0200000) || (decide (0x1000000 ≤ a) && decide (a < 0x1100000)) || decide (0x1300000 ≤ a)

/-- The waypoint slot of a record with WP_REPORT is reported when it leaves ARMED (R336). -/
def State.wpWatch (s : State) (slot : Nat) (on : Bool) : State :=
  if on && !s.mer.wpSlots.contains slot then { s with mer.wpSlots := s.mer.wpSlots ++ [slot] } else s

/-- Host writes of pairs in order, in consecutive clocks (R333). -/
def State.writeAll (s : State) : List (Nat × Word) → State
  | [] => s
  | [p] => s.regWrite p.1 p.2 true
  | p :: q :: ps => ((s.regWrite p.1 p.2 true).elapse 1).writeAll (q :: ps)

/-- A record is applied as host writes, its waypoint slot watched where `wp` asks for it, or it is refused whole and counted; with the
status of its acknowledgement (R334, R336). -/
def State.fanApply (s : State) (slot : Nat) (wp : Bool) (pairs : List (Nat × Word)) : Nat × State :=
  if pairs.any fun p => fanRefuses p.1 then (1, s.bump Reg.merFanRefused) else (0, (s.wpWatch slot wp).writeAll pairs)

/-- The acknowledgement of the last record answered. -/
def State.sendAck (s : State) (m : MerMsg) : State := s.sendMer m.src (s.merMsg m.src m.seq (.ack s.mer.lastStatus))

/-- A FAN message (R333): the expected SEQ is applied and acknowledged, a duplicate of the last acknowledged again, any other
discarded; a record without pairs and SEQ 0 resynchronises. A device in SAFE applies none (R338). -/
def State.fanIn (s : State) (m : MerMsg) : State :=
  s.merIn m fun s =>
    match m.body with
    | .fan slot wp pairs =>
      if s.dev.mode = .safe then s
      else
        let s1 := s.seePair m
        if s1.mer.last = some m then s1.sendAck m
        else if pairs = [] ∧ m.seq = 0 then
          ({ s1 with mer.expect := 1, mer.last := some m, mer.lastStatus := 0 } : State).sendAck m
        else if m.seq = BitVec.ofNat 32 s1.mer.expect then
          let r := s1.fanApply slot wp pairs
          ({ r.2 with mer.expect := s1.mer.expect + 1, mer.last := some m, mer.lastStatus := r.1 } : State).sendAck m
        else s1
    | _ => s

/-- FAN_RECEIVE (R333). -/
def execFanReceive (msg : MerMsg) (s : State) : Host.Outcome State Fault Refusal := .next (s.fanIn msg)

/-! ### The manager's targets (R332, R333) -/

/-- What is outstanding for target `d`. -/
def State.tgt (s : State) (d : Nat) : Target := s.mer.targets.get (fun _ => {}) d

/-- Replace it. -/
def State.setTgt (s : State) (d : Nat) (t : Target) : State :=
  { s with mer.targets := s.mer.targets.set (fun _ => {}) d t }

/-- The next message of a target's queue leaves while none is in flight. -/
def State.tgtNext (s : State) (d : Nat) : State :=
  let t := s.tgt d
  match t.flight, t.queue with
  | none, b :: bs =>
    if t.unreached then s
    else
      let m := s.merMsg d (BitVec.ofNat 32 t.seq) b
      (s.setTgt d { t with seq := t.seq + 1, flight := some (m, 0, s.raw), queue := bs }).sendMer d m
  | _, _ => s

/-- A message joins a target's queue. -/
def State.tgtPut (s : State) (d : Nat) (b : MerBody) : State :=
  (s.setTgt d { s.tgt d with queue := (s.tgt d).queue ++ [b] }).tgtNext d

/-- Remove `d` from the first record that lists it. -/
def eraseFirst (d : Nat) : List (List Nat) → List (List Nat)
  | [] => []
  | r :: rs => if r.contains d then r.erase d :: rs else r :: eraseFirst d rs

/-- Store the open records; those that every target has answered are complete, leave the queue and count (R333). -/
def State.setOpen (s : State) (l : List (List Nat)) : State :=
  let left := l.filter fun r => !r.isEmpty
  (({ s with mer.open' := left } : State).wrNat Reg.merFanDone ((s.rd Reg.merFanDone).toNat + (l.length - left.length))).setFld
    Reg.merFanStatus 8 0 left.length

/-- Store the targets of the running collect that have not replied; with none left it is complete (R339). -/
def State.setCollect (s : State) (l : List Nat) : State :=
  if l = [] then ({ s with mer.collect := none } : State).setBit Reg.merCollStatus 31 false
  else { s with mer.collect := some l }

/-- Refuse a fan-out GO with a cause (R332). -/
def State.fanRefuse (s : State) (cause : Nat) : State :=
  (s.setBit Reg.merFanStatus 31 true).setFld Reg.merFanStatus 27 24 cause

/-- The devices in a group mask, this one included (R332). -/
def State.inGroups (s : State) (mask : Nat) : List Nat :=
  let on (g : Nat) : Bool := mask / 2 ^ (g % 16) % 2 == 1
  (if on (s.fld Reg.merGroup 3 0) then [s.devId] else []) ++
    s.heardDevs.filter fun d => match s.heardOf d with | some h => on h.group | none => false

/-- The devices that a scope names (R332). SCOPE 3 is not in the table and names none: DESIGN CHOICE, log 129. -/
def State.scopeDevs (s : State) (scope dest mask : Nat) : List Nat :=
  match scope with
  | 0 => s.devId :: s.heardDevs
  | 1 => [dest]
  | 2 => s.inGroups mask
  | _ => []

/-- A protected standby (R332). -/
def State.isProtected (s : State) (d : Nat) : Bool :=
  if d = s.devId then s.protectedStandby
  else match s.heardOf d with
    | some h => h.standby
    | none => false

/-- The manager's own share of a record, applied locally with no message (R333, R334). -/
def State.fanLocal (s : State) (slot : Nat) (wp : Bool) (pairs : List (Nat × Word)) : State :=
  let r := s.fanApply slot wp pairs
  r.2.setTgt r.2.devId { r.2.tgt r.2.devId with refused := r.1 == 1 }

/-- The staged pairs of MER_FAN_WR (Table 16.5). -/
def State.fanPairs (s : State) (n : Nat) : List (Nat × Word) :=
  (List.range n).map fun k => (s.fld (Reg.merFanWrOff k) 27 2 * 4, s.rd (Reg.merFanWrVal k))

/-- A write of MER_FAN_CMD: GO makes a record, or is refused (R332). -/
def State.fanGo (s : State) (v : Word) : State :=
  let s1 := s.wrTyped Reg.merFanCmd v
  if !Machine.bit v 31 then s1
  else if s1.mer.role ≠ 3 then s1.fanRefuse 1
  else if 256 ≤ s1.mer.open'.length then s1.fanRefuse 2
  else
    let s2 := (s1.setFld Reg.merFanStatus 31 30 0).setFld Reg.merFanStatus 27 24 0
    let mask := Machine.fld v 23 16 + 256 * Machine.fld v 15 8
    let devs := (s2.scopeDevs (Machine.fld v 28 27) (s2.fld Reg.merFanDest 9 0) mask).filter fun d =>
      Machine.bit v 30 || !s2.isProtected d
    let slot := s2.fld Reg.merFanDest 24 16
    let wp := Machine.bit v 29
    let pairs := s2.fanPairs (Machine.fld v 26 24 + 1)
    let others := devs.filter fun d => d != s2.devId && !(s2.tgt d).unreached
    let s3 := s2.setOpen (s2.mer.open' ++ [others])
    let s4 := s3.each others fun d s => s.tgtPut d (.fan slot wp pairs)
    if devs.contains s2.devId then s4.fanLocal slot wp pairs else s4

/-- FAN_GO (R332). -/
def execFanGo (val : Word) (s : State) : Host.Outcome State Fault Refusal := .next (s.fanGo val)

/-- The message in flight to `d` is answered, and the next one leaves. -/
def State.tgtAnswered (s : State) (d : Nat) (refused : Bool) : State :=
  (s.setTgt d { s.tgt d with flight := none, refused := refused }).tgtNext d

/-- ACK (R333): the message in flight with its SEQ is answered. A resynchronising record belongs to no open record. -/
def State.ackIn (s : State) (m : MerMsg) : State :=
  s.merIn m fun s =>
    match m.body, (s.tgt m.src).flight with
    | .ack status, some (f, _) =>
      if s.mer.role = 3 && f.seq == m.seq then
        match f.body with
        | .fan _ _ pairs =>
          let s1 := if pairs = [] then s else s.setOpen (eraseFirst m.src s.mer.open')
          s1.tgtAnswered m.src (status == 1)
        | _ => s
      else s
    | _, _ => s

/-- ACK_RECEIVE (R333). -/
def execAckReceive (msg : MerMsg) (s : State) : Host.Outcome State Fault Refusal := .next (s.ackIn msg)

/-- A target that RETRIES resends have not reached is UNREACHED: counted and announced, and every record and collect goes on
without it (R333). -/
def State.unreach (s : State) (d : Nat) : State :=
  let s1 := s.setTgt d { s.tgt d with unreached := true, flight := none, queue := [] }
  let s2 := (s1.bump Reg.merUnreached).setOpen (s1.mer.open'.map fun r => r.erase d)
  let s3 := match s2.mer.collect with
    | some l => s2.setCollect (l.erase d)
    | none => s2
  s3.event (leafOf 18 1) d

/-- RETRY_US has passed since the message in flight last left, without an acknowledgement (R333). -/
def State.fanRetry (s : State) (d : Nat) : State :=
  match (s.tgt d).flight with
  | some (m, n, t) =>
    if s.mer.role ≠ 3 ∨ !s.periodPassed (some t) s.retryUs then s
    else if n < s.merRetries then
      ((s.setTgt d { s.tgt d with flight := some (m, n + 1, s.raw) }).bump Reg.merRetx).sendMer d m
    else s.unreach d
  | none => s

/-- FAN_RETRY (R333). -/
def execFanRetry (d : Fin 1024) (at' : Raw) (s : State) : Host.Outcome State Fault Refusal := .next ((s.advance at').fanRetry d.val)

/-- A write of MER_TGT_RESUME: an UNREACHED target gets a resynchronising record with SEQ 0 (R333). -/
def State.tgtResume (s : State) (v : Word) : State :=
  let d := Machine.fld v 9 0
  if Machine.bit v 31 && s.mer.role == 3 && (s.tgt d).unreached then
    (s.setTgt d { s.tgt d with seq := 0, unreached := false }).tgtPut d (.fan 0 false [])
  else s

/-- TARGET_RESUME (R333). -/
def execTargetResume (val : Word) (s : State) : Host.Outcome State Fault Refusal := .next (s.tgtResume val)

/-- A WP_REPORT is kept by the manager (R336). -/
def State.wpReportIn (s : State) (m : MerMsg) : State :=
  s.merIn m fun s =>
    match m.body with
    | .wpReport slot st late => if s.mer.role = 3 then s.wpStore m.src slot st late else s
    | _ => s

/-- WP_REPORT_RECEIVE (R336). -/
def execWpReportReceive (msg : MerMsg) (s : State) : Host.Outcome State Fault Refusal := .next (s.wpReportIn msg)

/-! ### Time alignment (R337, R338) -/

/-- The views of VIEW_MASK. -/
def State.timeViews (s : State) : List Nat := (List.range 16).filter fun v => s.bit Reg.merTimeCfg v

/-- One exchange with every heard worker begins for each selected view, TIME_PERIOD_MS after the last. Its SYNC carries t1: in a TIME
cell it is inserted as the cell leaves, on a management port it is captured here (R71). By the manager's own ranking every device it
hears is a worker (DEDUCED). -/
def State.timeExchange (s : State) (cap : Raw) : State :=
  if s.mer.role = 3 && s.bit Reg.merTimeCfg 31 && s.periodPassed s.mer.exchanged (1000 * s.timePeriodMs) then
    ({ s with mer.exchanged := some s.raw } : State).each s.heardDevs fun d s =>
      s.each s.timeViews fun v s => s.sendMer d (s.merMsg d 0 (.sync v (s.viewTimeAt v (captureRes cap))))
  else s

/-- TIME_EXCHANGE (R337). -/
def execTimeExchange (at' : Raw) (s : State) : Host.Outcome State Fault Refusal := .next ((s.advance at').timeExchange at')

/-- SYNC on a worker: the arrival is stamped t2, and DELAY_REQ carries its transmit stamp t3; in SAFE nothing is sent. -/
def State.syncIn (s : State) (m : MerMsg) (cap txCap : Raw) : State :=
  s.merIn m fun s =>
    match m.body with
    | .sync v t1 =>
      if s.merWorker then
        let t2 := s.viewTimeAt (v % 16) (captureRes cap)
        let s1 := { s.seePair m with mer.sync := s.mer.sync.set (fun _ => none) (v % 16) (some (t1, t2)) }
        s1.sendMer m.src (s1.merMsg m.src 0 (.delayReq v (s1.viewTimeAt (v % 16) (captureRes txCap))))
      else s
    | _ => s

/-- SYNC_RECEIVE (R337). -/
def execSyncReceive (msg : MerMsg) (cap : Raw) (txCap : Raw) (s : State) : Host.Outcome State Fault Refusal :=
  .next (s.syncIn msg cap txCap)

/-- DELAY_REQ on the manager: the arrival is stamped t4 and returned. -/
def State.delayReqIn (s : State) (m : MerMsg) (cap : Raw) : State :=
  s.merIn m fun s =>
    match m.body with
    | .delayReq v t3 =>
      if s.mer.role = 3 then
        s.sendMer m.src (s.merMsg m.src 0 (.delayResp v (s.viewTimeAt (v % 16) (captureRes cap)) t3))
      else s
    | _ => s

/-- DELAY_REQ_RECEIVE (R337). -/
def execDelayReqReceive (msg : MerMsg) (cap : Raw) (s : State) : Host.Outcome State Fault Refusal :=
  .next (s.delayReqIn msg cap)

/-- Offset and one-way delay of an exchange in 2^-16 ns; the division truncates toward zero (R337). -/
def timeResult (t1 t2 t3 t4 : Raw) : Int × Int :=
  let a := (t2 - t1).toInt
  let b := (t4 - t3).toInt
  ((a - b).tdiv 2, (a + b).tdiv 2)

/-- DELAY_RESP on the worker: offset, delay and the exchange count go to MER_TIME_RES; no view changes (R337). -/
def State.delayRespIn (s : State) (m : MerMsg) : State :=
  s.merIn m fun s =>
    match m.body with
    | .delayResp v t4 t3 =>
      match s.mer.sync.get (fun _ => none) (v % 16) with
      | some (t1, t2) =>
        let r := timeResult t1 t2 t3 t4
        let x := s.mer.timeRes.get (fun _ => (0, 0, 0)) (v % 16)
        let e : BitVec 64 × Word × Word := (BitVec.ofInt 64 r.1, BitVec.ofInt 32 r.2, x.2.2 + 1)
        { s with
          mer.sync := s.mer.sync.set (fun _ => none) (v % 16) none,
          mer.timeRes := s.mer.timeRes.set (fun _ => (0, 0, 0)) (v % 16) e }
      | none => s
    | _ => s

/-- DELAY_RESP_RECEIVE (R337). -/
def execDelayRespReceive (msg : MerMsg) (s : State) : Host.Outcome State Fault Refusal := .next (s.delayRespIn msg)

/-! ### Collection (R339) -/

/-- Read registers in order and in consecutive clocks, as the host would; the data of the last host read stays (R339). -/
def State.readAll (s : State) : List Nat → List Word × State
  | [] => ([], s)
  | a :: l =>
    let s1 := s.regRead a
    let s2 : State := { s1 with rdata := s.rdata }
    let r := (if l = [] then s2 else s2.elapse 1).readAll l
    (s1.rdata :: r.1, r.2)

/-- The 64-byte record of a reply, in host memory at MER_COLL_ADDR + 64 × d (R339); nothing while PERST_N is low. -/
def State.collRecord (s : State) (d : Nat) (values : List Word) : State :=
  if s.dev.perstLow then s
  else
    let bytes := leBytes 2 d ++ leBytes 2 1 ++ leBytes 4 (s.fld Reg.merCollStatus 15 0) ++
      ((List.range 8).flatMap fun i => leBytes 4 (values.getD i 0).toNat) ++ List.replicate 24 0
    s.emit (.hostWrite (BitVec.ofNat 64 (s.rdWords Reg.merCollAddrLo 2 + 64 * d)) bytes)

/-- The staged offsets. -/
def State.collOffsets (s : State) (n : Nat) : List Nat := (List.range n).map fun k => s.fld (Reg.merCollOff k) 27 2 * 4

/-- The manager's own share of a collect. -/
def State.collLocal (s : State) (offsets : List Nat) : State :=
  let r := s.readAll offsets
  r.2.collRecord r.2.devId r.1

/-- A write of MER_COLL_CMD: GO starts a collect, or is refused while one runs or without the role (R339). -/
def State.collGo (s : State) (v : Word) : State :=
  let s1 := s.wrTyped Reg.merCollCmd v
  if !Machine.bit v 31 then s1
  else if s1.mer.role ≠ 3 || s1.bit Reg.merCollStatus 31 then s1.setBit Reg.merCollStatus 30 true
  else
    let s2 := (s1.setFld Reg.merCollStatus 31 30 2).setFld Reg.merCollStatus 15 0 (s1.fld Reg.merCollStatus 15 0 + 1)
    let devs := s2.scopeDevs (Machine.fld v 28 27) (s2.fld Reg.merFanDest 9 0) (Machine.fld v 23 8)
    let offsets := s2.collOffsets (Machine.fld v 26 24 + 1)
    let others := devs.filter fun d => d != s2.devId && !(s2.tgt d).unreached
    let s3 := (s2.setCollect others).each others fun d s => s.tgtPut d (.collect offsets)
    if devs.contains s2.devId then s3.collLocal offsets else s3

/-- COLLECT_GO (R339). -/
def execCollectGo (val : Word) (s : State) : Host.Outcome State Fault Refusal := .next (s.collGo val)

/-- The REPLY to the last message answered. -/
def State.sendReply (s : State) (m : MerMsg) : State := s.sendMer m.src (s.merMsg m.src m.seq (.reply s.mer.lastReply))

/-- COLLECT on a target: under the SEQ rules of R333 the offsets are read in order and their values returned (R339). -/
def State.collectIn (s : State) (m : MerMsg) : State :=
  s.merIn m fun s =>
    match m.body with
    | .collect offsets =>
      if s.dev.mode = .safe then s
      else
        let s1 := s.seePair m
        if s1.mer.last = some m then s1.sendReply m
        else if m.seq = BitVec.ofNat 32 s1.mer.expect then
          let r := s1.readAll offsets
          ({ r.2 with mer.expect := s1.mer.expect + 1, mer.last := some m, mer.lastReply := r.1 } : State).sendReply m
        else s1
    | _ => s

/-- COLLECT_RECEIVE (R339). -/
def execCollectReceive (msg : MerMsg) (s : State) : Host.Outcome State Fault Refusal := .next (s.collectIn msg)

/-- REPLY on the manager: its record is written, and its target is answered (R339). -/
def State.replyIn (s : State) (m : MerMsg) : State :=
  s.merIn m fun s =>
    match m.body, (s.tgt m.src).flight, s.mer.collect with
    | .reply values, some (f, _), some l =>
      let asked := match f.body with
        | .collect _ => true
        | _ => false
      if s.mer.role = 3 && asked && f.seq == m.seq && l.contains m.src then
        ((s.collRecord m.src values).setCollect (l.erase m.src)).tgtAnswered m.src (s.tgt m.src).refused
      else s
    | _, _, _ => s

/-- REPLY_RECEIVE (R339). -/
def execReplyReceive (msg : MerMsg) (s : State) : Host.Outcome State Fault Refusal := .next (s.replyIn msg)

/-! ### Forwarded events (R340) -/

/-- EVENT on the manager: a record with the source device joins its own event ring (R340). -/
def State.eventIn (s : State) (m : MerMsg) : State :=
  s.merIn m fun s =>
    match m.body with
    | .event leaf view ns32 subns _ words =>
      if s.mer.role = 3 then s.putRecord leaf true view ns32 subns m.src words else s
    | _ => s

/-- EVENT_MESSAGE_RECEIVE (R340). -/
def execEventMessageReceive (msg : MerMsg) (s : State) : Host.Outcome State Fault Refusal := .next (s.eventIn msg)

end Sys2Proof.Machine
end

