-- ==== Sys2Proof/Machine/Access.lean ====
section
/-!
DEFINITION. Machine/Access.lean: the commands by which the host accesses registers (R5 to R9).
-/
namespace Sys2Proof.Machine

/-- A 32-bit host write of BAR0: the Meridian GO triggers, or the register's write (R9, R332, R333, R339). -/
def State.hostWrite (s : State) (a : Nat) (v : Word) : State :=
  if a = Reg.merFanCmd then s.fanGo v
  else if a = Reg.merTgtResume then s.tgtResume v
  else if a = Reg.merCollCmd then s.collGo v
  else s.regWrite a v false

/-- RC_READ (R9): a register is read; RC fields clear, a queue's record is removed. -/
def execRcRead (addr : BitVec 28) (s : State) : Host.Outcome State Fault Refusal := .next (s.regRead addr.toNat)

/-- MULTIWORD_CAPTURE_READ (R6). -/
def execMultiwordCaptureRead (addr : BitVec 28) (s : State) : Host.Outcome State Fault Refusal := .next (s.regRead addr.toNat)

/-- MULTIWORD_LOW_WRITE (R6): a lower word goes to its holding register. -/
def execMultiwordLowWrite (addr : BitVec 28) (val : Word) (s : State) : Host.Outcome State Fault Refusal :=
  .next (s.hostWrite addr.toNat val)

/-- MULTIWORD_COMMIT (R6): the highest word takes effect with the held lower words. -/
def execMultiwordCommit (addr : BitVec 28) (val : Word) (s : State) : Host.Outcome State Fault Refusal :=
  .next (s.hostWrite addr.toNat val)

/-- An aligned 32-bit access of BAR2: the window that holds the offset (Table 21.3); window 2 is read only (R410). -/
def State.bar2Access (s : State) (write : Bool) (addr : Nat) (v : Word) : State :=
  if addr < 2 ^ 24 then (if write then s.winWrite 0 addr v else s.winRead 0 addr)
  else if addr < 2 ^ 25 then (if write then s.winWrite 1 (addr - 2 ^ 24) v else s.winRead 1 (addr - 2 ^ 24))
  else if write then s
  else if addr < 2 ^ 26 then s.cntWindow (addr - 2 ^ 25)
  else s.ret 0

/-- MISALIGNED_ACCESS (R5, R405): an access of another size or alignment reads 0 without side effect, and a write of that kind
is ignored. An aligned 32-bit BAR0 access under this name is the register access it is; one of BAR2 is that window's. -/
def State.misaligned (s : State) (bar2 write : Bool) (addr size : Nat) (val : BitVec 64) : State :=
  if size = 4 ∧ addr % 4 = 0 then
    if bar2 then s.bar2Access write addr (BitVec.ofNat 32 val.toNat)
    else if write then s.hostWrite addr (BitVec.ofNat 32 val.toNat) else s.regRead addr
  else if write then s else s.ret 0

/-- MISALIGNED_ACCESS (R5). -/
def execMisalignedAccess (bar2 : Bool) (write : Bool) (addr : Nat) (size : Nat) (val : BitVec 64) (s : State) :
    Host.Outcome State Fault Refusal :=
  .next (s.misaligned bar2 write addr size val)

/-- RESERVED_ADDRESS_ACCESS (R8): a reserved address reads 0 and ignores writes. -/
def execReservedAddressAccess (write : Bool) (addr : BitVec 28) (val : Word) (s : State) :
    Host.Outcome State Fault Refusal :=
  .next (if write then s.hostWrite addr.toNat val else s.regRead addr.toNat)

/-- REGISTER_WRITE (R9). -/
def execRegisterWrite (addr : BitVec 28) (val : Word) (s : State) : Host.Outcome State Fault Refusal :=
  .next (s.hostWrite addr.toNat val)

end Sys2Proof.Machine
end

