-- ==== Sys2Proof/Machine/Dispatch.lean ====
section
/-!
DEFINITION. Machine/Dispatch.lean: one arm for each command.
-/
namespace Sys2Proof.Machine

/-- The effect of a command on everything but the queue. -/
def exec (i : Instr) (s : State) : Host.Outcome State Fault Refusal :=
  match i with
  | .misalignedAccess bar2 write addr size val => Sys2Proof.Machine.execMisalignedAccess bar2 write addr size val s
  | .reservedAddressAccess write addr val => Sys2Proof.Machine.execReservedAddressAccess write addr val s
  | .multiwordLowWrite addr val => Sys2Proof.Machine.execMultiwordLowWrite addr val s
  | .multiwordCommit addr val => Sys2Proof.Machine.execMultiwordCommit addr val s
  | .multiwordCaptureRead addr => Sys2Proof.Machine.execMultiwordCaptureRead addr s
  | .rcRead addr => Sys2Proof.Machine.execRcRead addr s
  | .registerWrite addr val => Sys2Proof.Machine.execRegisterWrite addr val s
  | .frameIngress f full => Sys2Proof.Machine.execFrameIngress f full s
  | .pipelinePass p bad => Sys2Proof.Machine.execPipelinePass p bad s
  | .cellPop ws => Sys2Proof.Machine.execCellPop ws s
  | .cellPush p => Sys2Proof.Machine.execCellPush p s
  | .cacheRefill k uncorr => Sys2Proof.Machine.execCacheRefill k uncorr s
  | .cacheSpill k => Sys2Proof.Machine.execCacheSpill k s
  | .creditReceived dev port cls bytes errs qBad => Sys2Proof.Machine.execCreditReceived dev port cls bytes errs qBad s
  | .statusOnRefresh v => Sys2Proof.Machine.execStatusOnRefresh v s
  | .statusReceived port cls src on ret received => Sys2Proof.Machine.execStatusReceived port cls src on ret received s
  | .portStateReceived dev port st => Sys2Proof.Machine.execPortStateReceived dev port st s
  | .holdDownExpiry ix at' => Sys2Proof.Machine.execHoldDownExpiry ix at' s
  | .replicationTake => Sys2Proof.Machine.execReplicationTake s
  | .ponSelection ch space errs qBad ctxBad => Sys2Proof.Machine.execPonSelection ch space errs qBad ctxBad s
  | .creditIssue port => Sys2Proof.Machine.execCreditIssue port s
  | .wheelSlot coarse at' => Sys2Proof.Machine.execWheelSlot coarse at' s
  | .stagingTransmit ix cap latency bad => Sys2Proof.Machine.execStagingTransmit ix cap latency bad s
  | .gateEntryBoundary m at' => Sys2Proof.Machine.execGateEntryBoundary m at' s
  | .gateListGo m val => Sys2Proof.Machine.execGateListGo m val s
  | .gateListStart m at' => Sys2Proof.Machine.execGateListStart m at' s
  | .gateEntryWrite val => Sys2Proof.Machine.execGateEntryWrite val s
  | .gateEntryRead val => Sys2Proof.Machine.execGateEntryRead val s
  | .nodeWrite val => Sys2Proof.Machine.execNodeWrite val s
  | .nodeRead val => Sys2Proof.Machine.execNodeRead val s
  | .profileWrite val => Sys2Proof.Machine.execProfileWrite val s
  | .profileRead val => Sys2Proof.Machine.execProfileRead val s
  | .policerWrite val => Sys2Proof.Machine.execPolicerWrite val s
  | .policerRead val => Sys2Proof.Machine.execPolicerRead val s
  | .almCommitGo val => Sys2Proof.Machine.execAlmCommitGo val s
  | .chartCommitGo val => Sys2Proof.Machine.execChartCommitGo val s
  | .dbaCommitGo val => Sys2Proof.Machine.execDbaCommitGo val s
  | .imageLoadStart val flash => Sys2Proof.Machine.execImageLoadStart val flash s
  | .imageLoadAbort val => Sys2Proof.Machine.execImageLoadAbort val s
  | .imageHeaderRead hdr => Sys2Proof.Machine.execImageHeaderRead hdr s
  | .imageDirectoryRead dir => Sys2Proof.Machine.execImageDirectoryRead dir s
  | .imageFirstPassEnd pubkey sig digest => Sys2Proof.Machine.execImageFirstPassEnd pubkey sig digest s
  | .imageSectionApply sec => Sys2Proof.Machine.execImageSectionApply sec s
  | .imageSecondPassEnd digest => Sys2Proof.Machine.execImageSecondPassEnd digest s
  | .imageReadFailure bytes => Sys2Proof.Machine.execImageReadFailure bytes s
  | .imageSwapStart val flash => Sys2Proof.Machine.execImageSwapStart val flash s
  | .imageSwapAbort val => Sys2Proof.Machine.execImageSwapAbort val s
  | .imageSwapContinue val => Sys2Proof.Machine.execImageSwapContinue val s
  | .swapAuthenticationEnd img => Sys2Proof.Machine.execSwapAuthenticationEnd img s
  | .spareLoadComplete => Sys2Proof.Machine.execSpareLoadComplete s
  | .pipelineMoveComplete => Sys2Proof.Machine.execPipelineMoveComplete s
  | .memoryBistStart val => Sys2Proof.Machine.execMemoryBistStart val s
  | .memoryBistAbort val => Sys2Proof.Machine.execMemoryBistAbort val s
  | .memoryBistEnd tested failing corrected => Sys2Proof.Machine.execMemoryBistEnd tested failing corrected s
  | .puntTailWrite n val => Sys2Proof.Machine.execPuntTailWrite n val s
  | .puntFrameDelivery bufs => Sys2Proof.Machine.execPuntFrameDelivery bufs s
  | .injectTailWrite n val => Sys2Proof.Machine.execInjectTailWrite n val s
  | .injectModePipeline n desc data count cap full => Sys2Proof.Machine.execInjectModePipeline n desc data count cap full s
  | .injectModeDirect n desc data count cap => Sys2Proof.Machine.execInjectModeDirect n desc data count cap s
  | .modeRequest val => Sys2Proof.Machine.execModeRequest val s
  | .safeRequest val => Sys2Proof.Machine.execSafeRequest val s
  | .modeTransitionComplete at' => Sys2Proof.Machine.execModeTransitionComplete at' s
  | .safeGraceEnd at' => Sys2Proof.Machine.execSafeGraceEnd at' s
  | .fatalError src => Sys2Proof.Machine.execFatalError src s
  | .powerFailNFall board => Sys2Proof.Machine.execPowerFailNFall board s
  | .startupSelftestEnd shaOk ecdsaOk boot => Sys2Proof.Machine.execStartupSelftestEnd shaOk ecdsaOk boot s
  | .commissioningPhaseEnd ok failedTest => Sys2Proof.Machine.execCommissioningPhaseEnd ok failedTest s
  | .devResetCold val => Sys2Proof.Machine.execDevResetCold val s
  | .devResetWarm val => Sys2Proof.Machine.execDevResetWarm val s
  | .resetNLow ns => Sys2Proof.Machine.execResetNLow ns s
  | .perstNLow => Sys2Proof.Machine.execPerstNLow s
  | .perstNDeassert => Sys2Proof.Machine.execPerstNDeassert s
  | .blkResetRings val => Sys2Proof.Machine.execBlkResetRings val s
  | .blkResetEvt val => Sys2Proof.Machine.execBlkResetEvt val s
  | .blkResetChk val => Sys2Proof.Machine.execBlkResetChk val s
  | .blkResetMer val => Sys2Proof.Machine.execBlkResetMer val s
  | .blkResetLht val => Sys2Proof.Machine.execBlkResetLht val s
  | .blockResetComplete blk => Sys2Proof.Machine.execBlockResetComplete blk s
  | .viewRateCommit v hi => Sys2Proof.Machine.execViewRateCommit v hi s
  | .viewOffsetCommit v w2 => Sys2Proof.Machine.execViewOffsetCommit v w2 s
  | .viewStepCommit v hi => Sys2Proof.Machine.execViewStepCommit v hi s
  | .stampConversion port rx cap latency domain => Sys2Proof.Machine.execStampConversion port rx cap latency domain s
  | .timeSnapGo val => Sys2Proof.Machine.execTimeSnapGo val s
  | .transmitStampReturn q tsId port stamp => Sys2Proof.Machine.execTransmitStampReturn q tsId port stamp s
  | .txtsRead q => Sys2Proof.Machine.execTxtsRead q s
  | .synceSourceLoss a => Sys2Proof.Machine.execSynceSourceLoss a s
  | .synceResume a at' => Sys2Proof.Machine.execSynceResume a at' s
  | .ppsInEdge falling cap => Sys2Proof.Machine.execPpsInEdge falling cap s
  | .todInByte b => Sys2Proof.Machine.execTodInByte b s
  | .todInRead => Sys2Proof.Machine.execTodInRead s
  | .ppsOutPulse at' => Sys2Proof.Machine.execPpsOutPulse at' s
  | .todOutDataWrite val => Sys2Proof.Machine.execTodOutDataWrite val s
  | .todOutSend val => Sys2Proof.Machine.execTodOutSend val s
  | .todOutTransmit at' => Sys2Proof.Machine.execTodOutTransmit at' s
  | .ponFrameBoundary at' => Sys2Proof.Machine.execPonFrameBoundary at' s
  | .ponRealign val => Sys2Proof.Machine.execPonRealign val s
  | .actionTick => Sys2Proof.Machine.execActionTick s
  | .waypointArm slot val => Sys2Proof.Machine.execWaypointArm slot val s
  | .waypointDisarm slot val => Sys2Proof.Machine.execWaypointDisarm slot val s
  | .gpioPulseEnd k at' => Sys2Proof.Machine.execGpioPulseEnd k at' s
  | .gpioCfgWrite k val => Sys2Proof.Machine.execGpioCfgWrite k val s
  | .mapCutoff at' => Sys2Proof.Machine.execMapCutoff at' s
  | .brstPulse j f ix => Sys2Proof.Machine.execBrstPulse j f ix s
  | .burstCandidate j f ix rx hec onu cap latency => Sys2Proof.Machine.execBurstCandidate j f ix rx hec onu cap latency s
  | .burstWindowEnd j f ix => Sys2Proof.Machine.execBurstWindowEnd j f ix s
  | .discoveryCandidate j f ix rx hec onu cap latency msg => Sys2Proof.Machine.execDiscoveryCandidate j f ix rx hec onu cap latency msg s
  | .upstreamFecCodeword j f ix cw corrected uncorrectable => Sys2Proof.Machine.execUpstreamFecCodeword j f ix cw corrected uncorrectable s
  | .rssiArm n val => Sys2Proof.Machine.execRssiArm n val s
  | .rssiTrigger n f ix => Sys2Proof.Machine.execRssiTrigger n f ix s
  | .rssiPulseEnd n => Sys2Proof.Machine.execRssiPulseEnd n s
  | .settlingEnd n => Sys2Proof.Machine.execSettlingEnd n s
  | .lossOfSignal n => Sys2Proof.Machine.execLossOfSignal n s
  | .ponPortReset n val => Sys2Proof.Machine.execPonPortReset n val s
  | .ponPortResetComplete n => Sys2Proof.Machine.execPonPortResetComplete n s
  | .upstreamPloam j f ix msg => Sys2Proof.Machine.execUpstreamPloam j f ix msg s
  | .ploamTxSend val => Sys2Proof.Machine.execPloamTxSend val s
  | .ploamRxRead => Sys2Proof.Machine.execPloamRxRead s
  | .energyObservation j f lo hi => Sys2Proof.Machine.execEnergyObservation j f lo hi s
  | .rogueAnonClear j f => Sys2Proof.Machine.execRogueAnonClear j f s
  | .onuLoss n onu => Sys2Proof.Machine.execOnuLoss n onu s
  | .onuDeactivation n onu at' => Sys2Proof.Machine.execOnuDeactivation n onu at' s
  | .assignId => Sys2Proof.Machine.execAssignId s
  | .setEqd => Sys2Proof.Machine.execSetEqd s
  | .deactivate => Sys2Proof.Machine.execDeactivate s
  | .disable => Sys2Proof.Machine.execDisable s
  | .enable => Sys2Proof.Machine.execEnable s
  | .rangeCmd => Sys2Proof.Machine.execRangeCmd s
  | .sntabWrite val => Sys2Proof.Machine.execSntabWrite val s
  | .sntabRead val => Sys2Proof.Machine.execSntabRead val s
  | .mapComputationStart at' bad => Sys2Proof.Machine.execMapComputationStart at' bad s
  | .mapComputationComplete j => Sys2Proof.Machine.execMapComputationComplete j s
  | .dbruReport j f ix k good bytes => Sys2Proof.Machine.execDbruReport j f ix k good bytes s
  | .allocWrite val => Sys2Proof.Machine.execAllocWrite val s
  | .allocRead val => Sys2Proof.Machine.execAllocRead val s
  | .bookingGo val => Sys2Proof.Machine.execBookingGo val s
  | .ctiReport rep => Sys2Proof.Machine.execCtiReport rep s
  | .bindWrite val => Sys2Proof.Machine.execBindWrite val s
  | .bindRead val => Sys2Proof.Machine.execBindRead val s
  | .dsqWrite val => Sys2Proof.Machine.execDsqWrite val s
  | .dsqRead val => Sys2Proof.Machine.execDsqRead val s
  | .keyWrite val => Sys2Proof.Machine.execKeyWrite val s
  | .keyRead val => Sys2Proof.Machine.execKeyRead val s
  | .keyClear val => Sys2Proof.Machine.execKeyClear val s
  | .keyExchange val => Sys2Proof.Machine.execKeyExchange val s
  | .keyExchangeTimeout n onu at' => Sys2Proof.Machine.execKeyExchangeTimeout n onu at' s
  | .keyIndexSwitch val => Sys2Proof.Machine.execKeyIndexSwitch val s
  | .keyResultRead => Sys2Proof.Machine.execKeyResultRead s
  | .lastSpoofRead => Sys2Proof.Machine.execLastSpoofRead s
  | .upstreamXgemFrame j f ix k x full ctxBad => Sys2Proof.Machine.execUpstreamXgemFrame j f ix k x full ctxBad s
  | .reassemblyTimeout n pid at' => Sys2Proof.Machine.execReassemblyTimeout n pid at' s
  | .chartEntryWrite val => Sys2Proof.Machine.execChartEntryWrite val s
  | .chartEntryRead val => Sys2Proof.Machine.execChartEntryRead val s
  | .chartTableSelect val => Sys2Proof.Machine.execChartTableSelect val s
  | .emInsert => Sys2Proof.Machine.execEmInsert s
  | .emDelete => Sys2Proof.Machine.execEmDelete s
  | .emRead => Sys2Proof.Machine.execEmRead s
  | .lpmAdd noSpace => Sys2Proof.Machine.execLpmAdd noSpace s
  | .lpmDel noSpace => Sys2Proof.Machine.execLpmDel noSpace s
  | .lpmRead => Sys2Proof.Machine.execLpmRead s
  | .writeCmd => Sys2Proof.Machine.execWriteCmd s
  | .readCmd => Sys2Proof.Machine.execReadCmd s
  | .dump t data ok => Sys2Proof.Machine.execDump t data ok s
  | .sxtDmaTailWrite val => Sys2Proof.Machine.execSxtDmaTailWrite val s
  | .bulkDmaDescriptor op t index data noSpace ok => Sys2Proof.Machine.execBulkDmaDescriptor op t index data noSpace ok s
  | .learnTaken => Sys2Proof.Machine.execLearnTaken s
  | .movesClear at' => Sys2Proof.Machine.execMovesClear at' s
  | .ageingVisit slot at' => Sys2Proof.Machine.execAgeingVisit slot at' s
  | .noteRead => Sys2Proof.Machine.execNoteRead s
  | .rehashStart val => Sys2Proof.Machine.execRehashStart val s
  | .rehashAbort val => Sys2Proof.Machine.execRehashAbort val s
  | .rehashMove slot => Sys2Proof.Machine.execRehashMove slot s
  | .rehashEnd => Sys2Proof.Machine.execRehashEnd s
  | .trieRebuildStart val => Sys2Proof.Machine.execTrieRebuildStart val s
  | .trieRebuildAbort val => Sys2Proof.Machine.execTrieRebuildAbort val s
  | .trieRootFlip records => Sys2Proof.Machine.execTrieRootFlip records s
  | .fixCheckStart val => Sys2Proof.Machine.execFixCheckStart val s
  | .fixCheckAbort val => Sys2Proof.Machine.execFixCheckAbort val s
  | .fixBlockCompare words => Sys2Proof.Machine.execFixBlockCompare words s
  | .fixCheckEnd => Sys2Proof.Machine.execFixCheckEnd s
  | .auditStart val => Sys2Proof.Machine.execAuditStart val s
  | .auditAbort val => Sys2Proof.Machine.execAuditAbort val s
  | .auditCarrierWalk flips uncorr => Sys2Proof.Machine.execAuditCarrierWalk flips uncorr s
  | .auditEnd => Sys2Proof.Machine.execAuditEnd s
  | .sweepStart val => Sys2Proof.Machine.execSweepStart val s
  | .sweepAbort val => Sys2Proof.Machine.execSweepAbort val s
  | .sweepMarkingEnd => Sys2Proof.Machine.execSweepMarkingEnd s
  | .sweepEnd => Sys2Proof.Machine.execSweepEnd s
  | .voqMapWrite val => Sys2Proof.Machine.execVoqMapWrite val s
  | .voqMapRead val => Sys2Proof.Machine.execVoqMapRead val s
  | .voqStateRead val => Sys2Proof.Machine.execVoqStateRead val s
  | .laneMarker l bytes mirrored skip cws at' => Sys2Proof.Machine.execLaneMarker l bytes mirrored skip cws at' s
  | .markerLockLoss l => Sys2Proof.Machine.execMarkerLockLoss l s
  | .fecLockLoss l => Sys2Proof.Machine.execFecLockLoss l s
  | .cellDelineation l bytes skip cws => Sys2Proof.Machine.execCellDelineation l bytes skip cws s
  | .cellTransmit g at' => Sys2Proof.Machine.execCellTransmit g at' s
  | .markerInsert g => Sys2Proof.Machine.execMarkerInsert g s
  | .reachWrite d val => Sys2Proof.Machine.execReachWrite d val s
  | .drainEnd d at' => Sys2Proof.Machine.execDrainEnd d at' s
  | .reseqTimeout src at' => Sys2Proof.Machine.execReseqTimeout src at' s
  | .fabricReasmTimeout ctx at' => Sys2Proof.Machine.execFabricReasmTimeout ctx at' s
  | .creditCellSend d at' => Sys2Proof.Machine.execCreditCellSend d at' s
  | .devIdWrite val => Sys2Proof.Machine.execDevIdWrite val s
  | .netFrameReceive ix bytes cap latency corr uncorr => Sys2Proof.Machine.execNetFrameReceive ix bytes cap latency corr uncorr s
  | .pfcReceive ix enable quanta => Sys2Proof.Machine.execPfcReceive ix enable quanta s
  | .pauseTimerExpiry ix c at' => Sys2Proof.Machine.execPauseTimerExpiry ix c at' s
  | .pfcSend ix => Sys2Proof.Machine.execPfcSend ix s
  | .pfcRepeat ix at' => Sys2Proof.Machine.execPfcRepeat ix at' s
  | .netPortFailure ix what => Sys2Proof.Machine.execNetPortFailure ix what s
  | .netPortUpTimer ix at' => Sys2Proof.Machine.execNetPortUpTimer ix at' s
  | .netPortReset ix val => Sys2Proof.Machine.execNetPortReset ix val s
  | .netPortResetComplete ix locked => Sys2Proof.Machine.execNetPortResetComplete ix locked s
  | .saWrite ix val => Sys2Proof.Machine.execSaWrite ix val s
  | .saRead ix val => Sys2Proof.Machine.execSaRead ix val s
  | .saClear ix val => Sys2Proof.Machine.execSaClear ix val s
  | .rxscWrite ix val => Sys2Proof.Machine.execRxscWrite ix val s
  | .heartbeatPeriod at' journal => Sys2Proof.Machine.execHeartbeatPeriod at' journal s
  | .heartbeatReceive rhb src bytes => Sys2Proof.Machine.execHeartbeatReceive rhb src bytes s
  | .bulkSyncStart peer val => Sys2Proof.Machine.execBulkSyncStart peer val s
  | .bulkSyncAbort peer val => Sys2Proof.Machine.execBulkSyncAbort peer val s
  | .syncStreamComplete kib row journal recs kcv => Sys2Proof.Machine.execSyncStreamComplete kib row journal recs kcv s
  | .snapshotCommit recs seq => Sys2Proof.Machine.execSnapshotCommit recs seq s
  | .incrementApply seq recs => Sys2Proof.Machine.execIncrementApply seq recs s
  | .mapCopyReceive j f bursts => Sys2Proof.Machine.execMapCopyReceive j f bursts s
  | .witnessWindowEnd at' => Sys2Proof.Machine.execWitnessWindowEnd at' s
  | .healthEvaluation at' => Sys2Proof.Machine.execHealthEvaluation at' s
  | .announceSend at' => Sys2Proof.Machine.execAnnounceSend at' s
  | .announceReceive msg viaMgmt => Sys2Proof.Machine.execAnnounceReceive msg viaMgmt s
  | .heardTimeout d at' => Sys2Proof.Machine.execHeardTimeout d at' s
  | .fanGo val => Sys2Proof.Machine.execFanGo val s
  | .fanReceive msg => Sys2Proof.Machine.execFanReceive msg s
  | .ackReceive msg => Sys2Proof.Machine.execAckReceive msg s
  | .fanRetry d at' => Sys2Proof.Machine.execFanRetry d at' s
  | .targetResume val => Sys2Proof.Machine.execTargetResume val s
  | .wpReportReceive msg => Sys2Proof.Machine.execWpReportReceive msg s
  | .timeExchange at' => Sys2Proof.Machine.execTimeExchange at' s
  | .syncReceive msg cap txCap => Sys2Proof.Machine.execSyncReceive msg cap txCap s
  | .delayReqReceive msg cap => Sys2Proof.Machine.execDelayReqReceive msg cap s
  | .delayRespReceive msg => Sys2Proof.Machine.execDelayRespReceive msg s
  | .collectGo val => Sys2Proof.Machine.execCollectGo val s
  | .collectReceive msg => Sys2Proof.Machine.execCollectReceive msg s
  | .replyReceive msg => Sys2Proof.Machine.execReplyReceive msg s
  | .eventMessageReceive msg => Sys2Proof.Machine.execEventMessageReceive msg s
  | .patrolScrubRead kind uncorr nbits inst addr => Sys2Proof.Machine.execPatrolScrubRead kind uncorr nbits inst addr s
  | .errLogRead => Sys2Proof.Machine.execErrLogRead s
  | .errorInjectArm val => Sys2Proof.Machine.execErrorInjectArm val s
  | .unitRestart u val => Sys2Proof.Machine.execUnitRestart u val s
  | .unitFeed u val => Sys2Proof.Machine.execUnitFeed u val s
  | .unitFeed1 u val => Sys2Proof.Machine.execUnitFeed1 u val s
  | .unitRunningWrite u hi => Sys2Proof.Machine.execUnitRunningWrite u hi s
  | .checkScanStart u val => Sys2Proof.Machine.execCheckScanStart u val s
  | .checkScanAbort u val => Sys2Proof.Machine.execCheckScanAbort u val s
  | .checkScanEnd u data => Sys2Proof.Machine.execCheckScanEnd u data s
  | .eventRecordDrain => Sys2Proof.Machine.execEventRecordDrain s
  | .eventStatusClear g val => Sys2Proof.Machine.execEventStatusClear g val s
  | .eventRingConsWrite val => Sys2Proof.Machine.execEventRingConsWrite val s
  | .eventCoalesceTimer at' => Sys2Proof.Machine.execEventCoalesceTimer at' s
  | .msixSend v masked => Sys2Proof.Machine.execMsixSend v masked s
  | .vectorAck val => Sys2Proof.Machine.execVectorAck val s
  | .counterPairRead val => Sys2Proof.Machine.execCounterPairRead val s
  | .counterPairReadClear val => Sys2Proof.Machine.execCounterPairReadClear val s
  | .logbookTailWrite val => Sys2Proof.Machine.execLogbookTailWrite val s
  | .logbookExport at' => Sys2Proof.Machine.execLogbookExport at' s
  | .logbookExportComplete at' buf => Sys2Proof.Machine.execLogbookExportComplete at' buf s
  | .thresholdConfigWrite k level val => Sys2Proof.Machine.execThresholdConfigWrite k level val s
  | .slotClear val => Sys2Proof.Machine.execSlotClear val s
  | .sampleCapture k free => Sys2Proof.Machine.execSampleCapture k free s
  | .getNonce val => Sys2Proof.Machine.execGetNonce val s
  | .verify val => Sys2Proof.Machine.execVerify val s
  | .logout val => Sys2Proof.Machine.execLogout val s
  | .verifyLockoutEnd at' => Sys2Proof.Machine.execVerifyLockoutEnd at' s
  | .otpKeyHashProgram val => Sys2Proof.Machine.execOtpKeyHashProgram val s
  | .otpRevoke val => Sys2Proof.Machine.execOtpRevoke val s
  | .otpImgSvnMin val => Sys2Proof.Machine.execOtpImgSvnMin val s
  | .otpFwSvnMin val => Sys2Proof.Machine.execOtpFwSvnMin val s
  | .otpProgrammingEnd => Sys2Proof.Machine.execOtpProgrammingEnd s
  | .pairKeyWrite val => Sys2Proof.Machine.execPairKeyWrite val s
  | .pairKeyClear val => Sys2Proof.Machine.execPairKeyClear val s
  | .selftestFailure test => Sys2Proof.Machine.execSelftestFailure test s
  | .zeroisationStart val => Sys2Proof.Machine.execZeroisationStart val s
  | .zeroisationAbort val => Sys2Proof.Machine.execZeroisationAbort val s
  | .zeroizeNAssert ns held => Sys2Proof.Machine.execZeroizeNAssert ns held s
  | .zeroisationStep1End => Sys2Proof.Machine.execZeroisationStep1End s
  | .zeroisationEnd => Sys2Proof.Machine.execZeroisationEnd s
  | .vinRise mv copyA copyB => Sys2Proof.Machine.execVinRise mv copyA copyB s
  | .vinDroop mv ns => Sys2Proof.Machine.execVinDroop mv ns s
  | .vinRecover mv ms board => Sys2Proof.Machine.execVinRecover mv ms board s
  | .vinLoss mv us => Sys2Proof.Machine.execVinLoss mv us s
  | .vinBelowStop mv => Sys2Proof.Machine.execVinBelowStop mv s
  | .refclkCheck pon eth pcie => Sys2Proof.Machine.execRefclkCheck pon eth pcie s
  | .railPowerGood k us => Sys2Proof.Machine.execRailPowerGood k us s
  | .startupRailFault k ms => Sys2Proof.Machine.execStartupRailFault k ms s
  | .railFault k us binMs => Sys2Proof.Machine.execRailFault k us binMs s
  | .powerRestart ms => Sys2Proof.Machine.execPowerRestart ms s
  | .binnacleWatchdog ms => Sys2Proof.Machine.execBinnacleWatchdog ms s
  | .refclkLoss which => Sys2Proof.Machine.execRefclkLoss which s
  | .avcUpdate want lost => Sys2Proof.Machine.execAvcUpdate want lost s
  | .temperatureSample t => Sys2Proof.Machine.execTemperatureSample t s
  | .thermalShutdown sensor t => Sys2Proof.Machine.execThermalShutdown sensor t s
  | .cageEnable ch val => Sys2Proof.Machine.execCageEnable ch val s
  | .cageDisable ch val => Sys2Proof.Machine.execCageDisable ch val s
  | .cageClear ch val => Sys2Proof.Machine.execCageClear ch val s
  | .cageTrip ch uv => Sys2Proof.Machine.execCageTrip ch uv s
  | .cageOverload ch uv ms => Sys2Proof.Machine.execCageOverload ch uv ms s
  | .cageStartComplete ch us => Sys2Proof.Machine.execCageStartComplete ch us s
  | .cageRetryEnd ch ms => Sys2Proof.Machine.execCageRetryEnd ch ms s
  | .cageRetriesClear ch ms => Sys2Proof.Machine.execCageRetriesClear ch ms s
  | .cageReversed ch uv us => Sys2Proof.Machine.execCageReversed ch uv us s
  | .cageOpen ch uv ms => Sys2Proof.Machine.execCageOpen ch uv ms s
  | .windowSteerWrite w base val => Sys2Proof.Machine.execWindowSteerWrite w base val s
  | .windowStageWrite w off val => Sys2Proof.Machine.execWindowStageWrite w off val s
  | .windowReadCapture w off => Sys2Proof.Machine.execWindowReadCapture w off s
  | .chartWindowCommit off val => Sys2Proof.Machine.execChartWindowCommit off val s
  | .sextantWindowCommit off val => Sys2Proof.Machine.execSextantWindowCommit off val s
  | .counterWindowRead off => Sys2Proof.Machine.execCounterWindowRead off s
  | .netPortGoodState ix polInv trained => Sys2Proof.Machine.execNetPortGoodState ix polInv trained s
  | .fecLockGain l => Sys2Proof.Machine.execFecLockGain l s
  | .lhPeerLinkLoss => Sys2Proof.Machine.execLhPeerLinkLoss s
  | .lhPeerLinkReturn => Sys2Proof.Machine.execLhPeerLinkReturn s
  | .cageOpenClear ch uv => Sys2Proof.Machine.execCageOpenClear ch uv s
  | .binnacleSignalReturn => Sys2Proof.Machine.execBinnacleSignalReturn s
  | .operationReadFailure op host addr => Sys2Proof.Machine.execOperationReadFailure op host addr s
  | .trieBuildNoSpace => Sys2Proof.Machine.execTrieBuildNoSpace s
  | .snapshotSlotFull => Sys2Proof.Machine.execSnapshotSlotFull s

end Sys2Proof.Machine
end

