-- ==== Sys2Proof/Machine/Step.lean ====
section
/-!
DEFINITION. Machine/Step.lean: one step of the block takes the command at the front of the queue; with no command waiting, one
tick of the 1 GHz time clock passes (R71), in which a submitted booking is taken (R163). DESIGN CHOICE: the table has no row for a tick (log entry 1).
-/
namespace Sys2Proof.Machine

/-- One step: exec of the front command on the state with the queue's rest, or a tick. -/
def step (s : State) : Host.Outcome State Fault Refusal :=
  match s.pending with
  | i :: rest => exec i { s with pending := rest }
  | [] => .next s.idleTick

/-- The state with the command that a word spells at the front of its queue; the state itself where the word spells none. -/
def State.withFetchWord (s : State) (nbits w : Nat) : State :=
  match decodeTableWord nbits w with
  | some i => { s with pending := i :: s.pending }
  | none => s

end Sys2Proof.Machine
end

