-- ==== Sys2Proof/Safety.lean ====
section
/-!
DEFINITION. Safety.lean: what counts as a safe step and a safe state, and the vocabulary of the statements: a command that runs,
what an update may touch, what a state must keep.
-/
namespace Sys2Proof.Safety

open Sys2Proof.Machine

/-- The command completes: exec answers a next state (no fault, no refusal), and `P` holds of it. -/
def Runs (c : Instr) (s : State) (P : State → Prop) : Prop := ∃ t, exec c s = .next t ∧ P t

/-- Every register but those of the list reads as before. -/
def RegsBut (l : List Nat) (s t : State) : Prop := ∀ a, a ∉ l → t.rd a = s.rd a

/-- The registers of the list may have changed, and nothing else has. -/
def OnlyRegs (l : List Nat) (s t : State) : Prop := t = { s with regs := t.regs } ∧ RegsBut l s t

/-- The registers that raising an event may change: its status, the status of the full event buffer, the two counters of lost
events (R356, R358, R340). -/
def eventRegs (leaf : Nat) : List Nat :=
  [Reg.evtStatus (leaf / 32), Reg.evtStatus (leafBufOverflow / 32), Reg.evtBufDrop, Reg.merEvtLost]

/-- A numbered part of the block reads as before at every number but those of the list. -/
def SameBut {α : Type} (f : State → Nat → α) (l : List Nat) (s t : State) : Prop := ∀ k, k ∉ l → f t k = f s k

/-- What an event may change besides registers: the event buffer, the cells that wait to be sent on Rhumb and the messages sent;
all else is as before. -/
def Reports (l : List Nat) (s t : State) : Prop :=
  t = { s with regs := t.regs, obs := t.obs, rhb := { s.rhb with groups := t.rhb.groups }, out := t.out } ∧ RegsBut l s t

/-- The registers that a refresh of group `g` of Rhumb may change (R280 to R283), with the event of its change of STATE. -/
def grpRegs (s : State) (g : Nat) : List Nat :=
  [Reg.rhbGrpRxOk g, Reg.rhbGrpSkew g, Reg.rhbGrpStatus g, Reg.rhbStatus] ++
    (List.range (s.grpCount g)).map (fun i => Reg.rhbLaneStatus (s.grpFirst g + i)) ++ eventRegs (leafOf 10 g)

/-- The status bit of a leaf is set (R356). -/
def Raised (leaf : Nat) (t : State) : Prop := t.bit (Reg.evtStatus (leaf / 32)) (leaf % 32) = true

/-- The raw counter stands at a whole tick: its low 16 bits are 0, because each clock adds 65,536 (R71). -/
def WholeTick (s : State) : Prop := s.raw.toNat % 65536 = 0

/-- The update sequencer of the Sextant takes register command `c`, which is SXT_CMD or (not `own`) one of window 1 or of a repair: it is
next in its source, no root under rebuild holds it, and its source has the turn (R204). -/
abbrev Takes (own : Bool) (c : RegCmd) (s : State) : Prop :=
  s.regHead = some (own, c) ∧ s.cmdWaits c.op c.data = false ∧ s.seqTakes 0 = true

/-- No register command of operation `op` is taken now. -/
abbrev NotTaken (op : Nat) (s : State) : Prop :=
  (s.regHead.all fun q => q.2.op != op || s.cmdWaits op q.2.data || !s.seqTakes 0) = true

/-- The command taken is answered: SXT_CMD has PENDING clear, DONE set, its RESULT and the moves made; another leaves its queue (R228). -/
def Answered (own : Bool) (result moves : Nat) (s t : State) : Prop :=
  if own then t.rd Reg.sxtCmdStatus = BitVec.ofNat 32 (2 ^ 30 + result * 2 ^ 24 + moves % 128)
  else t.sxt.winq = s.sxt.winq.drop 1 ∧ t.sxt.winAhead = s.sxt.winAhead - 1

/-- The Sextant is as before, but for the queue of register commands and the turn of the sequencer. -/
def SameTables (s t : State) : Prop :=
  { t.sxt with winq := s.sxt.winq, winAhead := s.sxt.winAhead, turn := s.sxt.turn } = s.sxt

/-- The registers that an answered register command may change whatever it does: its status and data, the injection control that an
entry write consumes, the count of repairs. -/
def cmdRegs : List Nat :=
  [Reg.sxtCmdStatus, Reg.chkInj, Reg.sxtFixOpPartial 3] ++ (List.range 8).map Reg.sxtCmdData

/-- The notification queue after an event of a table: a new record where the table has NOTIFY and the queue has room (R221). -/
def Noted (cause tb port : Nat) (result : BitVec 64) (key : Nat) (s t : State) : Prop :=
  t.sxt.notes =
    if s.bit (Reg.sxtTblCfg tb) 28 = true ∧ s.sxt.notes.length < 16384 then
      s.sxt.notes ++
        [⟨BitVec.ofNat 32 (2 ^ 31 + cause * 2 ^ 24 + tb % 256 * 2 ^ 8 + port % 128), toWords 2 result.toNat ++ toWords 2 key⟩]
    else s.sxt.notes

/-- The registers that a notification may change. -/
def noteRegs : List Nat := Reg.sxtNoteDrop :: (eventRegs (leafOf 14 2) ++ eventRegs (leafOf 14 4))

/-- The register tables hold each address once, in rising order, and no entry that equals the address's reset value, so that
equal registers are equal data. -/
def Canonical (s : State) : Prop := s.regs.wf resetOf = true ∧ s.hold.wf resetOf = true ∧ s.cap.wf resetOf = true

/-- How the fuses may move (R371): a key hash once written stays, a REVOKED bit once set stays, an SVN minimum never falls. -/
def FusesGrow (a b : Otp) : Prop :=
  (∀ (i : Nat) (h : BitVec 384), a.keyHash[i]? = some (some h) → b.keyHash[i]? = some (some h)) ∧
    (∀ i, i < 4 → a.revoked.getLsbD i = true → b.revoked.getLsbD i = true) ∧
    a.imgSvnMin ≤ b.imgSvnMin ∧ a.fwSvnMin ≤ b.fwSvnMin

end Sys2Proof.Safety
end

