-- ==== Sys2Proof/Certificates/Slice0/Obligations.lean ====
section
/-!
DEFINITION. Certificates/Slice0/Obligations.lean: the statements for the provers. `Runs c s P` says that the command `c` completes
in state `s` and that `P` holds of the state it answers.
-/

open Sys2Proof Sys2Proof.Machine Sys2Proof.Safety


/-! ### The machine -/

/-- For every command c, every queue rest and every state s: step of s with c at the front of its queue is exec of c on s with the
queue's rest. -/
def Obligations.StepRunsTheFrontCommand : Prop :=
  ∀ (c : Instr) (rest : List Instr) (s : State), step { s with pending := c :: rest } = exec c { s with pending := rest }

/-- On an empty queue step answers a next state in which the raw counter has grown by 65,536. With no booking waiting for the
Reckoner, nothing else has changed but the counts of the threshold counters and the slot counts, which time drives; with one
waiting, the Reckoner takes it after that tick and none waits any more (R163). That an idle step is one tick of the 1 GHz clock
is the model's choice (log entry 1); that a tick adds 65,536 is R71. -/
def Obligations.IdleStepIsOneTick : Prop :=
  (∀ s : State, s.pending = [] → s.rck.booking = none → ∃ t, step s = .next t ∧ t.raw = s.raw + 65536 ∧
    t = { s with raw := t.raw, regs := t.regs, obs := { s.obs with slots := t.obs.slots } } ∧
    RegsBut ((List.range 16).flatMap fun k => [Reg.obsThrCountLo k, Reg.obsThrCountHi k]) s t) ∧
  (∀ (s : State) (r : BookReq), s.pending = [] → s.rck.booking = some r → r.at' ≠ s.raw + 65536 →
    ∃ t, step s = .next t ∧ t.raw = s.raw + 65536 ∧ t.rck.booking = none ∧ t.bit Reg.dbaBookStatus 31 = false ∧
      t.bit Reg.dbaBookStatus 30 = true)

/-- For every command c, with every value of its operands, and every state s: exec c s answers a next state, and the queue of that
state is the queue of s. The spec stops none of its commands: each of the 323 has an effect, or changes nothing where its
conditions do not hold. -/
def Obligations.EveryCommandLeavesTheQueue : Prop :=
  ∀ (c : Instr) (s : State), Runs c s fun t => t.pending = s.pending

/-- For every command c, with every value of its operands, and every state s: exec c s answers a next state, and the outputs of s
are a prefix of the outputs of that state. The outbox is the model's record of what leaves the device. -/
def Obligations.OutputsAreOnlyAppended : Prop :=
  ∀ (c : Instr) (s : State), Runs c s fun t => s.out <+: t.out

/-- For every state whose raw counter is a whole number of ticks (a multiple of 65,536, R71), every next state that step answers has
one too: no command sets, steps or slews the counter off the tick. Time passes in whole ticks also where a command names an
instant within one (log entry 2). -/
def Obligations.EveryStepKeepsWholeTicks : Prop :=
  ∀ s t : State, WholeTick s → step s = .next t → WholeTick t

/-- For every state whose register, holding-register and capture tables are canonical (each address once, in rising order, no entry
equal to its reset value), every next state that step answers has canonical tables. The form is the model's; the registers and
their reset values are the spec's. -/
def Obligations.EveryStepKeepsRegistersCanonical : Prop :=
  ∀ s t : State, Canonical s → step s = .next t → Canonical t

/-- For every state and every step that answers a next state: a key hash once written stays as written, a REVOKED bit once set stays
set, and neither SVN minimum falls (R371). -/
def Obligations.EveryStepGrowsFusesOnly : Prop :=
  ∀ s t : State, step s = .next t → FusesGrow s.sec.otp t.sec.otp

/-- For every command but OTP_PROGRAMMING_END and every state: the command completes, and the fuses are as before (R371: each value
changes only by OTP_PROGRAM). -/
def Obligations.OnlyOtpProgrammingMovesFuses : Prop :=
  ∀ (c : Instr) (s : State), c ≠ .otpProgrammingEnd → Runs c s fun t => t.sec.otp = s.sec.otp

/-- State.reset is in mode LOAD with DEV_MODE and DEV_MODE_CAUSE at their reset values, no command waits, nothing has been sent, the
raw counter is 0 (R71), and WholeTick and Canonical hold. -/
def Obligations.ResetMeetsTheInvariants : Prop :=
  State.reset.dev.mode = .load ∧ State.reset.rd Reg.devModeCause = 0 ∧ State.reset.pending = [] ∧ State.reset.out = [] ∧
    State.reset.raw = 0 ∧ WholeTick State.reset ∧ Canonical State.reset

/-! ### Host access (chapters 00 and 21) -/

/-- For every access to BAR0 or BAR2 whose size is not 4 bytes or whose address is not a multiple of 4: a read returns 0 and changes
nothing else, and a write leaves the state as it is. -/
def Obligations.AccessesOfOtherSizesDoNothing : Prop :=
  ∀ (bar2 : Bool) (addr size : Nat) (val : BitVec 64) (s : State),
  ¬(size = 4 ∧ addr % 4 = 0) →
  exec (.misalignedAccess bar2 false addr size val) s = .next { s with rdata := 0 } ∧
  exec (.misalignedAccess bar2 true addr size val) s = .next s

/-- At every BAR0 address that no register covers a read returns 0 and changes nothing else, and a write leaves the state as it is;
every address from 0x0140_0000 upward is such an address. -/
def Obligations.ReservedAddressesReadZeroAndIgnoreWrites : Prop :=
  (∀ (addr : BitVec 28) (val : Word) (s : State),
   regAt addr.toNat = none →
   exec (.reservedAddressAccess false addr val) s = .next { s with rdata := 0 } ∧
   exec (.reservedAddressAccess true addr val) s = .next s) ∧
  (∀ (a : Nat),
   0x01400000 ≤ a →
   regAt a = none)

/-- For every register, stored value, written value and bit: a W1S bit written 1 becomes 1, a W1C bit written 1 becomes 0, an RW bit
takes the written bit, and every other bit stays (Table 00.5, the Write column of the types a register stores). -/
def Obligations.WritesFollowFieldTypesBitByBit : Prop :=
  ∀ (d : RegD) (old v : Word) (b : Nat),
  b < 32 →
  (d.written old v).getLsbD b =
  (if d.w1sMask.getLsbD b && v.getLsbD b then true
  else if d.w1cMask.getLsbD b && v.getLsbD b then false
  else if d.rwMask.getLsbD b then v.getLsbD b
  else old.getLsbD b)

/-- A write of a register that spans one word and has no action of its own stores by field type in that register and changes nothing
else; a read of one returns its value with WO bits 0, clears its RC fields and changes nothing else (R9, Table 00.5). -/
def Obligations.PlainRegistersFollowTheirFieldTypes : Prop :=
  (∀ (addr : BitVec 28) (val : Word) (s : State) (d : RegD) (i j : Nat),
   regAt addr.toNat = some (d, i, j) →
   d.words = .single →
   writeFx d.base = none →
   s.regMapped d i = true →
   addr.toNat ≠ Reg.merFanCmd →
   addr.toNat ≠ Reg.merTgtResume →
   addr.toNat ≠ Reg.merCollCmd →
   Runs (.registerWrite addr val) s fun t =>
   t.rd addr.toNat = d.written (s.rd addr.toNat) val ∧ OnlyRegs [addr.toNat] s t) ∧
  (∀ (addr : BitVec 28) (s : State) (d : RegD) (i j : Nat),
   regAt addr.toNat = some (d, i, j) →
   d.words = .single →
   atBase d.base readFx = none →
   atBase d.base valueFx1 = none →
   atBase d.base valueFx2 = none →
   s.regMapped d i = true →
   Runs (.rcRead addr) s fun t =>
   t.rdata = s.rd addr.toNat &&& ~~~d.woMask ∧ t.rd addr.toNat = s.rd addr.toNat &&& ~~~d.rcMask ∧
   t = { s with rdata := t.rdata, regs := t.regs } ∧ RegsBut [addr.toNat] s t)

/-- For values of two registers without an action of their own: a write of the lower word goes to its holding register and nothing
else changes; a write of the higher word stores both, the lower as it is held, and changes nothing else; while a scan of a
check-value unit runs, or a gate list switch of the port is pending, a write of a word that it protects only sets the refusal's
status bit (R351, R269); a read of the lower word returns it and captures both words (R6). -/
def Obligations.TwoWordValuesCommitAndCaptureWhole : Prop :=
  (∀ (addr : BitVec 28) (val : Word) (s : State) (d : RegD) (i j : Nat),
   regAt addr.toNat = some (d, i, j) →
   d.words = .part 0 2 →
   unitReg d.base = true → s.scanBusy i = false →
   adminBase d.base = true → s.gatePending i = false →
   s.regMapped d i = true →
   addr.toNat ≠ Reg.merFanCmd →
   addr.toNat ≠ Reg.merTgtResume →
   addr.toNat ≠ Reg.merCollCmd →
   Runs (.multiwordLowWrite addr val) s fun t =>
   t.holdOf addr.toNat = val ∧ SameBut State.holdOf [addr.toNat] s t ∧ t = { s with hold := t.hold }) ∧
  (∀ (addr : BitVec 28) (val : Word) (s : State) (d d' : RegD) (i j i' j' : Nat),
   regAt addr.toNat = some (d, i, j) →
   d.words = .part 1 2 →
   unitReg d.base = true → s.scanBusy i = false →
   adminBase d.base = true → s.gatePending i = false →
   s.regMapped d i = true →
   4 ≤ addr.toNat →
   regAt (addr.toNat - 4) = some (d', i', j') →
   addr.toNat ≠ Reg.merFanCmd →
   addr.toNat ≠ Reg.merTgtResume →
   addr.toNat ≠ Reg.merCollCmd →
   d.base ≠ Reg.timeViewRateHi 0 →
   d.base ≠ Reg.timeViewStepHi 0 →
   d.base ≠ Reg.timeViewOffsetW2 0 →
   d.base ≠ Reg.chkUnitRunningHi 0 →
   Runs (.multiwordCommit addr val) s fun t =>
   t.rd addr.toNat = d.written (s.rd addr.toNat) val ∧
   t.rd (addr.toNat - 4) = d'.written (s.rd (addr.toNat - 4)) (s.holdOf (addr.toNat - 4)) ∧
   OnlyRegs [addr.toNat, addr.toNat - 4] s t) ∧
  (∀ (addr : BitVec 28) (val : Word) (s : State) (d : RegD) (i j : Nat),
   regAt addr.toNat = some (d, i, j) →
   d.words = .part 0 2 →
   unitReg d.base = true →
   s.regMapped d i = true →
   s.scanBusy i = true →
   exec (.multiwordLowWrite addr val) s = .next (s.setBit (Reg.chkUnitStatus i) 2 true)) ∧
  (∀ (addr : BitVec 28) (val : Word) (s : State) (d : RegD) (i j : Nat),
   regAt addr.toNat = some (d, i, j) →
   d.words = .part 0 2 →
   adminBase d.base = true →
   s.regMapped d i = true →
   s.gatePending i = true →
   exec (.multiwordLowWrite addr val) s = .next (s.setBit (Reg.almGateStatus i) 28 true)) ∧
  (∀ (addr : BitVec 28) (s : State) (d d' : RegD) (i j i' j' : Nat),
   regAt addr.toNat = some (d, i, j) →
   d.words = .part 0 2 →
   s.regMapped d i = true →
   regAt (addr.toNat + 4) = some (d', i', j') →
   d.base ≠ Reg.chkUnitBytesLo 0 →
   d.base ≠ Reg.chkUnitRunningLo 0 →
   Runs (.multiwordCaptureRead addr) s fun t =>
   t.rdata = s.valueAt d i j addr.toNat ∧ t.capOf addr.toNat = s.valueAt d i j addr.toNat ∧
   t.capOf (addr.toNat + 4) = s.valueAt d' i' j' (addr.toNat + 4) ∧
   t = { s with rdata := t.rdata, cap := t.cap } ∧ SameBut State.capOf [addr.toNat, addr.toNat + 4] s t)

/-! ### Network ports (chapters 01, 12 and 14) -/

/-- FRAME_INGRESS of a frame that the mode lets pass: with the ingress buffer full only CMP_ING_OVERRUN of the port's pipeline
changes, by one (R17); with room the frame joins the end of that pipeline's buffer with its ingress fields (R185) and no other
buffer changes; a frame that the mode does not let pass changes nothing. NET_FRAME_RECEIVE on a port that is up, in a mode that
receives: a frame under 64 bytes adds one to NET_RX_RUNT, one whose FCS is wrong adds one to NET_RX_FCS_ERR where the port does
not cut through (R298), a good frame longer than MAX_FRAME adds one to NET_RX_OVERSIZE, and nothing else changes but the port's
FEC counts; a good frame of at most MAX_FRAME bytes without MACsec validation adds one to NET_RX_FRAMES; a good pause or PFC
frame acts as PFC_RECEIVE does (R301, R302). On a port that is down, or in a mode that does not receive, it changes nothing but
the FEC counts. Choices of the model in it: log entries 53, 55, 116. -/
def Obligations.FramesEnterOrAreDroppedAndCounted : Prop :=
  (∀ (f : Frame) (s : State),
   s.passes (s.attach f) = true →
   Runs (.frameIngress f true) s fun t =>
   t.rd (Reg.cmpIngOverrun (s.pipeFor f.port)) = satAdd (s.rd (Reg.cmpIngOverrun (s.pipeFor f.port))) 1 ∧
   OnlyRegs [Reg.cmpIngOverrun (s.pipeFor f.port)] s t) ∧
  (∀ (f : Frame) (s : State),
   s.passes (s.attach f) = true →
   Runs (.frameIngress f false) s fun t =>
   t.ingress (s.pipeFor f.port) = s.ingress (s.pipeFor f.port) ++ [s.attach f] ∧
   SameBut State.ingress [s.pipeFor f.port] s t ∧ RegsBut [Reg.chkInj] s t ∧ t = { s with regs := t.regs, cmp := t.cmp }) ∧
  (∀ (f : Frame) (full : Bool) (s : State),
   s.passes (s.attach f) = false →
   exec (.frameIngress f full) s = .next s) ∧
  (∀ (i : Fin 26) (bytes : List Byte) (cap : Raw) (latency corr uncorr : Nat) (s : State),
   s.netUp i.val = true →
   s.serving = true ∨ s.dev.mode = .standby →
   bytes.length < 64 →
   Runs (.netFrameReceive i bytes cap latency corr uncorr) s fun t =>
   t.rd (Reg.netRxRunt i.val) = satAdd (s.rd (Reg.netRxRunt i.val)) 1 ∧
   OnlyRegs [Reg.netRxRunt i.val, Reg.netFecCorr i.val, Reg.netFecUncorr i.val] s t) ∧
  (∀ (i : Fin 26) (bytes : List Byte) (cap : Raw) (latency corr uncorr : Nat) (s : State),
   s.netUp i.val = true →
   s.serving = true ∨ s.dev.mode = .standby →
   64 ≤ bytes.length →
   fcsOk bytes = false →
   s.ctPort i.val = false →
   Runs (.netFrameReceive i bytes cap latency corr uncorr) s fun t =>
   t.rd (Reg.netRxFcsErr i.val) = satAdd (s.rd (Reg.netRxFcsErr i.val)) 1 ∧
   OnlyRegs [Reg.netRxFcsErr i.val, Reg.netFecCorr i.val, Reg.netFecUncorr i.val] s t) ∧
  (∀ (i : Fin 26) (bytes : List Byte) (cap : Raw) (latency corr uncorr : Nat) (s : State),
   s.netUp i.val = true →
   s.serving = true →
   64 ≤ bytes.length →
   fcsOk bytes = true →
   isPause bytes = false →
   s.bit (Reg.netSecCfg i.val) 30 = false →
   Runs (.netFrameReceive i bytes cap latency corr uncorr) s fun t =>
   (bytes.length ≤ s.maxFrame i.val →
   t.rd (Reg.netRxFrames i.val) = satAdd (s.rd (Reg.netRxFrames i.val)) 1 ∧
   RegsBut [Reg.netRxFrames i.val, Reg.netFecCorr i.val, Reg.netFecUncorr i.val,
   Reg.cmpIngOverrun (s.pipeFor (devPort i.val)), Reg.chkInj] s t ∧
   t = { s with regs := t.regs, net := t.net, cmp := t.cmp }) ∧
   (s.maxFrame i.val < bytes.length →
   t.rd (Reg.netRxOversize i.val) = satAdd (s.rd (Reg.netRxOversize i.val)) 1 ∧
   OnlyRegs [Reg.netRxOversize i.val, Reg.netFecCorr i.val, Reg.netFecUncorr i.val] s t)) ∧
  (∀ (i : Fin 26) (bytes : List Byte) (cap : Raw) (latency corr uncorr : Nat) (s : State),
   s.netUp i.val = true →
   s.serving = true ∨ s.dev.mode = .standby →
   64 ≤ bytes.length →
   fcsOk bytes = true →
   isPause bytes = true →
   exec (.netFrameReceive i bytes cap latency corr uncorr) s = .next ((s.fecCount i.val corr uncorr).macControl i.val bytes) ∧
   Runs (.netFrameReceive i bytes cap latency corr uncorr) s fun t =>
   t.rd (Reg.netFcRx i.val) = satAdd (s.rd (Reg.netFcRx i.val)) 1 ∧
   RegsBut [Reg.netFcRx i.val, Reg.netFecCorr i.val, Reg.netFecUncorr i.val] s t ∧
   t = { s with regs := t.regs, net := t.net } ∧ SameBut State.netPort [i.val] s t) ∧
  (∀ (i : Fin 26) (bytes : List Byte) (cap : Raw) (latency corr uncorr : Nat) (s : State),
   s.netUp i.val = false →
   exec (.netFrameReceive i bytes cap latency corr uncorr) s = .next s) ∧
  (∀ (i : Fin 26) (bytes : List Byte) (cap : Raw) (latency corr uncorr : Nat) (s : State),
   s.serving = false →
   s.dev.mode ≠ .standby →
   Runs (.netFrameReceive i bytes cap latency corr uncorr) s fun t =>
   OnlyRegs [Reg.netFecCorr i.val, Reg.netFecUncorr i.val] s t)

/-- STAGING_TRANSMIT on a port that is up lets time pass to its capture, sends a PFC frame that is due, ends a cut-through frame
that has run dry, and on a network port drops the heads that no gate opening holds. Then, where no frame is on the wire and some
class may start, the head of the highest such class leaves staging, and the wire is taken for its line time (R270, R272); a
whole frame without MACsec and without a stamp request is sent as one output and counted in NET_TX_FRAMES; a frame whose control
part fails its check leaves staging and is not sent (Table 17.2). Where the wire is taken or no class may start, nothing more
changes. On a port that is down nothing changes but time. Choices of the model in it: log entry 58. -/
def Obligations.StagedFramesAreSentHighestClassFirst : Prop :=
  (∀ (i : Fin 26) (cap : Raw) (latency : Nat) (bad : Fin 3) (s u : State) (c : Nat) (f : Stored),
   (s.advance cap).netUp i.val = true →
   u = (if i.val < 24 then (((s.advance cap).pfcDue i.val).txDry i.val).testHeads i.val else ((s.advance cap).pfcDue
     i.val).txDry i.val) →
   (u.netPort i.val).tx = none →
   u.reached (u.netPort i.val).wire = true →
   [7, 6, 5, 4, 3, 2, 1, 0].find? (u.classStarts i.val) = some c →
   headOf c (u.staging (devPort i.val)) = some f →
   exec (.stagingTransmit i cap latency bad) s = .next (u.txStart i.val f cap latency bad)) ∧
  (∀ (i : Fin 26) (cap : Raw) (latency : Nat) (s u : State) (c : Nat) (f : Stored),
   (s.advance cap).netUp i.val = true →
   u = (if i.val < 24 then (((s.advance cap).pfcDue i.val).txDry i.val).testHeads i.val else ((s.advance cap).pfcDue
     i.val).txDry i.val) →
   (u.netPort i.val).tx = none →
   u.reached (u.netPort i.val).wire = true →
   [7, 6, 5, 4, 3, 2, 1, 0].find? (u.classStarts i.val) = some c →
   headOf c (u.staging (devPort i.val)) = some f →
   f.part = none →
   f.ts = none →
   u.bit (Reg.netSecCfg i.val) 31 = false →
   Runs (.stagingTransmit i cap latency 0) s fun t =>
   t.staging (devPort i.val) = (u.staging (devPort i.val)).erase f ∧
   (t.netPort i.val).wire = u.raw + u.lineTime i.val (txLen f) ∧ t.out.length = u.out.length + 1 ∧
   t.rd (Reg.netTxFrames i.val) = satAdd (u.rd (Reg.netTxFrames i.val)) 1 ∧
   RegsBut [Reg.netTxFrames i.val] u t ∧ t = { u with regs := t.regs, alm := t.alm, net := t.net, out := t.out }) ∧
  (∀ (i : Fin 26) (cap : Raw) (latency : Nat) (s u : State) (c : Nat) (f : Stored),
   (s.advance cap).netUp i.val = true →
   u = (if i.val < 24 then (((s.advance cap).pfcDue i.val).txDry i.val).testHeads i.val else ((s.advance cap).pfcDue
     i.val).txDry i.val) →
   (u.netPort i.val).tx = none →
   u.reached (u.netPort i.val).wire = true →
   [7, 6, 5, 4, 3, 2, 1, 0].find? (u.classStarts i.val) = some c →
   headOf c (u.staging (devPort i.val)) = some f →
   Runs (.stagingTransmit i cap latency 1) s fun t =>
   t = (u.setStaging (devPort i.val) ((u.staging (devPort i.val)).erase f)).memoryError 8 true 0 0 0) ∧
  (∀ (i : Fin 26) (cap : Raw) (latency : Nat) (bad : Fin 3) (s u : State),
   (s.advance cap).netUp i.val = true →
   u = (if i.val < 24 then (((s.advance cap).pfcDue i.val).txDry i.val).testHeads i.val else ((s.advance cap).pfcDue
     i.val).txDry i.val) →
   (u.netPort i.val).tx ≠ none ∨ u.reached (u.netPort i.val).wire = false ∨ [7, 6, 5, 4, 3, 2, 1, 0].all (fun c =>
     !u.classStarts i.val c) = true →
   exec (.stagingTransmit i cap latency bad) s = .next u) ∧
  (∀ (i : Fin 26) (cap : Raw) (latency : Nat) (bad : Fin 3) (s : State),
   (s.advance cap).netUp i.val = false →
   exec (.stagingTransmit i cap latency bad) s = .next (s.advance cap))

/-- PFC_RECEIVE on a port that is up counts the frame in NET_FC_RX and, where the port takes flow control, sets each enabled
priority's pause timer to its quanta in bit times of the port, 0 clearing it (R301, R302); PAUSE_TIMER_EXPIRY ends a timer whose
instant has come and changes nothing but time and that timer; PFC_SEND on a port that is up outside SAFE, where the XOFF states
have changed, takes them over, sends one frame and counts it in NET_FC_TX; PFC_REPEAT sends and counts one while a priority
stays in XOFF and half the quanta have passed since the last (R303); in SAFE and on a port that is down neither sends. Choices
of the model in it: log entry 115. -/
def Obligations.PauseTimersAndPfcFramesFollowFlowControl : Prop :=
  (∀ (i : Fin 26) (enable : Fin 256) (quanta : List Nat) (s : State),
   s.netUp i.val = true →
   Runs (.pfcReceive i enable quanta) s fun t =>
   t.rd (Reg.netFcRx i.val) = satAdd (s.rd (Reg.netFcRx i.val)) 1 ∧ RegsBut [Reg.netFcRx i.val] s t ∧
   t = { s with regs := t.regs, net := t.net } ∧ SameBut State.netPort [i.val] s t) ∧
  (∀ (i : Fin 26) (enable : Fin 256) (quanta : List Nat) (c : Fin 8) (s : State),
   s.netUp i.val = true →
   s.fcMode i.val ≠ 0 →
   enable.val / 2 ^ c.val % 2 = 1 →
   Runs (.pfcReceive i enable quanta) s fun t =>
   (t.netPort i.val).pause.get (fun _ => none) c.val =
   if quanta.getD c.val 0 = 0 then none
   else some (s.raw + BitVec.ofNat 96 (quanta.getD c.val 0 * 512 * 65536 / max 1 (gbps (s.netPers i.val))))) ∧
  (∀ (i : Fin 26) (enable : Fin 256) (quanta : List Nat) (s : State),
   s.netUp i.val = false →
   exec (.pfcReceive i enable quanta) s = .next s) ∧
  (∀ (i : Fin 26) (c : Fin 8) (at' : Raw) (s : State) (e : Raw),
   ((s.advance at').netPort i.val).pause.get (fun _ => none) c.val = some e →
   (s.advance at').reached e = true →
   Runs (.pauseTimerExpiry i c at') s fun t =>
   (t.netPort i.val).pause.get (fun _ => none) c.val = none ∧ t = { s.advance at' with net := t.net } ∧
   SameBut State.netPort [i.val] (s.advance at') t) ∧
  (∀ (i : Fin 26) (c : Fin 8) (at' : Raw) (s : State),
   (((s.advance at').netPort i.val).pause.get (fun _ => none) c.val).any (fun e => (s.advance at').reached e) = false →
   exec (.pauseTimerExpiry i c at') s = .next (s.advance at')) ∧
  (∀ (i : Fin 26) (s : State),
   s.fcSends i.val = true →
   s.xoffNow i.val ≠ (s.netPort i.val).xoff →
   Runs (.pfcSend i) s fun t =>
   (t.netPort i.val).xoff = s.xoffNow i.val ∧ (t.netPort i.val).pfcAt = s.raw ∧
   t.rd (Reg.netFcTx i.val) = satAdd (s.rd (Reg.netFcTx i.val)) 1 ∧
   t.out.length = s.out.length + 1 ∧ RegsBut [Reg.netFcTx i.val] s t ∧
   t = { s with regs := t.regs, net := t.net, out := t.out } ∧ SameBut State.netPort [i.val] s t) ∧
  (∀ (i : Fin 26) (at' : Raw) (s u : State),
   u = s.advance at' →
   u.fcSends i.val = true →
   (u.netPort i.val).xoff ≠ 0 →
   u.reached (u.pfcNext i.val) = true →
   Runs (.pfcRepeat i at') s fun t =>
   (t.netPort i.val).pfcAt = u.raw ∧ t.rd (Reg.netFcTx i.val) = satAdd (u.rd (Reg.netFcTx i.val)) 1 ∧
   t.out.length = u.out.length + 1 ∧ RegsBut [Reg.netFcTx i.val] u t ∧
   t = { u with regs := t.regs, net := t.net, out := t.out } ∧ SameBut State.netPort [i.val] u t) ∧
  (∀ (i : Fin 26) (at' : Raw) (s u : State),
   u = s.advance at' →
   u.fcSends i.val = false →
   exec (.pfcSend i) u = .next u ∧ exec (.pfcRepeat i at') s = .next u)

/-- A failure (PCS lock lost, local fault, remote fault) on a port that is up with no other cause takes it down with DOWN_CAUSE 3, 4
or 5, adds one to NET_LINK_DOWNS and raises its event; on a port that is down it only sets what its status register says. Good
state on a port that may come up and settles for UP_MS starts its timer with cause 6, with UP_MS 0 brings it up, and in LOAD
does nothing; the timer's end brings the port up with cause 0 and the FEC in use, and before its instant only time passes;
PORT_RESET written 1 on a port that is down clears the pause timers, the FEC in use and PCS lock with cause 3, and its end
returns the bit to 0 and does nothing where the bit is 0 (R296, R299, R300). With a failure or a reset nothing outside the
port's own registers and block changes where the port was down. Choices of the model in it: log entry 58. -/
def Obligations.PortsGoDownAtFailuresAndSettleInGoodState : Prop :=
  (∀ (i : Fin 26) (what : Fin 3) (s : State),
   s.netUp i.val = true →
   s.netCause i.val = 0 →
   Runs (.netPortFailure i what) s fun t =>
   t.netUp i.val = false ∧ t.fld (Reg.netPortStatus i.val) 26 24 = 3 + what.val ∧
   t.bit (Reg.netPortStatus i.val) 30 = (what.val != 0) ∧ t.bit (Reg.netPortStatus i.val) 29 = (what.val == 1) ∧
   t.bit (Reg.netPortStatus i.val) 28 = (what.val == 2) ∧
   t.rd (Reg.netLinkDowns i.val) = satAdd (s.rd (Reg.netLinkDowns i.val)) 1 ∧ Raised (leafOf 8 i.val) t) ∧
  (∀ (i : Fin 26) (what : Fin 3) (s : State),
   s.netUp i.val = false →
   s.netCause i.val ≠ 0 →
   Runs (.netPortFailure i what) s fun t =>
   t.netUp i.val = false ∧ RegsBut [Reg.netPortStatus i.val] s t ∧
   t = { s with regs := t.regs, net := t.net } ∧ SameBut State.netPort [i.val] s t) ∧
  (∀ (i : Fin 26) (polInv : Fin 16) (trained : Bool) (s : State),
   s.dev.mode ≠ .load →
   s.netUp i.val = false →
   s.bit (Reg.netPortCfg i.val) 31 = true →
   s.netPers i.val ≠ 0 →
   s.bit (Reg.netPortCfg i.val) 29 = false →
   i.val < 24 → (s.pwr.cages.get (fun _ => {}) (48 + i.val)).st = .on →
   s.upMs i.val ≠ 0 →
   (s.netPort i.val).upAt = none →
   Runs (.netPortGoodState i polInv trained) s fun t =>
   t.fld (Reg.netPortStatus i.val) 26 24 = 6 ∧ t.fld (Reg.netPortStatus i.val) 19 16 = polInv.val ∧
   t.bit (Reg.netPortStatus i.val) 30 = true ∧ t.bit (Reg.netPortStatus i.val) 27 = (trained && s.ltEn i.val) ∧
   (t.netPort i.val).upAt = some (s.after (1000 * s.upMs i.val)) ∧ RegsBut [Reg.netPortStatus i.val] s t ∧
   t = { s with regs := t.regs, net := t.net } ∧ SameBut State.netPort [i.val] s t) ∧
  (∀ (i : Fin 26) (polInv : Fin 16) (trained : Bool) (s : State),
   s.dev.mode ≠ .load →
   s.netUp i.val = false →
   s.bit (Reg.netPortCfg i.val) 31 = true →
   s.netPers i.val ≠ 0 →
   s.bit (Reg.netPortCfg i.val) 29 = false →
   i.val < 24 → (s.pwr.cages.get (fun _ => {}) (48 + i.val)).st = .on →
   s.upMs i.val = 0 →
   Runs (.netPortGoodState i polInv trained) s fun t =>
   t.netUp i.val = true ∧ t.fld (Reg.netPortStatus i.val) 26 24 = 0 ∧ (t.netPort i.val).upAt = none ∧
   (t.netPort i.val).fec = s.fecFor i.val) ∧
  (∀ (i : Fin 26) (polInv : Fin 16) (trained : Bool) (s : State),
   s.dev.mode = .load →
   exec (.netPortGoodState i polInv trained) s = .next s) ∧
  (∀ (i : Fin 26) (at' : Raw) (s u : State) (e : Raw),
   u = s.advance at' →
   (u.netPort i.val).upAt = some e →
   u.reached e = true →
   u.netCause i.val = 0 →
   Runs (.netPortUpTimer i at') s fun t =>
   t.netUp i.val = true ∧ t.fld (Reg.netPortStatus i.val) 26 24 = 0 ∧ (t.netPort i.val).upAt = none ∧
   (t.netPort i.val).fec = u.fecFor i.val ∧ Raised (leafOf 8 i.val) t) ∧
  (∀ (i : Fin 26) (at' : Raw) (s u : State),
   u = s.advance at' →
   ((u.netPort i.val).upAt).any (fun e => u.reached e) = false →
   exec (.netPortUpTimer i at') s = .next u) ∧
  (∀ (i : Fin 26) (val : Word) (s : State),
   s.netMapped i.val false = true →
   s.bit (Reg.netPortCfg i.val) 29 = false →
   bit val 29 = true →
   s.netUp i.val = false →
   bit val 31 = true →
   s.netPers i.val ≠ 0 →
   i.val < 24 → (s.pwr.cages.get (fun _ => {}) (48 + i.val)).st = .on →
   Runs (.netPortReset i val) s fun t =>
   (t.netPort i.val).pause = [] ∧ (t.netPort i.val).upAt = none ∧ (t.netPort i.val).fec = 0 ∧
   t.bit (Reg.netPortStatus i.val) 30 = false ∧
   t.bit (Reg.netPortCfg i.val) 29 = true ∧ t.fld (Reg.netPortStatus i.val) 26 24 = 3 ∧
   RegsBut [Reg.netPortStatus i.val, Reg.netPortCfg i.val] s t ∧ t = { s with regs := t.regs, net := t.net } ∧
   SameBut State.netPort [i.val] s t) ∧
  (∀ (i : Fin 26) (val : Word) (s : State),
   s.netMapped i.val false = true →
   s.bit (Reg.netPortCfg i.val) 29 = false →
   bit val 29 = true →
   s.netUp i.val = true →
   Runs (.netPortReset i val) s fun t =>
   t.netUp i.val = false ∧ t.bit (Reg.netPortCfg i.val) 29 = true ∧ (t.netPort i.val).pause = [] ∧
   t.rd (Reg.netLinkDowns i.val) = satAdd (s.rd (Reg.netLinkDowns i.val)) 1 ∧ Raised (leafOf 8 i.val) t) ∧
  (∀ (i : Fin 26) (s : State),
   s.bit (Reg.netPortCfg i.val) 29 = true →
   s.netUp i.val = false →
   s.bit (Reg.netPortCfg i.val) 31 = true →
   s.netPers i.val ≠ 0 →
   i.val < 24 → (s.pwr.cages.get (fun _ => {}) (48 + i.val)).st = .on →
   Runs (.netPortResetComplete i false) s fun t =>
   t.bit (Reg.netPortCfg i.val) 29 = false ∧ t.fld (Reg.netPortStatus i.val) 26 24 = 3 ∧
   RegsBut [Reg.netPortStatus i.val, Reg.netPortCfg i.val] s t ∧ t = { s with regs := t.regs, net := t.net } ∧
   SameBut State.netPort [i.val] s t) ∧
  (∀ (i : Fin 26) (locked : Bool) (s : State),
   (s.bit (Reg.netPortCfg i.val) 29 = true →
   Runs (.netPortResetComplete i locked) s fun t => t.bit (Reg.netPortCfg i.val) 29 = false) ∧
   (s.bit (Reg.netPortCfg i.val) 29 = false → exec (.netPortResetComplete i locked) s = .next s))

/-- On a network port with a personality, without the error state: SA_WRITE by a User stores the staged key, salt, SSCI and PN of
the selected association as one whole; without the role it is denied, counted in SEC_DENIED and changes no association (R305,
R374); SA_CLEAR by a User invalidates the selected association; SA_READ loads its PN into NET_SEC_SA_PN and its VALID into
NET_SEC_SA_INFO; RXSC_WRITE sets the SCI and VALID of a receive channel (R307). A write that carries several of the three bits
does each that it names, the read last; on a port without these registers none changes anything. Choices of the model in it: log
entries 68, 93. -/
def Obligations.MacsecAssociationsAreSetReadAndCleared : Prop :=
  (∀ (i : Fin 26) (val : Word) (s : State),
   s.netMapped i.val true = true →
   s.isUser = true →
   s.sec.error = false →
   bit val 31 = true →
   bit val 30 = false →
   Runs (.saWrite i val) s fun t =>
   t.sa i.val (saKey (bit val 28) (fld val 21 16) (fld val 1 0)) = s.saStaged i.val ∧
   SameBut State.netPort [i.val] s t ∧ RegsBut [Reg.netSecSaSel i.val] s t ∧ t = { s with regs := t.regs, net := t.net }) ∧
  (∀ (i : Fin 26) (val : Word) (s : State),
   s.netMapped i.val true = true →
   s.isUser = false →
   bit val 31 = true →
   bit val 30 = false →
   Runs (.saWrite i val) s fun t =>
   t.rd Reg.secDenied = satAdd (s.rd Reg.secDenied) 1 ∧ t.net = s.net) ∧
  (∀ (i : Fin 26) (val : Word) (s : State),
   s.netMapped i.val true = true →
   s.isUser = true →
   bit val 29 = true →
   bit val 31 = false →
   bit val 30 = false →
   Runs (.saClear i val) s fun t =>
   t.sa i.val (saKey (bit val 28) (fld val 21 16) (fld val 1 0)) = {} ∧
   SameBut State.netPort [i.val] s t ∧ RegsBut [Reg.netSecSaSel i.val] s t ∧ t = { s with regs := t.regs, net := t.net }) ∧
  (∀ (i : Fin 26) (val : Word) (s : State),
   s.netMapped i.val true = true →
   bit val 29 = false →
   bit val 31 = false →
   bit val 30 = true →
   Runs (.saRead i val) s fun t =>
   t.rd64 (Reg.netSecSaPnLo i.val) = (s.sa i.val (saKey (bit val 28) (fld val 21 16) (fld val 1 0))).pn.toNat ∧
   t.bit (Reg.netSecSaInfo i.val) 31 = (s.sa i.val (saKey (bit val 28) (fld val 21 16) (fld val 1 0))).valid ∧
   OnlyRegs [Reg.netSecSaSel i.val, Reg.netSecSaPnLo i.val, Reg.netSecSaPnLo i.val + 4, Reg.netSecSaInfo i.val] s t) ∧
  (∀ (i : Fin 26) (val : Word) (s : State),
   s.netMapped i.val true = true →
   bit val 31 = true →
   Runs (.rxscWrite i val) s fun t =>
   (t.netPort i.val).rxsc.get (fun _ => (false, 0)) (fld val 5 0) =
   (bit val 30, BitVec.ofNat 64 (s.rd64 (Reg.netSecRxscSciLo i.val))) ∧
   SameBut State.netPort [i.val] s t ∧ RegsBut [Reg.netSecRxscCtrl i.val] s t ∧ t = { s with regs := t.regs, net := t.net }) ∧
  (∀ (i : Fin 26) (val : Word) (s : State),
   s.netMapped i.val true = true →
   bit val 30 = true →
   (Runs (.saWrite i val) s fun t =>
   t.rd64 (Reg.netSecSaPnLo i.val) = (t.sa i.val (saKey (bit val 28) (fld val 21 16) (fld val 1 0))).pn.toNat) ∧
   (Runs (.saRead i val) s fun t =>
   t.rd64 (Reg.netSecSaPnLo i.val) = (t.sa i.val (saKey (bit val 28) (fld val 21 16) (fld val 1 0))).pn.toNat ∧
   t.bit (Reg.netSecSaInfo i.val) 31 = (t.sa i.val (saKey (bit val 28) (fld val 21 16) (fld val 1 0))).valid)) ∧
  (∀ (i : Fin 26) (val : Word) (s : State),
   s.netMapped i.val true = true →
   s.isUser = true →
   (bit val 31 = true → s.sec.error = false → Runs (.saWrite i val) s fun t =>
   t.sa i.val (saKey (bit val 28) (fld val 21 16) (fld val 1 0)) = s.saStaged i.val) ∧
   (bit val 29 = true → (bit val 31 = false ∨ s.sec.error = true) → Runs (.saClear i val) s fun t =>
   t.sa i.val (saKey (bit val 28) (fld val 21 16) (fld val 1 0)) = {})) ∧
  (∀ (i : Fin 26) (val : Word) (s : State),
   s.netMapped i.val true = false →
   exec (.saWrite i val) s = .next s ∧ exec (.saRead i val) s = .next s ∧ exec (.saClear i val) s = .next s ∧
   exec (.rxscWrite i val) s = .next s)

/-! ### Charts and the BAR2 windows (chapters 09 and 21) -/

/-- CHART_ENTRY_WRITE with ONE pipeline p below 9 and an entry inside its table stores the sixteen CMP_TBL_DATA words as that entry
of that bank in that pipeline, and no other entry changes; with ALL pipelines it stores them in each of the nine; outside the
table, or with a pipeline number of 9 or more, no entry changes. CHART_ENTRY_READ loads the entry of the selected pipeline (of
pipeline 0 with ALL) into CMP_TBL_DATA and changes no entry. CHART_TABLE_SELECT loads CMP_TBL_INFO of the table. No other
register changes but an armed CHK_INJ (R187, R189, R190). Choices of the model in it: log entry 42. -/
def Obligations.ChartEntriesAreWrittenAndReadWhole : Prop :=
  (∀ (val : Word) (s : State),
   bit val 31 = true →
   s.chartHas (fld val 28 21) (fld val 20 0) = true →
   s.bit Reg.cmpTblPipe 4 = false →
   s.fld Reg.cmpTblPipe 3 0 < 9 →
   Runs (.chartEntryWrite val) s fun t =>
   t.chartAt (s.fld Reg.cmpTblPipe 3 0) (fld val 29 29) (fld val 28 21) (fld val 20 0) = s.tblData ∧
   (∀ k, k ≠ chartKey (s.fld Reg.cmpTblPipe 3 0) (fld val 29 29) (fld val 28 21) (fld val 20 0) →
   t.cmp.chart.get (fun _ => chartBlank) k = s.cmp.chart.get (fun _ => chartBlank) k) ∧
   RegsBut ([Reg.cmpTblSel, Reg.cmpTblInfo, Reg.chkInj] ++ (List.range 16).map Reg.cmpTblData) s t ∧ t =
     { s with regs := t.regs, cmp := t.cmp }) ∧
  (∀ (val : Word) (s : State) (p : Nat),
   bit val 31 = true →
   s.chartHas (fld val 28 21) (fld val 20 0) = true →
   s.bit Reg.cmpTblPipe 4 = true →
   p < 9 →
   Runs (.chartEntryWrite val) s fun t =>
   t.chartAt p (fld val 29 29) (fld val 28 21) (fld val 20 0) = s.tblData ∧
   RegsBut ([Reg.cmpTblSel, Reg.cmpTblInfo, Reg.chkInj] ++ (List.range 16).map Reg.cmpTblData) s t ∧ t =
     { s with regs := t.regs, cmp := t.cmp }) ∧
  (∀ (val : Word) (s : State),
   s.chartHas (fld val 28 21) (fld val 20 0) = false ∨ (s.bit Reg.cmpTblPipe 4 = false ∧ 9 ≤ s.fld Reg.cmpTblPipe 3 0) →
   Runs (.chartEntryWrite val) s fun t =>
   t.cmp = s.cmp ∧ OnlyRegs ([Reg.cmpTblSel, Reg.cmpTblInfo] ++ (List.range 16).map Reg.cmpTblData) s t) ∧
  (∀ (val : Word) (s : State) (i : Nat),
   bit val 31 = false →
   bit val 30 = true →
   (s.chartAt (if s.bit Reg.cmpTblPipe 4 then 0 else s.fld Reg.cmpTblPipe 3 0) (fld val 29 29) (fld val 28 21) (fld val 20
     0)).length = 16 →
   i < 16 →
   Runs (.chartEntryRead val) s fun t =>
   t.rd (Reg.cmpTblData i) =
   (s.chartAt (if s.bit Reg.cmpTblPipe 4 then 0 else s.fld Reg.cmpTblPipe 3 0) (fld val 29 29) (fld val 28 21) (fld val 20
     0)).getD i 0 ∧
   OnlyRegs ([Reg.cmpTblSel, Reg.cmpTblInfo] ++ (List.range 16).map Reg.cmpTblData) s t) ∧
  (∀ (val : Word) (s : State),
   bit val 31 = false →
   bit val 30 = false →
   Runs (.chartTableSelect val) s fun t =>
   t.rd Reg.cmpTblInfo = s.tblInfo (fld val 28 21) ∧ OnlyRegs [Reg.cmpTblSel, Reg.cmpTblInfo] s t)

/-- CHART_COMMIT_GO whose TARGET is not the active bank makes it the active bank, adds one to SWITCH_COUNT modulo 256 and leaves
PENDING 0; one whose TARGET is the active bank leaves ACTIVE_BANK and SWITCH_COUNT as they were and PENDING 0; one in the clock
in which a waypoint's switch of the charts took effect does nothing more (R38). Nothing but CMP_COMMIT changes (R197). -/
def Obligations.ChartBankSwitchesResolveAtOnce : Prop :=
  (∀ (val : Word) (s : State),
   bit val 31 = true →
   s.wpSame 1 = false →
   s.activeBank Reg.cmpCommit ≠ fld val 0 0 →
   Runs (.chartCommitGo val) s fun t =>
   t.activeBank Reg.cmpCommit = fld val 0 0 ∧ t.fld Reg.cmpCommit 15 8 = (s.fld Reg.cmpCommit 15 8 + 1) % 256 ∧
   t.bit Reg.cmpCommit 30 = false ∧ OnlyRegs [Reg.cmpCommit] s t) ∧
  (∀ (val : Word) (s : State),
   bit val 31 = true →
   s.wpSame 1 = false →
   s.activeBank Reg.cmpCommit = fld val 0 0 →
   Runs (.chartCommitGo val) s fun t =>
   t.activeBank Reg.cmpCommit = s.activeBank Reg.cmpCommit ∧ t.fld Reg.cmpCommit 15 8 = s.fld Reg.cmpCommit 15 8 ∧
   t.bit Reg.cmpCommit 30 = false ∧ OnlyRegs [Reg.cmpCommit] s t) ∧
  (∀ (val : Word) (s : State),
   s.wpSame 1 = true →
   Runs (.chartCommitGo val) s fun t =>
   t.activeBank Reg.cmpCommit = s.activeBank Reg.cmpCommit ∧ t.fld Reg.cmpCommit 15 8 = s.fld Reg.cmpCommit 15 8 ∧
   OnlyRegs [Reg.cmpCommit] s t)

/-- PIPELINE_PASS runs the pass of the oldest recirculating frame of the pipeline, if the mode lets it pass; with none
recirculating, that of the oldest frame in its ingress buffer, which leaves the buffer, if the mode lets it pass and no earlier
frame of its flow is still on another pipeline (R13, R21, R186, R194); a frame whose buffer fails its check is dropped and the
error reported (Table 17.2). With neither, or with a frame that the mode does not let pass at the front, nothing changes.
Choices of the model in it: log entries 43, 108. -/
def Obligations.PipelinesTakeRecirculatingFramesFirst : Prop :=
  (∀ (p : Fin 9) (bad : List Nat) (s : State) (fl : Flight) (fs : List Flight),
   s.recirc p.val = fl :: fs →
   s.passes fl.frame = true →
   exec (.pipelinePass p bad) s =
   .next (if bad.contains bufBad then (s.setRecirc p.val fs).memoryError 8 true 0 0 0 else (s.setRecirc p.val fs).runPass p.val
     fl bad)) ∧
  (∀ (p : Fin 9) (bad : List Nat) (s : State) (f : Frame) (fs : List Frame),
   s.recirc p.val = [] →
   s.ingress p.val = f :: fs →
   s.passes f = true →
   s.flowWaits p.val f = false →
   exec (.pipelinePass p bad) s = .next (if bad.contains bufBad then ((s.setIngress p.val fs).firstPass p.val f).2.memoryError 8
     true 0 0 0 else
   ((s.setIngress p.val fs).firstPass p.val f).2.runPass p.val ((s.setIngress p.val fs).firstPass p.val f).1 bad)) ∧
  (∀ (p : Fin 9) (bad : List Nat) (s : State),
   (s.recirc p.val).head?.all (fun fl => !s.passes fl.frame) = true →
   s.recirc p.val = [] → (s.ingress p.val).head?.all (fun f => !s.passes f || s.flowWaits p.val f) = true →
   exec (.pipelinePass p bad) s = .next s)

/-- With a valid structure: a steering write stores DEV_WIN_SEL or DEV_WIN_BASE and clears that window's staging image and no other
(R407); a write of a word other than an entry's last stores into that position of the image alone; the last word of a window 0
entry commits the image as a chart write (R408); the last word of a window 1 entry queues a WRITE, or, with 256 waiting, is
discarded and counted in DEV_WIN_DROP (R409); a read at word 0 captures the entry and returns its first word, one at another
word returns that word as captured; a counter window read of a low half returns it and captures the high half, which a read of
the high half returns (R410). Without a valid structure windows 0 and 1 ignore writes and read 0; in LOAD the counter window
reads 0. Choices of the model in it: log entry 92. -/
def Obligations.WindowsStageCommitAndCaptureEntries : Prop :=
  (∀ (w : Fin 2) (val : Word) (s : State) (i : Nat),
   i < 16 →
   Runs (.windowSteerWrite w true val) s fun t =>
   t.fld (Reg.devWinBase w.val) 20 0 = fld val 20 0 ∧ t.stageAt w.val i = 0 ∧ t.stageAt (1 - w.val) i = s.stageAt (1 - w.val) i
     ∧
   RegsBut [Reg.devWinBase w.val] s t ∧ t = { s with regs := t.regs, win := t.win }) ∧
  (∀ (w : Fin 2) (off : BitVec 26) (val : Word) (s : State),
   s.dev.structValid = true →
   off.toNat % 4 = 0 →
   off.toNat / 4 % winWords w.val + 1 ≠ winWords w.val →
   Runs (.windowStageWrite w off val) s fun t =>
   t.stageAt w.val (off.toNat / 4 % winWords w.val) = val ∧ t = { s with win := t.win } ∧
   SameBut (fun u k => u.win.stage.get (fun _ => 0) k) [w.val * 16 + off.toNat / 4 % winWords w.val] s t) ∧
  (∀ (off : BitVec 26) (val : Word) (s : State),
   s.dev.structValid = true →
   off.toNat % 64 = 60 →
   s.chartHas (s.winTable 0) (s.winEntry 0 off.toNat) = true →
   s.bit (Reg.devWinSel 0) 31 = false →
   s.fld (Reg.devWinSel 0) 27 24 < 9 →
   Runs (.chartWindowCommit off val) s fun t =>
   t.chartAt (s.fld (Reg.devWinSel 0) 27 24) (s.fld (Reg.devWinSel 0) 16 16) (s.winTable 0) (s.winEntry 0 off.toNat) =
   (List.range 15).map (s.stageAt 0) ++ [val] ∧ RegsBut [Reg.chkInj] s t ∧ t =
     { s with regs := t.regs, win := t.win, cmp := t.cmp }) ∧
  (∀ (off : BitVec 26) (val : Word) (s : State) (p : Nat),
   s.dev.structValid = true →
   off.toNat % 64 = 60 →
   s.chartHas (s.winTable 0) (s.winEntry 0 off.toNat) = true →
   s.bit (Reg.devWinSel 0) 31 = true →
   p < 9 →
   Runs (.chartWindowCommit off val) s fun t =>
   t.chartAt p (s.fld (Reg.devWinSel 0) 16 16) (s.winTable 0) (s.winEntry 0 off.toNat) =
   (List.range 15).map (s.stageAt 0) ++ [val] ∧ RegsBut [Reg.chkInj] s t ∧ t =
     { s with regs := t.regs, win := t.win, cmp := t.cmp }) ∧
  (∀ (w : Fin 2) (off : BitVec 26) (val : Word) (s : State),
   s.dev.structValid = false →
   exec (.windowStageWrite w off val) s = .next s ∧ exec (.chartWindowCommit off val) s = .next s ∧
   exec (.sextantWindowCommit off val) s = .next s ∧ exec (.windowReadCapture w off) s = .next { s with rdata := 0 }) ∧
  (∀ (off : BitVec 26) (val : Word) (s : State),
   s.dev.structValid = true →
   off.toNat % 32 = 28 →
   s.directHas (s.winTable 1) (s.winEntry 1 off.toNat) = true →
   (s.sxt.winq.filter fun c => c.repair.isNone).length < 256 →
   Runs (.sextantWindowCommit off val) s fun t =>
   t.sxt.winq = s.sxt.winq ++ [⟨7, s.winTable 1, s.winEntry 1 off.toNat, (List.range 7).map (s.stageAt 1) ++ [val], none⟩] ∧
   t = { s with win := t.win, sxt := t.sxt }) ∧
  (∀ (off : BitVec 26) (val : Word) (s : State),
   s.dev.structValid = true →
   off.toNat % 32 = 28 →
   s.directHas (s.winTable 1) (s.winEntry 1 off.toNat) = true →
   256 ≤ (s.sxt.winq.filter fun c => c.repair.isNone).length →
   Runs (.sextantWindowCommit off val) s fun t =>
   t.rd (Reg.devWinDrop 1) = satAdd (s.rd (Reg.devWinDrop 1)) 1 ∧ RegsBut [Reg.devWinDrop 1] s t ∧
   t = { s with regs := t.regs, win := t.win }) ∧
  (∀ (w : Fin 2) (off : BitVec 26) (s : State) (ws : List Word),
   s.dev.structValid = true →
   off.toNat % (4 * winWords w.val) = 0 →
   s.winShow w.val (s.winEntry w.val off.toNat) = some ws →
   Runs (.windowReadCapture w off) s fun t =>
   t.rdata = ws.getD 0 0 ∧ (∀ i, i < winWords w.val → t.win.captured.get (fun _ => 0) (w.val * 16 + i) = ws.getD i 0) ∧
   t = { s with win := t.win, rdata := t.rdata }) ∧
  (∀ (w : Fin 2) (off : BitVec 26) (s : State) (ws : List Word),
   s.dev.structValid = true →
   off.toNat % 4 = 0 →
   off.toNat % (4 * winWords w.val) ≠ 0 →
   s.winShow w.val (s.winEntry w.val off.toNat) = some ws →
   exec (.windowReadCapture w off) s =
   .next { s with rdata := s.win.captured.get (fun _ => 0) (w.val * 16 + off.toNat / 4 % winWords w.val) }) ∧
  (∀ (val : Word) (s : State) (i : Nat),
   i < 16 →
   Runs (.windowSteerWrite 0 false val) s fun t =>
   t.winTable 0 = fld val 7 0 ∧ t.fld (Reg.devWinSel 0) 16 16 = fld val 16 16 ∧ t.fld (Reg.devWinSel 0) 27 24 = fld val 27 24 ∧
   t.bit (Reg.devWinSel 0) 31 = bit val 31 ∧ t.stageAt 0 i = 0 ∧
   t.stageAt 1 i = s.stageAt 1 i ∧ RegsBut [Reg.devWinSel 0] s t ∧ t = { s with regs := t.regs, win := t.win }) ∧
  (∀ (val : Word) (s : State) (i : Nat),
   i < 16 →
   Runs (.windowSteerWrite 1 false val) s fun t =>
   t.winTable 1 = fld val 7 0 ∧ t.stageAt 1 i = 0 ∧ t.stageAt 0 i = s.stageAt 0 i ∧
   RegsBut [Reg.devWinSel 1] s t ∧ t = { s with regs := t.regs, win := t.win }) ∧
  (∀ (off : BitVec 26) (s : State),
   s.dev.mode ≠ .load →
   off.toNat % 8 = 0 →
   off.toNat < 2 ^ 25 →
   Runs (.counterWindowRead off) s fun t =>
   t.rdata = (s.cntGet (off.toNat / 8)).setWidth 32 ∧ t.win.cntHigh = ((s.cntGet (off.toNat / 8)) >>> 32).setWidth 32 ∧
   t = { s with rdata := t.rdata, win := { s.win with cntHigh := t.win.cntHigh } }) ∧
  (∀ (off : BitVec 26) (s : State),
   s.dev.mode ≠ .load →
   off.toNat % 8 = 4 →
   exec (.counterWindowRead off) s = .next { s with rdata := s.win.cntHigh }) ∧
  (∀ (off : BitVec 26) (s : State),
   s.dev.mode = .load →
   exec (.counterWindowRead off) s = .next { s with rdata := 0 })

/-! ### Long operations (chapters 02, 03 and the owning chapters) -/

/-- For image load (while PERST_N is high), image swap, memory BIST, the Sounding audit and sweep, rehash, trie rebuild, fix check,
check scan and bulk sync: a write of OP_CTRL with START and without ABORT while BUSY = 1 sets START_IGNORED and changes nothing
else (R41); for an image load or swap the command's operand also says what the flash directory holds. Choices of the model in
it: log entry 4. -/
def Obligations.StartsWhileBusyOnlySetStartIgnored : Prop :=
  ∀ (val : Word) (u : Fin 8) (flash : Option Nat) (s : State),
  bit val 31 = true →
  bit val 30 = false →
  (s.busy .audit = true → exec (.auditStart val) s = .next (s.setBit (opCtrl .audit) 28 true)) ∧
  (s.busy .sweep = true → exec (.sweepStart val) s = .next (s.setBit (opCtrl .sweep) 28 true)) ∧
  (s.busy .rehash = true → exec (.rehashStart val) s = .next (s.setBit (opCtrl .rehash) 28 true)) ∧
  (s.busy .trieRebuild = true → exec (.trieRebuildStart val) s = .next (s.setBit (opCtrl .trieRebuild) 28 true)) ∧
  (s.busy .fixCheck = true → exec (.fixCheckStart val) s = .next (s.setBit (opCtrl .fixCheck) 28 true)) ∧
  (s.busy (.scan u.val) = true → exec (.checkScanStart u val) s = .next (s.setBit (opCtrl (.scan u.val)) 28 true)) ∧
  (s.busy .memoryBist = true → exec (.memoryBistStart val) s = .next (s.setBit (opCtrl .memoryBist) 28 true)) ∧
  (s.dev.perstLow = false → s.busy .imageLoad = true → exec (.imageLoadStart val flash) s = .next ((s.flashRead flash).setBit
    (opCtrl .imageLoad) 28 true)) ∧
  (s.busy .imageSwap = true → exec (.imageSwapStart val flash) s = .next ((s.flashRead flash).setBit (opCtrl .imageSwap) 28
    true)) ∧
  (s.busy .bulkSync = true → exec (.bulkSyncStart false val) s = .next (s.setBit (opCtrl .bulkSync) 28 true))

/-- For the same operations: a write of OP_CTRL with ABORT, and without START while BUSY = 1 leaves BUSY 0, ABORTED 1, DONE and FAIL
0, REASON 1 and PROGRESS as it was; while idle it stores the RW fields of OP_CTRL and changes nothing else (R41).
BULK_SYNC_ABORT that the peer reports does the same to a busy bulk sync and nothing to an idle one. -/
def Obligations.AbortsEndBusyOperations : Prop :=
  (∀ (val : Word) (u : Fin 8) (s : State),
   bit val 31 = false →
   bit val 30 = true →
   (s.busy .audit = true → Runs (.auditAbort val) s fun t => t.fld (opStat .audit) 31 24 = 0x21 ∧ t.progress .audit = s.progress
     .audit) ∧
   (s.busy .sweep = true → Runs (.sweepAbort val) s fun t => t.fld (opStat .sweep) 31 24 = 0x21 ∧ t.progress .sweep = s.progress
     .sweep) ∧
   (s.busy .rehash = true → Runs (.rehashAbort val) s fun t => t.fld (opStat .rehash) 31 24 = 0x21 ∧ t.progress .rehash =
     s.progress .rehash) ∧
   (s.busy .trieRebuild = true → Runs (.trieRebuildAbort val) s fun t => t.fld (opStat .trieRebuild) 31 24 = 0x21 ∧ t.progress
     .trieRebuild = s.progress .trieRebuild) ∧
   (s.busy .fixCheck = true → Runs (.fixCheckAbort val) s fun t => t.fld (opStat .fixCheck) 31 24 = 0x21 ∧ t.progress .fixCheck
     = s.progress .fixCheck) ∧
   (s.busy (.scan u.val) = true → Runs (.checkScanAbort u val) s fun t => t.fld (opStat (.scan u.val)) 31 24 = 0x21 ∧ t.progress
     (.scan u.val) = s.progress (.scan u.val)) ∧
   (s.busy .memoryBist = true → Runs (.memoryBistAbort val) s fun t => t.fld (opStat .memoryBist) 31 24 = 0x21 ∧ t.progress
     .memoryBist = s.progress .memoryBist) ∧
   (s.dev.perstLow = false → s.busy .imageLoad = true → Runs (.imageLoadAbort val) s fun t => t.fld (opStat .imageLoad) 31 24 =
     0x21 ∧ t.progress .imageLoad = s.progress .imageLoad) ∧
   (s.busy .bulkSync = true → Runs (.bulkSyncAbort false val) s fun t => t.fld (opStat .bulkSync) 31 24 = 0x21 ∧ t.progress
     .bulkSync = s.progress .bulkSync) ∧
   (s.busy .bulkSync = true → Runs (.bulkSyncAbort true val) s fun t => t.fld (opStat .bulkSync) 31 24 = 0x21 ∧ t.progress
     .bulkSync = s.progress .bulkSync)) ∧
  (∀ (val : Word) (u : Fin 8) (s : State),
   bit val 31 = false →
   bit val 30 = true →
   (s.busy .audit = false → Runs (.auditAbort val) s fun t => OnlyRegs [opCtrl .audit] s t) ∧
   (s.busy .sweep = false → Runs (.sweepAbort val) s fun t => OnlyRegs [opCtrl .sweep] s t) ∧
   (s.busy .rehash = false → Runs (.rehashAbort val) s fun t => OnlyRegs [opCtrl .rehash] s t) ∧
   (s.busy .trieRebuild = false → Runs (.trieRebuildAbort val) s fun t => OnlyRegs [opCtrl .trieRebuild] s t) ∧
   (s.busy .fixCheck = false → Runs (.fixCheckAbort val) s fun t => OnlyRegs [opCtrl .fixCheck] s t) ∧
   (s.busy (.scan u.val) = false → Runs (.checkScanAbort u val) s fun t => OnlyRegs [opCtrl (.scan u.val)] s t) ∧
   (s.busy .memoryBist = false → Runs (.memoryBistAbort val) s fun t => OnlyRegs [opCtrl .memoryBist] s t) ∧
   (s.busy .imageLoad = false → Runs (.imageLoadAbort val) s fun t => OnlyRegs [opCtrl .imageLoad] s t) ∧
   (s.busy .bulkSync = false → (Runs (.bulkSyncAbort false val) s fun t => OnlyRegs [opCtrl .bulkSync] s t) ∧ exec
     (.bulkSyncAbort true val) s = .next s))

/-- For image load, memory BIST, the Sounding audit and sweep, rehash, trie rebuild, fix check and check scan, with EVENT_EN 0 and
the operation idle: START in a mode where the operation is not allowed leaves OPSTAT with FAIL and REASON 3 and changes nothing
else but OP_CTRL and the OP_PARTIAL registers, which read 0; in a mode where it is allowed OPSTAT reads BUSY alone (a check
scan: with a LEN inside its source; a rebuild: of one root under the full carve; an image load: with a source of 32 bytes or
more) and the OP_PARTIAL registers read 0 (R41, R54). A load from flash without an image there ends in FAIL with REASON 14
(R30). While PERST_N is low the host's image load registers do nothing (R55). Choices of the model in it: log entry 106. -/
def Obligations.StartsBeginOrAreRefusedByMode : Prop :=
  (∀ (val : Word) (u : Fin 8) (s : State),
   bit val 31 = true →
   bit val 30 = false →
   bit val 29 = false →
   (s.busy .audit = false → opAllowed .audit s.dev.mode 0 0 = false → Runs (.auditStart val) s fun t => t.rd (opStat .audit) =
     0x13000000 ∧ (∀ a ∈ opPartials .audit, t.rd a = 0) ∧ RegsBut ([opCtrl .audit, opStat .audit] ++ opPartials .audit) s t) ∧
   (s.busy .sweep = false → opAllowed .sweep s.dev.mode 0 0 = false → Runs (.sweepStart val) s fun t => t.rd (opStat .sweep) =
     0x13000000 ∧ (∀ a ∈ opPartials .sweep, t.rd a = 0) ∧ RegsBut ([opCtrl .sweep, opStat .sweep] ++ opPartials .sweep) s t) ∧
   (s.busy .rehash = false → opAllowed .rehash s.dev.mode 0 0 = false → Runs (.rehashStart val) s fun t => t.rd (opStat .rehash)
     = 0x13000000 ∧ (∀ a ∈ opPartials .rehash, t.rd a = 0) ∧ RegsBut ([opCtrl .rehash, opStat .rehash] ++ opPartials .rehash) s
     t) ∧
   (s.busy .trieRebuild = false → opAllowed .trieRebuild s.dev.mode 0 0 = false → Runs (.trieRebuildStart val) s fun t => t.rd
     (opStat .trieRebuild) = 0x13000000 ∧ (∀ a ∈ opPartials .trieRebuild, t.rd a = 0) ∧ RegsBut ([opCtrl .trieRebuild, opStat
     .trieRebuild] ++ opPartials .trieRebuild) s t) ∧
   (s.busy .fixCheck = false → opAllowed .fixCheck s.dev.mode 0 0 = false → Runs (.fixCheckStart val) s fun t => t.rd (opStat
     .fixCheck) = 0x13000000 ∧ (∀ a ∈ opPartials .fixCheck, t.rd a = 0) ∧ RegsBut ([opCtrl .fixCheck, opStat .fixCheck] ++
     opPartials .fixCheck) s t) ∧
   (s.busy (.scan u.val) = false → opAllowed (.scan u.val) s.dev.mode (fld val 15 0 % 4) 0 = false → Runs (.checkScanStart u
     val) s fun t => t.rd (opStat (.scan u.val)) = 0x13000000 ∧ (∀ a ∈ opPartials (.scan u.val), t.rd a = 0) ∧ RegsBut ([opCtrl
     (.scan u.val), opStat (.scan u.val)] ++ opPartials (.scan u.val)) s t) ∧
   (s.busy .memoryBist = false → opAllowed .memoryBist s.dev.mode 0 (fld val 15 0 % 4) = false → Runs (.memoryBistStart val) s
     fun t => t.rd (opStat .memoryBist) = 0x13000000 ∧ (∀ a ∈ opPartials .memoryBist, t.rd a = 0) ∧ RegsBut ([opCtrl
     .memoryBist, opStat .memoryBist] ++ opPartials .memoryBist) s t)) ∧
  (∀ (val : Word) (u : Fin 8) (s : State),
   bit val 31 = true →
   bit val 30 = false →
   bit val 29 = false →
   0 < s.rd64 (Reg.chkScanLenLo u.val) →
   s.rd64 (Reg.chkScanAddrLo u.val) + s.rd64 (Reg.chkScanLenLo u.val) ≤ scanSize (fld val 15 0 % 4) →
   fld val 15 15 = 0 →
   (s.busy .audit = false → opAllowed .audit s.dev.mode 0 0 = true → Runs (.auditStart val) s fun t => t.rd (opStat .audit) =
     0x80000000 ∧ (∀ a ∈ opPartials .audit, a ≠ Reg.poolAuditOpPartial 2 → t.rd a = 0)) ∧
   (s.busy .sweep = false → opAllowed .sweep s.dev.mode 0 0 = true → Runs (.sweepStart val) s fun t => t.rd (opStat .sweep) =
     0x80000000 ∧ (∀ a ∈ opPartials .sweep, t.rd a = 0)) ∧
   (s.busy .rehash = false → opAllowed .rehash s.dev.mode 0 0 = true → Runs (.rehashStart val) s fun t => t.rd (opStat .rehash)
     = 0x80000000 ∧ (∀ a ∈ opPartials .rehash, t.rd a = 0)) ∧
   (s.dev.body.carve.full = true → s.busy .trieRebuild = false → opAllowed .trieRebuild s.dev.mode 0 0 = true → Runs
     (.trieRebuildStart val) s fun t => t.rd (opStat .trieRebuild) = 0x80000000 ∧ (∀ a ∈ opPartials .trieRebuild, t.rd a = 0)) ∧
   (s.busy .fixCheck = false → opAllowed .fixCheck s.dev.mode 0 0 = true → Runs (.fixCheckStart val) s fun t => t.rd (opStat
     .fixCheck) = 0x80000000 ∧ (∀ a ∈ opPartials .fixCheck, t.rd a = 0)) ∧
   (s.busy (.scan u.val) = false → opAllowed (.scan u.val) s.dev.mode (fld val 15 0 % 4) 0 = true → Runs (.checkScanStart u val)
     s fun t => t.rd (opStat (.scan u.val)) = 0x80000000 ∧ (∀ a ∈ opPartials (.scan u.val), t.rd a = 0)) ∧
   (s.busy .memoryBist = false → opAllowed .memoryBist s.dev.mode 0 (fld val 15 0 % 4) = true → Runs (.memoryBistStart val) s
     fun t => t.rd (opStat .memoryBist) = 0x80000000 ∧ (∀ a ∈ opPartials .memoryBist, t.rd a = 0))) ∧
  (∀ (val : Word) (flash : Option Nat) (s : State),
   bit val 31 = true →
   bit val 30 = false →
   bit val 29 = false →
   s.dev.perstLow = false →
   s.busy .imageLoad = false →
   (opAllowed .imageLoad s.dev.mode 0 0 = false ∨ s.busy .imageSwap = true → Runs (.imageLoadStart val flash) s fun t => t.rd
     (opStat .imageLoad) = 0x13000000 ∧ (∀ a ∈ opPartials .imageLoad, t.rd a = 0) ∧ t.dev.load = s.dev.load ∧ RegsBut ([opCtrl
     .imageLoad, opStat .imageLoad] ++ opPartials .imageLoad) s t) ∧
   (opAllowed .imageLoad s.dev.mode 0 0 = true → s.busy .imageSwap = false → fld val 15 0 % 2 = 0 → 32 ≤ s.fld Reg.devImgLen 26
     0 → Runs (.imageLoadStart val flash) s fun t => t.rd (opStat .imageLoad) = 0x80000000 ∧ (∀ a ∈ opPartials .imageLoad, t.rd
     a = 0) ∧ t.dev.load = some { flash := false, len := s.fld Reg.devImgLen 26 0 } ∧ RegsBut ([opCtrl .imageLoad, opStat
     .imageLoad] ++ opPartials .imageLoad) s t) ∧
   (opAllowed .imageLoad s.dev.mode 0 0 = true → s.busy .imageSwap = false → fld val 15 0 % 2 = 1 → flash = none → Runs
     (.imageLoadStart val flash) s fun t => t.rd (opStat .imageLoad) = 0x1E000000) ∧
   (opAllowed .imageLoad s.dev.mode 0 0 = true → s.busy .imageSwap = false → fld val 15 0 % 2 = 1 → s.dev.binAlive = true → 32 ≤
     flash.getD 0 → Runs (.imageLoadStart val flash) s fun t => t.rd (opStat .imageLoad) = 0x80000000 ∧ t.dev.load = some
     { flash := true, len := flash.getD 0 })) ∧
  (∀ (val : Word) (flash : Option Nat) (s : State),
   s.dev.perstLow = true →
   exec (.imageLoadStart val flash) s = .next (s.flashRead flash) ∧ exec (.imageLoadAbort val) s = .next s)

/-! ### The cell pool (chapter 11) -/

/-- CELL_POP of one writer, with no other request standing, takes a cell from the first list after the writer's last that holds one:
the writer's chain grows by a cell of that list, the list becomes its last, and no other list or writer changes (R233). Where
two writers ask one list in one clock, the first at or after its rotating pointer gets a cell, and the other's request stands
for the next clock while the pool holds a cell. With every list empty the writer abandons its frame: its chain goes back,
POOL_EXHAUST_DROP grows by one and its event is raised (R234). With no request nothing changes. CELL_PUSH of a cell that a
reader holds returns it to list p mod 16, which grows by one, and no other list changes (R231); where the list's cache has room
nothing else changes. Of a cell that no reader holds it does nothing. Which cell a list yields is a free value. Choices of the
model in it: log entry 44. -/
def Obligations.CellsMoveBetweenListsWritersAndReaders : Prop :=
  (∀ (ws : BitVec 14) (s : State) (w k : Nat),
   (List.range writers).filter (fun i => ws.getLsbD i) = [w] →
   s.pool.asking = [] →
   s.listFrom ((s.writer w).last + 1) 16 = some k →
   Runs (.cellPop ws) s fun t =>
   (t.writer w).last = k ∧ (t.writer w).lost = false ∧ (∃ p, p % 16 = k ∧ (t.writer w).chain = (s.writer w).chain ++ [p]) ∧
   SameBut State.freeList [k] s t ∧ SameBut State.writer [w] s t) ∧
  (∀ (ws : BitVec 14) (s : State) (v w k : Nat),
   (List.range writers).filter (fun i => ws.getLsbD i) = [v, w] →
   s.pool.asking = [] →
   s.wants v = some k →
   s.wants w = some k →
   winner (s.freeList k).turn [v, w] = some w →
   Runs (.cellPop ws) s fun t =>
   (t.writer w).last = k ∧ (t.writer w).chain.length = (s.writer w).chain.length + 1 ∧
   (t.freeList k).turn = (w + 1) % writers ∧ SameBut State.freeList [k] s t ∧
   (t.freeTotal ≠ 0 → t.pool.asking = [v] ∧ t.writer v = s.writer v)) ∧
  (∀ (ws : BitVec 14) (s : State) (w : Nat),
   (List.range writers).filter (fun i => ws.getLsbD i) = [w] →
   s.pool.asking = [] →
   s.listFrom ((s.writer w).last + 1) 16 = none →
   exec (.cellPop ws) s = .next (s.abandon w) ∧ ((s.writer w).chain = [] → Runs (.cellPop ws) s fun t =>
   (t.writer w).lost = true ∧ t.rd Reg.poolExhaustDrop = satAdd (s.rd Reg.poolExhaustDrop) 1 ∧ Raised (leafOf 15 0) t ∧
   RegsBut (Reg.poolExhaustDrop :: eventRegs (leafOf 15 0)) s t)) ∧
  (∀ (s : State),
   s.pool.asking = [] →
   exec (.cellPop 0) s = .next s) ∧
  (∀ (p : Fin 335544320) (s : State),
   s.pool.reading.contains p.val = true →
   Runs (.cellPush p) s fun t =>
   t.freeCnt (p.val % 16) = s.freeCnt (p.val % 16) + 1 ∧ SameBut State.freeList [p.val % 16] s t ∧
   t.pool.reading = s.pool.reading.erase p.val ∧
   (runsLen (s.freeList (p.val % 16)).cache < 4096 → t = { s with pool := t.pool })) ∧
  (∀ (p : Fin 335544320) (s : State),
   s.pool.reading.contains p.val = false →
   exec (.cellPush p) s = .next s)

/-- CACHE_REFILL below CACHE_LOW, with cells in the HBM part, moves the head carrier into the cache; the list's count stays, and
where the carrier's slot reads without an error nothing but the pool changes. An uncorrectable carrier ends the list's HBM part:
the cache stays and the part's cells have no owner any more (R232, R346). At or above CACHE_LOW, or with nothing in the HBM
part, nothing changes. CACHE_SPILL above CACHE_HIGH moves 65 cells of the cache into a new carrier at the tail; the list's count
stays; at or below CACHE_HIGH nothing changes. No other list changes (R232). Which 65 cells spill is a free value. Choices of
the model in it: log entries 45, 111. -/
def Obligations.ListCachesRefillAndSpillCarriers : Prop :=
  (∀ (k : Fin 16) (s : State),
   runsLen (s.freeList k.val).cache < s.cacheLow →
   (s.freeList k.val).hbm ≠ 0 →
   s.damageOf (16 * runsHead (s.freeList k.val).takeCarrier.1 + k.val) = 0 →
   Runs (.cacheRefill k false) s fun t =>
   (t.freeList k.val).cache = (s.freeList k.val).cache ++ (s.freeList k.val).takeCarrier.1 ∧
   t.freeCnt k.val = s.freeCnt k.val ∧ SameBut State.freeList [k.val] s t ∧ t = { s with pool := t.pool }) ∧
  (∀ (k : Fin 16) (s : State),
   runsLen (s.freeList k.val).cache < s.cacheLow →
   (s.freeList k.val).hbm ≠ 0 →
   Runs (.cacheRefill k true) s fun t =>
   (t.freeList k.val).cache = (s.freeList k.val).cache ∧ (t.freeList k.val).hbm = 0 ∧ SameBut State.freeList [k.val] s t ∧
   t.pool.orphans = s.pool.orphans ++ ((s.freeList k.val).fresh :: (s.freeList k.val).carriers.flatten).map (fun r => (k.val,
     r))) ∧
  (∀ (k : Fin 16) (uncorr : Bool) (s : State),
   s.cacheLow ≤ runsLen (s.freeList k.val).cache ∨ (s.freeList k.val).hbm = 0 →
   exec (.cacheRefill k uncorr) s = .next s) ∧
  (∀ (k : Fin 16) (s : State),
   s.cacheHigh < runsLen (s.freeList k.val).cache →
   Runs (.cacheSpill k) s fun t =>
   runsLen (t.freeList k.val).cache + 65 = runsLen (s.freeList k.val).cache ∧
   (t.freeList k.val).carriers.length = (s.freeList k.val).carriers.length + 1 ∧
   t.freeCnt k.val = s.freeCnt k.val ∧ SameBut State.freeList [k.val] s t ∧ RegsBut [Reg.chkInj] s t) ∧
  (∀ (k : Fin 16) (s : State),
   runsLen (s.freeList k.val).cache ≤ s.cacheHigh →
   exec (.cacheSpill k) s = .next s)

/-- A carrier that the audit walk reads as free and of its list counts itself and its FILL pointers; one that is not, or is
uncorrectable, fails its list in the audit's OP_PARTIAL words and moves the walk to the next list; at the end of a list the walk
judges its count and moves on (R236). With EVENT_EN 0 the end of an audit with every list walked ends it DONE; the first one
reports a baseline, a later one with the same D and failing lists no change, with others a change and its event (R237). The end
of marking reports the cells marked, and the end of a sweep ends it DONE with the count of cells it has returned (R238). Ends
before their phase, and the walk with no audit running, change nothing. Choices of the model in it: log entry 45. -/
def Obligations.SoundingAuditsAndSweepsReport : Prop :=
  (∀ (flips : BitVec 128) (uncorr : Bool) (s : State) (a : AuditRun) (c w p : Nat),
   s.pool.audit = some a →
   a.list < 16 →
   c = min a.todo (runsLen ((s.freeList a.list).carrierAt a.walked).1) →
   c ≠ 0 →
   w = (s.carrierWord a.list a.walked ^^^ flips).toNat →
   p = 16 * runsHead ((s.freeList a.list).carrierAt a.walked).1 + a.list →
   s.damageOf p = 0 →
   (uncorr = false → w / 2 ^ 31 % 2 = 1 → w / 2 ^ 41 % 16 = a.list → Runs (.auditCarrierWalk flips uncorr) s fun t =>
   t.pool =
     { s.pool with audit := some { a with walked := a.walked + c, counted := a.counted + w / 2 ^ 32 % 512 + 1, todo := a.todo - c, total := a.total + w / 2 ^ 32 % 512 + 1 } }
     ∧
   t.rd (Reg.poolAuditOpPartial 0) = BitVec.ofNat 32 (a.total + w / 2 ^ 32 % 512 + 1) ∧
   RegsBut [Reg.poolAuditOpPartial 0, Reg.poolAuditOpPartial 1, Reg.poolAuditOpPartial 3, opStat .audit] s t) ∧
   ((uncorr = true ∨ w / 2 ^ 31 % 2 = 0 ∨ w / 2 ^ 41 % 16 ≠ a.list) → a.list < 15 → a.failed < 65536 → Runs (.auditCarrierWalk
     flips uncorr) s fun t =>
   (t.rd (Reg.poolAuditOpPartial 3)).toNat = a.failed ||| 2 ^ a.list ∧ (t.rd (Reg.poolAuditOpPartial 1)).toNat = a.list + 1)) ∧
  (∀ (flips : BitVec 128) (uncorr : Bool) (s : State) (a : AuditRun),
   s.pool.audit = some a →
   a.list < 15 →
   a.todo = 0 →
   a.failed < 65536 →
   Runs (.auditCarrierWalk flips uncorr) s fun t =>
   (t.rd (Reg.poolAuditOpPartial 1)).toNat = a.list + 1 ∧
   (t.rd (Reg.poolAuditOpPartial 3)).toNat = (if a.counted + a.ahead = a.start then a.failed else a.failed ||| 2 ^ a.list) ∧
   t = { s with regs := t.regs, pool := { s.pool with audit := t.pool.audit } } ∧
   RegsBut [Reg.poolAuditOpPartial 0, Reg.poolAuditOpPartial 1, Reg.poolAuditOpPartial 3, opStat .audit] s t) ∧
  (∀ (flips : BitVec 128) (uncorr : Bool) (s : State),
   s.pool.audit.all (fun a => decide (16 ≤ a.list)) = true →
   exec (.auditCarrierWalk flips uncorr) s = .next s) ∧
  (∀ (s : State) (a : AuditRun),
   s.pool.audit = some a →
   16 ≤ a.list →
   s.bit (opCtrl .audit) 29 = false →
   Runs (.auditEnd) s fun t =>
   t.fld (opStat .audit) 31 24 = 0x40 ∧ t.pool.audit = none ∧
   (s.pool.baseline = none → t.rd Reg.poolAuditResult = 0xA0000000 ∧ RegsBut [opStat .audit, Reg.poolAuditResult] s t) ∧
   (s.pool.baseline = some (signed 32 (s.rd (Reg.poolAuditOpPartial 2)).toNat, a.failed) → t.rd Reg.poolAuditResult =
     0x80000000) ∧
   (s.pool.baseline ≠ none → s.pool.baseline ≠ some (signed 32 (s.rd (Reg.poolAuditOpPartial 2)).toNat, a.failed) →
   t.rd Reg.poolAuditResult = 0xC0000000 ∧ Raised (leafOf 15 1) t)) ∧
  (∀ (s : State),
   s.pool.audit.all (fun a => decide (a.list < 16)) = true →
   exec (.auditEnd) s = .next s) ∧
  (∀ (s : State) (r : SweepRun),
   s.pool.sweep = some r →
   r.reclaim = false →
   Runs (.sweepMarkingEnd) s fun t =>
   t.rd (Reg.poolSweepOpPartial 0) = BitVec.ofNat 32 (allCells - orphanCount r.found) ∧
   t.pool = { s.pool with sweep := some { found := r.found, reclaim := true } } ∧
   RegsBut [Reg.poolSweepOpPartial 0, Reg.poolSweepOpPartial 1, opStat .sweep] s t ∧ t =
     { s with regs := t.regs, pool := t.pool }) ∧
  (∀ (s : State) (r : SweepRun),
   s.pool.sweep = some r →
   r.reclaim = true →
   s.bit (opCtrl .sweep) 29 = false →
   Runs (.sweepEnd) s fun t =>
   t.fld (opStat .sweep) 31 24 = 0x40 ∧ t.pool.sweep = none ∧
   t.rd (Reg.poolSweepOpPartial 1) = BitVec.ofNat 32 (r.pushed + (r.found.map fun e => (runBelow allCells e.1 e.2).1.count).sum)) ∧
  (∀ (s : State),
   s.pool.sweep = none →
   exec .sweepMarkingEnd s = .next s ∧ exec .sweepEnd s = .next s)

/-! ### VOQs and credit (chapters 11 and 12) -/

/-- CREDIT_RECEIVED for an empty VOQ counts the bytes as received, returns the balance to 0 and withdraws the request (R243); for
one with frames it adds to balance and received and then serves the queue, which changes nothing more where the sum does not
cover the head frame; where the queue's state is lost its frames go first (Table 17.2); for no VOQ of this device nothing
changes. STATUS_ON_REFRESH of a VOQ that still waits sends one more message toward another device and changes nothing else, or
renews the request at this device's own scheduler; of one that does not wait nothing changes (R244). STATUS_RECEIVED sets the
request's ON or OFF, and nothing but the scheduler's requests and ALM_CREDIT_LOST changes (R258). CREDIT_ISSUE of a PON, host or
management port with room issues to its top request: CREDIT_BYTES are added to what is issued and outstanding, and, to another
device, one message is sent (R257, R259); of a network port it issues to the request that the selection of its tree names and
charges the path (R260). On a port that is down, in a mode in which it issues none, or without a request or room, nothing
changes. Choices of the model in it: log entries 46, 48. -/
def Obligations.CreditMovesBetweenSchedulersAndQueues : Prop :=
  (∀ (dev : Fin 1024) (port : Fin 128) (cls : Fin 8) (bytes v : Nat) (errs : List (Nat × Nat)) (s u : State),
   u = s.hbmDamaged errs →
   s.voqNamed dev.val port.val cls.val = some v →
   (s.voqAt v).frames = [] →
   Runs (.creditReceived dev port cls bytes errs false) s fun t =>
   t.voqAt v = { s.voqAt v with balance := 0, on := false, received := (s.voqAt v).received + BitVec.ofNat 32 bytes } ∧
   SameBut State.voqAt [v] s t ∧ RegsBut [Reg.almCreditLost] s t) ∧
  (∀ (dev : Fin 1024) (port : Fin 128) (cls : Fin 8) (bytes v : Nat) (errs : List (Nat × Nat)) (s u : State) (f : Stored) (fs :
     List Stored),
   u = s.hbmDamaged errs →
   s.voqNamed dev.val port.val cls.val = some v →
   (s.voqAt v).frames = f :: fs →
   ((s.voqAt v).balance + bytes < f.len → Runs (.creditReceived dev port cls bytes errs false) s fun t =>
   t.voqAt v =
     { s.voqAt v with balance := (s.voqAt v).balance + bytes, received := (s.voqAt v).received + BitVec.ofNat 32 bytes } ∧
   SameBut State.voqAt [v] s t ∧ t = { u with voq := { s.voq with q := t.voq.q } }) ∧
   (exec (.creditReceived dev port cls bytes errs false) s = .next ((u.setVoq v
     { s.voqAt v with balance := (s.voqAt v).balance + bytes, received := (s.voqAt v).received + BitVec.ofNat 32 bytes }).voqServe
     v)) ∧
   (exec (.creditReceived dev port cls bytes errs true) s = .next ((u.voqLost v).creditIn dev.val port.val cls.val bytes))) ∧
  (∀ (dev : Fin 1024) (port : Fin 128) (cls : Fin 8) (bytes : Nat) (errs : List (Nat × Nat)) (qBad : Bool) (s : State),
   s.voqNamed dev.val port.val cls.val = none →
   exec (.creditReceived dev port cls bytes errs qBad) s = .next (s.hbmDamaged errs)) ∧
  (∀ (v : Fin 262144) (s : State) (f : Stored) (fs : List Stored),
   (s.voqAt v.val).frames = f :: fs →
   (s.voqAt v.val).balance < f.len →
   (s.voqAt v.val).dev ≠ s.devId →
   Runs (.statusOnRefresh v) s fun t =>
   (t.toward (s.voqAt v.val).dev).credits.length = (s.toward (s.voqAt v.val).dev).credits.length + 1 ∧
   SameBut State.toward [(s.voqAt v.val).dev] s t ∧ t = { s with rhb := t.rhb }) ∧
  (∀ (v : Fin 262144) (s : State),
   ((s.voqAt v.val).frames.head?.all (fun f => decide (f.len ≤ (s.voqAt v.val).balance)) = true → exec (.statusOnRefresh v) s =
     .next s) ∧
   ((s.voqAt v.val).frames.head?.any (fun f => decide ((s.voqAt v.val).balance < f.len)) = true → (s.voqAt v.val).dev = s.devId
     → exec (.statusOnRefresh v) s = .next (s.schedStatus (s.voqAt v.val).port (s.voqAt v.val).cls s.devId true 0 (s.voqAt
     v.val).received))) ∧
  (∀ (port : Fin 128) (cls : Fin 8) (src : Fin 1024) (on : Bool) (ret : Nat) (received : Word) (s : State),
   Runs (.statusReceived port cls src on ret received) s fun t =>
   (t.req port.val cls.val src.val).on = on ∧ RegsBut [Reg.almCreditLost] s t ∧ t = { s with regs := t.regs, alm := t.alm }) ∧
  (∀ (port : Fin 75) (s : State) (r : CreditReq),
   s.creditMode port.val = true →
   (s.hold' port.val).down = false →
   (port.val < 48 ∧ s.subBytes port.val + s.outstanding port.val < s.fld (Reg.almPonCredit port.val) 23 0 * 1024 ∧ s.topRequest
     port.val (fun _ => true) = some r) ∨ (72 ≤ port.val ∧ s.stagingRoom port.val = true ∧ s.topRequest port.val (fun c =>
     s.classRoom port.val c) = some r) →
   r.src ≠ s.devId →
   Runs (.creditIssue port) s fun t =>
   (t.req r.port r.cls r.src).issued = r.issued + BitVec.ofNat 32 s.creditBytes ∧
   (t.req r.port r.cls r.src).out = r.out + s.creditBytes ∧ (t.req r.port r.cls r.src).lastAt = s.raw ∧
   (t.toward r.src).credits.length = (s.toward r.src).credits.length + 1 ∧ t = { s with alm := t.alm, rhb := t.rhb }) ∧
  (∀ (port : Fin 75) (s : State) (r : CreditReq),
   s.creditMode port.val = true →
   (s.hold' port.val).down = false →
   (port.val < 48 ∧ s.subBytes port.val + s.outstanding port.val < s.fld (Reg.almPonCredit port.val) 23 0 * 1024 ∧ s.topRequest
     port.val (fun _ => true) = some r) ∨ (72 ≤ port.val ∧ s.stagingRoom port.val = true ∧ s.topRequest port.val (fun c =>
     s.classRoom port.val c) = some r) →
   exec (.creditIssue port) s = .next (s.issue (port.val * 8 + r.cls) r)) ∧
  (∀ (port : Fin 75) (s u : State) (q : Option (List Nat) × State) (path : List Nat) (r : CreditReq),
   s.creditMode port.val = true →
   (s.hold' port.val).down = false →
   48 ≤ port.val →
   port.val < 72 →
   s.pairOdd (port.val - 48) = false →
   s.rootOk (48 + port.val) = true →
   s.stagingRoom port.val = true →
   q = s.settle.select (fun i => !(s.openClasses (port.val - 48) i).isEmpty) 4 1 (48 + port.val) →
   q.1 = some path →
   u = q.2 →
   u.nextSrc (1024 + path.getLastD 0) ((u.openClasses (port.val - 48) (path.getLastD 0)).flatMap fun c => u.requests port.val c)
     = some r →
   exec (.creditIssue port) s = .next (((u.chargePath (48 + port.val) u.creditBytes path).issue (1024 + path.getLastD 0)
     r).settle)) ∧
  (∀ (port : Fin 75) (s : State),
   s.creditMode port.val = false ∨ (s.hold' port.val).down = true ∨ (72 ≤ port.val ∧ (s.stagingRoom port.val = false ∨
     s.topRequest port.val (fun c => s.classRoom port.val c) = none)) ∨ (port.val < 48 ∧ s.topRequest port.val (fun _ => true) =
     none) →
   exec (.creditIssue port) s = .next s)

/-- PORT_STATE_RECEIVED sets the destination's state and no other's; UP and HELD change nothing else (R247). HOLD_DOWN_EXPIRY of a
timer whose instant has come, outside SAFE, makes this device's own destination DOWN, ends the timer and raises the flush event;
else only time passes. VOQ_MAP_WRITE stores VOQ_MAP_CFG as the destination's map entry, VOQ_MAP_READ returns entry and state,
VOQ_STATE_READ returns a VOQ's cells and balance; none changes anything else (R239). REPLICATION_TAKE copies the oldest frame of
the replication queue to its targets, and with none queued, or one that the mode does not let pass, changes nothing (R249).
Choices of the model in it: log entry 59. -/
def Obligations.DestinationStatesFollowPortStateMessages : Prop :=
  (∀ (dev : Fin 1024) (port : Fin 128) (st : Fin 3) (s : State),
   Runs (.portStateReceived dev port st) s fun t => t.destState dev.val port.val = st.val) ∧
  (∀ (dev : Fin 1024) (port : Fin 128) (st : Fin 3) (s : State),
   st.val < 2 →
   Runs (.portStateReceived dev port st) s fun t =>
   SameBut (fun u k => u.voq.dest.get (fun _ => 0) k) [destKey dev.val port.val] s t ∧
   t = { s with voq := { s.voq with dest := t.voq.dest } }) ∧
  (∀ (i : Fin 75) (at' : Raw) (s : State) (e : Raw),
   ((s.advance at').hold' i.val).ends = some e →
   (s.advance at').reached e = true →
   s.dev.mode ≠ .safe →
   Runs (.holdDownExpiry i at') s fun t =>
   t.destState (s.advance at').devId i.val = 2 ∧ t.hold' i.val = ⟨true, none⟩ ∧ Raised (leafOf 15 3) t) ∧
  (∀ (i : Fin 75) (at' : Raw) (s : State),
   s.dev.mode = .safe ∨ ((s.advance at').hold' i.val).ends.any (fun e => (s.advance at').reached e) = false →
   exec (.holdDownExpiry i at') s = .next (s.advance at')) ∧
  (∀ (val : Word) (s : State),
   bit val 31 = true →
   Runs (.voqMapWrite val) s fun t =>
   t.mapEntry (fld val 16 7) (fld val 6 0) = s.rd Reg.voqMapCfg ∧
   SameBut (fun u k => u.voq.map.get (fun _ => 0) k) [destKey (fld val 16 7) (fld val 6 0)] s t ∧
   RegsBut [Reg.voqMapSel, Reg.voqMapCfg, Reg.voqMapState] s t ∧ t =
     { s with regs := t.regs, voq := { s.voq with map := t.voq.map } }) ∧
  (∀ (val : Word) (s : State),
   bit val 30 = true →
   Runs (.voqMapRead val) s fun t =>
   t.rd Reg.voqMapCfg = t.mapEntry (fld val 16 7) (fld val 6 0) ∧
   t.rd Reg.voqMapState = BitVec.ofNat 32 (t.destState (fld val 16 7) (fld val 6 0)) ∧
   RegsBut [Reg.voqMapSel, Reg.voqMapCfg, Reg.voqMapState] s t) ∧
  (∀ (val : Word) (s : State),
   bit val 31 = false →
   bit val 30 = true →
   Runs (.voqMapRead val) s fun t =>
   t.rd Reg.voqMapCfg = s.mapEntry (fld val 16 7) (fld val 6 0) ∧
   t.rd Reg.voqMapState = BitVec.ofNat 32 (s.destState (fld val 16 7) (fld val 6 0)) ∧
   OnlyRegs [Reg.voqMapSel, Reg.voqMapCfg, Reg.voqMapState] s t) ∧
  (∀ (val : Word) (s : State),
   bit val 31 = true →
   Runs (.voqStateRead val) s fun t =>
   t.rd Reg.voqQCells = BitVec.ofNat 32 (queueCells (s.voqAt (fld val 17 0)).frames) ∧
   t.rd Reg.voqQBalance = BitVec.ofNat 32 (s.voqAt (fld val 17 0)).balance ∧
   OnlyRegs [Reg.voqQSel, Reg.voqQCells, Reg.voqQBalance, Reg.voqQId] s t) ∧
  (∀ (s : State) (m : McFrame) (ms : List McFrame),
   s.pool.mcq = m :: ms →
   s.passes m.stored.frame = true →
   exec .replicationTake s = .next (({ s with pool.mcq := ms } : State).copies m.stored m.targets)) ∧
  (∀ (s : State),
   s.pool.mcq.head?.all (fun m => !s.passes m.stored.frame) = true →
   exec .replicationTake s = .next s)

/-! ### The Almanac, gate lists and XGEM (chapters 08 and 12) -/

/-- NODE_WRITE of a node of its level stores ALM_NODE_CFG_0 and 1 in that node; with the profile it had the node's buckets, queue
and turn stay, with another its buckets start afresh and it leaves the wheel (R263). No other node changes but by a deficit that
returns to 0 (R255). NODE_READ loads them and changes no node; outside the level only ALM_NODE_SEL changes (R253). PROFILE_WRITE
stores the ten data words as that profile; into the inactive bank it sets the CHANGED flag of a shaper or policer profile and
changes nothing else, into the active bank it changes no flag (R263, R264); outside the profiles only ALM_PROF_SEL changes.
PROFILE_READ loads the profile. POLICER_WRITE stores ALM_POL_CFG; with the profile it had the policer's buckets stay, with
another they start afresh; POLICER_READ loads it (R265). ALM_COMMIT_GO toward the other bank makes it active in the same clock,
counts the switch and leaves no CHANGED flag of that bank (R39, R264); toward the active bank it changes no bank; in the clock
in which a waypoint's switch took effect it does nothing more (R38). A WHEEL_SLOT whose slot holds one node that is due refills
it and takes it off the wheel, or puts it on again while its tokens are below 0; with nothing due it only lets time pass (R262).
A write with both bits writes, then reads. Choices of the model in it: log entry 47. -/
def Obligations.AlmanacSettingsAreWrittenAndReadThroughSelectors : Prop :=
  (∀ (val : Word) (s : State) (x y : Node),
   bit val 31 = true →
   fld val 18 0 < levelNodes (fld val 22 20) →
   x = s.node (fld val 22 20) (fld val 18 0) →
   y = { x with cfg0 := s.rd Reg.almNodeCfg0, cfg1 := s.rd Reg.almNodeCfg1 } →
   Runs (.nodeWrite val) s fun t =>
   { t.node (fld val 22 20) (fld val 18 0) with deficit := 0 } =
   { (if fld y.cfg1 29 16 = fld x.cfg1 29 16 then y else s.nodeFresh y) with deficit := 0 } ∧
   ((t.node (fld val 22 20) (fld val 18 0)).deficit = x.deficit ∨ (t.node (fld val 22 20) (fld val 18 0)).deficit = 0) ∧
   SameBut (fun u k => { u.alm.nodes.get (fun _ => s.alm.blank) k with deficit := 0 }) [nodeKey (fld val 22 20) (fld val 18 0)]
     s t ∧
   RegsBut [Reg.almNodeSel, Reg.almNodeCfg0, Reg.almNodeCfg1, Reg.almNodeTokens, Reg.almNodeRangeLo, Reg.almNodeRangeHi,
     Reg.almNodeAvg] s t ∧
   t = { s with regs := t.regs, alm := { s.alm with nodes := t.alm.nodes } }) ∧
  (∀ (val : Word) (s : State),
   bit val 31 = false →
   bit val 30 = true →
   fld val 18 0 < levelNodes (fld val 22 20) →
   Runs (.nodeRead val) s fun t =>
   t.rd Reg.almNodeCfg0 = (s.node (fld val 22 20) (fld val 18 0)).cfg0 ∧
   t.rd Reg.almNodeCfg1 = (s.node (fld val 22 20) (fld val 18 0)).cfg1 ∧
   t.rd Reg.almNodeAvg = BitVec.ofNat 32 (s.node (fld val 22 20) (fld val 18 0)).avg ∧
   OnlyRegs [Reg.almNodeSel, Reg.almNodeCfg0, Reg.almNodeCfg1, Reg.almNodeTokens, Reg.almNodeRangeLo, Reg.almNodeRangeHi,
   Reg.almNodeAvg] s t) ∧
  (∀ (val : Word) (s : State),
   bit val 30 = true →
   fld val 18 0 < levelNodes (fld val 22 20) →
   Runs (.nodeRead val) s fun t =>
   t.rd Reg.almNodeCfg0 = (t.node (fld val 22 20) (fld val 18 0)).cfg0 ∧
   t.rd Reg.almNodeCfg1 = (t.node (fld val 22 20) (fld val 18 0)).cfg1) ∧
  (∀ (val : Word) (s : State),
   levelNodes (fld val 22 20) ≤ fld val 18 0 →
   Runs (.nodeWrite val) s (OnlyRegs [Reg.almNodeSel] s) ∧
   Runs (.nodeRead val) s (OnlyRegs [Reg.almNodeSel] s)) ∧
  (∀ (val : Word) (s : State),
   bit val 31 = true →
   fld val 13 0 < profCount (fld val 25 24) →
   Runs (.profileWrite val) s fun t =>
   t.profile (fld val 29 29) (fld val 25 24) (fld val 13 0) = s.profData ∧
   SameBut (fun u k => u.alm.prof.get profReset k) [profKey (fld val 29 29) (fld val 25 24) (fld val 13 0)] s t ∧
   (fld val 29 29 = s.almBank → t.alm.changed = s.alm.changed) ∧
   (fld val 29 29 ≠ s.almBank →
   t.isChanged (profKey (fld val 29 29) (fld val 25 24) (fld val 13 0)) =
   (decide (fld val 25 24 ≤ 1) || s.isChanged (profKey (fld val 29 29) (fld val 25 24) (fld val 13 0))) ∧
   t = { s with regs := t.regs, alm := { s.alm with prof := t.alm.prof, changed := t.alm.changed } }) ∧
   RegsBut (Reg.almProfSel :: (List.range 10).map Reg.almProfData) s t ∧ t = { s with regs := t.regs, alm := t.alm }) ∧
  (∀ (val : Word) (s : State),
   profCount (fld val 25 24) ≤ fld val 13 0 →
   Runs (.profileWrite val) s (OnlyRegs [Reg.almProfSel] s) ∧
   Runs (.profileRead val) s (OnlyRegs [Reg.almProfSel] s)) ∧
  (∀ (val : Word) (s : State) (i : Nat),
   bit val 31 = false →
   bit val 30 = true →
   fld val 13 0 < profCount (fld val 25 24) →
   (s.profile (fld val 29 29) (fld val 25 24) (fld val 13 0)).length = 10 →
   i < 10 →
   Runs (.profileRead val) s fun t =>
   t.rd (Reg.almProfData i) = (s.profile (fld val 29 29) (fld val 25 24) (fld val 13 0)).getD i 0 ∧
   t.bit Reg.almProfSel 28 = s.isChanged (profKey (fld val 29 29) (fld val 25 24) (fld val 13 0)) ∧
   OnlyRegs (Reg.almProfSel :: (List.range 10).map Reg.almProfData) s t) ∧
  (∀ (val : Word) (s : State) (x y : Policer),
   bit val 31 = true →
   x = s.policer (fld val 17 0) →
   y = { x with cfg := s.rd Reg.almPolCfg } →
   Runs (.policerWrite val) s fun t =>
   t.policer (fld val 17 0) = (if fld y.cfg 12 0 = fld x.cfg 12 0 then y else s.polFresh y) ∧
   SameBut State.policer [fld val 17 0] s t ∧
   RegsBut [Reg.almPolSel, Reg.almPolCfg, Reg.almPolTokC, Reg.almPolTokE] s t ∧
   t = { s with regs := t.regs, alm := { s.alm with pol := t.alm.pol } }) ∧
  (∀ (val : Word) (s : State),
   bit val 30 = true →
   (bit val 31 = false → Runs (.policerRead val) s fun t =>
   t.rd Reg.almPolCfg = (s.policer (fld val 17 0)).cfg ∧
   OnlyRegs [Reg.almPolSel, Reg.almPolCfg, Reg.almPolTokC, Reg.almPolTokE] s t) ∧
   (Runs (.policerRead val) s fun t => t.rd Reg.almPolCfg = (t.policer (fld val 17 0)).cfg)) ∧
  (∀ (val : Word) (s : State),
   bit val 31 = true →
   s.wpSame 3 = false →
   s.almBank ≠ fld val 0 0 →
   Runs (.almCommitGo val) s fun t =>
   t.almBank = fld val 0 0 ∧ t.fld Reg.almCommit 15 8 = (s.fld Reg.almCommit 15 8 + 1) % 256 ∧ t.bit Reg.almCommit 30 = false ∧
   (∀ e ∈ t.alm.changed, e.1 / 65536 ≠ fld val 0 0) ∧
   RegsBut [Reg.almCommit] s t ∧ t = { s with regs := t.regs, alm := t.alm } ∧ t.alm.prof = s.alm.prof) ∧
  (∀ (val : Word) (s : State),
   bit val 31 = true →
   s.wpSame 3 = false →
   s.almBank = fld val 0 0 →
   Runs (.almCommitGo val) s fun t => t.almBank = s.almBank ∧ t.bit Reg.almCommit 30 = false ∧ OnlyRegs [Reg.almCommit] s t) ∧
  (∀ (val : Word) (s : State),
   s.wpSame 3 = true →
   Runs (.almCommitGo val) s fun t => t.almBank = s.almBank ∧ OnlyRegs [Reg.almCommit] s t) ∧
  (∀ (coarse : Bool) (at' : Raw) (s u : State),
   u = s.advance at' →
   (u.alm.nodes.all fun e => e.2.wheel.all fun w => w.1 != coarse || decide (u.nowNs < w.2)) = true →
   exec (.wheelSlot coarse at') s = .next u) ∧
  (∀ (coarse : Bool) (at' : Raw) (s u : State) (k : Nat) (x : Node) (p : List Word) (b : Bucket),
   u = s.advance at' →
   (u.alm.nodes.filter fun e => e.2.wheel.any fun w => w.1 == coarse && decide (w.2 ≤ u.nowNs)).map Prod.fst = [k] →
   x = u.node (k / 524288) (k % 524288) →
   p = u.shaper x →
   b = x.max.refill (rateOf (profWord p 0)) (burstOf (profWord p 1)) u.nowNs →
   (0 ≤ b.tok ∨ rateOf (profWord p 0) = 0 → Runs (.wheelSlot coarse at') s fun t =>
   t.node (k / 524288) (k % 524288) = { x with wheel := none, max := b } ∧
   SameBut (fun v i => v.alm.nodes.get (fun _ => u.alm.blank) i) [nodeKey (k / 524288) (k % 524288)] u t ∧
   t = { u with alm := { u.alm with nodes := t.alm.nodes } }) ∧
   (b.tok < 0 → rateOf (profWord p 0) ≠ 0 → Runs (.wheelSlot coarse at') s fun t =>
   (t.node (k / 524288) (k % 524288)).wheel.isSome = true ∧ (t.node (k / 524288) (k % 524288)).max = b ∧
   RegsBut [Reg.almWheelPark] u t))

/-- GATE_LIST_GO on a port that is not the odd one of a pair, with no pending switch, sets PENDING and changes no gate list that
runs; with a switch pending it sets bit 29 of ALM_GATE_STATUS alone; on the odd port of a pair, without GO, or in the clock in
which a waypoint asked for the same switch it changes nothing (R38, R269). GATE_ENTRY_WRITE of an admin entry with nothing
pending stores the entry's gates and interval and no other entry; while pending it sets WRITE_IGNORED and no entry changes.
GATE_ENTRY_READ loads the selected entry. GATE_LIST_START before the pending instant, or with nothing pending, only lets time
pass; at it the stores swap roles, the admin parameters become the oper ones and PENDING clears. GATE_ENTRY_BOUNDARY changes
ALM_GATE_STATUS of its port alone beside time, and nothing when no list runs (R268). -/
def Obligations.GateListsSwitchAtTheirStart : Prop :=
  (∀ (m : Fin 24) (val : Word) (s : State),
   bit val 31 = true →
   s.wpSame (256 + m.val) = false →
   s.pairOdd m.val = false →
   s.gatePending m.val = false →
   Runs (.gateListGo m val) s fun t =>
   t.gatePending m.val = true ∧ (t.gates m.val).swapped = (s.gates m.val).swapped ∧ (t.gates m.val).t0 = (s.gates m.val).t0 ∧
   t.operSegs m.val = s.operSegs m.val ∧ SameBut State.gates [m.val] s t ∧ t.alm.entries = s.alm.entries ∧
   RegsBut [Reg.almGateLateStart m.val, Reg.almGateT0Ns m.val, Reg.almGateT0SecLo m.val, Reg.almGateT0SecHi m.val,
   Reg.almGateStatus m.val] s t ∧ t = { s with regs := t.regs, alm := { s.alm with gates := t.alm.gates } }) ∧
  (∀ (m : Fin 24) (val : Word) (s : State),
   bit val 31 = true →
   s.wpSame (256 + m.val) = false →
   s.pairOdd m.val = false →
   s.gatePending m.val = true →
   exec (.gateListGo m val) s = .next (s.setBit (Reg.almGateStatus m.val) 29 true)) ∧
  (∀ (m : Fin 24) (val : Word) (s : State),
   s.pairOdd m.val = true ∨ bit val 31 = false ∨ s.wpSame (256 + m.val) = true →
   exec (.gateListGo m val) s = .next s) ∧
  (∀ (m : Fin 24) (val : Word) (s : State),
   bit val 31 = true →
   bit val 29 = false →
   fld val 20 16 = m.val →
   s.pairOdd m.val = false →
   s.gatePending m.val = false →
   Runs (.gateEntryWrite val) s fun t =>
   t.gateEntry m.val false (fld val 9 0) = (s.fld Reg.almGateEntGates 7 0, s.fld Reg.almGateEntInterval 29 0) ∧
   SameBut (fun u k => u.alm.entries.get (fun _ => (0, 0)) k) [s.gateKey m.val false (fld val 9 0)] s t ∧
   RegsBut [Reg.almGateEntSel, Reg.almGateEntGates, Reg.almGateEntInterval] s t ∧
   t = { s with regs := t.regs, alm := { s.alm with entries := t.alm.entries } }) ∧
  (∀ (m : Fin 24) (val : Word) (s : State),
   bit val 31 = true →
   bit val 29 = false →
   fld val 20 16 = m.val →
   s.pairOdd m.val = false →
   s.gatePending m.val = true →
   Runs (.gateEntryWrite val) s fun t =>
   t.bit (Reg.almGateStatus m.val) 28 = true ∧
   OnlyRegs [Reg.almGateEntSel, Reg.almGateStatus m.val, Reg.almGateEntGates, Reg.almGateEntInterval] s t) ∧
  (∀ (val : Word) (s : State),
   bit val 29 = true ∨ 24 ≤ fld val 20 16 ∨ s.pairOdd (fld val 20 16) = true →
   Runs (.gateEntryWrite val) s fun t => OnlyRegs [Reg.almGateEntSel, Reg.almGateEntGates, Reg.almGateEntInterval] s t) ∧
  (∀ (val : Word) (s : State),
   bit val 30 = true →
   Runs (.gateEntryRead val) s fun t =>
   t.rd Reg.almGateEntGates = BitVec.ofNat 32 (t.gateEntry (fld val 20 16) (bit val 29) (fld val 9 0)).1 ∧
   t.rd Reg.almGateEntInterval = BitVec.ofNat 32 (t.gateEntry (fld val 20 16) (bit val 29) (fld val 9 0)).2 ∧
   (bit val 31 = false → OnlyRegs [Reg.almGateEntSel, Reg.almGateEntGates, Reg.almGateEntInterval] s t)) ∧
  (∀ (m : Fin 24) (at' : Raw) (s : State),
   (s.advance at').gatePending m.val = false ∨ (s.advance at').gateTime m.val < ((s.advance at').gates m.val).nextT0 →
   exec (.gateListStart m at') s = .next (s.advance at')) ∧
  (∀ (m : Fin 24) (at' : Raw) (s u : State),
   u = s.advance at' →
   u.gatePending m.val = true →
   (u.gates m.val).nextT0 ≤ u.gateTime m.val →
   Runs (.gateListStart m at') s fun t =>
   t.gates m.val =
     { u.gates m.val with swapped := !(u.gates m.val).swapped, valid := true, t0 := (u.gates m.val).nextT0, cycle := (u.gates m.val).nextCycle, len := (u.gates m.val).nextLen }
     ∧ t.gatePending m.val = false ∧
   SameBut State.gates [m.val] u t ∧ t.alm.entries = u.alm.entries ∧ t.raw = u.raw) ∧
  (∀ (m : Fin 24) (at' : Raw) (s u : State),
   u = s.advance at' →
   Runs (.gateEntryBoundary m at') s fun t =>
   (u.gateRuns m.val = true → t.fld (Reg.almGateStatus m.val) 7 0 = u.gateNow m.val) ∧
   (u.gateRuns m.val = false → t = u) ∧ OnlyRegs [Reg.almGateStatus m.val] u t)

/-- PON_SELECTION of a channel whose port does not transmit, is down or has no room in its frame, or in a mode that does not serve,
changes nothing; else idle XGEM frames fill to where the release begins, and the frame that waits is placed, or, with none
waiting, the frame that the selection of the channel's tree names (R108, R254, R255). A frame of an egress queue that is not
bound is dropped and counted in XGM_DS_NOBIND, one without its key in XGM_DS_NOKEY; one that fits goes out whole at its
position, in clear or under the key, counted in XGM_DS_FRAMES (R169 to R173). UPSTREAM_XGEM_FRAME of a burst that is not
confirmed, or of no grant, changes nothing; of an allocation already dead, or idle (port-ID 65535) with a good header, nothing
but where that allocation's next frame lies; one with a bad header is counted and ends its allocation; a spoofed frame is
counted and reaches neither reassembly nor a pipeline, one without its key is counted in XGM_US_KEY_ERR; a whole unencrypted
frame without error and with a good FCS on the port-ID bound to the burst's ONU enters the ingress buffer of its pipeline and is
counted; a first fragment opens its reassembly (R178, R179). REASSEMBLY_TIMEOUT of a context that is idle only lets time pass;
of one whose frames have passed the reassembly is aborted and counted (R179). A context whose read fails its check counts as
unbound or as without key (Table 17.2). Choices of the model in it: log entries 76, 78. -/
def Obligations.XgemFramesNeedATransmittingPortAndAConfirmedBurst : Prop :=
  (∀ (ch : Fin 96) (space : Nat) (errs : List (Nat × Nat)) (qBad : Bool) (s : State),
   s.txOn (ch.val / 2) = false ∨ s.serving = false ∨ s.bit (Reg.ponLineStatus (ch.val / 2)) 31 = false ∨ (s.area ch.val).2 ≤
     (s.area ch.val).1 →
   exec (.ponSelection ch space errs qBad 0) s = .next (s.hbmDamaged errs)) ∧
  (∀ (ch : Fin 96) (space eq : Nat) (errs : List (Nat × Nat)) (qBad : Bool) (ctxBad : Fin 3) (f : Stored) (s w : State) (q :
     CtxErr × State),
   q = (s.hbmDamaged errs).ctxErr ctxBad →
   q.2.txOn (ch.val / 2) = true →
   q.2.serving = true →
   q.2.bit (Reg.ponLineStatus (ch.val / 2)) 31 = true →
   w = q.2.idleFill ch.val ((q.2.area ch.val).2 - (q.2.area ch.val).1 - space) →
   (w.area ch.val).1 < (w.area ch.val).2 →
   w.xgm.wait.get (fun _ => none) ch.val = some (eq, f) →
   exec (.ponSelection ch space errs qBad ctxBad) s = .next
     (({ w with xgm := { w.xgm with wait := w.xgm.wait.set (fun _ => none) ch.val none } } : State).dsPlace ch.val eq f q.1)) ∧
  (∀ (ch : Fin 96) (space : Nat) (errs : List (Nat × Nat)) (s w : State) (r : Option (List Nat) × State),
   s.txOn (ch.val / 2) = true →
   s.serving = true →
   s.bit (Reg.ponLineStatus (ch.val / 2)) 31 = true →
   w = (s.hbmDamaged errs).idleFill ch.val ((s.area ch.val).2 - (s.area ch.val).1 - space) →
   (w.area ch.val).1 < (w.area ch.val).2 →
   w.xgm.wait.get (fun _ => none) ch.val = none →
   r = w.settle.select (fun i => !(w.node 5 i).frames.isEmpty) 4 1 ch.val →
   (w.rootOk ch.val = false → exec (.ponSelection ch space errs false 0) s = .next w) ∧
   (w.rootOk ch.val = true → r.1 = none → exec (.ponSelection ch space errs false 0) s = .next r.2)) ∧
  (∀ (ch : Fin 96) (space : Nat) (errs : List (Nat × Nat)) (s w : State) (r : Option (List Nat) × State) (path : List Nat) (f :
     Stored) (fs : List Stored),
   s.txOn (ch.val / 2) = true →
   s.serving = true →
   s.bit (Reg.ponLineStatus (ch.val / 2)) 31 = true →
   w = (s.hbmDamaged errs).idleFill ch.val ((s.area ch.val).2 - (s.area ch.val).1 - space) →
   (w.area ch.val).1 < (w.area ch.val).2 →
   w.xgm.wait.get (fun _ => none) ch.val = none →
   r = w.settle.select (fun i => !(w.node 5 i).frames.isEmpty) 4 1 ch.val →
   w.rootOk ch.val = true →
   r.1 = some path →
   (r.2.node 5 (path.getLastD 0)).frames = f :: fs →
   exec (.ponSelection ch space errs false 0) s = .next ((((r.2.setNode 5 (path.getLastD 0)
     { r.2.node 5 (path.getLastD 0) with frames := fs }).chargePath ch.val f.len path).settle.cntPair (524288 + path.getLastD 0)
     f.len).readFrame f fun u => u.dsPlace ch.val (path.getLastD 0) f .none)) ∧
  (∀ (ch : Fin 96) (space eq : Nat) (errs : List (Nat × Nat)) (qBad : Bool) (f : Stored) (s w u : State),
   s.txOn (ch.val / 2) = true →
   s.serving = true →
   s.bit (Reg.ponLineStatus (ch.val / 2)) 31 = true →
   w = (s.hbmDamaged errs).idleFill ch.val ((s.area ch.val).2 - (s.area ch.val).1 - space) →
   (w.area ch.val).1 < (w.area ch.val).2 →
   w.xgm.wait.get (fun _ => none) ch.val = some (eq, f) →
   u = { w with xgm := { w.xgm with wait := w.xgm.wait.set (fun _ => none) ch.val none } } →
   f.ts = none →
   (u.dsCheck ch.val eq .none = .noBind → exec (.ponSelection ch space errs qBad 0) s = .next (u.bump (Reg.xgmDsNobind ch.val)))
     ∧
   (u.dsCheck ch.val eq .none = .noKey → exec (.ponSelection ch space errs qBad 0) s = .next (u.bump (Reg.xgmDsNokey ch.val)))) ∧
  (∀ (ch : Fin 96) (space eq : Nat) (errs : List (Nat × Nat)) (qBad : Bool) (f : Stored) (pid index : Nat) (key : Option (BitVec
     128)) (s w u : State),
   s.txOn (ch.val / 2) = true →
   s.serving = true →
   s.bit (Reg.ponLineStatus (ch.val / 2)) 31 = true →
   w = (s.hbmDamaged errs).idleFill ch.val ((s.area ch.val).2 - (s.area ch.val).1 - space) →
   (w.area ch.val).1 < (w.area ch.val).2 →
   w.xgm.wait.get (fun _ => none) ch.val = some (eq, f) →
   u = { w with xgm := { w.xgm with wait := w.xgm.wait.set (fun _ => none) ch.val none } } →
   f.ts = none →
   u.dsCheck ch.val eq .none = .send pid index key →
   8 + Config.xgemPadded (ch.val % 2) f.frame.bytes.length ≤ (u.area ch.val).2 - (u.area ch.val).1 → exec (.ponSelection ch
     space errs qBad 0) s = .next (((u.emit (.xgem ch.val (u.area ch.val).1 pid index true (key.elim f.frame.bytes fun k =>
     xgemCipher k false u.chrono.ponSf 0 (u.area ch.val).1 f.frame.bytes))).setArea ch.val ((u.area ch.val).1 + (8 +
     Config.xgemPadded (ch.val % 2) f.frame.bytes.length), (u.area ch.val).2)).bump (Reg.xgmDsFrames ch.val))) ∧
  (∀ (j : Fin 96) (f i k : Nat) (x : UpXgem) (full : Bool) (s : State),
   ((s.burstOf j.val f i).all fun b => b.st != .confirmed || b.grants[k]?.isNone) = true →
   exec (.upstreamXgemFrame j f i k x full 0) s = .next s) ∧
  (∀ (j : Fin 96) (f i k : Nat) (x : UpXgem) (full : Bool) (s : State) (b : Burst) (g : Grant),
   s.burstOf j.val f i = some b →
   b.st = .confirmed →
   b.grants[k]? = some g →
   ((g.dead = true ∨ (x.hec = true ∧ x.pid = 65535)) → Runs (.upstreamXgemFrame j f i k x full 0) s fun t => t =
     { s with pon := t.pon }) ∧
   (g.dead = false → x.hec = false → Runs (.upstreamXgemFrame j f i k x full 0) s fun t => t.rd (Reg.xgmUsHecErr j.val) = satAdd
     (s.rd (Reg.xgmUsHecErr j.val)) 1 ∧ RegsBut [Reg.xgmUsHecErr j.val] s t ∧ t =
     { s with regs := t.regs, pon := t.pon, xgm := t.xgm } ∧ (t.burstOf j.val f i).all (fun b' => (b'.grants[k]?).all fun g' =>
     g'.dead) = true)) ∧
  (∀ (j : Fin 96) (f i k : Nat) (x : UpXgem) (full : Bool) (s : State) (b : Burst) (g : Grant),
   s.burstOf j.val f i = some b →
   b.st = .confirmed →
   b.grants[k]? = some g →
   g.dead = false →
   x.hec = true →
   x.pid ≠ 65535 →
   ((8192 ≤ x.pid ∨ bit (s.binding (j.val / 2) x.pid).cfg0 31 = false ∨ bit (s.binding (j.val / 2) x.pid).cfg0 30 = true ∨ fld
     (s.binding (j.val / 2) x.pid).cfg0 9 0 ≠ b.onu) → Runs (.upstreamXgemFrame j f i k x full 0) s fun t =>
   t.rd (Reg.xgmUsSpoof j.val) = satAdd (s.rd (Reg.xgmUsSpoof j.val)) 1 ∧ t.xgm.reasm = s.xgm.reasm ∧ t.cmp = s.cmp) ∧
   (x.pid < 8192 → bit (s.binding (j.val / 2) x.pid).cfg0 31 = true → bit (s.binding (j.val / 2) x.pid).cfg0 30 = false → fld
     (s.binding (j.val / 2) x.pid).cfg0 9 0 = b.onu → s.allocStrict = false → 3 ≤ x.key → Runs (.upstreamXgemFrame j f i k x
     full 0) s fun t =>
   t.rd (Reg.xgmUsKeyErr j.val) = satAdd (s.rd (Reg.xgmUsKeyErr j.val)) 1 ∧ t.xgm.reasm = s.xgm.reasm ∧ t.cmp = s.cmp ∧ RegsBut
     [Reg.xgmUsKeyErr j.val] s t)) ∧
  (∀ (j : Fin 96) (f i k : Nat) (x : UpXgem) (s : State) (b : Burst) (g : Grant),
   s.burstOf j.val f i = some b →
   b.st = .confirmed →
   b.grants[k]? = some g →
   g.dead = false →
   x.hec = true →
   x.key = 0 →
   b.bad = [] →
   x.pid < 8192 →
   s.xreasm (j.val / 2) x.pid = {} →
   (s.binding (j.val / 2) x.pid).cfg0 = BitVec.ofNat 32 (2 ^ 31 + b.onu) →
   b.onu < 1024 →
   s.allocStrict = false →
   s.serving = true →
   (x.lf = true → fcsOk x.bytes = true → Runs (.upstreamXgemFrame j f i k x false 0) s fun t =>
   t.rd (Reg.xgmUsFrames j.val) = satAdd (s.rd (Reg.xgmUsFrames j.val)) 1 ∧
   t.ingress (s.pipeFor (j.val / 2)) = s.ingress (s.pipeFor (j.val / 2)) ++ [s.attach
     { bytes := x.bytes, port := j.val / 2, ch := j.val % 2, onu := b.onu, alloc := g.alloc, xgem := x.pid, stamp := b.stamp }]
     ∧ t.xgm.reasm = s.xgm.reasm ∧
   RegsBut [Reg.xgmUsFrames j.val, Reg.chkInj] s t) ∧
   (x.lf = true → fcsOk x.bytes = false → Runs (.upstreamXgemFrame j f i k x false 0) s fun t =>
   t.rd (Reg.xgmUsFcsErr j.val) = satAdd (s.rd (Reg.xgmUsFcsErr j.val)) 1 ∧ t.cmp = s.cmp ∧ t.xgm.reasm = s.xgm.reasm ∧
   RegsBut [Reg.xgmUsFcsErr j.val] s t) ∧
   (x.lf = false → x.bytes.length ≤ s.maxSdu → s.reasmUnits + ceilDiv x.bytes.length 256 ≤ reasmUnitsMax → Runs
     (.upstreamXgemFrame j f i k x false 0) s fun t =>
   (t.xreasm (j.val / 2) x.pid).isOpen = true ∧ (t.xreasm (j.val / 2) x.pid).bytes = x.bytes ∧ (t.xreasm (j.val / 2) x.pid).u =
     f ∧
   (t.xreasm (j.val / 2) x.pid).onu = b.onu ∧ t.cmp = s.cmp ∧ t.regs = s.regs)) ∧
  (∀ (n : Fin 48) (pid : Fin 8192) (at' : Raw) (s : State),
   ((s.advance at').xreasm n.val pid.val).isOpen = false →
   exec (.reassemblyTimeout n pid at') s = .next (s.advance at')) ∧
  (∀ (n : Fin 48) (pid : Fin 8192) (at' : Raw) (s u : State),
   u = s.advance at' →
   (u.raw.toNat : Int) < (u.chrono.psyncAt.toNat : Int) + ((((u.xreasm n.val pid.val).u + u.reasmFrames + 1 : Nat) : Int) -
     u.chrono.ponSf) * 8192000000 + (u.teq n.val) * 65536 →
   exec (.reassemblyTimeout n pid at') s = .next u) ∧
  (∀ (n : Fin 48) (pid : Fin 8192) (at' : Raw) (s u : State),
   u = s.advance at' →
   (u.xreasm n.val pid.val).isOpen = true →
   (u.chrono.psyncAt.toNat : Int) + ((((u.xreasm n.val pid.val).u + u.reasmFrames + 1 : Nat) : Int) - u.chrono.ponSf) *
     8192000000 + (u.teq n.val) * 65536 ≤ u.raw.toNat →
   Runs (.reassemblyTimeout n pid at') s fun t =>
   (t.xreasm n.val pid.val).isOpen = false ∧
   OnlyRegs [Reg.xgmUsReasmDrop (2 * n.val + (u.xreasm n.val pid.val).ch)] { u with xgm := t.xgm } t ∧
   t.rd (Reg.xgmUsReasmDrop (2 * n.val + (u.xreasm n.val pid.val).ch)) =
   satAdd (u.rd (Reg.xgmUsReasmDrop (2 * n.val + (u.xreasm n.val pid.val).ch))) 1)

/-! ### The Reckoner (chapter 07) -/

/-- ALLOC_WRITE of a port below 48 stores DBA_ALLOC_CFG_0 and 1 in that context, marks it to be reseeded when VALID rises or an ID
changes, and changes no other context; ALLOC_READ loads the context as of the last computation start (R150, Table 07.10).
DBRU_REPORT of a confirmed allocation that asked for one makes a fix and is counted; one that fails its check, or is not later
than the last fix, is counted in DBA_REPORT_BAD and changes no context (R151). A report of no such grant changes nothing.
DBA_COMMIT_GO toward the other bank leaves the switch pending and the active bank as it was, toward the active one it cancels
what is pending, and in the clock of a waypoint's request it does nothing more (R38). MAP_COMPUTATION_START, after a booking
that waits is accepted, makes the pending switch, marks map f + 2 as started and turns the pointers (R148); a context that it
cannot read stays as it is. MAP_COMPUTATION_COMPLETE marks the oldest map of its channel that is not complete as complete and
changes nothing else. Choices of the model in it: log entry 74. -/
def Obligations.ReckonerContextsReportsAndBanks : Prop :=
  (∀ (val : Word) (s : State),
   bit val 31 = true →
   fld val 21 16 < 48 →
   Runs (.allocWrite val) s fun t =>
   t.alloc (fld val 21 16) (fld val 11 0) =
   (s.alloc (fld val 21 16) (fld val 11 0)).write (s.rd Reg.dbaAllocCfg0) (s.rd Reg.dbaAllocCfg1) ∧
   (t.alloc (fld val 21 16) (fld val 11 0)).cfg0 = s.rd Reg.dbaAllocCfg0 ∧
   SameBut (fun u k => u.rck.ctxs.get (fun _ => {}) k) [fld val 21 16 * 4096 + fld val 11 0] s t ∧
   RegsBut [Reg.dbaAllocSel, Reg.dbaAllocCfg0, Reg.dbaAllocCfg1, Reg.dbaAllocFix, Reg.dbaAllocFixFrame, Reg.dbaAllocRate,
     Reg.dbaAllocEst] s t ∧ t = { s with regs := t.regs, rck := { s.rck with ctxs := t.rck.ctxs } }) ∧
  (∀ (val : Word) (s : State),
   bit val 31 = false →
   bit val 30 = true →
   fld val 21 16 < 48 →
   Runs (.allocRead val) s fun t =>
   t.rd Reg.dbaAllocCfg0 = (s.alloc (fld val 21 16) (fld val 11 0)).shown.cfg0 ∧
   t.rd Reg.dbaAllocCfg1 = (s.alloc (fld val 21 16) (fld val 11 0)).shown.cfg1 ∧
   t.rd Reg.dbaAllocFix = BitVec.ofNat 32 (min (s.alloc (fld val 21 16) (fld val 11 0)).shown.fix 0xFFFFFF) ∧
   t.rd Reg.dbaAllocEst = BitVec.ofNat 32 (min (s.alloc (fld val 21 16) (fld val 11 0)).shown.est 0xFFFFFF) ∧
   OnlyRegs [Reg.dbaAllocSel, Reg.dbaAllocCfg0, Reg.dbaAllocCfg1, Reg.dbaAllocFix, Reg.dbaAllocFixFrame, Reg.dbaAllocRate,
     Reg.dbaAllocEst] s t) ∧
  (∀ (val : Word) (s : State),
   bit val 30 = true →
   fld val 21 16 < 48 →
   Runs (.allocRead val) s fun t =>
   t.rd Reg.dbaAllocCfg0 = (t.alloc (fld val 21 16) (fld val 11 0)).shown.cfg0 ∧
   t.rd Reg.dbaAllocCfg1 = (t.alloc (fld val 21 16) (fld val 11 0)).shown.cfg1) ∧
  (∀ (val : Word) (s : State),
   48 ≤ fld val 21 16 →
   Runs (.allocWrite val) s (OnlyRegs [Reg.dbaAllocSel] s) ∧
   Runs (.allocRead val) s (OnlyRegs [Reg.dbaAllocSel] s)) ∧
  (∀ (j : Fin 96) (f i k bytes a : Nat) (s : State) (b : Burst) (g : Grant),
   s.burstOf j.val f i = some b →
   b.st = .confirmed →
   b.grants[k]? = some g →
   g.ctx = some a →
   g.dbru = true →
   (s.alloc (j.val / 2) a).reseed = false →
   (s.alloc (j.val / 2) a).fixFrame < f →
   Runs (.dbruReport j f i k true bytes) s fun t =>
   (t.alloc (j.val / 2) a).fixBytes = bytes ∧ (t.alloc (j.val / 2) a).fixFrame = f ∧
   t.rd (Reg.dbaReports j.val) = satAdd (s.rd (Reg.dbaReports j.val)) 1 ∧
   SameBut (fun u k => u.rck.ctxs.get (fun _ => {}) k) [j.val / 2 * 4096 + a] s t ∧
   RegsBut [Reg.dbaReports j.val] s t ∧ t = { s with regs := t.regs, rck := { s.rck with ctxs := t.rck.ctxs } }) ∧
  (∀ (j : Fin 96) (f i k bytes a : Nat) (good : Bool) (s : State) (b : Burst) (g : Grant),
   s.burstOf j.val f i = some b →
   b.st = .confirmed →
   b.grants[k]? = some g →
   g.ctx = some a →
   g.dbru = true →
   good = false ∨ f ≤ (s.alloc (j.val / 2) a).fixFrame ∨ (s.alloc (j.val / 2) a).reseed = true →
   exec (.dbruReport j f i k good bytes) s = .next (s.bump (Reg.dbaReportBad j.val))) ∧
  (∀ (j : Fin 96) (f i k bytes : Nat) (good : Bool) (s : State),
   ((s.burstOf j.val f i).all fun b => b.st != .confirmed || (b.grants[k]?).all fun g => !g.dbru || g.ctx.isNone) = true →
   exec (.dbruReport j f i k good bytes) s = .next s) ∧
  (∀ (val : Word) (s : State),
   bit val 31 = true →
   s.wpSame 4 = false →
   (s.activeBank Reg.dbaCommit ≠ fld val 0 0 → Runs (.dbaCommitGo val) s fun t =>
   t.bit Reg.dbaCommit 30 = true ∧ t.fld Reg.dbaCommit 1 1 = fld val 0 0 ∧ t.activeBank Reg.dbaCommit = s.activeBank
     Reg.dbaCommit ∧
   OnlyRegs [Reg.dbaCommit] s t) ∧
   (s.activeBank Reg.dbaCommit = fld val 0 0 → Runs (.dbaCommitGo val) s fun t =>
   t.bit Reg.dbaCommit 30 = false ∧ t.activeBank Reg.dbaCommit = s.activeBank Reg.dbaCommit ∧ OnlyRegs [Reg.dbaCommit] s t)) ∧
  (∀ (val : Word) (s : State),
   s.wpSame 4 = true →
   Runs (.dbaCommitGo val) s fun t => t.activeBank Reg.dbaCommit = s.activeBank Reg.dbaCommit ∧ t.bit Reg.dbaCommit 30 = s.bit
     Reg.dbaCommit 30 ∧ OnlyRegs [Reg.dbaCommit] s t) ∧
  (∀ (at' : Raw) (s u : State),
   u = (s.advance at').bookSettle →
   Runs (.mapComputationStart at' []) s fun t =>
   t.rck.started = (u.chrono.ponSf + 2) % 2 ^ 51 ∧ t.rck.turn = u.rck.turn + 1 ∧
   t.activeBank Reg.dbaCommit = (if u.bit Reg.dbaCommit 30 then u.fld Reg.dbaCommit 1 1 else u.activeBank Reg.dbaCommit) ∧
   t.bit Reg.dbaCommit 30 = false ∧ t = { u with regs := t.regs, rck := t.rck, pon := t.pon, act := t.act }) ∧
  (∀ (at' : Raw) (a : Nat) (s u : State),
   u = (s.advance at').bookSettle →
   Runs (.mapComputationStart at' [a]) s fun t =>
   t.rck.started = (u.chrono.ponSf + 2) % 2 ^ 51 ∧ t.rck.turn = u.rck.turn + 1 ∧
   t.rck.ctxs.get (fun _ => {}) a = u.rck.ctxs.get (fun _ => {}) a ∧ t.bit Reg.dbaCommit 30 = false) ∧
  (∀ (j : Fin 96) (s : State) (m : PonMap),
   ((s.maps j.val).filter fun m => !m.done).getLast? = some m →
   Runs (.mapComputationComplete j) s fun t =>
   t.maps j.val = (s.maps j.val).map (fun x => if x.f = m.f then { x with done := true } else x) ∧
   SameBut State.maps [j.val] s t ∧ t = { s with pon := t.pon }) ∧
  (∀ (j : Fin 96) (s : State),
   (s.maps j.val).all (fun m => m.done) = true →
   exec (.mapComputationComplete j) s = .next s)

/-- BOOKING_GO with no booking waiting keeps the request and sets PENDING; with one submitted in the same clock still waiting it
sets RESULT 5, counts a refused booking and keeps the waiting one; without GO only DBA_BOOK_CMD changes. Before its own effect a
command of a later clock finds the waiting booking accepted: for a port that does not exist or a context that is not VALID
RESULT 6, 0 bytes accepted and a refused booking counted; otherwise the status word carries the RESULT, LATE and bytes of the
placement, and the calendar is the placement's; either way its end is announced (R163, R164). CTI_REPORT takes the oldest frame
handed to the receiver: with an unknown client or a bad report DBA_CTI_BAD counts it and no booking is made; else each of at
most 16 entries is counted in DBA_CTI_ACCEPT; with no frame it does nothing more (R166). Choices of the model in it: log entry
70. -/
def Obligations.BookingsAnswerWithAResult : Prop :=
  (∀ (val : Word) (t0 : Nat) (s u : State),
   u = s.bookSettle →
   t0 = ((u.rd Reg.dbaBookSecLo).toNat + 2 ^ 32 * u.fld Reg.dbaBookSecHi 15 0) * 1000000000 + u.fld Reg.dbaBookNs 29 0 →
   bit val 31 = true →
   (u.rck.booking = none → Runs (.bookingGo val) s fun t =>
   t.rck.booking = some
     { n := u.fld Reg.dbaBookTarget 21 16, a := u.fld Reg.dbaBookTarget 11 0, t := t0, vol := u.fld Reg.dbaBookVol 23 0, spread := min 8 (max 1 (fld val 3 0)), train := fld val 11 8, at' := u.raw }
     ∧
   t.rd Reg.dbaBookStatus = 0x80000000 ∧ RegsBut [Reg.dbaBookCmd, Reg.dbaBookStatus] u t ∧
   t = { u with regs := t.regs, rck := { u.rck with booking := t.rck.booking } }) ∧
   (u.rck.booking ≠ none → Runs (.bookingGo val) s fun t =>
   t.fld Reg.dbaBookStatus 27 24 = 5 ∧ t.rd Reg.dbaBookRefused = satAdd (u.rd Reg.dbaBookRefused) 1 ∧
   OnlyRegs [Reg.dbaBookCmd, Reg.dbaBookStatus, Reg.dbaBookRefused] u t)) ∧
  (∀ (val : Word) (s : State),
   bit val 31 = false →
   Runs (.bookingGo val) s (OnlyRegs [Reg.dbaBookCmd] s.bookSettle)) ∧
  (∀ (rep : Option CtiReport) (s u : State) (r : BookReq) (e : BookEnd),
   s.cmp.cti = [] →
   s.rck.booking = some r →
   r.at' ≠ s.raw →
   ({ s with rck := { s.rck with booking := none } } : State).book r.n r.a r.t r.vol r.spread r.train = (e, u) →
   Runs (.ctiReport rep) s fun t =>
   t.rd Reg.dbaBookStatus = BitVec.ofNat 32 (2 ^ 30 + ofBool e.late * 2 ^ 29 + e.result * 2 ^ 24 + min e.accepted 0xFFFFFF) ∧
   t.rd Reg.dbaBookFirstFrame = BitVec.ofNat 32 e.first ∧ t.rck = u.rck ∧ Raised (leafOf 12 6) t ∧
   ((48 ≤ r.n ∨ (s.alloc r.n r.a).valid = false) → Runs (.ctiReport rep) s fun t =>
   t.rd Reg.dbaBookStatus = 0x46000000 ∧ t.rd Reg.dbaBookRefused = satAdd (s.rd Reg.dbaBookRefused) 1 ∧
   t.rck = { s.rck with booking := none } ∧
   Reports ([Reg.dbaBookStatus, Reg.dbaBookRefused, Reg.dbaBookFirstFrame] ++ eventRegs (leafOf 12 6))
     { s with rck := { s.rck with booking := none } } t)) ∧
  (∀ (rep : Option CtiReport) (s u : State) (f : Frame) (fs : List Frame),
   u = s.bookSettle →
   u.cmp.cti = f :: fs →
   (rep.bind fun r => u.ctiEntry r.client) = none →
   Runs (.ctiReport rep) s fun t =>
   t.cmp.cti = fs ∧ t.rd Reg.dbaCtiBad = satAdd (u.rd Reg.dbaCtiBad) 1 ∧ t.rck = u.rck ∧ Raised (leafOf 12 7) t) ∧
  (∀ (r : CtiReport) (w : Word) (s u : State) (f : Frame) (fs : List Frame),
   u = s.bookSettle →
   u.cmp.cti = f :: fs →
   u.ctiEntry r.client = some w →
   Runs (.ctiReport (some r)) s fun t =>
   t.cmp.cti = fs ∧ t.rd Reg.dbaCtiAccept = satAdd (u.rd Reg.dbaCtiAccept) (min 16 r.entries.length) ∧
   t.rd Reg.dbaCtiBad = u.rd Reg.dbaCtiBad) ∧
  (∀ (rep : Option CtiReport) (s : State),
   s.cmp.cti = [] →
   s.rck.booking = none →
   exec (.ctiReport rep) s = .next s)

/-! ### Structure images (chapter 02) -/

/-- While a load runs: IMAGE_HEADER_READ keeps a good header, and ends the load in FAIL with REASON 13 for a bad one;
IMAGE_DIRECTORY_READ keeps a directory that fits, else REASON 8; IMAGE_FIRST_PASS_END gives REASON 9 for a signature that fails,
10 for an SVN below the fuses, else the second pass begins and the structure is not valid; IMAGE_SECTION_APPLY applies the next
section in ascending OFFSET and records it in OP_PARTIAL; IMAGE_SECOND_PASS_END gives REASON 11 when the digest differs, else
DONE with the structure valid and the image's content in force (R25 to R28). With the security engine in error each condition
that it would have tested gives REASON 9. IMAGE_READ_FAILURE gives REASON 5 from host memory and 14 from flash (R30). With
EVENT_EN 0 no register but the operation's own changes where nothing but the operation ends. A step that is not the load's next
one changes nothing. Choices of the model in it: log entry 84. -/
def Obligations.ImageLoadsGoThroughFiveConditions : Prop :=
  (∀ (h : ImgHeader) (s : State) (r : LoadRun),
   s.dev.load = some r →
   r.hdr = none →
   Runs (.imageHeaderRead h) s fun t =>
   (headerOk h = true → t.dev.load = some { r with hdr := some h, bytes := 32 } ∧
   t = { s with regs := t.regs, dev := { s.dev with load := t.dev.load } } ∧ RegsBut [opStat .imageLoad] s t) ∧
   (headerOk h = false → t.dev.load = none ∧ t.fld (opStat .imageLoad) 31 24 = (if s.sec.error then 0x19 else 0x1D) ∧
   (s.bit (opCtrl .imageLoad) 29 = false → RegsBut [opStat .imageLoad] s t))) ∧
  (∀ (dir : List DirEntry) (s : State) (r : LoadRun) (h : ImgHeader),
   s.dev.load = some r →
   r.hdr = some h →
   r.dir = [] →
   dir.length = h.sectionCount →
   Runs (.imageDirectoryRead dir) s fun t =>
   (lengthOk h r.len dir = true → t.dev.load = some { r with dir := dir, bytes := 32 + 16 * h.sectionCount } ∧
   t = { s with regs := t.regs, dev := { s.dev with load := t.dev.load } } ∧ RegsBut [opStat .imageLoad] s t) ∧
   (lengthOk h r.len dir = false → t.dev.load = none ∧ t.fld (opStat .imageLoad) 31 24 = (if s.sec.error then 0x19 else 0x18) ∧
   (s.bit (opCtrl .imageLoad) 29 = false → RegsBut [opStat .imageLoad] s t))) ∧
  (∀ (pubkey sig : List Byte) (digest : BitVec 384) (s : State) (r : LoadRun) (h : ImgHeader),
   s.dev.load = some r →
   r.hdr = some h →
   r.dir ≠ [] →
   r.second = false →
   Runs (.imageFirstPassEnd pubkey sig digest) s fun t =>
   (s.sigOk h pubkey sig digest = false → t.dev.load = none ∧ t.fld (opStat .imageLoad) 31 24 = 0x19) ∧
   (s.sigOk h pubkey sig digest = true → h.svn < s.sec.otp.imgSvnMin → t.dev.load = none ∧ t.fld (opStat .imageLoad) 31 24 =
     0x1A) ∧
   (s.sigOk h pubkey sig digest = true → s.sec.otp.imgSvnMin ≤ h.svn → t.dev.structValid = false ∧
   t.dev.load = some { r with second := true, digest := digest, bytes := r.len }) ∧
   (s.bit (opCtrl .imageLoad) 29 = false → RegsBut [opStat .imageLoad] s t)) ∧
  (∀ (sec : Section) (s : State) (r : LoadRun) (i : Nat) (e : DirEntry),
   s.dev.load = some r →
   r.second = true →
   r.nextSection = some (i, e) →
   sectionType sec = e.type →
   Runs (.imageSectionApply sec) s fun t =>
   t.dev.load = some
     { r with body := applySection r.body sec, applied := r.applied ++ [i], bytes := r.len + e.offset + e.length } ∧
   t.rd Reg.devImgOpPartial = BitVec.ofNat 32 (2 ^ 31 + i) ∧
   RegsBut [opStat .imageLoad, Reg.devImgOpPartial] s t ∧ t =
     { s with regs := t.regs, dev := { s.dev with load := t.dev.load } }) ∧
  (∀ (digest : BitVec 384) (s : State) (r : LoadRun) (h : ImgHeader),
   s.dev.load = some r →
   r.hdr = some h →
   r.second = true →
   r.nextSection = none →
   Runs (.imageSecondPassEnd digest) s fun t => t.dev.load = none ∧
   (s.sec.error = true → t.fld (opStat .imageLoad) 31 24 = 0x19 ∧ t.dev.structValid = s.dev.structValid) ∧
   (s.sec.error = false → digest ≠ r.digest → t.fld (opStat .imageLoad) 31 24 = 0x1B ∧ t.dev.structValid = s.dev.structValid) ∧
   (s.sec.error = false → digest = r.digest → t.fld (opStat .imageLoad) 31 24 = 0x40 ∧ t.dev.structValid = true ∧ t.dev.body =
     r.body)) ∧
  (∀ (bytes : Nat) (s : State) (r : LoadRun),
   s.dev.load = some r →
   Runs (.imageReadFailure bytes) s fun t => t.dev.load = none ∧
   t.fld (opStat .imageLoad) 31 24 = (if r.flash then 0x1E else 0x15) ∧ t.progress .imageLoad = bytes / 1024 % 2 ^ 24 ∧
   (s.bit (opCtrl .imageLoad) 29 = false → RegsBut [opStat .imageLoad] s t)) ∧
  (∀ (bytes : Nat) (s : State) (r : SwapRun),
   s.dev.load = none →
   s.dev.swap = some r →
   Runs (.imageReadFailure bytes) s fun t =>
   (r.phase = .auth ∨ r.phase = .loadSpare → t.dev.swap = none ∧ t.fld (opStat .imageSwap) 31 24 = (if r.flash then 0x1E else
     0x15)) ∧
   (r.phase = .paused ∨ r.phase = .moving → t = s)) ∧
  (∀ (bytes : Nat) (s : State),
   s.dev.load = none →
   s.dev.swap = none →
   exec (.imageReadFailure bytes) s = .next s) ∧
  (∀ (h : ImgHeader) (dir : List DirEntry) (pubkey sig : List Byte) (digest : BitVec 384) (sec : Section) (s : State),
   (((s.dev.load.map fun r => r.hdr.isSome).getD true = true → exec (.imageHeaderRead h) s = .next s) ∧
   ((s.dev.load.map fun r => r.hdr.isNone || !r.dir.isEmpty).getD true = true → exec (.imageDirectoryRead dir) s = .next s) ∧
   ((s.dev.load.map fun r => r.dir.isEmpty || r.second).getD true = true → exec (.imageFirstPassEnd pubkey sig digest) s = .next
     s) ∧
   ((s.dev.load.map fun r => !r.second || r.nextSection.isNone).getD true = true → exec (.imageSectionApply sec) s = .next s) ∧
   ((s.dev.load.map fun r => !r.second || r.nextSection.isSome).getD true = true → exec (.imageSecondPassEnd digest) s = .next
     s)))

/-- IMAGE_SWAP_START of an idle swap in an allowed mode with a source of at least 32 bytes makes the swap busy in its authentication
step, in any other mode or beside an image load it fails with REASON 3, without an image in flash with 14; ABORT of a paused
swap ends it ABORTED with REASON 1, of another keeps a request; CONTINUE of a paused swap goes on to the move point and else
stores its fields alone (R32, R34). SWAP_AUTHENTICATION_END ends the swap with the REASON of the condition that fails, or
ABORTED, or goes to the first pipeline. SPARE_LOAD_COMPLETE after an ABORT discards the spare and ends the swap; with PAUSE it
sets PAUSED; else it goes to the move point. PIPELINE_MOVE_COMPLETE with no frame left in the old pipeline gives its number to
the spare's and makes it the spare, also for a move whose swap a mode change ended; a step that is not the swap's next one
changes nothing. MEMORY_BIST_END ends DONE with the instances tested as PROGRESS, or FAIL with REASON 8 and the first failing
instance, after a correction counts in its KIND's counter; with no BIST running it changes nothing (R57). Choices of the model
in it: log entries 64, 97. -/
def Obligations.ImageSwapsMoveOnePipelineAtATime : Prop :=
  (∀ (val : Word) (flash : Option Nat) (s : State),
   bit val 31 = true →
   s.busy .imageSwap = false →
   (opAllowed .imageSwap s.dev.mode 0 0 = false ∨ s.busy .imageLoad = true → Runs (.imageSwapStart val flash) s fun t => t.fld
     (opStat .imageSwap) 31 24 = 0x13 ∧ t.dev.swap = s.dev.swap ∧ (bit val 29 = false → RegsBut [opCtrl .imageSwap, opStat
     .imageSwap, Reg.devSwapOpPartial] s t)) ∧
   (opAllowed .imageSwap s.dev.mode 0 0 = true → s.busy .imageLoad = false → fld val 15 0 % 2 = 0 → 32 ≤ s.fld Reg.devImgLen 26
     0 → Runs (.imageSwapStart val flash) s fun t => t.rd (opStat .imageSwap) = 0x80000000 ∧ t.rd Reg.devSwapOpPartial = 0 ∧
     t.dev.swap = some { flash := false, len := s.fld Reg.devImgLen 26 0 } ∧ RegsBut [opCtrl .imageSwap, opStat .imageSwap,
     Reg.devSwapOpPartial] s t) ∧
   (opAllowed .imageSwap s.dev.mode 0 0 = true → s.busy .imageLoad = false → fld val 15 0 % 2 = 1 → s.dev.binAlive = true → 32 ≤
     flash.getD 0 → Runs (.imageSwapStart val flash) s fun t => t.rd (opStat .imageSwap) = 0x80000000 ∧ t.dev.swap = some
     { flash := true, len := flash.getD 0 }) ∧
   (opAllowed .imageSwap s.dev.mode 0 0 = true → s.busy .imageLoad = false → fld val 15 0 % 2 = 1 → flash = none → Runs
     (.imageSwapStart val flash) s fun t => t.fld (opStat .imageSwap) 31 24 = 0x1E ∧ t.dev.swap = s.dev.swap)) ∧
  (∀ (val : Word) (s : State) (r : SwapRun),
   fld val 31 30 = 1 →
   s.busy .imageSwap = true →
   s.dev.swap = some r →
   Runs (.imageSwapAbort val) s fun t =>
   (r.phase = .paused → t.dev.swap = none ∧ t.fld (opStat .imageSwap) 31 24 = 0x21 ∧ t.bit Reg.devSwapOpPartial 31 = false) ∧
   (r.phase ≠ .paused → t.dev.swap = some { r with abort := true } ∧ t.rd (opStat .imageSwap) = s.rd (opStat .imageSwap))) ∧
  (∀ (val : Word) (s : State),
   bit val 31 = false →
   s.busy .imageSwap = false →
   (Runs (.imageSwapAbort val) s fun t => OnlyRegs [opCtrl .imageSwap] s t) ∧ Runs (.imageSwapContinue val) s fun t => OnlyRegs
     [opCtrl .imageSwap] s t) ∧
  (∀ (val : Word) (s : State) (r : SwapRun),
   fld val 31 30 = 0 →
   bit val 2 = true →
   s.busy .imageSwap = true →
   s.dev.swap = some r →
   Runs (.imageSwapContinue val) s fun t =>
   (∀ f ∈ r.img, r.phase = .paused → t.dev.swap = some { r with phase := .moving } ∧ t = (s.wrTyped (opCtrl .imageSwap)
     val).movePoint r f) ∧
   (r.img = none ∨ r.phase ≠ .paused → OnlyRegs [opCtrl .imageSwap] s t)) ∧
  (∀ (img : ImageFile) (s : State) (r : SwapRun),
   s.dev.swap = some r →
   r.phase = .auth →
   s.dev.moving = none →
   Runs (.swapAuthenticationEnd img) s fun t =>
   (s.swapReason r.len img ≠ none → t.dev.swap = none ∧
   t.fld (opStat .imageSwap) 31 24 = 0x10 + (s.swapReason r.len img).getD 0 % 16) ∧
   (s.swapReason r.len img = none → r.abort = true → t.dev.swap = none ∧ t.fld (opStat .imageSwap) 31 24 = 0x21) ∧
   (s.swapReason r.len img = none → r.abort = false → t = s.swapNext r img 0)) ∧
  (∀ (img : ImageFile) (s : State),
   ((s.dev.swap.map fun r => decide (r.phase ≠ .auth)).getD true || s.dev.moving.isSome) = true →
   exec (.swapAuthenticationEnd img) s = .next s) ∧
  (∀ (s : State) (r : SwapRun) (f : ImageFile),
   s.dev.swap = some r →
   r.img = some f →
   r.phase = .loadSpare →
   Runs .spareLoadComplete s fun t =>
   (r.abort = true → t.dev.swap = none ∧ t.fld (opStat .imageSwap) 31 24 = 0x21 ∧ t.pipe s.spare = {}) ∧
   (r.abort = false → s.opArg .imageSwap / 2 % 2 = 1 → t.dev.swap = some { r with phase := .paused } ∧ t.bit
     Reg.devSwapOpPartial 31 = true ∧
   t.pipe s.spare = pipeOf (bodyOf f) f.hdr.imageId ∧ RegsBut [Reg.devSwapOpPartial] s t ∧ t =
     { s with regs := t.regs, dev := t.dev }) ∧
   (r.abort = false → s.opArg .imageSwap / 2 % 2 = 0 → t = (s.setPipe s.spare (pipeOf (bodyOf f) f.hdr.imageId)).movePoint r f ∧
   t.dev.swap = some { r with phase := .moving } ∧ t.pipe s.spare = pipeOf (bodyOf f) f.hdr.imageId)) ∧
  (∀ (s : State) (k : Nat),
   s.dev.moving = some k →
   (s.recirc (s.fld (Reg.devPipeMap k) 3 0) = [] → k < 8 → Runs .pipelineMoveComplete s fun t =>
   t.dev.moving = none ∧ t.fld (Reg.devPipeMap k) 3 0 = s.spare ∧ t.spare = s.fld (Reg.devPipeMap k) 3 0) ∧
   (s.recirc (s.fld (Reg.devPipeMap k) 3 0) ≠ [] → exec .pipelineMoveComplete s = .next s)) ∧
  (∀ (s : State) (r : SwapRun) (f : ImageFile),
   s.dev.moving = none →
   s.dev.swap = some r →
   r.img = some f →
   r.phase = .moving →
   r.k < 8 →
   (s.recirc (s.fld (Reg.devPipeMap r.k) 3 0) = [] → Runs .pipelineMoveComplete s fun t =>
   t.fld (Reg.devPipeMap r.k) 3 0 = s.spare ∧ t.spare = s.fld (Reg.devPipeMap r.k) 3 0 ∧
   t.progress .imageSwap = (s.progress .imageSwap + 1) % 2 ^ 24 ∧ t.cmp.ingress = s.cmp.ingress ∧
   (r.abort = true → t.dev.swap = none ∧ t.fld (opStat .imageSwap) 31 24 = 0x21)) ∧
   (s.recirc (s.fld (Reg.devPipeMap r.k) 3 0) ≠ [] → exec .pipelineMoveComplete s = .next s)) ∧
  (∀ (s : State),
   ((s.dev.swap.map fun r => r.img.isNone || decide (r.phase ≠ .loadSpare)).getD true = true → exec .spareLoadComplete s = .next
     s) ∧
   ((s.dev.swap.map fun r => r.img.isNone || decide (r.phase ≠ .moving)).getD true = true → s.dev.moving = none → exec
     .pipelineMoveComplete s = .next s)) ∧
  (∀ (tested t0 k : Nat) (failing : List (Nat × Nat)) (corr : List (Fin 10 × Nat × Nat × BitVec 64)) (s : State),
   s.dev.bist = some t0 →
   (Runs (.memoryBistEnd tested failing corr) s fun t =>
   t.dev.bist = none ∧ t.progress .memoryBist = tested % 2 ^ 24 ∧
   (failing = [] → t.fld (opStat .memoryBist) 31 24 = 0x40) ∧
   (failing ≠ [] → t.fld (opStat .memoryBist) 31 24 = 0x18 ∧
   t.rd (Reg.devBistOpPartial 0) = BitVec.ofNat 32 ((failing.headD (0, 0)).1 % 16 * 2 ^ 24 + (failing.headD (0, 0)).2 % 4096) ∧
   t.rd (Reg.devBistOpPartial 1) = BitVec.ofNat 32 (min 65535 failing.length))) ∧
   (corr.map (fun x => x.1.val) = [k] → Runs (.memoryBistEnd tested failing corr) s fun t =>
   t.rd (Reg.chkMemCorr k) = satAdd (s.rd (Reg.chkMemCorr k)) 1)) ∧
  (∀ (tested : Nat) (failing : List (Nat × Nat)) (corr : List (Fin 10 × Nat × Nat × BitVec 64)) (s : State),
   s.dev.bist = none →
   exec (.memoryBistEnd tested failing corr) s = .next s)

/-! ### HELM rings (chapter 02) -/

/-- A write of TAIL changes that TAIL alone. PUNT_FRAME_DELIVERY in SAFE, or with no frame waiting, changes nothing; with no
descriptor posted or PERST_N low the next frame is dropped whole and counted; a frame that fits the first posted buffer is
written there, then its descriptor with SOP and EOP, and HEAD advances by one modulo the ring's size; a longer one fills one
posted buffer after another, and is counted as dropped when they do not hold it: no other register changes (R44, R61).
INJECT_MODE_PIPELINE and INJECT_MODE_DIRECT take a frame only when the ring holds its descriptors, PERST_N is high and the mode
serves (or is STANDBY, where only PTP passes); each descriptor gets its flag byte written and HEAD advances by their number;
PIPELINE puts the frame at the end of the ingress buffer of its source port's pipeline, or counts CMP_ING_OVERRUN when that is
full, DIRECT queues it toward the destination port or counts CMP_DEF_RESERVED for one of 75 or above; a reserved SRC_PORT
discards it (R12, R17, R45). Choices of the model in it: log entry 86. -/
def Obligations.PuntAndInjectRingsFollowTheirDescriptors : Prop :=
  (∀ (n : Fin 64) (val : Word) (s : State),
   Runs (.puntTailWrite n val) s fun t =>
   t = s.wrTyped (Reg.devRingPuntTail n.val) val ∧ OnlyRegs [Reg.devRingPuntTail n.val] s t ∧ t.rd (Reg.devRingPuntTail n.val) =
     val ∧
   Runs (.injectTailWrite n val) s fun t =>
   t = s.wrTyped (Reg.devRingInjTail n.val) val ∧ OnlyRegs [Reg.devRingInjTail n.val] s t ∧ t.rd (Reg.devRingInjTail n.val) =
     val) ∧
  (∀ (bufs : List HostBuf) (s : State),
   s.dev.mode = .safe ∨ s.nextPunt = none →
   exec (.puntFrameDelivery bufs) s = .next s) ∧
  (∀ (bufs : List HostBuf) (s u : State) (f : HostFrame),
   s.dev.mode ≠ .safe →
   s.nextPunt = some (f, u) →
   s.dev.perstLow = true ∨ bufs.take (s.puntPosted f.ring) = [] →
   exec (.puntFrameDelivery bufs) s = .next (u.bump (Reg.devRingPuntDrop f.ring))) ∧
  (∀ (bufs bs : List HostBuf) (b : HostBuf) (s u : State) (f : HostFrame),
   s.dev.mode ≠ .safe →
   s.dev.perstLow = false →
   s.nextPunt = some (f, u) →
   bufs.take (s.puntPosted f.ring) = b :: bs →
   f.data.length ≤ b.len →
   Runs (.puntFrameDelivery bufs) s fun t =>
   t.out = u.out ++ [.hostWrite b.addr f.data,
   .hostWrite (BitVec.ofNat 64 (s.rdWords (Reg.devRingPuntBaseLo f.ring) 2 + 32 * (s.rd (Reg.devRingPuntHead f.ring)).toNat))
   (puntDesc b f.data.length true true false f.tail)] ∧
   t.rd (Reg.devRingPuntHead f.ring) = BitVec.ofNat 32 (((s.rd (Reg.devRingPuntHead f.ring)).toNat + 1) % 2 ^ (s.rd
     (Reg.devRingPuntSize f.ring)).toNat) ∧
   RegsBut [Reg.devRingPuntHead f.ring] u t ∧ t = { u with regs := t.regs, out := t.out }) ∧
  (∀ (bufs : List HostBuf) (s u : State) (f : HostFrame),
   s.dev.mode ≠ .safe →
   s.dev.perstLow = false →
   s.nextPunt = some (f, u) →
   bufs.take (s.puntPosted f.ring) ≠ [] →
   Runs (.puntFrameDelivery bufs) s fun t =>
   ((intoBufs f.data (bufs.take (s.puntPosted f.ring))).2 ≠ [] → t.rd (Reg.devRingPuntDrop f.ring) = satAdd (u.rd
     (Reg.devRingPuntDrop f.ring)) 1) ∧
   t.out.length = u.out.length + 2 * (intoBufs f.data (bufs.take (s.puntPosted f.ring))).1.length ∧
   RegsBut [Reg.devRingPuntHead f.ring, Reg.devRingPuntDrop f.ring] u t ∧ t = { u with regs := t.regs, out := t.out }) ∧
  (∀ (n : Fin 64) (desc : InjDesc) (data : List Byte) (count : Nat) (cap : Raw) (full : Bool) (s : State),
   s.injReady n.val count = false →
   exec (.injectModePipeline n desc data count cap full) s = .next s ∧
   exec (.injectModeDirect n desc data count cap) s = .next s) ∧
  (∀ (n : Fin 64) (desc : InjDesc) (data : List Byte) (cap : Raw) (count : Nat) (full : Bool) (s u : State) (f : Frame),
   s.injReady n.val count = true →
   desc.srcPort < 75 →
   u = s.injRead n.val desc 0 true count →
   f = u.attach (u.injFrame desc data cap) →
   (u.passes f = true → full = false → Runs (.injectModePipeline n desc data count cap full) s fun t =>
   t.ingress (u.pipeFor desc.srcPort) = u.ingress (u.pipeFor desc.srcPort) ++ [f] ∧ t.out = u.out ∧ RegsBut [Reg.chkInj] u t) ∧
   (u.passes f = true → full = true → exec (.injectModePipeline n desc data count cap full) s = .next (u.bump (Reg.cmpIngOverrun
     (u.pipeFor desc.srcPort)))) ∧
   (u.passes f = false → exec (.injectModePipeline n desc data count cap full) s = .next u)) ∧
  (∀ (n : Fin 64) (desc : InjDesc) (data : List Byte) (cap : Raw) (count : Nat) (s u : State) (f : Frame),
   s.injReady n.val count = true →
   desc.srcPort < 75 →
   u = s.injRead n.val desc 1 true count →
   f = u.attach (u.injFrame desc data cap) →
   (u.passes f = true → exec (.injectModeDirect n desc data count cap) s =
   .next (u.forwardTo ⟨u.pipeFor desc.srcPort, desc.srcPort, f, [], { ts := f.ts }, 0, false, []⟩ 0 u.devId desc.dstPort
     (desc.cls % 8) 0).2) ∧
   (u.passes f = true → 75 ≤ desc.dstPort → exec (.injectModeDirect n desc data count cap) s = .next (u.bump (Reg.cmpDefReserved
     desc.srcPort))) ∧
   (u.passes f = false → exec (.injectModeDirect n desc data count cap) s = .next u)) ∧
  (∀ (n : Fin 64) (desc : InjDesc) (mode : Nat) (first : Bool) (count : Nat) (s u : State),
   u = s.injRead n.val desc mode first count →
   count ≠ 0 →
   6 ≤ (s.rd (Reg.devRingInjSize n.val)).toNat →
   (s.rd (Reg.devRingInjSize n.val)).toNat ≤ 16 →
   u.rd (Reg.devRingInjHead n.val) =
   BitVec.ofNat 32 (((s.rd (Reg.devRingInjHead n.val)).toNat + count) % 2 ^ (s.rd (Reg.devRingInjSize n.val)).toNat) ∧
   u.out.length = s.out.length + count ∧ RegsBut [Reg.devRingInjHead n.val] s u ∧ u = { s with regs := u.regs, out := u.out }) ∧
  (∀ (n : Fin 64) (desc : InjDesc) (mode : Nat) (s u : State),
   u = s.injRead n.val desc mode true 1 →
   u.out = s.out ++ [.hostWrite (BitVec.ofNat 64 (s.rdWords (Reg.devRingInjBaseLo n.val) 2 + 32 * (s.rd (Reg.devRingInjHead
     n.val)).toNat + 10))
   (leBytes 1 (96 + ofBool desc.tsReq * 16 + mode))]) ∧
  (∀ (n : Fin 64) (desc : InjDesc) (data : List Byte) (count : Nat) (cap : Raw) (full : Bool) (s : State),
   s.injReady n.val count = true →
   75 ≤ desc.srcPort →
   exec (.injectModePipeline n desc data count cap full) s = .next (s.injRead n.val desc 0 true count) ∧
   exec (.injectModeDirect n desc data count cap) s = .next (s.injRead n.val desc 1 true count))

/-! ### Modes (chapter 03) -/

/-- MODE_REQUEST of a legal mode with none in transition is accepted: the transition to it with cause 2 is kept and MODE stays; of
an illegal mode or value REQ_REFUSED is set, the event raised and MODE stays; of the current mode nothing but DEV_MODE changes
(R51); one in the clock of a takeover, or of an entry to SAFE, is refused (R52). SAFE_REQUEST and FATAL_ERROR outside SAFE enter
SAFE with cause 2, or 6 and its FATAL_SRC, and start the grace; in SAFE FATAL_ERROR changes nothing (R66, R67).
MODE_TRANSITION_COMPLETE gives MODE the accepted target with its cause, and a transition to COMMISSION starts commissioning; a
protected standby that becomes active takes over; with no transition only time passes (R53). SAFE_GRACE_END once the grace is
over leaves no PON port transmitting (R67). Choices of the model in it: log entries 88, 134. -/
def Obligations.ModeRequestsAreAcceptedOrRefused : Prop :=
  (∀ (val : Word) (s : State) (m : Mode),
   bit val 31 = true →
   modeOf (fld val 26 24) = some m →
   m ≠ .safe →
   m ≠ s.dev.mode →
   s.dev.trans = none →
   s.legal m = true →
   s.dev.tookAt ≠ some s.raw →
   Runs (.modeRequest val) s fun t =>
   t.dev = { s.dev with trans := some (m, 2), transAt := s.raw } ∧ RegsBut [Reg.devMode] s t ∧ t =
     { s with regs := t.regs, dev := t.dev }) ∧
  (∀ (val : Word) (s : State),
   bit val 31 = true →
   fld val 26 24 ≠ 5 →
   modeOf (fld val 26 24) ≠ some s.dev.mode →
   modeOf (fld val 26 24) = none ∨ s.dev.trans ≠ none ∨ (modeOf (fld val 26 24)).all s.legal = false ∨ s.dev.tookAt = some s.raw
     →
   Runs (.modeRequest val) s fun t =>
   t.bit Reg.devMode 30 = true ∧ t.dev = s.dev ∧ Raised (leafOf 19 1) t ∧ Reports (Reg.devMode :: eventRegs (leafOf 19 1)) s t) ∧
  (∀ (val : Word) (s : State),
   bit val 31 = false ∨ modeOf (fld val 26 24) = some s.dev.mode →
   (Runs (.modeRequest val) s (OnlyRegs [Reg.devMode] s)) ∧ Runs (.safeRequest val) s (OnlyRegs [Reg.devMode] s)) ∧
  (∀ (val : Word) (s : State),
   bit val 31 = true →
   fld val 26 24 = 5 →
   s.dev.mode ≠ .safe →
   Runs (.safeRequest val) s fun t =>
   t.dev.mode = .safe ∧ t.dev.trans = none ∧ t.dev.safeAt = some s.raw ∧ t.rd Reg.devModeCause = 2 ∧ t.raw = s.raw ∧
   (s.reqNow = true → t.bit Reg.devMode 30 = true)) ∧
  (∀ (src : Fin 4) (s : State),
   s.dev.mode ≠ .safe →
   Runs (.fatalError src) s fun t =>
   t.dev.mode = .safe ∧ t.dev.trans = none ∧ t.dev.safeAt = some s.raw ∧ t.rd Reg.devModeCause = BitVec.ofNat 32 ((src.val + 1)
     * 256 + 6) ∧
   (s.reqNow = true → t.bit Reg.devMode 30 = true)) ∧
  (∀ (src : Fin 4) (s : State),
   s.dev.mode = .safe →
   exec (.fatalError src) s = .next s) ∧
  (∀ (at' : Raw) (s u : State) (m : Mode) (cause : Nat),
   u = s.advance at' →
   u.dev.trans = some (m, cause) →
   Runs (.modeTransitionComplete at') s fun t =>
   t.dev.mode = m ∧ t.dev.trans = none ∧
   (¬(m = .active ∧ u.lhStandby = true) → t.rd Reg.devModeCause = BitVec.ofNat 32 cause) ∧
   (m = .active ∧ u.lhStandby = true → t.rd Reg.devModeCause = 3 ∧ t.fld Reg.lhtStatus 19 16 = 3) ∧
   (m = .commission → t.dev.commPhase = 1 ∧ t.rd Reg.devCommStatus = 0x80000000)) ∧
  (∀ (at' : Raw) (s : State),
   (s.advance at').dev.trans = none →
   exec (.modeTransitionComplete at') s = .next (s.advance at')) ∧
  (∀ (at' : Raw) (s u : State),
   u = s.advance at' →
   Runs (.safeGraceEnd at') s fun t =>
   (u.graceOver = true → t.dev.safeAt = none ∧ ∀ n : Fin 48, t.txOn n.val = false) ∧ (u.graceOver = false → t = u))

/-- STARTUP_SELFTEST_END before PWR_OK is high changes nothing; with both tests passed and no boot image it sets both PASS bits and
changes no other register, with a boot image of 32 bytes or more it starts the load of it, also while PERST_N is low; with a
failed test the error state is entered and the event raised (R55, R377). COMMISSIONING_PHASE_END: phase 1 passed goes on to
phase 2 with lanes calibrated and HBM trained; phase 2 passed goes on to phase 3; phase 3 passed is DONE with every PASS bit
set; a failure of phase 1 or 2 sets FAIL with its phase and enters SAFE, a failed self-test of phase 3 enters the error state
and SAFE; with no phase running nothing changes (R56, R58). Choices of the model in it: log entry 89. -/
def Obligations.StartupAndCommissioningRunTheirPhases : Prop :=
  (∀ (s : State),
   s.logicUp = true →
   Runs (.startupSelftestEnd true true none) s fun t =>
   t.bit Reg.secSelftest 0 = true ∧ t.bit Reg.secSelftest 1 = true ∧ RegsBut [Reg.secSelftest] s t ∧
   t = { s with regs := t.regs, dev := { s.dev with flashLen := none } }) ∧
  (∀ (n : Nat) (s : State),
   s.logicUp = true →
   s.dev.mode = .load →
   s.fld Reg.devModeCause 3 0 = 0 →
   s.fld Reg.secSelftest 1 0 = 0 →
   s.busy .imageLoad = false →
   s.busy .imageSwap = false →
   s.dev.binAlive = true →
   32 ≤ n →
   Runs (.startupSelftestEnd true true (some n)) s fun t =>
   t.fld Reg.secSelftest 1 0 = 3 ∧ t.rd (opStat .imageLoad) = 0x80000000 ∧ t.dev.load = some { flash := true, len := n }) ∧
  (∀ (sha ecdsa : Bool) (boot : Option Nat) (s : State),
   s.logicUp = false →
   exec (.startupSelftestEnd sha ecdsa boot) s = .next s) ∧
  (∀ (sha ecdsa : Bool) (boot : Option Nat) (s : State),
   s.logicUp = true →
   sha = false ∨ ecdsa = false →
   Runs (.startupSelftestEnd sha ecdsa boot) s fun t =>
   t.sec.error = true ∧ t.sec.approvedTests = false ∧ Raised (leafOf 26 0) t) ∧
  (∀ (s : State),
   s.dev.commPhase = 1 →
   Runs (.commissioningPhaseEnd true none) s fun t =>
   t.dev = { s.dev with commPhase := 2, hbmTrained := true } ∧ t.fld Reg.devCommStatus 1 0 = 3 ∧
   RegsBut [Reg.devCommStatus] s t ∧ t = { s with regs := t.regs, dev := t.dev }) ∧
  (∀ (s : State),
   s.dev.commPhase = 2 →
   s.dev.commShort = false →
   Runs (.commissioningPhaseEnd true none) s fun t =>
   t.dev = { s.dev with commPhase := 3 } ∧ t.bit Reg.devCommStatus 2 = true ∧ t.voq = {} ∧ t.act = {} ∧ t.rck = {} ∧ t.lht.slots
     = [] ∧ t.lht.guides = [] ∧
   t.freeTotal = s.threadLists.freeTotal ∧ RegsBut [Reg.devCommStatus] s t) ∧
  (∀ (s : State),
   s.dev.commPhase = 3 →
   Runs (.commissioningPhaseEnd true none) s fun t =>
   t.dev = { s.dev with commPhase := 0, commOnce := true } ∧ t.fld Reg.devCommStatus 31 30 = 1 ∧ t.fld Reg.secSelftest 7 2 = 63
     ∧
   ((List.range 72).all (fun ch => !s.bit (Reg.pwrCageCtrl ch) 31 && (s.cage ch).st == .off) = true → RegsBut
     [Reg.devCommStatus, Reg.secSelftest] s t)) ∧
  (∀ (p : Nat) (s : State),
   s.dev.mode = .commission →
   s.dev.commPhase = p →
   p = 1 ∨ p = 2 →
   s.dev.commShort = false →
   Runs (.commissioningPhaseEnd false none) s fun t =>
   t.dev.mode = .safe ∧ t.dev.commPhase = 0 ∧ t.bit Reg.devCommStatus 28 = true ∧ t.fld Reg.devCommStatus 7 4 = p ∧
   t.rd Reg.devModeCause = 8) ∧
  (∀ (test : Fin 8) (s : State),
   s.dev.mode = .commission →
   s.dev.commPhase = 3 →
   Runs (.commissioningPhaseEnd true (some test)) s fun t =>
   t.dev.mode = .safe ∧ t.sec.error = true ∧ t.bit Reg.secSelftest test.val = false ∧ t.fld Reg.devCommStatus 7 4 = 3) ∧
  (∀ (ok : Bool) (test : Option (Fin 8)) (s : State),
   s.dev.commPhase = 0 →
   exec (.commissioningPhaseEnd ok test) s = .next s)

/-! ### The Binnacle (chapter 20) -/

/-- A fall of POWER_FAIL_N, and a droop below 11.0 V for 200 ns, drive SAFE with CAUSE 4 (R66, R387); VIN_RECOVER releases the pin
and leaves the mode; VIN_LOSS, VIN_BELOW_STOP and THERMAL_SHUTDOWN remove the rails and leave the logic in its reset state with
DEV_RESET_CAUSE 0, below 9.0 V the Binnacle's registers too (R70); VIN_RISE starts a stopped Binnacle that finds firmware;
REFCLK_CHECK with three references within 500 ppm enables rail 0; RAIL_POWER_GOOD after the rail's time enables the next rail,
after rail 6 PWR_OK and a cold reset; a start-up fault after 10 ms removes the rails, the third in a row for good (R383, R384,
R388). RAIL_FAULT of 5 µs records itself, raises its event and enters SAFE; POWER_RESTART removes the rails after 1 ms and
begins again after its wait, or halts after three in 60 s (R385). BINNACLE_WATCHDOG after 10 ms enters SAFE with CAUSE 6,
FATAL_SRC 3; BINNACLE_SIGNAL_RETURN clears it alone. REFCLK_LOSS raises its event. AVC_UPDATE moves VCORE by at most 5 mV while
on and to the fixed target while off (R386). TEMPERATURE_SAMPLE shows each reading; a critical one enters SAFE with CAUSE 5
(R389). A time or level short of its bound changes nothing but the reading. Choices of the model in it: log entries 26, 130. -/
def Obligations.SuppliesSequenceAndProtectTheDevice : Prop :=
  (∀ (board : Bool) (s : State),
   s.logicUp = true →
   s.dev.mode ≠ .safe →
   Runs (.powerFailNFall board) s fun t =>
   t.dev.mode = .safe ∧ t.dev.powerFailLow = true ∧ t.rd Reg.devModeCause = 4 ∧ t.bit Reg.pwrVin 31 = true ∧
   (board = true → Raised (powerLeaf 1) t)) ∧
  (∀ (board : Bool) (s : State),
   s.logicUp = false →
   Runs (.powerFailNFall board) s fun t => t.dev = { s.dev with powerFailLow := true } ∧ RegsBut [Reg.pwrVin] s t) ∧
  (∀ (mv ns : Nat) (s : State),
   (mv < 11000 → 200 ≤ ns → s.logicUp = true → s.dev.mode ≠ .safe → Runs (.vinDroop mv ns) s fun t =>
   t.dev.mode = .safe ∧ t.pwr.driven = true ∧ t.dev.powerFailLow = true ∧ t.rd Reg.devModeCause = 4 ∧ t.fld Reg.pwrVin 15 0 = mv
     ∧ Raised (powerLeaf 0) t) ∧
   (mv < 11000 → 200 ≤ ns → s.logicUp = false → s.pwr.phase ≠ .stopped → Runs (.vinDroop mv ns) s fun t =>
   t.dev = { s.dev with powerFailLow := true } ∧ t.pwr = { s.pwr with driven := true } ∧ RegsBut [Reg.pwrVin] s t) ∧
   (11000 ≤ mv ∨ ns < 200 ∨ s.pwr.phase = .stopped → Runs (.vinDroop mv ns) s fun t => t.fld Reg.pwrVin 15 0 = mv % 65536 ∧
     OnlyRegs [Reg.pwrVin] s t)) ∧
  (∀ (mv ms : Nat) (board : Bool) (s : State),
   (11400 < mv → 10 ≤ ms → Runs (.vinRecover mv ms board) s fun t =>
   t.dev = { s.dev with powerFailLow := board } ∧ t.pwr = { s.pwr with driven := false } ∧ t.fld Reg.pwrVin 31 30 = 2 * ofBool
     board ∧ RegsBut [Reg.pwrVin] s t) ∧
   (mv ≤ 11400 ∨ ms < 10 → Runs (.vinRecover mv ms board) s fun t => OnlyRegs [Reg.pwrVin] s t)) ∧
  (∀ (mv us : Nat) (s : State),
   (mv < 10000 → 100 ≤ us → s.pwr.phase ≠ .halted → Runs (.vinLoss mv us) s fun t =>
   t.pwr.phase = .stopped ∧ t.pwr.railsOn = 0 ∧ t.dev.mode = .load ∧ t.rd Reg.devResetCause = 0 ∧ t.sec.otp = s.sec.otp ∧ t.pool
     = {} ∧
   t.out = s.out ++ s.railsFall) ∧
   (10000 ≤ mv ∨ us < 100 ∨ s.pwr.phase = .halted → Runs (.vinLoss mv us) s fun t => OnlyRegs [Reg.pwrVin] s t)) ∧
  (∀ (mv : Nat) (s : State),
   (mv < 9000 → Runs (.vinBelowStop mv) s fun t =>
   t.pwr = { phase := .stopped, railsOn := 0 } ∧ t.rd Reg.pwrVin = resetOf Reg.pwrVin ∧ t.rd Reg.pwrCtrl = resetOf Reg.pwrCtrl ∧
   (s.pwr.railsOn ≠ 0 → t.dev.mode = .load ∧ t.pool = {}) ∧ t.sec.otp = s.sec.otp) ∧
   (9000 ≤ mv → Runs (.vinBelowStop mv) s fun t => OnlyRegs [Reg.pwrVin] s t)) ∧
  (∀ (mv : Nat) (a b : Option FwCopy) (s : State),
   (s.pwr.phase = .stopped → 10800 < mv → (a.toList ++ b.toList).any s.sec.otp.boots = true → Runs (.vinRise mv a b) s fun t =>
   t.pwr = { s.pwr with phase := .refclk, startFaults := 0, afterFault := false } ∧ t.dev = { s.dev with binAlive := true } ∧
     RegsBut [Reg.pwrVin] s t) ∧
   (s.pwr.phase ≠ .stopped ∨ mv ≤ 10800 ∨ (a.toList ++ b.toList).any s.sec.otp.boots = false → Runs (.vinRise mv a b) s fun t =>
     OnlyRegs [Reg.pwrVin] s t)) ∧
  (∀ (pon eth pcie : Int) (s : State),
   s.pwr.phase = .refclk →
   Runs (.refclkCheck pon eth pcie) s fun t =>
   t.fld Reg.pwrStatus 22 20 = ofBool (refPasses pon) + 2 * ofBool (refPasses eth) + 4 * ofBool (refPasses pcie) ∧ RegsBut
     [Reg.pwrStatus] s t ∧
   (pon.natAbs ≤ 500 ∧ eth.natAbs ≤ 500 ∧ pcie.natAbs ≤ 500 → t.pwr =
     { s.pwr with phase := .raising 0, railsOn := 1, vcore := 800 } ∧
   t.out = s.out ++ [.pwrEn 0 true 0, .vcore 800]) ∧
   (500 < pon.natAbs ∨ 500 < eth.natAbs ∨ 500 < pcie.natAbs → t.pwr = s.pwr ∧ t.out = s.out)) ∧
  (∀ (k : Fin 7) (us : Nat) (s : State),
   s.pwr.phase = .raising k.val →
   pgUs k.val ≤ us →
   Runs (.railPowerGood k us) s fun t => t.bit Reg.pwrStatus (24 + k.val) = true ∧
   (k.val < 6 → t.pwr = { s.pwr with phase := .raising (k.val + 1), railsOn := k.val + 2 } ∧ t.out = s.out ++ [.pwrEn (k.val +
     1) true 0] ∧
   RegsBut [Reg.pwrStatus] s t ∧ t = { s with regs := t.regs, pwr := t.pwr, out := t.out }) ∧
   (k.val = 6 → t.pwr.railsOn = 7 ∧ t.pwr.startFaults = 0 ∧ t.bit Reg.pwrStatus 31 = true ∧ t.dev.mode = .load ∧
   (s.dev.zeroizeLow = false → t.pwr.phase = .up ∧ t.rd Reg.devResetCause = s.rd Reg.devResetCause ||| (if s.pwr.afterFault then
     0x11 else 0x01)))) ∧
  (∀ (k : Fin 7) (ms : Nat) (s : State),
   s.pwr.phase = .raising k.val →
   10 ≤ ms →
   Runs (.startupRailFault k ms) s fun t =>
   t.pwr.phase = (if 2 ≤ s.pwr.startFaults then .halted else .waiting) ∧ t.pwr.railsOn = 0 ∧ t.pwr.startFaults =
     s.pwr.startFaults + 1 ∧
   t.fld Reg.pwrStatus 31 24 = 0 ∧ t.out = s.out ++ s.railsFall) ∧
  (∀ (pon eth pcie : Int) (k : Fin 7) (us ms : Nat) (s : State),
   (s.pwr.phase ≠ .refclk → exec (.refclkCheck pon eth pcie) s = .next s) ∧
   (s.pwr.phase ≠ .raising k.val ∨ us < pgUs k.val → exec (.railPowerGood k us) s = .next s) ∧
   (s.pwr.phase ≠ .raising k.val ∨ ms < 10 → exec (.startupRailFault k ms) s = .next s)) ∧
  (∀ (k : Fin 7) (us binMs : Nat) (s : State),
   (s.logicUp = true → 5 ≤ us → Runs (.railFault k us binMs) s fun t =>
   t.pwr.removeDue = true ∧ t.pwr.driven = true ∧ Raised (powerLeaf 2) t ∧
   (s.dev.mode ≠ .safe → t.dev.mode = .safe ∧ t.rd Reg.devModeCause = 4) ∧
   t.rd Reg.pwrFault =
   BitVec.ofNat 32 (2 ^ 31 + k.val * 2 ^ 24 + min 15 ((s.pwr.faultTimes.filter fun m => binMs < m + 60000).length + 1)) ∧
   t.bit Reg.pwrStatus (24 + k.val) = false) ∧
   (s.logicUp = false ∨ us < 5 → exec (.railFault k us binMs) s = .next s)) ∧
  (∀ (ms : Nat) (s : State),
   (s.pwr.removeDue = true → 1 ≤ ms → Runs (.powerRestart ms) s fun t =>
   t.pwr.phase = (if 3 ≤ s.pwr.faultTimes.length then .halted else if 101 ≤ ms then .refclk else .waiting) ∧ t.pwr.removeDue =
     false ∧ t.pwr.driven = false ∧
   t.dev.powerFailLow = false ∧ t.pwr.railsOn = 0 ∧ t.pwr.afterFault = true ∧ t.out = s.out ++ s.railsFall) ∧
   (s.pwr.removeDue = false → s.pwr.phase = .waiting → s.restartMs ≤ ms → exec (.powerRestart ms) s = .next
     { s with pwr := { s.pwr with phase := .refclk } }) ∧
   (s.pwr.removeDue = false → s.pwr.phase ≠ .waiting ∨ ms < s.restartMs → exec (.powerRestart ms) s = .next s) ∧
   (s.pwr.removeDue = true → ms < 1 → exec (.powerRestart ms) s = .next s)) ∧
  (∀ (ms : Nat) (s : State),
   (10 ≤ ms → s.dev.mode ≠ .safe → Runs (.binnacleWatchdog ms) s fun t => t.dev.mode = .safe ∧ t.dev.binAlive = false ∧ t.rd
     Reg.devModeCause = 0x306 ∧ t.pwr = s.pwr) ∧
   (10 ≤ ms → s.dev.mode = .safe → exec (.binnacleWatchdog ms) s = .next { s with dev := { s.dev with binAlive := false } }) ∧
   (ms < 10 → exec (.binnacleWatchdog ms) s = .next s)) ∧
  (∀ (s : State),
   exec .binnacleSignalReturn s = .next { s with dev := { s.dev with binAlive := true } }) ∧
  (∀ (which : Fin 3) (s : State),
   Runs (.refclkLoss which) s fun t => t.bit Reg.pwrStatus (20 + which.val) = false ∧ Raised (powerLeaf 6) t ∧ t.dev = s.dev) ∧
  (∀ (want : Nat) (lost : Bool) (s : State),
   (s.avcOn && lost && s.pwr.vcore == 800) = false →
   Runs (.avcUpdate want lost) s fun t =>
   t.pwr = { s.pwr with vcore := if s.avcOn then avcStep s.pwr.vcore want else s.avcFixed } ∧
   t.fld Reg.pwrStatus 15 0 = t.pwr.vcore % 65536 ∧ RegsBut [Reg.pwrStatus] s t ∧
   t.out = (if t.pwr.vcore = s.pwr.vcore then s.out else s.out ++ [.vcore t.pwr.vcore])) ∧
  (∀ (want : Nat) (s : State),
   s.avcOn = true →
   s.pwr.vcore = 800 →
   Runs (.avcUpdate want true) s fun t => t.pwr = s.pwr ∧ t.fld Reg.pwrStatus 15 0 = 800 ∧ Raised (powerLeaf 3) t) ∧
  (∀ (r : List (Option Int)) (i : Nat) (s : State),
   i < 7 →
   Runs (.temperatureSample r) s fun t =>
   t.rd (Reg.pwrTemp i) = ((r.getD i none).elim 0 fun v => BitVec.ofNat 32 (2 ^ 31 + unsign 16 v)) ∧
   (s.logicUp = false ∨ (List.range 7).any (fun k => s.tempCritical k (r.getD k none)) = false → t.dev = s.dev) ∧
   (s.logicUp = true → (List.range 7).any (fun k => s.tempCritical k (r.getD k none)) = true → s.dev.mode ≠ .safe →
   t.dev.mode = .safe ∧ t.rd Reg.devModeCause = 5 ∧ Raised (powerLeaf 5) t)) ∧
  (∀ (sensor : Fin 3) (c : Int) (s : State),
   (2000 ≤ c → s.pwr.phase ≠ .stopped → Runs (.thermalShutdown sensor c) s fun t => t.pwr.phase = .halted ∧ t.pwr.railsOn = 0 ∧
     t.dev.mode = .load ∧ t.rd Reg.devResetCause = 0) ∧
   (c < 2000 ∨ s.pwr.phase = .stopped → exec (.thermalShutdown sensor c) s = .next s))

/-- ENABLE takes a channel from OFF to STARTING once commissioning has been DONE; its removal takes any channel but LATCHED and
REVERSED to OFF with RETRIES 0; CLEAR takes LATCHED or REVERSED to OFF with its trips cleared, before ENABLE acts (R390, R392).
The current is the sense voltage, at most 60 mV either way, over PWR_CAGE_RSNS (R390). A trip by current, or an overload in ON
for OVL_MS, counts and goes to RETRY_WAIT with RETRIES one more, to LATCHED when RETRIES was 3, to REVERSED when the current is
negative; a current below the limit changes nothing but the reading. CAGE_START_COMPLETE takes STARTING to ON after 2 ms,
CAGE_RETRY_END RETRY_WAIT to STARTING after 100 ms, CAGE_RETRIES_CLEAR clears RETRIES in ON after 10 s, CAGE_REVERSED takes a
gated channel to REVERSED after 1 ms, CAGE_OPEN and CAGE_OPEN_CLEAR set and clear OPEN (R391). No other channel changes, and a
change of state raises the channel's event (R393). That the division rounds toward zero is the model's choice (log entry 101).
Choices of the model in it: log entry 30. -/
def Obligations.CageChannelsFollowTheirStates : Prop :=
  (∀ (ch : Fin 72) (val : Word) (s : State),
   bit val 31 = true →
   ((s.cage ch.val).st = .off → s.dev.commOnce = true → Runs (.cageEnable ch val) s fun t =>
   t.cage ch.val = { s.cage ch.val with st := .starting } ∧ SameBut State.cage [ch.val] s t ∧ Raised (cageLeaf ch.val) t) ∧
   ((s.cage ch.val).st = .off → s.dev.commOnce = false → Runs (.cageEnable ch val) s (OnlyRegs [Reg.pwrCageCtrl ch.val] s)) ∧
   ((s.cage ch.val).st = .starting ∨ (s.cage ch.val).st = .on ∨ (s.cage ch.val).st = .retryWait → Runs (.cageEnable ch val) s
     (OnlyRegs [Reg.pwrCageCtrl ch.val] s)) ∧
   ((s.cage ch.val).st = .latched ∨ (s.cage ch.val).st = .reversed → bit val 30 = false → Runs (.cageEnable ch val) s (OnlyRegs
     [Reg.pwrCageCtrl ch.val] s)) ∧
   ((s.cage ch.val).st = .latched ∨ (s.cage ch.val).st = .reversed → bit val 30 = true → s.dev.commOnce = true → Runs
     (.cageEnable ch val) s fun t =>
   t.cage ch.val = { s.cage ch.val with st := .starting, retries := 0, trips := 0 } ∧ SameBut State.cage [ch.val] s t ∧ Raised
     (cageLeaf ch.val) t)) ∧
  (∀ (ch : Fin 72) (val : Word) (s : State),
   bit val 31 = false →
   bit val 30 = false →
   ((s.cage ch.val).st ≠ .latched → (s.cage ch.val).st ≠ .reversed → Runs (.cageDisable ch val) s fun t =>
   t.cage ch.val = { s.cage ch.val with st := .off, retries := 0 } ∧ SameBut State.cage [ch.val] s t) ∧
   ((s.cage ch.val).st = .latched ∨ (s.cage ch.val).st = .reversed → Runs (.cageDisable ch val) s (OnlyRegs [Reg.pwrCageCtrl
     ch.val] s))) ∧
  (∀ (ch : Fin 72) (val : Word) (s : State),
   bit val 31 = false →
   bit val 30 = true →
   (s.cage ch.val).st = .latched ∨ (s.cage ch.val).st = .reversed →
   Runs (.cageClear ch val) s fun t =>
   t.cage ch.val = { s.cage ch.val with st := .off, retries := 0, trips := 0 } ∧ SameBut State.cage [ch.val] s t ∧ Raised
     (cageLeaf ch.val) t) ∧
  (∀ (ch : Fin 72) (uv ma : Int) (s : State),
   ma = s.senseMa uv →
   (cageGate (s.cage ch.val) = true → 2 * s.cageLimit ch.val ≤ ma.natAbs → Runs (.cageTrip ch uv) s fun t =>
   t.cage ch.val = (if ma < 0 then { s.cage ch.val with st := .reversed, trips := min 255 ((s.cage ch.val).trips + 1) }
   else if 3 ≤ (s.cage ch.val).retries then { s.cage ch.val with st := .latched, trips := min 255 ((s.cage ch.val).trips + 1) }
   else { s.cage ch.val with st := .retryWait, retries := (s.cage ch.val).retries + 1, trips := min 255 ((s.cage ch.val).trips + 1) })
     ∧
   SameBut State.cage [ch.val] s t ∧ Raised (cageLeaf ch.val) t ∧ t.rd (Reg.pwrCageCurrent ch.val) = BitVec.ofNat 32 (unsign 16
     ma)) ∧
   (cageGate (s.cage ch.val) = false ∨ ma.natAbs < 2 * s.cageLimit ch.val → Runs (.cageTrip ch uv) s fun t =>
   t.rd (Reg.pwrCageCurrent ch.val) = BitVec.ofNat 32 (unsign 16 ma) ∧ OnlyRegs [Reg.pwrCageCurrent ch.val] s t)) ∧
  (∀ (uv : Int) (s : State),
   (s.fld Reg.pwrCageRsns 15 0 ≠ 0 → s.senseMa uv = Int.tdiv ((if uv < -60000 then -60000 else if 60000 < uv then 60000 else uv)
     * 1000) (s.fld Reg.pwrCageRsns 15 0 : Int))) ∧
  (∀ (ch : Fin 72) (uv ma : Int) (ms : Nat) (s : State),
   ma = s.senseMa uv →
   ((s.cage ch.val).st = .on → (s.cageLimit ch.val : Int) ≤ ma → s.cageOvlMs ≤ ms → 0 ≤ ma → Runs (.cageOverload ch uv ms) s fun
     t =>
   t.cage ch.val = (if 3 ≤ (s.cage ch.val).retries then
     { s.cage ch.val with st := .latched, trips := min 255 ((s.cage ch.val).trips + 1) }
   else { s.cage ch.val with st := .retryWait, retries := (s.cage ch.val).retries + 1, trips := min 255 ((s.cage ch.val).trips + 1) })
     ∧
   SameBut State.cage [ch.val] s t ∧ Raised (cageLeaf ch.val) t) ∧
   ((s.cage ch.val).st ≠ .on ∨ ma < s.cageLimit ch.val ∨ ms < s.cageOvlMs → Runs (.cageOverload ch uv ms) s (OnlyRegs
     [Reg.pwrCageCurrent ch.val] s))) ∧
  (∀ (ch : Fin 72) (n : Nat) (s : State),
   ((s.cage ch.val).st = .starting → 2000 ≤ n → Runs (.cageStartComplete ch n) s fun t =>
   t.cage ch.val = { s.cage ch.val with st := .on } ∧ SameBut State.cage [ch.val] s t ∧ Raised (cageLeaf ch.val) t) ∧
   ((s.cage ch.val).st = .retryWait → 100 ≤ n → Runs (.cageRetryEnd ch n) s fun t =>
   t.cage ch.val = { s.cage ch.val with st := .starting } ∧ SameBut State.cage [ch.val] s t ∧ Raised (cageLeaf ch.val) t) ∧
   ((s.cage ch.val).st = .on → 10000 ≤ n → Runs (.cageRetriesClear ch n) s fun t =>
   t.cage ch.val = { s.cage ch.val with retries := 0 } ∧ SameBut State.cage [ch.val] s t ∧ t.regs = s.regs) ∧
   ((s.cage ch.val).st ≠ .starting ∨ n < 2000 → exec (.cageStartComplete ch n) s = .next s) ∧
   ((s.cage ch.val).st ≠ .retryWait ∨ n < 100 → exec (.cageRetryEnd ch n) s = .next s) ∧
   ((s.cage ch.val).st ≠ .on ∨ n < 10000 → exec (.cageRetriesClear ch n) s = .next s)) ∧
  (∀ (ch : Fin 72) (uv ma : Int) (n : Nat) (s : State),
   ma = s.senseMa uv →
   (cageGate (s.cage ch.val) = true → ma ≤ -(s.cageOpenMa : Int) → 1000 ≤ n → Runs (.cageReversed ch uv n) s fun t =>
   t.cage ch.val = { s.cage ch.val with st := .reversed } ∧ SameBut State.cage [ch.val] s t ∧ Raised (cageLeaf ch.val) t) ∧
   ((s.cage ch.val).st = .on → 0 ≤ ma → ma < s.cageOpenMa → 100 ≤ n → Runs (.cageOpen ch uv n) s fun t =>
   t.cage ch.val = { s.cage ch.val with isOpen := true } ∧ SameBut State.cage [ch.val] s t ∧
   ((s.cage ch.val).isOpen = false → Raised (cageLeaf ch.val) t)) ∧
   ((s.cageOpenMa : Int) ≤ ma → (s.cage ch.val).st ≠ .off → Runs (.cageOpenClear ch uv) s fun t =>
   t.cage ch.val = { s.cage ch.val with isOpen := false } ∧ SameBut State.cage [ch.val] s t) ∧
   (ma < s.cageOpenMa → Runs (.cageOpenClear ch uv) s (OnlyRegs [Reg.pwrCageCurrent ch.val] s)) ∧
   (cageGate (s.cage ch.val) = false ∨ -(s.cageOpenMa : Int) < ma ∨ n < 1000 → Runs (.cageReversed ch uv n) s (OnlyRegs
     [Reg.pwrCageCurrent ch.val] s)) ∧
   ((s.cage ch.val).st ≠ .on ∨ ma < 0 ∨ (s.cageOpenMa : Int) ≤ ma ∨ n < 100 → Runs (.cageOpen ch uv n) s (OnlyRegs
     [Reg.pwrCageCurrent ch.val] s)))

/-! ### Resets (chapter 03) -/

/-- A write of DEV_RESET without the KEY changes nothing. With it COLD (ZEROIZE_N high) leaves LOAD with the fuses, POWER_FAIL_N and
the Binnacle as they were and adds COLD to DEV_RESET_CAUSE; RESET_N low for 1 µs the same with its own cause, for less nothing;
with ZEROIZE_N low each leaves SAFE with a zeroisation running (R59, R62, R379, R398). WARM without COLD (ZEROIZE_N high) leaves
COMMISSION in its short form when the structure is valid, else LOAD, no role, no error state, no PON context and empty buffers;
with ZEROIZE_N low it changes nothing (R60). PERST_N low ends role and nonce and sets its cause, and its rise makes HELM
available (R61). A block reset bit that reads 0 is set and its block reset: rings' pointers to 0, the event buffer empty, unit
status 0, the Meridian devices heard forgotten, the sync ended; BLOCK_RESET_COMPLETE clears the bit alone (R63). Choices of the
model in it: log entries 90, 91. -/
def Obligations.ResetsLeaveWhatTheyAreToKeep : Prop :=
  (∀ (val : Word) (s : State),
   fld val 15 0 ≠ 0xA5C3 →
   exec (.devResetCold val) s = .next s ∧
   exec (.devResetWarm val) s = .next s) ∧
  (∀ (val : Word) (ns : Nat) (s : State),
   fld val 15 0 = 0xA5C3 →
   bit val 31 = true →
   s.dev.zeroizeLow = false →
   1000 ≤ ns →
   Runs (.devResetCold val) s fun t =>
   t.dev.mode = .load ∧ t.dev.structValid = false ∧ t.raw = 0 ∧ t.sec.otp = s.sec.otp ∧ t.dev.powerFailLow = s.dev.powerFailLow
     ∧
   t.pwr.phase = s.pwr.phase ∧ t.out = s.out ∧ t.rd Reg.devResetCause = s.rd Reg.devResetCause ||| 4 ∧
   (∀ a, 0x100000 ≤ a → a < 0x200000 → t.rd a = s.rd a) ∧ t.pool = {} ∧ t.act = {} ∧
   Runs (.resetNLow ns) s fun t =>
   t.dev.mode = .load ∧ t.raw = 0 ∧ t.sec.otp = s.sec.otp ∧ t.rd Reg.devResetCause = s.rd Reg.devResetCause ||| 2) ∧
  (∀ (val : Word) (ns : Nat) (s : State),
   fld val 15 0 = 0xA5C3 →
   bit val 31 = true →
   s.dev.zeroizeLow = true →
   1000 ≤ ns →
   (Runs (.devResetCold val) s fun t => t.dev.mode = .safe ∧ t.rd Reg.devModeCause = 7 ∧ t.raw = 0 ∧ t.sec.otp = s.sec.otp ∧
     t.busy .zeroisation = true ∧ t.pool = {} ∧ t.act = {}) ∧
   (Runs (.resetNLow ns) s fun t => t.dev.mode = .safe ∧ t.rd Reg.devModeCause = 7 ∧ t.raw = 0 ∧ t.sec.otp = s.sec.otp ∧ t.busy
     .zeroisation = true)) ∧
  (∀ (val : Word) (s : State),
   fld val 15 0 = 0xA5C3 →
   fld val 31 30 = 0 →
   exec (.devResetCold val) s = .next s ∧ exec (.devResetWarm val) s = .next s) ∧
  (∀ (ns : Nat) (s : State),
   ns < 1000 →
   exec (.resetNLow ns) s = .next s) ∧
  (∀ (val : Word) (s : State),
   fld val 15 0 = 0xA5C3 →
   fld val 31 30 = 1 →
   s.dev.zeroizeLow = false →
   Runs (.devResetWarm val) s fun t =>
   t.dev.mode = (if s.dev.structValid then .commission else .load) ∧ t.dev.trans = none ∧ t.bit Reg.devResetCause 3 = true ∧
   t.sec.role = 0 ∧ t.sec.error = false ∧ t.sec.nonce = none ∧ t.sec.otp = s.sec.otp ∧ t.raw = s.raw ∧
   (s.dev.structValid = true → t.dev.commPhase = 1 ∧ t.dev.commShort = true) ∧ t.xgm.keys = [] ∧ t.cmp.ingress = [] ∧ t.act.onus
     = []) ∧
  (∀ (val : Word) (s : State),
   bit val 31 = false →
   s.dev.zeroizeLow = true →
   exec (.devResetWarm val) s = .next s) ∧
  (∀ (n : Fin 64) (s : State),
   Runs .perstNLow s fun t =>
   t.dev.perstLow = true ∧ t.sec.role = 0 ∧ t.sec.nonce = none ∧ t.bit Reg.devResetCause 5 = true ∧ t.dev.mode = s.dev.mode ∧
   t.rd (Reg.devRingPuntHead n.val) = 0 ∧ t.rd (Reg.devRingInjTail n.val) = 0 ∧ t.voq = s.voq ∧ t.cmp = s.cmp ∧
   exec .perstNDeassert s = .next { s with dev := { s.dev with perstLow := false } }) ∧
  (∀ (val : Word) (n : Fin 64) (u : Fin 8) (s : State),
   (bit val 5 = true → s.bit Reg.devBlkReset 5 = false → Runs (.blkResetRings val) s fun t =>
   t.bit Reg.devBlkReset 5 = true ∧ t.rd (Reg.devRingPuntHead n.val) = 0 ∧ t.rd (Reg.devRingInjHead n.val) = 0 ∧
   t.rd (Reg.devRingPuntTail n.val) = 0 ∧ (fld val 5 1 = 16 → RegsBut (Reg.devBlkReset :: ringPointers) s t)) ∧
   (bit val 4 = true → s.bit Reg.devBlkReset 4 = false → Runs (.blkResetEvt val) s fun t =>
   t.bit Reg.devBlkReset 4 = true ∧ t.obs.buf = [] ∧ t.obs.phase = true ∧ t.rd Reg.evtRingHead = 0 ∧ t.rd Reg.evtRingCons = 0 ∧
   (fld val 5 1 = 8 → RegsBut [Reg.devBlkReset, Reg.evtRingHead, Reg.evtRingCons] s t)) ∧
   (bit val 3 = true → s.bit Reg.devBlkReset 3 = false → Runs (.blkResetChk val) s fun t =>
   t.bit Reg.devBlkReset 3 = true ∧ t.rd (Reg.chkUnitStatus u.val) = 0 ∧ t.rd (Reg.chkUnitRunningLo u.val) = 0) ∧
   (bit val 2 = true → s.bit Reg.devBlkReset 2 = false → Runs (.blkResetMer val) s fun t =>
   t.bit Reg.devBlkReset 2 = true ∧ t.mer.heard = [] ∧ t.mer.open' = [] ∧ t.mer.collect = none ∧ t.mer.strap = s.mer.strap) ∧
   (bit val 1 = true → s.bit Reg.devBlkReset 1 = false → Runs (.blkResetLht val) s fun t =>
   t.bit Reg.devBlkReset 1 = true ∧ t.lht.sync = none ∧ t.busy .bulkSync = false) ∧
   ((List.range 5).all (fun k => !bit val (k + 1) || s.bit Reg.devBlkReset (k + 1)) = true → exec (.blkResetRings val) s = .next
     s ∧ exec (.blkResetEvt val) s = .next s ∧ exec (.blkResetChk val) s = .next s ∧ exec (.blkResetMer val) s = .next s ∧ exec
     (.blkResetLht val) s = .next s)) ∧
  (∀ (blk : Fin 6) (s : State),
   Runs (.blockResetComplete blk) s fun t => t.bit Reg.devBlkReset blk.val = false ∧ OnlyRegs [Reg.devBlkReset] s t)

/-! ### Chronometry (chapter 04) -/

/-- VIEW_RATE_COMMIT keeps the view's time at the commit instant, sets RATE to the held low word and the written byte, and
RATE_EPOCH to the raw value (R73). VIEW_OFFSET_COMMIT sets OFFSET to the written top word and the held lower words;
VIEW_STEP_COMMIT moves the view's time by the signed 64-bit step modulo 2^96 (R74). Each counts TIME_VIEW_GEN modulo 65,536,
keeps the parameters before it (R80), and leaves every other view's time as it was. -/
def Obligations.ViewCommitsKeepTimeContinuous : Prop :=
  (∀ (v : Fin 16) (hi : Word) (s : State) (x : Nat),
   x < 16 →
   x ≠ v.val →
   Runs (.viewRateCommit v hi) s fun t =>
   t.viewTime v.val t.raw = s.viewTime v.val s.raw ∧
   t.viewRate v.val = BitVec.ofNat 40 ((s.holdOf (Reg.timeViewRateLo v.val)).toNat + 2 ^ 32 * fld hi 7 0) ∧
   t.viewEpoch v.val = s.raw ∧ t.fld (Reg.timeViewGen v.val) 15 0 = (s.fld (Reg.timeViewGen v.val) 15 0 + 1) % 65536 ∧
   t.viewTimeAt v.val (s.raw - 1) = (if s.raw = 0 then t.viewTime v.val (s.raw - 1) else s.viewTime v.val (s.raw - 1)) ∧
   (∀ r, t.viewTime x r = s.viewTime x r) ∧ t = { s with regs := t.regs, chrono := { s.chrono with prev := t.chrono.prev } }) ∧
  (∀ (v : Fin 16) (w : Word) (s : State) (x : Nat),
   x < 16 →
   x ≠ v.val →
   Runs (.viewOffsetCommit v w) s fun t =>
   t.viewOffset v.val = BitVec.ofNat 96 ((s.holdOf (Reg.timeViewOffsetW0 v.val)).toNat +
   2 ^ 32 * (s.holdOf (Reg.timeViewOffsetW1 v.val)).toNat + 2 ^ 64 * w.toNat) ∧
   t.fld (Reg.timeViewGen v.val) 15 0 = (s.fld (Reg.timeViewGen v.val) 15 0 + 1) % 65536 ∧
   (∀ r, t.viewTime x r = s.viewTime x r) ∧ t = { s with regs := t.regs, chrono := { s.chrono with prev := t.chrono.prev } } ∧
   Runs (.viewStepCommit v w) s fun t =>
   t.viewTime v.val t.raw = s.viewTime v.val s.raw + BitVec.ofInt 96 (signed 64 ((s.holdOf (Reg.timeViewStepLo v.val)).toNat + 2
     ^ 32 * w.toNat)) ∧
   t.fld (Reg.timeViewGen v.val) 15 0 = (s.fld (Reg.timeViewGen v.val) 15 0 + 1) % 65536 ∧
   (∀ r, t.viewTime x r = s.viewTime x r) ∧ t = { s with regs := t.regs, chrono := { s.chrono with prev := t.chrono.prev } })

/-- For each of the 8 queues: TRANSMIT_STAMP_RETURN of a queue that holds fewer than 256 entries puts the entry at its end, in the
order of arrival, and changes nothing else; of a queue that holds 256 or more it leaves every queue as it is, counts one in
TIME_TXTS_DROP of the queue and raises the queue's overflow event. -/
def Obligations.TransmitStampQueuesDiscardWhenFull : Prop :=
  (∀ (q : Fin 8) (tsId : BitVec 16) (port : Fin 75) (stamp : Stamp) (s : State),
   (s.txts q.val).length < 256 →
   Runs (.transmitStampReturn q tsId port stamp) s fun t =>
   t.txts q.val = s.txts q.val ++ [⟨tsId, port.val, stamp⟩] ∧ SameBut State.txts [q.val] s t ∧
   t = { s with chrono := { s.chrono with txts := t.chrono.txts } }) ∧
  (∀ (q : Fin 8) (tsId : BitVec 16) (port : Fin 75) (stamp : Stamp) (s : State),
   256 ≤ (s.txts q.val).length →
   Runs (.transmitStampReturn q tsId port stamp) s fun t =>
   t.chrono = s.chrono ∧ t.rd (Reg.timeTxtsDrop q.val) = satAdd (s.rd (Reg.timeTxtsDrop q.val)) 1 ∧ Raised (leafOf 11 q.val) t ∧
   Reports (Reg.timeTxtsDrop q.val :: eventRegs (leafOf 11 q.val)) s t)

/-- STAMP_CONVERSION sends the stamp of its port's view for the captured instant (R77 to R81). TIME_SNAP_GO captures raw counter and
view in one clock (R82). TXTS_READ removes the oldest entry and shows it; on an empty queue it returns 0 (R87).
SYNCE_SOURCE_LOSS with SQUELCH_EN holds the output low, sets its status and raises its event; SYNCE_RESUME 100 ms later lets it
run again (R91), where the status clears (log entry 118). A selected PPS_IN_EDGE is captured; ToD bytes enter, leave and
overflow their buffers; the armed bytes are sent once, DELAY_US after a pulse (R92). GPIO_PULSE_END ends a pulse whose width has
passed; a change of ENABLE or POLARITY ends it at once (R102). WAYPOINT_ARM arms the slot with its registers, WAYPOINT_DISARM
returns it to IDLE (R97). ACTION_TICK executes a due slot: it ends DONE or SKIPPED with its lateness, and its action is the
register write it stands for; with no slot due, or in LOAD, only time passes (R96, R98, R100), and a running sweep goes on by a
free number of slots (log entry 112). -/
def Obligations.StampsPulsesAndWaypoints : Prop :=
  (∀ (port : Fin 75) (rx : Bool) (cap : Raw) (latency : Nat) (domain : Option Byte) (s : State),
   exec (.stampConversion port rx cap latency domain) s =
   .next { s with out := s.out ++ [.stamp port.val (s.portStamp port.val rx cap latency domain)] }) ∧
  (∀ (val : Word) (s : State),
   bit val 31 = true →
   Runs (.timeSnapGo val) s fun t =>
   t.rd Reg.timeSnapNs = BitVec.ofNat 32 (nsOf (s.viewTime (fld val 3 0) s.raw)) ∧
   t.rd Reg.timeSnapSecLo = BitVec.ofNat 32 (secOf (s.viewTime (fld val 3 0) s.raw)) ∧
   t.rd Reg.timeSnapFrac = BitVec.ofNat 32 (fracOf (s.viewTime (fld val 3 0) s.raw)) ∧
   t.rdWords Reg.timeSnapRawW0 3 = s.raw.toNat ∧ t.rd Reg.timeSnapCount = s.rd Reg.timeSnapCount + 1 ∧ t =
     { s with regs := t.regs }) ∧
  (∀ (q : Fin 8) (s : State) (e : TxStamp) (es : List TxStamp),
   s.txts q.val = e :: es →
   Runs (.txtsRead q) s fun t =>
   t.txts q.val = es ∧ t.rdata = txtsW0 e ∧ t.rd (Reg.timeTxtsW1 q.val) = e.stamp.ns32 ∧
   t.rd (Reg.timeTxtsW2 q.val) = BitVec.ofNat 32 e.stamp.subns.toNat ∧ SameBut State.txts [q.val] s t ∧
   RegsBut [Reg.timeTxtsW1 q.val, Reg.timeTxtsW2 q.val] s t) ∧
  (∀ (q : Fin 8) (s : State),
   s.txts q.val = [] →
   exec (.txtsRead q) s = .next { s with rdata := 0 }) ∧
  (∀ (a : Fin 2) (s : State),
   (s.bit (Reg.timeSynceCfg a.val) 12 = true → Runs (.synceSourceLoss a) s fun t =>
   t.bit Reg.timeSynceStatus a.val = true ∧ t.synceRuns a.val = false ∧ t.chrono.synceAt.get (fun _ => 0) a.val = s.raw ∧
   .synce a.val false ∈ t.out ∧ Raised (leafOf 11 (8 + a.val)) t ∧ RegsBut (Reg.timeSynceStatus :: eventRegs (leafOf 11 (8 +
     a.val))) s t) ∧
   (s.bit (Reg.timeSynceCfg a.val) 12 = false → exec (.synceSourceLoss a) s = .next s)) ∧
  (∀ (a : Fin 2) (at' : Raw) (s u : State) (d : Raw),
   u = s.advance at' →
   d = u.chrono.synceAt.get (fun _ => 0) a.val + 6553600000000 →
   (u.bit Reg.timeSynceStatus a.val = true → d.toNat ≤ u.raw.toNat → Runs (.synceResume a at') s fun t =>
   t.bit Reg.timeSynceStatus a.val = false ∧ t.out = u.out ++ [.synce a.val (t.synceRuns a.val)] ∧ RegsBut [Reg.timeSynceStatus]
     u t ∧
   t = { u with regs := t.regs, out := t.out }) ∧
   (u.bit Reg.timeSynceStatus a.val = false ∨ u.raw.toNat < d.toNat → exec (.synceResume a at') s = .next u)) ∧
  (∀ (falling : Bool) (cap : Raw) (s : State),
   (s.bit Reg.timePpsInCfg 0 = true → s.bit Reg.timePpsInCfg 1 = falling → Runs (.ppsInEdge falling cap) s fun t =>
   t.rd Reg.timePpsInNs = BitVec.ofNat 32 (nsOf (s.viewTimeAt (s.fld Reg.timePpsInCfg 7 4) (captureRes cap))) ∧
   t.rd Reg.timePpsInSecLo = BitVec.ofNat 32 (secOf (s.viewTimeAt (s.fld Reg.timePpsInCfg 7 4) (captureRes cap))) ∧
   t.rd Reg.timePpsInCount = s.rd Reg.timePpsInCount + 1 ∧
   OnlyRegs [Reg.timePpsInSecLo, Reg.timePpsInSecHi, Reg.timePpsInNs, Reg.timePpsInCount] s t) ∧
   (s.bit Reg.timePpsInCfg 0 = false ∨ s.bit Reg.timePpsInCfg 1 ≠ falling → exec (.ppsInEdge falling cap) s = .next s)) ∧
  (∀ (b : Byte) (s : State),
   (s.chrono.todIn.length < 256 → exec (.todInByte b) s = .next
     { s with chrono := { s.chrono with todIn := s.chrono.todIn ++ [b] } }) ∧
   (256 ≤ s.chrono.todIn.length → Runs (.todInByte b) s fun t =>
   t.chrono = s.chrono ∧ t.rd Reg.timeTodInDrop = satAdd (s.rd Reg.timeTodInDrop) 1 ∧ Raised (leafOf 11 11) t) ∧
   (s.chrono.todIn = [] → exec .todInRead s = .next { s with rdata := 0 })) ∧
  (∀ (b : Byte) (bs : List Byte) (s : State),
   s.chrono.todIn = b :: bs →
   exec .todInRead s = .next { s with chrono := { s.chrono with todIn := bs }, rdata := BitVec.ofNat 32 (256 + b.toNat) }) ∧
  (∀ (val : Word) (s : State),
   (s.chrono.todOut.length < 256 → exec (.todOutDataWrite val) s =
   .next { s with chrono := { s.chrono with todOut := s.chrono.todOut ++ [BitVec.ofNat 8 val.toNat] } }) ∧
   (256 ≤ s.chrono.todOut.length → exec (.todOutDataWrite val) s = .next s) ∧
   (bit val 31 = true → Runs (.todOutSend val) s fun t =>
   t.chrono = { s.chrono with todArmed := true } ∧ t.fld Reg.timeTodOutCtrl 15 0 = fld val 15 0 ∧ RegsBut [Reg.timeTodOutCtrl] s
     t ∧ t = { s with regs := t.regs, chrono := t.chrono }) ∧
   (bit val 31 = false → Runs (.todOutSend val) s (OnlyRegs [Reg.timeTodOutCtrl] s))) ∧
  (∀ (at' : Raw) (s u : State),
   u = s.advance at' →
   (u.bit Reg.timePpsOutCfg 0 = true → u.ppsSecond u.raw ≠ u.ppsSecond (u.raw - 65536) → Runs (.ppsOutPulse at') s fun t =>
   t.out = u.out ++ [.ppsPulse (max 1 (u.fld Reg.timePpsOutCfg 15 8))] ∧ t.chrono.todArmed = false ∧
   t.chrono.todDue = (if u.chrono.todArmed then some (u.raw + BitVec.ofNat 96 (u.fld Reg.timeTodOutCtrl 15 0 * 65536000)) else
     u.chrono.todDue) ∧
   t = { u with out := t.out, chrono := t.chrono }) ∧
   (u.bit Reg.timePpsOutCfg 0 = false ∨ u.ppsSecond u.raw = u.ppsSecond (u.raw - 65536) → exec (.ppsOutPulse at') s = .next u) ∧
   ((u.chrono.todDue.any fun d => decide (d.toNat ≤ u.raw.toNat)) = true → exec (.todOutTransmit at') s =
   .next { u with out := u.out ++ [.todBytes u.chrono.todOut], chrono := { u.chrono with todOut := [], todDue := none } }) ∧
   ((u.chrono.todDue.all fun d => decide (u.raw.toNat < d.toNat)) = true → exec (.todOutTransmit at') s = .next u)) ∧
  (∀ (k : Fin 8) (at' : Raw) (s u : State) (e : Raw),
   u = s.advance at' →
   u.pulse k.val = some e →
   (e.toNat ≤ u.raw.toNat → Runs (.gpioPulseEnd k at') s fun t => t.pulse k.val = none ∧ SameBut State.pulse [k.val] u t ∧
     t.regs = u.regs) ∧
   (u.raw.toNat < e.toNat → exec (.gpioPulseEnd k at') s = .next u)) ∧
  (∀ (k : Fin 8) (at' : Raw) (s u : State),
   u = s.advance at' →
   u.pulse k.val = none →
   exec (.gpioPulseEnd k at') s = .next u) ∧
  (∀ (k : Fin 8) (val : Word) (s : State),
   (fld val 1 0 ≠ s.fld (Reg.timeGpioCfg k.val) 1 0 → Runs (.gpioCfgWrite k val) s fun t =>
   t.pulse k.val = none ∧ t.fld (Reg.timeGpioCfg k.val) 1 0 = fld val 1 0 ∧ SameBut State.pulse [k.val] s t ∧ RegsBut
     [Reg.timeGpioCfg k.val] s t) ∧
   (fld val 1 0 = s.fld (Reg.timeGpioCfg k.val) 1 0 → Runs (.gpioCfgWrite k val) s (OnlyRegs [Reg.timeGpioCfg k.val] s))) ∧
  (∀ (slot : Fin 512) (val : Word) (s : State),
   bit val 31 = true →
   Runs (.waypointArm slot val) s fun t =>
   t.wpState slot.val = 1 ∧ t.rd (Reg.timeWpLateness slot.val) = 0 ∧
   t.chrono.armed.get (fun _ => none) slot.val = some ((s.wrTyped (Reg.timeWpCtrl slot.val) val).wpLoad slot.val) ∧
   RegsBut [Reg.timeWpCtrl slot.val, Reg.timeWpStatus slot.val, Reg.timeWpLateness slot.val] s t ∧
   t = { s with regs := t.regs, chrono := { s.chrono with armed := t.chrono.armed } }) ∧
  (∀ (slot : Fin 512) (val : Word) (s : State),
   fld val 31 30 = 1 →
   ((s.chrono.armed.get (fun _ => none) slot.val).isSome = true → Runs (.waypointDisarm slot val) s fun t =>
   t.wpState slot.val = 0 ∧ t.chrono.armed.get (fun _ => none) slot.val = none) ∧
   (s.chrono.armed.get (fun _ => none) slot.val = none → Runs (.waypointDisarm slot val) s (OnlyRegs [Reg.timeWpCtrl slot.val]
     s))) ∧
  (∀ (slot : Fin 512) (val : Word) (s : State),
   fld val 31 30 = 0 →
   (Runs (.waypointArm slot val) s (OnlyRegs [Reg.timeWpCtrl slot.val] s)) ∧ Runs (.waypointDisarm slot val) s (OnlyRegs
     [Reg.timeWpCtrl slot.val] s)) ∧
  (∀ (s u : State),
   u = (s.advance s.nextTick).sweepOn →
   (u.chrono.armed.all fun e => e.2.all fun a => decide (cmpNs (u.viewTime a.view u.raw) < a.ns)) = true ∨ u.dev.mode = .load →
   exec .actionTick s = .next u) ∧
  (∀ (s u : State) (slot : Nat) (a : Armed) (late : Nat) (skip : Bool),
   u = (s.advance s.nextTick).sweepOn →
   u.dev.mode ≠ .load →
   u.chrono.armed = [(slot, some a)] →
   slot < 512 →
   a.ns ≤ cmpNs (u.viewTime a.view u.raw) →
   late = min (cmpNs (u.viewTime a.view u.raw) - a.ns) 0xFFFFFFFF →
   skip = ((decide (256 ≤ late) && a.skip) || (u.dev.mode == .safe && a.action != 6 && a.action != 7)) →
   a.notify = false →
   u.mer.wpSlots = [] →
   Runs .actionTick s fun t => t.chrono.armed.get (fun _ => none) slot = none ∧
   t.rd (Reg.timeWpStatus slot) = BitVec.ofNat 32 ((if skip then 3 else 2) * 2 ^ 30 + ofBool (decide (256 ≤ late)) * 2 ^ 29) ∧
   t.rd (Reg.timeWpLateness slot) = BitVec.ofNat 32 late ∧
   (skip = true ∨ a.action = 0 ∨ 8 ≤ a.action → RegsBut [Reg.timeWpStatus slot, Reg.timeWpLateness slot] u t ∧ t =
     { u with regs := t.regs, chrono := { u.chrono with armed := t.chrono.armed } }) ∧
   (skip = false → a.action = 6 → u.bit (Reg.timeGpioCfg (a.arg % 8)) 0 = true → a.arg / 256 % 65536 ≠ 0 →
   t.pulse (a.arg % 8) = some (u.raw + BitVec.ofNat 96 (a.arg / 256 % 65536 * 16 * 65536)) ∧ RegsBut [Reg.timeWpStatus slot,
     Reg.timeWpLateness slot] u t) ∧
   (skip = false → a.action = 7 → Raised (leafOf 11 10) t)) ∧
  (∀ (s u w : State) (slot : Nat) (a : Armed),
   u = (s.advance s.nextTick).sweepOn →
   w = (u.setArmed slot none).wpShow slot 2 false (cmpNs (u.viewTime a.view u.raw) - a.ns) →
   u.dev.mode ≠ .load →
   u.dev.mode ≠ .safe →
   u.chrono.armed = [(slot, some a)] →
   a.ns ≤ cmpNs (u.viewTime a.view u.raw) →
   cmpNs (u.viewTime a.view u.raw) - a.ns < 256 →
   a.notify = false →
   u.mer.wpSlots = [] →
   (a.action = 1 → exec .actionTick s = .next ((w.cmpRequest (a.arg % 2)).wpNote 1)) ∧
   (a.action = 2 → a.arg % 32 < 24 → exec .actionTick s = .next ((w.gateRequest (a.arg % 32)).wpNote (256 + a.arg % 32))) ∧
   (a.action = 3 → exec .actionTick s = .next ((w.almRequest (a.arg % 2)).wpNote 3)) ∧
   (a.action = 4 → exec .actionTick s = .next ((w.bankRequest Reg.dbaCommit (a.arg % 2)).wpNote 4)) ∧
   (a.action = 5 → exec .actionTick s = .next (w.keySwitch (a.arg % 64) (a.arg / 256 % 4))))

/-! ### The PON line (chapter 05) -/

/-- PON_FRAME_BOUNDARY with no port transmitting sets the superframe count from the PON view and PSync to the boundary, phase error
0; with one transmitting they are those of the frame timer (R93, R94); in a serving mode a port transmits from then on exactly
when it is wanted (R119). PON_REALIGN while a port transmits is held for the next boundary, else nothing is (R95). MAP_CUTOFF on
the one channel of a device takes the map that is complete with TEQ_NS as it stands and computes the pulse of each burst, and
counts and announces a map that is late, for which an empty one is taken; outside serving modes or while settling the map taken
is empty; of a port that neither transmits nor is about to no map is taken (R67, R107, R109, R116). SETTLING_END ends settling;
LOSS_OF_SIGNAL after LOS_FRAMES on a port with an active ONU sets loss of signal, else nothing (R120). PON_PORT_RESET starts the
line logic again, a second while one runs does not; its completion clears the bit (R121). That 32 maps of a channel are kept is
the model's choice (log entry 74). Choices of the model in it: log entries 77, 78. -/
def Obligations.FramesAndMapsLeaveAtTheirBoundaries : Prop :=
  (∀ (at' : Raw) (n : Fin 48) (s u : State),
   u = s.advance at' →
   Runs (.ponFrameBoundary at') s fun t =>
   (u.anyTx = false → t.chrono.ponErr = 0 ∧ t.chrono.ponSf = u.ponView at' / 8192000000 % 2 ^ 51 ∧ t.chrono.psyncAt = at') ∧
   (u.anyTx = true → t.chrono.ponErr = (u.frameTimer at' true).chrono.ponErr ∧ t.chrono.ponSf = (u.frameTimer at'
     true).chrono.ponSf ∧
   t.chrono.psyncAt = (u.frameTimer at' true).chrono.psyncAt) ∧ t.chrono.realign = false ∧
   (u.serving = true → t.txOn n.val = u.txWanted n.val) ∧ t.raw = u.raw) ∧
  (∀ (val : Word) (s : State),
   (bit val 31 = true → s.anyTx = true → Runs (.ponRealign val) s fun t =>
   t.chrono = { s.chrono with realign := true } ∧ RegsBut [Reg.timePonCfg] s t) ∧
   (bit val 31 = false ∨ s.anyTx = false → Runs (.ponRealign val) s (OnlyRegs [Reg.timePonCfg] s))) ∧
  (∀ (at' : Raw) (j : Fin 96) (f : Nat) (s u : State),
   u = s.advance at' →
   f = (u.chrono.ponSf + 1) % 2 ^ 51 →
   u.allChannels = [j.val] →
   (u.txOn (j.val / 2) || u.txWanted (j.val / 2)) = true →
   (u.ponPort (j.val / 2)).stopTx = false →
   u.emptyMap (j.val / 2) f = false →
   ((u.maps j.val).takeWhile fun m => decide (f < m.f)).length < 32 →
   (((u.mapOf j.val f).map PonMap.done).getD false = true → Runs (.mapCutoff at') s fun t =>
   (t.mapOf j.val f).map PonMap.taken = some true ∧ (t.mapOf j.val f).map PonMap.teq = some (u.teq (j.val / 2)) ∧
   (t.mapOf j.val f).map (fun m => m.bursts.map fun b => { b with pulse := none }) = (u.mapOf j.val f).map (fun m =>
     m.bursts.map fun b => { b with pulse := none }) ∧
   t.rd (Reg.ponMapLate (j.val / 2) (j.val % 2)) = u.rd (Reg.ponMapLate (j.val / 2) (j.val % 2))) ∧
   (((u.mapOf j.val f).map PonMap.done).getD false = true → (((u.mapOf j.val f).map PonMap.bursts).getD []).all (fun b => b.kind
     == .data) = true → Runs (.mapCutoff at') s fun t =>
   (t.mapOf j.val f).map (fun m => m.bursts.map Burst.pulse) = (t.mapOf j.val f).map (fun m => m.bursts.map fun b =>
   if u.sideCh (j.val / 2) (u.bit (Reg.ponSidebandCfg (j.val / 2)) 0) = j.val % 2 then t.brstPeriod j.val f b else none)) ∧
   (((u.mapOf j.val f).map PonMap.done).getD false = false → Runs (.mapCutoff at') s fun t =>
   t.rd (Reg.ponMapLate (j.val / 2) (j.val % 2)) = satAdd (u.rd (Reg.ponMapLate (j.val / 2) (j.val % 2))) 1 ∧
   Raised (leafOf (j.val / 32) (j.val % 32)) t ∧ (t.mapOf j.val f).map PonMap.bursts = some [] ∧ (t.mapOf j.val f).map
     PonMap.taken = some true)) ∧
  (∀ (at' : Raw) (j : Fin 96) (f : Nat) (s u : State),
   u = s.advance at' →
   f = (u.chrono.ponSf + 1) % 2 ^ 51 →
   u.allChannels = [j.val] →
   ((u.maps j.val).takeWhile fun m => decide (f < m.f)).length < 32 →
   ((u.txOn (j.val / 2) || u.txWanted (j.val / 2)) = true → (u.ponPort (j.val / 2)).stopTx = false → u.emptyMap (j.val / 2) f =
     true → Runs (.mapCutoff at') s fun t =>
   (t.mapOf j.val f).map PonMap.bursts = some [] ∧ t.rd (Reg.ponMapLate (j.val / 2) (j.val % 2)) = u.rd (Reg.ponMapLate (j.val /
     2) (j.val % 2))) ∧
   ((u.txOn (j.val / 2) || u.txWanted (j.val / 2)) = false ∨ (u.ponPort (j.val / 2)).stopTx = true → Runs (.mapCutoff at') s fun
     t =>
   t.pon.maps = u.pon.maps ∧ t.rd (Reg.ponMapLate (j.val / 2) (j.val % 2)) = u.rd (Reg.ponMapLate (j.val / 2) (j.val % 2)))) ∧
  (∀ (n : Fin 48) (s : State),
   (s.bit (Reg.ponLineStatus n.val) 28 = true → (s.ponPort n.val).settleUntil ≤ s.chrono.ponSf → Runs (.settlingEnd n) s fun t
     =>
   t.bit (Reg.ponLineStatus n.val) 28 = false ∧ t.ponPort n.val = { s.ponPort n.val with relink := false }) ∧
   (s.bit (Reg.ponLineStatus n.val) 28 = false ∨ s.chrono.ponSf < (s.ponPort n.val).settleUntil → exec (.settlingEnd n) s =
     .next s) ∧
   (max 1 (s.fld (Reg.ponLineTiming n.val) 7 0) ≤ (s.ponPort n.val).losRun → (s.nonFree n.val).any (fun id => (s.onu n.val
     id).active) = true → Runs (.lossOfSignal n) s fun t =>
   t.ponPort n.val = { s.ponPort n.val with los := true } ∧ t.bit (Reg.ponLineStatus n.val) 29 = true) ∧
   ((s.ponPort n.val).losRun < max 1 (s.fld (Reg.ponLineTiming n.val) 7 0) ∨ (s.nonFree n.val).any (fun id => (s.onu n.val
     id).active) = false → exec (.lossOfSignal n) s = .next s)) ∧
  (∀ (n : Fin 48) (val : Word) (s : State),
   bit val 1 = true →
   (s.bit (Reg.ponLineCfg n.val) 1 = false → Runs (.ponPortReset n val) s fun t =>
   t.bit (Reg.ponLineCfg n.val) 1 = true ∧ (t.ponPort n.val).relink = true ∧ (t.ponPort n.val).stopTx = true ∧
   (t.ponPort n.val).rssi = none ∧ t.bit (Reg.ponLineStatus n.val) 31 = false) ∧
   (s.bit (Reg.ponLineCfg n.val) 1 = true → Runs (.ponPortReset n val) s fun t =>
   t.bit (Reg.ponLineCfg n.val) 1 = true ∧ t.pon = s.pon) ∧
   Runs (.ponPortResetComplete n) s fun t => t.bit (Reg.ponLineCfg n.val) 1 = false ∧ t.pon = s.pon)

/-- A candidate outside the standby for a waiting burst of a granted ONU, in its window and later than the last position tried
(R112): farther from the delimiter than TOL it is only tried; with a bad header PON_DELIM_FALSE counts it; with a good header of
the granted ONU the burst is confirmed, stamped and counted; of another ONU it is foreign and counted (R112, R113); one outside
the window changes nothing. DISCOVERY_CANDIDATE is tried the same way, and with a good header found and counted (R114).
BURST_WINDOW_END makes a waiting burst missed, and counts it unless it is discovery's; another burst stays (R113). A codeword of
a confirmed or found burst with FEC is counted as corrected or uncorrectable, and one that is uncorrectable is marked in a
confirmed burst (R115). BRST_PULSE sends the pulse that the cut-off computed for a taken burst, merged with one that it touches
(R116). RSSI_ARM clears DONE and arms; RSSI_TRIGGER of modes 1 and 2 on the next taken burst of the armed ONU sends the pulse,
and mode 1 disarms; mode 3 takes the first free interval; RSSI_PULSE_END sets DONE for the arming in force (R118). Choices of
the model in it: log entries 77, 127. -/
def Obligations.BurstsAreConfirmedMissedOrForeign : Prop :=
  (∀ (j : Fin 96) (f i latency : Nat) (rx : BitVec 64) (hec : Bool) (onu : Fin 1024) (cap : Raw) (s u : State) (b : Burst) (p :
     BurstProf) (hdr off : Int),
   s.dev.mode ≠ .standby →
   s.burstOf j.val f i = some b →
   b.st = .waiting →
   b.kind ≠ .discovery →
   p = s.prof (j.val / 2) b.prof →
   hdr = s.headerAt j.val f p cap latency →
   off = offBits p hdr (s.headerExp j.val f b) →
   s.inWindow (j.val / 2) b off hdr = true →
   laterThan b off = true →
   u = s.updBurst j.val f i (fun b => { b with tried := some off }) →
   (s.tolBits (j.val / 2) < Cand.dist ⟨rx, hec, onu.val, cap, latency⟩ p → exec (.burstCandidate j f i rx hec onu cap latency) s
     = .next u) ∧
   (Cand.dist ⟨rx, hec, onu.val, cap, latency⟩ p ≤ s.tolBits (j.val / 2) → hec = false → exec (.burstCandidate j f i rx hec onu
     cap latency) s =
   .next (u.bump (Reg.ponDelimFalse (j.val / 2) (j.val % 2)))) ∧
   (Cand.dist ⟨rx, hec, onu.val, cap, latency⟩ p ≤ s.tolBits (j.val / 2) → hec = true → onu.val = b.onu → Runs (.burstCandidate
     j f i rx hec onu cap latency) s fun t =>
   (t.burstOf j.val f i).map Burst.st = some .confirmed ∧
   (t.burstOf j.val f i).map Burst.stamp = some (s.portStamp (j.val / 2) true cap latency none) ∧
   t.rd (Reg.ponBurstOk (j.val / 2) (j.val % 2)) = satAdd (s.rd (Reg.ponBurstOk (j.val / 2) (j.val % 2))) 1 ∧
   (t.ponPort (j.val / 2)).los = false) ∧
   (Cand.dist ⟨rx, hec, onu.val, cap, latency⟩ p ≤ s.tolBits (j.val / 2) → hec = true → onu.val ≠ b.onu → Runs (.burstCandidate
     j f i rx hec onu cap latency) s fun t =>
   (t.burstOf j.val f i).map Burst.st = some .foreign ∧
   t.rd (Reg.ponBurstOnuMismatch (j.val / 2) (j.val % 2)) = satAdd (s.rd (Reg.ponBurstOnuMismatch (j.val / 2) (j.val % 2))) 1)) ∧
  (∀ (j : Fin 96) (f i latency : Nat) (rx : BitVec 64) (hec : Bool) (onu : Fin 1024) (cap : Raw) (s : State),
   s.dev.mode ≠ .standby →
   ((s.burstOf j.val f i).all fun b => b.st != .waiting || b.kind == .discovery || !s.inWindow (j.val / 2) b (offBits (s.prof
     (j.val / 2) b.prof) (s.headerAt j.val f (s.prof (j.val / 2) b.prof) cap latency) (s.headerExp j.val f b)) (s.headerAt j.val
     f (s.prof (j.val / 2) b.prof) cap latency)) = true →
   exec (.burstCandidate j f i rx hec onu cap latency) s = .next s) ∧
  (∀ (j : Fin 96) (f i latency : Nat) (rx : BitVec 64) (hec : Bool) (onu : Fin 1024) (cap : Raw) (s u : State) (b : Burst) (p :
     BurstProf) (hdr off : Int),
   s.burstOf j.val f i = some b →
   b.st = .waiting →
   b.kind = .discovery →
   p = s.prof (j.val / 2) b.prof →
   hdr = s.headerAt j.val f p cap latency →
   off = offBits p hdr (s.headerExp j.val f b) →
   s.inWindow (j.val / 2) b off hdr = true →
   laterThan b off = true →
   u = s.updBurst j.val f i (fun b => { b with tried := some off }) →
   (s.tolBits (j.val / 2) < Cand.dist ⟨rx, hec, onu.val, cap, latency⟩ p → exec (.discoveryCandidate j f i rx hec onu cap
     latency none) s = .next u) ∧
   (Cand.dist ⟨rx, hec, onu.val, cap, latency⟩ p ≤ s.tolBits (j.val / 2) → hec = false → exec (.discoveryCandidate j f i rx hec
     onu cap latency none) s =
   .next (u.bump (Reg.ponDelimFalse (j.val / 2) (j.val % 2)))) ∧
   (Cand.dist ⟨rx, hec, onu.val, cap, latency⟩ p ≤ s.tolBits (j.val / 2) → hec = true → Runs (.discoveryCandidate j f i rx hec
     onu cap latency none) s fun t =>
   t.rd (Reg.ponDiscBursts (j.val / 2) (j.val % 2)) = satAdd (s.rd (Reg.ponDiscBursts (j.val / 2) (j.val % 2))) 1 ∧
   (t.burstOf j.val f i).map Burst.st = some .waiting ∧ (t.burstOf j.val f i).map Burst.found = some true ∧ (t.ponPort (j.val /
     2)).los = false)) ∧
  (∀ (j : Fin 96) (f i : Nat) (s : State) (b : Burst),
   s.burstOf j.val f i = some b →
   b.st = .waiting →
   Runs (.burstWindowEnd j f i) s fun t =>
   (t.burstOf j.val f i).map Burst.st = some .missed ∧
   t.rd (Reg.ponBurstMiss (j.val / 2) (j.val % 2)) =
   (if b.kind = .discovery then s.rd (Reg.ponBurstMiss (j.val / 2) (j.val % 2)) else satAdd (s.rd (Reg.ponBurstMiss (j.val / 2)
     (j.val % 2))) 1)) ∧
  (∀ (j : Fin 96) (f i : Nat) (s : State),
   ((s.burstOf j.val f i).all fun b => b.st != .waiting) = true →
   exec (.burstWindowEnd j f i) s = .next s) ∧
  (∀ (j : Fin 96) (f i cw : Nat) (corrected bad : Bool) (s : State) (b : Burst),
   s.burstOf j.val f i = some b →
   (b.st = .confirmed ∨ b.found = true → (s.prof (j.val / 2) b.prof).fec = true → bad = false → exec (.upstreamFecCodeword j f i
     cw corrected bad) s =
   .next (if corrected then s.bump (Reg.ponFecCwCorr (j.val / 2) (j.val % 2)) else s)) ∧
   (b.st = .confirmed ∨ b.found = true → (s.prof (j.val / 2) b.prof).fec = true → bad = true → Runs (.upstreamFecCodeword j f i
     cw corrected bad) s fun t =>
   t.rd (Reg.ponFecCwUncorr (j.val / 2) (j.val % 2)) = satAdd (s.rd (Reg.ponFecCwUncorr (j.val / 2) (j.val % 2))) 1 ∧
   (b.found = false → (t.burstOf j.val f i).map Burst.bad = some (cw :: b.bad)) ∧ RegsBut [Reg.ponFecCwUncorr (j.val / 2) (j.val
     % 2)] s t) ∧
   ((b.st ≠ .confirmed ∧ b.found = false) ∨ (s.prof (j.val / 2) b.prof).fec = false → exec (.upstreamFecCodeword j f i cw
     corrected bad) s = .next s)) ∧
  (∀ (j : Fin 96) (f i : Nat) (s : State) (b : Burst) (x : Int × Int),
   s.takenBurst j.val f i = some b →
   b.pulse = some x →
   Runs (.brstPulse j f i) s fun t =>
   (t.ponPort (j.val / 2)).brst = some (mergeLow (s.ponPort (j.val / 2)).brst x) ∧
   (t.burstOf j.val f i).map Burst.pulse = some none ∧
   t.out = s.out ++ [.brst (j.val / 2) (mergeLow (s.ponPort (j.val / 2)).brst x).1 (mergeLow (s.ponPort (j.val / 2)).brst x).2]
     ∧
   t.regs = s.regs) ∧
  (∀ (j : Fin 96) (f i : Nat) (s : State),
   ((s.takenBurst j.val f i).all fun b => b.pulse.isNone) = true →
   exec (.brstPulse j f i) s = .next s) ∧
  (∀ (n : Fin 48) (val : Word) (s : State),
   (bit val 31 = true → Runs (.rssiArm n val) s fun t =>
   t.bit (Reg.ponRssiCtrl n.val) 30 = false ∧ (t.ponPort n.val).rssi = some ⟨fld val 29 28, fld val 25 16, fld val 15 8, max 1
     (fld val 7 0), s.lineNow⟩ ∧
   SameBut State.ponPort [n.val] s t ∧ RegsBut [Reg.ponRssiCtrl n.val] s t) ∧
   (bit val 31 = false → Runs (.rssiArm n val) s (OnlyRegs [Reg.ponRssiCtrl n.val] s))) ∧
  (∀ (n : Fin 48) (f i j : Nat) (s : State) (r : RssiArm) (b : Burst),
   (s.ponPort n.val).rssi = some r →
   r.mode = 1 ∨ r.mode = 2 →
   j = 2 * n.val + s.sideCh n.val (s.bit (Reg.ponSidebandCfg n.val) 1) →
   s.takenBurst j f i = some b →
   (s.rssiBurst j f r b = true → s.rssiNext j r (s.headerLine j f b) = true → Runs (.rssiTrigger n f i) s fun t =>
   (t.ponPort n.val).rssiPulse = some true ∧
   (t.ponPort n.val).rssi = (if r.mode = 2 then some { r with from' := s.headerLine j f b + 1 } else none) ∧ t.regs = s.regs ∧
   t.out = s.out ++ [.rssi n.val (((f * 125000 + r.delay : Nat) : Int) + grid (s.headerExp j f b).1 (s.headerExp j f b).2)
     r.width] ∧ SameBut State.ponPort [n.val] s t) ∧
   (s.rssiBurst j f r b = false ∨ s.rssiNext j r (s.headerLine j f b) = false → exec (.rssiTrigger n f i) s = .next s)) ∧
  (∀ (n : Fin 48) (f i j : Nat) (s : State) (r : RssiArm) (g : Nat × Nat),
   (s.ponPort n.val).rssi = some r →
   r.mode = 3 →
   j = 2 * n.val + s.sideCh n.val (s.bit (Reg.ponSidebandCfg n.val) 1) →
   s.rssiGap j f r = some g →
   (List.range (min rssiBack f)).all (fun k => (s.rssiGap j (f - 1 - k) r).isNone) = true →
   Runs (.rssiTrigger n f i) s fun t =>
   t.ponPort n.val = { s.ponPort n.val with rssi := none, rssiPulse := some true } ∧ t.regs = s.regs ∧
   t.out = s.out ++ [.rssi n.val ((s.originOf j f + g.1 + r.delay : Nat) : Int) r.width] ∧ SameBut State.ponPort [n.val] s t) ∧
  (∀ (n : Fin 48) (f i : Nat) (s : State),
   ((s.ponPort n.val).rssi = none ∨ ((s.ponPort n.val).rssi.map RssiArm.mode) = some 0 → exec (.rssiTrigger n f i) s = .next s)
     ∧
   ((s.ponPort n.val).rssiPulse = some false → exec (.rssiPulseEnd n) s = .next (s.setPonPort n.val
     { s.ponPort n.val with rssiPulse := none })) ∧
   ((s.ponPort n.val).rssiPulse = none → exec (.rssiPulseEnd n) s = .next s) ∧
   ((s.ponPort n.val).rssiPulse = some true → Runs (.rssiPulseEnd n) s fun t =>
   t.bit (Reg.ponRssiCtrl n.val) 30 = true ∧ t.ponPort n.val = { s.ponPort n.val with rssiPulse := none } ∧ RegsBut
     [Reg.ponRssiCtrl n.val] s t))

/-! ### Lighthouse (chapter 15) -/

/-- A HEARTBEAT_PERIOD, once in a period of 1 ms (R310), clears MISS_COUNT when a heartbeat came on either path, and counts one more
to 255 when none did (R312); on the standby one that came ends isolation, and a yield of the active makes it take over (R321);
outside a role, and before the period ends, only time passes. HEARTBEAT_RECEIVE of a heartbeat that fails its check, or is not
valid, counts LHT_HB_BAD; of a valid one counts it on its path and keeps SESSION, HB_SEQ and mode (R311). LH_PEER_LINK_LOSS and
RETURN clear and set LINK; a return sends what is held (R309, R316). SNAPSHOT_COMMIT on a staging standby counts SNAP_GEN, sets
SNAP_VALID, clears STALE and ends the sync DONE; SNAPSHOT_SLOT_FULL ends it in FAIL with REASON 9 (R315). INCREMENT_APPLY
applies the next increment, makes a later one STALE with the gap counted, ignores a past one (R316, R318). MAP_COPY_RECEIVE
keeps a timely copy and counts a late one (R319). WITNESS_WINDOW_END at the end of its window goes on, isolates, or takes over
with cause 1, and HEALTH_EVALUATION once a second judges the standby (R322, R327); else they let time pass. Choices of the model
in it: log entry 81. -/
def Obligations.ThePairHearsCopiesAndJudges : Prop :=
  (∀ (at' : Raw) (journal : Nat) (s u : State),
   u = s.advance at' →
   u.lht.period < u.raw.toNat / 65536000000 →
   (u.lhActive = true → Runs (.heartbeatPeriod at' journal) s fun t =>
   t.missCount = (if (u.lhPath 0).got || (u.lhPath 1).got then 0 else min 255 (u.missCount + 1)) ∧
   (t.lhPath 0).got = false ∧ (t.lhPath 1).got = false ∧ ((u.lhPath 0).got = true → t.lhStatus "PATH_LH" = true)) ∧
   (u.lhStandby = true → u.bit Reg.lhtCtrl 1 = true → u.lht.yielded = false → ((u.lhPath 0).got || (u.lhPath 1).got) = true →
     Runs (.heartbeatPeriod at' journal) s fun t =>
   t.missCount = 0 ∧ t.dev.mode = .standby ∧ t.lhStatus "ISOLATED" = false ∧ t.lhStatus "WITNESS_ALIVE" = false ∧ t.lht.witAt =
     none) ∧
   (u.lhStandby = true → u.bit Reg.lhtCtrl 1 = false → Runs (.heartbeatPeriod at' journal) s fun t =>
   t.missCount = (if (u.lhPath 0).got || (u.lhPath 1).got then 0 else min 255 (u.missCount + 1)) ∧ t.dev.mode = .standby) ∧
   (u.lhStandby = true → u.bit Reg.lhtCtrl 1 = true → u.lht.yielded = true → Runs (.heartbeatPeriod at' journal) s fun t =>
   t.dev.mode = .active ∧ t.fld Reg.lhtStatus 19 16 = 2 ∧ t.lht.yielded = false) ∧
   (u.lhActive = false → u.lhStandby = false → exec (.heartbeatPeriod at' journal) s = .next
     { u with lht := { u.lht with period := u.raw.toNat / 65536000000 } })) ∧
  (∀ (at' : Raw) (journal : Nat) (s u : State),
   u = s.advance at' →
   u.raw.toNat / 65536000000 ≤ u.lht.period →
   exec (.heartbeatPeriod at' journal) s = .next u) ∧
  (∀ (rhb : Bool) (src : Fin 1024) (bytes : List Byte) (s : State),
   s.lhActive = false →
   s.lhStandby = false →
   exec (.heartbeatReceive rhb src bytes) s = .next s) ∧
  (∀ (rhb : Bool) (src : Fin 1024) (bytes : List Byte) (s : State),
   s.lhActive = true ∨ s.lhStandby = true →
   ((hbOf bytes).all fun h => !s.hbValid rhb src.val h) = true →
   exec (.heartbeatReceive rhb src bytes) s = .next (s.bump Reg.lhtHbBad)) ∧
  (∀ (rhb : Bool) (src : Fin 1024) (bytes : List Byte) (s : State) (h : Hb),
   s.lhActive = true ∨ s.lhStandby = true →
   hbOf bytes = some h →
   s.hbValid rhb src.val h = true →
   Runs (.heartbeatReceive rhb src bytes) s fun t =>
   (t.lhPath (ofBool rhb)).got = true ∧ (t.lhPath (ofBool rhb)).ref = some (h.session, h.seq) ∧ t.lht.peerMode = some h.mode ∧
   t.lht.peerSession = some h.session ∧ t.lht.peerGen = h.gen ∧
   t.rd (if rhb then Reg.lhtHbRxRhb else Reg.lhtHbRxLh) = satAdd (s.rd (if rhb then Reg.lhtHbRxRhb else Reg.lhtHbRxLh)) 1) ∧
  (∀ (s : State),
   Runs .lhPeerLinkLoss s fun t => t.bit Reg.lhtStatus 31 = false ∧ OnlyRegs [Reg.lhtStatus] s t ∧
   Runs .lhPeerLinkReturn s fun t => t.bit Reg.lhtStatus 31 = true ∧ (s.lhActive = true → t.lht.held = [] ∧ t.out.length =
     s.out.length + s.lht.held.length) ∧
   RegsBut [Reg.lhtStatus] s t) ∧
  (∀ (kib row journal : Nat) (recs : List CopyRec) (kcv : Option Word) (s : State),
   (s.busy .bulkSync = false → exec (.syncStreamComplete kib row journal recs kcv) s = .next s) ∧
   (s.busy .bulkSync = true → s.serving = false → Runs (.syncStreamComplete kib row journal recs kcv) s fun t =>
   t.progress .bulkSync = kib % 2 ^ 24 ∧ t.rd (Reg.lhtSyncOpPartial 0) = BitVec.ofNat 32 row ∧
   t.rd (Reg.lhtSyncOpPartial 1) = BitVec.ofNat 32 journal ∧ t.lht.peerKcv = kcv ∧
   t.lht.slots.get (fun _ => []) (1 - s.lht.slot) = recs ∧ t.out = s.out ∧
   RegsBut [opStat .bulkSync, Reg.lhtSyncOpPartial 0, Reg.lhtSyncOpPartial 1, Reg.chkInj] s t) ∧
   (s.busy .bulkSync = true → s.serving = true → s.pathUp 0 = true → Runs (.syncStreamComplete kib row journal recs kcv) s fun t
     =>
   t.progress .bulkSync = kib % 2 ^ 24 ∧ t.rd (Reg.lhtSyncOpPartial 0) = BitVec.ofNat 32 row ∧
   t.rd (Reg.lhtSyncOpPartial 1) = BitVec.ofNat 32 journal ∧ t.lht.peerKcv = kcv ∧ t.out.length = s.out.length + 1 ∧
   RegsBut [opStat .bulkSync, Reg.lhtSyncOpPartial 0, Reg.lhtSyncOpPartial 1] s t)) ∧
  (∀ (recs : List CopyRec) (seq : Nat) (s : State) (r : SyncRun),
   s.lht.sync = some r →
   r.staging = true →
   s.lhStandby = true →
   Runs (.snapshotCommit recs seq) s fun t =>
   t.rd Reg.lhtSnapGen = s.rd Reg.lhtSnapGen + 1 ∧ t.lhStatus "SNAP_VALID" = true ∧ t.lhStatus "STALE" = false ∧
   t.lhStatus "PARTIAL_STALE" = false ∧ t.lht.slot = 1 - s.lht.slot ∧ t.lht.sync = none ∧
   t.lht.incSeq = (incsFrom r.since r.since.length seq).2 ∧ (r.since = [] → t.rd Reg.lhtIncSeq = BitVec.ofNat 32 seq) ∧
   t.lht.slots.get (fun _ => []) (1 - s.lht.slot) = s.lht.slots.get (fun _ => []) (1 - s.lht.slot) ++ recs ++ (incsFrom r.since
     r.since.length seq).1 ∧
   t.fld (opStat .bulkSync) 31 24 = 0x40) ∧
  (∀ (recs : List CopyRec) (seq : Nat) (s : State),
   s.lhStandby = false ∨ ((s.lht.sync.map fun r => !r.staging).getD true) = true →
   exec (.snapshotCommit recs seq) s = .next s) ∧
  (∀ (s : State),
   (s.busy .bulkSync = true → Runs .snapshotSlotFull s fun t => t.fld (opStat .bulkSync) 31 24 = 0x19 ∧ t.lht.sync = none) ∧
   (s.busy .bulkSync = false → exec .snapshotSlotFull s = .next s)) ∧
  (∀ (seq : Nat) (recs : List CopyRec) (s : State),
   (s.lhStandby = true → s.lhStatus "SNAP_VALID" = true → s.lhStatus "STALE" = false → seq = s.lht.incSeq + 1 → Runs
     (.incrementApply seq recs) s fun t =>
   t.lht.incSeq = seq ∧ t.rd Reg.lhtIncSeq = BitVec.ofNat 32 seq) ∧
   (s.lhStandby = true → s.lhStatus "SNAP_VALID" = true → s.lhStatus "STALE" = false → s.lht.incSeq + 1 < seq → Runs
     (.incrementApply seq recs) s fun t =>
   t.lhStatus "STALE" = true ∧ t.rd Reg.lhtIncGap = satAdd (s.rd Reg.lhtIncGap) (seq - s.lht.incSeq - 1) ∧ Raised (leafOf 17 7)
     t ∧
   t.lht.incSeq = s.lht.incSeq) ∧
   (s.lhStandby = false ∨ s.lhStatus "SNAP_VALID" = false ∨ s.lhStatus "STALE" = true ∨ seq ≤ s.lht.incSeq → exec
     (.incrementApply seq recs) s = .next (s.incKeep seq recs)) ∧
   (s.lht.sync = none → s.incKeep seq recs = s)) ∧
  (∀ (j : Fin 96) (f : Nat) (bs : List Burst) (s : State),
   (s.lhStandby = false → exec (.mapCopyReceive j f bs) s = .next s) ∧
   (s.lhStandby = true → f ≤ s.chrono.ponSf → exec (.mapCopyReceive j f bs) s = .next (s.bump Reg.lhtMapLate)) ∧
   (s.lhStandby = true → s.chrono.ponSf < f → Runs (.mapCopyReceive j f bs) s fun t =>
   (t.guides j.val).head? = some
     { f := f, bursts := bs.map (fun b => { b with st := .waiting, tried := none }), done := true, taken := true, teq := s.teq (j.val / 2) }
     ∧
   SameBut State.guides [j.val] s t ∧ t.regs = s.regs)) ∧
  (∀ (at' : Raw) (s u : State),
   u = s.advance at' →
   u.lht.second < u.raw.toNat / 65536000000000 →
   (u.lhStandby = false → exec (.healthEvaluation at') s = .next
     { u with lht := { u.lht with second := u.raw.toNat / 65536000000000 } }) ∧
   (u.lhStandby = true → Runs (.healthEvaluation at') s fun t =>
   t.bit Reg.lhtHealthLocal 30 = (u.lhStatus "SNAP_VALID" && !u.lhStatus "STALE") ∧ t.bit Reg.lhtHealthLocal 28 = !u.lht.memErr
     ∧
   t.bit Reg.lhtHealthLocal 27 = (u.pwr.phase == .up && !u.pwr.removeDue) ∧
   t.bit Reg.lhtHealthLocal 26 = (u.lht.granted.all fun e => !e.2 || u.lht.heardPorts.get (fun _ => false) e.1) ∧
   t.bit Reg.lhtHealthLocal 31 = (t.bit Reg.lhtHealthLocal 30 && t.bit Reg.lhtHealthLocal 28 && t.bit Reg.lhtHealthLocal 27 &&
     t.bit Reg.lhtHealthLocal 26) ∧
   t.lht.granted = [] ∧ t.lht.memErr = false ∧
   (t.bit Reg.lhtHealthLocal 31 ≠ u.bit Reg.lhtHealthLocal 31 → Raised (leafOf 17 5) t))) ∧
  (∀ (at' : Raw) (s u : State),
   u = s.advance at' →
   (u.lht.witAt = none ∨ u.lhStandby = false ∨ u.bit Reg.lhtCtrl 1 = false → exec (.witnessWindowEnd at') s = .next u) ∧
   (u.raw.toNat / 65536000000000 ≤ u.lht.second → exec (.healthEvaluation at') s = .next u)) ∧
  (∀ (at' : Raw) (a : Nat) (s u : State) (due : Bool),
   u = s.advance at' →
   u.lht.witAt = some a →
   u.lhStandby = true →
   u.bit Reg.lhtCtrl 1 = true →
   due = decide ((u.chrono.psyncAt.toNat : Int) + ((a + u.witnessFrames : Nat) - (u.chrono.ponSf : Int)) * 8192000000 +
     (u.teqMax * 65536 : Nat) ≤ u.raw.toNat) →
   (due = true → u.witnessed a = true → u.bit Reg.lhtHealthLocal 31 = true → Runs (.witnessWindowEnd at') s fun t =>
   t.lhStatus "WITNESS_ALIVE" = true ∧ t.lht.witAt = some (a + u.witnessFrames) ∧ OnlyRegs [Reg.lhtStatus]
     { u with lht := t.lht } t ∧
   t.dev.mode = .standby) ∧
   (due = true → u.witnessed a = false → u.bit Reg.lhtStatus 0 = true → u.bit Reg.lhtHealthLocal 31 = true → Runs
     (.witnessWindowEnd at') s fun t =>
   t.dev.mode = .active ∧ t.fld Reg.lhtStatus 19 16 = 1 ∧ t.rd Reg.lhtTakeovers = satAdd (u.rd Reg.lhtTakeovers) 1 ∧ t.lht.witAt
     = none) ∧
   (due = true → (u.witnessed a = false ∧ u.bit Reg.lhtStatus 0 = false) ∨ u.bit Reg.lhtHealthLocal 31 = false → Runs
     (.witnessWindowEnd at') s fun t =>
   t.lhStatus "WITNESS_ALIVE" = false ∧ t.lhStatus "ISOLATED" = true ∧ t.lht.witAt = none ∧ Raised (leafOf 17 4) t ∧ t.dev.mode
     = .standby) ∧
   (due = false → exec (.witnessWindowEnd at') s = .next u))

/-! ### ONU activation (chapter 06) -/

/-- UPSTREAM_PLOAM of a burst that is not confirmed, or that holds no allocation with PLOAMu whose message is outstanding, changes
nothing; with a wrong MIC ACT_PLOAM_MIC_ERR counts it; a Registration, or a message of another type, with a right MIC enters the
host queue, or with 4,096 records in it is counted and discarded (R125, R127, R156). PLOAM_TX_SEND queues a host message of its
channel, the 17th is counted and discarded (R126). PLOAM_RX_READ removes the oldest record and shows it. ENERGY_OBSERVATION in a
quiet interval counts and keeps the frame, and sets ROGUE_ANON at its limit (R138); ROGUE_ANON_CLEAR after 64 frames without one
clears it. ONU_LOSS makes an OPERATIONAL context with enough quiet frames LOST and raises the event; ONU_DEACTIVATION after
DEACT_MS in LOST frees it (R140). SNTAB_WRITE and SNTAB_READ store and load an entry (R132). Choices of the model in it: log
entries 71, 73. -/
def Obligations.PloamQueuesAndSupervision : Prop :=
  (∀ (j : Fin 96) (f i : Nat) (m : UpPloam) (s u : State) (b : Burst) (gs : List Grant) (k : Option (BitVec 128)) (w : State),
   s.burstOf j.val f i = some b →
   b.st = .confirmed →
   b.kind ≠ .discovery →
   hearPloam b.grants = some gs →
   u = s.updBurst j.val f i (fun b => { b with grants := gs }) →
   k = (u.micKey (j.val / 2) b.onu).1 →
   w = (u.micKey (j.val / 2) b.onu).2 →
   (m.mic ≠ Config.ploamMicUp k m.data → exec (.upstreamPloam j f i m) s = .next (w.bump Reg.actPloamMicErr)) ∧
   (m.mic = Config.ploamMicUp k m.data → m.kind = .registration ∨ m.kind = .other → w.act.rx.length < 4096 → Runs
     (.upstreamPloam j f i m) s fun t =>
   t.act.rx = w.act.rx ++ [⟨BitVec.ofNat 32 (2 ^ 31 + j.val / 2 * 2 ^ 23 + j.val % 2 * 2 ^ 22 + b.onu * 2 ^ 12), m.data⟩] ∧
     t.regs = w.regs ∧
   ((w.onu (j.val / 2) b.onu).st ≠ .free → (t.onu (j.val / 2) b.onu).ask = false)) ∧
   (m.mic = Config.ploamMicUp k m.data → m.kind = .registration ∨ m.kind = .other → 4096 ≤ w.act.rx.length → Runs
     (.upstreamPloam j f i m) s fun t =>
   t.act.rx = w.act.rx ∧ t.rd Reg.actPloamRxDrop = satAdd (w.rd Reg.actPloamRxDrop) 1 ∧ Raised (leafOf 12 0) t)) ∧
  (∀ (j : Fin 96) (f i : Nat) (m : UpPloam) (s : State),
   ((s.burstOf j.val f i).all fun b => b.st != .confirmed || b.kind == .discovery || (hearPloam b.grants).isNone) = true →
   exec (.upstreamPloam j f i m) s = .next s) ∧
  (∀ (val : Word) (s : State),
   bit val 31 = true →
   fld val 28 23 < 48 →
   ((s.actCh (2 * fld val 28 23 + fld val 22 22)).host.length < 16 → Runs (.ploamTxSend val) s fun t =>
   (t.actCh (2 * fld val 28 23 + fld val 22 22)).host = (s.actCh (2 * fld val 28 23 + fld val 22 22)).host ++
   [{ kind := .host, onu := fld val 21 12, data := (List.range 10).map fun i => s.rd (Reg.actPloamTxData i) }] ∧
   SameBut State.actCh [2 * fld val 28 23 + fld val 22 22] s t ∧ t.regs = s.regs) ∧
   (16 ≤ (s.actCh (2 * fld val 28 23 + fld val 22 22)).host.length → exec (.ploamTxSend val) s = .next (s.bump
     Reg.actPloamTxDrop))) ∧
  (∀ (val : Word) (s : State),
   bit val 31 = false ∨ 48 ≤ fld val 28 23 →
   exec (.ploamTxSend val) s = .next s) ∧
  (∀ (s : State) (r : RxRec) (rs : List RxRec),
   s.act.rx = r :: rs →
   Runs .ploamRxRead s fun t =>
   t.act = { s.act with rx := rs } ∧ t.rdata = r.hdr ∧ t.rd (Reg.actPloamRxData 0) = r.data.getD 0 0 ∧ t.rd (Reg.actPloamRxData
     9) = r.data.getD 9 0 ∧
   RegsBut ((List.range 10).map Reg.actPloamRxData) s t) ∧
  (∀ (s : State),
   s.act.rx = [] →
   exec .ploamRxRead s = .next { s with rdata := 0 }) ∧
  (∀ (j : Fin 96) (f lo hi : Nat) (s : State),
   s.overruns j.val f lo hi (max 1 (s.fld Reg.actSupvCfg2 15 8)) = [] →
   ((freeGaps 125000 (s.busyNs j.val f)).any fun g => decide (64 ≤ g.2 - g.1) && decide (max 1 (s.fld Reg.actSupvCfg2 15 8) ≤
     shared lo hi g.1 g.2)) = true →
   Runs (.energyObservation j f lo hi) s fun t =>
   t.rd (Reg.actPortEnergy (j.val / 2)) = satAdd (s.rd (Reg.actPortEnergy (j.val / 2))) 1 ∧ f ∈ (t.actCh j.val).energy ∧
   (t.actCh j.val).anon = ((s.actCh j.val).anon || decide (max 1 (s.fld Reg.actSupvCfg 11 6) ≤ (t.actCh j.val).energy.length)) ∧
   SameBut State.actCh [j.val] s t ∧ t.act.onus = s.act.onus) ∧
  (∀ (j : Fin 96) (f : Nat) (s : State),
   (((s.actCh j.val).energy.all fun k => decide (k + 64 ≤ f)) = true → Runs (.rogueAnonClear j f) s fun t =>
   t.actCh j.val = { s.actCh j.val with anon := false } ∧ SameBut State.actCh [j.val] s t ∧ t.regs = s.regs) ∧
   (((s.actCh j.val).energy.all fun k => decide (k + 64 ≤ f)) = false → exec (.rogueAnonClear j f) s = .next s)) ∧
  (∀ (n : Fin 48) (id : Fin 1024) (s : State),
   ((s.onu n.val id.val).st = .operational → max 1 (s.fld Reg.actSupvCfg 31 24) ≤ (s.onu n.val id.val).quiet → s.engineOn = true
     →
   Runs (.onuLoss n id) s fun t => t.onu n.val id.val = { s.onu n.val id.val with st := .lost, lostAt := s.raw } ∧ Raised
     (leafOf 12 3) t ∧
   SameBut (fun u k => u.act.onus.get (fun _ => {}) k) [n.val * 1024 + id.val] s t) ∧
   ((s.onu n.val id.val).st ≠ .operational ∨ s.engineOn = false ∨ (s.onu n.val id.val).quiet < max 1 (s.fld Reg.actSupvCfg 31
     24) → exec (.onuLoss n id) s = .next s)) ∧
  (∀ (n : Fin 48) (id : Fin 1024) (at' : Raw) (s u : State),
   u = s.advance at' →
   ((u.onu n.val id.val).st = .lost → u.engineOn = true →
   u.reached ((u.onu n.val id.val).lostAt + BitVec.ofNat 96 (u.fld Reg.actSupvCfg2 31 16 * 65536000000)) = true →
   Runs (.onuDeactivation n id at') s fun t => t.onu n.val id.val = {} ∧ t.act.rx.length = min (u.act.rx.length + 1) (max 4096
     u.act.rx.length)) ∧
   ((u.onu n.val id.val).st ≠ .lost ∨ u.engineOn = false ∨ u.reached ((u.onu n.val id.val).lostAt + BitVec.ofNat 96 (u.fld
     Reg.actSupvCfg2 31 16 * 65536000000)) = false → exec (.onuDeactivation n id at') s = .next u)) ∧
  (∀ (val : Word) (s : State),
   (fld val 31 30 = 2 → Runs (.sntabWrite val) s fun t =>
   t.act.sn.get (fun _ => {}) (s.fld Reg.actSntabIdx 14 0) =
     { vendor := s.rd Reg.actSntabVendor, serial := s.rd Reg.actSntabSerial, bind := s.rd Reg.actSntabBind } ∧
   SameBut (fun u k => u.act.sn.get (fun _ => {}) k) [s.fld Reg.actSntabIdx 14 0] s t ∧ t.regs = s.regs) ∧
   (fld val 31 30 = 1 → Runs (.sntabRead val) s fun t =>
   t.rd Reg.actSntabVendor = (s.act.sn.get (fun _ => {}) (s.fld Reg.actSntabIdx 14 0)).vendor ∧
   t.rd Reg.actSntabSerial = (s.act.sn.get (fun _ => {}) (s.fld Reg.actSntabIdx 14 0)).serial ∧
   t.rd Reg.actSntabBind = (s.act.sn.get (fun _ => {}) (s.fld Reg.actSntabIdx 14 0)).bind ∧
   OnlyRegs [Reg.actSntabVendor, Reg.actSntabSerial, Reg.actSntabBind] s t))

/-- The sequencer takes the held command of its operation: when the context's state accepts it (Table 06.5) the command ends with
DONE and without cause: ASSIGN_ID, while the port has room, makes the context ASSIGNED with the serial number, SET_EQD gives it
the EqD of ACT_CMD_DATA, DEACTIVATE and ENABLE make it FREE, DISABLE makes it DISABLED, RANGE clears its misses; in another
state, or while the engine does not run, it ends refused with cause 2, ASSIGN_ID without room with cause 3, and no context
changes. With no command of the operation held nothing changes (R144). Choices of the model in it: log entries 73, 124. -/
def Obligations.HostCommandsMoveOnuContexts : Prop :=
  (∀ (v data ven ser : Word) (n id : Nat) (s : State),
   s.act.cmd = some (v, data, ven, ser) →
   n = fld v 21 16 →
   id = fld v 9 0 →
   s.engineOn = true →
   (fld v 27 24 = 1 → cmdAccepts 1 (s.onu n id).st = true → 512 ≤ (s.nonFree n).length → Runs .assignId s fun t =>
   t.act = { s.act with cmd := none } ∧ t.rd Reg.actCmdStatus = 0x20000003 ∧ RegsBut [Reg.actCmdStatus] s t) ∧
   (fld v 27 24 = 1 → cmdAccepts 1 (s.onu n id).st = true → (s.nonFree n).length < 512 → Runs .assignId s fun t =>
   t.act.cmd = none ∧ t.rd Reg.actCmdStatus = 0x40000000 ∧ (t.onu n id).st = .assigned ∧ (t.onu n id).vendor = ven ∧ (t.onu n
     id).serial = ser) ∧
   (fld v 27 24 = 2 → cmdAccepts 2 (s.onu n id).st = true → Runs .setEqd s fun t =>
   t.act.cmd = none ∧ t.rd Reg.actCmdStatus = 0x40000000 ∧ (t.onu n id).eqd = fld data 23 0 ∧ (t.onu n id).stuck = false) ∧
   (fld v 27 24 = 3 → cmdAccepts 3 (s.onu n id).st = true → Runs .deactivate s fun t =>
   t.act.cmd = none ∧ t.rd Reg.actCmdStatus = 0x40000000 ∧ t.onu n id = {}) ∧
   (fld v 27 24 = 4 → cmdAccepts 4 (s.onu n id).st = true → Runs .disable s fun t =>
   t.act.cmd = none ∧ t.rd Reg.actCmdStatus = 0x40000000 ∧ (t.onu n id).st = .disabled) ∧
   (fld v 27 24 = 5 → cmdAccepts 5 (s.onu n id).st = true → Runs .enable s fun t =>
   t.act.cmd = none ∧ t.rd Reg.actCmdStatus = 0x40000000 ∧ t.onu n id = {}) ∧
   (fld v 27 24 = 6 → cmdAccepts 6 (s.onu n id).st = true → Runs .rangeCmd s fun t =>
   t.act.cmd = none ∧ t.rd Reg.actCmdStatus = 0x40000000 ∧ (t.onu n id).misses = 0)) ∧
  (∀ (v data ven ser : Word) (s : State),
   s.act.cmd = some (v, data, ven, ser) →
   s.engineOn = false ∨ cmdAccepts (fld v 27 24) (s.onu (fld v 21 16) (fld v 9 0)).st = false →
   (fld v 27 24 = 1 → Runs .assignId s fun t => t.act = { s.act with cmd := none } ∧ t.rd Reg.actCmdStatus = 0x20000002 ∧
     RegsBut [Reg.actCmdStatus] s t) ∧
   (fld v 27 24 = 2 → Runs .setEqd s fun t => t.act = { s.act with cmd := none } ∧ t.rd Reg.actCmdStatus = 0x20000002 ∧ RegsBut
     [Reg.actCmdStatus] s t) ∧
   (fld v 27 24 = 3 → Runs .deactivate s fun t => t.act = { s.act with cmd := none } ∧ t.rd Reg.actCmdStatus = 0x20000002 ∧
     RegsBut [Reg.actCmdStatus] s t) ∧
   (fld v 27 24 = 4 → Runs .disable s fun t => t.act = { s.act with cmd := none } ∧ t.rd Reg.actCmdStatus = 0x20000002 ∧ RegsBut
     [Reg.actCmdStatus] s t) ∧
   (fld v 27 24 = 5 → Runs .enable s fun t => t.act = { s.act with cmd := none } ∧ t.rd Reg.actCmdStatus = 0x20000002 ∧ RegsBut
     [Reg.actCmdStatus] s t) ∧
   (fld v 27 24 = 6 → Runs .rangeCmd s fun t => t.act = { s.act with cmd := none } ∧ t.rd Reg.actCmdStatus = 0x20000002 ∧
     RegsBut [Reg.actCmdStatus] s t)) ∧
  (∀ (s : State),
   (((s.act.cmd.map fun q => fld q.1 27 24).all fun k => k != 1) = true → exec .assignId s = .next s) ∧
   (((s.act.cmd.map fun q => fld q.1 27 24).all fun k => k != 2) = true → exec .setEqd s = .next s) ∧
   (((s.act.cmd.map fun q => fld q.1 27 24).all fun k => k != 3) = true → exec .deactivate s = .next s) ∧
   (((s.act.cmd.map fun q => fld q.1 27 24).all fun k => k != 4) = true → exec .disable s = .next s) ∧
   (((s.act.cmd.map fun q => fld q.1 27 24).all fun k => k != 5) = true → exec .enable s = .next s) ∧
   (((s.act.cmd.map fun q => fld q.1 27 24).all fun k => k != 6) = true → exec .rangeCmd s = .next s))

/-! ### Keys and bindings (chapter 08) -/

/-- BIND_WRITE and DSQ_WRITE store their words for the selected entry alone, the READs load them (R168). KEY_WRITE by the User
outside the error state puts the staged key into its target, KEY_CLEAR takes it out; by another role the command is denied and
no key changes; KEY_READ loads XGM_KEY_INFO and changes no key (R173, R174, R374, R377). KEY_EXCHANGE that no cause of R175
refuses starts one exchange of the ONU and sends Key_Control, else it ends with its cause and starts none; KEY_EXCHANGE_TIMEOUT
after 100 ms ends it with CAUSE 5; KEY_RESULT_READ removes the oldest result. KEY_INDEX_SWITCH of an ONU with a valid slot takes
its index for cut-offs of a later clock, after a waypoint's of the same clock it changes nothing; with no valid slot cause 6,
with an index of no slot cause 5; ONU 1023 names every ONU and both broadcast sets of the port (R177). LAST_SPOOF_READ returns
the capture and clears VALID. Choices of the model in it: log entry 76. -/
def Obligations.KeysNeedTheUserRole : Prop :=
  (∀ (val : Word) (s : State),
   fld val 21 16 < 48 →
   (bit val 31 = true → Runs (.bindWrite val) s fun t =>
   t.binding (fld val 21 16) (fld val 12 0) = { cfg0 := s.rd Reg.xgmBindCfg0, cfg1 := s.rd Reg.xgmBindCfg1 } ∧
   SameBut (fun u k => u.xgm.binds.get (fun _ => {}) k) [fld val 21 16 * 8192 + fld val 12 0] s t ∧ RegsBut [Reg.xgmBindSel,
     Reg.xgmBindCfg0, Reg.xgmBindCfg1] s t ∧
   t.rd Reg.xgmBindCfg0 = s.rd Reg.xgmBindCfg0 ∧ t.rd Reg.xgmBindCfg1 = s.rd Reg.xgmBindCfg1 ∧ t =
     { s with regs := t.regs, xgm := { s.xgm with binds := t.xgm.binds } }) ∧
   (fld val 31 30 = 1 → Runs (.bindRead val) s fun t =>
   t.rd Reg.xgmBindCfg0 = (s.binding (fld val 21 16) (fld val 12 0)).cfg0 ∧ t.rd Reg.xgmBindCfg1 = (s.binding (fld val 21 16)
     (fld val 12 0)).cfg1 ∧
   OnlyRegs [Reg.xgmBindSel, Reg.xgmBindCfg0, Reg.xgmBindCfg1] s t)) ∧
  (∀ (val : Word) (s : State),
   (fld val 31 30 = 0 ∨ 48 ≤ fld val 21 16 → (Runs (.bindWrite val) s (OnlyRegs [Reg.xgmBindSel] s)) ∧ Runs (.bindRead val) s
     (OnlyRegs [Reg.xgmBindSel] s)) ∧
   (fld val 31 29 = 0 ∨ 48 ≤ fld val 21 16 → (Runs (.keyWrite val) s (OnlyRegs [Reg.xgmKeySel] s)) ∧ (Runs (.keyRead val) s
     (OnlyRegs [Reg.xgmKeySel] s)) ∧ Runs (.keyClear val) s (OnlyRegs [Reg.xgmKeySel] s)) ∧
   (fld val 31 30 = 0 → (Runs (.dsqWrite val) s (OnlyRegs [Reg.xgmDsqSel] s)) ∧ Runs (.dsqRead val) s (OnlyRegs [Reg.xgmDsqSel]
     s))) ∧
  (∀ (val : Word) (s : State),
   (bit val 31 = true → Runs (.dsqWrite val) s fun t =>
   t.xgm.dsq.get (fun _ => 0) (fld val 18 0) = s.rd Reg.xgmDsqCfg ∧ SameBut (fun u k => u.xgm.dsq.get (fun _ => 0) k) [fld val
     18 0] s t ∧
   RegsBut [Reg.xgmDsqSel] s t ∧ t = { s with regs := t.regs, xgm := { s.xgm with dsq := t.xgm.dsq } }) ∧
   (fld val 31 30 = 1 → Runs (.dsqRead val) s fun t =>
   t.rd Reg.xgmDsqCfg = s.xgm.dsq.get (fun _ => 0) (fld val 18 0) ∧ OnlyRegs [Reg.xgmDsqSel, Reg.xgmDsqCfg] s t)) ∧
  (∀ (val : Word) (s : State),
   fld val 21 16 < 48 →
   (fld val 31 30 = 2 → s.isUser = true → s.sec.error = false → exec (.keyWrite val) s =
   .next ((s.wrTyped Reg.xgmKeySel val).putKey (fld val 27 26) (fld val 25 24) (fld val 21 16) (fld val 12 12) (fld val 9 0)
     (some s.keyStaged))) ∧
   (bit val 31 = true → s.isUser = true → s.sec.error = false → fld val 27 24 = 1 → Runs (.keyWrite val) s fun t =>
   t.keySet (fld val 21 16) (fld val 9 0) = { s.keySet (fld val 21 16) (fld val 9 0) with s1 := some s.keyStaged }) ∧
   (bit val 31 = true → s.isUser = true → s.sec.error = false → fld val 27 24 = 6 → Runs (.keyWrite val) s fun t =>
   t.bkeySet (2 * fld val 21 16 + fld val 12 12) = { s.bkeySet (2 * fld val 21 16 + fld val 12 12) with s2 := some s.keyStaged }
     ∧ t.xgm.keys = s.xgm.keys) ∧
   (bit val 31 = true → s.isUser = true → s.sec.error = true → Runs (.keyWrite val) s fun t => t.xgm = s.xgm ∧ RegsBut
     [Reg.xgmKeySel, Reg.xgmKeyInfo] s t) ∧
   (fld val 31 29 = 1 → s.isUser = true → exec (.keyClear val) s =
   .next ((s.wrTyped Reg.xgmKeySel val).putKey (fld val 27 26) (fld val 25 24) (fld val 21 16) (fld val 12 12) (fld val 9 0)
     none)) ∧
   (fld val 31 29 = 1 → s.isUser = true → fld val 27 26 = 2 → Runs (.keyClear val) s fun t =>
   t.keySet (fld val 21 16) (fld val 9 0) = { s.keySet (fld val 21 16) (fld val 9 0) with kek := none } ∧ RegsBut
     [Reg.xgmKeySel] s t) ∧
   (fld val 31 29 = 1 → s.isUser = true → fld val 27 26 = 3 → Runs (.keyClear val) s fun t =>
   t.keySet (fld val 21 16) (fld val 9 0) = { s.keySet (fld val 21 16) (fld val 9 0) with ik := none } ∧ RegsBut [Reg.xgmKeySel]
     s t) ∧
   (bit val 31 = true ∨ bit val 29 = true → s.isUser = false → bit val 30 = false → exec (.keyWrite val) s = .next ((s.wrTyped
     Reg.xgmKeySel val).denied) ∧ exec (.keyClear val) s = .next ((s.wrTyped Reg.xgmKeySel val).denied)) ∧
   (bit val 31 = true ∨ bit val 29 = true → s.isUser = false → Runs (.keyWrite val) s fun t => t.xgm = s.xgm) ∧
   (fld val 31 29 = 2 → Runs (.keyRead val) s fun t =>
   t.rd Reg.xgmKeyInfo = s.keyInfo (fld val 27 26) (fld val 21 16) (fld val 12 12) (fld val 9 0) ∧ OnlyRegs [Reg.xgmKeySel,
     Reg.xgmKeyInfo] s t) ∧
   (bit val 30 = true → Runs (.keyRead val) s fun t => t.rd Reg.xgmKeyInfo = t.keyInfo (fld val 27 26) (fld val 21 16) (fld val
     12 12) (fld val 9 0))) ∧
  (∀ (val : Word) (s : State),
   bit val 31 = true →
   fld val 27 24 = 1 →
   (s.isUser = true → s.exchCause (fld val 21 16) (fld val 9 0) (fld val 11 10) = 0 → Runs (.keyExchange val) s fun t =>
   t.exchOf (fld val 21 16) (fld val 9 0) = some
     { n := fld val 21 16, onu := fld val 9 0, index := fld val 11 10, at' := s.raw } ∧
   t.rd Reg.xgmKeyCmdStatus = 0x40000000 ∧ (t.onu (fld val 21 16) (fld val 9 0)).ask = true ∧ t.sec.nonApproved = true ∧
     t.xgm.keys = s.xgm.keys) ∧
   (s.isUser = true → s.exchCause (fld val 21 16) (fld val 9 0) (fld val 11 10) ≠ 0 → Runs (.keyExchange val) s fun t =>
   t.rd Reg.xgmKeyCmdStatus = BitVec.ofNat 32 (2 ^ 29 + s.exchCause (fld val 21 16) (fld val 9 0) (fld val 11 10)) ∧
   OnlyRegs [Reg.xgmKeyCmd, Reg.xgmKeyCmdStatus] s t) ∧
   (s.isUser = false → exec (.keyExchange val) s = .next ((s.wrTyped Reg.xgmKeyCmd val).denied))) ∧
  (∀ (val : Word) (s : State),
   bit val 31 = false ∨ (fld val 27 24 ≠ 1 ∧ fld val 27 24 ≠ 2) →
   (Runs (.keyExchange val) s (OnlyRegs [Reg.xgmKeyCmd] s)) ∧ Runs (.keyIndexSwitch val) s (OnlyRegs [Reg.xgmKeyCmd] s)) ∧
  (∀ (n : Fin 48) (id : Fin 1024) (at' : Raw) (s u : State) (e : Exchange),
   u = s.advance at' →
   u.exchOf n.val id.val = some e →
   (u.reached (e.at' + BitVec.ofNat 96 6553600000000) = true → Runs (.keyExchangeTimeout n id at') s fun t =>
   t.exchOf n.val id.val = none ∧ t.xgm.results.length = u.xgm.results.length + 1 ∧ Raised (leafOf 12 4) t ∧ t.xgm.keys =
     u.xgm.keys) ∧
   (u.reached (e.at' + BitVec.ofNat 96 6553600000000) = false → exec (.keyExchangeTimeout n id at') s = .next u)) ∧
  (∀ (n : Fin 48) (id : Fin 1024) (at' : Raw) (s u : State),
   u = s.advance at' →
   u.exchOf n.val id.val = none →
   exec (.keyExchangeTimeout n id at') s = .next u) ∧
  (∀ (s : State) (r : Word) (rs : List Word),
   (s.xgm.results = r :: rs → exec .keyResultRead s = .next { s with xgm := { s.xgm with results := rs }, rdata := r }) ∧
   (s.xgm.results = [] → exec .keyResultRead s = .next { s with rdata := 0 })) ∧
  (∀ (val : Word) (s : State),
   bit val 31 = true →
   fld val 27 24 = 2 →
   (fld val 11 10 = 0 ∨ fld val 11 10 = 3 → Runs (.keyIndexSwitch val) s fun t => t.rd Reg.xgmKeyCmdStatus = 0x20000005 ∧
     OnlyRegs [Reg.xgmKeyCmd, Reg.xgmKeyCmdStatus] s t) ∧
   (fld val 11 10 = 1 ∨ fld val 11 10 = 2 → 48 ≤ fld val 21 16 → Runs (.keyIndexSwitch val) s fun t => t.rd Reg.xgmKeyCmdStatus
     = 0x20000006 ∧ OnlyRegs [Reg.xgmKeyCmd, Reg.xgmKeyCmdStatus] s t) ∧
   (fld val 11 10 = 1 ∨ fld val 11 10 = 2 → fld val 21 16 < 48 → fld val 9 0 ≠ 1023 → (s.live ((s.keySet (fld val 21 16) (fld
     val 9 0)).slot (fld val 11 10))).isSome = true → Runs (.keyIndexSwitch val) s fun t =>
   t.keySet (fld val 21 16) (fld val 9 0) = (s.keySet (fld val 21 16) (fld val 9 0)).switch (fld val 11 10) false s.raw ∧
   ((s.keySet (fld val 21 16) (fld val 9 0)).swAt ≠ some s.raw → (t.keySet (fld val 21 16) (fld val 9 0)).ds = fld val 11 10) ∧
   (t.keySet (fld val 21 16) (fld val 9 0)).cutIndex s.raw = (s.keySet (fld val 21 16) (fld val 9 0)).cutIndex s.raw ∧
   t.rd Reg.xgmKeyCmdStatus = 0x40000000 ∧ RegsBut [Reg.xgmKeyCmd, Reg.xgmKeyCmdStatus] s t) ∧
   (fld val 11 10 = 1 ∨ fld val 11 10 = 2 → fld val 21 16 < 48 → fld val 9 0 ≠ 1023 → (s.live ((s.keySet (fld val 21 16) (fld
     val 9 0)).slot (fld val 11 10))).isSome = false → Runs (.keyIndexSwitch val) s fun t =>
   t.rd Reg.xgmKeyCmdStatus = 0x20000006 ∧ OnlyRegs [Reg.xgmKeyCmd, Reg.xgmKeyCmdStatus] s t) ∧
   (fld val 11 10 = 1 ∨ fld val 11 10 = 2 → fld val 21 16 < 48 → fld val 9 0 = 1023 → Runs (.keyIndexSwitch val) s fun t => t.rd
     Reg.xgmKeyCmdStatus = 0x40000000 ∧
   t.bkeySet (2 * fld val 21 16) = (if (s.live ((s.bkeySet (2 * fld val 21 16)).slot (fld val 11 10))).isSome then (s.bkeySet (2
     * fld val 21 16)).switch (fld val 11 10) false s.raw else s.bkeySet (2 * fld val 21 16)))) ∧
  (∀ (s : State),
   Runs .lastSpoofRead s fun t =>
   t.rdata = s.rd Reg.xgmLastSpoof ∧ t.rd Reg.xgmLastSpoofId = BitVec.ofNat 32 s.xgm.spoofId ∧ t.bit Reg.xgmLastSpoof 31 = false
     ∧
   RegsBut [Reg.xgmLastSpoof, Reg.xgmLastSpoofId] s t ∧ t = { s with regs := t.regs, rdata := t.rdata })

/-! ### Sextant (chapter 10) -/

/-- The register command next in its source runs when that source has the turn and no root under rebuild holds it (R204, R208), and
is answered: SXT_CMD gets PENDING clear, DONE, its RESULT and moves, a window or repair command leaves its queue (R228).
EM_INSERT writes the entry of a key that stands, fills the first free candidate slot of one that does not, or places it by
moves, or fails with RESULT 2 and its event; past the dynamic limit it ends with RESULT 2 (log 103) (R214). EM_DELETE frees the
slot, EM_READ answers the entry, both RESULT 1 without the key. LPM_ADD sets, LPM_DEL removes, LPM_READ answers the prefix of
the data and no other changes; RESULT 3 where trie memory lacks (R206, R207); in a Compact length table the entry changes in its
slot and the counts of its filter bits follow (R209, R211). WRITE writes one direct entry whole, READ answers it, an index
beyond the table gives RESULT 6 (R222). A table of another kind gives RESULT 5. A descriptor is one operation: with the DMA good
it is written back and HEAD moves on, otherwise DMA_ERR stops the ring; DUMP writes the records of one bucket after another to
host memory, then its descriptor back; SXT_DMA_TAIL_WRITE posts descriptors (R229). What is not taken changes nothing. Choices
of the model in it: log entries 56, 57, 105. -/
def Obligations.SequencerOperatesOnTheTables : Prop :=
  (∀ (own : Bool) (c : RegCmd) (key i : Nat) (e : EmEntry) (s : State),
   key = imgNum c.data 2 5 →
   Takes own c s →
   s.sxtSub c.table = some 0 →
   s.emFind c.table key = some (i, e) →
   (c.op = 1 → bit (imgWord c.data 7) 30 = true ∨ e.static = false ∨ s.dynCount < 1048576 → Runs .emInsert s fun t =>
   Answered own 0 0 s t ∧ SameBut State.emAt [i] s t ∧ RegsBut cmdRegs s t ∧
   t.emAt i = some
     { e with result := BitVec.ofNat 64 (imgNum c.data 0 2), static := bit (imgWord c.data 7) 30, frozen := false, age := 0, moves := 0 })
     ∧
   (c.op = 2 → Runs .emDelete s fun t =>
   Answered own 0 0 s t ∧ t.emAt i = none ∧ SameBut State.emAt [i] s t ∧ RegsBut cmdRegs s t) ∧
   (c.op = 3 → Runs .emRead s fun t =>
   Answered own 0 0 s t ∧ (own = true → t.cmdData = emWords e) ∧ SameTables s t ∧ RegsBut cmdRegs s t)) ∧
  (∀ (own : Bool) (c : RegCmd) (key i n : Nat) (e : EmEntry) (s : State),
   key = imgNum c.data 2 5 →
   Takes own c s →
   s.sxtSub c.table = some 0 →
   s.emFind c.table key = none →
   e = { table := c.table, key := key, result := BitVec.ofNat 64 (imgNum c.data 0 2), static := bit (imgWord c.data 7) 30 } →
   (c.op = 1 → e.static = true ∨ s.dynCount < 1048576 →
   (s.cands false (s.dual false) c.table key).find? (fun j => (s.emAt j).isNone) = some i → Runs .emInsert s fun t =>
   Answered own 0 0 s t ∧ t.emAt i = some { e with fresh := s.dual false } ∧ SameBut State.emAt [i] s t ∧ RegsBut cmdRegs s t) ∧
   (c.op = 1 → e.static = true ∨ s.dynCount < 1048576 → (s.emPlace e).1 = some n → Runs .emInsert s fun t =>
   Answered own 0 n s t ∧ t.rd Reg.sxtRelocs = satAdd (s.rd Reg.sxtRelocs) n ∧
   ∃ j ∈ s.cands false (s.dual false) c.table key, t.emAt j = some { e with fresh := s.dual false }) ∧
   (c.op = 1 → e.static = true ∨ s.dynCount < 1048576 → (s.emPlace e).1 = none → Runs .emInsert s fun t =>
   Answered own 2 0 s t ∧ t.bit Reg.sxtEmStatus 31 = true ∧ Raised (leafOf 14 0) t ∧ SameTables s t) ∧
   (c.op = 1 → e.static = false → 1048576 ≤ s.dynCount → Runs .emInsert s fun t =>
   Answered own 2 0 s t ∧ SameTables s t ∧ t.rd Reg.sxtInsertFails = satAdd (s.rd Reg.sxtInsertFails) 1) ∧
   (c.op = 2 → Runs .emDelete s fun t => Answered own 1 0 s t ∧ SameTables s t ∧ RegsBut cmdRegs s t) ∧
   (c.op = 3 → Runs .emRead s fun t => Answered own 1 0 s t ∧ SameTables s t ∧ RegsBut cmdRegs s t)) ∧
  (∀ (noSpace own : Bool) (c : RegCmd) (fam k : Nat) (r : BitVec 22) (s : State),
   k = dataPrefix c.data →
   r = BitVec.ofNat 22 (imgWord c.data 5).toNat →
   fam = fld (imgWord c.data 4) 31 31 →
   Takes own c s →
   s.sxtSub c.table = some (1 + fam) →
   s.lpmHashed k = false →
   (c.op = 4 → s.dev.body.carve.full = false ∨ noSpace = false → (s.lpmAt k).isSome = true ∨ (s.setLpm k (some r)).lpmFits fam =
     true →
   Runs (.lpmAdd noSpace) s fun t =>
   Answered own 0 0 s t ∧ t.lpmAt k = some r ∧ SameBut State.lpmAt [k] s t ∧ RegsBut cmdRegs s t) ∧
   (c.op = 4 → s.dev.body.carve.full = true → noSpace = true ∨ (s.lpmAt k = none ∧ (s.setLpm k (some r)).lpmFits fam = false) →
   Runs (.lpmAdd noSpace) s fun t => Answered own 3 0 s t ∧ SameTables s t ∧ RegsBut cmdRegs s t) ∧
   (c.op = 4 → s.dev.body.carve.full = false → s.lpmAt k = none → (s.setLpm k (some r)).lpmFits fam = false →
   Runs (.lpmAdd noSpace) s fun t => Answered own 2 0 s t ∧ SameTables s t ∧ t.bit Reg.sxtLpmStatus 31 = true ∧ Raised (leafOf
     14 0) t) ∧
   (c.op = 5 → (s.lpmAt k).isSome = true → s.dev.body.carve.full = false ∨ noSpace = false → Runs (.lpmDel noSpace) s fun t =>
   Answered own 0 0 s t ∧ t.lpmAt k = none ∧ SameBut State.lpmAt [k] s t ∧ RegsBut cmdRegs s t) ∧
   (c.op = 5 → (s.lpmAt k).isSome = true → s.dev.body.carve.full = true → noSpace = true → Runs (.lpmDel noSpace) s fun t =>
   Answered own 3 0 s t ∧ SameTables s t ∧ RegsBut cmdRegs s t)) ∧
  (∀ (noSpace own : Bool) (c : RegCmd) (fam k tb h i : Nat) (e : EmEntry) (r : BitVec 22) (s : State),
   k = dataPrefix c.data →
   r = BitVec.ofNat 22 (imgWord c.data 5).toNat →
   fam = fld (imgWord c.data 4) 31 31 →
   tb = lpmTab k →
   h = lpmHash k →
   Takes own c s →
   s.sxtSub c.table = some (1 + fam) →
   s.lpmHashed k = true →
   s.hashFind true tb h = some (i, e) →
   (c.op = 4 → Runs (.lpmAdd noSpace) s fun t =>
   Answered own 0 0 s t ∧ t.slotAt true i = some { e with result := r.setWidth 64 } ∧ SameBut (fun u => u.slotAt true) [i] s t ∧
   t.sxt.filters = s.sxt.filters ∧ RegsBut cmdRegs s t) ∧
   (c.op = 5 → Runs (.lpmDel noSpace) s fun t =>
   Answered own 0 0 s t ∧ t.slotAt true i = none ∧ SameBut (fun u => u.slotAt true) [i] s t ∧ RegsBut cmdRegs s t ∧
   (∀ b, s.filterCount b < 15 → t.filterCount b = s.filterCount b - (s.filterKeys tb h).count b))) ∧
  (∀ (noSpace own : Bool) (c : RegCmd) (fam k tb h i : Nat) (r : BitVec 22) (s : State),
   k = dataPrefix c.data →
   r = BitVec.ofNat 22 (imgWord c.data 5).toNat →
   fam = fld (imgWord c.data 4) 31 31 →
   tb = lpmTab k →
   h = lpmHash k →
   Takes own c s →
   s.sxtSub c.table = some (1 + fam) →
   s.lpmHashed k = true →
   s.hashFind true tb h = none →
   c.op = 4 →
   ((s.cands true (s.dual true) tb h).find? (fun j => (s.slotAt true j).isNone) = some i →
   (s.lpmPut k r).2.lpmFits fam = true → Runs (.lpmAdd noSpace) s fun t =>
   Answered own 0 0 s t ∧ t.slotAt true i = some { table := tb, key := h, result := r.setWidth 64, fresh := s.dual true } ∧
   SameBut (fun u => u.slotAt true) [i] s t ∧ RegsBut cmdRegs s t ∧
   (∀ b, s.filterCount b ≤ 15 → t.filterCount b = min 15 (s.filterCount b + (s.filterKeys tb h).count b))) ∧
   ((s.lpmPut k r).1 = none ∨ (s.lpmPut k r).2.lpmFits fam = false → Runs (.lpmAdd noSpace) s fun t =>
   Answered own 2 0 s t ∧ SameTables s t ∧ t.bit Reg.sxtLpmStatus 31 = true ∧ Raised (leafOf 14 0) t)) ∧
  (∀ (noSpace own : Bool) (c : RegCmd) (fam k : Nat) (s : State),
   k = dataPrefix c.data →
   fam = fld (imgWord c.data 4) 31 31 →
   Takes own c s →
   s.sxtSub c.table = some (1 + fam) →
   (c.op = 5 → s.lpmAt k = none → Runs (.lpmDel noSpace) s fun t => Answered own 1 0 s t ∧ SameTables s t ∧ RegsBut cmdRegs s t)
     ∧
   (c.op = 6 → (s.lpmAt k).isSome = true → Runs .lpmRead s fun t =>
   Answered own 0 0 s t ∧ (own = true → t.cmdData = lpmWords k ((s.lpmAt k).getD 0)) ∧ SameTables s t ∧ RegsBut cmdRegs s t) ∧
   (c.op = 6 → s.lpmAt k = none → Runs .lpmRead s fun t => Answered own 1 0 s t ∧ SameTables s t ∧ RegsBut cmdRegs s t)) ∧
  (∀ (own : Bool) (c : RegCmd) (x : TableShape) (s : State),
   Takes own c s →
   s.sxtTable c.table = some x →
   3 ≤ x.sub →
   (c.op = 7 → c.index < x.size → Runs .writeCmd s fun t =>
   Answered own 0 0 s t ∧ t.directAt c.table c.index = BitVec.ofNat 64 (imgNum c.data 0 (subWords x.sub)) ∧ RegsBut cmdRegs s t
     ∧
   SameBut (fun u k => u.sxt.direct.get (fun _ => 0) k) [c.table * 2 ^ 20 + c.index] s t) ∧
   (c.op = 7 → x.size ≤ c.index → Runs .writeCmd s fun t => Answered own 6 0 s t ∧ SameTables s t ∧ RegsBut cmdRegs s t) ∧
   (c.op = 8 → c.index < x.size → Runs .readCmd s fun t =>
   Answered own 0 0 s t ∧ (own = true → t.cmdData = toWords 8 (s.directAt c.table c.index).toNat) ∧ SameTables s t ∧ RegsBut
     cmdRegs s t) ∧
   (c.op = 8 → x.size ≤ c.index → Runs .readCmd s fun t => Answered own 6 0 s t ∧ SameTables s t ∧ RegsBut cmdRegs s t)) ∧
  (∀ (noSpace own : Bool) (c : RegCmd) (s : State),
   Takes own c s →
   (c.op = 1 → s.sxtSub c.table ≠ some 0 → Runs .emInsert s fun t => Answered own 5 0 s t ∧ SameTables s t ∧ RegsBut cmdRegs s
     t) ∧
   (c.op = 2 → s.sxtSub c.table ≠ some 0 → Runs .emDelete s fun t => Answered own 5 0 s t ∧ SameTables s t ∧ RegsBut cmdRegs s
     t) ∧
   (c.op = 3 → s.sxtSub c.table ≠ some 0 → Runs .emRead s fun t => Answered own 5 0 s t ∧ SameTables s t ∧ RegsBut cmdRegs s t)
     ∧
   (c.op = 4 → s.sxtSub c.table ≠ some (1 + fld (imgWord c.data 4) 31 31) → Runs (.lpmAdd noSpace) s fun t =>
   Answered own 5 0 s t ∧ SameTables s t ∧ RegsBut cmdRegs s t) ∧
   (c.op = 5 → s.sxtSub c.table ≠ some (1 + fld (imgWord c.data 4) 31 31) → Runs (.lpmDel noSpace) s fun t =>
   Answered own 5 0 s t ∧ SameTables s t ∧ RegsBut cmdRegs s t) ∧
   (c.op = 6 → s.sxtSub c.table ≠ some (1 + fld (imgWord c.data 4) 31 31) → Runs .lpmRead s fun t =>
   Answered own 5 0 s t ∧ SameTables s t ∧ RegsBut cmdRegs s t) ∧
   (c.op = 7 → s.sxtSub c.table = none ∨ s.sxtSub c.table = some 0 ∨ s.sxtSub c.table = some 1 ∨ s.sxtSub c.table = some 2 →
   Runs .writeCmd s fun t => Answered own 5 0 s t ∧ SameTables s t ∧ RegsBut cmdRegs s t) ∧
   (c.op = 8 → s.sxtSub c.table = none ∨ s.sxtSub c.table = some 0 ∨ s.sxtSub c.table = some 1 ∨ s.sxtSub c.table = some 2 →
   Runs .readCmd s fun t => Answered own 5 0 s t ∧ SameTables s t ∧ RegsBut cmdRegs s t)) ∧
  (∀ (noSpace : Bool) (s : State),
   (NotTaken 1 s → exec .emInsert s = .next s) ∧ (NotTaken 2 s → exec .emDelete s = .next s) ∧ (NotTaken 3 s → exec .emRead s =
     .next s) ∧
   (NotTaken 4 s → exec (.lpmAdd noSpace) s = .next s) ∧ (NotTaken 5 s → exec (.lpmDel noSpace) s = .next s) ∧
   (NotTaken 6 s → exec .lpmRead s = .next s) ∧ (NotTaken 7 s → exec .writeCmd s = .next s) ∧ (NotTaken 8 s → exec .readCmd s =
     .next s)) ∧
  (∀ (op tb : Fin 256) (i n h : Nat) (d : List Word) (noSpace : Bool) (s : State),
   n = (s.rd Reg.sxtDmaSize).toNat →
   h = (s.rd Reg.sxtDmaHead).toNat →
   s.dmaReady = true →
   s.sxt.dump = none →
   s.seqTakes 1 = true →
   s.cmdWaits op.val d = false →
   (Runs (.bulkDmaDescriptor op tb i d noSpace true) s fun t =>
   (t.rd Reg.sxtDmaHead).toNat = (h + 1) % 2 ^ n ∧ { t.sxt with turn := s.sxt.turn } = (s.sxtOp op.val tb.val i d
     noSpace).2.2.2.sxt ∧
   (op.val = 3 → t.out = s.out ++ [.hostWrite (BitVec.ofNat 64 (s.rdWords Reg.sxtDmaBaseLo 2 + 64 * h))
   (([BitVec.ofNat 32 (3 + tb.val * 256 + (s.sxtOp 3 tb.val i d noSpace).1 * 65536), BitVec.ofNat 32 i, 0, 0] ++
   ((s.sxtOp 3 tb.val i d noSpace).2.2.1 ++ List.replicate 8 0).take 8 ++ [0, 0, 0, 0]).flatMap fun (w : Word) => leBytes 4
     w.toNat)])) ∧
   (Runs (.bulkDmaDescriptor op tb i d noSpace false) s fun t =>
   t.bit Reg.sxtDmaStatus 31 = true ∧ t.rd Reg.sxtDmaHead = s.rd Reg.sxtDmaHead ∧ t.dmaReady = false ∧
   { t.sxt with turn := s.sxt.turn } = (s.sxtOp op.val tb.val i d noSpace).2.2.2.sxt)) ∧
  (∀ (op tb : Fin 256) (i : Nat) (d : List Word) (noSpace ok : Bool) (s : State),
   s.dmaReady = false ∨ s.sxt.dump.isSome = true ∨ s.cmdWaits op.val d = true ∨ s.seqTakes 1 = false →
   exec (.bulkDmaDescriptor op tb i d noSpace ok) s = .next s) ∧
  (∀ (tb : Fin 256) (d : List Word) (ok : Bool) (x : DumpRun) (s : State),
   s.dmaReady = true →
   s.sxt.dump = none →
   s.seqTakes 1 = true →
   (s.sxtSub tb.val).any (fun k => decide (k ≤ 2)) = true →
   x = { table := tb.val, left := (imgWord d 2).toNat, addr := imgNum d 0 2 } →
   exec (.dump tb d ok) s = exec (.dump tb d ok) { s with sxt := { s.sxt with dump := some x } }) ∧
  (∀ (tb : Fin 256) (d : List Word) (x : DumpRun) (g : Nat) (recs : List (List Word)) (s : State),
   s.dmaReady = true →
   s.sxt.dump = some x →
   x.left ≠ 0 →
   nextRows (s.tableRows x.table) x.next = some (g, recs) →
   (Runs (.dump tb d true) s fun t =>
   t.out = s.out ++ [.hostWrite (BitVec.ofNat 64 x.addr) ((recs.take x.left).flatten.flatMap fun (w : Word) => leBytes 4
     w.toNat)] ∧
   t.regs = s.regs ∧
   t.sxt =
     { s.sxt with dump := some { x with next := g + 1, left := x.left - min x.left recs.length, count := x.count + min x.left recs.length, addr := x.addr + 32 * min x.left recs.length } })
     ∧
   (Runs (.dump tb d false) s fun t =>
   t.bit Reg.sxtDmaStatus 31 = true ∧ t.sxt = { s.sxt with dump := none } ∧ RegsBut [Reg.sxtDmaStatus] s t ∧ t.out = s.out)) ∧
  (∀ (tb : Fin 256) (d : List Word) (x : DumpRun) (h : Nat) (s : State),
   h = (s.rd Reg.sxtDmaHead).toNat →
   s.dmaReady = true →
   s.sxt.dump = some x →
   x.left = 0 ∨ nextRows (s.tableRows x.table) x.next = none →
   (Runs (.dump tb d true) s fun t =>
   (t.rd Reg.sxtDmaHead).toNat = (h + 1) % 2 ^ (s.rd Reg.sxtDmaSize).toNat ∧ t.sxt = { s.sxt with dump := none } ∧ RegsBut
     [Reg.sxtDmaHead] s t ∧
   t.out = s.out ++ [.hostWrite (BitVec.ofNat 64 (s.rdWords Reg.sxtDmaBaseLo 2 + 64 * h))
   (([BitVec.ofNat 32 (9 + x.table % 256 * 256), 0, BitVec.ofNat 32 x.count, 0] ++
   (d ++ List.replicate 8 0).take 8 ++ [0, 0, 0, 0]).flatMap fun (w : Word) => leBytes 4 w.toNat)]) ∧
   (Runs (.dump tb d false) s fun t =>
   t.bit Reg.sxtDmaStatus 31 = true ∧ t.sxt = { s.sxt with dump := none } ∧ RegsBut [Reg.sxtDmaStatus] s t ∧ t.out = s.out)) ∧
  (∀ (tb : Fin 256) (d : List Word) (ok : Bool) (h : Nat) (s : State),
   h = (s.rd Reg.sxtDmaHead).toNat →
   (s.dmaReady = true → s.sxt.dump = none → s.seqTakes 1 = true → (s.sxtSub tb.val).any (fun k => decide (k ≤ 2)) = false →
   Runs (.dump tb d true) s fun t =>
   (t.rd Reg.sxtDmaHead).toNat = (h + 1) % 2 ^ (s.rd Reg.sxtDmaSize).toNat ∧ { t.sxt with turn := s.sxt.turn } = s.sxt ∧
   RegsBut [Reg.sxtDmaHead] s t ∧ t.out = s.out ++ [.hostWrite (BitVec.ofNat 64 (s.rdWords Reg.sxtDmaBaseLo 2 + 64 * h))
   (([BitVec.ofNat 32 (9 + tb.val * 256 + 5 * 65536), 0, 0, 0] ++
   (d ++ List.replicate 8 0).take 8 ++ [0, 0, 0, 0]).flatMap fun (w : Word) => leBytes 4 w.toNat)]) ∧
   (s.dmaReady = false → exec (.dump tb d ok) s = .next s) ∧
   (s.sxt.dump = none → s.seqTakes 1 = false → exec (.dump tb d ok) s = .next s)) ∧
  (∀ (val : Word) (s : State),
   Runs (.sxtDmaTailWrite val) s fun t =>
   t.fld Reg.sxtDmaTail 15 0 = fld val 15 0 ∧ RegsBut [Reg.sxtDmaTail] s t ∧ t =
     { s with regs := t.regs, sxt := { s.sxt with since := t.sxt.since } })

/-- LEARN_TAKEN, when the learn FIFO has the turn, takes the oldest learn: an unknown key is inserted unless HOST_LEARN asks the
host, the limit is reached or no place is found; a static, frozen or equal entry keeps its result; another result moves it while
MOVES is below the limit, and freezes it at the limit with its event; each event of Table 10.4 puts its record in the
notification queue of a table with NOTIFY (R218, R219, R221). MOVES_CLEAR clears every MOVES at a whole second. AGEING_VISIT, a
quarter of the age time after the last visit of the slot, clears HIT and AGE of an entry in use, counts AGE otherwise, and
removes a dynamic entry at its third idle visit; static entries stay (R220). NOTE_READ removes the oldest record, 0 when none
(R221). REHASH_MOVE gives the next entry of the walk its place under the new seed or ends the rehash in FAIL, REHASH_END
installs the seed when none is left (R216). TRIE_ROOT_FLIP makes one root visible and ends the rebuild at the last; a list
beyond the capacity and TRIE_BUILD_NO_SPACE fail it (R208). FIX_BLOCK_COMPARE compares one block of the shadow, repairs entering
the sequencer as register commands; FIX_CHECK_END ends the pass once every block is done and no repair waits (R225 to R227).
Choices of the model in it: log entries 104, 107. -/
def Obligations.LearnsAgeRehashAndRepair : Prop :=
  (∀ (l : Learn) (ls : List Learn) (i : Nat) (e : EmEntry) (s : State),
   s.sxt.learns = l :: ls →
   s.seqTakes 2 = true →
   s.emFind l.table l.key = some (i, e) →
   s.emAt i = some e →
   (e.result = l.result → s.bit (Reg.sxtTblCfg l.table) 30 = false → Runs .learnTaken s fun t =>
   t.sxt.learns = ls ∧ t.emAt i = some { e with hit := true } ∧ SameBut State.emAt [i] s t ∧ t.sxt.notes = s.sxt.notes ∧
   RegsBut [Reg.chkInj, Reg.sxtLearnDup] s t) ∧
   (e.result ≠ l.result → e.static = true → Runs .learnTaken s fun t =>
   t.sxt.learns = ls ∧ t.sxt.em = s.sxt.em ∧ Noted 6 l.table l.port l.result l.key s t ∧ RegsBut noteRegs s t) ∧
   (e.result ≠ l.result → e.static = false ∧ e.frozen = true → Runs .learnTaken s fun t =>
   t.sxt.learns = ls ∧ t.sxt.em = s.sxt.em ∧ t.sxt.notes = s.sxt.notes ∧ t.rd Reg.sxtLearnFrozen = satAdd (s.rd
     Reg.sxtLearnFrozen) 1 ∧
   RegsBut [Reg.sxtLearnFrozen] s t) ∧
   (e.result ≠ l.result → e.static = false → e.frozen = false → s.bit (Reg.sxtTblCfg l.table) 30 = true → Runs .learnTaken s fun
     t =>
   t.sxt.learns = ls ∧ t.sxt.em = s.sxt.em ∧ Noted 7 l.table l.port l.result l.key s t ∧ RegsBut noteRegs s t)) ∧
  (∀ (l : Learn) (ls : List Learn) (i : Nat) (e : EmEntry) (s : State),
   s.sxt.learns = l :: ls →
   s.seqTakes 2 = true →
   s.emFind l.table l.key = some (i, e) →
   s.emAt i = some e →
   e.result ≠ l.result →
   e.static = false →
   e.frozen = false →
   s.bit (Reg.sxtTblCfg l.table) 30 = false →
   (e.moves < s.moveLimit →
   Runs .learnTaken s fun t =>
   t.sxt.learns = ls ∧ t.emAt i = some { e with result := l.result, moves := e.moves + 1, hit := true } ∧ SameBut State.emAt [i]
     s t ∧
   Noted 2 l.table l.port l.result l.key s t ∧ RegsBut (Reg.chkInj :: noteRegs) s t) ∧
   (s.moveLimit ≤ e.moves →
   Runs .learnTaken s fun t =>
   t.sxt.learns = ls ∧ t.emAt i = some { e with frozen := true, frozenAt := s.raw } ∧ SameBut State.emAt [i] s t ∧ Raised
     (leafOf 14 1) t ∧
   Noted 3 l.table l.port e.result l.key s t)) ∧
  (∀ (l : Learn) (ls : List Learn) (i : Nat) (s : State),
   s.sxt.learns = l :: ls →
   s.seqTakes 2 = true →
   s.emFind l.table l.key = none →
   (s.bit (Reg.sxtTblCfg l.table) 30 = true → Runs .learnTaken s fun t =>
   t.sxt.learns = ls ∧ t.sxt.em = s.sxt.em ∧ Noted 7 l.table l.port l.result l.key s t ∧ RegsBut noteRegs s t) ∧
   (s.bit (Reg.sxtTblCfg l.table) 30 = false → 1048576 ≤ s.dynCount → Runs .learnTaken s fun t =>
   t.sxt.learns = ls ∧ t.sxt.em = s.sxt.em ∧ t.sxt.notes = s.sxt.notes ∧ t.rd Reg.sxtLearnLimit = satAdd (s.rd
     Reg.sxtLearnLimit) 1) ∧
   (s.bit (Reg.sxtTblCfg l.table) 30 = false → s.dynCount < 1048576 →
   (s.cands false (s.dual false) l.table l.key).find? (fun j => (s.emAt j).isNone) = some i → Runs .learnTaken s fun t =>
   t.sxt.learns = ls ∧ t.emAt i = some { table := l.table, key := l.key, result := l.result, fresh := s.dual false } ∧
   SameBut State.emAt [i] s t ∧ Noted 1 l.table l.port l.result l.key s t ∧ RegsBut (Reg.chkInj :: noteRegs) s t) ∧
   (s.bit (Reg.sxtTblCfg l.table) 30 = false → s.dynCount < 1048576 →
   (s.emPlace { table := l.table, key := l.key, result := l.result }).1 = none → Runs .learnTaken s fun t =>
   t.sxt.learns = ls ∧ t.sxt.em = s.sxt.em ∧ t.bit Reg.sxtEmStatus 31 = true ∧ Raised (leafOf 14 0) t ∧
   Noted 5 l.table l.port l.result l.key s t)) ∧
  (∀ (s : State),
   s.sxt.learns = [] ∨ s.seqTakes 2 = false →
   exec .learnTaken s = .next s) ∧
  (∀ (at' : Raw) (i : Nat) (s u : State),
   u = s.advance at' →
   (u.raw.toNat % 65536000000000 = 0 → Runs (.movesClear at') s fun t =>
   t.emAt i = (u.emAt i).map (fun e => { e with moves := 0 }) ∧ t = { u with sxt := { u.sxt with em := t.sxt.em } }) ∧
   (u.raw.toNat % 65536000000000 ≠ 0 → exec (.movesClear at') s = .next u)) ∧
  (∀ (slot : Fin 4980736) (at' : Raw) (e : EmEntry) (s u : State),
   u = s.advance at' →
   u.emAt slot.val = some e →
   e.static = true ∨ u.bit (Reg.sxtTblCfg e.table) 29 = false ∨ u.ageTime = 0 ∨ u.seqTakes 3 = false ∨ u.raw.toNat <
     (u.sxt.swept.get (fun _ => 0) slot.val).toNat + u.ageTime * 16384000000000 →
   exec (.ageingVisit slot at') s = .next u) ∧
  (∀ (slot : Fin 4980736) (at' : Raw) (s u : State),
   u = s.advance at' →
   u.emAt slot.val = none →
   exec (.ageingVisit slot at') s = .next u) ∧
  (∀ (slot : Fin 4980736) (at' : Raw) (e : EmEntry) (frz : Nat) (s u : State),
   u = s.advance at' →
   u.emAt slot.val = some e →
   frz = (if u.sxtExpert = true ∧ e.frozen = true then u.fld Reg.sxtExpCfg 7 0 else 0) →
   e.static = false →
   u.bit (Reg.sxtTblCfg e.table) 29 = true →
   u.ageTime ≠ 0 →
   u.seqTakes 3 = true →
   (u.sxt.swept.get (fun _ => 0) slot.val).toNat + u.ageTime * 16384000000000 ≤ u.raw.toNat →
   (e.hit = true → Runs (.ageingVisit slot at') s fun t =>
   t.emAt slot.val = some
     { e with hit := false, age := 0, frozen := if frz ≠ 0 ∧ e.frozenAt.toNat + frz * 65536000000000 ≤ u.raw.toNat then false else e.frozen }
     ∧
   SameBut State.emAt [slot.val] u t ∧ t.sxt.swept.get (fun _ => 0) slot.val = u.raw ∧ RegsBut [Reg.chkInj] u t) ∧
   (e.hit = false → e.age < 2 → Runs (.ageingVisit slot at') s fun t =>
   t.emAt slot.val = some
     { e with age := e.age + 1, frozen := if frz ≠ 0 ∧ e.frozenAt.toNat + frz * 65536000000000 ≤ u.raw.toNat then false else e.frozen }
     ∧
   SameBut State.emAt [slot.val] u t ∧ t.sxt.swept.get (fun _ => 0) slot.val = u.raw ∧ RegsBut [Reg.chkInj] u t) ∧
   (e.hit = false → 2 ≤ e.age → Runs (.ageingVisit slot at') s fun t =>
   t.emAt slot.val = none ∧ SameBut State.emAt [slot.val] u t ∧ t.rd Reg.sxtAged = satAdd (u.rd Reg.sxtAged) 1 ∧
   Noted 4 e.table 0 e.result e.key u t ∧ RegsBut (Reg.chkInj :: Reg.sxtAged :: noteRegs) u t)) ∧
  (∀ (n : Note) (ns : List Note) (s : State),
   (s.sxt.notes = n :: ns → n.data.length ≤ 4 → Runs .noteRead s fun t =>
   t.sxt = { s.sxt with notes := ns } ∧ t.rdata = n.hdr ∧ (List.range n.data.length).map (fun i => t.rd (Reg.sxtNoteData i)) =
     n.data ∧
   RegsBut ((List.range 4).map Reg.sxtNoteData) s t) ∧
   (s.sxt.notes = [] → exec .noteRead s = .next { s with rdata := 0 })) ∧
  (∀ (slot : Nat) (s : State),
   s.rehashNext ≠ some slot ∨ s.seqTakes 4 = false →
   exec (.rehashMove slot) s = .next s) ∧
  (∀ (slot : Nat) (e : EmEntry) (s : State),
   s.rehashNext = some slot →
   s.seqTakes 4 = true →
   s.slotAt s.rehashLpm slot = some e →
   ((s.hashPlace s.rehashLpm e).1.isSome = true → Runs (.rehashMove slot) s fun t =>
   t.slotAt s.rehashLpm slot = none ∧ t.rd Reg.sxtRehashOpPartial = s.rd Reg.sxtRehashOpPartial + 1 ∧ t.sxt.rehash = true ∧
   t.rd Reg.sxtEmSeed = s.rd Reg.sxtEmSeed ∧ t.rd Reg.sxtLpmSeed = s.rd Reg.sxtLpmSeed) ∧
   ((s.hashPlace s.rehashLpm e).1 = none → Runs (.rehashMove slot) s fun t =>
   { t.sxt with rehash := true, turn := s.sxt.turn } = s.sxt ∧ t.sxt.rehash = false ∧ t.bit (opStat .rehash) 31 = false)) ∧
  (∀ (lp : Bool) (s : State),
   lp = s.rehashLpm →
   (s.sxt.rehash = true → s.rehashNext = none → Runs .rehashEnd s fun t =>
   t.rd (hashSeed lp) = s.rd (hashSeedNext lp) ∧ t.bit (hashStatus lp) 30 = false ∧ t.sxt.rehash = false ∧
   t.bit (opStat .rehash) 31 = false ∧ (∀ i, t.slotAt lp i = (s.slotAt lp i).map fun e => { e with fresh := false })) ∧
   (s.sxt.rehash = false ∨ s.rehashNext.isSome = true → exec .rehashEnd s = .next s)) ∧
  (∀ (records : List (List Word)) (root : Nat × Nat) (rest : List (Nat × Nat)) (s : State),
   s.sxt.trie = some (root :: rest) →
   (s.opArg .trieRebuild / 8192 % 2 = 0 → s.lpmFits root.2 = true → Runs (.trieRootFlip records) s fun t =>
   t.sxt.lpm = s.sxt.lpm ∧ t.sxt.trie = (if rest = [] then none else some rest) ∧
   t.rd Reg.sxtTrieOpPartial = s.rd Reg.sxtTrieOpPartial + 1 ∧ (rest = [] → t.bit (opStat .trieRebuild) 31 = false)) ∧
   (s.opArg .trieRebuild / 8192 % 2 = 0 → s.lpmFits root.2 = false → Runs (.trieRootFlip records) s fun t =>
   t.sxt = { s.sxt with trie := none } ∧ t.bit (opStat .trieRebuild) 31 = false) ∧
   (s.opArg .trieRebuild / 8192 % 2 = 1 → s.fld Reg.sxtTrieCount 20 0 = 0 → s.dev.body.carve.full = true →
   (s.trieContent root []).lpmFits root.2 = true → Runs (.trieRootFlip records) s fun t =>
   (∀ k, t.lpmAt k = if lpmRoot k = root then none else s.lpmAt k) ∧
   t.rd Reg.sxtTrieOpPartial = s.rd Reg.sxtTrieOpPartial + 1) ∧
   (s.opArg .trieRebuild / 8192 % 2 = 1 → (s.trieContent root records).lpmFits root.2 = false → Runs (.trieRootFlip records) s
     fun t =>
   t.sxt = { s.sxt with trie := none } ∧ t.bit (opStat .trieRebuild) 31 = false) ∧
   (s.opArg .trieRebuild / 8192 % 2 = 1 → s.dev.body.carve.full = true → (s.trieContent root records).lpmFits root.2 = true →
   (∀ d ∈ records.take (s.fld Reg.sxtTrieCount 20 0), fld (imgWord d 4) 23 16 ≤ famBits root.2) → root.1 < 4096 → root.2 < 2 →
   Runs (.trieRootFlip records) s fun t =>
   (∀ k, lpmRoot k ≠ root → t.lpmAt k = s.lpmAt k) ∧ (∀ d, (records.take (s.fld Reg.sxtTrieCount 20 0)).getLast? = some d →
   t.lpmAt (lpmKey root.1 root.2 (fld (imgWord d 4) 23 16) (imgNum d 0 4)) = some (BitVec.ofNat 22 (imgWord d 5).toNat)))) ∧
  (∀ (records : List (List Word)) (s : State),
   (s.sxt.trie.isSome = true → Runs .trieBuildNoSpace s fun t =>
   t.sxt = { s.sxt with trie := none } ∧ t.bit (opStat .trieRebuild) 31 = false) ∧
   (s.sxt.trie = none → exec .trieBuildNoSpace s = .next s) ∧
   (s.sxt.trie = none → exec (.trieRootFlip records) s = .next s)) ∧
  (∀ (words : List Word) (x : FixRun) (s : State),
   s.sxt.fix = some x →
   x.block < (s.rd Reg.sxtFixBlocks).toNat →
   s.dev.perstLow = false →
   Runs (.fixBlockCompare words) s fun t =>
   (t.sxt.fix.map fun y => y.block) = some (x.block + 1) ∧ t.sxt.em = s.sxt.em ∧ t.sxt.lpm = s.sxt.lpm ∧ t.sxt.lpmh = s.sxt.lpmh
     ∧
   t.sxt.direct = s.sxt.direct ∧ s.sxt.winq <+: t.sxt.winq ∧ (s.sxtExpert = false → t.sxt.winq = s.sxt.winq) ∧
   (words = [] → t.sxt.fix = some { x with block := x.block + 1 } ∧ t.out = s.out)) ∧
  (∀ (words : List Word) (s : State),
   s.dev.perstLow = true ∨ (s.sxt.fix.all fun x => decide ((s.rd Reg.sxtFixBlocks).toNat ≤ x.block)) = true →
   exec (.fixBlockCompare words) s = .next s) ∧
  (∀ (w v : Word) (x : FixRun) (t0 i : Nat) (s : State),
   s.sxt.fix = some x →
   x.block < (s.rd Reg.sxtFixBlocks).toNat →
   s.dev.perstLow = false →
   t0 = s.opArg .fixCheck % 256 →
   s.sxtSub t0 = some 3 →
   i = s.fld Reg.sxtFixStart 19 0 + x.block * 512 →
   (s.directAt t0 i = BitVec.ofNat 64 (imgNum [w, v] 0 2) → Runs (.fixBlockCompare [w, v]) s fun t =>
   t.sxt.fix = some { x with block := x.block + 1, records := x.records + 1 } ∧ t.out = s.out ∧ t.sxt.winq = s.sxt.winq) ∧
   (s.directAt t0 i ≠ BitVec.ofNat 64 (imgNum [w, v] 0 2) → Runs (.fixBlockCompare [w, v]) s fun t =>
   t.sxt.fix = some
     { block := x.block + 1, mism := x.mism + 1, first := if x.mism = 0 then x.block else x.first, records := x.records + 1 } ∧
   (s.sxtExpert = true → s.opArg .fixCheck / 256 % 2 = 1 → t.sxt.winq = s.sxt.winq ++ [⟨7, t0, i, [w, v], some (x.block, 0, 1,
     x.mism)⟩]) ∧
   (s.sxtExpert = false → x.mism < (s.rd Reg.sxtFixListMax).toNat → t.out = s.out ++
   [.hostWrite (BitVec.ofNat 64 (s.rdWords Reg.sxtFixListLo 2 + 16 * x.mism)) (leBytes 4 x.block ++ leBytes 2 0 ++ leBytes 1 1
     ++ leBytes 9 0)]))) ∧
  (∀ (x : FixRun) (s : State),
   (s.sxt.fix = some x → (s.rd Reg.sxtFixBlocks).toNat ≤ x.block → (s.sxt.winq.any fun c => c.repair.isSome) = false → Runs
     .fixCheckEnd s fun t =>
   t.sxt = { s.sxt with fix := none } ∧ t.bit (opStat .fixCheck) 31 = false ∧
   (s.sxtSub (s.opArg .fixCheck % 256) = some 0 →
   t.rd (Reg.sxtFixOpPartial 2) = BitVec.ofNat 32 (unsign 32 (((s.tableRows (s.opArg .fixCheck % 256)).length : Int) -
     (x.records : Int))))) ∧
   (s.sxt.fix = some x → x.block < (s.rd Reg.sxtFixBlocks).toNat ∨ (s.sxt.winq.any fun c => c.repair.isSome) = true → exec
     .fixCheckEnd s = .next s) ∧
   (s.sxt.fix = none → exec .fixCheckEnd s = .next s))

/-! ### Rhumb (chapter 13) -/

/-- Outside LOAD, FEC_LOCK_GAIN sets FEC lock and HUNT; FEC_LOCK_LOSS clears FEC and marker lock and counts the rest of 8 codewords,
MARKER_LOCK_LOSS clears marker lock, both HUNT (R276 to R278). A codeword is counted once however many cells it spans, and the
eighth uncorrectable one in a row loses FEC lock (R276). A valid marker on a lane with FEC lock, on the due position where it
has marker lock, gives marker lock, the logical number and the skew against the group's first arrival; another peer's, or a
number an earlier-locked lane holds, is MISWIRED; the second missed marker in a row loses marker lock (R277, R280 to R282).
Delineation takes a good header from HUNT to PRESYNC, a bad one back, SYNC after SYNC_N, and counts header errors in SYNC; a
cell takes its place in stripe order, and Table 13.8 discards and counts (R278, R282, R291). A REACH_WRITE that changes the
usable set starts a drain, DRAIN_END ends it (R286). RESEQ_TIMEOUT skips a gap, counting it, and FABRIC_REASM_TIMEOUT discards a
partial frame (R288, R292). DEV_ID changes in LOAD and COMMISSION only (R294). CELL_TRANSMIT sends one cell of an UP group or
IDLE, MARKER_INSERT, after 8,192 cells per lane, announces and applies the active set, CREDIT_CELL_SEND takes up to 15 messages
(R277, R282, R287, R290). No register outside the lane, its group and the counters named changes. Choices of the model in it:
log entries 49, 50, 113. -/
def Obligations.LanesGroupsAndCellsFollowRhumb : Prop :=
  (∀ (l : Fin 64) (s : State),
   (s.dev.mode ≠ .load → Runs (.fecLockGain l) s fun t =>
   t.bit (Reg.rhbLaneStatus l.val) 29 = true ∧ t.fld (Reg.rhbLaneStatus l.val) 31 30 = 0 ∧ (t.lane l.val).run = 0 ∧
   (s.laneGroup l.val = none → RegsBut [Reg.rhbLaneStatus l.val] s t) ∧
   (∀ g, s.laneGroup l.val = some g → RegsBut (Reg.rhbLaneStatus l.val :: grpRegs s g) s t)) ∧
   (s.dev.mode = .load → exec (.fecLockGain l) s = .next s)) ∧
  (∀ (l : Fin 64) (s : State),
   (Runs (.markerLockLoss l) s fun t =>
   t.bit (Reg.rhbLaneStatus l.val) 28 = false ∧ t.fld (Reg.rhbLaneStatus l.val) 31 30 = 0 ∧ (t.lane l.val).run = 0 ∧
   (∀ g, s.laneGroup l.val = some g → RegsBut (Reg.rhbLaneStatus l.val :: grpRegs s g) s t)) ∧
   (Runs (.fecLockLoss l) s fun t =>
   t.bit (Reg.rhbLaneStatus l.val) 29 = false ∧ t.bit (Reg.rhbLaneStatus l.val) 28 = false ∧ t.fld (Reg.rhbLaneStatus l.val) 31
     30 = 0 ∧
   t.rd (Reg.rhbLaneFecUncorr l.val) = (if s.bit (Reg.rhbLaneStatus l.val) 29 then satAdd (s.rd (Reg.rhbLaneFecUncorr l.val)) (8
     - (s.lane l.val).badRun) else s.rd (Reg.rhbLaneFecUncorr l.val)) ∧
   (∀ g, s.laneGroup l.val = some g → RegsBut (Reg.rhbLaneStatus l.val :: Reg.rhbLaneFecUncorr l.val :: grpRegs s g) s t))) ∧
  (∀ (l : Fin 64) (bs : List Byte) (mirrored : Bool) (skip g skew : Nat) (m : Marker) (at' : Raw) (s u : State),
   u = s.advance at' →
   (u.lane l.val).badRun < 8 →
   u.bit (Reg.rhbLaneStatus l.val) 29 = true →
   u.laneGroup l.val = some g →
   u.bit (Reg.rhbLaneStatus l.val) 28 = true → (u.lane l.val).since = 8192 * 256 →
   u.bit (Reg.rhbGrpCfg g) 31 = true →
   parseMarker bs = some m →
   u.grpHeld g = 0 →
   skew = (u.raw - (((u.group g).firstAt.filter (fun a => a.1 == m.count)).getD (m.count, u.raw)).2).toNat / 65536 →
   ((u.group g).peer = none ∨ (u.group g).peer = some (m.src, m.grp) →
   u.logicalHeld g l.val m.logical = false ∨ (u.bit (Reg.rhbLaneStatus l.val) 28 = true ∧ u.fld (Reg.rhbLaneStatus l.val) 20 16
     = m.logical) →
   Runs (.laneMarker l bs mirrored skip [] at') s fun t =>
   t.bit (Reg.rhbLaneStatus l.val) 28 = true ∧ t.fld (Reg.rhbLaneStatus l.val) 20 16 = m.logical ∧
   t.bit (Reg.rhbLaneStatus l.val) 25 = decide (512 < skew) ∧ t.bit (Reg.rhbLaneStatus l.val) 26 = u.bit (Reg.rhbLaneStatus
     l.val) 26 ∧
   (t.group g).peer = some (m.src, m.grp) ∧ (t.group g).peerRxOk = m.rxOk ∧ (t.lane l.val).skew = skew ∧ (t.lane l.val).missed =
     0 ∧
   (u.bit (Reg.rhbLaneStatus l.val) 28 = true → t.bit (Reg.rhbLaneStatus l.val) 27 = u.bit (Reg.rhbLaneStatus l.val) 27) ∧
   RegsBut (Reg.rhbLaneStatus l.val :: grpRegs u g) u t) ∧
   ((u.group g).peer.any (fun p => p != (m.src, m.grp)) = true ∨ ((u.group g).peer = none ∧ u.bit (Reg.rhbLaneStatus l.val) 28 =
     false ∧ u.logicalHeld g l.val m.logical = true) →
   Runs (.laneMarker l bs mirrored skip [] at') s fun t =>
   t.bit (Reg.rhbLaneStatus l.val) 28 = true ∧ t.bit (Reg.rhbLaneStatus l.val) 26 = true ∧
   t.fld (Reg.rhbLaneStatus l.val) 20 16 = u.fld (Reg.rhbLaneStatus l.val) 20 16 ∧
   (t.group g).peer = some ((u.group g).peer.getD (m.src, m.grp)) ∧ RegsBut (Reg.rhbLaneStatus l.val :: grpRegs u g) u t)) ∧
  (∀ (l : Fin 64) (bs : List Byte) (mirrored : Bool) (skip g : Nat) (at' : Raw) (s u : State),
   u = s.advance at' →
   (u.lane l.val).badRun < 8 →
   u.bit (Reg.rhbLaneStatus l.val) 29 = true →
   u.laneGroup l.val = some g →
   parseMarker bs = none →
   (u.bit (Reg.rhbLaneStatus l.val) 28 = true → (u.lane l.val).since = 8192 * 256 → (u.lane l.val).missed = 0 →
   Runs (.laneMarker l bs mirrored skip [] at') s fun t =>
   (t.lane l.val).missed = 1 ∧ (t.lane l.val).since = 0 ∧ RegsBut [] u t) ∧
   (u.bit (Reg.rhbLaneStatus l.val) 28 = true → (u.lane l.val).since = 8192 * 256 → 1 ≤ (u.lane l.val).missed →
   Runs (.laneMarker l bs mirrored skip [] at') s fun t =>
   t.bit (Reg.rhbLaneStatus l.val) 28 = false ∧ t.fld (Reg.rhbLaneStatus l.val) 31 30 = 0 ∧ RegsBut (Reg.rhbLaneStatus l.val ::
     grpRegs u g) u t) ∧
   (u.bit (Reg.rhbLaneStatus l.val) 28 = false → Runs (.laneMarker l bs mirrored skip [] at') s fun t =>
   (t.lane l.val).since = 0 ∧ RegsBut [] u t)) ∧
  (∀ (l : Fin 64) (bs : List Byte) (mirrored : Bool) (skip : Nat) (cws : List (Nat × Bool)) (at' : Raw) (s u : State),
   u = s.advance at' →
   u.laneGroup l.val = none ∨ u.bit (Reg.rhbLaneStatus l.val) 29 = false ∨ (u.bit (Reg.rhbLaneStatus l.val) 28 = true ∧ (u.lane
     l.val).since ≠ 8192 * 256) →
   exec (.laneMarker l bs mirrored skip cws at') s = .next u) ∧
  (∀ (l : Fin 64) (bs : List Byte) (skip : Nat) (cws : List (Nat × Bool)) (s : State),
   s.bit (Reg.rhbLaneStatus l.val) 29 = false ∨ s.bit (Reg.rhbLaneStatus l.val) 28 = false ∨ 8192 * 256 ≤ (s.lane l.val).since →
   exec (.cellDelineation l bs skip cws) s = .next s) ∧
  (∀ (l : Fin 64) (bs : List Byte) (c : Nat) (b : Bool) (s : State),
   s.bit (Reg.rhbLaneStatus l.val) 29 = true →
   s.bit (Reg.rhbLaneStatus l.val) 28 = true →
   (s.lane l.val).since < 8192 * 256 →
   s.fld (Reg.rhbLaneStatus l.val) 31 30 = 1 →
   ofBe ((bs.drop 14).take 2) = hcs (bs.take 14) →
   (s.lane l.val).left = 0 →
   (s.lane l.val).badRun < 8 →
   ((s.lane l.val).badRun + ofBool b < 8 → Runs (.cellDelineation l bs 0 [(c, b)]) s fun t =>
   t.rd (Reg.rhbLaneFecCorr l.val) = satAdd (s.rd (Reg.rhbLaneFecCorr l.val)) (if b then 0 else c) ∧
   t.rd (Reg.rhbLaneFecUncorr l.val) = satAdd (s.rd (Reg.rhbLaneFecUncorr l.val)) (ofBool b) ∧ (t.lane l.val).left = 5140 - 2048
     ∧
   (t.lane l.val).badRun = (if b then (s.lane l.val).badRun + 1 else 0) ∧ (t.lane l.val).since = (s.lane l.val).since + 256) ∧
   (b = true → (s.lane l.val).badRun = 7 → Runs (.cellDelineation l bs 0 [(c, b)]) s fun t =>
   t.rd (Reg.rhbLaneFecUncorr l.val) = satAdd (s.rd (Reg.rhbLaneFecUncorr l.val)) 1 ∧ t.bit (Reg.rhbLaneStatus l.val) 29 = false
     ∧
   t.bit (Reg.rhbLaneStatus l.val) 28 = false ∧ t.fld (Reg.rhbLaneStatus l.val) 31 30 = 0)) ∧
  (∀ (l : Fin 64) (bs : List Byte) (skip g : Nat) (good : Bool) (s : State),
   s.bit (Reg.rhbLaneStatus l.val) 29 = true →
   s.bit (Reg.rhbLaneStatus l.val) 28 = true →
   (s.lane l.val).since < 8192 * 256 →
   good = (ofBe ((bs.drop 14).take 2) == hcs (bs.take 14)) →
   (s.lane l.val).badRun < 8 →
   s.laneGroup l.val = some g →
   (s.fld (Reg.rhbLaneStatus l.val) 31 30 = 0 → Runs (.cellDelineation l bs skip []) s fun t =>
   t.fld (Reg.rhbLaneStatus l.val) 31 30 = ofBool good ∧ (good = false → RegsBut [] s t ∧ t.out = s.out ∧ (t.lane l.val).since =
     (s.lane l.val).since + skip + 1) ∧
   (good = true → (t.lane l.val).run = 0 ∧ (t.lane l.val).since = (s.lane l.val).since + skip + 256 ∧ RegsBut (Reg.rhbLaneStatus
     l.val :: grpRegs s g) s t)) ∧
   (s.fld (Reg.rhbLaneStatus l.val) 31 30 = 1 → Runs (.cellDelineation l bs skip []) s fun t =>
   t.fld (Reg.rhbLaneStatus l.val) 31 30 = (if !good then 0 else if s.syncN ≤ (s.lane l.val).run + 1 then 2 else 1) ∧
   (t.lane l.val).run = (if good ∧ (s.lane l.val).run + 1 < s.syncN then (s.lane l.val).run + 1 else 0) ∧
   RegsBut (Reg.rhbLaneStatus l.val :: grpRegs s g) s t) ∧
   (s.fld (Reg.rhbLaneStatus l.val) 31 30 = 2 → good = false → s.grpHeld g = 0 → Runs (.cellDelineation l bs skip []) s fun t =>
   t.fld (Reg.rhbLaneStatus l.val) 31 30 = (if s.lossM ≤ (s.lane l.val).run + 1 then 0 else 2) ∧
   t.rd (Reg.rhbLaneHcsErr l.val) = satAdd (s.rd (Reg.rhbLaneHcsErr l.val)) 1 ∧ t.rd Reg.rhbUncharged = satAdd (s.rd
     Reg.rhbUncharged) 1 ∧
   RegsBut (Reg.rhbLaneHcsErr l.val :: Reg.rhbUncharged :: Reg.rhbLaneStatus l.val :: grpRegs s g) s t)) ∧
  (∀ (l : Fin 64) (bs : List Byte) (c : Cell) (g p : Nat) (s : State),
   c = parseCell (s.descrambled l.val bs).1 →
   s.bit (Reg.rhbLaneStatus l.val) 29 = true →
   s.bit (Reg.rhbLaneStatus l.val) 28 = true →
   (s.lane l.val).since < 8192 * 256 →
   s.fld (Reg.rhbLaneStatus l.val) 31 30 = 2 →
   ofBe ((bs.drop 14).take 2) = hcs (bs.take 14) →
   (s.lane l.val).badRun < 8 →
   (s.lane l.val).bad = false →
   s.laneGroup l.val = some g →
   s.grpHeld g = 0 →
   (lanesOf (s.group g).rxActive)[(s.group g).rxPos % (lanesOf (s.group g).rxActive).length]? = some p →
   s.stripeLane g p = some l.val →
   (s.lane l.val).era = (s.group g).rxCount →
   (8 ≤ c.label → Runs (.cellDelineation l bs 0 []) s fun t =>
   t.rd Reg.rhbLabelBad = satAdd (s.rd Reg.rhbLabelBad) 1 ∧ RegsBut [Reg.rhbLabelBad] s t ∧ t.out = s.out) ∧
   (1 ≤ c.label → c.label ≤ 7 → c.dest ≠ s.devId ∨ (c.src = s.devId ∧ s.loopback g = false) → Runs (.cellDelineation l bs 0 [])
     s fun t =>
   t.rd Reg.rhbMisroute = satAdd (s.rd Reg.rhbMisroute) 1 ∧ RegsBut [Reg.rhbMisroute] s t ∧ t.out = s.out) ∧
   (1 ≤ c.label → c.label ≤ 7 → c.dest = s.devId → c.src ≠ s.devId → rxLabel s.dev.mode c.label = false →
   Runs (.cellDelineation l bs 0 []) s fun t =>
   t.rd Reg.rhbModeDrop = satAdd (s.rd Reg.rhbModeDrop) 1 ∧ RegsBut [Reg.rhbModeDrop] s t ∧ t.out = s.out) ∧
   (c.label = 0 → Runs (.cellDelineation l bs 0 []) s fun t => RegsBut [] s t ∧ t.out = s.out ∧ t.rhb.reasm = s.rhb.reasm) ∧
   (c.label = 1 → c.dest = s.devId → c.src ≠ s.devId → c.spray = false → rxLabel s.dev.mode 1 = true → c.first = true → c.last =
     false →
   72 ≤ c.port → s.reasmCtx (c.src * 16 + c.grp) = {} → Runs (.cellDelineation l bs 0 []) s fun t =>
   t.reasmCtx (c.src * 16 + c.grp) =
     { expect := some ((c.seq + 1) % 65536), first := some c, bytes := c.payload, lastAt := s.raw } ∧
   RegsBut [] s t ∧ t.out = s.out)) ∧
  (∀ (l : Fin 64) (bs : List Byte) (c : Cell) (g p : Nat) (s : State),
   c = parseCell (s.descrambled l.val bs).1 →
   s.bit (Reg.rhbLaneStatus l.val) 29 = true →
   s.bit (Reg.rhbLaneStatus l.val) 28 = true →
   (s.lane l.val).since < 8192 * 256 →
   s.fld (Reg.rhbLaneStatus l.val) 31 30 = 2 →
   ofBe ((bs.drop 14).take 2) = hcs (bs.take 14) →
   (s.lane l.val).badRun < 8 →
   (s.lane l.val).bad = false →
   s.laneGroup l.val = some g →
   s.grpHeld g = 0 →
   (lanesOf (s.group g).rxActive)[(s.group g).rxPos % (lanesOf (s.group g).rxActive).length]? = some p →
   (s.stripeLane g p).any (fun k => k != l.val) = true →
   Runs (.cellDelineation l bs 0 []) s fun t =>
   (t.lane l.val).fifo = [.cell (some c)] ∧ RegsBut [] s t ∧ t.out = s.out ∧ (t.group g).rxPos = (s.group g).rxPos) ∧
  (∀ (d : Fin 1024) (val : Word) (s : State),
   Runs (.reachWrite d val) s fun t =>
   t.rd (Reg.rhbReach d.val) = (s.wrTyped (Reg.rhbReach d.val) val).rd (Reg.rhbReach d.val) ∧ RegsBut [Reg.rhbReach d.val] s t ∧
   SameBut State.toward [d.val] s t ∧
   t.toward d.val = (if t.usableSet d.val = s.usableSet d.val then s.toward d.val else
     { s.toward d.val with drain := some (s.after (2 * s.reseqUs)) })) ∧
  (∀ (d : Fin 1024) (at' : Raw) (e : Raw) (s u : State),
   u = s.advance at' →
   ((u.toward d.val).drain = some e → u.reached e = true → Runs (.drainEnd d at') s fun t => (t.toward d.val).drain = none ∧
   (u.voqsToward d.val = [] → t = u.setToward d.val { u.toward d.val with drain := none })) ∧
   ((u.toward d.val).drain = some e → u.reached e = false → exec (.drainEnd d at') s = .next u) ∧
   ((u.toward d.val).drain = none → exec (.drainEnd d at') s = .next u)) ∧
  (∀ (src : Fin 1024) (at' r : Raw) (e : Nat) (c : Cell) (x : Reseq) (s u : State),
   u = s.advance at' →
   x = u.reseqCtx src.val →
   (x.held = [(c, r)] → x.expect = some e → c.first = true ∧ c.last = false ∧ 72 ≤ c.port → u.reasmCtx (16384 + src.val) = {} →
   u.reached (r + BitVec.ofNat 96 (u.reseqUs * 65536000)) = true → Runs (.reseqTimeout src at') s fun t =>
   t.reseqCtx src.val = { x with expect := some ((c.seq + 1) % 65536), held := [] } ∧
   t.rd Reg.rhbReseqLoss = satAdd (u.rd Reg.rhbReseqLoss) (seqDist e c.seq) ∧ RegsBut [Reg.rhbReseqLoss] u t ∧
   t.reasmCtx (16384 + src.val) =
     { expect := some ((c.seq + 1) % 65536), first := some c, bytes := c.payload, lastAt := u.raw }) ∧
   (x.held = [(c, r)] → u.reached (r + BitVec.ofNat 96 (u.reseqUs * 65536000)) = false → exec (.reseqTimeout src at') s = .next
     u) ∧
   (x.held = [] → u.reached (x.lastAt + BitVec.ofNat 96 (u.reseqUs * 65536000)) = true →
   exec (.reseqTimeout src at') s = .next (u.setReseq src.val { x with expect := none }))) ∧
  (∀ (ctx : Fin 17408) (at' : Raw) (c : Cell) (x : Reasm) (s u : State),
   u = s.advance at' →
   x = u.reasmCtx ctx.val →
   x.first = some c →
   (u.reached (x.lastAt + BitVec.ofNat 96 (u.reasmUs * 65536000)) = true → x.lost = false → x.cells = [] → c.port < 48 ∨ 72 ≤
     c.port →
   Runs (.fabricReasmTimeout ctx at') s fun t =>
   t.reasmCtx ctx.val = { x with first := none, bytes := [] } ∧ SameBut State.reasmCtx [ctx.val] u t ∧
   t.rd Reg.rhbReasmDrop = satAdd (u.rd Reg.rhbReasmDrop) 1 ∧ RegsBut [Reg.rhbReasmDrop] u t ∧ t.pool = u.pool) ∧
   (u.reached (x.lastAt + BitVec.ofNat 96 (u.reasmUs * 65536000)) = true → x.lost = false → 48 ≤ c.port → c.port < 72 → x.cells
     = [] →
   (u.netPort (c.port - 48)).tx = none → Runs (.fabricReasmTimeout ctx at') s fun t =>
   (t.reasmCtx ctx.val).first = none ∧ t.staging c.port = (u.staging c.port).filter (fun f => f.part != some ctx.val) ∧
   t.rd Reg.rhbReasmDrop = satAdd (u.rd Reg.rhbReasmDrop) 1 ∧ RegsBut [Reg.rhbReasmDrop] u t) ∧
   (u.reached (x.lastAt + BitVec.ofNat 96 (u.reasmUs * 65536000)) = true → x.lost = false → c.port < 48 → Runs
     (.fabricReasmTimeout ctx at') s fun t =>
   t.reasmCtx ctx.val = { x with first := none, bytes := [], cells := [] } ∧
   t.pool = (u.freeChain x.cells).pool ∧ t.rd Reg.rhbReasmDrop = satAdd (u.rd Reg.rhbReasmDrop) 1) ∧
   (u.reached (x.lastAt + BitVec.ofNat 96 (u.reasmUs * 65536000)) = true → x.lost = true → x.cells = [] → Runs
     (.fabricReasmTimeout ctx at') s fun t =>
   t.reasmCtx ctx.val = { x with first := none, bytes := [], lost := false } ∧ RegsBut [] u t) ∧
   (u.reached (x.lastAt + BitVec.ofNat 96 (u.reasmUs * 65536000)) = false → exec (.fabricReasmTimeout ctx at') s = .next u)) ∧
  (∀ (ctx : Fin 17408) (at' : Raw) (s u : State),
   u = s.advance at' →
   (u.reasmCtx ctx.val).first = none →
   exec (.fabricReasmTimeout ctx at') s = .next u) ∧
  (∀ (val : Word) (s : State),
   (s.dev.mode = .load ∨ s.dev.mode = .commission → Runs (.devIdWrite val) s fun t => t.devId = fld val 9 0 ∧ RegsBut
     [Reg.rhbCtrl] s t) ∧
   (s.dev.mode ≠ .load → s.dev.mode ≠ .commission → Runs (.devIdWrite val) s fun t =>
   t.devId = s.devId ∧ t.bit Reg.rhbCtrl 30 = true ∧ RegsBut [Reg.rhbCtrl] s t)) ∧
  (∀ (g : Fin 16) (at' : Raw) (x : Group) (l i : Nat) (is : List Nat) (s u : State),
   u = s.advance at' →
   x = u.group g.val →
   u.dev.mode ≠ .load →
   u.bit (Reg.rhbGrpCfg g.val) 31 = true →
   u.markerDue g.val = false →
   u.loopback g.val = false →
   lanesOf (u.rd (Reg.rhbGrpActive g.val)) = i :: is →
   l = u.grpFirst g.val + ((i :: is)[x.cells % (i :: is).length]?).getD i →
   u.laneGroup l = some g.val →
   ∀ j ∈ List.range (u.grpCount g.val), (u.lane (u.grpFirst g.val + j)).loop = [] →
   (u.bit Reg.rhbStatus g.val = false ∨ 8191 ≤ (u.lane l).idle → Runs (.cellTransmit g at') s fun t =>
   (t.lane l).idle = 0 ∧ t.group g.val = { x with cells := x.cells + 1 } ∧ RegsBut [] u t ∧
   (u.out ++ [.cell l (cellHeader { label := 0 } ++ (scramble (List.replicate 240 0) (u.lane l).scr).1)]) <+: t.out) ∧
   (u.bit Reg.rhbStatus g.val = true → (u.lane l).idle < 8191 → (nextCell u.dev.mode u.snapShare x).1.label = 0 → Runs
     (.cellTransmit g at') s fun t =>
   (t.lane l).idle = 0 ∧ RegsBut [] u t ∧
   (u.out ++ [.cell l (cellHeader { label := 0 } ++ (scramble (List.replicate 240 0) (u.lane l).scr).1)]) <+: t.out) ∧
   (u.bit Reg.rhbStatus g.val = true → (u.lane l).idle < 8191 → (nextCell u.dev.mode u.snapShare x).1.label ≠ 0 → Runs
     (.cellTransmit g at') s fun t =>
   (t.lane l).idle = (u.lane l).idle + 1 ∧ t.group g.val = { (nextCell u.dev.mode u.snapShare x).2 with cells := x.cells + 1 } ∧
     RegsBut [] u t ∧
   (u.out ++ [.cell l (cellHeader (u.stampCell at' (nextCell u.dev.mode u.snapShare x).1) ++
   (scramble (padTo 240 (u.stampCell at' (nextCell u.dev.mode u.snapShare x).1).payload) (u.lane l).scr).1)]) <+: t.out)) ∧
  (∀ (g : Fin 16) (at' : Raw) (s u : State),
   u = s.advance at' →
   u.dev.mode = .load ∨ u.bit (Reg.rhbGrpCfg g.val) 31 = false ∨ u.markerDue g.val = true →
   ∀ j ∈ List.range (u.grpCount g.val), (u.lane (u.grpFirst g.val + j)).loop = [] →
   Runs (.cellTransmit g at') s fun t => t.group g.val = u.group g.val ∧ RegsBut [] u t ∧ t.out = u.out) ∧
  (∀ (g : Fin 16) (s : State),
   s.dev.mode = .load ∨ s.bit (Reg.rhbGrpCfg g.val) 31 = false ∨ s.grpCount g.val = 0 ∨ s.markerDue g.val = false →
   ∀ j ∈ List.range (s.grpCount g.val), (s.lane (s.grpFirst g.val + j)).loop = [] →
   Runs (.markerInsert g) s fun t => t.group g.val = s.group g.val ∧ RegsBut [] s t ∧ t.out = s.out) ∧
  (∀ (g : Fin 16) (s : State),
   s.dev.mode ≠ .load →
   s.bit (Reg.rhbGrpCfg g.val) 31 = true →
   s.markerDue g.val = true →
   s.loopback g.val = false →
   s.grpCount g.val ≠ 0 →
   ∀ j ∈ List.range (s.grpCount g.val), (s.lane (s.grpFirst g.val + j)).loop = [] ∧ s.laneGroup (s.grpFirst g.val + j) = some
     g.val →
   Runs (.markerInsert g) s fun t =>
   t.rd (Reg.rhbGrpActive g.val) = s.wantActive g.val ∧ (t.group g.val).markers = ((s.group g.val).markers + 1) % 65536 ∧
     (t.group g.val).cells = 0 ∧
   RegsBut (Reg.rhbGrpActive g.val :: grpRegs s g.val) s t ∧
   (s.out ++ (List.range (s.grpCount g.val)).map fun i =>
   .marker (s.grpFirst g.val + i) (markerBytes ⟨s.devId, g.val, i, s.wantActive g.val, s.rxOkOf g.val, (s.group g.val).markers %
     65536⟩)) <+: t.out) ∧
  (∀ (d : Fin 1024) (at' : Raw) (m : CreditMsg × Raw) (ms : List (CreditMsg × Raw)) (g : Nat) (gs : List Nat) (s u : State),
   u = s.advance at' →
   (u.toward d.val).credits = m :: ms →
   (14 ≤ ms.length ∨ u.reached (m.2 + BitVec.ofNat 96 13107200) = true → Runs (.creditCellSend d at') s fun t =>
   t.toward d.val = { u.toward d.val with credits := (m :: ms).drop 15 } ∧ RegsBut [] u t ∧
   (groupsOf (u.usableSet d.val) = g :: gs →
   t.group g =
     { u.group g with credit := (u.group g).credit ++ [{ label := lblCredit, dest := d.val, grp := g, src := u.devId, payload := padTo 240 ((((m :: ms).take 15).map Prod.fst).flatMap creditSlot) }] }))
     ∧
   (ms.length < 14 → u.reached (m.2 + BitVec.ofNat 96 13107200) = false → exec (.creditCellSend d at') s = .next u)) ∧
  (∀ (d : Fin 1024) (at' : Raw) (s u : State),
   u = s.advance at' →
   (u.toward d.val).credits = [] →
   exec (.creditCellSend d at') s = .next u)

/-! ### Meridian (chapter 16) -/

/-- A device of role NONE discards every message, and one whose CHECK fails or that is not for it is counted (R328, R331). An
ANNOUNCE makes its sender heard; HEARD_TIMEOUT forgets it; ANNOUNCE_SEND, ANNOUNCE_MS after the last, announces (R329). A worker
applies the expected SEQ in order and acknowledges it, acknowledges its last record again, discards another, refuses a record
whole, and watches the slot of one with WP_REPORT (R333, R334, R336). FAN_GO without the role, or with 256 records open, is
refused with its cause; otherwise it opens a record, the own share applied at once; ACK, REPLY, resends after RETRY_US,
UNREACHED and TARGET_RESUME move a target (R332, R333, R339). TIME_EXCHANGE, TIME_PERIOD_MS after the last, sends SYNC; a worker
stamps SYNC and computes offset and delay without moving a view, a manager answers DELAY_REQ with t4 (R337). A COLLECT is
answered with the values of the registers, COLLECT_GO without the role is refused (R339). A manager keeps waypoint reports and
queues forwarded events, counting those that find the buffer full (R336, R340). In SAFE a device applies no record and answers
no collect (R338). Choices of the model in it: log entries 87, 129. -/
def Obligations.MessagesAreMetByRoleAndSequence : Prop :=
  (∀ (m : MerMsg) (viaMgmt : Bool) (cap txCap : Raw) (s : State),
   (s.mer.role = 0 → ∀ c ∈ [Instr.announceReceive m viaMgmt, .fanReceive m, .ackReceive m, .wpReportReceive m, .syncReceive m
     cap txCap, .delayReqReceive m cap, .delayRespReceive m, .collectReceive m, .replyReceive m, .eventMessageReceive m], exec c
     s = .next s) ∧
   (s.mer.role ≠ 0 → merGood m = false ∨ (m.bcast = false ∧ m.dest ≠ s.devId) → ∀ c ∈ [Instr.announceReceive m viaMgmt,
     .fanReceive m, .ackReceive m, .wpReportReceive m, .syncReceive m cap txCap, .delayReqReceive m cap, .delayRespReceive m,
     .collectReceive m, .replyReceive m, .eventMessageReceive m], exec c s = .next (s.bump Reg.merMsgBad))) ∧
  (∀ (m : MerMsg) (viaMgmt sf sb : Bool) (ti pr ro gr : Nat) (s : State),
   s.mer.role ≠ 0 →
   s.merFor m = true →
   m.body = .announce ti pr ro gr sf sb →
   (m.src ≠ s.devId → Runs (.announceReceive m viaMgmt) s fun t =>
   t.heardOf m.src = some ⟨ti, pr, ro, m.strap, gr, sf, sb, s.raw, viaMgmt⟩ ∧ SameBut State.heardOf [m.src] s t ∧
   (t.mer.role, t.mer.mgr, t.mer.standby) = t.roles ∧ t.dev = s.dev ∧ t.raw = s.raw ∧
   (ro = 3 → t.mer.mgr = some m.src → t.mer.seenMgr = some (m.src, m.nonce))) ∧
   (m.src = s.devId → exec (.announceReceive m viaMgmt) s = .next s)) ∧
  (∀ (d : Fin 1024) (at' : Raw) (h : Heard) (s u : State),
   u = s.advance at' →
   u.heardOf d.val = some h →
   (h.at'.toNat + u.merLoss * u.announceMs * 65536000000 ≤ u.raw.toNat → Runs (.heardTimeout d at') s fun t =>
   t.heardOf d.val = none ∧ SameBut State.heardOf [d.val] u t ∧ (t.mer.role, t.mer.mgr, t.mer.standby) = t.roles) ∧
   (u.raw.toNat < h.at'.toNat + u.merLoss * u.announceMs * 65536000000 → exec (.heardTimeout d at') s = .next u)) ∧
  (∀ (d : Fin 1024) (at' : Raw) (s u : State),
   u = s.advance at' →
   u.heardOf d.val = none →
   exec (.heardTimeout d at') s = .next u) ∧
  (∀ (at' : Raw) (s u : State),
   u = s.advance at' →
   (u.mer.role = 0 ∨ u.dev.mode = .safe ∨ u.periodPassed u.mer.announced (1000 * u.announceMs) = false → exec (.announceSend
     at') s = .next u) ∧
   (u.mer.role ≠ 0 → u.dev.mode ≠ .safe → u.periodPassed u.mer.announced (1000 * u.announceMs) = true → Runs (.announceSend at')
     s fun t =>
   t = { u with mer := { u.mer with announced := some u.raw }, rhb := { u.rhb with groups := t.rhb.groups }, out := t.out } ∧
     u.out <+: t.out ∧
   ([24, 25].all (fun i => !u.bit (Reg.netPortStatus i) 31 ||
   t.out.contains (.meridian (49 + i) (u.merFrame (sealMer { u.merMsg 0 0 u.announceBody with bcast := true })))) = true))) ∧
  (∀ (m : MerMsg) (slot : Nat) (wp : Bool) (pairs : List (Nat × Word)) (s u : State),
   s.mer.role ≠ 0 →
   s.merFor m = true →
   m.body = .fan slot wp pairs →
   s.dev.mode ≠ .safe →
   u = s.seePair m →
   (u.mer.last = some m → exec (.fanReceive m) s = .next (u.sendMer m.src (u.merMsg m.src m.seq (.ack u.mer.lastStatus)))) ∧
   (u.mer.last ≠ some m → m.seq ≠ BitVec.ofNat 32 u.mer.expect → m.seq ≠ 0 ∨ pairs ≠ [] → exec (.fanReceive m) s = .next u) ∧
   (u.mer.last ≠ some m → m.seq = 0 → pairs = [] → Runs (.fanReceive m) s fun t =>
   t.mer = { u.mer with expect := 1, last := some m, lastStatus := 0 } ∧ RegsBut [] s t) ∧
   (u.mer.last ≠ some m → m.seq = BitVec.ofNat 32 u.mer.expect → m.seq ≠ 0 → pairs = [] → Runs (.fanReceive m) s fun t =>
   t.mer =
     { u.mer with expect := u.mer.expect + 1, last := some m, lastStatus := 0, wpSlots := if wp && !u.mer.wpSlots.contains slot then u.mer.wpSlots ++ [slot] else u.mer.wpSlots }
     ∧ RegsBut [] s t) ∧
   (u.mer.last ≠ some m → m.seq = BitVec.ofNat 32 u.mer.expect → (pairs.any fun p => fanRefuses p.1) = true → Runs (.fanReceive
     m) s fun t =>
   t.mer = { u.mer with expect := u.mer.expect + 1, last := some m, lastStatus := 1 } ∧ t.rd Reg.merFanRefused = satAdd (s.rd
     Reg.merFanRefused) 1 ∧
   RegsBut [Reg.merFanRefused] s t ∧ t.out = (u.sendMer m.src (u.merMsg m.src m.seq (.ack 1))).out)) ∧
  (∀ (m : MerMsg) (slot a b : Nat) (wp : Bool) (v x : Word) (s u w : State),
   s.mer.role ≠ 0 →
   s.merFor m = true →
   s.dev.mode ≠ .safe →
   u = s.seePair m →
   u.mer.last ≠ some m →
   m.seq = BitVec.ofNat 32 u.mer.expect →
   fanRefuses a = false →
   w = (u.wpWatch slot wp).regWrite a v true →
   (m.body = .fan slot wp [(a, v)] → exec (.fanReceive m) s =
   .next (State.sendAck { w with mer := { w.mer with expect := u.mer.expect + 1, last := some m, lastStatus := 0 } } m)) ∧
   (m.body = .fan slot wp [(a, v), (b, x)] → fanRefuses b = false → exec (.fanReceive m) s =
   .next (State.sendAck
     { (w.elapse 1).regWrite b x true with mer := { ((w.elapse 1).regWrite b x true).mer with expect := u.mer.expect + 1, last := some m, lastStatus := 0 } }
     m))) ∧
  (∀ (m : MerMsg) (slot : Nat) (wp : Bool) (pairs : List (Nat × Word)) (offs : List Nat) (s : State),
   s.mer.role ≠ 0 →
   s.merFor m = true →
   s.dev.mode = .safe →
   (m.body = .fan slot wp pairs → exec (.fanReceive m) s = .next s) ∧ (m.body = .collect offs → exec (.collectReceive m) s =
     .next s)) ∧
  (∀ (val : Word) (s : State),
   (bit val 31 = true → s.mer.role ≠ 3 → Runs (.fanGo val) s fun t =>
   t.bit Reg.merFanStatus 31 = true ∧ t.fld Reg.merFanStatus 27 24 = 1 ∧ OnlyRegs [Reg.merFanCmd, Reg.merFanStatus] s t) ∧
   (bit val 31 = true → s.mer.role = 3 → 256 ≤ s.mer.open'.length → Runs (.fanGo val) s fun t =>
   t.bit Reg.merFanStatus 31 = true ∧ t.fld Reg.merFanStatus 27 24 = 2 ∧ OnlyRegs [Reg.merFanCmd, Reg.merFanStatus] s t) ∧
   (bit val 31 = true → fld val 28 27 = 1 → s.mer.role = 3 → s.mer.open'.length < 256 → s.fld Reg.merFanDest 9 0 ≠ s.devId →
   s.isProtected (s.fld Reg.merFanDest 9 0) = false → s.tgt (s.fld Reg.merFanDest 9 0) = {} → (∀ r ∈ s.mer.open', r ≠ []) → Runs
     (.fanGo val) s fun t =>
   t.mer.open' = s.mer.open' ++ [[s.fld Reg.merFanDest 9 0]] ∧ (t.tgt (s.fld Reg.merFanDest 9 0)).seq = 1 ∧
   (t.tgt (s.fld Reg.merFanDest 9 0)).flight = some (s.merMsg (s.fld Reg.merFanDest 9 0) 0 (.fan (s.fld Reg.merFanDest 24 16)
     (bit val 29) (s.fanPairs (fld val 26 24 + 1))), 0, s.raw) ∧
   t.bit Reg.merFanStatus 31 = false ∧ t.fld Reg.merFanStatus 8 0 = s.mer.open'.length + 1 ∧ RegsBut [Reg.merFanCmd,
     Reg.merFanStatus] s t) ∧
   (bit val 31 = true → fld val 28 27 = 1 → s.mer.role = 3 ∧ s.mer.open'.length < 256 → s.fld Reg.merFanDest 9 0 = s.devId →
   s.isProtected s.devId = false → (∀ r ∈ s.mer.open', r ≠ []) → ((s.fanPairs (fld val 26 24 + 1)).any fun p => fanRefuses p.1)
     = true →
   Runs (.fanGo val) s fun t =>
   t.mer.open' = s.mer.open' ∧ (t.tgt s.devId).refused = true ∧ t.rd Reg.merFanDone = s.rd Reg.merFanDone + 1 ∧
   t.rd Reg.merFanRefused = satAdd (s.rd Reg.merFanRefused) 1 ∧ RegsBut [Reg.merFanCmd, Reg.merFanStatus, Reg.merFanDone,
     Reg.merFanRefused] s t ∧ t.out = s.out) ∧
   (bit val 31 = false → Runs (.fanGo val) s fun t => OnlyRegs [Reg.merFanCmd] s t)) ∧
  (∀ (m f : MerMsg) (n status slot : Nat) (a : Raw) (wp : Bool) (pairs : List (Nat × Word)) (s : State),
   s.mer.role = 3 →
   s.merFor m = true →
   m.body = .ack status →
   (s.tgt m.src).flight = some (f, n, a) →
   f.body = .fan slot wp pairs →
   (f.seq = m.seq → (s.tgt m.src).queue = [] → Runs (.ackReceive m) s fun t =>
   t.tgt m.src = { s.tgt m.src with flight := none, refused := status == 1 } ∧ SameBut State.tgt [m.src] s t ∧ t.out = s.out ∧
   (pairs ≠ [] → t.mer.open' = (eraseFirst m.src s.mer.open').filter fun r => !r.isEmpty) ∧
   RegsBut [Reg.merFanDone, Reg.merFanStatus] s t) ∧
   (f.seq ≠ m.seq → exec (.ackReceive m) s = .next s)) ∧
  (∀ (m : MerMsg) (s : State),
   s.mer.role ≠ 0 →
   s.merFor m = true →
   s.mer.role ≠ 3 ∨ (s.tgt m.src).flight = none →
   exec (.ackReceive m) s = .next s ∧ exec (.replyReceive m) s = .next s) ∧
  (∀ (d : Fin 1024) (at' a : Raw) (m : MerMsg) (n : Nat) (s u : State),
   u = s.advance at' →
   (u.tgt d.val).flight = some (m, n, a) →
   (u.mer.role = 3 → u.reached (a + BitVec.ofNat 96 (u.retryUs * 65536000)) = true → n < u.merRetries → Runs (.fanRetry d at') s
     fun t =>
   t.tgt d.val = { u.tgt d.val with flight := some (m, n + 1, u.raw) } ∧ t.rd Reg.merRetx = satAdd (u.rd Reg.merRetx) 1 ∧
     RegsBut [Reg.merRetx] u t ∧
   t.out = (u.sendMer d.val m).out ∧ t.mer.open' = u.mer.open') ∧
   (u.mer.role = 3 → u.reached (a + BitVec.ofNat 96 (u.retryUs * 65536000)) = true → u.merRetries ≤ n → Runs (.fanRetry d at') s
     fun t =>
   t.tgt d.val = { u.tgt d.val with unreached := true, flight := none, queue := [] } ∧ t.rd Reg.merUnreached = satAdd (u.rd
     Reg.merUnreached) 1 ∧
   t.mer.open' = (u.mer.open'.map fun r => r.erase d.val).filter (fun r => !r.isEmpty) ∧ Raised (leafOf 18 1) t ∧
   t.mer.collect = (u.mer.collect.bind fun l => if l.erase d.val = [] then none else some (l.erase d.val))) ∧
   (u.mer.role ≠ 3 ∨ u.reached (a + BitVec.ofNat 96 (u.retryUs * 65536000)) = false → exec (.fanRetry d at') s = .next u)) ∧
  (∀ (d : Fin 1024) (at' : Raw) (s u : State),
   u = s.advance at' →
   (u.tgt d.val).flight = none →
   exec (.fanRetry d at') s = .next u) ∧
  (∀ (val : Word) (s : State),
   (bit val 31 = true → s.mer.role = 3 → s.tgt (fld val 9 0) = { unreached := true } → Runs (.targetResume val) s fun t =>
   t.tgt (fld val 9 0) = { seq := 1, flight := some (s.merMsg (fld val 9 0) 0 (.fan 0 false []), 0, s.raw) } ∧ RegsBut [] s t ∧
   t.out = (s.sendMer (fld val 9 0) (s.merMsg (fld val 9 0) 0 (.fan 0 false []))).out) ∧
   (bit val 31 = false ∨ s.mer.role ≠ 3 ∨ (s.tgt (fld val 9 0)).unreached = false → exec (.targetResume val) s = .next s)) ∧
  (∀ (m : MerMsg) (slot st : Nat) (late : Word) (s : State),
   s.mer.role ≠ 0 →
   s.merFor m = true →
   m.body = .wpReport slot st late →
   (s.mer.role = 3 → Runs (.wpReportReceive m) s fun t =>
   t.rd (Reg.merWpResultW0 m.src) = BitVec.ofNat 32 (2 ^ 31 + st % 4 * 2 ^ 28 + slot % 512) ∧ t.rd (Reg.merWpResultW1 m.src) =
     late ∧
   OnlyRegs [Reg.merWpResultW0 m.src, Reg.merWpResultW1 m.src] s t) ∧
   (s.mer.role ≠ 3 → exec (.wpReportReceive m) s = .next s)) ∧
  (∀ (at' : Raw) (d p v : Nat) (s u : State),
   u = s.advance at' →
   (u.mer.role ≠ 3 ∨ u.bit Reg.merTimeCfg 31 = false ∨ u.periodPassed u.mer.exchanged (1000 * u.timePeriodMs) = false →
   exec (.timeExchange at') s = .next u) ∧
   (u.mer.role = 3 → u.bit Reg.merTimeCfg 31 = true → u.periodPassed u.mer.exchanged (1000 * u.timePeriodMs) = true →
   Runs (.timeExchange at') s fun t =>
   t = { u with mer := { u.mer with exchanged := some u.raw }, rhb := { u.rhb with groups := t.rhb.groups }, out := t.out } ∧
     u.out <+: t.out ∧
   (u.heardDevs.contains d = true → u.dev.mode ≠ .safe → u.merPath d = some (some p) → v < 16 → u.bit Reg.merTimeCfg v = true →
   t.out.contains (.meridian p (u.merFrame (u.merMsg d 0 (.sync v (u.viewTimeAt v (captureRes at')))))) = true))) ∧
  (∀ (m : MerMsg) (v : Nat) (t1 cap txCap : Raw) (s u : State),
   s.mer.role ≠ 0 →
   s.merFor m = true →
   m.body = .sync v t1 →
   u = s.seePair m →
   (s.merWorker = true → Runs (.syncReceive m cap txCap) s fun t =>
   t.mer = { u.mer with sync := u.mer.sync.set (fun _ => none) (v % 16) (some (t1, s.viewTimeAt (v % 16) (captureRes cap))) } ∧
     RegsBut [] s t ∧
   t.out = (u.sendMer m.src (u.merMsg m.src 0 (.delayReq v (s.viewTimeAt (v % 16) (captureRes txCap))))).out ∧ t.chrono =
     s.chrono) ∧
   (s.merWorker = false → exec (.syncReceive m cap txCap) s = .next s)) ∧
  (∀ (m : MerMsg) (v : Nat) (t3 cap : Raw) (s : State),
   s.mer.role ≠ 0 →
   s.merFor m = true →
   m.body = .delayReq v t3 →
   (s.mer.role = 3 → exec (.delayReqReceive m cap) s =
   .next (s.sendMer m.src (s.merMsg m.src 0 (.delayResp v (s.viewTimeAt (v % 16) (captureRes cap)) t3)))) ∧
   (s.mer.role ≠ 3 → exec (.delayReqReceive m cap) s = .next s)) ∧
  (∀ (m : MerMsg) (v : Nat) (t1 t2 t3 t4 : Raw) (s : State),
   s.mer.role ≠ 0 →
   s.merFor m = true →
   m.body = .delayResp v t4 t3 →
   (s.mer.sync.get (fun _ => none) (v % 16) = some (t1, t2) → Runs (.delayRespReceive m) s fun t =>
   t.mer.timeRes.get (fun _ => (0, 0, 0)) (v % 16) =
   (BitVec.ofInt 64 (((t2 - t1).toInt - (t4 - t3).toInt).tdiv 2), BitVec.ofInt 32 (((t2 - t1).toInt + (t4 - t3).toInt).tdiv 2),
   (s.mer.timeRes.get (fun _ => (0, 0, 0)) (v % 16)).2.2 + 1) ∧
   t.mer.sync.get (fun _ => none) (v % 16) = none ∧ t.chrono = s.chrono ∧ RegsBut [] s t ∧
   SameBut (fun x k => x.mer.timeRes.get (fun _ => (0, 0, 0)) k) [v % 16] s t) ∧
   (s.mer.sync.get (fun _ => none) (v % 16) = none → exec (.delayRespReceive m) s = .next s)) ∧
  (∀ (val : Word) (s : State),
   (bit val 31 = true → s.mer.role ≠ 3 ∨ s.bit Reg.merCollStatus 31 = true → Runs (.collectGo val) s fun t =>
   t.bit Reg.merCollStatus 30 = true ∧ OnlyRegs [Reg.merCollCmd, Reg.merCollStatus] s t) ∧
   (bit val 31 = true → fld val 28 27 = 1 → s.mer.role = 3 → s.bit Reg.merCollStatus 31 = false → s.fld Reg.merFanDest 9 0 ≠
     s.devId →
   s.tgt (s.fld Reg.merFanDest 9 0) = {} → Runs (.collectGo val) s fun t =>
   t.mer.collect = some [s.fld Reg.merFanDest 9 0] ∧ t.fld Reg.merCollStatus 31 30 = 2 ∧
   t.fld Reg.merCollStatus 15 0 = (s.fld Reg.merCollStatus 15 0 + 1) % 65536 ∧ RegsBut [Reg.merCollCmd, Reg.merCollStatus] s t ∧
   (t.tgt (s.fld Reg.merFanDest 9 0)).flight = some (s.merMsg (s.fld Reg.merFanDest 9 0) 0 (.collect (s.collOffsets (fld val 26
     24 + 1))), 0, s.raw)) ∧
   (bit val 31 = false → Runs (.collectGo val) s fun t => OnlyRegs [Reg.merCollCmd] s t)) ∧
  (∀ (m : MerMsg) (a : Nat) (s u w : State),
   s.mer.role ≠ 0 →
   s.merFor m = true →
   m.body = .collect [a] →
   s.dev.mode ≠ .safe →
   u = s.seePair m →
   w = u.regRead a →
   (u.mer.last ≠ some m → m.seq = BitVec.ofNat 32 u.mer.expect → Runs (.collectReceive m) s fun t =>
   t.mer = { w.mer with expect := u.mer.expect + 1, last := some m, lastReply := [w.rdata] } ∧ t.rdata = s.rdata ∧ t.regs =
     w.regs) ∧
   (u.mer.last = some m → exec (.collectReceive m) s = .next (u.sendMer m.src (u.merMsg m.src m.seq (.reply u.mer.lastReply))))
     ∧
   (u.mer.last ≠ some m → m.seq ≠ BitVec.ofNat 32 u.mer.expect → exec (.collectReceive m) s = .next u)) ∧
  (∀ (m f : MerMsg) (n : Nat) (a : Raw) (offs l : List Nat) (vals : List Word) (s : State),
   s.mer.role = 3 →
   s.merFor m = true →
   m.body = .reply vals →
   (s.tgt m.src).flight = some (f, n, a) →
   f.body = .collect offs →
   s.mer.collect = some l →
   (f.seq = m.seq → l.contains m.src = true → (s.tgt m.src).queue = [] → Runs (.replyReceive m) s fun t =>
   t.tgt m.src = { s.tgt m.src with flight := none } ∧ SameBut State.tgt [m.src] s t ∧ RegsBut [Reg.merCollStatus] s t ∧
   t.mer.collect = (if l.erase m.src = [] then none else some (l.erase m.src)) ∧ t.out = (s.collRecord m.src vals).out) ∧
   (f.seq ≠ m.seq ∨ l.contains m.src = false → exec (.replyReceive m) s = .next s)) ∧
  (∀ (m : MerMsg) (leaf view : Nat) (ns32 seq : Word) (subns : Byte) (ws : List Word) (s : State),
   s.mer.role ≠ 0 →
   s.merFor m = true →
   m.body = .event leaf view ns32 subns seq ws →
   (s.mer.role = 3 → s.obs.buf.length < evtBufMax → exec (.eventMessageReceive m) s =
   .next { s with obs := { s.obs with seq := s.obs.seq + 1, buf := s.obs.buf ++ [⟨leaf, true, view, ns32, subns, m.src, s.obs.seq, ws⟩] } })
     ∧
   (s.mer.role = 3 → evtBufMax ≤ s.obs.buf.length → Runs (.eventMessageReceive m) s fun t =>
   t.obs = { s.obs with seq := s.obs.seq + 1 } ∧ t.rd Reg.evtBufDrop = satAdd (s.rd Reg.evtBufDrop) 1 ∧
   RegsBut [Reg.evtBufDrop, Reg.evtStatus (leafBufOverflow / 32)] s t) ∧
   (s.mer.role ≠ 3 → exec (.eventMessageReceive m) s = .next s))

/-! ### Integrity (chapter 17) -/

/-- With SCRUB_EN a scrub error is counted by KIND, logged while the log has room and counted as dropped when it is full, and raises
its event; KIND 5 restarts the counter from 0, KIND 7 is fatal; a clean read does nothing (R345 to R347). ERR_LOG_READ removes
the oldest record and captures it, 0 when none. ERROR_INJECT_ARM stores KIND and COUNT and arms (R348). UNIT_RESTART loads INIT
XOR FOLD and clears BYTES, UNIT_FEED takes four bytes, UNIT_FEED1 one, UNIT_RUNNING_WRITE replaces R; while the unit's scan runs
each only sets WRITE_IGNORED (R350, R351). CHECK_SCAN_END feeds the range and ends DONE, or FAIL with REASON 8 when COMPARE
differs (R353). OPERATION_READ_FAILURE ends a running operation with REASON 5 or 4, and does nothing to one that does not run
(R352). Choices of the model in it: log entries 13, 14. -/
def Obligations.ErrorsAndCheckValuesAreCounted : Prop :=
  (∀ (kind : Fin 10) (uncorr : Bool) (nbits mac : Nat) (addr : BitVec 64) (s : State),
   (s.bit Reg.chkCtrl 30 = true → uncorr = false → nbits ≠ 0 → s.chk.log.length < 1024 → Runs (.patrolScrubRead kind uncorr
     nbits mac addr) s fun t =>
   t.rd (Reg.chkMemCorr kind.val) = satAdd (s.rd (Reg.chkMemCorr kind.val)) 1 ∧ Raised (leafOf 16 0) t ∧
   t.chk.log = s.chk.log ++ [⟨errHdr kind.val false nbits mac, BitVec.ofNat 32 addr.toNat, BitVec.ofNat 32 (addr.toNat / 2 ^
     32), ns32Of (s.viewTime 0 s.raw)⟩] ∧
   RegsBut (Reg.chkMemCorr kind.val :: eventRegs (leafOf 16 0)) s t ∧ t.dev = s.dev) ∧
   (s.bit Reg.chkCtrl 30 = true → uncorr = false → nbits ≠ 0 → 1024 ≤ s.chk.log.length → Runs (.patrolScrubRead kind uncorr
     nbits mac addr) s fun t =>
   t.chk.log = s.chk.log ∧ t.rd Reg.chkErrDrop = satAdd (s.rd Reg.chkErrDrop) 1 ∧ Raised (leafOf 16 2) t ∧ Raised (leafOf 16 0)
     t) ∧
   (s.bit Reg.chkCtrl 30 = true → uncorr = true → kind.val ≠ 7 → Runs (.patrolScrubRead kind uncorr nbits mac addr) s fun t =>
   t.rd (Reg.chkMemUncorr kind.val) = satAdd (s.rd (Reg.chkMemUncorr kind.val)) 1 ∧ Raised (leafOf 16 1) t ∧ t.dev = s.dev ∧
   (kind.val = 5 → t.cntGet addr.toNat = 0) ∧ SameBut State.cntGet (if kind.val = 5 then [addr.toNat] else []) s t) ∧
   (s.bit Reg.chkCtrl 30 = true → uncorr = true → kind.val = 7 → s.dev.mode ≠ .safe → Runs (.patrolScrubRead kind uncorr nbits
     mac addr) s fun t =>
   t.dev.mode = .safe ∧ t.rd Reg.devModeCause = 0x206 ∧ Raised (leafOf 16 1) t) ∧
   (s.bit Reg.chkCtrl 30 = false ∨ (uncorr = false ∧ nbits = 0) → exec (.patrolScrubRead kind uncorr nbits mac addr) s = .next
     s)) ∧
  (∀ (r : ErrRec) (rs : List ErrRec) (s : State),
   (s.chk.log = r :: rs → Runs .errLogRead s fun t =>
   t.chk = { s.chk with log := rs } ∧ t.rdata = r.hdr ∧ t.rd Reg.chkErrAddrLo = r.lo ∧ t.rd Reg.chkErrAddrHi = r.hi ∧ t.rd
     Reg.chkErrTs = r.ts ∧
   RegsBut [Reg.chkErrAddrLo, Reg.chkErrAddrHi, Reg.chkErrTs] s t) ∧
   (s.chk.log = [] → exec .errLogRead s = .next { s with rdata := 0 })) ∧
  (∀ (val : Word) (s : State),
   Runs (.errorInjectArm val) s fun t =>
   t.bit Reg.chkInj 30 = (bit val 31 || s.bit Reg.chkInj 30) ∧ t.fld Reg.chkInj 27 24 = fld val 27 24 ∧ OnlyRegs [Reg.chkInj] s
     t) ∧
  (∀ (u : Fin 8) (val hi : Word) (s : State),
   s.busy (.scan u.val) = false →
   (bit val 31 = true → Runs (.unitRestart u val) s fun t =>
   t.rd64 (Reg.chkUnitRunningLo u.val) = ((s.unitParams u.val).init ^^^ s.unitFold u.val) % 2 ^ 64 ∧ t.rd64 (Reg.chkUnitBytesLo
     u.val) = 0 ∧
   OnlyRegs [Reg.chkUnitRunningLo u.val, Reg.chkUnitRunningHi u.val, Reg.chkUnitBytesLo u.val, Reg.chkUnitBytesHi u.val] s t) ∧
   (bit val 31 = false → exec (.unitRestart u val) s = .next s) ∧
   (Runs (.unitFeed u val) s fun t =>
   t.rd64 (Reg.chkUnitRunningLo u.val) = crcFeed (s.unitParams u.val) (s.rd64 (Reg.chkUnitRunningLo u.val)) (leBytes 4
     val.toNat) % 2 ^ 64 ∧
   t.rd64 (Reg.chkUnitBytesLo u.val) = (s.rd64 (Reg.chkUnitBytesLo u.val) + 4) % 2 ^ 64 ∧
   OnlyRegs [Reg.chkUnitRunningLo u.val, Reg.chkUnitRunningHi u.val, Reg.chkUnitBytesLo u.val, Reg.chkUnitBytesHi u.val] s t) ∧
   (Runs (.unitFeed1 u val) s fun t =>
   t.rd64 (Reg.chkUnitRunningLo u.val) = crcFeed (s.unitParams u.val) (s.rd64 (Reg.chkUnitRunningLo u.val)) (leBytes 1
     val.toNat) % 2 ^ 64 ∧
   t.rd64 (Reg.chkUnitBytesLo u.val) = (s.rd64 (Reg.chkUnitBytesLo u.val) + 1) % 2 ^ 64 ∧
   OnlyRegs [Reg.chkUnitRunningLo u.val, Reg.chkUnitRunningHi u.val, Reg.chkUnitBytesLo u.val, Reg.chkUnitBytesHi u.val] s t) ∧
   (Runs (.unitRunningWrite u hi) s fun t =>
   t.rd64 (Reg.chkUnitRunningLo u.val) = ((s.holdOf (Reg.chkUnitRunningLo u.val)).toNat + 2 ^ 32 * hi.toNat) % 2 ^ (s.unitParams
     u.val).width % 2 ^ 64 ∧
   OnlyRegs [Reg.chkUnitRunningLo u.val, Reg.chkUnitRunningHi u.val] s t)) ∧
  (∀ (u : Fin 8) (val hi : Word) (s : State),
   s.busy (.scan u.val) = true →
   ∀ c ∈ [Instr.unitRestart u (val ||| 0x80000000), .unitFeed u val, .unitFeed1 u val, .unitRunningWrite u hi],
   Runs c s fun t => t.bit (Reg.chkUnitStatus u.val) 2 = true ∧ OnlyRegs [Reg.chkUnitStatus u.val] s t) ∧
  (∀ (u : Fin 8) (data : List Byte) (src : Nat) (cmp : Bool) (s : State),
   s.chk.scan.get (fun _ => none) u.val = some (src, cmp) →
   s.bit (Reg.chkUnitCfg u.val) 8 = false →
   (cmp = false → Runs (.checkScanEnd u data) s fun t =>
   t.rd64 (Reg.chkUnitRunningLo u.val) = crcFeed (s.unitParams u.val) (s.rd64 (Reg.chkUnitRunningLo u.val)) data % 2 ^ 64 ∧
   t.busy (.scan u.val) = false ∧ t.fld (opStat (.scan u.val)) 23 0 = data.length / 1024 % 2 ^ 24 ∧
   t.chk.scan.get (fun _ => none) u.val = none ∧ t.chk.log = s.chk.log) ∧
   (cmp = true → Runs (.checkScanEnd u data) s fun t =>
   t.busy (.scan u.val) = false ∧ t.chk.scan.get (fun _ => none) u.val = none ∧
   (t.unitResult u.val = s.rd64 (Reg.chkUnitExpectLo u.val) % 2 ^ (s.unitParams u.val).width →
   t.fld (Reg.chkUnitStatus u.val) 1 0 = 1 ∧ t.bit (opStat (.scan u.val)) 30 = true) ∧
   (t.unitResult u.val ≠ s.rd64 (Reg.chkUnitExpectLo u.val) % 2 ^ (s.unitParams u.val).width →
   t.fld (Reg.chkUnitStatus u.val) 1 0 = 2 ∧ t.bit (opStat (.scan u.val)) 30 = false))) ∧
  (∀ (u : Fin 8) (data : List Byte) (s : State),
   s.chk.scan.get (fun _ => none) u.val = none →
   exec (.checkScanEnd u data) s = .next s) ∧
  (∀ (op : LongOp) (host : Bool) (addr : BitVec 64) (s : State),
   op ∈ allLongOps →
   (s.busy op = false → exec (.operationReadFailure op host addr) s = .next s) ∧
   (s.busy op = true → Runs (.operationReadFailure op host addr) s fun t =>
   t.busy op = false ∧ t.bit (opStat op) 30 = false ∧ (host = false → Raised (leafOf 16 1) t) ∧ (op ≠ .memoryBist → t.dev.mode =
     s.dev.mode)))

/-! ### Observability (chapter 18) -/

/-- EVENT_RECORD_DRAIN writes the oldest record at HEAD in one posted write with room and PCIe up, PHASE toggling at each wrap
(R358, R359). EVENT_STATUS_CLEAR clears the bits written 1; EVENT_RING_CONS_WRITE reports records consumed; EVENT_COALESCE_TIMER
requests the vector after COAL_US (R360). MSIX_SEND sends a pending unsent unmasked vector once, VECTOR_ACK clears its SENT
(R361). COUNTER_PAIR_READ captures a pair, with CLEAR zeroing it (R363). LOGBOOK_EXPORT starts at a multiple of PERIOD_MS, or
counts an overrun or a lack of buffers; LOGBOOK_EXPORT_COMPLETE writes data then descriptor, clears what CLEAR selects and
raises leaf 673 (R364). THRESHOLD_CONFIG_WRITE zeroes the count (R365). SLOT_CLEAR zeroes what it names, keeping PENDING (R366).
SAMPLE_CAPTURE delivers the frame in the slot with its skid, waits while the punt path has no room, or counts the loss after 24
slots (R367). Choices of the model in it: log entries 11, 128. -/
def Obligations.EventsVectorsCountersAndExports : Prop :=
  (∀ (r : EvRec) (rs : List EvRec) (n h : Nat) (s : State),
   s.obs.buf = r :: rs →
   n = (s.rd Reg.evtRingSize).toNat →
   h = (s.rd Reg.evtRingHead).toNat →
   6 ≤ n ∧ n ≤ 16 →
   (s.dev.perstLow = false → s.evtRingFull n = false → Runs .eventRecordDrain s fun t =>
   t.obs.buf = rs ∧ (t.rd Reg.evtRingHead).toNat = (h + 1) % 2 ^ n ∧ t.obs.phase = (if (h + 1) % 2 ^ n = 0 then !s.obs.phase
     else s.obs.phase) ∧
   t.obs.since = s.obs.since + 1 ∧ RegsBut [Reg.evtRingHead] s t ∧
   t.out = s.out ++ [.hostWrite (BitVec.ofNat 64 (s.rdWords Reg.evtRingBaseLo 2 + 32 * h)) (recordBytes r s.obs.phase)]) ∧
   (s.dev.perstLow = true ∨ s.evtRingFull n = true → exec .eventRecordDrain s = .next s)) ∧
  (∀ (s : State),
   s.obs.buf = [] ∨ (s.rd Reg.evtRingSize).toNat < 6 ∨ 16 < (s.rd Reg.evtRingSize).toNat →
   exec .eventRecordDrain s = .next s) ∧
  (∀ (g : Fin 40) (val : Word) (s : State),
   (Runs (.eventStatusClear g val) s fun t =>
   t.rd (Reg.evtStatus g.val) = s.rd (Reg.evtStatus g.val) &&& ~~~val ∧ OnlyRegs [Reg.evtStatus g.val] s t) ∧
   (Runs (.eventRingConsWrite val) s fun t => t.fld Reg.evtRingCons 15 0 = fld val 15 0 ∧ OnlyRegs [Reg.evtRingCons] s t)) ∧
  (∀ (at' f : Raw) (s u : State),
   u = s.advance at' →
   u.obs.firstAt = some f →
   u.bit Reg.evtRingCfg 31 = true →
   (u.coalCount ≤ u.obs.since ∨ f.toNat + u.coalUs * 65536000 ≤ u.raw.toNat → exec (.eventCoalesceTimer at') s = .next
     { u with obs := { u.obs with ringReq := true } }) ∧
   (u.obs.since < u.coalCount → u.raw.toNat < f.toNat + u.coalUs * 65536000 → exec (.eventCoalesceTimer at') s = .next u)) ∧
  (∀ (v : Fin 64) (masked : Bool) (s : State),
   (s.vecPending v.val = true → s.obs.sent.getLsbD v.val = false → masked = false → s.dev.perstLow = false → Runs (.msixSend v
     masked) s fun t =>
   t.out = s.out ++ [.msix v.val] ∧ t.obs.sent = s.obs.sent ||| BitVec.ofNat 64 (2 ^ v.val) ∧ RegsBut [] s t ∧
   (s.obs.ringReq = true → s.fld Reg.evtRingCfg 29 24 = v.val → t.obs.ringReq = false ∧ t.obs.since = 0 ∧ t.obs.firstAt = none))
     ∧
   (s.vecPending v.val = false ∨ s.obs.sent.getLsbD v.val = true ∨ masked = true ∨ s.dev.perstLow = true → exec (.msixSend v
     masked) s = .next s)) ∧
  (∀ (val : Word) (s : State),
   (bit val 31 = true → exec (.vectorAck val) s = .next
     { s with obs := { s.obs with sent := s.obs.sent &&& ~~~(BitVec.ofNat 64 (2 ^ fld val 5 0)) } }) ∧
   (bit val 31 = false → exec (.vectorAck val) s = .next s)) ∧
  (∀ (val : Word) (p : Nat) (s : State),
   p = fld val 20 0 →
   bit val 31 = true →
   (bit val 30 = false → Runs (.counterPairRead val) s fun t =>
   t.rdWords (Reg.obsCntData 0) 2 = (s.cntGet (2 * p)).toNat ∧ t.rdWords (Reg.obsCntData 2) 2 = (s.cntGet (2 * p + 1)).toNat ∧
   OnlyRegs [Reg.obsCntSel, Reg.obsCntData 0, Reg.obsCntData 1, Reg.obsCntData 2, Reg.obsCntData 3] s t) ∧
   (bit val 30 = true → Runs (.counterPairReadClear val) s fun t =>
   t.rdWords (Reg.obsCntData 0) 2 = (s.cntGet (2 * p)).toNat ∧ t.rdWords (Reg.obsCntData 2) 2 = (s.cntGet (2 * p + 1)).toNat ∧
   t.cntGet (2 * p) = 0 ∧ t.cntGet (2 * p + 1) = 0 ∧ SameBut State.cntGet [2 * p, 2 * p + 1] s t)) ∧
  (∀ (val : Word) (at' : Raw) (buf : HostBuf) (s : State),
   (Runs (.logbookTailWrite val) s fun t => t.fld Reg.obsLogRingTail 15 0 = fld val 15 0 ∧ OnlyRegs [Reg.obsLogRingTail] s t) ∧
   ((s.advance at').obs.log = none → exec (.logbookExportComplete at' buf) s = .next (s.advance at'))) ∧
  (∀ (at' : Raw) (s u : State),
   u = s.advance at' →
   u.bit Reg.obsLogCtrl 31 = true →
   logMode u.dev.mode = true →
   (u.raw.toNat % (u.logPeriod * 65536000000) = 0 → u.obs.log = none → u.dev.perstLow = false ∧ u.posted Reg.obsLogRingSize
     Reg.obsLogRingHead Reg.obsLogRingTail ≠ 0 →
   exec (.logbookExport at') s = .next
     { u with obs := { u.obs with log := some ⟨u.raw, u.fld Reg.obsLogCtrl 29 24, u.bit Reg.obsLogCtrl 30⟩ } }) ∧
   (u.raw.toNat % (u.logPeriod * 65536000000) = 0 → u.obs.log = none → u.dev.perstLow = true ∨ u.posted Reg.obsLogRingSize
     Reg.obsLogRingHead Reg.obsLogRingTail = 0 →
   Runs (.logbookExport at') s fun t => t.rd Reg.obsLogNobuf = satAdd (u.rd Reg.obsLogNobuf) 1 ∧ Raised 675 t ∧ t.obs.log =
     none) ∧
   (u.raw.toNat % (u.logPeriod * 65536000000) = 0 → u.obs.log.isSome = true → Runs (.logbookExport at') s fun t =>
   t.rd Reg.obsLogOverrun = satAdd (u.rd Reg.obsLogOverrun) 1 ∧ Raised 674 t ∧ t.obs.log = u.obs.log) ∧
   (u.raw.toNat % (u.logPeriod * 65536000000) ≠ 0 → exec (.logbookExport at') s = .next u)) ∧
  (∀ (at' : Raw) (s u : State),
   u = s.advance at' →
   u.bit Reg.obsLogCtrl 31 = false ∨ logMode u.dev.mode = false →
   exec (.logbookExport at') s = .next u) ∧
  (∀ (at' : Raw) (buf : HostBuf) (l : LogRun) (h n : Nat) (s u : State),
   u = s.advance at' →
   u.obs.log = some l →
   h = (u.rd Reg.obsLogRingHead).toNat →
   n = (u.rd Reg.obsLogRingSize).toNat →
   n ≤ 16 →
   Runs (.logbookExportComplete at' buf) s fun t =>
   t.obs.log = none ∧ Raised 673 t ∧ t.rd Reg.obsLogSeq = u.rd Reg.obsLogSeq + 1 ∧ (t.rd Reg.obsLogRingHead).toNat = (h + 1) % 2
     ^ n ∧
   (l.clear = false → t.obs.cnt = u.obs.cnt) ∧ (l.clear = true → t.obs.cnt = u.obs.cnt.keep fun i => !inRegions l.regions i) ∧
   RegsBut (Reg.obsLogSeq :: Reg.obsLogRingHead :: eventRegs 673) u t ∧
   (u.out ++ [.logbook buf.addr (u.logHeader l (u.rd Reg.obsLogSeq + 1)) (u.obs.cnt.listed fun i _ => inRegions l.regions i),
   .hostWrite (BitVec.ofNat 64 (u.rdWords Reg.obsLogRingBaseLo 2 + 32 * h)) (leBytes 8 buf.addr.toNat ++ leBytes 24 0)]) <+:
     t.out) ∧
  (∀ (k : Fin 16) (level : Bool) (val : Word) (s : State),
   Runs (.thresholdConfigWrite k level val) s fun t =>
   t.rdWords (Reg.obsThrCountLo k.val) 2 = 0 ∧
   OnlyRegs [if level then Reg.obsThrLevel k.val else Reg.obsThrCfg k.val, Reg.obsThrCountLo k.val, Reg.obsThrCountLo k.val + 4]
     s t ∧
   (level = true → t.rd (Reg.obsThrLevel k.val) = (s.wrTyped (Reg.obsThrLevel k.val) val).rd (Reg.obsThrLevel k.val)) ∧
   (level = false → t.rd (Reg.obsThrCfg k.val) = (s.wrTyped (Reg.obsThrCfg k.val) val).rd (Reg.obsThrCfg k.val))) ∧
  (∀ (val : Word) (p : Nat) (s : State),
   p < 9 →
   Runs (.slotClear val) s fun t =>
   t.obs.slots.get (fun _ => {}) p = (if bit val p then
   { clocks := (s.obs.slots.get (fun _ => {}) p).pend, pend := (s.obs.slots.get (fun _ => {}) p).pend, ahead := (s.obs.slots.get (fun _ => {}) p).ahead }
   else s.obs.slots.get (fun _ => {}) p) ∧
   t = { s with obs := { s.obs with slots := t.obs.slots } }) ∧
  (∀ (k : Fin 8) (p n pass slot : Nat) (f : Frame) (x : Sampler) (s : State),
   x = s.obs.samplers.get (fun _ => {}) k.val →
   x.trig = some (p, n) →
   s.obs.inSlot.get (fun _ => none) p = some (f, pass, slot) →
   (slot - n ≤ 24 → Runs (.sampleCapture k true) s fun t =>
   t.obs.samplers.get (fun _ => {}) k.val = { x with trig := none, seq := x.seq + 1 } ∧
   t.rd (Reg.obsSampleCount k.val) = s.rd (Reg.obsSampleCount k.val) + 1 ∧ RegsBut [Reg.obsSampleCount k.val] s t ∧
   t.dev.punts = s.dev.punts ++ [Punt.mk (s.fld (Reg.obsSampleCfg k.val) 21 16) { f with bytes := f.bytes.take 128 } (0x30 +
     k.val)
   (leBytes 1 (slot - n) ++ leBytes 1 k.val ++ leBytes 1 p ++ leBytes 1 pass ++ leBytes 4 x.seq.toNat)]) ∧
   (24 < slot - n → Runs (.sampleCapture k true) s fun t =>
   t.obs.samplers.get (fun _ => {}) k.val = { x with trig := none } ∧ t.dev = s.dev ∧ Raised (680 + k.val) t ∧
   t.rd (Reg.obsSampleDrop k.val) = satAdd (s.rd (Reg.obsSampleDrop k.val)) 1)) ∧
  (∀ (k : Fin 8) (free : Bool) (p n : Nat) (x : Sampler) (s : State),
   x = s.obs.samplers.get (fun _ => {}) k.val →
   x.trig = some (p, n) →
   free = false ∨ s.obs.inSlot.get (fun _ => none) p = none →
   (s.slotNo p - n ≤ 24 → exec (.sampleCapture k free) s = .next s) ∧
   (24 < s.slotNo p - n → Runs (.sampleCapture k free) s fun t =>
   t.obs.samplers.get (fun _ => {}) k.val = { x with trig := none } ∧ t.dev = s.dev ∧ Raised (680 + k.val) t ∧
   t.rd (Reg.obsSampleDrop k.val) = satAdd (s.rd (Reg.obsSampleDrop k.val)) 1)) ∧
  (∀ (k : Fin 8) (free : Bool) (s : State),
   (s.obs.samplers.get (fun _ => {}) k.val).trig = none →
   exec (.sampleCapture k free) s = .next s)

/-! ### Security (chapter 19) -/

/-- GET_NONCE makes a nonce valid unless in the error state; VERIFY uses it up and ends PASS with the role, or FAIL, the eighth
failure in a row beginning a lockout that ends after 60 s; LOGOUT leaves no role (R373). An OTP GO by the Crypto Officer starts
programming; without the role it is denied and refused with cause 1; at its end the fuse has changed or the cause stands (R371,
R374). The pairing key is written and cleared by the User, otherwise the request is denied (R375). A self-test failure sets the
error state (R377). ZEROISATION_START by the Crypto Officer enters SAFE with CAUSE 7 and aborts other operations, ABORT is
ignored; ZEROIZE_N of 1 us or more starts or widens a full one, below 500 ns nothing; step 1 zeroes keys, roles and nonce; the
end clears memory, DONE and ZEROIZED set, the OTP untouched (R378, R379). Choices of the model in it: log entries 19, 21, 23,
133. -/
def Obligations.RolesFusesKeysAndZeroisation : Prop :=
  (∀ (val : Word) (s : State),
   bit val 31 = true →
   fld val 27 24 = 1 →
   (s.sec.error = true → exec (.getNonce val) s = .next s) ∧
   (s.sec.error = false → Runs (.getNonce val) s fun t =>
   (t.sec.nonce.map fun n => n.toNat) = some (t.rdWords (Reg.secAuthNonce 0) 12) ∧ t.sec.role = s.sec.role ∧ t.sec.fails =
     s.sec.fails ∧
   RegsBut ((List.range 12).map Reg.secAuthNonce) s t)) ∧
  (∀ (val : Word) (s : State),
   bit val 31 = true →
   fld val 27 24 = 2 →
   (fld val 1 0 = 0 ∨ fld val 1 0 = 3 ∨ s.sec.locked.isSome = true ∨ s.sec.error = true → Runs (.verify val) s fun t =>
   t.fld Reg.secAuthStatus 31 29 = 1 ∧ t.sec = { s.sec with nonce := none } ∧ RegsBut (Reg.secAuthStatus :: (List.range 12).map
     Reg.secAuthNonce) s t) ∧
   (fld val 1 0 = 1 ∨ fld val 1 0 = 2 → s.sec.locked = none → s.sec.error = false → s.verifyOk (fld val 1 0) = true → Runs
     (.verify val) s fun t =>
   t.fld Reg.secAuthStatus 31 29 = 2 ∧ t.sec = { s.sec with nonce := none, fails := 0, role := fld val 1 0 }) ∧
   (fld val 1 0 = 1 ∨ fld val 1 0 = 2 → s.sec.locked = none → s.sec.error = false → s.verifyOk (fld val 1 0) = false → Runs
     (.verify val) s fun t =>
   t.fld Reg.secAuthStatus 31 29 = 1 ∧ Raised (leafOf 26 2) t ∧
   t.sec = { s.sec with nonce := none, fails := s.sec.fails + 1, locked := if s.sec.fails + 1 = 8 then some s.raw else none } ∧
   (s.sec.fails + 1 = 8 → Raised (leafOf 26 3) t))) ∧
  (∀ (val : Word) (s : State),
   bit val 31 = true →
   fld val 27 24 = 3 →
   exec (.logout val) s = .next { s with sec := { s.sec with role := 0 } }) ∧
  (∀ (val : Word) (s : State),
   bit val 31 = false ∨ fld val 27 24 = 0 ∨ 3 < fld val 27 24 →
   exec (.getNonce val) s = .next s ∧ exec (.verify val) s = .next s ∧ exec (.logout val) s = .next s) ∧
  (∀ (at' : Raw) (s u : State),
   u = s.advance at' →
   u.sec.locked = none →
   exec (.verifyLockoutEnd at') s = .next u) ∧
  (∀ (at' b : Raw) (s u : State),
   u = s.advance at' →
   u.sec.locked = some b →
   (b.toNat + 3932160000000000 ≤ u.raw.toNat → exec (.verifyLockoutEnd at') s = .next
     { u with sec := { u.sec with locked := none, fails := 0 } }) ∧
   (u.raw.toNat < b.toNat + 3932160000000000 → exec (.verifyLockoutEnd at') s = .next u)) ∧
  (∀ (val : Word) (s : State),
   bit val 31 = true →
   s.bit Reg.secOtpProgStatus 31 = false →
   s.isCO = true →
   (Runs (.otpKeyHashProgram val) s fun t =>
   t.sec.otpBusy = some (fld val 27 24, fld val 18 16, fld val 7 0, BitVec.ofNat 384 (ofLe (s.authBytes 0 48))) ∧ t.sec.otp =
     s.sec.otp ∧
   t.rd Reg.secOtpProgStatus = 0x80000000 ∧ RegsBut [Reg.secOtpProg, Reg.secOtpProgStatus] s t) ∧
   (Runs (.otpRevoke val) s fun t =>
   t.sec.otpBusy = some (fld val 27 24, fld val 18 16, fld val 7 0, BitVec.ofNat 384 (ofLe (s.authBytes 0 48))) ∧ t.sec.otp =
     s.sec.otp ∧
   t.rd Reg.secOtpProgStatus = 0x80000000 ∧ RegsBut [Reg.secOtpProg, Reg.secOtpProgStatus] s t) ∧
   (Runs (.otpImgSvnMin val) s fun t =>
   t.sec.otpBusy = some (fld val 27 24, fld val 18 16, fld val 7 0, BitVec.ofNat 384 (ofLe (s.authBytes 0 48))) ∧ t.sec.otp =
     s.sec.otp ∧
   t.rd Reg.secOtpProgStatus = 0x80000000 ∧ RegsBut [Reg.secOtpProg, Reg.secOtpProgStatus] s t) ∧
   (Runs (.otpFwSvnMin val) s fun t =>
   t.sec.otpBusy = some (fld val 27 24, fld val 18 16, fld val 7 0, BitVec.ofNat 384 (ofLe (s.authBytes 0 48))) ∧ t.sec.otp =
     s.sec.otp ∧
   t.rd Reg.secOtpProgStatus = 0x80000000 ∧ RegsBut [Reg.secOtpProg, Reg.secOtpProgStatus] s t)) ∧
  (∀ (val : Word) (s : State),
   bit val 31 = true →
   s.bit Reg.secOtpProgStatus 31 = false →
   s.isCO = false →
   (Runs (.otpKeyHashProgram val) s fun t =>
   t.sec = s.sec ∧ t.rd Reg.secOtpProgStatus = 0x20000001 ∧ t.bit Reg.secStatus 27 = true ∧ t.rd Reg.secDenied = satAdd (s.rd
     Reg.secDenied) 1 ∧
   Raised (leafOf 26 5) t) ∧
   (Runs (.otpRevoke val) s fun t =>
   t.sec = s.sec ∧ t.rd Reg.secOtpProgStatus = 0x20000001 ∧ t.bit Reg.secStatus 27 = true ∧ t.rd Reg.secDenied = satAdd (s.rd
     Reg.secDenied) 1 ∧
   Raised (leafOf 26 5) t) ∧
   (Runs (.otpImgSvnMin val) s fun t =>
   t.sec = s.sec ∧ t.rd Reg.secOtpProgStatus = 0x20000001 ∧ t.bit Reg.secStatus 27 = true ∧ t.rd Reg.secDenied = satAdd (s.rd
     Reg.secDenied) 1 ∧
   Raised (leafOf 26 5) t) ∧
   (Runs (.otpFwSvnMin val) s fun t =>
   t.sec = s.sec ∧ t.rd Reg.secOtpProgStatus = 0x20000001 ∧ t.bit Reg.secStatus 27 = true ∧ t.rd Reg.secDenied = satAdd (s.rd
     Reg.secDenied) 1 ∧
   Raised (leafOf 26 5) t)) ∧
  (∀ (val : Word) (s : State),
   bit val 31 = false ∨ s.bit Reg.secOtpProgStatus 31 = true →
   (Runs (.otpKeyHashProgram val) s fun t => OnlyRegs [Reg.secOtpProg] s t) ∧
   (Runs (.otpRevoke val) s fun t => OnlyRegs [Reg.secOtpProg] s t) ∧
   (Runs (.otpImgSvnMin val) s fun t => OnlyRegs [Reg.secOtpProg] s t) ∧
   (Runs (.otpFwSvnMin val) s fun t => OnlyRegs [Reg.secOtpProg] s t)) ∧
  (∀ (op slot value : Nat) (hash : BitVec 384) (s : State),
   s.sec.otpBusy = some (op, slot, value, hash) →
   (op = 1 → slot < 6 → s.sec.otp.keyHash.getD slot none = none → Runs .otpProgrammingEnd s fun t =>
   t.sec = { s.sec with otpBusy := none, otp := { s.sec.otp with keyHash := setAt s.sec.otp.keyHash slot (some hash) } } ∧ t.rd
     Reg.secOtpProgStatus = 0x40000000 ∧ Raised (leafOf 26 6) t) ∧
   (op = 2 → slot < 4 → s.sec.otp.revoked.getLsbD slot = false → s.sec.otp.revoked ||| BitVec.ofNat 4 (2 ^ slot) ≠ 15 → Runs
     .otpProgrammingEnd s fun t =>
   t.sec = { s.sec with otpBusy := none, otp := { s.sec.otp with revoked := s.sec.otp.revoked ||| BitVec.ofNat 4 (2 ^ slot) } }
     ∧ t.rd Reg.secOtpProgStatus = 0x40000000 ∧ Raised (leafOf 26 6) t) ∧
   (op = 3 → s.sec.otp.imgSvnMin < value → Runs .otpProgrammingEnd s fun t =>
   t.sec = { s.sec with otpBusy := none, otp := { s.sec.otp with imgSvnMin := value } } ∧ t.rd Reg.secOtpProgStatus = 0x40000000
     ∧ Raised (leafOf 26 6) t) ∧
   (op = 4 → s.sec.otp.fwSvnMin < value → Runs .otpProgrammingEnd s fun t =>
   t.sec = { s.sec with otpBusy := none, otp := { s.sec.otp with fwSvnMin := value } } ∧ t.rd Reg.secOtpProgStatus = 0x40000000
     ∧ Raised (leafOf 26 6) t) ∧
   (op = 3 → value ≤ s.sec.otp.imgSvnMin → Runs .otpProgrammingEnd s fun t =>
   t.sec = { s.sec with otpBusy := none } ∧ t.rd Reg.secOtpProgStatus = 0x20000002 ∧ Raised (leafOf 26 6) t) ∧
   (op = 2 → slot < 4 → s.sec.otp.revoked.getLsbD slot = false → s.sec.otp.revoked ||| BitVec.ofNat 4 (2 ^ slot) = 15 → Runs
     .otpProgrammingEnd s fun t =>
   t.sec = { s.sec with otpBusy := none } ∧ t.rd Reg.secOtpProgStatus = 0x20000003 ∧ Raised (leafOf 26 6) t)) ∧
  (∀ (op slot value : Nat) (hash : BitVec 384) (s : State),
   s.sec.otpBusy = some (op, slot, value, hash) →
   op = 0 ∨ 4 < op ∨ (op = 1 ∧ (6 ≤ slot ∨ (s.sec.otp.keyHash.getD slot none).isSome = true)) ∨ (op = 2 ∧ (4 ≤ slot ∨
     s.sec.otp.revoked.getLsbD slot = true)) ∨ (op = 4 ∧ value ≤ s.sec.otp.fwSvnMin) →
   Runs .otpProgrammingEnd s fun t =>
   t.sec = { s.sec with otpBusy := none } ∧ t.rd Reg.secOtpProgStatus = 0x20000002 ∧ Raised (leafOf 26 6) t) ∧
  (∀ (s : State),
   s.sec.otpBusy = none →
   exec .otpProgrammingEnd s = .next s) ∧
  (∀ (val : Word) (s : State),
   (bit val 31 = true → bit val 30 = false → s.isUser = true → s.sec.error = false → Runs (.pairKeyWrite val) s fun t =>
   t.sec = { s.sec with pairKey := some s.pairStaged } ∧ t.bit Reg.secPairCtrl 0 = true ∧ RegsBut [Reg.secPairCtrl,
     Reg.secPairKcv] s t ∧
   t.rd Reg.secPairKcv = Config.kcv s.pairStaged) ∧
   (bit val 30 = true → s.isUser = true → Runs (.pairKeyClear val) s fun t =>
   t.sec = { s.sec with pairKey := none } ∧ t.bit Reg.secPairCtrl 0 = false ∧ t.rd Reg.secPairKcv = 0 ∧
   RegsBut [Reg.secPairCtrl, Reg.secPairKcv] s t) ∧
   (bit val 31 = true ∨ bit val 30 = true → s.isUser = false → ∀ c ∈ [Instr.pairKeyWrite val, .pairKeyClear val], Runs c s fun t
     =>
   t.sec = s.sec ∧ t.bit Reg.secStatus 27 = true ∧ t.rd Reg.secDenied = satAdd (s.rd Reg.secDenied) 1 ∧ Raised (leafOf 26 5) t)) ∧
  (∀ (val : Word) (s : State),
   (bit val 31 = false ∧ bit val 30 = false) ∨ (s.isUser = true ∧ s.sec.error = true ∧ bit val 30 = false) →
   exec (.pairKeyWrite val) s = .next s ∧ exec (.pairKeyClear val) s = .next s) ∧
  (∀ (test : Fin 9) (s : State),
   (Runs (.selftestFailure test) s fun t =>
   t.sec = { s.sec with error := true, approvedTests := false } ∧ Raised (leafOf 26 0) t ∧
   t.bit Reg.secSelftest (if test.val = 8 then 16 else test.val) = (test.val == 8)) ∧
   (s.dev.mode = .commission → s.dev.commPhase ≠ 0 → Runs (.selftestFailure test) s fun t =>
   t.dev.mode = .safe ∧ t.rd Reg.devModeCause = 8 ∧ t.bit Reg.devCommStatus 28 = true ∧ t.fld Reg.devCommStatus 7 4 =
     s.dev.commPhase % 16) ∧
   (s.dev.mode ≠ .commission → Runs (.selftestFailure test) s fun t => t.dev = s.dev ∧ RegsBut (Reg.secSelftest :: eventRegs
     (leafOf 26 0)) s t)) ∧
  (∀ (val : Word) (s : State),
   (bit val 31 = true → bit val 30 = false → s.isCO = true → s.busy .zeroisation = false → s.dev.mode ≠ .safe → Runs
     (.zeroisationStart val) s fun t =>
   t.dev.mode = .safe ∧ t.rd Reg.devModeCause = 7 ∧ t.busy .zeroisation = true ∧ t.sec.zero = some ⟨bit val 0, false⟩ ∧
     t.sec.otp = s.sec.otp ∧
   (∀ o ∈ allLongOps, o = .zeroisation ∨ t.busy o = false)) ∧
   (bit val 31 = true → s.isCO = false → Runs (.zeroisationStart val) s fun t =>
   t.sec = s.sec ∧ t.dev.mode = s.dev.mode ∧ t.bit Reg.secStatus 27 = true ∧ t.rd Reg.secDenied = satAdd (s.rd Reg.secDenied) 1)
     ∧
   (bit val 31 = false → Runs (.zeroisationAbort val) s fun t => OnlyRegs [opCtrl .zeroisation] s t)) ∧
  (∀ (ns : Nat) (held : Bool) (s : State),
   (1000 ≤ ns → s.sec.zero = none → s.dev.mode ≠ .safe → Runs (.zeroizeNAssert ns held) s fun t =>
   t.dev.mode = .safe ∧ t.dev.zeroizeLow = held ∧ t.sec.zero = some ⟨true, false⟩ ∧ t.busy .zeroisation = true ∧ Raised (leafOf
     26 7) t) ∧
   (1000 ≤ ns → s.sec.zero.isSome = true → Runs (.zeroizeNAssert ns held) s fun t =>
   t.sec.zero = s.sec.zero.map (fun z => { z with full := true }) ∧ t.bit Reg.secZeroOpPartial 1 = true ∧ Raised (leafOf 26 7)
     t) ∧
   (ns < 500 → exec (.zeroizeNAssert ns held) s = .next { s with dev := { s.dev with zeroizeLow := held } }) ∧
   (500 ≤ ns → ns < 1000 → s.sec.zero = none → Runs (.zeroizeNAssert ns held) s fun t =>
   t.dev.zeroizeLow = held ∧ (t.sec.zero = none ∨ t.sec.zero = some ⟨true, false⟩))) ∧
  (∀ (z : ZeroRun) (s : State),
   s.sec.zero = some z →
   (z.step1 = false → Runs .zeroisationStep1End s fun t =>
   t.sec.zero = some { z with step1 := true } ∧ t.sec.role = 0 ∧ t.sec.nonce = none ∧ t.sec.pairKey = none ∧ t.sec.pairData = []
     ∧ t.sec.otp = s.sec.otp ∧
   t.xgm.keys = [] ∧ (∀ p ∈ t.net.ports, ∀ e ∈ p.2.sas, e.2.valid = false ∧ e.2.key = 0 ∧ e.2.salt = 0) ∧ t.bit
     Reg.secZeroOpPartial 0 = true ∧ t.rdWords (Reg.secAuthNonce 0) 12 = 0) ∧
   (z.step1 = true → exec .zeroisationStep1End s = .next s) ∧
   (z.step1 = true → Runs .zeroisationEnd s fun t =>
   t.sec.zero = none ∧ t.sec.zeroized = true ∧ t.busy .zeroisation = false ∧ t.bit (opStat .zeroisation) 30 = true ∧
   t.fld (opStat .zeroisation) 23 0 = (if z.full then 98592 else 6144) ∧ Raised (leafOf 26 1) t ∧ t.sec.otp = s.sec.otp ∧
     t.lht.slots = [] ∧
   (z.full = true → t.pool = {} ∧ t.voq = {} ∧ t.sxt = {} ∧ t.obs.cnt = [] ∧ t.dev.structValid = false)) ∧
   (z.step1 = false → exec .zeroisationEnd s = .next s)) ∧
  (∀ (s : State),
   s.sec.zero = none →
   exec .zeroisationStep1End s = .next s ∧ exec .zeroisationEnd s = .next s)
end

