-- ==== Sys2Proof/Laws/Bits.lean ====
section
/-!
SUPPORT. Laws/Bits.lean: bits and fields of a word after a bit or a field is set.
-/
namespace Sys2Proof.Machine

theorem getLsbD_mask {hi lo : Nat} (h : hi < 32) (i : Nat) : (mask hi lo).getLsbD i = (decide (lo ≤ i) && decide (i ≤ hi)) := by
  unfold mask
  simp only [BitVec.getLsbD_ofNat, Nat.testBit_mul_two_pow, Nat.testBit_two_pow_sub_one]
  by_cases h1 : lo ≤ i <;> by_cases h2 : i ≤ hi <;> simp [h1, h2] <;> omega

/-- One bit of a word in which a field was set. -/
theorem getLsbD_setFld (w : Word) {hi lo : Nat} (h : hi < 32) (v i : Nat) :
    (setFld w hi lo v).getLsbD i = if lo ≤ i ∧ i ≤ hi then v.testBit (i - lo) else w.getLsbD i := by
  unfold setFld
  by_cases hi32 : i < 32
  · simp only [BitVec.getLsbD_or, BitVec.getLsbD_and, BitVec.getLsbD_not, getLsbD_mask h, BitVec.getLsbD_ofNat,
      Nat.testBit_mul_two_pow]
    by_cases h1 : lo ≤ i <;> by_cases h2 : i ≤ hi <;> simp [h1, h2, hi32]
  · have h3 : ¬ i ≤ hi := by omega
    have h4 : ∀ x : Word, x.getLsbD i = false := fun x => BitVec.getLsbD_of_ge x i (by omega)
    simp [h4, h3]

theorem bit_setFld_in (w : Word) {hi lo i : Nat} (h : hi < 32) (h1 : lo ≤ i) (h2 : i ≤ hi) (v : Nat) :
    bit (setFld w hi lo v) i = v.testBit (i - lo) := by
  unfold bit; rw [getLsbD_setFld w h, if_pos ⟨h1, h2⟩]

theorem bit_setFld_out (w : Word) {hi lo i : Nat} (h : hi < 32) (h1 : i < lo ∨ hi < i) (v : Nat) :
    bit (setFld w hi lo v) i = bit w i := by
  unfold bit; rw [getLsbD_setFld w h, if_neg (by omega)]

@[simp] theorem bit_setBit_self (w : Word) {i : Nat} (h : i < 32) (b : Bool) : bit (setBit w i b) i = b := by
  unfold setBit
  rw [bit_setFld_in w h (Nat.le_refl i) (Nat.le_refl i)]
  cases b <;> simp

theorem bit_setBit_other (w : Word) {i j : Nat} (h : i < 32) (hj : j ≠ i) (b : Bool) : bit (setBit w i b) j = bit w j :=
  bit_setFld_out w h (by omega) _

/-- One bit of a field read as a number. -/
theorem testBit_fld (w : Word) (hi lo k : Nat) : (fld w hi lo).testBit k = (decide (k < hi + 1 - lo) && w.getLsbD (lo + k)) := by
  unfold fld
  rw [Nat.testBit_mod_two_pow, Nat.testBit_div_two_pow, Nat.add_comm lo k]
  rfl

theorem fld_setFld_self (w : Word) {hi lo : Nat} (h : hi < 32) (hl : lo ≤ hi) (v : Nat) :
    fld (setFld w hi lo v) hi lo = v % 2 ^ (hi + 1 - lo) := by
  apply Nat.eq_of_testBit_eq
  intro k
  rw [testBit_fld, getLsbD_setFld w h, Nat.testBit_mod_two_pow]
  by_cases hk : k < hi + 1 - lo
  · rw [if_pos (by omega)]; simp [hk]
  · simp [hk]

theorem fld_setFld_other (w : Word) {hi lo hi' lo' : Nat} (h : hi < 32) (hd : hi < lo' ∨ hi' < lo) (v : Nat) :
    fld (setFld w hi lo v) hi' lo' = fld w hi' lo' := by
  apply Nat.eq_of_testBit_eq
  intro k
  rw [testBit_fld, testBit_fld, getLsbD_setFld w h]
  by_cases hk : k < hi' + 1 - lo'
  · rw [if_neg (by omega)]
  · simp [hk]

theorem fld_setBit_other (w : Word) {i hi' lo' : Nat} (h : i < 32) (hd : i < lo' ∨ hi' < i) (b : Bool) :
    fld (setBit w i b) hi' lo' = fld w hi' lo' := fld_setFld_other w h hd _

theorem bit_setFld_other (w : Word) {hi lo i : Nat} (h : hi < 32) (h1 : i < lo ∨ hi < i) (v : Nat) :
    bit (setFld w hi lo v) i = bit w i := bit_setFld_out w h h1 v

end Sys2Proof.Machine
end

