-- ==== Sys2Proof/Laws/SMap.lean ====
section
/-!
SUPPORT. Laws/SMap.lean: what the operations of a sparse table do (read after write), and that each keeps the canonical form.
-/
namespace Sys2Proof.Machine

variable {α : Type}

theorem SMap.get_erase_self (d : Nat → α) (m : SMap α) (k : Nat) : (SMap.erase m k).get d k = d k := by
  induction m with
  | nil => rfl
  | cons e m ih =>
    obtain ⟨k', v⟩ := e
    simp only [SMap.erase]
    split
    · exact ih
    · simp [SMap.get, *]

theorem SMap.get_erase_other (d : Nat → α) (m : SMap α) (k j : Nat) (h : j ≠ k) :
    (SMap.erase m k).get d j = m.get d j := by
  induction m with
  | nil => rfl
  | cons e m ih =>
    obtain ⟨k', v⟩ := e
    simp only [SMap.erase]
    split
    · next hk =>
      subst hk
      rw [ih]
      simp [SMap.get, Ne.symm h]
    · simp only [SMap.get, ih]

theorem SMap.get_insert_other (d : Nat → α) (m : SMap α) (k j : Nat) (v : α) (h : j ≠ k) :
    (SMap.insert m k v).get d j = m.get d j := by
  induction m with
  | nil => simp [SMap.insert, SMap.get, Ne.symm h]
  | cons e m ih =>
    obtain ⟨k', v'⟩ := e
    simp only [SMap.insert]
    split
    · simp [SMap.get, Ne.symm h]
    · simp only [SMap.get, ih]

theorem SMap.get_insert_erase (d : Nat → α) (m : SMap α) (k : Nat) (v : α) :
    (SMap.insert (SMap.erase m k) k v).get d k = v := by
  induction m with
  | nil => simp [SMap.erase, SMap.insert, SMap.get]
  | cons e m ih =>
    obtain ⟨k', v'⟩ := e
    simp only [SMap.erase]
    split
    · exact ih
    · next hk =>
      simp only [SMap.insert]
      split
      · simp [SMap.get]
      · simp only [SMap.get, if_neg hk, ih]

/-- Reading the key just written gives the value. -/
@[simp] theorem SMap.get_set_self [DecidableEq α] (d : Nat → α) (m : SMap α) (k : Nat) (v : α) :
    (m.set d k v).get d k = v := by
  unfold SMap.set
  split
  · next h => rw [SMap.get_erase_self, h]
  · exact SMap.get_insert_erase d m k v

/-- Every other key reads as before. -/
theorem SMap.get_set_other [DecidableEq α] (d : Nat → α) (m : SMap α) (k j : Nat) (v : α) (h : j ≠ k) :
    (m.set d k v).get d j = m.get d j := by
  unfold SMap.set
  split
  · exact SMap.get_erase_other d m k j h
  · rw [SMap.get_insert_other d _ k j v h, SMap.get_erase_other d m k j h]

/-- Both at once. -/
theorem SMap.get_set [DecidableEq α] (d : Nat → α) (m : SMap α) (k j : Nat) (v : α) :
    (m.set d k v).get d j = if j = k then v else m.get d j := by
  by_cases h : j = k
  · subst h; simp
  · simp [SMap.get_set_other d m k j v h, h]

/-! ### Canonical form -/

theorem SMap.wfFrom_mono [DecidableEq α] (d : Nat → α) (m : SMap α) {a b : Nat} (hab : a ≤ b)
    (h : SMap.wfFrom d b m = true) : SMap.wfFrom d a m = true := by
  cases m with
  | nil => rfl
  | cons e m =>
    obtain ⟨k, v⟩ := e
    simp only [SMap.wfFrom, Bool.and_eq_true, decide_eq_true_eq] at h ⊢
    exact ⟨⟨by omega, h.1.2⟩, h.2⟩

theorem SMap.wfFrom_erase [DecidableEq α] (d : Nat → α) (m : SMap α) (k a : Nat) (h : SMap.wfFrom d a m = true) :
    SMap.wfFrom d a (SMap.erase m k) = true := by
  induction m generalizing a with
  | nil => rfl
  | cons e m ih =>
    obtain ⟨k', v⟩ := e
    simp only [SMap.wfFrom, Bool.and_eq_true, decide_eq_true_eq] at h
    simp only [SMap.erase]
    split
    · exact ih a (SMap.wfFrom_mono d m (by omega) h.2)
    · simp only [SMap.wfFrom, Bool.and_eq_true, decide_eq_true_eq]
      exact ⟨h.1, ih (k' + 1) h.2⟩

theorem SMap.wfFrom_insert_erase [DecidableEq α] (d : Nat → α) (m : SMap α) (k a : Nat) (v : α) (hv : v ≠ d k)
    (ha : a ≤ k) (h : SMap.wfFrom d a m = true) : SMap.wfFrom d a (SMap.insert (SMap.erase m k) k v) = true := by
  induction m generalizing a with
  | nil => simp [SMap.erase, SMap.insert, SMap.wfFrom, ha, hv]
  | cons e m ih =>
    obtain ⟨k', v'⟩ := e
    simp only [SMap.wfFrom, Bool.and_eq_true, decide_eq_true_eq] at h
    simp only [SMap.erase]
    split
    · exact ih a ha (SMap.wfFrom_mono d m (by omega) h.2)
    · next hk =>
      simp only [SMap.insert]
      split
      · next hlt =>
        have h2 := SMap.wfFrom_erase d m k (k' + 1) h.2
        simp [SMap.wfFrom, ha, hv, h.1.2, Nat.succ_le_of_lt hlt, h2]
      · simp only [SMap.wfFrom, Bool.and_eq_true, decide_eq_true_eq]
        exact ⟨h.1, ih (k' + 1) (by omega) h.2⟩

/-- A write keeps the canonical form. -/
theorem SMap.wf_set [DecidableEq α] (d : Nat → α) (m : SMap α) (k : Nat) (v : α) (h : m.wf d = true) :
    (m.set d k v).wf d = true := by
  unfold SMap.set SMap.wf at *
  split
  · exact SMap.wfFrom_erase d m k 0 h
  · next hv => exact SMap.wfFrom_insert_erase d m k 0 v hv (Nat.zero_le k) h

theorem SMap.wfFrom_filter [DecidableEq α] (d : Nat → α) (p : Nat × α → Bool) (m : SMap α) (a : Nat)
    (h : SMap.wfFrom d a m = true) : SMap.wfFrom d a (m.filter p) = true := by
  induction m generalizing a with
  | nil => rfl
  | cons e m ih =>
    obtain ⟨k, v⟩ := e
    simp only [SMap.wfFrom, Bool.and_eq_true, decide_eq_true_eq] at h
    simp only [List.filter]
    split
    · simp only [SMap.wfFrom, Bool.and_eq_true, decide_eq_true_eq]
      exact ⟨h.1, ih (k + 1) h.2⟩
    · exact ih a (SMap.wfFrom_mono d m (by omega) h.2)

/-- Dropping keys keeps the canonical form. -/
theorem SMap.wf_keep [DecidableEq α] (d : Nat → α) (p : Nat → Bool) (m : SMap α) (h : m.wf d = true) :
    (m.keep p).wf d = true := SMap.wfFrom_filter d _ m 0 h

end Sys2Proof.Machine
end

