-- ==== Sys2Proof/Laws/Keep.lean ====
section
/-!
SUPPORT. Laws/Keep.lean: what every operation keeps: the queue, the fuses, a raw counter at a whole tick, the canonical form of
the register tables, the outputs already sent, the free values already drawn. `Keeps Q s` says that all of it holds of `s` against
the mark `Q`; the files Laws/Keep*.lean carry it through every operation.
-/
namespace Sys2Proof.Machine

/-- What a state is held against; `tick` and `canon` say under what the raw counter's whole tick and the canonical form of the
register tables are kept. -/
structure Mark where
  pending : List Instr
  out : List Output
  drawn : Nat
  otp : Otp
  tick : Prop
  canon : Prop

/-- The facts, of the fields they are about. -/
def KeepsF (q : Mark) (p : List Instr) (r : Raw) (regs hold cap : SMap Word) (out : List Output) (drawn : Nat) (otp : Otp) : Prop :=
  p = q.pending ∧ (q.tick → r.toNat % 65536 = 0) ∧
    (q.canon → regs.wf resetOf = true ∧ hold.wf resetOf = true ∧ cap.wf resetOf = true) ∧
    q.out <+: out ∧ q.drawn ≤ drawn ∧ otp = q.otp

/-- The queue and the fuses are the mark's, the raw counter stands at a whole tick, the register tables are in canonical form,
the mark's outputs come first, and at least its free values are drawn. -/
def Keeps (q : Mark) (s : State) : Prop := KeepsF q s.pending s.raw s.regs s.hold s.cap s.out s.drawn s.sec.otp

@[simp] theorem Keeps.fold (q : Mark) (s : State) :
    KeepsF q s.pending s.raw s.regs s.hold s.cap s.out s.drawn s.sec.otp = Keeps q s := propext ⟨id, id⟩

@[simp] theorem Keeps.mk (q : Mark) (pending : List Instr) (raw : Raw) (regs : SMap Word) (hold : SMap Word) (cap : SMap Word)
    (rdata : Word) (out : List Output) (drawn : Nat) (dev : Dev) (chrono : Chrono) (obs : Obs) (chk : Chk) (sec : Sec) (pwr : Pwr)
    (mer : Mer) (win : Win) (pool : Pool) (voq : Voqs) (alm : Alm) (rhb : Rhb) (net : Net) (sxt : Sxt) (cmp : Cmp)
    (pon : PonLine) (act : Act) (rck : Rck) (xgm : Xgm) (lht : Lht) :
    Keeps q (State.mk pending raw regs hold cap rdata out drawn dev chrono obs chk sec pwr mer win pool voq alm rhb net sxt
      cmp pon act rck xgm lht) = KeepsF q pending raw regs hold cap out drawn sec.otp := propext ⟨id, id⟩

@[simp] theorem Keeps.ite (q : Mark) (p : Prop) [Decidable p] (a b : State) :
    Keeps q (if p then a else b) = ((p → Keeps q a) ∧ (¬p → Keeps q b)) := by
  split <;> simp [*]

@[simp] theorem State.wr_keeps {q : Mark} {s : State} (h : Keeps q s) (a : Nat) (v : Word) : Keeps q (s.wr a v) :=
  ⟨h.1, h.2.1, fun k => ⟨SMap.wf_set resetOf s.regs a v (h.2.2.1 k).1, (h.2.2.1 k).2⟩, h.2.2.2⟩

@[simp] theorem State.setHold_keeps {q : Mark} {s : State} (h : Keeps q s) (a : Nat) (v : Word) : Keeps q (s.setHold a v) :=
  ⟨h.1, h.2.1, fun k => ⟨(h.2.2.1 k).1, SMap.wf_set resetOf s.hold a v (h.2.2.1 k).2.1, (h.2.2.1 k).2.2⟩, h.2.2.2⟩

@[simp] theorem State.setCap_keeps {q : Mark} {s : State} (h : Keeps q s) (a : Nat) (v : Word) : Keeps q (s.setCap a v) :=
  ⟨h.1, h.2.1, fun k => ⟨(h.2.2.1 k).1, (h.2.2.1 k).2.1, SMap.wf_set resetOf s.cap a v (h.2.2.1 k).2.2⟩, h.2.2.2⟩

@[simp] theorem State.emit_keeps {q : Mark} {s : State} (h : Keeps q s) (o : Output) : Keeps q (s.emit o) :=
  ⟨h.1, h.2.1, h.2.2.1, h.2.2.2.1.trans (List.prefix_append s.out [o]), h.2.2.2.2⟩

@[simp] theorem State.draw_keeps {q : Mark} {s : State} (h : Keeps q s) : Keeps q s.draw.2 :=
  ⟨h.1, h.2.1, h.2.2.1, h.2.2.2.1, Nat.le_succ_of_le h.2.2.2.2.1, h.2.2.2.2.2⟩

@[simp] theorem State.each_keeps {q : Mark} (l : List Nat) (f : Nat → State → State)
    (hf : ∀ i s, Keeps q s → Keeps q (f i s)) {s : State} (h : Keeps q s) : Keeps q (s.each l f) := by
  induction l generalizing s with
  | nil => exact h
  | cons i l ih => exact ih (hf i s h)

theorem Keeps.foldl {α : Type} {q : Mark} (l : List α) (f : State → α → State)
    (hf : ∀ s x, Keeps q s → Keeps q (f s x)) {s : State} (h : Keeps q s) : Keeps q (l.foldl f s) := by
  induction l generalizing s with
  | nil => exact h
  | cons x l ih => exact ih (hf s x h)

/-- Moving the raw counter to a whole tick keeps the facts. -/
theorem Keeps.setRaw {q : Mark} {s : State} (h : Keeps q s) (r : Raw) (hr : q.tick → r.toNat % 65536 = 0) :
    Keeps q { s with raw := r } := ⟨h.1, hr, h.2.2⟩

/-- Storing fuses moves the mark's fuses with them. -/
theorem Keeps.setOtp {q : Mark} {s : State} (h : Keeps q s) (o : Otp) :
    Keeps { q with otp := o } { s with sec.otp := o } := ⟨h.1, h.2.1, h.2.2.1, h.2.2.2.1, h.2.2.2.2.1, rfl⟩

/-- The second of a pair, read off an equation that a match leaves. -/
theorem Keeps.ofPair {α : Type} {q : Mark} {x : α × State} {a : α} {s : State} (h : Keeps q x.2) (e : x = (a, s)) :
    Keeps q s := by
  rw [e] at h; exact h

/-- A command's outcome keeps the facts in every next state. -/
def KeepsO (q : Mark) (o : Host.Outcome State Fault Refusal) : Prop := ∀ t, o = .next t → Keeps q t

@[simp] theorem KeepsO.next (q : Mark) (t : State) : KeepsO q (.next t) = Keeps q t :=
  propext ⟨fun h => h t rfl, fun h _ e => by cases e; exact h⟩

@[simp] theorem KeepsO.ite (q : Mark) (p : Prop) [Decidable p] (a b : Host.Outcome State Fault Refusal) :
    KeepsO q (if p then a else b) = ((p → KeepsO q a) ∧ (¬p → KeepsO q b)) := by
  split <;> simp [*]

end Sys2Proof.Machine
end

