-- ==== Sys2Proof/Laws/KeepOps.lean ====
section
/-!
SUPPORT. Laws/KeepOps.lean: the operations of Machine/Ops.lean keep what Laws/Keep.lean lists.
-/
set_option linter.unreachableTactic false
set_option linter.unusedTactic false
set_option linter.unusedSimpArgs false
set_option linter.unusedVariables false

namespace Sys2Proof.Machine

@[simp] theorem State.setFld_keeps {Q : Mark} {s : State} (kp : Keeps Q s) (a hi lo v : Nat) :
    Keeps Q (State.setFld s a hi lo v) := by
  unfold State.setFld
  try dsimp only
  repeat' (first
    | (simp +contextual (maxDischargeDepth := 60) [*]; done)
    | split
    | intro _
    | refine State.each_keeps _ _ (fun _ _ _ => ?_) ?_)

@[simp] theorem State.setBit_keeps {Q : Mark} {s : State} (kp : Keeps Q s) (a i : Nat) (b : Bool) :
    Keeps Q (State.setBit s a i b) := by
  unfold State.setBit
  try dsimp only
  repeat' (first
    | (simp +contextual (maxDischargeDepth := 60) [*]; done)
    | split
    | intro _
    | refine State.each_keeps _ _ (fun _ _ _ => ?_) ?_)

@[simp] theorem State.wrNat_keeps {Q : Mark} {s : State} (kp : Keeps Q s) (a v : Nat) :
    Keeps Q (State.wrNat s a v) := by
  unfold State.wrNat
  try dsimp only
  repeat' (first
    | (simp +contextual (maxDischargeDepth := 60) [*]; done)
    | split
    | intro _
    | refine State.each_keeps _ _ (fun _ _ _ => ?_) ?_)

@[simp] theorem State.bumpBy_keeps {Q : Mark} {s : State} (kp : Keeps Q s) (a n : Nat) :
    Keeps Q (State.bumpBy s a n) := by
  unfold State.bumpBy
  try dsimp only
  repeat' (first
    | (simp +contextual (maxDischargeDepth := 60) [*]; done)
    | split
    | intro _
    | refine State.each_keeps _ _ (fun _ _ _ => ?_) ?_)

@[simp] theorem State.bump_keeps {Q : Mark} {s : State} (kp : Keeps Q s) (a : Nat) :
    Keeps Q (State.bump s a) := by
  unfold State.bump
  try dsimp only
  repeat' (first
    | (simp +contextual (maxDischargeDepth := 60) [*]; done)
    | split
    | intro _
    | refine State.each_keeps _ _ (fun _ _ _ => ?_) ?_)

@[simp] theorem State.wrap_keeps {Q : Mark} {s : State} (kp : Keeps Q s) (a : Nat) :
    Keeps Q (State.wrap s a) := by
  unfold State.wrap
  try dsimp only
  repeat' (first
    | (simp +contextual (maxDischargeDepth := 60) [*]; done)
    | split
    | intro _
    | refine State.each_keeps _ _ (fun _ _ _ => ?_) ?_)

@[simp] theorem State.wrWords_keeps {Q : Mark} {s : State} (kp : Keeps Q s) (z0 : Nat) (z1 : List Word) :
    Keeps Q (State.wrWords s z0 z1) := by
  fun_induction State.wrWords <;> simp_all (maxDischargeDepth := 60)

@[simp] theorem State.wrTyped_keeps {Q : Mark} {s : State} (kp : Keeps Q s) (a : Nat) (v : Word) :
    Keeps Q (State.wrTyped s a v) := by
  unfold State.wrTyped
  try dsimp only
  repeat' (first
    | (simp +contextual (maxDischargeDepth := 60) [*]; done)
    | split
    | intro _
    | refine State.each_keeps _ _ (fun _ _ _ => ?_) ?_)

@[simp] theorem State.toHost_keeps {Q : Mark} {s : State} (kp : Keeps Q s) (addr : BitVec 64) (bytes : List Byte) :
    Keeps Q (State.toHost s addr bytes) := by
  unfold State.toHost
  try dsimp only
  repeat' (first
    | (simp +contextual (maxDischargeDepth := 60) [*]; done)
    | split
    | intro _
    | refine State.each_keeps _ _ (fun _ _ _ => ?_) ?_)

@[simp] theorem State.ret_keeps {Q : Mark} {s : State} (kp : Keeps Q s) (v : Word) :
    Keeps Q (State.ret s v) := by
  unfold State.ret
  try dsimp only
  repeat' (first
    | (simp +contextual (maxDischargeDepth := 60) [*]; done)
    | split
    | intro _
    | refine State.each_keeps _ _ (fun _ _ _ => ?_) ?_)

@[simp] theorem State.setProgress_keeps {Q : Mark} {s : State} (kp : Keeps Q s) (o : LongOp) (n : Nat) :
    Keeps Q (State.setProgress s o n) := by
  unfold State.setProgress
  try dsimp only
  repeat' (first
    | (simp +contextual (maxDischargeDepth := 60) [*]; done)
    | split
    | intro _
    | refine State.each_keeps _ _ (fun _ _ _ => ?_) ?_)

@[simp] theorem State.opBegin_keeps {Q : Mark} {s : State} (kp : Keeps Q s) (o : LongOp) :
    Keeps Q (State.opBegin s o) := by
  unfold State.opBegin
  try dsimp only
  repeat' (first
    | (simp +contextual (maxDischargeDepth := 60) [*]; done)
    | split
    | intro _
    | refine State.each_keeps _ _ (fun _ _ _ => ?_) ?_)

@[simp] theorem State.bankSwitch_keeps {Q : Mark} {s : State} (kp : Keeps Q s) (a target : Nat) :
    Keeps Q (State.bankSwitch s a target) := by
  unfold State.bankSwitch
  try dsimp only
  repeat' (first
    | (simp +contextual (maxDischargeDepth := 60) [*]; done)
    | split
    | intro _
    | refine State.each_keeps _ _ (fun _ _ _ => ?_) ?_)

@[simp] theorem State.bankRequest_keeps {Q : Mark} {s : State} (kp : Keeps Q s) (a target : Nat) :
    Keeps Q (State.bankRequest s a target) := by
  unfold State.bankRequest
  try dsimp only
  repeat' (first
    | (simp +contextual (maxDischargeDepth := 60) [*]; done)
    | split
    | intro _
    | refine State.each_keeps _ _ (fun _ _ _ => ?_) ?_)

@[simp] theorem State.wpNote_keeps {Q : Mark} {s : State} (kp : Keeps Q s) (k : Nat) :
    Keeps Q (State.wpNote s k) := by
  unfold State.wpNote
  try dsimp only
  repeat' (first
    | (simp +contextual (maxDischargeDepth := 60) [*]; done)
    | split
    | intro _
    | refine State.each_keeps _ _ (fun _ _ _ => ?_) ?_)

end Sys2Proof.Machine
end

