-- ==== Sys2Proof/Laws/KeepCells.lean ====
section
/-!
SUPPORT. Laws/KeepCells.lean: the operations of Machine/Cells.lean keep what Laws/Keep.lean lists.
-/
set_option linter.unreachableTactic false
set_option linter.unusedTactic false
set_option linter.unusedSimpArgs false
set_option linter.unusedVariables false

namespace Sys2Proof.Machine

@[simp] theorem State.setFree_keeps {Q : Mark} {s : State} (kp : Keeps Q s) (k : Nat) (x : FreeList) :
    Keeps Q (State.setFree s k x) := by
  unfold State.setFree
  try dsimp only
  repeat' (first
    | (simp +contextual (maxDischargeDepth := 60) [*]; done)
    | split
    | intro _
    | refine State.each_keeps _ _ (fun _ _ _ => ?_) ?_)

@[simp] theorem State.threadLists_keeps {Q : Mark} {s : State} (kp : Keeps Q s) :
    Keeps Q (State.threadLists s) := by
  unfold State.threadLists
  try dsimp only
  repeat' (first
    | (simp +contextual (maxDischargeDepth := 60) [*]; done)
    | split
    | intro _
    | refine State.each_keeps _ _ (fun _ _ _ => ?_) ?_)

end Sys2Proof.Machine
end

