-- ==== Sys2Proof/Laws/KeepFlags.lean ====
section
/-!
SUPPORT. Laws/KeepFlags.lean: the operations of Machine/Flags.lean keep what Laws/Keep.lean lists.
-/
set_option linter.unreachableTactic false
set_option linter.unusedTactic false
set_option linter.unusedSimpArgs false
set_option linter.unusedVariables false

namespace Sys2Proof.Machine

@[simp] theorem State.setStatus_keeps {Q : Mark} {s : State} (kp : Keeps Q s) (leaf : Nat) :
    Keeps Q (State.setStatus s leaf) := by
  unfold State.setStatus
  try dsimp only
  repeat' (first
    | (simp +contextual (maxDischargeDepth := 60) [*]; done)
    | split
    | intro _
    | refine State.each_keeps _ _ (fun _ _ _ => ?_) ?_)

@[simp] theorem State.putRecord_keeps {Q : Mark} {s : State} (kp : Keeps Q s) (leaf : Nat) (fwd : Bool) (view : Nat) (ns32 : Word) (subns : Byte) (src : Nat) (words : List Word) :
    Keeps Q (State.putRecord s leaf fwd view ns32 subns src words) := by
  unfold State.putRecord
  try dsimp only
  repeat' (first
    | (simp +contextual (maxDischargeDepth := 60) [*]; done)
    | split
    | intro _
    | refine State.each_keeps _ _ (fun _ _ _ => ?_) ?_)

@[simp] theorem State.setGroup_keeps {Q : Mark} {s : State} (kp : Keeps Q s) (g : Nat) (x : Group) :
    Keeps Q (State.setGroup s g x) := by
  unfold State.setGroup
  try dsimp only
  repeat' (first
    | (simp +contextual (maxDischargeDepth := 60) [*]; done)
    | split
    | intro _
    | refine State.each_keeps _ _ (fun _ _ _ => ?_) ?_)

@[simp] theorem State.queueCell_keeps {Q : Mark} {s : State} (kp : Keeps Q s) (g : Nat) (c : Cell) :
    Keeps Q (State.queueCell s g c) := by
  unfold State.queueCell
  try dsimp only
  repeat' (first
    | (simp +contextual (maxDischargeDepth := 60) [*]; done)
    | split
    | intro _
    | refine State.each_keeps _ _ (fun _ _ _ => ?_) ?_)

@[simp] theorem State.sendOther_keeps {Q : Mark} {s : State} (kp : Keeps Q s) (d : Nat) (c : Cell) :
    Keeps Q (State.sendOther s d c) := by
  unfold State.sendOther
  try dsimp only
  repeat' (first
    | (simp +contextual (maxDischargeDepth := 60) [*]; done)
    | split
    | intro _
    | refine State.each_keeps _ _ (fun _ _ _ => ?_) ?_)

@[simp] theorem State.sendMer_keeps {Q : Mark} {s : State} (kp : Keeps Q s) (d : Nat) (m : MerMsg) :
    Keeps Q (State.sendMer s d m) := by
  unfold State.sendMer
  try dsimp only
  repeat' (first
    | (simp +contextual (maxDischargeDepth := 60) [*]; done)
    | split
    | intro _
    | refine State.each_keeps _ _ (fun _ _ _ => ?_) ?_)

@[simp] theorem State.forward_keeps {Q : Mark} {s : State} (kp : Keeps Q s) (leaf : Nat) (t : BitVec 96) (words : List Word) :
    Keeps Q (State.forward s leaf t words) := by
  unfold State.forward
  try dsimp only
  repeat' (first
    | (simp +contextual (maxDischargeDepth := 60) [*]; done)
    | split
    | intro _
    | refine State.each_keeps _ _ (fun _ _ _ => ?_) ?_)

@[simp] theorem State.raise_keeps {Q : Mark} {s : State} (kp : Keeps Q s) (leaf inst : Nat) (w1 w2 w3 : Word) :
    Keeps Q (State.raise s leaf inst w1 w2 w3) := by
  unfold State.raise
  try dsimp only
  repeat' (first
    | (simp +contextual (maxDischargeDepth := 60) [*]; done)
    | split
    | intro _
    | refine State.each_keeps _ _ (fun _ _ _ => ?_) ?_)

@[simp] theorem State.event_keeps {Q : Mark} {s : State} (kp : Keeps Q s) (leaf inst : Nat) :
    Keeps Q (State.event s leaf inst) := by
  unfold State.event
  try dsimp only
  repeat' (first
    | (simp +contextual (maxDischargeDepth := 60) [*]; done)
    | split
    | intro _
    | refine State.each_keeps _ _ (fun _ _ _ => ?_) ?_)

@[simp] theorem State.cntAdd_keeps {Q : Mark} {s : State} (kp : Keeps Q s) (i n : Nat) :
    Keeps Q (State.cntAdd s i n) := by
  unfold State.cntAdd
  try dsimp only
  repeat' (first
    | (simp +contextual (maxDischargeDepth := 60) [*]; done)
    | split
    | intro _
    | refine State.each_keeps _ _ (fun _ _ _ => ?_) ?_)

@[simp] theorem State.cntSet_keeps {Q : Mark} {s : State} (kp : Keeps Q s) (i : Nat) (v : BitVec 64) :
    Keeps Q (State.cntSet s i v) := by
  unfold State.cntSet
  try dsimp only
  repeat' (first
    | (simp +contextual (maxDischargeDepth := 60) [*]; done)
    | split
    | intro _
    | refine State.each_keeps _ _ (fun _ _ _ => ?_) ?_)

@[simp] theorem State.cntPair_keeps {Q : Mark} {s : State} (kp : Keeps Q s) (p bytes : Nat) :
    Keeps Q (State.cntPair s p bytes) := by
  unfold State.cntPair
  try dsimp only
  repeat' (first
    | (simp +contextual (maxDischargeDepth := 60) [*]; done)
    | split
    | intro _
    | refine State.each_keeps _ _ (fun _ _ _ => ?_) ?_)

@[simp] theorem State.opEnd_keeps {Q : Mark} {s : State} (kp : Keeps Q s) (o : LongOp) (e : OpEnd) :
    Keeps Q (State.opEnd s o e) := by
  unfold State.opEnd
  try dsimp only
  repeat' (first
    | (simp +contextual (maxDischargeDepth := 60) [*]; done)
    | split
    | intro _
    | refine State.each_keeps _ _ (fun _ _ _ => ?_) ?_)

@[simp] theorem State.opRefuse_keeps {Q : Mark} {s : State} (kp : Keeps Q s) (o : LongOp) (reason : Nat) :
    Keeps Q (State.opRefuse s o reason) := by
  unfold State.opRefuse
  try dsimp only
  repeat' (first
    | (simp +contextual (maxDischargeDepth := 60) [*]; done)
    | split
    | intro _
    | refine State.each_keeps _ _ (fun _ _ _ => ?_) ?_)

@[simp] theorem State.opCtrlWrite_keeps {Q : Mark} {s : State} (kp : Keeps Q s) (o : LongOp) (v : Word) (start abort : State → State) (hstart : ∀ t, Keeps Q t → Keeps Q (start  t)) (habort : ∀ t, Keeps Q t → Keeps Q (abort  t)) :
    Keeps Q (State.opCtrlWrite s o v start abort) := by
  unfold State.opCtrlWrite
  try dsimp only
  repeat' (first
    | (simp +contextual (maxDischargeDepth := 60) [*]; done)
    | split
    | intro _
    | refine State.each_keeps _ _ (fun _ _ _ => ?_) ?_)

end Sys2Proof.Machine
end

