-- ==== Sys2Proof/Laws/KeepClock.lean ====
section
/-!
SUPPORT. Laws/KeepClock.lean: the operations of Machine/Clock.lean keep what Laws/Keep.lean lists.
-/
set_option linter.unreachableTactic false
set_option linter.unusedTactic false
set_option linter.unusedSimpArgs false
set_option linter.unusedVariables false

namespace Sys2Proof.Machine

@[simp] theorem State.thrCount_keeps {Q : Mark} {s : State} (kp : Keeps Q s) (k clocks : Nat) :
    Keeps Q (State.thrCount s k clocks) := by
  unfold State.thrCount
  try dsimp only
  repeat' (first
    | (simp +contextual (maxDischargeDepth := 60) [*]; done)
    | split
    | intro _
    | refine State.each_keeps _ _ (fun _ _ _ => ?_) ?_)

@[simp] theorem State.slotIdle_keeps {Q : Mark} {s : State} (kp : Keeps Q s) (p clocks : Nat) :
    Keeps Q (State.slotIdle s p clocks) := by
  unfold State.slotIdle
  try dsimp only
  repeat' (first
    | (simp +contextual (maxDischargeDepth := 60) [*]; done)
    | split
    | intro _
    | refine State.each_keeps _ _ (fun _ _ _ => ?_) ?_)

@[simp] theorem State.elapse_keeps {Q : Mark} {s : State} (kp : Keeps Q s) (n : Nat) :
    Keeps Q (State.elapse s n) := by
  have r : Q.tick → (s.raw + BitVec.ofNat 96 (n * nsUnit)).toNat % 65536 = 0 := by
    intro k
    have := kp.2.1 k
    simp only [BitVec.toNat_add, BitVec.toNat_ofNat, nsUnit]
    omega
  unfold State.elapse
  exact Keeps.setRaw (State.each_keeps _ _ (fun _ _ h => State.slotIdle_keeps h _ _)
    (State.each_keeps _ _ (fun _ _ h => State.thrCount_keeps h _ _) kp)) _ r

@[simp] theorem State.advance_keeps {Q : Mark} {s : State} (kp : Keeps Q s) (t : Raw) :
    Keeps Q (State.advance s t) := by
  unfold State.advance
  try dsimp only
  repeat' (first
    | (simp +contextual (maxDischargeDepth := 60) [*]; done)
    | split
    | intro _
    | refine State.each_keeps _ _ (fun _ _ _ => ?_) ?_)

end Sys2Proof.Machine
end

