-- ==== Sys2Proof/Laws/KeepBeat.lean ====
section
/-!
SUPPORT. Laws/KeepBeat.lean: the operations of Machine/Beat.lean keep what Laws/Keep.lean lists.
-/
set_option linter.unreachableTactic false
set_option linter.unusedTactic false
set_option linter.unusedSimpArgs false
set_option linter.unusedVariables false

namespace Sys2Proof.Machine

@[simp] theorem State.setLhPath_keeps {Q : Mark} {s : State} (kp : Keeps Q s) (p : Nat) (x : LhPath) :
    Keeps Q (State.setLhPath s p x) := by
  unfold State.setLhPath
  try dsimp only
  repeat' (first
    | (simp +contextual (maxDischargeDepth := 60) [*]; done)
    | split
    | intro _
    | refine State.each_keeps _ _ (fun _ _ _ => ?_) ?_)

@[simp] theorem State.sendCopy_keeps {Q : Mark} {s : State} (kp : Keeps Q s) (o : Output) (cells : List (List Byte)) :
    Keeps Q (State.sendCopy s o cells) := by
  unfold State.sendCopy
  try dsimp only
  repeat' (first
    | (simp +contextual (maxDischargeDepth := 60) [*]; done)
    | split
    | intro _
    | refine State.each_keeps _ _ (fun _ _ _ => ?_) ?_)

@[simp] theorem State.newSession_keeps {Q : Mark} {s : State} (kp : Keeps Q s) :
    Keeps Q (State.newSession s) := by
  unfold State.newSession
  try dsimp only
  repeat' (first
    | (simp +contextual (maxDischargeDepth := 60) [*]; done)
    | split
    | intro _
    | refine State.each_keeps _ _ (fun _ _ _ => ?_) ?_)

@[simp] theorem State.hbSend_keeps {Q : Mark} {s : State} (kp : Keeps Q s) (p : Nat) :
    Keeps Q (State.hbSend s p) := by
  unfold State.hbSend
  try dsimp only
  repeat' (first
    | (simp +contextual (maxDischargeDepth := 60) [*]; done)
    | split
    | intro _
    | refine State.each_keeps _ _ (fun _ _ _ => ?_) ?_)

@[simp] theorem State.hbBoth_keeps {Q : Mark} {s : State} (kp : Keeps Q s) :
    Keeps Q (State.hbBoth s) := by
  unfold State.hbBoth
  try dsimp only
  repeat' (first
    | (simp +contextual (maxDischargeDepth := 60) [*]; done)
    | split
    | intro _
    | refine State.each_keeps _ _ (fun _ _ _ => ?_) ?_)

@[simp] theorem State.goStale_keeps {Q : Mark} {s : State} (kp : Keeps Q s) :
    Keeps Q (State.goStale s) := by
  unfold State.goStale
  try dsimp only
  repeat' (first
    | (simp +contextual (maxDischargeDepth := 60) [*]; done)
    | split
    | intro _
    | refine State.each_keeps _ _ (fun _ _ _ => ?_) ?_)

end Sys2Proof.Machine
end

