-- ==== Sys2Proof/Laws/KeepMerBase.lean ====
section
/-!
SUPPORT. Laws/KeepMerBase.lean: the operations of Machine/MerBase.lean keep what Laws/Keep.lean lists.
-/
set_option linter.unreachableTactic false
set_option linter.unusedTactic false
set_option linter.unusedSimpArgs false
set_option linter.unusedVariables false

namespace Sys2Proof.Machine

@[simp] theorem State.generate_keeps {Q : Mark} {s : State} (kp : Keeps Q s) :
    Keeps Q (State.generate s).2 := by
  unfold State.generate
  try dsimp only
  repeat' (first
    | (simp +contextual (maxDischargeDepth := 60) [*]; done)
    | split
    | intro _
    | refine State.each_keeps _ _ (fun _ _ _ => ?_) ?_)

@[simp] theorem State.takeManager_keeps {Q : Mark} {s : State} (kp : Keeps Q s) :
    Keeps Q (State.takeManager s) := by
  unfold State.takeManager
  try dsimp only
  repeat' (first
    | (simp +contextual (maxDischargeDepth := 60) [*]; done)
    | split
    | intro _
    | refine State.each_keeps _ _ (fun _ _ _ => ?_) ?_)

@[simp] theorem State.loseManager_keeps {Q : Mark} {s : State} (kp : Keeps Q s) :
    Keeps Q (State.loseManager s) := by
  unfold State.loseManager
  try dsimp only
  repeat' (first
    | (simp +contextual (maxDischargeDepth := 60) [*]; done)
    | split
    | intro _
    | refine State.each_keeps _ _ (fun _ _ _ => ?_) ?_)

@[simp] theorem State.reRank_keeps {Q : Mark} {s : State} (kp : Keeps Q s) :
    Keeps Q (State.reRank s) := by
  unfold State.reRank
  try dsimp only
  repeat' (first
    | (simp +contextual (maxDischargeDepth := 60) [*]; done)
    | split
    | intro _
    | refine State.each_keeps _ _ (fun _ _ _ => ?_) ?_)

end Sys2Proof.Machine
end

