-- ==== Sys2Proof/Laws/KeepModeOps.lean ====
section
/-!
SUPPORT. Laws/KeepModeOps.lean: the operations of Machine/ModeOps.lean keep what Laws/Keep.lean lists.
-/
set_option linter.unreachableTactic false
set_option linter.unusedTactic false
set_option linter.unusedSimpArgs false
set_option linter.unusedVariables false

namespace Sys2Proof.Machine

@[simp] theorem State.setPipe_keeps {Q : Mark} {s : State} (kp : Keeps Q s) (p : Nat) (x : PipeStruct) :
    Keeps Q (State.setPipe s p x) := by
  unfold State.setPipe
  try dsimp only
  repeat' (first
    | (simp +contextual (maxDischargeDepth := 60) [*]; done)
    | split
    | intro _
    | refine State.each_keeps _ _ (fun _ _ _ => ?_) ?_)

@[simp] theorem State.putChart_keeps {Q : Mark} {s : State} (kp : Keeps Q s) (z0 : List (Nat × List Word)) :
    Keeps Q (State.putChart s z0) := by
  fun_induction State.putChart <;> simp_all (maxDischargeDepth := 60)

@[simp] theorem State.chartsFrom_keeps {Q : Mark} {s : State} (kp : Keeps Q s) (b : ImageBody) (src dst : Nat) :
    Keeps Q (State.chartsFrom s b src dst) := by
  unfold State.chartsFrom
  try dsimp only
  repeat' (first
    | (simp +contextual (maxDischargeDepth := 60) [*]; done)
    | split
    | intro _
    | refine State.each_keeps _ _ (fun _ _ _ => ?_) ?_)

@[simp] theorem State.startPipes_keeps {Q : Mark} {s : State} (kp : Keeps Q s) :
    Keeps Q (State.startPipes s) := by
  unfold State.startPipes
  try dsimp only
  repeat' (first
    | (simp +contextual (maxDischargeDepth := 60) [*]; done)
    | split
    | intro _
    | refine State.each_keeps _ _ (fun _ _ _ => ?_) ?_)

@[simp] theorem State.restartPipe_keeps {Q : Mark} {s : State} (kp : Keeps Q s) (p : Nat) :
    Keeps Q (State.restartPipe s p) := by
  unfold State.restartPipe
  try dsimp only
  repeat' (first
    | (simp +contextual (maxDischargeDepth := 60) [*]; done)
    | split
    | intro _
    | refine State.each_keeps _ _ (fun _ _ _ => ?_) ?_)

@[simp] theorem State.restartPipes_keeps {Q : Mark} {s : State} (kp : Keeps Q s) :
    Keeps Q (State.restartPipes s) := by
  unfold State.restartPipes
  try dsimp only
  repeat' (first
    | (simp +contextual (maxDischargeDepth := 60) [*]; done)
    | split
    | intro _
    | refine State.each_keeps _ _ (fun _ _ _ => ?_) ?_)

@[simp] theorem State.invalidate_keeps {Q : Mark} {s : State} (kp : Keeps Q s) :
    Keeps Q (State.invalidate s) := by
  unfold State.invalidate
  try dsimp only
  repeat' (first
    | (simp +contextual (maxDischargeDepth := 60) [*]; done)
    | split
    | intro _
    | refine State.each_keeps _ _ (fun _ _ _ => ?_) ?_)

@[simp] theorem State.wipeReserved_keeps {Q : Mark} {s : State} (kp : Keeps Q s) :
    Keeps Q (State.wipeReserved s) := by
  unfold State.wipeReserved
  try dsimp only
  repeat' (first
    | (simp +contextual (maxDischargeDepth := 60) [*]; done)
    | split
    | intro _
    | refine State.each_keeps _ _ (fun _ _ _ => ?_) ?_)

@[simp] theorem State.memInit_keeps {Q : Mark} {s : State} (kp : Keeps Q s) :
    Keeps Q (State.memInit s) := by
  unfold State.memInit
  try dsimp only
  repeat' (first
    | (simp +contextual (maxDischargeDepth := 60) [*]; done)
    | split
    | intro _
    | refine State.each_keeps _ _ (fun _ _ _ => ?_) ?_)

@[simp] theorem State.clearKeyStore_keeps {Q : Mark} {s : State} (kp : Keeps Q s) :
    Keeps Q (State.clearKeyStore s) := by
  unfold State.clearKeyStore
  try dsimp only
  repeat' (first
    | (simp +contextual (maxDischargeDepth := 60) [*]; done)
    | split
    | intro _
    | refine State.each_keeps _ _ (fun _ _ _ => ?_) ?_)

@[simp] theorem State.clearBuffers_keeps {Q : Mark} {s : State} (kp : Keeps Q s) :
    Keeps Q (State.clearBuffers s) := by
  unfold State.clearBuffers
  try dsimp only
  repeat' (first
    | (simp +contextual (maxDischargeDepth := 60) [*]; done)
    | split
    | intro _
    | refine State.each_keeps _ _ (fun _ _ _ => ?_) ?_)

@[simp] theorem State.wipeTables_keeps {Q : Mark} {s : State} (kp : Keeps Q s) :
    Keeps Q (State.wipeTables s) := by
  unfold State.wipeTables
  try dsimp only
  repeat' (first
    | (simp +contextual (maxDischargeDepth := 60) [*]; done)
    | split
    | intro _
    | refine State.each_keeps _ _ (fun _ _ _ => ?_) ?_)

@[simp] theorem State.bistAfter_keeps {Q : Mark} {s : State} (kp : Keeps Q s) (target : Nat) :
    Keeps Q (State.bistAfter s target) := by
  unfold State.bistAfter
  try dsimp only
  repeat' (first
    | (simp +contextual (maxDischargeDepth := 60) [*]; done)
    | split
    | intro _
    | refine State.each_keeps _ _ (fun _ _ _ => ?_) ?_)

@[simp] theorem State.dropRepairs_keeps {Q : Mark} {s : State} (kp : Keeps Q s) :
    Keeps Q (State.dropRepairs s) := by
  unfold State.dropRepairs
  try dsimp only
  repeat' (first
    | (simp +contextual (maxDischargeDepth := 60) [*]; done)
    | split
    | intro _
    | refine State.each_keeps _ _ (fun _ _ _ => ?_) ?_)

@[simp] theorem State.opIdle_keeps {Q : Mark} {s : State} (kp : Keeps Q s) (z0 : LongOp) :
    Keeps Q (State.opIdle s z0) := by
  cases z0 <;> simp only [State.opIdle] <;> first
    | (simp +contextual (maxDischargeDepth := 60) [*]; done)
    | (split <;> simp +contextual (maxDischargeDepth := 60) [*])

@[simp] theorem State.opAbort_keeps {Q : Mark} {s : State} (kp : Keeps Q s) (o : LongOp) (reason : Nat) :
    Keeps Q (State.opAbort s o reason) := by
  unfold State.opAbort
  try dsimp only
  repeat' (first
    | (simp +contextual (maxDischargeDepth := 60) [*]; done)
    | split
    | intro _
    | refine State.each_keeps _ _ (fun _ _ _ => ?_) ?_)

@[simp] theorem State.abortWhere_keeps {Q : Mark} {s : State} (kp : Keeps Q s) (p : LongOp → Bool) (reason : Nat) (z0 : List LongOp) :
    Keeps Q (State.abortWhere s p reason z0) := by
  fun_induction State.abortWhere <;> simp_all (maxDischargeDepth := 60)

@[simp] theorem State.abortDisallowed_keeps {Q : Mark} {s : State} (kp : Keeps Q s) (old m : Mode) :
    Keeps Q (State.abortDisallowed s old m) := by
  unfold State.abortDisallowed
  try dsimp only
  repeat' (first
    | (simp +contextual (maxDischargeDepth := 60) [*]; done)
    | split
    | intro _
    | refine State.each_keeps _ _ (fun _ _ _ => ?_) ?_)

@[simp] theorem State.setMode_keeps {Q : Mark} {s : State} (kp : Keeps Q s) (m : Mode) (cause fatal : Nat) :
    Keeps Q (State.setMode s m cause fatal) := by
  unfold State.setMode
  try dsimp only
  repeat' (first
    | (simp +contextual (maxDischargeDepth := 60) [*]; done)
    | split
    | intro _
    | refine State.each_keeps _ _ (fun _ _ _ => ?_) ?_)

@[simp] theorem State.commLeave_keeps {Q : Mark} {s : State} (kp : Keeps Q s) :
    Keeps Q (State.commLeave s) := by
  unfold State.commLeave
  try dsimp only
  repeat' (first
    | (simp +contextual (maxDischargeDepth := 60) [*]; done)
    | split
    | intro _
    | refine State.each_keeps _ _ (fun _ _ _ => ?_) ?_)

@[simp] theorem State.refuseMode_keeps {Q : Mark} {s : State} (kp : Keeps Q s) :
    Keeps Q (State.refuseMode s) := by
  unfold State.refuseMode
  try dsimp only
  repeat' (first
    | (simp +contextual (maxDischargeDepth := 60) [*]; done)
    | split
    | intro _
    | refine State.each_keeps _ _ (fun _ _ _ => ?_) ?_)

@[simp] theorem State.reqLost_keeps {Q : Mark} {s : State} (kp : Keeps Q s) (lost : Bool) :
    Keeps Q (State.reqLost s lost) := by
  unfold State.reqLost
  try dsimp only
  repeat' (first
    | (simp +contextual (maxDischargeDepth := 60) [*]; done)
    | split
    | intro _
    | refine State.each_keeps _ _ (fun _ _ _ => ?_) ?_)

@[simp] theorem State.safeEntry_keeps {Q : Mark} {s : State} (kp : Keeps Q s) (cause fatal : Nat) :
    Keeps Q (State.safeEntry s cause fatal) := by
  unfold State.safeEntry
  try dsimp only
  repeat' (first
    | (simp +contextual (maxDischargeDepth := 60) [*]; done)
    | split
    | intro _
    | refine State.each_keeps _ _ (fun _ _ _ => ?_) ?_)

@[simp] theorem State.coldReset_keeps {Q : Mark} {s : State} (kp : Keeps Q s) (cause : Word) :
    Keeps Q (State.coldReset s cause) := by
  unfold State.coldReset
  apply State.wr_keeps
  exact And.intro kp.1 ⟨fun _ => rfl,
    fun k => ⟨SMap.wf_keep _ _ _ (kp.2.2.1 k).1, SMap.wf_keep _ _ _ (kp.2.2.1 k).2.1, rfl⟩, kp.2.2.2⟩

@[simp] theorem State.clearRings_keeps {Q : Mark} {s : State} (kp : Keeps Q s) :
    Keeps Q (State.clearRings s) := by
  unfold State.clearRings
  try dsimp only
  repeat' (first
    | (simp +contextual (maxDischargeDepth := 60) [*]; done)
    | split
    | intro _
    | refine State.each_keeps _ _ (fun _ _ _ => ?_) ?_)

@[simp] theorem State.clearEvents_keeps {Q : Mark} {s : State} (kp : Keeps Q s) :
    Keeps Q (State.clearEvents s) := by
  unfold State.clearEvents
  try dsimp only
  repeat' (first
    | (simp +contextual (maxDischargeDepth := 60) [*]; done)
    | split
    | intro _
    | refine State.each_keeps _ _ (fun _ _ _ => ?_) ?_)

end Sys2Proof.Machine
end

