-- ==== Sys2Proof/Laws/KeepIntegrity.lean ====
section
/-!
SUPPORT. Laws/KeepIntegrity.lean: the operations of Machine/Integrity.lean keep what Laws/Keep.lean lists.
-/
set_option linter.unreachableTactic false
set_option linter.unusedTactic false
set_option linter.unusedSimpArgs false
set_option linter.unusedVariables false

namespace Sys2Proof.Machine

@[simp] theorem State.reportError_keeps {Q : Mark} {s : State} (kp : Keeps Q s) (kind : Nat) (uncorr : Bool) (n macroNo : Nat) (addr : BitVec 64) :
    Keeps Q (State.reportError s kind uncorr n macroNo addr) := by
  unfold State.reportError
  try dsimp only
  repeat' (first
    | (simp +contextual (maxDischargeDepth := 60) [*]; done)
    | split
    | intro _
    | refine State.each_keeps _ _ (fun _ _ _ => ?_) ?_)

@[simp] theorem State.errorEffect_keeps {Q : Mark} {s : State} (kp : Keeps Q s) (kind : Nat) (addr : BitVec 64) :
    Keeps Q (State.errorEffect s kind addr) := by
  unfold State.errorEffect
  try dsimp only
  repeat' (first
    | (simp +contextual (maxDischargeDepth := 60) [*]; done)
    | split
    | intro _
    | refine State.each_keeps _ _ (fun _ _ _ => ?_) ?_)

@[simp] theorem State.memoryError_keeps {Q : Mark} {s : State} (kp : Keeps Q s) (kind : Nat) (uncorr : Bool) (n macroNo : Nat) (addr : BitVec 64) :
    Keeps Q (State.memoryError s kind uncorr n macroNo addr) := by
  unfold State.memoryError
  try dsimp only
  repeat' (first
    | (simp +contextual (maxDischargeDepth := 60) [*]; done)
    | split
    | intro _
    | refine State.each_keeps _ _ (fun _ _ _ => ?_) ?_)

@[simp] theorem State.memWrite_keeps {Q : Mark} {s : State} (kp : Keeps Q s) (kind : Nat) :
    Keeps Q (State.memWrite s kind) := by
  unfold State.memWrite
  try dsimp only
  repeat' (first
    | (simp +contextual (maxDischargeDepth := 60) [*]; done)
    | split
    | intro _
    | refine State.each_keeps _ _ (fun _ _ _ => ?_) ?_)

@[simp] theorem State.hbmWritten_keeps {Q : Mark} {s : State} (kp : Keeps Q s) (kind : Nat) (cs : List Nat) :
    Keeps Q (State.hbmWritten s kind cs) := by
  unfold State.hbmWritten
  try dsimp only
  repeat' (first
    | (simp +contextual (maxDischargeDepth := 60) [*]; done)
    | split
    | intro _
    | refine State.each_keeps _ _ (fun _ _ _ => ?_) ?_)

@[simp] theorem State.hbmDamaged_keeps {Q : Mark} {s : State} (kp : Keeps Q s) (errs : List (Nat × Nat)) :
    Keeps Q (State.hbmDamaged s errs) := by
  unfold State.hbmDamaged
  try dsimp only
  repeat' (first
    | (simp +contextual (maxDischargeDepth := 60) [*]; done)
    | split
    | intro _
    | refine State.each_keeps _ _ (fun _ _ _ => ?_) ?_)

@[simp] theorem State.hbmRead_keeps {Q : Mark} {s : State} (kp : Keeps Q s) (kind p : Nat) :
    Keeps Q (State.hbmRead s kind p).2 := by
  unfold State.hbmRead
  try dsimp only
  repeat' (first
    | (simp +contextual (maxDischargeDepth := 60) [*]; done)
    | split
    | intro _
    | refine State.each_keeps _ _ (fun _ _ _ => ?_) ?_)

@[simp] theorem State.readSlots_keeps {Q : Mark} {s : State} (kp : Keeps Q s) (z0 : List Nat) (z1 : Nat) :
    Keeps Q (State.readSlots s z0 z1).2 := by
  induction z0 generalizing s z1 with
  | nil => exact kp
  | cons p ps ih =>
    simp only [State.readSlots]
    split
    · exact ih (State.hbmRead_keeps kp _ _) _
    · exact State.hbmRead_keeps kp _ _

theorem execPatrolScrubRead_keeps {Q : Mark} {s : State} (kp : Keeps Q s) (kind : Fin 10) (uncorr : Bool) (nbits macroNo : Nat) (addr : BitVec 64) :
    KeepsO Q (execPatrolScrubRead kind uncorr nbits macroNo addr s) := by
  unfold execPatrolScrubRead
  try dsimp only
  repeat' (first
    | (simp +contextual (maxDischargeDepth := 60) [*]; done)
    | split
    | intro _
    | refine State.each_keeps _ _ (fun _ _ _ => ?_) ?_)

@[simp] theorem State.errLogRead_keeps {Q : Mark} {s : State} (kp : Keeps Q s) :
    Keeps Q (State.errLogRead s) := by
  unfold State.errLogRead
  try dsimp only
  repeat' (first
    | (simp +contextual (maxDischargeDepth := 60) [*]; done)
    | split
    | intro _
    | refine State.each_keeps _ _ (fun _ _ _ => ?_) ?_)

theorem execErrLogRead_keeps {Q : Mark} {s : State} (kp : Keeps Q s) :
    KeepsO Q (execErrLogRead s) := by
  unfold execErrLogRead
  try dsimp only
  repeat' (first
    | (simp +contextual (maxDischargeDepth := 60) [*]; done)
    | split
    | intro _
    | refine State.each_keeps _ _ (fun _ _ _ => ?_) ?_)

@[simp] theorem State.injWrite_keeps {Q : Mark} {s : State} (kp : Keeps Q s) (v : Word) :
    Keeps Q (State.injWrite s v) := by
  unfold State.injWrite
  try dsimp only
  repeat' (first
    | (simp +contextual (maxDischargeDepth := 60) [*]; done)
    | split
    | intro _
    | refine State.each_keeps _ _ (fun _ _ _ => ?_) ?_)

theorem execErrorInjectArm_keeps {Q : Mark} {s : State} (kp : Keeps Q s) (val : Word) :
    KeepsO Q (execErrorInjectArm val s) := by
  unfold execErrorInjectArm
  try dsimp only
  repeat' (first
    | (simp +contextual (maxDischargeDepth := 60) [*]; done)
    | split
    | intro _
    | refine State.each_keeps _ _ (fun _ _ _ => ?_) ?_)

@[simp] theorem State.wr64_keeps {Q : Mark} {s : State} (kp : Keeps Q s) (lo v : Nat) :
    Keeps Q (State.wr64 s lo v) := by
  unfold State.wr64
  try dsimp only
  repeat' (first
    | (simp +contextual (maxDischargeDepth := 60) [*]; done)
    | split
    | intro _
    | refine State.each_keeps _ _ (fun _ _ _ => ?_) ?_)

@[simp] theorem State.unlessScan_keeps {Q : Mark} {s : State} (kp : Keeps Q s) (u : Nat) (f : State → State) (hf : ∀ t, Keeps Q t → Keeps Q (f  t)) :
    Keeps Q (State.unlessScan s u f) := by
  unfold State.unlessScan
  try dsimp only
  repeat' (first
    | (simp +contextual (maxDischargeDepth := 60) [*]; done)
    | split
    | intro _
    | refine State.each_keeps _ _ (fun _ _ _ => ?_) ?_)

@[simp] theorem State.unitLoad_keeps {Q : Mark} {s : State} (kp : Keeps Q s) (u : Nat) :
    Keeps Q (State.unitLoad s u) := by
  unfold State.unitLoad
  try dsimp only
  repeat' (first
    | (simp +contextual (maxDischargeDepth := 60) [*]; done)
    | split
    | intro _
    | refine State.each_keeps _ _ (fun _ _ _ => ?_) ?_)

@[simp] theorem State.unitFeed_keeps {Q : Mark} {s : State} (kp : Keeps Q s) (u : Nat) (bs : List Byte) :
    Keeps Q (State.unitFeed s u bs) := by
  unfold State.unitFeed
  try dsimp only
  repeat' (first
    | (simp +contextual (maxDischargeDepth := 60) [*]; done)
    | split
    | intro _
    | refine State.each_keeps _ _ (fun _ _ _ => ?_) ?_)

@[simp] theorem State.unitRestartWrite_keeps {Q : Mark} {s : State} (kp : Keeps Q s) (u : Nat) (v : Word) :
    Keeps Q (State.unitRestartWrite s u v) := by
  unfold State.unitRestartWrite
  try dsimp only
  repeat' (first
    | (simp +contextual (maxDischargeDepth := 60) [*]; done)
    | split
    | intro _
    | refine State.each_keeps _ _ (fun _ _ _ => ?_) ?_)

@[simp] theorem State.unitFeedWrite_keeps {Q : Mark} {s : State} (kp : Keeps Q s) (u : Nat) (v : Word) :
    Keeps Q (State.unitFeedWrite s u v) := by
  unfold State.unitFeedWrite
  try dsimp only
  repeat' (first
    | (simp +contextual (maxDischargeDepth := 60) [*]; done)
    | split
    | intro _
    | refine State.each_keeps _ _ (fun _ _ _ => ?_) ?_)

@[simp] theorem State.unitFeed1Write_keeps {Q : Mark} {s : State} (kp : Keeps Q s) (u : Nat) (v : Word) :
    Keeps Q (State.unitFeed1Write s u v) := by
  unfold State.unitFeed1Write
  try dsimp only
  repeat' (first
    | (simp +contextual (maxDischargeDepth := 60) [*]; done)
    | split
    | intro _
    | refine State.each_keeps _ _ (fun _ _ _ => ?_) ?_)

@[simp] theorem State.unitRunningWrite_keeps {Q : Mark} {s : State} (kp : Keeps Q s) (u : Nat) (hi : Word) :
    Keeps Q (State.unitRunningWrite s u hi) := by
  unfold State.unitRunningWrite
  try dsimp only
  repeat' (first
    | (simp +contextual (maxDischargeDepth := 60) [*]; done)
    | split
    | intro _
    | refine State.each_keeps _ _ (fun _ _ _ => ?_) ?_)

theorem execUnitRestart_keeps {Q : Mark} {s : State} (kp : Keeps Q s) (u : Fin 8) (val : Word) :
    KeepsO Q (execUnitRestart u val s) := by
  unfold execUnitRestart
  try dsimp only
  repeat' (first
    | (simp +contextual (maxDischargeDepth := 60) [*]; done)
    | split
    | intro _
    | refine State.each_keeps _ _ (fun _ _ _ => ?_) ?_)

theorem execUnitFeed_keeps {Q : Mark} {s : State} (kp : Keeps Q s) (u : Fin 8) (val : Word) :
    KeepsO Q (execUnitFeed u val s) := by
  unfold execUnitFeed
  try dsimp only
  repeat' (first
    | (simp +contextual (maxDischargeDepth := 60) [*]; done)
    | split
    | intro _
    | refine State.each_keeps _ _ (fun _ _ _ => ?_) ?_)

theorem execUnitFeed1_keeps {Q : Mark} {s : State} (kp : Keeps Q s) (u : Fin 8) (val : Word) :
    KeepsO Q (execUnitFeed1 u val s) := by
  unfold execUnitFeed1
  try dsimp only
  repeat' (first
    | (simp +contextual (maxDischargeDepth := 60) [*]; done)
    | split
    | intro _
    | refine State.each_keeps _ _ (fun _ _ _ => ?_) ?_)

theorem execUnitRunningWrite_keeps {Q : Mark} {s : State} (kp : Keeps Q s) (u : Fin 8) (hi : Word) :
    KeepsO Q (execUnitRunningWrite u hi s) := by
  unfold execUnitRunningWrite
  try dsimp only
  repeat' (first
    | (simp +contextual (maxDischargeDepth := 60) [*]; done)
    | split
    | intro _
    | refine State.each_keeps _ _ (fun _ _ _ => ?_) ?_)

@[simp] theorem State.opFail_keeps {Q : Mark} {s : State} (kp : Keeps Q s) (o : LongOp) (reason : Nat) :
    Keeps Q (State.opFail s o reason) := by
  unfold State.opFail
  try dsimp only
  repeat' (first
    | (simp +contextual (maxDischargeDepth := 60) [*]; done)
    | split
    | intro _
    | refine State.each_keeps _ _ (fun _ _ _ => ?_) ?_)

@[simp] theorem State.opDone_keeps {Q : Mark} {s : State} (kp : Keeps Q s) (o : LongOp) :
    Keeps Q (State.opDone s o) := by
  unfold State.opDone
  try dsimp only
  repeat' (first
    | (simp +contextual (maxDischargeDepth := 60) [*]; done)
    | split
    | intro _
    | refine State.each_keeps _ _ (fun _ _ _ => ?_) ?_)

@[simp] theorem State.scanStart_keeps {Q : Mark} {s : State} (kp : Keeps Q s) (u : Nat) :
    Keeps Q (State.scanStart s u) := by
  unfold State.scanStart
  try dsimp only
  repeat' (first
    | (simp +contextual (maxDischargeDepth := 60) [*]; done)
    | split
    | intro _
    | refine State.each_keeps _ _ (fun _ _ _ => ?_) ?_)

@[simp] theorem State.scanCtrlWrite_keeps {Q : Mark} {s : State} (kp : Keeps Q s) (u : Nat) (v : Word) :
    Keeps Q (State.scanCtrlWrite s u v) := by
  unfold State.scanCtrlWrite
  try dsimp only
  repeat' (first
    | (simp +contextual (maxDischargeDepth := 60) [*]; done)
    | split
    | intro _
    | refine State.each_keeps _ _ (fun _ _ _ => ?_) ?_)

theorem execCheckScanStart_keeps {Q : Mark} {s : State} (kp : Keeps Q s) (u : Fin 8) (val : Word) :
    KeepsO Q (execCheckScanStart u val s) := by
  unfold execCheckScanStart
  try dsimp only
  repeat' (first
    | (simp +contextual (maxDischargeDepth := 60) [*]; done)
    | split
    | intro _
    | refine State.each_keeps _ _ (fun _ _ _ => ?_) ?_)

theorem execCheckScanAbort_keeps {Q : Mark} {s : State} (kp : Keeps Q s) (u : Fin 8) (val : Word) :
    KeepsO Q (execCheckScanAbort u val s) := by
  unfold execCheckScanAbort
  try dsimp only
  repeat' (first
    | (simp +contextual (maxDischargeDepth := 60) [*]; done)
    | split
    | intro _
    | refine State.each_keeps _ _ (fun _ _ _ => ?_) ?_)

@[simp] theorem State.scanEnd_keeps {Q : Mark} {s : State} (kp : Keeps Q s) (u : Nat) (data : List Byte) :
    Keeps Q (State.scanEnd s u data) := by
  unfold State.scanEnd
  try dsimp only
  repeat' (first
    | (simp +contextual (maxDischargeDepth := 60) [*]; done)
    | split
    | intro _
    | refine State.each_keeps _ _ (fun _ _ _ => ?_) ?_)

theorem execCheckScanEnd_keeps {Q : Mark} {s : State} (kp : Keeps Q s) (u : Fin 8) (data : List Byte) :
    KeepsO Q (execCheckScanEnd u data s) := by
  unfold execCheckScanEnd
  try dsimp only
  repeat' (first
    | (simp +contextual (maxDischargeDepth := 60) [*]; done)
    | split
    | intro _
    | refine State.each_keeps _ _ (fun _ _ _ => ?_) ?_)

@[simp] theorem State.opReadFailure_keeps {Q : Mark} {s : State} (kp : Keeps Q s) (o : LongOp) (host : Bool) (addr : BitVec 64) :
    Keeps Q (State.opReadFailure s o host addr) := by
  unfold State.opReadFailure
  try dsimp only
  repeat' (first
    | (simp +contextual (maxDischargeDepth := 60) [*]; done)
    | split
    | intro _
    | refine State.each_keeps _ _ (fun _ _ _ => ?_) ?_)

theorem execOperationReadFailure_keeps {Q : Mark} {s : State} (kp : Keeps Q s) (op : LongOp) (host : Bool) (addr : BitVec 64) :
    KeepsO Q (execOperationReadFailure op host addr s) := by
  unfold execOperationReadFailure
  try dsimp only
  repeat' (first
    | (simp +contextual (maxDischargeDepth := 60) [*]; done)
    | split
    | intro _
    | refine State.each_keeps _ _ (fun _ _ _ => ?_) ?_)

end Sys2Proof.Machine
end

