-- ==== Sys2Proof/Laws/KeepFabric.lean ====
section
/-!
SUPPORT. Laws/KeepFabric.lean: the operations of Machine/Fabric.lean keep what Laws/Keep.lean lists.
-/
set_option linter.unreachableTactic false
set_option linter.unusedTactic false
set_option linter.unusedSimpArgs false
set_option linter.unusedVariables false

namespace Sys2Proof.Machine

@[simp] theorem State.setLane_keeps {Q : Mark} {s : State} (kp : Keeps Q s) (l : Nat) (x : Lane) :
    Keeps Q (State.setLane s l x) := by
  unfold State.setLane
  try dsimp only
  repeat' (first
    | (simp +contextual (maxDischargeDepth := 60) [*]; done)
    | split
    | intro _
    | refine State.each_keeps _ _ (fun _ _ _ => ?_) ?_)

@[simp] theorem State.setToward_keeps {Q : Mark} {s : State} (kp : Keeps Q s) (d : Nat) (x : Toward) :
    Keeps Q (State.setToward s d x) := by
  unfold State.setToward
  try dsimp only
  repeat' (first
    | (simp +contextual (maxDischargeDepth := 60) [*]; done)
    | split
    | intro _
    | refine State.each_keeps _ _ (fun _ _ _ => ?_) ?_)

@[simp] theorem State.clearMiswired_keeps {Q : Mark} {s : State} (kp : Keeps Q s) (g : Nat) :
    Keeps Q (State.clearMiswired s g) := by
  unfold State.clearMiswired
  try dsimp only
  repeat' (first
    | (simp +contextual (maxDischargeDepth := 60) [*]; done)
    | split
    | intro _
    | refine State.each_keeps _ _ (fun _ _ _ => ?_) ?_)

@[simp] theorem State.drainIf_keeps {Q : Mark} {s : State} (kp : Keeps Q s) (d : Nat) (was : Word) (spray : Bool) :
    Keeps Q (State.drainIf s d was spray) := by
  unfold State.drainIf
  try dsimp only
  repeat' (first
    | (simp +contextual (maxDischargeDepth := 60) [*]; done)
    | split
    | intro _
    | refine State.each_keeps _ _ (fun _ _ _ => ?_) ?_)

@[simp] theorem State.grpRefresh_keeps {Q : Mark} {s : State} (kp : Keeps Q s) (g : Nat) :
    Keeps Q (State.grpRefresh s g) := by
  unfold State.grpRefresh
  try dsimp only
  repeat' (first
    | (simp +contextual (maxDischargeDepth := 60) [*]; done)
    | split
    | intro _
    | refine State.each_keeps _ _ (fun _ _ _ => ?_) ?_)

@[simp] theorem State.sendOn_keeps {Q : Mark} {s : State} (kp : Keeps Q s) (d g : Nat) (z0 : List Cell) :
    Keeps Q (State.sendOn s d g z0) := by
  fun_induction State.sendOn <;> simp_all (maxDischargeDepth := 60)

@[simp] theorem State.sendSprayed_keeps {Q : Mark} {s : State} (kp : Keeps Q s) (d : Nat) (gs : List Nat) (z0 : List Cell) :
    Keeps Q (State.sendSprayed s d gs z0) := by
  fun_induction State.sendSprayed <;> simp_all (maxDischargeDepth := 60)

@[simp] theorem State.sendFrame_keeps {Q : Mark} {s : State} (kp : Keeps Q s) (f : Stored) :
    Keeps Q (State.sendFrame s f) := by
  unfold State.sendFrame
  try dsimp only
  repeat' (first
    | (simp +contextual (maxDischargeDepth := 60) [*]; done)
    | split
    | intro _
    | refine State.each_keeps _ _ (fun _ _ _ => ?_) ?_)

@[simp] theorem State.sendCredit_keeps {Q : Mark} {s : State} (kp : Keeps Q s) (d : Nat) (m : CreditMsg) :
    Keeps Q (State.sendCredit s d m) := by
  unfold State.sendCredit
  try dsimp only
  repeat' (first
    | (simp +contextual (maxDischargeDepth := 60) [*]; done)
    | split
    | intro _
    | refine State.each_keeps _ _ (fun _ _ _ => ?_) ?_)

@[simp] theorem State.creditCell_keeps {Q : Mark} {s : State} (kp : Keeps Q s) (d : Nat) :
    Keeps Q (State.creditCell s d) := by
  unfold State.creditCell
  try dsimp only
  repeat' (first
    | (simp +contextual (maxDischargeDepth := 60) [*]; done)
    | split
    | intro _
    | refine State.each_keeps _ _ (fun _ _ _ => ?_) ?_)

theorem execCreditCellSend_keeps {Q : Mark} {s : State} (kp : Keeps Q s) (d : Fin 1024) (at' : Raw) :
    KeepsO Q (execCreditCellSend d at' s) := by
  unfold execCreditCellSend
  try dsimp only
  repeat' (first
    | (simp +contextual (maxDischargeDepth := 60) [*]; done)
    | split
    | intro _
    | refine State.each_keeps _ _ (fun _ _ _ => ?_) ?_)

@[simp] theorem State.laneOut_keeps {Q : Mark} {s : State} (kp : Keeps Q s) (l : Nat) (o : Output) (bs : List Byte) :
    Keeps Q (State.laneOut s l o bs) := by
  unfold State.laneOut
  try dsimp only
  repeat' (first
    | (simp +contextual (maxDischargeDepth := 60) [*]; done)
    | split
    | intro _
    | refine State.each_keeps _ _ (fun _ _ _ => ?_) ?_)

@[simp] theorem State.emitCell_keeps {Q : Mark} {s : State} (kp : Keeps Q s) (l : Nat) (c : Cell) :
    Keeps Q (State.emitCell s l c) := by
  unfold State.emitCell
  try dsimp only
  repeat' (first
    | (simp +contextual (maxDischargeDepth := 60) [*]; done)
    | split
    | intro _
    | refine State.each_keeps _ _ (fun _ _ _ => ?_) ?_)

@[simp] theorem State.idleRest_keeps {Q : Mark} {s : State} (kp : Keeps Q s) (g : Nat) :
    Keeps Q (State.idleRest s g) := by
  unfold State.idleRest
  try dsimp only
  repeat' (first
    | (simp +contextual (maxDischargeDepth := 60) [*]; done)
    | split
    | intro _
    | refine State.each_keeps _ _ (fun _ _ _ => ?_) ?_)

@[simp] theorem State.cellTransmit_keeps {Q : Mark} {s : State} (kp : Keeps Q s) (g : Nat) (cap : Raw) :
    Keeps Q (State.cellTransmit s g cap) := by
  unfold State.cellTransmit
  try dsimp only
  repeat' (first
    | (simp +contextual (maxDischargeDepth := 60) [*]; done)
    | split
    | intro _
    | refine State.each_keeps _ _ (fun _ _ _ => ?_) ?_)

@[simp] theorem State.markerInsert_keeps {Q : Mark} {s : State} (kp : Keeps Q s) (g : Nat) :
    Keeps Q (State.markerInsert s g) := by
  unfold State.markerInsert
  try dsimp only
  repeat' (first
    | (simp +contextual (maxDischargeDepth := 60) [*]; done)
    | split
    | intro _
    | refine State.each_keeps _ _ (fun _ _ _ => ?_) ?_)

end Sys2Proof.Machine
end

