-- ==== Sys2Proof/Laws/KeepPool.lean ====
section
/-!
SUPPORT. Laws/KeepPool.lean: the operations of Machine/Pool.lean keep what Laws/Keep.lean lists.
-/
set_option linter.unreachableTactic false
set_option linter.unusedTactic false
set_option linter.unusedSimpArgs false
set_option linter.unusedVariables false

namespace Sys2Proof.Machine

@[simp] theorem State.refill_keeps {Q : Mark} {s : State} (kp : Keeps Q s) (k : Nat) (uncorr : Bool) :
    Keeps Q (State.refill s k uncorr) := by
  unfold State.refill
  try dsimp only
  repeat' (first
    | (simp +contextual (maxDischargeDepth := 60) [*]; done)
    | split
    | intro _
    | refine State.each_keeps _ _ (fun _ _ _ => ?_) ?_)

theorem execCacheRefill_keeps {Q : Mark} {s : State} (kp : Keeps Q s) (k : Fin 16) (uncorr : Bool) :
    KeepsO Q (execCacheRefill k uncorr s) := by
  unfold execCacheRefill
  try dsimp only
  repeat' (first
    | (simp +contextual (maxDischargeDepth := 60) [*]; done)
    | split
    | intro _
    | refine State.each_keeps _ _ (fun _ _ _ => ?_) ?_)

@[simp] theorem State.spill_keeps {Q : Mark} {s : State} (kp : Keeps Q s) (k : Nat) :
    Keeps Q (State.spill s k) := by
  unfold State.spill
  try dsimp only
  repeat' (first
    | (simp +contextual (maxDischargeDepth := 60) [*]; done)
    | split
    | intro _
    | refine State.each_keeps _ _ (fun _ _ _ => ?_) ?_)

theorem execCacheSpill_keeps {Q : Mark} {s : State} (kp : Keeps Q s) (k : Fin 16) :
    KeepsO Q (execCacheSpill k s) := by
  unfold execCacheSpill
  try dsimp only
  repeat' (first
    | (simp +contextual (maxDischargeDepth := 60) [*]; done)
    | split
    | intro _
    | refine State.each_keeps _ _ (fun _ _ _ => ?_) ?_)

@[simp] theorem State.pushCell_keeps {Q : Mark} {s : State} (kp : Keeps Q s) (p : Nat) :
    Keeps Q (State.pushCell s p) := by
  unfold State.pushCell
  try dsimp only
  repeat' (first
    | (simp +contextual (maxDischargeDepth := 60) [*]; done)
    | split
    | intro _
    | refine State.each_keeps _ _ (fun _ _ _ => ?_) ?_)

@[simp] theorem State.freeChain_keeps {Q : Mark} {s : State} (kp : Keeps Q s) (z0 : List Nat) :
    Keeps Q (State.freeChain s z0) := by
  fun_induction State.freeChain <;> simp_all (maxDischargeDepth := 60)

@[simp] theorem State.popList_keeps {Q : Mark} {s : State} (kp : Keeps Q s) (k : Nat) :
    Keeps Q (State.popList s k).2 := by
  unfold State.popList
  try dsimp only
  repeat' (first
    | (simp +contextual (maxDischargeDepth := 60) [*]; done)
    | split
    | intro _
    | refine State.each_keeps _ _ (fun _ _ _ => ?_) ?_)

@[simp] theorem State.setWriter_keeps {Q : Mark} {s : State} (kp : Keeps Q s) (w : Nat) (x : Writer) :
    Keeps Q (State.setWriter s w x) := by
  unfold State.setWriter
  try dsimp only
  repeat' (first
    | (simp +contextual (maxDischargeDepth := 60) [*]; done)
    | split
    | intro _
    | refine State.each_keeps _ _ (fun _ _ _ => ?_) ?_)

@[simp] theorem State.abandon_keeps {Q : Mark} {s : State} (kp : Keeps Q s) (w : Nat) :
    Keeps Q (State.abandon s w) := by
  unfold State.abandon
  try dsimp only
  repeat' (first
    | (simp +contextual (maxDischargeDepth := 60) [*]; done)
    | split
    | intro _
    | refine State.each_keeps _ _ (fun _ _ _ => ?_) ?_)

@[simp] theorem State.serveList_keeps {Q : Mark} {s : State} (kp : Keeps Q s) (ws : List Nat) (k : Nat) :
    Keeps Q (State.serveList s ws k) := by
  unfold State.serveList
  try dsimp only
  repeat' (first
    | (simp +contextual (maxDischargeDepth := 60) [*]; done)
    | split
    | intro _
    | refine State.each_keeps _ _ (fun _ _ _ => ?_) ?_)

@[simp] theorem State.popClock_keeps {Q : Mark} {s : State} (kp : Keeps Q s) (ws : List Nat) :
    Keeps Q (State.popClock s ws) := by
  unfold State.popClock
  try dsimp only
  repeat' (first
    | (simp +contextual (maxDischargeDepth := 60) [*]; done)
    | split
    | intro _
    | refine State.each_keeps _ _ (fun _ _ _ => ?_) ?_)

theorem execCellPop_keeps {Q : Mark} {s : State} (kp : Keeps Q s) (ws : BitVec 14) :
    KeepsO Q (execCellPop ws s) := by
  unfold execCellPop
  try dsimp only
  repeat' (first
    | (simp +contextual (maxDischargeDepth := 60) [*]; done)
    | split
    | intro _
    | refine State.each_keeps _ _ (fun _ _ _ => ?_) ?_)

theorem execCellPush_keeps {Q : Mark} {s : State} (kp : Keeps Q s) (p : Fin 335544320) :
    KeepsO Q (execCellPush p s) := by
  unfold execCellPush
  try dsimp only
  repeat' (first
    | (simp +contextual (maxDischargeDepth := 60) [*]; done)
    | split
    | intro _
    | refine State.each_keeps _ _ (fun _ _ _ => ?_) ?_)

@[simp] theorem State.popUpTo_keeps {Q : Mark} {s : State} (kp : Keeps Q s) (w n : Nat) (z0 : Nat) :
    Keeps Q (State.popUpTo s w n z0) := by
  fun_induction State.popUpTo <;> simp_all (maxDischargeDepth := 60)

@[simp] theorem State.fill_keeps {Q : Mark} {s : State} (kp : Keeps Q s) (w n : Nat) :
    Keeps Q (State.fill s w n) := by
  unfold State.fill
  try dsimp only
  repeat' (first
    | (simp +contextual (maxDischargeDepth := 60) [*]; done)
    | split
    | intro _
    | refine State.each_keeps _ _ (fun _ _ _ => ?_) ?_)

@[simp] theorem State.writeChain_keeps {Q : Mark} {s : State} (kp : Keeps Q s) (w n : Nat) :
    Keeps Q (State.writeChain s w n).2 := by
  unfold State.writeChain
  try dsimp only
  repeat' (first
    | (simp +contextual (maxDischargeDepth := 60) [*]; done)
    | split
    | intro _
    | refine State.each_keeps _ _ (fun _ _ _ => ?_) ?_)

@[simp] theorem State.readChain_keeps {Q : Mark} {s : State} (kp : Keeps Q s) (cs : List Nat) :
    Keeps Q (State.readChain s cs) := by
  unfold State.readChain
  try dsimp only
  repeat' (first
    | (simp +contextual (maxDischargeDepth := 60) [*]; done)
    | split
    | intro _
    | refine State.each_keeps _ _ (fun _ _ _ => ?_) ?_)

@[simp] theorem State.orphan_keeps {Q : Mark} {s : State} (kp : Keeps Q s) (cs : List Nat) :
    Keeps Q (State.orphan s cs) := by
  unfold State.orphan
  try dsimp only
  repeat' (first
    | (simp +contextual (maxDischargeDepth := 60) [*]; done)
    | split
    | intro _
    | refine State.each_keeps _ _ (fun _ _ _ => ?_) ?_)

@[simp] theorem State.readFrame_keeps {Q : Mark} {s : State} (kp : Keeps Q s) (f : Stored) (k : State → State) (hk : ∀ t, Keeps Q t → Keeps Q (k  t)) :
    Keeps Q (State.readFrame s f k) := by
  unfold State.readFrame
  try dsimp only
  repeat' (first
    | (simp +contextual (maxDischargeDepth := 60) [*]; done)
    | split
    | intro _
    | refine State.each_keeps _ _ (fun _ _ _ => ?_) ?_)

@[simp] theorem State.queueLost_keeps {Q : Mark} {s : State} (kp : Keeps Q s) (l : List Stored) :
    Keeps Q (State.queueLost s l) := by
  unfold State.queueLost
  try dsimp only
  repeat' (first
    | (simp +contextual (maxDischargeDepth := 60) [*]; done)
    | split
    | intro _
    | refine State.each_keeps _ _ (fun _ _ _ => ?_) ?_)

@[simp] theorem State.auditShow_keeps {Q : Mark} {s : State} (kp : Keeps Q s) (a : AuditRun) :
    Keeps Q (State.auditShow s a) := by
  unfold State.auditShow
  try dsimp only
  repeat' (first
    | (simp +contextual (maxDischargeDepth := 60) [*]; done)
    | split
    | intro _
    | refine State.each_keeps _ _ (fun _ _ _ => ?_) ?_)

@[simp] theorem State.auditStart_keeps {Q : Mark} {s : State} (kp : Keeps Q s) :
    Keeps Q (State.auditStart s) := by
  unfold State.auditStart
  split
  · simp [*]
  · extract_lets d s1
    have k : Keeps Q s1 := State.wrNat_keeps (State.wr_keeps (State.opBegin_keeps kp _) _ _) _ _
    clear_value s1
    exact And.intro k.1 k.2

@[simp] theorem State.auditCtrlWrite_keeps {Q : Mark} {s : State} (kp : Keeps Q s) (v : Word) :
    Keeps Q (State.auditCtrlWrite s v) := by
  unfold State.auditCtrlWrite
  try dsimp only
  repeat' (first
    | (simp +contextual (maxDischargeDepth := 60) [*]; done)
    | split
    | intro _
    | refine State.each_keeps _ _ (fun _ _ _ => ?_) ?_)

theorem execAuditStart_keeps {Q : Mark} {s : State} (kp : Keeps Q s) (val : Word) :
    KeepsO Q (execAuditStart val s) := by
  unfold execAuditStart
  try dsimp only
  repeat' (first
    | (simp +contextual (maxDischargeDepth := 60) [*]; done)
    | split
    | intro _
    | refine State.each_keeps _ _ (fun _ _ _ => ?_) ?_)

theorem execAuditAbort_keeps {Q : Mark} {s : State} (kp : Keeps Q s) (val : Word) :
    KeepsO Q (execAuditAbort val s) := by
  unfold execAuditAbort
  try dsimp only
  repeat' (first
    | (simp +contextual (maxDischargeDepth := 60) [*]; done)
    | split
    | intro _
    | refine State.each_keeps _ _ (fun _ _ _ => ?_) ?_)

@[simp] theorem State.auditWalk_keeps {Q : Mark} {s : State} (kp : Keeps Q s) (flips : BitVec 128) (uncorr : Bool) :
    Keeps Q (State.auditWalk s flips uncorr) := by
  unfold State.auditWalk
  try dsimp only
  repeat' (first
    | (simp +contextual (maxDischargeDepth := 60) [*]; done)
    | split
    | intro _
    | refine State.each_keeps _ _ (fun _ _ _ => ?_) ?_)

theorem execAuditCarrierWalk_keeps {Q : Mark} {s : State} (kp : Keeps Q s) (flips : BitVec 128) (uncorr : Bool) :
    KeepsO Q (execAuditCarrierWalk flips uncorr s) := by
  unfold execAuditCarrierWalk
  try dsimp only
  repeat' (first
    | (simp +contextual (maxDischargeDepth := 60) [*]; done)
    | split
    | intro _
    | refine State.each_keeps _ _ (fun _ _ _ => ?_) ?_)

@[simp] theorem State.auditEnd_keeps {Q : Mark} {s : State} (kp : Keeps Q s) :
    Keeps Q (State.auditEnd s) := by
  unfold State.auditEnd
  try dsimp only
  repeat' (first
    | (simp +contextual (maxDischargeDepth := 60) [*]; done)
    | split
    | intro _
    | refine State.each_keeps _ _ (fun _ _ _ => ?_) ?_)

theorem execAuditEnd_keeps {Q : Mark} {s : State} (kp : Keeps Q s) :
    KeepsO Q (execAuditEnd s) := by
  unfold execAuditEnd
  try dsimp only
  repeat' (first
    | (simp +contextual (maxDischargeDepth := 60) [*]; done)
    | split
    | intro _
    | refine State.each_keeps _ _ (fun _ _ _ => ?_) ?_)

@[simp] theorem State.sweepStart_keeps {Q : Mark} {s : State} (kp : Keeps Q s) :
    Keeps Q (State.sweepStart s) := by
  unfold State.sweepStart
  try dsimp only
  repeat' (first
    | (simp +contextual (maxDischargeDepth := 60) [*]; done)
    | split
    | intro _
    | refine State.each_keeps _ _ (fun _ _ _ => ?_) ?_)

@[simp] theorem State.sweepCtrlWrite_keeps {Q : Mark} {s : State} (kp : Keeps Q s) (v : Word) :
    Keeps Q (State.sweepCtrlWrite s v) := by
  unfold State.sweepCtrlWrite
  try dsimp only
  repeat' (first
    | (simp +contextual (maxDischargeDepth := 60) [*]; done)
    | split
    | intro _
    | refine State.each_keeps _ _ (fun _ _ _ => ?_) ?_)

theorem execSweepStart_keeps {Q : Mark} {s : State} (kp : Keeps Q s) (val : Word) :
    KeepsO Q (execSweepStart val s) := by
  unfold execSweepStart
  try dsimp only
  repeat' (first
    | (simp +contextual (maxDischargeDepth := 60) [*]; done)
    | split
    | intro _
    | refine State.each_keeps _ _ (fun _ _ _ => ?_) ?_)

theorem execSweepAbort_keeps {Q : Mark} {s : State} (kp : Keeps Q s) (val : Word) :
    KeepsO Q (execSweepAbort val s) := by
  unfold execSweepAbort
  try dsimp only
  repeat' (first
    | (simp +contextual (maxDischargeDepth := 60) [*]; done)
    | split
    | intro _
    | refine State.each_keeps _ _ (fun _ _ _ => ?_) ?_)

@[simp] theorem State.pushRun_keeps {Q : Mark} {s : State} (kp : Keeps Q s) (k start : Nat) (z0 : Nat) :
    Keeps Q (State.pushRun s k start z0) := by
  fun_induction State.pushRun <;> simp_all (maxDischargeDepth := 60)

@[simp] theorem State.pushRuns_keeps {Q : Mark} {s : State} (kp : Keeps Q s) (z0 : List (Nat × Run)) :
    Keeps Q (State.pushRuns s z0) := by
  fun_induction State.pushRuns <;> simp_all (maxDischargeDepth := 60)

@[simp] theorem State.sweepShow_keeps {Q : Mark} {s : State} (kp : Keeps Q s) (r : SweepRun) :
    Keeps Q (State.sweepShow s r) := by
  unfold State.sweepShow
  try dsimp only
  repeat' (first
    | (simp +contextual (maxDischargeDepth := 60) [*]; done)
    | split
    | intro _
    | refine State.each_keeps _ _ (fun _ _ _ => ?_) ?_)

@[simp] theorem State.reclaimTo_keeps {Q : Mark} {s : State} (kp : Keeps Q s) (r : SweepRun) (p : Nat) :
    Keeps Q (State.reclaimTo s r p) := by
  unfold State.reclaimTo
  try dsimp only
  repeat' (first
    | (simp +contextual (maxDischargeDepth := 60) [*]; done)
    | split
    | intro _
    | refine State.each_keeps _ _ (fun _ _ _ => ?_) ?_)

@[simp] theorem State.sweepOn_keeps {Q : Mark} {s : State} (kp : Keeps Q s) :
    Keeps Q (State.sweepOn s) := by
  unfold State.sweepOn
  try dsimp only
  repeat' (first
    | (simp +contextual (maxDischargeDepth := 60) [*]; done)
    | split
    | intro _
    | refine State.each_keeps _ _ (fun _ _ _ => ?_) ?_)

@[simp] theorem State.sweepMarked_keeps {Q : Mark} {s : State} (kp : Keeps Q s) :
    Keeps Q (State.sweepMarked s) := by
  unfold State.sweepMarked
  try dsimp only
  repeat' (first
    | (simp +contextual (maxDischargeDepth := 60) [*]; done)
    | split
    | intro _
    | refine State.each_keeps _ _ (fun _ _ _ => ?_) ?_)

theorem execSweepMarkingEnd_keeps {Q : Mark} {s : State} (kp : Keeps Q s) :
    KeepsO Q (execSweepMarkingEnd s) := by
  unfold execSweepMarkingEnd
  try dsimp only
  repeat' (first
    | (simp +contextual (maxDischargeDepth := 60) [*]; done)
    | split
    | intro _
    | refine State.each_keeps _ _ (fun _ _ _ => ?_) ?_)

@[simp] theorem State.sweepEnd_keeps {Q : Mark} {s : State} (kp : Keeps Q s) :
    Keeps Q (State.sweepEnd s) := by
  unfold State.sweepEnd
  try dsimp only
  repeat' (first
    | (simp +contextual (maxDischargeDepth := 60) [*]; done)
    | split
    | intro _
    | refine State.each_keeps _ _ (fun _ _ _ => ?_) ?_)

theorem execSweepEnd_keeps {Q : Mark} {s : State} (kp : Keeps Q s) :
    KeepsO Q (execSweepEnd s) := by
  unfold execSweepEnd
  try dsimp only
  repeat' (first
    | (simp +contextual (maxDischargeDepth := 60) [*]; done)
    | split
    | intro _
    | refine State.each_keeps _ _ (fun _ _ _ => ?_) ?_)

end Sys2Proof.Machine
end

