-- ==== Sys2Proof/Laws/KeepSched.lean ====
section
/-!
SUPPORT. Laws/KeepSched.lean: the operations of Machine/Sched.lean keep what Laws/Keep.lean lists.
-/
set_option linter.unreachableTactic false
set_option linter.unusedTactic false
set_option linter.unusedSimpArgs false
set_option linter.unusedVariables false

namespace Sys2Proof.Machine

@[simp] theorem State.setReq_keeps {Q : Mark} {s : State} (kp : Keeps Q s) (r : CreditReq) :
    Keeps Q (State.setReq s r) := by
  unfold State.setReq
  try dsimp only
  repeat' (first
    | (simp +contextual (maxDischargeDepth := 60) [*]; done)
    | split
    | intro _
    | refine State.each_keeps _ _ (fun _ _ _ => ?_) ?_)

@[simp] theorem State.charged_keeps {Q : Mark} {s : State} (kp : Keeps Q s) (port cls src bytes : Nat) :
    Keeps Q (State.charged s port cls src bytes) := by
  unfold State.charged
  try dsimp only
  repeat' (first
    | (simp +contextual (maxDischargeDepth := 60) [*]; done)
    | split
    | intro _
    | refine State.each_keeps _ _ (fun _ _ _ => ?_) ?_)

@[simp] theorem State.setStaging_keeps {Q : Mark} {s : State} (kp : Keeps Q s) (port : Nat) (l : List Stored) :
    Keeps Q (State.setStaging s port l) := by
  unfold State.setStaging
  try dsimp only
  repeat' (first
    | (simp +contextual (maxDischargeDepth := 60) [*]; done)
    | split
    | intro _
    | refine State.each_keeps _ _ (fun _ _ _ => ?_) ?_)

@[simp] theorem State.stage_keeps {Q : Mark} {s : State} (kp : Keeps Q s) (f : Stored) :
    Keeps Q (State.stage s f) := by
  unfold State.stage
  try dsimp only
  repeat' (first
    | (simp +contextual (maxDischargeDepth := 60) [*]; done)
    | split
    | intro _
    | refine State.each_keeps _ _ (fun _ _ _ => ?_) ?_)

@[simp] theorem State.setNode_keeps {Q : Mark} {s : State} (kp : Keeps Q s) (level idx : Nat) (x : Node) :
    Keeps Q (State.setNode s level idx x) := by
  unfold State.setNode
  try dsimp only
  repeat' (first
    | (simp +contextual (maxDischargeDepth := 60) [*]; done)
    | split
    | intro _
    | refine State.each_keeps _ _ (fun _ _ _ => ?_) ?_)

@[simp] theorem State.settle_keeps {Q : Mark} {s : State} (kp : Keeps Q s) :
    Keeps Q (State.settle s) := by
  unfold State.settle
  try dsimp only
  repeat' (first
    | (simp +contextual (maxDischargeDepth := 60) [*]; done)
    | split
    | intro _
    | refine State.each_keeps _ _ (fun _ _ _ => ?_) ?_)

@[simp] theorem State.schedStatus_keeps {Q : Mark} {s : State} (kp : Keeps Q s) (port cls src : Nat) (on : Bool) (ret : Nat) (received : Word) :
    Keeps Q (State.schedStatus s port cls src on ret received) := by
  unfold State.schedStatus
  try dsimp only
  repeat' (first
    | (simp +contextual (maxDischargeDepth := 60) [*]; done)
    | split
    | intro _
    | refine State.each_keeps _ _ (fun _ _ _ => ?_) ?_)

@[simp] theorem State.discard_keeps {Q : Mark} {s : State} (kp : Keeps Q s) (f : Stored) :
    Keeps Q (State.discard s f) := by
  unfold State.discard
  try dsimp only
  repeat' (first
    | (simp +contextual (maxDischargeDepth := 60) [*]; done)
    | split
    | intro _
    | refine State.each_keeps _ _ (fun _ _ _ => ?_) ?_)

@[simp] theorem State.subEnqueue_keeps {Q : Mark} {s : State} (kp : Keeps Q s) (f : Stored) :
    Keeps Q (State.subEnqueue s f) := by
  unfold State.subEnqueue
  try dsimp only
  repeat' (first
    | (simp +contextual (maxDischargeDepth := 60) [*]; done)
    | split
    | intro _
    | refine State.each_keeps _ _ (fun _ _ _ => ?_) ?_)

@[simp] theorem State.arrive_keeps {Q : Mark} {s : State} (kp : Keeps Q s) (f : Stored) :
    Keeps Q (State.arrive s f) := by
  unfold State.arrive
  try dsimp only
  repeat' (first
    | (simp +contextual (maxDischargeDepth := 60) [*]; done)
    | split
    | intro _
    | refine State.each_keeps _ _ (fun _ _ _ => ?_) ?_)

end Sys2Proof.Machine
end

