-- ==== Sys2Proof/Laws/KeepVoq.lean ====
section
/-!
SUPPORT. Laws/KeepVoq.lean: the operations of Machine/Voq.lean keep what Laws/Keep.lean lists.
-/
set_option linter.unreachableTactic false
set_option linter.unusedTactic false
set_option linter.unusedSimpArgs false
set_option linter.unusedVariables false

namespace Sys2Proof.Machine

@[simp] theorem State.setDest_keeps {Q : Mark} {s : State} (kp : Keeps Q s) (dev port st : Nat) :
    Keeps Q (State.setDest s dev port st) := by
  unfold State.setDest
  try dsimp only
  repeat' (first
    | (simp +contextual (maxDischargeDepth := 60) [*]; done)
    | split
    | intro _
    | refine State.each_keeps _ _ (fun _ _ _ => ?_) ?_)

@[simp] theorem State.setVoq_keeps {Q : Mark} {s : State} (kp : Keeps Q s) (v : Nat) (x : Voq) :
    Keeps Q (State.setVoq s v x) := by
  unfold State.setVoq
  try dsimp only
  repeat' (first
    | (simp +contextual (maxDischargeDepth := 60) [*]; done)
    | split
    | intro _
    | refine State.each_keeps _ _ (fun _ _ _ => ?_) ?_)

@[simp] theorem State.mapSelWrite_keeps {Q : Mark} {s : State} (kp : Keeps Q s) (v : Word) :
    Keeps Q (State.mapSelWrite s v) := by
  unfold State.mapSelWrite
  try dsimp only
  repeat' (first
    | (simp +contextual (maxDischargeDepth := 60) [*]; done)
    | split
    | intro _
    | refine State.each_keeps _ _ (fun _ _ _ => ?_) ?_)

theorem execVoqMapWrite_keeps {Q : Mark} {s : State} (kp : Keeps Q s) (val : Word) :
    KeepsO Q (execVoqMapWrite val s) := by
  unfold execVoqMapWrite
  try dsimp only
  repeat' (first
    | (simp +contextual (maxDischargeDepth := 60) [*]; done)
    | split
    | intro _
    | refine State.each_keeps _ _ (fun _ _ _ => ?_) ?_)

theorem execVoqMapRead_keeps {Q : Mark} {s : State} (kp : Keeps Q s) (val : Word) :
    KeepsO Q (execVoqMapRead val s) := by
  unfold execVoqMapRead
  try dsimp only
  repeat' (first
    | (simp +contextual (maxDischargeDepth := 60) [*]; done)
    | split
    | intro _
    | refine State.each_keeps _ _ (fun _ _ _ => ?_) ?_)

@[simp] theorem State.qSelWrite_keeps {Q : Mark} {s : State} (kp : Keeps Q s) (v : Word) :
    Keeps Q (State.qSelWrite s v) := by
  unfold State.qSelWrite
  try dsimp only
  repeat' (first
    | (simp +contextual (maxDischargeDepth := 60) [*]; done)
    | split
    | intro _
    | refine State.each_keeps _ _ (fun _ _ _ => ?_) ?_)

theorem execVoqStateRead_keeps {Q : Mark} {s : State} (kp : Keeps Q s) (val : Word) :
    KeepsO Q (execVoqStateRead val s) := by
  unfold execVoqStateRead
  try dsimp only
  repeat' (first
    | (simp +contextual (maxDischargeDepth := 60) [*]; done)
    | split
    | intro _
    | refine State.each_keeps _ _ (fun _ _ _ => ?_) ?_)

@[simp] theorem State.statusOn_keeps {Q : Mark} {s : State} (kp : Keeps Q s) (x : Voq) :
    Keeps Q (State.statusOn s x) := by
  unfold State.statusOn
  try dsimp only
  repeat' (first
    | (simp +contextual (maxDischargeDepth := 60) [*]; done)
    | split
    | intro _
    | refine State.each_keeps _ _ (fun _ _ _ => ?_) ?_)

@[simp] theorem State.statusOff_keeps {Q : Mark} {s : State} (kp : Keeps Q s) (x : Voq) :
    Keeps Q (State.statusOff s x) := by
  unfold State.statusOff
  try dsimp only
  repeat' (first
    | (simp +contextual (maxDischargeDepth := 60) [*]; done)
    | split
    | intro _
    | refine State.each_keeps _ _ (fun _ _ _ => ?_) ?_)

@[simp] theorem State.voqOffAs_keeps {Q : Mark} {s : State} (kp : Keeps Q s) (v : Nat) (id : Voq) :
    Keeps Q (State.voqOffAs s v id) := by
  unfold State.voqOffAs
  try dsimp only
  repeat' (first
    | (simp +contextual (maxDischargeDepth := 60) [*]; done)
    | split
    | intro _
    | refine State.each_keeps _ _ (fun _ _ _ => ?_) ?_)

@[simp] theorem State.voqOff_keeps {Q : Mark} {s : State} (kp : Keeps Q s) (v : Nat) :
    Keeps Q (State.voqOff s v) := by
  unfold State.voqOff
  try dsimp only
  repeat' (first
    | (simp +contextual (maxDischargeDepth := 60) [*]; done)
    | split
    | intro _
    | refine State.each_keeps _ _ (fun _ _ _ => ?_) ?_)

@[simp] theorem State.release_keeps {Q : Mark} {s : State} (kp : Keeps Q s) (v : Nat) (f : Stored) :
    Keeps Q (State.release s v f) := by
  unfold State.release
  try dsimp only
  repeat' (first
    | (simp +contextual (maxDischargeDepth := 60) [*]; done)
    | split
    | intro _
    | refine State.each_keeps _ _ (fun _ _ _ => ?_) ?_)

@[simp] theorem State.voqRelease_keeps {Q : Mark} {s : State} (kp : Keeps Q s) (v : Nat) (z0 : Nat) :
    Keeps Q (State.voqRelease s v z0) := by
  fun_induction State.voqRelease <;> simp_all (maxDischargeDepth := 60)

@[simp] theorem State.voqServe_keeps {Q : Mark} {s : State} (kp : Keeps Q s) (v : Nat) :
    Keeps Q (State.voqServe s v) := by
  unfold State.voqServe
  try dsimp only
  repeat' (first
    | (simp +contextual (maxDischargeDepth := 60) [*]; done)
    | split
    | intro _
    | refine State.each_keeps _ _ (fun _ _ _ => ?_) ?_)

@[simp] theorem State.creditIn_keeps {Q : Mark} {s : State} (kp : Keeps Q s) (dev port cls bytes : Nat) :
    Keeps Q (State.creditIn s dev port cls bytes) := by
  unfold State.creditIn
  try dsimp only
  repeat' (first
    | (simp +contextual (maxDischargeDepth := 60) [*]; done)
    | split
    | intro _
    | refine State.each_keeps _ _ (fun _ _ _ => ?_) ?_)

@[simp] theorem State.voqLost_keeps {Q : Mark} {s : State} (kp : Keeps Q s) (v : Nat) :
    Keeps Q (State.voqLost s v) := by
  unfold State.voqLost
  try dsimp only
  repeat' (first
    | (simp +contextual (maxDischargeDepth := 60) [*]; done)
    | split
    | intro _
    | refine State.each_keeps _ _ (fun _ _ _ => ?_) ?_)

theorem execCreditReceived_keeps {Q : Mark} {s : State} (kp : Keeps Q s) (dev : Fin 1024) (port : Fin 128) (cls : Fin 8) (bytes : Nat) (errs : List (Nat × Nat)) (qBad : Bool) :
    KeepsO Q (execCreditReceived dev port cls bytes errs qBad s) := by
  unfold execCreditReceived
  try dsimp only
  repeat' (first
    | (simp +contextual (maxDischargeDepth := 60) [*]; done)
    | split
    | intro _
    | refine State.each_keeps _ _ (fun _ _ _ => ?_) ?_)

@[simp] theorem State.statusRefresh_keeps {Q : Mark} {s : State} (kp : Keeps Q s) (v : Nat) :
    Keeps Q (State.statusRefresh s v) := by
  unfold State.statusRefresh
  try dsimp only
  repeat' (first
    | (simp +contextual (maxDischargeDepth := 60) [*]; done)
    | split
    | intro _
    | refine State.each_keeps _ _ (fun _ _ _ => ?_) ?_)

theorem execStatusOnRefresh_keeps {Q : Mark} {s : State} (kp : Keeps Q s) (v : Fin 262144) :
    KeepsO Q (execStatusOnRefresh v s) := by
  unfold execStatusOnRefresh
  try dsimp only
  repeat' (first
    | (simp +contextual (maxDischargeDepth := 60) [*]; done)
    | split
    | intro _
    | refine State.each_keeps _ _ (fun _ _ _ => ?_) ?_)

theorem execStatusReceived_keeps {Q : Mark} {s : State} (kp : Keeps Q s) (port : Fin 128) (cls : Fin 8) (src : Fin 1024) (on : Bool) (ret : Nat) (received : Word) :
    KeepsO Q (execStatusReceived port cls src on ret received s) := by
  unfold execStatusReceived
  try dsimp only
  repeat' (first
    | (simp +contextual (maxDischargeDepth := 60) [*]; done)
    | split
    | intro _
    | refine State.each_keeps _ _ (fun _ _ _ => ?_) ?_)

@[simp] theorem State.ctEnd_keeps {Q : Mark} {s : State} (kp : Keeps Q s) (f : Stored) :
    Keeps Q (State.ctEnd s f).2 := by
  unfold State.ctEnd
  try dsimp only
  repeat' (first
    | (simp +contextual (maxDischargeDepth := 60) [*]; done)
    | split
    | intro _
    | refine State.each_keeps _ _ (fun _ _ _ => ?_) ?_)

@[simp] theorem State.voqEnqueue_keeps {Q : Mark} {s : State} (kp : Keeps Q s) (f : Stored) (cut : Option (Nat × Nat)) :
    Keeps Q (State.voqEnqueue s f cut) := by
  unfold State.voqEnqueue
  try dsimp only
  repeat' (first
    | (simp +contextual (maxDischargeDepth := 60) [*]; done)
    | split
    | intro _
    | refine State.each_keeps _ _ (fun _ _ _ => ?_) ?_)

@[simp] theorem State.setHoldOf_keeps {Q : Mark} {s : State} (kp : Keeps Q s) (i : Nat) (h : Hold) :
    Keeps Q (State.setHoldOf s i h) := by
  unfold State.setHoldOf
  try dsimp only
  repeat' (first
    | (simp +contextual (maxDischargeDepth := 60) [*]; done)
    | split
    | intro _
    | refine State.each_keeps _ _ (fun _ _ _ => ?_) ?_)

@[simp] theorem State.portState_keeps {Q : Mark} {s : State} (kp : Keeps Q s) (i st : Nat) :
    Keeps Q (State.portState s i st) := by
  unfold State.portState
  try dsimp only
  repeat' (first
    | (simp +contextual (maxDischargeDepth := 60) [*]; done)
    | split
    | intro _
    | refine State.each_keeps _ _ (fun _ _ _ => ?_) ?_)

@[simp] theorem State.discardAll_keeps {Q : Mark} {s : State} (kp : Keeps Q s) (z0 : List Stored) :
    Keeps Q (State.discardAll s z0) := by
  fun_induction State.discardAll <;> simp_all (maxDischargeDepth := 60)

@[simp] theorem State.flushVoqs_keeps {Q : Mark} {s : State} (kp : Keeps Q s) (dev port : Nat) :
    Keeps Q (State.flushVoqs s dev port) := by
  unfold State.flushVoqs
  try dsimp only
  repeat' (first
    | (simp +contextual (maxDischargeDepth := 60) [*]; done)
    | split
    | intro _
    | refine State.each_keeps _ _ (fun _ _ _ => ?_) ?_)

@[simp] theorem State.flushStaging_keeps {Q : Mark} {s : State} (kp : Keeps Q s) (i : Nat) :
    Keeps Q (State.flushStaging s i) := by
  unfold State.flushStaging
  try dsimp only
  repeat' (first
    | (simp +contextual (maxDischargeDepth := 60) [*]; done)
    | split
    | intro _
    | refine State.each_keeps _ _ (fun _ _ _ => ?_) ?_)

@[simp] theorem State.flushWait_keeps {Q : Mark} {s : State} (kp : Keeps Q s) (j : Nat) :
    Keeps Q (State.flushWait s j) := by
  unfold State.flushWait
  try dsimp only
  repeat' (first
    | (simp +contextual (maxDischargeDepth := 60) [*]; done)
    | split
    | intro _
    | refine State.each_keeps _ _ (fun _ _ _ => ?_) ?_)

@[simp] theorem State.flushSubs_keeps {Q : Mark} {s : State} (kp : Keeps Q s) (i : Nat) :
    Keeps Q (State.flushSubs s i) := by
  unfold State.flushSubs
  try dsimp only
  repeat' (first
    | (simp +contextual (maxDischargeDepth := 60) [*]; done)
    | split
    | intro _
    | refine State.each_keeps _ _ (fun _ _ _ => ?_) ?_)

@[simp] theorem State.flushPort_keeps {Q : Mark} {s : State} (kp : Keeps Q s) (i : Nat) :
    Keeps Q (State.flushPort s i) := by
  unfold State.flushPort
  try dsimp only
  repeat' (first
    | (simp +contextual (maxDischargeDepth := 60) [*]; done)
    | split
    | intro _
    | refine State.each_keeps _ _ (fun _ _ _ => ?_) ?_)

@[simp] theorem State.portDown_keeps {Q : Mark} {s : State} (kp : Keeps Q s) (i : Nat) :
    Keeps Q (State.portDown s i) := by
  unfold State.portDown
  try dsimp only
  repeat' (first
    | (simp +contextual (maxDischargeDepth := 60) [*]; done)
    | split
    | intro _
    | refine State.each_keeps _ _ (fun _ _ _ => ?_) ?_)

@[simp] theorem State.portUp_keeps {Q : Mark} {s : State} (kp : Keeps Q s) (i : Nat) :
    Keeps Q (State.portUp s i) := by
  unfold State.portUp
  try dsimp only
  repeat' (first
    | (simp +contextual (maxDischargeDepth := 60) [*]; done)
    | split
    | intro _
    | refine State.each_keeps _ _ (fun _ _ _ => ?_) ?_)

@[simp] theorem State.holdExpiry_keeps {Q : Mark} {s : State} (kp : Keeps Q s) (i : Nat) :
    Keeps Q (State.holdExpiry s i) := by
  unfold State.holdExpiry
  try dsimp only
  repeat' (first
    | (simp +contextual (maxDischargeDepth := 60) [*]; done)
    | split
    | intro _
    | refine State.each_keeps _ _ (fun _ _ _ => ?_) ?_)

theorem execHoldDownExpiry_keeps {Q : Mark} {s : State} (kp : Keeps Q s) (i : Fin 75) (at' : Raw) :
    KeepsO Q (execHoldDownExpiry i at' s) := by
  unfold execHoldDownExpiry
  try dsimp only
  repeat' (first
    | (simp +contextual (maxDischargeDepth := 60) [*]; done)
    | split
    | intro _
    | refine State.each_keeps _ _ (fun _ _ _ => ?_) ?_)

@[simp] theorem State.portStateIn_keeps {Q : Mark} {s : State} (kp : Keeps Q s) (dev port st : Nat) :
    Keeps Q (State.portStateIn s dev port st) := by
  unfold State.portStateIn
  try dsimp only
  repeat' (first
    | (simp +contextual (maxDischargeDepth := 60) [*]; done)
    | split
    | intro _
    | refine State.each_keeps _ _ (fun _ _ _ => ?_) ?_)

theorem execPortStateReceived_keeps {Q : Mark} {s : State} (kp : Keeps Q s) (dev : Fin 1024) (port : Fin 128) (st : Fin 3) :
    KeepsO Q (execPortStateReceived dev port st s) := by
  unfold execPortStateReceived
  try dsimp only
  repeat' (first
    | (simp +contextual (maxDischargeDepth := 60) [*]; done)
    | split
    | intro _
    | refine State.each_keeps _ _ (fun _ _ _ => ?_) ?_)

@[simp] theorem State.replicate_keeps {Q : Mark} {s : State} (kp : Keeps Q s) (m : McFrame) :
    Keeps Q (State.replicate s m) := by
  unfold State.replicate
  try dsimp only
  repeat' (first
    | (simp +contextual (maxDischargeDepth := 60) [*]; done)
    | split
    | intro _
    | refine State.each_keeps _ _ (fun _ _ _ => ?_) ?_)

@[simp] theorem State.noCopy_keeps {Q : Mark} {s : State} (kp : Keeps Q s) (dev port : Nat) :
    Keeps Q (State.noCopy s dev port) := by
  unfold State.noCopy
  try dsimp only
  repeat' (first
    | (simp +contextual (maxDischargeDepth := 60) [*]; done)
    | split
    | intro _
    | refine State.each_keeps _ _ (fun _ _ _ => ?_) ?_)

@[simp] theorem State.fitChain_keeps {Q : Mark} {s : State} (kp : Keeps Q s) (cells : List Nat) (n : Nat) :
    Keeps Q (State.fitChain s cells n).2 := by
  unfold State.fitChain
  try dsimp only
  repeat' (first
    | (simp +contextual (maxDischargeDepth := 60) [*]; done)
    | split
    | intro _
    | refine State.each_keeps _ _ (fun _ _ _ => ?_) ?_)

@[simp] theorem State.copies_keeps {Q : Mark} {s : State} (kp : Keeps Q s) (f : Stored) (z0 : List McTarget) :
    Keeps Q (State.copies s f z0) := by
  induction z0 generalizing s with
  | nil => simpa [State.copies] using by simp [*]
  | cons t ts ih =>
    simp only [State.copies]
    repeat' (first
      | (simp +contextual (maxDischargeDepth := 60) [*]; done)
      | refine ih ?_
      | split
      | intro _
      | refine State.each_keeps _ _ (fun _ _ _ => ?_) ?_)

@[simp] theorem State.replicationTake_keeps {Q : Mark} {s : State} (kp : Keeps Q s) :
    Keeps Q (State.replicationTake s) := by
  unfold State.replicationTake
  try dsimp only
  repeat' (first
    | (simp +contextual (maxDischargeDepth := 60) [*]; done)
    | split
    | intro _
    | refine State.each_keeps _ _ (fun _ _ _ => ?_) ?_)

theorem execReplicationTake_keeps {Q : Mark} {s : State} (kp : Keeps Q s) :
    KeepsO Q (execReplicationTake s) := by
  unfold execReplicationTake
  try dsimp only
  repeat' (first
    | (simp +contextual (maxDischargeDepth := 60) [*]; done)
    | split
    | intro _
    | refine State.each_keeps _ _ (fun _ _ _ => ?_) ?_)

end Sys2Proof.Machine
end

