-- ==== Sys2Proof/Laws/KeepAlmanac.lean ====
section
/-!
SUPPORT. Laws/KeepAlmanac.lean: the operations of Machine/Almanac.lean keep what Laws/Keep.lean lists.
-/
set_option linter.unreachableTactic false
set_option linter.unusedTactic false
set_option linter.unusedSimpArgs false
set_option linter.unusedVariables false

namespace Sys2Proof.Machine

@[simp] theorem State.wheelPut_keeps {Q : Mark} {s : State} (kp : Keeps Q s) (level idx : Nat) :
    Keeps Q (State.wheelPut s level idx) := by
  unfold State.wheelPut
  try dsimp only
  repeat' (first
    | (simp +contextual (maxDischargeDepth := 60) [*]; done)
    | split
    | intro _
    | refine State.each_keeps _ _ (fun _ _ _ => ?_) ?_)

@[simp] theorem State.chargeNode_keeps {Q : Mark} {s : State} (kp : Keeps Q s) (level idx bytes : Nat) :
    Keeps Q (State.chargeNode s level idx bytes) := by
  unfold State.chargeNode
  try dsimp only
  repeat' (first
    | (simp +contextual (maxDischargeDepth := 60) [*]; done)
    | split
    | intro _
    | refine State.each_keeps _ _ (fun _ _ _ => ?_) ?_)

@[simp] theorem State.resetNode_keeps {Q : Mark} {s : State} (kp : Keeps Q s) (level idx : Nat) :
    Keeps Q (State.resetNode s level idx) := by
  unfold State.resetNode
  try dsimp only
  repeat' (first
    | (simp +contextual (maxDischargeDepth := 60) [*]; done)
    | split
    | intro _
    | refine State.each_keeps _ _ (fun _ _ _ => ?_) ?_)

@[simp] theorem State.resetBlank_keeps {Q : Mark} {s : State} (kp : Keeps Q s) :
    Keeps Q (State.resetBlank s) := by
  unfold State.resetBlank
  try dsimp only
  repeat' (first
    | (simp +contextual (maxDischargeDepth := 60) [*]; done)
    | split
    | intro _
    | refine State.each_keeps _ _ (fun _ _ _ => ?_) ?_)

@[simp] theorem State.resetNodes_keeps {Q : Mark} {s : State} (kp : Keeps Q s) :
    Keeps Q (State.resetNodes s) := by
  unfold State.resetNodes
  try dsimp only
  repeat' (first
    | (simp +contextual (maxDischargeDepth := 60) [*]; done)
    | split
    | intro _
    | refine State.each_keeps _ _ (fun _ _ _ => ?_) ?_)

@[simp] theorem State.wheelSlot_keeps {Q : Mark} {s : State} (kp : Keeps Q s) (coarse : Bool) :
    Keeps Q (State.wheelSlot s coarse) := by
  unfold State.wheelSlot
  try dsimp only
  repeat' (first
    | (simp +contextual (maxDischargeDepth := 60) [*]; done)
    | split
    | intro _
    | refine State.each_keeps _ _ (fun _ _ _ => ?_) ?_)

theorem execWheelSlot_keeps {Q : Mark} {s : State} (kp : Keeps Q s) (coarse : Bool) (at' : Raw) :
    KeepsO Q (execWheelSlot coarse at' s) := by
  unfold execWheelSlot
  try dsimp only
  repeat' (first
    | (simp +contextual (maxDischargeDepth := 60) [*]; done)
    | split
    | intro _
    | refine State.each_keeps _ _ (fun _ _ _ => ?_) ?_)

@[simp] theorem State.drr_keeps {Q : Mark} {s : State} (kp : Keeps Q s) (level : Nat) (z0 : Nat) (z1 : List Nat) :
    Keeps Q (State.drr s level z0 z1).2 := by
  induction z0 generalizing s z1 with
  | zero => simpa [State.drr] using kp
  | succ k ih =>
    cases z1 with
    | nil => simpa [State.drr] using kp
    | cons c cs =>
      simp only [State.drr]
      split
      · simp [*]
      · exact ih (by simp [*]) _

@[simp] theorem State.pick_keeps {Q : Mark} {s : State} (kp : Keeps Q s) (l idx : Nat) (cs : List Nat) :
    Keeps Q (State.pick s l idx cs).2 := by
  unfold State.pick
  try dsimp only
  repeat' (first
    | (simp +contextual (maxDischargeDepth := 60) [*]; done)
    | split
    | intro _
    | refine State.each_keeps _ _ (fun _ _ _ => ?_) ?_)

@[simp] theorem State.select_keeps {Q : Mark} {s : State} (kp : Keeps Q s) (leaf : Nat → Bool) (z0 : Nat) (z1 : Nat) (z2 : Nat) :
    Keeps Q (State.select s leaf z0 z1 z2).2 := by
  induction z0 generalizing s z1 z2 with
  | zero => simpa [State.select] using kp
  | succ k ih =>
    simp only [State.select]
    repeat' (first
      | (simp +contextual (maxDischargeDepth := 60) [*]; done)
      | refine ih ?_ _ _
      | split
      | intro _
      | refine State.each_keeps _ _ (fun _ _ _ => ?_) ?_)

@[simp] theorem State.chargePath_keeps {Q : Mark} {s : State} (kp : Keeps Q s) (l1 bytes : Nat) (path : List Nat) :
    Keeps Q (State.chargePath s l1 bytes path) := by
  unfold State.chargePath
  try dsimp only
  repeat' (first
    | (simp +contextual (maxDischargeDepth := 60) [*]; done)
    | split
    | intro _
    | refine State.each_keeps _ _ (fun _ _ _ => ?_) ?_)

@[simp] theorem State.ponSelect_keeps {Q : Mark} {s : State} (kp : Keeps Q s) (ch : Nat) (qBad : Bool) (k : Nat → Stored → State → State) (hk : ∀ x0 x1 t, Keeps Q t → Keeps Q (k x0 x1 t)) :
    Keeps Q (State.ponSelect s ch qBad k) := by
  unfold State.ponSelect
  try dsimp only
  repeat' (first
    | (simp +contextual (maxDischargeDepth := 60) [*]; done)
    | split
    | intro _
    | refine State.each_keeps _ _ (fun _ _ _ => ?_) ?_)

@[simp] theorem State.issue_keeps {Q : Mark} {s : State} (kp : Keeps Q s) (key : Nat) (r : CreditReq) :
    Keeps Q (State.issue s key r) := by
  unfold State.issue
  try dsimp only
  repeat' (first
    | (simp +contextual (maxDischargeDepth := 60) [*]; done)
    | split
    | intro _
    | refine State.each_keeps _ _ (fun _ _ _ => ?_) ?_)

@[simp] theorem State.creditIssue_keeps {Q : Mark} {s : State} (kp : Keeps Q s) (port : Nat) :
    Keeps Q (State.creditIssue s port) := by
  unfold State.creditIssue
  try dsimp only
  repeat' (first
    | (simp +contextual (maxDischargeDepth := 60) [*]; done)
    | split
    | intro _
    | refine State.each_keeps _ _ (fun _ _ _ => ?_) ?_)

theorem execCreditIssue_keeps {Q : Mark} {s : State} (kp : Keeps Q s) (port : Fin 75) :
    KeepsO Q (execCreditIssue port s) := by
  unfold execCreditIssue
  try dsimp only
  repeat' (first
    | (simp +contextual (maxDischargeDepth := 60) [*]; done)
    | split
    | intro _
    | refine State.each_keeps _ _ (fun _ _ _ => ?_) ?_)

@[simp] theorem State.nodeSelWrite_keeps {Q : Mark} {s : State} (kp : Keeps Q s) (v : Word) :
    Keeps Q (State.nodeSelWrite s v) := by
  unfold State.nodeSelWrite
  try dsimp only
  repeat' (first
    | (simp +contextual (maxDischargeDepth := 60) [*]; done)
    | split
    | intro _
    | refine State.each_keeps _ _ (fun _ _ _ => ?_) ?_)

theorem execNodeWrite_keeps {Q : Mark} {s : State} (kp : Keeps Q s) (val : Word) :
    KeepsO Q (execNodeWrite val s) := by
  unfold execNodeWrite
  try dsimp only
  repeat' (first
    | (simp +contextual (maxDischargeDepth := 60) [*]; done)
    | split
    | intro _
    | refine State.each_keeps _ _ (fun _ _ _ => ?_) ?_)

theorem execNodeRead_keeps {Q : Mark} {s : State} (kp : Keeps Q s) (val : Word) :
    KeepsO Q (execNodeRead val s) := by
  unfold execNodeRead
  try dsimp only
  repeat' (first
    | (simp +contextual (maxDischargeDepth := 60) [*]; done)
    | split
    | intro _
    | refine State.each_keeps _ _ (fun _ _ _ => ?_) ?_)

@[simp] theorem State.setPolicer_keeps {Q : Mark} {s : State} (kp : Keeps Q s) (i : Nat) (x : Policer) :
    Keeps Q (State.setPolicer s i x) := by
  unfold State.setPolicer
  try dsimp only
  repeat' (first
    | (simp +contextual (maxDischargeDepth := 60) [*]; done)
    | split
    | intro _
    | refine State.each_keeps _ _ (fun _ _ _ => ?_) ?_)

@[simp] theorem State.resetPolicer_keeps {Q : Mark} {s : State} (kp : Keeps Q s) (i : Nat) :
    Keeps Q (State.resetPolicer s i) := by
  unfold State.resetPolicer
  try dsimp only
  repeat' (first
    | (simp +contextual (maxDischargeDepth := 60) [*]; done)
    | split
    | intro _
    | refine State.each_keeps _ _ (fun _ _ _ => ?_) ?_)

@[simp] theorem State.resetBlankPol_keeps {Q : Mark} {s : State} (kp : Keeps Q s) :
    Keeps Q (State.resetBlankPol s) := by
  unfold State.resetBlankPol
  try dsimp only
  repeat' (first
    | (simp +contextual (maxDischargeDepth := 60) [*]; done)
    | split
    | intro _
    | refine State.each_keeps _ _ (fun _ _ _ => ?_) ?_)

@[simp] theorem State.resetPolicers_keeps {Q : Mark} {s : State} (kp : Keeps Q s) :
    Keeps Q (State.resetPolicers s) := by
  unfold State.resetPolicers
  try dsimp only
  repeat' (first
    | (simp +contextual (maxDischargeDepth := 60) [*]; done)
    | split
    | intro _
    | refine State.each_keeps _ _ (fun _ _ _ => ?_) ?_)

@[simp] theorem State.resetBound_keeps {Q : Mark} {s : State} (kp : Keeps Q s) (kind idx : Nat) :
    Keeps Q (State.resetBound s kind idx) := by
  unfold State.resetBound
  try dsimp only
  repeat' (first
    | (simp +contextual (maxDischargeDepth := 60) [*]; done)
    | split
    | intro _
    | refine State.each_keeps _ _ (fun _ _ _ => ?_) ?_)

@[simp] theorem State.profSelWrite_keeps {Q : Mark} {s : State} (kp : Keeps Q s) (v : Word) :
    Keeps Q (State.profSelWrite s v) := by
  unfold State.profSelWrite
  extract_lets s1 bank kind idx key al s3 al2 s2
  have k1 : Keeps Q s1 := State.wrTyped_keeps kp _ _
  have k3 : Keeps Q s3 := k1
  have k2 : Keeps Q s2 := by
    simp only [s2]
    split
    · split
      · exact State.resetBound_keeps k3 _ _
      · split <;> exact k3
    · exact k1
  clear_value s2 s1
  split
  · exact k1
  · split
    · exact State.setBit_keeps (State.wrWords_keeps k2 _ _) _ _ _
    · exact k2

theorem execProfileWrite_keeps {Q : Mark} {s : State} (kp : Keeps Q s) (val : Word) :
    KeepsO Q (execProfileWrite val s) := by
  unfold execProfileWrite
  try dsimp only
  repeat' (first
    | (simp +contextual (maxDischargeDepth := 60) [*]; done)
    | split
    | intro _
    | refine State.each_keeps _ _ (fun _ _ _ => ?_) ?_)

theorem execProfileRead_keeps {Q : Mark} {s : State} (kp : Keeps Q s) (val : Word) :
    KeepsO Q (execProfileRead val s) := by
  unfold execProfileRead
  try dsimp only
  repeat' (first
    | (simp +contextual (maxDischargeDepth := 60) [*]; done)
    | split
    | intro _
    | refine State.each_keeps _ _ (fun _ _ _ => ?_) ?_)

@[simp] theorem State.polSelWrite_keeps {Q : Mark} {s : State} (kp : Keeps Q s) (v : Word) :
    Keeps Q (State.polSelWrite s v) := by
  unfold State.polSelWrite
  try dsimp only
  repeat' (first
    | (simp +contextual (maxDischargeDepth := 60) [*]; done)
    | split
    | intro _
    | refine State.each_keeps _ _ (fun _ _ _ => ?_) ?_)

theorem execPolicerWrite_keeps {Q : Mark} {s : State} (kp : Keeps Q s) (val : Word) :
    KeepsO Q (execPolicerWrite val s) := by
  unfold execPolicerWrite
  try dsimp only
  repeat' (first
    | (simp +contextual (maxDischargeDepth := 60) [*]; done)
    | split
    | intro _
    | refine State.each_keeps _ _ (fun _ _ _ => ?_) ?_)

theorem execPolicerRead_keeps {Q : Mark} {s : State} (kp : Keeps Q s) (val : Word) :
    KeepsO Q (execPolicerRead val s) := by
  unfold execPolicerRead
  try dsimp only
  repeat' (first
    | (simp +contextual (maxDischargeDepth := 60) [*]; done)
    | split
    | intro _
    | refine State.each_keeps _ _ (fun _ _ _ => ?_) ?_)

@[simp] theorem State.police_keeps {Q : Mark} {s : State} (kp : Keeps Q s) (i len colour : Nat) :
    Keeps Q (State.police s i len colour).2 := by
  unfold State.police
  try dsimp only
  repeat' (first
    | (simp +contextual (maxDischargeDepth := 60) [*]; done)
    | split
    | intro _
    | refine State.each_keeps _ _ (fun _ _ _ => ?_) ?_)

@[simp] theorem State.almSwitch_keeps {Q : Mark} {s : State} (kp : Keeps Q s) :
    Keeps Q (State.almSwitch s) := by
  unfold State.almSwitch
  try dsimp only
  repeat' (first
    | (simp +contextual (maxDischargeDepth := 60) [*]; done)
    | split
    | intro _
    | refine State.each_keeps _ _ (fun _ _ _ => ?_) ?_)

@[simp] theorem State.almRequest_keeps {Q : Mark} {s : State} (kp : Keeps Q s) (target : Nat) :
    Keeps Q (State.almRequest s target) := by
  unfold State.almRequest
  try dsimp only
  repeat' (first
    | (simp +contextual (maxDischargeDepth := 60) [*]; done)
    | split
    | intro _
    | refine State.each_keeps _ _ (fun _ _ _ => ?_) ?_)

@[simp] theorem State.almCommitWrite_keeps {Q : Mark} {s : State} (kp : Keeps Q s) (v : Word) :
    Keeps Q (State.almCommitWrite s v) := by
  unfold State.almCommitWrite
  try dsimp only
  repeat' (first
    | (simp +contextual (maxDischargeDepth := 60) [*]; done)
    | split
    | intro _
    | refine State.each_keeps _ _ (fun _ _ _ => ?_) ?_)

theorem execAlmCommitGo_keeps {Q : Mark} {s : State} (kp : Keeps Q s) (val : Word) :
    KeepsO Q (execAlmCommitGo val s) := by
  unfold execAlmCommitGo
  try dsimp only
  repeat' (first
    | (simp +contextual (maxDischargeDepth := 60) [*]; done)
    | split
    | intro _
    | refine State.each_keeps _ _ (fun _ _ _ => ?_) ?_)

end Sys2Proof.Machine
end

