-- ==== Sys2Proof/Laws/KeepChrono.lean ====
section
/-!
SUPPORT. Laws/KeepChrono.lean: the operations of Machine/Chrono.lean keep what Laws/Keep.lean lists.
-/
set_option linter.unreachableTactic false
set_option linter.unusedTactic false
set_option linter.unusedSimpArgs false
set_option linter.unusedVariables false

namespace Sys2Proof.Machine

@[simp] theorem State.keepView_keeps {Q : Mark} {s : State} (kp : Keeps Q s) (v : Nat) :
    Keeps Q (State.keepView s v) := by
  unfold State.keepView
  try dsimp only
  repeat' (first
    | (simp +contextual (maxDischargeDepth := 60) [*]; done)
    | split
    | intro _
    | refine State.each_keeps _ _ (fun _ _ _ => ?_) ?_)

@[simp] theorem State.bumpGen_keeps {Q : Mark} {s : State} (kp : Keeps Q s) (v : Nat) :
    Keeps Q (State.bumpGen s v) := by
  unfold State.bumpGen
  try dsimp only
  repeat' (first
    | (simp +contextual (maxDischargeDepth := 60) [*]; done)
    | split
    | intro _
    | refine State.each_keeps _ _ (fun _ _ _ => ?_) ?_)

@[simp] theorem State.setOffset_keeps {Q : Mark} {s : State} (kp : Keeps Q s) (v : Nat) (x : BitVec 96) :
    Keeps Q (State.setOffset s v x) := by
  unfold State.setOffset
  try dsimp only
  repeat' (first
    | (simp +contextual (maxDischargeDepth := 60) [*]; done)
    | split
    | intro _
    | refine State.each_keeps _ _ (fun _ _ _ => ?_) ?_)

@[simp] theorem State.rateCommit_keeps {Q : Mark} {s : State} (kp : Keeps Q s) (v : Nat) (hi : Word) :
    Keeps Q (State.rateCommit s v hi) := by
  unfold State.rateCommit
  try dsimp only
  repeat' (first
    | (simp +contextual (maxDischargeDepth := 60) [*]; done)
    | split
    | intro _
    | refine State.each_keeps _ _ (fun _ _ _ => ?_) ?_)

theorem execViewRateCommit_keeps {Q : Mark} {s : State} (kp : Keeps Q s) (v : Fin 16) (hi : Word) :
    KeepsO Q (execViewRateCommit v hi s) := by
  unfold execViewRateCommit
  try dsimp only
  repeat' (first
    | (simp +contextual (maxDischargeDepth := 60) [*]; done)
    | split
    | intro _
    | refine State.each_keeps _ _ (fun _ _ _ => ?_) ?_)

@[simp] theorem State.offsetCommit_keeps {Q : Mark} {s : State} (kp : Keeps Q s) (v : Nat) (w2 : Word) :
    Keeps Q (State.offsetCommit s v w2) := by
  unfold State.offsetCommit
  try dsimp only
  repeat' (first
    | (simp +contextual (maxDischargeDepth := 60) [*]; done)
    | split
    | intro _
    | refine State.each_keeps _ _ (fun _ _ _ => ?_) ?_)

theorem execViewOffsetCommit_keeps {Q : Mark} {s : State} (kp : Keeps Q s) (v : Fin 16) (w2 : Word) :
    KeepsO Q (execViewOffsetCommit v w2 s) := by
  unfold execViewOffsetCommit
  try dsimp only
  repeat' (first
    | (simp +contextual (maxDischargeDepth := 60) [*]; done)
    | split
    | intro _
    | refine State.each_keeps _ _ (fun _ _ _ => ?_) ?_)

@[simp] theorem State.stepCommit_keeps {Q : Mark} {s : State} (kp : Keeps Q s) (v : Nat) (hi : Word) :
    Keeps Q (State.stepCommit s v hi) := by
  unfold State.stepCommit
  try dsimp only
  repeat' (first
    | (simp +contextual (maxDischargeDepth := 60) [*]; done)
    | split
    | intro _
    | refine State.each_keeps _ _ (fun _ _ _ => ?_) ?_)

theorem execViewStepCommit_keeps {Q : Mark} {s : State} (kp : Keeps Q s) (v : Fin 16) (hi : Word) :
    KeepsO Q (execViewStepCommit v hi s) := by
  unfold execViewStepCommit
  try dsimp only
  repeat' (first
    | (simp +contextual (maxDischargeDepth := 60) [*]; done)
    | split
    | intro _
    | refine State.each_keeps _ _ (fun _ _ _ => ?_) ?_)

theorem execStampConversion_keeps {Q : Mark} {s : State} (kp : Keeps Q s) (port : Fin 75) (rx : Bool) (cap : Raw) (latency : Nat) (domain : Option Byte) :
    KeepsO Q (execStampConversion port rx cap latency domain s) := by
  unfold execStampConversion
  try dsimp only
  repeat' (first
    | (simp +contextual (maxDischargeDepth := 60) [*]; done)
    | split
    | intro _
    | refine State.each_keeps _ _ (fun _ _ _ => ?_) ?_)

@[simp] theorem State.snapWrite_keeps {Q : Mark} {s : State} (kp : Keeps Q s) (v : Word) :
    Keeps Q (State.snapWrite s v) := by
  unfold State.snapWrite
  try dsimp only
  repeat' (first
    | (simp +contextual (maxDischargeDepth := 60) [*]; done)
    | split
    | intro _
    | refine State.each_keeps _ _ (fun _ _ _ => ?_) ?_)

theorem execTimeSnapGo_keeps {Q : Mark} {s : State} (kp : Keeps Q s) (val : Word) :
    KeepsO Q (execTimeSnapGo val s) := by
  unfold execTimeSnapGo
  try dsimp only
  repeat' (first
    | (simp +contextual (maxDischargeDepth := 60) [*]; done)
    | split
    | intro _
    | refine State.each_keeps _ _ (fun _ _ _ => ?_) ?_)

@[simp] theorem State.txStamp_keeps {Q : Mark} {s : State} (kp : Keeps Q s) (q : Nat) (e : TxStamp) :
    Keeps Q (State.txStamp s q e) := by
  unfold State.txStamp
  try dsimp only
  repeat' (first
    | (simp +contextual (maxDischargeDepth := 60) [*]; done)
    | split
    | intro _
    | refine State.each_keeps _ _ (fun _ _ _ => ?_) ?_)

theorem execTransmitStampReturn_keeps {Q : Mark} {s : State} (kp : Keeps Q s) (q : Fin 8) (tsId : BitVec 16) (port : Fin 75) (stamp : Stamp) :
    KeepsO Q (execTransmitStampReturn q tsId port stamp s) := by
  unfold execTransmitStampReturn
  try dsimp only
  repeat' (first
    | (simp +contextual (maxDischargeDepth := 60) [*]; done)
    | split
    | intro _
    | refine State.each_keeps _ _ (fun _ _ _ => ?_) ?_)

@[simp] theorem State.txtsRead_keeps {Q : Mark} {s : State} (kp : Keeps Q s) (q : Nat) :
    Keeps Q (State.txtsRead s q) := by
  unfold State.txtsRead
  try dsimp only
  repeat' (first
    | (simp +contextual (maxDischargeDepth := 60) [*]; done)
    | split
    | intro _
    | refine State.each_keeps _ _ (fun _ _ _ => ?_) ?_)

theorem execTxtsRead_keeps {Q : Mark} {s : State} (kp : Keeps Q s) (q : Fin 8) :
    KeepsO Q (execTxtsRead q s) := by
  unfold execTxtsRead
  try dsimp only
  repeat' (first
    | (simp +contextual (maxDischargeDepth := 60) [*]; done)
    | split
    | intro _
    | refine State.each_keeps _ _ (fun _ _ _ => ?_) ?_)

@[simp] theorem State.synceLoss_keeps {Q : Mark} {s : State} (kp : Keeps Q s) (a : Nat) :
    Keeps Q (State.synceLoss s a) := by
  unfold State.synceLoss
  try dsimp only
  repeat' (first
    | (simp +contextual (maxDischargeDepth := 60) [*]; done)
    | split
    | intro _
    | refine State.each_keeps _ _ (fun _ _ _ => ?_) ?_)

theorem execSynceSourceLoss_keeps {Q : Mark} {s : State} (kp : Keeps Q s) (a : Fin 2) :
    KeepsO Q (execSynceSourceLoss a s) := by
  unfold execSynceSourceLoss
  try dsimp only
  repeat' (first
    | (simp +contextual (maxDischargeDepth := 60) [*]; done)
    | split
    | intro _
    | refine State.each_keeps _ _ (fun _ _ _ => ?_) ?_)

@[simp] theorem State.synceResume_keeps {Q : Mark} {s : State} (kp : Keeps Q s) (a : Nat) :
    Keeps Q (State.synceResume s a) := by
  unfold State.synceResume
  try dsimp only
  repeat' (first
    | (simp +contextual (maxDischargeDepth := 60) [*]; done)
    | split
    | intro _
    | refine State.each_keeps _ _ (fun _ _ _ => ?_) ?_)

theorem execSynceResume_keeps {Q : Mark} {s : State} (kp : Keeps Q s) (a : Fin 2) (at' : Raw) :
    KeepsO Q (execSynceResume a at' s) := by
  unfold execSynceResume
  try dsimp only
  repeat' (first
    | (simp +contextual (maxDischargeDepth := 60) [*]; done)
    | split
    | intro _
    | refine State.each_keeps _ _ (fun _ _ _ => ?_) ?_)

@[simp] theorem State.ppsIn_keeps {Q : Mark} {s : State} (kp : Keeps Q s) (falling : Bool) (cap : Raw) :
    Keeps Q (State.ppsIn s falling cap) := by
  unfold State.ppsIn
  try dsimp only
  repeat' (first
    | (simp +contextual (maxDischargeDepth := 60) [*]; done)
    | split
    | intro _
    | refine State.each_keeps _ _ (fun _ _ _ => ?_) ?_)

theorem execPpsInEdge_keeps {Q : Mark} {s : State} (kp : Keeps Q s) (falling : Bool) (cap : Raw) :
    KeepsO Q (execPpsInEdge falling cap s) := by
  unfold execPpsInEdge
  try dsimp only
  repeat' (first
    | (simp +contextual (maxDischargeDepth := 60) [*]; done)
    | split
    | intro _
    | refine State.each_keeps _ _ (fun _ _ _ => ?_) ?_)

@[simp] theorem State.todByte_keeps {Q : Mark} {s : State} (kp : Keeps Q s) (b : Byte) :
    Keeps Q (State.todByte s b) := by
  unfold State.todByte
  try dsimp only
  repeat' (first
    | (simp +contextual (maxDischargeDepth := 60) [*]; done)
    | split
    | intro _
    | refine State.each_keeps _ _ (fun _ _ _ => ?_) ?_)

theorem execTodInByte_keeps {Q : Mark} {s : State} (kp : Keeps Q s) (b : Byte) :
    KeepsO Q (execTodInByte b s) := by
  unfold execTodInByte
  try dsimp only
  repeat' (first
    | (simp +contextual (maxDischargeDepth := 60) [*]; done)
    | split
    | intro _
    | refine State.each_keeps _ _ (fun _ _ _ => ?_) ?_)

@[simp] theorem State.todRead_keeps {Q : Mark} {s : State} (kp : Keeps Q s) :
    Keeps Q (State.todRead s) := by
  unfold State.todRead
  try dsimp only
  repeat' (first
    | (simp +contextual (maxDischargeDepth := 60) [*]; done)
    | split
    | intro _
    | refine State.each_keeps _ _ (fun _ _ _ => ?_) ?_)

theorem execTodInRead_keeps {Q : Mark} {s : State} (kp : Keeps Q s) :
    KeepsO Q (execTodInRead s) := by
  unfold execTodInRead
  try dsimp only
  repeat' (first
    | (simp +contextual (maxDischargeDepth := 60) [*]; done)
    | split
    | intro _
    | refine State.each_keeps _ _ (fun _ _ _ => ?_) ?_)

@[simp] theorem State.ppsOut_keeps {Q : Mark} {s : State} (kp : Keeps Q s) :
    Keeps Q (State.ppsOut s) := by
  unfold State.ppsOut
  try dsimp only
  repeat' (first
    | (simp +contextual (maxDischargeDepth := 60) [*]; done)
    | split
    | intro _
    | refine State.each_keeps _ _ (fun _ _ _ => ?_) ?_)

theorem execPpsOutPulse_keeps {Q : Mark} {s : State} (kp : Keeps Q s) (at' : Raw) :
    KeepsO Q (execPpsOutPulse at' s) := by
  unfold execPpsOutPulse
  try dsimp only
  repeat' (first
    | (simp +contextual (maxDischargeDepth := 60) [*]; done)
    | split
    | intro _
    | refine State.each_keeps _ _ (fun _ _ _ => ?_) ?_)

@[simp] theorem State.todAppend_keeps {Q : Mark} {s : State} (kp : Keeps Q s) (v : Word) :
    Keeps Q (State.todAppend s v) := by
  unfold State.todAppend
  try dsimp only
  repeat' (first
    | (simp +contextual (maxDischargeDepth := 60) [*]; done)
    | split
    | intro _
    | refine State.each_keeps _ _ (fun _ _ _ => ?_) ?_)

theorem execTodOutDataWrite_keeps {Q : Mark} {s : State} (kp : Keeps Q s) (val : Word) :
    KeepsO Q (execTodOutDataWrite val s) := by
  unfold execTodOutDataWrite
  try dsimp only
  repeat' (first
    | (simp +contextual (maxDischargeDepth := 60) [*]; done)
    | split
    | intro _
    | refine State.each_keeps _ _ (fun _ _ _ => ?_) ?_)

@[simp] theorem State.todCtrl_keeps {Q : Mark} {s : State} (kp : Keeps Q s) (v : Word) :
    Keeps Q (State.todCtrl s v) := by
  unfold State.todCtrl
  try dsimp only
  repeat' (first
    | (simp +contextual (maxDischargeDepth := 60) [*]; done)
    | split
    | intro _
    | refine State.each_keeps _ _ (fun _ _ _ => ?_) ?_)

theorem execTodOutSend_keeps {Q : Mark} {s : State} (kp : Keeps Q s) (val : Word) :
    KeepsO Q (execTodOutSend val s) := by
  unfold execTodOutSend
  try dsimp only
  repeat' (first
    | (simp +contextual (maxDischargeDepth := 60) [*]; done)
    | split
    | intro _
    | refine State.each_keeps _ _ (fun _ _ _ => ?_) ?_)

@[simp] theorem State.todTransmit_keeps {Q : Mark} {s : State} (kp : Keeps Q s) :
    Keeps Q (State.todTransmit s) := by
  unfold State.todTransmit
  try dsimp only
  repeat' (first
    | (simp +contextual (maxDischargeDepth := 60) [*]; done)
    | split
    | intro _
    | refine State.each_keeps _ _ (fun _ _ _ => ?_) ?_)

theorem execTodOutTransmit_keeps {Q : Mark} {s : State} (kp : Keeps Q s) (at' : Raw) :
    KeepsO Q (execTodOutTransmit at' s) := by
  unfold execTodOutTransmit
  try dsimp only
  repeat' (first
    | (simp +contextual (maxDischargeDepth := 60) [*]; done)
    | split
    | intro _
    | refine State.each_keeps _ _ (fun _ _ _ => ?_) ?_)

@[simp] theorem State.ponCfgWrite_keeps {Q : Mark} {s : State} (kp : Keeps Q s) (v : Word) (tx : Bool) :
    Keeps Q (State.ponCfgWrite s v tx) := by
  unfold State.ponCfgWrite
  try dsimp only
  repeat' (first
    | (simp +contextual (maxDischargeDepth := 60) [*]; done)
    | split
    | intro _
    | refine State.each_keeps _ _ (fun _ _ _ => ?_) ?_)

@[simp] theorem State.setPulse_keeps {Q : Mark} {s : State} (kp : Keeps Q s) (k : Nat) (p : Option Raw) :
    Keeps Q (State.setPulse s k p) := by
  unfold State.setPulse
  try dsimp only
  repeat' (first
    | (simp +contextual (maxDischargeDepth := 60) [*]; done)
    | split
    | intro _
    | refine State.each_keeps _ _ (fun _ _ _ => ?_) ?_)

@[simp] theorem State.gpioPulse_keeps {Q : Mark} {s : State} (kp : Keeps Q s) (k width : Nat) :
    Keeps Q (State.gpioPulse s k width) := by
  unfold State.gpioPulse
  try dsimp only
  repeat' (first
    | (simp +contextual (maxDischargeDepth := 60) [*]; done)
    | split
    | intro _
    | refine State.each_keeps _ _ (fun _ _ _ => ?_) ?_)

@[simp] theorem State.pulseEnd_keeps {Q : Mark} {s : State} (kp : Keeps Q s) (k : Nat) :
    Keeps Q (State.pulseEnd s k) := by
  unfold State.pulseEnd
  try dsimp only
  repeat' (first
    | (simp +contextual (maxDischargeDepth := 60) [*]; done)
    | split
    | intro _
    | refine State.each_keeps _ _ (fun _ _ _ => ?_) ?_)

theorem execGpioPulseEnd_keeps {Q : Mark} {s : State} (kp : Keeps Q s) (k : Fin 8) (at' : Raw) :
    KeepsO Q (execGpioPulseEnd k at' s) := by
  unfold execGpioPulseEnd
  try dsimp only
  repeat' (first
    | (simp +contextual (maxDischargeDepth := 60) [*]; done)
    | split
    | intro _
    | refine State.each_keeps _ _ (fun _ _ _ => ?_) ?_)

@[simp] theorem State.gpioWrite_keeps {Q : Mark} {s : State} (kp : Keeps Q s) (k : Nat) (v : Word) :
    Keeps Q (State.gpioWrite s k v) := by
  unfold State.gpioWrite
  try dsimp only
  repeat' (first
    | (simp +contextual (maxDischargeDepth := 60) [*]; done)
    | split
    | intro _
    | refine State.each_keeps _ _ (fun _ _ _ => ?_) ?_)

theorem execGpioCfgWrite_keeps {Q : Mark} {s : State} (kp : Keeps Q s) (k : Fin 8) (val : Word) :
    KeepsO Q (execGpioCfgWrite k val s) := by
  unfold execGpioCfgWrite
  try dsimp only
  repeat' (first
    | (simp +contextual (maxDischargeDepth := 60) [*]; done)
    | split
    | intro _
    | refine State.each_keeps _ _ (fun _ _ _ => ?_) ?_)

@[simp] theorem State.wpShow_keeps {Q : Mark} {s : State} (kp : Keeps Q s) (slot st : Nat) (late : Bool) (lateness : Nat) :
    Keeps Q (State.wpShow s slot st late lateness) := by
  unfold State.wpShow
  try dsimp only
  repeat' (first
    | (simp +contextual (maxDischargeDepth := 60) [*]; done)
    | split
    | intro _
    | refine State.each_keeps _ _ (fun _ _ _ => ?_) ?_)

@[simp] theorem State.setArmed_keeps {Q : Mark} {s : State} (kp : Keeps Q s) (slot : Nat) (a : Option Armed) :
    Keeps Q (State.setArmed s slot a) := by
  unfold State.setArmed
  try dsimp only
  repeat' (first
    | (simp +contextual (maxDischargeDepth := 60) [*]; done)
    | split
    | intro _
    | refine State.each_keeps _ _ (fun _ _ _ => ?_) ?_)

@[simp] theorem State.wpStore_keeps {Q : Mark} {s : State} (kp : Keeps Q s) (d slot st : Nat) (lateness : Word) :
    Keeps Q (State.wpStore s d slot st lateness) := by
  unfold State.wpStore
  try dsimp only
  repeat' (first
    | (simp +contextual (maxDischargeDepth := 60) [*]; done)
    | split
    | intro _
    | refine State.each_keeps _ _ (fun _ _ _ => ?_) ?_)

@[simp] theorem State.wpLeft_keeps {Q : Mark} {s : State} (kp : Keeps Q s) (slot : Nat) :
    Keeps Q (State.wpLeft s slot) := by
  unfold State.wpLeft
  try dsimp only
  repeat' (first
    | (simp +contextual (maxDischargeDepth := 60) [*]; done)
    | split
    | intro _
    | refine State.each_keeps _ _ (fun _ _ _ => ?_) ?_)

@[simp] theorem State.wpCtrlWrite_keeps {Q : Mark} {s : State} (kp : Keeps Q s) (slot : Nat) (v : Word) :
    Keeps Q (State.wpCtrlWrite s slot v) := by
  unfold State.wpCtrlWrite
  try dsimp only
  repeat' (first
    | (simp +contextual (maxDischargeDepth := 60) [*]; done)
    | split
    | intro _
    | refine State.each_keeps _ _ (fun _ _ _ => ?_) ?_)

theorem execWaypointArm_keeps {Q : Mark} {s : State} (kp : Keeps Q s) (slot : Fin 512) (val : Word) :
    KeepsO Q (execWaypointArm slot val s) := by
  unfold execWaypointArm
  try dsimp only
  repeat' (first
    | (simp +contextual (maxDischargeDepth := 60) [*]; done)
    | split
    | intro _
    | refine State.each_keeps _ _ (fun _ _ _ => ?_) ?_)

theorem execWaypointDisarm_keeps {Q : Mark} {s : State} (kp : Keeps Q s) (slot : Fin 512) (val : Word) :
    KeepsO Q (execWaypointDisarm slot val s) := by
  unfold execWaypointDisarm
  try dsimp only
  repeat' (first
    | (simp +contextual (maxDischargeDepth := 60) [*]; done)
    | split
    | intro _
    | refine State.each_keeps _ _ (fun _ _ _ => ?_) ?_)

end Sys2Proof.Machine
end

