-- ==== Sys2Proof/Laws/KeepGates.lean ====
section
/-!
SUPPORT. Laws/KeepGates.lean: the operations of Machine/Gates.lean keep what Laws/Keep.lean lists.
-/
set_option linter.unreachableTactic false
set_option linter.unusedTactic false
set_option linter.unusedSimpArgs false
set_option linter.unusedVariables false

namespace Sys2Proof.Machine

@[simp] theorem State.setGates_keeps {Q : Mark} {s : State} (kp : Keeps Q s) (m : Nat) (x : Gates) :
    Keeps Q (State.setGates s m x) := by
  unfold State.setGates
  try dsimp only
  repeat' (first
    | (simp +contextual (maxDischargeDepth := 60) [*]; done)
    | split
    | intro _
    | refine State.each_keeps _ _ (fun _ _ _ => ?_) ?_)

@[simp] theorem State.dropOversize_keeps {Q : Mark} {s : State} (kp : Keeps Q s) (m c : Nat) (z0 : Nat) :
    Keeps Q (State.dropOversize s m c z0) := by
  fun_induction State.dropOversize <;> simp_all (maxDischargeDepth := 60)

@[simp] theorem State.testHeads_keeps {Q : Mark} {s : State} (kp : Keeps Q s) (m : Nat) :
    Keeps Q (State.testHeads s m) := by
  unfold State.testHeads
  try dsimp only
  repeat' (first
    | (simp +contextual (maxDischargeDepth := 60) [*]; done)
    | split
    | intro _
    | refine State.each_keeps _ _ (fun _ _ _ => ?_) ?_)

@[simp] theorem State.showT0_keeps {Q : Mark} {s : State} (kp : Keeps Q s) (m t0 : Nat) :
    Keeps Q (State.showT0 s m t0) := by
  unfold State.showT0
  try dsimp only
  repeat' (first
    | (simp +contextual (maxDischargeDepth := 60) [*]; done)
    | split
    | intro _
    | refine State.each_keeps _ _ (fun _ _ _ => ?_) ?_)

@[simp] theorem State.gateRequest_keeps {Q : Mark} {s : State} (kp : Keeps Q s) (m : Nat) :
    Keeps Q (State.gateRequest s m) := by
  unfold State.gateRequest
  try dsimp only
  repeat' (first
    | (simp +contextual (maxDischargeDepth := 60) [*]; done)
    | split
    | intro _
    | refine State.each_keeps _ _ (fun _ _ _ => ?_) ?_)

@[simp] theorem State.gateCtrlWrite_keeps {Q : Mark} {s : State} (kp : Keeps Q s) (m : Nat) (v : Word) :
    Keeps Q (State.gateCtrlWrite s m v) := by
  unfold State.gateCtrlWrite
  try dsimp only
  repeat' (first
    | (simp +contextual (maxDischargeDepth := 60) [*]; done)
    | split
    | intro _
    | refine State.each_keeps _ _ (fun _ _ _ => ?_) ?_)

theorem execGateListGo_keeps {Q : Mark} {s : State} (kp : Keeps Q s) (m : Fin 24) (val : Word) :
    KeepsO Q (execGateListGo m val s) := by
  unfold execGateListGo
  try dsimp only
  repeat' (first
    | (simp +contextual (maxDischargeDepth := 60) [*]; done)
    | split
    | intro _
    | refine State.each_keeps _ _ (fun _ _ _ => ?_) ?_)

@[simp] theorem State.gateShow_keeps {Q : Mark} {s : State} (kp : Keeps Q s) (m : Nat) :
    Keeps Q (State.gateShow s m) := by
  unfold State.gateShow
  try dsimp only
  repeat' (first
    | (simp +contextual (maxDischargeDepth := 60) [*]; done)
    | split
    | intro _
    | refine State.each_keeps _ _ (fun _ _ _ => ?_) ?_)

@[simp] theorem State.gateStart_keeps {Q : Mark} {s : State} (kp : Keeps Q s) (m : Nat) :
    Keeps Q (State.gateStart s m) := by
  unfold State.gateStart
  try dsimp only
  repeat' (first
    | (simp +contextual (maxDischargeDepth := 60) [*]; done)
    | split
    | intro _
    | refine State.each_keeps _ _ (fun _ _ _ => ?_) ?_)

theorem execGateListStart_keeps {Q : Mark} {s : State} (kp : Keeps Q s) (m : Fin 24) (at' : Raw) :
    KeepsO Q (execGateListStart m at' s) := by
  unfold execGateListStart
  try dsimp only
  repeat' (first
    | (simp +contextual (maxDischargeDepth := 60) [*]; done)
    | split
    | intro _
    | refine State.each_keeps _ _ (fun _ _ _ => ?_) ?_)

theorem execGateEntryBoundary_keeps {Q : Mark} {s : State} (kp : Keeps Q s) (m : Fin 24) (at' : Raw) :
    KeepsO Q (execGateEntryBoundary m at' s) := by
  unfold execGateEntryBoundary
  try dsimp only
  repeat' (first
    | (simp +contextual (maxDischargeDepth := 60) [*]; done)
    | split
    | intro _
    | refine State.each_keeps _ _ (fun _ _ _ => ?_) ?_)

@[simp] theorem State.gateAdmin_keeps {Q : Mark} {s : State} (kp : Keeps Q s) (m : Nat) (f : State → State) (hf : ∀ t, Keeps Q t → Keeps Q (f  t)) :
    Keeps Q (State.gateAdmin s m f) := by
  unfold State.gateAdmin
  try dsimp only
  repeat' (first
    | (simp +contextual (maxDischargeDepth := 60) [*]; done)
    | split
    | intro _
    | refine State.each_keeps _ _ (fun _ _ _ => ?_) ?_)

@[simp] theorem State.gateEntSelWrite_keeps {Q : Mark} {s : State} (kp : Keeps Q s) (v : Word) :
    Keeps Q (State.gateEntSelWrite s v) := by
  unfold State.gateEntSelWrite
  try dsimp only
  repeat' (first
    | (simp +contextual (maxDischargeDepth := 60) [*]; done)
    | split
    | intro _
    | refine State.each_keeps _ _ (fun _ _ _ => ?_) ?_)

theorem execGateEntryWrite_keeps {Q : Mark} {s : State} (kp : Keeps Q s) (val : Word) :
    KeepsO Q (execGateEntryWrite val s) := by
  unfold execGateEntryWrite
  try dsimp only
  repeat' (first
    | (simp +contextual (maxDischargeDepth := 60) [*]; done)
    | split
    | intro _
    | refine State.each_keeps _ _ (fun _ _ _ => ?_) ?_)

theorem execGateEntryRead_keeps {Q : Mark} {s : State} (kp : Keeps Q s) (val : Word) :
    KeepsO Q (execGateEntryRead val s) := by
  unfold execGateEntryRead
  try dsimp only
  repeat' (first
    | (simp +contextual (maxDischargeDepth := 60) [*]; done)
    | split
    | intro _
    | refine State.each_keeps _ _ (fun _ _ _ => ?_) ?_)

end Sys2Proof.Machine
end

