-- ==== Sys2Proof/Laws/KeepSecurity.lean ====
section
/-!
SUPPORT. Laws/KeepSecurity.lean: the operations of Machine/Security.lean keep what Laws/Keep.lean lists.
-/
set_option linter.unreachableTactic false
set_option linter.unusedTactic false
set_option linter.unusedSimpArgs false
set_option linter.unusedVariables false

namespace Sys2Proof.Machine

@[simp] theorem State.denied_keeps {Q : Mark} {s : State} (kp : Keeps Q s) :
    Keeps Q (State.denied s) := by
  unfold State.denied
  try dsimp only
  repeat' (first
    | (simp +contextual (maxDischargeDepth := 60) [*]; done)
    | split
    | intro _
    | refine State.each_keeps _ _ (fun _ _ _ => ?_) ?_)

@[simp] theorem State.useNonApproved_keeps {Q : Mark} {s : State} (kp : Keeps Q s) :
    Keeps Q (State.useNonApproved s) := by
  unfold State.useNonApproved
  try dsimp only
  repeat' (first
    | (simp +contextual (maxDischargeDepth := 60) [*]; done)
    | split
    | intro _
    | refine State.each_keeps _ _ (fun _ _ _ => ?_) ?_)

@[simp] theorem State.setNonce_keeps {Q : Mark} {s : State} (kp : Keeps Q s) (n : Option (BitVec 384)) :
    Keeps Q (State.setNonce s n) := by
  unfold State.setNonce
  try dsimp only
  repeat' (first
    | (simp +contextual (maxDischargeDepth := 60) [*]; done)
    | split
    | intro _
    | refine State.each_keeps _ _ (fun _ _ _ => ?_) ?_)

@[simp] theorem State.getNonce_keeps {Q : Mark} {s : State} (kp : Keeps Q s) :
    Keeps Q (State.getNonce s) := by
  unfold State.getNonce
  try dsimp only
  repeat' (first
    | (simp +contextual (maxDischargeDepth := 60) [*]; done)
    | split
    | intro _
    | refine State.each_keeps _ _ (fun _ _ _ => ?_) ?_)

@[simp] theorem State.authEnd_keeps {Q : Mark} {s : State} (kp : Keeps Q s) (pass : Bool) :
    Keeps Q (State.authEnd s pass) := by
  unfold State.authEnd
  try dsimp only
  repeat' (first
    | (simp +contextual (maxDischargeDepth := 60) [*]; done)
    | split
    | intro _
    | refine State.each_keeps _ _ (fun _ _ _ => ?_) ?_)

@[simp] theorem State.verifyFailed_keeps {Q : Mark} {s : State} (kp : Keeps Q s) :
    Keeps Q (State.verifyFailed s) := by
  unfold State.verifyFailed
  try dsimp only
  repeat' (first
    | (simp +contextual (maxDischargeDepth := 60) [*]; done)
    | split
    | intro _
    | refine State.each_keeps _ _ (fun _ _ _ => ?_) ?_)

@[simp] theorem State.verify_keeps {Q : Mark} {s : State} (kp : Keeps Q s) (role : Nat) :
    Keeps Q (State.verify s role) := by
  unfold State.verify
  try dsimp only
  repeat' (first
    | (simp +contextual (maxDischargeDepth := 60) [*]; done)
    | split
    | intro _
    | refine State.each_keeps _ _ (fun _ _ _ => ?_) ?_)

@[simp] theorem State.authCmd_keeps {Q : Mark} {s : State} (kp : Keeps Q s) (v : Word) :
    Keeps Q (State.authCmd s v) := by
  unfold State.authCmd
  try dsimp only
  repeat' (first
    | (simp +contextual (maxDischargeDepth := 60) [*]; done)
    | split
    | intro _
    | refine State.each_keeps _ _ (fun _ _ _ => ?_) ?_)

theorem execGetNonce_keeps {Q : Mark} {s : State} (kp : Keeps Q s) (val : Word) :
    KeepsO Q (execGetNonce val s) := by
  unfold execGetNonce
  try dsimp only
  repeat' (first
    | (simp +contextual (maxDischargeDepth := 60) [*]; done)
    | split
    | intro _
    | refine State.each_keeps _ _ (fun _ _ _ => ?_) ?_)

theorem execVerify_keeps {Q : Mark} {s : State} (kp : Keeps Q s) (val : Word) :
    KeepsO Q (execVerify val s) := by
  unfold execVerify
  try dsimp only
  repeat' (first
    | (simp +contextual (maxDischargeDepth := 60) [*]; done)
    | split
    | intro _
    | refine State.each_keeps _ _ (fun _ _ _ => ?_) ?_)

theorem execLogout_keeps {Q : Mark} {s : State} (kp : Keeps Q s) (val : Word) :
    KeepsO Q (execLogout val s) := by
  unfold execLogout
  try dsimp only
  repeat' (first
    | (simp +contextual (maxDischargeDepth := 60) [*]; done)
    | split
    | intro _
    | refine State.each_keeps _ _ (fun _ _ _ => ?_) ?_)

@[simp] theorem State.lockoutEnd_keeps {Q : Mark} {s : State} (kp : Keeps Q s) :
    Keeps Q (State.lockoutEnd s) := by
  unfold State.lockoutEnd
  try dsimp only
  repeat' (first
    | (simp +contextual (maxDischargeDepth := 60) [*]; done)
    | split
    | intro _
    | refine State.each_keeps _ _ (fun _ _ _ => ?_) ?_)

theorem execVerifyLockoutEnd_keeps {Q : Mark} {s : State} (kp : Keeps Q s) (at' : Raw) :
    KeepsO Q (execVerifyLockoutEnd at' s) := by
  unfold execVerifyLockoutEnd
  try dsimp only
  repeat' (first
    | (simp +contextual (maxDischargeDepth := 60) [*]; done)
    | split
    | intro _
    | refine State.each_keeps _ _ (fun _ _ _ => ?_) ?_)

@[simp] theorem State.otpWrite_keeps {Q : Mark} {s : State} (kp : Keeps Q s) (v : Word) :
    Keeps Q (State.otpWrite s v) := by
  unfold State.otpWrite
  try dsimp only
  repeat' (first
    | (simp +contextual (maxDischargeDepth := 60) [*]; done)
    | split
    | intro _
    | refine State.each_keeps _ _ (fun _ _ _ => ?_) ?_)

theorem execOtpKeyHashProgram_keeps {Q : Mark} {s : State} (kp : Keeps Q s) (val : Word) :
    KeepsO Q (execOtpKeyHashProgram val s) := by
  unfold execOtpKeyHashProgram
  try dsimp only
  repeat' (first
    | (simp +contextual (maxDischargeDepth := 60) [*]; done)
    | split
    | intro _
    | refine State.each_keeps _ _ (fun _ _ _ => ?_) ?_)

theorem execOtpRevoke_keeps {Q : Mark} {s : State} (kp : Keeps Q s) (val : Word) :
    KeepsO Q (execOtpRevoke val s) := by
  unfold execOtpRevoke
  try dsimp only
  repeat' (first
    | (simp +contextual (maxDischargeDepth := 60) [*]; done)
    | split
    | intro _
    | refine State.each_keeps _ _ (fun _ _ _ => ?_) ?_)

theorem execOtpImgSvnMin_keeps {Q : Mark} {s : State} (kp : Keeps Q s) (val : Word) :
    KeepsO Q (execOtpImgSvnMin val s) := by
  unfold execOtpImgSvnMin
  try dsimp only
  repeat' (first
    | (simp +contextual (maxDischargeDepth := 60) [*]; done)
    | split
    | intro _
    | refine State.each_keeps _ _ (fun _ _ _ => ?_) ?_)

theorem execOtpFwSvnMin_keeps {Q : Mark} {s : State} (kp : Keeps Q s) (val : Word) :
    KeepsO Q (execOtpFwSvnMin val s) := by
  unfold execOtpFwSvnMin
  try dsimp only
  repeat' (first
    | (simp +contextual (maxDischargeDepth := 60) [*]; done)
    | split
    | intro _
    | refine State.each_keeps _ _ (fun _ _ _ => ?_) ?_)

/-- The end of OTP programming keeps the facts but for the fuses, which stay or take what otpProgram answers. -/
theorem State.otpEnd_keeps {Q : Mark} {s : State} (kp : Keeps Q s) :
    ∃ o, (o = Q.otp ∨ ∃ op slot value hash, otpProgram Q.otp op slot value hash = .inl o) ∧
      Keeps { Q with otp := o } s.otpEnd := by
  unfold State.otpEnd
  split
  · exact ⟨Q.otp, .inl rfl, kp⟩
  · rename_i op slot value hash _
    dsimp only
    split
    · rename_i o h
      refine ⟨o, .inr ⟨op, slot, value, hash, ?_⟩, ?_⟩
      · rw [← kp.2.2.2.2.2]; exact h
      · exact State.event_keeps (State.wr_keeps (Keeps.setOtp (s := { s with sec.otpBusy := none }) kp o) _ _) _ _
    · refine ⟨Q.otp, .inl rfl, ?_⟩
      exact State.event_keeps (State.wrNat_keeps (s := { s with sec.otpBusy := none }) kp _ _) _ _

@[simp] theorem State.setPair_keeps {Q : Mark} {s : State} (kp : Keeps Q s) (k : Option (BitVec 256)) :
    Keeps Q (State.setPair s k) := by
  unfold State.setPair
  try dsimp only
  repeat' (first
    | (simp +contextual (maxDischargeDepth := 60) [*]; done)
    | split
    | intro _
    | refine State.each_keeps _ _ (fun _ _ _ => ?_) ?_)

@[simp] theorem State.pairWrite_keeps {Q : Mark} {s : State} (kp : Keeps Q s) (v : Word) :
    Keeps Q (State.pairWrite s v) := by
  unfold State.pairWrite
  try dsimp only
  repeat' (first
    | (simp +contextual (maxDischargeDepth := 60) [*]; done)
    | split
    | intro _
    | refine State.each_keeps _ _ (fun _ _ _ => ?_) ?_)

theorem execPairKeyWrite_keeps {Q : Mark} {s : State} (kp : Keeps Q s) (val : Word) :
    KeepsO Q (execPairKeyWrite val s) := by
  unfold execPairKeyWrite
  try dsimp only
  repeat' (first
    | (simp +contextual (maxDischargeDepth := 60) [*]; done)
    | split
    | intro _
    | refine State.each_keeps _ _ (fun _ _ _ => ?_) ?_)

theorem execPairKeyClear_keeps {Q : Mark} {s : State} (kp : Keeps Q s) (val : Word) :
    KeepsO Q (execPairKeyClear val s) := by
  unfold execPairKeyClear
  try dsimp only
  repeat' (first
    | (simp +contextual (maxDischargeDepth := 60) [*]; done)
    | split
    | intro _
    | refine State.each_keeps _ _ (fun _ _ _ => ?_) ?_)

@[simp] theorem State.commFail_keeps {Q : Mark} {s : State} (kp : Keeps Q s) (phase : Nat) :
    Keeps Q (State.commFail s phase) := by
  unfold State.commFail
  try dsimp only
  repeat' (first
    | (simp +contextual (maxDischargeDepth := 60) [*]; done)
    | split
    | intro _
    | refine State.each_keeps _ _ (fun _ _ _ => ?_) ?_)

@[simp] theorem State.selftestFail_keeps {Q : Mark} {s : State} (kp : Keeps Q s) (test : Nat) :
    Keeps Q (State.selftestFail s test) := by
  unfold State.selftestFail
  try dsimp only
  repeat' (first
    | (simp +contextual (maxDischargeDepth := 60) [*]; done)
    | split
    | intro _
    | refine State.each_keeps _ _ (fun _ _ _ => ?_) ?_)

theorem execSelftestFailure_keeps {Q : Mark} {s : State} (kp : Keeps Q s) (test : Fin 9) :
    KeepsO Q (execSelftestFailure test s) := by
  unfold execSelftestFailure
  try dsimp only
  repeat' (first
    | (simp +contextual (maxDischargeDepth := 60) [*]; done)
    | split
    | intro _
    | refine State.each_keeps _ _ (fun _ _ _ => ?_) ?_)

@[simp] theorem State.zeroBegin_keeps {Q : Mark} {s : State} (kp : Keeps Q s) (full : Bool) :
    Keeps Q (State.zeroBegin s full) := by
  unfold State.zeroBegin
  try dsimp only
  repeat' (first
    | (simp +contextual (maxDischargeDepth := 60) [*]; done)
    | split
    | intro _
    | refine State.each_keeps _ _ (fun _ _ _ => ?_) ?_)

@[simp] theorem State.zeroCtrlWrite_keeps {Q : Mark} {s : State} (kp : Keeps Q s) (v : Word) :
    Keeps Q (State.zeroCtrlWrite s v) := by
  unfold State.zeroCtrlWrite
  try dsimp only
  repeat' (first
    | (simp +contextual (maxDischargeDepth := 60) [*]; done)
    | split
    | intro _
    | refine State.each_keeps _ _ (fun _ _ _ => ?_) ?_)

theorem execZeroisationStart_keeps {Q : Mark} {s : State} (kp : Keeps Q s) (val : Word) :
    KeepsO Q (execZeroisationStart val s) := by
  unfold execZeroisationStart
  try dsimp only
  repeat' (first
    | (simp +contextual (maxDischargeDepth := 60) [*]; done)
    | split
    | intro _
    | refine State.each_keeps _ _ (fun _ _ _ => ?_) ?_)

theorem execZeroisationAbort_keeps {Q : Mark} {s : State} (kp : Keeps Q s) (val : Word) :
    KeepsO Q (execZeroisationAbort val s) := by
  unfold execZeroisationAbort
  try dsimp only
  repeat' (first
    | (simp +contextual (maxDischargeDepth := 60) [*]; done)
    | split
    | intro _
    | refine State.each_keeps _ _ (fun _ _ _ => ?_) ?_)

@[simp] theorem State.zeroPin_keeps {Q : Mark} {s : State} (kp : Keeps Q s) :
    Keeps Q (State.zeroPin s) := by
  unfold State.zeroPin
  try dsimp only
  repeat' (first
    | (simp +contextual (maxDischargeDepth := 60) [*]; done)
    | split
    | intro _
    | refine State.each_keeps _ _ (fun _ _ _ => ?_) ?_)

@[simp] theorem State.zeroizeN_keeps {Q : Mark} {s : State} (kp : Keeps Q s) (ns : Nat) (held : Bool) :
    Keeps Q (State.zeroizeN s ns held) := by
  unfold State.zeroizeN
  try dsimp only
  repeat' (first
    | (simp +contextual (maxDischargeDepth := 60) [*]; done)
    | split
    | intro _
    | refine State.each_keeps _ _ (fun _ _ _ => ?_) ?_)

theorem execZeroizeNAssert_keeps {Q : Mark} {s : State} (kp : Keeps Q s) (ns : Nat) (held : Bool) :
    KeepsO Q (execZeroizeNAssert ns held s) := by
  unfold execZeroizeNAssert
  try dsimp only
  repeat' (first
    | (simp +contextual (maxDischargeDepth := 60) [*]; done)
    | split
    | intro _
    | refine State.each_keeps _ _ (fun _ _ _ => ?_) ?_)

@[simp] theorem State.wipeSas_keeps {Q : Mark} {s : State} (kp : Keeps Q s) :
    Keeps Q (State.wipeSas s) := by
  unfold State.wipeSas
  try dsimp only
  repeat' (first
    | (simp +contextual (maxDischargeDepth := 60) [*]; done)
    | split
    | intro _
    | refine State.each_keeps _ _ (fun _ _ _ => ?_) ?_)

@[simp] theorem State.wipeCsps_keeps {Q : Mark} {s : State} (kp : Keeps Q s) :
    Keeps Q (State.wipeCsps s) := by
  unfold State.wipeCsps
  try dsimp only
  repeat' (first
    | (simp +contextual (maxDischargeDepth := 60) [*]; done)
    | split
    | intro _
    | refine State.each_keeps _ _ (fun _ _ _ => ?_) ?_)

@[simp] theorem State.zeroStep1_keeps {Q : Mark} {s : State} (kp : Keeps Q s) :
    Keeps Q (State.zeroStep1 s) := by
  unfold State.zeroStep1
  try dsimp only
  repeat' (first
    | (simp +contextual (maxDischargeDepth := 60) [*]; done)
    | split
    | intro _
    | refine State.each_keeps _ _ (fun _ _ _ => ?_) ?_)

theorem execZeroisationStep1End_keeps {Q : Mark} {s : State} (kp : Keeps Q s) :
    KeepsO Q (execZeroisationStep1End s) := by
  unfold execZeroisationStep1End
  try dsimp only
  repeat' (first
    | (simp +contextual (maxDischargeDepth := 60) [*]; done)
    | split
    | intro _
    | refine State.each_keeps _ _ (fun _ _ _ => ?_) ?_)

@[simp] theorem State.wipeMemories_keeps {Q : Mark} {s : State} (kp : Keeps Q s) :
    Keeps Q (State.wipeMemories s) := by
  unfold State.wipeMemories
  try dsimp only
  repeat' (first
    | (simp +contextual (maxDischargeDepth := 60) [*]; done)
    | split
    | intro _
    | refine State.each_keeps _ _ (fun _ _ _ => ?_) ?_)

@[simp] theorem State.zeroEnd_keeps {Q : Mark} {s : State} (kp : Keeps Q s) :
    Keeps Q (State.zeroEnd s) := by
  unfold State.zeroEnd
  try dsimp only
  repeat' (first
    | (simp +contextual (maxDischargeDepth := 60) [*]; done)
    | split
    | intro _
    | refine State.each_keeps _ _ (fun _ _ _ => ?_) ?_)

theorem execZeroisationEnd_keeps {Q : Mark} {s : State} (kp : Keeps Q s) :
    KeepsO Q (execZeroisationEnd s) := by
  unfold execZeroisationEnd
  try dsimp only
  repeat' (first
    | (simp +contextual (maxDischargeDepth := 60) [*]; done)
    | split
    | intro _
    | refine State.each_keeps _ _ (fun _ _ _ => ?_) ?_)

end Sys2Proof.Machine
end

