-- ==== Sys2Proof/Laws/KeepNet.lean ====
section
/-!
SUPPORT. Laws/KeepNet.lean: the operations of Machine/Net.lean keep what Laws/Keep.lean lists.
-/
set_option linter.unreachableTactic false
set_option linter.unusedTactic false
set_option linter.unusedSimpArgs false
set_option linter.unusedVariables false

namespace Sys2Proof.Machine

@[simp] theorem State.setNet_keeps {Q : Mark} {s : State} (kp : Keeps Q s) (i : Nat) (x : NetPort) :
    Keeps Q (State.setNet s i x) := by
  unfold State.setNet
  try dsimp only
  repeat' (first
    | (simp +contextual (maxDischargeDepth := 60) [*]; done)
    | split
    | intro _
    | refine State.each_keeps _ _ (fun _ _ _ => ?_) ?_)

@[simp] theorem State.netComeUp_keeps {Q : Mark} {s : State} (kp : Keeps Q s) (i : Nat) :
    Keeps Q (State.netComeUp s i) := by
  unfold State.netComeUp
  try dsimp only
  repeat' (first
    | (simp +contextual (maxDischargeDepth := 60) [*]; done)
    | split
    | intro _
    | refine State.each_keeps _ _ (fun _ _ _ => ?_) ?_)

@[simp] theorem State.netIdle_keeps {Q : Mark} {s : State} (kp : Keeps Q s) (i : Nat) :
    Keeps Q (State.netIdle s i) := by
  unfold State.netIdle
  try dsimp only
  repeat' (first
    | (simp +contextual (maxDischargeDepth := 60) [*]; done)
    | split
    | intro _
    | refine State.each_keeps _ _ (fun _ _ _ => ?_) ?_)

@[simp] theorem State.txCut_keeps {Q : Mark} {s : State} (kp : Keeps Q s) (i : Nat) :
    Keeps Q (State.txCut s i) := by
  unfold State.txCut
  try dsimp only
  repeat' (first
    | (simp +contextual (maxDischargeDepth := 60) [*]; done)
    | split
    | intro _
    | refine State.each_keeps _ _ (fun _ _ _ => ?_) ?_)

@[simp] theorem State.netFollow_keeps {Q : Mark} {s : State} (kp : Keeps Q s) (i : Nat) :
    Keeps Q (State.netFollow s i) := by
  unfold State.netFollow
  try dsimp only
  repeat' (first
    | (simp +contextual (maxDischargeDepth := 60) [*]; done)
    | split
    | intro _
    | refine State.each_keeps _ _ (fun _ _ _ => ?_) ?_)

@[simp] theorem State.netFail_keeps {Q : Mark} {s : State} (kp : Keeps Q s) (i : Nat) (what : Nat) :
    Keeps Q (State.netFail s i what) := by
  unfold State.netFail
  try dsimp only
  repeat' (first
    | (simp +contextual (maxDischargeDepth := 60) [*]; done)
    | split
    | intro _
    | refine State.each_keeps _ _ (fun _ _ _ => ?_) ?_)

theorem execNetPortFailure_keeps {Q : Mark} {s : State} (kp : Keeps Q s) (i : Fin 26) (what : Fin 3) :
    KeepsO Q (execNetPortFailure i what s) := by
  unfold execNetPortFailure
  try dsimp only
  repeat' (first
    | (simp +contextual (maxDischargeDepth := 60) [*]; done)
    | split
    | intro _
    | refine State.each_keeps _ _ (fun _ _ _ => ?_) ?_)

@[simp] theorem State.netGood_keeps {Q : Mark} {s : State} (kp : Keeps Q s) (i : Nat) (polInv : Nat) (trained : Bool) :
    Keeps Q (State.netGood s i polInv trained) := by
  unfold State.netGood
  try dsimp only
  repeat' (first
    | (simp +contextual (maxDischargeDepth := 60) [*]; done)
    | split
    | intro _
    | refine State.each_keeps _ _ (fun _ _ _ => ?_) ?_)

theorem execNetPortGoodState_keeps {Q : Mark} {s : State} (kp : Keeps Q s) (i : Fin 26) (polInv : Fin 16) (trained : Bool) :
    KeepsO Q (execNetPortGoodState i polInv trained s) := by
  unfold execNetPortGoodState
  try dsimp only
  repeat' (first
    | (simp +contextual (maxDischargeDepth := 60) [*]; done)
    | split
    | intro _
    | refine State.each_keeps _ _ (fun _ _ _ => ?_) ?_)

@[simp] theorem State.netTimer_keeps {Q : Mark} {s : State} (kp : Keeps Q s) (i : Nat) :
    Keeps Q (State.netTimer s i) := by
  unfold State.netTimer
  try dsimp only
  repeat' (first
    | (simp +contextual (maxDischargeDepth := 60) [*]; done)
    | split
    | intro _
    | refine State.each_keeps _ _ (fun _ _ _ => ?_) ?_)

theorem execNetPortUpTimer_keeps {Q : Mark} {s : State} (kp : Keeps Q s) (i : Fin 26) (at' : Raw) :
    KeepsO Q (execNetPortUpTimer i at' s) := by
  unfold execNetPortUpTimer
  try dsimp only
  repeat' (first
    | (simp +contextual (maxDischargeDepth := 60) [*]; done)
    | split
    | intro _
    | refine State.each_keeps _ _ (fun _ _ _ => ?_) ?_)

@[simp] theorem State.netCfgWrite_keeps {Q : Mark} {s : State} (kp : Keeps Q s) (i : Nat) (v : Word) :
    Keeps Q (State.netCfgWrite s i v) := by
  unfold State.netCfgWrite
  try dsimp only
  repeat' (first
    | (simp +contextual (maxDischargeDepth := 60) [*]; done)
    | split
    | intro _
    | refine State.each_keeps _ _ (fun _ _ _ => ?_) ?_)

theorem execNetPortReset_keeps {Q : Mark} {s : State} (kp : Keeps Q s) (i : Fin 26) (val : Word) :
    KeepsO Q (execNetPortReset i val s) := by
  unfold execNetPortReset
  try dsimp only
  repeat' (first
    | (simp +contextual (maxDischargeDepth := 60) [*]; done)
    | split
    | intro _
    | refine State.each_keeps _ _ (fun _ _ _ => ?_) ?_)

@[simp] theorem State.netResetEnd_keeps {Q : Mark} {s : State} (kp : Keeps Q s) (i : Nat) (locked : Bool) :
    Keeps Q (State.netResetEnd s i locked) := by
  unfold State.netResetEnd
  try dsimp only
  repeat' (first
    | (simp +contextual (maxDischargeDepth := 60) [*]; done)
    | split
    | intro _
    | refine State.each_keeps _ _ (fun _ _ _ => ?_) ?_)

theorem execNetPortResetComplete_keeps {Q : Mark} {s : State} (kp : Keeps Q s) (i : Fin 26) (locked : Bool) :
    KeepsO Q (execNetPortResetComplete i locked s) := by
  unfold execNetPortResetComplete
  try dsimp only
  repeat' (first
    | (simp +contextual (maxDischargeDepth := 60) [*]; done)
    | split
    | intro _
    | refine State.each_keeps _ _ (fun _ _ _ => ?_) ?_)

@[simp] theorem State.setIngress_keeps {Q : Mark} {s : State} (kp : Keeps Q s) (p : Nat) (l : List Frame) :
    Keeps Q (State.setIngress s p l) := by
  unfold State.setIngress
  try dsimp only
  repeat' (first
    | (simp +contextual (maxDischargeDepth := 60) [*]; done)
    | split
    | intro _
    | refine State.each_keeps _ _ (fun _ _ _ => ?_) ?_)

@[simp] theorem State.frameIn_keeps {Q : Mark} {s : State} (kp : Keeps Q s) (f : Frame) (full : Bool) :
    Keeps Q (State.frameIn s f full) := by
  unfold State.frameIn
  try dsimp only
  repeat' (first
    | (simp +contextual (maxDischargeDepth := 60) [*]; done)
    | split
    | intro _
    | refine State.each_keeps _ _ (fun _ _ _ => ?_) ?_)

theorem execFrameIngress_keeps {Q : Mark} {s : State} (kp : Keeps Q s) (f : Frame) (full : Bool) :
    KeepsO Q (execFrameIngress f full s) := by
  unfold execFrameIngress
  try dsimp only
  repeat' (first
    | (simp +contextual (maxDischargeDepth := 60) [*]; done)
    | split
    | intro _
    | refine State.each_keeps _ _ (fun _ _ _ => ?_) ?_)

@[simp] theorem State.setOcc_keeps {Q : Mark} {s : State} (kp : Keeps Q s) (i c n : Nat) :
    Keeps Q (State.setOcc s i c n) := by
  unfold State.setOcc
  try dsimp only
  repeat' (first
    | (simp +contextual (maxDischargeDepth := 60) [*]; done)
    | split
    | intro _
    | refine State.each_keeps _ _ (fun _ _ _ => ?_) ?_)

@[simp] theorem State.setSa_keeps {Q : Mark} {s : State} (kp : Keeps Q s) (i k : Nat) (x : Sa) :
    Keeps Q (State.setSa s i k x) := by
  unfold State.setSa
  try dsimp only
  repeat' (first
    | (simp +contextual (maxDischargeDepth := 60) [*]; done)
    | split
    | intro _
    | refine State.each_keeps _ _ (fun _ _ _ => ?_) ?_)

@[simp] theorem State.saWordWrite_keeps {Q : Mark} {s : State} (kp : Keeps Q s) (i a : Nat) (v : Word) :
    Keeps Q (State.saWordWrite s i a v) := by
  unfold State.saWordWrite
  try dsimp only
  repeat' (first
    | (simp +contextual (maxDischargeDepth := 60) [*]; done)
    | split
    | intro _
    | refine State.each_keeps _ _ (fun _ _ _ => ?_) ?_)

@[simp] theorem State.saSelWrite_keeps {Q : Mark} {s : State} (kp : Keeps Q s) (i : Nat) (v : Word) :
    Keeps Q (State.saSelWrite s i v) := by
  unfold State.saSelWrite
  try dsimp only
  repeat' (first
    | (simp +contextual (maxDischargeDepth := 60) [*]; done)
    | split
    | intro _
    | refine State.each_keeps _ _ (fun _ _ _ => ?_) ?_)

theorem execSaWrite_keeps {Q : Mark} {s : State} (kp : Keeps Q s) (i : Fin 26) (val : Word) :
    KeepsO Q (execSaWrite i val s) := by
  unfold execSaWrite
  try dsimp only
  repeat' (first
    | (simp +contextual (maxDischargeDepth := 60) [*]; done)
    | split
    | intro _
    | refine State.each_keeps _ _ (fun _ _ _ => ?_) ?_)

theorem execSaRead_keeps {Q : Mark} {s : State} (kp : Keeps Q s) (i : Fin 26) (val : Word) :
    KeepsO Q (execSaRead i val s) := by
  unfold execSaRead
  try dsimp only
  repeat' (first
    | (simp +contextual (maxDischargeDepth := 60) [*]; done)
    | split
    | intro _
    | refine State.each_keeps _ _ (fun _ _ _ => ?_) ?_)

theorem execSaClear_keeps {Q : Mark} {s : State} (kp : Keeps Q s) (i : Fin 26) (val : Word) :
    KeepsO Q (execSaClear i val s) := by
  unfold execSaClear
  try dsimp only
  repeat' (first
    | (simp +contextual (maxDischargeDepth := 60) [*]; done)
    | split
    | intro _
    | refine State.each_keeps _ _ (fun _ _ _ => ?_) ?_)

@[simp] theorem State.rxscWrite_keeps {Q : Mark} {s : State} (kp : Keeps Q s) (i : Nat) (v : Word) :
    Keeps Q (State.rxscWrite s i v) := by
  unfold State.rxscWrite
  try dsimp only
  repeat' (first
    | (simp +contextual (maxDischargeDepth := 60) [*]; done)
    | split
    | intro _
    | refine State.each_keeps _ _ (fun _ _ _ => ?_) ?_)

theorem execRxscWrite_keeps {Q : Mark} {s : State} (kp : Keeps Q s) (i : Fin 26) (val : Word) :
    KeepsO Q (execRxscWrite i val s) := by
  unfold execRxscWrite
  try dsimp only
  repeat' (first
    | (simp +contextual (maxDischargeDepth := 60) [*]; done)
    | split
    | intro _
    | refine State.each_keeps _ _ (fun _ _ _ => ?_) ?_)

@[simp] theorem State.secRx_keeps {Q : Mark} {s : State} (kp : Keeps Q s) (i : Nat) (bs : List Byte) (cut : Bool) :
    Keeps Q (State.secRx s i bs cut).2.2 := by
  unfold State.secRx
  dsimp only
  repeat' (first
    | exact kp
    | exact State.bump_keeps kp _
    | split
    | (simp [kp]; done))

@[simp] theorem State.pauseIn_keeps {Q : Mark} {s : State} (kp : Keeps Q s) (i : Nat) (enable : Nat) (quanta : List Nat) :
    Keeps Q (State.pauseIn s i enable quanta) := by
  unfold State.pauseIn
  try dsimp only
  repeat' (first
    | (simp +contextual (maxDischargeDepth := 60) [*]; done)
    | split
    | intro _
    | refine State.each_keeps _ _ (fun _ _ _ => ?_) ?_)

theorem execPfcReceive_keeps {Q : Mark} {s : State} (kp : Keeps Q s) (i : Fin 26) (enable : Fin 256) (quanta : List Nat) :
    KeepsO Q (execPfcReceive i enable quanta s) := by
  unfold execPfcReceive
  try dsimp only
  repeat' (first
    | (simp +contextual (maxDischargeDepth := 60) [*]; done)
    | split
    | intro _
    | refine State.each_keeps _ _ (fun _ _ _ => ?_) ?_)

@[simp] theorem State.pauseEnd_keeps {Q : Mark} {s : State} (kp : Keeps Q s) (i c : Nat) :
    Keeps Q (State.pauseEnd s i c) := by
  unfold State.pauseEnd
  try dsimp only
  repeat' (first
    | (simp +contextual (maxDischargeDepth := 60) [*]; done)
    | split
    | intro _
    | refine State.each_keeps _ _ (fun _ _ _ => ?_) ?_)

theorem execPauseTimerExpiry_keeps {Q : Mark} {s : State} (kp : Keeps Q s) (i : Fin 26) (c : Fin 8) (at' : Raw) :
    KeepsO Q (execPauseTimerExpiry i c at' s) := by
  unfold execPauseTimerExpiry
  try dsimp only
  repeat' (first
    | (simp +contextual (maxDischargeDepth := 60) [*]; done)
    | split
    | intro _
    | refine State.each_keeps _ _ (fun _ _ _ => ?_) ?_)

@[simp] theorem State.netOffer_keeps {Q : Mark} {s : State} (kp : Keeps Q s) (i : Nat) (f : Frame) :
    Keeps Q (State.netOffer s i f) := by
  unfold State.netOffer
  try dsimp only
  repeat' (first
    | (simp +contextual (maxDischargeDepth := 60) [*]; done)
    | split
    | intro _
    | refine State.each_keeps _ _ (fun _ _ _ => ?_) ?_)

@[simp] theorem State.macControl_keeps {Q : Mark} {s : State} (kp : Keeps Q s) (i : Nat) (bs : List Byte) :
    Keeps Q (State.macControl s i bs) := by
  unfold State.macControl
  try dsimp only
  repeat' (first
    | (simp +contextual (maxDischargeDepth := 60) [*]; done)
    | split
    | intro _
    | refine State.each_keeps _ _ (fun _ _ _ => ?_) ?_)

@[simp] theorem State.fecCount_keeps {Q : Mark} {s : State} (kp : Keeps Q s) (i corr uncorr : Nat) :
    Keeps Q (State.fecCount s i corr uncorr) := by
  unfold State.fecCount
  try dsimp only
  repeat' (first
    | (simp +contextual (maxDischargeDepth := 60) [*]; done)
    | split
    | intro _
    | refine State.each_keeps _ _ (fun _ _ _ => ?_) ?_)

@[simp] theorem State.netAccept_keeps {Q : Mark} {s : State} (kp : Keeps Q s) (i : Nat) (bs : List Byte) (cap : Raw) (latency : Nat) :
    Keeps Q (State.netAccept s i bs cap latency) := by
  unfold State.netAccept
  try dsimp only
  repeat' (first
    | (simp +contextual (maxDischargeDepth := 60) [*]; done)
    | split
    | intro _
    | refine State.each_keeps _ _ (fun _ _ _ => ?_) ?_)

@[simp] theorem State.netReceive_keeps {Q : Mark} {s : State} (kp : Keeps Q s) (i : Nat) (bs : List Byte) (cap : Raw) (latency corr uncorr : Nat) :
    Keeps Q (State.netReceive s i bs cap latency corr uncorr) := by
  unfold State.netReceive
  try dsimp only
  repeat' (first
    | (simp +contextual (maxDischargeDepth := 60) [*]; done)
    | split
    | intro _
    | refine State.each_keeps _ _ (fun _ _ _ => ?_) ?_)

theorem execNetFrameReceive_keeps {Q : Mark} {s : State} (kp : Keeps Q s) (i : Fin 26) (bytes : List Byte) (cap : Raw) (latency corr uncorr : Nat) :
    KeepsO Q (execNetFrameReceive i bytes cap latency corr uncorr s) := by
  unfold execNetFrameReceive
  try dsimp only
  repeat' (first
    | (simp +contextual (maxDischargeDepth := 60) [*]; done)
    | split
    | intro _
    | refine State.each_keeps _ _ (fun _ _ _ => ?_) ?_)

@[simp] theorem State.sendPfc_keeps {Q : Mark} {s : State} (kp : Keeps Q s) (i : Nat) :
    Keeps Q (State.sendPfc s i) := by
  unfold State.sendPfc
  try dsimp only
  repeat' (first
    | (simp +contextual (maxDischargeDepth := 60) [*]; done)
    | split
    | intro _
    | refine State.each_keeps _ _ (fun _ _ _ => ?_) ?_)

@[simp] theorem State.pfcDue_keeps {Q : Mark} {s : State} (kp : Keeps Q s) (i : Nat) :
    Keeps Q (State.pfcDue s i) := by
  unfold State.pfcDue
  try dsimp only
  repeat' (first
    | (simp +contextual (maxDischargeDepth := 60) [*]; done)
    | split
    | intro _
    | refine State.each_keeps _ _ (fun _ _ _ => ?_) ?_)

theorem execPfcSend_keeps {Q : Mark} {s : State} (kp : Keeps Q s) (i : Fin 26) :
    KeepsO Q (execPfcSend i s) := by
  unfold execPfcSend
  try dsimp only
  repeat' (first
    | (simp +contextual (maxDischargeDepth := 60) [*]; done)
    | split
    | intro _
    | refine State.each_keeps _ _ (fun _ _ _ => ?_) ?_)

@[simp] theorem State.pfcRepeat_keeps {Q : Mark} {s : State} (kp : Keeps Q s) (i : Nat) :
    Keeps Q (State.pfcRepeat s i) := by
  unfold State.pfcRepeat
  try dsimp only
  repeat' (first
    | (simp +contextual (maxDischargeDepth := 60) [*]; done)
    | split
    | intro _
    | refine State.each_keeps _ _ (fun _ _ _ => ?_) ?_)

theorem execPfcRepeat_keeps {Q : Mark} {s : State} (kp : Keeps Q s) (i : Fin 26) (at' : Raw) :
    KeepsO Q (execPfcRepeat i at' s) := by
  unfold execPfcRepeat
  try dsimp only
  repeat' (first
    | (simp +contextual (maxDischargeDepth := 60) [*]; done)
    | split
    | intro _
    | refine State.each_keeps _ _ (fun _ _ _ => ?_) ?_)

@[simp] theorem State.secTx_keeps {Q : Mark} {s : State} (kp : Keeps Q s) (i : Nat) (bs : List Byte) :
    Keeps Q (State.secTx s i bs).2 := by
  unfold State.secTx
  try dsimp only
  repeat' (first
    | (simp +contextual (maxDischargeDepth := 60) [*]; done)
    | split
    | intro _
    | refine State.each_keeps _ _ (fun _ _ _ => ?_) ?_)

@[simp] theorem State.transmit_keeps {Q : Mark} {s : State} (kp : Keeps Q s) (i : Nat) (f : Stored) (cap : Raw) (latency : Nat) (bad : Bool) :
    Keeps Q (State.transmit s i f cap latency bad) := by
  unfold State.transmit
  try dsimp only
  repeat' (first
    | (simp +contextual (maxDischargeDepth := 60) [*]; done)
    | split
    | intro _
    | refine State.each_keeps _ _ (fun _ _ _ => ?_) ?_)

@[simp] theorem State.txEnd_keeps {Q : Mark} {s : State} (kp : Keeps Q s) (i : Nat) (f : Stored) (r : TxRun) (bad : Bool) :
    Keeps Q (State.txEnd s i f r bad) := by
  unfold State.txEnd
  try dsimp only
  repeat' (first
    | (simp +contextual (maxDischargeDepth := 60) [*]; done)
    | split
    | intro _
    | refine State.each_keeps _ _ (fun _ _ _ => ?_) ?_)

@[simp] theorem State.txDry_keeps {Q : Mark} {s : State} (kp : Keeps Q s) (i : Nat) :
    Keeps Q (State.txDry s i) := by
  unfold State.txDry
  try dsimp only
  repeat' (first
    | (simp +contextual (maxDischargeDepth := 60) [*]; done)
    | split
    | intro _
    | refine State.each_keeps _ _ (fun _ _ _ => ?_) ?_)

@[simp] theorem State.txStart_keeps {Q : Mark} {s : State} (kp : Keeps Q s) (i : Nat) (f : Stored) (cap : Raw) (latency : Nat) (bad : Fin 3) :
    Keeps Q (State.txStart s i f cap latency bad) := by
  unfold State.txStart
  try dsimp only
  repeat' (first
    | (simp +contextual (maxDischargeDepth := 60) [*]; done)
    | split
    | intro _
    | refine State.each_keeps _ _ (fun _ _ _ => ?_) ?_)

@[simp] theorem State.stagingTransmit_keeps {Q : Mark} {s : State} (kp : Keeps Q s) (i : Nat) (cap : Raw) (latency : Nat) (bad : Fin 3) :
    Keeps Q (State.stagingTransmit s i cap latency bad) := by
  unfold State.stagingTransmit
  try dsimp only
  repeat' (first
    | (simp +contextual (maxDischargeDepth := 60) [*]; done)
    | split
    | intro _
    | refine State.each_keeps _ _ (fun _ _ _ => ?_) ?_)

theorem execStagingTransmit_keeps {Q : Mark} {s : State} (kp : Keeps Q s) (i : Fin 26) (cap : Raw) (latency : Nat) (bad : Fin 3) :
    KeepsO Q (execStagingTransmit i cap latency bad s) := by
  unfold execStagingTransmit
  try dsimp only
  repeat' (first
    | (simp +contextual (maxDischargeDepth := 60) [*]; done)
    | split
    | intro _
    | refine State.each_keeps _ _ (fun _ _ _ => ?_) ?_)

@[simp] theorem State.partUpd_keeps {Q : Mark} {s : State} (kp : Keeps Q s) (i k : Nat) (g : Stored → Stored) :
    Keeps Q (State.partUpd s i k g) := by
  unfold State.partUpd
  try dsimp only
  repeat' (first
    | (simp +contextual (maxDischargeDepth := 60) [*]; done)
    | split
    | intro _
    | refine State.each_keeps _ _ (fun _ _ _ => ?_) ?_)

@[simp] theorem State.partEnd_keeps {Q : Mark} {s : State} (kp : Keeps Q s) (i k : Nat) (f : Stored) :
    Keeps Q (State.partEnd s i k f) := by
  unfold State.partEnd
  try dsimp only
  repeat' (first
    | (simp +contextual (maxDischargeDepth := 60) [*]; done)
    | split
    | intro _
    | refine State.each_keeps _ _ (fun _ _ _ => ?_) ?_)

@[simp] theorem State.partDrop_keeps {Q : Mark} {s : State} (kp : Keeps Q s) (i k : Nat) :
    Keeps Q (State.partDrop s i k) := by
  unfold State.partDrop
  try dsimp only
  repeat' (first
    | (simp +contextual (maxDischargeDepth := 60) [*]; done)
    | split
    | intro _
    | refine State.each_keeps _ _ (fun _ _ _ => ?_) ?_)

end Sys2Proof.Machine
end

