-- ==== Sys2Proof/Laws/KeepObserve.lean ====
section
/-!
SUPPORT. Laws/KeepObserve.lean: the operations of Machine/Observe.lean keep what Laws/Keep.lean lists.
-/
set_option linter.unreachableTactic false
set_option linter.unusedTactic false
set_option linter.unusedSimpArgs false
set_option linter.unusedVariables false

namespace Sys2Proof.Machine

@[simp] theorem State.coalesce_keeps {Q : Mark} {s : State} (kp : Keeps Q s) :
    Keeps Q (State.coalesce s) := by
  unfold State.coalesce
  try dsimp only
  repeat' (first
    | (simp +contextual (maxDischargeDepth := 60) [*]; done)
    | split
    | intro _
    | refine State.each_keeps _ _ (fun _ _ _ => ?_) ?_)

@[simp] theorem State.drain_keeps {Q : Mark} {s : State} (kp : Keeps Q s) :
    Keeps Q (State.drain s) := by
  unfold State.drain
  try dsimp only
  repeat' (first
    | (simp +contextual (maxDischargeDepth := 60) [*]; done)
    | split
    | intro _
    | refine State.each_keeps _ _ (fun _ _ _ => ?_) ?_)

theorem execEventRecordDrain_keeps {Q : Mark} {s : State} (kp : Keeps Q s) :
    KeepsO Q (execEventRecordDrain s) := by
  unfold execEventRecordDrain
  try dsimp only
  repeat' (first
    | (simp +contextual (maxDischargeDepth := 60) [*]; done)
    | split
    | intro _
    | refine State.each_keeps _ _ (fun _ _ _ => ?_) ?_)

theorem execEventStatusClear_keeps {Q : Mark} {s : State} (kp : Keeps Q s) (g : Fin 40) (val : Word) :
    KeepsO Q (execEventStatusClear g val s) := by
  unfold execEventStatusClear
  try dsimp only
  repeat' (first
    | (simp +contextual (maxDischargeDepth := 60) [*]; done)
    | split
    | intro _
    | refine State.each_keeps _ _ (fun _ _ _ => ?_) ?_)

theorem execEventRingConsWrite_keeps {Q : Mark} {s : State} (kp : Keeps Q s) (val : Word) :
    KeepsO Q (execEventRingConsWrite val s) := by
  unfold execEventRingConsWrite
  try dsimp only
  repeat' (first
    | (simp +contextual (maxDischargeDepth := 60) [*]; done)
    | split
    | intro _
    | refine State.each_keeps _ _ (fun _ _ _ => ?_) ?_)

theorem execEventCoalesceTimer_keeps {Q : Mark} {s : State} (kp : Keeps Q s) (at' : Raw) :
    KeepsO Q (execEventCoalesceTimer at' s) := by
  unfold execEventCoalesceTimer
  try dsimp only
  repeat' (first
    | (simp +contextual (maxDischargeDepth := 60) [*]; done)
    | split
    | intro _
    | refine State.each_keeps _ _ (fun _ _ _ => ?_) ?_)

@[simp] theorem State.msixSend_keeps {Q : Mark} {s : State} (kp : Keeps Q s) (v : Nat) (masked : Bool) :
    Keeps Q (State.msixSend s v masked) := by
  unfold State.msixSend
  try dsimp only
  repeat' (first
    | (simp +contextual (maxDischargeDepth := 60) [*]; done)
    | split
    | intro _
    | refine State.each_keeps _ _ (fun _ _ _ => ?_) ?_)

theorem execMsixSend_keeps {Q : Mark} {s : State} (kp : Keeps Q s) (v : Fin 64) (masked : Bool) :
    KeepsO Q (execMsixSend v masked s) := by
  unfold execMsixSend
  try dsimp only
  repeat' (first
    | (simp +contextual (maxDischargeDepth := 60) [*]; done)
    | split
    | intro _
    | refine State.each_keeps _ _ (fun _ _ _ => ?_) ?_)

@[simp] theorem State.vecAck_keeps {Q : Mark} {s : State} (kp : Keeps Q s) (v : Word) :
    Keeps Q (State.vecAck s v) := by
  unfold State.vecAck
  try dsimp only
  repeat' (first
    | (simp +contextual (maxDischargeDepth := 60) [*]; done)
    | split
    | intro _
    | refine State.each_keeps _ _ (fun _ _ _ => ?_) ?_)

theorem execVectorAck_keeps {Q : Mark} {s : State} (kp : Keeps Q s) (val : Word) :
    KeepsO Q (execVectorAck val s) := by
  unfold execVectorAck
  try dsimp only
  repeat' (first
    | (simp +contextual (maxDischargeDepth := 60) [*]; done)
    | split
    | intro _
    | refine State.each_keeps _ _ (fun _ _ _ => ?_) ?_)

@[simp] theorem State.cntSelWrite_keeps {Q : Mark} {s : State} (kp : Keeps Q s) (v : Word) :
    Keeps Q (State.cntSelWrite s v) := by
  unfold State.cntSelWrite
  try dsimp only
  repeat' (first
    | (simp +contextual (maxDischargeDepth := 60) [*]; done)
    | split
    | intro _
    | refine State.each_keeps _ _ (fun _ _ _ => ?_) ?_)

theorem execCounterPairRead_keeps {Q : Mark} {s : State} (kp : Keeps Q s) (val : Word) :
    KeepsO Q (execCounterPairRead val s) := by
  unfold execCounterPairRead
  try dsimp only
  repeat' (first
    | (simp +contextual (maxDischargeDepth := 60) [*]; done)
    | split
    | intro _
    | refine State.each_keeps _ _ (fun _ _ _ => ?_) ?_)

theorem execCounterPairReadClear_keeps {Q : Mark} {s : State} (kp : Keeps Q s) (val : Word) :
    KeepsO Q (execCounterPairReadClear val s) := by
  unfold execCounterPairReadClear
  try dsimp only
  repeat' (first
    | (simp +contextual (maxDischargeDepth := 60) [*]; done)
    | split
    | intro _
    | refine State.each_keeps _ _ (fun _ _ _ => ?_) ?_)

@[simp] theorem State.logExport_keeps {Q : Mark} {s : State} (kp : Keeps Q s) :
    Keeps Q (State.logExport s) := by
  unfold State.logExport
  try dsimp only
  repeat' (first
    | (simp +contextual (maxDischargeDepth := 60) [*]; done)
    | split
    | intro _
    | refine State.each_keeps _ _ (fun _ _ _ => ?_) ?_)

theorem execLogbookExport_keeps {Q : Mark} {s : State} (kp : Keeps Q s) (at' : Raw) :
    KeepsO Q (execLogbookExport at' s) := by
  unfold execLogbookExport
  try dsimp only
  repeat' (first
    | (simp +contextual (maxDischargeDepth := 60) [*]; done)
    | split
    | intro _
    | refine State.each_keeps _ _ (fun _ _ _ => ?_) ?_)

@[simp] theorem State.logComplete_keeps {Q : Mark} {s : State} (kp : Keeps Q s) (buf : HostBuf) :
    Keeps Q (State.logComplete s buf) := by
  unfold State.logComplete
  try dsimp only
  repeat' (first
    | (simp +contextual (maxDischargeDepth := 60) [*]; done)
    | split
    | intro _
    | refine State.each_keeps _ _ (fun _ _ _ => ?_) ?_)

theorem execLogbookExportComplete_keeps {Q : Mark} {s : State} (kp : Keeps Q s) (at' : Raw) (buf : HostBuf) :
    KeepsO Q (execLogbookExportComplete at' buf s) := by
  unfold execLogbookExportComplete
  try dsimp only
  repeat' (first
    | (simp +contextual (maxDischargeDepth := 60) [*]; done)
    | split
    | intro _
    | refine State.each_keeps _ _ (fun _ _ _ => ?_) ?_)

theorem execLogbookTailWrite_keeps {Q : Mark} {s : State} (kp : Keeps Q s) (val : Word) :
    KeepsO Q (execLogbookTailWrite val s) := by
  unfold execLogbookTailWrite
  try dsimp only
  repeat' (first
    | (simp +contextual (maxDischargeDepth := 60) [*]; done)
    | split
    | intro _
    | refine State.each_keeps _ _ (fun _ _ _ => ?_) ?_)

@[simp] theorem State.thrWrite_keeps {Q : Mark} {s : State} (kp : Keeps Q s) (k : Nat) (level : Bool) (v : Word) :
    Keeps Q (State.thrWrite s k level v) := by
  unfold State.thrWrite
  try dsimp only
  repeat' (first
    | (simp +contextual (maxDischargeDepth := 60) [*]; done)
    | split
    | intro _
    | refine State.each_keeps _ _ (fun _ _ _ => ?_) ?_)

theorem execThresholdConfigWrite_keeps {Q : Mark} {s : State} (kp : Keeps Q s) (k : Fin 16) (level : Bool) (val : Word) :
    KeepsO Q (execThresholdConfigWrite k level val s) := by
  unfold execThresholdConfigWrite
  try dsimp only
  repeat' (first
    | (simp +contextual (maxDischargeDepth := 60) [*]; done)
    | split
    | intro _
    | refine State.each_keeps _ _ (fun _ _ _ => ?_) ?_)

@[simp] theorem State.slotClear_keeps {Q : Mark} {s : State} (kp : Keeps Q s) (v : Word) :
    Keeps Q (State.slotClear s v) := by
  unfold State.slotClear
  try dsimp only
  repeat' (first
    | (simp +contextual (maxDischargeDepth := 60) [*]; done)
    | split
    | intro _
    | refine State.each_keeps _ _ (fun _ _ _ => ?_) ?_)

theorem execSlotClear_keeps {Q : Mark} {s : State} (kp : Keeps Q s) (val : Word) :
    KeepsO Q (execSlotClear val s) := by
  unfold execSlotClear
  try dsimp only
  repeat' (first
    | (simp +contextual (maxDischargeDepth := 60) [*]; done)
    | split
    | intro _
    | refine State.each_keeps _ _ (fun _ _ _ => ?_) ?_)

@[simp] theorem State.slotUsed_keeps {Q : Mark} {s : State} (kp : Keeps Q s) (p : Nat) (wasted : Bool) :
    Keeps Q (State.slotUsed s p wasted) := by
  unfold State.slotUsed
  try dsimp only
  repeat' (first
    | (simp +contextual (maxDischargeDepth := 60) [*]; done)
    | split
    | intro _
    | refine State.each_keeps _ _ (fun _ _ _ => ?_) ?_)

@[simp] theorem State.sampleGap_keeps {Q : Mark} {s : State} (kp : Keeps Q s) (k : Nat) :
    Keeps Q (State.sampleGap s k).2 := by
  unfold State.sampleGap
  try dsimp only
  repeat' (first
    | (simp +contextual (maxDischargeDepth := 60) [*]; done)
    | split
    | intro _
    | refine State.each_keeps _ _ (fun _ _ _ => ?_) ?_)

@[simp] theorem State.slotHolds_keeps {Q : Mark} {s : State} (kp : Keeps Q s) (p : Nat) (f : Frame) (pass : Nat) :
    Keeps Q (State.slotHolds s p f pass) := by
  unfold State.slotHolds
  try dsimp only
  repeat' (first
    | (simp +contextual (maxDischargeDepth := 60) [*]; done)
    | split
    | intro _
    | refine State.each_keeps _ _ (fun _ _ _ => ?_) ?_)

@[simp] theorem State.sampleCount_keeps {Q : Mark} {s : State} (kp : Keeps Q s) (p port k : Nat) :
    Keeps Q (State.sampleCount s p port k) := by
  unfold State.sampleCount
  try dsimp only
  repeat' (first
    | (simp +contextual (maxDischargeDepth := 60) [*]; done)
    | split
    | intro _
    | refine State.each_keeps _ _ (fun _ _ _ => ?_) ?_)

@[simp] theorem State.sampleDrop_keeps {Q : Mark} {s : State} (kp : Keeps Q s) (k : Nat) :
    Keeps Q (State.sampleDrop s k) := by
  unfold State.sampleDrop
  try dsimp only
  repeat' (first
    | (simp +contextual (maxDischargeDepth := 60) [*]; done)
    | split
    | intro _
    | refine State.each_keeps _ _ (fun _ _ _ => ?_) ?_)

@[simp] theorem State.sampleTake_keeps {Q : Mark} {s : State} (kp : Keeps Q s) (k p skid pass : Nat) (f : Frame) :
    Keeps Q (State.sampleTake s k p skid pass f) := by
  unfold State.sampleTake
  try dsimp only
  repeat' (first
    | (simp +contextual (maxDischargeDepth := 60) [*]; done)
    | split
    | intro _
    | refine State.each_keeps _ _ (fun _ _ _ => ?_) ?_)

@[simp] theorem State.sampleCapture_keeps {Q : Mark} {s : State} (kp : Keeps Q s) (k : Nat) (free : Bool) :
    Keeps Q (State.sampleCapture s k free) := by
  unfold State.sampleCapture
  try dsimp only
  repeat' (first
    | (simp +contextual (maxDischargeDepth := 60) [*]; done)
    | split
    | intro _
    | refine State.each_keeps _ _ (fun _ _ _ => ?_) ?_)

theorem execSampleCapture_keeps {Q : Mark} {s : State} (kp : Keeps Q s) (k : Fin 8) (free : Bool) :
    KeepsO Q (execSampleCapture k free s) := by
  unfold execSampleCapture
  try dsimp only
  repeat' (first
    | (simp +contextual (maxDischargeDepth := 60) [*]; done)
    | split
    | intro _
    | refine State.each_keeps _ _ (fun _ _ _ => ?_) ?_)

end Sys2Proof.Machine
end

