-- ==== Sys2Proof/Laws/KeepSextant.lean ====
section
/-!
SUPPORT. Laws/KeepSextant.lean: the operations of Machine/Sextant.lean keep what Laws/Keep.lean lists.
-/
set_option linter.unreachableTactic false
set_option linter.unusedTactic false
set_option linter.unusedSimpArgs false
set_option linter.unusedVariables false

namespace Sys2Proof.Machine

@[simp] theorem State.setSlot_keeps {Q : Mark} {s : State} (kp : Keeps Q s) (lp : Bool) (i : Nat) (e : Option EmEntry) :
    Keeps Q (State.setSlot s lp i e) := by
  unfold State.setSlot
  try dsimp only
  repeat' (first
    | (simp +contextual (maxDischargeDepth := 60) [*]; done)
    | split
    | intro _
    | refine State.each_keeps _ _ (fun _ _ _ => ?_) ?_)

@[simp] theorem State.setEm_keeps {Q : Mark} {s : State} (kp : Keeps Q s) (i : Nat) (e : Option EmEntry) :
    Keeps Q (State.setEm s i e) := by
  unfold State.setEm
  try dsimp only
  repeat' (first
    | (simp +contextual (maxDischargeDepth := 60) [*]; done)
    | split
    | intro _
    | refine State.each_keeps _ _ (fun _ _ _ => ?_) ?_)

@[simp] theorem State.moveAlong_keeps {Q : Mark} {s : State} (kp : Keeps Q s) (lp : Bool) (z0 : List Nat) :
    Keeps Q (State.moveAlong s lp z0) := by
  fun_induction State.moveAlong <;> simp_all (maxDischargeDepth := 60)

@[simp] theorem State.hashPlace_keeps {Q : Mark} {s : State} (kp : Keeps Q s) (lp : Bool) (e : EmEntry) :
    Keeps Q (State.hashPlace s lp e).2 := by
  unfold State.hashPlace
  try dsimp only
  repeat' (first
    | (simp +contextual (maxDischargeDepth := 60) [*]; done)
    | split
    | intro _
    | refine State.each_keeps _ _ (fun _ _ _ => ?_) ?_)

@[simp] theorem State.emPlace_keeps {Q : Mark} {s : State} (kp : Keeps Q s) (e : EmEntry) :
    Keeps Q (State.emPlace s e).2 := by
  unfold State.emPlace
  try dsimp only
  repeat' (first
    | (simp +contextual (maxDischargeDepth := 60) [*]; done)
    | split
    | intro _
    | refine State.each_keeps _ _ (fun _ _ _ => ?_) ?_)

@[simp] theorem State.insertFailed_keeps {Q : Mark} {s : State} (kp : Keeps Q s) (lp : Bool) :
    Keeps Q (State.insertFailed s lp) := by
  unfold State.insertFailed
  try dsimp only
  repeat' (first
    | (simp +contextual (maxDischargeDepth := 60) [*]; done)
    | split
    | intro _
    | refine State.each_keeps _ _ (fun _ _ _ => ?_) ?_)

@[simp] theorem State.emInsert_keeps {Q : Mark} {s : State} (kp : Keeps Q s) (t key : Nat) (result : BitVec 64) (static : Bool) :
    Keeps Q (State.emInsert s t key result static).2.2 := by
  have e : ∀ x a t, s.emPlace x = (a, t) → Keeps Q t := fun x _ _ h => Keeps.ofPair (State.emPlace_keeps kp x) h
  unfold State.emInsert
  try dsimp only
  repeat' (first
    | (simp +contextual (maxDischargeDepth := 60) [*]; done)
    | (rename_i h; have k := e _ _ _ h; simp +contextual (maxDischargeDepth := 60) [*]; done)
    | split
    | intro _)

@[simp] theorem State.emDelete_keeps {Q : Mark} {s : State} (kp : Keeps Q s) (t key : Nat) :
    Keeps Q (State.emDelete s t key).2 := by
  unfold State.emDelete
  try dsimp only
  repeat' (first
    | (simp +contextual (maxDischargeDepth := 60) [*]; done)
    | split
    | intro _
    | refine State.each_keeps _ _ (fun _ _ _ => ?_) ?_)

@[simp] theorem State.setLpm_keeps {Q : Mark} {s : State} (kp : Keeps Q s) (k : Nat) (r : Option (BitVec 22)) :
    Keeps Q (State.setLpm s k r) := by
  unfold State.setLpm
  try dsimp only
  repeat' (first
    | (simp +contextual (maxDischargeDepth := 60) [*]; done)
    | split
    | intro _
    | refine State.each_keeps _ _ (fun _ _ _ => ?_) ?_)

@[simp] theorem State.filterAdd_keeps {Q : Mark} {s : State} (kp : Keeps Q s) (t key : Nat) :
    Keeps Q (State.filterAdd s t key) := by
  unfold State.filterAdd
  try dsimp only
  repeat' (first
    | (simp +contextual (maxDischargeDepth := 60) [*]; done)
    | split
    | intro _
    | refine State.each_keeps _ _ (fun _ _ _ => ?_) ?_)

@[simp] theorem State.filterSub_keeps {Q : Mark} {s : State} (kp : Keeps Q s) (t key : Nat) :
    Keeps Q (State.filterSub s t key) := by
  unfold State.filterSub
  try dsimp only
  repeat' (first
    | (simp +contextual (maxDischargeDepth := 60) [*]; done)
    | split
    | intro _
    | refine State.each_keeps _ _ (fun _ _ _ => ?_) ?_)

@[simp] theorem State.refilter_keeps {Q : Mark} {s : State} (kp : Keeps Q s) :
    Keeps Q (State.refilter s) := by
  unfold State.refilter
  refine Keeps.foldl _ _ (fun t x h => ?_) kp
  split
  · exact State.filterAdd_keeps h _ _
  · exact h

@[simp] theorem State.lpmPut_keeps {Q : Mark} {s : State} (kp : Keeps Q s) (k : Nat) (r : BitVec 22) :
    Keeps Q (State.lpmPut s k r).2 := by
  have e : ∀ x a t, s.hashPlace true x = (a, t) → Keeps Q t := fun x _ _ h => Keeps.ofPair (State.hashPlace_keeps kp _ x) h
  unfold State.lpmPut
  split
  · split
    · exact State.setSlot_keeps kp _ _ _
    · split
      · rename_i h; exact State.filterAdd_keeps (e _ _ _ h) _ _
      · rename_i h; exact e _ _ _ h
  · exact State.setLpm_keeps kp _ _

@[simp] theorem State.lpmDrop_keeps {Q : Mark} {s : State} (kp : Keeps Q s) (k : Nat) :
    Keeps Q (State.lpmDrop s k) := by
  unfold State.lpmDrop
  try dsimp only
  repeat' (first
    | (simp +contextual (maxDischargeDepth := 60) [*]; done)
    | split
    | intro _
    | refine State.each_keeps _ _ (fun _ _ _ => ?_) ?_)

@[simp] theorem State.lpmAdd_keeps {Q : Mark} {s : State} (kp : Keeps Q s) (k : Nat) (r : BitVec 22) (noSpace : Bool) :
    Keeps Q (State.lpmAdd s k r noSpace).2.2 := by
  unfold State.lpmAdd
  try dsimp only
  repeat' (first
    | (simp +contextual (maxDischargeDepth := 60) [*]; done)
    | split
    | intro _
    | refine State.each_keeps _ _ (fun _ _ _ => ?_) ?_)

@[simp] theorem State.lpmDel_keeps {Q : Mark} {s : State} (kp : Keeps Q s) (k : Nat) (noSpace : Bool) :
    Keeps Q (State.lpmDel s k noSpace).2 := by
  unfold State.lpmDel
  try dsimp only
  repeat' (first
    | (simp +contextual (maxDischargeDepth := 60) [*]; done)
    | split
    | intro _
    | refine State.each_keeps _ _ (fun _ _ _ => ?_) ?_)

@[simp] theorem State.setDirect_keeps {Q : Mark} {s : State} (kp : Keeps Q s) (t i : Nat) (v : BitVec 64) :
    Keeps Q (State.setDirect s t i v) := by
  unfold State.setDirect
  try dsimp only
  repeat' (first
    | (simp +contextual (maxDischargeDepth := 60) [*]; done)
    | split
    | intro _
    | refine State.each_keeps _ _ (fun _ _ _ => ?_) ?_)

@[simp] theorem State.hostWords_keeps {Q : Mark} {s : State} (kp : Keeps Q s) (addr : Nat) (ws : List Word) :
    Keeps Q (State.hostWords s addr ws) := by
  unfold State.hostWords
  try dsimp only
  repeat' (first
    | (simp +contextual (maxDischargeDepth := 60) [*]; done)
    | split
    | intro _
    | refine State.each_keeps _ _ (fun _ _ _ => ?_) ?_)

@[simp] theorem State.seqDone_keeps {Q : Mark} {s : State} (kp : Keeps Q s) (src : Nat) :
    Keeps Q (State.seqDone s src) := by
  unfold State.seqDone
  try dsimp only
  repeat' (first
    | (simp +contextual (maxDischargeDepth := 60) [*]; done)
    | split
    | intro _
    | refine State.each_keeps _ _ (fun _ _ _ => ?_) ?_)

@[simp] theorem State.sxtOp_keeps {Q : Mark} {s : State} (kp : Keeps Q s) (op t index : Nat) (d : List Word) (noSpace : Bool) :
    Keeps Q (State.sxtOp s op t index d noSpace).2.2.2 := by
  unfold State.sxtOp
  try dsimp only
  repeat' (first
    | (simp +contextual (maxDischargeDepth := 60) [*]; done)
    | split
    | intro _
    | refine State.each_keeps _ _ (fun _ _ _ => ?_) ?_)

@[simp] theorem State.sxtCmdWrite_keeps {Q : Mark} {s : State} (kp : Keeps Q s) (v : Word) :
    Keeps Q (State.sxtCmdWrite s v) := by
  unfold State.sxtCmdWrite
  try dsimp only
  repeat' (first
    | (simp +contextual (maxDischargeDepth := 60) [*]; done)
    | split
    | intro _
    | refine State.each_keeps _ _ (fun _ _ _ => ?_) ?_)

@[simp] theorem State.fixRecord_keeps {Q : Mark} {s : State} (kp : Keeps Q s) (at' block rec kind : Nat) :
    Keeps Q (State.fixRecord s at' block rec kind) := by
  unfold State.fixRecord
  try dsimp only
  repeat' (first
    | (simp +contextual (maxDischargeDepth := 60) [*]; done)
    | split
    | intro _
    | refine State.each_keeps _ _ (fun _ _ _ => ?_) ?_)

@[simp] theorem State.repairDone_keeps {Q : Mark} {s : State} (kp : Keeps Q s) (r : Nat × Nat × Nat × Nat) (result : Nat) :
    Keeps Q (State.repairDone s r result) := by
  unfold State.repairDone
  try dsimp only
  repeat' (first
    | (simp +contextual (maxDischargeDepth := 60) [*]; done)
    | split
    | intro _
    | refine State.each_keeps _ _ (fun _ _ _ => ?_) ?_)

@[simp] theorem State.takeCommand_keeps {Q : Mark} {s : State} (kp : Keeps Q s) (op : Nat) (noSpace : Bool) :
    Keeps Q (State.takeCommand s op noSpace) := by
  unfold State.takeCommand
  try dsimp only
  repeat' (first
    | (simp +contextual (maxDischargeDepth := 60) [*]; done)
    | split
    | intro _
    | refine State.each_keeps _ _ (fun _ _ _ => ?_) ?_)

theorem execEmInsert_keeps {Q : Mark} {s : State} (kp : Keeps Q s) :
    KeepsO Q (execEmInsert s) := by
  unfold execEmInsert
  try dsimp only
  repeat' (first
    | (simp +contextual (maxDischargeDepth := 60) [*]; done)
    | split
    | intro _
    | refine State.each_keeps _ _ (fun _ _ _ => ?_) ?_)

theorem execEmDelete_keeps {Q : Mark} {s : State} (kp : Keeps Q s) :
    KeepsO Q (execEmDelete s) := by
  unfold execEmDelete
  try dsimp only
  repeat' (first
    | (simp +contextual (maxDischargeDepth := 60) [*]; done)
    | split
    | intro _
    | refine State.each_keeps _ _ (fun _ _ _ => ?_) ?_)

theorem execEmRead_keeps {Q : Mark} {s : State} (kp : Keeps Q s) :
    KeepsO Q (execEmRead s) := by
  unfold execEmRead
  try dsimp only
  repeat' (first
    | (simp +contextual (maxDischargeDepth := 60) [*]; done)
    | split
    | intro _
    | refine State.each_keeps _ _ (fun _ _ _ => ?_) ?_)

theorem execLpmAdd_keeps {Q : Mark} {s : State} (kp : Keeps Q s) (noSpace : Bool) :
    KeepsO Q (execLpmAdd noSpace s) := by
  unfold execLpmAdd
  try dsimp only
  repeat' (first
    | (simp +contextual (maxDischargeDepth := 60) [*]; done)
    | split
    | intro _
    | refine State.each_keeps _ _ (fun _ _ _ => ?_) ?_)

theorem execLpmDel_keeps {Q : Mark} {s : State} (kp : Keeps Q s) (noSpace : Bool) :
    KeepsO Q (execLpmDel noSpace s) := by
  unfold execLpmDel
  try dsimp only
  repeat' (first
    | (simp +contextual (maxDischargeDepth := 60) [*]; done)
    | split
    | intro _
    | refine State.each_keeps _ _ (fun _ _ _ => ?_) ?_)

theorem execLpmRead_keeps {Q : Mark} {s : State} (kp : Keeps Q s) :
    KeepsO Q (execLpmRead s) := by
  unfold execLpmRead
  try dsimp only
  repeat' (first
    | (simp +contextual (maxDischargeDepth := 60) [*]; done)
    | split
    | intro _
    | refine State.each_keeps _ _ (fun _ _ _ => ?_) ?_)

theorem execWriteCmd_keeps {Q : Mark} {s : State} (kp : Keeps Q s) :
    KeepsO Q (execWriteCmd s) := by
  unfold execWriteCmd
  try dsimp only
  repeat' (first
    | (simp +contextual (maxDischargeDepth := 60) [*]; done)
    | split
    | intro _
    | refine State.each_keeps _ _ (fun _ _ _ => ?_) ?_)

theorem execReadCmd_keeps {Q : Mark} {s : State} (kp : Keeps Q s) :
    KeepsO Q (execReadCmd s) := by
  unfold execReadCmd
  try dsimp only
  repeat' (first
    | (simp +contextual (maxDischargeDepth := 60) [*]; done)
    | split
    | intro _
    | refine State.each_keeps _ _ (fun _ _ _ => ?_) ?_)

@[simp] theorem State.dmaBack_keeps {Q : Mark} {s : State} (kp : Keeps Q s) (op t index result n : Nat) (d : List Word) (ok : Bool) :
    Keeps Q (State.dmaBack s op t index result n d ok) := by
  unfold State.dmaBack
  try dsimp only
  repeat' (first
    | (simp +contextual (maxDischargeDepth := 60) [*]; done)
    | split
    | intro _
    | refine State.each_keeps _ _ (fun _ _ _ => ?_) ?_)

@[simp] theorem State.bulkTake_keeps {Q : Mark} {s : State} (kp : Keeps Q s) (op t index : Nat) (d : List Word) (noSpace ok : Bool) :
    Keeps Q (State.bulkTake s op t index d noSpace ok) := by
  unfold State.bulkTake
  split
  · exact kp
  · exact State.seqDone_keeps (State.dmaBack_keeps (State.sxtOp_keeps kp _ _ _ _ _) _ _ _ _ _ _ _) _

theorem execBulkDmaDescriptor_keeps {Q : Mark} {s : State} (kp : Keeps Q s) (op t : Fin 256) (index : Nat) (data : List Word) (noSpace ok : Bool) :
    KeepsO Q (execBulkDmaDescriptor op t index data noSpace ok s) := by
  unfold execBulkDmaDescriptor
  try dsimp only
  repeat' (first
    | (simp +contextual (maxDischargeDepth := 60) [*]; done)
    | split
    | intro _
    | refine State.each_keeps _ _ (fun _ _ _ => ?_) ?_)

@[simp] theorem State.dumpStep_keeps {Q : Mark} {s : State} (kp : Keeps Q s) (x : DumpRun) (d : List Word) (ok : Bool) :
    Keeps Q (State.dumpStep s x d ok) := by
  unfold State.dumpStep
  try dsimp only
  repeat' (first
    | (simp +contextual (maxDischargeDepth := 60) [*]; done)
    | split
    | intro _
    | refine State.each_keeps _ _ (fun _ _ _ => ?_) ?_)

@[simp] theorem State.dumpTake_keeps {Q : Mark} {s : State} (kp : Keeps Q s) (t : Nat) (d : List Word) (ok : Bool) :
    Keeps Q (State.dumpTake s t d ok) := by
  unfold State.dumpTake
  try dsimp only
  repeat' (first
    | (simp +contextual (maxDischargeDepth := 60) [*]; done)
    | split
    | intro _
    | refine State.each_keeps _ _ (fun _ _ _ => ?_) ?_)

theorem execDump_keeps {Q : Mark} {s : State} (kp : Keeps Q s) (t : Fin 256) (data : List Word) (ok : Bool) :
    KeepsO Q (execDump t data ok s) := by
  unfold execDump
  try dsimp only
  repeat' (first
    | (simp +contextual (maxDischargeDepth := 60) [*]; done)
    | split
    | intro _
    | refine State.each_keeps _ _ (fun _ _ _ => ?_) ?_)

@[simp] theorem State.dmaTailWrite_keeps {Q : Mark} {s : State} (kp : Keeps Q s) (v : Word) :
    Keeps Q (State.dmaTailWrite s v) := by
  unfold State.dmaTailWrite
  try dsimp only
  repeat' (first
    | (simp +contextual (maxDischargeDepth := 60) [*]; done)
    | split
    | intro _
    | refine State.each_keeps _ _ (fun _ _ _ => ?_) ?_)

theorem execSxtDmaTailWrite_keeps {Q : Mark} {s : State} (kp : Keeps Q s) (val : Word) :
    KeepsO Q (execSxtDmaTailWrite val s) := by
  unfold execSxtDmaTailWrite
  try dsimp only
  repeat' (first
    | (simp +contextual (maxDischargeDepth := 60) [*]; done)
    | split
    | intro _
    | refine State.each_keeps _ _ (fun _ _ _ => ?_) ?_)

@[simp] theorem State.dmaSizeWrite_keeps {Q : Mark} {s : State} (kp : Keeps Q s) (v : Word) :
    Keeps Q (State.dmaSizeWrite s v) := by
  unfold State.dmaSizeWrite
  try dsimp only
  repeat' (first
    | (simp +contextual (maxDischargeDepth := 60) [*]; done)
    | split
    | intro _
    | refine State.each_keeps _ _ (fun _ _ _ => ?_) ?_)

@[simp] theorem State.note_keeps {Q : Mark} {s : State} (kp : Keeps Q s) (cause t port : Nat) (result : BitVec 64) (key : Nat) :
    Keeps Q (State.note s cause t port result key) := by
  unfold State.note
  try dsimp only
  repeat' (first
    | (simp +contextual (maxDischargeDepth := 60) [*]; done)
    | split
    | intro _
    | refine State.each_keeps _ _ (fun _ _ _ => ?_) ?_)

@[simp] theorem State.noteRead_keeps {Q : Mark} {s : State} (kp : Keeps Q s) :
    Keeps Q (State.noteRead s) := by
  unfold State.noteRead
  try dsimp only
  repeat' (first
    | (simp +contextual (maxDischargeDepth := 60) [*]; done)
    | split
    | intro _
    | refine State.each_keeps _ _ (fun _ _ _ => ?_) ?_)

theorem execNoteRead_keeps {Q : Mark} {s : State} (kp : Keeps Q s) :
    KeepsO Q (execNoteRead s) := by
  unfold execNoteRead
  try dsimp only
  repeat' (first
    | (simp +contextual (maxDischargeDepth := 60) [*]; done)
    | split
    | intro _
    | refine State.each_keeps _ _ (fun _ _ _ => ?_) ?_)

@[simp] theorem State.submitLearn_keeps {Q : Mark} {s : State} (kp : Keeps Q s) (l : Learn) :
    Keeps Q (State.submitLearn s l).2 := by
  unfold State.submitLearn
  try dsimp only
  repeat' (first
    | (simp +contextual (maxDischargeDepth := 60) [*]; done)
    | split
    | intro _
    | refine State.each_keeps _ _ (fun _ _ _ => ?_) ?_)

@[simp] theorem State.learn_keeps {Q : Mark} {s : State} (kp : Keeps Q s) (l : Learn) :
    Keeps Q (State.learn s l) := by
  have e : ∀ x a t, s.emPlace x = (a, t) → Keeps Q t := fun x _ _ h => Keeps.ofPair (State.emPlace_keeps kp x) h
  unfold State.learn
  try dsimp only
  repeat' (first
    | (simp +contextual (maxDischargeDepth := 60) [*]; done)
    | (rename_i h; have k := e _ _ _ h; simp +contextual (maxDischargeDepth := 60) [*]; done)
    | split
    | intro _)

@[simp] theorem State.learnTaken_keeps {Q : Mark} {s : State} (kp : Keeps Q s) :
    Keeps Q (State.learnTaken s) := by
  unfold State.learnTaken
  try dsimp only
  repeat' (first
    | (simp +contextual (maxDischargeDepth := 60) [*]; done)
    | split
    | intro _
    | refine State.each_keeps _ _ (fun _ _ _ => ?_) ?_)

theorem execLearnTaken_keeps {Q : Mark} {s : State} (kp : Keeps Q s) :
    KeepsO Q (execLearnTaken s) := by
  unfold execLearnTaken
  try dsimp only
  repeat' (first
    | (simp +contextual (maxDischargeDepth := 60) [*]; done)
    | split
    | intro _
    | refine State.each_keeps _ _ (fun _ _ _ => ?_) ?_)

@[simp] theorem State.movesClear_keeps {Q : Mark} {s : State} (kp : Keeps Q s) :
    Keeps Q (State.movesClear s) := by
  unfold State.movesClear
  try dsimp only
  repeat' (first
    | (simp +contextual (maxDischargeDepth := 60) [*]; done)
    | split
    | intro _
    | refine State.each_keeps _ _ (fun _ _ _ => ?_) ?_)

theorem execMovesClear_keeps {Q : Mark} {s : State} (kp : Keeps Q s) (at' : Raw) :
    KeepsO Q (execMovesClear at' s) := by
  unfold execMovesClear
  try dsimp only
  repeat' (first
    | (simp +contextual (maxDischargeDepth := 60) [*]; done)
    | split
    | intro _
    | refine State.each_keeps _ _ (fun _ _ _ => ?_) ?_)

@[simp] theorem State.ageEntry_keeps {Q : Mark} {s : State} (kp : Keeps Q s) (i : Nat) (e0 : EmEntry) :
    Keeps Q (State.ageEntry s i e0) := by
  unfold State.ageEntry
  try dsimp only
  repeat' (first
    | (simp +contextual (maxDischargeDepth := 60) [*]; done)
    | split
    | intro _
    | refine State.each_keeps _ _ (fun _ _ _ => ?_) ?_)

@[simp] theorem State.ageVisit_keeps {Q : Mark} {s : State} (kp : Keeps Q s) (i : Nat) :
    Keeps Q (State.ageVisit s i) := by
  unfold State.ageVisit
  try dsimp only
  repeat' (first
    | (simp +contextual (maxDischargeDepth := 60) [*]; done)
    | split
    | intro _
    | refine State.each_keeps _ _ (fun _ _ _ => ?_) ?_)

theorem execAgeingVisit_keeps {Q : Mark} {s : State} (kp : Keeps Q s) (slot : Fin 4980736) (at' : Raw) :
    KeepsO Q (execAgeingVisit slot at' s) := by
  unfold execAgeingVisit
  try dsimp only
  repeat' (first
    | (simp +contextual (maxDischargeDepth := 60) [*]; done)
    | split
    | intro _
    | refine State.each_keeps _ _ (fun _ _ _ => ?_) ?_)

@[simp] theorem State.hashSettle_keeps {Q : Mark} {s : State} (kp : Keeps Q s) (lp : Bool) :
    Keeps Q (State.hashSettle s lp) := by
  unfold State.hashSettle
  try dsimp only
  repeat' (first
    | (simp +contextual (maxDischargeDepth := 60) [*]; done)
    | split
    | intro _
    | refine State.each_keeps _ _ (fun _ _ _ => ?_) ?_)

@[simp] theorem State.rehashStart_keeps {Q : Mark} {s : State} (kp : Keeps Q s) :
    Keeps Q (State.rehashStart s) := by
  unfold State.rehashStart
  try dsimp only
  repeat' (first
    | (simp +contextual (maxDischargeDepth := 60) [*]; done)
    | split
    | intro _
    | refine State.each_keeps _ _ (fun _ _ _ => ?_) ?_)

@[simp] theorem State.rehashCtrlWrite_keeps {Q : Mark} {s : State} (kp : Keeps Q s) (v : Word) :
    Keeps Q (State.rehashCtrlWrite s v) := by
  unfold State.rehashCtrlWrite
  try dsimp only
  repeat' (first
    | (simp +contextual (maxDischargeDepth := 60) [*]; done)
    | split
    | intro _
    | refine State.each_keeps _ _ (fun _ _ _ => ?_) ?_)

theorem execRehashStart_keeps {Q : Mark} {s : State} (kp : Keeps Q s) (val : Word) :
    KeepsO Q (execRehashStart val s) := by
  unfold execRehashStart
  try dsimp only
  repeat' (first
    | (simp +contextual (maxDischargeDepth := 60) [*]; done)
    | split
    | intro _
    | refine State.each_keeps _ _ (fun _ _ _ => ?_) ?_)

theorem execRehashAbort_keeps {Q : Mark} {s : State} (kp : Keeps Q s) (val : Word) :
    KeepsO Q (execRehashAbort val s) := by
  unfold execRehashAbort
  try dsimp only
  repeat' (first
    | (simp +contextual (maxDischargeDepth := 60) [*]; done)
    | split
    | intro _
    | refine State.each_keeps _ _ (fun _ _ _ => ?_) ?_)

@[simp] theorem State.rehashMove_keeps {Q : Mark} {s : State} (kp : Keeps Q s) (i : Nat) :
    Keeps Q (State.rehashMove s i) := by
  have e : ∀ l x a t, s.hashPlace l x = (a, t) → Keeps Q t := fun l x _ _ h => Keeps.ofPair (State.hashPlace_keeps kp l x) h
  unfold State.rehashMove
  split
  · exact kp
  · dsimp only
    split
    · exact kp
    · split
      · rename_i h
        have k := e _ _ _ _ h
        exact State.seqDone_keeps (State.setProgress_keeps (State.wrNat_keeps (State.setSlot_keeps k _ _ _) _ _) _ _) _
      · rename_i s1 h
        have k := e _ _ _ _ h
        exact State.seqDone_keeps (State.opFail_keeps (s := { s1 with sxt.rehash := false }) k _ _) _

theorem execRehashMove_keeps {Q : Mark} {s : State} (kp : Keeps Q s) (slot : Nat) :
    KeepsO Q (execRehashMove slot s) := by
  unfold execRehashMove
  try dsimp only
  repeat' (first
    | (simp +contextual (maxDischargeDepth := 60) [*]; done)
    | split
    | intro _
    | refine State.each_keeps _ _ (fun _ _ _ => ?_) ?_)

@[simp] theorem State.rehashEnd_keeps {Q : Mark} {s : State} (kp : Keeps Q s) :
    Keeps Q (State.rehashEnd s) := by
  unfold State.rehashEnd
  try dsimp only
  repeat' (first
    | (simp +contextual (maxDischargeDepth := 60) [*]; done)
    | split
    | intro _
    | refine State.each_keeps _ _ (fun _ _ _ => ?_) ?_)

theorem execRehashEnd_keeps {Q : Mark} {s : State} (kp : Keeps Q s) :
    KeepsO Q (execRehashEnd s) := by
  unfold execRehashEnd
  try dsimp only
  repeat' (first
    | (simp +contextual (maxDischargeDepth := 60) [*]; done)
    | split
    | intro _
    | refine State.each_keeps _ _ (fun _ _ _ => ?_) ?_)

@[simp] theorem State.trieStart_keeps {Q : Mark} {s : State} (kp : Keeps Q s) :
    Keeps Q (State.trieStart s) := by
  unfold State.trieStart
  try dsimp only
  repeat' (first
    | (simp +contextual (maxDischargeDepth := 60) [*]; done)
    | split
    | intro _
    | refine State.each_keeps _ _ (fun _ _ _ => ?_) ?_)

@[simp] theorem State.trieCtrlWrite_keeps {Q : Mark} {s : State} (kp : Keeps Q s) (v : Word) :
    Keeps Q (State.trieCtrlWrite s v) := by
  unfold State.trieCtrlWrite
  try dsimp only
  repeat' (first
    | (simp +contextual (maxDischargeDepth := 60) [*]; done)
    | split
    | intro _
    | refine State.each_keeps _ _ (fun _ _ _ => ?_) ?_)

theorem execTrieRebuildStart_keeps {Q : Mark} {s : State} (kp : Keeps Q s) (val : Word) :
    KeepsO Q (execTrieRebuildStart val s) := by
  unfold execTrieRebuildStart
  try dsimp only
  repeat' (first
    | (simp +contextual (maxDischargeDepth := 60) [*]; done)
    | split
    | intro _
    | refine State.each_keeps _ _ (fun _ _ _ => ?_) ?_)

theorem execTrieRebuildAbort_keeps {Q : Mark} {s : State} (kp : Keeps Q s) (val : Word) :
    KeepsO Q (execTrieRebuildAbort val s) := by
  unfold execTrieRebuildAbort
  try dsimp only
  repeat' (first
    | (simp +contextual (maxDischargeDepth := 60) [*]; done)
    | split
    | intro _
    | refine State.each_keeps _ _ (fun _ _ _ => ?_) ?_)

@[simp] theorem State.loadRecords_keeps {Q : Mark} {s : State} (kp : Keeps Q s) (root : Nat × Nat) (z0 : List (List Word)) :
    Keeps Q (State.loadRecords s root z0) := by
  fun_induction State.loadRecords <;> simp_all (maxDischargeDepth := 60)

@[simp] theorem State.trieContent_keeps {Q : Mark} {s : State} (kp : Keeps Q s) (root : Nat × Nat) (records : List (List Word)) :
    Keeps Q (State.trieContent s root records) := by
  unfold State.trieContent
  try dsimp only
  repeat' (first
    | (simp +contextual (maxDischargeDepth := 60) [*]; done)
    | split
    | intro _
    | refine State.each_keeps _ _ (fun _ _ _ => ?_) ?_)

@[simp] theorem State.trieFail_keeps {Q : Mark} {s : State} (kp : Keeps Q s) :
    Keeps Q (State.trieFail s) := by
  unfold State.trieFail
  try dsimp only
  repeat' (first
    | (simp +contextual (maxDischargeDepth := 60) [*]; done)
    | split
    | intro _
    | refine State.each_keeps _ _ (fun _ _ _ => ?_) ?_)

@[simp] theorem State.trieFlip_keeps {Q : Mark} {s : State} (kp : Keeps Q s) (records : List (List Word)) :
    Keeps Q (State.trieFlip s records) := by
  unfold State.trieFlip
  try dsimp only
  repeat' (first
    | (simp +contextual (maxDischargeDepth := 60) [*]; done)
    | split
    | intro _
    | refine State.each_keeps _ _ (fun _ _ _ => ?_) ?_)

theorem execTrieRootFlip_keeps {Q : Mark} {s : State} (kp : Keeps Q s) (records : List (List Word)) :
    KeepsO Q (execTrieRootFlip records s) := by
  unfold execTrieRootFlip
  try dsimp only
  repeat' (first
    | (simp +contextual (maxDischargeDepth := 60) [*]; done)
    | split
    | intro _
    | refine State.each_keeps _ _ (fun _ _ _ => ?_) ?_)

theorem execTrieBuildNoSpace_keeps {Q : Mark} {s : State} (kp : Keeps Q s) :
    KeepsO Q (execTrieBuildNoSpace s) := by
  unfold execTrieBuildNoSpace
  try dsimp only
  repeat' (first
    | (simp +contextual (maxDischargeDepth := 60) [*]; done)
    | split
    | intro _
    | refine State.each_keeps _ _ (fun _ _ _ => ?_) ?_)

@[simp] theorem State.fixStart_keeps {Q : Mark} {s : State} (kp : Keeps Q s) :
    Keeps Q (State.fixStart s) := by
  unfold State.fixStart
  try dsimp only
  repeat' (first
    | (simp +contextual (maxDischargeDepth := 60) [*]; done)
    | split
    | intro _
    | refine State.each_keeps _ _ (fun _ _ _ => ?_) ?_)

@[simp] theorem State.fixCtrlWrite_keeps {Q : Mark} {s : State} (kp : Keeps Q s) (v : Word) :
    Keeps Q (State.fixCtrlWrite s v) := by
  unfold State.fixCtrlWrite
  try dsimp only
  repeat' (first
    | (simp +contextual (maxDischargeDepth := 60) [*]; done)
    | split
    | intro _
    | refine State.each_keeps _ _ (fun _ _ _ => ?_) ?_)

theorem execFixCheckStart_keeps {Q : Mark} {s : State} (kp : Keeps Q s) (val : Word) :
    KeepsO Q (execFixCheckStart val s) := by
  unfold execFixCheckStart
  try dsimp only
  repeat' (first
    | (simp +contextual (maxDischargeDepth := 60) [*]; done)
    | split
    | intro _
    | refine State.each_keeps _ _ (fun _ _ _ => ?_) ?_)

theorem execFixCheckAbort_keeps {Q : Mark} {s : State} (kp : Keeps Q s) (val : Word) :
    KeepsO Q (execFixCheckAbort val s) := by
  unfold execFixCheckAbort
  try dsimp only
  repeat' (first
    | (simp +contextual (maxDischargeDepth := 60) [*]; done)
    | split
    | intro _
    | refine State.each_keeps _ _ (fun _ _ _ => ?_) ?_)

@[simp] theorem State.fixOne_keeps {Q : Mark} {s : State} (kp : Keeps Q s) (t index rec : Nat) (d : List Word) :
    Keeps Q (State.fixOne s t index rec d) := by
  unfold State.fixOne
  try dsimp only
  repeat' (first
    | (simp +contextual (maxDischargeDepth := 60) [*]; done)
    | split
    | intro _
    | refine State.each_keeps _ _ (fun _ _ _ => ?_) ?_)

@[simp] theorem State.fixRecords_keeps {Q : Mark} {s : State} (kp : Keeps Q s) (t base n : Nat) (z0 : Nat) (z1 : Nat) (z2 : List Word) :
    Keeps Q (State.fixRecords s t base n z0 z1 z2) := by
  fun_induction State.fixRecords <;> simp_all (maxDischargeDepth := 60)

@[simp] theorem State.fixBlock_keeps {Q : Mark} {s : State} (kp : Keeps Q s) (ws : List Word) :
    Keeps Q (State.fixBlock s ws) := by
  unfold State.fixBlock
  try dsimp only
  repeat' (first
    | (simp +contextual (maxDischargeDepth := 60) [*]; done)
    | split
    | intro _
    | refine State.each_keeps _ _ (fun _ _ _ => ?_) ?_)

theorem execFixBlockCompare_keeps {Q : Mark} {s : State} (kp : Keeps Q s) (words : List Word) :
    KeepsO Q (execFixBlockCompare words s) := by
  unfold execFixBlockCompare
  try dsimp only
  repeat' (first
    | (simp +contextual (maxDischargeDepth := 60) [*]; done)
    | split
    | intro _
    | refine State.each_keeps _ _ (fun _ _ _ => ?_) ?_)

@[simp] theorem State.fixEnd_keeps {Q : Mark} {s : State} (kp : Keeps Q s) :
    Keeps Q (State.fixEnd s) := by
  unfold State.fixEnd
  try dsimp only
  repeat' (first
    | (simp +contextual (maxDischargeDepth := 60) [*]; done)
    | split
    | intro _
    | refine State.each_keeps _ _ (fun _ _ _ => ?_) ?_)

theorem execFixCheckEnd_keeps {Q : Mark} {s : State} (kp : Keeps Q s) :
    KeepsO Q (execFixCheckEnd s) := by
  unfold execFixCheckEnd
  try dsimp only
  repeat' (first
    | (simp +contextual (maxDischargeDepth := 60) [*]; done)
    | split
    | intro _
    | refine State.each_keeps _ _ (fun _ _ _ => ?_) ?_)

end Sys2Proof.Machine
end

