-- ==== Sys2Proof/Laws/KeepCompass.lean ====
section
/-!
SUPPORT. Laws/KeepCompass.lean: the operations of Machine/Compass.lean keep what Laws/Keep.lean lists.
-/
set_option linter.unreachableTactic false
set_option linter.unusedTactic false
set_option linter.unusedSimpArgs false
set_option linter.unusedVariables false

namespace Sys2Proof.Machine

@[simp] theorem State.setChart_keeps {Q : Mark} {s : State} (kp : Keeps Q s) (p bank t i : Nat) (ws : List Word) :
    Keeps Q (State.setChart s p bank t i ws) := by
  unfold State.setChart
  try dsimp only
  repeat' (first
    | (simp +contextual (maxDischargeDepth := 60) [*]; done)
    | split
    | intro _
    | refine State.each_keeps _ _ (fun _ _ _ => ?_) ?_)

@[simp] theorem State.chartWrite_keeps {Q : Mark} {s : State} (kp : Keeps Q s) (all : Bool) (pipe bank t i : Nat) (ws : List Word) :
    Keeps Q (State.chartWrite s all pipe bank t i ws) := by
  unfold State.chartWrite
  try dsimp only
  repeat' (first
    | (simp +contextual (maxDischargeDepth := 60) [*]; done)
    | split
    | intro _
    | refine State.each_keeps _ _ (fun _ _ _ => ?_) ?_)

@[simp] theorem State.tblSelWrite_keeps {Q : Mark} {s : State} (kp : Keeps Q s) (v : Word) :
    Keeps Q (State.tblSelWrite s v) := by
  unfold State.tblSelWrite
  try dsimp only
  repeat' (first
    | (simp +contextual (maxDischargeDepth := 60) [*]; done)
    | split
    | intro _
    | refine State.each_keeps _ _ (fun _ _ _ => ?_) ?_)

theorem execChartEntryWrite_keeps {Q : Mark} {s : State} (kp : Keeps Q s) (val : Word) :
    KeepsO Q (execChartEntryWrite val s) := by
  unfold execChartEntryWrite
  try dsimp only
  repeat' (first
    | (simp +contextual (maxDischargeDepth := 60) [*]; done)
    | split
    | intro _
    | refine State.each_keeps _ _ (fun _ _ _ => ?_) ?_)

theorem execChartEntryRead_keeps {Q : Mark} {s : State} (kp : Keeps Q s) (val : Word) :
    KeepsO Q (execChartEntryRead val s) := by
  unfold execChartEntryRead
  try dsimp only
  repeat' (first
    | (simp +contextual (maxDischargeDepth := 60) [*]; done)
    | split
    | intro _
    | refine State.each_keeps _ _ (fun _ _ _ => ?_) ?_)

theorem execChartTableSelect_keeps {Q : Mark} {s : State} (kp : Keeps Q s) (val : Word) :
    KeepsO Q (execChartTableSelect val s) := by
  unfold execChartTableSelect
  try dsimp only
  repeat' (first
    | (simp +contextual (maxDischargeDepth := 60) [*]; done)
    | split
    | intro _
    | refine State.each_keeps _ _ (fun _ _ _ => ?_) ?_)

@[simp] theorem State.cmpRequest_keeps {Q : Mark} {s : State} (kp : Keeps Q s) (target : Nat) :
    Keeps Q (State.cmpRequest s target) := by
  unfold State.cmpRequest
  try dsimp only
  repeat' (first
    | (simp +contextual (maxDischargeDepth := 60) [*]; done)
    | split
    | intro _
    | refine State.each_keeps _ _ (fun _ _ _ => ?_) ?_)

@[simp] theorem State.cmpCommitWrite_keeps {Q : Mark} {s : State} (kp : Keeps Q s) (v : Word) :
    Keeps Q (State.cmpCommitWrite s v) := by
  unfold State.cmpCommitWrite
  try dsimp only
  repeat' (first
    | (simp +contextual (maxDischargeDepth := 60) [*]; done)
    | split
    | intro _
    | refine State.each_keeps _ _ (fun _ _ _ => ?_) ?_)

theorem execChartCommitGo_keeps {Q : Mark} {s : State} (kp : Keeps Q s) (val : Word) :
    KeepsO Q (execChartCommitGo val s) := by
  unfold execChartCommitGo
  try dsimp only
  repeat' (first
    | (simp +contextual (maxDischargeDepth := 60) [*]; done)
    | split
    | intro _
    | refine State.each_keeps _ _ (fun _ _ _ => ?_) ?_)

@[simp] theorem State.countPrim_keeps {Q : Mark} {s : State} (kp : Keeps Q s) (i bytes : Nat) (pk by' : Bool) :
    Keeps Q (State.countPrim s i bytes pk by') := by
  unfold State.countPrim
  try dsimp only
  repeat' (first
    | (simp +contextual (maxDischargeDepth := 60) [*]; done)
    | split
    | intro _
    | refine State.each_keeps _ _ (fun _ _ _ => ?_) ?_)

@[simp] theorem State.learnPrim_keeps {Q : Mark} {s : State} (kp : Keeps Q s) (c : Pass) (t : Nat) (key : Nat) (result : Nat) :
    Keeps Q (State.learnPrim s c t key result).2 := by
  unfold State.learnPrim
  try dsimp only
  repeat' (first
    | (simp +contextual (maxDischargeDepth := 60) [*]; done)
    | split
    | intro _
    | refine State.each_keeps _ _ (fun _ _ _ => ?_) ?_)

@[simp] theorem State.policePrim_keeps {Q : Mark} {s : State} (kp : Keeps Q s) (c : Pass) (i : Nat) :
    Keeps Q (State.policePrim s c i).2 := by
  unfold State.policePrim
  try dsimp only
  repeat' (first
    | (simp +contextual (maxDischargeDepth := 60) [*]; done)
    | split
    | intro _
    | refine State.each_keeps _ _ (fun _ _ _ => ?_) ?_)

@[simp] theorem State.prim_keeps {Q : Mark} {s : State} (kp : Keeps Q s) (p : Nat) (c : Pass) (x : Prim) :
    Keeps Q (State.prim s p c x).2 := by
  unfold State.prim
  try dsimp only
  repeat' (first
    | (simp +contextual (maxDischargeDepth := 60) [*]; done)
    | split
    | intro _
    | refine State.each_keeps _ _ (fun _ _ _ => ?_) ?_)

@[simp] theorem State.prims_keeps {Q : Mark} {s : State} (kp : Keeps Q s) (p : Nat) (c : Pass) (z0 : List Prim) :
    Keeps Q (State.prims s p c z0).2 := by
  induction z0 generalizing s c with
  | nil => simp_all [State.prims]
  | cons x l ih => simp_all [State.prims]

@[simp] theorem State.program_keeps {Q : Mark} {s : State} (kp : Keeps Q s) (p : Nat) (c : Pass) (i : Nat) :
    Keeps Q (State.program s p c i).2 := by
  unfold State.program
  try dsimp only
  repeat' (first
    | (simp +contextual (maxDischargeDepth := 60) [*]; done)
    | split
    | intro _
    | refine State.each_keeps _ _ (fun _ _ _ => ?_) ?_)

@[simp] theorem State.lpmLookup_keeps {Q : Mark} {s : State} (kp : Keeps Q s) (c : Pass) (stage fam key : Nat) (bad : Bool) :
    Keeps Q (State.lpmLookup s c stage fam key bad).2.2 := by
  unfold State.lpmLookup
  try dsimp only
  repeat' (first
    | (simp +contextual (maxDischargeDepth := 60) [*]; done)
    | split
    | intro _
    | refine State.each_keeps _ _ (fun _ _ _ => ?_) ?_)

@[simp] theorem State.sxtLookup_keeps {Q : Mark} {s : State} (kp : Keeps Q s) (c : Pass) (stage t key : Nat) (bad : Bool) :
    Keeps Q (State.sxtLookup s c stage t key bad).2.2 := by
  unfold State.sxtLookup
  try dsimp only
  repeat' (first
    | (simp +contextual (maxDischargeDepth := 60) [*]; done)
    | split
    | intro _
    | refine State.each_keeps _ _ (fun _ _ _ => ?_) ?_)

@[simp] theorem State.stageRun_keeps {Q : Mark} {s : State} (kp : Keeps Q s) (p : Nat) (c : Pass) (i : Nat) (bad : Bool) (x : StageD) :
    Keeps Q (State.stageRun s p c i bad x).2 := by
  unfold State.stageRun
  try dsimp only
  repeat' (first
    | (simp +contextual (maxDischargeDepth := 60) [*]; done)
    | split
    | intro _
    | refine State.each_keeps _ _ (fun _ _ _ => ?_) ?_)

@[simp] theorem State.stagesRun_keeps {Q : Mark} {s : State} (kp : Keeps Q s) (p : Nat) (bad : List Nat) (z0 : Nat) (z1 : Pass) (z2 : List StageD) :
    Keeps Q (State.stagesRun s p bad z0 z1 z2).2 := by
  induction z2 generalizing s z0 z1 with
  | nil => simp_all [State.stagesRun]
  | cons x l ih => simp_all [State.stagesRun]

@[simp] theorem State.toQueue_keeps {Q : Mark} {s : State} (kp : Keeps Q s) (p : Nat) (f : Stored) (cut : Option (Nat × Nat)) :
    Keeps Q (State.toQueue s p f cut) := by
  unfold State.toQueue
  try dsimp only
  repeat' (first
    | (simp +contextual (maxDischargeDepth := 60) [*]; done)
    | split
    | intro _
    | refine State.each_keeps _ _ (fun _ _ _ => ?_) ?_)

@[simp] theorem State.toCopies_keeps {Q : Mark} {s : State} (kp : Keeps Q s) (p : Nat) (f : Stored) (ts : List McTarget) :
    Keeps Q (State.toCopies s p f ts) := by
  unfold State.toCopies
  try dsimp only
  repeat' (first
    | (simp +contextual (maxDischargeDepth := 60) [*]; done)
    | split
    | intro _
    | refine State.each_keeps _ _ (fun _ _ _ => ?_) ?_)

@[simp] theorem State.puntFrame_keeps {Q : Mark} {s : State} (kp : Keeps Q s) (p port : Nat) (f : Frame) (v : Verdict) (hash : Word) (reason : Nat) :
    Keeps Q (State.puntFrame s p port f v hash reason) := by
  unfold State.puntFrame
  try dsimp only
  repeat' (first
    | (simp +contextual (maxDischargeDepth := 60) [*]; done)
    | split
    | intro _
    | refine State.each_keeps _ _ (fun _ _ _ => ?_) ?_)

@[simp] theorem State.mirrorOut_keeps {Q : Mark} {s : State} (kp : Keeps Q s) (p ingress : Nat) (f : Frame) (v : Verdict) (hash : Word) (z0 : List Nat) :
    Keeps Q (State.mirrorOut s p ingress f v hash z0) := by
  fun_induction State.mirrorOut <;> simp_all (maxDischargeDepth := 60)

@[simp] theorem State.learnOut_keeps {Q : Mark} {s : State} (kp : Keeps Q s) (p port : Nat) (f : Frame) (v : Verdict) (hash : Word) (z0 : List Nat) :
    Keeps Q (State.learnOut s p port f v hash z0) := by
  fun_induction State.learnOut <;> simp_all (maxDischargeDepth := 60)

@[simp] theorem State.forwardTo_keeps {Q : Mark} {s : State} (kp : Keeps Q s) (w : Way) (grown : Int) (dev port cls eq : Nat) :
    Keeps Q (State.forwardTo s w grown dev port cls eq).2 := by
  unfold State.forwardTo
  try dsimp only
  repeat' (first
    | (simp +contextual (maxDischargeDepth := 60) [*]; done)
    | split
    | intro _
    | refine State.each_keeps _ _ (fun _ _ _ => ?_) ?_)

@[simp] theorem State.defaultAction_keeps {Q : Mark} {s : State} (kp : Keeps Q s) (w : Way) (act reason : Nat) :
    Keeps Q (State.defaultAction s w act reason).2 := by
  unfold State.defaultAction
  try dsimp only
  repeat' (first
    | (simp +contextual (maxDischargeDepth := 60) [*]; done)
    | split
    | intro _
    | refine State.each_keeps _ _ (fun _ _ _ => ?_) ?_)

@[simp] theorem State.noMatch_keeps {Q : Mark} {s : State} (kp : Keeps Q s) (w : Way) :
    Keeps Q (State.noMatch s w).2 := by
  unfold State.noMatch
  try dsimp only
  repeat' (first
    | (simp +contextual (maxDischargeDepth := 60) [*]; done)
    | split
    | intro _
    | refine State.each_keeps _ _ (fun _ _ _ => ?_) ?_)

@[simp] theorem State.nhDrop_keeps {Q : Mark} {s : State} (kp : Keeps Q s) :
    Keeps Q (State.nhDrop s).2 := by
  unfold State.nhDrop
  try dsimp only
  repeat' (first
    | (simp +contextual (maxDischargeDepth := 60) [*]; done)
    | split
    | intro _
    | refine State.each_keeps _ _ (fun _ _ _ => ?_) ?_)

@[simp] theorem State.readEntry_keeps {Q : Mark} {s : State} (kp : Keeps Q s) (bad : Bool) (sub i : Nat) :
    Keeps Q (State.readEntry s bad sub i).2 := by
  unfold State.readEntry
  try dsimp only
  repeat' (first
    | (simp +contextual (maxDischargeDepth := 60) [*]; done)
    | split
    | intro _
    | refine State.each_keeps _ _ (fun _ _ _ => ?_) ?_)

@[simp] theorem State.viaNextHop_keeps {Q : Mark} {s : State} (kp : Keeps Q s) (w : Way) (i : Nat) :
    Keeps Q (State.viaNextHop s w i).2 := by
  unfold State.viaNextHop
  try dsimp only
  repeat' (first
    | (simp +contextual (maxDischargeDepth := 60) [*]; done)
    | split
    | intro _
    | refine State.each_keeps _ _ (fun _ _ _ => ?_) ?_)

@[simp] theorem State.viaEcmp_keeps {Q : Mark} {s : State} (kp : Keeps Q s) (w : Way) (i : Nat) :
    Keeps Q (State.viaEcmp s w i).2 := by
  unfold State.viaEcmp
  try dsimp only
  repeat' (first
    | (simp +contextual (maxDischargeDepth := 60) [*]; done)
    | split
    | intro _
    | refine State.each_keeps _ _ (fun _ _ _ => ?_) ?_)

@[simp] theorem State.mcTargets_keeps {Q : Mark} {s : State} (kp : Keeps Q s) (w : Way) (base : Nat) (z0 : List Nat) :
    Keeps Q (State.mcTargets s w base z0).2 := by
  induction z0 generalizing s with
  | nil => exact kp
  | cons i is ih =>
    have k := State.readEntry_keeps kp (w.bad.contains (36 + i)) 7 (base + i)
    simp only [State.mcTargets]
    split
    · exact ih (State.bump_keeps k _)
    · refine ih ?_
      split
      · exact State.bump_keeps k _
      · exact k

@[simp] theorem State.viaMc_keeps {Q : Mark} {s : State} (kp : Keeps Q s) (w : Way) (i : Nat) :
    Keeps Q (State.viaMc s w i).2 := by
  unfold State.viaMc
  try dsimp only
  repeat' (first
    | (simp +contextual (maxDischargeDepth := 60) [*]; done)
    | split
    | intro _
    | refine State.each_keeps _ _ (fun _ _ _ => ?_) ?_)

@[simp] theorem State.resolve_keeps {Q : Mark} {s : State} (kp : Keeps Q s) (w : Way) :
    Keeps Q (State.resolve s w).2 := by
  unfold State.resolve
  try dsimp only
  repeat' (first
    | (simp +contextual (maxDischargeDepth := 60) [*]; done)
    | split
    | intro _
    | refine State.each_keeps _ _ (fun _ _ _ => ?_) ?_)

@[simp] theorem State.lastPass_keeps {Q : Mark} {s : State} (kp : Keeps Q s) (w : Way) :
    Keeps Q (State.lastPass s w).2 := by
  unfold State.lastPass
  try dsimp only
  repeat' (first
    | (simp +contextual (maxDischargeDepth := 60) [*]; done)
    | split
    | intro _
    | refine State.each_keeps _ _ (fun _ _ _ => ?_) ?_)

@[simp] theorem State.leaveBuffer_keeps {Q : Mark} {s : State} (kp : Keeps Q s) (f : Frame) :
    Keeps Q (State.leaveBuffer s f) := by
  unfold State.leaveBuffer
  try dsimp only
  repeat' (first
    | (simp +contextual (maxDischargeDepth := 60) [*]; done)
    | split
    | intro _
    | refine State.each_keeps _ _ (fun _ _ _ => ?_) ?_)

@[simp] theorem State.firstPass_keeps {Q : Mark} {s : State} (kp : Keeps Q s) (p : Nat) (f : Frame) :
    Keeps Q (State.firstPass s p f).2 := by
  unfold State.firstPass
  try dsimp only
  repeat' (first
    | (simp +contextual (maxDischargeDepth := 60) [*]; done)
    | split
    | intro _
    | refine State.each_keeps _ _ (fun _ _ _ => ?_) ?_)

@[simp] theorem State.setRecirc_keeps {Q : Mark} {s : State} (kp : Keeps Q s) (p : Nat) (l : List Flight) :
    Keeps Q (State.setRecirc s p l) := by
  unfold State.setRecirc
  try dsimp only
  repeat' (first
    | (simp +contextual (maxDischargeDepth := 60) [*]; done)
    | split
    | intro _
    | refine State.each_keeps _ _ (fun _ _ _ => ?_) ?_)

@[simp] theorem State.endPass_keeps {Q : Mark} {s : State} (kp : Keeps Q s) (p : Nat) (c : Pass) (bad : List Nat) :
    Keeps Q (State.endPass s p c bad) := by
  unfold State.endPass
  try dsimp only
  repeat' (first
    | (simp +contextual (maxDischargeDepth := 60) [*]; done)
    | split
    | intro _
    | refine State.each_keeps _ _ (fun _ _ _ => ?_) ?_)

@[simp] theorem State.runPass_keeps {Q : Mark} {s : State} (kp : Keeps Q s) (p : Nat) (fl : Flight) (bad : List Nat) :
    Keeps Q (State.runPass s p fl bad) := by
  unfold State.runPass
  try dsimp only
  repeat' (first
    | (simp +contextual (maxDischargeDepth := 60) [*]; done)
    | split
    | intro _
    | refine State.each_keeps _ _ (fun _ _ _ => ?_) ?_)

@[simp] theorem State.pipelinePass_keeps {Q : Mark} {s : State} (kp : Keeps Q s) (p : Nat) (bad : List Nat) :
    Keeps Q (State.pipelinePass s p bad) := by
  unfold State.pipelinePass
  try dsimp only
  repeat' (first
    | (simp +contextual (maxDischargeDepth := 60) [*]; done)
    | split
    | intro _
    | refine State.each_keeps _ _ (fun _ _ _ => ?_) ?_)

theorem execPipelinePass_keeps {Q : Mark} {s : State} (kp : Keeps Q s) (p : Fin 9) (bad : List Nat) :
    KeepsO Q (execPipelinePass p bad s) := by
  unfold execPipelinePass
  try dsimp only
  repeat' (first
    | (simp +contextual (maxDischargeDepth := 60) [*]; done)
    | split
    | intro _
    | refine State.each_keeps _ _ (fun _ _ _ => ?_) ?_)

end Sys2Proof.Machine
end

