-- ==== Sys2Proof/Laws/KeepPonBase.lean ====
section
/-!
SUPPORT. Laws/KeepPonBase.lean: the operations of Machine/PonBase.lean keep what Laws/Keep.lean lists.
-/
set_option linter.unreachableTactic false
set_option linter.unusedTactic false
set_option linter.unusedSimpArgs false
set_option linter.unusedVariables false

namespace Sys2Proof.Machine

@[simp] theorem State.setPers_keeps {Q : Mark} {s : State} (kp : Keeps Q s) (n code : Nat) :
    Keeps Q (State.setPers s n code) := by
  unfold State.setPers
  try dsimp only
  repeat' (first
    | (simp +contextual (maxDischargeDepth := 60) [*]; done)
    | split
    | intro _
    | refine State.each_keeps _ _ (fun _ _ _ => ?_) ?_)

@[simp] theorem State.setPonPort_keeps {Q : Mark} {s : State} (kp : Keeps Q s) (n : Nat) (x : PonPort) :
    Keeps Q (State.setPonPort s n x) := by
  unfold State.setPonPort
  try dsimp only
  repeat' (first
    | (simp +contextual (maxDischargeDepth := 60) [*]; done)
    | split
    | intro _
    | refine State.each_keeps _ _ (fun _ _ _ => ?_) ?_)

@[simp] theorem State.setMaps_keeps {Q : Mark} {s : State} (kp : Keeps Q s) (j : Nat) (l : List PonMap) :
    Keeps Q (State.setMaps s j l) := by
  unfold State.setMaps
  try dsimp only
  repeat' (first
    | (simp +contextual (maxDischargeDepth := 60) [*]; done)
    | split
    | intro _
    | refine State.each_keeps _ _ (fun _ _ _ => ?_) ?_)

@[simp] theorem State.updMap_keeps {Q : Mark} {s : State} (kp : Keeps Q s) (j f : Nat) (g : PonMap → PonMap) :
    Keeps Q (State.updMap s j f g) := by
  unfold State.updMap
  try dsimp only
  repeat' (first
    | (simp +contextual (maxDischargeDepth := 60) [*]; done)
    | split
    | intro _
    | refine State.each_keeps _ _ (fun _ _ _ => ?_) ?_)

@[simp] theorem State.updBurst_keeps {Q : Mark} {s : State} (kp : Keeps Q s) (j f i : Nat) (g : Burst → Burst) :
    Keeps Q (State.updBurst s j f i g) := by
  unfold State.updBurst
  try dsimp only
  repeat' (first
    | (simp +contextual (maxDischargeDepth := 60) [*]; done)
    | split
    | intro _
    | refine State.each_keeps _ _ (fun _ _ _ => ?_) ?_)

@[simp] theorem State.setOnu_keeps {Q : Mark} {s : State} (kp : Keeps Q s) (n id : Nat) (x : Onu) :
    Keeps Q (State.setOnu s n id x) := by
  unfold State.setOnu
  try dsimp only
  repeat' (first
    | (simp +contextual (maxDischargeDepth := 60) [*]; done)
    | split
    | intro _
    | refine State.each_keeps _ _ (fun _ _ _ => ?_) ?_)

@[simp] theorem State.setActCh_keeps {Q : Mark} {s : State} (kp : Keeps Q s) (j : Nat) (x : ActCh) :
    Keeps Q (State.setActCh s j x) := by
  unfold State.setActCh
  try dsimp only
  repeat' (first
    | (simp +contextual (maxDischargeDepth := 60) [*]; done)
    | split
    | intro _
    | refine State.each_keeps _ _ (fun _ _ _ => ?_) ?_)

@[simp] theorem State.ploamSend_keeps {Q : Mark} {s : State} (kp : Keeps Q s) (j : Nat) (m : PloamMsg) :
    Keeps Q (State.ploamSend s j m) := by
  unfold State.ploamSend
  try dsimp only
  repeat' (first
    | (simp +contextual (maxDischargeDepth := 60) [*]; done)
    | split
    | intro _
    | refine State.each_keeps _ _ (fun _ _ _ => ?_) ?_)

@[simp] theorem State.setArea_keeps {Q : Mark} {s : State} (kp : Keeps Q s) (j : Nat) (a : Nat × Nat) :
    Keeps Q (State.setArea s j a) := by
  unfold State.setArea
  try dsimp only
  repeat' (first
    | (simp +contextual (maxDischargeDepth := 60) [*]; done)
    | split
    | intro _
    | refine State.each_keeps _ _ (fun _ _ _ => ?_) ?_)

@[simp] theorem State.idleFill_keeps {Q : Mark} {s : State} (kp : Keeps Q s) (j k : Nat) :
    Keeps Q (State.idleFill s j k) := by
  unfold State.idleFill
  try dsimp only
  repeat' (first
    | (simp +contextual (maxDischargeDepth := 60) [*]; done)
    | split
    | intro _
    | refine State.each_keeps _ _ (fun _ _ _ => ?_) ?_)

@[simp] theorem State.frameFill_keeps {Q : Mark} {s : State} (kp : Keeps Q s) (j : Nat) :
    Keeps Q (State.frameFill s j) := by
  unfold State.frameFill
  try dsimp only
  repeat' (first
    | (simp +contextual (maxDischargeDepth := 60) [*]; done)
    | split
    | intro _
    | refine State.each_keeps _ _ (fun _ _ _ => ?_) ?_)

@[simp] theorem State.restDrop_keeps {Q : Mark} {s : State} (kp : Keeps Q s) (j : Nat) :
    Keeps Q (State.restDrop s j) := by
  unfold State.restDrop
  try dsimp only
  repeat' (first
    | (simp +contextual (maxDischargeDepth := 60) [*]; done)
    | split
    | intro _
    | refine State.each_keeps _ _ (fun _ _ _ => ?_) ?_)

@[simp] theorem State.ponFollow_keeps {Q : Mark} {s : State} (kp : Keeps Q s) (n : Nat) :
    Keeps Q (State.ponFollow s n) := by
  unfold State.ponFollow
  try dsimp only
  repeat' (first
    | (simp +contextual (maxDischargeDepth := 60) [*]; done)
    | split
    | intro _
    | refine State.each_keeps _ _ (fun _ _ _ => ?_) ?_)

@[simp] theorem State.ponFollowAll_keeps {Q : Mark} {s : State} (kp : Keeps Q s) :
    Keeps Q (State.ponFollowAll s) := by
  unfold State.ponFollowAll
  try dsimp only
  repeat' (first
    | (simp +contextual (maxDischargeDepth := 60) [*]; done)
    | split
    | intro _
    | refine State.each_keeps _ _ (fun _ _ _ => ?_) ?_)

end Sys2Proof.Machine
end

