-- ==== Sys2Proof/Laws/KeepKeys.lean ====
section
/-!
SUPPORT. Laws/KeepKeys.lean: the operations of Machine/Keys.lean keep what Laws/Keep.lean lists.
-/
set_option linter.unreachableTactic false
set_option linter.unusedTactic false
set_option linter.unusedSimpArgs false
set_option linter.unusedVariables false

namespace Sys2Proof.Machine

@[simp] theorem State.setKeySet_keeps {Q : Mark} {s : State} (kp : Keeps Q s) (n id : Nat) (x : KeySet) :
    Keeps Q (State.setKeySet s n id x) := by
  unfold State.setKeySet
  try dsimp only
  repeat' (first
    | (simp +contextual (maxDischargeDepth := 60) [*]; done)
    | split
    | intro _
    | refine State.each_keeps _ _ (fun _ _ _ => ?_) ?_)

@[simp] theorem State.setBkeySet_keeps {Q : Mark} {s : State} (kp : Keeps Q s) (j : Nat) (x : KeySet) :
    Keeps Q (State.setBkeySet s j x) := by
  unfold State.setBkeySet
  try dsimp only
  repeat' (first
    | (simp +contextual (maxDischargeDepth := 60) [*]; done)
    | split
    | intro _
    | refine State.each_keeps _ _ (fun _ _ _ => ?_) ?_)

@[simp] theorem State.cutKeys_keeps {Q : Mark} {s : State} (kp : Keeps Q s) :
    Keeps Q (State.cutKeys s) := by
  unfold State.cutKeys
  try dsimp only
  repeat' (first
    | (simp +contextual (maxDischargeDepth := 60) [*]; done)
    | split
    | intro _
    | refine State.each_keeps _ _ (fun _ _ _ => ?_) ?_)

@[simp] theorem State.beginKeys_keeps {Q : Mark} {s : State} (kp : Keeps Q s) :
    Keeps Q (State.beginKeys s) := by
  unfold State.beginKeys
  try dsimp only
  repeat' (first
    | (simp +contextual (maxDischargeDepth := 60) [*]; done)
    | split
    | intro _
    | refine State.each_keeps _ _ (fun _ _ _ => ?_) ?_)

@[simp] theorem State.bindSelWrite_keeps {Q : Mark} {s : State} (kp : Keeps Q s) (v : Word) :
    Keeps Q (State.bindSelWrite s v) := by
  unfold State.bindSelWrite
  try dsimp only
  repeat' (first
    | (simp +contextual (maxDischargeDepth := 60) [*]; done)
    | split
    | intro _
    | refine State.each_keeps _ _ (fun _ _ _ => ?_) ?_)

theorem execBindWrite_keeps {Q : Mark} {s : State} (kp : Keeps Q s) (val : Word) :
    KeepsO Q (execBindWrite val s) := by
  unfold execBindWrite
  try dsimp only
  repeat' (first
    | (simp +contextual (maxDischargeDepth := 60) [*]; done)
    | split
    | intro _
    | refine State.each_keeps _ _ (fun _ _ _ => ?_) ?_)

theorem execBindRead_keeps {Q : Mark} {s : State} (kp : Keeps Q s) (val : Word) :
    KeepsO Q (execBindRead val s) := by
  unfold execBindRead
  try dsimp only
  repeat' (first
    | (simp +contextual (maxDischargeDepth := 60) [*]; done)
    | split
    | intro _
    | refine State.each_keeps _ _ (fun _ _ _ => ?_) ?_)

@[simp] theorem State.dsqSelWrite_keeps {Q : Mark} {s : State} (kp : Keeps Q s) (v : Word) :
    Keeps Q (State.dsqSelWrite s v) := by
  unfold State.dsqSelWrite
  try dsimp only
  repeat' (first
    | (simp +contextual (maxDischargeDepth := 60) [*]; done)
    | split
    | intro _
    | refine State.each_keeps _ _ (fun _ _ _ => ?_) ?_)

theorem execDsqWrite_keeps {Q : Mark} {s : State} (kp : Keeps Q s) (val : Word) :
    KeepsO Q (execDsqWrite val s) := by
  unfold execDsqWrite
  try dsimp only
  repeat' (first
    | (simp +contextual (maxDischargeDepth := 60) [*]; done)
    | split
    | intro _
    | refine State.each_keeps _ _ (fun _ _ _ => ?_) ?_)

theorem execDsqRead_keeps {Q : Mark} {s : State} (kp : Keeps Q s) (val : Word) :
    KeepsO Q (execDsqRead val s) := by
  unfold execDsqRead
  try dsimp only
  repeat' (first
    | (simp +contextual (maxDischargeDepth := 60) [*]; done)
    | split
    | intro _
    | refine State.each_keeps _ _ (fun _ _ _ => ?_) ?_)

@[simp] theorem State.keyDataWrite_keeps {Q : Mark} {s : State} (kp : Keeps Q s) (i : Nat) (v : Word) :
    Keeps Q (State.keyDataWrite s i v) := by
  unfold State.keyDataWrite
  try dsimp only
  repeat' (first
    | (simp +contextual (maxDischargeDepth := 60) [*]; done)
    | split
    | intro _
    | refine State.each_keeps _ _ (fun _ _ _ => ?_) ?_)

@[simp] theorem State.putKey_keeps {Q : Mark} {s : State} (kp : Keeps Q s) (target slot n c id : Nat) (k : Option (BitVec 128)) :
    Keeps Q (State.putKey s target slot n c id k) := by
  unfold State.putKey
  try dsimp only
  repeat' (first
    | (simp +contextual (maxDischargeDepth := 60) [*]; done)
    | split
    | intro _
    | refine State.each_keeps _ _ (fun _ _ _ => ?_) ?_)

@[simp] theorem State.keySelWrite_keeps {Q : Mark} {s : State} (kp : Keeps Q s) (v : Word) :
    Keeps Q (State.keySelWrite s v) := by
  unfold State.keySelWrite
  try dsimp only
  repeat' (first
    | (simp +contextual (maxDischargeDepth := 60) [*]; done)
    | split
    | intro _
    | refine State.each_keeps _ _ (fun _ _ _ => ?_) ?_)

theorem execKeyWrite_keeps {Q : Mark} {s : State} (kp : Keeps Q s) (val : Word) :
    KeepsO Q (execKeyWrite val s) := by
  unfold execKeyWrite
  try dsimp only
  repeat' (first
    | (simp +contextual (maxDischargeDepth := 60) [*]; done)
    | split
    | intro _
    | refine State.each_keeps _ _ (fun _ _ _ => ?_) ?_)

theorem execKeyRead_keeps {Q : Mark} {s : State} (kp : Keeps Q s) (val : Word) :
    KeepsO Q (execKeyRead val s) := by
  unfold execKeyRead
  try dsimp only
  repeat' (first
    | (simp +contextual (maxDischargeDepth := 60) [*]; done)
    | split
    | intro _
    | refine State.each_keeps _ _ (fun _ _ _ => ?_) ?_)

theorem execKeyClear_keeps {Q : Mark} {s : State} (kp : Keeps Q s) (val : Word) :
    KeepsO Q (execKeyClear val s) := by
  unfold execKeyClear
  try dsimp only
  repeat' (first
    | (simp +contextual (maxDischargeDepth := 60) [*]; done)
    | split
    | intro _
    | refine State.each_keeps _ _ (fun _ _ _ => ?_) ?_)

@[simp] theorem State.exchEnd_keeps {Q : Mark} {s : State} (kp : Keeps Q s) (e : Exchange) (ok : Bool) (cause : Nat) :
    Keeps Q (State.exchEnd s e ok cause) := by
  unfold State.exchEnd
  try dsimp only
  repeat' (first
    | (simp +contextual (maxDischargeDepth := 60) [*]; done)
    | split
    | intro _
    | refine State.each_keeps _ _ (fun _ _ _ => ?_) ?_)

@[simp] theorem State.exchLeave_keeps {Q : Mark} {s : State} (kp : Keeps Q s) (n id : Nat) :
    Keeps Q (State.exchLeave s n id) := by
  unfold State.exchLeave
  try dsimp only
  repeat' (first
    | (simp +contextual (maxDischargeDepth := 60) [*]; done)
    | split
    | intro _
    | refine State.each_keeps _ _ (fun _ _ _ => ?_) ?_)

@[simp] theorem State.keyCmdEnd_keeps {Q : Mark} {s : State} (kp : Keeps Q s) (cause : Nat) :
    Keeps Q (State.keyCmdEnd s cause) := by
  unfold State.keyCmdEnd
  try dsimp only
  repeat' (first
    | (simp +contextual (maxDischargeDepth := 60) [*]; done)
    | split
    | intro _
    | refine State.each_keeps _ _ (fun _ _ _ => ?_) ?_)

@[simp] theorem State.exchange_keeps {Q : Mark} {s : State} (kp : Keeps Q s) (n id index : Nat) :
    Keeps Q (State.exchange s n id index) := by
  unfold State.exchange
  try dsimp only
  repeat' (first
    | (simp +contextual (maxDischargeDepth := 60) [*]; done)
    | split
    | intro _
    | refine State.each_keeps _ _ (fun _ _ _ => ?_) ?_)

@[simp] theorem State.exchTimeout_keeps {Q : Mark} {s : State} (kp : Keeps Q s) (n id : Nat) :
    Keeps Q (State.exchTimeout s n id) := by
  unfold State.exchTimeout
  try dsimp only
  repeat' (first
    | (simp +contextual (maxDischargeDepth := 60) [*]; done)
    | split
    | intro _
    | refine State.each_keeps _ _ (fun _ _ _ => ?_) ?_)

theorem execKeyExchangeTimeout_keeps {Q : Mark} {s : State} (kp : Keeps Q s) (n : Fin 48) (onu : Fin 1024) (at' : Raw) :
    KeepsO Q (execKeyExchangeTimeout n onu at' s) := by
  unfold execKeyExchangeTimeout
  try dsimp only
  repeat' (first
    | (simp +contextual (maxDischargeDepth := 60) [*]; done)
    | split
    | intro _
    | refine State.each_keeps _ _ (fun _ _ _ => ?_) ?_)

@[simp] theorem State.keyReport_keeps {Q : Mark} {s : State} (kp : Keeps Q s) (n id index : Nat) (last : Bool) (frag : List Word) :
    Keeps Q (State.keyReport s n id index last frag) := by
  unfold State.keyReport
  try dsimp only
  repeat' (first
    | (simp +contextual (maxDischargeDepth := 60) [*]; done)
    | split
    | intro _
    | refine State.each_keeps _ _ (fun _ _ _ => ?_) ?_)

@[simp] theorem State.keyResultRead_keeps {Q : Mark} {s : State} (kp : Keeps Q s) :
    Keeps Q (State.keyResultRead s) := by
  unfold State.keyResultRead
  try dsimp only
  repeat' (first
    | (simp +contextual (maxDischargeDepth := 60) [*]; done)
    | split
    | intro _
    | refine State.each_keeps _ _ (fun _ _ _ => ?_) ?_)

theorem execKeyResultRead_keeps {Q : Mark} {s : State} (kp : Keeps Q s) :
    KeepsO Q (execKeyResultRead s) := by
  unfold execKeyResultRead
  try dsimp only
  repeat' (first
    | (simp +contextual (maxDischargeDepth := 60) [*]; done)
    | split
    | intro _
    | refine State.each_keeps _ _ (fun _ _ _ => ?_) ?_)

@[simp] theorem State.switchOnu_keeps {Q : Mark} {s : State} (kp : Keeps Q s) (n index : Nat) (wp : Bool) (id : Nat) :
    Keeps Q (State.switchOnu s n index wp id) := by
  unfold State.switchOnu
  try dsimp only
  repeat' (first
    | (simp +contextual (maxDischargeDepth := 60) [*]; done)
    | split
    | intro _
    | refine State.each_keeps _ _ (fun _ _ _ => ?_) ?_)

@[simp] theorem State.switchSet_keeps {Q : Mark} {s : State} (kp : Keeps Q s) (index : Nat) (wp : Bool) (j : Nat) :
    Keeps Q (State.switchSet s index wp j) := by
  unfold State.switchSet
  try dsimp only
  repeat' (first
    | (simp +contextual (maxDischargeDepth := 60) [*]; done)
    | split
    | intro _
    | refine State.each_keeps _ _ (fun _ _ _ => ?_) ?_)

@[simp] theorem State.switchPort_keeps {Q : Mark} {s : State} (kp : Keeps Q s) (n index : Nat) (wp : Bool) :
    Keeps Q (State.switchPort s n index wp) := by
  unfold State.switchPort
  try dsimp only
  repeat' (first
    | (simp +contextual (maxDischargeDepth := 60) [*]; done)
    | split
    | intro _
    | refine State.each_keeps _ _ (fun _ _ _ => ?_) ?_)

@[simp] theorem State.keySwitch_keeps {Q : Mark} {s : State} (kp : Keeps Q s) (port index : Nat) :
    Keeps Q (State.keySwitch s port index) := by
  unfold State.keySwitch
  try dsimp only
  repeat' (first
    | (simp +contextual (maxDischargeDepth := 60) [*]; done)
    | split
    | intro _
    | refine State.each_keeps _ _ (fun _ _ _ => ?_) ?_)

@[simp] theorem State.indexSwitch_keeps {Q : Mark} {s : State} (kp : Keeps Q s) (n id index : Nat) :
    Keeps Q (State.indexSwitch s n id index) := by
  unfold State.indexSwitch
  try dsimp only
  repeat' (first
    | (simp +contextual (maxDischargeDepth := 60) [*]; done)
    | split
    | intro _
    | refine State.each_keeps _ _ (fun _ _ _ => ?_) ?_)

@[simp] theorem State.keyCmdWrite_keeps {Q : Mark} {s : State} (kp : Keeps Q s) (v : Word) :
    Keeps Q (State.keyCmdWrite s v) := by
  unfold State.keyCmdWrite
  try dsimp only
  repeat' (first
    | (simp +contextual (maxDischargeDepth := 60) [*]; done)
    | split
    | intro _
    | refine State.each_keeps _ _ (fun _ _ _ => ?_) ?_)

theorem execKeyExchange_keeps {Q : Mark} {s : State} (kp : Keeps Q s) (val : Word) :
    KeepsO Q (execKeyExchange val s) := by
  unfold execKeyExchange
  try dsimp only
  repeat' (first
    | (simp +contextual (maxDischargeDepth := 60) [*]; done)
    | split
    | intro _
    | refine State.each_keeps _ _ (fun _ _ _ => ?_) ?_)

theorem execKeyIndexSwitch_keeps {Q : Mark} {s : State} (kp : Keeps Q s) (val : Word) :
    KeepsO Q (execKeyIndexSwitch val s) := by
  unfold execKeyIndexSwitch
  try dsimp only
  repeat' (first
    | (simp +contextual (maxDischargeDepth := 60) [*]; done)
    | split
    | intro _
    | refine State.each_keeps _ _ (fun _ _ _ => ?_) ?_)

@[simp] theorem State.spoofRead_keeps {Q : Mark} {s : State} (kp : Keeps Q s) :
    Keeps Q (State.spoofRead s) := by
  unfold State.spoofRead
  try dsimp only
  repeat' (first
    | (simp +contextual (maxDischargeDepth := 60) [*]; done)
    | split
    | intro _
    | refine State.each_keeps _ _ (fun _ _ _ => ?_) ?_)

theorem execLastSpoofRead_keeps {Q : Mark} {s : State} (kp : Keeps Q s) :
    KeepsO Q (execLastSpoofRead s) := by
  unfold execLastSpoofRead
  try dsimp only
  repeat' (first
    | (simp +contextual (maxDischargeDepth := 60) [*]; done)
    | split
    | intro _
    | refine State.each_keeps _ _ (fun _ _ _ => ?_) ?_)

@[simp] theorem State.setXreasm_keeps {Q : Mark} {s : State} (kp : Keeps Q s) (n pid : Nat) (x : XReasm) :
    Keeps Q (State.setXreasm s n pid x) := by
  unfold State.setXreasm
  try dsimp only
  repeat' (first
    | (simp +contextual (maxDischargeDepth := 60) [*]; done)
    | split
    | intro _
    | refine State.each_keeps _ _ (fun _ _ _ => ?_) ?_)

@[simp] theorem State.reasmAbort_keeps {Q : Mark} {s : State} (kp : Keeps Q s) (n pid : Nat) :
    Keeps Q (State.reasmAbort s n pid) := by
  unfold State.reasmAbort
  try dsimp only
  repeat' (first
    | (simp +contextual (maxDischargeDepth := 60) [*]; done)
    | split
    | intro _
    | refine State.each_keeps _ _ (fun _ _ _ => ?_) ?_)

@[simp] theorem State.keysFree_keeps {Q : Mark} {s : State} (kp : Keeps Q s) (n id : Nat) :
    Keeps Q (State.keysFree s n id) := by
  unfold State.keysFree
  try dsimp only
  repeat' (first
    | (simp +contextual (maxDischargeDepth := 60) [*]; done)
    | split
    | intro _
    | refine State.each_keeps _ _ (fun _ _ _ => ?_) ?_)

end Sys2Proof.Machine
end

