-- ==== Sys2Proof/Laws/KeepTimeline.lean ====
section
/-!
SUPPORT. Laws/KeepTimeline.lean: the operations of Machine/Timeline.lean keep what Laws/Keep.lean lists.
-/
set_option linter.unreachableTactic false
set_option linter.unusedTactic false
set_option linter.unusedSimpArgs false
set_option linter.unusedVariables false

namespace Sys2Proof.Machine

@[simp] theorem State.setResvs_keeps {Q : Mark} {s : State} (kp : Keeps Q s) (j : Nat) (l : List Resv) :
    Keeps Q (State.setResvs s j l) := by
  unfold State.setResvs
  try dsimp only
  repeat' (first
    | (simp +contextual (maxDischargeDepth := 60) [*]; done)
    | split
    | intro _
    | refine State.each_keeps _ _ (fun _ _ _ => ?_) ?_)

@[simp] theorem State.reserve_keeps {Q : Mark} {s : State} (kp : Keeps Q s) (j : Nat) (r : Resv) :
    Keeps Q (State.reserve s j r) := by
  unfold State.reserve
  try dsimp only
  repeat' (first
    | (simp +contextual (maxDischargeDepth := 60) [*]; done)
    | split
    | intro _
    | refine State.each_keeps _ _ (fun _ _ _ => ?_) ?_)

@[simp] theorem State.reserveDisc_keeps {Q : Mark} {s : State} (kp : Keeps Q s) (j f : Nat) :
    Keeps Q (State.reserveDisc s j f) := by
  unfold State.reserveDisc
  try dsimp only
  repeat' (first
    | (simp +contextual (maxDischargeDepth := 60) [*]; done)
    | split
    | intro _
    | refine State.each_keeps _ _ (fun _ _ _ => ?_) ?_)

@[simp] theorem State.rangeReserve_keeps {Q : Mark} {s : State} (kp : Keeps Q s) (n id : Nat) :
    Keeps Q (State.rangeReserve s n id) := by
  unfold State.rangeReserve
  try dsimp only
  repeat' (first
    | (simp +contextual (maxDischargeDepth := 60) [*]; done)
    | split
    | intro _
    | refine State.each_keeps _ _ (fun _ _ _ => ?_) ?_)

@[simp] theorem State.rangeRelease_keeps {Q : Mark} {s : State} (kp : Keeps Q s) (n id : Nat) :
    Keeps Q (State.rangeRelease s n id) := by
  unfold State.rangeRelease
  try dsimp only
  repeat' (first
    | (simp +contextual (maxDischargeDepth := 60) [*]; done)
    | split
    | intro _
    | refine State.each_keeps _ _ (fun _ _ _ => ?_) ?_)

end Sys2Proof.Machine
end

