-- ==== Sys2Proof/Laws/KeepActivation.lean ====
section
/-!
SUPPORT. Laws/KeepActivation.lean: the operations of Machine/Activation.lean keep what Laws/Keep.lean lists.
-/
set_option linter.unreachableTactic false
set_option linter.unusedTactic false
set_option linter.unusedSimpArgs false
set_option linter.unusedVariables false

namespace Sys2Proof.Machine

@[simp] theorem State.rxPush_keeps {Q : Mark} {s : State} (kp : Keeps Q s) (type n c id cause : Nat) (data : List Word) :
    Keeps Q (State.rxPush s type n c id cause data) := by
  unfold State.rxPush
  try dsimp only
  repeat' (first
    | (simp +contextual (maxDischargeDepth := 60) [*]; done)
    | split
    | intro _
    | refine State.each_keeps _ _ (fun _ _ _ => ?_) ?_)

@[simp] theorem State.report_keeps {Q : Mark} {s : State} (kp : Keeps Q s) (n c id cause : Nat) (vendor serial : Word) (m : Int) :
    Keeps Q (State.report s n c id cause vendor serial m) := by
  unfold State.report
  try dsimp only
  repeat' (first
    | (simp +contextual (maxDischargeDepth := 60) [*]; done)
    | split
    | intro _
    | refine State.each_keeps _ _ (fun _ _ _ => ?_) ?_)

@[simp] theorem State.reportOnu_keeps {Q : Mark} {s : State} (kp : Keeps Q s) (n id cause : Nat) :
    Keeps Q (State.reportOnu s n id cause) := by
  unfold State.reportOnu
  try dsimp only
  repeat' (first
    | (simp +contextual (maxDischargeDepth := 60) [*]; done)
    | split
    | intro _
    | refine State.each_keeps _ _ (fun _ _ _ => ?_) ?_)

@[simp] theorem State.rxRead_keeps {Q : Mark} {s : State} (kp : Keeps Q s) :
    Keeps Q (State.rxRead s) := by
  unfold State.rxRead
  try dsimp only
  repeat' (first
    | (simp +contextual (maxDischargeDepth := 60) [*]; done)
    | split
    | intro _
    | refine State.each_keeps _ _ (fun _ _ _ => ?_) ?_)

theorem execPloamRxRead_keeps {Q : Mark} {s : State} (kp : Keeps Q s) :
    KeepsO Q (execPloamRxRead s) := by
  unfold execPloamRxRead
  try dsimp only
  repeat' (first
    | (simp +contextual (maxDischargeDepth := 60) [*]; done)
    | split
    | intro _
    | refine State.each_keeps _ _ (fun _ _ _ => ?_) ?_)

@[simp] theorem State.onuLeave_keeps {Q : Mark} {s : State} (kp : Keeps Q s) (n id : Nat) :
    Keeps Q (State.onuLeave s n id) := by
  unfold State.onuLeave
  try dsimp only
  repeat' (first
    | (simp +contextual (maxDischargeDepth := 60) [*]; done)
    | split
    | intro _
    | refine State.each_keeps _ _ (fun _ _ _ => ?_) ?_)

@[simp] theorem State.onuFree_keeps {Q : Mark} {s : State} (kp : Keeps Q s) (n id : Nat) :
    Keeps Q (State.onuFree s n id) := by
  unfold State.onuFree
  try dsimp only
  repeat' (first
    | (simp +contextual (maxDischargeDepth := 60) [*]; done)
    | split
    | intro _
    | refine State.each_keeps _ _ (fun _ _ _ => ?_) ?_)

@[simp] theorem State.sendSn_keeps {Q : Mark} {s : State} (kp : Keeps Q s) (n id : Nat) (k : PloamKind) :
    Keeps Q (State.sendSn s n id k) := by
  unfold State.sendSn
  try dsimp only
  repeat' (first
    | (simp +contextual (maxDischargeDepth := 60) [*]; done)
    | split
    | intro _
    | refine State.each_keeps _ _ (fun _ _ _ => ?_) ?_)

@[simp] theorem State.rangingTime_keeps {Q : Mark} {s : State} (kp : Keeps Q s) (n id eqd : Nat) (toOp : Bool) :
    Keeps Q (State.rangingTime s n id eqd toOp) := by
  unfold State.rangingTime
  try dsimp only
  repeat' (first
    | (simp +contextual (maxDischargeDepth := 60) [*]; done)
    | split
    | intro _
    | refine State.each_keeps _ _ (fun _ _ _ => ?_) ?_)

@[simp] theorem State.assign_keeps {Q : Mark} {s : State} (kp : Keeps Q s) (n c id : Nat) (vendor serial : Word) (m : Int) (prof : Nat) (held : Bool) :
    Keeps Q (State.assign s n c id vendor serial m prof held) := by
  unfold State.assign
  try dsimp only
  repeat' (first
    | (simp +contextual (maxDischargeDepth := 60) [*]; done)
    | split
    | intro _
    | refine State.each_keeps _ _ (fun _ _ _ => ?_) ?_)

@[simp] theorem State.admitId_keeps {Q : Mark} {s : State} (kp : Keeps Q s) (n c : Nat) (vendor serial : Word) (m : Int) (prof : Nat) (freed : Option Nat) :
    Keeps Q (State.admitId s n c vendor serial m prof freed) := by
  unfold State.admitId
  try dsimp only
  repeat' (first
    | (simp +contextual (maxDischargeDepth := 60) [*]; done)
    | split
    | intro _
    | refine State.each_keeps _ _ (fun _ _ _ => ?_) ?_)

@[simp] theorem State.admitOnu_keeps {Q : Mark} {s : State} (kp : Keeps Q s) (n c : Nat) (vendor serial : Word) (m : Int) (prof : Nat) :
    Keeps Q (State.admitOnu s n c vendor serial m prof) := by
  unfold State.admitOnu
  try dsimp only
  repeat' (first
    | (simp +contextual (maxDischargeDepth := 60) [*]; done)
    | split
    | intro _
    | refine State.each_keeps _ _ (fun _ _ _ => ?_) ?_)

@[simp] theorem State.discovered_keeps {Q : Mark} {s : State} (kp : Keeps Q s) (n c : Nat) (vendor serial : Word) (m : Int) (prof : Nat) :
    Keeps Q (State.discovered s n c vendor serial m prof) := by
  unfold State.discovered
  try dsimp only
  repeat' (first
    | (simp +contextual (maxDischargeDepth := 60) [*]; done)
    | split
    | intro _
    | refine State.each_keeps _ _ (fun _ _ _ => ?_) ?_)

@[simp] theorem State.rangeMiss_keeps {Q : Mark} {s : State} (kp : Keeps Q s) (n id : Nat) :
    Keeps Q (State.rangeMiss s n id) := by
  unfold State.rangeMiss
  try dsimp only
  repeat' (first
    | (simp +contextual (maxDischargeDepth := 60) [*]; done)
    | split
    | intro _
    | refine State.each_keeps _ _ (fun _ _ _ => ?_) ?_)

@[simp] theorem State.moveTeq_keeps {Q : Mark} {s : State} (kp : Keeps Q s) (n : Nat) (d : Int) :
    Keeps Q (State.moveTeq s n d) := by
  unfold State.moveTeq
  try dsimp only
  repeat' (first
    | (simp +contextual (maxDischargeDepth := 60) [*]; done)
    | split
    | intro _
    | refine State.each_keeps _ _ (fun _ _ _ => ?_) ?_)

@[simp] theorem State.acquired_keeps {Q : Mark} {s : State} (kp : Keeps Q s) (n id : Nat) (rtd : Int) :
    Keeps Q (State.acquired s n id rtd) := by
  unfold State.acquired
  try dsimp only
  repeat' (first
    | (simp +contextual (maxDischargeDepth := 60) [*]; done)
    | split
    | intro _
    | refine State.each_keeps _ _ (fun _ _ _ => ?_) ?_)

@[simp] theorem State.ranged_keeps {Q : Mark} {s : State} (kp : Keeps Q s) (n id : Nat) (rtd : Int) :
    Keeps Q (State.ranged s n id rtd) := by
  unfold State.ranged
  try dsimp only
  repeat' (first
    | (simp +contextual (maxDischargeDepth := 60) [*]; done)
    | split
    | intro _
    | refine State.each_keeps _ _ (fun _ _ _ => ?_) ?_)

@[simp] theorem State.reseedOnu_keeps {Q : Mark} {s : State} (kp : Keeps Q s) (n id : Nat) :
    Keeps Q (State.reseedOnu s n id) := by
  unfold State.reseedOnu
  try dsimp only
  repeat' (first
    | (simp +contextual (maxDischargeDepth := 60) [*]; done)
    | split
    | intro _
    | refine State.each_keeps _ _ (fun _ _ _ => ?_) ?_)

@[simp] theorem State.rangingTaken_keeps {Q : Mark} {s : State} (kp : Keeps Q s) (n id f : Nat) (toOp : Bool) :
    Keeps Q (State.rangingTaken s n id f toOp) := by
  unfold State.rangingTaken
  try dsimp only
  repeat' (first
    | (simp +contextual (maxDischargeDepth := 60) [*]; done)
    | split
    | intro _
    | refine State.each_keeps _ _ (fun _ _ _ => ?_) ?_)

@[simp] theorem State.micKey_keeps {Q : Mark} {s : State} (kp : Keeps Q s) (n id : Nat) :
    Keeps Q (State.micKey s n id).2 := by
  unfold State.micKey
  try dsimp only
  repeat' (first
    | (simp +contextual (maxDischargeDepth := 60) [*]; done)
    | split
    | intro _
    | refine State.each_keeps _ _ (fun _ _ _ => ?_) ?_)

@[simp] theorem State.ploamWrite_keeps {Q : Mark} {s : State} (kp : Keeps Q s) (n : Nat) (m : PloamMsg) :
    Keeps Q (State.ploamWrite s n m).2 := by
  unfold State.ploamWrite
  try dsimp only
  repeat' (first
    | (simp +contextual (maxDischargeDepth := 60) [*]; done)
    | split
    | intro _
    | refine State.each_keeps _ _ (fun _ _ _ => ?_) ?_)

@[simp] theorem State.ploamTakeAll_keeps {Q : Mark} {s : State} (kp : Keeps Q s) (n f : Nat) (z0 : List PloamMsg) :
    Keeps Q (State.ploamTakeAll s n f z0).2 := by
  induction z0 generalizing s with
  | nil => simpa [State.ploamTakeAll] using kp
  | cons m ms ih =>
    simp only [State.ploamTakeAll]
    refine ih ?_
    split <;> simp [*]

@[simp] theorem State.ploamCut_keeps {Q : Mark} {s : State} (kp : Keeps Q s) (j f : Nat) :
    Keeps Q (State.ploamCut s j f) := by
  unfold State.ploamCut
  try dsimp only
  repeat' (first
    | (simp +contextual (maxDischargeDepth := 60) [*]; done)
    | split
    | intro _
    | refine State.each_keeps _ _ (fun _ _ _ => ?_) ?_)

@[simp] theorem State.ploamReturn_keeps {Q : Mark} {s : State} (kp : Keeps Q s) (j : Nat) :
    Keeps Q (State.ploamReturn s j) := by
  unfold State.ploamReturn
  try dsimp only
  repeat' (first
    | (simp +contextual (maxDischargeDepth := 60) [*]; done)
    | split
    | intro _
    | refine State.each_keeps _ _ (fun _ _ _ => ?_) ?_)

@[simp] theorem State.ploamTx_keeps {Q : Mark} {s : State} (kp : Keeps Q s) (v : Word) :
    Keeps Q (State.ploamTx s v) := by
  unfold State.ploamTx
  try dsimp only
  repeat' (first
    | (simp +contextual (maxDischargeDepth := 60) [*]; done)
    | split
    | intro _
    | refine State.each_keeps _ _ (fun _ _ _ => ?_) ?_)

theorem execPloamTxSend_keeps {Q : Mark} {s : State} (kp : Keeps Q s) (val : Word) :
    KeepsO Q (execPloamTxSend val s) := by
  unfold execPloamTxSend
  try dsimp only
  repeat' (first
    | (simp +contextual (maxDischargeDepth := 60) [*]; done)
    | split
    | intro _
    | refine State.each_keeps _ _ (fun _ _ _ => ?_) ?_)

@[simp] theorem State.ploamCopy_keeps {Q : Mark} {s : State} (kp : Keeps Q s) (n c id : Nat) (always : Bool) (data : List Word) :
    Keeps Q (State.ploamCopy s n c id always data) := by
  unfold State.ploamCopy
  try dsimp only
  repeat' (first
    | (simp +contextual (maxDischargeDepth := 60) [*]; done)
    | split
    | intro _
    | refine State.each_keeps _ _ (fun _ _ _ => ?_) ?_)

@[simp] theorem State.upPloam_keeps {Q : Mark} {s : State} (kp : Keeps Q s) (n c id : Nat) (m : UpPloam) (disc : Option (Int × Nat)) :
    Keeps Q (State.upPloam s n c id m disc) := by
  unfold State.upPloam
  try dsimp only
  repeat' (first
    | (simp +contextual (maxDischargeDepth := 60) [*]; done)
    | split
    | intro _
    | refine State.each_keeps _ _ (fun _ _ _ => ?_) ?_)

@[simp] theorem State.burstPloam_keeps {Q : Mark} {s : State} (kp : Keeps Q s) (j f i : Nat) (msg : UpPloam) :
    Keeps Q (State.burstPloam s j f i msg) := by
  unfold State.burstPloam
  try dsimp only
  repeat' (first
    | (simp +contextual (maxDischargeDepth := 60) [*]; done)
    | split
    | intro _
    | refine State.each_keeps _ _ (fun _ _ _ => ?_) ?_)

theorem execUpstreamPloam_keeps {Q : Mark} {s : State} (kp : Keeps Q s) (j : Fin 96) (f i : Nat) (msg : UpPloam) :
    KeepsO Q (execUpstreamPloam j f i msg s) := by
  unfold execUpstreamPloam
  try dsimp only
  repeat' (first
    | (simp +contextual (maxDischargeDepth := 60) [*]; done)
    | split
    | intro _
    | refine State.each_keeps _ _ (fun _ _ _ => ?_) ?_)

@[simp] theorem State.drift_keeps {Q : Mark} {s : State} (kp : Keeps Q s) (n id f : Nat) (p : BurstProf) (off : Int) :
    Keeps Q (State.drift s n id f p off) := by
  unfold State.drift
  try dsimp only
  repeat' (first
    | (simp +contextual (maxDischargeDepth := 60) [*]; done)
    | split
    | intro _
    | refine State.each_keeps _ _ (fun _ _ _ => ?_) ?_)

@[simp] theorem State.offence_keeps {Q : Mark} {s : State} (kp : Keeps Q s) (n id : Nat) :
    Keeps Q (State.offence s n id) := by
  unfold State.offence
  try dsimp only
  repeat' (first
    | (simp +contextual (maxDischargeDepth := 60) [*]; done)
    | split
    | intro _
    | refine State.each_keeps _ _ (fun _ _ _ => ?_) ?_)

@[simp] theorem State.clearOffences_keeps {Q : Mark} {s : State} (kp : Keeps Q s) :
    Keeps Q (State.clearOffences s) := by
  unfold State.clearOffences
  try dsimp only
  repeat' (first
    | (simp +contextual (maxDischargeDepth := 60) [*]; done)
    | split
    | intro _
    | refine State.each_keeps _ _ (fun _ _ _ => ?_) ?_)

@[simp] theorem State.energy_keeps {Q : Mark} {s : State} (kp : Keeps Q s) (j f lo hi : Nat) :
    Keeps Q (State.energy s j f lo hi) := by
  unfold State.energy
  try dsimp only
  repeat' (first
    | (simp +contextual (maxDischargeDepth := 60) [*]; done)
    | split
    | intro _
    | refine State.each_keeps _ _ (fun _ _ _ => ?_) ?_)

theorem execEnergyObservation_keeps {Q : Mark} {s : State} (kp : Keeps Q s) (j : Fin 96) (f lo hi : Nat) :
    KeepsO Q (execEnergyObservation j f lo hi s) := by
  unfold execEnergyObservation
  try dsimp only
  repeat' (first
    | (simp +contextual (maxDischargeDepth := 60) [*]; done)
    | split
    | intro _
    | refine State.each_keeps _ _ (fun _ _ _ => ?_) ?_)

@[simp] theorem State.anonClear_keeps {Q : Mark} {s : State} (kp : Keeps Q s) (j f : Nat) :
    Keeps Q (State.anonClear s j f) := by
  unfold State.anonClear
  try dsimp only
  repeat' (first
    | (simp +contextual (maxDischargeDepth := 60) [*]; done)
    | split
    | intro _
    | refine State.each_keeps _ _ (fun _ _ _ => ?_) ?_)

theorem execRogueAnonClear_keeps {Q : Mark} {s : State} (kp : Keeps Q s) (j : Fin 96) (f : Nat) :
    KeepsO Q (execRogueAnonClear j f s) := by
  unfold execRogueAnonClear
  try dsimp only
  repeat' (first
    | (simp +contextual (maxDischargeDepth := 60) [*]; done)
    | split
    | intro _
    | refine State.each_keeps _ _ (fun _ _ _ => ?_) ?_)

@[simp] theorem State.onuLoss_keeps {Q : Mark} {s : State} (kp : Keeps Q s) (n id : Nat) :
    Keeps Q (State.onuLoss s n id) := by
  unfold State.onuLoss
  try dsimp only
  repeat' (first
    | (simp +contextual (maxDischargeDepth := 60) [*]; done)
    | split
    | intro _
    | refine State.each_keeps _ _ (fun _ _ _ => ?_) ?_)

theorem execOnuLoss_keeps {Q : Mark} {s : State} (kp : Keeps Q s) (n : Fin 48) (onu : Fin 1024) :
    KeepsO Q (execOnuLoss n onu s) := by
  unfold execOnuLoss
  try dsimp only
  repeat' (first
    | (simp +contextual (maxDischargeDepth := 60) [*]; done)
    | split
    | intro _
    | refine State.each_keeps _ _ (fun _ _ _ => ?_) ?_)

@[simp] theorem State.deactivate_keeps {Q : Mark} {s : State} (kp : Keeps Q s) (n id : Nat) :
    Keeps Q (State.deactivate s n id) := by
  unfold State.deactivate
  try dsimp only
  repeat' (first
    | (simp +contextual (maxDischargeDepth := 60) [*]; done)
    | split
    | intro _
    | refine State.each_keeps _ _ (fun _ _ _ => ?_) ?_)

@[simp] theorem State.lostTimer_keeps {Q : Mark} {s : State} (kp : Keeps Q s) (n id : Nat) :
    Keeps Q (State.lostTimer s n id) := by
  unfold State.lostTimer
  try dsimp only
  repeat' (first
    | (simp +contextual (maxDischargeDepth := 60) [*]; done)
    | split
    | intro _
    | refine State.each_keeps _ _ (fun _ _ _ => ?_) ?_)

theorem execOnuDeactivation_keeps {Q : Mark} {s : State} (kp : Keeps Q s) (n : Fin 48) (onu : Fin 1024) (at' : Raw) :
    KeepsO Q (execOnuDeactivation n onu at' s) := by
  unfold execOnuDeactivation
  try dsimp only
  repeat' (first
    | (simp +contextual (maxDischargeDepth := 60) [*]; done)
    | split
    | intro _
    | refine State.each_keeps _ _ (fun _ _ _ => ?_) ?_)

@[simp] theorem State.actCmdWrite_keeps {Q : Mark} {s : State} (kp : Keeps Q s) (v : Word) :
    Keeps Q (State.actCmdWrite s v) := by
  unfold State.actCmdWrite
  try dsimp only
  repeat' (first
    | (simp +contextual (maxDischargeDepth := 60) [*]; done)
    | split
    | intro _
    | refine State.each_keeps _ _ (fun _ _ _ => ?_) ?_)

@[simp] theorem State.seenOf_keeps {Q : Mark} {s : State} (kp : Keeps Q s) (n c : Nat) (vendor serial : Word) :
    Keeps Q (State.seenOf s n c vendor serial).2 := by
  unfold State.seenOf
  try dsimp only
  repeat' (first
    | (simp +contextual (maxDischargeDepth := 60) [*]; done)
    | split
    | intro _
    | refine State.each_keeps _ _ (fun _ _ _ => ?_) ?_)

@[simp] theorem State.cmdEffect_keeps {Q : Mark} {s : State} (kp : Keeps Q s) (op n c id : Nat) (data vendor serial : Word) :
    Keeps Q (State.cmdEffect s op n c id data vendor serial) := by
  unfold State.cmdEffect
  try dsimp only
  repeat' (first
    | (simp +contextual (maxDischargeDepth := 60) [*]; done)
    | split
    | intro _
    | refine State.each_keeps _ _ (fun _ _ _ => ?_) ?_)

@[simp] theorem State.takeCmd_keeps {Q : Mark} {s : State} (kp : Keeps Q s) (op : Nat) :
    Keeps Q (State.takeCmd s op) := by
  unfold State.takeCmd
  try dsimp only
  repeat' (first
    | (simp +contextual (maxDischargeDepth := 60) [*]; done)
    | split
    | intro _
    | refine State.each_keeps _ _ (fun _ _ _ => ?_) ?_)

theorem execAssignId_keeps {Q : Mark} {s : State} (kp : Keeps Q s) :
    KeepsO Q (execAssignId s) := by
  unfold execAssignId
  try dsimp only
  repeat' (first
    | (simp +contextual (maxDischargeDepth := 60) [*]; done)
    | split
    | intro _
    | refine State.each_keeps _ _ (fun _ _ _ => ?_) ?_)

theorem execSetEqd_keeps {Q : Mark} {s : State} (kp : Keeps Q s) :
    KeepsO Q (execSetEqd s) := by
  unfold execSetEqd
  try dsimp only
  repeat' (first
    | (simp +contextual (maxDischargeDepth := 60) [*]; done)
    | split
    | intro _
    | refine State.each_keeps _ _ (fun _ _ _ => ?_) ?_)

theorem execDeactivate_keeps {Q : Mark} {s : State} (kp : Keeps Q s) :
    KeepsO Q (execDeactivate s) := by
  unfold execDeactivate
  try dsimp only
  repeat' (first
    | (simp +contextual (maxDischargeDepth := 60) [*]; done)
    | split
    | intro _
    | refine State.each_keeps _ _ (fun _ _ _ => ?_) ?_)

theorem execDisable_keeps {Q : Mark} {s : State} (kp : Keeps Q s) :
    KeepsO Q (execDisable s) := by
  unfold execDisable
  try dsimp only
  repeat' (first
    | (simp +contextual (maxDischargeDepth := 60) [*]; done)
    | split
    | intro _
    | refine State.each_keeps _ _ (fun _ _ _ => ?_) ?_)

theorem execEnable_keeps {Q : Mark} {s : State} (kp : Keeps Q s) :
    KeepsO Q (execEnable s) := by
  unfold execEnable
  try dsimp only
  repeat' (first
    | (simp +contextual (maxDischargeDepth := 60) [*]; done)
    | split
    | intro _
    | refine State.each_keeps _ _ (fun _ _ _ => ?_) ?_)

theorem execRangeCmd_keeps {Q : Mark} {s : State} (kp : Keeps Q s) :
    KeepsO Q (execRangeCmd s) := by
  unfold execRangeCmd
  try dsimp only
  repeat' (first
    | (simp +contextual (maxDischargeDepth := 60) [*]; done)
    | split
    | intro _
    | refine State.each_keeps _ _ (fun _ _ _ => ?_) ?_)

@[simp] theorem State.snCmd_keeps {Q : Mark} {s : State} (kp : Keeps Q s) (v : Word) :
    Keeps Q (State.snCmd s v) := by
  unfold State.snCmd
  try dsimp only
  repeat' (first
    | (simp +contextual (maxDischargeDepth := 60) [*]; done)
    | split
    | intro _
    | refine State.each_keeps _ _ (fun _ _ _ => ?_) ?_)

theorem execSntabWrite_keeps {Q : Mark} {s : State} (kp : Keeps Q s) (val : Word) :
    KeepsO Q (execSntabWrite val s) := by
  unfold execSntabWrite
  try dsimp only
  repeat' (first
    | (simp +contextual (maxDischargeDepth := 60) [*]; done)
    | split
    | intro _
    | refine State.each_keeps _ _ (fun _ _ _ => ?_) ?_)

theorem execSntabRead_keeps {Q : Mark} {s : State} (kp : Keeps Q s) (val : Word) :
    KeepsO Q (execSntabRead val s) := by
  unfold execSntabRead
  try dsimp only
  repeat' (first
    | (simp +contextual (maxDischargeDepth := 60) [*]; done)
    | split
    | intro _
    | refine State.each_keeps _ _ (fun _ _ _ => ?_) ?_)

@[simp] theorem State.personalityFree_keeps {Q : Mark} {s : State} (kp : Keeps Q s) (n : Nat) :
    Keeps Q (State.personalityFree s n) := by
  unfold State.personalityFree
  try dsimp only
  repeat' (first
    | (simp +contextual (maxDischargeDepth := 60) [*]; done)
    | split
    | intro _
    | refine State.each_keeps _ _ (fun _ _ _ => ?_) ?_)

end Sys2Proof.Machine
end

