-- ==== Sys2Proof/Laws/KeepReckoner.lean ====
section
/-!
SUPPORT. Laws/KeepReckoner.lean: the operations of Machine/Reckoner.lean keep what Laws/Keep.lean lists.
-/
set_option linter.unreachableTactic false
set_option linter.unusedTactic false
set_option linter.unusedSimpArgs false
set_option linter.unusedVariables false

namespace Sys2Proof.Machine

@[simp] theorem State.setAlloc_keeps {Q : Mark} {s : State} (kp : Keeps Q s) (n i : Nat) (x : AllocCtx) :
    Keeps Q (State.setAlloc s n i x) := by
  unfold State.setAlloc
  try dsimp only
  repeat' (first
    | (simp +contextual (maxDischargeDepth := 60) [*]; done)
    | split
    | intro _
    | refine State.each_keeps _ _ (fun _ _ _ => ?_) ?_)

@[simp] theorem State.allocSelWrite_keeps {Q : Mark} {s : State} (kp : Keeps Q s) (v : Word) :
    Keeps Q (State.allocSelWrite s v) := by
  unfold State.allocSelWrite
  try dsimp only
  repeat' (first
    | (simp +contextual (maxDischargeDepth := 60) [*]; done)
    | split
    | intro _
    | refine State.each_keeps _ _ (fun _ _ _ => ?_) ?_)

theorem execAllocWrite_keeps {Q : Mark} {s : State} (kp : Keeps Q s) (val : Word) :
    KeepsO Q (execAllocWrite val s) := by
  unfold execAllocWrite
  try dsimp only
  repeat' (first
    | (simp +contextual (maxDischargeDepth := 60) [*]; done)
    | split
    | intro _
    | refine State.each_keeps _ _ (fun _ _ _ => ?_) ?_)

theorem execAllocRead_keeps {Q : Mark} {s : State} (kp : Keeps Q s) (val : Word) :
    KeepsO Q (execAllocRead val s) := by
  unfold execAllocRead
  try dsimp only
  repeat' (first
    | (simp +contextual (maxDischargeDepth := 60) [*]; done)
    | split
    | intro _
    | refine State.each_keeps _ _ (fun _ _ _ => ?_) ?_)

@[simp] theorem State.dbruReport_keeps {Q : Mark} {s : State} (kp : Keeps Q s) (j f i k : Nat) (good : Bool) (bytes : Nat) :
    Keeps Q (State.dbruReport s j f i k good bytes) := by
  unfold State.dbruReport
  try dsimp only
  repeat' (first
    | (simp +contextual (maxDischargeDepth := 60) [*]; done)
    | split
    | intro _
    | refine State.each_keeps _ _ (fun _ _ _ => ?_) ?_)

theorem execDbruReport_keeps {Q : Mark} {s : State} (kp : Keeps Q s) (j : Fin 96) (f i k : Nat) (good : Bool) (bytes : Nat) :
    KeepsO Q (execDbruReport j f i k good bytes s) := by
  unfold execDbruReport
  try dsimp only
  repeat' (first
    | (simp +contextual (maxDischargeDepth := 60) [*]; done)
    | split
    | intro _
    | refine State.each_keeps _ _ (fun _ _ _ => ?_) ?_)

@[simp] theorem State.dropBookings_keeps {Q : Mark} {s : State} (kp : Keeps Q s) (key : Nat) :
    Keeps Q (State.dropBookings s key) := by
  unfold State.dropBookings
  try dsimp only
  repeat' (first
    | (simp +contextual (maxDischargeDepth := 60) [*]; done)
    | split
    | intro _
    | refine State.each_keeps _ _ (fun _ _ _ => ?_) ?_
    | refine Keeps.foldl _ _ (fun _ _ _ => ?_) ?_)

@[simp] theorem State.ctxStart_keeps {Q : Mark} {s : State} (kp : Keeps Q s) (n i f : Nat) :
    Keeps Q (State.ctxStart s n i f) := by
  unfold State.ctxStart
  try dsimp only
  repeat' (first
    | (simp +contextual (maxDischargeDepth := 60) [*]; done)
    | split
    | intro _
    | refine State.each_keeps _ _ (fun _ _ _ => ?_) ?_)

@[simp] theorem State.noteGrant_keeps {Q : Mark} {s : State} (kp : Keeps Q s) (n f : Nat) (g : Grant) :
    Keeps Q (State.noteGrant s n f g) := by
  unfold State.noteGrant
  try dsimp only
  repeat' (first
    | (simp +contextual (maxDischargeDepth := 60) [*]; done)
    | split
    | intro _
    | refine State.each_keeps _ _ (fun _ _ _ => ?_) ?_)

@[simp] theorem State.mapMade_keeps {Q : Mark} {s : State} (kp : Keeps Q s) (j f : Nat) (z : Sizing) (pl : Placing) (lost : Nat) :
    Keeps Q (State.mapMade s j f z pl lost) := by
  unfold State.mapMade
  extract_lets bs s1 s2 s3
  have k1 : Keeps Q s1 := Keeps.foldl _ _ (fun _ _ h => State.setAlloc_keeps h _ _ _) kp
  have k2 : Keeps Q s2 := Keeps.foldl _ _ (fun _ _ h => State.noteGrant_keeps h _ _ _) k1
  have k3 : Keeps Q s3 := State.setMaps_keeps k2 _ _
  clear_value s3
  simp (maxDischargeDepth := 60) [k3]

@[simp] theorem State.dropPieces_keeps {Q : Mark} {s : State} (kp : Keeps Q s) (n f : Nat) :
    Keeps Q (State.dropPieces s n f) := by
  unfold State.dropPieces
  try dsimp only
  repeat' (first
    | (simp +contextual (maxDischargeDepth := 60) [*]; done)
    | split
    | intro _
    | refine State.each_keeps _ _ (fun _ _ _ => ?_) ?_)

@[simp] theorem State.computePort_keeps {Q : Mark} {s : State} (kp : Keeps Q s) (f n : Nat) :
    Keeps Q (State.computePort s f n) := by
  unfold State.computePort
  extract_lets s1 sp z0 q0 lost ptr q placed s2
  have k1 : Keeps Q s1 := State.each_keeps _ _ (fun _ _ h => State.ctxStart_keeps h _ _ _) kp
  have k2 : Keeps Q s2 := Keeps.foldl _ _ (fun _ _ h => State.mapMade_keeps h _ _ _ _ _) k1
  exact State.dropPieces_keeps k2 _ _

@[simp] theorem State.mapStart_keeps {Q : Mark} {s : State} (kp : Keeps Q s) :
    Keeps Q (State.mapStart s) := by
  unfold State.mapStart
  try dsimp only
  repeat' (first
    | (simp +contextual (maxDischargeDepth := 60) [*]; done)
    | split
    | intro _
    | refine State.each_keeps _ _ (fun _ _ _ => ?_) ?_)

@[simp] theorem State.mapComplete_keeps {Q : Mark} {s : State} (kp : Keeps Q s) (j : Nat) :
    Keeps Q (State.mapComplete s j) := by
  unfold State.mapComplete
  try dsimp only
  repeat' (first
    | (simp +contextual (maxDischargeDepth := 60) [*]; done)
    | split
    | intro _
    | refine State.each_keeps _ _ (fun _ _ _ => ?_) ?_)

theorem execMapComputationComplete_keeps {Q : Mark} {s : State} (kp : Keeps Q s) (j : Fin 96) :
    KeepsO Q (execMapComputationComplete j s) := by
  unfold execMapComputationComplete
  try dsimp only
  repeat' (first
    | (simp +contextual (maxDischargeDepth := 60) [*]; done)
    | split
    | intro _
    | refine State.each_keeps _ _ (fun _ _ _ => ?_) ?_)

@[simp] theorem State.dbaCommitWrite_keeps {Q : Mark} {s : State} (kp : Keeps Q s) (v : Word) :
    Keeps Q (State.dbaCommitWrite s v) := by
  unfold State.dbaCommitWrite
  try dsimp only
  repeat' (first
    | (simp +contextual (maxDischargeDepth := 60) [*]; done)
    | split
    | intro _
    | refine State.each_keeps _ _ (fun _ _ _ => ?_) ?_)

theorem execDbaCommitGo_keeps {Q : Mark} {s : State} (kp : Keeps Q s) (val : Word) :
    KeepsO Q (execDbaCommitGo val s) := by
  unfold execDbaCommitGo
  try dsimp only
  repeat' (first
    | (simp +contextual (maxDischargeDepth := 60) [*]; done)
    | split
    | intro _
    | refine State.each_keeps _ _ (fun _ _ _ => ?_) ?_)

@[simp] theorem State.book_keeps {Q : Mark} {s : State} (kp : Keeps Q s) (n a t vol spread train : Nat) :
    Keeps Q (State.book s n a t vol spread train).2 := by
  unfold State.book
  extract_lets x
  split
  · exact State.bump_keeps kp _
  · rename_i fb late f0 s1 p j tr r res src s2 hh
    split
    · exact State.bump_keeps kp _
    · split
      · exact State.bump_keeps kp _
      ·
        have k1 : Keeps Q s1 := by
          simp only [s1]; split
          · exact State.bump_keeps kp _
          · exact kp
        have k2 : Keeps Q s2 := by
          clear_value s1
          simp only [s2]; split
          · exact k1
          · exact And.intro k1.1 k1.2
        clear_value s2 res
        split
        · exact State.bump_keeps k2 _
        · exact k2

@[simp] theorem State.bookTake_keeps {Q : Mark} {s : State} (kp : Keeps Q s) :
    Keeps Q (State.bookTake s) := by
  unfold State.bookTake
  try dsimp only
  repeat' (first
    | (simp +contextual (maxDischargeDepth := 60) [*]; done)
    | split
    | intro _
    | refine State.each_keeps _ _ (fun _ _ _ => ?_) ?_)

@[simp] theorem State.bookSettle_keeps {Q : Mark} {s : State} (kp : Keeps Q s) :
    Keeps Q (State.bookSettle s) := by
  unfold State.bookSettle
  try dsimp only
  repeat' (first
    | (simp +contextual (maxDischargeDepth := 60) [*]; done)
    | split
    | intro _
    | refine State.each_keeps _ _ (fun _ _ _ => ?_) ?_)

@[simp] theorem State.bookCmdWrite_keeps {Q : Mark} {s : State} (kp : Keeps Q s) (v : Word) :
    Keeps Q (State.bookCmdWrite s v) := by
  unfold State.bookCmdWrite
  try dsimp only
  repeat' (first
    | (simp +contextual (maxDischargeDepth := 60) [*]; done)
    | split
    | intro _
    | refine State.each_keeps _ _ (fun _ _ _ => ?_) ?_)

@[simp] theorem State.idleTick_keeps {Q : Mark} {s : State} (kp : Keeps Q s) :
    Keeps Q (State.idleTick s) := by
  unfold State.idleTick
  try dsimp only
  repeat' (first
    | (simp +contextual (maxDischargeDepth := 60) [*]; done)
    | split
    | intro _
    | refine State.each_keeps _ _ (fun _ _ _ => ?_) ?_)

@[simp] theorem State.mapWithout_keeps {Q : Mark} {s : State} (kp : Keeps Q s) (bad : List Nat) :
    Keeps Q (State.mapWithout s bad) := by
  unfold State.mapWithout
  try dsimp only
  repeat' (first
    | (simp +contextual (maxDischargeDepth := 60) [*]; done)
    | split
    | intro _
    | refine State.each_keeps _ _ (fun _ _ _ => ?_) ?_)

theorem execMapComputationStart_keeps {Q : Mark} {s : State} (kp : Keeps Q s) (at' : Raw) (bad : List Nat) :
    KeepsO Q (execMapComputationStart at' bad s) := by
  unfold execMapComputationStart
  try dsimp only
  repeat' (first
    | (simp +contextual (maxDischargeDepth := 60) [*]; done)
    | split
    | intro _
    | refine State.each_keeps _ _ (fun _ _ _ => ?_) ?_)

theorem execBookingGo_keeps {Q : Mark} {s : State} (kp : Keeps Q s) (val : Word) :
    KeepsO Q (execBookingGo val s) := by
  unfold execBookingGo
  try dsimp only
  repeat' (first
    | (simp +contextual (maxDischargeDepth := 60) [*]; done)
    | split
    | intro _
    | refine State.each_keeps _ _ (fun _ _ _ => ?_) ?_)

@[simp] theorem State.ctiReport_keeps {Q : Mark} {s : State} (kp : Keeps Q s) (rep : Option CtiReport) :
    Keeps Q (State.ctiReport s rep) := by
  unfold State.ctiReport
  try dsimp only
  repeat' (first
    | (simp +contextual (maxDischargeDepth := 60) [*]; done)
    | split
    | intro _
    | refine State.each_keeps _ _ (fun _ _ _ => ?_) ?_
    | refine Keeps.foldl _ _ (fun _ _ _ => ?_) ?_)

theorem execCtiReport_keeps {Q : Mark} {s : State} (kp : Keeps Q s) (rep : Option CtiReport) :
    KeepsO Q (execCtiReport rep s) := by
  unfold execCtiReport
  try dsimp only
  repeat' (first
    | (simp +contextual (maxDischargeDepth := 60) [*]; done)
    | split
    | intro _
    | refine State.each_keeps _ _ (fun _ _ _ => ?_) ?_)

end Sys2Proof.Machine
end

