-- ==== Sys2Proof/Laws/KeepXgem.lean ====
section
/-!
SUPPORT. Laws/KeepXgem.lean: the operations of Machine/Xgem.lean keep what Laws/Keep.lean lists.
-/
set_option linter.unreachableTactic false
set_option linter.unusedTactic false
set_option linter.unusedSimpArgs false
set_option linter.unusedVariables false

namespace Sys2Proof.Machine

@[simp] theorem State.dsStamp_keeps {Q : Mark} {s : State} (kp : Keeps Q s) (j : Nat) (f : Stored) :
    Keeps Q (State.dsStamp s j f) := by
  unfold State.dsStamp
  try dsimp only
  repeat' (first
    | (simp +contextual (maxDischargeDepth := 60) [*]; done)
    | split
    | intro _
    | refine State.each_keeps _ _ (fun _ _ _ => ?_) ?_)

@[simp] theorem State.dsXgem_keeps {Q : Mark} {s : State} (kp : Keeps Q s) (j pid i : Nat) (k : Option (BitVec 128)) (lf : Bool) (bs : List Byte) (len : Nat) :
    Keeps Q (State.dsXgem s j pid i k lf bs len) := by
  unfold State.dsXgem
  try dsimp only
  repeat' (first
    | (simp +contextual (maxDischargeDepth := 60) [*]; done)
    | split
    | intro _
    | refine State.each_keeps _ _ (fun _ _ _ => ?_) ?_)

@[simp] theorem State.dsPlace_keeps {Q : Mark} {s : State} (kp : Keeps Q s) (j eq : Nat) (f : Stored) (e : CtxErr) :
    Keeps Q (State.dsPlace s j eq f e) := by
  unfold State.dsPlace
  try dsimp only
  repeat' (first
    | (simp +contextual (maxDischargeDepth := 60) [*]; done)
    | split
    | intro _
    | refine State.each_keeps _ _ (fun _ _ _ => ?_) ?_)

@[simp] theorem State.ponRelease_keeps {Q : Mark} {s : State} (kp : Keeps Q s) (j space : Nat) (qBad : Bool) (e : CtxErr) :
    Keeps Q (State.ponRelease s j space qBad e) := by
  unfold State.ponRelease
  try dsimp only
  repeat' (first
    | (simp +contextual (maxDischargeDepth := 60) [*]; done)
    | split
    | intro _
    | refine State.each_keeps _ _ (fun _ _ _ => ?_) ?_)

@[simp] theorem State.ctxErr_keeps {Q : Mark} {s : State} (kp : Keeps Q s) (n : Fin 3) :
    Keeps Q (State.ctxErr s n).2 := by
  unfold State.ctxErr
  try dsimp only
  repeat' (first
    | (simp +contextual (maxDischargeDepth := 60) [*]; done)
    | split
    | intro _
    | refine State.each_keeps _ _ (fun _ _ _ => ?_) ?_)

theorem execPonSelection_keeps {Q : Mark} {s : State} (kp : Keeps Q s) (ch : Fin 96) (space : Nat) (errs : List (Nat × Nat)) (qBad : Bool) (ctxBad : Fin 3) :
    KeepsO Q (execPonSelection ch space errs qBad ctxBad s) := by
  unfold execPonSelection
  try dsimp only
  repeat' (first
    | (simp +contextual (maxDischargeDepth := 60) [*]; done)
    | split
    | intro _
    | refine State.each_keeps _ _ (fun _ _ _ => ?_) ?_)

@[simp] theorem State.restSend_keeps {Q : Mark} {s : State} (kp : Keeps Q s) (j : Nat) :
    Keeps Q (State.restSend s j) := by
  unfold State.restSend
  try dsimp only
  repeat' (first
    | (simp +contextual (maxDischargeDepth := 60) [*]; done)
    | split
    | intro _
    | refine State.each_keeps _ _ (fun _ _ _ => ?_) ?_)

@[simp] theorem State.usDelivered_keeps {Q : Mark} {s : State} (kp : Keeps Q s) (u : UpAt) (bytes : Nat) :
    Keeps Q (State.usDelivered s u bytes) := by
  unfold State.usDelivered
  try dsimp only
  repeat' (first
    | (simp +contextual (maxDischargeDepth := 60) [*]; done)
    | split
    | intro _
    | refine State.each_keeps _ _ (fun _ _ _ => ?_) ?_)

@[simp] theorem State.usHecErr_keeps {Q : Mark} {s : State} (kp : Keeps Q s) (u : UpAt) :
    Keeps Q (State.usHecErr s u) := by
  unfold State.usHecErr
  try dsimp only
  repeat' (first
    | (simp +contextual (maxDischargeDepth := 60) [*]; done)
    | split
    | intro _
    | refine State.each_keeps _ _ (fun _ _ _ => ?_) ?_)

@[simp] theorem State.usSpoof_keeps {Q : Mark} {s : State} (kp : Keeps Q s) (u : UpAt) (pid : Nat) :
    Keeps Q (State.usSpoof s u pid) := by
  unfold State.usSpoof
  try dsimp only
  repeat' (first
    | (simp +contextual (maxDischargeDepth := 60) [*]; done)
    | split
    | intro _
    | refine State.each_keeps _ _ (fun _ _ _ => ?_) ?_)

@[simp] theorem State.usComplete_keeps {Q : Mark} {s : State} (kp : Keeps Q s) (j pid onu alloc : Nat) (st : Stamp) (bs : List Byte) (full : Bool) :
    Keeps Q (State.usComplete s j pid onu alloc st bs full) := by
  unfold State.usComplete
  try dsimp only
  repeat' (first
    | (simp +contextual (maxDischargeDepth := 60) [*]; done)
    | split
    | intro _
    | refine State.each_keeps _ _ (fun _ _ _ => ?_) ?_)

@[simp] theorem State.usDiscard_keeps {Q : Mark} {s : State} (kp : Keeps Q s) (n pid : Nat) (lf : Bool) :
    Keeps Q (State.usDiscard s n pid lf) := by
  unfold State.usDiscard
  try dsimp only
  repeat' (first
    | (simp +contextual (maxDischargeDepth := 60) [*]; done)
    | split
    | intro _
    | refine State.each_keeps _ _ (fun _ _ _ => ?_) ?_)

@[simp] theorem State.usReasm_keeps {Q : Mark} {s : State} (kp : Keeps Q s) (u : UpAt) (x : UpXgem) (full : Bool) :
    Keeps Q (State.usReasm s u x full) := by
  unfold State.usReasm
  try dsimp only
  repeat' (first
    | (simp +contextual (maxDischargeDepth := 60) [*]; done)
    | split
    | intro _
    | refine State.each_keeps _ _ (fun _ _ _ => ?_) ?_)

@[simp] theorem State.usErrored_keeps {Q : Mark} {s : State} (kp : Keeps Q s) (u : UpAt) (x : UpXgem) :
    Keeps Q (State.usErrored s u x) := by
  unfold State.usErrored
  try dsimp only
  repeat' (first
    | (simp +contextual (maxDischargeDepth := 60) [*]; done)
    | split
    | intro _
    | refine State.each_keeps _ _ (fun _ _ _ => ?_) ?_)

@[simp] theorem State.upXgem_keeps {Q : Mark} {s : State} (kp : Keeps Q s) (u : UpAt) (x : UpXgem) (full : Bool) (e : CtxErr) :
    Keeps Q (State.upXgem s u x full e) := by
  unfold State.upXgem
  try dsimp only
  repeat' (first
    | (simp +contextual (maxDischargeDepth := 60) [*]; done)
    | split
    | intro _
    | refine State.each_keeps _ _ (fun _ _ _ => ?_) ?_)

@[simp] theorem State.upXgemAt_keeps {Q : Mark} {s : State} (kp : Keeps Q s) (j f i k : Nat) (x : UpXgem) (full : Bool) (e : CtxErr) :
    Keeps Q (State.upXgemAt s j f i k x full e) := by
  unfold State.upXgemAt
  try dsimp only
  repeat' (first
    | (simp +contextual (maxDischargeDepth := 60) [*]; done)
    | split
    | intro _
    | refine State.each_keeps _ _ (fun _ _ _ => ?_) ?_)

theorem execUpstreamXgemFrame_keeps {Q : Mark} {s : State} (kp : Keeps Q s) (j : Fin 96) (f i k : Nat) (x : UpXgem) (full : Bool) (ctxBad : Fin 3) :
    KeepsO Q (execUpstreamXgemFrame j f i k x full ctxBad s) := by
  unfold execUpstreamXgemFrame
  try dsimp only
  repeat' (first
    | (simp +contextual (maxDischargeDepth := 60) [*]; done)
    | split
    | intro _
    | refine State.each_keeps _ _ (fun _ _ _ => ?_) ?_)

@[simp] theorem State.xReasmTimeout_keeps {Q : Mark} {s : State} (kp : Keeps Q s) (n pid : Nat) :
    Keeps Q (State.xReasmTimeout s n pid) := by
  unfold State.xReasmTimeout
  try dsimp only
  repeat' (first
    | (simp +contextual (maxDischargeDepth := 60) [*]; done)
    | split
    | intro _
    | refine State.each_keeps _ _ (fun _ _ _ => ?_) ?_)

theorem execReassemblyTimeout_keeps {Q : Mark} {s : State} (kp : Keeps Q s) (n : Fin 48) (pid : Fin 8192) (at' : Raw) :
    KeepsO Q (execReassemblyTimeout n pid at' s) := by
  unfold execReassemblyTimeout
  try dsimp only
  repeat' (first
    | (simp +contextual (maxDischargeDepth := 60) [*]; done)
    | split
    | intro _
    | refine State.each_keeps _ _ (fun _ _ _ => ?_) ?_)

@[simp] theorem State.wipeKeys_keeps {Q : Mark} {s : State} (kp : Keeps Q s) :
    Keeps Q (State.wipeKeys s) := by
  unfold State.wipeKeys
  try dsimp only
  repeat' (first
    | (simp +contextual (maxDischargeDepth := 60) [*]; done)
    | split
    | intro _
    | refine State.each_keeps _ _ (fun _ _ _ => ?_) ?_)

end Sys2Proof.Machine
end

