-- ==== Sys2Proof/Laws/KeepPonLine.lean ====
section
/-!
SUPPORT. Laws/KeepPonLine.lean: the operations of Machine/PonLine.lean keep what Laws/Keep.lean lists.
-/
set_option linter.unreachableTactic false
set_option linter.unusedTactic false
set_option linter.unusedSimpArgs false
set_option linter.unusedVariables false

namespace Sys2Proof.Machine

@[simp] theorem State.frameTimer_keeps {Q : Mark} {s : State} (kp : Keeps Q s) (t : Raw) (tx : Bool) :
    Keeps Q (State.frameTimer s t tx) := by
  unfold State.frameTimer
  try dsimp only
  repeat' (first
    | (simp +contextual (maxDischargeDepth := 60) [*]; done)
    | split
    | intro _
    | refine State.each_keeps _ _ (fun _ _ _ => ?_) ?_)

@[simp] theorem State.unsentMap_keeps {Q : Mark} {s : State} (kp : Keeps Q s) (j : Nat) :
    Keeps Q (State.unsentMap s j) := by
  unfold State.unsentMap
  try dsimp only
  repeat' (first
    | (simp +contextual (maxDischargeDepth := 60) [*]; done)
    | split
    | intro _
    | refine State.each_keeps _ _ (fun _ _ _ => ?_) ?_)

@[simp] theorem State.chStop_keeps {Q : Mark} {s : State} (kp : Keeps Q s) (j : Nat) :
    Keeps Q (State.chStop s j) := by
  unfold State.chStop
  try dsimp only
  repeat' (first
    | (simp +contextual (maxDischargeDepth := 60) [*]; done)
    | split
    | intro _
    | refine State.each_keeps _ _ (fun _ _ _ => ?_) ?_)

@[simp] theorem State.txStop_keeps {Q : Mark} {s : State} (kp : Keeps Q s) (n : Nat) :
    Keeps Q (State.txStop s n) := by
  unfold State.txStop
  try dsimp only
  repeat' (first
    | (simp +contextual (maxDischargeDepth := 60) [*]; done)
    | split
    | intro _
    | refine State.each_keeps _ _ (fun _ _ _ => ?_) ?_)

@[simp] theorem State.txFall_keeps {Q : Mark} {s : State} (kp : Keeps Q s) (n f : Nat) :
    Keeps Q (State.txFall s n f) := by
  unfold State.txFall
  try dsimp only
  repeat' (first
    | (simp +contextual (maxDischargeDepth := 60) [*]; done)
    | split
    | intro _
    | refine State.each_keeps _ _ (fun _ _ _ => ?_) ?_)

@[simp] theorem State.txBoundary_keeps {Q : Mark} {s : State} (kp : Keeps Q s) (n f : Nat) :
    Keeps Q (State.txBoundary s n f) := by
  unfold State.txBoundary
  try dsimp only
  repeat' (first
    | (simp +contextual (maxDischargeDepth := 60) [*]; done)
    | split
    | intro _
    | refine State.each_keeps _ _ (fun _ _ _ => ?_) ?_)

@[simp] theorem State.settlingEnd_keeps {Q : Mark} {s : State} (kp : Keeps Q s) (n : Nat) :
    Keeps Q (State.settlingEnd s n) := by
  unfold State.settlingEnd
  try dsimp only
  repeat' (first
    | (simp +contextual (maxDischargeDepth := 60) [*]; done)
    | split
    | intro _
    | refine State.each_keeps _ _ (fun _ _ _ => ?_) ?_)

theorem execSettlingEnd_keeps {Q : Mark} {s : State} (kp : Keeps Q s) (n : Fin 48) :
    KeepsO Q (execSettlingEnd n s) := by
  unfold execSettlingEnd
  try dsimp only
  repeat' (first
    | (simp +contextual (maxDischargeDepth := 60) [*]; done)
    | split
    | intro _
    | refine State.each_keeps _ _ (fun _ _ _ => ?_) ?_)

@[simp] theorem State.rangingBegin_keeps {Q : Mark} {s : State} (kp : Keeps Q s) (n : Nat) (bs : List Burst) :
    Keeps Q (State.rangingBegin s n bs) := by
  unfold State.rangingBegin
  try dsimp only
  repeat' (first
    | (simp +contextual (maxDischargeDepth := 60) [*]; done)
    | split
    | intro _
    | refine State.each_keeps _ _ (fun _ _ _ => ?_) ?_)

@[simp] theorem State.frameSend_keeps {Q : Mark} {s : State} (kp : Keeps Q s) (j f : Nat) :
    Keeps Q (State.frameSend s j f) := by
  unfold State.frameSend
  try dsimp only
  repeat' (first
    | (simp +contextual (maxDischargeDepth := 60) [*]; done)
    | split
    | intro _
    | refine State.each_keeps _ _ (fun _ _ _ => ?_) ?_)

@[simp] theorem State.guideSync_keeps {Q : Mark} {s : State} (kp : Keeps Q s) (f : Nat) :
    Keeps Q (State.guideSync s f) := by
  unfold State.guideSync
  try dsimp only
  repeat' (first
    | (simp +contextual (maxDischargeDepth := 60) [*]; done)
    | split
    | intro _
    | refine State.each_keeps _ _ (fun _ _ _ => ?_) ?_)

@[simp] theorem State.frameBoundary_keeps {Q : Mark} {s : State} (kp : Keeps Q s) (t : Raw) :
    Keeps Q (State.frameBoundary s t) := by
  unfold State.frameBoundary
  try dsimp only
  repeat' (first
    | (simp +contextual (maxDischargeDepth := 60) [*]; done)
    | split
    | intro _
    | refine State.each_keeps _ _ (fun _ _ _ => ?_) ?_)

theorem execPonFrameBoundary_keeps {Q : Mark} {s : State} (kp : Keeps Q s) (at' : Raw) :
    KeepsO Q (execPonFrameBoundary at' s) := by
  unfold execPonFrameBoundary
  try dsimp only
  repeat' (first
    | (simp +contextual (maxDischargeDepth := 60) [*]; done)
    | split
    | intro _
    | refine State.each_keeps _ _ (fun _ _ _ => ?_) ?_)

@[simp] theorem State.safeGraceEnd_keeps {Q : Mark} {s : State} (kp : Keeps Q s) :
    Keeps Q (State.safeGraceEnd s) := by
  unfold State.safeGraceEnd
  try dsimp only
  repeat' (first
    | (simp +contextual (maxDischargeDepth := 60) [*]; done)
    | split
    | intro _
    | refine State.each_keeps _ _ (fun _ _ _ => ?_) ?_)

@[simp] theorem State.rangingAgain_keeps {Q : Mark} {s : State} (kp : Keeps Q s) (j f : Nat) (sent : List Burst) :
    Keeps Q (State.rangingAgain s j f sent) := by
  unfold State.rangingAgain
  try dsimp only
  repeat' (first
    | (simp +contextual (maxDischargeDepth := 60) [*]; done)
    | split
    | intro _
    | refine State.each_keeps _ _ (fun _ _ _ => ?_) ?_)

@[simp] theorem State.sendMapCopy_keeps {Q : Mark} {s : State} (kp : Keeps Q s) (j f : Nat) (bs : List Burst) :
    Keeps Q (State.sendMapCopy s j f bs) := by
  unfold State.sendMapCopy
  try dsimp only
  repeat' (first
    | (simp +contextual (maxDischargeDepth := 60) [*]; done)
    | split
    | intro _
    | refine State.each_keeps _ _ (fun _ _ _ => ?_) ?_)

@[simp] theorem State.takeMap_keeps {Q : Mark} {s : State} (kp : Keeps Q s) (j f : Nat) (bs : List Burst) :
    Keeps Q (State.takeMap s j f bs) := by
  unfold State.takeMap
  try dsimp only
  repeat' (first
    | (simp +contextual (maxDischargeDepth := 60) [*]; done)
    | split
    | intro _
    | refine State.each_keeps _ _ (fun _ _ _ => ?_) ?_)

@[simp] theorem State.channelCut_keeps {Q : Mark} {s : State} (kp : Keeps Q s) (j f : Nat) :
    Keeps Q (State.channelCut s j f) := by
  unfold State.channelCut
  try dsimp only
  repeat' (first
    | (simp +contextual (maxDischargeDepth := 60) [*]; done)
    | split
    | intro _
    | refine State.each_keeps _ _ (fun _ _ _ => ?_) ?_)

@[simp] theorem State.mapCutoff_keeps {Q : Mark} {s : State} (kp : Keeps Q s) :
    Keeps Q (State.mapCutoff s) := by
  unfold State.mapCutoff
  try dsimp only
  repeat' (first
    | (simp +contextual (maxDischargeDepth := 60) [*]; done)
    | split
    | intro _
    | refine State.each_keeps _ _ (fun _ _ _ => ?_) ?_)

theorem execMapCutoff_keeps {Q : Mark} {s : State} (kp : Keeps Q s) (at' : Raw) :
    KeepsO Q (execMapCutoff at' s) := by
  unfold execMapCutoff
  try dsimp only
  repeat' (first
    | (simp +contextual (maxDischargeDepth := 60) [*]; done)
    | split
    | intro _
    | refine State.each_keeps _ _ (fun _ _ _ => ?_) ?_)

theorem execPonRealign_keeps {Q : Mark} {s : State} (kp : Keeps Q s) (val : Word) :
    KeepsO Q (execPonRealign val s) := by
  unfold execPonRealign
  try dsimp only
  repeat' (first
    | (simp +contextual (maxDischargeDepth := 60) [*]; done)
    | split
    | intro _
    | refine State.each_keeps _ _ (fun _ _ _ => ?_) ?_)

@[simp] theorem State.onuFrame_keeps {Q : Mark} {s : State} (kp : Keeps Q s) (n f : Nat) (bs : List Burst) (id : Nat) :
    Keeps Q (State.onuFrame s n f bs id) := by
  unfold State.onuFrame
  try dsimp only
  repeat' (first
    | (simp +contextual (maxDischargeDepth := 60) [*]; done)
    | split
    | intro _
    | refine State.each_keeps _ _ (fun _ _ _ => ?_) ?_)

@[simp] theorem State.frameResolve_keeps {Q : Mark} {s : State} (kp : Keeps Q s) (n f : Nat) :
    Keeps Q (State.frameResolve s n f) := by
  unfold State.frameResolve
  try dsimp only
  repeat' (first
    | (simp +contextual (maxDischargeDepth := 60) [*]; done)
    | split
    | intro _
    | refine State.each_keeps _ _ (fun _ _ _ => ?_) ?_)

@[simp] theorem State.lossOfSignal_keeps {Q : Mark} {s : State} (kp : Keeps Q s) (n : Nat) :
    Keeps Q (State.lossOfSignal s n) := by
  unfold State.lossOfSignal
  try dsimp only
  repeat' (first
    | (simp +contextual (maxDischargeDepth := 60) [*]; done)
    | split
    | intro _
    | refine State.each_keeps _ _ (fun _ _ _ => ?_) ?_)

theorem execLossOfSignal_keeps {Q : Mark} {s : State} (kp : Keeps Q s) (n : Fin 48) :
    KeepsO Q (execLossOfSignal n s) := by
  unfold execLossOfSignal
  try dsimp only
  repeat' (first
    | (simp +contextual (maxDischargeDepth := 60) [*]; done)
    | split
    | intro _
    | refine State.each_keeps _ _ (fun _ _ _ => ?_) ?_)

@[simp] theorem State.signalSeen_keeps {Q : Mark} {s : State} (kp : Keeps Q s) (n : Nat) :
    Keeps Q (State.signalSeen s n) := by
  unfold State.signalSeen
  try dsimp only
  repeat' (first
    | (simp +contextual (maxDischargeDepth := 60) [*]; done)
    | split
    | intro _
    | refine State.each_keeps _ _ (fun _ _ _ => ?_) ?_)

@[simp] theorem State.confirm_keeps {Q : Mark} {s : State} (kp : Keeps Q s) (j f i : Nat) (b : Burst) (p : BurstProf) (hdr off : Int) (k : Cand) :
    Keeps Q (State.confirm s j f i b p hdr off k) := by
  unfold State.confirm
  try dsimp only
  repeat' (first
    | (simp +contextual (maxDischargeDepth := 60) [*]; done)
    | split
    | intro _
    | refine State.each_keeps _ _ (fun _ _ _ => ?_) ?_)

@[simp] theorem State.foreign_keeps {Q : Mark} {s : State} (kp : Keeps Q s) (j f i : Nat) (b : Burst) (id : Nat) :
    Keeps Q (State.foreign s j f i b id) := by
  unfold State.foreign
  try dsimp only
  repeat' (first
    | (simp +contextual (maxDischargeDepth := 60) [*]; done)
    | split
    | intro _
    | refine State.each_keeps _ _ (fun _ _ _ => ?_) ?_)

@[simp] theorem State.candidate_keeps {Q : Mark} {s : State} (kp : Keeps Q s) (j f i : Nat) (k : Cand) :
    Keeps Q (State.candidate s j f i k) := by
  unfold State.candidate
  try dsimp only
  repeat' (first
    | (simp +contextual (maxDischargeDepth := 60) [*]; done)
    | split
    | intro _
    | refine State.each_keeps _ _ (fun _ _ _ => ?_) ?_)

@[simp] theorem State.discCandidate_keeps {Q : Mark} {s : State} (kp : Keeps Q s) (j f i : Nat) (k : Cand) (msg : Option UpPloam) :
    Keeps Q (State.discCandidate s j f i k msg) := by
  unfold State.discCandidate
  try dsimp only
  repeat' (first
    | (simp +contextual (maxDischargeDepth := 60) [*]; done)
    | split
    | intro _
    | refine State.each_keeps _ _ (fun _ _ _ => ?_) ?_)

theorem execDiscoveryCandidate_keeps {Q : Mark} {s : State} (kp : Keeps Q s) (j : Fin 96) (f i : Nat) (rx : BitVec 64) (hec : Bool) (onu : Fin 1024) (cap : Raw) (latency : Nat) (msg : Option UpPloam) :
    KeepsO Q (execDiscoveryCandidate j f i rx hec onu cap latency msg s) := by
  unfold execDiscoveryCandidate
  try dsimp only
  repeat' (first
    | (simp +contextual (maxDischargeDepth := 60) [*]; done)
    | split
    | intro _
    | refine State.each_keeps _ _ (fun _ _ _ => ?_) ?_)

@[simp] theorem State.windowEnd_keeps {Q : Mark} {s : State} (kp : Keeps Q s) (j f i : Nat) :
    Keeps Q (State.windowEnd s j f i) := by
  unfold State.windowEnd
  try dsimp only
  repeat' (first
    | (simp +contextual (maxDischargeDepth := 60) [*]; done)
    | split
    | intro _
    | refine State.each_keeps _ _ (fun _ _ _ => ?_) ?_)

theorem execBurstWindowEnd_keeps {Q : Mark} {s : State} (kp : Keeps Q s) (j : Fin 96) (f i : Nat) :
    KeepsO Q (execBurstWindowEnd j f i s) := by
  unfold execBurstWindowEnd
  try dsimp only
  repeat' (first
    | (simp +contextual (maxDischargeDepth := 60) [*]; done)
    | split
    | intro _
    | refine State.each_keeps _ _ (fun _ _ _ => ?_) ?_)

@[simp] theorem State.codeword_keeps {Q : Mark} {s : State} (kp : Keeps Q s) (j f i cw : Nat) (corrected uncorrectable : Bool) :
    Keeps Q (State.codeword s j f i cw corrected uncorrectable) := by
  unfold State.codeword
  try dsimp only
  repeat' (first
    | (simp +contextual (maxDischargeDepth := 60) [*]; done)
    | split
    | intro _
    | refine State.each_keeps _ _ (fun _ _ _ => ?_) ?_)

theorem execUpstreamFecCodeword_keeps {Q : Mark} {s : State} (kp : Keeps Q s) (j : Fin 96) (f i cw : Nat) (corrected uncorrectable : Bool) :
    KeepsO Q (execUpstreamFecCodeword j f i cw corrected uncorrectable s) := by
  unfold execUpstreamFecCodeword
  try dsimp only
  repeat' (first
    | (simp +contextual (maxDischargeDepth := 60) [*]; done)
    | split
    | intro _
    | refine State.each_keeps _ _ (fun _ _ _ => ?_) ?_)

@[simp] theorem State.brstPulse_keeps {Q : Mark} {s : State} (kp : Keeps Q s) (j f i : Nat) :
    Keeps Q (State.brstPulse s j f i) := by
  unfold State.brstPulse
  try dsimp only
  repeat' (first
    | (simp +contextual (maxDischargeDepth := 60) [*]; done)
    | split
    | intro _
    | refine State.each_keeps _ _ (fun _ _ _ => ?_) ?_)

theorem execBrstPulse_keeps {Q : Mark} {s : State} (kp : Keeps Q s) (j : Fin 96) (f i : Nat) :
    KeepsO Q (execBrstPulse j f i s) := by
  unfold execBrstPulse
  try dsimp only
  repeat' (first
    | (simp +contextual (maxDischargeDepth := 60) [*]; done)
    | split
    | intro _
    | refine State.each_keeps _ _ (fun _ _ _ => ?_) ?_)

@[simp] theorem State.rssiWrite_keeps {Q : Mark} {s : State} (kp : Keeps Q s) (n : Nat) (v : Word) :
    Keeps Q (State.rssiWrite s n v) := by
  unfold State.rssiWrite
  try dsimp only
  repeat' (first
    | (simp +contextual (maxDischargeDepth := 60) [*]; done)
    | split
    | intro _
    | refine State.each_keeps _ _ (fun _ _ _ => ?_) ?_)

theorem execRssiArm_keeps {Q : Mark} {s : State} (kp : Keeps Q s) (n : Fin 48) (val : Word) :
    KeepsO Q (execRssiArm n val s) := by
  unfold execRssiArm
  try dsimp only
  repeat' (first
    | (simp +contextual (maxDischargeDepth := 60) [*]; done)
    | split
    | intro _
    | refine State.each_keeps _ _ (fun _ _ _ => ?_) ?_)

@[simp] theorem State.rssiFire_keeps {Q : Mark} {s : State} (kp : Keeps Q s) (n : Nat) (r : RssiArm) (start from' : Int) :
    Keeps Q (State.rssiFire s n r start from') := by
  unfold State.rssiFire
  try dsimp only
  repeat' (first
    | (simp +contextual (maxDischargeDepth := 60) [*]; done)
    | split
    | intro _
    | refine State.each_keeps _ _ (fun _ _ _ => ?_) ?_)

@[simp] theorem State.rssiTrigger_keeps {Q : Mark} {s : State} (kp : Keeps Q s) (n f i : Nat) :
    Keeps Q (State.rssiTrigger s n f i) := by
  unfold State.rssiTrigger
  try dsimp only
  repeat' (first
    | (simp +contextual (maxDischargeDepth := 60) [*]; done)
    | split
    | intro _
    | refine State.each_keeps _ _ (fun _ _ _ => ?_) ?_)

theorem execRssiTrigger_keeps {Q : Mark} {s : State} (kp : Keeps Q s) (n : Fin 48) (f i : Nat) :
    KeepsO Q (execRssiTrigger n f i s) := by
  unfold execRssiTrigger
  try dsimp only
  repeat' (first
    | (simp +contextual (maxDischargeDepth := 60) [*]; done)
    | split
    | intro _
    | refine State.each_keeps _ _ (fun _ _ _ => ?_) ?_)

@[simp] theorem State.rssiEnd_keeps {Q : Mark} {s : State} (kp : Keeps Q s) (n : Nat) :
    Keeps Q (State.rssiEnd s n) := by
  unfold State.rssiEnd
  try dsimp only
  repeat' (first
    | (simp +contextual (maxDischargeDepth := 60) [*]; done)
    | split
    | intro _
    | refine State.each_keeps _ _ (fun _ _ _ => ?_) ?_)

theorem execRssiPulseEnd_keeps {Q : Mark} {s : State} (kp : Keeps Q s) (n : Fin 48) :
    KeepsO Q (execRssiPulseEnd n s) := by
  unfold execRssiPulseEnd
  try dsimp only
  repeat' (first
    | (simp +contextual (maxDischargeDepth := 60) [*]; done)
    | split
    | intro _
    | refine State.each_keeps _ _ (fun _ _ _ => ?_) ?_)

@[simp] theorem State.voidBursts_keeps {Q : Mark} {s : State} (kp : Keeps Q s) (j : Nat) :
    Keeps Q (State.voidBursts s j) := by
  unfold State.voidBursts
  try dsimp only
  repeat' (first
    | (simp +contextual (maxDischargeDepth := 60) [*]; done)
    | split
    | intro _
    | refine State.each_keeps _ _ (fun _ _ _ => ?_) ?_)

@[simp] theorem State.relinkStart_keeps {Q : Mark} {s : State} (kp : Keeps Q s) (n : Nat) :
    Keeps Q (State.relinkStart s n) := by
  unfold State.relinkStart
  try dsimp only
  repeat' (first
    | (simp +contextual (maxDischargeDepth := 60) [*]; done)
    | split
    | intro _
    | refine State.each_keeps _ _ (fun _ _ _ => ?_) ?_)

@[simp] theorem State.lineCfgWrite_keeps {Q : Mark} {s : State} (kp : Keeps Q s) (n : Nat) (v : Word) :
    Keeps Q (State.lineCfgWrite s n v) := by
  unfold State.lineCfgWrite
  try dsimp only
  repeat' (first
    | (simp +contextual (maxDischargeDepth := 60) [*]; done)
    | split
    | intro _
    | refine State.each_keeps _ _ (fun _ _ _ => ?_) ?_)

theorem execPonPortReset_keeps {Q : Mark} {s : State} (kp : Keeps Q s) (n : Fin 48) (val : Word) :
    KeepsO Q (execPonPortReset n val s) := by
  unfold execPonPortReset
  try dsimp only
  repeat' (first
    | (simp +contextual (maxDischargeDepth := 60) [*]; done)
    | split
    | intro _
    | refine State.each_keeps _ _ (fun _ _ _ => ?_) ?_)

theorem execPonPortResetComplete_keeps {Q : Mark} {s : State} (kp : Keeps Q s) (n : Fin 48) :
    KeepsO Q (execPonPortResetComplete n s) := by
  unfold execPonPortResetComplete
  try dsimp only
  repeat' (first
    | (simp +contextual (maxDischargeDepth := 60) [*]; done)
    | split
    | intro _
    | refine State.each_keeps _ _ (fun _ _ _ => ?_) ?_)

@[simp] theorem State.persChange_keeps {Q : Mark} {s : State} (kp : Keeps Q s) (n code : Nat) :
    Keeps Q (State.persChange s n code) := by
  unfold State.persChange
  try dsimp only
  repeat' (first
    | (simp +contextual (maxDischargeDepth := 60) [*]; done)
    | split
    | intro _
    | refine State.each_keeps _ _ (fun _ _ _ => ?_) ?_)

end Sys2Proof.Machine
end

