-- ==== Sys2Proof/Laws/KeepImage.lean ====
section
/-!
SUPPORT. Laws/KeepImage.lean: the operations of Machine/Image.lean keep what Laws/Keep.lean lists.
-/
set_option linter.unreachableTactic false
set_option linter.unusedTactic false
set_option linter.unusedSimpArgs false
set_option linter.unusedVariables false

namespace Sys2Proof.Machine

@[simp] theorem State.setGroups_keeps {Q : Mark} {s : State} (kp : Keeps Q s) (c : PortSection) :
    Keeps Q (State.setGroups s c) := by
  unfold State.setGroups
  try dsimp only
  repeat' (first
    | (simp +contextual (maxDischargeDepth := 60) [*]; done)
    | split
    | intro _
    | refine State.each_keeps _ _ (fun _ _ _ => ?_) ?_)

@[simp] theorem State.setCarve_keeps {Q : Mark} {s : State} (kp : Keeps Q s) (c : Carve) :
    Keeps Q (State.setCarve s c) := by
  unfold State.setCarve
  try dsimp only
  repeat' (first
    | (simp +contextual (maxDischargeDepth := 60) [*]; done)
    | split
    | intro _
    | refine State.each_keeps _ _ (fun _ _ _ => ?_) ?_)

@[simp] theorem State.commitImage_keeps {Q : Mark} {s : State} (kp : Keeps Q s) (b : ImageBody) (id : Word) :
    Keeps Q (State.commitImage s b id) := by
  unfold State.commitImage
  try dsimp only
  repeat' (first
    | (simp +contextual (maxDischargeDepth := 60) [*]; done)
    | split
    | intro _
    | refine State.each_keeps _ _ (fun _ _ _ => ?_) ?_)

@[simp] theorem State.flashRead_keeps {Q : Mark} {s : State} (kp : Keeps Q s) (flash : Option Nat) :
    Keeps Q (State.flashRead s flash) := by
  unfold State.flashRead
  try dsimp only
  repeat' (first
    | (simp +contextual (maxDischargeDepth := 60) [*]; done)
    | split
    | intro _
    | refine State.each_keeps _ _ (fun _ _ _ => ?_) ?_)

@[simp] theorem State.loadStart_keeps {Q : Mark} {s : State} (kp : Keeps Q s) :
    Keeps Q (State.loadStart s) := by
  unfold State.loadStart
  try dsimp only
  repeat' (first
    | (simp +contextual (maxDischargeDepth := 60) [*]; done)
    | split
    | intro _
    | refine State.each_keeps _ _ (fun _ _ _ => ?_) ?_)

@[simp] theorem State.imgCtrl_keeps {Q : Mark} {s : State} (kp : Keeps Q s) (v : Word) :
    Keeps Q (State.imgCtrl s v) := by
  unfold State.imgCtrl
  try dsimp only
  repeat' (first
    | (simp +contextual (maxDischargeDepth := 60) [*]; done)
    | split
    | intro _
    | refine State.each_keeps _ _ (fun _ _ _ => ?_) ?_)

@[simp] theorem State.imgCtrlWrite_keeps {Q : Mark} {s : State} (kp : Keeps Q s) (v : Word) :
    Keeps Q (State.imgCtrlWrite s v) := by
  unfold State.imgCtrlWrite
  try dsimp only
  repeat' (first
    | (simp +contextual (maxDischargeDepth := 60) [*]; done)
    | split
    | intro _
    | refine State.each_keeps _ _ (fun _ _ _ => ?_) ?_)

theorem execImageLoadStart_keeps {Q : Mark} {s : State} (kp : Keeps Q s) (val : Word) (flash : Option Nat) :
    KeepsO Q (execImageLoadStart val flash s) := by
  unfold execImageLoadStart
  try dsimp only
  repeat' (first
    | (simp +contextual (maxDischargeDepth := 60) [*]; done)
    | split
    | intro _
    | refine State.each_keeps _ _ (fun _ _ _ => ?_) ?_)

theorem execImageLoadAbort_keeps {Q : Mark} {s : State} (kp : Keeps Q s) (val : Word) :
    KeepsO Q (execImageLoadAbort val s) := by
  unfold execImageLoadAbort
  try dsimp only
  repeat' (first
    | (simp +contextual (maxDischargeDepth := 60) [*]; done)
    | split
    | intro _
    | refine State.each_keeps _ _ (fun _ _ _ => ?_) ?_)

@[simp] theorem State.setLoad_keeps {Q : Mark} {s : State} (kp : Keeps Q s) (r : LoadRun) :
    Keeps Q (State.setLoad s r) := by
  unfold State.setLoad
  try dsimp only
  repeat' (first
    | (simp +contextual (maxDischargeDepth := 60) [*]; done)
    | split
    | intro _
    | refine State.each_keeps _ _ (fun _ _ _ => ?_) ?_)

@[simp] theorem State.loadHeader_keeps {Q : Mark} {s : State} (kp : Keeps Q s) (h : ImgHeader) :
    Keeps Q (State.loadHeader s h) := by
  unfold State.loadHeader
  try dsimp only
  repeat' (first
    | (simp +contextual (maxDischargeDepth := 60) [*]; done)
    | split
    | intro _
    | refine State.each_keeps _ _ (fun _ _ _ => ?_) ?_)

theorem execImageHeaderRead_keeps {Q : Mark} {s : State} (kp : Keeps Q s) (hdr : ImgHeader) :
    KeepsO Q (execImageHeaderRead hdr s) := by
  unfold execImageHeaderRead
  try dsimp only
  repeat' (first
    | (simp +contextual (maxDischargeDepth := 60) [*]; done)
    | split
    | intro _
    | refine State.each_keeps _ _ (fun _ _ _ => ?_) ?_)

@[simp] theorem State.loadDirectory_keeps {Q : Mark} {s : State} (kp : Keeps Q s) (dir : List DirEntry) :
    Keeps Q (State.loadDirectory s dir) := by
  unfold State.loadDirectory
  try dsimp only
  repeat' (first
    | (simp +contextual (maxDischargeDepth := 60) [*]; done)
    | split
    | intro _
    | refine State.each_keeps _ _ (fun _ _ _ => ?_) ?_)

theorem execImageDirectoryRead_keeps {Q : Mark} {s : State} (kp : Keeps Q s) (dir : List DirEntry) :
    KeepsO Q (execImageDirectoryRead dir s) := by
  unfold execImageDirectoryRead
  try dsimp only
  repeat' (first
    | (simp +contextual (maxDischargeDepth := 60) [*]; done)
    | split
    | intro _
    | refine State.each_keeps _ _ (fun _ _ _ => ?_) ?_)

@[simp] theorem State.loadFirstEnd_keeps {Q : Mark} {s : State} (kp : Keeps Q s) (pubkey sig : List Byte) (digest : BitVec 384) :
    Keeps Q (State.loadFirstEnd s pubkey sig digest) := by
  unfold State.loadFirstEnd
  try dsimp only
  repeat' (first
    | (simp +contextual (maxDischargeDepth := 60) [*]; done)
    | split
    | intro _
    | refine State.each_keeps _ _ (fun _ _ _ => ?_) ?_)

theorem execImageFirstPassEnd_keeps {Q : Mark} {s : State} (kp : Keeps Q s) (pubkey : List Byte) (sig : List Byte) (digest : BitVec 384) :
    KeepsO Q (execImageFirstPassEnd pubkey sig digest s) := by
  unfold execImageFirstPassEnd
  try dsimp only
  repeat' (first
    | (simp +contextual (maxDischargeDepth := 60) [*]; done)
    | split
    | intro _
    | refine State.each_keeps _ _ (fun _ _ _ => ?_) ?_)

@[simp] theorem State.loadSection_keeps {Q : Mark} {s : State} (kp : Keeps Q s) (sec : Section) :
    Keeps Q (State.loadSection s sec) := by
  unfold State.loadSection
  try dsimp only
  repeat' (first
    | (simp +contextual (maxDischargeDepth := 60) [*]; done)
    | split
    | intro _
    | refine State.each_keeps _ _ (fun _ _ _ => ?_) ?_)

theorem execImageSectionApply_keeps {Q : Mark} {s : State} (kp : Keeps Q s) (sec : Section) :
    KeepsO Q (execImageSectionApply sec s) := by
  unfold execImageSectionApply
  try dsimp only
  repeat' (first
    | (simp +contextual (maxDischargeDepth := 60) [*]; done)
    | split
    | intro _
    | refine State.each_keeps _ _ (fun _ _ _ => ?_) ?_)

@[simp] theorem State.loadSecondEnd_keeps {Q : Mark} {s : State} (kp : Keeps Q s) (digest : BitVec 384) :
    Keeps Q (State.loadSecondEnd s digest) := by
  unfold State.loadSecondEnd
  try dsimp only
  repeat' (first
    | (simp +contextual (maxDischargeDepth := 60) [*]; done)
    | split
    | intro _
    | refine State.each_keeps _ _ (fun _ _ _ => ?_) ?_)

theorem execImageSecondPassEnd_keeps {Q : Mark} {s : State} (kp : Keeps Q s) (digest : BitVec 384) :
    KeepsO Q (execImageSecondPassEnd digest s) := by
  unfold execImageSecondPassEnd
  try dsimp only
  repeat' (first
    | (simp +contextual (maxDischargeDepth := 60) [*]; done)
    | split
    | intro _
    | refine State.each_keeps _ _ (fun _ _ _ => ?_) ?_)

@[simp] theorem State.swapStart_keeps {Q : Mark} {s : State} (kp : Keeps Q s) :
    Keeps Q (State.swapStart s) := by
  unfold State.swapStart
  try dsimp only
  repeat' (first
    | (simp +contextual (maxDischargeDepth := 60) [*]; done)
    | split
    | intro _
    | refine State.each_keeps _ _ (fun _ _ _ => ?_) ?_)

@[simp] theorem State.setSwap_keeps {Q : Mark} {s : State} (kp : Keeps Q s) (r : SwapRun) :
    Keeps Q (State.setSwap s r) := by
  unfold State.setSwap
  try dsimp only
  repeat' (first
    | (simp +contextual (maxDischargeDepth := 60) [*]; done)
    | split
    | intro _
    | refine State.each_keeps _ _ (fun _ _ _ => ?_) ?_)

@[simp] theorem State.spareCharts_keeps {Q : Mark} {s : State} (kp : Keeps Q s) (b : ImageBody) (k : Nat) :
    Keeps Q (State.spareCharts s b k) := by
  unfold State.spareCharts
  try dsimp only
  repeat' (first
    | (simp +contextual (maxDischargeDepth := 60) [*]; done)
    | split
    | intro _
    | refine State.each_keeps _ _ (fun _ _ _ => ?_) ?_)

@[simp] theorem State.swapDone_keeps {Q : Mark} {s : State} (kp : Keeps Q s) (f : ImageFile) :
    Keeps Q (State.swapDone s f) := by
  unfold State.swapDone
  try dsimp only
  repeat' (first
    | (simp +contextual (maxDischargeDepth := 60) [*]; done)
    | split
    | intro _
    | refine State.each_keeps _ _ (fun _ _ _ => ?_) ?_)

@[simp] theorem State.swapNext_keeps {Q : Mark} {s : State} (kp : Keeps Q s) (r : SwapRun) (f : ImageFile) (k : Nat) :
    Keeps Q (State.swapNext s r f k) := by
  unfold State.swapNext
  try dsimp only
  repeat' (first
    | (simp +contextual (maxDischargeDepth := 60) [*]; done)
    | split
    | intro _
    | refine State.each_keeps _ _ (fun _ _ _ => ?_) ?_)

@[simp] theorem State.netPersChange_keeps {Q : Mark} {s : State} (kp : Keeps Q s) (m code : Nat) :
    Keeps Q (State.netPersChange s m code) := by
  unfold State.netPersChange
  try dsimp only
  repeat' (first
    | (simp +contextual (maxDischargeDepth := 60) [*]; done)
    | split
    | intro _
    | refine State.each_keeps _ _ (fun _ _ _ => ?_) ?_)

@[simp] theorem State.movePoint_keeps {Q : Mark} {s : State} (kp : Keeps Q s) (r : SwapRun) (f : ImageFile) :
    Keeps Q (State.movePoint s r f) := by
  unfold State.movePoint
  try dsimp only
  repeat' (first
    | (simp +contextual (maxDischargeDepth := 60) [*]; done)
    | split
    | intro _
    | refine State.each_keeps _ _ (fun _ _ _ => ?_) ?_)

@[simp] theorem State.swapContinue_keeps {Q : Mark} {s : State} (kp : Keeps Q s) :
    Keeps Q (State.swapContinue s) := by
  unfold State.swapContinue
  try dsimp only
  repeat' (first
    | (simp +contextual (maxDischargeDepth := 60) [*]; done)
    | split
    | intro _
    | refine State.each_keeps _ _ (fun _ _ _ => ?_) ?_)

@[simp] theorem State.discardSpare_keeps {Q : Mark} {s : State} (kp : Keeps Q s) :
    Keeps Q (State.discardSpare s) := by
  unfold State.discardSpare
  try dsimp only
  repeat' (first
    | (simp +contextual (maxDischargeDepth := 60) [*]; done)
    | split
    | intro _
    | refine State.each_keeps _ _ (fun _ _ _ => ?_) ?_)

@[simp] theorem State.swapAbort_keeps {Q : Mark} {s : State} (kp : Keeps Q s) :
    Keeps Q (State.swapAbort s) := by
  unfold State.swapAbort
  try dsimp only
  repeat' (first
    | (simp +contextual (maxDischargeDepth := 60) [*]; done)
    | split
    | intro _
    | refine State.each_keeps _ _ (fun _ _ _ => ?_) ?_)

@[simp] theorem State.swapCtrlWrite_keeps {Q : Mark} {s : State} (kp : Keeps Q s) (v : Word) :
    Keeps Q (State.swapCtrlWrite s v) := by
  unfold State.swapCtrlWrite
  try dsimp only
  repeat' (first
    | (simp +contextual (maxDischargeDepth := 60) [*]; done)
    | split
    | intro _
    | refine State.each_keeps _ _ (fun _ _ _ => ?_) ?_)

theorem execImageSwapStart_keeps {Q : Mark} {s : State} (kp : Keeps Q s) (val : Word) (flash : Option Nat) :
    KeepsO Q (execImageSwapStart val flash s) := by
  unfold execImageSwapStart
  try dsimp only
  repeat' (first
    | (simp +contextual (maxDischargeDepth := 60) [*]; done)
    | split
    | intro _
    | refine State.each_keeps _ _ (fun _ _ _ => ?_) ?_)

theorem execImageSwapAbort_keeps {Q : Mark} {s : State} (kp : Keeps Q s) (val : Word) :
    KeepsO Q (execImageSwapAbort val s) := by
  unfold execImageSwapAbort
  try dsimp only
  repeat' (first
    | (simp +contextual (maxDischargeDepth := 60) [*]; done)
    | split
    | intro _
    | refine State.each_keeps _ _ (fun _ _ _ => ?_) ?_)

theorem execImageSwapContinue_keeps {Q : Mark} {s : State} (kp : Keeps Q s) (val : Word) :
    KeepsO Q (execImageSwapContinue val s) := by
  unfold execImageSwapContinue
  try dsimp only
  repeat' (first
    | (simp +contextual (maxDischargeDepth := 60) [*]; done)
    | split
    | intro _
    | refine State.each_keeps _ _ (fun _ _ _ => ?_) ?_)

@[simp] theorem State.swapAuthEnd_keeps {Q : Mark} {s : State} (kp : Keeps Q s) (f : ImageFile) :
    Keeps Q (State.swapAuthEnd s f) := by
  unfold State.swapAuthEnd
  try dsimp only
  repeat' (first
    | (simp +contextual (maxDischargeDepth := 60) [*]; done)
    | split
    | intro _
    | refine State.each_keeps _ _ (fun _ _ _ => ?_) ?_)

theorem execSwapAuthenticationEnd_keeps {Q : Mark} {s : State} (kp : Keeps Q s) (img : ImageFile) :
    KeepsO Q (execSwapAuthenticationEnd img s) := by
  unfold execSwapAuthenticationEnd
  try dsimp only
  repeat' (first
    | (simp +contextual (maxDischargeDepth := 60) [*]; done)
    | split
    | intro _
    | refine State.each_keeps _ _ (fun _ _ _ => ?_) ?_)

@[simp] theorem State.spareLoaded_keeps {Q : Mark} {s : State} (kp : Keeps Q s) :
    Keeps Q (State.spareLoaded s) := by
  unfold State.spareLoaded
  try dsimp only
  repeat' (first
    | (simp +contextual (maxDischargeDepth := 60) [*]; done)
    | split
    | intro _
    | refine State.each_keeps _ _ (fun _ _ _ => ?_) ?_)

theorem execSpareLoadComplete_keeps {Q : Mark} {s : State} (kp : Keeps Q s) :
    KeepsO Q (execSpareLoadComplete s) := by
  unfold execSpareLoadComplete
  try dsimp only
  repeat' (first
    | (simp +contextual (maxDischargeDepth := 60) [*]; done)
    | split
    | intro _
    | refine State.each_keeps _ _ (fun _ _ _ => ?_) ?_)

@[simp] theorem State.moveDone_keeps {Q : Mark} {s : State} (kp : Keeps Q s) (k : Nat) :
    Keeps Q (State.moveDone s k) := by
  unfold State.moveDone
  try dsimp only
  repeat' (first
    | (simp +contextual (maxDischargeDepth := 60) [*]; done)
    | split
    | intro _
    | refine State.each_keeps _ _ (fun _ _ _ => ?_) ?_)

@[simp] theorem State.moved_keeps {Q : Mark} {s : State} (kp : Keeps Q s) :
    Keeps Q (State.moved s) := by
  unfold State.moved
  try dsimp only
  repeat' (first
    | (simp +contextual (maxDischargeDepth := 60) [*]; done)
    | split
    | intro _
    | refine State.each_keeps _ _ (fun _ _ _ => ?_) ?_)

theorem execPipelineMoveComplete_keeps {Q : Mark} {s : State} (kp : Keeps Q s) :
    KeepsO Q (execPipelineMoveComplete s) := by
  unfold execPipelineMoveComplete
  try dsimp only
  repeat' (first
    | (simp +contextual (maxDischargeDepth := 60) [*]; done)
    | split
    | intro _
    | refine State.each_keeps _ _ (fun _ _ _ => ?_) ?_)

@[simp] theorem State.imgReadFailure_keeps {Q : Mark} {s : State} (kp : Keeps Q s) (bytes : Nat) :
    Keeps Q (State.imgReadFailure s bytes) := by
  unfold State.imgReadFailure
  try dsimp only
  repeat' (first
    | (simp +contextual (maxDischargeDepth := 60) [*]; done)
    | split
    | intro _
    | refine State.each_keeps _ _ (fun _ _ _ => ?_) ?_)

theorem execImageReadFailure_keeps {Q : Mark} {s : State} (kp : Keeps Q s) (bytes : Nat) :
    KeepsO Q (execImageReadFailure bytes s) := by
  unfold execImageReadFailure
  try dsimp only
  repeat' (first
    | (simp +contextual (maxDischargeDepth := 60) [*]; done)
    | split
    | intro _
    | refine State.each_keeps _ _ (fun _ _ _ => ?_) ?_)

@[simp] theorem State.bistStart_keeps {Q : Mark} {s : State} (kp : Keeps Q s) :
    Keeps Q (State.bistStart s) := by
  unfold State.bistStart
  try dsimp only
  repeat' (first
    | (simp +contextual (maxDischargeDepth := 60) [*]; done)
    | split
    | intro _
    | refine State.each_keeps _ _ (fun _ _ _ => ?_) ?_)

@[simp] theorem State.bistCtrlWrite_keeps {Q : Mark} {s : State} (kp : Keeps Q s) (v : Word) :
    Keeps Q (State.bistCtrlWrite s v) := by
  unfold State.bistCtrlWrite
  try dsimp only
  repeat' (first
    | (simp +contextual (maxDischargeDepth := 60) [*]; done)
    | split
    | intro _
    | refine State.each_keeps _ _ (fun _ _ _ => ?_) ?_)

theorem execMemoryBistStart_keeps {Q : Mark} {s : State} (kp : Keeps Q s) (val : Word) :
    KeepsO Q (execMemoryBistStart val s) := by
  unfold execMemoryBistStart
  try dsimp only
  repeat' (first
    | (simp +contextual (maxDischargeDepth := 60) [*]; done)
    | split
    | intro _
    | refine State.each_keeps _ _ (fun _ _ _ => ?_) ?_)

theorem execMemoryBistAbort_keeps {Q : Mark} {s : State} (kp : Keeps Q s) (val : Word) :
    KeepsO Q (execMemoryBistAbort val s) := by
  unfold execMemoryBistAbort
  try dsimp only
  repeat' (first
    | (simp +contextual (maxDischargeDepth := 60) [*]; done)
    | split
    | intro _
    | refine State.each_keeps _ _ (fun _ _ _ => ?_) ?_)

@[simp] theorem State.bistCorrected_keeps {Q : Mark} {s : State} (kp : Keeps Q s) (z0 : List (Fin 10 × Nat × Nat × BitVec 64)) :
    Keeps Q (State.bistCorrected s z0) := by
  induction z0 generalizing s with
  | nil => simpa [State.bistCorrected] using kp
  | cons x l ih =>
    obtain ⟨a, b, c, d⟩ := x
    simp only [State.bistCorrected]
    exact ih (State.memoryError_keeps kp _ _ _ _ _)

@[simp] theorem State.bistEnd_keeps {Q : Mark} {s : State} (kp : Keeps Q s) (tested : Nat) (failing : List (Nat × Nat)) :
    Keeps Q (State.bistEnd s tested failing) := by
  unfold State.bistEnd
  try dsimp only
  repeat' (first
    | (simp +contextual (maxDischargeDepth := 60) [*]; done)
    | split
    | intro _
    | refine State.each_keeps _ _ (fun _ _ _ => ?_) ?_)

theorem execMemoryBistEnd_keeps {Q : Mark} {s : State} (kp : Keeps Q s) (tested : Nat) (failing : List (Nat × Nat)) (corrected : List (Fin 10 × Nat × Nat × BitVec 64)) :
    KeepsO Q (execMemoryBistEnd tested failing corrected s) := by
  unfold execMemoryBistEnd
  try dsimp only
  repeat' (first
    | (simp +contextual (maxDischargeDepth := 60) [*]; done)
    | split
    | intro _
    | refine State.each_keeps _ _ (fun _ _ _ => ?_) ?_)

end Sys2Proof.Machine
end

