-- ==== Sys2Proof/Laws/KeepCopy.lean ====
section
/-!
SUPPORT. Laws/KeepCopy.lean: the operations of Machine/Copy.lean keep what Laws/Keep.lean lists.
-/
set_option linter.unreachableTactic false
set_option linter.unusedTactic false
set_option linter.unusedSimpArgs false
set_option linter.unusedVariables false

namespace Sys2Proof.Machine

@[simp] theorem State.emTake_keeps {Q : Mark} {s : State} (kp : Keeps Q s) (t key : Nat) (e : Option EmEntry) :
    Keeps Q (State.emTake s t key e) := by
  unfold State.emTake
  try dsimp only
  repeat' (first
    | (simp +contextual (maxDischargeDepth := 60) [*]; done)
    | split
    | intro _
    | refine State.each_keeps _ _ (fun _ _ _ => ?_) ?_)

@[simp] theorem State.applyRec_keeps {Q : Mark} {s : State} (kp : Keeps Q s) (r : CopyRec) :
    Keeps Q (State.applyRec s r) := by
  unfold State.applyRec
  try dsimp only
  repeat' (first
    | (simp +contextual (maxDischargeDepth := 60) [*]; done)
    | split
    | intro _
    | refine State.each_keeps _ _ (fun _ _ _ => ?_) ?_)

@[simp] theorem State.applyRecs_keeps {Q : Mark} {s : State} (kp : Keeps Q s) (l : List CopyRec) :
    Keeps Q (State.applyRecs s l) := by
  unfold State.applyRecs
  exact State.ponFollowAll_keeps (Keeps.foldl _ _ (fun _ _ h => State.applyRec_keeps h _) kp)

@[simp] theorem State.onusFollow_keeps {Q : Mark} {s : State} (kp : Keeps Q s) (old : SMap Onu) :
    Keeps Q (State.onusFollow s old) := by
  unfold State.onusFollow
  try dsimp only
  repeat' (first
    | (simp +contextual (maxDischargeDepth := 60) [*]; done)
    | split
    | intro _
    | refine State.each_keeps _ _ (fun _ _ _ => ?_) ?_)

@[simp] theorem State.clearCopied_keeps {Q : Mark} {s : State} (kp : Keeps Q s) :
    Keeps Q (State.clearCopied s) := by
  unfold State.clearCopied
  try dsimp only
  repeat' (first
    | (simp +contextual (maxDischargeDepth := 60) [*]; done)
    | split
    | intro _
    | refine State.each_keeps _ _ (fun _ _ _ => ?_) ?_)

end Sys2Proof.Machine
end

