-- ==== Sys2Proof/Laws/KeepLighthouse.lean ====
section
/-!
SUPPORT. Laws/KeepLighthouse.lean: the operations of Machine/Lighthouse.lean keep what Laws/Keep.lean lists.
-/
set_option linter.unreachableTactic false
set_option linter.unusedTactic false
set_option linter.unusedSimpArgs false
set_option linter.unusedVariables false

namespace Sys2Proof.Machine

@[simp] theorem State.setLh_keeps {Q : Mark} {s : State} (kp : Keeps Q s) (name : String) (b : Bool) :
    Keeps Q (State.setLh s name b) := by
  unfold State.setLh
  try dsimp only
  repeat' (first
    | (simp +contextual (maxDischargeDepth := 60) [*]; done)
    | split
    | intro _
    | refine State.each_keeps _ _ (fun _ _ _ => ?_) ?_)

@[simp] theorem State.copyOut_keeps {Q : Mark} {s : State} (kp : Keeps Q s) (kind seq : Nat) (recs : List CopyRec) :
    Keeps Q (State.copyOut s kind seq recs) := by
  unfold State.copyOut
  try dsimp only
  repeat' (first
    | (simp +contextual (maxDischargeDepth := 60) [*]; done)
    | split
    | intro _
    | refine State.each_keeps _ _ (fun _ _ _ => ?_) ?_)

@[simp] theorem State.reRange_keeps {Q : Mark} {s : State} (kp : Keeps Q s) (n teq : Nat) (o : Int) (acq : Bool) (id : Nat) :
    Keeps Q (State.reRange s n teq o acq id) := by
  unfold State.reRange
  try dsimp only
  repeat' (first
    | (simp +contextual (maxDischargeDepth := 60) [*]; done)
    | split
    | intro _
    | refine State.each_keeps _ _ (fun _ _ _ => ?_) ?_)

@[simp] theorem State.takePort_keeps {Q : Mark} {s : State} (kp : Keeps Q s) (n : Nat) :
    Keeps Q (State.takePort s n) := by
  unfold State.takePort
  try dsimp only
  repeat' (first
    | (simp +contextual (maxDischargeDepth := 60) [*]; done)
    | split
    | intro _
    | refine State.each_keeps _ _ (fun _ _ _ => ?_) ?_)

@[simp] theorem State.takeBuckets_keeps {Q : Mark} {s : State} (kp : Keeps Q s) :
    Keeps Q (State.takeBuckets s) := by
  unfold State.takeBuckets
  try dsimp only
  repeat' (first
    | (simp +contextual (maxDischargeDepth := 60) [*]; done)
    | split
    | intro _
    | refine State.each_keeps _ _ (fun _ _ _ => ?_) ?_)

@[simp] theorem State.takeBlank_keeps {Q : Mark} {s : State} (kp : Keeps Q s) :
    Keeps Q (State.takeBlank s) := by
  unfold State.takeBlank
  try dsimp only
  repeat' (first
    | (simp +contextual (maxDischargeDepth := 60) [*]; done)
    | split
    | intro _
    | refine State.each_keeps _ _ (fun _ _ _ => ?_) ?_)

@[simp] theorem State.takeover_keeps {Q : Mark} {s : State} (kp : Keeps Q s) (cause : Nat) :
    Keeps Q (State.takeover s cause) := by
  unfold State.takeover
  try dsimp only
  repeat' (first
    | (simp +contextual (maxDischargeDepth := 60) [*]; done)
    | split
    | intro _
    | refine State.each_keeps _ _ (fun _ _ _ => ?_) ?_)

@[simp] theorem State.witnessStart_keeps {Q : Mark} {s : State} (kp : Keeps Q s) :
    Keeps Q (State.witnessStart s) := by
  unfold State.witnessStart
  try dsimp only
  repeat' (first
    | (simp +contextual (maxDischargeDepth := 60) [*]; done)
    | split
    | intro _
    | refine State.each_keeps _ _ (fun _ _ _ => ?_) ?_)

@[simp] theorem State.witnessEnd_keeps {Q : Mark} {s : State} (kp : Keeps Q s) :
    Keeps Q (State.witnessEnd s) := by
  unfold State.witnessEnd
  try dsimp only
  repeat' (first
    | (simp +contextual (maxDischargeDepth := 60) [*]; done)
    | split
    | intro _
    | refine State.each_keeps _ _ (fun _ _ _ => ?_) ?_)

theorem execWitnessWindowEnd_keeps {Q : Mark} {s : State} (kp : Keeps Q s) (at' : Raw) :
    KeepsO Q (execWitnessWindowEnd at' s) := by
  unfold execWitnessWindowEnd
  try dsimp only
  repeat' (first
    | (simp +contextual (maxDischargeDepth := 60) [*]; done)
    | split
    | intro _
    | refine State.each_keeps _ _ (fun _ _ _ => ?_) ?_)

@[simp] theorem State.pathEnd_keeps {Q : Mark} {s : State} (kp : Keeps Q s) (p : Nat) :
    Keeps Q (State.pathEnd s p) := by
  unfold State.pathEnd
  try dsimp only
  repeat' (first
    | (simp +contextual (maxDischargeDepth := 60) [*]; done)
    | split
    | intro _
    | refine State.each_keeps _ _ (fun _ _ _ => ?_) ?_)

@[simp] theorem State.missEnd_keeps {Q : Mark} {s : State} (kp : Keeps Q s) (good : Bool) :
    Keeps Q (State.missEnd s good) := by
  unfold State.missEnd
  try dsimp only
  repeat' (first
    | (simp +contextual (maxDischargeDepth := 60) [*]; done)
    | split
    | intro _
    | refine State.each_keeps _ _ (fun _ _ _ => ?_) ?_)

@[simp] theorem State.activeEnd_keeps {Q : Mark} {s : State} (kp : Keeps Q s) (was : Nat) :
    Keeps Q (State.activeEnd s was) := by
  unfold State.activeEnd
  try dsimp only
  repeat' (first
    | (simp +contextual (maxDischargeDepth := 60) [*]; done)
    | split
    | intro _
    | refine State.each_keeps _ _ (fun _ _ _ => ?_) ?_)

@[simp] theorem State.standbyEnd_keeps {Q : Mark} {s : State} (kp : Keeps Q s) (good : Bool) (was : Nat) :
    Keeps Q (State.standbyEnd s good was) := by
  unfold State.standbyEnd
  try dsimp only
  repeat' (first
    | (simp +contextual (maxDischargeDepth := 60) [*]; done)
    | split
    | intro _
    | refine State.each_keeps _ _ (fun _ _ _ => ?_) ?_)

@[simp] theorem State.sendHeld_keeps {Q : Mark} {s : State} (kp : Keeps Q s) :
    Keeps Q (State.sendHeld s) := by
  unfold State.sendHeld
  try dsimp only
  repeat' (first
    | (simp +contextual (maxDischargeDepth := 60) [*]; done)
    | split
    | intro _
    | refine State.each_keeps _ _ (fun _ _ _ => ?_) ?_
    | refine Keeps.foldl _ _ (fun _ _ _ => ?_) ?_)

@[simp] theorem State.closeInc_keeps {Q : Mark} {s : State} (kp : Keeps Q s) :
    Keeps Q (State.closeInc s) := by
  unfold State.closeInc
  try dsimp only
  repeat' (first
    | (simp +contextual (maxDischargeDepth := 60) [*]; done)
    | split
    | intro _
    | refine State.each_keeps _ _ (fun _ _ _ => ?_) ?_)

@[simp] theorem State.journalFull_keeps {Q : Mark} {s : State} (kp : Keeps Q s) :
    Keeps Q (State.journalFull s) := by
  unfold State.journalFull
  try dsimp only
  repeat' (first
    | (simp +contextual (maxDischargeDepth := 60) [*]; done)
    | split
    | intro _
    | refine State.each_keeps _ _ (fun _ _ _ => ?_) ?_)

@[simp] theorem State.hbPeriod_keeps {Q : Mark} {s : State} (kp : Keeps Q s) (journal : Nat) :
    Keeps Q (State.hbPeriod s journal) := by
  unfold State.hbPeriod
  try dsimp only
  repeat' (first
    | (simp +contextual (maxDischargeDepth := 60) [*]; done)
    | split
    | intro _
    | refine State.each_keeps _ _ (fun _ _ _ => ?_) ?_)

theorem execHeartbeatPeriod_keeps {Q : Mark} {s : State} (kp : Keeps Q s) (at' : Raw) (journal : Nat) :
    KeepsO Q (execHeartbeatPeriod at' journal s) := by
  unfold execHeartbeatPeriod
  try dsimp only
  repeat' (first
    | (simp +contextual (maxDischargeDepth := 60) [*]; done)
    | split
    | intro _
    | refine State.each_keeps _ _ (fun _ _ _ => ?_) ?_)

@[simp] theorem State.streamBegin_keeps {Q : Mark} {s : State} (kp : Keeps Q s) :
    Keeps Q (State.streamBegin s) := by
  unfold State.streamBegin
  try dsimp only
  repeat' (first
    | (simp +contextual (maxDischargeDepth := 60) [*]; done)
    | split
    | intro _
    | refine State.each_keeps _ _ (fun _ _ _ => ?_) ?_)

@[simp] theorem State.syncStart_keeps {Q : Mark} {s : State} (kp : Keeps Q s) :
    Keeps Q (State.syncStart s) := by
  unfold State.syncStart
  try dsimp only
  repeat' (first
    | (simp +contextual (maxDischargeDepth := 60) [*]; done)
    | split
    | intro _
    | refine State.each_keeps _ _ (fun _ _ _ => ?_) ?_)

@[simp] theorem State.syncPeer_keeps {Q : Mark} {s : State} (kp : Keeps Q s) :
    Keeps Q (State.syncPeer s) := by
  unfold State.syncPeer
  try dsimp only
  repeat' (first
    | (simp +contextual (maxDischargeDepth := 60) [*]; done)
    | split
    | intro _
    | refine State.each_keeps _ _ (fun _ _ _ => ?_) ?_)

@[simp] theorem State.syncCtrlWrite_keeps {Q : Mark} {s : State} (kp : Keeps Q s) (v : Word) :
    Keeps Q (State.syncCtrlWrite s v) := by
  unfold State.syncCtrlWrite
  try dsimp only
  repeat' (first
    | (simp +contextual (maxDischargeDepth := 60) [*]; done)
    | split
    | intro _
    | refine State.each_keeps _ _ (fun _ _ _ => ?_) ?_)

theorem execBulkSyncStart_keeps {Q : Mark} {s : State} (kp : Keeps Q s) (peer : Bool) (val : Word) :
    KeepsO Q (execBulkSyncStart peer val s) := by
  unfold execBulkSyncStart
  try dsimp only
  repeat' (first
    | (simp +contextual (maxDischargeDepth := 60) [*]; done)
    | split
    | intro _
    | refine State.each_keeps _ _ (fun _ _ _ => ?_) ?_)

theorem execBulkSyncAbort_keeps {Q : Mark} {s : State} (kp : Keeps Q s) (peer : Bool) (val : Word) :
    KeepsO Q (execBulkSyncAbort peer val s) := by
  unfold execBulkSyncAbort
  try dsimp only
  repeat' (first
    | (simp +contextual (maxDischargeDepth := 60) [*]; done)
    | split
    | intro _
    | refine State.each_keeps _ _ (fun _ _ _ => ?_) ?_)

@[simp] theorem State.streamEnd_keeps {Q : Mark} {s : State} (kp : Keeps Q s) (kib row journal : Nat) (recs : List CopyRec) (kcv : Option Word) :
    Keeps Q (State.streamEnd s kib row journal recs kcv) := by
  unfold State.streamEnd
  try dsimp only
  repeat' (first
    | (simp +contextual (maxDischargeDepth := 60) [*]; done)
    | split
    | intro _
    | refine State.each_keeps _ _ (fun _ _ _ => ?_) ?_)

theorem execSyncStreamComplete_keeps {Q : Mark} {s : State} (kp : Keeps Q s) (kib row journal : Nat) (recs : List CopyRec) (kcv : Option Word) :
    KeepsO Q (execSyncStreamComplete kib row journal recs kcv s) := by
  unfold execSyncStreamComplete
  try dsimp only
  repeat' (first
    | (simp +contextual (maxDischargeDepth := 60) [*]; done)
    | split
    | intro _
    | refine State.each_keeps _ _ (fun _ _ _ => ?_) ?_)

@[simp] theorem State.snapCommit_keeps {Q : Mark} {s : State} (kp : Keeps Q s) (recs : List CopyRec) (seq : Nat) :
    Keeps Q (State.snapCommit s recs seq) := by
  unfold State.snapCommit
  try dsimp only
  repeat' (first
    | (simp +contextual (maxDischargeDepth := 60) [*]; done)
    | split
    | intro _
    | refine State.each_keeps _ _ (fun _ _ _ => ?_) ?_)

theorem execSnapshotCommit_keeps {Q : Mark} {s : State} (kp : Keeps Q s) (recs : List CopyRec) (seq : Nat) :
    KeepsO Q (execSnapshotCommit recs seq s) := by
  unfold execSnapshotCommit
  try dsimp only
  repeat' (first
    | (simp +contextual (maxDischargeDepth := 60) [*]; done)
    | split
    | intro _
    | refine State.each_keeps _ _ (fun _ _ _ => ?_) ?_)

theorem execSnapshotSlotFull_keeps {Q : Mark} {s : State} (kp : Keeps Q s) :
    KeepsO Q (execSnapshotSlotFull s) := by
  unfold execSnapshotSlotFull
  try dsimp only
  repeat' (first
    | (simp +contextual (maxDischargeDepth := 60) [*]; done)
    | split
    | intro _
    | refine State.each_keeps _ _ (fun _ _ _ => ?_) ?_)

@[simp] theorem State.incKeep_keeps {Q : Mark} {s : State} (kp : Keeps Q s) (seq : Nat) (recs : List CopyRec) :
    Keeps Q (State.incKeep s seq recs) := by
  unfold State.incKeep
  try dsimp only
  repeat' (first
    | (simp +contextual (maxDischargeDepth := 60) [*]; done)
    | split
    | intro _
    | refine State.each_keeps _ _ (fun _ _ _ => ?_) ?_)

@[simp] theorem State.incTake_keeps {Q : Mark} {s : State} (kp : Keeps Q s) (seq : Nat) (recs : List CopyRec) :
    Keeps Q (State.incTake s seq recs) := by
  unfold State.incTake
  try dsimp only
  repeat' (first
    | (simp +contextual (maxDischargeDepth := 60) [*]; done)
    | split
    | intro _
    | refine State.each_keeps _ _ (fun _ _ _ => ?_) ?_)

theorem execIncrementApply_keeps {Q : Mark} {s : State} (kp : Keeps Q s) (seq : Nat) (recs : List CopyRec) :
    KeepsO Q (execIncrementApply seq recs s) := by
  unfold execIncrementApply
  try dsimp only
  repeat' (first
    | (simp +contextual (maxDischargeDepth := 60) [*]; done)
    | split
    | intro _
    | refine State.each_keeps _ _ (fun _ _ _ => ?_) ?_)

@[simp] theorem State.hbActive_keeps {Q : Mark} {s : State} (kp : Keeps Q s) (h : Hb) :
    Keeps Q (State.hbActive s h) := by
  unfold State.hbActive
  try dsimp only
  repeat' (first
    | (simp +contextual (maxDischargeDepth := 60) [*]; done)
    | split
    | intro _
    | refine State.each_keeps _ _ (fun _ _ _ => ?_) ?_)

@[simp] theorem State.hbStandby_keeps {Q : Mark} {s : State} (kp : Keeps Q s) (h : Hb) :
    Keeps Q (State.hbStandby s h) := by
  unfold State.hbStandby
  try dsimp only
  repeat' (first
    | (simp +contextual (maxDischargeDepth := 60) [*]; done)
    | split
    | intro _
    | refine State.each_keeps _ _ (fun _ _ _ => ?_) ?_)

@[simp] theorem State.hbReceive_keeps {Q : Mark} {s : State} (kp : Keeps Q s) (rhb : Bool) (src : Nat) (bs : List Byte) :
    Keeps Q (State.hbReceive s rhb src bs) := by
  unfold State.hbReceive
  try dsimp only
  repeat' (first
    | (simp +contextual (maxDischargeDepth := 60) [*]; done)
    | split
    | intro _
    | refine State.each_keeps _ _ (fun _ _ _ => ?_) ?_)

theorem execHeartbeatReceive_keeps {Q : Mark} {s : State} (kp : Keeps Q s) (rhb : Bool) (src : Fin 1024) (bytes : List Byte) :
    KeepsO Q (execHeartbeatReceive rhb src bytes s) := by
  unfold execHeartbeatReceive
  try dsimp only
  repeat' (first
    | (simp +contextual (maxDischargeDepth := 60) [*]; done)
    | split
    | intro _
    | refine State.each_keeps _ _ (fun _ _ _ => ?_) ?_)

theorem execLhPeerLinkLoss_keeps {Q : Mark} {s : State} (kp : Keeps Q s) :
    KeepsO Q (execLhPeerLinkLoss s) := by
  unfold execLhPeerLinkLoss
  try dsimp only
  repeat' (first
    | (simp +contextual (maxDischargeDepth := 60) [*]; done)
    | split
    | intro _
    | refine State.each_keeps _ _ (fun _ _ _ => ?_) ?_)

theorem execLhPeerLinkReturn_keeps {Q : Mark} {s : State} (kp : Keeps Q s) :
    KeepsO Q (execLhPeerLinkReturn s) := by
  unfold execLhPeerLinkReturn
  try dsimp only
  repeat' (first
    | (simp +contextual (maxDischargeDepth := 60) [*]; done)
    | split
    | intro _
    | refine State.each_keeps _ _ (fun _ _ _ => ?_) ?_)

@[simp] theorem State.mapCopy_keeps {Q : Mark} {s : State} (kp : Keeps Q s) (j f : Nat) (bs : List Burst) :
    Keeps Q (State.mapCopy s j f bs) := by
  unfold State.mapCopy
  try dsimp only
  repeat' (first
    | (simp +contextual (maxDischargeDepth := 60) [*]; done)
    | split
    | intro _
    | refine State.each_keeps _ _ (fun _ _ _ => ?_) ?_)

theorem execMapCopyReceive_keeps {Q : Mark} {s : State} (kp : Keeps Q s) (j : Fin 96) (f : Nat) (bursts : List Burst) :
    KeepsO Q (execMapCopyReceive j f bursts s) := by
  unfold execMapCopyReceive
  try dsimp only
  repeat' (first
    | (simp +contextual (maxDischargeDepth := 60) [*]; done)
    | split
    | intro _
    | refine State.each_keeps _ _ (fun _ _ _ => ?_) ?_)

@[simp] theorem State.preFollow_keeps {Q : Mark} {s : State} (kp : Keeps Q s) (n : Nat) :
    Keeps Q (State.preFollow s n) := by
  unfold State.preFollow
  try dsimp only
  repeat' (first
    | (simp +contextual (maxDischargeDepth := 60) [*]; done)
    | split
    | intro _
    | refine State.each_keeps _ _ (fun _ _ _ => ?_) ?_)

@[simp] theorem State.preNote_keeps {Q : Mark} {s : State} (kp : Keeps Q s) (n id : Nat) (o : Int) :
    Keeps Q (State.preNote s n id o) := by
  unfold State.preNote
  try dsimp only
  repeat' (first
    | (simp +contextual (maxDischargeDepth := 60) [*]; done)
    | split
    | intro _
    | refine State.each_keeps _ _ (fun _ _ _ => ?_) ?_)

@[simp] theorem State.witness_keeps {Q : Mark} {s : State} (kp : Keeps Q s) (n id f : Nat) :
    Keeps Q (State.witness s n id f) := by
  unfold State.witness
  try dsimp only
  repeat' (first
    | (simp +contextual (maxDischargeDepth := 60) [*]; done)
    | split
    | intro _
    | refine State.each_keeps _ _ (fun _ _ _ => ?_) ?_)

@[simp] theorem State.freeCandidate_keeps {Q : Mark} {s : State} (kp : Keeps Q s) (j f : Nat) (k : Cand) :
    Keeps Q (State.freeCandidate s j f k) := by
  unfold State.freeCandidate
  try dsimp only
  repeat' (first
    | (simp +contextual (maxDischargeDepth := 60) [*]; done)
    | split
    | intro _
    | refine State.each_keeps _ _ (fun _ _ _ => ?_) ?_)

@[simp] theorem State.preCandidate_keeps {Q : Mark} {s : State} (kp : Keeps Q s) (j f i : Nat) (k : Cand) :
    Keeps Q (State.preCandidate s j f i k) := by
  unfold State.preCandidate
  try dsimp only
  repeat' (first
    | (simp +contextual (maxDischargeDepth := 60) [*]; done)
    | split
    | intro _
    | refine State.each_keeps _ _ (fun _ _ _ => ?_) ?_)

theorem execBurstCandidate_keeps {Q : Mark} {s : State} (kp : Keeps Q s) (j : Fin 96) (f i : Nat) (rx : BitVec 64) (hec : Bool) (onu : Fin 1024) (cap : Raw) (latency : Nat) :
    KeepsO Q (execBurstCandidate j f i rx hec onu cap latency s) := by
  unfold execBurstCandidate
  try dsimp only
  repeat' (first
    | (simp +contextual (maxDischargeDepth := 60) [*]; done)
    | split
    | intro _
    | refine State.each_keeps _ _ (fun _ _ _ => ?_) ?_)

@[simp] theorem State.healthEval_keeps {Q : Mark} {s : State} (kp : Keeps Q s) :
    Keeps Q (State.healthEval s) := by
  unfold State.healthEval
  try dsimp only
  repeat' (first
    | (simp +contextual (maxDischargeDepth := 60) [*]; done)
    | split
    | intro _
    | refine State.each_keeps _ _ (fun _ _ _ => ?_) ?_)

theorem execHealthEvaluation_keeps {Q : Mark} {s : State} (kp : Keeps Q s) (at' : Raw) :
    KeepsO Q (execHealthEvaluation at' s) := by
  unfold execHealthEvaluation
  try dsimp only
  repeat' (first
    | (simp +contextual (maxDischargeDepth := 60) [*]; done)
    | split
    | intro _
    | refine State.each_keeps _ _ (fun _ _ _ => ?_) ?_)

@[simp] theorem State.lhtClear_keeps {Q : Mark} {s : State} (kp : Keeps Q s) :
    Keeps Q (State.lhtClear s) := by
  unfold State.lhtClear
  try dsimp only
  repeat' (first
    | (simp +contextual (maxDischargeDepth := 60) [*]; done)
    | split
    | intro _
    | refine State.each_keeps _ _ (fun _ _ _ => ?_) ?_)

end Sys2Proof.Machine
end

