-- ==== Sys2Proof/Laws/KeepRhumb.lean ====
section
/-!
SUPPORT. Laws/KeepRhumb.lean: the operations of Machine/Rhumb.lean keep what Laws/Keep.lean lists.
-/
set_option linter.unreachableTactic false
set_option linter.unusedTactic false
set_option linter.unusedSimpArgs false
set_option linter.unusedVariables false

namespace Sys2Proof.Machine

@[simp] theorem State.laneChanged_keeps {Q : Mark} {s : State} (kp : Keeps Q s) (l : Nat) :
    Keeps Q (State.laneChanged s l) := by
  unfold State.laneChanged
  try dsimp only
  repeat' (first
    | (simp +contextual (maxDischargeDepth := 60) [*]; done)
    | split
    | intro _
    | refine State.each_keeps _ _ (fun _ _ _ => ?_) ?_)

@[simp] theorem State.setCellState_keeps {Q : Mark} {s : State} (kp : Keeps Q s) (l st run : Nat) :
    Keeps Q (State.setCellState s l st run) := by
  unfold State.setCellState
  try dsimp only
  repeat' (first
    | (simp +contextual (maxDischargeDepth := 60) [*]; done)
    | split
    | intro _
    | refine State.each_keeps _ _ (fun _ _ _ => ?_) ?_)

@[simp] theorem State.fecGain_keeps {Q : Mark} {s : State} (kp : Keeps Q s) (l : Nat) :
    Keeps Q (State.fecGain s l) := by
  unfold State.fecGain
  try dsimp only
  repeat' (first
    | (simp +contextual (maxDischargeDepth := 60) [*]; done)
    | split
    | intro _
    | refine State.each_keeps _ _ (fun _ _ _ => ?_) ?_)

theorem execFecLockGain_keeps {Q : Mark} {s : State} (kp : Keeps Q s) (l : Fin 64) :
    KeepsO Q (execFecLockGain l s) := by
  unfold execFecLockGain
  try dsimp only
  repeat' (first
    | (simp +contextual (maxDischargeDepth := 60) [*]; done)
    | split
    | intro _
    | refine State.each_keeps _ _ (fun _ _ _ => ?_) ?_)

@[simp] theorem State.markerLoss_keeps {Q : Mark} {s : State} (kp : Keeps Q s) (l : Nat) :
    Keeps Q (State.markerLoss s l) := by
  unfold State.markerLoss
  try dsimp only
  repeat' (first
    | (simp +contextual (maxDischargeDepth := 60) [*]; done)
    | split
    | intro _
    | refine State.each_keeps _ _ (fun _ _ _ => ?_) ?_)

theorem execMarkerLockLoss_keeps {Q : Mark} {s : State} (kp : Keeps Q s) (l : Fin 64) :
    KeepsO Q (execMarkerLockLoss l s) := by
  unfold execMarkerLockLoss
  try dsimp only
  repeat' (first
    | (simp +contextual (maxDischargeDepth := 60) [*]; done)
    | split
    | intro _
    | refine State.each_keeps _ _ (fun _ _ _ => ?_) ?_)

@[simp] theorem State.fecDrop_keeps {Q : Mark} {s : State} (kp : Keeps Q s) (l : Nat) :
    Keeps Q (State.fecDrop s l) := by
  unfold State.fecDrop
  try dsimp only
  repeat' (first
    | (simp +contextual (maxDischargeDepth := 60) [*]; done)
    | split
    | intro _
    | refine State.each_keeps _ _ (fun _ _ _ => ?_) ?_)

@[simp] theorem State.fecLoss_keeps {Q : Mark} {s : State} (kp : Keeps Q s) (l : Nat) :
    Keeps Q (State.fecLoss s l) := by
  unfold State.fecLoss
  try dsimp only
  repeat' (first
    | (simp +contextual (maxDischargeDepth := 60) [*]; done)
    | split
    | intro _
    | refine State.each_keeps _ _ (fun _ _ _ => ?_) ?_)

theorem execFecLockLoss_keeps {Q : Mark} {s : State} (kp : Keeps Q s) (l : Fin 64) :
    KeepsO Q (execFecLockLoss l s) := by
  unfold execFecLockLoss
  try dsimp only
  repeat' (first
    | (simp +contextual (maxDischargeDepth := 60) [*]; done)
    | split
    | intro _
    | refine State.each_keeps _ _ (fun _ _ _ => ?_) ?_)

@[simp] theorem State.streamIn_keeps {Q : Mark} {s : State} (kp : Keeps Q s) (l n : Nat) (cws : List (Nat × Bool)) :
    Keeps Q (State.streamIn s l n cws).2 := by
  unfold State.streamIn
  try dsimp only
  repeat' (first
    | (simp +contextual (maxDischargeDepth := 60) [*]; done)
    | split
    | intro _
    | refine State.each_keeps _ _ (fun _ _ _ => ?_) ?_)

@[simp] theorem State.setReasm_keeps {Q : Mark} {s : State} (kp : Keeps Q s) (k : Nat) (x : Reasm) :
    Keeps Q (State.setReasm s k x) := by
  unfold State.setReasm
  try dsimp only
  repeat' (first
    | (simp +contextual (maxDischargeDepth := 60) [*]; done)
    | split
    | intro _
    | refine State.each_keeps _ _ (fun _ _ _ => ?_) ?_)

@[simp] theorem State.reasmDrop_keeps {Q : Mark} {s : State} (kp : Keeps Q s) (k : Nat) :
    Keeps Q (State.reasmDrop s k) := by
  unfold State.reasmDrop
  try dsimp only
  repeat' (first
    | (simp +contextual (maxDischargeDepth := 60) [*]; done)
    | split
    | intro _
    | refine State.each_keeps _ _ (fun _ _ _ => ?_) ?_)

@[simp] theorem State.reasmTake_keeps {Q : Mark} {s : State} (kp : Keeps Q s) (k : Nat) (c : Cell) :
    Keeps Q (State.reasmTake s k c) := by
  unfold State.reasmTake
  try dsimp only
  repeat' (first
    | (simp +contextual (maxDischargeDepth := 60) [*]; done)
    | split
    | intro _
    | refine State.each_keeps _ _ (fun _ _ _ => ?_) ?_)

@[simp] theorem State.reasmEnd_keeps {Q : Mark} {s : State} (kp : Keeps Q s) (k : Nat) :
    Keeps Q (State.reasmEnd s k) := by
  unfold State.reasmEnd
  try dsimp only
  repeat' (first
    | (simp +contextual (maxDischargeDepth := 60) [*]; done)
    | split
    | intro _
    | refine State.each_keeps _ _ (fun _ _ _ => ?_) ?_)

@[simp] theorem State.reasmIn_keeps {Q : Mark} {s : State} (kp : Keeps Q s) (k : Nat) (c : Cell) :
    Keeps Q (State.reasmIn s k c) := by
  unfold State.reasmIn
  try dsimp only
  repeat' (first
    | (simp +contextual (maxDischargeDepth := 60) [*]; done)
    | split
    | intro _
    | refine State.each_keeps _ _ (fun _ _ _ => ?_) ?_)

@[simp] theorem State.reasmTimeout_keeps {Q : Mark} {s : State} (kp : Keeps Q s) (k : Nat) :
    Keeps Q (State.reasmTimeout s k) := by
  unfold State.reasmTimeout
  try dsimp only
  repeat' (first
    | (simp +contextual (maxDischargeDepth := 60) [*]; done)
    | split
    | intro _
    | refine State.each_keeps _ _ (fun _ _ _ => ?_) ?_)

theorem execFabricReasmTimeout_keeps {Q : Mark} {s : State} (kp : Keeps Q s) (ctx : Fin 17408) (at' : Raw) :
    KeepsO Q (execFabricReasmTimeout ctx at' s) := by
  unfold execFabricReasmTimeout
  try dsimp only
  repeat' (first
    | (simp +contextual (maxDischargeDepth := 60) [*]; done)
    | split
    | intro _
    | refine State.each_keeps _ _ (fun _ _ _ => ?_) ?_)

@[simp] theorem State.setReseq_keeps {Q : Mark} {s : State} (kp : Keeps Q s) (src : Nat) (x : Reseq) :
    Keeps Q (State.setReseq s src x) := by
  unfold State.setReseq
  try dsimp only
  repeat' (first
    | (simp +contextual (maxDischargeDepth := 60) [*]; done)
    | split
    | intro _
    | refine State.each_keeps _ _ (fun _ _ _ => ?_) ?_)

@[simp] theorem State.reseqRun_keeps {Q : Mark} {s : State} (kp : Keeps Q s) (src : Nat) (z0 : Nat) :
    Keeps Q (State.reseqRun s src z0) := by
  fun_induction State.reseqRun <;> simp_all (maxDischargeDepth := 60)

@[simp] theorem State.reseqSkip_keeps {Q : Mark} {s : State} (kp : Keeps Q s) (src : Nat) :
    Keeps Q (State.reseqSkip s src) := by
  unfold State.reseqSkip
  try dsimp only
  repeat' (first
    | (simp +contextual (maxDischargeDepth := 60) [*]; done)
    | split
    | intro _
    | refine State.each_keeps _ _ (fun _ _ _ => ?_) ?_)

@[simp] theorem State.reseqIn_keeps {Q : Mark} {s : State} (kp : Keeps Q s) (c : Cell) :
    Keeps Q (State.reseqIn s c) := by
  unfold State.reseqIn
  try dsimp only
  repeat' (first
    | (simp +contextual (maxDischargeDepth := 60) [*]; done)
    | split
    | intro _
    | refine State.each_keeps _ _ (fun _ _ _ => ?_) ?_)

@[simp] theorem State.reseqTimeout_keeps {Q : Mark} {s : State} (kp : Keeps Q s) (src : Nat) :
    Keeps Q (State.reseqTimeout s src) := by
  unfold State.reseqTimeout
  try dsimp only
  repeat' (first
    | (simp +contextual (maxDischargeDepth := 60) [*]; done)
    | split
    | intro _
    | refine State.each_keeps _ _ (fun _ _ _ => ?_) ?_)

theorem execReseqTimeout_keeps {Q : Mark} {s : State} (kp : Keeps Q s) (src : Fin 1024) (at' : Raw) :
    KeepsO Q (execReseqTimeout src at' s) := by
  unfold execReseqTimeout
  try dsimp only
  repeat' (first
    | (simp +contextual (maxDischargeDepth := 60) [*]; done)
    | split
    | intro _
    | refine State.each_keeps _ _ (fun _ _ _ => ?_) ?_)

@[simp] theorem State.creditMsg_keeps {Q : Mark} {s : State} (kp : Keeps Q s) (m : CreditMsg) :
    Keeps Q (State.creditMsg s m) := by
  unfold State.creditMsg
  try dsimp only
  repeat' (first
    | (simp +contextual (maxDischargeDepth := 60) [*]; done)
    | split
    | intro _
    | refine State.each_keeps _ _ (fun _ _ _ => ?_) ?_)

@[simp] theorem State.creditSlots_keeps {Q : Mark} {s : State} (kp : Keeps Q s) (bs : List Byte) (z0 : Nat) :
    Keeps Q (State.creditSlots s bs z0) := by
  induction z0 generalizing s bs with
  | zero => simpa [State.creditSlots] using kp
  | succ k ih =>
    simp only [State.creditSlots]
    split
    · exact kp
    · refine ih ?_ _
      split <;> simp [*]

@[simp] theorem State.cellIn_keeps {Q : Mark} {s : State} (kp : Keeps Q s) (g : Nat) (c : Cell) :
    Keeps Q (State.cellIn s g c) := by
  unfold State.cellIn
  try dsimp only
  repeat' (first
    | (simp +contextual (maxDischargeDepth := 60) [*]; done)
    | split
    | intro _
    | refine State.each_keeps _ _ (fun _ _ _ => ?_) ?_)

@[simp] theorem State.grpTake_keeps {Q : Mark} {s : State} (kp : Keeps Q s) (g : Nat) (z0 : Nat) :
    Keeps Q (State.grpTake s g z0) := by
  induction z0 generalizing s with
  | zero => exact kp
  | succ n ih =>
    simp only [State.grpTake]
    split
    · exact kp
    · split
      · exact ih (State.setGroup_keeps kp _ _)
      · split
        · exact kp
        · refine ih ?_
          split
          · exact State.setLane_keeps kp _ _
          · exact State.setGroup_keeps (State.setLane_keeps kp _ _) _ _
        · split
          · refine ih ?_
            split
            · exact State.cellIn_keeps (State.setGroup_keeps (State.setLane_keeps kp _ _) _ _) _ _
            · exact State.setGroup_keeps (State.setLane_keeps kp _ _) _ _
          · exact ih (State.setLane_keeps kp _ _)

@[simp] theorem State.lanePut_keeps {Q : Mark} {s : State} (kp : Keeps Q s) (l : Nat) (i : RxItem) :
    Keeps Q (State.lanePut s l i) := by
  unfold State.lanePut
  try dsimp only
  repeat' (first
    | (simp +contextual (maxDischargeDepth := 60) [*]; done)
    | split
    | intro _
    | refine State.each_keeps _ _ (fun _ _ _ => ?_) ?_)

@[simp] theorem State.markerMiss_keeps {Q : Mark} {s : State} (kp : Keeps Q s) (l : Nat) :
    Keeps Q (State.markerMiss s l) := by
  unfold State.markerMiss
  try dsimp only
  repeat' (first
    | (simp +contextual (maxDischargeDepth := 60) [*]; done)
    | split
    | intro _
    | refine State.each_keeps _ _ (fun _ _ _ => ?_) ?_)

@[simp] theorem State.markerGood_keeps {Q : Mark} {s : State} (kp : Keeps Q s) (l g : Nat) (m : Marker) (mirrored : Bool) :
    Keeps Q (State.markerGood s l g m mirrored) := by
  unfold State.markerGood
  try dsimp only
  repeat' (first
    | (simp +contextual (maxDischargeDepth := 60) [*]; done)
    | split
    | intro _
    | refine State.each_keeps _ _ (fun _ _ _ => ?_) ?_)

@[simp] theorem State.laneMarker_keeps {Q : Mark} {s : State} (kp : Keeps Q s) (l : Nat) (bs : List Byte) (mirrored : Bool) (skip : Nat) (cws : List (Nat × Bool)) :
    Keeps Q (State.laneMarker s l bs mirrored skip cws) := by
  unfold State.laneMarker
  try dsimp only
  repeat' (first
    | (simp +contextual (maxDischargeDepth := 60) [*]; done)
    | split
    | intro _
    | refine State.each_keeps _ _ (fun _ _ _ => ?_) ?_)

theorem execLaneMarker_keeps {Q : Mark} {s : State} (kp : Keeps Q s) (l : Fin 64) (bytes : List Byte) (mirrored : Bool) (skip : Nat) (cws : List (Nat × Bool)) (at' : Raw) :
    KeepsO Q (execLaneMarker l bytes mirrored skip cws at' s) := by
  unfold execLaneMarker
  try dsimp only
  repeat' (first
    | (simp +contextual (maxDischargeDepth := 60) [*]; done)
    | split
    | intro _
    | refine State.each_keeps _ _ (fun _ _ _ => ?_) ?_)

@[simp] theorem State.descrambled_keeps {Q : Mark} {s : State} (kp : Keeps Q s) (l : Nat) (bs : List Byte) :
    Keeps Q (State.descrambled s l bs).2 := by
  unfold State.descrambled
  try dsimp only
  repeat' (first
    | (simp +contextual (maxDischargeDepth := 60) [*]; done)
    | split
    | intro _
    | refine State.each_keeps _ _ (fun _ _ _ => ?_) ?_)

@[simp] theorem State.candidateCell_keeps {Q : Mark} {s : State} (kp : Keeps Q s) (l : Nat) (bs : List Byte) (hit : Bool) :
    Keeps Q (State.candidateCell s l bs hit) := by
  unfold State.candidateCell
  try dsimp only
  repeat' (first
    | (simp +contextual (maxDischargeDepth := 60) [*]; done)
    | split
    | intro _
    | refine State.each_keeps _ _ (fun _ _ _ => ?_) ?_)

@[simp] theorem State.delineate_keeps {Q : Mark} {s : State} (kp : Keeps Q s) (l : Nat) (bs : List Byte) (skip : Nat) (cws : List (Nat × Bool)) :
    Keeps Q (State.delineate s l bs skip cws) := by
  unfold State.delineate
  try dsimp only
  repeat' (first
    | (simp +contextual (maxDischargeDepth := 60) [*]; done)
    | split
    | intro _
    | refine State.each_keeps _ _ (fun _ _ _ => ?_) ?_)

theorem execCellDelineation_keeps {Q : Mark} {s : State} (kp : Keeps Q s) (l : Fin 64) (bytes : List Byte) (skip : Nat) (cws : List (Nat × Bool)) :
    KeepsO Q (execCellDelineation l bytes skip cws s) := by
  unfold execCellDelineation
  try dsimp only
  repeat' (first
    | (simp +contextual (maxDischargeDepth := 60) [*]; done)
    | split
    | intro _
    | refine State.each_keeps _ _ (fun _ _ _ => ?_) ?_)

@[simp] theorem State.loopIn_keeps {Q : Mark} {s : State} (kp : Keeps Q s) (l : Nat) (z0 : List (List Byte)) :
    Keeps Q (State.loopIn s l z0) := by
  fun_induction State.loopIn <;> simp_all (maxDischargeDepth := 60)

@[simp] theorem State.loopFeed_keeps {Q : Mark} {s : State} (kp : Keeps Q s) (g : Nat) :
    Keeps Q (State.loopFeed s g) := by
  unfold State.loopFeed
  try dsimp only
  repeat' (first
    | (simp +contextual (maxDischargeDepth := 60) [*]; done)
    | split
    | intro _
    | refine State.each_keeps _ _ (fun _ _ _ => ?_) ?_)

theorem execCellTransmit_keeps {Q : Mark} {s : State} (kp : Keeps Q s) (g : Fin 16) (at' : Raw) :
    KeepsO Q (execCellTransmit g at' s) := by
  unfold execCellTransmit
  try dsimp only
  repeat' (first
    | (simp +contextual (maxDischargeDepth := 60) [*]; done)
    | split
    | intro _
    | refine State.each_keeps _ _ (fun _ _ _ => ?_) ?_)

theorem execMarkerInsert_keeps {Q : Mark} {s : State} (kp : Keeps Q s) (g : Fin 16) :
    KeepsO Q (execMarkerInsert g s) := by
  unfold execMarkerInsert
  try dsimp only
  repeat' (first
    | (simp +contextual (maxDischargeDepth := 60) [*]; done)
    | split
    | intro _
    | refine State.each_keeps _ _ (fun _ _ _ => ?_) ?_)

@[simp] theorem State.reachWrite_keeps {Q : Mark} {s : State} (kp : Keeps Q s) (d : Nat) (v : Word) :
    Keeps Q (State.reachWrite s d v) := by
  unfold State.reachWrite
  try dsimp only
  repeat' (first
    | (simp +contextual (maxDischargeDepth := 60) [*]; done)
    | split
    | intro _
    | refine State.each_keeps _ _ (fun _ _ _ => ?_) ?_)

theorem execReachWrite_keeps {Q : Mark} {s : State} (kp : Keeps Q s) (d : Fin 1024) (val : Word) :
    KeepsO Q (execReachWrite d val s) := by
  unfold execReachWrite
  try dsimp only
  repeat' (first
    | (simp +contextual (maxDischargeDepth := 60) [*]; done)
    | split
    | intro _
    | refine State.each_keeps _ _ (fun _ _ _ => ?_) ?_)

@[simp] theorem State.drainEnd_keeps {Q : Mark} {s : State} (kp : Keeps Q s) (d : Nat) :
    Keeps Q (State.drainEnd s d) := by
  unfold State.drainEnd
  try dsimp only
  repeat' (first
    | (simp +contextual (maxDischargeDepth := 60) [*]; done)
    | split
    | intro _
    | refine State.each_keeps _ _ (fun _ _ _ => ?_) ?_)

theorem execDrainEnd_keeps {Q : Mark} {s : State} (kp : Keeps Q s) (d : Fin 1024) (at' : Raw) :
    KeepsO Q (execDrainEnd d at' s) := by
  unfold execDrainEnd
  try dsimp only
  repeat' (first
    | (simp +contextual (maxDischargeDepth := 60) [*]; done)
    | split
    | intro _
    | refine State.each_keeps _ _ (fun _ _ _ => ?_) ?_)

@[simp] theorem State.withDrains_keeps {Q : Mark} {s : State} (kp : Keeps Q s) (f : State → State) (hf : ∀ t, Keeps Q t → Keeps Q (f  t)) :
    Keeps Q (State.withDrains s f) := by
  unfold State.withDrains
  try dsimp only
  repeat' (first
    | (simp +contextual (maxDischargeDepth := 60) [*]; done)
    | split
    | intro _
    | refine State.each_keeps _ _ (fun _ _ _ => ?_) ?_)

@[simp] theorem State.rhbCtrlWrite_keeps {Q : Mark} {s : State} (kp : Keeps Q s) (v : Word) :
    Keeps Q (State.rhbCtrlWrite s v) := by
  unfold State.rhbCtrlWrite
  try dsimp only
  repeat' (first
    | (simp +contextual (maxDischargeDepth := 60) [*]; done)
    | split
    | intro _
    | refine State.each_keeps _ _ (fun _ _ _ => ?_) ?_)

theorem execDevIdWrite_keeps {Q : Mark} {s : State} (kp : Keeps Q s) (val : Word) :
    KeepsO Q (execDevIdWrite val s) := by
  unfold execDevIdWrite
  try dsimp only
  repeat' (first
    | (simp +contextual (maxDischargeDepth := 60) [*]; done)
    | split
    | intro _
    | refine State.each_keeps _ _ (fun _ _ _ => ?_) ?_)

@[simp] theorem State.grpCfgWrite_keeps {Q : Mark} {s : State} (kp : Keeps Q s) (g : Nat) (v : Word) :
    Keeps Q (State.grpCfgWrite s g v) := by
  unfold State.grpCfgWrite
  try dsimp only
  repeat' (first
    | (simp +contextual (maxDischargeDepth := 60) [*]; done)
    | split
    | intro _
    | refine State.each_keeps _ _ (fun _ _ _ => ?_) ?_)

end Sys2Proof.Machine
end

