-- ==== Sys2Proof/Laws/KeepPortOps.lean ====
section
/-!
SUPPORT. Laws/KeepPortOps.lean: the operations of Machine/PortOps.lean keep what Laws/Keep.lean lists.
-/
set_option linter.unreachableTactic false
set_option linter.unusedTactic false
set_option linter.unusedSimpArgs false
set_option linter.unusedVariables false

namespace Sys2Proof.Machine

@[simp] theorem State.cageChanged_keeps {Q : Mark} {s : State} (kp : Keeps Q s) (ch : Nat) :
    Keeps Q (State.cageChanged s ch) := by
  unfold State.cageChanged
  try dsimp only
  repeat' (first
    | (simp +contextual (maxDischargeDepth := 60) [*]; done)
    | split
    | intro _
    | refine State.each_keeps _ _ (fun _ _ _ => ?_) ?_)

@[simp] theorem State.ponLanesLost_keeps {Q : Mark} {s : State} (kp : Keeps Q s) :
    Keeps Q (State.ponLanesLost s) := by
  unfold State.ponLanesLost
  try dsimp only
  repeat' (first
    | (simp +contextual (maxDischargeDepth := 60) [*]; done)
    | split
    | intro _
    | refine State.each_keeps _ _ (fun _ _ _ => ?_) ?_)

@[simp] theorem State.ethLanesLost_keeps {Q : Mark} {s : State} (kp : Keeps Q s) :
    Keeps Q (State.ethLanesLost s) := by
  unfold State.ethLanesLost
  try dsimp only
  repeat' (first
    | (simp +contextual (maxDischargeDepth := 60) [*]; done)
    | split
    | intro _
    | refine State.each_keeps _ _ (fun _ _ _ => ?_) ?_)

@[simp] theorem State.refLost_keeps {Q : Mark} {s : State} (kp : Keeps Q s) (which : Nat) :
    Keeps Q (State.refLost s which) := by
  unfold State.refLost
  try dsimp only
  repeat' (first
    | (simp +contextual (maxDischargeDepth := 60) [*]; done)
    | split
    | intro _
    | refine State.each_keeps _ _ (fun _ _ _ => ?_) ?_)

end Sys2Proof.Machine
end

