-- ==== Sys2Proof/Laws/KeepPower.lean ====
section
/-!
SUPPORT. Laws/KeepPower.lean: the operations of Machine/Power.lean keep what Laws/Keep.lean lists.
-/
set_option linter.unreachableTactic false
set_option linter.unusedTactic false
set_option linter.unusedSimpArgs false
set_option linter.unusedVariables false

namespace Sys2Proof.Machine

@[simp] theorem State.showPowerFail_keeps {Q : Mark} {s : State} (kp : Keeps Q s) :
    Keeps Q (State.showPowerFail s) := by
  unfold State.showPowerFail
  try dsimp only
  repeat' (first
    | (simp +contextual (maxDischargeDepth := 60) [*]; done)
    | split
    | intro _
    | refine State.each_keeps _ _ (fun _ _ _ => ?_) ?_)

@[simp] theorem State.showVin_keeps {Q : Mark} {s : State} (kp : Keeps Q s) (mv : Nat) :
    Keeps Q (State.showVin s mv) := by
  unfold State.showVin
  try dsimp only
  repeat' (first
    | (simp +contextual (maxDischargeDepth := 60) [*]; done)
    | split
    | intro _
    | refine State.each_keeps _ _ (fun _ _ _ => ?_) ?_)

@[simp] theorem State.powerFailFall_keeps {Q : Mark} {s : State} (kp : Keeps Q s) (board : Bool) :
    Keeps Q (State.powerFailFall s board) := by
  unfold State.powerFailFall
  try dsimp only
  repeat' (first
    | (simp +contextual (maxDischargeDepth := 60) [*]; done)
    | split
    | intro _
    | refine State.each_keeps _ _ (fun _ _ _ => ?_) ?_)

theorem execPowerFailNFall_keeps {Q : Mark} {s : State} (kp : Keeps Q s) (board : Bool) :
    KeepsO Q (execPowerFailNFall board s) := by
  unfold execPowerFailNFall
  try dsimp only
  repeat' (first
    | (simp +contextual (maxDischargeDepth := 60) [*]; done)
    | split
    | intro _
    | refine State.each_keeps _ _ (fun _ _ _ => ?_) ?_)

@[simp] theorem State.drivePowerFail_keeps {Q : Mark} {s : State} (kp : Keeps Q s) :
    Keeps Q (State.drivePowerFail s) := by
  unfold State.drivePowerFail
  try dsimp only
  repeat' (first
    | (simp +contextual (maxDischargeDepth := 60) [*]; done)
    | split
    | intro _
    | refine State.each_keeps _ _ (fun _ _ _ => ?_) ?_)

@[simp] theorem State.railRemoval_keeps {Q : Mark} {s : State} (kp : Keeps Q s) (next : BinPhase) :
    Keeps Q (State.railRemoval s next) := by
  unfold State.railRemoval
  have k0 : Keeps Q (s.railsFall.foldl State.emit s) := Keeps.foldl _ _ (fun _ _ h => State.emit_keeps h _) kp
  have k1 := State.wr_keeps (State.coldReset_keeps k0 0) Reg.devResetCause 0
  refine State.setFld_keeps ?_ _ _ _ _
  exact k1

@[simp] theorem State.coldBoot_keeps {Q : Mark} {s : State} (kp : Keeps Q s) (cause : Word) :
    Keeps Q (State.coldBoot s cause) := by
  unfold State.coldBoot
  try dsimp only
  repeat' (first
    | (simp +contextual (maxDischargeDepth := 60) [*]; done)
    | split
    | intro _
    | refine State.each_keeps _ _ (fun _ _ _ => ?_) ?_)

@[simp] theorem State.vinRise_keeps {Q : Mark} {s : State} (kp : Keeps Q s) (mv : Nat) (copies : List FwCopy) :
    Keeps Q (State.vinRise s mv copies) := by
  unfold State.vinRise
  try dsimp only
  repeat' (first
    | (simp +contextual (maxDischargeDepth := 60) [*]; done)
    | split
    | intro _
    | refine State.each_keeps _ _ (fun _ _ _ => ?_) ?_)

theorem execVinRise_keeps {Q : Mark} {s : State} (kp : Keeps Q s) (mv : Nat) (copyA : Option FwCopy) (copyB : Option FwCopy) :
    KeepsO Q (execVinRise mv copyA copyB s) := by
  unfold execVinRise
  try dsimp only
  repeat' (first
    | (simp +contextual (maxDischargeDepth := 60) [*]; done)
    | split
    | intro _
    | refine State.each_keeps _ _ (fun _ _ _ => ?_) ?_)

@[simp] theorem State.vinDroop_keeps {Q : Mark} {s : State} (kp : Keeps Q s) (mv ns : Nat) :
    Keeps Q (State.vinDroop s mv ns) := by
  unfold State.vinDroop
  try dsimp only
  repeat' (first
    | (simp +contextual (maxDischargeDepth := 60) [*]; done)
    | split
    | intro _
    | refine State.each_keeps _ _ (fun _ _ _ => ?_) ?_)

theorem execVinDroop_keeps {Q : Mark} {s : State} (kp : Keeps Q s) (mv : Nat) (ns : Nat) :
    KeepsO Q (execVinDroop mv ns s) := by
  unfold execVinDroop
  try dsimp only
  repeat' (first
    | (simp +contextual (maxDischargeDepth := 60) [*]; done)
    | split
    | intro _
    | refine State.each_keeps _ _ (fun _ _ _ => ?_) ?_)

@[simp] theorem State.vinRecover_keeps {Q : Mark} {s : State} (kp : Keeps Q s) (mv ms : Nat) (board : Bool) :
    Keeps Q (State.vinRecover s mv ms board) := by
  unfold State.vinRecover
  try dsimp only
  repeat' (first
    | (simp +contextual (maxDischargeDepth := 60) [*]; done)
    | split
    | intro _
    | refine State.each_keeps _ _ (fun _ _ _ => ?_) ?_)

theorem execVinRecover_keeps {Q : Mark} {s : State} (kp : Keeps Q s) (mv : Nat) (ms : Nat) (board : Bool) :
    KeepsO Q (execVinRecover mv ms board s) := by
  unfold execVinRecover
  try dsimp only
  repeat' (first
    | (simp +contextual (maxDischargeDepth := 60) [*]; done)
    | split
    | intro _
    | refine State.each_keeps _ _ (fun _ _ _ => ?_) ?_)

@[simp] theorem State.vinLoss_keeps {Q : Mark} {s : State} (kp : Keeps Q s) (mv us : Nat) :
    Keeps Q (State.vinLoss s mv us) := by
  unfold State.vinLoss
  try dsimp only
  repeat' (first
    | (simp +contextual (maxDischargeDepth := 60) [*]; done)
    | split
    | intro _
    | refine State.each_keeps _ _ (fun _ _ _ => ?_) ?_)

theorem execVinLoss_keeps {Q : Mark} {s : State} (kp : Keeps Q s) (mv : Nat) (us : Nat) :
    KeepsO Q (execVinLoss mv us s) := by
  unfold execVinLoss
  try dsimp only
  repeat' (first
    | (simp +contextual (maxDischargeDepth := 60) [*]; done)
    | split
    | intro _
    | refine State.each_keeps _ _ (fun _ _ _ => ?_) ?_)

@[simp] theorem State.binLoss_keeps {Q : Mark} {s : State} (kp : Keeps Q s) :
    Keeps Q (State.binLoss s) := by
  unfold State.binLoss
  refine And.intro kp.1 ⟨kp.2.1, fun k => ⟨?_, ?_, (kp.2.2.1 k).2.2⟩, kp.2.2.2⟩
  · exact SMap.wf_keep resetOf (fun a => !pwrKept a) s.regs (kp.2.2.1 k).1
  · exact SMap.wf_keep resetOf (fun a => !pwrKept a) s.hold (kp.2.2.1 k).2.1

@[simp] theorem State.vinStop_keeps {Q : Mark} {s : State} (kp : Keeps Q s) (mv : Nat) :
    Keeps Q (State.vinStop s mv) := by
  unfold State.vinStop
  try dsimp only
  repeat' (first
    | (simp +contextual (maxDischargeDepth := 60) [*]; done)
    | split
    | intro _
    | refine State.each_keeps _ _ (fun _ _ _ => ?_) ?_)

theorem execVinBelowStop_keeps {Q : Mark} {s : State} (kp : Keeps Q s) (mv : Nat) :
    KeepsO Q (execVinBelowStop mv s) := by
  unfold execVinBelowStop
  try dsimp only
  repeat' (first
    | (simp +contextual (maxDischargeDepth := 60) [*]; done)
    | split
    | intro _
    | refine State.each_keeps _ _ (fun _ _ _ => ?_) ?_)

@[simp] theorem State.refclkCheck_keeps {Q : Mark} {s : State} (kp : Keeps Q s) (ponPpm ethPpm pciePpm : Int) :
    Keeps Q (State.refclkCheck s ponPpm ethPpm pciePpm) := by
  unfold State.refclkCheck
  try dsimp only
  repeat' (first
    | (simp +contextual (maxDischargeDepth := 60) [*]; done)
    | split
    | intro _
    | refine State.each_keeps _ _ (fun _ _ _ => ?_) ?_)

theorem execRefclkCheck_keeps {Q : Mark} {s : State} (kp : Keeps Q s) (pon : Int) (eth : Int) (pcie : Int) :
    KeepsO Q (execRefclkCheck pon eth pcie s) := by
  unfold execRefclkCheck
  try dsimp only
  repeat' (first
    | (simp +contextual (maxDischargeDepth := 60) [*]; done)
    | split
    | intro _
    | refine State.each_keeps _ _ (fun _ _ _ => ?_) ?_)

@[simp] theorem State.railGood_keeps {Q : Mark} {s : State} (kp : Keeps Q s) (k us : Nat) :
    Keeps Q (State.railGood s k us) := by
  unfold State.railGood
  try dsimp only
  repeat' (first
    | (simp +contextual (maxDischargeDepth := 60) [*]; done)
    | split
    | intro _
    | refine State.each_keeps _ _ (fun _ _ _ => ?_) ?_)

theorem execRailPowerGood_keeps {Q : Mark} {s : State} (kp : Keeps Q s) (k : Fin 7) (us : Nat) :
    KeepsO Q (execRailPowerGood k us s) := by
  unfold execRailPowerGood
  try dsimp only
  repeat' (first
    | (simp +contextual (maxDischargeDepth := 60) [*]; done)
    | split
    | intro _
    | refine State.each_keeps _ _ (fun _ _ _ => ?_) ?_)

@[simp] theorem State.startRailFault_keeps {Q : Mark} {s : State} (kp : Keeps Q s) (k ms : Nat) :
    Keeps Q (State.startRailFault s k ms) := by
  unfold State.startRailFault
  try dsimp only
  repeat' (first
    | (simp +contextual (maxDischargeDepth := 60) [*]; done)
    | split
    | intro _
    | refine State.each_keeps _ _ (fun _ _ _ => ?_) ?_)

theorem execStartupRailFault_keeps {Q : Mark} {s : State} (kp : Keeps Q s) (k : Fin 7) (ms : Nat) :
    KeepsO Q (execStartupRailFault k ms s) := by
  unfold execStartupRailFault
  try dsimp only
  repeat' (first
    | (simp +contextual (maxDischargeDepth := 60) [*]; done)
    | split
    | intro _
    | refine State.each_keeps _ _ (fun _ _ _ => ?_) ?_)

@[simp] theorem State.railFault_keeps {Q : Mark} {s : State} (kp : Keeps Q s) (k us binMs : Nat) :
    Keeps Q (State.railFault s k us binMs) := by
  unfold State.railFault
  try dsimp only
  repeat' (first
    | (simp +contextual (maxDischargeDepth := 60) [*]; done)
    | split
    | intro _
    | refine State.each_keeps _ _ (fun _ _ _ => ?_) ?_)

theorem execRailFault_keeps {Q : Mark} {s : State} (kp : Keeps Q s) (k : Fin 7) (us : Nat) (binMs : Nat) :
    KeepsO Q (execRailFault k us binMs s) := by
  unfold execRailFault
  try dsimp only
  repeat' (first
    | (simp +contextual (maxDischargeDepth := 60) [*]; done)
    | split
    | intro _
    | refine State.each_keeps _ _ (fun _ _ _ => ?_) ?_)

@[simp] theorem State.faultRemoval_keeps {Q : Mark} {s : State} (kp : Keeps Q s) :
    Keeps Q (State.faultRemoval s) := by
  unfold State.faultRemoval
  try dsimp only
  repeat' (first
    | (simp +contextual (maxDischargeDepth := 60) [*]; done)
    | split
    | intro _
    | refine State.each_keeps _ _ (fun _ _ _ => ?_) ?_)

@[simp] theorem State.powerRestart_keeps {Q : Mark} {s : State} (kp : Keeps Q s) (ms : Nat) :
    Keeps Q (State.powerRestart s ms) := by
  unfold State.powerRestart
  try dsimp only
  repeat' (first
    | (simp +contextual (maxDischargeDepth := 60) [*]; done)
    | split
    | intro _
    | refine State.each_keeps _ _ (fun _ _ _ => ?_) ?_)

theorem execPowerRestart_keeps {Q : Mark} {s : State} (kp : Keeps Q s) (ms : Nat) :
    KeepsO Q (execPowerRestart ms s) := by
  unfold execPowerRestart
  try dsimp only
  repeat' (first
    | (simp +contextual (maxDischargeDepth := 60) [*]; done)
    | split
    | intro _
    | refine State.each_keeps _ _ (fun _ _ _ => ?_) ?_)

theorem execBinnacleWatchdog_keeps {Q : Mark} {s : State} (kp : Keeps Q s) (ms : Nat) :
    KeepsO Q (execBinnacleWatchdog ms s) := by
  unfold execBinnacleWatchdog
  try dsimp only
  repeat' (first
    | (simp +contextual (maxDischargeDepth := 60) [*]; done)
    | split
    | intro _
    | refine State.each_keeps _ _ (fun _ _ _ => ?_) ?_)

theorem execBinnacleSignalReturn_keeps {Q : Mark} {s : State} (kp : Keeps Q s) :
    KeepsO Q (execBinnacleSignalReturn s) := by
  unfold execBinnacleSignalReturn
  try dsimp only
  repeat' (first
    | (simp +contextual (maxDischargeDepth := 60) [*]; done)
    | split
    | intro _
    | refine State.each_keeps _ _ (fun _ _ _ => ?_) ?_)

theorem execRefclkLoss_keeps {Q : Mark} {s : State} (kp : Keeps Q s) (which : Fin 3) :
    KeepsO Q (execRefclkLoss which s) := by
  unfold execRefclkLoss
  try dsimp only
  repeat' (first
    | (simp +contextual (maxDischargeDepth := 60) [*]; done)
    | split
    | intro _
    | refine State.each_keeps _ _ (fun _ _ _ => ?_) ?_)

@[simp] theorem State.avcUpdate_keeps {Q : Mark} {s : State} (kp : Keeps Q s) (want : Nat) (lost : Bool) :
    Keeps Q (State.avcUpdate s want lost) := by
  unfold State.avcUpdate
  try dsimp only
  repeat' (first
    | (simp +contextual (maxDischargeDepth := 60) [*]; done)
    | split
    | intro _
    | refine State.each_keeps _ _ (fun _ _ _ => ?_) ?_)

theorem execAvcUpdate_keeps {Q : Mark} {s : State} (kp : Keeps Q s) (want : Nat) (lost : Bool) :
    KeepsO Q (execAvcUpdate want lost s) := by
  unfold execAvcUpdate
  try dsimp only
  repeat' (first
    | (simp +contextual (maxDischargeDepth := 60) [*]; done)
    | split
    | intro _
    | refine State.each_keeps _ _ (fun _ _ _ => ?_) ?_)

@[simp] theorem State.tempShow_keeps {Q : Mark} {s : State} (kp : Keeps Q s) (sensor : Nat) (t : Option Int) :
    Keeps Q (State.tempShow s sensor t) := by
  unfold State.tempShow
  try dsimp only
  repeat' (first
    | (simp +contextual (maxDischargeDepth := 60) [*]; done)
    | split
    | intro _
    | refine State.each_keeps _ _ (fun _ _ _ => ?_) ?_)

@[simp] theorem State.temperature_keeps {Q : Mark} {s : State} (kp : Keeps Q s) (t : List (Option Int)) :
    Keeps Q (State.temperature s t) := by
  unfold State.temperature
  try dsimp only
  repeat' (first
    | (simp +contextual (maxDischargeDepth := 60) [*]; done)
    | split
    | intro _
    | refine State.each_keeps _ _ (fun _ _ _ => ?_) ?_)

theorem execTemperatureSample_keeps {Q : Mark} {s : State} (kp : Keeps Q s) (t : List (Option Int)) :
    KeepsO Q (execTemperatureSample t s) := by
  unfold execTemperatureSample
  try dsimp only
  repeat' (first
    | (simp +contextual (maxDischargeDepth := 60) [*]; done)
    | split
    | intro _
    | refine State.each_keeps _ _ (fun _ _ _ => ?_) ?_)

theorem execThermalShutdown_keeps {Q : Mark} {s : State} (kp : Keeps Q s) (sensor : Fin 3) (t : Int) :
    KeepsO Q (execThermalShutdown sensor t s) := by
  unfold execThermalShutdown
  try dsimp only
  repeat' (first
    | (simp +contextual (maxDischargeDepth := 60) [*]; done)
    | split
    | intro _
    | refine State.each_keeps _ _ (fun _ _ _ => ?_) ?_)

@[simp] theorem State.setCage_keeps {Q : Mark} {s : State} (kp : Keeps Q s) (ch : Nat) (c : Cage) :
    Keeps Q (State.setCage s ch c) := by
  unfold State.setCage
  try dsimp only
  repeat' (first
    | (simp +contextual (maxDischargeDepth := 60) [*]; done)
    | split
    | intro _
    | refine State.each_keeps _ _ (fun _ _ _ => ?_) ?_)

@[simp] theorem State.cageFollow_keeps {Q : Mark} {s : State} (kp : Keeps Q s) (ch : Nat) :
    Keeps Q (State.cageFollow s ch) := by
  unfold State.cageFollow
  try dsimp only
  repeat' (first
    | (simp +contextual (maxDischargeDepth := 60) [*]; done)
    | split
    | intro _
    | refine State.each_keeps _ _ (fun _ _ _ => ?_) ?_)

@[simp] theorem State.cageClear_keeps {Q : Mark} {s : State} (kp : Keeps Q s) (ch : Nat) :
    Keeps Q (State.cageClear s ch) := by
  unfold State.cageClear
  try dsimp only
  repeat' (first
    | (simp +contextual (maxDischargeDepth := 60) [*]; done)
    | split
    | intro _
    | refine State.each_keeps _ _ (fun _ _ _ => ?_) ?_)

@[simp] theorem State.cageWrite_keeps {Q : Mark} {s : State} (kp : Keeps Q s) (ch : Nat) (v : Word) :
    Keeps Q (State.cageWrite s ch v) := by
  unfold State.cageWrite
  try dsimp only
  repeat' (first
    | (simp +contextual (maxDischargeDepth := 60) [*]; done)
    | split
    | intro _
    | refine State.each_keeps _ _ (fun _ _ _ => ?_) ?_)

theorem execCageEnable_keeps {Q : Mark} {s : State} (kp : Keeps Q s) (ch : Fin 72) (val : Word) :
    KeepsO Q (execCageEnable ch val s) := by
  unfold execCageEnable
  try dsimp only
  repeat' (first
    | (simp +contextual (maxDischargeDepth := 60) [*]; done)
    | split
    | intro _
    | refine State.each_keeps _ _ (fun _ _ _ => ?_) ?_)

theorem execCageDisable_keeps {Q : Mark} {s : State} (kp : Keeps Q s) (ch : Fin 72) (val : Word) :
    KeepsO Q (execCageDisable ch val s) := by
  unfold execCageDisable
  try dsimp only
  repeat' (first
    | (simp +contextual (maxDischargeDepth := 60) [*]; done)
    | split
    | intro _
    | refine State.each_keeps _ _ (fun _ _ _ => ?_) ?_)

theorem execCageClear_keeps {Q : Mark} {s : State} (kp : Keeps Q s) (ch : Fin 72) (val : Word) :
    KeepsO Q (execCageClear ch val s) := by
  unfold execCageClear
  try dsimp only
  repeat' (first
    | (simp +contextual (maxDischargeDepth := 60) [*]; done)
    | split
    | intro _
    | refine State.each_keeps _ _ (fun _ _ _ => ?_) ?_)

@[simp] theorem State.cageMeasured_keeps {Q : Mark} {s : State} (kp : Keeps Q s) (ch : Nat) (uv : Int) (f : Int → State → State) (hf : ∀ x0 t, Keeps Q t → Keeps Q (f x0 t)) :
    Keeps Q (State.cageMeasured s ch uv f) := by
  unfold State.cageMeasured
  try dsimp only
  repeat' (first
    | (simp +contextual (maxDischargeDepth := 60) [*]; done)
    | split
    | intro _
    | refine State.each_keeps _ _ (fun _ _ _ => ?_) ?_)

@[simp] theorem State.cageTrip_keeps {Q : Mark} {s : State} (kp : Keeps Q s) (ch : Nat) (ma : Int) :
    Keeps Q (State.cageTrip s ch ma) := by
  unfold State.cageTrip
  try dsimp only
  repeat' (first
    | (simp +contextual (maxDischargeDepth := 60) [*]; done)
    | split
    | intro _
    | refine State.each_keeps _ _ (fun _ _ _ => ?_) ?_)

theorem execCageTrip_keeps {Q : Mark} {s : State} (kp : Keeps Q s) (ch : Fin 72) (uv : Int) :
    KeepsO Q (execCageTrip ch uv s) := by
  unfold execCageTrip
  try dsimp only
  repeat' (first
    | (simp +contextual (maxDischargeDepth := 60) [*]; done)
    | split
    | intro _
    | refine State.each_keeps _ _ (fun _ _ _ => ?_) ?_)

theorem execCageOverload_keeps {Q : Mark} {s : State} (kp : Keeps Q s) (ch : Fin 72) (uv : Int) (ms : Nat) :
    KeepsO Q (execCageOverload ch uv ms s) := by
  unfold execCageOverload
  try dsimp only
  repeat' (first
    | (simp +contextual (maxDischargeDepth := 60) [*]; done)
    | split
    | intro _
    | refine State.each_keeps _ _ (fun _ _ _ => ?_) ?_)

theorem execCageStartComplete_keeps {Q : Mark} {s : State} (kp : Keeps Q s) (ch : Fin 72) (us : Nat) :
    KeepsO Q (execCageStartComplete ch us s) := by
  unfold execCageStartComplete
  try dsimp only
  repeat' (first
    | (simp +contextual (maxDischargeDepth := 60) [*]; done)
    | split
    | intro _
    | refine State.each_keeps _ _ (fun _ _ _ => ?_) ?_)

theorem execCageRetryEnd_keeps {Q : Mark} {s : State} (kp : Keeps Q s) (ch : Fin 72) (ms : Nat) :
    KeepsO Q (execCageRetryEnd ch ms s) := by
  unfold execCageRetryEnd
  try dsimp only
  repeat' (first
    | (simp +contextual (maxDischargeDepth := 60) [*]; done)
    | split
    | intro _
    | refine State.each_keeps _ _ (fun _ _ _ => ?_) ?_)

theorem execCageRetriesClear_keeps {Q : Mark} {s : State} (kp : Keeps Q s) (ch : Fin 72) (ms : Nat) :
    KeepsO Q (execCageRetriesClear ch ms s) := by
  unfold execCageRetriesClear
  try dsimp only
  repeat' (first
    | (simp +contextual (maxDischargeDepth := 60) [*]; done)
    | split
    | intro _
    | refine State.each_keeps _ _ (fun _ _ _ => ?_) ?_)

theorem execCageReversed_keeps {Q : Mark} {s : State} (kp : Keeps Q s) (ch : Fin 72) (uv : Int) (us : Nat) :
    KeepsO Q (execCageReversed ch uv us s) := by
  unfold execCageReversed
  try dsimp only
  repeat' (first
    | (simp +contextual (maxDischargeDepth := 60) [*]; done)
    | split
    | intro _
    | refine State.each_keeps _ _ (fun _ _ _ => ?_) ?_)

theorem execCageOpen_keeps {Q : Mark} {s : State} (kp : Keeps Q s) (ch : Fin 72) (uv : Int) (ms : Nat) :
    KeepsO Q (execCageOpen ch uv ms s) := by
  unfold execCageOpen
  try dsimp only
  repeat' (first
    | (simp +contextual (maxDischargeDepth := 60) [*]; done)
    | split
    | intro _
    | refine State.each_keeps _ _ (fun _ _ _ => ?_) ?_)

theorem execCageOpenClear_keeps {Q : Mark} {s : State} (kp : Keeps Q s) (ch : Fin 72) (uv : Int) :
    KeepsO Q (execCageOpenClear ch uv s) := by
  unfold execCageOpenClear
  try dsimp only
  repeat' (first
    | (simp +contextual (maxDischargeDepth := 60) [*]; done)
    | split
    | intro _
    | refine State.each_keeps _ _ (fun _ _ _ => ?_) ?_)

end Sys2Proof.Machine
end

