-- ==== Sys2Proof/Laws/KeepModes.lean ====
section
/-!
SUPPORT. Laws/KeepModes.lean: the operations of Machine/Modes.lean keep what Laws/Keep.lean lists.
-/
set_option linter.unreachableTactic false
set_option linter.unusedTactic false
set_option linter.unusedSimpArgs false
set_option linter.unusedVariables false

namespace Sys2Proof.Machine

@[simp] theorem State.modeRequest_keeps {Q : Mark} {s : State} (kp : Keeps Q s) (req : Nat) :
    Keeps Q (State.modeRequest s req) := by
  unfold State.modeRequest
  try dsimp only
  repeat' (first
    | (simp +contextual (maxDischargeDepth := 60) [*]; done)
    | split
    | intro _
    | refine State.each_keeps _ _ (fun _ _ _ => ?_) ?_)

@[simp] theorem State.modeWrite_keeps {Q : Mark} {s : State} (kp : Keeps Q s) (v : Word) :
    Keeps Q (State.modeWrite s v) := by
  unfold State.modeWrite
  try dsimp only
  repeat' (first
    | (simp +contextual (maxDischargeDepth := 60) [*]; done)
    | split
    | intro _
    | refine State.each_keeps _ _ (fun _ _ _ => ?_) ?_)

theorem execModeRequest_keeps {Q : Mark} {s : State} (kp : Keeps Q s) (val : Word) :
    KeepsO Q (execModeRequest val s) := by
  unfold execModeRequest
  try dsimp only
  repeat' (first
    | (simp +contextual (maxDischargeDepth := 60) [*]; done)
    | split
    | intro _
    | refine State.each_keeps _ _ (fun _ _ _ => ?_) ?_)

theorem execSafeRequest_keeps {Q : Mark} {s : State} (kp : Keeps Q s) (val : Word) :
    KeepsO Q (execSafeRequest val s) := by
  unfold execSafeRequest
  try dsimp only
  repeat' (first
    | (simp +contextual (maxDischargeDepth := 60) [*]; done)
    | split
    | intro _
    | refine State.each_keeps _ _ (fun _ _ _ => ?_) ?_)

@[simp] theorem State.commBegin_keeps {Q : Mark} {s : State} (kp : Keeps Q s) (short : Bool) :
    Keeps Q (State.commBegin s short) := by
  unfold State.commBegin
  try dsimp only
  repeat' (first
    | (simp +contextual (maxDischargeDepth := 60) [*]; done)
    | split
    | intro _
    | refine State.each_keeps _ _ (fun _ _ _ => ?_) ?_)

@[simp] theorem State.stopAll_keeps {Q : Mark} {s : State} (kp : Keeps Q s) :
    Keeps Q (State.stopAll s) := by
  unfold State.stopAll
  try dsimp only
  repeat' (first
    | (simp +contextual (maxDischargeDepth := 60) [*]; done)
    | split
    | intro _
    | refine State.each_keeps _ _ (fun _ _ _ => ?_) ?_)

@[simp] theorem State.transTo_keeps {Q : Mark} {s : State} (kp : Keeps Q s) (m : Mode) (cause : Nat) :
    Keeps Q (State.transTo s m cause) := by
  unfold State.transTo
  try dsimp only
  repeat' (first
    | (simp +contextual (maxDischargeDepth := 60) [*]; done)
    | split
    | intro _
    | refine State.each_keeps _ _ (fun _ _ _ => ?_) ?_)

@[simp] theorem State.transEnd_keeps {Q : Mark} {s : State} (kp : Keeps Q s) :
    Keeps Q (State.transEnd s) := by
  unfold State.transEnd
  try dsimp only
  repeat' (first
    | (simp +contextual (maxDischargeDepth := 60) [*]; done)
    | split
    | intro _
    | refine State.each_keeps _ _ (fun _ _ _ => ?_) ?_)

theorem execModeTransitionComplete_keeps {Q : Mark} {s : State} (kp : Keeps Q s) (at' : Raw) :
    KeepsO Q (execModeTransitionComplete at' s) := by
  unfold execModeTransitionComplete
  try dsimp only
  repeat' (first
    | (simp +contextual (maxDischargeDepth := 60) [*]; done)
    | split
    | intro _
    | refine State.each_keeps _ _ (fun _ _ _ => ?_) ?_)

theorem execSafeGraceEnd_keeps {Q : Mark} {s : State} (kp : Keeps Q s) (at' : Raw) :
    KeepsO Q (execSafeGraceEnd at' s) := by
  unfold execSafeGraceEnd
  try dsimp only
  repeat' (first
    | (simp +contextual (maxDischargeDepth := 60) [*]; done)
    | split
    | intro _
    | refine State.each_keeps _ _ (fun _ _ _ => ?_) ?_)

theorem execFatalError_keeps {Q : Mark} {s : State} (kp : Keeps Q s) (src : Fin 4) :
    KeepsO Q (execFatalError src s) := by
  unfold execFatalError
  try dsimp only
  repeat' (first
    | (simp +contextual (maxDischargeDepth := 60) [*]; done)
    | split
    | intro _
    | refine State.each_keeps _ _ (fun _ _ _ => ?_) ?_)

@[simp] theorem State.startupEnd_keeps {Q : Mark} {s : State} (kp : Keeps Q s) (shaOk ecdsaOk : Bool) (boot : Option Nat) :
    Keeps Q (State.startupEnd s shaOk ecdsaOk boot) := by
  unfold State.startupEnd
  try dsimp only
  repeat' (first
    | (simp +contextual (maxDischargeDepth := 60) [*]; done)
    | split
    | intro _
    | refine State.each_keeps _ _ (fun _ _ _ => ?_) ?_)

theorem execStartupSelftestEnd_keeps {Q : Mark} {s : State} (kp : Keeps Q s) (shaOk : Bool) (ecdsaOk : Bool) (boot : Option Nat) :
    KeepsO Q (execStartupSelftestEnd shaOk ecdsaOk boot s) := by
  unfold execStartupSelftestEnd
  try dsimp only
  repeat' (first
    | (simp +contextual (maxDischargeDepth := 60) [*]; done)
    | split
    | intro _
    | refine State.each_keeps _ _ (fun _ _ _ => ?_) ?_)

@[simp] theorem State.commPhase1_keeps {Q : Mark} {s : State} (kp : Keeps Q s) (ok : Bool) :
    Keeps Q (State.commPhase1 s ok) := by
  unfold State.commPhase1
  try dsimp only
  repeat' (first
    | (simp +contextual (maxDischargeDepth := 60) [*]; done)
    | split
    | intro _
    | refine State.each_keeps _ _ (fun _ _ _ => ?_) ?_)

@[simp] theorem State.commPhase2_keeps {Q : Mark} {s : State} (kp : Keeps Q s) (ok : Bool) :
    Keeps Q (State.commPhase2 s ok) := by
  unfold State.commPhase2
  try dsimp only
  repeat' (first
    | (simp +contextual (maxDischargeDepth := 60) [*]; done)
    | split
    | intro _
    | refine State.each_keeps _ _ (fun _ _ _ => ?_) ?_)

@[simp] theorem State.commDone_keeps {Q : Mark} {s : State} (kp : Keeps Q s) :
    Keeps Q (State.commDone s) := by
  unfold State.commDone
  try dsimp only
  repeat' (first
    | (simp +contextual (maxDischargeDepth := 60) [*]; done)
    | split
    | intro _
    | refine State.each_keeps _ _ (fun _ _ _ => ?_) ?_)

@[simp] theorem State.commEnd_keeps {Q : Mark} {s : State} (kp : Keeps Q s) (ok : Bool) (failed : Option Nat) :
    Keeps Q (State.commEnd s ok failed) := by
  unfold State.commEnd
  try dsimp only
  repeat' (first
    | (simp +contextual (maxDischargeDepth := 60) [*]; done)
    | split
    | intro _
    | refine State.each_keeps _ _ (fun _ _ _ => ?_) ?_)

theorem execCommissioningPhaseEnd_keeps {Q : Mark} {s : State} (kp : Keeps Q s) (ok : Bool) (failedTest : Option (Fin 8)) :
    KeepsO Q (execCommissioningPhaseEnd ok failedTest s) := by
  unfold execCommissioningPhaseEnd
  try dsimp only
  repeat' (first
    | (simp +contextual (maxDischargeDepth := 60) [*]; done)
    | split
    | intro _
    | refine State.each_keeps _ _ (fun _ _ _ => ?_) ?_)

end Sys2Proof.Machine
end

