-- ==== Sys2Proof/Laws/KeepReset.lean ====
section
/-!
SUPPORT. Laws/KeepReset.lean: the operations of Machine/Reset.lean keep what Laws/Keep.lean lists.
-/
set_option linter.unreachableTactic false
set_option linter.unusedTactic false
set_option linter.unusedSimpArgs false
set_option linter.unusedVariables false

namespace Sys2Proof.Machine

@[simp] theorem State.eachOp_keeps {Q : Mark} {s : State} (kp : Keeps Q s) (l : List LongOp) (f : LongOp → State → State)
    (hf : ∀ o t, Keeps Q t → Keeps Q (f o t)) : Keeps Q (s.eachOp l f) := by
  induction l generalizing s with
  | nil => exact kp
  | cons o l ih => exact ih (hf o s kp)

@[simp] theorem State.warmPackets_keeps {Q : Mark} {s : State} (kp : Keeps Q s) :
    Keeps Q (State.warmPackets s) := by
  unfold State.warmPackets
  try dsimp only
  repeat' (first
    | (simp +contextual (maxDischargeDepth := 60) [*]; done)
    | split
    | intro _
    | refine State.each_keeps _ _ (fun _ _ _ => ?_) ?_)

@[simp] theorem State.warmPon_keeps {Q : Mark} {s : State} (kp : Keeps Q s) :
    Keeps Q (State.warmPon s) := by
  unfold State.warmPon
  try dsimp only
  repeat' (first
    | (simp +contextual (maxDischargeDepth := 60) [*]; done)
    | split
    | intro _
    | refine State.each_keeps _ _ (fun _ _ _ => ?_) ?_)

@[simp] theorem State.warmFabric_keeps {Q : Mark} {s : State} (kp : Keeps Q s) :
    Keeps Q (State.warmFabric s) := by
  unfold State.warmFabric
  try dsimp only
  repeat' (first
    | (simp +contextual (maxDischargeDepth := 60) [*]; done)
    | split
    | intro _
    | refine State.each_keeps _ _ (fun _ _ _ => ?_) ?_)

@[simp] theorem State.warmNet_keeps {Q : Mark} {s : State} (kp : Keeps Q s) :
    Keeps Q (State.warmNet s) := by
  unfold State.warmNet
  try dsimp only
  repeat' (first
    | (simp +contextual (maxDischargeDepth := 60) [*]; done)
    | split
    | intro _
    | refine State.each_keeps _ _ (fun _ _ _ => ?_) ?_)

@[simp] theorem State.warmTime_keeps {Q : Mark} {s : State} (kp : Keeps Q s) :
    Keeps Q (State.warmTime s) := by
  unfold State.warmTime
  try dsimp only
  repeat' (first
    | (simp +contextual (maxDischargeDepth := 60) [*]; done)
    | split
    | intro _
    | refine State.each_keeps _ _ (fun _ _ _ => ?_) ?_)

@[simp] theorem State.warmBanks_keeps {Q : Mark} {s : State} (kp : Keeps Q s) :
    Keeps Q (State.warmBanks s) := by
  unfold State.warmBanks
  try dsimp only
  repeat' (first
    | (simp +contextual (maxDischargeDepth := 60) [*]; done)
    | split
    | intro _
    | refine State.each_keeps _ _ (fun _ _ _ => ?_) ?_)

@[simp] theorem State.warmSec_keeps {Q : Mark} {s : State} (kp : Keeps Q s) :
    Keeps Q (State.warmSec s) := by
  unfold State.warmSec
  try dsimp only
  repeat' (first
    | (simp +contextual (maxDischargeDepth := 60) [*]; done)
    | split
    | intro _
    | refine State.each_keeps _ _ (fun _ _ _ => ?_) ?_)

@[simp] theorem State.warmLht_keeps {Q : Mark} {s : State} (kp : Keeps Q s) :
    Keeps Q (State.warmLht s) := by
  unfold State.warmLht
  try dsimp only
  repeat' (first
    | (simp +contextual (maxDischargeDepth := 60) [*]; done)
    | split
    | intro _
    | refine State.each_keeps _ _ (fun _ _ _ => ?_) ?_)

@[simp] theorem State.opMark_keeps {Q : Mark} {s : State} (kp : Keeps Q s) (o : LongOp) :
    Keeps Q (State.opMark s o) := by
  unfold State.opMark
  try dsimp only
  repeat' (first
    | (simp +contextual (maxDischargeDepth := 60) [*]; done)
    | split
    | intro _
    | refine State.each_keeps _ _ (fun _ _ _ => ?_) ?_)

@[simp] theorem State.opTell_keeps {Q : Mark} {s : State} (kp : Keeps Q s) (o : LongOp) :
    Keeps Q (State.opTell s o) := by
  unfold State.opTell
  try dsimp only
  repeat' (first
    | (simp +contextual (maxDischargeDepth := 60) [*]; done)
    | split
    | intro _
    | refine State.each_keeps _ _ (fun _ _ _ => ?_) ?_)

@[simp] theorem State.warmMode_keeps {Q : Mark} {s : State} (kp : Keeps Q s) :
    Keeps Q (State.warmMode s) := by
  unfold State.warmMode
  try dsimp only
  repeat' (first
    | (simp +contextual (maxDischargeDepth := 60) [*]; done)
    | split
    | intro _
    | refine State.each_keeps _ _ (fun _ _ _ => ?_) ?_)

@[simp] theorem State.warmClear_keeps {Q : Mark} {s : State} (kp : Keeps Q s) :
    Keeps Q (State.warmClear s) := by
  unfold State.warmClear
  try dsimp only
  repeat' (first
    | (simp +contextual (maxDischargeDepth := 60) [*]; done)
    | split
    | intro _
    | refine State.each_keeps _ _ (fun _ _ _ => ?_) ?_)

@[simp] theorem State.swapUndo_keeps {Q : Mark} {s : State} (kp : Keeps Q s) :
    Keeps Q (State.swapUndo s) := by
  unfold State.swapUndo
  try dsimp only
  repeat' (first
    | (simp +contextual (maxDischargeDepth := 60) [*]; done)
    | split
    | intro _
    | refine State.each_keeps _ _ (fun _ _ _ => ?_) ?_)

@[simp] theorem State.warmReset_keeps {Q : Mark} {s : State} (kp : Keeps Q s) :
    Keeps Q (State.warmReset s) := by
  unfold State.warmReset
  try dsimp only
  repeat' (first
    | (simp +contextual (maxDischargeDepth := 60) [*]; done)
    | split
    | intro _
    | refine State.each_keeps _ _ (fun _ _ _ => ?_) ?_)

@[simp] theorem State.resetWrite_keeps {Q : Mark} {s : State} (kp : Keeps Q s) (v : Word) :
    Keeps Q (State.resetWrite s v) := by
  unfold State.resetWrite
  try dsimp only
  repeat' (first
    | (simp +contextual (maxDischargeDepth := 60) [*]; done)
    | split
    | intro _
    | refine State.each_keeps _ _ (fun _ _ _ => ?_) ?_)

theorem execDevResetCold_keeps {Q : Mark} {s : State} (kp : Keeps Q s) (val : Word) :
    KeepsO Q (execDevResetCold val s) := by
  unfold execDevResetCold
  try dsimp only
  repeat' (first
    | (simp +contextual (maxDischargeDepth := 60) [*]; done)
    | split
    | intro _
    | refine State.each_keeps _ _ (fun _ _ _ => ?_) ?_)

theorem execDevResetWarm_keeps {Q : Mark} {s : State} (kp : Keeps Q s) (val : Word) :
    KeepsO Q (execDevResetWarm val s) := by
  unfold execDevResetWarm
  try dsimp only
  repeat' (first
    | (simp +contextual (maxDischargeDepth := 60) [*]; done)
    | split
    | intro _
    | refine State.each_keeps _ _ (fun _ _ _ => ?_) ?_)

theorem execResetNLow_keeps {Q : Mark} {s : State} (kp : Keeps Q s) (ns : Nat) :
    KeepsO Q (execResetNLow ns s) := by
  unfold execResetNLow
  try dsimp only
  repeat' (first
    | (simp +contextual (maxDischargeDepth := 60) [*]; done)
    | split
    | intro _
    | refine State.each_keeps _ _ (fun _ _ _ => ?_) ?_)

@[simp] theorem State.perstFall_keeps {Q : Mark} {s : State} (kp : Keeps Q s) :
    Keeps Q (State.perstFall s) := by
  unfold State.perstFall
  try dsimp only
  repeat' (first
    | (simp +contextual (maxDischargeDepth := 60) [*]; done)
    | split
    | intro _
    | refine State.each_keeps _ _ (fun _ _ _ => ?_) ?_)

theorem execPerstNLow_keeps {Q : Mark} {s : State} (kp : Keeps Q s) :
    KeepsO Q (execPerstNLow s) := by
  unfold execPerstNLow
  try dsimp only
  repeat' (first
    | (simp +contextual (maxDischargeDepth := 60) [*]; done)
    | split
    | intro _
    | refine State.each_keeps _ _ (fun _ _ _ => ?_) ?_)

theorem execPerstNDeassert_keeps {Q : Mark} {s : State} (kp : Keeps Q s) :
    KeepsO Q (execPerstNDeassert s) := by
  unfold execPerstNDeassert
  try dsimp only
  repeat' (first
    | (simp +contextual (maxDischargeDepth := 60) [*]; done)
    | split
    | intro _
    | refine State.each_keeps _ _ (fun _ _ _ => ?_) ?_)

@[simp] theorem State.resetRings_keeps {Q : Mark} {s : State} (kp : Keeps Q s) :
    Keeps Q (State.resetRings s) := by
  unfold State.resetRings
  try dsimp only
  repeat' (first
    | (simp +contextual (maxDischargeDepth := 60) [*]; done)
    | split
    | intro _
    | refine State.each_keeps _ _ (fun _ _ _ => ?_) ?_)

@[simp] theorem State.resetEvt_keeps {Q : Mark} {s : State} (kp : Keeps Q s) :
    Keeps Q (State.resetEvt s) := by
  unfold State.resetEvt
  try dsimp only
  repeat' (first
    | (simp +contextual (maxDischargeDepth := 60) [*]; done)
    | split
    | intro _
    | refine State.each_keeps _ _ (fun _ _ _ => ?_) ?_)

@[simp] theorem State.resetChk_keeps {Q : Mark} {s : State} (kp : Keeps Q s) :
    Keeps Q (State.resetChk s) := by
  unfold State.resetChk
  try dsimp only
  repeat' (first
    | (simp +contextual (maxDischargeDepth := 60) [*]; done)
    | split
    | intro _
    | refine State.each_keeps _ _ (fun _ _ _ => ?_) ?_)

@[simp] theorem State.resetMer_keeps {Q : Mark} {s : State} (kp : Keeps Q s) :
    Keeps Q (State.resetMer s) := by
  unfold State.resetMer
  try dsimp only
  repeat' (first
    | (simp +contextual (maxDischargeDepth := 60) [*]; done)
    | split
    | intro _
    | refine State.each_keeps _ _ (fun _ _ _ => ?_) ?_)

@[simp] theorem State.resetLht_keeps {Q : Mark} {s : State} (kp : Keeps Q s) :
    Keeps Q (State.resetLht s) := by
  unfold State.resetLht
  try dsimp only
  repeat' (first
    | (simp +contextual (maxDischargeDepth := 60) [*]; done)
    | split
    | intro _
    | refine State.each_keeps _ _ (fun _ _ _ => ?_) ?_)

@[simp] theorem State.blkReset_keeps {Q : Mark} {s : State} (kp : Keeps Q s) (b : Nat) :
    Keeps Q (State.blkReset s b) := by
  unfold State.blkReset
  try dsimp only
  repeat' (first
    | (simp +contextual (maxDischargeDepth := 60) [*]; done)
    | split
    | intro _
    | refine State.each_keeps _ _ (fun _ _ _ => ?_) ?_)

@[simp] theorem State.blkResetWrite_keeps {Q : Mark} {s : State} (kp : Keeps Q s) (v : Word) :
    Keeps Q (State.blkResetWrite s v) := by
  unfold State.blkResetWrite
  try dsimp only
  repeat' (first
    | (simp +contextual (maxDischargeDepth := 60) [*]; done)
    | split
    | intro _
    | refine State.each_keeps _ _ (fun _ _ _ => ?_) ?_)

theorem execBlkResetRings_keeps {Q : Mark} {s : State} (kp : Keeps Q s) (val : Word) :
    KeepsO Q (execBlkResetRings val s) := by
  unfold execBlkResetRings
  try dsimp only
  repeat' (first
    | (simp +contextual (maxDischargeDepth := 60) [*]; done)
    | split
    | intro _
    | refine State.each_keeps _ _ (fun _ _ _ => ?_) ?_)

theorem execBlkResetEvt_keeps {Q : Mark} {s : State} (kp : Keeps Q s) (val : Word) :
    KeepsO Q (execBlkResetEvt val s) := by
  unfold execBlkResetEvt
  try dsimp only
  repeat' (first
    | (simp +contextual (maxDischargeDepth := 60) [*]; done)
    | split
    | intro _
    | refine State.each_keeps _ _ (fun _ _ _ => ?_) ?_)

theorem execBlkResetChk_keeps {Q : Mark} {s : State} (kp : Keeps Q s) (val : Word) :
    KeepsO Q (execBlkResetChk val s) := by
  unfold execBlkResetChk
  try dsimp only
  repeat' (first
    | (simp +contextual (maxDischargeDepth := 60) [*]; done)
    | split
    | intro _
    | refine State.each_keeps _ _ (fun _ _ _ => ?_) ?_)

theorem execBlkResetMer_keeps {Q : Mark} {s : State} (kp : Keeps Q s) (val : Word) :
    KeepsO Q (execBlkResetMer val s) := by
  unfold execBlkResetMer
  try dsimp only
  repeat' (first
    | (simp +contextual (maxDischargeDepth := 60) [*]; done)
    | split
    | intro _
    | refine State.each_keeps _ _ (fun _ _ _ => ?_) ?_)

theorem execBlkResetLht_keeps {Q : Mark} {s : State} (kp : Keeps Q s) (val : Word) :
    KeepsO Q (execBlkResetLht val s) := by
  unfold execBlkResetLht
  try dsimp only
  repeat' (first
    | (simp +contextual (maxDischargeDepth := 60) [*]; done)
    | split
    | intro _
    | refine State.each_keeps _ _ (fun _ _ _ => ?_) ?_)

theorem execBlockResetComplete_keeps {Q : Mark} {s : State} (kp : Keeps Q s) (blk : Fin 6) :
    KeepsO Q (execBlockResetComplete blk s) := by
  unfold execBlockResetComplete
  try dsimp only
  repeat' (first
    | (simp +contextual (maxDischargeDepth := 60) [*]; done)
    | split
    | intro _
    | refine State.each_keeps _ _ (fun _ _ _ => ?_) ?_)

end Sys2Proof.Machine
end

