-- ==== Sys2Proof/Laws/KeepRings.lean ====
section
/-!
SUPPORT. Laws/KeepRings.lean: the operations of Machine/Rings.lean keep what Laws/Keep.lean lists.
-/
set_option linter.unreachableTactic false
set_option linter.unusedTactic false
set_option linter.unusedSimpArgs false
set_option linter.unusedVariables false

namespace Sys2Proof.Machine

theorem State.nextPunt_keeps {Q : Mark} {s : State} (kp : Keeps Q s) (f : HostFrame) (t : State)
    (h : s.nextPunt = some (f, t)) : Keeps Q t := by
  unfold State.nextPunt at h
  split at h
  · cases h; simp [*]
  · split at h
    · cases h; simp [*]
    · cases h

theorem execPuntTailWrite_keeps {Q : Mark} {s : State} (kp : Keeps Q s) (n : Fin 64) (val : Word) :
    KeepsO Q (execPuntTailWrite n val s) := by
  unfold execPuntTailWrite
  try dsimp only
  repeat' (first
    | (simp +contextual (maxDischargeDepth := 60) [*]; done)
    | split
    | intro _
    | refine State.each_keeps _ _ (fun _ _ _ => ?_) ?_)

@[simp] theorem State.puntWrite_keeps {Q : Mark} {s : State} (kp : Keeps Q s) (n size : Nat) (tail : List Byte) (first trunc : Bool) (z0 : List (HostBuf × List Byte)) :
    Keeps Q (State.puntWrite s n size tail first trunc z0) := by
  induction z0 generalizing s first with
  | nil => simpa [State.puntWrite] using kp
  | cons x l ih =>
    obtain ⟨b, d⟩ := x
    simp only [State.puntWrite]
    refine ih ?_ _
    simp (maxDischargeDepth := 60) [kp]

@[simp] theorem State.puntDeliver_keeps {Q : Mark} {s : State} (kp : Keeps Q s) (bufs : List HostBuf) :
    Keeps Q (State.puntDeliver s bufs) := by
  unfold State.puntDeliver
  split
  · exact kp
  split
  · exact kp
  · rename_i f s1 h
    have k : Keeps Q s1 := State.nextPunt_keeps kp _ _ h
    dsimp only
    repeat' (first
      | (simp +contextual (maxDischargeDepth := 60) [*]; done)
      | split)

theorem execPuntFrameDelivery_keeps {Q : Mark} {s : State} (kp : Keeps Q s) (bufs : List HostBuf) :
    KeepsO Q (execPuntFrameDelivery bufs s) := by
  unfold execPuntFrameDelivery
  try dsimp only
  repeat' (first
    | (simp +contextual (maxDischargeDepth := 60) [*]; done)
    | split
    | intro _
    | refine State.each_keeps _ _ (fun _ _ _ => ?_) ?_)

theorem execInjectTailWrite_keeps {Q : Mark} {s : State} (kp : Keeps Q s) (n : Fin 64) (val : Word) :
    KeepsO Q (execInjectTailWrite n val s) := by
  unfold execInjectTailWrite
  try dsimp only
  repeat' (first
    | (simp +contextual (maxDischargeDepth := 60) [*]; done)
    | split
    | intro _
    | refine State.each_keeps _ _ (fun _ _ _ => ?_) ?_)

@[simp] theorem State.injRead_keeps {Q : Mark} {s : State} (kp : Keeps Q s) (n : Nat) (d : InjDesc) (mode : Nat) (first : Bool) (z0 : Nat) :
    Keeps Q (State.injRead s n d mode first z0) := by
  induction z0 generalizing s first with
  | zero => simpa [State.injRead] using kp
  | succ k ih =>
    simp only [State.injRead]
    exact ih (by simp [*]) _

theorem execInjectModePipeline_keeps {Q : Mark} {s : State} (kp : Keeps Q s) (n : Fin 64) (desc : InjDesc) (data : List Byte) (count : Nat) (cap : Raw) (full : Bool) :
    KeepsO Q (execInjectModePipeline n desc data count cap full s) := by
  unfold execInjectModePipeline
  try dsimp only
  repeat' (first
    | (simp +contextual (maxDischargeDepth := 60) [*]; done)
    | split
    | intro _
    | refine State.each_keeps _ _ (fun _ _ _ => ?_) ?_)

theorem execInjectModeDirect_keeps {Q : Mark} {s : State} (kp : Keeps Q s) (n : Fin 64) (desc : InjDesc) (data : List Byte) (count : Nat) (cap : Raw) :
    KeepsO Q (execInjectModeDirect n desc data count cap s) := by
  unfold execInjectModeDirect
  try dsimp only
  repeat' (first
    | (simp +contextual (maxDischargeDepth := 60) [*]; done)
    | split
    | intro _
    | refine State.each_keeps _ _ (fun _ _ _ => ?_) ?_)

end Sys2Proof.Machine
end

