-- ==== Sys2Proof/Laws/KeepWaypoint.lean ====
section
/-!
SUPPORT. Laws/KeepWaypoint.lean: the operations of Machine/Waypoint.lean keep what Laws/Keep.lean lists.
-/
set_option linter.unreachableTactic false
set_option linter.unusedTactic false
set_option linter.unusedSimpArgs false
set_option linter.unusedVariables false

namespace Sys2Proof.Machine

@[simp] theorem State.wpAction_keeps {Q : Mark} {s : State} (kp : Keeps Q s) (slot action arg : Nat) :
    Keeps Q (State.wpAction s slot action arg) := by
  unfold State.wpAction
  try dsimp only
  repeat' (first
    | (simp +contextual (maxDischargeDepth := 60) [*]; done)
    | split
    | intro _
    | refine State.each_keeps _ _ (fun _ _ _ => ?_) ?_)

@[simp] theorem State.wpExecute_keeps {Q : Mark} {s : State} (kp : Keeps Q s) (slot : Nat) (a : Armed) (now : Nat) :
    Keeps Q (State.wpExecute s slot a now) := by
  unfold State.wpExecute
  try dsimp only
  repeat' (first
    | (simp +contextual (maxDischargeDepth := 60) [*]; done)
    | split
    | intro _
    | refine State.each_keeps _ _ (fun _ _ _ => ?_) ?_)

@[simp] theorem State.wpTest_keeps {Q : Mark} {s : State} (kp : Keeps Q s) (slot : Nat) :
    Keeps Q (State.wpTest s slot) := by
  unfold State.wpTest
  try dsimp only
  repeat' (first
    | (simp +contextual (maxDischargeDepth := 60) [*]; done)
    | split
    | intro _
    | refine State.each_keeps _ _ (fun _ _ _ => ?_) ?_)

@[simp] theorem State.actionTick_keeps {Q : Mark} {s : State} (kp : Keeps Q s) :
    Keeps Q (State.actionTick s) := by
  unfold State.actionTick
  try dsimp only
  repeat' (first
    | (simp +contextual (maxDischargeDepth := 60) [*]; done)
    | split
    | intro _
    | refine State.each_keeps _ _ (fun _ _ _ => ?_) ?_)

theorem execActionTick_keeps {Q : Mark} {s : State} (kp : Keeps Q s) :
    KeepsO Q (execActionTick s) := by
  unfold execActionTick
  try dsimp only
  repeat' (first
    | (simp +contextual (maxDischargeDepth := 60) [*]; done)
    | split
    | intro _
    | refine State.each_keeps _ _ (fun _ _ _ => ?_) ?_)

end Sys2Proof.Machine
end

