-- ==== Sys2Proof/Laws/KeepWindows.lean ====
section
/-!
SUPPORT. Laws/KeepWindows.lean: the operations of Machine/Windows.lean keep what Laws/Keep.lean lists.
-/
set_option linter.unreachableTactic false
set_option linter.unusedTactic false
set_option linter.unusedSimpArgs false
set_option linter.unusedVariables false

namespace Sys2Proof.Machine

@[simp] theorem State.winSteer_keeps {Q : Mark} {s : State} (kp : Keeps Q s) (w : Nat) (base : Bool) (v : Word) :
    Keeps Q (State.winSteer s w base v) := by
  unfold State.winSteer
  try dsimp only
  repeat' (first
    | (simp +contextual (maxDischargeDepth := 60) [*]; done)
    | split
    | intro _
    | refine State.each_keeps _ _ (fun _ _ _ => ?_) ?_)

theorem execWindowSteerWrite_keeps {Q : Mark} {s : State} (kp : Keeps Q s) (w : Fin 2) (base : Bool) (val : Word) :
    KeepsO Q (execWindowSteerWrite w base val s) := by
  unfold execWindowSteerWrite
  try dsimp only
  repeat' (first
    | (simp +contextual (maxDischargeDepth := 60) [*]; done)
    | split
    | intro _
    | refine State.each_keeps _ _ (fun _ _ _ => ?_) ?_)

@[simp] theorem State.winStage_keeps {Q : Mark} {s : State} (kp : Keeps Q s) (w i : Nat) (v : Word) :
    Keeps Q (State.winStage s w i v) := by
  unfold State.winStage
  try dsimp only
  repeat' (first
    | (simp +contextual (maxDischargeDepth := 60) [*]; done)
    | split
    | intro _
    | refine State.each_keeps _ _ (fun _ _ _ => ?_) ?_)

@[simp] theorem State.chartCommit_keeps {Q : Mark} {s : State} (kp : Keeps Q s) (i : Nat) :
    Keeps Q (State.chartCommit s i) := by
  unfold State.chartCommit
  try dsimp only
  repeat' (first
    | (simp +contextual (maxDischargeDepth := 60) [*]; done)
    | split
    | intro _
    | refine State.each_keeps _ _ (fun _ _ _ => ?_) ?_)

@[simp] theorem State.directCommit_keeps {Q : Mark} {s : State} (kp : Keeps Q s) (i : Nat) :
    Keeps Q (State.directCommit s i) := by
  unfold State.directCommit
  try dsimp only
  repeat' (first
    | (simp +contextual (maxDischargeDepth := 60) [*]; done)
    | split
    | intro _
    | refine State.each_keeps _ _ (fun _ _ _ => ?_) ?_)

@[simp] theorem State.winWrite_keeps {Q : Mark} {s : State} (kp : Keeps Q s) (w off : Nat) (v : Word) :
    Keeps Q (State.winWrite s w off v) := by
  unfold State.winWrite
  try dsimp only
  repeat' (first
    | (simp +contextual (maxDischargeDepth := 60) [*]; done)
    | split
    | intro _
    | refine State.each_keeps _ _ (fun _ _ _ => ?_) ?_)

theorem execWindowStageWrite_keeps {Q : Mark} {s : State} (kp : Keeps Q s) (w : Fin 2) (off : BitVec 26) (val : Word) :
    KeepsO Q (execWindowStageWrite w off val s) := by
  unfold execWindowStageWrite
  try dsimp only
  repeat' (first
    | (simp +contextual (maxDischargeDepth := 60) [*]; done)
    | split
    | intro _
    | refine State.each_keeps _ _ (fun _ _ _ => ?_) ?_)

theorem execChartWindowCommit_keeps {Q : Mark} {s : State} (kp : Keeps Q s) (off : BitVec 26) (val : Word) :
    KeepsO Q (execChartWindowCommit off val s) := by
  unfold execChartWindowCommit
  try dsimp only
  repeat' (first
    | (simp +contextual (maxDischargeDepth := 60) [*]; done)
    | split
    | intro _
    | refine State.each_keeps _ _ (fun _ _ _ => ?_) ?_)

theorem execSextantWindowCommit_keeps {Q : Mark} {s : State} (kp : Keeps Q s) (off : BitVec 26) (val : Word) :
    KeepsO Q (execSextantWindowCommit off val s) := by
  unfold execSextantWindowCommit
  try dsimp only
  repeat' (first
    | (simp +contextual (maxDischargeDepth := 60) [*]; done)
    | split
    | intro _
    | refine State.each_keeps _ _ (fun _ _ _ => ?_) ?_)

@[simp] theorem State.winCapture_keeps {Q : Mark} {s : State} (kp : Keeps Q s) (w : Nat) (ws : List Word) :
    Keeps Q (State.winCapture s w ws) := by
  unfold State.winCapture
  try dsimp only
  repeat' (first
    | (simp +contextual (maxDischargeDepth := 60) [*]; done)
    | split
    | intro _
    | refine State.each_keeps _ _ (fun _ _ _ => ?_) ?_)

@[simp] theorem State.winRead_keeps {Q : Mark} {s : State} (kp : Keeps Q s) (w off : Nat) :
    Keeps Q (State.winRead s w off) := by
  unfold State.winRead
  try dsimp only
  repeat' (first
    | (simp +contextual (maxDischargeDepth := 60) [*]; done)
    | split
    | intro _
    | refine State.each_keeps _ _ (fun _ _ _ => ?_) ?_)

theorem execWindowReadCapture_keeps {Q : Mark} {s : State} (kp : Keeps Q s) (w : Fin 2) (off : BitVec 26) :
    KeepsO Q (execWindowReadCapture w off s) := by
  unfold execWindowReadCapture
  try dsimp only
  repeat' (first
    | (simp +contextual (maxDischargeDepth := 60) [*]; done)
    | split
    | intro _
    | refine State.each_keeps _ _ (fun _ _ _ => ?_) ?_)

@[simp] theorem State.cntWindow_keeps {Q : Mark} {s : State} (kp : Keeps Q s) (off : Nat) :
    Keeps Q (State.cntWindow s off) := by
  unfold State.cntWindow
  try dsimp only
  repeat' (first
    | (simp +contextual (maxDischargeDepth := 60) [*]; done)
    | split
    | intro _
    | refine State.each_keeps _ _ (fun _ _ _ => ?_) ?_)

theorem execCounterWindowRead_keeps {Q : Mark} {s : State} (kp : Keeps Q s) (off : BitVec 26) :
    KeepsO Q (execCounterWindowRead off s) := by
  unfold execCounterWindowRead
  try dsimp only
  repeat' (first
    | (simp +contextual (maxDischargeDepth := 60) [*]; done)
    | split
    | intro _
    | refine State.each_keeps _ _ (fun _ _ _ => ?_) ?_)

end Sys2Proof.Machine
end

