-- ==== Sys2Proof/Laws/KeepHostWrite.lean ====
section
/-!
SUPPORT. Laws/KeepHostWrite.lean: the operations of Machine/HostWrite.lean keep what Laws/Keep.lean lists.
-/
set_option linter.unreachableTactic false
set_option linter.unusedTactic false
set_option linter.unusedSimpArgs false
set_option linter.unusedVariables false

namespace Sys2Proof.Machine

@[simp] theorem State.unlessUnit_keeps {Q : Mark} {s : State} (kp : Keeps Q s) (b i : Nat) (f : State → State) (hf : ∀ t, Keeps Q t → Keeps Q (f  t)) :
    Keeps Q (State.unlessUnit s b i f) := by
  unfold State.unlessUnit
  try dsimp only
  repeat' (first
    | (simp +contextual (maxDischargeDepth := 60) [*]; done)
    | split
    | intro _
    | refine State.each_keeps _ _ (fun _ _ _ => ?_) ?_)

@[simp] theorem State.commitLow_keeps {Q : Mark} {s : State} (kp : Keeps Q s) (a : Nat) (z0 : Nat) :
    Keeps Q (State.commitLow s a z0) := by
  fun_induction State.commitLow <;> simp_all (maxDischargeDepth := 60)

@[simp] theorem State.commitHigh_keeps {Q : Mark} {s : State} (kp : Keeps Q s) (b i n a : Nat) (v : Word) :
    Keeps Q (State.commitHigh s b i n a v) := by
  unfold State.commitHigh
  try dsimp only
  repeat' (first
    | (simp +contextual (maxDischargeDepth := 60) [*]; done)
    | split
    | intro _
    | refine State.each_keeps _ _ (fun _ _ _ => ?_) ?_)

/-- Every entry of a table of write effects keeps the facts. -/
def FxKeeps (Q : Mark) (l : List (Nat × WriteFx)) : Prop :=
  ∀ b f, atBase b l = some f → ∀ i j v s, Keeps Q s → Keeps Q (f i j v s)

/-- Every entry of a table of read effects keeps the facts. -/
def RxKeeps (Q : Mark) (l : List (Nat × ReadFx)) : Prop :=
  ∀ b f, atBase b l = some f → ∀ i j s, Keeps Q s → Keeps Q (f i j s)

theorem FxKeeps.cons {Q : Mark} {b : Nat} {f : WriteFx} {l : List (Nat × WriteFx)}
    (h : ∀ i j v s, Keeps Q s → Keeps Q (f i j v s)) (t : FxKeeps Q l) : FxKeeps Q ((b, f) :: l) := by
  intro c g e
  unfold atBase at e
  split at e
  · cases e; exact h
  · exact t c g e

theorem FxKeeps.nil (Q : Mark) : FxKeeps Q [] := by
  intro _ _ e; cases e

theorem RxKeeps.cons {Q : Mark} {b : Nat} {f : ReadFx} {l : List (Nat × ReadFx)}
    (h : ∀ i j s, Keeps Q s → Keeps Q (f i j s)) (t : RxKeeps Q l) : RxKeeps Q ((b, f) :: l) := by
  intro c g e
  unfold atBase at e
  split at e
  · cases e; exact h
  · exact t c g e

theorem RxKeeps.nil (Q : Mark) : RxKeeps Q [] := by
  intro _ _ e; cases e

theorem writeFx1_keeps (Q : Mark) : FxKeeps Q writeFx1 := by
  unfold writeFx1
  repeat' (first
    | exact FxKeeps.nil Q
    | refine FxKeeps.cons ?_ ?_
    | (intro _ _ _ _ h; simp [h]; done))

theorem writeFx2_keeps (Q : Mark) : FxKeeps Q writeFx2 := by
  unfold writeFx2
  repeat' (first
    | exact FxKeeps.nil Q
    | refine FxKeeps.cons ?_ ?_
    | (intro _ _ _ _ h; simp +contextual [h]; done))

theorem writeFx3_keeps (Q : Mark) : FxKeeps Q writeFx3 := by
  unfold writeFx3
  repeat' (first
    | exact FxKeeps.nil Q
    | refine FxKeeps.cons ?_ ?_
    | (intro _ _ _ _ h; simp +contextual [h, State.unlessScan_keeps]; done))

theorem writeFx_keeps {Q : Mark} {b : Nat} {f : WriteFx} (e : writeFx b = some f) {s : State} (kp : Keeps Q s) (i j : Nat)
    (v : Word) : Keeps Q (f i j v s) := by
  unfold writeFx at e
  split at e
  · rename_i g h; cases e; exact writeFx1_keeps Q _ _ h _ _ _ _ kp
  · split at e
    · rename_i g h; cases e; exact writeFx2_keeps Q _ _ h _ _ _ _ kp
    · exact writeFx3_keeps Q _ _ e _ _ _ _ kp

@[simp] theorem State.regWrite_keeps {Q : Mark} {s : State} (kp : Keeps Q s) (a : Nat) (v : Word) (fan : Bool) :
    Keeps Q (State.regWrite s a v fan) := by
  unfold State.regWrite
  try dsimp only
  repeat' (first
    | (simp +contextual (maxDischargeDepth := 60) [*]; done)
    | exact writeFx_keeps (by assumption) kp _ _ _
    | split
    | intro _)

@[simp] theorem State.railRead_keeps {Q : Mark} {s : State} (kp : Keeps Q s) (k : Nat) :
    Keeps Q (State.railRead s k) := by
  unfold State.railRead
  try dsimp only
  repeat' (first
    | (simp +contextual (maxDischargeDepth := 60) [*]; done)
    | split
    | intro _
    | refine State.each_keeps _ _ (fun _ _ _ => ?_) ?_)

@[simp] theorem State.capture_keeps {Q : Mark} {s : State} (kp : Keeps Q s) (a : Nat) (z0 : Nat) :
    Keeps Q (State.capture s a z0) := by
  fun_induction State.capture <;> simp_all (maxDischargeDepth := 60)

@[simp] theorem State.readLow_keeps {Q : Mark} {s : State} (kp : Keeps Q s) (b i a n : Nat) :
    Keeps Q (State.readLow s b i a n) := by
  unfold State.readLow
  try dsimp only
  repeat' (first
    | (simp +contextual (maxDischargeDepth := 60) [*]; done)
    | split
    | intro _
    | refine State.each_keeps _ _ (fun _ _ _ => ?_) ?_)

@[simp] theorem State.readPlain_keeps {Q : Mark} {s : State} (kp : Keeps Q s) (d : RegD) (i j a : Nat) :
    Keeps Q (State.readPlain s d i j a) := by
  unfold State.readPlain
  try dsimp only
  repeat' (first
    | (simp +contextual (maxDischargeDepth := 60) [*]; done)
    | split
    | intro _
    | refine State.each_keeps _ _ (fun _ _ _ => ?_) ?_)

theorem readFx_keeps (Q : Mark) : RxKeeps Q readFx := by
  unfold readFx
  repeat' (first
    | exact RxKeeps.nil Q
    | refine RxKeeps.cons ?_ ?_
    | (intro _ _ _ h; simp [h]; done))


@[simp] theorem State.regRead_keeps {Q : Mark} {s : State} (kp : Keeps Q s) (a : Nat) :
    Keeps Q (State.regRead s a) := by
  unfold State.regRead
  try dsimp only
  repeat' (first
    | (simp +contextual (maxDischargeDepth := 60) [*]; done)
    | exact readFx_keeps Q _ _ (by assumption) _ _ _ kp
    | split
    | intro _)

end Sys2Proof.Machine
end

