-- ==== Sys2Proof/Laws/KeepMeridian.lean ====
section
/-!
SUPPORT. Laws/KeepMeridian.lean: the operations of Machine/Meridian.lean keep what Laws/Keep.lean lists.
-/
set_option linter.unreachableTactic false
set_option linter.unusedTactic false
set_option linter.unusedSimpArgs false
set_option linter.unusedVariables false

namespace Sys2Proof.Machine

@[simp] theorem State.merIn_keeps {Q : Mark} {s : State} (kp : Keeps Q s) (m : MerMsg) (f : State → State) (hf : ∀ t, Keeps Q t → Keeps Q (f  t)) :
    Keeps Q (State.merIn s m f) := by
  unfold State.merIn
  try dsimp only
  repeat' (first
    | (simp +contextual (maxDischargeDepth := 60) [*]; done)
    | split
    | intro _
    | refine State.each_keeps _ _ (fun _ _ _ => ?_) ?_)

@[simp] theorem State.seePair_keeps {Q : Mark} {s : State} (kp : Keeps Q s) (m : MerMsg) :
    Keeps Q (State.seePair s m) := by
  unfold State.seePair
  try dsimp only
  repeat' (first
    | (simp +contextual (maxDischargeDepth := 60) [*]; done)
    | split
    | intro _
    | refine State.each_keeps _ _ (fun _ _ _ => ?_) ?_)

@[simp] theorem State.announceSend_keeps {Q : Mark} {s : State} (kp : Keeps Q s) :
    Keeps Q (State.announceSend s) := by
  unfold State.announceSend
  try dsimp only
  repeat' (first
    | (simp +contextual (maxDischargeDepth := 60) [*]; done)
    | split
    | intro _
    | refine State.each_keeps _ _ (fun _ _ _ => ?_) ?_)

theorem execAnnounceSend_keeps {Q : Mark} {s : State} (kp : Keeps Q s) (at' : Raw) :
    KeepsO Q (execAnnounceSend at' s) := by
  unfold execAnnounceSend
  try dsimp only
  repeat' (first
    | (simp +contextual (maxDischargeDepth := 60) [*]; done)
    | split
    | intro _
    | refine State.each_keeps _ _ (fun _ _ _ => ?_) ?_)

@[simp] theorem State.announceIn_keeps {Q : Mark} {s : State} (kp : Keeps Q s) (m : MerMsg) (viaMgmt : Bool) :
    Keeps Q (State.announceIn s m viaMgmt) := by
  unfold State.announceIn
  try dsimp only
  repeat' (first
    | (simp +contextual (maxDischargeDepth := 60) [*]; done)
    | split
    | intro _
    | refine State.each_keeps _ _ (fun _ _ _ => ?_) ?_)

theorem execAnnounceReceive_keeps {Q : Mark} {s : State} (kp : Keeps Q s) (msg : MerMsg) (viaMgmt : Bool) :
    KeepsO Q (execAnnounceReceive msg viaMgmt s) := by
  unfold execAnnounceReceive
  try dsimp only
  repeat' (first
    | (simp +contextual (maxDischargeDepth := 60) [*]; done)
    | split
    | intro _
    | refine State.each_keeps _ _ (fun _ _ _ => ?_) ?_)

@[simp] theorem State.heardEnd_keeps {Q : Mark} {s : State} (kp : Keeps Q s) (d : Nat) :
    Keeps Q (State.heardEnd s d) := by
  unfold State.heardEnd
  try dsimp only
  repeat' (first
    | (simp +contextual (maxDischargeDepth := 60) [*]; done)
    | split
    | intro _
    | refine State.each_keeps _ _ (fun _ _ _ => ?_) ?_)

theorem execHeardTimeout_keeps {Q : Mark} {s : State} (kp : Keeps Q s) (d : Fin 1024) (at' : Raw) :
    KeepsO Q (execHeardTimeout d at' s) := by
  unfold execHeardTimeout
  try dsimp only
  repeat' (first
    | (simp +contextual (maxDischargeDepth := 60) [*]; done)
    | split
    | intro _
    | refine State.each_keeps _ _ (fun _ _ _ => ?_) ?_)

@[simp] theorem State.wpWatch_keeps {Q : Mark} {s : State} (kp : Keeps Q s) (slot : Nat) (on : Bool) :
    Keeps Q (State.wpWatch s slot on) := by
  unfold State.wpWatch
  try dsimp only
  repeat' (first
    | (simp +contextual (maxDischargeDepth := 60) [*]; done)
    | split
    | intro _
    | refine State.each_keeps _ _ (fun _ _ _ => ?_) ?_)

@[simp] theorem State.writeAll_keeps {Q : Mark} {s : State} (kp : Keeps Q s) (z0 : List (Nat × Word)) :
    Keeps Q (State.writeAll s z0) := by
  fun_induction State.writeAll <;> simp_all (maxDischargeDepth := 60)

@[simp] theorem State.fanApply_keeps {Q : Mark} {s : State} (kp : Keeps Q s) (slot : Nat) (wp : Bool) (pairs : List (Nat × Word)) :
    Keeps Q (State.fanApply s slot wp pairs).2 := by
  unfold State.fanApply
  try dsimp only
  repeat' (first
    | (simp +contextual (maxDischargeDepth := 60) [*]; done)
    | split
    | intro _
    | refine State.each_keeps _ _ (fun _ _ _ => ?_) ?_)

@[simp] theorem State.sendAck_keeps {Q : Mark} {s : State} (kp : Keeps Q s) (m : MerMsg) :
    Keeps Q (State.sendAck s m) := by
  unfold State.sendAck
  try dsimp only
  repeat' (first
    | (simp +contextual (maxDischargeDepth := 60) [*]; done)
    | split
    | intro _
    | refine State.each_keeps _ _ (fun _ _ _ => ?_) ?_)

@[simp] theorem State.fanIn_keeps {Q : Mark} {s : State} (kp : Keeps Q s) (m : MerMsg) :
    Keeps Q (State.fanIn s m) := by
  unfold State.fanIn
  try dsimp only
  repeat' (first
    | (simp +contextual (maxDischargeDepth := 60) [*]; done)
    | split
    | intro _
    | refine State.each_keeps _ _ (fun _ _ _ => ?_) ?_)

theorem execFanReceive_keeps {Q : Mark} {s : State} (kp : Keeps Q s) (msg : MerMsg) :
    KeepsO Q (execFanReceive msg s) := by
  unfold execFanReceive
  try dsimp only
  repeat' (first
    | (simp +contextual (maxDischargeDepth := 60) [*]; done)
    | split
    | intro _
    | refine State.each_keeps _ _ (fun _ _ _ => ?_) ?_)

@[simp] theorem State.setTgt_keeps {Q : Mark} {s : State} (kp : Keeps Q s) (d : Nat) (t : Target) :
    Keeps Q (State.setTgt s d t) := by
  unfold State.setTgt
  try dsimp only
  repeat' (first
    | (simp +contextual (maxDischargeDepth := 60) [*]; done)
    | split
    | intro _
    | refine State.each_keeps _ _ (fun _ _ _ => ?_) ?_)

@[simp] theorem State.tgtNext_keeps {Q : Mark} {s : State} (kp : Keeps Q s) (d : Nat) :
    Keeps Q (State.tgtNext s d) := by
  unfold State.tgtNext
  try dsimp only
  repeat' (first
    | (simp +contextual (maxDischargeDepth := 60) [*]; done)
    | split
    | intro _
    | refine State.each_keeps _ _ (fun _ _ _ => ?_) ?_)

@[simp] theorem State.tgtPut_keeps {Q : Mark} {s : State} (kp : Keeps Q s) (d : Nat) (b : MerBody) :
    Keeps Q (State.tgtPut s d b) := by
  unfold State.tgtPut
  try dsimp only
  repeat' (first
    | (simp +contextual (maxDischargeDepth := 60) [*]; done)
    | split
    | intro _
    | refine State.each_keeps _ _ (fun _ _ _ => ?_) ?_)

@[simp] theorem State.setOpen_keeps {Q : Mark} {s : State} (kp : Keeps Q s) (l : List (List Nat)) :
    Keeps Q (State.setOpen s l) := by
  unfold State.setOpen
  try dsimp only
  repeat' (first
    | (simp +contextual (maxDischargeDepth := 60) [*]; done)
    | split
    | intro _
    | refine State.each_keeps _ _ (fun _ _ _ => ?_) ?_)

@[simp] theorem State.setCollect_keeps {Q : Mark} {s : State} (kp : Keeps Q s) (l : List Nat) :
    Keeps Q (State.setCollect s l) := by
  unfold State.setCollect
  try dsimp only
  repeat' (first
    | (simp +contextual (maxDischargeDepth := 60) [*]; done)
    | split
    | intro _
    | refine State.each_keeps _ _ (fun _ _ _ => ?_) ?_)

@[simp] theorem State.fanRefuse_keeps {Q : Mark} {s : State} (kp : Keeps Q s) (cause : Nat) :
    Keeps Q (State.fanRefuse s cause) := by
  unfold State.fanRefuse
  try dsimp only
  repeat' (first
    | (simp +contextual (maxDischargeDepth := 60) [*]; done)
    | split
    | intro _
    | refine State.each_keeps _ _ (fun _ _ _ => ?_) ?_)

@[simp] theorem State.fanLocal_keeps {Q : Mark} {s : State} (kp : Keeps Q s) (slot : Nat) (wp : Bool) (pairs : List (Nat × Word)) :
    Keeps Q (State.fanLocal s slot wp pairs) := by
  unfold State.fanLocal
  try dsimp only
  repeat' (first
    | (simp +contextual (maxDischargeDepth := 60) [*]; done)
    | split
    | intro _
    | refine State.each_keeps _ _ (fun _ _ _ => ?_) ?_)

@[simp] theorem State.fanGo_keeps {Q : Mark} {s : State} (kp : Keeps Q s) (v : Word) :
    Keeps Q (State.fanGo s v) := by
  unfold State.fanGo
  try dsimp only
  repeat' (first
    | (simp +contextual (maxDischargeDepth := 60) [*]; done)
    | split
    | intro _
    | refine State.each_keeps _ _ (fun _ _ _ => ?_) ?_)

theorem execFanGo_keeps {Q : Mark} {s : State} (kp : Keeps Q s) (val : Word) :
    KeepsO Q (execFanGo val s) := by
  unfold execFanGo
  try dsimp only
  repeat' (first
    | (simp +contextual (maxDischargeDepth := 60) [*]; done)
    | split
    | intro _
    | refine State.each_keeps _ _ (fun _ _ _ => ?_) ?_)

@[simp] theorem State.tgtAnswered_keeps {Q : Mark} {s : State} (kp : Keeps Q s) (d : Nat) (refused : Bool) :
    Keeps Q (State.tgtAnswered s d refused) := by
  unfold State.tgtAnswered
  try dsimp only
  repeat' (first
    | (simp +contextual (maxDischargeDepth := 60) [*]; done)
    | split
    | intro _
    | refine State.each_keeps _ _ (fun _ _ _ => ?_) ?_)

@[simp] theorem State.ackIn_keeps {Q : Mark} {s : State} (kp : Keeps Q s) (m : MerMsg) :
    Keeps Q (State.ackIn s m) := by
  unfold State.ackIn
  try dsimp only
  repeat' (first
    | (simp +contextual (maxDischargeDepth := 60) [*]; done)
    | split
    | intro _
    | refine State.each_keeps _ _ (fun _ _ _ => ?_) ?_
    | refine Keeps.foldl _ _ (fun _ _ _ => ?_) ?_
    | refine State.merIn_keeps (by assumption) _ _ (fun _ _ => ?_))

theorem execAckReceive_keeps {Q : Mark} {s : State} (kp : Keeps Q s) (msg : MerMsg) :
    KeepsO Q (execAckReceive msg s) := by
  unfold execAckReceive
  try dsimp only
  repeat' (first
    | (simp +contextual (maxDischargeDepth := 60) [*]; done)
    | split
    | intro _
    | refine State.each_keeps _ _ (fun _ _ _ => ?_) ?_)

@[simp] theorem State.unreach_keeps {Q : Mark} {s : State} (kp : Keeps Q s) (d : Nat) :
    Keeps Q (State.unreach s d) := by
  unfold State.unreach
  try dsimp only
  repeat' (first
    | (simp +contextual (maxDischargeDepth := 60) [*]; done)
    | split
    | intro _
    | refine State.each_keeps _ _ (fun _ _ _ => ?_) ?_)

@[simp] theorem State.fanRetry_keeps {Q : Mark} {s : State} (kp : Keeps Q s) (d : Nat) :
    Keeps Q (State.fanRetry s d) := by
  unfold State.fanRetry
  try dsimp only
  repeat' (first
    | (simp +contextual (maxDischargeDepth := 60) [*]; done)
    | split
    | intro _
    | refine State.each_keeps _ _ (fun _ _ _ => ?_) ?_)

theorem execFanRetry_keeps {Q : Mark} {s : State} (kp : Keeps Q s) (d : Fin 1024) (at' : Raw) :
    KeepsO Q (execFanRetry d at' s) := by
  unfold execFanRetry
  try dsimp only
  repeat' (first
    | (simp +contextual (maxDischargeDepth := 60) [*]; done)
    | split
    | intro _
    | refine State.each_keeps _ _ (fun _ _ _ => ?_) ?_)

@[simp] theorem State.tgtResume_keeps {Q : Mark} {s : State} (kp : Keeps Q s) (v : Word) :
    Keeps Q (State.tgtResume s v) := by
  unfold State.tgtResume
  try dsimp only
  repeat' (first
    | (simp +contextual (maxDischargeDepth := 60) [*]; done)
    | split
    | intro _
    | refine State.each_keeps _ _ (fun _ _ _ => ?_) ?_)

theorem execTargetResume_keeps {Q : Mark} {s : State} (kp : Keeps Q s) (val : Word) :
    KeepsO Q (execTargetResume val s) := by
  unfold execTargetResume
  try dsimp only
  repeat' (first
    | (simp +contextual (maxDischargeDepth := 60) [*]; done)
    | split
    | intro _
    | refine State.each_keeps _ _ (fun _ _ _ => ?_) ?_)

@[simp] theorem State.wpReportIn_keeps {Q : Mark} {s : State} (kp : Keeps Q s) (m : MerMsg) :
    Keeps Q (State.wpReportIn s m) := by
  unfold State.wpReportIn
  try dsimp only
  repeat' (first
    | (simp +contextual (maxDischargeDepth := 60) [*]; done)
    | split
    | intro _
    | refine State.each_keeps _ _ (fun _ _ _ => ?_) ?_)

theorem execWpReportReceive_keeps {Q : Mark} {s : State} (kp : Keeps Q s) (msg : MerMsg) :
    KeepsO Q (execWpReportReceive msg s) := by
  unfold execWpReportReceive
  try dsimp only
  repeat' (first
    | (simp +contextual (maxDischargeDepth := 60) [*]; done)
    | split
    | intro _
    | refine State.each_keeps _ _ (fun _ _ _ => ?_) ?_)

@[simp] theorem State.timeExchange_keeps {Q : Mark} {s : State} (kp : Keeps Q s) (cap : Raw) :
    Keeps Q (State.timeExchange s cap) := by
  unfold State.timeExchange
  try dsimp only
  repeat' (first
    | (simp +contextual (maxDischargeDepth := 60) [*]; done)
    | split
    | intro _
    | refine State.each_keeps _ _ (fun _ _ _ => ?_) ?_)

theorem execTimeExchange_keeps {Q : Mark} {s : State} (kp : Keeps Q s) (at' : Raw) :
    KeepsO Q (execTimeExchange at' s) := by
  unfold execTimeExchange
  try dsimp only
  repeat' (first
    | (simp +contextual (maxDischargeDepth := 60) [*]; done)
    | split
    | intro _
    | refine State.each_keeps _ _ (fun _ _ _ => ?_) ?_)

@[simp] theorem State.syncIn_keeps {Q : Mark} {s : State} (kp : Keeps Q s) (m : MerMsg) (cap txCap : Raw) :
    Keeps Q (State.syncIn s m cap txCap) := by
  unfold State.syncIn
  try dsimp only
  repeat' (first
    | (simp +contextual (maxDischargeDepth := 60) [*]; done)
    | split
    | intro _
    | refine State.each_keeps _ _ (fun _ _ _ => ?_) ?_)

theorem execSyncReceive_keeps {Q : Mark} {s : State} (kp : Keeps Q s) (msg : MerMsg) (cap : Raw) (txCap : Raw) :
    KeepsO Q (execSyncReceive msg cap txCap s) := by
  unfold execSyncReceive
  try dsimp only
  repeat' (first
    | (simp +contextual (maxDischargeDepth := 60) [*]; done)
    | split
    | intro _
    | refine State.each_keeps _ _ (fun _ _ _ => ?_) ?_)

@[simp] theorem State.delayReqIn_keeps {Q : Mark} {s : State} (kp : Keeps Q s) (m : MerMsg) (cap : Raw) :
    Keeps Q (State.delayReqIn s m cap) := by
  unfold State.delayReqIn
  try dsimp only
  repeat' (first
    | (simp +contextual (maxDischargeDepth := 60) [*]; done)
    | split
    | intro _
    | refine State.each_keeps _ _ (fun _ _ _ => ?_) ?_)

theorem execDelayReqReceive_keeps {Q : Mark} {s : State} (kp : Keeps Q s) (msg : MerMsg) (cap : Raw) :
    KeepsO Q (execDelayReqReceive msg cap s) := by
  unfold execDelayReqReceive
  try dsimp only
  repeat' (first
    | (simp +contextual (maxDischargeDepth := 60) [*]; done)
    | split
    | intro _
    | refine State.each_keeps _ _ (fun _ _ _ => ?_) ?_)

@[simp] theorem State.delayRespIn_keeps {Q : Mark} {s : State} (kp : Keeps Q s) (m : MerMsg) :
    Keeps Q (State.delayRespIn s m) := by
  unfold State.delayRespIn
  try dsimp only
  repeat' (first
    | (simp +contextual (maxDischargeDepth := 60) [*]; done)
    | split
    | intro _
    | refine State.each_keeps _ _ (fun _ _ _ => ?_) ?_
    | refine Keeps.foldl _ _ (fun _ _ _ => ?_) ?_
    | refine State.merIn_keeps (by assumption) _ _ (fun _ _ => ?_))

theorem execDelayRespReceive_keeps {Q : Mark} {s : State} (kp : Keeps Q s) (msg : MerMsg) :
    KeepsO Q (execDelayRespReceive msg s) := by
  unfold execDelayRespReceive
  try dsimp only
  repeat' (first
    | (simp +contextual (maxDischargeDepth := 60) [*]; done)
    | split
    | intro _
    | refine State.each_keeps _ _ (fun _ _ _ => ?_) ?_)

@[simp] theorem State.readAll_keeps {Q : Mark} {s : State} (kp : Keeps Q s) (z0 : List Nat) :
    Keeps Q (State.readAll s z0).2 := by
  induction z0 generalizing s with
  | nil => exact kp
  | cons x l ih =>
    have k : Keeps Q { s.regRead x with rdata := s.rdata } := State.regRead_keeps (s := s) kp x
    simp only [State.readAll]
    refine ih ?_
    split
    · exact k
    · exact State.elapse_keeps k _

@[simp] theorem State.collRecord_keeps {Q : Mark} {s : State} (kp : Keeps Q s) (d : Nat) (values : List Word) :
    Keeps Q (State.collRecord s d values) := by
  unfold State.collRecord
  try dsimp only
  repeat' (first
    | (simp +contextual (maxDischargeDepth := 60) [*]; done)
    | split
    | intro _
    | refine State.each_keeps _ _ (fun _ _ _ => ?_) ?_)

@[simp] theorem State.collLocal_keeps {Q : Mark} {s : State} (kp : Keeps Q s) (offsets : List Nat) :
    Keeps Q (State.collLocal s offsets) := by
  unfold State.collLocal
  try dsimp only
  repeat' (first
    | (simp +contextual (maxDischargeDepth := 60) [*]; done)
    | split
    | intro _
    | refine State.each_keeps _ _ (fun _ _ _ => ?_) ?_)

@[simp] theorem State.collGo_keeps {Q : Mark} {s : State} (kp : Keeps Q s) (v : Word) :
    Keeps Q (State.collGo s v) := by
  unfold State.collGo
  try dsimp only
  repeat' (first
    | (simp +contextual (maxDischargeDepth := 60) [*]; done)
    | split
    | intro _
    | refine State.each_keeps _ _ (fun _ _ _ => ?_) ?_)

theorem execCollectGo_keeps {Q : Mark} {s : State} (kp : Keeps Q s) (val : Word) :
    KeepsO Q (execCollectGo val s) := by
  unfold execCollectGo
  try dsimp only
  repeat' (first
    | (simp +contextual (maxDischargeDepth := 60) [*]; done)
    | split
    | intro _
    | refine State.each_keeps _ _ (fun _ _ _ => ?_) ?_)

@[simp] theorem State.sendReply_keeps {Q : Mark} {s : State} (kp : Keeps Q s) (m : MerMsg) :
    Keeps Q (State.sendReply s m) := by
  unfold State.sendReply
  try dsimp only
  repeat' (first
    | (simp +contextual (maxDischargeDepth := 60) [*]; done)
    | split
    | intro _
    | refine State.each_keeps _ _ (fun _ _ _ => ?_) ?_)

@[simp] theorem State.collectIn_keeps {Q : Mark} {s : State} (kp : Keeps Q s) (m : MerMsg) :
    Keeps Q (State.collectIn s m) := by
  unfold State.collectIn
  try dsimp only
  repeat' (first
    | (simp +contextual (maxDischargeDepth := 60) [*]; done)
    | split
    | intro _
    | refine State.each_keeps _ _ (fun _ _ _ => ?_) ?_)

theorem execCollectReceive_keeps {Q : Mark} {s : State} (kp : Keeps Q s) (msg : MerMsg) :
    KeepsO Q (execCollectReceive msg s) := by
  unfold execCollectReceive
  try dsimp only
  repeat' (first
    | (simp +contextual (maxDischargeDepth := 60) [*]; done)
    | split
    | intro _
    | refine State.each_keeps _ _ (fun _ _ _ => ?_) ?_)

@[simp] theorem State.replyIn_keeps {Q : Mark} {s : State} (kp : Keeps Q s) (m : MerMsg) :
    Keeps Q (State.replyIn s m) := by
  unfold State.replyIn
  try dsimp only
  repeat' (first
    | (simp +contextual (maxDischargeDepth := 60) [*]; done)
    | split
    | intro _
    | refine State.each_keeps _ _ (fun _ _ _ => ?_) ?_
    | refine Keeps.foldl _ _ (fun _ _ _ => ?_) ?_
    | refine State.merIn_keeps (by assumption) _ _ (fun _ _ => ?_))

theorem execReplyReceive_keeps {Q : Mark} {s : State} (kp : Keeps Q s) (msg : MerMsg) :
    KeepsO Q (execReplyReceive msg s) := by
  unfold execReplyReceive
  try dsimp only
  repeat' (first
    | (simp +contextual (maxDischargeDepth := 60) [*]; done)
    | split
    | intro _
    | refine State.each_keeps _ _ (fun _ _ _ => ?_) ?_)

@[simp] theorem State.eventIn_keeps {Q : Mark} {s : State} (kp : Keeps Q s) (m : MerMsg) :
    Keeps Q (State.eventIn s m) := by
  unfold State.eventIn
  try dsimp only
  repeat' (first
    | (simp +contextual (maxDischargeDepth := 60) [*]; done)
    | split
    | intro _
    | refine State.each_keeps _ _ (fun _ _ _ => ?_) ?_)

theorem execEventMessageReceive_keeps {Q : Mark} {s : State} (kp : Keeps Q s) (msg : MerMsg) :
    KeepsO Q (execEventMessageReceive msg s) := by
  unfold execEventMessageReceive
  try dsimp only
  repeat' (first
    | (simp +contextual (maxDischargeDepth := 60) [*]; done)
    | split
    | intro _
    | refine State.each_keeps _ _ (fun _ _ _ => ?_) ?_)

end Sys2Proof.Machine
end

