-- ==== Sys2Proof/Laws/KeepAccess.lean ====
section
/-!
SUPPORT. Laws/KeepAccess.lean: the operations of Machine/Access.lean keep what Laws/Keep.lean lists.
-/
set_option linter.unreachableTactic false
set_option linter.unusedTactic false
set_option linter.unusedSimpArgs false
set_option linter.unusedVariables false

namespace Sys2Proof.Machine

@[simp] theorem State.hostWrite_keeps {Q : Mark} {s : State} (kp : Keeps Q s) (a : Nat) (v : Word) :
    Keeps Q (State.hostWrite s a v) := by
  unfold State.hostWrite
  try dsimp only
  repeat' (first
    | (simp +contextual (maxDischargeDepth := 60) [*]; done)
    | split
    | intro _
    | refine State.each_keeps _ _ (fun _ _ _ => ?_) ?_)

theorem execRcRead_keeps {Q : Mark} {s : State} (kp : Keeps Q s) (addr : BitVec 28) :
    KeepsO Q (execRcRead addr s) := by
  unfold execRcRead
  try dsimp only
  repeat' (first
    | (simp +contextual (maxDischargeDepth := 60) [*]; done)
    | split
    | intro _
    | refine State.each_keeps _ _ (fun _ _ _ => ?_) ?_)

theorem execMultiwordCaptureRead_keeps {Q : Mark} {s : State} (kp : Keeps Q s) (addr : BitVec 28) :
    KeepsO Q (execMultiwordCaptureRead addr s) := by
  unfold execMultiwordCaptureRead
  try dsimp only
  repeat' (first
    | (simp +contextual (maxDischargeDepth := 60) [*]; done)
    | split
    | intro _
    | refine State.each_keeps _ _ (fun _ _ _ => ?_) ?_)

theorem execMultiwordLowWrite_keeps {Q : Mark} {s : State} (kp : Keeps Q s) (addr : BitVec 28) (val : Word) :
    KeepsO Q (execMultiwordLowWrite addr val s) := by
  unfold execMultiwordLowWrite
  try dsimp only
  repeat' (first
    | (simp +contextual (maxDischargeDepth := 60) [*]; done)
    | split
    | intro _
    | refine State.each_keeps _ _ (fun _ _ _ => ?_) ?_)

theorem execMultiwordCommit_keeps {Q : Mark} {s : State} (kp : Keeps Q s) (addr : BitVec 28) (val : Word) :
    KeepsO Q (execMultiwordCommit addr val s) := by
  unfold execMultiwordCommit
  try dsimp only
  repeat' (first
    | (simp +contextual (maxDischargeDepth := 60) [*]; done)
    | split
    | intro _
    | refine State.each_keeps _ _ (fun _ _ _ => ?_) ?_)

@[simp] theorem State.bar2Access_keeps {Q : Mark} {s : State} (kp : Keeps Q s) (write : Bool) (addr : Nat) (v : Word) :
    Keeps Q (State.bar2Access s write addr v) := by
  unfold State.bar2Access
  try dsimp only
  repeat' (first
    | (simp +contextual (maxDischargeDepth := 60) [*]; done)
    | split
    | intro _
    | refine State.each_keeps _ _ (fun _ _ _ => ?_) ?_)

@[simp] theorem State.misaligned_keeps {Q : Mark} {s : State} (kp : Keeps Q s) (bar2 write : Bool) (addr size : Nat) (val : BitVec 64) :
    Keeps Q (State.misaligned s bar2 write addr size val) := by
  unfold State.misaligned
  try dsimp only
  repeat' (first
    | (simp +contextual (maxDischargeDepth := 60) [*]; done)
    | split
    | intro _
    | refine State.each_keeps _ _ (fun _ _ _ => ?_) ?_)

theorem execMisalignedAccess_keeps {Q : Mark} {s : State} (kp : Keeps Q s) (bar2 : Bool) (write : Bool) (addr : Nat) (size : Nat) (val : BitVec 64) :
    KeepsO Q (execMisalignedAccess bar2 write addr size val s) := by
  unfold execMisalignedAccess
  try dsimp only
  repeat' (first
    | (simp +contextual (maxDischargeDepth := 60) [*]; done)
    | split
    | intro _
    | refine State.each_keeps _ _ (fun _ _ _ => ?_) ?_)

theorem execReservedAddressAccess_keeps {Q : Mark} {s : State} (kp : Keeps Q s) (write : Bool) (addr : BitVec 28) (val : Word) :
    KeepsO Q (execReservedAddressAccess write addr val s) := by
  unfold execReservedAddressAccess
  try dsimp only
  repeat' (first
    | (simp +contextual (maxDischargeDepth := 60) [*]; done)
    | split
    | intro _
    | refine State.each_keeps _ _ (fun _ _ _ => ?_) ?_)

theorem execRegisterWrite_keeps {Q : Mark} {s : State} (kp : Keeps Q s) (addr : BitVec 28) (val : Word) :
    KeepsO Q (execRegisterWrite addr val s) := by
  unfold execRegisterWrite
  try dsimp only
  repeat' (first
    | (simp +contextual (maxDischargeDepth := 60) [*]; done)
    | split
    | intro _
    | refine State.each_keeps _ _ (fun _ _ _ => ?_) ?_)

end Sys2Proof.Machine
end

