-- ==== Sys2Proof/Laws/State.lean ====
section
/-!
SUPPORT. Laws/State.lean: what each elementary update leaves of each field of State, and what a register read gives after it.
-/
namespace Sys2Proof.Machine

variable (s : State)

@[simp] theorem State.wr_pending (a : Nat) (v : Word) : (s.wr a v).pending = s.pending := rfl
@[simp] theorem State.wr_raw (a : Nat) (v : Word) : (s.wr a v).raw = s.raw := rfl
@[simp] theorem State.wr_hold (a : Nat) (v : Word) : (s.wr a v).hold = s.hold := rfl
@[simp] theorem State.wr_cap (a : Nat) (v : Word) : (s.wr a v).cap = s.cap := rfl
@[simp] theorem State.wr_rdata (a : Nat) (v : Word) : (s.wr a v).rdata = s.rdata := rfl
@[simp] theorem State.wr_out (a : Nat) (v : Word) : (s.wr a v).out = s.out := rfl
@[simp] theorem State.wr_drawn (a : Nat) (v : Word) : (s.wr a v).drawn = s.drawn := rfl
@[simp] theorem State.wr_dev (a : Nat) (v : Word) : (s.wr a v).dev = s.dev := rfl
@[simp] theorem State.wr_chrono (a : Nat) (v : Word) : (s.wr a v).chrono = s.chrono := rfl
@[simp] theorem State.wr_obs (a : Nat) (v : Word) : (s.wr a v).obs = s.obs := rfl
@[simp] theorem State.wr_chk (a : Nat) (v : Word) : (s.wr a v).chk = s.chk := rfl
@[simp] theorem State.wr_sec (a : Nat) (v : Word) : (s.wr a v).sec = s.sec := rfl
@[simp] theorem State.wr_pwr (a : Nat) (v : Word) : (s.wr a v).pwr = s.pwr := rfl
@[simp] theorem State.wr_mer (a : Nat) (v : Word) : (s.wr a v).mer = s.mer := rfl
@[simp] theorem State.wr_win (a : Nat) (v : Word) : (s.wr a v).win = s.win := rfl
@[simp] theorem State.wr_pool (a : Nat) (v : Word) : (s.wr a v).pool = s.pool := rfl
@[simp] theorem State.wr_voq (a : Nat) (v : Word) : (s.wr a v).voq = s.voq := rfl
@[simp] theorem State.wr_alm (a : Nat) (v : Word) : (s.wr a v).alm = s.alm := rfl
@[simp] theorem State.wr_rhb (a : Nat) (v : Word) : (s.wr a v).rhb = s.rhb := rfl
@[simp] theorem State.wr_net (a : Nat) (v : Word) : (s.wr a v).net = s.net := rfl
@[simp] theorem State.wr_sxt (a : Nat) (v : Word) : (s.wr a v).sxt = s.sxt := rfl
@[simp] theorem State.wr_cmp (a : Nat) (v : Word) : (s.wr a v).cmp = s.cmp := rfl
@[simp] theorem State.wr_pon (a : Nat) (v : Word) : (s.wr a v).pon = s.pon := rfl
@[simp] theorem State.wr_act (a : Nat) (v : Word) : (s.wr a v).act = s.act := rfl
@[simp] theorem State.wr_rck (a : Nat) (v : Word) : (s.wr a v).rck = s.rck := rfl
@[simp] theorem State.wr_xgm (a : Nat) (v : Word) : (s.wr a v).xgm = s.xgm := rfl
@[simp] theorem State.wr_lht (a : Nat) (v : Word) : (s.wr a v).lht = s.lht := rfl

@[simp] theorem State.setHold_pending (a : Nat) (v : Word) : (s.setHold a v).pending = s.pending := rfl
@[simp] theorem State.setHold_raw (a : Nat) (v : Word) : (s.setHold a v).raw = s.raw := rfl
@[simp] theorem State.setHold_regs (a : Nat) (v : Word) : (s.setHold a v).regs = s.regs := rfl
@[simp] theorem State.setHold_cap (a : Nat) (v : Word) : (s.setHold a v).cap = s.cap := rfl
@[simp] theorem State.setHold_rdata (a : Nat) (v : Word) : (s.setHold a v).rdata = s.rdata := rfl
@[simp] theorem State.setHold_out (a : Nat) (v : Word) : (s.setHold a v).out = s.out := rfl
@[simp] theorem State.setHold_drawn (a : Nat) (v : Word) : (s.setHold a v).drawn = s.drawn := rfl
@[simp] theorem State.setHold_dev (a : Nat) (v : Word) : (s.setHold a v).dev = s.dev := rfl
@[simp] theorem State.setHold_chrono (a : Nat) (v : Word) : (s.setHold a v).chrono = s.chrono := rfl
@[simp] theorem State.setHold_obs (a : Nat) (v : Word) : (s.setHold a v).obs = s.obs := rfl
@[simp] theorem State.setHold_chk (a : Nat) (v : Word) : (s.setHold a v).chk = s.chk := rfl
@[simp] theorem State.setHold_sec (a : Nat) (v : Word) : (s.setHold a v).sec = s.sec := rfl
@[simp] theorem State.setHold_pwr (a : Nat) (v : Word) : (s.setHold a v).pwr = s.pwr := rfl
@[simp] theorem State.setHold_mer (a : Nat) (v : Word) : (s.setHold a v).mer = s.mer := rfl
@[simp] theorem State.setHold_win (a : Nat) (v : Word) : (s.setHold a v).win = s.win := rfl
@[simp] theorem State.setHold_pool (a : Nat) (v : Word) : (s.setHold a v).pool = s.pool := rfl
@[simp] theorem State.setHold_voq (a : Nat) (v : Word) : (s.setHold a v).voq = s.voq := rfl
@[simp] theorem State.setHold_alm (a : Nat) (v : Word) : (s.setHold a v).alm = s.alm := rfl
@[simp] theorem State.setHold_rhb (a : Nat) (v : Word) : (s.setHold a v).rhb = s.rhb := rfl
@[simp] theorem State.setHold_net (a : Nat) (v : Word) : (s.setHold a v).net = s.net := rfl
@[simp] theorem State.setHold_sxt (a : Nat) (v : Word) : (s.setHold a v).sxt = s.sxt := rfl
@[simp] theorem State.setHold_cmp (a : Nat) (v : Word) : (s.setHold a v).cmp = s.cmp := rfl
@[simp] theorem State.setHold_pon (a : Nat) (v : Word) : (s.setHold a v).pon = s.pon := rfl
@[simp] theorem State.setHold_act (a : Nat) (v : Word) : (s.setHold a v).act = s.act := rfl
@[simp] theorem State.setHold_rck (a : Nat) (v : Word) : (s.setHold a v).rck = s.rck := rfl
@[simp] theorem State.setHold_xgm (a : Nat) (v : Word) : (s.setHold a v).xgm = s.xgm := rfl
@[simp] theorem State.setHold_lht (a : Nat) (v : Word) : (s.setHold a v).lht = s.lht := rfl

@[simp] theorem State.setCap_pending (a : Nat) (v : Word) : (s.setCap a v).pending = s.pending := rfl
@[simp] theorem State.setCap_raw (a : Nat) (v : Word) : (s.setCap a v).raw = s.raw := rfl
@[simp] theorem State.setCap_regs (a : Nat) (v : Word) : (s.setCap a v).regs = s.regs := rfl
@[simp] theorem State.setCap_hold (a : Nat) (v : Word) : (s.setCap a v).hold = s.hold := rfl
@[simp] theorem State.setCap_rdata (a : Nat) (v : Word) : (s.setCap a v).rdata = s.rdata := rfl
@[simp] theorem State.setCap_out (a : Nat) (v : Word) : (s.setCap a v).out = s.out := rfl
@[simp] theorem State.setCap_drawn (a : Nat) (v : Word) : (s.setCap a v).drawn = s.drawn := rfl
@[simp] theorem State.setCap_dev (a : Nat) (v : Word) : (s.setCap a v).dev = s.dev := rfl
@[simp] theorem State.setCap_chrono (a : Nat) (v : Word) : (s.setCap a v).chrono = s.chrono := rfl
@[simp] theorem State.setCap_obs (a : Nat) (v : Word) : (s.setCap a v).obs = s.obs := rfl
@[simp] theorem State.setCap_chk (a : Nat) (v : Word) : (s.setCap a v).chk = s.chk := rfl
@[simp] theorem State.setCap_sec (a : Nat) (v : Word) : (s.setCap a v).sec = s.sec := rfl
@[simp] theorem State.setCap_pwr (a : Nat) (v : Word) : (s.setCap a v).pwr = s.pwr := rfl
@[simp] theorem State.setCap_mer (a : Nat) (v : Word) : (s.setCap a v).mer = s.mer := rfl
@[simp] theorem State.setCap_win (a : Nat) (v : Word) : (s.setCap a v).win = s.win := rfl
@[simp] theorem State.setCap_pool (a : Nat) (v : Word) : (s.setCap a v).pool = s.pool := rfl
@[simp] theorem State.setCap_voq (a : Nat) (v : Word) : (s.setCap a v).voq = s.voq := rfl
@[simp] theorem State.setCap_alm (a : Nat) (v : Word) : (s.setCap a v).alm = s.alm := rfl
@[simp] theorem State.setCap_rhb (a : Nat) (v : Word) : (s.setCap a v).rhb = s.rhb := rfl
@[simp] theorem State.setCap_net (a : Nat) (v : Word) : (s.setCap a v).net = s.net := rfl
@[simp] theorem State.setCap_sxt (a : Nat) (v : Word) : (s.setCap a v).sxt = s.sxt := rfl
@[simp] theorem State.setCap_cmp (a : Nat) (v : Word) : (s.setCap a v).cmp = s.cmp := rfl
@[simp] theorem State.setCap_pon (a : Nat) (v : Word) : (s.setCap a v).pon = s.pon := rfl
@[simp] theorem State.setCap_act (a : Nat) (v : Word) : (s.setCap a v).act = s.act := rfl
@[simp] theorem State.setCap_rck (a : Nat) (v : Word) : (s.setCap a v).rck = s.rck := rfl
@[simp] theorem State.setCap_xgm (a : Nat) (v : Word) : (s.setCap a v).xgm = s.xgm := rfl
@[simp] theorem State.setCap_lht (a : Nat) (v : Word) : (s.setCap a v).lht = s.lht := rfl

@[simp] theorem State.emit_pending (o : Output) : (s.emit o).pending = s.pending := rfl
@[simp] theorem State.emit_raw (o : Output) : (s.emit o).raw = s.raw := rfl
@[simp] theorem State.emit_regs (o : Output) : (s.emit o).regs = s.regs := rfl
@[simp] theorem State.emit_hold (o : Output) : (s.emit o).hold = s.hold := rfl
@[simp] theorem State.emit_cap (o : Output) : (s.emit o).cap = s.cap := rfl
@[simp] theorem State.emit_rdata (o : Output) : (s.emit o).rdata = s.rdata := rfl
@[simp] theorem State.emit_drawn (o : Output) : (s.emit o).drawn = s.drawn := rfl
@[simp] theorem State.emit_dev (o : Output) : (s.emit o).dev = s.dev := rfl
@[simp] theorem State.emit_chrono (o : Output) : (s.emit o).chrono = s.chrono := rfl
@[simp] theorem State.emit_obs (o : Output) : (s.emit o).obs = s.obs := rfl
@[simp] theorem State.emit_chk (o : Output) : (s.emit o).chk = s.chk := rfl
@[simp] theorem State.emit_sec (o : Output) : (s.emit o).sec = s.sec := rfl
@[simp] theorem State.emit_pwr (o : Output) : (s.emit o).pwr = s.pwr := rfl
@[simp] theorem State.emit_mer (o : Output) : (s.emit o).mer = s.mer := rfl
@[simp] theorem State.emit_win (o : Output) : (s.emit o).win = s.win := rfl
@[simp] theorem State.emit_pool (o : Output) : (s.emit o).pool = s.pool := rfl
@[simp] theorem State.emit_voq (o : Output) : (s.emit o).voq = s.voq := rfl
@[simp] theorem State.emit_alm (o : Output) : (s.emit o).alm = s.alm := rfl
@[simp] theorem State.emit_rhb (o : Output) : (s.emit o).rhb = s.rhb := rfl
@[simp] theorem State.emit_net (o : Output) : (s.emit o).net = s.net := rfl
@[simp] theorem State.emit_sxt (o : Output) : (s.emit o).sxt = s.sxt := rfl
@[simp] theorem State.emit_cmp (o : Output) : (s.emit o).cmp = s.cmp := rfl
@[simp] theorem State.emit_pon (o : Output) : (s.emit o).pon = s.pon := rfl
@[simp] theorem State.emit_act (o : Output) : (s.emit o).act = s.act := rfl
@[simp] theorem State.emit_rck (o : Output) : (s.emit o).rck = s.rck := rfl
@[simp] theorem State.emit_xgm (o : Output) : (s.emit o).xgm = s.xgm := rfl
@[simp] theorem State.emit_lht (o : Output) : (s.emit o).lht = s.lht := rfl

@[simp] theorem State.ret_pending (v : Word) : (s.ret v).pending = s.pending := rfl
@[simp] theorem State.ret_raw (v : Word) : (s.ret v).raw = s.raw := rfl
@[simp] theorem State.ret_regs (v : Word) : (s.ret v).regs = s.regs := rfl
@[simp] theorem State.ret_hold (v : Word) : (s.ret v).hold = s.hold := rfl
@[simp] theorem State.ret_cap (v : Word) : (s.ret v).cap = s.cap := rfl
@[simp] theorem State.ret_out (v : Word) : (s.ret v).out = s.out := rfl
@[simp] theorem State.ret_drawn (v : Word) : (s.ret v).drawn = s.drawn := rfl
@[simp] theorem State.ret_dev (v : Word) : (s.ret v).dev = s.dev := rfl
@[simp] theorem State.ret_chrono (v : Word) : (s.ret v).chrono = s.chrono := rfl
@[simp] theorem State.ret_obs (v : Word) : (s.ret v).obs = s.obs := rfl
@[simp] theorem State.ret_chk (v : Word) : (s.ret v).chk = s.chk := rfl
@[simp] theorem State.ret_sec (v : Word) : (s.ret v).sec = s.sec := rfl
@[simp] theorem State.ret_pwr (v : Word) : (s.ret v).pwr = s.pwr := rfl
@[simp] theorem State.ret_mer (v : Word) : (s.ret v).mer = s.mer := rfl
@[simp] theorem State.ret_win (v : Word) : (s.ret v).win = s.win := rfl
@[simp] theorem State.ret_pool (v : Word) : (s.ret v).pool = s.pool := rfl
@[simp] theorem State.ret_voq (v : Word) : (s.ret v).voq = s.voq := rfl
@[simp] theorem State.ret_alm (v : Word) : (s.ret v).alm = s.alm := rfl
@[simp] theorem State.ret_rhb (v : Word) : (s.ret v).rhb = s.rhb := rfl
@[simp] theorem State.ret_net (v : Word) : (s.ret v).net = s.net := rfl
@[simp] theorem State.ret_sxt (v : Word) : (s.ret v).sxt = s.sxt := rfl
@[simp] theorem State.ret_cmp (v : Word) : (s.ret v).cmp = s.cmp := rfl
@[simp] theorem State.ret_pon (v : Word) : (s.ret v).pon = s.pon := rfl
@[simp] theorem State.ret_act (v : Word) : (s.ret v).act = s.act := rfl
@[simp] theorem State.ret_rck (v : Word) : (s.ret v).rck = s.rck := rfl
@[simp] theorem State.ret_xgm (v : Word) : (s.ret v).xgm = s.xgm := rfl
@[simp] theorem State.ret_lht (v : Word) : (s.ret v).lht = s.lht := rfl

@[simp] theorem State.draw_pending : s.draw.2.pending = s.pending := rfl
@[simp] theorem State.draw_raw : s.draw.2.raw = s.raw := rfl
@[simp] theorem State.draw_regs : s.draw.2.regs = s.regs := rfl
@[simp] theorem State.draw_hold : s.draw.2.hold = s.hold := rfl
@[simp] theorem State.draw_cap : s.draw.2.cap = s.cap := rfl
@[simp] theorem State.draw_rdata : s.draw.2.rdata = s.rdata := rfl
@[simp] theorem State.draw_out : s.draw.2.out = s.out := rfl
@[simp] theorem State.draw_dev : s.draw.2.dev = s.dev := rfl
@[simp] theorem State.draw_chrono : s.draw.2.chrono = s.chrono := rfl
@[simp] theorem State.draw_obs : s.draw.2.obs = s.obs := rfl
@[simp] theorem State.draw_chk : s.draw.2.chk = s.chk := rfl
@[simp] theorem State.draw_sec : s.draw.2.sec = s.sec := rfl
@[simp] theorem State.draw_pwr : s.draw.2.pwr = s.pwr := rfl
@[simp] theorem State.draw_mer : s.draw.2.mer = s.mer := rfl
@[simp] theorem State.draw_win : s.draw.2.win = s.win := rfl
@[simp] theorem State.draw_pool : s.draw.2.pool = s.pool := rfl
@[simp] theorem State.draw_voq : s.draw.2.voq = s.voq := rfl
@[simp] theorem State.draw_alm : s.draw.2.alm = s.alm := rfl
@[simp] theorem State.draw_rhb : s.draw.2.rhb = s.rhb := rfl
@[simp] theorem State.draw_net : s.draw.2.net = s.net := rfl
@[simp] theorem State.draw_sxt : s.draw.2.sxt = s.sxt := rfl
@[simp] theorem State.draw_cmp : s.draw.2.cmp = s.cmp := rfl
@[simp] theorem State.draw_pon : s.draw.2.pon = s.pon := rfl
@[simp] theorem State.draw_act : s.draw.2.act = s.act := rfl
@[simp] theorem State.draw_rck : s.draw.2.rck = s.rck := rfl
@[simp] theorem State.draw_xgm : s.draw.2.xgm = s.xgm := rfl
@[simp] theorem State.draw_lht : s.draw.2.lht = s.lht := rfl

@[simp] theorem State.emit_out (o : Output) : (s.emit o).out = s.out ++ [o] := rfl
@[simp] theorem State.ret_rdata (v : Word) : (s.ret v).rdata = v := rfl
@[simp] theorem State.draw_drawn : s.draw.2.drawn = s.drawn + 1 := rfl
@[simp] theorem State.draw_index : s.draw.1 = s.drawn := rfl

/-! ### Reading a register -/

/-- A register read looks at the register table alone. -/
@[simp] theorem State.rd_mk (pending : List Instr) (raw : Raw) (regs : SMap Word) (hold : SMap Word) (cap : SMap Word)
    (rdata : Word) (out : List Output) (drawn : Nat) (dev : Dev) (chrono : Chrono) (obs : Obs) (chk : Chk) (sec : Sec) (pwr : Pwr)
    (mer : Mer) (win : Win) (pool : Pool) (voq : Voqs) (alm : Alm) (rhb : Rhb) (net : Net) (sxt : Sxt) (cmp : Cmp)
    (pon : PonLine) (act : Act) (rck : Rck) (xgm : Xgm) (lht : Lht) (a : Nat) :
    (State.mk pending raw regs hold cap rdata out drawn dev chrono obs chk sec pwr mer win pool voq alm rhb net sxt
      cmp pon act rck xgm lht).rd a = regs.get resetOf a := rfl

@[simp] theorem State.rd_fold (a : Nat) : s.regs.get resetOf a = s.rd a := rfl

/-- A write changes the register at its address and no other. -/
theorem State.rd_wr (a : Nat) (v : Word) (b : Nat) : (s.wr a v).rd b = if b = a then v else s.rd b :=
  SMap.get_set resetOf s.regs a b v

@[simp] theorem State.rd_wr_self (a : Nat) (v : Word) : (s.wr a v).rd a = v := by simp [State.rd_wr]

theorem State.rd_wr_other {a b : Nat} (v : Word) (h : b ≠ a) : (s.wr a v).rd b = s.rd b := by simp [State.rd_wr, h]

@[simp] theorem State.rd_emit (o : Output) (b : Nat) : (s.emit o).rd b = s.rd b := rfl
@[simp] theorem State.rd_ret (v : Word) (b : Nat) : (s.ret v).rd b = s.rd b := rfl
@[simp] theorem State.rd_setHold (a : Nat) (v : Word) (b : Nat) : (s.setHold a v).rd b = s.rd b := rfl
@[simp] theorem State.rd_setCap (a : Nat) (v : Word) (b : Nat) : (s.setCap a v).rd b = s.rd b := rfl
@[simp] theorem State.rd_draw (b : Nat) : s.draw.2.rd b = s.rd b := rfl

theorem State.rd_setFld (a hi lo v b : Nat) :
    (s.setFld a hi lo v).rd b = if b = a then Machine.setFld (s.rd a) hi lo v else s.rd b := State.rd_wr s a _ b

theorem State.rd_setBit (a i : Nat) (x : Bool) (b : Nat) :
    (s.setBit a i x).rd b = if b = a then Machine.setBit (s.rd a) i x else s.rd b := State.rd_wr s a _ b

theorem State.rd_wrNat (a v b : Nat) : (s.wrNat a v).rd b = if b = a then BitVec.ofNat 32 v else s.rd b := State.rd_wr s a _ b

theorem State.rd_bumpBy (a n b : Nat) : (s.bumpBy a n).rd b = if b = a then satAdd (s.rd a) n else s.rd b := State.rd_wr s a _ b

theorem State.rd_bump (a b : Nat) : (s.bump a).rd b = if b = a then satAdd (s.rd a) 1 else s.rd b := State.rd_wr s a _ b

theorem State.rd_wrap (a b : Nat) : (s.wrap a).rd b = if b = a then s.rd a + 1 else s.rd b := State.rd_wr s a _ b

/-- A typed write changes at most the register at its address. -/
theorem State.rd_wrTyped_other {a b : Nat} (v : Word) (h : b ≠ a) : (s.wrTyped a v).rd b = s.rd b := by
  unfold State.wrTyped
  split
  · exact State.rd_wr_other s _ h
  · rfl

/-- A typed write of a register that the map lists stores by field type (R9). -/
theorem State.wrTyped_of {a : Nat} {d : RegD} {ij : Nat × Nat} (h : regAt a = some (d, ij)) (v : Word) :
    s.wrTyped a v = s.wr a (d.written (s.rd a) v) := by
  unfold State.wrTyped; rw [h]

/-! ### A raised event (R356, R358) -/

/-- `t` is `s` but for registers, the event buffer, the groups' cells to send and the outbox. -/
def State.EventOnly (s t : State) : Prop := 
  t = { s with regs := t.regs, obs := t.obs, rhb := { s.rhb with groups := t.rhb.groups }, out := t.out }

theorem State.EventOnly.trans {s t u : State} (h : s.EventOnly t) (k : t.EventOnly u) : s.EventOnly u := by
  unfold State.EventOnly at *
  rw [k, h]

theorem State.sendMer_frame (d : Nat) (m : MerMsg) : s.EventOnly (s.sendMer d m) := by
  unfold State.sendMer State.sendOther State.queueCell State.setGroup State.emit
  repeat' split
  all_goals rfl

theorem State.forward_frame (leaf : Nat) (t : BitVec 96) (words : List Word) : s.EventOnly (s.forward leaf t words) := by
  unfold State.forward
  repeat' split
  all_goals first
    | exact State.sendMer_frame s _ _
    | rfl

theorem State.putRecord_frame (leaf : Nat) (fwd : Bool) (view : Nat) (ns32 : Word) (subns : Byte) (src : Nat)
    (words : List Word) : s.EventOnly (s.putRecord leaf fwd view ns32 subns src words) := by
  unfold State.putRecord
  dsimp only
  split <;> rfl

/-- An event changes registers, the event buffer, the groups' cells to send and the outbox, and nothing else. -/
theorem State.raise_frame (leaf inst : Nat) (w1 w2 w3 : Word) : s.EventOnly (s.raise leaf inst w1 w2 w3) := by
  unfold State.raise
  have k : s.EventOnly (s.setStatus leaf) := rfl
  refine State.EventOnly.trans ?_ (State.forward_frame _ _ _ _)
  split
  · exact k.trans (State.putRecord_frame _ _ _ _ _ _ _ _)
  · exact k

/-- The registers that an event may change. -/
theorem State.rd_raise_other (leaf inst : Nat) (w1 w2 w3 : Word) {b : Nat} (h1 : b ≠ Reg.evtStatus (leaf / 32))
    (h2 : b ≠ Reg.evtStatus (leafBufOverflow / 32)) (h3 : b ≠ Reg.evtBufDrop) (h4 : b ≠ Reg.merEvtLost) :
    (s.raise leaf inst w1 w2 w3).rd b = s.rd b := by
  have hm : ∀ (t : State) d m, (t.sendMer d m).rd b = t.rd b := by
    intro t d m
    unfold State.sendMer State.sendOther State.queueCell State.setGroup
    repeat' split
    all_goals rfl
  unfold State.raise State.forward State.putRecord State.setStatus
  dsimp only
  repeat' split
  all_goals simp [hm, State.rd_setBit, State.rd_bump, h1, h2, h3, h4]

end Sys2Proof.Machine
end

