-- ==== Sys2Proof/Machine/Package.lean ====
section
/-!
DEFINITION. Machine/Package.lean: the rails (Table 20.1) and where the balls lie (R394 to R400). No command changes what stands
here: it is the wiring between the pins that the other files name and the board.
-/
namespace Sys2Proof.Machine

/-! ### Rails (R381) -/

/-- A logic rail: nominal voltage and operating range at the package in mV, its largest current in A. -/
structure Rail where
  nominal : Nat
  low : Nat
  high : Nat
  amps : Nat
deriving DecidableEq, Repr

/-- Rail k of PWR_EN[k], PWR_PG[k] and PWR_RAIL[k] (Table 20.1); VCORE at an AVC target in mV, with its ±10 mV. -/
def railOf (target k : Nat) : Option Rail :=
  match k with
  | 0 => some ⟨1800, 1710, 1890, 2⟩
  | 1 => some ⟨target, target - 10, target + 10, 760⟩
  | 2 => some ⟨800, 776, 824, 80⟩
  | 3 => some ⟨900, 873, 927, 100⟩
  | 4 => some ⟨1200, 1164, 1236, 30⟩
  | 5 => some ⟨1100, 1067, 1133, 45⟩
  | 6 => some ⟨400, 388, 412, 90⟩
  | _ => none

/-! ### Balls (R394 to R400) -/

/-- A ball: column and row, 1 to 88. -/
abbrev Ball := Nat × Nat

/-- Signals of a PON port's block (R395): the pairs with their two legs, and the three single pins. -/
inductive PonPin where
  | ds50Tx (neg : Bool) | ds10Tx (neg : Bool) | us50Rx (neg : Bool) | us10Rx (neg : Bool)
  | brstN | rssiTrig | txdis
deriving DecidableEq, Repr

/-- Signals of a cage channel (R399). -/
inductive CagePin where
  | gate | isnsPos | isnsNeg
deriving DecidableEq, Repr

/-- The signals of the service and control region (Table 20.8). -/
inductive ServicePin where
  | helmTx (k : Fin 8) | helmRx (k : Fin 8) | refclkPcie | perstN | mgmtTx (b : Bool) | mgmtRx (b : Bool)
  | lhTx | lhRx | refclkPon | refclkEth | timeInPps | timeInTod | timeOutPps | timeOutTod | synceOut (b : Bool)
  | resetN | pwrOk | zeroizeN | merStrap (k : Fin 2) | timeGpio (k : Fin 8)
deriving DecidableEq, Repr

/-- The other signals of the Binnacle region, in the order of row 071 (R399). -/
inductive BinPin where
  | powerFailN | pmbScl | pmbSda | pmbAlertN | bmcScl | bmcSda | spiClk | spiCsN | spiIo (k : Fin 4) | binClk | cageVin
  | cpFlyPos | cpFlyNeg | cpOut
deriving DecidableEq, Repr

/-- A signal with a ball of its own; `neg` is the second leg of a pair. -/
inductive Pin where
  | pon (n : Fin 48) (p : PonPin)
  | rhb (lane : Fin 64) (rx neg : Bool)
  | net (lane : Fin 48) (rx neg : Bool)
  | service (p : ServicePin) (neg : Bool)
  | cage (ch : Fin 72) (p : CagePin)
  | bin (p : BinPin)
  | vcoreSns (neg : Bool)
  | pwrEn (k : Fin 7)
  | pwrPg (k : Fin 7)
deriving DecidableEq, Repr

/-- 1 for the second leg. -/
def leg (neg : Bool) : Nat := if neg then 1 else 0

/-- The place of a PON signal in its block of 3 columns by 7 rows (R395). -/
def PonPin.at : PonPin → Nat × Nat
  | .ds50Tx b => (leg b, 0)
  | .ds10Tx b => (leg b, 2)
  | .us50Rx b => (leg b, 4)
  | .us10Rx b => (leg b, 6)
  | .brstN => (2, 1)
  | .rssiTrig => (2, 3)
  | .txdis => (2, 5)

/-- The column of a service signal (Table 20.8). -/
def ServicePin.column : ServicePin → Nat
  | .helmTx k => 15 + k.val
  | .helmRx k => 23 + k.val
  | .refclkPcie => 31
  | .perstN => 32
  | .mgmtTx b => if b then 35 else 33
  | .mgmtRx b => if b then 36 else 34
  | .lhTx => 37
  | .lhRx => 38
  | .refclkPon => 39
  | .refclkEth => 40
  | .timeInPps => 41
  | .timeInTod => 42
  | .timeOutPps => 43
  | .timeOutTod => 44
  | .synceOut b => if b then 46 else 45
  | .resetN => 47
  | .pwrOk => 48
  | .zeroizeN => 49
  | .merStrap k => 50 + k.val
  | .timeGpio k => 52 + k.val

/-- A service signal that is a pair (Table 20.8). -/
def ServicePin.pair : ServicePin → Bool
  | .perstN | .timeInTod | .timeOutTod | .resetN | .pwrOk | .zeroizeN | .merStrap _ | .timeGpio _ => false
  | _ => true

/-- The column of a signal of row 071 (R399). -/
def BinPin.column : BinPin → Nat
  | .powerFailN => 51
  | .pmbScl => 52
  | .pmbSda => 53
  | .pmbAlertN => 54
  | .bmcScl => 55
  | .bmcSda => 56
  | .spiClk => 57
  | .spiCsN => 58
  | .spiIo k => 59 + k.val
  | .binClk => 63
  | .cageVin => 64
  | .cpFlyPos => 65
  | .cpFlyNeg => 66
  | .cpOut => 67

/-- The ball of a signal (R395 to R399); none for the second leg of a signal that is no pair. -/
def Pin.ball : Pin → Option Ball
  | .pon n p => some (8 + 3 * (n.val % 24) + p.at.1, 1 + 14 * (n.val / 24) / 2 + p.at.2)
  | .rhb l rx neg => some (12 + 2 * (l.val % 32) + leg neg, 75 + 7 * (l.val / 32) + (if rx then 4 else 1))
  | .net m rx neg =>
    let c := if m.val < 24 then (if rx then 9 else 3) else if rx then 85 else 79
    some (c + leg neg, 16 + 2 * (m.val % 24))
  | .service p neg => if neg && !p.pair then none else some (p.column, 17 + leg neg)
  | .cage ch p =>
    let k := match p with
      | .gate => 0
      | .isnsPos => 1
      | .isnsNeg => 2
    some (15 + ch.val % 36, 69 + 3 * (ch.val / 36) + k)
  | .bin p => some (p.column, 71)
  | .vcoreSns neg => some (51 + leg neg, 72)
  | .pwrEn k => some (51 + k.val, 73)
  | .pwrPg k => some (51 + k.val, 74)

/-- The supply of a ball, if it is one: VIN_12 in the Binnacle region (none: index 7), else the rails of the supply core in the order
VCORE, VSRAM, VHBM_C, VHBM_Q, VSD_A, VSD_T, VIO, row by row from ball 015.021 (R399, R400). -/
def supplyBall (b : Ball) : Option Nat :=
  if b.2 = 69 ∧ 51 ≤ b.1 ∧ b.1 ≤ 66 then some 7
  else if 15 ≤ b.1 ∧ b.1 ≤ 74 ∧ 21 ≤ b.2 ∧ b.2 ≤ 68 then
    let i := (b.2 - 21) * 60 + (b.1 - 15)
    if i < 880 then some 1
    else if i < 980 then some 2
    else if i < 1044 then some 5
    else if i < 1164 then some 6
    else if i < 1292 then some 3
    else if i < 1340 then some 4
    else if i < 1348 then some 0
    else none
  else none

end Sys2Proof.Machine
end

