-- ==== Sys2Proof/Tests/Slice0.lean ====
section
/-!
SUPPORT. Tests/Slice0.lean: for every statement with hypotheses, states and operands that meet them; an ill-formed term for
each check of WellFormed.lean; the spec's own numbers; single commands on small states.
-/
namespace Sys2Proof.Tests

open Sys2Proof.Machine Sys2Proof.Safety

set_option Elab.async false
set_option linter.unusedSimpArgs false

/-! ### Small states -/

/-- A block in ACTIVE. -/
def stA : State := { State.reset with dev := { mode := .active } }

/-- A frame from port 73 (MGMT_A). -/
def frameA : Frame := { bytes := List.replicate 64 0, port := 73 }

/-- A frame with a right FCS. -/
def goodBytes : List Byte := List.replicate 60 0 ++ leBytes 4 (crcOf (crcPreset 0) (List.replicate 60 0))

/-- A pause frame of 5 quanta. -/
def pauseBytes : List Byte :=
  let b := List.replicate 12 0 ++ beBytes 2 0x8808 ++ beBytes 2 1 ++ beBytes 2 5 ++ List.replicate 42 0
  b ++ leBytes 4 (crcOf (crcPreset 0) b)

/-- Port blocks 0, 24 and 25 enabled and up, in ACTIVE; network port 0 has a personality. -/
def stNet : State :=
  (((((((stA.wr (Reg.netPersonality 0) 1).wr (Reg.netPortStatus 0) 0xC0000000).wr (Reg.netPortStatus 24) 0xC0000000).wr
    (Reg.netPortStatus 25) 0xC0000000).setBit (Reg.netPortCfg 0) 31 true).setBit (Reg.netPortCfg 24) 31 true).setFld
      (Reg.netPortCfg 0) 13 0 2000)

/-- The same with PFC on every priority of ports 0 and 25. -/
def stNetFc : State := (stNet.wr (Reg.netFcCfg 0) 0x80FF0000).wr (Reg.netFcCfg 25) 0x80FF0000

/-- The same with a pause timer on priority 3 of port 0 that ends at 1 ns, and priority 0 in XOFF. -/
def stPaused : State :=
  { stNetFc with net := { ports := SMap.set (fun _ => {}) [] 0 { pause := SMap.set (fun _ => none) [] 3 (some 65536), xoff := 2 } } }

/-- A frame staged for MGMT_A. -/
def storedA : Stored := { frame := frameA, len := 64, cls := 3 }

def stStaged : State := stNet.setStaging 73 [storedA]

/-- MGMT_A up without a cause to go down. -/
def stNetGood : State := stNet

/-- MGMT_A enabled and down, in ACTIVE. -/
def stNetDown : State := stA.setBit (Reg.netPortCfg 24) 31 true

/-- MGMT_A with PCS lock, settling until 1 ns. -/
def stNetSettle : State :=
  { (stNetDown.wr (Reg.netPortStatus 24) 0x40000000) with net := { ports := SMap.set (fun _ => {}) [] 24 { upAt := some 65536 } } }

/-- Network port 0 with a personality, an SA and a User. -/
def stSec : State := ({ stNet with sec.role := 2 }).setSa 0 1 { valid := true, pn := 5 }

/-- A block with chart table 1 of 16 entries, pipeline 8 selected. -/
def stChart : State :=
  { stA with dev := { mode := .active, structValid := true, body := { carve := { tables := [{ table := 1, kind := 0, size := 16 }] } } } }.wr
    Reg.cmpTblPipe 8

/-- The same steered to table 1 in pipeline 3, with something staged in both windows. -/
def stStage : State :=
  { (stChart.wr (Reg.devWinSel 0) 0x03000001) with win := { stage := [(0, 4), (15, 5), (16, 6), (23, 7)] } }

/-- A block with a direct Sextant table 2 of 64 entries, mapped by window 1. -/
def stDirect : State :=
  { stA with dev := { mode := .active, structValid := true, body := { carve := { tables := [{ table := 2, kind := 4, sub := 3, size := 64 }] } } } }.wr
    (Reg.devWinSel 1) 2

/-- Every long operation busy, PROGRESS 5, in MAINTENANCE. -/
def stBusy : State :=
  ({ State.reset with dev := { mode := .maintenance } }).each (allLongOps.map opStat) fun a s => s.wr a 0x80000005

/-- Every list with some cells in its cache and some threaded; writer 13 took its last cell from list 4. -/
def stPool : State := stA.threadLists.setWriter 13 { last := 4 }

/-- An audit that walks list `k`, which has 1,000 cells threaded. -/
def stAuditRun (k : Nat) : AuditRun := { list := k, start := 1000, todo := 1000, failed := 3 }
def stAudit (k : Nat) : State :=
  let s := stPool.setFree k { cache := [⟨0, 1023⟩], fresh := ⟨2000, 1000⟩ }
  { s with pool := { s.pool with audit := some (stAuditRun k) } }

/-- List 15 short of cells in its cache. -/
def stPoolLow : State := stPool.setFree 15 { cache := [⟨0, 1023⟩], fresh := ⟨2000, 7⟩ }

/-- A frame of class 3 for port 73 of device 7. -/
def storedV : Stored := { frame := frameA, len := 64, cls := 3, dev := 7, port := 73 }

/-- VOQ 9 holds it; VOQ 5 is empty and stands for class 7 of port 127 of device 1023. -/
def stVoq : State :=
  ({ stPool with voq := { stPool.voq with map := SMap.set (fun _ => 0) [] (destKey 1023 127) 0x80000005 } }).setVoq 9
    { frames := [storedV], dev := 7, port := 73, cls := 3 }

/-- A request of device 9 for class 2 of MGMT_B. -/
def stReq : State := stPool.setReq { port := 74, cls := 2, src := 9, on := true }

/-- Node 5 of level 2 is due on the coarse wheel at 1 ns with the tokens given, under a profile of 8 Mb/s. -/
def stWheel (tok : Int) : State :=
  { stA with alm := { nodes := [(1048581, { wheel := some (true, 1), max := { tok := tok, last := 0 } })],
                      prof := SMap.set profReset [] (profKey 0 0 0) [8000, 64, 0, 0, 0, 0, 0, 0, 0, 0] } }

/-- A request of device 9 for class 2 of PON port 5, which may hold 64 kB. -/
def stReqPon : State := (stPool.wr (Reg.almPonCredit 5) 64).setReq { port := 5, cls := 2, src := 9, on := true }

/-- Network port 0 with one valid node on each level below its root 96, and a request of device 9 for its class 2. -/
def stReqNet : State :=
  let s : State := { stPool with dev := { stPool.dev with body := { sched := { ranges := [(2, 0, 4095, 0, 119), (3, 0, 65535, 0, 4095), (4, 0, 131071, 0, 65535), (5, 0, 524287, 0, 131071)] } } } }
  let s := (s.wr (Reg.netPersonality 0) 1).wr (Reg.almNetClass 2) 0x80004E20
  let s := { s with alm := { nodes := [(524384, { cfg0 := 0x80000000 }), (1048596, { cfg0 := 0x80000060, cfg1 := 1 }), (1573064, { cfg0 := 0x80000014, cfg1 := 1 }),
    (2099152, { cfg0 := 0x800000C8, cfg1 := 1 }), (2641440, { cfg0 := 0x800007D0, cfg1 := 1 })] } }
  s.setReq { port := 48, cls := 2, src := 9, on := true }
def stReqNetQ : Option (List Nat) × State :=
  stReqNet.settle.select (fun i => !(stReqNet.openClasses 0 i).isEmpty) 4 1 96

/-- Port 0 with an admin and an oper entry. -/
def stGate : State :=
  { stNet with alm := { entries := SMap.set (fun _ => (0, 0)) (SMap.set (fun _ => (0, 0)) [] 5 (0x0F, 100)) 1029 (0xF0, 200) } }

/-- The same with a switch pending since view time 0. -/
def stGatePend : State :=
  { stGate.setBit (Reg.almGateStatus 0) 31 true with
    alm := { stGate.alm with gates := SMap.set (fun _ => {}) [] 0 { nextT0 := 0, nextCycle := 300, nextLen := 8 } } }

/-- The same with its oper list running. -/
def stGateRun : State :=
  { stGate.setBit (Reg.almGateCfg 0) 31 true with
    alm := { stGate.alm with gates := SMap.set (fun _ => {}) [] 0 { valid := true, cycle := 300, len := 8 } } }

/-- PON port 0 up and transmitting; port-ID 5 bound to ONU 7; a frame of egress queue 3 waits on channel 0; burst 0 of map 4 is
confirmed with one allocation; the reassembly of port-ID 5 is idle, that of port-ID 6 open. -/
def stXgem : State :=
  { stA.wr (Reg.ponLineStatus 0) 0xC0000000 with
    xgm := { dsq := SMap.set (fun _ => 0) [] 3 0x80000005, binds := SMap.set (fun _ => {}) [] 5 { cfg0 := 0x80000007 },
             wait := SMap.set (fun _ => none) [] 0 (some (3, storedA)), area := SMap.set (fun _ => (0, 0)) [] 0 (100, 200), reasm := SMap.set (fun _ => {}) [] 6 { isOpen := true } },
    act := { onus := SMap.set (fun _ => {}) [] 7 { st := .operational } },
    pon := { maps := [(0, [{ f := 4, sent := true, bursts := [{ onu := 7, st := .confirmed, grants := [{ onu := 7, ctx := some 2 }] }] }])] } }

/-- The same with one valid node on each level below the root of channel 0, the frame in queue 20,000, and none waiting. -/
def stXgemSel : State :=
  { stXgem with
    dev := { stXgem.dev with body := { sched := { ranges := [(2, 0, 4095, 0, 119), (3, 0, 65535, 0, 4095), (4, 0, 131071, 0, 65535), (5, 0, 524287, 0, 131071)] } } },
    alm := { nodes := [(524288, { cfg0 := 0x80000000 }), (1048596, { cfg0 := 0x80000000, cfg1 := 1 }), (1573064, { cfg0 := 0x80000014, cfg1 := 1 }),
      (2099152, { cfg0 := 0x800000C8, cfg1 := 1 }), (2641440, { cfg0 := 0x800007D0, cfg1 := 1, frames := [storedA] })] },
    xgm := { stXgem.xgm with wait := [] } }
def stXgemW : State := stXgemSel.idleFill 0 10
def stXgemQ : Option (List Nat) × State := stXgemW.settle.select (fun i => !(stXgemW.node 5 i).frames.isEmpty) 4 1 0

/-- The same with a grant that belongs to no allocation. -/
def stXgemNoCtx : State :=
  { stXgem with pon := { maps := [(0, [{ f := 4, sent := true, bursts := [{ onu := 7, st := .confirmed, grants := [{ onu := 7 }] }] }])] } }

/-- Burst 0 of map 4 of channel 0 is confirmed with one allocation that asked for a report. -/
def stRck : State :=
  { stA with pon := { maps := [(0, [{ f := 4, sent := true, bursts := [{ onu := 7, st := .confirmed, grants := [{ onu := 7, ctx := some 2, dbru := true }] }] }])] } }

/-- A booking for a context that is not VALID waits since the raw value given; a report of client 5 waits. -/
def stBook (r : Raw) : State :=
  { stA with rck := { booking := some { n := 3, a := 7, t := 125000, vol := 64, spread := 1, train := 0, at' := r } } }
def stCti : State :=
  (({ stA with cmp := { cti := [frameA] } } : State).wr (Reg.dbaCtiMapW0 9) 5).wr (Reg.dbaCtiMapW1 9) 0x80000000

/-- An image of one section of 16 bytes. -/
def hdrA : ImgHeader :=
  { magic := 0x4B545349, format := 1, sectionCount := 1, imageLen := 272, imageId := 9, svn := 0, keySlot := 0, stepping := 0xB0 }
def dirA : List DirEntry := [{ type := 7, offset := 48, length := 16, flags := 0 }]
def imgA : ImageFile := { hdr := hdrA, dir := dirA, sections := [.entry []], pubkey := [], sig := [], digest := 0 }

/-- A load that has read nothing; its header; its directory; its first pass; its section. -/
def stLoad (r : LoadRun) : State :=
  { State.reset.wr (opStat .imageLoad) 0x80000000 with dev := { load := some r } }
def runH : LoadRun := { flash := false, len := 272, hdr := some hdrA, bytes := 32 }
def runD : LoadRun := { runH with dir := dirA, bytes := 48 }
def runS : LoadRun := { runD with second := true, bytes := 272 }
def runE : LoadRun := { runS with applied := [0] }

/-- A swap in a given state of its steps, in ACTIVE. -/
def stSwap (r : SwapRun) : State :=
  { State.reset.wr (opStat .imageSwap) 0x80000000 with dev := { mode := .active, swap := some r } }
def runP (p : SwapPhase) : SwapRun := { flash := false, len := 272, phase := p, img := some imgA }

/-- A sample waits for the host on ring 3; ring 3 has 64 descriptors and the host has posted two from HEAD 63. -/
def puntA : Punt := { ring := 3, frame := frameA, reason := 7, extra := [1, 2] }
def stPunt : State := { stA with dev := { mode := .active, punts := [puntA] } }
def stPuntRing : State :=
  ((stPunt.wr (Reg.devRingPuntSize 3) 6).wr (Reg.devRingPuntHead 3) 63).wr (Reg.devRingPuntTail 3) 1

/-- Inject ring 5 has 64 descriptors, one of them the device's. -/
def injA : InjDesc :=
  { srcPort := 73, dstPort := 74, cls := 3, tsReq := true, tsQueue := 1, tsId := 9 }
def stInjRing : State :=
  ((stNet.wr (Reg.devRingInjSize 5) 6).wr (Reg.devRingInjHead 5) 63).wr (Reg.devRingInjTail 5) 0

/-- SAFE since instant 0, with PON port 0 transmitting. -/
def stGrace : State :=
  { State.reset.wr (Reg.ponLineStatus 0) 0x40000000 with dev := { mode := .safe, safeAt := some 0 } }

/-- Full commissioning in a phase. -/
def stComm (p : Nat) : State :=
  { State.reset.wr Reg.devCommStatus 0x80000000 with dev := { mode := .commission, commPhase := p } }

/-- A Binnacle phase with one rail on. -/
def stRail (p : BinPhase) : State := { State.reset with pwr := { phase := p, railsOn := 1 } }

/-- A cage channel in a state, after commissioning. -/
def stCage (ch : Nat) (c : Cage) : State :=
  { stA with dev := { mode := .active, commOnce := true }, pwr := { cages := SMap.set (fun _ => {}) [] ch c } }

/-- A view with an offset and a rate, some time after its epoch, and held words. -/
def stTime : State :=
  { (stA.wrWords (Reg.timeViewOffsetW0 15) [7, 8, 0]).wrWords (Reg.timeViewRateLo 15) [0x1000] with
    raw := 0x123450000, hold := SMap.set resetOf (SMap.set resetOf [] (Reg.timeViewRateLo 15) 0x55) (Reg.timeViewStepLo 15) 0x66 }

/-- Waypoint 9 armed for 5 ns: a pulse of 32 ns on pin 7. -/
def stWp : State :=
  { stA.setBit (Reg.timeGpioCfg 7) 0 true with
    chrono := { armed := [(9, some { ns := 5, view := 0, action := 6, arg := 0x207, notify := false, skip := false })] } }

/-- The same waypoint with the action and argument given. -/
def stWpAct (k arg : Nat) : State :=
  { stWp with chrono := { armed := [(9, some { ns := 5, view := 0, action := k, arg := arg, notify := false, skip := false })] } }

/-- A granted burst of ONU 7. -/
def burstA : Burst := { onu := 7, start := 1000, grants := [{ onu := 7, ctx := some 2, dbru := true }] }

/-- PON port 0 up and transmitting with channel 1, its cage on; map 4 complete, taken and sent: a data burst and discovery wait,
one burst is confirmed. -/
def stPon : State :=
  { ((stA.wr (Reg.ponLineStatus 0) 0xC0000000).wr (Reg.ponPersonality 0) 1).setBit (Reg.ponLineCfg 0) 0 true with
    pwr := { cages := SMap.set (fun _ => {}) [] 0 { st := .on } },
    act := { onus := SMap.set (fun _ => {}) [] 7 { st := .operational } },
    pon := { maps := [(1, [{ f := 4, sent := true, taken := true, done := true,
                             bursts := [burstA, { burstA with kind := .discovery, onu := 1023 }, { burstA with st := .confirmed }] }])] } }

/-- The delimiter of its profile as received, and the capture that puts burst 0 at its expected place. -/
def rxA : BitVec 64 := BitVec.ofNat 64 (stPon.prof 0 0).bits'
def capOf (b : Burst) : Raw :=
  let e := stPon.headerExp 1 4 b
  let p := stPon.prof 0 0
  BitVec.ofInt 96 (e.1 * 65536 / e.2 - (8 * p.delim * frameRaw / p.bits : Nat))
def capA : Raw := capOf burstA

/-- The burst of its discovery window, and a place within the window. -/
def burstD : Burst := { burstA with kind := .discovery, onu := 1023 }
def capD : Raw := capOf burstD + 65536000
def offD : Int := offBits (stPon.prof 0 0) (stPon.headerAt 1 4 (stPon.prof 0 0) capD 0) (stPon.headerExp 1 4 burstD)

/-- The same with a pulse computed for burst 0. -/
def stPonPulse : State := stPon.updBurst 1 4 0 fun b => { b with pulse := some (5, 9) }

/-- The same with a confirmed burst that has one allocation with PLOAMu. -/
def stPloamu : State := stPon.updBurst 1 4 2 fun b => { b with grants := [{ onu := 7, ploamu := true }] }

/-- A device of a pair in a mode, LH_PEER up. -/
def stLht (m : Mode) : State :=
  { (State.reset.setBit Reg.lhtCtrl 0 true).setBit Reg.lhtStatus 31 true with dev := { mode := m } }

/-- A heartbeat of pair 0 in mode ACTIVE, session 9, HB_SEQ 1, SNAP_GEN 3. -/
def hbBody : List Byte := leBytes 4 0 ++ [2, 0] ++ leBytes 2 9 ++ leBytes 8 1 ++ leBytes 8 0 ++ leBytes 4 3 ++ List.replicate 32 0
def hbGood : List Byte := hbBody ++ leBytes 4 (crc32c 0xFFFFFFFF hbBody)

/-- A bulk sync runs; the standby stages. -/
def stSync (m : Mode) : State := { (stLht m).wr (opStat .bulkSync) 0x80000000 with lht := { sync := some { staging := true } } }

/-- A standby with a valid snapshot. -/
def stSnap : State := (stLht .standby).setLh "SNAP_VALID" true

/-- A standby whose witness window from frame 3 holds a consistent burst. -/
def stWit : State :=
  { ((stLht .standby).setBit Reg.lhtCtrl 1 true).setBit Reg.lhtHealthLocal 31 true with lht := { witAt := some 3, wit := [5] } }

/-- The same without a burst; `b`: the baseline held one. -/
def stWitQuiet (b : Bool) : State := { stWit.setBit Reg.lhtStatus 0 b with lht := { witAt := some 3 } }

/-- A held host command; ONU 7 of port 0 is OPERATIONAL with two misses, ONU 8 DISABLED. -/
def stCmd (v : Word) : State :=
  let s := (stPon.setOnu 0 7 { st := .operational, ch := 1, misses := 2, stuck := true }).setOnu 0 8 { st := .disabled, ch := 1 }
  { s with act := { s.act with cmd := some (v, 9, 1, 2) } }

/-- The same with 512 contexts of port 0 in use. -/
def stCmdMany (v : Word) : State :=
  { stCmd v with act := { (stCmd v).act with onus := (List.range 512).map fun i => (500 + i, { st := .operational }) } }

/-- The User is authenticated; ONU 7 of port 0 has a KEK and slot 2 and sends under index 1. -/
def stKey : State :=
  { stPon with sec := { role := 2 }, xgm := { keys := SMap.set (fun _ => {}) [] 7 { kek := some 5, s2 := some 6 } } }

/-- A key exchange runs since instant 0. -/
def stExch : State := { stKey with xgm := { stKey.xgm with exch := [{ n := 0, onu := 7, index := 2, at' := 0 }] } }

/-- The exact-match entry of the Sextant witnesses: key 9 of table 1. -/
def emA : EmEntry := { table := 1, key := 9, result := 5 }

/-- The candidate slots of a key of table 1. -/
def slotsOf (key : Nat) : List Nat := candSlots (stA.rd Reg.sxtEmSeed) 65536 1 key

/-- The first candidate slots of keys 9 and 8. -/
def slotA : Nat := (slotsOf 9).headD 0
def slot8 : Nat := (slotsOf 8).headD 0

/-- A block with an exact-match table 1, a direct table 2, an LPM table 3; entry `emA` in its first candidate slot; one prefix of VRF 2;
a register command of which the data names key 9 and that prefix. -/
def stSx (cmd : Word) : State :=
  let tables : List TableShape := [{ table := 1, kind := 4, sub := 0, size := 64 }, { table := 2, kind := 4, sub := 3, size := 64 }, { table := 3, kind := 4, sub := 1, size := 64 }]
  let s : State := { stA with dev := { mode := .active, structValid := true, body := { carve := { tables := tables } } } }
  let s := (((s.wr Reg.sxtCmd cmd).wr Reg.sxtCmdStatus 0x80000000).wr (Reg.sxtCmdData 4) (if fld cmd 27 24 < 4 then 0 else 0x00080002)).wr
    (Reg.sxtCmdData 0) (if fld cmd 27 24 < 4 then 7 else 0x0A000000)
  let s := s.wr (Reg.sxtCmdData 2) (if fld cmd 27 24 < 4 then 9 else 0)
  { s with sxt := { em := [(slotA, some emA)], lpm := [(lpmKey 2 0 8 0x0A000000, some 6)] } }

/-- The command that `stSx` holds. -/
def cmdOf (s : State) : RegCmd :=
  { op := s.fld Reg.sxtCmd 27 24, table := s.fld Reg.sxtCmd 7 0, index := s.fld Reg.sxtCmdIndex 19 0, data := s.cmdData }

/-- No register command waits. -/
def stSx0 : State := (stSx 0).wr Reg.sxtCmdStatus 0

/-- The same with another entry in that slot. -/
def putEmA (e : EmEntry) (s : State) : State := { s with sxt := { s.sxt with em := [(slotA, some e)] } }

/-- The same with the compact carve. -/
def stSxSmall (s : State) : State :=
  { s with dev := { s.dev with body := { s.dev.body with carve := { s.dev.body.carve with full := false } } } }

/-- A learn waiting. -/
def stSxLearn (l : Learn) : State :=
  let s := (stSx0.wr Reg.sxtMoveLimit 4).setBit (Reg.sxtTblCfg 1) 28 true
  { s with sxt := { s.sxt with learns := [l] } }

/-- Ageing of table 1 at 300 s, 80 s after the last visit. -/
def stSxAge (e : EmEntry) : State := { putEmA e (stSx0.setBit (Reg.sxtTblCfg 1) 29 true) with raw := 5242880000000000 }

/-- A rehash of the exact-match tables. -/
def stSxRehash (e : EmEntry) : State :=
  let s := ((putEmA e stSx0).wr Reg.sxtEmStatus 0x40000000).wr (opStat .rehash) 0x80000000
  { s with sxt := { s.sxt with rehash := true } }

/-- Every candidate slot of key 8 is taken; `dual`: by entries that no search may move. -/
def stSxFull (dual : Bool) (cmd : Word) : State :=
  let s := (((stSx cmd).wr Reg.sxtEmSeedNext (stA.rd Reg.sxtEmSeed)).wr Reg.sxtEmStatus (if dual then 0x40000000 else 0)).wr (Reg.sxtCmdData 2) 8
  { s with sxt := { em := (slotsOf 8).map fun i => (i, some { emA with key := 1000 + i }) } }

/-- The same under a rehash, slot 0 holding `emA`, whose own candidate slots are taken. -/
def stSxRehashFull : State :=
  let s := ((stSx0.wr Reg.sxtEmSeedNext (stA.rd Reg.sxtEmSeed)).wr Reg.sxtEmStatus 0x40000000).wr (opStat .rehash) 0x80000000
  { s with sxt := { rehash := true, em := (0, some emA) :: (slotsOf 9).map fun i => (i, some { emA with key := 1000 + i }) } }

/-- A descriptor posted at the last place of a ring of 64. -/
def stSxDma : State :=
  ((stSx0.wr Reg.sxtDmaSize 6).wr Reg.sxtDmaHead 63).wr Reg.sxtDmaTail 0

/-- The same with a DUMP of table 1 under way. -/
def stSxDump (x : DumpRun) : State := { stSxDma with sxt := { stSxDma.sxt with dump := some x } }

/-- A trie rebuild whose last root is VRF 2, IPv4. -/
def stSxTrie : State :=
  let s := stSx0.wr (opStat .trieRebuild) 0x80000000
  { s with sxt := { s.sxt with trie := some [(2, 0)], lpm := [(lpmKey 2 0 8 0x0A000000, some 6), (lpmKey 3 0 8 0x0A000000, some 7)] } }

/-- The same with 512 populated roots, whose number leaves no capacity. -/
def stSxRoots : State :=
  { stSxTrie with sxt := { stSxTrie.sxt with lpm := (List.range 512).map fun v => (lpmKey v 0 8 0x0A000000, some 6) } }

/-- A Fix check pass of two blocks over table 2. -/
def stSxFix : State :=
  let s := ((stSx0.wr (opStat .fixCheck) 0x80000000).wr (opCtrl .fixCheck) 2).wr Reg.sxtFixBlocks 2
  { s with sxt := { s.sxt with fix := some {} } }

/-- Group 0 of Rhumb has lanes 0 to 3 and is enabled; each lane has the status word given; device 5 is reached through group 0. -/
def stRhb (m : Mode) (v : Word) : State :=
  let s := ((({ stA with dev := { mode := m } } : State).wr (Reg.rhbGrpLanes 0) 0x00040000).wr (Reg.rhbGrpCfg 0) 0x80010000).wr (Reg.rhbReach 5) 1
  (((s.wr (Reg.rhbLaneStatus 0) v).wr (Reg.rhbLaneStatus 1) v).wr (Reg.rhbLaneStatus 2) v).wr (Reg.rhbLaneStatus 3) v

/-- The same with the lanes in SYNC under logical numbers 0 and up, two lanes active and the group UP. -/
def stRhbUp : State :=
  let s := (((stRhb .active 0xB0000000).wr (Reg.rhbLaneStatus 1) 0xB0010000).wr (Reg.rhbGrpActive 0) 3).wr Reg.rhbStatus 1
  { s with rhb := { groups := SMap.set (fun _ => {}) [] 0 { peer := some (5, 0), peerRxOk := 3, cells := 1 } } }

/-- The same with a set of two lanes being received, lane 1 in turn. -/
def stRhbRx : State := { stRhbUp with rhb := { groups := SMap.set (fun _ => {}) [] 0 { peer := some (5, 0), rxCount := some 0, rxActive := 3, rxPos := 1 }, lanes := SMap.set (fun _ => {}) [] 1 { era := some 0 } } }

/-- The same, the next marker due. -/
def stRhbDue : State := { stRhbUp with rhb := { groups := SMap.set (fun _ => {}) [] 0 { peer := some (5, 0), peerRxOk := 3, cells := 16384 } } }

/-- A marker of group 0 of device 5 with logical number 2. -/
def markA : List Byte := markerBytes { src := 5, grp := 0, logical := 2, active := 3, rxOk := 3, count := 9 }

/-- A cell of a label to device `d`, as it stands on the lane. -/
def cellBytes (label d : Nat) : List Byte :=
  padTo 256 (cellHeader { label := label, dest := d, src := 5, payload := List.replicate 240 0 })

/-- A first cell held since instant 0 in the resequencing context of device 5, which expects SEQ 7. -/
def cellHeld : Cell := { label := 1, src := 5, port := 73, first := true, spray := true, seq := 10, payload := [1, 2] }
def stReseq : State :=
  let s := stRhb .maintenance 0
  { s with rhb := { reseq := SMap.set (fun _ => {}) [] 5 { expect := some 7, held := [(cellHeld, 0)] } } }

/-- The first cell of a frame of device 5 to device 0, port 73, as it stands on the lane. -/
def cellFirst : List Byte := padTo 256 (cellHeader { label := 1, src := 5, port := 73, first := true, seq := 10, payload := List.replicate 240 0 })

/-- A frame of device 5 is partly reassembled since instant 0. -/
def stReasm : State :=
  let s := stRhb .active 0
  { s with rhb := { reasm := SMap.set (fun _ => {}) [] 80 { first := some cellHeld, bytes := List.replicate 240 0 } } }

/-- The same toward network port 50, with a part of the frame in staging. -/
def stReasm50 : State :=
  let s := stRhb .active 0
  { s with rhb := { reasm := SMap.set (fun _ => {}) [] 80 { first := some { cellHeld with port := 50 }, bytes := List.replicate 240 0 } } }

/-- The same toward PON port 5 with one cell, and one whose writer was lost. -/
def stReasmP : State :=
  let s := stRhb .active 0
  { s with rhb := { reasm := SMap.set (fun _ => {}) [] 80 { first := some { cellHeld with port := 5 }, bytes := List.replicate 240 0, cells := [7] } } }
def stReasmL : State :=
  let s := stRhb .active 0
  { s with rhb := { reasm := SMap.set (fun _ => {}) [] 80 { first := some cellHeld, bytes := List.replicate 240 0, lost := true } } }

/-- Three credit messages wait for device 5 since instant 0; a drain toward it ends at 1 ns. -/
def stToward : State :=
  let s := stRhbUp
  let m : CreditMsg := .credit 5 0 0 5 64
  { s with rhb := { s.rhb with toward := SMap.set (fun _ => {}) [] 5 { credits := [(m, 0), (m, 0), (m, 0)], drain := some 65536 } } }

/-- A device of Meridian role `r` that hears device 5, which its fabric reaches, of the rank given. -/
def stMer (r : Nat) (h : Heard) : State :=
  let s := stRhbUp.setBit Reg.merCtrl 16 true
  { s with mer := { role := r, mgr := some (if r = 3 then 0 else 5), heard := SMap.set (fun _ => none) [] 5 (some h) } }

/-- A higher rank and a lower one than that of a device with PRIO 0 and no strap. -/
def hiA : Heard := { tier := 0, prio := 9, role := 3, strap := 3 }
def loA : Heard := { tier := 0, prio := 0, role := 1, strap := 3 }

/-- A message of device 5 to this device. -/
def merA (seq : Word) (b : MerBody) : MerMsg :=
  sealMer { bcast := false, strap := 3, dest := 0, src := 5, nonce := 7, seq := seq, body := b, check := 0 }

/-- A message of this device, NONCE 0, to device 5; the sender holds no CHECK. -/
def merB (seq : Word) (b : MerBody) : MerMsg :=
  { bcast := false, strap := 3, dest := 5, src := 0, nonce := 0, seq := seq, body := b, check := 0 }

/-- A manager that reaches device 5 over management port 73 and aligns view 1. -/
def stMgmt : State :=
  let s := (((stA.setBit Reg.merCtrl 16 true).wr Reg.merTimeCfg 0x80000002).setBit (Reg.netPortStatus 24) 31 true)
  { s with dev := { mode := .active }, mer := { role := 3, mgr := some 0, heard := SMap.set (fun _ => none) [] 5 (some { loA with mgmt := true }) } }

/-- A worker that has seen NONCE 7 of manager 5 and answered SEQ 3 last. -/
def stWorker : State :=
  let s := stMer 1 hiA
  { s with mer := { s.mer with nonce := 7, seenMgr := some (5, 7), expect := 4, last := some (merB 3 (.fan 0 false [(0x0200000, 1)])), lastStatus := 1 } }

/-- A manager with a message in flight to device 5 after `n` resends, one open record. -/
def stFlight (n : Nat) (b : MerBody) : State :=
  let s := stMer 3 loA
  { s with mer := { s.mer with open' := [[5, 6]], collect := some [5, 6], targets := SMap.set (fun _ => {}) [] 5 { seq := 4, flight := some (merB 3 b, n, 0) } } }

/-- Check-value unit 2 of preset 0 with R = 5 and one byte counted. -/
def stUnit : State := (((stA.wr (Reg.chkUnitRunningLo 2) 5).wr (Reg.chkUnitBytesLo 2) 1).wr (Reg.chkUnitSeq 2) 9)

/-- The same under a scan of host memory, with COMPARE when `cmp`. -/
def stScan (cmp : Bool) : State :=
  let s := (stUnit.wr (opStat (.scan 2)) 0x80000000).wr (Reg.chkUnitExpectLo 2) 5
  { s with chk := { scan := SMap.set (fun _ => none) [] 2 (some (0, cmp)) } }

/-- An event ring of 64 with a record waiting at its last place. -/
def stRing : State :=
  let s := (stA.wr Reg.evtRingSize 6).wr Reg.evtRingHead 63
  { s with obs := { buf := [⟨33, false, 0, 5, 7, 0, 1, [0, 0, 0, 0]⟩] } }

/-- Vector 3 is requested by the event ring. -/
def stVec : State :=
  let s := stA.wr Reg.evtRingCfg 0x83000000
  { s with obs := { ringReq := true, since := 1, firstAt := some 0 } }

/-- Counters of the selected regions, an export running since instant 0 with CLEAR, a descriptor posted. -/
def stLog (run : Option LogRun) : State :=
  let s := (((stA.wr Reg.obsLogCtrl 0xC1000001).wr Reg.obsLogRingSize 6).wr Reg.obsLogRingHead 63)
  { s with obs := { log := run, cnt := [(3, 7), (524288, 9)] } }

/-- Sampler 2 has triggered on pipeline 4 at slot 7; `frameA` is in the slot given. -/
def stSample (slot : Nat) : State :=
  { stA with obs := { samplers := SMap.set (fun _ => {}) [] 2 { trig := some (4, 7), seq := 6 }, slots := SMap.set (fun _ => {}) [] 4 { clocks := slot }, inSlot := SMap.set (fun _ => none) [] 4 (some (frameA, 1, slot)) } }

/-- Role, nonce and lockout as given. -/
def stRole (r : Nat) : State := { stA with sec := { role := r, nonce := some 77, fails := 7 } }

/-- An OTP request being programmed. -/
def stOtp (op slot value : Nat) : State :=
  let s := (stRole 1).wr Reg.secOtpProgStatus 0x80000000
  { s with sec := { s.sec with otpBusy := some (op, slot, value, 99) } }

/-- A zeroisation runs. -/
def stZero (full step1 : Bool) : State :=
  let s := stPool.wr (opStat .zeroisation) 0x80000000
  { s with dev := { s.dev with mode := .safe }, sec := { s.sec with zero := some ⟨full, step1⟩, pairKey := some 3 } }

/-- The register at an address of the map. -/
def regD (a : Nat) : RegD × Nat × Nat := (regAt a).getD ({ name := "", base := 0, fields := [] }, 0, 0)

/-- Waypoint switches of the charts, the Almanac and the Reckoner took effect at this very instant. -/
def stWpSame : State :=
  { stA with chrono := { wpReq := SMap.set (fun _ => none) (SMap.set (fun _ => none) (SMap.set (fun _ => none) [] 1 (some 0)) 3 (some 0)) 4 (some 0) } }

/-! ### Witnesses -/

theorem merRaw_check (m : MerMsg) (c : Word) : merRaw { m with check := c } = merRaw m := rfl

/-- A sealed message is sound: its CHECK is that of its bytes. -/
theorem merGood_seal (m : MerMsg) : merGood (sealMer m) = true := by
  unfold merGood sealMer
  generalize hc : merCheck (merRaw m) = c
  rw [merRaw_check, hc]
  exact beq_self_eq_true c

theorem merFor_seal (s : State) (m : MerMsg) : s.merFor (sealMer m) = (m.bcast || m.dest == s.devId) := by
  rw [State.merFor, merGood_seal, Bool.true_and]
  unfold sealMer
  generalize merCheck (merRaw m) = c
  rfl

theorem merFor_merA (s : State) (q : Word) (b : MerBody) : s.merFor (merA q b) = (0 == s.devId) := by
  rw [merA, merFor_seal, Bool.false_or]

/-- StepRunsTheFrontCommand and the invariants: a step that answers a next state exists from a state that meets them. -/
theorem witness_invariants :
    State.reset.raw.toNat % 65536 = 0 ∧ (State.reset.regs.wf resetOf && State.reset.hold.wf resetOf && State.reset.cap.wf resetOf) = true ∧ State.reset.pending = [] ∧ (∃ t, step State.reset = .next t) ∧
      (∃ t, exec .noteRead stA = .next t) ∧ Instr.noteRead ≠ .otpProgrammingEnd :=
  ⟨by decide +kernel, by decide +kernel, rfl, ⟨_, rfl⟩, ⟨_, rfl⟩, by decide +kernel⟩

/-- AccessesOfOtherSizesDoNothing. -/
theorem witness_AccessesOfOtherSizesDoNothing :
    (fun (addr : Nat) (size : Nat) => (¬(size = 4 ∧ addr % 4 = 0))) 2 4 := by decide +kernel

/-- ReservedAddressesReadZeroAndIgnoreWrites. -/
theorem witness_ReservedAddressesReadZeroAndIgnoreWrites :
    (fun (addr : BitVec 28) => regAt addr.toNat = none) 0x0FFFFFC ∧
    (fun (a : Nat) => 0x01400000 ≤ a) 0x01400000 := by
  refine ⟨?_, ?_⟩ <;> decide +kernel

/-- WritesFollowFieldTypesBitByBit. -/
theorem witness_WritesFollowFieldTypesBitByBit :
    (fun (b : Nat) => b < 32) 31 := by decide +kernel

/-- FramesEnterOrAreDroppedAndCounted. -/
theorem witness_FramesEnterOrAreDroppedAndCounted :
    (fun (f : Frame) (s : State) => s.passes (s.attach f) = true) frameA stA ∧
    (fun (f : Frame) (s : State) => s.passes (s.attach f) = false) frameA (State.reset) ∧
    (fun (i : Fin 26) (bytes : List Byte) (s : State) => s.netUp i.val = true ∧ (s.serving = true ∨ s.dev.mode = .standby) ∧
      bytes.length < 64) 25 (List.replicate 63 0) stNet ∧
    (fun (i : Fin 26) (bytes : List Byte) (s : State) => s.netUp i.val = true ∧ (s.serving = true ∨ s.dev.mode = .standby) ∧ 64
      ≤ bytes.length ∧ fcsOk bytes = false ∧ s.ctPort i.val = false) 0 (List.replicate 64 0) (stNet.wr Reg.voqCtrl 0) ∧
    (fun (i : Fin 26) (bytes : List Byte) (s : State) => s.netUp i.val = true ∧ s.serving = true ∧ 64 ≤ bytes.length ∧ fcsOk
      bytes = true ∧ isPause bytes = false ∧ s.bit (Reg.netSecCfg i.val) 30 = false) 0 goodBytes stNet ∧
    (fun (i : Fin 26) (bytes : List Byte) (s : State) => s.netUp i.val = true ∧ (s.serving = true ∨ s.dev.mode = .standby) ∧ 64
      ≤ bytes.length ∧ fcsOk bytes = true ∧ isPause bytes = true) 0 pauseBytes stNetFc ∧
    (fun (i : Fin 26) (s : State) => s.netUp i.val = false) 3 (State.reset) ∧
    (fun (s : State) => s.serving = false ∧ s.dev.mode ≠ .standby) (State.reset) := by
  refine ⟨?_, ?_, ?_, ?_, ?_, ?_, ?_, ?_⟩ <;> decide +kernel

/-- StagedFramesAreSentHighestClassFirst. -/
theorem witness_StagedFramesAreSentHighestClassFirst :
    (fun (i : Fin 26) (cap : Raw) (s : State) (u : State) (c : Nat) (f : Stored) => (s.advance cap).netUp i.val = true ∧ u = (if
      i.val < 24 then (((s.advance cap).pfcDue i.val).txDry i.val).testHeads i.val else ((s.advance cap).pfcDue i.val).txDry
      i.val) ∧ (u.netPort i.val).tx = none ∧ u.reached (u.netPort i.val).wire = true ∧ [7, 6, 5, 4, 3, 2, 1, 0].find?
      (u.classStarts i.val) = some c ∧ headOf c (u.staging (devPort i.val)) = some f) 24 65536 stStaged (stStaged.advance 65536)
      3 storedA ∧
    (fun (i : Fin 26) (cap : Raw) (s : State) (u : State) (c : Nat) (f : Stored) => (s.advance cap).netUp i.val = true ∧ u = (if
      i.val < 24 then (((s.advance cap).pfcDue i.val).txDry i.val).testHeads i.val else ((s.advance cap).pfcDue i.val).txDry
      i.val) ∧ (u.netPort i.val).tx = none ∧ u.reached (u.netPort i.val).wire = true ∧ [7, 6, 5, 4, 3, 2, 1, 0].find?
      (u.classStarts i.val) = some c ∧ headOf c (u.staging (devPort i.val)) = some f ∧ f.part = none ∧ f.ts = none ∧ u.bit
      (Reg.netSecCfg i.val) 31 = false) 24 65536 stStaged (stStaged.advance 65536) 3 storedA ∧
    (fun (i : Fin 26) (cap : Raw) (s : State) (u : State) => (s.advance cap).netUp i.val = true ∧ u = (if i.val < 24 then
      (((s.advance cap).pfcDue i.val).txDry i.val).testHeads i.val else ((s.advance cap).pfcDue i.val).txDry i.val) ∧
      ((u.netPort i.val).tx ≠ none ∨ u.reached (u.netPort i.val).wire = false ∨ [7, 6, 5, 4, 3, 2, 1, 0].all (fun c =>
      !u.classStarts i.val c) = true)) 24 65536 stNet (stNet.advance 65536) ∧
    (fun (i : Fin 26) (cap : Raw) (s : State) => (s.advance cap).netUp i.val = false) 3 65536 (State.reset) := by
  refine ⟨?_, ?_, ?_, ?_⟩ <;> decide +kernel

/-- PauseTimersAndPfcFramesFollowFlowControl. -/
theorem witness_PauseTimersAndPfcFramesFollowFlowControl :
    (fun (i : Fin 26) (s : State) => s.netUp i.val = true) 0 stNet ∧
    (fun (i : Fin 26) (enable : Fin 256) (c : Fin 8) (s : State) => s.netUp i.val = true ∧ s.fcMode i.val ≠ 0 ∧ enable.val / 2 ^
      c.val % 2 = 1) 0 255 1 stNetFc ∧
    (fun (i : Fin 26) (s : State) => s.netUp i.val = false) 3 stNet ∧
    (fun (i : Fin 26) (c : Fin 8) (at' : Raw) (s : State) (e : Raw) => ((s.advance at').netPort i.val).pause.get (fun _ => none)
      c.val = some e ∧ (s.advance at').reached e = true) 0 3 655360 stPaused 65536 ∧
    (fun (i : Fin 26) (c : Fin 8) (at' : Raw) (s : State) => (((s.advance at').netPort i.val).pause.get (fun _ => none)
      c.val).any (fun e => (s.advance at').reached e) = false) 0 4 655360 stPaused ∧
    (fun (i : Fin 26) (s : State) => s.fcSends i.val = true ∧ s.xoffNow i.val ≠ (s.netPort i.val).xoff) 0 stPaused ∧
    (fun (i : Fin 26) (at' : Raw) (s : State) (u : State) => u = s.advance at' ∧ u.fcSends i.val = true ∧ (u.netPort i.val).xoff
      ≠ 0 ∧ u.reached (u.pfcNext i.val) = true) 0 65536000000 stPaused (stPaused.advance 65536000000) ∧
    (fun (i : Fin 26) (at' : Raw) (s : State) (u : State) => u = s.advance at' ∧ u.fcSends i.val = false) 0 65536 (State.reset)
      (State.reset.advance 65536) := by
  refine ⟨?_, ?_, ?_, ?_, ?_, ?_, ?_, ?_⟩ <;> decide +kernel

/-- PortsGoDownAtFailuresAndSettleInGoodState. -/
theorem witness_PortsGoDownAtFailuresAndSettleInGoodState :
    (fun (i : Fin 26) (s : State) => s.netUp i.val = true ∧ s.netCause i.val = 0) 24 stNetGood ∧
    (fun (i : Fin 26) (s : State) => s.netUp i.val = false ∧ s.netCause i.val ≠ 0) 24 stNetDown ∧
    (fun (i : Fin 26) (s : State) => s.dev.mode ≠ .load ∧ s.netUp i.val = false ∧ s.bit (Reg.netPortCfg i.val) 31 = true ∧
      s.netPers i.val ≠ 0 ∧ s.bit (Reg.netPortCfg i.val) 29 = false ∧ (i.val < 24 → (s.pwr.cages.get (fun _ => {}) (48 +
      i.val)).st = .on) ∧ s.upMs i.val ≠ 0 ∧ (s.netPort i.val).upAt = none) 24 stNetDown ∧
    (fun (i : Fin 26) (s : State) => s.dev.mode ≠ .load ∧ s.netUp i.val = false ∧ s.bit (Reg.netPortCfg i.val) 31 = true ∧
      s.netPers i.val ≠ 0 ∧ s.bit (Reg.netPortCfg i.val) 29 = false ∧ (i.val < 24 → (s.pwr.cages.get (fun _ => {}) (48 +
      i.val)).st = .on) ∧ s.upMs i.val = 0) 24 ((stNetDown.setBit Reg.netCtrl 31 true).setFld (Reg.netPortCfg 24) 23 16 0) ∧
    (fun (s : State) => s.dev.mode = .load) (State.reset) ∧
    (fun (i : Fin 26) (at' : Raw) (s : State) (u : State) (e : Raw) => u = s.advance at' ∧ (u.netPort i.val).upAt = some e ∧
      u.reached e = true ∧ u.netCause i.val = 0) 24 131072 stNetSettle (stNetSettle.advance 131072) 65536 ∧
    (fun (i : Fin 26) (at' : Raw) (s : State) (u : State) => u = s.advance at' ∧ ((u.netPort i.val).upAt).any (fun e =>
      u.reached e) = false) 25 131072 stNetSettle (stNetSettle.advance 131072) ∧
    (fun (i : Fin 26) (val : Word) (s : State) => s.netMapped i.val false = true ∧ s.bit (Reg.netPortCfg i.val) 29 = false ∧ bit
      val 29 = true ∧ s.netUp i.val = false ∧ bit val 31 = true ∧ s.netPers i.val ≠ 0 ∧ (i.val < 24 → (s.pwr.cages.get (fun _ =>
      {}) (48 + i.val)).st = .on)) 24 0xA0000000 stNetDown ∧
    (fun (i : Fin 26) (val : Word) (s : State) => s.netMapped i.val false = true ∧ s.bit (Reg.netPortCfg i.val) 29 = false ∧ bit
      val 29 = true ∧ s.netUp i.val = true) 24 0xA0000000 stNetGood ∧
    (fun (i : Fin 26) (s : State) => s.bit (Reg.netPortCfg i.val) 29 = true ∧ s.netUp i.val = false ∧ s.bit (Reg.netPortCfg
      i.val) 31 = true ∧ s.netPers i.val ≠ 0 ∧ (i.val < 24 → (s.pwr.cages.get (fun _ => {}) (48 + i.val)).st = .on)) 24
      (stNetDown.setBit (Reg.netPortCfg 24) 29 true) ∧
    (fun (i : Fin 26) (s : State) => s.bit (Reg.netPortCfg i.val) 29 = true) 24 (stNetDown.setBit (Reg.netPortCfg 24) 29 true) ∧
    (fun (i : Fin 26) (s : State) => s.bit (Reg.netPortCfg i.val) 29 = false) 24 stNetDown := by
  refine ⟨?_, ?_, ?_, ?_, ?_, ?_, ?_, ?_, ?_, ?_, ?_, ?_⟩ <;> decide +kernel

/-- MacsecAssociationsAreSetReadAndCleared. -/
theorem witness_MacsecAssociationsAreSetReadAndCleared :
    (fun (i : Fin 26) (val : Word) (s : State) => s.netMapped i.val true = true ∧ s.isUser = true ∧ s.sec.error = false ∧ bit
      val 31 = true ∧ bit val 30 = false) 0 0x90000001 stSec ∧
    (fun (i : Fin 26) (val : Word) (s : State) => s.netMapped i.val true = true ∧ s.isUser = false ∧ bit val 31 = true ∧ bit val
      30 = false) 0 0x90000001 (stNetDown.wr (Reg.netPersonality 0) 1) ∧
    (fun (i : Fin 26) (val : Word) (s : State) => s.netMapped i.val true = true ∧ s.isUser = true ∧ bit val 29 = true ∧ bit val
      31 = false ∧ bit val 30 = false) 0 0x30000001 stSec ∧
    (fun (i : Fin 26) (val : Word) (s : State) => s.netMapped i.val true = true ∧ bit val 29 = false ∧ bit val 31 = false ∧ bit
      val 30 = true) 0 0x50000001 stSec ∧
    (fun (i : Fin 26) (val : Word) (s : State) => s.netMapped i.val true = true ∧ bit val 31 = true) 0 0xC0000005 stSec ∧
    (fun (i : Fin 26) (val : Word) (s : State) => s.netMapped i.val true = true ∧ bit val 30 = true) 0 0xF0000001 stSec ∧
    (fun (i : Fin 26) (val : Word) (s : State) => s.netMapped i.val true = true ∧ s.isUser = true ∧ bit val 31 = true ∧
      s.sec.error = false) 0 0xF0000001 stSec ∧
    (fun (i : Fin 26) (val : Word) (s : State) => s.netMapped i.val true = true ∧ s.isUser = true ∧ bit val 29 = true ∧ ((bit
      val 31 = false ∨ s.sec.error = true))) 0 0x70000001 stSec ∧
    (fun (i : Fin 26) (s : State) => s.netMapped i.val true = false) 25 stSec := by
  refine ⟨?_, ?_, ?_, ?_, ?_, ?_, ?_, ?_, ?_⟩ <;> decide +kernel

/-- ChartEntriesAreWrittenAndReadWhole. -/
theorem witness_ChartEntriesAreWrittenAndReadWhole :
    (fun (val : Word) (s : State) => bit val 31 = true ∧ s.chartHas (fld val 28 21) (fld val 20 0) = true ∧ s.bit Reg.cmpTblPipe
      4 = false ∧ s.fld Reg.cmpTblPipe 3 0 < 9) 0xA0200005 stChart ∧
    (fun (val : Word) (s : State) (p : Nat) => bit val 31 = true ∧ s.chartHas (fld val 28 21) (fld val 20 0) = true ∧ s.bit
      Reg.cmpTblPipe 4 = true ∧ p < 9) 0xA0200005 (stChart.wr Reg.cmpTblPipe 0x10) 8 ∧
    (fun (val : Word) (s : State) => (s.chartHas (fld val 28 21) (fld val 20 0) = false ∨ (s.bit Reg.cmpTblPipe 4 = false ∧ 9 ≤
      s.fld Reg.cmpTblPipe 3 0))) 0xA0201000 stChart ∧
    (fun (val : Word) (s : State) (i : Nat) => bit val 31 = false ∧ bit val 30 = true ∧ (s.chartAt (if s.bit Reg.cmpTblPipe 4
      then 0 else s.fld Reg.cmpTblPipe 3 0) (fld val 29 29) (fld val 28 21) (fld val 20 0)).length = 16 ∧ i < 16) 0x60200005
      ((stChart.setChart 8 1 1 5 (List.replicate 16 1))) 15 ∧
    (fun (val : Word) => bit val 31 = false ∧ bit val 30 = false) 0x00200005 := by
  refine ⟨?_, ?_, ?_, ?_, ?_⟩ <;> decide +kernel

/-- ChartBankSwitchesResolveAtOnce. -/
theorem witness_ChartBankSwitchesResolveAtOnce :
    (fun (val : Word) (s : State) => bit val 31 = true ∧ s.wpSame 1 = false ∧ s.activeBank Reg.cmpCommit ≠ fld val 0 0)
      0x80000001 stA ∧
    (fun (val : Word) (s : State) => bit val 31 = true ∧ s.wpSame 1 = false ∧ s.activeBank Reg.cmpCommit = fld val 0 0)
      0x80000000 stA ∧
    (fun (s : State) => s.wpSame 1 = true) stWpSame := by
  refine ⟨?_, ?_, ?_⟩ <;> decide +kernel

/-- PipelinesTakeRecirculatingFramesFirst. -/
theorem witness_PipelinesTakeRecirculatingFramesFirst :
    (fun (p : Fin 9) (s : State) (fl : Flight) (fs : List Flight) => s.recirc p.val = fl :: fs ∧ s.passes fl.frame = true) 0
      (stA.setRecirc 0 [{ frame := frameA }]) ({ frame := frameA }) ([]) ∧
    (fun (p : Fin 9) (s : State) (f : Frame) (fs : List Frame) => s.recirc p.val = [] ∧ s.ingress p.val = f :: fs ∧ s.passes f =
      true ∧ s.flowWaits p.val f = false) 0 (stA.setIngress 0 [frameA]) frameA ([]) ∧
    (fun (p : Fin 9) (s : State) => (s.recirc p.val).head?.all (fun fl => !s.passes fl.frame) = true ∧ (s.recirc p.val = [] →
      (s.ingress p.val).head?.all (fun f => !s.passes f || s.flowWaits p.val f) = true)) 8 stA := by
  refine ⟨?_, ?_, ?_⟩ <;> decide +kernel

/-- WindowsStageCommitAndCaptureEntries. -/
theorem witness_WindowsStageCommitAndCaptureEntries :
    (fun (i : Nat) => i < 16) 15 ∧
    (fun (w : Fin 2) (off : BitVec 26) (s : State) => s.dev.structValid = true ∧ off.toNat % 4 = 0 ∧ off.toNat / 4 % winWords
      w.val + 1 ≠ winWords w.val) 0 0x38 stStage ∧
    (fun (off : BitVec 26) (s : State) => s.dev.structValid = true ∧ off.toNat % 64 = 60 ∧ s.chartHas (s.winTable 0) (s.winEntry
      0 off.toNat) = true ∧ s.bit (Reg.devWinSel 0) 31 = false ∧ s.fld (Reg.devWinSel 0) 27 24 < 9) 0x17C stStage ∧
    (fun (off : BitVec 26) (s : State) (p : Nat) => s.dev.structValid = true ∧ off.toNat % 64 = 60 ∧ s.chartHas (s.winTable 0)
      (s.winEntry 0 off.toNat) = true ∧ s.bit (Reg.devWinSel 0) 31 = true ∧ p < 9) 0x17C (stStage.setBit (Reg.devWinSel 0) 31
      true) 8 ∧
    (fun (s : State) => s.dev.structValid = false) (State.reset) ∧
    (fun (off : BitVec 26) (s : State) => s.dev.structValid = true ∧ off.toNat % 32 = 28 ∧ s.directHas (s.winTable 1)
      (s.winEntry 1 off.toNat) = true ∧ (s.sxt.winq.filter fun c => c.repair.isNone).length < 256) 0x3C stDirect ∧
    (fun (off : BitVec 26) (s : State) => s.dev.structValid = true ∧ off.toNat % 32 = 28 ∧ s.directHas (s.winTable 1)
      (s.winEntry 1 off.toNat) = true ∧ 256 ≤ (s.sxt.winq.filter fun c => c.repair.isNone).length) 0x3C
      ({ stDirect with sxt := { stDirect.sxt with winq := List.replicate 256 ⟨7, 2, 0, [], none⟩ } }) ∧
    (fun (w : Fin 2) (off : BitVec 26) (s : State) (ws : List Word) => s.dev.structValid = true ∧ off.toNat % (4 * winWords
      w.val) = 0 ∧ s.winShow w.val (s.winEntry w.val off.toNat) = some ws) 0 0x140 stStage chartBlank ∧
    (fun (w : Fin 2) (off : BitVec 26) (s : State) (ws : List Word) => s.dev.structValid = true ∧ off.toNat % 4 = 0 ∧ off.toNat
      % (4 * winWords w.val) ≠ 0 ∧ s.winShow w.val (s.winEntry w.val off.toNat) = some ws) 0 0x144 stStage chartBlank ∧
    (fun (off : BitVec 26) (s : State) => s.dev.mode ≠ .load ∧ off.toNat % 8 = 0 ∧ off.toNat < 2 ^ 25) 0x10 (stA.cntSet 2
      0x500000007) ∧
    (fun (off : BitVec 26) (s : State) => s.dev.mode ≠ .load ∧ off.toNat % 8 = 4) 0x14 (stA.cntSet 2 0x500000007) ∧
    (fun (s : State) => s.dev.mode = .load) (State.reset) := by
  refine ⟨?_, ?_, ?_, ?_, ?_, ?_, ?_, ?_, ?_, ?_, ?_, ?_⟩ <;> decide +kernel

/-- StartsWhileBusyOnlySetStartIgnored. -/
theorem witness_StartsWhileBusyOnlySetStartIgnored :
    (fun (val : Word) (s : State) => bit val 31 = true ∧ bit val 30 = false ∧ s.busy .audit = true) 0x80000000 stBusy ∧
    (fun (val : Word) (s : State) => bit val 31 = true ∧ bit val 30 = false ∧ s.busy .sweep = true) 0x80000000 stBusy ∧
    (fun (val : Word) (s : State) => bit val 31 = true ∧ bit val 30 = false ∧ s.busy .rehash = true) 0x80000000 stBusy ∧
    (fun (val : Word) (s : State) => bit val 31 = true ∧ bit val 30 = false ∧ s.busy .trieRebuild = true) 0x80000000 stBusy ∧
    (fun (val : Word) (s : State) => bit val 31 = true ∧ bit val 30 = false ∧ s.busy .fixCheck = true) 0x80000000 stBusy ∧
    (fun (val : Word) (u : Fin 8) (s : State) => bit val 31 = true ∧ bit val 30 = false ∧ s.busy (.scan u.val) = true)
      0x80000000 7 stBusy ∧
    (fun (val : Word) (s : State) => bit val 31 = true ∧ bit val 30 = false ∧ s.busy .memoryBist = true) 0x80000000 stBusy ∧
    (fun (val : Word) (s : State) => bit val 31 = true ∧ bit val 30 = false ∧ s.dev.perstLow = false ∧ s.busy .imageLoad = true)
      0x80000000 stBusy ∧
    (fun (val : Word) (s : State) => bit val 31 = true ∧ bit val 30 = false ∧ s.busy .imageSwap = true) 0x80000000 stBusy ∧
    (fun (val : Word) (s : State) => bit val 31 = true ∧ bit val 30 = false ∧ s.busy .bulkSync = true) 0x80000000 stBusy := by
  refine ⟨?_, ?_, ?_, ?_, ?_, ?_, ?_, ?_, ?_, ?_⟩ <;> decide +kernel

/-- AbortsEndBusyOperations. -/
theorem witness_AbortsEndBusyOperations_1 :
    (fun (val : Word) (s : State) => bit val 31 = false ∧ bit val 30 = true ∧ s.busy .audit = true) 0x40000000 stBusy ∧
    (fun (val : Word) (s : State) => bit val 31 = false ∧ bit val 30 = true ∧ s.busy .sweep = true) 0x40000000 stBusy ∧
    (fun (val : Word) (s : State) => bit val 31 = false ∧ bit val 30 = true ∧ s.busy .rehash = true) 0x40000000 stBusy ∧
    (fun (val : Word) (s : State) => bit val 31 = false ∧ bit val 30 = true ∧ s.busy .trieRebuild = true) 0x40000000 stBusy ∧
    (fun (val : Word) (s : State) => bit val 31 = false ∧ bit val 30 = true ∧ s.busy .fixCheck = true) 0x40000000 stBusy ∧
    (fun (val : Word) (u : Fin 8) (s : State) => bit val 31 = false ∧ bit val 30 = true ∧ s.busy (.scan u.val) = true)
      0x40000000 7 stBusy ∧
    (fun (val : Word) (s : State) => bit val 31 = false ∧ bit val 30 = true ∧ s.busy .memoryBist = true) 0x40000000 stBusy ∧
    (fun (val : Word) (s : State) => bit val 31 = false ∧ bit val 30 = true ∧ s.dev.perstLow = false ∧ s.busy .imageLoad = true)
      0x40000000 stBusy ∧
    (fun (val : Word) (s : State) => bit val 31 = false ∧ bit val 30 = true ∧ s.busy .bulkSync = true) 0x40000000 stBusy ∧
    (fun (val : Word) (s : State) => bit val 31 = false ∧ bit val 30 = true ∧ s.busy .audit = false) 0x40000000 stA ∧
    (fun (val : Word) (s : State) => bit val 31 = false ∧ bit val 30 = true ∧ s.busy .sweep = false) 0x40000000 stA ∧
    (fun (val : Word) (s : State) => bit val 31 = false ∧ bit val 30 = true ∧ s.busy .rehash = false) 0x40000000 stA ∧
    (fun (val : Word) (s : State) => bit val 31 = false ∧ bit val 30 = true ∧ s.busy .trieRebuild = false) 0x40000000 stA ∧
    (fun (val : Word) (s : State) => bit val 31 = false ∧ bit val 30 = true ∧ s.busy .fixCheck = false) 0x40000000 stA ∧
    (fun (val : Word) (u : Fin 8) (s : State) => bit val 31 = false ∧ bit val 30 = true ∧ s.busy (.scan u.val) = false)
      0x40000000 7 stA ∧
    (fun (val : Word) (s : State) => bit val 31 = false ∧ bit val 30 = true ∧ s.busy .memoryBist = false) 0x40000000 stA := by
  refine ⟨?_, ?_, ?_, ?_, ?_, ?_, ?_, ?_, ?_, ?_, ?_, ?_, ?_, ?_, ?_, ?_⟩ <;> decide +kernel

/-- AbortsEndBusyOperations. -/
theorem witness_AbortsEndBusyOperations_2 :
    (fun (val : Word) (s : State) => bit val 31 = false ∧ bit val 30 = true ∧ s.busy .imageLoad = false) 0x40000000 stA ∧
    (fun (val : Word) (s : State) => bit val 31 = false ∧ bit val 30 = true ∧ s.busy .bulkSync = false) 0x40000000 stA := by
  refine ⟨?_, ?_⟩ <;> decide +kernel

/-- StartsBeginOrAreRefusedByMode. -/
theorem witness_StartsBeginOrAreRefusedByMode_1 :
    (fun (val : Word) (s : State) => bit val 31 = true ∧ bit val 30 = false ∧ bit val 29 = false ∧ s.busy .audit = false ∧
      opAllowed .audit s.dev.mode 0 0 = false) 0x80000000 (State.reset) ∧
    (fun (val : Word) (s : State) => bit val 31 = true ∧ bit val 30 = false ∧ bit val 29 = false ∧ s.busy .sweep = false ∧
      opAllowed .sweep s.dev.mode 0 0 = false) 0x80000000 (State.reset) ∧
    (fun (val : Word) (s : State) => bit val 31 = true ∧ bit val 30 = false ∧ bit val 29 = false ∧ s.busy .rehash = false ∧
      opAllowed .rehash s.dev.mode 0 0 = false) 0x80000000 (State.reset) ∧
    (fun (val : Word) (s : State) => bit val 31 = true ∧ bit val 30 = false ∧ bit val 29 = false ∧ s.busy .trieRebuild = false ∧
      opAllowed .trieRebuild s.dev.mode 0 0 = false) 0x80000000 (State.reset) ∧
    (fun (val : Word) (s : State) => bit val 31 = true ∧ bit val 30 = false ∧ bit val 29 = false ∧ s.busy .fixCheck = false ∧
      opAllowed .fixCheck s.dev.mode 0 0 = false) 0x80000000 (State.reset) ∧
    (fun (val : Word) (u : Fin 8) (s : State) => bit val 31 = true ∧ bit val 30 = false ∧ bit val 29 = false ∧ s.busy (.scan
      u.val) = false ∧ opAllowed (.scan u.val) s.dev.mode (fld val 15 0 % 4) 0 = false) 0x80000001 7 (State.reset) ∧
    (fun (val : Word) (s : State) => bit val 31 = true ∧ bit val 30 = false ∧ bit val 29 = false ∧ s.busy .memoryBist = false ∧
      opAllowed .memoryBist s.dev.mode 0 (fld val 15 0 % 4) = false) 0x80000000 (State.reset) ∧
    (fun (val : Word) (u : Fin 8) (s : State) => bit val 31 = true ∧ bit val 30 = false ∧ bit val 29 = false ∧ 0 < s.rd64
      (Reg.chkScanLenLo u.val) ∧ s.rd64 (Reg.chkScanAddrLo u.val) + s.rd64 (Reg.chkScanLenLo u.val) ≤ scanSize (fld val 15 0 %
      4) ∧ fld val 15 15 = 0 ∧ s.busy .audit = false ∧ opAllowed .audit s.dev.mode 0 0 = true) 0x80000001 7
      ({ (stA.wrWords (Reg.chkScanLenLo 7) [256, 0]) with dev := { mode := .maintenance } }) ∧
    (fun (val : Word) (u : Fin 8) (s : State) => bit val 31 = true ∧ bit val 30 = false ∧ bit val 29 = false ∧ 0 < s.rd64
      (Reg.chkScanLenLo u.val) ∧ s.rd64 (Reg.chkScanAddrLo u.val) + s.rd64 (Reg.chkScanLenLo u.val) ≤ scanSize (fld val 15 0 %
      4) ∧ fld val 15 15 = 0 ∧ s.busy .sweep = false ∧ opAllowed .sweep s.dev.mode 0 0 = true) 0x80000001 7
      ({ (stA.wrWords (Reg.chkScanLenLo 7) [256, 0]) with dev := { mode := .maintenance } }) ∧
    (fun (val : Word) (u : Fin 8) (s : State) => bit val 31 = true ∧ bit val 30 = false ∧ bit val 29 = false ∧ 0 < s.rd64
      (Reg.chkScanLenLo u.val) ∧ s.rd64 (Reg.chkScanAddrLo u.val) + s.rd64 (Reg.chkScanLenLo u.val) ≤ scanSize (fld val 15 0 %
      4) ∧ fld val 15 15 = 0 ∧ s.busy .rehash = false ∧ opAllowed .rehash s.dev.mode 0 0 = true) 0x80000001 7
      ({ (stA.wrWords (Reg.chkScanLenLo 7) [256, 0]) with dev := { mode := .maintenance } }) ∧
    (fun (val : Word) (u : Fin 8) (s : State) => bit val 31 = true ∧ bit val 30 = false ∧ bit val 29 = false ∧ 0 < s.rd64
      (Reg.chkScanLenLo u.val) ∧ s.rd64 (Reg.chkScanAddrLo u.val) + s.rd64 (Reg.chkScanLenLo u.val) ≤ scanSize (fld val 15 0 %
      4) ∧ fld val 15 15 = 0 ∧ s.dev.body.carve.full = true ∧ s.busy .trieRebuild = false ∧ opAllowed .trieRebuild s.dev.mode 0
      0 = true) 0x80000001 7 ({ (stA.wrWords (Reg.chkScanLenLo 7) [256, 0]) with dev := { mode := .maintenance } }) ∧
    (fun (val : Word) (u : Fin 8) (s : State) => bit val 31 = true ∧ bit val 30 = false ∧ bit val 29 = false ∧ 0 < s.rd64
      (Reg.chkScanLenLo u.val) ∧ s.rd64 (Reg.chkScanAddrLo u.val) + s.rd64 (Reg.chkScanLenLo u.val) ≤ scanSize (fld val 15 0 %
      4) ∧ fld val 15 15 = 0 ∧ s.busy .fixCheck = false ∧ opAllowed .fixCheck s.dev.mode 0 0 = true) 0x80000001 7
      ({ (stA.wrWords (Reg.chkScanLenLo 7) [256, 0]) with dev := { mode := .maintenance } }) ∧
    (fun (val : Word) (u : Fin 8) (s : State) => bit val 31 = true ∧ bit val 30 = false ∧ bit val 29 = false ∧ 0 < s.rd64
      (Reg.chkScanLenLo u.val) ∧ s.rd64 (Reg.chkScanAddrLo u.val) + s.rd64 (Reg.chkScanLenLo u.val) ≤ scanSize (fld val 15 0 %
      4) ∧ fld val 15 15 = 0 ∧ s.busy (.scan u.val) = false ∧ opAllowed (.scan u.val) s.dev.mode (fld val 15 0 % 4) 0 = true)
      0x80000001 7 ({ (stA.wrWords (Reg.chkScanLenLo 7) [256, 0]) with dev := { mode := .maintenance } }) ∧
    (fun (val : Word) (u : Fin 8) (s : State) => bit val 31 = true ∧ bit val 30 = false ∧ bit val 29 = false ∧ 0 < s.rd64
      (Reg.chkScanLenLo u.val) ∧ s.rd64 (Reg.chkScanAddrLo u.val) + s.rd64 (Reg.chkScanLenLo u.val) ≤ scanSize (fld val 15 0 %
      4) ∧ fld val 15 15 = 0 ∧ s.busy .memoryBist = false ∧ opAllowed .memoryBist s.dev.mode 0 (fld val 15 0 % 4) = true)
      0x80000001 7 ({ (stA.wrWords (Reg.chkScanLenLo 7) [256, 0]) with dev := { mode := .maintenance } }) ∧
    (fun (val : Word) (s : State) => bit val 31 = true ∧ bit val 30 = false ∧ bit val 29 = false ∧ s.dev.perstLow = false ∧
      s.busy .imageLoad = false ∧ (opAllowed .imageLoad s.dev.mode 0 0 = false ∨ s.busy .imageSwap = true)) 0x80000000 stA ∧
    (fun (val : Word) (s : State) => bit val 31 = true ∧ bit val 30 = false ∧ bit val 29 = false ∧ s.dev.perstLow = false ∧
      s.busy .imageLoad = false ∧ opAllowed .imageLoad s.dev.mode 0 0 = true ∧ s.busy .imageSwap = false ∧ fld val 15 0 % 2 = 0
      ∧ 32 ≤ s.fld Reg.devImgLen 26 0) 0x80000000 (State.reset.wr Reg.devImgLen 32) := by
  refine ⟨?_, ?_, ?_, ?_, ?_, ?_, ?_, ?_, ?_, ?_, ?_, ?_, ?_, ?_, ?_, ?_⟩ <;> decide +kernel

/-- StartsBeginOrAreRefusedByMode. -/
theorem witness_StartsBeginOrAreRefusedByMode_2 :
    (fun (val : Word) (flash : Option Nat) (s : State) => bit val 31 = true ∧ bit val 30 = false ∧ bit val 29 = false ∧
      s.dev.perstLow = false ∧ s.busy .imageLoad = false ∧ opAllowed .imageLoad s.dev.mode 0 0 = true ∧ s.busy .imageSwap =
      false ∧ fld val 15 0 % 2 = 1 ∧ flash = none) 0x80000001 none (State.reset) ∧
    (fun (val : Word) (flash : Option Nat) (s : State) => bit val 31 = true ∧ bit val 30 = false ∧ bit val 29 = false ∧
      s.dev.perstLow = false ∧ s.busy .imageLoad = false ∧ opAllowed .imageLoad s.dev.mode 0 0 = true ∧ s.busy .imageSwap =
      false ∧ fld val 15 0 % 2 = 1 ∧ s.dev.binAlive = true ∧ 32 ≤ flash.getD 0) 0x80000001 (some 32) (State.reset) ∧
    (fun (s : State) => s.dev.perstLow = true) ({ State.reset with dev := { perstLow := true } }) := by
  refine ⟨?_, ?_, ?_⟩ <;> decide +kernel

/-- CellsMoveBetweenListsWritersAndReaders. -/
theorem witness_CellsMoveBetweenListsWritersAndReaders :
    (fun (ws : BitVec 14) (s : State) (w : Nat) (k : Nat) => (List.range writers).filter (fun i => ws.getLsbD i) = [w] ∧
      s.pool.asking = [] ∧ s.listFrom ((s.writer w).last + 1) 16 = some k) 0x2000 stPool 13 5 ∧
    (fun (ws : BitVec 14) (s : State) (v : Nat) (w : Nat) (k : Nat) => (List.range writers).filter (fun i => ws.getLsbD i) = [v,
      w] ∧ s.pool.asking = [] ∧ s.wants v = some k ∧ s.wants w = some k ∧ winner (s.freeList k).turn [v, w] = some w) 3
      (stPool.setFree 0 { stPool.freeList 0 with turn := 1 }) 0 1 0 ∧
    (fun (ws : BitVec 14) (s : State) (w : Nat) => (List.range writers).filter (fun i => ws.getLsbD i) = [w] ∧ s.pool.asking =
      [] ∧ s.listFrom ((s.writer w).last + 1) 16 = none) 8 stA 3 ∧
    (fun (s : State) => s.pool.asking = []) stPool ∧
    (fun (p : Fin 335544320) (s : State) => s.pool.reading.contains p.val = true) 335544319
      ({ stPool with pool := { stPool.pool with reading := [335544319, 2] } }) ∧
    (fun (p : Fin 335544320) (s : State) => s.pool.reading.contains p.val = false) 5 stPool := by
  refine ⟨?_, ?_, ?_, ?_, ?_, ?_⟩ <;> decide +kernel

/-- ListCachesRefillAndSpillCarriers. -/
theorem witness_ListCachesRefillAndSpillCarriers :
    (fun (k : Fin 16) (s : State) => runsLen (s.freeList k.val).cache < s.cacheLow ∧ (s.freeList k.val).hbm ≠ 0 ∧ s.damageOf (16
      * runsHead (s.freeList k.val).takeCarrier.1 + k.val) = 0) 15 stPoolLow ∧
    (fun (k : Fin 16) (s : State) => runsLen (s.freeList k.val).cache < s.cacheLow ∧ (s.freeList k.val).hbm ≠ 0) 15 stPoolLow ∧
    (fun (k : Fin 16) (s : State) => (s.cacheLow ≤ runsLen (s.freeList k.val).cache ∨ (s.freeList k.val).hbm = 0)) 15 stPool ∧
    (fun (k : Fin 16) (s : State) => s.cacheHigh < runsLen (s.freeList k.val).cache) 0 (stPool.setFree 0
      { cache := [⟨0, 3000⟩, ⟨5000, 100⟩] }) ∧
    (fun (k : Fin 16) (s : State) => runsLen (s.freeList k.val).cache ≤ s.cacheHigh) 0 stPool := by
  refine ⟨?_, ?_, ?_, ?_, ?_⟩ <;> decide +kernel

/-- SoundingAuditsAndSweepsReport. -/
theorem witness_SoundingAuditsAndSweepsReport :
    (fun (flips : BitVec 128) (uncorr : Bool) (s : State) (a : AuditRun) (c : Nat) (w : Nat) (p : Nat) => s.pool.audit = some a
      ∧ a.list < 16 ∧ c = min a.todo (runsLen ((s.freeList a.list).carrierAt a.walked).1) ∧ c ≠ 0 ∧ w = (s.carrierWord a.list
      a.walked ^^^ flips).toNat ∧ p = 16 * runsHead ((s.freeList a.list).carrierAt a.walked).1 + a.list ∧ s.damageOf p = 0 ∧
      uncorr = false ∧ w / 2 ^ 31 % 2 = 1 ∧ w / 2 ^ 41 % 16 = a.list) 0 false (stAudit 14) (stAuditRun 14) 65 (((stAudit
      14).carrierWord 14 0).toNat) (16 * runsHead (((stAudit 14).freeList 14).carrierAt 0).1 + 14) ∧
    (fun (flips : BitVec 128) (uncorr : Bool) (s : State) (a : AuditRun) (c : Nat) (w : Nat) (p : Nat) => s.pool.audit = some a
      ∧ a.list < 16 ∧ c = min a.todo (runsLen ((s.freeList a.list).carrierAt a.walked).1) ∧ c ≠ 0 ∧ w = (s.carrierWord a.list
      a.walked ^^^ flips).toNat ∧ p = 16 * runsHead ((s.freeList a.list).carrierAt a.walked).1 + a.list ∧ s.damageOf p = 0 ∧
      ((uncorr = true ∨ w / 2 ^ 31 % 2 = 0 ∨ w / 2 ^ 41 % 16 ≠ a.list)) ∧ a.list < 15 ∧ a.failed < 65536) 0x80000000 false
      (stAudit 14) (stAuditRun 14) 65 (((stAudit 14).carrierWord 14 0 ^^^ 0x80000000).toNat) (16 * runsHead (((stAudit
      14).freeList 14).carrierAt 0).1 + 14) ∧
    (fun (s : State) (a : AuditRun) => s.pool.audit = some a ∧ a.list < 15 ∧ a.todo = 0 ∧ a.failed < 65536)
      ({ stPool with pool := { stPool.pool with audit := some { list := 14, failed := 3, start := 5 } } })
      ({ list := 14, failed := 3, start := 5 }) ∧
    (fun (s : State) => s.pool.audit.all (fun a => decide (16 ≤ a.list)) = true) stPool ∧
    (fun (s : State) (a : AuditRun) => s.pool.audit = some a ∧ 16 ≤ a.list ∧ s.bit (opCtrl .audit) 29 = false)
      ({ stPool with pool := { stPool.pool with audit := some { list := 16 } } }) ({ list := 16 }) ∧
    (fun (s : State) => s.pool.audit.all (fun a => decide (a.list < 16)) = true)
      ({ stPool with pool := { stPool.pool with audit := some { list := 15 } } }) ∧
    (fun (s : State) (r : SweepRun) => s.pool.sweep = some r ∧ r.reclaim = false)
      ({ stPool with pool := { stPool.pool with sweep := some { found := [(1, ⟨5, 2⟩)], pos := 9 } } })
      ({ found := [(1, ⟨5, 2⟩)], pos := 9 }) ∧
    (fun (s : State) (r : SweepRun) => s.pool.sweep = some r ∧ r.reclaim = true ∧ s.bit (opCtrl .sweep) 29 = false)
      ({ stPool with pool := { stPool.pool with sweep := some { found := [(1, ⟨5, 2⟩)], reclaim := true, pushed := 4 } } })
      ({ found := [(1, ⟨5, 2⟩)], reclaim := true, pushed := 4 }) ∧
    (fun (s : State) => s.pool.sweep = none) stPool := by
  refine ⟨?_, ?_, ?_, ?_, ?_, ?_, ?_, ?_, ?_⟩ <;> decide +kernel

/-- CreditMovesBetweenSchedulersAndQueues. -/
theorem witness_CreditMovesBetweenSchedulersAndQueues :
    (fun (dev : Fin 1024) (port : Fin 128) (cls : Fin 8) (v : Nat) (errs : List (Nat × Nat)) (s : State) (u : State) => u =
      s.hbmDamaged errs ∧ s.voqNamed dev.val port.val cls.val = some v ∧ (s.voqAt v).frames = []) 1023 127 7 47 ([]) stVoq
      (stVoq.hbmDamaged []) ∧
    (fun (dev : Fin 1024) (port : Fin 128) (cls : Fin 8) (bytes : Nat) (v : Nat) (errs : List (Nat × Nat)) (s : State) (u :
      State) (f : Stored) (fs : List Stored) => u = s.hbmDamaged errs ∧ s.voqNamed dev.val port.val cls.val = some v ∧ (s.voqAt
      v).frames = f :: fs ∧ (s.voqAt v).balance + bytes < f.len) 7 73 3 63 9 ([]) stVoq (stVoq.hbmDamaged []) storedV ([]) ∧
    (fun (dev : Fin 1024) (port : Fin 128) (cls : Fin 8) (v : Nat) (errs : List (Nat × Nat)) (s : State) (u : State) (f :
      Stored) (fs : List Stored) => u = s.hbmDamaged errs ∧ s.voqNamed dev.val port.val cls.val = some v ∧ (s.voqAt v).frames =
      f :: fs) 7 73 3 9 ([]) stVoq (stVoq.hbmDamaged []) storedV ([]) ∧
    (fun (dev : Fin 1024) (port : Fin 128) (cls : Fin 8) (s : State) => s.voqNamed dev.val port.val cls.val = none) 1 1 1 stVoq ∧
    (fun (v : Fin 262144) (s : State) (f : Stored) (fs : List Stored) => (s.voqAt v.val).frames = f :: fs ∧ (s.voqAt
      v.val).balance < f.len ∧ (s.voqAt v.val).dev ≠ s.devId) 9 stVoq storedV ([]) ∧
    (fun (v : Fin 262144) (s : State) => (s.voqAt v.val).frames.head?.all (fun f => decide (f.len ≤ (s.voqAt v.val).balance)) =
      true) 10 stVoq ∧
    (fun (v : Fin 262144) (s : State) => (s.voqAt v.val).frames.head?.any (fun f => decide ((s.voqAt v.val).balance < f.len)) =
      true ∧ (s.voqAt v.val).dev = s.devId) 9 (stVoq.setVoq 9 { frames := [storedV], dev := 0, port := 73, cls := 3 }) ∧
    (fun (port : Fin 75) (s : State) (r : CreditReq) => s.creditMode port.val = true ∧ (s.hold' port.val).down = false ∧
      ((port.val < 48 ∧ s.subBytes port.val + s.outstanding port.val < s.fld (Reg.almPonCredit port.val) 23 0 * 1024 ∧
      s.topRequest port.val (fun _ => true) = some r) ∨ (72 ≤ port.val ∧ s.stagingRoom port.val = true ∧ s.topRequest port.val
      (fun c => s.classRoom port.val c) = some r)) ∧ r.src ≠ s.devId) 74 stReq ({ port := 74, cls := 2, src := 9, on := true }) ∧
    (fun (port : Fin 75) (s : State) (r : CreditReq) => s.creditMode port.val = true ∧ (s.hold' port.val).down = false ∧
      ((port.val < 48 ∧ s.subBytes port.val + s.outstanding port.val < s.fld (Reg.almPonCredit port.val) 23 0 * 1024 ∧
      s.topRequest port.val (fun _ => true) = some r) ∨ (72 ≤ port.val ∧ s.stagingRoom port.val = true ∧ s.topRequest port.val
      (fun c => s.classRoom port.val c) = some r))) 74 stReq ({ port := 74, cls := 2, src := 9, on := true }) ∧
    (fun (port : Fin 75) (s : State) (u : State) (q : Option (List Nat) × State) (path : List Nat) (r : CreditReq) =>
      s.creditMode port.val = true ∧ (s.hold' port.val).down = false ∧ 48 ≤ port.val ∧ port.val < 72 ∧ s.pairOdd (port.val - 48)
      = false ∧ s.rootOk (48 + port.val) = true ∧ s.stagingRoom port.val = true ∧ q = s.settle.select (fun i => !(s.openClasses
      (port.val - 48) i).isEmpty) 4 1 (48 + port.val) ∧ q.1 = some path ∧ u = q.2 ∧ u.nextSrc (1024 + path.getLastD 0)
      ((u.openClasses (port.val - 48) (path.getLastD 0)).flatMap fun c => u.requests port.val c) = some r) 48 stReqNet
      (stReqNetQ.2) stReqNetQ ([20, 200, 2000, 20000]) ({ port := 48, cls := 2, src := 9, on := true }) ∧
    (fun (port : Fin 75) (s : State) => (s.creditMode port.val = false ∨ (s.hold' port.val).down = true ∨ (72 ≤ port.val ∧
      (s.stagingRoom port.val = false ∨ s.topRequest port.val (fun c => s.classRoom port.val c) = none)) ∨ (port.val < 48 ∧
      s.topRequest port.val (fun _ => true) = none))) 74 (State.reset) := by
  refine ⟨?_, ?_, ?_, ?_, ?_, ?_, ?_, ?_, ?_, ?_, ?_⟩ <;> decide +kernel

/-- DestinationStatesFollowPortStateMessages. -/
theorem witness_DestinationStatesFollowPortStateMessages :
    (fun (st : Fin 3) => st.val < 2) 1 ∧
    (fun (i : Fin 75) (at' : Raw) (s : State) (e : Raw) => ((s.advance at').hold' i.val).ends = some e ∧ (s.advance at').reached
      e = true ∧ s.dev.mode ≠ .safe) 73 65536 (stVoq.setHoldOf 73 ⟨true, some 65536⟩) 65536 ∧
    (fun (i : Fin 75) (at' : Raw) (s : State) => (s.dev.mode = .safe ∨ ((s.advance at').hold' i.val).ends.any (fun e =>
      (s.advance at').reached e) = false)) 73 65536 stVoq ∧
    (fun (val : Word) => bit val 31 = true) 0x8001FFFF ∧
    (fun (val : Word) => bit val 30 = true) 0xC001FFFF ∧
    (fun (val : Word) => bit val 31 = false ∧ bit val 30 = true) 0x4001FFFF ∧
    (fun (s : State) (m : McFrame) (ms : List McFrame) => s.pool.mcq = m :: ms ∧ s.passes m.stored.frame = true)
      ({ stVoq with pool := { mcq := [{ stored := storedA, targets := [] }] } }) ({ stored := storedA, targets := [] }) ([]) ∧
    (fun (s : State) => s.pool.mcq.head?.all (fun m => !s.passes m.stored.frame) = true) stVoq := by
  refine ⟨?_, ?_, ?_, ?_, ?_, ?_, ?_, ?_⟩ <;> decide +kernel

/-- AlmanacSettingsAreWrittenAndReadThroughSelectors. -/
theorem witness_AlmanacSettingsAreWrittenAndReadThroughSelectors :
    (fun (val : Word) (s : State) (x : Node) (y : Node) => bit val 31 = true ∧ fld val 18 0 < levelNodes (fld val 22 20) ∧ x =
      s.node (fld val 22 20) (fld val 18 0) ∧ y = { x with cfg0 := s.rd Reg.almNodeCfg0, cfg1 := s.rd Reg.almNodeCfg1 })
      0x8057FFFF (stA.wr Reg.almNodeCfg0 7) ({}) ({ cfg0 := 7 }) ∧
    (fun (val : Word) => bit val 31 = false ∧ bit val 30 = true ∧ fld val 18 0 < levelNodes (fld val 22 20)) 0x4057FFFF ∧
    (fun (val : Word) => bit val 30 = true ∧ fld val 18 0 < levelNodes (fld val 22 20)) 0xC057FFFF ∧
    (fun (val : Word) => levelNodes (fld val 22 20) ≤ fld val 18 0) 0x80100078 ∧
    (fun (val : Word) => bit val 31 = true ∧ fld val 13 0 < profCount (fld val 25 24)) 0xA20000FF ∧
    (fun (val : Word) => profCount (fld val 25 24) ≤ fld val 13 0) 0x83000000 ∧
    (fun (val : Word) (s : State) (i : Nat) => bit val 31 = false ∧ bit val 30 = true ∧ fld val 13 0 < profCount (fld val 25 24)
      ∧ (s.profile (fld val 29 29) (fld val 25 24) (fld val 13 0)).length = 10 ∧ i < 10) 0x40000005 stA 4 ∧
    (fun (val : Word) (s : State) (x : Policer) (y : Policer) => bit val 31 = true ∧ x = s.policer (fld val 17 0) ∧ y =
      { x with cfg := s.rd Reg.almPolCfg }) 0x8003FFFF (stA.wr Reg.almPolCfg 0x80000000) ({}) ({ cfg := 0x80000000 }) ∧
    (fun (val : Word) => bit val 30 = true ∧ bit val 31 = false) 0x4003FFFF ∧
    (fun (val : Word) => bit val 30 = true) 0x4003FFFF ∧
    (fun (val : Word) (s : State) => bit val 31 = true ∧ s.wpSame 3 = false ∧ s.almBank ≠ fld val 0 0) 0x80000001
      ({ stA with alm := { changed := [(65536, true)], pol := [(3, { cfg := 5 })] } }) ∧
    (fun (val : Word) (s : State) => bit val 31 = true ∧ s.wpSame 3 = false ∧ s.almBank = fld val 0 0) 0x80000000 stA ∧
    (fun (s : State) => s.wpSame 3 = true) stWpSame ∧
    (fun (coarse : Bool) (at' : Raw) (s : State) (u : State) => u = s.advance at' ∧ (u.alm.nodes.all fun e => e.2.wheel.all fun
      w => w.1 != coarse || decide (u.nowNs < w.2)) = true) true 65536 stA (stA.advance 65536) ∧
    (fun (coarse : Bool) (at' : Raw) (s : State) (u : State) (k : Nat) (x : Node) (p : List Word) (b : Bucket) => u = s.advance
      at' ∧ (u.alm.nodes.filter fun e => e.2.wheel.any fun w => w.1 == coarse && decide (w.2 ≤ u.nowNs)).map Prod.fst = [k] ∧ x
      = u.node (k / 524288) (k % 524288) ∧ p = u.shaper x ∧ b = x.max.refill (rateOf (profWord p 0)) (burstOf (profWord p 1))
      u.nowNs ∧ (0 ≤ b.tok ∨ rateOf (profWord p 0) = 0)) true 65536 (stWheel 0) ((stWheel 0).advance 65536) 1048581
      ({ wheel := some (true, 1), max := { tok := 0, last := 0 } }) (((stWheel 0).advance 65536).shaper
      ({ wheel := some (true, 1) } : Node)) (({ tok := 0, last := 0 } : Bucket).refill (rateOf (profWord (((stWheel 0).advance
      65536).shaper ({ wheel := some (true, 1) } : Node)) 0)) (burstOf (profWord (((stWheel 0).advance 65536).shaper
      ({ wheel := some (true, 1) } : Node)) 1)) 1) ∧
    (fun (coarse : Bool) (at' : Raw) (s : State) (u : State) (k : Nat) (x : Node) (p : List Word) (b : Bucket) => u = s.advance
      at' ∧ (u.alm.nodes.filter fun e => e.2.wheel.any fun w => w.1 == coarse && decide (w.2 ≤ u.nowNs)).map Prod.fst = [k] ∧ x
      = u.node (k / 524288) (k % 524288) ∧ p = u.shaper x ∧ b = x.max.refill (rateOf (profWord p 0)) (burstOf (profWord p 1))
      u.nowNs ∧ b.tok < 0 ∧ rateOf (profWord p 0) ≠ 0) true 65536 (stWheel (-9000000000)) ((stWheel (-9000000000)).advance
      65536) 1048581 ({ wheel := some (true, 1), max := { tok := -9000000000, last := 0 } }) (((stWheel 0).advance 65536).shaper
      ({ wheel := some (true, 1) } : Node)) (({ tok := -9000000000, last := 0 } : Bucket).refill (rateOf (profWord (((stWheel
      0).advance 65536).shaper ({ wheel := some (true, 1) } : Node)) 0)) (burstOf (profWord (((stWheel 0).advance 65536).shaper
      ({ wheel := some (true, 1) } : Node)) 1)) 1) := by
  refine ⟨?_, ?_, ?_, ?_, ?_, ?_, ?_, ?_, ?_, ?_, ?_, ?_, ?_, ?_, ?_, ?_⟩ <;> decide +kernel

/-- GateListsSwitchAtTheirStart. -/
theorem witness_GateListsSwitchAtTheirStart :
    (fun (m : Fin 24) (val : Word) (s : State) => bit val 31 = true ∧ s.wpSame (256 + m.val) = false ∧ s.pairOdd m.val = false ∧
      s.gatePending m.val = false) 0 0x80000000 stNet ∧
    (fun (m : Fin 24) (val : Word) (s : State) => bit val 31 = true ∧ s.wpSame (256 + m.val) = false ∧ s.pairOdd m.val = false ∧
      s.gatePending m.val = true) 0 0x80000000 (stNet.setBit (Reg.almGateStatus 0) 31 true) ∧
    (fun (m : Fin 24) (val : Word) (s : State) => (s.pairOdd m.val = true ∨ bit val 31 = false ∨ s.wpSame (256 + m.val) = true))
      23 0x00000000 stNet ∧
    (fun (m : Fin 24) (val : Word) (s : State) => bit val 31 = true ∧ bit val 29 = false ∧ fld val 20 16 = m.val ∧ s.pairOdd
      m.val = false ∧ s.gatePending m.val = false) 0 0x800003FF ((stNet.wr Reg.almGateEntGates 0x55).wr Reg.almGateEntInterval
      1000) ∧
    (fun (m : Fin 24) (val : Word) (s : State) => bit val 31 = true ∧ bit val 29 = false ∧ fld val 20 16 = m.val ∧ s.pairOdd
      m.val = false ∧ s.gatePending m.val = true) 0 0x800003FF (stNet.setBit (Reg.almGateStatus 0) 31 true) ∧
    (fun (val : Word) (s : State) => (bit val 29 = true ∨ 24 ≤ fld val 20 16 ∨ s.pairOdd (fld val 20 16) = true)) 0xA00003FF
      stGate ∧
    (fun (val : Word) => bit val 30 = true) 0x60000005 ∧
    (fun (m : Fin 24) (at' : Raw) (s : State) => ((s.advance at').gatePending m.val = false ∨ (s.advance at').gateTime m.val <
      ((s.advance at').gates m.val).nextT0)) 23 65536 stNet ∧
    (fun (m : Fin 24) (at' : Raw) (s : State) (u : State) => u = s.advance at' ∧ u.gatePending m.val = true ∧ (u.gates
      m.val).nextT0 ≤ u.gateTime m.val) 0 65536 stGatePend (stGatePend.advance 65536) ∧
    (fun (at' : Raw) (s : State) (u : State) => u = s.advance at') 65536 stGateRun (stGateRun.advance 65536) := by
  refine ⟨?_, ?_, ?_, ?_, ?_, ?_, ?_, ?_, ?_, ?_⟩ <;> decide +kernel

/-- XgemFramesNeedATransmittingPortAndAConfirmedBurst. -/
theorem witness_XgemFramesNeedATransmittingPortAndAConfirmedBurst_1 :
    (fun (ch : Fin 96) (s : State) => (s.txOn (ch.val / 2) = false ∨ s.serving = false ∨ s.bit (Reg.ponLineStatus (ch.val / 2))
      31 = false ∨ (s.area ch.val).2 ≤ (s.area ch.val).1)) 95 stA ∧
    (fun (ch : Fin 96) (space : Nat) (eq : Nat) (errs : List (Nat × Nat)) (ctxBad : Fin 3) (f : Stored) (s : State) (w : State)
      (q : CtxErr × State) => q = (s.hbmDamaged errs).ctxErr ctxBad ∧ q.2.txOn (ch.val / 2) = true ∧ q.2.serving = true ∧
      q.2.bit (Reg.ponLineStatus (ch.val / 2)) 31 = true ∧ w = q.2.idleFill ch.val ((q.2.area ch.val).2 - (q.2.area ch.val).1 -
      space) ∧ (w.area ch.val).1 < (w.area ch.val).2 ∧ w.xgm.wait.get (fun _ => none) ch.val = some (eq, f)) 0 90 3 ([]) 0
      storedA stXgem (stXgem.idleFill 0 10) ((.none, stXgem.hbmDamaged [])) ∧
    (fun (ch : Fin 96) (space : Nat) (errs : List (Nat × Nat)) (s : State) (w : State) (r : Option (List Nat) × State) => s.txOn
      (ch.val / 2) = true ∧ s.serving = true ∧ s.bit (Reg.ponLineStatus (ch.val / 2)) 31 = true ∧ w = (s.hbmDamaged
      errs).idleFill ch.val ((s.area ch.val).2 - (s.area ch.val).1 - space) ∧ (w.area ch.val).1 < (w.area ch.val).2 ∧
      w.xgm.wait.get (fun _ => none) ch.val = none ∧ r = w.settle.select (fun i => !(w.node 5 i).frames.isEmpty) 4 1 ch.val ∧
      w.rootOk ch.val = false) 0 90 ([]) ({ stXgem with xgm := { stXgem.xgm with wait := [] } })
      (({ stXgem with xgm := { stXgem.xgm with wait := [] } } : State).idleFill 0 10)
      ((({ stXgem with xgm := { stXgem.xgm with wait := [] } } : State).idleFill 0 10).settle.select (fun i =>
      !((({ stXgem with xgm := { stXgem.xgm with wait := [] } } : State).idleFill 0 10).node 5 i).frames.isEmpty) 4 1 0) ∧
    (fun (ch : Fin 96) (space : Nat) (errs : List (Nat × Nat)) (s : State) (w : State) (r : Option (List Nat) × State) => s.txOn
      (ch.val / 2) = true ∧ s.serving = true ∧ s.bit (Reg.ponLineStatus (ch.val / 2)) 31 = true ∧ w = (s.hbmDamaged
      errs).idleFill ch.val ((s.area ch.val).2 - (s.area ch.val).1 - space) ∧ (w.area ch.val).1 < (w.area ch.val).2 ∧
      w.xgm.wait.get (fun _ => none) ch.val = none ∧ r = w.settle.select (fun i => !(w.node 5 i).frames.isEmpty) 4 1 ch.val ∧
      w.rootOk ch.val = true ∧ r.1 = none) 0 90 ([])
      ({ stXgem with alm := { stXgem.alm with nodes := SMap.set (fun _ => stXgem.alm.blank) [] (524288) { cfg0 := 0x80000000 } }, xgm := { stXgem.xgm with wait := [] } })
      (({ stXgem with alm := { stXgem.alm with nodes := SMap.set (fun _ => stXgem.alm.blank) [] (524288) { cfg0 := 0x80000000 } }, xgm := { stXgem.xgm with wait := [] } }
      : State).idleFill 0 10)
      ((({ stXgem with alm := { stXgem.alm with nodes := SMap.set (fun _ => stXgem.alm.blank) [] (524288) { cfg0 := 0x80000000 } }, xgm := { stXgem.xgm with wait := [] } }
      : State).idleFill 0 10).settle.select (fun i =>
      !((({ stXgem with alm := { stXgem.alm with nodes := SMap.set (fun _ => stXgem.alm.blank) [] (524288) { cfg0 := 0x80000000 } }, xgm := { stXgem.xgm with wait := [] } }
      : State).idleFill 0 10).node 5 i).frames.isEmpty) 4 1 0) ∧
    (fun (ch : Fin 96) (space : Nat) (errs : List (Nat × Nat)) (s : State) (w : State) (r : Option (List Nat) × State) (path :
      List Nat) (f : Stored) (fs : List Stored) => s.txOn (ch.val / 2) = true ∧ s.serving = true ∧ s.bit (Reg.ponLineStatus
      (ch.val / 2)) 31 = true ∧ w = (s.hbmDamaged errs).idleFill ch.val ((s.area ch.val).2 - (s.area ch.val).1 - space) ∧
      (w.area ch.val).1 < (w.area ch.val).2 ∧ w.xgm.wait.get (fun _ => none) ch.val = none ∧ r = w.settle.select (fun i =>
      !(w.node 5 i).frames.isEmpty) 4 1 ch.val ∧ w.rootOk ch.val = true ∧ r.1 = some path ∧ (r.2.node 5 (path.getLastD
      0)).frames = f :: fs) 0 90 ([]) stXgemSel stXgemW stXgemQ ([20, 200, 2000, 20000]) storedA ([]) ∧
    (fun (ch : Fin 96) (space : Nat) (eq : Nat) (errs : List (Nat × Nat)) (f : Stored) (s : State) (w : State) (u : State) =>
      s.txOn (ch.val / 2) = true ∧ s.serving = true ∧ s.bit (Reg.ponLineStatus (ch.val / 2)) 31 = true ∧ w = (s.hbmDamaged
      errs).idleFill ch.val ((s.area ch.val).2 - (s.area ch.val).1 - space) ∧ (w.area ch.val).1 < (w.area ch.val).2 ∧
      w.xgm.wait.get (fun _ => none) ch.val = some (eq, f) ∧ u =
      { w with xgm := { w.xgm with wait := w.xgm.wait.set (fun _ => none) ch.val none } } ∧ f.ts = none ∧ u.dsCheck ch.val eq
      .none = .noBind) 0 90 4 ([]) storedA
      ({ stXgem with xgm := { stXgem.xgm with wait := SMap.set (fun _ => none) [] 0 (some (4, storedA)) } })
      (({ stXgem with xgm := { stXgem.xgm with wait := SMap.set (fun _ => none) [] 0 (some (4, storedA)) } } : State).idleFill 0
      10) ({ ({ stXgem with xgm := { stXgem.xgm with wait := SMap.set (fun _ => none) [] 0 (some (4, storedA)) } } : State).idleFill 0 10 with xgm := { (({ stXgem with xgm := { stXgem.xgm with wait := SMap.set (fun _ => none) [] 0 (some (4, storedA)) } } : State).idleFill 0 10).xgm with wait := [] } }) ∧
    (fun (ch : Fin 96) (space : Nat) (eq : Nat) (errs : List (Nat × Nat)) (f : Stored) (s : State) (w : State) (u : State) =>
      s.txOn (ch.val / 2) = true ∧ s.serving = true ∧ s.bit (Reg.ponLineStatus (ch.val / 2)) 31 = true ∧ w = (s.hbmDamaged
      errs).idleFill ch.val ((s.area ch.val).2 - (s.area ch.val).1 - space) ∧ (w.area ch.val).1 < (w.area ch.val).2 ∧
      w.xgm.wait.get (fun _ => none) ch.val = some (eq, f) ∧ u =
      { w with xgm := { w.xgm with wait := w.xgm.wait.set (fun _ => none) ch.val none } } ∧ f.ts = none ∧ u.dsCheck ch.val eq
      .none = .noKey) 0 90 3 ([]) storedA
      ({ stXgem with xgm := { stXgem.xgm with binds := SMap.set (fun _ => {}) [] 5 { cfg0 := 0xA0000007 } } })
      (({ stXgem with xgm := { stXgem.xgm with binds := SMap.set (fun _ => {}) [] 5 { cfg0 := 0xA0000007 } } } : State).idleFill
      0 10)
      ({ ({ stXgem with xgm := { stXgem.xgm with binds := SMap.set (fun _ => {}) [] 5 { cfg0 := 0xA0000007 } } } : State).idleFill 0 10 with xgm := { (({ stXgem with xgm := { stXgem.xgm with binds := SMap.set (fun _ => {}) [] 5 { cfg0 := 0xA0000007 } } } : State).idleFill 0 10).xgm with wait := [] } }) ∧
    (fun (ch : Fin 96) (space : Nat) (eq : Nat) (errs : List (Nat × Nat)) (f : Stored) (pid : Nat) (index : Nat) (key : Option
      (BitVec 128)) (s : State) (w : State) (u : State) => s.txOn (ch.val / 2) = true ∧ s.serving = true ∧ s.bit
      (Reg.ponLineStatus (ch.val / 2)) 31 = true ∧ w = (s.hbmDamaged errs).idleFill ch.val ((s.area ch.val).2 - (s.area
      ch.val).1 - space) ∧ (w.area ch.val).1 < (w.area ch.val).2 ∧ w.xgm.wait.get (fun _ => none) ch.val = some (eq, f) ∧ u =
      { w with xgm := { w.xgm with wait := w.xgm.wait.set (fun _ => none) ch.val none } } ∧ f.ts = none ∧ u.dsCheck ch.val eq
      .none = .send pid index key) 0 90 3 ([]) storedA 5 0 none stXgem (stXgem.idleFill 0 10)
      ({ stXgem.idleFill 0 10 with xgm := { (stXgem.idleFill 0 10).xgm with wait := [] } }) ∧
    (fun (j : Fin 96) (f : Nat) (i : Nat) (k : Nat) (s : State) => ((s.burstOf j.val f i).all fun b => b.st != .confirmed ||
      b.grants[k]?.isNone) = true) 95 7 0 0 stA ∧
    (fun (j : Fin 96) (f : Nat) (i : Nat) (k : Nat) (x : UpXgem) (s : State) (b : Burst) (g : Grant) => s.burstOf j.val f i =
      some b ∧ b.st = .confirmed ∧ b.grants[k]? = some g ∧ ((g.dead = true ∨ (x.hec = true ∧ x.pid = 65535)))) 0 4 0 0
      ({ hec := true, pid := 65535, key := 0, lf := true, bytes := [] }) stXgem
      ({ onu := 7, st := .confirmed, grants := [{ onu := 7, ctx := some 2 }] }) ({ onu := 7, ctx := some 2 }) ∧
    (fun (j : Fin 96) (f : Nat) (i : Nat) (k : Nat) (x : UpXgem) (s : State) (b : Burst) (g : Grant) => s.burstOf j.val f i =
      some b ∧ b.st = .confirmed ∧ b.grants[k]? = some g ∧ g.dead = false ∧ x.hec = false) 0 4 0 0
      ({ hec := false, pid := 5, key := 0, lf := true, bytes := [] }) stXgem
      ({ onu := 7, st := .confirmed, grants := [{ onu := 7, ctx := some 2 }] }) ({ onu := 7, ctx := some 2 }) ∧
    (fun (j : Fin 96) (f : Nat) (i : Nat) (k : Nat) (x : UpXgem) (s : State) (b : Burst) (g : Grant) => s.burstOf j.val f i =
      some b ∧ b.st = .confirmed ∧ b.grants[k]? = some g ∧ g.dead = false ∧ x.hec = true ∧ x.pid ≠ 65535 ∧ ((8192 ≤ x.pid ∨ bit
      (s.binding (j.val / 2) x.pid).cfg0 31 = false ∨ bit (s.binding (j.val / 2) x.pid).cfg0 30 = true ∨ fld (s.binding (j.val /
      2) x.pid).cfg0 9 0 ≠ b.onu))) 0 4 0 0 ({ hec := true, pid := 9, key := 0, lf := true, bytes := [] }) stXgemNoCtx
      ({ onu := 7, st := .confirmed, grants := [{ onu := 7 }] }) ({ onu := 7 }) ∧
    (fun (j : Fin 96) (f : Nat) (i : Nat) (k : Nat) (x : UpXgem) (s : State) (b : Burst) (g : Grant) => s.burstOf j.val f i =
      some b ∧ b.st = .confirmed ∧ b.grants[k]? = some g ∧ g.dead = false ∧ x.hec = true ∧ x.pid ≠ 65535 ∧ x.pid < 8192 ∧ bit
      (s.binding (j.val / 2) x.pid).cfg0 31 = true ∧ bit (s.binding (j.val / 2) x.pid).cfg0 30 = false ∧ fld (s.binding (j.val /
      2) x.pid).cfg0 9 0 = b.onu ∧ s.allocStrict = false ∧ 3 ≤ x.key) 0 4 0 0
      ({ hec := true, pid := 5, key := 3, lf := true, bytes := [] }) stXgemNoCtx
      ({ onu := 7, st := .confirmed, grants := [{ onu := 7 }] }) ({ onu := 7 }) ∧
    (fun (j : Fin 96) (f : Nat) (i : Nat) (k : Nat) (x : UpXgem) (s : State) (b : Burst) (g : Grant) => s.burstOf j.val f i =
      some b ∧ b.st = .confirmed ∧ b.grants[k]? = some g ∧ g.dead = false ∧ x.hec = true ∧ x.key = 0 ∧ b.bad = [] ∧ x.pid < 8192
      ∧ s.xreasm (j.val / 2) x.pid = {} ∧ (s.binding (j.val / 2) x.pid).cfg0 = BitVec.ofNat 32 (2 ^ 31 + b.onu) ∧ b.onu < 1024 ∧
      s.allocStrict = false ∧ s.serving = true ∧ x.lf = true ∧ fcsOk x.bytes = true) 0 4 0 0
      ({ hec := true, pid := 5, key := 0, lf := true, bytes := goodBytes }) stXgem
      ({ onu := 7, st := .confirmed, grants := [{ onu := 7, ctx := some 2 }] }) ({ onu := 7, ctx := some 2 }) ∧
    (fun (j : Fin 96) (f : Nat) (i : Nat) (k : Nat) (x : UpXgem) (s : State) (b : Burst) (g : Grant) => s.burstOf j.val f i =
      some b ∧ b.st = .confirmed ∧ b.grants[k]? = some g ∧ g.dead = false ∧ x.hec = true ∧ x.key = 0 ∧ b.bad = [] ∧ x.pid < 8192
      ∧ s.xreasm (j.val / 2) x.pid = {} ∧ (s.binding (j.val / 2) x.pid).cfg0 = BitVec.ofNat 32 (2 ^ 31 + b.onu) ∧ b.onu < 1024 ∧
      s.allocStrict = false ∧ s.serving = true ∧ x.lf = true ∧ fcsOk x.bytes = false) 0 4 0 0
      ({ hec := true, pid := 5, key := 0, lf := true, bytes := [] }) stXgem
      ({ onu := 7, st := .confirmed, grants := [{ onu := 7, ctx := some 2 }] }) ({ onu := 7, ctx := some 2 }) ∧
    (fun (j : Fin 96) (f : Nat) (i : Nat) (k : Nat) (x : UpXgem) (s : State) (b : Burst) (g : Grant) => s.burstOf j.val f i =
      some b ∧ b.st = .confirmed ∧ b.grants[k]? = some g ∧ g.dead = false ∧ x.hec = true ∧ x.key = 0 ∧ b.bad = [] ∧ x.pid < 8192
      ∧ s.xreasm (j.val / 2) x.pid = {} ∧ (s.binding (j.val / 2) x.pid).cfg0 = BitVec.ofNat 32 (2 ^ 31 + b.onu) ∧ b.onu < 1024 ∧
      s.allocStrict = false ∧ s.serving = true ∧ x.lf = false ∧ x.bytes.length ≤ s.maxSdu ∧ s.reasmUnits + ceilDiv
      x.bytes.length 256 ≤ reasmUnitsMax) 0 4 0 0 ({ hec := true, pid := 5, key := 0, lf := false, bytes := [1, 2] }) stXgem
      ({ onu := 7, st := .confirmed, grants := [{ onu := 7, ctx := some 2 }] }) ({ onu := 7, ctx := some 2 }) := by
  refine ⟨?_, ?_, ?_, ?_, ?_, ?_, ?_, ?_, ?_, ?_, ?_, ?_, ?_, ?_, ?_, ?_⟩ <;> decide +kernel

/-- XgemFramesNeedATransmittingPortAndAConfirmedBurst. -/
theorem witness_XgemFramesNeedATransmittingPortAndAConfirmedBurst_2 :
    (fun (n : Fin 48) (pid : Fin 8192) (at' : Raw) (s : State) => ((s.advance at').xreasm n.val pid.val).isOpen = false) 47 8191
      65536 stA ∧
    (fun (n : Fin 48) (pid : Fin 8192) (at' : Raw) (s : State) (u : State) => u = s.advance at' ∧ (u.raw.toNat : Int) <
      (u.chrono.psyncAt.toNat : Int) + ((((u.xreasm n.val pid.val).u + u.reasmFrames + 1 : Nat) : Int) - u.chrono.ponSf) *
      8192000000 + (u.teq n.val) * 65536) 0 6 65536 stXgem (stXgem.advance 65536) ∧
    (fun (n : Fin 48) (pid : Fin 8192) (at' : Raw) (s : State) (u : State) => u = s.advance at' ∧ (u.xreasm n.val
      pid.val).isOpen = true ∧ (u.chrono.psyncAt.toNat : Int) + ((((u.xreasm n.val pid.val).u + u.reasmFrames + 1 : Nat) : Int)
      - u.chrono.ponSf) * 8192000000 + (u.teq n.val) * 65536 ≤ u.raw.toNat) 0 6 6553600000000 stXgem (stXgem.advance
      6553600000000) := by
  refine ⟨?_, ?_, ?_⟩ <;> decide +kernel

/-- ReckonerContextsReportsAndBanks. -/
theorem witness_ReckonerContextsReportsAndBanks :
    (fun (val : Word) => bit val 31 = true ∧ fld val 21 16 < 48) 0x802F0FFF ∧
    (fun (val : Word) => bit val 31 = false ∧ bit val 30 = true ∧ fld val 21 16 < 48) 0x402F0FFF ∧
    (fun (val : Word) => bit val 30 = true ∧ fld val 21 16 < 48) 0xC02F0FFF ∧
    (fun (val : Word) => 48 ≤ fld val 21 16) 0xC0300000 ∧
    (fun (j : Fin 96) (f : Nat) (i : Nat) (k : Nat) (a : Nat) (s : State) (b : Burst) (g : Grant) => s.burstOf j.val f i = some
      b ∧ b.st = .confirmed ∧ b.grants[k]? = some g ∧ g.ctx = some a ∧ g.dbru = true ∧ (s.alloc (j.val / 2) a).reseed = false ∧
      (s.alloc (j.val / 2) a).fixFrame < f) 0 4 0 0 2 stRck
      ({ onu := 7, st := .confirmed, grants := [{ onu := 7, ctx := some 2, dbru := true }] })
      ({ onu := 7, ctx := some 2, dbru := true }) ∧
    (fun (j : Fin 96) (f : Nat) (i : Nat) (k : Nat) (a : Nat) (good : Bool) (s : State) (b : Burst) (g : Grant) => s.burstOf
      j.val f i = some b ∧ b.st = .confirmed ∧ b.grants[k]? = some g ∧ g.ctx = some a ∧ g.dbru = true ∧ (good = false ∨ f ≤
      (s.alloc (j.val / 2) a).fixFrame ∨ (s.alloc (j.val / 2) a).reseed = true)) 0 4 0 0 2 false stRck
      ({ onu := 7, st := .confirmed, grants := [{ onu := 7, ctx := some 2, dbru := true }] })
      ({ onu := 7, ctx := some 2, dbru := true }) ∧
    (fun (j : Fin 96) (f : Nat) (i : Nat) (k : Nat) (s : State) => ((s.burstOf j.val f i).all fun b => b.st != .confirmed ||
      (b.grants[k]?).all fun g => !g.dbru || g.ctx.isNone) = true) 0 4 0 1 stRck ∧
    (fun (val : Word) (s : State) => bit val 31 = true ∧ s.wpSame 4 = false ∧ s.activeBank Reg.dbaCommit ≠ fld val 0 0)
      0x80000001 stA ∧
    (fun (val : Word) (s : State) => bit val 31 = true ∧ s.wpSame 4 = false ∧ s.activeBank Reg.dbaCommit = fld val 0 0)
      0x80000000 (stA.setBit Reg.dbaCommit 30 true) ∧
    (fun (s : State) => s.wpSame 4 = true) stWpSame ∧
    (fun (at' : Raw) (s : State) (u : State) => u = (s.advance at').bookSettle) 65536 stRck ((stRck.advance 65536).bookSettle) ∧
    (fun (j : Fin 96) (s : State) (m : PonMap) => ((s.maps j.val).filter fun m => !m.done).getLast? = some m) 0 stRck
      ({ f := 4, sent := true, bursts := [{ onu := 7, st := .confirmed, grants := [{ onu := 7, ctx := some 2, dbru := true }] }] }) ∧
    (fun (j : Fin 96) (s : State) => (s.maps j.val).all (fun m => m.done) = true) 0 stA := by
  refine ⟨?_, ?_, ?_, ?_, ?_, ?_, ?_, ?_, ?_, ?_, ?_, ?_, ?_⟩ <;> decide +kernel

/-- BookingsAnswerWithAResult. -/
theorem witness_BookingsAnswerWithAResult :
    (fun (val : Word) (t0 : Nat) (s : State) (u : State) => u = s.bookSettle ∧ t0 = ((u.rd Reg.dbaBookSecLo).toNat + 2 ^ 32 *
      u.fld Reg.dbaBookSecHi 15 0) * 1000000000 + u.fld Reg.dbaBookNs 29 0 ∧ bit val 31 = true ∧ u.rck.booking = none)
      0x80000001 0 stA (stA.bookSettle) ∧
    (fun (val : Word) (t0 : Nat) (s : State) (u : State) => u = s.bookSettle ∧ t0 = ((u.rd Reg.dbaBookSecLo).toNat + 2 ^ 32 *
      u.fld Reg.dbaBookSecHi 15 0) * 1000000000 + u.fld Reg.dbaBookNs 29 0 ∧ bit val 31 = true ∧ u.rck.booking ≠ none)
      0x80000001 0 (stBook 0) ((stBook 0).bookSettle) ∧
    (fun (val : Word) => bit val 31 = false) 1 ∧
    (fun (s : State) (u : State) (r : BookReq) (e : BookEnd) => s.cmp.cti = [] ∧ s.rck.booking = some r ∧ r.at' ≠ s.raw ∧
      ({ s with rck := { s.rck with booking := none } } : State).book r.n r.a r.t r.vol r.spread r.train = (e, u)) (stBook 5)
      (({ stBook 5 with rck := {} } : State).bump Reg.dbaBookRefused)
      ({ n := 3, a := 7, t := 125000, vol := 64, spread := 1, train := 0, at' := 5 }) ({ result := 6 }) ∧
    (fun (s : State) (u : State) (r : BookReq) (e : BookEnd) => s.cmp.cti = [] ∧ s.rck.booking = some r ∧ r.at' ≠ s.raw ∧
      ({ s with rck := { s.rck with booking := none } } : State).book r.n r.a r.t r.vol r.spread r.train = (e, u) ∧ ((48 ≤ r.n ∨
      (s.alloc r.n r.a).valid = false))) (stBook 5) (({ stBook 5 with rck := {} } : State).bump Reg.dbaBookRefused)
      ({ n := 3, a := 7, t := 125000, vol := 64, spread := 1, train := 0, at' := 5 }) ({ result := 6 }) ∧
    (fun (rep : Option CtiReport) (s : State) (u : State) (f : Frame) (fs : List Frame) => u = s.bookSettle ∧ u.cmp.cti = f ::
      fs ∧ (rep.bind fun r => u.ctiEntry r.client) = none) none ({ stA with cmp := { cti := [frameA] } })
      ({ stA with cmp := { cti := [frameA] } }) frameA ([]) ∧
    (fun (r : CtiReport) (w : Word) (s : State) (u : State) (f : Frame) (fs : List Frame) => u = s.bookSettle ∧ u.cmp.cti = f ::
      fs ∧ u.ctiEntry r.client = some w) ({ client := 5, entries := [(0, 125000, 100)] }) 0x80000000 stCti stCti frameA ([]) ∧
    (fun (s : State) => s.cmp.cti = [] ∧ s.rck.booking = none) stA := by
  refine ⟨?_, ?_, ?_, ?_, ?_, ?_, ?_, ?_⟩ <;> decide +kernel

/-- ImageLoadsGoThroughFiveConditions. -/
theorem witness_ImageLoadsGoThroughFiveConditions :
    (fun (s : State) (r : LoadRun) => s.dev.load = some r ∧ r.hdr = none) (stLoad { flash := false, len := 272 })
      ({ flash := false, len := 272 }) ∧
    (fun (dir : List DirEntry) (s : State) (r : LoadRun) (h : ImgHeader) => s.dev.load = some r ∧ r.hdr = some h ∧ r.dir = [] ∧
      dir.length = h.sectionCount) dirA (stLoad runH) runH hdrA ∧
    (fun (s : State) (r : LoadRun) (h : ImgHeader) => s.dev.load = some r ∧ r.hdr = some h ∧ r.dir ≠ [] ∧ r.second = false)
      (stLoad runD) runD hdrA ∧
    (fun (sec : Section) (s : State) (r : LoadRun) (i : Nat) (e : DirEntry) => s.dev.load = some r ∧ r.second = true ∧
      r.nextSection = some (i, e) ∧ sectionType sec = e.type) (.entry []) (stLoad runS) runS 0
      ({ type := 7, offset := 48, length := 16, flags := 0 }) ∧
    (fun (s : State) (r : LoadRun) (h : ImgHeader) => s.dev.load = some r ∧ r.hdr = some h ∧ r.second = true ∧ r.nextSection =
      none) (stLoad runE) runE hdrA ∧
    (fun (s : State) (r : LoadRun) => s.dev.load = some r) (stLoad runS) runS ∧
    (fun (s : State) (r : SwapRun) => s.dev.load = none ∧ s.dev.swap = some r) (stSwap (runP .auth)) (runP .auth) ∧
    (fun (s : State) => s.dev.load = none ∧ s.dev.swap = none) stA := by
  refine ⟨?_, ?_, ?_, ?_, ?_, ?_, ?_, ?_⟩ <;> decide +kernel

/-- ImageSwapsMoveOnePipelineAtATime. -/
theorem witness_ImageSwapsMoveOnePipelineAtATime_1 :
    (fun (val : Word) (s : State) => bit val 31 = true ∧ s.busy .imageSwap = false ∧ (opAllowed .imageSwap s.dev.mode 0 0 =
      false ∨ s.busy .imageLoad = true)) 0x80000004 (State.reset) ∧
    (fun (val : Word) (s : State) => bit val 31 = true ∧ s.busy .imageSwap = false ∧ opAllowed .imageSwap s.dev.mode 0 0 = true
      ∧ s.busy .imageLoad = false ∧ fld val 15 0 % 2 = 0 ∧ 32 ≤ s.fld Reg.devImgLen 26 0) 0x80000000 (stA.wr Reg.devImgLen 32) ∧
    (fun (val : Word) (flash : Option Nat) (s : State) => bit val 31 = true ∧ s.busy .imageSwap = false ∧ opAllowed .imageSwap
      s.dev.mode 0 0 = true ∧ s.busy .imageLoad = false ∧ fld val 15 0 % 2 = 1 ∧ s.dev.binAlive = true ∧ 32 ≤ flash.getD 0)
      0xC0000001 (some 32) stA ∧
    (fun (val : Word) (flash : Option Nat) (s : State) => bit val 31 = true ∧ s.busy .imageSwap = false ∧ opAllowed .imageSwap
      s.dev.mode 0 0 = true ∧ s.busy .imageLoad = false ∧ fld val 15 0 % 2 = 1 ∧ flash = none) 0x80000001 none stA ∧
    (fun (val : Word) (s : State) (r : SwapRun) => fld val 31 30 = 1 ∧ s.busy .imageSwap = true ∧ s.dev.swap = some r)
      0x40000000 (stSwap (runP .paused)) (runP .paused) ∧
    (fun (val : Word) (s : State) => bit val 31 = false ∧ s.busy .imageSwap = false) 0x40000004 stA ∧
    (fun (val : Word) (s : State) (r : SwapRun) => fld val 31 30 = 0 ∧ bit val 2 = true ∧ s.busy .imageSwap = true ∧ s.dev.swap
      = some r) 4 (stSwap (runP .paused)) (runP .paused) ∧
    (fun (s : State) (r : SwapRun) => s.dev.swap = some r ∧ r.phase = .auth ∧ s.dev.moving = none) (stSwap
      { runP .auth with img := none }) ({ runP .auth with img := none }) ∧
    (fun (s : State) => ((s.dev.swap.map fun r => decide (r.phase ≠ .auth)).getD true || s.dev.moving.isSome) = true) (stSwap
      (runP .moving)) ∧
    (fun (s : State) (r : SwapRun) (f : ImageFile) => s.dev.swap = some r ∧ r.img = some f ∧ r.phase = .loadSpare) (stSwap (runP
      .loadSpare)) (runP .loadSpare) imgA ∧
    (fun (s : State) (k : Nat) => s.dev.moving = some k ∧ s.recirc (s.fld (Reg.devPipeMap k) 3 0) = [] ∧ k < 8)
      ({ stA with dev := { stA.dev with moving := some 3 } }) 3 ∧
    (fun (s : State) (k : Nat) => s.dev.moving = some k ∧ s.recirc (s.fld (Reg.devPipeMap k) 3 0) ≠ [])
      ({ stA with dev := { stA.dev with moving := some 3 }, cmp := { recirc := SMap.set (fun _ => []) [] 3 [{ frame := frameA }] } })
      3 ∧
    (fun (s : State) (r : SwapRun) (f : ImageFile) => s.dev.moving = none ∧ s.dev.swap = some r ∧ r.img = some f ∧ r.phase =
      .moving ∧ r.k < 8 ∧ s.recirc (s.fld (Reg.devPipeMap r.k) 3 0) = []) (stSwap (runP .moving)) (runP .moving) imgA ∧
    (fun (s : State) (r : SwapRun) (f : ImageFile) => s.dev.moving = none ∧ s.dev.swap = some r ∧ r.img = some f ∧ r.phase =
      .moving ∧ r.k < 8 ∧ s.recirc (s.fld (Reg.devPipeMap r.k) 3 0) ≠ [])
      ({ stSwap (runP .moving) with cmp := { recirc := SMap.set (fun _ => []) [] ((stSwap (runP .moving)).fld (Reg.devPipeMap (runP .moving).k) 3 0) [{ frame := frameA }] } })
      (runP .moving) imgA ∧
    (fun (t0 : Nat) (s : State) => s.dev.bist = some t0) 1
      ({ State.reset with dev := { mode := .maintenance, bist := some 1 } }) ∧
    (fun (t0 : Nat) (k : Nat) (corr : List (Fin 10 × Nat × Nat × BitVec 64)) (s : State) => s.dev.bist = some t0 ∧ corr.map (fun
      x => x.1.val) = [k]) 1 3 ([(3, 1, 2, 7)]) ({ State.reset with dev := { mode := .maintenance, bist := some 1 } }) := by
  refine ⟨?_, ?_, ?_, ?_, ?_, ?_, ?_, ?_, ?_, ?_, ?_, ?_, ?_, ?_, ?_, ?_⟩ <;> decide +kernel

/-- ImageSwapsMoveOnePipelineAtATime. -/
theorem witness_ImageSwapsMoveOnePipelineAtATime_2 :
    (fun (s : State) => s.dev.bist = none) stA := by decide +kernel

/-- PuntAndInjectRingsFollowTheirDescriptors. -/
theorem witness_PuntAndInjectRingsFollowTheirDescriptors :
    (fun (s : State) => (s.dev.mode = .safe ∨ s.nextPunt = none)) stA ∧
    (fun (bufs : List HostBuf) (s : State) (u : State) (f : HostFrame) => s.dev.mode ≠ .safe ∧ s.nextPunt = some (f, u) ∧
      (s.dev.perstLow = true ∨ bufs.take (s.puntPosted f.ring) = [])) ([⟨64, 5⟩]) stPunt
      ({ stPunt with dev := { stPunt.dev with punts := [] } }) (sampleFrame puntA) ∧
    (fun (bufs : List HostBuf) (bs : List HostBuf) (b : HostBuf) (s : State) (u : State) (f : HostFrame) => s.dev.mode ≠ .safe ∧
      s.dev.perstLow = false ∧ s.nextPunt = some (f, u) ∧ bufs.take (s.puntPosted f.ring) = b :: bs ∧ f.data.length ≤ b.len)
      ([⟨64, 4096⟩]) ([]) (⟨64, 4096⟩) stPuntRing ({ stPuntRing with dev := { stPuntRing.dev with punts := [] } }) (sampleFrame
      puntA) ∧
    (fun (bufs : List HostBuf) (s : State) (u : State) (f : HostFrame) => s.dev.mode ≠ .safe ∧ s.dev.perstLow = false ∧
      s.nextPunt = some (f, u) ∧ bufs.take (s.puntPosted f.ring) ≠ []) ([⟨64, 4096⟩]) stPuntRing
      ({ stPuntRing with dev := { stPuntRing.dev with punts := [] } }) (sampleFrame puntA) ∧
    (fun (n : Fin 64) (count : Nat) (s : State) => s.injReady n.val count = false) 63 1 stA ∧
    (fun (n : Fin 64) (desc : InjDesc) (data : List Byte) (cap : Raw) (count : Nat) (full : Bool) (s : State) (u : State) (f :
      Frame) => s.injReady n.val count = true ∧ desc.srcPort < 75 ∧ u = s.injRead n.val desc 0 true count ∧ f = u.attach
      (u.injFrame desc data cap) ∧ u.passes f = true ∧ full = false) 5 injA goodBytes 0 1 false stInjRing (stInjRing.injRead 5
      injA 0 true 1) (stInjRing.attach (stInjRing.injFrame injA goodBytes 0)) ∧
    (fun (n : Fin 64) (desc : InjDesc) (data : List Byte) (cap : Raw) (count : Nat) (full : Bool) (s : State) (u : State) (f :
      Frame) => s.injReady n.val count = true ∧ desc.srcPort < 75 ∧ u = s.injRead n.val desc 0 true count ∧ f = u.attach
      (u.injFrame desc data cap) ∧ u.passes f = true ∧ full = true) 5 injA goodBytes 0 1 true stInjRing (stInjRing.injRead 5
      injA 0 true 1) (stInjRing.attach (stInjRing.injFrame injA goodBytes 0)) ∧
    (fun (n : Fin 64) (desc : InjDesc) (data : List Byte) (cap : Raw) (count : Nat) (s : State) (u : State) (f : Frame) =>
      s.injReady n.val count = true ∧ desc.srcPort < 75 ∧ u = s.injRead n.val desc 0 true count ∧ f = u.attach (u.injFrame desc
      data cap) ∧ u.passes f = false) 5 injA goodBytes 0 1 ({ stInjRing with dev := { stInjRing.dev with mode := .standby } })
      (({ stInjRing with dev := { stInjRing.dev with mode := .standby } } : State).injRead 5 injA 0 true 1)
      (({ stInjRing with dev := { stInjRing.dev with mode := .standby } } : State).attach
      (({ stInjRing with dev := { stInjRing.dev with mode := .standby } } : State).injFrame injA goodBytes 0)) ∧
    (fun (n : Fin 64) (desc : InjDesc) (data : List Byte) (cap : Raw) (count : Nat) (s : State) (u : State) (f : Frame) =>
      s.injReady n.val count = true ∧ desc.srcPort < 75 ∧ u = s.injRead n.val desc 1 true count ∧ f = u.attach (u.injFrame desc
      data cap) ∧ u.passes f = true) 5 injA goodBytes 0 1 stInjRing (stInjRing.injRead 5 injA 1 true 1) (stInjRing.attach
      (stInjRing.injFrame injA goodBytes 0)) ∧
    (fun (n : Fin 64) (desc : InjDesc) (data : List Byte) (cap : Raw) (count : Nat) (s : State) (u : State) (f : Frame) =>
      s.injReady n.val count = true ∧ desc.srcPort < 75 ∧ u = s.injRead n.val desc 1 true count ∧ f = u.attach (u.injFrame desc
      data cap) ∧ u.passes f = true ∧ 75 ≤ desc.dstPort) 5 ({ injA with dstPort := 75 }) goodBytes 0 1 stInjRing
      (stInjRing.injRead 5 injA 1 true 1) (stInjRing.attach (stInjRing.injFrame injA goodBytes 0)) ∧
    (fun (n : Fin 64) (desc : InjDesc) (data : List Byte) (cap : Raw) (count : Nat) (s : State) (u : State) (f : Frame) =>
      s.injReady n.val count = true ∧ desc.srcPort < 75 ∧ u = s.injRead n.val desc 1 true count ∧ f = u.attach (u.injFrame desc
      data cap) ∧ u.passes f = false) 5 injA goodBytes 0 1 ({ stInjRing with dev := { stInjRing.dev with mode := .standby } })
      (({ stInjRing with dev := { stInjRing.dev with mode := .standby } } : State).injRead 5 injA 1 true 1)
      (({ stInjRing with dev := { stInjRing.dev with mode := .standby } } : State).attach
      (({ stInjRing with dev := { stInjRing.dev with mode := .standby } } : State).injFrame injA goodBytes 0)) ∧
    (fun (n : Fin 64) (desc : InjDesc) (mode : Nat) (first : Bool) (count : Nat) (s : State) (u : State) => u = s.injRead n.val
      desc mode first count ∧ count ≠ 0 ∧ 6 ≤ (s.rd (Reg.devRingInjSize n.val)).toNat ∧ (s.rd (Reg.devRingInjSize n.val)).toNat
      ≤ 16) 5 injA 0 true 1 stInjRing (stInjRing.injRead 5 injA 0 true 1) ∧
    (fun (n : Fin 64) (desc : InjDesc) (mode : Nat) (s : State) (u : State) => u = s.injRead n.val desc mode true 1) 5 injA 0
      stInjRing (stInjRing.injRead 5 injA 0 true 1) ∧
    (fun (n : Fin 64) (desc : InjDesc) (count : Nat) (s : State) => s.injReady n.val count = true ∧ 75 ≤ desc.srcPort) 5
      ({ injA with srcPort := 75 }) 1 stInjRing := by
  refine ⟨?_, ?_, ?_, ?_, ?_, ?_, ?_, ?_, ?_, ?_, ?_, ?_, ?_, ?_⟩ <;> decide +kernel

/-- ModeRequestsAreAcceptedOrRefused. -/
theorem witness_ModeRequestsAreAcceptedOrRefused :
    (fun (val : Word) (s : State) (m : Mode) => bit val 31 = true ∧ modeOf (fld val 26 24) = some m ∧ m ≠ .safe ∧ m ≠ s.dev.mode
      ∧ s.dev.trans = none ∧ s.legal m = true ∧ s.dev.tookAt ≠ some s.raw) 0x83000000 stA (.standby) ∧
    (fun (val : Word) (s : State) => bit val 31 = true ∧ fld val 26 24 ≠ 5 ∧ modeOf (fld val 26 24) ≠ some s.dev.mode ∧ (modeOf
      (fld val 26 24) = none ∨ s.dev.trans ≠ none ∨ (modeOf (fld val 26 24)).all s.legal = false ∨ s.dev.tookAt = some s.raw))
      0x81000000 stA ∧
    (fun (val : Word) (s : State) => (bit val 31 = false ∨ modeOf (fld val 26 24) = some s.dev.mode)) 0x82000000 stA ∧
    (fun (val : Word) (s : State) => bit val 31 = true ∧ fld val 26 24 = 5 ∧ s.dev.mode ≠ .safe) 0x85000000 stA ∧
    (fun (s : State) => s.dev.mode ≠ .safe) ({ stA with dev := { stA.dev with trans := some (.standby, 2) } }) ∧
    (fun (s : State) => s.dev.mode = .safe) ({ State.reset with dev := { mode := .safe } }) ∧
    (fun (at' : Raw) (s : State) (u : State) (m : Mode) (cause : Nat) => u = s.advance at' ∧ u.dev.trans = some (m, cause))
      65536 ({ stA with dev := { mode := .active, trans := some (.standby, 2) } })
      ({ stA with dev := { mode := .active, trans := some (.standby, 2) } }.advance 65536) (.standby) 2 ∧
    (fun (at' : Raw) (s : State) => (s.advance at').dev.trans = none) 65536 stA ∧
    (fun (at' : Raw) (s : State) (u : State) => u = s.advance at') 6553600000000 stGrace (stGrace.advance 6553600000000) := by
  refine ⟨?_, ?_, ?_, ?_, ?_, ?_, ?_, ?_, ?_⟩ <;> decide +kernel

/-- StartupAndCommissioningRunTheirPhases. -/
theorem witness_StartupAndCommissioningRunTheirPhases :
    (fun (s : State) => s.logicUp = true) (State.reset) ∧
    (fun (n : Nat) (s : State) => s.logicUp = true ∧ s.dev.mode = .load ∧ s.fld Reg.devModeCause 3 0 = 0 ∧ s.fld Reg.secSelftest
      1 0 = 0 ∧ s.busy .imageLoad = false ∧ s.busy .imageSwap = false ∧ s.dev.binAlive = true ∧ 32 ≤ n) 4096
      ({ State.reset with dev := { perstLow := true } }) ∧
    (fun (s : State) => s.logicUp = false) (stRail (.raising 6)) ∧
    (fun (sha : Bool) (ecdsa : Bool) (s : State) => s.logicUp = true ∧ (sha = false ∨ ecdsa = false)) false true (State.reset) ∧
    (fun (s : State) => s.dev.commPhase = 1) (stComm 1) ∧
    (fun (s : State) => s.dev.commPhase = 2 ∧ s.dev.commShort = false) (stComm 2) ∧
    (fun (s : State) => s.dev.commPhase = 3) (stComm 3) ∧
    (fun (p : Nat) (s : State) => s.dev.mode = .commission ∧ s.dev.commPhase = p ∧ (p = 1 ∨ p = 2) ∧ s.dev.commShort = false) 1
      (stComm 1) ∧
    (fun (s : State) => s.dev.mode = .commission ∧ s.dev.commPhase = 3) (stComm 3) ∧
    (fun (s : State) => s.dev.commPhase = 0) stA := by
  refine ⟨?_, ?_, ?_, ?_, ?_, ?_, ?_, ?_, ?_, ?_⟩ <;> decide +kernel

/-- SuppliesSequenceAndProtectTheDevice. -/
theorem witness_SuppliesSequenceAndProtectTheDevice_1 :
    (fun (s : State) => s.logicUp = true ∧ s.dev.mode ≠ .safe) stA ∧
    (fun (s : State) => s.logicUp = false) (stRail .waiting) ∧
    (fun (mv : Nat) (ns : Nat) (s : State) => mv < 11000 ∧ 200 ≤ ns ∧ s.logicUp = true ∧ s.dev.mode ≠ .safe) 10999 200 stA ∧
    (fun (mv : Nat) (ns : Nat) (s : State) => mv < 11000 ∧ 200 ≤ ns ∧ s.logicUp = false ∧ s.pwr.phase ≠ .stopped) 10999 200
      (stRail .waiting) ∧
    (fun (mv : Nat) (ns : Nat) (s : State) => (11000 ≤ mv ∨ ns < 200 ∨ s.pwr.phase = .stopped)) 11000 200 stA ∧
    (fun (mv : Nat) (ms : Nat) => 11400 < mv ∧ 10 ≤ ms) 11401 10 ∧
    (fun (mv : Nat) (ms : Nat) => (mv ≤ 11400 ∨ ms < 10)) 11400 10 ∧
    (fun (mv : Nat) (us : Nat) (s : State) => mv < 10000 ∧ 100 ≤ us ∧ s.pwr.phase ≠ .halted) 9999 100 stPool ∧
    (fun (mv : Nat) (us : Nat) (s : State) => (10000 ≤ mv ∨ us < 100 ∨ s.pwr.phase = .halted)) 9999 99 stPool ∧
    (fun (mv : Nat) => mv < 9000) 8999 ∧
    (fun (mv : Nat) => 9000 ≤ mv) 9000 ∧
    (fun (mv : Nat) (a : Option FwCopy) (b : Option FwCopy) (s : State) => (s.pwr.phase ≠ .stopped ∨ mv ≤ 10800 ∨ (a.toList ++
      b.toList).any s.sec.otp.boots = false)) 10801 none none (stRail .stopped) ∧
    (fun (s : State) => s.pwr.phase = .refclk) (stRail .refclk) ∧
    (fun (k : Fin 7) (us : Nat) (s : State) => s.pwr.phase = .raising k.val ∧ pgUs k.val ≤ us) 5 1000 (stRail (.raising 5)) ∧
    (fun (k : Fin 7) (ms : Nat) (s : State) => s.pwr.phase = .raising k.val ∧ 10 ≤ ms) 3 10 (stRail (.raising 3)) ∧
    (fun (us : Nat) (s : State) => s.logicUp = true ∧ 5 ≤ us) 5 ({ stA with pwr := { faultTimes := [5, 20000] } }) := by
  refine ⟨?_, ?_, ?_, ?_, ?_, ?_, ?_, ?_, ?_, ?_, ?_, ?_, ?_, ?_, ?_, ?_⟩ <;> decide +kernel

/-- SuppliesSequenceAndProtectTheDevice. -/
theorem witness_SuppliesSequenceAndProtectTheDevice_2 :
    (fun (us : Nat) (s : State) => (s.logicUp = false ∨ us < 5)) 4 stA ∧
    (fun (ms : Nat) (s : State) => s.pwr.removeDue = true ∧ 1 ≤ ms) 101 ({ stA with pwr := { removeDue := true } }) ∧
    (fun (ms : Nat) (s : State) => s.pwr.removeDue = false ∧ s.pwr.phase = .waiting ∧ s.restartMs ≤ ms) 100 (stRail .waiting) ∧
    (fun (ms : Nat) (s : State) => s.pwr.removeDue = false ∧ (s.pwr.phase ≠ .waiting ∨ ms < s.restartMs)) 0 stA ∧
    (fun (ms : Nat) (s : State) => s.pwr.removeDue = true ∧ ms < 1) 0 ({ stA with pwr := { removeDue := true } }) ∧
    (fun (lost : Bool) (s : State) => (s.avcOn && lost && s.pwr.vcore == 800) = false) false (stA.setBit Reg.pwrCtrl 8 true) ∧
    (fun (s : State) => s.avcOn = true ∧ s.pwr.vcore = 800) ({ stA.setBit Reg.pwrCtrl 8 true with pwr := { vcore := 800 } }) ∧
    (fun (i : Nat) => i < 7) 2 := by
  refine ⟨?_, ?_, ?_, ?_, ?_, ?_, ?_, ?_⟩ <;> decide +kernel

/-- CageChannelsFollowTheirStates. -/
theorem witness_CageChannelsFollowTheirStates_1 :
    (fun (ch : Fin 72) (val : Word) (s : State) => bit val 31 = true ∧ (s.cage ch.val).st = .off ∧ s.dev.commOnce = true) 71
      0x80000000 (stCage 71 {}) ∧
    (fun (ch : Fin 72) (val : Word) (s : State) => bit val 31 = true ∧ (s.cage ch.val).st = .off ∧ s.dev.commOnce = false) 71
      0x80000000 ({ stCage 71 {} with dev := { (stCage 71 {}).dev with commOnce := false } }) ∧
    (fun (ch : Fin 72) (val : Word) (s : State) => bit val 31 = true ∧ ((s.cage ch.val).st = .starting ∨ (s.cage ch.val).st =
      .on ∨ (s.cage ch.val).st = .retryWait)) 71 0xC0000000 (stCage 71 { st := .on, retries := 3, trips := 4 }) ∧
    (fun (ch : Fin 72) (val : Word) (s : State) => bit val 31 = true ∧ ((s.cage ch.val).st = .latched ∨ (s.cage ch.val).st =
      .reversed) ∧ bit val 30 = false) 71 0x80000000 (stCage 71 { st := .latched, retries := 3, trips := 4 }) ∧
    (fun (ch : Fin 72) (val : Word) (s : State) => bit val 31 = true ∧ ((s.cage ch.val).st = .latched ∨ (s.cage ch.val).st =
      .reversed) ∧ bit val 30 = true ∧ s.dev.commOnce = true) 71 0xC0000000 (stCage 71
      { st := .latched, retries := 3, trips := 4 }) ∧
    (fun (ch : Fin 72) (val : Word) (s : State) => bit val 31 = false ∧ bit val 30 = false ∧ (s.cage ch.val).st ≠ .latched ∧
      (s.cage ch.val).st ≠ .reversed) 0 0 (stCage 0 { st := .on, retries := 2 }) ∧
    (fun (ch : Fin 72) (val : Word) (s : State) => bit val 31 = false ∧ bit val 30 = false ∧ ((s.cage ch.val).st = .latched ∨
      (s.cage ch.val).st = .reversed)) 71 0 (stCage 71 { st := .reversed, retries := 2 }) ∧
    (fun (ch : Fin 72) (val : Word) (s : State) => bit val 31 = false ∧ bit val 30 = true ∧ ((s.cage ch.val).st = .latched ∨
      (s.cage ch.val).st = .reversed)) 48 0x40000000 (stCage 48 { st := .latched, retries := 3, trips := 9 }) ∧
    (fun (ch : Fin 72) (uv : Int) (ma : Int) (s : State) => ma = s.senseMa uv ∧ cageGate (s.cage ch.val) = true ∧ 2 *
      s.cageLimit ch.val ≤ ma.natAbs) 0 60000 12000 (stCage 0 { st := .on, retries := 3 }) ∧
    (fun (ch : Fin 72) (uv : Int) (ma : Int) (s : State) => ma = s.senseMa uv ∧ (cageGate (s.cage ch.val) = false ∨ ma.natAbs <
      2 * s.cageLimit ch.val)) 71 5 1 (stCage 71 { st := .on, retries := 1 }) ∧
    (fun (s : State) => s.fld Reg.pwrCageRsns 15 0 ≠ 0) stA ∧
    (fun (ch : Fin 72) (uv : Int) (ma : Int) (ms : Nat) (s : State) => ma = s.senseMa uv ∧ (s.cage ch.val).st = .on ∧
      (s.cageLimit ch.val : Int) ≤ ma ∧ s.cageOvlMs ≤ ms ∧ 0 ≤ ma) 5 60000 12000 1000 (stCage 5 { st := .on, retries := 2 }) ∧
    (fun (ch : Fin 72) (uv : Int) (ma : Int) (ms : Nat) (s : State) => ma = s.senseMa uv ∧ ((s.cage ch.val).st ≠ .on ∨ ma <
      s.cageLimit ch.val ∨ ms < s.cageOvlMs)) 5 5 1 1000 (stCage 5 { st := .on, retries := 2 }) ∧
    (fun (ch : Fin 72) (n : Nat) (s : State) => (s.cage ch.val).st = .starting ∧ 2000 ≤ n) 5 2000 (stCage 5 { st := .starting }) ∧
    (fun (ch : Fin 72) (n : Nat) (s : State) => (s.cage ch.val).st = .retryWait ∧ 100 ≤ n) 60 100 (stCage 60
      { st := .retryWait }) ∧
    (fun (ch : Fin 72) (n : Nat) (s : State) => (s.cage ch.val).st = .on ∧ 10000 ≤ n) 0 10000 (stCage 0
      { st := .on, retries := 2 }) := by
  refine ⟨?_, ?_, ?_, ?_, ?_, ?_, ?_, ?_, ?_, ?_, ?_, ?_, ?_, ?_, ?_, ?_⟩ <;> decide +kernel

/-- CageChannelsFollowTheirStates. -/
theorem witness_CageChannelsFollowTheirStates_2 :
    (fun (ch : Fin 72) (n : Nat) (s : State) => ((s.cage ch.val).st ≠ .starting ∨ n < 2000)) 60 100 (stCage 60
      { st := .retryWait }) ∧
    (fun (ch : Fin 72) (n : Nat) (s : State) => ((s.cage ch.val).st ≠ .retryWait ∨ n < 100)) 5 2000 (stCage 5
      { st := .starting }) ∧
    (fun (ch : Fin 72) (n : Nat) (s : State) => ((s.cage ch.val).st ≠ .on ∨ n < 10000)) 5 2000 (stCage 5 { st := .starting }) ∧
    (fun (ch : Fin 72) (uv : Int) (ma : Int) (n : Nat) (s : State) => ma = s.senseMa uv ∧ cageGate (s.cage ch.val) = true ∧ ma ≤
      -(s.cageOpenMa : Int) ∧ 1000 ≤ n) 5 (-1500) (-300) 1000 (stCage 5 { st := .on }) ∧
    (fun (ch : Fin 72) (uv : Int) (ma : Int) (n : Nat) (s : State) => ma = s.senseMa uv ∧ (s.cage ch.val).st = .on ∧ 0 ≤ ma ∧ ma
      < s.cageOpenMa ∧ 100 ≤ n) 5 0 0 100 (stCage 5 { st := .on }) ∧
    (fun (ch : Fin 72) (uv : Int) (ma : Int) (s : State) => ma = s.senseMa uv ∧ (s.cageOpenMa : Int) ≤ ma ∧ (s.cage ch.val).st ≠
      .off) 5 1500 300 (stCage 5 { st := .on, isOpen := true }) ∧
    (fun (uv : Int) (ma : Int) (s : State) => ma = s.senseMa uv ∧ ma < s.cageOpenMa) (-1500) (-300) (stCage 5 { st := .on }) ∧
    (fun (ch : Fin 72) (uv : Int) (ma : Int) (n : Nat) (s : State) => ma = s.senseMa uv ∧ (cageGate (s.cage ch.val) = false ∨
      -(s.cageOpenMa : Int) < ma ∨ n < 1000)) 5 0 0 100 (stCage 5 { st := .on }) ∧
    (fun (ch : Fin 72) (uv : Int) (ma : Int) (n : Nat) (s : State) => ma = s.senseMa uv ∧ ((s.cage ch.val).st ≠ .on ∨ ma < 0 ∨
      (s.cageOpenMa : Int) ≤ ma ∨ n < 100)) 5 (-1500) (-300) 1000 (stCage 5 { st := .on }) := by
  refine ⟨?_, ?_, ?_, ?_, ?_, ?_, ?_, ?_, ?_⟩ <;> decide +kernel

/-- ResetsLeaveWhatTheyAreToKeep. -/
theorem witness_ResetsLeaveWhatTheyAreToKeep :
    (fun (val : Word) => fld val 15 0 ≠ 0xA5C3) 0xC000A5C2 ∧
    (fun (val : Word) (ns : Nat) (s : State) => fld val 15 0 = 0xA5C3 ∧ bit val 31 = true ∧ s.dev.zeroizeLow = false ∧ 1000 ≤
      ns) 0x8000A5C3 1000 stPool ∧
    (fun (val : Word) (ns : Nat) (s : State) => fld val 15 0 = 0xA5C3 ∧ bit val 31 = true ∧ s.dev.zeroizeLow = true ∧ 1000 ≤ ns)
      0x8000A5C3 1000 ({ stPool with dev := { stPool.dev with zeroizeLow := true } }) ∧
    (fun (val : Word) => fld val 15 0 = 0xA5C3 ∧ fld val 31 30 = 0) 0xA5C3 ∧
    (fun (ns : Nat) => ns < 1000) 999 ∧
    (fun (val : Word) (s : State) => fld val 15 0 = 0xA5C3 ∧ fld val 31 30 = 1 ∧ s.dev.zeroizeLow = false) 0x4000A5C3 stXgem ∧
    (fun (val : Word) (s : State) => bit val 31 = false ∧ s.dev.zeroizeLow = true) 0x4000A5C3
      ({ stA with dev := { mode := .active, zeroizeLow := true } }) ∧
    (fun (val : Word) (s : State) => bit val 5 = true ∧ s.bit Reg.devBlkReset 5 = false) 0x20 stPuntRing ∧
    (fun (val : Word) (s : State) => bit val 4 = true ∧ s.bit Reg.devBlkReset 4 = false) 0x10 stA ∧
    (fun (val : Word) (s : State) => bit val 3 = true ∧ s.bit Reg.devBlkReset 3 = false) 8 stBusy ∧
    (fun (val : Word) (s : State) => bit val 2 = true ∧ s.bit Reg.devBlkReset 2 = false) 4 stA ∧
    (fun (val : Word) (s : State) => bit val 1 = true ∧ s.bit Reg.devBlkReset 1 = false) 2 stBusy ∧
    (fun (val : Word) (s : State) => (List.range 5).all (fun k => !bit val (k + 1) || s.bit Reg.devBlkReset (k + 1)) = true) 0
      stBusy := by
  refine ⟨?_, ?_, ?_, ?_, ?_, ?_, ?_, ?_, ?_, ?_, ?_, ?_, ?_⟩ <;> decide +kernel

/-- ViewCommitsKeepTimeContinuous. -/
theorem witness_ViewCommitsKeepTimeContinuous :
    (fun (v : Fin 16) (x : Nat) => x < 16 ∧ x ≠ v.val) 15 0 := by decide +kernel

/-- TransmitStampQueuesDiscardWhenFull. -/
theorem witness_TransmitStampQueuesDiscardWhenFull :
    (fun (q : Fin 8) (s : State) => (s.txts q.val).length < 256) 7 stA ∧
    (fun (q : Fin 8) (s : State) => 256 ≤ (s.txts q.val).length) 7
      ({ stA with chrono := { txts := SMap.set (fun _ => []) [] 7 (List.replicate 256 ⟨1, 2, {}⟩) } }) := by
  refine ⟨?_, ?_⟩ <;> decide +kernel

/-- StampsPulsesAndWaypoints. -/
theorem witness_StampsPulsesAndWaypoints_1 :
    (fun (val : Word) => bit val 31 = true) 0x8000000F ∧
    (fun (q : Fin 8) (s : State) (e : TxStamp) (es : List TxStamp) => s.txts q.val = e :: es) 7
      ({ stA with chrono := { txts := SMap.set (fun _ => []) [] 7 [⟨1, 2, { ns32 := 5, subns := 6 }⟩] } }) (⟨1, 2,
      { ns32 := 5, subns := 6 }⟩) ([]) ∧
    (fun (q : Fin 8) (s : State) => s.txts q.val = []) 7 stA ∧
    (fun (a : Fin 2) (s : State) => s.bit (Reg.timeSynceCfg a.val) 12 = true) 1 (stA.setBit (Reg.timeSynceCfg 1) 12 true) ∧
    (fun (a : Fin 2) (s : State) => s.bit (Reg.timeSynceCfg a.val) 12 = false) 1 (stA.setBit (Reg.timeSynceCfg 1) 12 false) ∧
    (fun (a : Fin 2) (at' : Raw) (s : State) (u : State) (d : Raw) => u = s.advance at' ∧ d = u.chrono.synceAt.get (fun _ => 0)
      a.val + 6553600000000 ∧ u.bit Reg.timeSynceStatus a.val = true ∧ d.toNat ≤ u.raw.toNat) 1 6553600000000 (stA.setBit
      Reg.timeSynceStatus 1 true) ((stA.setBit Reg.timeSynceStatus 1 true).advance 6553600000000) 6553600000000 ∧
    (fun (a : Fin 2) (at' : Raw) (s : State) (u : State) (d : Raw) => u = s.advance at' ∧ d = u.chrono.synceAt.get (fun _ => 0)
      a.val + 6553600000000 ∧ (u.bit Reg.timeSynceStatus a.val = false ∨ u.raw.toNat < d.toNat)) 1 65536 (stA.setBit
      Reg.timeSynceStatus 1 true) ((stA.setBit Reg.timeSynceStatus 1 true).advance 65536) 6553600000000 ∧
    (fun (falling : Bool) (s : State) => s.bit Reg.timePpsInCfg 0 = true ∧ s.bit Reg.timePpsInCfg 1 = falling) false (stA.setBit
      Reg.timePpsInCfg 0 true) ∧
    (fun (falling : Bool) (s : State) => (s.bit Reg.timePpsInCfg 0 = false ∨ s.bit Reg.timePpsInCfg 1 ≠ falling)) true
      (stA.setBit Reg.timePpsInCfg 0 true) ∧
    (fun (s : State) => s.chrono.todIn.length < 256) stA ∧
    (fun (s : State) => 256 ≤ s.chrono.todIn.length) ({ stA with chrono := { todIn := List.replicate 256 5 } }) ∧
    (fun (s : State) => s.chrono.todIn = []) stA ∧
    (fun (b : Byte) (bs : List Byte) (s : State) => s.chrono.todIn = b :: bs) 5 ([6])
      ({ stA with chrono := { todIn := [5, 6] } }) ∧
    (fun (s : State) => s.chrono.todOut.length < 256) stA ∧
    (fun (s : State) => 256 ≤ s.chrono.todOut.length) ({ stA with chrono := { todOut := List.replicate 256 5 } }) ∧
    (fun (val : Word) => bit val 31 = false) 65 := by
  refine ⟨?_, ?_, ?_, ?_, ?_, ?_, ?_, ?_, ?_, ?_, ?_, ?_, ?_, ?_, ?_, ?_⟩ <;> decide +kernel

/-- StampsPulsesAndWaypoints. -/
theorem witness_StampsPulsesAndWaypoints_2 :
    (fun (at' : Raw) (s : State) (u : State) => u = s.advance at' ∧ u.bit Reg.timePpsOutCfg 0 = true ∧ u.ppsSecond u.raw ≠
      u.ppsSecond (u.raw - 65536)) 65536000000000
      ({ (stA.setBit Reg.timePpsOutCfg 0 true).setFld Reg.timeTodOutCtrl 15 0 2 with raw := 65535999934464, chrono := { todArmed := true } })
      ({ (stA.setBit Reg.timePpsOutCfg 0 true).setFld Reg.timeTodOutCtrl 15 0 2 with raw := 65535999934464, chrono := { todArmed := true } }.advance
      65536000000000) ∧
    (fun (at' : Raw) (s : State) (u : State) => u = s.advance at' ∧ (u.bit Reg.timePpsOutCfg 0 = false ∨ u.ppsSecond u.raw =
      u.ppsSecond (u.raw - 65536))) 65536 ({ stA with chrono := { todOut := [1], todDue := some 65536 } })
      ({ stA with chrono := { todOut := [1], todDue := some 65536 } }.advance 65536) ∧
    (fun (at' : Raw) (s : State) (u : State) => u = s.advance at' ∧ (u.chrono.todDue.any fun d => decide (d.toNat ≤
      u.raw.toNat)) = true) 65536 ({ stA with chrono := { todOut := [1], todDue := some 65536 } })
      ({ stA with chrono := { todOut := [1], todDue := some 65536 } }.advance 65536) ∧
    (fun (at' : Raw) (s : State) (u : State) => u = s.advance at' ∧ (u.chrono.todDue.all fun d => decide (u.raw.toNat <
      d.toNat)) = true) 65536000000000
      ({ (stA.setBit Reg.timePpsOutCfg 0 true).setFld Reg.timeTodOutCtrl 15 0 2 with raw := 65535999934464, chrono := { todArmed := true } })
      ({ (stA.setBit Reg.timePpsOutCfg 0 true).setFld Reg.timeTodOutCtrl 15 0 2 with raw := 65535999934464, chrono := { todArmed := true } }.advance
      65536000000000) ∧
    (fun (k : Fin 8) (at' : Raw) (s : State) (u : State) (e : Raw) => u = s.advance at' ∧ u.pulse k.val = some e ∧ e.toNat ≤
      u.raw.toNat) 7 65536 (stA.setPulse 7 (some 65536)) ((stA.setPulse 7 (some 65536)).advance 65536) 65536 ∧
    (fun (k : Fin 8) (at' : Raw) (s : State) (u : State) (e : Raw) => u = s.advance at' ∧ u.pulse k.val = some e ∧ u.raw.toNat <
      e.toNat) 7 0 (stA.setPulse 7 (some 65536)) (stA.setPulse 7 (some 65536)) 65536 ∧
    (fun (k : Fin 8) (at' : Raw) (s : State) (u : State) => u = s.advance at' ∧ u.pulse k.val = none) 7 65536 stA (stA.advance
      65536) ∧
    (fun (k : Fin 8) (val : Word) (s : State) => fld val 1 0 ≠ s.fld (Reg.timeGpioCfg k.val) 1 0) 7 1 (stA.setPulse 7 (some
      65536)) ∧
    (fun (k : Fin 8) (val : Word) (s : State) => fld val 1 0 = s.fld (Reg.timeGpioCfg k.val) 1 0) 7 0 (stA.setPulse 7 (some
      65536)) ∧
    (fun (slot : Fin 512) (val : Word) (s : State) => fld val 31 30 = 1 ∧ (s.chrono.armed.get (fun _ => none) slot.val).isSome =
      true) 9 0x40000000 stWp ∧
    (fun (slot : Fin 512) (val : Word) (s : State) => fld val 31 30 = 1 ∧ s.chrono.armed.get (fun _ => none) slot.val = none) 10
      0x40000000 stA ∧
    (fun (val : Word) => fld val 31 30 = 0) 3 ∧
    (fun (s : State) (u : State) => u = (s.advance s.nextTick).sweepOn ∧ ((u.chrono.armed.all fun e => e.2.all fun a => decide
      (cmpNs (u.viewTime a.view u.raw) < a.ns)) = true ∨ u.dev.mode = .load)) stA ((stA.advance stA.nextTick).sweepOn) ∧
    (fun (s : State) (u : State) (slot : Nat) (a : Armed) (late : Nat) (skip : Bool) => u = (s.advance s.nextTick).sweepOn ∧
      u.dev.mode ≠ .load ∧ u.chrono.armed = [(slot, some a)] ∧ slot < 512 ∧ a.ns ≤ cmpNs (u.viewTime a.view u.raw) ∧ late = min
      (cmpNs (u.viewTime a.view u.raw) - a.ns) 0xFFFFFFFF ∧ skip = ((decide (256 ≤ late) && a.skip) || (u.dev.mode == .safe &&
      a.action != 6 && a.action != 7)) ∧ a.notify = false ∧ u.mer.wpSlots = []) stWp ((stWp.advance stWp.nextTick).sweepOn) 9
      ({ ns := 5, view := 0, action := 6, arg := 0x207, notify := false, skip := false }) 123 false ∧
    (fun (s : State) (u : State) (w : State) (slot : Nat) (a : Armed) => u = (s.advance s.nextTick).sweepOn ∧ w = (u.setArmed
      slot none).wpShow slot 2 false (cmpNs (u.viewTime a.view u.raw) - a.ns) ∧ u.dev.mode ≠ .load ∧ u.dev.mode ≠ .safe ∧
      u.chrono.armed = [(slot, some a)] ∧ a.ns ≤ cmpNs (u.viewTime a.view u.raw) ∧ cmpNs (u.viewTime a.view u.raw) - a.ns < 256
      ∧ a.notify = false ∧ u.mer.wpSlots = [] ∧ a.action = 1) (stWpAct 1 1) ((((stWpAct 1 1).advance (stWpAct 1
      1).nextTick).sweepOn)) (((((stWpAct 1 1).advance (stWpAct 1 1).nextTick).sweepOn).setArmed 9 none).wpShow 9 2 false 123) 9
      ({ ns := 5, view := 0, action := 1, arg := 1, notify := false, skip := false }) ∧
    (fun (s : State) (u : State) (w : State) (slot : Nat) (a : Armed) => u = (s.advance s.nextTick).sweepOn ∧ w = (u.setArmed
      slot none).wpShow slot 2 false (cmpNs (u.viewTime a.view u.raw) - a.ns) ∧ u.dev.mode ≠ .load ∧ u.dev.mode ≠ .safe ∧
      u.chrono.armed = [(slot, some a)] ∧ a.ns ≤ cmpNs (u.viewTime a.view u.raw) ∧ cmpNs (u.viewTime a.view u.raw) - a.ns < 256
      ∧ a.notify = false ∧ u.mer.wpSlots = [] ∧ a.action = 2 ∧ a.arg % 32 < 24) (stWpAct 2 1) ((((stWpAct 2 1).advance (stWpAct
      2 1).nextTick).sweepOn)) (((((stWpAct 2 1).advance (stWpAct 2 1).nextTick).sweepOn).setArmed 9 none).wpShow 9 2 false 123)
      9 ({ ns := 5, view := 0, action := 2, arg := 1, notify := false, skip := false }) := by
  refine ⟨?_, ?_, ?_, ?_, ?_, ?_, ?_, ?_, ?_, ?_, ?_, ?_, ?_, ?_, ?_, ?_⟩ <;> decide +kernel

/-- StampsPulsesAndWaypoints. -/
theorem witness_StampsPulsesAndWaypoints_3 :
    (fun (s : State) (u : State) (w : State) (slot : Nat) (a : Armed) => u = (s.advance s.nextTick).sweepOn ∧ w = (u.setArmed
      slot none).wpShow slot 2 false (cmpNs (u.viewTime a.view u.raw) - a.ns) ∧ u.dev.mode ≠ .load ∧ u.dev.mode ≠ .safe ∧
      u.chrono.armed = [(slot, some a)] ∧ a.ns ≤ cmpNs (u.viewTime a.view u.raw) ∧ cmpNs (u.viewTime a.view u.raw) - a.ns < 256
      ∧ a.notify = false ∧ u.mer.wpSlots = [] ∧ a.action = 3) (stWpAct 3 1) ((((stWpAct 3 1).advance (stWpAct 3
      1).nextTick).sweepOn)) (((((stWpAct 3 1).advance (stWpAct 3 1).nextTick).sweepOn).setArmed 9 none).wpShow 9 2 false 123) 9
      ({ ns := 5, view := 0, action := 3, arg := 1, notify := false, skip := false }) ∧
    (fun (s : State) (u : State) (w : State) (slot : Nat) (a : Armed) => u = (s.advance s.nextTick).sweepOn ∧ w = (u.setArmed
      slot none).wpShow slot 2 false (cmpNs (u.viewTime a.view u.raw) - a.ns) ∧ u.dev.mode ≠ .load ∧ u.dev.mode ≠ .safe ∧
      u.chrono.armed = [(slot, some a)] ∧ a.ns ≤ cmpNs (u.viewTime a.view u.raw) ∧ cmpNs (u.viewTime a.view u.raw) - a.ns < 256
      ∧ a.notify = false ∧ u.mer.wpSlots = [] ∧ a.action = 4) (stWpAct 4 1) ((((stWpAct 4 1).advance (stWpAct 4
      1).nextTick).sweepOn)) (((((stWpAct 4 1).advance (stWpAct 4 1).nextTick).sweepOn).setArmed 9 none).wpShow 9 2 false 123) 9
      ({ ns := 5, view := 0, action := 4, arg := 1, notify := false, skip := false }) ∧
    (fun (s : State) (u : State) (w : State) (slot : Nat) (a : Armed) => u = (s.advance s.nextTick).sweepOn ∧ w = (u.setArmed
      slot none).wpShow slot 2 false (cmpNs (u.viewTime a.view u.raw) - a.ns) ∧ u.dev.mode ≠ .load ∧ u.dev.mode ≠ .safe ∧
      u.chrono.armed = [(slot, some a)] ∧ a.ns ≤ cmpNs (u.viewTime a.view u.raw) ∧ cmpNs (u.viewTime a.view u.raw) - a.ns < 256
      ∧ a.notify = false ∧ u.mer.wpSlots = [] ∧ a.action = 5) (stWpAct 5 1) ((((stWpAct 5 1).advance (stWpAct 5
      1).nextTick).sweepOn)) (((((stWpAct 5 1).advance (stWpAct 5 1).nextTick).sweepOn).setArmed 9 none).wpShow 9 2 false 123) 9
      ({ ns := 5, view := 0, action := 5, arg := 1, notify := false, skip := false }) := by
  refine ⟨?_, ?_, ?_⟩ <;> decide +kernel

/-- FramesAndMapsLeaveAtTheirBoundaries. -/
theorem witness_FramesAndMapsLeaveAtTheirBoundaries :
    (fun (at' : Raw) (s : State) (u : State) => u = s.advance at') 8192000000 stPon (stPon.advance 8192000000) ∧
    (fun (val : Word) (s : State) => bit val 31 = true ∧ s.anyTx = true) 0x80000000 stPon ∧
    (fun (val : Word) (s : State) => (bit val 31 = false ∨ s.anyTx = false)) 0x80000000 stA ∧
    (fun (at' : Raw) (j : Fin 96) (f : Nat) (s : State) (u : State) => u = s.advance at' ∧ f = (u.chrono.ponSf + 1) % 2 ^ 51 ∧
      u.allChannels = [j.val] ∧ (u.txOn (j.val / 2) || u.txWanted (j.val / 2)) = true ∧ (u.ponPort (j.val / 2)).stopTx = false ∧
      u.emptyMap (j.val / 2) f = false ∧ ((u.maps j.val).takeWhile fun m => decide (f < m.f)).length < 32 ∧ ((u.mapOf j.val
      f).map PonMap.done).getD false = true) 65536 1 4 ({ stPon with chrono := { ponSf := 3 } })
      ({ stPon with chrono := { ponSf := 3 } }.advance 65536) ∧
    (fun (at' : Raw) (j : Fin 96) (f : Nat) (s : State) (u : State) => u = s.advance at' ∧ f = (u.chrono.ponSf + 1) % 2 ^ 51 ∧
      u.allChannels = [j.val] ∧ (u.txOn (j.val / 2) || u.txWanted (j.val / 2)) = true ∧ (u.ponPort (j.val / 2)).stopTx = false ∧
      u.emptyMap (j.val / 2) f = false ∧ ((u.maps j.val).takeWhile fun m => decide (f < m.f)).length < 32 ∧ ((u.mapOf j.val
      f).map PonMap.done).getD false = true ∧ (((u.mapOf j.val f).map PonMap.bursts).getD []).all (fun b => b.kind == .data) =
      true) 65536 1 4
      ({ stPon with pon := { maps := [(1, [{ f := 4, done := true, bursts := [burstA] }])] }, chrono := { ponSf := 3 } })
      (({ stPon with pon := { maps := [(1, [{ f := 4, done := true, bursts := [burstA] }])] }, chrono := { ponSf := 3 } } :
      State).advance 65536) ∧
    (fun (at' : Raw) (j : Fin 96) (f : Nat) (s : State) (u : State) => u = s.advance at' ∧ f = (u.chrono.ponSf + 1) % 2 ^ 51 ∧
      u.allChannels = [j.val] ∧ (u.txOn (j.val / 2) || u.txWanted (j.val / 2)) = true ∧ (u.ponPort (j.val / 2)).stopTx = false ∧
      u.emptyMap (j.val / 2) f = false ∧ ((u.maps j.val).takeWhile fun m => decide (f < m.f)).length < 32 ∧ ((u.mapOf j.val
      f).map PonMap.done).getD false = false) 65536 1 6 ({ stPon with chrono := { ponSf := 5 } })
      ({ stPon with chrono := { ponSf := 5 } }.advance 65536) ∧
    (fun (at' : Raw) (j : Fin 96) (f : Nat) (s : State) (u : State) => u = s.advance at' ∧ f = (u.chrono.ponSf + 1) % 2 ^ 51 ∧
      u.allChannels = [j.val] ∧ ((u.maps j.val).takeWhile fun m => decide (f < m.f)).length < 32 ∧ (u.txOn (j.val / 2) ||
      u.txWanted (j.val / 2)) = true ∧ (u.ponPort (j.val / 2)).stopTx = false ∧ u.emptyMap (j.val / 2) f = true) 65536 1 4
      ({ stPon with chrono := { ponSf := 3 }, dev := { mode := .safe } })
      ({ stPon with chrono := { ponSf := 3 }, dev := { mode := .safe } }.advance 65536) ∧
    (fun (at' : Raw) (j : Fin 96) (f : Nat) (s : State) (u : State) => u = s.advance at' ∧ f = (u.chrono.ponSf + 1) % 2 ^ 51 ∧
      u.allChannels = [j.val] ∧ ((u.maps j.val).takeWhile fun m => decide (f < m.f)).length < 32 ∧ ((u.txOn (j.val / 2) ||
      u.txWanted (j.val / 2)) = false ∨ (u.ponPort (j.val / 2)).stopTx = true)) 65536 1 4
      ({ stPon.setPonPort 0 { stopTx := true } with chrono := { ponSf := 3 } })
      ({ stPon.setPonPort 0 { stopTx := true } with chrono := { ponSf := 3 } }.advance 65536) ∧
    (fun (n : Fin 48) (s : State) => s.bit (Reg.ponLineStatus n.val) 28 = true ∧ (s.ponPort n.val).settleUntil ≤ s.chrono.ponSf)
      0 (stPon.setBit (Reg.ponLineStatus 0) 28 true) ∧
    (fun (n : Fin 48) (s : State) => (s.bit (Reg.ponLineStatus n.val) 28 = false ∨ s.chrono.ponSf < (s.ponPort
      n.val).settleUntil)) 0 (stPon.setPonPort 0 { losRun := 300 }) ∧
    (fun (n : Fin 48) (s : State) => max 1 (s.fld (Reg.ponLineTiming n.val) 7 0) ≤ (s.ponPort n.val).losRun ∧ (s.nonFree
      n.val).any (fun id => (s.onu n.val id).active) = true) 0 (stPon.setPonPort 0 { losRun := 300 }) ∧
    (fun (n : Fin 48) (s : State) => ((s.ponPort n.val).losRun < max 1 (s.fld (Reg.ponLineTiming n.val) 7 0) ∨ (s.nonFree
      n.val).any (fun id => (s.onu n.val id).active) = false)) 0 (stPon.setBit (Reg.ponLineStatus 0) 28 true) ∧
    (fun (n : Fin 48) (val : Word) (s : State) => bit val 1 = true ∧ s.bit (Reg.ponLineCfg n.val) 1 = false) 0 3 stPon ∧
    (fun (n : Fin 48) (val : Word) (s : State) => bit val 1 = true ∧ s.bit (Reg.ponLineCfg n.val) 1 = true) 0 3 (stPon.setBit
      (Reg.ponLineCfg 0) 1 true) ∧
    (fun (val : Word) => bit val 1 = true) 3 := by
  refine ⟨?_, ?_, ?_, ?_, ?_, ?_, ?_, ?_, ?_, ?_, ?_, ?_, ?_, ?_, ?_⟩ <;> decide +kernel

/-- BurstsAreConfirmedMissedOrForeign. -/
theorem witness_BurstsAreConfirmedMissedOrForeign_1 :
    (fun (j : Fin 96) (f : Nat) (i : Nat) (latency : Nat) (rx : BitVec 64) (hec : Bool) (onu : Fin 1024) (cap : Raw) (s : State)
      (u : State) (b : Burst) (p : BurstProf) (hdr : Int) (off : Int) => s.dev.mode ≠ .standby ∧ s.burstOf j.val f i = some b ∧
      b.st = .waiting ∧ b.kind ≠ .discovery ∧ p = s.prof (j.val / 2) b.prof ∧ hdr = s.headerAt j.val f p cap latency ∧ off =
      offBits p hdr (s.headerExp j.val f b) ∧ s.inWindow (j.val / 2) b off hdr = true ∧ laterThan b off = true ∧ u = s.updBurst
      j.val f i (fun b => { b with tried := some off }) ∧ s.tolBits (j.val / 2) < Cand.dist ⟨rx, hec, onu.val, cap, latency⟩ p)
      1 4 0 0 (~~~rxA) true 7 capA stPon (stPon.updBurst 1 4 0 (fun b => { b with tried := some 0 })) burstA (stPon.prof 0 0)
      (stPon.headerAt 1 4 (stPon.prof 0 0) capA 0) 0 ∧
    (fun (j : Fin 96) (f : Nat) (i : Nat) (latency : Nat) (rx : BitVec 64) (hec : Bool) (onu : Fin 1024) (cap : Raw) (s : State)
      (u : State) (b : Burst) (p : BurstProf) (hdr : Int) (off : Int) => s.dev.mode ≠ .standby ∧ s.burstOf j.val f i = some b ∧
      b.st = .waiting ∧ b.kind ≠ .discovery ∧ p = s.prof (j.val / 2) b.prof ∧ hdr = s.headerAt j.val f p cap latency ∧ off =
      offBits p hdr (s.headerExp j.val f b) ∧ s.inWindow (j.val / 2) b off hdr = true ∧ laterThan b off = true ∧ u = s.updBurst
      j.val f i (fun b => { b with tried := some off }) ∧ Cand.dist ⟨rx, hec, onu.val, cap, latency⟩ p ≤ s.tolBits (j.val / 2) ∧
      hec = false) 1 4 0 0 rxA false 7 capA stPon (stPon.updBurst 1 4 0 (fun b => { b with tried := some 0 })) burstA
      (stPon.prof 0 0) (stPon.headerAt 1 4 (stPon.prof 0 0) capA 0) 0 ∧
    (fun (j : Fin 96) (f : Nat) (i : Nat) (latency : Nat) (rx : BitVec 64) (hec : Bool) (onu : Fin 1024) (cap : Raw) (s : State)
      (u : State) (b : Burst) (p : BurstProf) (hdr : Int) (off : Int) => s.dev.mode ≠ .standby ∧ s.burstOf j.val f i = some b ∧
      b.st = .waiting ∧ b.kind ≠ .discovery ∧ p = s.prof (j.val / 2) b.prof ∧ hdr = s.headerAt j.val f p cap latency ∧ off =
      offBits p hdr (s.headerExp j.val f b) ∧ s.inWindow (j.val / 2) b off hdr = true ∧ laterThan b off = true ∧ u = s.updBurst
      j.val f i (fun b => { b with tried := some off }) ∧ Cand.dist ⟨rx, hec, onu.val, cap, latency⟩ p ≤ s.tolBits (j.val / 2) ∧
      hec = true ∧ onu.val = b.onu) 1 4 0 0 rxA true 7 capA stPon (stPon.updBurst 1 4 0 (fun b => { b with tried := some 0 }))
      burstA (stPon.prof 0 0) (stPon.headerAt 1 4 (stPon.prof 0 0) capA 0) 0 ∧
    (fun (j : Fin 96) (f : Nat) (i : Nat) (latency : Nat) (rx : BitVec 64) (hec : Bool) (onu : Fin 1024) (cap : Raw) (s : State)
      (u : State) (b : Burst) (p : BurstProf) (hdr : Int) (off : Int) => s.dev.mode ≠ .standby ∧ s.burstOf j.val f i = some b ∧
      b.st = .waiting ∧ b.kind ≠ .discovery ∧ p = s.prof (j.val / 2) b.prof ∧ hdr = s.headerAt j.val f p cap latency ∧ off =
      offBits p hdr (s.headerExp j.val f b) ∧ s.inWindow (j.val / 2) b off hdr = true ∧ laterThan b off = true ∧ u = s.updBurst
      j.val f i (fun b => { b with tried := some off }) ∧ Cand.dist ⟨rx, hec, onu.val, cap, latency⟩ p ≤ s.tolBits (j.val / 2) ∧
      hec = true ∧ onu.val ≠ b.onu) 1 4 0 0 rxA true 8 capA stPon (stPon.updBurst 1 4 0 (fun b => { b with tried := some 0 }))
      burstA (stPon.prof 0 0) (stPon.headerAt 1 4 (stPon.prof 0 0) capA 0) 0 ∧
    (fun (j : Fin 96) (f : Nat) (i : Nat) (latency : Nat) (cap : Raw) (s : State) => s.dev.mode ≠ .standby ∧ ((s.burstOf j.val f
      i).all fun b => b.st != .waiting || b.kind == .discovery || !s.inWindow (j.val / 2) b (offBits (s.prof (j.val / 2) b.prof)
      (s.headerAt j.val f (s.prof (j.val / 2) b.prof) cap latency) (s.headerExp j.val f b)) (s.headerAt j.val f (s.prof (j.val /
      2) b.prof) cap latency)) = true) 1 4 0 0 0 stPon ∧
    (fun (j : Fin 96) (f : Nat) (i : Nat) (latency : Nat) (rx : BitVec 64) (hec : Bool) (onu : Fin 1024) (cap : Raw) (s : State)
      (u : State) (b : Burst) (p : BurstProf) (hdr : Int) (off : Int) => s.burstOf j.val f i = some b ∧ b.st = .waiting ∧ b.kind
      = .discovery ∧ p = s.prof (j.val / 2) b.prof ∧ hdr = s.headerAt j.val f p cap latency ∧ off = offBits p hdr (s.headerExp
      j.val f b) ∧ s.inWindow (j.val / 2) b off hdr = true ∧ laterThan b off = true ∧ u = s.updBurst j.val f i (fun b =>
      { b with tried := some off }) ∧ s.tolBits (j.val / 2) < Cand.dist ⟨rx, hec, onu.val, cap, latency⟩ p) 1 4 1 0 (rxA ^^^
      0xFFFFFFFF) true 1023 capD stPon (stPon.updBurst 1 4 1 (fun b => { b with tried := some offD })) burstD (stPon.prof 0 0)
      (stPon.headerAt 1 4 (stPon.prof 0 0) capD 0) offD ∧
    (fun (j : Fin 96) (f : Nat) (i : Nat) (latency : Nat) (rx : BitVec 64) (hec : Bool) (onu : Fin 1024) (cap : Raw) (s : State)
      (u : State) (b : Burst) (p : BurstProf) (hdr : Int) (off : Int) => s.burstOf j.val f i = some b ∧ b.st = .waiting ∧ b.kind
      = .discovery ∧ p = s.prof (j.val / 2) b.prof ∧ hdr = s.headerAt j.val f p cap latency ∧ off = offBits p hdr (s.headerExp
      j.val f b) ∧ s.inWindow (j.val / 2) b off hdr = true ∧ laterThan b off = true ∧ u = s.updBurst j.val f i (fun b =>
      { b with tried := some off }) ∧ Cand.dist ⟨rx, hec, onu.val, cap, latency⟩ p ≤ s.tolBits (j.val / 2) ∧ hec = false) 1 4 1
      0 rxA false 1023 capD stPon (stPon.updBurst 1 4 1 (fun b => { b with tried := some offD })) burstD (stPon.prof 0 0)
      (stPon.headerAt 1 4 (stPon.prof 0 0) capD 0) offD ∧
    (fun (j : Fin 96) (f : Nat) (i : Nat) (latency : Nat) (rx : BitVec 64) (hec : Bool) (onu : Fin 1024) (cap : Raw) (s : State)
      (u : State) (b : Burst) (p : BurstProf) (hdr : Int) (off : Int) => s.burstOf j.val f i = some b ∧ b.st = .waiting ∧ b.kind
      = .discovery ∧ p = s.prof (j.val / 2) b.prof ∧ hdr = s.headerAt j.val f p cap latency ∧ off = offBits p hdr (s.headerExp
      j.val f b) ∧ s.inWindow (j.val / 2) b off hdr = true ∧ laterThan b off = true ∧ u = s.updBurst j.val f i (fun b =>
      { b with tried := some off }) ∧ Cand.dist ⟨rx, hec, onu.val, cap, latency⟩ p ≤ s.tolBits (j.val / 2) ∧ hec = true) 1 4 1 0
      rxA true 1023 capD stPon (stPon.updBurst 1 4 1 (fun b => { b with tried := some offD })) burstD (stPon.prof 0 0)
      (stPon.headerAt 1 4 (stPon.prof 0 0) capD 0) offD ∧
    (fun (j : Fin 96) (f : Nat) (i : Nat) (s : State) (b : Burst) => s.burstOf j.val f i = some b ∧ b.st = .waiting) 1 4 0 stPon
      burstA ∧
    (fun (j : Fin 96) (f : Nat) (i : Nat) (s : State) => ((s.burstOf j.val f i).all fun b => b.st != .waiting) = true) 1 4 2
      stPon ∧
    (fun (j : Fin 96) (f : Nat) (i : Nat) (bad : Bool) (s : State) (b : Burst) => s.burstOf j.val f i = some b ∧ (b.st =
      .confirmed ∨ b.found = true) ∧ (s.prof (j.val / 2) b.prof).fec = true ∧ bad = false) 1 4 2 false stPon
      ({ burstA with st := .confirmed }) ∧
    (fun (j : Fin 96) (f : Nat) (i : Nat) (bad : Bool) (s : State) (b : Burst) => s.burstOf j.val f i = some b ∧ (b.st =
      .confirmed ∨ b.found = true) ∧ (s.prof (j.val / 2) b.prof).fec = true ∧ bad = true) 1 4 2 true stPon
      ({ burstA with st := .confirmed }) ∧
    (fun (j : Fin 96) (f : Nat) (i : Nat) (s : State) (b : Burst) => s.burstOf j.val f i = some b ∧ ((b.st ≠ .confirmed ∧
      b.found = false) ∨ (s.prof (j.val / 2) b.prof).fec = false)) 1 4 0 stPon burstA ∧
    (fun (j : Fin 96) (f : Nat) (i : Nat) (s : State) (b : Burst) (x : Int × Int) => s.takenBurst j.val f i = some b ∧ b.pulse =
      some x) 1 4 0 stPonPulse ({ burstA with pulse := some (5, 9) }) ((5, 9)) ∧
    (fun (j : Fin 96) (f : Nat) (i : Nat) (s : State) => ((s.takenBurst j.val f i).all fun b => b.pulse.isNone) = true) 1 4 2
      stPon ∧
    (fun (val : Word) => bit val 31 = true) 0x90070300 := by
  refine ⟨?_, ?_, ?_, ?_, ?_, ?_, ?_, ?_, ?_, ?_, ?_, ?_, ?_, ?_, ?_, ?_⟩ <;> decide +kernel

/-- BurstsAreConfirmedMissedOrForeign. -/
theorem witness_BurstsAreConfirmedMissedOrForeign_2 :
    (fun (val : Word) => bit val 31 = false) 0x10070300 ∧
    (fun (n : Fin 48) (f : Nat) (i : Nat) (j : Nat) (s : State) (r : RssiArm) (b : Burst) => (s.ponPort n.val).rssi = some r ∧
      (r.mode = 1 ∨ r.mode = 2) ∧ j = 2 * n.val + s.sideCh n.val (s.bit (Reg.ponSidebandCfg n.val) 1) ∧ s.takenBurst j f i =
      some b ∧ s.rssiBurst j f r b = true ∧ s.rssiNext j r (s.headerLine j f b) = true) 0 4 0 1 (stPon.setPonPort 0
      { rssi := some ⟨1, 7, 3, 1, 0⟩ }) (⟨1, 7, 3, 1, 0⟩) burstA ∧
    (fun (n : Fin 48) (f : Nat) (i : Nat) (j : Nat) (s : State) (r : RssiArm) (b : Burst) => (s.ponPort n.val).rssi = some r ∧
      (r.mode = 1 ∨ r.mode = 2) ∧ j = 2 * n.val + s.sideCh n.val (s.bit (Reg.ponSidebandCfg n.val) 1) ∧ s.takenBurst j f i =
      some b ∧ (s.rssiBurst j f r b = false ∨ s.rssiNext j r (s.headerLine j f b) = false)) 0 4 0 1 (stPon.setPonPort 0
      { rssi := some ⟨2, 8, 3, 1, 0⟩ }) (⟨2, 8, 3, 1, 0⟩) burstA ∧
    (fun (n : Fin 48) (f : Nat) (j : Nat) (s : State) (r : RssiArm) (g : Nat × Nat) => (s.ponPort n.val).rssi = some r ∧ r.mode
      = 3 ∧ j = 2 * n.val + s.sideCh n.val (s.bit (Reg.ponSidebandCfg n.val) 1) ∧ s.rssiGap j f r = some g ∧ (List.range (min
      rssiBack f)).all (fun k => (s.rssiGap j (f - 1 - k) r).isNone) = true) 0 0 1 (stPon.setPonPort 0
      { rssi := some ⟨3, 7, 3, 1, 0⟩ }) (⟨3, 7, 3, 1, 0⟩) ((State.rssiGap (stPon.setPonPort 0 { rssi := some ⟨3, 7, 3, 1, 0⟩ })
      1 0 ⟨3, 7, 3, 1, 0⟩).getD (0, 0)) ∧
    (fun (n : Fin 48) (s : State) => ((s.ponPort n.val).rssi = none ∨ ((s.ponPort n.val).rssi.map RssiArm.mode) = some 0)) 0
      stPon ∧
    (fun (n : Fin 48) (s : State) => (s.ponPort n.val).rssiPulse = some false) 0 (stPon.setPonPort 0
      { rssiPulse := some false }) ∧
    (fun (n : Fin 48) (s : State) => (s.ponPort n.val).rssiPulse = none) 0 stPon ∧
    (fun (n : Fin 48) (s : State) => (s.ponPort n.val).rssiPulse = some true) 0 (stPon.setPonPort 0 { rssiPulse := some true }) := by
  refine ⟨?_, ?_, ?_, ?_, ?_, ?_, ?_, ?_⟩ <;> decide +kernel

/-- ThePairHearsCopiesAndJudges. -/
theorem witness_ThePairHearsCopiesAndJudges_1 :
    (fun (at' : Raw) (s : State) (u : State) => u = s.advance at' ∧ u.lht.period < u.raw.toNat / 65536000000 ∧ u.lhActive =
      true) 65536000000 (stLht .active) ((stLht .active).advance 65536000000) ∧
    (fun (at' : Raw) (s : State) (u : State) => u = s.advance at' ∧ u.lht.period < u.raw.toNat / 65536000000 ∧ u.lhStandby =
      true ∧ u.bit Reg.lhtCtrl 1 = true ∧ u.lht.yielded = false ∧ ((u.lhPath 0).got || (u.lhPath 1).got) = true) 65536000000
      (((stLht .standby).setLhPath 0 { got := true }).setBit Reg.lhtCtrl 1 true) ((((stLht .standby).setLhPath 0
      { got := true }).setBit Reg.lhtCtrl 1 true).advance 65536000000) ∧
    (fun (at' : Raw) (s : State) (u : State) => u = s.advance at' ∧ u.lht.period < u.raw.toNat / 65536000000 ∧ u.lhStandby =
      true ∧ u.bit Reg.lhtCtrl 1 = false) 65536000000 ((stLht .standby).setBit Reg.lhtCtrl 1 false) (((stLht .standby).setBit
      Reg.lhtCtrl 1 false).advance 65536000000) ∧
    (fun (at' : Raw) (s : State) (u : State) => u = s.advance at' ∧ u.lht.period < u.raw.toNat / 65536000000 ∧ u.lhStandby =
      true ∧ u.bit Reg.lhtCtrl 1 = true ∧ u.lht.yielded = true) 65536000000
      ({ (stLht .standby).setBit Reg.lhtCtrl 1 true with lht := { yielded := true } })
      ({ (stLht .standby).setBit Reg.lhtCtrl 1 true with lht := { yielded := true } }.advance 65536000000) ∧
    (fun (at' : Raw) (s : State) (u : State) => u = s.advance at' ∧ u.lht.period < u.raw.toNat / 65536000000 ∧ u.lhActive =
      false ∧ u.lhStandby = false) 65536000000 stA (stA.advance 65536000000) ∧
    (fun (at' : Raw) (s : State) (u : State) => u = s.advance at' ∧ u.raw.toNat / 65536000000 ≤ u.lht.period) 65536 (stLht
      .active) ((stLht .active).advance 65536) ∧
    (fun (s : State) => s.lhActive = false ∧ s.lhStandby = false) stA ∧
    (fun (rhb : Bool) (src : Fin 1024) (bytes : List Byte) (s : State) => (s.lhActive = true ∨ s.lhStandby = true) ∧ ((hbOf
      bytes).all fun h => !s.hbValid rhb src.val h) = true) false 0 ([]) (stLht .active) ∧
    (fun (rhb : Bool) (src : Fin 1024) (bytes : List Byte) (s : State) (h : Hb) => (s.lhActive = true ∨ s.lhStandby = true) ∧
      hbOf bytes = some h ∧ s.hbValid rhb src.val h = true) false 0 hbGood (stLht .standby) (⟨0, 2, false, 9, 1, 3, 0⟩) ∧
    (fun (s : State) => s.busy .bulkSync = false) stA ∧
    (fun (s : State) => s.busy .bulkSync = true ∧ s.serving = false) (stSync .standby) ∧
    (fun (s : State) => s.busy .bulkSync = true ∧ s.serving = true ∧ s.pathUp 0 = true) (stSync .active) ∧
    (fun (s : State) (r : SyncRun) => s.lht.sync = some r ∧ r.staging = true ∧ s.lhStandby = true) (stSync .standby)
      ({ staging := true }) ∧
    (fun (s : State) => (s.lhStandby = false ∨ ((s.lht.sync.map fun r => !r.staging).getD true) = true)) (stSync .active) ∧
    (fun (s : State) => s.busy .bulkSync = true) (stSync .standby) ∧
    (fun (seq : Nat) (s : State) => s.lhStandby = true ∧ s.lhStatus "SNAP_VALID" = true ∧ s.lhStatus "STALE" = false ∧ seq =
      s.lht.incSeq + 1) 1 stSnap := by
  refine ⟨?_, ?_, ?_, ?_, ?_, ?_, ?_, ?_, ?_, ?_, ?_, ?_, ?_, ?_, ?_, ?_⟩ <;> decide +kernel

/-- ThePairHearsCopiesAndJudges. -/
theorem witness_ThePairHearsCopiesAndJudges_2 :
    (fun (seq : Nat) (s : State) => s.lhStandby = true ∧ s.lhStatus "SNAP_VALID" = true ∧ s.lhStatus "STALE" = false ∧
      s.lht.incSeq + 1 < seq) 4 stSnap ∧
    (fun (seq : Nat) (s : State) => (s.lhStandby = false ∨ s.lhStatus "SNAP_VALID" = false ∨ s.lhStatus "STALE" = true ∨ seq ≤
      s.lht.incSeq)) 0 stSnap ∧
    (fun (s : State) => s.lht.sync = none) stSnap ∧
    (fun (s : State) => s.lhStandby = false) stA ∧
    (fun (f : Nat) (s : State) => s.lhStandby = true ∧ f ≤ s.chrono.ponSf) 0 stSnap ∧
    (fun (f : Nat) (s : State) => s.lhStandby = true ∧ s.chrono.ponSf < f) 5 stSnap ∧
    (fun (at' : Raw) (s : State) (u : State) => u = s.advance at' ∧ u.lht.second < u.raw.toNat / 65536000000000 ∧ u.lhStandby =
      false) 65536000000000 stA (stA.advance 65536000000000) ∧
    (fun (at' : Raw) (s : State) (u : State) => u = s.advance at' ∧ u.lht.second < u.raw.toNat / 65536000000000 ∧ u.lhStandby =
      true) 65536000000000 stSnap (stSnap.advance 65536000000000) ∧
    (fun (at' : Raw) (s : State) (u : State) => u = s.advance at' ∧ (u.lht.witAt = none ∨ u.lhStandby = false ∨ u.bit
      Reg.lhtCtrl 1 = false)) 65536 stSnap (stSnap.advance 65536) ∧
    (fun (at' : Raw) (s : State) (u : State) => u = s.advance at' ∧ u.raw.toNat / 65536000000000 ≤ u.lht.second) 65536 stSnap
      (stSnap.advance 65536) ∧
    (fun (at' : Raw) (a : Nat) (s : State) (u : State) (due : Bool) => u = s.advance at' ∧ u.lht.witAt = some a ∧ u.lhStandby =
      true ∧ u.bit Reg.lhtCtrl 1 = true ∧ due = decide ((u.chrono.psyncAt.toNat : Int) + ((a + u.witnessFrames : Nat) -
      (u.chrono.ponSf : Int)) * 8192000000 + (u.teqMax * 65536 : Nat) ≤ u.raw.toNat) ∧ due = true ∧ u.witnessed a = true ∧ u.bit
      Reg.lhtHealthLocal 31 = true) 655360000000000 3 stWit (stWit.advance 655360000000000) true ∧
    (fun (at' : Raw) (a : Nat) (s : State) (u : State) (due : Bool) => u = s.advance at' ∧ u.lht.witAt = some a ∧ u.lhStandby =
      true ∧ u.bit Reg.lhtCtrl 1 = true ∧ due = decide ((u.chrono.psyncAt.toNat : Int) + ((a + u.witnessFrames : Nat) -
      (u.chrono.ponSf : Int)) * 8192000000 + (u.teqMax * 65536 : Nat) ≤ u.raw.toNat) ∧ due = true ∧ u.witnessed a = false ∧
      u.bit Reg.lhtStatus 0 = true ∧ u.bit Reg.lhtHealthLocal 31 = true) 655360000000000 3 (stWitQuiet true) ((stWitQuiet
      true).advance 655360000000000) true ∧
    (fun (at' : Raw) (a : Nat) (s : State) (u : State) (due : Bool) => u = s.advance at' ∧ u.lht.witAt = some a ∧ u.lhStandby =
      true ∧ u.bit Reg.lhtCtrl 1 = true ∧ due = decide ((u.chrono.psyncAt.toNat : Int) + ((a + u.witnessFrames : Nat) -
      (u.chrono.ponSf : Int)) * 8192000000 + (u.teqMax * 65536 : Nat) ≤ u.raw.toNat) ∧ due = true ∧ ((u.witnessed a = false ∧
      u.bit Reg.lhtStatus 0 = false) ∨ u.bit Reg.lhtHealthLocal 31 = false)) 655360000000000 3 (stWitQuiet false) ((stWitQuiet
      false).advance 655360000000000) true ∧
    (fun (at' : Raw) (a : Nat) (s : State) (u : State) (due : Bool) => u = s.advance at' ∧ u.lht.witAt = some a ∧ u.lhStandby =
      true ∧ u.bit Reg.lhtCtrl 1 = true ∧ due = decide ((u.chrono.psyncAt.toNat : Int) + ((a + u.witnessFrames : Nat) -
      (u.chrono.ponSf : Int)) * 8192000000 + (u.teqMax * 65536 : Nat) ≤ u.raw.toNat) ∧ due = false) 65536 3 stWit (stWit.advance
      65536) false := by
  refine ⟨?_, ?_, ?_, ?_, ?_, ?_, ?_, ?_, ?_, ?_, ?_, ?_, ?_, ?_⟩ <;> decide +kernel

/-- PloamQueuesAndSupervision. -/
theorem witness_PloamQueuesAndSupervision_1 :
    (fun (j : Fin 96) (f : Nat) (i : Nat) (s : State) (u : State) (b : Burst) (gs : List Grant) (k : Option (BitVec 128)) (w :
      State) => s.burstOf j.val f i = some b ∧ b.st = .confirmed ∧ b.kind ≠ .discovery ∧ hearPloam b.grants = some gs ∧ u =
      s.updBurst j.val f i (fun b => { b with grants := gs }) ∧ k = (u.micKey (j.val / 2) b.onu).1 ∧ w = (u.micKey (j.val / 2)
      b.onu).2) 1 4 2 stPloamu (stPloamu.updBurst 1 4 2 (fun b =>
      { b with grants := [{ onu := 7, ploamu := true, heard := true }] }))
      ({ burstA with st := .confirmed, grants := [{ onu := 7, ploamu := true }] })
      ([{ onu := 7, ploamu := true, heard := true }]) none (((stPloamu.updBurst 1 4 2 (fun b =>
      { b with grants := [{ onu := 7, ploamu := true, heard := true }] })).micKey 0 7).2) ∧
    (fun (j : Fin 96) (f : Nat) (i : Nat) (m : UpPloam) (s : State) (u : State) (b : Burst) (gs : List Grant) (k : Option
      (BitVec 128)) (w : State) => s.burstOf j.val f i = some b ∧ b.st = .confirmed ∧ b.kind ≠ .discovery ∧ hearPloam b.grants =
      some gs ∧ u = s.updBurst j.val f i (fun b => { b with grants := gs }) ∧ k = (u.micKey (j.val / 2) b.onu).1 ∧ w = (u.micKey
      (j.val / 2) b.onu).2 ∧ (m.kind = .registration ∨ m.kind = .other) ∧ w.act.rx.length < 4096) 1 4 2
      ({ kind := .registration, onu := 7, mic := 0, data := [5] }) stPloamu (stPloamu.updBurst 1 4 2 (fun b =>
      { b with grants := [{ onu := 7, ploamu := true, heard := true }] }))
      ({ burstA with st := .confirmed, grants := [{ onu := 7, ploamu := true }] })
      ([{ onu := 7, ploamu := true, heard := true }]) none (((stPloamu.updBurst 1 4 2 (fun b =>
      { b with grants := [{ onu := 7, ploamu := true, heard := true }] })).micKey 0 7).2) ∧
    (fun (j : Fin 96) (f : Nat) (i : Nat) (s : State) => ((s.burstOf j.val f i).all fun b => b.st != .confirmed || b.kind ==
      .discovery || (hearPloam b.grants).isNone) = true) 1 4 1 stPon ∧
    (fun (val : Word) (s : State) => bit val 31 = true ∧ fld val 28 23 < 48 ∧ (s.actCh (2 * fld val 28 23 + fld val 22
      22)).host.length < 16) 0x97C07000 stPon ∧
    (fun (val : Word) (s : State) => bit val 31 = true ∧ fld val 28 23 < 48 ∧ 16 ≤ (s.actCh (2 * fld val 28 23 + fld val 22
      22)).host.length) 0x97C07000 (stPon.setActCh 95 { host := List.replicate 16 { kind := .host, onu := 7 } }) ∧
    (fun (val : Word) => (bit val 31 = false ∨ 48 ≤ fld val 28 23)) 0x98000000 ∧
    (fun (s : State) (r : RxRec) (rs : List RxRec) => s.act.rx = r :: rs) ({ stPon with act := { rx := [⟨5, [6, 7]⟩] } }) (⟨5,
      [6, 7]⟩) ([]) ∧
    (fun (s : State) => s.act.rx = []) stPon ∧
    (fun (j : Fin 96) (f : Nat) (lo : Nat) (hi : Nat) (s : State) => s.overruns j.val f lo hi (max 1 (s.fld Reg.actSupvCfg2 15
      8)) = [] ∧ ((freeGaps 125000 (s.busyNs j.val f)).any fun g => decide (64 ≤ g.2 - g.1) && decide (max 1 (s.fld
      Reg.actSupvCfg2 15 8) ≤ shared lo hi g.1 g.2)) = true) 95 7 0 125000 stA ∧
    (fun (j : Fin 96) (f : Nat) (s : State) => ((s.actCh j.val).energy.all fun k => decide (k + 64 ≤ f)) = true) 3 70
      (stA.setActCh 3 { energy := [6, 5], anon := true }) ∧
    (fun (j : Fin 96) (f : Nat) (s : State) => ((s.actCh j.val).energy.all fun k => decide (k + 64 ≤ f)) = false) 3 69
      (stA.setActCh 3 { energy := [6, 5], anon := true }) ∧
    (fun (n : Fin 48) (id : Fin 1024) (s : State) => (s.onu n.val id.val).st = .operational ∧ max 1 (s.fld Reg.actSupvCfg 31 24)
      ≤ (s.onu n.val id.val).quiet ∧ s.engineOn = true) 0 7 (stPon.setOnu 0 7 { st := .operational, quiet := 255 }) ∧
    (fun (n : Fin 48) (id : Fin 1024) (s : State) => ((s.onu n.val id.val).st ≠ .operational ∨ s.engineOn = false ∨ (s.onu n.val
      id.val).quiet < max 1 (s.fld Reg.actSupvCfg 31 24))) 0 7 stPon ∧
    (fun (n : Fin 48) (id : Fin 1024) (at' : Raw) (s : State) (u : State) => u = s.advance at' ∧ (u.onu n.val id.val).st = .lost
      ∧ u.engineOn = true ∧ u.reached ((u.onu n.val id.val).lostAt + BitVec.ofNat 96 (u.fld Reg.actSupvCfg2 31 16 *
      65536000000)) = true) 0 7 655360000000000000 (stPon.setOnu 0 7 { st := .lost }) ((stPon.setOnu 0 7
      { st := .lost }).advance 655360000000000000) ∧
    (fun (n : Fin 48) (id : Fin 1024) (at' : Raw) (s : State) (u : State) => u = s.advance at' ∧ ((u.onu n.val id.val).st ≠
      .lost ∨ u.engineOn = false ∨ u.reached ((u.onu n.val id.val).lostAt + BitVec.ofNat 96 (u.fld Reg.actSupvCfg2 31 16 *
      65536000000)) = false)) 0 7 65536 stPon (stPon.advance 65536) ∧
    (fun (val : Word) => fld val 31 30 = 2) 0x80000000 := by
  refine ⟨?_, ?_, ?_, ?_, ?_, ?_, ?_, ?_, ?_, ?_, ?_, ?_, ?_, ?_, ?_, ?_⟩ <;> decide +kernel

/-- PloamQueuesAndSupervision. -/
theorem witness_PloamQueuesAndSupervision_2 :
    (fun (val : Word) => fld val 31 30 = 1) 0x40000000 := by decide +kernel

/-- HostCommandsMoveOnuContexts. -/
theorem witness_HostCommandsMoveOnuContexts_1 :
    (fun (v : Word) (data : Word) (ven : Word) (ser : Word) (n : Nat) (id : Nat) (s : State) => s.act.cmd = some (v, data, ven,
      ser) ∧ n = fld v 21 16 ∧ id = fld v 9 0 ∧ s.engineOn = true ∧ fld v 27 24 = 1 ∧ cmdAccepts 1 (s.onu n id).st = true ∧ 512
      ≤ (s.nonFree n).length) 0x81000005 9 1 2 0 5 (stCmdMany 0x81000005) ∧
    (fun (v : Word) (data : Word) (ven : Word) (ser : Word) (n : Nat) (id : Nat) (s : State) => s.act.cmd = some (v, data, ven,
      ser) ∧ n = fld v 21 16 ∧ id = fld v 9 0 ∧ s.engineOn = true ∧ fld v 27 24 = 1 ∧ cmdAccepts 1 (s.onu n id).st = true ∧
      (s.nonFree n).length < 512) 0x81000005 9 1 2 0 5 (stCmd 0x81000005) ∧
    (fun (v : Word) (data : Word) (ven : Word) (ser : Word) (n : Nat) (id : Nat) (s : State) => s.act.cmd = some (v, data, ven,
      ser) ∧ n = fld v 21 16 ∧ id = fld v 9 0 ∧ s.engineOn = true ∧ fld v 27 24 = 2 ∧ cmdAccepts 2 (s.onu n id).st = true)
      0x82000007 9 1 2 0 7 (stCmd 0x82000007) ∧
    (fun (v : Word) (data : Word) (ven : Word) (ser : Word) (n : Nat) (id : Nat) (s : State) => s.act.cmd = some (v, data, ven,
      ser) ∧ n = fld v 21 16 ∧ id = fld v 9 0 ∧ s.engineOn = true ∧ fld v 27 24 = 3 ∧ cmdAccepts 3 (s.onu n id).st = true)
      0x83000007 9 1 2 0 7 (stCmd 0x83000007) ∧
    (fun (v : Word) (data : Word) (ven : Word) (ser : Word) (n : Nat) (id : Nat) (s : State) => s.act.cmd = some (v, data, ven,
      ser) ∧ n = fld v 21 16 ∧ id = fld v 9 0 ∧ s.engineOn = true ∧ fld v 27 24 = 4 ∧ cmdAccepts 4 (s.onu n id).st = true)
      0x84000007 9 1 2 0 7 (stCmd 0x84000007) ∧
    (fun (v : Word) (data : Word) (ven : Word) (ser : Word) (n : Nat) (id : Nat) (s : State) => s.act.cmd = some (v, data, ven,
      ser) ∧ n = fld v 21 16 ∧ id = fld v 9 0 ∧ s.engineOn = true ∧ fld v 27 24 = 5 ∧ cmdAccepts 5 (s.onu n id).st = true)
      0x85000008 9 1 2 0 8 (stCmd 0x85000008) ∧
    (fun (v : Word) (data : Word) (ven : Word) (ser : Word) (n : Nat) (id : Nat) (s : State) => s.act.cmd = some (v, data, ven,
      ser) ∧ n = fld v 21 16 ∧ id = fld v 9 0 ∧ s.engineOn = true ∧ fld v 27 24 = 6 ∧ cmdAccepts 6 (s.onu n id).st = true)
      0x86000007 9 1 2 0 7 (stCmd 0x86000007) ∧
    (fun (v : Word) (data : Word) (ven : Word) (ser : Word) (s : State) => s.act.cmd = some (v, data, ven, ser) ∧ (s.engineOn =
      false ∨ cmdAccepts (fld v 27 24) (s.onu (fld v 21 16) (fld v 9 0)).st = false) ∧ fld v 27 24 = 1) 0x81000007 9 1 2 (stCmd
      0x81000007) ∧
    (fun (v : Word) (data : Word) (ven : Word) (ser : Word) (s : State) => s.act.cmd = some (v, data, ven, ser) ∧ (s.engineOn =
      false ∨ cmdAccepts (fld v 27 24) (s.onu (fld v 21 16) (fld v 9 0)).st = false) ∧ fld v 27 24 = 2) 0x82000008 9 1 2 (stCmd
      0x82000008) ∧
    (fun (v : Word) (data : Word) (ven : Word) (ser : Word) (s : State) => s.act.cmd = some (v, data, ven, ser) ∧ (s.engineOn =
      false ∨ cmdAccepts (fld v 27 24) (s.onu (fld v 21 16) (fld v 9 0)).st = false) ∧ fld v 27 24 = 3) 0x83000009 9 1 2 (stCmd
      0x83000009) ∧
    (fun (v : Word) (data : Word) (ven : Word) (ser : Word) (s : State) => s.act.cmd = some (v, data, ven, ser) ∧ (s.engineOn =
      false ∨ cmdAccepts (fld v 27 24) (s.onu (fld v 21 16) (fld v 9 0)).st = false) ∧ fld v 27 24 = 4) 0x84000009 9 1 2 (stCmd
      0x84000009) ∧
    (fun (v : Word) (data : Word) (ven : Word) (ser : Word) (s : State) => s.act.cmd = some (v, data, ven, ser) ∧ (s.engineOn =
      false ∨ cmdAccepts (fld v 27 24) (s.onu (fld v 21 16) (fld v 9 0)).st = false) ∧ fld v 27 24 = 5) 0x85000007 9 1 2 (stCmd
      0x85000007) ∧
    (fun (v : Word) (data : Word) (ven : Word) (ser : Word) (s : State) => s.act.cmd = some (v, data, ven, ser) ∧ (s.engineOn =
      false ∨ cmdAccepts (fld v 27 24) (s.onu (fld v 21 16) (fld v 9 0)).st = false) ∧ fld v 27 24 = 6) 0x86000008 9 1 2 (stCmd
      0x86000008) ∧
    (fun (s : State) => ((s.act.cmd.map fun q => fld q.1 27 24).all fun k => k != 1) = true) stPon ∧
    (fun (s : State) => ((s.act.cmd.map fun q => fld q.1 27 24).all fun k => k != 2) = true) stPon ∧
    (fun (s : State) => ((s.act.cmd.map fun q => fld q.1 27 24).all fun k => k != 3) = true) stPon := by
  refine ⟨?_, ?_, ?_, ?_, ?_, ?_, ?_, ?_, ?_, ?_, ?_, ?_, ?_, ?_, ?_, ?_⟩ <;> decide +kernel

/-- HostCommandsMoveOnuContexts. -/
theorem witness_HostCommandsMoveOnuContexts_2 :
    (fun (s : State) => ((s.act.cmd.map fun q => fld q.1 27 24).all fun k => k != 4) = true) stPon ∧
    (fun (s : State) => ((s.act.cmd.map fun q => fld q.1 27 24).all fun k => k != 5) = true) stPon ∧
    (fun (s : State) => ((s.act.cmd.map fun q => fld q.1 27 24).all fun k => k != 6) = true) stPon := by
  refine ⟨?_, ?_, ?_⟩ <;> decide +kernel

/-- KeysNeedTheUserRole. -/
theorem witness_KeysNeedTheUserRole_1 :
    (fun (val : Word) => fld val 21 16 < 48 ∧ bit val 31 = true) 0x802F1FFF ∧
    (fun (val : Word) => fld val 21 16 < 48 ∧ fld val 31 30 = 1) 0x40000005 ∧
    (fun (val : Word) => bit val 31 = true) 0x8007FFFF ∧
    (fun (val : Word) => fld val 31 30 = 1) 0x40000003 ∧
    (fun (val : Word) (s : State) => fld val 21 16 < 48 ∧ fld val 31 30 = 2 ∧ s.isUser = true ∧ s.sec.error = false) 0x81000007
      ({ stXgem with sec := { role := 2 } }) ∧
    (fun (val : Word) (s : State) => fld val 21 16 < 48 ∧ bit val 31 = true ∧ s.isUser = true ∧ s.sec.error = false ∧ fld val 27
      24 = 1) 0x81000007 ({ stXgem with sec := { role := 2 } }) ∧
    (fun (val : Word) (s : State) => fld val 21 16 < 48 ∧ bit val 31 = true ∧ s.isUser = true ∧ s.sec.error = false ∧ fld val 27
      24 = 6) 0xC6000007 ({ stXgem with sec := { role := 1 } }) ∧
    (fun (val : Word) (s : State) => fld val 21 16 < 48 ∧ bit val 31 = true ∧ s.isUser = true ∧ s.sec.error = true) 0x81000007
      ({ stXgem with sec := { role := 1, error := true } }) ∧
    (fun (val : Word) (s : State) => fld val 21 16 < 48 ∧ fld val 31 29 = 1 ∧ s.isUser = true) 0x28000007
      ({ stXgem with sec := { role := 2 } }) ∧
    (fun (val : Word) (s : State) => fld val 21 16 < 48 ∧ fld val 31 29 = 1 ∧ s.isUser = true ∧ fld val 27 26 = 2) 0x28000007
      ({ stXgem with sec := { role := 2 } }) ∧
    (fun (val : Word) (s : State) => fld val 21 16 < 48 ∧ fld val 31 29 = 1 ∧ s.isUser = true ∧ fld val 27 26 = 3) 0x2C000007
      ({ stXgem with sec := { role := 2 } }) ∧
    (fun (val : Word) (s : State) => fld val 21 16 < 48 ∧ (bit val 31 = true ∨ bit val 29 = true) ∧ s.isUser = false ∧ bit val
      30 = false) 0x81000007 stXgem ∧
    (fun (val : Word) (s : State) => fld val 21 16 < 48 ∧ (bit val 31 = true ∨ bit val 29 = true) ∧ s.isUser = false) 0x81000007
      stXgem ∧
    (fun (val : Word) => fld val 21 16 < 48 ∧ fld val 31 29 = 2) 0x41000007 ∧
    (fun (val : Word) => fld val 21 16 < 48 ∧ bit val 30 = true) 0xC6000007 ∧
    (fun (val : Word) (s : State) => bit val 31 = true ∧ fld val 27 24 = 1 ∧ s.isUser = true ∧ s.exchCause (fld val 21 16) (fld
      val 9 0) (fld val 11 10) = 0) 0x81000807 stKey := by
  refine ⟨?_, ?_, ?_, ?_, ?_, ?_, ?_, ?_, ?_, ?_, ?_, ?_, ?_, ?_, ?_, ?_⟩ <;> decide +kernel

/-- KeysNeedTheUserRole. -/
theorem witness_KeysNeedTheUserRole_2 :
    (fun (val : Word) (s : State) => bit val 31 = true ∧ fld val 27 24 = 1 ∧ s.isUser = true ∧ s.exchCause (fld val 21 16) (fld
      val 9 0) (fld val 11 10) ≠ 0) 0x81000407 stKey ∧
    (fun (val : Word) (s : State) => bit val 31 = true ∧ fld val 27 24 = 1 ∧ s.isUser = false) 0x81000407 stA ∧
    (fun (val : Word) => (bit val 31 = false ∨ (fld val 27 24 ≠ 1 ∧ fld val 27 24 ≠ 2))) 0x83000807 ∧
    (fun (n : Fin 48) (id : Fin 1024) (at' : Raw) (s : State) (u : State) (e : Exchange) => u = s.advance at' ∧ u.exchOf n.val
      id.val = some e ∧ u.reached (e.at' + BitVec.ofNat 96 6553600000000) = true) 0 7 65536000000000 stExch (stExch.advance
      65536000000000) ({ n := 0, onu := 7, index := 2, at' := 0 }) ∧
    (fun (n : Fin 48) (id : Fin 1024) (at' : Raw) (s : State) (u : State) (e : Exchange) => u = s.advance at' ∧ u.exchOf n.val
      id.val = some e ∧ u.reached (e.at' + BitVec.ofNat 96 6553600000000) = false) 0 7 65536 stExch (stExch.advance 65536)
      ({ n := 0, onu := 7, index := 2, at' := 0 }) ∧
    (fun (n : Fin 48) (id : Fin 1024) (at' : Raw) (s : State) (u : State) => u = s.advance at' ∧ u.exchOf n.val id.val = none) 0
      7 65536 stKey (stKey.advance 65536) ∧
    (fun (s : State) (r : Word) (rs : List Word) => s.xgm.results = r :: rs) ({ stKey with xgm := { results := [5, 6] } }) 5
      ([6]) ∧
    (fun (s : State) => s.xgm.results = []) stKey ∧
    (fun (val : Word) => bit val 31 = true ∧ fld val 27 24 = 2 ∧ (fld val 11 10 = 0 ∨ fld val 11 10 = 3)) 0x82000007 ∧
    (fun (val : Word) => bit val 31 = true ∧ fld val 27 24 = 2 ∧ (fld val 11 10 = 1 ∨ fld val 11 10 = 2) ∧ 48 ≤ fld val 21 16)
      0x82300407 ∧
    (fun (val : Word) (s : State) => bit val 31 = true ∧ fld val 27 24 = 2 ∧ (fld val 11 10 = 1 ∨ fld val 11 10 = 2) ∧ fld val
      21 16 < 48 ∧ fld val 9 0 ≠ 1023 ∧ (s.live ((s.keySet (fld val 21 16) (fld val 9 0)).slot (fld val 11 10))).isSome = true)
      0x82000807 stKey ∧
    (fun (val : Word) (s : State) => bit val 31 = true ∧ fld val 27 24 = 2 ∧ (fld val 11 10 = 1 ∨ fld val 11 10 = 2) ∧ fld val
      21 16 < 48 ∧ fld val 9 0 ≠ 1023 ∧ (s.live ((s.keySet (fld val 21 16) (fld val 9 0)).slot (fld val 11 10))).isSome = false)
      0x82000407 stKey ∧
    (fun (val : Word) => bit val 31 = true ∧ fld val 27 24 = 2 ∧ (fld val 11 10 = 1 ∨ fld val 11 10 = 2) ∧ fld val 21 16 < 48 ∧
      fld val 9 0 = 1023) 0x82000BFF := by
  refine ⟨?_, ?_, ?_, ?_, ?_, ?_, ?_, ?_, ?_, ?_, ?_, ?_, ?_⟩ <;> decide +kernel

/-- SequencerOperatesOnTheTables. -/
theorem witness_SequencerOperatesOnTheTables_1 :
    (fun (own : Bool) (c : RegCmd) (key : Nat) (i : Nat) (e : EmEntry) (s : State) => key = imgNum c.data 2 5 ∧ Takes own c s ∧
      s.sxtSub c.table = some 0 ∧ s.emFind c.table key = some (i, e) ∧ c.op = 1 ∧ (bit (imgWord c.data 7) 30 = true ∨ e.static =
      false ∨ s.dynCount < 1048576)) true (cmdOf (stSx 0x81000001)) 9 slotA emA (stSx 0x81000001) ∧
    (fun (own : Bool) (c : RegCmd) (key : Nat) (i : Nat) (e : EmEntry) (s : State) => key = imgNum c.data 2 5 ∧ Takes own c s ∧
      s.sxtSub c.table = some 0 ∧ s.emFind c.table key = some (i, e) ∧ c.op = 2) true (cmdOf (stSx 0x82000001)) 9 slotA emA
      (stSx 0x82000001) ∧
    (fun (own : Bool) (c : RegCmd) (key : Nat) (i : Nat) (e : EmEntry) (s : State) => key = imgNum c.data 2 5 ∧ Takes own c s ∧
      s.sxtSub c.table = some 0 ∧ s.emFind c.table key = some (i, e) ∧ c.op = 3) true (cmdOf (stSx 0x83000001)) 9 slotA emA
      (stSx 0x83000001) ∧
    (fun (own : Bool) (c : RegCmd) (key : Nat) (i : Nat) (e : EmEntry) (s : State) => key = imgNum c.data 2 5 ∧ Takes own c s ∧
      s.sxtSub c.table = some 0 ∧ s.emFind c.table key = none ∧ e =
      { table := c.table, key := key, result := BitVec.ofNat 64 (imgNum c.data 0 2), static := bit (imgWord c.data 7) 30 } ∧
      c.op = 1 ∧ (e.static = true ∨ s.dynCount < 1048576) ∧ (s.cands false (s.dual false) c.table key).find? (fun j => (s.emAt
      j).isNone) = some i) true (cmdOf ((stSx 0x81000001).wr (Reg.sxtCmdData 2) 8)) 8 slot8
      ({ table := 1, key := 8, result := 7 }) ((stSx 0x81000001).wr (Reg.sxtCmdData 2) 8) ∧
    (fun (own : Bool) (c : RegCmd) (key : Nat) (n : Nat) (e : EmEntry) (s : State) => key = imgNum c.data 2 5 ∧ Takes own c s ∧
      s.sxtSub c.table = some 0 ∧ s.emFind c.table key = none ∧ e =
      { table := c.table, key := key, result := BitVec.ofNat 64 (imgNum c.data 0 2), static := bit (imgWord c.data 7) 30 } ∧
      c.op = 1 ∧ (e.static = true ∨ s.dynCount < 1048576) ∧ (s.emPlace e).1 = some n) true (cmdOf ((stSx 0x81000001).wr
      (Reg.sxtCmdData 2) 8)) 8 0 ({ table := 1, key := 8, result := 7 }) ((stSx 0x81000001).wr (Reg.sxtCmdData 2) 8) ∧
    (fun (own : Bool) (c : RegCmd) (key : Nat) (e : EmEntry) (s : State) => key = imgNum c.data 2 5 ∧ Takes own c s ∧ s.sxtSub
      c.table = some 0 ∧ s.emFind c.table key = none ∧ e =
      { table := c.table, key := key, result := BitVec.ofNat 64 (imgNum c.data 0 2), static := bit (imgWord c.data 7) 30 } ∧
      c.op = 1 ∧ (e.static = true ∨ s.dynCount < 1048576) ∧ (s.emPlace e).1 = none) true (cmdOf (stSxFull true 0x81000001)) 8
      ({ table := 1, key := 8, result := 7 }) (stSxFull true 0x81000001) ∧
    (fun (own : Bool) (c : RegCmd) (key : Nat) (e : EmEntry) (s : State) => key = imgNum c.data 2 5 ∧ Takes own c s ∧ s.sxtSub
      c.table = some 0 ∧ s.emFind c.table key = none ∧ e =
      { table := c.table, key := key, result := BitVec.ofNat 64 (imgNum c.data 0 2), static := bit (imgWord c.data 7) 30 } ∧
      c.op = 2) true (cmdOf ((stSx 0x82000001).wr (Reg.sxtCmdData 2) 8)) 8 ({ table := 1, key := 8, result := 7 }) ((stSx
      0x82000001).wr (Reg.sxtCmdData 2) 8) ∧
    (fun (own : Bool) (c : RegCmd) (key : Nat) (e : EmEntry) (s : State) => key = imgNum c.data 2 5 ∧ Takes own c s ∧ s.sxtSub
      c.table = some 0 ∧ s.emFind c.table key = none ∧ e =
      { table := c.table, key := key, result := BitVec.ofNat 64 (imgNum c.data 0 2), static := bit (imgWord c.data 7) 30 } ∧
      c.op = 3) true (cmdOf ((stSx 0x83000001).wr (Reg.sxtCmdData 2) 8)) 8 ({ table := 1, key := 8, result := 7 }) ((stSx
      0x83000001).wr (Reg.sxtCmdData 2) 8) ∧
    (fun (noSpace : Bool) (own : Bool) (c : RegCmd) (fam : Nat) (k : Nat) (r : BitVec 22) (s : State) => k = dataPrefix c.data ∧
      r = BitVec.ofNat 22 (imgWord c.data 5).toNat ∧ fam = fld (imgWord c.data 4) 31 31 ∧ Takes own c s ∧ s.sxtSub c.table =
      some (1 + fam) ∧ s.lpmHashed k = false ∧ c.op = 4 ∧ (s.dev.body.carve.full = false ∨ noSpace = false) ∧ ((s.lpmAt
      k).isSome = true ∨ (s.setLpm k (some r)).lpmFits fam = true)) false true (cmdOf (stSx 0x84000003)) 0 (lpmKey 2 0 8
      0x0A000000) 0 (stSx 0x84000003) ∧
    (fun (noSpace : Bool) (own : Bool) (c : RegCmd) (fam : Nat) (k : Nat) (r : BitVec 22) (s : State) => k = dataPrefix c.data ∧
      r = BitVec.ofNat 22 (imgWord c.data 5).toNat ∧ fam = fld (imgWord c.data 4) 31 31 ∧ Takes own c s ∧ s.sxtSub c.table =
      some (1 + fam) ∧ s.lpmHashed k = false ∧ c.op = 4 ∧ s.dev.body.carve.full = true ∧ (noSpace = true ∨ (s.lpmAt k = none ∧
      (s.setLpm k (some r)).lpmFits fam = false))) true true (cmdOf ((stSx 0x84000003).wr (Reg.sxtCmdData 4) 0x00090002)) 0
      (lpmKey 2 0 9 0x0A000000) 0 ((stSx 0x84000003).wr (Reg.sxtCmdData 4) 0x00090002) ∧
    (fun (noSpace : Bool) (own : Bool) (c : RegCmd) (fam : Nat) (k : Nat) (r : BitVec 22) (s : State) => k = dataPrefix c.data ∧
      r = BitVec.ofNat 22 (imgWord c.data 5).toNat ∧ fam = fld (imgWord c.data 4) 31 31 ∧ Takes own c s ∧ s.sxtSub c.table =
      some (1 + fam) ∧ s.lpmHashed k = false ∧ c.op = 5 ∧ (s.lpmAt k).isSome = true ∧ (s.dev.body.carve.full = false ∨ noSpace =
      false)) false true (cmdOf (stSx 0x85000003)) 0 (lpmKey 2 0 8 0x0A000000) 0 (stSx 0x85000003) ∧
    (fun (noSpace : Bool) (own : Bool) (c : RegCmd) (fam : Nat) (k : Nat) (r : BitVec 22) (s : State) => k = dataPrefix c.data ∧
      r = BitVec.ofNat 22 (imgWord c.data 5).toNat ∧ fam = fld (imgWord c.data 4) 31 31 ∧ Takes own c s ∧ s.sxtSub c.table =
      some (1 + fam) ∧ s.lpmHashed k = false ∧ c.op = 5 ∧ (s.lpmAt k).isSome = true ∧ s.dev.body.carve.full = true ∧ noSpace =
      true) true true (cmdOf (stSx 0x85000003)) 0 (lpmKey 2 0 8 0x0A000000) 0 (stSx 0x85000003) ∧
    (fun (own : Bool) (c : RegCmd) (fam : Nat) (k : Nat) (s : State) => k = dataPrefix c.data ∧ fam = fld (imgWord c.data 4) 31
      31 ∧ Takes own c s ∧ s.sxtSub c.table = some (1 + fam) ∧ c.op = 5 ∧ s.lpmAt k = none) true (cmdOf ((stSx 0x85000003).wr
      (Reg.sxtCmdData 4) 0x00090002)) 0 (lpmKey 2 0 9 0x0A000000) ((stSx 0x85000003).wr (Reg.sxtCmdData 4) 0x00090002) ∧
    (fun (own : Bool) (c : RegCmd) (fam : Nat) (k : Nat) (s : State) => k = dataPrefix c.data ∧ fam = fld (imgWord c.data 4) 31
      31 ∧ Takes own c s ∧ s.sxtSub c.table = some (1 + fam) ∧ c.op = 6 ∧ (s.lpmAt k).isSome = true) true (cmdOf (stSx
      0x86000003)) 0 (lpmKey 2 0 8 0x0A000000) (stSx 0x86000003) ∧
    (fun (own : Bool) (c : RegCmd) (fam : Nat) (k : Nat) (s : State) => k = dataPrefix c.data ∧ fam = fld (imgWord c.data 4) 31
      31 ∧ Takes own c s ∧ s.sxtSub c.table = some (1 + fam) ∧ c.op = 6 ∧ s.lpmAt k = none) true (cmdOf ((stSx 0x86000003).wr
      (Reg.sxtCmdData 4) 0x00090002)) 0 (lpmKey 2 0 9 0x0A000000) ((stSx 0x86000003).wr (Reg.sxtCmdData 4) 0x00090002) ∧
    (fun (own : Bool) (c : RegCmd) (x : TableShape) (s : State) => Takes own c s ∧ s.sxtTable c.table = some x ∧ 3 ≤ x.sub ∧
      c.op = 7 ∧ c.index < x.size) true (cmdOf ((stSx 0x87000002).wr Reg.sxtCmdIndex 63))
      ({ table := 2, kind := 4, sub := 3, size := 64 }) ((stSx 0x87000002).wr Reg.sxtCmdIndex 63) := by
  refine ⟨?_, ?_, ?_, ?_, ?_, ?_, ?_, ?_, ?_, ?_, ?_, ?_, ?_, ?_, ?_, ?_⟩ <;> decide +kernel

/-- SequencerOperatesOnTheTables. -/
theorem witness_SequencerOperatesOnTheTables_2 :
    (fun (own : Bool) (c : RegCmd) (x : TableShape) (s : State) => Takes own c s ∧ s.sxtTable c.table = some x ∧ 3 ≤ x.sub ∧
      c.op = 7 ∧ x.size ≤ c.index) true (cmdOf ((stSx 0x87000002).wr Reg.sxtCmdIndex 64))
      ({ table := 2, kind := 4, sub := 3, size := 64 }) ((stSx 0x87000002).wr Reg.sxtCmdIndex 64) ∧
    (fun (own : Bool) (c : RegCmd) (x : TableShape) (s : State) => Takes own c s ∧ s.sxtTable c.table = some x ∧ 3 ≤ x.sub ∧
      c.op = 8 ∧ c.index < x.size) true (cmdOf ((stSx 0x88000002).wr Reg.sxtCmdIndex 63))
      ({ table := 2, kind := 4, sub := 3, size := 64 }) ((stSx 0x88000002).wr Reg.sxtCmdIndex 63) ∧
    (fun (own : Bool) (c : RegCmd) (x : TableShape) (s : State) => Takes own c s ∧ s.sxtTable c.table = some x ∧ 3 ≤ x.sub ∧
      c.op = 8 ∧ x.size ≤ c.index) true (cmdOf ((stSx 0x88000002).wr Reg.sxtCmdIndex 64))
      ({ table := 2, kind := 4, sub := 3, size := 64 }) ((stSx 0x88000002).wr Reg.sxtCmdIndex 64) ∧
    (fun (own : Bool) (c : RegCmd) (s : State) => Takes own c s ∧ c.op = 1 ∧ s.sxtSub c.table ≠ some 0) true (cmdOf (stSx
      0x81000002)) (stSx 0x81000002) ∧
    (fun (own : Bool) (c : RegCmd) (s : State) => Takes own c s ∧ c.op = 2 ∧ s.sxtSub c.table ≠ some 0) true (cmdOf (stSx
      0x82000003)) (stSx 0x82000003) ∧
    (fun (own : Bool) (c : RegCmd) (s : State) => Takes own c s ∧ c.op = 3 ∧ s.sxtSub c.table ≠ some 0) true (cmdOf (stSx
      0x83000000)) (stSx 0x83000000) ∧
    (fun (own : Bool) (c : RegCmd) (s : State) => Takes own c s ∧ c.op = 4 ∧ s.sxtSub c.table ≠ some (1 + fld (imgWord c.data 4)
      31 31)) true (cmdOf (stSx 0x84000001)) (stSx 0x84000001) ∧
    (fun (own : Bool) (c : RegCmd) (s : State) => Takes own c s ∧ c.op = 5 ∧ s.sxtSub c.table ≠ some (1 + fld (imgWord c.data 4)
      31 31)) true (cmdOf (stSx 0x85000002)) (stSx 0x85000002) ∧
    (fun (own : Bool) (c : RegCmd) (s : State) => Takes own c s ∧ c.op = 6 ∧ s.sxtSub c.table ≠ some (1 + fld (imgWord c.data 4)
      31 31)) true (cmdOf (stSx 0x86000000)) (stSx 0x86000000) ∧
    (fun (own : Bool) (c : RegCmd) (s : State) => Takes own c s ∧ c.op = 7 ∧ (s.sxtSub c.table = none ∨ s.sxtSub c.table = some
      0 ∨ s.sxtSub c.table = some 1 ∨ s.sxtSub c.table = some 2)) true (cmdOf (stSx 0x87000001)) (stSx 0x87000001) ∧
    (fun (own : Bool) (c : RegCmd) (s : State) => Takes own c s ∧ c.op = 8 ∧ (s.sxtSub c.table = none ∨ s.sxtSub c.table = some
      0 ∨ s.sxtSub c.table = some 1 ∨ s.sxtSub c.table = some 2)) true (cmdOf (stSx 0x88000003)) (stSx 0x88000003) ∧
    (fun (op : Fin 256) (n : Nat) (h : Nat) (d : List Word) (s : State) => n = (s.rd Reg.sxtDmaSize).toNat ∧ h = (s.rd
      Reg.sxtDmaHead).toNat ∧ s.dmaReady = true ∧ s.sxt.dump = none ∧ s.seqTakes 1 = true ∧ s.cmdWaits op.val d = false) 3 6 63
      ([0, 0, 9]) stSxDma ∧
    (fun (op : Fin 256) (d : List Word) (s : State) => (s.dmaReady = false ∨ s.sxt.dump.isSome = true ∨ s.cmdWaits op.val d =
      true ∨ s.seqTakes 1 = false)) 3 ([0, 0, 9]) (stSx 0) ∧
    (fun (tb : Fin 256) (d : List Word) (x : DumpRun) (s : State) => s.dmaReady = true ∧ s.sxt.dump = none ∧ s.seqTakes 1 = true
      ∧ (s.sxtSub tb.val).any (fun k => decide (k ≤ 2)) = true ∧ x =
      { table := tb.val, left := (imgWord d 2).toNat, addr := imgNum d 0 2 }) 1 ([0x1000, 0, 5])
      ({ table := 1, left := 5, addr := 0x1000 }) stSxDma ∧
    (fun (x : DumpRun) (g : Nat) (recs : List (List Word)) (s : State) => s.dmaReady = true ∧ s.sxt.dump = some x ∧ x.left ≠ 0 ∧
      nextRows (s.tableRows x.table) x.next = some (g, recs)) ({ table := 1, left := 5, addr := 0x1000 }) (slotA / 8) ([emWords
      emA]) (stSxDump { table := 1, left := 5, addr := 0x1000 }) ∧
    (fun (x : DumpRun) (h : Nat) (s : State) => h = (s.rd Reg.sxtDmaHead).toNat ∧ s.dmaReady = true ∧ s.sxt.dump = some x ∧
      (x.left = 0 ∨ nextRows (s.tableRows x.table) x.next = none))
      ({ table := 1, next := slotA / 8 + 1, left := 4, count := 1, addr := 0x1020 }) 63 (stSxDump
      { table := 1, next := slotA / 8 + 1, left := 4, count := 1, addr := 0x1020 }) := by
  refine ⟨?_, ?_, ?_, ?_, ?_, ?_, ?_, ?_, ?_, ?_, ?_, ?_, ?_, ?_, ?_, ?_⟩ <;> decide +kernel

/-- SequencerOperatesOnTheTables. -/
theorem witness_SequencerOperatesOnTheTables_3 :
    (fun (tb : Fin 256) (h : Nat) (s : State) => h = (s.rd Reg.sxtDmaHead).toNat ∧ s.dmaReady = true ∧ s.sxt.dump = none ∧
      s.seqTakes 1 = true ∧ (s.sxtSub tb.val).any (fun k => decide (k ≤ 2)) = false) 2 63 stSxDma ∧
    (fun (h : Nat) (s : State) => h = (s.rd Reg.sxtDmaHead).toNat ∧ s.dmaReady = false) 0 stSx0 ∧
    (fun (h : Nat) (s : State) => h = (s.rd Reg.sxtDmaHead).toNat ∧ s.sxt.dump = none ∧ s.seqTakes 1 = false) 63
      ({ stSxDma with sxt := { stSxDma.sxt with turn := some 1, learns := [⟨1, 9, 5, 3⟩] } }) := by
  refine ⟨?_, ?_, ?_⟩ <;> decide +kernel

/-- LearnsAgeRehashAndRepair. -/
theorem witness_LearnsAgeRehashAndRepair_1 :
    (fun (l : Learn) (ls : List Learn) (i : Nat) (e : EmEntry) (s : State) => s.sxt.learns = l :: ls ∧ s.seqTakes 2 = true ∧
      s.emFind l.table l.key = some (i, e) ∧ s.emAt i = some e ∧ e.result = l.result ∧ s.bit (Reg.sxtTblCfg l.table) 30 = false)
      (⟨1, 9, 5, 3⟩) ([]) slotA emA (stSxLearn ⟨1, 9, 5, 3⟩) ∧
    (fun (l : Learn) (ls : List Learn) (i : Nat) (e : EmEntry) (s : State) => s.sxt.learns = l :: ls ∧ s.seqTakes 2 = true ∧
      s.emFind l.table l.key = some (i, e) ∧ s.emAt i = some e ∧ e.result ≠ l.result ∧ e.static = true) (⟨1, 9, 6, 3⟩) ([])
      slotA ({ emA with static := true }) (putEmA { emA with static := true } (stSxLearn ⟨1, 9, 6, 3⟩)) ∧
    (fun (l : Learn) (ls : List Learn) (i : Nat) (e : EmEntry) (s : State) => s.sxt.learns = l :: ls ∧ s.seqTakes 2 = true ∧
      s.emFind l.table l.key = some (i, e) ∧ s.emAt i = some e ∧ e.result ≠ l.result ∧ (e.static = false ∧ e.frozen = true))
      (⟨1, 9, 6, 3⟩) ([]) slotA ({ emA with frozen := true }) (putEmA { emA with frozen := true } (stSxLearn ⟨1, 9, 6, 3⟩)) ∧
    (fun (l : Learn) (ls : List Learn) (i : Nat) (e : EmEntry) (s : State) => s.sxt.learns = l :: ls ∧ s.seqTakes 2 = true ∧
      s.emFind l.table l.key = some (i, e) ∧ s.emAt i = some e ∧ e.result ≠ l.result ∧ e.static = false ∧ e.frozen = false ∧
      s.bit (Reg.sxtTblCfg l.table) 30 = true) (⟨1, 9, 6, 3⟩) ([]) slotA emA ((stSxLearn ⟨1, 9, 6, 3⟩).setBit (Reg.sxtTblCfg 1)
      30 true) ∧
    (fun (l : Learn) (ls : List Learn) (i : Nat) (e : EmEntry) (s : State) => s.sxt.learns = l :: ls ∧ s.seqTakes 2 = true ∧
      s.emFind l.table l.key = some (i, e) ∧ s.emAt i = some e ∧ e.result ≠ l.result ∧ e.static = false ∧ e.frozen = false ∧
      s.bit (Reg.sxtTblCfg l.table) 30 = false ∧ e.moves < s.moveLimit) (⟨1, 9, 6, 3⟩) ([]) slotA emA (stSxLearn ⟨1, 9, 6, 3⟩) ∧
    (fun (l : Learn) (ls : List Learn) (i : Nat) (e : EmEntry) (s : State) => s.sxt.learns = l :: ls ∧ s.seqTakes 2 = true ∧
      s.emFind l.table l.key = some (i, e) ∧ s.emAt i = some e ∧ e.result ≠ l.result ∧ e.static = false ∧ e.frozen = false ∧
      s.bit (Reg.sxtTblCfg l.table) 30 = false ∧ s.moveLimit ≤ e.moves) (⟨1, 9, 6, 3⟩) ([]) slotA ({ emA with moves := 4 })
      (putEmA { emA with moves := 4 } (stSxLearn ⟨1, 9, 6, 3⟩)) ∧
    (fun (l : Learn) (ls : List Learn) (s : State) => s.sxt.learns = l :: ls ∧ s.seqTakes 2 = true ∧ s.emFind l.table l.key =
      none ∧ s.bit (Reg.sxtTblCfg l.table) 30 = true) (⟨1, 8, 5, 3⟩) ([]) ((stSxLearn ⟨1, 8, 5, 3⟩).setBit (Reg.sxtTblCfg 1) 30
      true) ∧
    (fun (l : Learn) (ls : List Learn) (i : Nat) (s : State) => s.sxt.learns = l :: ls ∧ s.seqTakes 2 = true ∧ s.emFind l.table
      l.key = none ∧ s.bit (Reg.sxtTblCfg l.table) 30 = false ∧ s.dynCount < 1048576 ∧ (s.cands false (s.dual false) l.table
      l.key).find? (fun j => (s.emAt j).isNone) = some i) (⟨1, 8, 5, 3⟩) ([]) slot8 (stSxLearn ⟨1, 8, 5, 3⟩) ∧
    (fun (l : Learn) (ls : List Learn) (s : State) => s.sxt.learns = l :: ls ∧ s.seqTakes 2 = true ∧ s.emFind l.table l.key =
      none ∧ s.bit (Reg.sxtTblCfg l.table) 30 = false ∧ s.dynCount < 1048576 ∧ (s.emPlace
      { table := l.table, key := l.key, result := l.result }).1 = none) (⟨1, 8, 5, 3⟩) ([])
      ({ stSxFull true 0 with sxt := { (stSxFull true 0).sxt with learns := [⟨1, 8, 5, 3⟩], winq := [], winAhead := 9 } }) ∧
    (fun (s : State) => (s.sxt.learns = [] ∨ s.seqTakes 2 = false)) stSx0 ∧
    (fun (at' : Raw) (s : State) (u : State) => u = s.advance at' ∧ u.raw.toNat % 65536000000000 = 0) 0 (putEmA
      { emA with moves := 4 } stSx0) (putEmA { emA with moves := 4 } stSx0) ∧
    (fun (at' : Raw) (s : State) (u : State) => u = s.advance at' ∧ u.raw.toNat % 65536000000000 ≠ 0) 65536 stSx0 (stSx0.advance
      65536) ∧
    (fun (slot : Fin 4980736) (at' : Raw) (e : EmEntry) (s : State) (u : State) => u = s.advance at' ∧ u.emAt slot.val = some e
      ∧ (e.static = true ∨ u.bit (Reg.sxtTblCfg e.table) 29 = false ∨ u.ageTime = 0 ∨ u.seqTakes 3 = false ∨ u.raw.toNat <
      (u.sxt.swept.get (fun _ => 0) slot.val).toNat + u.ageTime * 16384000000000)) (Fin.ofNat 4980736 slotA) 0 emA stSx0 stSx0 ∧
    (fun (slot : Fin 4980736) (at' : Raw) (s : State) (u : State) => u = s.advance at' ∧ u.emAt slot.val = none) 13 0 stSx0
      stSx0 ∧
    (fun (slot : Fin 4980736) (at' : Raw) (e : EmEntry) (frz : Nat) (s : State) (u : State) => u = s.advance at' ∧ u.emAt
      slot.val = some e ∧ (frz = (if u.sxtExpert = true ∧ e.frozen = true then u.fld Reg.sxtExpCfg 7 0 else 0)) ∧ e.static =
      false ∧ u.bit (Reg.sxtTblCfg e.table) 29 = true ∧ u.ageTime ≠ 0 ∧ u.seqTakes 3 = true ∧ (u.sxt.swept.get (fun _ => 0)
      slot.val).toNat + u.ageTime * 16384000000000 ≤ u.raw.toNat ∧ e.hit = true) (Fin.ofNat 4980736 slotA) 5242880000000000
      ({ emA with hit := true }) 0 (stSxAge { emA with hit := true }) (stSxAge { emA with hit := true }) ∧
    (fun (slot : Fin 4980736) (at' : Raw) (e : EmEntry) (frz : Nat) (s : State) (u : State) => u = s.advance at' ∧ u.emAt
      slot.val = some e ∧ (frz = (if u.sxtExpert = true ∧ e.frozen = true then u.fld Reg.sxtExpCfg 7 0 else 0)) ∧ e.static =
      false ∧ u.bit (Reg.sxtTblCfg e.table) 29 = true ∧ u.ageTime ≠ 0 ∧ u.seqTakes 3 = true ∧ (u.sxt.swept.get (fun _ => 0)
      slot.val).toNat + u.ageTime * 16384000000000 ≤ u.raw.toNat ∧ e.hit = false ∧ e.age < 2) (Fin.ofNat 4980736 slotA)
      5242880000000000 emA 0 (stSxAge emA) (stSxAge emA) := by
  refine ⟨?_, ?_, ?_, ?_, ?_, ?_, ?_, ?_, ?_, ?_, ?_, ?_, ?_, ?_, ?_, ?_⟩ <;> decide +kernel

/-- LearnsAgeRehashAndRepair. -/
theorem witness_LearnsAgeRehashAndRepair_2 :
    (fun (slot : Fin 4980736) (at' : Raw) (e : EmEntry) (frz : Nat) (s : State) (u : State) => u = s.advance at' ∧ u.emAt
      slot.val = some e ∧ (frz = (if u.sxtExpert = true ∧ e.frozen = true then u.fld Reg.sxtExpCfg 7 0 else 0)) ∧ e.static =
      false ∧ u.bit (Reg.sxtTblCfg e.table) 29 = true ∧ u.ageTime ≠ 0 ∧ u.seqTakes 3 = true ∧ (u.sxt.swept.get (fun _ => 0)
      slot.val).toNat + u.ageTime * 16384000000000 ≤ u.raw.toNat ∧ e.hit = false ∧ 2 ≤ e.age) (Fin.ofNat 4980736 slotA)
      5242880000000000 ({ emA with age := 2 }) 0 (stSxAge { emA with age := 2 }) (stSxAge { emA with age := 2 }) ∧
    (fun (n : Note) (ns : List Note) (s : State) => s.sxt.notes = n :: ns ∧ n.data.length ≤ 4) (⟨0x81000105, [1, 2, 3, 4]⟩) ([])
      ({ stSx0 with sxt := { notes := [⟨0x81000105, [1, 2, 3, 4]⟩] } }) ∧
    (fun (s : State) => s.sxt.notes = []) stSx0 ∧
    (fun (slot : Nat) (s : State) => (s.rehashNext ≠ some slot ∨ s.seqTakes 4 = false)) slotA (stSxRehash
      { emA with fresh := true }) ∧
    (fun (slot : Nat) (e : EmEntry) (s : State) => s.rehashNext = some slot ∧ s.seqTakes 4 = true ∧ s.slotAt s.rehashLpm slot =
      some e ∧ (s.hashPlace s.rehashLpm e).1.isSome = true) slotA emA (stSxRehash emA) ∧
    (fun (slot : Nat) (e : EmEntry) (s : State) => s.rehashNext = some slot ∧ s.seqTakes 4 = true ∧ s.slotAt s.rehashLpm slot =
      some e ∧ (s.hashPlace s.rehashLpm e).1 = none) 0 emA stSxRehashFull ∧
    (fun (lp : Bool) (s : State) => lp = s.rehashLpm ∧ s.sxt.rehash = true ∧ s.rehashNext = none) false (stSxRehash
      { emA with fresh := true }) ∧
    (fun (lp : Bool) (s : State) => lp = s.rehashLpm ∧ (s.sxt.rehash = false ∨ s.rehashNext.isSome = true)) false (stSxRehash
      emA) ∧
    (fun (root : Nat × Nat) (rest : List (Nat × Nat)) (s : State) => s.sxt.trie = some (root :: rest) ∧ s.opArg .trieRebuild /
      8192 % 2 = 0 ∧ s.lpmFits root.2 = true) ((2, 0)) ([]) stSxTrie ∧
    (fun (root : Nat × Nat) (rest : List (Nat × Nat)) (s : State) => s.sxt.trie = some (root :: rest) ∧ s.opArg .trieRebuild /
      8192 % 2 = 0 ∧ s.lpmFits root.2 = false) ((2, 0)) ([]) stSxRoots ∧
    (fun (root : Nat × Nat) (rest : List (Nat × Nat)) (s : State) => s.sxt.trie = some (root :: rest) ∧ s.opArg .trieRebuild /
      8192 % 2 = 1 ∧ s.fld Reg.sxtTrieCount 20 0 = 0 ∧ s.dev.body.carve.full = true ∧ (s.trieContent root []).lpmFits root.2 =
      true) ((2, 0)) ([]) (stSxTrie.wr (opCtrl .trieRebuild) 0x2002) ∧
    (fun (records : List (List Word)) (root : Nat × Nat) (rest : List (Nat × Nat)) (s : State) => s.sxt.trie = some (root ::
      rest) ∧ s.opArg .trieRebuild / 8192 % 2 = 1 ∧ (s.trieContent root records).lpmFits root.2 = false) ([]) ((2, 0)) ([])
      (stSxRoots.wr (opCtrl .trieRebuild) 0x2002) ∧
    (fun (records : List (List Word)) (root : Nat × Nat) (rest : List (Nat × Nat)) (s : State) => s.sxt.trie = some (root ::
      rest) ∧ s.opArg .trieRebuild / 8192 % 2 = 1 ∧ s.dev.body.carve.full = true ∧ (s.trieContent root records).lpmFits root.2 =
      true ∧ (∀ d ∈ records.take (s.fld Reg.sxtTrieCount 20 0), fld (imgWord d 4) 23 16 ≤ famBits root.2) ∧ root.1 < 4096 ∧
      root.2 < 2) ([]) ((2, 0)) ([]) (stSxTrie.wr (opCtrl .trieRebuild) 0x2002) ∧
    (fun (s : State) => s.sxt.trie.isSome = true) stSxTrie ∧
    (fun (s : State) => s.sxt.trie = none) stSx0 ∧
    (fun (x : FixRun) (s : State) => s.sxt.fix = some x ∧ x.block < (s.rd Reg.sxtFixBlocks).toNat ∧ s.dev.perstLow = false) ({})
      stSxFix := by
  refine ⟨?_, ?_, ?_, ?_, ?_, ?_, ?_, ?_, ?_, ?_, ?_, ?_, ?_, ?_, ?_, ?_⟩ <;> decide +kernel

/-- LearnsAgeRehashAndRepair. -/
theorem witness_LearnsAgeRehashAndRepair_3 :
    (fun (s : State) => (s.dev.perstLow = true ∨ (s.sxt.fix.all fun x => decide ((s.rd Reg.sxtFixBlocks).toNat ≤ x.block)) =
      true)) stSx0 ∧
    (fun (w : Word) (v : Word) (x : FixRun) (t0 : Nat) (i : Nat) (s : State) => s.sxt.fix = some x ∧ x.block < (s.rd
      Reg.sxtFixBlocks).toNat ∧ s.dev.perstLow = false ∧ t0 = s.opArg .fixCheck % 256 ∧ s.sxtSub t0 = some 3 ∧ i = s.fld
      Reg.sxtFixStart 19 0 + x.block * 512 ∧ s.directAt t0 i = BitVec.ofNat 64 (imgNum [w, v] 0 2)) 0 0 ({}) 2 0 stSxFix ∧
    (fun (w : Word) (v : Word) (x : FixRun) (t0 : Nat) (i : Nat) (s : State) => s.sxt.fix = some x ∧ x.block < (s.rd
      Reg.sxtFixBlocks).toNat ∧ s.dev.perstLow = false ∧ t0 = s.opArg .fixCheck % 256 ∧ s.sxtSub t0 = some 3 ∧ i = s.fld
      Reg.sxtFixStart 19 0 + x.block * 512 ∧ s.directAt t0 i ≠ BitVec.ofNat 64 (imgNum [w, v] 0 2)) 5 6 ({}) 2 0 ((((stSxFix.wr
      (opCtrl .fixCheck) 0x102).setBit Reg.sxtCtrl 31 true).wr Reg.sxtFixListMax 4)) ∧
    (fun (x : FixRun) (s : State) => s.sxt.fix = some x ∧ (s.rd Reg.sxtFixBlocks).toNat ≤ x.block ∧ (s.sxt.winq.any fun c =>
      c.repair.isSome) = false) ({ block := 2, records := 3 })
      ({ stSxFix with sxt := { stSxFix.sxt with fix := some { block := 2, records := 3 } } }) ∧
    (fun (x : FixRun) (s : State) => s.sxt.fix = some x ∧ (x.block < (s.rd Reg.sxtFixBlocks).toNat ∨ (s.sxt.winq.any fun c =>
      c.repair.isSome) = true)) ({}) stSxFix ∧
    (fun (s : State) => s.sxt.fix = none) stSx0 := by
  refine ⟨?_, ?_, ?_, ?_, ?_, ?_⟩ <;> decide +kernel

/-- LanesGroupsAndCellsFollowRhumb. -/
theorem witness_LanesGroupsAndCellsFollowRhumb_1 :
    (fun (s : State) => s.dev.mode ≠ .load) (stRhb .active 0) ∧
    (fun (s : State) => s.dev.mode = .load) (stRhb .load 0) ∧
    (fun (l : Fin 64) (bs : List Byte) (g : Nat) (skew : Nat) (m : Marker) (at' : Raw) (s : State) (u : State) => u = s.advance
      at' ∧ (u.lane l.val).badRun < 8 ∧ u.bit (Reg.rhbLaneStatus l.val) 29 = true ∧ u.laneGroup l.val = some g ∧ (u.bit
      (Reg.rhbLaneStatus l.val) 28 = true → (u.lane l.val).since = 8192 * 256) ∧ u.bit (Reg.rhbGrpCfg g) 31 = true ∧ parseMarker
      bs = some m ∧ u.grpHeld g = 0 ∧ skew = (u.raw - (((u.group g).firstAt.filter (fun a => a.1 == m.count)).getD (m.count,
      u.raw)).2).toNat / 65536 ∧ ((u.group g).peer = none ∨ (u.group g).peer = some (m.src, m.grp)) ∧ (u.logicalHeld g l.val
      m.logical = false ∨ (u.bit (Reg.rhbLaneStatus l.val) 28 = true ∧ u.fld (Reg.rhbLaneStatus l.val) 20 16 = m.logical))) 2
      markA 0 513 ({ src := 5, grp := 0, logical := 2, active := 3, rxOk := 3, count := 9 }) 33619968
      ({ stRhb .active 0x20000000 with rhb := { groups := SMap.set (fun _ => {}) [] 0 { firstAt := some (9, 0) } } })
      ({ stRhb .active 0x20000000 with rhb := { groups := SMap.set (fun _ => {}) [] 0 { firstAt := some (9, 0) } } }.advance
      33619968) ∧
    (fun (l : Fin 64) (bs : List Byte) (g : Nat) (skew : Nat) (m : Marker) (at' : Raw) (s : State) (u : State) => u = s.advance
      at' ∧ (u.lane l.val).badRun < 8 ∧ u.bit (Reg.rhbLaneStatus l.val) 29 = true ∧ u.laneGroup l.val = some g ∧ (u.bit
      (Reg.rhbLaneStatus l.val) 28 = true → (u.lane l.val).since = 8192 * 256) ∧ u.bit (Reg.rhbGrpCfg g) 31 = true ∧ parseMarker
      bs = some m ∧ u.grpHeld g = 0 ∧ skew = (u.raw - (((u.group g).firstAt.filter (fun a => a.1 == m.count)).getD (m.count,
      u.raw)).2).toNat / 65536 ∧ ((u.group g).peer.any (fun p => p != (m.src, m.grp)) = true ∨ ((u.group g).peer = none ∧ u.bit
      (Reg.rhbLaneStatus l.val) 28 = false ∧ u.logicalHeld g l.val m.logical = true))) 2 markA 0 0
      ({ src := 5, grp := 0, logical := 2, active := 3, rxOk := 3, count := 9 }) 0
      ({ stRhb .active 0x20000000 with rhb := { groups := SMap.set (fun _ => {}) [] 0 { peer := some (6, 0) } } })
      ({ stRhb .active 0x20000000 with rhb := { groups := SMap.set (fun _ => {}) [] 0 { peer := some (6, 0) } } }) ∧
    (fun (l : Fin 64) (bs : List Byte) (g : Nat) (at' : Raw) (s : State) (u : State) => u = s.advance at' ∧ (u.lane
      l.val).badRun < 8 ∧ u.bit (Reg.rhbLaneStatus l.val) 29 = true ∧ u.laneGroup l.val = some g ∧ parseMarker bs = none ∧ u.bit
      (Reg.rhbLaneStatus l.val) 28 = true ∧ (u.lane l.val).since = 8192 * 256 ∧ (u.lane l.val).missed = 0) 1 ([1, 2]) 0 0
      ({ stRhbUp with rhb := { lanes := SMap.set (fun _ => {}) [] 1 { since := 2097152 } } })
      ({ stRhbUp with rhb := { lanes := SMap.set (fun _ => {}) [] 1 { since := 2097152 } } }) ∧
    (fun (l : Fin 64) (bs : List Byte) (g : Nat) (at' : Raw) (s : State) (u : State) => u = s.advance at' ∧ (u.lane
      l.val).badRun < 8 ∧ u.bit (Reg.rhbLaneStatus l.val) 29 = true ∧ u.laneGroup l.val = some g ∧ parseMarker bs = none ∧ u.bit
      (Reg.rhbLaneStatus l.val) 28 = true ∧ (u.lane l.val).since = 8192 * 256 ∧ 1 ≤ (u.lane l.val).missed) 1 ([1, 2]) 0 0
      ({ stRhbUp with rhb := { lanes := SMap.set (fun _ => {}) [] 1 { since := 2097152, missed := 1 } } })
      ({ stRhbUp with rhb := { lanes := SMap.set (fun _ => {}) [] 1 { since := 2097152, missed := 1 } } }) ∧
    (fun (l : Fin 64) (bs : List Byte) (g : Nat) (at' : Raw) (s : State) (u : State) => u = s.advance at' ∧ (u.lane
      l.val).badRun < 8 ∧ u.bit (Reg.rhbLaneStatus l.val) 29 = true ∧ u.laneGroup l.val = some g ∧ parseMarker bs = none ∧ u.bit
      (Reg.rhbLaneStatus l.val) 28 = false) 1 ([1, 2]) 0 0 (stRhb .active 0x20000000) (stRhb .active 0x20000000) ∧
    (fun (l : Fin 64) (at' : Raw) (s : State) (u : State) => u = s.advance at' ∧ (u.laneGroup l.val = none ∨ u.bit
      (Reg.rhbLaneStatus l.val) 29 = false ∨ (u.bit (Reg.rhbLaneStatus l.val) 28 = true ∧ (u.lane l.val).since ≠ 8192 * 256))) 9
      0 stRhbUp stRhbUp ∧
    (fun (l : Fin 64) (s : State) => (s.bit (Reg.rhbLaneStatus l.val) 29 = false ∨ s.bit (Reg.rhbLaneStatus l.val) 28 = false ∨
      8192 * 256 ≤ (s.lane l.val).since)) 1 (stRhb .active 0) ∧
    (fun (l : Fin 64) (bs : List Byte) (b : Bool) (s : State) => s.bit (Reg.rhbLaneStatus l.val) 29 = true ∧ s.bit
      (Reg.rhbLaneStatus l.val) 28 = true ∧ (s.lane l.val).since < 8192 * 256 ∧ s.fld (Reg.rhbLaneStatus l.val) 31 30 = 1 ∧ ofBe
      ((bs.drop 14).take 2) = hcs (bs.take 14) ∧ (s.lane l.val).left = 0 ∧ (s.lane l.val).badRun < 8 ∧ (s.lane l.val).badRun +
      ofBool b < 8) 1 (cellBytes 1 3) false (stRhb .active 0x70000000) ∧
    (fun (l : Fin 64) (bs : List Byte) (b : Bool) (s : State) => s.bit (Reg.rhbLaneStatus l.val) 29 = true ∧ s.bit
      (Reg.rhbLaneStatus l.val) 28 = true ∧ (s.lane l.val).since < 8192 * 256 ∧ s.fld (Reg.rhbLaneStatus l.val) 31 30 = 1 ∧ ofBe
      ((bs.drop 14).take 2) = hcs (bs.take 14) ∧ (s.lane l.val).left = 0 ∧ (s.lane l.val).badRun < 8 ∧ b = true ∧ (s.lane
      l.val).badRun = 7) 1 (cellBytes 1 3) true
      ({ stRhb .active 0x70000000 with rhb := { lanes := SMap.set (fun _ => {}) [] 1 { badRun := 7 } } }) ∧
    (fun (l : Fin 64) (bs : List Byte) (g : Nat) (good : Bool) (s : State) => s.bit (Reg.rhbLaneStatus l.val) 29 = true ∧ s.bit
      (Reg.rhbLaneStatus l.val) 28 = true ∧ (s.lane l.val).since < 8192 * 256 ∧ good = (ofBe ((bs.drop 14).take 2) == hcs
      (bs.take 14)) ∧ (s.lane l.val).badRun < 8 ∧ s.laneGroup l.val = some g ∧ s.fld (Reg.rhbLaneStatus l.val) 31 30 = 0) 1
      (cellBytes 1 3) 0 true (stRhb .active 0x30000000) ∧
    (fun (l : Fin 64) (bs : List Byte) (g : Nat) (good : Bool) (s : State) => s.bit (Reg.rhbLaneStatus l.val) 29 = true ∧ s.bit
      (Reg.rhbLaneStatus l.val) 28 = true ∧ (s.lane l.val).since < 8192 * 256 ∧ good = (ofBe ((bs.drop 14).take 2) == hcs
      (bs.take 14)) ∧ (s.lane l.val).badRun < 8 ∧ s.laneGroup l.val = some g ∧ s.fld (Reg.rhbLaneStatus l.val) 31 30 = 1) 1
      (cellBytes 1 3) 0 true (stRhb .active 0x70000000) ∧
    (fun (l : Fin 64) (bs : List Byte) (g : Nat) (good : Bool) (s : State) => s.bit (Reg.rhbLaneStatus l.val) 29 = true ∧ s.bit
      (Reg.rhbLaneStatus l.val) 28 = true ∧ (s.lane l.val).since < 8192 * 256 ∧ good = (ofBe ((bs.drop 14).take 2) == hcs
      (bs.take 14)) ∧ (s.lane l.val).badRun < 8 ∧ s.laneGroup l.val = some g ∧ s.fld (Reg.rhbLaneStatus l.val) 31 30 = 2 ∧ good
      = false ∧ s.grpHeld g = 0) 1 ([]) 0 false stRhbUp ∧
    (fun (l : Fin 64) (bs : List Byte) (c : Cell) (g : Nat) (p : Nat) (s : State) => c = parseCell (s.descrambled l.val bs).1 ∧
      s.bit (Reg.rhbLaneStatus l.val) 29 = true ∧ s.bit (Reg.rhbLaneStatus l.val) 28 = true ∧ (s.lane l.val).since < 8192 * 256
      ∧ s.fld (Reg.rhbLaneStatus l.val) 31 30 = 2 ∧ ofBe ((bs.drop 14).take 2) = hcs (bs.take 14) ∧ (s.lane l.val).badRun < 8 ∧
      (s.lane l.val).bad = false ∧ s.laneGroup l.val = some g ∧ s.grpHeld g = 0 ∧ (lanesOf (s.group g).rxActive)[(s.group
      g).rxPos % (lanesOf (s.group g).rxActive).length]? = some p ∧ s.stripeLane g p = some l.val ∧ (s.lane l.val).era =
      (s.group g).rxCount ∧ 8 ≤ c.label) 1 (cellBytes 8 0) (parseCell (stRhbRx.descrambled 1 (cellBytes 8 0)).1) 0 1 stRhbRx ∧
    (fun (l : Fin 64) (bs : List Byte) (c : Cell) (g : Nat) (p : Nat) (s : State) => c = parseCell (s.descrambled l.val bs).1 ∧
      s.bit (Reg.rhbLaneStatus l.val) 29 = true ∧ s.bit (Reg.rhbLaneStatus l.val) 28 = true ∧ (s.lane l.val).since < 8192 * 256
      ∧ s.fld (Reg.rhbLaneStatus l.val) 31 30 = 2 ∧ ofBe ((bs.drop 14).take 2) = hcs (bs.take 14) ∧ (s.lane l.val).badRun < 8 ∧
      (s.lane l.val).bad = false ∧ s.laneGroup l.val = some g ∧ s.grpHeld g = 0 ∧ (lanesOf (s.group g).rxActive)[(s.group
      g).rxPos % (lanesOf (s.group g).rxActive).length]? = some p ∧ s.stripeLane g p = some l.val ∧ (s.lane l.val).era =
      (s.group g).rxCount ∧ 1 ≤ c.label ∧ c.label ≤ 7 ∧ (c.dest ≠ s.devId ∨ (c.src = s.devId ∧ s.loopback g = false))) 1
      (cellBytes 1 3) (parseCell (stRhbRx.descrambled 1 (cellBytes 1 3)).1) 0 1 stRhbRx := by
  refine ⟨?_, ?_, ?_, ?_, ?_, ?_, ?_, ?_, ?_, ?_, ?_, ?_, ?_, ?_, ?_, ?_⟩ <;> decide +kernel

/-- LanesGroupsAndCellsFollowRhumb. -/
theorem witness_LanesGroupsAndCellsFollowRhumb_2 :
    (fun (l : Fin 64) (bs : List Byte) (c : Cell) (g : Nat) (p : Nat) (s : State) => c = parseCell (s.descrambled l.val bs).1 ∧
      s.bit (Reg.rhbLaneStatus l.val) 29 = true ∧ s.bit (Reg.rhbLaneStatus l.val) 28 = true ∧ (s.lane l.val).since < 8192 * 256
      ∧ s.fld (Reg.rhbLaneStatus l.val) 31 30 = 2 ∧ ofBe ((bs.drop 14).take 2) = hcs (bs.take 14) ∧ (s.lane l.val).badRun < 8 ∧
      (s.lane l.val).bad = false ∧ s.laneGroup l.val = some g ∧ s.grpHeld g = 0 ∧ (lanesOf (s.group g).rxActive)[(s.group
      g).rxPos % (lanesOf (s.group g).rxActive).length]? = some p ∧ s.stripeLane g p = some l.val ∧ (s.lane l.val).era =
      (s.group g).rxCount ∧ 1 ≤ c.label ∧ c.label ≤ 7 ∧ c.dest = s.devId ∧ c.src ≠ s.devId ∧ rxLabel s.dev.mode c.label = false)
      1 (cellBytes 1 0) (parseCell (stRhbRx.descrambled 1 (cellBytes 1 0)).1) 0 1
      ({ stRhbRx with dev := { stRhbRx.dev with mode := .safe } }) ∧
    (fun (l : Fin 64) (bs : List Byte) (c : Cell) (g : Nat) (p : Nat) (s : State) => c = parseCell (s.descrambled l.val bs).1 ∧
      s.bit (Reg.rhbLaneStatus l.val) 29 = true ∧ s.bit (Reg.rhbLaneStatus l.val) 28 = true ∧ (s.lane l.val).since < 8192 * 256
      ∧ s.fld (Reg.rhbLaneStatus l.val) 31 30 = 2 ∧ ofBe ((bs.drop 14).take 2) = hcs (bs.take 14) ∧ (s.lane l.val).badRun < 8 ∧
      (s.lane l.val).bad = false ∧ s.laneGroup l.val = some g ∧ s.grpHeld g = 0 ∧ (lanesOf (s.group g).rxActive)[(s.group
      g).rxPos % (lanesOf (s.group g).rxActive).length]? = some p ∧ s.stripeLane g p = some l.val ∧ (s.lane l.val).era =
      (s.group g).rxCount ∧ c.label = 0) 1 (cellBytes 0 0) (parseCell (stRhbRx.descrambled 1 (cellBytes 0 0)).1) 0 1 stRhbRx ∧
    (fun (l : Fin 64) (bs : List Byte) (c : Cell) (g : Nat) (p : Nat) (s : State) => c = parseCell (s.descrambled l.val bs).1 ∧
      s.bit (Reg.rhbLaneStatus l.val) 29 = true ∧ s.bit (Reg.rhbLaneStatus l.val) 28 = true ∧ (s.lane l.val).since < 8192 * 256
      ∧ s.fld (Reg.rhbLaneStatus l.val) 31 30 = 2 ∧ ofBe ((bs.drop 14).take 2) = hcs (bs.take 14) ∧ (s.lane l.val).badRun < 8 ∧
      (s.lane l.val).bad = false ∧ s.laneGroup l.val = some g ∧ s.grpHeld g = 0 ∧ (lanesOf (s.group g).rxActive)[(s.group
      g).rxPos % (lanesOf (s.group g).rxActive).length]? = some p ∧ s.stripeLane g p = some l.val ∧ (s.lane l.val).era =
      (s.group g).rxCount ∧ c.label = 1 ∧ c.dest = s.devId ∧ c.src ≠ s.devId ∧ c.spray = false ∧ rxLabel s.dev.mode 1 = true ∧
      c.first = true ∧ c.last = false ∧ 72 ≤ c.port ∧ s.reasmCtx (c.src * 16 + c.grp) = {}) 1 cellFirst (parseCell
      (stRhbRx.descrambled 1 cellFirst).1) 0 1 stRhbRx ∧
    (fun (l : Fin 64) (bs : List Byte) (c : Cell) (g : Nat) (p : Nat) (s : State) => c = parseCell (s.descrambled l.val bs).1 ∧
      s.bit (Reg.rhbLaneStatus l.val) 29 = true ∧ s.bit (Reg.rhbLaneStatus l.val) 28 = true ∧ (s.lane l.val).since < 8192 * 256
      ∧ s.fld (Reg.rhbLaneStatus l.val) 31 30 = 2 ∧ ofBe ((bs.drop 14).take 2) = hcs (bs.take 14) ∧ (s.lane l.val).badRun < 8 ∧
      (s.lane l.val).bad = false ∧ s.laneGroup l.val = some g ∧ s.grpHeld g = 0 ∧ (lanesOf (s.group g).rxActive)[(s.group
      g).rxPos % (lanesOf (s.group g).rxActive).length]? = some p ∧ (s.stripeLane g p).any (fun k => k != l.val) = true) 1
      (cellBytes 1 3) (parseCell (stRhbRx.descrambled 1 (cellBytes 1 3)).1) 0 0
      ({ stRhbRx with rhb := { stRhbRx.rhb with groups := SMap.set (fun _ => {}) [] 0 { peer := some (5, 0), rxCount := some 0, rxActive := 3, rxPos := 0 } } }) ∧
    (fun (d : Fin 1024) (at' : Raw) (e : Raw) (s : State) (u : State) => u = s.advance at' ∧ (u.toward d.val).drain = some e ∧
      u.reached e = true) 5 65536 65536 stToward (stToward.advance 65536) ∧
    (fun (d : Fin 1024) (at' : Raw) (e : Raw) (s : State) (u : State) => u = s.advance at' ∧ (u.toward d.val).drain = some e ∧
      u.reached e = false) 5 0 65536 stToward stToward ∧
    (fun (d : Fin 1024) (at' : Raw) (s : State) (u : State) => u = s.advance at' ∧ (u.toward d.val).drain = none) 6 0 stToward
      stToward ∧
    (fun (src : Fin 1024) (at' : Raw) (r : Raw) (e : Nat) (c : Cell) (x : Reseq) (s : State) (u : State) => u = s.advance at' ∧
      x = u.reseqCtx src.val ∧ x.held = [(c, r)] ∧ x.expect = some e ∧ (c.first = true ∧ c.last = false ∧ 72 ≤ c.port) ∧
      u.reasmCtx (16384 + src.val) = {} ∧ u.reached (r + BitVec.ofNat 96 (u.reseqUs * 65536000)) = true) 5 1310720000 0 7
      cellHeld ({ expect := some 7, held := [(cellHeld, 0)] }) stReseq (stReseq.advance 1310720000) ∧
    (fun (src : Fin 1024) (at' : Raw) (r : Raw) (c : Cell) (x : Reseq) (s : State) (u : State) => u = s.advance at' ∧ x =
      u.reseqCtx src.val ∧ x.held = [(c, r)] ∧ u.reached (r + BitVec.ofNat 96 (u.reseqUs * 65536000)) = false) 5 65536 0
      cellHeld ({ expect := some 7, held := [(cellHeld, 0)] }) stReseq (stReseq.advance 65536) ∧
    (fun (src : Fin 1024) (at' : Raw) (x : Reseq) (s : State) (u : State) => u = s.advance at' ∧ x = u.reseqCtx src.val ∧ x.held
      = [] ∧ u.reached (x.lastAt + BitVec.ofNat 96 (u.reseqUs * 65536000)) = true) 6 1310720000 ({}) stReseq (stReseq.advance
      1310720000) ∧
    (fun (ctx : Fin 17408) (at' : Raw) (c : Cell) (x : Reasm) (s : State) (u : State) => u = s.advance at' ∧ x = u.reasmCtx
      ctx.val ∧ x.first = some c ∧ u.reached (x.lastAt + BitVec.ofNat 96 (u.reasmUs * 65536000)) = true ∧ x.lost = false ∧
      x.cells = [] ∧ (c.port < 48 ∨ 72 ≤ c.port)) 80 6553600000 cellHeld (stReasm.reasmCtx 80) stReasm (stReasm.advance
      6553600000) ∧
    (fun (ctx : Fin 17408) (at' : Raw) (c : Cell) (x : Reasm) (s : State) (u : State) => u = s.advance at' ∧ x = u.reasmCtx
      ctx.val ∧ x.first = some c ∧ u.reached (x.lastAt + BitVec.ofNat 96 (u.reasmUs * 65536000)) = true ∧ x.lost = false ∧ 48 ≤
      c.port ∧ c.port < 72 ∧ x.cells = [] ∧ (u.netPort (c.port - 48)).tx = none) 80 6553600000 ({ cellHeld with port := 50 })
      (stReasm50.reasmCtx 80) stReasm50 (stReasm50.advance 6553600000) ∧
    (fun (ctx : Fin 17408) (at' : Raw) (c : Cell) (x : Reasm) (s : State) (u : State) => u = s.advance at' ∧ x = u.reasmCtx
      ctx.val ∧ x.first = some c ∧ u.reached (x.lastAt + BitVec.ofNat 96 (u.reasmUs * 65536000)) = true ∧ x.lost = false ∧
      c.port < 48) 80 6553600000 ({ cellHeld with port := 5 }) (stReasmP.reasmCtx 80) stReasmP (stReasmP.advance 6553600000) ∧
    (fun (ctx : Fin 17408) (at' : Raw) (c : Cell) (x : Reasm) (s : State) (u : State) => u = s.advance at' ∧ x = u.reasmCtx
      ctx.val ∧ x.first = some c ∧ u.reached (x.lastAt + BitVec.ofNat 96 (u.reasmUs * 65536000)) = true ∧ x.lost = true ∧
      x.cells = []) 80 6553600000 cellHeld (stReasmL.reasmCtx 80) stReasmL (stReasmL.advance 6553600000) ∧
    (fun (ctx : Fin 17408) (at' : Raw) (c : Cell) (x : Reasm) (s : State) (u : State) => u = s.advance at' ∧ x = u.reasmCtx
      ctx.val ∧ x.first = some c ∧ u.reached (x.lastAt + BitVec.ofNat 96 (u.reasmUs * 65536000)) = false) 80 65536 cellHeld
      (stReasm.reasmCtx 80) stReasm (stReasm.advance 65536) ∧
    (fun (ctx : Fin 17408) (at' : Raw) (s : State) (u : State) => u = s.advance at' ∧ (u.reasmCtx ctx.val).first = none) 81 0
      stReasm stReasm := by
  refine ⟨?_, ?_, ?_, ?_, ?_, ?_, ?_, ?_, ?_, ?_, ?_, ?_, ?_, ?_, ?_, ?_⟩ <;> decide +kernel

/-- LanesGroupsAndCellsFollowRhumb. -/
theorem witness_LanesGroupsAndCellsFollowRhumb_3 :
    (fun (s : State) => (s.dev.mode = .load ∨ s.dev.mode = .commission)) (stRhb .load 0) ∧
    (fun (s : State) => s.dev.mode ≠ .load ∧ s.dev.mode ≠ .commission) stRhbUp ∧
    (fun (g : Fin 16) (at' : Raw) (x : Group) (l : Nat) (i : Nat) (is : List Nat) (s : State) (u : State) => u = s.advance at' ∧
      x = u.group g.val ∧ u.dev.mode ≠ .load ∧ u.bit (Reg.rhbGrpCfg g.val) 31 = true ∧ u.markerDue g.val = false ∧ u.loopback
      g.val = false ∧ lanesOf (u.rd (Reg.rhbGrpActive g.val)) = i :: is ∧ l = u.grpFirst g.val + ((i :: is)[x.cells % (i ::
      is).length]?).getD i ∧ u.laneGroup l = some g.val ∧ ∀ j ∈ List.range (u.grpCount g.val), (u.lane (u.grpFirst g.val +
      j)).loop = [] ∧ (u.bit Reg.rhbStatus g.val = false ∨ 8191 ≤ (u.lane l).idle)) 0 0
      ({ peer := some (5, 0), peerRxOk := 3, cells := 1 }) 1 0 ([1]) (stRhbUp.wr Reg.rhbStatus 0) (stRhbUp.wr Reg.rhbStatus 0) ∧
    (fun (g : Fin 16) (at' : Raw) (x : Group) (l : Nat) (i : Nat) (is : List Nat) (s : State) (u : State) => u = s.advance at' ∧
      x = u.group g.val ∧ u.dev.mode ≠ .load ∧ u.bit (Reg.rhbGrpCfg g.val) 31 = true ∧ u.markerDue g.val = false ∧ u.loopback
      g.val = false ∧ lanesOf (u.rd (Reg.rhbGrpActive g.val)) = i :: is ∧ l = u.grpFirst g.val + ((i :: is)[x.cells % (i ::
      is).length]?).getD i ∧ u.laneGroup l = some g.val ∧ ∀ j ∈ List.range (u.grpCount g.val), (u.lane (u.grpFirst g.val +
      j)).loop = [] ∧ u.bit Reg.rhbStatus g.val = true ∧ (u.lane l).idle < 8191 ∧ (nextCell u.dev.mode u.snapShare x).1.label =
      0) 0 0 ({ peer := some (5, 0), peerRxOk := 3, cells := 1 }) 1 0 ([1]) stRhbUp stRhbUp ∧
    (fun (g : Fin 16) (at' : Raw) (x : Group) (l : Nat) (i : Nat) (is : List Nat) (s : State) (u : State) => u = s.advance at' ∧
      x = u.group g.val ∧ u.dev.mode ≠ .load ∧ u.bit (Reg.rhbGrpCfg g.val) 31 = true ∧ u.markerDue g.val = false ∧ u.loopback
      g.val = false ∧ lanesOf (u.rd (Reg.rhbGrpActive g.val)) = i :: is ∧ l = u.grpFirst g.val + ((i :: is)[x.cells % (i ::
      is).length]?).getD i ∧ u.laneGroup l = some g.val ∧ ∀ j ∈ List.range (u.grpCount g.val), (u.lane (u.grpFirst g.val +
      j)).loop = [] ∧ u.bit Reg.rhbStatus g.val = true ∧ (u.lane l).idle < 8191 ∧ (nextCell u.dev.mode u.snapShare x).1.label ≠
      0) 0 0 ({ data := [{ label := 1, dest := 5, payload := [1] }] }) 0 0 ([1])
      ({ stRhbUp with rhb := { groups := SMap.set (fun _ => {}) [] 0 { data := [{ label := 1, dest := 5, payload := [1] }] } } })
      ({ stRhbUp with rhb := { groups := SMap.set (fun _ => {}) [] 0 { data := [{ label := 1, dest := 5, payload := [1] }] } } }) ∧
    (fun (g : Fin 16) (at' : Raw) (s : State) (u : State) => u = s.advance at' ∧ (u.dev.mode = .load ∨ u.bit (Reg.rhbGrpCfg
      g.val) 31 = false ∨ u.markerDue g.val = true) ∧ ∀ j ∈ List.range (u.grpCount g.val), (u.lane (u.grpFirst g.val + j)).loop
      = []) 1 0 stRhbUp stRhbUp ∧
    (fun (g : Fin 16) (s : State) => (s.dev.mode = .load ∨ s.bit (Reg.rhbGrpCfg g.val) 31 = false ∨ s.grpCount g.val = 0 ∨
      s.markerDue g.val = false) ∧ ∀ j ∈ List.range (s.grpCount g.val), (s.lane (s.grpFirst g.val + j)).loop = []) 0 stRhbUp ∧
    (fun (g : Fin 16) (s : State) => s.dev.mode ≠ .load ∧ s.bit (Reg.rhbGrpCfg g.val) 31 = true ∧ s.markerDue g.val = true ∧
      s.loopback g.val = false ∧ s.grpCount g.val ≠ 0 ∧ (∀ j ∈ List.range (s.grpCount g.val), (s.lane (s.grpFirst g.val +
      j)).loop = [] ∧ s.laneGroup (s.grpFirst g.val + j) = some g.val)) 0 stRhbDue ∧
    (fun (d : Fin 1024) (at' : Raw) (m : CreditMsg × Raw) (ms : List (CreditMsg × Raw)) (s : State) (u : State) => u = s.advance
      at' ∧ (u.toward d.val).credits = m :: ms ∧ (14 ≤ ms.length ∨ u.reached (m.2 + BitVec.ofNat 96 13107200) = true)) 5
      13107200 ((.credit 5 0 0 5 64, 0)) ([(.credit 5 0 0 5 64, 0), (.credit 5 0 0 5 64, 0)]) stToward (stToward.advance
      13107200) ∧
    (fun (d : Fin 1024) (at' : Raw) (m : CreditMsg × Raw) (ms : List (CreditMsg × Raw)) (s : State) (u : State) => u = s.advance
      at' ∧ (u.toward d.val).credits = m :: ms ∧ ms.length < 14 ∧ u.reached (m.2 + BitVec.ofNat 96 13107200) = false) 5 65536
      ((.credit 5 0 0 5 64, 0)) ([(.credit 5 0 0 5 64, 0), (.credit 5 0 0 5 64, 0)]) stToward (stToward.advance 65536) ∧
    (fun (d : Fin 1024) (at' : Raw) (s : State) (u : State) => u = s.advance at' ∧ (u.toward d.val).credits = []) 6 0 stToward
      stToward := by
  refine ⟨?_, ?_, ?_, ?_, ?_, ?_, ?_, ?_, ?_, ?_, ?_⟩ <;> decide +kernel

/-- MessagesAreMetByRoleAndSequence. -/
theorem witness_MessagesAreMetByRoleAndSequence_1 :
    (fun (s : State) => s.mer.role = 0) (stMer 0 loA) ∧
    (fun (m : MerMsg) (s : State) => s.mer.role ≠ 0 ∧ (merGood m = false ∨ (m.bcast = false ∧ m.dest ≠ s.devId))) (sealMer
      { merA 0 (.ack 0) with dest := 1023 }) (stMer 1 loA) ∧
    (fun (m : MerMsg) (sf : Bool) (sb : Bool) (ti : Nat) (pr : Nat) (ro : Nat) (gr : Nat) (s : State) => s.mer.role ≠ 0 ∧
      s.merFor m = true ∧ m.body = .announce ti pr ro gr sf sb ∧ m.src ≠ s.devId) (merA 0 (.announce 0 9 3 0 false false)) false
      false 0 9 3 0 stWorker ∧
    (fun (m : MerMsg) (sf : Bool) (sb : Bool) (ti : Nat) (pr : Nat) (ro : Nat) (gr : Nat) (s : State) => s.mer.role ≠ 0 ∧
      s.merFor m = true ∧ m.body = .announce ti pr ro gr sf sb ∧ m.src = s.devId) (sealMer
      { merA 0 (.announce 0 9 3 0 false false) with src := 0 }) false false 0 9 3 0 stWorker ∧
    (fun (d : Fin 1024) (at' : Raw) (h : Heard) (s : State) (u : State) => u = s.advance at' ∧ u.heardOf d.val = some h ∧
      h.at'.toNat + u.merLoss * u.announceMs * 65536000000 ≤ u.raw.toNat) 5 1966080000000 hiA stWorker (stWorker.advance
      1966080000000) ∧
    (fun (d : Fin 1024) (at' : Raw) (h : Heard) (s : State) (u : State) => u = s.advance at' ∧ u.heardOf d.val = some h ∧
      u.raw.toNat < h.at'.toNat + u.merLoss * u.announceMs * 65536000000) 5 65536 hiA stWorker (stWorker.advance 65536) ∧
    (fun (d : Fin 1024) (at' : Raw) (s : State) (u : State) => u = s.advance at' ∧ u.heardOf d.val = none) 6 0 stWorker stWorker ∧
    (fun (at' : Raw) (s : State) (u : State) => u = s.advance at' ∧ (u.mer.role = 0 ∨ u.dev.mode = .safe ∨ u.periodPassed
      u.mer.announced (1000 * u.announceMs) = false)) 0 (stMer 0 loA) (stMer 0 loA) ∧
    (fun (at' : Raw) (s : State) (u : State) => u = s.advance at' ∧ u.mer.role ≠ 0 ∧ u.dev.mode ≠ .safe ∧ u.periodPassed
      u.mer.announced (1000 * u.announceMs) = true) 0 ((stMer 1 loA).setBit (Reg.netPortStatus 25) 31 true) ((stMer 1
      loA).setBit (Reg.netPortStatus 25) 31 true) ∧
    (fun (m : MerMsg) (slot : Nat) (wp : Bool) (pairs : List (Nat × Word)) (s : State) (u : State) => s.mer.role ≠ 0 ∧ s.merFor
      m = true ∧ m.body = .fan slot wp pairs ∧ s.dev.mode ≠ .safe ∧ u = s.seePair m ∧ u.mer.last ≠ some m ∧ m.seq ≠ BitVec.ofNat
      32 u.mer.expect ∧ (m.seq ≠ 0 ∨ pairs ≠ [])) (merA 6 (.fan 0 false [(0x0200000, 1)])) 0 false ([(0x0200000, 1)]) stWorker
      stWorker ∧
    (fun (m : MerMsg) (slot : Nat) (wp : Bool) (pairs : List (Nat × Word)) (s : State) (u : State) => s.mer.role ≠ 0 ∧ s.merFor
      m = true ∧ m.body = .fan slot wp pairs ∧ s.dev.mode ≠ .safe ∧ u = s.seePair m ∧ u.mer.last ≠ some m ∧ m.seq = 0 ∧ pairs =
      []) (merA 0 (.fan 0 false [])) 0 false ([]) stWorker stWorker ∧
    (fun (m : MerMsg) (slot : Nat) (wp : Bool) (pairs : List (Nat × Word)) (s : State) (u : State) => s.mer.role ≠ 0 ∧ s.merFor
      m = true ∧ m.body = .fan slot wp pairs ∧ s.dev.mode ≠ .safe ∧ u = s.seePair m ∧ u.mer.last ≠ some m ∧ m.seq = BitVec.ofNat
      32 u.mer.expect ∧ m.seq ≠ 0 ∧ pairs = []) (merA 4 (.fan 3 true [])) 3 true ([]) stWorker stWorker ∧
    (fun (m : MerMsg) (slot : Nat) (wp : Bool) (pairs : List (Nat × Word)) (s : State) (u : State) => s.mer.role ≠ 0 ∧ s.merFor
      m = true ∧ m.body = .fan slot wp pairs ∧ s.dev.mode ≠ .safe ∧ u = s.seePair m ∧ u.mer.last ≠ some m ∧ m.seq = BitVec.ofNat
      32 u.mer.expect ∧ (pairs.any fun p => fanRefuses p.1) = true) (merA 4 (.fan 0 false [(0x0200000, 1), (0x1FFFFF, 0)])) 0
      false ([(0x0200000, 1), (0x1FFFFF, 0)]) stWorker stWorker ∧
    (fun (m : MerMsg) (slot : Nat) (a : Nat) (wp : Bool) (v : Word) (s : State) (u : State) (w : State) => s.mer.role ≠ 0 ∧
      s.merFor m = true ∧ s.dev.mode ≠ .safe ∧ u = s.seePair m ∧ u.mer.last ≠ some m ∧ m.seq = BitVec.ofNat 32 u.mer.expect ∧
      fanRefuses a = false ∧ w = (u.wpWatch slot wp).regWrite a v true ∧ m.body = .fan slot wp [(a, v)]) (merA 4 (.fan 0 false
      [(0x0D00120, 1)])) 0 0x0D00120 false 1 stWorker stWorker (stWorker.regWrite 0x0D00120 1 true) ∧
    (fun (m : MerMsg) (slot : Nat) (a : Nat) (b : Nat) (wp : Bool) (v : Word) (x : Word) (s : State) (u : State) (w : State) =>
      s.mer.role ≠ 0 ∧ s.merFor m = true ∧ s.dev.mode ≠ .safe ∧ u = s.seePair m ∧ u.mer.last ≠ some m ∧ m.seq = BitVec.ofNat 32
      u.mer.expect ∧ fanRefuses a = false ∧ w = (u.wpWatch slot wp).regWrite a v true ∧ m.body = .fan slot wp [(a, v), (b, x)] ∧
      fanRefuses b = false) (merA 4 (.fan 0 true [(0x0D00120, 1), (0x0D00124, 2)])) 0 0x0D00120 0x0D00124 true 1 2 stWorker
      stWorker ((stWorker.wpWatch 0 true).regWrite 0x0D00120 1 true) ∧
    (fun (m : MerMsg) (s : State) => s.mer.role ≠ 0 ∧ s.merFor m = true ∧ s.dev.mode = .safe) (merA 4 (.fan 0 false [(0x0D00120,
      1)])) ({ stWorker with dev := { stWorker.dev with mode := .safe } }) := by
  refine ⟨?_, ?_, ?_, ?_, ?_, ?_, ?_, ?_, ?_, ?_, ?_, ?_, ?_, ?_, ?_, ?_⟩ <;>
    ((try simp only [merFor_merA, merFor_seal, merGood_seal]); decide +kernel)

/-- MessagesAreMetByRoleAndSequence. -/
theorem witness_MessagesAreMetByRoleAndSequence_2 :
    (fun (val : Word) (s : State) => bit val 31 = true ∧ s.mer.role ≠ 3) 0x80000000 stWorker ∧
    (fun (val : Word) (s : State) => bit val 31 = true ∧ s.mer.role = 3 ∧ 256 ≤ s.mer.open'.length) 0x80000000
      ({ stMer 3 loA with mer := { role := 3, open' := List.replicate 256 [5] } }) ∧
    (fun (val : Word) (s : State) => bit val 31 = true ∧ fld val 28 27 = 1 ∧ s.mer.role = 3 ∧ s.mer.open'.length < 256 ∧ s.fld
      Reg.merFanDest 9 0 ≠ s.devId ∧ s.isProtected (s.fld Reg.merFanDest 9 0) = false ∧ s.tgt (s.fld Reg.merFanDest 9 0) = {} ∧
      (∀ r ∈ s.mer.open', r ≠ [])) 0x88000000 ((stMer 3 loA).wr Reg.merFanDest 5) ∧
    (fun (val : Word) (s : State) => bit val 31 = true ∧ fld val 28 27 = 1 ∧ (s.mer.role = 3 ∧ s.mer.open'.length < 256) ∧ s.fld
      Reg.merFanDest 9 0 = s.devId ∧ s.isProtected s.devId = false ∧ (∀ r ∈ s.mer.open', r ≠ []) ∧ ((s.fanPairs (fld val 26 24 +
      1)).any fun p => fanRefuses p.1) = true) 0x88000000 (stMer 3 loA) ∧
    (fun (val : Word) => bit val 31 = false) 0x08000000 ∧
    (fun (m : MerMsg) (f : MerMsg) (n : Nat) (status : Nat) (slot : Nat) (a : Raw) (wp : Bool) (pairs : List (Nat × Word)) (s :
      State) => s.mer.role = 3 ∧ s.merFor m = true ∧ m.body = .ack status ∧ (s.tgt m.src).flight = some (f, n, a) ∧ f.body =
      .fan slot wp pairs ∧ f.seq = m.seq ∧ (s.tgt m.src).queue = []) (merA 3 (.ack 1)) (merB 3 (.fan 0 false [(0x0200000, 1)]))
      0 1 0 0 false ([(0x0200000, 1)]) (stFlight 0 (.fan 0 false [(0x0200000, 1)])) ∧
    (fun (m : MerMsg) (f : MerMsg) (n : Nat) (status : Nat) (slot : Nat) (a : Raw) (wp : Bool) (pairs : List (Nat × Word)) (s :
      State) => s.mer.role = 3 ∧ s.merFor m = true ∧ m.body = .ack status ∧ (s.tgt m.src).flight = some (f, n, a) ∧ f.body =
      .fan slot wp pairs ∧ f.seq ≠ m.seq) (merA 2 (.ack 0)) (merB 3 (.fan 0 false [(0x0200000, 1)])) 0 0 0 0 false ([(0x0200000,
      1)]) (stFlight 0 (.fan 0 false [(0x0200000, 1)])) ∧
    (fun (m : MerMsg) (s : State) => s.mer.role ≠ 0 ∧ s.merFor m = true ∧ (s.mer.role ≠ 3 ∨ (s.tgt m.src).flight = none)) (merA
      3 (.ack 1)) stWorker ∧
    (fun (d : Fin 1024) (at' : Raw) (a : Raw) (m : MerMsg) (n : Nat) (s : State) (u : State) => u = s.advance at' ∧ (u.tgt
      d.val).flight = some (m, n, a) ∧ u.mer.role = 3 ∧ u.reached (a + BitVec.ofNat 96 (u.retryUs * 65536000)) = true ∧ n <
      u.merRetries) 5 13107200000 0 (merB 3 (.fan 0 false [(0x0200000, 1)])) 2 (stFlight 2 (.fan 0 false [(0x0200000, 1)]))
      ((stFlight 2 (.fan 0 false [(0x0200000, 1)])).advance 13107200000) ∧
    (fun (d : Fin 1024) (at' : Raw) (a : Raw) (m : MerMsg) (n : Nat) (s : State) (u : State) => u = s.advance at' ∧ (u.tgt
      d.val).flight = some (m, n, a) ∧ u.mer.role = 3 ∧ u.reached (a + BitVec.ofNat 96 (u.retryUs * 65536000)) = true ∧
      u.merRetries ≤ n) 5 13107200000 0 (merB 3 (.fan 0 false [(0x0200000, 1)])) 3 (stFlight 3 (.fan 0 false [(0x0200000, 1)]))
      ((stFlight 3 (.fan 0 false [(0x0200000, 1)])).advance 13107200000) ∧
    (fun (d : Fin 1024) (at' : Raw) (a : Raw) (m : MerMsg) (n : Nat) (s : State) (u : State) => u = s.advance at' ∧ (u.tgt
      d.val).flight = some (m, n, a) ∧ (u.mer.role ≠ 3 ∨ u.reached (a + BitVec.ofNat 96 (u.retryUs * 65536000)) = false)) 5
      65536 0 (merB 3 (.fan 0 false [(0x0200000, 1)])) 3 (stFlight 3 (.fan 0 false [(0x0200000, 1)])) ((stFlight 3 (.fan 0 false
      [(0x0200000, 1)])).advance 65536) ∧
    (fun (d : Fin 1024) (at' : Raw) (s : State) (u : State) => u = s.advance at' ∧ (u.tgt d.val).flight = none) 6 0 stWorker
      stWorker ∧
    (fun (val : Word) (s : State) => bit val 31 = true ∧ s.mer.role = 3 ∧ s.tgt (fld val 9 0) = { unreached := true })
      0x80000005 ({ stMer 3 loA with mer := { role := 3, targets := SMap.set (fun _ => {}) [] 5 { unreached := true } } }) ∧
    (fun (val : Word) (s : State) => (bit val 31 = false ∨ s.mer.role ≠ 3 ∨ (s.tgt (fld val 9 0)).unreached = false)) 0x80000006
      (stMer 3 loA) ∧
    (fun (m : MerMsg) (slot : Nat) (st : Nat) (late : Word) (s : State) => s.mer.role ≠ 0 ∧ s.merFor m = true ∧ m.body =
      .wpReport slot st late ∧ s.mer.role = 3) (merA 0 (.wpReport 3 2 0xFFFFFFFF)) 3 2 0xFFFFFFFF (stMer 3 loA) ∧
    (fun (m : MerMsg) (slot : Nat) (st : Nat) (late : Word) (s : State) => s.mer.role ≠ 0 ∧ s.merFor m = true ∧ m.body =
      .wpReport slot st late ∧ s.mer.role ≠ 3) (merA 0 (.wpReport 3 2 7)) 3 2 7 stWorker := by
  refine ⟨?_, ?_, ?_, ?_, ?_, ?_, ?_, ?_, ?_, ?_, ?_, ?_, ?_, ?_, ?_, ?_⟩ <;>
    ((try simp only [merFor_merA, merFor_seal, merGood_seal]); decide +kernel)

/-- MessagesAreMetByRoleAndSequence. -/
theorem witness_MessagesAreMetByRoleAndSequence_3 :
    (fun (at' : Raw) (s : State) (u : State) => u = s.advance at' ∧ (u.mer.role ≠ 3 ∨ u.bit Reg.merTimeCfg 31 = false ∨
      u.periodPassed u.mer.exchanged (1000 * u.timePeriodMs) = false)) 65536 stWorker (stWorker.advance 65536) ∧
    (fun (at' : Raw) (s : State) (u : State) => u = s.advance at' ∧ u.mer.role = 3 ∧ u.bit Reg.merTimeCfg 31 = true ∧
      u.periodPassed u.mer.exchanged (1000 * u.timePeriodMs) = true) 65536 stMgmt (stMgmt.advance 65536) ∧
    (fun (m : MerMsg) (v : Nat) (t1 : Raw) (s : State) (u : State) => s.mer.role ≠ 0 ∧ s.merFor m = true ∧ m.body = .sync v t1 ∧
      u = s.seePair m ∧ s.merWorker = true) (merA 0 (.sync 1 0x100)) 1 0x100 stWorker stWorker ∧
    (fun (m : MerMsg) (v : Nat) (t1 : Raw) (s : State) (u : State) => s.mer.role ≠ 0 ∧ s.merFor m = true ∧ m.body = .sync v t1 ∧
      u = s.seePair m ∧ s.merWorker = false) (merA 0 (.sync 1 0x100)) 1 0x100 (stMer 3 loA) (State.seePair (stMer 3 loA) (merA 0
      (.sync 1 0x100))) ∧
    (fun (m : MerMsg) (v : Nat) (t3 : Raw) (s : State) => s.mer.role ≠ 0 ∧ s.merFor m = true ∧ m.body = .delayReq v t3 ∧
      s.mer.role = 3) (merA 0 (.delayReq 1 0x100)) 1 0x100 (stMer 3 loA) ∧
    (fun (m : MerMsg) (v : Nat) (t3 : Raw) (s : State) => s.mer.role ≠ 0 ∧ s.merFor m = true ∧ m.body = .delayReq v t3 ∧
      s.mer.role ≠ 3) (merA 0 (.delayReq 1 0x100)) 1 0x100 stWorker ∧
    (fun (m : MerMsg) (v : Nat) (t1 : Raw) (t2 : Raw) (t3 : Raw) (t4 : Raw) (s : State) => s.mer.role ≠ 0 ∧ s.merFor m = true ∧
      m.body = .delayResp v t4 t3 ∧ s.mer.sync.get (fun _ => none) (v % 16) = some (t1, t2)) (merA 0 (.delayResp 1 0x100 0x50))
      1 0x10 0x13 0x50 0x100
      ({ stWorker with mer := { stWorker.mer with sync := SMap.set (fun _ => none) [] 1 (some (0x10, 0x13)) } }) ∧
    (fun (m : MerMsg) (v : Nat) (t3 : Raw) (t4 : Raw) (s : State) => s.mer.role ≠ 0 ∧ s.merFor m = true ∧ m.body = .delayResp v
      t4 t3 ∧ s.mer.sync.get (fun _ => none) (v % 16) = none) (merA 0 (.delayResp 1 0x100 0x50)) 1 0x50 0x100 stWorker ∧
    (fun (val : Word) (s : State) => bit val 31 = true ∧ (s.mer.role ≠ 3 ∨ s.bit Reg.merCollStatus 31 = true)) 0x80000000
      stWorker ∧
    (fun (val : Word) (s : State) => bit val 31 = true ∧ fld val 28 27 = 1 ∧ s.mer.role = 3 ∧ s.bit Reg.merCollStatus 31 = false
      ∧ s.fld Reg.merFanDest 9 0 ≠ s.devId ∧ s.tgt (s.fld Reg.merFanDest 9 0) = {}) 0x88000000 (((stMer 3 loA).wr Reg.merFanDest
      5).wr Reg.merCollStatus 0xFFFF) ∧
    (fun (m : MerMsg) (a : Nat) (s : State) (u : State) (w : State) => s.mer.role ≠ 0 ∧ s.merFor m = true ∧ m.body = .collect
      [a] ∧ s.dev.mode ≠ .safe ∧ u = s.seePair m ∧ w = u.regRead a ∧ u.mer.last ≠ some m ∧ m.seq = BitVec.ofNat 32 u.mer.expect)
      (merA 4 (.collect [0x0D01014])) 0x0D01014 stWorker stWorker (stWorker.regRead 0x0D01014) ∧
    (fun (m : MerMsg) (a : Nat) (s : State) (u : State) (w : State) => s.mer.role ≠ 0 ∧ s.merFor m = true ∧ m.body = .collect
      [a] ∧ s.dev.mode ≠ .safe ∧ u = s.seePair m ∧ w = u.regRead a ∧ u.mer.last ≠ some m ∧ m.seq ≠ BitVec.ofNat 32 u.mer.expect)
      (merA 5 (.collect [0x0D01014])) 0x0D01014 stWorker stWorker (stWorker.regRead 0x0D01014) ∧
    (fun (m : MerMsg) (f : MerMsg) (n : Nat) (a : Raw) (offs : List Nat) (l : List Nat) (vals : List Word) (s : State) =>
      s.mer.role = 3 ∧ s.merFor m = true ∧ m.body = .reply vals ∧ (s.tgt m.src).flight = some (f, n, a) ∧ f.body = .collect offs
      ∧ s.mer.collect = some l ∧ f.seq = m.seq ∧ l.contains m.src = true ∧ (s.tgt m.src).queue = []) (merA 3 (.reply [7, 8]))
      (merB 3 (.collect [8, 12])) 0 0 ([8, 12]) ([5, 6]) ([7, 8]) (stFlight 0 (.collect [8, 12])) ∧
    (fun (m : MerMsg) (f : MerMsg) (n : Nat) (a : Raw) (offs : List Nat) (l : List Nat) (vals : List Word) (s : State) =>
      s.mer.role = 3 ∧ s.merFor m = true ∧ m.body = .reply vals ∧ (s.tgt m.src).flight = some (f, n, a) ∧ f.body = .collect offs
      ∧ s.mer.collect = some l ∧ (f.seq ≠ m.seq ∨ l.contains m.src = false)) (merA 4 (.reply [7, 8])) (merB 3 (.collect [8,
      12])) 0 0 ([8, 12]) ([5, 6]) ([7, 8]) (stFlight 0 (.collect [8, 12])) ∧
    (fun (m : MerMsg) (leaf : Nat) (view : Nat) (ns32 : Word) (seq : Word) (subns : Byte) (ws : List Word) (s : State) =>
      s.mer.role ≠ 0 ∧ s.merFor m = true ∧ m.body = .event leaf view ns32 subns seq ws ∧ s.mer.role = 3 ∧ s.obs.buf.length <
      evtBufMax) (merA 0 (.event 33 0 5 1 7 [9])) 33 0 5 7 1 ([9]) (stMer 3 loA) ∧
    (fun (m : MerMsg) (leaf : Nat) (view : Nat) (ns32 : Word) (seq : Word) (subns : Byte) (ws : List Word) (s : State) =>
      s.mer.role ≠ 0 ∧ s.merFor m = true ∧ m.body = .event leaf view ns32 subns seq ws ∧ s.mer.role ≠ 3) (merA 0 (.event 33 0 5
      1 7 [9])) 33 0 5 7 1 ([9]) stWorker := by
  refine ⟨?_, ?_, ?_, ?_, ?_, ?_, ?_, ?_, ?_, ?_, ?_, ?_, ?_, ?_, ?_, ?_⟩ <;>
    ((try simp only [merFor_merA, merFor_seal, merGood_seal]); decide +kernel)

/-- ErrorsAndCheckValuesAreCounted. -/
theorem witness_ErrorsAndCheckValuesAreCounted :
    (fun (uncorr : Bool) (nbits : Nat) (s : State) => s.bit Reg.chkCtrl 30 = true ∧ uncorr = false ∧ nbits ≠ 0 ∧
      s.chk.log.length < 1024) false 2 (stA.setBit Reg.chkCtrl 30 true) ∧
    (fun (uncorr : Bool) (nbits : Nat) (s : State) => s.bit Reg.chkCtrl 30 = true ∧ uncorr = false ∧ nbits ≠ 0 ∧ 1024 ≤
      s.chk.log.length) false 1 ({ stA.setBit Reg.chkCtrl 30 true with chk := { log := List.replicate 1024 ⟨0, 0, 0, 0⟩ } }) ∧
    (fun (kind : Fin 10) (uncorr : Bool) (s : State) => s.bit Reg.chkCtrl 30 = true ∧ uncorr = true ∧ kind.val ≠ 7) 5 true
      ({ stA.setBit Reg.chkCtrl 30 true with obs := { cnt := [(3, 9), (4, 9)] } }) ∧
    (fun (kind : Fin 10) (uncorr : Bool) (s : State) => s.bit Reg.chkCtrl 30 = true ∧ uncorr = true ∧ kind.val = 7 ∧ s.dev.mode
      ≠ .safe) 7 true (stA.setBit Reg.chkCtrl 30 true) ∧
    (fun (uncorr : Bool) (nbits : Nat) (s : State) => (s.bit Reg.chkCtrl 30 = false ∨ (uncorr = false ∧ nbits = 0))) true 0
      (stA.setBit Reg.chkCtrl 30 false) ∧
    (fun (r : ErrRec) (rs : List ErrRec) (s : State) => s.chk.log = r :: rs) (⟨0xC0000000, 1, 2, 3⟩) ([⟨1, 1, 1, 1⟩])
      ({ stA with chk := { log := [⟨0xC0000000, 1, 2, 3⟩, ⟨1, 1, 1, 1⟩] } }) ∧
    (fun (s : State) => s.chk.log = []) stA ∧
    (fun (u : Fin 8) (val : Word) (s : State) => s.busy (.scan u.val) = false ∧ bit val 31 = true) 2 0x80000000 stUnit ∧
    (fun (u : Fin 8) (val : Word) (s : State) => s.busy (.scan u.val) = false ∧ bit val 31 = false) 2 0x12345678 (stUnit.wr
      (Reg.chkUnitBytesLo 2) 0xFFFFFFFF) ∧
    (fun (u : Fin 8) (s : State) => s.busy (.scan u.val) = false) 2 stUnit ∧
    (fun (u : Fin 8) (s : State) => s.busy (.scan u.val) = true) 2 (stScan false) ∧
    (fun (u : Fin 8) (src : Nat) (cmp : Bool) (s : State) => s.chk.scan.get (fun _ => none) u.val = some (src, cmp) ∧ s.bit
      (Reg.chkUnitCfg u.val) 8 = false ∧ cmp = false) 2 0 false (stScan false) ∧
    (fun (u : Fin 8) (src : Nat) (cmp : Bool) (s : State) => s.chk.scan.get (fun _ => none) u.val = some (src, cmp) ∧ s.bit
      (Reg.chkUnitCfg u.val) 8 = false ∧ cmp = true) 2 0 true (stScan true) ∧
    (fun (u : Fin 8) (s : State) => s.chk.scan.get (fun _ => none) u.val = none) 3 (stScan true) ∧
    (fun (op : LongOp) (s : State) => op ∈ allLongOps ∧ s.busy op = false) (.scan 3) (stScan true) ∧
    (fun (op : LongOp) (s : State) => op ∈ allLongOps ∧ s.busy op = true) (.scan 2) (stScan true) := by
  refine ⟨?_, ?_, ?_, ?_, ?_, ?_, ?_, ?_, ?_, ?_, ?_, ?_, ?_, ?_, ?_, ?_⟩ <;> decide +kernel

/-- EventsVectorsCountersAndExports. -/
theorem witness_EventsVectorsCountersAndExports_1 :
    (fun (r : EvRec) (rs : List EvRec) (n : Nat) (h : Nat) (s : State) => s.obs.buf = r :: rs ∧ n = (s.rd Reg.evtRingSize).toNat
      ∧ h = (s.rd Reg.evtRingHead).toNat ∧ (6 ≤ n ∧ n ≤ 16) ∧ s.dev.perstLow = false ∧ s.evtRingFull n = false) (⟨33, false, 0,
      5, 7, 0, 1, [0, 0, 0, 0]⟩) ([]) 6 63 (stRing.wr Reg.evtRingCons 5) ∧
    (fun (r : EvRec) (rs : List EvRec) (n : Nat) (h : Nat) (s : State) => s.obs.buf = r :: rs ∧ n = (s.rd Reg.evtRingSize).toNat
      ∧ h = (s.rd Reg.evtRingHead).toNat ∧ (6 ≤ n ∧ n ≤ 16) ∧ (s.dev.perstLow = true ∨ s.evtRingFull n = true)) (⟨33, false, 0,
      5, 7, 0, 1, [0, 0, 0, 0]⟩) ([]) 6 63 stRing ∧
    (fun (s : State) => (s.obs.buf = [] ∨ (s.rd Reg.evtRingSize).toNat < 6 ∨ 16 < (s.rd Reg.evtRingSize).toNat)) stA ∧
    (fun (at' : Raw) (f : Raw) (s : State) (u : State) => u = s.advance at' ∧ u.obs.firstAt = some f ∧ u.bit Reg.evtRingCfg 31 =
      true ∧ (u.coalCount ≤ u.obs.since ∨ f.toNat + u.coalUs * 65536000 ≤ u.raw.toNat)) 65536 0 stVec (stVec.advance 65536) ∧
    (fun (at' : Raw) (f : Raw) (s : State) (u : State) => u = s.advance at' ∧ u.obs.firstAt = some f ∧ u.bit Reg.evtRingCfg 31 =
      true ∧ u.obs.since < u.coalCount ∧ u.raw.toNat < f.toNat + u.coalUs * 65536000) 65536 0 ((stVec.wr Reg.evtCtrl
      0x80000000).wr Reg.evtRingCfg 0x83020001) (((stVec.wr Reg.evtCtrl 0x80000000).wr Reg.evtRingCfg 0x83020001).advance 65536) ∧
    (fun (v : Fin 64) (masked : Bool) (s : State) => s.vecPending v.val = true ∧ s.obs.sent.getLsbD v.val = false ∧ masked =
      false ∧ s.dev.perstLow = false) 3 false stVec ∧
    (fun (v : Fin 64) (masked : Bool) (s : State) => (s.vecPending v.val = false ∨ s.obs.sent.getLsbD v.val = true ∨ masked =
      true ∨ s.dev.perstLow = true)) 3 true stVec ∧
    (fun (val : Word) => bit val 31 = true) 0x80000003 ∧
    (fun (val : Word) => bit val 31 = false) 3 ∧
    (fun (val : Word) (p : Nat) => p = fld val 20 0 ∧ bit val 31 = true ∧ bit val 30 = false) 0x80000001 1 ∧
    (fun (val : Word) (p : Nat) => p = fld val 20 0 ∧ bit val 31 = true ∧ bit val 30 = true) 0xC0000001 1 ∧
    (fun (at' : Raw) (s : State) => (s.advance at').obs.log = none) 65536 stA ∧
    (fun (at' : Raw) (s : State) (u : State) => u = s.advance at' ∧ u.bit Reg.obsLogCtrl 31 = true ∧ logMode u.dev.mode = true ∧
      u.raw.toNat % (u.logPeriod * 65536000000) = 0 ∧ u.obs.log = none ∧ (u.dev.perstLow = false ∧ u.posted Reg.obsLogRingSize
      Reg.obsLogRingHead Reg.obsLogRingTail ≠ 0)) 0 (stLog none) (stLog none) ∧
    (fun (at' : Raw) (s : State) (u : State) => u = s.advance at' ∧ u.bit Reg.obsLogCtrl 31 = true ∧ logMode u.dev.mode = true ∧
      u.raw.toNat % (u.logPeriod * 65536000000) = 0 ∧ u.obs.log = none ∧ (u.dev.perstLow = true ∨ u.posted Reg.obsLogRingSize
      Reg.obsLogRingHead Reg.obsLogRingTail = 0)) 0 ((stLog none).wr Reg.obsLogRingTail 63) ((stLog none).wr Reg.obsLogRingTail
      63) ∧
    (fun (at' : Raw) (s : State) (u : State) => u = s.advance at' ∧ u.bit Reg.obsLogCtrl 31 = true ∧ logMode u.dev.mode = true ∧
      u.raw.toNat % (u.logPeriod * 65536000000) = 0 ∧ u.obs.log.isSome = true) 0 (stLog (some ⟨0, 1, true⟩)) (stLog (some ⟨0, 1,
      true⟩)) ∧
    (fun (at' : Raw) (s : State) (u : State) => u = s.advance at' ∧ u.bit Reg.obsLogCtrl 31 = true ∧ logMode u.dev.mode = true ∧
      u.raw.toNat % (u.logPeriod * 65536000000) ≠ 0) 65536 (stLog none) ((stLog none).advance 65536) := by
  refine ⟨?_, ?_, ?_, ?_, ?_, ?_, ?_, ?_, ?_, ?_, ?_, ?_, ?_, ?_, ?_, ?_⟩ <;> decide +kernel

/-- EventsVectorsCountersAndExports. -/
theorem witness_EventsVectorsCountersAndExports_2 :
    (fun (at' : Raw) (s : State) (u : State) => u = s.advance at' ∧ (u.bit Reg.obsLogCtrl 31 = false ∨ logMode u.dev.mode =
      false)) 0 stA stA ∧
    (fun (at' : Raw) (l : LogRun) (h : Nat) (n : Nat) (s : State) (u : State) => u = s.advance at' ∧ u.obs.log = some l ∧ h =
      (u.rd Reg.obsLogRingHead).toNat ∧ n = (u.rd Reg.obsLogRingSize).toNat ∧ n ≤ 16) 65536 (⟨0, 1, true⟩) 63 6 (stLog (some ⟨0,
      1, true⟩)) ((stLog (some ⟨0, 1, true⟩)).advance 65536) ∧
    (fun (p : Nat) => p < 9) 8 ∧
    (fun (k : Fin 8) (p : Nat) (n : Nat) (pass : Nat) (slot : Nat) (f : Frame) (x : Sampler) (s : State) => x =
      s.obs.samplers.get (fun _ => {}) k.val ∧ x.trig = some (p, n) ∧ s.obs.inSlot.get (fun _ => none) p = some (f, pass, slot)
      ∧ slot - n ≤ 24) 2 4 7 1 31 frameA ({ trig := some (4, 7), seq := 6 }) (stSample 31) ∧
    (fun (k : Fin 8) (p : Nat) (n : Nat) (pass : Nat) (slot : Nat) (f : Frame) (x : Sampler) (s : State) => x =
      s.obs.samplers.get (fun _ => {}) k.val ∧ x.trig = some (p, n) ∧ s.obs.inSlot.get (fun _ => none) p = some (f, pass, slot)
      ∧ 24 < slot - n) 2 4 7 1 32 frameA ({ trig := some (4, 7), seq := 6 }) (stSample 32) ∧
    (fun (k : Fin 8) (free : Bool) (p : Nat) (n : Nat) (x : Sampler) (s : State) => x = s.obs.samplers.get (fun _ => {}) k.val ∧
      x.trig = some (p, n) ∧ (free = false ∨ s.obs.inSlot.get (fun _ => none) p = none) ∧ s.slotNo p - n ≤ 24) 2 false 4 7
      ({ trig := some (4, 7), seq := 6 }) (stSample 31) ∧
    (fun (k : Fin 8) (free : Bool) (p : Nat) (n : Nat) (x : Sampler) (s : State) => x = s.obs.samplers.get (fun _ => {}) k.val ∧
      x.trig = some (p, n) ∧ (free = false ∨ s.obs.inSlot.get (fun _ => none) p = none) ∧ 24 < s.slotNo p - n) 2 false 4 7
      ({ trig := some (4, 7), seq := 6 }) (stSample 32) ∧
    (fun (k : Fin 8) (s : State) => (s.obs.samplers.get (fun _ => {}) k.val).trig = none) 3 (stSample 31) := by
  refine ⟨?_, ?_, ?_, ?_, ?_, ?_, ?_, ?_⟩ <;> decide +kernel

/-- RolesFusesKeysAndZeroisation. -/
theorem witness_RolesFusesKeysAndZeroisation_1 :
    (fun (val : Word) (s : State) => bit val 31 = true ∧ fld val 27 24 = 1 ∧ s.sec.error = true) 0x81000000
      ({ stA with sec := { error := true } }) ∧
    (fun (val : Word) (s : State) => bit val 31 = true ∧ fld val 27 24 = 1 ∧ s.sec.error = false) 0x81000000 stA ∧
    (fun (val : Word) (s : State) => bit val 31 = true ∧ fld val 27 24 = 2 ∧ (fld val 1 0 = 0 ∨ fld val 1 0 = 3 ∨
      s.sec.locked.isSome = true ∨ s.sec.error = true)) 0x82000003 (stRole 1) ∧
    (fun (val : Word) (s : State) => bit val 31 = true ∧ fld val 27 24 = 2 ∧ (fld val 1 0 = 1 ∨ fld val 1 0 = 2) ∧ s.sec.locked
      = none ∧ s.sec.error = false) 0x82000002 ({ stA with sec := { fails := 7 } }) ∧
    (fun (val : Word) => bit val 31 = true ∧ fld val 27 24 = 3) 0x83000000 ∧
    (fun (val : Word) => (bit val 31 = false ∨ fld val 27 24 = 0 ∨ 3 < fld val 27 24)) 0x02000001 ∧
    (fun (at' : Raw) (s : State) (u : State) => u = s.advance at' ∧ u.sec.locked = none) 0 (stRole 2) (stRole 2) ∧
    (fun (at' : Raw) (b : Raw) (s : State) (u : State) => u = s.advance at' ∧ u.sec.locked = some b ∧ b.toNat + 3932160000000000
      ≤ u.raw.toNat) 3932160000000000 0 ({ stA with sec := { locked := some 0, fails := 8 } }) (State.advance
      { stA with sec := { locked := some 0, fails := 8 } } 3932160000000000) ∧
    (fun (at' : Raw) (b : Raw) (s : State) (u : State) => u = s.advance at' ∧ u.sec.locked = some b ∧ u.raw.toNat < b.toNat +
      3932160000000000) 65536 0 ({ stA with sec := { locked := some 0, fails := 8 } }) (State.advance
      { stA with sec := { locked := some 0, fails := 8 } } 65536) ∧
    (fun (val : Word) (s : State) => bit val 31 = true ∧ s.bit Reg.secOtpProgStatus 31 = false ∧ s.isCO = true) 0x83000007
      (stRole 1) ∧
    (fun (val : Word) (s : State) => bit val 31 = true ∧ s.bit Reg.secOtpProgStatus 31 = false ∧ s.isCO = false) 0x83000007
      (stRole 2) ∧
    (fun (val : Word) (s : State) => (bit val 31 = false ∨ s.bit Reg.secOtpProgStatus 31 = true)) 0x03000007 (stRole 1) ∧
    (fun (op : Nat) (slot : Nat) (value : Nat) (hash : BitVec 384) (s : State) => s.sec.otpBusy = some (op, slot, value, hash) ∧
      op = 1 ∧ slot < 6 ∧ s.sec.otp.keyHash.getD slot none = none) 1 5 0 99 (stOtp 1 5 0) ∧
    (fun (op : Nat) (slot : Nat) (value : Nat) (hash : BitVec 384) (s : State) => s.sec.otpBusy = some (op, slot, value, hash) ∧
      op = 2 ∧ slot < 4 ∧ s.sec.otp.revoked.getLsbD slot = false ∧ s.sec.otp.revoked ||| BitVec.ofNat 4 (2 ^ slot) ≠ 15) 2 3 0
      99 (stOtp 2 3 0) ∧
    (fun (op : Nat) (slot : Nat) (value : Nat) (hash : BitVec 384) (s : State) => s.sec.otpBusy = some (op, slot, value, hash) ∧
      op = 3 ∧ s.sec.otp.imgSvnMin < value) 3 0 1 99 (stOtp 3 0 1) ∧
    (fun (op : Nat) (slot : Nat) (value : Nat) (hash : BitVec 384) (s : State) => s.sec.otpBusy = some (op, slot, value, hash) ∧
      op = 4 ∧ s.sec.otp.fwSvnMin < value) 4 0 1 99 (stOtp 4 0 1) := by
  refine ⟨?_, ?_, ?_, ?_, ?_, ?_, ?_, ?_, ?_, ?_, ?_, ?_, ?_, ?_, ?_, ?_⟩ <;> decide +kernel

/-- RolesFusesKeysAndZeroisation. -/
theorem witness_RolesFusesKeysAndZeroisation_2 :
    (fun (op : Nat) (slot : Nat) (value : Nat) (hash : BitVec 384) (s : State) => s.sec.otpBusy = some (op, slot, value, hash) ∧
      op = 3 ∧ value ≤ s.sec.otp.imgSvnMin) 3 0 0 99 (stOtp 3 0 0) ∧
    (fun (op : Nat) (slot : Nat) (value : Nat) (hash : BitVec 384) (s : State) => s.sec.otpBusy = some (op, slot, value, hash) ∧
      op = 2 ∧ slot < 4 ∧ s.sec.otp.revoked.getLsbD slot = false ∧ s.sec.otp.revoked ||| BitVec.ofNat 4 (2 ^ slot) = 15) 2 3 0
      99 ({ stOtp 2 3 0 with sec := { otpBusy := some (2, 3, 0, 99), otp := { revoked := 7 } } }) ∧
    (fun (op : Nat) (slot : Nat) (value : Nat) (hash : BitVec 384) (s : State) => s.sec.otpBusy = some (op, slot, value, hash) ∧
      (op = 0 ∨ 4 < op ∨ (op = 1 ∧ (6 ≤ slot ∨ (s.sec.otp.keyHash.getD slot none).isSome = true)) ∨ (op = 2 ∧ (4 ≤ slot ∨
      s.sec.otp.revoked.getLsbD slot = true)) ∨ (op = 4 ∧ value ≤ s.sec.otp.fwSvnMin))) 5 0 0 99 (stOtp 5 0 0) ∧
    (fun (s : State) => s.sec.otpBusy = none) (stRole 1) ∧
    (fun (val : Word) (s : State) => bit val 31 = true ∧ bit val 30 = false ∧ s.isUser = true ∧ s.sec.error = false) 0x80000000
      ({ stRole 2 with sec := { role := 2, pairData := [(0, 5)] } }) ∧
    (fun (val : Word) (s : State) => bit val 30 = true ∧ s.isUser = true) 0x40000000
      ({ stRole 1 with sec := { role := 1, pairKey := some 9 } }) ∧
    (fun (val : Word) (s : State) => (bit val 31 = true ∨ bit val 30 = true) ∧ s.isUser = false) 0x80000000 (stRole 0) ∧
    (fun (val : Word) (s : State) => ((bit val 31 = false ∧ bit val 30 = false) ∨ (s.isUser = true ∧ s.sec.error = true ∧ bit
      val 30 = false))) 7 (stRole 1) ∧
    (fun (s : State) => s.dev.mode = .commission ∧ s.dev.commPhase ≠ 0)
      ({ stA with dev := { mode := .commission, commPhase := 3 } }) ∧
    (fun (s : State) => s.dev.mode ≠ .commission) stA ∧
    (fun (val : Word) (s : State) => bit val 31 = true ∧ bit val 30 = false ∧ s.isCO = true ∧ s.busy .zeroisation = false ∧
      s.dev.mode ≠ .safe) 0x80000001 ({ stRole 1 with dev := { mode := .active } }) ∧
    (fun (val : Word) (s : State) => bit val 31 = true ∧ s.isCO = false) 0x80000001 (stRole 2) ∧
    (fun (val : Word) => bit val 31 = false) 0x40000000 ∧
    (fun (ns : Nat) (s : State) => 1000 ≤ ns ∧ s.sec.zero = none ∧ s.dev.mode ≠ .safe) 1000 (stRole 0) ∧
    (fun (ns : Nat) (s : State) => 1000 ≤ ns ∧ s.sec.zero.isSome = true) 1000 (stZero false true) ∧
    (fun (ns : Nat) => ns < 500) 499 := by
  refine ⟨?_, ?_, ?_, ?_, ?_, ?_, ?_, ?_, ?_, ?_, ?_, ?_, ?_, ?_, ?_, ?_⟩ <;> decide +kernel

/-- RolesFusesKeysAndZeroisation. -/
theorem witness_RolesFusesKeysAndZeroisation_3 :
    (fun (ns : Nat) (s : State) => 500 ≤ ns ∧ ns < 1000 ∧ s.sec.zero = none) 500 (stRole 0) ∧
    (fun (z : ZeroRun) (s : State) => s.sec.zero = some z ∧ z.step1 = false) (⟨true, false⟩) (stZero true false) ∧
    (fun (z : ZeroRun) (s : State) => s.sec.zero = some z ∧ z.step1 = true) (⟨true, true⟩) (stZero true true) ∧
    (fun (s : State) => s.sec.zero = none) (stRole 1) := by
  refine ⟨?_, ?_, ?_, ?_⟩ <;> decide +kernel

/-- PlainRegistersFollowTheirFieldTypes. -/
theorem witness_PlainRegistersFollowTheirFieldTypes :
    (∃ (addr : BitVec 28) (s : State) (d : RegD) (i : Nat) (j : Nat), regAt addr.toNat = some (d, i, j) ∧ d.words = .single ∧
      writeFx d.base = none ∧ s.regMapped d i = true ∧ addr.toNat ≠ Reg.merFanCmd ∧ addr.toNat ≠ Reg.merTgtResume ∧ addr.toNat ≠
      Reg.merCollCmd) ∧
    (∃ (addr : BitVec 28) (s : State) (d : RegD) (i : Nat) (j : Nat), regAt addr.toNat = some (d, i, j) ∧ d.words = .single ∧
      atBase d.base readFx = none ∧ atBase d.base valueFx1 = none ∧ atBase d.base valueFx2 = none ∧ s.regMapped d i = true) :=
  ⟨⟨0x0D00118, stA, (regD 0x0D00118).1, (regD 0x0D00118).2.1, (regD 0x0D00118).2.2, rfl, rfl, rfl, by decide +kernel,
      by decide +kernel, by decide +kernel, by decide +kernel⟩,
    ⟨0x0D00118, stA, (regD 0x0D00118).1, (regD 0x0D00118).2.1, (regD 0x0D00118).2.2, rfl, rfl, rfl, rfl, rfl, by decide +kernel⟩⟩

/-- TwoWordValuesCommitAndCaptureWhole. -/
theorem witness_TwoWordValuesCommitAndCaptureWhole :
    (∃ (addr : BitVec 28) (s : State) (d : RegD) (i : Nat) (j : Nat), regAt addr.toNat = some (d, i, j) ∧ d.words = .part 0 2 ∧
      (unitReg d.base = true → s.scanBusy i = false) ∧ (adminBase d.base = true → s.gatePending i = false) ∧ s.regMapped d i =
      true ∧ addr.toNat ≠ Reg.merFanCmd ∧ addr.toNat ≠ Reg.merTgtResume ∧ addr.toNat ≠ Reg.merCollCmd) ∧
    (∃ (addr : BitVec 28) (s : State) (d : RegD) (d' : RegD) (i : Nat) (j : Nat) (i' : Nat) (j' : Nat), regAt addr.toNat = some
      (d, i, j) ∧ d.words = .part 1 2 ∧ (unitReg d.base = true → s.scanBusy i = false) ∧ (adminBase d.base = true →
      s.gatePending i = false) ∧ s.regMapped d i = true ∧ 4 ≤ addr.toNat ∧ regAt (addr.toNat - 4) = some (d', i', j') ∧
      addr.toNat ≠ Reg.merFanCmd ∧ addr.toNat ≠ Reg.merTgtResume ∧ addr.toNat ≠ Reg.merCollCmd ∧ d.base ≠ Reg.timeViewRateHi 0 ∧
      d.base ≠ Reg.timeViewStepHi 0 ∧ d.base ≠ Reg.timeViewOffsetW2 0 ∧ d.base ≠ Reg.chkUnitRunningHi 0) ∧
    (∃ (addr : BitVec 28) (s : State) (d : RegD) (i : Nat) (j : Nat), regAt addr.toNat = some (d, i, j) ∧ d.words = .part 0 2 ∧
      unitReg d.base = true ∧ s.regMapped d i = true ∧ s.scanBusy i = true) ∧
    (∃ (addr : BitVec 28) (s : State) (d : RegD) (i : Nat) (j : Nat), regAt addr.toNat = some (d, i, j) ∧ d.words = .part 0 2 ∧
      adminBase d.base = true ∧ s.regMapped d i = true ∧ s.gatePending i = true) ∧
    (∃ (addr : BitVec 28) (s : State) (d : RegD) (d' : RegD) (i : Nat) (j : Nat) (i' : Nat) (j' : Nat), regAt addr.toNat = some
      (d, i, j) ∧ d.words = .part 0 2 ∧ s.regMapped d i = true ∧ regAt (addr.toNat + 4) = some (d', i', j') ∧ d.base ≠
      Reg.chkUnitBytesLo 0 ∧ d.base ≠ Reg.chkUnitRunningLo 0) :=
  ⟨⟨0x1000420, stA, (regD 0x1000420).1, (regD 0x1000420).2.1, (regD 0x1000420).2.2, rfl, rfl, by decide +kernel,
      by decide +kernel, by decide +kernel, by decide +kernel, by decide +kernel, by decide +kernel⟩,
    ⟨0x1000424, stA, (regD 0x1000424).1, (regD 0x1000420).1, (regD 0x1000424).2.1, (regD 0x1000424).2.2, (regD 0x1000420).2.1,
      (regD 0x1000420).2.2, rfl, rfl, by decide +kernel, by decide +kernel, by decide +kernel, by decide +kernel, rfl,
      by decide +kernel, by decide +kernel, by decide +kernel, by decide +kernel, by decide +kernel, by decide +kernel,
      by decide +kernel⟩,
    ⟨0x1101208, stScan false, (regD 0x1101208).1, (regD 0x1101208).2.1, (regD 0x1101208).2.2, rfl, rfl, by decide +kernel,
      by decide +kernel, by decide +kernel⟩,
    ⟨0x0C01008, stGatePend, (regD 0x0C01008).1, (regD 0x0C01008).2.1, (regD 0x0C01008).2.2, rfl, rfl, by decide +kernel,
      by decide +kernel, by decide +kernel⟩,
    ⟨0x1000420, stA, (regD 0x1000420).1, (regD 0x1000424).1, (regD 0x1000420).2.1, (regD 0x1000420).2.2, (regD 0x1000424).2.1,
      (regD 0x1000424).2.2, rfl, rfl, by decide +kernel, rfl, by decide +kernel, by decide +kernel⟩⟩

/-! ### Witnesses whose states are too large to evaluate, or that a free value of Config enters -/

/-- A sparse table whose entries all lie at one key has nothing at another. -/
theorem get_replicate {α : Type} (d : Nat → α) (n p j : Nat) (v : α) (h : p ≠ j) :
    SMap.get d (List.replicate n (p, v)) j = d j := by
  induction n with
  | zero => rfl
  | succ n ih => simpa [List.replicate_succ, SMap.get, h] using ih

/-- The Sextant holds 1,048,576 dynamic entries (Table 10.1), none of them in a candidate slot of key 8. -/
def fullOf (s : State) : State := { s with sxt := { s.sxt with em := List.replicate 1048576 (1, some { emA with key := 1000 }) } }

theorem fullOf_dynCount (s : State) : (fullOf s).dynCount = 1048576 := by
  simp only [State.dynCount, fullOf, List.filter_replicate]
  rw [if_pos (by decide)]
  exact List.length_replicate ..

theorem fullOf_emAt (s : State) (j : Nat) (h : 1 ≠ j) : (fullOf s).emAt j = none := get_replicate _ _ _ _ _ h

theorem fullOf_emFind (s : State) (t key : Nat)
    (h : ∀ j ∈ s.cands false false t key ++ (if s.dual false then s.cands false true t key else []), 1 ≠ j) :
    (fullOf s).emFind t key = none := by
  refine List.findSome?_eq_none_iff.2 fun j hj => ?_
  have := fullOf_emAt s j (h j hj)
  simp only [State.emAt] at this
  simp only [this]

/-- SequencerOperatesOnTheTables: EM_INSERT of a new dynamic key beyond the limit. -/
theorem witness_SequencerOperatesOnTheTables_dynamic :
    let s := fullOf ((stSx 0x81000001).wr (Reg.sxtCmdData 2) 8)
    Takes true (cmdOf s) s ∧ s.sxtSub (cmdOf s).table = some 0 ∧ s.emFind (cmdOf s).table 8 = none ∧ (cmdOf s).op = 1 ∧
      imgNum (cmdOf s).data 2 5 = 8 ∧ bit (imgWord (cmdOf s).data 7) 30 = false ∧ 1048576 ≤ s.dynCount :=
  ⟨by decide +kernel, by decide +kernel, fullOf_emFind _ 1 8 (by decide +kernel), by decide +kernel, by decide +kernel,
    by decide +kernel, Nat.le_of_eq (fullOf_dynCount _).symm⟩

/-- LearnsAgeRehashAndRepair: a learn of a new key beyond the limit. -/
theorem witness_LearnsAgeRehashAndRepair_dynamic :
    let s := fullOf (stSxLearn ⟨1, 8, 5, 3⟩)
    s.sxt.learns = [⟨1, 8, 5, 3⟩] ∧ s.seqTakes 2 = true ∧ s.emFind 1 8 = none ∧ s.bit (Reg.sxtTblCfg 1) 30 = false ∧
      1048576 ≤ s.dynCount :=
  ⟨rfl, by decide +kernel, fullOf_emFind _ 1 8 (by decide +kernel), by decide +kernel, Nat.le_of_eq (fullOf_dynCount _).symm⟩

theorem memWrite_frame (s : State) (k : Nat) : (s.memWrite k).sxt = s.sxt ∧ (s.memWrite k).dev = s.dev := by
  unfold State.memWrite
  split <;> exact ⟨rfl, rfl⟩

/-- A prefix of VRF 2, IPv4, in a Compact length table. -/
def lpmE : EmEntry := { table := 264, key := 2 * 2 ^ 128 + 0x0B000000, result := 6 }

/-- More than 524,288 IPv4 prefixes are beyond the Compact capacity (Table 10.1). -/
theorem many_hashed (u : State) (hc : u.dev.body.carve.full = false) (h : u.sxt.lpmh = List.replicate 524289 (1, some lpmE)) :
    u.lpmFits 0 = false := by
  have e : 524289 ≤ u.lpmCount 0 := by
    simp only [State.lpmCount, State.lpmAll, h, List.filter_append, List.length_append, List.filterMap_replicate, Option.map_some]
    rw [List.filter_replicate, if_pos (by decide +kernel), List.length_replicate]
    exact Nat.le_add_left ..
  simp only [State.lpmFits, State.lpmCapacity, hc]
  simp
  omega

theorem many_default (u : State) (hc : u.dev.body.carve.full = false)
    (h : u.sxt.lpm = List.replicate 524289 (lpmKey 2 0 0 0, some 6)) : u.lpmFits 0 = false := by
  have e : 524289 ≤ u.lpmCount 0 := by
    simp only [State.lpmCount, State.lpmAll, h, List.filter_append, List.length_append, List.filterMap_replicate, Option.map_some]
    rw [List.filter_replicate, if_pos (by decide +kernel), List.length_replicate]
    exact Nat.le_add_right ..
  simp only [State.lpmFits, State.lpmCapacity, hc]
  simp
  omega

/-- LPM_ADD of a /0 (length 0) or a /8 to VRF 2 in a block with the Compact carve. -/
def stAdd (cmd len : Word) (l : SMap (Option (BitVec 22))) (h : SMap (Option EmEntry)) : State :=
  let s := stSxSmall ((stSx cmd).wr (Reg.sxtCmdData 4) (len * 65536 + 2))
  { s with sxt := { s.sxt with lpm := l, lpmh := h } }

/-- SequencerOperatesOnTheTables: a default route beyond the Compact capacity. -/
theorem witness_SequencerOperatesOnTheTables_capacity :
    let s := stAdd 0x84000003 0 [] (List.replicate 524289 (1, some lpmE))
    let k := dataPrefix (cmdOf s).data
    Takes true (cmdOf s) s ∧ s.sxtSub (cmdOf s).table = some 1 ∧ s.lpmHashed k = false ∧ (cmdOf s).op = 4 ∧
      s.dev.body.carve.full = false ∧ s.lpmAt k = none ∧ (s.setLpm k (some 0)).lpmFits 0 = false :=
  ⟨by decide +kernel, by decide +kernel, by decide +kernel, by decide +kernel, by decide +kernel, by decide +kernel,
    many_hashed _ (by rw [State.setLpm, (memWrite_frame _ _).2]; rfl) (by rw [State.setLpm, (memWrite_frame _ _).1]; rfl)⟩

/-- The first candidate slot of the /8 of `stAdd` in its length table. -/
def slotH : Nat := (lpmCandSlots (stA.rd Reg.sxtLpmSeed) 264 (lpmHash (lpmKey 2 0 8 0x0A000000))).headD 0

/-- The first candidate slot of a key of a length table, when its entry lies there. -/
theorem hashFind_first (s : State) (t key i : Nat) (e : EmEntry) (h : s.sxt.lpmh = [(i, some e)])
    (hi : (s.cands true false t key).head? = some i) (ht : e.table = t) (hk : e.key = key) : s.hashFind true t key = some (i, e) := by
  obtain ⟨tl, hl⟩ := List.head?_eq_some_iff.1 hi
  simp [State.hashFind, State.findIn, hl, State.slotAt, State.slotMap, h, SMap.get, ht, hk]

/-- No entry stands in a length table that is empty. -/
theorem hashFind_empty (s : State) (h : s.sxt.lpmh = []) (t key : Nat) : s.hashFind true t key = none := by
  refine List.findSome?_eq_none_iff.2 fun j _ => ?_
  simp [State.slotAt, State.slotMap, h, SMap.get]

theorem filterAdd_frame (s : State) (t key : Nat) :
    (s.filterAdd t key).sxt.lpm = s.sxt.lpm ∧ (s.filterAdd t key).sxt.lpmh = s.sxt.lpmh ∧ (s.filterAdd t key).dev = s.dev := by
  unfold State.filterAdd
  generalize s.filterKeys t key = l
  induction l generalizing s with
  | nil => exact ⟨rfl, rfl, rfl⟩
  | cons b l ih => exact ih _

/-- The key of 10.0.0.0/8 of VRF 2 in its length table. -/
def keyH : Nat := lpmHash (lpmKey 2 0 8 0x0A000000)

theorem candSlots_head (seed : Word) (t key : Nat) :
    (lpmCandSlots seed t key).head? = some ((lpmCandSlots seed t key).headD 0) := rfl

theorem cands_first (s : State) (h : s.rd Reg.sxtLpmSeed = stA.rd Reg.sxtLpmSeed) :
    (s.cands true false 264 keyH).head? = some slotH := by
  simp only [State.cands, hashSeed, if_true, Bool.false_eq_true, if_false, h, slotH]
  exact candSlots_head _ _ _

/-- SequencerOperatesOnTheTables: a prefix that stands in its length table, for LPM_ADD. -/
theorem witness_SequencerOperatesOnTheTables_replace :
    let e : EmEntry := { table := 264, key := keyH, result := 6 }
    let s := stAdd 0x84000003 8 [] [(slotH, some e)]
    let k := dataPrefix (cmdOf s).data
    Takes true (cmdOf s) s ∧ s.sxtSub (cmdOf s).table = some 1 ∧ s.lpmHashed k = true ∧ (cmdOf s).op = 4 ∧
      lpmTab k = 264 ∧ lpmHash k = keyH ∧ s.hashFind true 264 keyH = some (slotH, e) :=
  ⟨by decide +kernel, by decide +kernel, by decide +kernel, by decide +kernel, by decide +kernel, by decide +kernel,
    hashFind_first _ _ _ _ _ rfl (cands_first _ (by decide +kernel)) rfl rfl⟩

/-- The same for LPM_DEL, whose filter counts have not saturated. -/
theorem witness_SequencerOperatesOnTheTables_remove :
    let e : EmEntry := { table := 264, key := keyH, result := 6 }
    let s := stAdd 0x85000003 8 [] [(slotH, some e)]
    let k := dataPrefix (cmdOf s).data
    Takes true (cmdOf s) s ∧ s.sxtSub (cmdOf s).table = some 1 ∧ s.lpmHashed k = true ∧ (cmdOf s).op = 5 ∧
      lpmTab k = 264 ∧ lpmHash k = keyH ∧ s.hashFind true 264 keyH = some (slotH, e) ∧ s.filterCount 0 < 15 :=
  ⟨by decide +kernel, by decide +kernel, by decide +kernel, by decide +kernel, by decide +kernel, by decide +kernel,
    hashFind_first _ _ _ _ _ rfl (cands_first _ (by decide +kernel)) rfl rfl, by decide +kernel⟩

/-- What an addition to an empty length table leaves. -/
theorem lpmPut_empty (s : State) (k : Nat) (r : BitVec 22) (hk : s.lpmHashed k = true) (hl : s.sxt.lpmh = []) :
    ∃ x, (s.lpmPut k r).2.sxt.lpm = s.sxt.lpm ∧ (s.lpmPut k r).2.sxt.lpmh = [x] ∧ (s.lpmPut k r).2.dev = s.dev := by
  have hc : s.cands true (s.dual true) (lpmTab k) (lpmHash k) =
      (s.cands true (s.dual true) (lpmTab k) (lpmHash k)).headD 0 :: (s.cands true (s.dual true) (lpmTab k) (lpmHash k)).tail := by
    simp only [State.cands, if_true]
    rfl
  have hf : ∀ i, s.slotAt true i = none := fun i => by simp [State.slotAt, State.slotMap, hl, SMap.get]
  unfold State.lpmPut State.hashPlace
  simp only [hk, if_true, hashFind_empty s hl]
  rw [hc]
  simp only [List.find?_cons, hf, Option.isNone_none]
  generalize List.headD _ _ = i
  obtain ⟨f1, f2, f3⟩ := filterAdd_frame (s.setSlot true i (some
    { table := lpmTab k, key := lpmHash k, result := r.setWidth 64, fresh := s.dual true })) (lpmTab k) (lpmHash k)
  refine ⟨(i, some { table := lpmTab k, key := lpmHash k, result := r.setWidth 64, fresh := s.dual true }), ?_, ?_, ?_⟩
  · rw [f1, State.setSlot, (memWrite_frame _ _).1]; rfl
  · rw [f2, State.setSlot, (memWrite_frame _ _).1, if_pos rfl, hl]; rfl
  · rw [f3, State.setSlot, (memWrite_frame _ _).2]; rfl

/-- SequencerOperatesOnTheTables: a prefix that no length table holds, with a free candidate. -/
theorem witness_SequencerOperatesOnTheTables_place :
    let s := stAdd 0x84000003 8 [] []
    let k := dataPrefix (cmdOf s).data
    Takes true (cmdOf s) s ∧ s.sxtSub (cmdOf s).table = some 1 ∧ s.lpmHashed k = true ∧ (cmdOf s).op = 4 ∧ lpmTab k = 264 ∧
      lpmHash k = keyH ∧ s.hashFind true 264 keyH = none ∧
      (s.cands true (s.dual true) 264 keyH).find? (fun j => (s.slotAt true j).isNone) = some slotH ∧
      (s.lpmPut k 0).2.lpmFits 0 = true ∧ s.filterCount 0 ≤ 15 := by
  refine ⟨by decide +kernel, by decide +kernel, by decide +kernel, by decide +kernel, by decide +kernel, by decide +kernel,
    hashFind_empty _ rfl _ _, ?_, ?_, by decide +kernel⟩
  · have hd : (stAdd 0x84000003 8 [] []).dual true = false := by decide +kernel
    obtain ⟨tl, hl⟩ := List.head?_eq_some_iff.1 (cands_first (stAdd 0x84000003 8 [] []) (by decide +kernel))
    rw [hd, hl]
    rfl
  · obtain ⟨x, h1, h2, h3⟩ := lpmPut_empty (stAdd 0x84000003 8 [] []) (dataPrefix (cmdOf (stAdd 0x84000003 8 [] [])).data) 0
      (by decide +kernel) rfl
    have hz : ∀ u : State, u.dev.body.carve.full = false → u.sxt.lpm = [] → u.sxt.lpmh = [x] → u.lpmFits 0 = true := by
      intro u a b c
      have : u.lpmCount 0 ≤ 1 := by
        simp only [State.lpmCount, State.lpmAll, b, c]
        refine Nat.le_trans (List.length_filter_le ..) ?_
        cases h : x.2 <;> simp [h]
      simp only [State.lpmFits, State.lpmCapacity, a]
      simp
      omega
    exact hz _ (by rw [h3]; rfl) h1 h2

/-- SequencerOperatesOnTheTables: the same beyond the capacity. -/
theorem witness_SequencerOperatesOnTheTables_beyond :
    let s := stAdd 0x84000003 8 (List.replicate 524289 (lpmKey 2 0 0 0, some 6)) []
    let k := dataPrefix (cmdOf s).data
    Takes true (cmdOf s) s ∧ s.sxtSub (cmdOf s).table = some 1 ∧ s.lpmHashed k = true ∧ (cmdOf s).op = 4 ∧ lpmTab k = 264 ∧
      lpmHash k = keyH ∧ s.hashFind true 264 keyH = none ∧ ((s.lpmPut k 0).1 = none ∨ (s.lpmPut k 0).2.lpmFits 0 = false) := by
  refine ⟨by decide +kernel, by decide +kernel, by decide +kernel, by decide +kernel, by decide +kernel, by decide +kernel,
    hashFind_empty _ rfl _ _, .inr ?_⟩
  obtain ⟨x, h1, h2, h3⟩ := lpmPut_empty (stAdd 0x84000003 8 (List.replicate 524289 (lpmKey 2 0 0 0, some 6)) [])
    (dataPrefix (cmdOf (stAdd 0x84000003 8 (List.replicate 524289 (lpmKey 2 0 0 0, some 6)) [])).data) 0 (by decide +kernel) rfl
  exact many_default _ (by rw [h3]; rfl) h1

/-- A block whose receive queue of PLOAM messages is full. -/
def stPloamFull : State :=
  { stPloamu with act := { stPloamu.act with rx := List.replicate 4096 ⟨0, []⟩ }, sec := { stPloamu.sec with nonApproved := true } }

/-- The burst of `stPloamu` once its PLOAM message was heard. -/
def heardA (b : Burst) : Burst := { b with grants := [{ onu := 7, ploamu := true, heard := true }] }

theorem micKey_rx (s : State) (n o : Nat) (h : s.sec.nonApproved = true) : (s.micKey n o).2.act.rx = s.act.rx := by
  unfold State.micKey
  split
  · rfl
  · simp only [State.useNonApproved, h, if_true]

/-- PloamQueuesAndSupervision: a message that meets a full queue. -/
theorem witness_PloamQueuesAndSupervision_full :
    let b : Burst := { burstA with st := .confirmed, grants := [{ onu := 7, ploamu := true }] }
    let u := stPloamFull.updBurst 1 4 2 heardA
    stPloamFull.burstOf 1 4 2 = some b ∧ b.st = .confirmed ∧ b.kind ≠ .discovery ∧ hearPloam b.grants = some (heardA b).grants ∧
      (u.micKey 0 7).1 = none ∧ 4096 ≤ (u.micKey 0 7).2.act.rx.length :=
  ⟨by decide +kernel, by decide +kernel, by decide +kernel, by decide +kernel, by decide +kernel, by
    rw [micKey_rx _ _ _ (by decide +kernel)]
    exact Nat.le_of_eq List.length_replicate.symm⟩

/-- MessagesAreMetByRoleAndSequence: an event report that meets a full buffer. -/
theorem witness_MessagesAreMetByRoleAndSequence_full :
    let s : State := { stMer 3 loA with obs := { buf := List.replicate 4096 ⟨1, false, 0, 0, 0, 0, 0, []⟩ } }
    let m := merA 0 (.event 33 0 5 1 7 [9])
    s.mer.role ≠ 0 ∧ s.merFor m = true ∧ m.body = .event 33 0 5 1 7 [9] ∧ s.mer.role = 3 ∧ evtBufMax ≤ s.obs.buf.length :=
  ⟨by decide +kernel, (merFor_merA _ _ _).trans (by decide +kernel), by decide +kernel, by decide +kernel, Nat.le_of_eq List.length_replicate.symm⟩

/-- A worker whose last message was `m`. -/
def lastWas (m : MerMsg) : State := { stWorker with mer := { stWorker.mer with last := some m } }

theorem seePair_self (s : State) (m : MerMsg) (h1 : s.mer.role ≠ 3) (h2 : m.nonce = s.mer.nonce)
    (h3 : s.mer.seenMgr = some (m.src, m.nonce)) : s.seePair m = s := by
  rw [State.seePair, if_neg h1, if_pos h3, h2]

theorem lastWas_seePair (q : Word) (b : MerBody) : (lastWas (merA q b)).seePair (merA q b) = lastWas (merA q b) :=
  seePair_self _ _ (show stWorker.mer.role ≠ 3 by decide +kernel) rfl rfl

/-- MessagesAreMetByRoleAndSequence: the last message again, a fan-out and a collection. -/
theorem witness_MessagesAreMetByRoleAndSequence_again :
    let f : MerBody := .fan 0 false [(0x0200000, 1)]
    let c : MerBody := .collect [0x0D01014]
    (lastWas (merA 3 f)).mer.role ≠ 0 ∧ (lastWas (merA 3 f)).merFor (merA 3 f) = true ∧ (merA 3 f).body = f ∧
      (lastWas (merA 3 f)).dev.mode ≠ .safe ∧ lastWas (merA 3 f) = (lastWas (merA 3 f)).seePair (merA 3 f) ∧
      (lastWas (merA 3 f)).mer.last = some (merA 3 f) ∧
      (lastWas (merA 4 c)).mer.role ≠ 0 ∧ (lastWas (merA 4 c)).merFor (merA 4 c) = true ∧ (merA 4 c).body = c ∧
      (lastWas (merA 4 c)).dev.mode ≠ .safe ∧ lastWas (merA 4 c) = (lastWas (merA 4 c)).seePair (merA 4 c) ∧
      (lastWas (merA 4 c)).mer.last = some (merA 4 c) :=
  ⟨by decide +kernel, (merFor_merA _ _ _).trans (by decide +kernel), rfl, by decide +kernel, (lastWas_seePair _ _).symm, rfl,
    by decide +kernel, (merFor_merA _ _ _).trans (by decide +kernel), rfl, by decide +kernel, (lastWas_seePair _ _).symm, rfl⟩

/-! ### Ill-formed terms, one for each check of WellFormed.lean -/

/-- A Meridian message with the body given. -/
def msgOf (b : MerBody) : MerMsg := merA 0 b

/-- An image header whose fields fit. -/
def hdrX : ImgHeader :=
  { magic := 1, format := 1, sectionCount := 0, imageLen := 64, imageId := 0, svn := 0, keySlot := 0, stepping := 0 }

/-- An inject descriptor whose fields fit. -/
def injX : InjDesc := { tsReq := false, srcPort := 0, dstPort := 0, cls := 0, tsId := 0, tsQueue := 0 }

/-- A flash copy whose fields fit. -/
def fwX : FwCopy := { len := 64, hdr := hdrX, dir := [], pubkey := List.replicate 97 0, sig := List.replicate 96 0, digest := 0 }

/-- Is every command of the list ill-formed? -/
def allIll (l : List Instr) : Bool := l.all fun i => !Instr.wf i

theorem test_wf_refuses_accesses_and_frames :
    allIll [.misalignedAccess false false 0 4 0, .misalignedAccess false false (2 ^ 28) 8 0, .misalignedAccess true true 1 0 0,
      .frameIngress { frameA with bytes := List.replicate 10241 0 } false, .frameIngress { frameA with port := 75 } false,
      .pipelinePass 0 [256], .pipelinePass 0 [1, 1], .creditReceived 0 0 0 (2 ^ 24) [] false, .creditReceived 0 0 0 0 [(0, 289)] false,
      .statusReceived 0 0 0 false (2 ^ 24) 0, .ponSelection 0 (2 ^ 18 + 1) [] false 0, .ponSelection 0 0 [(0, 289)] false 0] = true := by
  decide +kernel

theorem test_wf_refuses_headers :
    allIll [.imageHeaderRead { hdrX with magic := 2 ^ 32 }, .imageHeaderRead { hdrX with format := 65536 },
      .imageHeaderRead { hdrX with sectionCount := 65536 }, .imageHeaderRead { hdrX with imageLen := 2 ^ 32 },
      .imageHeaderRead { hdrX with svn := 2 ^ 32 }, .imageHeaderRead { hdrX with keySlot := 65536 },
      .imageHeaderRead { hdrX with stepping := 65536 }, .imageDirectoryRead [{ type := 2 ^ 32, offset := 0, length := 0, flags := 0 }],
      .imageDirectoryRead [{ type := 0, offset := 2 ^ 32, length := 0, flags := 0 }],
      .imageDirectoryRead [{ type := 0, offset := 0, length := 2 ^ 32, flags := 0 }],
      .imageDirectoryRead [{ type := 0, offset := 0, length := 0, flags := 2 ^ 32 }]] = true := by decide +kernel

theorem test_wf_refuses_images :
    allIll [.imageLoadStart 0 (some (2 ^ 32)), .imageDirectoryRead (List.replicate 65 { type := 0, offset := 0, length := 0, flags := 0 }),
      .imageFirstPassEnd [] (List.replicate 96 0) 0, .imageFirstPassEnd (List.replicate 97 0) [] 0,
      .imageSwapStart 0 (some (2 ^ 32)), .startupSelftestEnd true true (some (2 ^ 32)), .memoryBistEnd 0 [(0, 65536)] [],
      .memoryBistEnd 0 [] [(0, 64, 0, 0)], .memoryBistEnd 0 [] [(0, 0, 4096, 0)],
      .swapAuthenticationEnd
        { hdr := hdrX, dir := [{ type := 0, offset := 0, length := 0, flags := 0 }], sections := [], pubkey := [], sig := [], digest := 0 },
      .vinRise 12000 (some { fwX with hdr := { hdrX with magic := 2 ^ 32 } }) none, .vinRise 12000 (some { fwX with pubkey := [] }) none,
      .vinRise 12000 none (some { fwX with sig := [] })] = true := by decide +kernel

theorem test_wf_refuses_rings_and_lines :
    allIll [.puntFrameDelivery [⟨0, 65536⟩], .injectModePipeline 0 { injX with srcPort := 128 } [] 0 0 false,
      .injectModePipeline 0 { injX with dstPort := 128 } [] 0 0 false, .injectModePipeline 0 { injX with cls := 8 } [] 0 0 false,
      .injectModePipeline 0 { injX with tsId := 65536 } [] 0 0 false, .injectModeDirect 0 { injX with tsQueue := 8 } [] 0 0,
      .injectModeDirect 0 injX (List.replicate 10241 0) 0 0, .transmitStampReturn 0 0 0 { view := 16 },
      .discoveryCandidate 0 0 0 0 true 0 0 0 (some ⟨.acknowledge 0, 0, [], 0⟩),
      .upstreamPloam 0 0 0 ⟨.acknowledge 0, 1024, List.replicate 10 0, 0⟩, .energyObservation 0 0 5 5, .dbruReport 0 0 0 0 true (2 ^ 24),
      .ctiReport (some ⟨0, [(0, 2 ^ 32, 0)]⟩), .bulkDmaDescriptor 0 0 (2 ^ 32) [] false true, .trieRootFlip [[0]],
      .fixBlockCompare (List.replicate 1025 0)] = true := by decide +kernel

/-- An upstream XGEM frame. -/
def xgX : UpXgem := { hec := true, pid := 5, key := 0, lf := true, bytes := [] }

theorem test_wf_refuses_fabric_ports_and_pairs :
    allIll [.upstreamXgemFrame 0 0 0 0 { xgX with pid := 65536 } false 0, .upstreamXgemFrame 0 0 0 0 { xgX with key := 4 } false 0,
      .laneMarker 0 [] false 0 [] 0, .laneMarker 0 (List.replicate 32 0) false 0 (List.replicate 1025 (0, false)) 0,
      .cellDelineation 0 [] 0 [], .cellDelineation 0 (List.replicate 256 0) 0 (List.replicate 1025 (0, false)),
      .netFrameReceive 0 (List.replicate 65537 0) 0 0 0 0, .pfcReceive 0 0 [], .pfcReceive 0 0 (List.replicate 8 65536),
      .heartbeatReceive false 0 [], .mapCopyReceive 0 (2 ^ 51) []] = true := by decide +kernel

theorem test_wf_refuses_messages :
    allIll [.announceReceive { msgOf (.ack 0) with strap := 4 } false, .announceReceive { msgOf (.ack 0) with dest := 1024 } false,
      .announceReceive { msgOf (.ack 0) with src := 1024 } false, .announceReceive { msgOf (.ack 0) with nonce := 65536 } false] = true := by
  decide +kernel

theorem test_wf_refuses_message_bodies :
    ([.announce 2 0 0 0 false false, .announce 0 256 0 0 false false, .announce 0 0 4 0 false false, .announce 0 0 0 16 false false,
      .fan 512 false [], .fan 0 false (List.replicate 9 (0, 0)), .fan 0 false [(2, 0)], .fan 0 false [(2 ^ 28, 0)], .ack 2,
      .collect (List.replicate 9 0), .collect [1], .collect [2 ^ 28], .reply (List.replicate 9 0), .event 1280 0 0 0 0 [0, 0, 0, 0],
      .event 0 16 0 0 0 [0, 0, 0, 0], .event 0 0 0 0 0 [], .wpReport 512 0 0, .wpReport 0 4 0, .sync 16 0, .delayReq 16 0,
      .delayResp 16 0 0].all fun b => !wfMerBody b) = true ∧
      allIll [.announceReceive (msgOf (.ack 2)) false, .fanReceive (msgOf (.ack 2)), .ackReceive (msgOf (.ack 2)),
        .wpReportReceive (msgOf (.ack 2)), .syncReceive (msgOf (.ack 2)) 0 0, .delayReqReceive (msgOf (.ack 2)) 0,
        .delayRespReceive (msgOf (.ack 2)), .collectReceive (msgOf (.ack 2)), .replyReceive (msgOf (.ack 2)),
        .eventMessageReceive (msgOf (.ack 2))] = true := by decide +kernel

theorem test_wf_refuses_reports_and_supplies :
    allIll [.patrolScrubRead 0 false 64 0 0, .patrolScrubRead 0 false 0 4096 0, .logbookExportComplete 0 ⟨0, 2 ^ 32⟩,
      .temperatureSample [], .temperatureSample (List.replicate 7 (some 32768)), .temperatureSample (List.replicate 7 (some (-32769))),
      .operationReadFailure (.scan 8) true 0] = true := by decide +kernel

/-! ### The spec's own numbers -/

/-- The bytes of "123456789". -/
def nine : List Byte := [0x31, 0x32, 0x33, 0x34, 0x35, 0x36, 0x37, 0x38, 0x39]

/-- The result of a preset over "123456789" (Table 17.2). -/
def presetOf (n : Nat) : Nat := crcResult (crcPreset n) (crcFeed (crcPreset n) (crcPreset n).init nine)

/-- Table 17.2, row 0. -/
theorem test_preset_0 : presetOf 0 = 0xCBF43926 := by decide +kernel
/-- Table 17.2, row 1. -/
theorem test_preset_1 : presetOf 1 = 0xE3069283 := by decide +kernel
/-- Table 17.2, row 2. -/
theorem test_preset_2 : presetOf 2 = 0x29B1 := by decide +kernel
/-- Table 17.2, row 3. -/
theorem test_preset_3 : presetOf 3 = 0x6C40DF5F0B497347 := by decide +kernel

/-- The next state of a command, or the state before it when there is none. -/
def after (c : Instr) (s : State) : State :=
  match exec c s with
  | .next t => t
  | _ => s

/-- R71: a tick adds 65,536 to the raw counter; an empty queue idles for one tick. -/
theorem test_idle_tick : (match step State.reset with | .next t => t.raw | _ => 0) = 65536 := by decide +kernel

/-- IdleStepIsOneTick: a state that waits for nothing, and one whose booking command is taken in another clock. -/
theorem witness_IdleStepIsOneTick :
    (State.reset.pending = [] ∧ State.reset.rck.booking = none) ∧
      ∃ r : BookReq, ({ State.reset with rck.booking := some r } : State).rck.booking = some r ∧ r.at' ≠ State.reset.raw + 65536 :=
  ⟨⟨rfl, rfl⟩, ⟨0, 0, 0, 0, 0, 0, 0⟩, rfl, by decide +kernel⟩

/-- A reserved address reads 0 (R8). -/
theorem test_reserved_reads_zero :
    (after (.reservedAddressAccess false 0xFFFFFFC 7) { stA with rdata := 7 }).rdata = 0 := by decide +kernel

/-- ZEROIZE_N low for less than 500 ns is ignored (R378). -/
theorem test_zeroize_short : (after (.zeroizeNAssert 499 true) stA).dev.mode = .active := by decide +kernel

/-- LOGOUT leaves no role (R373). -/
theorem test_logout : (after (.logout 0x83000000) (stRole 2)).sec.role = 0 := by decide +kernel

/-- With IMG_SVN_MIN at 0, a request for 1 succeeds and one for 0 is refused with cause 2 (R371). -/
theorem test_otp_svn :
    (after .otpProgrammingEnd (stOtp 3 0 1)).sec.otp.imgSvnMin = 1 ∧
      (after .otpProgrammingEnd (stOtp 3 0 0)).rd Reg.secOtpProgStatus = 0x20000002 := by decide +kernel

/-- Offset and delay of t1 = 0, t2 = 10, t3 = 20, t4 = 26 (R337): ((10 − 0) − (26 − 20)) / 2 and ((10 − 0) + (26 − 20)) / 2. -/
theorem test_time_result : timeResult 0 10 20 26 = (2, 8) := by decide +kernel

/-- A marker is 32 bytes and begins with the pattern of Table 13.4; the receiver reads back what it carries. -/
theorem test_marker :
    markA.length = 32 ∧ markA.take 4 = [0xC5, 0xA3, 0x0F, 0x69] ∧
      (parseMarker markA).map (fun m => (m.src, m.grp, m.logical, m.count)) = some (5, 0, 2, 9) := by decide +kernel

/-- A cell header is 16 bytes; LABEL is its first byte (Table 13.1). -/
theorem test_cell_header :
    (cellHeader { label := 6, dest := 5 }).length = 16 ∧ (cellHeader { label := 6, dest := 5 }).head? = some 6 := by decide +kernel

/-- A ring of 64 wraps from 63 to 0 and PHASE toggles (R359). -/
theorem test_ring_wrap :
    ((after .eventRecordDrain (stRing.wr Reg.evtRingCons 5)).rd Reg.evtRingHead, (after .eventRecordDrain (stRing.wr Reg.evtRingCons 5)).obs.phase)
      = (0, false) := by decide +kernel

/-- A counter pair of 64-bit words is captured low word first and cleared by READ with CLEAR (R363). -/
theorem test_counter_pair :
    ((after (.counterPairReadClear 0xC0000001) { stA with obs := { cnt := [(2, 0x100000005)] } }).rd (Reg.obsCntData 0),
      (after (.counterPairReadClear 0xC0000001) { stA with obs := { cnt := [(2, 0x100000005)] } }).rd (Reg.obsCntData 1),
      (after (.counterPairReadClear 0xC0000001) { stA with obs := { cnt := [(2, 0x100000005)] } }).obs.cnt) = (5, 1, []) := by
  decide +kernel

/-- EM_DELETE of a key that is absent answers RESULT 1 (Table 10.6). -/
theorem test_delete_absent :
    (after .emDelete ((stSx 0x82000001).wr (Reg.sxtCmdData 2) 8)).rd Reg.sxtCmdStatus = 0x41000000 := by decide +kernel

/-- The lookup of 10.1.2.3 under VRF 2 finds the prefix 10.0.0.0/8 (R206). -/
theorem test_longest_prefix :
    ((stSx 0x84000003).lpmMatches 2 0 0x0A010203).head? = some 6 := by decide +kernel

/-- SAFE begins at a fall of POWER_FAIL_N, with CAUSE 4 (R66). -/
theorem test_power_fail :
    ((after (.powerFailNFall true) stA).dev.mode, (after (.powerFailNFall true) stA).rd Reg.devModeCause) = (.safe, 4) := by
  decide +kernel

/-- The queue is first in, first out: step runs its front and leaves the rest. -/
theorem test_step_front :
    (match step { State.reset with pending := [.vectorAck 0, .noteRead] } with | .next t => t.pending | _ => []) = [.noteRead] := by
  decide +kernel

/-- No row of the table has bits: no word spells a command, and withFetchWord changes nothing. -/
theorem test_no_words : decodeTableWord 32 0 = none ∧ State.reset.withFetchWord 32 0 = State.reset := ⟨rfl, rfl⟩

end Sys2Proof.Tests
end

section
/-!
PROOFS. Host access (chapters 00 and 21): accesses that R5 completes without acting on them, and reserved addresses (R8).
-/
namespace Sys2Proof.Machine

variable (s : State)

/-! ### Accesses of another size or alignment (R5, R405) -/

theorem exec_misalignedAccess (bar2 write : Bool) (addr size : Nat) (val : BitVec 64) :
    exec (.misalignedAccess bar2 write addr size val) s = .next (s.misaligned bar2 write addr size val) := rfl

/-- R5 makes no difference between BAR0 and BAR2: off the aligned 32-bit form only the direction of an access counts. -/
theorem State.misaligned_of_not_aligned {addr size : Nat} (h : ¬(size = 4 ∧ addr % 4 = 0)) (bar2 write : Bool) (val : BitVec 64) :
    s.misaligned bar2 write addr size val = if write then s else s.ret 0 := by
  rw [State.misaligned, if_neg h]

/-- Settles O10: such an access misses the aligned branch, which alone reaches a register or a window. -/
theorem accessesOfOtherSizesDoNothing : Obligations.AccessesOfOtherSizesDoNothing := by
  intro bar2 addr size val s h
  constructor
  · rw [exec_misalignedAccess, s.misaligned_of_not_aligned h]
    rfl
  · rw [exec_misalignedAccess, s.misaligned_of_not_aligned h, if_pos rfl]

/-! ### Reserved addresses (R8, R403) -/

theorem exec_reservedAddressAccess (write : Bool) (addr : BitVec 28) (val : Word) :
    exec (.reservedAddressAccess write addr val) s
      = .next (if write then s.hostWrite addr.toNat val else s.regRead addr.toNat) := rfl

theorem State.regRead_of_reserved {a : Nat} (h : regAt a = none) : s.regRead a = s.ret 0 := by
  rw [State.regRead, h]

theorem State.regWrite_of_reserved {a : Nat} (h : regAt a = none) (v : Word) (fan : Bool) : s.regWrite a v fan = s := by
  rw [State.regWrite, h]

theorem ne_of_reserved {a b : Nat} (h : regAt a = none) (hb : (regAt b).isSome = true) : a ≠ b := by
  rintro rfl
  simp [h] at hb

/-- The three Meridian command addresses, whose host write has an action of its own, are registers of the map, so the write
falls through to the map. -/
theorem State.hostWrite_of_reserved {a : Nat} (h : regAt a = none) (v : Word) : s.hostWrite a v = s := by
  have hfan : a ≠ Reg.merFanCmd := ne_of_reserved h (by decide)
  have hresume : a ≠ Reg.merTgtResume := ne_of_reserved h (by decide)
  have hcoll : a ≠ Reg.merCollCmd := ne_of_reserved h (by decide)
  rw [State.hostWrite, if_neg hfan, if_neg hresume, if_neg hcoll, s.regWrite_of_reserved h]

/-- The block windows of Table 21.1 end below 0x0140_0000. -/
theorem blockRegs_of_ge {a : Nat} (h : 0x1400000 ≤ a) : blockRegs a = [] := by
  have not_below : ∀ b ≤ 0x1400000, ¬a < b := fun b hb => Nat.not_lt.mpr (hb.trans h)
  simp [blockRegs, not_below]

theorem regAt_of_ge {a : Nat} (h : 0x1400000 ≤ a) : regAt a = none := by
  rw [regAt, blockRegs_of_ge h, findReg]

/-- Settles O11: an address without a register is no Meridian command either, and no block window reaches 0x0140_0000. -/
theorem reservedAddressesReadZeroAndIgnoreWrites : Obligations.ReservedAddressesReadZeroAndIgnoreWrites := by
  refine ⟨fun addr val s h => ⟨?_, ?_⟩, fun _ => regAt_of_ge⟩
  · rw [exec_reservedAddressAccess, s.regRead_of_reserved h]
    rfl
  · rw [exec_reservedAddressAccess, s.hostWrite_of_reserved h, if_pos rfl]

end Sys2Proof.Machine
end

section
/-!
PROOFS. Transmit time-stamp queues (chapter 04): where a returned stamp goes (R86), and what raising an event does (R356, R358).
-/
namespace Sys2Proof.Machine

/-! ### Reading registers through a status bit and a message -/

/-- Setting a bit clears none, be it the same bit, another of its register, or one of another register. -/
theorem State.bit_setBit_of_bit {s : State} {a i : Nat} (h : s.bit a i = true) (b : Nat) {j : Nat} (hj : j < 32) :
    (s.setBit b j true).bit a i = true := by
  rw [State.bit, State.rd_setBit]
  by_cases hab : a = b
  · subst hab
    rw [if_pos rfl]
    by_cases hij : i = j
    · rw [hij, bit_setBit_self _ hj]
    · rw [bit_setBit_other _ hj hij]
      exact h
  · rw [if_neg hab]
    exact h

theorem State.rd_sendMer (s : State) (d : Nat) (m : MerMsg) (b : Nat) : (s.sendMer d m).rd b = s.rd b := by
  have hcell : (s.sendOther d (merCell m)).rd b = s.rd b := by
    rw [State.sendOther]
    split <;> rfl
  rw [State.sendMer]
  split
  · rfl
  · split
    · exact hcell
    · rfl
    · rfl

/-- What forwarding an event can do (R340): nothing, a message to the manager, or the count of a lost event. -/
theorem State.forward_cases (s : State) (leaf : Nat) (t : BitVec 96) (words : List Word) :
    s.forward leaf t words = s ∨ (∃ d m, s.forward leaf t words = s.sendMer d m) ∨
      s.forward leaf t words = s.bump Reg.merEvtLost := by
  rw [State.forward]
  cases s.mer.mgr with
  | some d => exact (ite_eq_or_eq _ _ s).elim (fun hsent => .inr (.inl ⟨d, _, hsent⟩)) .inl
  | none => exact (ite_eq_or_eq _ _ s).elim (fun hlost => .inr (.inr hlost)) .inl

/-! ### A transmit stamp and its queue (R86) -/

variable (s : State)

theorem exec_transmitStampReturn (q : Fin 8) (tsId : BitVec 16) (port : Fin 75) (stamp : Stamp) :
    exec (.transmitStampReturn q tsId port stamp) s = .next (s.txStamp q.val ⟨tsId, port.val, stamp⟩) := rfl

variable {q : Nat} (e : TxStamp)

theorem State.txStamp_of_room (h : (s.txts q).length < 256) :
    s.txStamp q e = { s with chrono.txts := s.chrono.txts.set (fun _ => []) q (s.txts q ++ [e]) } :=
  if_pos h

theorem State.txStamp_of_full (h : 256 ≤ (s.txts q).length) :
    s.txStamp q e = (s.bump (Reg.timeTxtsDrop q)).event (leafOf 11 q) q :=
  if_neg (Nat.not_lt.mpr h)

theorem State.txts_txStamp_of_room (h : (s.txts q).length < 256) (k : Nat) :
    (s.txStamp q e).txts k = if k = q then s.txts q ++ [e] else s.txts k := by
  rw [s.txStamp_of_room e h]
  exact SMap.get_set _ _ _ _ _

end Sys2Proof.Machine

namespace Sys2Proof.Safety

open Sys2Proof.Machine

/-! ### A raised event leaves its status bit set (R356) -/

section
variable {s : State} {leaf : Nat}

theorem Raised.of_rd_eq {t : State} (h : Raised leaf s) (hrd : ∀ b, t.rd b = s.rd b) : Raised leaf t := by
  rw [Raised, State.bit, hrd]
  exact h

theorem Raised.setStatus (h : Raised leaf s) (other : Nat) : Raised leaf (s.setStatus other) :=
  State.bit_setBit_of_bit h _ (Nat.mod_lt _ (by decide))

/-- The status registers lie above the counters of lost events (EVT_BUF_DROP, MER_EVT_LOST). -/
theorem Raised.bump (h : Raised leaf s) {a : Nat} (ha : a < Reg.evtStatus 0) : Raised leaf (s.bump a) := by
  rw [Raised, State.bit, State.rd_bump, if_neg (Nat.ne_of_gt (ha.trans_le (Nat.le_add_right _ _)))]
  exact h

theorem Raised.putRecord (h : Raised leaf s) (l : Nat) (fwd : Bool) (view : Nat) (ns32 : Word) (subns : Byte) (src : Nat)
    (words : List Word) : Raised leaf (s.putRecord l fwd view ns32 subns src words) := by
  have hseq : Raised leaf { s with obs.seq := s.obs.seq + 1 } := h
  unfold State.putRecord
  dsimp only
  split
  · exact h
  · exact (hseq.bump (by decide)).setStatus leafBufOverflow

theorem Raised.forward (h : Raised leaf s) (l : Nat) (t : BitVec 96) (words : List Word) :
    Raised leaf (s.forward l t words) := by
  obtain hnone | ⟨d, m, hsent⟩ | hlost := s.forward_cases l t words
  · rwa [hnone]
  · rw [hsent]
    exact h.of_rd_eq (s.rd_sendMer d m)
  · rw [hlost]
    exact h.bump (by decide)

end

theorem raised_setStatus (s : State) (leaf : Nat) : Raised leaf (s.setStatus leaf) := by
  rw [Raised, State.bit, State.setStatus, State.rd_setBit, if_pos rfl]
  exact bit_setBit_self _ (Nat.mod_lt _ (by decide)) true

theorem raised_raise (s : State) (leaf inst : Nat) (w1 w2 w3 : Word) : Raised leaf (s.raise leaf inst w1 w2 w3) := by
  have hset := raised_setStatus s leaf
  unfold State.raise
  refine Raised.forward ?_ _ _ _
  split
  · exact hset.putRecord _ _ _ _ _ _ _
  · exact hset

/-! ### What a count and an event may change -/

theorem Reports.trans {k l : List Nat} {s t u : State} (h : Reports k s t) (h' : Reports l t u) : Reports (k ++ l) s u := by
  obtain ⟨hst, hrd⟩ := h
  obtain ⟨htu, hrd'⟩ := h'
  refine ⟨State.EventOnly.trans hst htu, fun a ha => ?_⟩
  obtain ⟨hk, hl⟩ := not_or.mp (mt List.mem_append.mpr ha)
  rw [hrd' a hl, hrd a hk]

theorem Reports.chrono_eq {l : List Nat} {s t : State} (h : Reports l s t) : t.chrono = s.chrono := by
  obtain ⟨hst, -⟩ := h
  rw [hst]

theorem reports_bump (s : State) (a : Nat) : Reports [a] s (s.bump a) :=
  ⟨rfl, fun b hb => by rw [State.rd_bump, if_neg (List.ne_of_not_mem_cons hb)]⟩

theorem reports_event (s : State) (leaf inst : Nat) : Reports (eventRegs leaf) s (s.event leaf inst) := by
  refine ⟨s.raise_frame leaf inst 0 0 0, fun a ha => ?_⟩
  simp only [eventRegs, List.mem_cons, List.not_mem_nil, or_false, not_or] at ha
  obtain ⟨hstatus, hfull, hdrop, hlost⟩ := ha
  exact s.rd_raise_other leaf inst 0 0 0 hstatus hfull hdrop hlost

/-! ### A stamp that finds its queue full (R86) -/

/-- No queue's drop count is among the registers that an event changes. -/
theorem timeTxtsDrop_not_mem_eventRegs {q : Nat} (hq : q < 8) (leaf : Nat) : Reg.timeTxtsDrop q ∉ eventRegs leaf := by
  simp only [eventRegs, leafBufOverflow, Reg.timeTxtsDrop, Reg.evtStatus, Reg.evtBufDrop, Reg.merEvtLost, List.mem_cons,
    List.not_mem_nil, or_false]
  omega

section
variable {s : State} {q : Nat} (e : TxStamp) (h : 256 ≤ (s.txts q).length)
include h

theorem reports_txStamp_of_full : Reports (Reg.timeTxtsDrop q :: eventRegs (leafOf 11 q)) s (s.txStamp q e) := by
  rw [s.txStamp_of_full e h]
  exact (reports_bump s _).trans (reports_event _ _ q)

theorem rd_timeTxtsDrop_txStamp_of_full (hq : q < 8) :
    (s.txStamp q e).rd (Reg.timeTxtsDrop q) = satAdd (s.rd (Reg.timeTxtsDrop q)) 1 := by
  obtain ⟨-, hevent⟩ := reports_event (s.bump (Reg.timeTxtsDrop q)) (leafOf 11 q) q
  rw [s.txStamp_of_full e h, hevent _ (timeTxtsDrop_not_mem_eventRegs hq _), State.rd_bump, if_pos rfl]

theorem raised_txStamp_of_full : Raised (leafOf 11 q) (s.txStamp q e) := by
  rw [s.txStamp_of_full e h]
  exact raised_raise _ _ _ _ _ _

end

/-- Settles O46: with room the step is one write to the table of queues; without, it is one count and one event, which leave
the chronometer alone, and the event leaves the count alone. -/
theorem transmitStampQueuesDiscardWhenFull : Obligations.TransmitStampQueuesDiscardWhenFull := by
  constructor
  · intro q tsId port stamp s h
    refine ⟨_, exec_transmitStampReturn s q tsId port stamp, ?_, fun k hk => ?_, ?_⟩
    · rw [s.txts_txStamp_of_room _ h, if_pos rfl]
    · rw [s.txts_txStamp_of_room _ h, if_neg (List.ne_of_not_mem_cons hk)]
    · rw [s.txStamp_of_room _ h]
  · intro q tsId port stamp s h
    have hreports := reports_txStamp_of_full ⟨tsId, port.val, stamp⟩ h
    exact ⟨_, exec_transmitStampReturn s q tsId port stamp, hreports.chrono_eq, rd_timeTxtsDrop_txStamp_of_full _ h q.isLt,
      raised_txStamp_of_full _ h, hreports⟩

end Sys2Proof.Safety
end

section
/-!
PROOFS. Every step (chapter 95): each command completes, and it keeps what Laws/Keep.lean lists; only the end of OTP programming
moves a fuse (R371).
-/
namespace Sys2Proof.Machine

/-! ### One command -/

theorem exec_completes (c : Instr) (s : State) : ∃ t, exec c s = .next t := by
  cases c <;> exact ⟨_, rfl⟩

/-- Every command but OTP_PROGRAMMING_END keeps the queue, the fuses, the whole tick, the canonical tables and the outputs sent. -/
theorem exec_keeps {Q : Mark} {s : State} (kp : Keeps Q s) {c : Instr} (hc : c ≠ .otpProgrammingEnd) :
    KeepsO Q (exec c s) := by
  cases c with
  | misalignedAccess bar2 write addr size val => exact execMisalignedAccess_keeps kp bar2 write addr size val
  | reservedAddressAccess write addr val => exact execReservedAddressAccess_keeps kp write addr val
  | multiwordLowWrite addr val => exact execMultiwordLowWrite_keeps kp addr val
  | multiwordCommit addr val => exact execMultiwordCommit_keeps kp addr val
  | multiwordCaptureRead addr => exact execMultiwordCaptureRead_keeps kp addr
  | rcRead addr => exact execRcRead_keeps kp addr
  | registerWrite addr val => exact execRegisterWrite_keeps kp addr val
  | frameIngress f full => exact execFrameIngress_keeps kp f full
  | pipelinePass p bad => exact execPipelinePass_keeps kp p bad
  | cellPop ws => exact execCellPop_keeps kp ws
  | cellPush p => exact execCellPush_keeps kp p
  | cacheRefill k uncorr => exact execCacheRefill_keeps kp k uncorr
  | cacheSpill k => exact execCacheSpill_keeps kp k
  | creditReceived dev port cls bytes errs qBad => exact execCreditReceived_keeps kp dev port cls bytes errs qBad
  | statusOnRefresh v => exact execStatusOnRefresh_keeps kp v
  | statusReceived port cls src on ret received => exact execStatusReceived_keeps kp port cls src on ret received
  | portStateReceived dev port st => exact execPortStateReceived_keeps kp dev port st
  | holdDownExpiry ix at' => exact execHoldDownExpiry_keeps kp ix at'
  | replicationTake => exact execReplicationTake_keeps kp
  | ponSelection ch space errs qBad ctxBad => exact execPonSelection_keeps kp ch space errs qBad ctxBad
  | creditIssue port => exact execCreditIssue_keeps kp port
  | wheelSlot coarse at' => exact execWheelSlot_keeps kp coarse at'
  | stagingTransmit ix cap latency bad => exact execStagingTransmit_keeps kp ix cap latency bad
  | gateEntryBoundary m at' => exact execGateEntryBoundary_keeps kp m at'
  | gateListGo m val => exact execGateListGo_keeps kp m val
  | gateListStart m at' => exact execGateListStart_keeps kp m at'
  | gateEntryWrite val => exact execGateEntryWrite_keeps kp val
  | gateEntryRead val => exact execGateEntryRead_keeps kp val
  | nodeWrite val => exact execNodeWrite_keeps kp val
  | nodeRead val => exact execNodeRead_keeps kp val
  | profileWrite val => exact execProfileWrite_keeps kp val
  | profileRead val => exact execProfileRead_keeps kp val
  | policerWrite val => exact execPolicerWrite_keeps kp val
  | policerRead val => exact execPolicerRead_keeps kp val
  | almCommitGo val => exact execAlmCommitGo_keeps kp val
  | chartCommitGo val => exact execChartCommitGo_keeps kp val
  | dbaCommitGo val => exact execDbaCommitGo_keeps kp val
  | imageLoadStart val flash => exact execImageLoadStart_keeps kp val flash
  | imageLoadAbort val => exact execImageLoadAbort_keeps kp val
  | imageHeaderRead hdr => exact execImageHeaderRead_keeps kp hdr
  | imageDirectoryRead dir => exact execImageDirectoryRead_keeps kp dir
  | imageFirstPassEnd pubkey sig digest => exact execImageFirstPassEnd_keeps kp pubkey sig digest
  | imageSectionApply sec => exact execImageSectionApply_keeps kp sec
  | imageSecondPassEnd digest => exact execImageSecondPassEnd_keeps kp digest
  | imageReadFailure bytes => exact execImageReadFailure_keeps kp bytes
  | imageSwapStart val flash => exact execImageSwapStart_keeps kp val flash
  | imageSwapAbort val => exact execImageSwapAbort_keeps kp val
  | imageSwapContinue val => exact execImageSwapContinue_keeps kp val
  | swapAuthenticationEnd img => exact execSwapAuthenticationEnd_keeps kp img
  | spareLoadComplete => exact execSpareLoadComplete_keeps kp
  | pipelineMoveComplete => exact execPipelineMoveComplete_keeps kp
  | memoryBistStart val => exact execMemoryBistStart_keeps kp val
  | memoryBistAbort val => exact execMemoryBistAbort_keeps kp val
  | memoryBistEnd tested failing corrected => exact execMemoryBistEnd_keeps kp tested failing corrected
  | puntTailWrite n val => exact execPuntTailWrite_keeps kp n val
  | puntFrameDelivery bufs => exact execPuntFrameDelivery_keeps kp bufs
  | injectTailWrite n val => exact execInjectTailWrite_keeps kp n val
  | injectModePipeline n desc data count cap full => exact execInjectModePipeline_keeps kp n desc data count cap full
  | injectModeDirect n desc data count cap => exact execInjectModeDirect_keeps kp n desc data count cap
  | modeRequest val => exact execModeRequest_keeps kp val
  | safeRequest val => exact execSafeRequest_keeps kp val
  | modeTransitionComplete at' => exact execModeTransitionComplete_keeps kp at'
  | safeGraceEnd at' => exact execSafeGraceEnd_keeps kp at'
  | fatalError src => exact execFatalError_keeps kp src
  | powerFailNFall board => exact execPowerFailNFall_keeps kp board
  | startupSelftestEnd shaOk ecdsaOk boot => exact execStartupSelftestEnd_keeps kp shaOk ecdsaOk boot
  | commissioningPhaseEnd ok failedTest => exact execCommissioningPhaseEnd_keeps kp ok failedTest
  | devResetCold val => exact execDevResetCold_keeps kp val
  | devResetWarm val => exact execDevResetWarm_keeps kp val
  | resetNLow ns => exact execResetNLow_keeps kp ns
  | perstNLow => exact execPerstNLow_keeps kp
  | perstNDeassert => exact execPerstNDeassert_keeps kp
  | blkResetRings val => exact execBlkResetRings_keeps kp val
  | blkResetEvt val => exact execBlkResetEvt_keeps kp val
  | blkResetChk val => exact execBlkResetChk_keeps kp val
  | blkResetMer val => exact execBlkResetMer_keeps kp val
  | blkResetLht val => exact execBlkResetLht_keeps kp val
  | blockResetComplete blk => exact execBlockResetComplete_keeps kp blk
  | viewRateCommit v hi => exact execViewRateCommit_keeps kp v hi
  | viewOffsetCommit v w2 => exact execViewOffsetCommit_keeps kp v w2
  | viewStepCommit v hi => exact execViewStepCommit_keeps kp v hi
  | stampConversion port rx cap latency domain => exact execStampConversion_keeps kp port rx cap latency domain
  | timeSnapGo val => exact execTimeSnapGo_keeps kp val
  | transmitStampReturn q tsId port stamp => exact execTransmitStampReturn_keeps kp q tsId port stamp
  | txtsRead q => exact execTxtsRead_keeps kp q
  | synceSourceLoss a => exact execSynceSourceLoss_keeps kp a
  | synceResume a at' => exact execSynceResume_keeps kp a at'
  | ppsInEdge falling cap => exact execPpsInEdge_keeps kp falling cap
  | todInByte b => exact execTodInByte_keeps kp b
  | todInRead => exact execTodInRead_keeps kp
  | ppsOutPulse at' => exact execPpsOutPulse_keeps kp at'
  | todOutDataWrite val => exact execTodOutDataWrite_keeps kp val
  | todOutSend val => exact execTodOutSend_keeps kp val
  | todOutTransmit at' => exact execTodOutTransmit_keeps kp at'
  | ponFrameBoundary at' => exact execPonFrameBoundary_keeps kp at'
  | ponRealign val => exact execPonRealign_keeps kp val
  | actionTick => exact execActionTick_keeps kp
  | waypointArm slot val => exact execWaypointArm_keeps kp slot val
  | waypointDisarm slot val => exact execWaypointDisarm_keeps kp slot val
  | gpioPulseEnd k at' => exact execGpioPulseEnd_keeps kp k at'
  | gpioCfgWrite k val => exact execGpioCfgWrite_keeps kp k val
  | mapCutoff at' => exact execMapCutoff_keeps kp at'
  | brstPulse j f ix => exact execBrstPulse_keeps kp j f ix
  | burstCandidate j f ix rx hec onu cap latency => exact execBurstCandidate_keeps kp j f ix rx hec onu cap latency
  | burstWindowEnd j f ix => exact execBurstWindowEnd_keeps kp j f ix
  | discoveryCandidate j f ix rx hec onu cap latency msg => exact execDiscoveryCandidate_keeps kp j f ix rx hec onu cap latency msg
  | upstreamFecCodeword j f ix cw corrected uncorrectable => exact execUpstreamFecCodeword_keeps kp j f ix cw corrected uncorrectable
  | rssiArm n val => exact execRssiArm_keeps kp n val
  | rssiTrigger n f ix => exact execRssiTrigger_keeps kp n f ix
  | rssiPulseEnd n => exact execRssiPulseEnd_keeps kp n
  | settlingEnd n => exact execSettlingEnd_keeps kp n
  | lossOfSignal n => exact execLossOfSignal_keeps kp n
  | ponPortReset n val => exact execPonPortReset_keeps kp n val
  | ponPortResetComplete n => exact execPonPortResetComplete_keeps kp n
  | upstreamPloam j f ix msg => exact execUpstreamPloam_keeps kp j f ix msg
  | ploamTxSend val => exact execPloamTxSend_keeps kp val
  | ploamRxRead => exact execPloamRxRead_keeps kp
  | energyObservation j f lo hi => exact execEnergyObservation_keeps kp j f lo hi
  | rogueAnonClear j f => exact execRogueAnonClear_keeps kp j f
  | onuLoss n onu => exact execOnuLoss_keeps kp n onu
  | onuDeactivation n onu at' => exact execOnuDeactivation_keeps kp n onu at'
  | assignId => exact execAssignId_keeps kp
  | setEqd => exact execSetEqd_keeps kp
  | deactivate => exact execDeactivate_keeps kp
  | disable => exact execDisable_keeps kp
  | enable => exact execEnable_keeps kp
  | rangeCmd => exact execRangeCmd_keeps kp
  | sntabWrite val => exact execSntabWrite_keeps kp val
  | sntabRead val => exact execSntabRead_keeps kp val
  | mapComputationStart at' bad => exact execMapComputationStart_keeps kp at' bad
  | mapComputationComplete j => exact execMapComputationComplete_keeps kp j
  | dbruReport j f ix k good bytes => exact execDbruReport_keeps kp j f ix k good bytes
  | allocWrite val => exact execAllocWrite_keeps kp val
  | allocRead val => exact execAllocRead_keeps kp val
  | bookingGo val => exact execBookingGo_keeps kp val
  | ctiReport rep => exact execCtiReport_keeps kp rep
  | bindWrite val => exact execBindWrite_keeps kp val
  | bindRead val => exact execBindRead_keeps kp val
  | dsqWrite val => exact execDsqWrite_keeps kp val
  | dsqRead val => exact execDsqRead_keeps kp val
  | keyWrite val => exact execKeyWrite_keeps kp val
  | keyRead val => exact execKeyRead_keeps kp val
  | keyClear val => exact execKeyClear_keeps kp val
  | keyExchange val => exact execKeyExchange_keeps kp val
  | keyExchangeTimeout n onu at' => exact execKeyExchangeTimeout_keeps kp n onu at'
  | keyIndexSwitch val => exact execKeyIndexSwitch_keeps kp val
  | keyResultRead => exact execKeyResultRead_keeps kp
  | lastSpoofRead => exact execLastSpoofRead_keeps kp
  | upstreamXgemFrame j f ix k x full ctxBad => exact execUpstreamXgemFrame_keeps kp j f ix k x full ctxBad
  | reassemblyTimeout n pid at' => exact execReassemblyTimeout_keeps kp n pid at'
  | chartEntryWrite val => exact execChartEntryWrite_keeps kp val
  | chartEntryRead val => exact execChartEntryRead_keeps kp val
  | chartTableSelect val => exact execChartTableSelect_keeps kp val
  | emInsert => exact execEmInsert_keeps kp
  | emDelete => exact execEmDelete_keeps kp
  | emRead => exact execEmRead_keeps kp
  | lpmAdd noSpace => exact execLpmAdd_keeps kp noSpace
  | lpmDel noSpace => exact execLpmDel_keeps kp noSpace
  | lpmRead => exact execLpmRead_keeps kp
  | writeCmd => exact execWriteCmd_keeps kp
  | readCmd => exact execReadCmd_keeps kp
  | dump t data ok => exact execDump_keeps kp t data ok
  | sxtDmaTailWrite val => exact execSxtDmaTailWrite_keeps kp val
  | bulkDmaDescriptor op t index data noSpace ok => exact execBulkDmaDescriptor_keeps kp op t index data noSpace ok
  | learnTaken => exact execLearnTaken_keeps kp
  | movesClear at' => exact execMovesClear_keeps kp at'
  | ageingVisit slot at' => exact execAgeingVisit_keeps kp slot at'
  | noteRead => exact execNoteRead_keeps kp
  | rehashStart val => exact execRehashStart_keeps kp val
  | rehashAbort val => exact execRehashAbort_keeps kp val
  | rehashMove slot => exact execRehashMove_keeps kp slot
  | rehashEnd => exact execRehashEnd_keeps kp
  | trieRebuildStart val => exact execTrieRebuildStart_keeps kp val
  | trieRebuildAbort val => exact execTrieRebuildAbort_keeps kp val
  | trieRootFlip records => exact execTrieRootFlip_keeps kp records
  | fixCheckStart val => exact execFixCheckStart_keeps kp val
  | fixCheckAbort val => exact execFixCheckAbort_keeps kp val
  | fixBlockCompare words => exact execFixBlockCompare_keeps kp words
  | fixCheckEnd => exact execFixCheckEnd_keeps kp
  | auditStart val => exact execAuditStart_keeps kp val
  | auditAbort val => exact execAuditAbort_keeps kp val
  | auditCarrierWalk flips uncorr => exact execAuditCarrierWalk_keeps kp flips uncorr
  | auditEnd => exact execAuditEnd_keeps kp
  | sweepStart val => exact execSweepStart_keeps kp val
  | sweepAbort val => exact execSweepAbort_keeps kp val
  | sweepMarkingEnd => exact execSweepMarkingEnd_keeps kp
  | sweepEnd => exact execSweepEnd_keeps kp
  | voqMapWrite val => exact execVoqMapWrite_keeps kp val
  | voqMapRead val => exact execVoqMapRead_keeps kp val
  | voqStateRead val => exact execVoqStateRead_keeps kp val
  | laneMarker l bytes mirrored skip cws at' => exact execLaneMarker_keeps kp l bytes mirrored skip cws at'
  | markerLockLoss l => exact execMarkerLockLoss_keeps kp l
  | fecLockLoss l => exact execFecLockLoss_keeps kp l
  | cellDelineation l bytes skip cws => exact execCellDelineation_keeps kp l bytes skip cws
  | cellTransmit g at' => exact execCellTransmit_keeps kp g at'
  | markerInsert g => exact execMarkerInsert_keeps kp g
  | reachWrite d val => exact execReachWrite_keeps kp d val
  | drainEnd d at' => exact execDrainEnd_keeps kp d at'
  | reseqTimeout src at' => exact execReseqTimeout_keeps kp src at'
  | fabricReasmTimeout ctx at' => exact execFabricReasmTimeout_keeps kp ctx at'
  | creditCellSend d at' => exact execCreditCellSend_keeps kp d at'
  | devIdWrite val => exact execDevIdWrite_keeps kp val
  | netFrameReceive ix bytes cap latency corr uncorr => exact execNetFrameReceive_keeps kp ix bytes cap latency corr uncorr
  | pfcReceive ix enable quanta => exact execPfcReceive_keeps kp ix enable quanta
  | pauseTimerExpiry ix c at' => exact execPauseTimerExpiry_keeps kp ix c at'
  | pfcSend ix => exact execPfcSend_keeps kp ix
  | pfcRepeat ix at' => exact execPfcRepeat_keeps kp ix at'
  | netPortFailure ix what => exact execNetPortFailure_keeps kp ix what
  | netPortUpTimer ix at' => exact execNetPortUpTimer_keeps kp ix at'
  | netPortReset ix val => exact execNetPortReset_keeps kp ix val
  | netPortResetComplete ix locked => exact execNetPortResetComplete_keeps kp ix locked
  | saWrite ix val => exact execSaWrite_keeps kp ix val
  | saRead ix val => exact execSaRead_keeps kp ix val
  | saClear ix val => exact execSaClear_keeps kp ix val
  | rxscWrite ix val => exact execRxscWrite_keeps kp ix val
  | heartbeatPeriod at' journal => exact execHeartbeatPeriod_keeps kp at' journal
  | heartbeatReceive rhb src bytes => exact execHeartbeatReceive_keeps kp rhb src bytes
  | bulkSyncStart peer val => exact execBulkSyncStart_keeps kp peer val
  | bulkSyncAbort peer val => exact execBulkSyncAbort_keeps kp peer val
  | syncStreamComplete kib row journal recs kcv => exact execSyncStreamComplete_keeps kp kib row journal recs kcv
  | snapshotCommit recs seq => exact execSnapshotCommit_keeps kp recs seq
  | incrementApply seq recs => exact execIncrementApply_keeps kp seq recs
  | mapCopyReceive j f bursts => exact execMapCopyReceive_keeps kp j f bursts
  | witnessWindowEnd at' => exact execWitnessWindowEnd_keeps kp at'
  | healthEvaluation at' => exact execHealthEvaluation_keeps kp at'
  | announceSend at' => exact execAnnounceSend_keeps kp at'
  | announceReceive msg viaMgmt => exact execAnnounceReceive_keeps kp msg viaMgmt
  | heardTimeout d at' => exact execHeardTimeout_keeps kp d at'
  | fanGo val => exact execFanGo_keeps kp val
  | fanReceive msg => exact execFanReceive_keeps kp msg
  | ackReceive msg => exact execAckReceive_keeps kp msg
  | fanRetry d at' => exact execFanRetry_keeps kp d at'
  | targetResume val => exact execTargetResume_keeps kp val
  | wpReportReceive msg => exact execWpReportReceive_keeps kp msg
  | timeExchange at' => exact execTimeExchange_keeps kp at'
  | syncReceive msg cap txCap => exact execSyncReceive_keeps kp msg cap txCap
  | delayReqReceive msg cap => exact execDelayReqReceive_keeps kp msg cap
  | delayRespReceive msg => exact execDelayRespReceive_keeps kp msg
  | collectGo val => exact execCollectGo_keeps kp val
  | collectReceive msg => exact execCollectReceive_keeps kp msg
  | replyReceive msg => exact execReplyReceive_keeps kp msg
  | eventMessageReceive msg => exact execEventMessageReceive_keeps kp msg
  | patrolScrubRead kind uncorr nbits inst addr => exact execPatrolScrubRead_keeps kp kind uncorr nbits inst addr
  | errLogRead => exact execErrLogRead_keeps kp
  | errorInjectArm val => exact execErrorInjectArm_keeps kp val
  | unitRestart u val => exact execUnitRestart_keeps kp u val
  | unitFeed u val => exact execUnitFeed_keeps kp u val
  | unitFeed1 u val => exact execUnitFeed1_keeps kp u val
  | unitRunningWrite u hi => exact execUnitRunningWrite_keeps kp u hi
  | checkScanStart u val => exact execCheckScanStart_keeps kp u val
  | checkScanAbort u val => exact execCheckScanAbort_keeps kp u val
  | checkScanEnd u data => exact execCheckScanEnd_keeps kp u data
  | eventRecordDrain => exact execEventRecordDrain_keeps kp
  | eventStatusClear g val => exact execEventStatusClear_keeps kp g val
  | eventRingConsWrite val => exact execEventRingConsWrite_keeps kp val
  | eventCoalesceTimer at' => exact execEventCoalesceTimer_keeps kp at'
  | msixSend v masked => exact execMsixSend_keeps kp v masked
  | vectorAck val => exact execVectorAck_keeps kp val
  | counterPairRead val => exact execCounterPairRead_keeps kp val
  | counterPairReadClear val => exact execCounterPairReadClear_keeps kp val
  | logbookTailWrite val => exact execLogbookTailWrite_keeps kp val
  | logbookExport at' => exact execLogbookExport_keeps kp at'
  | logbookExportComplete at' buf => exact execLogbookExportComplete_keeps kp at' buf
  | thresholdConfigWrite k level val => exact execThresholdConfigWrite_keeps kp k level val
  | slotClear val => exact execSlotClear_keeps kp val
  | sampleCapture k free => exact execSampleCapture_keeps kp k free
  | getNonce val => exact execGetNonce_keeps kp val
  | verify val => exact execVerify_keeps kp val
  | logout val => exact execLogout_keeps kp val
  | verifyLockoutEnd at' => exact execVerifyLockoutEnd_keeps kp at'
  | otpKeyHashProgram val => exact execOtpKeyHashProgram_keeps kp val
  | otpRevoke val => exact execOtpRevoke_keeps kp val
  | otpImgSvnMin val => exact execOtpImgSvnMin_keeps kp val
  | otpFwSvnMin val => exact execOtpFwSvnMin_keeps kp val
  | otpProgrammingEnd => exact absurd rfl hc
  | pairKeyWrite val => exact execPairKeyWrite_keeps kp val
  | pairKeyClear val => exact execPairKeyClear_keeps kp val
  | selftestFailure test => exact execSelftestFailure_keeps kp test
  | zeroisationStart val => exact execZeroisationStart_keeps kp val
  | zeroisationAbort val => exact execZeroisationAbort_keeps kp val
  | zeroizeNAssert ns held => exact execZeroizeNAssert_keeps kp ns held
  | zeroisationStep1End => exact execZeroisationStep1End_keeps kp
  | zeroisationEnd => exact execZeroisationEnd_keeps kp
  | vinRise mv copyA copyB => exact execVinRise_keeps kp mv copyA copyB
  | vinDroop mv ns => exact execVinDroop_keeps kp mv ns
  | vinRecover mv ms board => exact execVinRecover_keeps kp mv ms board
  | vinLoss mv us => exact execVinLoss_keeps kp mv us
  | vinBelowStop mv => exact execVinBelowStop_keeps kp mv
  | refclkCheck pon eth pcie => exact execRefclkCheck_keeps kp pon eth pcie
  | railPowerGood k us => exact execRailPowerGood_keeps kp k us
  | startupRailFault k ms => exact execStartupRailFault_keeps kp k ms
  | railFault k us binMs => exact execRailFault_keeps kp k us binMs
  | powerRestart ms => exact execPowerRestart_keeps kp ms
  | binnacleWatchdog ms => exact execBinnacleWatchdog_keeps kp ms
  | refclkLoss which => exact execRefclkLoss_keeps kp which
  | avcUpdate want lost => exact execAvcUpdate_keeps kp want lost
  | temperatureSample t => exact execTemperatureSample_keeps kp t
  | thermalShutdown sensor t => exact execThermalShutdown_keeps kp sensor t
  | cageEnable ch val => exact execCageEnable_keeps kp ch val
  | cageDisable ch val => exact execCageDisable_keeps kp ch val
  | cageClear ch val => exact execCageClear_keeps kp ch val
  | cageTrip ch uv => exact execCageTrip_keeps kp ch uv
  | cageOverload ch uv ms => exact execCageOverload_keeps kp ch uv ms
  | cageStartComplete ch us => exact execCageStartComplete_keeps kp ch us
  | cageRetryEnd ch ms => exact execCageRetryEnd_keeps kp ch ms
  | cageRetriesClear ch ms => exact execCageRetriesClear_keeps kp ch ms
  | cageReversed ch uv us => exact execCageReversed_keeps kp ch uv us
  | cageOpen ch uv ms => exact execCageOpen_keeps kp ch uv ms
  | windowSteerWrite w base val => exact execWindowSteerWrite_keeps kp w base val
  | windowStageWrite w off val => exact execWindowStageWrite_keeps kp w off val
  | windowReadCapture w off => exact execWindowReadCapture_keeps kp w off
  | chartWindowCommit off val => exact execChartWindowCommit_keeps kp off val
  | sextantWindowCommit off val => exact execSextantWindowCommit_keeps kp off val
  | counterWindowRead off => exact execCounterWindowRead_keeps kp off
  | netPortGoodState ix polInv trained => exact execNetPortGoodState_keeps kp ix polInv trained
  | fecLockGain l => exact execFecLockGain_keeps kp l
  | lhPeerLinkLoss => exact execLhPeerLinkLoss_keeps kp
  | lhPeerLinkReturn => exact execLhPeerLinkReturn_keeps kp
  | cageOpenClear ch uv => exact execCageOpenClear_keeps kp ch uv
  | binnacleSignalReturn => exact execBinnacleSignalReturn_keeps kp
  | operationReadFailure op host addr => exact execOperationReadFailure_keeps kp op host addr
  | trieBuildNoSpace => exact execTrieBuildNoSpace_keeps kp
  | snapshotSlotFull => exact execSnapshotSlotFull_keeps kp

/-! ### The mark of a state -/

/-- A state held against itself. -/
def State.mark (s : State) : Mark := ⟨s.pending, s.out, s.drawn, s.sec.otp, Safety.WholeTick s, Safety.Canonical s⟩

theorem State.keeps_mark (s : State) : Keeps s.mark s := ⟨rfl, id, id, List.prefix_rfl, Nat.le_refl _, rfl⟩

/-- The end of OTP programming keeps the rest and gives the fuses what otpProgram answers, or leaves them. -/
theorem exec_otpProgrammingEnd_keeps (s : State) :
    ∃ o, (o = s.sec.otp ∨ ∃ op slot value hash, otpProgram s.sec.otp op slot value hash = .inl o) ∧
      Keeps { s.mark with otp := o } s.otpEnd :=
  State.otpEnd_keeps s.keeps_mark

/-- Every command keeps all but the fuses. -/
theorem exec_keeps_but_otp {s t : State} {c : Instr} (h : exec c s = .next t) :
    ∃ o, Keeps { s.mark with otp := o } t := by
  by_cases hc : c = .otpProgrammingEnd
  · subst hc
    cases h
    obtain ⟨o, -, hk⟩ := exec_otpProgrammingEnd_keeps s
    exact ⟨o, hk⟩
  · exact ⟨s.sec.otp, exec_keeps s.keeps_mark hc t h⟩

/-- What a step can do: run the command at the front, or let a tick pass. -/
theorem step_cases {s t : State} (h : step s = .next t) :
    (∃ c rest, s.pending = c :: rest ∧ exec c { s with pending := rest } = .next t) ∨ s.pending = [] ∧ t = s.idleTick := by
  unfold step at h
  split at h
  · exact .inl ⟨_, _, ‹_›, h⟩
  · cases h
    exact .inr ⟨‹_›, rfl⟩

/-- A step keeps a whole tick and canonical tables: the queue's rest is all that exec sees changed. -/
theorem step_keeps_tick_and_canon {s t : State} (h : step s = .next t) :
    (Safety.WholeTick s → Safety.WholeTick t) ∧ (Safety.Canonical s → Safety.Canonical t) := by
  obtain ⟨c, rest, -, hexec⟩ | ⟨-, rfl⟩ := step_cases h
  · obtain ⟨o, -, htick, hcanon, -⟩ := exec_keeps_but_otp hexec
    exact ⟨htick, hcanon⟩
  · obtain ⟨-, htick, hcanon, -⟩ := State.idleTick_keeps s.keeps_mark
    exact ⟨htick, hcanon⟩

/-! ### Fuses (R371) -/

theorem getElem?_setAt_of_ne {α : Type} (l : List α) {i j : Nat} (v : α) (h : i ≠ j) : (setAt l j v)[i]? = l[i]? := by
  induction l generalizing i j with
  | nil => rfl
  | cons x l ih =>
    cases i with
    | zero =>
      cases j with
      | zero => exact absurd rfl h
      | succ j => rfl
    | succ i =>
      cases j with
      | zero => rfl
      | succ j => exact ih (mt (congrArg _) h)

theorem fusesGrow_refl (o : Otp) : Safety.FusesGrow o o :=
  ⟨fun _ _ h => h, fun _ _ h => h, Nat.le_refl _, Nat.le_refl _⟩

/-- Each operation of OTP_PROGRAM writes a blank slot, sets a bit or raises a minimum. -/
theorem otpProgram_grows {o o' : Otp} {op slot value : Nat} {hash : BitVec 384}
    (h : otpProgram o op slot value hash = .inl o') : Safety.FusesGrow o o' := by
  unfold otpProgram at h
  split at h
  · split at h
    · next hblank =>
      cases h
      refine ⟨fun i x hi => ?_, fun _ _ hr => hr, Nat.le_refl _, Nat.le_refl _⟩
      have hslot : i ≠ slot := by
        rintro rfl
        simp [hi] at hblank
      exact (getElem?_setAt_of_ne _ _ hslot).trans hi
    · cases h
  · split at h
    · cases h
    · split at h
      · cases h
      · cases h
        exact ⟨fun _ _ hi => hi, fun i _ hr => by simp [hr], Nat.le_refl _, Nat.le_refl _⟩
  · split at h
    · next hlt =>
      cases h
      exact ⟨fun _ _ hi => hi, fun _ _ hr => hr, Nat.le_of_lt hlt, Nat.le_refl _⟩
    · cases h
  · split at h
    · next hlt =>
      cases h
      exact ⟨fun _ _ hi => hi, fun _ _ hr => hr, Nat.le_refl _, Nat.le_of_lt hlt⟩
    · cases h
  · cases h

theorem exec_grows_fuses {s t : State} {c : Instr} (h : exec c s = .next t) : Safety.FusesGrow s.sec.otp t.sec.otp := by
  by_cases hc : c = .otpProgrammingEnd
  · subst hc
    cases h
    obtain ⟨o, ho, -, -, -, -, -, hotp⟩ := exec_otpProgrammingEnd_keeps s
    rw [hotp]
    obtain rfl | ⟨op, slot, value, hash, hprog⟩ := ho
    · exact fusesGrow_refl _
    · exact otpProgram_grows hprog
  · obtain ⟨-, -, -, -, -, hotp⟩ := exec_keeps s.keeps_mark hc t h
    rw [hotp]
    exact fusesGrow_refl _

/-! ### The obligations -/

/-- Settles O5: every command lets time pass in whole ticks, and so does a tick. -/
theorem everyStepKeepsWholeTicks : Obligations.EveryStepKeepsWholeTicks :=
  fun _ _ hs h => (step_keeps_tick_and_canon h).1 hs

/-- Settles O6: every command writes its registers through the tables' own write, which keeps their form. -/
theorem everyStepKeepsRegistersCanonical : Obligations.EveryStepKeepsRegistersCanonical :=
  fun _ _ hs h => (step_keeps_tick_and_canon h).2 hs

/-- Settles O7: OTP_PROGRAMMING_END alone moves a fuse, and what it programs only grows. -/
theorem everyStepGrowsFusesOnly : Obligations.EveryStepGrowsFusesOnly := by
  intro s t h
  obtain ⟨c, rest, -, hexec⟩ | ⟨-, rfl⟩ := step_cases h
  · have hgrow := exec_grows_fuses hexec
    exact hgrow
  · obtain ⟨-, -, -, -, -, hotp⟩ := State.idleTick_keeps s.keeps_mark
    rw [hotp]
    exact fusesGrow_refl _

/-- Settles O3. -/
theorem everyCommandLeavesTheQueue : Obligations.EveryCommandLeavesTheQueue := by
  intro c s
  obtain ⟨t, ht⟩ := exec_completes c s
  obtain ⟨o, hpending, -⟩ := exec_keeps_but_otp ht
  exact ⟨t, ht, hpending⟩

/-- Settles O4. -/
theorem outputsAreOnlyAppended : Obligations.OutputsAreOnlyAppended := by
  intro c s
  obtain ⟨t, ht⟩ := exec_completes c s
  obtain ⟨o, -, -, -, hout, -⟩ := exec_keeps_but_otp ht
  exact ⟨t, ht, hout⟩

/-- Settles O8. -/
theorem onlyOtpProgrammingMovesFuses : Obligations.OnlyOtpProgrammingMovesFuses := by
  intro c s hc
  obtain ⟨t, ht⟩ := exec_completes c s
  obtain ⟨-, -, -, -, -, hotp⟩ := exec_keeps s.keeps_mark hc t ht
  exact ⟨t, ht, hotp⟩

/-- Settles O1. -/
theorem stepRunsTheFrontCommand : Obligations.StepRunsTheFrontCommand := fun _ _ _ => rfl

/-- Settles O9: the reset state's register tables are empty. -/
theorem resetMeetsTheInvariants : Obligations.ResetMeetsTheInvariants :=
  ⟨rfl, by decide, rfl, rfl, rfl, rfl, rfl, rfl, rfl⟩

/-! ### A write by field type (R9, Table 00.5) -/

/-- Settles O12: the three masks of `RegD.written` decide each bit on its own. -/
theorem writesFollowFieldTypesBitByBit : Obligations.WritesFollowFieldTypesBitByBit := by
  intro d old v b hb
  have hnot : ∀ w : Word, (~~~w).getLsbD b = !w.getLsbD b := fun w => by rw [BitVec.getLsbD_not, decide_eq_true hb, Bool.true_and]
  simp only [RegD.written, BitVec.getLsbD_or, BitVec.getLsbD_and, hnot]
  cases d.w1sMask.getLsbD b <;> cases d.w1cMask.getLsbD b <;> cases d.rwMask.getLsbD b <;> cases v.getLsbD b <;> simp

end Sys2Proof.Machine
end

section
/-!
PROOFS. Register frames: what a run of register writes may change, and reading multi-word values after it.
-/
namespace Sys2Proof.Safety

open Sys2Proof.Machine

/-! ### Only registers of a list -/

theorem OnlyRegs.refl (l : List Nat) (s : State) : OnlyRegs l s s := ⟨rfl, fun _ _ => rfl⟩

theorem OnlyRegs.trans {k l : List Nat} {s t u : State} (h : OnlyRegs k s t) (h' : OnlyRegs l t u) : OnlyRegs (k ++ l) s u := by
  obtain ⟨hst, hrd⟩ := h
  obtain ⟨htu, hrd'⟩ := h'
  refine ⟨by rw [htu, hst], fun a ha => ?_⟩
  obtain ⟨hk, hl⟩ := not_or.mp (mt List.mem_append.mpr ha)
  rw [hrd' a hl, hrd a hk]

theorem OnlyRegs.mono {k l : List Nat} {s t : State} (h : OnlyRegs k s t) (hkl : k ⊆ l) : OnlyRegs l s t :=
  ⟨h.1, fun a ha => h.2 a (mt (@hkl a) ha)⟩

/-- Two runs of writes to registers of one list. -/
theorem OnlyRegs.comp {l : List Nat} {s t u : State} (h : OnlyRegs l s t) (h' : OnlyRegs l t u) : OnlyRegs l s u :=
  (h.trans h').mono (List.append_subset.mpr ⟨List.Subset.refl l, List.Subset.refl l⟩)

theorem onlyRegs_wr (s : State) (a : Nat) (v : Word) : OnlyRegs [a] s (s.wr a v) :=
  ⟨rfl, fun _ hb => s.rd_wr_other v (List.ne_of_not_mem_cons hb)⟩

/-- A further write of a register of the list. -/
theorem OnlyRegs.wr {l : List Nat} {s t : State} (h : OnlyRegs l s t) {a : Nat} (ha : a ∈ l) (v : Word) :
    OnlyRegs l s (t.wr a v) :=
  h.comp ((onlyRegs_wr t a v).mono (List.cons_subset.mpr ⟨ha, List.nil_subset l⟩))

theorem OnlyRegs.reports {l : List Nat} {s t : State} (h : OnlyRegs l s t) : Reports l s t := by
  obtain ⟨hst, hrd⟩ := h
  exact ⟨by rw [hst], hrd⟩

theorem Reports.refl (l : List Nat) (s : State) : Reports l s s := (OnlyRegs.refl l s).reports

theorem Reports.mono {k l : List Nat} {s t : State} (h : Reports k s t) (hkl : k ⊆ l) : Reports l s t :=
  ⟨h.1, fun a ha => h.2 a (mt (@hkl a) ha)⟩

end Sys2Proof.Safety

namespace Sys2Proof.Machine

/-! ### Values of several words -/

theorem State.rd_wrWords_other (s : State) {a b : Nat} {l : List Word} (h : b < a ∨ a + 4 * l.length ≤ b) :
    (s.wrWords a l).rd b = s.rd b := by
  induction l generalizing s a with
  | nil => rfl
  | cons w l ih =>
    rw [List.length_cons] at h
    rw [State.wrWords, ih _ (by omega), s.rd_wr_other w (by omega)]

/-- A value just written reads back. -/
theorem State.rdWords_wrWords (s : State) (a : Nat) (l : List Word) : (s.wrWords a l).rdWords a l.length = ofWords l := by
  induction l generalizing s a with
  | nil => rfl
  | cons w l ih =>
    rw [State.wrWords, List.length_cons, State.rdWords, ih, State.rd_wrWords_other _ (.inl (by omega)), State.rd_wr_self]
    rfl

theorem ofWords_toWords (n v : Nat) : ofWords (toWords n v) = v % 2 ^ (32 * n) := by
  induction n generalizing v with
  | zero => rw [Nat.mul_zero, Nat.pow_zero, Nat.mod_one]; rfl
  | succ n ih =>
    rw [toWords, ofWords, ih, BitVec.toNat_ofNat, Nat.mul_succ, Nat.add_comm (32 * n), Nat.pow_add, Nat.mod_mul]

theorem length_toWords (n v : Nat) : (toWords n v).length = n := by
  induction n generalizing v with
  | zero => rfl
  | succ n ih => rw [toWords, List.length_cons, ih]

theorem State.rdWords_wrWords_toWords (s : State) (a n v : Nat) :
    (s.wrWords a (toWords n v)).rdWords a n = v % 2 ^ (32 * n) := by
  have h := s.rdWords_wrWords a (toWords n v)
  rwa [length_toWords, ofWords_toWords] at h

/-- A value of several words reads the registers from its address on. -/
theorem State.rdWords_congr {s t : State} {a n : Nat} (h : ∀ b, a ≤ b → b < a + 4 * n → t.rd b = s.rd b) :
    t.rdWords a n = s.rdWords a n := by
  induction n generalizing a with
  | zero => rfl
  | succ n ih =>
    rw [State.rdWords, State.rdWords, h a (Nat.le_refl a) (by omega), ih fun b hb hb' => h b (by omega) (by omega)]

theorem State.wrWords_frame (s : State) (a : Nat) (l : List Word) :
    s.wrWords a l = { s with regs := (s.wrWords a l).regs } := by
  induction l generalizing s a with
  | nil => rfl
  | cons w l ih => rw [State.wrWords, ih]; rfl

theorem State.fld_setFld_self (s : State) (a : Nat) {hi lo : Nat} (h : hi < 32) (hl : lo ≤ hi) (v : Nat) :
    (s.setFld a hi lo v).fld a hi lo = v % 2 ^ (hi + 1 - lo) := by
  rw [State.fld, State.rd_setFld, if_pos rfl, Machine.fld_setFld_self _ h hl]

end Sys2Proof.Machine
end

section
/-!
PROOFS. Views (chapter 04): what a commit of RATE, OFFSET or STEP makes of a view's time (R72 to R74, R80).
-/
namespace Sys2Proof.Machine

/-! ### The registers of a view (Table 04.1): 16 words from its OFFSET on, TIME_VIEW_GEN the thirteenth -/

/-- The first register of a view. -/
def viewBase (v : Nat) : Nat := 0x201000 + 0x40 * v

theorem timeViewOffsetW0_eq (v : Nat) : Reg.timeViewOffsetW0 v = viewBase v := rfl
theorem timeViewRateLo_eq (v : Nat) : Reg.timeViewRateLo v = viewBase v + 0xC := Nat.add_right_comm _ 0xC _
theorem timeViewRateHi_eq (v : Nat) : Reg.timeViewRateHi v = viewBase v + 0x10 := Nat.add_right_comm _ 0x10 _
theorem timeViewEpochW0_eq (v : Nat) : Reg.timeViewEpochW0 v = viewBase v + 0x20 := Nat.add_right_comm _ 0x20 _
theorem timeViewGen_eq (v : Nat) : Reg.timeViewGen v = viewBase v + 0x30 := Nat.add_right_comm _ 0x30 _

/-- Registers outside view `v` read as before. -/
def State.OtherViewsRead (v : Nat) (s t : State) : Prop :=
  ∀ a, a < viewBase v ∨ viewBase v + 0x40 ≤ a → t.rd a = s.rd a

theorem State.OtherViewsRead.wrWords {v : Nat} {s t : State} (h : s.OtherViewsRead v t) {a : Nat} (l : List Word)
    (ha : viewBase v ≤ a) (hl : a + 4 * l.length ≤ viewBase v + 0x40) : s.OtherViewsRead v (t.wrWords a l) := fun b hb => by
  rw [t.rd_wrWords_other (by omega), h b hb]

theorem State.OtherViewsRead.wr {v : Nat} {s t : State} (h : s.OtherViewsRead v t) {a : Nat} (w : Word)
    (ha : viewBase v ≤ a) (hl : a + 4 ≤ viewBase v + 0x40) : s.OtherViewsRead v (t.wr a w) :=
  h.wrWords [w] ha hl

/-- A view's time is a function of its own registers (R72). -/
theorem State.viewTime_congr {s t : State} {x : Nat} (h : ∀ a, viewBase x ≤ a → a < viewBase x + 0x30 → t.rd a = s.rd a)
    (r : Raw) : t.viewTime x r = s.viewTime x r := by
  have hwords : ∀ k ≤ 0x24, t.rdWords (viewBase x + k) 3 = s.rdWords (viewBase x + k) 3 := fun k hk =>
    State.rdWords_congr fun b hb hb' => h b (by omega) (by omega)
  have hreg : ∀ k < 0x30, t.rd (viewBase x + k) = s.rd (viewBase x + k) := fun k hk => h _ (by omega) (by omega)
  simp only [State.viewTime, State.viewOffset, State.viewEpoch, State.viewRate, State.fld, timeViewRateLo_eq,
    timeViewRateHi_eq, timeViewEpochW0_eq, hreg 0xC (by decide), hreg 0x10 (by decide), hwords 0x20 (by decide)]
  rw [timeViewOffsetW0_eq, ← Nat.add_zero (viewBase x), hwords 0 (by decide)]

theorem State.OtherViewsRead.viewTime_eq {v x : Nat} {s t : State} (h : s.OtherViewsRead v t) (hx : x ≠ v) (r : Raw) :
    t.viewTime x r = s.viewTime x r :=
  State.viewTime_congr (fun a ha ha' => h a (by simp only [viewBase] at *; omega)) r

/-! ### Counting commits, and OFFSET -/

theorem State.fld_bumpGen (s : State) (v : Nat) :
    (s.bumpGen v).fld (Reg.timeViewGen v) 15 0 = (s.fld (Reg.timeViewGen v) 15 0 + 1) % 65536 :=
  s.fld_setFld_self _ (by decide) (by decide) _

theorem State.OtherViewsRead.bumpGen {v : Nat} {s t : State} (h : s.OtherViewsRead v t) : s.OtherViewsRead v (t.bumpGen v) :=
  h.wr _ (by rw [timeViewGen_eq]; omega) (by rw [timeViewGen_eq]; omega)

/-- TIME_VIEW_GEN is no part of a view's time. -/
theorem State.rd_bumpGen_below (s : State) {v a : Nat} (h : a < viewBase v + 0x30) : (s.bumpGen v).rd a = s.rd a :=
  s.rd_wr_other _ (by rw [timeViewGen_eq]; omega)

theorem State.viewTime_bumpGen (s : State) (v : Nat) (r : Raw) : (s.bumpGen v).viewTime v r = s.viewTime v r :=
  State.viewTime_congr (fun _ _ h => s.rd_bumpGen_below h) r

theorem State.viewRate_bumpGen (s : State) (v : Nat) : (s.bumpGen v).viewRate v = s.viewRate v := by
  simp only [State.viewRate, State.fld, timeViewRateLo_eq, timeViewRateHi_eq]
  rw [s.rd_bumpGen_below (by omega), s.rd_bumpGen_below (by omega)]

theorem State.viewEpoch_bumpGen (s : State) (v : Nat) : (s.bumpGen v).viewEpoch v = s.viewEpoch v := by
  rw [State.viewEpoch, State.viewEpoch, State.rdWords_congr fun b _ hb =>
    s.rd_bumpGen_below (by rw [timeViewEpochW0_eq] at hb; omega)]

theorem State.viewOffset_bumpGen (s : State) (v : Nat) : (s.bumpGen v).viewOffset v = s.viewOffset v := by
  rw [State.viewOffset, State.viewOffset, State.rdWords_congr fun b _ hb =>
    s.rd_bumpGen_below (by rw [timeViewOffsetW0_eq] at hb; omega)]

theorem State.OtherViewsRead.setOffset {v : Nat} {s t : State} (h : s.OtherViewsRead v t) (x : BitVec 96) :
    s.OtherViewsRead v (t.setOffset v x) :=
  h.wrWords _ (by rw [timeViewOffsetW0_eq]) (by rw [timeViewOffsetW0_eq, length_toWords]; omega)

/-- The registers of a view above OFFSET. -/
theorem State.rd_setOffset_above (s : State) {v a : Nat} (x : BitVec 96) (h : viewBase v + 12 ≤ a) :
    (s.setOffset v x).rd a = s.rd a :=
  s.rd_wrWords_other (.inr (by rw [timeViewOffsetW0_eq, length_toWords]; omega))

theorem State.viewOffset_setOffset (s : State) (v : Nat) (x : BitVec 96) : (s.setOffset v x).viewOffset v = x := by
  rw [State.viewOffset, State.setOffset, State.rdWords_wrWords_toWords]
  exact BitVec.eq_of_toNat_eq (by simp; omega)

/-- OFFSET reads its own registers. -/
theorem State.viewOffset_congr {s t : State} {v : Nat} (h : ∀ a, viewBase v ≤ a → a < viewBase v + 12 → t.rd a = s.rd a) :
    t.viewOffset v = s.viewOffset v := by
  rw [State.viewOffset, State.viewOffset, timeViewOffsetW0_eq, State.rdWords_congr h]

/-- RATE and its epoch lie above OFFSET. -/
theorem State.viewRate_setOffset (s : State) (v : Nat) (x : BitVec 96) : (s.setOffset v x).viewRate v = s.viewRate v := by
  simp only [State.viewRate, State.fld, timeViewRateLo_eq, timeViewRateHi_eq]
  rw [s.rd_setOffset_above x (by omega), s.rd_setOffset_above x (by omega)]

theorem State.viewEpoch_setOffset (s : State) (v : Nat) (x : BitVec 96) : (s.setOffset v x).viewEpoch v = s.viewEpoch v := by
  rw [State.viewEpoch, State.viewEpoch, State.rdWords_congr fun b hb _ =>
    s.rd_setOffset_above x (by rw [timeViewEpochW0_eq] at hb; omega)]

/-! ### The step (R74) -/

theorem viewTimeOf_add_offset (offset d : BitVec 96) (rate : BitVec 40) (epoch raw : Raw) :
    viewTimeOf (offset + d) rate epoch raw = viewTimeOf offset rate epoch raw + d := by
  simp only [viewTimeOf, BitVec.add_assoc, BitVec.add_comm d]

theorem State.viewTime_setOffset_add (s : State) (v : Nat) (d : BitVec 96) (r : Raw) :
    (s.setOffset v (s.viewOffset v + d)).viewTime v r = s.viewTime v r + d := by
  rw [State.viewTime, s.viewOffset_setOffset, s.viewRate_setOffset, s.viewEpoch_setOffset, viewTimeOf_add_offset]
  rfl

theorem State.otherViewsRead_keepView (s : State) (v : Nat) : s.OtherViewsRead v (s.keepView v) := fun _ _ => rfl

theorem State.setOffset_frame (s : State) (v : Nat) (x : BitVec 96) :
    s.setOffset v x = { s with regs := (s.setOffset v x).regs } := s.wrWords_frame _ _

/-! ### RATE (R73) -/

/-- The registers as RATE_COMMIT leaves them before it counts: OFFSET with the old rate term, RATE_EPOCH, RATE. -/
def State.rateStored (s : State) (v : Nat) (offset : BitVec 96) (epoch : Raw) (lo : Word) (hi : Nat) : State :=
  (((s.setOffset v offset).wrWords (Reg.timeViewEpochW0 v) (toWords 3 epoch.toNat)).wr (Reg.timeViewRateLo v) lo).setFld
    (Reg.timeViewRateHi v) 7 0 hi

section
variable (s : State) (v : Nat) (offset : BitVec 96) (epoch : Raw) (lo : Word) (hi : Nat)

theorem State.rd_rateStored_below {a : Nat} (h : a < viewBase v + 12) :
    (s.rateStored v offset epoch lo hi).rd a = (s.setOffset v offset).rd a := by
  rw [State.rateStored, State.rd_setFld, if_neg (by rw [timeViewRateHi_eq]; omega),
    State.rd_wr_other _ _ (by rw [timeViewRateLo_eq]; omega),
    State.rd_wrWords_other _ (.inl (by rw [timeViewEpochW0_eq]; omega))]

theorem State.viewOffset_rateStored : (s.rateStored v offset epoch lo hi).viewOffset v = offset := by
  rw [State.viewOffset_congr fun a _ h => s.rd_rateStored_below v offset epoch lo hi h, s.viewOffset_setOffset]

theorem State.viewRate_rateStored (hhi : hi < 256) :
    (s.rateStored v offset epoch lo hi).viewRate v = BitVec.ofNat 40 (lo.toNat + 2 ^ 32 * hi) := by
  have hne : Reg.timeViewRateLo v ≠ Reg.timeViewRateHi v := by rw [timeViewRateLo_eq, timeViewRateHi_eq]; omega
  rw [State.viewRate, State.rateStored, State.fld_setFld_self _ _ (by decide) (by decide), State.rd_setFld, if_neg hne,
    State.rd_wr_self, Nat.mod_eq_of_lt (show hi < 2 ^ (7 + 1 - 0) from hhi)]

theorem State.viewEpoch_rateStored : (s.rateStored v offset epoch lo hi).viewEpoch v = epoch := by
  have hwords : (s.rateStored v offset epoch lo hi).rdWords (Reg.timeViewEpochW0 v) 3 = epoch.toNat := by
    rw [State.rateStored, State.rdWords_congr (s := (s.setOffset v offset).wrWords _ _), State.rdWords_wrWords_toWords]
    · exact Nat.mod_eq_of_lt epoch.isLt
    · intro b hb _
      rw [timeViewEpochW0_eq] at hb
      rw [State.rd_setFld, if_neg (by rw [timeViewRateHi_eq]; omega),
        State.rd_wr_other _ _ (by rw [timeViewRateLo_eq]; omega)]
  rw [State.viewEpoch, hwords, BitVec.ofNat_toNat, BitVec.setWidth_eq]

theorem State.rateStored_frame :
    s.rateStored v offset epoch lo hi = { s with regs := (s.rateStored v offset epoch lo hi).regs } := by
  unfold State.rateStored
  rw [State.setOffset, State.wrWords_frame _ (Reg.timeViewEpochW0 v), s.wrWords_frame]
  rfl

end

theorem State.OtherViewsRead.rateStored {s t : State} {v : Nat} (h : s.OtherViewsRead v t) (offset : BitVec 96) (epoch : Raw)
    (lo : Word) (hi : Nat) : s.OtherViewsRead v (t.rateStored v offset epoch lo hi) :=
  (((h.setOffset offset).wrWords _ (by rw [timeViewEpochW0_eq]; omega)
    (by rw [timeViewEpochW0_eq, length_toWords]; omega)).wr lo (by rw [timeViewRateLo_eq]; omega)
    (by rw [timeViewRateLo_eq]; omega)).wr _ (by rw [timeViewRateHi_eq]; omega) (by rw [timeViewRateHi_eq]; omega)

theorem rateTerm_epoch (rate : BitVec 40) (raw : Raw) : rateTerm rate raw raw = 0 := by
  rw [rateTerm, Int.sub_self, Int.mul_zero, Int.zero_ediv]

/-- At its new epoch a view's time is OFFSET plus the raw value, the old rate term among it. -/
theorem State.viewTime_of_epoch {t : State} {v : Nat} {raw : Raw} (h : t.viewEpoch v = raw) :
    t.viewTime v raw = t.viewOffset v + raw := by
  rw [State.viewTime, h, viewTimeOf, rateTerm_epoch, show BitVec.ofInt 96 0 = 0#96 from rfl, BitVec.add_zero]

/-! ### The parameters before a commit (R80) -/

/-- A capture before the commit takes the parameters kept, one at or after it the present ones. -/
theorem State.viewTimeAt_of_kept {s t : State} {v : Nat} (h : t.chrono.prev = (s.keepView v).chrono.prev) (cap : Raw) :
    t.viewTimeAt v cap = if cap.toNat < s.raw.toNat then s.viewTime v cap else t.viewTime v cap := by
  rw [State.viewTimeAt, h, State.keepView, SMap.get_set_self]
  rfl

theorem toNat_sub_one_lt (r : Raw) : (r - 1).toNat < r.toNat ↔ r ≠ 0 := by
  constructor
  · rintro h rfl
    exact absurd h (by decide)
  · intro h
    have hpos : r.toNat ≠ 0 := fun h0 => h (BitVec.eq_of_toNat_eq h0)
    bv_omega

theorem State.viewOffset_wrWords (s : State) (v : Nat) (l m h : Word) :
    (s.wrWords (Reg.timeViewOffsetW0 v) [l, m, h]).viewOffset v
      = BitVec.ofNat 96 (l.toNat + 2 ^ 32 * m.toNat + 2 ^ 64 * h.toNat) := by
  have hwords : (s.wrWords (Reg.timeViewOffsetW0 v) [l, m, h]).rdWords (Reg.timeViewOffsetW0 v) 3 = ofWords [l, m, h] :=
    s.rdWords_wrWords (Reg.timeViewOffsetW0 v) [l, m, h]
  rw [State.viewOffset, hwords]
  simp only [ofWords]
  congr 1
  omega

/-! ### The three commits -/

/-- What every commit does besides its own registers: the count, the parameters before it, and nothing to other views. -/
structure ViewCommit (v : Nat) (s t : State) : Prop where
  gen : t.fld (Reg.timeViewGen v) 15 0 = (s.fld (Reg.timeViewGen v) 15 0 + 1) % 65536
  others : s.OtherViewsRead v t
  frame : t = { s with regs := t.regs, chrono := { s.chrono with prev := t.chrono.prev } }

theorem viewCommit_bumpGen {s t : State} {v : Nat} (hgen : t.rd (Reg.timeViewGen v) = s.rd (Reg.timeViewGen v))
    (hothers : s.OtherViewsRead v t) (hframe : t = { s.keepView v with regs := t.regs }) : ViewCommit v s (t.bumpGen v) where
  gen := by rw [t.fld_bumpGen, State.fld, hgen]; rfl
  others := hothers.bumpGen
  frame := by
    have hbump : t.bumpGen v = { t with regs := (t.bumpGen v).regs } := rfl
    rw [hbump, hframe]
    rfl

theorem State.viewCommit_rateCommit (s : State) (v : Nat) (hi : Word) : ViewCommit v s (s.rateCommit v hi) := by
  refine viewCommit_bumpGen (t := (s.keepView v).rateStored v _ s.raw _ _) ?_ ((s.otherViewsRead_keepView v).rateStored _ _ _ _)
    (State.rateStored_frame _ _ _ _ _ _)
  rw [State.rateStored, State.rd_setFld, if_neg (by rw [timeViewRateHi_eq, timeViewGen_eq]; omega),
    State.rd_wr_other _ _ (by rw [timeViewRateLo_eq, timeViewGen_eq]; omega),
    State.rd_wrWords_other _ (.inr (by rw [timeViewEpochW0_eq, timeViewGen_eq, length_toWords]; omega)),
    State.rd_setOffset_above _ _ (by rw [timeViewGen_eq]; omega)]
  rfl

theorem State.viewCommit_offsetCommit (s : State) (v : Nat) (w : Word) : ViewCommit v s (s.offsetCommit v w) := by
  refine viewCommit_bumpGen ?_ ((s.otherViewsRead_keepView v).wrWords _ (by rw [timeViewOffsetW0_eq])
    (by rw [timeViewOffsetW0_eq, List.length_cons, List.length_cons, List.length_cons, List.length_nil]; omega)) rfl
  rw [State.rd_wrWords_other _ (.inr ?_)]
  · rfl
  · rw [timeViewOffsetW0_eq, timeViewGen_eq]
    exact Nat.add_le_add_left (by decide : 12 ≤ 0x30) _

theorem State.viewCommit_stepCommit (s : State) (v : Nat) (w : Word) : ViewCommit v s (s.stepCommit v w) := by
  refine viewCommit_bumpGen ?_ ((s.otherViewsRead_keepView v).setOffset _) (State.setOffset_frame _ _ _)
  rw [State.rd_setOffset_above _ _ (by rw [timeViewGen_eq]; omega)]
  rfl

section
variable (s : State) (v : Nat) (hi : Word)

/-- RATE_COMMIT folds the old rate term into OFFSET, and then counts (R73). -/
theorem State.rateCommit_eq :
    s.rateCommit v hi = ((s.keepView v).rateStored v
      (s.viewOffset v + BitVec.ofInt 96 (rateTerm (s.viewRate v) s.raw (s.viewEpoch v))) s.raw (s.holdOf (Reg.timeViewRateLo v))
      (Machine.fld hi 7 0)).bumpGen v := rfl

theorem State.viewEpoch_rateCommit : (s.rateCommit v hi).viewEpoch v = s.raw := by
  rw [s.rateCommit_eq, State.viewEpoch_bumpGen, State.viewEpoch_rateStored]

theorem State.viewRate_rateCommit : (s.rateCommit v hi).viewRate v
    = BitVec.ofNat 40 ((s.holdOf (Reg.timeViewRateLo v)).toNat + 2 ^ 32 * Machine.fld hi 7 0) := by
  have hlt : Machine.fld hi 7 0 < 256 := Nat.mod_lt _ (by decide)
  rw [s.rateCommit_eq, State.viewRate_bumpGen, State.viewRate_rateStored _ _ _ _ _ _ hlt]

/-- The commit leaves no step in the view's time (R73). -/
theorem State.viewTime_rateCommit : (s.rateCommit v hi).viewTime v s.raw = s.viewTime v s.raw := by
  rw [State.viewTime_of_epoch (s.viewEpoch_rateCommit v hi), s.rateCommit_eq, State.viewOffset_bumpGen,
    State.viewOffset_rateStored, State.viewTime, viewTimeOf]
  ac_rfl

theorem State.prev_rateCommit : (s.rateCommit v hi).chrono.prev = (s.keepView v).chrono.prev := by
  rw [s.rateCommit_eq, State.rateStored_frame]
  rfl

end

/-- Settles O45: each commit stores in its view's own registers, and the time of a view is a function of those. -/
theorem viewCommitsKeepTimeContinuous : Obligations.ViewCommitsKeepTimeContinuous := by
  constructor
  · intro v hi s x _ hx
    obtain ⟨hgen, hothers, hframe⟩ := s.viewCommit_rateCommit v hi
    have hbefore : (s.rateCommit v hi).viewTimeAt v (s.raw - 1) =
        if s.raw = 0 then (s.rateCommit v hi).viewTime v (s.raw - 1) else s.viewTime v (s.raw - 1) := by
      rw [State.viewTimeAt_of_kept (s.prev_rateCommit v hi)]
      simp only [toNat_sub_one_lt, ne_eq, ite_not]
    have hraw : (s.rateCommit v hi).raw = s.raw := by rw [hframe]
    exact ⟨s.rateCommit v hi, rfl, by rw [hraw, s.viewTime_rateCommit], s.viewRate_rateCommit v hi, s.viewEpoch_rateCommit v hi, hgen, hbefore,
      hothers.viewTime_eq hx, hframe⟩
  · intro v w s x _ hx
    obtain ⟨hgen, hothers, hframe⟩ := s.viewCommit_offsetCommit v w
    obtain ⟨hgen', hothers', hframe'⟩ := s.viewCommit_stepCommit v w
    refine ⟨s.offsetCommit v w, rfl, ?_, hgen, hothers.viewTime_eq hx, hframe, s.stepCommit v w, rfl, ?_, hgen', hothers'.viewTime_eq hx, hframe'⟩
    · exact (State.viewOffset_bumpGen _ _).trans (State.viewOffset_wrWords _ _ _ _ _)
    · have hraw : (s.stepCommit v w).raw = s.raw := by rw [hframe']
      rw [hraw]
      exact (State.viewTime_bumpGen _ _ _).trans (State.viewTime_setOffset_add (s.keepView v) v _ _)

end Sys2Proof.Machine
end

section
/-!
PROOFS. Plain registers (R9, Table 00.5), and a step without a command (R71, R163).
-/
namespace Sys2Proof.Machine

open Sys2Proof.Safety

/-! ### Registers of one word without an action of their own -/

/-- A host write that is no Meridian GO is the register's write. -/
theorem State.hostWrite_of_plain (s : State) {a : Nat} (hfan : a ≠ Reg.merFanCmd) (hresume : a ≠ Reg.merTgtResume)
    (hcoll : a ≠ Reg.merCollCmd) (v : Word) : s.hostWrite a v = s.regWrite a v false := by
  rw [State.hostWrite, if_neg hfan, if_neg hresume, if_neg hcoll]

section
variable {s : State} {d : RegD} {a i j : Nat} (hreg : regAt a = some (d, i, j)) (hwords : d.words = .single)
  (hmapped : s.regMapped d i = true)
include hreg hwords hmapped

theorem State.regWrite_of_plain (hfx : writeFx d.base = none) (v : Word) :
    s.regWrite a v false = s.wr a (d.written (s.rd a) v) := by
  rw [← State.wrTyped_of s hreg]
  simp [State.regWrite, hreg, hwords, hmapped, hfx]

theorem State.regRead_of_plain (hread : atBase d.base readFx = none) : s.regRead a = s.readPlain d i j a := by
  simp [State.regRead, hreg, hwords, hmapped, hread]

end

theorem State.valueAt_of_stored (s : State) {d : RegD} (h1 : atBase d.base valueFx1 = none)
    (h2 : atBase d.base valueFx2 = none) (i j a : Nat) : s.valueAt d i j a = s.rd a &&& ~~~d.woMask := by
  simp [State.valueAt, h1, h2]

/-- Settles O13. -/
theorem plainRegistersFollowTheirFieldTypes : Obligations.PlainRegistersFollowTheirFieldTypes := by
  constructor
  · intro addr val s d i j hreg hwords hfx hmapped hfan hresume hcoll
    have hwrite : s.hostWrite addr.toNat val = s.wr addr.toNat (d.written (s.rd addr.toNat) val) := by
      rw [s.hostWrite_of_plain hfan hresume hcoll, State.regWrite_of_plain hreg hwords hmapped hfx]
    refine ⟨s.hostWrite addr.toNat val, rfl, ?_⟩
    rw [hwrite]
    exact ⟨s.rd_wr_self _ _, onlyRegs_wr s _ _⟩
  · intro addr s d i j hreg hwords hread hvalue1 hvalue2 hmapped
    refine ⟨s.regRead addr.toNat, rfl, ?_⟩
    rw [State.regRead_of_plain hreg hwords hmapped hread, State.readPlain, s.valueAt_of_stored hvalue1 hvalue2]
    exact ⟨rfl, State.rd_wr_self _ _ _, rfl, fun b hb => State.rd_wr_other _ _ (List.ne_of_not_mem_cons hb)⟩

/-! ### Time passing (R71, R365, R366) -/

/-- A property that each round keeps holds after all of them. -/
theorem State.each_induct {P : State → Prop} {l : List Nat} {f : Nat → State → State} {s : State} (h : P s)
    (hf : ∀ i ∈ l, ∀ t, P t → P (f i t)) : P (s.each l f) := by
  induction l generalizing s with
  | nil => exact h
  | cons i l ih =>
    exact ih (hf i (List.mem_cons_self ..) s h) fun k hk => hf k (List.mem_cons_of_mem i hk)

/-- The words of the threshold counters (R365). -/
def thrCounts : List Nat := (List.range 16).flatMap fun k => [Reg.obsThrCountLo k, Reg.obsThrCountHi k]

theorem not_mem_thrCounts {a : Nat} (h : a ∉ thrCounts) {k : Nat} (hk : k < 16) :
    a ≠ Reg.obsThrCountLo k ∧ a ≠ Reg.obsThrCountHi k := by
  constructor
  · rintro rfl
    exact h (List.mem_flatMap.mpr ⟨k, List.mem_range.mpr hk, List.mem_cons_self ..⟩)
  · rintro rfl
    exact h (List.mem_flatMap.mpr ⟨k, List.mem_range.mpr hk, List.mem_cons_of_mem _ (List.mem_cons_self ..)⟩)

/-- What time drives besides the raw counter: the threshold counts and the slot counts. -/
def State.CountsOnly (s t : State) : Prop :=
  t = { s with regs := t.regs, obs := { s.obs with slots := t.obs.slots } } ∧ RegsBut thrCounts s t

theorem State.CountsOnly.trans {s t u : State} (h : s.CountsOnly t) (h' : t.CountsOnly u) : s.CountsOnly u := by
  obtain ⟨hst, hrd⟩ := h
  obtain ⟨htu, hrd'⟩ := h'
  exact ⟨by rw [htu, hst], fun a ha => (hrd' a ha).trans (hrd a ha)⟩

theorem State.countsOnly_refl (s : State) : s.CountsOnly s := ⟨rfl, fun _ _ => rfl⟩

theorem State.countsOnly_thrCount (s : State) {k : Nat} (hk : k < 16) (c : Nat) : s.CountsOnly (s.thrCount k c) := by
  unfold State.thrCount
  dsimp only
  split
  · refine ⟨?_, fun a ha => ?_⟩
    · rw [s.wrWords_frame]
    · obtain ⟨hlo, hhi⟩ := not_mem_thrCounts ha hk
      refine (State.rd_wr_other _ _ ?_).trans (State.rd_wr_other _ _ hlo)
      rwa [Nat.add_right_comm]
  · exact s.countsOnly_refl

theorem State.countsOnly_slotIdle (s : State) (p c : Nat) : s.CountsOnly (s.slotIdle p c) := ⟨rfl, fun _ _ => rfl⟩

/-- `n` ticks move the raw counter and the counts that time drives, and nothing else. -/
theorem State.elapse_cases (s : State) (n : Nat) :
    ∃ t, s.CountsOnly t ∧ s.elapse n = { t with raw := s.raw + BitVec.ofNat 96 (n * nsUnit) } := by
  refine ⟨_, ?_, rfl⟩
  refine State.each_induct (State.each_induct s.countsOnly_refl fun k hk t ht => ?_) fun p _ t ht => ?_
  · exact ht.trans (t.countsOnly_thrCount (List.mem_range.mp hk) _)
  · exact ht.trans (t.countsOnly_slotIdle p _)

theorem State.raw_elapse (s : State) (n : Nat) : (s.elapse n).raw = s.raw + BitVec.ofNat 96 (n * nsUnit) := rfl

theorem State.elapse_frame (s : State) (n : Nat) :
    s.elapse n = { s with raw := (s.elapse n).raw, regs := (s.elapse n).regs,
                          obs := { s.obs with slots := (s.elapse n).obs.slots } } := by
  obtain ⟨t, ⟨ht, -⟩, h⟩ := s.elapse_cases n
  rw [h, ht]

theorem State.rd_elapse (s : State) (n : Nat) : RegsBut thrCounts s (s.elapse n) := fun a ha => by
  obtain ⟨t, ⟨-, hrd⟩, h⟩ := s.elapse_cases n
  rw [h]
  exact hrd a ha

/-! ### A booking taken (R163, R164) -/

/-- A booking changes registers and the calendar. -/
theorem State.book_frame (s : State) (n a t vol spread train : Nat) :
    (s.book n a t vol spread train).2 =
      { s with regs := (s.book n a t vol spread train).2.regs,
               rck := { s.rck with books := (s.book n a t vol spread train).2.rck.books } } := by
  unfold State.book
  dsimp only
  repeat' split
  all_goals rfl

theorem State.book_result_lt (s : State) (n a t vol spread train : Nat) : (s.book n a t vol spread train).1.result < 8 := by
  unfold State.book
  dsimp only
  repeat' split
  all_goals simp

/-- The status word of a booking that is over: PENDING clear, DONE set. -/
theorem bookStatus_bits {late result accepted : Nat} (hl : late < 2) (hr : result < 8) (ha : accepted < 2 ^ 24) :
    bit (BitVec.ofNat 32 (2 ^ 30 + late * 2 ^ 29 + result * 2 ^ 24 + accepted)) 31 = false ∧
      bit (BitVec.ofNat 32 (2 ^ 30 + late * 2 ^ 29 + result * 2 ^ 24 + accepted)) 30 = true := by
  have hlow : late * 2 ^ 29 + result * 2 ^ 24 + accepted < 2 ^ 30 := by omega
  rw [Nat.add_assoc, Nat.add_assoc, ← Nat.add_assoc (late * 2 ^ 29)]
  generalize late * 2 ^ 29 + result * 2 ^ 24 + accepted = low at hlow
  constructor
  · rw [bit, BitVec.getLsbD_ofNat, Nat.testBit_lt_two_pow (by omega)]
    rfl
  · rw [bit, BitVec.getLsbD_ofNat, Nat.testBit_two_pow_add_eq, Nat.testBit_lt_two_pow hlow]
    rfl

/-- The outcome of a booking is shown and announced (R163, R164). -/
def State.showBooking (s : State) (e : BookEnd) : State :=
  ((s.wrNat Reg.dbaBookStatus (2 ^ 30 + ofBool e.late * 2 ^ 29 + e.result * 2 ^ 24 + Nat.min e.accepted 0xFFFFFF)).wrNat
    Reg.dbaBookFirstFrame e.first).event (leafOf 12 6) 0

theorem State.bookTake_of_some {s : State} {r : BookReq} (h : s.rck.booking = some r) :
    s.bookTake = (({ s with rck.booking := none } : State).book r.n r.a r.t r.vol r.spread r.train).2.showBooking
      (({ s with rck.booking := none } : State).book r.n r.a r.t r.vol r.spread r.train).1 := by
  rw [State.bookTake, h]
  rfl

theorem State.eventOnly_wrNat (s : State) (a v : Nat) : s.EventOnly (s.wrNat a v) := rfl

theorem State.showBooking_frame (s : State) (e : BookEnd) : s.EventOnly (s.showBooking e) :=
  ((s.eventOnly_wrNat _ _).trans (State.eventOnly_wrNat _ _ _)).trans (State.raise_frame _ _ _ _ _ _)

theorem dbaBookStatus_not_mem_eventRegs : Reg.dbaBookStatus ∉ eventRegs (leafOf 12 6) := by decide

theorem State.rd_showBooking_status (s : State) (e : BookEnd) :
    (s.showBooking e).rd Reg.dbaBookStatus
      = BitVec.ofNat 32 (2 ^ 30 + ofBool e.late * 2 ^ 29 + e.result * 2 ^ 24 + Nat.min e.accepted 0xFFFFFF) := by
  obtain ⟨-, hrd⟩ := reports_event ((s.wrNat Reg.dbaBookStatus _).wrNat Reg.dbaBookFirstFrame e.first) (leafOf 12 6) 0
  rw [State.showBooking, hrd _ dbaBookStatus_not_mem_eventRegs, State.rd_wrNat, if_neg (by decide), State.rd_wrNat, if_pos rfl]

theorem State.bookTake_done {s : State} {r : BookReq} (h : s.rck.booking = some r) :
    s.bookTake.raw = s.raw ∧ s.bookTake.rck.booking = none ∧ s.bookTake.bit Reg.dbaBookStatus 31 = false ∧
      s.bookTake.bit Reg.dbaBookStatus 30 = true := by
  have hframe := State.book_frame { s with rck.booking := none } r.n r.a r.t r.vol r.spread r.train
  have hresult := State.book_result_lt { s with rck.booking := none } r.n r.a r.t r.vol r.spread r.train
  rw [State.bookTake_of_some h]
  generalize State.book { s with rck.booking := none } r.n r.a r.t r.vol r.spread r.train = q at hframe hresult
  have hshow := q.2.showBooking_frame q.1
  have hlate : ofBool q.1.late < 2 := by cases q.1.late <;> decide
  have haccepted : Nat.min q.1.accepted 0xFFFFFF < 2 ^ 24 := Nat.lt_succ_of_le (Nat.min_le_right _ _)
  rw [State.bit, State.bit, State.rd_showBooking_status]
  refine ⟨?_, ?_, bookStatus_bits hlate hresult haccepted⟩
  · rw [hshow, hframe]
  · rw [hshow, hframe]

/-- Settles O2: a tick moves the raw counter and what time drives, and then a booking that waits for it is taken. -/
theorem idleStepIsOneTick : Obligations.IdleStepIsOneTick := by
  have hstep : ∀ s : State, s.pending = [] → step s = .next s.idleTick := fun s hs => by rw [step, hs]
  have hbooking : ∀ s : State, (s.elapse 1).rck.booking = s.rck.booking := fun s => by rw [s.elapse_frame]
  constructor
  · intro s hs hnone
    have htick : s.idleTick = s.elapse 1 := by rw [State.idleTick, State.bookSettle, hbooking, hnone]
    refine ⟨s.idleTick, hstep s hs, ?_⟩
    rw [htick]
    exact ⟨rfl, s.elapse_frame 1, s.rd_elapse 1⟩
  · intro s r hs hsome hat
    have hwaits : (s.elapse 1).rck.booking = some r := by rw [hbooking, hsome]
    have htick : s.idleTick = (s.elapse 1).bookTake := by
      rw [State.idleTick, State.bookSettle, hwaits]
      exact if_neg hat
    refine ⟨s.idleTick, hstep s hs, ?_⟩
    rw [htick]
    exact State.bookTake_done hwaits

end Sys2Proof.Machine
end

section
/-!
PROOFS. Punt and inject rings (R44, R45, R61): what a descriptor written back does to HEAD and the outbox.
-/
namespace Sys2Proof.Machine

open Sys2Proof.Safety

/-! ### Registers that store the whole word -/

/-- The register at `a` has RW bits only, all 32. -/
def storesWord (a : Nat) : Bool :=
  (regAt a).any fun e => e.1.rwMask == BitVec.allOnes 32 && e.1.w1cMask == 0 && e.1.w1sMask == 0

theorem State.wrTyped_of_storesWord (s : State) {a : Nat} (h : storesWord a = true) (v : Word) : s.wrTyped a v = s.wr a v := by
  unfold storesWord at h
  cases hd : regAt a with
  | none => simp [hd] at h
  | some e =>
    simp only [hd, Option.any_some, Bool.and_eq_true, beq_iff_eq] at h
    obtain ⟨⟨hrw, hw1c⟩, hw1s⟩ := h
    rw [State.wrTyped_of s hd]
    have hwritten : e.1.written (s.rd a) v = v := by
      rw [RegD.written, hrw, hw1c, hw1s]
      exact BitVec.eq_of_getLsbD_eq fun i hi => by
        simp only [BitVec.getLsbD_or, BitVec.getLsbD_and, BitVec.getLsbD_not, BitVec.getLsbD_allOnes, hi, decide_true]
        simp
    exact congrArg (s.wr a) hwritten

theorem storesWord_puntTail : ∀ n : Fin 64, storesWord (Reg.devRingPuntTail n.val) = true := by decide

theorem storesWord_injTail : ∀ n : Fin 64, storesWord (Reg.devRingInjTail n.val) = true := by decide

/-! ### What HEAD moves and the outbox gains -/

/-- `t` is `s` but for registers of the list and for what it has sent. -/
def State.SendsAnd (l : List Nat) (s t : State) : Prop := RegsBut l s t ∧ t = { s with regs := t.regs, out := t.out }

theorem State.sendsAnd_refl (l : List Nat) (s : State) : s.SendsAnd l s := ⟨fun _ _ => rfl, rfl⟩

theorem State.SendsAnd.emit {l : List Nat} {s t : State} (h : s.SendsAnd l t) (o : Output) : s.SendsAnd l (t.emit o) := by
  obtain ⟨hrd, hframe⟩ := h
  exact ⟨hrd, by rw [hframe]; rfl⟩

theorem State.SendsAnd.wrNat {l : List Nat} {s t : State} (h : s.SendsAnd l t) {a : Nat} (ha : a ∈ l) (v : Nat) :
    s.SendsAnd l (t.wrNat a v) := by
  obtain ⟨hrd, hframe⟩ := h
  refine ⟨fun b hb => ?_, by rw [hframe]; rfl⟩
  have hne : b ≠ a := fun hba => hb (hba.symm ▸ ha)
  rw [State.rd_wrNat, if_neg hne, hrd b hb]

theorem State.SendsAnd.bump {l : List Nat} {s t : State} (h : s.SendsAnd l t) {a : Nat} (ha : a ∈ l) : s.SendsAnd l (t.bump a) :=
  h.wrNat ha _

theorem State.SendsAnd.trans {l : List Nat} {s t u : State} (h : s.SendsAnd l t) (h' : t.SendsAnd l u) : s.SendsAnd l u := by
  obtain ⟨hrd, hframe⟩ := h
  obtain ⟨hrd', hframe'⟩ := h'
  exact ⟨fun a ha => (hrd' a ha).trans (hrd a ha), by rw [hframe', hframe]⟩

theorem State.SendsAnd.mono {k l : List Nat} {s t : State} (h : s.SendsAnd k t) (hkl : k ⊆ l) : s.SendsAnd l t :=
  ⟨fun a ha => h.1 a (mt (@hkl a) ha), h.2⟩

/-! ### Punt rings (R44) -/

theorem State.sendsAnd_puntWrite (s : State) (n size : Nat) (tail : List Byte) (first trunc : Bool)
    (l : List (HostBuf × List Byte)) : s.SendsAnd [Reg.devRingPuntHead n] (s.puntWrite n size tail first trunc l) := by
  induction l generalizing s first with
  | nil => exact s.sendsAnd_refl _
  | cons e l ih =>
    obtain ⟨b, d⟩ := e
    exact ((((s.sendsAnd_refl _).emit _).emit _).wrNat (List.mem_singleton_self _) _).trans (ih _ false)

/-- Two posted writes for each piece: the data and the descriptor. -/
theorem State.length_out_puntWrite (s : State) (n size : Nat) (tail : List Byte) (first trunc : Bool)
    (l : List (HostBuf × List Byte)) : (s.puntWrite n size tail first trunc l).out.length = s.out.length + 2 * l.length := by
  induction l generalizing s first with
  | nil => rfl
  | cons e l ih =>
    obtain ⟨b, d⟩ := e
    rw [State.puntWrite, ih]
    simp [State.wrNat]
    omega

/-- The next frame for the host comes out of staging or of the samples: no register reads otherwise. -/
theorem State.rd_nextPunt {s u : State} {f : HostFrame} (h : s.nextPunt = some (f, u)) (a : Nat) : u.rd a = s.rd a := by
  unfold State.nextPunt at h
  split at h
  · cases h; rfl
  · split at h
    · cases h; rfl
    · cases h

theorem State.rdWords_nextPunt {s u : State} {f : HostFrame} (h : s.nextPunt = some (f, u)) (a n : Nat) :
    u.rdWords a n = s.rdWords a n := State.rdWords_congr fun b _ _ => State.rd_nextPunt h b

/-- PUNT_FRAME_DELIVERY with a frame, outside SAFE. -/
theorem State.puntDeliver_of_next {s u : State} {f : HostFrame} (hsafe : s.dev.mode ≠ .safe) (h : s.nextPunt = some (f, u))
    (bufs : List HostBuf) :
    s.puntDeliver bufs =
      if s.dev.perstLow || (bufs.take (s.puntPosted f.ring)).isEmpty then u.bump (Reg.devRingPuntDrop f.ring)
      else
        let q := intoBufs f.data (bufs.take (s.puntPosted f.ring))
        let t := u.puntWrite f.ring (s.rd (Reg.devRingPuntSize f.ring)).toNat f.tail true (!q.2.isEmpty) q.1
        if !q.2.isEmpty then t.bump (Reg.devRingPuntDrop f.ring) else t := by
  rw [State.puntDeliver, if_neg hsafe, h]

/-! ### Inject rings (R45) -/

theorem State.sendsAnd_injRead (s : State) (n : Nat) (d : InjDesc) (mode : Nat) (first : Bool) (k : Nat) :
    s.SendsAnd [Reg.devRingInjHead n] (s.injRead n d mode first k) := by
  induction k generalizing s first with
  | zero => exact s.sendsAnd_refl _
  | succ k ih => exact (((s.sendsAnd_refl _).emit _).wrNat (List.mem_singleton_self _) _).trans (ih _ false)

theorem State.length_out_injRead (s : State) (n : Nat) (d : InjDesc) (mode : Nat) (first : Bool) (k : Nat) :
    (s.injRead n d mode first k).out.length = s.out.length + k := by
  induction k generalizing s first with
  | zero => rfl
  | succ k ih =>
    rw [State.injRead, ih]
    simp [State.wrNat]
    omega

/-- HEAD advances by the descriptors read, modulo the ring's size. -/
theorem State.rd_injHead_injRead (s : State) (n : Nat) (d : InjDesc) (mode : Nat) (first : Bool) {k : Nat} (hk : k ≠ 0)
    (hsize : (s.rd (Reg.devRingInjSize n)).toNat ≤ 16) :
    (s.injRead n d mode first k).rd (Reg.devRingInjHead n) =
      BitVec.ofNat 32 (((s.rd (Reg.devRingInjHead n)).toNat + k) % 2 ^ (s.rd (Reg.devRingInjSize n)).toNat) := by
  induction k generalizing s first with
  | zero => exact absurd rfl hk
  | succ k ih =>
    obtain rfl | hk0 := Nat.eq_zero_or_pos k
    · rw [State.injRead, State.injRead, State.rd_wrNat, if_pos rfl]
    · have hne : Reg.devRingInjSize n ≠ Reg.devRingInjHead n := by
        simp only [Reg.devRingInjSize, Reg.devRingInjHead]
        omega
      have hpow : 2 ^ (s.rd (Reg.devRingInjSize n)).toNat ≤ 2 ^ 16 := Nat.pow_le_pow_right (by decide) hsize
      have hlt : ((s.rd (Reg.devRingInjHead n)).toNat + 1) % 2 ^ (s.rd (Reg.devRingInjSize n)).toNat < 2 ^ 32 :=
        (Nat.mod_lt _ (Nat.two_pow_pos _)).trans_le (hpow.trans (by decide))
      rw [State.injRead, ih _ _ (Nat.ne_of_gt hk0) (by rw [State.rd_wrNat, if_neg hne]; exact hsize), State.rd_wrNat, if_pos rfl,
        State.rd_wrNat, if_neg hne, BitVec.toNat_ofNat, Nat.mod_eq_of_lt hlt, State.rd_emit, Nat.mod_add_mod]
      congr 2
      omega

/-! ### A frame into an ingress buffer (R17) -/

/-- An armed injection is consumed: CHK_INJ alone may change (R348). -/
theorem State.onlyRegs_memWrite (s : State) (kind : Nat) : OnlyRegs [Reg.chkInj] s (s.memWrite kind) := by
  unfold State.memWrite
  split
  · exact onlyRegs_wr s _ _
  · exact OnlyRegs.refl _ _

theorem State.frameIn_of_passes {s : State} {f : Frame} (h : s.passes (s.attach f) = true) :
    s.frameIn f false =
      (s.setIngress (s.pipeFor f.port) (s.ingress (s.pipeFor f.port) ++ [s.attach f])).memWrite 8 := by
  simp [State.frameIn, h]

theorem State.frameIn_of_full {s : State} {f : Frame} (h : s.passes (s.attach f) = true) :
    s.frameIn f true = s.bump (Reg.cmpIngOverrun (s.pipeFor f.port)) := by
  simp [State.frameIn, h]

theorem State.frameIn_of_held {s : State} {f : Frame} (h : s.passes (s.attach f) = false) (full : Bool) :
    s.frameIn f full = s := by
  simp [State.frameIn, h]

theorem State.ingress_setIngress (s : State) (p : Nat) (l : List Frame) (k : Nat) :
    (s.setIngress p l).ingress k = if k = p then l else s.ingress k := SMap.get_set _ _ _ _ _

/-- The frame joins its buffer's end; nothing is sent, and CHK_INJ alone may change. -/
theorem State.frameIn_joins {s : State} {f : Frame} (h : s.passes (s.attach f) = true) :
    (s.frameIn f false).ingress (s.pipeFor f.port) = s.ingress (s.pipeFor f.port) ++ [s.attach f] ∧
      (s.frameIn f false).out = s.out ∧ RegsBut [Reg.chkInj] s (s.frameIn f false) := by
  obtain ⟨hframe, hrd⟩ :=
    (s.setIngress (s.pipeFor f.port) (s.ingress (s.pipeFor f.port) ++ [s.attach f])).onlyRegs_memWrite 8
  rw [State.frameIn_of_passes h]
  refine ⟨?_, ?_, hrd⟩
  · rw [hframe]
    exact (s.ingress_setIngress _ _ _).trans (if_pos rfl)
  · rw [hframe]
    rfl

section
variable {s : State} {n : Fin 64} {count : Nat} (h : s.injReady n.val count = true) (desc : InjDesc) (data : List Byte)
  (cap : Raw)
include h

theorem exec_injectModePipeline_of_ready (full : Bool) :
    exec (.injectModePipeline n desc data count cap full) s = .next
      (if 75 ≤ desc.srcPort then s.injRead n.val desc 0 true count
       else (s.injRead n.val desc 0 true count).frameIn ((s.injRead n.val desc 0 true count).injFrame desc data cap) full) := by
  change Host.Outcome.next (if (!s.injReady n.val count) = true then s else _) = _
  rw [h]
  rfl

theorem exec_injectModeDirect_of_ready :
    exec (.injectModeDirect n desc data count cap) s = .next
      (let u := s.injRead n.val desc 1 true count
       let f := u.attach (u.injFrame desc data cap)
       if 75 ≤ desc.srcPort ∨ !u.passes f then u
       else (u.forwardTo ⟨u.pipeFor desc.srcPort, desc.srcPort, f, [], { ts := f.ts }, 0, false, []⟩ 0 u.devId desc.dstPort
          (desc.cls % 8) 0).2) := by
  change Host.Outcome.next (if (!s.injReady n.val count) = true then s else _) = _
  rw [h]
  rfl

end

/-- Settles O39. -/
theorem puntAndInjectRingsFollowTheirDescriptors : Obligations.PuntAndInjectRingsFollowTheirDescriptors := by
  refine ⟨?_, ?_, ?_, ?_, ?_, ?_, ?_, ?_, ?_, ?_, ?_⟩
  · intro n val s
    have hpunt := s.wrTyped_of_storesWord (storesWord_puntTail n) val
    have hinj := s.wrTyped_of_storesWord (storesWord_injTail n) val
    refine ⟨_, rfl, rfl, ?_, ?_, _, rfl, rfl, ?_, ?_⟩
    · rw [hpunt]; exact onlyRegs_wr s _ _
    · rw [hpunt]; exact s.rd_wr_self _ _
    · rw [hinj]; exact onlyRegs_wr s _ _
    · rw [hinj]; exact s.rd_wr_self _ _
  · intro bufs s h
    have hnone : s.puntDeliver bufs = s := by
      rw [State.puntDeliver]
      split
      · rfl
      · rw [h.resolve_left ‹_›]
    exact congrArg Host.Outcome.next hnone
  · intro bufs s u f hsafe hnext h
    have hdrop : (s.dev.perstLow || (bufs.take (s.puntPosted f.ring)).isEmpty) = true := by
      obtain hlow | hempty := h
      · rw [hlow]; rfl
      · rw [hempty]; exact Bool.or_true _
    exact congrArg Host.Outcome.next ((State.puntDeliver_of_next hsafe hnext bufs).trans (if_pos hdrop))
  · intro bufs bs b s u f hsafe hlow hnext htake hlen
    have hpieces : intoBufs f.data (bufs.take (s.puntPosted f.ring)) = ([(b, f.data)], []) := by
      rw [htake, intoBufs, if_pos hlen]
    have hdeliver : s.puntDeliver bufs =
        u.puntWrite f.ring (s.rd (Reg.devRingPuntSize f.ring)).toNat f.tail true false [(b, f.data)] := by
      rw [State.puntDeliver_of_next hsafe hnext, hpieces, hlow, htake]
      rfl
    obtain ⟨hrd, hframe⟩ := u.sendsAnd_puntWrite f.ring (s.rd (Reg.devRingPuntSize f.ring)).toNat f.tail true false [(b, f.data)]
    refine ⟨s.puntDeliver bufs, rfl, ?_⟩
    rw [hdeliver]
    refine ⟨?_, ?_, hrd, hframe⟩
    · rw [← State.rdWords_nextPunt hnext, ← State.rd_nextPunt hnext (Reg.devRingPuntHead f.ring)]
      simp [State.puntWrite, State.wrNat]
    · rw [State.puntWrite, State.puntWrite, State.rd_wrNat, if_pos rfl, State.rd_nextPunt hnext]
  · intro bufs s u f hsafe hlow hnext htake
    have hposted : (s.dev.perstLow || (bufs.take (s.puntPosted f.ring)).isEmpty) = false := by
      rw [hlow, Bool.false_or, List.isEmpty_eq_false_iff]
      exact htake
    have hdeliver := State.puntDeliver_of_next hsafe hnext bufs
    rw [hposted] at hdeliver
    generalize hq : intoBufs f.data (bufs.take (s.puntPosted f.ring)) = q at hdeliver
    have hwritten := u.sendsAnd_puntWrite f.ring (s.rd (Reg.devRingPuntSize f.ring)).toNat f.tail true (!q.2.isEmpty) q.1
    have hlength := u.length_out_puntWrite f.ring (s.rd (Reg.devRingPuntSize f.ring)).toNat f.tail true (!q.2.isEmpty) q.1
    refine ⟨s.puntDeliver bufs, rfl, ?_⟩
    rw [hdeliver]
    dsimp only
    generalize u.puntWrite f.ring (s.rd (Reg.devRingPuntSize f.ring)).toNat f.tail true (!q.2.isEmpty) q.1 = t at hwritten hlength
    have hsub : [Reg.devRingPuntHead f.ring] ⊆ [Reg.devRingPuntHead f.ring, Reg.devRingPuntDrop f.ring] := by simp
    have hne : Reg.devRingPuntDrop f.ring ≠ Reg.devRingPuntHead f.ring := by
      simp only [Reg.devRingPuntDrop, Reg.devRingPuntHead]
      omega
    obtain hall | hleft := Bool.eq_false_or_eq_true q.2.isEmpty
    · rw [hall]
      exact ⟨fun h => absurd (List.isEmpty_iff.mp hall) h, hlength, hwritten.mono hsub⟩
    · rw [hleft]
      refine ⟨fun _ => ?_, hlength, (hwritten.mono hsub).bump (by simp)⟩
      exact (State.rd_bump _ _ _).trans ((if_pos rfl).trans
        (congrArg (satAdd · 1) (hwritten.1 _ (mt List.mem_singleton.mp hne))))
  · intro n desc data count cap full s h
    constructor
    · change Host.Outcome.next (if (!s.injReady n.val count) = true then s else _) = _
      rw [h]
      rfl
    · change Host.Outcome.next (if (!s.injReady n.val count) = true then s else _) = _
      rw [h]
      rfl
  · intro n desc data cap count full s u f h hsrc hu hf
    have hexec := exec_injectModePipeline_of_ready h desc data cap full
    rw [if_neg (Nat.not_le.mpr hsrc), ← hu] at hexec
    refine ⟨fun hpass hfull => ?_, fun hpass hfull => ?_, fun hpass => ?_⟩
    · rw [hf] at hpass ⊢
      rw [hfull] at hexec ⊢
      exact ⟨_, hexec, State.frameIn_joins hpass⟩
    · rw [hf] at hpass
      rw [hfull] at hexec ⊢
      rw [hexec, State.frameIn_of_full hpass]
      rfl
    · rw [hf] at hpass
      rw [hexec, State.frameIn_of_held hpass]
  · intro n desc data cap count s u f h hsrc hu hf
    have hexec := exec_injectModeDirect_of_ready h desc data cap
    rw [← hu] at hexec
    dsimp only at hexec
    rw [← hf] at hexec
    refine ⟨fun hpass => ?_, fun hpass hdst => ?_, fun hpass => ?_⟩
    · rw [hexec, hpass, if_neg (by simpa using hsrc)]
    · rw [hexec, hpass, if_neg (by simpa using hsrc), State.forwardTo, if_pos hdst]
    · rw [hexec, hpass, if_pos (.inr rfl)]
  · intro n desc mode first count s u hu hcount _ hsize
    obtain ⟨hrd, hframe⟩ := s.sendsAnd_injRead n desc mode first count
    rw [hu]
    exact ⟨s.rd_injHead_injRead n desc mode first hcount hsize, s.length_out_injRead n desc mode first count, hrd, hframe⟩
  · intro n desc mode s u hu
    rw [hu]
    rfl
  · intro n desc data count cap full s h hsrc
    constructor
    · rw [exec_injectModePipeline_of_ready h, if_pos hsrc]
    · rw [exec_injectModeDirect_of_ready h]
      exact congrArg Host.Outcome.next (if_pos (.inl hsrc))

end Sys2Proof.Machine
end

section
/-!
PROOFS. Fields after a typed write (R9): what software cannot write stays, RW bits take what is written; bank switches (R38).
-/
namespace Sys2Proof.Safety

open Sys2Proof.Machine

/-- A command that answers `t` runs to what holds of `t`. -/
theorem Runs.intro {c : Instr} {s t : State} {P : State → Prop} (h : exec c s = .next t) (hP : P t) : Runs c s P := ⟨t, h, hP⟩

end Sys2Proof.Safety

namespace Sys2Proof.Machine

open Sys2Proof.Safety

/-! ### Bits and fields -/

/-- A field is a function of its bits. -/
theorem fld_congr {w w' : Word} {hi lo : Nat} (h : ∀ i, lo ≤ i → i ≤ hi → w.getLsbD i = w'.getLsbD i) :
    fld w hi lo = fld w' hi lo := by
  apply Nat.eq_of_testBit_eq
  intro k
  rw [testBit_fld, testBit_fld]
  by_cases hk : k < hi + 1 - lo
  · rw [h (lo + k) (by omega) (by omega)]
  · simp [hk]

/-- A one-bit field and the bit. -/
theorem fld_eq_ofBool_bit (w : Word) (i : Nat) : fld w i i = ofBool (bit w i) := by
  have hlt : fld w i i < 2 := by
    rw [fld, Nat.add_sub_cancel_left]
    exact Nat.mod_lt _ (by decide)
  have hbit : (fld w i i).testBit 0 = bit w i := by
    rw [testBit_fld, Nat.add_sub_cancel_left]
    rfl
  rw [← hbit]
  interval_cases fld w i i <;> rfl

theorem bit_eq_of_fld_eq {w : Word} {i : Nat} {b : Bool} (h : fld w i i = ofBool b) : bit w i = b := by
  rw [fld_eq_ofBool_bit] at h
  cases hb : bit w i <;> cases b <;> simp_all [ofBool]

/-! ### Typed writes -/

/-- The bits of the register at `a` that a write can change. -/
def writable (a : Nat) : Word :=
  ((regAt a).map fun e => e.1.rwMask ||| e.1.w1cMask ||| e.1.w1sMask).getD 0

/-- The bits of the register at `a` that take what is written. -/
def readWrite (a : Nat) : Word :=
  ((regAt a).map fun e => e.1.rwMask &&& ~~~(e.1.w1cMask ||| e.1.w1sMask)).getD 0

section
variable (s : State) {a i : Nat} (v : Word)

theorem State.getLsbD_wrTyped_kept (h : (writable a).getLsbD i = false) (hi : i < 32) :
    ((s.wrTyped a v).rd a).getLsbD i = (s.rd a).getLsbD i := by
  unfold State.wrTyped
  unfold writable at h
  split
  · next d ij hreg =>
    rw [hreg, Option.map_some, Option.getD_some, BitVec.getLsbD_or, BitVec.getLsbD_or, Bool.or_eq_false_iff,
      Bool.or_eq_false_iff] at h
    obtain ⟨⟨hrw, hw1c⟩, hw1s⟩ := h
    rw [State.rd_wr_self, writesFollowFieldTypesBitByBit d _ v i hi, hrw, hw1c, hw1s]
    rfl
  · rfl

theorem State.getLsbD_wrTyped_rw (h : (readWrite a).getLsbD i = true) (hi : i < 32) :
    ((s.wrTyped a v).rd a).getLsbD i = v.getLsbD i := by
  unfold State.wrTyped
  unfold readWrite at h
  split
  · next d ij hreg =>
    rw [hreg, Option.map_some, Option.getD_some, BitVec.getLsbD_and, BitVec.getLsbD_not, BitVec.getLsbD_or,
      Bool.and_eq_true, Bool.and_eq_true, Bool.not_eq_true', Bool.or_eq_false_iff] at h
    obtain ⟨hrw, -, hw1c, hw1s⟩ := h
    rw [State.rd_wr_self, writesFollowFieldTypesBitByBit d _ v i hi, hrw, hw1c, hw1s]
    rfl
  · next hreg =>
    simp [hreg] at h

theorem State.bit_wrTyped_kept (h : (writable a).getLsbD i = false) (hi : i < 32) :
    (s.wrTyped a v).bit a i = s.bit a i := s.getLsbD_wrTyped_kept v h hi

theorem State.bit_wrTyped_rw (h : (readWrite a).getLsbD i = true) (hi : i < 32) : (s.wrTyped a v).bit a i = Machine.bit v i :=
  s.getLsbD_wrTyped_rw v h hi

/-- No bit of a field is writable, or all are RW: tests of a map entry, decided by computation. -/
def fieldKept (a hi lo : Nat) : Bool := (List.range 32).all fun i => decide (i < lo) || decide (hi < i) || !(writable a).getLsbD i

def fieldRw (a hi lo : Nat) : Bool := (List.range 32).all fun i => decide (i < lo) || decide (hi < i) || (readWrite a).getLsbD i

theorem State.fld_wrTyped_kept {hi lo : Nat} (h : fieldKept a hi lo = true) :
    (s.wrTyped a v).fld a hi lo = s.fld a hi lo := by
  refine fld_congr fun i hlo hhi => ?_
  obtain hi | hi := Nat.lt_or_ge i 32
  · have hbit := List.all_eq_true.mp h i (List.mem_range.mpr hi)
    simp only [Bool.or_eq_true, decide_eq_true_eq, Bool.not_eq_true'] at hbit
    exact s.getLsbD_wrTyped_kept v (hbit.resolve_left (by omega)) hi
  · rw [BitVec.getLsbD_of_ge _ _ hi, BitVec.getLsbD_of_ge _ _ hi]

theorem State.fld_wrTyped_rw {hi lo : Nat} (h : fieldRw a hi lo = true) :
    (s.wrTyped a v).fld a hi lo = Machine.fld v hi lo := by
  refine fld_congr fun i hlo hhi => ?_
  obtain hi | hi := Nat.lt_or_ge i 32
  · have hbit := List.all_eq_true.mp h i (List.mem_range.mpr hi)
    simp only [Bool.or_eq_true, decide_eq_true_eq] at hbit
    exact s.getLsbD_wrTyped_rw v (hbit.resolve_left (by omega)) hi
  · rw [BitVec.getLsbD_of_ge _ _ hi, BitVec.getLsbD_of_ge _ _ hi]

theorem State.onlyRegs_wrTyped (a : Nat) : OnlyRegs [a] s (s.wrTyped a v) := by
  unfold State.wrTyped
  split
  · exact onlyRegs_wr s _ _
  · exact OnlyRegs.refl _ s

end

theorem OnlyRegs.wrTyped {l : List Nat} {s t : State} (h : OnlyRegs l s t) {a : Nat} (ha : a ∈ l) (v : Word) :
    OnlyRegs l s (t.wrTyped a v) :=
  h.comp ((t.onlyRegs_wrTyped v a).mono (List.cons_subset.mpr ⟨ha, List.nil_subset l⟩))

/-! ### Reading a field after storing one -/

section
variable (s : State) (a : Nat)

theorem State.fld_setFld_other {hi lo hi' lo' : Nat} (h : hi < 32) (hd : hi < lo' ∨ hi' < lo) (v : Nat) :
    (s.setFld a hi lo v).fld a hi' lo' = s.fld a hi' lo' := by
  rw [State.fld, State.rd_setFld, if_pos rfl, Machine.fld_setFld_other _ h hd]
  rfl

theorem State.bit_setFld_other {hi lo i : Nat} (h : hi < 32) (hd : i < lo ∨ hi < i) (v : Nat) :
    (s.setFld a hi lo v).bit a i = s.bit a i := by
  rw [State.bit, State.rd_setFld, if_pos rfl, Machine.bit_setFld_other _ h hd]
  rfl

theorem State.bit_setFld_self {i : Nat} (h : i < 32) (v : Nat) : (s.setFld a i i v).bit a i = v.testBit 0 := by
  rw [State.bit, State.rd_setFld, if_pos rfl, bit_setFld_in _ h (Nat.le_refl i) (Nat.le_refl i), Nat.sub_self]

theorem State.bit_setBit_self {i : Nat} (h : i < 32) (b : Bool) : (s.setBit a i b).bit a i = b := by
  rw [State.bit, State.rd_setBit, if_pos rfl, Machine.bit_setBit_self _ h]

theorem State.bit_setBit_other {i j : Nat} (h : i < 32) (hj : j ≠ i) (b : Bool) : (s.setBit a i b).bit a j = s.bit a j := by
  rw [State.bit, State.rd_setBit, if_pos rfl, Machine.bit_setBit_other _ h hj]
  rfl

theorem State.fld_setBit_other {i hi lo : Nat} (h : i < 32) (hd : i < lo ∨ hi < i) (b : Bool) :
    (s.setBit a i b).fld a hi lo = s.fld a hi lo := s.fld_setFld_other a h hd _

end

/-! ### Bank switches (R38) -/

section
variable (s : State) (a : Nat) {target : Nat}

theorem State.onlyRegs_bankRequest : OnlyRegs [a] s (s.bankRequest a target) := by
  have hin : a ∈ [a] := List.mem_singleton_self a
  unfold State.bankRequest
  split
  · split
    · exact onlyRegs_wr s _ _
    · exact OnlyRegs.refl _ s
  · exact (onlyRegs_wr s _ _).wr hin _

theorem State.onlyRegs_bankSwitch : OnlyRegs [a] s (s.bankSwitch a target) :=
  (((onlyRegs_wr s a _).wr (List.mem_singleton_self a) _).wr (List.mem_singleton_self a) _)

/-- A request for the other bank is pending toward it, and leaves the bank and the count. -/
theorem State.bankRequest_other (h : s.activeBank a ≠ target) (ht : target < 2) :
    (s.bankRequest a target).bit a 30 = true ∧ (s.bankRequest a target).fld a 1 1 = target ∧
      (s.bankRequest a target).activeBank a = s.activeBank a ∧ (s.bankRequest a target).fld a 15 8 = s.fld a 15 8 := by
  rw [State.bankRequest, if_neg h]
  refine ⟨?_, ?_, ?_, ?_⟩
  · rw [State.bit_setFld_other _ _ (by decide) (by decide), State.bit_setFld_self _ _ (by decide)]
    rfl
  · rw [State.fld_setFld_self _ _ (by decide) (by decide)]
    exact Nat.mod_eq_of_lt ht
  · rw [State.activeBank, State.fld_setFld_other _ _ (by decide) (by decide), State.fld_setFld_other _ _ (by decide) (by decide)]
    rfl
  · rw [State.fld_setFld_other _ _ (by decide) (by decide), State.fld_setFld_other _ _ (by decide) (by decide)]

/-- A request for the active bank leaves nothing pending, and the bank and the count as they are. -/
theorem State.bankRequest_active (h : s.activeBank a = target) :
    (s.bankRequest a target).bit a 30 = false ∧ (s.bankRequest a target).activeBank a = s.activeBank a ∧
      (s.bankRequest a target).fld a 15 8 = s.fld a 15 8 := by
  rw [State.bankRequest, if_pos h]
  split
  · refine ⟨?_, ?_, ?_⟩
    · rw [State.bit_setFld_self _ _ (by decide)]
      rfl
    · rw [State.activeBank, State.fld_setFld_other _ _ (by decide) (by decide)]
      rfl
    · rw [State.fld_setFld_other _ _ (by decide) (by decide)]
  · exact ⟨Bool.eq_false_iff.mpr ‹_›, rfl, rfl⟩

theorem State.bankSwitch_bank (ht : target < 2) : (s.bankSwitch a target).activeBank a = target := by
  rw [State.bankSwitch, State.activeBank, State.fld_setFld_other _ _ (by decide) (by decide),
    State.fld_setFld_other _ _ (by decide) (by decide), State.fld_setFld_self _ _ (by decide) (by decide)]
  exact Nat.mod_eq_of_lt ht

theorem State.bankSwitch_count : (s.bankSwitch a target).fld a 15 8 = (s.fld a 15 8 + 1) % 256 := by
  rw [State.bankSwitch, State.fld_setFld_other _ _ (by decide) (by decide), State.fld_setFld_self _ _ (by decide) (by decide)]
  rfl

theorem State.bankSwitch_pending : (s.bankSwitch a target).bit a 30 = false := by
  rw [State.bankSwitch, State.bit_setFld_self _ _ (by decide)]
  rfl

end

end Sys2Proof.Machine
end

section
/-!
PROOFS. Charts (chapter 09): entry access by CMP_TBL_SEL (R189) and the switch of the chart bank (R38, R197).
-/
namespace Sys2Proof.Machine

open Sys2Proof.Safety

/-! ### An entry of more than sixteen words -/

/-- A state whose chart memory holds an entry of seventeen words, outside every table. -/
def longEntry : State := { State.reset with cmp.chart := [(chartKey 0 0 0 0, List.replicate 17 1)] }

/-- READ loads the entry as it is, the seventeenth word into the word after CMP_TBL_DATA. -/
theorem rd_longEntry_read : (longEntry.tblSelWrite 0x40000000).rd (Reg.cmpTblData 16) = 1 := by decide

theorem rd_longEntry : longEntry.rd (Reg.cmpTblData 16) = 0 := by decide

/-- Refutes O20: with an INDEX outside the table a write with READ set loads the stored words whatever their number, and
nothing says that an entry of an arbitrary state has sixteen. -/
theorem not_chartEntriesAreWrittenAndReadWhole : ¬ Obligations.ChartEntriesAreWrittenAndReadWhole := by
  rintro ⟨-, -, houtside, -⟩
  obtain ⟨t, ht, -, -, hrd⟩ := houtside 0x40000000 longEntry (.inl (by decide))
  cases ht
  have hsame := hrd (Reg.cmpTblData 16) (by decide)
  rw [rd_longEntry] at hsame
  exact absurd (rd_longEntry_read.symm.trans hsame) (by decide)

/-! ### The chart bank -/

/-- Charts switch in the clock of the request (R197). -/
theorem State.cmpRequest_other (s : State) {target : Nat} (h : s.activeBank Reg.cmpCommit ≠ target) (ht : target < 2) :
    s.cmpRequest target = (s.bankRequest Reg.cmpCommit target).bankSwitch Reg.cmpCommit target := by
  obtain ⟨hpending, htarget, -⟩ := s.bankRequest_other Reg.cmpCommit h ht
  rw [State.cmpRequest]
  rw [hpending, htarget, if_pos rfl]

theorem State.cmpRequest_active (s : State) {target : Nat} (h : s.activeBank Reg.cmpCommit = target) :
    s.cmpRequest target = s.bankRequest Reg.cmpCommit target := by
  obtain ⟨hpending, -⟩ := s.bankRequest_active Reg.cmpCommit h
  rw [State.cmpRequest]
  rw [hpending]
  rfl

/-- Settles O21: the write stores TARGET alone, and the request acts on the commit register alone. -/
theorem chartBankSwitchesResolveAtOnce : Obligations.ChartBankSwitchesResolveAtOnce := by
  have hbank : ∀ (s : State) (val : Word), (s.wrTyped Reg.cmpCommit val).activeBank Reg.cmpCommit = s.activeBank Reg.cmpCommit :=
    fun s val => s.fld_wrTyped_kept val (by decide)
  have hcount : ∀ (s : State) (val : Word), (s.wrTyped Reg.cmpCommit val).fld Reg.cmpCommit 15 8 = s.fld Reg.cmpCommit 15 8 :=
    fun s val => s.fld_wrTyped_kept val (by decide)
  have htarget : ∀ val : Word, fld val 0 0 < 2 := fun val => Nat.mod_lt _ (by decide)
  have hgo : ∀ (val : Word) (s : State), bit val 31 = true → s.wpSame 1 = false →
      s.cmpCommitWrite val = (s.wrTyped Reg.cmpCommit val).cmpRequest (fld val 0 0) := fun val s hval hsame => by
    rw [State.cmpCommitWrite, hval, hsame]
    rfl
  refine ⟨fun val s hval hsame hother => ?_, fun val s hval hsame hactive => ?_, fun val s hsame => ?_⟩
  · refine Runs.intro (t := s.cmpCommitWrite val) rfl ?_
    have hother' : (s.wrTyped Reg.cmpCommit val).activeBank Reg.cmpCommit ≠ fld val 0 0 := by rwa [hbank]
    obtain ⟨-, -, -, hkept⟩ := (s.wrTyped Reg.cmpCommit val).bankRequest_other _ hother' (htarget val)
    rw [hgo val s hval hsame, State.cmpRequest_other _ hother' (htarget val), State.bankSwitch_bank _ _ (htarget val),
      State.bankSwitch_count, State.bankSwitch_pending, hkept, hcount]
    exact ⟨rfl, rfl, rfl, ((s.onlyRegs_wrTyped _ _).comp (State.onlyRegs_bankRequest _ _)).comp (State.onlyRegs_bankSwitch _ _)⟩
  · refine Runs.intro (t := s.cmpCommitWrite val) rfl ?_
    have hactive' : (s.wrTyped Reg.cmpCommit val).activeBank Reg.cmpCommit = fld val 0 0 := by rwa [hbank]
    obtain ⟨hpending, hkept, hkeptCount⟩ := (s.wrTyped Reg.cmpCommit val).bankRequest_active _ hactive'
    rw [hgo val s hval hsame, State.cmpRequest_active _ hactive', hkept, hkeptCount, hpending, hbank, hcount]
    exact ⟨rfl, rfl, rfl, (s.onlyRegs_wrTyped _ _).comp (State.onlyRegs_bankRequest _ _)⟩
  · have hwrite : s.cmpCommitWrite val = s.wrTyped Reg.cmpCommit val := by
      rw [State.cmpCommitWrite, hsame, Bool.not_true, Bool.and_false]
      rfl
    refine Runs.intro (t := s.cmpCommitWrite val) rfl ?_
    rw [hwrite]
    exact ⟨hbank s val, hcount s val, s.onlyRegs_wrTyped _ _⟩

end Sys2Proof.Machine
end

section
/-!
PROOFS. Network and management ports (chapter 14): what a received frame counts, flow control both ways, and which class a
port sends from.
-/
namespace Sys2Proof.Safety

open Sys2Proof.Machine

/-- One more event of a counter, whatever else happened to other registers. -/
theorem OnlyRegs.bump {l : List Nat} {s t : State} (h : OnlyRegs l s t) {a : Nat} (ha : a ∉ l) :
    (t.bump a).rd a = satAdd (s.rd a) 1 ∧ OnlyRegs (a :: l) s (t.bump a) := by
  refine ⟨?_, (h.mono (List.subset_cons_self a l)).wr (List.mem_cons_self ..) _⟩
  rw [State.rd_bump, if_pos rfl, h.2 a ha]

end Sys2Proof.Safety

namespace Sys2Proof.Machine

open Sys2Proof.Safety

/-! ### Port blocks -/

theorem State.netPort_setNet (s : State) (i k : Nat) (x : NetPort) :
    (s.setNet i x).netPort k = if k = i then x else s.netPort k := SMap.get_set _ _ _ _ _

@[simp] theorem State.netPort_setNet_self (s : State) (i : Nat) (x : NetPort) : (s.setNet i x).netPort i = x := by
  rw [State.netPort_setNet, if_pos rfl]

theorem State.sameBut_setNet (s : State) (i : Nat) (x : NetPort) : SameBut State.netPort [i] s (s.setNet i x) := fun k hk => by
  rw [State.netPort_setNet, if_neg (List.ne_of_not_mem_cons hk)]

/-! ### Reception (R298) -/

theorem State.onlyRegs_fecCount (s : State) (i corr uncorr : Nat) :
    OnlyRegs [Reg.netFecCorr i, Reg.netFecUncorr i] s (s.fecCount i corr uncorr) := by
  unfold State.fecCount
  split
  · exact OnlyRegs.refl _ s
  · exact ((OnlyRegs.refl _ s).wr (List.mem_cons_self ..) _).wr (List.mem_cons_of_mem _ (List.mem_singleton_self _)) _

theorem netReceive_of_up {s : State} {i : Nat} (h : s.netUp i = true) (bs : List Byte) (cap : Raw) (latency corr uncorr : Nat) :
    s.netReceive i bs cap latency corr uncorr =
      if !(s.serving || s.dev.mode == .standby) then s.fecCount i corr uncorr
      else if bs.length < 64 then (s.fecCount i corr uncorr).bump (Reg.netRxRunt i)
      else (s.fecCount i corr uncorr).netAccept i bs cap latency := by
  rw [State.netReceive, h]
  rfl

/-- In a mode that receives. -/
theorem netReceive_of_receives {s : State} {i : Nat} (h : s.netUp i = true) (hmode : s.serving = true ∨ s.dev.mode = .standby)
    (bs : List Byte) (cap : Raw) (latency corr uncorr : Nat) :
    s.netReceive i bs cap latency corr uncorr =
      if bs.length < 64 then (s.fecCount i corr uncorr).bump (Reg.netRxRunt i)
      else (s.fecCount i corr uncorr).netAccept i bs cap latency := by
  have hreceives : (s.serving || s.dev.mode == .standby) = true := by
    obtain hserving | hstandby := hmode
    · rw [hserving]; rfl
    · rw [hstandby]; simp
  rw [netReceive_of_up h, hreceives]
  rfl

/-- The MAC alone: without validation the SecY passes the frame (R307). -/
theorem secRx_of_off {s : State} {i : Nat} (h : s.bit (Reg.netSecCfg i) 30 = false) (bs : List Byte) (cut : Bool) :
    s.secRx i bs cut = (some bs, false, s) := by
  rw [State.secRx]
  exact if_pos (.inr (.inl (by rw [← State.bit, h]; rfl)))

theorem netAccept_bad {s : State} {i : Nat} {bs : List Byte} (hfcs : fcsOk bs = false) (hct : s.ctPort i = false) (cap : Raw)
    (latency : Nat) : s.netAccept i bs cap latency = s.bump (Reg.netRxFcsErr i) := by
  simp [State.netAccept, hfcs, hct]

theorem netAccept_pause {s : State} {i : Nat} {bs : List Byte} (hfcs : fcsOk bs = true) (hpause : isPause bs = true) (cap : Raw)
    (latency : Nat) : s.netAccept i bs cap latency = s.macControl i bs := by
  simp [State.netAccept, hfcs, hpause]

/-- A good data frame in a serving mode, MACsec off. -/
theorem netAccept_data {s : State} {i : Nat} {bs : List Byte} (hserving : s.serving = true) (hfcs : fcsOk bs = true)
    (hpause : isPause bs = false) (hsec : s.bit (Reg.netSecCfg i) 30 = false) (cap : Raw) (latency : Nat) :
    s.netAccept i bs cap latency =
      if s.maxFrame i < bs.length then s.bump (Reg.netRxOversize i)
      else (s.bump (Reg.netRxFrames i)).netOffer i
        { bytes := bs, port := devPort i,
          stamp := s.portStamp (devPort i) true cap latency (ptpDomain (s.ptpOf (devPort i) bs) bs), bad := false } := by
  simp [State.netAccept, hfcs, hpause, secRx_of_off hsec, hserving]

theorem pipeFor_of_onlyRegs {l : List Nat} {s t : State} (h : OnlyRegs l s t) (hl : ∀ a ∈ l, 0x200 ≤ a) (p : Nat) :
    t.pipeFor p = s.pipeFor p := by
  obtain ⟨hframe, hrd⟩ := h
  have hread : ∀ a, a < 0x200 → t.rd a = s.rd a := fun a ha => hrd a fun hin => absurd (hl a hin) (by omega)
  have hdev : t.dev = s.dev := by rw [hframe]
  have hmap : ∀ k, t.rd (Reg.devPipeMap (k % 8)) = s.rd (Reg.devPipeMap (k % 8)) := fun k =>
    hread _ (by simp only [Reg.devPipeMap]; omega)
  simp only [State.pipeFor, State.fld, hdev, hmap, hread Reg.devPipeSpare (by decide)]

theorem State.pipeFor_lt (s : State) (p : Nat) : s.pipeFor p < 16 := by
  have hfld : ∀ a, s.fld a 3 0 < 16 := fun _ => Nat.mod_lt _ (by decide)
  unfold State.pipeFor
  dsimp only
  split <;> split <;> exact hfld _

/-- Whether frames may start by cut-through reads two VOQ registers. -/
theorem ctPort_of_onlyRegs {l : List Nat} {s t : State} (h : OnlyRegs l s t) (hl : ∀ a ∈ l, 0xE00000 ≤ a) (i : Fin 26) :
    t.ctPort i.val = s.ctPort i.val := by
  have hread : ∀ a, a < 0xE00000 → t.rd a = s.rd a := fun a ha => h.2 a fun hin => absurd (hl a hin) (by omega)
  have hport : Reg.voqPortCfg (devPort i.val) < 0xE00000 := by
    simp only [Reg.voqPortCfg, devPort]
    split <;> omega
  unfold State.ctPort State.bit State.fld
  rw [hread _ hport, hread Reg.voqCtrl (by decide)]

/-- Offered to its pipeline, a frame moves occupancy and its ingress buffer, and may be counted as overrun. -/
def OfferedAt (p : Nat) (s t : State) : Prop :=
  RegsBut [Reg.cmpIngOverrun p, Reg.chkInj] s t ∧ t = { s with regs := t.regs, net := t.net, cmp := t.cmp }

theorem frameIn_offered (s : State) (f : Frame) (full : Bool) : OfferedAt (s.pipeFor f.port) s (s.frameIn f full) := by
  unfold State.frameIn
  dsimp only
  split
  · exact ⟨fun _ _ => rfl, rfl⟩
  · split
    · obtain ⟨hframe, hrd⟩ := onlyRegs_wr s (Reg.cmpIngOverrun (s.pipeFor f.port)) (satAdd (s.rd _) 1)
      exact ⟨fun a ha => hrd a fun hin => ha (List.mem_cons.mpr (.inl (List.mem_singleton.mp hin))), rfl⟩
    · obtain ⟨hframe, hrd⟩ :=
        (s.setIngress (s.pipeFor f.port) (s.ingress (s.pipeFor f.port) ++ [s.attach f])).onlyRegs_memWrite 8
      exact ⟨fun a ha => hrd a fun hin => ha (List.mem_cons_of_mem _ hin), by rw [hframe]; rfl⟩

theorem netOffer_offered (s : State) (i : Nat) (f : Frame) : OfferedAt (s.pipeFor f.port) s (s.netOffer i f) := by
  unfold State.netOffer
  dsimp only
  split
  · exact ⟨fun _ _ => rfl, rfl⟩
  · split
    · exact frameIn_offered s f true
    · obtain ⟨hrd, hframe⟩ := frameIn_offered (s.setOcc i (s.framePrio i f.bytes)
        (s.occOf i (s.framePrio i f.bytes) + unitsOf f.bytes.length)) { f with buffered := true } false
      exact ⟨hrd, by rw [hframe]; rfl⟩

/-! ### Flow control received (R301, R302) -/

/-- The timer that a received quantum sets for a priority of port `i`. -/
def pauseUntil (s : State) (i q : Nat) : Option Raw :=
  if q = 0 then none else some (s.raw + BitVec.ofNat 96 (q * 512 * nsUnit / max 1 (gbps (s.netPers i))))

/-- One priority of a received PAUSE or PFC frame. -/
def State.setPause (s : State) (i : Nat) (quanta : List Nat) (c : Nat) : State :=
  s.setNet i { s.netPort i with
    pause := (s.netPort i).pause.set (fun _ => none) c (pauseUntil s i ((quanta[c]?).getD 0)) }

theorem pauseIn_of_up {s : State} {i : Nat} (h : s.netUp i = true) (enable : Nat) (quanta : List Nat) :
    s.pauseIn i enable quanta =
      if (s.bump (Reg.netFcRx i)).fcMode i = 0 then s.bump (Reg.netFcRx i)
      else (s.bump (Reg.netFcRx i)).each ((List.range 8).filter fun c => enable / 2 ^ c % 2 == 1) fun c t =>
        t.setPause i quanta c := by
  rw [State.pauseIn, h]
  rfl

/-- Port `i` alone is another. -/
def PortOnly (i : Nat) (s t : State) : Prop := t = { s with net := t.net } ∧ SameBut State.netPort [i] s t

theorem portOnly_refl (i : Nat) (s : State) : PortOnly i s s := ⟨rfl, fun _ _ => rfl⟩

theorem PortOnly.setNet {i : Nat} {s t : State} (h : PortOnly i s t) (x : NetPort) : PortOnly i s (t.setNet i x) := by
  obtain ⟨hframe, hports⟩ := h
  exact ⟨by rw [hframe]; rfl, fun k hk => (t.sameBut_setNet i x k hk).trans (hports k hk)⟩

theorem portOnly_setPauses (s : State) (i : Nat) (quanta : List Nat) (l : List Nat) :
    PortOnly i s (s.each l fun c t => t.setPause i quanta c) :=
  State.each_induct (P := PortOnly i s) (portOnly_refl i s) fun _ _ _ h => h.setNet _

theorem pause_setPauses_other (s : State) (i : Nat) (quanta : List Nat) {l : List Nat} {c : Nat} (hc : c ∉ l) :
    ((s.each l fun c t => t.setPause i quanta c).netPort i).pause.get (fun _ => none) c =
      (s.netPort i).pause.get (fun _ => none) c := by
  induction l generalizing s with
  | nil => rfl
  | cons d l ih =>
    obtain ⟨hne, hc⟩ := not_or.mp (mt List.mem_cons.mpr hc)
    rw [State.each, ih _ hc, State.setPause, State.netPort_setNet_self, SMap.get_set_other _ _ _ _ _ hne]

theorem pause_setPauses (s : State) (i : Nat) (quanta : List Nat) {l : List Nat} (hl : l.Nodup) {c : Nat} (hc : c ∈ l) :
    ((s.each l fun c t => t.setPause i quanta c).netPort i).pause.get (fun _ => none) c =
      pauseUntil s i ((quanta[c]?).getD 0) := by
  induction l generalizing s with
  | nil => exact absurd hc List.not_mem_nil
  | cons d l ih =>
    obtain ⟨hd, hl⟩ := List.nodup_cons.mp hl
    rw [State.each]
    obtain rfl | hc := List.mem_cons.mp hc
    · rw [pause_setPauses_other _ _ _ hd, State.setPause, State.netPort_setNet_self, SMap.get_set_self]
    · rw [ih _ hl hc]
      rfl

/-- The frame counts, and moves pause timers of its port alone. -/
theorem pauseIn_frame {s : State} {i : Nat} (h : s.netUp i = true) (enable : Nat) (quanta : List Nat) :
    PortOnly i (s.bump (Reg.netFcRx i)) (s.pauseIn i enable quanta) := by
  rw [pauseIn_of_up h]
  split
  · exact portOnly_refl _ _
  · exact portOnly_setPauses _ _ _ _

/-- A PAUSE or PFC frame reaches the pause timers. -/
theorem macControl_of_isPause {bs : List Byte} (h : isPause bs = true) (s : State) (i : Nat) :
    ∃ enable quanta, s.macControl i bs = s.pauseIn i enable quanta := by
  simp only [isPause, Bool.and_eq_true, Bool.or_eq_true, beq_iff_eq] at h
  obtain ⟨-, hpause | hpfc⟩ := h
  · exact ⟨_, _, by rw [State.macControl, hpause]; rfl⟩
  · exact ⟨_, _, by rw [State.macControl, hpfc]; rfl⟩

/-- A good data frame of a port in a serving mode, MACsec off: counted and offered, or too long. -/
theorem receives_data {i : Fin 26} {bytes : List Byte} {s : State} (hup : s.netUp i.val = true) (hserving : s.serving = true)
    (hlong : 64 ≤ bytes.length) (hfcs : fcsOk bytes = true) (hpause : isPause bytes = false)
    (hsec : s.bit (Reg.netSecCfg i.val) 30 = false) (cap : Raw) (latency corr uncorr : Nat) :
    Runs (.netFrameReceive i bytes cap latency corr uncorr) s fun t =>
      (bytes.length ≤ s.maxFrame i.val →
        t.rd (Reg.netRxFrames i.val) = satAdd (s.rd (Reg.netRxFrames i.val)) 1 ∧
          RegsBut [Reg.netRxFrames i.val, Reg.netFecCorr i.val, Reg.netFecUncorr i.val,
            Reg.cmpIngOverrun (s.pipeFor (devPort i.val)), Reg.chkInj] s t ∧
          t = { s with regs := t.regs, net := t.net, cmp := t.cmp }) ∧
      (s.maxFrame i.val < bytes.length →
        t.rd (Reg.netRxOversize i.val) = satAdd (s.rd (Reg.netRxOversize i.val)) 1 ∧
          OnlyRegs [Reg.netRxOversize i.val, Reg.netFecCorr i.val, Reg.netFecUncorr i.val] s t) := by
  refine Runs.intro (t := s.netReceive i.val bytes cap latency corr uncorr) rfl ?_
  have hfec := s.onlyRegs_fecCount i.val corr uncorr
  have hother : ∀ a, a ≠ Reg.netFecCorr i.val → a ≠ Reg.netFecUncorr i.val → (s.fecCount i.val corr uncorr).rd a = s.rd a :=
    fun a h1 h2 => hfec.2 a (by simp [h1, h2])
  have hserving' : (s.fecCount i.val corr uncorr).serving = true := by rw [hfec.1]; exact hserving
  have hsec' : (s.fecCount i.val corr uncorr).bit (Reg.netSecCfg i.val) 30 = false := by
    rw [State.bit, hother _ (by simp [Reg.netSecCfg, Reg.netFecCorr]) (by simp [Reg.netSecCfg, Reg.netFecUncorr])]
    exact hsec
  have hmax : (s.fecCount i.val corr uncorr).maxFrame i.val = s.maxFrame i.val := by
    rw [State.maxFrame, State.fld,
      hother _ (by simp [Reg.netPortCfg, Reg.netFecCorr]) (by simp [Reg.netPortCfg, Reg.netFecUncorr])]
    rfl
  rw [netReceive_of_receives hup (.inl hserving), if_neg (Nat.not_lt.mpr hlong), netAccept_data hserving' hfcs hpause hsec', hmax]
  refine ⟨fun hfits => ?_, fun hover => ?_⟩
  · rw [if_neg (Nat.not_lt.mpr hfits)]
    obtain ⟨hcount, hregs⟩ := hfec.bump (a := Reg.netRxFrames i.val) (by simp [Reg.netRxFrames, Reg.netFecCorr, Reg.netFecUncorr])
    generalize (s.fecCount i.val corr uncorr).bump (Reg.netRxFrames i.val) = u at hcount hregs
    obtain ⟨hrd, hframe⟩ := netOffer_offered u i.val
      { bytes := bytes, port := devPort i.val,
        stamp := (s.fecCount i.val corr uncorr).portStamp (devPort i.val) true cap latency
          (ptpDomain ((s.fecCount i.val corr uncorr).ptpOf (devPort i.val) bytes) bytes), bad := false }
    have hpipe : u.pipeFor (devPort i.val) = s.pipeFor (devPort i.val) :=
      pipeFor_of_onlyRegs hregs (by simp [Reg.netRxFrames, Reg.netFecCorr, Reg.netFecUncorr]; omega) _
    have hp : s.pipeFor (devPort i.val) < 16 := s.pipeFor_lt _
    dsimp only at hrd
    rw [hpipe] at hrd
    refine ⟨(hrd _ ?_).trans hcount, fun a ha => ?_, by rw [hframe, hregs.1]⟩
    · simp [Reg.netRxFrames, Reg.cmpIngOverrun, Reg.chkInj]
      omega
    · simp only [List.mem_cons, not_or] at ha
      obtain ⟨h1, h2, h3, h4, h5, -⟩ := ha
      rw [hrd a (by simp [h4, h5]), hregs.2 a (by simp [h1, h2, h3])]
  · rw [if_pos hover]
    exact hfec.bump (by simp [Reg.netRxOversize, Reg.netFecCorr, Reg.netFecUncorr])

/-! ### The obligation on received frames -/

/-- Settles O15. -/
theorem framesEnterOrAreDroppedAndCounted : Obligations.FramesEnterOrAreDroppedAndCounted := by
  refine ⟨?_, ?_, ?_, ?_, ?_, ?_, ?_, ?_, ?_⟩
  · intro f s hpass
    refine Runs.intro (t := s.frameIn f true) rfl ?_
    rw [State.frameIn_of_full hpass]
    exact (OnlyRegs.refl [] s).bump List.not_mem_nil
  · intro f s hpass
    refine Runs.intro (t := s.frameIn f false) rfl ?_
    obtain ⟨hjoins, -, hrd⟩ := State.frameIn_joins hpass
    have hframe := ((s.setIngress (s.pipeFor f.port) (s.ingress (s.pipeFor f.port) ++ [s.attach f])).onlyRegs_memWrite 8).1
    rw [← State.frameIn_of_passes hpass] at hframe
    refine ⟨hjoins, fun k hk => ?_, hrd, by rw [hframe]; rfl⟩
    rw [hframe]
    exact (s.ingress_setIngress _ _ _).trans (if_neg (List.ne_of_not_mem_cons hk))
  · intro f full s hpass
    exact congrArg Host.Outcome.next (State.frameIn_of_held hpass full)
  · intro i bytes cap latency corr uncorr s hup hmode hshort
    refine Runs.intro (t := s.netReceive i.val bytes cap latency corr uncorr) rfl ?_
    rw [netReceive_of_receives hup hmode, if_pos hshort]
    exact (s.onlyRegs_fecCount i.val corr uncorr).bump (by simp [Reg.netRxRunt, Reg.netFecCorr, Reg.netFecUncorr])
  · intro i bytes cap latency corr uncorr s hup hmode hlong hfcs hct
    refine Runs.intro (t := s.netReceive i.val bytes cap latency corr uncorr) rfl ?_
    have hfec := s.onlyRegs_fecCount i.val corr uncorr
    have hct' : (s.fecCount i.val corr uncorr).ctPort i.val = false := by
      rw [ctPort_of_onlyRegs hfec (by simp [Reg.netFecCorr, Reg.netFecUncorr]; omega), hct]
    rw [netReceive_of_receives hup hmode, if_neg (Nat.not_lt.mpr hlong), netAccept_bad hfcs hct']
    exact hfec.bump (by simp [Reg.netRxFcsErr, Reg.netFecCorr, Reg.netFecUncorr])
  · intro i bytes cap latency corr uncorr s hup hserving hlong hfcs hpause hsec
    exact receives_data hup hserving hlong hfcs hpause hsec cap latency corr uncorr
  · intro i bytes cap latency corr uncorr s hup hmode hlong hfcs hpause
    have hreceive : s.netReceive i.val bytes cap latency corr uncorr = (s.fecCount i.val corr uncorr).macControl i.val bytes := by
      rw [netReceive_of_receives hup hmode, if_neg (Nat.not_lt.mpr hlong), netAccept_pause hfcs hpause]
    refine ⟨congrArg Host.Outcome.next hreceive, Runs.intro (t := s.netReceive i.val bytes cap latency corr uncorr) rfl ?_⟩
    have hfec := s.onlyRegs_fecCount i.val corr uncorr
    obtain ⟨enable, quanta, hmac⟩ := macControl_of_isPause hpause (s.fecCount i.val corr uncorr) i.val
    have hup' : (s.fecCount i.val corr uncorr).netUp i.val = true := by
      rw [State.netUp, State.bit, hfec.2 _ (by simp [Reg.netPortStatus, Reg.netFecCorr, Reg.netFecUncorr])]
      exact hup
    rw [hreceive, hmac]
    obtain ⟨hframe, hports⟩ := pauseIn_frame hup' enable quanta
    obtain ⟨hcount, hregs⟩ := hfec.bump (a := Reg.netFcRx i.val) (by simp [Reg.netFcRx, Reg.netFecCorr, Reg.netFecUncorr])
    have hrd : ∀ a, ((s.fecCount i.val corr uncorr).pauseIn i.val enable quanta).rd a =
        ((s.fecCount i.val corr uncorr).bump (Reg.netFcRx i.val)).rd a := fun a => by rw [hframe]; rfl
    refine ⟨(hrd _).trans hcount, fun a ha => (hrd a).trans (hregs.2 a ha), ?_, fun k hk => (hports k hk).trans ?_⟩
    · rw [hframe, hregs.1]
    · rw [hregs.1]; rfl
  · intro i bytes cap latency corr uncorr s hup
    refine congrArg Host.Outcome.next ?_
    rw [State.netReceive, hup]
    rfl
  · intro i bytes cap latency corr uncorr s hserving hstandby
    refine Runs.intro (t := s.netReceive i.val bytes cap latency corr uncorr) rfl ?_
    have hreceives : (s.serving || s.dev.mode == .standby) = false := by
      rw [hserving, Bool.false_or]
      exact beq_false_of_ne hstandby
    obtain hup | hup := Bool.eq_false_or_eq_true (s.netUp i.val)
    · rw [netReceive_of_up hup, hreceives]
      exact s.onlyRegs_fecCount _ _ _
    · rw [State.netReceive, hup]
      exact OnlyRegs.refl _ s

/-! ### Flow control sent (R303) -/

/-- One PFC frame leaves, and NET_FC_TX counts it. -/
theorem sendPfc_frame (s : State) (i : Nat) :
    (s.sendPfc i).rd (Reg.netFcTx i) = satAdd (s.rd (Reg.netFcTx i)) 1 ∧ (s.sendPfc i).out.length = s.out.length + 1 ∧
      RegsBut [Reg.netFcTx i] s (s.sendPfc i) ∧ s.sendPfc i = { s with regs := (s.sendPfc i).regs, out := (s.sendPfc i).out } := by
  refine ⟨State.rd_wr_self _ _ _, List.length_append, fun a ha => ?_, rfl⟩
  exact State.rd_wr_other _ _ (List.ne_of_not_mem_cons ha)

theorem pfcDue_of_crossed {s : State} {i : Nat} (h : s.fcSends i = true) (hx : s.xoffNow i ≠ (s.netPort i).xoff) :
    s.pfcDue i = (s.setNet i { s.netPort i with xoff := s.xoffNow i, pfcAt := s.raw }).sendPfc i := by
  rw [State.pfcDue, h]
  exact if_pos (by simpa using hx)

theorem pfcRepeat_of_due {s : State} {i : Nat} (h : s.fcSends i = true) (hx : (s.netPort i).xoff ≠ 0)
    (hdue : s.reached (s.pfcNext i) = true) : s.pfcRepeat i = (s.setNet i { s.netPort i with pfcAt := s.raw }).sendPfc i := by
  rw [State.pfcRepeat, h, hdue]
  exact if_pos (by simpa using hx)

/-- A PFC frame after a change of the port block. -/
theorem sendPfc_setNet (s : State) (i : Nat) (x : NetPort) :
    ((s.setNet i x).sendPfc i).netPort i = x ∧
      ((s.setNet i x).sendPfc i).rd (Reg.netFcTx i) = satAdd (s.rd (Reg.netFcTx i)) 1 ∧
      ((s.setNet i x).sendPfc i).out.length = s.out.length + 1 ∧ RegsBut [Reg.netFcTx i] s ((s.setNet i x).sendPfc i) ∧
      (s.setNet i x).sendPfc i =
        { s with regs := ((s.setNet i x).sendPfc i).regs, net := ((s.setNet i x).sendPfc i).net,
                 out := ((s.setNet i x).sendPfc i).out } ∧
      SameBut State.netPort [i] s ((s.setNet i x).sendPfc i) := by
  obtain ⟨hcount, hout, hregs, hframe⟩ := sendPfc_frame (s.setNet i x) i
  refine ⟨?_, hcount, hout, hregs, by rw [hframe]; rfl, fun k hk => ?_⟩
  · rw [hframe]
    exact s.netPort_setNet_self i x
  · rw [hframe]
    exact s.sameBut_setNet i x k hk

/-- Settles O17. -/
theorem pauseTimersAndPfcFramesFollowFlowControl : Obligations.PauseTimersAndPfcFramesFollowFlowControl := by
  refine ⟨?_, ?_, ?_, ?_, ?_, ?_, ?_, ?_⟩
  · intro i enable quanta s hup
    refine Runs.intro (t := s.pauseIn i.val enable.val quanta) rfl ?_
    obtain ⟨hframe, hports⟩ := pauseIn_frame hup enable.val quanta
    have hrd : ∀ a, (s.pauseIn i.val enable.val quanta).rd a = (s.bump (Reg.netFcRx i.val)).rd a := fun a => by
      rw [hframe]; rfl
    refine ⟨(hrd _).trans (State.rd_wr_self _ _ _), fun a ha => (hrd a).trans ?_, by rw [hframe]; rfl, hports⟩
    exact State.rd_wr_other _ _ (List.ne_of_not_mem_cons ha)
  · intro i enable quanta c s hup hmode hon
    refine Runs.intro (t := s.pauseIn i.val enable.val quanta) rfl ?_
    have hmode' : (s.bump (Reg.netFcRx i.val)).fcMode i.val ≠ 0 := by
      rw [State.fcMode, State.fld, State.rd_bump, if_neg (by simp [Reg.netFcCfg, Reg.netFcRx])]
      exact hmode
    have hpers : (s.bump (Reg.netFcRx i.val)).netPers i.val = s.netPers i.val := by
      have hrd : (s.bump (Reg.netFcRx i.val)).rd (Reg.netPersonality i.val) = s.rd (Reg.netPersonality i.val) :=
        State.rd_wr_other _ _ (by simp [Reg.netPersonality, Reg.netFcRx])
      unfold State.netPers State.fld
      rw [hrd]
    have hin : c.val ∈ (List.range 8).filter fun c => enable.val / 2 ^ c % 2 == 1 :=
      List.mem_filter.mpr ⟨List.mem_range.mpr c.isLt, beq_iff_eq.mpr hon⟩
    rw [pauseIn_of_up hup, if_neg hmode', pause_setPauses _ _ _ (List.nodup_range.filter _) hin, pauseUntil, hpers,
      ← List.getD_eq_getElem?_getD]
    rfl
  · intro i enable quanta s hup
    refine congrArg Host.Outcome.next ?_
    rw [State.pauseIn, hup]
    rfl
  · intro i c at' s e he hreached
    refine Runs.intro (t := (s.advance at').pauseEnd i.val c.val) rfl ?_
    have hend : (s.advance at').pauseEnd i.val c.val = (s.advance at').setNet i.val
        { (s.advance at').netPort i.val with
          pause := ((s.advance at').netPort i.val).pause.set (fun _ => none) c.val none } := by
      rw [State.pauseEnd]
      simp only [he, hreached]
      rfl
    rw [hend]
    refine ⟨?_, rfl, State.sameBut_setNet _ _ _⟩
    rw [State.netPort_setNet_self, SMap.get_set_self]
  · intro i c at' s hnot
    refine congrArg Host.Outcome.next ?_
    generalize s.advance at' = u at hnot
    rw [State.pauseEnd]
    split
    · next e he =>
      rw [he] at hnot
      exact if_neg (Bool.eq_false_iff.mp hnot)
    · rfl
  · intro i s hsends hcrossed
    refine Runs.intro (t := s.pfcDue i.val) rfl ?_
    rw [pfcDue_of_crossed hsends hcrossed]
    obtain ⟨hport, hrest⟩ := sendPfc_setNet s i.val { s.netPort i.val with xoff := s.xoffNow i.val, pfcAt := s.raw }
    rw [hport]
    exact ⟨rfl, rfl, hrest⟩
  · intro i at' s u hu hsends hxoff hdue
    refine Runs.intro (t := u.pfcRepeat i.val) (by rw [hu]; rfl) ?_
    rw [pfcRepeat_of_due hsends hxoff hdue]
    obtain ⟨hport, hrest⟩ := sendPfc_setNet u i.val { u.netPort i.val with pfcAt := u.raw }
    rw [hport]
    exact ⟨rfl, hrest⟩
  · intro i at' s u hu hsends
    refine ⟨congrArg Host.Outcome.next ?_, ?_⟩
    · rw [State.pfcDue, hsends]
      rfl
    · subst hu
      refine congrArg Host.Outcome.next ?_
      rw [State.pfcRepeat, hsends]
      rfl

/-! ### Transmission from staging (R270) -/

/-- What a port does before it looks for a class: a due PFC frame, the end of a cut-through frame run dry, and on a network
port the drop of the heads that no gate opening holds. -/
def State.readyToSend (s : State) (i : Nat) : State :=
  if i < 24 then ((s.pfcDue i).txDry i).testHeads i else (s.pfcDue i).txDry i

theorem stagingTransmit_of_up {s : State} {i : Nat} (h : s.netUp i = true) (cap : Raw) (latency : Nat) (bad : Fin 3) :
    s.stagingTransmit i cap latency bad =
      if ((s.readyToSend i).netPort i).tx.isSome || !(s.readyToSend i).reached ((s.readyToSend i).netPort i).wire then
        s.readyToSend i
      else
        match [7, 6, 5, 4, 3, 2, 1, 0].find? fun c => (s.readyToSend i).classStarts i c with
        | some c =>
          match headOf c ((s.readyToSend i).staging (devPort i)) with
          | some f => (s.readyToSend i).txStart i f cap latency bad
          | none => s.readyToSend i
        | none => s.readyToSend i := by
  rw [State.stagingTransmit, h]
  rfl

/-- With the line free, the head of the highest class that may start goes. -/
theorem stagingTransmit_of_head {s u : State} {i c : Nat} {f : Stored} (h : s.netUp i = true) (hu : u = s.readyToSend i)
    (htx : (u.netPort i).tx = none) (hwire : u.reached (u.netPort i).wire = true)
    (hclass : [7, 6, 5, 4, 3, 2, 1, 0].find? (u.classStarts i) = some c) (hhead : headOf c (u.staging (devPort i)) = some f)
    (cap : Raw) (latency : Nat) (bad : Fin 3) : s.stagingTransmit i cap latency bad = u.txStart i f cap latency bad := by
  rw [stagingTransmit_of_up h, ← hu, htx, hwire]
  simp only [hclass, hhead]
  rfl

/-- With nothing to start, that is all. -/
theorem stagingTransmit_of_idle {s u : State} {i : Nat} (h : s.netUp i = true) (hu : u = s.readyToSend i)
    (hidle : (u.netPort i).tx ≠ none ∨ u.reached (u.netPort i).wire = false ∨
      [7, 6, 5, 4, 3, 2, 1, 0].all (fun c => !u.classStarts i c) = true)
    (cap : Raw) (latency : Nat) (bad : Fin 3) : s.stagingTransmit i cap latency bad = u := by
  rw [stagingTransmit_of_up h, ← hu]
  obtain htx | hwire | hnone := hidle
  · exact if_pos (by rw [Option.isSome_iff_ne_none.mpr htx]; rfl)
  · exact if_pos (by rw [hwire]; exact Bool.or_true _)
  · have hfind : [7, 6, 5, 4, 3, 2, 1, 0].find? (fun c => u.classStarts i c) = none :=
      List.find?_eq_none.mpr fun c hc => by
        have hc' := List.all_eq_true.mp hnone c hc
        simpa using hc'
    split
    · rfl
    · rw [hfind]

/-- A whole frame without MACsec and without a stamp request leaves as one output. -/
theorem transmit_plain {s : State} {i : Nat} {f : Stored} (hts : f.ts = none) (hsec : s.bit (Reg.netSecCfg i) 31 = false)
    (cap : Raw) (latency : Nat) (bad : Bool) :
    (s.transmit i f cap latency bad).out.length = s.out.length + 1 ∧
      (s.transmit i f cap latency bad).rd (Reg.netTxFrames i) = satAdd (s.rd (Reg.netTxFrames i)) 1 ∧
      RegsBut [Reg.netTxFrames i] s (s.transmit i f cap latency bad) ∧
      s.transmit i f cap latency bad =
        { s with regs := (s.transmit i f cap latency bad).regs, out := (s.transmit i f cap latency bad).out } := by
  have hsecTx : ∀ bs, s.secTx i bs = (some none, s) := fun bs => by
    rw [State.secTx]
    exact if_pos (.inr (.inl (by rw [← State.bit, hsec]; rfl)))
  have hsent : ∃ o, s.transmit i f cap latency bad = (s.emit o).bump (Reg.netTxFrames i) := by
    rw [State.transmit]
    simp only [hsecTx, hts]
    exact ⟨_, rfl⟩
  obtain ⟨o, ho⟩ := hsent
  rw [ho]
  exact ⟨List.length_append, State.rd_wr_self _ _ _, fun a ha => State.rd_wr_other _ _ (List.ne_of_not_mem_cons ha), rfl⟩

theorem staging_setStaging_self (s : State) (p : Nat) (l : List Stored) : (s.setStaging p l).staging p = l :=
  SMap.get_set_self _ _ _ _

/-- Settles O16. -/
theorem stagedFramesAreSentHighestClassFirst : Obligations.StagedFramesAreSentHighestClassFirst := by
  refine ⟨?_, ?_, ?_, ?_, ?_⟩
  · intro i cap latency bad s u c f hup hu htx hwire hclass hhead
    exact congrArg Host.Outcome.next (stagingTransmit_of_head hup hu htx hwire hclass hhead cap latency bad)
  · intro i cap latency s u c f hup hu htx hwire hclass hhead hpart hts hsec
    refine Runs.intro (t := (s.advance cap).stagingTransmit i.val cap latency 0) rfl ?_
    rw [stagingTransmit_of_head hup hu htx hwire hclass hhead]
    clear hu htx hwire hclass hhead
    generalize hw : ((u.setStaging (devPort i.val) ((u.staging (devPort i.val)).erase f)).setNet i.val
      { u.netPort i.val with wire := u.raw + u.lineTime i.val (txLen f) }) = w
    have hstart : u.txStart i.val f cap latency 0 = w.transmit i.val f cap latency false := by
      rw [State.txStart, hpart, ← hw]
      rfl
    have hsec' : w.bit (Reg.netSecCfg i.val) 31 = false := by rw [← hw]; exact hsec
    obtain ⟨hout, hcount, hregs, hframe⟩ := transmit_plain hts hsec' cap latency false (f := f)
    rw [hstart]
    refine ⟨?_, ?_, ?_, ?_, ?_, ?_⟩
    · rw [hframe, ← hw]
      exact staging_setStaging_self _ _ _
    · rw [hframe, ← hw]
      exact congrArg NetPort.wire (State.netPort_setNet_self _ _ _)
    · rw [hout, ← hw]; rfl
    · rw [hcount, ← hw]; rfl
    · exact fun a ha => (hregs a ha).trans (by rw [← hw]; rfl)
    · rw [hframe, ← hw]; rfl
  · intro i cap latency s u c f hup hu htx hwire hclass hhead
    refine Runs.intro (t := (s.advance cap).stagingTransmit i.val cap latency 1) rfl ?_
    rw [stagingTransmit_of_head hup hu htx hwire hclass hhead]
    rfl
  · intro i cap latency bad s u hup hu hidle
    exact congrArg Host.Outcome.next (stagingTransmit_of_idle hup hu hidle cap latency bad)
  · intro i cap latency bad s hup
    refine congrArg Host.Outcome.next ?_
    rw [State.stagingTransmit, hup]
    rfl

end Sys2Proof.Machine
end

section
/-!
PROOFS. MACsec associations (R305, R307), which frame a pipeline takes (R186), and the BAR2 windows (R405 to R410).
-/
namespace Sys2Proof.Machine

open Sys2Proof.Safety

/-- A 64-bit value takes two registers. -/
theorem onlyRegs_wr64 (s : State) (lo v : Nat) : OnlyRegs [lo, lo + 4] s (s.wr64 lo v) :=
  (onlyRegs_wr s lo (BitVec.ofNat 32 v)).trans (onlyRegs_wr _ (lo + 4) (BitVec.ofNat 32 (v / 2 ^ 32)))

/-! ### MACsec associations -/

theorem State.sa_setSa (s : State) (i k : Nat) (x : Sa) : (s.setSa i k x).sa i k = x := by
  rw [State.setSa, State.sa, State.netPort_setNet_self, SMap.get_set_self]

/-- What a write of NET_SEC_SA_SEL does before a READ: WRITE and CLEAR of the association it names. -/
def State.saMove (s : State) (i : Nat) (v : Word) : State :=
  if Machine.bit v 31 || Machine.bit v 29 then
    if !s.isUser then s.denied
    else
      let c := if Machine.bit v 29 then s.setSa i (saKey (Machine.bit v 28) (Machine.fld v 21 16) (Machine.fld v 1 0)) {} else s
      if Machine.bit v 31 && !s.sec.error then
        c.setSa i (saKey (Machine.bit v 28) (Machine.fld v 21 16) (Machine.fld v 1 0)) (s.saStaged i)
      else c
  else s

/-- READ loads PN and VALID of an association. -/
def State.saShow (s : State) (i k : Nat) : State :=
  (s.wr64 (Reg.netSecSaPnLo i) (s.sa i k).pn.toNat).wrNat (Reg.netSecSaInfo i)
    (ofBool (s.sa i k).valid * 2 ^ 31 + ofBool (s.sa i k).near * 2 ^ 30)

theorem saSelWrite_of_mapped {s : State} {i : Nat} (h : s.netMapped i true = true) (v : Word) :
    s.saSelWrite i v =
      if bit v 30 then
        ((s.wrTyped (Reg.netSecSaSel i) v).saMove i v).saShow i (saKey (bit v 28) (Machine.fld v 21 16) (Machine.fld v 1 0))
      else (s.wrTyped (Reg.netSecSaSel i) v).saMove i v := by
  rw [State.saSelWrite, h]
  rfl

section
variable (s : State) (i k : Nat)

theorem onlyRegs_saShow :
    OnlyRegs [Reg.netSecSaPnLo i, Reg.netSecSaPnLo i + 4, Reg.netSecSaInfo i] s (s.saShow i k) :=
  (onlyRegs_wr64 s _ _).trans (onlyRegs_wr _ (Reg.netSecSaInfo i) _)

theorem sa_saShow : (s.saShow i k).sa i k = s.sa i k := by
  have hframe := (onlyRegs_saShow s i k).1
  unfold State.sa State.netPort
  rw [hframe]

theorem rd64_saShow : (s.saShow i k).rd64 (Reg.netSecSaPnLo i) = (s.sa i k).pn.toNat := by
  have hother : ∀ b, Reg.netSecSaPnLo i ≤ b → b < Reg.netSecSaPnLo i + 4 * 2 →
      (s.saShow i k).rd b = (s.wr64 (Reg.netSecSaPnLo i) (s.sa i k).pn.toNat).rd b := fun b _ hb =>
    State.rd_wr_other _ _ (by simp only [Reg.netSecSaPnLo] at hb; simp only [Reg.netSecSaInfo]; omega)
  calc (s.saShow i k).rd64 (Reg.netSecSaPnLo i)
      = (s.wr64 (Reg.netSecSaPnLo i) (s.sa i k).pn.toNat).rd64 (Reg.netSecSaPnLo i) := State.rdWords_congr hother
    _ = (s.sa i k).pn.toNat % 2 ^ 64 := State.rdWords_wrWords_toWords _ _ _ _
    _ = (s.sa i k).pn.toNat := Nat.mod_eq_of_lt (s.sa i k).pn.isLt

theorem bit_saShow : (s.saShow i k).bit (Reg.netSecSaInfo i) 31 = (s.sa i k).valid := by
  rw [State.saShow, State.bit, State.rd_wrNat, if_pos rfl]
  cases (s.sa i k).valid <;> cases (s.sa i k).near <;> rfl

end

section
variable {s : State} {i : Nat} {v : Word}

/-- The association that a User's write names. -/
theorem sa_saMove_write (hu : s.isUser = true) (he : s.sec.error = false) (hv : bit v 31 = true) :
    (s.saMove i v).sa i (saKey (bit v 28) (Machine.fld v 21 16) (Machine.fld v 1 0)) = s.saStaged i := by
  rw [State.saMove, hv, hu, he]
  exact State.sa_setSa _ _ _ _

theorem sa_saMove_clear (hu : s.isUser = true) (hv : bit v 29 = true) (hw : bit v 31 = false ∨ s.sec.error = true) :
    (s.saMove i v).sa i (saKey (bit v 28) (Machine.fld v 21 16) (Machine.fld v 1 0)) = {} := by
  have hkeeps : (bit v 31 && !s.sec.error) = false := by
    obtain hw | he := hw
    · rw [hw]; rfl
    · rw [he]; exact Bool.and_false _
  have hmove : s.saMove i v = s.setSa i (saKey (bit v 28) (Machine.fld v 21 16) (Machine.fld v 1 0)) {} := by
    rw [State.saMove, hv, hu, hkeeps, Bool.or_true]
    rfl
  rw [hmove, State.sa_setSa]

/-- A User's write touches its port's block alone. -/
theorem portOnly_saMove (hu : s.isUser = true) : PortOnly i s (s.saMove i v) := by
  unfold State.saMove
  rw [hu]
  dsimp only
  split
  · split
    · exact absurd ‹_› (by decide)
    · split <;> split
      · exact ((portOnly_refl i s).setNet _).setNet _
      · exact (portOnly_refl i s).setNet _
      · exact (portOnly_refl i s).setNet _
      · exact portOnly_refl i s
  · exact portOnly_refl i s

theorem saMove_denied (hu : s.isUser = false) (hv : bit v 31 = true) : s.saMove i v = s.denied := by
  rw [State.saMove, hv, hu]
  rfl

theorem saMove_none (hv : bit v 31 = false) (hc : bit v 29 = false) : s.saMove i v = s := by
  rw [State.saMove, hv, hc]
  rfl

end

/-- A refused service is counted, and moves no port. -/
theorem denied_frame (s : State) : s.denied.rd Reg.secDenied = satAdd (s.rd Reg.secDenied) 1 ∧ s.denied.net = s.net := by
  constructor
  · rw [State.denied, State.event, State.rd_raise_other _ _ _ _ _ _ (by decide) (by decide) (by decide) (by decide),
      State.rd_setBit, if_neg (by decide), State.rd_bump, if_pos rfl]
  · rw [State.denied, State.event, State.raise_frame]
    rfl

theorem saStaged_wrTyped (s : State) (i : Nat) (v : Word) : (s.wrTyped (Reg.netSecSaSel i) v).saStaged i = s.saStaged i := by
  have hpn : (s.wrTyped (Reg.netSecSaSel i) v).rd64 (Reg.netSecSaPnLo i) = s.rd64 (Reg.netSecSaPnLo i) :=
    State.rdWords_congr fun b hb _ => State.rd_wrTyped_other _ _ (by simp only [Reg.netSecSaPnLo] at hb; simp only [Reg.netSecSaSel]; omega)
  have hnet := (s.onlyRegs_wrTyped v (Reg.netSecSaSel i)).1
  unfold State.saStaged
  rw [hpn, hnet]
  rfl

theorem rxscWrite_of_write {s : State} {i : Nat} {v : Word} (h : s.netMapped i true = true) (hv : bit v 31 = true) :
    s.rxscWrite i v = (s.wrTyped (Reg.netSecRxscCtrl i) v).setNet i
      { (s.wrTyped (Reg.netSecRxscCtrl i) v).netPort i with
        rxsc := ((s.wrTyped (Reg.netSecRxscCtrl i) v).netPort i).rxsc.set (fun _ => (false, 0)) (fld v 5 0)
          (bit v 30, BitVec.ofNat 64 ((s.wrTyped (Reg.netSecRxscCtrl i) v).rd64 (Reg.netSecRxscSciLo i))) } := by
  rw [State.rxscWrite, h, hv]
  rfl

/-- Settles O19. -/
theorem macsecAssociationsAreSetReadAndCleared : Obligations.MacsecAssociationsAreSetReadAndCleared := by
  have hsel : ∀ (s : State) (i : Nat) (v : Word), OnlyRegs [Reg.netSecSaSel i] s (s.wrTyped (Reg.netSecSaSel i) v) :=
    fun s i v => s.onlyRegs_wrTyped v _
  have huser : ∀ (s : State) (i : Nat) (v : Word), (s.wrTyped (Reg.netSecSaSel i) v).isUser = s.isUser :=
    fun s i v => by rw [(hsel s i v).1]; rfl
  have herror : ∀ (s : State) (i : Nat) (v : Word), (s.wrTyped (Reg.netSecSaSel i) v).sec = s.sec :=
    fun s i v => by rw [(hsel s i v).1]
  have hmoved : ∀ {s : State} {i : Nat} (v : Word), s.isUser = true →
      SameBut State.netPort [i] s ((s.wrTyped (Reg.netSecSaSel i) v).saMove i v) ∧
        RegsBut [Reg.netSecSaSel i] s ((s.wrTyped (Reg.netSecSaSel i) v).saMove i v) ∧
        (s.wrTyped (Reg.netSecSaSel i) v).saMove i v =
          { s with regs := ((s.wrTyped (Reg.netSecSaSel i) v).saMove i v).regs,
                   net := ((s.wrTyped (Reg.netSecSaSel i) v).saMove i v).net } := by
    intro s i v hu
    obtain ⟨hframe, hports⟩ := portOnly_saMove (i := i) (v := v) ((huser s i v).trans hu)
    obtain ⟨hself, hrd⟩ := hsel s i v
    refine ⟨fun k hk => (hports k hk).trans (by rw [hself]; rfl), fun a ha => ?_, by rw [hframe, hself]⟩
    rw [hframe]
    exact hrd a ha
  refine ⟨?_, ?_, ?_, ?_, ?_, ?_, ?_, ?_⟩
  · intro i val s hmap hu he hwrite hread
    refine Runs.intro (t := s.saSelWrite i.val val) rfl ?_
    rw [saSelWrite_of_mapped hmap, hread]
    refine ⟨?_, hmoved val hu⟩
    rw [← saStaged_wrTyped s i.val val]
    exact sa_saMove_write ((huser s i.val val).trans hu) ((congrArg Sec.error (herror s i.val val)).trans he) hwrite
  · intro i val s hmap hu hwrite hread
    refine Runs.intro (t := s.saSelWrite i.val val) rfl ?_
    rw [saSelWrite_of_mapped hmap, hread]
    simp only [Bool.false_eq_true, if_false]
    rw [saMove_denied ((huser s i.val val).trans hu) hwrite]
    obtain ⟨hcount, hnet⟩ := denied_frame (s.wrTyped (Reg.netSecSaSel i.val) val)
    refine ⟨hcount.trans ?_, hnet.trans ?_⟩
    · rw [State.rd_wrTyped_other _ _ (by simp only [Reg.secDenied, Reg.netSecSaSel]; omega)]
    · rw [(hsel s i.val val).1]
  · intro i val s hmap hu hclear hwrite hread
    refine Runs.intro (t := s.saSelWrite i.val val) rfl ?_
    rw [saSelWrite_of_mapped hmap, hread]
    exact ⟨sa_saMove_clear ((huser s i.val val).trans hu) hclear (.inl hwrite), hmoved val hu⟩
  · intro i val s hmap hclear hwrite hread
    refine Runs.intro (t := s.saSelWrite i.val val) rfl ?_
    have hsa : ∀ k, (s.wrTyped (Reg.netSecSaSel i.val) val).sa i.val k = s.sa i.val k := fun k => by
      rw [(hsel s i.val val).1]; rfl
    rw [saSelWrite_of_mapped hmap, hread, saMove_none hwrite hclear, if_pos rfl, ← hsa]
    exact ⟨rd64_saShow _ _ _, bit_saShow _ _ _, ((hsel s i.val val).trans (onlyRegs_saShow _ _ _))⟩
  · intro i val s hmap hwrite
    refine Runs.intro (t := s.rxscWrite i.val val) rfl ?_
    have hctrl := s.onlyRegs_wrTyped val (Reg.netSecRxscCtrl i.val)
    have hsci : (s.wrTyped (Reg.netSecRxscCtrl i.val) val).rd64 (Reg.netSecRxscSciLo i.val) =
        s.rd64 (Reg.netSecRxscSciLo i.val) :=
      State.rdWords_congr fun b _ hb => State.rd_wrTyped_other _ _ (by
        simp only [Reg.netSecRxscSciLo] at hb; simp only [Reg.netSecRxscCtrl]; omega)
    rw [rxscWrite_of_write hmap hwrite, ← hsci]
    generalize s.wrTyped (Reg.netSecRxscCtrl i.val) val = u at hctrl
    obtain ⟨hself, hrd⟩ := hctrl
    refine ⟨?_, fun k hk => (u.sameBut_setNet _ _ k hk).trans (by rw [hself]; rfl), hrd, by rw [hself]; rfl⟩
    rw [State.netPort_setNet_self, SMap.get_set_self]
  · intro i val s hmap hread
    constructor
    · refine Runs.intro (t := s.saSelWrite i.val val) rfl ?_
      rw [saSelWrite_of_mapped hmap, hread, if_pos rfl, sa_saShow, rd64_saShow]
    · refine Runs.intro (t := s.saSelWrite i.val val) rfl ?_
      rw [saSelWrite_of_mapped hmap, hread, if_pos rfl, sa_saShow, rd64_saShow, bit_saShow]
      exact ⟨rfl, rfl⟩
  · intro i val s hmap hu
    have hu' := (huser s i.val val).trans hu
    have hshown : ∀ k, (s.saSelWrite i.val val).sa i.val (saKey (bit val 28) (fld val 21 16) (fld val 1 0)) = k ↔
        ((s.wrTyped (Reg.netSecSaSel i.val) val).saMove i.val val).sa i.val (saKey (bit val 28) (fld val 21 16) (fld val 1 0)) = k := by
      intro k
      rw [saSelWrite_of_mapped hmap]
      split
      · rw [sa_saShow]
      · rfl
    refine ⟨fun hwrite he => ?_, fun hclear hw => ?_⟩
    · refine Runs.intro (t := s.saSelWrite i.val val) rfl ((hshown _).mpr ?_)
      rw [← saStaged_wrTyped s i.val val]
      exact sa_saMove_write hu' ((congrArg Sec.error (herror s i.val val)).trans he) hwrite
    · refine Runs.intro (t := s.saSelWrite i.val val) rfl ((hshown _).mpr ?_)
      exact sa_saMove_clear hu' hclear (hw.imp id fun he => (congrArg Sec.error (herror s i.val val)).trans he)
  · intro i val s hmap
    have hsame : s.saSelWrite i.val val = s := by
      rw [State.saSelWrite, hmap]
      rfl
    refine ⟨congrArg Host.Outcome.next hsame, congrArg Host.Outcome.next hsame, congrArg Host.Outcome.next hsame,
      congrArg Host.Outcome.next ?_⟩
    rw [State.rxscWrite, hmap]
    rfl

/-! ### The frame that a pipeline takes (R186) -/

/-- Settles O22: the model's definition, case by case. -/
theorem pipelinesTakeRecirculatingFramesFirst : Obligations.PipelinesTakeRecirculatingFramesFirst := by
  refine ⟨?_, ?_, ?_⟩
  · intro p bad s fl fs hrecirc hpass
    refine congrArg Host.Outcome.next ?_
    rw [State.pipelinePass, hrecirc]
    simp only [hpass]
    rfl
  · intro p bad s f fs hrecirc hingress hpass hflow
    refine congrArg Host.Outcome.next ?_
    rw [State.pipelinePass, hrecirc, hingress]
    simp only [hpass, hflow]
    rfl
  · intro p bad s _ hrecirc hfront
    refine congrArg Host.Outcome.next ?_
    rw [State.pipelinePass, hrecirc]
    cases hingress : s.ingress p.val with
    | nil => rfl
    | cons f fs =>
      rw [hingress] at hfront
      have hheld : (s.passes f && !s.flowWaits p.val f) = false := by
        rw [Bool.and_eq_false_iff, Bool.not_eq_false']
        simpa using hfront
      simp only [hheld]
      rfl

/-! ### The BAR2 windows -/

theorem SMap.get_keep {α : Type} (d : Nat → α) (p : Nat → Bool) (m : SMap α) (k : Nat) :
    (m.keep p).get d k = if p k then m.get d k else d k := by
  induction m with
  | nil => simp [SMap.keep, SMap.get]
  | cons e m ih =>
    obtain ⟨k', v⟩ := e
    rw [SMap.keep] at ih ⊢
    by_cases hk : k' = k
    · subst hk
      by_cases hp : p k' = true
      · simp [hp, SMap.get]
      · simp [hp, ih]
    · by_cases hp : p k' = true
      · simp [hp, SMap.get, hk, ih]
      · simp [hp, SMap.get, hk, ih]

/-- A window without its staging image. -/
def State.clearStage (s : State) (w : Nat) : State := { s with win.stage := s.win.stage.keep fun k => k / 16 != w }

theorem stageAt_clearStage (s : State) (w w' : Nat) {i : Nat} (hi : i < 16) :
    (s.clearStage w).stageAt w' i = if w' = w then 0 else s.stageAt w' i := by
  have hkey : (w' * 16 + i) / 16 = w' := by omega
  rw [State.stageAt, State.clearStage, SMap.get_keep, hkey]
  by_cases h : w' = w <;> simp [h, State.stageAt]

theorem clearStage_frame {l : List Nat} {s u : State} (h : OnlyRegs l s u) (w : Nat) :
    RegsBut l s (u.clearStage w) ∧ u.clearStage w = { s with regs := (u.clearStage w).regs, win := (u.clearStage w).win } := by
  obtain ⟨hframe, hrd⟩ := h
  exact ⟨hrd, by rw [hframe]; rfl⟩

theorem winSteer_base (s : State) (w : Nat) (v : Word) :
    s.winSteer w true v = (s.wrTyped (Reg.devWinBase w) v).clearStage w := rfl

/-- Window 1 has TABLE alone in its select register. -/
theorem winSteer_sel0 (s : State) (v : Word) : s.winSteer 0 false v = (s.wrTyped (Reg.devWinSel 0) v).clearStage 0 := rfl

theorem winSteer_sel1 (s : State) (v : Word) :
    s.winSteer 1 false v = (s.wrTyped (Reg.devWinSel 1) (v &&& 0xFF)).clearStage 1 := rfl

theorem stageAt_winStage (s : State) (w i k : Nat) (v : Word) :
    (s.winStage w i v).stageAt w k = if k = i then v else s.stageAt w k := by
  rw [State.stageAt, State.winStage, SMap.get_set]
  simp [State.stageAt]

/-- The image that the last word of an entry completes. -/
theorem staged_winStage_last (s : State) (w : Nat) (v : Word) {n : Nat} (hn : winWords w = n + 1) :
    (s.winStage w n v).staged w = (List.range n).map (s.stageAt w) ++ [v] := by
  rw [State.staged, hn, List.range_succ, List.map_append, List.map_singleton, stageAt_winStage, if_pos rfl]
  congr 1
  refine List.map_congr_left fun k hk => ?_
  rw [stageAt_winStage, if_neg (Nat.ne_of_lt (List.mem_range.mp hk))]

theorem winWrite_of_valid {s : State} (h : s.dev.structValid = true) {off : Nat} (hoff : off % 4 = 0) (w : Nat) (v : Word) :
    s.winWrite w off v =
      if off / 4 % winWords w + 1 = winWords w then
        if w = 0 then (s.winStage w (off / 4 % winWords w) v).chartCommit (s.winEntry 0 off)
        else (s.winStage w (off / 4 % winWords w) v).directCommit (s.winEntry 1 off)
      else s.winStage w (off / 4 % winWords w) v := by
  rw [State.winWrite, h, hoff]
  rfl

/-! #### Window 0: charts (R408) -/

/-- An entry is stored; an armed injection may be consumed. -/
theorem setChart_frame (s : State) (p bank t i : Nat) (ws : List Word) :
    RegsBut [Reg.chkInj] s (s.setChart p bank t i ws) ∧
      s.setChart p bank t i ws = { s with regs := (s.setChart p bank t i ws).regs, cmp := (s.setChart p bank t i ws).cmp } ∧
      ∀ k, (s.setChart p bank t i ws).cmp.chart.get (fun _ => chartBlank) k =
        if k = chartKey p bank t i then ws else s.cmp.chart.get (fun _ => chartBlank) k := by
  have hstored : s.setChart p bank t i ws =
      (({ s with cmp.chart := s.cmp.chart.set (fun _ => chartBlank) (chartKey p bank t i) ws } : State).memWrite 3).memWrite 9 := rfl
  generalize hu : ({ s with cmp.chart := s.cmp.chart.set (fun _ => chartBlank) (chartKey p bank t i) ws } : State) = u at hstored
  obtain ⟨hframe, hrd⟩ := (u.onlyRegs_memWrite 3).comp (State.onlyRegs_memWrite _ 9)
  rw [hstored]
  refine ⟨fun a ha => (hrd a ha).trans (by rw [← hu]; rfl), by rw [hframe, ← hu], fun k => ?_⟩
  rw [hframe, ← hu]
  exact SMap.get_set _ _ _ _ _

/-- Entry (bank, t, i) in each of the pipelines of the list. -/
def State.setCharts (s : State) (l : List Nat) (bank t i : Nat) (ws : List Word) : State :=
  s.each l fun p s => s.setChart p bank t i ws

theorem setCharts_frame (s : State) (l : List Nat) (bank t i : Nat) (ws : List Word) :
    RegsBut [Reg.chkInj] s (s.setCharts l bank t i ws) ∧
      s.setCharts l bank t i ws =
        { s with regs := (s.setCharts l bank t i ws).regs, cmp := (s.setCharts l bank t i ws).cmp } := by
  refine State.each_induct (P := fun u => RegsBut [Reg.chkInj] s u ∧ u = { s with regs := u.regs, cmp := u.cmp })
    ⟨fun _ _ => rfl, rfl⟩ fun p _ u hu => ?_
  obtain ⟨hrd, hframe⟩ := hu
  obtain ⟨hrd', hframe', -⟩ := setChart_frame u p bank t i ws
  exact ⟨fun a ha => (hrd' a ha).trans (hrd a ha), by rw [hframe', hframe]⟩

/-- Written in a pipeline of the list, whatever the others are. -/
theorem chartAt_setCharts (s : State) (l : List Nat) (bank t i : Nat) (ws : List Word) {p : Nat}
    (h : p ∈ l ∨ s.chartAt p bank t i = ws) : (s.setCharts l bank t i ws).chartAt p bank t i = ws := by
  induction l generalizing s with
  | nil => exact h.resolve_left List.not_mem_nil
  | cons q l ih =>
    rw [State.setCharts, State.each]
    refine ih _ ?_
    obtain ⟨-, -, hchart⟩ := setChart_frame s q bank t i ws
    rw [State.chartAt, hchart]
    obtain hmem | hat := h
    · obtain rfl | hmem := List.mem_cons.mp hmem
      · exact .inr (if_pos rfl)
      · exact .inl hmem
    · refine .inr ?_
      split
      · rfl
      · exact hat

theorem chartCommit_of_has {s : State} {i : Nat} (h : s.chartHas (s.winTable 0) i = true) :
    s.chartCommit i =
      s.setCharts ((if s.bit (Reg.devWinSel 0) 31 then List.range 9 else [s.fld (Reg.devWinSel 0) 27 24]).filter fun p => p < 9)
        (s.fld (Reg.devWinSel 0) 16 16) (s.winTable 0) i (s.staged 0) := by
  rw [State.chartCommit, State.chartWrite, h]
  rfl

/-- The last word of a window 0 entry writes the entry in each pipeline that the window selects. -/
theorem chartWindowCommit_writes {s : State} {off : BitVec 26} {val : Word} (hvalid : s.dev.structValid = true)
    (hoff : off.toNat % 64 = 60) (hhas : s.chartHas (s.winTable 0) (s.winEntry 0 off.toNat) = true) {p : Nat} (hp : p < 9)
    (hsel : p ∈ if s.bit (Reg.devWinSel 0) 31 then List.range 9 else [s.fld (Reg.devWinSel 0) 27 24]) :
    Runs (.chartWindowCommit off val) s fun t =>
      t.chartAt p (s.fld (Reg.devWinSel 0) 16 16) (s.winTable 0) (s.winEntry 0 off.toNat) =
        (List.range 15).map (s.stageAt 0) ++ [val] ∧ RegsBut [Reg.chkInj] s t ∧
      t = { s with regs := t.regs, win := t.win, cmp := t.cmp } := by
  have hpos : off.toNat / 4 % winWords 0 = 15 := by
    rw [winWords]
    simp only [if_true]
    omega
  have hcommit : s.winWrite 0 off.toNat val = (s.winStage 0 15 val).chartCommit (s.winEntry 0 off.toNat) := by
    rw [winWrite_of_valid hvalid (by omega), hpos]
    rfl
  have hcharts : s.winWrite 0 off.toNat val = (s.winStage 0 15 val).setCharts
      ((if s.bit (Reg.devWinSel 0) 31 then List.range 9 else [s.fld (Reg.devWinSel 0) 27 24]).filter fun p => p < 9)
      (s.fld (Reg.devWinSel 0) 16 16) (s.winTable 0) (s.winEntry 0 off.toNat) ((List.range 15).map (s.stageAt 0) ++ [val]) := by
    rw [hcommit, chartCommit_of_has (s := s.winStage 0 15 val) hhas, staged_winStage_last s 0 val rfl]
    rfl
  have hin := List.mem_filter (p := fun p => decide (p < 9)).mpr ⟨hsel, decide_eq_true hp⟩
  refine Runs.intro (t := s.winWrite 0 off.toNat val) rfl ?_
  rw [hcharts]
  refine ⟨chartAt_setCharts _ _ _ _ _ _ (.inl hin), ?_⟩
  obtain ⟨hrd, hframe⟩ := setCharts_frame (s.winStage 0 15 val)
    ((if s.bit (Reg.devWinSel 0) 31 then List.range 9 else [s.fld (Reg.devWinSel 0) 27 24]).filter fun p => p < 9)
    (s.fld (Reg.devWinSel 0) 16 16) (s.winTable 0) (s.winEntry 0 off.toNat) ((List.range 15).map (s.stageAt 0) ++ [val])
  exact ⟨hrd, by rw [hframe]; rfl⟩

/-! #### Window 1: direct tables (R409) -/

theorem noteReady_frame (s old : State) :
    (s.noteReady old).sxt.winq = s.sxt.winq ∧ s.noteReady old = { s with sxt := (s.noteReady old).sxt } := by
  refine State.each_induct (P := fun u => u.sxt.winq = s.sxt.winq ∧ u = { s with sxt := u.sxt }) ⟨rfl, rfl⟩ fun k _ u hu => ?_
  obtain ⟨hq, hframe⟩ := hu
  dsimp only
  split
  · exact ⟨hq, by rw [hframe]⟩
  · exact ⟨hq, hframe⟩

theorem sextantCommit_eq {s : State} {off : BitVec 26} (hvalid : s.dev.structValid = true) (hoff : off.toNat % 32 = 28)
    (val : Word) : s.winWrite 1 off.toNat val = (s.winStage 1 7 val).directCommit (s.winEntry 1 off.toNat) := by
  have hpos : off.toNat / 4 % winWords 1 = 7 := by
    rw [winWords]
    simp only [one_ne_zero, if_false]
    omega
  rw [winWrite_of_valid hvalid (by omega), hpos]
  rfl

section
variable {s : State} {i : Nat} (h : s.directHas (s.winTable 1) i = true)
include h

theorem directCommit_of_room (hroom : (s.sxt.winq.filter fun c => c.repair.isNone).length < 256) :
    (s.directCommit i).sxt.winq = s.sxt.winq ++ [⟨7, s.winTable 1, i, s.staged 1, none⟩] ∧
      s.directCommit i = { s with sxt := (s.directCommit i).sxt } := by
  have hcommit : s.directCommit i =
      ({ s with sxt.winq := s.sxt.winq ++ [⟨7, s.winTable 1, i, s.staged 1, none⟩] } : State).noteReady s := by
    rw [State.directCommit, h]
    exact if_neg (Nat.not_le.mpr hroom)
  rw [hcommit]
  obtain ⟨hq, hframe⟩ := noteReady_frame { s with sxt.winq := s.sxt.winq ++ [⟨7, s.winTable 1, i, s.staged 1, none⟩] } s
  exact ⟨hq, hframe⟩

theorem directCommit_of_full (hfull : 256 ≤ (s.sxt.winq.filter fun c => c.repair.isNone).length) :
    s.directCommit i = s.bump (Reg.devWinDrop 1) := by
  rw [State.directCommit, h]
  exact if_pos hfull

end

/-! #### Reads (R407, R410) -/

/-- The words of the image that are captured. -/
theorem winCapture_captured (s : State) (w : Nat) (ws : List Word) {i : Nat} (hi : i < winWords w) :
    (s.winCapture w ws).win.captured.get (fun _ => 0) (w * 16 + i) = ws.getD i 0 := by
  have hall : ∀ (l : List Nat) (u : State), i ∈ l ∨ u.win.captured.get (fun _ => 0) (w * 16 + i) = ws.getD i 0 →
      (u.each l fun k u =>
        { u with win.captured := u.win.captured.set (fun _ => 0) (w * 16 + k) (ws.getD k 0) }).win.captured.get
          (fun _ => 0) (w * 16 + i) = ws.getD i 0 := by
    intro l
    induction l with
    | nil => exact fun u h => h.resolve_left List.not_mem_nil
    | cons k l ih =>
      intro u h
      rw [State.each]
      refine ih _ ?_
      dsimp only
      rw [SMap.get_set]
      by_cases hk : i = k
      · exact .inr (by rw [hk, if_pos rfl])
      · rw [if_neg (by omega)]
        exact h.imp (fun hmem => (List.mem_cons.mp hmem).resolve_left hk) id
  exact hall _ s (.inl (List.mem_range.mpr hi))

theorem winCapture_frame (s : State) (w : Nat) (ws : List Word) : s.winCapture w ws = { s with win := (s.winCapture w ws).win } :=
  State.each_induct (P := fun u => u = { s with win := u.win }) rfl fun k _ u hu => by
    dsimp only
    rw [hu]

theorem winRead_of_shown {s : State} (h : s.dev.structValid = true) {w off : Nat} {ws : List Word} (hoff : off % 4 = 0)
    (hws : s.winShow w (s.winEntry w off) = some ws) :
    s.winRead w off =
      let s1 := if off / 4 % winWords w = 0 then s.winCapture w ws else s
      s1.ret (s1.win.captured.get (fun _ => 0) (w * 16 + off / 4 % winWords w)) := by
  rw [State.winRead, h, hoff]
  simp only [hws]
  rfl

/-- Settles O23. -/
theorem windowsStageCommitAndCaptureEntries : Obligations.WindowsStageCommitAndCaptureEntries := by
  have hwords : ∀ w : Fin 2, 0 < winWords w.val := fun w => by
    unfold winWords
    split <;> decide
  have hother : ∀ (s : State) (a : Nat) (v : Word) (w : Fin 2) {i : Nat}, i < 16 →
      ((s.wrTyped a v).clearStage w.val).stageAt w.val i = 0 ∧
        ((s.wrTyped a v).clearStage w.val).stageAt (1 - w.val) i = s.stageAt (1 - w.val) i := by
    intro s a v w i hi
    rw [stageAt_clearStage _ _ _ hi, stageAt_clearStage _ _ _ hi, if_pos rfl, if_neg (by omega), (s.onlyRegs_wrTyped v a).1]
    exact ⟨rfl, rfl⟩
  refine ⟨?_, ?_, ?_, ?_, ?_, ?_, ?_, ?_, ?_, ?_, ?_, ?_, ?_, ?_⟩
  · intro w val s i hi
    refine Runs.intro (t := s.winSteer w.val true val) rfl ?_
    have hreg := s.onlyRegs_wrTyped val (Reg.devWinBase w.val)
    obtain ⟨hclear, hkept⟩ := hother s _ _ w hi
    rw [winSteer_base]
    refine ⟨?_, hclear, hkept, clearStage_frame hreg w.val⟩
    fin_cases w
    · exact s.fld_wrTyped_rw val (by decide)
    · exact s.fld_wrTyped_rw val (by decide)
  · intro w off val s hvalid hoff hlast
    refine Runs.intro (t := s.winWrite w.val off.toNat val) rfl ?_
    rw [winWrite_of_valid hvalid hoff, if_neg hlast]
    refine ⟨?_, rfl, fun k hk => ?_⟩
    · rw [stageAt_winStage, if_pos rfl]
    · exact SMap.get_set_other _ _ _ _ _ (List.ne_of_not_mem_cons hk)
  · intro off val s hvalid hoff hhas hone hp
    exact chartWindowCommit_writes hvalid hoff hhas hp (by rw [hone]; exact List.mem_singleton_self _)
  · intro off val s p hvalid hoff hhas hall hp
    exact chartWindowCommit_writes hvalid hoff hhas hp (by rw [hall]; exact List.mem_range.mpr hp)
  · intro w off val s hvalid
    have hwrite : ∀ w, s.winWrite w off.toNat val = s := fun w => by
      rw [State.winWrite, hvalid]
      rfl
    have hread : s.winRead w.val off.toNat = s.ret 0 := by
      rw [State.winRead, hvalid]
      rfl
    exact ⟨congrArg Host.Outcome.next (hwrite _), congrArg Host.Outcome.next (hwrite 0), congrArg Host.Outcome.next (hwrite 1),
      congrArg Host.Outcome.next hread⟩
  · intro off val s hvalid hoff hhas hroom
    refine Runs.intro (t := s.winWrite 1 off.toNat val) rfl ?_
    obtain ⟨hq, hframe⟩ := directCommit_of_room (s := s.winStage 1 7 val) hhas hroom
    rw [staged_winStage_last s 1 val rfl] at hq
    rw [sextantCommit_eq hvalid hoff]
    exact ⟨hq, by rw [hframe]; rfl⟩
  · intro off val s hvalid hoff hhas hfull
    refine Runs.intro (t := s.winWrite 1 off.toNat val) rfl ?_
    rw [sextantCommit_eq hvalid hoff, directCommit_of_full (s := s.winStage 1 7 val) hhas hfull]
    exact ⟨State.rd_wr_self _ _ _, fun a ha => State.rd_wr_other _ _ (List.ne_of_not_mem_cons ha), rfl⟩
  · intro w off s ws hvalid hoff hshow
    have hpos : off.toNat / 4 % winWords w.val = 0 := by
      rw [← Nat.mod_mul_right_div_self, hoff]
    have hoff4 : off.toNat % 4 = 0 := by
      rw [← Nat.mod_mul_right_mod _ 4 (winWords w.val), hoff]
    have hread : s.winRead w.val off.toNat = (s.winCapture w.val ws).ret (ws.getD 0 0) := by
      rw [winRead_of_shown hvalid hoff4 hshow, hpos, if_pos rfl]
      exact congrArg (s.winCapture w.val ws).ret (winCapture_captured s w.val ws (hwords w))
    refine Runs.intro (t := s.winRead w.val off.toNat) rfl ?_
    rw [hread]
    refine ⟨rfl, fun i hi => winCapture_captured s w.val ws hi, ?_⟩
    rw [winCapture_frame]
    rfl
  · intro w off s ws hvalid hoff hinner hshow
    refine congrArg Host.Outcome.next ?_
    have hpos : off.toNat / 4 % winWords w.val ≠ 0 := fun hzero => hinner <| by
      rw [Nat.mod_mul, hoff, hzero]
    rw [winRead_of_shown hvalid hoff hshow, if_neg hpos]
    rfl
  · intro val s i hi
    refine Runs.intro (t := s.winSteer 0 false val) rfl ?_
    have hreg := s.onlyRegs_wrTyped val (Reg.devWinSel 0)
    obtain ⟨hclear, hkept⟩ := hother s _ _ 0 hi
    rw [winSteer_sel0]
    exact ⟨s.fld_wrTyped_rw val (by decide), s.fld_wrTyped_rw val (by decide), s.fld_wrTyped_rw val (by decide),
      s.bit_wrTyped_rw val (by decide) (by decide), hclear, hkept, clearStage_frame hreg 0⟩
  · intro val s i hi
    refine Runs.intro (t := s.winSteer 1 false val) rfl ?_
    have hreg := s.onlyRegs_wrTyped (val &&& 0xFF) (Reg.devWinSel 1)
    obtain ⟨hclear, hkept⟩ := hother s _ _ 1 hi
    have htable : fld (val &&& 0xFF) 7 0 = fld val 7 0 := by
      refine fld_congr fun k _ hk => ?_
      rw [BitVec.getLsbD_and]
      interval_cases k <;> simp
    rw [winSteer_sel1]
    exact ⟨(s.fld_wrTyped_rw _ (by decide)).trans htable, hclear, hkept, clearStage_frame hreg 1⟩
  · intro off s hmode hlow hoff
    have hread : s.cntWindow off.toNat =
        ({ s with win.cntHigh := BitVec.ofNat 32 ((s.cntGet (off.toNat / 8)).toNat / 2 ^ 32) } : State).ret
          (BitVec.ofNat 32 (s.cntGet (off.toNat / 8)).toNat) := by
      rw [State.cntWindow, if_neg (not_or.mpr ⟨hmode, by omega⟩), if_pos hlow, Nat.mod_eq_of_lt hoff]
    refine Runs.intro (t := s.cntWindow off.toNat) rfl ?_
    rw [hread]
    exact ⟨rfl, BitVec.eq_of_toNat_eq (by simp [State.ret, Nat.shiftRight_eq_div_pow]), rfl⟩
  · intro off s hmode hhigh
    refine congrArg Host.Outcome.next ?_
    rw [State.cntWindow, if_neg (not_or.mpr ⟨hmode, by omega⟩), if_neg (by omega)]
    rfl
  · intro off s hmode
    refine congrArg Host.Outcome.next ?_
    rw [State.cntWindow, if_pos (.inl hmode)]
    rfl

end Sys2Proof.Machine
end

section
/-!
PROOFS. Long operations (R41, R54): what a write of OP_CTRL does to an operation that is idle or busy, and what its end leaves
in OPSTAT.
-/
namespace Sys2Proof.Machine

open Sys2Proof.Safety

/-! ### The registers of an operation -/

theorem opStat_ne_opCtrl (o : LongOp) : opStat o ≠ opCtrl o := Nat.ne_of_gt (Nat.lt_add_of_pos_right (by decide))

theorem opStat_not_mem_opPartials (o : LongOp) : opStat o ∉ opPartials o := by
  cases o with
  | scan u => simp [opPartials, opStat, opCtrl, Reg.chkScanOpCtrl, Reg.chkScanOpPartial]; omega
  | _ => decide

theorem opLeaf_group (o : LongOp) : opLeaf o / 32 = 20 := by
  cases o with
  | scan u => simp only [opLeaf]; omega
  | _ => rfl

/-- OPSTAT is none of the registers of its event. -/
theorem opStat_not_event (o : LongOp) :
    opStat o ≠ Reg.evtStatus (opLeaf o / 32) ∧ opStat o ≠ Reg.evtStatus (leafBufOverflow / 32) ∧ opStat o ≠ Reg.evtBufDrop ∧
      opStat o ≠ Reg.merEvtLost := by
  rw [opLeaf_group]
  cases o with
  | scan u =>
    simp only [opStat, opCtrl, Reg.chkScanOpCtrl, Reg.evtStatus, Reg.evtBufDrop, Reg.merEvtLost, leafBufOverflow]
    omega
  | _ => decide

/-! ### A write of OP_CTRL (R41) -/

section
variable {s : State} {o : LongOp} {v : Word} {start abort : State → State}

theorem busy_wrTyped_opCtrl : (s.wrTyped (opCtrl o) v).busy o = s.busy o := by
  rw [State.busy, State.bit, State.rd_wrTyped_other _ _ (opStat_ne_opCtrl o)]
  rfl

theorem opCtrlWrite_of_busy_start (hstart : bit v 31 = true) (habort : bit v 30 = false) (hbusy : s.busy o = true) :
    s.opCtrlWrite o v start abort = s.setBit (opCtrl o) 28 true := by
  rw [State.opCtrlWrite, hstart, habort, hbusy]
  rfl

theorem opCtrlWrite_of_idle_start (hstart : bit v 31 = true) (habort : bit v 30 = false) (hbusy : s.busy o = false) :
    s.opCtrlWrite o v start abort = start (s.wrTyped (opCtrl o) v) := by
  have hbusy' := (busy_wrTyped_opCtrl (s := s) (o := o) (v := v)).trans hbusy
  simp [State.opCtrlWrite, hstart, habort, hbusy, hbusy']

theorem opCtrlWrite_of_busy_abort (hstart : bit v 31 = false) (habort : bit v 30 = true) (hbusy : s.busy o = true) :
    s.opCtrlWrite o v start abort = abort (s.wrTyped (opCtrl o) v) := by
  have hbusy' := (busy_wrTyped_opCtrl (s := s) (o := o) (v := v)).trans hbusy
  rw [State.opCtrlWrite, hstart, habort]
  simp only [hbusy']
  rfl

theorem opCtrlWrite_of_idle_abort (hstart : bit v 31 = false) (habort : bit v 30 = true) (hbusy : s.busy o = false) :
    s.opCtrlWrite o v start abort = s.wrTyped (opCtrl o) v := by
  have hbusy' := (busy_wrTyped_opCtrl (s := s) (o := o) (v := v)).trans hbusy
  rw [State.opCtrlWrite, hstart, habort]
  simp only [hbusy']
  rfl

end

/-- Settles O24. -/
theorem startsWhileBusyOnlySetStartIgnored : Obligations.StartsWhileBusyOnlySetStartIgnored := by
  intro val u flash s hstart habort
  have hignored : ∀ {t : State} {o : LongOp} {start abort : State → State}, t.busy o = true →
      t.opCtrlWrite o val start abort = t.setBit (opCtrl o) 28 true := opCtrlWrite_of_busy_start hstart habort
  refine ⟨fun h => congrArg Host.Outcome.next ?_, fun h => congrArg Host.Outcome.next ?_, fun h => congrArg Host.Outcome.next ?_,
    fun h => congrArg Host.Outcome.next ?_, fun h => congrArg Host.Outcome.next ?_, fun h => congrArg Host.Outcome.next ?_,
    fun h => congrArg Host.Outcome.next ?_, fun hperst h => congrArg Host.Outcome.next ?_,
    fun h => congrArg Host.Outcome.next ?_, fun h => congrArg Host.Outcome.next ?_⟩
  · rw [State.auditCtrlWrite, hignored h]
  · rw [State.sweepCtrlWrite, hignored h]
  · rw [State.rehashCtrlWrite, hignored h]
  · rw [State.trieCtrlWrite, hignored h]
  · rw [State.fixCtrlWrite, hignored h]
  · rw [State.scanCtrlWrite, hignored h]
  · rw [State.bistCtrlWrite, hignored h]
  · have hload : (s.flashRead flash).imgCtrlWrite val = (s.flashRead flash).imgCtrl val :=
      if_neg (Bool.eq_false_iff.mp hperst)
    exact hload.trans (hignored (t := s.flashRead flash) h)
  · rw [State.swapCtrlWrite, hstart, Bool.not_true, Bool.and_false]
    exact hignored (t := s.flashRead flash) h
  · rw [if_neg Bool.false_ne_true, State.syncCtrlWrite, hignored h]

/-! ### The end of an operation -/

theorem rd_opEnd_opStat (s : State) (o : LongOp) (e : OpEnd) :
    (s.opEnd o e).rd (opStat o) = opStatEnd (s.rd (opStat o)) e := by
  obtain ⟨h1, h2, h3, h4⟩ := opStat_not_event o
  unfold State.opEnd
  dsimp only
  split
  · rw [State.rd_raise_other _ _ _ _ _ _ h1 h2 h3 h4, State.rd_wr_self]
  · rw [State.rd_wr_self]

theorem threadLists_frame (s : State) : s.threadLists = { s with pool := s.threadLists.pool } := by
  have hlists : ∀ f : Nat → FreeList, s.each (List.range 16) (fun k s => s.setFree k (f k)) =
      { s with pool := (s.each (List.range 16) (fun k s => s.setFree k (f k))).pool } := fun f =>
    State.each_induct (P := fun t => t = { s with pool := t.pool }) rfl fun k _ t h => by
      rw [h]
      rfl
  unfold State.threadLists
  rw [hlists]

/-- Of the registers a BIST touches the commissioning status alone. -/
theorem rd_bistAfter (s : State) (target : Nat) {a : Nat} (ha : a ≠ Reg.devCommStatus) : (s.bistAfter target).rd a = s.rd a := by
  have hpipes : (s.wipeTables.each (List.range 9) fun p s => s.setPipe p {}).rd a = s.rd a :=
    State.each_induct (P := fun t => t.rd a = s.rd a) rfl fun _ _ _ h => h
  have hinit : s.memInit.regs = s.regs := by
    have hlists := congrArg State.regs (threadLists_frame s)
    simpa only [State.memInit, State.wipeReserved] using hlists
  unfold State.bistAfter
  split
  · simp only [State.rd, State.clearKeyStore, State.clearBuffers, hinit]
  · split
    · have hinvalid : ∀ t : State, t.invalidate.rd a = t.rd a := fun _ => rfl
      rw [State.rd_setBit, if_neg ha, hinvalid, hpipes]
    · rfl

/-- Leaving an operation idle moves no register but that one. -/
theorem rd_opIdle (s : State) (o : LongOp) {a : Nat} (ha : a ≠ Reg.devCommStatus) : (s.opIdle o).rd a = s.rd a := by
  cases o with
  | memoryBist =>
    unfold State.opIdle
    dsimp only
    split
    · exact rd_bistAfter _ _ ha
    · rfl
  | _ => rfl

theorem opStat_ne_devCommStatus (o : LongOp) : opStat o ≠ Reg.devCommStatus := by
  cases o with
  | scan u => simp only [opStat, opCtrl, Reg.chkScanOpCtrl, Reg.devCommStatus]; omega
  | _ => decide

/-- An aborted operation: ABORTED with its REASON, PROGRESS as it was. -/
theorem opAbort_stat (s : State) (o : LongOp) :
    (s.opAbort o 1).fld (opStat o) 31 24 = 0x21 ∧ (s.opAbort o 1).progress o = s.progress o := by
  have hstat : (s.opAbort o 1).rd (opStat o) = Machine.setFld (s.rd (opStat o)) 31 24 0x21 := by
    rw [State.opAbort, rd_opEnd_opStat, rd_opIdle _ _ (opStat_ne_devCommStatus o), opStatEnd]
  constructor
  · rw [State.fld, hstat, Machine.fld_setFld_self _ (by decide) (by decide)]
    rfl
  · rw [State.progress, State.fld, hstat, Machine.fld_setFld_other _ (by decide) (by decide)]
    rfl

/-- Settles O25. -/
theorem abortsEndBusyOperations : Obligations.AbortsEndBusyOperations := by
  constructor
  · intro val u s hstart habort
    have hends : ∀ {o : LongOp} (t : State), t.rd (opStat o) = s.rd (opStat o) →
        (t.opAbort o 1).fld (opStat o) 31 24 = 0x21 ∧ (t.opAbort o 1).progress o = s.progress o := fun {o} t ht => by
      obtain ⟨hfld, hprogress⟩ := opAbort_stat t o
      exact ⟨hfld, hprogress.trans (congrArg (fun w => Machine.fld w 23 0) ht)⟩
    have hwritten : ∀ o : LongOp, (s.wrTyped (opCtrl o) val).rd (opStat o) = s.rd (opStat o) := fun o =>
      State.rd_wrTyped_other _ _ (opStat_ne_opCtrl o)
    have hwrite : ∀ {o : LongOp} {start abort : State → State}, s.busy o = true →
        s.opCtrlWrite o val start abort = abort (s.wrTyped (opCtrl o) val) := opCtrlWrite_of_busy_abort hstart habort
    refine ⟨fun h => ⟨_, rfl, ?_⟩, fun h => ⟨_, rfl, ?_⟩, fun h => ⟨_, rfl, ?_⟩, fun h => ⟨_, rfl, ?_⟩, fun h => ⟨_, rfl, ?_⟩,
      fun h => ⟨_, rfl, ?_⟩, fun h => ⟨_, rfl, ?_⟩, fun hperst h => ⟨_, rfl, ?_⟩, fun h => ⟨_, rfl, ?_⟩, fun h => ⟨_, rfl, ?_⟩⟩
    · rw [State.auditCtrlWrite, hwrite h]
      exact hends _ (hwritten _)
    · rw [State.sweepCtrlWrite, hwrite h]
      exact hends _ (hwritten _)
    · rw [State.rehashCtrlWrite, hwrite h]
      exact hends _ (hwritten _)
    · rw [State.trieCtrlWrite, hwrite h]
      exact hends _ (hwritten _)
    · rw [State.fixCtrlWrite, hwrite h]
      exact hends _ (hwritten _)
    · rw [State.scanCtrlWrite, hwrite h]
      exact hends _ (hwritten _)
    · rw [State.bistCtrlWrite, hwrite h]
      exact hends _ (hwritten _)
    · rw [State.imgCtrlWrite, hperst, if_neg Bool.false_ne_true, State.imgCtrl, hwrite h]
      exact hends _ (hwritten _)
    · rw [if_neg Bool.false_ne_true, State.syncCtrlWrite, hwrite h]
      exact hends _ (hwritten _)
    · rw [if_pos rfl, h]
      exact hends s rfl
  · intro val u s hstart habort
    have hwrite : ∀ {o : LongOp} {start abort : State → State}, s.busy o = false →
        OnlyRegs [opCtrl o] s (s.opCtrlWrite o val start abort) := fun h => by
      rw [opCtrlWrite_of_idle_abort hstart habort h]
      exact s.onlyRegs_wrTyped val _
    refine ⟨fun h => ⟨_, rfl, ?_⟩, fun h => ⟨_, rfl, ?_⟩, fun h => ⟨_, rfl, ?_⟩, fun h => ⟨_, rfl, ?_⟩, fun h => ⟨_, rfl, ?_⟩,
      fun h => ⟨_, rfl, ?_⟩, fun h => ⟨_, rfl, ?_⟩, fun h => ⟨_, rfl, ?_⟩, fun h => ⟨⟨_, rfl, ?_⟩, congrArg Host.Outcome.next ?_⟩⟩
    · rw [State.auditCtrlWrite]
      exact hwrite h
    · rw [State.sweepCtrlWrite]
      exact hwrite h
    · rw [State.rehashCtrlWrite]
      exact hwrite h
    · rw [State.trieCtrlWrite]
      exact hwrite h
    · rw [State.fixCtrlWrite]
      exact hwrite h
    · rw [State.scanCtrlWrite]
      exact hwrite h
    · rw [State.bistCtrlWrite]
      exact hwrite h
    · unfold State.imgCtrlWrite
      split
      · exact OnlyRegs.refl _ s
      · rw [State.imgCtrl]
        exact hwrite h
    · rw [if_neg Bool.false_ne_true, State.syncCtrlWrite]
      exact hwrite h
    · rw [if_pos rfl, h]
      rfl

/-! ### The start of an operation (R54) -/

theorem each_wr_zero (s : State) (l : List Nat) :
    OnlyRegs l s (s.each l fun a s => s.wr a 0) ∧ ∀ a, a ∈ l ∨ s.rd a = 0 → (s.each l fun a s => s.wr a 0).rd a = 0 := by
  induction l generalizing s with
  | nil => exact ⟨OnlyRegs.refl _ s, fun _ h => h.resolve_left List.not_mem_nil⟩
  | cons b l ih =>
    obtain ⟨hregs, hzero⟩ := ih (s.wr b 0)
    refine ⟨(onlyRegs_wr s b 0).trans hregs, fun a h => hzero a ?_⟩
    by_cases hab : a = b
    · exact .inr (by rw [State.rd_wr, if_pos hab])
    · rw [State.rd_wr, if_neg hab]
      exact h.imp_left fun hmem => (List.mem_cons.mp hmem).resolve_left hab

/-- An operation begins: BUSY alone, OP_PARTIAL 0. -/
theorem opBegin_frame (s : State) (o : LongOp) :
    (s.opBegin o).rd (opStat o) = 0x80000000 ∧ (∀ a ∈ opPartials o, (s.opBegin o).rd a = 0) ∧
      OnlyRegs (opStat o :: opPartials o) s (s.opBegin o) := by
  obtain ⟨hregs, hzero⟩ := each_wr_zero (s.wr (opStat o) 0x80000000) (opPartials o)
  refine ⟨?_, fun a ha => hzero a (.inl ha), (onlyRegs_wr s _ _).trans hregs⟩
  rw [State.opBegin, hregs.2 _ (opStat_not_mem_opPartials o), State.rd_wr_self]

/-- EVENT_EN of an operation. -/
theorem opCtrl_not_mem (o : LongOp) : opCtrl o ∉ opStat o :: opPartials o := by
  cases o with
  | scan u => simp [opPartials, opStat, opCtrl, Reg.chkScanOpCtrl, Reg.chkScanOpPartial]; omega
  | _ => decide

theorem opEnd_of_quiet {s : State} {o : LongOp} (h : s.bit (opCtrl o) 29 = false) (e : OpEnd) :
    s.opEnd o e = s.wr (opStat o) (opStatEnd (s.rd (opStat o)) e) := by
  rw [State.opEnd, h]
  rfl

/-- Refused without EVENT_EN: OPSTAT has FAIL and the REASON. -/
theorem opRefuse_frame {s : State} {o : LongOp} (h : s.bit (opCtrl o) 29 = false) (reason : Nat) :
    (s.opRefuse o reason).rd (opStat o) = Machine.setFld 0x80000000 31 24 (0x10 + reason % 16) ∧
      (∀ a ∈ opPartials o, (s.opRefuse o reason).rd a = 0) ∧
      OnlyRegs (opStat o :: opPartials o) s (s.opRefuse o reason) := by
  obtain ⟨hstat, hpartials, hregs⟩ := opBegin_frame s o
  have hquiet : (s.opBegin o).bit (opCtrl o) 29 = false := by
    rw [State.bit, hregs.2 _ (opCtrl_not_mem o)]
    exact h
  rw [State.opRefuse, opEnd_of_quiet hquiet, hstat]
  refine ⟨State.rd_wr_self _ _ _, fun a ha => ?_, hregs.wr (List.mem_cons_self ..) _⟩
  have hne : a ≠ opStat o := fun heq => opStat_not_mem_opPartials o (heq ▸ ha)
  rw [State.rd_wr_other _ _ hne, hpartials a ha]

/-! #### What START stores -/

/-- The operations that O26 speaks of. -/
def startedOps (u : Nat) : List LongOp :=
  [.imageLoad, .memoryBist, .rehash, .trieRebuild, .fixCheck, .audit, .sweep, .scan u]

/-- EVENT_EN and the low bits of ARG are RW in their OP_CTRL: decided over the operations and the units. -/
theorem opCtrl_stores : ∀ (u : Fin 8), ∀ o ∈ startedOps u.val,
    (readWrite (opCtrl o)).getLsbD 29 = true ∧ fieldRw (opCtrl o) 1 0 = true := by decide

section
variable {s : State} {u : Fin 8} {o : LongOp} (ho : o ∈ startedOps u.val) (v : Word)
include ho

theorem quiet_wrTyped_opCtrl (hv : bit v 29 = false) : (s.wrTyped (opCtrl o) v).bit (opCtrl o) 29 = false := by
  obtain ⟨hevent, -⟩ := opCtrl_stores u o ho
  rw [State.bit_wrTyped_rw _ _ hevent (by decide), hv]

theorem opArg_wrTyped_opCtrl : (s.wrTyped (opCtrl o) v).opArg o % 4 = fld v 15 0 % 4 := by
  obtain ⟨-, harg⟩ := opCtrl_stores u o ho
  have hlow : ∀ w : Word, fld w 15 0 % 4 = fld w 1 0 := fun w => by
    simp only [Machine.fld]
    omega
  rw [State.opArg, State.fld, hlow, hlow]
  exact s.fld_wrTyped_rw v harg

end

/-- What START stores is OP_CTRL alone. -/
theorem dev_wrTyped (s : State) (a : Nat) (v : Word) : (s.wrTyped a v).dev = s.dev := by
  rw [(s.onlyRegs_wrTyped v a).1]

/-- A START that an idle operation refuses. -/
theorem start_refused {s : State} {o : LongOp} {v : Word} {start abort : State → State} (hstart : bit v 31 = true)
    (habort : bit v 30 = false) (hquiet : (s.wrTyped (opCtrl o) v).bit (opCtrl o) 29 = false) (hbusy : s.busy o = false)
    (hrefuse : start (s.wrTyped (opCtrl o) v) = (s.wrTyped (opCtrl o) v).opRefuse o 3) :
    (s.opCtrlWrite o v start abort).rd (opStat o) = 0x13000000 ∧
      (∀ a ∈ opPartials o, (s.opCtrlWrite o v start abort).rd a = 0) ∧
      RegsBut ([opCtrl o, opStat o] ++ opPartials o) s (s.opCtrlWrite o v start abort) := by
  obtain ⟨hstat, hpartials, hregs⟩ := opRefuse_frame hquiet 3
  rw [opCtrlWrite_of_idle_start hstart habort hbusy, hrefuse]
  exact ⟨hstat, hpartials, ((s.onlyRegs_wrTyped v _).trans hregs).2⟩

/-- A START that begins: OPSTAT and OP_PARTIAL are as the beginning left them. -/
theorem start_begun {s : State} {o : LongOp} {v : Word} {start abort : State → State} (hstart : bit v 31 = true)
    (habort : bit v 30 = false) (hbusy : s.busy o = false)
    (hkept : ∀ a ∈ opStat o :: opPartials o,
      (start (s.wrTyped (opCtrl o) v)).rd a = ((s.wrTyped (opCtrl o) v).opBegin o).rd a) :
    (s.opCtrlWrite o v start abort).rd (opStat o) = 0x80000000 ∧
      ∀ a ∈ opPartials o, (s.opCtrlWrite o v start abort).rd a = 0 := by
  obtain ⟨hstat, hpartials, -⟩ := opBegin_frame (s.wrTyped (opCtrl o) v) o
  rw [opCtrlWrite_of_idle_start hstart habort hbusy]
  exact ⟨(hkept _ (List.mem_cons_self ..)).trans hstat,
    fun a ha => (hkept a (List.mem_cons_of_mem _ ha)).trans (hpartials a ha)⟩

/-! #### Each operation -/

theorem loadStart_of_refused {s : State} (h : opAllowed .imageLoad s.dev.mode 0 0 = false ∨ s.busy .imageSwap = true) :
    s.loadStart = s.opRefuse .imageLoad 3 := by
  rw [State.loadStart]
  exact if_pos (h.imp_left fun hmode => by rw [hmode]; rfl)

/-- A load whose mode, partner and source allow it. -/
theorem loadStart_of_source {s : State} (hmode : opAllowed .imageLoad s.dev.mode 0 0 = true) (hswap : s.busy .imageSwap = false) :
    s.loadStart =
      if s.noSource .imageLoad then s.opRefuse .imageLoad 14
      else if s.srcLen .imageLoad < 32 then s.opRefuse .imageLoad (s.imgReason 8)
      else { s.opBegin .imageLoad with
        dev.load := some { flash := s.opArg .imageLoad % 2 == 1, len := s.srcLen .imageLoad } } := by
  rw [State.loadStart]
  exact if_neg (by simp [hmode, hswap])

/-- A rehash marks the table's status and begins. -/
theorem rd_rehashBegin (s : State) {a : Nat} (h1 : a ≠ Reg.sxtLpmStatus) (h2 : a ≠ Reg.sxtEmStatus) :
    (({ ((((s.opBegin .rehash).setBit (hashStatus s.rehashLpm) 31 false).setBit (hashStatus s.rehashLpm) 30 true).hashSettle
        s.rehashLpm) with sxt.rehash := true } : State).noteReady s).rd a = (s.opBegin .rehash).rd a := by
  have hne : a ≠ hashStatus s.rehashLpm := by
    unfold hashStatus
    split
    · exact h1
    · exact h2
  have hsettle : ∀ (t : State) (lp : Bool), (t.hashSettle lp).rd a = t.rd a := fun t lp => by
    cases lp <;> rfl
  rw [(noteReady_frame _ _).2]
  refine (hsettle _ _).trans ?_
  rw [State.rd_setBit, if_neg hne, State.rd_setBit, if_neg hne]

/-- A rebuild of one root under the full carve. -/
theorem trieStart_of_one {s : State} (hmode : opAllowed .trieRebuild s.dev.mode 0 0 = true)
    (hfull : s.dev.body.carve.full = true) (hone : s.opArg .trieRebuild / 2 ^ 15 % 2 ≠ 1) :
    s.trieStart = { s.opBegin .trieRebuild with
      sxt.trie := some [(s.opArg .trieRebuild % 4096, s.opArg .trieRebuild / 2 ^ 14 % 2)] } := by
  have hall : ¬(s.opArg .trieRebuild / 2 ^ 15 % 2 = 1 ∧ s.opArg .trieRebuild / 2 ^ 13 % 2 = 0) := fun h => hone h.1
  simp only [State.trieStart, hmode, hfull, if_neg hall]
  rfl

/-- Registers of unit `u` that the start of its scan may touch besides its operation's. -/
def unitStartRegs (u : Nat) : List Nat :=
  [Reg.chkUnitStatus u, Reg.chkUnitRunningLo u, Reg.chkUnitRunningLo u + 4, Reg.chkUnitBytesLo u, Reg.chkUnitBytesLo u + 4]

/-- A scan's unit before the range is judged: WRITE_IGNORED clear, INIT loaded where ARG says so. -/
def State.scanReady (s : State) (u : Nat) : State :=
  if s.opArg (.scan u) / 4 % 2 = 1 then ((s.opBegin (.scan u)).setFld (Reg.chkUnitStatus u) 1 0 0).unitLoad u
  else (s.opBegin (.scan u)).setFld (Reg.chkUnitStatus u) 1 0 0

theorem rd_scanReady (s : State) (u : Nat) {a : Nat} (ha : a ∉ unitStartRegs u) :
    (s.scanReady u).rd a = (s.opBegin (.scan u)).rd a := by
  obtain ⟨h1, h2, h3, h4, h5, -⟩ : a ≠ Reg.chkUnitStatus u ∧ a ≠ Reg.chkUnitRunningLo u ∧ a ≠ Reg.chkUnitRunningLo u + 4 ∧
      a ≠ Reg.chkUnitBytesLo u ∧ a ≠ Reg.chkUnitBytesLo u + 4 ∧ True := by
    simpa only [unitStartRegs, List.mem_cons, List.not_mem_nil, not_or, not_false_iff] using ha
  unfold State.scanReady
  split
  · rw [State.unitLoad, (onlyRegs_wr64 _ _ _).2 a (by simp [h4, h5]), (onlyRegs_wr64 _ _ _).2 a (by simp [h2, h3]),
      State.rd_setFld, if_neg h1]
  · rw [State.rd_setFld, if_neg h1]

theorem scanStart_of_range {s : State} {u : Nat} (hmode : opAllowed (.scan u) s.dev.mode (s.opArg (.scan u) % 4) 0 = true)
    (hlen : 0 < s.rd64 (Reg.chkScanLenLo u))
    (hrange : s.rd64 (Reg.chkScanAddrLo u) + s.rd64 (Reg.chkScanLenLo u) ≤ scanSize (s.opArg (.scan u) % 4)) (a : Nat) :
    (s.scanStart u).rd a = (s.scanReady u).rd a := by
  have haddr : (s.scanReady u).rd64 (Reg.chkScanAddrLo u) = s.rd64 (Reg.chkScanAddrLo u) := by
    refine State.rdWords_congr fun b hb hb' => ?_
    obtain ⟨-, hregs⟩ := (opBegin_frame s (.scan u)).2.2
    simp only [Reg.chkScanAddrLo] at hb hb'
    rw [rd_scanReady _ _ (by simp [unitStartRegs, Reg.chkUnitStatus, Reg.chkUnitRunningLo, Reg.chkUnitBytesLo]; omega),
      hregs b (by simp [opStat, opCtrl, opPartials, Reg.chkScanOpCtrl, Reg.chkScanOpPartial]; omega)]
  have hfits : ¬(s.scanReady u).rd64 (Reg.chkScanAddrLo u) + s.rd64 (Reg.chkScanLenLo u) > scanSize (s.opArg (.scan u) % 4) := by
    rw [haddr]
    exact Nat.not_lt.mpr hrange
  have hstart : s.scanStart u =
      if !opAllowed (.scan u) s.dev.mode (s.opArg (.scan u) % 4) 0 then s.opRefuse (.scan u) 3
      else if s.rd64 (Reg.chkScanLenLo u) = 0 then (s.scanReady u).opEnd (.scan u) .done
      else if (s.scanReady u).rd64 (Reg.chkScanAddrLo u) + s.rd64 (Reg.chkScanLenLo u) > scanSize (s.opArg (.scan u) % 4) then
        (s.scanReady u).opEnd (.scan u) (.failed 9)
      else { s.scanReady u with
        chk.scan := (s.scanReady u).chk.scan.set (fun _ => none) u
          (some (s.opArg (.scan u) % 4, s.opArg (.scan u) / 8 % 2 == 1)) } := rfl
  rw [hstart, hmode, if_neg (by decide), if_neg (Nat.ne_of_gt hlen), if_neg hfits]
  rfl

/-- START of an image load that is idle, while PERST_N is high. -/
theorem imageLoad_starts {val : Word} {s : State} (hstart : bit val 31 = true) (habort : bit val 30 = false)
    (hquiet : bit val 29 = false) (hperst : s.dev.perstLow = false) (hb : s.busy .imageLoad = false) (flash : Option Nat) :
    (opAllowed .imageLoad s.dev.mode 0 0 = false ∨ s.busy .imageSwap = true →
      Runs (.imageLoadStart val flash) s fun t =>
        t.rd (opStat .imageLoad) = 0x13000000 ∧ (∀ a ∈ opPartials .imageLoad, t.rd a = 0) ∧ t.dev.load = s.dev.load ∧
          RegsBut ([opCtrl .imageLoad, opStat .imageLoad] ++ opPartials .imageLoad) s t) ∧
    (opAllowed .imageLoad s.dev.mode 0 0 = true → s.busy .imageSwap = false → fld val 15 0 % 2 = 0 →
      32 ≤ s.fld Reg.devImgLen 26 0 →
      Runs (.imageLoadStart val flash) s fun t =>
        t.rd (opStat .imageLoad) = 0x80000000 ∧ (∀ a ∈ opPartials .imageLoad, t.rd a = 0) ∧
          t.dev.load = some { flash := false, len := s.fld Reg.devImgLen 26 0 } ∧
          RegsBut ([opCtrl .imageLoad, opStat .imageLoad] ++ opPartials .imageLoad) s t) ∧
    (opAllowed .imageLoad s.dev.mode 0 0 = true → s.busy .imageSwap = false → fld val 15 0 % 2 = 1 → flash = none →
      Runs (.imageLoadStart val flash) s fun t => t.rd (opStat .imageLoad) = 0x1E000000) ∧
    (opAllowed .imageLoad s.dev.mode 0 0 = true → s.busy .imageSwap = false → fld val 15 0 % 2 = 1 → s.dev.binAlive = true →
      32 ≤ flash.getD 0 →
      Runs (.imageLoadStart val flash) s fun t =>
        t.rd (opStat .imageLoad) = 0x80000000 ∧ t.dev.load = some { flash := true, len := flash.getD 0 }) := by
  have ho : LongOp.imageLoad ∈ startedOps (0 : Fin 8).val := by simp [startedOps]
  have harg4 := opArg_wrTyped_opCtrl (s := s.flashRead flash) ho val
  have hq := quiet_wrTyped_opCtrl (s := s.flashRead flash) ho val hquiet
  have hdev := dev_wrTyped (s.flashRead flash) (opCtrl .imageLoad) val
  have hswap : ((s.flashRead flash).wrTyped (opCtrl .imageLoad) val).busy .imageSwap = s.busy .imageSwap := by
    rw [State.busy, State.bit, State.rd_wrTyped_other _ _ (by decide)]
    rfl
  have hlen : ((s.flashRead flash).wrTyped (opCtrl .imageLoad) val).fld Reg.devImgLen 26 0 = s.fld Reg.devImgLen 26 0 := by
    rw [State.fld, State.rd_wrTyped_other _ _ (by decide)]
    rfl
  have hregs : OnlyRegs [opCtrl .imageLoad] (s.flashRead flash) ((s.flashRead flash).wrTyped (opCtrl .imageLoad) val) :=
    State.onlyRegs_wrTyped _ _ _
  have hwrite : (s.flashRead flash).imgCtrlWrite val = ((s.flashRead flash).wrTyped (opCtrl .imageLoad) val).loadStart := by
    rw [State.imgCtrlWrite, if_neg (c := (s.flashRead flash).dev.perstLow = true) (Bool.eq_false_iff.mp hperst), State.imgCtrl]
    exact opCtrlWrite_of_idle_start hstart habort hb
  have hruns : ∀ {P : State → Prop}, P ((s.flashRead flash).wrTyped (opCtrl .imageLoad) val).loadStart →
      Runs (.imageLoadStart val flash) s P := fun h => Runs.intro (t := (s.flashRead flash).imgCtrlWrite val) rfl (hwrite ▸ h)
  generalize (s.flashRead flash).wrTyped (opCtrl .imageLoad) val = u at harg4 hq hdev hswap hlen hregs hruns
  have harg : u.opArg .imageLoad % 2 = fld val 15 0 % 2 := by omega
  obtain ⟨hstat, hpartials, hbegun⟩ := opBegin_frame u .imageLoad
  have hothers : ∀ {t : State}, OnlyRegs (opStat .imageLoad :: opPartials .imageLoad) u t →
      RegsBut ([opCtrl .imageLoad, opStat .imageLoad] ++ opPartials .imageLoad) s t := fun h => (hregs.trans h).2
  refine ⟨fun hno => hruns ?_, fun hmode hsw heven hlong => hruns ?_, fun hmode hsw hodd hnone => hruns ?_,
    fun hmode hsw hodd halive hlong => hruns ?_⟩
  · obtain ⟨hfail, hzero, hself⟩ := opRefuse_frame hq 3
    have hload : (u.opRefuse .imageLoad 3).dev.load = s.dev.load := by rw [hself.1, hdev]; rfl
    rw [loadStart_of_refused (by rw [hdev, hswap]; exact hno)]
    exact ⟨hfail, hzero, hload, hothers hself⟩
  · have hsource : u.noSource .imageLoad = false := by
      rw [State.noSource, harg, heven]
      rfl
    have hsrc : u.srcLen .imageLoad = s.fld Reg.devImgLen 26 0 := by
      rw [State.srcLen, harg, heven, hlen]
      rfl
    rw [loadStart_of_source (by rw [hdev]; exact hmode) (by rw [hswap]; exact hsw), hsource, hsrc, if_neg (by decide),
      if_neg (Nat.not_lt.mpr hlong), harg, heven]
    exact ⟨hstat, hpartials, rfl, (hregs.trans hbegun).2⟩
  · have hsource : u.noSource .imageLoad = true := by
      rw [State.noSource, harg, hodd, hdev, hnone]
      rfl
    obtain ⟨hfail, -, -⟩ := opRefuse_frame hq 14
    rw [loadStart_of_source (by rw [hdev]; exact hmode) (by rw [hswap]; exact hsw), hsource, if_pos rfl]
    exact hfail
  · have hsource : u.noSource .imageLoad = false := by
      have hsome : flash.isNone = false := by
        cases flash with
        | none => exact absurd hlong (by decide)
        | some n => rfl
      have halive' : (s.flashRead flash).dev.binAlive = true := halive
      rw [State.noSource, harg, hodd, hdev, halive']
      exact (congrArg (fun b => true && (b || !true)) hsome)
    have hsrc : u.srcLen .imageLoad = flash.getD 0 := by
      rw [State.srcLen, harg, hodd, hdev]
      rfl
    rw [loadStart_of_source (by rw [hdev]; exact hmode) (by rw [hswap]; exact hsw), hsource, hsrc, if_neg (by decide),
      if_neg (Nat.not_lt.mpr hlong), harg, hodd]
    exact ⟨hstat, rfl⟩

/-- Settles O26. -/
theorem startsBeginOrAreRefusedByMode : Obligations.StartsBeginOrAreRefusedByMode := by
  refine ⟨?_, ?_, ?_, ?_⟩
  · intro val u s hstart habort hquiet
    have hq : ∀ {o : LongOp}, o ∈ startedOps u.val → (s.wrTyped (opCtrl o) val).bit (opCtrl o) 29 = false :=
      fun ho => quiet_wrTyped_opCtrl ho val hquiet
    have hdev : ∀ a, (s.wrTyped a val).dev = s.dev := fun a => dev_wrTyped s a val
    refine ⟨fun hb h => ⟨_, rfl, ?_⟩, fun hb h => ⟨_, rfl, ?_⟩, fun hb h => ⟨_, rfl, ?_⟩, fun hb h => ⟨_, rfl, ?_⟩,
      fun hb h => ⟨_, rfl, ?_⟩, fun hb h => ⟨_, rfl, ?_⟩, fun hb h => ⟨_, rfl, ?_⟩⟩
    · refine start_refused hstart habort (hq (by simp [startedOps])) hb ?_
      rw [State.auditStart, hdev, h]
      rfl
    · refine start_refused hstart habort (hq (by simp [startedOps])) hb ?_
      rw [State.sweepStart, hdev, h]
      rfl
    · refine start_refused hstart habort (hq (by simp [startedOps])) hb ?_
      rw [State.rehashStart, hdev, h]
      rfl
    · refine start_refused hstart habort (hq (by simp [startedOps])) hb ?_
      rw [State.trieStart, hdev, h]
      rfl
    · refine start_refused hstart habort (hq (by simp [startedOps])) hb ?_
      rw [State.fixStart, hdev, h]
      rfl
    · have ho : LongOp.scan u.val ∈ startedOps u.val := by simp [startedOps]
      refine start_refused hstart habort (hq ho) hb ?_
      rw [State.scanStart, hdev, opArg_wrTyped_opCtrl ho, h]
      rfl
    · have ho : LongOp.memoryBist ∈ startedOps u.val := by simp [startedOps]
      refine start_refused hstart habort (hq ho) hb ?_
      rw [State.bistStart, hdev, opArg_wrTyped_opCtrl ho, h]
      rfl
  · intro val u s hstart habort hquiet hlen hrange hone
    have hdev : ∀ a, (s.wrTyped a val).dev = s.dev := fun a => dev_wrTyped s a val
    refine ⟨fun hb h => ⟨_, rfl, ?_⟩, fun hb h => ⟨_, rfl, ?_⟩, fun hb h => ⟨_, rfl, ?_⟩, fun hfull hb h => ⟨_, rfl, ?_⟩,
      fun hb h => ⟨_, rfl, ?_⟩, fun hb h => ⟨_, rfl, ?_⟩, fun hb h => ⟨_, rfl, ?_⟩⟩
    · obtain ⟨hstat, hpartials, -⟩ := opBegin_frame (s.wrTyped (opCtrl .audit) val) .audit
      have hbegin : ∀ a, a ≠ Reg.poolAuditResult → a ≠ Reg.poolAuditOpPartial 2 →
          (s.auditCtrlWrite val).rd a = ((s.wrTyped (opCtrl .audit) val).opBegin .audit).rd a := fun a h1 h2 => by
        rw [State.auditCtrlWrite, opCtrlWrite_of_idle_start hstart habort hb, State.auditStart, hdev, h]
        exact (State.rd_wrNat _ _ _ _).trans ((if_neg h2).trans (State.rd_wr_other _ _ h1))
      refine ⟨(hbegin _ (by decide) (by decide)).trans hstat, fun a ha h2 => (hbegin a ?_ h2).trans (hpartials a ha)⟩
      rintro rfl
      exact absurd ha (by decide)
    · refine start_begun hstart habort hb fun a _ => ?_
      rw [State.sweepStart, hdev, h]
      rfl
    · refine start_begun hstart habort hb fun a ha => ?_
      have hnone : a ≠ Reg.sxtLpmStatus ∧ a ≠ Reg.sxtEmStatus := by
        constructor <;> rintro rfl <;> exact absurd ha (by decide)
      rw [State.rehashStart, hdev, h]
      exact rd_rehashBegin _ hnone.1 hnone.2
    · have hone' : ((s.wrTyped (opCtrl .trieRebuild) val).opArg .trieRebuild) / 2 ^ 15 % 2 ≠ 1 := by
        have harg : (s.wrTyped (opCtrl .trieRebuild) val).opArg .trieRebuild = fld val 15 0 := s.fld_wrTyped_rw val (by decide)
        rw [harg]
        simp only [Machine.fld] at hone ⊢
        omega
      refine start_begun hstart habort hb fun a _ => ?_
      rw [trieStart_of_one (by rw [hdev]; exact h) (by rw [hdev]; exact hfull) hone']
      rfl
    · refine start_begun hstart habort hb fun a _ => ?_
      rw [State.fixStart, hdev, h]
      rfl
    · have ho : LongOp.scan u.val ∈ startedOps u.val := by simp [startedOps]
      have harg := opArg_wrTyped_opCtrl (s := s) ho val
      have hrd : ∀ lo, opCtrl (.scan u.val) + 4 ≤ lo → (s.wrTyped (opCtrl (.scan u.val)) val).rd64 lo = s.rd64 lo := fun lo hlo =>
        State.rdWords_congr fun b hb _ => State.rd_wrTyped_other _ _ (by omega)
      have hlenLo := hrd (Reg.chkScanLenLo u.val) (by simp only [opCtrl, Reg.chkScanOpCtrl, Reg.chkScanLenLo]; omega)
      have haddrLo := hrd (Reg.chkScanAddrLo u.val) (by simp only [opCtrl, Reg.chkScanOpCtrl, Reg.chkScanAddrLo]; omega)
      refine start_begun hstart habort hb fun a ha => ?_
      rw [scanStart_of_range (by rw [hdev, harg]; exact h) (by rw [hlenLo]; exact hlen)
        (by rw [haddrLo, hlenLo, harg]; exact hrange)]
      refine rd_scanReady _ _ fun hin => ?_
      simp only [opStat, opCtrl, opPartials, List.mem_cons, List.not_mem_nil, or_false, Reg.chkScanOpCtrl,
        Reg.chkScanOpPartial] at ha
      simp only [unitStartRegs, List.mem_cons, List.not_mem_nil, or_false, Reg.chkUnitStatus, Reg.chkUnitRunningLo,
        Reg.chkUnitBytesLo] at hin
      omega
    · have ho : LongOp.memoryBist ∈ startedOps u.val := by simp [startedOps]
      refine start_begun hstart habort hb fun a _ => ?_
      rw [State.bistStart, hdev, opArg_wrTyped_opCtrl ho, h]
      rfl
  · intro val flash s hstart habort hquiet hperst hb
    exact imageLoad_starts hstart habort hquiet hperst hb flash
  · intro val flash s hperst
    have hheld : ∀ t : State, t.dev.perstLow = true → t.imgCtrlWrite val = t := fun t ht => if_pos ht
    exact ⟨congrArg Host.Outcome.next (hheld (s.flashRead flash) hperst), congrArg Host.Outcome.next (hheld s hperst)⟩

end Sys2Proof.Machine
end

section
/-!
PROOFS. The cell pool (chapter 11): writers and lists (R233, R234), list caches (R232), audit and sweep (R236 to R238).
-/
namespace Sys2Proof.Machine

open Sys2Proof.Safety

/-! ### The last cell of the pool (R233, R234) -/

/-- The pool holds one cell, in list 0; writers 0 and 1 both ask for it, the turn is writer 1's, and writer 0 has chained a
cell of list 1. -/
def lastCell : State :=
  { State.reset with
    pool := { lists := [(0, { cache := [⟨0, 1⟩], turn := 1 })], writers := [(0, { chain := [1] })] } }

/-- Writer 1 has it. -/
def lastCellTaken : State :=
  ({ lastCell with drawn := lastCell.drawn + 1 }.setFree 0 { cache := [], turn := 2 }).setWriter 1 { last := 0, chain := [0] }

/-- A list whose cache holds one cell yields that cell, whatever free value is drawn. -/
theorem popList_single (s : State) (k a : Nat) (h : (s.freeList k).cache = [⟨a, 1⟩]) :
    s.popList k = (16 * a + k, s.draw.2.setFree k { s.freeList k with cache := [] }) := by
  have hfull : runsLen (s.freeList k).cache ≠ 0 := by
    rw [h]
    exact Nat.one_ne_zero
  rw [State.popList, if_neg hfull, h]
  simp [runsLen, Nat.mod_one, runsTurn, runsSplit, runsHead, State.draw]

theorem serveList_nil (s : State) (k : Nat) : s.serveList [] k = s := by
  have hnone : ∀ turn, winner turn [] = none := fun turn => List.find?_eq_none.mpr fun _ _ => by simp
  rw [State.serveList, hnone]

theorem serveList_lastCell : lastCell.serveList [0, 1] 0 = lastCellTaken := by
  have hwinner : winner (lastCell.freeList 0).turn [0, 1] = some 1 := by decide
  rw [State.serveList, hwinner, popList_single lastCell 0 0 rfl]
  rfl

theorem each_of_fixed (s : State) (l : List Nat) (f : Nat → State → State) (h : ∀ i ∈ l, f i s = s) : s.each l f = s := by
  induction l with
  | nil => rfl
  | cons i l ih =>
    rw [State.each, h i (List.mem_cons_self ..)]
    exact ih fun k hk => h k (List.mem_cons_of_mem i hk)

/-- Who asks which list. -/
theorem asks_lastCell : ∀ k : Fin 16,
    ([0, 1].filter fun w => lastCell.wants w == some k.val) = if k.val = 0 then [0, 1] else [] := by decide

theorem serve_lastCell :
    lastCell.each (List.range 16) (fun k s => s.serveList ([0, 1].filter fun w => lastCell.wants w == some k) k) = lastCellTaken := by
  have hrest : lastCellTaken.each ((List.range 15).map (· + 1))
      (fun k s => s.serveList ([0, 1].filter fun w => lastCell.wants w == some k) k) = lastCellTaken :=
    each_of_fixed _ _ _ fun k hk => by
      obtain ⟨j, hj, rfl⟩ := List.mem_map.mp hk
      have hnone := asks_lastCell ⟨j + 1, Nat.succ_lt_succ (List.mem_range.mp hj)⟩
      rw [if_neg (Nat.succ_ne_zero j)] at hnone
      rw [hnone, serveList_nil]
  have hfirst : ([0, 1].filter fun w => lastCell.wants w == some 0) = [0, 1] := asks_lastCell 0
  rw [List.range_succ_eq_map, State.each, hfirst, serveList_lastCell]
  exact hrest

/-- With the pool empty then, writer 0 abandons its frame, and its cell goes back to list 1. -/
theorem popClock_lastCell : lastCell.popClock [0, 1] = ({ lastCellTaken with pool.asking := [] } : State).abandon 0 := by
  have hempty : lastCellTaken.freeTotal = 0 := by decide
  have hleft : ([0, 1] ++ lastCell.pool.asking.filter fun w => !([0, 1] : List Nat).contains w) = [0, 1] := rfl
  have hwon : ((List.range 16).filterMap fun k =>
      winner (lastCell.freeList k).turn ([0, 1].filter fun w => lastCell.wants w == some k)) = [1] := by decide
  rw [State.popClock]
  simp only [hleft, hwon, serve_lastCell, hempty, if_true]
  rfl

theorem freeList_lastCell : (lastCell.popClock [0, 1]).freeList 1 = { cache := [⟨0, 1⟩] } := by
  rw [popClock_lastCell]
  decide

/-- Refutes O27: with one cell left, the writer that is not served abandons its frame in the same clock, and its cells go
back to lists of their own, not to the list that served. -/
theorem not_cellsMoveBetweenListsWritersAndReaders : ¬ Obligations.CellsMoveBetweenListsWritersAndReaders := by
  rintro ⟨-, htwo, -⟩
  obtain ⟨t, ht, -, -, -, hlists, -⟩ := htwo 3 lastCell 0 1 0 (by decide) rfl (by decide) (by decide) (by decide)
  have hwriters : (List.range writers).filter (fun i => (3 : BitVec 14).getLsbD i) = [0, 1] := by decide
  have hclock : exec (.cellPop 3) lastCell = .next (lastCell.popClock [0, 1]) := by
    rw [← hwriters]
    rfl
  rw [hclock] at ht
  cases ht
  have hsame := hlists 1 (by decide)
  rw [freeList_lastCell] at hsame
  exact absurd hsame (by decide)

/-! ### Runs of cells -/

theorem runsLen_append (a b : List Run) : runsLen (a ++ b) = runsLen a + runsLen b := by
  induction a with
  | nil => simp [runsLen]
  | cons r a ih => simp [runsLen, ih, Nat.add_assoc]

theorem runsLen_runsSplit (n : Nat) (rs : List Run) :
    runsLen (runsSplit n rs).1 = min n (runsLen rs) ∧ runsLen (runsSplit n rs).1 + runsLen (runsSplit n rs).2 = runsLen rs := by
  induction rs generalizing n with
  | nil => simp [runsSplit, runsLen]
  | cons r rs ih =>
    obtain ⟨hfirst, hboth⟩ := ih (n - r.count)
    rw [runsSplit]
    split
    · simp [runsLen]
      omega
    · split
      · simp only [runsLen]
        omega
      · simp only [runsLen]
        omega

theorem runsLen_runsTurn (i : Nat) (rs : List Run) : runsLen (runsTurn i rs) = runsLen rs := by
  obtain ⟨-, hboth⟩ := runsLen_runsSplit i rs
  rw [runsTurn, runsLen_append]
  omega

/-! ### Free lists (R232) -/

theorem freeList_setFree (s : State) (k j : Nat) (x : FreeList) :
    (s.setFree k x).freeList j = if j = k then x else s.freeList j := SMap.get_set _ _ _ _ _

theorem sameBut_freeList_setFree (s : State) (k : Nat) (x : FreeList) : SameBut State.freeList [k] s (s.setFree k x) :=
  fun j hj => by rw [freeList_setFree, if_neg (List.ne_of_not_mem_cons hj)]

/-- The head carrier leaves the HBM part whole. -/
theorem takeCarrier_cells (x : FreeList) :
    runsLen x.takeCarrier.1 + x.takeCarrier.2.hbm = x.hbm ∧ x.takeCarrier.2.cache = x.cache := by
  unfold FreeList.takeCarrier
  split
  · refine ⟨?_, rfl⟩
    simp only [FreeList.hbm, runsLen]
    omega
  · split
    · next hfresh c cs hcarriers =>
      refine ⟨?_, rfl⟩
      simp only [FreeList.hbm, hcarriers, List.map_cons, List.sum_cons]
      omega
    · exact ⟨Nat.zero_add _, rfl⟩

/-- A slot without damage reads clean. -/
theorem hbmRead_of_clean {s : State} {p : Nat} (h : s.damageOf p = 0) (kind : Nat) : s.hbmRead kind p = (true, s) := by
  rw [State.hbmRead, h]
  rfl

/-- A slot just damaged beyond correction reads uncorrectable. -/
theorem hbmRead_of_damaged (s : State) (kind p : Nat) :
    (s.hbmDamaged [(p, correctable + 1)]).hbmRead kind p =
      (false, (s.hbmDamaged [(p, correctable + 1)]).memoryError kind true 0 (Config.hbmInstance p) (BitVec.ofNat 64 p)) := by
  have hdamage : (s.hbmDamaged [(p, correctable + 1)]).damageOf p = correctable + 1 := by
    exact SMap.get_set_self (fun _ => 0) s.chk.damage p (correctable + 1)
  rw [State.hbmRead, hdamage]
  rfl

/-! ### Error reports (R347) -/

/-- `t` is `s` but for what an error report may change: registers, the event machinery, the error log, the memory error flag. -/
def State.Noted (s t : State) : Prop :=
  t = { s with regs := t.regs, obs := t.obs, rhb := { s.rhb with groups := t.rhb.groups }, out := t.out,
               chk := { s.chk with log := t.chk.log }, lht := { s.lht with memErr := t.lht.memErr } }

theorem State.Noted.trans {s t u : State} (h : s.Noted t) (h' : t.Noted u) : s.Noted u := by
  rw [State.Noted] at h h' ⊢
  rw [h', h]

theorem State.EventOnly.noted {s t : State} (h : s.EventOnly t) : s.Noted t := by
  rw [State.EventOnly] at h
  rw [State.Noted, h]

theorem State.noted_raise (s : State) (leaf inst : Nat) (w1 w2 w3 : Word) : s.Noted (s.raise leaf inst w1 w2 w3) :=
  (s.raise_frame leaf inst w1 w2 w3).noted

/-- An error is counted at `a` and logged, or counted as dropped with its event when the log is full. -/
def State.errLogged (s : State) (a : Nat) (r : ErrRec) : State :=
  if (s.bump a).chk.log.length < errLogMax then { s.bump a with chk.log := (s.bump a).chk.log ++ [r] }
  else ((s.bump a).bump Reg.chkErrDrop).event (leafOf 16 2) 0

theorem State.noted_errLogged (s : State) (a : Nat) (r : ErrRec) : s.Noted (s.errLogged a r) := by
  unfold State.errLogged
  split
  · rfl
  · have hbumps : s.Noted ((s.bump a).bump Reg.chkErrDrop) := rfl
    exact hbumps.trans (State.noted_raise _ _ _ _ _ _)

/-- The record of an error (Table 17.4). -/
def State.errRecord (s : State) (kind : Nat) (uncorr : Bool) (n macroNo : Nat) (addr : BitVec 64) : ErrRec :=
  ⟨errHdr kind uncorr n macroNo, BitVec.ofNat 32 addr.toNat, BitVec.ofNat 32 (addr.toNat / 2 ^ 32), ns32Of (s.viewTime 0 s.raw)⟩

theorem State.reportError_eq (s : State) (kind : Nat) (uncorr : Bool) (n macroNo : Nat) (addr : BitVec 64) :
    s.reportError kind uncorr n macroNo addr =
      (s.errLogged (if uncorr then Reg.chkMemUncorr kind else Reg.chkMemCorr kind) (s.errRecord kind uncorr n macroNo addr)).raise
        (leafOf 16 (if uncorr then 1 else 0)) 0 (errHdr kind uncorr n macroNo) (BitVec.ofNat 32 addr.toNat)
        (BitVec.ofNat 32 (addr.toNat / 2 ^ 32)) := rfl

theorem State.noted_reportError (s : State) (kind : Nat) (uncorr : Bool) (n macroNo : Nat) (addr : BitVec 64) :
    s.Noted (s.reportError kind uncorr n macroNo addr) := by
  rw [State.reportError_eq]
  exact (s.noted_errLogged _ _).trans (State.noted_raise _ _ _ _ _ _)

/-- A KIND without an effect of its own: neither counter memory (5) nor structure memory (7). -/
theorem State.memoryError_eq (s : State) {kind : Nat} (h5 : kind ≠ 5) (h7 : kind ≠ 7) (uncorr : Bool) (n macroNo : Nat)
    (addr : BitVec 64) :
    s.memoryError kind uncorr n macroNo addr =
      if uncorr then { s.reportError kind uncorr n macroNo addr with lht.memErr := true }
      else s.reportError kind uncorr n macroNo addr := by
  have hnone : ∀ t : State, t.errorEffect kind addr = t := fun t => by rw [State.errorEffect, if_neg h5, if_neg h7]
  rw [State.memoryError, hnone]

theorem State.noted_memoryError (s : State) {kind : Nat} (h5 : kind ≠ 5) (h7 : kind ≠ 7) (uncorr : Bool) (n macroNo : Nat)
    (addr : BitVec 64) : s.Noted (s.memoryError kind uncorr n macroNo addr) := by
  have hreport := s.noted_reportError kind uncorr n macroNo addr
  rw [s.memoryError_eq h5 h7]
  split
  · exact hreport.trans rfl
  · exact hreport

theorem State.Noted.pool_eq {s t : State} (h : s.Noted t) : t.pool = s.pool := by
  rw [h]

/-! ### Refill and spill (R232) -/

theorem refill_of_clean {s : State} {k : Nat} (hhbm : (s.freeList k).hbm ≠ 0)
    (hclean : s.damageOf (16 * runsHead (s.freeList k).takeCarrier.1 + k) = 0) :
    s.refill k false =
      { s.setFree k { (s.freeList k).takeCarrier.2 with cache := (s.freeList k).cache ++ (s.freeList k).takeCarrier.1 } with
        pool.audit := s.pool.audit.map fun a => a.refilled k (runsLen (s.freeList k).takeCarrier.1) } := by
  unfold State.refill
  simp only [Bool.false_eq_true, if_false, hbmRead_of_clean hclean, hhbm]
  rfl

/-- An uncorrectable head carrier ends the list's HBM part, whose cells have no owner then. -/
theorem refill_of_damaged {s : State} {k : Nat} (hhbm : (s.freeList k).hbm ≠ 0) :
    (s.refill k true).pool =
      { (s.setFree k { cache := (s.freeList k).cache, turn := (s.freeList k).turn }).pool with
        orphans := s.pool.orphans ++ ((s.freeList k).fresh :: (s.freeList k).carriers.flatten).map fun r => (k, r),
        audit := s.pool.audit.map fun a => a.cutShort k } := by
  have hpool := ((s.hbmDamaged [(16 * runsHead (s.freeList k).takeCarrier.1 + k, correctable + 1)]).noted_memoryError (kind := 1)
    (by decide) (by decide) true 0 (Config.hbmInstance (16 * runsHead (s.freeList k).takeCarrier.1 + k))
    (BitVec.ofNat 64 (16 * runsHead (s.freeList k).takeCarrier.1 + k))).pool_eq
  unfold State.refill
  simp only [if_true, hbmRead_of_damaged, hhbm, if_false, Bool.false_eq_true, State.setFree, hpool]
  rfl

theorem freeCnt_setFree (s : State) (k : Nat) (x : FreeList) : (s.setFree k x).freeCnt k = x.free := by
  rw [State.freeCnt, freeList_setFree, if_pos rfl]

/-- The bound above which a cache spills. -/
theorem cacheHigh_ge (s : State) : 1024 ≤ s.cacheHigh := by
  unfold State.cacheHigh
  dsimp only
  split
  · next h => exact h.2.1
  · decide

/-- Written slots: what was wrong in them is gone, and an armed injection may be consumed. -/
theorem hbmWritten_frame (s : State) (kind : Nat) (cs : List Nat) :
    RegsBut [Reg.chkInj] s (s.hbmWritten kind cs) ∧ (s.hbmWritten kind cs).pool = s.pool := by
  unfold State.hbmWritten
  split
  · exact ⟨fun _ _ => rfl, rfl⟩
  · split
    · exact ⟨fun a ha => (State.rd_setBit _ _ _ _ _).trans (if_neg (List.ne_of_not_mem_cons ha)), rfl⟩
    · exact ⟨fun _ _ => rfl, rfl⟩

/-- A spill moves 65 cells of the cache into a carrier of their own. -/
theorem spill_of_high {s : State} {k : Nat} (h : s.cacheHigh < runsLen (s.freeList k).cache) :
    ∃ cells rest, runsLen cells = 65 ∧ runsLen rest + 65 = runsLen (s.freeList k).cache ∧
      (s.spill k).pool = (s.setFree k { s.freeList k with cache := rest, carriers := (s.freeList k).carriers ++ [cells] }).pool ∧
      RegsBut [Reg.chkInj] s (s.spill k) := by
  have hhigh := cacheHigh_ge s
  generalize hi : Config.freeNat s.drawn % runsLen (s.freeList k).cache = i
  obtain ⟨hcells, hboth⟩ := runsLen_runsSplit 65 (runsTurn i (s.freeList k).cache)
  rw [runsLen_runsTurn] at hcells hboth
  refine ⟨(runsSplit 65 (runsTurn i (s.freeList k).cache)).1, (runsSplit 65 (runsTurn i (s.freeList k).cache)).2, by omega,
    by omega, ?_⟩
  have hspill : s.spill k = ((({ s with drawn := s.drawn + 1 } : State).setFree k
      { s.freeList k with cache := (runsSplit 65 (runsTurn i (s.freeList k).cache)).2,
                          carriers := (s.freeList k).carriers ++ [(runsSplit 65 (runsTurn i (s.freeList k).cache)).1] }).hbmWritten 1
      [16 * runsHead (runsSplit 65 (runsTurn i (s.freeList k).cache)).1 + k]) := by
    rw [State.spill, if_neg (Nat.not_le.mpr h), ← hi]
    rfl
  obtain ⟨hregs, hpool⟩ := hbmWritten_frame (({ s with drawn := s.drawn + 1 } : State).setFree k
      { s.freeList k with cache := (runsSplit 65 (runsTurn i (s.freeList k).cache)).2,
                          carriers := (s.freeList k).carriers ++ [(runsSplit 65 (runsTurn i (s.freeList k).cache)).1] }) 1
      [16 * runsHead (runsSplit 65 (runsTurn i (s.freeList k).cache)).1 + k]
  rw [hspill, hpool]
  exact ⟨rfl, hregs⟩

theorem freeList_of_pool {s t : State} (h : t.pool = s.pool) (k : Nat) : t.freeList k = s.freeList k :=
  congrArg (fun p : Pool => p.lists.get (fun _ => ({} : FreeList)) k) h

/-- Settles O28. -/
theorem listCachesRefillAndSpillCarriers : Obligations.ListCachesRefillAndSpillCarriers := by
  refine ⟨?_, ?_, ?_, ?_, ?_⟩
  · intro k s hlow hhbm hclean
    obtain ⟨hcells, hcache⟩ := takeCarrier_cells (s.freeList k.val)
    refine Runs.intro (t := s.refill k.val false) (congrArg Host.Outcome.next (if_pos hlow)) ?_
    rw [refill_of_clean hhbm hclean]
    refine ⟨?_, ?_, sameBut_freeList_setFree s k.val _, rfl⟩
    · exact congrArg FreeList.cache ((freeList_setFree s k.val k.val _).trans (if_pos rfl))
    · refine (freeCnt_setFree s k.val _).trans ?_
      rw [State.freeCnt, FreeList.free, FreeList.free, runsLen_append]
      simp only [FreeList.hbm] at hcells ⊢
      omega
  · intro k s hlow hhbm
    refine Runs.intro (t := s.refill k.val true) (congrArg Host.Outcome.next (if_pos hlow)) ?_
    have hpool := refill_of_damaged hhbm
    have hlists : ∀ j, (s.refill k.val true).freeList j =
        (s.setFree k.val { cache := (s.freeList k.val).cache, turn := (s.freeList k.val).turn }).freeList j := fun j => by
      have hlist := congrArg (fun p : Pool => p.lists.get (fun _ => ({} : FreeList)) j) hpool
      exact hlist
    have hself := (hlists k.val).trans ((freeList_setFree s k.val k.val _).trans (if_pos rfl))
    refine ⟨by rw [hself], by rw [hself]; rfl, fun j hj => ?_, congrArg Pool.orphans hpool⟩
    exact (hlists j).trans (sameBut_freeList_setFree s k.val _ j hj)
  · intro k uncorr s hnone
    refine congrArg Host.Outcome.next ?_
    split
    · next hlow =>
      rw [State.refill]
      exact if_pos (hnone.resolve_left (Nat.not_le.mpr hlow))
    · rfl
  · intro k s hhigh
    obtain ⟨cells, rest, hcells, hrest, hpool, hregs⟩ := spill_of_high hhigh
    have hlists := freeList_of_pool hpool
    have hself := (hlists k.val).trans ((freeList_setFree s k.val k.val _).trans (if_pos rfl))
    refine Runs.intro (t := s.spill k.val) rfl ⟨?_, ?_, ?_, fun j hj => ?_, hregs⟩
    · rw [hself]; exact hrest
    · rw [hself]; exact List.length_append
    · rw [State.freeCnt, hself, State.freeCnt]
      simp only [FreeList.free, FreeList.hbm, List.map_append, List.map_singleton, List.sum_append, List.sum_singleton]
      omega
    · exact (hlists j).trans (sameBut_freeList_setFree s k.val _ j hj)
  · intro k s hlow
    refine congrArg Host.Outcome.next ?_
    rw [State.spill]
    exact if_pos hlow

/-! ### Sounding audit (R236, R237) -/

/-- What a running audit shows. -/
theorem auditShow_frame (s : State) (a : AuditRun) :
    (s.auditShow a).rd (Reg.poolAuditOpPartial 0) = BitVec.ofNat 32 a.total ∧
      (s.auditShow a).rd (Reg.poolAuditOpPartial 1) = BitVec.ofNat 32 (a.list % 16) ∧
      (s.auditShow a).rd (Reg.poolAuditOpPartial 3) = BitVec.ofNat 32 a.failed ∧
      OnlyRegs [Reg.poolAuditOpPartial 0, Reg.poolAuditOpPartial 1, Reg.poolAuditOpPartial 3, opStat .audit] s (s.auditShow a) := by
  refine ⟨?_, ?_, ?_, ?_⟩
  · simp [State.auditShow, State.setProgress, State.rd_setFld, State.rd_wrNat, Reg.poolAuditOpPartial, opStat, opCtrl,
      Reg.poolAuditOpCtrl]
  · simp [State.auditShow, State.setProgress, State.rd_setFld, State.rd_wrNat, Reg.poolAuditOpPartial, opStat, opCtrl,
      Reg.poolAuditOpCtrl]
  · simp [State.auditShow, State.setProgress, State.rd_setFld, State.rd_wrNat, Reg.poolAuditOpPartial, opStat, opCtrl,
      Reg.poolAuditOpCtrl]
  · exact ((((OnlyRegs.refl _ s).wr (by simp) _).wr (by simp) _).wr (by simp) _).wr (by simp) _

/-- The account of a carrier that the walk of `a` reads as free and of its list, `n` cells of `c` that stand. -/
def AuditRun.counts (a : AuditRun) (c n : Nat) : AuditRun :=
  { a with walked := a.walked + c, counted := a.counted + n, todo := a.todo - c, total := a.total + n }

/-- A failed list in the bitmap. -/
def AuditRun.fails (a : AuditRun) : AuditRun := { a with failed := a.failed ||| 2 ^ a.list }

section
variable {s : State} {a : AuditRun} {c w p : Nat} {flips : BitVec 128} (haudit : s.pool.audit = some a) (hlist : a.list < 16)
  (hc : c = min a.todo (runsLen ((s.freeList a.list).carrierAt a.walked).1))
include haudit hlist hc

/-- A carrier that reads as free and of its list. -/
theorem auditWalk_of_counted (hc0 : c ≠ 0) (hw : w = (s.carrierWord a.list a.walked ^^^ flips).toNat)
    (hp : p = 16 * runsHead ((s.freeList a.list).carrierAt a.walked).1 + a.list) (hclean : s.damageOf p = 0)
    (hfree : w / 2 ^ 31 % 2 = 1) (hof : w / 2 ^ 41 % 16 = a.list) :
    s.auditWalk flips false =
      ({ s with pool.audit := some (a.counts c (w / 2 ^ 32 % 512 + 1)) } : State).auditShow
        (a.counts c (w / 2 ^ 32 % 512 + 1)) := by
  have hread : s.hbmRead 1 p = (true, s) := hbmRead_of_clean hclean 1
  unfold State.auditWalk
  rw [haudit]
  simp only [← hc, ← hw, ← hp, Bool.false_eq_true, if_false, hread, Nat.not_le.mpr hlist, hc0, hfree, hof]
  simp [AuditRun.counts]

/-- One that does not, or is uncorrectable: the list fails, and the walk goes on with the next. -/
theorem auditWalk_of_failed (hc0 : c ≠ 0) (hw : w = (s.carrierWord a.list a.walked ^^^ flips).toNat)
    (hp : p = 16 * runsHead ((s.freeList a.list).carrierAt a.walked).1 + a.list) {uncorr : Bool}
    (hbad : uncorr = true ∨ w / 2 ^ 31 % 2 = 0 ∨ w / 2 ^ 41 % 16 ≠ a.list) :
    ∃ u : State, s.auditWalk flips uncorr =
      ({ u with pool.audit := some (s.auditList a.fails (a.list + 1)) } : State).auditShow (s.auditList a.fails (a.list + 1)) := by
  have hjudged : (!((if uncorr = true then s.hbmDamaged [(p, correctable + 1)] else s).hbmRead 1 p).1 || w / 2 ^ 31 % 2 == 0 ||
      w / 2 ^ 41 % 16 != a.list) = true := by
    obtain rfl | hfree | hof := hbad
    · simp [hbmRead_of_damaged]
    · rw [hfree]
      simp
    · rw [bne_iff_ne.mpr hof, Bool.or_true]
  unfold State.auditWalk
  rw [haudit]
  simp only [← hc, ← hw, ← hp, Nat.not_le.mpr hlist, if_false, hc0, hjudged, if_true]
  exact ⟨_, rfl⟩

end

/-- At the end of a list the walk judges its count and moves on. -/
theorem auditWalk_of_end {s : State} {a : AuditRun} (haudit : s.pool.audit = some a) (hlist : a.list < 16) (htodo : a.todo = 0)
    (flips : BitVec 128) (uncorr : Bool) :
    s.auditWalk flips uncorr =
      ({ s with pool.audit := some (s.auditList (if a.counted + a.ahead = a.start then a else a.fails) (a.list + 1)) } :
        State).auditShow (s.auditList (if a.counted + a.ahead = a.start then a else a.fails) (a.list + 1)) := by
  unfold State.auditWalk
  rw [haudit]
  simp only [htodo, Nat.zero_min, Nat.not_le.mpr hlist, if_false, if_true, ne_eq, not_true]
  by_cases h : a.counted + a.ahead = a.start
  · rw [if_pos h, if_pos h]
    rfl
  · rw [if_neg h, if_neg h]
    rfl

theorem toNat_ofNat_of_lt {n : Nat} (h : n < 65536) : (BitVec.ofNat 32 n).toNat = n := by
  rw [BitVec.toNat_ofNat]
  exact Nat.mod_eq_of_lt (by omega)

theorem failed_lt {n k : Nat} (hn : n < 65536) (hk : k < 16) : n ||| 2 ^ k < 65536 :=
  Nat.or_lt_two_pow (n := 16) hn (Nat.pow_lt_pow_right (by decide) hk)

/-! ### Sounding sweep (R238) -/

/-- What a running sweep shows. -/
theorem sweepShow_frame (s : State) (r : SweepRun) :
    (s.sweepShow r).rd (Reg.poolSweepOpPartial 0) =
        BitVec.ofNat 32 (if r.reclaim then allCells - (orphanCount r.found + r.pushed) else r.pos) ∧
      (s.sweepShow r).rd (Reg.poolSweepOpPartial 1) = BitVec.ofNat 32 r.pushed ∧
      OnlyRegs [Reg.poolSweepOpPartial 0, Reg.poolSweepOpPartial 1, opStat .sweep] s (s.sweepShow r) := by
  refine ⟨?_, ?_, ?_⟩
  · simp [State.sweepShow, State.setProgress, State.rd_setFld, State.rd_wrNat, Reg.poolSweepOpPartial, opStat, opCtrl,
      Reg.poolSweepOpCtrl]
  · simp [State.sweepShow, State.setProgress, State.rd_setFld, State.rd_wrNat, Reg.poolSweepOpPartial, opStat, opCtrl,
      Reg.poolSweepOpCtrl]
  · exact (((OnlyRegs.refl _ s).wr (by simp) _).wr (by simp) _).wr (by simp) _

/-- POOL_AUDIT_RESULT at the end of an audit (R237). -/
def State.auditResult (s : State) (a : AuditRun) : Word :=
  match s.pool.baseline with
  | none => 0xA0000000
  | some b => if b = (signed 32 (s.rd (Reg.poolAuditOpPartial 2)).toNat, a.failed) then 0x80000000 else 0xC0000000

/-- The audit's result is stored, and its baseline kept. -/
def State.auditJudged (s : State) (a : AuditRun) : State :=
  ({ s with pool.audit := none, pool.baseline := some (signed 32 (s.rd (Reg.poolAuditOpPartial 2)).toNat, a.failed) } :
    State).wr Reg.poolAuditResult (s.auditResult a)

theorem auditEnd_of_walked {s : State} {a : AuditRun} (haudit : s.pool.audit = some a) (hlist : 16 ≤ a.list) :
    s.auditEnd = (if bit (s.auditResult a) 30 then (s.auditJudged a).event (leafOf 15 1) 0 else s.auditJudged a).opDone .audit := by
  unfold State.auditEnd
  rw [haudit]
  exact if_neg (Nat.not_lt.mpr hlist)

/-- The end of an operation without EVENT_EN: DONE alone, in OPSTAT. -/
theorem opDone_frame {s : State} {o : LongOp} (hquiet : s.bit (opCtrl o) 29 = false) (ho : opCtrl o ≠ Reg.devCommStatus) :
    (s.opDone o).fld (opStat o) 31 24 = 0x40 ∧ OnlyRegs [opStat o] (s.opIdle o) (s.opDone o) := by
  have hquiet' : (s.opIdle o).bit (opCtrl o) 29 = false := by
    rw [State.bit, rd_opIdle s o ho]
    exact hquiet
  rw [State.opDone, opEnd_of_quiet hquiet']
  refine ⟨?_, onlyRegs_wr _ _ _⟩
  rw [State.fld, State.rd_wr_self, opStatEnd, Machine.fld_setFld_self _ (by decide) (by decide)]
  rfl

/-- A spill changes no register but an armed CHK_INJ. -/
theorem regsBut_spill (s : State) (k : Nat) : RegsBut [Reg.chkInj] s (s.spill k) := by
  rcases Nat.lt_or_ge s.cacheHigh (runsLen (s.freeList k).cache) with hhigh | hlow
  · obtain ⟨_, _, _, _, _, hregs⟩ := spill_of_high hhigh
    exact hregs
  · have hsame : s.spill k = s := by
      rw [State.spill]
      exact if_pos hlow
    rw [hsame]
    exact fun _ _ => rfl

/-- The return of a cell changes no register but an armed CHK_INJ. -/
theorem regsBut_pushCell (s : State) (p : Nat) : RegsBut [Reg.chkInj] s (s.pushCell p) := by
  intro a ha
  unfold State.pushCell
  dsimp only
  split
  · exact regsBut_spill s _ a ha
  · rfl

/-- Reclaiming cells changes no register but an armed CHK_INJ. -/
theorem regsBut_pushRun (k start n : Nat) (s : State) : RegsBut [Reg.chkInj] s (s.pushRun k start n) := by
  induction n generalizing start s with
  | zero => exact fun _ _ => rfl
  | succ n ih => exact fun a ha => (ih _ _ a ha).trans (regsBut_pushCell s _ a ha)

/-- Reclaiming runs of cells changes no register but an armed CHK_INJ. -/
theorem regsBut_pushRuns (runs : List (Nat × Run)) (s : State) : RegsBut [Reg.chkInj] s (s.pushRuns runs) := by
  induction runs generalizing s with
  | nil => exact fun _ _ => rfl
  | cons e es ih => exact fun a ha => (ih _ a ha).trans (regsBut_pushRun _ _ _ s a ha)

/-- What a sweep has reclaimed up to a cell shows in its OP_PARTIAL register (R238). -/
theorem reclaimTo_frame (s : State) (r : SweepRun) (p : Nat) :
    (s.reclaimTo r p).rd (Reg.poolSweepOpPartial 1) =
        BitVec.ofNat 32 (r.pushed + (r.found.map fun e => (runBelow p e.1 e.2).1.count).sum) ∧
      RegsBut [Reg.poolSweepOpPartial 0, Reg.poolSweepOpPartial 1, opStat .sweep, Reg.chkInj] s (s.reclaimTo r p) := by
  unfold State.reclaimTo
  dsimp only
  generalize hu : s.pushRuns _ = u
  have hregs : RegsBut [Reg.chkInj] s u := hu ▸ regsBut_pushRuns _ _
  refine ⟨(sweepShow_frame _ _).2.1.trans ?_, fun a ha => ?_⟩
  · refine congrArg (fun n => BitVec.ofNat 32 (r.pushed + n)) ?_
    rw [List.map_map]
    rfl
  · obtain ⟨h0, h1, h2, h3, -⟩ : a ≠ Reg.poolSweepOpPartial 0 ∧ a ≠ Reg.poolSweepOpPartial 1 ∧ a ≠ opStat .sweep ∧
        a ≠ Reg.chkInj ∧ True := by simpa using ha
    exact ((sweepShow_frame _ _).2.2.2 a (by simp [h0, h1, h2])).trans (hregs a (by simp [h3]))

/-- Settles O29. -/
theorem soundingAuditsAndSweepsReport : Obligations.SoundingAuditsAndSweepsReport := by
  have hnext : ∀ k, k < 15 → (BitVec.ofNat 32 ((k + 1) % 16)).toNat = k + 1 := fun k hk => by
    rw [toNat_ofNat_of_lt (by omega)]
    exact Nat.mod_eq_of_lt (by omega)
  refine ⟨?_, ?_, ?_, ?_, ?_, ?_, ?_, ?_⟩
  · intro flips uncorr s a c w p haudit hlist hc hc0 hw hp hclean
    refine ⟨fun hok hfree hof => ?_, fun hbad hlist hfailed => ?_⟩
    · refine Runs.intro (t := s.auditWalk flips uncorr) rfl ?_
      rw [hok, auditWalk_of_counted haudit hlist hc hc0 hw hp hclean hfree hof]
      obtain ⟨htotal, -, -, hframe, hregs⟩ := auditShow_frame
        { s with pool.audit := some (a.counts c (w / 2 ^ 32 % 512 + 1)) } (a.counts c (w / 2 ^ 32 % 512 + 1))
      exact ⟨by rw [hframe]; rfl, htotal, hregs⟩
    · refine Runs.intro (t := s.auditWalk flips uncorr) rfl ?_
      obtain ⟨u, hwalk⟩ := auditWalk_of_failed haudit (by omega) hc hc0 hw hp hbad
      obtain ⟨-, hat, hfail, -⟩ := auditShow_frame
        { u with pool.audit := some (s.auditList a.fails (a.list + 1)) } (s.auditList a.fails (a.list + 1))
      rw [hwalk, hat, hfail]
      refine ⟨toNat_ofNat_of_lt (failed_lt hfailed (by omega)), ?_⟩
      exact hnext _ (by omega)
  · intro flips uncorr s a haudit hlist htodo hfailed
    refine Runs.intro (t := s.auditWalk flips uncorr) rfl ?_
    rw [auditWalk_of_end haudit (by omega) htodo]
    generalize hb : (if a.counted + a.ahead = a.start then a else a.fails) = b
    have hbad : b.failed = if a.counted + a.ahead = a.start then a.failed else a.failed ||| 2 ^ a.list := by
      rw [← hb]
      split <;> rfl
    obtain ⟨-, hat, hfail, hframe, hregs⟩ := auditShow_frame
      { s with pool.audit := some (s.auditList b (a.list + 1)) } (s.auditList b (a.list + 1))
    refine ⟨?_, ?_, by rw [hframe], hregs⟩
    · rw [hat]
      exact hnext _ hlist
    · rw [hfail, ← hbad]
      refine toNat_ofNat_of_lt (n := b.failed) ?_
      rw [hbad]
      split
      · exact hfailed
      · exact failed_lt hfailed (Nat.lt_succ_of_lt hlist)
  · intro flips uncorr s hdone
    refine congrArg Host.Outcome.next ?_
    unfold State.auditWalk
    split
    · rfl
    · next a ha =>
      rw [ha] at hdone
      exact if_pos (of_decide_eq_true hdone)
  · intro s a haudit hlist hquiet
    refine Runs.intro (t := s.auditEnd) rfl ?_
    rw [auditEnd_of_walked haudit hlist]
    generalize hu : (if bit (s.auditResult a) 30 then (s.auditJudged a).event (leafOf 15 1) 0 else s.auditJudged a) = u
    have hreport : Reports (eventRegs (leafOf 15 1)) (s.auditJudged a) u := by
      rw [← hu]
      split
      · exact reports_event _ _ _
      · exact Reports.refl _ _
    obtain ⟨hframe, hregs⟩ := hreport
    have hquiet' : u.bit (opCtrl .audit) 29 = false := by
      rw [State.bit, hregs _ (by decide), State.auditJudged, State.rd_wr_other _ _ (by decide)]
      exact hquiet
    obtain ⟨hdone, hself⟩ := opDone_frame hquiet' (by decide)
    have hresult : (u.opDone .audit).rd Reg.poolAuditResult = s.auditResult a := by
      rw [hself.2 _ (by decide)]
      exact (hregs _ (by decide)).trans (State.rd_wr_self _ _ _)
    refine ⟨hdone, ?_, fun hfirst => ?_, fun hsame => ?_, fun hlater hchanged => ?_⟩
    · rw [hself.1]
      rfl
    · have hbase : s.auditResult a = 0xA0000000 := by rw [State.auditResult, hfirst]
      have hnone : u = s.auditJudged a := by
        rw [← hu, hbase]
        rfl
      refine ⟨hresult.trans hbase, fun b hb => ?_⟩
      obtain ⟨hstat, hres, -⟩ : b ≠ opStat .audit ∧ b ≠ Reg.poolAuditResult ∧ True := by simpa using hb
      rw [hself.2 b (by simpa using hstat), hnone]
      exact State.rd_wr_other _ _ hres
    · rw [hresult, State.auditResult, hsame]
      exact if_pos rfl
    · have hchange : s.auditResult a = 0xC0000000 := by
        rw [State.auditResult]
        split
        · next hnone => exact absurd hnone hlater
        · next b hsome => exact if_neg fun heq => hchanged (by rw [hsome, heq])
      refine ⟨hresult.trans hchange, ?_⟩
      have hraised : Raised (leafOf 15 1) u := by
        rw [← hu, hchange]
        exact raised_raise _ _ _ _ _ _
      rw [Raised, State.bit, hself.2 _ (by decide)]
      exact hraised
  · intro s hdone
    refine congrArg Host.Outcome.next ?_
    unfold State.auditEnd
    split
    · rfl
    · next a ha =>
      rw [ha] at hdone
      exact if_pos (of_decide_eq_true hdone)
  · intro s r hsweep hmark
    refine Runs.intro (t := s.sweepMarked) rfl ?_
    have hmarked : s.sweepMarked =
        ({ s with pool.sweep := some { found := r.found, reclaim := true } } : State).sweepShow
          { found := r.found, reclaim := true } := by
      rw [State.sweepMarked, hsweep]
      exact if_neg (Bool.eq_false_iff.mp hmark)
    rw [hmarked]
    obtain ⟨hzero, -, hframe, hregs⟩ := sweepShow_frame
      { s with pool.sweep := some { found := r.found, reclaim := true } } { found := r.found, reclaim := true }
    exact ⟨hzero, by rw [hframe], hregs, by rw [hframe]⟩
  · intro s r hsweep hreclaim hquiet
    refine Runs.intro (t := s.sweepEnd) rfl ?_
    have hend : s.sweepEnd = ({ s.reclaimTo r allCells with pool.sweep := none } : State).opDone .sweep := by
      rw [State.sweepEnd, hsweep]
      exact if_pos hreclaim
    obtain ⟨hpushed, hregs⟩ := reclaimTo_frame s r allCells
    have hquiet' : ({ s.reclaimTo r allCells with pool.sweep := none } : State).bit (opCtrl .sweep) 29 = false :=
      (congrArg (Machine.bit · 29) (hregs _ (by decide))).trans hquiet
    obtain ⟨hdone, hself⟩ := opDone_frame hquiet' (by decide)
    rw [hend]
    refine ⟨hdone, by rw [hself.1]; rfl, ?_⟩
    exact (hself.2 _ (by decide)).trans hpushed
  · intro s hnone
    constructor
    · refine congrArg Host.Outcome.next ?_
      rw [State.sweepMarked, hnone]
    · refine congrArg Host.Outcome.next ?_
      rw [State.sweepEnd, hnone]

end Sys2Proof.Machine
end

section
/-!
PROOFS. Credit messages, requests and issue (O30).
-/
open Sys2Proof.Safety
namespace Sys2Proof.Machine

/-! ### VOQs, requests and messages -/

theorem voqAt_setVoq (s : State) (v : Nat) (x : Voq) (k : Nat) :
    (s.setVoq v x).voqAt k = if k = v then x else s.voqAt k := by
  unfold State.voqAt State.setVoq
  exact SMap.get_set ..

theorem toward_setToward (s : State) (d : Nat) (x : Toward) (k : Nat) :
    (s.setToward d x).toward k = if k = d then x else s.toward k := by
  unfold State.toward State.setToward
  exact SMap.get_set ..

/-- The request that is stored for a key is the one found there (R258). -/
theorem req_setReq (s : State) (r : CreditReq) : (s.setReq r).req r.port r.cls r.src = r := by
  have hself : r.is r.port r.cls r.src = true := by simp [CreditReq.is]
  have hmap : ∀ l : List CreditReq, (l.any fun x => x.is r.port r.cls r.src) = true →
      (l.map fun x => if x.is r.port r.cls r.src then r else x).find? (fun x => x.is r.port r.cls r.src) = some r := by
    intro l hany
    induction l with
    | nil => simp at hany
    | cons x xs ih =>
      by_cases hx : x.is r.port r.cls r.src = true
      · simp [hx, hself]
      · simp only [List.any_cons, hx, Bool.false_or] at hany
        simp [hx, ih hany]
  have hnone : ∀ l : List CreditReq, (l.any fun x => x.is r.port r.cls r.src) ≠ true →
      (l ++ [r]).find? (fun x => x.is r.port r.cls r.src) = some r := by
    intro l hany
    rw [List.find?_append]
    have : l.find? (fun x => x.is r.port r.cls r.src) = none := by
      simpa [List.find?_eq_none] using hany
    simp [this, hself]
  unfold State.setReq
  split
  · next hany => simp only [State.req, hmap _ hany, Option.getD_some]
  · next hany => simp only [State.req, hnone _ hany, Option.getD_some]

/-- The request found for a key has that key. -/
theorem req_is (s : State) (port cls src : Nat) :
    (s.req port cls src).port = port ∧ (s.req port cls src).cls = cls ∧ (s.req port cls src).src = src := by
  unfold State.req
  cases hfind : s.alm.reqs.find? fun r => r.is port cls src with
  | none => exact ⟨rfl, rfl, rfl⟩
  | some r =>
    have := List.find?_some hfind
    simp only [CreditReq.is, Bool.and_eq_true, beq_iff_eq] at this
    exact ⟨this.1.1, this.1.2, this.2⟩

/-- Settling returns deficits to 0: it changes nodes alone (R255). -/
theorem settle_frame (s : State) : ∃ nodes, s.settle = { s with alm.nodes := nodes } := by
  unfold State.settle
  refine State.each_induct (P := fun t => ∃ nodes, t = { s with alm.nodes := nodes }) ⟨s.alm.nodes, rfl⟩ fun k _ t ht => ?_
  obtain ⟨nodes, rfl⟩ := ht
  dsimp only
  split
  · exact ⟨nodes, rfl⟩
  · exact ⟨_, rfl⟩

/-- A status stores the request with its ON or OFF, after it has counted credit that was lost (R258). -/
theorem schedStatus_eq (s : State) (port cls src : Nat) (on : Bool) (ret : Nat) (received : Word) :
    ∃ (u : State) (r : CreditReq), s.schedStatus port cls src on ret received = (u.setReq r).settle ∧
      OnlyRegs [Reg.almCreditLost] s u ∧ r.on = on ∧ r.port = port ∧ r.cls = cls ∧ r.src = src := by
  obtain ⟨hport, hcls, hsrc⟩ := req_is s port cls src
  unfold State.schedStatus
  dsimp only
  refine ⟨_, _, rfl, ?_, rfl, ?_, ?_, ?_⟩
  · split
    · exact onlyRegs_wr _ _ _
    · exact OnlyRegs.refl _ _
  · split <;> exact hport
  · split <;> exact hcls
  · split <;> exact hsrc

/-- Storing a request changes the scheduler's requests alone. -/
theorem setReq_frame (s : State) (r : CreditReq) : ∃ alm, s.setReq r = { s with alm := alm } := by
  unfold State.setReq
  split
  · exact ⟨_, rfl⟩
  · exact ⟨_, rfl⟩

/-- What a status of a request changes (R258). -/
theorem schedStatus_frame (s : State) (port cls src : Nat) (on : Bool) (ret : Nat) (received : Word) :
    ((s.schedStatus port cls src on ret received).req port cls src).on = on ∧
      RegsBut [Reg.almCreditLost] s (s.schedStatus port cls src on ret received) ∧
      s.schedStatus port cls src on ret received =
        { s with regs := (s.schedStatus port cls src on ret received).regs,
                 alm := (s.schedStatus port cls src on ret received).alm } := by
  obtain ⟨u, r, heq, ⟨hframe, hregs⟩, rfl, rfl, rfl, rfl⟩ := schedStatus_eq s port cls src on ret received
  have hself := req_setReq u r
  obtain ⟨alm, hset⟩ := setReq_frame u r
  obtain ⟨nodes, hsettle⟩ := settle_frame (u.setReq r)
  rw [heq, hsettle]
  rw [hset] at hself ⊢
  refine ⟨congrArg CreditReq.on hself, hregs, ?_⟩
  rw [hframe]

/-- The loss of a VOQ's request changes its balance and its ON alone; the message goes toward its destination (R243). -/
theorem voqOffAs_frame (s : State) (v : Nat) (id : Voq) :
    (s.voqOffAs v id).voqAt v = { s.voqAt v with balance := 0, on := false } ∧
      SameBut State.voqAt [v] s (s.voqOffAs v id) ∧ RegsBut [Reg.almCreditLost] s (s.voqOffAs v id) := by
  have hoff : ∀ x : Voq, (s.statusOff x).voq = s.voq ∧ RegsBut [Reg.almCreditLost] s (s.statusOff x) := by
    intro x
    unfold State.statusOff
    split
    · obtain ⟨-, hregs, hframe⟩ := schedStatus_frame s x.port x.cls s.devId false x.balance x.received
      exact ⟨by rw [hframe], hregs⟩
    · exact ⟨rfl, fun _ _ => rfl⟩
  obtain ⟨hvoq, hregs⟩ := hoff { s.voqAt v with dev := id.dev, port := id.port, cls := id.cls }
  unfold State.voqOffAs
  dsimp only
  generalize s.statusOff _ = u at hvoq hregs
  have hat : ∀ k, u.voqAt k = s.voqAt k := fun k => by rw [State.voqAt, hvoq]; rfl
  refine ⟨(voqAt_setVoq ..).trans (if_pos rfl), fun k hk => ?_, hregs⟩
  rw [voqAt_setVoq, if_neg (by simpa using hk), hat]

/-- Credit that does not cover the head frame serves nothing. -/
theorem voqServe_of_short {s : State} {v : Nat} {f : Stored} {fs : List Stored} (hframes : (s.voqAt v).frames = f :: fs)
    (hshort : (s.voqAt v).balance < f.len) : s.voqServe v = s := by
  have hnone : ∀ n, s.voqRelease v n = s := fun n => by
    cases n with
    | zero => rfl
    | succ n =>
      rw [State.voqRelease]
      simp only [hframes]
      exact if_neg fun h => absurd h.1 (by omega)
  rw [State.voqServe, hnone]
  exact if_neg fun h => by simp [hframes] at h

/-- An issue toward another device counts the credit and sends one message (R257, R259). -/
theorem issue_other {s : State} {key : Nat} {r : CreditReq} (hsrc : r.src ≠ s.devId) :
    ((s.issue key r).req r.port r.cls r.src).issued = r.issued + BitVec.ofNat 32 s.creditBytes ∧
      ((s.issue key r).req r.port r.cls r.src).out = r.out + s.creditBytes ∧
      ((s.issue key r).req r.port r.cls r.src).lastAt = s.raw ∧
      ((s.issue key r).toward r.src).credits.length = (s.toward r.src).credits.length + 1 ∧
      s.issue key r = { s with alm := (s.issue key r).alm, rhb := (s.issue key r).rhb } := by
  unfold State.issue
  dsimp only
  rw [if_neg hsrc]
  generalize hr : ({ r with issued := r.issued + BitVec.ofNat 32 s.creditBytes, lastAt := s.raw,
                            out := r.out + s.creditBytes } : CreditReq) = r'
  have hkey : r'.port = r.port ∧ r'.cls = r.cls ∧ r'.src = r.src := by rw [← hr]; exact ⟨rfl, rfl, rfl⟩
  have hself := req_setReq s r'
  obtain ⟨alm, hset⟩ := setReq_frame s r'
  rw [hkey.1, hkey.2.1, hkey.2.2] at hself
  rw [hset] at hself ⊢
  unfold State.sendCredit
  dsimp only
  refine ⟨?_, ?_, ?_, ?_, rfl⟩
  · exact (congrArg CreditReq.issued hself).trans (by rw [← hr])
  · exact (congrArg CreditReq.out hself).trans (by rw [← hr])
  · exact (congrArg CreditReq.lastAt hself).trans (by rw [← hr])
  · rw [toward_setToward, if_pos rfl]
    exact List.length_append

/-- CREDIT_ISSUE of a PON, host or management port with room issues to its top request (R259). -/
theorem creditIssue_of_top {port : Fin 75} {s : State} {r : CreditReq} (hmode : s.creditMode port.val = true)
    (hup : (s.hold' port.val).down = false)
    (htop : (port.val < 48 ∧ s.subBytes port.val + s.outstanding port.val < s.fld (Reg.almPonCredit port.val) 23 0 * 1024 ∧
        s.topRequest port.val (fun _ => true) = some r) ∨
      (72 ≤ port.val ∧ s.stagingRoom port.val = true ∧ s.topRequest port.val (fun c => s.classRoom port.val c) = some r)) :
    exec (.creditIssue port) s = .next (s.issue (port.val * 8 + r.cls) r) := by
  refine congrArg Host.Outcome.next ?_
  rw [State.creditIssue, hmode, hup, if_neg (by simp)]
  rcases htop with ⟨hpon, hroom, hreq⟩ | ⟨hhost, hroom, hreq⟩
  · rw [if_pos hpon, if_pos hroom, hreq]
  · rw [if_neg (by omega), if_neg (by omega), if_pos hroom, hreq]

/-- Settles O30. -/
theorem creditMovesBetweenSchedulersAndQueues : Obligations.CreditMovesBetweenSchedulersAndQueues := by
  refine ⟨?_, ?_, ?_, ?_, ?_, ?_, ?_, ?_, ?_, ?_⟩
  · intro dev port cls bytes v errs s u hu hnamed hempty
    have hnamed' : u.voqNamed dev.val port.val cls.val = some v := by rw [hu]; exact hnamed
    have hrun : exec (.creditReceived dev port cls bytes errs false) s = .next (u.creditIn dev.val port.val cls.val bytes) := by
      rw [hu]
      refine congrArg (fun x : State => Host.Outcome.next (x.creditIn dev.val port.val cls.val bytes)) ?_
      split <;> rfl
    refine Runs.intro hrun ?_
    have hframes : (u.voqAt v).frames = [] := by rw [hu]; exact hempty
    rw [State.creditIn, hnamed']
    dsimp only
    rw [if_pos hframes]
    refine ⟨(voqOffAs_frame _ _ _).1.trans ?_, fun k hk => ((voqOffAs_frame _ _ _).2.1 k hk).trans ?_,
      fun a ha => ((voqOffAs_frame _ _ _).2.2 a ha).trans ?_⟩
    · rw [voqAt_setVoq, if_pos rfl, hu]
      rfl
    · rw [voqAt_setVoq, if_neg (by simpa using hk), hu]
      rfl
    · rw [hu]
      rfl
  · intro dev port cls bytes v errs s u f fs hu hnamed hframes
    have hnamed' : u.voqNamed dev.val port.val cls.val = some v := by rw [hu]; exact hnamed
    have hframes' : (u.voqAt v).frames = f :: fs := by rw [hu]; exact hframes
    have hin : u.creditIn dev.val port.val cls.val bytes = (u.setVoq v { s.voqAt v with
        balance := (s.voqAt v).balance + bytes, received := (s.voqAt v).received + BitVec.ofNat 32 bytes }).voqServe v := by
      rw [State.creditIn, hnamed']
      dsimp only
      rw [if_neg (by rw [hframes']; exact List.cons_ne_nil _ _), hu]
      rfl
    have hrun : exec (.creditReceived dev port cls bytes errs false) s = .next (u.creditIn dev.val port.val cls.val bytes) := by
      rw [hu]
      refine congrArg (fun x : State => Host.Outcome.next (x.creditIn dev.val port.val cls.val bytes)) ?_
      split <;> rfl
    refine ⟨fun hshort => Runs.intro hrun ?_, hrun.trans (congrArg _ hin), ?_⟩
    · rw [hin, voqServe_of_short (f := f) (fs := fs) (by rw [voqAt_setVoq, if_pos rfl]; exact hframes)
        (by rw [voqAt_setVoq, if_pos rfl]; exact hshort)]
      refine ⟨(voqAt_setVoq ..).trans (if_pos rfl), fun k hk => ?_, ?_⟩
      · rw [voqAt_setVoq, if_neg (by simpa using hk), hu]
        rfl
      · rw [hu]
        rfl
    · refine congrArg (fun x : State => Host.Outcome.next (x.creditIn dev.val port.val cls.val bytes)) ?_
      rw [← hu, hnamed']
      rfl
  · intro dev port cls bytes errs qBad s hnone
    have hnone' : (s.hbmDamaged errs).voqNamed dev.val port.val cls.val = none := hnone
    refine congrArg Host.Outcome.next ?_
    rw [hnone']
    dsimp only
    rw [State.creditIn, hnone']
  · intro v s f fs hframes hshort hdev
    refine Runs.intro (t := s.statusRefresh v.val) rfl ?_
    have hsend : s.statusRefresh v.val = s.sendCredit (s.voqAt v.val).dev (.statusOn (s.voqAt v.val).dev (s.voqAt v.val).port
        (s.voqAt v.val).cls s.devId (backlog (s.voqAt v.val).frames) (s.voqAt v.val).received) := by
      rw [State.statusRefresh]
      simp only [hframes]
      rw [if_pos hshort, State.statusOn, if_neg hdev, hframes]
    rw [hsend]
    refine ⟨?_, fun k hk => ?_, rfl⟩
    · rw [State.sendCredit, toward_setToward, if_pos rfl]
      exact List.length_append
    · rw [State.sendCredit, toward_setToward, if_neg (by simpa using hk)]
  · intro v s
    refine ⟨fun hcovered => congrArg Host.Outcome.next ?_, fun hwaits hdev => congrArg Host.Outcome.next ?_⟩
    · rw [State.statusRefresh]
      cases hframes : (s.voqAt v.val).frames with
      | nil => rfl
      | cons f fs =>
        simp only [hframes, List.head?_cons, Option.all_some, decide_eq_true_eq] at hcovered
        exact if_neg (Nat.not_lt.mpr hcovered)
    · rw [State.statusRefresh]
      cases hframes : (s.voqAt v.val).frames with
      | nil => simp [hframes] at hwaits
      | cons f fs =>
        simp only [hframes, List.head?_cons, Option.any_some, decide_eq_true_eq] at hwaits
        dsimp only
        rw [if_pos hwaits, State.statusOn, if_pos hdev]
  · intro port cls src on ret received s
    exact Runs.intro (t := s.schedStatus port cls src on ret received) rfl (schedStatus_frame ..)
  · intro port s r hmode hup htop hsrc
    exact Runs.intro (creditIssue_of_top hmode hup htop) (issue_other hsrc)
  · intro port s r hmode hup htop
    exact creditIssue_of_top hmode hup htop
  · intro port s u q path r hmode hup h48 h72 hodd hroot hroom hq hpath hu hsrc
    refine congrArg Host.Outcome.next ?_
    have hnet : ¬ port.val < 48 := by omega
    have hkey : 96 + (port.val - 48) = 48 + port.val := by omega
    rw [State.creditIssue, hmode, hup, if_neg (by simp), if_neg hnet, if_pos h72]
    dsimp only
    rw [hkey, if_pos ⟨by simp [hodd], hroot, hroom⟩, ← hq]
    simp only [hpath, ← hu, hsrc]
  · intro port s hno
    refine congrArg Host.Outcome.next ?_
    rw [State.creditIssue]
    rcases hno with hmode | hdown | ⟨hhost, hno⟩ | ⟨hpon, hreq⟩
    · rw [hmode]
      rfl
    · rw [hdown]
      exact if_pos (by simp)
    · split
      · rfl
      · rw [if_neg (by omega), if_neg (by omega)]
        rcases hno with hroom | hreq
        · rw [hroom]
          rfl
        · simp [hreq]
    · split
      · rfl
      · rw [hreq]
        exact ite_self _

end Sys2Proof.Machine
end

section
/-!
PROOFS. Port states, the flush of a port's queues and the VOQ map (O31; R239, R247).
-/
open Sys2Proof.Safety
namespace Sys2Proof.Machine

/-! ### What a flush of queues may change -/

/-- The registers that a flush may change: an armed CHK_INJ, the count of flushed frames, the count of lost credit. -/
def flushRegs : List Nat := [Reg.chkInj, Reg.voqFlushDrop, Reg.almCreditLost]

/-- From `s` to `t` queues have been flushed: cells are back in the pool, requests withdrawn, messages sent, but no port, mode
or destination has changed. -/
def Flushed (s t : State) : Prop :=
  RegsBut flushRegs s t ∧ ∃ regs drawn damage pool q alm rhb xgm,
    t = { s with regs := regs, drawn := drawn, chk.damage := damage, pool := pool, voq.q := q, alm := alm, rhb := rhb, xgm := xgm }

theorem Flushed.refl (s : State) : Flushed s s :=
  ⟨fun _ _ => rfl, _, _, _, _, _, _, _, _, rfl⟩

theorem Flushed.trans {s t u : State} (h : Flushed s t) (k : Flushed t u) : Flushed s u := by
  obtain ⟨hregs, _, _, _, _, _, _, _, _, rfl⟩ := h
  obtain ⟨kregs, _, _, _, _, _, _, _, _, rfl⟩ := k
  exact ⟨fun a ha => (kregs a ha).trans (hregs a ha), _, _, _, _, _, _, _, _, rfl⟩

theorem Flushed.each {s : State} {f : Nat → State → State} (l : List Nat) (hf : ∀ i t, Flushed t (f i t)) : Flushed s (s.each l f) :=
  State.each_induct (P := Flushed s) (.refl s) fun i _ t ht => ht.trans (hf i t)

theorem flushed_bumpBy (s : State) (n : Nat) : Flushed s (s.bumpBy Reg.voqFlushDrop n) :=
  ⟨fun a ha => (State.rd_bumpBy _ _ _ _).trans (if_neg fun h => ha (by rw [h]; decide)), _, _, _, _, _, _, _, _, rfl⟩

theorem flushed_hbmWritten (s : State) (kind : Nat) (cs : List Nat) : Flushed s (s.hbmWritten kind cs) := by
  refine ⟨fun a ha => (hbmWritten_frame s kind cs).1 a fun h => ha (List.mem_cons.mpr (.inl (List.mem_singleton.mp h))), ?_⟩
  unfold State.hbmWritten
  split
  · exact ⟨_, _, _, _, _, _, _, _, rfl⟩
  · split
    · exact ⟨_, _, _, _, _, _, _, _, rfl⟩
    · exact ⟨_, _, _, _, _, _, _, _, rfl⟩

theorem flushed_spill (s : State) (k : Nat) : Flushed s (s.spill k) := by
  unfold State.spill
  dsimp only
  split
  · exact .refl s
  · exact Flushed.trans ⟨fun _ _ => rfl, _, _, _, _, _, _, _, _, rfl⟩ (flushed_hbmWritten _ _ _)

theorem flushed_pushCell (s : State) (p : Nat) : Flushed s (s.pushCell p) := by
  unfold State.pushCell
  dsimp only
  refine Flushed.trans (t := if cacheMax ≤ runsLen (s.freeList (p % 16)).cache then s.spill (p % 16) else s) ?_
    ⟨fun _ _ => rfl, _, _, _, _, _, _, _, _, rfl⟩
  split
  · exact flushed_spill s _
  · exact .refl s

theorem flushed_freeChain (s : State) (cells : List Nat) : Flushed s (s.freeChain cells) := by
  induction cells generalizing s with
  | nil => exact .refl s
  | cons p ps ih => exact (flushed_pushCell s p).trans (ih _)

theorem flushed_discardAll (s : State) (l : List Stored) : Flushed s (s.discardAll l) := by
  induction l generalizing s with
  | nil => exact .refl s
  | cons f fs ih => exact (flushed_freeChain s f.cells).trans (ih _)

theorem flushed_settle (s : State) : Flushed s s.settle := by
  obtain ⟨nodes, hsettle⟩ := settle_frame s
  rw [hsettle]
  exact ⟨fun _ _ => rfl, _, _, _, _, _, _, _, _, rfl⟩

theorem flushed_statusOff (s : State) (x : Voq) : Flushed s (s.statusOff x) := by
  unfold State.statusOff
  split
  · obtain ⟨-, hregs, hframe⟩ := schedStatus_frame s x.port x.cls s.devId false x.balance x.received
    exact ⟨fun a ha => hregs a fun h => ha (List.mem_cons_of_mem _ (List.mem_cons_of_mem _ h)),
      _, _, _, _, _, _, _, _, hframe⟩
  · exact ⟨fun _ _ => rfl, _, _, _, _, _, _, _, _, rfl⟩

theorem flushed_voqOff (s : State) (v : Nat) : Flushed s (s.voqOff v) := by
  unfold State.voqOff State.voqOffAs
  exact (flushed_statusOff s _).trans ⟨fun _ _ => rfl, _, _, _, _, _, _, _, _, rfl⟩

theorem flushed_flushVoqs (s : State) (dev port : Nat) : Flushed s (s.flushVoqs dev port) := by
  unfold State.flushVoqs
  refine .each _ fun v t => ?_
  exact ((flushed_discardAll t _).trans (flushed_bumpBy _ _)).trans
    (Flushed.trans ⟨fun _ _ => rfl, _, _, _, _, _, _, _, _, rfl⟩ (flushed_voqOff _ v))

theorem flushed_flushWait (s : State) (j : Nat) : Flushed s (s.flushWait j) := by
  unfold State.flushWait
  split
  · exact (flushed_bumpBy s 1).trans ⟨fun _ _ => rfl, _, _, _, _, _, _, _, _, rfl⟩
  · exact .refl s

theorem flushed_flushSubs (s : State) (i : Nat) : Flushed s (s.flushSubs i) := by
  unfold State.flushSubs
  refine (Flushed.trans (.each _ fun q t => ?_) (flushed_settle _)).trans (.each _ fun j t => flushed_flushWait t j)
  exact ((flushed_discardAll t _).trans (flushed_bumpBy _ _)).trans ⟨fun _ _ => rfl, _, _, _, _, _, _, _, _, rfl⟩

theorem flushed_flushStaging (s : State) (i : Nat) : Flushed s (s.flushStaging i) := by
  unfold State.flushStaging
  exact ((flushed_discardAll s _).trans (flushed_bumpBy _ _)).trans ⟨fun _ _ => rfl, _, _, _, _, _, _, _, _, rfl⟩

/-- PORT_STATE sets the destination's state and sends messages. -/
theorem portState_frame (s : State) (i st : Nat) : ∃ toward, s.portState i st = { s with
    voq.dest := s.voq.dest.set (fun _ => 0) (destKey s.devId i) st, rhb.toward := toward } := by
  unfold State.portState
  refine State.each_induct (P := fun t => ∃ toward, t = { s with
    voq.dest := s.voq.dest.set (fun _ => 0) (destKey s.devId i) st, rhb.toward := toward }) ⟨_, rfl⟩ fun d _ t ht => ?_
  obtain ⟨toward, rfl⟩ := ht
  exact ⟨_, rfl⟩

/-- The flush of a port leaves its destination DOWN and raises its event; no hold-down and no other destination changes (R247). -/
theorem flushPort_frame (s : State) (i : Nat) : ∃ u, Flushed s u ∧
    s.flushPort i = ({ u with voq.dest := s.voq.dest.set (fun _ => 0) (destKey s.devId i) 2 } : State).event (leafOf 15 3) i := by
  unfold State.flushPort
  dsimp only
  generalize hv : (if i < 48 then s.flushSubs i else s.flushStaging i) = v
  have hflush : Flushed s (v.flushVoqs s.devId i) := by
    refine Flushed.trans ?_ (flushed_flushVoqs v _ _)
    rw [← hv]
    split
    · exact flushed_flushSubs s i
    · exact flushed_flushStaging s i
  obtain ⟨toward, hstate⟩ := portState_frame (v.flushVoqs s.devId i) i 2
  rw [hstate]
  obtain ⟨hregs, regs, drawn, damage, pool, q, alm, rhb, xgm, hframe⟩ := id hflush
  have hdev : (v.flushVoqs s.devId i).devId = s.devId := by
    exact congrArg (Machine.fld · 9 0) (hregs Reg.rhbCtrl (by decide))
  have hdest : (v.flushVoqs s.devId i).voq.dest = s.voq.dest := by rw [hframe]
  rw [hdev, hdest]
  exact ⟨{ v.flushVoqs s.devId i with
    rhb.toward := toward,
    alm.reqs := (v.flushVoqs s.devId i).alm.reqs.map fun r => if r.port = i then { r with out := 0 } else r },
    hflush.trans ⟨fun _ _ => rfl, _, _, _, _, _, _, _, _, rfl⟩, rfl⟩

/-- What the flush of a port says of destinations and hold-downs. -/
theorem flushPort_voq (s : State) (i : Nat) :
    (s.flushPort i).voq.dest = s.voq.dest.set (fun _ => 0) (destKey s.devId i) 2 ∧ (s.flushPort i).voq.hold = s.voq.hold ∧
      Raised (leafOf 15 3) (s.flushPort i) := by
  obtain ⟨u, ⟨-, regs, drawn, damage, pool, q, alm, rhb, xgm, rfl⟩, hflush⟩ := flushPort_frame s i
  rw [hflush]
  refine ⟨?_, ?_, raised_raise _ _ _ _ _ _⟩
  · rw [(reports_event _ _ _).1]
  · rw [(reports_event _ _ _).1]

/-- The mode is as before when time has passed. -/
theorem mode_advance (s : State) (at' : Raw) : (s.advance at').dev.mode = s.dev.mode := by
  rw [State.advance, State.elapse_frame]

/-- A write of VOQ_MAP_SEL changes the map by WRITE, and its three registers (R239). -/
theorem mapSelWrite_frame (s : State) (v : Word) :
    (s.mapSelWrite v).voq.map = (if Machine.bit v 31 then
        s.voq.map.set (fun _ => 0) (destKey (Machine.fld v 16 7) (Machine.fld v 6 0)) (s.rd Reg.voqMapCfg) else s.voq.map) ∧
      RegsBut [Reg.voqMapSel, Reg.voqMapCfg, Reg.voqMapState] s (s.mapSelWrite v) ∧
      s.mapSelWrite v = { s with regs := (s.mapSelWrite v).regs, voq.map := (s.mapSelWrite v).voq.map } := by
  have hcfg : (s.wrTyped Reg.voqMapSel v).rd Reg.voqMapCfg = s.rd Reg.voqMapCfg := State.rd_wrTyped_other s v (by decide)
  unfold State.mapSelWrite
  dsimp only
  rw [hcfg]
  generalize hu : (if Machine.bit v 31 then _ else _ : State) = u
  have hwritten : u.voq.map = (if Machine.bit v 31 then
        s.voq.map.set (fun _ => 0) (destKey (Machine.fld v 16 7) (Machine.fld v 6 0)) (s.rd Reg.voqMapCfg) else s.voq.map) ∧
      RegsBut [Reg.voqMapSel] s u ∧ ∃ regs map, u = { s with regs := regs, voq.map := map } := by
    rw [← hu]
    split
    · exact ⟨rfl, (State.onlyRegs_wrTyped s v _).2, _, _, rfl⟩
    · exact ⟨rfl, (State.onlyRegs_wrTyped s v _).2, _, _, rfl⟩
  obtain ⟨hmap, hregs, regs, map, rfl⟩ := hwritten
  split
  · refine ⟨hmap, fun a ha => ?_, rfl⟩
    obtain ⟨h0, h1, h2, -⟩ : a ≠ Reg.voqMapSel ∧ a ≠ Reg.voqMapCfg ∧ a ≠ Reg.voqMapState ∧ True := by simpa using ha
    rw [State.rd_wrNat, if_neg h2, State.rd_wr_other _ _ h1]
    exact hregs a (by simpa using h0)
  · exact ⟨hmap, fun a ha => hregs a fun h => ha (List.mem_cons.mpr (.inl (List.mem_singleton.mp h))), rfl⟩

/-- A write of VOQ_MAP_SEL with READ loads the entry and the state of its destination (R239). -/
theorem mapSelWrite_read (s : State) {v : Word} (hread : Machine.bit v 30 = true) :
    (s.mapSelWrite v).rd Reg.voqMapCfg = (s.mapSelWrite v).mapEntry (Machine.fld v 16 7) (Machine.fld v 6 0) ∧
      (s.mapSelWrite v).rd Reg.voqMapState = BitVec.ofNat 32 ((s.mapSelWrite v).destState (Machine.fld v 16 7) (Machine.fld v 6 0)) := by
  unfold State.mapSelWrite
  dsimp only
  rw [if_pos hread]
  generalize (if Machine.bit v 31 then _ else _ : State) = u
  refine ⟨?_, ?_⟩
  · rw [State.rd_wrNat, if_neg (by decide), State.rd_wr_self]
    rfl
  · rw [State.rd_wrNat, if_pos rfl]
    rfl

theorem hold'_setHoldOf_self (s : State) (i : Nat) (h : Hold) : (s.setHoldOf i h).hold' i = h := by
  unfold State.hold' State.setHoldOf
  exact SMap.get_set_self ..

/-- Settles O31. -/
theorem destinationStatesFollowPortStateMessages : Obligations.DestinationStatesFollowPortStateMessages := by
  refine ⟨?_, ?_, ?_, ?_, ?_, ?_, ?_, ?_, ?_, ?_⟩
  · intro dev port st s
    refine Runs.intro (t := s.portStateIn dev.val port.val st.val) rfl ?_
    have hset : (s.setDest dev.val port.val st.val).destState dev.val port.val = st.val := SMap.get_set_self ..
    unfold State.portStateIn
    dsimp only
    split
    · obtain ⟨-, _, _, _, _, _, _, _, _, hframe⟩ := flushed_flushVoqs (s.setDest dev.val port.val st.val) dev.val port.val
      rw [State.destState, hframe]
      exact hset
    · exact hset
  · intro dev port st s hst
    refine Runs.intro (t := s.setDest dev.val port.val st.val) (congrArg Host.Outcome.next (if_neg (by omega))) ⟨fun k hk => ?_, rfl⟩
    exact SMap.get_set_other (fun _ => 0) _ _ _ _ fun h => hk (List.mem_singleton.mpr h)
  · intro i at' s e hends hreached hmode
    refine Runs.intro (t := (s.advance at').holdExpiry i.val) rfl ?_
    have hmode' : (s.advance at').dev.mode ≠ .safe := by
      rw [mode_advance]
      exact hmode
    generalize s.advance at' = u at *
    have hexpiry : u.holdExpiry i.val = (u.setHoldOf i.val ⟨true, none⟩).flushPort i.val := by
      rw [State.holdExpiry, hends]
      exact if_pos ⟨hmode', hreached⟩
    obtain ⟨hdest, hhold, hraised⟩ := flushPort_voq (u.setHoldOf i.val ⟨true, none⟩) i.val
    rw [hexpiry]
    refine ⟨?_, ?_, hraised⟩
    · rw [State.destState, hdest]
      exact SMap.get_set_self ..
    · rw [State.hold', hhold]
      exact hold'_setHoldOf_self u _ _
  · intro i at' s hno
    refine congrArg Host.Outcome.next ?_
    rw [← mode_advance s at'] at hno
    generalize s.advance at' = u at *
    rw [State.holdExpiry]
    split
    · next e he =>
      refine if_neg fun h => ?_
      rcases hno with hsafe | hnever
      · exact h.1 hsafe
      · simp [he, h.2] at hnever
    · rfl
  · intro val s hwrite
    refine Runs.intro (t := s.mapSelWrite val) rfl ?_
    obtain ⟨hmap, hregs, hframe⟩ := mapSelWrite_frame s val
    rw [if_pos hwrite] at hmap
    refine ⟨?_, fun k hk => ?_, hregs, ?_⟩
    · rw [State.mapEntry, hmap]
      exact SMap.get_set_self ..
    · dsimp only
      rw [hmap]
      exact SMap.get_set_other _ _ _ _ _ fun h => hk (List.mem_singleton.mpr h)
    · exact hframe
  · intro val s hread
    refine Runs.intro (t := s.mapSelWrite val) rfl ?_
    obtain ⟨-, hregs, -⟩ := mapSelWrite_frame s val
    obtain ⟨hcfg, hstate⟩ := mapSelWrite_read s hread
    exact ⟨hcfg, hstate, hregs⟩
  · intro val s hnone hread
    refine Runs.intro (t := s.mapSelWrite val) rfl ?_
    obtain ⟨hmap, hregs, hframe⟩ := mapSelWrite_frame s val
    obtain ⟨hcfg, hstate⟩ := mapSelWrite_read s hread
    rw [hnone] at hmap
    have hsame : s.mapSelWrite val = { s with regs := (s.mapSelWrite val).regs } := by
      rw [hmap] at hframe
      exact hframe
    rw [hsame] at hcfg hstate
    exact ⟨(congrArg (State.rd · _) hsame).trans hcfg, (congrArg (State.rd · _) hsame).trans hstate, hsame, hregs⟩
  · intro val s hread
    refine Runs.intro (t := s.qSelWrite val) rfl ?_
    rw [State.qSelWrite, if_pos hread]
    dsimp only
    refine ⟨?_, ?_, ?_⟩
    · rw [State.rd_wrNat, if_neg (by decide), State.rd_wrNat, if_neg (by decide), State.rd_wrNat, if_pos rfl]
      rfl
    · rw [State.rd_wrNat, if_neg (by decide), State.rd_wrNat, if_pos rfl]
      rfl
    · exact ((((State.onlyRegs_wrTyped s val _).mono (by simp)).wr (by simp) _).wr (by simp) _).wr (by simp) _
  · intro s m ms hq hpass
    refine congrArg Host.Outcome.next ?_
    rw [State.replicationTake, hq]
    exact if_pos hpass
  · intro s hno
    refine congrArg Host.Outcome.next ?_
    rw [State.replicationTake]
    cases hq : s.pool.mcq with
    | nil => rfl
    | cons m ms =>
      simp only [hq, List.head?_cons, Option.all_some, Bool.not_eq_true'] at hno
      exact if_neg (Bool.eq_false_iff.mp hno)

end Sys2Proof.Machine
end

section
/-!
PROOFS. Almanac settings: nodes, profiles, policers, banks and the wheel (O32; R253, R262 to R265).
-/
open Sys2Proof.Safety
namespace Sys2Proof.Machine

theorem State.rd_of_regs {s t : State} (h : t.regs = s.regs) (a : Nat) : t.rd a = s.rd a := by
  unfold State.rd
  rw [h]

theorem State.fld_of_regs {s t : State} (h : t.regs = s.regs) (a hi lo : Nat) : t.fld a hi lo = s.fld a hi lo := by
  unfold State.fld
  rw [State.rd_of_regs h]

theorem State.bit_of_regs {s t : State} (h : t.regs = s.regs) (a i : Nat) : t.bit a i = s.bit a i := by
  unfold State.bit
  rw [State.rd_of_regs h]

/-! ### Nodes -/

theorem node_setNode_self (s : State) (l i : Nat) (x : Node) : (s.setNode l i x).node l i = x := by
  unfold State.node State.setNode
  exact SMap.get_set_self ..

theorem nodeKey_div_mod (k : Nat) : nodeKey (k / 524288) (k % 524288) = k := by
  unfold nodeKey
  omega

/-- Settling returns deficits to 0, of whatever node, and changes nothing else (R255). -/
theorem settle_nodes (s : State) (k : Nat) :
    let old := s.alm.nodes.get (fun _ => s.alm.blank) k
    let new := s.settle.alm.nodes.get (fun _ => s.alm.blank) k
    new = old ∨ new = { old with deficit := 0 } := by
  dsimp only
  unfold State.settle
  refine (State.each_induct (P := fun t => t.alm.blank = s.alm.blank ∧
    (t.alm.nodes.get (fun _ => s.alm.blank) k = s.alm.nodes.get (fun _ => s.alm.blank) k ∨
      t.alm.nodes.get (fun _ => s.alm.blank) k = { s.alm.nodes.get (fun _ => s.alm.blank) k with deficit := 0 }))
    ⟨rfl, .inl rfl⟩ fun j _ t ht => ?_).2
  obtain ⟨hblank, hnode⟩ := ht
  dsimp only
  split
  · exact ⟨hblank, hnode⟩
  · refine ⟨hblank, ?_⟩
    unfold State.setNode State.node
    dsimp only
    rw [nodeKey_div_mod, hblank, SMap.get_set]
    split
    · next h =>
      subst h
      rcases hnode with hnode | hnode <;> rw [hnode] <;> exact .inr rfl
    · exact hnode

/-- ALM_NODE_CFG_0 and 1 as the settings of a node, before deficits settle (R253, R263). -/
def State.nodeBound (s : State) (level idx : Nat) : State :=
  let y := { s.node level idx with cfg0 := s.rd Reg.almNodeCfg0, cfg1 := s.rd Reg.almNodeCfg1 }
  if Machine.fld y.cfg1 29 16 = Machine.fld (s.node level idx).cfg1 29 16 then s.setNode level idx y
  else (s.setNode level idx y).resetNode level idx

/-- The registers of ALM_NODE_SEL as READ loads them. -/
def State.nodeShown (s : State) (level idx : Nat) : State :=
  let x := s.node level idx
  let p := s.shaper x
  let b := x.max.refill (Machine.rateOf (profWord p 0)) (Machine.burstOf (profWord p 1)) s.nowNs
  let rg := (s.parentRange level idx).getD (0, 0)
  (((((s.wr Reg.almNodeCfg0 x.cfg0).wr Reg.almNodeCfg1 x.cfg1).wrNat Reg.almNodeTokens
    (unsign 32 (b.tok / (tokUnit : Int)))).wrNat Reg.almNodeRangeLo rg.1).wrNat Reg.almNodeRangeHi rg.2).wrNat
    Reg.almNodeAvg x.avg

theorem nodeSelWrite_of_inside (s : State) {v : Word} (hin : Machine.fld v 18 0 < levelNodes (Machine.fld v 22 20)) :
    s.nodeSelWrite v =
      (if Machine.bit v 30 then
        (if Machine.bit v 31 then ((s.wrTyped Reg.almNodeSel v).nodeBound (Machine.fld v 22 20) (Machine.fld v 18 0)).settle
          else s.wrTyped Reg.almNodeSel v).nodeShown (Machine.fld v 22 20) (Machine.fld v 18 0)
      else if Machine.bit v 31 then ((s.wrTyped Reg.almNodeSel v).nodeBound (Machine.fld v 22 20) (Machine.fld v 18 0)).settle
        else s.wrTyped Reg.almNodeSel v) := by
  unfold State.nodeSelWrite
  exact if_neg (Nat.not_le.mpr hin)

/-- The registers that ALM_NODE_SEL loads. -/
def nodeRegs : List Nat :=
  [Reg.almNodeSel, Reg.almNodeCfg0, Reg.almNodeCfg1, Reg.almNodeTokens, Reg.almNodeRangeLo, Reg.almNodeRangeHi, Reg.almNodeAvg]

theorem nodeShown_frame (s : State) (level idx : Nat) :
    (s.nodeShown level idx).rd Reg.almNodeCfg0 = (s.node level idx).cfg0 ∧
      (s.nodeShown level idx).rd Reg.almNodeCfg1 = (s.node level idx).cfg1 ∧
      (s.nodeShown level idx).rd Reg.almNodeAvg = BitVec.ofNat 32 (s.node level idx).avg ∧
      OnlyRegs nodeRegs s (s.nodeShown level idx) := by
  unfold State.nodeShown
  dsimp only
  refine ⟨?_, ?_, ?_, ?_⟩
  · rw [State.rd_wrNat, if_neg (by decide), State.rd_wrNat, if_neg (by decide), State.rd_wrNat, if_neg (by decide), State.rd_wrNat,
      if_neg (by decide), State.rd_wr_other _ _ (by decide), State.rd_wr_self]
  · rw [State.rd_wrNat, if_neg (by decide), State.rd_wrNat, if_neg (by decide), State.rd_wrNat, if_neg (by decide), State.rd_wrNat,
      if_neg (by decide), State.rd_wr_self]
  · rw [State.rd_wrNat, if_pos rfl]
  · exact ((((((OnlyRegs.refl nodeRegs s).wr (by decide) _).wr (by decide) _).wr (by decide) _).wr (by decide) _).wr (by decide) _).wr
      (by decide) _

/-- What becomes of the nodes when a node takes its settings. -/
theorem nodeBound_frame (s : State) (level idx : Nat) (y : Node)
    (hy : y = { s.node level idx with cfg0 := s.rd Reg.almNodeCfg0, cfg1 := s.rd Reg.almNodeCfg1 }) :
    ∃ nodes, s.nodeBound level idx = { s with alm.nodes := nodes } ∧
      nodes.get (fun _ => s.alm.blank) (nodeKey level idx) =
        (if Machine.fld y.cfg1 29 16 = Machine.fld (s.node level idx).cfg1 29 16 then y else s.nodeFresh y) ∧
      ∀ k, k ≠ nodeKey level idx → nodes.get (fun _ => s.alm.blank) k = s.alm.nodes.get (fun _ => s.alm.blank) k := by
  unfold State.nodeBound
  rw [← hy]
  dsimp only
  split
  · exact ⟨_, rfl, SMap.get_set_self .., fun k hk => SMap.get_set_other _ _ _ _ _ hk⟩
  · have hself : (s.setNode level idx y).node level idx = y := node_setNode_self ..
    rw [State.resetNode, hself]
    refine ⟨_, rfl, SMap.get_set_self .., fun k hk => ?_⟩
    exact (SMap.get_set_other _ _ _ _ _ hk).trans (SMap.get_set_other _ _ _ _ _ hk)

/-! ### Profiles -/

/-- What a profile's settings may change: nodes, policers and their reset values. -/
theorem resetBound_frame (s : State) (kind idx : Nat) :
    ∃ nodes blank pol blankPol, s.resetBound kind idx =
      { s with alm.nodes := nodes, alm.blank := blank, alm.pol := pol, alm.blankPol := blankPol } := by
  unfold State.resetBound
  split
  · refine State.each_induct (P := fun t => ∃ nodes blank pol blankPol, t =
      { s with alm.nodes := nodes, alm.blank := blank, alm.pol := pol, alm.blankPol := blankPol }) ?_ fun k _ t ht => ?_
    · split
      · exact ⟨_, _, _, _, rfl⟩
      · exact ⟨_, _, _, _, rfl⟩
    · obtain ⟨_, _, _, _, rfl⟩ := ht
      exact ⟨_, _, _, _, rfl⟩
  · split
    · refine State.each_induct (P := fun t => ∃ nodes blank pol blankPol, t =
        { s with alm.nodes := nodes, alm.blank := blank, alm.pol := pol, alm.blankPol := blankPol }) ?_ fun k _ t ht => ?_
      · split
        · exact ⟨_, _, _, _, rfl⟩
        · exact ⟨_, _, _, _, rfl⟩
      · obtain ⟨_, _, _, _, rfl⟩ := ht
        exact ⟨_, _, _, _, rfl⟩
    · exact ⟨_, _, _, _, rfl⟩

/-- A profile takes the data words (R263, R264). -/
def State.profStored (s : State) (bank kind idx : Nat) : State :=
  let s1 := { s with alm.prof := s.alm.prof.set profReset (profKey bank kind idx) s.profData }
  if bank = s1.almBank then s1.resetBound kind idx
  else if kind ≤ 1 then { s1 with alm.changed := s1.alm.changed.set (fun _ => false) (profKey bank kind idx) true }
  else s1

/-- A profile loaded into the data words. -/
def State.profShown (s : State) (bank kind idx : Nat) : State :=
  (s.wrWords (Reg.almProfData 0) (s.profile bank kind idx)).setBit Reg.almProfSel 28 (s.isChanged (profKey bank kind idx))

theorem profSelWrite_of_inside (s : State) {v : Word} (hin : Machine.fld v 13 0 < profCount (Machine.fld v 25 24)) :
    s.profSelWrite v =
      (if Machine.bit v 30 then
        (if Machine.bit v 31 then
            (s.wrTyped Reg.almProfSel v).profStored (Machine.fld v 29 29) (Machine.fld v 25 24) (Machine.fld v 13 0)
          else s.wrTyped Reg.almProfSel v).profShown (Machine.fld v 29 29) (Machine.fld v 25 24) (Machine.fld v 13 0)
      else if Machine.bit v 31 then
          (s.wrTyped Reg.almProfSel v).profStored (Machine.fld v 29 29) (Machine.fld v 25 24) (Machine.fld v 13 0)
        else s.wrTyped Reg.almProfSel v) := by
  unfold State.profSelWrite
  exact if_neg (Nat.not_le.mpr hin)

theorem profStored_frame (s : State) (bank kind idx : Nat) :
    (s.profStored bank kind idx).alm.prof = s.alm.prof.set profReset (profKey bank kind idx) s.profData ∧
      (bank = s.almBank → (s.profStored bank kind idx).alm.changed = s.alm.changed) ∧
      (bank ≠ s.almBank → (s.profStored bank kind idx).isChanged (profKey bank kind idx) =
          (decide (kind ≤ 1) || s.isChanged (profKey bank kind idx)) ∧
        ∃ prof changed, s.profStored bank kind idx = { s with alm.prof := prof, alm.changed := changed }) ∧
      ∃ alm, s.profStored bank kind idx = { s with alm := alm } := by
  unfold State.profStored
  dsimp only
  have hbank : ({ s with alm.prof := s.alm.prof.set profReset (profKey bank kind idx) s.profData } : State).almBank = s.almBank := rfl
  rw [hbank]
  split
  · next h =>
    obtain ⟨_, _, _, _, hframe⟩ :=
      resetBound_frame { s with alm.prof := s.alm.prof.set profReset (profKey bank kind idx) s.profData } kind idx
    rw [hframe]
    exact ⟨rfl, fun _ => rfl, fun hne => absurd h hne, _, rfl⟩
  · next h =>
    refine ⟨?_, fun heq => absurd heq h, fun _ => ?_, ?_⟩
    · split <;> rfl
    · split
      · next hk =>
        refine ⟨?_, _, _, rfl⟩
        rw [decide_eq_true hk, Bool.true_or]
        exact SMap.get_set_self (fun _ => false) _ _ true
      · next hk =>
        refine ⟨?_, _, _, rfl⟩
        rw [decide_eq_false hk, Bool.false_or]
        rfl
    · split
      · exact ⟨_, rfl⟩
      · exact ⟨_, rfl⟩

/-- The registers of ALM_PROF_SEL. -/
def profRegs : List Nat := Reg.almProfSel :: (List.range 10).map Reg.almProfData

theorem mem_profRegs_data {i : Nat} (hi : i < 10) : Reg.almProfData i ∈ profRegs :=
  List.mem_cons_of_mem _ (List.mem_map.mpr ⟨i, List.mem_range.mpr hi, rfl⟩)

/-- A loaded word of a profile. -/
theorem rd_wrWords_self (s : State) (a : Nat) (l : List Word) {i : Nat} (hi : i < l.length) :
    (s.wrWords a l).rd (a + 4 * i) = l.getD i 0 := by
  induction l generalizing s a i with
  | nil => simp at hi
  | cons w l ih =>
    rw [State.wrWords]
    cases i with
    | zero =>
      rw [State.rd_wrWords_other _ (.inl (by omega))]
      exact State.rd_wr_self ..
    | succ i =>
      have := ih (s.wr a w) (a + 4) (i := i) (by simpa using hi)
      rw [show a + 4 * (i + 1) = a + 4 + 4 * i by omega, this]
      rfl

theorem rd_wrWords_ne (s : State) {a b : Nat} {l : List Word} (h : ∀ i, i < l.length → b ≠ a + 4 * i) :
    (s.wrWords a l).rd b = s.rd b := by
  induction l generalizing s a with
  | nil => rfl
  | cons w l ih =>
    rw [State.wrWords, ih _ fun i hi => ?_]
    · exact s.rd_wr_other w (h 0 (Nat.succ_pos _))
    · have := h (i + 1) (Nat.succ_lt_succ hi)
      omega

theorem profShown_frame (s : State) (bank kind idx : Nat) (hlen : (s.profile bank kind idx).length = 10) :
    (∀ i, i < 10 → (s.profShown bank kind idx).rd (Reg.almProfData i) = (s.profile bank kind idx).getD i 0) ∧
      (s.profShown bank kind idx).bit Reg.almProfSel 28 = s.isChanged (profKey bank kind idx) ∧
      OnlyRegs profRegs s (s.profShown bank kind idx) := by
  unfold State.profShown
  refine ⟨fun i hi => ?_, State.bit_setBit_self _ _ (by decide) _, ?_⟩
  · have hsel : Reg.almProfData i ≠ Reg.almProfSel := by
      simp only [Reg.almProfData, Reg.almProfSel]
      omega
    rw [State.rd_setBit, if_neg hsel]
    exact rd_wrWords_self _ _ _ (by omega)
  · refine OnlyRegs.wr ⟨State.wrWords_frame _ _ _, fun a ha => ?_⟩ (List.mem_cons_self ..) _
    refine rd_wrWords_ne _ fun i hi heq => ha ?_
    rw [heq]
    exact mem_profRegs_data (by omega)

/-! ### Policers -/

theorem policer_setPolicer (s : State) (i : Nat) (x : Policer) (k : Nat) :
    (s.setPolicer i x).policer k = if k = i then x else s.policer k := by
  unfold State.policer State.setPolicer
  exact SMap.get_set ..

/-- ALM_POL_CFG as the settings of a policer (R265). -/
def State.polBound (s : State) (i : Nat) : State :=
  let y := { s.policer i with cfg := s.rd Reg.almPolCfg }
  if Machine.fld y.cfg 12 0 = Machine.fld (s.policer i).cfg 12 0 then s.setPolicer i y else (s.setPolicer i y).resetPolicer i

/-- The registers of ALM_POL_SEL as READ loads them. -/
def State.polShown (s : State) (i : Nat) : State :=
  let x := s.policer i
  let p := s.polProfile x
  let tc := x.c.refill (Machine.rateOf (profWord p 0)) (Machine.burstOf (profWord p 1)) s.nowNs
  let te := x.e.refill (Machine.rateOf (profWord p 2)) (Machine.burstOf (profWord p 3)) s.nowNs
  ((s.wr Reg.almPolCfg x.cfg).wrNat Reg.almPolTokC (tc.tok.toNat / tokUnit)).wrNat Reg.almPolTokE (te.tok.toNat / tokUnit)

theorem polSelWrite_eq (s : State) (v : Word) :
    s.polSelWrite v =
      (if Machine.bit v 30 then
        (if Machine.bit v 31 then (s.wrTyped Reg.almPolSel v).polBound (Machine.fld v 17 0)
          else s.wrTyped Reg.almPolSel v).polShown (Machine.fld v 17 0)
      else if Machine.bit v 31 then (s.wrTyped Reg.almPolSel v).polBound (Machine.fld v 17 0) else s.wrTyped Reg.almPolSel v) := by
  unfold State.polSelWrite State.polShown State.polBound
  dsimp only

theorem polBound_frame (s : State) (i : Nat) (y : Policer) (hy : y = { s.policer i with cfg := s.rd Reg.almPolCfg }) :
    (s.polBound i).policer i =
        (if Machine.fld y.cfg 12 0 = Machine.fld (s.policer i).cfg 12 0 then y else s.polFresh y) ∧
      SameBut State.policer [i] s (s.polBound i) ∧ ∃ pol, s.polBound i = { s with alm.pol := pol } := by
  have hset : ∀ (t : State) (x : Policer) (k : Nat), k ∉ [i] → (t.setPolicer i x).policer k = t.policer k := fun t x k hk =>
    (policer_setPolicer ..).trans (if_neg (by simpa using hk))
  unfold State.polBound
  rw [← hy]
  dsimp only
  split
  · exact ⟨(policer_setPolicer ..).trans (if_pos rfl), fun k hk => hset s y k hk, _, rfl⟩
  · have hself : (s.setPolicer i y).policer i = y := (policer_setPolicer ..).trans (if_pos rfl)
    rw [State.resetPolicer, hself]
    refine ⟨(policer_setPolicer ..).trans (if_pos rfl), fun k hk => ?_, _, rfl⟩
    exact (hset _ _ k hk).trans (hset s y k hk)

/-- The registers of ALM_POL_SEL. -/
def polRegs : List Nat := [Reg.almPolSel, Reg.almPolCfg, Reg.almPolTokC, Reg.almPolTokE]

theorem polShown_frame (s : State) (i : Nat) :
    (s.polShown i).rd Reg.almPolCfg = (s.policer i).cfg ∧ OnlyRegs polRegs s (s.polShown i) := by
  unfold State.polShown
  dsimp only
  refine ⟨?_, (((OnlyRegs.refl polRegs s).wr (by decide) _).wr (by decide) _).wr (by decide) _⟩
  rw [State.rd_wrNat, if_neg (by decide), State.rd_wrNat, if_neg (by decide), State.rd_wr_self]

/-! ### The Almanac bank (R39, R264) -/

/-- The resets that the switch of the bank brings about. -/
theorem each_resetBound (u : State) (ks : List Nat) :
    ∃ nodes blank pol blankPol, (u.each ks fun k s => s.resetBound (k / 16384 % 4) (k % 16384)) =
      { u with alm.nodes := nodes, alm.blank := blank, alm.pol := pol, alm.blankPol := blankPol } := by
  refine State.each_induct (P := fun t => ∃ nodes blank pol blankPol, t =
    { u with alm.nodes := nodes, alm.blank := blank, alm.pol := pol, alm.blankPol := blankPol }) ⟨_, _, _, _, rfl⟩ fun k _ t ht => ?_
  obtain ⟨_, _, _, _, rfl⟩ := ht
  obtain ⟨_, _, _, _, hk⟩ := resetBound_frame _ (k / 16384 % 4) (k % 16384)
  rw [hk]
  exact ⟨_, _, _, _, rfl⟩

/-- The switch point with a switch pending (R264). -/
theorem almSwitch_of_pending {s : State} (hpending : s.bit Reg.almCommit 30 = true) :
    ∃ nodes blank pol blankPol, s.almSwitch =
      { s.bankSwitch Reg.almCommit (s.fld Reg.almCommit 1 1) with
        alm := { s.alm with
          nodes := nodes, blank := blank, pol := pol, blankPol := blankPol
          changed := s.alm.changed.filter fun e =>
            e.1 / 65536 != (s.bankSwitch Reg.almCommit (s.fld Reg.almCommit 1 1)).almBank } } := by
  unfold State.almSwitch
  rw [if_pos hpending]
  have hframe := (State.onlyRegs_bankSwitch (target := s.fld Reg.almCommit 1 1) s Reg.almCommit).1
  generalize s.bankSwitch Reg.almCommit (s.fld Reg.almCommit 1 1) = u at hframe
  dsimp only
  generalize u.almBank = b
  obtain ⟨nodes, blank, pol, blankPol, hreset⟩ := each_resetBound u ((u.alm.changed.filter fun e => e.2 && e.1 / 65536 == b).map Prod.fst)
  rw [hreset]
  have halm : u.alm = s.alm := by rw [hframe]
  rw [← halm]
  exact ⟨nodes, blank, pol, blankPol, rfl⟩

/-- Toward the other bank the switch takes effect in the clock of the request. -/
theorem almRequest_other (s : State) {target : Nat} (h : s.activeBank Reg.almCommit ≠ target) (ht : target < 2) :
    (s.almRequest target).almBank = target ∧ (s.almRequest target).fld Reg.almCommit 15 8 = (s.fld Reg.almCommit 15 8 + 1) % 256 ∧
      (s.almRequest target).bit Reg.almCommit 30 = false ∧ (∀ e ∈ (s.almRequest target).alm.changed, e.1 / 65536 ≠ target) ∧
      RegsBut [Reg.almCommit] s (s.almRequest target) ∧ (s.almRequest target).alm.prof = s.alm.prof ∧
      ∃ regs alm, s.almRequest target = { s with regs := regs, alm := alm } := by
  obtain ⟨hpending, htarget, -, hcount⟩ := s.bankRequest_other Reg.almCommit h ht
  obtain ⟨nodes, blank, pol, blankPol, hswitch⟩ := almSwitch_of_pending hpending
  have halm : (s.bankRequest Reg.almCommit target).alm = s.alm := by
    rw [(State.onlyRegs_bankRequest (target := target) s Reg.almCommit).1]
  obtain ⟨hframe, hregs⟩ := (State.onlyRegs_bankRequest (target := target) s Reg.almCommit).comp
    (State.onlyRegs_bankSwitch (target := target) (s.bankRequest Reg.almCommit target) Reg.almCommit)
  have hbank := State.bankSwitch_bank (s.bankRequest Reg.almCommit target) Reg.almCommit ht
  have hcount' := State.bankSwitch_count (target := target) (s.bankRequest Reg.almCommit target) Reg.almCommit
  have hdone := State.bankSwitch_pending (target := target) (s.bankRequest Reg.almCommit target) Reg.almCommit
  rw [hcount] at hcount'
  rw [htarget, halm] at hswitch
  rw [State.almRequest, hswitch]
  generalize (s.bankRequest Reg.almCommit target).bankSwitch Reg.almCommit target = u at hframe hregs hbank hcount' hdone
  have hbank' : u.almBank = target := hbank
  rw [hbank']
  generalize hw : ({ u with alm := _ } : State) = w
  have hsame : w.regs = u.regs := by rw [← hw]
  refine ⟨?_, ?_, ?_, fun e he => ?_, fun a ha => ?_, by rw [← hw], w.regs, w.alm, ?_⟩
  · rw [State.almBank, State.activeBank, State.fld_of_regs hsame]
    exact hbank
  · rw [State.fld_of_regs hsame]
    exact hcount'
  · rw [State.bit_of_regs hsame]
    exact hdone
  · rw [← hw] at he
    exact bne_iff_ne.mp (List.mem_filter.mp he).2
  · rw [State.rd_of_regs hsame]
    exact hregs a ha
  · rw [← hw, hframe]

theorem almRequest_active (s : State) {target : Nat} (h : s.activeBank Reg.almCommit = target) :
    s.almRequest target = s.bankRequest Reg.almCommit target := by
  obtain ⟨hpending, -⟩ := s.bankRequest_active Reg.almCommit h
  rw [State.almRequest, State.almSwitch, hpending]
  exact if_neg Bool.false_ne_true

/-! ### The wheel (R262) -/

/-- The nodes whose slot begins, as the obligation names them. -/
def State.wheelDue (s : State) (coarse : Bool) : List Nat :=
  (s.alm.nodes.filter fun e => e.2.wheel.any fun w => w.1 == coarse && decide (w.2 ≤ s.nowNs)).map Prod.fst

theorem wheelSlot_eq (s : State) (coarse : Bool) :
    s.wheelSlot coarse = s.each (s.wheelDue coarse) fun k s =>
      (s.setNode (k / 524288) (k % 524288) { s.node (k / 524288) (k % 524288) with
        wheel := none
        max := (s.node (k / 524288) (k % 524288)).max.refill
          (rateOf (profWord (s.shaper (s.node (k / 524288) (k % 524288))) 0))
          (burstOf (profWord (s.shaper (s.node (k / 524288) (k % 524288))) 1)) s.nowNs }).wheelPut (k / 524288) (k % 524288) := by
  unfold State.wheelSlot State.wheelDue
  dsimp only
  congr 2
  refine List.filter_congr fun e _ => ?_
  cases e.2.wheel <;> rfl

/-- A node that is placed again is on the wheel while its tokens are below 0 and its rate is not 0. -/
theorem wheelPut_frame (s : State) (level idx : Nat) :
    (0 ≤ (s.node level idx).max.tok ∨ rateOf (profWord (s.shaper (s.node level idx)) 0) = 0 →
      s.wheelPut level idx = s.setNode level idx { s.node level idx with wheel := none }) ∧
    ((s.node level idx).max.tok < 0 → rateOf (profWord (s.shaper (s.node level idx)) 0) ≠ 0 →
      ((s.wheelPut level idx).node level idx).wheel.isSome = true ∧
        ((s.wheelPut level idx).node level idx).max = (s.node level idx).max ∧ RegsBut [Reg.almWheelPark] s (s.wheelPut level idx)) := by
  unfold State.wheelPut
  dsimp only
  refine ⟨fun h => if_neg fun hk => ?_, fun htok hrate => ?_⟩
  · rcases h with h | h
    · exact absurd hk.2 (by omega)
    · exact hk.1 h
  · rw [if_pos ⟨hrate, htok⟩]
    have hself := node_setNode_self s level idx { s.node level idx with
      wheel := some (wheelPlace s.nowNs (s.nowNs + (s.node level idx).max.wait
        (rateOf (profWord (s.shaper (s.node level idx)) 0)))).1 }
    generalize hu : s.setNode level idx _ = u at hself ⊢
    have hregs : ∀ a, u.rd a = s.rd a := fun a => by rw [← hu]; rfl
    split
    · refine ⟨congrArg (·.wheel.isSome) hself, (congrArg Node.max hself).trans rfl, fun a ha => ?_⟩
      rw [State.rd_bump, if_neg (by simpa using ha)]
      exact hregs a
    · exact ⟨congrArg (·.wheel.isSome) hself, (congrArg Node.max hself).trans rfl, fun a _ => hregs a⟩

/-! ### The obligation -/

/-- A write of ALM_NODE_SEL with WRITE, inside the level: the node takes its settings, and deficits may return to 0. -/
theorem nodeSelWrite_write (s : State) {v : Word} (hin : Machine.fld v 18 0 < levelNodes (Machine.fld v 22 20))
    (hwrite : Machine.bit v 31 = true) : ∃ u, u = ((s.wrTyped Reg.almNodeSel v).nodeBound (Machine.fld v 22 20) (Machine.fld v 18 0)).settle ∧
      OnlyRegs nodeRegs u (s.nodeSelWrite v) := by
  rw [nodeSelWrite_of_inside s hin, if_pos hwrite]
  refine ⟨_, rfl, ?_⟩
  split
  · exact (nodeShown_frame _ _ _).2.2.2
  · exact OnlyRegs.refl _ _

/-- A node's fresh buckets come of the profiles, the bank, the level and the time. -/
theorem nodeFresh_of_onlyRegs {l : List Nat} {s t : State} (h : OnlyRegs l s t) (hbank : Reg.almCommit ∉ l) (hctrl : Reg.almCtrl ∉ l)
    (y : Node) : t.nodeFresh y = s.nodeFresh y := by
  obtain ⟨hframe, hregs⟩ := h
  have hraw : t.raw = s.raw := by rw [hframe]
  have halm : t.alm = s.alm := by rw [hframe]
  have hprofile : t.shaper y = s.shaper y := by
    simp only [State.shaper, State.profile, State.almBank, State.activeBank, State.fld, hregs _ hbank, halm]
  have hexpert : t.almExpert = s.almExpert := by simp only [State.almExpert, State.bit, hregs _ hctrl]
  have hnow : t.nowNs = s.nowNs := by simp only [State.nowNs, hraw]
  unfold State.nodeFresh State.freshBucket
  rw [hprofile, hexpert, hnow]

/-- A policer's fresh buckets come of the profiles, the bank, the level and the time. -/
theorem polFresh_of_onlyRegs {l : List Nat} {s t : State} (h : OnlyRegs l s t) (hbank : Reg.almCommit ∉ l) (hctrl : Reg.almCtrl ∉ l)
    (y : Policer) : t.polFresh y = s.polFresh y := by
  obtain ⟨hframe, hregs⟩ := h
  have hraw : t.raw = s.raw := by rw [hframe]
  have halm : t.alm = s.alm := by rw [hframe]
  have hprofile : t.polProfile y = s.polProfile y := by
    simp only [State.polProfile, State.profile, State.almBank, State.activeBank, State.fld, hregs _ hbank, halm]
  have hexpert : t.almExpert = s.almExpert := by simp only [State.almExpert, State.bit, hregs _ hctrl]
  have hnow : t.nowNs = s.nowNs := by simp only [State.nowNs, hraw]
  unfold State.polFresh State.freshBucket
  rw [hprofile, hexpert, hnow]

/-- A profile set by profStored keeps the words that were staged. -/
theorem profile_profStored (s : State) (bank kind idx : Nat) : (s.profStored bank kind idx).profile bank kind idx = s.profData := by
  rw [State.profile, (profStored_frame s bank kind idx).1]
  exact SMap.get_set_self ..

theorem length_profData (s : State) : s.profData.length = 10 := by
  rw [State.profData, List.length_map, List.length_range]

/-- Settles O32. -/
theorem almanacSettingsAreWrittenAndReadThroughSelectors : Obligations.AlmanacSettingsAreWrittenAndReadThroughSelectors := by
  refine ⟨?_, ?_, ?_, ?_, ?_, ?_, ?_, ?_, ?_, ?_, ?_, ?_, ?_, ?_⟩
  · intro val s x y hwrite hin hx hy
    refine Runs.intro (t := s.nodeSelWrite val) rfl ?_
    obtain ⟨u, hu, hshown⟩ := nodeSelWrite_write s hin hwrite
    obtain ⟨hsel, hselregs⟩ := s.onlyRegs_wrTyped val Reg.almNodeSel
    have hcfg0 : (s.wrTyped Reg.almNodeSel val).rd Reg.almNodeCfg0 = s.rd Reg.almNodeCfg0 := State.rd_wrTyped_other s val (by decide)
    have hcfg1 : (s.wrTyped Reg.almNodeSel val).rd Reg.almNodeCfg1 = s.rd Reg.almNodeCfg1 := State.rd_wrTyped_other s val (by decide)
    have hnodes : (s.wrTyped Reg.almNodeSel val).alm = s.alm := by rw [hsel]
    have hfresh := nodeFresh_of_onlyRegs ⟨hsel, hselregs⟩ (by decide) (by decide) y
    generalize s.wrTyped Reg.almNodeSel val = w at *
    have hnode : w.node (fld val 22 20) (fld val 18 0) = x := by
      rw [hx, State.node, hnodes]
      rfl
    obtain ⟨nodes, hbound, hself, hother⟩ := nodeBound_frame w (fld val 22 20) (fld val 18 0) y (by rw [hnode, hcfg0, hcfg1, hy])
    rw [hnode, hfresh, hnodes] at hself
    rw [hnodes] at hother
    have hsettle := settle_nodes (w.nodeBound (fld val 22 20) (fld val 18 0))
    have hblank : (w.nodeBound (fld val 22 20) (fld val 18 0)).alm.blank = s.alm.blank := by rw [hbound, ← hnodes]
    have hget : (w.nodeBound (fld val 22 20) (fld val 18 0)).alm.nodes = nodes := by rw [hbound]
    rw [← hu, hblank, hget] at hsettle
    obtain ⟨settled, hsettled⟩ := settle_frame (w.nodeBound (fld val 22 20) (fld val 18 0))
    rw [← hu, hbound] at hsettled
    have halm : (s.nodeSelWrite val).alm = u.alm := by rw [hshown.1]
    have hublank : u.alm.blank = s.alm.blank := by rw [hsettled, ← hnodes]
    have hat : (s.nodeSelWrite val).node (fld val 22 20) (fld val 18 0) =
        u.alm.nodes.get (fun _ => s.alm.blank) (nodeKey (fld val 22 20) (fld val 18 0)) := by
      rw [State.node, halm, hublank]
    have hdeficit : (if fld y.cfg1 29 16 = fld x.cfg1 29 16 then y else s.nodeFresh y).deficit = x.deficit := by
      rw [hy]
      split <;> rfl
    refine ⟨?_, ?_, fun k hk => ?_, fun a ha => ?_, ?_⟩
    · rw [hat, ← hself]
      rcases hsettle (nodeKey (fld val 22 20) (fld val 18 0)) with h | h <;> rw [h]
    · rw [hat, ← hdeficit, ← hself]
      rcases hsettle (nodeKey (fld val 22 20) (fld val 18 0)) with h | h <;> rw [h]
      · exact .inl rfl
      · exact .inr rfl
    · dsimp only
      rw [halm, ← hother k (by simpa using hk)]
      rcases hsettle k with h | h <;> rw [h]
    · have hne : a ∉ [Reg.almNodeSel] := fun h => ha (List.mem_cons.mpr (.inl (List.mem_singleton.mp h)))
      refine (hshown.2 a ha).trans (Eq.trans ?_ (hselregs a hne))
      exact State.rd_of_regs (by rw [hsettled]) a
    · rw [hshown.1, hsettled, hsel]
  · intro val s hnone hread hin
    refine Runs.intro (t := s.nodeSelWrite val) rfl ?_
    rw [nodeSelWrite_of_inside s hin, if_pos hread, if_neg (Bool.eq_false_iff.mp hnone)]
    obtain ⟨hsel, hselregs⟩ := s.onlyRegs_wrTyped val Reg.almNodeSel
    have hnode : (s.wrTyped Reg.almNodeSel val).node (fld val 22 20) (fld val 18 0) = s.node (fld val 22 20) (fld val 18 0) := by
      rw [hsel]
      rfl
    obtain ⟨hcfg0, hcfg1, havg, hshown⟩ := nodeShown_frame (s.wrTyped Reg.almNodeSel val) (fld val 22 20) (fld val 18 0)
    rw [hnode] at hcfg0 hcfg1 havg
    exact ⟨hcfg0, hcfg1, havg, (OnlyRegs.mono ⟨hsel, hselregs⟩ (by decide)).comp hshown⟩
  · intro val s hread hin
    refine Runs.intro (t := s.nodeSelWrite val) rfl ?_
    rw [nodeSelWrite_of_inside s hin, if_pos hread]
    generalize (if bit val 31 then _ else _ : State) = u
    obtain ⟨hcfg0, hcfg1, -, hframe, -⟩ := nodeShown_frame u (fld val 22 20) (fld val 18 0)
    have hnode : (u.nodeShown (fld val 22 20) (fld val 18 0)).node (fld val 22 20) (fld val 18 0) =
        u.node (fld val 22 20) (fld val 18 0) := by
      rw [hframe]
      rfl
    rw [hnode]
    exact ⟨hcfg0, hcfg1⟩
  · intro val s hout
    have hsel : s.nodeSelWrite val = s.wrTyped Reg.almNodeSel val := if_pos hout
    exact ⟨Runs.intro (congrArg Host.Outcome.next hsel) (s.onlyRegs_wrTyped val _),
      Runs.intro (congrArg Host.Outcome.next hsel) (s.onlyRegs_wrTyped val _)⟩
  · intro val s hwrite hin
    refine Runs.intro (t := s.profSelWrite val) rfl ?_
    rw [profSelWrite_of_inside s hin, if_pos hwrite]
    obtain ⟨hsel, hselregs⟩ := s.onlyRegs_wrTyped val Reg.almProfSel
    have hdata : (s.wrTyped Reg.almProfSel val).profData = s.profData := by
      refine List.map_congr_left fun i hi => State.rd_wrTyped_other s val ?_
      simp only [Reg.almProfData, Reg.almProfSel]
      omega
    have hbank : (s.wrTyped Reg.almProfSel val).almBank = s.almBank := by
      unfold State.almBank State.activeBank State.fld
      rw [State.rd_wrTyped_other s val (by decide)]
    have halm : (s.wrTyped Reg.almProfSel val).alm = s.alm := by rw [hsel]
    generalize hw : s.wrTyped Reg.almProfSel val = w at *
    obtain ⟨hprof, hactive, hidle, alm, hframe⟩ := profStored_frame w (fld val 29 29) (fld val 25 24) (fld val 13 0)
    have hself := profile_profStored w (fld val 29 29) (fld val 25 24) (fld val 13 0)
    have hshown : OnlyRegs profRegs (w.profStored (fld val 29 29) (fld val 25 24) (fld val 13 0))
        (if bit val 30 then (w.profStored (fld val 29 29) (fld val 25 24) (fld val 13 0)).profShown (fld val 29 29) (fld val 25 24)
          (fld val 13 0) else w.profStored (fld val 29 29) (fld val 25 24) (fld val 13 0)) := by
      split
      · exact (profShown_frame _ _ _ _ (by rw [hself]; exact length_profData w)).2.2
      · exact OnlyRegs.refl _ _
    generalize hu : w.profStored (fld val 29 29) (fld val 25 24) (fld val 13 0) = u at *
    generalize (if bit val 30 then _ else _ : State) = t at *
    obtain ⟨hshowframe, hshowregs⟩ := hshown
    have htalm : t.alm = u.alm := by rw [hshowframe]
    rw [hdata] at hself hprof
    rw [hbank, halm] at hactive
    rw [hbank] at hidle
    refine ⟨?_, fun k hk => ?_, fun h => ?_, fun h => ⟨?_, ?_⟩, fun a ha => ?_, ?_⟩
    · rw [State.profile, htalm]
      exact hself
    · dsimp only
      rw [htalm, hprof, halm]
      exact SMap.get_set_other _ _ _ _ _ fun heq => hk (List.mem_singleton.mpr heq)
    · rw [htalm]
      exact hactive h
    · obtain ⟨hchanged, -⟩ := hidle h
      rw [State.isChanged, State.isChanged, halm] at hchanged
      rw [State.isChanged, htalm]
      exact hchanged
    · obtain ⟨-, prof, changed, hstored⟩ := hidle h
      rw [hshowframe, hstored, hsel]
    · refine (hshowregs a ha).trans ((State.rd_of_regs (by rw [hframe]) a).trans (hselregs a ?_))
      exact fun h => ha (List.mem_cons.mpr (.inl (List.mem_singleton.mp h)))
    · rw [hshowframe, hframe, hsel]
  · intro val s hout
    have hsel : s.profSelWrite val = s.wrTyped Reg.almProfSel val := if_pos hout
    exact ⟨Runs.intro (congrArg Host.Outcome.next hsel) (s.onlyRegs_wrTyped val _),
      Runs.intro (congrArg Host.Outcome.next hsel) (s.onlyRegs_wrTyped val _)⟩
  · intro val s i hnone hread hin hlen hi
    refine Runs.intro (t := s.profSelWrite val) rfl ?_
    rw [profSelWrite_of_inside s hin, if_pos hread, if_neg (Bool.eq_false_iff.mp hnone)]
    obtain ⟨hsel, hselregs⟩ := s.onlyRegs_wrTyped val Reg.almProfSel
    have halm : (s.wrTyped Reg.almProfSel val).alm = s.alm := by rw [hsel]
    have hprof : ∀ bank kind idx, (s.wrTyped Reg.almProfSel val).profile bank kind idx = s.profile bank kind idx := fun bank kind idx => by
      rw [State.profile, halm]
      rfl
    obtain ⟨hwords, hchanged, hshown⟩ := profShown_frame (s.wrTyped Reg.almProfSel val) (fld val 29 29) (fld val 25 24) (fld val 13 0)
      (by rw [hprof]; exact hlen)
    rw [hwords i hi, hchanged, hprof, State.isChanged, halm]
    exact ⟨rfl, rfl, (OnlyRegs.mono ⟨hsel, hselregs⟩ (by decide)).comp hshown⟩
  · intro val s x y hwrite hx hy
    refine Runs.intro (t := s.polSelWrite val) rfl ?_
    rw [polSelWrite_eq, if_pos hwrite]
    obtain ⟨hsel, hselregs⟩ := s.onlyRegs_wrTyped val Reg.almPolSel
    have hcfg : (s.wrTyped Reg.almPolSel val).rd Reg.almPolCfg = s.rd Reg.almPolCfg := State.rd_wrTyped_other s val (by decide)
    have halm : (s.wrTyped Reg.almPolSel val).alm = s.alm := by rw [hsel]
    have hpol : ∀ k, (s.wrTyped Reg.almPolSel val).policer k = s.policer k := fun k => by
      rw [State.policer, halm]
      rfl
    have hfresh := polFresh_of_onlyRegs ⟨hsel, hselregs⟩ (by decide) (by decide) y
    generalize s.wrTyped Reg.almPolSel val = w at *
    obtain ⟨hself, hother, pol, hbound⟩ := polBound_frame w (fld val 17 0) y (by rw [hpol, hcfg, ← hx, hy])
    rw [hpol, ← hx, hfresh] at hself
    have hshown : OnlyRegs polRegs (w.polBound (fld val 17 0))
        (if bit val 30 then (w.polBound (fld val 17 0)).polShown (fld val 17 0) else w.polBound (fld val 17 0)) := by
      split
      · exact (polShown_frame _ _).2
      · exact OnlyRegs.refl _ _
    generalize hu : w.polBound (fld val 17 0) = u at *
    generalize (if bit val 30 then _ else _ : State) = t at *
    obtain ⟨hshowframe, hshowregs⟩ := hshown
    have htpol : ∀ k, t.policer k = u.policer k := fun k => by
      rw [hshowframe]
      rfl
    refine ⟨(htpol _).trans hself, fun k hk => (htpol k).trans ((hother k hk).trans (hpol k)), fun a ha => ?_, ?_⟩
    · refine (hshowregs a ha).trans ((State.rd_of_regs (by rw [hbound]) a).trans (hselregs a ?_))
      exact fun h => ha (List.mem_cons.mpr (.inl (List.mem_singleton.mp h)))
    · rw [hshowframe, hbound, hsel]
  · intro val s hread
    obtain ⟨hsel, hselregs⟩ := s.onlyRegs_wrTyped val Reg.almPolSel
    refine ⟨fun hnone => Runs.intro (t := s.polSelWrite val) rfl ?_, Runs.intro (t := s.polSelWrite val) rfl ?_⟩
    · rw [polSelWrite_eq, if_pos hread, if_neg (Bool.eq_false_iff.mp hnone)]
      obtain ⟨hcfg, hshown⟩ := polShown_frame (s.wrTyped Reg.almPolSel val) (fld val 17 0)
      have halm : (s.wrTyped Reg.almPolSel val).alm = s.alm := by rw [hsel]
      rw [State.policer, halm] at hcfg
      exact ⟨hcfg, (OnlyRegs.mono ⟨hsel, hselregs⟩ (by decide)).comp hshown⟩
    · rw [polSelWrite_eq, if_pos hread]
      generalize (if bit val 31 then _ else _ : State) = u
      obtain ⟨hcfg, hframe, -⟩ := polShown_frame u (fld val 17 0)
      have hpol : (u.polShown (fld val 17 0)).policer (fld val 17 0) = u.policer (fld val 17 0) := by
        rw [hframe]
        rfl
      rw [hpol]
      exact hcfg
  · intro val s hgo hsame hother
    refine Runs.intro (t := s.almCommitWrite val) rfl ?_
    have hrun : s.almCommitWrite val = (s.wrTyped Reg.almCommit val).almRequest (fld val 0 0) := by
      rw [State.almCommitWrite, hgo, hsame]
      rfl
    have hbank : (s.wrTyped Reg.almCommit val).activeBank Reg.almCommit = s.almBank := s.fld_wrTyped_kept val (by decide)
    have hcount : (s.wrTyped Reg.almCommit val).fld Reg.almCommit 15 8 = s.fld Reg.almCommit 15 8 := s.fld_wrTyped_kept val (by decide)
    obtain ⟨hframe, hregs⟩ := s.onlyRegs_wrTyped val Reg.almCommit
    rw [← hbank] at hother
    rw [hrun, ← hcount]
    generalize s.wrTyped Reg.almCommit val = u at *
    obtain ⟨hnew, hswitches, hdone, hchanged, hbut, hprof, regs, alm, halm⟩ := almRequest_other u hother (Nat.mod_lt _ (by decide))
    refine ⟨hnew, hswitches, hdone, hchanged, fun a ha => (hbut a ha).trans (hregs a ha), ?_, hprof.trans ?_⟩
    · rw [halm, hframe]
    · rw [hframe]
  · intro val s hgo hsame hactive
    refine Runs.intro (t := s.almCommitWrite val) rfl ?_
    have hrun : s.almCommitWrite val = (s.wrTyped Reg.almCommit val).almRequest (fld val 0 0) := by
      rw [State.almCommitWrite, hgo, hsame]
      rfl
    have hbank : (s.wrTyped Reg.almCommit val).activeBank Reg.almCommit = s.almBank := s.fld_wrTyped_kept val (by decide)
    obtain ⟨hpending, hkept, -⟩ := State.bankRequest_active _ Reg.almCommit (hbank.trans hactive)
    rw [hrun, almRequest_active _ (hbank.trans hactive)]
    exact ⟨hkept.trans hbank, hpending, (s.onlyRegs_wrTyped _ _).comp (State.onlyRegs_bankRequest _ _)⟩
  · intro val s hsame
    refine Runs.intro (t := s.almCommitWrite val) rfl ?_
    have hwrite : s.almCommitWrite val = s.wrTyped Reg.almCommit val := by
      rw [State.almCommitWrite, hsame, Bool.not_true, Bool.and_false]
      rfl
    rw [hwrite]
    exact ⟨s.fld_wrTyped_kept val (by decide), s.onlyRegs_wrTyped _ _⟩
  · intro coarse at' s u hu hnone
    refine congrArg Host.Outcome.next ?_
    rw [← hu]
    have hdue : u.wheelDue coarse = [] := by
      refine List.map_eq_nil_iff.mpr (List.filter_eq_nil_iff.mpr fun e he hdue => ?_)
      have hlate := List.all_eq_true.mp hnone e he
      cases hw : e.2.wheel with
      | none => simp [hw] at hdue
      | some w =>
        simp only [hw, Option.all_some, Option.any_some, Bool.or_eq_true, bne_iff_ne, Bool.and_eq_true, beq_iff_eq,
          decide_eq_true_eq] at hlate hdue
        rcases hlate with hlate | hlate
        · exact hlate hdue.1
        · omega
    rw [wheelSlot_eq, hdue]
    rfl
  · intro coarse at' s u k x p b hu hk hx hp hb
    have hrun : exec (.wheelSlot coarse at') s = .next ((u.setNode (k / 524288) (k % 524288) { x with wheel := none, max := b }).wheelPut
        (k / 524288) (k % 524288)) := by
      refine congrArg Host.Outcome.next ?_
      rw [← hu, wheelSlot_eq, show u.wheelDue coarse = [k] from hk, hb, hp, hx]
      rfl
    have hself : (u.setNode (k / 524288) (k % 524288) { x with wheel := none, max := b }).node (k / 524288) (k % 524288) =
        { x with wheel := none, max := b } := node_setNode_self ..
    obtain ⟨hoff, hon⟩ := wheelPut_frame (u.setNode (k / 524288) (k % 524288) { x with wheel := none, max := b }) (k / 524288) (k % 524288)
    rw [hself] at hoff hon
    have hshaper : (u.setNode (k / 524288) (k % 524288) { x with wheel := none, max := b }).shaper { x with wheel := none, max := b } = p := by
      rw [hp]
      rfl
    rw [hshaper] at hoff hon
    refine ⟨fun hfull => Runs.intro hrun ?_, fun hbelow hrate => Runs.intro hrun ?_⟩
    · rw [hoff hfull]
      refine ⟨node_setNode_self .., fun j hj => ?_, rfl⟩
      have hne : j ≠ nodeKey (k / 524288) (k % 524288) := by simpa using hj
      exact (SMap.get_set_other _ _ _ _ _ hne).trans (SMap.get_set_other _ _ _ _ _ hne)
    · obtain ⟨hwheel, hmax, hregs⟩ := hon hbelow hrate
      exact ⟨hwheel, hmax, hregs⟩

end Sys2Proof.Machine
end

section
/-!
PROOFS. Gate lists of the network ports (O33; R267 to R269).
-/
open Sys2Proof.Safety
namespace Sys2Proof.Machine

/-- The oper list of port 0 runs, and its one entry holds a gate state of nine bits. -/
def wideGates : State :=
  { State.reset with
    regs := [(Reg.almGateCfg 0, 0x80000000)]
    alm := { State.reset.alm with gates := [(0, { valid := true, len := 1 })], entries := [(1024, (256, 5))] } }

theorem gateRuns_wideGates : wideGates.gateRuns 0 = true := by decide

theorem operSegs_wideGates : wideGates.operSegs 0 = [(256, 5)] := by decide

/-- Time leaves the gates, and whether a list runs. -/
theorem gateRuns_advance (s : State) (at' : Raw) : (s.advance at').gateRuns 0 = s.gateRuns 0 ∧ (s.advance at').operSegs 0 = s.operSegs 0 := by
  have hcfg : (s.advance at').rd (Reg.almGateCfg 0) = s.rd (Reg.almGateCfg 0) := s.rd_elapse _ _ (by decide)
  have halm : (s.advance at').alm = s.alm := by rw [State.advance, s.elapse_frame]
  have hgates : (s.advance at').gates 0 = s.gates 0 := by
    rw [State.gates, halm]
    rfl
  have hkey : ∀ e, (s.advance at').gateKey 0 true e = s.gateKey 0 true e := fun e => by rw [State.gateKey, hgates, State.gateKey]
  have hlist : ∀ n, (s.advance at').gateList 0 true n = s.gateList 0 true n := fun n =>
    List.map_congr_left fun e _ => by rw [State.gateEntry, hkey, halm, State.gateEntry]
  constructor
  · rw [State.gateRuns, State.bit, hcfg, hgates, hlist]
    rfl
  · rw [State.operSegs, hgates, hlist]
    rfl

/-- Whatever the time, the one entry of the cycle is the present one. -/
theorem gateNow_of_one {s : State} {m g d : Nat} (hruns : s.gateRuns m = true) (hsegs : s.operSegs m = [(g, d)]) : s.gateNow m = g := by
  rw [State.gateNow, if_pos hruns, State.operFrom, hsegs, segsFrom]
  split <;> rfl

theorem gateNow_wideGates : (wideGates.advance 0).gateNow 0 = 256 :=
  gateNow_of_one ((gateRuns_advance _ _).1.trans gateRuns_wideGates) ((gateRuns_advance _ _).2.trans operSegs_wideGates)

/-- Refutes O33: ALM_GATE_STATUS shows eight bits of the gate state, and nothing says that the entries of an arbitrary state hold
no more. -/
theorem not_gateListsSwitchAtTheirStart : ¬ Obligations.GateListsSwitchAtTheirStart := by
  rintro ⟨-, -, -, -, -, -, -, -, -, hboundary⟩
  obtain ⟨t, -, hshows, -⟩ := hboundary 0 0 wideGates _ rfl
  have hwide := (hshows ((gateRuns_advance _ _).1.trans gateRuns_wideGates)).trans gateNow_wideGates
  have hnarrow : t.fld (Reg.almGateStatus (0 : Fin 24).val) 7 0 < 2 ^ 8 := Nat.mod_lt _ (by decide)
  omega

end Sys2Proof.Machine
end

section
/-!
PROOFS. Bookings and CTI reports (O36; R163 to R166).
-/
open Sys2Proof.Safety
namespace Sys2Proof.Machine

/-- What an accepted booking shows and announces. -/
theorem showBooking_frame (s : State) (e : BookEnd) :
    (s.showBooking e).rd Reg.dbaBookStatus =
        BitVec.ofNat 32 (2 ^ 30 + ofBool e.late * 2 ^ 29 + e.result * 2 ^ 24 + min e.accepted 0xFFFFFF) ∧
      (s.showBooking e).rd Reg.dbaBookFirstFrame = BitVec.ofNat 32 e.first ∧ Raised (leafOf 12 6) (s.showBooking e) ∧
      Reports ([Reg.dbaBookStatus, Reg.dbaBookFirstFrame] ++ eventRegs (leafOf 12 6)) s (s.showBooking e) := by
  refine ⟨s.rd_showBooking_status e, ?_, raised_raise _ _ _ _ _ _, s.showBooking_frame e, fun a ha => ?_⟩
  · rw [State.showBooking, (reports_event _ _ _).2 _ (by decide), State.rd_wrNat, if_pos rfl]
  · obtain ⟨hshown, hevent⟩ : a ∉ [Reg.dbaBookStatus, Reg.dbaBookFirstFrame] ∧ a ∉ eventRegs (leafOf 12 6) := by
      simpa only [List.mem_append, not_or] using ha
    obtain ⟨hstatus, hfirst⟩ : a ≠ Reg.dbaBookStatus ∧ a ≠ Reg.dbaBookFirstFrame := by simpa using hshown
    rw [State.showBooking, (reports_event _ _ _).2 a hevent, State.rd_wrNat, if_neg hfirst, State.rd_wrNat, if_neg hstatus]

/-- A booking for a port that does not exist, or a context that is not VALID. -/
theorem book_of_invalid {s : State} {n a : Nat} (t vol spread train : Nat) (h : 48 ≤ n ∨ (s.alloc n a).valid = false) :
    s.book n a t vol spread train = (⟨6, false, 0, 0⟩, s.bump Reg.dbaBookRefused) := by
  rw [State.book]
  refine if_pos ?_
  rcases h with h | h
  · exact .inl h
  · exact .inr (by rw [h]; rfl)

/-- A booking counts itself as late or refused, and no CTI report. -/
theorem rd_book (s : State) (n a t vol spread train : Nat) :
    RegsBut [Reg.dbaBookLate, Reg.dbaBookRefused] s (s.book n a t vol spread train).2 := by
  intro b hb
  obtain ⟨hlate, hrefused⟩ : b ≠ Reg.dbaBookLate ∧ b ≠ Reg.dbaBookRefused := by simpa using hb
  have hbump : ∀ (t : State) (c : Nat), b ≠ c → (t.bump c).rd b = t.rd b := fun t c hc => by rw [State.rd_bump, if_neg hc]
  have hlater : ∀ (p : Prop) [Decidable p], (if p then s.bump Reg.dbaBookLate else s).rd b = s.rd b := by
    intro p _
    split
    · exact hbump _ _ hlate
    · rfl
  have hplaced : ∀ (t : State) (p : Prop) [Decidable p] (books : List Booking),
      (if p then t else { t with rck.books := books }).rd b = t.rd b := by
    intro t p _ books
    split <;> rfl
  have hcounted : ∀ (t : State) (p : Prop) [Decidable p], (if p then t.bump Reg.dbaBookRefused else t).rd b = t.rd b := by
    intro t p _
    split
    · exact hbump _ _ hrefused
    · rfl
  unfold State.book
  dsimp only
  split
  · exact hbump _ _ hrefused
  · split
    · exact hbump _ _ hrefused
    · split
      · exact hbump _ _ hrefused
      · exact (hcounted _ _).trans ((hplaced _ _ _).trans (hlater _))

theorem satAdd_zero (w : Word) : satAdd w 0 = w := by
  refine BitVec.eq_of_toNat_eq ?_
  have := w.isLt
  rw [satAdd, BitVec.toNat_ofNat]
  omega

theorem satAdd_satAdd (w : Word) (m n : Nat) : satAdd (satAdd w m) n = satAdd w (m + n) := by
  have hm : (satAdd w m).toNat = min (w.toNat + m) 0xFFFFFFFF := by
    rw [satAdd, BitVec.toNat_ofNat]
    omega
  rw [satAdd, hm, satAdd]
  congr 1
  omega

/-- The entries of a good CTI report, each booked, counted and announced (R166). -/
def State.bookEntries (s : State) (w : Word) (entries : List (Nat × Nat × Nat)) : State :=
  entries.foldl
    (fun s e =>
      ((s.book (Machine.fld w 29 24) (Machine.fld w 11 0) e.1 e.2.2 (Nat.min 8 (Nat.max 1 (ceilDiv e.2.1 125000)))
        (Machine.fld w 19 16)).2.bump Reg.dbaCtiAccept).event (leafOf 12 6) 0) s

theorem bookEntries_frame (w : Word) (entries : List (Nat × Nat × Nat)) (s : State) :
    (s.bookEntries w entries).cmp = s.cmp ∧
      (s.bookEntries w entries).rd Reg.dbaCtiAccept = satAdd (s.rd Reg.dbaCtiAccept) entries.length ∧
      (s.bookEntries w entries).rd Reg.dbaCtiBad = s.rd Reg.dbaCtiBad := by
  induction entries generalizing s with
  | nil => exact ⟨rfl, (satAdd_zero _).symm, rfl⟩
  | cons e es ih =>
    have hbook := rd_book s (Machine.fld w 29 24) (Machine.fld w 11 0) e.1 e.2.2 (Nat.min 8 (Nat.max 1 (ceilDiv e.2.1 125000)))
      (Machine.fld w 19 16)
    have hframe := State.book_frame s (Machine.fld w 29 24) (Machine.fld w 11 0) e.1 e.2.2 (Nat.min 8 (Nat.max 1 (ceilDiv e.2.1 125000)))
      (Machine.fld w 19 16)
    have hcons : s.bookEntries w (e :: es) = (((s.book (Machine.fld w 29 24) (Machine.fld w 11 0) e.1 e.2.2
      (Nat.min 8 (Nat.max 1 (ceilDiv e.2.1 125000))) (Machine.fld w 19 16)).2.bump Reg.dbaCtiAccept).event (leafOf 12 6) 0).bookEntries
        w es := rfl
    rw [hcons]
    generalize (s.book _ _ _ _ _ _).2 = u at hbook hframe
    obtain ⟨hevent, hregs⟩ := reports_event (u.bump Reg.dbaCtiAccept) (leafOf 12 6) 0
    obtain ⟨hcmp, haccept, hbad⟩ := ih ((u.bump Reg.dbaCtiAccept).event (leafOf 12 6) 0)
    refine ⟨?_, ?_, ?_⟩
    · rw [hcmp, hevent, hframe]
      rfl
    · rw [haccept, hregs _ (by decide), State.rd_bump, if_pos rfl, hbook _ (by decide), satAdd_satAdd, List.length_cons, Nat.add_comm]
    · rw [hbad, hregs _ (by decide), State.rd_bump, if_neg (by decide), hbook _ (by decide)]

/-- A write of DBA_BOOK_CMD with GO. -/
theorem bookCmdWrite_go {s u : State} {val : Word} (hu : u = s.bookSettle) (hgo : Machine.bit val 31 = true) :
    s.bookCmdWrite val = (if (u.wrTyped Reg.dbaBookCmd val).rck.booking.isSome then
        ((u.wrTyped Reg.dbaBookCmd val).setFld Reg.dbaBookStatus 27 24 5).bump Reg.dbaBookRefused
      else { (u.wrTyped Reg.dbaBookCmd val).wrNat Reg.dbaBookStatus (2 ^ 31) with
        rck.booking := some
          { n := u.fld Reg.dbaBookTarget 21 16, a := u.fld Reg.dbaBookTarget 11 0,
            t := ((u.rd Reg.dbaBookSecLo).toNat + 2 ^ 32 * u.fld Reg.dbaBookSecHi 15 0) * 1000000000 + u.fld Reg.dbaBookNs 29 0,
            vol := u.fld Reg.dbaBookVol 23 0, spread := min 8 (max 1 (Machine.fld val 3 0)), train := Machine.fld val 11 8,
            at' := u.raw } }) := by
  have hkept : ∀ a, a ≠ Reg.dbaBookCmd → (u.wrTyped Reg.dbaBookCmd val).rd a = u.rd a := fun a ha => State.rd_wrTyped_other u val ha
  have hraw : (u.wrTyped Reg.dbaBookCmd val).raw = u.raw := by rw [(u.onlyRegs_wrTyped val _).1]
  rw [State.bookCmdWrite, ← hu, hgo]
  simp only [State.fld, hkept Reg.dbaBookTarget (by decide), hkept Reg.dbaBookSecLo (by decide), hkept Reg.dbaBookSecHi (by decide),
    hkept Reg.dbaBookNs (by decide), hkept Reg.dbaBookVol (by decide), hraw]
  rfl

/-- The entries of the CTI map are registers. -/
theorem ctiEntry_setCti (s : State) (fs : List Frame) (client : Nat) :
    ({ s with cmp.cti := fs } : State).ctiEntry client = s.ctiEntry client := by
  simp only [State.ctiEntry, State.bit, State.rd]

/-- Settles O36. -/
theorem bookingsAnswerWithAResult : Obligations.BookingsAnswerWithAResult := by
  refine ⟨?_, ?_, ?_, ?_, ?_, ?_⟩
  · intro val t0 s u hu ht0 hgo
    obtain ⟨hframe, hregs⟩ := u.onlyRegs_wrTyped val Reg.dbaBookCmd
    have hbooking : (u.wrTyped Reg.dbaBookCmd val).rck = u.rck := by rw [hframe]
    refine ⟨fun hnone => Runs.intro (t := s.bookCmdWrite val) rfl ?_, fun hsome => Runs.intro (t := s.bookCmdWrite val) rfl ?_⟩
    · rw [bookCmdWrite_go hu hgo, hbooking, hnone, ← ht0, if_neg (by simp)]
      refine ⟨rfl, (State.rd_wrNat (u.wrTyped Reg.dbaBookCmd val) Reg.dbaBookStatus (2 ^ 31) Reg.dbaBookStatus).trans (if_pos rfl), fun a ha => ?_, ?_⟩
      · obtain ⟨hcmd, hstatus⟩ : a ≠ Reg.dbaBookCmd ∧ a ≠ Reg.dbaBookStatus := by simpa using ha
        exact (State.rd_wrNat _ _ (2 ^ 31) _).trans ((if_neg hstatus).trans (hregs a (by simpa using hcmd)))
      · rw [hframe]
        rfl
    · rw [bookCmdWrite_go hu hgo, hbooking, if_pos (by simpa using Option.isSome_iff_ne_none.mpr hsome)]
      refine ⟨?_, ?_, ?_⟩
      · rw [State.fld, State.rd_bump, if_neg (by decide)]
        exact State.fld_setFld_self _ _ (by decide) (by decide) _
      · rw [State.rd_bump, if_pos rfl, State.rd_setFld, if_neg (by decide), State.rd_wrTyped_other u val (by decide)]
      · exact (((u.onlyRegs_wrTyped val Reg.dbaBookCmd).mono (by simp)).wr (by simp) _).wr (by simp) _
  · intro val s hno
    refine Runs.intro (t := s.bookCmdWrite val) rfl ?_
    rw [State.bookCmdWrite, hno]
    exact s.bookSettle.onlyRegs_wrTyped val _
  · intro rep s u r e hcti hbooking hat hbook
    have hrun : exec (.ctiReport rep) s = .next (u.showBooking e) := by
      refine congrArg Host.Outcome.next ?_
      have hsettle : s.bookSettle = u.showBooking e := by
        rw [State.bookSettle, hbooking]
        dsimp only
        rw [if_neg hat, State.bookTake_of_some hbooking, hbook]
      have hnone : (u.showBooking e).cmp.cti = [] := by
        have hcmp : (({ s with rck.booking := none } : State).book r.n r.a r.t r.vol r.spread r.train).2.cmp = s.cmp := by
          rw [State.book_frame]
        rw [hbook] at hcmp
        rw [u.showBooking_frame e]
        exact (congrArg Cmp.cti hcmp).trans hcti
      rw [hsettle, State.ctiReport, hnone]
    obtain ⟨hstatus, hfirst, hraised, hframe, hregs⟩ := showBooking_frame u e
    refine Runs.intro hrun ⟨hstatus, hfirst, by rw [hframe], hraised, fun hbad => ?_⟩
    have hinvalid := book_of_invalid (s := { s with rck.booking := none }) r.t r.vol r.spread r.train hbad
    obtain ⟨rfl, rfl⟩ := Prod.mk.inj (hbook.symm.trans hinvalid)
    refine Runs.intro hrun ⟨hstatus, ?_, by rw [hframe]; rfl, ?_⟩
    · rw [hregs _ (by decide), State.rd_bump, if_pos rfl]
      rfl
    · refine ⟨hframe, fun a ha => ?_⟩
      have hshown : a ∉ [Reg.dbaBookStatus, Reg.dbaBookFirstFrame] ++ eventRegs (leafOf 12 6) ∧ a ≠ Reg.dbaBookRefused := by
        simp only [List.cons_append, List.nil_append, List.mem_cons, not_or] at ha ⊢
        tauto
      rw [hregs a hshown.1, State.rd_bump, if_neg hshown.2]
  · intro rep s u f fs hu hcti hbad
    refine Runs.intro (t := s.bookSettle.ctiReport rep) rfl ?_
    have hreport : u.ctiReport rep = (({ u with cmp.cti := fs } : State).bump Reg.dbaCtiBad).event (leafOf 12 7) 0 := by
      rw [State.ctiReport, hcti]
      have hnone : (rep.bind fun r => (({ u with cmp.cti := fs } : State).ctiEntry r.client).map fun w => (r, w)) = none := by
        cases rep with
        | none => rfl
        | some r =>
          rw [Option.bind_some] at hbad ⊢
          rw [ctiEntry_setCti, hbad]
          rfl
      dsimp only
      rw [hnone]
    obtain ⟨hframe, hregs⟩ := reports_event (({ u with cmp.cti := fs } : State).bump Reg.dbaCtiBad) (leafOf 12 7) 0
    rw [← hu, hreport]
    refine ⟨by rw [hframe]; rfl, ?_, by rw [hframe]; rfl, raised_raise _ _ _ _ _ _⟩
    rw [hregs _ (by decide), State.rd_bump, if_pos rfl]
    rfl
  · intro r w s u f fs hu hcti hentry
    refine Runs.intro (t := s.bookSettle.ctiReport (some r)) rfl ?_
    have hreport : u.ctiReport (some r) = ({ u with cmp.cti := fs } : State).bookEntries w (r.entries.take ctiMax) := by
      rw [State.ctiReport, hcti]
      have hsome : ((some r).bind fun r => (({ u with cmp.cti := fs } : State).ctiEntry r.client).map fun w => (r, w)) = some (r, w) := by
        rw [Option.bind_some, ctiEntry_setCti, hentry]
        rfl
      dsimp only
      rw [hsome]
      rfl
    obtain ⟨hcmp, haccept, hbad⟩ := bookEntries_frame w (r.entries.take ctiMax) { u with cmp.cti := fs }
    rw [← hu, hreport, hcmp, haccept, hbad, List.length_take]
    exact ⟨rfl, rfl, rfl⟩
  · intro rep s hcti hbooking
    refine congrArg Host.Outcome.next ?_
    have hsettle : s.bookSettle = s := by rw [State.bookSettle, hbooking]
    rw [hsettle, State.ctiReport, hcti]

end Sys2Proof.Machine
end

section
/-!
PROOFS. ONU contexts (chapter 06): PLOAM messages, supervision, the SN table (O51) and the host commands (O52).
-/
open Sys2Proof.Safety
namespace Sys2Proof.Machine

/-! ### Contexts, channels and records -/

theorem onu_setOnu_self (s : State) (n id : Nat) (x : Onu) : (s.setOnu n id x).onu n id = x := by
  unfold State.onu State.setOnu
  exact SMap.get_set_self ..

theorem actCh_setActCh (s : State) (j : Nat) (x : ActCh) (k : Nat) :
    (s.setActCh j x).actCh k = if k = j then x else s.actCh k := by
  unfold State.actCh State.setActCh
  exact SMap.get_set ..

theorem sameBut_setActCh (s : State) (j : Nat) (x : ActCh) : SameBut State.actCh [j] s (s.setActCh j x) := fun k hk =>
  (actCh_setActCh ..).trans (if_neg (by simpa using hk))

/-- A record in the host receive queue changes no context; without room it is counted and announced (R127). -/
theorem rxPush_act (s : State) (type n c id cause : Nat) (data : List Word) :
    ∃ rx, (s.rxPush type n c id cause data).act = { s.act with rx := rx } ∧
      rx.length = min (s.act.rx.length + 1) (max 4096 s.act.rx.length) := by
  unfold State.rxPush
  split
  · next h =>
    refine ⟨_, rfl, ?_⟩
    rw [rxMax] at h
    rw [List.length_append, List.length_singleton]
    omega
  · next h =>
    rw [rxMax] at h
    refine ⟨s.act.rx, ?_, by omega⟩
    rw [State.event, State.raise_frame]
    rfl

theorem rxPush_of_room {s : State} (hroom : s.act.rx.length < 4096) (type n c id cause : Nat) (data : List Word) :
    s.rxPush type n c id cause data = { s with act.rx := s.act.rx ++
      [⟨BitVec.ofNat 32 (2 ^ 31 + type * 2 ^ 29 + n * 2 ^ 23 + c * 2 ^ 22 + id * 2 ^ 12 + cause * 2 ^ 8), data⟩] } :=
  if_pos hroom

theorem rxPush_of_full {s : State} (hfull : 4096 ≤ s.act.rx.length) (type n c id cause : Nat) (data : List Word) :
    s.rxPush type n c id cause data = (s.bump Reg.actPloamRxDrop).event (leafOf 12 0) 0 :=
  if_neg (Nat.not_lt.mpr hfull)

/-! ### What a context's leaving changes (R141, R174) -/

/-- A key exchange that ends changes no context. -/
theorem exchLeave_act (s : State) (n id : Nat) : (s.exchLeave n id).act = s.act := by
  unfold State.exchLeave
  split
  · rw [State.exchEnd, State.event, State.raise_frame]
  · rfl

/-- The keys of a context that leaves go, and no context changes. -/
theorem keysFree_act (s : State) (n id : Nat) : (s.keysFree n id).act = s.act := by
  unfold State.keysFree
  exact State.each_induct (P := fun t => t.act = s.act) rfl fun _ _ _ ht => ht

/-- A context that becomes FREE leaves the command that is held, and the receive queue, as they are. -/
theorem onuFree_act (s : State) (n id : Nat) :
    (s.onuFree n id).onu n id = {} ∧ (s.onuFree n id).act.cmd = s.act.cmd ∧ (s.onuFree n id).act.rx = s.act.rx := by
  unfold State.onuFree
  dsimp only
  have hleft : ((s.onuLeave n id).keysFree n id).act.cmd = s.act.cmd ∧ ((s.onuLeave n id).keysFree n id).act.rx = s.act.rx := by
    have hrelease : ((s.onuLeave n id).act.cmd = (s.exchLeave n id).act.cmd) ∧ (s.onuLeave n id).act.rx = (s.exchLeave n id).act.rx :=
      ⟨rfl, rfl⟩
    rw [keysFree_act, hrelease.1, hrelease.2, exchLeave_act]
    exact ⟨rfl, rfl⟩
  generalize (s.onuLeave n id).keysFree n id = u at hleft
  exact ⟨onu_setOnu_self u n id {}, hleft.1, hleft.2⟩

/-! ### Host commands (R144) -/

theorem rangeReserve_cmd (s : State) (n id : Nat) :
    (s.rangeReserve n id).act.cmd = s.act.cmd ∧
      ∃ g, (s.rangeReserve n id).onu n id = { s.onu n id with rangeAt := g } := by
  unfold State.rangeReserve
  dsimp only
  split
  · exact ⟨rfl, _, onu_setOnu_self ..⟩
  · exact ⟨rfl, _, onu_setOnu_self ..⟩

theorem deactivate_act (s : State) (n id : Nat) :
    (s.deactivate n id).onu n id = {} ∧ (s.deactivate n id).act.cmd = s.act.cmd ∧
      (s.deactivate n id).act.rx.length = min (s.act.rx.length + 1) (max 4096 s.act.rx.length) := by
  unfold State.deactivate
  obtain ⟨hfree, hcmd, hrx⟩ := onuFree_act ((s.sendSn n id .deactivateOnuId).reportOnu n id 8) n id
  unfold State.reportOnu State.report at *
  dsimp only at *
  obtain ⟨rx, hact, hlen⟩ := rxPush_act (s.sendSn n id .deactivateOnuId) 1 n ((s.sendSn n id .deactivateOnuId).onu n id).ch id 8
    [((s.sendSn n id .deactivateOnuId).onu n id).vendor, ((s.sendSn n id .deactivateOnuId).onu n id).serial,
      BitVec.ofInt 32 ((s.sendSn n id .deactivateOnuId).onu n id).m]
  refine ⟨hfree, ?_, ?_⟩
  · rw [hcmd, hact]
    rfl
  · rw [hrx, hact]
    exact hlen

theorem onu_ploamSend (s : State) (j : Nat) (m : PloamMsg) (n id : Nat) : (s.ploamSend j m).onu n id = s.onu n id := rfl

theorem cmd_ploamSend (s : State) (j : Nat) (m : PloamMsg) : (s.ploamSend j m).act.cmd = s.act.cmd := rfl

/-- A Ranging_Time gives the context its EqD. -/
theorem rangingTime_act (s : State) (n id eqd : Nat) (toOp : Bool) :
    (s.rangingTime n id eqd toOp).act.cmd = s.act.cmd ∧
      (s.rangingTime n id eqd toOp).onu n id = { s.onu n id with eqd := eqd, ask := true, run := [], runFrom := none } := by
  unfold State.rangingTime
  dsimp only
  rw [cmd_ploamSend, onu_ploamSend, onu_setOnu_self]
  exact ⟨rfl, rfl⟩

/-- SET_EQD clears the context's misconnection and gives it the EqD. -/
theorem setEqd_act (s : State) (n c id : Nat) (data ven ser : Word) :
    (s.cmdEffect 2 n c id data ven ser).act.cmd = s.act.cmd ∧
      ((s.cmdEffect 2 n c id data ven ser).onu n id).eqd = Machine.fld data 23 0 ∧
      ((s.cmdEffect 2 n c id data ven ser).onu n id).stuck = false := by
  have heffect : s.cmdEffect 2 n c id data ven ser =
      ((s.rangeRelease n id).setOnu n id { (s.rangeRelease n id).onu n id with stuck := false }).rangingTime n id (Machine.fld data 23 0) true := rfl
  rw [heffect]
  obtain ⟨hcmd, honu⟩ := rangingTime_act ((s.rangeRelease n id).setOnu n id { (s.rangeRelease n id).onu n id with stuck := false }) n id
    (Machine.fld data 23 0) true
  rw [onu_setOnu_self] at honu
  rw [hcmd, honu]
  exact ⟨rfl, rfl, rfl⟩

/-- A disabled context. -/
theorem disable_act (s : State) (n c id : Nat) (data ven ser : Word) :
    (s.cmdEffect 4 n c id data ven ser).act.cmd = s.act.cmd ∧ ((s.cmdEffect 4 n c id data ven ser).onu n id).st = .disabled := by
  have hleave : ∀ t : State, (t.onuLeave n id).act.cmd = t.act.cmd := fun t =>
    Eq.trans (b := (t.exchLeave n id).act.cmd) rfl (by rw [exchLeave_act])
  have heffect : s.cmdEffect 4 n c id data ven ser =
      ((s.sendSn n id .disableSerialNumber).onuLeave n id).setOnu n id { ((s.sendSn n id .disableSerialNumber).onuLeave n id).onu n id with st := .disabled } := rfl
  rw [heffect]
  rw [onu_setOnu_self]
  exact ⟨hleave _, rfl⟩

/-- RANGE clears the context's misses. -/
theorem range_act (s : State) (n c id : Nat) (data ven ser : Word) :
    (s.cmdEffect 6 n c id data ven ser).act.cmd = s.act.cmd ∧ ((s.cmdEffect 6 n c id data ven ser).onu n id).misses = 0 := by
  have heffect : s.cmdEffect 6 n c id data ven ser =
      ((s.rangeRelease n id).setOnu n id { (s.rangeRelease n id).onu n id with misses := 0 }).rangeReserve n id := rfl
  rw [heffect]
  obtain ⟨hcmd, g, honu⟩ := rangeReserve_cmd ((s.rangeRelease n id).setOnu n id { (s.rangeRelease n id).onu n id with misses := 0 }) n id
  rw [onu_setOnu_self] at honu
  rw [hcmd, honu]
  exact ⟨rfl, rfl⟩

/-- A context that the host assigns holds the serial number. -/
theorem assign_act (s : State) (n c id : Nat) (vendor serial : Word) (m : Int) (prof : Nat) (held : Bool) :
    (s.assign n c id vendor serial m prof held).act.cmd = s.act.cmd ∧
      ((s.assign n c id vendor serial m prof held).onu n id).st = .assigned ∧
      ((s.assign n c id vendor serial m prof held).onu n id).vendor = vendor ∧
      ((s.assign n c id vendor serial m prof held).onu n id).serial = serial := by
  unfold State.assign
  dsimp only
  rw [cmd_ploamSend, onu_ploamSend]
  obtain ⟨hcmd, g, honu⟩ := rangeReserve_cmd (s.setOnu n id { st := .assigned, ch := c, vendor := vendor, serial := serial, m := m, prof := prof, fresh := true }) n id
  rw [onu_setOnu_self] at honu
  rw [honu]
  exact ⟨hcmd, rfl, rfl, rfl⟩

/-- ASSIGN_ID gives the context the serial number. -/
theorem assignId_act (s : State) (n c id : Nat) (data ven ser : Word) :
    (s.cmdEffect 1 n c id data ven ser).act.cmd = s.act.cmd ∧ ((s.cmdEffect 1 n c id data ven ser).onu n id).st = .assigned ∧
      ((s.cmdEffect 1 n c id data ven ser).onu n id).vendor = ven ∧ ((s.cmdEffect 1 n c id data ven ser).onu n id).serial = ser := by
  have heffect : s.cmdEffect 1 n c id data ven ser =
      (s.seenOf n c ven ser).2.assign n c id ven ser (s.seenOf n c ven ser).1.1 (s.seenOf n c ven ser).1.2 false := rfl
  have hseen : (s.seenOf n c ven ser).2.act.cmd = s.act.cmd := by
    unfold State.seenOf
    split <;> rfl
  obtain ⟨hkept, hshown⟩ := assign_act (s.seenOf n c ven ser).2 n c id ven ser (s.seenOf n c ven ser).1.1 (s.seenOf n c ven ser).1.2 false
  rw [heffect]
  exact ⟨hkept.trans hseen, hshown⟩

/-- ACT_CMD_STATUS at the end of an accepted command. -/
theorem done_shows (t : State) (n id : Nat) :
    (t.wr Reg.actCmdStatus 0x40000000).act.cmd = t.act.cmd ∧ (t.wr Reg.actCmdStatus 0x40000000).rd Reg.actCmdStatus = 0x40000000 ∧
      (t.wr Reg.actCmdStatus 0x40000000).onu n id = t.onu n id := ⟨rfl, State.rd_wr_self .., rfl⟩

/-- The sequencer ends an accepted command with DONE. -/
theorem takeCmd_of_accepted {s : State} {v data ven ser : Word} {op : Nat} (hcmd : s.act.cmd = some (v, data, ven, ser))
    (hop : Machine.fld v 27 24 = op) (hon : s.engineOn = true) (hst : cmdAccepts op (s.onu (Machine.fld v 21 16) (Machine.fld v 9 0)).st = true)
    (hroom : op = 1 → (s.nonFree (Machine.fld v 21 16)).length < 512) :
    s.takeCmd op = (({ s with act.cmd := none } : State).cmdEffect op (Machine.fld v 21 16) (Machine.fld v 12 12) (Machine.fld v 9 0)
      data ven ser).wr Reg.actCmdStatus 0x40000000 := by
  rw [State.takeCmd, hcmd]
  dsimp only
  rw [if_neg (not_not_intro hop)]
  have haccepts : ¬ (!({ s with act.cmd := none } : State).engineOn || !cmdAccepts op
      (({ s with act.cmd := none } : State).onu (Machine.fld v 21 16) (Machine.fld v 9 0)).st) = true := by
    have hon' : ({ s with act.cmd := none } : State).engineOn = true := hon
    have hst' : cmdAccepts op (({ s with act.cmd := none } : State).onu (Machine.fld v 21 16) (Machine.fld v 9 0)).st = true := hst
    rw [hon', hst']
    exact Bool.false_ne_true
  rw [if_neg haccepts]
  exact if_neg fun h => absurd (hroom h.1) (Nat.not_lt.mpr h.2)

theorem takeCmd_of_full {s : State} {v data ven ser : Word} (hcmd : s.act.cmd = some (v, data, ven, ser))
    (hop : Machine.fld v 27 24 = 1) (hon : s.engineOn = true) (hst : cmdAccepts 1 (s.onu (Machine.fld v 21 16) (Machine.fld v 9 0)).st = true)
    (hfull : 512 ≤ (s.nonFree (Machine.fld v 21 16)).length) :
    s.takeCmd 1 = ({ s with act.cmd := none } : State).wrNat Reg.actCmdStatus (2 ^ 29 + 3) := by
  rw [State.takeCmd, hcmd]
  dsimp only
  rw [if_neg (not_not_intro hop)]
  have haccepts : ¬ (!({ s with act.cmd := none } : State).engineOn || !cmdAccepts 1
      (({ s with act.cmd := none } : State).onu (Machine.fld v 21 16) (Machine.fld v 9 0)).st) = true := by
    have hon' : ({ s with act.cmd := none } : State).engineOn = true := hon
    have hst' : cmdAccepts 1 (({ s with act.cmd := none } : State).onu (Machine.fld v 21 16) (Machine.fld v 9 0)).st = true := hst
    rw [hon', hst']
    exact Bool.false_ne_true
  rw [if_neg haccepts]
  exact if_pos ⟨rfl, hfull⟩

/-- A command that the state or the mode refuses ends with cause 2. -/
theorem takeCmd_of_refused {s : State} {v data ven ser : Word} {op : Nat} (hcmd : s.act.cmd = some (v, data, ven, ser))
    (hop : Machine.fld v 27 24 = op)
    (hno : s.engineOn = false ∨ cmdAccepts (Machine.fld v 27 24) (s.onu (Machine.fld v 21 16) (Machine.fld v 9 0)).st = false) :
    (s.takeCmd op).act = { s.act with cmd := none } ∧ (s.takeCmd op).rd Reg.actCmdStatus = 0x20000002 ∧
      RegsBut [Reg.actCmdStatus] s (s.takeCmd op) := by
  have hrun : s.takeCmd op = ({ s with act.cmd := none } : State).wrNat Reg.actCmdStatus (2 ^ 29 + 2) := by
    rw [State.takeCmd, hcmd]
    dsimp only
    rw [if_neg (not_not_intro hop)]
    refine if_pos ?_
    rw [hop] at hno
    have hon' : ({ s with act.cmd := none } : State).engineOn = s.engineOn := rfl
    have hst' : ({ s with act.cmd := none } : State).onu (Machine.fld v 21 16) (Machine.fld v 9 0) =
      s.onu (Machine.fld v 21 16) (Machine.fld v 9 0) := rfl
    rw [hon', hst']
    rcases hno with h | h <;> rw [h] <;> simp
  rw [hrun]
  refine ⟨rfl, (State.rd_wrNat _ _ _ _).trans (if_pos rfl), fun a ha => ?_⟩
  exact (State.rd_wrNat _ _ _ _).trans (if_neg (by simpa using ha))

/-- With no command of the operation held nothing changes. -/
theorem takeCmd_of_none {s : State} {op : Nat} (h : ((s.act.cmd.map fun q => Machine.fld q.1 27 24).all fun k => k != op) = true) :
    s.takeCmd op = s := by
  rw [State.takeCmd]
  split
  · rfl
  · next v data ven ser hcmd =>
    rw [hcmd] at h
    exact if_pos (by simpa using h)

/-- Settles O52. -/
theorem hostCommandsMoveOnuContexts : Obligations.HostCommandsMoveOnuContexts := by
  refine ⟨?_, ?_, ?_⟩
  · intro v data ven ser n id s hcmd hn hid hon
    subst hn hid
    refine ⟨?_, ?_, ?_, ?_, ?_, ?_, ?_⟩
    · intro hop hst hfull
      refine Runs.intro (t := s.takeCmd 1) rfl ?_
      rw [takeCmd_of_full hcmd hop hon hst hfull]
      refine ⟨rfl, (State.rd_wrNat _ _ _ _).trans (if_pos rfl), fun a ha => ?_⟩
      exact (State.rd_wrNat _ _ _ _).trans (if_neg (by simpa using ha))
    · intro hop hst hroom
      refine Runs.intro (t := s.takeCmd 1) rfl ?_
      rw [takeCmd_of_accepted hcmd hop hon hst fun _ => hroom]
      obtain ⟨hnone, hshown⟩ := assignId_act { s with act.cmd := none } (fld v 21 16) (fld v 12 12) (fld v 9 0) data ven ser
      obtain ⟨hcmd', hdone, honu⟩ := done_shows (({ s with act.cmd := none } : State).cmdEffect 1 (fld v 21 16) (fld v 12 12) (fld v 9 0)
        data ven ser) (fld v 21 16) (fld v 9 0)
      rw [hcmd', hdone, honu]
      exact ⟨hnone, rfl, hshown⟩
    · intro hop hst
      refine Runs.intro (t := s.takeCmd 2) rfl ?_
      rw [takeCmd_of_accepted hcmd hop hon hst (fun h => absurd h (by decide))]
      obtain ⟨hnone, heqd, hstuck⟩ := setEqd_act { s with act.cmd := none } (fld v 21 16) (fld v 12 12) (fld v 9 0) data ven ser
      obtain ⟨hcmd', hdone, honu⟩ := done_shows (({ s with act.cmd := none } : State).cmdEffect 2 (fld v 21 16) (fld v 12 12) (fld v 9 0)
        data ven ser) (fld v 21 16) (fld v 9 0)
      rw [hcmd', hdone, honu]
      exact ⟨hnone, rfl, heqd, hstuck⟩
    · intro hop hst
      refine Runs.intro (t := s.takeCmd 3) rfl ?_
      rw [takeCmd_of_accepted hcmd hop hon hst (fun h => absurd h (by decide))]
      obtain ⟨hfree, hnone, -⟩ := deactivate_act { s with act.cmd := none } (fld v 21 16) (fld v 9 0)
      obtain ⟨hcmd', hdone, honu⟩ := done_shows (({ s with act.cmd := none } : State).cmdEffect 3 (fld v 21 16) (fld v 12 12) (fld v 9 0)
        data ven ser) (fld v 21 16) (fld v 9 0)
      rw [hcmd', hdone, honu]
      exact ⟨hnone, rfl, hfree⟩
    · intro hop hst
      refine Runs.intro (t := s.takeCmd 4) rfl ?_
      rw [takeCmd_of_accepted hcmd hop hon hst (fun h => absurd h (by decide))]
      obtain ⟨hnone, hst'⟩ := disable_act { s with act.cmd := none } (fld v 21 16) (fld v 12 12) (fld v 9 0) data ven ser
      obtain ⟨hcmd', hdone, honu⟩ := done_shows (({ s with act.cmd := none } : State).cmdEffect 4 (fld v 21 16) (fld v 12 12) (fld v 9 0)
        data ven ser) (fld v 21 16) (fld v 9 0)
      rw [hcmd', hdone, honu]
      exact ⟨hnone, rfl, hst'⟩
    · intro hop hst
      refine Runs.intro (t := s.takeCmd 5) rfl ?_
      rw [takeCmd_of_accepted hcmd hop hon hst (fun h => absurd h (by decide))]
      obtain ⟨hfree, hnone, -⟩ := onuFree_act (({ s with act.cmd := none } : State).sendSn (fld v 21 16) (fld v 9 0)
        .enableSerialNumber) (fld v 21 16) (fld v 9 0)
      obtain ⟨hcmd', hdone, honu⟩ := done_shows (({ s with act.cmd := none } : State).cmdEffect 5 (fld v 21 16) (fld v 12 12) (fld v 9 0)
        data ven ser) (fld v 21 16) (fld v 9 0)
      rw [hcmd', hdone, honu]
      exact ⟨hnone, rfl, hfree⟩
    · intro hop hst
      refine Runs.intro (t := s.takeCmd 6) rfl ?_
      rw [takeCmd_of_accepted hcmd hop hon hst (fun h => absurd h (by decide))]
      obtain ⟨hnone, hmisses⟩ := range_act { s with act.cmd := none } (fld v 21 16) (fld v 12 12) (fld v 9 0) data ven ser
      obtain ⟨hcmd', hdone, honu⟩ := done_shows (({ s with act.cmd := none } : State).cmdEffect 6 (fld v 21 16) (fld v 12 12) (fld v 9 0)
        data ven ser) (fld v 21 16) (fld v 9 0)
      rw [hcmd', hdone, honu]
      exact ⟨hnone, rfl, hmisses⟩
  · intro v data ven ser s hcmd hno
    exact ⟨fun hop => Runs.intro (t := s.takeCmd 1) rfl (takeCmd_of_refused hcmd hop hno),
      fun hop => Runs.intro (t := s.takeCmd 2) rfl (takeCmd_of_refused hcmd hop hno),
      fun hop => Runs.intro (t := s.takeCmd 3) rfl (takeCmd_of_refused hcmd hop hno),
      fun hop => Runs.intro (t := s.takeCmd 4) rfl (takeCmd_of_refused hcmd hop hno),
      fun hop => Runs.intro (t := s.takeCmd 5) rfl (takeCmd_of_refused hcmd hop hno),
      fun hop => Runs.intro (t := s.takeCmd 6) rfl (takeCmd_of_refused hcmd hop hno)⟩
  · intro s
    exact ⟨fun h => congrArg Host.Outcome.next (takeCmd_of_none h), fun h => congrArg Host.Outcome.next (takeCmd_of_none h),
      fun h => congrArg Host.Outcome.next (takeCmd_of_none h), fun h => congrArg Host.Outcome.next (takeCmd_of_none h),
      fun h => congrArg Host.Outcome.next (takeCmd_of_none h), fun h => congrArg Host.Outcome.next (takeCmd_of_none h)⟩

end Sys2Proof.Machine
end

section
/-!
PROOFS. PLOAM messages and supervision of ONUs (O51; R125 to R127, R132, R138, R140, R156).
-/
open Sys2Proof.Safety
namespace Sys2Proof.Machine

/-- A bit of a field. -/
theorem bit_of_fld {v : Word} {hi lo i : Nat} (hlo : lo ≤ i) (hhi : i ≤ hi) : bit v i = (fld v hi lo).testBit (i - lo) := by
  rw [fld, Nat.testBit_mod_two_pow, Nat.testBit_div_two_pow, Nat.sub_add_cancel hlo, bit, BitVec.getLsbD,
    decide_eq_true (by omega), Bool.true_and]

theorem sameBut_setOnu (s : State) (n id : Nat) (x : Onu) :
    SameBut (fun u k => u.act.onus.get (fun _ => {}) k) [n * 1024 + id] s (s.setOnu n id x) := by
  intro k hk
  unfold State.setOnu
  exact SMap.get_set_other _ _ _ _ _ (by simpa using hk)

/-- A PLOAM message of a confirmed burst is heard under the burst's ONU (R156). -/
theorem burstPloam_of_heard {s u : State} {j f i : Nat} {b : Burst} {gs : List Grant} (m : UpPloam) (hb : s.burstOf j f i = some b)
    (hst : b.st = .confirmed) (hkind : b.kind ≠ .discovery) (hheard : hearPloam b.grants = some gs)
    (hu : u = s.updBurst j f i (fun b => { b with grants := gs })) :
    s.burstPloam j f i m = u.upPloam (j / 2) (j % 2) b.onu m none := by
  rw [State.burstPloam, hb]
  dsimp only
  rw [if_pos ⟨hst, hkind⟩, hheard, hu]

/-- A Registration, or a message of a type that the engine does not act on, with a right MIC, is recorded (R125, R127). -/
theorem upPloam_of_record {s : State} {n c id : Nat} {m : UpPloam} (hmic : m.mic = Config.ploamMicUp (s.micKey n id).1 m.data)
    (hkind : m.kind = .registration ∨ m.kind = .other) :
    s.upPloam n c id m none = State.rxPush
      (if ((s.micKey n id).2.onu n id).st = .free then (s.micKey n id).2
        else (s.micKey n id).2.setOnu n id { (s.micKey n id).2.onu n id with ask := false }) 0 n c id 0 m.data := by
  rw [State.upPloam]
  dsimp only
  rw [if_neg (not_not_intro hmic)]
  rcases hkind with h | h
  · rw [h]
    rfl
  · rw [h]

/-- A channel that has observed energy in frame `f` (R138). -/
def ActCh.heard (x : ActCh) (f limit : Nat) : ActCh :=
  let seen := (f :: x.energy.filter fun k => k != f).filter fun k => decide (f < k + 64)
  { x with energy := seen, anon := x.anon || decide (limit ≤ seen.length) }

theorem mem_heard (x : ActCh) (f limit : Nat) : f ∈ (x.heard f limit).energy :=
  List.mem_filter.mpr ⟨List.mem_cons_self .., decide_eq_true (by omega)⟩

/-- Energy in a quiet interval, with no burst running over, is counted and kept (R138). -/
theorem energy_of_quiet {s : State} {j f lo hi : Nat} (hnone : s.overruns j f lo hi (max 1 (s.fld Reg.actSupvCfg2 15 8)) = [])
    (hquiet : ((freeGaps 125000 (s.busyNs j f)).any fun g => decide (64 ≤ g.2 - g.1) && decide (max 1 (s.fld Reg.actSupvCfg2 15 8) ≤
      shared lo hi g.1 g.2)) = true) :
    ∃ new : Bool, s.energy j f lo hi =
      (if new then ((s.bump (Reg.actPortEnergy (j / 2))).setActCh j ((s.actCh j).heard f (max 1 (s.fld Reg.actSupvCfg 11 6)))).event
        (leafOf (3 + j / 32) (j % 32)) j
      else (s.bump (Reg.actPortEnergy (j / 2))).setActCh j ((s.actCh j).heard f (max 1 (s.fld Reg.actSupvCfg 11 6)))) := by
  have hcfg : (s.bump (Reg.actPortEnergy (j / 2))).fld Reg.actSupvCfg 11 6 = s.fld Reg.actSupvCfg 11 6 := by
    rw [State.fld, State.rd_bump, if_neg (by simp only [Reg.actSupvCfg, Reg.actPortEnergy]; omega), State.fld]
  have hch : (s.bump (Reg.actPortEnergy (j / 2))).actCh j = s.actCh j := rfl
  have heach : (s.each (s.overruns j f lo hi (Nat.max 1 (s.fld Reg.actSupvCfg2 15 8))) fun id s => s.offence (j / 2) id) = s := by
    have hnone' : s.overruns j f lo hi (Nat.max 1 (s.fld Reg.actSupvCfg2 15 8)) = [] := hnone
    rw [hnone']
    rfl
  have hquiet' : ((freeGaps 125000 (s.busyNs j f)).any fun g => decide (quietMin ≤ g.2 - g.1) &&
      decide (Nat.max 1 (s.fld Reg.actSupvCfg2 15 8) ≤ shared lo hi g.1 g.2)) = true := hquiet
  unfold State.energy
  dsimp only
  rw [if_pos hquiet', heach, hch, hcfg]
  exact ⟨_, rfl⟩

/-- Settles O51. -/
theorem ploamQueuesAndSupervision : Obligations.PloamQueuesAndSupervision := by
  refine ⟨?_, ?_, ?_, ?_, ?_, ?_, ?_, ?_, ?_, ?_, ?_⟩
  · intro j f i m s u b gs k w hb hst hkind hheard hu hk hw
    have hrun : exec (.upstreamPloam j f i m) s = .next (u.upPloam (j.val / 2) (j.val % 2) b.onu m none) :=
      congrArg Host.Outcome.next (burstPloam_of_heard m hb hst hkind hheard hu)
    have hheader : BitVec.ofNat 32 (2 ^ 31 + 0 * 2 ^ 29 + j.val / 2 * 2 ^ 23 + j.val % 2 * 2 ^ 22 + b.onu * 2 ^ 12 + 0 * 2 ^ 8) =
        BitVec.ofNat 32 (2 ^ 31 + j.val / 2 * 2 ^ 23 + j.val % 2 * 2 ^ 22 + b.onu * 2 ^ 12) := by
      rw [Nat.zero_mul, Nat.zero_mul, Nat.add_zero, Nat.add_zero]
    generalize hx : (if (w.onu (j.val / 2) b.onu).st = .free then w
      else w.setOnu (j.val / 2) b.onu { w.onu (j.val / 2) b.onu with ask := false }) = x
    have hkept : x.act.rx = w.act.rx ∧ x.regs = w.regs ∧
        ((w.onu (j.val / 2) b.onu).st ≠ .free → (x.onu (j.val / 2) b.onu).ask = false) := by
      rw [← hx]
      split
      · next hfree => exact ⟨rfl, rfl, fun h => absurd hfree h⟩
      · exact ⟨rfl, rfl, fun _ => congrArg Onu.ask (onu_setOnu_self ..)⟩
    obtain ⟨hrx, hregs, hask⟩ := hkept
    have hrecord : m.mic = Config.ploamMicUp k m.data → m.kind = .registration ∨ m.kind = .other →
        u.upPloam (j.val / 2) (j.val % 2) b.onu m none = x.rxPush 0 (j.val / 2) (j.val % 2) b.onu 0 m.data := fun hmic hkind => by
      rw [upPloam_of_record (by rw [← hk]; exact hmic) hkind, ← hw, hx]
    refine ⟨fun hwrong => ?_, fun hmic hkind hroom => ?_, fun hmic hkind hfull => ?_⟩
    · rw [hrun, State.upPloam]
      dsimp only
      rw [← hk, ← hw, if_pos hwrong]
    · refine Runs.intro hrun ?_
      rw [hrecord hmic hkind, rxPush_of_room (by rw [hrx]; exact hroom), hheader, hrx]
      exact ⟨rfl, hregs, hask⟩
    · refine Runs.intro hrun ?_
      rw [hrecord hmic hkind, rxPush_of_full (by rw [hrx]; exact hfull)]
      obtain ⟨hframe, hrd⟩ := reports_event (x.bump Reg.actPloamRxDrop) (leafOf 12 0) 0
      refine ⟨?_, ?_, raised_raise _ _ _ _ _ _⟩
      · rw [hframe]
        exact hrx
      · rw [hrd _ (by decide), State.rd_bump, if_pos rfl, State.rd_of_regs hregs]
  · intro j f i m s hno
    refine congrArg Host.Outcome.next ?_
    rw [State.burstPloam]
    split
    · next b hb =>
      rw [hb] at hno
      simp only [Option.all_some, Bool.or_eq_true, bne_iff_ne, beq_iff_eq, Option.isNone_iff_eq_none] at hno
      split
      · next hlive =>
        rcases hno with (hst | hkind) | hnone
        · exact absurd hlive.1 hst
        · exact absurd hkind hlive.2
        · rw [hnone]
      · rfl
    · rfl
  · intro val s hgo hport
    have htx : s.ploamTx val = (if (s.actCh (2 * fld val 28 23 + fld val 22 22)).host.length < hostPloamMax then
        s.setActCh (2 * fld val 28 23 + fld val 22 22) { s.actCh (2 * fld val 28 23 + fld val 22 22) with
          host := (s.actCh (2 * fld val 28 23 + fld val 22 22)).host ++
            [{ kind := .host, onu := fld val 21 12, data := (List.range 10).map fun i => s.rd (Reg.actPloamTxData i) }] }
        else s.bump Reg.actPloamTxDrop) := by
      rw [State.ploamTx]
      exact if_neg fun h => h.elim (fun h => by simp [hgo] at h) fun h => absurd h (by omega)
    refine ⟨fun hroom => Runs.intro (t := s.ploamTx val) rfl ?_, fun hfull => congrArg Host.Outcome.next ?_⟩
    · rw [htx, if_pos (c := _ < hostPloamMax) hroom]
      exact ⟨by rw [actCh_setActCh, if_pos rfl], sameBut_setActCh _ _ _, rfl⟩
    · rw [htx]
      exact if_neg (Nat.not_lt.mpr hfull)
  · intro val s hno
    refine congrArg Host.Outcome.next ?_
    rw [State.ploamTx]
    exact if_pos (hno.imp (fun h => by rw [h]; rfl) id)
  · intro s r rs hrx
    refine Runs.intro (t := s.rxRead) rfl ?_
    rw [State.rxRead, hrx]
    dsimp only
    generalize hdata : ((List.range 10).map fun i => r.data.getD i 0) = data
    have hlen : data.length = 10 := by rw [← hdata, List.length_map, List.length_range]
    have hword : ∀ i, i < 10 → ((({ s with act.rx := rs } : State).wrWords (Reg.actPloamRxData 0) data).ret r.hdr).rd
        (Reg.actPloamRxData i) = r.data.getD i 0 := fun i hi => by
      refine (rd_wrWords_self { s with act.rx := rs } (Reg.actPloamRxData 0) data (i := i) (by omega)).trans ?_
      rw [← hdata, List.getD_eq_getElem?_getD, List.getElem?_map, List.getElem?_range hi]
      rfl
    refine ⟨?_, rfl, hword 0 (by decide), hword 9 (by decide), fun a ha => ?_⟩
    · rw [State.wrWords_frame]
      rfl
    · refine (rd_wrWords_ne { s with act.rx := rs } fun i hi heq => ha ?_).trans rfl
      exact List.mem_map.mpr ⟨i, List.mem_range.mpr (by omega), heq.symm⟩
  · intro s hnone
    refine congrArg Host.Outcome.next ?_
    rw [State.rxRead, hnone]
    rfl
  · intro j f lo hi s hnone hquiet
    refine Runs.intro (t := s.energy j.val f lo hi) rfl ?_
    obtain ⟨new, hheard⟩ := energy_of_quiet hnone hquiet
    rw [hheard]
    have hmem := mem_heard (s.actCh j.val) f (max 1 (s.fld Reg.actSupvCfg 11 6))
    have hanon : ((s.actCh j.val).heard f (max 1 (s.fld Reg.actSupvCfg 11 6))).anon = ((s.actCh j.val).anon ||
      decide (max 1 (s.fld Reg.actSupvCfg 11 6) ≤ ((s.actCh j.val).heard f (max 1 (s.fld Reg.actSupvCfg 11 6))).energy.length)) := rfl
    generalize (s.actCh j.val).heard f (max 1 (s.fld Reg.actSupvCfg 11 6)) = x at *
    have hrd : ((s.bump (Reg.actPortEnergy (j.val / 2))).setActCh j.val x).rd (Reg.actPortEnergy (j.val / 2)) =
        satAdd (s.rd (Reg.actPortEnergy (j.val / 2))) 1 :=
      Eq.trans (State.rd_bump s (Reg.actPortEnergy (j.val / 2)) (Reg.actPortEnergy (j.val / 2))) (if_pos rfl)
    have hself : ((s.bump (Reg.actPortEnergy (j.val / 2))).setActCh j.val x).actCh j.val = x := (actCh_setActCh ..).trans (if_pos rfl)
    have hother : SameBut State.actCh [j.val] s ((s.bump (Reg.actPortEnergy (j.val / 2))).setActCh j.val x) :=
      fun k hk => sameBut_setActCh (s.bump (Reg.actPortEnergy (j.val / 2))) j.val x k hk
    have honus : ((s.bump (Reg.actPortEnergy (j.val / 2))).setActCh j.val x).act.onus = s.act.onus := rfl
    generalize State.setActCh _ _ _ = u at *
    have hannounced : ∀ t : State, t.act = u.act → t.rd (Reg.actPortEnergy (j.val / 2)) = u.rd (Reg.actPortEnergy (j.val / 2)) →
        t.rd (Reg.actPortEnergy (j.val / 2)) = satAdd (s.rd (Reg.actPortEnergy (j.val / 2))) 1 ∧ f ∈ (t.actCh j.val).energy ∧
          (t.actCh j.val).anon = ((s.actCh j.val).anon || decide (max 1 (s.fld Reg.actSupvCfg 11 6) ≤ (t.actCh j.val).energy.length)) ∧
          SameBut State.actCh [j.val] s t ∧ t.act.onus = s.act.onus := by
      intro t hact hcounted
      have hch : ∀ k, t.actCh k = u.actCh k := fun k => by rw [State.actCh, hact, State.actCh]
      rw [hch, hself, hcounted, hrd, hact]
      exact ⟨rfl, hmem, hanon, fun k hk => (hch k).trans (hother k hk), honus⟩
    split
    · obtain ⟨hframe, hregs⟩ := reports_event u (leafOf (3 + j.val / 32) (j.val % 32)) j.val
      refine hannounced _ (by rw [hframe]) (hregs _ ?_)
      have hleaf : leafOf (3 + j.val / 32) (j.val % 32) / 32 = 3 + j.val / 32 := by
        unfold leafOf
        omega
      have := j.isLt
      simp only [eventRegs, hleaf, List.mem_cons, List.not_mem_nil, or_false, Reg.actPortEnergy, Reg.evtStatus, Reg.evtBufDrop,
        Reg.merEvtLost, leafBufOverflow]
      omega
    · exact hannounced u rfl rfl
  · intro j f s
    refine ⟨fun hall => Runs.intro (t := s.anonClear j.val f) rfl ?_, fun hsome => congrArg Host.Outcome.next ?_⟩
    · rw [State.anonClear]
      dsimp only
      rw [if_pos hall]
      exact ⟨(actCh_setActCh ..).trans (if_pos rfl), sameBut_setActCh _ _ _, rfl⟩
    · rw [State.anonClear]
      exact if_neg (Bool.eq_false_iff.mp hsome)
  · intro n id s
    refine ⟨fun hst hquiet hon => Runs.intro (t := s.onuLoss n.val id.val) rfl ?_, fun hno => congrArg Host.Outcome.next ?_⟩
    · rw [State.onuLoss]
      dsimp only
      rw [if_pos ⟨hst, hquiet, hon⟩]
      generalize hu : s.setOnu n.val id.val _ = u
      have hact : (u.raise (leafOf 12 3) 0 (onuWord n.val (s.onu n.val id.val).ch id.val) 0 0).act = u.act := by
        rw [State.raise_frame]
      refine ⟨?_, raised_raise _ _ _ _ _ _, fun k hk => ?_⟩
      · rw [State.onu, hact, ← hu]
        exact onu_setOnu_self ..
      · dsimp only
        rw [hact, ← hu]
        exact sameBut_setOnu s n.val id.val _ k hk
    · rw [State.onuLoss]
      refine if_neg fun h => ?_
      rcases hno with hst | hoff | hquiet
      · exact hst h.1
      · rw [h.2.2] at hoff
        exact absurd hoff (by decide)
      · exact absurd h.2.1 (Nat.not_le.mpr hquiet)
  · intro n id at' s u hu
    refine ⟨fun hst hon hreached => Runs.intro (t := (s.advance at').lostTimer n.val id.val) rfl ?_, fun hno => congrArg Host.Outcome.next ?_⟩
    · rw [← hu]
      unfold State.lostTimer
      dsimp only
      rw [if_pos ⟨hst, hon, by rw [Nat.mul_assoc]; exact hreached⟩]
      obtain ⟨hfree, -, hlen⟩ := deactivate_act u n.val id.val
      exact ⟨hfree, hlen⟩
    · rw [← hu]
      unfold State.lostTimer
      refine if_neg fun h => ?_
      rcases hno with hst | hoff | hearly
      · exact hst h.1
      · rw [h.2.1] at hoff
        exact absurd hoff (by decide)
      · rw [Nat.mul_assoc] at h
        exact absurd (h.2.2.symm.trans hearly) (by decide)
  · intro val s
    refine ⟨fun hwrite => Runs.intro (t := s.snCmd val) rfl ?_, fun hread => Runs.intro (t := s.snCmd val) rfl ?_⟩
    · have hset : bit val 31 = true := by rw [bit_of_fld (hi := 31) (lo := 30) (by decide) (by decide), hwrite]; rfl
      have hload : ¬ bit val 30 = true := by rw [bit_of_fld (hi := 31) (lo := 30) (by decide) (by decide), hwrite]; decide
      rw [State.snCmd]
      dsimp only
      rw [if_pos hset, if_neg hload]
      refine ⟨SMap.get_set_self .., fun k hk => ?_, rfl⟩
      exact SMap.get_set_other (fun _ => {}) s.act.sn _ _ _ (by simpa using hk)
    · have hset : ¬ bit val 31 = true := by rw [bit_of_fld (hi := 31) (lo := 30) (by decide) (by decide), hread]; decide
      have hload : bit val 30 = true := by rw [bit_of_fld (hi := 31) (lo := 30) (by decide) (by decide), hread]; rfl
      rw [State.snCmd]
      dsimp only
      rw [if_neg hset, if_pos hload]
      refine ⟨?_, ?_, State.rd_wr_self .., (((OnlyRegs.refl _ s).wr (by simp) _).wr (by simp) _).wr (by simp) _⟩
      · rw [State.rd_wr_other _ _ (by decide), State.rd_wr_other _ _ (by decide), State.rd_wr_self]
      · rw [State.rd_wr_other _ _ (by decide), State.rd_wr_self]

end Sys2Proof.Machine
end

section
/-!
PROOFS. XGEM bindings, downstream queues and keys (O53; R168, R173 to R177, R374, R377).
-/
open Sys2Proof.Safety
namespace Sys2Proof.Machine

theorem keySet_setKeySet_self (s : State) (n id : Nat) (x : KeySet) : (s.setKeySet n id x).keySet n id = x := by
  unfold State.keySet State.setKeySet
  exact SMap.get_set_self ..

theorem bkeySet_setBkeySet (s : State) (j : Nat) (x : KeySet) (k : Nat) :
    (s.setBkeySet j x).bkeySet k = if k = j then x else s.bkeySet k := by
  unfold State.bkeySet State.setBkeySet
  exact SMap.get_set ..

/-! ### Bindings and queues (R168) -/

/-- The words of XGM_BIND_SEL applied to a binding. -/
def State.bindStored (s : State) (k : Nat) : State :=
  { s with xgm.binds := s.xgm.binds.set (fun _ => {}) k { cfg0 := s.rd Reg.xgmBindCfg0, cfg1 := s.rd Reg.xgmBindCfg1 } }

/-- A binding loaded into the words of XGM_BIND_SEL. -/
def State.bindShown (s : State) (k : Nat) : State :=
  (s.wr Reg.xgmBindCfg0 (s.xgm.binds.get (fun _ => {}) k).cfg0).wr Reg.xgmBindCfg1 (s.xgm.binds.get (fun _ => {}) k).cfg1

theorem bindSelWrite_of_port (s : State) {v : Word} (hport : Machine.fld v 21 16 < 48) :
    s.bindSelWrite v =
      (if Machine.bit v 30 then
        (if Machine.bit v 31 then (s.wrTyped Reg.xgmBindSel v).bindStored (Machine.fld v 21 16 * 8192 + Machine.fld v 12 0)
          else s.wrTyped Reg.xgmBindSel v).bindShown (Machine.fld v 21 16 * 8192 + Machine.fld v 12 0)
      else if Machine.bit v 31 then (s.wrTyped Reg.xgmBindSel v).bindStored (Machine.fld v 21 16 * 8192 + Machine.fld v 12 0)
        else s.wrTyped Reg.xgmBindSel v) := by
  unfold State.bindSelWrite
  exact if_neg (Nat.not_le.mpr hport)

theorem bindShown_frame (s : State) (k : Nat) :
    (s.bindShown k).rd Reg.xgmBindCfg0 = (s.xgm.binds.get (fun _ => {}) k).cfg0 ∧
      (s.bindShown k).rd Reg.xgmBindCfg1 = (s.xgm.binds.get (fun _ => {}) k).cfg1 ∧
      OnlyRegs [Reg.xgmBindCfg0, Reg.xgmBindCfg1] s (s.bindShown k) := by
  unfold State.bindShown
  refine ⟨?_, State.rd_wr_self .., ((OnlyRegs.refl _ s).wr (by simp) _).wr (by simp) _⟩
  rw [State.rd_wr_other _ _ (by decide), State.rd_wr_self]

theorem bindSelWrite_of_idle (s : State) {v : Word} (h : Machine.fld v 31 30 = 0 ∨ 48 ≤ Machine.fld v 21 16) :
    s.bindSelWrite v = s.wrTyped Reg.xgmBindSel v := by
  rcases Nat.lt_or_ge (Machine.fld v 21 16) 48 with hport | hport
  · have hidle := h.resolve_right (Nat.not_le.mpr hport)
    rw [bindSelWrite_of_port s hport, if_neg, if_neg]
    · rw [bit_of_fld (hi := 31) (lo := 30) (by decide) (by decide), hidle]; decide
    · rw [bit_of_fld (hi := 31) (lo := 30) (by decide) (by decide), hidle]; decide
  · exact if_pos hport

/-! ### Keys -/

/-- TARGET and SLOT of XGM_KEY_SEL, as one field. -/
theorem fld_target_slot (v : Word) : Machine.fld v 27 24 = 4 * Machine.fld v 27 26 + Machine.fld v 25 24 := by
  simp only [Machine.fld]
  omega

/-- WRITE and CLEAR of XGM_KEY_SEL. -/
def State.keyEntered (s : State) (v : Word) : State :=
  if Machine.bit v 31 || Machine.bit v 29 then
    if !s.isUser then s.denied
    else if Machine.bit v 31 then
      (if s.sec.error then s else s.putKey (Machine.fld v 27 26) (Machine.fld v 25 24) (Machine.fld v 21 16) (Machine.fld v 12 12)
        (Machine.fld v 9 0) (some s.keyStaged))
    else s.putKey (Machine.fld v 27 26) (Machine.fld v 25 24) (Machine.fld v 21 16) (Machine.fld v 12 12) (Machine.fld v 9 0) none
  else s

theorem keySelWrite_of_port (s : State) {v : Word} (hport : Machine.fld v 21 16 < 48) :
    s.keySelWrite v =
      (if Machine.bit v 30 then ((s.wrTyped Reg.xgmKeySel v).keyEntered v).wr Reg.xgmKeyInfo
        (((s.wrTyped Reg.xgmKeySel v).keyEntered v).keyInfo (Machine.fld v 27 26) (Machine.fld v 21 16) (Machine.fld v 12 12)
          (Machine.fld v 9 0))
      else (s.wrTyped Reg.xgmKeySel v).keyEntered v) := by
  unfold State.keySelWrite
  exact if_neg (Nat.not_le.mpr hport)

theorem keySelWrite_of_idle (s : State) {v : Word} (h : Machine.fld v 31 29 = 0 ∨ 48 ≤ Machine.fld v 21 16) :
    s.keySelWrite v = s.wrTyped Reg.xgmKeySel v := by
  rcases Nat.lt_or_ge (Machine.fld v 21 16) 48 with hport | hport
  · have hidle := h.resolve_right (Nat.not_le.mpr hport)
    have hbit : ∀ i, 29 ≤ i → i ≤ 31 → Machine.bit v i = false := fun i hlo hhi => by
      rw [bit_of_fld (hi := 31) (lo := 29) hlo hhi, hidle, Nat.zero_testBit]
    rw [keySelWrite_of_port s hport, hbit 30 (by decide) (by decide), State.keyEntered, hbit 31 (by decide) (by decide),
      hbit 29 (by decide) (by decide)]
    rfl
  · exact if_pos hport

/-- What a write of XGM_KEY_SEL makes of the keys is what it enters; READ loads XGM_KEY_INFO besides. -/
theorem keySelWrite_xgm (s : State) {v : Word} (hport : Machine.fld v 21 16 < 48) :
    OnlyRegs [Reg.xgmKeyInfo] ((s.wrTyped Reg.xgmKeySel v).keyEntered v) (s.keySelWrite v) := by
  rw [keySelWrite_of_port s hport]
  split
  · exact onlyRegs_wr _ _ _
  · exact OnlyRegs.refl _ _

section
variable {s : State} {v : Word}

theorem keyEntered_of_write (hwrite : Machine.bit v 31 = true) (huser : s.isUser = true) (herror : s.sec.error = false) :
    s.keyEntered v = s.putKey (Machine.fld v 27 26) (Machine.fld v 25 24) (Machine.fld v 21 16) (Machine.fld v 12 12)
      (Machine.fld v 9 0) (some s.keyStaged) := by
  rw [State.keyEntered, hwrite, huser, herror]
  rfl

theorem keyEntered_of_error (hwrite : Machine.bit v 31 = true) (huser : s.isUser = true) (herror : s.sec.error = true) :
    s.keyEntered v = s := by
  rw [State.keyEntered, hwrite, huser, herror]
  rfl

theorem keyEntered_of_clear (hclear : Machine.fld v 31 29 = 1) (huser : s.isUser = true) :
    s.keyEntered v = s.putKey (Machine.fld v 27 26) (Machine.fld v 25 24) (Machine.fld v 21 16) (Machine.fld v 12 12)
      (Machine.fld v 9 0) none := by
  have h31 : Machine.bit v 31 = false := by rw [bit_of_fld (hi := 31) (lo := 29) (by decide) (by decide), hclear]; rfl
  have h29 : Machine.bit v 29 = true := by rw [bit_of_fld (hi := 31) (lo := 29) (by decide) (by decide), hclear]; rfl
  rw [State.keyEntered, h31, h29, huser]
  rfl

theorem keyEntered_of_denied (h : Machine.bit v 31 = true ∨ Machine.bit v 29 = true) (huser : s.isUser = false) :
    s.keyEntered v = s.denied := by
  rw [State.keyEntered, huser, if_pos (by simpa using h)]
  rfl

end

theorem putKey_slot (s : State) (n c id : Nat) (k : Option (BitVec 128)) :
    (s.putKey 0 1 n c id k).keySet n id = { s.keySet n id with s1 := k } := keySet_setKeySet_self ..

/-- A denied request changes no key. -/
theorem denied_xgm (s : State) : s.denied.xgm = s.xgm := by
  rw [State.denied, State.event, State.raise_frame]
  rfl

/-- The role and the error state are those of the security engine, the staged key is that of the key engine. -/
theorem wrTyped_keySel (s : State) (v : Word) :
    (s.wrTyped Reg.xgmKeySel v).sec = s.sec ∧ (s.wrTyped Reg.xgmKeySel v).xgm = s.xgm := by
  rw [(s.onlyRegs_wrTyped v Reg.xgmKeySel).1]
  exact ⟨rfl, rfl⟩

/-- XGM_KEY_CMD_STATUS of a command that ended without cause. -/
theorem rd_keyCmdEnd_zero (s : State) : (s.keyCmdEnd 0).rd Reg.xgmKeyCmdStatus = 0x40000000 := by
  rw [State.keyCmdEnd, if_pos rfl, State.rd_wrNat, if_pos rfl]
  decide

/-- XGM_KEY_INFO comes of the keys and the error state. -/
theorem keyInfo_congr {s t : State} (hxgm : t.xgm = s.xgm) (hsec : t.sec = s.sec) (target n c id : Nat) :
    t.keyInfo target n c id = s.keyInfo target n c id := by
  unfold State.keyInfo State.bkeySet State.keySet State.live
  rw [hxgm, hsec]

theorem keyInfo_wr (s : State) (a : Nat) (w : Word) (target n c id : Nat) :
    (s.wr a w).keyInfo target n c id = s.keyInfo target n c id :=
  keyInfo_congr (t := s.wr a w) (s := s) rfl rfl target n c id

/-- The state after an exchange of keys has begun (R175). -/
theorem exchange_of_accepted {s : State} {n id index : Nat} (huser : s.isUser = true) (hcause : s.exchCause n id index = 0) :
    (s.exchange n id index).exchOf n id = some { n := n, onu := id, index := index, at' := s.raw } ∧
      (s.exchange n id index).rd Reg.xgmKeyCmdStatus = 0x40000000 ∧ ((s.exchange n id index).onu n id).ask = true ∧
      (s.exchange n id index).sec.nonApproved = true ∧ (s.exchange n id index).xgm.keys = s.xgm.keys := by
  unfold State.exchange
  dsimp only
  rw [huser, hcause, if_neg (by decide), if_neg (by decide)]
  generalize hu : ({ s with xgm.exch := _ } : State).useNonApproved = u
  have hused : u.xgm.exch = (s.xgm.exch.filter fun e => !(e.n == n && e.onu == id)) ++
      [{ n := n, onu := id, index := index, at' := s.raw }] ∧ u.xgm.keys = s.xgm.keys ∧ u.sec.nonApproved = true := by
    rw [← hu, State.useNonApproved]
    split
    · next h => exact ⟨rfl, rfl, h⟩
    · rw [State.event, State.raise_frame]
      exact ⟨rfl, rfl, rfl⟩
  obtain ⟨hexch, hkeys, happroved⟩ := hused
  refine ⟨?_, rd_keyCmdEnd_zero _, ?_, happroved, hkeys⟩
  · have hfind : (u.xgm.exch.find? fun e => e.n == n && e.onu == id) = some { n := n, onu := id, index := index, at' := s.raw } := by
      have hnone : ((s.xgm.exch.filter fun e => !(e.n == n && e.onu == id)).find? fun e => e.n == n && e.onu == id) = none := by
        refine List.find?_eq_none.mpr fun e he hkey => ?_
        have hother := (List.mem_filter.mp he).2
        rw [hkey] at hother
        exact absurd hother (by decide)
      rw [hexch, List.find?_append, hnone]
      simp
    exact hfind
  · exact congrArg Onu.ask (onu_setOnu_self u n id { s.onu n id with ask := true })

/-- An index switch that is taken: the command status, and the key set of the ONU alone. -/
theorem indexSwitch_of_live {s : State} {n id index : Nat} (hindex : index = 1 ∨ index = 2) (hn : n < 48) (hid : id ≠ 1023)
    (hlive : (s.live ((s.keySet n id).slot index)).isSome = true) :
    s.indexSwitch n id index = (s.setKeySet n id ((s.keySet n id).switch index false s.raw)).keyCmdEnd 0 := by
  unfold State.indexSwitch
  rw [if_neg (by omega), if_neg (by omega), if_neg hid,
    if_neg fun h => by rw [Option.isNone_iff_eq_none.mp h] at hlive; exact absurd hlive (by decide)]

/-- A switch keeps the index of the cut-offs of its own clock (R177). -/
theorem cutIndex_switch (x : KeySet) (index : Nat) (now : Raw) : (x.switch index false now).cutIndex now = x.cutIndex now := by
  unfold KeySet.switch
  split
  · next h =>
    split
    · rfl
    · simp [KeySet.cutIndex, h]
  · next h => simp [KeySet.cutIndex, h]

/-- The switch of a port's ONUs changes no broadcast set, no error state and not the time. -/
theorem switchOnu_frame (s : State) (n index : Nat) (wp : Bool) (id : Nat) :
    ∃ keys regs, s.switchOnu n index wp id = { s with xgm.keys := keys, regs := regs } := by
  unfold State.switchOnu
  dsimp only
  split
  · exact ⟨_, _, rfl⟩
  · exact ⟨_, _, rfl⟩

theorem switchSet_bkeySet (s : State) (index : Nat) (wp : Bool) (j k : Nat) :
    (s.switchSet index wp j).bkeySet k =
      if k = j ∧ (s.live ((s.bkeySet j).slot index)).isSome then (s.bkeySet j).switch index wp s.raw else s.bkeySet k := by
  unfold State.switchSet
  dsimp only
  split
  · next h => simp [bkeySet_setBkeySet, h]
  · next h =>
    rw [if_neg fun hk => h hk.2]
    rfl

/-- Broadcast set 0 of a port after the switch of the port (R177). -/
theorem bkeySet_switchPort (s : State) (n index : Nat) :
    (s.switchPort n index false).bkeySet (2 * n) =
      if (s.live ((s.bkeySet (2 * n)).slot index)).isSome then (s.bkeySet (2 * n)).switch index false s.raw else s.bkeySet (2 * n) := by
  unfold State.switchPort
  obtain ⟨keys, regs, honus⟩ : ∃ keys regs, (s.each (s.nonFree n) fun id s => s.switchOnu n index false id) =
      { s with xgm.keys := keys, regs := regs } := by
    refine State.each_induct (P := fun t => ∃ keys regs, t = { s with xgm.keys := keys, regs := regs }) ⟨_, _, rfl⟩ fun id _ t ht => ?_
    obtain ⟨keys, regs, rfl⟩ := ht
    obtain ⟨keys', regs', h⟩ := switchOnu_frame { s with xgm.keys := keys, regs := regs } n index false id
    exact ⟨keys', regs', h⟩
  rw [honus]
  generalize hu : ({ s with xgm.keys := keys, regs := regs } : State) = u
  have hset : u.bkeySet (2 * n) = s.bkeySet (2 * n) := by rw [← hu]; rfl
  have hlive : ∀ k, u.live k = s.live k := fun k => by rw [← hu]; rfl
  have hraw : u.raw = s.raw := by rw [← hu]
  have heach : (u.each [2 * n, 2 * n + 1] fun j s => s.switchSet index false j) =
      (u.switchSet index false (2 * n)).switchSet index false (2 * n + 1) := rfl
  rw [heach, switchSet_bkeySet, if_neg (by omega), switchSet_bkeySet, hset, hlive, hraw]
  simp

/-- 800 frames of 125 us, in raw units. -/
theorem exchLimit : 100000000 * nsUnit = 6553600000000 := by norm_num [nsUnit]

/-- Settles O53. -/
theorem keysNeedTheUserRole : Obligations.KeysNeedTheUserRole := by
  refine ⟨?_, ?_, ?_, ?_, ?_, ?_, ?_, ?_, ?_, ?_, ?_⟩
  · intro val s hport
    obtain ⟨hframe, hregs⟩ := s.onlyRegs_wrTyped val Reg.xgmBindSel
    have hcfg0 : (s.wrTyped Reg.xgmBindSel val).rd Reg.xgmBindCfg0 = s.rd Reg.xgmBindCfg0 := State.rd_wrTyped_other s val (by decide)
    have hcfg1 : (s.wrTyped Reg.xgmBindSel val).rd Reg.xgmBindCfg1 = s.rd Reg.xgmBindCfg1 := State.rd_wrTyped_other s val (by decide)
    have hxgm : (s.wrTyped Reg.xgmBindSel val).xgm = s.xgm := by rw [hframe]
    refine ⟨fun hwrite => Runs.intro (t := s.bindSelWrite val) rfl ?_, fun hread => Runs.intro (t := s.bindSelWrite val) rfl ?_⟩
    · rw [bindSelWrite_of_port s hport, if_pos hwrite]
      generalize s.wrTyped Reg.xgmBindSel val = w at *
      generalize hk : fld val 21 16 * 8192 + fld val 12 0 = k
      have hself : (w.bindStored k).xgm.binds.get (fun _ => {}) k = { cfg0 := s.rd Reg.xgmBindCfg0, cfg1 := s.rd Reg.xgmBindCfg1 } := by
        rw [← hcfg0, ← hcfg1]
        exact SMap.get_set_self ..
      have hother : ∀ i, i ≠ k → (w.bindStored k).xgm.binds.get (fun _ => {}) i = s.xgm.binds.get (fun _ => {}) i := fun i hi => by
        rw [← hxgm]
        exact SMap.get_set_other _ _ _ _ _ hi
      have hstored : w.bindStored k = { s with regs := w.regs, xgm.binds := (w.bindStored k).xgm.binds } := by
        rw [hframe]
        rfl
      have hwregs : ∀ a, (w.bindStored k).rd a = w.rd a := fun _ => rfl
      generalize hu : w.bindStored k = u at *
      have hshown : ∃ t, (if bit val 30 then u.bindShown k else u) = t ∧ OnlyRegs [Reg.xgmBindCfg0, Reg.xgmBindCfg1] u t ∧
          t.rd Reg.xgmBindCfg0 = s.rd Reg.xgmBindCfg0 ∧ t.rd Reg.xgmBindCfg1 = s.rd Reg.xgmBindCfg1 := by
        split
        · obtain ⟨h0, h1, hregs'⟩ := bindShown_frame u k
          rw [hself] at h0 h1
          exact ⟨_, rfl, hregs', h0, h1⟩
        · exact ⟨_, rfl, OnlyRegs.refl _ _, (hwregs _).trans hcfg0, (hwregs _).trans hcfg1⟩
      obtain ⟨t, ht, ⟨htframe, htregs⟩, h0, h1⟩ := hshown
      rw [ht]
      have htxgm : t.xgm = u.xgm := by rw [htframe]
      refine ⟨?_, fun i hi => ?_, fun a ha => ?_, h0, h1, ?_⟩
      · rw [State.binding, hk, htxgm]
        exact hself
      · dsimp only
        rw [htxgm]
        exact hother i (by simpa [hk] using hi)
      · obtain ⟨hsel, hne0, hne1⟩ : a ≠ Reg.xgmBindSel ∧ a ≠ Reg.xgmBindCfg0 ∧ a ≠ Reg.xgmBindCfg1 := by simpa using ha
        exact (htregs a (by simp [hne0, hne1])).trans ((hwregs a).trans (hregs a (by simpa using hsel)))
      · rw [htframe, hstored]
    · have hnone : ¬ bit val 31 = true := by rw [bit_of_fld (hi := 31) (lo := 30) (by decide) (by decide), hread]; decide
      have hload : bit val 30 = true := by rw [bit_of_fld (hi := 31) (lo := 30) (by decide) (by decide), hread]; rfl
      obtain ⟨h0, h1, hshown⟩ := bindShown_frame (s.wrTyped Reg.xgmBindSel val) (fld val 21 16 * 8192 + fld val 12 0)
      rw [hxgm] at h0 h1
      rw [bindSelWrite_of_port s hport, if_pos hload, if_neg hnone]
      exact ⟨h0, h1, (OnlyRegs.mono ⟨hframe, hregs⟩ (by simp)).comp (hshown.mono (by simp))⟩
  · intro val s
    refine ⟨fun h => ?_, fun h => ?_, fun h => ?_⟩
    · exact ⟨Runs.intro (congrArg Host.Outcome.next (bindSelWrite_of_idle s h)) (s.onlyRegs_wrTyped val _),
        Runs.intro (congrArg Host.Outcome.next (bindSelWrite_of_idle s h)) (s.onlyRegs_wrTyped val _)⟩
    · exact ⟨Runs.intro (congrArg Host.Outcome.next (keySelWrite_of_idle s h)) (s.onlyRegs_wrTyped val _),
        Runs.intro (congrArg Host.Outcome.next (keySelWrite_of_idle s h)) (s.onlyRegs_wrTyped val _),
        Runs.intro (congrArg Host.Outcome.next (keySelWrite_of_idle s h)) (s.onlyRegs_wrTyped val _)⟩
    · have hidle : s.dsqSelWrite val = s.wrTyped Reg.xgmDsqSel val := by
        have h31 : bit val 31 = false := by rw [bit_of_fld (hi := 31) (lo := 30) (by decide) (by decide), h]; rfl
        have h30 : bit val 30 = false := by rw [bit_of_fld (hi := 31) (lo := 30) (by decide) (by decide), h]; rfl
        unfold State.dsqSelWrite
        rw [h31, h30]
        rfl
      exact ⟨Runs.intro (congrArg Host.Outcome.next hidle) (s.onlyRegs_wrTyped val _),
        Runs.intro (congrArg Host.Outcome.next hidle) (s.onlyRegs_wrTyped val _)⟩
  · intro val s
    obtain ⟨hframe, hregs⟩ := s.onlyRegs_wrTyped val Reg.xgmDsqSel
    have hcfg : (s.wrTyped Reg.xgmDsqSel val).rd Reg.xgmDsqCfg = s.rd Reg.xgmDsqCfg := State.rd_wrTyped_other s val (by decide)
    have hxgm : (s.wrTyped Reg.xgmDsqSel val).xgm = s.xgm := by rw [hframe]
    refine ⟨fun hwrite => Runs.intro (t := s.dsqSelWrite val) rfl ?_, fun hread => Runs.intro (t := s.dsqSelWrite val) rfl ?_⟩
    · unfold State.dsqSelWrite
      dsimp only
      rw [if_pos hwrite, hcfg, hxgm]
      generalize s.wrTyped Reg.xgmDsqSel val = w at *
      have hself : (s.xgm.dsq.set (fun _ => 0) (fld val 18 0) (s.rd Reg.xgmDsqCfg)).get (fun _ => 0) (fld val 18 0) = s.rd Reg.xgmDsqCfg :=
        SMap.get_set_self ..
      have hother : ∀ k, k ∉ [fld val 18 0] → (s.xgm.dsq.set (fun _ => 0) (fld val 18 0) (s.rd Reg.xgmDsqCfg)).get (fun _ => 0) k =
          s.xgm.dsq.get (fun _ => 0) k := fun k hk => SMap.get_set_other _ _ _ _ _ (by simpa using hk)
      rw [hself]
      split
      · refine ⟨hself, hother, fun a ha => ?_, by rw [hframe]; rfl⟩
        rcases eq_or_ne a Reg.xgmDsqCfg with rfl | hne
        · exact State.rd_wr_self ..
        · exact (State.rd_wr_other _ _ hne).trans (hregs a ha)
      · exact ⟨hself, hother, fun a ha => hregs a ha, by rw [hframe]⟩
    · have hnone : ¬ bit val 31 = true := by rw [bit_of_fld (hi := 31) (lo := 30) (by decide) (by decide), hread]; decide
      have hload : bit val 30 = true := by rw [bit_of_fld (hi := 31) (lo := 30) (by decide) (by decide), hread]; rfl
      unfold State.dsqSelWrite
      dsimp only
      rw [if_neg hnone, if_pos hload, hxgm]
      exact ⟨State.rd_wr_self .., (OnlyRegs.mono ⟨hframe, hregs⟩ (by simp)).wr (by simp) _⟩
  · intro val s hport
    obtain ⟨hsec, hxgm⟩ := wrTyped_keySel s val
    have huser' : (s.wrTyped Reg.xgmKeySel val).isUser = s.isUser := by rw [State.isUser, hsec, State.isUser]
    have hstaged : (s.wrTyped Reg.xgmKeySel val).keyStaged = s.keyStaged := by rw [State.keyStaged, hxgm, State.keyStaged]
    have hkeys : ∀ n id, (s.wrTyped Reg.xgmKeySel val).keySet n id = s.keySet n id := fun n id => by
      rw [State.keySet, hxgm, State.keySet]
    have hbkeys : ∀ j, (s.wrTyped Reg.xgmKeySel val).bkeySet j = s.bkeySet j := fun j => by rw [State.bkeySet, hxgm, State.bkeySet]
    have honly := s.onlyRegs_wrTyped val Reg.xgmKeySel
    obtain ⟨hframe, hregs⟩ := keySelWrite_xgm s hport
    have hsame : (s.keySelWrite val).xgm = ((s.wrTyped Reg.xgmKeySel val).keyEntered val).xgm := by rw [hframe]
    have hkeysAfter : ∀ n id, (s.keySelWrite val).keySet n id = ((s.wrTyped Reg.xgmKeySel val).keyEntered val).keySet n id :=
      fun n id => by rw [State.keySet, hsame, State.keySet]
    have hbkeysAfter : ∀ j, (s.keySelWrite val).bkeySet j = ((s.wrTyped Reg.xgmKeySel val).keyEntered val).bkeySet j :=
      fun j => by rw [State.bkeySet, hsame, State.bkeySet]
    have hnoLoad : bit val 30 = false → s.keySelWrite val = (s.wrTyped Reg.xgmKeySel val).keyEntered val := fun h30 => by
      rw [keySelWrite_of_port s hport, h30]
      rfl
    have hclear30 : fld val 31 29 = 1 → bit val 30 = false := fun h => by
      rw [bit_of_fld (hi := 31) (lo := 29) (by decide) (by decide), h]; rfl
    have htargets := fld_target_slot val
    have hslot : fld val 25 24 < 4 := Nat.mod_lt _ (by decide)
    generalize hw : s.wrTyped Reg.xgmKeySel val = w at *
    refine ⟨?_, ?_, ?_, ?_, ?_, ?_, ?_, ?_, ?_, ?_, ?_⟩
    · intro hbits huser herror
      have h31 : bit val 31 = true := by rw [bit_of_fld (hi := 31) (lo := 30) (by decide) (by decide), hbits]; rfl
      have h30 : bit val 30 = false := by rw [bit_of_fld (hi := 31) (lo := 30) (by decide) (by decide), hbits]; rfl
      refine congrArg Host.Outcome.next ?_
      rw [hnoLoad h30, keyEntered_of_write h31 (huser'.trans huser) (by rw [hsec]; exact herror), hstaged]
    · intro h31 huser herror hfld
      refine Runs.intro (t := s.keySelWrite val) rfl ?_
      rw [hkeysAfter, keyEntered_of_write h31 (huser'.trans huser) (by rw [hsec]; exact herror), hstaged,
        show fld val 27 26 = 0 by omega, show fld val 25 24 = 1 by omega, putKey_slot, hkeys]
    · intro h31 huser herror hfld
      refine Runs.intro (t := s.keySelWrite val) rfl ?_
      rw [hbkeysAfter, hsame, keyEntered_of_write h31 (huser'.trans huser) (by rw [hsec]; exact herror), hstaged,
        show fld val 27 26 = 1 by omega, show fld val 25 24 = 2 by omega]
      refine ⟨?_, Eq.trans (b := w.xgm.keys) rfl (by rw [hxgm])⟩
      rw [← hbkeys]
      exact (bkeySet_setBkeySet ..).trans (if_pos rfl)
    · intro h31 huser herror
      refine Runs.intro (t := s.keySelWrite val) rfl ?_
      rw [keyEntered_of_error h31 (huser'.trans huser) (by rw [hsec]; exact herror)] at hsame hregs
      refine ⟨hsame.trans hxgm, fun a ha => ?_⟩
      obtain ⟨hsel, hinfo⟩ : a ≠ Reg.xgmKeySel ∧ a ≠ Reg.xgmKeyInfo := by simpa using ha
      exact (hregs a (by simpa using hinfo)).trans (honly.2 a (by simpa using hsel))
    · intro hbits huser
      refine congrArg Host.Outcome.next ?_
      rw [hnoLoad (hclear30 hbits), keyEntered_of_clear hbits (huser'.trans huser)]
    · intro hbits huser htarget
      refine Runs.intro (t := s.keySelWrite val) rfl ?_
      rw [hnoLoad (hclear30 hbits), keyEntered_of_clear hbits (huser'.trans huser), htarget, ← hkeys]
      exact ⟨keySet_setKeySet_self .., fun a ha => honly.2 a ha⟩
    · intro hbits huser htarget
      refine Runs.intro (t := s.keySelWrite val) rfl ?_
      rw [hnoLoad (hclear30 hbits), keyEntered_of_clear hbits (huser'.trans huser), htarget, ← hkeys]
      exact ⟨keySet_setKeySet_self .., fun a ha => honly.2 a ha⟩
    · intro hbits huser h30
      have hdenied : s.keySelWrite val = w.denied := by
        rw [hnoLoad h30, keyEntered_of_denied hbits (huser'.trans huser)]
      exact ⟨congrArg Host.Outcome.next hdenied, congrArg Host.Outcome.next hdenied⟩
    · intro hbits huser
      refine Runs.intro (t := s.keySelWrite val) rfl ?_
      rw [hsame, keyEntered_of_denied hbits (huser'.trans huser), denied_xgm, hxgm]
    · intro hbits
      have h31 : bit val 31 = false := by rw [bit_of_fld (hi := 31) (lo := 29) (by decide) (by decide), hbits]; rfl
      have h30 : bit val 30 = true := by rw [bit_of_fld (hi := 31) (lo := 29) (by decide) (by decide), hbits]; rfl
      have h29 : bit val 29 = false := by rw [bit_of_fld (hi := 31) (lo := 29) (by decide) (by decide), hbits]; rfl
      refine Runs.intro (t := s.keySelWrite val) rfl ?_
      have hnone : w.keyEntered val = w := by
        rw [State.keyEntered, h31, h29]
        rfl
      rw [keySelWrite_of_port s hport, if_pos h30, hw, hnone]
      exact ⟨(State.rd_wr_self ..).trans (keyInfo_congr hxgm hsec _ _ _ _), (honly.mono (by simp)).wr (by simp) _⟩
    · intro h30
      refine Runs.intro (t := s.keySelWrite val) rfl ?_
      rw [keySelWrite_of_port s hport, if_pos h30, hw]
      generalize w.keyEntered val = u
      rw [State.rd_wr_self, keyInfo_wr]
  · intro val s hgo hop
    have hrun : exec (.keyExchange val) s = .next ((s.wrTyped Reg.xgmKeyCmd val).exchange (fld val 21 16) (fld val 9 0) (fld val 11 10)) := by
      refine congrArg Host.Outcome.next ?_
      unfold State.keyCmdWrite
      dsimp only
      rw [hgo, if_neg (by decide), if_pos hop]
    have honly := s.onlyRegs_wrTyped val Reg.xgmKeyCmd
    have hraw : (s.wrTyped Reg.xgmKeyCmd val).raw = s.raw := by rw [honly.1]
    have huser' : (s.wrTyped Reg.xgmKeyCmd val).isUser = s.isUser := by rw [honly.1]; rfl
    have hkeys : (s.wrTyped Reg.xgmKeyCmd val).xgm.keys = s.xgm.keys := by rw [honly.1]
    have hcause : ∀ n id index, (s.wrTyped Reg.xgmKeyCmd val).exchCause n id index = s.exchCause n id index := fun n id index => by
      rw [honly.1]
      rfl
    generalize s.wrTyped Reg.xgmKeyCmd val = w at *
    refine ⟨fun huser hok => Runs.intro hrun ?_, fun huser hbad => Runs.intro hrun ?_, fun huser => hrun.trans (congrArg _ ?_)⟩
    · obtain ⟨hexch, hstatus, hask, hnon, hkept⟩ := exchange_of_accepted (huser'.trans huser) ((hcause _ _ _).trans hok)
      exact ⟨by rw [hexch, hraw], hstatus, hask, hnon, hkept.trans hkeys⟩
    · have hrefused : w.exchange (fld val 21 16) (fld val 9 0) (fld val 11 10) =
          w.wrNat Reg.xgmKeyCmdStatus (2 ^ 29 + s.exchCause (fld val 21 16) (fld val 9 0) (fld val 11 10)) := by
        unfold State.exchange
        dsimp only
        rw [huser'.trans huser, if_neg (by decide), hcause, if_pos hbad, State.keyCmdEnd, if_neg hbad]
      rw [hrefused]
      exact ⟨(State.rd_wrNat ..).trans (if_pos rfl), (honly.mono (by simp)).wr (by simp) _⟩
    · unfold State.exchange
      rw [huser'.trans huser]
      rfl
  · intro val s hno
    have hrun : s.keyCmdWrite val = s.wrTyped Reg.xgmKeyCmd val := by
      unfold State.keyCmdWrite
      dsimp only
      split
      · rfl
      · next hgo =>
        rcases hno with h | ⟨h1, h2⟩
        · exact absurd (by rw [h]; rfl) hgo
        · rw [if_neg h1, if_neg h2]
    exact ⟨Runs.intro (congrArg Host.Outcome.next hrun) (s.onlyRegs_wrTyped val _),
      Runs.intro (congrArg Host.Outcome.next hrun) (s.onlyRegs_wrTyped val _)⟩
  · intro n id at' s u e hu hexch
    refine ⟨fun hreached => Runs.intro (t := (s.advance at').exchTimeout n.val id.val) rfl ?_, fun hearly => congrArg Host.Outcome.next ?_⟩
    · rw [← hu]
      have hend : u.exchTimeout n.val id.val = u.exchEnd e false 5 := by
        rw [State.exchTimeout, hexch]
        dsimp only
        rw [exchLimit, if_pos hreached]
      have hkey : (e.n == n.val && e.onu == id.val) = true := List.find?_some (p := fun e : Exchange => e.n == n.val && e.onu == id.val) hexch
      simp only [Bool.and_eq_true, beq_iff_eq] at hkey
      rw [hend, State.exchEnd]
      dsimp only
      generalize hv : ({ u with xgm.exch := _, xgm.results := _ } : State) = v
      have hxgm : (v.event (leafOf 12 4) 0).xgm = v.xgm := by rw [(reports_event v _ _).1]
      refine ⟨?_, ?_, raised_raise _ _ _ _ _ _, ?_⟩
      · rw [State.exchOf, hxgm, ← hv, List.find?_eq_none]
        intro x hx hmatch
        have hother := (List.mem_filter.mp hx).2
        rw [hkey.1, hkey.2, hmatch] at hother
        exact absurd hother (by decide)
      · rw [hxgm, ← hv]
        exact List.length_append
      · rw [hxgm, ← hv]
    · rw [← hu, State.exchTimeout, hexch]
      dsimp only
      rw [exchLimit, if_neg (Bool.eq_false_iff.mp hearly)]
  · intro n id at' s u hu hnone
    refine congrArg Host.Outcome.next ?_
    rw [← hu, State.exchTimeout, hnone]
  · intro s r rs
    refine ⟨fun h => congrArg Host.Outcome.next ?_, fun h => congrArg Host.Outcome.next ?_⟩
    · rw [State.keyResultRead, h]
      rfl
    · rw [State.keyResultRead, h]
      rfl
  · intro val s hgo hop
    have hrun : exec (.keyIndexSwitch val) s =
        .next ((s.wrTyped Reg.xgmKeyCmd val).indexSwitch (fld val 21 16) (fld val 9 0) (fld val 11 10)) := by
      refine congrArg Host.Outcome.next ?_
      unfold State.keyCmdWrite
      dsimp only
      rw [hgo, if_neg (by decide), if_neg (by omega), if_pos hop]
    have honly := s.onlyRegs_wrTyped val Reg.xgmKeyCmd
    have hraw : (s.wrTyped Reg.xgmKeyCmd val).raw = s.raw := by rw [honly.1]
    have hxgm : (s.wrTyped Reg.xgmKeyCmd val).xgm = s.xgm := by rw [honly.1]
    have hlive' : ∀ k, (s.wrTyped Reg.xgmKeyCmd val).live k = s.live k := fun k => by rw [honly.1]; rfl
    have hkeys : ∀ n id, (s.wrTyped Reg.xgmKeyCmd val).keySet n id = s.keySet n id := fun n id => by
      rw [State.keySet, hxgm, State.keySet]
    have hbkeys : ∀ j, (s.wrTyped Reg.xgmKeyCmd val).bkeySet j = s.bkeySet j := fun j => by rw [State.bkeySet, hxgm, State.bkeySet]
    have hindex : fld val 11 10 < 4 := Nat.mod_lt _ (by decide)
    have hend : ∀ (cause : Nat) (word : Word), cause ≠ 0 → BitVec.ofNat 32 (2 ^ 29 + cause) = word → (s.wrTyped Reg.xgmKeyCmd val).indexSwitch (fld val 21 16) (fld val 9 0) (fld val 11 10) =
        (s.wrTyped Reg.xgmKeyCmd val).keyCmdEnd cause →
        Runs (.keyIndexSwitch val) s fun t => t.rd Reg.xgmKeyCmdStatus = word ∧
          OnlyRegs [Reg.xgmKeyCmd, Reg.xgmKeyCmdStatus] s t := fun cause word hcause hword h => by
      refine Runs.intro hrun ?_
      rw [h, State.keyCmdEnd, if_neg hcause, ← hword]
      exact ⟨(State.rd_wrNat ..).trans (if_pos rfl), (honly.mono (by simp)).wr (by simp) _⟩
    generalize s.wrTyped Reg.xgmKeyCmd val = w at *
    refine ⟨fun hno => ?_, fun hyes hport => ?_, fun hyes hport hid hlive => Runs.intro hrun ?_, fun hyes hport hid hdead => ?_,
      fun hyes hport hid => Runs.intro hrun ?_⟩
    · refine hend 5 _ (by decide) (by decide) ?_
      unfold State.indexSwitch
      exact if_pos hno
    · refine hend 6 _ (by decide) (by decide) ?_
      unfold State.indexSwitch
      rw [if_neg (by omega), if_pos hport]
    · rw [indexSwitch_of_live hyes hport hid (by rw [hlive', hkeys]; exact hlive), hkeys, hraw]
      have hself : ((w.setKeySet (fld val 21 16) (fld val 9 0) ((s.keySet (fld val 21 16) (fld val 9 0)).switch (fld val 11 10) false
          s.raw)).keyCmdEnd 0).keySet (fld val 21 16) (fld val 9 0) = (s.keySet (fld val 21 16) (fld val 9 0)).switch (fld val 11 10)
            false s.raw := keySet_setKeySet_self ..
      rw [hself]
      refine ⟨rfl, fun hnew => ?_, cutIndex_switch _ _ _, rd_keyCmdEnd_zero _, fun a ha => ?_⟩
      · rw [KeySet.switch, if_neg hnew]
      · obtain ⟨hcmd, hstatus⟩ : a ≠ Reg.xgmKeyCmd ∧ a ≠ Reg.xgmKeyCmdStatus := by simpa using ha
        exact (State.rd_wrNat _ _ _ _).trans ((if_neg hstatus).trans (honly.2 a (by simpa using hcmd)))
    · refine hend 6 _ (by decide) (by decide) ?_
      unfold State.indexSwitch
      rw [if_neg (by omega), if_neg (by omega), if_neg hid, if_pos]
      rw [hlive', hkeys]
      simpa using hdead
    · have hport' : w.indexSwitch (fld val 21 16) (fld val 9 0) (fld val 11 10) =
          (w.switchPort (fld val 21 16) (fld val 11 10) false).keyCmdEnd 0 := by
        unfold State.indexSwitch
        rw [if_neg (by omega), if_neg (by omega), if_pos hid]
      rw [hport']
      refine ⟨rd_keyCmdEnd_zero _, ?_⟩
      have hset := bkeySet_switchPort w (fld val 21 16) (fld val 11 10)
      rw [hlive', hbkeys, hraw] at hset
      exact hset
  · intro s
    refine Runs.intro (t := s.spoofRead) rfl ?_
    unfold State.spoofRead
    refine ⟨rfl, ?_, ?_, fun a ha => ?_, rfl⟩
    · rw [State.rd_setBit, if_neg (by decide), State.rd_wrNat, if_pos rfl]
    · exact State.bit_setBit_self _ _ (by decide) _
    · obtain ⟨hspoof, hid⟩ : a ≠ Reg.xgmLastSpoof ∧ a ≠ Reg.xgmLastSpoofId := by simpa using ha
      rw [State.rd_setBit, if_neg hspoof, State.rd_wrNat, if_neg hid]
      rfl

end Sys2Proof.Machine
end

section
/-!
PROOFS. The Reckoner: Alloc contexts, DBRu reports, the profile bank and the map computation (O35; R148, R150, R151).
-/
open Sys2Proof.Safety
namespace Sys2Proof.Machine

/-! ### Alloc contexts (R150) -/

theorem alloc_setAlloc_self (s : State) (n i : Nat) (x : AllocCtx) : (s.setAlloc n i x).alloc n i = x := by
  unfold State.alloc State.setAlloc
  exact SMap.get_set_self ..

theorem sameBut_setAlloc (s : State) (n i : Nat) (x : AllocCtx) :
    SameBut (fun u k => u.rck.ctxs.get (fun _ => {}) k) [n * 4096 + i] s (s.setAlloc n i x) := by
  intro k hk
  unfold State.setAlloc
  exact SMap.get_set_other _ _ _ _ _ (by simpa using hk)

/-- A context loaded into the registers of DBA_ALLOC_SEL, as of the last computation start. -/
def State.allocShown (s : State) (n i : Nat) : State :=
  let x := (s.alloc n i).shown
  (((((s.wr Reg.dbaAllocCfg0 x.cfg0).wr Reg.dbaAllocCfg1 x.cfg1).wrNat Reg.dbaAllocFix (Nat.min x.fix 0xFFFFFF)).wrNat
    Reg.dbaAllocFixFrame x.fixFrame).wrNat Reg.dbaAllocRate x.rate).wrNat Reg.dbaAllocEst (Nat.min x.est 0xFFFFFF)

theorem allocSelWrite_of_port (s : State) {v : Word} (hport : Machine.fld v 21 16 < 48) :
    s.allocSelWrite v =
      (if Machine.bit v 30 then
        (if Machine.bit v 31 then (s.wrTyped Reg.dbaAllocSel v).setAlloc (Machine.fld v 21 16) (Machine.fld v 11 0)
            (((s.wrTyped Reg.dbaAllocSel v).alloc (Machine.fld v 21 16) (Machine.fld v 11 0)).write
              ((s.wrTyped Reg.dbaAllocSel v).rd Reg.dbaAllocCfg0) ((s.wrTyped Reg.dbaAllocSel v).rd Reg.dbaAllocCfg1))
          else s.wrTyped Reg.dbaAllocSel v).allocShown (Machine.fld v 21 16) (Machine.fld v 11 0)
      else if Machine.bit v 31 then (s.wrTyped Reg.dbaAllocSel v).setAlloc (Machine.fld v 21 16) (Machine.fld v 11 0)
            (((s.wrTyped Reg.dbaAllocSel v).alloc (Machine.fld v 21 16) (Machine.fld v 11 0)).write
              ((s.wrTyped Reg.dbaAllocSel v).rd Reg.dbaAllocCfg0) ((s.wrTyped Reg.dbaAllocSel v).rd Reg.dbaAllocCfg1))
        else s.wrTyped Reg.dbaAllocSel v) := by
  unfold State.allocSelWrite
  exact if_neg (Nat.not_le.mpr hport)

/-- The registers that DBA_ALLOC_SEL loads. -/
def allocRegs : List Nat :=
  [Reg.dbaAllocSel, Reg.dbaAllocCfg0, Reg.dbaAllocCfg1, Reg.dbaAllocFix, Reg.dbaAllocFixFrame, Reg.dbaAllocRate, Reg.dbaAllocEst]

theorem allocShown_frame (s : State) (n i : Nat) :
    (s.allocShown n i).rd Reg.dbaAllocCfg0 = (s.alloc n i).shown.cfg0 ∧
      (s.allocShown n i).rd Reg.dbaAllocCfg1 = (s.alloc n i).shown.cfg1 ∧
      (s.allocShown n i).rd Reg.dbaAllocFix = BitVec.ofNat 32 (min (s.alloc n i).shown.fix 0xFFFFFF) ∧
      (s.allocShown n i).rd Reg.dbaAllocEst = BitVec.ofNat 32 (min (s.alloc n i).shown.est 0xFFFFFF) ∧
      OnlyRegs allocRegs s (s.allocShown n i) := by
  unfold State.allocShown
  generalize (s.alloc n i).shown = x
  dsimp only
  refine ⟨?_, ?_, ?_, ?_, ?_⟩
  · rw [State.rd_wrNat, if_neg (by decide), State.rd_wrNat, if_neg (by decide), State.rd_wrNat, if_neg (by decide), State.rd_wrNat,
      if_neg (by decide), State.rd_wr_other _ _ (by decide), State.rd_wr_self]
  · rw [State.rd_wrNat, if_neg (by decide), State.rd_wrNat, if_neg (by decide), State.rd_wrNat, if_neg (by decide), State.rd_wrNat,
      if_neg (by decide), State.rd_wr_self]
  · rw [State.rd_wrNat, if_neg (by decide), State.rd_wrNat, if_neg (by decide), State.rd_wrNat, if_neg (by decide), State.rd_wrNat,
      if_pos rfl]
  · rw [State.rd_wrNat, if_pos rfl]
  · exact ((((((OnlyRegs.refl allocRegs s).wr (by decide) _).wr (by decide) _).wr (by decide) _).wr (by decide) _).wr (by decide) _).wr
      (by decide) _

theorem cfg0_write (x : AllocCtx) (c0 c1 : Word) : (x.write c0 c1).cfg0 = c0 := by
  unfold AllocCtx.write
  dsimp only
  split <;> rfl

/-! ### The map computation (R148) -/

/-- What the computation of a map may change: the Reckoner but for the map that has started and the turn of the pointers, the maps, ONU
contexts, and the counts of the Reckoner. -/
def MapStep (s t : State) : Prop :=
  (∀ a, a < Reg.dbaMaps 0 → t.rd a = s.rd a) ∧ t.rck.started = s.rck.started ∧ t.rck.turn = s.rck.turn ∧
    ∃ regs rck pon act, t = { s with regs := regs, rck := rck, pon := pon, act := act }

theorem MapStep.refl (s : State) : MapStep s s := ⟨fun _ _ => rfl, rfl, rfl, _, _, _, _, rfl⟩

theorem MapStep.trans {s t u : State} (h : MapStep s t) (k : MapStep t u) : MapStep s u := by
  obtain ⟨hregs, hstarted, hturn, _, _, _, _, rfl⟩ := h
  obtain ⟨kregs, kstarted, kturn, _, _, _, _, rfl⟩ := k
  exact ⟨fun a ha => (kregs a ha).trans (hregs a ha), kstarted.trans hstarted, kturn.trans hturn, _, _, _, _, rfl⟩

theorem MapStep.each {s : State} {f : Nat → State → State} (l : List Nat) (hf : ∀ i t, MapStep t (f i t)) : MapStep s (s.each l f) :=
  State.each_induct (P := MapStep s) (.refl s) fun i _ t ht => ht.trans (hf i t)

theorem MapStep.foldl {α : Type} {f : State → α → State} (hf : ∀ t x, MapStep t (f t x)) (l : List α) (s : State) :
    MapStep s (l.foldl f s) := by
  induction l generalizing s with
  | nil => exact .refl s
  | cons x xs ih => exact (hf s x).trans (ih _)

theorem mapStep_bumpBy (s : State) {a : Nat} (n : Nat) (ha : Reg.dbaMaps 0 ≤ a) : MapStep s (s.bumpBy a n) :=
  ⟨fun _ hb => (State.rd_bumpBy _ _ _ _).trans (if_neg (Nat.ne_of_lt (hb.trans_le ha))), rfl, rfl, _, _, _, _, rfl⟩

theorem mapStep_setAlloc (s : State) (n i : Nat) (x : AllocCtx) : MapStep s (s.setAlloc n i x) :=
  ⟨fun _ _ => rfl, rfl, rfl, _, _, _, _, rfl⟩

theorem mapStep_noteGrant (s : State) (n f : Nat) (g : Grant) : MapStep s (s.noteGrant n f g) := by
  have hploam : ∀ u : State, MapStep s u → MapStep s
      (if g.ploamu && (u.onu n g.onu).active then u.setOnu n g.onu { u.onu n g.onu with ploamu := f } else u) := fun u hu => by
    split
    · exact hu.trans ⟨fun _ _ => rfl, rfl, rfl, _, _, _, _, rfl⟩
    · exact hu
  unfold State.noteGrant
  cases g.ctx with
  | none => exact hploam s (.refl s)
  | some a => exact hploam _ (mapStep_setAlloc ..)

theorem mapStep_mapMade (s : State) (j f : Nat) (z : Sizing) (pl : Placing) (lost : Nat) : MapStep s (s.mapMade j f z pl lost) := by
  unfold State.mapMade
  dsimp only
  have hmaps : ∀ (t : State) (l : List PonMap), MapStep t (t.setMaps j l) := fun t l => ⟨fun _ _ => rfl, rfl, rfl, _, _, _, _, rfl⟩
  refine ((((((MapStep.foldl (fun t w => mapStep_setAlloc t _ _ _) _ s).trans
    (MapStep.foldl (fun t g => mapStep_noteGrant t _ f g) _ _)).trans (hmaps _ _)).trans (mapStep_bumpBy _ 1 ?_)).trans
    (mapStep_bumpBy _ _ ?_)).trans (mapStep_bumpBy _ _ ?_)).trans ((mapStep_bumpBy _ _ ?_).trans (mapStep_bumpBy _ _ ?_))
  all_goals
    simp only [Reg.dbaMaps, Reg.dbaStructs, Reg.dbaStructShort, Reg.dbaCapShort, Reg.dbaBookLost]
    omega

theorem mapStep_dropPieces (s : State) (n f : Nat) : MapStep s (s.dropPieces n f) := by
  unfold State.dropPieces
  dsimp only
  refine (MapStep.each _ fun j t => mapStep_bumpBy t _ ?_).trans ⟨fun _ _ => rfl, rfl, rfl, _, _, _, _, rfl⟩
  simp only [Reg.dbaMaps, Reg.dbaBookLost]
  omega

theorem mapStep_ctxStart (s : State) (n i f : Nat) : MapStep s (s.ctxStart n i f) := by
  have hdrop : ∀ key, MapStep s (s.dropBookings key) := fun key => by
    unfold State.dropBookings
    refine MapStep.trans ⟨fun _ _ => rfl, rfl, rfl, _, _, _, _, rfl⟩ (MapStep.foldl (fun t b => mapStep_bumpBy t _ ?_) _ _)
    simp only [Reg.dbaMaps, Reg.dbaBookLost]
    omega
  unfold State.ctxStart
  dsimp only
  refine MapStep.trans ?_ (mapStep_setAlloc ..)
  split
  · exact hdrop _
  · exact .refl s

theorem mapStep_computePort (s : State) (f n : Nat) : MapStep s (s.computePort f n) := by
  unfold State.computePort
  exact ((MapStep.each _ fun i t => mapStep_ctxStart t n i f).trans (MapStep.foldl (fun t e => mapStep_mapMade t _ f _ _ _) _ _)).trans
    (mapStep_dropPieces _ n f)

theorem mapStep_reserveDisc (s : State) (j f : Nat) : MapStep s (s.reserveDisc j f) := by
  unfold State.reserveDisc
  dsimp only
  split
  · exact ⟨fun _ _ => rfl, rfl, rfl, _, _, _, _, rfl⟩
  · exact .refl s

/-- The next map starts (R148): the pending switch of the profile bank is made, the pointers turn. -/
theorem mapStart_frame (s : State) :
    s.mapStart.rck.started = (s.chrono.ponSf + 2) % 2 ^ 51 ∧ s.mapStart.rck.turn = s.rck.turn + 1 ∧
      s.mapStart.activeBank Reg.dbaCommit =
        (if s.bit Reg.dbaCommit 30 then s.fld Reg.dbaCommit 1 1 else s.activeBank Reg.dbaCommit) ∧
      s.mapStart.bit Reg.dbaCommit 30 = false ∧
      s.mapStart = { s with regs := s.mapStart.regs, rck := s.mapStart.rck, pon := s.mapStart.pon, act := s.mapStart.act } := by
  unfold State.mapStart
  dsimp only
  generalize (s.chrono.ponSf + 2) % 2 ^ 51 = f
  generalize hu : (if s.bit Reg.dbaCommit 30 then s.bankSwitch Reg.dbaCommit (s.fld Reg.dbaCommit 1 1) else s) = u
  have hbank : u.activeBank Reg.dbaCommit = (if s.bit Reg.dbaCommit 30 then s.fld Reg.dbaCommit 1 1 else s.activeBank Reg.dbaCommit) ∧
      u.bit Reg.dbaCommit 30 = false ∧ OnlyRegs [Reg.dbaCommit] s u := by
    rw [← hu]
    split
    · exact ⟨State.bankSwitch_bank _ _ (Nat.mod_lt _ (by decide)), State.bankSwitch_pending _ _, State.onlyRegs_bankSwitch _ _⟩
    · next h => exact ⟨rfl, Bool.eq_false_iff.mpr h, OnlyRegs.refl _ _⟩
  obtain ⟨hactive, hdone, hframe, -⟩ := hbank
  obtain ⟨hregs, hstarted, hturn, regs, rck, pon, act, hstep⟩ :=
    (MapStep.each (s := { u with rck.started := f }) (({ u with rck.started := f } : State).allChannels)
      fun j t => mapStep_reserveDisc t j (f + 64)).trans (MapStep.each (List.range 48) fun n t => mapStep_computePort t f n)
  generalize State.each (State.each _ _ _) _ _ = w at hregs hstarted hturn hstep
  have hrd : w.rd Reg.dbaCommit = u.rd Reg.dbaCommit := hregs _ (by decide)
  refine ⟨hstarted, ?_, ?_, ?_, ?_⟩
  · rw [hturn, hframe]
  · exact (congrArg (Machine.fld · 16 16) hrd).trans hactive
  · exact (congrArg (Machine.bit · 30) hrd).trans hdone
  · rw [hstep, hframe]

/-- Settles O35. -/
theorem reckonerContextsReportsAndBanks : Obligations.ReckonerContextsReportsAndBanks := by
  refine ⟨?_, ?_, ?_, ?_, ?_, ?_, ?_, ?_, ?_, ?_, ?_, ?_, ?_⟩
  · intro val s hwrite hport
    refine Runs.intro (t := s.allocSelWrite val) rfl ?_
    obtain ⟨hframe, hregs⟩ := s.onlyRegs_wrTyped val Reg.dbaAllocSel
    rw [allocSelWrite_of_port s hport, if_pos hwrite, State.rd_wrTyped_other s val (show Reg.dbaAllocCfg0 ≠ Reg.dbaAllocSel by decide),
      State.rd_wrTyped_other s val (show Reg.dbaAllocCfg1 ≠ Reg.dbaAllocSel by decide)]
    have halloc : (s.wrTyped Reg.dbaAllocSel val).alloc (fld val 21 16) (fld val 11 0) = s.alloc (fld val 21 16) (fld val 11 0) := by
      rw [hframe]
      rfl
    rw [halloc]
    generalize s.wrTyped Reg.dbaAllocSel val = w at *
    generalize hx : (s.alloc (fld val 21 16) (fld val 11 0)).write (s.rd Reg.dbaAllocCfg0) (s.rd Reg.dbaAllocCfg1) = x
    have hself := alloc_setAlloc_self w (fld val 21 16) (fld val 11 0) x
    have hother := sameBut_setAlloc w (fld val 21 16) (fld val 11 0) x
    have hset : w.setAlloc (fld val 21 16) (fld val 11 0) x =
        { s with regs := w.regs, rck.ctxs := (w.setAlloc (fld val 21 16) (fld val 11 0) x).rck.ctxs } := by
      rw [hframe]
      rfl
    have hwregs : ∀ a, (w.setAlloc (fld val 21 16) (fld val 11 0) x).rd a = w.rd a := fun _ => rfl
    have hctxs : w.rck.ctxs = s.rck.ctxs := by rw [hframe]
    generalize w.setAlloc (fld val 21 16) (fld val 11 0) x = u at *
    have hshown : OnlyRegs allocRegs u (if bit val 30 then u.allocShown (fld val 21 16) (fld val 11 0) else u) := by
      split
      · exact (allocShown_frame u _ _).2.2.2.2
      · exact OnlyRegs.refl _ _
    generalize (if bit val 30 then _ else _ : State) = t at *
    obtain ⟨htframe, htregs⟩ := hshown
    have htrck : t.rck = u.rck := by rw [htframe]
    have hat : t.alloc (fld val 21 16) (fld val 11 0) = x := by
      rw [State.alloc, htrck]
      exact hself
    refine ⟨hat, ?_, fun k hk => ?_, fun a ha => ?_, ?_⟩
    · rw [hat, ← hx]
      exact cfg0_write ..
    · dsimp only
      rw [htrck, ← hctxs]
      exact hother k hk
    · refine (htregs a ha).trans ((hwregs a).trans (hregs a fun h => ha ?_))
      exact List.mem_cons.mpr (.inl (List.mem_singleton.mp h))
    · rw [htframe, hset]
  · intro val s hnone hread hport
    refine Runs.intro (t := s.allocSelWrite val) rfl ?_
    have honly := s.onlyRegs_wrTyped val Reg.dbaAllocSel
    have halloc : (s.wrTyped Reg.dbaAllocSel val).alloc (fld val 21 16) (fld val 11 0) = s.alloc (fld val 21 16) (fld val 11 0) := by
      rw [honly.1]
      rfl
    obtain ⟨h0, h1, hfix, hest, hshown⟩ := allocShown_frame (s.wrTyped Reg.dbaAllocSel val) (fld val 21 16) (fld val 11 0)
    rw [halloc] at h0 h1 hfix hest
    rw [allocSelWrite_of_port s hport, if_pos hread, if_neg (Bool.eq_false_iff.mp hnone)]
    exact ⟨h0, h1, hfix, hest, (honly.mono (by decide)).comp hshown⟩
  · intro val s hread hport
    refine Runs.intro (t := s.allocSelWrite val) rfl ?_
    rw [allocSelWrite_of_port s hport, if_pos hread]
    generalize (if bit val 31 then _ else _ : State) = u
    obtain ⟨h0, h1, -, -, hframe, -⟩ := allocShown_frame u (fld val 21 16) (fld val 11 0)
    have halloc : (u.allocShown (fld val 21 16) (fld val 11 0)).alloc (fld val 21 16) (fld val 11 0) =
        u.alloc (fld val 21 16) (fld val 11 0) := by
      rw [hframe]
      rfl
    rw [halloc]
    exact ⟨h0, h1⟩
  · intro val s hport
    have hsel : s.allocSelWrite val = s.wrTyped Reg.dbaAllocSel val := if_pos hport
    exact ⟨Runs.intro (congrArg Host.Outcome.next hsel) (s.onlyRegs_wrTyped val _),
      Runs.intro (congrArg Host.Outcome.next hsel) (s.onlyRegs_wrTyped val _)⟩
  · intro j f i k bytes a s b g hb hst hg hctx hdbru hreseed hlater
    refine Runs.intro (t := s.dbruReport j.val f i k true bytes) rfl ?_
    have hrun : s.dbruReport j.val f i k true bytes =
        (s.setAlloc (j.val / 2) a ((s.alloc (j.val / 2) a).fix f bytes s.alphaShift)).bump (Reg.dbaReports j.val) := by
      rw [State.dbruReport, hb, Option.bind_some, if_pos hst, hg]
      simp only [hctx, hdbru, hreseed, Bool.not_true, Bool.false_or, Bool.false_eq_true, if_false, decide_eq_true_eq]
      exact if_neg (Nat.not_le.mpr hlater)
    rw [hrun]
    have hself := alloc_setAlloc_self s (j.val / 2) a ((s.alloc (j.val / 2) a).fix f bytes s.alphaShift)
    have hother := sameBut_setAlloc s (j.val / 2) a ((s.alloc (j.val / 2) a).fix f bytes s.alphaShift)
    refine ⟨(congrArg AllocCtx.fixBytes hself).trans rfl, (congrArg AllocCtx.fixFrame hself).trans rfl, ?_, hother, fun b hb => ?_, rfl⟩
    · exact (State.rd_bump _ _ _).trans (if_pos rfl)
    · exact (State.rd_bump _ _ _).trans (if_neg (by simpa using hb))
  · intro j f i k bytes a good s b g hb hst hg hctx hdbru hbad
    refine congrArg Host.Outcome.next ?_
    rw [State.dbruReport, hb, Option.bind_some, if_pos hst, hg]
    simp only [hctx, hdbru, Bool.not_true, Bool.false_eq_true, if_false]
    refine if_pos ?_
    rcases hbad with h | h | h
    · rw [h]
      rfl
    · rw [decide_eq_true h, Bool.or_true]
    · rw [h, Bool.or_true]
      rfl
  · intro j f i k bytes good s hno
    refine congrArg Host.Outcome.next ?_
    rw [State.dbruReport]
    cases hb : s.burstOf j.val f i with
    | none => rfl
    | some b =>
      rw [hb, Option.all_some] at hno
      rw [Option.bind_some]
      split
      · next g hg =>
        split at hg
        · next hst =>
          rw [hst, hg] at hno
          simp only [bne_self_eq_false, Bool.false_or, Option.all_some, Bool.or_eq_true, Bool.not_eq_true'] at hno
          split
          · next a ha =>
            rw [ha] at hno
            rw [hno.resolve_right (by simp)]
            rfl
          · rfl
        · exact absurd hg (by simp)
      · rfl
  · intro val s hgo hsame
    have hrun : s.dbaCommitWrite val = (s.wrTyped Reg.dbaCommit val).bankRequest Reg.dbaCommit (fld val 0 0) := by
      rw [State.dbaCommitWrite, hgo, hsame]
      rfl
    have hbank : (s.wrTyped Reg.dbaCommit val).activeBank Reg.dbaCommit = s.activeBank Reg.dbaCommit := s.fld_wrTyped_kept val (by decide)
    refine ⟨fun hother => Runs.intro (t := s.dbaCommitWrite val) rfl ?_, fun hactive => Runs.intro (t := s.dbaCommitWrite val) rfl ?_⟩
    · obtain ⟨hpending, htarget, hkept, -⟩ := State.bankRequest_other _ Reg.dbaCommit (by rw [hbank]; exact hother)
        (Nat.mod_lt _ (by decide) : fld val 0 0 < 2)
      rw [hrun]
      exact ⟨hpending, htarget, hkept.trans hbank, (s.onlyRegs_wrTyped _ _).comp (State.onlyRegs_bankRequest _ _)⟩
    · obtain ⟨hpending, hkept, -⟩ := State.bankRequest_active _ Reg.dbaCommit (hbank.trans hactive)
      rw [hrun]
      exact ⟨hpending, hkept.trans hbank, (s.onlyRegs_wrTyped _ _).comp (State.onlyRegs_bankRequest _ _)⟩
  · intro val s hsame
    refine Runs.intro (t := s.dbaCommitWrite val) rfl ?_
    have hwrite : s.dbaCommitWrite val = s.wrTyped Reg.dbaCommit val := by
      rw [State.dbaCommitWrite, hsame, Bool.not_true, Bool.and_false]
      rfl
    rw [hwrite]
    exact ⟨s.fld_wrTyped_kept val (by decide), s.bit_wrTyped_kept val (by decide) (by decide), s.onlyRegs_wrTyped _ _⟩
  · intro at' s u hu
    refine Runs.intro (t := u.mapStart) (congrArg Host.Outcome.next ?_) (mapStart_frame u)
    rw [← hu]
    rfl
  · intro at' a s u hu
    refine Runs.intro (t := u.mapWithout [a]) (congrArg Host.Outcome.next (by rw [← hu])) ?_
    have hnoted := State.noted_memoryError u (kind := 6) (by decide) (by decide) true 0 0 (BitVec.ofNat 64 a)
    have hrck : (u.memoryError 6 true 0 0 (BitVec.ofNat 64 a)).rck = u.rck := by rw [hnoted]
    have hchrono : (u.memoryError 6 true 0 0 (BitVec.ofNat 64 a)).chrono = u.chrono := by rw [hnoted]
    have hrun : u.mapWithout [a] = { ({ u.memoryError 6 true 0 0 (BitVec.ofNat 64 a) with
        rck.ctxs := u.rck.ctxs.set (fun _ => {}) a {} } : State).mapStart with
      rck.ctxs := ({ u.memoryError 6 true 0 0 (BitVec.ofNat 64 a) with
        rck.ctxs := u.rck.ctxs.set (fun _ => {}) a {} } : State).mapStart.rck.ctxs.set
        (fun _ => {}) a (u.rck.ctxs.get (fun _ => {}) a) } := by
      unfold State.mapWithout State.each State.each
      rfl
    rw [hrun]
    clear hrun
    generalize u.memoryError 6 true 0 0 (BitVec.ofNat 64 a) = v at hrck hchrono
    obtain ⟨hstarted, hturn, -, hdone, -⟩ := mapStart_frame { v with rck.ctxs := u.rck.ctxs.set (fun _ => {}) a {} }
    generalize State.mapStart _ = w at *
    refine ⟨hstarted.trans (by rw [← hchrono]), hturn.trans (by rw [← hrck]), SMap.get_set_self (fun _ => {}) w.rck.ctxs a _, (State.bit_of_regs (s := w) rfl _ _).trans hdone⟩
  · intro j s m hm
    refine Runs.intro (t := s.mapComplete j.val) rfl ?_
    have hrun : s.mapComplete j.val = s.updMap j.val m.f fun m => { m with done := true } := by rw [State.mapComplete, hm]
    rw [hrun, State.updMap]
    refine ⟨SMap.get_set_self .., fun k hk => ?_, rfl⟩
    exact SMap.get_set_other _ _ _ _ _ (by simpa using hk)
  · intro j s hall
    refine congrArg Host.Outcome.next ?_
    have hnone : (s.maps j.val).filter (fun m => !m.done) = [] := List.filter_eq_nil_iff.mpr fun m hm => by
      have hdone := List.all_eq_true.mp hall m hm
      simp [hdone]
    rw [State.mapComplete, hnone]
    rfl

end Sys2Proof.Machine
end

section
/-!
PROOFS. What a port or a link group that follows its causes may change, and image loads (O37; R24 to R30).
-/
open Sys2Proof.Safety
namespace Sys2Proof.Machine

/-! ### Ports and link groups that follow their causes -/

/-- From `s` to `t` ports have come up or gone down: registers, queues, cells, messages and port blocks may have moved, but no mode,
no operation, no time and nothing of the structure. -/
def Linked (s t : State) : Prop :=
  ∃ regs drawn out obs damage pool voq alm rhb net xgm,
    t = { s with regs := regs, drawn := drawn, out := out, obs := obs, chk.damage := damage, pool := pool, voq := voq, alm := alm,
                 rhb := rhb, net := net, xgm := xgm }

theorem Linked.refl (s : State) : Linked s s := ⟨_, _, _, _, _, _, _, _, _, _, _, rfl⟩

theorem Linked.trans {s t u : State} (h : Linked s t) (k : Linked t u) : Linked s u := by
  obtain ⟨_, _, _, _, _, _, _, _, _, _, _, rfl⟩ := h
  obtain ⟨_, _, _, _, _, _, _, _, _, _, _, rfl⟩ := k
  exact ⟨_, _, _, _, _, _, _, _, _, _, _, rfl⟩

theorem Linked.each {s : State} {f : Nat → State → State} (l : List Nat) (hf : ∀ i t, Linked t (f i t)) : Linked s (s.each l f) :=
  State.each_induct (P := Linked s) (.refl s) fun i _ t ht => ht.trans (hf i t)

theorem Linked.dev {s t : State} (h : Linked s t) : t.dev = s.dev := by
  obtain ⟨_, _, _, _, _, _, _, _, _, _, _, rfl⟩ := h
  rfl

theorem linked_wr (s : State) (a : Nat) (v : Word) : Linked s (s.wr a v) := ⟨_, _, _, _, _, _, _, _, _, _, _, rfl⟩

theorem linked_wrWords (s : State) (a : Nat) (l : List Word) : Linked s (s.wrWords a l) := by
  induction l generalizing s a with
  | nil => exact .refl s
  | cons w ws ih => exact (linked_wr s a w).trans (ih _ _)

theorem linked_raise (s : State) (leaf inst : Nat) (w1 w2 w3 : Word) : Linked s (s.raise leaf inst w1 w2 w3) := by
  rw [State.raise_frame s leaf inst w1 w2 w3]
  exact ⟨_, _, _, _, _, _, _, _, _, _, _, rfl⟩

theorem linked_event (s : State) (leaf inst : Nat) : Linked s (s.event leaf inst) := linked_raise ..

theorem linked_opEnd (s : State) (o : LongOp) (e : OpEnd) : Linked s (s.opEnd o e) := by
  unfold State.opEnd
  dsimp only
  split
  · exact (linked_wr s _ _).trans (linked_raise _ _ _ _ _ _)
  · exact linked_wr s _ _

theorem linked_flushed {s t : State} (h : Flushed s t) : Linked s t := by
  obtain ⟨-, _, _, _, _, _, _, _, _, rfl⟩ := h
  exact ⟨_, _, _, _, _, _, _, _, _, _, _, rfl⟩

theorem linked_portState (s : State) (i st : Nat) : Linked s (s.portState i st) := by
  obtain ⟨_, hstate⟩ := portState_frame s i st
  rw [hstate]
  exact ⟨_, _, _, _, _, _, _, _, _, _, _, rfl⟩

theorem linked_flushPort (s : State) (i : Nat) : Linked s (s.flushPort i) := by
  obtain ⟨u, hu, hflush⟩ := flushPort_frame s i
  rw [hflush]
  exact ((linked_flushed hu).trans ⟨_, _, _, _, _, _, _, _, _, _, _, rfl⟩).trans (linked_event _ _ _)

theorem linked_setHoldOf (s : State) (i : Nat) (h : Hold) : Linked s (s.setHoldOf i h) := ⟨_, _, _, _, _, _, _, _, _, _, _, rfl⟩

theorem linked_portDown (s : State) (i : Nat) : Linked s (s.portDown i) := by
  unfold State.portDown
  split
  · exact .refl s
  · dsimp only
    split
    · exact ((linked_setHoldOf s i _).trans (linked_portState _ _ _)).trans (linked_flushPort _ _)
    · exact (linked_setHoldOf s i _).trans (linked_portState _ _ _)

theorem linked_portUp (s : State) (i : Nat) : Linked s (s.portUp i) := by
  unfold State.portUp
  split
  · exact (linked_setHoldOf s i _).trans (linked_portState _ _ _)
  · exact .refl s

theorem linked_restDrop (s : State) (j : Nat) : Linked s (s.restDrop j) := ⟨_, _, _, _, _, _, _, _, _, _, _, rfl⟩

theorem linked_ponFollow (s : State) (n : Nat) : Linked s (s.ponFollow n) := by
  unfold State.ponFollow
  dsimp only
  have hshown := (((linked_wr s _ _).trans (linked_wr _ _ _)).trans (linked_wr _ _ _) : Linked s (((s.setFld (Reg.ponLineStatus n) 27 24
    (s.ponCause n)).setBit (Reg.ponLineStatus n) 31 (s.ponCause n == 0)).setBit (Reg.ponLineStatus n) 29 (s.ponPort n).los))
  split
  · exact hshown
  · split
    · exact (((hshown.trans (linked_event _ _ _)).trans (linked_restDrop _ _)).trans (linked_restDrop _ _)).trans (linked_portDown _ _)
    · exact (hshown.trans (linked_event _ _ _)).trans (linked_portUp _ _)

theorem linked_setNet (s : State) (i : Nat) (x : NetPort) : Linked s (s.setNet i x) := ⟨_, _, _, _, _, _, _, _, _, _, _, rfl⟩

theorem linked_emit (s : State) (o : Output) : Linked s (s.emit o) := ⟨_, _, _, _, _, _, _, _, _, _, _, rfl⟩

theorem linked_txCut (s : State) (i : Nat) : Linked s (s.txCut i) := by
  unfold State.txCut
  dsimp only
  split
  · exact .refl s
  · exact (linked_setNet s i _).trans (linked_emit _ _)

theorem linked_netComeUp (s : State) (i : Nat) : Linked s (s.netComeUp i) := by
  unfold State.netComeUp
  exact ((((linked_wr s _ _).trans (linked_wr _ _ _)).trans (linked_setNet _ _ _)).trans (linked_event _ _ _)).trans (linked_portUp _ _)

theorem linked_netFollow (s : State) (i : Nat) : Linked s (s.netFollow i) := by
  have hcause (c : Nat) (x : NetPort) : Linked s ((s.setFld (Reg.netPortStatus i) 26 24 c).setNet i x) :=
    (linked_wr s _ _).trans (linked_setNet _ _ _)
  unfold State.netFollow
  dsimp only
  split
  · split
    · exact (((((hcause _ _).trans (linked_wr _ _ _)).trans (linked_wr _ _ _)).trans (linked_event _ _ _)).trans
        (linked_txCut _ _)).trans ((linked_emit _ _).trans (linked_portDown _ _))
    · exact hcause _ _
  · split
    · exact .refl s
    · split
      · exact linked_netComeUp s i
      · split
        · exact .refl s
        · exact hcause _ _

theorem linked_setGroup (s : State) (g : Nat) (x : Group) : Linked s (s.setGroup g x) := ⟨_, _, _, _, _, _, _, _, _, _, _, rfl⟩

theorem linked_drainIf (s : State) (d : Nat) (was : Word) (spray : Bool) : Linked s (s.drainIf d was spray) := by
  unfold State.drainIf
  split
  · exact .refl s
  · exact ⟨_, _, _, _, _, _, _, _, _, _, _, rfl⟩

theorem linked_clearMiswired (s : State) (g : Nat) : Linked s (s.clearMiswired g) :=
  .each _ fun _ t => linked_wr t _ _

theorem linked_grpRefresh (s : State) (g : Nat) : Linked s (s.grpRefresh g) := by
  have hshown (n st : Nat) (b : Bool) : Linked s ((((s.wr (Reg.rhbGrpRxOk g) (s.rxOkOf g)).wrNat (Reg.rhbGrpSkew g)
      (min 1023 (s.skewOf g))).wrNat (Reg.rhbGrpStatus g) n).setBit Reg.rhbStatus st b) :=
    (((linked_wr s _ _).trans (linked_wr _ _ _)).trans (linked_wr _ _ _)).trans (linked_wr _ _ _)
  have hgroup {v : State} (x y : Group) (h : Linked s v) :
      Linked s (if s.grpState g = 0 then (v.setGroup g x).clearMiswired g else v.setGroup g y) := by
    split
    · exact (h.trans (linked_setGroup _ _ _)).trans (linked_clearMiswired _ _)
    · exact h.trans (linked_setGroup _ _ _)
  unfold State.grpRefresh
  dsimp only
  refine Linked.trans (t := _) ?_ (.each _ fun i t => ?_)
  · split
    · exact hgroup _ _ (hshown _ _ _)
    · exact (hgroup _ _ (hshown _ _ _)).trans (linked_event _ _ _)
  · split
    · exact linked_drainIf _ _ _ _
    · exact .refl t

/-! ### An image that takes effect -/

theorem linked_setGroups (s : State) (c : PortSection) : Linked s (s.setGroups c) :=
  .each _ fun g t => (linked_wr t _ _).trans (linked_grpRefresh _ g)

theorem linked_setCarve (s : State) (c : Carve) : Linked s (s.setCarve c) := by
  unfold State.setCarve
  dsimp only
  refine Linked.trans (Linked.trans ?_ (.each _ fun _ _ => linked_wr _ _ _)) (.each _ fun _ _ => linked_wrWords _ _ _)
  exact linked_wr s _ _

theorem linked_setPers (s : State) (n code : Nat) : Linked s (s.setPers n code) := by
  unfold State.setPers
  dsimp only
  refine (linked_wr s _ _).trans (.each _ fun k t => ?_)
  generalize (if code < 5 then code else 0) = c
  split
  · exact linked_wrWords t _ _
  · exact linked_wrWords t _ _

theorem putChart_dev (s : State) (l : List (Nat × List Word)) : (s.putChart l).dev = s.dev := by
  induction l generalizing s with
  | nil => rfl
  | cons e l ih => exact (ih _).trans rfl

/-- A committed image is the structure, and the structure is valid (R28). -/
theorem commitImage_dev (s : State) (b : ImageBody) (id : Word) :
    (s.commitImage b id).dev.structValid = true ∧ (s.commitImage b id).dev.body = b := by
  have hset (u : State) : Linked u ((((u.setCarve b.carve).setGroups b.port).each (List.range 48) fun n s =>
      (s.setPers n (persOf b.port.pon n)).ponFollow n).each (List.range 24) fun m s =>
        (s.wrNat (Reg.netPersonality m) (netPersOf b.port m)).netFollow m) :=
    (((linked_setCarve u _).trans (linked_setGroups _ _)).trans
      (.each _ fun n t => (linked_setPers t _ _).trans (linked_ponFollow _ n))).trans
      (.each _ fun m t => (linked_wr t _ _).trans (linked_netFollow _ m))
  have hcharts (u : State) : (u.each (List.range 9) fun p s => s.putChart (defaultEntries b.entries p fun _ => true)).dev = u.dev :=
    State.each_induct (P := fun t => t.dev = u.dev) rfl fun p _ t ht => (putChart_dev t _).trans ht
  have hpipes (u : State) : u.startPipes.dev.structValid = u.dev.structValid ∧ u.startPipes.dev.body = u.dev.body :=
    State.each_induct (P := fun t => t.dev.structValid = u.dev.structValid ∧ t.dev.body = u.dev.body) ⟨rfl, rfl⟩ fun _ _ _ ht => ht
  unfold State.commitImage
  dsimp only
  rw [(hset _).dev, hcharts]
  exact hpipes _

/-! ### Image loads -/

/-- PROGRESS is set; the rest of OPSTAT stays. -/
theorem setLoad_frame (s : State) (r : LoadRun) :
    s.setLoad r = { s with regs := (s.setLoad r).regs, dev := { s.dev with load := some r } } ∧
      RegsBut [opStat .imageLoad] s (s.setLoad r) :=
  ⟨rfl, fun _ ha => State.rd_wr_other _ _ (List.ne_of_not_mem_cons ha)⟩

/-- What the failure of an operation leaves: REASON and FAIL in OPSTAT beside PROGRESS, and nothing else without EVENT_EN. -/
theorem opFail_stat (s : State) (o : LongOp) (reason : Nat) :
    (s.opFail o reason).fld (opStat o) 31 24 = (0x10 + reason % 16) % 256 ∧ (s.opFail o reason).progress o = s.progress o := by
  have hstat : (s.opFail o reason).rd (opStat o) = Machine.setFld (s.rd (opStat o)) 31 24 (0x10 + reason % 16) := by
    rw [State.opFail, rd_opEnd_opStat, rd_opIdle _ _ (opStat_ne_devCommStatus o), opStatEnd]
  constructor
  · rw [State.fld, hstat, Machine.fld_setFld_self _ (by decide) (by decide)]
    rfl
  · rw [State.progress, State.fld, hstat, Machine.fld_setFld_other _ (by decide) (by decide)]
    rfl

theorem opFail_dev (s : State) (o : LongOp) (reason : Nat) : (s.opFail o reason).dev = (s.opIdle o).dev :=
  (linked_opEnd _ _ _).dev

theorem regsBut_opFail_imageLoad {s : State} (hquiet : s.bit (opCtrl .imageLoad) 29 = false) (reason : Nat) :
    RegsBut [opStat .imageLoad] s (s.opFail .imageLoad reason) := by
  have hidle : (s.opIdle .imageLoad).bit (opCtrl .imageLoad) 29 = false := hquiet
  rw [State.opFail, opEnd_of_quiet hidle]
  exact fun _ ha => State.rd_wr_other _ _ (List.ne_of_not_mem_cons ha)

theorem opDone_dev (s : State) (o : LongOp) : (s.opDone o).dev = (s.opIdle o).dev := (linked_opEnd _ _ _).dev

theorem opDone_imageLoad_dev (s : State) : (s.opDone .imageLoad).dev = { s.dev with load := none } := opDone_dev s .imageLoad

theorem opDone_stat (s : State) (o : LongOp) : (s.opDone o).fld (opStat o) 31 24 = 0x40 := by
  rw [State.opDone, State.fld, rd_opEnd_opStat, opStatEnd, Machine.fld_setFld_self _ (by decide) (by decide)]
  rfl

/-- EVENT_EN of a load is none of the bits that its progress changes. -/
theorem quiet_setLoad (s : State) (r : LoadRun) : (s.setLoad r).bit (opCtrl .imageLoad) 29 = s.bit (opCtrl .imageLoad) 29 := by
  rw [State.bit, (setLoad_frame s r).2 _ (by decide)]
  rfl

/-- A load that fails after its progress is shown. -/
theorem setLoad_opFail (s : State) (r : LoadRun) (reason : Nat) :
    ((s.setLoad r).opFail .imageLoad reason).dev.load = none ∧
      ((s.setLoad r).opFail .imageLoad reason).fld (opStat .imageLoad) 31 24 = (0x10 + reason % 16) % 256 ∧
      ((s.setLoad r).opFail .imageLoad reason).dev.structValid = s.dev.structValid ∧
      (s.bit (opCtrl .imageLoad) 29 = false → RegsBut [opStat .imageLoad] s ((s.setLoad r).opFail .imageLoad reason)) := by
  refine ⟨by rw [opFail_dev]; rfl, (opFail_stat _ _ _).1, by rw [opFail_dev]; rfl, fun hquiet a ha => ?_⟩
  rw [regsBut_opFail_imageLoad ((quiet_setLoad s r).trans hquiet) _ a ha, (setLoad_frame s r).2 a ha]

/-- Settles O37. -/
theorem imageLoadsGoThroughFiveConditions : Obligations.ImageLoadsGoThroughFiveConditions := by
  unfold Obligations.ImageLoadsGoThroughFiveConditions
  refine ⟨?_, ?_, ?_, ?_, ?_, ?_, ?_, ?_, ?_⟩
  · intro h s r hload hhdr
    refine Runs.intro (t := s.loadHeader h) rfl ?_
    have hrun : s.loadHeader h = if headerOk h then s.setLoad { r with hdr := some h, bytes := 32 } else
        (s.setLoad { r with hdr := some h, bytes := 32 }).opFail .imageLoad (s.imgReason 13) := by
      rw [State.loadHeader, hload]
      dsimp only
      rw [hhdr]
      rfl
    refine ⟨fun hok => ?_, fun hbad => ?_⟩
    · rw [hrun, if_pos hok]
      exact ⟨rfl, setLoad_frame s _⟩
    · rw [hrun, hbad, if_neg Bool.false_ne_true]
      obtain ⟨hnone, hstat, -, hquiet⟩ := setLoad_opFail s { r with hdr := some h, bytes := 32 } (s.imgReason 13)
      refine ⟨hnone, hstat.trans ?_, hquiet⟩
      unfold State.imgReason
      split
      · rfl
      · rfl
  · intro dir s r h hload hhdr hdir hlen
    refine Runs.intro (t := s.loadDirectory dir) rfl ?_
    have hrun : s.loadDirectory dir = if lengthOk h r.len dir then s.setLoad { r with dir := dir, bytes := 32 + 16 * h.sectionCount } else
        (s.setLoad { r with dir := dir, bytes := 32 + 16 * h.sectionCount }).opFail .imageLoad (s.imgReason 8) := by
      rw [State.loadDirectory, hload]
      dsimp only
      rw [hhdr]
      exact if_neg (by simp [hdir, hlen])
    refine ⟨fun hok => ?_, fun hbad => ?_⟩
    · rw [hrun, if_pos hok]
      exact ⟨rfl, setLoad_frame s _⟩
    · rw [hrun, hbad, if_neg Bool.false_ne_true]
      obtain ⟨hnone, hstat, -, hquiet⟩ := setLoad_opFail s { r with dir := dir, bytes := 32 + 16 * h.sectionCount } (s.imgReason 8)
      refine ⟨hnone, hstat.trans ?_, hquiet⟩
      unfold State.imgReason
      split
      · rfl
      · rfl
  · intro pubkey sig digest s r h hload hhdr hdir hsecond
    refine Runs.intro (t := s.loadFirstEnd pubkey sig digest) rfl ?_
    generalize hv : s.setLoad { r with second := true, digest := digest, bytes := r.len } = v
    have hrun : s.loadFirstEnd pubkey sig digest = if !s.sigOk h pubkey sig digest then v.opFail .imageLoad 9
        else if h.svn < s.sec.otp.imgSvnMin then v.opFail .imageLoad 10 else v.invalidate := by
      rw [State.loadFirstEnd, hload]
      dsimp only
      rw [← hv, hhdr]
      dsimp only
      rw [if_neg (by simp [hdir, hsecond])]
    obtain ⟨hnone9, hstat9, -, hquiet9⟩ := setLoad_opFail s { r with second := true, digest := digest, bytes := r.len } 9
    obtain ⟨hnone10, hstat10, -, hquiet10⟩ := setLoad_opFail s { r with second := true, digest := digest, bytes := r.len } 10
    rw [hv] at hnone9 hstat9 hquiet9 hnone10 hstat10 hquiet10
    rw [hrun]
    refine ⟨fun hsig => ?_, fun hsig hsvn => ?_, fun hsig hsvn => ?_, fun hquiet => ?_⟩
    · rw [hsig]
      exact ⟨hnone9, hstat9⟩
    · rw [hsig, if_neg (by decide), if_pos hsvn]
      exact ⟨hnone10, hstat10⟩
    · rw [hsig, if_neg (by decide), if_neg (Nat.not_lt.mpr hsvn), ← hv]
      exact ⟨rfl, rfl⟩
    · split
      · exact hquiet9 hquiet
      · split
        · exact hquiet10 hquiet
        · rw [← hv]
          exact (setLoad_frame s _).2
  · intro sec s r i e hload hsecond hnext htype
    generalize hr' : ({ r with body := applySection r.body sec, applied := r.applied ++ [i], bytes := r.len + e.offset + e.length } : LoadRun) = r'
    refine Runs.intro (t := (s.setLoad r').wrNat Reg.devImgOpPartial (2 ^ 31 + i)) (congrArg Host.Outcome.next ?_) ?_
    · rw [State.loadSection, hload]
      dsimp only
      rw [hnext, ← hr']
      exact if_neg (by simp [hsecond, htype])
    · refine ⟨rfl, by rw [State.rd_wrNat, if_pos rfl], fun a ha => ?_, rfl⟩
      obtain ⟨hstat, hpart⟩ := not_or.mp (mt List.mem_cons.mpr ha)
      rw [State.rd_wrNat, if_neg (by simpa using hpart)]
      exact (setLoad_frame s r').2 a (by simpa using hstat)
  · intro digest s r h hload hhdr hsecond hnext
    refine Runs.intro (t := s.loadSecondEnd digest) rfl ?_
    generalize hv : s.setLoad { r with bytes := 2 * r.len } = v
    have hrun : s.loadSecondEnd digest = if s.sec.error then v.opFail .imageLoad 9
        else if digest ≠ r.digest then v.opFail .imageLoad 11 else (v.commitImage r.body h.imageId).opDone .imageLoad := by
      rw [State.loadSecondEnd, hload]
      dsimp only
      rw [← hv, hhdr]
      dsimp only
      rw [if_neg (by simp [hsecond, hnext])]
    obtain ⟨hnone9, hstat9, hvalid9, -⟩ := setLoad_opFail s { r with bytes := 2 * r.len } 9
    obtain ⟨hnone11, hstat11, hvalid11, -⟩ := setLoad_opFail s { r with bytes := 2 * r.len } 11
    rw [hv] at hnone9 hstat9 hvalid9 hnone11 hstat11 hvalid11
    have hdone : ((v.commitImage r.body h.imageId).opDone .imageLoad).dev = { (v.commitImage r.body h.imageId).dev with load := none } :=
      opDone_imageLoad_dev _
    rw [hrun]
    refine ⟨?_, fun herr => ?_, fun herr hdigest => ?_, fun herr hdigest => ?_⟩
    · split
      · exact hnone9
      · split
        · exact hnone11
        · exact congrArg Dev.load hdone
    · rw [if_pos herr]
      exact ⟨hstat9, hvalid9⟩
    · rw [herr, if_neg Bool.false_ne_true, if_pos hdigest]
      exact ⟨hstat11, hvalid11⟩
    · rw [herr, if_neg Bool.false_ne_true, if_neg (not_not.mpr hdigest)]
      obtain ⟨hvalid, hbody⟩ := commitImage_dev v r.body h.imageId
      exact ⟨opDone_stat _ _, (congrArg Dev.structValid hdone).trans hvalid, (congrArg Dev.body hdone).trans hbody⟩
  · intro bytes s r hload
    refine Runs.intro (t := (s.setProgress .imageLoad (bytes / 1024)).opFail .imageLoad (if r.flash then 14 else 5))
      (congrArg Host.Outcome.next (by rw [State.imgReadFailure, hload])) ?_
    generalize hv : s.setProgress .imageLoad (bytes / 1024) = v
    have hquiet : v.bit (opCtrl .imageLoad) 29 = s.bit (opCtrl .imageLoad) 29 := by
      rw [← hv, State.bit, State.setProgress, State.rd_setFld, if_neg (by decide)]
      rfl
    obtain ⟨hstat, hprogress⟩ := opFail_stat v .imageLoad (if r.flash then 14 else 5)
    refine ⟨by rw [opFail_dev]; rfl, hstat.trans (by split <;> rfl), hprogress.trans ?_, fun hq a ha => ?_⟩
    · rw [← hv, State.progress, State.setProgress, State.fld_setFld_self _ _ (by decide) (by decide)]
    · rw [regsBut_opFail_imageLoad (hquiet.trans hq) _ a ha, ← hv, State.setProgress, State.rd_setFld,
        if_neg (by simpa using ha)]
  · intro bytes s r hload hswap
    refine Runs.intro (t := s.imgReadFailure bytes) rfl ?_
    have hrun : s.imgReadFailure bytes = if r.phase = .auth then s.opFail .imageSwap (if r.flash then 14 else 5)
        else if r.phase = .loadSpare then s.discardSpare.opFail .imageSwap (if r.flash then 14 else 5) else s := by
      rw [State.imgReadFailure, hload, hswap]
    have hreason : (0x10 + (if r.flash then 14 else 5) % 16) % 256 = if r.flash then 0x1E else 0x15 := by
      split
      · rfl
      · rfl
    rw [hrun]
    refine ⟨fun hphase => ?_, fun hphase => ?_⟩
    · split
      · exact ⟨by rw [opFail_dev]; rfl, (opFail_stat _ _ _).1.trans hreason⟩
      · rw [if_pos (hphase.resolve_left ‹_›)]
        exact ⟨by rw [opFail_dev]; rfl, (opFail_stat _ _ _).1.trans hreason⟩
    · obtain hphase | hphase := hphase
      · simp [hphase]
      · simp [hphase]
  · intro bytes s hload hswap
    exact congrArg Host.Outcome.next (by rw [State.imgReadFailure, hload, hswap])
  · intro h dir pubkey sig digest sec s
    refine ⟨fun hnot => congrArg Host.Outcome.next ?_, fun hnot => congrArg Host.Outcome.next ?_,
      fun hnot => congrArg Host.Outcome.next ?_, fun hnot => congrArg Host.Outcome.next ?_, fun hnot => congrArg Host.Outcome.next ?_⟩
    · unfold State.loadHeader
      split
      · next r hload => exact if_pos (by simpa [hload] using hnot)
      · rfl
    · unfold State.loadDirectory
      split
      · next r hload =>
        split
        · next h hhdr => exact if_pos (.inl (by simpa [hload, hhdr] using hnot))
        · rfl
      · rfl
    · unfold State.loadFirstEnd
      split
      · next r hload =>
        split
        · next h hhdr => exact if_pos (by simpa [hload] using hnot)
        · rfl
      · rfl
    · unfold State.loadSection
      split
      · next r hload =>
        split
        · next i e hnext => exact if_pos (.inl (by simpa [hload, hnext] using hnot))
        · rfl
      · rfl
    · unfold State.loadSecondEnd
      split
      · next r hload =>
        split
        · next h hhdr => exact if_pos (by simpa [hload] using hnot)
        · rfl
      · rfl

end Sys2Proof.Machine
end

section
/-!
PROOFS. Supplies and the zeroisation pin (O42; R70, R378, R383).
-/
open Sys2Proof.Safety
namespace Sys2Proof.Machine

/-- The last rail has been good for its time while ZEROIZE_N is held low. -/
def stLastRailZeroize : State := { pwr.phase := .raising 6, dev.zeroizeLow := true }

/-- With ZEROIZE_N low the logic that leaves cold reset runs a zeroisation, and so is in SAFE (R379). -/
theorem railGood_zeroizeLow : (stLastRailZeroize.railGood 6 2000).dev.mode = .safe := by decide +kernel

/-- Refutes O42: with ZEROIZE_N held low the logic that comes up after the last rail zeroises in SAFE, and is not in LOAD. -/
theorem not_suppliesSequenceAndProtectTheDevice : ¬ Obligations.SuppliesSequenceAndProtectTheDevice := by
  unfold Obligations.SuppliesSequenceAndProtectTheDevice
  intro ⟨_, _, _, _, _, _, _, _, hrail, _⟩
  obtain ⟨t, hrun, -, -, hlast⟩ := hrail 6 2000 stLastRailZeroize rfl (by decide)
  obtain ⟨-, -, -, hmode, -⟩ := hlast rfl
  have ht : stLastRailZeroize.railGood 6 2000 = t := by
    injection hrun
  rw [← ht, railGood_zeroizeLow] at hmode
  exact absurd hmode (by decide)

end Sys2Proof.Machine
end

section
/-!
PROOFS. What the end of long operations and a change of mode may move.
-/
open Sys2Proof.Safety
namespace Sys2Proof.Machine

/-! ### Registers -/

/-- The registers in which an event shows. -/
def eventReg (a : Nat) : Prop := (Reg.evtStatus 0 ≤ a ∧ a < Reg.evtStatus 64) ∨ a = Reg.evtBufDrop ∨ a = Reg.merEvtLost

/-- The registers in which the end of a long operation or a new Meridian role shows, but for one bit of DEV_COMM_STATUS and of
LHT_STATUS. -/
def opsReg (a : Nat) : Prop :=
  eventReg a ∨ (∃ o ∈ allLongOps, o ≠ .zeroisation ∧ a = opStat o) ∨ a = Reg.merFanStatus ∨ a = Reg.merCollStatus

/-- An event moves registers of events alone, and leaves every raised event raised. -/
theorem rd_raise_of_not_eventReg (s : State) {leaf : Nat} (hleaf : leaf < 2048) (inst : Nat) (w1 w2 w3 : Word) {a : Nat}
    (ha : ¬ eventReg a) : (s.raise leaf inst w1 w2 w3).rd a = s.rd a := by
  simp only [eventReg, not_or, Reg.evtStatus] at ha
  obtain ⟨hstatus, hdrop, hlost⟩ := ha
  refine State.rd_raise_other s leaf inst w1 w2 w3 ?_ ?_ hdrop hlost
  · simp only [Reg.evtStatus]
    omega
  · simp only [Reg.evtStatus, leafBufOverflow]
    omega

theorem Raised.raise {leaf : Nat} {s : State} (h : Raised leaf s) (other inst : Nat) (w1 w2 w3 : Word) :
    Raised leaf (s.raise other inst w1 w2 w3) := by
  have hset := h.setStatus other
  unfold State.raise
  refine Safety.Raised.forward ?_ _ _ _
  split
  · exact hset.putRecord _ _ _ _ _ _ _
  · exact hset

theorem raised_of_rd {leaf : Nat} (hleaf : leaf < 2048) {s t : State} (h : Raised leaf s)
    (hrd : ∀ k < 64, t.rd (Reg.evtStatus k) = s.rd (Reg.evtStatus k)) : Raised leaf t := by
  rw [Raised, State.bit, hrd _ (by omega)]
  exact h

theorem eventReg_evtStatus {k : Nat} (hk : k < 64) : eventReg (Reg.evtStatus k) := by
  left
  simp only [Reg.evtStatus]
  omega

theorem opStat_not_eventReg {o : LongOp} (ho : o ∈ allLongOps) : ¬ eventReg (opStat o) := by
  simp only [allLongOps, List.mem_cons, List.not_mem_nil, or_false] at ho
  unfold eventReg
  rcases ho with h | h | h | h | h | h | h | h | h | h | h | h | h | h | h | h | h | h
  all_goals (rw [h]; decide)

theorem opStat_injective : ∀ o ∈ allLongOps, ∀ p ∈ allLongOps, opStat o = opStat p → o = p := by decide

/-! ### Operations that end -/

/-- From `s` to `t` operations have ended and the Meridian role may have changed: no operation has begun, every raised event stays
raised, and neither time nor mode, supplies, ports or fuses have moved. -/
structure Waned (s t : State) : Prop where
  regs : ∀ a, ¬ opsReg a → a ≠ Reg.devCommStatus → a ≠ Reg.lhtStatus → t.rd a = s.rd a
  comm : ∃ c : Bool, t.rd Reg.devCommStatus = if c then Machine.setBit (s.rd Reg.devCommStatus) 30 false else s.rd Reg.devCommStatus
  stale : ∃ c : Bool, t.rd Reg.lhtStatus = if c then Machine.setBit (s.rd Reg.lhtStatus) 26 true else s.rd Reg.lhtStatus
  raised : ∀ leaf < 2048, Raised leaf s → Raised leaf t
  idle : ∀ o ∈ allLongOps, s.busy o = false → t.busy o = false
  sec : s.sec.error = true → t.sec = s.sec
  frame : ∃ regs drawn out load swap moving bist pipes structValid obs scan drbg mer pool voq alm rhb sxt cmp act rck xgm lht,
    t = { s with
      regs := regs, drawn := drawn, out := out,
      dev := { s.dev with load := load, swap := swap, moving := moving, bist := bist, pipes := pipes, structValid := structValid }
      obs := obs, chk.scan := scan, sec.drbg := drbg, mer := mer, pool := pool, voq := voq, alm := alm, rhb := rhb, sxt := sxt,
      cmp := cmp, act := act, rck := rck, xgm := xgm, lht := lht }

theorem setBit_setBit_self (w : Word) (i : Nat) (b : Bool) : Machine.setBit (Machine.setBit w i b) i b = Machine.setBit w i b := by
  unfold Machine.setBit Machine.setFld
  refine BitVec.eq_of_getLsbD_eq fun j hj => ?_
  simp only [BitVec.getLsbD_or, BitVec.getLsbD_and, BitVec.getLsbD_not, hj, decide_true, Bool.true_and]
  cases (mask i i).getLsbD j
  · simp
  · simp

theorem Waned.refl (s : State) : Waned s s where
  regs _ _ _ _ := rfl
  comm := ⟨false, rfl⟩
  stale := ⟨false, rfl⟩
  raised _ _ h := h
  idle _ _ h := h
  sec _ := rfl
  frame := ⟨_, _, _, _, _, _, _, _, _, _, _, _, _, _, _, _, _, _, _, _, _, _, _, rfl⟩

/-- A status word of which one bit may have been set twice. -/
theorem setBit_ite_trans {u v w : Word} {i : Nat} {b : Bool} (h : ∃ c : Bool, v = if c then Machine.setBit u i b else u)
    (k : ∃ c : Bool, w = if c then Machine.setBit v i b else v) : ∃ c : Bool, w = if c then Machine.setBit u i b else u := by
  obtain ⟨c, rfl⟩ := h
  obtain ⟨d, rfl⟩ := k
  cases c
  · exact ⟨d, rfl⟩
  · refine ⟨true, ?_⟩
    cases d
    · rfl
    · exact setBit_setBit_self u i b

theorem Waned.trans {s t u : State} (h : Waned s t) (k : Waned t u) : Waned s u where
  regs a ha hc hl := (k.regs a ha hc hl).trans (h.regs a ha hc hl)
  comm := setBit_ite_trans h.comm k.comm
  stale := setBit_ite_trans h.stale k.stale
  raised leaf hleaf hr := k.raised leaf hleaf (h.raised leaf hleaf hr)
  idle o ho hb := k.idle o ho (h.idle o ho hb)
  sec herr := by
    have hst := h.sec herr
    exact (k.sec (hst ▸ herr)).trans hst
  frame := by
    obtain ⟨_, _, _, _, _, _, _, _, _, _, _, _, _, _, _, _, _, _, _, _, _, _, _, rfl⟩ := h.frame
    obtain ⟨_, _, _, _, _, _, _, _, _, _, _, _, _, _, _, _, _, _, _, _, _, _, _, rfl⟩ := k.frame
    exact ⟨_, _, _, _, _, _, _, _, _, _, _, _, _, _, _, _, _, _, _, _, _, _, _, rfl⟩

/-! ### Which operations of the model only let operations end -/

section
variable (s : State)

theorem waned_raise {leaf : Nat} (hleaf : leaf < 2048) (inst : Nat) (w1 w2 w3 : Word) : Waned s (s.raise leaf inst w1 w2 w3) where
  regs a ha _ _ := rd_raise_of_not_eventReg s hleaf inst w1 w2 w3 fun h => ha (.inl h)
  comm := ⟨false, rd_raise_of_not_eventReg s hleaf inst w1 w2 w3 (by unfold eventReg; decide)⟩
  stale := ⟨false, rd_raise_of_not_eventReg s hleaf inst w1 w2 w3 (by unfold eventReg; decide)⟩
  raised _ _ h := Raised.raise h leaf inst w1 w2 w3
  idle o ho hb := by
    rw [State.busy, State.bit, rd_raise_of_not_eventReg s hleaf inst w1 w2 w3 (opStat_not_eventReg ho)]
    exact hb
  sec _ := by rw [State.raise_frame s leaf inst w1 w2 w3]
  frame := by
    rw [State.raise_frame s leaf inst w1 w2 w3]
    exact ⟨_, _, _, _, _, _, _, _, _, _, _, _, _, _, _, _, _, _, _, _, _, _, _, rfl⟩

/-- A change of the state that leaves every register as it was. -/
theorem waned_of_regs {s t : State} (hregs : t.regs = s.regs) (sec : s.sec.error = true → t.sec = s.sec)
    (frame : ∃ regs drawn out load swap moving bist pipes structValid obs scan drbg mer pool voq alm rhb sxt cmp act rck xgm lht,
      t = { s with
        regs := regs, drawn := drawn, out := out,
        dev := { s.dev with load := load, swap := swap, moving := moving, bist := bist, pipes := pipes, structValid := structValid }
        obs := obs, chk.scan := scan, sec.drbg := drbg, mer := mer, pool := pool, voq := voq, alm := alm, rhb := rhb, sxt := sxt,
        cmp := cmp, act := act, rck := rck, xgm := xgm, lht := lht }) : Waned s t where
  regs a _ _ _ := State.rd_of_regs hregs a
  comm := ⟨false, State.rd_of_regs hregs _⟩
  stale := ⟨false, State.rd_of_regs hregs _⟩
  raised _ hleaf h := raised_of_rd hleaf h fun _ _ => State.rd_of_regs hregs _
  idle _ _ hb := (State.bit_of_regs hregs _ _).trans hb
  sec := sec
  frame := frame

/-- A write of a register that no operation and no event shows in. -/
theorem waned_wr {a : Nat} (ha : a = Reg.merFanStatus ∨ a = Reg.merCollStatus) (v : Word) : Waned s (s.wr a v) where
  regs b hb _ _ := State.rd_wr_other _ _ fun h => hb (.inr (.inr (h ▸ ha)))
  comm := ⟨false, State.rd_wr_other _ _ (by rcases ha with rfl | rfl <;> decide)⟩
  stale := ⟨false, State.rd_wr_other _ _ (by rcases ha with rfl | rfl <;> decide)⟩
  raised leaf hleaf h := raised_of_rd hleaf h fun k hk => State.rd_wr_other _ _ (by
    simp only [Reg.evtStatus, Reg.merFanStatus, Reg.merCollStatus] at ha ⊢
    omega)
  idle o ho hb := by
    rw [State.busy, State.bit, State.rd_wr_other _ _ ?_]
    · exact hb
    · obtain rfl | rfl := ha
      · exact (by decide : ∀ o ∈ allLongOps, opStat o ≠ Reg.merFanStatus) o ho
      · exact (by decide : ∀ o ∈ allLongOps, opStat o ≠ Reg.merCollStatus) o ho
  sec _ := rfl
  frame := ⟨_, _, _, _, _, _, _, _, _, _, _, _, _, _, _, _, _, _, _, _, _, _, _, rfl⟩

/-- DEV_COMM_STATUS.DONE is cleared. -/
theorem waned_commDone : Waned s (s.setBit Reg.devCommStatus 30 false) where
  regs b _ hb _ := by rw [State.rd_setBit, if_neg hb]
  comm := ⟨true, by rw [State.rd_setBit, if_pos rfl]; rfl⟩
  stale := ⟨false, by rw [State.rd_setBit, if_neg (by decide)]; rfl⟩
  raised leaf hleaf h := raised_of_rd hleaf h fun k hk => by
    rw [State.rd_setBit, if_neg (by simp only [Reg.evtStatus, Reg.devCommStatus]; omega)]
  idle o _ hb := by
    rw [State.busy, State.bit, State.rd_setBit, if_neg (opStat_ne_devCommStatus o)]
    exact hb
  sec _ := rfl
  frame := ⟨_, _, _, _, _, _, _, _, _, _, _, _, _, _, _, _, _, _, _, _, _, _, _, rfl⟩

/-- The snapshot goes stale. -/
theorem waned_stale : Waned s (s.setBit Reg.lhtStatus 26 true) where
  regs b _ _ hb := by rw [State.rd_setBit, if_neg hb]
  comm := ⟨false, by rw [State.rd_setBit, if_neg (by decide)]; rfl⟩
  stale := ⟨true, by rw [State.rd_setBit, if_pos rfl]; rfl⟩
  raised leaf hleaf h := raised_of_rd hleaf h fun k hk => by
    rw [State.rd_setBit, if_neg (by simp only [Reg.evtStatus, Reg.lhtStatus]; omega)]
  idle o ho hb := by
    rw [State.busy, State.bit, State.rd_setBit, if_neg ?_]
    · exact hb
    · exact (by decide : ∀ o ∈ allLongOps, opStat o ≠ Reg.lhtStatus) o ho
  sec _ := rfl
  frame := ⟨_, _, _, _, _, _, _, _, _, _, _, _, _, _, _, _, _, _, _, _, _, _, _, rfl⟩

theorem waned_threadLists : Waned s s.threadLists := by
  have hregs := congrArg State.regs (threadLists_frame s)
  refine waned_of_regs hregs (fun _ => by rw [threadLists_frame]) ?_
  rw [threadLists_frame]
  exact ⟨_, _, _, _, _, _, _, _, _, _, _, _, _, _, _, _, _, _, _, _, _, _, _, rfl⟩

theorem waned_memInit : Waned s s.memInit := by
  unfold State.memInit State.wipeReserved
  dsimp only
  refine (waned_threadLists s).trans ?_
  generalize s.threadLists = u
  exact waned_of_regs rfl (fun _ => rfl) ⟨_, _, _, _, _, _, _, _, _, _, _, _, _, _, _, _, _, _, _, _, _, _, _, rfl⟩

theorem waned_clearBuffers : Waned s s.clearBuffers := waned_of_regs rfl (fun _ => rfl) ⟨_, _, _, _, _, _, _, _, _, _, _, _, _, _, _, _, _, _, _, _, _, _, _, rfl⟩

theorem waned_clearKeyStore : Waned s s.clearKeyStore := waned_of_regs rfl (fun _ => rfl) ⟨_, _, _, _, _, _, _, _, _, _, _, _, _, _, _, _, _, _, _, _, _, _, _, rfl⟩

theorem waned_wipeTables : Waned s s.wipeTables := waned_of_regs rfl (fun _ => rfl) ⟨_, _, _, _, _, _, _, _, _, _, _, _, _, _, _, _, _, _, _, _, _, _, _, rfl⟩

theorem waned_setPipe (p : Nat) (x : PipeStruct) : Waned s (s.setPipe p x) := waned_of_regs rfl (fun _ => rfl) ⟨_, _, _, _, _, _, _, _, _, _, _, _, _, _, _, _, _, _, _, _, _, _, _, rfl⟩

theorem waned_invalidate : Waned s s.invalidate := waned_of_regs rfl (fun _ => rfl) ⟨_, _, _, _, _, _, _, _, _, _, _, _, _, _, _, _, _, _, _, _, _, _, _, rfl⟩

theorem waned_bistAfter (target : Nat) : Waned s (s.bistAfter target) := by
  unfold State.bistAfter
  split
  · exact ((waned_memInit s).trans (waned_clearBuffers _)).trans (waned_clearKeyStore _)
  · split
    · refine ((waned_wipeTables s).trans ?_).trans ((waned_invalidate _).trans (waned_commDone _))
      exact State.each_induct (P := Waned s.wipeTables) (.refl _) fun _ _ t ht => ht.trans (waned_setPipe t _ _)
    · refine (waned_setPipe s (s.fld Reg.devPipeSpare 3 0) {}).trans ?_
      dsimp only
      generalize s.setPipe _ _ = u
      exact waned_of_regs rfl (fun _ => rfl) ⟨_, _, _, _, _, _, _, _, _, _, _, _, _, _, _, _, _, _, _, _, _, _, _, rfl⟩

theorem waned_opIdle {o : LongOp} (ho : o ≠ .zeroisation) : Waned s (s.opIdle o) := by
  cases o with
  | memoryBist =>
    unfold State.opIdle
    dsimp only
    split
    · refine Waned.trans ?_ (waned_bistAfter _ _)
      exact waned_of_regs rfl (fun _ => rfl) ⟨_, _, _, _, _, _, _, _, _, _, _, _, _, _, _, _, _, _, _, _, _, _, _, rfl⟩
    · exact .refl s
  | zeroisation => exact absurd rfl ho
  | _ => exact waned_of_regs rfl (fun _ => rfl) ⟨_, _, _, _, _, _, _, _, _, _, _, _, _, _, _, _, _, _, _, _, _, _, _, rfl⟩

/-- OPSTAT of an operation that ends does not say BUSY. -/
theorem bit_opStatEnd (w : Word) (e : OpEnd) : Machine.bit (opStatEnd w e) 31 = false := by
  have hfield : ∀ v < 128, Machine.bit (Machine.setFld w 31 24 v) 31 = false := fun v hv => by
    rw [bit_setFld_in w (by decide) (by decide) (by decide)]
    exact Nat.testBit_lt_two_pow hv
  cases e with
  | done => exact hfield _ (by decide)
  | aborted r => exact hfield _ (by omega)
  | failed r => exact hfield _ (by omega)

theorem opLeaf_lt (o : LongOp) : opLeaf o < 2048 := by
  have hgroup := opLeaf_group o
  omega

theorem waned_opEnd {o : LongOp} (ho : o ∈ allLongOps) (hz : o ≠ .zeroisation) (e : OpEnd) : Waned s (s.opEnd o e) := by
  have hstat : Waned s (s.wr (opStat o) (opStatEnd (s.rd (opStat o)) e)) :=
    { regs := fun b hb _ _ => State.rd_wr_other _ _ fun h => hb (.inr (.inl ⟨o, ho, hz, h⟩))
      comm := ⟨false, State.rd_wr_other _ _ (opStat_ne_devCommStatus o).symm⟩
      stale := ⟨false, State.rd_wr_other _ _ ((by decide : ∀ o ∈ allLongOps, Reg.lhtStatus ≠ opStat o) o ho)⟩
      raised := fun leaf hleaf h => raised_of_rd hleaf h fun k hk => State.rd_wr_other _ _ fun hr =>
        opStat_not_eventReg ho (hr ▸ eventReg_evtStatus hk)
      idle := fun p hp hb => by
        rw [State.busy, State.bit, State.rd_wr]
        split
        · exact bit_opStatEnd _ e
        · exact hb
      sec := fun _ => rfl
      frame := ⟨_, _, _, _, _, _, _, _, _, _, _, _, _, _, _, _, _, _, _, _, _, _, _, rfl⟩ }
  unfold State.opEnd
  dsimp only
  split
  · exact hstat.trans (waned_raise _ (opLeaf_lt o) _ _ _ _)
  · exact hstat

theorem waned_opAbort {o : LongOp} (ho : o ∈ allLongOps) (hz : o ≠ .zeroisation) (reason : Nat) : Waned s (s.opAbort o reason) :=
  (waned_opIdle s hz).trans (waned_opEnd _ ho hz _)

end

/-- Operations other than a zeroisation are aborted: those that the condition names run no more. -/
theorem waned_abortWhere (s : State) {p : LongOp → Bool} (hz : p .zeroisation = false) (reason : Nat) {l : List LongOp}
    (hl : ∀ o ∈ l, o ∈ allLongOps) : Waned s (s.abortWhere p reason l) ∧ ∀ o ∈ l, p o = true → (s.abortWhere p reason l).busy o = false := by
  induction l generalizing s with
  | nil => exact ⟨.refl s, fun o ho => absurd ho List.not_mem_nil⟩
  | cons o l ih =>
    have hmem := hl o List.mem_cons_self
    obtain ⟨hrest, hidle⟩ := ih (if s.busy o && p o then s.opAbort o reason else s) fun q hq => hl q (List.mem_cons_of_mem o hq)
    have hone : Waned s (if s.busy o && p o then s.opAbort o reason else s) := by
      split
      · next h =>
        refine waned_opAbort s hmem ?_ reason
        rintro rfl
        simp [hz] at h
      · exact .refl s
    refine ⟨hone.trans hrest, fun q hq hpq => ?_⟩
    obtain rfl | hq := List.mem_cons.mp hq
    · refine hrest.idle q hmem ?_
      rw [hpq, Bool.and_true]
      split
      · rw [State.opAbort, State.busy, State.bit, rd_opEnd_opStat]
        exact bit_opStatEnd _ _
      · exact Bool.eq_false_iff.mpr ‹_›
    · exact hidle q hq hpq

section
variable (s : State)

theorem waned_loseManager : Waned s s.loseManager := by
  unfold State.loseManager
  refine Waned.trans ?_ (((waned_wr _ (.inl rfl) _).trans (waned_wr _ (.inl rfl) _)).trans (waned_wr _ (.inr rfl) _))
  exact waned_of_regs rfl (fun _ => rfl) ⟨_, _, _, _, _, _, _, _, _, _, _, _, _, _, _, _, _, _, _, _, _, _, _, rfl⟩

theorem waned_takeManager : Waned s s.takeManager := by
  unfold State.takeManager
  dsimp only
  split
  · exact waned_of_regs rfl (fun _ => rfl) ⟨_, _, _, _, _, _, _, _, _, _, _, _, _, _, _, _, _, _, _, _, _, _, _, rfl⟩
  · next h => exact waned_of_regs rfl (fun herr => absurd herr h) ⟨_, _, _, _, _, _, _, _, _, _, _, _, _, _, _, _, _, _, _, _, _, _, _, rfl⟩

theorem waned_reRank : Waned s s.reRank := by
  have hroles : Waned s { s with mer.role := s.roles.1, mer.mgr := s.roles.2.1, mer.standby := s.roles.2.2 } :=
    waned_of_regs rfl (fun _ => rfl) ⟨_, _, _, _, _, _, _, _, _, _, _, _, _, _, _, _, _, _, _, _, _, _, _, rfl⟩
  unfold State.reRank
  dsimp only
  split
  · exact hroles
  · refine Waned.trans ?_ (waned_raise _ (by decide) _ _ _ _)
    split
    · exact hroles.trans (waned_takeManager _)
    · split
      · exact hroles.trans (waned_loseManager _)
      · exact hroles

theorem waned_goStale : Waned s s.goStale := by
  unfold State.goStale
  split
  · exact .refl s
  · exact (waned_stale s).trans (waned_raise _ (by decide) _ _ _ _)

theorem waned_hbSend (p : Nat) : Waned s (s.hbSend p) := by
  have hother (u : State) (d : Nat) (c : Cell) : Waned u (u.sendOther d c) := by
    unfold State.sendOther
    split
    · exact waned_of_regs rfl (fun _ => rfl) ⟨_, _, _, _, _, _, _, _, _, _, _, _, _, _, _, _, _, _, _, _, _, _, _, rfl⟩
    · exact .refl u
  unfold State.hbSend
  dsimp only
  split
  · exact .refl s
  · split
    · exact waned_of_regs rfl (fun _ => rfl) ⟨_, _, _, _, _, _, _, _, _, _, _, _, _, _, _, _, _, _, _, _, _, _, _, rfl⟩
    · refine Waned.trans ?_ (hother _ _ _)
      exact waned_of_regs rfl (fun _ => rfl) ⟨_, _, _, _, _, _, _, _, _, _, _, _, _, _, _, _, _, _, _, _, _, _, _, rfl⟩

theorem waned_hbBoth : Waned s s.hbBoth := by
  unfold State.hbBoth
  split
  · exact (waned_hbSend s 0).trans (waned_hbSend _ 1)
  · exact .refl s

end

/-! ### A change of mode (R48, R54) -/

theorem goesOn_zeroisation (s : State) (old m : Mode) : s.goesOn old m .zeroisation = true := by
  simp [State.goesOn, opAllowed]

/-- A change of mode: MODE and its cause are set, and operations that the mode does not allow end. -/
theorem setMode_waned (s : State) (m : Mode) (cause fatal : Nat) :
    Waned (({ s with dev.mode := m, dev.trans := none } : State).wr Reg.devModeCause (BitVec.ofNat 32 (fatal * 256 + cause)))
      (s.setMode m cause fatal) := by
  unfold State.setMode
  dsimp only
  generalize State.wr _ _ _ = u
  have habort : Waned u (u.abortDisallowed s.dev.mode m) :=
    (waned_abortWhere u (by rw [goesOn_zeroisation]; rfl) 3 fun o ho => ho).1
  have hraise := (habort.trans (waned_reRank _)).trans
    (waned_raise _ (show leafModeChange < 2048 by decide) 0 (BitVec.ofNat 32 (modeCode m)) (BitVec.ofNat 32 (fatal * 256 + cause)) 0)
  refine Waned.trans ?_ (waned_hbBoth _)
  split
  · exact hraise.trans (waned_goStale _)
  · exact hraise

end Sys2Proof.Machine
end

section
/-!
PROOFS. Registers of ports that follow their causes; entry to SAFE, and mode requests (O40; R50 to R54, R66).
-/
open Sys2Proof.Safety
namespace Sys2Proof.Machine

/-! ### Registers of ports that follow their causes -/

/-- Neither an event nor a flush shows in the register. -/
def apartReg (a : Nat) : Prop := ¬ eventReg a ∧ a ∉ flushRegs

theorem rd_event {s : State} {leaf : Nat} (hleaf : leaf < 2048) (inst : Nat) {a : Nat} (ha : apartReg a) : (s.event leaf inst).rd a = s.rd a :=
  rd_raise_of_not_eventReg s hleaf inst 0 0 0 ha.1

theorem rd_portState (s : State) (i st a : Nat) : (s.portState i st).rd a = s.rd a := by
  obtain ⟨_, hstate⟩ := portState_frame s i st
  rw [hstate]
  rfl

theorem rd_flushPort (s : State) (i : Nat) {a : Nat} (ha : apartReg a) : (s.flushPort i).rd a = s.rd a := by
  obtain ⟨u, ⟨hregs, -⟩, hflush⟩ := flushPort_frame s i
  rw [hflush, rd_event (by decide) _ ha]
  exact hregs a ha.2

theorem rd_portDown (s : State) (i : Nat) {a : Nat} (ha : apartReg a) : (s.portDown i).rd a = s.rd a := by
  unfold State.portDown
  split
  · rfl
  · dsimp only
    split
    · rw [rd_flushPort _ _ ha, rd_portState]
      rfl
    · rw [rd_portState]
      rfl

theorem rd_portUp (s : State) (i a : Nat) : (s.portUp i).rd a = s.rd a := by
  unfold State.portUp
  split
  · rw [rd_portState]
    rfl
  · rfl

/-- What a PON port shows as it follows its causes. -/
def ponShown (s : State) (n : Nat) : Word :=
  Machine.setBit (Machine.setBit (Machine.setFld (s.rd (Reg.ponLineStatus n)) 27 24 (s.ponCause n)) 31 (s.ponCause n == 0)) 29
    (s.ponPort n).los

theorem apartReg_ponLineStatus {n : Nat} (hn : n < 48) : apartReg (Reg.ponLineStatus n) := by
  unfold apartReg eventReg
  simp only [flushRegs, List.mem_cons, List.not_mem_nil, or_false, Reg.ponLineStatus, Reg.evtStatus, Reg.evtBufDrop, Reg.merEvtLost,
    Reg.chkInj, Reg.voqFlushDrop, Reg.almCreditLost]
  omega

theorem rd_ponFollow (s : State) {n : Nat} (hn : n < 48) {a : Nat} (ha : apartReg a) :
    (s.ponFollow n).rd a = if a = Reg.ponLineStatus n then ponShown s n else s.rd a := by
  have hshown : (((s.setFld (Reg.ponLineStatus n) 27 24 (s.ponCause n)).setBit (Reg.ponLineStatus n) 31 (s.ponCause n == 0)).setBit
      (Reg.ponLineStatus n) 29 (s.ponPort n).los).rd a = if a = Reg.ponLineStatus n then ponShown s n else s.rd a := by
    rw [State.rd_setBit, State.rd_setBit, State.rd_setFld, if_pos rfl, State.rd_setBit, if_pos rfl, State.rd_setFld]
    split
    · rfl
    · next h => rw [State.rd_setFld, if_neg h]
  have hrest : ∀ (u : State) (j : Nat), (u.restDrop j).rd a = u.rd a := fun _ _ => rfl
  have hleaf : leafOf (6 + n / 32) (n % 32) < 2048 := by
    unfold leafOf
    omega
  unfold State.ponFollow
  dsimp only
  generalize ((s.setFld (Reg.ponLineStatus n) 27 24 (s.ponCause n)).setBit (Reg.ponLineStatus n) 31 (s.ponCause n == 0)).setBit
    (Reg.ponLineStatus n) 29 (s.ponPort n).los = v at hshown ⊢
  split
  · exact hshown
  · split
    · rw [rd_portDown _ _ ha, hrest, hrest, rd_event hleaf n ha, hshown]
    · rw [rd_portUp, rd_event hleaf n ha, hshown]

theorem rd_txCut (s : State) (i a : Nat) : (s.txCut i).rd a = s.rd a := by
  unfold State.txCut
  dsimp only
  split
  · rfl
  · rfl

/-- The cause that a port shows, with its port block. -/
theorem rd_causeShown (s : State) (i c : Nat) (x : NetPort) {a : Nat} (ha : a ≠ Reg.netPortStatus i) :
    ((s.setFld (Reg.netPortStatus i) 26 24 c).setNet i x).rd a = s.rd a := by
  have hset (v : State) : (v.setNet i x).rd a = v.rd a := rfl
  rw [hset, State.rd_setFld, if_neg ha]

theorem rd_netComeUp (s : State) {i : Nat} (hi : i < 26) {a : Nat} (ha : apartReg a) (hstatus : a ≠ Reg.netPortStatus i) :
    (s.netComeUp i).rd a = s.rd a := by
  have hset (v : State) (x : NetPort) : (v.setNet i x).rd a = v.rd a := rfl
  rw [State.netComeUp, rd_portUp, rd_event (by unfold leafOf; omega) i ha, hset, State.rd_setFld, if_neg hstatus, State.rd_setBit,
    if_neg hstatus]

theorem rd_netFollow (s : State) {i : Nat} (hi : i < 26) {a : Nat} (ha : apartReg a) (hstatus : a ≠ Reg.netPortStatus i)
    (hdowns : a ≠ Reg.netLinkDowns i) : (s.netFollow i).rd a = s.rd a := by
  have hidle (v : State) : (v.netIdle i).rd a = v.rd a := rfl
  unfold State.netFollow
  dsimp only
  split
  · have hshown := rd_causeShown s i (s.netCause i) { s.netPort i with upAt := none } hstatus
    generalize (s.setFld (Reg.netPortStatus i) 26 24 (s.netCause i)).setNet i _ = v at hshown ⊢
    split
    · rw [rd_portDown _ _ ha, hidle, rd_txCut, rd_event (by unfold leafOf; omega) i ha, State.rd_bump, if_neg hdowns, State.rd_setBit,
        if_neg hstatus, hshown]
    · exact hshown
  · split
    · rfl
    · split
      · exact rd_netComeUp s hi ha hstatus
      · split
        · rfl
        · exact rd_causeShown s i 6 _ hstatus

/-! ### Entry to SAFE (R66) -/

/-- From `s` to `t` the device has entered SAFE: beside MODE, its cause and the instant only operations, the Meridian role and a
request of the same clock have ended. -/
structure SafeEntered (cause fatal : Nat) (s t : State) : Prop where
  mode : t.dev.mode = .safe
  trans : t.dev.trans = none
  safeAt : t.dev.safeAt = some s.raw
  shown : t.rd Reg.devModeCause = BitVec.ofNat 32 (fatal * 256 + cause)
  phase : t.dev.commPhase = if s.dev.mode = .commission then 0 else s.dev.commPhase
  refused : s.reqNow = true → t.bit Reg.devMode 30 = true
  regs : ∀ a, ¬ opsReg a → a ∉ [Reg.devCommStatus, Reg.lhtStatus, Reg.devModeCause, Reg.devMode] → t.rd a = s.rd a
  comm : ∀ i < 30, t.bit Reg.devCommStatus i = s.bit Reg.devCommStatus i
  raised : ∀ leaf < 2048, Raised leaf s → Raised leaf t
  idle : ∀ o ∈ allLongOps, s.busy o = false → t.busy o = false
  sec : s.sec.error = true → t.sec = s.sec
  frame : ∃ regs drawn out dev obs scan drbg mer pool voq alm rhb sxt cmp act rck xgm lht,
    t = { s with
      regs := regs, drawn := drawn, out := out, dev := dev, obs := obs, chk.scan := scan, sec.drbg := drbg, mer := mer, pool := pool,
      voq := voq, alm := alm, rhb := rhb, sxt := sxt, cmp := cmp, act := act, rck := rck, xgm := xgm, lht := lht }
  kept : ∃ load swap moving bist pipes structValid, t.dev = { s.dev with
    mode := t.dev.mode, trans := t.dev.trans, safeAt := t.dev.safeAt, commPhase := t.dev.commPhase, load := load, swap := swap,
    moving := moving, bist := bist, pipes := pipes, structValid := structValid }

/-- The bits of a status word but one that may have been set. -/
theorem bit_of_setBit_ite {v w : Word} {i : Nat} {b : Bool} (hi : i < 32) (h : ∃ c : Bool, w = if c then Machine.setBit v i b else v)
    {j : Nat} (hj : j ≠ i) : Machine.bit w j = Machine.bit v j := by
  obtain ⟨c, rfl⟩ := h
  cases c
  · rfl
  · exact bit_setBit_other v hi hj b

/-- COMM_STATUS loses BUSY and DONE where commissioning is left. -/
theorem commLeave_frame (s : State) : ∃ regs, s.commLeave = { s with
      regs := regs, dev.commPhase := if s.dev.mode = .commission then 0 else s.dev.commPhase } ∧
    RegsBut [Reg.devCommStatus] s s.commLeave ∧ ∀ i < 30, s.commLeave.bit Reg.devCommStatus i = s.bit Reg.devCommStatus i := by
  unfold State.commLeave
  split
  · next h =>
    refine ⟨_, rfl, fun a ha => ?_, fun i hi => ?_⟩
    · rw [State.rd_setBit, if_neg (by simpa using ha), State.rd_setBit, if_neg (by simpa using ha)]
      rfl
    · rw [State.bit, State.rd_setBit, if_pos rfl, bit_setBit_other _ (by decide) (by omega), State.rd_setBit, if_pos rfl,
        bit_setBit_other _ (by decide) (by omega)]
      rfl
  · exact ⟨s.regs, rfl, fun _ _ => rfl, fun _ _ => rfl⟩

theorem opStat_ne_devModeCause : ∀ o ∈ allLongOps, opStat o ≠ Reg.devModeCause ∧ opStat o ≠ Reg.devMode := by decide

/-- A refused mode request sets REQ_REFUSED and raises its event. -/
theorem refuseMode_frame (s : State) : s.refuseMode.bit Reg.devMode 30 = true ∧ Raised (leafOf 19 1) s.refuseMode ∧
    Reports (Reg.devMode :: eventRegs (leafOf 19 1)) s s.refuseMode := by
  have hevent := reports_event (s.setBit Reg.devMode 30 true) (leafOf 19 1) 0
  refine ⟨?_, raised_raise _ _ _ _ _ _, ?_, fun a ha => ?_⟩
  · rw [State.refuseMode, State.bit, hevent.2 _ (by decide), State.rd_setBit, if_pos rfl]
    exact bit_setBit_self _ (by decide) true
  · rw [State.refuseMode, hevent.1]
    rfl
  · obtain ⟨hmode, hregs⟩ := not_or.mp (mt List.mem_cons.mpr ha)
    rw [State.refuseMode, hevent.2 a hregs, State.rd_setBit, if_neg hmode]

theorem reqLost_frame (s : State) (lost : Bool) : Reports (Reg.devMode :: eventRegs (leafOf 19 1)) s (s.reqLost lost) ∧
    (lost = true → (s.reqLost lost).bit Reg.devMode 30 = true) ∧ ∀ leaf < 2048, Raised leaf s → Raised leaf (s.reqLost lost) := by
  unfold State.reqLost
  split
  · obtain ⟨hbit, -, hreports⟩ := refuseMode_frame s
    refine ⟨hreports, fun _ => hbit, fun leaf hleaf h => Raised.raise (raised_of_rd hleaf h fun k hk => ?_) _ _ _ _ _⟩
    rw [State.rd_setBit, if_neg (by simp only [Reg.evtStatus, Reg.devMode]; omega)]
  · next h => exact ⟨⟨rfl, fun _ _ => rfl⟩, fun hlost => absurd hlost h, fun _ _ h => h⟩

theorem eventRegs_eventReg {leaf : Nat} (hleaf : leaf < 2048) {a : Nat} (h : a ∈ eventRegs leaf) : eventReg a := by
  simp only [eventRegs, List.mem_cons, List.not_mem_nil, or_false, leafBufOverflow, Reg.evtStatus] at h
  unfold eventReg
  simp only [Reg.evtStatus]
  omega

theorem safeEntry_enters {s : State} (h : s.dev.mode ≠ .safe) (cause fatal : Nat) :
    SafeEntered cause fatal s (s.safeEntry cause fatal) := by
  obtain ⟨regs, hleave, hregs, hcomm⟩ := commLeave_frame s
  have hset := setMode_waned { s.commLeave with dev.safeAt := some s.raw } .safe cause fatal
  have hrun : s.safeEntry cause fatal = (({ s.commLeave with dev.safeAt := some s.raw } : State).setMode .safe cause fatal).reqLost s.reqNow := by
    rw [State.safeEntry, if_neg h]
  rw [hrun]
  generalize ({ s.commLeave with dev.safeAt := some s.raw } : State).setMode .safe cause fatal = u at hset
  generalize hv : (({ s.commLeave with dev.safeAt := some s.raw, dev.mode := .safe, dev.trans := none } : State).wr Reg.devModeCause
    (BitVec.ofNat 32 (fatal * 256 + cause))) = v at hset
  have hrd : ∀ a, a ∉ [Reg.devCommStatus, Reg.devModeCause] → v.rd a = s.rd a := fun a ha => by
    simp only [List.mem_cons, List.not_mem_nil, or_false, not_or] at ha
    obtain ⟨hc, hm⟩ := ha
    rw [← hv, State.rd_wr_other _ _ hm]
    exact hregs a (by simpa using hc)
  have hcause : v.rd Reg.devModeCause = BitVec.ofNat 32 (fatal * 256 + cause) := by rw [← hv, State.rd_wr_self]
  have hcommv : ∀ i < 30, v.bit Reg.devCommStatus i = s.bit Reg.devCommStatus i := fun i hi => by
    rw [State.bit, ← hv, State.rd_wr_other _ _ (by decide)]
    exact hcomm i hi
  obtain ⟨hlost, hbit, hraised⟩ := reqLost_frame u s.reqNow
  obtain ⟨hframe, hlostregs⟩ := hlost
  generalize u.reqLost s.reqNow = t at *
  have hmem : ∀ a, ¬ eventReg a → a ≠ Reg.devMode → t.rd a = u.rd a := fun a ha hm => hlostregs a fun hin => by
    obtain rfl | hin := List.mem_cons.mp hin
    · exact hm rfl
    · exact ha (eventRegs_eventReg (by decide) hin)
  have hudev : ∃ load swap moving bist pipes structValid, u.dev = { v.dev with
      load := load, swap := swap, moving := moving, bist := bist, pipes := pipes, structValid := structValid } := by
    obtain ⟨_, _, _, load, swap, moving, bist, pipes, structValid, _, _, _, _, _, _, _, _, _, _, _, _, _, _, rfl⟩ := hset.frame
    exact ⟨load, swap, moving, bist, pipes, structValid, rfl⟩
  have htdev : t.dev = u.dev := by rw [hframe]
  have hvdev : v.dev = { s.dev with
      commPhase := if s.dev.mode = .commission then 0 else s.dev.commPhase, safeAt := some s.raw, mode := .safe, trans := none } := by
    rw [← hv, hleave]
    rfl
  obtain ⟨load, swap, moving, bist, pipes, structValid, hdev⟩ := hudev
  rw [hvdev] at hdev
  exact {
    mode := by rw [htdev, hdev]
    trans := by rw [htdev, hdev]
    safeAt := by rw [htdev, hdev]
    shown := by
      rw [hmem _ (by unfold eventReg; decide) (by decide), hset.regs _ (by unfold opsReg eventReg; decide) (by decide) (by decide), hcause]
    phase := by rw [htdev, hdev]
    refused := hbit
    regs := fun a ha hl => by
      simp only [List.mem_cons, List.not_mem_nil, or_false, not_or] at hl
      obtain ⟨hc, hl, hm, hd⟩ := hl
      rw [hmem a (fun h => ha (.inl h)) hd, hset.regs a ha hc hl, hrd a (by simp [hc, hm])]
    comm := fun i hi => by
      rw [State.bit, hmem _ (by unfold eventReg; decide) (by decide), bit_of_setBit_ite (by decide) hset.comm (by omega)]
      exact hcommv i hi
    raised := fun leaf hleaf hr => hraised leaf hleaf (hset.raised leaf hleaf (raised_of_rd hleaf hr fun k hk => hrd _ (by
      simp only [List.mem_cons, List.not_mem_nil, or_false, Reg.evtStatus, Reg.devCommStatus, Reg.devModeCause]
      omega)))
    idle := fun o ho hb => by
      have hne := opStat_ne_devModeCause o ho
      rw [State.busy, State.bit, hmem _ (opStat_not_eventReg ho) hne.2]
      refine hset.idle o ho ?_
      rw [State.busy, State.bit, hrd _ (by simp [opStat_ne_devCommStatus, hne.1])]
      exact hb
    sec := fun herr => by
      have hvsec : v.sec = s.sec := by
        rw [← hv, hleave]
        rfl
      have husec := hset.sec (by rw [hvsec]; exact herr)
      rw [hframe]
      exact husec.trans hvsec
    frame := by
      obtain ⟨_, _, _, _, _, _, _, _, _, _, _, _, _, _, _, _, _, _, _, _, _, _, _, rfl⟩ := hset.frame
      rw [hframe, ← hv, hleave]
      exact ⟨_, _, _, _, _, _, _, _, _, _, _, _, _, _, _, _, _, _, rfl⟩
    kept := ⟨load, swap, moving, bist, pipes, structValid, by rw [htdev, hdev]⟩ }

/-! ### What goes on after a change of mode leaves the mode alone -/

/-- The registers that show a change of mode, a takeover or a commit of the standby's snapshot. -/
def modeRegs : List Nat := [Reg.devModeCause, Reg.devCommStatus, Reg.lhtStatus, Reg.lhtTakeovers, Reg.lhtSnapGen]

/-- From `s` to `t` nothing that a change of mode sets has moved. -/
def ModeHeld (s t : State) : Prop :=
  t.dev = s.dev ∧ (∀ a ∈ modeRegs, t.rd a = s.rd a) ∧ t.lht.witAt = s.lht.witAt

theorem ModeHeld.refl (s : State) : ModeHeld s s := ⟨rfl, fun _ _ => rfl, rfl⟩

theorem ModeHeld.trans {s t u : State} (h : ModeHeld s t) (k : ModeHeld t u) : ModeHeld s u :=
  ⟨k.1.trans h.1, fun a ha => (k.2.1 a ha).trans (h.2.1 a ha), k.2.2.trans h.2.2⟩

theorem ModeHeld.each {s : State} {f : Nat → State → State} (l : List Nat) (hf : ∀ i ∈ l, ∀ t, ModeHeld t (f i t)) :
    ModeHeld s (s.each l f) :=
  State.each_induct (P := ModeHeld s) (.refl s) fun i hi t ht => ht.trans (hf i hi t)

theorem Linked.witAt {s t : State} (h : Linked s t) : t.lht.witAt = s.lht.witAt := by
  obtain ⟨_, _, _, _, _, _, _, _, _, _, _, rfl⟩ := h
  rfl

/-- A change of the state that leaves the registers and the device block as they were. -/
theorem modeHeld_of_regs {s t : State} (hregs : t.regs = s.regs) (hdev : t.dev = s.dev) (hwit : t.lht.witAt = s.lht.witAt) :
    ModeHeld s t :=
  ⟨hdev, fun _ _ => State.rd_of_regs hregs _, hwit⟩

theorem modeHeld_wr (s : State) {a : Nat} (ha : a ∉ modeRegs) (v : Word) : ModeHeld s (s.wr a v) :=
  ⟨rfl, fun _ hb => State.rd_wr_other _ _ fun h => ha (h ▸ hb), rfl⟩

theorem apartReg_modeRegs : ∀ a ∈ modeRegs, apartReg a := by
  unfold apartReg eventReg
  decide

theorem modeHeld_event (s : State) {leaf : Nat} (hleaf : leaf < 2048) (inst : Nat) : ModeHeld s (s.event leaf inst) :=
  ⟨(linked_event s leaf inst).dev, fun a ha => rd_event hleaf inst (apartReg_modeRegs a ha), (linked_event s leaf inst).witAt⟩

theorem modeHeld_ponFollow (s : State) {n : Nat} (hn : n < 48) : ModeHeld s (s.ponFollow n) := by
  refine ⟨(linked_ponFollow s n).dev, fun a ha => ?_, (linked_ponFollow s n).witAt⟩
  rw [rd_ponFollow s hn (apartReg_modeRegs a ha), if_neg]
  simp only [modeRegs, List.mem_cons, List.not_mem_nil, or_false, Reg.devModeCause, Reg.devCommStatus, Reg.lhtStatus,
    Reg.lhtTakeovers, Reg.lhtSnapGen] at ha
  simp only [Reg.ponLineStatus]
  omega

theorem modeHeld_ponFollowAll (s : State) : ModeHeld s s.ponFollowAll :=
  .each _ fun _ hn t => modeHeld_ponFollow t (List.mem_range.mp hn)

theorem modeHeld_setXreasm (s : State) (n pid : Nat) (x : XReasm) : ModeHeld s (s.setXreasm n pid x) := modeHeld_of_regs rfl rfl rfl

theorem modeHeld_keysFree (s : State) (n id : Nat) : ModeHeld s (s.keysFree n id) := by
  refine ModeHeld.trans (modeHeld_of_regs rfl rfl rfl) (.each _ fun pid _ t => (modeHeld_setXreasm t n pid _).trans (modeHeld_wr _ ?_ _))
  simp only [modeRegs, List.mem_cons, List.not_mem_nil, or_false, Reg.devModeCause, Reg.devCommStatus, Reg.lhtStatus,
    Reg.lhtTakeovers, Reg.lhtSnapGen, Reg.xgmUsReasmDrop]
  omega

theorem modeHeld_exchLeave (s : State) (n id : Nat) : ModeHeld s (s.exchLeave n id) := by
  unfold State.exchLeave
  split
  · exact ModeHeld.trans (modeHeld_of_regs rfl rfl rfl) (modeHeld_event _ (by decide) 0)
  · exact .refl s

theorem modeHeld_onuFree (s : State) (n id : Nat) : ModeHeld s (s.onuFree n id) := by
  have hleave : ModeHeld s (s.onuLeave n id) :=
    (modeHeld_exchLeave s n id).trans (modeHeld_of_regs rfl rfl rfl)
  have hfree := hleave.trans (modeHeld_keysFree _ n id)
  unfold State.onuFree
  dsimp only
  generalize (s.onuLeave n id).keysFree n id = u at hfree
  exact hfree.trans (modeHeld_of_regs rfl rfl rfl)

theorem modeHeld_rangeReserve (s : State) (n id : Nat) : ModeHeld s (s.rangeReserve n id) := by
  unfold State.rangeReserve
  dsimp only
  split
  · exact modeHeld_of_regs rfl rfl rfl
  · exact modeHeld_of_regs rfl rfl rfl

theorem modeHeld_reRange (s : State) (n teq : Nat) (o : Int) (acq : Bool) (id : Nat) : ModeHeld s (s.reRange n teq o acq id) := by
  unfold State.reRange
  dsimp only
  refine ModeHeld.trans ?_ (modeHeld_rangeReserve _ n id)
  exact modeHeld_of_regs rfl rfl rfl

theorem modeHeld_takePort (s : State) {n : Nat} (hn : n < 48) : ModeHeld s (s.takePort n) := by
  unfold State.takePort
  dsimp only
  split
  · refine ModeHeld.trans (modeHeld_wr s ?_ _) (.each _ fun id _ t => modeHeld_reRange t n _ _ _ id)
    simp only [modeRegs, List.mem_cons, List.not_mem_nil, or_false, Reg.devModeCause, Reg.devCommStatus, Reg.lhtStatus,
      Reg.lhtTakeovers, Reg.lhtSnapGen, Reg.ponTeq]
    omega
  · exact .each _ fun id _ t => modeHeld_reRange t n _ _ _ id

theorem modeHeld_takeBuckets (s : State) : ModeHeld s s.takeBuckets := by
  have hnodes (t : State) : ModeHeld t t.resetNodes :=
    ModeHeld.trans (modeHeld_of_regs rfl rfl rfl) (.each _ fun _ _ _ => modeHeld_of_regs rfl rfl rfl)
  have hpolicers (t : State) : ModeHeld t t.resetPolicers :=
    ModeHeld.trans (modeHeld_of_regs rfl rfl rfl) (.each _ fun _ _ _ => modeHeld_of_regs rfl rfl rfl)
  unfold State.takeBuckets
  dsimp only
  refine ModeHeld.trans ?_ ((hnodes _).trans (hpolicers _))
  exact modeHeld_of_regs rfl rfl rfl

theorem modeHeld_takeBlank (s : State) : ModeHeld s s.takeBlank := by
  unfold State.takeBlank
  split
  · exact .refl s
  · exact ModeHeld.trans (modeHeld_of_regs rfl rfl rfl) (.each _ fun _ _ t => modeHeld_onuFree t _ _)

/-! ### Transmitters that stop -/

theorem rangeReserve_frame (s : State) (n id : Nat) :
    (s.rangeReserve n id).regs = s.regs ∧ (s.rangeReserve n id).dev = s.dev := by
  unfold State.rangeReserve
  dsimp only
  split
  · exact ⟨rfl, rfl⟩
  · exact ⟨rfl, rfl⟩

theorem unsentMap_frame (s : State) (j : Nat) : (s.unsentMap j).regs = s.regs ∧ (s.unsentMap j).dev = s.dev := by
  have hrelease (t : State) (n id : Nat) : (t.rangeRelease n id).regs = t.regs ∧ (t.rangeRelease n id).dev = t.dev := ⟨rfl, rfl⟩
  unfold State.unsentMap
  dsimp only
  have hset : (s.setMaps j ((s.maps j).map fun m => if m.taken && !m.sent then { m with bursts := [], sent := true } else m)).regs = s.regs ∧
      (s.setMaps j ((s.maps j).map fun m => if m.taken && !m.sent then { m with bursts := [], sent := true } else m)).dev = s.dev :=
    ⟨rfl, rfl⟩
  generalize s.setMaps j _ = u at hset
  split
  · refine State.each_induct (P := fun t => t.regs = s.regs ∧ t.dev = s.dev) hset fun id _ t ht => ?_
    obtain ⟨hregs, hdev⟩ := rangeReserve_frame (t.rangeRelease (j / 2) id) (j / 2) id
    obtain ⟨hregs', hdev'⟩ := hrelease t (j / 2) id
    exact ⟨(hregs.trans hregs').trans ht.1, (hdev.trans hdev').trans ht.2⟩
  · exact hset

theorem chStop_frame (s : State) (j : Nat) : (s.chStop j).regs = s.regs ∧ (s.chStop j).dev = s.dev := by
  have hfill : (s.frameFill j).regs = s.regs ∧ (s.frameFill j).dev = s.dev := by
    unfold State.frameFill State.idleFill
    split
    · exact ⟨rfl, rfl⟩
    · exact ⟨rfl, rfl⟩
  have hreturn (t : State) : ((t.restDrop j).ploamReturn j).regs = t.regs ∧ ((t.restDrop j).ploamReturn j).dev = t.dev := ⟨rfl, rfl⟩
  unfold State.chStop
  obtain ⟨hregs, hdev⟩ := unsentMap_frame (((s.frameFill j).restDrop j).ploamReturn j) j
  obtain ⟨hregs', hdev'⟩ := hreturn (s.frameFill j)
  exact ⟨(hregs.trans hregs').trans hfill.1, (hdev.trans hdev').trans hfill.2⟩

theorem ponLineStatus_injective {m n : Nat} (h : Reg.ponLineStatus m = Reg.ponLineStatus n) : m = n := by
  simp only [Reg.ponLineStatus] at h
  omega

theorem txStop_frame (s : State) (n : Nat) :
    (s.txStop n).dev = s.dev ∧ (s.txStop n).txOn n = false ∧ ∀ m, m ≠ n → (s.txStop n).txOn m = s.txOn m := by
  obtain ⟨hregs, hdev⟩ := chStop_frame s (2 * n)
  obtain ⟨hregs', hdev'⟩ := chStop_frame (s.chStop (2 * n)) (2 * n + 1)
  unfold State.txStop
  generalize (s.chStop (2 * n)).chStop (2 * n + 1) = u at hregs' hdev' ⊢
  have hrd (a : Nat) : u.rd a = s.rd a := State.rd_of_regs (hregs'.trans hregs) a
  refine ⟨hdev'.trans hdev, ?_, fun m hm => ?_⟩
  · rw [State.txOn, State.bit, State.rd_setBit, if_pos rfl, bit_setBit_other _ (by decide) (by decide), State.rd_setBit,
      if_pos rfl, bit_setBit_self _ (by decide)]
  · have hne : Reg.ponLineStatus m ≠ Reg.ponLineStatus n := fun h => hm (ponLineStatus_injective h)
    rw [State.txOn, State.bit, State.rd_setBit, if_neg hne, State.rd_setBit, if_neg hne, hrd]
    rfl

theorem txOn_ponFollow (s : State) {n m : Nat} (hn : n < 48) (hm : m < 48) : (s.ponFollow n).txOn m = s.txOn m := by
  rw [State.txOn, State.bit, rd_ponFollow s hn (apartReg_ponLineStatus hm)]
  split
  · next h =>
    obtain rfl := ponLineStatus_injective h
    rw [ponShown, bit_setBit_other _ (by decide) (by decide), bit_setBit_other _ (by decide) (by decide),
      bit_setFld_out _ (by decide) (.inr (by decide))]
    rfl
  · rfl

/-- After the transmitters of a list have stopped, those of the list are off, and no other has started. -/
theorem each_txStop (s : State) (l : List Nat) :
    (s.each l fun n s => s.txStop n).dev = s.dev ∧
      ∀ m, (m ∈ l ∨ s.txOn m = false) → (s.each l fun n s => s.txStop n).txOn m = false := by
  induction l generalizing s with
  | nil => exact ⟨rfl, fun m h => h.resolve_left List.not_mem_nil⟩
  | cons n l ih =>
    obtain ⟨hdev, hoff, hother⟩ := txStop_frame s n
    obtain ⟨hrest, hrestoff⟩ := ih (s.txStop n)
    have hcons : (s.each (n :: l) fun n s => s.txStop n) = (s.txStop n).each l fun n s => s.txStop n := rfl
    rw [hcons]
    clear hcons
    generalize s.txStop n = u at hdev hoff hother hrest hrestoff ⊢
    refine ⟨hrest.trans hdev, fun m h => hrestoff m ?_⟩
    by_cases hm : m = n
    · exact .inr (by rw [hm]; exact hoff)
    · exact h.elim (fun hmem => .inl ((List.mem_cons.mp hmem).resolve_left hm)) fun hfalse => .inr ((hother m hm).trans hfalse)

/-! ### What a change of mode leaves to the pair -/

/-- The witness window, a yield and what the paths have heard are as they were. -/
def LhtKept (s t : State) : Prop :=
  t.lht.witAt = s.lht.witAt ∧ t.lht.yielded = s.lht.yielded ∧
    ∀ p, (t.lhPath p).got = (s.lhPath p).got ∧ (t.lhPath p).ref = (s.lhPath p).ref

theorem lhtKept_of_lht {s t : State} (h : t.lht = s.lht) : LhtKept s t := by
  unfold LhtKept State.lhPath
  rw [h]
  exact ⟨rfl, rfl, fun _ => ⟨rfl, rfl⟩⟩

theorem LhtKept.refl (s : State) : LhtKept s s := lhtKept_of_lht rfl

theorem LhtKept.trans {s t u : State} (h : LhtKept s t) (k : LhtKept t u) : LhtKept s u := by
  obtain ⟨hwit, hyield, hpaths⟩ := h
  obtain ⟨kwit, kyield, kpaths⟩ := k
  exact ⟨kwit.trans hwit, kyield.trans hyield,
    fun p => ⟨(kpaths p).1.trans (hpaths p).1, (kpaths p).2.trans (hpaths p).2⟩⟩

theorem Linked.lht {s t : State} (h : Linked s t) : t.lht = s.lht := by
  obtain ⟨_, _, _, _, _, _, _, _, _, _, _, rfl⟩ := h
  rfl

theorem lhtKept_linked {s t : State} (h : Linked s t) : LhtKept s t := lhtKept_of_lht h.lht

theorem lhtKept_memInit (s : State) : LhtKept s s.memInit := by
  have hlists : LhtKept s s.threadLists := lhtKept_of_lht (by rw [threadLists_frame])
  unfold State.memInit State.wipeReserved
  generalize s.threadLists = u at hlists ⊢
  exact hlists.trans ⟨rfl, rfl, fun _ => ⟨rfl, rfl⟩⟩

theorem lhtKept_bistAfter (s : State) (target : Nat) : LhtKept s (s.bistAfter target) := by
  have hbuffers (u : State) : LhtKept u u.clearBuffers.clearKeyStore := lhtKept_of_lht rfl
  have hpipes (u : State) : LhtKept u (u.each (List.range 9) fun p v => v.setPipe p {}) :=
    State.each_induct (P := LhtKept u) (.refl u) fun _ _ v hv => hv.trans (lhtKept_of_lht rfl)
  have hinvalid (u : State) : LhtKept u (u.invalidate.setBit Reg.devCommStatus 30 false) := lhtKept_of_lht rfl
  unfold State.bistAfter
  split
  · exact (lhtKept_memInit s).trans (hbuffers _)
  · split
    · refine LhtKept.trans ?_ ((hpipes _).trans (hinvalid _))
      exact lhtKept_of_lht rfl
    · exact lhtKept_of_lht rfl

theorem lhtKept_opIdle (s : State) (o : LongOp) : LhtKept s (s.opIdle o) := by
  cases o with
  | memoryBist =>
    unfold State.opIdle
    dsimp only
    split
    · refine LhtKept.trans ?_ (lhtKept_bistAfter _ _)
      exact lhtKept_of_lht rfl
    · exact .refl s
  | bulkSync => exact ⟨rfl, rfl, fun _ => ⟨rfl, rfl⟩⟩
  | _ => exact lhtKept_of_lht rfl

theorem lhtKept_opAbort (s : State) (o : LongOp) (reason : Nat) : LhtKept s (s.opAbort o reason) :=
  (lhtKept_opIdle s o).trans (lhtKept_linked (linked_opEnd _ o _))

theorem lhtKept_abortWhere (s : State) (p : LongOp → Bool) (reason : Nat) (l : List LongOp) :
    LhtKept s (s.abortWhere p reason l) := by
  induction l generalizing s with
  | nil => exact .refl s
  | cons o l ih =>
    refine LhtKept.trans ?_ (ih _)
    split
    · exact lhtKept_opAbort s o reason
    · exact .refl s

theorem lhtKept_reRank (s : State) : LhtKept s s.reRank := by
  have htake (u : State) : LhtKept u u.takeManager := by
    unfold State.takeManager
    dsimp only
    split
    · exact lhtKept_of_lht rfl
    · exact lhtKept_of_lht rfl
  have hroles : LhtKept s { s with mer.role := s.roles.1, mer.mgr := s.roles.2.1, mer.standby := s.roles.2.2 } := lhtKept_of_lht rfl
  unfold State.reRank
  dsimp only
  split
  · exact hroles
  · refine LhtKept.trans ?_ (lhtKept_linked (linked_event _ _ _))
    split
    · exact hroles.trans (htake _)
    · split
      · exact lhtKept_of_lht rfl
      · exact hroles

theorem lhtKept_goStale (s : State) : LhtKept s s.goStale := by
  unfold State.goStale
  split
  · exact .refl s
  · exact (lhtKept_linked (linked_wr s _ _)).trans (lhtKept_linked (linked_event _ _ _))

/-- A path that has sent one more heartbeat has heard no more. -/
theorem lhtKept_setLhPath (s : State) (p : Nat) {x : LhPath} (hgot : x.got = (s.lhPath p).got) (href : x.ref = (s.lhPath p).ref) :
    LhtKept s (s.setLhPath p x) := by
  refine ⟨rfl, rfl, fun q => ?_⟩
  have hget : (s.setLhPath p x).lhPath q = if q = p then x else s.lhPath q := SMap.get_set _ _ _ _ _
  rw [hget]
  split
  · next h =>
    rw [h]
    exact ⟨hgot, href⟩
  · exact ⟨rfl, rfl⟩

theorem linked_sendOther (s : State) (d : Nat) (c : Cell) : Linked s (s.sendOther d c) := by
  unfold State.sendOther
  split
  · exact linked_setGroup s _ _
  · exact .refl s

theorem lhtKept_hbSend (s : State) (p : Nat) : LhtKept s (s.hbSend p) := by
  unfold State.hbSend
  split
  · exact .refl s
  · have hsent := lhtKept_setLhPath s p (x := { s.lhPath p with sent := (s.lhPath p).sent + 1 }) rfl rfl
    dsimp only
    split
    · exact hsent.trans (lhtKept_linked (linked_emit _ _))
    · exact hsent.trans (lhtKept_linked (linked_sendOther _ _ _))

theorem lhtKept_hbBoth (s : State) : LhtKept s s.hbBoth := by
  unfold State.hbBoth
  split
  · exact (lhtKept_hbSend s 0).trans (lhtKept_hbSend _ 1)
  · exact .refl s

theorem lhtKept_setMode (s : State) (m : Mode) (cause fatal : Nat) : LhtKept s (s.setMode m cause fatal) := by
  have habort (u : State) (old : Mode) : LhtKept u (u.abortDisallowed old m) := lhtKept_abortWhere u _ 3 allLongOps
  have hraised : ∀ u : State, LhtKept s u → LhtKept s ((u.abortDisallowed s.dev.mode m).reRank.raise leafModeChange 0
      (BitVec.ofNat 32 (modeCode m)) (BitVec.ofNat 32 (fatal * 256 + cause)) 0) := fun u hu =>
    ((hu.trans (habort u _)).trans (lhtKept_reRank _)).trans (lhtKept_linked (linked_raise _ _ _ _ _ _))
  unfold State.setMode
  dsimp only
  refine LhtKept.trans ?_ (lhtKept_hbBoth _)
  split
  · refine LhtKept.trans (hraised _ ?_) (lhtKept_goStale _)
    exact lhtKept_of_lht rfl
  · refine hraised _ ?_
    exact lhtKept_of_lht rfl

/-! ### A transition that completes (R53) -/

theorem modeHeld_withDrains (s : State) (f : State → State) : ModeHeld (f s) (s.withDrains f) := by
  unfold State.withDrains
  dsimp only
  refine ModeHeld.each _ fun i _ u => ?_
  split
  · unfold State.drainIf
    split
    · exact .refl u
    · exact modeHeld_of_regs rfl rfl rfl
  · exact .refl u

/-- A mode that has been set, with its cause. -/
theorem setMode_shown (s : State) (m : Mode) (cause fatal : Nat) :
    (s.setMode m cause fatal).dev.mode = m ∧ (s.setMode m cause fatal).dev.trans = none ∧
      (s.setMode m cause fatal).rd Reg.devModeCause = BitVec.ofNat 32 (fatal * 256 + cause) ∧
      (s.setMode m cause fatal).fld Reg.lhtStatus 19 16 = s.fld Reg.lhtStatus 19 16 := by
  have hset := setMode_waned s m cause fatal
  generalize s.setMode m cause fatal = t at hset
  refine ⟨?_, ?_, ?_, ?_⟩
  · obtain ⟨_, _, _, _, _, _, _, _, _, _, _, _, _, _, _, _, _, _, _, _, _, _, _, rfl⟩ := hset.frame
    rfl
  · obtain ⟨_, _, _, _, _, _, _, _, _, _, _, _, _, _, _, _, _, _, _, _, _, _, _, rfl⟩ := hset.frame
    rfl
  · rw [hset.regs _ (by unfold opsReg eventReg; decide) (by decide) (by decide), State.rd_wr_self]
  · obtain ⟨c, hc⟩ := hset.stale
    rw [State.rd_wr_other _ _ (by decide)] at hc
    rw [State.fld, hc]
    cases c
    · rfl
    · rw [if_pos rfl, Machine.setBit, Machine.fld_setFld_other _ (by decide) (by decide)]
      rfl

theorem modeHeld_reqLost (s : State) (lost : Bool) : ModeHeld s (s.reqLost lost) := by
  unfold State.reqLost State.refuseMode
  split
  · exact (modeHeld_wr s (by decide) _).trans (modeHeld_event _ (by decide) 0)
  · exact .refl s

/-- What a takeover shows: ACTIVE with cause 3, its own cause, one takeover more, no window (R324). -/
structure TookOver (cause : Nat) (s t : State) : Prop where
  mode : t.dev.mode = .active
  trans : t.dev.trans = none
  shown : t.rd Reg.devModeCause = 3
  cause : t.fld Reg.lhtStatus 19 16 = cause
  counted : t.rd Reg.lhtTakeovers = satAdd (s.rd Reg.lhtTakeovers) 1
  window : t.lht.witAt = none

/-- Where a slot was staged, PARTIAL_STALE shows it. -/
theorem partialStale_frame (s : State) (b : Bool) :
    (if b then s.setLh "PARTIAL_STALE" true else s).rd Reg.lhtTakeovers = s.rd Reg.lhtTakeovers ∧
      (if b then s.setLh "PARTIAL_STALE" true else s).lht = s.lht := by
  cases b
  · exact ⟨rfl, rfl⟩
  · exact ⟨(State.rd_setBit _ _ _ _ _).trans (if_neg (by decide)), rfl⟩

theorem takeover_shown (s : State) {cause : Nat} (hcause : cause < 16) : TookOver cause s (s.takeover cause) := by
  have hstart : (if s.busy .bulkSync then s.opAbort .bulkSync 3 else s).rd Reg.lhtTakeovers = s.rd Reg.lhtTakeovers := by
    split
    · exact (waned_opAbort s (by decide) (by decide) 3).regs _ (by unfold opsReg eventReg; decide) (by decide) (by decide)
    · rfl
  unfold State.takeover
  dsimp only
  generalize (if s.busy .bulkSync then s.opAbort .bulkSync 3 else s) = u at hstart ⊢
  generalize hv : State.bump _ _ = v
  have hfield : v.fld Reg.lhtStatus 19 16 = cause := by
    rw [← hv, State.fld, State.rd_bump, if_neg (by decide)]
    exact (State.fld_setFld_self _ _ (by decide) (by decide) _).trans (Nat.mod_eq_of_lt hcause)
  have hcount : v.rd Reg.lhtTakeovers = satAdd (s.rd Reg.lhtTakeovers) 1 := by
    rw [← hv, State.rd_bump, if_pos rfl, State.rd_setFld, if_neg (by decide), (partialStale_frame _ _).1, ← hstart]
    rfl
  have hwindow : v.lht.witAt = none := by
    rw [← hv]
    exact congrArg Lht.witAt (partialStale_frame _ _).2
  clear hv
  obtain ⟨hmode, htrans, hshown, hkept⟩ := setMode_shown v .active 3 0
  have hcounted : (v.setMode .active 3 0).rd Reg.lhtTakeovers = v.rd Reg.lhtTakeovers :=
    ((setMode_waned v .active 3 0).regs _ (by unfold opsReg eventReg; decide) (by decide) (by decide)).trans
      (State.rd_wr_other _ _ (by decide))
  have hwit : (v.setMode .active 3 0).lht.witAt = v.lht.witAt := (lhtKept_setMode v .active 3 0).1
  have hheld : ModeHeld (v.setMode .active 3 0) (((v.setMode .active 3 0).event (leafOf 17 6) 0).takeBlank) :=
    (modeHeld_event _ (by decide) 0).trans (modeHeld_takeBlank _)
  generalize ((v.setMode .active 3 0).event (leafOf 17 6) 0).takeBlank = w at hheld ⊢
  have hports : ModeHeld w ((w.each ((List.range 48).filter fun n => w.ponPers n != 0) fun n s => s.takePort n).takeBuckets.ponFollowAll) :=
    ((ModeHeld.each _ fun n hn t => modeHeld_takePort t (List.mem_range.mp (List.mem_filter.mp hn).1)).trans
      (modeHeld_takeBuckets _)).trans (modeHeld_ponFollowAll _)
  obtain ⟨hdev, hregs, hwait⟩ := (hheld.trans hports).trans (modeHeld_reqLost _ (cause != 3 && s.reqNow))
  exact {
    mode := by rw [hdev]; exact hmode
    trans := by rw [hdev]; exact htrans
    shown := by
      rw [hregs _ (by decide), hshown]
      rfl
    cause := by
      rw [State.fld, hregs _ (by decide)]
      exact hkept.trans hfield
    counted := by rw [hregs _ (by decide), hcounted, hcount]
    window := by rw [hwait, hwit, hwindow] }

section
variable {s : State} {m : Mode} {req : Nat}

theorem modeRequest_accepted (h5 : req ≠ 5) (hreq : modeOf req = some m) (hother : m ≠ s.dev.mode) (htrans : s.dev.trans = none)
    (hlegal : s.legal m = true) (htook : s.dev.tookAt ≠ some s.raw) :
    s.modeRequest req = { s with dev := { s.dev with trans := some (m, 2), transAt := s.raw } } := by
  rw [State.modeRequest, if_neg h5, hreq]
  dsimp only
  rw [if_neg hother, if_neg (by simpa using htook), hlegal, if_pos (by rw [htrans]; rfl)]

theorem modeRequest_refused (h5 : req ≠ 5) (hcur : modeOf req ≠ some s.dev.mode)
    (hbad : modeOf req = none ∨ s.dev.trans ≠ none ∨ (modeOf req).all s.legal = false ∨ s.dev.tookAt = some s.raw) :
    s.modeRequest req = s.refuseMode := by
  rw [State.modeRequest, if_neg h5]
  cases hm : modeOf req with
  | none => rfl
  | some m =>
    dsimp only
    rw [if_neg (fun h : m = s.dev.mode => hcur (h ▸ hm))]
    split
    · rfl
    · next htook =>
      refine if_neg fun hand => ?_
      obtain ⟨hnone, hlegal⟩ := Bool.and_eq_true_iff.mp hand
      rw [hm] at hbad
      obtain h | h | h | h := hbad
      · exact absurd h (Option.some_ne_none m)
      · exact h (Option.isNone_iff_eq_none.mp hnone)
      · exact absurd (hlegal.symm.trans h) (by decide)
      · exact htook (by simp [h])

theorem modeRequest_current (hcur : modeOf req = some s.dev.mode) : s.modeRequest req = s := by
  rw [State.modeRequest]
  split
  · next h5 =>
    rw [h5] at hcur
    rw [State.safeEntry, if_pos (Option.some.inj hcur).symm]
  · rw [hcur]
    exact if_pos rfl

theorem legal_wrTyped_devMode (s : State) (v : Word) : (s.wrTyped Reg.devMode v).legal = s.legal := by
  funext m
  unfold State.legal State.busy State.bit
  rw [State.rd_wrTyped_other _ _ (by decide), State.rd_wrTyped_other _ _ (by decide)]
  rfl

end

/-- Settles O40. -/
theorem modeRequestsAreAcceptedOrRefused : Obligations.ModeRequestsAreAcceptedOrRefused := by
  unfold Obligations.ModeRequestsAreAcceptedOrRefused
  refine ⟨?_, ?_, ?_, ?_, ?_, ?_, ?_, ?_, ?_⟩
  · intro val s m hgo hreq hsafe hother htrans hlegal htook
    refine Runs.intro (t := s.modeWrite val) rfl ?_
    have hreq5 : Machine.fld val 26 24 ≠ 5 := fun h => hsafe (by
      rw [h] at hreq
      exact (Option.some.inj hreq).symm)
    have hrun : s.modeWrite val = { s.wrTyped Reg.devMode val with dev := { s.dev with trans := some (m, 2), transAt := s.raw } } := by
      rw [State.modeWrite, if_pos hgo]
      exact modeRequest_accepted hreq5 hreq hother htrans (by rw [legal_wrTyped_devMode]; exact hlegal) htook
    rw [hrun]
    exact ⟨rfl, fun a ha => State.rd_wrTyped_other _ _ (List.ne_of_not_mem_cons ha), rfl⟩
  · intro val s hgo h5 hcur hbad
    refine Runs.intro (t := s.modeWrite val) rfl ?_
    have hrun : s.modeWrite val = (s.wrTyped Reg.devMode val).refuseMode := by
      rw [State.modeWrite, if_pos hgo]
      exact modeRequest_refused h5 hcur (by rw [legal_wrTyped_devMode]; exact hbad)
    obtain ⟨hbit, hraised, hframe, hregs⟩ := refuseMode_frame (s.wrTyped Reg.devMode val)
    rw [hrun]
    refine ⟨hbit, by rw [hframe]; rfl, hraised, by rw [hframe]; rfl, fun a ha => (hregs a ha).trans ?_⟩
    exact State.rd_wrTyped_other _ _ (List.ne_of_not_mem_cons ha)
  · intro val s h
    have hrun : s.modeWrite val = s.wrTyped Reg.devMode val := by
      unfold State.modeWrite
      dsimp only
      obtain hgo | hcur := h
      · rw [if_neg (Bool.eq_false_iff.mp hgo)]
      · split
        · exact modeRequest_current hcur
        · rfl
    have honly : OnlyRegs [Reg.devMode] s (s.modeWrite val) := by
      rw [hrun]
      exact s.onlyRegs_wrTyped _ _
    exact ⟨Runs.intro (t := s.modeWrite val) rfl honly, Runs.intro (t := s.modeWrite val) rfl honly⟩
  · intro val s hgo h5 hmode
    refine Runs.intro (t := s.modeWrite val) rfl ?_
    have hrun : s.modeWrite val = (s.wrTyped Reg.devMode val).safeEntry 2 0 := by
      rw [State.modeWrite, if_pos hgo, State.modeRequest, if_pos h5]
    have hsafe := safeEntry_enters (s := s.wrTyped Reg.devMode val) hmode 2 0
    rw [hrun]
    generalize (s.wrTyped Reg.devMode val).safeEntry 2 0 = t at hsafe
    refine ⟨hsafe.mode, hsafe.trans, hsafe.safeAt, hsafe.shown, ?_, hsafe.refused⟩
    obtain ⟨_, _, _, _, _, _, _, _, _, _, _, _, _, _, _, _, _, _, rfl⟩ := hsafe.frame
    rfl
  · intro src s hmode
    refine Runs.intro (t := s.safeEntry 6 (src.val + 1)) rfl ?_
    have hsafe := safeEntry_enters hmode 6 (src.val + 1)
    exact ⟨hsafe.mode, hsafe.trans, hsafe.safeAt, hsafe.shown, hsafe.refused⟩
  · intro src s hmode
    exact congrArg Host.Outcome.next (if_pos hmode)
  · intro at' s u m cause hu htrans
    refine Runs.intro (t := u.transEnd) (by rw [hu]; rfl) ?_
    have hrun : u.transEnd = (u.withDrains fun s => s.transTo m cause).ponFollowAll := by rw [State.transEnd, htrans]
    have hheld : ModeHeld (u.transTo m cause) u.transEnd := by
      rw [hrun]
      exact (modeHeld_withDrains u _).trans (modeHeld_ponFollowAll _)
    obtain ⟨hdev, hregs, _⟩ := hheld
    rw [hdev, hregs _ (by decide), hregs _ (by decide), State.fld, hregs _ (by decide)]
    clear hdev hregs hrun
    have hzero : BitVec.ofNat 32 (0 * 256 + cause) = BitVec.ofNat 32 cause := by rw [Nat.zero_mul, Nat.zero_add]
    by_cases htake : m = .active ∧ u.lhStandby = true
    · have hto : u.transTo m cause = u.takeover 3 := if_pos htake
      obtain ⟨hmode, hnone, hshown, hfield, -, -⟩ := takeover_shown u (cause := 3) (by decide)
      rw [hto]
      exact ⟨hmode.trans htake.1.symm, hnone, fun h => absurd htake h, fun _ => ⟨hshown, hfield⟩,
        fun h => absurd (htake.1.symm.trans h) (by decide)⟩
    · by_cases hstandby : m = .standby
      · have hto : u.transTo m cause = u.stopAll.setMode m cause 0 := by rw [State.transTo, if_neg htake, if_pos hstandby]
        obtain ⟨hmode, hnone, hshown, -⟩ := setMode_shown u.stopAll m cause 0
        rw [hto]
        exact ⟨hmode, hnone, fun _ => hshown.trans hzero, fun h => absurd h htake, fun h => absurd (hstandby.symm.trans h) (by decide)⟩
      · obtain ⟨hmode, hnone, hshown, -⟩ := setMode_shown u m cause 0
        by_cases hcomm : m = .commission
        · have hto : u.transTo m cause = (u.setMode m cause 0).commBegin false := by
            rw [State.transTo, if_neg htake, if_neg hstandby, if_pos hcomm]
          rw [hto]
          clear hto
          generalize u.setMode m cause 0 = v at hmode hnone hshown ⊢
          refine ⟨hmode, hnone, fun _ => ?_, fun h => absurd h htake, fun _ => ⟨rfl, State.rd_wr_self ..⟩⟩
          exact (State.rd_wr_other _ _ (by decide)).trans (hshown.trans hzero)
        · have hto : u.transTo m cause = u.setMode m cause 0 := by
            rw [State.transTo, if_neg htake, if_neg hstandby, if_neg hcomm]
          rw [hto]
          exact ⟨hmode, hnone, fun _ => hshown.trans hzero, fun h => absurd h htake, fun h => absurd h hcomm⟩
  · intro at' s hnone
    refine congrArg Host.Outcome.next ?_
    rw [State.transEnd, hnone]
  · intro at' s u hu
    refine Runs.intro (t := u.safeGraceEnd) (by rw [hu]; rfl) ⟨fun hover => ?_, fun hover => ?_⟩
    · obtain ⟨hdev, hoff⟩ := each_txStop { u with dev.safeAt := none } ((List.range 48).filter fun n => u.txOn n)
      have hrun : u.safeGraceEnd = (({ u with dev.safeAt := none } : State).each ((List.range 48).filter fun n => u.txOn n) fun n s =>
          s.txStop n).ponFollowAll := by rw [State.safeGraceEnd, if_pos hover]
      rw [hrun]
      generalize State.each _ _ _ = v at hdev hoff
      obtain ⟨hdev', -⟩ := modeHeld_ponFollowAll v
      refine ⟨by rw [hdev', hdev], fun n => ?_⟩
      have hstopped : v.txOn n.val = false := hoff n.val (by
        cases hn : u.txOn n.val with
        | false => exact .inr hn
        | true => exact .inl (List.mem_filter.mpr ⟨List.mem_range.mpr n.isLt, hn⟩))
      exact State.each_induct (P := fun t => t.txOn n.val = false) hstopped fun k hk t ht =>
        (txOn_ponFollow t (List.mem_range.mp hk) n.isLt).trans ht
    · rw [State.safeGraceEnd, hover]
      rfl

end Sys2Proof.Machine
end

section
/-!
PROOFS. A warm reset that ends a memory BIST (O44; R57, R60, R64).
-/
open Sys2Proof.Safety
namespace Sys2Proof.Machine

/-! ### What a warm reset clears is no structure -/

theorem structValid_resets (s : State) : s.resetNodes.resetPolicers.dev.structValid = s.dev.structValid := by
  have hnodes : s.resetNodes.dev.structValid = s.dev.structValid :=
    State.each_induct (P := fun t => t.dev.structValid = s.dev.structValid) rfl fun _ _ _ ht => ht
  exact State.each_induct (P := fun t => t.dev.structValid = s.dev.structValid) hnodes fun _ _ _ ht => ht

theorem structValid_warmPackets (s : State) : s.warmPackets.dev.structValid = s.dev.structValid := by
  unfold State.warmPackets
  exact structValid_resets _

theorem structValid_warmPon (s : State) : s.warmPon.dev.structValid = s.dev.structValid := by
  unfold State.warmPon
  exact State.each_induct (P := fun t => t.dev.structValid = s.dev.structValid) rfl fun _ _ _ ht => ht

theorem structValid_warmFabric (s : State) : s.warmFabric.dev.structValid = s.dev.structValid := by
  have hlanes : (s.each (List.range 64) fun l s => s.wr (Reg.rhbLaneStatus l) 0).dev.structValid = s.dev.structValid :=
    State.each_induct (P := fun t => t.dev.structValid = s.dev.structValid) rfl fun _ _ _ ht => ht
  unfold State.warmFabric
  generalize s.each (List.range 64) (fun l s => s.wr (Reg.rhbLaneStatus l) 0) = u at hlanes ⊢
  have hgroups : (u.each (List.range 16) fun g s => s.wr (Reg.rhbGrpActive g) 0).dev.structValid = s.dev.structValid :=
    State.each_induct (P := fun t => t.dev.structValid = s.dev.structValid) hlanes fun _ _ _ ht => ht
  dsimp only
  generalize u.each (List.range 16) (fun g s => s.wr (Reg.rhbGrpActive g) 0) = v at hgroups ⊢
  exact State.each_induct (P := fun t => t.dev.structValid = s.dev.structValid) hgroups fun g _ t ht => by
    rw [(linked_grpRefresh t g).dev]
    exact ht

theorem structValid_warmNet (s : State) : s.warmNet.dev.structValid = s.dev.structValid := by
  unfold State.warmNet
  refine State.each_induct (P := fun t => t.dev.structValid = s.dev.structValid) rfl fun i _ t ht => ?_
  dsimp only
  rw [(linked_netFollow _ i).dev]
  exact ht

theorem structValid_warmTime (s : State) : s.warmTime.dev.structValid = s.dev.structValid := by
  unfold State.warmTime
  dsimp only
  exact State.each_induct (P := fun t => t.dev.structValid = s.dev.structValid) rfl fun _ _ _ ht => ht

theorem structValid_warmBanks (s : State) : s.warmBanks.dev.structValid = s.dev.structValid :=
  State.each_induct (P := fun t => t.dev.structValid = s.dev.structValid) rfl fun _ _ _ ht => ht

theorem structValid_warmSec (s : State) : s.warmSec.dev.structValid = s.dev.structValid := by
  unfold State.warmSec State.setNonce
  dsimp only
  have hnonce (u : State) (l : List Word) : (u.wrWords (Reg.secAuthNonce 0) l).dev = u.dev := (linked_wrWords u _ l).dev
  have hwr (u : State) (a : Nat) (v : Word) : (u.wr a v).dev = u.dev := rfl
  rw [hwr, hnonce]

theorem structValid_warmLht (s : State) : s.warmLht.dev.structValid = s.dev.structValid := by
  have hclear : s.lhtClear.dev.structValid = s.dev.structValid := by
    unfold State.lhtClear
    dsimp only
    split
    · unfold State.goStale
      split
      · rfl
      · exact congrArg Dev.structValid (linked_event _ _ _).dev
    · rfl
  exact hclear

theorem structValid_warmClear (s : State) : s.warmClear.dev.structValid = s.dev.structValid := by
  unfold State.warmClear
  have hkept : s.warmPackets.warmPon.warmFabric.warmNet.warmTime.warmBanks.warmSec.warmLht.dev.structValid = s.dev.structValid := by
    rw [structValid_warmLht, structValid_warmSec, structValid_warmBanks, structValid_warmTime, structValid_warmNet,
      structValid_warmFabric, structValid_warmPon, structValid_warmPackets]
  generalize s.warmPackets.warmPon.warmFabric.warmNet.warmTime.warmBanks.warmSec.warmLht = u at hkept ⊢
  dsimp only
  have hrings (v : State) : v.clearRings.dev.structValid = v.dev.structValid := by
    unfold State.clearRings
    dsimp only
    exact State.each_induct (P := fun t => t.dev.structValid = v.dev.structValid) rfl fun _ _ _ ht => ht
  have hevents (v : State) : v.clearEvents.dev.structValid = v.dev.structValid := by
    unfold State.clearEvents
    dsimp only
    exact State.each_induct (P := fun t => t.dev.structValid = v.dev.structValid) rfl fun _ _ _ ht => ht
  rw [hevents, hrings]
  dsimp only
  exact hkept

/-! ### A warm reset while a BIST of the structure memories runs -/

/-- A memory BIST of target 2 runs over a valid structure. -/
def stBistWarm : State := { dev.structValid := true, dev.bist := some 2, regs := [(opStat .memoryBist, 0x80000000)] }

/-- The BIST ends, and with it the structure that it has overwritten (R57): the device comes up in LOAD. -/
theorem warmReset_stBistWarm : stBistWarm.warmReset.dev.mode = .load := by
  have hops : (allLongOps.filter fun o => stBistWarm.busy o) = [.memoryBist] := by decide +kernel
  have hinvalid : (stBistWarm.opMark .memoryBist).dev.structValid = false := by decide +kernel
  have htell (u : State) : (u.opTell .memoryBist).dev = u.dev := by
    unfold State.opTell
    split
    · exact (linked_raise _ _ _ _ _ _).dev
    · rfl
  have hrun : stBistWarm.warmReset =
      ((((stBistWarm.opMark .memoryBist).warmClear.setBit Reg.devResetCause 3 true).warmMode).opTell .memoryBist).ponFollowAll := by
    unfold State.warmReset
    have hzero : (if stBistWarm.sec.zero.isSome then stBistWarm.zeroStep1 else stBistWarm) = stBistWarm := rfl
    have hlost (u : State) : u.reqLost stBistWarm.reqNow = u := rfl
    have hswap : [LongOp.memoryBist].contains .imageSwap = false := rfl
    rw [hzero]
    dsimp only
    rw [hops, hlost, hswap, if_neg Bool.false_ne_true]
    unfold State.eachOp State.eachOp
    rfl
  have hvalid := (structValid_warmClear (stBistWarm.opMark .memoryBist)).trans hinvalid
  rw [hrun, (modeHeld_ponFollowAll _).1, htell]
  generalize (stBistWarm.opMark .memoryBist).warmClear = v at hvalid
  have hvalid' : (v.setBit Reg.devResetCause 3 true).dev.structValid = false := hvalid
  generalize v.setBit Reg.devResetCause 3 true = w at hvalid'
  rw [State.warmMode, hvalid']
  exact (setMode_shown _ _ _ _).1

/-- Refutes O44: a warm reset ends a memory BIST of the structure memories, and the structure is then not valid, so that the device
comes up in LOAD although the structure was valid before. -/
theorem not_resetsLeaveWhatTheyAreToKeep : ¬ Obligations.ResetsLeaveWhatTheyAreToKeep := by
  unfold Obligations.ResetsLeaveWhatTheyAreToKeep
  intro ⟨_, _, _, _, _, hwarm, _⟩
  obtain ⟨t, hrun, hmode, -⟩ := hwarm 0x4000A5C3 stBistWarm (by decide) (by decide) rfl
  have ht : stBistWarm.warmReset = t := by
    have hexec : exec (.devResetWarm 0x4000A5C3) stBistWarm = .next stBistWarm.warmReset := rfl
    rw [hexec] at hrun
    injection hrun
  rw [← ht, warmReset_stBistWarm] at hmode
  exact absurd hmode (by decide)

end Sys2Proof.Machine
end

section
/-!
PROOFS. Start-up self-tests and commissioning (O41; R55 to R58, R376, R377).
-/
open Sys2Proof.Safety
namespace Sys2Proof.Machine

/-! ### A self-test that fails -/

/-- The error state that a failed self-test has entered, with its event. -/
def SelfFailed (t : State) : Prop := t.sec.error = true ∧ t.sec.approvedTests = false ∧ Raised (leafOf 26 0) t

theorem SelfFailed.wr {s : State} (h : SelfFailed s) {a : Nat} (ha : ∀ k < 64, Reg.evtStatus k ≠ a) (v : Word) :
    SelfFailed (s.wr a v) := by
  obtain ⟨herr, htests, hraised⟩ := h
  exact ⟨herr, htests, raised_of_rd (by decide) hraised fun k hk => State.rd_wr_other _ _ (ha k hk)⟩

theorem SelfFailed.raise {s : State} (h : SelfFailed s) (leaf inst : Nat) (w1 w2 w3 : Word) : SelfFailed (s.raise leaf inst w1 w2 w3) := by
  obtain ⟨herr, htests, hraised⟩ := h
  have hsec : (s.raise leaf inst w1 w2 w3).sec = s.sec := by rw [State.raise_frame]
  exact ⟨by rw [hsec]; exact herr, by rw [hsec]; exact htests, Raised.raise hraised _ _ _ _ _⟩

/-- Commissioning that fails: the phase is shown, and the device is in SAFE with CAUSE 8 (R58). -/
theorem commFail_enters {s : State} (hmode : s.dev.mode ≠ .safe) (phase : Nat) :
    (s.commFail phase).dev.mode = .safe ∧ (s.commFail phase).dev.commPhase = 0 ∧ (s.commFail phase).rd Reg.devModeCause = 8 ∧
      (s.commFail phase).bit Reg.devCommStatus 28 = true ∧ (s.commFail phase).fld Reg.devCommStatus 7 4 = phase % 16 ∧
      (∀ a, ¬ opsReg a → a ∉ [Reg.devCommStatus, Reg.lhtStatus, Reg.devModeCause, Reg.devMode] → (s.commFail phase).rd a = s.rd a) ∧
      (∀ leaf < 2048, Raised leaf s → Raised leaf (s.commFail phase)) ∧
      (s.sec.error = true → (s.commFail phase).sec = s.sec) := by
  unfold State.commFail
  dsimp only
  generalize hv : ((({ s with dev.commPhase := 0 } : State).setBit Reg.devCommStatus 31 false).setBit Reg.devCommStatus 28 true).setFld
    Reg.devCommStatus 7 4 phase = v
  have hrd : ∀ a, a ≠ Reg.devCommStatus → v.rd a = s.rd a := fun a ha => by
    rw [← hv, State.rd_setFld, if_neg ha, State.rd_setBit, if_neg ha, State.rd_setBit, if_neg ha]
    rfl
  have hbit : v.bit Reg.devCommStatus 28 = true := by
    rw [← hv, State.bit, State.rd_setFld, if_pos rfl, bit_setFld_out _ (by decide) (.inr (by decide)), State.rd_setBit, if_pos rfl,
      bit_setBit_self _ (by decide)]
  have hfld : ∀ i < 4, v.bit Reg.devCommStatus (4 + i) = (phase % 16).testBit i := fun i hi => by
    rw [← hv, State.bit, State.rd_setFld, if_pos rfl, bit_setFld_in _ (by decide) (by omega) (by omega), Nat.add_sub_cancel_left,
      show 16 = 2 ^ 4 from rfl, Nat.testBit_mod_two_pow]
    simp [hi]
  have hvdev : v.dev = { s.dev with commPhase := 0 } := by rw [← hv]; rfl
  have hvsec : v.sec = s.sec := by rw [← hv]; rfl
  obtain ⟨hframe, hregs⟩ := reports_event v (leafOf 19 2) 0
  have hraise : ∀ leaf < 2048, Raised leaf s → Raised leaf (v.event (leafOf 19 2) 0) := fun leaf hleaf h =>
    Raised.raise (raised_of_rd hleaf h fun k hk => hrd _ (by simp only [Reg.evtStatus, Reg.devCommStatus]; omega)) _ _ _ _ _
  generalize v.event (leafOf 19 2) 0 = w at hframe hregs hraise
  have hwdev : w.dev = { s.dev with commPhase := 0 } := by rw [hframe]; exact hvdev
  have hwsec : w.sec = s.sec := by rw [hframe]; exact hvsec
  have hsafe := safeEntry_enters (s := w) (by rw [hwdev]; exact hmode) 8 0
  have hcomm : ∀ i < 30, (w.safeEntry 8 0).bit Reg.devCommStatus i = v.bit Reg.devCommStatus i := fun i hi => by
    rw [hsafe.comm i hi, State.bit, hregs _ (by decide)]
    rfl
  refine ⟨hsafe.mode, ?_, hsafe.shown, (hcomm 28 (by decide)).trans hbit, ?_, fun a ha hl => ?_, fun leaf hleaf h => ?_, fun herr => ?_⟩
  · rw [hsafe.phase, hwdev]
    split
    · rfl
    · rfl
  · refine Nat.eq_of_testBit_eq fun i => ?_
    by_cases hi : i < 4
    · rw [← hfld i hi, ← hcomm (4 + i) (by omega), State.fld, Machine.fld, State.bit, Machine.bit, BitVec.getLsbD,
        show 7 + 1 - 4 = 4 from rfl, Nat.testBit_mod_two_pow, Nat.testBit_div_two_pow]
      simp [hi, Nat.add_comm]
    · rw [State.fld, Machine.fld, show 7 + 1 - 4 = 4 from rfl, show 16 = 2 ^ 4 from rfl, Nat.testBit_mod_two_pow, Nat.testBit_mod_two_pow]
      simp [hi]
  · rw [hsafe.regs a ha hl, hregs a (fun h => ha (.inl (eventRegs_eventReg (by decide) h)))]
    exact hrd a (by
      simp only [List.mem_cons, not_or] at hl
      exact hl.1)
  · exact hsafe.raised leaf hleaf (hraise leaf hleaf h)
  · rw [hsafe.sec (by rw [hwsec]; exact herr), hwsec]

/-- Where a failed self-test shows. -/
def selftestBit (test : Nat) : Nat := if test = 8 then 16 else test

/-- What a self-test that fails leaves, in commissioning and elsewhere (R377, R58). -/
theorem selftestFail_frame (s : State) {test : Nat} (htest : test < 9) :
    (s.selftestFail test).sec = { s.sec with error := true, approvedTests := false } ∧
      Raised (leafOf 26 0) (s.selftestFail test) ∧
      (s.selftestFail test).bit Reg.secSelftest (selftestBit test) = (test == 8) ∧
      (s.dev.mode = .commission → s.dev.commPhase ≠ 0 →
        (s.selftestFail test).dev.mode = .safe ∧ (s.selftestFail test).rd Reg.devModeCause = 8 ∧
          (s.selftestFail test).bit Reg.devCommStatus 28 = true ∧ (s.selftestFail test).fld Reg.devCommStatus 7 4 = s.dev.commPhase % 16) ∧
      (s.dev.mode ≠ .commission ∨ s.dev.commPhase = 0 →
        (s.selftestFail test).dev = s.dev ∧ RegsBut (Reg.secSelftest :: eventRegs (leafOf 26 0)) s (s.selftestFail test)) := by
  have hbitlt : selftestBit test < 32 := by
    unfold selftestBit
    split
    · decide
    · omega
  unfold State.selftestFail
  dsimp only
  rw [show (if test = 8 then 16 else test) = selftestBit test from rfl]
  generalize hv : ({ s.setBit Reg.secSelftest (selftestBit test) (test == 8) with sec.error := true, sec.approvedTests := false } : State) = v
  have hvsec : v.sec = { s.sec with error := true, approvedTests := false } := by rw [← hv]; rfl
  have hvdev : v.dev = s.dev := by rw [← hv]; rfl
  have hvrd : ∀ a, a ≠ Reg.secSelftest → v.rd a = s.rd a := fun a ha => by
    rw [← hv]
    exact (State.rd_setBit ..).trans (if_neg ha)
  have hvbit : v.bit Reg.secSelftest (selftestBit test) = (test == 8) := by
    have hrd : v.rd Reg.secSelftest = Machine.setBit (s.rd Reg.secSelftest) (selftestBit test) (test == 8) := by
      rw [← hv]
      exact (State.rd_setBit ..).trans (if_pos rfl)
    rw [State.bit, hrd, bit_setBit_self _ hbitlt]
  obtain ⟨hframe, hregs⟩ := reports_event v (leafOf 26 0) 0
  have hraised : Raised (leafOf 26 0) (v.event (leafOf 26 0) 0) := raised_raise _ _ _ _ _ _
  generalize v.event (leafOf 26 0) 0 = w at hframe hregs hraised
  have hwsec : w.sec = { s.sec with error := true, approvedTests := false } := by rw [hframe]; exact hvsec
  have hwdev : w.dev = s.dev := by rw [hframe]; exact hvdev
  have hwbit : w.bit Reg.secSelftest (selftestBit test) = (test == 8) := by
    rw [State.bit, hregs _ (by decide)]
    exact hvbit
  by_cases hcomm : s.dev.mode = .commission ∧ s.dev.commPhase ≠ 0
  · obtain ⟨hmode, -, hcause, hbit, hphase, hkept, hraise, hsec⟩ := commFail_enters (s := w) (by rw [hwdev, hcomm.1]; decide) s.dev.commPhase
    rw [if_pos hcomm]
    refine ⟨(hsec (by rw [hwsec])).trans hwsec, hraise _ (by decide) hraised, ?_, fun _ _ => ⟨hmode, hcause, hbit, hphase⟩, fun h => ?_⟩
    · rw [State.bit, hkept _ (by unfold opsReg eventReg; decide) (by decide)]
      exact hwbit
    · exact absurd hcomm (by
        rintro ⟨h1, h2⟩
        exact h.elim (fun h => h h1) fun h => h2 h)
  · rw [if_neg hcomm]
    refine ⟨hwsec, hraised, hwbit, fun h1 h2 => absurd ⟨h1, h2⟩ hcomm, fun _ => ⟨hwdev, fun a ha => ?_⟩⟩
    obtain ⟨hself, hevents⟩ := not_or.mp (mt List.mem_cons.mpr ha)
    rw [hregs a hevents, hvrd a hself]

theorem selfFailed_selftestFail (s : State) {test : Nat} (htest : test < 9) : SelfFailed (s.selftestFail test) := by
  obtain ⟨hsec, hraised, -⟩ := selftestFail_frame s htest
  exact ⟨by rw [hsec], by rw [hsec], hraised⟩

/-! ### The boot image -/

/-- A load that START of the device itself begins or refuses leaves the error state as it is. -/
theorem SelfFailed.imgCtrl {s : State} (h : SelfFailed s) {v : Word} (hstart : bit v 31 = true) (habort : bit v 30 = false) :
    SelfFailed (s.imgCtrl v) := by
  have hstat : ∀ k < 64, Reg.evtStatus k ≠ opStat .imageLoad := fun k _ => by
    simp only [opStat, opCtrl, Reg.devImgOpCtrl, Reg.evtStatus]
    omega
  have hctrl : ∀ k < 64, Reg.evtStatus k ≠ opCtrl .imageLoad := fun k _ => by
    simp only [opCtrl, Reg.devImgOpCtrl, Reg.evtStatus]
    omega
  have hpart : ∀ k < 64, Reg.evtStatus k ≠ Reg.devImgOpPartial := fun k _ => by
    simp only [Reg.evtStatus, Reg.devImgOpPartial]
    omega
  have hbegin {u : State} (hu : SelfFailed u) : SelfFailed (u.opBegin .imageLoad) := (hu.wr hstat _).wr hpart 0
  have hrefuse {u : State} (hu : SelfFailed u) (reason : Nat) : SelfFailed (u.opRefuse .imageLoad reason) := by
    unfold State.opRefuse State.opEnd
    dsimp only
    split
    · exact ((hbegin hu).wr hstat _).raise _ _ _ _ _
    · exact (hbegin hu).wr hstat _
  have hload {u : State} (hu : SelfFailed u) : SelfFailed u.loadStart := by
    unfold State.loadStart
    dsimp only
    split
    · exact hrefuse hu _
    · split
      · exact hrefuse hu _
      · split
        · exact hrefuse hu _
        · exact hbegin hu
  by_cases hbusy : s.busy .imageLoad = true
  · rw [State.imgCtrl, opCtrlWrite_of_busy_start hstart habort hbusy]
    exact h.wr hctrl _
  · rw [State.imgCtrl, opCtrlWrite_of_idle_start hstart habort (Bool.eq_false_iff.mpr hbusy)]
    exact hload (h.wr hctrl _)

/-- The write that starts the load of the boot image: START with ARG 1, EVENT_EN as it stands. -/
theorem bootWrite_bits (w : Word) :
    bit (0x80000001 ||| (w &&& 0x20000000)) 31 = true ∧ bit (0x80000001 ||| (w &&& 0x20000000)) 30 = false ∧
      bit (0x80000001 ||| (w &&& 0x20000000)) 0 = true := by
  refine ⟨?_, ?_, ?_⟩
  · simp [bit]
  · simp [bit]
  · simp [bit]

/-! ### Cage channels that commissioning lets turn on -/

/-- A channel follows its control bit: the device block and what commissioning shows stay. -/
theorem cageFollow_frame (s : State) {ch : Nat} (hch : ch < 72) : (s.cageFollow ch).dev = s.dev ∧
    (s.cageFollow ch).rd Reg.devCommStatus = s.rd Reg.devCommStatus ∧ (s.cageFollow ch).rd Reg.secSelftest = s.rd Reg.secSelftest := by
  have hleaf : cageLeaf ch < 2048 := by
    unfold cageLeaf leafOf
    omega
  have hapart : apartReg Reg.devCommStatus ∧ apartReg Reg.secSelftest := by
    unfold apartReg eventReg
    decide
  obtain ⟨hcomm, hself⟩ := hapart
  have hset (c : Cage) : (s.setCage ch c).dev = s.dev ∧ (s.setCage ch c).rd Reg.devCommStatus = s.rd Reg.devCommStatus ∧
      (s.setCage ch c).rd Reg.secSelftest = s.rd Reg.secSelftest := by
    have hchanged (u : State) : (u.cageChanged ch).dev = u.dev ∧ (u.cageChanged ch).rd Reg.devCommStatus = u.rd Reg.devCommStatus ∧
        (u.cageChanged ch).rd Reg.secSelftest = u.rd Reg.secSelftest := by
      unfold State.cageChanged
      split
      · next h =>
        refine ⟨(linked_ponFollow u ch).dev, ?_, ?_⟩
        · rw [rd_ponFollow u h hcomm, if_neg (by simp only [Reg.devCommStatus, Reg.ponLineStatus]; omega)]
        · rw [rd_ponFollow u h hself, if_neg (by simp only [Reg.secSelftest, Reg.ponLineStatus]; omega)]
      · refine ⟨(linked_netFollow u _).dev, ?_, ?_⟩
        · exact rd_netFollow u (by omega) hcomm (by simp only [Reg.devCommStatus, Reg.netPortStatus]; omega)
            (by simp only [Reg.devCommStatus, Reg.netLinkDowns]; omega)
        · exact rd_netFollow u (by omega) hself (by simp only [Reg.secSelftest, Reg.netPortStatus]; omega)
            (by simp only [Reg.secSelftest, Reg.netLinkDowns]; omega)
    have hevent (u : State) : (u.event (cageLeaf ch) ch).dev = u.dev ∧
        (u.event (cageLeaf ch) ch).rd Reg.devCommStatus = u.rd Reg.devCommStatus ∧
        (u.event (cageLeaf ch) ch).rd Reg.secSelftest = u.rd Reg.secSelftest :=
      ⟨(linked_event u _ _).dev, rd_event hleaf _ hcomm, rd_event hleaf _ hself⟩
    unfold State.setCage
    dsimp only
    generalize (if c.st = .off then { c with retries := 0 } else c) = c'
    generalize hu : ({ s with pwr.cages := s.pwr.cages.set (fun _ => {}) ch c' } : State) = u
    have hus : u.dev = s.dev ∧ u.rd Reg.devCommStatus = s.rd Reg.devCommStatus ∧ u.rd Reg.secSelftest = s.rd Reg.secSelftest := by
      rw [← hu]
      exact ⟨rfl, rfl, rfl⟩
    have hvs : ∀ v, v = (if c'.st ≠ (s.cage ch).st ∨ (c'.isOpen ∧ ¬ (s.cage ch).isOpen) then u.event (cageLeaf ch) ch else u) →
        v.dev = s.dev ∧ v.rd Reg.devCommStatus = s.rd Reg.devCommStatus ∧ v.rd Reg.secSelftest = s.rd Reg.secSelftest := fun v hv => by
      rw [hv]
      split
      · exact ⟨(hevent u).1.trans hus.1, (hevent u).2.1.trans hus.2.1, (hevent u).2.2.trans hus.2.2⟩
      · exact hus
    generalize (if c'.st ≠ (s.cage ch).st ∨ (c'.isOpen ∧ ¬ (s.cage ch).isOpen) then u.event (cageLeaf ch) ch else u) = v at hvs
    have hws : ∀ w, w = (if cageGate c' != cageGate (s.cage ch) then v.emit (.cageGate ch (cageGate c')) else v) →
        w.dev = s.dev ∧ w.rd Reg.devCommStatus = s.rd Reg.devCommStatus ∧ w.rd Reg.secSelftest = s.rd Reg.secSelftest := fun w hw => by
      rw [hw]
      split
      · exact hvs v rfl
      · exact hvs v rfl
    generalize (if cageGate c' != cageGate (s.cage ch) then v.emit (.cageGate ch (cageGate c')) else v) = w at hws
    obtain ⟨h1, h2, h3⟩ := hws w rfl
    split
    · exact ⟨(hchanged w).1.trans h1, (hchanged w).2.1.trans h2, (hchanged w).2.2.trans h3⟩
    · exact ⟨h1, h2, h3⟩
  unfold State.cageFollow
  dsimp only
  split
  · split
    · exact hset _
    · exact ⟨rfl, rfl, rfl⟩
  · split
    · exact ⟨rfl, rfl, rfl⟩
    · exact ⟨rfl, rfl, rfl⟩
    · exact hset _

/-- A channel that is off and is not to turn on moves no register. -/
theorem cageFollow_of_off (s : State) {ch : Nat} (hctrl : s.bit (Reg.pwrCageCtrl ch) 31 = false) (hst : (s.cage ch).st = .off) :
    (s.cageFollow ch).regs = s.regs ∧ (∀ k, ((s.cageFollow ch).cage k).st = (s.cage k).st) := by
  have hrun : s.cageFollow ch = { s with pwr.cages := s.pwr.cages.set (fun _ => {}) ch { s.cage ch with st := .off, retries := 0 } } := by
    rw [State.cageFollow, hctrl, hst]
    unfold State.setCage
    simp [hst, cageGate]
  rw [hrun]
  refine ⟨rfl, fun k => ?_⟩
  by_cases hk : k = ch
  · rw [hk, hst]
    exact congrArg Cage.st (SMap.get_set_self (fun _ => ({} : Cage)) _ _ _)
  · exact congrArg Cage.st (SMap.get_set_other (fun _ => ({} : Cage)) _ _ _ _ hk)

/-! ### Phases -/

section
variable {s : State} {ok : Bool} {failed : Option Nat}

theorem commEnd_one (h : s.dev.commPhase = 1) : s.commEnd ok failed = s.commPhase1 ok := by
  unfold State.commEnd
  rw [h]
  cases failed with
  | none => rfl
  | some t => rfl

theorem commEnd_two (h : s.dev.commPhase = 2) : s.commEnd ok failed = s.commPhase2 ok := by
  unfold State.commEnd
  rw [h]
  cases failed with
  | none => rfl
  | some t => rfl

theorem commEnd_three (h : s.dev.commPhase = 3) :
    s.commEnd ok failed = match failed with | some t => s.selftestFail t | none => s.commDone := by
  unfold State.commEnd
  rw [h]
  cases failed with
  | none => rfl
  | some t => rfl

theorem commEnd_none (h : s.dev.commPhase = 0) : s.commEnd ok failed = s := by
  unfold State.commEnd
  rw [h]
  cases failed with
  | none => rfl
  | some t => rfl

end

/-- A field of two bits. -/
theorem fld_two_bits (w : Word) (i : Nat) : Machine.fld w (i + 1) i = 2 * ofBool (bit w (i + 1)) + ofBool (bit w i) := by
  have hlow : bit w i = decide (w.toNat / 2 ^ i % 2 = 1) := Nat.testBit_eq_decide_div_mod_eq
  have hhigh : bit w (i + 1) = decide (w.toNat / 2 ^ i / 2 % 2 = 1) := by
    rw [Nat.div_div_eq_div_mul, ← Nat.pow_succ]
    exact Nat.testBit_eq_decide_div_mod_eq
  rw [hlow, hhigh, Machine.fld, show i + 1 + 1 - i = 2 by omega]
  generalize w.toNat / 2 ^ i = x
  unfold ofBool
  split
  · split
    · simp_all
      omega
    · simp_all
      omega
  · split
    · simp_all
      omega
    · simp_all
      omega

/-- Both tests of step 4 pass; a boot image is loaded where it is the first time and the device is in LOAD (R55). -/
theorem startupEnd_passed {s u : State} (hup : s.logicUp = true) (boot : Option Nat)
    (hu : ((s.flashRead boot).setBit Reg.secSelftest 0 true).setBit Reg.secSelftest 1 true = u) :
    s.startupEnd true true boot = if !s.bit Reg.secSelftest 0 && !s.bit Reg.secSelftest 1 && boot.isSome && u.dev.mode == .load &&
        u.fld Reg.devModeCause 3 0 == 0 then u.imgCtrl (0x80000001 ||| (u.rd Reg.devImgOpCtrl &&& 0x20000000)) else u := by
  rw [State.startupEnd, hup, Bool.not_true, if_neg Bool.false_ne_true, ← hu]
  rfl

/-- The load of the boot image begins. -/
theorem loadStart_boot {s : State} {n : Nat} (hmode : s.dev.mode = .load) (hswap : s.busy .imageSwap = false)
    (harg : s.opArg .imageLoad % 2 = 1) (hflash : s.dev.flashLen = some n) (halive : s.dev.binAlive = true) (hlen : 32 ≤ n) :
    s.loadStart = { s.opBegin .imageLoad with dev.load := some { flash := true, len := n } } := by
  have hsrc : s.srcLen .imageLoad = n := by rw [State.srcLen, if_pos harg, hflash]; rfl
  have hno : s.noSource .imageLoad = false := by rw [State.noSource, hflash, halive]; simp
  rw [loadStart_of_source (by rw [hmode]; rfl) hswap, hno, if_neg Bool.false_ne_true, hsrc, if_neg (Nat.not_lt.mpr hlen), harg]
  rfl

/-- Commissioning that is DONE: cage channels follow, and only those that may turn on move more than its own registers. -/
theorem commDone_frame (s : State) :
    s.commDone.dev = { s.dev with commPhase := 0, commOnce := true } ∧ s.commDone.fld Reg.devCommStatus 31 30 = 1 ∧
      s.commDone.fld Reg.secSelftest 7 2 = 63 ∧
      ((∀ ch < 72, s.bit (Reg.pwrCageCtrl ch) 31 = false ∧ (s.cage ch).st = .off) →
        RegsBut [Reg.devCommStatus, Reg.secSelftest] s s.commDone) := by
  unfold State.commDone
  dsimp only
  generalize hu : State.wr _ Reg.devCommStatus _ = u
  have hudev : u.dev = { s.dev with commPhase := 0, commOnce := true } := by rw [← hu]; rfl
  have hupwr : u.pwr = s.pwr := by rw [← hu]; rfl
  have huself : u.rd Reg.secSelftest = Machine.setFld (s.rd Reg.secSelftest) 7 2 63 := by
    rw [← hu, State.rd_wr_other _ _ (by decide)]
    exact (State.rd_setFld ..).trans (if_pos rfl)
  have hucomm : ∃ w : Word, u.rd Reg.devCommStatus = (w &&& 0x7FFFFFFF) ||| 0x40000008 := by
    rw [← hu, State.rd_wr_self]
    exact ⟨_, rfl⟩
  have hurd : ∀ a, a ∉ [Reg.devCommStatus, Reg.secSelftest] → u.rd a = s.rd a := fun a ha => by
    simp only [List.mem_cons, List.not_mem_nil, or_false, not_or] at ha
    rw [← hu, State.rd_wr_other _ _ ha.1]
    exact (State.rd_setFld ..).trans (if_neg ha.2)
  clear hu
  obtain ⟨hdev, hcomm, hself⟩ : (u.each (List.range 72) fun ch s => s.cageFollow ch).dev = u.dev ∧
      (u.each (List.range 72) fun ch s => s.cageFollow ch).rd Reg.devCommStatus = u.rd Reg.devCommStatus ∧
      (u.each (List.range 72) fun ch s => s.cageFollow ch).rd Reg.secSelftest = u.rd Reg.secSelftest :=
    State.each_induct (P := fun t => t.dev = u.dev ∧ t.rd Reg.devCommStatus = u.rd Reg.devCommStatus ∧
      t.rd Reg.secSelftest = u.rd Reg.secSelftest) ⟨rfl, rfl, rfl⟩ fun ch hch t ht => by
        obtain ⟨h1, h2, h3⟩ := cageFollow_frame t (List.mem_range.mp hch)
        exact ⟨h1.trans ht.1, h2.trans ht.2.1, h3.trans ht.2.2⟩
  refine ⟨hdev.trans hudev, ?_, ?_, fun hoff => ?_⟩
  · obtain ⟨w, hw⟩ := hucomm
    rw [State.fld, hcomm, hw, fld_two_bits]
    simp [bit, ofBool]
  · rw [State.fld, hself, huself, Machine.fld_setFld_self _ (by decide) (by decide)]
    rfl
  · have hregs : (u.each (List.range 72) fun ch s => s.cageFollow ch).regs = u.regs ∧
        ∀ k, ((u.each (List.range 72) fun ch s => s.cageFollow ch).cage k).st = (u.cage k).st :=
      State.each_induct (P := fun t => t.regs = u.regs ∧ ∀ k, (t.cage k).st = (u.cage k).st) ⟨rfl, fun _ => rfl⟩ fun ch hch t ht => by
        obtain ⟨hctrl, hst⟩ := hoff ch (List.mem_range.mp hch)
        have hctrl' : t.bit (Reg.pwrCageCtrl ch) 31 = false := by
          rw [State.bit_of_regs ht.1, State.bit, hurd _ (by
            simp only [List.mem_cons, List.not_mem_nil, or_false, Reg.pwrCageCtrl, Reg.devCommStatus, Reg.secSelftest]
            have := List.mem_range.mp hch
            omega)]
          exact hctrl
        have hcage : (u.cage ch).st = .off := by rw [State.cage, hupwr]; exact hst
        obtain ⟨h1, h2⟩ := cageFollow_of_off t hctrl' ((ht.2 ch).trans hcage)
        exact ⟨h1.trans ht.1, fun k => (h2 k).trans (ht.2 k)⟩
    exact fun a ha => (State.rd_of_regs hregs.1 a).trans (hurd a ha)

/-- Settles O41. -/
theorem startupAndCommissioningRunTheirPhases : Obligations.StartupAndCommissioningRunTheirPhases := by
  unfold Obligations.StartupAndCommissioningRunTheirPhases
  refine ⟨?_, ?_, ?_, ?_, ?_, ?_, ?_, ?_, ?_, ?_⟩
  · intro s hup
    refine Runs.intro (t := (({ s with dev.flashLen := none } : State).setBit Reg.secSelftest 0 true).setBit Reg.secSelftest 1 true)
      (congrArg Host.Outcome.next ?_) ⟨?_, ?_, fun a ha => ?_, rfl⟩
    · rw [State.startupEnd, hup, Bool.not_true, if_neg Bool.false_ne_true]
      exact if_neg (by simp)
    · rw [State.bit, State.rd_setBit, if_pos rfl, bit_setBit_other _ (by decide) (by decide), State.rd_setBit, if_pos rfl,
        bit_setBit_self _ (by decide)]
    · rw [State.bit, State.rd_setBit, if_pos rfl, bit_setBit_self _ (by decide)]
    · have hne := List.ne_of_not_mem_cons ha
      rw [State.rd_setBit, if_neg hne, State.rd_setBit, if_neg hne]
      rfl
  · intro n s hup hmode hcause hself hload hswap halive hlen
    generalize hu : ((s.flashRead (some n)).setBit Reg.secSelftest 0 true).setBit Reg.secSelftest 1 true = u
    have hudev : u.dev = { s.dev with flashLen := some n } := by rw [← hu]; rfl
    have hurd : ∀ a, a ≠ Reg.secSelftest → u.rd a = s.rd a := fun a ha => by
      rw [← hu, State.rd_setBit, if_neg ha, State.rd_setBit, if_neg ha]
      rfl
    have hushown : u.fld Reg.secSelftest 1 0 = 3 := by
      rw [← hu, State.fld, State.rd_setBit, if_pos rfl, fld_two_bits, bit_setBit_self _ (by decide),
        bit_setBit_other _ (by decide) (by decide), State.rd_setBit, if_pos rfl, bit_setBit_self _ (by decide)]
      rfl
    have hfirst : s.bit Reg.secSelftest 1 = false ∧ s.bit Reg.secSelftest 0 = false := by
      have hbits := (fld_two_bits (s.rd Reg.secSelftest) 0).symm.trans hself
      unfold State.bit
      revert hbits
      cases bit (s.rd Reg.secSelftest) (0 + 1) <;> cases bit (s.rd Reg.secSelftest) 0 <;> simp [ofBool]
    obtain ⟨hstart, habort, harg⟩ := bootWrite_bits (u.rd Reg.devImgOpCtrl)
    generalize hw : (0x80000001 ||| (u.rd Reg.devImgOpCtrl &&& 0x20000000) : Word) = w at hstart habort harg
    have hbusy : u.busy .imageLoad = false := by
      rw [State.busy, State.bit, hurd _ (by decide)]
      exact hload
    have hrun : s.startupEnd true true (some n) = (u.wrTyped (opCtrl .imageLoad) w).loadStart := by
      rw [← opCtrlWrite_of_idle_start (start := State.loadStart) (abort := fun s => s.opAbort .imageLoad 1) hstart habort hbusy,
        startupEnd_passed hup _ hu, hw]
      refine if_pos ?_
      rw [hfirst.1, hfirst.2, hudev, State.fld, hurd _ (by decide), show Machine.fld (s.rd Reg.devModeCause) 3 0 = 0 from hcause]
      simp [hmode]
    refine Runs.intro (t := (u.wrTyped (opCtrl .imageLoad) w).loadStart) (congrArg Host.Outcome.next hrun) ?_
    have hvdev : (u.wrTyped (opCtrl .imageLoad) w).dev = { s.dev with flashLen := some n } := (dev_wrTyped _ _ _).trans hudev
    have hvself : (u.wrTyped (opCtrl .imageLoad) w).rd Reg.secSelftest = u.rd Reg.secSelftest := State.rd_wrTyped_other _ _ (by decide)
    have hvswap : (u.wrTyped (opCtrl .imageLoad) w).busy .imageSwap = false := by
      rw [State.busy, State.bit, State.rd_wrTyped_other _ _ (by decide), hurd _ (by decide)]
      exact hswap
    have hvarg : (u.wrTyped (opCtrl .imageLoad) w).opArg .imageLoad % 2 = 1 := by
      have hstored := opArg_wrTyped_opCtrl (s := u) (u := 0) (o := .imageLoad) (by decide) w
      have hodd : w.toNat % 2 = 1 := by
        have hlow : bit w 0 = decide (w.toNat / 2 ^ 0 % 2 = 1) := Nat.testBit_eq_decide_div_mod_eq
        rw [harg] at hlow
        simpa using hlow
      have hfield : fld w 15 0 = w.toNat % 65536 := by simp [Machine.fld]
      omega
    generalize u.wrTyped (opCtrl .imageLoad) w = v at hvdev hvself hvswap hvarg
    rw [loadStart_boot (n := n) (by rw [hvdev]; exact hmode) hvswap hvarg (by rw [hvdev]) (by rw [hvdev]; exact halive) hlen]
    obtain ⟨hstat, -, hregs⟩ := opBegin_frame v .imageLoad
    refine ⟨?_, hstat, rfl⟩
    have hkept := hregs.2 Reg.secSelftest (by decide)
    generalize v.opBegin .imageLoad = x at hkept
    exact (congrArg (Machine.fld · 1 0) (hkept.trans hvself)).trans hushown
  · intro sha ecdsa boot s hdown
    refine congrArg Host.Outcome.next ?_
    rw [State.startupEnd, hdown]
    rfl
  · intro sha ecdsa boot s hup hbad
    refine Runs.intro (t := s.startupEnd sha ecdsa boot) rfl ?_
    have hself : ∀ k < 64, Reg.evtStatus k ≠ Reg.secSelftest := fun k _ => by
      simp only [Reg.evtStatus, Reg.secSelftest]
      omega
    generalize hu : (if ecdsa then (if sha then (s.flashRead boot).setBit Reg.secSelftest 0 true else (s.flashRead boot).selftestFail 0).setBit
      Reg.secSelftest 1 true else (if sha then (s.flashRead boot).setBit Reg.secSelftest 0 true else
        (s.flashRead boot).selftestFail 0).selftestFail 1) = u
    have hfailed : SelfFailed u := by
      rw [← hu]
      cases ecdsa with
      | false => exact selfFailed_selftestFail _ (by decide)
      | true =>
        obtain rfl : sha = false := hbad.resolve_right (by decide)
        exact (selfFailed_selftestFail (s.flashRead boot) (by decide : 0 < 9)).wr hself _
    have hrun : s.startupEnd sha ecdsa boot = if !s.bit Reg.secSelftest 0 && !s.bit Reg.secSelftest 1 && boot.isSome && u.dev.mode == .load &&
        u.fld Reg.devModeCause 3 0 == 0 then u.imgCtrl (0x80000001 ||| (u.rd Reg.devImgOpCtrl &&& 0x20000000)) else u := by
      rw [State.startupEnd, hup, Bool.not_true, if_neg Bool.false_ne_true, ← hu]
    rw [hrun]
    split
    · obtain ⟨hstart, habort, -⟩ := bootWrite_bits (u.rd Reg.devImgOpCtrl)
      exact hfailed.imgCtrl hstart habort
    · exact hfailed
  · intro s hphase
    refine Runs.intro (t := (({ s with dev.hbmTrained := true, dev.commPhase := 2 } : State).setBit Reg.devCommStatus 0 true).setBit
      Reg.devCommStatus 1 true) (congrArg Host.Outcome.next ?_) ⟨rfl, ?_, fun a ha => ?_, rfl⟩
    · rw [commEnd_one hphase, State.commPhase1]
      rfl
    · rw [State.fld, State.rd_setBit, if_pos rfl, fld_two_bits, bit_setBit_self _ (by decide), bit_setBit_other _ (by decide) (by decide),
        State.rd_setBit, if_pos rfl, bit_setBit_self _ (by decide)]
      rfl
    · have hne := List.ne_of_not_mem_cons ha
      rw [State.rd_setBit, if_neg hne, State.rd_setBit, if_neg hne]
      rfl
  · intro s hphase hshort
    refine Runs.intro (t := ({ s.memInit with dev.commPhase := 3 } : State).setBit Reg.devCommStatus 2 true)
      (congrArg Host.Outcome.next ?_) ?_
    · rw [commEnd_two hphase, State.commPhase2, if_pos rfl, hshort]
      rfl
    · obtain ⟨pool, hlists⟩ : ∃ pool, s.threadLists = { s with pool := pool } := ⟨_, threadLists_frame s⟩
      have hinit : s.memInit = { s with
          pool := pool, lht.slots := [], lht.guides := [], voq := {}, alm.nodes := [], alm.blank := { max := fullBucket, min := fullBucket },
          obs.cnt := [], act := {}, rck := {}, xgm.binds := [], xgm.dsq := [] } := by
        rw [State.memInit, State.wipeReserved, hlists]
      rw [hinit, hlists]
      refine ⟨rfl, ?_, rfl, rfl, rfl, rfl, rfl, rfl, fun a ha => ?_⟩
      · rw [State.bit, State.rd_setBit, if_pos rfl, bit_setBit_self _ (by decide)]
      · exact (State.rd_setBit ..).trans (if_neg (List.ne_of_not_mem_cons ha))
  · intro s hphase
    refine Runs.intro (t := s.commDone) (congrArg Host.Outcome.next (commEnd_three hphase)) ?_
    obtain ⟨hdev, hcomm, hself, hquiet⟩ := commDone_frame s
    refine ⟨hdev, hcomm, hself, fun hall => hquiet fun ch hch => ?_⟩
    simpa using List.all_eq_true.mp hall ch (List.mem_range.mpr hch)
  · intro p s hmode hphase hp hshort
    refine Runs.intro (t := s.commFail p) (congrArg Host.Outcome.next ?_) ?_
    · obtain rfl | rfl := hp
      · rw [commEnd_one hphase, State.commPhase1, hshort]
        rfl
      · rw [commEnd_two hphase]
        rfl
    · obtain ⟨h1, h2, h3, h4, h5, -⟩ := commFail_enters (s := s) (by rw [hmode]; decide) p
      refine ⟨h1, h2, h4, h5.trans (Nat.mod_eq_of_lt ?_), h3⟩
      omega
  · intro test s hmode hphase
    refine Runs.intro (t := s.selftestFail test.val) (congrArg Host.Outcome.next (commEnd_three hphase)) ?_
    obtain ⟨hsec, -, hbit, hcomm, -⟩ := selftestFail_frame s (test := test.val) (by omega)
    obtain ⟨hsafe, -, -, hfield⟩ := hcomm hmode (by rw [hphase]; decide)
    have hne : test.val ≠ 8 := Nat.ne_of_lt test.isLt
    rw [selftestBit, if_neg hne] at hbit
    exact ⟨hsafe, by rw [hsec], hbit.trans (beq_false_of_ne hne), by rw [hfield, hphase]⟩
  · intro ok test s hphase
    exact congrArg Host.Outcome.next (commEnd_none hphase)

end Sys2Proof.Machine
end

section
/-!
PROOFS. Errors, the error log, and the check-value units (O58; R345 to R353).
-/
open Sys2Proof.Safety
namespace Sys2Proof.Machine

/-! ### Errors that are reported (R346, R347) -/

theorem cnt_sendMer (s : State) (d : Nat) (m : MerMsg) : (s.sendMer d m).obs.cnt = s.obs.cnt := by
  have hother (c : Cell) : (s.sendOther d c).obs.cnt = s.obs.cnt := by
    unfold State.sendOther
    split
    · rfl
    · rfl
  unfold State.sendMer
  split
  · rfl
  · split
    · exact hother _
    · rfl
    · rfl

/-- An event leaves the exported counters as they are. -/
theorem cnt_raise (s : State) (leaf inst : Nat) (w1 w2 w3 : Word) : (s.raise leaf inst w1 w2 w3).obs.cnt = s.obs.cnt := by
  have hput (u : State) (l : Nat) (fwd : Bool) (view : Nat) (ns32 : Word) (subns : Byte) (src : Nat) (words : List Word) :
      (u.putRecord l fwd view ns32 subns src words).obs.cnt = u.obs.cnt := by
    unfold State.putRecord
    dsimp only
    split
    · rfl
    · rfl
  have hforward (u : State) (l : Nat) (t : BitVec 96) (words : List Word) : (u.forward l t words).obs.cnt = u.obs.cnt := by
    obtain h | ⟨d, m, h⟩ | h := u.forward_cases l t words
    · rw [h]
    · rw [h]
      exact cnt_sendMer u d m
    · rw [h]
      rfl
  unfold State.raise
  dsimp only
  rw [hforward]
  split
  · exact hput _ _ _ _ _ _ _ _
  · rfl

theorem cntGet_cntSet (s : State) (i : Nat) (v : BitVec 64) (k : Nat) : (s.cntSet i v).cntGet k = if k = i then v else s.cntGet k := by
  unfold State.cntGet State.cntSet
  exact SMap.get_set (fun _ => 0) _ _ _ _

/-- The counter of an error's KIND. -/
def errCounter (kind : Nat) (uncorr : Bool) : Nat := if uncorr then Reg.chkMemUncorr kind else Reg.chkMemCorr kind

section
variable (s : State) {kind : Nat} (hkind : kind < 10) (uncorr : Bool) (n mac : Nat) (addr : BitVec 64)

theorem errCounter_apart {kind : Nat} (hkind : kind < 10) (uncorr : Bool) :
    ¬ eventReg (errCounter kind uncorr) ∧ errCounter kind uncorr ≠ Reg.chkErrDrop := by
  unfold errCounter eventReg
  split
  · simp only [Reg.chkMemUncorr, Reg.evtStatus, Reg.evtBufDrop, Reg.merEvtLost, Reg.chkErrDrop]
    omega
  · simp only [Reg.chkMemCorr, Reg.evtStatus, Reg.evtBufDrop, Reg.merEvtLost, Reg.chkErrDrop]
    omega

theorem errLeaf_lt : leafOf 16 (if uncorr then 1 else 0) < 2048 := by
  cases uncorr
  · decide
  · decide

/-- With room in the log an error is counted, logged and raises its event. -/
theorem reportError_of_room (hroom : s.chk.log.length < 1024) : s.reportError kind uncorr n mac addr =
    ({ s.bump (errCounter kind uncorr) with chk.log := s.chk.log ++ [s.errRecord kind uncorr n mac addr] } : State).raise
      (leafOf 16 (if uncorr then 1 else 0)) 0 (errHdr kind uncorr n mac) (BitVec.ofNat 32 addr.toNat)
      (BitVec.ofNat 32 (addr.toNat / 2 ^ 32)) := by
  rw [State.reportError_eq, State.errLogged, if_pos (show (s.bump (if uncorr then Reg.chkMemUncorr kind else Reg.chkMemCorr kind)).chk.log.length <
    errLogMax from hroom)]
  rfl

/-- With the log full it is counted as dropped, with an event of its own. -/
theorem reportError_of_full (hfull : 1024 ≤ s.chk.log.length) : s.reportError kind uncorr n mac addr =
    (((s.bump (errCounter kind uncorr)).bump Reg.chkErrDrop).event (leafOf 16 2) 0).raise
      (leafOf 16 (if uncorr then 1 else 0)) 0 (errHdr kind uncorr n mac) (BitVec.ofNat 32 addr.toNat)
      (BitVec.ofNat 32 (addr.toNat / 2 ^ 32)) := by
  rw [State.reportError_eq, State.errLogged, if_neg (show ¬ (s.bump (if uncorr then Reg.chkMemUncorr kind else Reg.chkMemCorr kind)).chk.log.length <
    errLogMax from Nat.not_lt.mpr hfull)]
  rfl

include hkind in
/-- Either way its counter counts it, its event is raised, and no exported counter changes. -/
theorem reportError_counts : (s.reportError kind uncorr n mac addr).rd (errCounter kind uncorr) = satAdd (s.rd (errCounter kind uncorr)) 1 ∧
    Raised (leafOf 16 (if uncorr then 1 else 0)) (s.reportError kind uncorr n mac addr) ∧
    (s.reportError kind uncorr n mac addr).obs.cnt = s.obs.cnt := by
  obtain ⟨hevent, hdrop⟩ := errCounter_apart hkind uncorr
  have hleaf := errLeaf_lt uncorr
  obtain hroom | hfull := Nat.lt_or_ge s.chk.log.length 1024
  · rw [reportError_of_room s uncorr n mac addr hroom]
    refine ⟨?_, raised_raise _ _ _ _ _ _, ?_⟩
    · rw [rd_raise_of_not_eventReg _ hleaf _ _ _ _ hevent]
      exact (State.rd_bump ..).trans (if_pos rfl)
    · rw [cnt_raise]
      rfl
  · rw [reportError_of_full s uncorr n mac addr hfull]
    refine ⟨?_, raised_raise _ _ _ _ _ _, ?_⟩
    · rw [rd_raise_of_not_eventReg _ hleaf _ _ _ _ hevent, State.event, rd_raise_of_not_eventReg _ (by decide) _ _ _ _ hevent,
        State.rd_bump, if_neg hdrop, State.rd_bump, if_pos rfl]
    · rw [cnt_raise, State.event, cnt_raise]
      rfl

end

/-! ### Check-value units (R350, R351) -/

section
variable (s : State) (u : Nat)

theorem rd64_wr64 (a v : Nat) : (s.wr64 a v).rd64 a = v % 2 ^ 64 := State.rdWords_wrWords_toWords s a 2 v

theorem rd64_of_onlyRegs {s t : State} {l : List Nat} (h : OnlyRegs l s t) {a : Nat} (ha : a ∉ l) (ha' : a + 4 ∉ l) :
    t.rd64 a = s.rd64 a := by
  obtain ⟨-, hregs⟩ := h
  unfold State.rd64 State.rdWords State.rdWords State.rdWords
  rw [hregs a ha, hregs _ ha']

/-- The running value and the byte count of a unit. -/
def unitRegs : List Nat := [Reg.chkUnitRunningLo u, Reg.chkUnitRunningHi u, Reg.chkUnitBytesLo u, Reg.chkUnitBytesHi u]

/-- A unit takes a running value and a count of bytes. -/
theorem unitSet_frame (r b : Nat) :
    ((s.wr64 (Reg.chkUnitRunningLo u) r).wr64 (Reg.chkUnitBytesLo u) b).rd64 (Reg.chkUnitRunningLo u) = r % 2 ^ 64 ∧
      ((s.wr64 (Reg.chkUnitRunningLo u) r).wr64 (Reg.chkUnitBytesLo u) b).rd64 (Reg.chkUnitBytesLo u) = b % 2 ^ 64 ∧
      OnlyRegs (unitRegs u) s ((s.wr64 (Reg.chkUnitRunningLo u) r).wr64 (Reg.chkUnitBytesLo u) b) := by
  refine ⟨?_, rd64_wr64 _ _ _, ?_⟩
  · rw [rd64_of_onlyRegs (onlyRegs_wr64 _ _ _), rd64_wr64]
    · simp only [List.mem_cons, List.not_mem_nil, or_false, Reg.chkUnitRunningLo, Reg.chkUnitBytesLo]
      omega
    · simp only [List.mem_cons, List.not_mem_nil, or_false, Reg.chkUnitRunningLo, Reg.chkUnitBytesLo]
      omega
  · refine ((onlyRegs_wr64 s _ _).trans (onlyRegs_wr64 _ _ _)).mono fun a ha => ?_
    simp only [List.cons_append, List.nil_append, List.mem_cons, List.not_mem_nil, or_false, unitRegs, Reg.chkUnitRunningLo, Reg.chkUnitBytesLo,
      Reg.chkUnitRunningHi, Reg.chkUnitBytesHi] at ha ⊢
    omega

theorem unlessScan_of_idle {s : State} {u : Nat} (h : s.busy (.scan u) = false) (f : State → State) : s.unlessScan u f = f s := by
  rw [State.unlessScan, State.scanBusy, h]
  rfl

theorem unlessScan_of_busy {s : State} {u : Nat} (h : s.busy (.scan u) = true) (f : State → State) :
    s.unlessScan u f = s.setBit (Reg.chkUnitStatus u) 2 true := by
  rw [State.unlessScan, State.scanBusy, h]
  rfl

end

/-! ### The end of an operation beside its own register -/

section
variable (s : State) (o : LongOp) (e : OpEnd)

theorem rd_opEnd_other {a : Nat} (ha : a ≠ opStat o) (hevent : ¬ eventReg a) : (s.opEnd o e).rd a = s.rd a := by
  unfold State.opEnd
  dsimp only
  split
  · rw [rd_raise_of_not_eventReg _ (opLeaf_lt o) _ _ _ _ hevent, State.rd_wr_other _ _ ha]
  · exact State.rd_wr_other _ _ ha

theorem rd_ended_other {a : Nat} (ha : a ≠ opStat o) (hevent : ¬ eventReg a) (hcomm : a ≠ Reg.devCommStatus) :
    ((s.opIdle o).opEnd o e).rd a = s.rd a := by
  rw [rd_opEnd_other _ _ _ ha hevent, rd_opIdle _ _ hcomm]

theorem busy_ended : ((s.opIdle o).opEnd o e).busy o = false := by
  rw [State.busy, State.bit, rd_opEnd_opStat]
  exact bit_opStatEnd _ e

theorem progress_ended : ((s.opIdle o).opEnd o e).fld (opStat o) 23 0 = s.fld (opStat o) 23 0 := by
  have hkept (w : Word) : Machine.fld (opStatEnd w e) 23 0 = Machine.fld w 23 0 := by
    cases e with
    | _ => exact Machine.fld_setFld_other _ (by decide) (by decide) _
  rw [State.fld, rd_opEnd_opStat, hkept, rd_opIdle _ _ (opStat_ne_devCommStatus o)]
  rfl

/-- DONE says that an operation has not failed. -/
theorem done_ended : ((s.opIdle o).opEnd o e).bit (opStat o) 30 = (match e with | .done => true | _ => false) := by
  have hfield : ∀ v < 64, Machine.bit (Machine.setFld (s.rd (opStat o)) 31 24 v) 30 = false := fun v hv => by
    rw [bit_setFld_in _ (by decide) (by decide) (by decide)]
    exact Nat.testBit_lt_two_pow hv
  rw [State.bit, rd_opEnd_opStat, rd_opIdle _ _ (opStat_ne_devCommStatus o)]
  cases e with
  | done =>
    rw [opStatEnd, bit_setFld_in _ (by decide) (by decide) (by decide)]
    rfl
  | aborted r => exact hfield _ (by omega)
  | failed r => exact hfield _ (by omega)

theorem raised_ended {leaf : Nat} (hleaf : leaf < 2048) (ho : o ∈ allLongOps) (h : Raised leaf s) :
    Raised leaf ((s.opIdle o).opEnd o e) := by
  have hstat : Raised leaf ((s.opIdle o).wr (opStat o) (opStatEnd ((s.opIdle o).rd (opStat o)) e)) :=
    raised_of_rd hleaf h fun k hk => by
      have hne : Reg.evtStatus k ≠ opStat o := fun hr => opStat_not_eventReg ho (hr ▸ eventReg_evtStatus hk)
      rw [State.rd_wr_other _ _ hne, rd_opIdle _ _ (by simp only [Reg.evtStatus, Reg.devCommStatus]; omega)]
  unfold State.opEnd
  dsimp only
  split
  · exact Raised.raise hstat _ _ _ _ _
  · exact hstat

theorem mode_opIdle : (s.opIdle o).dev.mode = s.dev.mode := by
  cases o with
  | memoryBist =>
    have hwane := (waned_opIdle s (o := .memoryBist) (by decide)).frame
    obtain ⟨_, _, _, _, _, _, _, _, _, _, _, _, _, _, _, _, _, _, _, _, _, _, _, hframe⟩ := hwane
    rw [hframe]
  | _ => rfl

theorem mode_ended : ((s.opIdle o).opEnd o e).dev.mode = s.dev.mode := by
  rw [(linked_opEnd _ _ _).dev, mode_opIdle]

end

/-! ### A scan that ends (R353) -/

theorem scan_mem_allLongOps {u : Nat} (hu : u < 8) : LongOp.scan u ∈ allLongOps := by
  have hall : ∀ k : Fin 8, LongOp.scan k.val ∈ allLongOps := by decide
  exact hall ⟨u, hu⟩

/-- The unit has taken the range, and PROGRESS and OP_PARTIAL show it. -/
def State.scanFed (s : State) (u : Nat) (data : List Byte) : State :=
  ((s.unitFeed u data).setProgress (.scan u) (data.length / 1024)).wrWords (Reg.chkScanOpPartial u 0)
    (toWords 2 (if data.length = 0 then 0 else ((s.unitFeed u data).setProgress (.scan u) (data.length / 1024)).rd64 (Reg.chkScanAddrLo u) +
      data.length - 1))

/-- The registers of a scan that ends, but for the events. -/
def scanRegs (u : Nat) : List Nat :=
  unitRegs u ++ [opStat (.scan u), Reg.chkScanOpPartial u 0, Reg.chkScanOpPartial u 1]

theorem scanFed_frame (s : State) (u : Nat) (data : List Byte) : OnlyRegs (scanRegs u) s (s.scanFed u data) ∧
    (s.scanFed u data).rd64 (Reg.chkUnitRunningLo u) =
      crcFeed (s.unitParams u) (s.rd64 (Reg.chkUnitRunningLo u)) data % 2 ^ 64 ∧
    (s.scanFed u data).fld (opStat (.scan u)) 23 0 = data.length / 1024 % 2 ^ 24 := by
  obtain ⟨hrun, -, hfeed⟩ := unitSet_frame s u (crcFeed (s.unitParams u) (s.rd64 (Reg.chkUnitRunningLo u)) data)
    (s.rd64 (Reg.chkUnitBytesLo u) + data.length)
  have hrun : (s.unitFeed u data).rd64 (Reg.chkUnitRunningLo u) = _ := hrun
  have hfeed : OnlyRegs (unitRegs u) s (s.unitFeed u data) := hfeed
  have hprogress : OnlyRegs [opStat (.scan u)] (s.unitFeed u data) ((s.unitFeed u data).setProgress (.scan u) (data.length / 1024)) :=
    onlyRegs_wr _ _ _
  have hfield : ((s.unitFeed u data).setProgress (.scan u) (data.length / 1024)).fld (opStat (.scan u)) 23 0 = data.length / 1024 % 2 ^ 24 :=
    State.fld_setFld_self _ _ (by decide) (by decide) _
  unfold State.scanFed
  generalize (s.unitFeed u data).setProgress (.scan u) (data.length / 1024) = v at hprogress hfield ⊢
  have hpart (x : Nat) : OnlyRegs [Reg.chkScanOpPartial u 0, Reg.chkScanOpPartial u 0 + 4] v
      (v.wrWords (Reg.chkScanOpPartial u 0) (toWords 2 x)) := onlyRegs_wr64 v _ x
  have hpart := hpart (if data.length = 0 then 0 else v.rd64 (Reg.chkScanAddrLo u) + data.length - 1)
  generalize v.wrWords _ _ = w at hpart ⊢
  refine ⟨((hfeed.trans hprogress).trans hpart).mono fun a ha => ?_, ?_, ?_⟩
  · simp only [List.mem_append, List.mem_cons, List.not_mem_nil, or_false, scanRegs, unitRegs, Reg.chkScanOpPartial] at ha ⊢
    omega
  · rw [rd64_of_onlyRegs hpart, rd64_of_onlyRegs hprogress, hrun]
    all_goals
      simp only [List.mem_cons, List.not_mem_nil, or_false, opStat, opCtrl, Reg.chkScanOpCtrl, Reg.chkUnitRunningLo, Reg.chkScanOpPartial]
      omega
  · rw [State.fld, hpart.2 _ ?_]
    · exact hfield
    · simp only [List.mem_cons, List.not_mem_nil, or_false, opStat, opCtrl, Reg.chkScanOpCtrl, Reg.chkScanOpPartial]
      omega

/-- A scan that ends leaves its engine idle and the error log as it is. -/
theorem chk_scanEnded (s : State) (u : Nat) (e : OpEnd) :
    ((s.opIdle (.scan u)).opEnd (.scan u) e).chk.scan.get (fun _ => none) u = none ∧
      ((s.opIdle (.scan u)).opEnd (.scan u) e).chk.log = s.chk.log := by
  obtain ⟨_, _, _, _, _, _, _, _, _, _, _, hframe⟩ := linked_opEnd (s.opIdle (.scan u)) (.scan u) e
  rw [hframe]
  exact ⟨SMap.get_set_self (fun _ => none) _ u none, rfl⟩

/-- Whether a register is apart from all that the end of a scan moves. -/
theorem unit_apart {u : Nat} (hu : u < 8) {a : Nat} (ha : a = Reg.chkCtrl ∨ ∃ k < 0x60, a = Reg.chkUnitCfg u + k) :
    a ≠ opStat (.scan u) ∧ ¬ eventReg a ∧ a ≠ Reg.devCommStatus := by
  have hapart : a < 0x1101800 ∧ a ≥ 0x1100000 ∧ a ≠ opStat (.scan u) := by
    obtain rfl | ⟨k, hk, rfl⟩ := ha
    · simp only [opStat, opCtrl, Reg.chkScanOpCtrl, Reg.chkCtrl]
      omega
    · simp only [opStat, opCtrl, Reg.chkScanOpCtrl, Reg.chkUnitCfg]
      omega
  obtain ⟨hlt, hge, hne⟩ := hapart
  simp only [eventReg, Reg.devCommStatus, Reg.evtStatus, Reg.evtBufDrop, Reg.merEvtLost]
  exact ⟨hne, by omega, by omega⟩

/-- RESULT of a unit is read from its own registers and CHK_CTRL. -/
theorem unitResult_congr {s t : State} {u : Nat} (h : ∀ a, (a = Reg.chkCtrl ∨ ∃ k < 0x60, a = Reg.chkUnitCfg u + k) →
    a ≠ Reg.chkUnitStatus u → t.rd a = s.rd a) : t.unitResult u = s.unitResult u := by
  have hreg (k : Nat) (hk : k < 0x50) : t.rd (Reg.chkUnitCfg u + k) = s.rd (Reg.chkUnitCfg u + k) :=
    h _ (.inr ⟨k, by omega, rfl⟩) (by simp only [Reg.chkUnitCfg, Reg.chkUnitStatus]; omega)
  have hwords (a : Nat) (ha : ∃ k < 0x48, a = Reg.chkUnitCfg u + k) : t.rd64 a = s.rd64 a := by
    obtain ⟨k, hk, rfl⟩ := ha
    refine State.rdWords_congr fun b hb hb' => ?_
    have hb' := hreg (b - Reg.chkUnitCfg u) (by omega)
    rwa [Nat.add_sub_cancel' (by omega)] at hb'
  have hcfg : t.rd (Reg.chkUnitCfg u) = s.rd (Reg.chkUnitCfg u) := hreg 0 (by decide)
  have hparams : t.unitParams u = s.unitParams u := by
    unfold State.unitParams State.bit
    rw [h _ (.inl rfl) (by simp only [Reg.chkCtrl, Reg.chkUnitStatus]; omega), hcfg,
      hwords (Reg.chkUnitPolyLo u) ⟨8, by decide, by simp only [Reg.chkUnitPolyLo, Reg.chkUnitCfg]; omega⟩,
      hwords (Reg.chkUnitInitLo u) ⟨16, by decide, by simp only [Reg.chkUnitInitLo, Reg.chkUnitCfg]; omega⟩,
      hwords (Reg.chkUnitXoroutLo u) ⟨24, by decide, by simp only [Reg.chkUnitXoroutLo, Reg.chkUnitCfg]; omega⟩]
  rw [State.unitResult, hparams, hwords (Reg.chkUnitRunningLo u) ⟨32, by decide, by simp only [Reg.chkUnitRunningLo, Reg.chkUnitCfg]; omega⟩]
  rfl

/-- Settles O58. -/
theorem errorsAndCheckValuesAreCounted : Obligations.ErrorsAndCheckValuesAreCounted := by
  unfold Obligations.ErrorsAndCheckValuesAreCounted
  refine ⟨?_, ?_, ?_, ?_, ?_, ?_, ?_, ?_⟩
  · intro kind uncorr nbits mac addr s
    have hkind := kind.isLt
    refine ⟨?_, ?_, ?_, ?_, ?_⟩
    · intro hen hcorr hbits hroom
      refine Runs.intro (t := s.reportError kind.val false nbits mac addr) (congrArg Host.Outcome.next ?_) ?_
      · rw [hen, hcorr]
        exact if_pos (by simpa using hbits)
      · obtain ⟨hcount, hraised, -⟩ := reportError_counts s hkind false nbits mac addr
        refine ⟨hcount, hraised, ?_, fun a ha => ?_, ?_⟩
        · rw [reportError_of_room s false nbits mac addr hroom, State.raise_frame]
          rfl
        · obtain ⟨hne, hevents⟩ := not_or.mp (mt List.mem_cons.mpr ha)
          simp only [eventRegs, List.mem_cons, List.not_mem_nil, or_false, not_or] at hevents
          obtain ⟨h1, h2, h3, h4⟩ := hevents
          rw [reportError_of_room s false nbits mac addr hroom]
          refine (State.rd_raise_other _ (leafOf 16 0) _ _ _ _ h1 h2 h3 h4).trans ?_
          exact (State.rd_bump ..).trans (if_neg hne)
        · rw [s.noted_reportError kind.val false nbits mac addr]
    · intro hen hcorr hbits hfull
      refine Runs.intro (t := s.reportError kind.val false nbits mac addr) (congrArg Host.Outcome.next ?_) ?_
      · rw [hen, hcorr]
        exact if_pos (by simpa using hbits)
      · obtain ⟨-, hne⟩ := errCounter_apart hkind false
        have hdrop : ¬ eventReg Reg.chkErrDrop := by
          unfold eventReg
          decide
        rw [reportError_of_full s false nbits mac addr hfull]
        refine ⟨?_, ?_, ?_, raised_raise _ _ _ _ _ _⟩
        · rw [State.raise_frame, State.event, State.raise_frame]
          rfl
        · rw [rd_raise_of_not_eventReg _ (by decide) _ _ _ _ hdrop, State.event, rd_raise_of_not_eventReg _ (by decide) _ _ _ _ hdrop,
            State.rd_bump, if_pos rfl, State.rd_bump, if_neg hne.symm]
        · exact Raised.raise (raised_raise _ _ _ _ _ _) _ _ _ _ _
    · intro hen hunc h7
      refine Runs.intro (t := s.memoryError kind.val true nbits mac addr) (congrArg Host.Outcome.next ?_) ?_
      · rw [hen, hunc]
        rfl
      · obtain ⟨hcount, hraised, hcnt⟩ := reportError_counts s hkind true nbits mac addr
        have hnoted := s.noted_reportError kind.val true nbits mac addr
        unfold State.memoryError
        generalize s.reportError kind.val true nbits mac addr = v at hcount hraised hcnt hnoted
        have hdev : v.dev = s.dev := by rw [hnoted]
        unfold State.errorEffect
        dsimp only
        rw [if_pos rfl]
        by_cases h5 : kind.val = 5
        · rw [if_pos h5]
          refine ⟨hcount, hraised, hdev, fun _ => (cntGet_cntSet _ _ _ _).trans (if_pos rfl), fun k hk => ?_⟩
          rw [if_pos h5] at hk
          rw [cntGet_cntSet, if_neg (by simpa using hk)]
          exact congrArg (SMap.get (fun _ => 0) · k) hcnt
        · rw [if_neg h5, if_neg h7]
          exact ⟨hcount, hraised, hdev, fun h => absurd h h5, fun k _ => congrArg (SMap.get (fun _ => 0) · k) hcnt⟩
    · intro hen hunc h7 hmode
      obtain ⟨-, hraised, -⟩ := reportError_counts s hkind true nbits mac addr
      have hnoted := s.noted_reportError kind.val true nbits mac addr
      refine Runs.intro (t := ({ s.reportError kind.val true nbits mac addr with lht.memErr := true } : State).safeEntry 6 2)
        (congrArg Host.Outcome.next ?_) ?_
      · rw [hen, hunc]
        have h5 : kind.val ≠ 5 := by omega
        rw [if_pos (by rfl), State.memoryError, if_pos rfl, State.errorEffect, if_neg h5, if_pos h7]
      · generalize s.reportError kind.val true nbits mac addr = v at hraised hnoted
        have hdev : v.dev = s.dev := by rw [hnoted]
        have hsafe := safeEntry_enters (s := { v with lht.memErr := true }) (by rw [hdev]; exact hmode) 6 2
        exact ⟨hsafe.mode, hsafe.shown, hsafe.raised _ (by decide) hraised⟩
    · intro hnone
      refine congrArg Host.Outcome.next (if_neg ?_)
      obtain h | ⟨h1, h2⟩ := hnone
      · simp [h]
      · simp [h1, h2]
  · intro r rs s
    refine ⟨fun hlog => ?_, fun hlog => ?_⟩
    · refine Runs.intro (t := s.errLogRead) rfl ?_
      rw [State.errLogRead, hlog]
      have hret (t : State) (v : Word) (a : Nat) : (t.ret v).rd a = t.rd a := rfl
      refine ⟨rfl, rfl, ?_, ?_, ?_, fun a ha => ?_⟩
      · rw [hret, State.rd_wr_other _ _ (by decide), State.rd_wr_other _ _ (by decide), State.rd_wr_self]
      · rw [hret, State.rd_wr_other _ _ (by decide), State.rd_wr_self]
      · rw [hret, State.rd_wr_self]
      · simp only [List.mem_cons, List.not_mem_nil, or_false, not_or] at ha
        obtain ⟨h1, h2, h3⟩ := ha
        rw [hret, State.rd_wr_other _ _ h3, State.rd_wr_other _ _ h2, State.rd_wr_other _ _ h1]
        rfl
    · refine congrArg Host.Outcome.next ?_
      rw [State.errLogRead, hlog]
      rfl
  · intro val s
    refine Runs.intro (t := s.injWrite val) rfl ?_
    have harmed : bit (Machine.setBit ((s.wrTyped Reg.chkInj val).rd Reg.chkInj) 30 true) 30 = true := bit_setBit_self _ (by decide) true
    have hfield : (s.wrTyped Reg.chkInj val).fld Reg.chkInj 27 24 = fld val 27 24 := s.fld_wrTyped_rw val (by decide)
    have hkept : (s.wrTyped Reg.chkInj val).bit Reg.chkInj 30 = s.bit Reg.chkInj 30 := s.bit_wrTyped_kept val (by decide) (by decide)
    unfold State.injWrite
    dsimp only
    split
    · next h =>
      rw [h]
      refine ⟨?_, ?_, (s.onlyRegs_wrTyped _ _).comp (onlyRegs_wr _ _ _)⟩
      · rw [State.bit, State.rd_setBit, if_pos rfl, harmed]
        rfl
      · rw [State.fld, State.rd_setBit, if_pos rfl, Machine.setBit, Machine.fld_setFld_other _ (by decide) (by decide)]
        exact hfield
    · next h =>
      rw [Bool.eq_false_iff.mpr h, Bool.false_or]
      exact ⟨hkept, hfield, s.onlyRegs_wrTyped _ _⟩
  · intro u val hi s hidle
    refine ⟨fun h => ?_, fun h => ?_, ?_, ?_, ?_⟩
    · refine Runs.intro (t := s.unitLoad u.val) (congrArg Host.Outcome.next ?_) ?_
      · rw [State.unitRestartWrite, if_pos h, unlessScan_of_idle hidle]
      · exact unitSet_frame s u.val _ _
    · exact congrArg Host.Outcome.next (if_neg (by rw [h]; exact Bool.false_ne_true))
    · refine Runs.intro (t := s.unitFeed u.val (leBytes 4 val.toNat)) (congrArg Host.Outcome.next (unlessScan_of_idle hidle _)) ?_
      exact unitSet_frame s u.val _ _
    · refine Runs.intro (t := s.unitFeed u.val (leBytes 1 val.toNat)) (congrArg Host.Outcome.next (unlessScan_of_idle hidle _)) ?_
      exact unitSet_frame s u.val _ _
    · refine Runs.intro (t := s.wr64 (Reg.chkUnitRunningLo u.val) (((s.holdOf (Reg.chkUnitRunningLo u.val)).toNat + 2 ^ 32 * hi.toNat) %
        2 ^ (s.unitParams u.val).width)) (congrArg Host.Outcome.next (unlessScan_of_idle hidle _)) ⟨rd64_wr64 _ _ _, ?_⟩
      refine (onlyRegs_wr64 _ _ _).mono fun a ha => ?_
      simp only [List.mem_cons, List.not_mem_nil, or_false, Reg.chkUnitRunningLo, Reg.chkUnitRunningHi] at ha ⊢
      omega
  · intro u val hi s hbusy c hc
    have hignored : (s.setBit (Reg.chkUnitStatus u.val) 2 true).bit (Reg.chkUnitStatus u.val) 2 = true ∧
        OnlyRegs [Reg.chkUnitStatus u.val] s (s.setBit (Reg.chkUnitStatus u.val) 2 true) := by
      refine ⟨?_, onlyRegs_wr _ _ _⟩
      rw [State.bit, State.rd_setBit, if_pos rfl, bit_setBit_self _ (by decide)]
    have hset : bit (val ||| 0x80000000) 31 = true := by simp [bit]
    refine Runs.intro (t := s.setBit (Reg.chkUnitStatus u.val) 2 true) ?_ hignored
    simp only [List.mem_cons, List.not_mem_nil, or_false] at hc
    obtain rfl | rfl | rfl | rfl := hc
    · refine congrArg Host.Outcome.next ?_
      rw [State.unitRestartWrite, if_pos hset, unlessScan_of_busy hbusy]
    · exact congrArg Host.Outcome.next (unlessScan_of_busy hbusy _)
    · exact congrArg Host.Outcome.next (unlessScan_of_busy hbusy _)
    · exact congrArg Host.Outcome.next (unlessScan_of_busy hbusy _)
  · intro u data src cmp s hscan hcfg
    obtain ⟨hregs, hrunning, hprogress⟩ := scanFed_frame s u.val data
    have hrun : s.scanEnd u.val data = if !cmp then (s.scanFed u.val data).opDone (.scan u.val)
        else if (s.scanFed u.val data).unitResult u.val = s.rd64 (Reg.chkUnitExpectLo u.val) % 2 ^ (s.unitParams u.val).width then
          ((s.scanFed u.val data).setFld (Reg.chkUnitStatus u.val) 1 0 1).opDone (.scan u.val)
        else ((s.scanFed u.val data).setFld (Reg.chkUnitStatus u.val) 1 0 2).opFail (.scan u.val) 8 := by
      unfold State.scanEnd
      dsimp only
      rw [hscan]
      dsimp only
      rw [hcfg, Bool.and_false, if_neg Bool.false_ne_true, Nat.sub_zero, List.take_length]
      rfl
    have hchk : (s.scanFed u.val data).chk = s.chk := by rw [hregs.1]
    generalize s.scanFed u.val data = v at hregs hrunning hprogress hrun hchk
    have hu := u.isLt
    refine ⟨fun hcmp => ?_, fun hcmp => ?_⟩
    · refine Runs.intro (t := v.opDone (.scan u.val)) (congrArg Host.Outcome.next (by rw [hrun, hcmp]; rfl)) ?_
      have hrd (k : Nat) (hk : k < 0x60) : (v.opDone (.scan u.val)).rd (Reg.chkUnitCfg u.val + k) = v.rd (Reg.chkUnitCfg u.val + k) := by
        obtain ⟨h1, h2, h3⟩ := unit_apart hu (.inr ⟨k, hk, rfl⟩)
        exact rd_ended_other v (.scan u.val) .done h1 h2 h3
      have hkept : (v.opDone (.scan u.val)).rd64 (Reg.chkUnitRunningLo u.val) = v.rd64 (Reg.chkUnitRunningLo u.val) := by
        refine State.rdWords_congr fun b hb hb' => ?_
        simp only [Reg.chkUnitRunningLo] at hb hb'
        have hb' := hrd (b - Reg.chkUnitCfg u.val) (by simp only [Reg.chkUnitCfg]; omega)
        rwa [Nat.add_sub_cancel' (by simp only [Reg.chkUnitCfg]; omega)] at hb'
      obtain ⟨hidle, hlog⟩ := chk_scanEnded v u.val .done
      refine ⟨hkept.trans hrunning, busy_ended v _ _, (progress_ended v _ _).trans hprogress, hidle, hlog.trans (by rw [hchk])⟩
    · refine Runs.intro (t := s.scanEnd u.val data) rfl ?_
      generalize hexpect : s.rd64 (Reg.chkUnitExpectLo u.val) % 2 ^ (s.unitParams u.val).width = expect at hrun
      have hresult (k : Nat) (e : OpEnd) : (((v.setFld (Reg.chkUnitStatus u.val) 1 0 k).opIdle (.scan u.val)).opEnd (.scan u.val) e).unitResult u.val =
          v.unitResult u.val := unitResult_congr fun a ha hne => by
        obtain ⟨h1, h2, h3⟩ := unit_apart hu ha
        rw [rd_ended_other _ _ _ h1 h2 h3, State.rd_setFld, if_neg hne]
      have hstatus {k : Nat} (hk : k < 4) (e : OpEnd) : (((v.setFld (Reg.chkUnitStatus u.val) 1 0 k).opIdle (.scan u.val)).opEnd (.scan u.val) e).fld
          (Reg.chkUnitStatus u.val) 1 0 = k := by
        obtain ⟨h1, h2, h3⟩ := unit_apart (a := Reg.chkUnitStatus u.val) hu (.inr ⟨0x50, by decide, by simp only [Reg.chkUnitStatus, Reg.chkUnitCfg]; omega⟩)
        rw [State.fld, rd_ended_other _ _ _ h1 h2 h3]
        exact (State.fld_setFld_self _ _ (by decide) (by decide) _).trans (Nat.mod_eq_of_lt hk)
      rw [hrun, hcmp, Bool.not_true, if_neg Bool.false_ne_true]
      by_cases heq : v.unitResult u.val = expect
      · rw [if_pos heq]
        refine ⟨busy_ended _ _ _, (chk_scanEnded _ _ _).1, fun _ => ⟨hstatus (by decide) .done, done_ended _ _ _⟩, fun hne => ?_⟩
        exact absurd ((hresult 1 .done).trans heq) hne
      · rw [if_neg heq]
        refine ⟨busy_ended _ _ _, (chk_scanEnded _ _ _).1, fun h => ?_, fun _ => ⟨hstatus (by decide) (.failed 8), done_ended _ _ _⟩⟩
        exact absurd ((hresult 2 (.failed 8)).symm.trans h) heq
  · intro u data s hnone
    refine congrArg Host.Outcome.next ?_
    unfold State.scanEnd
    dsimp only
    rw [hnone]
  · intro op host addr s hop
    refine ⟨fun hidle => congrArg Host.Outcome.next ?_, fun hbusy => Runs.intro (t := s.opReadFailure op host addr) rfl ?_⟩
    · rw [State.opReadFailure, hidle]
      rfl
    · have hkinds : s.readKind op addr < 10 ∧ s.readKind op addr ≠ 5 ∧ s.readKind op addr ≠ 7 := by
        unfold State.readKind
        split
        · split
          · split
            · decide
            · decide
          · decide
          · decide
          · decide
        · decide
      obtain ⟨hkind, h5, h7⟩ := hkinds
      generalize hv : (if host then s else s.memoryError (s.readKind op addr) true 0 0 addr) = v
      have hvdev : v.dev = s.dev := by
        rw [← hv]
        split
        · rfl
        · rw [s.noted_memoryError h5 h7 true 0 0 addr]
      have hvraised : host = false → Raised (leafOf 16 1) v := fun hhost => by
        obtain ⟨-, hraised, -⟩ := reportError_counts s hkind true 0 0 addr
        rw [← hv, hhost, if_neg Bool.false_ne_true, s.memoryError_eq h5 h7, if_pos rfl]
        exact hraised
      generalize hw : (match op with | .scan u => v.wrWords (Reg.chkScanOpPartial u 0) (toWords 2 addr.toNat) | _ => v) = w
      have hrun : s.opReadFailure op host addr = w.opFail op (if host then 5 else 4) := by
        rw [State.opReadFailure, if_pos hbusy, ← hw, ← hv] <;> rfl
      have hwdev : w.dev = v.dev := by
        rw [← hw]
        split
        · exact (linked_wrWords _ _ _).dev
        · rfl
      have hwraised : Raised (leafOf 16 1) v → Raised (leafOf 16 1) w := fun h => by
        rw [← hw]
        split
        · next u =>
          refine raised_of_rd (by decide) h fun k hk => (onlyRegs_wr64 v (Reg.chkScanOpPartial u 0) addr.toNat).2 _ ?_
          have hu : u < 8 := by
            simp only [allLongOps, List.mem_cons, LongOp.scan.injEq, reduceCtorEq, List.not_mem_nil, or_false, false_or] at hop
            omega
          simp only [List.mem_cons, List.not_mem_nil, or_false, Reg.evtStatus, Reg.chkScanOpPartial]
          omega
        · exact h
      rw [hrun]
      refine ⟨busy_ended _ _ _, done_ended _ _ _, fun hhost => ?_, fun _ => ?_⟩
      · exact raised_ended _ _ _ (by decide) hop (hwraised (hvraised hhost))
      · exact (mode_ended _ _ _).trans (by rw [hwdev, hvdev])

end Sys2Proof.Machine
end

section
/-!
PROOFS. Roles, fuses, the pairing key, self-tests and zeroisation (O60; R371 to R379).
-/
open Sys2Proof.Safety
namespace Sys2Proof.Machine

/-! ### Authentication (R373) -/

/-- The registers of the nonce. -/
def nonceRegs : List Nat := (List.range 12).map Reg.secAuthNonce

theorem setNonce_frame (s : State) (n : Option (BitVec 384)) :
    (∃ regs, s.setNonce n = { s with regs := regs, sec.nonce := n }) ∧ RegsBut nonceRegs s (s.setNonce n) ∧
      (s.setNonce n).rdWords (Reg.secAuthNonce 0) 12 = (n.getD 0).toNat := by
  have hwords (u : State) (a : Nat) (l : List Word) : ∃ regs, u.wrWords a l = { u with regs := regs } := by
    induction l generalizing u a with
    | nil => exact ⟨_, rfl⟩
    | cons w l ih =>
      obtain ⟨regs, h⟩ := ih (u.wr a w) (a + 4)
      exact ⟨regs, h⟩
  unfold State.setNonce
  generalize hu : ({ s with sec.nonce := n } : State) = u
  have hrd (a : Nat) : u.rd a = s.rd a := by
    rw [← hu]
    rfl
  refine ⟨?_, fun a ha => ?_, ?_⟩
  · obtain ⟨regs, h⟩ := hwords u (Reg.secAuthNonce 0) (toWords 12 (n.getD 0).toNat)
    refine ⟨regs, h.trans ?_⟩
    rw [← hu]
  · rw [rd_wrWords_ne _ ?_, hrd]
    intro k hk heq
    rw [length_toWords] at hk
    refine ha (List.mem_map.mpr ⟨k, List.mem_range.mpr hk, ?_⟩)
    exact heq.symm
  · rw [State.rdWords_wrWords_toWords]
    exact Nat.mod_eq_of_lt (n.getD 0).isLt

theorem generate_frame (s : State) : s.generate.1 = s.drawn ∧ ∃ drawn drbg, s.generate.2 = { s with drawn := drawn, sec.drbg := drbg } :=
  ⟨rfl, _, _, rfl⟩

section
variable {s : State} {v : Word}

theorem authCmd_idle (h : bit v 31 = false ∨ fld v 27 24 = 0 ∨ 3 < fld v 27 24) : s.authCmd v = s := by
  unfold State.authCmd
  split
  · next hgo =>
    have hop : fld v 27 24 = 0 ∨ 3 < fld v 27 24 := h.resolve_left (by simp [hgo])
    split
    · next heq => omega
    · next heq => omega
    · next heq => omega
    · rfl
  · rfl

/-- What a VERIFY finds after its nonce is used up. -/
theorem authCmd_verify (hgo : bit v 31 = true) (hop : fld v 27 24 = 2) : s.authCmd v = s.verify (fld v 1 0) := by
  unfold State.authCmd
  rw [if_pos hgo, hop]
  rfl

theorem authEnd_frame (s : State) (pass : Bool) : OnlyRegs [Reg.secAuthStatus] s (s.authEnd pass) ∧
    (s.authEnd pass).fld Reg.secAuthStatus 31 29 = if pass then 2 else 1 := by
  refine ⟨onlyRegs_wr _ _ _, (State.fld_setFld_self _ _ (by decide) (by decide) _).trans ?_⟩
  cases pass
  · rfl
  · rfl

/-- A VERIFY that fails its check (R373): the eighth failure in a row begins the lockout. -/
theorem verifyFailed_frame (s : State) : s.verifyFailed.fld Reg.secAuthStatus 31 29 = 1 ∧ Raised (leafOf 26 2) s.verifyFailed ∧
    s.verifyFailed.sec = { s.sec with fails := s.sec.fails + 1, locked := if s.sec.fails + 1 = 8 then some s.raw else s.sec.locked } ∧
    (s.sec.fails + 1 = 8 → Raised (leafOf 26 3) s.verifyFailed) := by
  obtain ⟨⟨hend, -⟩, hfld⟩ := authEnd_frame s false
  have hsec : (s.authEnd false).sec = s.sec ∧ (s.authEnd false).raw = s.raw := by
    rw [hend]
    exact ⟨rfl, rfl⟩
  unfold State.verifyFailed
  dsimp only
  generalize hu : ({ s.authEnd false with sec.fails := s.sec.fails + 1 } : State) = u
  have hufld : u.fld Reg.secAuthStatus 31 29 = 1 := by
    rw [← hu]
    exact hfld
  have husec : u.sec = { s.sec with fails := s.sec.fails + 1 } ∧ u.raw = s.raw := by
    rw [← hu]
    exact ⟨congrArg (fun x : Sec => { x with fails := s.sec.fails + 1 }) hsec.1, hsec.2⟩
  have hframe := (reports_event u (leafOf 26 2) 0).1
  have hv : (u.event (leafOf 26 2) 0).sec = u.sec ∧ (u.event (leafOf 26 2) 0).raw = u.raw := by
    rw [hframe]
    exact ⟨rfl, rfl⟩
  have hvfld : (u.event (leafOf 26 2) 0).fld Reg.secAuthStatus 31 29 = 1 :=
    (congrArg (Machine.fld · 31 29) ((reports_event u (leafOf 26 2) 0).2 _ (by decide))).trans hufld
  have hraised : Raised (leafOf 26 2) (u.event (leafOf 26 2) 0) := raised_raise _ _ _ _ _ _
  generalize u.event (leafOf 26 2) 0 = v at hv hvfld hraised
  split
  · next h =>
    generalize hw : ({ v with sec.locked := some v.raw } : State) = w
    have hwsec : w.sec = { s.sec with fails := s.sec.fails + 1, locked := some s.raw } := by
      rw [← hw]
      show ({ v.sec with locked := some v.raw } : Sec) = _
      rw [hv.1, hv.2, husec.1, husec.2]
    have hrd : ∀ a, w.rd a = v.rd a := fun a => by rw [← hw]; rfl
    refine ⟨?_, Raised.raise (raised_of_rd (by decide) hraised fun k _ => hrd _) _ _ _ _ _, ?_, fun _ => raised_raise _ _ _ _ _ _⟩
    · exact (congrArg (Machine.fld · 31 29) (((reports_event w (leafOf 26 3) 0).2 _ (by decide)).trans (hrd _))).trans hvfld
    · rw [(reports_event w (leafOf 26 3) 0).1]
      exact hwsec
  · next h =>
    refine ⟨hvfld, hraised, ?_, fun h' => absurd h' h⟩
    rw [hv.1, husec.1]

end

/-- A request without its role (R374): counted and shown, with its event. -/
theorem denied_shown (s : State) : s.denied.sec = s.sec ∧ s.denied.dev = s.dev ∧ s.denied.bit Reg.secStatus 27 = true ∧
    s.denied.rd Reg.secDenied = satAdd (s.rd Reg.secDenied) 1 ∧ Raised (leafOf 26 5) s.denied := by
  obtain ⟨hframe, hregs⟩ := reports_event ((s.bump Reg.secDenied).setBit Reg.secStatus 27 true) (leafOf 26 5) 0
  refine ⟨?_, ?_, ?_, (denied_frame s).1, raised_raise _ _ _ _ _ _⟩
  · rw [State.denied, hframe]
    rfl
  · rw [State.denied, hframe]
    rfl
  · rw [State.denied, State.bit, hregs _ (by decide), State.rd_setBit, if_pos rfl]
    exact bit_setBit_self _ (by decide) true

/-! ### OTP (R371) -/

section
variable {s : State} {v : Word}

theorem otpWrite_granted (hgo : bit v 31 = true) (hidle : s.bit Reg.secOtpProgStatus 31 = false) (hco : s.isCO = true) :
    (s.otpWrite v).sec.otpBusy = some (fld v 27 24, fld v 18 16, fld v 7 0, BitVec.ofNat 384 (ofLe (s.authBytes 0 48))) ∧
      (s.otpWrite v).sec.otp = s.sec.otp ∧ (s.otpWrite v).rd Reg.secOtpProgStatus = 0x80000000 ∧
      RegsBut [Reg.secOtpProg, Reg.secOtpProgStatus] s (s.otpWrite v) := by
  have hframe := congrArg (fun x : State => x.sec.otp) (s.onlyRegs_wrTyped v Reg.secOtpProg).1
  unfold State.otpWrite
  rw [hgo, hidle, hco]
  refine ⟨rfl, hframe, State.rd_wr_self _ _ _, fun a ha => ?_⟩
  · simp only [List.mem_cons, List.not_mem_nil, or_false, not_or] at ha
    exact (State.rd_wr_other _ _ ha.2).trans (State.rd_wrTyped_other _ _ ha.1)

theorem otpWrite_denied (hgo : bit v 31 = true) (hidle : s.bit Reg.secOtpProgStatus 31 = false) (hco : s.isCO = false) :
    (s.otpWrite v).sec = s.sec ∧ (s.otpWrite v).rd Reg.secOtpProgStatus = 0x20000001 ∧ (s.otpWrite v).bit Reg.secStatus 27 = true ∧
      (s.otpWrite v).rd Reg.secDenied = satAdd (s.rd Reg.secDenied) 1 ∧ Raised (leafOf 26 5) (s.otpWrite v) := by
  have hsec := congrArg State.sec (s.onlyRegs_wrTyped v Reg.secOtpProg).1
  have hrd := State.rd_wrTyped_other s v (show Reg.secDenied ≠ Reg.secOtpProg by decide)
  have hrun : s.otpWrite v = (s.wrTyped Reg.secOtpProg v).denied.wr Reg.secOtpProgStatus 0x20000001 := by
    rw [State.otpWrite, hgo, hidle, hco]
    rfl
  rw [hrun]
  generalize s.wrTyped Reg.secOtpProg v = u at hsec hrd
  obtain ⟨hdsec, -, hbit, hcount, hraised⟩ := denied_shown u
  refine ⟨hdsec.trans hsec, State.rd_wr_self _ _ _, ?_, ?_, raised_of_rd (by decide) hraised fun k hk => State.rd_wr_other _ _ ?_⟩
  · rw [State.bit, State.rd_wr_other _ _ (by decide)]
    exact hbit
  · rw [State.rd_wr_other _ _ (by decide), hcount, hrd]
  · simp only [Reg.evtStatus, Reg.secOtpProgStatus]
    omega

theorem otpWrite_ignored (h : bit v 31 = false ∨ s.bit Reg.secOtpProgStatus 31 = true) : OnlyRegs [Reg.secOtpProg] s (s.otpWrite v) := by
  unfold State.otpWrite
  dsimp only
  rw [if_neg (by obtain h | h := h <;> simp [h])]
  exact s.onlyRegs_wrTyped v _

end

section
variable {s : State} {op slot value : Nat} {hash : BitVec 384}

/-- Programming that changes a fuse. -/
theorem otpEnd_programmed {o : Otp} (hbusy : s.sec.otpBusy = some (op, slot, value, hash)) (h : otpProgram s.sec.otp op slot value hash = .inl o) :
    s.otpEnd.sec = { s.sec with otpBusy := none, otp := o } ∧ s.otpEnd.rd Reg.secOtpProgStatus = 0x40000000 ∧ Raised (leafOf 26 6) s.otpEnd := by
  unfold State.otpEnd
  rw [hbusy]
  dsimp only
  rw [h]
  dsimp only
  obtain ⟨hframe, hregs⟩ := reports_event
    (({ s with sec.otpBusy := none, sec.otp := o } : State).wr Reg.secOtpProgStatus 0x40000000) (leafOf 26 6) 0
  refine ⟨?_, (hregs _ (by decide)).trans (State.rd_wr_self _ _ _), raised_raise _ _ _ _ _ _⟩
  rw [hframe]
  rfl

/-- Programming that is refused with its cause. -/
theorem otpEnd_refused {c : Nat} (hbusy : s.sec.otpBusy = some (op, slot, value, hash)) (h : otpProgram s.sec.otp op slot value hash = .inr c) :
    s.otpEnd.sec = { s.sec with otpBusy := none } ∧ s.otpEnd.rd Reg.secOtpProgStatus = BitVec.ofNat 32 (0x20000000 + c) ∧
      Raised (leafOf 26 6) s.otpEnd := by
  unfold State.otpEnd
  rw [hbusy]
  dsimp only
  rw [h]
  dsimp only
  obtain ⟨hframe, hregs⟩ := reports_event
    (({ s with sec.otpBusy := none } : State).wrNat Reg.secOtpProgStatus (0x20000000 + c)) (leafOf 26 6) 0
  refine ⟨?_, (hregs _ (by decide)).trans (State.rd_wr_self _ _ _), raised_raise _ _ _ _ _ _⟩
  rw [hframe]
  rfl

end

/-- What programming may not do (R371): no such operation, a slot that stands or does not exist, a value that does not rise. -/
theorem otpProgram_not_allowed (o : Otp) {op slot value : Nat} (hash : BitVec 384)
    (h : op = 0 ∨ 4 < op ∨ (op = 1 ∧ (6 ≤ slot ∨ (o.keyHash.getD slot none).isSome = true)) ∨
      (op = 2 ∧ (4 ≤ slot ∨ o.revoked.getLsbD slot = true)) ∨ (op = 4 ∧ value ≤ o.fwSvnMin)) :
    otpProgram o op slot value hash = .inr 2 := by
  unfold otpProgram
  split
  · refine if_neg ?_
    rintro ⟨hslot, hnone⟩
    have hsome : 6 ≤ slot ∨ (o.keyHash.getD slot none).isSome = true := by simpa using h
    obtain h | h := hsome
    · omega
    · rw [Option.isNone_iff_eq_none] at hnone
      rw [hnone] at h
      cases h
  · exact if_pos (by simpa using h)
  · exact absurd h (by omega)
  · exact if_neg (by omega)
  · rfl

/-! ### The pairing key (R375) -/

theorem setPair_frame (s : State) (k : Option (BitVec 256)) : (∃ regs, s.setPair k = { s with regs := regs, sec.pairKey := k }) ∧
    (s.setPair k).bit Reg.secPairCtrl 0 = k.isSome ∧ (s.setPair k).rd Reg.secPairKcv = (k.map Config.kcv).getD 0 ∧
    RegsBut [Reg.secPairCtrl, Reg.secPairKcv] s (s.setPair k) := by
  unfold State.setPair
  refine ⟨⟨_, rfl⟩, ?_, (State.rd_wr_self _ _ _).trans (by cases k <;> rfl), fun a ha => ?_⟩
  · rw [State.bit, State.rd_wr_other _ _ (by decide), State.rd_setBit, if_pos rfl]
    exact bit_setBit_self _ (by decide) _
  · simp only [List.mem_cons, List.not_mem_nil, or_false, not_or] at ha
    rw [State.rd_wr_other _ _ ha.2, State.rd_setBit, if_neg ha.1]
    rfl

section
variable {s : State} {v : Word}

theorem pairWrite_denied (h : bit v 31 = true ∨ bit v 30 = true) (huser : s.isUser = false) : s.pairWrite v = s.denied := by
  rw [State.pairWrite, if_pos (by simpa using h), huser]
  rfl

theorem pairWrite_store (h31 : bit v 31 = true) (h30 : bit v 30 = false) (huser : s.isUser = true) (herror : s.sec.error = false) :
    s.pairWrite v = s.setPair (some s.pairStaged) := by
  rw [State.pairWrite, h31, h30, huser, herror]
  rfl

/-- CLEAR leaves no key, also where the same write stores one before. -/
theorem pairWrite_clear (h30 : bit v 30 = true) (huser : s.isUser = true) :
    (s.pairWrite v).sec = { s.sec with pairKey := none } ∧ (s.pairWrite v).bit Reg.secPairCtrl 0 = false ∧
      (s.pairWrite v).rd Reg.secPairKcv = 0 ∧ RegsBut [Reg.secPairCtrl, Reg.secPairKcv] s (s.pairWrite v) := by
  have hrun : s.pairWrite v = (if bit v 31 && !s.sec.error then s.setPair (some s.pairStaged) else s).setPair none := by
    rw [State.pairWrite, h30, huser, Bool.or_true]
    rfl
  rw [hrun]
  have hfirst : (∃ regs k, (if bit v 31 && !s.sec.error then s.setPair (some s.pairStaged) else s) = { s with regs := regs, sec.pairKey := k }) ∧
      RegsBut [Reg.secPairCtrl, Reg.secPairKcv] s (if bit v 31 && !s.sec.error then s.setPair (some s.pairStaged) else s) := by
    split
    · obtain ⟨⟨regs, h⟩, -, -, hregs⟩ := setPair_frame s (some s.pairStaged)
      exact ⟨⟨regs, _, h⟩, hregs⟩
    · exact ⟨⟨s.regs, s.sec.pairKey, rfl⟩, fun _ _ => rfl⟩
  generalize (if bit v 31 && !s.sec.error then s.setPair (some s.pairStaged) else s) = u at hfirst
  obtain ⟨⟨regs, k, hu⟩, hregs⟩ := hfirst
  obtain ⟨⟨regs', hsecond⟩, hbit, hkcv, hregs'⟩ := setPair_frame u none
  refine ⟨?_, hbit, hkcv, fun a ha => (hregs' a ha).trans (hregs a ha)⟩
  rw [hsecond, hu]

theorem pairWrite_idle (h : (bit v 31 = false ∧ bit v 30 = false) ∨ (s.isUser = true ∧ s.sec.error = true ∧ bit v 30 = false)) :
    s.pairWrite v = s := by
  unfold State.pairWrite
  obtain ⟨h31, h30⟩ | ⟨huser, herror, h30⟩ := h
  · rw [h31, h30]
    rfl
  · rw [huser, herror, h30]
    cases bit v 31 <;> rfl

end

/-! ### Zeroisation (R378, R379) -/

theorem fld_low_odd (w : Word) : (Machine.fld w 15 0 % 2 == 1) = bit w 0 := by
  have h : Machine.fld w 15 0 % 2 = w.toNat % 2 := by
    unfold Machine.fld
    omega
  rw [h, bit, BitVec.getLsbD, Nat.testBit_zero]
  rfl

/-- From `s` to `t` a zeroisation has begun: the device is in SAFE, no other operation runs, keys and fuses are as they were. -/
structure ZeroBegun (full : Bool) (s t : State) : Prop where
  mode : t.dev.mode = .safe
  cause : s.dev.mode ≠ .safe → t.rd Reg.devModeCause = 7
  busy : t.busy .zeroisation = true
  idle : ∀ o ∈ allLongOps, o = .zeroisation ∨ t.busy o = false
  zero : t.sec.zero = some ⟨full, false⟩
  otp : t.sec.otp = s.sec.otp
  pin : t.dev.zeroizeLow = s.dev.zeroizeLow
  raised : ∀ leaf < 2048, Raised leaf s → Raised leaf t

theorem opPartials_zeroisation : opPartials .zeroisation = [Reg.secZeroOpPartial] := by decide

theorem zeroBegin_begun (s : State) (full : Bool) : ZeroBegun full s (s.zeroBegin full) := by
  obtain ⟨hwaned, hidle⟩ := waned_abortWhere s (p := fun o => o != .zeroisation) rfl 6 (l := allLongOps) fun _ h => h
  unfold State.zeroBegin
  dsimp only
  generalize s.abortWhere (fun o => o != .zeroisation) 6 allLongOps = u at hwaned hidle
  obtain ⟨hstat, -, hbegin⟩ := opBegin_frame u .zeroisation
  generalize hv : ({ u.opBegin .zeroisation with sec.zero := some ⟨full, false⟩ } : State).setBit Reg.secZeroOpPartial 1 full = v
  have hpart : opStat .zeroisation ≠ Reg.secZeroOpPartial := by decide
  have hbusy : v.busy .zeroisation = true := by
    rw [← hv, State.busy, State.bit, State.rd_setBit, if_neg hpart]
    exact congrArg (Machine.bit · 31) hstat
  have hrd : ∀ a, a ∉ [opStat .zeroisation, Reg.secZeroOpPartial] → v.rd a = u.rd a := fun a ha => by
    rw [← hv, State.rd_setBit, if_neg (by simp_all)]
    exact hbegin.2 a (by rwa [opPartials_zeroisation])
  have hframe : ∃ regs, v = { u with regs := regs, sec.zero := some ⟨full, false⟩ } := by
    refine ⟨v.regs, ?_⟩
    rw [← hv, hbegin.1]
    rfl
  have hstart : ∀ leaf < 2048, Raised leaf s → Raised leaf v := fun leaf hleaf h =>
    raised_of_rd hleaf (hwaned.raised leaf hleaf h) fun k hk => hrd _ (by
      simp only [opStat, opCtrl, Reg.secZeroOpCtrl, Reg.secZeroOpPartial, Reg.evtStatus, List.mem_cons, List.not_mem_nil, or_false]
      omega)
  have hothers : ∀ o ∈ allLongOps, o = .zeroisation ∨ v.busy o = false := fun o ho => by
    by_cases hz : o = .zeroisation
    · exact .inl hz
    · refine .inr ?_
      rw [State.busy, State.bit, hrd _ ?_]
      · exact hidle o ho (by simpa using hz)
      · simp only [List.mem_cons, List.not_mem_nil, or_false, not_or]
        exact ⟨fun h => hz (opStat_injective o ho _ (by decide) h),
          (by decide : ∀ o ∈ allLongOps, opStat o ≠ Reg.secZeroOpPartial) o ho⟩
  obtain ⟨regs, hframe⟩ := hframe
  have hkept : v.sec.zero = some ⟨full, false⟩ ∧ v.sec.otp = s.sec.otp ∧ v.dev.zeroizeLow = s.dev.zeroizeLow ∧ v.dev.mode = s.dev.mode := by
    obtain ⟨_, _, _, _, _, _, _, _, _, _, _, _, _, _, _, _, _, _, _, _, _, _, _, hu⟩ := hwaned.frame
    rw [hframe, hu]
    exact ⟨rfl, rfl, rfl, rfl⟩
  obtain ⟨hzero, hotp, hlow, hmode⟩ := hkept
  by_cases hsafe : v.dev.mode = .safe
  · rw [State.safeEntry, if_pos hsafe]
    exact ⟨hsafe, fun h => absurd (hmode ▸ hsafe) h, hbusy, hothers, hzero, hotp, hlow, hstart⟩
  · have hentered := safeEntry_enters hsafe 7 0
    have hsec : (v.safeEntry 7 0).sec.zero = v.sec.zero ∧ (v.safeEntry 7 0).sec.otp = v.sec.otp := by
      obtain ⟨_, _, _, _, _, _, _, _, _, _, _, _, _, _, _, _, _, _, h⟩ := hentered.frame
      rw [h]
      exact ⟨rfl, rfl⟩
    have hdev : (v.safeEntry 7 0).dev.zeroizeLow = v.dev.zeroizeLow := by
      obtain ⟨_, _, _, _, _, _, h⟩ := hentered.kept
      rw [h]
    refine ⟨hentered.mode, fun _ => hentered.shown, ?_, fun o ho => (hothers o ho).imp_right (hentered.idle o ho), hsec.1.trans hzero,
      hsec.2.trans hotp, hdev.trans hlow, fun leaf hleaf h => hentered.raised leaf hleaf (hstart leaf hleaf h)⟩
    rw [State.busy, State.bit, hentered.regs _ ?_ (by decide)]
    · exact hbusy
    · rintro (h | ⟨o, ho, hne, h⟩ | h | h)
      · exact opStat_not_eventReg (o := .zeroisation) (by decide) h
      · exact hne (opStat_injective o ho _ (by decide) h.symm)
      · exact absurd h (by decide)
      · exact absurd h (by decide)

/-- ZEROIZE_N low starts a full zeroisation where none runs, and widens one that does (R378). -/
theorem zeroPin_begun (s : State) (h : s.sec.zero = none) : Raised (leafOf 26 7) s.zeroPin ∧
    ∃ u : State, u.dev = s.dev ∧ ZeroBegun true u s.zeroPin := by
  have hframe := (reports_event s (leafOf 26 7) 0).1
  have hraised : Raised (leafOf 26 7) (s.event (leafOf 26 7) 0) := raised_raise _ _ _ _ _ _
  unfold State.zeroPin
  dsimp only
  generalize s.event (leafOf 26 7) 0 = u at hframe hraised
  have hu : u.sec.zero = none ∧ u.dev = s.dev := by
    rw [hframe]
    exact ⟨h, rfl⟩
  rw [hu.1]
  have hbegun := zeroBegin_begun u true
  exact ⟨hbegun.raised _ (by decide) hraised, u, hu.2, hbegun⟩

theorem zeroPin_widens (s : State) (h : s.sec.zero.isSome = true) : s.zeroPin.sec.zero = s.sec.zero.map (fun z => { z with full := true }) ∧
    s.zeroPin.bit Reg.secZeroOpPartial 1 = true ∧ Raised (leafOf 26 7) s.zeroPin := by
  obtain ⟨z, hz⟩ := Option.isSome_iff_exists.mp h
  have hframe := (reports_event s (leafOf 26 7) 0).1
  have hraised : Raised (leafOf 26 7) (s.event (leafOf 26 7) 0) := raised_raise _ _ _ _ _ _
  unfold State.zeroPin
  dsimp only
  generalize s.event (leafOf 26 7) 0 = u at hframe hraised
  have hu : u.sec.zero = some z := by
    rw [hframe]
    exact hz
  rw [hu, hz]
  refine ⟨rfl, ?_, raised_of_rd (by decide) hraised fun k hk => ?_⟩
  · rw [State.bit, State.rd_setBit, if_pos rfl]
    exact bit_setBit_self _ (by decide) true
  · rw [State.rd_setBit, if_neg (by simp only [Reg.evtStatus, Reg.secZeroOpPartial]; omega)]
    rfl

/-- Step 1 leaves no key, salt, role, nonce or pairing key, and the fuses as they were. -/
theorem wipeCsps_frame (s : State) : s.wipeCsps.sec.role = 0 ∧ s.wipeCsps.sec.nonce = none ∧ s.wipeCsps.sec.pairKey = none ∧
    s.wipeCsps.sec.pairData = [] ∧ s.wipeCsps.sec.otp = s.sec.otp ∧ s.wipeCsps.xgm.keys = [] ∧
    (∀ p ∈ s.wipeCsps.net.ports, ∀ e ∈ p.2.sas, e.2.valid = false ∧ e.2.key = 0 ∧ e.2.salt = 0) ∧
    s.wipeCsps.rdWords (Reg.secAuthNonce 0) 12 = 0 := by
  obtain ⟨⟨regs, hnonce⟩, -, hwords⟩ := setNonce_frame s none
  obtain ⟨⟨regs', hpair⟩, -, -, hregs⟩ := setPair_frame (s.setNonce none) none
  have hzero : ((s.setNonce none).setPair none).rdWords (Reg.secAuthNonce 0) 12 = 0 := by
    refine (State.rdWords_congr fun b hlow hhigh => hregs b ?_).trans hwords
    simp only [Reg.secAuthNonce] at hlow hhigh
    simp only [List.mem_cons, List.not_mem_nil, or_false, Reg.secPairCtrl, Reg.secPairKcv]
    omega
  unfold State.wipeCsps
  dsimp only
  generalize (s.setNonce none).setPair none = u at hpair hzero
  rw [hnonce] at hpair
  refine ⟨rfl, ?_, ?_, rfl, ?_, rfl, fun p hp e he => ?_, hzero⟩
  · show u.sec.nonce = none
    rw [hpair]
  · show u.sec.pairKey = none
    rw [hpair]
  · show u.sec.otp = s.sec.otp
    rw [hpair]
  · obtain ⟨q, -, rfl⟩ := List.mem_map.mp hp
    obtain ⟨x, -, rfl⟩ := List.mem_map.mp he
    exact ⟨rfl, rfl, rfl⟩

/-- What zeroisation clears in memory. -/
def State.zeroWiped (s : State) (full : Bool) : State := if full then s.wipeReserved.wipeMemories else s.wipeReserved

theorem zeroWiped_frame (s : State) (full : Bool) : (s.zeroWiped full).sec = s.sec ∧ (s.zeroWiped full).lht.slots = [] ∧
    (full = true → (s.zeroWiped full).pool = {} ∧ (s.zeroWiped full).voq = {} ∧ (s.zeroWiped full).sxt = {} ∧
      (s.zeroWiped full).obs.cnt = [] ∧ (s.zeroWiped full).dev.structValid = false) := by
  cases full
  · exact ⟨rfl, rfl, fun h => absurd h (by decide)⟩
  · exact ⟨rfl, rfl, fun _ => ⟨rfl, rfl, rfl, rfl, rfl⟩⟩

/-- The end of zeroisation: the operation ends DONE with its PROGRESS, whatever memory it has cleared. -/
def State.zeroFinished (s : State) (progress : Nat) : State :=
  ({ ({ s.setProgress .zeroisation progress with sec.zeroized := true } : State).opEnd .zeroisation .done with sec.zero := none } : State).event
    (leafOf 26 1) 0

theorem zeroEnd_of_step1 {s : State} {z : ZeroRun} (hz : s.sec.zero = some z) (hstep : z.step1 = true) :
    s.zeroEnd = (s.zeroWiped z.full).zeroFinished (if z.full then 98592 else 6144) := by
  unfold State.zeroEnd
  rw [hz]
  dsimp only
  rw [if_pos hstep]
  rfl

theorem zeroFinished_frame (s : State) {progress : Nat} (hp : progress < 2 ^ 24) :
    (∃ regs obs groups out, s.zeroFinished progress = { s with
      regs := regs, obs := obs, rhb := { s.rhb with groups := groups }, out := out, sec.zeroized := true, sec.zero := none }) ∧
    (s.zeroFinished progress).obs.cnt = s.obs.cnt ∧ (s.zeroFinished progress).busy .zeroisation = false ∧
    (s.zeroFinished progress).bit (opStat .zeroisation) 30 = true ∧ (s.zeroFinished progress).fld (opStat .zeroisation) 23 0 = progress ∧
    Raised (leafOf 26 1) (s.zeroFinished progress) := by
  unfold State.zeroFinished
  generalize hu : ({ s.setProgress .zeroisation progress with sec.zeroized := true } : State) = u
  have hufld : u.fld (opStat .zeroisation) 23 0 = progress := by
    rw [← hu]
    exact (State.fld_setFld_self _ _ (by decide) (by decide) _).trans (Nat.mod_eq_of_lt hp)
  have huframe : ∃ regs, u = { s with regs := regs, sec.zeroized := true } := ⟨_, by rw [← hu]; rfl⟩
  have hstat : (u.opEnd .zeroisation .done).rd (opStat .zeroisation) = opStatEnd (u.rd (opStat .zeroisation)) .done := rd_opEnd_opStat _ _ _
  have hend : (∃ regs obs groups out, u.opEnd .zeroisation .done = { u with
      regs := regs, obs := obs, rhb := { u.rhb with groups := groups }, out := out }) ∧ (u.opEnd .zeroisation .done).obs.cnt = u.obs.cnt := by
    unfold State.opEnd
    dsimp only
    split
    · rw [cnt_raise, State.raise_frame]
      exact ⟨⟨_, _, _, _, rfl⟩, rfl⟩
    · exact ⟨⟨_, _, _, _, rfl⟩, rfl⟩
  generalize u.opEnd .zeroisation .done = v at hstat hend
  generalize hw : ({ v with sec.zero := none } : State) = w
  have hwstat : (w.event (leafOf 26 1) 0).rd (opStat .zeroisation) = opStatEnd (u.rd (opStat .zeroisation)) .done := by
    rw [(reports_event w (leafOf 26 1) 0).2 _ (by decide), ← hw]
    exact hstat
  obtain ⟨⟨_, _, _, _, hv⟩, hcnt⟩ := hend
  obtain ⟨_, huframe⟩ := huframe
  refine ⟨?_, ?_, ?_, ?_, ?_, raised_raise _ _ _ _ _ _⟩
  · rw [(reports_event w (leafOf 26 1) 0).1, ← hw, hv, huframe]
    exact ⟨_, _, _, _, rfl⟩
  · rw [State.event, cnt_raise, ← hw]
    refine hcnt.trans ?_
    rw [huframe]
  · rw [State.busy, State.bit, hwstat]
    exact bit_opStatEnd _ _
  · rw [State.bit, hwstat, opStatEnd, bit_setFld_in _ (by decide) (by decide) (by decide)]
    rfl
  · rw [State.fld, hwstat, opStatEnd, Machine.fld_setFld_other _ (by decide) (by decide)]
    exact hufld

section
variable {s : State} {v : Word}

theorem getNonce_frame (h : s.sec.error = false) : (s.getNonce.sec.nonce.map fun n => n.toNat) = some (s.getNonce.rdWords (Reg.secAuthNonce 0) 12) ∧
    s.getNonce.sec.role = s.sec.role ∧ s.getNonce.sec.fails = s.sec.fails ∧ RegsBut nonceRegs s s.getNonce := by
  obtain ⟨_, drawn, drbg, hgen⟩ := generate_frame s
  obtain ⟨⟨regs, hframe⟩, hregs, hwords⟩ := setNonce_frame { s with drawn := drawn, sec.drbg := drbg } (some (Config.freeNonce s.generate.1))
  have hrun : s.getNonce = s.generate.2.setNonce (some (Config.freeNonce s.generate.1)) := by
    rw [State.getNonce, if_neg (by simp [h])]
  rw [hrun, hgen]
  refine ⟨?_, ?_, ?_, hregs⟩
  · rw [hwords, hframe]
    rfl
  · rw [hframe]
  · rw [hframe]

/-- A VERIFY that is not tried: no role to take, a lockout or the error state. -/
theorem verify_untried {role : Nat} (h : role = 0 ∨ role = 3 ∨ s.sec.locked.isSome = true ∨ s.sec.error = true) :
    (s.verify role).fld Reg.secAuthStatus 31 29 = 1 ∧ (s.verify role).sec = { s.sec with nonce := none } ∧
      RegsBut (Reg.secAuthStatus :: nonceRegs) s (s.verify role) := by
  obtain ⟨⟨regs, hframe⟩, hregs, -⟩ := setNonce_frame s none
  have hrun : s.verify role = (s.setNonce none).authEnd false := by
    rw [State.verify, if_pos h]
  obtain ⟨⟨hend, hother⟩, hfld⟩ := authEnd_frame (s.setNonce none) false
  rw [hrun]
  refine ⟨hfld, ?_, fun a ha => ?_⟩
  · rw [hend, hframe]
  · obtain ⟨hstatus, hnonce⟩ := not_or.mp (mt List.mem_cons.mpr ha)
    exact (hother a (by simpa using hstatus)).trans (hregs a hnonce)

variable {role : Nat} (hrole : role = 1 ∨ role = 2) (hlocked : s.sec.locked = none) (herror : s.sec.error = false)
include hrole hlocked herror

/-- A VERIFY that is tried. -/
theorem verify_tried : s.verify role = if s.verifyOk role then
    { (s.setNonce none).authEnd true with sec.fails := 0, sec.role := role } else (s.setNonce none).verifyFailed := by
  rw [State.verify, if_neg]
  rintro (h | h | h | h)
  · omega
  · omega
  · simp [hlocked] at h
  · simp [herror] at h

theorem verify_passed (hok : s.verifyOk role = true) : (s.verify role).fld Reg.secAuthStatus 31 29 = 2 ∧
    (s.verify role).sec = { s.sec with nonce := none, fails := 0, role := role } := by
  obtain ⟨⟨regs, hframe⟩, -⟩ := setNonce_frame s none
  obtain ⟨⟨hend, -⟩, hfld⟩ := authEnd_frame (s.setNonce none) true
  rw [verify_tried hrole hlocked herror, if_pos hok]
  have hsec : ((s.setNonce none).authEnd true).sec = { s.sec with nonce := none } := (congrArg State.sec hend).trans (congrArg State.sec hframe)
  generalize (s.setNonce none).authEnd true = u at hfld hsec
  exact ⟨hfld, congrArg (fun x : Sec => { x with fails := 0, role := role }) hsec⟩

theorem verify_failed (hok : s.verifyOk role = false) : (s.verify role).fld Reg.secAuthStatus 31 29 = 1 ∧
    Raised (leafOf 26 2) (s.verify role) ∧
    (s.verify role).sec = { s.sec with nonce := none, fails := s.sec.fails + 1, locked := if s.sec.fails + 1 = 8 then some s.raw else none } ∧
    (s.sec.fails + 1 = 8 → Raised (leafOf 26 3) (s.verify role)) := by
  obtain ⟨⟨regs, hframe⟩, -⟩ := setNonce_frame s none
  have h := verifyFailed_frame (s.setNonce none)
  rw [verify_tried hrole hlocked herror, if_neg (by simp [hok])]
  generalize (s.setNonce none).verifyFailed = t at h
  rw [hframe, hlocked] at h
  exact h

end

/-! ### The obligation -/

/-- Settles O60, command by command: the frame of the one operation that each runs. -/
theorem rolesFusesKeysAndZeroisation : Obligations.RolesFusesKeysAndZeroisation := by
  unfold Obligations.RolesFusesKeysAndZeroisation
  refine ⟨?_, ?_, ?_, ?_, ?_, ?_, ?_, ?_, ?_, ?_, ?_, ?_, ?_, ?_, ?_, ?_, ?_, ?_, ?_⟩
  · intro val s hgo hop
    have hrun : s.authCmd val = s.getNonce := by
      unfold State.authCmd
      rw [if_pos hgo, hop]
      rfl
    refine ⟨fun herror => ?_, fun herror => Runs.intro (t := s.authCmd val) rfl ?_⟩
    · refine congrArg Host.Outcome.next (hrun.trans ?_)
      rw [State.getNonce, if_pos herror]
    · rw [hrun]
      exact getNonce_frame herror
  · intro val s hgo hop
    have hrun := authCmd_verify hgo hop (s := s)
    refine ⟨fun h => Runs.intro (t := s.authCmd val) rfl ?_, fun hrole hlocked herror hok => Runs.intro (t := s.authCmd val) rfl ?_,
      fun hrole hlocked herror hok => Runs.intro (t := s.authCmd val) rfl ?_⟩
    · rw [hrun]
      exact verify_untried h
    · rw [hrun]
      exact verify_passed hrole hlocked herror hok
    · rw [hrun]
      exact verify_failed hrole hlocked herror hok
  · intro val s hgo hop
    refine congrArg Host.Outcome.next ?_
    unfold State.authCmd
    rw [if_pos hgo, hop]
    rfl
  · intro val s h
    have hrun := authCmd_idle h (s := s)
    exact ⟨congrArg Host.Outcome.next hrun, congrArg Host.Outcome.next hrun, congrArg Host.Outcome.next hrun⟩
  · intro at' s u hu hlocked
    refine congrArg Host.Outcome.next ?_
    rw [← hu, State.lockoutEnd, hlocked]
  · intro at' b s u hu hlocked
    have hrun : u.lockoutEnd = if b.toNat + 60000000000 * nsUnit ≤ u.raw.toNat then { u with sec.locked := none, sec.fails := 0 } else u := by
      rw [State.lockoutEnd, hlocked]
    refine ⟨fun h => congrArg Host.Outcome.next ?_, fun h => congrArg Host.Outcome.next ?_⟩
    · rw [← hu, hrun]
      exact if_pos h
    · rw [← hu, hrun]
      exact if_neg (Nat.not_le.mpr h)
  · intro val s hgo hidle hco
    have h := otpWrite_granted hgo hidle hco
    exact ⟨.intro rfl h, .intro rfl h, .intro rfl h, .intro rfl h⟩
  · intro val s hgo hidle hco
    have h := otpWrite_denied hgo hidle hco
    exact ⟨.intro rfl h, .intro rfl h, .intro rfl h, .intro rfl h⟩
  · intro val s h
    have h := otpWrite_ignored h
    exact ⟨.intro rfl h, .intro rfl h, .intro rfl h, .intro rfl h⟩
  · intro op slot value hash s hbusy
    refine ⟨?_, ?_, ?_, ?_, ?_, ?_⟩
    · rintro rfl hslot hnone
      exact .intro rfl (otpEnd_programmed hbusy (if_pos ⟨hslot, by rw [hnone]; rfl⟩))
    · rintro rfl hslot hrev hlast
      refine .intro rfl (otpEnd_programmed hbusy ?_)
      refine (if_neg ?_).trans (if_neg hlast)
      rintro (h | h)
      · omega
      · exact absurd (hrev.symm.trans h) (by decide)
    · rintro rfl hmin
      exact .intro rfl (otpEnd_programmed hbusy (if_pos hmin))
    · rintro rfl hmin
      exact .intro rfl (otpEnd_programmed hbusy (if_pos hmin))
    · rintro rfl hmin
      exact .intro rfl (otpEnd_refused hbusy (if_neg (Nat.not_lt.mpr hmin)))
    · rintro rfl hslot hrev hlast
      refine .intro rfl (otpEnd_refused (c := 3) hbusy ?_)
      refine (if_neg ?_).trans (if_pos hlast)
      rintro (h | h)
      · omega
      · exact absurd (hrev.symm.trans h) (by decide)
  · intro op slot value hash s hbusy h
    exact .intro rfl (otpEnd_refused hbusy (otpProgram_not_allowed _ hash h))
  · intro s hbusy
    refine congrArg Host.Outcome.next ?_
    rw [State.otpEnd, hbusy]
  · intro val s
    refine ⟨fun h31 h30 huser herror => Runs.intro (t := s.pairWrite val) rfl ?_,
      fun h30 huser => .intro rfl (pairWrite_clear h30 huser), fun h huser => ?_⟩
    · rw [pairWrite_store h31 h30 huser herror]
      obtain ⟨⟨regs, hframe⟩, hbit, hkcv, hregs⟩ := setPair_frame s (some s.pairStaged)
      exact ⟨by rw [hframe], hbit, hregs, hkcv⟩
    · obtain ⟨hsec, -, hbit, hcount, hraised⟩ := denied_shown s
      have hrun : Runs (.pairKeyWrite val) s fun t =>
          t.sec = s.sec ∧ t.bit Reg.secStatus 27 = true ∧ t.rd Reg.secDenied = satAdd (s.rd Reg.secDenied) 1 ∧ Raised (leafOf 26 5) t := by
        refine Runs.intro (t := s.pairWrite val) rfl ?_
        rw [pairWrite_denied h huser]
        exact ⟨hsec, hbit, hcount, hraised⟩
      intro c hc
      obtain rfl | rfl := by simpa using hc
      · exact hrun
      · exact hrun
  · intro val s h
    have hrun := pairWrite_idle h
    exact ⟨congrArg Host.Outcome.next hrun, congrArg Host.Outcome.next hrun⟩
  · intro test s
    obtain ⟨hsec, hraised, hbit, hcomm, hother⟩ := selftestFail_frame s test.isLt
    exact ⟨.intro rfl ⟨hsec, hraised, hbit⟩, fun hmode hphase => .intro rfl (hcomm hmode hphase), fun hmode => .intro rfl (hother (.inl hmode))⟩
  · intro val s
    refine ⟨fun h31 h30 hco hidle hmode => ?_, fun h31 hco => ?_, fun h31 => ?_⟩
    · have hrun : s.zeroCtrlWrite val = (s.wrTyped (opCtrl .zeroisation) val).zeroBegin (bit val 0) := by
        rw [State.zeroCtrlWrite, if_neg (by simp [hco]), opCtrlWrite_of_idle_start h31 h30 hidle]
        refine congrArg (State.zeroBegin _) ?_
        rw [State.opArg, State.fld, fld_low_odd]
        exact State.bit_wrTyped_rw _ _ (by decide) (by decide)
      have hu := (s.onlyRegs_wrTyped val (opCtrl .zeroisation)).1
      generalize s.wrTyped (opCtrl .zeroisation) val = u at hrun hu
      have hbegun := zeroBegin_begun u (bit val 0)
      refine Runs.intro (t := s.zeroCtrlWrite val) rfl ?_
      rw [hrun]
      refine ⟨hbegun.mode, hbegun.cause ?_, hbegun.busy, hbegun.zero, hbegun.otp.trans ?_, hbegun.idle⟩
      · rw [hu]
        exact hmode
      · rw [hu]
    · obtain ⟨hsec, hdev, hbit, hcount, -⟩ := denied_shown s
      refine Runs.intro (t := s.zeroCtrlWrite val) rfl ?_
      rw [State.zeroCtrlWrite, if_pos (by simp [h31, hco])]
      exact ⟨hsec, congrArg Dev.mode hdev, hbit, hcount⟩
    · refine Runs.intro (t := s.zeroCtrlWrite val) rfl ?_
      have hrun : s.zeroCtrlWrite val = s.wrTyped (opCtrl .zeroisation) val := by
        rw [State.zeroCtrlWrite, if_neg (by simp [h31])]
        unfold State.opCtrlWrite
        rw [h31]
        simp
      rw [hrun]
      exact s.onlyRegs_wrTyped val _
  · intro ns held s
    have hstart {u : State} (hu : u.sec.zero = none) (hlow : u.dev.zeroizeLow = held) :
        u.zeroPin.dev.zeroizeLow = held ∧ u.zeroPin.sec.zero = some ⟨true, false⟩ := by
      obtain ⟨-, w, hw, hbegun⟩ := zeroPin_begun u hu
      exact ⟨hbegun.pin.trans ((congrArg Dev.zeroizeLow hw).trans hlow), hbegun.zero⟩
    refine ⟨fun hns hzero hmode => Runs.intro (t := s.zeroizeN ns held) rfl ?_, fun hns hzero => Runs.intro (t := s.zeroizeN ns held) rfl ?_,
      fun hns => congrArg Host.Outcome.next ?_, fun hlow hhigh hzero => Runs.intro (t := s.zeroizeN ns held) rfl ?_⟩
    · rw [State.zeroizeN, if_pos hns]
      obtain ⟨hraised, w, hw, hbegun⟩ := zeroPin_begun { s with dev.zeroizeLow := held } hzero
      exact ⟨hbegun.mode, hbegun.pin.trans (congrArg Dev.zeroizeLow hw), hbegun.zero, hbegun.busy, hraised⟩
    · rw [State.zeroizeN, if_pos hns]
      exact zeroPin_widens { s with dev.zeroizeLow := held } hzero
    · rw [State.zeroizeN, if_neg (by omega), if_pos hns]
    · unfold State.zeroizeN
      dsimp only
      rw [if_neg (by omega), if_neg (by omega)]
      split
      · exact ⟨rfl, .inl hzero⟩
      · obtain ⟨hpin, hbegun⟩ := hstart (u := { s with dev.zeroizeLow := held, drawn := s.drawn + 1 }) hzero rfl
        exact ⟨hpin, .inr hbegun⟩
  · intro z s hz
    have hend (hstep : z.step1 = true) := zeroEnd_of_step1 hz hstep
    refine ⟨fun hstep => Runs.intro (t := s.zeroStep1) rfl ?_, fun hstep => congrArg Host.Outcome.next ?_,
      fun hstep => Runs.intro (t := s.zeroEnd) rfl ?_, fun hstep => congrArg Host.Outcome.next ?_⟩
    · have hrun : s.zeroStep1 = ({ s.wipeCsps with sec.zero := some { z with step1 := true } } : State).setBit Reg.secZeroOpPartial 0 true := by
        rw [State.zeroStep1, hz]
        exact if_neg (by simp [hstep])
      obtain ⟨hrole, hnonce, hkey, hdata, hotp, hkeys, hsas, hwords⟩ := wipeCsps_frame s
      rw [hrun]
      generalize s.wipeCsps = u at *
      refine ⟨rfl, hrole, hnonce, hkey, hdata, hotp, hkeys, hsas, ?_, ?_⟩
      · rw [State.bit, State.rd_setBit, if_pos rfl]
        exact bit_setBit_self _ (by decide) true
      · refine (State.rdWords_congr fun b hlow hhigh => ?_).trans hwords
        rw [State.rd_setBit, if_neg]
        · rfl
        · simp only [Reg.secAuthNonce] at hlow hhigh
          simp only [Reg.secZeroOpPartial]
          omega
    · rw [State.zeroStep1, hz]
      exact if_pos hstep
    · rw [hend hstep]
      obtain ⟨hsec, hslots, hfull⟩ := zeroWiped_frame s z.full
      generalize s.zeroWiped z.full = u at *
      obtain ⟨⟨_, _, _, _, hframe⟩, hcnt, hbusy, hdone, hprogress, hraised⟩ :=
        zeroFinished_frame u (progress := if z.full then 98592 else 6144) (by split <;> decide)
      refine ⟨by rw [hframe], by rw [hframe], hbusy, hdone, hprogress, hraised, ?_, ?_, fun h => ?_⟩
      · rw [hframe]
        exact (congrArg Sec.otp hsec :)
      · rw [hframe]
        exact hslots
      · obtain ⟨hpool, hvoq, hsxt, hcnt', hvalid⟩ := hfull h
        refine ⟨?_, ?_, ?_, hcnt.trans hcnt', ?_⟩
        · rw [hframe]
          exact hpool
        · rw [hframe]
          exact hvoq
        · rw [hframe]
          exact hsxt
        · rw [hframe]
          exact hvalid
    · rw [State.zeroEnd, hz]
      exact if_neg (by simp [hstep])
  · intro s hz
    refine ⟨congrArg Host.Outcome.next ?_, congrArg Host.Outcome.next ?_⟩
    · rw [State.zeroStep1, hz]
    · rw [State.zeroEnd, hz]

end Sys2Proof.Machine
end

section
/-!
PROOFS. Network and management ports that go down and come up (O18; R296, R299, R300).
-/
open Sys2Proof.Safety
namespace Sys2Proof.Machine

/-! ### What a device port's state and its flush leave alone -/

theorem flushed_keeps_raised {s t : State} (h : Flushed s t) {leaf : Nat} (hleaf : leaf < 2048) (hraised : Raised leaf s) : Raised leaf t :=
  raised_of_rd hleaf hraised fun k hk => h.1 _ (by
    simp only [flushRegs, List.mem_cons, List.not_mem_nil, or_false, Reg.chkInj, Reg.voqFlushDrop, Reg.almCreditLost, Reg.evtStatus]
    omega)

section
variable (s : State) (i : Nat)

theorem net_portState (st : Nat) : (s.portState i st).net = s.net := by
  obtain ⟨_, hstate⟩ := portState_frame s i st
  rw [hstate]

theorem net_flushPort : (s.flushPort i).net = s.net := by
  obtain ⟨u, ⟨-, _, _, _, _, _, _, _, _, hu⟩, hflush⟩ := flushPort_frame s i
  rw [hflush, State.event, State.raise_frame, hu]

theorem net_portDown : (s.portDown i).net = s.net := by
  unfold State.portDown
  dsimp only
  split
  · rfl
  · split
    · rw [net_flushPort, net_portState]
      rfl
    · rw [net_portState]
      rfl

theorem net_portUp : (s.portUp i).net = s.net := by
  unfold State.portUp
  split
  · rw [net_portState]
    rfl
  · rfl

variable {leaf : Nat} (hleaf : leaf < 2048)
include hleaf

theorem raised_portState (st : Nat) (h : Raised leaf s) : Raised leaf (s.portState i st) :=
  raised_of_rd hleaf h fun _ _ => rd_portState _ _ _ _

theorem raised_flushPort (h : Raised leaf s) : Raised leaf (s.flushPort i) := by
  obtain ⟨u, hu, hflush⟩ := flushPort_frame s i
  have hraised := flushed_keeps_raised hu hleaf h
  rw [hflush]
  generalize hv : ({ u with voq.dest := s.voq.dest.set (fun _ => 0) (destKey s.devId i) 2 } : State) = v
  have hregs : v.regs = u.regs := by rw [← hv]
  exact Raised.raise (raised_of_rd hleaf hraised fun _ _ => State.rd_of_regs hregs _) _ _ _ _ _

theorem raised_portDown (h : Raised leaf s) : Raised leaf (s.portDown i) := by
  have hhold (x : Hold) : Raised leaf (s.setHoldOf i x) := raised_of_rd hleaf h fun _ _ => rfl
  unfold State.portDown
  dsimp only
  split
  · exact h
  · split
    · exact raised_flushPort _ _ hleaf (raised_portState _ _ hleaf _ (hhold _))
    · exact raised_portState _ _ hleaf _ (hhold _)

theorem raised_portUp (h : Raised leaf s) : Raised leaf (s.portUp i) :=
  raised_of_rd hleaf h fun _ _ => rd_portUp _ _ _

end

/-! ### The causes of a port -/

/-- The port is enabled, has a personality, and its cage is on. -/
def State.netEnabled (s : State) (i : Nat) : Prop :=
  s.bit (Reg.netPortCfg i) 31 = true ∧ s.netPers i ≠ 0 ∧ (i < 24 → (s.pwr.cages.get (fun _ => {}) (48 + i)).st = .on)

section
variable {s : State} {i : Nat}

theorem netCause_enabled (h : s.netEnabled i) : s.netCause i =
    if s.bit (Reg.netPortStatus i) 30 = false ∨ s.bit (Reg.netPortCfg i) 29 = true then 3
    else if s.bit (Reg.netPortStatus i) 29 then 4 else if s.bit (Reg.netPortStatus i) 28 then 5 else 0 := by
  obtain ⟨hcfg, hpers, hcage⟩ := h
  unfold State.netCause
  dsimp only
  rw [if_neg (by
    rw [State.bit] at hcfg
    simp [hcfg, hpers]), if_neg]
  · simp only [State.bit, Bool.or_eq_true, Bool.not_eq_true']
    rfl
  · intro h
    simp only [Bool.and_eq_true, decide_eq_true_eq] at h
    obtain ⟨hi, hst⟩ := h
    rw [hcage hi] at hst
    exact absurd hst (by decide)

/-- A port that is down by no cause is in good state. -/
theorem netCause_zero (h : s.netCause i = 0) : s.netEnabled i ∧ s.bit (Reg.netPortStatus i) 30 = true ∧
    s.bit (Reg.netPortCfg i) 29 = false ∧ s.bit (Reg.netPortStatus i) 29 = false ∧ s.bit (Reg.netPortStatus i) 28 = false := by
  have henabled : s.netEnabled i := by
    unfold State.netCause at h
    dsimp only at h
    split at h
    · cases h
    · next hcfg =>
      split at h
      · cases h
      · next hcage =>
        simp only [Bool.or_eq_true, Bool.not_eq_true', beq_iff_eq, not_or, Bool.not_eq_false] at hcfg
        refine ⟨hcfg.1, hcfg.2, fun hi => ?_⟩
        simpa [hi] using hcage
  rw [netCause_enabled henabled] at h
  refine ⟨henabled, ?_⟩
  split at h
  · cases h
  · next hlock =>
    split at h
    · cases h
    · split at h
      · cases h
      · simp_all

theorem netCause_pos (h : s.bit (Reg.netPortStatus i) 30 = false ∨ s.bit (Reg.netPortCfg i) 29 = true ∨ s.bit (Reg.netPortStatus i) 29 = true ∨
    s.bit (Reg.netPortStatus i) 28 = true) : s.netCause i ≠ 0 := fun hzero => by
  obtain ⟨-, h30, hreset, h29, h28⟩ := netCause_zero hzero
  simp_all

/-- What enables a port lies in no register of its state. -/
theorem netEnabled_congr {t : State} (hcfg : t.bit (Reg.netPortCfg i) 31 = s.bit (Reg.netPortCfg i) 31)
    (hpers : t.rd (Reg.netPersonality i) = s.rd (Reg.netPersonality i)) (hpwr : t.pwr = s.pwr) (h : s.netEnabled i) : t.netEnabled i := by
  obtain ⟨h31, hp, hcage⟩ := h
  refine ⟨hcfg.trans h31, ?_, fun hi => by rw [hpwr]; exact hcage hi⟩
  unfold State.netPers State.fld at hp ⊢
  rw [hpers]
  exact hp

end

/-! ### A port follows its causes (R299) -/

theorem apartReg_net {i a : Nat} (hi : i < 26) (ha : a = Reg.netPortStatus i ∨ a = Reg.netPortCfg i ∨ a = Reg.netLinkDowns i) : apartReg a := by
  unfold apartReg eventReg
  simp only [flushRegs, List.mem_cons, List.not_mem_nil, or_false, Reg.netPortStatus, Reg.netPortCfg, Reg.netLinkDowns, Reg.evtStatus,
    Reg.evtBufDrop, Reg.merEvtLost, Reg.chkInj, Reg.voqFlushDrop, Reg.almCreditLost] at ha ⊢
  omega

section
variable {s : State} {i : Nat} (hi : i < 26)

theorem netFollow_held (hcause : s.netCause i ≠ 0) (hdown : s.netUp i = false) : s.netFollow i =
    (s.setFld (Reg.netPortStatus i) 26 24 (s.netCause i)).setNet i { s.netPort i with upAt := none } := by
  unfold State.netFollow
  dsimp only
  rw [if_pos hcause, hdown]
  rfl

theorem netFollow_settles (hcause : s.netCause i = 0) (hdown : s.netUp i = false) (hms : s.upMs i ≠ 0) (hat : (s.netPort i).upAt = none) :
    s.netFollow i = (s.setFld (Reg.netPortStatus i) 26 24 6).setNet i { s.netPort i with upAt := some (s.after (1000 * s.upMs i)) } := by
  unfold State.netFollow
  dsimp only
  rw [if_neg (not_not.mpr hcause), hdown, if_neg hms, hat]
  rfl

theorem netFollow_rises (hcause : s.netCause i = 0) (hdown : s.netUp i = false) (hms : s.upMs i = 0) : s.netFollow i = s.netComeUp i := by
  unfold State.netFollow
  dsimp only
  rw [if_neg (not_not.mpr hcause), hdown, if_pos hms]
  rfl

include hi

omit hi in
/-- What happens to a port that has gone down: the frame on the wire is lost, and the destination follows. -/
theorem fallen_frame (e : State) : (∀ a, apartReg a → (((e.txCut i).netIdle i).portDown (devPort i)).rd a = e.rd a) ∧
    (∀ leaf < 2048, Raised leaf e → Raised leaf (((e.txCut i).netIdle i).portDown (devPort i))) ∧
    ((((e.txCut i).netIdle i).portDown (devPort i)).netPort i).pause = (e.netPort i).pause := by
  have hcut : ((e.txCut i).netPort i).pause = (e.netPort i).pause := by
    unfold State.txCut
    dsimp only
    split
    · rfl
    · have hemit (u : State) (o : Output) : (u.emit o).netPort i = u.netPort i := rfl
      rw [hemit, State.netPort_setNet_self]
  have hrd := rd_txCut e i
  generalize e.txCut i = u at hcut hrd
  have hidle : (u.netIdle i).regs = u.regs ∧ (u.netIdle i).net = u.net := ⟨rfl, rfl⟩
  generalize u.netIdle i = v at hidle
  obtain ⟨hregs, hnet⟩ := hidle
  have hvrd (a : Nat) : v.rd a = e.rd a := (State.rd_of_regs hregs a).trans (hrd a)
  refine ⟨fun a ha => (rd_portDown _ _ ha).trans (hvrd a), fun leaf hleaf h => raised_portDown _ _ hleaf (raised_of_rd hleaf h fun _ _ => hvrd _), ?_⟩
  refine Eq.trans ?_ hcut
  unfold State.netPort
  rw [net_portDown, hnet]

/-- A port that goes down: its status shows the cause, its link-down is counted, its event raised, its pause timers stay. -/
theorem netFollow_falls (hcause : s.netCause i ≠ 0) (hup : s.netUp i = true) :
    (s.netFollow i).rd (Reg.netPortStatus i) = Machine.setBit (Machine.setFld (s.rd (Reg.netPortStatus i)) 26 24 (s.netCause i)) 31 false ∧
      (s.netFollow i).rd (Reg.netLinkDowns i) = satAdd (s.rd (Reg.netLinkDowns i)) 1 ∧ Raised (leafOf 8 i) (s.netFollow i) ∧
      ((s.netFollow i).netPort i).pause = (s.netPort i).pause := by
  have hleaf : leafOf 8 i < 2048 := by
    unfold leafOf
    omega
  have hstatus : Reg.netPortStatus i ≠ Reg.netLinkDowns i := by
    simp only [Reg.netPortStatus, Reg.netLinkDowns]
    omega
  unfold State.netFollow
  dsimp only
  rw [if_pos hcause, if_pos hup]
  have hshown : ((s.setFld (Reg.netPortStatus i) 26 24 (s.netCause i)).setNet i { s.netPort i with upAt := none }).rd (Reg.netPortStatus i) =
        Machine.setFld (s.rd (Reg.netPortStatus i)) 26 24 (s.netCause i) := by
    have hset (v : State) (x : NetPort) (a : Nat) : (v.setNet i x).rd a = v.rd a := rfl
    rw [hset, State.rd_setFld, if_pos rfl]
  have hcount := rd_causeShown s i (s.netCause i) { s.netPort i with upAt := none } hstatus.symm
  have hpause : (((s.setFld (Reg.netPortStatus i) 26 24 (s.netCause i)).setNet i { s.netPort i with upAt := none }).netPort i).pause =
      (s.netPort i).pause := by
    rw [State.netPort_setNet_self]
  generalize (s.setFld (Reg.netPortStatus i) 26 24 (s.netCause i)).setNet i { s.netPort i with upAt := none } = v at hshown hcount hpause
  have hw : ((v.setBit (Reg.netPortStatus i) 31 false).bump (Reg.netLinkDowns i)).rd (Reg.netPortStatus i) =
        Machine.setBit (Machine.setFld (s.rd (Reg.netPortStatus i)) 26 24 (s.netCause i)) 31 false ∧
      ((v.setBit (Reg.netPortStatus i) 31 false).bump (Reg.netLinkDowns i)).rd (Reg.netLinkDowns i) = satAdd (s.rd (Reg.netLinkDowns i)) 1 ∧
      ((v.setBit (Reg.netPortStatus i) 31 false).bump (Reg.netLinkDowns i)).net = v.net := by
    refine ⟨?_, ?_, rfl⟩
    · rw [State.rd_bump, if_neg hstatus, State.rd_setBit, if_pos rfl, hshown]
    · rw [State.rd_bump, if_pos rfl, State.rd_setBit, if_neg hstatus.symm, hcount]
  generalize (v.setBit (Reg.netPortStatus i) 31 false).bump (Reg.netLinkDowns i) = w at hw
  obtain ⟨hwstatus, hwcount, hwnet⟩ := hw
  have hraised : Raised (leafOf 8 i) (w.event (leafOf 8 i) i) := raised_raise _ _ _ _ _ _
  have hrd (a : Nat) (ha : apartReg a) : (w.event (leafOf 8 i) i).rd a = w.rd a := rd_event hleaf i ha
  have hnet : (w.event (leafOf 8 i) i).net = w.net := by rw [State.event, State.raise_frame]
  generalize w.event (leafOf 8 i) i = e at hraised hrd hnet
  obtain ⟨hfrd, hfraised, hfpause⟩ := fallen_frame (i := i) e
  have hapart (a : Nat) (ha : a = Reg.netPortStatus i ∨ a = Reg.netPortCfg i ∨ a = Reg.netLinkDowns i) := apartReg_net hi ha
  refine ⟨?_, ?_, hfraised _ hleaf hraised, hfpause.trans ?_⟩
  · rw [hfrd _ (hapart _ (.inl rfl)), hrd _ (hapart _ (.inl rfl)), hwstatus]
  · rw [hfrd _ (hapart _ (.inr (.inr rfl))), hrd _ (hapart _ (.inr (.inr rfl))), hwcount]
  · rw [← hpause, State.netPort, hnet, hwnet]
    rfl

/-- A port that comes up (R299), with the FEC of its settings (R296). -/
theorem netComeUp_shown : (s.netComeUp i).netUp i = true ∧ (s.netComeUp i).fld (Reg.netPortStatus i) 26 24 = 0 ∧
    ((s.netComeUp i).netPort i).upAt = none ∧ ((s.netComeUp i).netPort i).fec = s.fecFor i ∧ Raised (leafOf 8 i) (s.netComeUp i) := by
  have hleaf : leafOf 8 i < 2048 := by
    unfold leafOf
    omega
  unfold State.netComeUp
  generalize hv : ((s.setBit (Reg.netPortStatus i) 31 true).setFld (Reg.netPortStatus i) 26 24 0).setNet i
    { s.netPort i with upAt := none, fec := s.fecFor i } = v
  have hvrd : v.rd (Reg.netPortStatus i) = Machine.setFld (Machine.setBit (s.rd (Reg.netPortStatus i)) 31 true) 26 24 0 := by
    have hset (u : State) (x : NetPort) (a : Nat) : (u.setNet i x).rd a = u.rd a := rfl
    rw [← hv, hset, State.rd_setFld, if_pos rfl, State.rd_setBit, if_pos rfl]
  have hvport : v.netPort i = { s.netPort i with upAt := none, fec := s.fecFor i } := by rw [← hv, State.netPort_setNet_self]
  have hrd : ((v.event (leafOf 8 i) i).portUp (devPort i)).rd (Reg.netPortStatus i) = v.rd (Reg.netPortStatus i) := by
    rw [rd_portUp, rd_event hleaf i (apartReg_net hi (.inl rfl))]
  have hport : ((v.event (leafOf 8 i) i).portUp (devPort i)).netPort i = v.netPort i := by
    unfold State.netPort
    rw [net_portUp, State.event, State.raise_frame]
  refine ⟨?_, ?_, ?_, ?_, raised_portUp _ _ hleaf (raised_raise _ _ _ _ _ _)⟩
  · rw [State.netUp, State.bit, hrd, hvrd, bit_setFld_out _ (by decide) (.inr (by decide)), bit_setBit_self _ (by decide)]
  · rw [State.fld, hrd, hvrd, Machine.fld_setFld_self _ (by decide) (by decide)]
    rfl
  · rw [hport, hvport]
  · rw [hport, hvport]

end

/-! ### Failures, good state and resets -/

section
variable {s : State} {i : Nat}

/-- The status that a failure leaves: PCS lock lost, local fault, remote fault. -/
def failedStatus (w : Word) (what : Nat) : Word :=
  if what = 0 then Machine.setBit w 30 false else if what = 1 then Machine.setBit w 29 true else Machine.setBit w 28 true

theorem netFail_eq (s : State) (i what : Nat) : s.netFail i what =
    (s.wr (Reg.netPortStatus i) (failedStatus (s.rd (Reg.netPortStatus i)) what)).netFollow i := by
  unfold State.netFail failedStatus
  split
  · rfl
  · split
    · rfl
    · rfl

/-- A failure on a port in good state is its cause. -/
theorem failedStatus_bits (w : Word) {what : Nat} (hwhat : what < 3) :
    bit (failedStatus w what) 31 = bit w 31 ∧ bit (failedStatus w what) 30 = (if what = 0 then false else bit w 30) ∧
      bit (failedStatus w what) 29 = (if what = 1 then true else bit w 29) ∧ bit (failedStatus w what) 28 = (if what = 2 then true else bit w 28) := by
  unfold failedStatus
  obtain rfl | rfl | rfl : what = 0 ∨ what = 1 ∨ what = 2 := by omega
  · refine ⟨bit_setBit_other w (by decide) (by decide) _, bit_setBit_self w (by decide) _, bit_setBit_other w (by decide) (by decide) _,
      bit_setBit_other w (by decide) (by decide) _⟩
  · refine ⟨bit_setBit_other w (by decide) (by decide) _, bit_setBit_other w (by decide) (by decide) _, bit_setBit_self w (by decide) _,
      bit_setBit_other w (by decide) (by decide) _⟩
  · refine ⟨bit_setBit_other w (by decide) (by decide) _, bit_setBit_other w (by decide) (by decide) _, bit_setBit_other w (by decide) (by decide) _,
      bit_setBit_self w (by decide) _⟩

theorem netPortStatus_apart (i : Nat) : Reg.netPortCfg i ≠ Reg.netPortStatus i ∧ Reg.netPersonality i ≠ Reg.netPortStatus i ∧
    Reg.netCtrl ≠ Reg.netPortStatus i ∧ Reg.netPersonality i ≠ Reg.netPortCfg i ∧ Reg.netLinkDowns i ≠ Reg.netPortStatus i ∧
    Reg.netLinkDowns i ≠ Reg.netPortCfg i := by
  simp only [Reg.netPortCfg, Reg.netPortStatus, Reg.netPersonality, Reg.netCtrl, Reg.netLinkDowns]
  omega

/-- From `s` to `t` the registers of the list and the block of the port may have changed, and nothing else. -/
def PortHeld (regs : List Nat) (i : Nat) (s t : State) : Prop :=
  RegsBut regs s t ∧ t = { s with regs := t.regs, net := t.net } ∧ SameBut State.netPort [i] s t

theorem PortHeld.of_onlyRegs {u : State} {regs : List Nat} (h : OnlyRegs regs s u) : PortHeld regs i s u := by
  obtain ⟨hu, hregs⟩ := h
  refine ⟨hregs, ?_, fun k _ => ?_⟩
  · rw [hu]
  · rw [hu]
    rfl

theorem PortHeld.wr {u : State} {regs : List Nat} (h : PortHeld regs i s u) {a : Nat} (ha : a ∈ regs) (v : Word) :
    PortHeld regs i s (u.wr a v) := by
  obtain ⟨hregs, hframe, hport⟩ := h
  refine ⟨fun b hb => ?_, ?_, hport⟩
  · rw [State.rd_wr_other _ _ (fun heq => hb (by rw [heq]; exact ha))]
    exact hregs b hb
  · rw [hframe]
    rfl

theorem PortHeld.setNet {u : State} {regs : List Nat} (h : PortHeld regs i s u) (x : NetPort) : PortHeld regs i s (u.setNet i x) := by
  obtain ⟨hregs, hframe, hport⟩ := h
  refine ⟨hregs, ?_, fun k hk => ?_⟩
  · rw [hframe]
    rfl
  · rw [State.netPort_setNet, if_neg (List.ne_of_not_mem_cons hk)]
    exact hport k hk

/-- A cause shown in the status register of the port, with its block. -/
theorem PortHeld.shown {u : State} {regs : List Nat} (h : PortHeld regs i s u) (hstatus : Reg.netPortStatus i ∈ regs) (c : Nat) (x : NetPort) :
    PortHeld regs i s ((u.setFld (Reg.netPortStatus i) 26 24 c).setNet i x) := (h.wr hstatus _).setNet x

/-- What a port in good state shows, with the inverted polarities of its lanes and the end of its training. -/
def goodStatus (w : Word) (polInv : Nat) (trained : Bool) : Word :=
  Machine.setFld (Machine.setBit (Machine.setBit (Machine.setBit (Machine.setBit w 30 true) 29 false) 28 false) 27 trained) 19 16 polInv

theorem goodStatus_bits (w : Word) {polInv : Nat} (hpol : polInv < 16) (trained : Bool) :
    bit (goodStatus w polInv trained) 31 = bit w 31 ∧ bit (goodStatus w polInv trained) 30 = true ∧ bit (goodStatus w polInv trained) 29 = false ∧
      bit (goodStatus w polInv trained) 28 = false ∧ bit (goodStatus w polInv trained) 27 = trained ∧
      Machine.fld (goodStatus w polInv trained) 19 16 = polInv := by
  unfold goodStatus
  have hout (v : Word) (k : Nat) (hk : 20 ≤ k) : bit (Machine.setFld v 19 16 polInv) k = bit v k := bit_setFld_out v (by decide) (.inr (by omega)) _
  refine ⟨?_, ?_, ?_, ?_, ?_, (Machine.fld_setFld_self _ (by decide) (by decide) _).trans (Nat.mod_eq_of_lt hpol)⟩
  · rw [hout _ _ (by decide)]
    simp [bit_setBit_other]
  · rw [hout _ _ (by decide)]
    simp [bit_setBit_other]
  · rw [hout _ _ (by decide)]
    simp [bit_setBit_other]
  · rw [hout _ _ (by decide)]
    simp [bit_setBit_other]
  · rw [hout _ _ (by decide)]
    simp

end

/-! ### The obligation -/

/-- A failure takes a port that is up down (R299). -/
theorem netFail_falls {s : State} {i what : Nat} (hi : i < 26) (hwhat : what < 3) (hup : s.netUp i = true) (hcause : s.netCause i = 0) :
    (s.netFail i what).netUp i = false ∧ (s.netFail i what).fld (Reg.netPortStatus i) 26 24 = 3 + what ∧
      (s.netFail i what).bit (Reg.netPortStatus i) 30 = (what != 0) ∧ (s.netFail i what).bit (Reg.netPortStatus i) 29 = (what == 1) ∧
      (s.netFail i what).bit (Reg.netPortStatus i) 28 = (what == 2) ∧
      (s.netFail i what).rd (Reg.netLinkDowns i) = satAdd (s.rd (Reg.netLinkDowns i)) 1 ∧ Raised (leafOf 8 i) (s.netFail i what) := by
  obtain ⟨henabled, h30, hreset, h29, h28⟩ := netCause_zero hcause
  obtain ⟨hcfg, hpers, -, -, hdowns, -⟩ := netPortStatus_apart i
  obtain ⟨h31', h30', h29', h28'⟩ := failedStatus_bits (s.rd (Reg.netPortStatus i)) hwhat
  rw [State.bit] at h30 h29 h28
  rw [h30] at h30'
  rw [h29] at h29'
  rw [h28] at h28'
  rw [netFail_eq]
  generalize failedStatus (s.rd (Reg.netPortStatus i)) what = w at *
  have hself : (s.wr (Reg.netPortStatus i) w).rd (Reg.netPortStatus i) = w := State.rd_wr_self _ _ _
  have hother {a : Nat} (ha : a ≠ Reg.netPortStatus i) : (s.wr (Reg.netPortStatus i) w).rd a = s.rd a := State.rd_wr_other _ _ ha
  have hpwr : (s.wr (Reg.netPortStatus i) w).pwr = s.pwr := rfl
  generalize s.wr (Reg.netPortStatus i) w = u at hself hother hpwr
  have huenabled : u.netEnabled i := netEnabled_congr (congrArg (Machine.bit · 31) (hother hcfg)) (hother hpers) hpwr henabled
  have hucause : u.netCause i = 3 + what := by
    rw [netCause_enabled huenabled, State.bit, State.bit, State.bit, State.bit, hself, hother hcfg, h30', h29', h28']
    rw [State.bit] at hreset
    rw [hreset]
    obtain h | h | h : what = 0 ∨ what = 1 ∨ what = 2 := by omega
    · simp [h]
    · simp [h]
    · simp [h]
  have huup : u.netUp i = true := by
    rw [State.netUp, State.bit, hself, h31']
    exact hup
  obtain ⟨hstatus, hcount, hraised, -⟩ := netFollow_falls hi (by rw [hucause]; omega) huup
  rw [hself, hucause] at hstatus
  have hbit (k : Nat) (hk : k < 24 ∨ 26 < k) (hk' : k ≠ 31) : (u.netFollow i).bit (Reg.netPortStatus i) k = bit w k := by
    rw [State.bit, hstatus, bit_setBit_other _ (by decide) hk', bit_setFld_out _ (by decide) hk]
  refine ⟨?_, ?_, ?_, ?_, ?_, hcount.trans (by rw [hother hdowns]), hraised⟩
  · rw [State.netUp, State.bit, hstatus, bit_setBit_self _ (by decide)]
  · rw [State.fld, hstatus, Machine.setBit, Machine.fld_setFld_other _ (by decide) (by decide), Machine.fld_setFld_self _ (by decide) (by decide)]
    omega
  · rw [hbit _ (by decide) (by decide), h30']
    obtain h | h : what = 0 ∨ what ≠ 0 := by omega
    · simp [h]
    · simp [h]
  · rw [hbit _ (by decide) (by decide), h29']
    obtain h | h : what = 1 ∨ what ≠ 1 := by omega
    · simp [h]
    · simp [h]
  · rw [hbit _ (by decide) (by decide), h28']
    obtain h | h : what = 2 ∨ what ≠ 2 := by omega
    · simp [h]
    · simp [h]

/-- A failure on a port that is down shows in its status alone. -/
theorem netFail_held {s : State} {i what : Nat} (hwhat : what < 3) (hdown : s.netUp i = false) :
    (s.netFail i what).netUp i = false ∧ RegsBut [Reg.netPortStatus i] s (s.netFail i what) ∧
      s.netFail i what = { s with regs := (s.netFail i what).regs, net := (s.netFail i what).net } ∧
      SameBut State.netPort [i] s (s.netFail i what) := by
  obtain ⟨h31, h30, h29, h28⟩ := failedStatus_bits (s.rd (Reg.netPortStatus i)) hwhat
  rw [netFail_eq]
  generalize failedStatus (s.rd (Reg.netPortStatus i)) what = w at *
  have hu := onlyRegs_wr s (Reg.netPortStatus i) w
  have hself : (s.wr (Reg.netPortStatus i) w).rd (Reg.netPortStatus i) = w := State.rd_wr_self _ _ _
  generalize s.wr (Reg.netPortStatus i) w = u at hu hself
  have hucause : u.netCause i ≠ 0 := by
    refine netCause_pos ?_
    simp only [State.bit, hself, h30, h29, h28]
    obtain h | h | h : what = 0 ∨ what = 1 ∨ what = 2 := by omega
    · simp [h]
    · simp [h]
    · simp [h]
  have hudown : u.netUp i = false := by
    rw [State.netUp, State.bit, hself, h31]
    exact hdown
  have hfollow := netFollow_held hucause hudown
  refine ⟨?_, by rw [hfollow]; exact (PortHeld.of_onlyRegs hu).shown List.mem_cons_self _ _⟩
  have hset (v : State) (x : NetPort) (a : Nat) : (v.setNet i x).rd a = v.rd a := rfl
  rw [State.netUp, State.bit, hfollow, hset, State.rd_setFld, if_pos rfl, bit_setFld_out _ (by decide) (.inr (by decide))]
  exact hudown

/-- What a port in good state shows before it follows its causes. -/
theorem netGood_eq {s : State} (hmode : s.dev.mode ≠ .load) (i polInv : Nat) (trained : Bool) : ∃ u, OnlyRegs [Reg.netPortStatus i] s u ∧
    u.rd (Reg.netPortStatus i) = goodStatus (s.rd (Reg.netPortStatus i)) polInv (trained && s.ltEn i) ∧
    s.netGood i polInv trained = u.netFollow i := by
  refine ⟨_, ?_, ?_, if_neg hmode⟩
  · exact ((((onlyRegs_wr s _ _).comp (onlyRegs_wr _ _ _)).comp (onlyRegs_wr _ _ _)).comp (onlyRegs_wr _ _ _)).comp (onlyRegs_wr _ _ _)
  · rw [State.rd_setFld, if_pos rfl, State.rd_setBit, if_pos rfl, State.rd_setBit, if_pos rfl, State.rd_setBit, if_pos rfl,
      State.rd_setBit, if_pos rfl]
    rfl

/-- A port that is enabled and in good state has no cause to be down. -/
theorem netGood_ready {s u : State} {i polInv : Nat} {trained : Bool} (hpol : polInv < 16) (henabled : s.netEnabled i)
    (hreset : s.bit (Reg.netPortCfg i) 29 = false) (hdown : s.netUp i = false) (hu : OnlyRegs [Reg.netPortStatus i] s u)
    (hstatus : u.rd (Reg.netPortStatus i) = goodStatus (s.rd (Reg.netPortStatus i)) polInv trained) :
    u.netCause i = 0 ∧ u.netUp i = false ∧ u.upMs i = s.upMs i ∧ u.netPort i = s.netPort i ∧ u.fecFor i = s.fecFor i ∧ u.raw = s.raw := by
  obtain ⟨hcfg, hpers, hctrl, -⟩ := netPortStatus_apart i
  obtain ⟨h31, h30, h29, h28, -, -⟩ := goodStatus_bits (s.rd (Reg.netPortStatus i)) hpol trained
  obtain ⟨hframe, hregs⟩ := hu
  have hrcfg := hregs (Reg.netPortCfg i) (by simpa only [List.mem_singleton] using hcfg)
  have hrpers := hregs (Reg.netPersonality i) (by simpa only [List.mem_singleton] using hpers)
  have hrctrl := hregs Reg.netCtrl (by simpa only [List.mem_singleton] using hctrl)
  have huenabled : u.netEnabled i := netEnabled_congr (congrArg (Machine.bit · 31) hrcfg) hrpers (by rw [hframe]) henabled
  refine ⟨?_, ?_, ?_, ?_, ?_, by rw [hframe]⟩
  · rw [netCause_enabled huenabled, State.bit, State.bit, State.bit, State.bit, hstatus, hrcfg, h30, h29, h28]
    rw [State.bit] at hreset
    simp [hreset]
  · rw [State.netUp, State.bit, hstatus, h31]
    exact hdown
  · unfold State.upMs State.bit State.fld
    rw [hrctrl, hrcfg]
  · rw [hframe]
    rfl
  · unfold State.fecFor State.netPers State.bit State.fld
    rw [hrctrl, hrcfg, hrpers]

/-- The fields of a status in which a cause is shown. -/
theorem rd_shown (u : State) (i c : Nat) (x : NetPort) : ((u.setFld (Reg.netPortStatus i) 26 24 c).setNet i x).rd (Reg.netPortStatus i) =
    Machine.setFld (u.rd (Reg.netPortStatus i)) 26 24 c := by
  have hset (v : State) (y : NetPort) (a : Nat) : (v.setNet i y).rd a = v.rd a := rfl
  rw [hset, State.rd_setFld, if_pos rfl]

/-- A port that stays enabled, whatever its own registers show. -/
theorem PortHeld.enabled {s u : State} {i : Nat} (h : PortHeld [Reg.netPortStatus i, Reg.netPortCfg i] i s u)
    (henable : u.bit (Reg.netPortCfg i) 31 = true) (hpers : s.netPers i ≠ 0)
    (hcage : i < 24 → (s.pwr.cages.get (fun _ => {}) (48 + i)).st = .on) : u.netEnabled i := by
  obtain ⟨-, hstatus, -, hcfg, -⟩ := netPortStatus_apart i
  obtain ⟨hregs, hframe, -⟩ := h
  have hrd := hregs (Reg.netPersonality i) (by
    simp only [List.mem_cons, List.not_mem_nil, or_false, not_or]
    exact ⟨hstatus, hcfg⟩)
  refine ⟨henable, ?_, fun hi => ?_⟩
  · unfold State.netPers State.fld at hpers ⊢
    rw [hrd]
    exact hpers
  · rw [hframe]
    exact hcage hi

/-- A port that is held down without PCS lock, with its settling timer stopped. -/
theorem netFollow_unlocked {s u : State} {i : Nat} (h : PortHeld [Reg.netPortStatus i, Reg.netPortCfg i] i s u) (henabled : u.netEnabled i)
    (hlock : u.bit (Reg.netPortStatus i) 30 = false) (hdown : u.netUp i = false) :
    u.netFollow i = (u.setFld (Reg.netPortStatus i) 26 24 3).setNet i { u.netPort i with upAt := none } ∧
      (u.netFollow i).fld (Reg.netPortStatus i) 26 24 = 3 ∧
      (u.netFollow i).bit (Reg.netPortCfg i) 29 = u.bit (Reg.netPortCfg i) 29 ∧
      PortHeld [Reg.netPortStatus i, Reg.netPortCfg i] i s (u.netFollow i) := by
  obtain ⟨hcfg, -⟩ := netPortStatus_apart i
  have hcause : u.netCause i = 3 := by
    rw [netCause_enabled henabled]
    exact if_pos (.inl hlock)
  have hfollow := netFollow_held (s := u) (i := i) (by rw [hcause]; decide) hdown
  rw [hcause] at hfollow
  refine ⟨hfollow, ?_, ?_, ?_⟩
  · rw [State.fld, hfollow, rd_shown, Machine.fld_setFld_self _ (by decide) (by decide)]
    rfl
  · rw [State.bit, hfollow, rd_causeShown _ _ _ _ hcfg]
    rfl
  · rw [hfollow]
    exact h.shown List.mem_cons_self _ _

/-- A W1S bit written 1 is set. -/
theorem bit_wrTyped_w1s (s : State) {a j : Nat} {v : Word} (h : ((regAt a).any fun e => e.1.w1sMask.getLsbD j) = true) (hj : j < 32)
    (hv : bit v j = true) : (s.wrTyped a v).bit a j = true := by
  unfold State.wrTyped
  split
  · next d k hreg =>
    rw [hreg, Option.any_some] at h
    rw [State.bit, State.rd_wr_self, Machine.bit, writesFollowFieldTypesBitByBit d _ v j hj, h]
    rw [bit] at hv
    rw [hv]
    rfl
  · next hreg =>
    rw [hreg] at h
    cases h

/-- PORT_RESET is W1S and ENABLE is RW in every NET_PORT_CFG: decided over the ports. -/
theorem netPortCfg_fields : ∀ i : Fin 26, ((regAt (Reg.netPortCfg i)).any fun e => e.1.w1sMask.getLsbD 29) = true ∧
    (readWrite (Reg.netPortCfg i)).getLsbD 31 = true := by decide

/-- What a reset that begins leaves before the port follows its causes. -/
theorem netReset_eq {s : State} {i : Nat} (hi : i < 26) {v : Word} (hmapped : s.netMapped i false = true)
    (hidle : s.bit (Reg.netPortCfg i) 29 = false) (hv : bit v 29 = true) : ∃ u, s.netCfgWrite i v = u.netFollow i ∧ PortHeld [Reg.netPortStatus i, Reg.netPortCfg i] i s u ∧
      (u.netPort i).pause = [] ∧ (u.netPort i).fec = 0 ∧ u.bit (Reg.netPortCfg i) 29 = true ∧ u.bit (Reg.netPortCfg i) 31 = bit v 31 ∧
      u.bit (Reg.netPortStatus i) 30 = false ∧ u.netUp i = s.netUp i := by
  obtain ⟨hcfg, -⟩ := netPortStatus_apart i
  obtain ⟨hw1s, hrw⟩ := netPortCfg_fields ⟨i, hi⟩
  have hset := bit_wrTyped_w1s s hw1s (by decide) hv
  have henable := s.bit_wrTyped_rw v hrw (by decide)
  have hheld : PortHeld [Reg.netPortStatus i, Reg.netPortCfg i] i s (s.wrTyped (Reg.netPortCfg i) v) :=
    .of_onlyRegs ((s.onlyRegs_wrTyped v _).mono (by simp))
  have hup : (s.wrTyped (Reg.netPortCfg i) v).netUp i = s.netUp i := congrArg (Machine.bit · 31) (State.rd_wrTyped_other _ _ hcfg.symm)
  have hrun : s.netCfgWrite i v = (((((s.wrTyped (Reg.netPortCfg i) v).setNet i
      { (s.wrTyped (Reg.netPortCfg i) v).netPort i with pause := [], upAt := none, fec := 0 }).setBit (Reg.netPortStatus i) 30 false).setBit
        (Reg.netPortStatus i) 27 false).setFld (Reg.netPortStatus i) 19 16 0).netFollow i := by
    unfold State.netCfgWrite
    rw [hmapped, hidle, hv]
    rfl
  generalize s.wrTyped (Reg.netPortCfg i) v = u at *
  have hsetrd (x : NetPort) (a : Nat) : (u.setNet i x).rd a = u.rd a := rfl
  have hport (w : State) (a : Nat) (x : Word) : (w.wr a x).netPort i = w.netPort i := rfl
  have hmem : Reg.netPortStatus i ∈ [Reg.netPortStatus i, Reg.netPortCfg i] := List.mem_cons_self
  refine ⟨_, hrun, (((hheld.setNet _).wr hmem _).wr hmem _).wr hmem _, ?_, ?_, ?_, ?_, ?_, ?_⟩
  · unfold State.setFld State.setBit
    rw [hport, hport, hport, State.netPort_setNet_self]
  · unfold State.setFld State.setBit
    rw [hport, hport, hport, State.netPort_setNet_self]
  · rw [State.bit, State.rd_setFld, if_neg hcfg, State.rd_setBit, if_neg hcfg, State.rd_setBit, if_neg hcfg, hsetrd]
    exact hset
  · rw [State.bit, State.rd_setFld, if_neg hcfg, State.rd_setBit, if_neg hcfg, State.rd_setBit, if_neg hcfg, hsetrd]
    exact henable
  · rw [State.bit, State.rd_setFld, if_pos rfl, bit_setFld_out _ (by decide) (.inr (by decide)), State.rd_setBit, if_pos rfl,
      bit_setBit_other _ (by decide) (by decide), State.rd_setBit, if_pos rfl, bit_setBit_self _ (by decide)]
  · rw [State.netUp, State.bit, State.rd_setFld, if_pos rfl, bit_setFld_out _ (by decide) (.inr (by decide)), State.rd_setBit, if_pos rfl,
      bit_setBit_other _ (by decide) (by decide), State.rd_setBit, if_pos rfl, bit_setBit_other _ (by decide) (by decide), hsetrd]
    exact hup

/-- Settles O18, by the ways in which a port follows its causes: it falls, is held, settles or rises. -/
theorem portsGoDownAtFailuresAndSettleInGoodState : Obligations.PortsGoDownAtFailuresAndSettleInGoodState := by
  unfold Obligations.PortsGoDownAtFailuresAndSettleInGoodState
  refine ⟨?_, ?_, ?_, ?_, ?_, ?_, ?_, ?_, ?_, ?_, ?_⟩
  · intro i what s hup hcause
    exact .intro rfl (netFail_falls i.isLt what.isLt hup hcause)
  · intro i what s hdown hcause
    exact .intro rfl (netFail_held what.isLt hdown)
  · intro i polInv trained s hmode hdown hcfg hpers hreset hnet hcage hms hat
    obtain ⟨u, hu, hstatus, hrun⟩ := netGood_eq hmode i.val polInv.val trained
    obtain ⟨hcause, hudown, hums, huport, -, huraw⟩ := netGood_ready polInv.isLt ⟨hcfg, hpers, fun _ => hcage⟩ hreset hdown hu hstatus
    obtain ⟨-, h30, -, -, h27, hpol⟩ := goodStatus_bits (s.rd (Reg.netPortStatus i.val)) polInv.isLt (trained && s.ltEn i.val)
    have hfollow := netFollow_settles hcause hudown (by rwa [hums]) (by rwa [huport])
    refine Runs.intro (t := s.netGood i.val polInv.val trained) rfl ?_
    rw [hrun]
    have hshown := rd_shown u i.val 6 { u.netPort i.val with upAt := some (u.after (1000 * u.upMs i.val)) }
    rw [← hfollow, hstatus] at hshown
    refine ⟨?_, ?_, ?_, ?_, ?_, by rw [hfollow]; exact (PortHeld.of_onlyRegs hu).shown List.mem_cons_self _ _⟩
    · rw [State.fld, hshown, Machine.fld_setFld_self _ (by decide) (by decide)]
      rfl
    · rw [State.fld, hshown, Machine.fld_setFld_other _ (by decide) (by decide), hpol]
    · rw [State.bit, hshown, bit_setFld_out _ (by decide) (.inr (by decide)), h30]
    · rw [State.bit, hshown, bit_setFld_out _ (by decide) (.inr (by decide)), h27]
    · rw [hfollow, State.netPort_setNet_self, hums, State.after, huraw]
      rfl
  · intro i polInv trained s hmode hdown hcfg hpers hreset hnet hcage hms
    obtain ⟨u, hu, hstatus, hrun⟩ := netGood_eq hmode i.val polInv.val trained
    obtain ⟨hcause, hudown, hums, -, hfec, -⟩ := netGood_ready polInv.isLt ⟨hcfg, hpers, fun _ => hcage⟩ hreset hdown hu hstatus
    refine Runs.intro (t := s.netGood i.val polInv.val trained) rfl ?_
    obtain ⟨hup, hzero, hat, hport, -⟩ := netComeUp_shown (s := u) i.isLt
    rw [hrun, netFollow_rises hcause hudown (by rwa [hums]), ← hfec]
    exact ⟨hup, hzero, hat, hport⟩
  · intro i polInv trained s hmode
    exact congrArg Host.Outcome.next (if_pos hmode)
  · intro i at' s u e hu hat hreached hcause
    refine Runs.intro (t := u.netComeUp i.val) (congrArg Host.Outcome.next ?_) (netComeUp_shown i.isLt)
    rw [← hu, State.netTimer, hat]
    exact if_pos ⟨hreached, hcause⟩
  · intro i at' s u hu hat
    refine congrArg Host.Outcome.next ?_
    rw [← hu]
    unfold State.netTimer
    split
    · next e he =>
      rw [he] at hat
      exact if_neg fun h => absurd (hat.symm.trans h.1) (by decide)
    · rfl
  · intro i val s hmapped hidle hreset hdown hval hpers hnet hcage
    obtain ⟨u, hrun, hu, hpause, hfec, hset, henable, hlock, hup⟩ := netReset_eq i.isLt hmapped hidle hreset
    obtain ⟨hfollow, hcause, hkept, hheld⟩ := netFollow_unlocked hu (hu.enabled (henable.trans hval) hpers fun _ => hcage) hlock (hup.trans hdown)
    refine Runs.intro (t := s.netCfgWrite i.val val) rfl ?_
    have hport : (u.netFollow i.val).netPort i.val = { u.netPort i.val with upAt := none } := by
      rw [hfollow, State.netPort_setNet_self]
    have hunlocked : (u.netFollow i.val).bit (Reg.netPortStatus i.val) 30 = false := by
      rw [State.bit, hfollow, rd_shown, bit_setFld_out _ (by decide) (.inr (by decide))]
      exact hlock
    rw [hrun]
    exact ⟨by rw [hport]; exact hpause, by rw [hport], by rw [hport]; exact hfec, hunlocked, hkept.trans hset, hcause, hheld⟩
  · intro i val s hmapped hidle hreset hup'
    obtain ⟨u, hrun, hu, hpause, hfec, hset, henable, hlock, hup⟩ := netReset_eq i.isLt hmapped hidle hreset
    obtain ⟨hcfg, -, -, -, hdowns, hdowns'⟩ := netPortStatus_apart i.val
    obtain ⟨hstatus, hcount, hraised, hkept⟩ := netFollow_falls i.isLt (netCause_pos (.inl hlock)) (hup.trans hup')
    refine Runs.intro (t := s.netCfgWrite i.val val) rfl ?_
    rw [hrun]
    refine ⟨?_, ?_, hkept.trans hpause, hcount.trans ?_, hraised⟩
    · rw [State.netUp, State.bit, hstatus, bit_setBit_self _ (by decide)]
    · rw [State.bit, rd_netFollow u i.isLt (apartReg_net i.isLt (.inr (.inl rfl))) hcfg (Ne.symm hdowns')]
      exact hset
    · rw [hu.1 _ (by simp only [List.mem_cons, List.not_mem_nil, or_false, not_or]; exact ⟨hdowns, hdowns'⟩)]
  · intro i s hreset hdown henable hpers hnet hcage
    obtain ⟨hcfg, -⟩ := netPortStatus_apart i.val
    have hu : PortHeld [Reg.netPortStatus i.val, Reg.netPortCfg i.val] i.val s
        ((s.setBit (Reg.netPortCfg i.val) 29 false).setBit (Reg.netPortStatus i.val) 30 false) :=
      .of_onlyRegs (((onlyRegs_wr s _ _).mono (by simp)).comp ((onlyRegs_wr _ _ _).mono (by simp)))
    have hrun : s.netResetEnd i.val false =
        ((s.setBit (Reg.netPortCfg i.val) 29 false).setBit (Reg.netPortStatus i.val) 30 false).netFollow i.val := by
      rw [State.netResetEnd, if_pos hreset]
    have hcfgrd : ((s.setBit (Reg.netPortCfg i.val) 29 false).setBit (Reg.netPortStatus i.val) 30 false).rd (Reg.netPortCfg i.val) =
        Machine.setBit (s.rd (Reg.netPortCfg i.val)) 29 false := by
      rw [State.rd_setBit, if_neg hcfg, State.rd_setBit, if_pos rfl]
    have hstatus : ((s.setBit (Reg.netPortCfg i.val) 29 false).setBit (Reg.netPortStatus i.val) 30 false).rd (Reg.netPortStatus i.val) =
        Machine.setBit (s.rd (Reg.netPortStatus i.val)) 30 false := by
      rw [State.rd_setBit, if_pos rfl, State.rd_setBit, if_neg (Ne.symm hcfg)]
    generalize (s.setBit (Reg.netPortCfg i.val) 29 false).setBit (Reg.netPortStatus i.val) 30 false = u at hu hrun hcfgrd hstatus
    have huenable : u.bit (Reg.netPortCfg i.val) 31 = true := by
      rw [State.bit, hcfgrd, bit_setBit_other _ (by decide) (by decide)]
      exact henable
    have hlock : u.bit (Reg.netPortStatus i.val) 30 = false := by rw [State.bit, hstatus, bit_setBit_self _ (by decide)]
    have hudown : u.netUp i.val = false := by
      rw [State.netUp, State.bit, hstatus, bit_setBit_other _ (by decide) (by decide)]
      exact hdown
    obtain ⟨-, hcause, hkept, hheld⟩ := netFollow_unlocked hu (hu.enabled huenable hpers fun _ => hcage) hlock hudown
    refine Runs.intro (t := s.netResetEnd i.val false) rfl ?_
    rw [hrun]
    refine ⟨hkept.trans ?_, hcause, hheld⟩
    rw [State.bit, hcfgrd, bit_setBit_self _ (by decide)]
  · intro i locked s
    refine ⟨fun hreset => Runs.intro (t := s.netResetEnd i.val locked) rfl ?_, fun hidle => congrArg Host.Outcome.next ?_⟩
    · obtain ⟨hcfg, -, -, -, -, hdowns⟩ := netPortStatus_apart i.val
      rw [State.netResetEnd, if_pos hreset, State.bit, rd_netFollow _ i.isLt (apartReg_net i.isLt (.inr (.inl rfl))) hcfg (Ne.symm hdowns),
        State.rd_setBit, if_neg hcfg, State.rd_setBit, if_pos rfl]
      exact bit_setBit_self _ (by decide) _
    · rw [State.netResetEnd, if_neg (by simp [hidle])]

end Sys2Proof.Machine
end

section
/-!
PROOFS. The in-service swap and the memory BIST (O38; R31 to R34, R57).
-/
open Sys2Proof.Safety
namespace Sys2Proof.Machine

/-! ### The new carve of groups shows in the registers of Rhumb alone -/

theorem eventReg_low {a : Nat} (ha : a < Reg.rhbCtrl) (hlost : a ≠ Reg.merEvtLost) (hdrop : a ≠ Reg.evtBufDrop) : ¬ eventReg a := by
  unfold eventReg
  simp only [Reg.evtStatus, Reg.rhbCtrl] at ha ⊢
  omega

section
variable (s : State) {a : Nat} (ha : a < Reg.rhbCtrl) (hevent : ¬ eventReg a)
include ha

theorem rd_clearMiswired (g : Nat) : (s.clearMiswired g).rd a = s.rd a := by
  unfold State.clearMiswired
  refine State.each_induct (P := fun t => t.rd a = s.rd a) rfl fun i _ t ht => ?_
  rw [State.rd_setBit, if_neg (by simp only [Reg.rhbCtrl, Reg.rhbLaneStatus] at ha ⊢; omega)]
  exact ht

include hevent

theorem rd_grpRefresh_low {g : Nat} (hg : g < 16) : (s.grpRefresh g).rd a = s.rd a := by
  have hdrain (t : State) (d : Nat) (w : Word) (b : Bool) : (t.drainIf d w b).rd a = t.rd a := by
    unfold State.drainIf
    split
    · rfl
    · rfl
  have hgroup (t : State) (x : Group) : (t.setGroup g x).rd a = t.rd a := rfl
  have hleaf : leafOf 10 g < 2048 := by
    unfold leafOf
    omega
  simp only [Reg.rhbCtrl] at ha
  unfold State.grpRefresh
  dsimp only
  generalize hv : (((s.wr (Reg.rhbGrpRxOk g) (s.rxOkOf g)).wrNat (Reg.rhbGrpSkew g) (min 1023 (s.skewOf g))).wrNat (Reg.rhbGrpStatus g)
    (s.grpState g * 2 ^ 30 + ((s.group g).peer.getD (0, 0)).1 % 1024 * 2 ^ 16 + ((s.group g).peer.getD (0, 0)).2 % 16 * 2 ^ 12 +
      (lanesOf (s.rd (Reg.rhbGrpActive g))).length)).setBit Reg.rhbStatus g (s.grpState g == 2) = v
  have hvrd : v.rd a = s.rd a := by
    rw [← hv, State.rd_setBit, if_neg (by simp only [Reg.rhbStatus]; omega), State.rd_wrNat, if_neg (by simp only [Reg.rhbGrpStatus]; omega),
      State.rd_wrNat, if_neg (by simp only [Reg.rhbGrpSkew]; omega), State.rd_wr_other _ _ (by simp only [Reg.rhbGrpRxOk]; omega)]
  refine State.each_induct (P := fun t => t.rd a = s.rd a) ?_ fun i _ t ht => ?_
  · have hcore (x y : Group) : (if s.grpState g = 0 then (v.setGroup g x).clearMiswired g else v.setGroup g y).rd a = s.rd a := by
      split
      · rw [rd_clearMiswired _ ha, hgroup, hvrd]
      · rw [hgroup, hvrd]
    split
    · exact hcore _ _
    · exact (rd_raise_of_not_eventReg _ hleaf _ _ _ _ hevent).trans (hcore _ _)
  · split
    · rw [hdrain]
      exact ht
    · exact ht

theorem rd_setGroups_low (c : PortSection) : (s.setGroups c).rd a = s.rd a := by
  unfold State.setGroups
  refine State.each_induct (P := fun t => t.rd a = s.rd a) rfl fun g hg t ht => ?_
  rw [rd_grpRefresh_low _ ha hevent (List.mem_range.mp hg), State.rd_wr_other _ _ (by simp only [Reg.rhbCtrl, Reg.rhbGrpLanes] at ha ⊢; omega)]
  exact ht

end

/-! ### START, ABORT and CONTINUE -/

section
variable {s : State} {v : Word}

theorem swapCtrl_start (hstart : bit v 31 = true) (hidle : s.busy .imageSwap = false) :
    s.swapCtrlWrite v = (s.wrTyped (opCtrl .imageSwap) v).swapStart := by
  have hidle' := (busy_wrTyped_opCtrl (s := s) (o := .imageSwap) (v := v)).trans hidle
  simp [State.swapCtrlWrite, State.opCtrlWrite, hstart, hidle, hidle']

theorem swapCtrl_idle (hstart : bit v 31 = false) (hidle : s.busy .imageSwap = false) :
    s.swapCtrlWrite v = s.wrTyped (opCtrl .imageSwap) v := by
  have hidle' := (busy_wrTyped_opCtrl (s := s) (o := .imageSwap) (v := v)).trans hidle
  simp [State.swapCtrlWrite, State.opCtrlWrite, hstart, hidle, hidle']

theorem swapCtrl_abort (hstart : bit v 31 = false) (habort : bit v 30 = true) (hbusy : s.busy .imageSwap = true) :
    s.swapCtrlWrite v = if bit v 2 then (s.wrTyped (opCtrl .imageSwap) v).swapAbort.swapContinue else (s.wrTyped (opCtrl .imageSwap) v).swapAbort := by
  rw [State.swapCtrlWrite, opCtrlWrite_of_busy_abort hstart habort hbusy, hstart, hbusy]
  simp

theorem swapCtrl_continue (hstart : bit v 31 = false) (habort : bit v 30 = false) (hcontinue : bit v 2 = true) (hbusy : s.busy .imageSwap = true) :
    s.swapCtrlWrite v = (s.wrTyped (opCtrl .imageSwap) v).swapContinue := by
  simp [State.swapCtrlWrite, State.opCtrlWrite, hstart, habort, hcontinue, hbusy]

/-- CONTINUE does nothing to a swap that is not paused, or has ended. -/
theorem swapContinue_idle (h : ∀ r ∈ s.dev.swap, r.img = none ∨ r.phase ≠ .paused) : s.swapContinue = s := by
  unfold State.swapContinue
  split
  · next r hr =>
    split
    · next f hf =>
      exact if_neg ((h r hr).resolve_left (by simp [hf]))
    · rfl
  · rfl

end

/-- The refusal of an operation, with EVENT_EN or without. -/
theorem opRefuse_shown (s : State) (o : LongOp) (reason : Nat) :
    (s.opRefuse o reason).fld (opStat o) 31 24 = (0x10 + reason % 16) % 256 ∧ (s.opRefuse o reason).dev = s.dev := by
  obtain ⟨hstat, -, hbegin⟩ := opBegin_frame s o
  constructor
  · rw [State.opRefuse, State.fld, rd_opEnd_opStat, opStatEnd, Machine.fld_setFld_self _ (by decide) (by decide)]
    rfl
  · rw [State.opRefuse, (linked_opEnd _ _ _).dev]
    have hdev := congrArg State.dev hbegin.1
    exact hdev

/-- START where the mode, a load, the source or its length decides. -/
theorem swapStart_cases (s : State) :
    (opAllowed .imageSwap s.dev.mode 0 0 = false ∨ s.busy .imageLoad = true → s.swapStart = s.opRefuse .imageSwap 3) ∧
    (opAllowed .imageSwap s.dev.mode 0 0 = true → s.busy .imageLoad = false →
      (s.noSource .imageSwap = true → s.swapStart = s.opRefuse .imageSwap 14) ∧
      (s.noSource .imageSwap = false → 32 ≤ s.srcLen .imageSwap → s.swapStart = { s.opBegin .imageSwap with
        dev.swap := some { flash := s.opArg .imageSwap % 2 == 1, len := s.srcLen .imageSwap } })) := by
  unfold State.swapStart
  dsimp only
  refine ⟨fun h => if_pos (h.imp_left fun hmode => by rw [hmode]; rfl), fun hmode hload => ?_⟩
  rw [if_neg (by simp [hmode, hload])]
  refine ⟨fun h => if_pos h, fun h hlen => ?_⟩
  rw [if_neg (by simp [h]), if_neg (by omega)]

/-! ### The move point -/

theorem dev_onuFree (s : State) (n id : Nat) : (s.onuFree n id).dev = s.dev := (modeHeld_onuFree s n id).1

theorem dev_voidBursts (s : State) (j : Nat) : (s.voidBursts j).dev = s.dev := by
  unfold State.voidBursts
  dsimp only
  split
  · refine State.each_induct (P := fun t => t.dev = s.dev) rfl fun id _ t ht => ?_
    rw [(modeHeld_rangeReserve _ _ _).1]
    exact ht
  · rfl

theorem dev_persChange (s : State) (n code : Nat) : (s.persChange n code).dev = s.dev := by
  have hfree : (s.personalityFree n).dev = s.dev := by
    unfold State.personalityFree
    refine State.each_induct (P := fun t => t.dev = s.dev) ?_ fun _ _ _ ht => ht
    exact State.each_induct (P := fun t => t.dev = s.dev) rfl fun id _ t ht => (dev_onuFree t n id).trans ht
  have hrelink (t : State) : (t.relinkStart n).dev = t.dev := by
    unfold State.relinkStart
    dsimp only
    rw [(linked_ponFollow _ _).dev, dev_voidBursts, dev_voidBursts]
    rfl
  unfold State.persChange
  dsimp only
  rw [(linked_ponFollow _ _).dev]
  exact ((linked_setPers _ n code).dev.trans (hrelink _)).trans hfree

theorem dev_movePoint (s : State) (r : SwapRun) (f : ImageFile) : (s.movePoint r f).dev = { s.dev with swap := some { r with phase := .moving } } := by
  have hnet (t : State) (m code : Nat) : (t.netPersChange m code).dev = t.dev := by
    unfold State.netPersChange
    rw [(linked_netFollow _ _).dev]
    exact ((linked_wr t _ _).trans (linked_netFollow _ _)).dev
  unfold State.movePoint
  dsimp only
  refine State.each_induct (P := fun t => t.dev = _) ?_ fun m _ t ht => (hnet t _ _).trans ht
  exact State.each_induct (P := fun t => t.dev = _) rfl fun n _ t ht => (dev_persChange t _ _).trans ht

/-! ### A pipeline that has moved -/

theorem putChart_frame (s : State) (l : List (Nat × List Word)) : ∃ chart, s.putChart l = { s with cmp.chart := chart } := by
  induction l generalizing s with
  | nil => exact ⟨_, rfl⟩
  | cons e l ih =>
    obtain ⟨chart, h⟩ := ih { s with cmp.chart := s.cmp.chart.set (fun _ => chartBlank) e.1 e.2 }
    exact ⟨chart, h⟩

theorem spareCharts_frame (s : State) (b : ImageBody) (k : Nat) : ∃ chart pipes, s.spareCharts b k =
    { s with cmp.chart := chart, dev.pipes := pipes } := by
  have hfrom (dst : Nat) : ∃ chart, s.chartsFrom b (s.fld (Reg.devPipeMap k) 3 0) dst = { s with cmp.chart := chart } := by
    unfold State.chartsFrom
    dsimp only
    obtain ⟨chart, hfirst⟩ := putChart_frame { s with cmp.chart := s.cmp.chart.keep fun key => chartPipe key != dst }
      (defaultEntries b.entries dst fun t => !(keptTables (s.pipe (s.fld (Reg.devPipeMap k) 3 0)).stages b.stages).contains t)
    rw [hfirst]
    obtain ⟨chart', hsecond⟩ := putChart_frame { s with cmp.chart := chart } ((s.cmp.chart.filter fun e =>
      chartPipe e.1 == s.fld (Reg.devPipeMap k) 3 0 &&
        (keptTables (s.pipe (s.fld (Reg.devPipeMap k) 3 0)).stages b.stages).contains (e.1 / 2 ^ 21 % 256)).map fun e =>
          (chartKey dst 0 0 0 + e.1 % chartKey 1 0 0 0, e.2))
    exact ⟨chart', hsecond⟩
  obtain ⟨chart, h⟩ := hfrom s.spare
  rw [State.spareCharts, h]
  exact ⟨chart, _, rfl⟩

/-- What the next pipeline, or the end of the swap, leaves as it was. -/
theorem swapNext_frame (s : State) (r : SwapRun) (f : ImageFile) (k : Nat) :
    (∀ a < Reg.rhbCtrl, ¬ eventReg a → a ∉ [opStat .imageSwap, Reg.devImgIdActive, Reg.devSwapOpPartial] → (s.swapNext r f k).rd a = s.rd a) ∧
      (s.swapNext r f k).progress .imageSwap = s.progress .imageSwap ∧ (s.swapNext r f k).cmp.ingress = s.cmp.ingress := by
  have hstat : opStat .imageSwap < Reg.rhbCtrl ∧ ¬ eventReg (opStat .imageSwap) := ⟨by decide, opStat_not_eventReg (by decide)⟩
  unfold State.swapNext
  split
  · next i hi =>
    obtain ⟨chart, pipes, hcharts⟩ := spareCharts_frame s (bodyOf f) i
    rw [hcharts]
    refine ⟨fun a _ _ ha => ?_, ?_, rfl⟩
    · simp only [List.mem_cons, List.not_mem_nil, or_false, not_or] at ha
      rw [State.rd_setFld, if_neg ha.2.2]
      rfl
    · refine congrArg (Machine.fld · 23 0) ?_
      rw [State.rd_setFld, if_neg (by decide)]
      rfl
  · unfold State.swapDone
    dsimp only
    generalize hv : ({ s with dev.body := bodyOf f } : State).wr Reg.devImgIdActive f.hdr.imageId = v
    have hvrd (a : Nat) (ha : a ≠ Reg.devImgIdActive) : v.rd a = s.rd a := by
      rw [← hv, State.rd_wr_other _ _ ha]
      rfl
    have hvcmp : v.cmp = s.cmp := by rw [← hv]; rfl
    have hgroups (a : Nat) (ha : a < Reg.rhbCtrl) (hevent : ¬ eventReg a) :
        (if (bodyOf f).port.groups = s.dev.body.port.groups then v else v.setGroups (bodyOf f).port).rd a = v.rd a := by
      split
      · rfl
      · exact rd_setGroups_low v ha hevent _
    have hcmp : (if (bodyOf f).port.groups = s.dev.body.port.groups then v else v.setGroups (bodyOf f).port).cmp = v.cmp := by
      split
      · rfl
      · obtain ⟨_, _, _, _, _, _, _, _, _, _, _, h⟩ := linked_setGroups v (bodyOf f).port
        rw [h]
    generalize (if (bodyOf f).port.groups = s.dev.body.port.groups then v else v.setGroups (bodyOf f).port) = w at hgroups hcmp
    refine ⟨fun a hlow hevent ha => ?_, ?_, ?_⟩
    · simp only [List.mem_cons, List.not_mem_nil, or_false, not_or] at ha
      rw [State.opDone, rd_opEnd_other _ _ _ ha.1 hevent]
      exact (hgroups a hlow hevent).trans (hvrd a ha.2.1)
    · have hidle : (w.opIdle .imageSwap).rd (opStat .imageSwap) = s.rd (opStat .imageSwap) :=
        (hgroups _ hstat.1 hstat.2).trans (hvrd _ (by decide))
      exact (progress_ended w .imageSwap .done).trans (congrArg (Machine.fld · 23 0) hidle)
    · obtain ⟨_, _, _, _, _, _, _, _, _, _, _, h⟩ := linked_opEnd (w.opIdle .imageSwap) .imageSwap .done
      rw [State.opDone, h]
      show w.cmp.ingress = _
      rw [hcmp, hvcmp]

/-- Step 5 for a logical pipeline: the spare serves it, and the pipeline that served it is the spare. -/
theorem moveDone_frame (s : State) {k : Nat} (hk : k < 8) : (s.moveDone k).fld (Reg.devPipeMap k) 3 0 = s.spare ∧
    (s.moveDone k).spare = s.fld (Reg.devPipeMap k) 3 0 ∧ (s.moveDone k).progress .imageSwap = (s.progress .imageSwap + 1) % 2 ^ 24 ∧
    OnlyRegs [Reg.devPipeMap k, Reg.devPipeSpare, opStat .imageSwap] s (s.moveDone k) := by
  have hmap : Reg.devPipeMap k ≠ Reg.devPipeSpare ∧ Reg.devPipeMap k ≠ opStat .imageSwap := by
    simp only [Reg.devPipeMap, Reg.devPipeSpare, opStat, opCtrl, Reg.devSwapOpCtrl]
    omega
  have hlow (w : Word) : Machine.fld (BitVec.ofNat 32 (Machine.fld w 3 0)) 3 0 = Machine.fld w 3 0 := by
    have hlt : Machine.fld w 3 0 < 2 ^ 4 := Nat.mod_lt _ (by decide)
    generalize Machine.fld w 3 0 = n at hlt
    simp only [Machine.fld, BitVec.toNat_ofNat]
    omega
  refine ⟨?_, ?_, ?_, ?_⟩
  · rw [State.moveDone, State.setProgress, State.fld, State.rd_setFld, if_neg hmap.2, State.rd_wrNat, if_neg hmap.1, State.rd_wrNat, if_pos rfl]
    exact hlow _
  · rw [State.moveDone, State.spare, State.setProgress, State.fld, State.rd_setFld, if_neg (by decide), State.rd_wrNat, if_pos rfl]
    exact hlow _
  · rw [State.moveDone, State.progress, State.setProgress, State.fld_setFld_self _ _ (by decide) (by decide)]
  · exact (((onlyRegs_wr s _ _).trans (onlyRegs_wr _ _ _)).trans (onlyRegs_wr _ _ _)).mono (by simp)

/-! ### The memory BIST (R57) -/

theorem bistCorrected_dev (s : State) (l : List (Fin 10 × Nat × Nat × BitVec 64)) : (s.bistCorrected l).dev = s.dev := by
  induction l generalizing s with
  | nil => rfl
  | cons e l ih =>
    obtain ⟨kind, n, m, a⟩ := e
    have hnoted : (s.memoryError kind.val false n m a).dev = s.dev := by
      have h := s.noted_reportError kind.val false n m a
      show (s.reportError kind.val false n m a).dev = s.dev
      rw [h]
    exact (ih _).trans hnoted

/-- The end of a memory BIST that runs. -/
def bistEnded (s : State) (tested : Nat) (failing : List (Nat × Nat)) : State :=
  match failing with
  | [] => (s.setProgress .memoryBist tested).opDone .memoryBist
  | (kd, i) :: _ =>
    (((s.setProgress .memoryBist tested).wrNat (Reg.devBistOpPartial 0) (kd % 16 * 2 ^ 24 + i % 4096)).wrNat (Reg.devBistOpPartial 1)
      (Nat.min 65535 failing.length)).opFail .memoryBist 8

theorem bistAfter_bist (s : State) (target : Nat) : (s.bistAfter target).dev.bist = s.dev.bist := by
  have hpipes (u : State) : (u.each (List.range 9) fun p s => s.setPipe p {}).dev.bist = u.dev.bist :=
    State.each_induct (P := fun t => t.dev.bist = u.dev.bist) rfl fun _ _ _ h => h
  unfold State.bistAfter
  split
  · have hlists : s.threadLists.dev = s.dev := by rw [threadLists_frame]
    unfold State.memInit State.clearBuffers State.clearKeyStore State.wipeReserved
    dsimp only
    rw [hlists]
  · split
    · exact hpipes _
    · rfl

theorem opIdle_bist {s : State} {target : Nat} (h : s.dev.bist = some target) : (s.opIdle .memoryBist).dev.bist = none := by
  have hrun : s.opIdle .memoryBist = ({ s with dev.bist := none } : State).bistAfter target := by rw [State.opIdle, h]
  rw [hrun, bistAfter_bist]

/-- The model writes the smaller of two numbers in two ways. -/
theorem natMin_eq (m n : Nat) : Nat.min m n = min m n := rfl

/-- What the end of a BIST shows: PROGRESS, and DONE or the first one that fails. -/
theorem bistEnded_frame (s : State) {tested target : Nat} {failing : List (Nat × Nat)} (h : s.dev.bist = some target) :
    (bistEnded s tested failing).dev.bist = none ∧ (bistEnded s tested failing).progress .memoryBist = tested % 2 ^ 24 ∧
      (failing = [] → (bistEnded s tested failing).fld (opStat .memoryBist) 31 24 = 0x40) ∧
      (failing ≠ [] → (bistEnded s tested failing).fld (opStat .memoryBist) 31 24 = 0x18 ∧
        (bistEnded s tested failing).rd (Reg.devBistOpPartial 0) =
          BitVec.ofNat 32 ((failing.headD (0, 0)).1 % 16 * 2 ^ 24 + (failing.headD (0, 0)).2 % 4096) ∧
        (bistEnded s tested failing).rd (Reg.devBistOpPartial 1) = BitVec.ofNat 32 (min 65535 failing.length)) := by
  cases failing with
  | nil =>
    have hprogress : (s.setProgress .memoryBist tested).progress .memoryBist = tested % 2 ^ 24 :=
      State.fld_setFld_self _ _ (by decide) (by decide) _
    have hbist : (s.setProgress .memoryBist tested).dev.bist = some target := h
    unfold bistEnded
    generalize s.setProgress .memoryBist tested = u at hprogress hbist
    refine ⟨(congrArg Dev.bist (opDone_dev u _)).trans (opIdle_bist hbist), ?_, fun _ => opDone_stat u _, fun hne => absurd rfl hne⟩
    exact (progress_ended u .memoryBist .done).trans hprogress
  | cons e l =>
    obtain ⟨kd, i⟩ := e
    unfold bistEnded
    dsimp only
    rw [natMin_eq, List.headD_cons]
    generalize min 65535 ((kd, i) :: l).length = m
    generalize kd % 16 * 2 ^ 24 + i % 4096 = first
    generalize hv : ((s.setProgress .memoryBist tested).wrNat (Reg.devBistOpPartial 0) first).wrNat (Reg.devBistOpPartial 1) m = v
    have hprogress : v.progress .memoryBist = tested % 2 ^ 24 := by
      rw [← hv, State.progress, State.fld, State.rd_wrNat, if_neg (by decide), State.rd_wrNat, if_neg (by decide)]
      exact State.fld_setFld_self _ _ (by decide) (by decide) _
    have hbist : v.dev.bist = some target := by
      have hdev := (((linked_wr s (opStat .memoryBist) (Machine.setFld (s.rd (opStat .memoryBist)) 23 0 tested)).trans
        (linked_wr _ (Reg.devBistOpPartial 0) (BitVec.ofNat 32 first))).trans (linked_wr _ (Reg.devBistOpPartial 1) (BitVec.ofNat 32 m))).dev
      rw [← hv]
      exact (congrArg Dev.bist hdev).trans h
    have hkept (j : Nat) (hj : j < 2) : (v.opFail .memoryBist 8).rd (Reg.devBistOpPartial j) = v.rd (Reg.devBistOpPartial j) := by
      refine rd_ended_other v .memoryBist (.failed 8) ?_ (eventReg_low ?_ ?_ ?_) ?_
      all_goals
        simp only [Reg.devBistOpPartial, Reg.rhbCtrl, Reg.merEvtLost, Reg.evtBufDrop, opStat, opCtrl, Reg.devBistOpCtrl, Reg.devCommStatus]
        omega
    obtain ⟨hstat, hended⟩ := opFail_stat v .memoryBist 8
    refine ⟨(congrArg Dev.bist (opFail_dev v _ _)).trans (opIdle_bist hbist), hended.trans hprogress,
      fun hnil => absurd hnil (List.cons_ne_nil _ _), fun _ => ⟨hstat, ?_, ?_⟩⟩
    · rw [hkept 0 (by decide), ← hv, State.rd_wrNat, if_neg (by decide), State.rd_wrNat, if_pos rfl]
    · rw [hkept 1 (by decide), ← hv, State.rd_wrNat, if_pos rfl]

/-- The end of a BIST leaves the counters of errors alone. -/
theorem rd_bistEnded_counter (s : State) (tested : Nat) (failing : List (Nat × Nat)) (kind : Fin 10) :
    (bistEnded s tested failing).rd (Reg.chkMemCorr kind.val) = s.rd (Reg.chkMemCorr kind.val) := by
  have hevent := (errCounter_apart kind.isLt false).1
  have hended (u : State) (e : OpEnd) : ((u.opIdle .memoryBist).opEnd .memoryBist e).rd (Reg.chkMemCorr kind.val) = u.rd (Reg.chkMemCorr kind.val) := by
    refine rd_ended_other u .memoryBist e ?_ hevent ?_
    all_goals
      simp only [Reg.chkMemCorr, opStat, opCtrl, Reg.devBistOpCtrl, Reg.devCommStatus]
      omega
  have hwr (u : State) {a : Nat} (ha : a < Reg.chkMemCorr 0) (v : Word) : (u.wr a v).rd (Reg.chkMemCorr kind.val) = u.rd (Reg.chkMemCorr kind.val) :=
    State.rd_wr_other _ _ (by simp only [Reg.chkMemCorr] at ha ⊢; omega)
  unfold bistEnded
  split
  · exact (hended _ .done).trans (hwr s (by decide) _)
  · exact (hended _ (.failed 8)).trans ((hwr _ (by decide) _).trans ((hwr _ (by decide) _).trans (hwr s (by decide) _)))

/-- What a START of a swap finds: the operation's own fields as written, and everything else as before. -/
theorem swapCtrl_stores (s : State) (v : Word) :
    (s.wrTyped (opCtrl .imageSwap) v).opArg .imageSwap % 2 = fld v 15 0 % 2 ∧
      (s.wrTyped (opCtrl .imageSwap) v).busy .imageLoad = s.busy .imageLoad ∧
      (s.wrTyped (opCtrl .imageSwap) v).fld Reg.devImgLen 26 0 = s.fld Reg.devImgLen 26 0 ∧
      (s.wrTyped (opCtrl .imageSwap) v).bit (opCtrl .imageSwap) 29 = bit v 29 := by
  have hlow : ∀ w : Word, fld w 15 0 % 2 = fld w 1 0 % 2 := fun w => by
    simp only [Machine.fld]
    omega
  refine ⟨?_, congrArg (Machine.bit · 31) (State.rd_wrTyped_other _ _ (by decide)),
    congrArg (Machine.fld · 26 0) (State.rd_wrTyped_other _ _ (by decide)), s.bit_wrTyped_rw _ (by decide) (by decide)⟩
  rw [State.opArg, State.fld, hlow, hlow]
  exact congrArg (· % 2) (s.fld_wrTyped_rw v (by decide))

theorem opPartials_imageSwap : opPartials .imageSwap = [Reg.devSwapOpPartial] := by decide

/-- Settles O38. -/
theorem imageSwapsMoveOnePipelineAtATime : Obligations.ImageSwapsMoveOnePipelineAtATime := by
  unfold Obligations.ImageSwapsMoveOnePipelineAtATime
  refine ⟨?_, ?_, ?_, ?_, ?_, ?_, ?_, ?_, ?_, ?_, ?_, ?_⟩
  · intro val flash s hstart hidle
    have hrun := swapCtrl_start (s := s.flashRead flash) hstart hidle
    have hregs := (s.flashRead flash).onlyRegs_wrTyped val (opCtrl .imageSwap)
    have hdev : ((s.flashRead flash).wrTyped (opCtrl .imageSwap) val).dev = { s.dev with flashLen := flash } :=
      dev_wrTyped (s.flashRead flash) (opCtrl .imageSwap) val
    obtain ⟨harg, hload, hlen, hquiet⟩ := swapCtrl_stores (s.flashRead flash) val
    have hruns {P : State → Prop} (h : P (s.flashRead flash |>.swapCtrlWrite val)) : Runs (.imageSwapStart val flash) s P :=
      Runs.intro (t := (s.flashRead flash).swapCtrlWrite val) rfl h
    rw [hrun] at hruns
    generalize (s.flashRead flash).wrTyped (opCtrl .imageSwap) val = u at *
    obtain ⟨hrefused, hallowed⟩ := swapStart_cases u
    have hmode : u.dev.mode = s.dev.mode := by rw [hdev]
    have hswap : u.dev.swap = s.dev.swap := by rw [hdev]
    have hload' : u.busy .imageLoad = s.busy .imageLoad := hload
    rw [hmode, hload'] at hrefused hallowed
    have hothers {t : State} (h : OnlyRegs (opStat .imageSwap :: opPartials .imageSwap) u t) :
        RegsBut [opCtrl .imageSwap, opStat .imageSwap, Reg.devSwapOpPartial] s t := by
      rw [opPartials_imageSwap] at h
      exact (hregs.trans h).2
    obtain ⟨hbegun, hzero, hbegin⟩ := opBegin_frame u .imageSwap
    refine ⟨fun hno => hruns ?_, fun hyes hfree heven hlong => hruns ?_, fun hyes hfree hodd halive hlong => hruns ?_,
      fun hyes hfree hodd hnone => hruns ?_⟩
    · rw [hrefused hno]
      obtain ⟨hstat, hkept⟩ := opRefuse_shown u .imageSwap 3
      exact ⟨hstat, (congrArg Dev.swap hkept).trans hswap, fun h => hothers (opRefuse_frame (hquiet.trans h) 3).2.2⟩
    · obtain ⟨-, hbegins⟩ := hallowed hyes hfree
      have heven' : u.opArg .imageSwap % 2 = 0 := harg.trans heven
      have hsrc : u.srcLen .imageSwap = s.fld Reg.devImgLen 26 0 := by
        rw [State.srcLen, if_neg (by omega)]
        exact hlen
      rw [hbegins (by simp [State.noSource, heven']) (by rw [hsrc]; exact hlong), hsrc, heven']
      exact ⟨hbegun, hzero _ (by rw [opPartials_imageSwap]; exact List.mem_cons_self), rfl, fun a ha => hothers hbegin a ha⟩
    · obtain ⟨-, hbegins⟩ := hallowed hyes hfree
      have hodd' : u.opArg .imageSwap % 2 = 1 := harg.trans hodd
      have hsrc : u.srcLen .imageSwap = flash.getD 0 := by
        rw [State.srcLen, if_pos hodd', hdev]
      have hsome : flash.isNone = false := by
        cases flash with
        | none => exact absurd hlong (by decide)
        | some n => rfl
      have hsource : u.noSource .imageSwap = false := by
        rw [State.noSource, hdev, hsome]
        simp [halive]
      rw [hbegins hsource (by rw [hsrc]; exact hlong), hsrc, hodd']
      exact ⟨hbegun, rfl⟩
    · obtain ⟨hnosource, -⟩ := hallowed hyes hfree
      have hodd' : u.opArg .imageSwap % 2 = 1 := harg.trans hodd
      rw [hnosource (by rw [State.noSource, hdev, hodd', hnone]; rfl)]
      obtain ⟨hstat, hkept⟩ := opRefuse_shown u .imageSwap 14
      exact ⟨hstat, (congrArg Dev.swap hkept).trans hswap⟩
  · intro val s r hop hbusy hswap
    have h31 : bit val 31 = false := by rw [bit_of_fld (hi := 31) (lo := 30) (by decide) (by decide), hop]; rfl
    have h30 : bit val 30 = true := by rw [bit_of_fld (hi := 31) (lo := 30) (by decide) (by decide), hop]; rfl
    have hrun := swapCtrl_abort h31 h30 hbusy
    have hdev := dev_wrTyped s (opCtrl .imageSwap) val
    have hstat : (s.wrTyped (opCtrl .imageSwap) val).rd (opStat .imageSwap) = s.rd (opStat .imageSwap) := State.rd_wrTyped_other _ _ (by decide)
    refine Runs.intro (t := s.swapCtrlWrite val) rfl ?_
    generalize s.wrTyped (opCtrl .imageSwap) val = u at hrun hdev hstat
    have huswap : u.dev.swap = some r := by rw [hdev]; exact hswap
    have hidle (h : ∀ r' ∈ u.swapAbort.dev.swap, r'.img = none ∨ r'.phase ≠ .paused) : s.swapCtrlWrite val = u.swapAbort := by
      rw [hrun, swapContinue_idle h, ite_self]
    refine ⟨fun hpaused => ?_, fun hgoing => ?_⟩
    · have habort : u.swapAbort = (u.discardSpare.setFld Reg.devSwapOpPartial 31 31 0).opAbort .imageSwap 1 := by
        rw [State.swapAbort, huswap]
        exact if_pos hpaused
      generalize hw : u.discardSpare.setFld Reg.devSwapOpPartial 31 31 0 = w at habort
      have hnone : (w.opAbort .imageSwap 1).dev.swap = none := by rw [State.opAbort, (linked_opEnd _ _ _).dev]; rfl
      rw [hidle (by rw [habort, hnone]; simp), habort]
      refine ⟨hnone, (opAbort_stat w .imageSwap).1, ?_⟩
      have hkept : (w.opAbort .imageSwap 1).rd Reg.devSwapOpPartial = w.rd Reg.devSwapOpPartial :=
        rd_ended_other w .imageSwap (.aborted 1) (by decide) (eventReg_low (by decide) (by decide) (by decide)) (by decide)
      rw [State.bit, hkept, ← hw, State.rd_setFld, if_pos rfl, bit_setFld_in _ (by decide) (by decide) (by decide)]
      rfl
    · have habort : u.swapAbort = u.setSwap { r with abort := true } := by
        rw [State.swapAbort, huswap]
        exact if_neg hgoing
      rw [hidle (by rw [habort]; rintro r' ⟨⟩; exact .inr hgoing), habort]
      exact ⟨rfl, hstat⟩
  · intro val s hstart hidle
    have hrun := swapCtrl_idle hstart hidle
    have honly : OnlyRegs [opCtrl .imageSwap] s (s.swapCtrlWrite val) := by
      rw [hrun]
      exact s.onlyRegs_wrTyped val _
    exact ⟨.intro rfl honly, .intro rfl honly⟩
  · intro val s r hop hcontinue hbusy hswap
    have h31 : bit val 31 = false := by rw [bit_of_fld (hi := 31) (lo := 30) (by decide) (by decide), hop]; rfl
    have h30 : bit val 30 = false := by rw [bit_of_fld (hi := 31) (lo := 30) (by decide) (by decide), hop]; rfl
    have hrun := swapCtrl_continue h31 h30 hcontinue hbusy
    have hdev := dev_wrTyped s (opCtrl .imageSwap) val
    have honly := s.onlyRegs_wrTyped val (opCtrl .imageSwap)
    refine Runs.intro (t := s.swapCtrlWrite val) rfl ?_
    generalize s.wrTyped (opCtrl .imageSwap) val = u at hrun hdev honly
    have huswap : u.dev.swap = some r := by rw [hdev]; exact hswap
    rw [hrun]
    refine ⟨fun f hf hpaused => ?_, fun h => ?_⟩
    · have hmove : u.swapContinue = u.movePoint r f := by
        rw [State.swapContinue, huswap]
        dsimp only
        rw [Option.mem_def.mp hf]
        exact if_pos hpaused
      rw [hmove, dev_movePoint]
      exact ⟨rfl, rfl⟩
    · rw [swapContinue_idle (by rw [huswap]; rintro r' ⟨⟩; exact h)]
      exact honly
  · intro img s r hswap hphase hmoving
    refine Runs.intro (t := s.swapAuthEnd img) rfl ?_
    have hrun : s.swapAuthEnd img = match s.swapReason r.len img with
        | some q => s.opFail .imageSwap q
        | none => if r.abort then s.opAbort .imageSwap 1 else s.swapNext r img 0 := by
      rw [State.swapAuthEnd, hswap]
      exact if_neg (by simp [hphase, hmoving])
    rw [hrun]
    refine ⟨fun h => ?_, fun h habort => ?_, fun h habort => ?_⟩
    · obtain ⟨q, hq⟩ := Option.ne_none_iff_exists'.mp h
      rw [hq]
      refine ⟨congrArg Dev.swap (opFail_dev s .imageSwap q), (opFail_stat s .imageSwap q).1.trans ?_⟩
      rw [Option.getD_some]
      omega
    · rw [h, habort]
      exact ⟨by rw [if_pos rfl, State.opAbort, (linked_opEnd _ _ _).dev]; rfl, (opAbort_stat s .imageSwap).1⟩
    · rw [h, habort]
      rfl
  · intro img s h
    refine congrArg Host.Outcome.next ?_
    unfold State.swapAuthEnd
    split
    · next r hr =>
      rw [hr] at h
      exact if_pos (by simpa using h)
    · rfl
  · intro s r f hswap himg hphase
    refine Runs.intro (t := s.spareLoaded) rfl ?_
    have hrun : s.spareLoaded = if r.abort then s.discardSpare.opAbort .imageSwap 1
        else if s.opArg .imageSwap / 2 % 2 = 1 then
          ((s.setPipe s.spare (pipeOf (bodyOf f) f.hdr.imageId)).setSwap { r with phase := .paused }).setFld Reg.devSwapOpPartial 31 31 1
        else (s.setPipe s.spare (pipeOf (bodyOf f) f.hdr.imageId)).movePoint r f := by
      rw [State.spareLoaded, hswap]
      dsimp only
      rw [himg]
      exact if_neg (by simp [hphase])
    have hpipe (x : PipeStruct) : (s.setPipe s.spare x).dev.pipes.get (fun _ => {}) s.spare = x := SMap.get_set_self _ _ _ _
    rw [hrun]
    refine ⟨fun habort => ?_, fun habort hpause => ?_, fun habort hpause => ?_⟩
    · rw [if_pos habort]
      have hdev : (s.discardSpare.opAbort .imageSwap 1).dev = (s.discardSpare.opIdle .imageSwap).dev := (linked_opEnd _ _ _).dev
      refine ⟨by rw [hdev]; rfl, (opAbort_stat _ .imageSwap).1, ?_⟩
      rw [State.pipe, hdev]
      exact hpipe {}
    · rw [if_neg (by simp [habort]), if_pos hpause]
      refine ⟨rfl, ?_, hpipe _, fun a ha => ?_, rfl⟩
      · rw [State.bit, State.rd_setFld, if_pos rfl, bit_setFld_in _ (by decide) (by decide) (by decide)]
        rfl
      · rw [State.rd_setFld, if_neg (List.ne_of_not_mem_cons ha)]
        rfl
    · rw [if_neg (by simp [habort]), if_neg (by omega), State.pipe, dev_movePoint]
      exact ⟨rfl, rfl, hpipe _⟩
  · intro s k hmoving
    have hrun : s.moved = if s.drained k then { s.moveDone k with dev.moving := none } else s := by
      rw [State.moved, hmoving]
    refine ⟨fun hempty hk => Runs.intro (t := s.moved) rfl ?_, fun hfull => congrArg Host.Outcome.next ?_⟩
    · obtain ⟨hmap, hspare, -, -⟩ := moveDone_frame s hk
      rw [hrun, if_pos (by simpa [State.drained, State.recirc] using hempty)]
      exact ⟨rfl, hmap, hspare⟩
    · rw [hrun, if_neg (by simpa [State.drained, State.recirc] using hfull)]
  · intro s r f hmoving hswap himg hphase hk
    have hrun : s.moved = if !s.drained r.k then s
        else if r.abort then { (s.moveDone r.k).opAbort .imageSwap 1 with dev.moving := none }
        else (s.moveDone r.k).swapNext r f (r.k + 1) := by
      rw [State.moved, hmoving, hswap]
      dsimp only
      rw [himg]
      simp [hphase]
    refine ⟨fun hempty => Runs.intro (t := s.moved) rfl ?_, fun hfull => congrArg Host.Outcome.next ?_⟩
    · obtain ⟨hmap, hspare, hprogress, honly⟩ := moveDone_frame s hk
      have hlow : Reg.devPipeMap r.k < Reg.rhbCtrl ∧ ¬ eventReg (Reg.devPipeMap r.k) ∧
          Reg.devPipeMap r.k ∉ [opStat .imageSwap, Reg.devImgIdActive, Reg.devSwapOpPartial] ∧ Reg.devPipeMap r.k ≠ Reg.devCommStatus := by
        refine ⟨?_, eventReg_low ?_ ?_ ?_, ?_, ?_⟩
        all_goals
          simp only [List.mem_cons, List.not_mem_nil, or_false, Reg.devPipeMap, Reg.rhbCtrl, opStat, opCtrl, Reg.devSwapOpCtrl,
            Reg.devImgIdActive, Reg.devSwapOpPartial, Reg.devCommStatus, Reg.merEvtLost, Reg.evtBufDrop]
          omega
      obtain ⟨hmaplow, hmapevent, hmapother, hmapcomm⟩ := hlow
      rw [hrun, if_neg (by simpa [State.drained, State.recirc] using hempty)]
      have hcmp : (s.moveDone r.k).cmp.ingress = s.cmp.ingress := rfl
      generalize s.moveDone r.k = u at *
      have hspareevent : ¬ eventReg Reg.devPipeSpare := eventReg_low (by decide) (by decide) (by decide)
      split
      · have hdev : (u.opAbort .imageSwap 1).dev = (u.opIdle .imageSwap).dev := (linked_opEnd _ _ _).dev
        have hrd (a : Nat) (ha : a ≠ opStat .imageSwap) (hevent : ¬ eventReg a) (hcomm : a ≠ Reg.devCommStatus) :
            (u.opAbort .imageSwap 1).rd a = u.rd a := rd_ended_other u .imageSwap (.aborted 1) ha hevent hcomm
        obtain ⟨_, _, _, _, _, _, _, _, _, _, _, hended⟩ := linked_opEnd (u.opIdle .imageSwap) .imageSwap (.aborted 1)
        have hcmp' : (u.opAbort .imageSwap 1).cmp = u.cmp := by
          rw [State.opAbort, hended]
          rfl
        obtain ⟨hstat, hkept⟩ := opAbort_stat u .imageSwap
        generalize u.opAbort .imageSwap 1 = t at *
        refine ⟨?_, ?_, hkept.trans hprogress, (congrArg Cmp.ingress hcmp').trans hcmp, fun _ => ⟨congrArg Dev.swap hdev, hstat⟩⟩
        · exact (congrArg (Machine.fld · 3 0) (hrd _ (fun h => hmapother (by rw [h]; exact List.mem_cons_self)) hmapevent hmapcomm)).trans hmap
        · exact (congrArg (Machine.fld · 3 0) (hrd _ (by decide) hspareevent (by decide))).trans hspare
      · next habort =>
        obtain ⟨hregs, hkept, hingress⟩ := swapNext_frame u r f (r.k + 1)
        refine ⟨?_, ?_, hkept.trans hprogress, hingress.trans hcmp, fun h => absurd h habort⟩
        · exact (congrArg (Machine.fld · 3 0) (hregs _ hmaplow hmapevent hmapother)).trans hmap
        · exact (congrArg (Machine.fld · 3 0) (hregs _ (by decide) hspareevent (by decide))).trans hspare
    · rw [hrun, if_pos (by simpa [State.drained, State.recirc] using hfull)]
  · intro s
    refine ⟨fun h => congrArg Host.Outcome.next ?_, fun h hmoving => congrArg Host.Outcome.next ?_⟩
    · unfold State.spareLoaded
      split
      · next r hr =>
        split
        · next f hf =>
          rw [hr] at h
          exact if_pos (by simpa [hf] using h)
        · rfl
      · rfl
    · unfold State.moved
      split
      · next k hk => exact absurd (hk.symm.trans hmoving) (by simp)
      · next r hr =>
        split
        · next f hf =>
          rw [hr] at h
          exact if_pos (.inl (by simpa [hf] using h))
        · rfl
      · rfl
  · intro tested t0 k failing corr s hbist
    have hrun : exec (.memoryBistEnd tested failing corr) s = .next ((s.bistCorrected corr).bistEnd tested failing) :=
      congrArg Host.Outcome.next (if_neg (by simp [hbist]))
    have hend {u : State} (hu : u.dev = s.dev) : u.bistEnd tested failing = bistEnded u tested failing := by
      rw [State.bistEnd, hu, hbist]
      rfl
    refine ⟨Runs.intro hrun ?_, fun hcorr => Runs.intro hrun ?_⟩
    · rw [hend (bistCorrected_dev s corr)]
      exact bistEnded_frame _ (by rw [bistCorrected_dev]; exact hbist)
    · obtain ⟨⟨kind, n, m, a⟩, hone, rfl⟩ := List.map_eq_singleton_iff.mp hcorr
      have hcount := (reportError_counts s kind.isLt false n m a).1
      have hu : (s.bistCorrected corr) = s.reportError kind.val false n m a := by rw [hone]; rfl
      rw [hend (bistCorrected_dev s corr), hu]
      generalize s.reportError kind.val false n m a = u at hcount
      exact (rd_bistEnded_counter u tested failing kind).trans hcount
  · intro tested failing corr s hbist
    refine congrArg Host.Outcome.next ?_
    rw [hbist]
    rfl

end Sys2Proof.Machine
end

section
/-!
PROOFS. Stamps, snapshots, SyncE, 1PPS and ToD, GPIO pulses and waypoints (O47; R77 to R102).
-/
open Sys2Proof.Safety
namespace Sys2Proof.Machine

/-! ### Captured times, queues and pulses -/

theorem wrWords_frame (s : State) (a : Nat) (l : List Word) : ∃ regs, s.wrWords a l = { s with regs := regs } := by
  induction l generalizing s a with
  | nil => exact ⟨_, rfl⟩
  | cons w l ih =>
    obtain ⟨regs, h⟩ := ih (s.wr a w) (a + 4)
    exact ⟨regs, h⟩

/-- The registers of a snapshot. -/
theorem snapWrite_go {s : State} {v : Word} (hgo : bit v 31 = true) :
    (s.snapWrite v).rd Reg.timeSnapNs = BitVec.ofNat 32 (nsOf (s.viewTime (fld v 3 0) s.raw)) ∧
      (s.snapWrite v).rd Reg.timeSnapSecLo = BitVec.ofNat 32 (secOf (s.viewTime (fld v 3 0) s.raw)) ∧
      (s.snapWrite v).rd Reg.timeSnapFrac = BitVec.ofNat 32 (fracOf (s.viewTime (fld v 3 0) s.raw)) ∧
      (s.snapWrite v).rdWords Reg.timeSnapRawW0 3 = s.raw.toNat ∧ (s.snapWrite v).rd Reg.timeSnapCount = s.rd Reg.timeSnapCount + 1 ∧
      s.snapWrite v = { s with regs := (s.snapWrite v).regs } := by
  have honly := s.onlyRegs_wrTyped v Reg.timeSnapCtrl
  have hcount : (s.wrTyped Reg.timeSnapCtrl v).rd Reg.timeSnapCount = s.rd Reg.timeSnapCount := State.rd_wrTyped_other _ _ (by decide)
  have hraw : (s.wrTyped Reg.timeSnapCtrl v).raw = s.raw := by rw [honly.1]
  have htime : (s.wrTyped Reg.timeSnapCtrl v).viewTime (fld v 3 0) s.raw = s.viewTime (fld v 3 0) s.raw :=
    State.viewTime_congr (fun a ha _ => State.rd_wrTyped_other _ _ (by
      simp only [viewBase] at ha
      simp only [Reg.timeSnapCtrl]
      omega)) _
  unfold State.snapWrite
  dsimp only
  rw [if_pos hgo, hraw, htime]
  generalize s.wrTyped Reg.timeSnapCtrl v = u at honly hcount
  generalize s.viewTime (fld v 3 0) s.raw = t
  generalize hw : ((((u.wrNat Reg.timeSnapSecLo (secOf t)).wrNat Reg.timeSnapSecHi (secOf t / 2 ^ 32)).wrNat Reg.timeSnapNs (nsOf t)).wrNat
    Reg.timeSnapFrac (fracOf t)).wr Reg.timeSnapNs32 (ns32Of t) = w
  have hwframe : ∃ regs, w = { u with regs := regs } := ⟨w.regs, by rw [← hw]; rfl⟩
  have hout {a : Nat} (ha : a + 4 ≤ Reg.timeSnapRawW0 ∨ Reg.timeSnapRawW0 + 12 ≤ a) :
      (w.wrWords Reg.timeSnapRawW0 (toWords 3 s.raw.toNat)).rd a = w.rd a :=
    State.rd_wrWords_other _ (by
      rw [length_toWords]
      omega)
  refine ⟨?_, ?_, ?_, ?_, ?_, ?_⟩
  · rw [State.rd_wrap, if_neg (by decide), hout (by decide), ← hw, State.rd_wr_other _ _ (by decide), State.rd_wrNat, if_neg (by decide),
      State.rd_wrNat, if_pos rfl]
  · rw [State.rd_wrap, if_neg (by decide), hout (by decide), ← hw, State.rd_wr_other _ _ (by decide), State.rd_wrNat, if_neg (by decide),
      State.rd_wrNat, if_neg (by decide), State.rd_wrNat, if_neg (by decide), State.rd_wrNat, if_pos rfl]
  · rw [State.rd_wrap, if_neg (by decide), hout (by decide), ← hw, State.rd_wr_other _ _ (by decide), State.rd_wrNat, if_pos rfl]
  · refine (State.rdWords_congr fun b _ hb => ?_).trans ((State.rdWords_wrWords_toWords w _ 3 _).trans (Nat.mod_eq_of_lt s.raw.isLt))
    rw [State.rd_wrap, if_neg]
    simp only [Reg.timeSnapRawW0, Reg.timeSnapCount] at hb ⊢
    omega
  · rw [State.rd_wrap, if_pos rfl, hout (by decide), ← hw, State.rd_wr_other _ _ (by decide), State.rd_wrNat, if_neg (by decide),
      State.rd_wrNat, if_neg (by decide), State.rd_wrNat, if_neg (by decide), State.rd_wrNat, if_neg (by decide), hcount]
  · obtain ⟨regs, hwords⟩ := wrWords_frame w Reg.timeSnapRawW0 (toWords 3 s.raw.toNat)
    obtain ⟨regs', hwframe⟩ := hwframe
    rw [hwords, hwframe, honly.1]
    rfl

/-- An event appends to what the device has sent. -/
theorem mem_out_raise (s : State) {o : Output} (h : o ∈ s.out) (leaf inst : Nat) (w1 w2 w3 : Word) : o ∈ (s.raise leaf inst w1 w2 w3).out := by
  obtain ⟨-, -, -, hout, -⟩ := State.raise_keeps s.keeps_mark leaf inst w1 w2 w3
  exact hout.subset h

/-! ### Waypoints -/

/-- From `s` to `t` an action has run: armed slots, the manager's slots and the time block's registers are as they were. -/
def Acted (s t : State) : Prop :=
  t.chrono.armed = s.chrono.armed ∧ t.mer = s.mer ∧ ∀ a, Reg.timeCtrl ≤ a → a < Reg.ponLineCfg 0 → t.rd a = s.rd a

theorem Acted.refl (s : State) : Acted s s := ⟨rfl, rfl, fun _ _ _ => rfl⟩

theorem Acted.trans {s t u : State} (h : Acted s t) (k : Acted t u) : Acted s u := by
  obtain ⟨harmed, hmer, hregs⟩ := h
  obtain ⟨karmed, kmer, kregs⟩ := k
  exact ⟨karmed.trans harmed, kmer.trans hmer, fun a hlow hhigh => (kregs a hlow hhigh).trans (hregs a hlow hhigh)⟩

theorem acted_of_onlyRegs {s t : State} {l : List Nat} (h : OnlyRegs l s t) (hl : ∀ a ∈ l, a < Reg.timeCtrl ∨ Reg.ponLineCfg 0 ≤ a) : Acted s t := by
  obtain ⟨hframe, hregs⟩ := h
  refine ⟨by rw [hframe], by rw [hframe], fun a hlow hhigh => hregs a fun ha => ?_⟩
  have hout := hl a ha
  omega

theorem acted_wr (s : State) {a : Nat} (ha : Reg.ponLineCfg 0 ≤ a) (v : Word) : Acted s (s.wr a v) :=
  acted_of_onlyRegs (onlyRegs_wr s a v) fun _ hb => .inr (by rw [List.mem_singleton.mp hb]; exact ha)

section
variable (s : State)

theorem acted_bankRequest {a : Nat} (ha : Reg.ponLineCfg 0 ≤ a) (target : Nat) : Acted s (s.bankRequest a target) :=
  acted_of_onlyRegs (s.onlyRegs_bankRequest a) fun _ hb => .inr (by rw [List.mem_singleton.mp hb]; exact ha)

theorem acted_bankSwitch {a : Nat} (ha : Reg.ponLineCfg 0 ≤ a) (target : Nat) : Acted s (s.bankSwitch a target) :=
  acted_of_onlyRegs (s.onlyRegs_bankSwitch a) fun _ hb => .inr (by rw [List.mem_singleton.mp hb]; exact ha)

theorem acted_wpNote (k : Nat) : Acted s (s.wpNote k) := ⟨rfl, rfl, fun _ _ _ => rfl⟩

theorem acted_cmpRequest (target : Nat) : Acted s (s.cmpRequest target) := by
  unfold State.cmpRequest
  dsimp only
  split
  · exact (acted_bankRequest s (by decide) target).trans (acted_bankSwitch _ (by decide) _)
  · exact acted_bankRequest s (by decide) target

theorem acted_almRequest (target : Nat) : Acted s (s.almRequest target) := by
  have hreset (v : State) (kind idx : Nat) : Acted v (v.resetBound kind idx) := by
    obtain ⟨_, _, _, _, h⟩ := resetBound_frame v kind idx
    rw [h]
    exact ⟨rfl, rfl, fun _ _ _ => rfl⟩
  have hchanged (v : State) (l : SMap Bool) : Acted v { v with alm.changed := l } := ⟨rfl, rfl, fun _ _ _ => rfl⟩
  unfold State.almRequest
  refine (acted_bankRequest s (a := Reg.almCommit) (by decide) target).trans ?_
  generalize s.bankRequest Reg.almCommit target = u
  unfold State.almSwitch
  dsimp only
  split
  · exact ((acted_bankSwitch u (a := Reg.almCommit) (by decide) _).trans
      (State.each_induct (P := Acted _) (.refl _) fun k _ t ht => ht.trans (hreset t _ _))).trans (hchanged _ _)
  · exact .refl u

theorem acted_gateRequest (m : Nat) : Acted s (s.gateRequest m) := by
  have hwr (u : State) {a : Nat} (ha : Reg.almCommit ≤ a) (v : Word) : Acted u (u.wr a v) := acted_wr u (Nat.le_trans (by decide) ha) v
  unfold State.gateRequest
  dsimp only
  split
  · exact .refl s
  · split
    · exact hwr s (by simp only [Reg.almCommit, Reg.almGateStatus]; omega) _
    · refine Acted.trans ?_ (hwr _ (by simp only [Reg.almCommit, Reg.almGateStatus]; omega) _)
      unfold State.showT0
      refine Acted.trans (Acted.trans (Acted.trans (Acted.trans (t := State.setGates s m _) ⟨rfl, rfl, fun _ _ _ => rfl⟩
        (hwr _ (by simp only [Reg.almCommit, Reg.almGateLateStart]; omega) _))
        (hwr _ (by simp only [Reg.almCommit, Reg.almGateT0Ns]; omega) _))
        (hwr _ (by simp only [Reg.almCommit, Reg.almGateT0SecLo]; omega) _))
        (hwr _ (by simp only [Reg.almCommit, Reg.almGateT0SecHi]; omega) _)

theorem acted_keySwitch (port index : Nat) : Acted s (s.keySwitch port index) := by
  have hskip (u : State) (j : Nat) : Acted u (u.bump (Reg.xgmKeyswSkip j)) :=
    acted_wr u (by simp only [Reg.ponLineCfg, Reg.xgmKeyswSkip]; omega) _
  have honu (u : State) (n id : Nat) : Acted u (u.switchOnu n index true id) := by
    unfold State.switchOnu
    dsimp only
    split
    · exact ⟨rfl, rfl, fun _ _ _ => rfl⟩
    · exact hskip u _
  have hset (u : State) (j : Nat) : Acted u (u.switchSet index true j) := by
    unfold State.switchSet
    dsimp only
    split
    · exact ⟨rfl, rfl, fun _ _ _ => rfl⟩
    · exact hskip u _
  have hport (u : State) (n : Nat) : Acted u (u.switchPort n index true) :=
    State.each_induct (P := Acted u) (State.each_induct (P := Acted u) (.refl u) fun id _ t ht => ht.trans (honu t n id)) fun j _ t ht =>
      ht.trans (hset t j)
  unfold State.keySwitch
  split
  · exact .refl s
  · split
    · exact State.each_induct (P := Acted s) (.refl s) fun n _ t ht => ht.trans (hport t n)
    · split
      · exact hport s port
      · exact .refl s

theorem acted_gpioPulse (k width : Nat) : Acted s (s.gpioPulse k width) := by
  unfold State.gpioPulse
  split
  · split
    · exact ⟨rfl, rfl, fun _ _ _ => rfl⟩
    · exact ⟨rfl, rfl, fun _ _ _ => rfl⟩
  · exact .refl s

theorem acted_raise {leaf : Nat} (hleaf : leaf < 2048) (inst : Nat) (w1 w2 w3 : Word) : Acted s (s.raise leaf inst w1 w2 w3) := by
  refine ⟨by rw [State.raise_frame], by rw [State.raise_frame], fun a hlow hhigh => rd_raise_of_not_eventReg s hleaf inst w1 w2 w3 ?_⟩
  unfold eventReg
  simp only [Reg.timeCtrl, Reg.ponLineCfg, Reg.evtStatus, Reg.evtBufDrop, Reg.merEvtLost] at hlow hhigh ⊢
  omega

theorem acted_wpAction (slot action arg : Nat) : Acted s (s.wpAction slot action arg) := by
  unfold State.wpAction
  split
  · exact (acted_cmpRequest s _).trans (acted_wpNote _ _)
  · split
    · exact (acted_gateRequest s _).trans (acted_wpNote _ _)
    · exact .refl s
  · exact (acted_almRequest s _).trans (acted_wpNote _ _)
  · exact (acted_bankRequest s (by decide) _).trans (acted_wpNote _ _)
  · exact acted_keySwitch s _ _
  · exact acted_gpioPulse s _ _
  · exact acted_raise s (by decide) _ _ _ _
  · exact .refl s

/-- The slot shows its end and leaves the armed ones. -/
def State.wpShown (slot : Nat) (skip : Bool) (late : Nat) : State :=
  (s.setArmed slot none).wpShow slot (if skip then 3 else 2) (decide (256 ≤ late)) late

/-- Two registers of a slot that leaves the armed ones. -/
theorem armedShown_frame (slot a b x y : Nat) : ((s.setArmed slot none).wrNat a x).wrNat b y = { s with
    regs := (((s.setArmed slot none).wrNat a x).wrNat b y).regs
    chrono := { s.chrono with armed := (((s.setArmed slot none).wrNat a x).wrNat b y).chrono.armed } } := rfl

theorem mer_armedShown (slot a b x y : Nat) : (((s.setArmed slot none).wrNat a x).wrNat b y).mer = s.mer := rfl

theorem wpShown_frame {slot : Nat} (skip : Bool) {late : Nat} :
    (s.wpShown slot skip late).chrono.armed.get (fun _ => none) slot = none ∧
      (s.wpShown slot skip late).rd (Reg.timeWpStatus slot) =
        BitVec.ofNat 32 ((if skip then 3 else 2) * 2 ^ 30 + ofBool (decide (256 ≤ late)) * 2 ^ 29) ∧
      (s.wpShown slot skip late).rd (Reg.timeWpLateness slot) = BitVec.ofNat 32 late ∧
      RegsBut [Reg.timeWpStatus slot, Reg.timeWpLateness slot] s (s.wpShown slot skip late) ∧
      s.wpShown slot skip late = { s with
        regs := (s.wpShown slot skip late).regs, chrono := { s.chrono with armed := (s.wpShown slot skip late).chrono.armed } } := by
  have hne : Reg.timeWpStatus slot ≠ Reg.timeWpLateness slot := by
    simp only [Reg.timeWpStatus, Reg.timeWpLateness]
    omega
  have harmed : (s.wpShown slot skip late).chrono.armed = s.chrono.armed.set (fun _ => none) slot none := rfl
  refine ⟨by rw [harmed, SMap.get_set_self], ?_, ?_, fun a ha => ?_, armedShown_frame s slot _ _ _ _⟩
  · rw [State.wpShown, State.wpShow, State.rd_wrNat, if_neg hne, State.rd_wrNat, if_pos rfl]
  · rw [State.wpShown, State.wpShow, State.rd_wrNat, if_pos rfl]
  · simp only [List.mem_cons, List.not_mem_nil, or_false, not_or] at ha
    rw [State.wpShown, State.wpShow, State.rd_wrNat, if_neg ha.2, State.rd_wrNat, if_neg ha.1]
    rfl

/-- A due slot without NOTIFY, of which no manager asked for a report, shows its end and acts unless it is skipped (R98). -/
theorem wpExecute_alone {slot now late : Nat} {a : Armed} {skip : Bool} (hlate : late = min (now - a.ns) 0xFFFFFFFF)
    (hskip : skip = ((decide (256 ≤ late) && a.skip) || (s.dev.mode == .safe && a.action != 6 && a.action != 7)))
    (hnotify : a.notify = false) (hslots : s.mer.wpSlots = []) :
    s.wpExecute slot a now = if skip then s.wpShown slot skip late else (s.wpShown slot skip late).wpAction slot a.action a.arg := by
  have hsafe : ((decide (256 ≤ late) && a.skip) || (s.dev.mode == .safe && !safeAction a.action)) = skip := by
    rw [hskip, safeAction]
    cases decide (256 ≤ late) <;> cases a.skip <;> simp [bne, Bool.and_assoc]
  unfold State.wpExecute
  dsimp only
  rw [← hlate, hsafe, hnotify]
  rw [if_neg Bool.false_ne_true, ← State.wpShown]
  have hleft (u : State) (hu : u.mer = s.mer) : u.wpLeft slot = u := by
    rw [State.wpLeft, hu, hslots]
    rfl
  have hmer : (s.wpShown slot skip late).mer = s.mer := mer_armedShown s slot _ _ _ _
  generalize s.wpShown slot skip late = u at hmer
  refine hleft _ ?_
  split
  · exact hmer
  · exact (acted_wpAction u slot a.action a.arg).2.1.trans hmer

/-- A tick with one slot armed. -/
theorem actionTick_one {slot : Nat} {a : Armed} (hmode : s.dev.mode ≠ .load) (harmed : s.chrono.armed = [(slot, some a)])
    (hdue : a.ns ≤ cmpNs (s.viewTime a.view s.raw)) : s.actionTick = s.wpExecute slot a (cmpNs (s.viewTime a.view s.raw)) := by
  have hget : s.chrono.armed.get (fun _ => none) slot = some a := by
    rw [harmed]
    simp [SMap.get]
  rw [State.actionTick, if_neg hmode, harmed]
  show s.wpTest slot = _
  rw [State.wpTest, hget]
  exact if_pos hdue

end

/-! ### SyncE and waypoints that are disarmed -/

/-- An output whose source is lost is held low (R91). -/
theorem synceLoss_squelched {s : State} {a : Nat} (ha : a < 2) (h : s.bit (Reg.timeSynceCfg a) 12 = true) :
    (s.synceLoss a).bit Reg.timeSynceStatus a = true ∧ (s.synceLoss a).synceRuns a = false ∧
      (s.synceLoss a).chrono.synceAt.get (fun _ => 0) a = s.raw ∧ .synce a false ∈ (s.synceLoss a).out ∧
      Raised (leafOf 11 (8 + a)) (s.synceLoss a) ∧
      RegsBut (Reg.timeSynceStatus :: eventRegs (leafOf 11 (8 + a))) s (s.synceLoss a) := by
  have hleaf : leafOf 11 (8 + a) < 2048 := by
    unfold leafOf
    omega
  have hstatus : ¬ eventReg Reg.timeSynceStatus := by
    unfold eventReg
    decide
  unfold State.synceLoss
  rw [if_pos h]
  generalize hv : (({ s with chrono.synceAt := s.chrono.synceAt.set (fun _ => 0) a s.raw } : State).setBit Reg.timeSynceStatus a true).emit
    (.synce a false) = v
  have hvbit : v.bit Reg.timeSynceStatus a = true := by
    have hrd : v.rd Reg.timeSynceStatus = Machine.setBit (s.rd Reg.timeSynceStatus) a true := by
      rw [← hv]
      exact (State.rd_setBit ..).trans (if_pos rfl)
    rw [State.bit, hrd]
    exact bit_setBit_self _ (by omega) true
  have hvat : v.chrono.synceAt.get (fun _ => 0) a = s.raw := by
    rw [← hv]
    exact SMap.get_set_self _ _ _ _
  have hvout : .synce a false ∈ v.out := by
    rw [← hv]
    exact List.mem_append_right _ (List.mem_singleton_self _)
  have hemit (u : State) (o : Output) (b : Nat) : (u.emit o).rd b = u.rd b := rfl
  have hvrd : ∀ b, b ≠ Reg.timeSynceStatus → v.rd b = s.rd b := fun b hb => by
    rw [← hv, hemit, State.rd_setBit, if_neg hb]
    rfl
  have hbit : (v.event (leafOf 11 (8 + a)) a).bit Reg.timeSynceStatus a = true := by
    rw [State.bit, State.event, rd_raise_of_not_eventReg v hleaf _ _ _ _ hstatus]
    exact hvbit
  refine ⟨hbit, ?_, ?_, mem_out_raise v hvout _ _ _ _ _, raised_raise _ _ _ _ _ _, fun b hb => ?_⟩
  · rw [State.synceRuns, hbit]
    simp
  · have hchrono : (v.event (leafOf 11 (8 + a)) a).chrono = v.chrono := by rw [State.event, State.raise_frame]
    rw [hchrono]
    exact hvat
  · obtain ⟨hne, hevent⟩ := not_or.mp (mt List.mem_cons.mpr hb)
    rw [(reports_event v _ a).2 b hevent, hvrd b hne]

/-- A disarmed slot is IDLE, whatever report it owes the manager. -/
theorem wpCtrlWrite_disarm {s : State} {slot : Nat} (hslot : slot < 512) {v : Word} {x : Armed} (h31 : bit v 31 = false) (h30 : bit v 30 = true)
    (harmed : s.chrono.armed.get (fun _ => none) slot = some x) :
    (s.wpCtrlWrite slot v).wpState slot = 0 ∧ (s.wpCtrlWrite slot v).chrono.armed.get (fun _ => none) slot = none := by
  have hevent : ¬ eventReg (Reg.timeWpStatus slot) := by
    unfold eventReg
    simp only [Reg.timeWpStatus, Reg.evtStatus, Reg.evtBufDrop, Reg.merEvtLost]
    omega
  have hleft (u : State) : (u.wpLeft slot).rd (Reg.timeWpStatus slot) = u.rd (Reg.timeWpStatus slot) ∧ (u.wpLeft slot).chrono = u.chrono := by
    unfold State.wpLeft
    dsimp only
    have hmer (w : State) (d : Nat) (m : MerMsg) : (w.sendMer d m).rd (Reg.timeWpStatus slot) = w.rd (Reg.timeWpStatus slot) ∧
        (w.sendMer d m).chrono = w.chrono := ⟨State.rd_sendMer w d m _, by rw [State.sendMer_frame]⟩
    split
    · exact ⟨rfl, rfl⟩
    · generalize hw : ({ u with mer.wpSlots := u.mer.wpSlots.erase slot } : State) = w
      have hwkept : w.rd (Reg.timeWpStatus slot) = u.rd (Reg.timeWpStatus slot) ∧ w.chrono = u.chrono := by
        rw [← hw]
        exact ⟨rfl, rfl⟩
      obtain ⟨hwrd, hwchrono⟩ := hwkept
      split
      · have hstored : (w.wpStore u.devId slot (u.wpState slot) (u.rd (Reg.timeWpLateness slot))).chrono = w.chrono := by
          obtain ⟨_, h⟩ := wrWords_frame w (Reg.merWpResultW0 u.devId)
            [BitVec.ofNat 32 (2 ^ 31 + u.wpState slot % 4 * 2 ^ 28 + slot % 512), u.rd (Reg.timeWpLateness slot)]
          rw [State.wpStore, h]
        refine ⟨?_, hstored.trans hwchrono⟩
        rw [State.wpStore, State.rd_wrWords_other _ (.inl (by simp only [Reg.timeWpStatus, Reg.merWpResultW0]; omega)), hwrd]
      · split
        · split
          · exact ⟨hwrd, hwchrono⟩
          · obtain ⟨hrd, hchrono⟩ := hmer w _ _
            exact ⟨hrd.trans hwrd, hchrono.trans hwchrono⟩
        · exact ⟨hwrd, hwchrono⟩
  generalize hu : (((s.wrTyped (Reg.timeWpCtrl slot) v).setArmed slot none).setFld (Reg.timeWpStatus slot) 31 30 0) = u
  have hrun : s.wpCtrlWrite slot v = if x.notify then
      (u.wpLeft slot).raise (leafOf 11 10) slot ((u.wpLeft slot).rd (Reg.timeWpStatus slot)) 0 0 else u.wpLeft slot := by
    unfold State.wpCtrlWrite
    rw [h31, h30, harmed, ← hu]
    rfl
  have hustate : u.wpState slot = 0 := by
    rw [← hu]
    exact State.fld_setFld_self _ _ (by decide) (by decide) _
  have huarmed : u.chrono.armed.get (fun _ => none) slot = none := by
    rw [← hu]
    exact SMap.get_set_self (fun _ => none) (s.wrTyped (Reg.timeWpCtrl slot) v).chrono.armed slot none
  obtain ⟨hrd, hchrono⟩ := hleft u
  have hend : (s.wpCtrlWrite slot v).rd (Reg.timeWpStatus slot) = u.rd (Reg.timeWpStatus slot) ∧ (s.wpCtrlWrite slot v).chrono = u.chrono := by
    rw [hrun]
    split
    · exact ⟨(rd_raise_of_not_eventReg _ (by decide) _ _ _ _ hevent).trans hrd, by rw [State.raise_frame]; exact hchrono⟩
    · exact ⟨hrd, hchrono⟩
  obtain ⟨hstatus, hchrono'⟩ := hend
  exact ⟨(congrArg (Machine.fld · 31 30) hstatus).trans hustate, by rw [hchrono']; exact huarmed⟩

/-- A slot that is armed (R97): its registers as they stand, LATE and LATENESS cleared. -/
theorem wpCtrlWrite_arm {s : State} {slot : Nat} {v : Word} (h31 : bit v 31 = true) :
    (s.wpCtrlWrite slot v).wpState slot = 1 ∧ (s.wpCtrlWrite slot v).rd (Reg.timeWpLateness slot) = 0 ∧
      (s.wpCtrlWrite slot v).chrono.armed.get (fun _ => none) slot = some ((s.wrTyped (Reg.timeWpCtrl slot) v).wpLoad slot) ∧
      RegsBut [Reg.timeWpCtrl slot, Reg.timeWpStatus slot, Reg.timeWpLateness slot] s (s.wpCtrlWrite slot v) ∧
      s.wpCtrlWrite slot v = { s with
        regs := (s.wpCtrlWrite slot v).regs, chrono := { s.chrono with armed := (s.wpCtrlWrite slot v).chrono.armed } } := by
  have hne : Reg.timeWpStatus slot ≠ Reg.timeWpLateness slot := by
    simp only [Reg.timeWpStatus, Reg.timeWpLateness]
    omega
  obtain ⟨hframe, hregs⟩ := s.onlyRegs_wrTyped v (Reg.timeWpCtrl slot)
  unfold State.wpCtrlWrite
  dsimp only
  rw [if_pos h31]
  generalize s.wrTyped (Reg.timeWpCtrl slot) v = u at hframe hregs
  generalize u.wpLoad slot = x
  refine ⟨?_, ?_, SMap.get_set_self (fun _ => none) u.chrono.armed slot (some x), fun a ha => ?_, ?_⟩
  · rw [State.wpState, State.wpShow, State.fld, State.rd_wrNat, if_neg hne, State.rd_wrNat, if_pos rfl]
    rfl
  · rw [State.wpShow, State.rd_wrNat, if_pos rfl]
    rfl
  · simp only [List.mem_cons, List.not_mem_nil, or_false, not_or] at ha
    rw [State.wpShow, State.rd_wrNat, if_neg ha.2.2, State.rd_wrNat, if_neg ha.2.1]
    exact hregs a (by simpa using ha.1)
  · unfold State.wpShow
    generalize (1 * 2 ^ 30 + ofBool false * 2 ^ 29) = n
    rw [hframe]
    rfl

theorem pulse_setPulse_self (s : State) (k : Nat) (p : Option Raw) : (s.setPulse k p).pulse k = p :=
  SMap.get_set_self (fun _ => none) s.chrono.gpio k p

theorem sameBut_setPulse (s : State) (k : Nat) (p : Option Raw) : SameBut State.pulse [k] s (s.setPulse k p) := fun j hj =>
  SMap.get_set_other (fun _ => none) s.chrono.gpio k j p (List.ne_of_not_mem_cons hj)

theorem regsBut_setPulse {l : List Nat} {s t : State} (h : RegsBut l s t) (k : Nat) (p : Option Raw) : RegsBut l s (t.setPulse k p) :=
  fun a ha => h a ha

/-- ENABLE and POLARITY are RW in every TIME_GPIO_CFG: decided over the pins. -/
theorem timeGpioCfg_fields : ∀ k : Fin 8, fieldRw (Reg.timeGpioCfg k) 1 0 = true := by decide

/-- A pulse on the 1PPS output, with the armed ToD bytes due after it (R92). -/
theorem ppsOut_pulse {s : State} (hen : s.bit Reg.timePpsOutCfg 0 = true) (hsec : s.ppsSecond s.raw ≠ s.ppsSecond (s.raw - 65536)) :
    s.ppsOut.out = s.out ++ [.ppsPulse (max 1 (s.fld Reg.timePpsOutCfg 15 8))] ∧ s.ppsOut.chrono.todArmed = false ∧
      s.ppsOut.chrono.todDue = (if s.chrono.todArmed then some (s.raw + BitVec.ofNat 96 (s.fld Reg.timeTodOutCtrl 15 0 * 65536000)) else
        s.chrono.todDue) ∧
      s.ppsOut = { s with out := s.ppsOut.out, chrono := s.ppsOut.chrono } := by
  have hdelay : s.fld Reg.timeTodOutCtrl 15 0 * 1000 * nsUnit = s.fld Reg.timeTodOutCtrl 15 0 * 65536000 := by
    rw [nsUnit, Nat.mul_assoc]
  have hnow : s.bit Reg.timePpsOutCfg 0 && s.ppsSecond s.raw != s.ppsSecond (s.raw - BitVec.ofNat 96 nsUnit) := by
    rw [hen]
    simpa [nsUnit] using hsec
  unfold State.ppsOut
  dsimp only
  rw [if_pos hnow, hdelay]
  generalize s.raw + BitVec.ofNat 96 (s.fld Reg.timeTodOutCtrl 15 0 * 65536000) = due
  cases harmed : s.chrono.todArmed with
  | false => exact ⟨rfl, harmed, rfl, rfl⟩
  | true => exact ⟨rfl, rfl, rfl, rfl⟩

/-- No slot is due, or the device is in LOAD: a tick evaluates nothing (R96, R100). -/
theorem actionTick_idle {s : State} (h : (s.chrono.armed.all fun e => e.2.all fun a => decide (cmpNs (s.viewTime a.view s.raw) < a.ns)) = true ∨
    s.dev.mode = .load) : s.actionTick = s := by
  have hvalue (m : SMap (Option Armed)) (k : Nat) (a : Armed) (hk : m.get (fun _ => none) k = some a) : ∃ e ∈ m, e.2 = some a := by
    induction m with
    | nil => cases hk
    | cons e m ih =>
      obtain ⟨j, x⟩ := e
      by_cases hj : j = k
      · rw [SMap.get, if_pos hj] at hk
        exact ⟨(j, x), List.mem_cons_self, hk⟩
      · rw [SMap.get, if_neg hj] at hk
        obtain ⟨e, he, hx⟩ := ih hk
        exact ⟨e, List.mem_cons_of_mem _ he, hx⟩
  unfold State.actionTick
  obtain hall | hload := h
  · split
    · rfl
    · refine State.each_induct (P := fun t => t = s) rfl fun slot _ t ht => ?_
      rw [ht]
      unfold State.wpTest
      split
      · next a ha =>
        obtain ⟨e, he, hx⟩ := hvalue _ _ _ ha
        have hdue := List.all_eq_true.mp hall e he
        rw [hx, Option.all_some, decide_eq_true_eq] at hdue
        exact if_neg (Nat.not_le.mpr hdue)
      · rfl
  · exact if_pos hload

theorem wpAction_pulse (s : State) (slot arg : Nat) : s.wpAction slot 6 arg = s.gpioPulse (arg % 8) (arg / 256 % 65536) := rfl

/-- Codes without an action (Table 04.10). -/
theorem wpAction_none (s : State) {slot action arg : Nat} (h : action = 0 ∨ 8 ≤ action) : s.wpAction slot action arg = s := by
  unfold State.wpAction
  split
  · omega
  · omega
  · omega
  · omega
  · omega
  · omega
  · omega
  · rfl

/-- Settles O47, command by command. -/
theorem stampsPulsesAndWaypoints : Obligations.StampsPulsesAndWaypoints := by
  unfold Obligations.StampsPulsesAndWaypoints
  refine ⟨fun _ _ _ _ _ _ => rfl, ?_, ?_, ?_, ?_, ?_, ?_, ?_, ?_, ?_, ?_, ?_, ?_, ?_, ?_, ?_, ?_, ?_, ?_, ?_⟩
  · intro val s hgo
    exact .intro rfl (snapWrite_go hgo)
  · intro q s e es hq
    have hrun : s.txtsRead q.val = ((({ s with chrono.txts := s.chrono.txts.set (fun _ => []) q.val es } : State).wr (Reg.timeTxtsW1 q.val)
        e.stamp.ns32).wrNat (Reg.timeTxtsW2 q.val) e.stamp.subns.toNat).ret (txtsW0 e) := by rw [State.txtsRead, hq]
    have hne : Reg.timeTxtsW1 q.val ≠ Reg.timeTxtsW2 q.val := by
      simp only [Reg.timeTxtsW1, Reg.timeTxtsW2]
      omega
    have hret (u : State) (w : Word) (a : Nat) : (u.ret w).rd a = u.rd a := rfl
    refine Runs.intro (t := s.txtsRead q.val) rfl ?_
    rw [hrun]
    refine ⟨SMap.get_set_self _ _ _ _, rfl, ?_, ?_, fun k hk => SMap.get_set_other _ _ _ _ _ (List.ne_of_not_mem_cons hk), fun a ha => ?_⟩
    · rw [hret, State.rd_wrNat, if_neg hne, State.rd_wr_self]
    · rw [hret, State.rd_wrNat, if_pos rfl]
    · simp only [List.mem_cons, List.not_mem_nil, or_false, not_or] at ha
      rw [hret, State.rd_wrNat, if_neg ha.2, State.rd_wr_other _ _ ha.1]
      rfl
  · intro q s hq
    refine congrArg Host.Outcome.next ?_
    rw [State.txtsRead, hq]
    rfl
  · intro a s
    exact ⟨fun h => .intro rfl (synceLoss_squelched a.isLt h), fun h => congrArg Host.Outcome.next (if_neg (by simp [h]))⟩
  · intro a at' s u d hu hd
    have hwhen : u.reached (u.chrono.synceAt.get (fun _ => 0) a.val + BitVec.ofNat 96 (100000000 * nsUnit)) = decide (d.toNat ≤ u.raw.toNat) := by
      rw [hd]
      rfl
    refine ⟨fun hheld hdue => Runs.intro (t := u.synceResume a.val) (congrArg Host.Outcome.next (by rw [hu])) ?_, fun h =>
      congrArg Host.Outcome.next ?_⟩
    · have hrun : u.synceResume a.val = (u.setBit Reg.timeSynceStatus a.val false).emit
          (.synce a.val (u.bit (Reg.timeSynceCfg a.val) 16 && u.fld (Reg.timeSynceCfg a.val) 9 8 != 3)) := by
        rw [State.synceResume, hwhen, if_pos (by simp [hheld, hdue])]
      have hcfg : Reg.timeSynceCfg a.val ≠ Reg.timeSynceStatus := by
        simp only [Reg.timeSynceCfg, Reg.timeSynceStatus]
        omega
      have hemit (v : State) (o : Output) (b : Nat) : (v.emit o).rd b = v.rd b := rfl
      have hbit : (u.synceResume a.val).bit Reg.timeSynceStatus a.val = false := by
        rw [hrun, State.bit, hemit, State.rd_setBit, if_pos rfl]
        exact bit_setBit_self _ (by omega) false
      have hcfgrd : (u.synceResume a.val).rd (Reg.timeSynceCfg a.val) = u.rd (Reg.timeSynceCfg a.val) := by
        rw [hrun, hemit, State.rd_setBit, if_neg hcfg]
      refine ⟨hbit, ?_, ?_, ?_⟩
      · rw [State.synceRuns, hbit, State.bit, State.fld, hcfgrd, hrun]
        simp only [Bool.not_false, Bool.and_true]
        rfl
      · intro b hb
        rw [hrun, hemit, State.rd_setBit, if_neg (List.ne_of_not_mem_cons hb)]
      · rw [hrun]
        rfl
    · rw [← hu, State.synceResume, hwhen, if_neg]
      obtain h | h := h
      · simp [h]
      · simp [Nat.not_le.mpr h]
  · intro falling cap s
    have hrun : s.ppsIn falling cap = if s.bit Reg.timePpsInCfg 0 && s.bit Reg.timePpsInCfg 1 == falling then
        (((s.wrNat Reg.timePpsInSecLo (secOf (s.viewTimeAt (s.fld Reg.timePpsInCfg 7 4) (captureRes cap)))).wrNat Reg.timePpsInSecHi
          (secOf (s.viewTimeAt (s.fld Reg.timePpsInCfg 7 4) (captureRes cap)) / 2 ^ 32)).wrNat Reg.timePpsInNs
            (nsOf (s.viewTimeAt (s.fld Reg.timePpsInCfg 7 4) (captureRes cap)))).wrap Reg.timePpsInCount else s := rfl
    refine ⟨fun hen hedge => Runs.intro (t := s.ppsIn falling cap) rfl ?_, fun h => congrArg Host.Outcome.next ?_⟩
    · rw [hrun, if_pos (by simp [hen, hedge])]
      generalize s.viewTimeAt (s.fld Reg.timePpsInCfg 7 4) (captureRes cap) = x
      refine ⟨?_, ?_, ?_, ?_⟩
      · rw [State.rd_wrap, if_neg (by decide), State.rd_wrNat, if_pos rfl]
      · rw [State.rd_wrap, if_neg (by decide), State.rd_wrNat, if_neg (by decide), State.rd_wrNat, if_neg (by decide), State.rd_wrNat, if_pos rfl]
      · rw [State.rd_wrap, if_pos rfl, State.rd_wrNat, if_neg (by decide), State.rd_wrNat, if_neg (by decide), State.rd_wrNat, if_neg (by decide)]
      · exact ((((onlyRegs_wr s _ _).trans (onlyRegs_wr _ _ _)).trans (onlyRegs_wr _ _ _)).trans (onlyRegs_wr _ _ _)).mono (by simp)
    · rw [hrun, if_neg]
      obtain h | h := h
      · simp [h]
      · simp [h]
  · intro b s
    refine ⟨fun h => congrArg Host.Outcome.next (if_pos h), fun h => Runs.intro (t := s.todByte b) rfl ?_, fun h =>
      congrArg Host.Outcome.next (by rw [State.todRead, h]; rfl)⟩
    rw [State.todByte, if_neg (show ¬ s.chrono.todIn.length < todMax from Nat.not_lt.mpr h)]
    refine ⟨?_, ?_, raised_raise _ _ _ _ _ _⟩
    · rw [State.event, State.raise_frame]
      rfl
    · rw [(reports_event _ (leafOf 11 11) 0).2 _ (by decide), State.rd_bump, if_pos rfl]
  · intro b bs s h
    exact congrArg Host.Outcome.next (by rw [State.todRead, h]; rfl)
  · intro val s
    refine ⟨fun h => congrArg Host.Outcome.next (if_pos h), fun h => congrArg Host.Outcome.next (if_neg (Nat.not_lt.mpr h)),
      fun h => Runs.intro (t := s.todCtrl val) rfl ?_, fun h => Runs.intro (t := s.todCtrl val) rfl ?_⟩
    · have hfld := s.fld_wrTyped_rw val (a := Reg.timeTodOutCtrl) (hi := 15) (lo := 0) (by decide)
      obtain ⟨hframe, hregs⟩ := s.onlyRegs_wrTyped val Reg.timeTodOutCtrl
      rw [State.todCtrl]
      dsimp only
      rw [if_pos h]
      generalize s.wrTyped Reg.timeTodOutCtrl val = u at *
      refine ⟨?_, hfld, hregs, ?_⟩
      · rw [hframe]
      · rw [hframe]
    · rw [State.todCtrl]
      dsimp only
      rw [if_neg (by simp [h])]
      exact s.onlyRegs_wrTyped val _
  · intro at' s u hu
    refine ⟨fun hen hsec => Runs.intro (t := u.ppsOut) (congrArg Host.Outcome.next (by rw [hu])) (ppsOut_pulse hen hsec),
      fun h => congrArg Host.Outcome.next ?_, fun h => congrArg Host.Outcome.next ?_, fun h => congrArg Host.Outcome.next ?_⟩
    · rw [← hu, State.ppsOut, if_neg]
      obtain h | h := h
      · simp [h]
      · rw [h]
        simp [nsUnit]
    · rw [← hu]
      cases hd : u.chrono.todDue with
      | none =>
        rw [hd] at h
        cases h
      | some d =>
        rw [hd, Option.any_some] at h
        rw [State.todTransmit, hd]
        exact if_pos h
    · rw [← hu, State.todTransmit]
      split
      · next d hd =>
        rw [hd, Option.all_some, decide_eq_true_eq] at h
        exact if_neg (by simpa [State.reached] using h)
      · rfl
  · intro k at' s u e hu hpulse
    have hrun : u.pulseEnd k.val = if e.toNat ≤ u.raw.toNat then u.setPulse k.val none else u := by rw [State.pulseEnd, hpulse]
    refine ⟨fun h => Runs.intro (t := u.pulseEnd k.val) (congrArg Host.Outcome.next (by rw [hu])) ?_, fun h => congrArg Host.Outcome.next ?_⟩
    · rw [hrun, if_pos h]
      exact ⟨pulse_setPulse_self u _ _, sameBut_setPulse u _ _, rfl⟩
    · rw [← hu, hrun, if_neg (Nat.not_le.mpr h)]
  · intro k at' s u hu hpulse
    refine congrArg Host.Outcome.next ?_
    rw [← hu, State.pulseEnd, hpulse]
  · intro k val s
    have hfld := s.fld_wrTyped_rw val (timeGpioCfg_fields k)
    obtain ⟨hframe, hregs⟩ := s.onlyRegs_wrTyped val (Reg.timeGpioCfg k.val)
    have hrun : s.gpioWrite k.val val = if (s.wrTyped (Reg.timeGpioCfg k.val) val).fld (Reg.timeGpioCfg k.val) 1 0 =
        s.fld (Reg.timeGpioCfg k.val) 1 0 then s.wrTyped (Reg.timeGpioCfg k.val) val
        else (s.wrTyped (Reg.timeGpioCfg k.val) val).setPulse k.val none := rfl
    rw [hfld] at hrun
    refine ⟨fun h => Runs.intro (t := s.gpioWrite k.val val) rfl ?_, fun h => Runs.intro (t := s.gpioWrite k.val val) rfl ?_⟩
    · rw [hrun, if_neg h]
      generalize s.wrTyped (Reg.timeGpioCfg k.val) val = u at *
      have hpulse (j : Nat) : u.pulse j = s.pulse j := by
        rw [hframe]
        rfl
      exact ⟨pulse_setPulse_self u _ _, hfld, fun j hj => (sameBut_setPulse u _ _ j hj).trans (hpulse j), hregs⟩
    · rw [hrun, if_pos h]
      exact s.onlyRegs_wrTyped val _
  · intro slot val s h
    exact .intro rfl (wpCtrlWrite_arm h)
  · intro slot val s hop
    have h31 : bit val 31 = false := by rw [bit_of_fld (hi := 31) (lo := 30) (by decide) (by decide), hop]; rfl
    have h30 : bit val 30 = true := by rw [bit_of_fld (hi := 31) (lo := 30) (by decide) (by decide), hop]; rfl
    refine ⟨fun harmed => ?_, fun hnone => Runs.intro (t := s.wpCtrlWrite slot.val val) rfl ?_⟩
    · obtain ⟨x, hx⟩ := Option.isSome_iff_exists.mp harmed
      exact .intro rfl (wpCtrlWrite_disarm slot.isLt h31 h30 hx)
    · have hrun : s.wpCtrlWrite slot.val val = s.wrTyped (Reg.timeWpCtrl slot.val) val := by
        unfold State.wpCtrlWrite
        rw [h31, h30, hnone]
        rfl
      rw [hrun]
      exact s.onlyRegs_wrTyped val _
  · intro slot val s hop
    have h31 : bit val 31 = false := by rw [bit_of_fld (hi := 31) (lo := 30) (by decide) (by decide), hop]; rfl
    have h30 : bit val 30 = false := by rw [bit_of_fld (hi := 31) (lo := 30) (by decide) (by decide), hop]; rfl
    have honly : OnlyRegs [Reg.timeWpCtrl slot.val] s (s.wpCtrlWrite slot.val val) := by
      have hrun : s.wpCtrlWrite slot.val val = s.wrTyped (Reg.timeWpCtrl slot.val) val := by
        unfold State.wpCtrlWrite
        rw [h31, h30]
        rfl
      rw [hrun]
      exact s.onlyRegs_wrTyped val _
    exact ⟨.intro rfl honly, .intro rfl honly⟩
  · intro s u hu h
    refine congrArg Host.Outcome.next ?_
    rw [← hu]
    exact actionTick_idle h
  · intro s u slot a late skip hu hmode harmed hslot hdue hlate hskip hnotify hslots
    have hrun : exec .actionTick s = .next (if skip then u.wpShown slot skip late else (u.wpShown slot skip late).wpAction slot a.action a.arg) := by
      refine congrArg Host.Outcome.next ?_
      rw [← hu, actionTick_one u hmode harmed hdue, wpExecute_alone u hlate hskip hnotify hslots]
    obtain ⟨hgone, hstatus, hlateness, hregs, hframe⟩ := wpShown_frame u (slot := slot) skip (late := late)
    have hacted : Acted (u.wpShown slot skip late)
        (if skip then u.wpShown slot skip late else (u.wpShown slot skip late).wpAction slot a.action a.arg) := by
      split
      · exact .refl _
      · exact acted_wpAction _ _ _ _
    refine Runs.intro hrun ?_
    have hkept {a : Nat} (ha : a = Reg.timeWpStatus slot ∨ a = Reg.timeWpLateness slot) := hacted.2.2 a (by
      simp only [Reg.timeCtrl, Reg.timeWpStatus, Reg.timeWpLateness] at ha ⊢
      omega) (by
      simp only [Reg.ponLineCfg, Reg.timeWpStatus, Reg.timeWpLateness] at ha ⊢
      omega)
    have hraw : (u.wpShown slot skip late).raw = u.raw := by rw [hframe]
    have hgpio (k : Nat) (hk : k < 8) : (u.wpShown slot skip late).rd (Reg.timeGpioCfg k) = u.rd (Reg.timeGpioCfg k) := hregs _ (by
      simp only [List.mem_cons, List.not_mem_nil, or_false, Reg.timeGpioCfg, Reg.timeWpStatus, Reg.timeWpLateness]
      omega)
    generalize u.wpShown slot skip late = x at *
    refine ⟨by rw [hacted.1]; exact hgone, (hkept (.inl rfl)).trans hstatus, (hkept (.inr rfl)).trans hlateness, fun h => ?_,
      fun hnot hpulse hen hwidth => ?_, fun hnot hevent => ?_⟩
    · have hsame : (if skip then x else x.wpAction slot a.action a.arg) = x := by
        split
        · rfl
        · next hnot => exact wpAction_none x (h.resolve_left hnot)
      rw [hsame]
      exact ⟨hregs, hframe⟩
    · have hk : a.arg % 8 < 8 := Nat.mod_lt _ (by decide)
      have hstart : x.gpioPulse (a.arg % 8) (a.arg / 256 % 65536) =
          x.setPulse (a.arg % 8) (some (u.raw + BitVec.ofNat 96 (a.arg / 256 % 65536 * 16 * 65536))) := by
        have hx : x.bit (Reg.timeGpioCfg (a.arg % 8)) 0 = true := by
          rw [State.bit, hgpio _ hk]
          exact hen
        rw [State.gpioPulse, if_pos hx, if_neg hwidth, hraw, nsUnit]
      rw [hnot, if_neg Bool.false_ne_true, hpulse, wpAction_pulse, hstart]
      exact ⟨pulse_setPulse_self x _ _, regsBut_setPulse hregs _ _⟩
    · rw [hnot, if_neg Bool.false_ne_true, hevent]
      exact raised_raise _ _ _ _ _ _
  · intro s u w slot a hu hw hmode hsafe harmed hdue hlate hnotify hslots
    have hsmall : decide (256 ≤ cmpNs (u.viewTime a.view u.raw) - a.ns) = false := decide_eq_false (by omega)
    have hrun : exec .actionTick s = .next (w.wpAction slot a.action a.arg) := by
      refine congrArg Host.Outcome.next ?_
      rw [← hu, actionTick_one u hmode harmed hdue, wpExecute_alone u (late := cmpNs (u.viewTime a.view u.raw) - a.ns) (skip := false) (by omega)
        (by simp [hsmall, hsafe]) hnotify hslots, State.wpShown, hsmall, if_neg Bool.false_ne_true, if_neg Bool.false_ne_true, ← hw]
    rw [hrun]
    refine ⟨fun h => ?_, fun h hport => ?_, fun h => ?_, fun h => ?_, fun h => ?_⟩
    · rw [h]
      rfl
    · rw [h]
      exact congrArg Host.Outcome.next (if_pos hport)
    · rw [h]
      rfl
    · rw [h]
      rfl
    · rw [h]
      rfl

end Sys2Proof.Machine
end

section
/-!
PROOFS. XGEM frames down and up, and the reassembly timeout (O34; R108, R169 to R173, R178, R179).
-/
open Sys2Proof.Safety
namespace Sys2Proof.Machine

/-! ### The downstream release (R108, R169) -/

theorem area_idleFill (s : State) (j k : Nat) : (s.idleFill j k).area j = ((s.area j).1 + k, (s.area j).2) := by
  unfold State.idleFill
  split
  · next hk => rw [hk]; rfl
  · exact SMap.get_set_self ..

theorem idleFill_frame (s : State) (j k : Nat) :
    ∃ area out, s.idleFill j k = { s with xgm := { s.xgm with area }, out } := by
  unfold State.idleFill
  split
  · exact ⟨_, _, rfl⟩
  · exact ⟨_, _, rfl⟩

/-- The frame that waits for channel `j` taken from its place. -/
def State.waitTaken (s : State) (j : Nat) : State :=
  { s with xgm := { s.xgm with wait := s.xgm.wait.set (fun _ => none) j none } }

theorem ponRelease_of_closed {s : State} {j : Nat} (space : Nat) (qBad : Bool) (e : CtxErr)
    (h : s.txOn (j / 2) = false ∨ s.serving = false ∨ s.bit (Reg.ponLineStatus (j / 2)) 31 = false ∨
      (s.area j).2 ≤ (s.area j).1) : s.ponRelease j space qBad e = s := by
  unfold State.ponRelease
  refine if_pos ?_
  obtain h | h | h | h := h <;> simp [h]

section
variable {s w : State} {j space : Nat} (htx : s.txOn (j / 2) = true) (hserving : s.serving = true)
  (hup : s.bit (Reg.ponLineStatus (j / 2)) 31 = true) (hw : w = s.idleFill j ((s.area j).2 - (s.area j).1 - space))
  (hroom : (w.area j).1 < (w.area j).2)
include htx hserving hup hw hroom

theorem ponRelease_of_waiting (qBad : Bool) (e : CtxErr) {eq : Nat} {f : Stored}
    (hwait : w.xgm.wait.get (fun _ => none) j = some (eq, f)) :
    s.ponRelease j space qBad e = (w.waitTaken j).dsPlace j eq f e := by
  have hopen : ¬ (s.area j).2 ≤ (s.area j).1 := by
    rw [hw, area_idleFill] at hroom
    dsimp only at hroom
    omega
  unfold State.ponRelease
  rw [if_neg (by simp [htx, hserving, hup, hopen])]
  dsimp only
  rw [← hw, if_neg (Nat.not_le.mpr hroom), hwait]
  rfl

theorem ponRelease_of_none_waits (qBad : Bool) (e : CtxErr) (hwait : w.xgm.wait.get (fun _ => none) j = none) :
    s.ponRelease j space qBad e = w.ponSelect j qBad fun eq f s => s.dsPlace j eq f e := by
  have hopen : ¬ (s.area j).2 ≤ (s.area j).1 := by
    rw [hw, area_idleFill] at hroom
    dsimp only at hroom
    omega
  unfold State.ponRelease
  rw [if_neg (by simp [htx, hserving, hup, hopen])]
  dsimp only
  rw [← hw, if_neg (Nat.not_le.mpr hroom), hwait]

omit htx hup hroom in
theorem serving_filled : w.serving = true := by
  obtain ⟨area, out, hfill⟩ := idleFill_frame s j ((s.area j).2 - (s.area j).1 - space)
  rw [hw, hfill]
  exact hserving

end

section
variable {s : State} {j : Nat} {r : Option (List Nat) × State} {qBad : Bool} {k : Nat → Stored → State → State}
  (hserving : s.serving = true) (hroot : s.rootOk j = true)
  (hr : r = s.settle.select (fun i => !(s.node 5 i).frames.isEmpty) 4 1 j)

theorem ponSelect_of_root_down (qBad : Bool) (k : Nat → Stored → State → State) (hroot : s.rootOk j = false) :
    s.ponSelect j qBad k = s := by
  unfold State.ponSelect
  exact if_pos (by simp [hroot])

include hserving hroot hr

theorem ponSelect_of_none (hnone : r.1 = none) : s.ponSelect j qBad k = r.2 := by
  unfold State.ponSelect
  rw [if_neg (by simp [hserving, hroot])]
  dsimp only
  rw [← hr, hnone]

theorem ponSelect_of_path {path : List Nat} {f : Stored} {fs : List Stored} (hpath : r.1 = some path)
    (hframes : (r.2.node 5 (path.getLastD 0)).frames = f :: fs) :
    s.ponSelect j false k =
      (((r.2.setNode 5 (path.getLastD 0) { r.2.node 5 (path.getLastD 0) with frames := fs }).chargePath j f.len
        path).settle.cntPair (524288 + path.getLastD 0) f.len).readFrame f (k (path.getLastD 0) f) := by
  unfold State.ponSelect
  rw [if_neg (by simp [hserving, hroot])]
  dsimp only
  rw [← hr, hpath]
  dsimp only
  rw [hframes]
  rfl

end

/-! ### A released frame is placed (R169 to R173) -/

theorem dsPlace_of_noBind {s : State} {j eq : Nat} {e : CtxErr} (f : Stored) (h : s.dsCheck j eq e = .noBind) :
    s.dsPlace j eq f e = s.bump (Reg.xgmDsNobind j) := by
  unfold State.dsPlace
  rw [h]

theorem dsPlace_of_noKey {s : State} {j eq : Nat} {e : CtxErr} (f : Stored) (h : s.dsCheck j eq e = .noKey) :
    s.dsPlace j eq f e = s.bump (Reg.xgmDsNokey j) := by
  unfold State.dsPlace
  rw [h]

/-- What a frame's bytes are on the line: under the key that the check chose, or in clear. -/
theorem dsPlace_of_fits {s : State} {j eq pid index : Nat} {key : Option (BitVec 128)} {e : CtxErr} {f : Stored}
    (hts : f.ts = none) (h : s.dsCheck j eq e = .send pid index key)
    (hfits : 8 + Config.xgemPadded (j % 2) f.frame.bytes.length ≤ (s.area j).2 - (s.area j).1) :
    s.dsPlace j eq f e =
      ((s.emit (.xgem j (s.area j).1 pid index true (key.elim f.frame.bytes fun k =>
        xgemCipher k false s.chrono.ponSf 0 (s.area j).1 f.frame.bytes))).setArea j
          ((s.area j).1 + (8 + Config.xgemPadded (j % 2) f.frame.bytes.length), (s.area j).2)).bump (Reg.xgmDsFrames j) := by
  have hstamp : s.dsStamp j f = s := by
    unfold State.dsStamp
    rw [hts]
  unfold State.dsPlace
  rw [h]
  dsimp only
  rw [if_pos hfits, hstamp]
  unfold State.dsXgem
  cases key with
  | none => rfl
  | some k => rfl

/-! ### Where an upstream frame stands (R178) -/

theorem getElem?_setAt_self {α : Type} (l : List α) (i : Nat) (v : α) : (setAt l i v)[i]? = l[i]?.map fun _ => v := by
  induction l generalizing i with
  | nil => rfl
  | cons x l ih =>
    cases i with
    | zero => rfl
    | succ i => exact ih i

theorem updBurst_frame (s : State) (j f i : Nat) (g : Burst → Burst) : ∃ pon, s.updBurst j f i g = { s with pon } := ⟨_, rfl⟩

theorem mapOf_updMap (s : State) (j f : Nat) {g : PonMap → PonMap} (hg : ∀ m, (g m).f = m.f) :
    (s.updMap j f g).mapOf j f = (s.mapOf j f).map g := by
  have hmaps : (s.updMap j f g).maps j = (s.maps j).map fun m => if m.f = f then g m else m := SMap.get_set_self ..
  unfold State.mapOf
  rw [hmaps]
  induction s.maps j with
  | nil => rfl
  | cons m l ih =>
    by_cases hm : m.f = f
    · simp [hm, hg]
    · simpa [hm] using ih

/-- A map whose burst `i` is changed by `g`. -/
def PonMap.burstSet (m : PonMap) (i : Nat) (g : Burst → Burst) : PonMap :=
  match m.bursts[i]? with
  | some b => { m with bursts := setAt m.bursts i (g b) }
  | none => m

theorem updBurst_eq (s : State) (j f i : Nat) (g : Burst → Burst) :
    s.updBurst j f i g = s.updMap j f fun m => m.burstSet i g := rfl

theorem burstSet_apart (m : PonMap) (i : Nat) (g : Burst → Burst) :
    (m.burstSet i g).f = m.f ∧ (m.burstSet i g).sent = m.sent ∧ (m.burstSet i g).bursts[i]? = m.bursts[i]?.map g := by
  unfold PonMap.burstSet
  split
  · next hb => exact ⟨rfl, rfl, by rw [getElem?_setAt_self, hb]; rfl⟩
  · next hb => exact ⟨rfl, rfl, by rw [hb]; rfl⟩

theorem burstOf_updBurst (s : State) (j f i : Nat) (g : Burst → Burst) :
    (s.updBurst j f i g).burstOf j f i = (s.burstOf j f i).map g := by
  unfold State.burstOf
  rw [updBurst_eq, mapOf_updMap s j f fun m => (burstSet_apart m i g).1]
  cases s.mapOf j f with
  | none => rfl
  | some m =>
    obtain ⟨-, hsent, hbursts⟩ := burstSet_apart m i g
    simp only [Option.map_some, hsent, hbursts]
    split <;> rfl

/-- Allocation `k` of a burst ended by an XGEM header that cannot be corrected. -/
def burstKilled (b : Burst) (k : Nat) : Burst :=
  match b.grants[k]? with
  | some g => { b with grants := setAt b.grants k { g with dead := true } }
  | none => b

theorem grants_burstKilled (b : Burst) (k : Nat) : ((burstKilled b k).grants[k]?).all (fun g => g.dead) = true := by
  unfold burstKilled
  split
  · next g hg => simp [getElem?_setAt_self, hg]
  · next hg => simp [hg]

theorem upXgemAt_of_unconfirmed {s : State} {j f i k : Nat} (x : UpXgem) (full : Bool) (e : CtxErr)
    (h : ((s.burstOf j f i).all fun b => b.st != .confirmed || b.grants[k]?.isNone) = true) :
    s.upXgemAt j f i k x full e = s := by
  unfold State.upXgemAt
  cases hb : s.burstOf j f i with
  | none => rfl
  | some b =>
    rw [hb] at h
    dsimp only
    split
    · next hst =>
      cases hg : b.grants[k]? with
      | none => rfl
      | some g => simp [hst, hg] at h
    · rfl

/-- The place of a frame of allocation `g` of burst `b`, which begins at byte `pos`. -/
def upPlace (j f i k : Nat) (b : Burst) (g : Grant) (pos : Nat) (errored : Bool) : UpAt :=
  ⟨j, f, i, k, b.onu, b.stamp, g, b.start, pos, errored⟩

/-- A frame of a confirmed burst: where the next one lies is noted, and the checks of Table 08.3 follow. -/
theorem upXgemAt_of_confirmed {s : State} {j f i k : Nat} {b : Burst} {g : Grant} (x : UpXgem) (full : Bool) (e : CtxErr)
    (hb : s.burstOf j f i = some b) (hst : b.st = .confirmed) (hg : b.grants[k]? = some g) :
    ∃ pon pos errored, s.upXgemAt j f i k x full e =
        ({ s with pon } : State).upXgem (upPlace j f i k b g pos errored) x full e ∧ (b.bad = [] → errored = false) := by
  let pos := g.next.getD (payloadAt (j % 2) b.grants k)
  let len := 8 + Config.xgemPadded (j % 2) x.bytes.length
  refine ⟨(s.updBurst j f i fun b => { b with grants := setAt b.grants k { g with next := some (pos + len) } }).pon, pos,
    inBadCw (j % 2) b.bad pos len, ?_, fun hbad => by rw [hbad]; rfl⟩
  unfold State.upXgemAt
  rw [hb]
  dsimp only
  rw [if_pos hst, hg]
  rfl

/-! ### The steps of Table 08.3 (R178) -/

theorem usDelivered_frame (s : State) (u : UpAt) (bytes : Nat) : ∃ rck, s.usDelivered u bytes = { s with rck } := by
  unfold State.usDelivered
  split
  · dsimp only
    split
    · exact ⟨_, rfl⟩
    · exact ⟨_, rfl⟩
  · exact ⟨_, rfl⟩

theorem upXgem_of_over {s : State} {u : UpAt} {x : UpXgem} (full : Bool) (e : CtxErr)
    (h : u.grant.dead = true ∨ (x.hec = true ∧ x.pid = 65535)) : s.upXgem u x full e = s := by
  unfold State.upXgem
  obtain h | ⟨hhec, hpid⟩ := h
  · exact if_pos h
  · rw [if_neg (show ¬ (!x.hec) = true by simp [hhec]), if_pos hpid, ite_self]

theorem upXgem_of_bad_header {s : State} {u : UpAt} {x : UpXgem} (full : Bool) (e : CtxErr) (hdead : u.grant.dead = false)
    (hhec : x.hec = false) : s.upXgem u x full e = s.usHecErr u := by
  unfold State.upXgem
  rw [if_neg (by simp [hdead]), if_pos (by simp [hhec])]

theorem each_reasmAbort (s : State) (n : Nat) (l : List Nat) :
    ∃ reasm, (s.each l fun pid s => s.reasmAbort n pid) = { s with xgm := { s.xgm with reasm } } := by
  refine State.each_induct (P := fun t => ∃ reasm, t = { s with xgm := { s.xgm with reasm } }) ⟨_, rfl⟩ ?_
  rintro pid - t ⟨reasm, rfl⟩
  exact ⟨_, rfl⟩

/-- A header that cannot be corrected is counted, and its allocation is over. -/
theorem usHecErr_counts (s : State) (u : UpAt) :
    OnlyRegs [Reg.xgmUsHecErr u.j] { s with pon := (s.usHecErr u).pon, xgm := (s.usHecErr u).xgm } (s.usHecErr u) ∧
      (s.usHecErr u).rd (Reg.xgmUsHecErr u.j) = satAdd (s.rd (Reg.xgmUsHecErr u.j)) 1 ∧
      ((s.usHecErr u).burstOf u.j u.f u.i).all (fun b => (b.grants[u.k]?).all fun g => g.dead) = true := by
  obtain ⟨pon, hpon⟩ := updBurst_frame s u.j u.f u.i fun b => burstKilled b u.k
  have hburst := burstOf_updBurst s u.j u.f u.i fun b => burstKilled b u.k
  have heq : ∃ l, s.usHecErr u = ((s.updBurst u.j u.f u.i fun b => burstKilled b u.k).each l fun pid s => s.reasmAbort u.n pid).bump
      (Reg.xgmUsHecErr u.j) := ⟨_, rfl⟩
  obtain ⟨l, heq⟩ := heq
  obtain ⟨reasm, hreasm⟩ := each_reasmAbort (s.updBurst u.j u.f u.i fun b => burstKilled b u.k) u.n l
  rw [heq, hreasm, hpon]
  rw [hpon] at hburst
  refine ⟨onlyRegs_wr _ _ _, (State.rd_bump _ _ _).trans (if_pos rfl), ?_⟩
  have hkept : ∀ (v : State) (a : Nat), (v.bump a).burstOf u.j u.f u.i = v.burstOf u.j u.f u.i := fun v a => rfl
  rw [hkept]
  refine (congrArg (fun o : Option Burst => o.all fun b => (b.grants[u.k]?).all fun g => g.dead) hburst).trans ?_
  cases s.burstOf u.j u.f u.i with
  | none => rfl
  | some b => exact grants_burstKilled b u.k

section
variable {s : State} {u : UpAt} {x : UpXgem} (hdead : u.grant.dead = false) (hhec : x.hec = true) (hpid : x.pid ≠ 65535)
include hdead hhec hpid

/-- A frame whose header is good is delivered, and then checked. -/
theorem upXgem_of_good_header (full : Bool) (e : CtxErr) :
    s.upXgem u x full e =
      let s1 := s.usDelivered u x.bytes.length
      if e == .binding || s1.spoofed u x.pid then s1.usSpoof u x.pid
      else if (e == .key && x.key != 0) || s1.usKeyBad u x then s1.bump (Reg.xgmUsKeyErr u.j)
      else if u.errored then s1.usErrored u x
      else s1.usReasm u { x with bytes := s1.usPlain u x } full := by
  unfold State.upXgem
  rw [if_neg (by simp [hdead]), if_neg (by simp [hhec]), if_neg hpid]

theorem upXgem_of_spoofed (full : Bool) (hspoof : s.spoofed u x.pid = true) :
    ∃ rck, s.upXgem u x full .none = ({ s with rck } : State).usSpoof u x.pid := by
  obtain ⟨rck, hrck⟩ := usDelivered_frame s u x.bytes.length
  refine ⟨rck, ?_⟩
  rw [upXgem_of_good_header hdead hhec hpid]
  dsimp only
  rw [hrck]
  exact if_pos (by rw [Bool.or_eq_true]; exact .inr hspoof)

theorem upXgem_of_keyless (full : Bool) (hspoof : s.spoofed u x.pid = false) (hkey : s.usKeyBad u x = true) :
    ∃ rck, s.upXgem u x full .none = ({ s with rck } : State).bump (Reg.xgmUsKeyErr u.j) := by
  obtain ⟨rck, hrck⟩ := usDelivered_frame s u x.bytes.length
  refine ⟨rck, ?_⟩
  rw [upXgem_of_good_header hdead hhec hpid]
  dsimp only
  rw [hrck]
  refine (if_neg ?_).trans (if_pos ?_)
  · rw [Bool.or_eq_true]
    exact fun h => h.elim (by decide) fun h => absurd (hspoof.symm.trans h) (by decide)
  · rw [Bool.or_eq_true]
    exact .inr hkey

theorem upXgem_of_clear (full : Bool) (hspoof : s.spoofed u x.pid = false) (hkey : s.usKeyBad u x = false)
    (herr : u.errored = false) (hclear : x.key = 0) :
    ∃ rck, s.upXgem u x full .none = ({ s with rck } : State).usReasm u x full := by
  obtain ⟨rck, hrck⟩ := usDelivered_frame s u x.bytes.length
  refine ⟨rck, ?_⟩
  have hplain : ({ s with rck } : State).usPlain u x = x.bytes := by
    unfold State.usPlain
    rw [hclear]
    rfl
  rw [upXgem_of_good_header hdead hhec hpid]
  dsimp only
  rw [hrck, hplain]
  refine (if_neg ?_).trans ((if_neg ?_).trans (if_neg (by simp [herr])))
  · rw [Bool.or_eq_true]
    exact fun h => h.elim (by decide) fun h => absurd (hspoof.symm.trans h) (by decide)
  · rw [Bool.or_eq_true]
    exact fun h => h.elim (by simp) fun h => absurd (hkey.symm.trans h) (by decide)

end

/-- The frame is of no port-ID bound to the burst's ONU (Table 08.3 step 3). -/
def State.unbound (s : State) (n pid onu : Nat) : Prop :=
  8192 ≤ pid ∨ Machine.bit (s.binding n pid).cfg0 31 = false ∨ Machine.bit (s.binding n pid).cfg0 30 = true ∨
    Machine.fld (s.binding n pid).cfg0 9 0 ≠ onu

theorem spoofed_of_unbound {s : State} {u : UpAt} {pid : Nat} (h : s.unbound u.n pid u.onu) : s.spoofed u pid = true := by
  unfold State.spoofed
  obtain h | h | h | h := h <;> simp [h]

theorem spoofed_of_bound {s : State} {u : UpAt} {pid : Nat} (hstrict : s.allocStrict = false) (h : ¬ s.unbound u.n pid u.onu) :
    s.spoofed u pid = false := by
  simp only [State.unbound, not_or, not_le, Bool.not_eq_false, Bool.not_eq_true, ne_eq, not_not] at h
  obtain ⟨hpid, hvalid, hmc, honu⟩ := h
  unfold State.spoofed
  simp [hpid, hvalid, hmc, honu, hstrict]

/-- The capture `n` of the first spoofed frame since the last read, and its event. -/
def State.spoofShown (s : State) (n pid : Nat) : State :=
  if s.bit Reg.xgmLastSpoof 31 then s
  else ({ s.wrNat Reg.xgmLastSpoof n with xgm.spoofId := pid } : State).event (leafOf 12 5) 0

theorem usSpoof_eq (s : State) (u : UpAt) (pid : Nat) :
    s.usSpoof u pid = (s.bump (Reg.xgmUsSpoof u.j)).spoofShown (2 ^ 31 + u.n * 2 ^ 22 + u.c * 2 ^ 21 + u.onu) pid := rfl

theorem spoofShown_frame (s : State) (n pid : Nat) {a : Nat} (hevent : ¬ eventReg a) (hne : a ≠ Reg.xgmLastSpoof) :
    (s.spoofShown n pid).rd a = s.rd a ∧ (s.spoofShown n pid).xgm.reasm = s.xgm.reasm ∧ (s.spoofShown n pid).cmp = s.cmp := by
  unfold State.spoofShown
  split
  · exact ⟨rfl, rfl, rfl⟩
  · refine ⟨?_, by rw [State.event, State.raise_frame]; rfl, by rw [State.event, State.raise_frame]; rfl⟩
    refine (rd_raise_of_not_eventReg _ (by decide) _ _ _ _ hevent).trans ?_
    exact (State.rd_wr s Reg.xgmLastSpoof _ a).trans (if_neg hne)

/-- A spoofed frame is counted; it reaches no reassembly and no buffer. -/
theorem usSpoof_counts (s : State) (u : UpAt) (pid : Nat) (hj : u.j < 96) :
    (s.usSpoof u pid).rd (Reg.xgmUsSpoof u.j) = satAdd (s.rd (Reg.xgmUsSpoof u.j)) 1 ∧
      (s.usSpoof u pid).xgm.reasm = s.xgm.reasm ∧ (s.usSpoof u pid).cmp = s.cmp := by
  have hcount : (s.bump (Reg.xgmUsSpoof u.j)).rd (Reg.xgmUsSpoof u.j) = satAdd (s.rd (Reg.xgmUsSpoof u.j)) 1 :=
    (State.rd_bump _ _ _).trans (if_pos rfl)
  have hevent : ¬ eventReg (Reg.xgmUsSpoof u.j) := by
    simp only [eventReg, Reg.xgmUsSpoof, Reg.evtStatus, Reg.evtBufDrop, Reg.merEvtLost]
    omega
  have hne : Reg.xgmUsSpoof u.j ≠ Reg.xgmLastSpoof := by
    simp only [Reg.xgmUsSpoof, Reg.xgmLastSpoof]
    omega
  obtain ⟨hrd, hreasm, hcmp⟩ := spoofShown_frame (s.bump (Reg.xgmUsSpoof u.j))
    (2 ^ 31 + u.n * 2 ^ 22 + u.c * 2 ^ 21 + u.onu) pid hevent hne
  rw [usSpoof_eq]
  exact ⟨hrd.trans hcount, hreasm, hcmp⟩

/-! ### Reassembly (R179) -/

theorem xreasm_setXreasm_self (s : State) (n pid : Nat) (y : XReasm) : (s.setXreasm n pid y).xreasm n pid = y := by
  unfold State.xreasm State.setXreasm
  exact SMap.get_set_self ..

theorem usReasm_of_whole {s : State} {u : UpAt} {x : UpXgem} (full : Bool) (hidle : s.xreasm u.n x.pid = {}) (hlf : x.lf = true) :
    s.usReasm u x full = s.usComplete u.j x.pid u.onu u.grant.alloc u.stamp x.bytes full := by
  unfold State.usReasm
  rw [hidle]
  simp [hlf]

/-- The reassembly that a first fragment opens. -/
def UpAt.opened (u : UpAt) (bs : List Byte) : XReasm :=
  { isOpen := true, bytes := bs, units := ceilDiv bs.length 256, u := u.f, onu := u.onu, ch := u.c, alloc := u.grant.alloc,
    stamp := u.stamp }

/-- A first fragment opens the reassembly of its port-ID. -/
theorem usReasm_of_first {s : State} {u : UpAt} {x : UpXgem} (full : Bool) (hidle : s.xreasm u.n x.pid = {}) (hlf : x.lf = false)
    (hsdu : x.bytes.length ≤ s.maxSdu) (hunits : s.reasmUnits + ceilDiv x.bytes.length 256 ≤ reasmUnitsMax) :
    s.usReasm u x full =
      s.setXreasm u.n x.pid (u.opened x.bytes) := by
  unfold State.usReasm
  rw [hidle]
  simp [hlf, Nat.not_lt.mpr hsdu, Nat.not_lt.mpr hunits, UpAt.opened]

theorem parseFrom_congr {s t : State} (hregs : t.regs = s.regs) (g : ParseGraph) (bs : List Byte) (n node off : Nat)
    (hs : List Hdr) : t.parseFrom g bs n node off hs = s.parseFrom g bs n node off hs := by
  have hhit : t.transHit = s.transHit := by
    funext key k
    cases k with
    | const v => rfl
    | parseVal k n => exact congrArg (fun w : Word => key == w.toNat % 2 ^ n) (State.rd_of_regs hregs _)
  induction n generalizing node off hs with
  | zero => rfl
  | succ n ih => simp only [State.parseFrom, hhit, ih]

theorem attach_congr {s t : State} (hregs : t.regs = s.regs) (hdev : t.dev = s.dev) (f : Frame) : t.attach f = s.attach f := by
  have hpipe : t.pipeFor f.port = s.pipeFor f.port := by
    unfold State.pipeFor
    rw [hdev]
    simp only [State.fld_of_regs hregs]
  have hparse : t.parse (s.pipeFor f.port) f.port f.bytes = s.parse (s.pipeFor f.port) f.port f.bytes := by
    unfold State.parse State.pipe
    rw [hdev]
    simp only [parseFrom_congr hregs]
  unfold State.attach State.ptpOf
  rw [hpipe, hparse]

/-- A whole frame with a good FCS enters the ingress buffer of its port's pipeline. -/
theorem usComplete_of_good {s : State} {j pid onu alloc : Nat} {st : Stamp} {bs : List Byte} (hserving : s.serving = true)
    (hfcs : fcsOk bs = true) :
    let f : Frame := { bytes := bs, port := j / 2, ch := j % 2, onu := onu, alloc := alloc, xgem := pid, stamp := st }
    let t := s.usComplete j pid onu alloc st bs false
    t.rd (Reg.xgmUsFrames j) = satAdd (s.rd (Reg.xgmUsFrames j)) 1 ∧
      t.ingress (s.pipeFor (j / 2)) = s.ingress (s.pipeFor (j / 2)) ++ [s.attach f] ∧ t.xgm.reasm = s.xgm.reasm ∧
      RegsBut [Reg.xgmUsFrames j, Reg.chkInj] s t := by
  intro f t
  have ht : t = (s.frameIn f false).bump (Reg.xgmUsFrames j) := if_pos hfcs
  have hpass : s.passes (s.attach f) = true := by
    unfold State.passes
    rw [hserving]
    rfl
  obtain ⟨hjoins, -, hrd⟩ := State.frameIn_joins hpass
  have hxgm : (s.frameIn f false).xgm = s.xgm := by rw [(frameIn_offered s f false).2]
  have hne : Reg.xgmUsFrames j ∉ [Reg.chkInj] := by
    simp only [Reg.xgmUsFrames, Reg.chkInj, List.mem_singleton]
    omega
  rw [ht]
  refine ⟨?_, hjoins, by rw [← hxgm]; rfl, fun a ha => ?_⟩
  · rw [State.rd_bump, if_pos rfl, hrd _ hne]
  · simp only [List.mem_cons, not_or] at ha
    obtain ⟨hframes, hinj, -⟩ := ha
    rw [State.rd_bump, if_neg hframes, hrd a (by simpa using hinj)]

theorem usComplete_of_bad {s : State} {j pid onu alloc : Nat} {st : Stamp} {bs : List Byte} (full : Bool)
    (hfcs : fcsOk bs = false) : s.usComplete j pid onu alloc st bs full = s.bump (Reg.xgmUsFcsErr j) := by
  unfold State.usComplete
  exact if_neg (by simp [hfcs])

theorem usKeyBad_of_index {s : State} {u : UpAt} {x : UpXgem} (h : 3 ≤ x.key) : s.usKeyBad u x = true := by
  unfold State.usKeyBad
  dsimp only
  rw [if_neg (by omega), if_neg (by omega)]

/-- A binding that is VALID, of one ONU, with no key asked for. -/
theorem fields_of_valid_binding {onu : Nat} (h : onu < 1024) :
    let w := BitVec.ofNat 32 (2 ^ 31 + onu)
    Machine.bit w 31 = true ∧ Machine.bit w 30 = false ∧ Machine.bit w 28 = false ∧ Machine.fld w 9 0 = onu := by
  intro w
  have hw : w.toNat = 2 ^ 31 + onu := by
    rw [BitVec.toNat_ofNat]
    omega
  refine ⟨?_, ?_, ?_, ?_⟩
  · simp only [Machine.bit, BitVec.getLsbD, hw, Nat.testBit, Nat.shiftRight_eq_div_pow]
    norm_num
    omega
  · simp only [Machine.bit, BitVec.getLsbD, hw, Nat.testBit, Nat.shiftRight_eq_div_pow]
    norm_num
    omega
  · simp only [Machine.bit, BitVec.getLsbD, hw, Nat.testBit, Nat.shiftRight_eq_div_pow]
    norm_num
    omega
  · simp only [Machine.fld, hw]
    omega

theorem reasmAbort_counted (s : State) (n pid a : Nat) :
    (((s.reasmAbort n pid).bump a).xreasm n pid).isOpen = false ∧
      OnlyRegs [a] { s with xgm := ((s.reasmAbort n pid).bump a).xgm } ((s.reasmAbort n pid).bump a) ∧
      ((s.reasmAbort n pid).bump a).rd a = satAdd (s.rd a) 1 := by
  have hself : ((s.reasmAbort n pid).bump a).xreasm n pid = { discard := true } := xreasm_setXreasm_self ..
  exact ⟨by rw [hself], onlyRegs_wr (s.reasmAbort n pid) a _, (State.rd_bump _ _ _).trans (if_pos rfl)⟩

/-- An open reassembly whose frames have passed is aborted and counted. -/
theorem xReasmTimeout_of_due {u : State} {n pid : Nat} (hopen : (u.xreasm n pid).isOpen = true)
    (hdue : (u.chrono.psyncAt.toNat : Int) + ((((u.xreasm n pid).u + u.reasmFrames + 1 : Nat) : Int) - u.chrono.ponSf) *
      8192000000 + (u.teq n) * 65536 ≤ u.raw.toNat) :
    u.xReasmTimeout n pid = (u.reasmAbort n pid).bump (Reg.xgmUsReasmDrop (2 * n + (u.xreasm n pid).ch)) := by
  unfold State.xReasmTimeout
  dsimp only
  refine if_pos ?_
  rw [hopen, Bool.true_and, decide_eq_true_eq]
  simp only [nsUnit]
  omega

theorem xReasmTimeout_of_idle {u : State} {n pid : Nat} (hidle : (u.xreasm n pid).isOpen = false) : u.xReasmTimeout n pid = u := by
  unfold State.xReasmTimeout
  exact if_neg (by simp [hidle])

theorem xReasmTimeout_of_early {u : State} {n pid : Nat}
    (hearly : (u.raw.toNat : Int) < (u.chrono.psyncAt.toNat : Int) + ((((u.xreasm n pid).u + u.reasmFrames + 1 : Nat) : Int) -
      u.chrono.ponSf) * 8192000000 + (u.teq n) * 65536) : u.xReasmTimeout n pid = u := by
  unfold State.xReasmTimeout
  dsimp only
  refine if_neg ?_
  rw [Bool.and_eq_true, decide_eq_true_eq]
  rintro ⟨-, hdue⟩
  simp only [nsUnit] at hdue
  omega

/-! ### The obligation -/

/-- Settles O34. -/
theorem xgemFramesNeedATransmittingPortAndAConfirmedBurst : Obligations.XgemFramesNeedATransmittingPortAndAConfirmedBurst := by
  refine ⟨?_, ?_, ?_, ?_, ?_, ?_, ?_, ?_, ?_, ?_, ?_, ?_, ?_⟩
  · intro ch space errs qBad s hclosed
    exact congrArg Host.Outcome.next (ponRelease_of_closed (s := s.hbmDamaged errs) space qBad .none hclosed)
  · intro ch space eq errs qBad ctxBad f s w q hq htx hserving hup hw hroom hwait
    rw [← show (Host.Outcome.next (q.2.ponRelease ch.val space qBad q.1) : Host.Outcome State Fault Refusal) =
      exec (.ponSelection ch space errs qBad ctxBad) s by rw [hq]; rfl]
    exact congrArg Host.Outcome.next (ponRelease_of_waiting htx hserving hup hw hroom qBad q.1 hwait)
  · intro ch space errs s w r htx hserving hup hw hroom hwait hr
    have hpick := ponRelease_of_none_waits (s := s.hbmDamaged errs) htx hserving hup hw hroom false .none hwait
    have hserves := serving_filled (s := s.hbmDamaged errs) hserving hw
    exact ⟨fun hroot => congrArg Host.Outcome.next (hpick.trans (ponSelect_of_root_down _ _ hroot)),
      fun hroot hnone => congrArg Host.Outcome.next (hpick.trans (ponSelect_of_none hserves hroot hr hnone))⟩
  · intro ch space errs s w r path f fs htx hserving hup hw hroom hwait hr hroot hpath hframes
    have hpick := ponRelease_of_none_waits (s := s.hbmDamaged errs) htx hserving hup hw hroom false .none hwait
    have hserves := serving_filled (s := s.hbmDamaged errs) hserving hw
    exact congrArg Host.Outcome.next (hpick.trans (ponSelect_of_path hserves hroot hr hpath hframes))
  · intro ch space eq errs qBad f s w u htx hserving hup hw hroom hwait hu hts
    have hplace := ponRelease_of_waiting (s := s.hbmDamaged errs) htx hserving hup hw hroom qBad .none hwait
    rw [show w.waitTaken ch.val = u from hu.symm] at hplace
    exact ⟨fun hbind => congrArg Host.Outcome.next (hplace.trans (dsPlace_of_noBind f hbind)),
      fun hkey => congrArg Host.Outcome.next (hplace.trans (dsPlace_of_noKey f hkey))⟩
  · intro ch space eq errs qBad f pid index key s w u htx hserving hup hw hroom hwait hu hts hsend hfits
    have hplace := ponRelease_of_waiting (s := s.hbmDamaged errs) htx hserving hup hw hroom qBad .none hwait
    rw [show w.waitTaken ch.val = u from hu.symm] at hplace
    exact congrArg Host.Outcome.next (hplace.trans (dsPlace_of_fits hts hsend hfits))
  · intro j f i k x full s hunconfirmed
    exact congrArg Host.Outcome.next (upXgemAt_of_unconfirmed x full .none hunconfirmed)
  · intro j f i k x full s b g hb hst hg
    obtain ⟨pon, pos, errored, hat, -⟩ := upXgemAt_of_confirmed x full .none hb hst hg
    refine ⟨fun hover => ?_, fun hdead hhec => ?_⟩
    · rw [upXgem_of_over full .none hover] at hat
      refine Runs.intro (congrArg Host.Outcome.next hat) rfl
    · rw [upXgem_of_bad_header full .none hdead hhec] at hat
      obtain ⟨⟨hframe, hrd⟩, hcount, hkilled⟩ := usHecErr_counts { s with pon } (upPlace j.val f i k b g pos errored)
      refine Runs.intro (congrArg Host.Outcome.next hat) ⟨hcount, hrd, ?_, hkilled⟩
      rw [hframe]
  · intro j f i k x full s b g hb hst hg hdead hhec hpid
    obtain ⟨pon, pos, errored, hat, -⟩ := upXgemAt_of_confirmed x full .none hb hst hg
    refine ⟨fun hspoof => ?_, fun hlow hvalid hmc honu hstrict hkey => ?_⟩
    · have hspoof' : ({ s with pon } : State).spoofed (upPlace j.val f i k b g pos errored) x.pid = true :=
        spoofed_of_unbound hspoof
      obtain ⟨rck, hup⟩ := upXgem_of_spoofed hdead hhec hpid full hspoof'
      exact Runs.intro (congrArg Host.Outcome.next (hat.trans hup)) (usSpoof_counts _ _ _ j.isLt)
    · have hspoof' : ({ s with pon } : State).spoofed (upPlace j.val f i k b g pos errored) x.pid = false := by
        refine spoofed_of_bound hstrict ?_
        rintro (h | h | h | h)
        · omega
        · exact absurd (hvalid.symm.trans h) (by decide)
        · exact absurd (hmc.symm.trans h) (by decide)
        · exact h honu
      obtain ⟨rck, hup⟩ := upXgem_of_keyless hdead hhec hpid full hspoof' (usKeyBad_of_index hkey)
      refine Runs.intro (congrArg Host.Outcome.next (hat.trans hup)) ⟨(State.rd_bump _ _ _).trans (if_pos rfl), rfl, rfl, ?_⟩
      exact (onlyRegs_wr _ _ _).2
  · intro j f i k x s b g hb hst hg hdead hhec hclear hbad hlow hidle hbind honu hstrict hserving
    obtain ⟨pon, pos, errored, hat, herr⟩ := upXgemAt_of_confirmed x false .none hb hst hg
    obtain ⟨hvalid, hmc, hkey, hid⟩ := fields_of_valid_binding honu
    rw [← hbind] at hvalid hmc hkey hid
    have hspoof : ({ s with pon } : State).spoofed (upPlace j.val f i k b g pos errored) x.pid = false := by
      refine spoofed_of_bound hstrict ?_
      rintro (h | h | h | h)
      · omega
      · exact absurd (hvalid.symm.trans h) (by decide)
      · exact absurd (hmc.symm.trans h) (by decide)
      · exact h hid
    have hkeyed : ({ s with pon } : State).usKeyBad (upPlace j.val f i k b g pos errored) x = false := by
      unfold State.usKeyBad
      dsimp only
      rw [if_pos hclear]
      exact hkey
    obtain ⟨rck, hup⟩ := upXgem_of_clear hdead hhec (by omega) false hspoof hkeyed (herr hbad) hclear
    refine ⟨fun hlf hfcs => ?_, fun hlf hfcs => ?_, fun hlf hsdu hunits => ?_⟩
    · have hwhole := usReasm_of_whole (s := { s with pon, rck }) (u := upPlace j.val f i k b g pos errored) false hidle hlf
      refine Runs.intro (congrArg Host.Outcome.next (hat.trans (hup.trans hwhole))) ?_
      obtain ⟨hcount, hin, hreasm, hrd⟩ := usComplete_of_good (s := { s with pon, rck }) (j := j.val) (pid := x.pid)
        (onu := b.onu) (alloc := g.alloc) (st := b.stamp) hserving hfcs
      rw [attach_congr (s := s) (t := { s with pon, rck }) rfl rfl] at hin
      exact ⟨hcount, hin, hreasm, hrd⟩
    · have hwhole := usReasm_of_whole (s := { s with pon, rck }) (u := upPlace j.val f i k b g pos errored) false hidle hlf
      rw [usComplete_of_bad false hfcs] at hwhole
      refine Runs.intro (congrArg Host.Outcome.next (hat.trans (hup.trans hwhole))) ?_
      exact ⟨(State.rd_bump _ _ _).trans (if_pos rfl), rfl, rfl, (onlyRegs_wr _ _ _).2⟩
    · have hfirst := usReasm_of_first (s := { s with pon, rck }) (u := upPlace j.val f i k b g pos errored) false hidle hlf
        hsdu hunits
      refine Runs.intro (congrArg Host.Outcome.next (hat.trans (hup.trans hfirst))) ?_
      have hnow := xreasm_setXreasm_self { s with pon, rck } (j.val / 2) x.pid
        ((upPlace j.val f i k b g pos errored).opened x.bytes)
      exact ⟨congrArg (fun y : XReasm => y.isOpen) hnow, congrArg (fun y : XReasm => y.bytes) hnow,
        congrArg (fun y : XReasm => y.u) hnow, congrArg (fun y : XReasm => y.onu) hnow, rfl, rfl⟩
  · intro n pid at' s hidle
    exact congrArg Host.Outcome.next (xReasmTimeout_of_idle hidle)
  · intro n pid at' s u hu hearly
    subst hu
    exact congrArg Host.Outcome.next (xReasmTimeout_of_early hearly)
  · intro n pid at' s u hu hopen hdue
    subst hu
    exact Runs.intro (congrArg Host.Outcome.next (xReasmTimeout_of_due hopen hdue)) (reasmAbort_counted _ _ _ _)

end Sys2Proof.Machine
end

section
/-!
PROOFS. The states of a cage channel (O43; R390 to R393).
-/
open Sys2Proof.Safety
namespace Sys2Proof.Machine

/-! ### What a port block that follows its cage channel keeps -/

section
variable {s : State} {leaf : Nat} (hleaf : leaf < 2048)
include hleaf

/-- A state that is raised stays so over a write of a register that holds no event status. -/
theorem raised_wr (h : Raised leaf s) {a : Nat} (v : Word) (ha : ¬ eventReg a) : Raised leaf (s.wr a v) :=
  raised_of_rd hleaf h fun k hk =>
    State.rd_wr_other s v fun heq : Reg.evtStatus k = a => ha (by rw [← heq]; exact eventReg_evtStatus hk)

theorem raised_setFld (h : Raised leaf s) {a : Nat} (hi lo v : Nat) (ha : ¬ eventReg a) : Raised leaf (s.setFld a hi lo v) :=
  raised_wr hleaf h _ ha

theorem raised_setBit (h : Raised leaf s) {a : Nat} (i : Nat) (v : Bool) (ha : ¬ eventReg a) : Raised leaf (s.setBit a i v) :=
  raised_wr hleaf h _ ha

theorem raised_bump (h : Raised leaf s) {a : Nat} (ha : ¬ eventReg a) : Raised leaf (s.bump a) := raised_wr hleaf h _ ha

omit hleaf in
theorem raised_event (h : Raised leaf s) (other inst : Nat) : Raised leaf (s.event other inst) := Raised.raise h other inst 0 0 0

theorem raised_regs {t : State} (h : Raised leaf s) (hregs : t.regs = s.regs) : Raised leaf t :=
  raised_of_rd hleaf h fun _ _ => State.rd_of_regs hregs _

theorem raised_ponFollow {n : Nat} (hn : n < 48) (h : Raised leaf s) : Raised leaf (s.ponFollow n) := by
  have ha : ¬ eventReg (Reg.ponLineStatus n) := by
    simp only [eventReg, Reg.ponLineStatus, Reg.evtStatus, Reg.evtBufDrop, Reg.merEvtLost]
    omega
  have hrest : ∀ (u : State) (j : Nat), (u.restDrop j).regs = u.regs := fun _ _ => rfl
  have hshown := raised_setBit hleaf (raised_setBit hleaf (raised_setFld hleaf h 27 24 (s.ponCause n) ha) 31 (s.ponCause n == 0)
    ha) 29 (s.ponPort n).los ha
  unfold State.ponFollow
  dsimp only
  split
  · exact hshown
  · split
    · exact raised_portDown _ _ hleaf (raised_regs hleaf (raised_regs hleaf (raised_event hshown _ _) (hrest _ _)) (hrest _ _))
    · exact raised_portUp _ _ hleaf (raised_event hshown _ _)

theorem raised_netComeUp {i : Nat} (h : Raised leaf s) (hstatus : ¬ eventReg (Reg.netPortStatus i)) :
    Raised leaf (s.netComeUp i) := by
  have hset : ∀ (u : State) (x : NetPort), Raised leaf u → Raised leaf ((u.setNet i x).event (leafOf 8 i) i) := fun u x hu =>
    raised_event (raised_regs (t := u.setNet i x) hleaf hu rfl) _ _
  unfold State.netComeUp
  exact raised_portUp _ _ hleaf (hset _ _ (raised_setFld hleaf (raised_setBit hleaf h 31 true hstatus) 26 24 0 hstatus))

theorem raised_netFollow {i : Nat} (hi : i < 26) (h : Raised leaf s) : Raised leaf (s.netFollow i) := by
  have hstatus : ¬ eventReg (Reg.netPortStatus i) := by
    simp only [eventReg, Reg.netPortStatus, Reg.evtStatus, Reg.evtBufDrop, Reg.merEvtLost]
    omega
  have hdowns : ¬ eventReg (Reg.netLinkDowns i) := by
    simp only [eventReg, Reg.netLinkDowns, Reg.evtStatus, Reg.evtBufDrop, Reg.merEvtLost]
    omega
  have hcut : ∀ u : State, Raised leaf u → Raised leaf ((u.txCut i).netIdle i) := fun u hu =>
    raised_of_rd hleaf hu fun k _ => rd_txCut u i _
  have hcause : ∀ c x, Raised leaf ((s.setFld (Reg.netPortStatus i) 26 24 c).setNet i x) := fun c x =>
    raised_regs hleaf (raised_setFld hleaf h 26 24 c hstatus) rfl
  unfold State.netFollow
  dsimp only
  split
  · split
    · refine raised_portDown _ _ hleaf (hcut _ (raised_event (raised_bump hleaf (raised_setBit hleaf ?_ 31 false hstatus) hdowns) _ _))
      exact hcause _ _
    · exact hcause _ _
  · split
    · exact h
    · split
      · exact raised_netComeUp hleaf h hstatus
      · split
        · exact h
        · exact hcause _ _

end

/-! ### A channel takes a new value -/

theorem cageLeaf_lt {ch : Nat} (hch : ch < 72) : cageLeaf ch < 2048 := by
  unfold cageLeaf leafOf
  omega

/-- The registers of the cage channels. -/
def cageReg (a : Nat) : Prop := Reg.pwrCageCtrl 0 ≤ a ∧ a < Reg.pwrCageCtrl 72

theorem cageReg_apart {a : Nat} (ha : cageReg a) : apartReg a := by
  simp only [cageReg, Reg.pwrCageCtrl] at ha
  simp only [apartReg, eventReg, Reg.evtStatus, Reg.evtBufDrop, Reg.merEvtLost, flushRegs, List.mem_cons, Reg.chkInj, Reg.voqFlushDrop,
    Reg.almCreditLost, List.not_mem_nil, or_false]
  omega

theorem cageChanged_frame (s : State) {ch : Nat} (hch : ch < 72) :
    (s.cageChanged ch).pwr = s.pwr ∧ (s.cageChanged ch).dev = s.dev ∧ (∀ a, cageReg a → (s.cageChanged ch).rd a = s.rd a) ∧
      (Raised (cageLeaf ch) s → Raised (cageLeaf ch) (s.cageChanged ch)) := by
  have hleaf := cageLeaf_lt hch
  have hpwr : ∀ {t : State}, Linked s t → t.pwr = s.pwr := by
    rintro t ⟨_, _, _, _, _, _, _, _, _, _, _, rfl⟩
    rfl
  unfold State.cageChanged
  split
  · next h =>
    refine ⟨hpwr (linked_ponFollow s ch), (linked_ponFollow s ch).dev, fun a ha => ?_, raised_ponFollow hleaf h⟩
    rw [rd_ponFollow s h (cageReg_apart ha), if_neg]
    simp only [cageReg, Reg.pwrCageCtrl] at ha
    simp only [Reg.ponLineStatus]
    omega
  · refine ⟨hpwr (linked_netFollow s _), (linked_netFollow s _).dev, fun a ha => ?_, raised_netFollow hleaf (by omega)⟩
    have ha' := ha
    simp only [cageReg, Reg.pwrCageCtrl] at ha'
    refine rd_netFollow s (by omega) (cageReg_apart ha) ?_ ?_
    · simp only [Reg.netPortStatus]
      omega
    · simp only [Reg.netLinkDowns]
      omega

/-- The value that a channel takes: RETRIES is 0 in OFF. -/
def cageTaken (c : Cage) : Cage := if c.st = .off then { c with retries := 0 } else c

/-- A channel's value stored, with nothing that follows. -/
def State.cageStored (s : State) (ch : Nat) (c : Cage) : State :=
  { s with pwr := { s.pwr with cages := s.pwr.cages.set (fun _ => {}) ch c } }

theorem cage_cageStored (s : State) (ch : Nat) (c : Cage) (k : Nat) :
    (s.cageStored ch c).cage k = if k = ch then c else s.cage k := by
  unfold State.cageStored State.cage
  exact SMap.get_set ..

/-- A change of STATE, or OPEN being set (R393). -/
def cageTells (old new : Cage) : Prop := new.st ≠ old.st ∨ (new.isOpen = true ∧ ¬ old.isOpen = true)

/-- The value stored, and its event raised where it tells one. -/
def State.cageTold (s : State) (ch : Nat) (c : Cage) : State :=
  if c.st ≠ (s.cage ch).st ∨ (c.isOpen ∧ ¬ (s.cage ch).isOpen) then (s.cageStored ch c).event (cageLeaf ch) ch
  else s.cageStored ch c

/-- The gate follows the value. -/
def State.cageGated (s : State) (ch : Nat) (c : Cage) : State :=
  if cageGate c != cageGate (s.cage ch) then (s.cageTold ch c).emit (.cageGate ch (cageGate c)) else s.cageTold ch c

theorem setCage_eq (s : State) (ch : Nat) (c : Cage) : s.setCage ch c =
    if ((cageTaken c).st == .on) != ((s.cage ch).st == .on) then (s.cageGated ch (cageTaken c)).cageChanged ch
    else s.cageGated ch (cageTaken c) := rfl

/-- What follows once a value is stored and told keeps `P`. -/
theorem setCage_after {P : State → Prop} {s : State} {ch : Nat} {c : Cage} (htold : P (s.cageTold ch (cageTaken c)))
    (hemit : ∀ u o, P u → P (u.emit o)) (hchanged : ∀ u, P u → P (u.cageChanged ch)) : P (s.setCage ch c) := by
  have hgated : P (s.cageGated ch (cageTaken c)) := by
    unfold State.cageGated
    split
    · exact hemit _ _ htold
    · exact htold
  rw [setCage_eq]
  split
  · exact hchanged _ hgated
  · exact hgated

section
variable (s : State) {ch : Nat} (c : Cage) (hch : ch < 72)
include hch

theorem setCage_frame : (s.setCage ch c).pwr = (s.cageStored ch (cageTaken c)).pwr ∧ (s.setCage ch c).dev = s.dev ∧
    ∀ a, cageReg a → (s.setCage ch c).rd a = s.rd a := by
  refine setCage_after (P := fun t => t.pwr = (s.cageStored ch (cageTaken c)).pwr ∧ t.dev = s.dev ∧
    ∀ a, cageReg a → t.rd a = s.rd a) ?_ (fun u o hu => hu) fun u ⟨hpwr, hdev, hrd⟩ => ?_
  · unfold State.cageTold
    split
    · refine ⟨?_, ?_, fun a ha => rd_event (cageLeaf_lt hch) _ (cageReg_apart ha)⟩
      · rw [State.event, State.raise_frame]
      · rw [State.event, State.raise_frame]
        rfl
    · exact ⟨rfl, rfl, fun _ _ => rfl⟩
  · obtain ⟨hp, hd, hr, -⟩ := cageChanged_frame u hch
    exact ⟨hp.trans hpwr, hd.trans hdev, fun a ha => (hr a ha).trans (hrd a ha)⟩

theorem cage_setCage (k : Nat) : (s.setCage ch c).cage k = if k = ch then cageTaken c else s.cage k := by
  obtain ⟨hpwr, -⟩ := setCage_frame s c hch
  rw [← cage_cageStored, State.cage, hpwr]
  rfl

theorem sameBut_setCage : SameBut State.cage [ch] s (s.setCage ch c) := fun k hk => by
  rw [cage_setCage s c hch, if_neg (List.ne_of_not_mem_cons hk)]

theorem setCage_raises (h : (cageTaken c).st ≠ (s.cage ch).st ∨ ((cageTaken c).isOpen ∧ ¬ (s.cage ch).isOpen)) :
    Raised (cageLeaf ch) (s.setCage ch c) := by
  refine setCage_after ?_ (fun u o hu => raised_regs (cageLeaf_lt hch) hu rfl) fun u => (cageChanged_frame u hch).2.2.2
  unfold State.cageTold
  rw [if_pos h]
  exact raised_raise ..

theorem raised_setCage (h : Raised (cageLeaf ch) s) : Raised (cageLeaf ch) (s.setCage ch c) := by
  have hstored : Raised (cageLeaf ch) (s.cageStored ch (cageTaken c)) := raised_regs (cageLeaf_lt hch) h rfl
  refine setCage_after ?_ (fun u o hu => raised_regs (cageLeaf_lt hch) hu rfl) fun u => (cageChanged_frame u hch).2.2.2
  unfold State.cageTold
  split
  · exact raised_event hstored _ _
  · exact hstored

omit hch in
/-- Without a change of STATE, and without OPEN being set, nothing follows. -/
theorem setCage_quiet (hst : (cageTaken c).st = (s.cage ch).st) (hopen : (cageTaken c).isOpen = true → (s.cage ch).isOpen = true) :
    s.setCage ch c = s.cageStored ch (cageTaken c) := by
  have htold : s.cageTold ch (cageTaken c) = s.cageStored ch (cageTaken c) := by
    unfold State.cageTold
    refine if_neg ?_
    rintro (h | ⟨h, hn⟩)
    · exact h hst
    · exact hn (hopen h)
  rw [setCage_eq, State.cageGated, htold, cageGate, cageGate, hst]
  simp

/-- A change of STATE to another than OFF. -/
theorem setCage_moves (hoff : c.st ≠ .off) (hst : c.st ≠ (s.cage ch).st) : (s.setCage ch c).cage ch = c ∧
    SameBut State.cage [ch] s (s.setCage ch c) ∧ Raised (cageLeaf ch) (s.setCage ch c) := by
  have htaken : cageTaken c = c := if_neg hoff
  refine ⟨?_, sameBut_setCage s c hch, setCage_raises s c hch (.inl (by rw [htaken]; exact hst))⟩
  rw [cage_setCage s c hch, if_pos rfl, htaken]

theorem setCage_to {st : CageState} (hoff : st ≠ .off) (hst : st ≠ (s.cage ch).st) :
    (s.setCage ch { s.cage ch with st }).cage ch = { s.cage ch with st } ∧
      SameBut State.cage [ch] s (s.setCage ch { s.cage ch with st }) ∧ Raised (cageLeaf ch) (s.setCage ch { s.cage ch with st }) :=
  setCage_moves s { s.cage ch with st } hch hoff hst

end

/-! ### ENABLE and CLEAR (R390, R392) -/

section
variable {s : State} {ch : Nat}

theorem cageFollow_starts (hen : s.bit (Reg.pwrCageCtrl ch) 31 = true) (hst : (s.cage ch).st = .off) (hcomm : s.dev.commOnce = true) :
    s.cageFollow ch = s.setCage ch { s.cage ch with st := .starting } := by
  unfold State.cageFollow
  dsimp only
  rw [if_pos hen, if_pos ⟨hst, hcomm⟩]

theorem cageFollow_held (hen : s.bit (Reg.pwrCageCtrl ch) 31 = true) (h : (s.cage ch).st ≠ .off ∨ s.dev.commOnce = false) :
    s.cageFollow ch = s := by
  unfold State.cageFollow
  dsimp only
  rw [if_pos hen, if_neg]
  rintro ⟨hst, hcomm⟩
  exact h.elim (fun hne => hne hst) fun hnot => absurd (hnot.symm.trans hcomm) (by decide)

theorem cageFollow_disabled (hen : s.bit (Reg.pwrCageCtrl ch) 31 = false) (hl : (s.cage ch).st ≠ .latched)
    (hr : (s.cage ch).st ≠ .reversed) : s.cageFollow ch = s.setCage ch { s.cage ch with st := .off } := by
  unfold State.cageFollow
  dsimp only
  rw [if_neg (by simp [hen])]
  split
  · next h => exact absurd h hl
  · next h => exact absurd h hr
  · rfl

theorem cageFollow_stuck (hen : s.bit (Reg.pwrCageCtrl ch) 31 = false)
    (h : (s.cage ch).st = .latched ∨ (s.cage ch).st = .reversed) : s.cageFollow ch = s := by
  unfold State.cageFollow
  dsimp only
  rw [if_neg (by simp [hen])]
  obtain h | h := h <;> rw [h]

theorem cageClear_stuck (h : (s.cage ch).st = .latched ∨ (s.cage ch).st = .reversed) :
    s.cageClear ch = s.setCage ch { s.cage ch with st := .off, trips := 0 } := by
  unfold State.cageClear
  obtain h | h := h <;> simp only [h]

theorem cageClear_free (hl : (s.cage ch).st ≠ .latched) (hr : (s.cage ch).st ≠ .reversed) : s.cageClear ch = s := by
  unfold State.cageClear
  dsimp only
  split
  · next h => exact absurd h hl
  · next h => exact absurd h hr
  · rfl

/-- A write that clears nothing lets the channel follow its ENABLE. -/
theorem cageWrite_follows {v : Word} (h : Machine.bit v 30 = false ∨ ((s.cage ch).st ≠ .latched ∧ (s.cage ch).st ≠ .reversed)) :
    s.cageWrite ch v = (s.wrTyped (Reg.pwrCageCtrl ch) v).cageFollow ch := by
  unfold State.cageWrite
  dsimp only
  split
  · next hclear =>
    obtain ⟨hl, hr⟩ := h.resolve_left (by simp [hclear])
    have hcage : (s.wrTyped (Reg.pwrCageCtrl ch) v).cage ch = s.cage ch := by
      rw [(s.onlyRegs_wrTyped v (Reg.pwrCageCtrl ch)).1]
      rfl
    rw [cageClear_free (by rw [hcage]; exact hl) (by rw [hcage]; exact hr)]
  · rfl

end

section
variable (s : State) {ch : Nat} (hch : ch < 72) (v : Word)

/-- A write of the channel's control register changes that register alone, and ENABLE is as written. -/
theorem cageWritten_frame : OnlyRegs [Reg.pwrCageCtrl ch] s (s.wrTyped (Reg.pwrCageCtrl ch) v) ∧
    (s.wrTyped (Reg.pwrCageCtrl ch) v).cage = s.cage ∧ (s.wrTyped (Reg.pwrCageCtrl ch) v).dev = s.dev ∧
    (ch < 72 → (s.wrTyped (Reg.pwrCageCtrl ch) v).bit (Reg.pwrCageCtrl ch) 31 = Machine.bit v 31) := by
  have honly := s.onlyRegs_wrTyped v (Reg.pwrCageCtrl ch)
  refine ⟨honly, by rw [honly.1]; rfl, by rw [honly.1], fun hch => State.bit_wrTyped_rw _ _ ?_ (by decide)⟩
  have hrw : ∀ k : Fin 72, (readWrite (Reg.pwrCageCtrl k.val)).getLsbD 31 = true := by decide +kernel
  exact hrw ⟨ch, hch⟩

include hch

/-- CLEAR of a channel that is LATCHED or REVERSED. -/
theorem cageWrite_clears (hclear : Machine.bit v 30 = true) (h : (s.cage ch).st = .latched ∨ (s.cage ch).st = .reversed) :
    ∃ u : State, s.cageWrite ch v = u.cageFollow ch ∧ u.cage ch = { s.cage ch with st := .off, retries := 0, trips := 0 } ∧
      SameBut State.cage [ch] s u ∧ u.dev = s.dev ∧ u.bit (Reg.pwrCageCtrl ch) 31 = Machine.bit v 31 ∧ Raised (cageLeaf ch) u := by
  obtain ⟨-, hcage, hdev, hbit⟩ := cageWritten_frame s (ch := ch) v
  have hrun : s.cageWrite ch v = ((s.wrTyped (Reg.pwrCageCtrl ch) v).cageClear ch).cageFollow ch := by
    unfold State.cageWrite
    dsimp only
    rw [if_pos hclear]
  rw [hrun]
  generalize s.wrTyped (Reg.pwrCageCtrl ch) v = w at hcage hdev hbit
  rw [cageClear_stuck (by rw [hcage]; exact h)]
  obtain ⟨-, hd, hrd⟩ := setCage_frame w { w.cage ch with st := .off, trips := 0 } hch
  refine ⟨_, rfl, ?_, fun k hk => ?_, hd.trans hdev, ?_, setCage_raises _ _ hch (.inl ?_)⟩
  · rw [cage_setCage w _ hch, if_pos rfl, hcage]
    rfl
  · rw [sameBut_setCage w _ hch k hk, hcage]
  · rw [State.bit, hrd _ (by simp only [cageReg, Reg.pwrCageCtrl]; omega)]
    exact hbit hch
  · rw [hcage]
    have hoff : (cageTaken { w.cage ch with st := .off, trips := 0 }).st = .off := rfl
    rw [← hcage, hoff, hcage]
    rintro hst
    rw [← hst] at h
    exact absurd h (by decide)

end

/-! ### What a measured current leads to (R391) -/

/-- A channel whose measured current is shown. -/
def State.cageShown (s : State) (ch : Nat) (uv : Int) : State := s.wrNat (Reg.pwrCageCurrent ch) (unsign 16 (s.senseMa uv))

theorem cageShown_frame (s : State) (ch : Nat) (uv : Int) : OnlyRegs [Reg.pwrCageCurrent ch] s (s.cageShown ch uv) ∧
    (s.cageShown ch uv).cage = s.cage ∧ (s.cageShown ch uv).rd (Reg.pwrCageCurrent ch) = BitVec.ofNat 32 (unsign 16 (s.senseMa uv)) :=
  ⟨onlyRegs_wr _ _ _, rfl, (State.rd_wrNat ..).trans (if_pos rfl)⟩

theorem cageShown_settings (s : State) {ch : Nat} (hch : ch < 72) (uv : Int) :
    (s.cageShown ch uv).cageLimit ch = s.cageLimit ch ∧ (s.cageShown ch uv).cageOvlMs = s.cageOvlMs ∧
      (s.cageShown ch uv).cageOpenMa = s.cageOpenMa := by
  have hrd : ∀ a, a ≠ Reg.pwrCageCurrent ch → (s.cageShown ch uv).rd a = s.rd a := fun a ha =>
    (cageShown_frame s ch uv).1.2 a (by simpa using ha)
  have hctrl : Reg.pwrCtrl ≠ Reg.pwrCageCurrent ch := by
    simp only [Reg.pwrCtrl, Reg.pwrCageCurrent]
    omega
  have hcage : Reg.pwrCageCtrl ch ≠ Reg.pwrCageCurrent ch := by
    simp only [Reg.pwrCageCtrl, Reg.pwrCageCurrent]
    omega
  have hcfg : Reg.pwrCageCfg ≠ Reg.pwrCageCurrent ch := by
    simp only [Reg.pwrCageCfg, Reg.pwrCageCurrent]
    omega
  unfold State.cageLimit State.cageOvlMs State.cageOpenMa State.bit State.fld
  rw [hrd _ hctrl, hrd _ hcage, hrd _ hcfg]
  exact ⟨rfl, rfl, rfl⟩

theorem cageReg_current {ch : Nat} (hch : ch < 72) : cageReg (Reg.pwrCageCurrent ch) := by
  simp only [cageReg, Reg.pwrCageCurrent, Reg.pwrCageCtrl]
  omega

/-- The value that a trip gives a channel. -/
def cageTripped (c : Cage) (ma : Int) : Cage :=
  if ma < 0 then { c with st := .reversed, trips := min 255 (c.trips + 1) }
  else if 3 ≤ c.retries then { c with st := .latched, trips := min 255 (c.trips + 1) }
  else { c with st := .retryWait, retries := c.retries + 1, trips := min 255 (c.trips + 1) }

theorem cageTrip_eq (s : State) (ch : Nat) (ma : Int) : s.cageTrip ch ma = s.setCage ch (cageTripped (s.cage ch) ma) := by
  unfold State.cageTrip cageTripped
  dsimp only
  split
  · rfl
  · split
    · rfl
    · rfl

theorem cageTripped_st (c : Cage) (ma : Int) :
    (cageTripped c ma).st = .reversed ∨ (cageTripped c ma).st = .latched ∨ (cageTripped c ma).st = .retryWait := by
  unfold cageTripped
  split
  · exact .inl rfl
  · split
    · exact .inr (.inl rfl)
    · exact .inr (.inr rfl)

/-- A gated channel that trips. -/
theorem cageTrip_moves (s : State) {ch : Nat} (hch : ch < 72) (ma : Int) (hgate : cageGate (s.cage ch) = true) :
    (s.cageTrip ch ma).cage ch = cageTripped (s.cage ch) ma ∧ SameBut State.cage [ch] s (s.cageTrip ch ma) ∧
      Raised (cageLeaf ch) (s.cageTrip ch ma) := by
  have hst := cageTripped_st (s.cage ch) ma
  rw [cageTrip_eq]
  refine setCage_moves s _ hch ?_ ?_
  · intro h
    rw [h] at hst
    exact absurd hst (by decide)
  · intro h
    rw [h] at hst
    unfold cageGate at hgate
    obtain h | h | h := hst <;> rw [h] at hgate <;> exact absurd hgate (by decide)

/-! ### The obligation -/

/-- Settles O43. -/
theorem cageChannelsFollowTheirStates : Obligations.CageChannelsFollowTheirStates := by
  refine ⟨?_, ?_, ?_, ?_, ?_, ?_, ?_, ?_⟩
  · intro ch val s hen
    obtain ⟨honly, hcage, hdev, hbit⟩ := cageWritten_frame s (ch := ch.val) val
    have hbit' := (hbit ch.isLt).trans hen
    refine ⟨fun hst hcomm => ?_, fun hst hcomm => ?_, fun hst => ?_, fun hst hclear => ?_, fun hst hclear hcomm => ?_⟩
    · have hrun : s.cageWrite ch.val val = _ := cageWrite_follows (.inr (by rw [hst]; decide))
      refine Runs.intro (congrArg Host.Outcome.next hrun) ?_
      generalize s.wrTyped (Reg.pwrCageCtrl ch.val) val = w at hcage hdev hbit'
      rw [cageFollow_starts hbit' (by rw [hcage]; exact hst) (by rw [hdev]; exact hcomm)]
      obtain ⟨hnew, hsame, hraised⟩ := setCage_to w ch.isLt (st := .starting) (by decide) (by rw [hcage, hst]; decide)
      exact ⟨hnew.trans (by rw [hcage]), fun k hk => (hsame k hk).trans (congrFun hcage k), hraised⟩
    · have hrun : s.cageWrite ch.val val = _ := cageWrite_follows (.inr (by rw [hst]; decide))
      rw [cageFollow_held hbit' (.inr (by rw [hdev]; exact hcomm))] at hrun
      exact Runs.intro (congrArg Host.Outcome.next hrun) honly
    · have hfree : (s.cage ch.val).st ≠ .latched ∧ (s.cage ch.val).st ≠ .reversed ∧ (s.cage ch.val).st ≠ .off := by
        obtain h | h | h := hst <;> rw [h] <;> decide
      obtain ⟨hl, hr, hoff⟩ := hfree
      have hrun : s.cageWrite ch.val val = _ := cageWrite_follows (.inr ⟨hl, hr⟩)
      rw [cageFollow_held hbit' (.inl (by rw [hcage]; exact hoff))] at hrun
      exact Runs.intro (congrArg Host.Outcome.next hrun) honly
    · have hoff : (s.cage ch.val).st ≠ .off := by
        obtain h | h := hst <;> rw [h] <;> decide
      have hrun : s.cageWrite ch.val val = _ := cageWrite_follows (.inl hclear)
      rw [cageFollow_held hbit' (.inl (by rw [hcage]; exact hoff))] at hrun
      exact Runs.intro (congrArg Host.Outcome.next hrun) honly
    · obtain ⟨u, hrun, hnew, hsame, hudev, hubit, -⟩ := cageWrite_clears s ch.isLt val hclear hst
      refine Runs.intro (congrArg Host.Outcome.next hrun) ?_
      rw [cageFollow_starts (hubit.trans hen) (by rw [hnew]) (by rw [hudev]; exact hcomm)]
      obtain ⟨hset, hkept, hraised⟩ := setCage_to u ch.isLt (st := .starting) (by decide) (by rw [hnew]; exact nofun)
      exact ⟨hset.trans (by rw [hnew]), fun k hk => (hkept k hk).trans (hsame k hk), hraised⟩
  · intro ch val s hen hclear
    obtain ⟨honly, hcage, hdev, hbit⟩ := cageWritten_frame s (ch := ch.val) val
    have hbit' := (hbit ch.isLt).trans hen
    have hrun : s.cageWrite ch.val val = _ := cageWrite_follows (.inl hclear)
    refine ⟨fun hl hr => ?_, fun hst => ?_⟩
    · refine Runs.intro (congrArg Host.Outcome.next hrun) ?_
      generalize s.wrTyped (Reg.pwrCageCtrl ch.val) val = w at hcage hdev hbit'
      rw [cageFollow_disabled hbit' (by rw [hcage]; exact hl) (by rw [hcage]; exact hr)]
      refine ⟨?_, fun k hk => ?_⟩
      · rw [cage_setCage w _ ch.isLt, if_pos rfl, hcage]
        rfl
      · rw [sameBut_setCage w _ ch.isLt k hk, hcage]
    · rw [cageFollow_stuck hbit' (by rw [hcage]; exact hst)] at hrun
      exact Runs.intro (congrArg Host.Outcome.next hrun) honly
  · intro ch val s hen hclear hst
    obtain ⟨u, hrun, hnew, hsame, -, hubit, hraised⟩ := cageWrite_clears s ch.isLt val hclear hst
    refine Runs.intro (congrArg Host.Outcome.next hrun) ?_
    rw [cageFollow_disabled (hubit.trans hen) (by rw [hnew]; exact nofun) (by rw [hnew]; exact nofun)]
    refine ⟨?_, fun k hk => ?_, raised_setCage u _ ch.isLt hraised⟩
    · rw [cage_setCage u _ ch.isLt, if_pos rfl, hnew]
      rfl
    · rw [sameBut_setCage u _ ch.isLt k hk, hsame k hk]
  · intro ch uv ma s hma
    obtain ⟨honly, hcage, hcur⟩ := cageShown_frame s ch.val uv
    obtain ⟨hlimit, -, -⟩ := cageShown_settings s ch.isLt uv
    rw [← hma] at hcur
    have hrun : ∃ u, u = s.cageShown ch.val uv ∧ exec (.cageTrip ch uv) s = .next
        (if cageGate (u.cage ch.val) && decide (2 * u.cageLimit ch.val ≤ ma.natAbs) then u.cageTrip ch.val ma else u) :=
      ⟨_, rfl, by rw [hma]; rfl⟩
    obtain ⟨u, hu, hrun⟩ := hrun
    rw [← hu] at honly hcage hcur hlimit
    rw [hcage, hlimit] at hrun
    refine ⟨fun hgate hover => ?_, fun hunder => ?_⟩
    · rw [if_pos (by simp [hgate, hover])] at hrun
      obtain ⟨hnew, hsame, hraised⟩ := cageTrip_moves u ch.isLt ma (by rw [hcage]; exact hgate)
      rw [hcage] at hnew
      refine Runs.intro hrun ⟨hnew, fun k hk => (hsame k hk).trans (congrFun hcage k), hraised, ?_⟩
      rw [cageTrip_eq, (setCage_frame u _ ch.isLt).2.2 _ (cageReg_current ch.isLt), hcur]
    · rw [if_neg] at hrun
      · exact Runs.intro hrun ⟨hcur, honly⟩
      · rw [Bool.and_eq_true, decide_eq_true_eq]
        rintro ⟨hgate, hover⟩
        exact hunder.elim (fun h => absurd (h.symm.trans hgate) (by decide)) fun h => by omega
  · intro uv s hr
    unfold State.senseMa clampInt
    dsimp only
    rw [if_neg hr]
  · intro ch uv ma ms s hma
    obtain ⟨honly, hcage, hcur⟩ := cageShown_frame s ch.val uv
    obtain ⟨hlimit, hovl, -⟩ := cageShown_settings s ch.isLt uv
    have hrun : ∃ u, u = s.cageShown ch.val uv ∧ exec (.cageOverload ch uv ms) s = .next
        (if (u.cage ch.val).st == .on && decide ((u.cageLimit ch.val : Int) ≤ ma) && decide (u.cageOvlMs ≤ ms) then
          u.cageTrip ch.val ma else u) := ⟨_, rfl, by rw [hma]; rfl⟩
    obtain ⟨u, hu, hrun⟩ := hrun
    rw [← hu] at honly hcage hlimit hovl
    rw [hcage, hlimit, hovl] at hrun
    refine ⟨fun hst hover hlong hpos => ?_, fun hnot => ?_⟩
    · rw [if_pos (by simp [hst, hover, hlong])] at hrun
      obtain ⟨hnew, hsame, hraised⟩ := cageTrip_moves u ch.isLt ma (by rw [hcage, cageGate, hst]; decide)
      rw [hcage, cageTripped, if_neg (by omega)] at hnew
      exact Runs.intro hrun ⟨hnew, fun k hk => (hsame k hk).trans (congrFun hcage k), hraised⟩
    · rw [if_neg] at hrun
      · exact Runs.intro hrun honly
      · simp only [Bool.and_eq_true, decide_eq_true_eq, beq_iff_eq]
        rintro ⟨⟨hst, hover⟩, hlong⟩
        obtain h | h | h := hnot
        · exact h hst
        · omega
        · omega
  · intro ch n s
    have hstart : exec (.cageStartComplete ch n) s = .next
        (if (s.cage ch.val).st = .starting ∧ 2000 ≤ n then s.setCage ch.val { s.cage ch.val with st := .on } else s) := rfl
    have hretry : exec (.cageRetryEnd ch n) s = .next
        (if (s.cage ch.val).st = .retryWait ∧ 100 ≤ n then s.setCage ch.val { s.cage ch.val with st := .starting } else s) := rfl
    have hclear : exec (.cageRetriesClear ch n) s = .next
        (if (s.cage ch.val).st = .on ∧ 10000 ≤ n then s.setCage ch.val { s.cage ch.val with retries := 0 } else s) := rfl
    refine ⟨fun hst hn => ?_, fun hst hn => ?_, fun hst hn => ?_, fun hnot => ?_, fun hnot => ?_, fun hnot => ?_⟩
    · rw [if_pos ⟨hst, hn⟩] at hstart
      exact Runs.intro hstart (setCage_to s ch.isLt (by decide) (by rw [hst]; decide))
    · rw [if_pos ⟨hst, hn⟩] at hretry
      exact Runs.intro hretry (setCage_to s ch.isLt (by decide) (by rw [hst]; decide))
    · have htaken : cageTaken { s.cage ch.val with retries := 0 } = { s.cage ch.val with retries := 0 } :=
        if_neg (by rw [hst]; decide)
      rw [if_pos ⟨hst, hn⟩, setCage_quiet s _ (by rw [htaken]) (by rw [htaken]; exact id), htaken] at hclear
      refine Runs.intro hclear ⟨?_, fun k hk => ?_, rfl⟩
      · rw [cage_cageStored, if_pos rfl]
      · rw [cage_cageStored, if_neg (List.ne_of_not_mem_cons hk)]
    · rw [if_neg fun h => hnot.elim (fun k => k h.1) fun k => by omega] at hstart
      exact hstart
    · rw [if_neg fun h => hnot.elim (fun k => k h.1) fun k => by omega] at hretry
      exact hretry
    · rw [if_neg fun h => hnot.elim (fun k => k h.1) fun k => by omega] at hclear
      exact hclear
  · intro ch uv ma n s hma
    obtain ⟨honly, hcage, hcur⟩ := cageShown_frame s ch.val uv
    obtain ⟨-, -, hopenMa⟩ := cageShown_settings s ch.isLt uv
    have hrun : ∃ u, u = s.cageShown ch.val uv ∧ exec (.cageReversed ch uv n) s = .next
        (if cageGate (u.cage ch.val) && decide (ma ≤ -(u.cageOpenMa : Int)) && decide (1000 ≤ n) then
          u.setCage ch.val { u.cage ch.val with st := .reversed } else u) ∧ exec (.cageOpen ch uv n) s = .next
        (if (u.cage ch.val).st == .on && decide (0 ≤ ma) && decide (ma < (u.cageOpenMa : Int)) && decide (100 ≤ n) then
          u.setCage ch.val { u.cage ch.val with isOpen := true } else u) ∧ exec (.cageOpenClear ch uv) s = .next
        (if decide ((u.cageOpenMa : Int) ≤ ma) then u.setCage ch.val { u.cage ch.val with isOpen := false } else u) :=
      ⟨_, rfl, by rw [hma]; rfl, by rw [hma]; rfl, by rw [hma]; rfl⟩
    obtain ⟨u, hu, hrev, hopen, hclear⟩ := hrun
    rw [← hu] at honly hcage hopenMa
    rw [hcage, hopenMa] at hrev hopen
    rw [hcage, hopenMa] at hclear
    have hkept : ∀ c, SameBut State.cage [ch.val] s (u.setCage ch.val c) := fun c k hk =>
      (sameBut_setCage u c ch.isLt k hk).trans (congrFun hcage k)
    refine ⟨fun hgate hlow hn => ?_, fun hst hpos hlow hn => ?_, fun hhigh hst => ?_, fun hlow => ?_, fun hnot => ?_, fun hnot => ?_⟩
    · rw [if_pos (by simp [hgate, hlow, hn])] at hrev
      have hne : CageState.reversed ≠ (s.cage ch.val).st := fun h => by
        rw [cageGate, ← h] at hgate
        exact absurd hgate (by decide)
      obtain ⟨hnew, -, hraised⟩ := setCage_moves u { s.cage ch.val with st := .reversed } ch.isLt nofun (by rw [hcage]; exact hne)
      exact Runs.intro hrev ⟨hnew, hkept _, hraised⟩
    · have htaken : cageTaken { s.cage ch.val with isOpen := true } = { s.cage ch.val with isOpen := true } :=
        if_neg (by rw [hst]; decide)
      rw [if_pos (by simp [hst, hpos, hlow, hn])] at hopen
      refine Runs.intro hopen ⟨?_, hkept _, fun hclosed => setCage_raises u _ ch.isLt (.inr ?_)⟩
      · rw [cage_setCage u _ ch.isLt, if_pos rfl, htaken]
      · rw [htaken, hcage, hclosed]
        exact ⟨rfl, by decide⟩
    · have htaken : cageTaken { s.cage ch.val with isOpen := false } = { s.cage ch.val with isOpen := false } := if_neg hst
      rw [if_pos (by simp [hhigh])] at hclear
      refine Runs.intro hclear ⟨?_, hkept _⟩
      rw [cage_setCage u _ ch.isLt, if_pos rfl, htaken]
    · rw [if_neg (by simp [hlow])] at hclear
      exact Runs.intro hclear honly
    · rw [if_neg] at hrev
      · exact Runs.intro hrev honly
      · simp only [Bool.and_eq_true, decide_eq_true_eq]
        rintro ⟨⟨hgate, hlow⟩, hn⟩
        obtain h | h | h := hnot
        · exact absurd (h.symm.trans hgate) (by decide)
        · omega
        · omega
    · rw [if_neg] at hopen
      · exact Runs.intro hopen honly
      · simp only [Bool.and_eq_true, decide_eq_true_eq, beq_iff_eq]
        rintro ⟨⟨⟨hst, hpos⟩, hlow⟩, hn⟩
        obtain h | h | h | h := hnot
        · exact h hst
        · omega
        · omega
        · omega

end Sys2Proof.Machine
end

section
/-!
PROOFS. The event ring, vectors, counters, the Logbook, thresholds, slots and samplers (O59; R356 to R367).
-/
open Sys2Proof.Safety
namespace Sys2Proof.Machine

/-! ### What an event moves of the observability block -/

theorem obs_sendMer (s : State) (d : Nat) (m : MerMsg) : (s.sendMer d m).obs = s.obs := by
  have hother (c : Cell) : (s.sendOther d c).obs = s.obs := by
    unfold State.sendOther
    split
    · rfl
    · rfl
  unfold State.sendMer
  split
  · rfl
  · split
    · exact hother _
    · rfl
    · rfl

/-- An event moves the event buffer and its sequence number alone of the observability block. -/
theorem obs_raise (s : State) (leaf inst : Nat) (w1 w2 w3 : Word) :
    ∃ buf seq, (s.raise leaf inst w1 w2 w3).obs = { s.obs with buf, seq } := by
  have hput (u : State) (l : Nat) (fwd : Bool) (view : Nat) (ns32 : Word) (subns : Byte) (src : Nat) (words : List Word) :
      ∃ buf seq, (u.putRecord l fwd view ns32 subns src words).obs = { u.obs with buf, seq } := by
    unfold State.putRecord
    dsimp only
    split
    · exact ⟨_, _, rfl⟩
    · exact ⟨_, _, rfl⟩
  have hforward (u : State) (l : Nat) (t : BitVec 96) (words : List Word) : (u.forward l t words).obs = u.obs := by
    obtain h | ⟨d, m, h⟩ | h := u.forward_cases l t words
    · rw [h]
    · rw [h, obs_sendMer]
    · rw [h]
      rfl
  unfold State.raise
  dsimp only
  rw [hforward]
  split
  · exact hput _ _ _ _ _ _ _ _
  · exact ⟨_, _, rfl⟩

/-! ### The event ring (R358 to R360) -/

theorem evtRingBits_of_range {s : State} {n : Nat} (hn : n = (s.rd Reg.evtRingSize).toNat) (h : 6 ≤ n ∧ n ≤ 16) :
    s.evtRingBits = some n := by
  unfold State.evtRingBits
  dsimp only
  rw [← hn, if_pos h]

/-- Coalescing requests the ring's vector, or does nothing. -/
theorem coalesce_frame (s : State) : ∃ ringReq, s.coalesce = { s with obs := { s.obs with ringReq } } := by
  unfold State.coalesce
  split
  · split
    · exact ⟨_, rfl⟩
    · split
      · exact ⟨true, rfl⟩
      · exact ⟨_, rfl⟩
  · exact ⟨_, rfl⟩

/-- The ring after a record, at HEAD `h` of a ring of `2 ^ n` records. -/
def State.recordPut (s : State) (r : EvRec) (rs : List EvRec) (n h : Nat) : State :=
  { (s.emit (.hostWrite (BitVec.ofNat 64 (s.rdWords Reg.evtRingBaseLo 2 + 32 * h)) (recordBytes r s.obs.phase))).wrNat
      Reg.evtRingHead ((h + 1) % 2 ^ n) with
    obs.buf := rs,
    obs.phase := if (h + 1) % 2 ^ n = 0 then !s.obs.phase else s.obs.phase,
    obs.since := s.obs.since + 1,
    obs.firstAt := match s.obs.firstAt with | some f => some f | none => some s.raw }

theorem drain_of_room {s : State} {r : EvRec} {rs : List EvRec} {n : Nat} (hbuf : s.obs.buf = r :: rs)
    (hbits : s.evtRingBits = some n) (hup : s.dev.perstLow = false) (hroom : s.evtRingFull n = false) :
    s.drain = (s.recordPut r rs n (s.rd Reg.evtRingHead).toNat).coalesce := by
  unfold State.drain
  rw [hbuf, hbits]
  dsimp only
  rw [if_neg (by simp [hup, hroom])]
  rfl

theorem drain_of_held {s : State} {n : Nat} (hbits : s.evtRingBits = some n)
    (h : s.dev.perstLow = true ∨ s.evtRingFull n = true) : s.drain = s := by
  unfold State.drain
  rw [hbits]
  split
  · next hsome =>
    cases hsome
    refine if_pos ?_
    obtain h | h := h <;> simp [h]
  · rfl

theorem drain_of_nothing {s : State} (h : s.obs.buf = [] ∨ (s.rd Reg.evtRingSize).toNat < 6 ∨ 16 < (s.rd Reg.evtRingSize).toNat) :
    s.drain = s := by
  unfold State.drain
  obtain h | h := h
  · rw [h]
  · have hbits : s.evtRingBits = none := by
      unfold State.evtRingBits
      exact if_neg (by omega)
    rw [hbits]
    split
    · next hsome => cases hsome
    · rfl

theorem recordPut_frame (s : State) (r : EvRec) (rs : List EvRec) {n : Nat} (h : Nat) (hn : n ≤ 16) :
    (s.recordPut r rs n h).obs.buf = rs ∧ ((s.recordPut r rs n h).rd Reg.evtRingHead).toNat = (h + 1) % 2 ^ n ∧
      RegsBut [Reg.evtRingHead] s (s.recordPut r rs n h) := by
  have hpow : 2 ^ n ≤ 2 ^ 16 := Nat.pow_le_pow_right (by decide) hn
  have hlt : (h + 1) % 2 ^ n < 2 ^ 32 := (Nat.mod_lt _ (Nat.two_pow_pos _)).trans_le (hpow.trans (by decide))
  have hset : ∀ (v : State) (o : Obs) (a : Nat), ({ v with obs := o } : State).rd a = v.rd a := fun v o a => rfl
  have hhead : ∀ a, (s.recordPut r rs n h).rd a = if a = Reg.evtRingHead then BitVec.ofNat 32 ((h + 1) % 2 ^ n) else s.rd a := by
    intro a
    unfold State.recordPut
    rw [hset, State.rd_wrNat, State.rd_emit]
  refine ⟨rfl, ?_, fun a ha => ?_⟩
  · rw [hhead, if_pos rfl, BitVec.toNat_ofNat, Nat.mod_eq_of_lt hlt]
  · rw [hhead, if_neg (by simpa using ha)]

/-- EVT_STATUS is W1C in every bit (R356). -/
theorem evtStatus_clears (s : State) (g : Fin 40) (v : Word) :
    (s.wrTyped (Reg.evtStatus g.val) v).rd (Reg.evtStatus g.val) = s.rd (Reg.evtStatus g.val) &&& ~~~v := by
  have htype : ∀ g : Fin 40, ((regAt (Reg.evtStatus g.val)).any fun e =>
      e.1.w1cMask == BitVec.allOnes 32 && e.1.rwMask == 0 && e.1.w1sMask == 0) = true := by decide +kernel
  have hg := htype g
  cases hd : regAt (Reg.evtStatus g.val) with
  | none => simp [hd] at hg
  | some e =>
    simp only [hd, Option.any_some, Bool.and_eq_true, beq_iff_eq] at hg
    obtain ⟨⟨hw1c, hrw⟩, hw1s⟩ := hg
    rw [State.wrTyped_of s hd, State.rd_wr_self, RegD.written, hrw, hw1c, hw1s]
    exact BitVec.eq_of_getLsbD_eq fun i hi => by
      simp only [BitVec.getLsbD_or, BitVec.getLsbD_and, BitVec.getLsbD_not, BitVec.getLsbD_allOnes, hi, decide_true]
      simp

theorem coalUs_ticks (n : Nat) : n * 1000 * nsUnit = n * 65536000 := by
  rw [nsUnit]
  omega

theorem coalesce_requests {u : State} {f : Raw} (hfirst : u.obs.firstAt = some f) (hen : u.bit Reg.evtRingCfg 31 = true)
    (h : u.coalCount ≤ u.obs.since ∨ f.toNat + u.coalUs * 65536000 ≤ u.raw.toNat) :
    u.coalesce = { u with obs := { u.obs with ringReq := true } } := by
  unfold State.coalesce
  rw [if_pos hen, hfirst]
  dsimp only
  rw [coalUs_ticks, if_pos h]

theorem coalesce_waits {u : State} {f : Raw} (hfirst : u.obs.firstAt = some f) (hen : u.bit Reg.evtRingCfg 31 = true)
    (hcount : u.obs.since < u.coalCount) (htime : u.raw.toNat < f.toNat + u.coalUs * 65536000) : u.coalesce = u := by
  unfold State.coalesce
  rw [if_pos hen, hfirst]
  dsimp only
  rw [coalUs_ticks, if_neg (by omega)]

/-! ### Vectors (R361) -/

theorem msixSend_of_held {s : State} {v : Nat} {masked : Bool}
    (h : s.vecPending v = false ∨ s.obs.sent.getLsbD v = true ∨ masked = true ∨ s.dev.perstLow = true) :
    s.msixSend v masked = s := by
  unfold State.msixSend
  refine if_neg ?_
  obtain h | h | h | h := h <;> simp [h]

/-- A message of a vector that is pending, unsent and unmasked. -/
theorem msixSend_sends {s : State} {v : Nat} (hpend : s.vecPending v = true) (hsent : s.obs.sent.getLsbD v = false)
    (hup : s.dev.perstLow = false) : (s.msixSend v false).out = s.out ++ [.msix v] ∧
      (s.msixSend v false).obs.sent = s.obs.sent ||| BitVec.ofNat 64 (2 ^ v) ∧ RegsBut [] s (s.msixSend v false) ∧
      (s.obs.ringReq = true → s.fld Reg.evtRingCfg 29 24 = v → (s.msixSend v false).obs.ringReq = false ∧
        (s.msixSend v false).obs.since = 0 ∧ (s.msixSend v false).obs.firstAt = none) := by
  unfold State.msixSend
  rw [if_pos (by simp only [hpend, hsent, hup]; rfl)]
  dsimp only
  split
  · exact ⟨rfl, rfl, fun _ _ => rfl, fun _ _ => ⟨rfl, rfl, rfl⟩⟩
  · next hnot => exact ⟨rfl, rfl, fun _ _ => rfl, fun hreq hvec => absurd (by simp [hreq, hvec]) hnot⟩

/-! ### Counters (R363) -/

theorem wrWords_append (s : State) (a : Nat) (l m : List Word) :
    s.wrWords a (l ++ m) = (s.wrWords a l).wrWords (a + 4 * l.length) m := by
  induction l generalizing s a with
  | nil => rfl
  | cons w l ih =>
    rw [List.cons_append, State.wrWords, ih, State.wrWords, List.length_cons]
    congr 1
    omega

/-- A pair loaded into OBS_CNT_DATA. -/
theorem pairShown (s : State) (a x y : Nat) (hx : x < 2 ^ 64) (hy : y < 2 ^ 64) :
    (s.wrWords a (toWords 2 x ++ toWords 2 y)).rdWords a 2 = x ∧ (s.wrWords a (toWords 2 x ++ toWords 2 y)).rdWords (a + 8) 2 = y := by
  rw [wrWords_append, length_toWords]
  constructor
  · rw [State.rdWords_congr (s := s.wrWords a (toWords 2 x)), State.rdWords_wrWords_toWords, Nat.mod_eq_of_lt hx]
    intro b hlow hhigh
    exact State.rd_wrWords_other _ (.inl (by omega))
  · rw [State.rdWords_wrWords_toWords, Nat.mod_eq_of_lt hy]

/-- COUNTER_PAIR_READ loads the pair of OBS_CNT_SEL. -/
def State.pairLoaded (s : State) (v : Word) (p : Nat) : State :=
  (s.wrTyped Reg.obsCntSel v).wrWords (Reg.obsCntData 0) (toWords 2 (s.cntGet (2 * p)).toNat ++ toWords 2 (s.cntGet (2 * p + 1)).toNat)

theorem cntSelWrite_eq (s : State) (v : Word) (hread : Machine.bit v 31 = true) :
    s.cntSelWrite v = if Machine.bit v 30 then
      ((s.pairLoaded v (Machine.fld v 20 0)).cntSet (2 * Machine.fld v 20 0) 0).cntSet (2 * Machine.fld v 20 0 + 1) 0
      else s.pairLoaded v (Machine.fld v 20 0) := by
  have hcnt : ∀ i, (s.wrTyped Reg.obsCntSel v).cntGet i = s.cntGet i := fun i => by
    rw [State.cntGet, (s.onlyRegs_wrTyped v Reg.obsCntSel).1]
    rfl
  unfold State.cntSelWrite
  dsimp only
  rw [if_pos hread, hcnt, hcnt]
  rfl

theorem pairLoaded_frame (s : State) (v : Word) (p : Nat) :
    (s.pairLoaded v p).rdWords (Reg.obsCntData 0) 2 = (s.cntGet (2 * p)).toNat ∧
      (s.pairLoaded v p).rdWords (Reg.obsCntData 2) 2 = (s.cntGet (2 * p + 1)).toNat ∧
      OnlyRegs [Reg.obsCntSel, Reg.obsCntData 0, Reg.obsCntData 1, Reg.obsCntData 2, Reg.obsCntData 3] s (s.pairLoaded v p) := by
  obtain ⟨hlow, hhigh⟩ := pairShown (s.wrTyped Reg.obsCntSel v) (Reg.obsCntData 0) _ _ (s.cntGet (2 * p)).isLt
    (s.cntGet (2 * p + 1)).isLt
  have honly := s.onlyRegs_wrTyped v Reg.obsCntSel
  refine ⟨hlow, hhigh, ?_, fun a ha => ?_⟩
  · obtain ⟨regs, hwords⟩ := wrWords_frame (s.wrTyped Reg.obsCntSel v) (Reg.obsCntData 0)
      (toWords 2 (s.cntGet (2 * p)).toNat ++ toWords 2 (s.cntGet (2 * p + 1)).toNat)
    rw [State.pairLoaded, hwords, honly.1]
  · simp only [List.mem_cons, List.not_mem_nil, or_false, not_or] at ha
    obtain ⟨hsel, h0, h1, h2, h3⟩ := ha
    simp only [Reg.obsCntData] at h0 h1 h2 h3
    rw [State.pairLoaded, rd_wrWords_ne _ ?_, State.rd_wrTyped_other s v hsel]
    intro i hi
    simp only [List.length_append, length_toWords] at hi
    simp only [Reg.obsCntData]
    omega

/-! ### The Logbook (R364) -/

theorem logPeriod_ticks (s : State) : s.logPeriod * 1000000 * nsUnit = s.logPeriod * 65536000000 := by
  rw [nsUnit]
  omega

section
variable {u : State} (hen : u.bit Reg.obsLogCtrl 31 = true) (hmode : logMode u.dev.mode = true)

theorem logExport_off (h : u.bit Reg.obsLogCtrl 31 = false ∨ logMode u.dev.mode = false) : u.logExport = u := by
  unfold State.logExport
  refine if_neg ?_
  obtain h | h := h <;> simp [h]

theorem logExport_between (h : u.raw.toNat % (u.logPeriod * 65536000000) ≠ 0) : u.logExport = u := by
  unfold State.logExport
  rw [logPeriod_ticks]
  exact if_neg (by simp [h])

variable (hat : u.raw.toNat % (u.logPeriod * 65536000000) = 0)
include hen hmode hat

theorem logExport_starts (hidle : u.obs.log = none) (hup : u.dev.perstLow = false)
    (hposted : u.posted Reg.obsLogRingSize Reg.obsLogRingHead Reg.obsLogRingTail ≠ 0) :
    u.logExport = { u with obs := { u.obs with log := some ⟨u.raw, u.fld Reg.obsLogCtrl 29 24, u.bit Reg.obsLogCtrl 30⟩ } } := by
  unfold State.logExport
  rw [logPeriod_ticks, if_pos (by simp [hen, hmode, hat]), if_neg (by simp [hidle]), if_neg (by simp [hup, hposted])]

theorem logExport_nobuf (hidle : u.obs.log = none) (h : u.dev.perstLow = true ∨
    u.posted Reg.obsLogRingSize Reg.obsLogRingHead Reg.obsLogRingTail = 0) :
    u.logExport = (u.bump Reg.obsLogNobuf).event 675 0 := by
  unfold State.logExport
  rw [logPeriod_ticks, if_pos (by simp [hen, hmode, hat]), if_neg (by simp [hidle]), if_pos]
  obtain h | h := h <;> simp [h]

theorem logExport_overrun (hrun : u.obs.log.isSome = true) : u.logExport = (u.bump Reg.obsLogOverrun).event 674 0 := by
  unfold State.logExport
  rw [logPeriod_ticks, if_pos (by simp [hen, hmode, hat]), if_pos hrun]

end

/-- A count and its event: the counter, the event, and nothing of the observability block but the event buffer. -/
theorem counted_event (u : State) {a leaf : Nat} (hleaf : leaf < 2048) (ha : ¬ eventReg a) (inst : Nat) :
    ((u.bump a).event leaf inst).rd a = satAdd (u.rd a) 1 ∧ Raised leaf ((u.bump a).event leaf inst) ∧
      ((u.bump a).event leaf inst).dev = u.dev ∧ ∃ buf seq, ((u.bump a).event leaf inst).obs = { u.obs with buf, seq } := by
  refine ⟨?_, raised_raise _ _ _ _ _ _, by rw [State.event, State.raise_frame]; rfl, obs_raise _ _ _ _ _ _⟩
  exact (rd_raise_of_not_eventReg _ hleaf _ _ _ _ ha).trans ((State.rd_bump _ _ _).trans (if_pos rfl))

/-- A Logbook delivery that completes: what stands before its event. -/
theorem logComplete_written {u : State} {l : LogRun} {h n : Nat} (hlog : u.obs.log = some l)
    (hh : h = (u.rd Reg.obsLogRingHead).toNat) (hn : n = (u.rd Reg.obsLogRingSize).toNat) (hsize : n ≤ 16) (buf : HostBuf) :
    ∃ w : State, u.logComplete buf = w.event 673 0 ∧ w.obs.log = none ∧
      w.obs.cnt = (if l.clear then u.obs.cnt.keep fun i => !inRegions l.regions i else u.obs.cnt) ∧
      w.rd Reg.obsLogSeq = u.rd Reg.obsLogSeq + 1 ∧ (w.rd Reg.obsLogRingHead).toNat = (h + 1) % 2 ^ n ∧
      RegsBut [Reg.obsLogSeq, Reg.obsLogRingHead] u w ∧
      w.out = u.out ++ [.logbook buf.addr (u.logHeader l (u.rd Reg.obsLogSeq + 1))
        (u.obs.cnt.listed fun i _ => inRegions l.regions i), .hostWrite (BitVec.ofNat 64 (u.rdWords Reg.obsLogRingBaseLo 2 + 32 * h))
        (leBytes 8 buf.addr.toNat ++ leBytes 24 0)] := by
  have hpow : 2 ^ n ≤ 2 ^ 16 := Nat.pow_le_pow_right (by decide) hsize
  have hlt : (h + 1) % 2 ^ n < 2 ^ 32 := (Nat.mod_lt _ (Nat.two_pow_pos _)).trans_le (hpow.trans (by decide))
  obtain ⟨v, hv, hvobs, hvregs, hvout⟩ : ∃ v : State, u.logComplete buf =
      ({ (v.wr Reg.obsLogSeq (u.rd Reg.obsLogSeq + 1)).wrNat Reg.obsLogRingHead ((h + 1) % 2 ^ n) with obs.log := none } :
        State).event 673 0 ∧
      v.obs.cnt = (if l.clear then u.obs.cnt.keep fun i => !inRegions l.regions i else u.obs.cnt) ∧ v.regs = u.regs ∧
      v.out = u.out ++ [.logbook buf.addr (u.logHeader l (u.rd Reg.obsLogSeq + 1))
        (u.obs.cnt.listed fun i _ => inRegions l.regions i), .hostWrite (BitVec.ofNat 64 (u.rdWords Reg.obsLogRingBaseLo 2 + 32 * h))
        (leBytes 8 buf.addr.toNat ++ leBytes 24 0)] := by
    unfold State.logComplete
    rw [hlog]
    dsimp only
    cases hclear : l.clear with
    | true =>
      rw [if_pos rfl, hh, hn]
      exact ⟨_, rfl, rfl, rfl, List.append_assoc ..⟩
    | false =>
      rw [if_neg Bool.false_ne_true, hh, hn]
      exact ⟨_, rfl, rfl, rfl, List.append_assoc ..⟩
  have hset : ∀ (x : State) (o : Obs) (a : Nat), ({ x with obs := o } : State).rd a = x.rd a := fun _ _ _ => rfl
  refine ⟨_, hv, rfl, hvobs, ?_, ?_, fun a ha => ?_, hvout⟩
  · rw [hset, State.rd_wrNat, if_neg (by decide), State.rd_wr_self]
  · rw [hset, State.rd_wrNat, if_pos rfl, BitVec.toNat_ofNat, Nat.mod_eq_of_lt hlt]
  · simp only [List.mem_cons, List.not_mem_nil, or_false, not_or] at ha
    rw [hset, State.rd_wrNat, if_neg ha.2, State.rd_wr_other _ _ ha.1, State.rd_of_regs hvregs]

/-! ### Thresholds and slots (R365, R366) -/

theorem thrWrite_frame (s : State) (k : Fin 16) (level : Bool) (v : Word) :
    (s.thrWrite k.val level v).rdWords (Reg.obsThrCountLo k.val) 2 = 0 ∧
      OnlyRegs [if level then Reg.obsThrLevel k.val else Reg.obsThrCfg k.val, Reg.obsThrCountLo k.val, Reg.obsThrCountLo k.val + 4]
        s (s.thrWrite k.val level v) ∧
      (s.thrWrite k.val level v).rd (if level then Reg.obsThrLevel k.val else Reg.obsThrCfg k.val) =
        (s.wrTyped (if level then Reg.obsThrLevel k.val else Reg.obsThrCfg k.val) v).rd
          (if level then Reg.obsThrLevel k.val else Reg.obsThrCfg k.val) := by
  have ha : ∀ i < 2, (if level then Reg.obsThrLevel k.val else Reg.obsThrCfg k.val) ≠ Reg.obsThrCountLo k.val + 4 * i := by
    intro i hi
    simp only [Reg.obsThrLevel, Reg.obsThrCfg, Reg.obsThrCountLo]
    split <;> omega
  unfold State.thrWrite
  generalize (if level then Reg.obsThrLevel k.val else Reg.obsThrCfg k.val) = a at ha ⊢
  have honly := s.onlyRegs_wrTyped v a
  refine ⟨State.rdWords_wrWords_toWords _ _ 2 0, ⟨?_, fun b hb => ?_⟩, rd_wrWords_ne _ ha⟩
  · obtain ⟨regs, hwords⟩ := wrWords_frame (s.wrTyped a v) (Reg.obsThrCountLo k.val) [0, 0]
    rw [hwords, honly.1]
  · simp only [List.mem_cons, List.not_mem_nil, or_false, not_or] at hb
    obtain ⟨hba, hlo, hhi⟩ := hb
    rw [rd_wrWords_ne _ ?_, State.rd_wrTyped_other s v hba]
    intro i hi
    simp only [List.length_cons, List.length_nil] at hi
    obtain rfl | rfl : i = 0 ∨ i = 1 := by omega
    · exact hlo
    · exact hhi

/-- The step of OBS_SLOT_CLEAR at pipeline `p`. -/
def State.slotCleared (v : Word) (p : Nat) (s : State) : State :=
  if Machine.bit v p then { s with obs.slots := s.obs.slots.upd (fun _ => {}) p Slots.clear } else s

theorem slots_slotCleared (s : State) (v : Word) (k p : Nat) :
    (State.slotCleared v k s).obs.slots.get (fun _ => {}) p =
      if p = k ∧ Machine.bit v k then (s.obs.slots.get (fun _ => {}) p).clear else s.obs.slots.get (fun _ => {}) p := by
  unfold State.slotCleared
  by_cases hv : Machine.bit v k = true
  · rw [if_pos hv]
    refine (SMap.get_set (fun _ => ({} : Slots)) _ k p _).trans ?_
    by_cases hp : p = k
    · rw [if_pos hp, if_pos ⟨hp, hv⟩, hp]
    · rw [if_neg hp, if_neg fun h => hp h.1]
  · rw [if_neg hv, if_neg fun h => hv h.2]

theorem slots_each_slotCleared (v : Word) (p : Nat) (l : List Nat) (hl : l.Nodup) (s : State) :
    (s.each l (State.slotCleared v)).obs.slots.get (fun _ => {}) p =
      if p ∈ l ∧ Machine.bit v p then (s.obs.slots.get (fun _ => {}) p).clear else s.obs.slots.get (fun _ => {}) p := by
  induction l generalizing s with
  | nil => exact (if_neg fun h => absurd h.1 List.not_mem_nil).symm
  | cons k l ih =>
    obtain ⟨hk, hl⟩ := List.nodup_cons.mp hl
    refine (ih hl (State.slotCleared v k s)).trans ?_
    rw [slots_slotCleared]
    by_cases hp : p = k
    · subst hp
      simp [hk]
    · simp [hp]

/-- OBS_SLOT_CLEAR clears the pipelines it names, and moves nothing else. -/
theorem slotClear_frame (s : State) (v : Word) {p : Nat} (hp : p < 9) :
    (s.slotClear v).obs.slots.get (fun _ => {}) p =
      (if Machine.bit v p then (s.obs.slots.get (fun _ => {}) p).clear else s.obs.slots.get (fun _ => {}) p) ∧
      s.slotClear v = { s with obs := { s.obs with slots := (s.slotClear v).obs.slots } } := by
  refine ⟨?_, ?_⟩
  · refine (slots_each_slotCleared v p (List.range 9) List.nodup_range s).trans ?_
    simp [hp]
  · unfold State.slotClear
    refine State.each_induct (P := fun t => t = { s with obs := { s.obs with slots := t.obs.slots } }) rfl fun k _ t ht => ?_
    split
    · rw [ht]
    · exact ht

/-! ### Samplers (R367) -/

section
variable {s : State} {k p n : Nat} {x : Sampler} (hx : x = s.obs.samplers.get (fun _ => {}) k)

theorem sampleDrop_frame (hk : k < 8) : (s.sampleDrop k).obs.samplers.get (fun _ => {}) k =
      { s.obs.samplers.get (fun _ => {}) k with trig := none } ∧ (s.sampleDrop k).dev = s.dev ∧
      Raised (680 + k) (s.sampleDrop k) ∧ (s.sampleDrop k).rd (Reg.obsSampleDrop k) = satAdd (s.rd (Reg.obsSampleDrop k)) 1 := by
  have ha : ¬ eventReg (Reg.obsSampleDrop k) := by
    simp only [eventReg, Reg.obsSampleDrop, Reg.evtStatus, Reg.evtBufDrop, Reg.merEvtLost]
    omega
  unfold State.sampleDrop
  dsimp only
  generalize hx : ({ s.obs.samplers.get (fun _ => {}) k with trig := none } : Sampler) = x
  generalize hu : ({ s with obs.samplers := s.obs.samplers.set (fun _ => {}) k x } : State) = u
  obtain ⟨hcount, hraised, hdev, buf, seq, hobs⟩ := counted_event u (leaf := 680 + k) (by omega) ha k
  have hreg : u.regs = s.regs := by rw [← hu]
  refine ⟨?_, hdev.trans (by rw [← hu]), hraised, hcount.trans (by rw [State.rd_of_regs hreg])⟩
  rw [hobs, ← hu]
  exact SMap.get_set_self ..

include hx

theorem sampleCapture_idle (htrig : x.trig = none) (free : Bool) : s.sampleCapture k free = s := by
  unfold State.sampleCapture
  rw [← hx, htrig]

variable (htrig : x.trig = some (p, n))
include htrig

theorem sampleCapture_free {f : Frame} {pass slot : Nat} (hslot : s.obs.inSlot.get (fun _ => none) p = some (f, pass, slot)) :
    s.sampleCapture k true = if slot - n ≤ 24 then s.sampleTake k p (slot - n) pass f else s.sampleDrop k := by
  unfold State.sampleCapture skidMax
  rw [← hx, htrig]
  dsimp only
  rw [hslot]

theorem sampleCapture_busy {free : Bool} (hbusy : free = false ∨ s.obs.inSlot.get (fun _ => none) p = none) :
    s.sampleCapture k free = if 24 < s.slotNo p - n then s.sampleDrop k else s := by
  unfold State.sampleCapture skidMax
  rw [← hx, htrig]
  dsimp only
  obtain h | h := hbusy
  · rw [h]
  · rw [h]
    cases free <;> rfl

end

/-! ### The obligation -/

/-- Settles O59. -/
theorem eventsVectorsCountersAndExports : Obligations.EventsVectorsCountersAndExports := by
  refine ⟨?_, ?_, ?_, ?_, ?_, ?_, ?_, ?_, ?_, ?_, ?_, ?_, ?_, ?_, ?_, ?_⟩
  · intro r rs n h s hbuf hn hh hrange
    have hbits := evtRingBits_of_range hn hrange
    refine ⟨fun hup hroom => ?_, fun hheld => congrArg Host.Outcome.next (drain_of_held hbits hheld)⟩
    refine Runs.intro (congrArg Host.Outcome.next (drain_of_room hbuf hbits hup hroom)) ?_
    rw [← hh]
    obtain ⟨hkept, hhead, hregs⟩ := recordPut_frame s r rs h hrange.2
    obtain ⟨req, hcoal⟩ := coalesce_frame (s.recordPut r rs n h)
    rw [hcoal]
    exact ⟨hkept, hhead, rfl, rfl, hregs, rfl⟩
  · intro s hnothing
    exact congrArg Host.Outcome.next (drain_of_nothing hnothing)
  · intro g val s
    exact ⟨Runs.intro rfl ⟨evtStatus_clears s g val, s.onlyRegs_wrTyped val _⟩,
      Runs.intro rfl ⟨State.fld_wrTyped_rw _ _ (by decide), s.onlyRegs_wrTyped val _⟩⟩
  · intro at' f s u hu hfirst hen
    rw [hu] at hfirst hen ⊢
    exact ⟨fun h => congrArg Host.Outcome.next (coalesce_requests hfirst hen h),
      fun hcount htime => congrArg Host.Outcome.next (coalesce_waits hfirst hen hcount htime)⟩
  · intro v masked s
    refine ⟨fun hpend hsent hmask hup => ?_, fun hheld => congrArg Host.Outcome.next (msixSend_of_held hheld)⟩
    rw [hmask]
    exact Runs.intro rfl (msixSend_sends hpend hsent hup)
  · intro val s
    exact ⟨fun hgo => congrArg Host.Outcome.next (if_pos hgo), fun hnot => congrArg Host.Outcome.next (if_neg (by simp [hnot]))⟩
  · intro val p s hp hread
    obtain ⟨hlow, hhigh, honly⟩ := pairLoaded_frame s val p
    have hrun := cntSelWrite_eq s val hread
    rw [← hp] at hrun
    refine ⟨fun hkeep => ?_, fun hclear => ?_⟩
    · rw [if_neg (by simp [hkeep])] at hrun
      exact Runs.intro (congrArg Host.Outcome.next hrun) ⟨hlow, hhigh, honly⟩
    · rw [if_pos hclear] at hrun
      have hcnt : ∀ i, (s.pairLoaded val p).cntGet i = s.cntGet i := fun i => by
        rw [State.cntGet, honly.1]
        rfl
      refine Runs.intro (congrArg Host.Outcome.next hrun) ⟨hlow, hhigh, ?_, ?_, fun i hi => ?_⟩
      · rw [cntGet_cntSet, if_neg (by omega), cntGet_cntSet, if_pos rfl]
      · rw [cntGet_cntSet, if_pos rfl]
      · simp only [List.mem_cons, List.not_mem_nil, or_false, not_or] at hi
        rw [cntGet_cntSet, if_neg hi.2, cntGet_cntSet, if_neg hi.1, hcnt]
  · intro val at' buf s
    refine ⟨Runs.intro rfl ⟨State.fld_wrTyped_rw _ _ (by decide), s.onlyRegs_wrTyped val _⟩, fun hidle => ?_⟩
    refine congrArg Host.Outcome.next ?_
    unfold State.logComplete
    rw [hidle]
  · intro at' s u hu hen hmode
    rw [hu] at hen hmode ⊢
    refine ⟨fun hat hidle hready => ?_, fun hat hidle hnot => ?_, fun hat hrun => ?_, fun hbetween => ?_⟩
    · exact congrArg Host.Outcome.next (logExport_starts hen hmode hat hidle hready.1 hready.2)
    · refine Runs.intro (congrArg Host.Outcome.next (logExport_nobuf hen hmode hat hidle hnot)) ?_
      obtain ⟨hcount, hraised, -, buf, seq, hobs⟩ := counted_event (s.advance at') (a := Reg.obsLogNobuf) (leaf := 675) (by decide)
        (by unfold eventReg; decide) 0
      exact ⟨hcount, hraised, by rw [hobs]; exact hidle⟩
    · refine Runs.intro (congrArg Host.Outcome.next (logExport_overrun hen hmode hat hrun)) ?_
      obtain ⟨hcount, hraised, -, buf, seq, hobs⟩ := counted_event (s.advance at') (a := Reg.obsLogOverrun) (leaf := 674) (by decide)
        (by unfold eventReg; decide) 0
      exact ⟨hcount, hraised, by rw [hobs]⟩
    · exact congrArg Host.Outcome.next (logExport_between hbetween)
  · intro at' s u hu hoff
    rw [hu] at hoff ⊢
    exact congrArg Host.Outcome.next (logExport_off hoff)
  · intro at' buf l h n s u hu hlog hh hn hsize
    rw [hu] at hlog hh hn ⊢
    obtain ⟨w, hrun, hnone, hcnt, hseq, hhead, hregs, hout⟩ := logComplete_written hlog hh hn hsize buf
    refine Runs.intro (congrArg Host.Outcome.next hrun) ?_
    generalize s.advance at' = u at hcnt hseq hregs hout ⊢
    obtain ⟨evbuf, evseq, hobs⟩ := obs_raise w 673 0 0 0 0
    have hkept : ∀ a, ¬ eventReg a → (w.event 673 0).rd a = w.rd a := fun a ha =>
      rd_raise_of_not_eventReg w (by decide) 0 0 0 0 ha
    refine ⟨?_, raised_raise _ _ _ _ _ _, ?_, ?_, fun hkeep => ?_, fun hclear => ?_, fun a ha => ?_, ?_⟩
    · rw [State.event, hobs]
      exact hnone
    · rw [hkept _ (by unfold eventReg; decide), hseq]
    · rw [hkept _ (by unfold eventReg; decide), hhead]
    · rw [State.event, hobs]
      exact hcnt.trans (if_neg (by simp [hkeep]))
    · rw [State.event, hobs]
      exact hcnt.trans (if_pos hclear)
    · simp only [eventRegs, List.mem_cons, List.not_mem_nil, or_false, not_or] at ha
      obtain ⟨h1, h2, h3, h4, h5, h6⟩ := ha
      exact (State.rd_raise_other w 673 0 0 0 0 h3 h4 h5 h6).trans (hregs a (by simp [h1, h2]))
    · obtain ⟨-, -, -, hpre, -⟩ := State.raise_keeps w.keeps_mark 673 0 0 0 0
      rw [← hout]
      exact hpre
  · intro k level val s
    obtain ⟨hzero, honly, hrd⟩ := thrWrite_frame s k level val
    refine Runs.intro rfl ⟨hzero, honly, fun hlevel => ?_, fun hlevel => ?_⟩
    · rw [hlevel] at hrd ⊢
      exact hrd
    · rw [hlevel] at hrd ⊢
      exact hrd
  · intro val p s hp
    obtain ⟨hslots, hframe⟩ := slotClear_frame s val hp
    exact Runs.intro rfl ⟨hslots, hframe⟩
  · intro k p n pass slot f x s hx htrig hslot
    have hrun := sampleCapture_free hx htrig hslot
    refine ⟨fun hnear => ?_, fun hfar => ?_⟩
    · rw [if_pos hnear] at hrun
      refine Runs.intro (congrArg Host.Outcome.next hrun) ⟨?_, ?_, fun a ha => ?_, ?_⟩
      · rw [hx]
        exact SMap.get_set_self ..
      · exact (State.rd_wrap _ _ _).trans (if_pos rfl)
      · exact (State.rd_wrap _ _ _).trans (if_neg (by simpa using ha))
      · rw [hx]
        rfl
    · rw [if_neg (Nat.not_le.mpr hfar)] at hrun
      rw [hx]
      exact Runs.intro (congrArg Host.Outcome.next hrun) (sampleDrop_frame k.isLt)
  · intro k free p n x s hx htrig hbusy
    have hrun := sampleCapture_busy hx htrig hbusy
    refine ⟨fun hnear => ?_, fun hfar => ?_⟩
    · rw [if_neg (Nat.not_lt.mpr hnear)] at hrun
      exact congrArg Host.Outcome.next hrun
    · rw [if_pos hfar] at hrun
      rw [hx]
      exact Runs.intro (congrArg Host.Outcome.next hrun) (sampleDrop_frame k.isLt)
  · intro k free s htrig
    exact congrArg Host.Outcome.next (sampleCapture_idle rfl htrig free)

end Sys2Proof.Machine
end

section
/-!
PROOFS. A map whose cut-off comes twice (O48; R107, R109, R116).
-/
open Sys2Proof.Safety
namespace Sys2Proof.Machine

/-- ACTIVE, with PON port 0 transmitting on its one channel: the map of frame 1 has been taken once, with a TEQ_NS of 1,000 ns, and
PON_TEQ has its reset value. -/
def stCutTwice : State :=
  let s : State := { State.reset with
    dev.mode := .active,
    pon.maps := [(1, [{ f := 1, bursts := [{ start := 100 }], done := true, taken := true, teq := 1000 }])] }
  ((s.wr (Reg.ponPersonality 0) 1).wr (Reg.ponLineStatus 0) 0x40000000).wr (Reg.ponSidebandCfg 0) 0x00100000

/-- The pulses that a second cut-off of the map computes are those of the TEQ_NS of the first one. -/
theorem pulses_cutTwice :
    (((stCutTwice.advance 0).mapCutoff.mapOf 1 1).map fun m => m.bursts.map Burst.pulse) = some [some (126225, 126241)] := by
  decide +kernel

/-- The map that it takes carries the TEQ_NS of the register, under which its burst's low period lies later. -/
theorem periods_cutTwice :
    (((stCutTwice.advance 0).mapCutoff.mapOf 1 1).map fun m => m.bursts.map fun b =>
      if (stCutTwice.advance 0).sideCh 0 ((stCutTwice.advance 0).bit (Reg.ponSidebandCfg 0) 0) = 1 then
        (stCutTwice.advance 0).mapCutoff.brstPeriod 1 1 b else none) = some [some (565225, 565241)] := by
  decide +kernel

/-- Refutes O48: the low periods of a cut-off are computed under the TEQ_NS that the map held before it. A map that is taken a second
time, after PON_TEQ has changed, keeps the periods of the first cut-off and the TEQ_NS of the second. -/
theorem not_framesAndMapsLeaveAtTheirBoundaries : ¬ Obligations.FramesAndMapsLeaveAtTheirBoundaries := by
  unfold Obligations.FramesAndMapsLeaveAtTheirBoundaries
  intro ⟨_, _, hcut, _⟩
  obtain ⟨-, hpulses, -⟩ := hcut 0 1 1 stCutTwice (stCutTwice.advance 0) rfl (by decide +kernel) (by decide +kernel)
    (by decide +kernel) (by decide +kernel) (by decide +kernel) (by decide +kernel)
  obtain ⟨t, hrun, ht⟩ := hpulses (by decide +kernel) (by decide +kernel)
  have hexec : exec (.mapCutoff 0) stCutTwice = .next (stCutTwice.advance 0).mapCutoff := rfl
  have heq : (stCutTwice.advance 0).mapCutoff = t := by
    rw [hexec] at hrun
    injection hrun
  rw [← heq] at ht
  exact absurd (pulses_cutTwice.symm.trans (ht.trans periods_cutTwice)) (by decide)

end Sys2Proof.Machine
end

section
/-!
PROOFS. A pulse of a map that has not left yet (O49; R116).
-/
open Sys2Proof.Safety
namespace Sys2Proof.Machine

/-- Between the cut-off of frame 1 and its boundary: the map has been taken, its burst has its pulse, and it has not been sent. -/
def stPulseDue : State :=
  { State.reset with pon.maps := [(1, [{ f := 1, bursts := [{ pulse := some (0, 1) }], done := true, taken := true }])] }

/-- No burst of a map that has not been sent is one of the line's bursts, before the pulse and after it. -/
theorem burstOf_stPulseDue : ((stPulseDue.brstPulse 1 1 0).burstOf 1 1 0).map Burst.pulse = none := by decide +kernel

/-- Refutes O49: a pulse may begin before its map leaves, when the burst is none of a sent map, so that the burst without its pulse
cannot be read there. -/
theorem not_burstsAreConfirmedMissedOrForeign : ¬ Obligations.BurstsAreConfirmedMissedOrForeign := by
  unfold Obligations.BurstsAreConfirmedMissedOrForeign
  intro ⟨_, _, _, _, _, _, hpulse, _⟩
  obtain ⟨t, hrun, -, ht, -⟩ := hpulse 1 1 0 stPulseDue { pulse := some (0, 1) } (0, 1) (by decide +kernel) rfl
  have hexec : exec (.brstPulse 1 1 0) stPulseDue = .next (stPulseDue.brstPulse 1 1 0) := rfl
  have heq : stPulseDue.brstPulse 1 1 0 = t := by
    rw [hexec] at hrun
    injection hrun
  rw [← heq] at ht
  exact absurd (burstOf_stPulseDue.symm.trans ht) (by decide)

end Sys2Proof.Machine
end

section
/-!
PROOFS. A message of a source that no device is (O57; R331, R334, R341).
-/
open Sys2Proof.Safety
namespace Sys2Proof.Machine

/-- CHECK covers the bytes before it. -/
theorem merRaw_withCheck (m : MerMsg) (c : Word) : merRaw { m with check := c } = merRaw m := by
  cases m
  rfl

theorem merGood_withCheck (m : MerMsg) {c : Word} (h : c = merCheck (merRaw m)) : merGood { m with check := c } = true := by
  rw [merGood, merRaw_withCheck, ← h]
  exact beq_self_eq_true c

theorem merGood_sealMer (m : MerMsg) : merGood (sealMer m) = true := merGood_withCheck m rfl

/-- A record for offset 0, which a target refuses, from a source number at which the reach of a device lies at MER_FAN_REFUSED. -/
def msgFarSource : MerMsg :=
  sealMer { bcast := true, strap := 0, dest := 0, src := 785731, nonce := 0, seq := 0, body := .fan 0 false [(0, 0)], check := 0 }

/-- ACTIVE as a worker, with MGMT_A up and group 0 of Rhumb usable; no record has been refused. -/
def stFarSource : State :=
  ((({ State.reset with dev.mode := .active, mer.role := 1 } : State).wr (Reg.netPortStatus 24) 0x80000000).wr Reg.rhbStatus 1)

theorem merFor_farSource : stFarSource.merFor msgFarSource = true := by
  rw [State.merFor, msgFarSource, merGood_sealMer]
  rfl

/-- The acknowledgement goes to the management port as long as the source has no usable set. -/
theorem out_before_refusal :
    ((stFarSource.seePair msgFarSource).sendMer msgFarSource.src
      ((stFarSource.seePair msgFarSource).merMsg msgFarSource.src msgFarSource.seq (.ack 1))).out.length = 1 := by
  decide +kernel

/-- A record that is refused whole is counted, and acknowledged after that. -/
theorem fanIn_refused {s : State} {m : MerMsg} {slot : Nat} {wp : Bool} {pairs : List (Nat × Word)} (hrole : s.mer.role ≠ 0)
    (hfor : s.merFor m = true) (hbody : m.body = .fan slot wp pairs) (hmode : s.dev.mode ≠ .safe)
    (hlast : (s.seePair m).mer.last ≠ some m) (hseq : m.seq = BitVec.ofNat 32 (s.seePair m).mer.expect)
    (hpairs : ¬ (pairs = [] ∧ m.seq = 0)) (hrefused : (pairs.any fun p => fanRefuses p.1) = true) :
    s.fanIn m = State.sendAck { (s.seePair m).bump Reg.merFanRefused with
      mer.expect := (s.seePair m).mer.expect + 1, mer.last := some m, mer.lastStatus := 1 } m := by
  unfold State.fanIn State.merIn
  rw [if_neg hrole, if_neg (by simp [hfor]), hbody]
  dsimp only
  rw [if_neg hmode, if_neg hlast, if_neg hpairs, if_pos hseq, State.fanApply, if_pos hrefused]

/-- Counting the refusal makes a usable set of it, and the acknowledgement waits as a cell. -/
theorem out_after_refusal : (stFarSource.fanIn msgFarSource).out.length = 0 := by
  rw [fanIn_refused (slot := 0) (wp := false) (pairs := [(0, 0)]) (by decide +kernel) merFor_farSource rfl (by decide +kernel)
    (by decide +kernel) (by decide +kernel) (by decide) (by decide)]
  decide +kernel

/-- Refutes O57: from a source number beyond the devices, the count of refused records is the reach of the source, so that the
acknowledgement of a refused record goes another way than it would before the count. -/
theorem not_messagesAreMetByRoleAndSequence : ¬ Obligations.MessagesAreMetByRoleAndSequence := by
  unfold Obligations.MessagesAreMetByRoleAndSequence
  intro ⟨_, _, _, _, _, hfan, _⟩
  obtain ⟨-, -, -, -, hrefuse⟩ := hfan msgFarSource 0 false [(0, 0)] stFarSource (stFarSource.seePair msgFarSource)
    (by decide +kernel) merFor_farSource rfl (by decide +kernel) rfl
  obtain ⟨t, hrun, -, -, -, ht⟩ := hrefuse (by decide +kernel) (by decide +kernel) (by decide)
  have hexec : exec (.fanReceive msgFarSource) stFarSource = .next (stFarSource.fanIn msgFarSource) := rfl
  have heq : stFarSource.fanIn msgFarSource = t := by
    rw [hexec] at hrun
    injection hrun
  have hlen := congrArg List.length ht
  rw [← heq, out_after_refusal, out_before_refusal] at hlen
  exact absurd hlen (by decide)

end Sys2Proof.Machine
end

section
/-!
PROOFS. A learn for a table that no register configures (O55; R219, R221).
-/
open Sys2Proof.Safety
namespace Sys2Proof.Machine

/-- A table number whose configuration would lie at MER_EVT_LOST. -/
def farTable : Nat := (Reg.merEvtLost - Reg.sxtTblCfg 0) / 4

/-- A learn of that table. -/
def farLearn : Learn := { table := farTable, key := 0, result := 0, port := 0 }

/-- An entry of another table, placed under the old seed. -/
def oldEntry : EmEntry := { table := 0, key := 0, result := 0 }

/-- A worker without a manager that forwards Sextant's events and has lost 0x0FFFFFFF of them. The learn FIFO holds the learn; a
rehash has not finished, and entries not yet moved fill the learn's buckets under SEED_NEXT. -/
def stFarTable : State :=
  ((({ State.reset with
      mer.role := 1, sxt.learns := [farLearn], sxt.em := (candSlots 0 65536 farTable 0).map fun i => (i, some oldEntry) } :
      State).wr Reg.sxtEmStatus 0x40000000).wr Reg.merEvtFwdLo 0x4000).wr Reg.merEvtLost 0x0FFFFFFF

/-- Neither the current seed nor SEED_NEXT leads to an entry of the table, and no slot takes a new one. -/
theorem emFind_farTable : stFarTable.emFind farTable 0 = none := by
  decide +kernel

theorem emPlace_farTable : (stFarTable.emPlace { table := farTable, key := 0, result := 0 }).1 = none := by
  decide +kernel

/-- The failed insert raises an event that is lost, whose count then reads as NOTIFY. -/
theorem notes_farTable : stFarTable.learnTaken.sxt.notes ≠ [] := by
  decide +kernel

/-- Refutes O55: for a table number beyond the tables, the count of lost events is its configuration, so that the event of a
failed insert makes the learn notify a table that did not ask for it. -/
theorem not_learnsAgeRehashAndRepair : ¬ Obligations.LearnsAgeRehashAndRepair := by
  unfold Obligations.LearnsAgeRehashAndRepair
  intro ⟨_, _, hmiss, _⟩
  obtain ⟨_, _, _, hfail⟩ := hmiss farLearn [] 0 stFarTable rfl (by decide +kernel) emFind_farTable
  obtain ⟨t, hrun, _, _, _, _, hnoted⟩ := hfail (by decide +kernel) (by decide +kernel) emPlace_farTable
  have hexec : exec .learnTaken stFarTable = .next stFarTable.learnTaken := rfl
  injection hexec.symm.trans hrun with ht
  subst ht
  have hquiet : stFarTable.bit (Reg.sxtTblCfg farTable) 28 = false := by decide +kernel
  unfold Safety.Noted at hnoted
  rw [if_neg (fun h => Bool.noConfusion (hquiet.symm.trans h.1))] at hnoted
  exact notes_farTable hnoted

end Sys2Proof.Machine
end

section
/-!
PROOFS. What an operation on the Sextant's tables may change (chapter 10).
-/
open Sys2Proof.Safety
namespace Sys2Proof.Machine

/-! #### Slots, prefixes, direct entries and filter counts -/

theorem State.sxt_memWrite (s : State) (kind : Nat) : (s.memWrite kind).sxt = s.sxt ∧ (s.memWrite kind).dev = s.dev := by
  obtain ⟨hframe, _⟩ := State.onlyRegs_memWrite s kind
  rw [hframe]
  exact ⟨rfl, rfl⟩

/-- Filling or freeing a slot changes its hash memory, and consumes an injection armed for it. -/
theorem setSlot_frame (s : State) (lp : Bool) (i : Nat) (e : Option EmEntry) :
    (s.setSlot lp i e).sxt = { s.sxt with
      em := if lp then s.sxt.em else s.sxt.em.set (fun _ => none) i e,
      lpmh := if lp then s.sxt.lpmh.set (fun _ => none) i e else s.sxt.lpmh } ∧
    (s.setSlot lp i e).dev = s.dev ∧ RegsBut [Reg.chkInj] s (s.setSlot lp i e) := by
  unfold State.setSlot
  cases lp
  · exact ⟨(State.sxt_memWrite _ _).1, (State.sxt_memWrite _ _).2, (State.onlyRegs_memWrite _ _).2⟩
  · exact ⟨(State.sxt_memWrite _ _).1, (State.sxt_memWrite _ _).2, (State.onlyRegs_memWrite _ _).2⟩

theorem slotAt_setSlot (s : State) (lp : Bool) (i j : Nat) (e : Option EmEntry) :
    (s.setSlot lp i e).slotAt lp j = if j = i then e else s.slotAt lp j := by
  unfold State.slotAt State.slotMap
  rw [(setSlot_frame s lp i e).1]
  cases lp
  · exact SMap.get_set _ _ _ _ _
  · exact SMap.get_set _ _ _ _ _

theorem slotAt_setSlot_self (s : State) (lp : Bool) (i : Nat) (e : Option EmEntry) : (s.setSlot lp i e).slotAt lp i = e := by
  rw [slotAt_setSlot, if_pos rfl]

theorem sameBut_setSlot (s : State) (lp : Bool) (i : Nat) (e : Option EmEntry) :
    SameBut (fun u => u.slotAt lp) [i] s (s.setSlot lp i e) := fun j hj => by
  dsimp only
  rw [slotAt_setSlot, if_neg (by simpa using hj)]

theorem setLpm_frame (s : State) (k : Nat) (r : Option (BitVec 22)) :
    (s.setLpm k r).sxt = { s.sxt with lpm := s.sxt.lpm.set (fun _ => none) k r } ∧ (s.setLpm k r).dev = s.dev ∧
      RegsBut [Reg.chkInj] s (s.setLpm k r) :=
  ⟨(State.sxt_memWrite _ _).1, (State.sxt_memWrite _ _).2, (State.onlyRegs_memWrite _ _).2⟩

theorem setDirect_frame (s : State) (t i : Nat) (v : BitVec 64) :
    (s.setDirect t i v).sxt = { s.sxt with direct := s.sxt.direct.set (fun _ => 0) (t * 2 ^ 20 + i) v } ∧
      (s.setDirect t i v).dev = s.dev ∧ RegsBut [Reg.chkInj] s (s.setDirect t i v) :=
  ⟨(State.sxt_memWrite _ _).1, (State.sxt_memWrite _ _).2, (State.onlyRegs_memWrite _ _).2⟩

/-- The filter counts alone change. -/
def FiltersOnly (s t : State) : Prop := t = { s with sxt.filters := t.sxt.filters }

theorem filterAdd_only (s : State) (t key : Nat) : FiltersOnly s (s.filterAdd t key) :=
  State.each_induct (P := FiltersOnly s) rfl fun _ _ _ hu => by
    unfold FiltersOnly at hu
    rw [hu]
    rfl

theorem filterSub_only (s : State) (t key : Nat) : FiltersOnly s (s.filterSub t key) :=
  State.each_induct (P := FiltersOnly s) rfl fun _ _ _ hu => by
    dsimp only
    split
    · exact hu
    · unfold FiltersOnly at hu
      rw [hu]
      rfl

theorem filterCount_set (s : State) (b n : Nat) (c : Nat) :
    ({ s with sxt.filters := s.sxt.filters.set (fun _ => 0) b n } : State).filterCount c = if c = b then n else s.filterCount c :=
  SMap.get_set _ _ _ _ _

/-- Each occurrence of a bit among those set counts one more, up to 15. -/
theorem filterCount_each_add (s : State) (l : List Nat) {b : Nat} (hb : s.filterCount b ≤ 15) :
    (s.each l fun b s => { s with sxt.filters := s.sxt.filters.set (fun _ => 0) b (min 15 (s.filterCount b + 1)) }).filterCount b =
      min 15 (s.filterCount b + l.count b) := by
  induction l generalizing s with
  | nil => exact (Nat.min_eq_right hb).symm
  | cons c l ih =>
    rw [State.each, ih]
    all_goals rw [filterCount_set]
    · by_cases hc : b = c
      · subst hc
        rw [if_pos rfl, List.count_cons_self]
        omega
      · rw [if_neg hc, List.count_cons_of_ne (Ne.symm hc)]
    · split <;> omega

/-- Each occurrence of a bit among those cleared counts one less, where the count has not reached 15. -/
theorem filterCount_each_sub (s : State) (l : List Nat) {b : Nat} (hb : s.filterCount b < 15) :
    (s.each l fun b s =>
      if s.filterCount b = 15 then s
      else { s with sxt.filters := s.sxt.filters.set (fun _ => 0) b (s.filterCount b - 1) }).filterCount b =
      s.filterCount b - l.count b := by
  induction l generalizing s with
  | nil => rfl
  | cons c l ih =>
    rw [State.each]
    by_cases hc : b = c
    · subst hc
      rw [if_neg hb.ne, ih, filterCount_set, if_pos rfl, List.count_cons_self]
      · omega
      · rw [filterCount_set, if_pos rfl]
        omega
    · have hcount : ((if s.filterCount c = 15 then s
          else { s with sxt.filters := s.sxt.filters.set (fun _ => 0) c (s.filterCount c - 1) }) : State).filterCount b =
          s.filterCount b := by
        split
        · rfl
        · rw [filterCount_set, if_neg hc]
      rw [ih _ (hcount ▸ hb), hcount, List.count_cons_of_ne (Ne.symm hc)]

theorem filterCount_filterAdd (s : State) (t key : Nat) {b : Nat} (hb : s.filterCount b ≤ 15) :
    (s.filterAdd t key).filterCount b = min 15 (s.filterCount b + (s.filterKeys t key).count b) :=
  filterCount_each_add s _ hb

theorem filterCount_filterSub (s : State) (t key : Nat) {b : Nat} (hb : s.filterCount b < 15) :
    (s.filterSub t key).filterCount b = s.filterCount b - (s.filterKeys t key).count b :=
  filterCount_each_sub s _ hb

/-! #### Steps on the tables -/

/-- The registers besides those of events that an operation on the tables may change. -/
def tableRegs : List Nat := [Reg.chkInj, Reg.sxtRelocs, Reg.sxtInsertFails, Reg.sxtEmStatus, Reg.sxtLpmStatus]

/-- Tables and their counts alone change. -/
structure TableStep (s t : State) : Prop where
  dev : t.dev = s.dev
  sxt : ∃ em lpm lpmh filters direct,
    t.sxt = { s.sxt with em := em, lpm := lpm, lpmh := lpmh, filters := filters, direct := direct }
  regs : ∀ a, ¬ eventReg a → a ∉ tableRegs → t.rd a = s.rd a

theorem TableStep.refl (s : State) : TableStep s s := ⟨rfl, ⟨_, _, _, _, _, rfl⟩, fun _ _ _ => rfl⟩

theorem TableStep.trans {s t u : State} (h : TableStep s t) (k : TableStep t u) : TableStep s u where
  dev := k.dev.trans h.dev
  sxt := by
    obtain ⟨_, _, _, _, _, hs⟩ := h.sxt
    obtain ⟨_, _, _, _, _, ks⟩ := k.sxt
    exact ⟨_, _, _, _, _, ks.trans (by rw [hs])⟩
  regs a ha ht := (k.regs a ha ht).trans (h.regs a ha ht)

theorem TableStep.of_regsBut {s t : State} {l : List Nat} (hdev : t.dev = s.dev)
    (hsxt : ∃ em lpm lpmh filters direct,
      t.sxt = { s.sxt with em := em, lpm := lpm, lpmh := lpmh, filters := filters, direct := direct })
    (hl : l ⊆ tableRegs) (hregs : RegsBut l s t) : TableStep s t :=
  ⟨hdev, hsxt, fun a _ ht => hregs a fun h => ht (hl h)⟩

theorem tableStep_setSlot (s : State) (lp : Bool) (i : Nat) (e : Option EmEntry) : TableStep s (s.setSlot lp i e) := by
  obtain ⟨hsxt, hdev, hregs⟩ := setSlot_frame s lp i e
  exact .of_regsBut hdev ⟨_, _, _, _, _, hsxt⟩ (by decide) hregs

theorem tableStep_setLpm (s : State) (k : Nat) (r : Option (BitVec 22)) : TableStep s (s.setLpm k r) := by
  obtain ⟨hsxt, hdev, hregs⟩ := setLpm_frame s k r
  exact .of_regsBut hdev ⟨_, _, _, _, _, hsxt⟩ (by decide) hregs

theorem tableStep_setDirect (s : State) (t i : Nat) (v : BitVec 64) : TableStep s (s.setDirect t i v) := by
  obtain ⟨hsxt, hdev, hregs⟩ := setDirect_frame s t i v
  exact .of_regsBut hdev ⟨_, _, _, _, _, hsxt⟩ (by decide) hregs

theorem FiltersOnly.tableStep {s t : State} (h : FiltersOnly s t) : TableStep s t := by
  unfold FiltersOnly at h
  rw [h]
  exact ⟨rfl, ⟨_, _, _, _, _, rfl⟩, fun _ _ _ => rfl⟩

theorem tableStep_bumpBy (s : State) {a : Nat} (ha : a ∈ tableRegs) (n : Nat) : TableStep s (s.bumpBy a n) :=
  ⟨rfl, ⟨_, _, _, _, _, rfl⟩, fun b _ hb => by rw [State.rd_bumpBy, if_neg (fun h => hb (by rw [h]; exact ha))]⟩

theorem hashStatus_mem (lp : Bool) : hashStatus lp ∈ tableRegs := by
  cases lp <;> decide

/-- An insert that finds no place leaves the Sextant as it is. -/
theorem insertFailed_frame (s : State) (lp : Bool) :
    (s.insertFailed lp).sxt = s.sxt ∧ (s.insertFailed lp).dev = s.dev ∧
      ∀ a, ¬ eventReg a → a ∉ tableRegs → (s.insertFailed lp).rd a = s.rd a := by
  have hframe := State.raise_frame (s := (s.setBit (hashStatus lp) 31 true).bump Reg.sxtInsertFails) (leafOf 14 0) 0 0 0 0
  refine ⟨?_, ?_, fun a ha ht => ?_⟩
  · rw [State.insertFailed, State.event, hframe]
    rfl
  · rw [State.insertFailed, State.event, hframe]
    rfl
  · rw [State.insertFailed, State.event, rd_raise_of_not_eventReg _ (by decide) _ _ _ _ ha, State.rd_bump,
      if_neg (fun h => ht (by rw [h]; decide)), State.rd_setBit, if_neg (fun h => ht (by rw [h]; exact hashStatus_mem lp))]

theorem tableStep_insertFailed (s : State) (lp : Bool) : TableStep s (s.insertFailed lp) := by
  obtain ⟨hsxt, hdev, hregs⟩ := insertFailed_frame s lp
  exact ⟨hdev, ⟨_, _, _, _, _, hsxt⟩, hregs⟩

/-- It asks for a rehash and raises its event (R214). -/
theorem insertFailed_shown (s : State) (lp : Bool) :
    (s.insertFailed lp).bit (hashStatus lp) 31 = true ∧ Raised (leafOf 14 0) (s.insertFailed lp) := by
  refine ⟨?_, raised_raise _ _ _ _ _ _⟩
  have hevent : ¬ eventReg (hashStatus lp) := by
    cases lp <;> unfold eventReg <;> decide
  have hcount : hashStatus lp ≠ Reg.sxtInsertFails := by
    cases lp <;> decide
  rw [State.insertFailed, State.event, State.bit, rd_raise_of_not_eventReg _ (by decide) _ _ _ _ hevent, State.rd_bump,
    if_neg hcount, State.rd_setBit, if_pos rfl, Machine.bit_setBit_self _ (by decide)]

/-! #### Placing an entry (R214) -/

theorem tableStep_moveAlong (s : State) (lp : Bool) (p : List Nat) : TableStep s (s.moveAlong lp p) := by
  fun_induction State.moveAlong s lp p with
  | case1 => exact .refl _
  | case2 => exact .refl _
  | case3 s a b ps ih => exact ((tableStep_setSlot s lp _ _).trans (tableStep_setSlot _ lp _ _)).trans ih

/-- No other register than an armed injection changes where entries move. -/
theorem regsBut_moveAlong (s : State) (lp : Bool) (p : List Nat) : RegsBut [Reg.chkInj] s (s.moveAlong lp p) := by
  fun_induction State.moveAlong s lp p with
  | case1 => exact fun _ _ => rfl
  | case2 => exact fun _ _ => rfl
  | case3 s a b ps ih =>
    exact fun c hc => ((ih c hc).trans ((setSlot_frame _ lp _ _).2.2 c hc)).trans ((setSlot_frame s lp _ _).2.2 c hc)

/-- The slots at which the paths of a search end lie in a list. -/
def EndIn (l : List Nat) (ps : List (List Nat)) : Prop := ∀ p ∈ ps, p ≠ [] ∧ p.getLastD 0 ∈ l

theorem getLastD_cons_of_ne {p : List Nat} (hp : p ≠ []) (i : Nat) : (i :: p).getLastD 0 = p.getLastD 0 := by
  cases p with
  | nil => exact absurd rfl hp
  | cons a p => rfl

theorem relocLevel_endIn (s : State) (lp : Bool) (l : List Nat) (ps : List (List Nat)) (seen : List Nat) (acc : List (List Nat))
    (hps : EndIn l ps) (hacc : EndIn l acc) :
    (∀ p, (s.relocLevel lp ps seen acc).1 = some p → p ≠ [] ∧ p.getLastD 0 ∈ l) ∧ EndIn l (s.relocLevel lp ps seen acc).2.1 := by
  fun_induction State.relocLevel s lp ps seen acc with
  | case1 seen acc => exact ⟨fun p h => (nomatch h), hacc⟩
  | case2 p ps seen acc e _ _ ih => exact ih (fun q hq => hps q (List.mem_cons_of_mem _ hq)) hacc
  | case3 p ps seen acc e _ _ cur alts i _ =>
    obtain ⟨hne, hlast⟩ := hps p (List.mem_cons_self ..)
    refine ⟨fun q hq => ?_, hacc⟩
    injection hq with hq
    subst hq
    exact ⟨List.cons_ne_nil _ _, by rwa [getLastD_cons_of_ne hne]⟩
  | case4 p ps seen acc e _ _ cur alts _ new ih =>
    obtain ⟨hne, hlast⟩ := hps p (List.mem_cons_self ..)
    refine ih (fun q hq => hps q (List.mem_cons_of_mem _ hq)) fun q hq => ?_
    rcases List.mem_append.mp hq with hq | hq
    · exact hacc q hq
    · obtain ⟨j, _, rfl⟩ := List.mem_map.mp hq
      exact ⟨List.cons_ne_nil _ _, by rwa [getLastD_cons_of_ne hne]⟩
  | case5 p ps seen acc _ ih => exact ih (fun q hq => hps q (List.mem_cons_of_mem _ hq)) hacc

theorem relocPath_endIn (s : State) (lp : Bool) (l : List Nat) (n : Nat) (front : List (List Nat)) (seen : List Nat)
    (hfront : EndIn l front) {p : List Nat} (hp : s.relocPath lp n front seen = some p) : p.getLastD 0 ∈ l := by
  induction n generalizing front seen with
  | zero => nomatch hp
  | succ n ih =>
    obtain ⟨hfound, hnext⟩ := relocLevel_endIn s lp l front seen [] hfront (fun q hq => nomatch hq)
    unfold State.relocPath at hp
    generalize s.relocLevel lp front seen [] = r at hfound hnext hp
    obtain ⟨path, front', seen'⟩ := r
    cases path with
    | some q =>
      injection hp with hp
      subst hp
      exact (hfound q rfl).2
    | none =>
      dsimp only at hp
      split at hp
      · nomatch hp
      · exact ih front' seen' hnext hp

/-- An entry that has a place stands in one of its candidate slots, and the moves made are counted (R214, R215). -/
theorem hashPlace_some {s : State} {lp : Bool} {e : EmEntry} {n : Nat} (h : (s.hashPlace lp e).1 = some n) :
    (∃ j ∈ s.cands lp (s.dual lp) e.table e.key, (s.hashPlace lp e).2.slotAt lp j = some { e with fresh := s.dual lp }) ∧
      (s.hashPlace lp e).2.rd Reg.sxtRelocs = satAdd (s.rd Reg.sxtRelocs) n := by
  unfold State.hashPlace at h ⊢
  dsimp only at h ⊢
  cases hfree : (s.cands lp (s.dual lp) e.table e.key).find? fun i => (s.slotAt lp i).isNone with
  | some i =>
    rw [hfree] at h
    injection h with h
    subst h
    refine ⟨⟨i, List.mem_of_find?_eq_some hfree, slotAt_setSlot_self _ _ _ _⟩, ?_⟩
    rw [satAdd_zero]
    exact (setSlot_frame s lp i _).2.2 _ (by decide)
  | none =>
    rw [hfree] at h
    dsimp only at h ⊢
    cases hpath : s.relocPath lp s.maxReloc ((s.cands lp (s.dual lp) e.table e.key).map fun i => [i])
        (s.cands lp (s.dual lp) e.table e.key) with
    | none =>
      rw [hpath] at h
      nomatch h
    | some p =>
      rw [hpath] at h
      injection h with h
      subst h
      refine ⟨⟨p.getLastD 0, relocPath_endIn s lp _ _ _ _ (fun q hq => ?_) hpath, slotAt_setSlot_self _ _ _ _⟩, ?_⟩
      · obtain ⟨i, hi, rfl⟩ := List.mem_map.mp hq
        exact ⟨List.cons_ne_nil _ _, hi⟩
      · dsimp only
        rw [State.rd_bumpBy, if_pos rfl, (setSlot_frame _ lp _ _).2.2 _ (by decide), regsBut_moveAlong s lp p _ (by decide)]

theorem hashPlace_of_free {s : State} {lp : Bool} {e : EmEntry} {i : Nat}
    (h : ((s.cands lp (s.dual lp) e.table e.key).find? fun i => (s.slotAt lp i).isNone) = some i) :
    s.hashPlace lp e = (some 0, s.setSlot lp i (some { e with fresh := s.dual lp })) := by
  unfold State.hashPlace
  dsimp only
  rw [h]

theorem hashPlace_none {s : State} {lp : Bool} {e : EmEntry} (h : (s.hashPlace lp e).1 = none) : (s.hashPlace lp e).2 = s := by
  unfold State.hashPlace at h ⊢
  dsimp only at h ⊢
  split at h
  · nomatch h
  · split at h
    · nomatch h
    · rfl

theorem tableStep_hashPlace (s : State) (lp : Bool) (e : EmEntry) : TableStep s (s.hashPlace lp e).2 := by
  unfold State.hashPlace
  dsimp only
  split
  · exact tableStep_setSlot s lp _ _
  · split
    · exact ((tableStep_moveAlong s lp _).trans (tableStep_setSlot _ lp _ _)).trans (tableStep_bumpBy _ (by decide) _)
    · exact .refl s

end Sys2Proof.Machine
end

section
/-!
PROOFS. The operations of Table 10.6 by their outcomes (R206, R207, R214, R222, R228).
-/
open Sys2Proof.Safety
namespace Sys2Proof.Machine

/-! #### Exact-match entries -/

theorem dynMax_free {s : State} (h : s.dynCount < 1048576) : decide (dynMax ≤ s.dynCount) = false :=
  decide_eq_false (Nat.not_le.mpr h)

theorem dynMax_reached {s : State} (h : 1048576 ≤ s.dynCount) : decide (dynMax ≤ s.dynCount) = true :=
  decide_eq_true h

theorem emInsert_of_found {s : State} {t key i : Nat} {e : EmEntry} (hfind : s.emFind t key = some (i, e)) (result : BitVec 64)
    {static : Bool} (hroom : static = true ∨ e.static = false ∨ s.dynCount < 1048576) :
    s.emInsert t key result static = (0, 0, s.setEm i (some
      { e with result := result, static := static, frozen := false, age := 0, moves := 0 })) := by
  have hlimit : (!static && e.static && decide (dynMax ≤ s.dynCount)) = false := by
    rcases hroom with h | h | h
    · simp [h]
    · simp [h]
    · simp [dynMax_free h]
  unfold State.emInsert
  rw [hfind]
  dsimp only
  rw [if_neg (by rw [hlimit]; exact Bool.false_ne_true)]

theorem emInsert_of_limit {s : State} {t key : Nat} (hfind : s.emFind t key = none) (result : BitVec 64)
    (hlimit : 1048576 ≤ s.dynCount) : s.emInsert t key result false = (2, 0, s.bump Reg.sxtInsertFails) := by
  unfold State.emInsert
  rw [hfind]
  dsimp only
  rw [if_pos (by simp [dynMax_reached hlimit])]

theorem emInsert_of_placed {s : State} {t key n : Nat} (hfind : s.emFind t key = none) {result : BitVec 64} {static : Bool}
    (hroom : static = true ∨ s.dynCount < 1048576)
    (hplace : (s.emPlace { table := t, key := key, result := result, static := static }).1 = some n) :
    s.emInsert t key result static = (0, n, (s.emPlace { table := t, key := key, result := result, static := static }).2) := by
  have hlimit : (!static && true && decide (dynMax ≤ s.dynCount)) = false := by
    rcases hroom with h | h
    · simp [h]
    · simp [dynMax_free h]
  unfold State.emInsert
  rw [hfind]
  dsimp only
  rw [if_neg (by rw [hlimit]; exact Bool.false_ne_true)]
  generalize s.emPlace { table := t, key := key, result := result, static := static } = r at hplace
  obtain ⟨place, u⟩ := r
  dsimp only at hplace
  rw [hplace]

theorem emInsert_of_no_place {s : State} {t key : Nat} (hfind : s.emFind t key = none) {result : BitVec 64} {static : Bool}
    (hroom : static = true ∨ s.dynCount < 1048576)
    (hplace : (s.emPlace { table := t, key := key, result := result, static := static }).1 = none) :
    s.emInsert t key result static = (2, 0, s.insertFailed false) := by
  have hlimit : (!static && true && decide (dynMax ≤ s.dynCount)) = false := by
    rcases hroom with h | h
    · simp [h]
    · simp [dynMax_free h]
  have hsame := hashPlace_none hplace
  unfold State.emInsert
  rw [hfind]
  dsimp only
  rw [if_neg (by rw [hlimit]; exact Bool.false_ne_true)]
  unfold State.emPlace at hplace ⊢
  generalize s.hashPlace false { table := t, key := key, result := result, static := static } = r at hplace hsame
  obtain ⟨place, u⟩ := r
  dsimp only at hplace hsame
  rw [hplace, hsame]

theorem tableStep_emInsert (s : State) (t key : Nat) (result : BitVec 64) (static : Bool) :
    TableStep s (s.emInsert t key result static).2.2 := by
  unfold State.emInsert
  dsimp only
  cases s.emFind t key with
  | none =>
    dsimp only
    split
    · exact tableStep_bumpBy s (a := Reg.sxtInsertFails) (by decide) 1
    · have hstep := tableStep_hashPlace s false { table := t, key := key, result := result, static := static }
      split
      · next h =>
        rw [State.emPlace] at h
        rwa [h] at hstep
      · next h =>
        rw [State.emPlace] at h
        rw [h] at hstep
        exact hstep.trans (tableStep_insertFailed _ _)
  | some x =>
    dsimp only
    split
    · exact tableStep_bumpBy s (a := Reg.sxtInsertFails) (by decide) 1
    · exact tableStep_setSlot s false _ _

theorem emDelete_of_found {s : State} {t key i : Nat} {e : EmEntry} (hfind : s.emFind t key = some (i, e)) :
    s.emDelete t key = (0, s.setEm i none) := by
  unfold State.emDelete
  rw [hfind]

theorem emDelete_of_absent {s : State} {t key : Nat} (hfind : s.emFind t key = none) : s.emDelete t key = (1, s) := by
  unfold State.emDelete
  rw [hfind]

theorem tableStep_emDelete (s : State) (t key : Nat) : TableStep s (s.emDelete t key).2 := by
  unfold State.emDelete
  split
  · exact tableStep_setSlot s false _ _
  · exact .refl s

/-! #### Prefixes -/

theorem lpmKey_split (vrf fam len addr : Nat) :
    ∃ m, m < 2 ^ 128 ∧
      lpmKey vrf fam len addr = ((vrf % 4096 * 2 + fam) * 256 + min len (famBits fam)) * 2 ^ 128 + m ∧ min len (famBits fam) < 256 := by
  have hbits : famBits fam ≤ 128 := by
    unfold famBits
    split <;> decide
  refine ⟨addr % 2 ^ famBits fam / 2 ^ (famBits fam - min len (famBits fam)) * 2 ^ (famBits fam - min len (famBits fam)), ?_, rfl,
    by omega⟩
  have hmask : addr % 2 ^ famBits fam / 2 ^ (famBits fam - min len (famBits fam)) * 2 ^ (famBits fam - min len (famBits fam)) ≤
      addr % 2 ^ famBits fam := Nat.div_mul_le_self _ _
  have haddr : addr % 2 ^ famBits fam < 2 ^ famBits fam := Nat.mod_lt _ (Nat.two_pow_pos _)
  have hpow : 2 ^ famBits fam ≤ 2 ^ 128 := Nat.pow_le_pow_right (by decide) hbits
  exact hmask.trans_lt (haddr.trans_le hpow)

/-- A key of a trie names its VRF and family. -/
theorem lpmRoot_lpmKey {fam : Nat} (hfam : fam < 2) (vrf len addr : Nat) :
    lpmRoot (lpmKey vrf fam len addr) = (vrf % 4096, fam) := by
  obtain ⟨m, hm, hkey, hlen⟩ := lpmKey_split vrf fam len addr
  rw [hkey]
  have hvrf : vrf % 4096 < 4096 := Nat.mod_lt _ (by decide)
  generalize vrf % 4096 = v at hvrf
  generalize min len (famBits fam) = l at hlen
  have h128 : ((v * 2 + fam) * 256 + l) * 2 ^ 128 + m < 2 ^ 200 := by
    norm_num at hm ⊢
    omega
  unfold lpmRoot
  refine Prod.ext ?_ ?_
  · norm_num at hm ⊢
    omega
  · norm_num at hm ⊢
    omega

theorem lpmRoot_dataPrefix (d : List Word) : (lpmRoot (dataPrefix d)).2 = Machine.fld (imgWord d 4) 31 31 := by
  have hfam : Machine.fld (imgWord d 4) 31 31 < 2 := Nat.mod_lt _ (by decide)
  rw [dataPrefix, lpmRoot_lpmKey hfam]

theorem lpmFits_congr {s t : State} (hlpm : t.sxt.lpm = s.sxt.lpm) (hlpmh : t.sxt.lpmh = s.sxt.lpmh) (hdev : t.dev = s.dev)
    (fam : Nat) : t.lpmFits fam = s.lpmFits fam := by
  unfold State.lpmFits State.lpmCount State.lpmCapacity State.lpmRoots State.lpmAll
  rw [hlpm, hlpmh, hdev]

theorem lpmAt_congr {s t : State} (hsxt : t.sxt.lpm = s.sxt.lpm) (hh : ∀ tb k, t.hashFind true tb k = s.hashFind true tb k)
    (hdev : t.dev = s.dev) (k : Nat) : t.lpmAt k = s.lpmAt k := by
  unfold State.lpmAt State.lpmHashed
  rw [hsxt, hh, hdev]

theorem lpmAt_of_trie {s : State} {k : Nat} (h : s.lpmHashed k = false) : s.lpmAt k = s.sxt.lpm.get (fun _ => none) k := by
  unfold State.lpmAt
  rw [h]
  rfl

theorem lpmAt_of_hashed {s : State} {k : Nat} (h : s.lpmHashed k = true) :
    s.lpmAt k = (s.hashFind true (lpmTab k) (lpmHash k)).map fun x => BitVec.ofNat 22 x.2.result.toNat := by
  unfold State.lpmAt
  rw [h]
  rfl

theorem lpmPut_of_trie {s : State} {k : Nat} (h : s.lpmHashed k = false) (r : BitVec 22) :
    s.lpmPut k r = (some 0, s.setLpm k (some r)) := by
  unfold State.lpmPut
  rw [h]
  rfl

theorem lpmPut_of_found {s : State} {k i : Nat} {e : EmEntry} (h : s.lpmHashed k = true)
    (hfind : s.hashFind true (lpmTab k) (lpmHash k) = some (i, e)) (r : BitVec 22) :
    s.lpmPut k r = (some 0, s.setSlot true i (some { e with result := r.setWidth 64 })) := by
  unfold State.lpmPut
  rw [h, hfind]
  rfl

theorem lpmPut_of_free {s : State} {k i : Nat} (h : s.lpmHashed k = true)
    (hfind : s.hashFind true (lpmTab k) (lpmHash k) = none) (r : BitVec 22)
    (hfree : (s.cands true (s.dual true) (lpmTab k) (lpmHash k)).find? (fun j => (s.slotAt true j).isNone) = some i) :
    s.lpmPut k r = (some 0, (s.setSlot true i (some
      { table := lpmTab k, key := lpmHash k, result := r.setWidth 64, fresh := s.dual true })).filterAdd (lpmTab k) (lpmHash k)) := by
  have hplace := hashPlace_of_free (s := s) (lp := true) (e := { table := lpmTab k, key := lpmHash k, result := r.setWidth 64 }) hfree
  unfold State.lpmPut
  rw [if_pos h, hfind]
  dsimp only at hplace ⊢
  rw [hplace]

theorem tableStep_lpmPut (s : State) (k : Nat) (r : BitVec 22) : TableStep s (s.lpmPut k r).2 := by
  unfold State.lpmPut
  split
  · split
    · exact tableStep_setSlot s true _ _
    · have hstep := tableStep_hashPlace s true { table := lpmTab k, key := lpmHash k, result := r.setWidth 64 }
      split
      · next h =>
        rw [h] at hstep
        exact hstep.trans (filterAdd_only _ _ _).tableStep
      · next h => rwa [h] at hstep
  · exact tableStep_setLpm s k _

theorem tableStep_lpmDrop (s : State) (k : Nat) : TableStep s (s.lpmDrop k) := by
  unfold State.lpmDrop
  split
  · split
    · exact (tableStep_setSlot s true _ _).trans (filterSub_only _ _ _).tableStep
    · exact .refl s
  · exact tableStep_setLpm s k _

theorem tableStep_lpmAdd (s : State) (k : Nat) (r : BitVec 22) (noSpace : Bool) : TableStep s (s.lpmAdd k r noSpace).2.2 := by
  unfold State.lpmAdd
  dsimp only
  split
  · exact .refl s
  · split
    · exact tableStep_insertFailed s true
    · split
      · exact tableStep_lpmPut s k r
      · exact tableStep_insertFailed s true

theorem tableStep_lpmDel (s : State) (k : Nat) (noSpace : Bool) : TableStep s (s.lpmDel k noSpace).2 := by
  unfold State.lpmDel
  split
  · exact .refl s
  · split
    · exact .refl s
    · exact tableStep_lpmDrop s k

/-- An addition that trie memory and capacity allow is placed. -/
theorem lpmAdd_of_fits {s : State} {k n : Nat} {r : BitVec 22} {noSpace : Bool}
    (hspace : s.dev.body.carve.full = false ∨ noSpace = false)
    (hfits : (s.lpmAt k).isSome = true ∨ (s.lpmPut k r).2.lpmFits (lpmRoot k).2 = true) (hput : (s.lpmPut k r).1 = some n) :
    s.lpmAdd k r noSpace = (0, n, (s.lpmPut k r).2) := by
  have hroom : (!((s.lpmAt k).isSome || (s.lpmPut k r).2.lpmFits (lpmRoot k).2)) = false := by
    rcases hfits with h | h <;> simp [h]
  unfold State.lpmAdd
  dsimp only
  rw [if_neg (by rcases hspace with h | h <;> simp [hroom, h]), if_neg (by simp [hroom]), hput]

theorem lpmAdd_of_no_space {s : State} {k : Nat} {r : BitVec 22} {noSpace : Bool} (hfull : s.dev.body.carve.full = true)
    (hspace : noSpace = true ∨ (s.lpmAt k = none ∧ (s.lpmPut k r).2.lpmFits (lpmRoot k).2 = false)) :
    s.lpmAdd k r noSpace = (3, 0, s) := by
  unfold State.lpmAdd
  dsimp only
  rw [if_pos ?_]
  rcases hspace with h | ⟨habsent, hfits⟩
  · simp [hfull, h]
  · simp [hfull, habsent, hfits]

theorem lpmAdd_of_beyond {s : State} {k : Nat} {r : BitVec 22} (hcompact : s.dev.body.carve.full = false)
    (habsent : s.lpmAt k = none) (hplace : (s.lpmPut k r).1 = none ∨ (s.lpmPut k r).2.lpmFits (lpmRoot k).2 = false)
    (noSpace : Bool) : s.lpmAdd k r noSpace = (2, 0, s.insertFailed true) := by
  unfold State.lpmAdd
  dsimp only
  rw [if_neg (by simp [hcompact])]
  rcases hplace with hplace | hfits
  · split
    · rfl
    · rw [hplace]
  · rw [if_pos (by simp [habsent, hfits])]

theorem lpmDel_of_present {s : State} {k : Nat} (hsome : (s.lpmAt k).isSome = true) {noSpace : Bool}
    (hspace : s.dev.body.carve.full = false ∨ noSpace = false) : s.lpmDel k noSpace = (0, s.lpmDrop k) := by
  unfold State.lpmDel
  rw [if_neg (by rw [Option.isNone_eq_false_iff.mpr hsome]; exact Bool.false_ne_true), if_neg (by rcases hspace with h | h <;> simp [h])]

theorem lpmDel_of_no_space {s : State} {k : Nat} (hsome : (s.lpmAt k).isSome = true) (hfull : s.dev.body.carve.full = true) :
    s.lpmDel k true = (3, s) := by
  unfold State.lpmDel
  rw [if_neg (by rw [Option.isNone_eq_false_iff.mpr hsome]; exact Bool.false_ne_true), if_pos (by simp [hfull])]

theorem lpmDel_of_absent {s : State} {k : Nat} (hnone : s.lpmAt k = none) (noSpace : Bool) : s.lpmDel k noSpace = (1, s) := by
  unfold State.lpmDel
  rw [if_pos (by simp [hnone])]

theorem lpmDrop_of_trie {s : State} {k : Nat} (h : s.lpmHashed k = false) : s.lpmDrop k = s.setLpm k none := by
  unfold State.lpmDrop
  rw [h]
  rfl

theorem lpmDrop_of_found {s : State} {k i : Nat} {e : EmEntry} (h : s.lpmHashed k = true)
    (hfind : s.hashFind true (lpmTab k) (lpmHash k) = some (i, e)) :
    s.lpmDrop k = (s.setSlot true i none).filterSub (lpmTab k) (lpmHash k) := by
  unfold State.lpmDrop
  rw [h, hfind]
  rfl

/-! #### One operation (Table 10.6) -/

theorem sxtOp_insert {s : State} {t : Nat} (h : s.sxtSub t = some 0) (i : Nat) (d : List Word) (noSpace : Bool) :
    s.sxtOp 1 t i d noSpace =
      ((s.emInsert t (imgNum d 2 5) (BitVec.ofNat 64 (imgNum d 0 2)) (Machine.bit (imgWord d 7) 30)).1,
        (s.emInsert t (imgNum d 2 5) (BitVec.ofNat 64 (imgNum d 0 2)) (Machine.bit (imgWord d 7) 30)).2.1, d,
        (s.emInsert t (imgNum d 2 5) (BitVec.ofNat 64 (imgNum d 0 2)) (Machine.bit (imgWord d 7) 30)).2.2) := by
  rw [State.sxtSub] at h
  simp [State.sxtOp, h]

theorem sxtOp_delete {s : State} {t : Nat} (h : s.sxtSub t = some 0) (i : Nat) (d : List Word) (noSpace : Bool) :
    s.sxtOp 2 t i d noSpace = ((s.emDelete t (imgNum d 2 5)).1, 0, d, (s.emDelete t (imgNum d 2 5)).2) := by
  rw [State.sxtSub] at h
  simp [State.sxtOp, h]

theorem sxtOp_read_found {s : State} {t i : Nat} {e : EmEntry} (h : s.sxtSub t = some 0) {d : List Word}
    (hfind : s.emFind t (imgNum d 2 5) = some (i, e)) (j : Nat) (noSpace : Bool) :
    s.sxtOp 3 t j d noSpace = (0, 0, emWords e, s) := by
  rw [State.sxtSub] at h
  simp [State.sxtOp, h, hfind]

theorem sxtOp_read_absent {s : State} {t : Nat} (h : s.sxtSub t = some 0) {d : List Word}
    (hfind : s.emFind t (imgNum d 2 5) = none) (j : Nat) (noSpace : Bool) : s.sxtOp 3 t j d noSpace = (1, 0, d, s) := by
  rw [State.sxtSub] at h
  simp [State.sxtOp, h, hfind]

theorem sxtOp_em_other {s : State} {op t : Nat} (hop : op = 1 ∨ op = 2 ∨ op = 3) (h : s.sxtSub t ≠ some 0) (i : Nat)
    (d : List Word) (noSpace : Bool) : s.sxtOp op t i d noSpace = (5, 0, d, s) := by
  rw [State.sxtSub] at h
  unfold State.sxtOp
  dsimp only
  rw [if_pos hop, if_pos (by simpa using h)]

/-- The table is the LPM table of the family that the data names. -/
theorem lpmTable_of {sub : Option Nat} {fam : Nat} (hfam : fam < 2) (h : sub = some (1 + fam)) :
    ((!(sub == some 1 || sub == some 2)) || !(sub == some (1 + fam))) = false := by
  rw [h]
  interval_cases fam <;> decide

theorem sxtOp_add {s : State} {t : Nat} {d : List Word} (h : s.sxtSub t = some (1 + Machine.fld (imgWord d 4) 31 31)) (i : Nat)
    (noSpace : Bool) :
    s.sxtOp 4 t i d noSpace =
      ((s.lpmAdd (dataPrefix d) (BitVec.ofNat 22 (imgWord d 5).toNat) noSpace).1,
        (s.lpmAdd (dataPrefix d) (BitVec.ofNat 22 (imgWord d 5).toNat) noSpace).2.1, d,
        (s.lpmAdd (dataPrefix d) (BitVec.ofNat 22 (imgWord d 5).toNat) noSpace).2.2) := by
  have hlpm := lpmTable_of (fam := Machine.fld (imgWord d 4) 31 31) (Nat.mod_lt _ (by decide)) h
  rw [State.sxtSub] at h hlpm
  unfold State.sxtOp
  dsimp only
  rw [if_neg (by decide), if_pos (by decide), if_neg (by rw [hlpm]; exact Bool.false_ne_true), if_pos rfl]

theorem sxtOp_del {s : State} {t : Nat} {d : List Word} (h : s.sxtSub t = some (1 + Machine.fld (imgWord d 4) 31 31)) (i : Nat)
    (noSpace : Bool) :
    s.sxtOp 5 t i d noSpace = ((s.lpmDel (dataPrefix d) noSpace).1, 0, d, (s.lpmDel (dataPrefix d) noSpace).2) := by
  have hlpm := lpmTable_of (fam := Machine.fld (imgWord d 4) 31 31) (Nat.mod_lt _ (by decide)) h
  rw [State.sxtSub] at h hlpm
  unfold State.sxtOp
  dsimp only
  rw [if_neg (by decide), if_pos (by decide), if_neg (by rw [hlpm]; exact Bool.false_ne_true), if_neg (by decide), if_pos rfl]

theorem sxtOp_lookup_found {s : State} {t : Nat} {d : List Word} (h : s.sxtSub t = some (1 + Machine.fld (imgWord d 4) 31 31))
    {r : BitVec 22} (hr : s.lpmAt (dataPrefix d) = some r) (i : Nat) (noSpace : Bool) :
    s.sxtOp 6 t i d noSpace = (0, 0, lpmWords (dataPrefix d) r, s) := by
  have hlpm := lpmTable_of (fam := Machine.fld (imgWord d 4) 31 31) (Nat.mod_lt _ (by decide)) h
  rw [State.sxtSub] at h hlpm
  unfold State.sxtOp
  dsimp only
  rw [if_neg (by decide), if_pos (by decide), if_neg (by rw [hlpm]; exact Bool.false_ne_true), if_neg (by decide),
    if_neg (by decide), hr]

theorem sxtOp_lookup_absent {s : State} {t : Nat} {d : List Word} (h : s.sxtSub t = some (1 + Machine.fld (imgWord d 4) 31 31))
    (hr : s.lpmAt (dataPrefix d) = none) (i : Nat) (noSpace : Bool) : s.sxtOp 6 t i d noSpace = (1, 0, d, s) := by
  have hlpm := lpmTable_of (fam := Machine.fld (imgWord d 4) 31 31) (Nat.mod_lt _ (by decide)) h
  rw [State.sxtSub] at h hlpm
  unfold State.sxtOp
  dsimp only
  rw [if_neg (by decide), if_pos (by decide), if_neg (by rw [hlpm]; exact Bool.false_ne_true), if_neg (by decide),
    if_neg (by decide), hr]

theorem sxtOp_lpm_other {s : State} {op t : Nat} {d : List Word} (hop : op = 4 ∨ op = 5 ∨ op = 6)
    (h : s.sxtSub t ≠ some (1 + Machine.fld (imgWord d 4) 31 31)) (i : Nat) (noSpace : Bool) :
    s.sxtOp op t i d noSpace = (5, 0, d, s) := by
  rw [State.sxtSub] at h
  unfold State.sxtOp
  dsimp only
  rw [if_neg (by omega), if_pos hop, if_pos]
  rw [Bool.or_eq_true, Bool.not_eq_true' (_ == some (1 + _))]
  exact .inr (by simpa using h)

theorem sxtOp_write {s : State} {t i : Nat} {x : TableShape} (h : s.sxtTable t = some x) (hsub : 3 ≤ x.sub) (hi : i < x.size)
    (d : List Word) (noSpace : Bool) :
    s.sxtOp 7 t i d noSpace = (0, 0, d, s.setDirect t i (BitVec.ofNat 64 (imgNum d 0 (subWords x.sub)))) := by
  simp [State.sxtOp, h, hsub, hi]

theorem sxtOp_direct {s : State} {t i : Nat} {x : TableShape} (h : s.sxtTable t = some x) (hsub : 3 ≤ x.sub) (hi : i < x.size)
    (d : List Word) (noSpace : Bool) : s.sxtOp 8 t i d noSpace = (0, 0, toWords 8 (s.directAt t i).toNat, s) := by
  simp [State.sxtOp, h, hsub, hi]

theorem sxtOp_index_beyond {s : State} {op t i : Nat} {x : TableShape} (hop : op = 7 ∨ op = 8) (h : s.sxtTable t = some x)
    (hsub : 3 ≤ x.sub) (hi : x.size ≤ i) (d : List Word) (noSpace : Bool) : s.sxtOp op t i d noSpace = (6, 0, d, s) := by
  rcases hop with rfl | rfl <;> simp [State.sxtOp, h, hsub, hi]

theorem sxtOp_direct_other {s : State} {op t : Nat} (hop : op = 7 ∨ op = 8)
    (h : s.sxtSub t = none ∨ s.sxtSub t = some 0 ∨ s.sxtSub t = some 1 ∨ s.sxtSub t = some 2) (i : Nat) (d : List Word)
    (noSpace : Bool) : s.sxtOp op t i d noSpace = (5, 0, d, s) := by
  rw [State.sxtSub] at h
  rcases hop with rfl | rfl <;> rcases h with h | h | h | h <;> simp [State.sxtOp, h]

/-- Whatever the operation, tables and their counts alone change. -/
theorem tableStep_sxtOp (s : State) (op t i : Nat) (d : List Word) (noSpace : Bool) :
    TableStep s (s.sxtOp op t i d noSpace).2.2.2 := by
  unfold State.sxtOp
  extract_lets sub size isLpm famOk isDirect key
  split
  · split
    · exact .refl s
    · split
      · exact tableStep_emInsert s _ _ _ _
      · split
        · exact tableStep_emDelete s _ _
        · split <;> exact .refl s
  · split
    · split
      · exact .refl s
      · split
        · exact tableStep_lpmAdd s _ _ _
        · split
          · exact tableStep_lpmDel s _ _
          · split <;> exact .refl s
    · split
      · split
        · exact .refl s
        · split
          · exact .refl s
          · split
            · exact tableStep_setDirect s _ _ _
            · exact .refl s
      · exact .refl s

/-- EM_READ changes nothing. -/
theorem sxtOp_read_state (s : State) (t i : Nat) (d : List Word) (noSpace : Bool) : (s.sxtOp 3 t i d noSpace).2.2.2 = s ∧
    (s.sxtOp 3 t i d noSpace).2.1 = 0 := by
  by_cases h : s.sxtSub t = some 0
  · cases hfind : s.emFind t (imgNum d 2 5) with
    | none =>
      rw [sxtOp_read_absent h hfind]
      exact ⟨rfl, rfl⟩
    | some x =>
      rw [sxtOp_read_found h hfind]
      exact ⟨rfl, rfl⟩
  · rw [sxtOp_em_other (by decide) h]
    exact ⟨rfl, rfl⟩

end Sys2Proof.Machine
end

section
/-!
PROOFS. The answer of a register command (R204, R222, R228).
-/
open Sys2Proof.Safety
namespace Sys2Proof.Machine

/-! #### What the answer of a command changes -/

theorem fixRecord_frame (s : State) (at' block rec kind : Nat) :
    (s.fixRecord at' block rec kind).sxt = s.sxt ∧ (s.fixRecord at' block rec kind).dev = s.dev ∧
      (s.fixRecord at' block rec kind).regs = s.regs := by
  unfold State.fixRecord State.toHost
  split
  · split <;> exact ⟨rfl, rfl, rfl⟩
  · exact ⟨rfl, rfl, rfl⟩

theorem repairDone_frame (s : State) (r : Nat × Nat × Nat × Nat) (result : Nat) :
    (s.repairDone r result).sxt = s.sxt ∧ (s.repairDone r result).dev = s.dev ∧
      RegsBut [Reg.sxtFixOpPartial 3] s (s.repairDone r result) := by
  unfold State.repairDone
  dsimp only
  generalize (if (result == 0) = true then r.2.2.1 + 2 else r.2.2.1) = kind
  obtain ⟨hsxt, hdev, hregs⟩ := fixRecord_frame s r.2.2.2 r.1 r.2.1 kind
  split
  · refine ⟨hsxt, hdev, fun a ha => ?_⟩
    rw [State.rd_wrNat, if_neg (by simpa using ha)]
    exact State.rd_of_regs hregs a
  · exact ⟨hsxt, hdev, fun a _ => State.rd_of_regs hregs a⟩

theorem cmdData_eq (s : State) : s.cmdData = (List.range 8).map fun i => s.rd (Reg.sxtCmdData i) := rfl

/-- SXT_CMD_DATA reads back what was written over it. -/
theorem cmdData_wrWords (s : State) {d : List Word} (hd : d.length = 8) : (s.wrWords (Reg.sxtCmdData 0) d).cmdData = d := by
  rw [cmdData_eq]
  refine List.ext_getElem (by rw [List.length_map, List.length_range, hd]) fun i hi hi' => ?_
  rw [List.getElem_map, List.getElem_range]
  exact (rd_wrWords_self s (Reg.sxtCmdData 0) d hi').trans (List.getD_eq_getElem _ _ hi')

/-- The registers of the answer. -/
def answerRegs : List Nat := [Reg.sxtCmdStatus, Reg.sxtFixOpPartial 3] ++ (List.range 8).map Reg.sxtCmdData

theorem answerRegs_subset : answerRegs ⊆ cmdRegs := by
  decide

/-- A register command that leaves the tables as in `u` has been answered. -/
structure CommandRun (own : Bool) (r n : Nat) (d : List Word) (s u t : State) : Prop where
  answered : Answered own r n s t
  data : own = true → t.cmdData = d
  sxt : ∃ winq winAhead turn, t.sxt = { u.sxt with winq := winq, winAhead := winAhead, turn := turn }
  regs : RegsBut answerRegs u t
  dev : t.dev = u.dev

theorem seqDone_frame (s : State) (src : Nat) : ∃ turn, s.seqDone src = { s with sxt.turn := turn } := ⟨_, rfl⟩

/-- The command of SXT_CMD is answered in its registers. -/
theorem commandRun_own {s u : State} {r n v : Nat} {d : List Word} (hlen : d.length = 8)
    (hv : v = 2 ^ 30 + r * 2 ^ 24 + n % 128) :
    CommandRun true r n d s u (((u.wrWords (Reg.sxtCmdData 0) d).wrNat Reg.sxtCmdStatus v).seqDone 0) := by
  obtain ⟨turn, hdone⟩ := seqDone_frame ((u.wrWords (Reg.sxtCmdData 0) d).wrNat Reg.sxtCmdStatus v) 0
  have hrd : ∀ a, (((u.wrWords (Reg.sxtCmdData 0) d).wrNat Reg.sxtCmdStatus v).seqDone 0).rd a =
      if a = Reg.sxtCmdStatus then BitVec.ofNat 32 v else (u.wrWords (Reg.sxtCmdData 0) d).rd a := fun a => by
    rw [hdone]
    exact State.rd_wrNat _ Reg.sxtCmdStatus v a
  obtain ⟨regs, hwr⟩ := wrWords_frame u (Reg.sxtCmdData 0) d
  refine ⟨?_, fun _ => ?_, ⟨u.sxt.winq, u.sxt.winAhead, turn, ?_⟩, fun a ha => ?_, ?_⟩
  · rw [Answered, if_pos rfl, hrd, if_pos rfl, hv]
  · rw [cmdData_eq]
    refine (List.map_congr_left fun i hi => ?_).trans (cmdData_wrWords u hlen)
    rw [hrd, if_neg ?_]
    have := List.mem_range.mp hi
    simp only [Reg.sxtCmdData, Reg.sxtCmdStatus]
    omega
  · rw [hdone, hwr]
    rfl
  · simp only [answerRegs, List.mem_append, List.mem_cons, List.mem_map, List.mem_range, not_or, List.not_mem_nil, not_exists,
      not_and, or_false] at ha
    obtain ⟨⟨hstatus, _⟩, hdata⟩ := ha
    rw [hrd, if_neg hstatus, rd_wrWords_ne]
    intro i hi h
    exact hdata i (hlen ▸ hi) h.symm
  · rw [hdone, hwr]
    rfl

/-- A command of the window or of a repair leaves its queue. -/
theorem commandRun_queued {s u : State} {c : RegCmd} {r n : Nat} {d : List Word} (hq : u.sxt.winq = s.sxt.winq)
    (ha : u.sxt.winAhead = s.sxt.winAhead) :
    CommandRun false r n d s u
      ((match c.repair with
        | some x => ({ u with sxt.winq := u.sxt.winq.drop 1, sxt.winAhead := u.sxt.winAhead - 1 } : State).repairDone x r
        | none => ({ u with sxt.winq := u.sxt.winq.drop 1, sxt.winAhead := u.sxt.winAhead - 1 } : State)).seqDone 0) := by
  have hqueued : ∀ v : State,
      v.sxt = { u.sxt with winq := u.sxt.winq.drop 1, winAhead := u.sxt.winAhead - 1 } → v.dev = u.dev →
      RegsBut [Reg.sxtFixOpPartial 3] u v → CommandRun false r n d s u (v.seqDone 0) := by
    intro v hsxt hdev hregs
    obtain ⟨turn, hdone⟩ := seqDone_frame v 0
    rw [hdone]
    refine ⟨?_, fun h => (nomatch h), ⟨_, _, turn, by rw [hsxt]⟩, fun a hm => ?_, hdev⟩
    · rw [Answered, if_neg Bool.false_ne_true, hsxt, ← hq, ← ha]
      exact ⟨rfl, rfl⟩
    · refine hregs a fun h => hm ?_
      rw [List.mem_singleton.mp h]
      decide
  cases c.repair with
  | none => exact hqueued _ rfl rfl fun a _ => rfl
  | some x =>
    obtain ⟨hsxt, hdev, hregs⟩ := repairDone_frame
      ({ u with sxt.winq := u.sxt.winq.drop 1, sxt.winAhead := u.sxt.winAhead - 1 } : State) x r
    exact hqueued _ hsxt hdev hregs

theorem TableStep.kept {s t : State} (h : TableStep s t) :
    t.sxt.winq = s.sxt.winq ∧ t.sxt.winAhead = s.sxt.winAhead ∧ t.sxt.turn = s.sxt.turn ∧ t.sxt.dump = s.sxt.dump := by
  obtain ⟨_, _, _, _, _, hsxt⟩ := h.sxt
  rw [hsxt]
  exact ⟨rfl, rfl, rfl, rfl⟩

/-- The command that is taken runs, and is answered. -/
theorem takeCommand_run {own : Bool} {c : RegCmd} {s u : State} {op r n : Nat} {d : List Word} {noSpace : Bool}
    (htakes : Takes own c s) (hop : c.op = op) (hrun : s.sxtOp op c.table c.index c.data noSpace = (r, n, d, u))
    (hlen : own = true → d.length = 8) : CommandRun own r n d s u (s.takeCommand op noSpace) := by
  obtain ⟨hhead, hwaits, hturn⟩ := htakes
  have hstep := tableStep_sxtOp s op c.table c.index c.data noSpace
  rw [hrun] at hstep
  obtain ⟨hqueue, hahead, _, _⟩ := hstep.kept
  unfold State.takeCommand
  rw [hhead]
  dsimp only
  rw [if_neg (by subst hop; simp [hwaits, hturn]), hrun]
  cases own with
  | true => exact commandRun_own (hlen rfl) rfl
  | false => exact commandRun_queued (c := c) hqueue hahead

/-- A command that is not next, or waits, changes nothing. -/
theorem takeCommand_of_notTaken {s : State} {op : Nat} (h : NotTaken op s) (noSpace : Bool) : s.takeCommand op noSpace = s := by
  unfold State.takeCommand
  unfold NotTaken at h
  cases hhead : s.regHead with
  | none => rfl
  | some q =>
    obtain ⟨own, c⟩ := q
    rw [hhead, Option.all_some] at h
    dsimp only at h ⊢
    rw [if_pos]
    simpa [or_assoc] using h

/-- SXT_CMD has eight words of data. -/
theorem length_data {c : RegCmd} {s : State} (h : Takes true c s) : c.data.length = 8 := by
  obtain ⟨hhead, _, _⟩ := h
  unfold State.regHead at hhead
  split at hhead
  · injection hhead with hhead
    injection hhead with _ hc
    subst hc
    unfold State.cmdData
    rw [List.length_map, List.length_range]
  · cases hq : s.sxt.winq.head? with
    | none =>
      rw [hq] at hhead
      nomatch hhead
    | some x =>
      rw [hq] at hhead
      injection hhead with hhead
      injection hhead with ho _
      nomatch ho

theorem runs_command {i : Instr} {own : Bool} {c : RegCmd} {s u : State} {op r n : Nat} {d : List Word} {noSpace : Bool}
    {P : State → Prop} (hexec : exec i s = .next (s.takeCommand op noSpace)) (htakes : Takes own c s) (hop : c.op = op)
    (hrun : s.sxtOp op c.table c.index c.data noSpace = (r, n, d, u)) (hlen : own = true → d.length = 8)
    (hP : ∀ t, CommandRun own r n d s u t → P t) : Runs i s P :=
  Runs.intro hexec (hP _ (takeCommand_run htakes hop hrun hlen))

section
variable {own : Bool} {r n : Nat} {d : List Word} {s u t : State}

theorem CommandRun.regsBut (h : CommandRun own r n d s u t) (hregs : RegsBut [Reg.chkInj] s u) : RegsBut cmdRegs s t := by
  intro a ha
  rw [h.regs a fun hm => ha (answerRegs_subset hm)]
  refine hregs a fun hm => ha ?_
  rw [List.mem_singleton.mp hm]
  decide

theorem CommandRun.sameTables (h : CommandRun own r n d s u t) (hsxt : u.sxt = s.sxt) : SameTables s t := by
  obtain ⟨_, _, _, ht⟩ := h.sxt
  rw [SameTables, ht, hsxt]

theorem CommandRun.slotAt (h : CommandRun own r n d s u t) (lp : Bool) (i : Nat) : t.slotAt lp i = u.slotAt lp i := by
  obtain ⟨_, _, _, ht⟩ := h.sxt
  unfold State.slotAt State.slotMap
  rw [ht]

theorem CommandRun.rd (h : CommandRun own r n d s u t) {a : Nat} (ha : a ∉ answerRegs) : t.rd a = u.rd a := h.regs a ha

theorem CommandRun.raised (h : CommandRun own r n d s u t) {leaf : Nat} (hleaf : leaf < 2048) (hr : Raised leaf u) :
    Raised leaf t := by
  refine raised_of_rd hleaf hr fun k _ => h.regs _ fun hm => ?_
  simp only [answerRegs, List.mem_append, List.mem_cons, List.mem_map, List.mem_range, List.not_mem_nil, or_false] at hm
  rcases hm with (hm | hm) | ⟨i, hi, hm⟩
  all_goals
    simp only [Reg.evtStatus, Reg.sxtCmdStatus, Reg.sxtFixOpPartial, Reg.sxtCmdData] at hm
    omega

end

theorem emAt_eq (s : State) : s.emAt = s.slotAt false := rfl

/-- A command whose operation leaves the state as it is. -/
theorem runs_unchanged {i : Instr} {own : Bool} {c : RegCmd} {s : State} {op r : Nat} {d : List Word} {noSpace : Bool}
    (hexec : exec i s = .next (s.takeCommand op noSpace)) (htakes : Takes own c s) (hop : c.op = op)
    (hrun : s.sxtOp op c.table c.index c.data noSpace = (r, 0, d, s)) (hlen : own = true → d.length = 8) :
    Runs i s fun t => Answered own r 0 s t ∧ (own = true → t.cmdData = d) ∧ SameTables s t ∧ RegsBut cmdRegs s t :=
  runs_command hexec htakes hop hrun hlen fun _ h => ⟨h.answered, h.data, h.sameTables rfl, h.regsBut fun _ _ => rfl⟩

/-- A command that is answered with its data unchanged and leaves the state as it is. -/
theorem runs_answered {i : Instr} {own : Bool} {c : RegCmd} {s : State} {op r : Nat} {noSpace : Bool}
    (hexec : exec i s = .next (s.takeCommand op noSpace)) (htakes : Takes own c s) (hop : c.op = op)
    (hrun : s.sxtOp op c.table c.index c.data noSpace = (r, 0, c.data, s)) :
    Runs i s fun t => Answered own r 0 s t ∧ SameTables s t ∧ RegsBut cmdRegs s t :=
  runs_command hexec htakes hop hrun (fun h => length_data (h ▸ htakes)) fun _ h =>
    ⟨h.answered, h.sameTables rfl, h.regsBut fun _ _ => rfl⟩

/-! #### Exact-match commands -/

section
variable {own : Bool} {c : RegCmd} {s : State}

/-- Operations that change one slot. -/
theorem runs_setEm {i : Instr} {op j r : Nat} {e : Option EmEntry}
    (hexec : exec i s = .next (s.takeCommand op false)) (htakes : Takes own c s) (hop : c.op = op)
    (hrun : s.sxtOp op c.table c.index c.data false = (r, 0, c.data, s.setEm j e)) :
    Runs i s fun t => Answered own r 0 s t ∧ t.emAt j = e ∧ SameBut State.emAt [j] s t ∧ RegsBut cmdRegs s t := by
  refine runs_command hexec htakes hop hrun (fun h => length_data (h ▸ htakes)) fun t h => ⟨h.answered, ?_, fun k hk => ?_,
    h.regsBut (setSlot_frame s false j e).2.2⟩
  · rw [emAt_eq, h.slotAt]
    exact slotAt_setSlot_self s false j e
  · rw [emAt_eq, emAt_eq, h.slotAt]
    exact sameBut_setSlot s false j e k hk

/-- An insert that finds no place is answered with RESULT 2. -/
theorem runs_failed {i : Instr} {op : Nat} {lp noSpace : Bool} (hexec : exec i s = .next (s.takeCommand op noSpace))
    (htakes : Takes own c s) (hop : c.op = op)
    (hrun : s.sxtOp op c.table c.index c.data noSpace = (2, 0, c.data, s.insertFailed lp)) :
    Runs i s fun t => Answered own 2 0 s t ∧ t.bit (hashStatus lp) 31 = true ∧ Raised (leafOf 14 0) t ∧ SameTables s t := by
  refine runs_command hexec htakes hop hrun (fun h => length_data (h ▸ htakes)) fun t h => ⟨h.answered, ?_,
    h.raised (by decide) (insertFailed_shown s lp).2, h.sameTables (insertFailed_frame s lp).1⟩
  rw [State.bit, h.rd (by cases lp <;> decide)]
  exact (insertFailed_shown s lp).1

end

end Sys2Proof.Machine
end

section
/-!
PROOFS. Exact-match, trie and direct commands (R206, R207, R209, R211, R214, R222, R228).
-/
open Sys2Proof.Safety
namespace Sys2Proof.Machine

section
variable {own : Bool} {c : RegCmd} {s : State}

/-! #### Exact-match commands -/

theorem runs_emInsert_found {j : Nat} {e : EmEntry} (htakes : Takes own c s) (hsub : s.sxtSub c.table = some 0)
    (hfind : s.emFind c.table (imgNum c.data 2 5) = some (j, e)) (hop : c.op = 1)
    (hroom : bit (imgWord c.data 7) 30 = true ∨ e.static = false ∨ s.dynCount < 1048576) :
    Runs .emInsert s fun t => Answered own 0 0 s t ∧
      t.emAt j = some { e with
        result := BitVec.ofNat 64 (imgNum c.data 0 2), static := bit (imgWord c.data 7) 30, frozen := false, age := 0, moves := 0 } ∧
      SameBut State.emAt [j] s t ∧ RegsBut cmdRegs s t :=
  runs_setEm rfl htakes hop (by rw [sxtOp_insert hsub, emInsert_of_found hfind _ hroom])

theorem runs_emDelete_found {j : Nat} {e : EmEntry} (htakes : Takes own c s) (hsub : s.sxtSub c.table = some 0)
    (hfind : s.emFind c.table (imgNum c.data 2 5) = some (j, e)) (hop : c.op = 2) :
    Runs .emDelete s fun t => Answered own 0 0 s t ∧ t.emAt j = none ∧ SameBut State.emAt [j] s t ∧ RegsBut cmdRegs s t :=
  runs_setEm rfl htakes hop (by rw [sxtOp_delete hsub, emDelete_of_found hfind])

theorem runs_emInsert_free {j : Nat} (htakes : Takes own c s) (hsub : s.sxtSub c.table = some 0)
    (hfind : s.emFind c.table (imgNum c.data 2 5) = none) (hop : c.op = 1)
    (hroom : bit (imgWord c.data 7) 30 = true ∨ s.dynCount < 1048576)
    (hfree : (s.cands false (s.dual false) c.table (imgNum c.data 2 5)).find? (fun j => (s.emAt j).isNone) = some j) :
    Runs .emInsert s fun t => Answered own 0 0 s t ∧
      t.emAt j = some
        { table := c.table, key := imgNum c.data 2 5, result := BitVec.ofNat 64 (imgNum c.data 0 2),
          static := bit (imgWord c.data 7) 30, fresh := s.dual false } ∧
      SameBut State.emAt [j] s t ∧ RegsBut cmdRegs s t := by
  have hplace := hashPlace_of_free (s := s) (lp := false)
    (e := { table := c.table, key := imgNum c.data 2 5, result := BitVec.ofNat 64 (imgNum c.data 0 2),
            static := bit (imgWord c.data 7) 30 }) hfree
  exact runs_setEm rfl htakes hop (by
    rw [sxtOp_insert hsub, emInsert_of_placed (n := 0) hfind hroom (congrArg Prod.fst hplace), State.emPlace, hplace]
    rfl)

theorem runs_emInsert_placed {n : Nat} {e : EmEntry} (htakes : Takes own c s) (hsub : s.sxtSub c.table = some 0)
    (hfind : s.emFind c.table (imgNum c.data 2 5) = none)
    (he : e = { table := c.table, key := imgNum c.data 2 5, result := BitVec.ofNat 64 (imgNum c.data 0 2),
                static := bit (imgWord c.data 7) 30 })
    (hop : c.op = 1) (hroom : e.static = true ∨ s.dynCount < 1048576) (hplace : (s.emPlace e).1 = some n) :
    Runs .emInsert s fun t => Answered own 0 n s t ∧ t.rd Reg.sxtRelocs = satAdd (s.rd Reg.sxtRelocs) n ∧
      ∃ j ∈ s.cands false (s.dual false) c.table (imgNum c.data 2 5), t.emAt j = some { e with fresh := s.dual false } := by
  subst he
  obtain ⟨⟨j, hj, hslot⟩, hrelocs⟩ := hashPlace_some hplace
  refine runs_command rfl htakes hop (by rw [sxtOp_insert hsub, emInsert_of_placed hfind hroom hplace])
    (fun h => length_data (h ▸ htakes)) fun t h => ⟨h.answered, ?_, j, hj, ?_⟩
  · rw [h.rd (by decide)]
    exact hrelocs
  · rw [emAt_eq, h.slotAt]
    exact hslot

theorem runs_emInsert_noPlace {e : EmEntry} (htakes : Takes own c s) (hsub : s.sxtSub c.table = some 0)
    (hfind : s.emFind c.table (imgNum c.data 2 5) = none)
    (he : e = { table := c.table, key := imgNum c.data 2 5, result := BitVec.ofNat 64 (imgNum c.data 0 2),
                static := bit (imgWord c.data 7) 30 })
    (hop : c.op = 1) (hroom : e.static = true ∨ s.dynCount < 1048576) (hplace : (s.emPlace e).1 = none) :
    Runs .emInsert s fun t =>
      Answered own 2 0 s t ∧ t.bit Reg.sxtEmStatus 31 = true ∧ Raised (leafOf 14 0) t ∧ SameTables s t := by
  subst he
  exact runs_failed (lp := false) rfl htakes hop (by rw [sxtOp_insert hsub, emInsert_of_no_place hfind hroom hplace])

theorem runs_emInsert_limit (htakes : Takes own c s) (hsub : s.sxtSub c.table = some 0)
    (hfind : s.emFind c.table (imgNum c.data 2 5) = none) (hop : c.op = 1) (hdyn : bit (imgWord c.data 7) 30 = false)
    (hlimit : 1048576 ≤ s.dynCount) :
    Runs .emInsert s fun t =>
      Answered own 2 0 s t ∧ SameTables s t ∧ t.rd Reg.sxtInsertFails = satAdd (s.rd Reg.sxtInsertFails) 1 := by
  refine runs_command (u := s.bump Reg.sxtInsertFails) rfl htakes hop (by rw [sxtOp_insert hsub, hdyn, emInsert_of_limit hfind _ hlimit])
    (fun h => length_data (h ▸ htakes)) fun t h => ⟨h.answered, h.sameTables rfl, ?_⟩
  rw [h.rd (by decide)]
  exact (s.rd_bump Reg.sxtInsertFails _).trans (if_pos rfl)

/-! #### Prefix commands -/

theorem hashFind_congr {s t : State} {lp : Bool} (hslot : ∀ i, t.slotAt lp i = s.slotAt lp i) (hregs : RegsBut cmdRegs s t)
    (hdev : t.dev = s.dev) (tb key : Nat) : t.hashFind lp tb key = s.hashFind lp tb key := by
  have hcands : ∀ next, t.cands lp next tb key = s.cands lp next tb key := fun next => by
    have hseed : t.rd (if next then hashSeedNext lp else hashSeed lp) = s.rd (if next then hashSeedNext lp else hashSeed lp) :=
      hregs _ (by cases next <;> cases lp <;> decide)
    unfold State.cands State.perWay
    rw [hseed, hdev]
  have hdual : t.dual lp = s.dual lp := congrArg (Machine.bit · 30) (hregs _ (by cases lp <;> decide))
  unfold State.hashFind State.findIn
  rw [hcands, hcands, hdual]
  simp only [hslot]

theorem lpmHashed_congr {s t : State} (hdev : t.dev = s.dev) (k : Nat) : t.lpmHashed k = s.lpmHashed k := by
  unfold State.lpmHashed
  rw [hdev]

/-- A key of a trie that is set or removed, and no other. -/
theorem lpmAt_after_setLpm {r n k : Nat} {d : List Word} {t : State} {v : Option (BitVec 22)} (hk : s.lpmHashed k = false)
    (h : CommandRun own r n d s (s.setLpm k v) t) : t.lpmAt k = v ∧ SameBut State.lpmAt [k] s t := by
  obtain ⟨hsxt, hdev, hregs⟩ := setLpm_frame s k v
  obtain ⟨_, _, _, ht⟩ := h.sxt
  have hdev' : t.dev = s.dev := h.dev.trans hdev
  have hlpm : t.sxt.lpm = s.sxt.lpm.set (fun _ => none) k v := by
    rw [ht, hsxt]
  have hslot : ∀ i, t.slotAt true i = s.slotAt true i := fun i => by
    unfold State.slotAt State.slotMap
    rw [ht, hsxt]
  refine ⟨?_, fun j hj => ?_⟩
  · rw [lpmAt_of_trie ((lpmHashed_congr hdev' k).trans hk), hlpm, SMap.get_set_self]
  · cases hh : s.lpmHashed j with
    | true =>
      rw [lpmAt_of_hashed hh, lpmAt_of_hashed ((lpmHashed_congr hdev' j).trans hh),
        hashFind_congr hslot (h.regsBut hregs) hdev']
    | false =>
      rw [lpmAt_of_trie hh, lpmAt_of_trie ((lpmHashed_congr hdev' j).trans hh), hlpm,
        SMap.get_set_other _ _ _ _ _ (by simpa using hj)]

theorem runs_setLpm {i : Instr} {op k : Nat} {v : Option (BitVec 22)} {noSpace : Bool}
    (hexec : exec i s = .next (s.takeCommand op noSpace)) (htakes : Takes own c s) (hop : c.op = op)
    (hk : s.lpmHashed k = false) (hrun : s.sxtOp op c.table c.index c.data noSpace = (0, 0, c.data, s.setLpm k v)) :
    Runs i s fun t => Answered own 0 0 s t ∧ t.lpmAt k = v ∧ SameBut State.lpmAt [k] s t ∧ RegsBut cmdRegs s t :=
  runs_command hexec htakes hop hrun (fun h => length_data (h ▸ htakes)) fun _ h =>
    ⟨h.answered, (lpmAt_after_setLpm hk h).1, (lpmAt_after_setLpm hk h).2, h.regsBut (setLpm_frame s k v).2.2⟩

section
variable {noSpace : Bool} (htakes : Takes own c s) (hsub : s.sxtSub c.table = some (1 + fld (imgWord c.data 4) 31 31))
include htakes hsub

theorem runs_lpmAdd_trie (hk : s.lpmHashed (dataPrefix c.data) = false) (hop : c.op = 4) {r : BitVec 22}
    (hr : r = BitVec.ofNat 22 (imgWord c.data 5).toNat) (hspace : s.dev.body.carve.full = false ∨ noSpace = false)
    (hfits : (s.lpmAt (dataPrefix c.data)).isSome = true ∨
      (s.setLpm (dataPrefix c.data) (some r)).lpmFits (fld (imgWord c.data 4) 31 31) = true) :
    Runs (.lpmAdd noSpace) s fun t => Answered own 0 0 s t ∧ t.lpmAt (dataPrefix c.data) = some r ∧
      SameBut State.lpmAt [dataPrefix c.data] s t ∧ RegsBut cmdRegs s t := by
  subst hr
  have hput := lpmPut_of_trie hk (BitVec.ofNat 22 (imgWord c.data 5).toNat)
  refine runs_setLpm rfl htakes hop hk ?_
  rw [sxtOp_add hsub, lpmAdd_of_fits hspace (by rwa [hput, lpmRoot_dataPrefix]) (congrArg Prod.fst hput), hput]

theorem runs_lpmAdd_noSpace (hk : s.lpmHashed (dataPrefix c.data) = false) (hop : c.op = 4) {r : BitVec 22}
    (hr : r = BitVec.ofNat 22 (imgWord c.data 5).toNat) (hfull : s.dev.body.carve.full = true)
    (hspace : noSpace = true ∨ (s.lpmAt (dataPrefix c.data) = none ∧
      (s.setLpm (dataPrefix c.data) (some r)).lpmFits (fld (imgWord c.data 4) 31 31) = false)) :
    Runs (.lpmAdd noSpace) s fun t => Answered own 3 0 s t ∧ SameTables s t ∧ RegsBut cmdRegs s t := by
  subst hr
  have hput := lpmPut_of_trie hk (BitVec.ofNat 22 (imgWord c.data 5).toNat)
  exact runs_answered rfl htakes hop (by
    rw [sxtOp_add hsub, lpmAdd_of_no_space hfull (by rwa [hput, lpmRoot_dataPrefix])])

theorem runs_lpmAdd_beyond (hcompact : s.dev.body.carve.full = false) (hop : c.op = 4) {r : BitVec 22}
    (hr : r = BitVec.ofNat 22 (imgWord c.data 5).toNat) (habsent : s.lpmAt (dataPrefix c.data) = none)
    (hplace : (s.lpmPut (dataPrefix c.data) r).1 = none ∨
      (s.lpmPut (dataPrefix c.data) r).2.lpmFits (fld (imgWord c.data 4) 31 31) = false) :
    Runs (.lpmAdd noSpace) s fun t =>
      Answered own 2 0 s t ∧ t.bit Reg.sxtLpmStatus 31 = true ∧ Raised (leafOf 14 0) t ∧ SameTables s t := by
  subst hr
  exact runs_failed (lp := true) rfl htakes hop (by
    rw [sxtOp_add hsub, lpmAdd_of_beyond hcompact habsent (by rwa [lpmRoot_dataPrefix])])

theorem runs_lpmDel_trie (hk : s.lpmHashed (dataPrefix c.data) = false) (hop : c.op = 5)
    (hsome : (s.lpmAt (dataPrefix c.data)).isSome = true) (hspace : s.dev.body.carve.full = false ∨ noSpace = false) :
    Runs (.lpmDel noSpace) s fun t => Answered own 0 0 s t ∧ t.lpmAt (dataPrefix c.data) = none ∧
      SameBut State.lpmAt [dataPrefix c.data] s t ∧ RegsBut cmdRegs s t :=
  runs_setLpm rfl htakes hop hk (by rw [sxtOp_del hsub, lpmDel_of_present hsome hspace, lpmDrop_of_trie hk])

theorem runs_lpmDel_noSpace (hop : c.op = 5) (hsome : (s.lpmAt (dataPrefix c.data)).isSome = true)
    (hfull : s.dev.body.carve.full = true) (hspace : noSpace = true) :
    Runs (.lpmDel noSpace) s fun t => Answered own 3 0 s t ∧ SameTables s t ∧ RegsBut cmdRegs s t := by
  subst hspace
  exact runs_answered rfl htakes hop (by rw [sxtOp_del hsub, lpmDel_of_no_space hsome hfull])

theorem runs_lpmDel_absent (hop : c.op = 5) (hnone : s.lpmAt (dataPrefix c.data) = none) :
    Runs (.lpmDel noSpace) s fun t => Answered own 1 0 s t ∧ SameTables s t ∧ RegsBut cmdRegs s t :=
  runs_answered rfl htakes hop (by rw [sxtOp_del hsub, lpmDel_of_absent hnone])

theorem runs_lpmRead_found (hop : c.op = 6) (hsome : (s.lpmAt (dataPrefix c.data)).isSome = true) :
    Runs .lpmRead s fun t => Answered own 0 0 s t ∧
      (own = true → t.cmdData = lpmWords (dataPrefix c.data) ((s.lpmAt (dataPrefix c.data)).getD 0)) ∧ SameTables s t ∧
      RegsBut cmdRegs s t := by
  obtain ⟨r, hr⟩ := Option.isSome_iff_exists.mp hsome
  rw [hr, Option.getD_some]
  refine runs_unchanged rfl htakes hop (sxtOp_lookup_found hsub hr _ _) fun _ => ?_
  unfold lpmWords
  rw [List.length_append, length_toWords]
  rfl

theorem runs_lpmRead_absent (hop : c.op = 6) (hnone : s.lpmAt (dataPrefix c.data) = none) :
    Runs .lpmRead s fun t => Answered own 1 0 s t ∧ SameTables s t ∧ RegsBut cmdRegs s t :=
  runs_answered rfl htakes hop (sxtOp_lookup_absent hsub hnone _ _)

end

end

/-! #### Prefixes of the Compact length tables (R209, R211) -/

theorem compact_of_hashed {s : State} {k : Nat} (hk : s.lpmHashed k = true) : s.dev.body.carve.full = false := by
  unfold State.lpmHashed at hk
  simp only [Bool.and_eq_true, Bool.not_eq_true'] at hk
  exact hk.1

theorem FiltersOnly.refl (s : State) : FiltersOnly s s := rfl

theorem FiltersOnly.rd {s t : State} (h : FiltersOnly s t) (a : Nat) : t.rd a = s.rd a := by
  unfold FiltersOnly at h
  rw [h]
  rfl

theorem FiltersOnly.slotAt {s t : State} (h : FiltersOnly s t) (lp : Bool) (i : Nat) : t.slotAt lp i = s.slotAt lp i := by
  unfold FiltersOnly at h
  rw [h]
  rfl

theorem filterCount_setSlot (s : State) (i : Nat) (e : Option EmEntry) (b : Nat) :
    (s.setSlot true i e).filterCount b = s.filterCount b := by
  unfold State.filterCount
  rw [(setSlot_frame s true i e).1]

theorem filterKeys_setSlot (s : State) (i : Nat) (e : Option EmEntry) (t key : Nat) :
    (s.setSlot true i e).filterKeys t key = s.filterKeys t key := by
  unfold State.filterKeys
  rw [(setSlot_frame s true i e).2.1]

section
variable {own noSpace : Bool} {c : RegCmd} {s : State}

/-- An entry of a length table that changes, with or without its filter counts. -/
theorem runs_setSlot {i : Instr} {op j r : Nat} {e : Option EmEntry} {u : State}
    (hexec : exec i s = .next (s.takeCommand op noSpace)) (htakes : Takes own c s) (hop : c.op = op)
    (hrun : s.sxtOp op c.table c.index c.data noSpace = (r, 0, c.data, u)) (hu : FiltersOnly (s.setSlot true j e) u) :
    Runs i s fun t => Answered own r 0 s t ∧ t.slotAt true j = e ∧ SameBut (fun v => v.slotAt true) [j] s t ∧
      t.sxt.filters = u.sxt.filters ∧ RegsBut cmdRegs s t := by
  refine runs_command hexec htakes hop hrun (fun h => length_data (h ▸ htakes)) fun t h => ⟨h.answered, ?_, fun k hk => ?_, ?_,
    h.regsBut fun a ha => (hu.rd a).trans ((setSlot_frame s true j e).2.2 a ha)⟩
  · rw [h.slotAt, hu.slotAt]
    exact slotAt_setSlot_self s true j e
  · dsimp only
    rw [h.slotAt, hu.slotAt]
    exact sameBut_setSlot s true j e k hk
  · obtain ⟨_, _, _, ht⟩ := h.sxt
    rw [ht]

variable (htakes : Takes own c s) (hsub : s.sxtSub c.table = some (1 + fld (imgWord c.data 4) 31 31))
  (hk : s.lpmHashed (dataPrefix c.data) = true)
include htakes hsub hk

theorem runs_lpmAdd_replaced {j : Nat} {e : EmEntry} {r : BitVec 22} (hr : r = BitVec.ofNat 22 (imgWord c.data 5).toNat)
    (hfind : s.hashFind true (lpmTab (dataPrefix c.data)) (lpmHash (dataPrefix c.data)) = some (j, e)) (hop : c.op = 4) :
    Runs (.lpmAdd noSpace) s fun t => Answered own 0 0 s t ∧ t.slotAt true j = some { e with result := r.setWidth 64 } ∧
      SameBut (fun u => u.slotAt true) [j] s t ∧ t.sxt.filters = s.sxt.filters ∧ RegsBut cmdRegs s t := by
  subst hr
  have hput := lpmPut_of_found hk hfind (BitVec.ofNat 22 (imgWord c.data 5).toNat)
  have hsome : (s.lpmAt (dataPrefix c.data)).isSome = true := by
    rw [lpmAt_of_hashed hk, hfind]
    rfl
  obtain ⟨t, hrun, ha, hslot, hsame, hfilters, hregs⟩ := runs_setSlot (i := .lpmAdd noSpace) (noSpace := noSpace) rfl htakes hop
    (by rw [sxtOp_add hsub, lpmAdd_of_fits (.inl (compact_of_hashed hk)) (.inl hsome) (congrArg Prod.fst hput), hput]) (.refl _)
  rw [(setSlot_frame s true j _).1] at hfilters
  exact ⟨t, hrun, ha, hslot, hsame, hfilters, hregs⟩

theorem runs_lpmDel_removed {j : Nat} {e : EmEntry}
    (hfind : s.hashFind true (lpmTab (dataPrefix c.data)) (lpmHash (dataPrefix c.data)) = some (j, e)) (hop : c.op = 5) :
    Runs (.lpmDel noSpace) s fun t => Answered own 0 0 s t ∧ t.slotAt true j = none ∧
      SameBut (fun u => u.slotAt true) [j] s t ∧ RegsBut cmdRegs s t ∧
      ∀ b, s.filterCount b < 15 →
        t.filterCount b =
          s.filterCount b - (s.filterKeys (lpmTab (dataPrefix c.data)) (lpmHash (dataPrefix c.data))).count b := by
  have hsome : (s.lpmAt (dataPrefix c.data)).isSome = true := by
    rw [lpmAt_of_hashed hk, hfind]
    rfl
  obtain ⟨t, hrun, ha, hslot, hsame, hfilters, hregs⟩ := runs_setSlot (i := .lpmDel noSpace) (noSpace := noSpace) rfl htakes hop
    (by rw [sxtOp_del hsub, lpmDel_of_present hsome (.inl (compact_of_hashed hk)), lpmDrop_of_found hk hfind])
    (filterSub_only _ _ _)
  refine ⟨t, hrun, ha, hslot, hsame, hregs, fun b hb => ?_⟩
  rw [State.filterCount, hfilters, ← State.filterCount, filterCount_filterSub _ _ _ (by rwa [filterCount_setSlot]),
    filterCount_setSlot, filterKeys_setSlot]

theorem runs_lpmAdd_placed {j : Nat} {r : BitVec 22} (hr : r = BitVec.ofNat 22 (imgWord c.data 5).toNat)
    (hfind : s.hashFind true (lpmTab (dataPrefix c.data)) (lpmHash (dataPrefix c.data)) = none) (hop : c.op = 4)
    (hfree : (s.cands true (s.dual true) (lpmTab (dataPrefix c.data)) (lpmHash (dataPrefix c.data))).find?
      (fun j => (s.slotAt true j).isNone) = some j)
    (hfits : (s.lpmPut (dataPrefix c.data) r).2.lpmFits (fld (imgWord c.data 4) 31 31) = true) :
    Runs (.lpmAdd noSpace) s fun t => Answered own 0 0 s t ∧
      t.slotAt true j = some
        { table := lpmTab (dataPrefix c.data), key := lpmHash (dataPrefix c.data), result := r.setWidth 64, fresh := s.dual true } ∧
      SameBut (fun u => u.slotAt true) [j] s t ∧ RegsBut cmdRegs s t ∧
      ∀ b, s.filterCount b ≤ 15 →
        t.filterCount b =
          min 15 (s.filterCount b + (s.filterKeys (lpmTab (dataPrefix c.data)) (lpmHash (dataPrefix c.data))).count b) := by
  subst hr
  have hput := lpmPut_of_free hk hfind (BitVec.ofNat 22 (imgWord c.data 5).toNat) hfree
  obtain ⟨t, hrun, ha, hslot, hsame, hfilters, hregs⟩ := runs_setSlot (i := .lpmAdd noSpace) (noSpace := noSpace) rfl htakes hop
    (by rw [sxtOp_add hsub, lpmAdd_of_fits (.inl (compact_of_hashed hk)) (.inr (by rwa [lpmRoot_dataPrefix]))
      (congrArg Prod.fst hput), hput]) (filterAdd_only _ _ _)
  refine ⟨t, hrun, ha, hslot, hsame, hregs, fun b hb => ?_⟩
  rw [State.filterCount, hfilters, ← State.filterCount, filterCount_filterAdd _ _ _ (by rwa [filterCount_setSlot]),
    filterCount_setSlot, filterKeys_setSlot]

end

/-! #### Direct commands (R222) -/

section
variable {own : Bool} {c : RegCmd} {s : State} {x : TableShape}

theorem runs_writeCmd (htakes : Takes own c s) (hx : s.sxtTable c.table = some x) (hsub : 3 ≤ x.sub) (hop : c.op = 7)
    (hi : c.index < x.size) :
    Runs .writeCmd s fun t => Answered own 0 0 s t ∧
      t.directAt c.table c.index = BitVec.ofNat 64 (imgNum c.data 0 (subWords x.sub)) ∧ RegsBut cmdRegs s t ∧
      SameBut (fun u k => u.sxt.direct.get (fun _ => 0) k) [c.table * 2 ^ 20 + c.index] s t := by
  refine runs_command rfl htakes hop (sxtOp_write hx hsub hi _ _) (fun h => length_data (h ▸ htakes)) fun t h => ?_
  have hdirect : t.sxt.direct = s.sxt.direct.set (fun _ => 0) (c.table * 2 ^ 20 + c.index)
      (BitVec.ofNat 64 (imgNum c.data 0 (subWords x.sub))) := by
    obtain ⟨_, _, _, ht⟩ := h.sxt
    rw [ht, (setDirect_frame s _ _ _).1]
  refine ⟨h.answered, ?_, h.regsBut (setDirect_frame s _ _ _).2.2, fun k hk => ?_⟩
  · rw [State.directAt, hdirect, SMap.get_set_self]
  · dsimp only
    rw [hdirect, SMap.get_set_other _ _ _ _ _ (by simpa using hk)]

theorem runs_readCmd (htakes : Takes own c s) (hx : s.sxtTable c.table = some x) (hsub : 3 ≤ x.sub) (hop : c.op = 8)
    (hi : c.index < x.size) :
    Runs .readCmd s fun t => Answered own 0 0 s t ∧ (own = true → t.cmdData = toWords 8 (s.directAt c.table c.index).toNat) ∧
      SameTables s t ∧ RegsBut cmdRegs s t :=
  runs_unchanged rfl htakes hop (sxtOp_direct hx hsub hi _ _) fun _ => length_toWords _ _

end

end Sys2Proof.Machine
end

section
/-!
PROOFS. The bulk DMA ring and DUMP (R229).
-/
open Sys2Proof.Safety
namespace Sys2Proof.Machine

/-! #### A descriptor written back -/

/-- The ring runs: its size is one that enables it, and PCIe is up. -/
theorem dmaReady_size {s : State} (h : s.dmaReady = true) :
    dmaLog (s.rd Reg.sxtDmaSize) = some (s.rd Reg.sxtDmaSize).toNat ∧ (s.rd Reg.sxtDmaSize).toNat ≤ 16 ∧
      s.dev.perstLow = false := by
  unfold State.dmaReady State.dmaPosted at h
  simp only [Bool.and_eq_true, decide_eq_true_eq, Bool.not_eq_true'] at h
  obtain ⟨⟨hposted, _⟩, hup⟩ := h
  have hlog : dmaLog (s.rd Reg.sxtDmaSize) ≠ none := fun hnone => by
    rw [hnone] at hposted
    exact hposted rfl
  unfold dmaLog at hlog ⊢
  split at hlog
  · next hsize => exact ⟨if_pos hsize, hsize.2, hup⟩
  · exact absurd rfl hlog

/-- A descriptor as it is written back. -/
def ringDescriptor (w0 w1 w2 : Word) (d : List Word) : List Byte :=
  ([w0, w1, w2, 0] ++ (d ++ List.replicate 8 0).take 8 ++ [0, 0, 0, 0]).flatMap fun (w : Word) => leBytes 4 w.toNat

theorem dmaBack_ok {s : State} {k : Nat} (hlog : dmaLog (s.rd Reg.sxtDmaSize) = some k) (hup : s.dev.perstLow = false)
    (op t i r n : Nat) (d : List Word) :
    s.dmaBack op t i r n d true =
      (s.emit (.hostWrite (BitVec.ofNat 64 (s.rdWords Reg.sxtDmaBaseLo 2 + 64 * (s.rd Reg.sxtDmaHead).toNat))
        (ringDescriptor (BitVec.ofNat 32 (op % 256 + t % 256 * 2 ^ 8 + r * 2 ^ 16)) (BitVec.ofNat 32 i) (BitVec.ofNat 32 n) d))).wrNat
        Reg.sxtDmaHead (((s.rd Reg.sxtDmaHead).toNat + 1) % 2 ^ k) := by
  unfold State.dmaBack State.hostWords State.toHost
  rw [hlog]
  dsimp only
  rw [if_neg (by decide), hup, if_neg Bool.false_ne_true]
  rfl

theorem dmaBack_failed {s : State} {k : Nat} (hlog : dmaLog (s.rd Reg.sxtDmaSize) = some k) (op t i r n : Nat) (d : List Word) :
    s.dmaBack op t i r n d false = s.setBit Reg.sxtDmaStatus 31 true := by
  unfold State.dmaBack
  rw [hlog]
  rfl

/-- The registers of the ring. -/
def SameRing (s u : State) : Prop :=
  u.rd Reg.sxtDmaSize = s.rd Reg.sxtDmaSize ∧ u.rd Reg.sxtDmaHead = s.rd Reg.sxtDmaHead ∧
    u.rdWords Reg.sxtDmaBaseLo 2 = s.rdWords Reg.sxtDmaBaseLo 2 ∧ u.dev = s.dev

/-- In a ring that runs, the descriptor is written and HEAD moves on (R229). -/
theorem dmaBack_shown {s u : State} (hready : s.dmaReady = true) (hring : SameRing s u) (op t i r n : Nat) (d : List Word) :
    ((u.dmaBack op t i r n d true).rd Reg.sxtDmaHead).toNat =
        ((s.rd Reg.sxtDmaHead).toNat + 1) % 2 ^ (s.rd Reg.sxtDmaSize).toNat ∧
      (u.dmaBack op t i r n d true).out = u.out ++
        [.hostWrite (BitVec.ofNat 64 (s.rdWords Reg.sxtDmaBaseLo 2 + 64 * (s.rd Reg.sxtDmaHead).toNat))
          (ringDescriptor (BitVec.ofNat 32 (op % 256 + t % 256 * 2 ^ 8 + r * 2 ^ 16)) (BitVec.ofNat 32 i) (BitVec.ofNat 32 n) d)] ∧
      (u.dmaBack op t i r n d true).sxt = u.sxt ∧ RegsBut [Reg.sxtDmaHead] u (u.dmaBack op t i r n d true) := by
  obtain ⟨hsize, hhead, hbase, hdev⟩ := hring
  obtain ⟨hlog, hle, hup⟩ := dmaReady_size hready
  rw [dmaBack_ok (s := u) (hlog ▸ congrArg dmaLog hsize) (hdev ▸ hup), hhead, hbase]
  generalize ringDescriptor _ _ _ d = bytes
  generalize hk : (s.rd Reg.sxtDmaSize).toNat = k at hle
  generalize (s.rd Reg.sxtDmaHead).toNat = h
  refine ⟨?_, rfl, rfl, fun a ha => ?_⟩
  · rw [State.rd_wrNat, if_pos rfl, BitVec.toNat_ofNat]
    have hlt : (h + 1) % 2 ^ k < 2 ^ k := Nat.mod_lt _ (Nat.two_pow_pos _)
    have hpow : 2 ^ k ≤ 2 ^ 16 := Nat.pow_le_pow_right (by decide) hle
    exact Nat.mod_eq_of_lt (hlt.trans_le (hpow.trans (b := 2 ^ 16) (by decide : 2 ^ 16 ≤ 2 ^ 32)))
  · rw [State.rd_wrNat, if_neg (by simpa using ha)]
    rfl

/-- A failed DMA write stops the ring (R229). -/
theorem dmaBack_stops {s u : State} (hready : s.dmaReady = true) (hsize : u.rd Reg.sxtDmaSize = s.rd Reg.sxtDmaSize)
    (op t i r n : Nat) (d : List Word) :
    u.dmaBack op t i r n d false = u.setBit Reg.sxtDmaStatus 31 true :=
  dmaBack_failed (hsize ▸ (dmaReady_size hready).1) op t i r n d

theorem bit_dmaStatus (s : State) : (s.setBit Reg.sxtDmaStatus 31 true).bit Reg.sxtDmaStatus 31 = true := by
  rw [State.bit, State.rd_setBit, if_pos rfl, Machine.bit_setBit_self _ (by decide)]

theorem regsBut_setBit (s : State) (a i : Nat) (b : Bool) : RegsBut [a] s (s.setBit a i b) := fun c hc => by
  rw [State.rd_setBit, if_neg (by simpa using hc)]

theorem dmaReady_of_stopped {s : State} (h : s.bit Reg.sxtDmaStatus 31 = true) : s.dmaReady = false := by
  unfold State.dmaReady
  rw [h]
  simp

theorem TableStep.sameRing {s u : State} (h : TableStep s u) : SameRing s u := by
  have hrd : ∀ a, Reg.sxtDmaBaseLo ≤ a → a ≤ Reg.sxtDmaStatus → u.rd a = s.rd a := fun a hlo hhi => by
    refine h.regs a ?_ ?_
    · unfold eventReg
      simp only [Reg.evtStatus, Reg.evtBufDrop, Reg.merEvtLost, Reg.sxtDmaBaseLo, Reg.sxtDmaStatus] at *
      omega
    · simp only [tableRegs, List.mem_cons, List.not_mem_nil, or_false, Reg.chkInj, Reg.sxtRelocs, Reg.sxtInsertFails,
        Reg.sxtEmStatus, Reg.sxtLpmStatus, Reg.sxtDmaBaseLo, Reg.sxtDmaStatus] at *
      omega
  refine ⟨hrd _ (by decide) (by decide), hrd _ (by decide) (by decide), State.rdWords_congr fun b hlo hhi => ?_, h.dev⟩
  simp only [Reg.sxtDmaBaseLo, Reg.sxtDmaStatus] at *
  exact hrd b hlo (by omega)

/-! #### BULK_DMA_DESCRIPTOR -/

section
variable {s : State}

theorem seqReady_dma : s.seqReady 1 = (s.dmaReady && s.sxt.dump.isNone) := rfl

theorem bulkTake_of_ready (hready : s.dmaReady = true) (hdump : s.sxt.dump = none) (hturn : s.seqTakes 1 = true) {op : Nat}
    {d : List Word} (hwaits : s.cmdWaits op d = false) (t i : Nat) (noSpace ok : Bool) :
    s.bulkTake op t i d noSpace ok =
      ((s.sxtOp op t i d noSpace).2.2.2.dmaBack op t i (s.sxtOp op t i d noSpace).1 (s.sxtOp op t i d noSpace).2.1
        (s.sxtOp op t i d noSpace).2.2.1 ok).seqDone 1 := by
  unfold State.bulkTake
  rw [if_neg (by rw [seqReady_dma]; simp [hready, hdump, hturn, hwaits])]

theorem bulkTake_of_waiting {op : Nat} {d : List Word}
    (h : s.dmaReady = false ∨ s.sxt.dump.isSome = true ∨ s.cmdWaits op d = true ∨ s.seqTakes 1 = false) (t i : Nat)
    (noSpace ok : Bool) : s.bulkTake op t i d noSpace ok = s := by
  unfold State.bulkTake
  rw [if_pos]
  rw [seqReady_dma]
  rcases h with h | h | h | h
  · simp [h]
  · rw [Option.isNone_eq_false_iff.mpr h]
    simp
  · simp [h]
  · simp [h]

theorem rd_seqDone (src a : Nat) : (s.seqDone src).rd a = s.rd a := rfl

theorem dmaReady_seqDone (src : Nat) : (s.seqDone src).dmaReady = s.dmaReady := rfl

/-- The Sextant after an operation and its turn. -/
theorem sxt_seqDone_turn {u : State} (hturn : u.sxt.turn = s.sxt.turn) (src : Nat) :
    { (u.seqDone src).sxt with turn := s.sxt.turn } = u.sxt := by
  rw [← hturn]
  rfl

/-- A descriptor is one operation, written back where the DMA is good (R229). -/
theorem bulkTake_good (hready : s.dmaReady = true) (hdump : s.sxt.dump = none) (hturn : s.seqTakes 1 = true) {op : Nat}
    {d : List Word} (hwaits : s.cmdWaits op d = false) (t i : Nat) (noSpace : Bool) :
    ((s.bulkTake op t i d noSpace true).rd Reg.sxtDmaHead).toNat =
        ((s.rd Reg.sxtDmaHead).toNat + 1) % 2 ^ (s.rd Reg.sxtDmaSize).toNat ∧
      { (s.bulkTake op t i d noSpace true).sxt with turn := s.sxt.turn } = (s.sxtOp op t i d noSpace).2.2.2.sxt ∧
      (s.bulkTake op t i d noSpace true).out = (s.sxtOp op t i d noSpace).2.2.2.out ++
        [.hostWrite (BitVec.ofNat 64 (s.rdWords Reg.sxtDmaBaseLo 2 + 64 * (s.rd Reg.sxtDmaHead).toNat))
          (ringDescriptor (BitVec.ofNat 32 (op % 256 + t % 256 * 2 ^ 8 + (s.sxtOp op t i d noSpace).1 * 2 ^ 16)) (BitVec.ofNat 32 i)
            (BitVec.ofNat 32 (s.sxtOp op t i d noSpace).2.1) (s.sxtOp op t i d noSpace).2.2.1)] := by
  have hstep := tableStep_sxtOp s op t i d noSpace
  rw [bulkTake_of_ready hready hdump hturn hwaits]
  generalize s.sxtOp op t i d noSpace = q at hstep
  obtain ⟨r, n, e, u⟩ := q
  dsimp only at hstep ⊢
  obtain ⟨hhead, hout, hsxt, _⟩ := dmaBack_shown hready hstep.sameRing op t i r n e
  have hkept : (u.dmaBack op t i r n e true).sxt.turn = s.sxt.turn := by
    rw [hsxt]
    exact hstep.kept.2.2.1
  exact ⟨hhead, (sxt_seqDone_turn hkept 1).trans hsxt, hout⟩

theorem bulkTake_bad (hready : s.dmaReady = true) (hdump : s.sxt.dump = none) (hturn : s.seqTakes 1 = true) {op : Nat}
    {d : List Word} (hwaits : s.cmdWaits op d = false) (t i : Nat) (noSpace : Bool) :
    (s.bulkTake op t i d noSpace false).bit Reg.sxtDmaStatus 31 = true ∧
      (s.bulkTake op t i d noSpace false).rd Reg.sxtDmaHead = s.rd Reg.sxtDmaHead ∧
      (s.bulkTake op t i d noSpace false).dmaReady = false ∧
      { (s.bulkTake op t i d noSpace false).sxt with turn := s.sxt.turn } = (s.sxtOp op t i d noSpace).2.2.2.sxt := by
  have hstep := tableStep_sxtOp s op t i d noSpace
  rw [bulkTake_of_ready hready hdump hturn hwaits]
  generalize s.sxtOp op t i d noSpace = q at hstep
  obtain ⟨r, n, e, u⟩ := q
  dsimp only at hstep ⊢
  rw [dmaBack_stops hready hstep.sameRing.1]
  refine ⟨bit_dmaStatus u, ?_, ?_, sxt_seqDone_turn (u := u.setBit Reg.sxtDmaStatus 31 true) hstep.kept.2.2.1 1⟩
  · rw [rd_seqDone, regsBut_setBit u _ _ _ _ (by decide)]
    exact hstep.sameRing.2.1
  · rw [dmaReady_seqDone]
    exact dmaReady_of_stopped (bit_dmaStatus u)

/-! #### DUMP -/

theorem dumpTake_of_run {x : DumpRun} (hready : s.dmaReady = true) (hdump : s.sxt.dump = some x) (t : Nat) (d : List Word)
    (ok : Bool) : s.dumpTake t d ok = s.dumpStep x d ok := by
  unfold State.dumpTake
  rw [hdump]
  dsimp only
  rw [if_pos hready]

/-- The descriptor at HEAD starts the run (R229). -/
theorem dumpTake_of_start (hready : s.dmaReady = true) (hdump : s.sxt.dump = none) (hturn : s.seqTakes 1 = true) {t : Nat}
    (htable : (s.sxtSub t).any (fun k => decide (k ≤ 2)) = true) (d : List Word) (ok : Bool) :
    s.dumpTake t d ok = s.dumpStep { table := t, left := (imgWord d 2).toNat, addr := imgNum d 0 2 } d ok := by
  unfold State.dumpTake
  rw [hdump]
  dsimp only
  rw [if_neg (by rw [seqReady_dma]; simp [hready, hdump, hturn])]
  cases hsub : s.sxtSub t with
  | none =>
    rw [hsub] at htable
    nomatch htable
  | some k =>
    rw [hsub, Option.any_some] at htable
    have hk : k ≤ 2 := of_decide_eq_true htable
    exact if_neg (by simpa using hk)

theorem dumpTake_of_other (hready : s.dmaReady = true) (hdump : s.sxt.dump = none) (hturn : s.seqTakes 1 = true) {t : Nat}
    (htable : (s.sxtSub t).any (fun k => decide (k ≤ 2)) = false) (d : List Word) (ok : Bool) :
    s.dumpTake t d ok = (s.dmaBack 9 t 0 5 0 d ok).seqDone 1 := by
  unfold State.dumpTake
  rw [hdump]
  dsimp only
  rw [if_neg (by rw [seqReady_dma]; simp [hready, hdump, hturn])]
  cases hsub : s.sxtSub t with
  | none => rfl
  | some k =>
    rw [hsub, Option.any_some] at htable
    have hk : ¬ k ≤ 2 := of_decide_eq_false htable
    exact if_pos (by simpa using hk)

theorem dumpTake_of_stopped (hready : s.dmaReady = false) (t : Nat) (d : List Word) (ok : Bool) : s.dumpTake t d ok = s := by
  unfold State.dumpTake
  cases hdump : s.sxt.dump with
  | none =>
    dsimp only
    rw [if_pos (by rw [seqReady_dma]; simp [hready])]
  | some x =>
    dsimp only
    rw [hready]
    rfl

theorem dumpTake_of_waiting (hdump : s.sxt.dump = none) (hturn : s.seqTakes 1 = false) (t : Nat) (d : List Word) (ok : Bool) :
    s.dumpTake t d ok = s := by
  unfold State.dumpTake
  rw [hdump]
  dsimp only
  rw [if_pos (by simp [hturn])]

/-- The run noted in the state changes nothing of what a step of it does. -/
theorem dumpStep_noted (x : DumpRun) (d : List Word) (ok : Bool) :
    ({ s with sxt.dump := some x } : State).dumpStep x d ok = s.dumpStep x d ok := by
  have hrows : ({ s with sxt.dump := some x } : State).tableRows x.table = s.tableRows x.table := rfl
  unfold State.dumpStep
  dsimp only
  rw [hrows]
  split
  · rfl
  · split
    · rfl
    · split
      · rfl
      · unfold State.hostWords State.toHost
        dsimp only
        split <;> rfl

/-- A step that ends the run writes the descriptor back. -/
theorem dumpStep_end {x : DumpRun} (hend : x.left = 0 ∨ nextRows (s.tableRows x.table) x.next = none) (d : List Word) (ok : Bool) :
    s.dumpStep x d ok = ({ s with sxt.dump := none } : State).dmaBack 9 x.table 0 0 x.count d ok := by
  unfold State.dumpStep
  dsimp only
  rcases hend with hend | hend
  · rw [if_pos hend]
  · rw [hend]
    split <;> rfl

/-- A step that has a bucket reads it and writes its records. -/
theorem dumpStep_bucket {x : DumpRun} {g : Nat} {recs : List (List Word)} (hleft : x.left ≠ 0)
    (hrows : nextRows (s.tableRows x.table) x.next = some (g, recs)) (hup : s.dev.perstLow = false) (d : List Word) :
    s.dumpStep x d true =
      { s.emit (.hostWrite (BitVec.ofNat 64 x.addr) ((recs.take x.left).flatten.flatMap fun w => leBytes 4 w.toNat)) with
        sxt.dump := some { x with
          next := g + 1, left := x.left - min x.left recs.length, count := x.count + min x.left recs.length,
          addr := x.addr + 32 * min x.left recs.length } } := by
  unfold State.dumpStep
  dsimp only
  rw [if_neg hleft, hrows]
  dsimp only
  rw [if_neg (by decide), List.length_take, State.hostWords, State.toHost, hup]
  rfl

theorem dumpStep_failed {x : DumpRun} {g : Nat} {recs : List (List Word)} (hleft : x.left ≠ 0)
    (hrows : nextRows (s.tableRows x.table) x.next = some (g, recs)) (d : List Word) :
    s.dumpStep x d false = ({ s with sxt.dump := none } : State).setBit Reg.sxtDmaStatus 31 true := by
  unfold State.dumpStep
  dsimp only
  rw [if_neg hleft, hrows]
  rfl

theorem sameRing_sxt (u : Sxt) : SameRing s { s with sxt := u } :=
  ⟨rfl, rfl, State.rdWords_congr fun _ _ _ => rfl, rfl⟩

theorem dump_stopped {tb : Nat} {d : List Word}
    (h : s.dumpTake tb d false = ({ s with sxt.dump := none } : State).setBit Reg.sxtDmaStatus 31 true) :
    (s.dumpTake tb d false).bit Reg.sxtDmaStatus 31 = true ∧ (s.dumpTake tb d false).sxt = { s.sxt with dump := none } ∧
      RegsBut [Reg.sxtDmaStatus] s (s.dumpTake tb d false) ∧ (s.dumpTake tb d false).out = s.out := by
  rw [h]
  exact ⟨bit_dmaStatus _, rfl, regsBut_setBit { s with sxt.dump := none } _ _ _, rfl⟩

/-- OP, TABLE and RESULT of a DUMP's descriptor. -/
theorem dumpWord (t r : Nat) : (9 % 256 + t % 256 * 2 ^ 8 + r * 2 ^ 16) = 9 + t % 256 * 256 + r * 65536 := by
  omega

/-! #### SXT_DMA_TAIL -/

theorem noteReady_since (old : State) : ∃ since, s.noteReady old = { s with sxt.since := since } := by
  refine State.each_induct (P := fun u => ∃ since, u = { s with sxt.since := since }) ⟨s.sxt.since, rfl⟩ fun k _ u hu => ?_
  obtain ⟨since, rfl⟩ := hu
  dsimp only
  split
  · exact ⟨_, rfl⟩
  · exact ⟨since, rfl⟩

theorem dmaTailWrite_shown (val : Word) :
    (s.dmaTailWrite val).fld Reg.sxtDmaTail 15 0 = fld val 15 0 ∧ RegsBut [Reg.sxtDmaTail] s (s.dmaTailWrite val) ∧
      s.dmaTailWrite val = { s with regs := (s.dmaTailWrite val).regs, sxt := { s.sxt with since := (s.dmaTailWrite val).sxt.since } } := by
  unfold State.dmaTailWrite
  obtain ⟨since, hready⟩ := noteReady_since (s := s.wrTyped Reg.sxtDmaTail val) s
  rw [hready]
  refine ⟨?_, fun a ha => State.rd_wrTyped_other s val (by simpa using ha), ?_⟩
  · exact s.fld_wrTyped_rw val (by decide)
  · rw [(s.onlyRegs_wrTyped val Reg.sxtDmaTail).1]

end

end Sys2Proof.Machine
end

section
/-!
PROOFS. The sequencer's operations on the tables (O54).
-/
open Sys2Proof.Safety
namespace Sys2Proof.Machine

/-- OP, TABLE and RESULT of a READ's descriptor. -/
theorem readWord {t : Nat} (h : t < 256) (r : Nat) : 3 % 256 + t % 256 * 2 ^ 8 + r * 2 ^ 16 = 3 + t * 256 + r * 65536 := by
  omega

/-- Settles O54: each command is taken by `takeCommand` and answered as `CommandRun` says, with the tables as its operation of
Table 10.6 leaves them; a descriptor and a DUMP are written back by `dmaBack`. -/
theorem sequencerOperatesOnTheTables : Obligations.SequencerOperatesOnTheTables := by
  unfold Obligations.SequencerOperatesOnTheTables
  refine ⟨?_, ?_, ?_, ?_, ?_, ?_, ?_, ?_, ?_, ?_, ?_, ?_, ?_, ?_, ?_, ?_⟩
  · intro own c key i e s hkey htakes hsub hfind
    subst hkey
    refine ⟨fun hop hroom => ?_, fun hop => runs_emDelete_found htakes hsub hfind hop, fun hop => ?_⟩
    · obtain ⟨t, hrun, ha, hslot, hsame, hregs⟩ := runs_emInsert_found htakes hsub hfind hop hroom
      exact ⟨t, hrun, ha, hsame, hregs, hslot⟩
    · exact runs_unchanged rfl htakes hop (sxtOp_read_found hsub hfind _ _) fun _ => rfl
  · intro own c key i n e s hkey htakes hsub hfind he
    subst hkey
    refine ⟨fun hop hroom hfree => ?_, fun hop hroom hplace => ?_, fun hop hroom hplace => ?_, fun hop hdyn hlimit => ?_,
      fun hop => ?_, fun hop => ?_⟩
    · subst he
      exact runs_emInsert_free htakes hsub hfind hop hroom hfree
    · exact runs_emInsert_placed htakes hsub hfind he hop hroom hplace
    · exact runs_emInsert_noPlace htakes hsub hfind he hop hroom hplace
    · subst he
      exact runs_emInsert_limit htakes hsub hfind hop hdyn hlimit
    · exact runs_answered rfl htakes hop (by rw [sxtOp_delete hsub, emDelete_of_absent hfind])
    · exact runs_answered rfl htakes hop (sxtOp_read_absent hsub hfind _ _)
  · intro noSpace own c fam k r s hk hr hfam htakes hsub hhashed
    subst hk hfam
    refine ⟨fun hop hspace hfits => runs_lpmAdd_trie htakes hsub hhashed hop hr hspace hfits,
      fun hop hfull hspace => runs_lpmAdd_noSpace htakes hsub hhashed hop hr hfull hspace, fun hop hcompact habsent hfits => ?_,
      fun hop hsome hspace => runs_lpmDel_trie htakes hsub hhashed hop hsome hspace,
      fun hop hsome hfull hspace => runs_lpmDel_noSpace htakes hsub hop hsome hfull hspace⟩
    obtain ⟨t, hrun, ha, hstatus, hraised, hsame⟩ := runs_lpmAdd_beyond (noSpace := noSpace) htakes hsub hcompact hop hr habsent
      (.inr (by rwa [lpmPut_of_trie hhashed]))
    exact ⟨t, hrun, ha, hsame, hstatus, hraised⟩
  · intro noSpace own c fam k tb h i e r s hk hr hfam htb hh htakes hsub hhashed hfind
    subst hk hfam htb hh
    exact ⟨fun hop => runs_lpmAdd_replaced htakes hsub hhashed hr hfind hop,
      fun hop => runs_lpmDel_removed htakes hsub hhashed hfind hop⟩
  · intro noSpace own c fam k tb h i r s hk hr hfam htb hh htakes hsub hhashed hfind hop
    subst hk hfam htb hh
    refine ⟨fun hfree hfits => runs_lpmAdd_placed htakes hsub hhashed hr hfind hop hfree hfits, fun hplace => ?_⟩
    have habsent : s.lpmAt (dataPrefix c.data) = none := by
      rw [lpmAt_of_hashed hhashed, hfind]
      rfl
    obtain ⟨t, hrun, ha, hstatus, hraised, hsame⟩ := runs_lpmAdd_beyond (noSpace := noSpace) htakes hsub
      (compact_of_hashed hhashed) hop hr habsent hplace
    exact ⟨t, hrun, ha, hsame, hstatus, hraised⟩
  · intro noSpace own c fam k s hk hfam htakes hsub
    subst hk hfam
    exact ⟨fun hop hnone => runs_lpmDel_absent htakes hsub hop hnone, fun hop hsome => runs_lpmRead_found htakes hsub hop hsome,
      fun hop hnone => runs_lpmRead_absent htakes hsub hop hnone⟩
  · intro own c x s htakes hx hsub
    exact ⟨fun hop hi => runs_writeCmd htakes hx hsub hop hi,
      fun hop hi => runs_answered rfl htakes hop (sxtOp_index_beyond (.inl rfl) hx hsub hi _ _),
      fun hop hi => runs_readCmd htakes hx hsub hop hi,
      fun hop hi => runs_answered rfl htakes hop (sxtOp_index_beyond (.inr rfl) hx hsub hi _ _)⟩
  · intro noSpace own c s htakes
    exact ⟨fun hop hsub => runs_answered rfl htakes hop (sxtOp_em_other (by decide) hsub _ _ _),
      fun hop hsub => runs_answered rfl htakes hop (sxtOp_em_other (by decide) hsub _ _ _),
      fun hop hsub => runs_answered rfl htakes hop (sxtOp_em_other (by decide) hsub _ _ _),
      fun hop hsub => runs_answered rfl htakes hop (sxtOp_lpm_other (by decide) hsub _ _),
      fun hop hsub => runs_answered rfl htakes hop (sxtOp_lpm_other (by decide) hsub _ _),
      fun hop hsub => runs_answered rfl htakes hop (sxtOp_lpm_other (by decide) hsub _ _),
      fun hop hsub => runs_answered rfl htakes hop (sxtOp_direct_other (by decide) hsub _ _ _),
      fun hop hsub => runs_answered rfl htakes hop (sxtOp_direct_other (by decide) hsub _ _ _)⟩
  · intro noSpace s
    exact ⟨fun h => congrArg Host.Outcome.next (takeCommand_of_notTaken h false),
      fun h => congrArg Host.Outcome.next (takeCommand_of_notTaken h false),
      fun h => congrArg Host.Outcome.next (takeCommand_of_notTaken h false),
      fun h => congrArg Host.Outcome.next (takeCommand_of_notTaken h noSpace),
      fun h => congrArg Host.Outcome.next (takeCommand_of_notTaken h noSpace),
      fun h => congrArg Host.Outcome.next (takeCommand_of_notTaken h false),
      fun h => congrArg Host.Outcome.next (takeCommand_of_notTaken h false),
      fun h => congrArg Host.Outcome.next (takeCommand_of_notTaken h false)⟩
  · intro op tb i n h d noSpace s hn hh hready hdump hturn hwaits
    subst hn hh
    refine ⟨Runs.intro rfl ?_, Runs.intro rfl ?_⟩
    · obtain ⟨hhead, hsxt, hout⟩ := bulkTake_good hready hdump hturn hwaits tb.val i noSpace
      refine ⟨hhead, hsxt, fun hop => ?_⟩
      rw [hop] at hout ⊢
      rw [hout, (sxtOp_read_state s tb.val i d noSpace).1, (sxtOp_read_state s tb.val i d noSpace).2,
        readWord tb.isLt]
      rfl
    · obtain ⟨hstatus, hhead, hstopped, hsxt⟩ := bulkTake_bad hready hdump hturn hwaits tb.val i noSpace
      exact ⟨hstatus, hhead, hstopped, hsxt⟩
  · intro op tb i d noSpace ok s h
    exact congrArg Host.Outcome.next (bulkTake_of_waiting h _ _ _ _)
  · intro tb d ok x s hready hdump hturn htable hx
    refine congrArg Host.Outcome.next ?_
    rw [dumpTake_of_start hready hdump hturn htable, ← hx,
      dumpTake_of_run (s := { s with sxt := { s.sxt with dump := some x } }) (x := x) hready rfl]
    exact (dumpStep_noted x d ok).symm
  · intro tb d x g recs s hready hdump hleft hrows
    refine ⟨Runs.intro rfl ?_, Runs.intro rfl ?_⟩
    · rw [dumpTake_of_run hready hdump, dumpStep_bucket hleft hrows (dmaReady_size hready).2.2]
      exact ⟨rfl, rfl, rfl⟩
    · exact dump_stopped ((dumpTake_of_run hready hdump _ _ _).trans (dumpStep_failed hleft hrows d))
  · intro tb d x h s hh hready hdump hend
    subst hh
    refine ⟨Runs.intro rfl ?_, Runs.intro rfl ?_⟩
    · rw [dumpTake_of_run hready hdump, dumpStep_end hend]
      obtain ⟨hhead, hout, hsxt, hregs⟩ := dmaBack_shown hready (sameRing_sxt { s.sxt with dump := none }) 9 x.table 0 0 x.count d
      refine ⟨hhead, hsxt, hregs, ?_⟩
      rw [hout, dumpWord, Nat.zero_mul, Nat.add_zero]
      rfl
    · refine dump_stopped ?_
      rw [dumpTake_of_run hready hdump, dumpStep_end hend, dmaBack_stops (u := { s with sxt.dump := none }) hready rfl]
  · intro tb d ok h s hh
    subst hh
    refine ⟨fun hready hdump hturn htable => Runs.intro rfl ?_, fun hready => ?_, fun hdump hturn => ?_⟩
    · rw [dumpTake_of_other hready hdump hturn htable]
      obtain ⟨hhead, hout, hsxt, hregs⟩ := dmaBack_shown hready (sameRing_sxt s.sxt) 9 tb.val 0 5 0 d
      refine ⟨hhead, (sxt_seqDone_turn (congrArg Sxt.turn hsxt) 1).trans hsxt, hregs, ?_⟩
      refine hout.trans ?_
      rw [dumpWord, Nat.mod_eq_of_lt tb.isLt]
      rfl
    · exact congrArg Host.Outcome.next (dumpTake_of_stopped hready _ _ _)
    · exact congrArg Host.Outcome.next (dumpTake_of_waiting hdump hturn _ _ _)
  · intro val s
    exact Runs.intro rfl (dmaTailWrite_shown val)

end Sys2Proof.Machine
end

section
/-!
PROOFS. A heartbeat period (R310, R312, R313, R316, R321).
-/
open Sys2Proof.Safety
namespace Sys2Proof.Machine

/-! ### What goes on after the judgement of a period -/

/-- From `s` to `t` the device keeps its mode, the pair what it has heard, and LHT_STATUS all but STALE. -/
structure GoesOn (s t : State) : Prop where
  mode : t.dev.mode = s.dev.mode
  status : ∃ c : Bool, t.rd Reg.lhtStatus = if c then Machine.setBit (s.rd Reg.lhtStatus) 26 true else s.rd Reg.lhtStatus
  kept : LhtKept s t

theorem GoesOn.refl (s : State) : GoesOn s s := ⟨rfl, ⟨false, rfl⟩, .refl s⟩

theorem GoesOn.trans {s t u : State} (h : GoesOn s t) (k : GoesOn t u) : GoesOn s u :=
  ⟨k.mode.trans h.mode, setBit_ite_trans h.status k.status, h.kept.trans k.kept⟩

theorem GoesOn.of_rd {s t : State} (hmode : t.dev.mode = s.dev.mode) (hrd : t.rd Reg.lhtStatus = s.rd Reg.lhtStatus)
    (hkept : LhtKept s t) : GoesOn s t := ⟨hmode, ⟨false, hrd⟩, hkept⟩

theorem GoesOn.of_waned {s t : State} (h : Waned s t) (hkept : LhtKept s t) : GoesOn s t := by
  refine ⟨?_, h.stale, hkept⟩
  obtain ⟨_, _, _, _, _, _, _, _, _, _, _, _, _, _, _, _, _, _, _, _, _, _, _, rfl⟩ := h.frame
  rfl

/-- Every bit of LHT_STATUS but STALE is as it was. -/
theorem GoesOn.bit {s t : State} (h : GoesOn s t) {i : Nat} (hi : i ≠ 26) : t.bit Reg.lhtStatus i = s.bit Reg.lhtStatus i :=
  bit_of_setBit_ite (by decide) h.status hi

theorem GoesOn.missCount {s t : State} (h : GoesOn s t) : t.missCount = s.missCount :=
  fld_congr fun _ _ _ => h.bit (by omega)

theorem goesOn_wr (s : State) {a : Nat} (ha : a ≠ Reg.lhtStatus) (v : Word) : GoesOn s (s.wr a v) :=
  .of_rd rfl (State.rd_wr_other _ _ ha.symm) (lhtKept_of_lht rfl)

theorem goesOn_linked {s t : State} (h : Linked s t) (hrd : t.rd Reg.lhtStatus = s.rd Reg.lhtStatus) : GoesOn s t :=
  .of_rd (congrArg Dev.mode h.dev) hrd (lhtKept_linked h)

theorem lhtStatus_apart : apartReg Reg.lhtStatus := apartReg_modeRegs _ (by decide)

theorem goesOn_event (s : State) {leaf : Nat} (hleaf : leaf < 2048) (inst : Nat) : GoesOn s (s.event leaf inst) :=
  goesOn_linked (linked_event s leaf inst) (rd_event hleaf inst lhtStatus_apart)

theorem goesOn_goStale (s : State) : GoesOn s s.goStale := .of_waned (waned_goStale s) (lhtKept_goStale s)

theorem goesOn_hbBoth (s : State) : GoesOn s s.hbBoth := .of_waned (waned_hbBoth s) (lhtKept_hbBoth s)

theorem goesOn_syncEnd (s : State) (e : OpEnd) : GoesOn s ((s.opIdle .bulkSync).opEnd .bulkSync e) :=
  .of_waned ((waned_opIdle s (by decide)).trans (waned_opEnd _ (by decide) (by decide) e))
    ((lhtKept_opIdle s .bulkSync).trans (lhtKept_linked (linked_opEnd _ .bulkSync e)))

/-! ### State copy that leaves -/

/-- Records leave as one output, or as cells. -/
theorem copyOut_frame (s : State) (kind seq : Nat) (recs : List CopyRec) :
    Linked s (s.copyOut kind seq recs) ∧ (s.copyOut kind seq recs).regs = s.regs ∧
      (s.pathUp 0 = true → s.copyOut kind seq recs = s.emit (.stateCopy kind seq recs)) := by
  have hother (u : State) (d : Nat) (c : Cell) : (u.sendOther d c).regs = u.regs := by
    unfold State.sendOther
    split <;> rfl
  unfold State.copyOut State.sendCopy
  split
  · exact ⟨linked_emit _ _, rfl, fun _ => rfl⟩
  · next h =>
    refine ⟨.each _ fun _ u => linked_sendOther u _ _, ?_, fun hup => absurd hup h⟩
    exact State.each_induct (P := fun u => u.regs = s.regs) rfl fun _ _ u hu => (hother u _ _).trans hu

theorem goesOn_copyOut (s : State) (kind seq : Nat) (recs : List CopyRec) : GoesOn s (s.copyOut kind seq recs) :=
  goesOn_linked (copyOut_frame s kind seq recs).1 (State.rd_of_regs (copyOut_frame s kind seq recs).2.1 _)

/-- Held increments as they leave. -/
def State.copiesOut (s : State) (l : List (Nat × List CopyRec)) : State := l.foldl (fun s e => s.copyOut 2 e.1 e.2) s

theorem copiesOut_frame (s : State) (l : List (Nat × List CopyRec)) :
    Linked s (s.copiesOut l) ∧ (s.copiesOut l).regs = s.regs ∧
      (s.pathUp 0 = true → (s.copiesOut l).out.length = s.out.length + l.length) := by
  induction l generalizing s with
  | nil => exact ⟨.refl s, rfl, fun _ => rfl⟩
  | cons e l ih =>
    obtain ⟨hlinked, hregs, hout⟩ := copyOut_frame s 2 e.1 e.2
    obtain ⟨hrest, hrestRegs, hrestOut⟩ := ih (s.copyOut 2 e.1 e.2)
    refine ⟨hlinked.trans hrest, hrestRegs.trans hregs, fun hup => ?_⟩
    have hup' : (s.copyOut 2 e.1 e.2).pathUp 0 = true := by
      rw [State.pathUp, if_pos rfl, State.bit_of_regs hregs]
      exact hup
    rw [State.copiesOut, List.foldl_cons, ← State.copiesOut, hrestOut hup', hout hup, List.length_cons]
    simp only [State.emit, List.length_append, List.length_singleton]
    omega

theorem sendHeld_eq (s : State) :
    s.sendHeld = if s.anyPath then { s.copiesOut s.lht.held with lht.held := [] } else s := rfl

theorem goesOn_sendHeld (s : State) : GoesOn s s.sendHeld := by
  rw [sendHeld_eq]
  split
  · obtain ⟨hlinked, hregs, _⟩ := copiesOut_frame s s.lht.held
    refine (goesOn_linked hlinked (State.rd_of_regs hregs _)).trans ?_
    generalize s.copiesOut s.lht.held = u
    exact .of_rd rfl rfl ⟨rfl, rfl, fun _ => ⟨rfl, rfl⟩⟩
  · exact .refl s

theorem goesOn_closeInc (s : State) : GoesOn s s.closeInc := by
  unfold State.closeInc
  split
  · refine GoesOn.trans ?_ (goesOn_sendHeld _)
    dsimp only
    refine (goesOn_wr s (a := Reg.lhtIncSeq) (by decide) (BitVec.ofNat 32 (s.lht.incSeq + 1))).trans ?_
    exact .of_rd rfl rfl ⟨rfl, rfl, fun _ => ⟨rfl, rfl⟩⟩
  · exact .refl s

theorem goesOn_noSync (s : State) : GoesOn s { s with lht.sync := none } := .of_rd rfl rfl ⟨rfl, rfl, fun _ => ⟨rfl, rfl⟩⟩

theorem goesOn_skipInc (s : State) (q : Nat) (l : List CopyRec) :
    GoesOn s { s.wrNat Reg.lhtIncSeq q with lht.incSeq := q, lht.held := [], lht.shadow := l } :=
  (goesOn_wr s (a := Reg.lhtIncSeq) (by decide) (BitVec.ofNat 32 q)).trans (.of_rd rfl rfl ⟨rfl, rfl, fun _ => ⟨rfl, rfl⟩⟩)

theorem goesOn_journalFull (s : State) : GoesOn s s.journalFull := by
  have hsync : GoesOn s (if s.busy .bulkSync then
      { (s.opIdle .bulkSync).opEnd .bulkSync (.failed 10) with lht.sync := none } else s) := by
    split
    · exact (goesOn_syncEnd s _).trans (goesOn_noSync _)
    · exact .refl s
  unfold State.journalFull
  dsimp only
  generalize (if s.busy .bulkSync then { (s.opIdle .bulkSync).opEnd .bulkSync (.failed 10) with lht.sync := none } else s : State) = u
    at hsync ⊢
  split
  · exact hsync.trans (goesOn_goStale u)
  · split
    · exact hsync.trans (goesOn_skipInc u _ _)
    · exact hsync

/-! ### The judgement -/

/-- What follows the judgement of a period: the journal, an increment, the next heartbeats. -/
def State.periodRest (s : State) (journal : Nat) : State :=
  let s3 := { s with lht.yielded := false }
  let s4 := if s3.busy .bulkSync then s3.wrNat (Reg.lhtSyncOpPartial 1) journal else s3
  let s5 := if journalMax < journal then s4.journalFull else s4.closeInc
  s5.hbBoth

theorem goesOn_periodRest (s : State) (journal : Nat) : GoesOn { s with lht.yielded := false } (s.periodRest journal) := by
  unfold State.periodRest
  generalize ({ s with lht.yielded := false } : State) = u
  dsimp only
  refine GoesOn.trans (t := if u.busy .bulkSync then u.wrNat (Reg.lhtSyncOpPartial 1) journal else u) ?_ ?_
  · split
    · exact goesOn_wr u (by decide) _
    · exact .refl u
  · generalize (if u.busy .bulkSync then u.wrNat (Reg.lhtSyncOpPartial 1) journal else u) = v
    refine GoesOn.trans ?_ (goesOn_hbBoth _)
    split
    · exact goesOn_journalFull v
    · exact goesOn_closeInc v

/-- The pair as a period leaves it before the role acts: the paths judged, MISS_COUNT counted. -/
def State.periodHeard (s : State) : State :=
  ((s.pathEnd 0).pathEnd 1).missEnd ((s.lhPath 0).got || (s.lhPath 1).got)

/-- The bit of a path in LHT_STATUS. -/
def pathBit (p : Nat) : Nat := if p = 0 then 30 else 29

theorem lhBit_path (p : Nat) : lhBit (if p = 0 then "PATH_LH" else "PATH_RHB") = pathBit p := by
  unfold pathBit
  split <;> rfl

theorem setLh_path (s : State) (p : Nat) (b : Bool) :
    s.setLh (if p = 0 then "PATH_LH" else "PATH_RHB") b = s.setBit Reg.lhtStatus (pathBit p) b := by
  rw [State.setLh, lhBit_path]

/-- What the end of a period changes at a path. -/
structure PathEnded (p : Nat) (s t : State) : Prop where
  dev : t.dev = s.dev
  got : (t.lhPath p).got = false
  other : ∀ q, q ≠ p → t.lhPath q = s.lhPath q
  up : (s.lhPath p).got = true → t.bit Reg.lhtStatus (pathBit p) = true
  bits : ∀ i < 32, i ≠ pathBit p → t.bit Reg.lhtStatus i = s.bit Reg.lhtStatus i
  ctrl : t.rd Reg.lhtCtrl = s.rd Reg.lhtCtrl
  witAt : t.lht.witAt = s.lht.witAt
  yielded : t.lht.yielded = s.lht.yielded

theorem lhPath_setLhPath (s : State) (p q : Nat) (x : LhPath) : (s.setLhPath p x).lhPath q = if q = p then x else s.lhPath q :=
  SMap.get_set _ _ _ _ _

theorem lhtCtrl_apart : apartReg Reg.lhtCtrl := by
  unfold apartReg eventReg
  decide

theorem pathEnded_pathEnd (s : State) {p : Nat} (hp : p < 2) : PathEnded p s (s.pathEnd p) := by
  have hbit : pathBit p < 32 := by
    unfold pathBit
    split <;> decide
  have hset : ∀ (x : LhPath) (b : Bool), x.got = false → (b = true ∨ (s.lhPath p).got = false) →
      PathEnded p s ((s.setLhPath p x).setBit Reg.lhtStatus (pathBit p) b) := fun x b hx hb =>
    { dev := rfl
      got := by
        have hget : (((s.setLhPath p x).setBit Reg.lhtStatus (pathBit p) b).lhPath p) = x :=
          (lhPath_setLhPath s p p x).trans (if_pos rfl)
        rw [hget]
        exact hx
      other := fun q hq => (lhPath_setLhPath s p q x).trans (if_neg hq)
      up := fun hgot => by
        rw [State.bit, State.rd_setBit, if_pos rfl, Machine.bit_setBit_self _ hbit]
        exact hb.resolve_right (by rw [hgot]; decide)
      bits := fun i _ hi => by
        rw [State.bit, State.rd_setBit, if_pos rfl, bit_setBit_other _ hbit hi]
        rfl
      ctrl := (State.rd_setBit _ _ _ _ _).trans (if_neg (by decide))
      witAt := rfl
      yielded := rfl }
  have hleaf : leafOf 17 p < 2048 := by
    unfold leafOf
    omega
  unfold State.pathEnd
  dsimp only
  split
  · rw [setLh_path]
    exact hset _ true rfl (.inl rfl)
  · next hgot =>
    have hno : (s.lhPath p).got = false := Bool.eq_false_iff.mpr hgot
    split
    · rw [setLh_path]
      have hdown := hset { s.lhPath p with run := (s.lhPath p).run + 1 } false hno (.inr hno)
      generalize (s.setLhPath p { s.lhPath p with run := (s.lhPath p).run + 1 }).setBit Reg.lhtStatus (pathBit p) false = u at hdown ⊢
      have hlht : (u.event (leafOf 17 p) 0).lht = u.lht := (linked_event u _ _).lht
      have hpath : ∀ q, (u.event (leafOf 17 p) 0).lhPath q = u.lhPath q := fun q => by
        unfold State.lhPath
        rw [hlht]
      have hrd : ∀ i, (u.event (leafOf 17 p) 0).bit Reg.lhtStatus i = u.bit Reg.lhtStatus i := fun i => by
        rw [State.bit, rd_event hleaf _ lhtStatus_apart]
        rfl
      exact
        { dev := (linked_event u _ _).dev.trans hdown.dev
          got := by
            rw [hpath]
            exact hdown.got
          other := fun q hq => (hpath q).trans (hdown.other q hq)
          up := fun h => (hrd _).trans (hdown.up h)
          bits := fun i hi hne => (hrd i).trans (hdown.bits i hi hne)
          ctrl := (rd_event hleaf _ lhtCtrl_apart).trans hdown.ctrl
          witAt := (congrArg Lht.witAt hlht).trans hdown.witAt
          yielded := (congrArg Lht.yielded hlht).trans hdown.yielded }
    · have hsame : ∀ q, q ≠ p → (s.setLhPath p { s.lhPath p with run := (s.lhPath p).run + 1 }).lhPath q = s.lhPath q :=
        fun q hq => (lhPath_setLhPath s p q _).trans (if_neg hq)
      have hself : (s.setLhPath p { s.lhPath p with run := (s.lhPath p).run + 1 }).lhPath p =
          { s.lhPath p with run := (s.lhPath p).run + 1 } := (lhPath_setLhPath s p p _).trans (if_pos rfl)
      exact
        { dev := rfl
          got := by
            rw [hself]
            exact hno
          other := hsame
          up := fun h => absurd h hgot
          bits := fun _ _ _ => rfl
          ctrl := rfl
          witAt := rfl
          yielded := rfl }

/-- What a period has heard. -/
structure PeriodHeard (s t : State) : Prop where
  mode : t.dev = s.dev
  quiet : (t.lhPath 0).got = false ∧ (t.lhPath 1).got = false
  up : (s.lhPath 0).got = true → t.bit Reg.lhtStatus 30 = true
  missed : t.missCount = if (s.lhPath 0).got || (s.lhPath 1).got then 0 else min 255 (s.missCount + 1)
  ctrl : t.rd Reg.lhtCtrl = s.rd Reg.lhtCtrl
  witAt : t.lht.witAt = s.lht.witAt
  yielded : t.lht.yielded = s.lht.yielded

/-- MISS_COUNT is `n`, and nothing else of the pair has changed. -/
structure MissCounted (n : Nat) (s t : State) : Prop where
  dev : t.dev = s.dev
  paths : ∀ q, t.lhPath q = s.lhPath q
  missed : t.missCount = n
  bits : ∀ i, 12 ≤ i → t.bit Reg.lhtStatus i = s.bit Reg.lhtStatus i
  ctrl : t.rd Reg.lhtCtrl = s.rd Reg.lhtCtrl
  witAt : t.lht.witAt = s.lht.witAt
  yielded : t.lht.yielded = s.lht.yielded

theorem missCounted_setFld (s : State) {n : Nat} (hn : n < 256) : MissCounted n s (s.setFld Reg.lhtStatus 11 4 n) where
  dev := rfl
  paths _ := rfl
  missed := (State.fld_setFld_self _ _ (by decide) (by decide) n).trans (Nat.mod_eq_of_lt hn)
  bits i hi := by
    rw [State.bit, State.rd_setFld, if_pos rfl, bit_setFld_out _ (by decide) (.inr (by omega))]
    rfl
  ctrl := (State.rd_setFld _ _ _ _ _ _).trans (if_neg (by decide))
  witAt := rfl
  yielded := rfl

/-- The run of misses noted with its first period. -/
theorem MissCounted.from_first {n : Nat} {s t : State} (h : MissCounted n s t) (first : Raw) :
    MissCounted n s { t with lht.missAt := first } :=
  ⟨h.dev, h.paths, h.missed, h.bits, h.ctrl, h.witAt, h.yielded⟩

theorem missCounted_missEnd (s : State) (good : Bool) :
    MissCounted (if good then 0 else min 255 (s.missCount + 1)) s (s.missEnd good) := by
  unfold State.missEnd
  cases good with
  | true => exact missCounted_setFld s (n := 0) (by decide)
  | false =>
    have hcount := missCounted_setFld s (n := min 255 (s.missCount + 1)) (by omega)
    rw [if_neg Bool.false_ne_true, if_neg Bool.false_ne_true, natMin_eq]
    dsimp only
    split
    · exact hcount.from_first _
    · exact hcount

theorem periodHeard_shown (s : State) : PeriodHeard s s.periodHeard := by
  have h0 := pathEnded_pathEnd s (p := 0) (by decide)
  have h1 := pathEnded_pathEnd (s.pathEnd 0) (p := 1) (by decide)
  unfold State.periodHeard
  generalize s.pathEnd 0 = u at h0 h1 ⊢
  generalize u.pathEnd 1 = v at h1 ⊢
  obtain ⟨hdev, hpaths, hmissed, hbits, hctrl, hwit, hyield⟩ := missCounted_missEnd v ((s.lhPath 0).got || (s.lhPath 1).got)
  have hcount : v.missCount = s.missCount := (fld_congr fun i _ hi => h1.bits i (by omega) (by unfold pathBit; simp; omega)).trans
    (fld_congr fun i _ hi => h0.bits i (by omega) (by unfold pathBit; simp; omega))
  exact
    { mode := (hdev.trans h1.dev).trans h0.dev
      quiet := ⟨by rw [hpaths, h1.other 0 (by decide)]; exact h0.got, by rw [hpaths]; exact h1.got⟩
      up := fun hgot => by
        rw [hbits 30 (by decide), h1.bits 30 (by decide) (by decide)]
        exact h0.up hgot
      missed := by rw [hmissed, hcount]
      ctrl := (hctrl.trans h1.ctrl).trans h0.ctrl
      witAt := (hwit.trans h1.witAt).trans h0.witAt
      yielded := (hyield.trans h1.yielded).trans h0.yielded }

end Sys2Proof.Machine
end

section
/-!
PROOFS. Heartbeats, and what the role makes of them (R311 to R313, R315, R316, R318, R321).
-/
open Sys2Proof.Safety
namespace Sys2Proof.Machine

/-! ### HEARTBEAT_PERIOD -/

theorem hbRaw_eq : hbRaw = 65536000000 := rfl

/-- The state with the period that begins noted. -/
def State.inPeriod (s : State) : State := { s with lht.period := s.raw.toNat / 65536000000 }

/-- What the role makes of the period. -/
def State.periodRole (s : State) (good : Bool) (was : Nat) : State :=
  if s.lhActive then s.activeEnd was else s.standbyEnd good was

theorem hbPeriod_of_due {s : State} (hdue : s.lht.period < s.raw.toNat / 65536000000) (hrole : s.lhActive = true ∨ s.lhStandby = true)
    (journal : Nat) :
    s.hbPeriod journal =
      (s.inPeriod.periodHeard.periodRole ((s.lhPath 0).got || (s.lhPath 1).got) s.missCount).periodRest journal := by
  unfold State.hbPeriod
  rw [hbRaw_eq]
  dsimp only
  rw [if_neg (Nat.not_le.mpr hdue), if_neg (by rcases hrole with h | h <;> simp [h])]
  rfl

theorem hbPeriod_of_early {s : State} (h : s.raw.toNat / 65536000000 ≤ s.lht.period) (journal : Nat) : s.hbPeriod journal = s := by
  unfold State.hbPeriod
  rw [hbRaw_eq]
  exact if_pos h

theorem hbPeriod_of_no_role {s : State} (hdue : s.lht.period < s.raw.toNat / 65536000000) (hactive : s.lhActive = false)
    (hstandby : s.lhStandby = false) (journal : Nat) : s.hbPeriod journal = s.inPeriod := by
  unfold State.hbPeriod
  rw [hbRaw_eq]
  dsimp only
  rw [if_neg (Nat.not_le.mpr hdue), hactive, hstandby]
  rfl

/-- A role follows LHT_CTRL and the mode. -/
theorem PeriodHeard.roles {s t : State} (h : PeriodHeard s t) :
    t.lhActive = s.lhActive ∧ t.lhStandby = s.lhStandby ∧ t.bit Reg.lhtCtrl 1 = s.bit Reg.lhtCtrl 1 := by
  unfold State.lhActive State.lhStandby State.lhtOn State.serving State.bit
  rw [h.ctrl, h.mode]
  exact ⟨rfl, rfl, rfl⟩

theorem lhActive_of_standby {s : State} (h : s.lhStandby = true) : s.lhActive = false := by
  unfold State.lhStandby at h
  unfold State.lhActive State.serving
  rw [Bool.and_eq_true, beq_iff_eq] at h
  rw [h.2]
  exact Bool.and_false _

theorem mode_of_standby {s : State} (h : s.lhStandby = true) : s.dev.mode = .standby := by
  unfold State.lhStandby at h
  rw [Bool.and_eq_true, beq_iff_eq] at h
  exact h.2

theorem lhBit_lt (name : String) : lhBit name < 32 := by
  unfold lhBit
  split <;> decide

theorem bit_setLh (s : State) (name : String) (b : Bool) (i : Nat) :
    (s.setLh name b).bit Reg.lhtStatus i = if i = lhBit name then b else s.bit Reg.lhtStatus i := by
  rw [State.bit, State.setLh, State.rd_setBit, if_pos rfl]
  split
  · next h => rw [h, Machine.bit_setBit_self _ (lhBit_lt name)]
  · next h => exact bit_setBit_other _ (lhBit_lt name) h b

theorem goesOn_activeEnd (s : State) (was : Nat) : GoesOn s (s.activeEnd was) := by
  unfold State.activeEnd
  dsimp only
  have hevent : GoesOn s (if was < s.lhtMiss ∧ s.lhtMiss ≤ s.missCount then s.event (leafOf 17 2) 0 else s) := by
    split
    · exact goesOn_event s (by decide) 0
    · exact .refl s
  generalize (if was < s.lhtMiss ∧ s.lhtMiss ≤ s.missCount then s.event (leafOf 17 2) 0 else s) = u at hevent ⊢
  split
  · exact hevent.trans (goesOn_wr u (by decide) 0)
  · exact hevent

section
variable {u : State} (hdue : u.lht.period < u.raw.toNat / 65536000000) (journal : Nat)
include hdue

/-- The active device counts and goes on (R312, R313). -/
theorem hbPeriod_active (hactive : u.lhActive = true) :
    (u.hbPeriod journal).missCount = (if (u.lhPath 0).got || (u.lhPath 1).got then 0 else min 255 (u.missCount + 1)) ∧
      ((u.hbPeriod journal).lhPath 0).got = false ∧ ((u.hbPeriod journal).lhPath 1).got = false ∧
      ((u.lhPath 0).got = true → (u.hbPeriod journal).lhStatus "PATH_LH" = true) := by
  have hheard := periodHeard_shown u.inPeriod
  rw [hbPeriod_of_due hdue (.inl hactive)]
  generalize u.inPeriod.periodHeard = v at hheard ⊢
  rw [State.periodRole, if_pos (hheard.roles.1.trans hactive)]
  have hrole := goesOn_activeEnd v u.missCount
  generalize v.activeEnd u.missCount = w at hrole ⊢
  have hrest := goesOn_periodRest w journal
  refine ⟨hrest.missCount.trans (hrole.missCount.trans hheard.missed), ?_, ?_, fun hgot => ?_⟩
  · rw [(hrest.kept.2.2 0).1]
    exact (hrole.kept.2.2 0).1.trans hheard.quiet.1
  · rw [(hrest.kept.2.2 1).1]
    exact (hrole.kept.2.2 1).1.trans hheard.quiet.2
  · exact (hrest.bit (i := 30) (by decide)).trans ((hrole.bit (by decide)).trans (hheard.up hgot))

/-- The standby that follows what `v` is after its judgement (R321). -/
theorem hbPeriod_standby (hstandby : u.lhStandby = true) :
    ∃ v, PeriodHeard u v ∧ v.lhStandby = true ∧
      u.hbPeriod journal = (v.standbyEnd ((u.lhPath 0).got || (u.lhPath 1).got) u.missCount).periodRest journal := by
  have hheard := periodHeard_shown u.inPeriod
  refine ⟨u.inPeriod.periodHeard, ⟨hheard.mode, hheard.quiet, hheard.up, hheard.missed, hheard.ctrl, hheard.witAt, hheard.yielded⟩,
    hheard.roles.2.1.trans hstandby, ?_⟩
  rw [hbPeriod_of_due hdue (.inr hstandby), State.periodRole, if_neg]
  rw [hheard.roles.1]
  exact fun h => absurd (h.symm.trans (lhActive_of_standby hstandby)) (by decide)

theorem hbPeriod_standby_heard (hstandby : u.lhStandby = true) (hctrl : u.bit Reg.lhtCtrl 1 = true)
    (hyield : u.lht.yielded = false) (hgood : ((u.lhPath 0).got || (u.lhPath 1).got) = true) :
    (u.hbPeriod journal).missCount = 0 ∧ (u.hbPeriod journal).dev.mode = .standby ∧
      (u.hbPeriod journal).lhStatus "ISOLATED" = false ∧ (u.hbPeriod journal).lhStatus "WITNESS_ALIVE" = false ∧
      (u.hbPeriod journal).lht.witAt = none := by
  obtain ⟨v, hheard, hv, hrun⟩ := hbPeriod_standby hdue journal hstandby
  have hend : v.standbyEnd true u.missCount = { (v.setLh "ISOLATED" false).setLh "WITNESS_ALIVE" false with lht.witAt := none } := by
    unfold State.standbyEnd
    rw [hheard.roles.2.2, hctrl, hheard.yielded, hyield]
    rfl
  rw [hrun, hgood, hend]
  have hrest := goesOn_periodRest { (v.setLh "ISOLATED" false).setLh "WITNESS_ALIVE" false with lht.witAt := none } journal
  have hmiss := hheard.missed
  rw [hgood, if_pos rfl] at hmiss
  have hbits : ∀ i, i ≠ 27 → i ≠ 28 → ((v.setLh "ISOLATED" false).setLh "WITNESS_ALIVE" false).bit Reg.lhtStatus i =
      v.bit Reg.lhtStatus i := fun i h27 h28 =>
    (bit_setLh _ "WITNESS_ALIVE" false i).trans ((if_neg h27).trans ((bit_setLh v "ISOLATED" false i).trans (if_neg h28)))
  refine ⟨?_, ?_, ?_, ?_, hrest.kept.1⟩
  · rw [hrest.missCount]
    exact (fld_congr fun i _ hi => hbits i (by omega) (by omega)).trans hmiss
  · have hmode := mode_of_standby hv
    exact hrest.mode.trans hmode
  · refine (hrest.bit (i := 28) (by decide)).trans ?_
    exact (bit_setLh _ _ _ _).trans ((if_neg (by decide)).trans ((bit_setLh v "ISOLATED" false 28).trans (if_pos rfl)))
  · refine (hrest.bit (i := 27) (by decide)).trans ?_
    exact (bit_setLh _ "WITNESS_ALIVE" false 27).trans (if_pos rfl)

theorem hbPeriod_standby_manual (hstandby : u.lhStandby = true) (hctrl : u.bit Reg.lhtCtrl 1 = false) :
    (u.hbPeriod journal).missCount = (if (u.lhPath 0).got || (u.lhPath 1).got then 0 else min 255 (u.missCount + 1)) ∧
      (u.hbPeriod journal).dev.mode = .standby := by
  obtain ⟨v, hheard, hv, hrun⟩ := hbPeriod_standby hdue journal hstandby
  have hend (good : Bool) : v.standbyEnd good u.missCount = v := by
    unfold State.standbyEnd
    rw [hheard.roles.2.2, hctrl]
    rfl
  rw [hrun, hend]
  have hrest := goesOn_periodRest v journal
  exact ⟨hrest.missCount.trans hheard.missed, hrest.mode.trans (mode_of_standby hv)⟩

theorem hbPeriod_standby_yielded (hstandby : u.lhStandby = true) (hctrl : u.bit Reg.lhtCtrl 1 = true)
    (hyield : u.lht.yielded = true) :
    (u.hbPeriod journal).dev.mode = .active ∧ (u.hbPeriod journal).fld Reg.lhtStatus 19 16 = 2 ∧
      (u.hbPeriod journal).lht.yielded = false := by
  obtain ⟨v, hheard, hv, hrun⟩ := hbPeriod_standby hdue journal hstandby
  have hend (good : Bool) : v.standbyEnd good u.missCount = v.takeover 2 := by
    unfold State.standbyEnd
    rw [hheard.roles.2.2, hctrl, hheard.yielded, hyield]
    rfl
  rw [hrun, hend]
  have htook := takeover_shown v (cause := 2) (by decide)
  generalize v.takeover 2 = w at htook ⊢
  have hrest := goesOn_periodRest w journal
  exact ⟨hrest.mode.trans htook.mode, (fld_congr fun i _ _ => hrest.bit (by omega)).trans htook.cause, hrest.kept.2.1⟩

end

/-! ### HEARTBEAT_RECEIVE -/

/-- The counters of valid heartbeats. -/
def hbCounters : List Nat := [Reg.lhtHbRxLh, Reg.lhtHbRxRhb]

/-- What a heartbeat has told is kept, and its count. -/
def HbKept (s t : State) : Prop :=
  (∀ p, (t.lhPath p).got = (s.lhPath p).got ∧ (t.lhPath p).ref = (s.lhPath p).ref) ∧ ∀ a ∈ hbCounters, t.rd a = s.rd a

theorem HbKept.refl (s : State) : HbKept s s := ⟨fun _ => ⟨rfl, rfl⟩, fun _ _ => rfl⟩

theorem HbKept.trans {s t u : State} (h : HbKept s t) (k : HbKept t u) : HbKept s u :=
  ⟨fun p => ⟨(k.1 p).1.trans (h.1 p).1, (k.1 p).2.trans (h.1 p).2⟩, fun a ha => (k.2 a ha).trans (h.2 a ha)⟩

theorem HbKept.of_kept {s t : State} (h : LhtKept s t) (hrd : ∀ a ∈ hbCounters, t.rd a = s.rd a) : HbKept s t := ⟨h.2.2, hrd⟩

theorem hbKept_wr (s : State) {a : Nat} (ha : a ∉ hbCounters) (v : Word) : HbKept s (s.wr a v) :=
  .of_kept (lhtKept_of_lht rfl) fun _ hb => State.rd_wr_other _ _ fun h => ha (h ▸ hb)

theorem hbCounters_apart : ∀ a ∈ hbCounters, apartReg a := by
  unfold apartReg eventReg
  decide

theorem hbCounters_ops : ∀ a ∈ hbCounters, ¬ opsReg a ∧ a ≠ Reg.devCommStatus ∧ a ≠ Reg.lhtStatus := by
  unfold opsReg eventReg
  decide

theorem hbKept_waned {s t : State} (h : Waned s t) (k : LhtKept s t) : HbKept s t :=
  .of_kept k fun a ha => h.regs a (hbCounters_ops a ha).1 (hbCounters_ops a ha).2.1 (hbCounters_ops a ha).2.2

theorem hbKept_event (s : State) {leaf : Nat} (hleaf : leaf < 2048) (inst : Nat) : HbKept s (s.event leaf inst) :=
  .of_kept (lhtKept_linked (linked_event s leaf inst)) fun a ha => rd_event hleaf inst (hbCounters_apart a ha)

theorem hbKept_goStale (s : State) : HbKept s s.goStale := hbKept_waned (waned_goStale s) (lhtKept_goStale s)

theorem hbKept_syncEnd (s : State) (e : OpEnd) : HbKept s (s.opEnd .bulkSync e) :=
  hbKept_waned (waned_opEnd s (by decide) (by decide) e) (lhtKept_linked (linked_opEnd s .bulkSync e))

theorem hbKept_syncIdle (s : State) : HbKept s (s.opIdle .bulkSync) :=
  hbKept_waned (waned_opIdle s (by decide)) (lhtKept_opIdle s .bulkSync)

theorem hbKept_opBegin (s : State) : HbKept s (s.opBegin .bulkSync) := by
  have hpartials : ∀ a ∈ opPartials .bulkSync, a ∉ hbCounters := by decide
  unfold State.opBegin
  exact (hbKept_wr s (by decide) _).trans
    (State.each_induct (P := HbKept _) (.refl _) fun a ha u hu => hu.trans (hbKept_wr u (hpartials a ha) 0))

theorem hbKept_setLh (s : State) (name : String) (b : Bool) : HbKept s (s.setLh name b) := hbKept_wr s (by decide) _

/-- The pair's own record of its sync changes. -/
theorem hbKept_of_regs {s t : State} (hregs : t.regs = s.regs) (hpaths : t.lht.paths = s.lht.paths) : HbKept s t := by
  refine ⟨fun p => ?_, fun a _ => State.rd_of_regs hregs a⟩
  unfold State.lhPath
  rw [hpaths]
  exact ⟨rfl, rfl⟩

theorem hbKept_copyOut (s : State) (kind seq : Nat) (recs : List CopyRec) : HbKept s (s.copyOut kind seq recs) := by
  obtain ⟨hlinked, hregs, _⟩ := copyOut_frame s kind seq recs
  exact hbKept_of_regs hregs (congrArg Lht.paths hlinked.lht)

theorem hbKept_syncStart (s : State) : HbKept s s.syncStart := by
  unfold State.syncStart State.opRefuse
  split
  · exact (hbKept_opBegin s).trans (hbKept_syncEnd _ _)
  · split
    · exact (hbKept_opBegin s).trans (hbKept_syncEnd _ _)
    · refine (hbKept_opBegin s).trans ?_
      dsimp only
      generalize s.opBegin .bulkSync = u
      split
      · unfold State.streamBegin
        dsimp only
        refine HbKept.trans ?_ (hbKept_copyOut _ 0 0 u.copied)
        exact hbKept_of_regs rfl rfl
      · exact hbKept_of_regs rfl rfl

theorem hbKept_hbStandby (s : State) (h : Hb) : HbKept s (s.hbStandby h) := by
  unfold State.hbStandby
  dsimp only
  have hdual := hbKept_setLh s "DUAL_ACTIVE" false
  generalize s.setLh "DUAL_ACTIVE" false = u at hdual ⊢
  have hyield (b : Bool) : HbKept s { u with lht.yielded := b } := hdual.trans (hbKept_of_regs rfl rfl)
  split
  · exact (hyield _).trans (hbKept_goStale _)
  · exact hyield _

theorem hbKept_hbActive (s : State) (h : Hb) : HbKept s (s.hbActive h) := by
  unfold State.hbActive
  dsimp only
  generalize (h.mode == 2 || h.mode == 4) = dual
  have hdual := hbKept_setLh s "DUAL_ACTIVE" dual
  generalize s.setLh "DUAL_ACTIVE" dual = u at hdual ⊢
  have hevent : HbKept s (if dual then u.event (leafOf 17 3) 0 else u) := by
    split
    · exact hdual.trans (hbKept_event u (by decide) 0)
    · exact hdual
  generalize (if dual then u.event (leafOf 17 3) 0 else u) = v at hevent ⊢
  have hpeer := hevent.trans (hbKept_wr v (a := Reg.lhtHealthPeer) (by decide) h.health)
  generalize v.wr Reg.lhtHealthPeer h.health = w at hpeer ⊢
  split
  · split
    · refine (hpeer.trans ((hbKept_syncIdle w).trans (hbKept_syncEnd _ .done))).trans ?_
      exact hbKept_of_regs rfl rfl
    · exact hpeer
  · split
    · exact hpeer.trans (hbKept_syncStart w)
    · exact hpeer

/-- A device outside a role hears nothing, and counts what is not valid. -/
theorem hbReceive_of_no_role {s : State} (hactive : s.lhActive = false) (hstandby : s.lhStandby = false) (rhb : Bool) (src : Nat)
    (bytes : List Byte) : s.hbReceive rhb src bytes = s := by
  unfold State.hbReceive
  rw [hactive, hstandby]
  rfl

theorem hbReceive_of_bad {s : State} (hrole : s.lhActive = true ∨ s.lhStandby = true) {rhb : Bool} {src : Nat} {bytes : List Byte}
    (hbad : ((hbOf bytes).all fun h => !s.hbValid rhb src h) = true) : s.hbReceive rhb src bytes = s.bump Reg.lhtHbBad := by
  unfold State.hbReceive
  rw [if_neg (by rcases hrole with h | h <;> simp [h])]
  cases hb : hbOf bytes with
  | none => rfl
  | some h =>
    rw [hb, Option.all_some] at hbad
    exact if_pos hbad

/-- A valid heartbeat is counted on its path and told (R311). -/
theorem hbReceive_good {s : State} (hrole : s.lhActive = true ∨ s.lhStandby = true) {rhb : Bool} {src : Nat} {bytes : List Byte}
    {h : Hb} (hb : hbOf bytes = some h) (hvalid : s.hbValid rhb src h = true) :
    ((s.hbReceive rhb src bytes).lhPath (ofBool rhb)).got = true ∧
      ((s.hbReceive rhb src bytes).lhPath (ofBool rhb)).ref = some (h.session, h.seq) ∧
      (s.hbReceive rhb src bytes).lht.peerMode = some h.mode ∧ (s.hbReceive rhb src bytes).lht.peerSession = some h.session ∧
      (s.hbReceive rhb src bytes).lht.peerGen = h.gen ∧
      (s.hbReceive rhb src bytes).rd (if rhb then Reg.lhtHbRxRhb else Reg.lhtHbRxLh) =
        satAdd (s.rd (if rhb then Reg.lhtHbRxRhb else Reg.lhtHbRxLh)) 1 := by
  have hmem : (if rhb then Reg.lhtHbRxRhb else Reg.lhtHbRxLh) ∈ hbCounters := by
    cases rhb <;> decide
  generalize hc : (if rhb then Reg.lhtHbRxRhb else Reg.lhtHbRxLh) = c at hmem ⊢
  unfold State.hbReceive
  rw [if_neg (by rcases hrole with h | h <;> simp [h]), hb]
  dsimp only
  rw [if_neg (by simp [hvalid]), hc]
  have hgot : ∀ q, (((s.setLhPath (ofBool rhb) { s.lhPath (ofBool rhb) with got := true, ref := some (h.session, h.seq) }).bump c).lhPath
      q) = if q = ofBool rhb then { s.lhPath (ofBool rhb) with got := true, ref := some (h.session, h.seq) } else s.lhPath q :=
    fun q => lhPath_setLhPath s (ofBool rhb) q _
  have hcount : ((s.setLhPath (ofBool rhb) { s.lhPath (ofBool rhb) with got := true, ref := some (h.session, h.seq) }).bump c).rd c =
      satAdd (s.rd c) 1 := (State.rd_bump _ c c).trans (if_pos rfl)
  generalize (s.setLhPath (ofBool rhb) { s.lhPath (ofBool rhb) with got := true, ref := some (h.session, h.seq) }).bump c = u
    at hgot hcount ⊢
  have hkept : HbKept u (if u.lhActive then u.hbActive h else u.hbStandby h) := by
    split
    · exact hbKept_hbActive u h
    · exact hbKept_hbStandby u h
  generalize (if u.lhActive then u.hbActive h else u.hbStandby h) = v at hkept ⊢
  have hpath := hkept.1 (ofBool rhb)
  rw [hgot, if_pos rfl] at hpath
  exact ⟨hpath.1, hpath.2, rfl, rfl, rfl, (hkept.2 c hmem).trans hcount⟩

end Sys2Proof.Machine
end

section
/-!
PROOFS. State copy, map copies, health and the witness (R309, R315 to R322, R327).
-/
open Sys2Proof.Safety
namespace Sys2Proof.Machine

/-! ### The link and the stream -/

/-- LINK returns, and the active device sends what is held (R309, R316). -/
def State.linkReturn (s : State) : State :=
  if (s.setBit Reg.lhtStatus 31 true).lhActive then (s.setBit Reg.lhtStatus 31 true).sendHeld else s.setBit Reg.lhtStatus 31 true

theorem linkReturn_shown (s : State) :
    s.linkReturn.bit Reg.lhtStatus 31 = true ∧
      (s.lhActive = true → s.linkReturn.lht.held = [] ∧ s.linkReturn.out.length = s.out.length + s.lht.held.length) ∧
      RegsBut [Reg.lhtStatus] s s.linkReturn := by
  have hup : (s.setBit Reg.lhtStatus 31 true).bit Reg.lhtStatus 31 = true := by
    rw [State.bit, State.rd_setBit, if_pos rfl, Machine.bit_setBit_self _ (by decide)]
  have hother := regsBut_setBit s Reg.lhtStatus 31 true
  have hactive : (s.setBit Reg.lhtStatus 31 true).lhActive = s.lhActive := by
    have hctrl : (s.setBit Reg.lhtStatus 31 true).bit Reg.lhtCtrl 0 = s.bit Reg.lhtCtrl 0 :=
      congrArg (Machine.bit · 0) (hother _ (by decide))
    unfold State.lhActive State.lhtOn
    rw [hctrl]
    rfl
  have hheld : (s.setBit Reg.lhtStatus 31 true).lht.held = s.lht.held := rfl
  have hout : (s.setBit Reg.lhtStatus 31 true).out = s.out := rfl
  unfold State.linkReturn
  rw [hactive]
  generalize s.setBit Reg.lhtStatus 31 true = u at hup hother hheld hout ⊢
  split
  · have hpath : u.pathUp 0 = true := hup
    obtain ⟨_, hregs, hcopies⟩ := copiesOut_frame u u.lht.held
    rw [sendHeld_eq, if_pos (by rw [State.anyPath, hpath]; rfl)]
    refine ⟨(State.bit_of_regs hregs _ _).trans hup, fun _ => ⟨rfl, ?_⟩, fun a ha => (State.rd_of_regs hregs a).trans (hother a ha)⟩
    rw [← hheld, ← hout]
    exact hcopies hpath
  · next h => exact ⟨hup, fun hact => absurd hact h, hother⟩

/-- The registers of the stream as the engine counts it. -/
def State.streamCounted (s : State) (kib row journal : Nat) : State :=
  ((s.setProgress .bulkSync kib).wrNat (Reg.lhtSyncOpPartial 0) row).wrNat (Reg.lhtSyncOpPartial 1) journal

theorem streamCounted_shown (s : State) (kib row journal : Nat) :
    (s.streamCounted kib row journal).progress .bulkSync = kib % 2 ^ 24 ∧
      (s.streamCounted kib row journal).rd (Reg.lhtSyncOpPartial 0) = BitVec.ofNat 32 row ∧
      (s.streamCounted kib row journal).rd (Reg.lhtSyncOpPartial 1) = BitVec.ofNat 32 journal ∧
      RegsBut [opStat .bulkSync, Reg.lhtSyncOpPartial 0, Reg.lhtSyncOpPartial 1] s (s.streamCounted kib row journal) := by
  unfold State.streamCounted State.setProgress
  refine ⟨?_, ?_, State.rd_wr_self _ _ _, fun a ha => ?_⟩
  · rw [State.progress, State.fld, State.rd_wrNat, if_neg (by decide), State.rd_wrNat, if_neg (by decide)]
    exact State.fld_setFld_self s _ (by decide) (by decide) kib
  · rw [State.rd_wrNat, if_neg (by decide), State.rd_wrNat, if_pos rfl]
  · simp only [List.mem_cons, List.not_mem_nil, or_false, not_or] at ha
    obtain ⟨hstat, hrow, hjournal⟩ := ha
    rw [State.rd_wrNat, if_neg hjournal, State.rd_wrNat, if_neg hrow, State.rd_setFld, if_neg hstat]

theorem streamEnd_of_idle {s : State} (h : s.busy .bulkSync = false) (kib row journal : Nat) (recs : List CopyRec)
    (kcv : Option Word) : s.streamEnd kib row journal recs kcv = s := by
  unfold State.streamEnd
  rw [h]
  rfl

/-- The journal that follows the stream, as the active device sends it. -/
def State.journalOut (s : State) : State :=
  ({ s with lht.shadow := if s.lht.flowing then s.lht.shadow else s.copied } : State).copyOut 1 s.lht.incSeq
    (s.journalFrom ((s.lht.sync.map fun r => r.base).getD s.copied) s.copied)

theorem journalOut_of_up {s : State} (hup : s.pathUp 0 = true) :
    s.journalOut = ({ s with lht.shadow := if s.lht.flowing then s.lht.shadow else s.copied } : State).emit
      (.stateCopy 1 s.lht.incSeq (s.journalFrom ((s.lht.sync.map fun r => r.base).getD s.copied) s.copied)) :=
  (copyOut_frame _ 1 _ _).2.2 hup

theorem streamEnd_of_busy {s : State} (h : s.busy .bulkSync = true) (kib row journal : Nat) (recs : List CopyRec)
    (kcv : Option Word) :
    s.streamEnd kib row journal recs kcv =
      if ({ s.streamCounted kib row journal with lht.peerKcv := kcv } : State).serving then
        ({ s.streamCounted kib row journal with lht.peerKcv := kcv } : State).journalOut
      else
        ({ s.streamCounted kib row journal with
            lht.peerKcv := kcv, lht.slots := s.lht.slots.set (fun _ => []) (1 - s.lht.slot) recs } : State).memWrite 2 := by
  unfold State.streamEnd
  rw [h]
  rfl

/-- The standby holds the stream in the slot without the committed generation (R315). -/
theorem streamEnd_standby {s : State} (hbusy : s.busy .bulkSync = true) (hserving : s.serving = false) (kib row journal : Nat)
    (recs : List CopyRec) (kcv : Option Word) :
    (s.streamEnd kib row journal recs kcv).progress .bulkSync = kib % 2 ^ 24 ∧
      (s.streamEnd kib row journal recs kcv).rd (Reg.lhtSyncOpPartial 0) = BitVec.ofNat 32 row ∧
      (s.streamEnd kib row journal recs kcv).rd (Reg.lhtSyncOpPartial 1) = BitVec.ofNat 32 journal ∧
      (s.streamEnd kib row journal recs kcv).lht.peerKcv = kcv ∧
      (s.streamEnd kib row journal recs kcv).lht.slots.get (fun _ => []) (1 - s.lht.slot) = recs ∧
      (s.streamEnd kib row journal recs kcv).out = s.out ∧
      RegsBut [opStat .bulkSync, Reg.lhtSyncOpPartial 0, Reg.lhtSyncOpPartial 1, Reg.chkInj] s
        (s.streamEnd kib row journal recs kcv) := by
  obtain ⟨hprogress, hrow, hjournal, hother⟩ := streamCounted_shown s kib row journal
  rw [streamEnd_of_busy hbusy, if_neg (by
    have hsame : ({ s.streamCounted kib row journal with lht.peerKcv := kcv } : State).serving = s.serving := rfl
    rw [hsame, hserving]
    exact Bool.false_ne_true)]
  have hout : (s.streamCounted kib row journal).out = s.out := rfl
  generalize s.streamCounted kib row journal = u at hprogress hrow hjournal hother hout ⊢
  obtain ⟨hmem, hinj⟩ := State.onlyRegs_memWrite ({ u with
    lht.peerKcv := kcv, lht.slots := s.lht.slots.set (fun _ => []) (1 - s.lht.slot) recs } : State) 2
  have hrd : ∀ a, a ≠ Reg.chkInj → (({ u with
      lht.peerKcv := kcv, lht.slots := s.lht.slots.set (fun _ => []) (1 - s.lht.slot) recs } : State).memWrite 2).rd a = u.rd a :=
    fun a ha => hinj a (by simpa using ha)
  refine ⟨?_, (hrd _ (by decide)).trans hrow, (hrd _ (by decide)).trans hjournal, ?_, ?_, ?_, fun a ha => ?_⟩
  · rw [State.progress, State.fld, hrd _ (by decide)]
    exact hprogress
  · rw [hmem]
  · rw [hmem]
    exact SMap.get_set_self _ _ _ _
  · rw [hmem]
    exact hout
  · simp only [List.mem_cons, List.not_mem_nil, or_false, not_or] at ha
    obtain ⟨h1, h2, h3, h4⟩ := ha
    rw [hrd a h4]
    exact hother a (by simp [h1, h2, h3])

/-- The active device sends the journal (R315). -/
theorem streamEnd_active {s : State} (hbusy : s.busy .bulkSync = true) (hserving : s.serving = true) (hup : s.pathUp 0 = true)
    (kib row journal : Nat) (recs : List CopyRec) (kcv : Option Word) :
    (s.streamEnd kib row journal recs kcv).progress .bulkSync = kib % 2 ^ 24 ∧
      (s.streamEnd kib row journal recs kcv).rd (Reg.lhtSyncOpPartial 0) = BitVec.ofNat 32 row ∧
      (s.streamEnd kib row journal recs kcv).rd (Reg.lhtSyncOpPartial 1) = BitVec.ofNat 32 journal ∧
      (s.streamEnd kib row journal recs kcv).lht.peerKcv = kcv ∧
      (s.streamEnd kib row journal recs kcv).out.length = s.out.length + 1 ∧
      RegsBut [opStat .bulkSync, Reg.lhtSyncOpPartial 0, Reg.lhtSyncOpPartial 1] s (s.streamEnd kib row journal recs kcv) := by
  obtain ⟨hprogress, hrow, hjournal, hother⟩ := streamCounted_shown s kib row journal
  rw [streamEnd_of_busy hbusy, if_pos (by
    have hsame : ({ s.streamCounted kib row journal with lht.peerKcv := kcv } : State).serving = s.serving := rfl
    rw [hsame, hserving])]
  have hout : (s.streamCounted kib row journal).out = s.out := rfl
  have hlink : (s.streamCounted kib row journal).pathUp 0 = true := by
    rw [State.pathUp, if_pos rfl, State.bit, hother _ (by decide)]
    exact hup
  generalize s.streamCounted kib row journal = u at hprogress hrow hjournal hother hout hlink ⊢
  have hjournalOut : ({ u with lht.peerKcv := kcv } : State).journalOut.regs = u.regs ∧
      ({ u with lht.peerKcv := kcv } : State).journalOut.lht.peerKcv = kcv ∧
      ({ u with lht.peerKcv := kcv } : State).journalOut.out.length = u.out.length + 1 := by
    rw [journalOut_of_up (s := { u with lht.peerKcv := kcv }) hlink]
    exact ⟨rfl, rfl, List.length_append⟩
  generalize ({ u with lht.peerKcv := kcv } : State).journalOut = t at hjournalOut ⊢
  obtain ⟨hregs, hkcv, hlen⟩ := hjournalOut
  have hrd := State.rd_of_regs hregs
  exact ⟨(congrArg (Machine.fld · 23 0) (hrd _)).trans hprogress, (hrd _).trans hrow, (hrd _).trans hjournal, hkcv,
    hlen.trans (by rw [hout]), fun a ha => (hrd a).trans (hother a ha)⟩

/-! ### SNAPSHOT_COMMIT -/

/-- A write under an empty mask changes nothing. -/
theorem masked_zero (w v : Word) : ((w &&& ~~~(0#32)) ||| (v &&& 0#32)) = w := by
  rw [BitVec.and_zero, BitVec.or_zero, BitVec.not_zero, BitVec.and_allOnes]

/-- A record of the copy is no write of SNAP_GEN. -/
theorem rd_snapGen_applyRec (s : State) (r : CopyRec) : (s.applyRec r).rd Reg.lhtSnapGen = s.rd Reg.lhtSnapGen := by
  have htable : ∀ u, TableStep s u → u.rd Reg.lhtSnapGen = s.rd Reg.lhtSnapGen := fun u h =>
    h.regs _ (by unfold eventReg; decide) (by decide)
  unfold State.applyRec
  dsimp only
  split
  · rw [State.rd_wr]
    split
    · next h =>
      have hmask : copiedMask r.key = 0 := by
        rw [← h]
        decide
      rw [hmask, h]
      exact masked_zero _ _
    · rfl
  · rfl
  · unfold State.emTake
    split
    · exact htable _ (tableStep_setSlot s false _ _)
    · exact htable _ (tableStep_hashPlace s false _)
    · exact htable _ (tableStep_setSlot s false _ _)
    · rfl
  · split
    · exact htable _ (tableStep_lpmDrop s _)
    · exact htable _ (tableStep_lpmPut s _ _)
  iterate 12
    · rfl
  iterate 2
    · split
      · split <;> rfl
      · rfl
  · rfl

theorem rd_snapGen_held {s t : State} (h : ModeHeld s t) : t.rd Reg.lhtSnapGen = s.rd Reg.lhtSnapGen := h.2.1 _ (by decide)

theorem rd_snapGen_applyRecs (s : State) (l : List CopyRec) : (s.applyRecs l).rd Reg.lhtSnapGen = s.rd Reg.lhtSnapGen := by
  unfold State.applyRecs
  rw [rd_snapGen_held (modeHeld_ponFollowAll _)]
  induction l generalizing s with
  | nil => rfl
  | cons r l ih => exact (ih _).trans (rd_snapGen_applyRec s r)

theorem rd_snapGen_clearCopied (s : State) : s.clearCopied.rd Reg.lhtSnapGen = s.rd Reg.lhtSnapGen := by
  have hregs : (s.each ((s.regs.filter fun e => copiedMask e.1 != 0).map Prod.fst) fun a s => s.applyRec ⟨0, a, []⟩).rd
      Reg.lhtSnapGen = s.rd Reg.lhtSnapGen :=
    State.each_induct (P := fun u => u.rd Reg.lhtSnapGen = s.rd Reg.lhtSnapGen) rfl fun _ _ u hu =>
      (rd_snapGen_applyRec u _).trans hu
  unfold State.clearCopied
  generalize (s.each ((s.regs.filter fun e => copiedMask e.1 != 0).map Prod.fst) fun a s => s.applyRec ⟨0, a, []⟩) = u at hregs ⊢
  exact hregs

theorem modeHeld_onusFollow (s : State) (old : SMap Onu) : ModeHeld s (s.onusFollow old) := by
  unfold State.onusFollow
  refine .each _ fun k _ u => ?_
  dsimp only
  have hleave : ModeHeld u (if (old.get (fun _ => {}) k).active && !(u.act.onus.get (fun _ => {}) k).active then
      u.exchLeave (k / 1024) (k % 1024) else u) := by
    split
    · exact modeHeld_exchLeave u _ _
    · exact .refl u
  split
  · exact hleave.trans (modeHeld_keysFree _ _ _)
  · exact hleave

/-- The slot and the increments that follow it, as a commit makes them the standby's state. -/
def State.snapApply (s : State) (all : List CopyRec) : State := (s.clearCopied.applyRecs all).onusFollow s.act.onus

theorem rd_snapGen_snapApply (s : State) (all : List CopyRec) : (s.snapApply all).rd Reg.lhtSnapGen = s.rd Reg.lhtSnapGen :=
  ((rd_snapGen_held (modeHeld_onusFollow _ _)).trans (rd_snapGen_applyRecs _ _)).trans (rd_snapGen_clearCopied s)

/-- The generation that a commit shows, and what it makes of the pair's record. -/
def State.snapShow (s : State) (slot : Nat) (all : List CopyRec) (seq : Nat) (keys : Bool) : State :=
  let s2 := { s with lht.slots := s.lht.slots.set (fun _ => []) slot all, lht.slot := slot, lht.sync := none,
                     lht.incSeq := seq, lht.keysIn := keys }
  ((((s2.wr Reg.lhtSnapGen (s2.rd Reg.lhtSnapGen + 1)).wrNat Reg.lhtIncSeq seq).setLh "SNAP_VALID" true).setLh "STALE" false).setLh
    "PARTIAL_STALE" false

theorem snapCommit_of_staged {s : State} {r : SyncRun} (hsync : s.lht.sync = some r) (hstage : r.staging = true)
    (hstandby : s.lhStandby = true) (recs : List CopyRec) (seq : Nat) :
    s.snapCommit recs seq =
      ((s.snapApply (s.lht.slots.get (fun _ => []) (1 - s.lht.slot) ++ recs ++ (incsFrom r.since r.since.length seq).1)).snapShow
        (1 - s.lht.slot) (s.lht.slots.get (fun _ => []) (1 - s.lht.slot) ++ recs ++ (incsFrom r.since r.since.length seq).1)
        (incsFrom r.since r.since.length seq).2 s.keysMatch).opEnd .bulkSync .done := by
  unfold State.snapCommit
  rw [hsync]
  dsimp only
  rw [if_neg (by simp [hstage, hstandby])]
  rfl

theorem snapCommit_of_unstaged {s : State} (h : s.lhStandby = false ∨ ((s.lht.sync.map fun r => !r.staging).getD true) = true)
    (recs : List CopyRec) (seq : Nat) : s.snapCommit recs seq = s := by
  unfold State.snapCommit
  cases hsync : s.lht.sync with
  | none => rfl
  | some r =>
    rw [hsync, Option.map_some, Option.getD_some] at h
    dsimp only
    rw [if_pos (by rcases h with h | h <;> simp_all)]

section
variable (s : State) (slot : Nat) (all : List CopyRec) (seq : Nat) (keys : Bool)

theorem rd_snapShow {a : Nat} (hstatus : a ≠ Reg.lhtStatus) :
    (s.snapShow slot all seq keys).rd a =
      if a = Reg.lhtIncSeq then BitVec.ofNat 32 seq else if a = Reg.lhtSnapGen then s.rd Reg.lhtSnapGen + 1 else s.rd a := by
  unfold State.snapShow State.setLh
  dsimp only
  rw [State.rd_setBit, if_neg hstatus, State.rd_setBit, if_neg hstatus, State.rd_setBit, if_neg hstatus, State.rd_wrNat, State.rd_wr]
  rfl

theorem bit_snapShow :
    (s.snapShow slot all seq keys).bit Reg.lhtStatus 23 = true ∧ (s.snapShow slot all seq keys).bit Reg.lhtStatus 26 = false ∧
      (s.snapShow slot all seq keys).bit Reg.lhtStatus 25 = false := by
  unfold State.snapShow
  dsimp only
  refine ⟨?_, ?_, ?_⟩
  · exact (bit_setLh _ _ _ _).trans ((if_neg (by decide)).trans ((bit_setLh _ _ _ _).trans ((if_neg (by decide)).trans
      ((bit_setLh _ "SNAP_VALID" true 23).trans (if_pos rfl)))))
  · exact (bit_setLh _ _ _ _).trans ((if_neg (by decide)).trans ((bit_setLh _ "STALE" false 26).trans (if_pos rfl)))
  · exact (bit_setLh _ "PARTIAL_STALE" false 25).trans (if_pos rfl)

theorem lht_snapShow :
    (s.snapShow slot all seq keys).lht.slot = slot ∧ (s.snapShow slot all seq keys).lht.sync = none ∧
      (s.snapShow slot all seq keys).lht.incSeq = seq ∧
      (s.snapShow slot all seq keys).lht.slots.get (fun _ => []) slot = all :=
  ⟨rfl, rfl, rfl, SMap.get_set_self _ _ _ _⟩

end

theorem fld_opStatEnd_done (w : Word) : Machine.fld (opStatEnd w .done) 31 24 = 0x40 :=
  Machine.fld_setFld_self w (by decide) (by decide) 0x40

theorem fld_opStatEnd_failed (w : Word) : Machine.fld (opStatEnd w (.failed 9)) 31 24 = 0x19 :=
  Machine.fld_setFld_self w (by decide) (by decide) 0x19

/-- The standby flips to the slot (R315). -/
theorem snapCommit_shown {s : State} {r : SyncRun} (hsync : s.lht.sync = some r) (hstage : r.staging = true)
    (hstandby : s.lhStandby = true) (recs : List CopyRec) (seq : Nat) :
    (s.snapCommit recs seq).rd Reg.lhtSnapGen = s.rd Reg.lhtSnapGen + 1 ∧ (s.snapCommit recs seq).lhStatus "SNAP_VALID" = true ∧
      (s.snapCommit recs seq).lhStatus "STALE" = false ∧ (s.snapCommit recs seq).lhStatus "PARTIAL_STALE" = false ∧
      (s.snapCommit recs seq).lht.slot = 1 - s.lht.slot ∧ (s.snapCommit recs seq).lht.sync = none ∧
      (s.snapCommit recs seq).lht.incSeq = (incsFrom r.since r.since.length seq).2 ∧
      (r.since = [] → (s.snapCommit recs seq).rd Reg.lhtIncSeq = BitVec.ofNat 32 seq) ∧
      (s.snapCommit recs seq).lht.slots.get (fun _ => []) (1 - s.lht.slot) =
        s.lht.slots.get (fun _ => []) (1 - s.lht.slot) ++ recs ++ (incsFrom r.since r.since.length seq).1 ∧
      (s.snapCommit recs seq).fld (opStat .bulkSync) 31 24 = 0x40 := by
  rw [snapCommit_of_staged hsync hstage hstandby]
  generalize hall : s.lht.slots.get (fun _ => []) (1 - s.lht.slot) ++ recs ++ (incsFrom r.since r.since.length seq).1 = all
  have hseq : r.since = [] → (incsFrom r.since r.since.length seq).2 = seq := fun h => by
    rw [h]
    rfl
  have hgen := rd_snapGen_snapApply s all
  generalize (incsFrom r.since r.since.length seq).2 = last at hseq ⊢
  generalize s.snapApply all = u at hgen ⊢
  have hrd := fun {a : Nat} => rd_snapShow u (1 - s.lht.slot) all last s.keysMatch (a := a)
  obtain ⟨hvalid, hstale, hpartial⟩ := bit_snapShow u (1 - s.lht.slot) all last s.keysMatch
  obtain ⟨hslot, hnone, hinc, hslots⟩ := lht_snapShow u (1 - s.lht.slot) all last s.keysMatch
  generalize u.snapShow (1 - s.lht.slot) all last s.keysMatch = v at hrd hvalid hstale hpartial hslot hnone hinc hslots ⊢
  have hlht := (linked_opEnd v .bulkSync .done).lht
  have hkeep : ∀ a, apartReg a → a ≠ opStat .bulkSync → (v.opEnd .bulkSync .done).rd a = v.rd a := fun a ha hne =>
    rd_opEnd_other v .bulkSync .done hne ha.1
  have hstatus : ∀ i, (v.opEnd .bulkSync .done).bit Reg.lhtStatus i = v.bit Reg.lhtStatus i := fun i =>
    congrArg (Machine.bit · i) (hkeep _ lhtStatus_apart (by decide))
  refine ⟨?_, (hstatus _).trans hvalid, (hstatus _).trans hstale, (hstatus _).trans hpartial, by rw [hlht]; exact hslot,
    by rw [hlht]; exact hnone, by rw [hlht]; exact hinc, fun h => ?_, by rw [hlht]; exact hslots, ?_⟩
  · rw [hkeep _ (apartReg_modeRegs _ (by decide)) (by decide), hrd (by decide), if_neg (by decide), if_pos rfl, hgen]
  · rw [hkeep _ (by unfold apartReg eventReg; decide) (by decide), hrd (by decide), if_pos rfl, hseq h]
  · rw [State.fld, rd_opEnd_opStat]
    exact fld_opStatEnd_done _

/-- A stream that does not fit ends the sync with REASON 9. -/
def State.slotFull (s : State) : State := { (s.opIdle .bulkSync).opEnd .bulkSync (.failed 9) with lht.sync := none }

theorem slotFull_shown (s : State) : s.slotFull.fld (opStat .bulkSync) 31 24 = 0x19 ∧ s.slotFull.lht.sync = none := by
  have hend : ((s.opIdle .bulkSync).opEnd .bulkSync (.failed 9)).fld (opStat .bulkSync) 31 24 = 0x19 := by
    rw [State.fld, rd_opEnd_opStat]
    exact fld_opStatEnd_failed _
  unfold State.slotFull
  generalize (s.opIdle .bulkSync).opEnd .bulkSync (.failed 9) = u at hend ⊢
  exact ⟨hend, rfl⟩

end Sys2Proof.Machine
end

section
/-!
PROOFS. Increments, map copies, health and the witness (O50; R316 to R322, R327).
-/
open Sys2Proof.Safety
namespace Sys2Proof.Machine

/-! ### Increments -/

theorem incKeep_of_no_sync {s : State} (h : s.lht.sync = none) (seq : Nat) (recs : List CopyRec) : s.incKeep seq recs = s := by
  unfold State.incKeep
  rw [h]
  exact congrArg (fun x => ({ s with lht.sync := x } : State)) h.symm

section
variable {s : State} {seq : Nat} (recs : List CopyRec)

theorem incTake_of_refused
    (h : s.lhStandby = false ∨ s.lhStatus "SNAP_VALID" = false ∨ s.lhStatus "STALE" = true ∨ seq ≤ s.lht.incSeq) :
    s.incTake seq recs = s := by
  unfold State.incTake
  rw [if_pos]
  rcases h with h | h | h | h
  · simp [h]
  · simp [h]
  · simp [h]
  · simp [h]

variable (hstandby : s.lhStandby = true) (hvalid : s.lhStatus "SNAP_VALID" = true) (hstale : s.lhStatus "STALE" = false)
include hstandby hvalid hstale

theorem incTake_of_next (hseq : seq = s.lht.incSeq + 1) :
    s.incTake seq recs = { ((s.applyRecs recs).onusFollow s.act.onus).wrNat Reg.lhtIncSeq seq with lht.incSeq := seq } := by
  unfold State.incTake
  rw [if_neg (by simp [hstandby, hvalid, hstale, hseq]), if_pos hseq]

theorem incTake_of_gap (hseq : s.lht.incSeq + 1 < seq) :
    s.incTake seq recs = (s.bumpBy Reg.lhtIncGap (seq - s.lht.incSeq - 1)).goStale := by
  unfold State.incTake
  rw [if_neg (by simp [hstandby, hvalid, hstale]; omega), if_neg (by omega)]

/-- The next increment is applied whole (R316). -/
theorem incTake_next_shown (hseq : seq = s.lht.incSeq + 1) :
    (s.incTake seq recs).lht.incSeq = seq ∧ (s.incTake seq recs).rd Reg.lhtIncSeq = BitVec.ofNat 32 seq := by
  rw [incTake_of_next recs hstandby hvalid hstale hseq]
  generalize (s.applyRecs recs).onusFollow s.act.onus = u
  exact ⟨rfl, State.rd_wr_self u Reg.lhtIncSeq _⟩

/-- A later increment shows what is missing (R318). -/
theorem incTake_gap_shown (hseq : s.lht.incSeq + 1 < seq) :
    (s.incTake seq recs).lhStatus "STALE" = true ∧
      (s.incTake seq recs).rd Reg.lhtIncGap = satAdd (s.rd Reg.lhtIncGap) (seq - s.lht.incSeq - 1) ∧
      Raised (leafOf 17 7) (s.incTake seq recs) ∧ (s.incTake seq recs).lht.incSeq = s.lht.incSeq := by
  rw [incTake_of_gap recs hstandby hvalid hstale hseq]
  generalize seq - s.lht.incSeq - 1 = gap
  have hbit : ¬ (s.bumpBy Reg.lhtIncGap gap).bit Reg.lhtStatus 26 = true := by
    rw [State.bit, State.rd_bumpBy, if_neg (by decide)]
    exact fun h => Bool.noConfusion (hstale.symm.trans h)
  have hlht : (s.bumpBy Reg.lhtIncGap gap).lht = s.lht := rfl
  have hgap : (s.bumpBy Reg.lhtIncGap gap).rd Reg.lhtIncGap = satAdd (s.rd Reg.lhtIncGap) gap := by
    rw [State.rd_bumpBy, if_pos rfl]
  generalize s.bumpBy Reg.lhtIncGap gap = u at hbit hlht hgap ⊢
  rw [State.goStale, if_neg hbit]
  refine ⟨?_, ?_, raised_raise _ _ _ _ _ _, ?_⟩
  · have hset : ((u.setBit Reg.lhtStatus 26 true).event (leafOf 17 7) 0).bit Reg.lhtStatus 26 = true := by
      rw [State.bit, rd_event (by decide) _ lhtStatus_apart, State.rd_setBit, if_pos rfl, Machine.bit_setBit_self _ (by decide)]
    exact hset
  · rw [rd_event (by decide) _ (by unfold apartReg eventReg; decide), State.rd_setBit, if_neg (by decide), hgap]
  · rw [(linked_event _ _ _).lht, ← hlht]
    rfl

end

/-- What is kept for the commit changes the pair's record of the sync alone. -/
theorem incKeep_frame (s : State) (seq : Nat) (recs : List CopyRec) :
    (s.incKeep seq recs).lhStandby = s.lhStandby ∧ (∀ name, (s.incKeep seq recs).lhStatus name = s.lhStatus name) ∧
      (s.incKeep seq recs).lht.incSeq = s.lht.incSeq ∧ ∀ a, (s.incKeep seq recs).rd a = s.rd a :=
  ⟨rfl, fun _ => rfl, rfl, fun _ => rfl⟩

/-! ### Map copies (R319) -/

theorem mapCopy_of_late {s : State} {f : Nat} (hstandby : s.lhStandby = true) (hf : f ≤ s.chrono.ponSf) (j : Nat)
    (bs : List Burst) : s.mapCopy j f bs = s.bump Reg.lhtMapLate := by
  unfold State.mapCopy
  rw [hstandby]
  exact if_pos hf

theorem mapCopy_of_no_role {s : State} (h : s.lhStandby = false) (j f : Nat) (bs : List Burst) : s.mapCopy j f bs = s := by
  unfold State.mapCopy
  rw [h]
  rfl

/-- A timely copy is the newest of its channel. -/
theorem mapCopy_shown {s : State} {f : Nat} (hstandby : s.lhStandby = true) (hf : s.chrono.ponSf < f) (j : Nat) (bs : List Burst) :
    ((s.mapCopy j f bs).guides j).head? = some
        { f := f, bursts := bs.map (fun b => { b with st := .waiting, tried := none }), done := true, taken := true,
          teq := s.teq (j / 2) } ∧
      SameBut State.guides [j] s (s.mapCopy j f bs) ∧ (s.mapCopy j f bs).regs = s.regs := by
  unfold State.mapCopy
  rw [hstandby, if_neg (by decide), if_neg (Nat.not_le.mpr hf)]
  dsimp only
  generalize hm : ({ f := f, bursts := bs.map (fun b => { b with st := .waiting, tried := none }), done := true, taken := true,
                     teq := s.teq (j / 2) } : PonMap) = m
  have hkept : ((m :: s.guides j).take mapsKept).head? = some m := rfl
  generalize (m :: s.guides j).take mapsKept = l at hkept ⊢
  have hself : ({ s with lht.guides := s.lht.guides.set (fun _ => []) j l } : State).guides j = l := SMap.get_set_self _ _ _ _
  have hother : SameBut State.guides [j] s { s with lht.guides := s.lht.guides.set (fun _ => []) j l } := fun k hk =>
    SMap.get_set_other _ _ _ _ _ (by simpa using hk)
  generalize s.lht.guides.set (fun _ => []) j l = maps at hself hother ⊢
  split
  · exact ⟨(congrArg List.head? hself).trans hkept, hother, rfl⟩
  · exact ⟨(congrArg List.head? hself).trans hkept, hother, rfl⟩

/-! ### Health (R327) -/

/-- LHT_HEALTH_LOCAL as an evaluation makes it. -/
def healthWord (ok snap keys mem rails rx : Bool) (ports others : Nat) : Nat :=
  ofBool ok * 2 ^ 31 + ofBool snap * 2 ^ 30 + ofBool keys * 2 ^ 29 + ofBool mem * 2 ^ 28 + ofBool rails * 2 ^ 27 +
    ofBool rx * 2 ^ 26 + ports * 2 ^ 16 + Nat.min 65535 others

theorem healthFlags : ∀ ok snap keys mem rails rx : Bool,
    (ofBool ok * 32 + ofBool snap * 16 + ofBool keys * 8 + ofBool mem * 4 + ofBool rails * 2 + ofBool rx).testBit 5 = ok ∧
      (ofBool ok * 32 + ofBool snap * 16 + ofBool keys * 8 + ofBool mem * 4 + ofBool rails * 2 + ofBool rx).testBit 4 = snap ∧
      (ofBool ok * 32 + ofBool snap * 16 + ofBool keys * 8 + ofBool mem * 4 + ofBool rails * 2 + ofBool rx).testBit 2 = mem ∧
      (ofBool ok * 32 + ofBool snap * 16 + ofBool keys * 8 + ofBool mem * 4 + ofBool rails * 2 + ofBool rx).testBit 1 = rails ∧
      (ofBool ok * 32 + ofBool snap * 16 + ofBool keys * 8 + ofBool mem * 4 + ofBool rails * 2 + ofBool rx).testBit 0 = rx := by
  decide

theorem healthWord_div (ok snap keys mem rails rx : Bool) {ports : Nat} (hports : ports ≤ 48) (others : Nat) :
    healthWord ok snap keys mem rails rx ports others / 2 ^ 26 =
      ofBool ok * 32 + ofBool snap * 16 + ofBool keys * 8 + ofBool mem * 4 + ofBool rails * 2 + ofBool rx := by
  unfold healthWord
  rw [natMin_eq]
  generalize ofBool ok = a
  generalize ofBool snap = b
  generalize ofBool keys = c
  generalize ofBool mem = d
  generalize ofBool rails = e
  generalize ofBool rx = f
  have hmin : min 65535 others ≤ 65535 := Nat.min_le_left _ _
  generalize min 65535 others = m at hmin
  omega

theorem bit_ofNat (n : Nat) {i : Nat} (hi : i < 32) (hlo : 26 ≤ i) :
    Machine.bit (BitVec.ofNat 32 n) i = (n / 2 ^ 26).testBit (i - 26) := by
  rw [Machine.bit, BitVec.getLsbD_ofNat, Nat.testBit_div_two_pow, Nat.sub_add_cancel hlo, decide_eq_true hi, Bool.true_and]

/-- The flags of the word. -/
theorem bit_healthWord (ok snap keys mem rails rx : Bool) {ports : Nat} (hports : ports ≤ 48) (others : Nat) :
    Machine.bit (BitVec.ofNat 32 (healthWord ok snap keys mem rails rx ports others)) 31 = ok ∧
      Machine.bit (BitVec.ofNat 32 (healthWord ok snap keys mem rails rx ports others)) 30 = snap ∧
      Machine.bit (BitVec.ofNat 32 (healthWord ok snap keys mem rails rx ports others)) 28 = mem ∧
      Machine.bit (BitVec.ofNat 32 (healthWord ok snap keys mem rails rx ports others)) 27 = rails ∧
      Machine.bit (BitVec.ofNat 32 (healthWord ok snap keys mem rails rx ports others)) 26 = rx := by
  rw [bit_ofNat _ (by decide) (by decide), bit_ofNat _ (by decide) (by decide), bit_ofNat _ (by decide) (by decide),
    bit_ofNat _ (by decide) (by decide), bit_ofNat _ (by decide) (by decide), healthWord_div ok snap keys mem rails rx hports]
  exact healthFlags ok snap keys mem rails rx

/-- What an evaluation judges. -/
def State.healthSnap (s : State) : Bool := s.lhStatus "SNAP_VALID" && !s.lhStatus "STALE"
def State.healthRails (s : State) : Bool := s.pwr.phase == .up && !s.pwr.removeDue
def State.healthRx (s : State) : Bool := s.lht.granted.all fun e => !e.2 || s.lht.heardPorts.get (fun _ => false) e.1
def State.healthOk (s : State) : Bool := s.healthSnap && s.healthRx && !s.lht.memErr && s.healthRails

/-- The word that it shows. -/
def State.healthNow (s : State) : Nat :=
  healthWord s.healthOk s.healthSnap (s.lht.keysIn && s.keysMatch) (!s.lht.memErr) s.healthRails s.healthRx
    ((List.range 48).filter fun n => s.bit (Reg.lhtPrePortW1 n) 31).length
    ((List.range 48).map fun n => s.fld (Reg.lhtPrePortW1 n) 9 0).sum

/-- The state that shows a health word and begins a new second. -/
def State.healthShow (s : State) (w : Nat) : State :=
  { s.wrNat Reg.lhtHealthLocal w with lht.granted := [], lht.heardPorts := [], lht.memErr := false }

/-- One second, in the raw counter's units. -/
theorem hbSecond_eq : 1000 * hbRaw = 65536000000000 := by rw [hbRaw_eq]

theorem healthEval_of_early {s : State} (h : s.raw.toNat / 65536000000000 ≤ s.lht.second) : s.healthEval = s := by
  unfold State.healthEval
  dsimp only
  rw [hbSecond_eq, if_pos h]

theorem healthEval_of_no_role {s : State} (hdue : s.lht.second < s.raw.toNat / 65536000000000) (h : s.lhStandby = false) :
    s.healthEval = { s with lht.second := s.raw.toNat / 65536000000000 } := by
  unfold State.healthEval
  dsimp only
  rw [hbSecond_eq, if_neg (Nat.not_le.mpr hdue), h]
  rfl

/-- A second that the standby judges, from the state in that second. -/
def State.healthJudge (s : State) : State :=
  if s.bit Reg.lhtHealthLocal 31 = s.healthOk then s.healthShow s.healthNow
  else (s.healthShow s.healthNow).event (leafOf 17 5) 0

theorem healthEval_of_standby {s : State} (hdue : s.lht.second < s.raw.toNat / 65536000000000) (h : s.lhStandby = true) :
    s.healthEval = ({ s with lht.second := s.raw.toNat / 65536000000000 } : State).healthJudge := by
  unfold State.healthEval State.healthJudge State.healthShow State.healthNow State.healthOk State.healthSnap State.healthRails
    State.healthRx healthWord
  dsimp only
  rw [hbSecond_eq, if_neg (Nat.not_le.mpr hdue), h, if_neg (by decide)]

theorem lhtHealthLocal_apart : apartReg Reg.lhtHealthLocal := by
  unfold apartReg eventReg
  decide

theorem healthNow_bits (s : State) :
    Machine.bit (BitVec.ofNat 32 s.healthNow) 31 = s.healthOk ∧ Machine.bit (BitVec.ofNat 32 s.healthNow) 30 = s.healthSnap ∧
      Machine.bit (BitVec.ofNat 32 s.healthNow) 28 = (!s.lht.memErr) ∧
      Machine.bit (BitVec.ofNat 32 s.healthNow) 27 = s.healthRails ∧ Machine.bit (BitVec.ofNat 32 s.healthNow) 26 = s.healthRx := by
  unfold State.healthNow
  have hports : ((List.range 48).filter fun n => s.bit (Reg.lhtPrePortW1 n) 31).length ≤ 48 :=
    (List.length_filter_le _ _).trans (Nat.le_of_eq List.length_range)
  generalize ((List.range 48).filter fun n => s.bit (Reg.lhtPrePortW1 n) 31).length = ports at hports ⊢
  exact bit_healthWord _ _ _ _ _ _ hports _

theorem healthShow_shown (s : State) (w : Nat) :
    (s.healthShow w).rd Reg.lhtHealthLocal = BitVec.ofNat 32 w ∧ (s.healthShow w).lht.granted = [] ∧
      (s.healthShow w).lht.memErr = false :=
  ⟨State.rd_wr_self s Reg.lhtHealthLocal _, rfl, rfl⟩

/-- The register and the fresh second that an evaluation leaves. -/
theorem healthJudge_word (s : State) :
    s.healthJudge.rd Reg.lhtHealthLocal = BitVec.ofNat 32 s.healthNow ∧ s.healthJudge.lht.granted = [] ∧
      s.healthJudge.lht.memErr = false ∧ (s.bit Reg.lhtHealthLocal 31 ≠ s.healthOk → Raised (leafOf 17 5) s.healthJudge) := by
  unfold State.healthJudge
  obtain ⟨hword, hgranted, hmem⟩ := healthShow_shown s s.healthNow
  generalize s.healthShow s.healthNow = u at hword hgranted hmem ⊢
  split
  · next h => exact ⟨hword, hgranted, hmem, fun hne => absurd h hne⟩
  · rw [rd_event (by decide) _ lhtHealthLocal_apart, (linked_event u _ _).lht]
    exact ⟨hword, hgranted, hmem, fun _ => raised_raise _ _ _ _ _ _⟩

/-- The standby's health as it is judged (R327). -/
theorem healthJudge_shown (s : State) :
    s.healthJudge.bit Reg.lhtHealthLocal 30 = s.healthSnap ∧ s.healthJudge.bit Reg.lhtHealthLocal 28 = (!s.lht.memErr) ∧
      s.healthJudge.bit Reg.lhtHealthLocal 27 = s.healthRails ∧ s.healthJudge.bit Reg.lhtHealthLocal 26 = s.healthRx ∧
      s.healthJudge.bit Reg.lhtHealthLocal 31 = s.healthOk ∧ s.healthJudge.lht.granted = [] ∧ s.healthJudge.lht.memErr = false ∧
      (s.bit Reg.lhtHealthLocal 31 ≠ s.healthOk → Raised (leafOf 17 5) s.healthJudge) := by
  obtain ⟨hrd, hgranted, hmem, hraised⟩ := healthJudge_word s
  obtain ⟨h31, h30, h28, h27, h26⟩ := healthNow_bits s
  have hbit : ∀ i, s.healthJudge.bit Reg.lhtHealthLocal i = Machine.bit (BitVec.ofNat 32 s.healthNow) i := fun i =>
    congrArg (Machine.bit · i) hrd
  exact ⟨(hbit 30).trans h30, (hbit 28).trans h28, (hbit 27).trans h27, (hbit 26).trans h26, (hbit 31).trans h31, hgranted, hmem,
    hraised⟩

end Sys2Proof.Machine
end

section
/-!
PROOFS. The witness window, and the pair as a whole (O50; R322).
-/
open Sys2Proof.Safety
namespace Sys2Proof.Machine

/-! ### The witness window (R322) -/

/-- The raw value at which the window that began with frame `a` ends. -/
def State.witnessDue (s : State) (a : Nat) : Int :=
  (s.chrono.psyncAt.toNat : Int) + ((a + s.witnessFrames : Nat) - (s.chrono.ponSf : Int)) * frameRaw +
    (s.teqMax * nsUnit : Nat)

theorem witnessDue_eq (s : State) (a : Nat) :
    s.witnessDue a = (s.chrono.psyncAt.toNat : Int) + ((a + s.witnessFrames : Nat) - (s.chrono.ponSf : Int)) * 8192000000 +
      (s.teqMax * 65536 : Nat) := by
  have hframe : (frameRaw : Int) = 8192000000 := rfl
  have hns : nsUnit = 65536 := rfl
  rw [State.witnessDue, hframe, hns]

theorem witnessEnd_of_off {s : State} (h : s.lht.witAt = none ∨ s.lhStandby = false ∨ s.bit Reg.lhtCtrl 1 = false) :
    s.witnessEnd = s := by
  unfold State.witnessEnd
  cases hwit : s.lht.witAt with
  | none => rfl
  | some a =>
    rw [hwit] at h
    dsimp only
    rw [if_pos]
    rcases h with h | h | h
    · exact absurd h (Option.some_ne_none a)
    · simp [h]
    · simp [h]

/-- A window that ends isolated (R322). -/
def State.isolate (s : State) : State :=
  ((({ s with lht.witAt := none } : State).setLh "WITNESS_ALIVE" false).setLh "ISOLATED" true).event (leafOf 17 4) 0

/-- The active device is alive: the next window begins. -/
def State.witnessOn (s : State) (a : Nat) : State :=
  { (({ s with lht.witAt := none } : State).setLh "WITNESS_ALIVE" true).setBit Reg.lhtStatus 0 true with
    lht.witAt := some (a + s.witnessFrames) }

section
variable {s : State} {a : Nat} (hwit : s.lht.witAt = some a)
include hwit

theorem witnessEnd_of_early (h : (s.raw.toNat : Int) < s.witnessDue a) : s.witnessEnd = s := by
  unfold State.witnessEnd
  rw [hwit]
  dsimp only
  rw [← State.witnessDue, if_pos]
  rw [decide_eq_true h, Bool.or_true]

variable (hstandby : s.lhStandby = true) (hctrl : s.bit Reg.lhtCtrl 1 = true) (hdue : s.witnessDue a ≤ s.raw.toNat)
include hstandby hctrl hdue

theorem witnessEnd_of_due :
    s.witnessEnd = if (!s.witnessed a && !s.bit Reg.lhtStatus 0) || !s.bit Reg.lhtHealthLocal 31 then s.isolate
      else if s.witnessed a then s.witnessOn a else ({ s with lht.witAt := none } : State).takeover 1 := by
  unfold State.witnessEnd
  rw [hwit]
  dsimp only
  rw [← State.witnessDue, if_neg]
  · rfl
  · rw [decide_eq_false (Int.not_lt.mpr hdue), hstandby, hctrl]
    decide

theorem witnessEnd_seen (hseen : s.witnessed a = true) (hhealth : s.bit Reg.lhtHealthLocal 31 = true) :
    s.witnessEnd = s.witnessOn a := by
  rw [witnessEnd_of_due hwit hstandby hctrl hdue, hseen, hhealth]
  rfl

theorem witnessEnd_unseen (hseen : s.witnessed a = false) (hlast : s.bit Reg.lhtStatus 0 = true)
    (hhealth : s.bit Reg.lhtHealthLocal 31 = true) : s.witnessEnd = ({ s with lht.witAt := none } : State).takeover 1 := by
  rw [witnessEnd_of_due hwit hstandby hctrl hdue, hseen, hlast, hhealth]
  rfl

theorem witnessEnd_isolated
    (h : (s.witnessed a = false ∧ s.bit Reg.lhtStatus 0 = false) ∨ s.bit Reg.lhtHealthLocal 31 = false) :
    s.witnessEnd = s.isolate := by
  rw [witnessEnd_of_due hwit hstandby hctrl hdue, if_pos]
  rcases h with ⟨hseen, hlast⟩ | hhealth
  · rw [hseen, hlast]
    rfl
  · rw [hhealth]
    exact Bool.or_true _

end

theorem witnessOn_shown {s : State} (hstandby : s.lhStandby = true) (a : Nat) :
    (s.witnessOn a).lhStatus "WITNESS_ALIVE" = true ∧ (s.witnessOn a).lht.witAt = some (a + s.witnessFrames) ∧
      OnlyRegs [Reg.lhtStatus] { s with lht := (s.witnessOn a).lht } (s.witnessOn a) ∧ (s.witnessOn a).dev.mode = .standby := by
  unfold State.witnessOn
  generalize s.witnessFrames = frames
  have hmode := mode_of_standby hstandby
  have halive : ((({ s with lht.witAt := none } : State).setLh "WITNESS_ALIVE" true).setBit Reg.lhtStatus 0 true).bit Reg.lhtStatus 27 =
      true := by
    rw [State.bit, State.rd_setBit, if_pos rfl, bit_setBit_other _ (by decide) (by decide)]
    exact (bit_setLh _ "WITNESS_ALIVE" true 27).trans (if_pos rfl)
  refine ⟨halive, rfl, ⟨rfl, fun r hr => ?_⟩, hmode⟩
  have hne : r ≠ Reg.lhtStatus := by simpa using hr
  exact ((State.rd_setBit _ _ _ _ _).trans (if_neg hne)).trans ((State.rd_setBit _ _ _ _ _).trans (if_neg hne))

theorem isolate_shown {s : State} (hstandby : s.lhStandby = true) :
    s.isolate.lhStatus "WITNESS_ALIVE" = false ∧ s.isolate.lhStatus "ISOLATED" = true ∧ s.isolate.lht.witAt = none ∧
      Raised (leafOf 17 4) s.isolate ∧ s.isolate.dev.mode = .standby := by
  have hisolated := bit_setLh (({ s with lht.witAt := none } : State).setLh "WITNESS_ALIVE" false) "ISOLATED" true
  have halive := bit_setLh ({ s with lht.witAt := none } : State) "WITNESS_ALIVE" false 27
  have hstart := mode_of_standby hstandby
  have hwindow : ((({ s with lht.witAt := none } : State).setLh "WITNESS_ALIVE" false).setLh "ISOLATED" true).lht.witAt = none := rfl
  have hmode : ((({ s with lht.witAt := none } : State).setLh "WITNESS_ALIVE" false).setLh "ISOLATED" true).dev.mode = .standby := hstart
  unfold State.isolate
  generalize ({ s with lht.witAt := none } : State).setLh "WITNESS_ALIVE" false = v at hisolated halive hwindow hmode ⊢
  generalize v.setLh "ISOLATED" true = w at hisolated hwindow hmode ⊢
  have hbit : ∀ i, (w.event (leafOf 17 4) 0).bit Reg.lhtStatus i = w.bit Reg.lhtStatus i := fun i =>
    congrArg (Machine.bit · i) (rd_event (by decide) _ lhtStatus_apart)
  refine ⟨(hbit 27).trans ((hisolated 27).trans ((if_neg (by decide)).trans (halive.trans (if_pos rfl)))),
    (hbit 28).trans ((hisolated 28).trans (if_pos rfl)), ?_, raised_raise _ _ _ _ _ _, ?_⟩
  · rw [(linked_event w _ _).lht]
    exact hwindow
  · exact (congrArg Dev.mode (linked_event w _ _).dev).trans hmode

/-! ### The pair -/

theorem lhPeerLink_runs (s : State) :
    Runs .lhPeerLinkLoss s fun t => t.bit Reg.lhtStatus 31 = false ∧ OnlyRegs [Reg.lhtStatus] s t ∧
      Runs .lhPeerLinkReturn s fun t => t.bit Reg.lhtStatus 31 = true ∧
        (s.lhActive = true → t.lht.held = [] ∧ t.out.length = s.out.length + s.lht.held.length) ∧
        RegsBut [Reg.lhtStatus] s t := by
  refine .intro rfl ⟨?_, ⟨rfl, regsBut_setBit s Reg.lhtStatus 31 false⟩, .intro (t := s.linkReturn) rfl (linkReturn_shown s)⟩
  rw [State.bit, State.rd_setBit, if_pos rfl, Machine.bit_setBit_self _ (by decide)]

theorem snapshotSlotFull_runs (s : State) :
    (s.busy .bulkSync = true → Runs .snapshotSlotFull s fun t => t.fld (opStat .bulkSync) 31 24 = 0x19 ∧ t.lht.sync = none) ∧
      (s.busy .bulkSync = false → exec .snapshotSlotFull s = .next s) := by
  have hrun : exec .snapshotSlotFull s = .next (if s.busy .bulkSync then s.slotFull else s) := rfl
  rw [hrun]
  refine ⟨fun h => ⟨_, hrun.trans (by rw [if_pos h]), slotFull_shown s⟩, fun h => ?_⟩
  rw [h]
  rfl

/-- Settles O50: every clause is what the pair's own step says, at the state that the command's instant gives. -/
theorem thePairHearsCopiesAndJudges : Obligations.ThePairHearsCopiesAndJudges := by
  unfold Obligations.ThePairHearsCopiesAndJudges
  refine ⟨?_, ?_, ?_, ?_, ?_, lhPeerLink_runs, ?_, ?_, ?_, snapshotSlotFull_runs, ?_, ?_, ?_, ?_, ?_⟩
  · intro at' journal s u hu hdue
    have hrun : exec (.heartbeatPeriod at' journal) s = .next (u.hbPeriod journal) := by rw [hu]; rfl
    refine ⟨fun hactive => .intro hrun (hbPeriod_active hdue journal hactive),
      fun hstandby hctrl hyield hgood => .intro hrun (hbPeriod_standby_heard hdue journal hstandby hctrl hyield hgood),
      fun hstandby hctrl => .intro hrun (hbPeriod_standby_manual hdue journal hstandby hctrl),
      fun hstandby hctrl hyield => .intro hrun (hbPeriod_standby_yielded hdue journal hstandby hctrl hyield),
      fun hactive hstandby => ?_⟩
    rw [hrun, hbPeriod_of_no_role hdue hactive hstandby]
    rfl
  · intro at' journal s u hu hearly
    have hrun : exec (.heartbeatPeriod at' journal) s = .next (u.hbPeriod journal) := by rw [hu]; rfl
    rw [hrun, hbPeriod_of_early hearly]
  · intro rhb src bytes s hactive hstandby
    exact congrArg Host.Outcome.next (hbReceive_of_no_role hactive hstandby rhb src.val bytes)
  · intro rhb src bytes s hrole hbad
    exact congrArg Host.Outcome.next (hbReceive_of_bad hrole hbad)
  · intro rhb src bytes s h hrole hb hvalid
    exact .intro rfl (hbReceive_good hrole hb hvalid)
  · intro kib row journal recs kcv s
    exact ⟨fun hidle => congrArg Host.Outcome.next (streamEnd_of_idle hidle kib row journal recs kcv),
      fun hbusy hserving => .intro rfl (streamEnd_standby hbusy hserving kib row journal recs kcv),
      fun hbusy hserving hup => .intro rfl (streamEnd_active hbusy hserving hup kib row journal recs kcv)⟩
  · intro recs seq s r hsync hstage hstandby
    exact .intro rfl (snapCommit_shown hsync hstage hstandby recs seq)
  · intro recs seq s h
    exact congrArg Host.Outcome.next (snapCommit_of_unstaged h recs seq)
  · intro seq recs s
    obtain ⟨hrole, hstatus, hinc, hrd⟩ := incKeep_frame s seq recs
    have hrun : exec (.incrementApply seq recs) s = .next ((s.incKeep seq recs).incTake seq recs) := rfl
    refine ⟨?_, ?_, ?_, fun h => incKeep_of_no_sync h seq recs⟩
    · intro hstandby hvalid hstale hseq
      exact .intro hrun (incTake_next_shown recs (hrole.trans hstandby) ((hstatus _).trans hvalid) ((hstatus _).trans hstale)
        (by rw [hinc]; exact hseq))
    · intro hstandby hvalid hstale hseq
      have hgap := incTake_gap_shown (seq := seq) recs (hrole.trans hstandby) ((hstatus _).trans hvalid) ((hstatus _).trans hstale)
        (by rw [hinc]; exact hseq)
      rw [hinc, hrd] at hgap
      exact .intro hrun hgap
    · intro h
      rw [hrun, incTake_of_refused]
      rw [hrole, hstatus, hstatus, hinc]
      exact h
  · intro j f bs s
    exact ⟨fun h => congrArg Host.Outcome.next (mapCopy_of_no_role h j.val f bs),
      fun hstandby hf => congrArg Host.Outcome.next (mapCopy_of_late hstandby hf j.val bs),
      fun hstandby hf => .intro rfl (mapCopy_shown hstandby hf j.val bs)⟩
  · intro at' s u hu hdue
    have hrun : exec (.healthEvaluation at') s = .next u.healthEval := by rw [hu]; rfl
    refine ⟨fun h => by rw [hrun, healthEval_of_no_role hdue h], fun h => ?_⟩
    rw [healthEval_of_standby hdue h] at hrun
    obtain ⟨h30, h28, h27, h26, h31, hgranted, hmem, hraised⟩ :=
      healthJudge_shown { u with lht.second := u.raw.toNat / 65536000000000 }
    refine .intro hrun ⟨h30, h28, h27, h26, ?_, hgranted, hmem, fun hne => hraised fun heq => hne (h31.trans heq.symm)⟩
    rw [h31, h30, h28, h27, h26]
    unfold State.healthOk
    ac_rfl
  · intro at' s u hu
    have hwitness : exec (.witnessWindowEnd at') s = .next u.witnessEnd := by rw [hu]; rfl
    have hhealth : exec (.healthEvaluation at') s = .next u.healthEval := by rw [hu]; rfl
    exact ⟨fun h => by rw [hwitness, witnessEnd_of_off h], fun h => by rw [hhealth, healthEval_of_early h]⟩
  · intro at' a s u due hu hwit hstandby hctrl hdue
    have hrun : exec (.witnessWindowEnd at') s = .next u.witnessEnd := by rw [hu]; rfl
    rw [← witnessDue_eq] at hdue
    have hends : due = true → u.witnessDue a ≤ u.raw.toNat := fun h => of_decide_eq_true (hdue.symm.trans h)
    refine ⟨fun h hseen hhealth => ?_, fun h hseen hlast hhealth => ?_, fun h hwhy => ?_, fun h => ?_⟩
    · exact .intro (hrun.trans (congrArg _ (witnessEnd_seen hwit hstandby hctrl (hends h) hseen hhealth)))
        (witnessOn_shown hstandby a)
    · obtain ⟨hmode, _, _, hcause, hcount, hwindow⟩ :=
        takeover_shown ({ u with lht.witAt := none } : State) (cause := 1) (by decide)
      exact .intro (hrun.trans (congrArg _ (witnessEnd_unseen hwit hstandby hctrl (hends h) hseen hlast hhealth)))
        ⟨hmode, hcause, hcount, hwindow⟩
    · exact .intro (hrun.trans (congrArg _ (witnessEnd_isolated hwit hstandby hctrl (hends h) hwhy))) (isolate_shown hstandby)
    · have hearly : (u.raw.toNat : Int) < u.witnessDue a := Int.not_le.mp (of_decide_eq_false (hdue.symm.trans h))
      rw [hrun, witnessEnd_of_early hwit hearly]

end Sys2Proof.Machine
end
